-- ==== Sys2Proof/Word.lean ====
section
/-! DEFINITION. The word types of the machine (R6, R8, R14) and their plainest arithmetic. -/

-- One declaration is elaborated after the other, so that the package as one text compiles in less memory.
set_option Elab.async false

namespace Sys2Proof

/-- One byte of any memory, packet or record. -/
abbrev Byte := BitVec 8
/-- A register of the control map, of an agent or of a tile: 64 bits (R8). -/
abbrev W64 := BitVec 64
/-- A 32-bit word: a job epoch, a position, a course number (R14) or a tile-buffer word. -/
abbrev W32 := BitVec 32
/-- A tray slot, 0–7 (Table 0.6). -/
abbrev Slot := Fin 8
/-- A Lathe tile, 0–255. -/
abbrev TileId := Fin 256
/-- An optical port, 0–23. -/
abbrev PortId := Fin 24
/-- A DMA channel, 0–63. -/
abbrev ChanId := Fin 64
/-- A host session of the Setout command protocol, 0–15. -/
abbrev SessId := Fin 16

/-- Sparse data by key: key and value pairs, keys strictly rising, no value equal to what an unlisted key reads as. -/
abbrev Store (α : Type) := List (Nat × α)

/-- Addition that stops at the greatest value of `w` bits ("saturating" in the register tables). -/
def satAdd (w a b : Nat) : Nat := min (a + b) (2 ^ w - 1)

end Sys2Proof
end

