-- ==== Sys2Proof/Machine/Fp.lean ====
section
/-! DEFINITION. Number formats (Table 6.5), exact values, and the one rounding every result takes (R166, R188,
R190 to R195). Values are exact rationals; a result is rounded once from the exact value. -/

namespace Sys2Proof.Machine

/-- The formats of Table 5.4, in the order of their codes 0x0–0x9. -/
inductive Fmt where
  | fp32 | bf16 | fp16 | e4m3 | e5m2 | e3m2 | e2m3 | e2m1 | mxint8 | fp64
deriving DecidableEq, Repr

/-- The format of a code; none for a code outside Table 5.4. -/
def Fmt.ofCode : Nat → Option Fmt
  | 0 => some .fp32 | 1 => some .bf16 | 2 => some .fp16 | 3 => some .e4m3 | 4 => some .e5m2
  | 5 => some .e3m2 | 6 => some .e2m3 | 7 => some .e2m1 | 8 => some .mxint8 | 9 => some .fp64
  | _ => none

/-- Element width in bits (Table 6.5). -/
def Fmt.bits : Fmt → Nat
  | .fp32 => 32 | .bf16 => 16 | .fp16 => 16 | .e4m3 => 8 | .e5m2 => 8
  | .e3m2 => 6 | .e2m3 => 6 | .e2m1 => 4 | .mxint8 => 8 | .fp64 => 64

/-- Stored fraction bits. -/
def Fmt.mbits : Fmt → Nat
  | .fp32 => 23 | .bf16 => 7 | .fp16 => 10 | .e4m3 => 3 | .e5m2 => 2
  | .e3m2 => 2 | .e2m3 => 3 | .e2m1 => 1 | .mxint8 => 0 | .fp64 => 52

/-- Exponent bias (Table 6.5). -/
def Fmt.bias : Fmt → Nat
  | .fp32 => 127 | .bf16 => 127 | .fp16 => 15 | .e4m3 => 7 | .e5m2 => 15
  | .e3m2 => 3 | .e2m3 => 1 | .e2m1 => 1 | .mxint8 => 0 | .fp64 => 1023

/-- The MX formats carry an E8M0 scale for every 32 elements. -/
def Fmt.isMX : Fmt → Bool
  | .fp32 | .bf16 | .fp16 | .fp64 => false
  | _ => true

/-- The largest finite value of a format, as significand and quantum exponent (Table 6.5). -/
def Fmt.maxFinite : Fmt → Nat × Int
  | .fp32 => (2 ^ 24 - 1, 104) | .bf16 => (2 ^ 8 - 1, 120) | .fp16 => (2 ^ 11 - 1, 5)
  | .e4m3 => (14, 5) | .e5m2 => (7, 13) | .e3m2 => (7, 2) | .e2m3 => (15, -1) | .e2m1 => (3, 1)
  | .mxint8 => (127, -6) | .fp64 => (2 ^ 53 - 1, 971)

/-- The largest element exponent of an MX format (Table 7.6). -/
def Fmt.eMax : Fmt → Int
  | .e4m3 => 8 | .e5m2 => 15 | .e3m2 => 4 | .e2m3 => 2 | .e2m1 => 2 | _ => 0

/-- The canonical NaN of a destination (Table 7.5); 0 for the formats that have none. -/
def Fmt.canonicalNaN : Fmt → Nat
  | .fp64 => 0x7FF8000000000000 | .fp32 => 0x7FC00000 | .bf16 => 0x7FC0 | .fp16 => 0x7E00
  | .e5m2 => 0x7E | .e4m3 => 0x7F | _ => 0

/-- Whether a destination format has a NaN (Table 7.5). -/
def Fmt.hasNaN : Fmt → Bool
  | .e3m2 | .e2m3 | .e2m1 | .mxint8 => false
  | _ => true

/-- An exact value: a NaN, a signed infinity, or a signed rational (zero keeps its sign). -/
inductive Ex where
  | nan
  | inf (neg : Bool)
  | fin (neg : Bool) (num den : Nat)
deriving DecidableEq, Repr

/-- `m × 2^e` as a rational. -/
def Ex.dyadic (neg : Bool) (m : Nat) (e : Int) : Ex :=
  if 0 ≤ e then .fin neg (m * 2 ^ e.toNat) 1 else .fin neg m (2 ^ (-e).toNat)

/-- Whether a value is a zero of either sign. -/
def Ex.isZero : Ex → Bool
  | .fin _ n _ => decide (n = 0)
  | _ => false

/-- The exact value of an element code (Table 6.5). -/
def Fmt.decode (f : Fmt) (code : Nat) : Ex :=
  match f with
  | .mxint8 =>
    let c := code % 256
    if c < 128 then .dyadic false c (-6) else .dyadic true (256 - c) (-6)
  | _ =>
    let c := code % 2 ^ f.bits
    let frac := c % 2 ^ f.mbits
    let eb := f.bits - 1 - f.mbits
    let ef := c / 2 ^ f.mbits % 2 ^ eb
    let neg := decide (c / 2 ^ (f.bits - 1) = 1)
    let special := match f with
      | .fp32 | .bf16 | .fp16 | .fp64 | .e5m2 => decide (ef = 2 ^ eb - 1)
      | .e4m3 => decide (ef = 15 ∧ frac = 7)
      | _ => false
    if special then (if frac = 0 then .inf neg else .nan)
    else if ef = 0 then .dyadic neg frac (1 - (f.bias : Int) - f.mbits)
    else .dyadic neg (2 ^ f.mbits + frac) ((ef : Int) - f.bias - f.mbits)

/-- An exact value times `2^k`. -/
def Ex.scale (v : Ex) (k : Int) : Ex :=
  match v with
  | .fin s n d => if 0 ≤ k then .fin s (n * 2 ^ k.toNat) d else .fin s n (d * 2 ^ (-k).toNat)
  | v => v

/-- Negation of an exact value. -/
def Ex.neg : Ex → Ex
  | .nan => .nan
  | .inf s => .inf !s
  | .fin s n d => .fin (!s) n d

/-- Exact addition under IEEE 754-2019: the second component is true for an invalid operation. An exact zero sum
of opposite signs is +0 in both rounding modes of the machine. -/
def Ex.add : Ex → Ex → Ex × Bool
  | .nan, _ => (.nan, false)
  | _, .nan => (.nan, false)
  | .inf s, .inf t => if s = t then (.inf s, false) else (.nan, true)
  | .inf s, _ => (.inf s, false)
  | _, .inf t => (.inf t, false)
  | .fin s n d, .fin t m e =>
    let a : Int := if s then -((n * e : Nat) : Int) else ((n * e : Nat) : Int)
    let b : Int := if t then -((m * d : Nat) : Int) else ((m * d : Nat) : Int)
    let c := a + b
    if c = 0 then (.fin (s && t) 0 1, false) else (.fin (decide (c < 0)) c.natAbs (d * e), false)

/-- Exact multiplication under IEEE 754-2019. -/
def Ex.mul : Ex → Ex → Ex × Bool
  | .nan, _ => (.nan, false)
  | _, .nan => (.nan, false)
  | .inf s, .inf t => (.inf (s != t), false)
  | .inf s, .fin t m _ => if m = 0 then (.nan, true) else (.inf (s != t), false)
  | .fin s n _, .inf t => if n = 0 then (.nan, true) else (.inf (s != t), false)
  | .fin s n d, .fin t m e => (.fin (s != t) (n * m) (d * e), false)

/-- Exact division; the third component is true when a finite nonzero value was divided by zero. -/
def Ex.div : Ex → Ex → Ex × Bool × Bool
  | .nan, _ => (.nan, false, false)
  | _, .nan => (.nan, false, false)
  | .inf _, .inf _ => (.nan, true, false)
  | .inf s, .fin t _ _ => (.inf (s != t), false, false)
  | .fin s _ _, .inf t => (.fin (s != t) 0 1, false, false)
  | .fin s n d, .fin t m e =>
    if m = 0 then (if n = 0 then (.nan, true, false) else (.inf (s != t), false, true))
    else (.fin (s != t) (n * e) (d * m), false, false)

/-- Exact comparison `a < b` of two values that are not NaN; zeros of both signs are equal. -/
def Ex.lt : Ex → Ex → Bool
  | .inf s, .inf t => s && !t
  | .inf s, .fin _ _ _ => s
  | .fin _ _ _, .inf t => !t
  | .fin s n d, .fin t m e =>
    let a : Int := if s then -((n * e : Nat) : Int) else ((n * e : Nat) : Int)
    let b : Int := if t then -((m * d : Nat) : Int) else ((m * d : Nat) : Int)
    decide (a < b)
  | _, _ => false

/-- Exact equality of two values that are not NaN. -/
def Ex.eq (a b : Ex) : Bool := !(a.lt b) && !(b.lt a)

/-- The rounding modes of Table 8.5: to nearest even, toward zero, stochastic with its drawn word (R195). -/
inductive Rnd where
  | rne
  | rtz
  | sto (w : Nat)
deriving DecidableEq, Repr

/-- `⌊log₂ (num ÷ den)⌋` for a positive rational. -/
def floorLog2 (num den : Nat) : Int :=
  let d : Int := (Nat.log2 num : Int) - Nat.log2 den
  if den * 2 ^ d.toNat ≤ num * 2 ^ (-d).toNat then d else d - 1

/-- Rounds `num ÷ den` to a whole number of quanta `2^q`: the count, and whether it is inexact. -/
def roundAt (num den : Nat) (q : Int) (r : Rnd) : Nat × Bool :=
  let a := num * 2 ^ (-q).toNat
  let b := den * 2 ^ q.toNat
  let n := a / b
  let rem := a % b
  let up := match r with
    | .rne => decide (b < 2 * rem) || (decide (2 * rem = b) && decide (n % 2 = 1))
    | .rtz => false
    | .sto w => decide (w < 2 ^ 32 * rem / b)
  (if up then n + 1 else n, decide (rem ≠ 0))

/-- The conditions of TLE_VXFLAGS (Table 7.11), as one bit each. -/
def flagInvalid : Nat := 1
def flagDivZero : Nat := 2
def flagOverflow : Nat := 4
def flagUnderflow : Nat := 8
def flagInexact : Nat := 16
def flagSaturate : Nat := 32
def flagNanBlock : Nat := 64

/-- A condition's bit when it holds. -/
def flagIf (c : Bool) (f : Nat) : Nat := if c then f else 0

/-- The sign bit of a code. -/
def Fmt.signBit (f : Fmt) (neg : Bool) : Nat := if neg then 2 ^ (f.bits - 1) else 0

/-- The code of the magnitude `n × 2^q`, where `q` is the quantum that rounding chose. -/
def Fmt.packMag (f : Fmt) (n : Nat) (q : Int) : Nat :=
  if n < 2 ^ f.mbits then n
  else
    let n' := if n = 2 ^ (f.mbits + 1) then n / 2 else n
    let q' := if n = 2 ^ (f.mbits + 1) then q + 1 else q
    (q' + f.mbits + f.bias).toNat * 2 ^ f.mbits + (n' - 2 ^ f.mbits)

/-- The code of an infinity of a format that has one. -/
def Fmt.infCode (f : Fmt) (neg : Bool) : Nat :=
  f.signBit neg + (2 ^ (f.bits - 1 - f.mbits) - 1) * 2 ^ f.mbits

/-- The code of the largest finite value. -/
def Fmt.maxCode (f : Fmt) (neg : Bool) : Nat :=
  match f with
  | .mxint8 => if neg then 128 else 127
  | _ => f.signBit neg + f.packMag f.maxFinite.1 f.maxFinite.2

/-- What a finite value beyond the largest finite one becomes (R192, Table 7.5). -/
def Fmt.overflow (f : Fmt) (sat neg : Bool) : Nat × Nat :=
  match f with
  | .e3m2 | .e2m3 | .e2m1 | .mxint8 => (f.maxCode neg, flagOverflow + flagInexact + flagSaturate)
  | .e4m3 =>
    if sat then (f.maxCode neg, flagOverflow + flagInexact + flagSaturate)
    else (f.canonicalNaN, flagOverflow + flagInexact)
  | _ =>
    if sat then (f.maxCode neg, flagOverflow + flagInexact + flagSaturate)
    else (f.infCode neg, flagOverflow + flagInexact)

/-- One rounding of a finite exact value into a format: the code and the conditions it raises (R188, R190, R192,
R195). Tininess is judged before rounding. -/
def Fmt.roundFin (f : Fmt) (sat : Bool) (r : Rnd) (neg : Bool) (num den : Nat) : Nat × Nat :=
  match f with
  | .mxint8 =>
    let (n, ix) := roundAt num den (-6) r
    let lim := if neg then 128 else 127
    if lim < n then f.overflow sat neg
    else (if neg then (256 - n) % 256 else n, flagIf ix flagInexact)
  | _ =>
    if num = 0 then (f.signBit neg, 0)
    else
      let e := floorLog2 num den
      let emin : Int := 1 - (f.bias : Int)
      let q := max e emin - f.mbits
      let (n, ix) := roundAt num den q r
      let exceeds := decide (f.maxFinite.1 * 2 ^ (f.maxFinite.2 - q).toNat < n * 2 ^ (q - f.maxFinite.2).toNat)
      if exceeds then f.overflow sat neg
      else (f.signBit neg + f.packMag n q,
        flagIf ix flagInexact + flagIf (ix && decide (e < emin)) flagUnderflow)

/-- One rounding of any exact value into a format (Table 7.5). -/
def Fmt.round (f : Fmt) (sat : Bool) (r : Rnd) (v : Ex) : Nat × Nat :=
  match v with
  | .nan => (f.canonicalNaN, 0)
  | .fin s n d => f.roundFin sat r s n d
  | .inf s =>
    match f with
    | .e3m2 | .e2m3 | .e2m1 | .mxint8 => (f.maxCode s, flagSaturate)
    | .e4m3 => if sat then (f.maxCode s, flagSaturate) else (f.canonicalNaN, 0)
    | _ => (f.infCode s, 0)

/-- A binary32 addition, rounded to nearest even (R171, R199). -/
def fp32Add (a b : Nat) : Nat := (Fmt.fp32.round false .rne (Ex.add (Fmt.fp32.decode a) (Fmt.fp32.decode b)).1).1

/-- A binary64 addition, rounded to nearest even (R199). -/
def fp64Add (a b : Nat) : Nat := (Fmt.fp64.round false .rne (Ex.add (Fmt.fp64.decode a) (Fmt.fp64.decode b)).1).1

/-- The block scale exponent of R191 from the largest magnitude of the block's finite values. -/
def mxScaleCode (f : Fmt) (num den : Nat) : Nat :=
  if num = 0 then 0x7F
  else
    let e := floorLog2 num den - f.eMax
    (min 127 (max (-127) e) + 127).toNat

/-- Integer square root by bisection on bits: the largest `r` with `r² ≤ n`, for `n < 2^(2·fuel)`. -/
def isqrtLoop (n : Nat) : Nat → Nat → Nat
  | 0, r => r
  | k + 1, r => if (r + 2 ^ k) * (r + 2 ^ k) ≤ n then isqrtLoop n k (r + 2 ^ k) else isqrtLoop n k r

/-- The integer square root. -/
def isqrt (n : Nat) : Nat := isqrtLoop n (Nat.log2 n / 2 + 1) 0

/-- A rational that rounds as `sqrt (num ÷ den)` does: the root to `k` bits after the point, with half a unit added
when it is inexact. -/
def sqrtSticky (num den k : Nat) : Nat × Nat :=
  let a := num * 2 ^ (2 * k)
  let s := isqrt (a / den)
  let exact := decide (s * s * den = a)
  (2 * s + (if exact then 0 else 1), 2 ^ (k + 1))

/-- The exact square root, as a value that rounds the same (invalid below −0). -/
def Ex.sqrt (k : Nat) : Ex → Ex × Bool
  | .nan => (.nan, false)
  | .inf s => if s then (.nan, true) else (.inf false, false)
  | .fin s n d =>
    if n = 0 then (.fin s 0 1, false)
    else if s then (.nan, true)
    else let (a, b) := sqrtSticky n d k; (.fin false a b, false)

/-- The exact reciprocal square root; a zero operand divides by zero. -/
def Ex.rsqrt (k : Nat) : Ex → Ex × Bool × Bool
  | .nan => (.nan, false, false)
  | .inf s => if s then (.nan, true, false) else (.fin false 0 1, false, false)
  | .fin s n d =>
    if n = 0 then (.inf s, false, true)
    else if s then (.nan, true, false)
    else let (a, b) := sqrtSticky d n k; (.fin false a b, false, false)

end Sys2Proof.Machine
end

