-- ==== Sys2Proof/Machine/Funcs.lean ====
section
/-! DEFINITION. The mathematical functions of the vector unit (R188): an exact enclosure of the true value, tightened
until it lies between two neighbouring multiples of a fine quantum, so that the one rounding of the result is the
rounding of the true value. -/

namespace Sys2Proof.Machine

/-- An enclosure of a real number: whole units of `2^-k`. -/
structure Iv where
  lo : Int
  hi : Int
deriving DecidableEq, Repr

/-- Division rounded up. -/
def cdiv (a b : Int) : Int := -((-a) / b)

/-- The enclosure of a rational. -/
def Iv.ofRat (k num den : Nat) : Iv := ⟨(num * 2 ^ k : Nat) / (den : Int), cdiv (num * 2 ^ k : Nat) den⟩

/-- Product of two enclosures of nonnegative numbers. -/
def Iv.mul (k : Nat) (a b : Iv) : Iv := ⟨a.lo * b.lo / (2 ^ k : Nat), cdiv (a.hi * b.hi) (2 ^ k : Nat)⟩

/-- Sum of two enclosures. -/
def Iv.add (a b : Iv) : Iv := ⟨a.lo + b.lo, a.hi + b.hi⟩

/-- Division by a positive whole number. -/
def Iv.divN (a : Iv) (n : Nat) : Iv := ⟨a.lo / (n : Int), cdiv a.hi n⟩

/-- Quotient of two enclosures, the numerator nonnegative and the denominator positive. -/
def Iv.div (k : Nat) (a b : Iv) : Iv := ⟨a.lo * (2 ^ k : Nat) / b.hi, cdiv (a.hi * (2 ^ k : Nat)) b.lo⟩

/-- The exponential series from its term `i` on, `n` more terms; the tail is at most twice the last term, for
arguments below one half. -/
def expSeries (k : Nat) (r : Iv) : Nat → Nat → Iv → Iv → Iv
  | 0, _, term, acc => ⟨acc.lo, acc.hi + 2 * term.hi + 2⟩
  | n + 1, i, term, acc =>
    let t := (Iv.mul k term r).divN i
    expSeries k r n (i + 1) t (acc.add t)

/-- Squares an enclosure `n` times. -/
def Iv.squareN (k : Nat) : Nat → Iv → Iv
  | 0, a => a
  | n + 1, a => Iv.squareN k n (Iv.mul k a a)

/-- An enclosure of `exp (num ÷ den)` for an argument from 0 to 200: the argument is divided by 2¹⁰ first. -/
def expIv (k : Nat) (x : Iv) : Iv :=
  let r : Iv := x.divN 1024
  let one : Iv := ⟨(2 ^ k : Nat), (2 ^ k : Nat)⟩
  Iv.squareN k 10 (expSeries k r (k / 4 + 20) 1 one one)

/-- The series `z + z³/3 + z⁵/5 + …`, `n` more terms; the tail is at most the last power. -/
def atanhSeries (k : Nat) (z2 : Iv) : Nat → Nat → Iv → Iv → Iv
  | 0, _, pow, acc => ⟨acc.lo, acc.hi + pow.hi + 2⟩
  | n + 1, i, pow, acc => atanhSeries k z2 n (i + 2) (Iv.mul k pow z2) (acc.add (pow.divN i))

/-- An enclosure of `ln (num ÷ den)` for an argument from 1 to 2. -/
def lnOneTwo (k num den : Nat) : Iv :=
  let z := Iv.ofRat k (num - den) (num + den)
  let s := atanhSeries k (Iv.mul k z z) (k / 3 + 20) 1 z ⟨0, 0⟩
  ⟨2 * s.lo, 2 * s.hi⟩

/-- An enclosure of `ln 2`. -/
def ln2Iv (k : Nat) : Iv := lnOneTwo k 2 1

/-- An enclosure of `ln (num ÷ den)` for any positive rational. -/
def lnIv (k num den : Nat) : Iv :=
  let e := floorLog2 num den
  let m := lnOneTwo k (num * 2 ^ (-e).toNat) (den * 2 ^ e.toNat)
  let l := ln2Iv k
  let el : Iv := if 0 ≤ e then ⟨e * l.lo, e * l.hi⟩ else ⟨e * l.hi, e * l.lo⟩
  el.add m

/-- Bits beyond those wanted: an enclosure of `exp x` widens as `exp x` grows, below 2²⁸⁹ where x is below 200. -/
def guardBits : Nat := 384

/-- The rational that rounds as the enclosed irrational number does, when the enclosure of `k + guardBits` bits is tight
enough at `k` bits. -/
def Iv.settle (k : Nat) (a : Iv) : Option (Nat × Nat) :=
  let lo := a.lo / (2 ^ guardBits : Nat)
  let hi := a.hi / (2 ^ guardBits : Nat)
  if lo = hi ∧ 0 ≤ lo then some (2 * lo.toNat + 1, 2 ^ (k + 1)) else none

/-- The first settled enclosure of a list of precisions. -/
def settleFirst (f : Nat → Iv) : List Nat → Option (Nat × Nat)
  | [] => none
  | k :: ks => match (f (k + guardBits)).settle k with
    | some r => some r
    | none => settleFirst f ks

/-- The precisions tried, in bits after the point. -/
def precisions : List Nat := [192, 512, 1024, 2048]

/-- The outcome of a function: an exact value that rounds as the true one, or none where no precision tried settles
it (the result is then a free value), and the invalid and divide-by-zero conditions. -/
structure FnOut where
  val : Option Ex
  invalid : Bool := false
  divZero : Bool := false
deriving DecidableEq, Repr

/-- A settled positive magnitude with its sign. -/
def FnOut.ofSettled (neg : Bool) (r : Option (Nat × Nat)) : FnOut := ⟨r.map (fun p => .fin neg p.1 p.2), false, false⟩

/-- A number just above 0, just below 1, and one beyond every finite binary32 value. -/
def tinyEx (neg : Bool) : Ex := .fin neg 1 (2 ^ 400)
def belowOneEx (neg : Bool) : Ex := .fin neg (2 ^ 400 - 1) (2 ^ 400)
def hugeEx : Ex := .fin false (2 ^ 300) 1

/-- `exp` of a value. -/
def fnExp : Ex → FnOut
  | .nan => ⟨some .nan, false, false⟩
  | .inf s => ⟨some (if s then .fin false 0 1 else .inf false), false, false⟩
  | .fin s n d =>
    if n = 0 then ⟨some (.fin false 1 1), false, false⟩
    else if 200 * d ≤ n then ⟨some (if s then tinyEx false else hugeEx), false, false⟩
    else .ofSettled false (settleFirst (fun k =>
      let e := expIv k (Iv.ofRat k n d)
      if s then Iv.div k ⟨(2 ^ k : Nat), (2 ^ k : Nat)⟩ e else e) precisions)

/-- `2` to the power of a value. -/
def fnExp2 : Ex → FnOut
  | .nan => ⟨some .nan, false, false⟩
  | .inf s => ⟨some (if s then .fin false 0 1 else .inf false), false, false⟩
  | .fin s n d =>
    if n = 0 then ⟨some (.fin false 1 1), false, false⟩
    else if 400 * d ≤ n then ⟨some (if s then tinyEx false else hugeEx), false, false⟩
    else
      let whole : Int := if s then -(cdiv n d) else ((n / d : Nat) : Int)
      let fnum : Int := (if s then -(n : Int) else n) - whole * d
      if fnum = 0 then ⟨some (.dyadic false 1 whole), false, false⟩
      else
        match settleFirst (fun k =>
          let l := ln2Iv k
          expIv k ⟨l.lo * fnum / (d : Int), cdiv (l.hi * fnum) d⟩) precisions with
        | some p => ⟨some (Ex.scale (.fin false p.1 p.2) whole), false, false⟩
        | none => ⟨none, false, false⟩

/-- Whether a positive rational is a power of two. -/
def isPow2 (num den : Nat) : Bool :=
  let e := floorLog2 num den
  decide (num * 2 ^ (-e).toNat = den * 2 ^ e.toNat)

/-- The logarithm of a value, to base e or to base 2. -/
def fnLog (base2 : Bool) : Ex → FnOut
  | .nan => ⟨some .nan, false, false⟩
  | .inf s => if s then ⟨some .nan, true, false⟩ else ⟨some (.inf false), false, false⟩
  | .fin s n d =>
    if n = 0 then ⟨some (.inf true), false, true⟩
    else if s then ⟨some .nan, true, false⟩
    else if n = d then ⟨some (.fin false 0 1), false, false⟩
    else if base2 && isPow2 n d then
      let e := floorLog2 n d
      ⟨some (.fin (decide (e < 0)) e.natAbs 1), false, false⟩
    else
      let neg := decide (n < d)
      .ofSettled neg (settleFirst (fun k =>
        let l := lnIv k n d
        let m : Iv := if neg then ⟨-l.hi, -l.lo⟩ else l
        if base2 then Iv.div k m (ln2Iv k) else m) precisions)

/-- The hyperbolic tangent of a value. -/
def fnTanh : Ex → FnOut
  | .nan => ⟨some .nan, false, false⟩
  | .inf s => ⟨some (.fin s 1 1), false, false⟩
  | .fin s n d =>
    if n = 0 then ⟨some (.fin s 0 1), false, false⟩
    else if 100 * d ≤ n then ⟨some (belowOneEx s), false, false⟩
    else .ofSettled s (settleFirst (fun k =>
      let e := expIv k (Iv.ofRat k (2 * n) d)
      let one : Int := (2 ^ k : Nat)
      -- (e − 1) ÷ (e + 1) rises with e
      ⟨(e.lo - one) * one / (e.lo + one), cdiv ((e.hi - one) * one) (e.hi + one)⟩) precisions)

/-- The sigmoid of a value. -/
def fnSigmoid : Ex → FnOut
  | .nan => ⟨some .nan, false, false⟩
  | .inf s => ⟨some (.fin false (if s then 0 else 1) 1), false, false⟩
  | .fin s n d =>
    if n = 0 then ⟨some (.fin false 1 2), false, false⟩
    else if 200 * d ≤ n then ⟨some (if s then tinyEx false else belowOneEx false), false, false⟩
    else .ofSettled false (settleFirst (fun k =>
      let e := expIv k (Iv.ofRat k n d)
      let one : Int := (2 ^ k : Nat)
      if s then ⟨one * one / (one + e.hi), cdiv (one * one) (one + e.lo)⟩
      else ⟨e.lo * one / (e.lo + one), cdiv (e.hi * one) (e.hi + one)⟩) precisions)

end Sys2Proof.Machine
end

