-- ==== Sys2Proof/Machine/Crypto.lean ====
section
/-! DEFINITION. The checks, digests and generators the spec names by their published algorithms: CRC-64 (Table 2.19),
CRC-32C (R320), CRC-8 (R309), MARK-128 (R50), Philox4x32-10 (R193) and SHA-256. -/

namespace Sys2Proof.Machine

/-- One bit of a reflected CRC. -/
def crcBit (poly w : Nat) : Nat := if w % 2 = 1 then (w / 2) ^^^ poly else w / 2

/-- Eight bits of a reflected CRC. -/
def crcByte (poly w : Nat) (b : Byte) : Nat :=
  let x := w ^^^ b.toNat
  crcBit poly (crcBit poly (crcBit poly (crcBit poly (crcBit poly (crcBit poly (crcBit poly (crcBit poly x)))))))

/-- CRC-64 with the parameters of Table 2.19 (the polynomial stands reflected). -/
def crc64 (bs : List Byte) : Nat :=
  bs.foldl (crcByte 0xC96C5795D7870F42) 0xFFFFFFFFFFFFFFFF ^^^ 0xFFFFFFFFFFFFFFFF

/-- CRC-32C with the parameters of R320. -/
def crc32c (bs : List Byte) : Nat :=
  bs.foldl (crcByte 0x82F63B78) 0xFFFFFFFF ^^^ 0xFFFFFFFF

/-- One bit of the crossconnect's CRC-8, most significant bit first (R309). -/
def crc8Bit (w : Nat) : Nat := if 128 ≤ w then (w * 2 % 256) ^^^ 0x07 else w * 2

/-- CRC-8 with polynomial 0x07 and initial value 0 (R309). -/
def crc8 (bs : List Byte) : Nat :=
  bs.foldl (fun w b =>
    crc8Bit (crc8Bit (crc8Bit (crc8Bit (crc8Bit (crc8Bit (crc8Bit (crc8Bit (w ^^^ b.toNat))))))))) 0

/-- The little-endian integer of a byte string (R6). -/
def leNat : List Byte → Nat
  | [] => 0
  | b :: bs => b.toNat + 256 * leNat bs

/-- The `n` little-endian bytes of an integer (R6). -/
def leBytes : Nat → Nat → List Byte
  | 0, _ => []
  | n + 1, v => BitVec.ofNat 8 v :: leBytes n (v / 256)

/-- Multiplication by x in GF(2¹²⁸) with the polynomial of R50. -/
def gfX (a : Nat) : Nat := if 2 ^ 127 ≤ a then (a * 2 % 2 ^ 128) ^^^ 0x87 else a * 2

/-- Multiplication in GF(2¹²⁸), over the low bits of `b` first. -/
def gfMulLoop : Nat → Nat → Nat → Nat → Nat
  | 0, _, _, acc => acc
  | n + 1, a, b, acc => gfMulLoop n (gfX a) (b / 2) (if b % 2 = 1 then acc ^^^ a else acc)

/-- Multiplication in GF(2¹²⁸) (R50). -/
def gfMul (a b : Nat) : Nat := gfMulLoop 128 a b 0

/-- Splits a byte string into pieces of `n` bytes; the fuel is the number of pieces. -/
def chunks (n : Nat) : Nat → List Byte → List (List Byte)
  | 0, _ => []
  | f + 1, bs => if bs.isEmpty then [] else bs.take n :: chunks n f (bs.drop n)

/-- MARK-128 (R50): the mark of a message under the key halves H and S, with the final block of Table 2.21. -/
def mark128 (h s : Nat) (msg : List Byte) (domain seq24 pos : Nat) : Nat :=
  let y := (chunks 16 (msg.length / 16 + 1) msg).foldl (fun y m => gfMul (y ^^^ leNat m) h) 0
  let f := msg.length % 2 ^ 64 + domain % 256 * 2 ^ 64 + seq24 % 2 ^ 24 * 2 ^ 72 + pos % 2 ^ 32 * 2 ^ 96
  gfMul (y ^^^ f) h ^^^ s

/-- One round of Philox4x32 (R193), with the key words of the round. -/
def philoxRound (c0 c1 c2 c3 k0 k1 : Nat) : Nat × Nat × Nat × Nat :=
  let m0 := 0xD2511F53 * c0
  let m1 := 0xCD9E8D57 * c2
  ((m1 / 2 ^ 32) ^^^ c1 ^^^ k0, m1 % 2 ^ 32, (m0 / 2 ^ 32) ^^^ c3 ^^^ k1, m0 % 2 ^ 32)

/-- The rounds of Philox4x32, the key rising by the Weyl constants after each. -/
def philoxLoop : Nat → Nat → Nat → Nat → Nat → Nat → Nat → Nat × Nat × Nat × Nat
  | 0, c0, c1, c2, c3, _, _ => (c0, c1, c2, c3)
  | n + 1, c0, c1, c2, c3, k0, k1 =>
    let r := philoxRound c0 c1 c2 c3 k0 k1
    philoxLoop n r.1 r.2.1 r.2.2.1 r.2.2.2 ((k0 + 0x9E3779B9) % 2 ^ 32) ((k1 + 0xBB67AE85) % 2 ^ 32)

/-- Philox4x32-10 at a 128-bit counter under a 64-bit key: output word `i` (R193). -/
def philoxWord (key ctr i : Nat) : Nat :=
  let r := philoxLoop 10 (ctr % 2 ^ 32) (ctr / 2 ^ 32 % 2 ^ 32) (ctr / 2 ^ 64 % 2 ^ 32) (ctr / 2 ^ 96 % 2 ^ 32)
    (key % 2 ^ 32) (key / 2 ^ 32 % 2 ^ 32)
  match i with
  | 0 => r.1
  | 1 => r.2.1
  | 2 => r.2.2.1
  | _ => r.2.2.2

/-- The numbers of SHA-256. PRESUMED: FIPS 180-4, which the spec names SHA-256 without reprinting (notes/assumptions/9). The 64 round constants, the
first in the highest 32 bits: of the cube roots of the first 64 primes, the first 32 bits of the fraction. -/
def shaCubeRoots : Nat :=
  0x428a2f9871374491b5c0fbcfe9b5dba53956c25b59f111f1923f82a4ab1c5ed5d807aa9812835b01243185be550c7dc372be5d7480deb1fe9bdc06a7c19bf174e49b69c1efbe47860fc19dc6240ca1cc2de92c6f4a7484aa5cb0a9dc76f988da983e5152a831c66db00327c8bf597fc7c6e00bf3d5a7914706ca63511429296727b70a852e1b21384d2c6dfc53380d13650a7354766a0abb81c2c92e92722c85a2bfe8a1a81a664bc24b8b70c76c51a3d192e819d6990624f40e3585106aa07019a4c1161e376c082748774c34b0bcb5391c0cb34ed8aa4a5b9cca4f682e6ff3748f82ee78a5636f84c878148cc7020890befffaa4506cebbef9a3f7c67178f2

/-- The initial hash value, in the same form: of the square roots of the first eight primes. -/
def shaSquareRoots : Nat := 0x6a09e667bb67ae853c6ef372a54ff53a510e527f9b05688c1f83d9ab5be0cd19

/-- Word `i` of `n` words of 32 bits packed in one number, the first word highest. -/
def packedWord (n v i : Nat) : W32 := BitVec.ofNat 32 (v >>> (32 * (n - 1 - i)))

/-- Three rotations of a word to the right, or two and a shift, added bitwise. -/
def turn3 (i j k : Nat) (x : W32) : W32 := x.rotateRight i ^^^ x.rotateRight j ^^^ x.rotateRight k
def turn2 (i j k : Nat) (x : W32) : W32 := x.rotateRight i ^^^ x.rotateRight j ^^^ x >>> k

/-- The word of the message schedule that follows a window of 16, oldest first. -/
def shaNext (w : List W32) : W32 := turn2 17 19 10 (w.getD 14 0) + w.getD 9 0 + turn2 7 18 3 (w.getD 1 0) + w.getD 0 0

/-- The rounds that remain, each with the oldest word of the window, which then moves on by one. The eight working words stand with the
first at the head. -/
def shaRounds : Nat → List W32 → List W32 → List W32
  | n + 1, w, [p, q, r, s, x, y, z, v] =>
    let t := v + turn3 6 11 25 x + (z ^^^ (x &&& (y ^^^ z))) + packedWord 64 shaCubeRoots (63 - n) + w.headD 0
    shaRounds n (w.drop 1 ++ [shaNext w]) [t + turn3 2 13 22 p + ((p &&& (q ||| r)) ||| (q &&& r)), p, q, r, s + t, x, y, z]
  | _, _, vs => vs

/-- The big-endian 32-bit word of four bytes. -/
def beWord (bs : List Byte) : W32 := BitVec.ofNat 32 (bs.foldl (fun v b => v * 256 + b.toNat) 0)

/-- The compression of one 64-byte block. -/
def shaBlock (h : List W32) (blk : List Byte) : List W32 :=
  (shaRounds 64 ((chunks 4 16 blk).map beWord) h).zipWith (· + ·) h

/-- The hash value before the first block. -/
def sha256H : List W32 := (List.range 8).map (packedWord 8 shaSquareRoots)

/-- SHA-256 of a byte string, 32 bytes. -/
def sha256 (msg : List Byte) : List Byte :=
  let n := msg.length
  let pad := (119 - n % 64) % 64
  let bits := 8 * n
  let m := msg ++ [0x80#8] ++ List.replicate pad 0#8 ++ (leBytes 8 bits).reverse
  let h := (chunks 64 (m.length / 64) m).foldl shaBlock sha256H
  h.flatMap fun w => (leBytes 4 w.toNat).reverse

/-- A digest as a number, byte 0 least significant (R6). -/
def shaNat (msg : List Byte) : Nat := leNat (sha256 msg)

/-- The ASCII bytes of a short name. -/
def ascii (s : String) : List Byte := s.toList.map fun c => BitVec.ofNat 8 c.toNat

end Sys2Proof.Machine
end

