-- ==== Sys2Proof/Config.lean ====
section
/-! DEFINITION. What the spec leaves open as a value: constants with no body, so that a claim holds whatever they are
(notes/assumptions names each), and the algorithms the spec names but does not reprint and that the model does not
compute (signatures, key exchange, authenticated encryption). -/

namespace Sys2Proof

/-- A value the spec leaves open, one for each draw of the machine's free-value counter. -/
opaque Config.freeWord : Nat → W64

/-- A run of bytes the spec leaves open, one for each draw. -/
opaque Config.freeBytes : Nat → List Byte

/-- LMS verification (NIST SP 800-208): public key, message, signature. -/
opaque Config.lmsVerify : List Byte → List Byte → List Byte → Bool

/-- An LMS signature by leaf `n` of one of the device's own keys: key 0 is the identity key, key g the g-th working key. -/
opaque Config.lmsSign : Nat → Nat → List Byte → List Byte

/-- The public key of the device's own key `g`. -/
opaque Config.lmsPublic : Nat → List Byte

/-- The public keys of the manufacturing root and of the firmware key: production, engineering (Table 15.2). -/
opaque Config.rootPublic : Bool → List Byte
opaque Config.fwPublic : Bool → List Byte

/-- The device certificate of the part (Table 15.3). -/
opaque Config.deviceCert : List Byte

/-- The MAC address of Ethernet port 0, from the identity store. -/
opaque Config.macAddress : BitVec 48

/-- The firmware image in flash when the part left the factory. -/
opaque Config.factoryImage : List Byte

/-- The modulus check of FIPS 203 on an encapsulation key. -/
opaque Config.kemKeyOk : List Byte → Bool

/-- Drain requests that a member keeps outstanding on one tray port: the register the spec names for it has no table. -/
opaque Config.drainDepth : Nat

/-- How a dump codes the origin of a transfer (Table 10.8), from its kind and number. -/
opaque Config.originWord : Nat → Nat → Nat

/-- QAG_ID of the accelerator in a slot: the licensee's fixed VENDOR, LATHE and HOST (Table 2.4). -/
opaque Config.agentId : Nat → W64

/-- ML-KEM-768 encapsulation (FIPS 203) to an encapsulation key, with the device's own randomness: ciphertext and
shared secret. -/
opaque Config.kemEncaps : List Byte → Nat → List Byte × List Byte

/-- ML-KEM-768 decapsulation of a ciphertext by the device's ephemeral key number `n`. -/
opaque Config.kemDecaps : Nat → List Byte → List Byte

/-- The encapsulation key of the device's ephemeral key number `n`. -/
opaque Config.kemPublic : Nat → List Byte

/-- AES-256-GCM decryption: key, nonce, additional data, ciphertext with tag; none where the tag fails. -/
opaque Config.gcmOpen : List Byte → List Byte → List Byte → List Byte → Option (List Byte)

/-- AES-256-GCM encryption: key, nonce, additional data, plaintext; ciphertext with tag. -/
opaque Config.gcmSeal : List Byte → List Byte → List Byte → List Byte → List Byte

/-- Records that the witness queue holds: the spec places it in HBM and gives it no size. -/
opaque Config.witnessQueue : Nat

/-- What the memory stacks and channels have moved (Table 16.2): the spec does not give the accesses of translation, scrubbing and
repair. By draw and counter. -/
opaque Config.traffic : Nat → Nat → W64

/-- The content of scan chains that is internal to the part (Tables 9.14 and 16.5), by chain and draw. -/
opaque Config.scanInternal : Nat → Nat → List Byte

end Sys2Proof
end

