-- ==== Sys2Proof/Machine/Store.lean ====
section
/-! DEFINITION. Reading and writing sparse data in its one canonical form. What an unlisted key reads as is the
argument `dflt`; a write of that value removes the entry. -/

namespace Sys2Proof

/-- The listed value at a key, if there is one. -/
def Store.find? {α : Type} : Store α → Nat → Option α
  | [], _ => none
  | e :: m, k => if e.1 = k then some e.2 else Store.find? m k

/-- The value at a key: the listed one, else what an unlisted key reads as. -/
def Store.get {α : Type} (dflt : Nat → α) (m : Store α) (k : Nat) : α :=
  match Store.find? m k with
  | some v => v
  | none => dflt k

/-- Puts an entry at its place in a rising list, replacing an entry with the same key. -/
def Store.insert {α : Type} : Store α → Nat → α → Store α
  | [], k, v => [(k, v)]
  | e :: m, k, v =>
    if e.1 < k then e :: Store.insert m k v
    else if e.1 = k then (k, v) :: m
    else (k, v) :: e :: m

/-- Puts an element before the first of a list whose number is no lower. -/
def putSorted {α : Type} (num : α → Nat) (x : α) : List α → List α
  | [] => [x]
  | y :: ys => if num x ≤ num y then x :: y :: ys else y :: putSorted num x ys

/-- The elements in rising order of a number; those of one number keep their order. -/
def sortOn {α : Type} (num : α → Nat) : List α → List α
  | [] => []
  | x :: xs => putSorted num x (sortOn num xs)

/-- Removes what is listed at a key. -/
def Store.remove {α : Type} (m : Store α) (k : Nat) : Store α := m.filter fun e => !decide (e.1 = k)

/-- Writes a key, keeping the canonical form. -/
def Store.put {α : Type} [DecidableEq α] (dflt : Nat → α) (m : Store α) (k : Nat) (v : α) : Store α :=
  if v = dflt k then Store.remove m k else Store.insert m k v

/-- Writes a run of consecutive keys. -/
def Store.putAll {α : Type} [DecidableEq α] (dflt : Nat → α) : Store α → Nat → List α → Store α
  | m, _, [] => m
  | m, k, v :: vs => Store.putAll dflt (Store.put dflt m k v) (k + 1) vs

/-- Reads `n` consecutive keys. -/
def Store.getAll {α : Type} (dflt : Nat → α) (m : Store α) : Nat → Nat → List α
  | _, 0 => []
  | k, n + 1 => Store.get dflt m k :: Store.getAll dflt m (k + 1) n

/-- Removes every entry whose key lies in a range (the range then reads as unlisted). -/
def Store.clearRange {α : Type} (m : Store α) (base len : Nat) : Store α :=
  m.filter fun e => !(decide (base ≤ e.1) && decide (e.1 < base + len))

/-- The canonical form: keys strictly rising, and no entry equal to what its key reads as when unlisted. -/
abbrev Store.Canonical {α : Type} (dflt : Nat → α) (m : Store α) : Prop :=
  m.Pairwise (fun a b => a.1 < b.1) ∧ ∀ e ∈ m, e.2 ≠ dflt e.1

end Sys2Proof
end

