-- ==== Sys2Proof/Machine/RegFile.lean ====
section
/-! DEFINITION. What a register access does: named fields, access types (R10, Table 0.4), reserved fields (R11) and
unassigned addresses (R12), over a sparse register file. -/

namespace Sys2Proof.Machine

/-- A named register field: the register's address and the field's place in its word. -/
structure Fld where
  addr : Nat
  lsb : Nat
  width : Nat
deriving DecidableEq, Repr

/-- The access types of Table 0.4. -/
inductive Acc where
  | ro | rw | w1c | w1s | wo | pk
deriving DecidableEq, Repr

/-- One field of a register table: place, access type and value at power-on (R9). -/
structure FldSpec where
  lsb : Nat
  width : Nat
  acc : Acc
  reset : Nat
deriving DecidableEq, Repr

/-- One row of a register table: `count` registers of one layout, `stride` apart. -/
structure RegRow where
  base : Nat
  stride : Nat
  count : Nat
  flds : List FldSpec
deriving DecidableEq, Repr

/-- Whether a row of a register table holds the register at an address. -/
def RegRow.has (r : RegRow) (a : Nat) : Bool :=
  decide (r.base ≤ a) && decide ((a - r.base) % r.stride = 0) && decide ((a - r.base) / r.stride < r.count)

/-- The fields of the register at an address; none for an unassigned address (R12). -/
def fieldsAt (t : List RegRow) (a : Nat) : List FldSpec :=
  match t.find? (fun r => r.has a) with
  | some r => r.flds
  | none => []

/-- The bits a field occupies, as a mask. -/
def bitMask (lsb width : Nat) : W64 := BitVec.ofNat 64 ((2 ^ width - 1) * 2 ^ lsb)

/-- The bits of a register that hold readable state: every field but the write-only ones (R10, R11). -/
def implMask (t : List RegRow) (a : Nat) : W64 :=
  (fieldsAt t a).foldl (fun m f => if f.acc = .wo then m else m ||| bitMask f.lsb f.width) 0

/-- The value at power-on of the register at an address (R9). -/
def resetWord (t : List RegRow) (a : Nat) : W64 :=
  (fieldsAt t a).foldl (fun m f => if f.acc = .wo then m else m ||| BitVec.ofNat 64 (f.reset % 2 ^ f.width * 2 ^ f.lsb)) 0

/-- A field's value within a word. -/
def Fld.of (f : Fld) (w : W64) : Nat := w.toNat / 2 ^ f.lsb % 2 ^ f.width

/-- A word with a field replaced; a value too wide for the field keeps its low bits. -/
def Fld.into (f : Fld) (w : W64) (v : Nat) : W64 :=
  (w &&& ~~~(bitMask f.lsb f.width)) ||| BitVec.ofNat 64 (v % 2 ^ f.width * 2 ^ f.lsb)

/-- What one field's bits become when `v` is written over `old` (Table 0.4). A PK field keeps its value outside a
completed two-key change. -/
def FldSpec.written (f : FldSpec) (old v : W64) : W64 :=
  let m := bitMask f.lsb f.width
  match f.acc with
  | .ro => old &&& m
  | .rw => v &&& m
  | .w1c => old &&& m &&& ~~~v
  | .w1s => (old ||| v) &&& m
  | .wo => 0
  | .pk => old &&& m

/-- The register word a write leaves: each field by its own rule, reserved bits 0 (R10, R11). -/
def writtenWord (t : List RegRow) (a : Nat) (old v : W64) : W64 :=
  (fieldsAt t a).foldl (fun w f => w ||| f.written old v) 0

/-- Whether a write touches a PK field: one whose written value differs from its current value (Table 0.4). -/
def touchesPK (t : List RegRow) (a : Nat) (old v : W64) : Bool :=
  (fieldsAt t a).any fun f => f.acc = .pk && decide ((old ^^^ v) &&& bitMask f.lsb f.width ≠ 0)

end Sys2Proof.Machine
end

