-- ==== Sys2Proof/Machine/Regs.lean ====
section
/-! DEFINITION. The control registers of the map (Table 17.7), the registers of a Quoin agent's block
(Table 2.3) and the registers of a tile's block: one named field per field row of the spec's register
tables, and the tables of access type and power-on value that R9 and R10 act on. -/

set_option maxRecDepth 4000

namespace Sys2Proof.Machine

/-! HUB_ROLE: Table 1.5 -/

def HUB_ROLE_ROLE : Fld := ⟨0x40, 0, 4⟩
def HUB_ROLE_GUEST_ON : Fld := ⟨0x40, 4, 1⟩
def HUB_ROLE_SHORE_SLOT : Fld := ⟨0x40, 8, 3⟩
def HUB_ROLE_PARTNER : Fld := ⟨0x40, 16, 2⟩
def HUB_ROLE_FW : Fld := ⟨0x40, 18, 2⟩
def HUB_ROLE_JOB_EPOCH : Fld := ⟨0x40, 24, 32⟩
def HUB_ROLE_TRANSIT : Fld := ⟨0x40, 56, 1⟩

/-! HUB_SLOTn: Table 1.7 -/

def HUB_SLOT_POSITION (n : Nat) : Fld := ⟨0x100 + 0x8 * n, 0, 32⟩
def HUB_SLOT_STATE (n : Nat) : Fld := ⟨0x100 + 0x8 * n, 32, 3⟩

/-! HUB_POST: Table 1.11 -/

def HUB_POST_GO : Fld := ⟨0x50, 0, 1⟩
def HUB_POST_DONE : Fld := ⟨0x50, 1, 1⟩
def HUB_POST_PASS : Fld := ⟨0x50, 2, 1⟩
def HUB_POST_QCLEAR : Fld := ⟨0x50, 3, 1⟩
def HUB_POST_FIRST_FAIL : Fld := ⟨0x50, 8, 8⟩

/-! HUB_PART: Table 13.10 -/

def HUB_PART_PARTITION : Fld := ⟨0x200, 0, 16⟩

/-! HUB_EPOCHS: Table 13.10 -/

def HUB_EPOCHS_MIN : Fld := ⟨0x208, 0, 32⟩
def HUB_EPOCHS_MAX : Fld := ⟨0x208, 32, 32⟩

/-! HUB_PAIR: Table 13.10 -/

def HUB_PAIR_PADDR : Fld := ⟨0x210, 0, 22⟩
def HUB_PAIR_CAUSE : Fld := ⟨0x210, 24, 4⟩
def HUB_PAIR_PEPOCH : Fld := ⟨0x210, 32, 32⟩

/-! HUB_JOIN: Table 13.11 -/

def HUB_JOIN_MEMBER : Fld := ⟨0x218, 0, 11⟩
def HUB_JOIN_VALID : Fld := ⟨0x218, 11, 1⟩
def HUB_JOIN_OLD : Fld := ⟨0x218, 12, 22⟩

/-! HUB_START: Table 13.11 -/

def HUB_START_PHASE : Fld := ⟨0x220, 0, 4⟩
def HUB_START_STATUS : Fld := ⟨0x220, 4, 4⟩
def HUB_START_START_S : Fld := ⟨0x220, 16, 16⟩

/-! HUB_TREE: Table 13.12 -/

def HUB_TREE_INDEX : Fld := ⟨0x228, 0, 11⟩
def HUB_TREE_PARENT : Fld := ⟨0x228, 11, 11⟩
def HUB_TREE_REPARENTED : Fld := ⟨0x228, 22, 1⟩
def HUB_TREE_TREE_MS : Fld := ⟨0x228, 32, 16⟩

/-! HUB_KEPT: Table 13.12 -/

def HUB_KEPT_COURSE : Fld := ⟨0x230, 0, 32⟩
def HUB_KEPT_DROP : Fld := ⟨0x230, 32, 1⟩

/-! HUB_EVT: Table 13.13 -/

def HUB_EVT_PARTNER_LOST : Fld := ⟨0x238, 0, 1⟩
def HUB_EVT_PAIRED : Fld := ⟨0x238, 1, 1⟩
def HUB_EVT_TREE_REPAIR : Fld := ⟨0x238, 2, 1⟩
def HUB_EVT_STRIPE_MISSING : Fld := ⟨0x238, 3, 1⟩
def HUB_EVT_START_ABORT : Fld := ⟨0x238, 4, 1⟩
def HUB_EVT_SCRUB_DONE : Fld := ⟨0x238, 5, 1⟩
def HUB_EVT_ALL_SCRUBBED : Fld := ⟨0x238, 6, 1⟩
def HUB_EVT_ENUM_CONFLICT : Fld := ⟨0x238, 7, 1⟩
def HUB_EVT_POST : Fld := ⟨0x238, 8, 1⟩

/-! HUB_EVT_EN: Table 13.13 -/

def HUB_EVT_EN_PARTNER_LOST : Fld := ⟨0x240, 0, 1⟩
def HUB_EVT_EN_PAIRED : Fld := ⟨0x240, 1, 1⟩
def HUB_EVT_EN_TREE_REPAIR : Fld := ⟨0x240, 2, 1⟩
def HUB_EVT_EN_STRIPE_MISSING : Fld := ⟨0x240, 3, 1⟩
def HUB_EVT_EN_START_ABORT : Fld := ⟨0x240, 4, 1⟩
def HUB_EVT_EN_SCRUB_DONE : Fld := ⟨0x240, 5, 1⟩
def HUB_EVT_EN_ALL_SCRUBBED : Fld := ⟨0x240, 6, 1⟩
def HUB_EVT_EN_ENUM_CONFLICT : Fld := ⟨0x240, 7, 1⟩
def HUB_EVT_EN_POST : Fld := ⟨0x240, 8, 1⟩

/-! HUB_MODES: Table 17.5 -/

def HUB_MODES_ROLE : Fld := ⟨0x48, 0, 4⟩
def HUB_MODES_GUEST_ON : Fld := ⟨0x48, 4, 1⟩
def HUB_MODES_PARTNER : Fld := ⟨0x48, 5, 2⟩
def HUB_MODES_SPARE : Fld := ⟨0x48, 7, 1⟩
def HUB_MODES_FW : Fld := ⟨0x48, 8, 2⟩
def HUB_MODES_EARLY_EN : Fld := ⟨0x48, 10, 1⟩
def HUB_MODES_DEDUP_EN : Fld := ⟨0x48, 11, 1⟩
def HUB_MODES_FAR_EN : Fld := ⟨0x48, 12, 1⟩
def HUB_MODES_CARRY_EN : Fld := ⟨0x48, 13, 1⟩
def HUB_MODES_PAIRED : Fld := ⟨0x48, 14, 1⟩
def HUB_MODES_RELAXED_ANY : Fld := ⟨0x48, 15, 1⟩
def HUB_MODES_WITNESS : Fld := ⟨0x48, 16, 1⟩
def HUB_MODES_SHORE_OK : Fld := ⟨0x48, 17, 1⟩
def HUB_MODES_BOUND : Fld := ⟨0x48, 18, 1⟩
def HUB_MODES_PORT_DEG : Fld := ⟨0x48, 24, 24⟩
def HUB_MODES_INTERVAL : Fld := ⟨0x48, 48, 16⟩

/-! HUB_ID: Table 17.8 -/

def HUB_ID_PART : Fld := ⟨0x0, 0, 16⟩
def HUB_ID_REV : Fld := ⟨0x0, 16, 8⟩
def HUB_ID_ENG : Fld := ⟨0x0, 24, 1⟩
def HUB_ID_LATHE : Fld := ⟨0x0, 32, 8⟩
def HUB_ID_AGENT_SPEC : Fld := ⟨0x0, 40, 8⟩

/-! HUB_DEVID0: Table 17.8 -/

def HUB_DEVID0_ID : Fld := ⟨0x8, 0, 64⟩

/-! HUB_DEVID1: Table 17.8 -/

def HUB_DEVID1_ID : Fld := ⟨0x10, 0, 64⟩

/-- Access types and power-on values (R9, R10). -/
def ctlRowsHub0 : List RegRow := [
  -- HUB_ROLE
  ⟨0x40, 0x8, 1, [⟨0, 4, .ro, 0⟩, ⟨4, 1, .ro, 0⟩, ⟨8, 3, .ro, 0⟩, ⟨16, 2, .ro, 0⟩, ⟨18, 2, .ro, 0⟩, ⟨24, 32, .ro, 0⟩, ⟨56, 1, .ro, 0⟩]⟩,
  -- HUB_SLOTn
  ⟨0x100, 0x8, 8, [⟨0, 32, .ro, 0xffffffff⟩, ⟨32, 3, .ro, 6⟩]⟩,
  -- HUB_POST
  ⟨0x50, 0x8, 1, [⟨0, 1, .w1s, 0⟩, ⟨1, 1, .ro, 0⟩, ⟨2, 1, .ro, 0⟩, ⟨3, 1, .ro, 0⟩, ⟨8, 8, .ro, 0⟩]⟩,
  -- HUB_PART
  ⟨0x200, 0x8, 1, [⟨0, 16, .pk, 0⟩]⟩,
  -- HUB_EPOCHS
  ⟨0x208, 0x8, 1, [⟨0, 32, .pk, 1⟩, ⟨32, 32, .pk, 0⟩]⟩,
  -- HUB_PAIR
  ⟨0x210, 0x8, 1, [⟨0, 22, .ro, 0⟩, ⟨24, 4, .ro, 1⟩, ⟨32, 32, .ro, 0⟩]⟩,
  -- HUB_JOIN
  ⟨0x218, 0x8, 1, [⟨0, 11, .rw, 0⟩, ⟨11, 1, .rw, 0⟩, ⟨12, 22, .rw, 0⟩]⟩,
  -- HUB_START
  ⟨0x220, 0x8, 1, [⟨0, 4, .ro, 0⟩, ⟨4, 4, .ro, 0⟩, ⟨16, 16, .rw, 0x258⟩]⟩,
  -- HUB_TREE
  ⟨0x228, 0x8, 1, [⟨0, 11, .ro, 0⟩, ⟨11, 11, .ro, 0x7ff⟩, ⟨22, 1, .ro, 0⟩, ⟨32, 16, .rw, 0x1f4⟩]⟩,
  -- HUB_KEPT
  ⟨0x230, 0x8, 1, [⟨0, 32, .ro, 0xffffffff⟩, ⟨32, 1, .w1s, 0⟩]⟩,
  -- HUB_EVT
  ⟨0x238, 0x8, 1, [⟨0, 1, .w1c, 0⟩, ⟨1, 1, .w1c, 0⟩, ⟨2, 1, .w1c, 0⟩, ⟨3, 1, .w1c, 0⟩, ⟨4, 1, .w1c, 0⟩, ⟨5, 1, .w1c, 0⟩, ⟨6, 1, .w1c, 0⟩, ⟨7, 1, .w1c, 0⟩, ⟨8, 1, .w1c, 0⟩]⟩,
  -- HUB_EVT_EN
  ⟨0x240, 0x8, 1, [⟨0, 1, .rw, 1⟩, ⟨1, 1, .rw, 0⟩, ⟨2, 1, .rw, 1⟩, ⟨3, 1, .rw, 1⟩, ⟨4, 1, .rw, 1⟩, ⟨5, 1, .rw, 1⟩, ⟨6, 1, .rw, 1⟩, ⟨7, 1, .rw, 1⟩, ⟨8, 1, .rw, 1⟩]⟩]

/-- Access types and power-on values (R9, R10). -/
def ctlRowsHub1 : List RegRow := [
  -- HUB_MODES
  ⟨0x48, 0x8, 1, [⟨0, 4, .ro, 0⟩, ⟨4, 1, .ro, 0⟩, ⟨5, 2, .ro, 0⟩, ⟨7, 1, .ro, 0⟩, ⟨8, 2, .ro, 0⟩, ⟨10, 1, .ro, 0⟩, ⟨11, 1, .ro, 0⟩, ⟨12, 1, .ro, 0⟩, ⟨13, 1, .ro, 0⟩, ⟨14, 1, .ro, 0⟩, ⟨15, 1, .ro, 0⟩, ⟨16, 1, .ro, 0⟩, ⟨17, 1, .ro, 0⟩, ⟨18, 1, .ro, 0⟩, ⟨24, 24, .ro, 0⟩, ⟨48, 16, .ro, 0⟩]⟩,
  -- HUB_ID
  ⟨0x0, 0x8, 1, [⟨0, 16, .ro, 0x4800⟩, ⟨16, 8, .ro, 1⟩, ⟨24, 1, .ro, 0⟩, ⟨32, 8, .ro, 3⟩, ⟨40, 8, .ro, 1⟩]⟩,
  -- HUB_DEVID0
  ⟨0x8, 0x8, 1, [⟨0, 64, .ro, 0⟩]⟩,
  -- HUB_DEVID1
  ⟨0x10, 0x8, 1, [⟨0, 64, .ro, 0⟩]⟩]

/-- Access types and power-on values (R9, R10). -/
def ctlRowsHub : List RegRow := ctlRowsHub0 ++ ctlRowsHub1

/-! QAG_ID: Table 2.4 -/

def QAG_ID_VENDOR : Fld := ⟨0x0, 0, 16⟩
def QAG_ID_SPEC : Fld := ⟨0x0, 16, 8⟩
def QAG_ID_LATHE : Fld := ⟨0x0, 24, 1⟩
def QAG_ID_HOST : Fld := ⟨0x0, 32, 16⟩

/-! QAG_CTRL: Table 2.5 -/

def QAG_CTRL_KICK : Fld := ⟨0x8, 0, 1⟩
def QAG_CTRL_FATAL : Fld := ⟨0x8, 1, 1⟩
def QAG_CTRL_FENCE_REQ : Fld := ⟨0x8, 2, 1⟩
def QAG_CTRL_QUIET : Fld := ⟨0x8, 3, 1⟩
def QAG_CTRL_REASON : Fld := ⟨0x8, 16, 16⟩

/-! QAG_STATE: Table 2.6 -/

def QAG_STATE_STATE : Fld := ⟨0x10, 0, 3⟩
def QAG_STATE_CSTATE : Fld := ⟨0x10, 4, 3⟩
def QAG_STATE_TRAY_UP : Fld := ⟨0x10, 8, 1⟩
def QAG_STATE_SB_UP : Fld := ⟨0x10, 9, 1⟩
def QAG_STATE_HALTED : Fld := ⟨0x10, 10, 1⟩

/-! QAG_BIND: Table 2.7 -/

def QAG_BIND_POSITION : Fld := ⟨0x18, 0, 32⟩
def QAG_BIND_EPOCH : Fld := ⟨0x18, 32, 32⟩

/-! QAG_PODTIME: Table 2.8 -/

def QAG_PODTIME_TIME : Fld := ⟨0x80, 0, 64⟩

/-! QAG_REGn_A: Table 2.9 -/

def QAG_REG_A_VALID (n : Nat) : Fld := ⟨0x400 + 0x10 * n, 0, 1⟩
def QAG_REG_A_STATE (n : Nat) : Fld := ⟨0x400 + 0x10 * n, 1, 1⟩
def QAG_REG_A_CHECKED (n : Nat) : Fld := ⟨0x400 + 0x10 * n, 2, 1⟩
def QAG_REG_A_ARCH (n : Nat) : Fld := ⟨0x400 + 0x10 * n, 3, 1⟩
def QAG_REG_A_RGROUP (n : Nat) : Fld := ⟨0x400 + 0x10 * n, 4, 16⟩
def QAG_REG_A_BASE (n : Nat) : Fld := ⟨0x400 + 0x10 * n, 21, 43⟩

/-! QAG_REGn_B: Table 2.10 -/

def QAG_REG_B_LEN (n : Nat) : Fld := ⟨0x408 + 0x10 * n, 0, 32⟩

/-! QAG_STEP: Table 2.11 -/

def QAG_STEP_STEP : Fld := ⟨0x20, 0, 64⟩

/-! QAG_COURSE: Table 2.13 -/

def QAG_COURSE_CUR : Fld := ⟨0x28, 0, 32⟩
def QAG_COURSE_COMMITTED : Fld := ⟨0x28, 32, 32⟩

/-! QAG_CBUF_CFG: Table 2.15 -/

def QAG_CBUF_CFG_SIZE : Fld := ⟨0x30, 0, 5⟩
def QAG_CBUF_CFG_STALL_US : Fld := ⟨0x30, 32, 32⟩

/-! QAG_CBUF_USE: Table 2.16 -/

def QAG_CBUF_USE_USED : Fld := ⟨0x38, 0, 32⟩
def QAG_CBUF_USE_STALL_US : Fld := ⟨0x38, 32, 32⟩

/-! QAG_CBUF_BASE: Table 2.17 -/

def QAG_CBUF_BASE_BASE : Fld := ⟨0x40, 21, 43⟩

/-! QAG_WIT_BASE: Table 2.17 -/

def QAG_WIT_BASE_BASE : Fld := ⟨0x58, 21, 43⟩

/-! QAG_CHK_BASE: Table 2.20 -/

def QAG_CHK_BASE_BASE : Fld := ⟨0x48, 12, 52⟩

/-! QAG_PM_BASE: Table 2.20 -/

def QAG_PM_BASE_BASE : Fld := ⟨0x50, 12, 52⟩

/-! QAG_KEY_STAT: Table 2.22 -/

def QAG_KEY_STAT_SLOT0 : Fld := ⟨0x90, 0, 32⟩
def QAG_KEY_STAT_SLOT1 : Fld := ⟨0x90, 32, 32⟩

/-! QAG_WIT_CFG: Table 2.24 -/

def QAG_WIT_CFG_EN : Fld := ⟨0x60, 0, 1⟩
def QAG_WIT_CFG_RATE : Fld := ⟨0x60, 8, 5⟩
def QAG_WIT_CFG_KEY_OK : Fld := ⟨0x60, 16, 1⟩
def QAG_WIT_CFG_PERIOD : Fld := ⟨0x60, 32, 9⟩

/-! QAG_WIT_COUNT: Table 2.25 -/

def QAG_WIT_COUNT_MX_TILES : Fld := ⟨0x68, 0, 32⟩
def QAG_WIT_COUNT_RD_SLICES : Fld := ⟨0x68, 32, 32⟩

/-! QAG_WSCHk: Table 2.25 -/

def QAG_WSCH_MX_TILES (n : Nat) : Fld := ⟨0x1000 + 0x8 * n, 0, 32⟩
def QAG_WSCH_RD_SLICES (n : Nat) : Fld := ⟨0x1000 + 0x8 * n, 32, 32⟩

/-! QAG_WIT_PUSH: Table 2.26 -/

def QAG_WIT_PUSH_LEN : Fld := ⟨0x98, 0, 32⟩
def QAG_WIT_PUSH_DROP : Fld := ⟨0x98, 63, 1⟩

/-! QAG_WIT_RING: Table 2.27 -/

def QAG_WIT_RING_HEAD : Fld := ⟨0xa0, 0, 32⟩
def QAG_WIT_RING_TAIL : Fld := ⟨0xa0, 32, 32⟩

/-! QAG_CNT_ADD: Table 2.28 -/

def QAG_CNT_ADD_INDEX : Fld := ⟨0x88, 0, 12⟩
def QAG_CNT_ADD_INC : Fld := ⟨0x88, 32, 32⟩

/-! QAG_EVT: Table 2.30 -/

def QAG_EVT_FATAL : Fld := ⟨0x70, 0, 1⟩
def QAG_EVT_CHECK_FAIL : Fld := ⟨0x70, 1, 1⟩
def QAG_EVT_MARK_FAIL : Fld := ⟨0x70, 2, 1⟩
def QAG_EVT_STEP_SEQ : Fld := ⟨0x70, 3, 1⟩
def QAG_EVT_STALL_ABANDON : Fld := ⟨0x70, 4, 1⟩
def QAG_EVT_WIT_GAP : Fld := ⟨0x70, 5, 1⟩
def QAG_EVT_WIT_DROP : Fld := ⟨0x70, 6, 1⟩
def QAG_EVT_TRAY_DOWN : Fld := ⟨0x70, 7, 1⟩
def QAG_EVT_KEY_INVALID : Fld := ⟨0x70, 8, 1⟩
def QAG_EVT_HOST_CFG : Fld := ⟨0x70, 9, 1⟩
def QAG_EVT_FENCE_DONE : Fld := ⟨0x70, 10, 1⟩
def QAG_EVT_HALT : Fld := ⟨0x70, 11, 1⟩

/-! QAG_EVT_EN: Table 2.30 -/

def QAG_EVT_EN_FATAL : Fld := ⟨0x78, 0, 1⟩
def QAG_EVT_EN_CHECK_FAIL : Fld := ⟨0x78, 1, 1⟩
def QAG_EVT_EN_MARK_FAIL : Fld := ⟨0x78, 2, 1⟩
def QAG_EVT_EN_STEP_SEQ : Fld := ⟨0x78, 3, 1⟩
def QAG_EVT_EN_STALL_ABANDON : Fld := ⟨0x78, 4, 1⟩
def QAG_EVT_EN_WIT_GAP : Fld := ⟨0x78, 5, 1⟩
def QAG_EVT_EN_WIT_DROP : Fld := ⟨0x78, 6, 1⟩
def QAG_EVT_EN_TRAY_DOWN : Fld := ⟨0x78, 7, 1⟩
def QAG_EVT_EN_KEY_INVALID : Fld := ⟨0x78, 8, 1⟩
def QAG_EVT_EN_HOST_CFG : Fld := ⟨0x78, 9, 1⟩
def QAG_EVT_EN_FENCE_DONE : Fld := ⟨0x78, 10, 1⟩
def QAG_EVT_EN_HALT : Fld := ⟨0x78, 11, 1⟩

/-! QAG_HLT0: Table 2.29 -/

def QAG_HLT0_VALUE : Fld := ⟨0x100, 0, 64⟩

/-! QAG_HLT1: Table 2.29 -/

def QAG_HLT1_VALUE : Fld := ⟨0x108, 0, 64⟩

/-! QAG_HLT2: Table 2.29 -/

def QAG_HLT2_VALUE : Fld := ⟨0x110, 0, 64⟩

/-! QAG_HLT3: Table 2.29 -/

def QAG_HLT3_VALUE : Fld := ⟨0x118, 0, 64⟩

/-! QAG_HLT4: Table 2.29 -/

def QAG_HLT4_VALUE : Fld := ⟨0x120, 0, 64⟩

/-! QAG_HLT5: Table 2.29 -/

def QAG_HLT5_VALUE : Fld := ⟨0x128, 0, 64⟩

/-! QAG_HLT6: Table 2.29 -/

def QAG_HLT6_VALUE : Fld := ⟨0x130, 0, 64⟩

/-! QAG_HLT7: Table 2.29 -/

def QAG_HLT7_VALUE : Fld := ⟨0x138, 0, 64⟩

/-- Access types and power-on values (R9, R10). -/
def agentRowsQag0 : List RegRow := [
  -- QAG_ID
  ⟨0x0, 0x8, 1, [⟨0, 16, .ro, 0⟩, ⟨16, 8, .ro, 1⟩, ⟨24, 1, .ro, 0⟩, ⟨32, 16, .ro, 0⟩]⟩,
  -- QAG_CTRL
  ⟨0x8, 0x8, 1, [⟨0, 1, .w1s, 0⟩, ⟨1, 1, .w1s, 0⟩, ⟨2, 1, .w1s, 0⟩, ⟨3, 1, .w1s, 0⟩, ⟨16, 16, .wo, 0⟩]⟩,
  -- QAG_STATE
  ⟨0x10, 0x8, 1, [⟨0, 3, .ro, 0⟩, ⟨4, 3, .ro, 0⟩, ⟨8, 1, .ro, 0⟩, ⟨9, 1, .ro, 0⟩, ⟨10, 1, .ro, 0⟩]⟩,
  -- QAG_BIND
  ⟨0x18, 0x8, 1, [⟨0, 32, .ro, 0xffffffff⟩, ⟨32, 32, .ro, 0⟩]⟩,
  -- QAG_PODTIME
  ⟨0x80, 0x8, 1, [⟨0, 64, .ro, 0⟩]⟩,
  -- QAG_REGn_A
  ⟨0x400, 0x10, 64, [⟨0, 1, .rw, 0⟩, ⟨1, 1, .rw, 0⟩, ⟨2, 1, .rw, 0⟩, ⟨3, 1, .rw, 0⟩, ⟨4, 16, .rw, 0⟩, ⟨21, 43, .rw, 0⟩]⟩,
  -- QAG_REGn_B
  ⟨0x408, 0x10, 64, [⟨0, 32, .rw, 0⟩]⟩,
  -- QAG_STEP
  ⟨0x20, 0x8, 1, [⟨0, 64, .rw, 0⟩]⟩,
  -- QAG_COURSE
  ⟨0x28, 0x8, 1, [⟨0, 32, .ro, 0xffffffff⟩, ⟨32, 32, .ro, 0xffffffff⟩]⟩,
  -- QAG_CBUF_CFG
  ⟨0x30, 0x8, 1, [⟨0, 5, .rw, 4⟩, ⟨32, 32, .rw, 0xc350⟩]⟩,
  -- QAG_CBUF_USE
  ⟨0x38, 0x8, 1, [⟨0, 32, .ro, 0⟩, ⟨32, 32, .ro, 0⟩]⟩,
  -- QAG_CBUF_BASE
  ⟨0x40, 0x8, 1, [⟨21, 43, .rw, 0⟩]⟩]

/-- Access types and power-on values (R9, R10). -/
def agentRowsQag1 : List RegRow := [
  -- QAG_WIT_BASE
  ⟨0x58, 0x8, 1, [⟨21, 43, .rw, 0⟩]⟩,
  -- QAG_CHK_BASE
  ⟨0x48, 0x8, 1, [⟨12, 52, .rw, 0⟩]⟩,
  -- QAG_PM_BASE
  ⟨0x50, 0x8, 1, [⟨12, 52, .rw, 0⟩]⟩,
  -- QAG_KEY_STAT
  ⟨0x90, 0x8, 1, [⟨0, 32, .ro, 0xffffffff⟩, ⟨32, 32, .ro, 0xffffffff⟩]⟩,
  -- QAG_WIT_CFG
  ⟨0x60, 0x8, 1, [⟨0, 1, .rw, 0⟩, ⟨8, 5, .rw, 0xc⟩, ⟨16, 1, .ro, 0⟩, ⟨32, 9, .rw, 1⟩]⟩,
  -- QAG_WIT_COUNT
  ⟨0x68, 0x8, 1, [⟨0, 32, .ro, 0⟩, ⟨32, 32, .ro, 0⟩]⟩,
  -- QAG_WSCHk
  ⟨0x1000, 0x8, 256, [⟨0, 32, .rw, 0⟩, ⟨32, 32, .rw, 0⟩]⟩,
  -- QAG_WIT_PUSH
  ⟨0x98, 0x8, 1, [⟨0, 32, .wo, 0⟩, ⟨63, 1, .wo, 0⟩]⟩,
  -- QAG_WIT_RING
  ⟨0xa0, 0x8, 1, [⟨0, 32, .ro, 0x11000⟩, ⟨32, 32, .ro, 0x11000⟩]⟩,
  -- QAG_CNT_ADD
  ⟨0x88, 0x8, 1, [⟨0, 12, .wo, 0⟩, ⟨32, 32, .wo, 0⟩]⟩,
  -- QAG_EVT
  ⟨0x70, 0x8, 1, [⟨0, 1, .w1c, 0⟩, ⟨1, 1, .w1c, 0⟩, ⟨2, 1, .w1c, 0⟩, ⟨3, 1, .w1c, 0⟩, ⟨4, 1, .w1c, 0⟩, ⟨5, 1, .w1c, 0⟩, ⟨6, 1, .w1c, 0⟩, ⟨7, 1, .w1c, 0⟩, ⟨8, 1, .w1c, 0⟩, ⟨9, 1, .w1c, 0⟩, ⟨10, 1, .w1c, 0⟩, ⟨11, 1, .w1c, 0⟩]⟩,
  -- QAG_EVT_EN
  ⟨0x78, 0x8, 1, [⟨0, 1, .ro, 1⟩, ⟨1, 1, .rw, 1⟩, ⟨2, 1, .rw, 1⟩, ⟨3, 1, .rw, 1⟩, ⟨4, 1, .rw, 0⟩, ⟨5, 1, .rw, 1⟩, ⟨6, 1, .rw, 0⟩, ⟨7, 1, .rw, 0⟩, ⟨8, 1, .rw, 0⟩, ⟨9, 1, .rw, 0⟩, ⟨10, 1, .rw, 0⟩, ⟨11, 1, .rw, 0⟩]⟩]

/-- Access types and power-on values (R9, R10). -/
def agentRowsQag2 : List RegRow := [
  -- QAG_HLT0
  ⟨0x100, 0x8, 1, [⟨0, 64, .rw, 0⟩]⟩,
  -- QAG_HLT1
  ⟨0x108, 0x8, 1, [⟨0, 64, .rw, 0⟩]⟩,
  -- QAG_HLT2
  ⟨0x110, 0x8, 1, [⟨0, 64, .rw, 0⟩]⟩,
  -- QAG_HLT3
  ⟨0x118, 0x8, 1, [⟨0, 64, .rw, 0⟩]⟩,
  -- QAG_HLT4
  ⟨0x120, 0x8, 1, [⟨0, 64, .ro, 0⟩]⟩,
  -- QAG_HLT5
  ⟨0x128, 0x8, 1, [⟨0, 64, .ro, 0⟩]⟩,
  -- QAG_HLT6
  ⟨0x130, 0x8, 1, [⟨0, 64, .ro, 0⟩]⟩,
  -- QAG_HLT7
  ⟨0x138, 0x8, 1, [⟨0, 64, .ro, 0⟩]⟩,
  -- QAG_CURn
  ⟨0x180, 0x8, 16, [⟨0, 64, .rw, 0⟩]⟩,
  -- QAG_PHXk: KEY, TAG, CTR_LO and CTR_HI of streams 0-255
  ⟨0x2000, 0x8, 1024, [⟨0, 64, .rw, 0⟩]⟩,
  -- QAG_CNTn
  ⟨0x8000, 0x8, 4096, [⟨0, 64, .ro, 0⟩]⟩]

/-- Access types and power-on values (R9, R10). -/
def agentRowsQag : List RegRow := agentRowsQag0 ++ agentRowsQag1 ++ agentRowsQag2

/-! QAG_CURn (R43), the four registers of Philox stream k (R43) and QAG_CNTn (R56) -/

def QAG_CUR_VALUE (n : Nat) : Fld := ⟨0x180 + 0x8 * n, 0, 64⟩
def QAG_PHX_KEY (k : Nat) : Fld := ⟨0x2000 + 0x20 * k, 0, 64⟩
def QAG_PHX_TAG (k : Nat) : Fld := ⟨0x2008 + 0x20 * k, 0, 64⟩
def QAG_PHX_CTR_LO (k : Nat) : Fld := ⟨0x2010 + 0x20 * k, 0, 64⟩
def QAG_PHX_CTR_HI (k : Nat) : Fld := ⟨0x2018 + 0x20 * k, 0, 64⟩
def QAG_CNT_VALUE (n : Nat) : Fld := ⟨0x8000 + 0x8 * n, 0, 64⟩

/-! CRS_CTRL: Table 3.14 -/

def CRS_CTRL_EN : Fld := ⟨0x80000, 0, 1⟩
def CRS_CTRL_EARLY_EN : Fld := ⟨0x80000, 1, 1⟩
def CRS_CTRL_DEDUP_EN : Fld := ⟨0x80000, 2, 1⟩
def CRS_CTRL_FAR_EN : Fld := ⟨0x80000, 3, 1⟩
def CRS_CTRL_CARRY_EN : Fld := ⟨0x80000, 4, 1⟩
def CRS_CTRL_LANE_WATCH : Fld := ⟨0x80000, 5, 1⟩
def CRS_CTRL_HOT : Fld := ⟨0x80000, 6, 1⟩
def CRS_CTRL_OPEN : Fld := ⟨0x80000, 8, 1⟩
def CRS_CTRL_ABANDON : Fld := ⟨0x80000, 9, 1⟩

/-! CRS_STAT: Table 3.15 -/

def CRS_STAT_STATE : Fld := ⟨0x80008, 0, 3⟩
def CRS_STAT_VOTED : Fld := ⟨0x80008, 3, 1⟩
def CRS_STAT_MIRROR_ACK : Fld := ⟨0x80008, 4, 1⟩
def CRS_STAT_SOLO : Fld := ⟨0x80008, 5, 1⟩
def CRS_STAT_CUT : Fld := ⟨0x80008, 8, 8⟩
def CRS_STAT_DONE : Fld := ⟨0x80008, 16, 8⟩
def CRS_STAT_LAST_CAUSE : Fld := ⟨0x80008, 24, 8⟩
def CRS_STAT_UNACKED : Fld := ⟨0x80008, 32, 32⟩

/-! CRS_COURSE: Table 3.16 -/

def CRS_COURSE_CUR : Fld := ⟨0x80010, 0, 32⟩
def CRS_COURSE_COMMITTED : Fld := ⟨0x80010, 32, 32⟩

/-! CRS_STEP: Table 3.16 -/

def CRS_STEP_STEP : Fld := ⟨0x80018, 0, 64⟩

/-! CRS_CFG: Table 3.17 -/

def CRS_CFG_INTERVAL : Fld := ⟨0x80020, 0, 16⟩
def CRS_CFG_LEAD_MIN : Fld := ⟨0x80020, 16, 4⟩
def CRS_CFG_LEAD_MAX : Fld := ⟨0x80020, 20, 4⟩
def CRS_CFG_HOLDOFF_S : Fld := ⟨0x80020, 32, 16⟩

/-! CRS_ROOT: Table 3.18 -/

def CRS_ROOT_ADDR : Fld := ⟨0x80028, 0, 22⟩
def CRS_ROOT_IS_ROOT : Fld := ⟨0x80028, 22, 1⟩
def CRS_ROOT_MEMBER : Fld := ⟨0x80028, 24, 11⟩
def CRS_ROOT_N_OZ : Fld := ⟨0x80028, 36, 12⟩

/-! CRS_BAR: Table 3.19 -/

def CRS_BAR_CNT : Fld := ⟨0x80030, 0, 16⟩
def CRS_BAR_BASE : Fld := ⟨0x80030, 32, 32⟩

/-! CRS_TIMEOUT: Table 3.20 -/

def CRS_TIMEOUT_VOTE_MS : Fld := ⟨0x80038, 0, 16⟩
def CRS_TIMEOUT_REQ_MS : Fld := ⟨0x80038, 16, 16⟩
def CRS_TIMEOUT_DIRTY_MS : Fld := ⟨0x80038, 32, 16⟩
def CRS_TIMEOUT_PROGRESS_MS : Fld := ⟨0x80038, 48, 16⟩

/-! CRS_WATCH0: Table 3.21 -/

def CRS_WATCH0_CE : Fld := ⟨0x80040, 0, 16⟩
def CRS_WATCH0_FLE : Fld := ⟨0x80040, 16, 16⟩
def CRS_WATCH0_THERM : Fld := ⟨0x80040, 32, 16⟩
def CRS_WATCH0_UE : Fld := ⟨0x80040, 48, 8⟩

/-! CRS_WATCH1: Table 3.21 -/

def CRS_WATCH1_OWN_CE : Fld := ⟨0x80048, 0, 16⟩
def CRS_WATCH1_OWN_THERM : Fld := ⟨0x80048, 16, 16⟩

/-! CRS_EVT: Table 3.22 -/

def CRS_EVT_COMMIT : Fld := ⟨0x80050, 0, 1⟩
def CRS_EVT_CAUSE : Fld := ⟨0x80050, 1, 10⟩
def CRS_EVT_EARLY : Fld := ⟨0x80050, 11, 1⟩
def CRS_EVT_SOLO_VOTE : Fld := ⟨0x80050, 12, 1⟩
def CRS_EVT_STALL_REPEAT : Fld := ⟨0x80050, 13, 1⟩

/-! CRS_EVT_EN: Table 3.22 -/

def CRS_EVT_EN_COMMIT : Fld := ⟨0x80058, 0, 1⟩
def CRS_EVT_EN_CAUSE : Fld := ⟨0x80058, 1, 10⟩
def CRS_EVT_EN_EARLY : Fld := ⟨0x80058, 11, 1⟩
def CRS_EVT_EN_SOLO_VOTE : Fld := ⟨0x80058, 12, 1⟩
def CRS_EVT_EN_STALL_REPEAT : Fld := ⟨0x80058, 13, 1⟩

/-! CRS_DIR: Table 3.23 -/

def CRS_DIR_USED : Fld := ⟨0x80060, 0, 18⟩
def CRS_DIR_HIGH : Fld := ⟨0x80060, 32, 18⟩

/-! CRS_MAN_BASE: Table 3.23 -/

def CRS_MAN_BASE_BASE : Fld := ⟨0x80068, 21, 31⟩

/-! CRS_COUNT: Table 3.23 -/

def CRS_COUNT_COMMITS : Fld := ⟨0x80070, 0, 32⟩
def CRS_COUNT_ABANDONS : Fld := ⟨0x80070, 32, 32⟩

/-- Access types and power-on values (R9, R10). -/
def ctlRowsCrs0 : List RegRow := [
  -- CRS_CTRL
  ⟨0x80000, 0x8, 1, [⟨0, 1, .rw, 0⟩, ⟨1, 1, .rw, 1⟩, ⟨2, 1, .rw, 1⟩, ⟨3, 1, .rw, 1⟩, ⟨4, 1, .rw, 1⟩, ⟨5, 1, .rw, 1⟩, ⟨6, 1, .rw, 0⟩, ⟨8, 1, .w1s, 0⟩, ⟨9, 1, .w1s, 0⟩]⟩,
  -- CRS_STAT
  ⟨0x80008, 0x8, 1, [⟨0, 3, .ro, 0⟩, ⟨3, 1, .ro, 0⟩, ⟨4, 1, .ro, 0⟩, ⟨5, 1, .ro, 0⟩, ⟨8, 8, .ro, 0⟩, ⟨16, 8, .ro, 0⟩, ⟨24, 8, .ro, 0⟩, ⟨32, 32, .ro, 0⟩]⟩,
  -- CRS_COURSE
  ⟨0x80010, 0x8, 1, [⟨0, 32, .ro, 0xffffffff⟩, ⟨32, 32, .ro, 0xffffffff⟩]⟩,
  -- CRS_STEP
  ⟨0x80018, 0x8, 1, [⟨0, 64, .ro, 0⟩]⟩,
  -- CRS_CFG
  ⟨0x80020, 0x8, 1, [⟨0, 16, .rw, 1⟩, ⟨16, 4, .rw, 1⟩, ⟨20, 4, .rw, 8⟩, ⟨32, 16, .rw, 0x3c⟩]⟩,
  -- CRS_ROOT
  ⟨0x80028, 0x8, 1, [⟨0, 22, .rw, 0⟩, ⟨22, 1, .ro, 0⟩, ⟨24, 11, .rw, 0⟩, ⟨36, 12, .rw, 0⟩]⟩,
  -- CRS_BAR
  ⟨0x80030, 0x8, 1, [⟨0, 16, .rw, 0⟩, ⟨32, 32, .rw, 0⟩]⟩,
  -- CRS_TIMEOUT
  ⟨0x80038, 0x8, 1, [⟨0, 16, .rw, 0x2710⟩, ⟨16, 16, .rw, 0xa⟩, ⟨32, 16, .rw, 0x14⟩, ⟨48, 16, .rw, 0x1f4⟩]⟩,
  -- CRS_WATCH0
  ⟨0x80040, 0x8, 1, [⟨0, 16, .rw, 0x40⟩, ⟨16, 16, .rw, 0x10⟩, ⟨32, 16, .rw, 0x32⟩, ⟨48, 8, .rw, 1⟩]⟩,
  -- CRS_WATCH1
  ⟨0x80048, 0x8, 1, [⟨0, 16, .rw, 0x100⟩, ⟨16, 16, .rw, 0x32⟩]⟩,
  -- CRS_EVT
  ⟨0x80050, 0x8, 1, [⟨0, 1, .w1c, 0⟩, ⟨1, 10, .w1c, 0⟩, ⟨11, 1, .w1c, 0⟩, ⟨12, 1, .w1c, 0⟩, ⟨13, 1, .w1c, 0⟩]⟩,
  -- CRS_EVT_EN
  ⟨0x80058, 0x8, 1, [⟨0, 1, .rw, 0⟩, ⟨1, 10, .rw, 0xb0⟩, ⟨11, 1, .rw, 0⟩, ⟨12, 1, .rw, 1⟩, ⟨13, 1, .rw, 1⟩]⟩]

/-- Access types and power-on values (R9, R10). -/
def ctlRowsCrs1 : List RegRow := [
  -- CRS_DIR
  ⟨0x80060, 0x8, 1, [⟨0, 18, .ro, 0⟩, ⟨32, 18, .ro, 0⟩]⟩,
  -- CRS_MAN_BASE
  ⟨0x80068, 0x8, 1, [⟨21, 31, .rw, 0⟩]⟩,
  -- CRS_COUNT
  ⟨0x80070, 0x8, 1, [⟨0, 32, .ro, 0⟩, ⟨32, 32, .ro, 0⟩]⟩]

/-- Access types and power-on values (R9, R10). -/
def ctlRowsCrs : List RegRow := ctlRowsCrs0 ++ ctlRowsCrs1

/-! SHR_CTRL: Table 4.7 -/

def SHR_CTRL_EN : Fld := ⟨0xc0000, 0, 1⟩
def SHR_CTRL_PAIRED : Fld := ⟨0xc0000, 1, 1⟩
def SHR_CTRL_HANDBACK : Fld := ⟨0xc0000, 2, 1⟩
def SHR_CTRL_DECLARE : Fld := ⟨0xc0000, 3, 1⟩
def SHR_CTRL_DSLOT : Fld := ⟨0xc0000, 4, 3⟩

/-! SHR_CFG: Table 4.8 -/

def SHR_CFG_HB_MISS : Fld := ⟨0xc0008, 0, 4⟩
def SHR_CFG_FENCE_MS : Fld := ⟨0xc0008, 8, 8⟩
def SHR_CFG_DECIDE_MS : Fld := ⟨0xc0008, 16, 8⟩
def SHR_CFG_HB_LIVE : Fld := ⟨0xc0008, 24, 1⟩
def SHR_CFG_FLIGHT_US : Fld := ⟨0xc0008, 32, 16⟩
def SHR_CFG_FINAL_GIB : Fld := ⟨0xc0008, 48, 8⟩
def SHR_CFG_PASSES : Fld := ⟨0xc0008, 56, 4⟩

/-! SHR_TIMEOUT: Table 4.9 -/

def SHR_TIMEOUT_REWIND_MS : Fld := ⟨0xc0010, 0, 16⟩

/-! SHR_STAT: Table 4.10 -/

def SHR_STAT_PHASE : Fld := ⟨0xc0018, 0, 4⟩
def SHR_STAT_SLOT : Fld := ⟨0xc0018, 4, 3⟩
def SHR_STAT_CAUSE : Fld := ⟨0xc0018, 8, 8⟩
def SHR_STAT_PASS : Fld := ⟨0xc0018, 16, 16⟩

/-! SHR_POS: Table 4.11 -/

def SHR_POS_POSITION : Fld := ⟨0xc0020, 0, 32⟩
def SHR_POS_RCOURSE : Fld := ⟨0xc0020, 32, 32⟩

/-! SHR_STEP: Table 4.11 -/

def SHR_STEP_STEP : Fld := ⟨0xc0028, 0, 64⟩

/-! SHR_REWIND: Table 4.11 -/

def SHR_REWIND_NUMBER : Fld := ⟨0xc0030, 0, 32⟩
def SHR_REWIND_BAR : Fld := ⟨0xc0030, 32, 16⟩

/-! SHR_T0: Table 4.12 -/

def SHR_T0_TIME : Fld := ⟨0xc0038, 0, 64⟩

/-! SHR_TADMIT: Table 4.12 -/

def SHR_TADMIT_TIME : Fld := ⟨0xc0040, 0, 64⟩

/-! SHR_EVT: Table 4.13 -/

def SHR_EVT_DECLARED : Fld := ⟨0xc0048, 0, 1⟩
def SHR_EVT_ADMITTED : Fld := ⟨0xc0048, 1, 1⟩
def SHR_EVT_FAILED : Fld := ⟨0xc0048, 2, 1⟩
def SHR_EVT_BEYOND : Fld := ⟨0xc0048, 3, 1⟩
def SHR_EVT_HANDBACK : Fld := ⟨0xc0048, 4, 1⟩
def SHR_EVT_OVER_BUDGET : Fld := ⟨0xc0048, 5, 1⟩

/-! SHR_EVT_EN: Table 4.13 -/

def SHR_EVT_EN_DECLARED : Fld := ⟨0xc0050, 0, 1⟩
def SHR_EVT_EN_ADMITTED : Fld := ⟨0xc0050, 1, 1⟩
def SHR_EVT_EN_FAILED : Fld := ⟨0xc0050, 2, 1⟩
def SHR_EVT_EN_BEYOND : Fld := ⟨0xc0050, 3, 1⟩
def SHR_EVT_EN_HANDBACK : Fld := ⟨0xc0050, 4, 1⟩
def SHR_EVT_EN_OVER_BUDGET : Fld := ⟨0xc0050, 5, 1⟩

/-! SHR_COUNT: Table 4.14 -/

def SHR_COUNT_SHORINGS : Fld := ⟨0xc0058, 0, 16⟩
def SHR_COUNT_HANDBACKS : Fld := ⟨0xc0058, 16, 16⟩
def SHR_COUNT_FAILS : Fld := ⟨0xc0058, 32, 16⟩

/-- Access types and power-on values (R9, R10). -/
def ctlRowsShr : List RegRow := [
  -- SHR_CTRL
  ⟨0xc0000, 0x8, 1, [⟨0, 1, .rw, 0⟩, ⟨1, 1, .rw, 0⟩, ⟨2, 1, .w1s, 0⟩, ⟨3, 1, .w1s, 0⟩, ⟨4, 3, .rw, 0⟩]⟩,
  -- SHR_CFG
  ⟨0xc0008, 0x8, 1, [⟨0, 4, .rw, 5⟩, ⟨8, 8, .rw, 0x14⟩, ⟨16, 8, .rw, 0xa⟩, ⟨24, 1, .rw, 0⟩, ⟨32, 16, .rw, 0x64⟩, ⟨48, 8, .rw, 2⟩, ⟨56, 4, .rw, 8⟩]⟩,
  -- SHR_TIMEOUT
  ⟨0xc0010, 0x8, 1, [⟨0, 16, .rw, 0xbb8⟩]⟩,
  -- SHR_STAT
  ⟨0xc0018, 0x8, 1, [⟨0, 4, .ro, 0⟩, ⟨4, 3, .ro, 0⟩, ⟨8, 8, .ro, 0⟩, ⟨16, 16, .ro, 0⟩]⟩,
  -- SHR_POS
  ⟨0xc0020, 0x8, 1, [⟨0, 32, .ro, 0xffffffff⟩, ⟨32, 32, .ro, 0xffffffff⟩]⟩,
  -- SHR_STEP
  ⟨0xc0028, 0x8, 1, [⟨0, 64, .ro, 0⟩]⟩,
  -- SHR_REWIND
  ⟨0xc0030, 0x8, 1, [⟨0, 32, .ro, 0⟩, ⟨32, 16, .rw, 0⟩]⟩,
  -- SHR_T0
  ⟨0xc0038, 0x8, 1, [⟨0, 64, .ro, 0⟩]⟩,
  -- SHR_TADMIT
  ⟨0xc0040, 0x8, 1, [⟨0, 64, .ro, 0⟩]⟩,
  -- SHR_EVT
  ⟨0xc0048, 0x8, 1, [⟨0, 1, .w1c, 0⟩, ⟨1, 1, .w1c, 0⟩, ⟨2, 1, .w1c, 0⟩, ⟨3, 1, .w1c, 0⟩, ⟨4, 1, .w1c, 0⟩, ⟨5, 1, .w1c, 0⟩]⟩,
  -- SHR_EVT_EN
  ⟨0xc0050, 0x8, 1, [⟨0, 1, .rw, 1⟩, ⟨1, 1, .rw, 1⟩, ⟨2, 1, .rw, 1⟩, ⟨3, 1, .rw, 1⟩, ⟨4, 1, .rw, 1⟩, ⟨5, 1, .rw, 1⟩]⟩,
  -- SHR_COUNT
  ⟨0xc0058, 0x8, 1, [⟨0, 16, .ro, 0⟩, ⟨16, 16, .ro, 0⟩, ⟨32, 16, .ro, 0⟩]⟩]

/-! XCN_CTRL: Table 4.15 -/

def XCN_CTRL_SLOT : Fld := ⟨0xc0800, 0, 3⟩
def XCN_CTRL_DIR : Fld := ⟨0xc0800, 3, 1⟩
def XCN_CTRL_GO : Fld := ⟨0xc0800, 4, 1⟩
def XCN_CTRL_PWR_EN : Fld := ⟨0xc0800, 5, 1⟩
def XCN_CTRL_TIMEOUT_MS : Fld := ⟨0xc0800, 8, 8⟩
def XCN_CTRL_AUTH : Fld := ⟨0xc0800, 16, 1⟩

/-! XCN_STAT: Table 4.16 -/

def XCN_STAT_MAP : Fld := ⟨0xc0808, 0, 8⟩
def XCN_STAT_BUSY : Fld := ⟨0xc0808, 8, 1⟩
def XCN_STAT_ERR : Fld := ⟨0xc0808, 9, 1⟩
def XCN_STAT_PGOOD : Fld := ⟨0xc0808, 10, 1⟩
def XCN_STAT_STATUS : Fld := ⟨0xc0808, 11, 1⟩
def XCN_STAT_LAST_MS : Fld := ⟨0xc0808, 16, 16⟩

/-! XCN_DETOUR: Table 11.14 -/

def XCN_DETOUR_SLOT : Fld := ⟨0xc0810, 0, 3⟩
def XCN_DETOUR_ON : Fld := ⟨0xc0810, 3, 1⟩
def XCN_DETOUR_GO : Fld := ⟨0xc0810, 4, 1⟩
def XCN_DETOUR_ACTIVE : Fld := ⟨0xc0810, 8, 1⟩
def XCN_DETOUR_ASLOT : Fld := ⟨0xc0810, 9, 3⟩

/-! XCN_SPI: Table 11.14 -/

def XCN_SPI_DIV : Fld := ⟨0xc0818, 0, 8⟩
def XCN_SPI_FRAMES : Fld := ⟨0xc0818, 32, 16⟩
def XCN_SPI_CRCERR : Fld := ⟨0xc0818, 48, 16⟩

/-- Access types and power-on values (R9, R10). -/
def ctlRowsXcn : List RegRow := [
  -- XCN_CTRL
  ⟨0xc0800, 0x8, 1, [⟨0, 3, .rw, 0⟩, ⟨3, 1, .rw, 0⟩, ⟨4, 1, .w1s, 0⟩, ⟨5, 1, .rw, 0⟩, ⟨8, 8, .rw, 0x1e⟩, ⟨16, 1, .pk, 0⟩]⟩,
  -- XCN_STAT
  ⟨0xc0808, 0x8, 1, [⟨0, 8, .ro, 0⟩, ⟨8, 1, .ro, 0⟩, ⟨9, 1, .w1c, 0⟩, ⟨10, 1, .ro, 0⟩, ⟨11, 1, .ro, 0⟩, ⟨16, 16, .ro, 0⟩]⟩,
  -- XCN_DETOUR
  ⟨0xc0810, 0x8, 1, [⟨0, 3, .rw, 0⟩, ⟨3, 1, .rw, 0⟩, ⟨4, 1, .w1s, 0⟩, ⟨8, 1, .ro, 0⟩, ⟨9, 3, .ro, 0⟩]⟩,
  -- XCN_SPI
  ⟨0xc0818, 0x8, 1, [⟨0, 8, .rw, 0x46⟩, ⟨32, 16, .ro, 0⟩, ⟨48, 16, .ro, 0⟩]⟩]

/-! SPR_MODE: Table 4.17 -/

def SPR_MODE_MODE : Fld := ⟨0xc0c00, 0, 1⟩

/-! SPR_GROUP: Table 4.17 -/

def SPR_GROUP_SPARE_ADDR : Fld := ⟨0xc0c08, 0, 22⟩
def SPR_GROUP_SPARE_SLOT : Fld := ⟨0xc0c08, 22, 3⟩
def SPR_GROUP_SIZE : Fld := ⟨0xc0c08, 32, 7⟩

/-! SPR_STAT: Table 4.17 -/

def SPR_STAT_STATE : Fld := ⟨0xc0c10, 0, 2⟩
def SPR_STAT_POSITION : Fld := ⟨0xc0c10, 32, 32⟩

/-- Access types and power-on values (R9, R10). -/
def ctlRowsSpr : List RegRow := [
  -- SPR_MODE
  ⟨0xc0c00, 0x8, 1, [⟨0, 1, .pk, 0⟩]⟩,
  -- SPR_GROUP
  ⟨0xc0c08, 0x8, 1, [⟨0, 22, .pk, 0⟩, ⟨22, 3, .pk, 0⟩, ⟨32, 7, .pk, 0⟩]⟩,
  -- SPR_STAT
  ⟨0xc0c10, 0x8, 1, [⟨0, 2, .ro, 0⟩, ⟨32, 32, .ro, 0xffffffff⟩]⟩]

/-! WIT_CTRL: Table 5.10 -/

def WIT_CTRL_EN : Fld := ⟨0x100000, 0, 1⟩
def WIT_CTRL_GATE : Fld := ⟨0x100000, 1, 1⟩
def WIT_CTRL_ACTION : Fld := ⟨0x100000, 2, 1⟩

/-! WIT_CFG: Table 5.11 -/

def WIT_CFG_RATE : Fld := ⟨0x100008, 0, 5⟩
def WIT_CFG_TILES : Fld := ⟨0x100008, 8, 6⟩
def WIT_CFG_GATE_MS : Fld := ⟨0x100008, 16, 16⟩

/-! WIT_LIMIT: Table 5.12 -/

def WIT_LIMIT_COUNT : Fld := ⟨0x100010, 0, 8⟩
def WIT_LIMIT_WINDOW_S : Fld := ⟨0x100010, 16, 16⟩
def WIT_LIMIT_TILE_OWN : Fld := ⟨0x100010, 32, 8⟩
def WIT_LIMIT_RETIRE_MAX : Fld := ⟨0x100010, 40, 8⟩

/-! WIT_STAT: Table 5.13 -/

def WIT_STAT_BACKLOG : Fld := ⟨0x100018, 0, 32⟩
def WIT_STAT_RETIRED : Fld := ⟨0x100018, 32, 9⟩
def WIT_STAT_GATE_HOLD : Fld := ⟨0x100018, 41, 1⟩

/-! WIT_COUNT0: Table 5.14 -/

def WIT_COUNT0_COMPARED : Fld := ⟨0x100020, 0, 48⟩
def WIT_COUNT0_MISMATCH : Fld := ⟨0x100020, 48, 16⟩

/-! WIT_COUNT1: Table 5.14 -/

def WIT_COUNT1_OWN : Fld := ⟨0x100028, 0, 16⟩
def WIT_COUNT1_DROPPED : Fld := ⟨0x100028, 16, 16⟩
def WIT_COUNT1_STRAY : Fld := ⟨0x100028, 32, 16⟩
def WIT_COUNT1_UNGATED : Fld := ⟨0x100028, 48, 16⟩

/-! WIT_EVT: Table 5.15 -/

def WIT_EVT_PARITY_UE : Fld := ⟨0x100030, 0, 1⟩
def WIT_EVT_CHECK : Fld := ⟨0x100030, 1, 1⟩
def WIT_EVT_MARK : Fld := ⟨0x100030, 2, 1⟩
def WIT_EVT_REPOINT : Fld := ⟨0x100030, 3, 1⟩
def WIT_EVT_DIVERGE : Fld := ⟨0x100030, 4, 1⟩
def WIT_EVT_WITNESS : Fld := ⟨0x100030, 5, 1⟩
def WIT_EVT_OWN : Fld := ⟨0x100030, 6, 1⟩
def WIT_EVT_PAIR : Fld := ⟨0x100030, 7, 1⟩
def WIT_EVT_STRAY : Fld := ⟨0x100030, 8, 1⟩
def WIT_EVT_RETIRE : Fld := ⟨0x100030, 9, 1⟩

/-! WIT_EVT_EN: Table 5.15 -/

def WIT_EVT_EN_PARITY_UE : Fld := ⟨0x100038, 0, 1⟩
def WIT_EVT_EN_CHECK : Fld := ⟨0x100038, 1, 1⟩
def WIT_EVT_EN_MARK : Fld := ⟨0x100038, 2, 1⟩
def WIT_EVT_EN_REPOINT : Fld := ⟨0x100038, 3, 1⟩
def WIT_EVT_EN_DIVERGE : Fld := ⟨0x100038, 4, 1⟩
def WIT_EVT_EN_WITNESS : Fld := ⟨0x100038, 5, 1⟩
def WIT_EVT_EN_OWN : Fld := ⟨0x100038, 6, 1⟩
def WIT_EVT_EN_PAIR : Fld := ⟨0x100038, 7, 1⟩
def WIT_EVT_EN_STRAY : Fld := ⟨0x100038, 8, 1⟩
def WIT_EVT_EN_RETIRE : Fld := ⟨0x100038, 9, 1⟩

/-! WIT_LAST: Table 5.16 -/

def WIT_LAST_CLASS : Fld := ⟨0x100040, 0, 4⟩
def WIT_LAST_SLOT : Fld := ⟨0x100040, 4, 3⟩
def WIT_LAST_OZMUND : Fld := ⟨0x100040, 7, 1⟩
def WIT_LAST_UNGATED : Fld := ⟨0x100040, 8, 1⟩
def WIT_LAST_POSITION : Fld := ⟨0x100040, 16, 32⟩

/-! WIT_LAST_STEP: Table 5.16 -/

def WIT_LAST_STEP_STEP : Fld := ⟨0x100048, 0, 64⟩

/-! WIT_RETIREDk: Table 5.17 -/

def WIT_RETIRED_TILES (n : Nat) : Fld := ⟨0x100080 + 0x8 * n, 0, 64⟩

/-! WIT_SLOT_EVn: Table 5.18 -/

def WIT_SLOT_EV_WINDOW (n : Nat) : Fld := ⟨0x100100 + 0x8 * n, 0, 8⟩
def WIT_SLOT_EV_TOTAL (n : Nat) : Fld := ⟨0x100100 + 0x8 * n, 8, 32⟩

/-- Access types and power-on values (R9, R10). -/
def ctlRowsWit : List RegRow := [
  -- WIT_CTRL
  ⟨0x100000, 0x8, 1, [⟨0, 1, .rw, 1⟩, ⟨1, 1, .rw, 1⟩, ⟨2, 1, .rw, 0⟩]⟩,
  -- WIT_CFG
  ⟨0x100008, 0x8, 1, [⟨0, 5, .rw, 0xc⟩, ⟨8, 6, .rw, 8⟩, ⟨16, 16, .rw, 0x1f4⟩]⟩,
  -- WIT_LIMIT
  ⟨0x100010, 0x8, 1, [⟨0, 8, .rw, 2⟩, ⟨16, 16, .rw, 0xe10⟩, ⟨32, 8, .rw, 2⟩, ⟨40, 8, .rw, 0x10⟩]⟩,
  -- WIT_STAT
  ⟨0x100018, 0x8, 1, [⟨0, 32, .ro, 0⟩, ⟨32, 9, .ro, 0⟩, ⟨41, 1, .ro, 0⟩]⟩,
  -- WIT_COUNT0
  ⟨0x100020, 0x8, 1, [⟨0, 48, .ro, 0⟩, ⟨48, 16, .ro, 0⟩]⟩,
  -- WIT_COUNT1
  ⟨0x100028, 0x8, 1, [⟨0, 16, .ro, 0⟩, ⟨16, 16, .ro, 0⟩, ⟨32, 16, .ro, 0⟩, ⟨48, 16, .ro, 0⟩]⟩,
  -- WIT_EVT
  ⟨0x100030, 0x8, 1, [⟨0, 1, .w1c, 0⟩, ⟨1, 1, .w1c, 0⟩, ⟨2, 1, .w1c, 0⟩, ⟨3, 1, .w1c, 0⟩, ⟨4, 1, .w1c, 0⟩, ⟨5, 1, .w1c, 0⟩, ⟨6, 1, .w1c, 0⟩, ⟨7, 1, .w1c, 0⟩, ⟨8, 1, .w1c, 0⟩, ⟨9, 1, .w1c, 0⟩]⟩,
  -- WIT_EVT_EN
  ⟨0x100038, 0x8, 1, [⟨0, 1, .rw, 1⟩, ⟨1, 1, .rw, 1⟩, ⟨2, 1, .rw, 0⟩, ⟨3, 1, .rw, 1⟩, ⟨4, 1, .rw, 1⟩, ⟨5, 1, .rw, 1⟩, ⟨6, 1, .rw, 1⟩, ⟨7, 1, .rw, 1⟩, ⟨8, 1, .rw, 0⟩, ⟨9, 1, .rw, 1⟩]⟩,
  -- WIT_LAST
  ⟨0x100040, 0x8, 1, [⟨0, 4, .ro, 0⟩, ⟨4, 3, .ro, 0⟩, ⟨7, 1, .ro, 0⟩, ⟨8, 1, .ro, 0⟩, ⟨16, 32, .ro, 0xffffffff⟩]⟩,
  -- WIT_LAST_STEP
  ⟨0x100048, 0x8, 1, [⟨0, 64, .ro, 0⟩]⟩,
  -- WIT_RETIREDk
  ⟨0x100080, 0x8, 4, [⟨0, 64, .ro, 0⟩]⟩,
  -- WIT_SLOT_EVn
  ⟨0x100100, 0x8, 8, [⟨0, 8, .ro, 0⟩, ⟨8, 32, .ro, 0⟩]⟩]

/-! TLE_ID: Table 6.9 -/

def TLE_ID_TILE : Fld := ⟨0x0, 0, 8⟩
def TLE_ID_DIE : Fld := ⟨0x0, 8, 2⟩
def TLE_ID_Y : Fld := ⟨0x0, 10, 3⟩
def TLE_ID_X : Fld := ⟨0x0, 13, 3⟩
def TLE_ID_LATHE : Fld := ⟨0x0, 16, 8⟩

/-! TLE_CTRL: Table 6.10 -/

def TLE_CTRL_EN : Fld := ⟨0x8, 0, 1⟩
def TLE_CTRL_STOP : Fld := ⟨0x8, 1, 1⟩
def TLE_CTRL_OWNER : Fld := ⟨0x8, 4, 3⟩
def TLE_CTRL_RELAXED : Fld := ⟨0x8, 8, 1⟩

/-! TLE_MXCFG: Table 6.11 -/

def TLE_MXCFG_GANG : Fld := ⟨0x10, 0, 2⟩
def TLE_MXCFG_ACTIVE : Fld := ⟨0x10, 4, 2⟩

/-! TLE_STAT: Table 6.12 -/

def TLE_STAT_STATE : Fld := ⟨0x18, 0, 3⟩
def TLE_STAT_BUSY : Fld := ⟨0x18, 4, 4⟩
def TLE_STAT_DIV : Fld := ⟨0x18, 8, 4⟩
def TLE_STAT_RELAXED_ON : Fld := ⟨0x18, 12, 1⟩
def TLE_STAT_PAIRED : Fld := ⟨0x18, 13, 1⟩

/-! TLE_ERR: Table 6.13 -/

def TLE_ERR_CAUSE : Fld := ⟨0x20, 0, 4⟩
def TLE_ERR_QUEUE : Fld := ⟨0x20, 4, 3⟩
def TLE_ERR_VALID : Fld := ⟨0x20, 7, 1⟩
def TLE_ERR_IOFF : Fld := ⟨0x20, 32, 32⟩

/-! TLE_PASSES: Table 6.14 -/

def TLE_PASSES_PASSES : Fld := ⟨0x28, 0, 64⟩

/-! TLE_MXBUSY: Table 6.14 -/

def TLE_MXBUSY_CYCLES : Fld := ⟨0x30, 0, 64⟩

/-! TLE_VXFLAGS: Table 7.11 -/

def TLE_VXFLAGS_INVALID : Fld := ⟨0x40, 0, 1⟩
def TLE_VXFLAGS_DIVZERO : Fld := ⟨0x40, 1, 1⟩
def TLE_VXFLAGS_OVERFLOW : Fld := ⟨0x40, 2, 1⟩
def TLE_VXFLAGS_UNDERFLOW : Fld := ⟨0x40, 3, 1⟩
def TLE_VXFLAGS_INEXACT : Fld := ⟨0x40, 4, 1⟩
def TLE_VXFLAGS_SATURATE : Fld := ⟨0x40, 5, 1⟩
def TLE_VXFLAGS_NANBLOCK : Fld := ⟨0x40, 6, 1⟩

/-! TLE_VXCOUNT: Table 7.12 -/

def TLE_VXCOUNT_INSTR : Fld := ⟨0x48, 0, 64⟩

/-! TLE_RDCOUNT: Table 7.12 -/

def TLE_RDCOUNT_SLICES : Fld := ⟨0x50, 0, 48⟩

/-! TLE_PHXk_KEY: Table 7.13 -/

def TLE_PHX_KEY_KEY (n : Nat) : Fld := ⟨0x200 + 0x20 * n, 0, 64⟩

/-! TLE_PHXk_CTR_LO: Table 7.13 -/

def TLE_PHX_CTR_LO_CTR (n : Nat) : Fld := ⟨0x208 + 0x20 * n, 0, 64⟩

/-! TLE_PHXk_CTR_HI: Table 7.13 -/

def TLE_PHX_CTR_HI_CTR (n : Nat) : Fld := ⟨0x210 + 0x20 * n, 0, 64⟩

/-! TLE_ENTRY: Table 8.20 -/

def TLE_ENTRY_ENTRY : Fld := ⟨0x60, 0, 25⟩

/-! TLE_CODE: Table 8.20 -/

def TLE_CODE_BASE : Fld := ⟨0x68, 0, 25⟩
def TLE_CODE_LEN : Fld := ⟨0x68, 32, 25⟩

/-! TLE_PC: Table 8.20 -/

def TLE_PC_PC : Fld := ⟨0x70, 0, 25⟩

/-! TLE_WAITLIM: Table 8.21 -/

def TLE_WAITLIM_LIMIT_US : Fld := ⟨0x78, 0, 32⟩

/-! TLE_PROG: Table 8.21 -/

def TLE_PROG_RANK : Fld := ⟨0x80, 0, 8⟩
def TLE_PROG_COUNT : Fld := ⟨0x80, 8, 9⟩

/-! TLE_QDEPTH: Table 8.21 -/

def TLE_QDEPTH_MX : Fld := ⟨0x88, 0, 7⟩
def TLE_QDEPTH_VX : Fld := ⟨0x88, 8, 7⟩
def TLE_QDEPTH_RD : Fld := ⟨0x88, 16, 7⟩
def TLE_QDEPTH_MV : Fld := ⟨0x88, 24, 7⟩

/-! TLE_Sn: Table 8.22 -/

def TLE_S_VALUE (n : Nat) : Fld := ⟨0x400 + 0x8 * n, 0, 64⟩

/-! TLE_An: Table 8.22 -/

def TLE_A_VALUE (n : Nat) : Fld := ⟨0x500 + 0x8 * n, 0, 64⟩

/-! TLE_Pn: Table 8.22 -/

def TLE_P_VALUE (n : Nat) : Fld := ⟨0x580 + 0x8 * n, 0, 64⟩

/-- Access types and power-on values (R9, R10). -/
def tileRowsTle0 : List RegRow := [
  -- TLE_ID
  ⟨0x0, 0x8, 1, [⟨0, 8, .ro, 0⟩, ⟨8, 2, .ro, 0⟩, ⟨10, 3, .ro, 0⟩, ⟨13, 3, .ro, 0⟩, ⟨16, 8, .ro, 3⟩]⟩,
  -- TLE_CTRL
  ⟨0x8, 0x8, 1, [⟨0, 1, .rw, 0⟩, ⟨1, 1, .w1s, 0⟩, ⟨4, 3, .ro, 0⟩, ⟨8, 1, .rw, 0⟩]⟩,
  -- TLE_MXCFG
  ⟨0x10, 0x8, 1, [⟨0, 2, .rw, 0⟩, ⟨4, 2, .ro, 0⟩]⟩,
  -- TLE_STAT
  ⟨0x18, 0x8, 1, [⟨0, 3, .ro, 0⟩, ⟨4, 4, .ro, 0⟩, ⟨8, 4, .ro, 4⟩, ⟨12, 1, .ro, 0⟩, ⟨13, 1, .ro, 0⟩]⟩,
  -- TLE_ERR
  ⟨0x20, 0x8, 1, [⟨0, 4, .ro, 0⟩, ⟨4, 3, .ro, 0⟩, ⟨7, 1, .w1c, 0⟩, ⟨32, 32, .ro, 0⟩]⟩,
  -- TLE_PASSES
  ⟨0x28, 0x8, 1, [⟨0, 64, .ro, 0⟩]⟩,
  -- TLE_MXBUSY
  ⟨0x30, 0x8, 1, [⟨0, 64, .ro, 0⟩]⟩,
  -- TLE_VXFLAGS
  ⟨0x40, 0x8, 1, [⟨0, 1, .w1c, 0⟩, ⟨1, 1, .w1c, 0⟩, ⟨2, 1, .w1c, 0⟩, ⟨3, 1, .w1c, 0⟩, ⟨4, 1, .w1c, 0⟩, ⟨5, 1, .w1c, 0⟩, ⟨6, 1, .w1c, 0⟩]⟩,
  -- TLE_VXCOUNT
  ⟨0x48, 0x8, 1, [⟨0, 64, .ro, 0⟩]⟩,
  -- TLE_RDCOUNT
  ⟨0x50, 0x8, 1, [⟨0, 48, .ro, 0⟩]⟩,
  -- TLE_PHXk_KEY
  ⟨0x200, 0x20, 8, [⟨0, 64, .rw, 0⟩]⟩,
  -- TLE_PHXk_CTR_LO
  ⟨0x208, 0x20, 8, [⟨0, 64, .rw, 0⟩]⟩]

/-- Access types and power-on values (R9, R10). -/
def tileRowsTle1 : List RegRow := [
  -- TLE_PHXk_CTR_HI
  ⟨0x210, 0x20, 8, [⟨0, 64, .rw, 0⟩]⟩,
  -- TLE_ENTRY
  ⟨0x60, 0x8, 1, [⟨0, 25, .rw, 0⟩]⟩,
  -- TLE_CODE
  ⟨0x68, 0x8, 1, [⟨0, 25, .rw, 0⟩, ⟨32, 25, .rw, 0⟩]⟩,
  -- TLE_PC
  ⟨0x70, 0x8, 1, [⟨0, 25, .ro, 0⟩]⟩,
  -- TLE_WAITLIM
  ⟨0x78, 0x8, 1, [⟨0, 32, .rw, 0⟩]⟩,
  -- TLE_PROG
  ⟨0x80, 0x8, 1, [⟨0, 8, .rw, 0⟩, ⟨8, 9, .rw, 0⟩]⟩,
  -- TLE_QDEPTH
  ⟨0x88, 0x8, 1, [⟨0, 7, .ro, 0⟩, ⟨8, 7, .ro, 0⟩, ⟨16, 7, .ro, 0⟩, ⟨24, 7, .ro, 0⟩]⟩,
  -- TLE_Sn
  ⟨0x400, 0x8, 32, [⟨0, 64, .rw, 0⟩]⟩,
  -- TLE_An
  ⟨0x500, 0x8, 16, [⟨0, 64, .rw, 0⟩]⟩,
  -- TLE_Pn
  ⟨0x580, 0x8, 8, [⟨0, 64, .rw, 0⟩]⟩]

/-- Access types and power-on values (R9, R10). -/
def tileRowsTle : List RegRow := tileRowsTle0 ++ tileRowsTle1

/-! MMU_PART: Table 9.16 -/

def MMU_PART_GUEST_GIB : Fld := ⟨0x280000, 0, 16⟩
def MMU_PART_SHORE_GIB : Fld := ⟨0x280000, 16, 16⟩
def MMU_PART_CACHE_GIB : Fld := ⟨0x280000, 32, 16⟩

/-! MMU_INV_ADDR: Table 9.17 -/

def MMU_INV_ADDR_VA : Fld := ⟨0x280008, 21, 43⟩

/-! MMU_INV: Table 9.17 -/

def MMU_INV_CTX : Fld := ⟨0x280010, 0, 6⟩
def MMU_INV_SCOPE : Fld := ⟨0x280010, 6, 2⟩

/-! MMU_INV_STAT: Table 9.17 -/

def MMU_INV_STAT_PENDING : Fld := ⟨0x280018, 0, 1⟩

/-! MMU_FQ: Table 9.18 -/

def MMU_FQ_SIZE : Fld := ⟨0x280020, 0, 4⟩
def MMU_FQ_BASE : Fld := ⟨0x280020, 12, 40⟩

/-! MMU_FQ_PTR: Table 9.18 -/

def MMU_FQ_PTR_HEAD : Fld := ⟨0x280028, 0, 16⟩
def MMU_FQ_PTR_TAIL : Fld := ⟨0x280028, 32, 16⟩

/-! MMU_FRESUME: Table 9.18 -/

def MMU_FRESUME_INDEX : Fld := ⟨0x280030, 0, 16⟩
def MMU_FRESUME_ACTION : Fld := ⟨0x280030, 16, 2⟩

/-! MMU_STAT: Table 9.19 -/

def MMU_STAT_FAULTS : Fld := ⟨0x280038, 0, 32⟩
def MMU_STAT_OUTSTANDING : Fld := ⟨0x280038, 32, 16⟩

/-! MMU_ROOTn: Table 9.20 -/

def MMU_ROOT_VALID (n : Nat) : Fld := ⟨0x280100 + 0x8 * n, 0, 1⟩
def MMU_ROOT_ROOT (n : Nat) : Fld := ⟨0x280100 + 0x8 * n, 10, 42⟩

/-! MMU_TCTXk: Table 9.20 -/

def MMU_TCTX_CTX0 (n : Nat) : Fld := ⟨0x280400 + 0x8 * n, 0, 6⟩
def MMU_TCTX_CTX1 (n : Nat) : Fld := ⟨0x280400 + 0x8 * n, 8, 6⟩
def MMU_TCTX_CTX2 (n : Nat) : Fld := ⟨0x280400 + 0x8 * n, 16, 6⟩
def MMU_TCTX_CTX3 (n : Nat) : Fld := ⟨0x280400 + 0x8 * n, 24, 6⟩
def MMU_TCTX_CTX4 (n : Nat) : Fld := ⟨0x280400 + 0x8 * n, 32, 6⟩
def MMU_TCTX_CTX5 (n : Nat) : Fld := ⟨0x280400 + 0x8 * n, 40, 6⟩
def MMU_TCTX_CTX6 (n : Nat) : Fld := ⟨0x280400 + 0x8 * n, 48, 6⟩
def MMU_TCTX_CTX7 (n : Nat) : Fld := ⟨0x280400 + 0x8 * n, 56, 6⟩

/-- Access types and power-on values (R9, R10). -/
def ctlRowsMmu : List RegRow := [
  -- MMU_PART
  ⟨0x280000, 0x8, 1, [⟨0, 16, .rw, 0x200⟩, ⟨16, 16, .rw, 0x180⟩, ⟨32, 16, .ro, 0x203⟩]⟩,
  -- MMU_INV_ADDR
  ⟨0x280008, 0x8, 1, [⟨21, 43, .rw, 0⟩]⟩,
  -- MMU_INV
  ⟨0x280010, 0x8, 1, [⟨0, 6, .wo, 0⟩, ⟨6, 2, .wo, 0⟩]⟩,
  -- MMU_INV_STAT
  ⟨0x280018, 0x8, 1, [⟨0, 1, .ro, 0⟩]⟩,
  -- MMU_FQ
  ⟨0x280020, 0x8, 1, [⟨0, 4, .rw, 0⟩, ⟨12, 40, .rw, 0⟩]⟩,
  -- MMU_FQ_PTR
  ⟨0x280028, 0x8, 1, [⟨0, 16, .ro, 0⟩, ⟨32, 16, .rw, 0⟩]⟩,
  -- MMU_FRESUME
  ⟨0x280030, 0x8, 1, [⟨0, 16, .wo, 0⟩, ⟨16, 2, .wo, 0⟩]⟩,
  -- MMU_STAT
  ⟨0x280038, 0x8, 1, [⟨0, 32, .ro, 0⟩, ⟨32, 16, .ro, 0⟩]⟩,
  -- MMU_ROOTn
  ⟨0x280100, 0x8, 1, [⟨0, 1, .ro, 1⟩, ⟨10, 42, .ro, 0⟩]⟩,
  -- MMU_ROOTn
  ⟨0x280108, 0x8, 63, [⟨0, 1, .rw, 0⟩, ⟨10, 42, .rw, 0⟩]⟩,
  -- MMU_TCTXk
  ⟨0x280400, 0x8, 32, [⟨0, 6, .rw, 0⟩, ⟨8, 6, .rw, 0⟩, ⟨16, 6, .rw, 0⟩, ⟨24, 6, .rw, 0⟩, ⟨32, 6, .rw, 0⟩, ⟨40, 6, .rw, 0⟩, ⟨48, 6, .rw, 0⟩, ⟨56, 6, .rw, 0⟩]⟩]

/-! DMA_CHn_CTRL: Table 9.21 -/

def DMA_CTRL_EN (n : Nat) : Fld := ⟨0x284000 + 0x20 * n, 0, 1⟩
def DMA_CTRL_STOP (n : Nat) : Fld := ⟨0x284000 + 0x20 * n, 1, 1⟩
def DMA_CTRL_STOPPED (n : Nat) : Fld := ⟨0x284000 + 0x20 * n, 2, 1⟩
def DMA_CTRL_CLASS (n : Nat) : Fld := ⟨0x284000 + 0x20 * n, 4, 4⟩
def DMA_CTRL_RSIZE (n : Nat) : Fld := ⟨0x284000 + 0x20 * n, 8, 4⟩

/-! DMA_CHn_RING: Table 9.21 -/

def DMA_RING_BASE (n : Nat) : Fld := ⟨0x284008 + 0x20 * n, 6, 46⟩

/-! DMA_CHn_PTR: Table 9.21 -/

def DMA_PTR_HEAD (n : Nat) : Fld := ⟨0x284010 + 0x20 * n, 0, 16⟩
def DMA_PTR_TAIL (n : Nat) : Fld := ⟨0x284010 + 0x20 * n, 32, 16⟩

/-! DMA_CHn_STAT: Table 9.21 -/

def DMA_STAT_LAST (n : Nat) : Fld := ⟨0x284018 + 0x20 * n, 0, 4⟩
def DMA_STAT_BUSY (n : Nat) : Fld := ⟨0x284018 + 0x20 * n, 4, 1⟩
def DMA_STAT_DONE (n : Nat) : Fld := ⟨0x284018 + 0x20 * n, 8, 32⟩
def DMA_STAT_ERRS (n : Nat) : Fld := ⟨0x284018 + 0x20 * n, 40, 24⟩

/-- Access types and power-on values (R9, R10). -/
def ctlRowsDma : List RegRow := [
  -- DMA_CHn_CTRL
  ⟨0x284000, 0x20, 64, [⟨0, 1, .rw, 0⟩, ⟨1, 1, .w1s, 0⟩, ⟨2, 1, .ro, 0⟩, ⟨4, 4, .rw, 8⟩, ⟨8, 4, .rw, 0⟩]⟩,
  -- DMA_CHn_RING
  ⟨0x284008, 0x20, 64, [⟨6, 46, .rw, 0⟩]⟩,
  -- DMA_CHn_PTR
  ⟨0x284010, 0x20, 64, [⟨0, 16, .ro, 0⟩, ⟨32, 16, .rw, 0⟩]⟩,
  -- DMA_CHn_STAT
  ⟨0x284018, 0x20, 64, [⟨0, 4, .ro, 0⟩, ⟨4, 1, .ro, 0⟩, ⟨8, 32, .ro, 0⟩, ⟨40, 24, .ro, 0⟩]⟩]

/-! MEM_HBM_STAT: Table 9.22 -/

def MEM_HBM_STAT_UP : Fld := ⟨0x300000, 0, 32⟩
def MEM_HBM_STAT_ECC : Fld := ⟨0x300000, 32, 1⟩

/-! MEM_HBM_ERR: Table 9.22 -/

def MEM_HBM_ERR_CE : Fld := ⟨0x300008, 0, 32⟩
def MEM_HBM_ERR_UE : Fld := ⟨0x300008, 32, 16⟩

/-! MEM_DDR_CFG: Table 9.23 -/

def MEM_DDR_CFG_MTS : Fld := ⟨0x300010, 0, 16⟩
def MEM_DDR_CFG_DIMM_GB : Fld := ⟨0x300010, 16, 10⟩
def MEM_DDR_CFG_MRDIMM : Fld := ⟨0x300010, 26, 1⟩
def MEM_DDR_CFG_N : Fld := ⟨0x300010, 27, 5⟩
def MEM_DDR_CFG_SLOW : Fld := ⟨0x300010, 32, 1⟩
def MEM_DDR_CFG_D : Fld := ⟨0x300010, 33, 31⟩

/-! MEM_DDR_USE: Table 9.23 -/

def MEM_DDR_USE_COURSE_GIB : Fld := ⟨0x300018, 0, 16⟩
def MEM_DDR_USE_FAR_GIB : Fld := ⟨0x300018, 16, 16⟩
def MEM_DDR_USE_SPILL_GIB : Fld := ⟨0x300018, 32, 16⟩
def MEM_DDR_USE_FREE_GIB : Fld := ⟨0x300018, 48, 16⟩

/-! MEM_SCRUB: Table 9.24 -/

def MEM_SCRUB_HOURS : Fld := ⟨0x300020, 0, 16⟩

/-! MEM_DDR_CEIL: Table 9.24 -/

def MEM_DDR_CEIL_PROMOTE_GBS : Fld := ⟨0x300028, 0, 16⟩
def MEM_DDR_CEIL_CLEAN_GBS : Fld := ⟨0x300028, 16, 16⟩

/-! MEM_DDR_CHn: Table 9.25 -/

def MEM_DDR_CH_STATE (n : Nat) : Fld := ⟨0x300100 + 0x8 * n, 0, 2⟩
def MEM_DDR_CH_CAUSE (n : Nat) : Fld := ⟨0x300100 + 0x8 * n, 8, 4⟩
def MEM_DDR_CH_CE (n : Nat) : Fld := ⟨0x300100 + 0x8 * n, 16, 24⟩
def MEM_DDR_CH_UE (n : Nat) : Fld := ⟨0x300100 + 0x8 * n, 40, 16⟩

/-- Access types and power-on values (R9, R10). -/
def ctlRowsMem : List RegRow := [
  -- MEM_HBM_STAT
  ⟨0x300000, 0x8, 1, [⟨0, 32, .ro, 0⟩, ⟨32, 1, .ro, 0⟩]⟩,
  -- MEM_HBM_ERR
  ⟨0x300008, 0x8, 1, [⟨0, 32, .ro, 0⟩, ⟨32, 16, .ro, 0⟩]⟩,
  -- MEM_DDR_CFG
  ⟨0x300010, 0x8, 1, [⟨0, 16, .ro, 0⟩, ⟨16, 10, .ro, 0⟩, ⟨26, 1, .ro, 0⟩, ⟨27, 5, .ro, 0⟩, ⟨32, 1, .ro, 0⟩, ⟨33, 31, .ro, 0⟩]⟩,
  -- MEM_DDR_USE
  ⟨0x300018, 0x8, 1, [⟨0, 16, .ro, 0⟩, ⟨16, 16, .ro, 0⟩, ⟨32, 16, .ro, 0⟩, ⟨48, 16, .ro, 0⟩]⟩,
  -- MEM_SCRUB
  ⟨0x300020, 0x8, 1, [⟨0, 16, .rw, 0x18⟩]⟩,
  -- MEM_DDR_CEIL
  ⟨0x300028, 0x8, 1, [⟨0, 16, .rw, 0x3e8⟩, ⟨16, 16, .rw, 0⟩]⟩,
  -- MEM_DDR_CHn
  ⟨0x300100, 0x8, 24, [⟨0, 2, .ro, 0⟩, ⟨8, 4, .ro, 0⟩, ⟨16, 24, .ro, 0⟩, ⟨40, 16, .ro, 0⟩]⟩]

/-! SYN_SEL: Table 10.9 -/

def SYN_SEL_INDEX : Fld := ⟨0x140000, 0, 16⟩

/-! SYN_VAL: Table 10.9 -/

def SYN_VAL_VALUE : Fld := ⟨0x140008, 0, 64⟩

/-! SYN_ADD: Table 10.9 -/

def SYN_ADD_INC : Fld := ⟨0x140010, 0, 64⟩

/-! SYN_SET: Table 10.9 -/

def SYN_SET_VALUE : Fld := ⟨0x140018, 0, 64⟩

/-! SYN_TIMEOUT: Table 10.10 -/

def SYN_TIMEOUT_XFER_US : Fld := ⟨0x140020, 0, 16⟩
def SYN_TIMEOUT_DRAIN_US : Fld := ⟨0x140020, 16, 16⟩
def SYN_TIMEOUT_KA_MS : Fld := ⟨0x140020, 32, 8⟩
def SYN_TIMEOUT_LOST_MS : Fld := ⟨0x140020, 40, 16⟩

/-! SYN_CFG: Table 10.10 -/

def SYN_CFG_OPEN_MAX : Fld := ⟨0x140028, 0, 16⟩

/-! SYN_STAT: Table 10.11 -/

def SYN_STAT_OPEN : Fld := ⟨0x140030, 0, 17⟩
def SYN_STAT_WATCHES : Fld := ⟨0x140030, 17, 13⟩
def SYN_STAT_SESSIONS : Fld := ⟨0x140030, 30, 15⟩
def SYN_STAT_HOLD : Fld := ⟨0x140030, 45, 1⟩
def SYN_STAT_FENCED : Fld := ⟨0x140030, 46, 1⟩

/-! SYN_COUNT: Table 10.11 -/

def SYN_COUNT_LOST : Fld := ⟨0x140038, 0, 32⟩
def SYN_COUNT_STALE : Fld := ⟨0x140038, 32, 32⟩

/-! SYN_DUMP: Table 10.12 -/

def SYN_DUMP_GO : Fld := ⟨0x140040, 0, 1⟩
def SYN_DUMP_WHOLE : Fld := ⟨0x140040, 1, 1⟩
def SYN_DUMP_CTX : Fld := ⟨0x140040, 8, 6⟩
def SYN_DUMP_SEQ : Fld := ⟨0x140040, 32, 32⟩

/-! SYN_PM_BASE: Table 10.12 -/

def SYN_PM_BASE_BASE : Fld := ⟨0x140048, 23, 29⟩

/-! SYN_WINn: Table 10.13 -/

def SYN_WIN_BASE (n : Nat) : Fld := ⟨0x140100 + 0x8 * n, 0, 16⟩
def SYN_WIN_SIZE (n : Nat) : Fld := ⟨0x140100 + 0x8 * n, 16, 16⟩

/-! SYN_BARm_A: Table 10.14 -/

def SYN_BAR_A_COUNTER (n : Nat) : Fld := ⟨0x142000 + 0x10 * n, 0, 16⟩
def SYN_BAR_A_N (n : Nat) : Fld := ⟨0x142000 + 0x10 * n, 16, 16⟩
def SYN_BAR_A_VALID (n : Nat) : Fld := ⟨0x142000 + 0x10 * n, 32, 1⟩

/-! SYN_BARm_B: Table 10.14 -/

def SYN_BAR_B_BASE (n : Nat) : Fld := ⟨0x142008 + 0x10 * n, 0, 64⟩

/-! SYN_WARM: Table 10.15 -/

def SYN_WARM_COUNTER : Fld := ⟨0x140050, 0, 16⟩
def SYN_WARM_GO : Fld := ⟨0x140050, 63, 1⟩

/-! SYN_WV: Table 10.15 -/

def SYN_WV_V : Fld := ⟨0x140058, 0, 64⟩

/-! SYN_WDL: Table 10.15 -/

def SYN_WDL_DEADLINE : Fld := ⟨0x140060, 0, 64⟩

/-! SYN_WRES: Table 10.15 -/

def SYN_WRES_WATCH : Fld := ⟨0x140068, 0, 12⟩
def SYN_WRES_STATUS : Fld := ⟨0x140068, 12, 4⟩

/-! SYN_SESS_SEL: Table 10.16 -/

def SYN_SESS_SEL_SESSION : Fld := ⟨0x140070, 0, 14⟩

/-! SYN_SESS: Table 10.16 -/

def SYN_SESS_PEER : Fld := ⟨0x140078, 0, 22⟩
def SYN_SESS_STATE : Fld := ⟨0x140078, 22, 3⟩
def SYN_SESS_PORT : Fld := ⟨0x140078, 25, 5⟩

/-! SYN_EVT: Table 10.17 -/

def SYN_EVT_XFER_LOST : Fld := ⟨0x140080, 0, 1⟩
def SYN_EVT_COUNT_ERR : Fld := ⟨0x140080, 1, 1⟩
def SYN_EVT_WATCH_TIMEOUT : Fld := ⟨0x140080, 2, 1⟩
def SYN_EVT_WATCH_FULL : Fld := ⟨0x140080, 3, 1⟩
def SYN_EVT_SESS_LOST : Fld := ⟨0x140080, 4, 1⟩
def SYN_EVT_DUMP_DONE : Fld := ⟨0x140080, 5, 1⟩

/-! SYN_EVT_EN: Table 10.17 -/

def SYN_EVT_EN_XFER_LOST : Fld := ⟨0x140088, 0, 1⟩
def SYN_EVT_EN_COUNT_ERR : Fld := ⟨0x140088, 1, 1⟩
def SYN_EVT_EN_WATCH_TIMEOUT : Fld := ⟨0x140088, 2, 1⟩
def SYN_EVT_EN_WATCH_FULL : Fld := ⟨0x140088, 3, 1⟩
def SYN_EVT_EN_SESS_LOST : Fld := ⟨0x140088, 4, 1⟩
def SYN_EVT_EN_DUMP_DONE : Fld := ⟨0x140088, 5, 1⟩

/-- Access types and power-on values (R9, R10). -/
def ctlRowsSyn0 : List RegRow := [
  -- SYN_SEL
  ⟨0x140000, 0x8, 1, [⟨0, 16, .rw, 0⟩]⟩,
  -- SYN_VAL
  ⟨0x140008, 0x8, 1, [⟨0, 64, .ro, 0⟩]⟩,
  -- SYN_ADD
  ⟨0x140010, 0x8, 1, [⟨0, 64, .wo, 0⟩]⟩,
  -- SYN_SET
  ⟨0x140018, 0x8, 1, [⟨0, 64, .wo, 0⟩]⟩,
  -- SYN_TIMEOUT
  ⟨0x140020, 0x8, 1, [⟨0, 16, .rw, 0x3e8⟩, ⟨16, 16, .rw, 0x64⟩, ⟨32, 8, .rw, 5⟩, ⟨40, 16, .rw, 0x32⟩]⟩,
  -- SYN_CFG
  ⟨0x140028, 0x8, 1, [⟨0, 16, .rw, 0x400⟩]⟩,
  -- SYN_STAT
  ⟨0x140030, 0x8, 1, [⟨0, 17, .ro, 0⟩, ⟨17, 13, .ro, 0⟩, ⟨30, 15, .ro, 0⟩, ⟨45, 1, .ro, 0⟩, ⟨46, 1, .ro, 0⟩]⟩,
  -- SYN_COUNT
  ⟨0x140038, 0x8, 1, [⟨0, 32, .ro, 0⟩, ⟨32, 32, .ro, 0⟩]⟩,
  -- SYN_DUMP
  ⟨0x140040, 0x8, 1, [⟨0, 1, .w1s, 0⟩, ⟨1, 1, .rw, 0⟩, ⟨8, 6, .rw, 1⟩, ⟨32, 32, .ro, 0⟩]⟩,
  -- SYN_PM_BASE
  ⟨0x140048, 0x8, 1, [⟨23, 29, .rw, 0⟩]⟩,
  -- SYN_WINn
  ⟨0x140100, 0x8, 1, [⟨0, 16, .ro, 0x2000⟩, ⟨16, 16, .ro, 0x2000⟩]⟩,
  -- SYN_WINn
  ⟨0x140108, 0x8, 1, [⟨0, 16, .ro, 0⟩, ⟨16, 16, .ro, 0x1000⟩]⟩]

/-- Access types and power-on values (R9, R10). -/
def ctlRowsSyn1 : List RegRow := [
  -- SYN_WINn
  ⟨0x140110, 0x8, 1, [⟨0, 16, .ro, 0x1000⟩, ⟨16, 16, .ro, 0x1000⟩]⟩,
  -- SYN_WINn
  ⟨0x140118, 0x8, 61, [⟨0, 16, .rw, 0⟩, ⟨16, 16, .rw, 0⟩]⟩,
  -- SYN_BARm_A
  ⟨0x142000, 0x10, 1024, [⟨0, 16, .rw, 0⟩, ⟨16, 16, .rw, 0⟩, ⟨32, 1, .rw, 0⟩]⟩,
  -- SYN_BARm_B
  ⟨0x142008, 0x10, 1024, [⟨0, 64, .rw, 0⟩]⟩,
  -- SYN_WARM
  ⟨0x140050, 0x8, 1, [⟨0, 16, .wo, 0⟩, ⟨63, 1, .wo, 0⟩]⟩,
  -- SYN_WV
  ⟨0x140058, 0x8, 1, [⟨0, 64, .rw, 0⟩]⟩,
  -- SYN_WDL
  ⟨0x140060, 0x8, 1, [⟨0, 64, .rw, 0⟩]⟩,
  -- SYN_WRES
  ⟨0x140068, 0x8, 1, [⟨0, 12, .ro, 0⟩, ⟨12, 4, .ro, 0⟩]⟩,
  -- SYN_SESS_SEL
  ⟨0x140070, 0x8, 1, [⟨0, 14, .rw, 0⟩]⟩,
  -- SYN_SESS
  ⟨0x140078, 0x8, 1, [⟨0, 22, .ro, 0⟩, ⟨22, 3, .ro, 0⟩, ⟨25, 5, .ro, 0⟩]⟩,
  -- SYN_EVT
  ⟨0x140080, 0x8, 1, [⟨0, 1, .w1c, 0⟩, ⟨1, 1, .w1c, 0⟩, ⟨2, 1, .w1c, 0⟩, ⟨3, 1, .w1c, 0⟩, ⟨4, 1, .w1c, 0⟩, ⟨5, 1, .w1c, 0⟩]⟩,
  -- SYN_EVT_EN
  ⟨0x140088, 0x8, 1, [⟨0, 1, .rw, 0⟩, ⟨1, 1, .rw, 1⟩, ⟨2, 1, .rw, 0⟩, ⟨3, 1, .rw, 1⟩, ⟨4, 1, .rw, 1⟩, ⟨5, 1, .rw, 0⟩]⟩]

/-- Access types and power-on values (R9, R10). -/
def ctlRowsSyn : List RegRow := ctlRowsSyn0 ++ ctlRowsSyn1

/-! LNK_n_CFG: Table 11.10 -/

def LNK_CFG_EN (n : Nat) : Fld := ⟨0x180000 + 0x1000 * n, 0, 1⟩
def LNK_CFG_MODE (n : Nat) : Fld := ⟨0x180000 + 0x1000 * n, 1, 1⟩
def LNK_CFG_MIN_LANES (n : Nat) : Fld := ⟨0x180000 + 0x1000 * n, 4, 4⟩
def LNK_CFG_GROUP (n : Nat) : Fld := ⟨0x180000 + 0x1000 * n, 8, 1⟩
def LNK_CFG_LANE_ERR (n : Nat) : Fld := ⟨0x180000 + 0x1000 * n, 16, 8⟩
def LNK_CFG_RETRY_MAX (n : Nat) : Fld := ⟨0x180000 + 0x1000 * n, 24, 8⟩

/-! LNK_n_STAT: Table 11.11 -/

def LNK_STAT_STATE (n : Nat) : Fld := ⟨0x180008 + 0x1000 * n, 0, 3⟩
def LNK_STAT_LANES (n : Nat) : Fld := ⟨0x180008 + 0x1000 * n, 4, 8⟩
def LNK_STAT_CAUSE (n : Nat) : Fld := ⟨0x180008 + 0x1000 * n, 12, 4⟩
def LNK_STAT_DPORT (n : Nat) : Fld := ⟨0x180008 + 0x1000 * n, 16, 5⟩

/-! LNK_n_FAR: Table 11.11 -/

def LNK_FAR_ADDR (n : Nat) : Fld := ⟨0x180010 + 0x1000 * n, 0, 22⟩
def LNK_FAR_FPORT (n : Nat) : Fld := ⟨0x180010 + 0x1000 * n, 22, 5⟩
def LNK_FAR_AGENT (n : Nat) : Fld := ⟨0x180010 + 0x1000 * n, 27, 1⟩
def LNK_FAR_FABRIC (n : Nat) : Fld := ⟨0x180010 + 0x1000 * n, 28, 1⟩

/-! LNK_n_ERR: Table 11.11 -/

def LNK_ERR_RETRIES (n : Nat) : Fld := ⟨0x180018 + 0x1000 * n, 0, 32⟩
def LNK_ERR_DROPS (n : Nat) : Fld := ⟨0x180018 + 0x1000 * n, 32, 16⟩
def LNK_ERR_TRAININGS (n : Nat) : Fld := ⟨0x180018 + 0x1000 * n, 48, 16⟩

/-! LNK_TIME: Table 11.12 -/

def LNK_TIME_SRC : Fld := ⟨0x1f0000, 0, 5⟩
def LNK_TIME_LOCKED : Fld := ⟨0x1f0000, 8, 1⟩
def LNK_TIME_OFFSET : Fld := ⟨0x1f0000, 16, 32⟩

/-! LNK_TEST: Table 11.12 -/

def LNK_TEST_TARGET : Fld := ⟨0x1f0008, 0, 5⟩
def LNK_TEST_GO : Fld := ⟨0x1f0008, 8, 1⟩
def LNK_TEST_DONE : Fld := ⟨0x1f0008, 9, 1⟩
def LNK_TEST_PASS : Fld := ⟨0x1f0008, 10, 1⟩
def LNK_TEST_TEST_MS : Fld := ⟨0x1f0008, 16, 16⟩
def LNK_TEST_ERRORS : Fld := ⟨0x1f0008, 32, 32⟩

/-! LNK_CFG: Table 11.12 -/

def LNK_CFG_TRAIN_MS : Fld := ⟨0x1f0010, 0, 8⟩
def LNK_CFG_RETRAIN_MS : Fld := ⟨0x1f0010, 8, 16⟩
def LNK_CFG_ACK_US : Fld := ⟨0x1f0010, 24, 8⟩

/-! LNK_SBn: Table 11.13 -/

def LNK_SB_STATE (n : Nat) : Fld := ⟨0x1f0100 + 0x8 * n, 0, 2⟩
def LNK_SB_ALERT (n : Nat) : Fld := ⟨0x1f0100 + 0x8 * n, 2, 1⟩
def LNK_SB_HALT (n : Nat) : Fld := ⟨0x1f0100 + 0x8 * n, 3, 1⟩
def LNK_SB_RESET (n : Nat) : Fld := ⟨0x1f0100 + 0x8 * n, 4, 1⟩
def LNK_SB_RETRIES (n : Nat) : Fld := ⟨0x1f0100 + 0x8 * n, 32, 32⟩

/-- Access types and power-on values (R9, R10). -/
def ctlRowsLnk : List RegRow := [
  -- LNK_n_CFG
  ⟨0x180000, 0x1000, 20, [⟨0, 1, .rw, 1⟩, ⟨1, 1, .rw, 0⟩, ⟨4, 4, .rw, 4⟩, ⟨8, 1, .ro, 0⟩, ⟨16, 8, .rw, 0x10⟩, ⟨24, 8, .rw, 8⟩]⟩,
  -- LNK_n_CFG
  ⟨0x194000, 0x1000, 2, [⟨0, 1, .rw, 1⟩, ⟨1, 1, .rw, 0⟩, ⟨4, 4, .rw, 4⟩, ⟨8, 1, .rw, 0⟩, ⟨16, 8, .rw, 0x10⟩, ⟨24, 8, .rw, 8⟩]⟩,
  -- LNK_n_CFG
  ⟨0x196000, 0x1000, 2, [⟨0, 1, .rw, 1⟩, ⟨1, 1, .rw, 0⟩, ⟨4, 4, .rw, 4⟩, ⟨8, 1, .rw, 1⟩, ⟨16, 8, .rw, 0x10⟩, ⟨24, 8, .rw, 8⟩]⟩,
  -- LNK_n_STAT
  ⟨0x180008, 0x1000, 24, [⟨0, 3, .ro, 1⟩, ⟨4, 8, .ro, 0⟩, ⟨12, 4, .ro, 0⟩, ⟨16, 5, .ro, 0⟩]⟩,
  -- LNK_n_FAR
  ⟨0x180010, 0x1000, 24, [⟨0, 22, .ro, 0⟩, ⟨22, 5, .ro, 0⟩, ⟨27, 1, .ro, 0⟩, ⟨28, 1, .ro, 0⟩]⟩,
  -- LNK_n_ERR
  ⟨0x180018, 0x1000, 24, [⟨0, 32, .ro, 0⟩, ⟨32, 16, .ro, 0⟩, ⟨48, 16, .ro, 0⟩]⟩,
  -- LNK_TIME
  ⟨0x1f0000, 0x8, 1, [⟨0, 5, .rw, 0x1f⟩, ⟨8, 1, .ro, 0⟩, ⟨16, 32, .ro, 0⟩]⟩,
  -- LNK_TEST
  ⟨0x1f0008, 0x8, 1, [⟨0, 5, .rw, 0⟩, ⟨8, 1, .w1s, 0⟩, ⟨9, 1, .ro, 0⟩, ⟨10, 1, .ro, 0⟩, ⟨16, 16, .rw, 0x32⟩, ⟨32, 32, .ro, 0⟩]⟩,
  -- LNK_CFG
  ⟨0x1f0010, 0x8, 1, [⟨0, 8, .rw, 0x14⟩, ⟨8, 16, .rw, 0x64⟩, ⟨24, 8, .rw, 4⟩]⟩,
  -- LNK_SBn
  ⟨0x1f0100, 0x8, 8, [⟨0, 2, .ro, 0⟩, ⟨2, 1, .ro, 0⟩, ⟨3, 1, .ro, 1⟩, ⟨4, 1, .ro, 1⟩, ⟨32, 32, .ro, 0⟩]⟩]

/-! HST_CFG: Table 12.9 -/

def HST_CFG_UDP_PORT : Fld := ⟨0x200000, 0, 16⟩
def HST_CFG_WINDOW : Fld := ⟨0x200000, 16, 13⟩
def HST_CFG_RTO_US : Fld := ⟨0x200000, 32, 16⟩
def HST_CFG_RETRY_MAX : Fld := ⟨0x200000, 48, 8⟩
def HST_CFG_IDLE_S : Fld := ⟨0x200000, 56, 8⟩

/-! HST_NET: Table 12.10 -/

def HST_NET_IPV6 : Fld := ⟨0x200008, 0, 1⟩
def HST_NET_IPV4 : Fld := ⟨0x200008, 1, 1⟩
def HST_NET_VLAN : Fld := ⟨0x200008, 2, 1⟩
def HST_NET_PTP : Fld := ⟨0x200008, 3, 1⟩
def HST_NET_VID : Fld := ⟨0x200008, 4, 12⟩
def HST_NET_SESS_MAX : Fld := ⟨0x200008, 16, 5⟩

/-! HST_IP6_LO: Table 12.11 -/

def HST_IP6_LO_ADDR : Fld := ⟨0x200010, 0, 64⟩

/-! HST_IP6_HI: Table 12.11 -/

def HST_IP6_HI_ADDR : Fld := ⟨0x200018, 0, 64⟩

/-! HST_IP4: Table 12.11 -/

def HST_IP4_ADDR : Fld := ⟨0x200020, 0, 32⟩

/-! HST_MAC: Table 12.11 -/

def HST_MAC_MAC : Fld := ⟨0x200028, 0, 48⟩

/-! HST_STAT: Table 12.12 -/

def HST_STAT_UP0 : Fld := ⟨0x200030, 0, 1⟩
def HST_STAT_UP1 : Fld := ⟨0x200030, 1, 1⟩
def HST_STAT_SESSIONS : Fld := ⟨0x200030, 8, 5⟩

/-! HST_COUNT: Table 12.12 -/

def HST_COUNT_TAG_FAIL : Fld := ⟨0x200038, 0, 16⟩
def HST_COUNT_CRC_FAIL : Fld := ⟨0x200038, 16, 16⟩
def HST_COUNT_REPLAY : Fld := ⟨0x200038, 32, 16⟩
def HST_COUNT_NO_SESSION : Fld := ⟨0x200038, 48, 16⟩

/-! HST_SESSn: Table 12.13 -/

def HST_SESS_STATE (n : Nat) : Fld := ⟨0x200100 + 0x8 * n, 0, 2⟩
def HST_SESS_CLASS (n : Nat) : Fld := ⟨0x200100 + 0x8 * n, 2, 2⟩
def HST_SESS_EVENTS (n : Nat) : Fld := ⟨0x200100 + 0x8 * n, 4, 1⟩
def HST_SESS_PORT (n : Nat) : Fld := ⟨0x200100 + 0x8 * n, 5, 1⟩
def HST_SESS_EVQ (n : Nat) : Fld := ⟨0x200100 + 0x8 * n, 8, 8⟩
def HST_SESS_SEQ_IN (n : Nat) : Fld := ⟨0x200100 + 0x8 * n, 16, 32⟩

/-- Access types and power-on values (R9, R10). -/
def ctlRowsHst : List RegRow := [
  -- HST_CFG
  ⟨0x200000, 0x8, 1, [⟨0, 16, .rw, 0xa2e0⟩, ⟨16, 13, .rw, 0x200⟩, ⟨32, 16, .rw, 0xc8⟩, ⟨48, 8, .rw, 0x10⟩, ⟨56, 8, .rw, 0x3c⟩]⟩,
  -- HST_NET
  ⟨0x200008, 0x8, 1, [⟨0, 1, .rw, 1⟩, ⟨1, 1, .rw, 0⟩, ⟨2, 1, .rw, 0⟩, ⟨3, 1, .rw, 1⟩, ⟨4, 12, .rw, 0⟩, ⟨16, 5, .rw, 0x10⟩]⟩,
  -- HST_IP6_LO
  ⟨0x200010, 0x8, 1, [⟨0, 64, .rw, 0⟩]⟩,
  -- HST_IP6_HI
  ⟨0x200018, 0x8, 1, [⟨0, 64, .rw, 0⟩]⟩,
  -- HST_IP4
  ⟨0x200020, 0x8, 1, [⟨0, 32, .rw, 0⟩]⟩,
  -- HST_MAC
  ⟨0x200028, 0x8, 1, [⟨0, 48, .ro, 0⟩]⟩,
  -- HST_STAT
  ⟨0x200030, 0x8, 1, [⟨0, 1, .ro, 0⟩, ⟨1, 1, .ro, 0⟩, ⟨8, 5, .ro, 0⟩]⟩,
  -- HST_COUNT
  ⟨0x200038, 0x8, 1, [⟨0, 16, .ro, 0⟩, ⟨16, 16, .ro, 0⟩, ⟨32, 16, .ro, 0⟩, ⟨48, 16, .ro, 0⟩]⟩,
  -- HST_SESSn
  ⟨0x200100, 0x8, 16, [⟨0, 2, .ro, 0⟩, ⟨2, 2, .ro, 0⟩, ⟨4, 1, .ro, 0⟩, ⟨5, 1, .ro, 0⟩, ⟨8, 8, .ro, 0⟩, ⟨16, 32, .ro, 0⟩]⟩]

/-! RNG_ADDR: Table 13.8 -/

def RNG_ADDR_POS : Fld := ⟨0x240000, 0, 6⟩
def RNG_ADDR_RACK : Fld := ⟨0x240000, 6, 16⟩
def RNG_ADDR_TRAY : Fld := ⟨0x240000, 22, 4⟩
def RNG_ADDR_ENUM : Fld := ⟨0x240000, 26, 1⟩

/-! RNG_CFG: Table 13.8 -/

def RNG_CFG_PULSE_MS : Fld := ⟨0x240008, 0, 8⟩
def RNG_CFG_LOST_MS : Fld := ⟨0x240008, 8, 16⟩

/-! RNG_STAT: Table 13.9 -/

def RNG_STAT_IN_UP : Fld := ⟨0x240010, 0, 1⟩
def RNG_STAT_RACK_ERR : Fld := ⟨0x240010, 1, 1⟩
def RNG_STAT_CONFLICT : Fld := ⟨0x240010, 2, 1⟩
def RNG_STAT_FULL : Fld := ⟨0x240010, 3, 1⟩

/-! RNG_COUNT: Table 13.9 -/

def RNG_COUNT_FORWARDED : Fld := ⟨0x240018, 0, 32⟩
def RNG_COUNT_CRC_FAIL : Fld := ⟨0x240018, 32, 16⟩
def RNG_COUNT_DROPPED : Fld := ⟨0x240018, 48, 16⟩

/-- Access types and power-on values (R9, R10). -/
def ctlRowsRng : List RegRow := [
  -- RNG_ADDR
  ⟨0x240000, 0x8, 1, [⟨0, 6, .ro, 0⟩, ⟨6, 16, .ro, 0⟩, ⟨22, 4, .ro, 0⟩, ⟨26, 1, .ro, 0⟩]⟩,
  -- RNG_CFG
  ⟨0x240008, 0x8, 1, [⟨0, 8, .rw, 0xa⟩, ⟨8, 16, .rw, 0x64⟩]⟩,
  -- RNG_STAT
  ⟨0x240010, 0x8, 1, [⟨0, 1, .ro, 0⟩, ⟨1, 1, .w1c, 0⟩, ⟨2, 1, .w1c, 0⟩, ⟨3, 1, .w1c, 0⟩]⟩,
  -- RNG_COUNT
  ⟨0x240018, 0x8, 1, [⟨0, 32, .ro, 0⟩, ⟨32, 16, .ro, 0⟩, ⟨48, 16, .ro, 0⟩]⟩]

/-! RST_CTRL: Table 14.10 -/

def RST_CTRL_UNIT : Fld := ⟨0x20000, 0, 8⟩
def RST_CTRL_RUNG : Fld := ⟨0x20000, 8, 3⟩
def RST_CTRL_GO : Fld := ⟨0x20000, 11, 1⟩

/-! RST_STAT: Table 14.11 -/

def RST_STAT_RUNG : Fld := ⟨0x20008, 0, 3⟩
def RST_STAT_UNIT : Fld := ⟨0x20008, 4, 8⟩
def RST_STAT_CAUSE : Fld := ⟨0x20008, 12, 4⟩
def RST_STAT_ESCALATED : Fld := ⟨0x20008, 16, 1⟩
def RST_STAT_FENCE_OVER : Fld := ⟨0x20008, 17, 1⟩
def RST_STAT_ACTIVE : Fld := ⟨0x20008, 18, 1⟩

/-! RST_TIME: Table 14.11 -/

def RST_TIME_TIME : Fld := ⟨0x20010, 0, 64⟩

/-! RST_WDOG: Table 14.12 -/

def RST_WDOG_TILE_MS : Fld := ⟨0x20018, 0, 16⟩
def RST_WDOG_DMA_MS : Fld := ⟨0x20018, 16, 16⟩
def RST_WDOG_CC_MS : Fld := ⟨0x20018, 32, 16⟩
def RST_WDOG_FAULT_MS : Fld := ⟨0x20018, 48, 16⟩

/-! RST_CFG: Table 14.12 -/

def RST_CFG_STOP_US : Fld := ⟨0x20020, 0, 16⟩
def RST_CFG_DRAIN_US : Fld := ⟨0x20020, 16, 16⟩
def RST_CFG_FENCE_MS : Fld := ⟨0x20020, 32, 8⟩

/-! RST_KICK: Table 14.12 -/

def RST_KICK_CORE : Fld := ⟨0x20028, 0, 8⟩

/-! RST_LIMITk: Table 14.13 -/

def RST_LIMIT_COUNT (n : Nat) : Fld := ⟨0x20040 + 0x8 * n, 0, 8⟩
def RST_LIMIT_WINDOW_S (n : Nat) : Fld := ⟨0x20040 + 0x8 * n, 8, 24⟩

/-! RST_USEL: Table 14.14 -/

def RST_USEL_UNIT : Fld := ⟨0x20068, 0, 8⟩

/-! RST_UCNT: Table 14.14 -/

def RST_UCNT_WINDOW : Fld := ⟨0x20070, 0, 40⟩
def RST_UCNT_QUAR : Fld := ⟨0x20070, 40, 1⟩

/-! RST_TOTAL: Table 14.14 -/

def RST_TOTAL_TOTAL : Fld := ⟨0x20078, 0, 60⟩

/-! RST_PWR: Table 14.15 -/

def RST_PWR_EN : Fld := ⟨0x20080, 0, 8⟩
def RST_PWR_PGOOD : Fld := ⟨0x20080, 8, 8⟩

/-! RST_QCLR: Table 14.15 -/

def RST_QCLR_SLOT : Fld := ⟨0x20088, 0, 8⟩
def RST_QCLR_XCN : Fld := ⟨0x20088, 8, 1⟩

/-! RST_EVT: Table 14.16 -/

def RST_EVT_CHIP : Fld := ⟨0x20090, 0, 1⟩
def RST_EVT_RESET : Fld := ⟨0x20090, 1, 1⟩
def RST_EVT_ESCALATED : Fld := ⟨0x20090, 2, 1⟩
def RST_EVT_SLOT_QUAR : Fld := ⟨0x20090, 3, 1⟩
def RST_EVT_XCN_OUT : Fld := ⟨0x20090, 4, 1⟩
def RST_EVT_WATCHDOG : Fld := ⟨0x20090, 5, 1⟩

/-! RST_EVT_EN: Table 14.16 -/

def RST_EVT_EN_CHIP : Fld := ⟨0x20098, 0, 1⟩
def RST_EVT_EN_RESET : Fld := ⟨0x20098, 1, 1⟩
def RST_EVT_EN_ESCALATED : Fld := ⟨0x20098, 2, 1⟩
def RST_EVT_EN_SLOT_QUAR : Fld := ⟨0x20098, 3, 1⟩
def RST_EVT_EN_XCN_OUT : Fld := ⟨0x20098, 4, 1⟩
def RST_EVT_EN_WATCHDOG : Fld := ⟨0x20098, 5, 1⟩

/-- Access types and power-on values (R9, R10). -/
def ctlRowsRst0 : List RegRow := [
  -- RST_CTRL
  ⟨0x20000, 0x8, 1, [⟨0, 8, .rw, 0⟩, ⟨8, 3, .rw, 0⟩, ⟨11, 1, .w1s, 0⟩]⟩,
  -- RST_STAT
  ⟨0x20008, 0x8, 1, [⟨0, 3, .ro, 0⟩, ⟨4, 8, .ro, 0⟩, ⟨12, 4, .ro, 0⟩, ⟨16, 1, .ro, 0⟩, ⟨17, 1, .ro, 0⟩, ⟨18, 1, .ro, 0⟩]⟩,
  -- RST_TIME
  ⟨0x20010, 0x8, 1, [⟨0, 64, .ro, 0⟩]⟩,
  -- RST_WDOG
  ⟨0x20018, 0x8, 1, [⟨0, 16, .rw, 0x64⟩, ⟨16, 16, .rw, 0x32⟩, ⟨32, 16, .rw, 0x64⟩, ⟨48, 16, .rw, 0xc8⟩]⟩,
  -- RST_CFG
  ⟨0x20020, 0x8, 1, [⟨0, 16, .rw, 0x7d0⟩, ⟨16, 16, .rw, 0x3e8⟩, ⟨32, 8, .rw, 0x14⟩]⟩,
  -- RST_KICK
  ⟨0x20028, 0x8, 1, [⟨0, 8, .wo, 0⟩]⟩,
  -- RST_LIMITk
  ⟨0x20040, 0x8, 1, [⟨0, 8, .pk, 8⟩, ⟨8, 24, .pk, 0x258⟩]⟩,
  -- RST_LIMITk
  ⟨0x20048, 0x8, 1, [⟨0, 8, .pk, 4⟩, ⟨8, 24, .pk, 0x258⟩]⟩,
  -- RST_LIMITk
  ⟨0x20050, 0x8, 1, [⟨0, 8, .pk, 3⟩, ⟨8, 24, .pk, 0x258⟩]⟩,
  -- RST_LIMITk
  ⟨0x20058, 0x8, 1, [⟨0, 8, .pk, 2⟩, ⟨8, 24, .pk, 0xe10⟩]⟩,
  -- RST_LIMITk
  ⟨0x20060, 0x8, 1, [⟨0, 8, .pk, 2⟩, ⟨8, 24, .pk, 0x15180⟩]⟩,
  -- RST_USEL
  ⟨0x20068, 0x8, 1, [⟨0, 8, .rw, 0xff⟩]⟩]

/-- Access types and power-on values (R9, R10). -/
def ctlRowsRst1 : List RegRow := [
  -- RST_UCNT
  ⟨0x20070, 0x8, 1, [⟨0, 40, .ro, 0⟩, ⟨40, 1, .ro, 0⟩]⟩,
  -- RST_TOTAL
  ⟨0x20078, 0x8, 1, [⟨0, 60, .ro, 0⟩]⟩,
  -- RST_PWR
  ⟨0x20080, 0x8, 1, [⟨0, 8, .rw, 0⟩, ⟨8, 8, .ro, 0⟩]⟩,
  -- RST_QCLR
  ⟨0x20088, 0x8, 1, [⟨0, 8, .w1s, 0⟩, ⟨8, 1, .w1s, 0⟩]⟩,
  -- RST_EVT
  ⟨0x20090, 0x8, 1, [⟨0, 1, .w1c, 0⟩, ⟨1, 1, .w1c, 0⟩, ⟨2, 1, .w1c, 0⟩, ⟨3, 1, .w1c, 0⟩, ⟨4, 1, .w1c, 0⟩, ⟨5, 1, .w1c, 0⟩]⟩,
  -- RST_EVT_EN
  ⟨0x20098, 0x8, 1, [⟨0, 1, .ro, 1⟩, ⟨1, 1, .rw, 0⟩, ⟨2, 1, .rw, 1⟩, ⟨3, 1, .rw, 1⟩, ⟨4, 1, .rw, 1⟩, ⟨5, 1, .rw, 0⟩]⟩]

/-- Access types and power-on values (R9, R10). -/
def ctlRowsRst : List RegRow := ctlRowsRst0 ++ ctlRowsRst1

/-! SEC_STAT: Table 15.11 -/

def SEC_STAT_BOOTSRC : Fld := ⟨0x40000, 0, 2⟩
def SEC_STAT_ENROLLED : Fld := ⟨0x40000, 2, 1⟩
def SEC_STAT_ENG : Fld := ⟨0x40000, 3, 1⟩
def SEC_STAT_ENROL : Fld := ⟨0x40000, 4, 1⟩
def SEC_STAT_PENDING : Fld := ⟨0x40000, 5, 1⟩
def SEC_STAT_PROLE : Fld := ⟨0x40000, 6, 2⟩
def SEC_STAT_WK_READY : Fld := ⟨0x40000, 8, 1⟩
def SEC_STAT_FAILCAUSE : Fld := ⟨0x40000, 12, 4⟩
def SEC_STAT_REMAIN_S : Fld := ⟨0x40000, 16, 9⟩

/-! SEC_FWVER: Table 15.11 -/

def SEC_FWVER_VERSION : Fld := ⟨0x40008, 0, 32⟩
def SEC_FWVER_SVN : Fld := ⟨0x40008, 32, 16⟩

/-! SEC_FWPOL: Table 15.12 -/

def SEC_FWPOL_MIN_SVN : Fld := ⟨0x40010, 0, 16⟩
def SEC_FWPOL_COUNTER : Fld := ⟨0x40010, 16, 1⟩
def SEC_FWPOL_PARTNER : Fld := ⟨0x40010, 17, 1⟩
def SEC_FWPOL_NET : Fld := ⟨0x40010, 18, 1⟩

/-! SEC_POLICY: Table 15.12 -/

def SEC_POLICY_RING_RESET : Fld := ⟨0x40018, 0, 1⟩
def SEC_POLICY_TRAY_E4 : Fld := ⟨0x40018, 1, 1⟩
def SEC_POLICY_SLOT_E4 : Fld := ⟨0x40018, 2, 1⟩

/-! SEC_CREDMIN: Table 15.12 -/

def SEC_CREDMIN_MIN : Fld := ⟨0x40020, 0, 64⟩

/-! SEC_PSEQ: Table 15.12 -/

def SEC_PSEQ_SEQ : Fld := ⟨0x40028, 0, 64⟩

/-! SEC_RRSEQ: Table 15.12 -/

def SEC_RRSEQ_SEQ : Fld := ⟨0x40030, 0, 64⟩

/-! SEC_LEAF: Table 15.12 -/

def SEC_LEAF_WK_USED : Fld := ⟨0x40038, 0, 32⟩
def SEC_LEAF_ID_USED : Fld := ⟨0x40038, 32, 32⟩

/-! SEC_EVT: Table 15.14 -/

def SEC_EVT_PENDING : Fld := ⟨0x40048, 0, 1⟩
def SEC_EVT_APPLIED : Fld := ⟨0x40048, 1, 1⟩
def SEC_EVT_EXPIRED : Fld := ⟨0x40048, 2, 1⟩
def SEC_EVT_REFUSED : Fld := ⟨0x40048, 3, 1⟩
def SEC_EVT_FW_ACCEPTED : Fld := ⟨0x40048, 4, 1⟩
def SEC_EVT_RECOVERY : Fld := ⟨0x40048, 5, 1⟩
def SEC_EVT_WK_ROLL : Fld := ⟨0x40048, 6, 1⟩
def SEC_EVT_ID_LOW : Fld := ⟨0x40048, 7, 1⟩

/-! SEC_EVT_EN: Table 15.14 -/

def SEC_EVT_EN_PENDING : Fld := ⟨0x40050, 0, 1⟩
def SEC_EVT_EN_APPLIED : Fld := ⟨0x40050, 1, 1⟩
def SEC_EVT_EN_EXPIRED : Fld := ⟨0x40050, 2, 1⟩
def SEC_EVT_EN_REFUSED : Fld := ⟨0x40050, 3, 1⟩
def SEC_EVT_EN_FW_ACCEPTED : Fld := ⟨0x40050, 4, 1⟩
def SEC_EVT_EN_RECOVERY : Fld := ⟨0x40050, 5, 1⟩
def SEC_EVT_EN_WK_ROLL : Fld := ⟨0x40050, 6, 1⟩
def SEC_EVT_EN_ID_LOW : Fld := ⟨0x40050, 7, 1⟩

/-! SEC_MEASk: Table 15.13 -/

def SEC_MEAS_VALUE (n : Nat) : Fld := ⟨0x40100 + 0x8 * n, 0, 64⟩

/-! SEC_PSETk: Table 15.13 -/

def SEC_PSET_VALUE (n : Nat) : Fld := ⟨0x40120 + 0x8 * n, 0, 64⟩

/-! SEC_PDIGk: Table 15.13 -/

def SEC_PDIG_VALUE (n : Nat) : Fld := ⟨0x40140 + 0x8 * n, 0, 64⟩

/-! SEC_KEYmk: Table 15.13 -/

def SEC_KEY_VALUE (n : Nat) : Fld := ⟨0x40200 + 0x8 * n, 0, 64⟩

/-- Access types and power-on values (R9, R10). -/
def ctlRowsSec0 : List RegRow := [
  -- SEC_STAT
  ⟨0x40000, 0x8, 1, [⟨0, 2, .ro, 0⟩, ⟨2, 1, .ro, 0⟩, ⟨3, 1, .ro, 0⟩, ⟨4, 1, .ro, 0⟩, ⟨5, 1, .ro, 0⟩, ⟨6, 2, .ro, 0⟩, ⟨8, 1, .ro, 0⟩, ⟨12, 4, .ro, 0⟩, ⟨16, 9, .ro, 0⟩]⟩,
  -- SEC_FWVER
  ⟨0x40008, 0x8, 1, [⟨0, 32, .ro, 0⟩, ⟨32, 16, .ro, 0⟩]⟩,
  -- SEC_FWPOL
  ⟨0x40010, 0x8, 1, [⟨0, 16, .pk, 0⟩, ⟨16, 1, .pk, 0⟩, ⟨17, 1, .pk, 1⟩, ⟨18, 1, .pk, 1⟩]⟩,
  -- SEC_POLICY
  ⟨0x40018, 0x8, 1, [⟨0, 1, .pk, 1⟩, ⟨1, 1, .pk, 1⟩, ⟨2, 1, .pk, 1⟩]⟩,
  -- SEC_CREDMIN
  ⟨0x40020, 0x8, 1, [⟨0, 64, .pk, 0⟩]⟩,
  -- SEC_PSEQ
  ⟨0x40028, 0x8, 1, [⟨0, 64, .ro, 0⟩]⟩,
  -- SEC_RRSEQ
  ⟨0x40030, 0x8, 1, [⟨0, 64, .ro, 0⟩]⟩,
  -- SEC_LEAF
  ⟨0x40038, 0x8, 1, [⟨0, 32, .ro, 0⟩, ⟨32, 32, .ro, 0⟩]⟩,
  -- SEC_EVT
  ⟨0x40048, 0x8, 1, [⟨0, 1, .w1c, 0⟩, ⟨1, 1, .w1c, 0⟩, ⟨2, 1, .w1c, 0⟩, ⟨3, 1, .w1c, 0⟩, ⟨4, 1, .w1c, 0⟩, ⟨5, 1, .w1c, 0⟩, ⟨6, 1, .w1c, 0⟩, ⟨7, 1, .w1c, 0⟩]⟩,
  -- SEC_EVT_EN
  ⟨0x40050, 0x8, 1, [⟨0, 1, .rw, 1⟩, ⟨1, 1, .rw, 1⟩, ⟨2, 1, .rw, 1⟩, ⟨3, 1, .rw, 1⟩, ⟨4, 1, .rw, 1⟩, ⟨5, 1, .rw, 1⟩, ⟨6, 1, .rw, 0⟩, ⟨7, 1, .rw, 1⟩]⟩,
  -- SEC_MEASk
  ⟨0x40100, 0x8, 4, [⟨0, 64, .ro, 0⟩]⟩,
  -- SEC_PSETk
  ⟨0x40120, 0x8, 4, [⟨0, 64, .ro, 0⟩]⟩]

/-- Access types and power-on values (R9, R10). -/
def ctlRowsSec1 : List RegRow := [
  -- SEC_PDIGk
  ⟨0x40140, 0x8, 4, [⟨0, 64, .ro, 0⟩]⟩,
  -- SEC_KEYmk
  ⟨0x40200, 0x8, 16, [⟨0, 64, .ro, 0⟩]⟩]

/-- Access types and power-on values (R9, R10). -/
def ctlRowsSec : List RegRow := ctlRowsSec0 ++ ctlRowsSec1

/-! TAL_CFG: Table 16.12 -/

def TAL_CFG_INTERVAL_US : Fld := ⟨0x380000, 0, 32⟩

/-! TAL_GROUPS: Table 16.12 -/

def TAL_GROUPS_MASK : Fld := ⟨0x380008, 0, 32⟩

/-! TAL_RING: Table 16.12 -/

def TAL_RING_SIZE_MIB : Fld := ⟨0x380010, 0, 11⟩

/-! TAL_STAT: Table 16.13 -/

def TAL_STAT_NEXT : Fld := ⟨0x380018, 0, 48⟩
def TAL_STAT_RUNNING : Fld := ⟨0x380018, 48, 1⟩

/-! TAL_SAMPLE: Table 16.13 -/

def TAL_SAMPLE_LEN : Fld := ⟨0x380020, 0, 15⟩
def TAL_SAMPLE_SLOTS : Fld := ⟨0x380020, 16, 24⟩

/-! TAL_SEL: Table 16.13 -/

def TAL_SEL_INDEX : Fld := ⟨0x380028, 0, 11⟩

/-! TAL_VAL: Table 16.13 -/

def TAL_VAL_VALUE : Fld := ⟨0x380030, 0, 64⟩

/-! TAL_PODTIME: Table 16.13 -/

def TAL_PODTIME_TIME : Fld := ⟨0x380038, 0, 64⟩

/-! TAL_HALT: Table 16.14 -/

def TAL_HALT_HALTED : Fld := ⟨0x380040, 0, 1⟩
def TAL_HALT_CMD : Fld := ⟨0x380040, 1, 1⟩
def TAL_HALT_PIN : Fld := ⟨0x380040, 2, 1⟩
def TAL_HALT_JTAG : Fld := ⟨0x380040, 3, 1⟩
def TAL_HALT_TRIG : Fld := ⟨0x380040, 4, 1⟩
def TAL_HALT_TRIGNO : Fld := ⟨0x380040, 5, 3⟩
def TAL_HALT_REQ : Fld := ⟨0x380040, 8, 1⟩
def TAL_HALT_REL : Fld := ⟨0x380040, 9, 1⟩
def TAL_HALT_WHEN : Fld := ⟨0x380040, 16, 48⟩

/-! TAL_TRIGn_A: Table 16.15 -/

def TAL_TRIG_A_KIND (n : Nat) : Fld := ⟨0x380100 + 0x10 * n, 0, 3⟩
def TAL_TRIG_A_ARMED (n : Nat) : Fld := ⟨0x380100 + 0x10 * n, 3, 1⟩
def TAL_TRIG_A_INDEX (n : Nat) : Fld := ⟨0x380100 + 0x10 * n, 16, 16⟩
def TAL_TRIG_A_ADDR (n : Nat) : Fld := ⟨0x380100 + 0x10 * n, 32, 23⟩

/-! TAL_TRIGn_B: Table 16.15 -/

def TAL_TRIG_B_VALUE (n : Nat) : Fld := ⟨0x380108 + 0x10 * n, 0, 64⟩

/-! TAL_EVT: Table 16.16 -/

def TAL_EVT_TRIGGERED : Fld := ⟨0x380048, 0, 1⟩
def TAL_EVT_HALTED : Fld := ⟨0x380048, 1, 1⟩
def TAL_EVT_RELEASED : Fld := ⟨0x380048, 2, 1⟩
def TAL_EVT_UNLOCK : Fld := ⟨0x380048, 3, 1⟩
def TAL_EVT_LOCK : Fld := ⟨0x380048, 4, 1⟩
def TAL_EVT_WRAP : Fld := ⟨0x380048, 5, 1⟩

/-! TAL_EVT_EN: Table 16.16 -/

def TAL_EVT_EN_TRIGGERED : Fld := ⟨0x380050, 0, 1⟩
def TAL_EVT_EN_HALTED : Fld := ⟨0x380050, 1, 1⟩
def TAL_EVT_EN_RELEASED : Fld := ⟨0x380050, 2, 1⟩
def TAL_EVT_EN_UNLOCK : Fld := ⟨0x380050, 3, 1⟩
def TAL_EVT_EN_LOCK : Fld := ⟨0x380050, 4, 1⟩
def TAL_EVT_EN_WRAP : Fld := ⟨0x380050, 5, 1⟩

/-- Access types and power-on values (R9, R10). -/
def ctlRowsTal0 : List RegRow := [
  -- TAL_CFG
  ⟨0x380000, 0x8, 1, [⟨0, 32, .rw, 0x186a0⟩]⟩,
  -- TAL_GROUPS
  ⟨0x380008, 0x8, 1, [⟨0, 32, .rw, 0xffffffff⟩]⟩,
  -- TAL_RING
  ⟨0x380010, 0x8, 1, [⟨0, 11, .rw, 0x400⟩]⟩,
  -- TAL_STAT
  ⟨0x380018, 0x8, 1, [⟨0, 48, .ro, 0⟩, ⟨48, 1, .ro, 0⟩]⟩,
  -- TAL_SAMPLE
  ⟨0x380020, 0x8, 1, [⟨0, 15, .ro, 0x4080⟩, ⟨16, 24, .ro, 0xfe03⟩]⟩,
  -- TAL_SEL
  ⟨0x380028, 0x8, 1, [⟨0, 11, .rw, 0⟩]⟩,
  -- TAL_VAL
  ⟨0x380030, 0x8, 1, [⟨0, 64, .ro, 0⟩]⟩,
  -- TAL_PODTIME
  ⟨0x380038, 0x8, 1, [⟨0, 64, .ro, 0⟩]⟩,
  -- TAL_HALT
  ⟨0x380040, 0x8, 1, [⟨0, 1, .ro, 0⟩, ⟨1, 1, .ro, 0⟩, ⟨2, 1, .ro, 0⟩, ⟨3, 1, .ro, 0⟩, ⟨4, 1, .ro, 0⟩, ⟨5, 3, .ro, 0⟩, ⟨8, 1, .w1s, 0⟩, ⟨9, 1, .w1s, 0⟩, ⟨16, 48, .ro, 0⟩]⟩,
  -- TAL_TRIGn_A
  ⟨0x380100, 0x10, 8, [⟨0, 3, .rw, 0⟩, ⟨3, 1, .rw, 0⟩, ⟨16, 16, .rw, 0⟩, ⟨32, 23, .rw, 0⟩]⟩,
  -- TAL_TRIGn_B
  ⟨0x380108, 0x10, 8, [⟨0, 64, .rw, 0⟩]⟩,
  -- TAL_EVT
  ⟨0x380048, 0x8, 1, [⟨0, 1, .w1c, 0⟩, ⟨1, 1, .w1c, 0⟩, ⟨2, 1, .w1c, 0⟩, ⟨3, 1, .w1c, 0⟩, ⟨4, 1, .w1c, 0⟩, ⟨5, 1, .w1c, 0⟩]⟩]

/-- Access types and power-on values (R9, R10). -/
def ctlRowsTal1 : List RegRow := [
  -- TAL_EVT_EN
  ⟨0x380050, 0x8, 1, [⟨0, 1, .rw, 1⟩, ⟨1, 1, .rw, 1⟩, ⟨2, 1, .rw, 1⟩, ⟨3, 1, .rw, 1⟩, ⟨4, 1, .rw, 0⟩, ⟨5, 1, .rw, 0⟩]⟩]

/-- Access types and power-on values (R9, R10). -/
def ctlRowsTal : List RegRow := ctlRowsTal0 ++ ctlRowsTal1

/-! DST_SEQ: Table 16.17 -/

def DST_SEQ_NEXT : Fld := ⟨0x3c0000, 0, 48⟩

/-! DST_STAT: Table 16.17 -/

def DST_STAT_FOUND_USED : Fld := ⟨0x3c0008, 0, 13⟩
def DST_STAT_FOUND_FULL : Fld := ⟨0x3c0008, 13, 1⟩
def DST_STAT_QUEUE : Fld := ⟨0x3c0008, 16, 11⟩
def DST_STAT_SUPPRESSED : Fld := ⟨0x3c0008, 32, 32⟩

/-! DST_LIFE: Table 16.17 -/

def DST_LIFE_SECONDS : Fld := ⟨0x3c0010, 0, 40⟩
def DST_LIFE_CYCLES : Fld := ⟨0x3c0010, 40, 24⟩

/-! DST_CFG: Table 16.17 -/

def DST_CFG_RATE : Fld := ⟨0x3c0018, 0, 16⟩

/-! DST_NOTEk: Table 16.18 -/

def DST_NOTE_BYTES (n : Nat) : Fld := ⟨0x3c0020 + 0x8 * n, 0, 64⟩

/-! DST_CTRL: Table 16.18 -/

def DST_CTRL_NOTE : Fld := ⟨0x3c0040, 0, 1⟩

/-! DST_EVT: Table 16.19 -/

def DST_EVT_FOUND_FULL : Fld := ⟨0x3c0048, 0, 1⟩
def DST_EVT_SUPPRESSED : Fld := ⟨0x3c0048, 1, 1⟩
def DST_EVT_WRITE_FAIL : Fld := ⟨0x3c0048, 2, 1⟩

/-! DST_EVT_EN: Table 16.19 -/

def DST_EVT_EN_FOUND_FULL : Fld := ⟨0x3c0050, 0, 1⟩
def DST_EVT_EN_SUPPRESSED : Fld := ⟨0x3c0050, 1, 1⟩
def DST_EVT_EN_WRITE_FAIL : Fld := ⟨0x3c0050, 2, 1⟩

/-- Access types and power-on values (R9, R10). -/
def ctlRowsDst : List RegRow := [
  -- DST_SEQ
  ⟨0x3c0000, 0x8, 1, [⟨0, 48, .ro, 0⟩]⟩,
  -- DST_STAT
  ⟨0x3c0008, 0x8, 1, [⟨0, 13, .ro, 0⟩, ⟨13, 1, .ro, 0⟩, ⟨16, 11, .ro, 0⟩, ⟨32, 32, .ro, 0⟩]⟩,
  -- DST_LIFE
  ⟨0x3c0010, 0x8, 1, [⟨0, 40, .ro, 0⟩, ⟨40, 24, .ro, 0⟩]⟩,
  -- DST_CFG
  ⟨0x3c0018, 0x8, 1, [⟨0, 16, .rw, 0x3e8⟩]⟩,
  -- DST_NOTEk
  ⟨0x3c0020, 0x8, 4, [⟨0, 64, .rw, 0⟩]⟩,
  -- DST_CTRL
  ⟨0x3c0040, 0x8, 1, [⟨0, 1, .w1s, 0⟩]⟩,
  -- DST_EVT
  ⟨0x3c0048, 0x8, 1, [⟨0, 1, .w1c, 0⟩, ⟨1, 1, .w1c, 0⟩, ⟨2, 1, .w1c, 0⟩]⟩,
  -- DST_EVT_EN
  ⟨0x3c0050, 0x8, 1, [⟨0, 1, .rw, 1⟩, ⟨1, 1, .rw, 0⟩, ⟨2, 1, .rw, 1⟩]⟩]

/-! CLK_STAT: Table 18.13 -/

def CLK_STAT_DIV : Fld := ⟨0x10000, 0, 4⟩
def CLK_STAT_ROOT_LOCK : Fld := ⟨0x10000, 4, 1⟩
def CLK_STAT_REF_OK : Fld := ⟨0x10000, 5, 1⟩
def CLK_STAT_HBM_LOCK : Fld := ⟨0x10000, 6, 1⟩
def CLK_STAT_DDR_LOCK : Fld := ⟨0x10000, 7, 1⟩
def CLK_STAT_OPT_LOCK : Fld := ⟨0x10000, 8, 1⟩
def CLK_STAT_ETH_LOCK : Fld := ⟨0x10000, 9, 1⟩
def CLK_STAT_LIMITER : Fld := ⟨0x10000, 12, 4⟩
def CLK_STAT_MARGIN : Fld := ⟨0x10000, 16, 16⟩

/-! CLK_THERM: Table 18.14 -/

def CLK_THERM_HOT : Fld := ⟨0x10008, 0, 16⟩
def CLK_THERM_HBM_HOT : Fld := ⟨0x10008, 16, 16⟩
def CLK_THERM_DIMM_HOT : Fld := ⟨0x10008, 32, 16⟩
def CLK_THERM_SENSOR : Fld := ⟨0x10008, 48, 6⟩
def CLK_THERM_CHANNEL : Fld := ⟨0x10008, 54, 5⟩

/-! CLK_TCFG: Table 18.14 -/

def CLK_TCFG_THROTTLE_C : Fld := ⟨0x10010, 0, 16⟩
def CLK_TCFG_HBM_C : Fld := ⟨0x10010, 16, 16⟩
def CLK_TCFG_HYST : Fld := ⟨0x10010, 32, 8⟩
def CLK_TCFG_DIV_MIN : Fld := ⟨0x10010, 40, 4⟩

/-! CLK_PWR: Table 18.15 -/

def CLK_PWR_LIMIT_W : Fld := ⟨0x10018, 0, 16⟩
def CLK_PWR_POWER_W : Fld := ⟨0x10018, 16, 16⟩
def CLK_PWR_PEAK_W : Fld := ⟨0x10018, 32, 16⟩

/-! CLK_COUNT: Table 18.15 -/

def CLK_COUNT_DOWN : Fld := ⟨0x10020, 0, 32⟩
def CLK_COUNT_UP : Fld := ⟨0x10020, 32, 32⟩

/-! CLK_EVT: Table 18.16 -/

def CLK_EVT_THROTTLE : Fld := ⟨0x10028, 0, 1⟩
def CLK_EVT_RESTORED : Fld := ⟨0x10028, 1, 1⟩
def CLK_EVT_CRIT : Fld := ⟨0x10028, 2, 1⟩
def CLK_EVT_DIMM_HOT : Fld := ⟨0x10028, 3, 1⟩
def CLK_EVT_REF_LOST : Fld := ⟨0x10028, 4, 1⟩
def CLK_EVT_PLIMIT : Fld := ⟨0x10028, 5, 1⟩

/-! CLK_EVT_EN: Table 18.16 -/

def CLK_EVT_EN_THROTTLE : Fld := ⟨0x10030, 0, 1⟩
def CLK_EVT_EN_RESTORED : Fld := ⟨0x10030, 1, 1⟩
def CLK_EVT_EN_CRIT : Fld := ⟨0x10030, 2, 1⟩
def CLK_EVT_EN_DIMM_HOT : Fld := ⟨0x10030, 3, 1⟩
def CLK_EVT_EN_REF_LOST : Fld := ⟨0x10030, 4, 1⟩
def CLK_EVT_EN_PLIMIT : Fld := ⟨0x10030, 5, 1⟩

/-- Access types and power-on values (R9, R10). -/
def ctlRowsClk : List RegRow := [
  -- CLK_STAT
  ⟨0x10000, 0x8, 1, [⟨0, 4, .ro, 4⟩, ⟨4, 1, .ro, 0⟩, ⟨5, 1, .ro, 0⟩, ⟨6, 1, .ro, 0⟩, ⟨7, 1, .ro, 0⟩, ⟨8, 1, .ro, 0⟩, ⟨9, 1, .ro, 0⟩, ⟨12, 4, .ro, 0⟩, ⟨16, 16, .ro, 0⟩]⟩,
  -- CLK_THERM
  ⟨0x10008, 0x8, 1, [⟨0, 16, .ro, 0⟩, ⟨16, 16, .ro, 0⟩, ⟨32, 16, .ro, 0⟩, ⟨48, 6, .ro, 0⟩, ⟨54, 5, .ro, 0⟩]⟩,
  -- CLK_TCFG
  ⟨0x10010, 0x8, 1, [⟨0, 16, .rw, 0x3b6⟩, ⟨16, 16, .rw, 0x384⟩, ⟨32, 8, .rw, 0x32⟩, ⟨40, 4, .rw, 4⟩]⟩,
  -- CLK_PWR
  ⟨0x10018, 0x8, 1, [⟨0, 16, .rw, 0xa8c⟩, ⟨16, 16, .ro, 0⟩, ⟨32, 16, .ro, 0⟩]⟩,
  -- CLK_COUNT
  ⟨0x10020, 0x8, 1, [⟨0, 32, .ro, 0⟩, ⟨32, 32, .ro, 0⟩]⟩,
  -- CLK_EVT
  ⟨0x10028, 0x8, 1, [⟨0, 1, .w1c, 0⟩, ⟨1, 1, .w1c, 0⟩, ⟨2, 1, .w1c, 0⟩, ⟨3, 1, .w1c, 0⟩, ⟨4, 1, .w1c, 0⟩, ⟨5, 1, .w1c, 0⟩]⟩,
  -- CLK_EVT_EN
  ⟨0x10030, 0x8, 1, [⟨0, 1, .rw, 1⟩, ⟨1, 1, .rw, 0⟩, ⟨2, 1, .rw, 1⟩, ⟨3, 1, .rw, 1⟩, ⟨4, 1, .rw, 1⟩, ⟨5, 1, .rw, 0⟩]⟩]

/-- Every register row of the control address space (Table 17.7). -/
def ctlRows : List RegRow :=
  ctlRowsHub ++ ctlRowsCrs ++ ctlRowsShr ++ ctlRowsXcn ++ ctlRowsSpr ++ ctlRowsWit ++ ctlRowsMmu ++ ctlRowsDma ++ ctlRowsMem ++ ctlRowsSyn ++ ctlRowsLnk ++ ctlRowsHst ++ ctlRowsRng ++ ctlRowsRst ++ ctlRowsSec ++ ctlRowsTal ++ ctlRowsDst ++ ctlRowsClk

/-- Every register row of the agent block (Table 2.3). -/
def agentRows : List RegRow :=
  agentRowsQag

/-- Every register row of the tile block (Table 17.7). -/
def tileRows : List RegRow :=
  tileRowsTle

end Sys2Proof.Machine
end

