-- ==== Sys2Proof/Syntax.lean ====
section
/-! DEFINITION. The commands of the block: one constructor per row of the opcode table, with the operands that the
row's rule gives it. A number that the spec gives a width keeps it; an index into a fixed number of like things is a
`Fin`; lengths, counts and times are natural numbers. -/

namespace Sys2Proof

/-- Who makes memory accesses of its own (R252, R256): a tile's direct transfer in flight, a tile's DESC transfer in
flight, each by its place in the tile's list, or a DMA channel. -/
inductive Requester where
  | move (tile index : Nat)
  | desc (tile index : Nat)
  | chan (n : Nat)
deriving DecidableEq, Repr

/-- Where a word fails its parity or ECC (R134, R136): at a physical address (memory and tile stores); in the buffers, accumulators and queues of a
tile, under an instruction of the class with this code (Table 6.13); in a queued witness record; or in the memory of an engine, by the unit of
the reset controller it belongs to (the Shard Directory to 0x80, the sync unit and other engines to the chip). -/
inductive UePlace where
  | phys (pa : Nat)
  | tile (n cls : Nat)
  | record (i : Nat)
  | engine (unit : Nat)
deriving DecidableEq, Repr

/-- A message of the Quoin link as it arrives (Table 2.32): the path (true: the sideband), VER, STATUS, EPOCH, POSITION,
SEQ, the FLAGS bits, and the fields of the header, with its payload. TYPE is the command's. -/
structure QMsg where
  sb : Bool := false
  ver : Byte := 1
  status : BitVec 4 := 0
  epoch : W32
  position : W32
  seq : W32
  last : Bool := true
  sig : Bool := false
  chk : Bool := false
  sigIdx : BitVec 16 := 0
  pkts : W32 := 1
  sigInc : W32 := 0
  tag : W32
  arg : W64
  check : W64 := 0
  data : List Byte
deriving DecidableEq, Repr

/-- A peer message as it arrives, decrypted (Table 10.5): the receiver's number of the session, and the fields of the
header, with its payload. TYPE, and for a NOTICE its code, is the command's. -/
structure PMsg where
  session : BitVec 14
  ver : Byte := 1
  status : BitVec 4 := 0
  epoch : W32
  seq : W32
  last : Bool := true
  sig : Bool := false
  chk : Bool := false
  sigIdx : BitVec 16 := 0
  pkts : W32 := 1
  sigInc : W32 := 0
  tag : W32
  arg : W64
  check : W64 := 0
  data : List Byte
deriving DecidableEq, Repr

/-- A NOTICE as it arrives, decrypted (Tables 10.5 and 10.7), from the Ozmund at the address `src` over its session, or
from this Ozmund itself. The notice code is the command's. -/
structure NMsg where
  src : BitVec 22
  ver : Byte := 1
  epoch : W32
  seq : W32
  chk : Bool := false
  check : W64 := 0
  arg : W64 := 0
  data : List Byte
deriving DecidableEq, Repr

/-- What the far end of an optical port states in its TRAIN flits (R297): an agent its slot and QAG_ID, an Ozmund its address
and the port number, a fabric peer its position and fabric port; or the port finds itself looped back (R298). -/
inductive FarEnd where
  | agent (slot : Nat) (id : W64)
  | ozmund (addr : BitVec 22) (port : Nat)
  | fabric (pos : W32) (fport : Nat)
  | loopback
deriving DecidableEq, Repr

/-- The answer of the crossconnect to READ_MAP (Table 11.8): map, detour, park and state bytes. -/
structure XMap where
  map : Byte
  detour : Byte
  park : Byte
  state : Byte
deriving DecidableEq, Repr

/-- What stands in the connector of a DDR5 channel (Table 9.5, R239): MRDIMM or RDIMM, MT/s, GB, with ECC, and whether it trains. -/
structure Dimm where
  mr : Bool
  mts : BitVec 16
  gb : BitVec 10
  ecc : Bool
  trains : Bool
deriving DecidableEq, Repr

/-- A command of the Setout protocol as the command processor takes it, in order and whole (Tables 12.4 and 12.5, R329): the slot of its
session, and the fields of the header of the transfer's FIRST packet, with the payload of the transfer. TYPE is the command's. -/
structure HMsg where
  slot : Fin 16
  ver : Byte := 1
  epoch : W32 := 0
  seq : W32
  target : W64 := 0
  arg : W64 := 0
  data : List Byte := []
deriving DecidableEq, Repr

/-- An Ethernet frame with an IP datagram (R316, R317): the port on which it arrives, its sender, and what decides whether it is taken. -/
structure Ether where
  port : Bool
  addr : BitVec 128
  udp : BitVec 16 := 0
  /-- Its length, the VLAN identifier of its 802.1Q tag, whether it is IPv6, and no fragment, IP option or extension header. -/
  len : Nat := 0
  tag : Option (BitVec 12) := none
  v6 : Bool := false
  whole : Bool := true
  /-- The address and UDP port it is sent to, and whether its UDP checksum is right; none for a checksum of zero. -/
  dst : BitVec 128 := 0
  port2 : BitVec 16 := 41696
  sum : Option Bool := some true
deriving DecidableEq, Repr

/-- What TYPE a message at an agent has that is none of its other requests (Table 2.31, R65): REG_RD, a reserved code, or a type that only
an agent sends. -/
inductive AgentType where
  | regRd | reserved | agentOnly
deriving DecidableEq, Repr

/-- Whose register is written: one of the Ozmund's, or one of its agent's by the accelerator in a slot (R35). -/
inductive RegSide where
  | ozmund
  | host (n : Slot)
deriving DecidableEq, Repr

/-- The commands (spec/opcode_table.json, one constructor per row). -/
inductive Instr where
  /-- CUT_RECEIVED (R78): slot, message -/
  | cutReceived (n : Slot) (m : QMsg)
  /-- CONTEXT (R42): slot, message -/
  | context (n : Slot) (m : QMsg)
  /-- DRAIN_DATA (R79): slot, message -/
  | drainData (n : Slot) (m : QMsg)
  /-- GRANULE_STORED (R79): slot, granule in table order -/
  | granuleStored (n : Slot) (g : Nat)
  /-- DIRTY_MAP (R78): slot, message -/
  | dirtyMap (n : Slot) (m : QMsg)
  /-- COURSE_DONE (R74): slot, message -/
  | courseDone (n : Slot) (m : QMsg)
  /-- ABANDON (R74): slot, message -/
  | abandon (n : Slot) (m : QMsg)
  /-- HEALTH (R59): slot, message -/
  | health (n : Slot) (m : QMsg)
  /-- FENCE_DONE (R104): slot, message -/
  | fenceDone (n : Slot) (m : QMsg)
  /-- WIT_SAMPLE (R144): slot, message -/
  | witSample (n : Slot) (m : QMsg)
  /-- SLOT_FENCE_TIMEOUT (R104): slot -/
  | slotFenceTimeout (n : Slot)
  /-- COURSE_OPEN (R75): notice -/
  | courseOpen (m : NMsg)
  /-- COURSE_DECIDE (R73): notice -/
  | courseDecide (m : NMsg)
  /-- EARLY_REQ (R77): notice -/
  | earlyReq (m : NMsg)
  /-- VOTE (R89): notice -/
  | vote (m : NMsg)
  /-- GROUP_DIGEST (R82): notice -/
  | groupDigest (m : NMsg)
  /-- MIRROR_ACK (R88): notice -/
  | mirrorAck (m : NMsg)
  /-- DIRTY_REQ_REPEAT (R78): slot -/
  | dirtyReqRepeat (n : Slot)
  /-- DRAIN_REQ_TIMEOUT (R78): slot, SEQ of the request -/
  | drainReqTimeout (n : Slot) (seq : W32)
  /-- DRAIN_PROGRESS_TIMEOUT (R42): slot -/
  | drainProgressTimeout (n : Slot)
  /-- DECISION_REC (R91): notice -/
  | decisionRec (m : NMsg)
  /-- DECISION_ACK (R91): notice -/
  | decisionAck (m : NMsg)
  /-- LOST_REPORT (R90): notice -/
  | lostReport (m : NMsg)
  /-- SHORE_NOTICE (R106): notice -/
  | shoreNotice (m : NMsg)
  /-- REWIND_PLAN (R109): notice -/
  | rewindPlan (m : NMsg)
  /-- REWOUND (R111): notice -/
  | rewound (m : NMsg)
  /-- ADMIT_ORDER (R111): notice -/
  | admitOrder (m : NMsg)
  /-- REPOINT_REQUEST (R123): receiving position, step, SEQ24, attempt -/
  | repointRequest (receiver : W32) (step : W64) (seq : BitVec 24) (attempt : BitVec 2) (addr : W64) (bytes : List Byte)
  /-- WITNESS_COMPARE (R145): what each recompute on a tile that errs gives -/
  | witnessCompare (wrong : List (Option (List Byte)))
  /-- DIVERGE_NOTICE (R142): position, step -/
  | divergeNotice (pos : W32) (step : W64)
  /-- PROT_FAULT (R255): requester held on the fault -/
  | protFault (r : Requester)
  /-- WATCH_TIMEOUT (R280): watch -/
  | watchTimeout (n : BitVec 12)
  /-- DATA (R283): peer -/
  | peerData (m : PMsg)
  /-- FAB_WRITE (R303): port, packet, FLAGS bit 3 -/
  | fabWrite (p : Fin 24) (m : QMsg) (mark : Bool)
  /-- FAB_SIGNAL (R303): port, packet -/
  | fabSignal (p : Fin 24) (m : QMsg)
  /-- FAB_READ (R303): port, packet -/
  | fabRead (p : Fin 24) (m : QMsg)
  /-- FAB_RESP (R303): port, packet -/
  | fabResp (p : Fin 24) (m : QMsg)
  /-- CLOSE (R325): the command -/
  | hostClose (m : HMsg)
  /-- REG_RD (R333): the command -/
  | regRd (m : HMsg)
  /-- REG_WR (R333): the command -/
  | regWr (m : HMsg)
  /-- AGENT_RD (R333): the command -/
  | agentRd (m : HMsg)
  /-- AGENT_WR (R333): the command -/
  | agentWr (m : HMsg)
  /-- MEM_RD (R334): the command -/
  | memRd (m : HMsg)
  /-- MEM_WR (R334): the command -/
  | memWr (m : HMsg)
  /-- PKG_PUT (R336): the command -/
  | pkgPut (m : HMsg)
  /-- PROG_LOAD (R334): the command -/
  | progLoad (m : HMsg)
  /-- MODE (R23): the command -/
  | modeCommand (m : HMsg)
  /-- JOB_ADMIT (R336): the command -/
  | jobAdmit (m : HMsg)
  /-- TEARDOWN (R354): the command -/
  | teardown (m : HMsg)
  /-- GUEST_ADMIT (R244): the command -/
  | guestAdmit (m : HMsg)
  /-- GUEST_END (R332): the command -/
  | guestEnd (m : HMsg)
  /-- COURSE_CMD_OPEN (R77): the command -/
  | courseCmdOpen (m : HMsg)
  /-- COURSE_CMD_ABANDON (R73): the command -/
  | courseCmdAbandon (m : HMsg)
  /-- COURSE_CMD_ROOT (R93): the command -/
  | courseCmdRoot (m : HMsg)
  /-- COURSE_CMD_QUERY (R332): the command -/
  | courseCmdQuery (m : HMsg)
  /-- SHORE_DECLARE (R103): the command -/
  | shoreDeclare (m : HMsg)
  /-- SHORE_HANDBACK (R125): the command -/
  | shoreHandback (m : HMsg)
  /-- LOG_RD_CIRCULATING (R418): the command -/
  | logRdCirculating (m : HMsg)
  /-- LOG_RD_FOUNDATION (R418): the command -/
  | logRdFoundation (m : HMsg)
  /-- LOG_RD_LIVE (R419): the command -/
  | logRdLive (m : HMsg)
  /-- TALLY_RD (R408): the command -/
  | tallyRd (m : HMsg)
  /-- DUMP_COMMAND (R286): the command -/
  | dumpCommand (m : HMsg)
  /-- DUMP_COMMAND_AGENT (R57): the command -/
  | dumpCommandAgent (m : HMsg)
  /-- HALT_COMMAND (R409): the command -/
  | haltCommand (m : HMsg)
  /-- HALT_RELEASE_COMMAND (R409): the command -/
  | haltReleaseCommand (m : HMsg)
  /-- SCAN (R413): the command -/
  | scan (m : HMsg)
  /-- AUTHZ_CHANGE (R394): the command -/
  | authzChange (m : HMsg)
  /-- AUTHZ_RESET (R398): the command -/
  | authzReset (m : HMsg)
  /-- FW_PUT (R389): the command -/
  | fwPut (m : HMsg)
  /-- FW_ACCEPT (R389): the command -/
  | fwAccept (m : HMsg)
  /-- ATTEST (R399): the command -/
  | attest (m : HMsg)
  /-- FAR_ACK (R83): notice -/
  | farAck (m : NMsg)
  /-- START (R350): notice -/
  | startJob (m : NMsg)
  /-- START_ABORT (R353): notice -/
  | startAbort (m : NMsg)
  /-- JOIN (R358): notice -/
  | join (m : NMsg)
  /-- MEMBER_MAP (R358): notice -/
  | memberMap (m : NMsg)
  /-- OZ_PWROK_RISE (R434): straps; HBM4 stacks that train; what stands in the DDR5 channels, from channel 0 -/
  | ozPwrokRise (rack : BitVec 16) (tray : BitVec 4) (enrolN : Bool) (hbm : W32) (dimms : List (Option Dimm))
  /-- OZ_PWROK_FALL (R435) -/
  | ozPwrokFall
  /-- BOOT_RUN (R386): whether the flash can be read -/
  | bootRun (readable : Bool)
  /-- SHARD_VERIFY_DONE (R374) -/
  | shardVerifyDone
  /-- RECOVERY (R388): frame -/
  | recovery (f : List Byte)
  /-- RECOVERY_PARTNER_TIMEOUT (R388) -/
  | recoveryPartnerTimeout
  /-- WORKING_KEY_ROLL (R382) -/
  | workingKeyRoll
  /-- POST_AUTOSTART (R32) -/
  | postAutostart
  /-- HUB_POST_GO (R32): value written -/
  | hubPostGo (v : W64)
  /-- POST_END (R32): code of the first item that failed, 0 for none -/
  | postEnd (firstFail : Fin 9)
  /-- ROLE_TRIGGER_DEQUEUE (R24) -/
  | roleTriggerDequeue
  /-- BANKED_WAKE_DONE (R376) -/
  | bankedWakeDone
  /-- AGENT_RESET (R34): slot -/
  | agentReset (n : Slot)
  /-- AGENT_SELFTEST_DONE (R34): slot, result -/
  | agentSelftestDone (n : Slot) (pass : Bool)
  /-- AGENT_TRAY_TRAINED (R34): slot -/
  | agentTrayTrained (n : Slot)
  /-- AGENT_TRAY_LOST (R34): slot -/
  | agentTrayLost (n : Slot)
  /-- BIND (R34): slot, message -/
  | bind (n : Slot) (m : QMsg)
  /-- RELEASE (R34): slot, message -/
  | release (n : Slot) (m : QMsg)
  /-- LOAD (R37): slot, message -/
  | load (n : Slot) (m : QMsg)
  /-- ADMIT (R51): slot, message -/
  | quoinAdmit (n : Slot) (m : QMsg)
  /-- QUOIN_REG_RD (R65): slot, message, and whether its TYPE is REG_RD, a reserved code, or one that only an agent sends -/
  | quoinRegRd (n : Slot) (m : QMsg) (ty : AgentType)
  /-- QUOIN_REG_WR (R65): slot, message -/
  | quoinRegWr (n : Slot) (m : QMsg)
  /-- COURSE_ARM (R41): slot, message -/
  | courseArm (n : Slot) (m : QMsg)
  /-- MARK_REQ (R52): slot, message -/
  | markReq (n : Slot) (m : QMsg)
  /-- DRAIN_REQ (R64): slot, message -/
  | drainReq (n : Slot) (m : QMsg)
  /-- DRAIN_ACK (R44): slot, message -/
  | drainAck (n : Slot) (m : QMsg)
  /-- AGENT_ABANDON (R44): slot, message -/
  | agentAbandon (n : Slot) (m : QMsg)
  /-- COMMIT_NOTE (R47): slot, message -/
  | commitNote (n : Slot) (m : QMsg)
  /-- DIRTY_REQ (R47): slot, message -/
  | dirtyReq (n : Slot) (m : QMsg)
  /-- MKEY (R51): slot, message -/
  | mkey (n : Slot) (m : QMsg)
  /-- WIT_KEY (R141): slot, message -/
  | witKey (n : Slot) (m : QMsg)
  /-- QUOIN_SIGNAL (R63): slot, message -/
  | quoinSignal (n : Slot) (m : QMsg)
  /-- COUNTER_SET (R56): slot, message -/
  | counterSet (n : Slot) (m : QMsg)
  /-- DUMP_REQ (R57): slot, message -/
  | dumpReq (n : Slot) (m : QMsg)
  /-- FENCE (R57): slot, message -/
  | fence (n : Slot) (m : QMsg)
  /-- UNFENCE (R34): slot, message -/
  | unfence (n : Slot) (m : QMsg)
  /-- CONTEXT_RESP (R42): slot, message -/
  | contextResp (n : Slot) (m : QMsg)
  /-- CONTEXT_RETRY_TIMEOUT (R42): slot -/
  | contextRetryTimeout (n : Slot)
  /-- QAG_STEP_WRITE (R40): slot, value written -/
  | qagStepWrite (n : Slot) (v : W64)
  /-- QAG_KICK (R58): slot -/
  | qagKick (n : Slot)
  /-- QAG_FATAL (R57): slot, reason code -/
  | qagFatal (n : Slot) (code : BitVec 16)
  /-- QAG_FENCE_REQ (R57): slot -/
  | qagFenceReq (n : Slot)
  /-- QAG_QUIET (R57): slot -/
  | qagQuiet (n : Slot)
  /-- FENCE_QUIET_TIMEOUT (R57): slot -/
  | fenceQuietTimeout (n : Slot)
  /-- QAG_CNT_ADD (R56): slot, value written -/
  | qagCntAdd (n : Slot) (v : W64)
  /-- QAG_WIT_PUSH (R55): slot, value written -/
  | qagWitPush (n : Slot) (v : W64)
  /-- HOST_STATE_WRITE (R44): slot, host address, bytes -/
  | hostStateWrite (n : Slot) (addr : W64) (bs : List Byte)
  /-- COW_COPY_DONE (R44): slot, granule -/
  | cowCopyDone (n : Slot) (g : Nat)
  /-- HELD_WRITE_RELEASE (R46): slot, place among the held writes -/
  | heldWriteRelease (n : Slot) (k : Nat)
  /-- STALL_ABANDON (R46): slot -/
  | stallAbandon (n : Slot)
  /-- BLOCK_CONSUME (R49): slot, host address -/
  | blockConsume (n : Slot) (addr : W64)
  /-- CONTRIBUTION_RECEIVE (R51): slot, sender, SEQ24, key slot bit, mark, message -/
  | contributionReceive (n : Slot) (pos : W32) (seq24 : BitVec 24) (slot : Fin 2) (mark : BitVec 128) (bs : List Byte)
  /-- HEARTBEAT_TICK (R58): slot -/
  | heartbeatTick (n : Slot)
  /-- HEALTH_TICK (R59): slot -/
  | healthTick (n : Slot)
  /-- HALT_N_LOW (R61): slot -/
  | haltNLow (n : Slot)
  /-- HALT_N_HIGH (R61): slot -/
  | haltNHigh (n : Slot)
  /-- HELLO (R431): slot, message -/
  | hello (n : Slot) (m : QMsg)
  /-- QUOIN_RESP (R64): slot, message -/
  | quoinResp (n : Slot) (m : QMsg)
  /-- HEARTBEAT (R103): slot, message -/
  | heartbeat (n : Slot) (m : QMsg)
  /-- HEARTBEAT_DEADLINE (R103): slot -/
  | heartbeatDeadline (n : Slot)
  /-- FATAL (R103): slot, message -/
  | fatal (n : Slot) (m : QMsg)
  /-- DUMP (R286): slot, message -/
  | dump (n : Slot) (m : QMsg)
  /-- SLOT_PGOOD_FALL (R103): slot -/
  | slotPgoodFall (n : Slot)
  /-- SLOT_PGOOD_RISE (R362): slot -/
  | slotPgoodRise (n : Slot)
  /-- GUEST_SPILL_DONE (R266) -/
  | guestSpillDone
  /-- COURSE_QUERY (R71): notice -/
  | courseQuery (m : NMsg)
  /-- DRAIN_COMPLETE (R87) -/
  | drainComplete
  /-- ROOT_SILENT_TIMEOUT (R93) -/
  | rootSilentTimeout
  /-- CRS_CTRL_OPEN (R77): value written -/
  | crsCtrlOpen (v : W64)
  /-- CRS_CTRL_ABANDON (R73): value written -/
  | crsCtrlAbandon (v : W64)
  /-- CRS_CTRL_EN_CLEAR (R73): value written -/
  | crsCtrlEnClear (v : W64)
  /-- DECIDE_WINDOW_END (R106) -/
  | decideWindowEnd
  /-- REWIND_TIMEOUT (R112) -/
  | rewindTimeout
  /-- FLIGHT_WAIT_END (R110) -/
  | flightWaitEnd
  /-- PROMOTION_START (R116) -/
  | promotionStart
  /-- PROMOTION_DONE (R117) -/
  | promotionDone
  /-- SHR_CTRL_DECLARE (R103): value written -/
  | shrCtrlDeclare (v : W64)
  /-- SHR_CTRL_HANDBACK (R125): value written -/
  | shrCtrlHandback (v : W64)
  /-- HANDBACK_PGOOD_TIMEOUT (R125) -/
  | handbackPgoodTimeout
  /-- HANDBACK_HELLO_TIMEOUT (R125) -/
  | handbackHelloTimeout
  /-- HANDBACK_PASS_DONE (R125) -/
  | handbackPassDone
  /-- XCN_CTRL_GO (R310): value written -/
  | xcnCtrlGo (v : W64)
  /-- XCN_DETOUR_GO (R301): value written -/
  | xcnDetourGo (v : W64)
  /-- XCN_QUEUED_START (R311) -/
  | xcnQueuedStart
  /-- XCN_STATUS_FALL (R310): answer to READ_MAP, answers that failed their CRC -/
  | xcnStatusFall (m : XMap) (bad : Fin 5)
  /-- XCN_MOVE_TIMEOUT (R310) -/
  | xcnMoveTimeout
  /-- XCN_PWR_EN_WRITE (R312): value written -/
  | xcnPwrEnWrite (v : W64)
  /-- XCN_PGOOD_RISE (R312): both frames were answered, answer to READ_MAP -/
  | xcnPgoodRise (read : Bool) (m : XMap)
  /-- XCN_PGOOD_FALL (R312) -/
  | xcnPgoodFall
  /-- WIT_GATE_TIMEOUT (R146) -/
  | witGateTimeout
  /-- SEED (R139): notice -/
  | seed (m : NMsg)
  /-- TILE_EN_WRITE (R229): tile, value written -/
  | tileEnWrite (t : TileId) (v : W64)
  /-- TILE_STOP (R180): tile, value written -/
  | tileStop (t : TileId) (v : W64)
  /-- TILE_STOP_DONE (R180): tile -/
  | tileStopDone (t : TileId)
  /-- TLE_ERR_VALID_CLEAR (R182): tile, value written -/
  | tleErrValidClear (t : TileId) (v : W64)
  /-- GANG_CHANGE_APPLY (R159): tile -/
  | gangChangeApply (t : TileId)
  /-- WAIT_LIMIT_EXPIRE (R217): tile, queue (none: the front end) -/
  | waitLimitExpire (t : TileId) (q : Option (Fin 4))
  /-- WAIT_SATISFIED (R270): tile, queue (none: the front end) -/
  | waitSatisfied (t : TileId) (q : Option (Fin 4))
  /-- PASS (R157): tile, instruction words -/
  | pass (t : TileId) (w0 w1 : W64)
  /-- PASS_COMPLETE (R163): tile, gang -/
  | passComplete (t : TileId) (g : Fin 4)
  /-- VX_ADD (R188): tile, instruction words -/
  | vxAdd (t : TileId) (w0 w1 : W64)
  /-- VX_SUB (R188): tile, instruction words -/
  | vxSub (t : TileId) (w0 w1 : W64)
  /-- VX_MUL (R188): tile, instruction words -/
  | vxMul (t : TileId) (w0 w1 : W64)
  /-- FMA (R188): tile, instruction words -/
  | vxFma (t : TileId) (w0 w1 : W64)
  /-- DIV (R188): tile, instruction words -/
  | vxDiv (t : TileId) (w0 w1 : W64)
  /-- SQRT (R188): tile, instruction words -/
  | vxSqrt (t : TileId) (w0 w1 : W64)
  /-- RSQRT (R188): tile, instruction words -/
  | vxRsqrt (t : TileId) (w0 w1 : W64)
  /-- EXP (R188): tile, instruction words -/
  | vxExp (t : TileId) (w0 w1 : W64)
  /-- EXP2 (R188): tile, instruction words -/
  | vxExp2 (t : TileId) (w0 w1 : W64)
  /-- LOG (R188): tile, instruction words -/
  | vxLog (t : TileId) (w0 w1 : W64)
  /-- LOG2 (R188): tile, instruction words -/
  | vxLog2 (t : TileId) (w0 w1 : W64)
  /-- TANH (R188): tile, instruction words -/
  | vxTanh (t : TileId) (w0 w1 : W64)
  /-- SIGMOID (R188): tile, instruction words -/
  | vxSigmoid (t : TileId) (w0 w1 : W64)
  /-- VX_MIN (R189): tile, instruction words -/
  | vxMin (t : TileId) (w0 w1 : W64)
  /-- VX_MAX (R189): tile, instruction words -/
  | vxMax (t : TileId) (w0 w1 : W64)
  /-- ABS (R188): tile, instruction words -/
  | vxAbs (t : TileId) (w0 w1 : W64)
  /-- NEG (R188): tile, instruction words -/
  | vxNeg (t : TileId) (w0 w1 : W64)
  /-- CMP_EQ (R189): tile, instruction words -/
  | cmpEq (t : TileId) (w0 w1 : W64)
  /-- CMP_LT (R189): tile, instruction words -/
  | cmpLt (t : TileId) (w0 w1 : W64)
  /-- CMP_LE (R189): tile, instruction words -/
  | cmpLe (t : TileId) (w0 w1 : W64)
  /-- CMP_UN (R189): tile, instruction words -/
  | cmpUn (t : TileId) (w0 w1 : W64)
  /-- SEL (R186): tile, instruction words -/
  | vxSel (t : TileId) (w0 w1 : W64)
  /-- IADD (R186): tile, instruction words -/
  | iadd (t : TileId) (w0 w1 : W64)
  /-- ISUB (R186): tile, instruction words -/
  | isub (t : TileId) (w0 w1 : W64)
  /-- IMUL (R186): tile, instruction words -/
  | imul (t : TileId) (w0 w1 : W64)
  /-- IMIN (R186): tile, instruction words -/
  | imin (t : TileId) (w0 w1 : W64)
  /-- IMAX (R186): tile, instruction words -/
  | imax (t : TileId) (w0 w1 : W64)
  /-- VX_AND (R186): tile, instruction words -/
  | vxAnd (t : TileId) (w0 w1 : W64)
  /-- VX_OR (R186): tile, instruction words -/
  | vxOr (t : TileId) (w0 w1 : W64)
  /-- VX_XOR (R186): tile, instruction words -/
  | vxXor (t : TileId) (w0 w1 : W64)
  /-- VX_SHL (R189): tile, instruction words -/
  | vxShl (t : TileId) (w0 w1 : W64)
  /-- VX_SHR (R189): tile, instruction words -/
  | vxShr (t : TileId) (w0 w1 : W64)
  /-- VX_SAR (R189): tile, instruction words -/
  | vxSar (t : TileId) (w0 w1 : W64)
  /-- I2F (R189): tile, instruction words -/
  | i2f (t : TileId) (w0 w1 : W64)
  /-- F2I (R189): tile, instruction words -/
  | f2i (t : TileId) (w0 w1 : W64)
  /-- CVT (R190): tile, instruction words -/
  | cvt (t : TileId) (w0 w1 : W64)
  /-- VX_MOV (R187): tile, instruction words -/
  | vxMov (t : TileId) (w0 w1 : W64)
  /-- BCAST_ROW (R187): tile, instruction words -/
  | bcastRow (t : TileId) (w0 w1 : W64)
  /-- BCAST_COLUMN (R187): tile, instruction words -/
  | bcastColumn (t : TileId) (w0 w1 : W64)
  /-- TRANS (R187): tile, instruction words -/
  | trans (t : TileId) (w0 w1 : W64)
  /-- RAND_RAW (R196): tile, instruction words -/
  | randRaw (t : TileId) (w0 w1 : W64)
  /-- RAND_UNIF (R196): tile, instruction words -/
  | randUnif (t : TileId) (w0 w1 : W64)
  /-- VX_LD (R187): tile, instruction words -/
  | vxLd (t : TileId) (w0 w1 : W64)
  /-- VX_ST (R187): tile, instruction words -/
  | vxSt (t : TileId) (w0 w1 : W64)
  /-- REDUCE_SUM (R199): tile, instruction words -/
  | reduceSum (t : TileId) (w0 w1 : W64)
  /-- REDUCE_MAX (R199): tile, instruction words -/
  | reduceMax (t : TileId) (w0 w1 : W64)
  /-- REDUCE_MIN (R199): tile, instruction words -/
  | reduceMin (t : TileId) (w0 w1 : W64)
  /-- COPY (R213): tile, instruction words -/
  | mvCopy (t : TileId) (w0 w1 : W64)
  /-- GET (R213): tile, instruction words -/
  | mvGet (t : TileId) (w0 w1 : W64)
  /-- PUT (R213): tile, instruction words -/
  | mvPut (t : TileId) (w0 w1 : W64)
  /-- XPUT (R213): tile, instruction words -/
  | mvXput (t : TileId) (w0 w1 : W64)
  /-- DESC (R214): tile, instruction words -/
  | mvDesc (t : TileId) (w0 w1 : W64)
  /-- MV_TRANSFER_COMPLETE (R213): tile, place in its list of transfers -/
  | mvTransferComplete (t : TileId) (k : Nat)
  /-- WAIT (R216): tile, instruction words -/
  | syWait (t : TileId) (w0 w1 : W64)
  /-- SY_SIGNAL (R216): tile, instruction words -/
  | sySignal (t : TileId) (w0 w1 : W64)
  /-- RWAIT (R272): tile, instruction words -/
  | rwait (t : TileId) (w0 w1 : W64)
  /-- RSIGNAL (R272): tile, instruction words -/
  | rsignal (t : TileId) (w0 w1 : W64)
  /-- DRAIN (R210): tile, instruction words -/
  | syDrain (t : TileId) (w0 w1 : W64)
  /-- CT_ADD (R205): tile, instruction words -/
  | ctAdd (t : TileId) (w0 w1 : W64)
  /-- CT_SUB (R205): tile, instruction words -/
  | ctSub (t : TileId) (w0 w1 : W64)
  /-- CT_MUL (R205): tile, instruction words -/
  | ctMul (t : TileId) (w0 w1 : W64)
  /-- CT_AND (R205): tile, instruction words -/
  | ctAnd (t : TileId) (w0 w1 : W64)
  /-- CT_OR (R205): tile, instruction words -/
  | ctOr (t : TileId) (w0 w1 : W64)
  /-- CT_XOR (R205): tile, instruction words -/
  | ctXor (t : TileId) (w0 w1 : W64)
  /-- CT_SHL (R205): tile, instruction words -/
  | ctShl (t : TileId) (w0 w1 : W64)
  /-- CT_SHR (R205): tile, instruction words -/
  | ctShr (t : TileId) (w0 w1 : W64)
  /-- CT_SAR (R205): tile, instruction words -/
  | ctSar (t : TileId) (w0 w1 : W64)
  /-- CT_SLT (R205): tile, instruction words -/
  | ctSlt (t : TileId) (w0 w1 : W64)
  /-- CT_SLTU (R205): tile, instruction words -/
  | ctSltu (t : TileId) (w0 w1 : W64)
  /-- CT_MIN (R205): tile, instruction words -/
  | ctMin (t : TileId) (w0 w1 : W64)
  /-- CT_MAX (R205): tile, instruction words -/
  | ctMax (t : TileId) (w0 w1 : W64)
  /-- CT_MOV (R205): tile, instruction words -/
  | ctMov (t : TileId) (w0 w1 : W64)
  /-- ADDR_FROM_S (R206): tile, instruction words -/
  | addrFromS (t : TileId) (w0 w1 : W64)
  /-- ADDR_TO_S (R206): tile, instruction words -/
  | addrToS (t : TileId) (w0 w1 : W64)
  /-- ADDR_ADD (R206): tile, instruction words -/
  | addrAdd (t : TileId) (w0 w1 : W64)
  /-- ADDR_BASE_ADD (R206): tile, instruction words -/
  | addrBaseAdd (t : TileId) (w0 w1 : W64)
  /-- ADDR_STRIDE_SET (R206): tile, instruction words -/
  | addrStrideSet (t : TileId) (w0 w1 : W64)
  /-- JMP (R218): tile, instruction words -/
  | jmp (t : TileId) (w0 w1 : W64)
  /-- BEQ (R218): tile, instruction words -/
  | beq (t : TileId) (w0 w1 : W64)
  /-- BNE (R218): tile, instruction words -/
  | bne (t : TileId) (w0 w1 : W64)
  /-- BLT (R218): tile, instruction words -/
  | blt (t : TileId) (w0 w1 : W64)
  /-- BGE (R218): tile, instruction words -/
  | bge (t : TileId) (w0 w1 : W64)
  /-- BLTU (R218): tile, instruction words -/
  | bltu (t : TileId) (w0 w1 : W64)
  /-- BGEU (R218): tile, instruction words -/
  | bgeu (t : TileId) (w0 w1 : W64)
  /-- LOOP (R218): tile, instruction words -/
  | ctLoop (t : TileId) (w0 w1 : W64)
  /-- BP (R218): tile, instruction words -/
  | bp (t : TileId) (w0 w1 : W64)
  /-- PSET (R218): tile, instruction words -/
  | pset (t : TileId) (w0 w1 : W64)
  /-- PGET (R218): tile, instruction words -/
  | pget (t : TileId) (w0 w1 : W64)
  /-- PAND (R218): tile, instruction words -/
  | pand (t : TileId) (w0 w1 : W64)
  /-- POR (R218): tile, instruction words -/
  | por (t : TileId) (w0 w1 : W64)
  /-- PXOR (R218): tile, instruction words -/
  | pxor (t : TileId) (w0 w1 : W64)
  /-- PNOT (R218): tile, instruction words -/
  | pnot (t : TileId) (w0 w1 : W64)
  /-- CT_LD (R219): tile, instruction words -/
  | ctLd (t : TileId) (w0 w1 : W64)
  /-- CT_ST (R219): tile, instruction words -/
  | ctSt (t : TileId) (w0 w1 : W64)
  /-- NOP (R207): tile, instruction words -/
  | ctNop (t : TileId) (w0 w1 : W64)
  /-- END (R231): tile, instruction words -/
  | endProgram (t : TileId) (w0 w1 : W64)
  /-- BRK (R223): tile, instruction words -/
  | ctBrk (t : TileId) (w0 w1 : W64)
  /-- STEP (R221): tile, instruction words -/
  | ctStep (t : TileId) (w0 w1 : W64)
  /-- CGET (R219): tile, instruction words -/
  | cget (t : TileId) (w0 w1 : W64)
  /-- PHXLD (R220): tile, instruction words -/
  | phxld (t : TileId) (w0 w1 : W64)
  /-- PHXST (R220): tile, instruction words -/
  | phxst (t : TileId) (w0 w1 : W64)
  /-- GANG (R159): tile, instruction words -/
  | ctGang (t : TileId) (w0 w1 : W64)
  /-- CT_TIME (R219): tile, instruction words -/
  | ctTime (t : TileId) (w0 w1 : W64)
  /-- FLAGS (R219): tile, instruction words -/
  | ctFlags (t : TileId) (w0 w1 : W64)
  /-- RANK (R228): tile, instruction words -/
  | ctRank (t : TileId) (w0 w1 : W64)
  /-- MMU_FAULT (R252): requester -/
  | mmuFault (r : Requester)
  /-- MMU_FRESUME_RESUME (R253): value written -/
  | mmuFresumeResume (v : W64)
  /-- MMU_FRESUME_ABORT (R253): value written -/
  | mmuFresumeAbort (v : W64)
  /-- MMU_INV_PAGE (R249): value written -/
  | mmuInvPage (v : W64)
  /-- MMU_INV_CONTEXT (R249): value written -/
  | mmuInvContext (v : W64)
  /-- MMU_INV_ALL (R249): value written -/
  | mmuInvAll (v : W64)
  /-- MMU_INV_COMPLETE (R249) -/
  | mmuInvComplete
  /-- MMU_PART_WRITE (R237): value written -/
  | mmuPartWrite (v : W64)
  /-- DMA_EN_WRITE (R261): channel, value written -/
  | dmaEnWrite (n : ChanId) (v : W64)
  /-- DMA_STOP (R263): channel, value written -/
  | dmaStop (n : ChanId) (v : W64)
  /-- DMA_STOP_DONE (R263): channel -/
  | dmaStopDone (n : ChanId)
  /-- DMA_TAIL_WRITE (R256): channel, value written -/
  | dmaTailWrite (n : ChanId) (v : W64)
  /-- DMA_DESCRIPTOR (R258): requester -/
  | dmaDescriptor (r : Requester)
  /-- DMA_FRAGMENT_DONE (R260): requester -/
  | dmaFragmentDone (r : Requester)
  /-- MEMORY_UE (R134, R136): where, requester, and whether a re-read passes -/
  | memoryUe (place : UePlace) (r : Option Requester) (passes : Bool)
  /-- PATROL_SCRUB (R240): words corrected in HBM, and on each channel -/
  | patrolScrub (hbm : Nat) (ddr : List Nat)
  /-- DIMM_TEMP_READ (R440): temperatures by channel -/
  | dimmTempRead (temps : List (BitVec 16))
  /-- CLEAN_WRITE (R267): context, page -/
  | cleanWrite (ctx : Fin 64) (va : W64)
  /-- GUEST_RESUME (R265): context -/
  | guestResume (ctx : Fin 64)
  /-- SYN_ADD (R269): value written -/
  | synAdd (v : W64)
  /-- SYN_SET (R288): value written -/
  | synSet (v : W64)
  /-- SYN_WIN_WRITE (R273): context, value written -/
  | synWinWrite (n : BitVec 6) (v : W64)
  /-- SYN_BAR_WRITE (R281): entry, value written -/
  | synBarWrite (m : BitVec 10) (v : W64)
  /-- SYN_WARM_GO (R280): value written -/
  | synWarmGo (v : W64)
  /-- WATCH_REQ (R280): peer -/
  | watchReq (m : PMsg)
  /-- WATCH_FIRE (R280): peer -/
  | watchFire (m : PMsg)
  /-- XFER_TIMEOUT (R278) -/
  | xferTimeout
  /-- WINDOW_DRAIN_END (R279) -/
  | windowDrainEnd
  /-- SYN_DUMP_GO (R286): value written -/
  | synDumpGo (v : W64)
  /-- OPEN (R385): peer -/
  | peerOpen (m : PMsg)
  /-- OPEN_ACK (R385): peer -/
  | peerOpenAck (m : PMsg)
  /-- PEER_CLOSE (R282): peer -/
  | peerClose (m : PMsg)
  /-- KEEPALIVE (R284): peer -/
  | keepalive (m : PMsg)
  /-- PEER_SIGNAL (R285): peer -/
  | peerSignal (m : PMsg)
  /-- PEER_RESP (R283): peer -/
  | peerResp (m : PMsg)
  /-- KEEPALIVE_TICK (R284): session -/
  | keepaliveTick (n : BitVec 14)
  /-- SESSION_LOST (R284): session -/
  | sessionLost (n : BitVec 14)
  /-- SESSION_OPEN_TIMEOUT (R282): session -/
  | sessionOpenTimeout (n : BitVec 14)
  /-- FLIT_RECEIVE (R292): port (24 and up: sideband), lane, the 256 bytes -/
  | flitReceive (p : Fin 32) (lane : Fin 8) (flit : List Byte)
  /-- ACK_TIMEOUT (R292): port (24 and up: sideband) -/
  | ackTimeout (p : Fin 32)
  /-- LANE_DROP (R293): port, lane, cause as LNK_n_STAT.CAUSE -/
  | laneDrop (p : Fin 24) (lane : Fin 8) (cause : BitVec 4)
  /-- LANEMAP (R293): port, FSEQ boundary, lanes that the far end holds good -/
  | lanemap (p : Fin 24) (boundary : BitVec 12) (lanes : Byte)
  /-- LANE_RETRAIN_TICK (R293): port -/
  | laneRetrainTick (p : Fin 24)
  /-- LANE_RESTORE (R293): port, lane -/
  | laneRestore (p : Fin 24) (lane : Fin 8)
  /-- PORT_LIGHT_DETECT (R297): port -/
  | portLightDetect (p : Fin 24)
  /-- TRAINING_DONE (R297): port, lanes good at both ends, far end, one-way delay in ticks -/
  | trainingDone (p : Fin 24) (lanes : Byte) (far : FarEnd) (delay : Nat)
  /-- TRAINING_TIMEOUT (R297): port -/
  | trainingTimeout (p : Fin 24)
  /-- PORT_RETRAIN_TICK (R296): port -/
  | portRetrainTick (p : Fin 24)
  /-- TIME_FLIT_TICK (R305): port -/
  | timeFlitTick (p : Fin 24)
  /-- TIME_FLIT (R305): port, the four values -/
  | timeFlit (p : Fin 24) (tTx t1 t2 delay : W64)
  /-- PTP_MESSAGE (R318): offset from the master in ticks, two's complement -/
  | ptpMessage (offset : W32)
  /-- TIME_SOURCE_LOST (R403) -/
  | timeSourceLost
  /-- LOCK_LOSS_TIMEOUT (R403) -/
  | lockLossTimeout
  /-- LNK_TEST_GO (R307): value written -/
  | lnkTestGo (v : W64)
  /-- LINK_TEST_DONE (R307): bit errors -/
  | linkTestDone (errors : W32)
  /-- SETOUT_DATAGRAM (R331): sender and port; the UDP payload -/
  | setoutDatagram (e : Ether) (b : List Byte)
  /-- OPEN_REQ (R323): sender and port; header and payload -/
  | openReq (e : Ether) (b : List Byte)
  /-- HOST_SESSION_OPEN_TIMEOUT (R325): slot of the session -/
  | hostSessionOpenTimeout (n : Fin 16)
  /-- HOST_SESSION_IDLE (R325): slot of the session -/
  | hostSessionIdle (n : Fin 16)
  /-- ACK (R328): slot of the session, ACK, NAK -/
  | hostAck (n : Fin 16) (ack : W32) (nak : Bool)
  /-- ACK_DELAY_TIMER (R328): slot of the session -/
  | ackDelayTimer (n : Fin 16)
  /-- RETRANSMIT_TIMEOUT (R328): slot of the session -/
  | retransmitTimeout (n : Fin 16)
  /-- PACKAGE_COMPLETE (R338) -/
  | packageComplete
  /-- PROPOSAL_EXPIRE (R395) -/
  | proposalExpire
  /-- ENUM (R340): frame -/
  | enum (f : List Byte)
  /-- ROLLCALL (R341): frame -/
  | rollcall (f : List Byte)
  /-- PULSE (R344): frame -/
  | pulse (f : List Byte)
  /-- PULSE_TICK (R344) -/
  | pulseTick
  /-- RING_FRAME_FORWARD (R339): frame -/
  | ringFrameForward (f : List Byte)
  /-- RESET_REQ (R345): frame -/
  | resetReq (f : List Byte)
  /-- PARTNER_LOST (R344) -/
  | partnerLost
  /-- PAIR_HELLO (R342): notice -/
  | pairHello (m : NMsg)
  /-- MIRROR (R456): notice -/
  | mirror (m : NMsg)
  /-- FAR_PUT (R83): notice -/
  | farPut (m : NMsg)
  /-- FAR_RESERVE (R86): notice -/
  | farReserve (m : NMsg)
  /-- RESYNC (R456): notice -/
  | resync (m : NMsg)
  /-- TEARDOWN_NOTE (R355): notice -/
  | teardownNote (m : NMsg)
  /-- PARTNER_SCRUB (R356): notice -/
  | partnerScrub (m : NMsg)
  /-- TREE_CHUNK (R348): notice -/
  | treeChunk (m : NMsg)
  /-- TREE_WANT (R349): notice -/
  | treeWant (m : NMsg)
  /-- TREE_JOIN (R349): notice -/
  | treeJoin (m : NMsg)
  /-- TREE_SILENCE_TIMEOUT (R349) -/
  | treeSilenceTimeout
  /-- STRIPE_MISSING_TIMEOUT (R349) -/
  | stripeMissingTimeout
  /-- SHARD_WANT (R352): notice -/
  | shardWant (m : NMsg)
  /-- SHARD_PUT (R352): notice -/
  | shardPut (m : NMsg)
  /-- MANIFEST_WANT (R358): notice -/
  | manifestWant (m : NMsg)
  /-- READY (R353): notice -/
  | ready (m : NMsg)
  /-- START_TIMEOUT (R353) -/
  | startTimeout
  /-- TEARDOWN_REQ (R354): notice -/
  | teardownReq (m : NMsg)
  /-- TEARDOWN_ORDER (R354): notice -/
  | teardownOrder (m : NMsg)
  /-- SCRUB_COMPLETE (R355) -/
  | scrubComplete
  /-- SCRUB_DONE (R354): notice -/
  | scrubDone (m : NMsg)
  /-- HUB_KEPT_DROP (R357): value written -/
  | hubKeptDrop (v : W64)
  /-- RST_CTRL_GO (R368): value written -/
  | rstCtrlGo (v : W64)
  /-- E3_FENCE_TIMEOUT (R365) -/
  | e3FenceTimeout
  /-- RESET_DRAIN_TIMEOUT (R364): unit -/
  | resetDrainTimeout (unit : Byte)
  /-- E4_POWER_HOLD_END (R362): unit -/
  | e4PowerHoldEnd (unit : Byte)
  /-- TILE_WATCHDOG (R367): tile -/
  | tileWatchdog (t : TileId)
  /-- STOP_WATCHDOG (R367): tile -/
  | stopWatchdog (t : TileId)
  /-- DMA_WATCHDOG (R367): channel -/
  | dmaWatchdog (n : ChanId)
  /-- FAULT_WATCHDOG (R367): requester held on the fault -/
  | faultWatchdog (r : Requester)
  /-- CC_WATCHDOG (R367): core -/
  | ccWatchdog (core : Fin 8)
  /-- RST_KICK (R367): value written -/
  | rstKick (v : W64)
  /-- RST_PWR_WRITE (R371): value written -/
  | rstPwrWrite (v : W64)
  /-- RST_QCLR_SLOT (R370): value written -/
  | rstQclrSlot (v : W64)
  /-- RST_QCLR_XCN (R371): value written -/
  | rstQclrXcn (v : W64)
  /-- TALLY_SAMPLE (R406) -/
  | tallySample
  /-- TAL_HALT_REQ (R409): value written -/
  | talHaltReq (v : W64)
  /-- TAL_HALT_REL (R409): value written -/
  | talHaltRel (v : W64)
  /-- HALT_IN_N_FALL (R409) -/
  | haltInNFall
  /-- HALT_IN_N_RISE (R409) -/
  | haltInNRise
  /-- TAL_TRIG_ARM (R420): trigger, value written -/
  | talTrigArm (n : Fin 8) (v : W64)
  /-- TRIGGER_FIRE (R420): trigger -/
  | triggerFire (n : Fin 8)
  /-- EXTEST (R414): bits shifted in -/
  | extest (din : List Bool)
  /-- IDCODE (R414) -/
  | idcode
  /-- SAMPLE_PRELOAD (R414): bits shifted in -/
  | samplePreload (din : List Bool)
  /-- SCANSEL (R414): bits shifted in -/
  | scansel (v : BitVec 48)
  /-- SCANOUT (R414): bytes shifted out -/
  | scanout (n : Nat)
  /-- HALTREQ (R414): bit shifted in -/
  | haltreq (b : Bool)
  /-- BYPASS (R414): bits shifted in -/
  | bypass (din : List Bool)
  /-- DST_CTRL_NOTE (R417): value written -/
  | dstCtrlNote (v : W64)
  /-- DATESTONE_SECOND_END (R417) -/
  | datestoneSecondEnd
  /-- LIFE_SAVE (R416) -/
  | lifeSave
  /-- THERMAL_SAMPLE (R448): hottest junction and its sensor, hottest HBM4 stack, package input -/
  | thermalSample (hot : BitVec 16) (sensor : BitVec 6) (hbm watts : BitVec 16)
  /-- THROTTLE_UP (R448) -/
  | throttleUp
  /-- THERMAL_CRITICAL (R449) -/
  | thermalCritical
  /-- CRITICAL_RECOVER (R449) -/
  | criticalRecover
  /-- CLK_TCFG_WRITE (R448): value written -/
  | clkTcfgWrite (v : W64)
  /-- REFCLK_LOST (R439) -/
  | refclkLost
  /-- REFCLK_RESTORED (R439) -/
  | refclkRestored
  /-- REGISTER_WRITE (R10): whose register, address or offset, value -/
  | registerWrite (side : RegSide) (a v : W64)
  /-- NEIGHBOUR_SOLICITATION (R317): sender and port, 802.1Q tag, address asked for -/
  | neighbourSolicitation (e : Ether) (vid : Option (BitVec 12)) (target : BitVec 128)
  /-- ARP_REQUEST (R317): sender and port, 802.1Q tag, address asked for -/
  | arpRequest (e : Ether) (vid : Option (BitVec 12)) (target : W32)
  /-- ECHO_REQUEST (R317): sender and port, 802.1Q tag, ICMPv6 or ICMP, address, data -/
  | echoRequest (e : Ether) (vid : Option (BitVec 12)) (v6 : Bool) (target : BitVec 128) (data : List Byte)
  /-- OUTGOING_CONTRIBUTION (R51): slot, SEQ24, message -/
  | outgoingContribution (n : Slot) (seq24 : BitVec 24) (bs : List Byte)
  /-- RESET_REQ_REASSEMBLY_TIMEOUT (R398): sender, identifier -/
  | resetReqReassemblyTimeout (src : BitVec 22) (id : W32)
  /-- TEARDOWN_FENCE_TIMEOUT (R354) -/
  | teardownFenceTimeout
deriving DecidableEq, Repr

end Sys2Proof
end

