-- ==== Sys2Proof/Machine/State.lean ====
section
/-! DEFINITION. The state of one Ozmund and of the eight Quoin agents of its tray, as plain data: every register
(control map, agent blocks, tile blocks) and every piece of state the spec names beside them. A register file, a
memory and a counter file are sparse data in one canonical form. -/

namespace Sys2Proof.Machine

/-- Reasons the machine stops. The spec gives none: what goes wrong is a status, an event or a role (Table 0.5), and the block
goes on. -/
inductive Fault where
deriving DecidableEq, Repr

/-- Reasons the machine has no meaning for a command. -/
inductive Refusal where
  /-- No meaning has been written for the command yet. Raised by `exec`. Safe: the machine stops. -/
  | notModelled (mnemonic : String)
deriving DecidableEq, Repr

/-! ## What leaves the block -/

/-- Where a message, an answer or a signal goes. -/
inductive Dest where
  /-- From the agent of a slot to the Ozmund, over the tray port or the sideband. -/
  | ozmund (slot : Nat)
  /-- From the Ozmund to the agent of a slot. -/
  | agent (slot : Nat)
  /-- From an agent to its accelerator host. -/
  | slotHost (slot : Nat)
  /-- To an Ozmund of the pod, over a peer session. -/
  | peer (addr : Nat)
  /-- To the partner Ozmund, over session 0. -/
  | partner
  /-- To the Ozmund that holds the course root. -/
  | root
  /-- To every member of the job. -/
  | members
  /-- To a host session of the Setout command protocol. -/
  | host (session : Nat)
  /-- An Ethernet frame outside any session. -/
  | ether
  /-- A frame on the management ring. -/
  | ring
  /-- To the control complex's event queue. -/
  | cc
  /-- A land of the package. -/
  | land
  /-- The crossconnect's SPI. -/
  | xcn
  /-- The fabric of the stand-in ports. -/
  | fabric
  /-- The link of an optical port. -/
  | port (n : Nat)
deriving DecidableEq, Repr

/-- The names of what leaves the block: messages of the Quoin link, of peer sessions, of the Setout protocol and of
the management ring, signals on lands, and the records and notices the spec names. -/
inductive Kind where
  | blockFailed | boundaryDrive | contribution | delivered | dimmRefresh | divergeNotice | dmaDone | etherReply
  | fabResp | fabric | flit | haltN | hostHalt | hostResume | hostStop | laneCheck | laneTrain | lanemap | markFailed | mirrorDump
  | mirrorRecord | nak | notice | peerMessage | peerWatch | prbs31 | quoin | repoint | replay | resend | ringFrame
  | setoutPacket | slotPower | slotReset | spiFrame | tdo | thermtrip | timeFlit | train | watchResult | xcnPower
deriving DecidableEq, Repr

/-- One thing the block has sent: where to, what, its fields as numbers in the order its sender's docstring gives, and
its payload. -/
structure Msg where
  dest : Dest
  kind : Kind
  args : List Nat := []
  data : List Byte := []
deriving DecidableEq, Repr

/-! ## The modes of an Ozmund (Tables 1.4, 13.3, 15.4 and 17.1) -/

/-- The roles of Table 1.3. -/
inductive Role where
  | service | watch | shore | guest | banked | quarantine
deriving DecidableEq, Repr

/-- The partner states of Table 13.3. -/
inductive PartnerSt where
  | solo | paired | repairing
deriving DecidableEq, Repr

/-- The firmware states of HUB_ROLE.FW. -/
inductive Fw where
  | boot | run | recovery
deriving DecidableEq, Repr


/-- A role trigger that waits for a transition to end (R24): a fault-driven one, or a host's command and the number of its session. -/
inductive Trigger where
  | quarantine (cause : Nat)
  | shore (slot : Nat)
  | host (c : Instr) (sess : Nat)
deriving DecidableEq, Repr

/-- The mode of the Ozmund: the dimensions of Table 17.1 that no register field holds by itself. -/
structure Mode where
  role : Role := .service
  guestOn : Bool := false
  partner : PartnerSt := .solo
  /-- Spare mode in force: true for COMPAT. -/
  compat : Bool := false
  fw : Fw := .boot
  /-- A role transition is in progress, towards this role (R24). -/
  transit : Option Role := none
  /-- Triggers that wait, in order of arrival (R24). -/
  waiting : List Trigger := []
  /-- The role that BANKED came from. -/
  bankedFrom : Role := .service
  /-- GUEST_ON of that role. -/
  bankedGuest : Bool := false
  /-- Guest tiles that BANKED stopped, to resume at the wake (R375, R376). -/
  bankedTiles : List Nat := []
  /-- A self-test runs (R32). -/
  testing : Bool := false
  /-- A position of the tray declared failed is being covered beyond it (R104). -/
  covering : Bool := false
deriving DecidableEq, Repr

/-- The combinations that can exist (R424, Tables 1.5 and 17.2): GUEST_ON reads 1 in GUEST, may read 1 in WATCH and
reads 0 elsewhere, an Ozmund in SHORE is in NATIVE spare mode, and SHORE and BANKED have their firmware in RUN. -/
def Mode.legal (m : Mode) : Bool :=
  (match m.role with
    | .watch => true
    | .guest => m.guestOn
    | _ => !m.guestOn) &&
  (decide (m.role ≠ .shore) || !m.compat) &&
  ((decide (m.role ≠ .shore) && decide (m.role ≠ .banked)) || decide (m.fw = .run))

/-- The thermal manager beyond its registers (R448, R449): ticks of the last steps down and up, the up-wait in units of 100 ms, the ticks
since which the up conditions, those of CRITICAL and those of its end have held, and CRITICAL in force. -/
structure Therm where
  lastDown : Option Nat := none
  lastUp : Option Nat := none
  upWait : Nat := 1
  upSince : Option Nat := none
  critSince : Option Nat := none
  coolSince : Option Nat := none
  crit : Bool := false
deriving DecidableEq, Repr

/-- What holds the part itself in or out of reset. -/
structure Power where
  /-- OZ_PWROK is high (R434). -/
  pwrok : Bool := false
  /-- REFCLK is present (R439). -/
  ref : Bool := true
  /-- THERMTRIP_N has been pulled low (R450). -/
  tripped : Bool := false
  therm : Therm := {}
deriving DecidableEq, Repr

/-! ## Lathe tiles (Tables 6.1, 8.1, 9.14) -/

/-- The operations of the Lathe instruction set, version 3 (Tables 8.4, 8.7, 8.8, 8.10, 8.12, 8.14). -/
inductive LOp where
  | pass
  | vxAdd | vxSub | vxMul | fma | div | sqrt | rsqrt | exp | exp2 | log | log2 | tanh | sigmoid
  | vxMin | vxMax | abs | neg | cmpEq | cmpLt | cmpLe | cmpUn | sel
  | iadd | isub | imul | imin | imax | vxAnd | vxOr | vxXor | vxShl | vxShr | vxSar | i2f | f2i | cvt
  | vxMov | bcastRow | bcastColumn | trans | randRaw | randUnif | vxLd | vxSt
  | reduceSum | reduceMax | reduceMin
  | copy | get | put | xput | desc
  | wait | sySignal | rwait | rsignal | drain
  | ctAdd | ctSub | ctMul | ctAnd | ctOr | ctXor | ctShl | ctShr | ctSar | ctSlt | ctSltu | ctMin | ctMax | ctMov
  | addrFromS | addrToS | addrAdd | addrBaseAdd | addrStrideSet
  | jmp | beq | bne | blt | bge | bltu | bgeu | loop | bp
  | pset | pget | pand | por | pxor | pnot | ctLd | ctSt
  | nop | endProg | brk | step | cget | phxld | phxst | gang | ctTime | flags | rank
deriving DecidableEq, Repr

/-- An instruction dispatched into a queue, or held at the front end: its operation and words, its tile-store offset,
and the S, A and P values it captured at dispatch (R209, R230). -/
structure QEntry where
  op : LOp
  w0 : W64
  w1 : W64
  off : Nat
  sv : List W64 := []
  av : List W64 := []
  pv : W64 := 0
  /-- A wait found not satisfied and held (R216). -/
  mark : Bool := false
  /-- Gang changes requested before a pass was dispatched and not yet in force: it waits for them (R159). -/
  ahead : Nat := 0
  /-- Of a pass of the shored position in progress: its step, and the number of its first output tile in that step (R53, R157). -/
  sample : Option (Nat × Nat) := none
  /-- Bytes of an MV transfer already delivered (R222, R255). -/
  prog : Nat := 0
deriving DecidableEq, Repr

/-- A direct transfer in flight (R214): its instruction with its progress, and whether it is held on a queued MMU fault
(R252). -/
structure Move where
  entry : QEntry
  held : Bool := false
deriving DecidableEq, Repr

/-- A DESC transfer in flight (R214, R257): the tile-store offset of its first descriptor and of the one being
served, whether that one has been checked and begun (R258), and whether it is held on a queued fault. -/
structure DescJob where
  first : Nat
  /-- The tile-store offset of the DESC instruction. -/
  off : Nat := 0
  cur : Nat
  started : Bool := false
  held : Bool := false
  /-- Fragments delivered since a STOP was ordered: those in flight, at most 16 (R263). -/
  after : Nat := 0
deriving DecidableEq, Repr

/-- One Lathe tile. The S, A and P registers and the Philox streams are in `regs`, at their offsets in the tile's
register block (Tables 7.13 and 8.22). The tile store is physical memory (Table 9.1). -/
structure Tile where
  /-- The tile's register block, by offset. -/
  regs : Store W64 := []
  /-- Local counters C0–C63. -/
  cnt : Store W64 := []
  /-- Tile buffers: word `4096 b + 64 row + lane` of TBb (R183). -/
  tb : Store W32 := []
  /-- Scale tables: entry `128 b + i` of TBb (R183). -/
  scl : Store Byte := []
  /-- Accumulators: word `4096 a + 64 row + column` of ACCa. -/
  acc : Store W32 := []
  /-- The instruction held at the front end, if one is (R209, R216, R221). -/
  front : Option QEntry := none
  mx : List QEntry := []
  vx : List QEntry := []
  rd : List QEntry := []
  mv : List QEntry := []
  /-- Passes in progress, oldest first (R160). -/
  passes : List QEntry := []
  /-- Gang configurations requested and not yet in force, oldest first (R159). -/
  gangs : List Nat := []
  /-- Direct transfers in flight, oldest first, at most four (R214). -/
  moves : List Move := []
  /-- DESC transfers in flight, at most 16 (R256). -/
  descs : List DescJob := []
  /-- END has been dispatched (R231). -/
  ending : Bool := false
  /-- An exception is recorded and work in progress is finishing (R223). -/
  faulting : Bool := false
  /-- Stopped by the thermal manager under R449, to resume under the same rule. -/
  critStop : Bool := false
deriving DecidableEq, Repr

/-- A loaded program: its context, the session that loaded or admitted it (16: none), and the tile of each rank, with
the twin tile of each rank in paired execution (R228, R148). -/
structure Program where
  ctx : Nat
  session : Nat
  tiles : List Nat
  twins : List Nat := []
  /-- Its images stand in the save area (R265). -/
  saved : Bool := false
deriving DecidableEq, Repr

/-! ## Memory, translation and DMA ("Memory, address translation, DMA and pre-emption") -/

/-- A queued fault not yet resumed, aborted or withdrawn (R252, R253). -/
structure QFault where
  /-- Its place in the fault ring, or none while the ring is full and the requester holds. -/
  ring : Option Nat
  req : Requester
  va : Nat
  cause : Nat
  write : Bool
  ctx : Nat
deriving DecidableEq, Repr

/-- A DMA channel beyond its registers: the descriptor being served (its physical address and that of the ring entry
that heads its chain), and whether it is held on a queued fault. -/
structure Chan where
  entry : Nat := 0
  cur : Nat := 0
  started : Bool := false
  held : Bool := false
  /-- Fragments delivered since a STOP was ordered: those in flight, at most 16 (R263). -/
  after : Nat := 0
deriving DecidableEq, Repr

/-- A page of a guest (R244, R266): its virtual address, its HBM page when it has one, and its DDR5 home when it has
one. -/
structure GuestPage where
  va : Nat
  hbm : Option Nat
  home : Option Nat
deriving DecidableEq, Repr

/-- An admitted guest: its context, the session that admitted it and its pages (R244, R332). -/
structure Guest where
  ctx : Nat
  session : Nat
  pages : List GuestPage := []
  /-- Reclaimed, and not readmitted by its host (R268). -/
  held : Bool := false
deriving DecidableEq, Repr

/-- Where guest reclaim stands (R266). -/
inductive Reclaim where
  | idle | freezing | spilling | ended
deriving DecidableEq, Repr

/-- What a fault record holds beside its sequence number (Table 9.10). -/
structure FaultNote where
  time : Nat
  va : Nat
  cause : Nat
  flags : Nat
  num : Nat
  ctx : Nat
  cls : Nat
deriving DecidableEq, Repr

/-- The MMU, the guests and the allocation of pages. -/
structure Mmu where
  faults : List QFault := []
  /-- Records of faults that no requester holds any more, which wait for space in the fault ring (R253: no fault is lost). -/
  owed : List FaultNote := []
  /-- Sequence number of the next fault record since chip reset (Table 9.10). -/
  nextIndex : Nat := 0
  guests : List Guest := []
  programs : List Program := []
  reclaim : Reclaim := .idle
  /-- Data pages of the tier that admission set aside for the course store and the far area (R86, R244). -/
  reservedTier : Nat := 0
  /-- Of them, the pages of the far area, at the top of the tier (R83, R86). -/
  farTier : Nat := 0
  /-- Pages of the page-table area already taken (Table 9.4). -/
  tablePages : Nat := 0
  /-- Pages of the SERVICE context (R244, R250). -/
  service : List GuestPage := []
  /-- 2 MiB pages of the shore reserve and of the guest quota mapped to context 1 (R116). -/
  jobPages : List (Nat × Nat) := []
deriving DecidableEq, Repr

/-! ## The sync unit and peer sessions ("Synchronisation counters and signals") -/

/-- What a watch tells (R280). -/
inductive WatchTarget where
  | cc
  /-- The control complex of the course root, for the course barrier and the rewind barrier (R280). -/
  | courseBarrier
  | rewindBarrier
  | session (n : Nat) (req : Nat)
deriving DecidableEq, Repr

/-- An armed watch (R280). -/
structure Watch where
  counter : Nat
  value : W64
  deadline : Nat
  target : WatchTarget
deriving DecidableEq, Repr

/-- The origin of a transfer in the open-transfer table (R276). -/
inductive Origin where
  | slot (n : Nat)
  | fabric
  | session (n : Nat)
  | local (n : Nat)
deriving DecidableEq, Repr

/-- An entry of the open-transfer table (R276); `pkts` is 0 before the LAST packet. -/
structure OpenEntry where
  origin : Origin
  tag : Nat
  written : Nat
  pkts : Nat
  counter : Nat
  inc : Nat
  signal : Bool
  /-- Pod Time of the last packet (Table 10.8), and its tick (R278). -/
  time : Nat
  tick : Nat := 0
deriving DecidableEq, Repr

/-- A request or notice to a peer that has not been answered: SEQ, TYPE, notice code, a number of the sender's own, payload. -/
structure PReq where
  seq : Nat
  ty : Nat
  code : Nat := 0
  info : Nat := 0
  data : List Byte := []
deriving DecidableEq, Repr

/-- A peer session (Table 10.4), with the numbers of its messages and its keys. -/
structure PeerSess where
  /-- 0 CLOSED, 1 OPENING, 2 OPEN, 3 LOST. -/
  st : Nat := 0
  peer : Nat := 0
  /-- The peer's number for the session. -/
  far : Nat := 0
  port : Nat := 0
  /-- DATA messages sent: the PAIR ports take them in turn (R302). -/
  turn : Nat := 0
  /-- The next SEQ of each direction (Table 10.5). -/
  sent : Nat := 0
  rcvd : Nat := 0
  /-- Traffic keys of the two directions, and the ephemeral key number while OPENING. -/
  keyOut : List Byte := []
  keyIn : List Byte := []
  saltOut : List Byte := []
  saltIn : List Byte := []
  eph : Nat := 0
  /-- The OPEN payload sent, while OPENING. -/
  openSent : List Byte := []
  /-- Requests not yet answered. -/
  reqs : List PReq := []
deriving DecidableEq, Repr

/-- The state of the JOB window's fence (R279). -/
inductive WinFence where
  | open | draining | final
deriving DecidableEq, Repr

/-- Bytes staged by offset, with the ranges received (start, length). -/
structure Stage where
  bytes : Store Byte := []
  have_ : List (Nat × Nat) := []
deriving DecidableEq, Repr

/-- A buffer that a notice granted for the DATA of one transfer (R283, R360): the session, the handle, the physical address
its bytes go to (none: they are held here until they are complete), the length, the notice that granted it with its
payload, and what has come. -/
structure Grant where
  session : Nat
  handle : Nat
  /-- The epoch of the notice, which its DATA carries too. -/
  epoch : Nat := 0
  base : Option Nat
  len : Nat
  code : Nat
  notice : List Byte
  got : Stage := {}
  /-- Signals of its transfers that wait until its bytes are in memory (R274): counter and increment. -/
  signals : List (Nat × Nat) := []
deriving DecidableEq, Repr

/-- The sync unit and the peer sessions beyond their registers and tables. -/
structure Sync where
  grants : List Grant := []
  nextHandle : Nat := 0
  nextTag : Nat := 0
  /-- Ephemeral ML-KEM keys made so far. -/
  ephemerals : Nat := 0
  transfers : List OpenEntry := []
  win : WinFence := .open
  /-- The status with which the last attempt to open a session ended (R282): AUTH, RETRY, FAULT or BUSY, and 0 before any. -/
  openStatus : Nat := 0
  /-- Which of the two dump slots the next dump takes (R287). -/
  dumpSlot : Nat := 0
deriving DecidableEq, Repr

/-! ## The Quoin agents ("The Quoin agent") -/

/-- What a granule of a STATE region is for the course in progress (R44). -/
inductive Gran where
  | prot
  | copied (slot : Nat)
  | sent
deriving DecidableEq, Repr

/-- A host write held under R44 or R46. -/
structure HeldWrite where
  addr : Nat
  data : List Byte
deriving DecidableEq, Repr

/-- A transfer to an agent of which some packets have arrived (R63): packets received, first failure, and from the LAST
packet its count and signal. -/
structure AXfer where
  tag : Nat
  got : Nat := 0
  fail : Nat := 0
  last : Option (Nat × Option (Nat × Nat)) := none
  /-- SEQ and path of the last packet taken, and whether a fence has answered the request already (R57). -/
  seq : W32 := 0
  sb : Bool := false
  closed : Bool := false
deriving DecidableEq, Repr

/-- The agent of one slot, beyond the tray's host memory. -/
structure Agent where
  /-- Its register block by offset (Table 2.3). -/
  regs : Store W64 := []
  /-- The self-test after the last rise of SLOT_RESET_N failed. -/
  selfFail : Bool := false
  /-- Next SEQ on the tray port and on the sideband, and the next TAG. -/
  seqTray : Nat := 0
  seqSb : Nat := 0
  tag : Nat := 0
  /-- The boundary the armed course cuts at, and the course buffer in force (R45). -/
  armStep : Nat := 0
  bufBase : Nat := 0
  bufSlots : Nat := 0
  /-- Granule states of the course in progress, by granule number in table order, with the check words of the blocks
  that stand in the course buffer (word `512 slot + block`). -/
  grans : Store Gran := []
  bufChecks : Store W64 := []
  /-- Granules being copied, and host writes held, in order of arrival. -/
  copying : List Nat := []
  heldWrites : List HeldWrite := []
  /-- The tick since which a write is held for want of a slot (R46). -/
  stallFrom : Option Nat := none
  /-- What the step has had of stall before that, in ticks (R46). -/
  stallTicks : Nat := 0
  /-- Dirty map P with its course, and map R, which may have every bit set (R47). -/
  mapP : Store Bool := []
  pCourse : Option Nat := none
  mapR : Store Bool := []
  rAll : Bool := false
  /-- Key slots 0 and 1, and the mark key with its slot bit (R51). -/
  key0 : List Byte := []
  key1 : List Byte := []
  markKey : List Byte := []
  markSlot : Nat := 0
  /-- Selector keys with the first step of each, oldest first (R141). -/
  selectors : List (Nat × Nat) := []
  /-- Samples listed for the step, and pushes made in it (R54, R55). -/
  listed : Nat := 0
  pushes : Nat := 0
  /-- Records placed and not yet sent: offset and length (R55). -/
  samples : List (Nat × Nat) := []
  /-- The step context record, and the SEQ of the LAST packet of its transfer while its answer is awaited (R42). -/
  ctx : List Byte := []
  ctxWait : Option Nat := none
  /-- CONTEXT has been answered OK for the course in progress. -/
  ctxOk : Bool := false
  xfers : List AXfer := []
  /-- Drain requests that wait while HALT_N is low (R61). -/
  deferred : List QMsg := []
  /-- The fence reason, and whether FENCE_DONE has been sent for this fence (R57). -/
  fenceReason : Nat := 0
  doneSent : Bool := false
  /-- HALT_N is low at this agent (R61). -/
  haltLow : Bool := false
  /-- The tick at which QAG_PODTIME took its value, while it counts on from there (R402). -/
  timeAt : Option Nat := none
deriving DecidableEq, Repr

/-! ## The security block ("Identity, firmware acceptance and two-key protection") -/

/-- A pending proposal: its record, the role held (1 FLEET, 2 SITE) and the CLK_C count at which it opened (R395). -/
structure Proposal where
  record : List Byte
  digest : List Byte
  role : Nat
  since : Nat
deriving DecidableEq, Repr

/-- The security block beyond its registers. -/
structure Sec where
  /-- The public keys of slots 0–3: Fleet 0, Fleet 1, Site 0, Site 1; empty where none is installed. -/
  keys : List (List Byte) := [[], [], [], []]
  /-- Working keys made, and whether the next one is being generated (R382). -/
  wkGen : Nat := 0
  wkMaking : Bool := false
  wkCert : List Byte := []
  /-- The flash, where it has been written since manufacture, and the copy in control-complex memory (R386, R389). -/
  flash : Option (List Byte) := none
  retained : List Byte := []
  /-- Staged image of FW_PUT or of RECOVERY. -/
  stage : Stage := {}
  pending : Option Proposal := none
  /-- Fragments of RESET_REQ held: sender, identifier, index, count, bytes (R398). -/
  frags : List (Nat × Nat × Nat × Nat × List Byte) := []
  /-- RESET_REQ identifiers this Ozmund has used. -/
  nextFrag : Nat := 0
  /-- The ROM in RECOVERY asks the partner for an image (R388). -/
  asking : Bool := false
deriving DecidableEq, Repr

/-! ## The job ("Courses", "Shoring", "Silent-error defence", "Pod-scale operation") -/

/-- A position as the package gives it (Table 12.8). -/
structure PosRec where
  pos : Nat
  member : Nat
  slot : Nat
  kernels : Bool
  program : Nat
  work : Nat
deriving DecidableEq, Repr

/-- A replica group. -/
structure GroupRec where
  id : Nat
  region : Nat
  keeper : Nat
  positions : List Nat
deriving DecidableEq, Repr

/-- An entry of the counter plan (R110). -/
structure PlanRec where
  pos : Nat
  idx : Nat
  a : Nat
  d : Nat
deriving DecidableEq, Repr

/-- What a member keeps of the package of the job served, and the job mark seed (R139, R338). -/
structure Job where
  c0 : Nat := 0
  s0 : Nat := 0
  quiet : Bool := false
  /-- Addresses by member index. -/
  members : List Nat := []
  positions : List PosRec := []
  /-- REGIONS records by position. -/
  regions : List (Nat × List Byte) := []
  groups : List GroupRec := []
  plan : List PlanRec := []
  /-- WITNESS pairs by program, images by program and rank, routes by position. -/
  witness : List (Nat × List (Nat × Nat)) := []
  images : List (List (List Byte)) := []
  routes : List (Nat × List (Nat × Nat)) := []
  cfg : List Byte := []
  z : List Byte := []
deriving DecidableEq, Repr

/-- A Shard Directory entry (Table 3.6). `tier`: 0 HBM, 1 DDR5; `state`: 1 FILLING, 2 STORED, 3 VERIFIED. -/
structure DirEnt where
  addr : Nat
  tier : Nat
  state : Nat
  slot : Nat
  region : Nat
  shard : Nat
  in0 : Bool
  in1 : Bool
  len : Nat
  group : Nat
  shared : Bool
deriving DecidableEq, Repr

/-- A manifest entry (Table 3.8). -/
structure MEnt where
  pos : Nat
  region : Nat
  flags : Nat
  group : Nat
  shard : Nat
  len : Nat
  offset : Nat
  course : Nat
  loc : Nat
  tier : Nat
  mark : Nat
  sha : List Byte
deriving DecidableEq, Repr

/-- A position's cut (R87): slot, position, Pod Time, granules, shards and the step context record. -/
structure PosCut where
  slot : Nat
  pos : Nat
  time : Nat
  grans : Nat
  shards : Nat
  ctx : List Byte := []
  shored : Bool := false
deriving DecidableEq, Repr

/-- A course that this member holds: its number, step, entries and cuts, and its sealed manifest. -/
structure Held where
  course : Nat
  step : Nat
  ents : List MEnt := []
  cuts : List PosCut := []
  manifest : List Byte := []
deriving DecidableEq, Repr

/-- A decision of the root that waits for its partner (R90): course, commit, reason, next course and its step, and whether an early course was
wanted then (R77). -/
structure Decision where
  course : Nat
  commit : Bool
  reason : Nat
  next : Nat
  nextStep : Nat
  early : Bool := false
deriving DecidableEq, Repr

/-- The course engine beyond its registers. -/
structure CourseSt where
  /-- Maps D0 and the latest map of each slot (R78). -/
  d0 : Store (List Byte) := []
  latest : Store (List Byte) := []
  /-- Of the course in progress, by granule `2¹⁸ × slot + g`: granules asked for, acknowledged, and blocks received
  (`512 × granule + block`); blocks asked for once more after a failed check. -/
  asked : Store Bool := []
  acked : Store Bool := []
  blocks : Store Bool := []
  retried : Store Bool := []
  /-- Pages of the HBM course cache that hold granules on their way into the tier, by granule (R84). -/
  staged : Store Nat := []
  /-- Marks received for dedup: (slot, region, shard), mark. -/
  marks : List (Nat × Nat × Nat × Nat) := []
  ents : List MEnt := []
  cuts : List PosCut := []
  dir : Store DirEnt := []
  held : List Held := []
  /-- Manifest-entry numbers whose FAR_ACK is awaited. -/
  farWait : List Nat := []
  /-- GROUP_DIGESTs received for the course in progress: sender, group, first shard, SHA-256 values (R82). -/
  digests : List (Nat × Nat × Nat × List Byte) := []
  /-- MIRROR_ACK with a status other than OK never counts (R88): the MIRROR of the course in progress has been sent. -/
  mirrorSent : Bool := false
  /-- The gate has stopped holding the vote (R146). -/
  gateOver : Bool := false
  /-- Slots whose COURSE_ARM is to be repeated (R41). -/
  rearm : List Nat := []
  /-- QAG_HLT0–3 of the last HEALTH by slot, and watches fired with their times: (slot, code, tick). -/
  health : Store (List Nat) := []
  fired : List (Nat × Nat × Nat) := []
  /-- Highest QAG_STEP learned from each slot. -/
  steps : Store Nat := []
  /-- At the root: lead, consecutive commits, the votes of the course in progress, an early course wanted, members held
  for, highest course opened, step of the last course opened, a decision that waits, no course to open (R107). -/
  lead : Nat := 1
  commits : Nat := 0
  votes : List (Nat × Nat) := []
  early : Bool := false
  holds : List Nat := []
  highest : Nat := 0
  lastStep : Nat := 0
  deciding : Option Decision := none
  open_ : Option (Nat × Nat) := none
  noOpen : Bool := false
  /-- At the root: the last course that it decided to commit, and its step (R91). -/
  decided : Option (Nat × Nat) := none
  /-- The last own course whose complete mirror the partner acknowledged, and the last whose full mirror carried the far copies of all it
  forwards (R456). -/
  mirrored : Nat := 0xFFFFFFFF
  farFull : Option Nat := none
  /-- A full mirror waits for shards that are not whole here (R96, R456). -/
  mirrorWaits : Bool := false
  /-- Consecutive courses abandoned with STALL. -/
  stalls : Nat := 0
  /-- Whether the last reading of this Ozmund's thermal margin since admission stood below CRS_WATCH1.OWN_THERM (R77). -/
  marginLow : Option Bool := none
  /-- A new root collects answers (R93), and the newest course known to be committed. -/
  taking : Bool := false
  known : Option Nat := none
  /-- CRS_CTRL and CRS_CFG as they stood when the last course opened, and whether the partner was PAIRED then. -/
  ctrl : W64 := 0x3E
  cfg : W64 := 0x3C00810001
  paired : Bool := false
deriving DecidableEq, Repr

/-- How far a slot is in a rewind (R109, R110). -/
inductive RStep where
  | fencing | mapping | loading | loaded | setting | set | admitting
deriving DecidableEq, Repr

/-- A rewind plan (Table 4.2). -/
structure Plan where
  num : Nat
  course : Nat
  step : Nat
  count : Nat
  flags : Nat
  mark : Nat
deriving DecidableEq, Repr

/-- The steps of a handback (R125, R127). -/
inductive HbStep where
  | power | hello | testSb | testTray | train | copying | boundary | admitting
deriving DecidableEq, Repr

/-- A handback in progress: slot, live or by rewind, step, the boundary reached, and a move made. -/
structure Handback where
  slot : Nat
  live : Bool
  step : HbStep
  /-- The crossconnect has been told to move back; the boundary reached and its context image. -/
  moved : Bool := false
  at_ : Nat := 0
  image : List Byte := []
  /-- The course that the accelerator has been loaded from (R127). -/
  course : Option Nat := none
deriving DecidableEq, Repr

/-- A position that the group spare of this tray covers (R129): the spare's slot, the declaring member's address, and whether the spare has
been bound and loaded for the plan in force. -/
structure Cover where
  pos : Nat
  slot : Nat
  member : Nat
  bound : Bool := false
deriving DecidableEq, Repr

/-- The shore controller beyond its registers. -/
structure ShoreSt where
  /-- Consecutive missed deadlines of each slot, with the Pod Time of the first (R103). -/
  misses : Store Nat := []
  firstMiss : Store Nat := []
  /-- Slots whose declared fence has not ended (R104), and declared slots to be covered beyond the tray. -/
  fencing : List Nat := []
  beyond : List Nat := []
  /-- The last plan received, the progress of each slot in it, and REWOUND sent for it. -/
  plan : Option Plan := none
  slots : Store RStep := []
  rewoundSent : Bool := false
  admitted : Bool := true
  noSource : Bool := false
  /-- The position shored: declared slot, fence over, moved, promoted, one retry used, kernels loaded. -/
  slot : Option Nat := none
  declaredAt : Nat := 0
  fenceOver : Bool := false
  /-- Shards of the restore course promoted: region and number. -/
  done_ : List (Nat × Nat) := []
  /-- The tick of the last FENCE_DONE of this member's slots in the rewind (R110). -/
  lastFence : Nat := 0
  moved : Bool := false
  retried : Bool := false
  promoted : Bool := false
  loaded : Bool := false
  /-- At the root: rewind in progress, its members counted, count of positions, notices that wait for a decision. -/
  rooting : Bool := false
  rewound : List Nat := []
  notices : List Nat := []
  spare : Bool := false
  /-- At the root: the rewind asked for is a handback's (R127). -/
  handbackAsked : Bool := false
  handback : Option Handback := none
  /-- Repoint requests counted by (position, step, SEQ24, receiver) of the shored sender (R123). -/
  repoints : List ((Nat × Nat × Nat) × Nat) := []
  /-- SHORE_NOTICEs sent that no plan has answered yet (Table 4.4); at a root, positions that a plan of the root before it counts. -/
  sentNotices : List (List Byte) := []
  inherited : Nat := 0
  /-- The earliest t₀ of the declarations that no ADMIT_ORDER has answered yet (R118), and that this shoring has been counted. -/
  declared : Option Nat := none
  counted : Bool := false
  /-- SHR_CFG and SHR_TIMEOUT as the last declaration took them, and SPR_GROUP as admission did (R130). -/
  cfg : W64 := 0x08020064000A1405
  timeout : W64 := 0xBB8
  sprGroup : W64 := 0
  /-- The last plan taken: its number and the root that it came from (R111). -/
  planTaken : Option (Nat × Nat) := none
  /-- The slot of a position handed back whose share of the course in progress still drains from this Ozmund's copy (R125). -/
  share : Option Nat := none
  /-- A position that this tray's spare covers (R129). -/
  cover : Option Cover := none
  /-- Repoint requests that the shored position made, by sender, step and SEQ24 (R121). -/
  repointsMade : List ((Nat × Nat × Nat) × Nat) := []
  /-- The next heartbeat deadline of each slot by tick (R103), and the Pod Time of receipt of a FATAL during a global halt
  (R411). -/
  deadlines : Store Nat := []
  fatalAt : Store Nat := []
  /-- Slots that fenced themselves (R370), with whether FENCE_DONE has come. -/
  inPlace : Store Bool := []
deriving DecidableEq, Repr

/-- A sample record in the witness queue (R145): slot, record, and the witness tiles already used for it, in order of use. -/
structure WRec where
  slot : Nat
  data : List Byte
  used : List Nat := []
  /-- Formed by the Ozmund for the shored position (R147), not sent by the slot's agent. -/
  own : Bool := false
deriving DecidableEq, Repr

/-- The witness engine and the counts of integrity events beyond their registers. -/
structure WitSt where
  /-- WIT_CTRL.EN and WIT_CFG.RATE of each slot as they stood at its last admission (R144, R147), and the rewind number of the last
  admission (R141). -/
  sel : Store (Bool × Nat) := []
  rewind : Nat := 0
  queue : List WRec := []
  /-- Samples expected and not yet dealt with: slot, domain, step, index (R144). -/
  expected : List (Nat × Nat × Nat × Nat) := []
  /-- Samples dealt with before their step was learned, and drops that a slot reported beyond those expected of it (R146). -/
  early : List (Nat × Nat × Nat × Nat) := []
  owed : Store Nat := []
  /-- Next output tile and next reduction slice of the shored position's step (R53, R157, R197). -/
  mxNext : Nat := 0
  rdNext : Nat := 0
  /-- Slots whose event count has reached its limit by an event that a witness tile raised, until the shore controller declares them
  (R150). -/
  due : List Nat := []
  /-- Step of the last admission of each slot. -/
  since : Store Nat := []
  /-- Times of the events counted against each slot and of the OWN events of each tile (R150, R151). -/
  slotTimes : List (Nat × Nat) := []
  ownTimes : List (Nat × Nat) := []
  /-- CHECK_FAIL and MARK_FAIL seen set, by slot (R149). -/
  seenCheck : List Nat := []
  seenMark : List Nat := []
deriving DecidableEq, Repr

/-- A request to an agent that has not been answered: its SEQ and path, and what was sent, with the sender's own note
(0: the member's own; else the host command that waits for it). -/
structure SReq where
  seq : Nat
  sb : Bool
  ty : Nat
  arg : Nat
  data : List Byte
  note : List Nat := []
deriving DecidableEq, Repr

/-- The Ozmund's side of a slot. -/
structure SlotSt where
  seqTray : Nat := 0
  seqSb : Nat := 0
  tag : Nat := 0
  reqs : List SReq := []
  /-- The agent's QAG_ID from its HELLO, when served (R431). -/
  id : Option Nat := none
  /-- The last course of a COMMIT_NOTE, and the courses whose keys the slot holds (R109, R111). -/
  noted : Nat := 0xFFFFFFFF
  keys : List Nat := []
  selfFail : Bool := false
  /-- The epoch of the slot's BIND, 0 before it (Table 2.32). -/
  bound : Nat := 0
deriving DecidableEq, Repr

/-- Job admission at this member beyond HUB_START (R336, R350): staging of the package and of the intake, and teardown. -/
structure StartSt where
  /-- In QUARANTINE, the epoch and member index of the job that the Ozmund was part of, until MEMBER_MAP names its replacement (Table 4.4). -/
  former : Option (Nat × Nat) := none
  /-- The digest that JOB_ADMIT gives of the package (R336). -/
  digest : List Byte := []
  /-- The epoch being admitted, from JOB_ADMIT until the end of teardown. -/
  epoch : Nat := 0
  /-- Package bytes staged, the head once it has been verified, and the body chunks verified with the address each came
  from (0: a host). -/
  stage : Stage := {}
  head : List Byte := []
  chunks : List (Nat × Nat) := []
  /-- Chunks sent to each child or parent: address, chunk (R348). -/
  sent : List (Nat × Nat) := []
  /-- The parent is lost, and no ancestor has been found yet (R349). -/
  orphaned : Bool := false
  /-- Children adopted (R349). -/
  adopted : List Nat := []
  /-- This member joins as a replacement (R358). -/
  joining : Bool := false
  /-- The answer to FAR_RESERVE, none while it is awaited, and that it was asked for. -/
  farAsked : Bool := false
  farSt : Option Nat := none
  /-- The manifest of the course taken in, as staged and as it stands; bytes come of each shard, by entry; shards taken in, and
  those asked for once more after a mismatch (R352). -/
  manStage : Stage := {}
  manifest : List Byte := []
  intake : Store (List (Nat × Nat)) := []
  taken : List Nat := []
  again : List Nat := []
  /-- SHARD_WANTs that wait for their shard: address, course, SHA-256. -/
  wants : List (Nat × Nat × List Byte) := []
  /-- The mirror and the far copies of the course have been sent. -/
  mirrored : Bool := false
  readySent : Bool := false
  /-- At the root: READY answers (member, status), members whose SCRUB_DONE is in, and members reported lost (R344, R353, R354). -/
  ready : List (Nat × Nat) := []
  scrubbed : List Nat := []
  lost : List Nat := []
  /-- Teardown: ordered, with KEEP, after an abort, and the slots whose FENCE_DONE is awaited (R354). -/
  ordered : Bool := false
  keep : Bool := false
  aborted : Bool := false
  fencing : List Nat := []
  /-- An old member that a MEMBER_MAP has replaced (R358). -/
  replaced : Bool := false
deriving DecidableEq, Repr

/-- A far copy held for the partner (R83): course, epoch, entry, place and length. -/
structure FarCopy where
  course : Nat
  epoch : Nat
  entry : Nat
  addr : Nat
  len : Nat
  sha : List Byte := []
deriving DecidableEq, Repr

/-- A mirrored manifest of the partner with its directory delta (R88). -/
structure MirrorMan where
  course : Nat
  epoch : Nat
  base : Nat
  manifest : List Byte
  dir : List Byte
  acked : Bool := false
deriving DecidableEq, Repr

/-- What this Ozmund holds as partner (Table 13.4). -/
structure PartnerHold where
  far : List FarCopy := []
  mirrors : List MirrorMan := []
  decision : Option (List Byte) := none
  z : List Byte := []
  zEpoch : Nat := 0
  /-- GiB reserved by FAR_RESERVE and its epoch; an answer held while this Ozmund tears down (R356). -/
  reserve : Nat := 0
  reserveEpoch : Nat := 0
  heldReserve : Option (Nat × Nat × Nat × Nat) := none
  /-- The partner is tearing down a job: PARTNER_SCRUB awaited (R356). -/
  tearing : Bool := false
  /-- Far copies announced that could not be stored: epoch, course, entry (R83). -/
  lacking : List (Nat × Nat × Nat) := []
  kept : Bool := false
  /-- The partner's last role, course root and COMMITTED course from PAIR_HELLO, and that one has come. -/
  role : Nat := 0
  root : Nat := 0
  committed : Nat := 0xFFFFFFFF
  hello : Bool := false
  /-- Addresses and trays of this rack, as ROLLCALL gave them (R17, R342). -/
  rack : List (Nat × Nat) := []
  /-- The tick of the last PULSE of the partner (R344). -/
  pulse : Option Nat := none
deriving DecidableEq, Repr

/-! ## The link layer and the crossconnect ("Optical ports, copper sideband and the tray crossconnect") -/

/-- A message that a port has not released (R294, R295): its origin, the port whose traffic it is, its prefix and bytes, and how many of its
flits have been sent and acknowledged. -/
structure TxMsg where
  origin : Nat
  home : Nat
  bytes : List Byte
  sent : Nat := 0
  acked : Nat := 0
deriving DecidableEq, Repr

/-- A port of the link layer beyond its registers: 0–23 the optical ports, 24–31 the sideband of slot n − 24. -/
structure Port where
  /-- The FSEQ of the next DATA flit and of the oldest one held (R292), and the messages not released, oldest first. -/
  fseqOut : Nat := 0
  oldest : Nat := 0
  tx : List TxMsg := []
  /-- Replays of the oldest flit held. -/
  replays : Nat := 0
  /-- The next FSEQ expected, whether NAK has been sent for it, the good flits that came ahead of it by FSEQ (R291), and message bytes
  received beyond the last whole message. -/
  fseqIn : Nat := 0
  nak : Bool := false
  ahead : List (Nat × List Byte) := []
  rx : List Byte := []
  /-- Check failures within the last 1 ms: lane and tick (R293). -/
  laneErrs : List (Nat × Nat) := []
  /-- The lanes that this end holds good (R293). -/
  good : Nat := 0
  /-- The far end's lanes of its last LANEMAP flit, and a map that waits for the FSEQ at which it takes effect. -/
  farLanes : Nat := 0
  nextLanes : Option (Nat × Nat) := none
  /-- The group that the port last trained in (Table 11.10); none before its first training. -/
  group : Option Nat := none
  /-- Held out of training for a link test (R125). -/
  held : Bool := false
  /-- The Ozmund does not join this tray port's detour by itself (R301). -/
  noJoin : Bool := false
  /-- t_tx and arrival time of the last TIME flit received (R305), and the delay measured in training. -/
  timeTx : Nat := 0
  timeRx : Nat := 0
  delay : Nat := 0
deriving DecidableEq, Repr

/-- Message numbers of an origin (R295): the next to send, the lowest not yet written and those written above it. -/
structure DStream where
  out : Nat := 0
  next : Nat := 0
  seen : List Nat := []
deriving DecidableEq, Repr

/-- An operation of the crossconnect (R310, R311): a move or a detour, and whether the shore controller asked for it. -/
inductive XOp where
  | move (slot : Nat) (toStandIn : Bool) (own : Bool)
  | detour (slot : Nat) (on : Bool)
deriving DecidableEq, Repr

/-- The crossconnect control beyond its registers: the operation in progress (one of the shore controller that was refused
stays until its timeout ends it), the tick of its command, and the operations that wait. -/
structure Xcn where
  op : Option XOp := none
  since : Nat := 0
  waiting : List XOp := []
deriving DecidableEq, Repr

/-! ## Resets ("Fences, resets, hangs and what persists") -/

/-- A fence or reset in progress (R364, R369): its unit, rung, cause and whether it was escalated. -/
structure Reset where
  unit : Nat
  rung : Nat
  cause : Nat
  escalated : Bool := false
deriving DecidableEq, Repr

/-- The reset controller beyond its registers. -/
structure ResetSt where
  /-- Resets taken: unit, rung, tick (R368). -/
  counts : List (Nat × Nat × Nat) := []
  /-- Units in QUARANTINE or out of service. -/
  out : List Nat := []
  /-- Fences and resets in progress. -/
  active : List Reset := []
  /-- Slots that are power-cycled before reintegration begins (R370). -/
  cycle : List Nat := []
  /-- Slots whose next E2 is taken above the rung called for (R368). -/
  above : List Nat := []
  /-- Resets ordered during a global halt, which wait for release (R411). -/
  waiting : List Reset := []
  /-- The chip comes out of an E3 and has not reached RUN (R374). -/
  afterE3 : Bool := false
  /-- The fence of an E3 in progress has got as far as the given step (R365); 0: none. -/
  fencing : Nat := 0
  /-- The stored shards of the last COMMITTED course are being verified (R374). -/
  verifying : Bool := false
deriving DecidableEq, Repr

/-! ## Host sessions ("The Setout command protocol") -/

/-- An event that waits to be sent on a session (R335): its source, the bits, the Pod Time, the detail, and whether a
later event joined it. -/
structure EventNote where
  src : Nat
  bits : Nat
  time : Nat
  detail : List Byte := []
  coalesced : Bool := false
deriving DecidableEq, Repr

/-- A packet of the Ozmund's stream of a session (Table 12.4). -/
structure OutPkt where
  seq : Nat
  ty : Nat
  flags : Nat
  epoch : Nat
  target : Nat
  status : Nat
  ref : Nat
  pkts : Nat
  arg : Nat
  data : List Byte
deriving DecidableEq, Repr

/-- A host session beyond its HST_SESSn register (R321 to R329). -/
structure HSess where
  /-- Openings of the slot since power-on (R325). -/
  opens : Nat := 0
  /-- The host nonce of its OPEN_REQ, and the OPEN_RSP that answered it (R323). -/
  nonce : List Byte := []
  rsp : List Byte := []
  /-- Keys and salts of the two directions (R324). -/
  keyIn : List Byte := []
  keyOut : List Byte := []
  saltIn : List Byte := []
  saltOut : List Byte := []
  /-- Settings of HST_CFG in force for the session. -/
  window : Nat := 512
  retryMax : Nat := 16
  idleS : Nat := 60
  /-- Source address and port of the latest authenticated datagram (R317). -/
  srcAddr : Nat := 0
  srcPort : Nat := 0
  /-- Highest CTR authenticated, those authenticated in the 1,024 below it, and the last CTR sent (R321). -/
  ctrIn : Nat := 0
  ctrSeen : List Nat := []
  ctrOut : Nat := 0
  /-- Packets held beyond a gap, by SEQ (R327), and packets accepted since the last acknowledgement (R328). -/
  heldSeqs : List Nat := []
  sinceAck : Nat := 0
  /-- The next SEQ of the Ozmund's stream, packets sent and not acknowledged, and packets that wait (R327). -/
  seqOut : Nat := 0
  unacked : List OutPkt := []
  waiting : List OutPkt := []
  /-- Retransmissions of the oldest packet without progress (R325), and the tick of the last resend on a NAK (R328). -/
  retries : Nat := 0
  lastResend : Option Nat := none
  events : List EventNote := []
  /-- Commands that wait while the session cannot send (R327). -/
  deferred : List Instr := []
deriving DecidableEq, Repr

/-! ## Observability ("Tallies, Pod Time, global halt and the datestone log") -/

/-- A datestone record (Table 16.7). -/
structure DRec where
  seq : Nat
  area : Nat
  ty : Nat
  life : Nat
  time : Nat
  flags : Nat
  sub : Nat
  detail : List Byte
deriving DecidableEq, Repr

/-- The recorder, the tally unit and the global halt beyond their registers. -/
structure Obs where
  /-- Rate-limited records made in this second, and the records not made with the bitmap of their types (R417). -/
  rateCount : Nat := 0
  notMade : Nat := 0
  notMadeTypes : W64 := 0
  /-- Operating seconds as last saved in the store (R416). -/
  lifeSaved : Nat := 0
  /-- What the next sample's header must flag (Table 16.3). -/
  flagRestart : Bool := true
  flagHalt : Bool := false
  flagThrottle : Bool := false
  /-- Armed triggers of kind 4 whose class has been raised (R420). -/
  hits : List Nat := []
  /-- Next sample TALLY_RD has not read since the last wrap (TAL_EVT.WRAP). -/
  readTo : Nat := 0
  /-- Pod Time in full at the start of the halt in force (Table 16.8, HALT). -/
  haltStart : Nat := 0
  /-- On-chip words that passed when they were read again (R134). -/
  sramCorrected : Nat := 0
  /-- JTAG: chain and offset of SCANSEL, the boundary-scan register and its captured image. -/
  scanChain : Nat := 0
  scanOffset : Nat := 0
  boundary : List Bool := []
  /-- Pod Time has taken its first discipline step (R401), its source is lost (R403), the Pod Time since which every
  offset was within ±6 ticks and that of the last slewed tick, and a tick to withhold (R305). -/
  disciplined : Bool := false
  srcLost : Bool := false
  within : Option Nat := none
  lastSlew : Nat := 0
  withhold : Bool := false
  /-- Commands for controllers that a global halt has frozen, in order of arrival (R410). -/
  frozen : List Instr := []
deriving DecidableEq, Repr

/-! ## The whole block -/

/-- One Ozmund with its tray: everything the spec gives the block, but for the queue of commands. -/
structure Dev where
  power : Power := {}
  mode : Mode := {}
  /-- The control registers of Table 17.7, but for the tiles' blocks and the fields another field of the state holds. -/
  ctl : Store W64 := []
  /-- Memory by byte: physical memory (Table 9.1) below 2⁶⁴, and the host memory of slot n from 2⁶⁴ × (n + 1). -/
  mem : Store Byte := []
  /-- The check word of each 4 KiB block of HBM and of the DDR5 tier, by block number (R137, R245). -/
  checks : Store W64 := []
  tiles : Store Tile := []
  /-- Tile images in the save area, beyond the tile stores (Table 9.14). -/
  savedTiles : Store Tile := []
  /-- The agents of the slots. -/
  agents : Store Agent := []
  mmu : Mmu := {}
  chans : Store Chan := []
  /-- The 65,536 counters of the sync unit. -/
  counters : Store W64 := []
  watches : Store Watch := []
  ports : Store Port := []
  /-- By origin: 0–7 the tray slots, 8 the stand-in fabric, 16 + s peer session s, 20000 + n the sideband of slot n. -/
  dseq : Store DStream := []
  xcn : Xcn := {}
  peers : Store PeerSess := []
  sync : Sync := {}
  /-- Host sessions by slot (R325). -/
  hosts : Store HSess := []
  /-- The datestone log: the circulating area by slot number, and the foundation area in order (R415). -/
  circ : Store DRec := []
  found : List DRec := []
  obs : Obs := {}
  /-- The event counters of Table 16.2 that mirror no register, by number. -/
  tallies : Store W64 := []
  sec : Sec := {}
  job : Job := {}
  course : CourseSt := {}
  shore : ShoreSt := {}
  wit : WitSt := {}
  slots : Store SlotSt := []
  start : StartSt := {}
  hold : PartnerHold := {}
  rst : ResetSt := {}
  /-- CLK_C periods counted since power-on. -/
  clk : Nat := 0
  /-- Pod Time in ticks (R5): 0 until its first discipline step (R401). -/
  podTime : Nat := 0
  /-- The status with which the last register write of this step completed (Table 0.5). -/
  status : Nat := 0
  /-- The model's own counter of free values drawn (notes/assumptions). -/
  free : Nat := 0
  /-- What the block has sent, oldest first. -/
  out : List Msg := []
deriving DecidableEq, Repr

/-- The state of the machine: the block, and the commands that wait, first in first out. -/
structure State where
  dev : Dev
  pending : List Instr
deriving DecidableEq, Repr

/-- The machine at power-on: every register at its Reset value (R9), OZ_PWROK low, nothing listed in memory and no
command waiting. -/
def State.reset : State := { dev := {}, pending := [] }

end Sys2Proof.Machine
end

