-- ==== Sys2Proof/Machine/Persist.lean ====
section
/-! DEFINITION. What a chip reset (E3) and the loss of power leave (R377, R378, Table 14.8). -/

namespace Sys2Proof.Machine

/-- Registers that an E3 keeps, by control address: the others return to their Reset values. A register that Table 14.8 does not name
follows the row of its block. -/
def keptAtE3 (a : Nat) : Bool :=
  let block := a / 0x10000
  let off := a % 0x10000
  if block = 0x00 then decide (off ≠ 0x238) && decide (off ≠ 0x240)
  else if block = 0x01 then decide (off < 0x20)
  else if block = 0x02 then decide (off = 0x08) || decide (off = 0x10) || (decide (0x40 ≤ off) && decide (off ≤ 0x60)) || decide (off = 0x78) || decide (off = 0x80)
  else if block = 0x04 then decide (off ≠ 0x48) && decide (off ≠ 0x50) && !(decide (0x140 ≤ off) && decide (off < 0x160))
  else if block = 0x08 then decide (off ≠ 0x50) && decide (off ≠ 0x58) && decide (off ≠ 0x70)
  else if block = 0x0C then decide (off = 0x08) || decide (off = 0x30) || decide (0x800 ≤ off)
  else if block = 0x10 then false
  else if block = 0x14 ∨ block = 0x15 ∨ block = 0x16 ∨ block = 0x17 then false
  else if 0x18 ≤ block ∧ block < 0x28 then true
  else if block = 0x28 then decide (off = 0) || decide (off = 0x100) || decide (off = 0x110) || decide (off = 0x118)
  else if block = 0x30 then decide (off ≠ 0x20) && decide (off ≠ 0x28)
  else if block = 0x38 then decide (off = 0x18) || decide (off = 0x40)
  else if block = 0x3C then decide (off ≠ 0x48) && decide (off ≠ 0x50)
  else false

/-- Registers that stand in the nonvolatile store, in the fuses or in the datestone log, and outlive a loss of power. -/
def keptAtLoss (a : Nat) : Bool :=
  [0x40000, 0x40010, 0x40018, 0x40020, 0x40028, 0x40030, 0x40038, 0x200, 0x208, 0xC0800, 0xC0C00, 0xC0C08, 0x3C0000, 0x3C0008, 0x3C0010].contains a ||
    (decide (0x40120 ≤ a) && decide (a < 0x40140)) || (decide (0x40200 ≤ a) && decide (a < 0x40280)) || (decide (0x20040 ≤ a) && decide (a ≤ 0x20060))

/-- The mode after an E3 (Table 14.8): the role is kept, but for SHORE, which has lost its position (Table 4.4), and BANKED, which has
woken. -/
def Mode.afterE3 (m : Mode) : Mode :=
  match m.role with
  | .shore => { m with role := .watch, fw := .boot, transit := none, waiting := [], testing := false, covering := false }
  | .banked =>
    let b := { m with role := m.bankedFrom, guestOn := m.bankedGuest, fw := .boot, transit := none, waiting := [], testing := false, covering := false }
    if b.legal then b else { b with role := .service, guestOn := false }
  | _ => { m with fw := .boot, transit := none, waiting := [], testing := false, covering := false }

/-- The block as an E3 leaves it (Table 14.8). -/
def Dev.afterE3 (d : Dev) : Dev :=
  { d with
    mode := d.mode.afterE3
    ctl := d.ctl.filter fun e => keptAtE3 e.1
    tiles := [], savedTiles := [], chans := [], counters := [], watches := [], tallies := []
    mmu := { reservedTier := d.mmu.reservedTier, farTier := d.mmu.farTier, tablePages := d.mmu.tablePages }
    sync := { nextHandle := d.sync.nextHandle, nextTag := d.sync.nextTag, ephemerals := d.sync.ephemerals }
    course := { dir := d.course.dir, held := d.course.held, highest := d.course.highest, lastStep := d.course.lastStep, mirrored := d.course.mirrored, farFull := d.course.farFull,
                ents := d.course.ents, cuts := d.course.cuts }
    shore := { plan := d.shore.plan, rewoundSent := d.shore.rewoundSent, admitted := d.shore.admitted, sentNotices := d.shore.sentNotices, beyond := d.shore.beyond,
               cfg := d.shore.cfg, sprGroup := d.shore.sprGroup, planTaken := d.shore.planTaken, cover := d.shore.cover }
    wit := { rewind := d.wit.rewind, sel := d.wit.sel, since := d.wit.since }
    obs := { d.obs with flagRestart := true, flagHalt := false, frozen := [], hits := [] }
    sec := { d.sec with pending := none, stage := {}, frags := [], asking := false }
    rst := { d.rst with active := [], waiting := [], afterE3 := true, fencing := 0, verifying := false } }

/-- The block as a loss of power leaves it: what the nonvolatile store and the flash hold. The reset counts are rebuilt from the
datestone records (R372). -/
def Dev.afterLoss (d : Dev) : Dev :=
  { ctl := d.ctl.filter fun e => keptAtLoss e.1
    circ := d.circ, found := d.found
    sec := { keys := d.sec.keys, flash := d.sec.flash, wkGen := d.sec.wkGen }
    rst := { counts := d.rst.counts }
    obs := { lifeSaved := d.obs.lifeSaved }
    clk := d.clk, free := d.free, out := d.out, status := d.status }

end Sys2Proof.Machine
end

