-- ==== Sys2Proof/Machine/Prog.lean ====
section
/-! DEFINITION. The one way a command changes the block: a program of effects, each a write of one named part of the
state, with reads of the state between them. What every effect respects (the canonical form of sparse data, the
implemented bits of a register, the legal combinations of modes), every command respects. -/

namespace Sys2Proof.Machine

/-- What an unlisted byte of memory reads as. DESIGN CHOICE: zero (notes/assumptions/3). -/
def memDflt (_ : Nat) : Byte := 0

/-- What the check word of a block nothing has written reads as: the check of 4,096 zero bytes (R137). -/
def checkDflt (_ : Nat) : W64 := 2797812426771984549

/-- The power-on value of a control register (R9). -/
def ctlDflt (a : Nat) : W64 := resetWord ctlRows a

/-- The power-on value of a register of an agent's block. -/
def agentDflt (a : Nat) : W64 := resetWord agentRows a

/-- The power-on value of a register of a tile's block. -/
def tileDflt (a : Nat) : W64 := resetWord tileRows a

/-- A tile at power-on. -/
def tileReset (_ : Nat) : Tile := {}
/-- A DMA channel at power-on. -/
def chanReset (_ : Nat) : Chan := {}
/-- A sync-unit counter at power-on. -/
def counterReset (_ : Nat) : W64 := 0
/-- The Ozmund's side of a slot at power-on. -/
def slotReset (_ : Nat) : SlotSt := {}
/-- An agent at power-on. -/
def agentReset (_ : Nat) : Agent := {}
/-- A host session's slot at power-on. -/
def hostReset (_ : Nat) : HSess := {}
/-- A port of the link layer at power-on. -/
def portReset (_ : Nat) : Port := {}
/-- The message numbers of an origin at power-on. -/
def dseqReset (_ : Nat) : DStream := {}
/-- A peer session at power-on. -/
def peerReset (_ : Nat) : PeerSess := {}

/-- A write of one named part of the block. -/
inductive Eff where
  | power (p : Power)
  | mode (m : Mode)
  | ctl (addr : Nat) (v : W64)
  | mem (addr : Nat) (bs : List Byte)
  | memClear (addr len : Nat)
  | check (block : Nat) (v : W64)
  | checkClear (block n : Nat)
  | tile (n : Nat) (t : Tile)
  | savedTile (n : Nat) (t : Tile)
  | agent (n : Nat) (a : Agent)
  | mmu (m : Mmu)
  | chan (n : Nat) (c : Chan)
  | counter (n : Nat) (v : W64)
  | watch (n : Nat) (w : Option Watch)
  | peer (n : Nat) (p : PeerSess)
  | port (n : Nat) (p : Port)
  | dseq (o : Nat) (x : DStream)
  | xcn (x : Xcn)
  | sync (s : Sync)
  | host (n : Nat) (h : HSess)
  | circ (slot : Nat) (r : DRec)
  | found (r : DRec)
  | obs (o : Obs)
  | tally (n : Nat) (v : W64)
  | sec (x : Sec)
  | job (x : Job)
  | course (x : CourseSt)
  | shore (x : ShoreSt)
  | wit (x : WitSt)
  | slot (n : Nat) (x : SlotSt)
  | start (x : StartSt)
  | hold (x : PartnerHold)
  | rst (x : ResetSt)
  | clk (t : Nat)
  | podTime (t : Nat)
  | status (st : Nat)
  | draw (n : Nat)
  | emit (m : Msg)
  /-- The chip is reset (E3). -/
  | chipReset
  /-- Power is lost. -/
  | powerLoss

/-- What an effect does. A register keeps only its implemented bits (R11), and a mode that Table 17.2 does not allow is
never held (R424). -/
def Eff.apply (e : Eff) (d : Dev) : Dev :=
  match e with
  | .power p => { d with power := p }
  | .mode m => if m.legal then { d with mode := m } else d
  | .ctl a v => { d with ctl := Store.put ctlDflt d.ctl a (v &&& implMask ctlRows a) }
  | .mem a bs => { d with mem := Store.putAll memDflt d.mem a bs }
  | .memClear a n => { d with mem := Store.clearRange d.mem a n }
  | .check b v => { d with checks := Store.put checkDflt d.checks b v }
  | .checkClear b n => { d with checks := Store.clearRange d.checks b n }
  | .tile n t => { d with tiles := Store.put tileReset d.tiles n t }
  | .savedTile n t => { d with savedTiles := Store.put tileReset d.savedTiles n t }
  | .agent n a => { d with agents := Store.put agentReset d.agents n a }
  | .mmu m => { d with mmu := m }
  | .chan n c => { d with chans := Store.put chanReset d.chans n c }
  | .counter n v => { d with counters := Store.put counterReset d.counters n v }
  | .watch n w => match w with
    | some x => { d with watches := Store.insert d.watches n x }
    | none => { d with watches := Store.remove d.watches n }
  | .peer n p => { d with peers := Store.put peerReset d.peers n p }
  | .port n p => { d with ports := Store.put portReset d.ports n p }
  | .dseq o x => { d with dseq := Store.put dseqReset d.dseq o x }
  | .xcn x => { d with xcn := x }
  | .sync s => { d with sync := s }
  | .host n h => { d with hosts := Store.put hostReset d.hosts n h }
  | .circ k r => { d with circ := Store.insert d.circ k r }
  | .found r => { d with found := d.found ++ [r] }
  | .obs o => { d with obs := o }
  | .tally n v => { d with tallies := Store.put counterReset d.tallies n v }
  | .sec x => { d with sec := x }
  | .job x => { d with job := x }
  | .course x => { d with course := x }
  | .shore x => { d with shore := x }
  | .wit x => { d with wit := x }
  | .slot n x => { d with slots := Store.put slotReset d.slots n x }
  | .start x => { d with start := x }
  | .hold x => { d with hold := x }
  | .rst x => { d with rst := x }
  | .clk t => { d with clk := t }
  | .podTime t => { d with podTime := t }
  | .status st => { d with status := st }
  | .draw n => { d with free := d.free + n }
  | .emit m => { d with out := d.out ++ [m] }
  | .chipReset => d.afterE3
  | .powerLoss => d.afterLoss

/-- A program of effects. -/
inductive Prog where
  | done
  | act (e : Eff)
  | seq (p q : Prog)
  | look (f : Dev → Prog)

/-- Runs a program on the block. -/
def Prog.run : Prog → Dev → Dev
  | .done, d => d
  | .act e, d => e.apply d
  | .seq p q, d => q.run (p.run d)
  | .look f, d => (f d).run d

/-- A list of programs, one after the other. -/
def all : List Prog → Prog
  | [] => .done
  | p :: ps => .seq p (all ps)

/-- A program under a condition. -/
def when (c : Bool) (p : Prog) : Prog := if c then p else .done

/-- One program for each element of a list, in order. -/
def each {α : Type} (xs : List α) (f : α → Prog) : Prog := all (xs.map f)

/-- A command that runs whatever the state of the part: it takes the next state its program leaves, and does not touch
the queue. -/
def State.run (p : Prog) (s : State) : Host.Outcome State Fault Refusal :=
  .next { s with dev := p.run s.dev }

/-- The Ozmund is out of reset: supplies good, and REFCLK present, or the fence of its reset still running on the holdover clocks (R434,
R439). A thermal trip ends in the loss of power (R450). -/
def Dev.up (d : Dev) : Bool := d.power.pwrok && !d.power.tripped && (d.power.ref || decide (d.rst.fencing ≠ 0))

/-- A command of the Ozmund itself: held in reset, the Ozmund takes none (R434). -/
def State.runUp (p : Prog) (s : State) : Host.Outcome State Fault Refusal :=
  s.run (.look fun d => when d.up p)

/-- A command of an engine that a global halt freezes (R410): it is held, and runs after the release. -/
def State.runEngine (c : Instr) (p : Prog) (s : State) : Host.Outcome State Fault Refusal :=
  s.runUp <| .look fun d =>
    if TAL_HALT_HALTED.of (Store.get ctlDflt d.ctl TAL_HALT_HALTED.addr) = 1 then
      .act (.obs { d.obs with frozen := d.obs.frozen ++ [c] })
    else p

/-! ## Registers -/

/-- A control register's word. -/
def Dev.word (d : Dev) (a : Nat) : W64 := Store.get ctlDflt d.ctl a

/-- A control register field's value. -/
def Dev.get (d : Dev) (f : Fld) : Nat := f.of (d.word f.addr)

/-- Whether a one-bit field is 1. -/
def Dev.on (d : Dev) (f : Fld) : Bool := decide (d.get f = 1)

/-- Writes a control register field, whatever its access type: the device's own write. -/
def put (f : Fld) (v : Nat) : Prog := .look fun d => .act (.ctl f.addr (f.into (d.word f.addr) v))

/-- Adds to a saturating count field. -/
def bump (f : Fld) (n : Nat := 1) : Prog := .look fun d => put f (satAdd f.width (d.get f) n)

/-- Sends. -/
def send (dest : Dest) (k : Kind) (args : List Nat := []) (data : List Byte := []) : Prog :=
  .act (.emit { dest := dest, kind := k, args := args, data := data })

/-- The status of Table 0.5 with which a register write completes. -/
def complete (st : Nat) : Prog := .act (.status st)

/-- The status codes of Table 0.5. -/
def stOK : Nat := 0
def stFENCED : Nat := 1
def stRETRY : Nat := 2
def stLENGTH : Nat := 3
def stEPOCH : Nat := 4
def stAUTH : Nat := 5
def stFAULT : Nat := 6
def stABANDONED : Nat := 7
def stUNSUPPORTED : Nat := 8
def stBUSY : Nat := 9

/-! ## Parts of the block -/

/-- A tile. -/
def Dev.tile (d : Dev) (n : Nat) : Tile := Store.get tileReset d.tiles n
/-- A DMA channel. -/
def Dev.chan (d : Dev) (n : Nat) : Chan := Store.get chanReset d.chans n
/-- A sync-unit counter. -/
def Dev.counter (d : Dev) (n : Nat) : W64 := Store.get counterReset d.counters n
/-- A peer session. -/
def Dev.peer (d : Dev) (n : Nat) : PeerSess := Store.get peerReset d.peers n
/-- A host session. -/
def Dev.host (d : Dev) (n : Nat) : HSess := Store.get hostReset d.hosts n
/-- Bytes of memory. -/
def Dev.bytes (d : Dev) (a n : Nat) : List Byte := Store.getAll memDflt d.mem a n
/-- A little-endian number in memory (R6). -/
def Dev.mem64 (d : Dev) (a n : Nat) : Nat := (d.bytes a n).foldr (fun b v => b.toNat + 256 * v) 0

/-- A field of a tile's register block. -/
def Tile.get (t : Tile) (f : Fld) : Nat := f.of (Store.get tileDflt t.regs f.addr)
/-- Writes a field of a tile's register block. -/
def Tile.set (t : Tile) (f : Fld) (v : Nat) : Tile :=
  { t with regs := Store.put tileDflt t.regs f.addr (f.into (Store.get tileDflt t.regs f.addr) v) }
/-- Whether a one-bit field of a tile's block is 1. -/
def Tile.on (t : Tile) (f : Fld) : Bool := decide (t.get f = 1)

/-- Changes a tile. -/
def modTile (n : Nat) (f : Tile → Tile) : Prog := .look fun d => .act (.tile n (f (d.tile n)))
/-- The agent of a slot. -/
def Dev.agent (d : Dev) (n : Nat) : Agent := Store.get agentReset d.agents n
/-- A field of an agent's register block. -/
def Agent.get (a : Agent) (f : Fld) : Nat := f.of (Store.get agentDflt a.regs f.addr)
/-- Writes a field of an agent's register block. -/
def Agent.set (a : Agent) (f : Fld) (v : Nat) : Agent :=
  { a with regs := Store.put agentDflt a.regs f.addr (f.into (Store.get agentDflt a.regs f.addr) v) }
/-- Whether a one-bit field of an agent's block is 1. -/
def Agent.on (a : Agent) (f : Fld) : Bool := decide (a.get f = 1)
/-- Changes an agent. -/
def modAgent (n : Nat) (f : Agent → Agent) : Prog := .look fun d => .act (.agent n (f (d.agent n)))
/-- Changes the MMU's part. -/
def modMmu (f : Mmu → Mmu) : Prog := .look fun d => .act (.mmu (f d.mmu))
/-- Changes a channel. -/
def modChan (n : Nat) (f : Chan → Chan) : Prog := .look fun d => .act (.chan n (f (d.chan n)))
/-- Changes the sync unit's part. -/
def modSync (f : Sync → Sync) : Prog := .look fun d => .act (.sync (f d.sync))
/-- Changes a peer session. -/
def modPeer (n : Nat) (f : PeerSess → PeerSess) : Prog := .look fun d => .act (.peer n (f (d.peer n)))
/-- A port of the link layer. -/
def Dev.port (d : Dev) (n : Nat) : Port := Store.get portReset d.ports n
/-- Changes a port. -/
def modPort (n : Nat) (f : Port → Port) : Prog := .look fun d => .act (.port n (f (d.port n)))
/-- The message numbers of an origin. -/
def Dev.stream (d : Dev) (o : Nat) : DStream := Store.get dseqReset d.dseq o
/-- Changes them. -/
def modStream (o : Nat) (f : DStream → DStream) : Prog := .look fun d => .act (.dseq o (f (d.stream o)))
/-- Changes the crossconnect's part. -/
def modXcn (f : Xcn → Xcn) : Prog := .look fun d => .act (.xcn (f d.xcn))
/-- Changes a host session. -/
def modHost (n : Nat) (f : HSess → HSess) : Prog := .look fun d => .act (.host n (f (d.host n)))
/-- Changes the recorder, tally and halt part. -/
def modObs (f : Obs → Obs) : Prog := .look fun d => .act (.obs (f d.obs))
/-- Adds to an event counter of Table 16.2, modulo 2⁶⁴ (R405). -/
def tally (n k : Nat) : Prog := .look fun d => .act (.tally n (Store.get counterReset d.tallies n + BitVec.ofNat 64 k))
/-- Bytes moved in a class of Table 9.13. -/
def tallyClass (c n : Nat) : Prog := tally (1360 + c) n
/-- Counter `k` of a slot's group. -/
def tallySlot (n k v : Nat) : Prog := tally (1536 + 32 * n + k) v
/-- Changes the security block. -/
def modSec (f : Sec → Sec) : Prog := .look fun d => .act (.sec (f d.sec))
/-- Changes a part of the state. -/
def modJob (f : Job → Job) : Prog := .look fun d => .act (.job (f d.job))
/-- Changes a part of the state. -/
def modCourse (f : CourseSt → CourseSt) : Prog := .look fun d => .act (.course (f d.course))
/-- Changes a part of the state. -/
def modShore (f : ShoreSt → ShoreSt) : Prog := .look fun d => .act (.shore (f d.shore))
/-- Changes a part of the state. -/
def modWit (f : WitSt → WitSt) : Prog := .look fun d => .act (.wit (f d.wit))
/-- Changes a part of the state. -/
def modStart (f : StartSt → StartSt) : Prog := .look fun d => .act (.start (f d.start))
/-- Changes a part of the state. -/
def modHold (f : PartnerHold → PartnerHold) : Prog := .look fun d => .act (.hold (f d.hold))
/-- Changes a part of the state. -/
def modRst (f : ResetSt → ResetSt) : Prog := .look fun d => .act (.rst (f d.rst))
/-- The Ozmund's side of a slot. -/
def Dev.slot (d : Dev) (n : Nat) : SlotSt := Store.get slotReset d.slots n
/-- Changes the Ozmund's side of a slot. -/
def modSlot (n : Nat) (f : SlotSt → SlotSt) : Prog := .look fun d => .act (.slot n (f (d.slot n)))
/-- Changes the mode. -/
def modMode (f : Mode → Mode) : Prog := .look fun d => .act (.mode (f d.mode))
/-- Changes the power state. -/
def modPower (f : Power → Power) : Prog := .look fun d => .act (.power (f d.power))

/-- Draws `n` free values, the i-th as a function of i. -/
def withFrees (n : Nat) (f : (Nat → W64) → Prog) : Prog :=
  .look fun d => .seq (.act (.draw n)) (f fun i => Config.freeWord (d.free + i))

/-- Draws a free value: one the spec leaves open. -/
def withFree (f : W64 → Prog) : Prog :=
  .look fun d => .seq (.act (.draw 1)) (f (Config.freeWord d.free))

end Sys2Proof.Machine
end

