-- ==== Sys2Proof/Machine/Memory.lean ====
section
/-! DEFINITION. Physical memory (Table 9.1), block checks (R137, R245), and address translation (R246 to R251). -/

namespace Sys2Proof.Machine

/-! ## The physical map -/

/-- Starts of the windows of Table 9.1, of the areas of Tables 9.3 and 9.4, and sizes. -/
def hbmTop : Nat := 0x016580000000
def hbmCheckBase : Nat := 0x0164C0000000
def cacheBase : Nat := 0x000400000000
def ddrBase : Nat := 0x100000000000
def tileStoreBase : Nat := 0x200000000000
def tileStoreSize : Nat := 0x1800000
def ctlPhysBase : Nat := 0x300000000000
def pageTableBase : Nat := 0x40000000
def pageTableTop : Nat := 0x80000000
def manifestBase : Nat := 0x80000000
def systemTop : Nat := 0x000400000000
def tallyRingBase : Nat := 0x000100000000
def partnerMirrorBase : Nat := 0x000140000000
def saveAreaBase : Nat := 0x000200000000
def pageBytes : Nat := 0x200000
def gib : Nat := 0x40000000

/-- The tile-store byte at an offset, as a physical address (Table 9.1). -/
def tileByte (t off : Nat) : Nat := tileStoreBase + t * 0x2000000 + off

/-- The host memory of a slot, as addresses of the model's memory. -/
def hostByte (slot a : Nat) : Nat := 2 ^ 64 * (slot + 1) + a

/-- Start and end of the course cache, the shore reserve and the guest quota (R236, Table 9.3). -/
def Dev.reserveBase (d : Dev) : Nat := cacheBase + d.get MMU_PART_CACHE_GIB * gib
def Dev.quotaBase (d : Dev) : Nat := d.reserveBase + d.get MMU_PART_SHORE_GIB * gib
def Dev.quotaTop (d : Dev) : Nat := d.quotaBase + d.get MMU_PART_GUEST_GIB * gib

/-- The channels interleaved, in ascending order: those that passed training (R242). -/
def Dev.ddrChannels (d : Dev) : List Nat :=
  (List.range 24).filter fun n => d.get (MEM_DDR_CH_STATE n) = 1 || d.get (MEM_DDR_CH_STATE n) = 3

/-- Pages of a channel, ⌊DIMM bytes ÷ 2²¹⌋ (R242). -/
def Dev.ddrPages (d : Dev) : Nat := d.get MEM_DDR_CFG_DIMM_GB * 1000000000 / pageBytes

/-- Data pages of the tier, n × D (R242). -/
def Dev.ddrDataPages (d : Dev) : Nat := d.get MEM_DDR_CFG_N * d.get MEM_DDR_CFG_D

/-- Data pages on channels still UP, which the capacity tests count (R241). -/
def Dev.ddrUpPages (d : Dev) : Nat :=
  ((List.range 24).filter fun n => d.get (MEM_DDR_CH_STATE n) = 1).length * d.get MEM_DDR_CFG_D

/-- The physical address of tier page `p` (R242). -/
def tierPage (p : Nat) : Nat := ddrBase + p * pageBytes

/-- What a physical address names (Table 9.1). -/
inductive Phys where
  | hbm
  | hbmCheck
  | ddr (channel : Nat)
  | ddrCheck (channel : Nat)
  | tile (n : Nat)
  | ctl
  | none
deriving DecidableEq, Repr

/-- Places a physical address in the map of Table 9.1; `none` outside its populated parts (R233). -/
def Dev.phys (d : Dev) (a : Nat) : Phys :=
  if a < hbmCheckBase then .hbm
  else if a < hbmTop then .hbmCheck
  else if ddrBase ≤ a ∧ a < tileStoreBase then
    let n := d.get MEM_DDR_CFG_N
    let p := (a - ddrBase) / pageBytes
    if n = 0 then .none
    else
      let ch := d.ddrChannels.getD (p % n) 0
      let q := p / n
      if q < d.get MEM_DDR_CFG_D then .ddr ch
      else if q < d.ddrPages then .ddrCheck ch
      else .none
  else if tileStoreBase ≤ a ∧ a < tileStoreBase + 0x200000000 then
    let o := (a - tileStoreBase) % 0x2000000
    if o < tileStoreSize then .tile ((a - tileStoreBase) / 0x2000000) else .none
  else if ctlPhysBase ≤ a ∧ a < ctlPhysBase + 0x800000 then .ctl
  else .none

/-- Whether an access to a physical address succeeds: populated, and not on a channel taken OUT (R233, R241). -/
def Dev.physOk (d : Dev) (a : Nat) : Bool :=
  match d.phys a with
  | .none | .ctl => false
  | .ddr ch | .ddrCheck ch => decide (d.get (MEM_DDR_CH_STATE ch) ≠ 3)
  | _ => true

/-- The block whose check word the check-region address holds (R245): block numbers count 4 KiB of physical space. -/
def Dev.checkBlockOf (d : Dev) (a : Nat) : Option Nat :=
  match d.phys a with
  | .hbmCheck => some ((a - hbmCheckBase) / 8)
  | .ddrCheck _ =>
    let n := d.get MEM_DDR_CFG_N
    let p := (a - ddrBase) / pageBytes
    let o := (a - ddrBase) % pageBytes
    let q := (p / n - d.get MEM_DDR_CFG_D) * 512 + o / 4096
    some (tierPage (q * n + p % n) / 4096 + o % 4096 / 8)
  | _ => none

/-- The check word of a block (R137). -/
def Dev.check (d : Dev) (block : Nat) : W64 := Store.get checkDflt d.checks block

/-- A byte of physical memory; the check region and the check pages give the check words. -/
def Dev.physByte (d : Dev) (a : Nat) : Byte :=
  match d.checkBlockOf a with
  | some b => BitVec.ofNat 8 ((d.check b).toNat / 256 ^ (a % 8))
  | none => Store.get memDflt d.mem a

/-- `n` bytes of physical memory. -/
def Dev.physBytes (d : Dev) (a n : Nat) : List Byte := (List.range n).map fun i => d.physByte (a + i)

/-- Whether a block of HBM or of the tier agrees with its check word (R137, R138). Blocks of the check region carry no
check words. -/
def Dev.blockOk (d : Dev) (a : Nat) : Bool :=
  match d.phys a with
  | .hbm | .ddr _ => decide (crc64 (d.bytes (a / 4096 * 4096) 4096) = (d.check (a / 4096)).toNat)
  | _ => true

/-- Recomputes the check of one block from its bytes (R137). -/
def reCheck (block : Nat) : Prog :=
  .look fun d => .act (.check block (BitVec.ofNat 64 (crc64 (d.bytes (block * 4096) 4096))))

/-- The blocks a run of bytes touches. -/
def blocksOf (a n : Nat) : List Nat :=
  if n = 0 then [] else (List.range ((a + n - 1) / 4096 - a / 4096 + 1)).map (a / 4096 + ·)

/-- Whether every block of a run agrees with its check word (R137). -/
def Dev.runOk (d : Dev) (a n : Nat) : Bool := (blocksOf a n).all fun b => d.blockOk (b * 4096)

/-- Writes bytes of a check word (context 0 may address the check region). -/
def writeCheckByte (a : Nat) (b : Byte) : Prog :=
  .look fun d =>
    match d.checkBlockOf a with
    | some blk =>
      let w := (d.check blk).toNat
      let k := 256 ^ (a % 8)
      .act (.check blk (BitVec.ofNat 64 (w - w / k % 256 * k + b.toNat * k)))
    | none => .done

/-- Writes bytes of one populated area: HBM and tier blocks get fresh check words (R137); tile stores have none. -/
def writePhys (a : Nat) (bs : List Byte) : Prog :=
  .look fun d =>
    match d.phys a with
    | .hbm | .ddr _ => all [.act (.mem a bs), each (blocksOf a bs.length) reCheck]
    | .tile _ => .act (.mem a bs)
    | .hbmCheck | .ddrCheck _ => each (bs.zipIdx) fun e => writeCheckByte (a + e.2) e.1
    | _ => .done

/-- Writes a little-endian number. -/
def writePhysNat (a n v : Nat) : Prog := writePhys a (leBytes n v)

/-- Fills a range with zeros, with the check words of zero blocks (the ZERO descriptor of R250). The range is whole
4 KiB blocks. -/
def zeroPhys (a n : Nat) : Prog := all [.act (.memClear a n), .act (.checkClear (a / 4096) (n / 4096))]

/-- Copies whole 4 KiB blocks, each with its check word (R137). -/
def copyPhys (src dst n : Nat) : Prog :=
  .look fun d => .seq (.act (.mem dst (d.bytes src n)))
    (each (List.range ((n + 4095) / 4096)) fun i => .act (.check (dst / 4096 + i) (d.check (src / 4096 + i))))

/-- Copies a run of bytes within the model's memory (tile stores, host memory), with no check words. -/
def copyRaw (src dst n : Nat) : Prog := .look fun d => .act (.mem dst (d.bytes src n))

/-! ## Translation -/

/-- The outcome of a translation: a physical address with the address of the leaf entry, or a fault cause of
Table 9.9. -/
inductive Xlat where
  | ok (pa leaf : Nat)
  | fault (cause : Nat)
deriving DecidableEq, Repr

/-- Table 9.9. -/
def fUNMAPPED : Nat := 1
def fWRITE : Nat := 2
def fPROT : Nat := 3
def fTRANSIT : Nat := 4
def fTIER : Nat := 5
def fFORMAT : Nat := 6
def fCHECK : Nat := 7
def fPHYS : Nat := 8
def fCONTEXT : Nat := 9

/-- Bits of a table entry (Table 9.8). -/
def entBit (e b : Nat) : Bool := decide (e / 2 ^ b % 2 = 1)
/-- The physical address in a table entry. -/
def entAddr (e : Nat) : Nat := e / 2 ^ 12 % 2 ^ 40 * 2 ^ 12

/-- Whether a context may map a physical page (Table 9.6); check pages belong to context 0 alone (R245). -/
def Dev.mayMap (d : Dev) (ctx pa : Nat) : Bool :=
  match d.phys pa with
  | .hbm => decide (ctx ≤ 3) || (decide (d.quotaBase ≤ pa) && decide (pa < d.quotaTop))
  | .ddr _ => decide (3 ≤ ctx)
  | .none => true -- the access then faults with PHYS
  | _ => false

/-- Whether a context may map every page of a leaf (R245, R248). -/
def Dev.mayMapAll (d : Dev) (ctx base size : Nat) : Bool :=
  (List.range (size / pageBytes)).all fun i => d.mayMap ctx (base + i * pageBytes)

/-- The checks of a leaf entry for one access (R248, R251, R252). DESIGN CHOICE (notes/assumptions/215): where several causes apply, FORMAT
comes first, then TRANSIT, WRITE, PROT, TIER and PHYS; and an entry with V = 0 is UNMAPPED whatever its other bits. -/
def Dev.leafAccess (d : Dev) (ctx va : Nat) (write direct : Bool) (ent entAt level : Nat) : Xlat :=
  let size := if level = 3 then 0x40000000 else 0x200000
  let base := entAddr ent
  if base % size ≠ 0 ∨ (level = 3 ∧ entBit ent 4) ∨ !(d.mayMapAll ctx base size) then .fault fFORMAT
  else if entBit ent 3 then .fault fTRANSIT
  else if write && !(entBit ent 2) then .fault fWRITE
  else if write && entBit ent 4 then .fault fPROT
  else
    let pa := base + va % size
    if direct && (match d.phys pa with | .ddr _ => true | _ => false) then .fault fTIER
    else if d.physOk pa then .ok pa entAt
    else .fault fPHYS

/-- The walk from a table at a level: 0 root, 1–4 (Table 9.7); the fuel is the levels left. -/
def Dev.walk (d : Dev) (ctx va : Nat) (write direct : Bool) : Nat → Nat → Nat → Xlat
  | 0, _, _ => .fault fFORMAT
  | fuel + 1, level, table =>
    let idx := if level = 0 then va / 2 ^ 57 % 128 else va / 2 ^ (48 - 9 * (level - 1)) % 512
    let at_ := table + 8 * idx
    if table < pageTableBase ∨ pageTableTop ≤ at_ then .fault fFORMAT
    else if !(d.blockOk at_) then .fault fCHECK
    else
      let e := d.mem64 at_ 8
      if !(entBit e 0) then .fault fUNMAPPED
      else if e / 2 ^ 8 % 16 ≠ 0 then .fault fFORMAT
      else if entBit e 1 then
        (if level = 3 ∨ level = 4 then d.leafAccess ctx va write direct e at_ level else .fault fFORMAT)
      else if level = 4 then .fault fFORMAT
      else d.walk ctx va write direct fuel (level + 1) (entAddr e)

/-- Translates one access (R246 to R252). `direct` is a direct MV transfer, which touches HBM alone (R251). -/
def Dev.translate (d : Dev) (ctx va : Nat) (write direct : Bool) : Xlat :=
  if ctx = 0 then
    (if direct && (match d.phys va with | .ddr _ => true | _ => false) then .fault fTIER
     else if d.physOk va then .ok va 0 else .fault fPHYS)
  else if d.get (MMU_ROOT_VALID ctx) = 0 then .fault fCONTEXT
  else d.walk ctx va write direct 5 0 (d.get (MMU_ROOT_ROOT ctx) * 1024)

/-- The MMU's own update of a leaf entry in the step of an access: A set; on a write D set and SHADOW cleared
(R249). -/
def touchLeaf (leaf : Nat) (write : Bool) : Prog :=
  .look fun d =>
    if leaf = 0 then .done
    else
      let e := d.mem64 leaf 8
      let e1 := e ||| 0x20
      let e2 := if write then (e1 ||| 0x40) &&& (2 ^ 64 - 1 - 0x80) else e1
      when (decide (e2 ≠ e)) (writePhysNat leaf 8 e2)

/-- Whether the leaf that maps a virtual page stands, and where: walks without access checks. -/
def Dev.leafOf (d : Dev) (ctx va : Nat) : Option Nat :=
  match d.translate ctx va false false with
  | .ok _ leaf => some leaf
  | .fault _ => none

/-- A page for a new table: the next of the page-table area (Table 9.4), zero. -/
def newTable (f : Nat → Prog) : Prog :=
  .look fun d =>
    let a := pageTableBase + d.mmu.tablePages * 4096
    all [modMmu fun m => { m with tablePages := m.tablePages + 1 }, zeroPhys a 4096, f a]

/-- Walks down to the L4 table for an address, making the tables that are missing, then runs `f` with the address of
the L4 entry. -/
def withLeaf (ctx va : Nat) (f : Nat → Prog) : Nat → Nat → Nat → Prog
  | 0, _, _ => .done
  | fuel + 1, level, table =>
    let idx := if level = 0 then va / 2 ^ 57 % 128 else va / 2 ^ (48 - 9 * (level - 1)) % 512
    let at_ := table + 8 * idx
    if level = 4 then f at_
    else .look fun d =>
      let e := d.mem64 at_ 8
      if entBit e 0 then withLeaf ctx va f fuel (level + 1) (entAddr e)
      else newTable fun a =>
        .seq (writePhysNat at_ 8 (a + 1)) (withLeaf ctx va f fuel (level + 1) a)

/-- Maps a 2 MiB page in a context: V, LEAF, W and the given further bits (R247, Table 9.8). A context with no root
table gets one. -/
def mapPage (ctx va pa flags : Nat) : Prog :=
  .seq
    (.look fun d => when (decide (d.get (MMU_ROOT_ROOT ctx) = 0 ∧ d.get (MMU_ROOT_VALID ctx) = 0))
      (newTable fun a => .seq (put (MMU_ROOT_ROOT ctx) (a / 1024)) (put (MMU_ROOT_VALID ctx) 1)))
    (.look fun d => withLeaf ctx va (fun at_ => writePhysNat at_ 8 (pa + 0x7 + flags)) 5 0 (d.get (MMU_ROOT_ROOT ctx) * 1024))

/-- Replaces the leaf entry of a virtual page by a function of it. -/
def editLeaf (ctx va : Nat) (f : Nat → Nat) : Prog :=
  .look fun d => withLeaf ctx va (fun at_ => .look fun d' => writePhysNat at_ 8 (f (d'.mem64 at_ 8))) 5 0
    (d.get (MMU_ROOT_ROOT ctx) * 1024)

end Sys2Proof.Machine
end

