-- ==== Sys2Proof/Machine/Ops.lean ====
section
/-! DEFINITION. Operations that many commands share: event notices (R335), datestone records (R415 to R417), host
answers (R326 to R329), and role changes (R22 to R27). -/

namespace Sys2Proof.Machine

/-! ## Numbers as bytes -/

/-- Fields in order, each of a width in bytes, little-endian (R6). -/
def pack (fs : List (Nat × Nat)) : List Byte := (fs.map fun f => leBytes f.1 f.2).flatten

/-- `n` bytes of a list from an offset, as a little-endian number; bytes beyond its end read 0. -/
def numAt (bs : List Byte) (off n : Nat) : Nat := leNat ((bs.drop off).take n)

/-! ## The packets of a session -/

/-- The state of a session's slot, and the number of the session in it (R325). -/
def Dev.hState (d : Dev) (n : Nat) : Nat := d.get (HST_SESS_STATE n)
def Dev.hNumber (d : Dev) (n : Nat) : Nat := n + 16 * (d.host n).opens

/-- A session's slot is freed (R325); the count of its openings stays. -/
def freeHost (n : Nat) : Prog := .seq (modHost n fun h => { opens := h.opens }) (.act (.ctl (HST_SESS_STATE n).addr 0))

/-- A datagram of session slot `n` (R319 to R321, Tables 12.1 and 12.4): the envelope, and the header, payload and CRC-32C sealed under it with
the salt and the CTR as the nonce. -/
def Dev.sealed (d : Dev) (n ctr ack : Nat) (p : OutPkt) : List Byte :=
  let h := d.host n
  let sid := n + 16 * h.opens
  let env := pack [(4, sid), (4, 0), (8, ctr)]
  let inner := pack [(1, 1), (1, p.ty), (2, p.flags + 4), (4, p.epoch), (4, sid), (4, p.seq), (8, p.target), (2, p.data.length), (1, p.status), (1, 0), (4, p.ref),
    (4, ack), (4, p.pkts), (8, p.arg)] ++ p.data
  env ++ Config.gcmSeal h.keyOut (h.saltOut ++ leBytes 8 ctr) env (inner ++ leBytes 4 (crc32c inner))

/-- The 802.1Q tag of what leaves, as HST_NET gives: 0x1000 plus the identifier, or 0 for none (R316). -/
def Dev.vlanTag (d : Dev) : Nat := if d.get HST_NET_VLAN = 1 then 4096 + d.get HST_NET_VID else 0

/-- A datagram of a session leaves with the next CTR (R321), on the port and to the address and UDP port of the latest authenticated one (R317).
Fields: CTR, TYPE, flags (Table 12.4, bits 15:0), EPOCH, SEQ, TARGET, STATUS, REF, ACK, PKTS, ARG, and port, address, UDP port, tag. -/
def sendDatagram (n : Nat) (p : OutPkt) : Prog :=
  .look fun d =>
    let h := d.host n
    all [modHost n fun h => { h with ctrOut := h.ctrOut + 1, sinceAck := 0 },
      tally 1473 1,
      send (.host n) Kind.setoutPacket
        [h.ctrOut + 1, p.ty, p.flags + 4, p.epoch, p.seq, p.target, p.status, p.ref, (d.get (HST_SESS_SEQ_IN n) + 2 ^ 32 - 1) % 2 ^ 32, p.pkts, p.arg,
          d.get (HST_SESS_PORT n), h.srcAddr, h.srcPort, d.vlanTag]
        (d.sealed n (h.ctrOut + 1) ((d.get (HST_SESS_SEQ_IN n) + 2 ^ 32 - 1) % 2 ^ 32) p)]

/-- The Ozmund closes a session with a status: CLOSE, and the slot is free (R321, R325). -/
def closeHost (n st : Nat) : Prog :=
  .look fun d => .seq (sendDatagram n ⟨(d.host n).seqOut, 3, 3, d.get HUB_ROLE_JOB_EPOCH, 0, st, 0, 1, 0, []⟩) (freeHost n)

/-- A packet leaves on a session; the datagram whose CTR would be the last below 2³² closes the session instead (R321). -/
def sendPkt (n : Nat) (p : OutPkt) : Prog :=
  .look fun d => if 2 ^ 32 ≤ (d.host n).ctrOut + 1 then closeHost n 5 else sendDatagram n p

/-- The payload of an EVENT transfer (R335). -/
def EventNote.bytes (e : EventNote) : List Byte :=
  pack [(8, e.src), (8, e.bits), (8, e.time), (2, e.detail.length), (1, if e.coalesced then 1 else 0), (5, 0)] ++ e.detail

/-- Sends what waits on a session while the window of R327 has room: answers first, in order, then events. -/
def pumpSession (n : Nat) : Nat → Prog
  | 0 => .done
  | fuel + 1 =>
    .look fun d =>
      let h := d.host n
      if h.window ≤ h.unacked.length then .done
      else match h.waiting, h.events with
        | p :: ps, _ =>
          all [modHost n fun h => { h with waiting := ps, unacked := h.unacked ++ [p] }, sendPkt n p, pumpSession n fuel]
        | [], e :: es =>
          let p : OutPkt := ⟨h.seqOut, 6, 3, d.get HUB_ROLE_JOB_EPOCH, 0, 0, 0, 1, 0, e.bytes⟩
          all [modHost n fun h => { h with events := es, unacked := h.unacked ++ [p], seqOut := (h.seqOut + 1) % 2 ^ 32 },
            put (HST_SESS_EVQ n) es.length, sendPkt n p, pumpSession n fuel]
        | [], [] => .done

/-- Sends what the window of a session admits. -/
def pump (n : Nat) : Prog :=
  .look fun d => pumpSession n ((d.host n).waiting.length + (d.host n).events.length)

/-- The packets of an answer transfer (R329): REF is the request's SEQ, TARGET the place of each packet's first byte;
the last carries the status and, in ARG, the bytes delivered or the type's own value. -/
def answerPkts (seq epoch target status ref arg total : Nat) : Nat → List (List Byte) → List OutPkt
  | _, [] => []
  | i, c :: cs =>
    { seq := (seq + i) % 2 ^ 32, ty := 5, flags := (if i = 0 then 1 else 0) + (if cs.isEmpty then 2 else 0),
      epoch := epoch, target := target + 8192 * i, status := if cs.isEmpty then status else 0, ref := ref,
      pkts := if i = 0 then total else 0, arg := if cs.isEmpty then arg else 0, data := c } ::
    answerPkts seq epoch target status ref arg total (i + 1) cs

/-- Answers a host's request with one RESP transfer (R329, R332); a read that fails midway ends with a packet without payload. An answer to a session that has ended is discarded
(R325). -/
def answer (n ref target status arg : Nat) (data : List Byte := []) : Prog :=
  .look fun d =>
    if d.get (HST_SESS_STATE n) ≠ 2 then .done
    else
      let whole := if data.isEmpty then [[]] else chunks 8192 data.length data |>.filter (fun c => !c.isEmpty)
      let cs := if status ≠ stOK ∧ !data.isEmpty then whole ++ [[]] else whole
      let ps := answerPkts (d.host n).seqOut (d.get HUB_ROLE_JOB_EPOCH) target status ref arg cs.length 0 cs
      .seq (modHost n fun h =>
        { h with seqOut := (h.seqOut + ps.length) % 2 ^ 32, waiting := h.waiting ++ ps }) (pump n)

/-! ## Register writes (R10 to R12, Table 0.4) -/

/-- A write to a control register with no effect beyond its fields: each by its access type; a touched PK field answers
AUTH and keeps its value. -/
def writePlain (a : Nat) (v : W64) : Prog :=
  .look fun d => .seq (.act (.ctl a (writtenWord ctlRows a (d.word a) v)))
    (complete (if touchesPK ctlRows a (d.word a) v then stAUTH else stOK))

/-- The value a write carries for a field. -/
def Fld.val (f : Fld) (v : W64) : Nat := f.of v

/-! ## Event notices (R335) -/

/-- Joins an event to the one that waits for its source, or puts it in the queue (R335). -/
def joinEvent (e : EventNote) : List EventNote → List EventNote
  | [] => [e]
  | x :: xs =>
    if x.src = e.src then { x with bits := x.bits ||| e.bits, coalesced := true } :: xs
    else x :: joinEvent e xs

/-- An event notice on one session. -/
def noticeTo (n : Nat) (src bits : Nat) (detail : List Byte := []) : Prog :=
  .look fun d =>
    when (decide (d.get (HST_SESS_STATE n) = 2)) <|
      let e : EventNote := { src := src, bits := bits, time := d.podTime, detail := detail }
      all [modHost n fun h => { h with events := joinEvent e h.events },
        .look fun d => put (HST_SESS_EVQ n) (d.host n).events.length, pump n]

/-- An event notice to every OPEN session that asked for EVENTS (R335). -/
def notice (src bits : Nat) (detail : List Byte := []) : Prog :=
  each (List.range 16) fun n => .look fun d => when (d.on (HST_SESS_EVENTS n)) (noticeTo n src bits detail)

/-- Sets a bit of an event register. While its bit in the enable register, which stands 8 above, is 1, an event notice
goes out (R100, R132, R153, R289, R421, R422, R454). -/
def raise (f : Fld) (detail : List Byte := []) : Prog :=
  .look fun d =>
    .seq (put f 1) (when (d.on { f with addr := f.addr + 8 }) (notice f.addr (2 ^ f.lsb) detail))

/-- Sources of notices that no register holds (R335). -/
def srcGuest : Nat := 0x800001
def srcRetire : Nat := 0x800002
def srcAdmission : Nat := 0x800003

/-- The notice that a guest was discarded, to the session that admitted it (R241, Table 1.4). -/
def guestDiscarded (session ctx : Nat) : Prog := noticeTo session srcGuest 0 (leBytes 1 ctx)

/-! ## Codes of the modes -/

/-- Table 1.3's codes. -/
def Role.code : Role → Nat
  | .service => 0 | .watch => 1 | .shore => 2 | .guest => 3 | .banked => 4 | .quarantine => 5

/-- The role of a code. -/
def Role.ofCode : Nat → Option Role
  | 0 => some .service | 1 => some .watch | 2 => some .shore | 3 => some .guest | 4 => some .banked
  | 5 => some .quarantine | _ => none

/-- HUB_ROLE.PARTNER. -/
def PartnerSt.code : PartnerSt → Nat
  | .solo => 0 | .paired => 1 | .repairing => 2

/-- HUB_ROLE.FW. -/
def Fw.code : Fw → Nat
  | .boot => 0 | .run => 1 | .recovery => 2

/-- HUB_ROLE as it reads (Table 1.5). -/
def Dev.roleWord (d : Dev) : W64 :=
  let w := d.word 0x40
  let w := HUB_ROLE_ROLE.into w d.mode.role.code
  let w := HUB_ROLE_GUEST_ON.into w d.mode.guestOn.toNat
  let w := HUB_ROLE_PARTNER.into w d.mode.partner.code
  let w := HUB_ROLE_FW.into w d.mode.fw.code
  HUB_ROLE_TRANSIT.into w (d.mode.transit.isSome || d.mode.covering).toNat

/-- From the start of the fence of an E3 until FW = RUN the hub answers FENCED (R364, R365, Table 14.6). -/
def Dev.hubFenced (d : Dev) : Bool := decide (d.rst.fencing ≠ 0) || (d.rst.afterE3 && decide (d.mode.fw ≠ .run))

/-- The epoch of the job served; 0 for none (R19). -/
def Dev.epoch (d : Dev) : Nat := d.get HUB_ROLE_JOB_EPOCH

/-! ## The datestone log (R415 to R417) -/

/-- The 64 bytes of a record (Table 16.7). -/
def DRec.bytes (r : DRec) : List Byte :=
  let b := pack [(6, r.seq), (1, r.area), (1, r.ty), (8, r.life), (8, r.time), (1, r.flags), (1, r.sub), (2, 0)]
    ++ (r.detail ++ List.replicate 32 0).take 32
  b ++ leBytes 4 (crc32c b)

/-- Types limited to DST_CFG.RATE a second (Table 16.8); INTEGRITY only for class STRAY, 9, and MEMORY only where the
record is not of the foundation class. -/
def rateLimited (ty sub : Nat) (found : Bool) : Bool :=
  decide (ty ∈ [0x0A, 0x0C, 0x0D, 0x0E, 0x0F, 0x20]) || (decide (ty = 0x05) && decide (sub = 9)) ||
    (decide (ty = 0x0B) && !found)

/-- Writes one record: the circulating area always, the foundation area while it has room (R415), and the partner's
mirror (R343, R417). -/
def writeRecord (ty sub : Nat) (detail : List Byte) (found : Bool) : Prog :=
  .look fun d =>
    let q := d.get DST_SEQ_NEXT
    let area := if found ∧ d.get DST_STAT_FOUND_USED < 4096 then 1 else 0
    let lock := d.on LNK_TIME_LOCKED
    let r : DRec :=
      { seq := q, area := area, ty := ty, life := (d.word 0x3c0010).toNat, time := d.podTime,
        flags := if lock then 1 else 0, sub := sub, detail := detail }
    all [
      .act (.circ (q % 61440) r),
      put DST_SEQ_NEXT (q + 1),
      when (decide (area = 1)) (all [.act (.found r), put DST_STAT_FOUND_USED (d.get DST_STAT_FOUND_USED + 1),
        when (decide (d.get DST_STAT_FOUND_USED + 1 = 4096)) (.seq (put DST_STAT_FOUND_FULL 1) (raise DST_EVT_FOUND_FULL))]),
      when (decide (d.mode.partner ≠ .solo)) (send .partner Kind.mirrorRecord [q] r.bytes)]

/-- Makes a record, unless the rate limit of R417 stops it. -/
def record (ty sub : Nat) (detail : List Byte) (found : Bool := false) : Prog :=
  .look fun d =>
    if rateLimited ty sub found then
      (if d.obs.rateCount < max 1 (d.get DST_CFG_RATE) then
        .seq (modObs fun o => { o with rateCount := o.rateCount + 1 }) (writeRecord ty sub detail found)
      else
        .seq (modObs fun o => { o with notMade := o.notMade + 1, notMadeTypes := o.notMadeTypes ||| BitVec.ofNat 64 (2 ^ ty) })
          (bump DST_STAT_SUPPRESSED))
    else writeRecord ty sub detail found

/-! ## Roles -/

/-- A fault-driven trigger waits (R24). -/
def Mode.faultWaits (m : Mode) : Bool := m.waiting.any fun t => match t with | .host _ _ => false | _ => true

/-- Begins a role transition (R24). -/
def beginTransit (r : Role) : Prog := modMode fun m => { m with transit := some r }
/-- Ends it. -/
def endTransit : Prog := modMode fun m => { m with transit := none }

end Sys2Proof.Machine
end

