-- ==== Sys2Proof/Machine/Lathe.lean ====
section
/-! DEFINITION. Lathe instruction words (R205 to R221): class decode, the operation a word names, and the checks of the
encoding tables that stop a tile with CAUSE = ILLEGAL. -/

namespace Sys2Proof.Machine

/-- Bits `[lo + n − 1 : lo]` of a word. -/
def bitsAt (w : W64) (lo n : Nat) : Nat := w.toNat / 2 ^ lo % 2 ^ n

/-- The classes, with their TLE_ERR.QUEUE codes (Table 6.13). -/
inductive LClass where
  | mx | vx | rd | mv | sy | ct
deriving DecidableEq, Repr

/-- TLE_ERR.QUEUE. -/
def LClass.code : LClass → Nat
  | .mx => 0 | .vx => 1 | .rd => 2 | .mv => 3 | .sy => 4 | .ct => 5

/-- Class decode (Table 8.2); none where OP and Q name no class. -/
def wordClass (w0 : W64) : Option LClass :=
  let op := bitsAt w0 0 6
  let q := bitsAt w0 6 2
  if op = 0 then none
  else if op < 0x30 then (match q with | 0 => some .mx | 1 => some .vx | 2 => some .rd | _ => some .mv)
  else if op < 0x38 then some .sy
  else if q = 0 then some .ct
  else none

/-- The VX operation of an opcode and function (Table 8.7). -/
def vxOp (op fn : Nat) : Option LOp :=
  match op, fn with
  | 0x01, 0 => some .vxAdd | 0x02, 0 => some .vxSub | 0x03, 0 => some .vxMul | 0x04, 0 => some .fma
  | 0x05, 0 => some .div | 0x06, 0 => some .sqrt | 0x07, 0 => some .rsqrt
  | 0x08, 0 => some .exp | 0x08, 1 => some .exp2 | 0x08, 2 => some .log | 0x08, 3 => some .log2
  | 0x08, 4 => some .tanh | 0x08, 5 => some .sigmoid
  | 0x09, 0 => some .vxMin | 0x0A, 0 => some .vxMax | 0x0B, 0 => some .abs | 0x0C, 0 => some .neg
  | 0x0D, 0 => some .cmpEq | 0x0D, 1 => some .cmpLt | 0x0D, 2 => some .cmpLe | 0x0D, 3 => some .cmpUn
  | 0x0E, 0 => some .sel
  | 0x0F, 0 => some .iadd | 0x0F, 1 => some .isub | 0x0F, 2 => some .imul | 0x0F, 3 => some .imin
  | 0x0F, 4 => some .imax | 0x0F, 5 => some .vxAnd | 0x0F, 6 => some .vxOr | 0x0F, 7 => some .vxXor
  | 0x0F, 8 => some .vxShl | 0x0F, 9 => some .vxShr | 0x0F, 10 => some .vxSar
  | 0x10, 0 => some .i2f | 0x11, 0 => some .f2i | 0x12, 0 => some .cvt | 0x13, 0 => some .vxMov
  | 0x14, 0 => some .bcastRow | 0x14, 1 => some .bcastColumn | 0x15, 0 => some .trans
  | 0x16, 0 => some .randRaw | 0x16, 1 => some .randUnif | 0x17, 0 => some .vxLd | 0x18, 0 => some .vxSt
  | _, _ => none

/-- The CT operation of an opcode and function (Table 8.14). -/
def ctOp (op fn : Nat) : Option LOp :=
  match op, fn with
  | 0x38, 0 => some .ctAdd | 0x38, 1 => some .ctSub | 0x38, 2 => some .ctMul | 0x38, 3 => some .ctAnd
  | 0x38, 4 => some .ctOr | 0x38, 5 => some .ctXor | 0x38, 6 => some .ctShl | 0x38, 7 => some .ctShr
  | 0x38, 8 => some .ctSar | 0x38, 9 => some .ctSlt | 0x38, 10 => some .ctSltu | 0x38, 11 => some .ctMin
  | 0x38, 12 => some .ctMax | 0x38, 13 => some .ctMov
  | 0x39, 0 => some .addrFromS | 0x39, 1 => some .addrToS | 0x39, 2 => some .addrAdd
  | 0x39, 3 => some .addrBaseAdd | 0x39, 4 => some .addrStrideSet
  | 0x3A, 0 => some .jmp | 0x3A, 1 => some .beq | 0x3A, 2 => some .bne | 0x3A, 3 => some .blt
  | 0x3A, 4 => some .bge | 0x3A, 5 => some .bltu | 0x3A, 6 => some .bgeu | 0x3A, 7 => some .loop
  | 0x3A, 8 => some .bp
  | 0x3B, 0 => some .pset | 0x3B, 1 => some .pget | 0x3B, 2 => some .pand | 0x3B, 3 => some .por
  | 0x3B, 4 => some .pxor | 0x3B, 5 => some .pnot
  | 0x3C, 0 => some .ctLd | 0x3C, 1 => some .ctSt
  | 0x3D, 0 => some .nop | 0x3D, 1 => some .endProg | 0x3D, 2 => some .brk | 0x3D, 3 => some .step
  | 0x3D, 4 => some .cget | 0x3D, 5 => some .phxld | 0x3D, 6 => some .phxst | 0x3D, 7 => some .gang
  | 0x3D, 8 => some .ctTime | 0x3D, 9 => some .flags | 0x3D, 10 => some .rank
  | _, _ => none

/-- The operation that a word names (Tables 8.4, 8.7, 8.8, 8.10, 8.12 and 8.14); none for a reserved opcode or
function. -/
def latheOp (w0 : W64) : Option LOp :=
  let op := bitsAt w0 0 6
  match wordClass w0 with
  | none => none
  | some .mx => if op = 1 then some .pass else none
  | some .vx => vxOp op (bitsAt w0 13 4)
  | some .rd =>
    if op = 1 then
      (match bitsAt w0 9 2 with
        | 0 => some .reduceSum | 1 => some .reduceMax | 2 => some .reduceMin | _ => none)
    else none
  | some .mv =>
    (match op with
      | 1 => some .copy | 2 => some .get | 3 => some .put | 4 => some .xput | 5 => some .desc | _ => none)
  | some .sy =>
    (match op with
      | 0x30 => some .wait | 0x31 => some .sySignal | 0x32 => some .rwait | 0x33 => some .rsignal
      | 0x34 => some .drain | _ => none)
  | some .ct => ctOp op (bitsAt w0 9 4)

/-- The class of an operation. -/
def LOp.cls : LOp → LClass
  | .pass => .mx
  | .vxAdd | .vxSub | .vxMul | .fma | .div | .sqrt | .rsqrt | .exp | .exp2 | .log | .log2 | .tanh | .sigmoid
  | .vxMin | .vxMax | .abs | .neg | .cmpEq | .cmpLt | .cmpLe | .cmpUn | .sel
  | .iadd | .isub | .imul | .imin | .imax | .vxAnd | .vxOr | .vxXor | .vxShl | .vxShr | .vxSar | .i2f | .f2i | .cvt
  | .vxMov | .bcastRow | .bcastColumn | .trans | .randRaw | .randUnif | .vxLd | .vxSt => .vx
  | .reduceSum | .reduceMax | .reduceMin => .rd
  | .copy | .get | .put | .xput | .desc => .mv
  | .wait | .sySignal | .rwait | .rsignal | .drain => .sy
  | _ => .ct

/-- Whether an operation is arithmetic or a function (R188): it takes no stochastic rounding. -/
def LOp.isArith : LOp → Bool
  | .vxAdd | .vxSub | .vxMul | .fma | .div | .sqrt | .rsqrt | .exp | .exp2 | .log | .log2 | .tanh | .sigmoid => true
  | _ => false

/-- Whether an operation is a compare. -/
def LOp.isCmp : LOp → Bool
  | .cmpEq | .cmpLt | .cmpLe | .cmpUn => true
  | _ => false

/-- Operations of one source, two sources and three sources in operand codes. -/
def LOp.usesSA : LOp → Bool
  | .randRaw | .randUnif | .vxLd | .vxSt => false
  | _ => true
def LOp.usesSB : LOp → Bool
  | .vxAdd | .vxSub | .vxMul | .fma | .div | .vxMin | .vxMax | .cmpEq | .cmpLt | .cmpLe | .cmpUn | .sel
  | .iadd | .isub | .imul | .imin | .imax | .vxAnd | .vxOr | .vxXor | .vxShl | .vxShr | .vxSar => true
  | _ => false

/-- An operand code that names a tile buffer, an accumulator, a predicate register or a scalar (Table 8.6). -/
def isTB (c : Nat) : Bool := decide (c < 6)
def isACC (c : Nat) : Bool := decide (8 ≤ c) && decide (c < 12)
def isPReg (c : Nat) : Bool := decide (0x10 ≤ c) && decide (c < 0x18)
def isScalar (c : Nat) : Bool := decide (0x20 ≤ c) && decide (c < 0x40)

/-! ## Fields of the formats -/

def vxPred (w : W64) : Nat := bitsAt w 9 3
def vxPen (w : W64) : Bool := decide (bitsAt w 12 1 = 1)
def vxDView (w : W64) : Nat := bitsAt w 17 4
def vxSView (w : W64) : Nat := bitsAt w 21 4
def vxDst (w : W64) : Nat := bitsAt w 25 6
def vxSA (w : W64) : Nat := bitsAt w 31 6
def vxSB (w : W64) : Nat := bitsAt w 37 6
def vxSC (w : W64) : Nat := bitsAt w 43 6
def vxStream (w : W64) : Nat := bitsAt w 43 3
def vxSat (w : W64) : Bool := decide (bitsAt w 46 1 = 1)
def vxAxis (w : W64) : Nat := bitsAt w 47 2
def vxR0 (w : W64) : Nat := bitsAt w 49 6
def vxNr (w : W64) : Nat := bitsAt w 55 7
def vxRm (w : W64) : Nat := bitsAt w 62 2

/-- Whether a VX word breaks the encoding rules of Tables 8.5 to 8.7 (R207, R212). -/
def vxIllegal (op : LOp) (w0 w1 : W64) : Bool :=
  let x := bitsAt w0 8 1
  let tileStore := decide (op = .vxLd) || decide (op = .vxSt)
  let src (c : Nat) := isTB c || isACC c || isScalar c
  let modifiers := decide (op ∈ [LOp.cvt, .randRaw, .randUnif, .vxLd, .vxSt])
  decide (x ≠ if tileStore then 1 else 0) ||
  decide (vxRm w0 = 3) ||
  (op.isArith && decide (vxRm w0 = 2)) ||
  (if op.isCmp then !isPReg (vxDst w0)
   else if tileStore then !isTB (vxDst w0)
   else !(isTB (vxDst w0) || isACC (vxDst w0))) ||
  (op.usesSA && !src (vxSA w0)) ||
  (op.usesSB && !src (vxSB w0)) ||
  (decide (op = .fma) && !src (vxSC w0)) ||
  (decide (op = .sel) && !vxPen w0) ||
  (modifiers && decide (vxAxis w0 = 3)) ||
  (tileStore && (decide (16 ≤ vxSA w0) || decide (16 ≤ vxSB w0) || decide (bitsAt w1 25 39 ≠ 0)))

/-- Whether an SY word breaks Table 8.11: word 1 is V, so X = 1 belongs to an operation that takes V and takes it from there (R207). -/
def syIllegal (op : LOp) (w0 : W64) : Bool :=
  (decide (bitsAt w0 8 1 = 1) && (decide (op = .drain) || decide (bitsAt w0 21 1 = 1))) ||
  (decide (bitsAt w0 9 1 = 1) && decide (bitsAt w0 6 2 ≠ 0)) ||
  (decide (op ∈ [LOp.rwait, .rsignal, .drain]) && decide (bitsAt w0 10 6 ≠ 0)) ||
  (decide (op ∈ [LOp.rwait, .rsignal]) && decide (bitsAt w0 21 1 ≠ 0)) ||
  (decide (bitsAt w0 8 1 = 1) && decide (bitsAt w0 22 32 ≠ 0)) ||
  decide (bitsAt w0 54 10 ≠ 0)

def ctRD (w : W64) : Nat := bitsAt w 13 5
def ctRA (w : W64) : Nat := bitsAt w 18 5
def ctRB (w : W64) : Nat := bitsAt w 23 5
def ctBI (w : W64) : Bool := decide (bitsAt w 28 1 = 1)

/-- IMM32, sign-extended to 64 bits. -/
def ctImm (w : W64) : W64 := BitVec.signExtend 64 (BitVec.ofNat 32 (bitsAt w 29 32))

/-- Whether a CT operation has an operand B (Table 8.14). -/
def LOp.usesB : LOp → Bool
  | .ctAdd | .ctSub | .ctMul | .ctAnd | .ctOr | .ctXor | .ctShl | .ctShr | .ctSar | .ctSlt | .ctSltu | .ctMin | .ctMax | .ctMov
  | .addrAdd | .addrBaseAdd | .addrStrideSet | .beq | .bne | .blt | .bge | .bltu | .bgeu => true
  | _ => false

/-- Whether a CT word breaks Table 8.13 and R218: reserved bits, an extension that is not an immediate operand B (R207), a register
number beyond its file, or an immediate comparison without its extension. -/
def ctIllegal (op : LOp) (w0 : W64) : Bool :=
  decide (bitsAt w0 61 3 ≠ 0) || (decide (bitsAt w0 8 1 = 1) && !(op.usesB && ctBI w0)) ||
  (match op with
    | .beq | .bne | .blt | .bge | .bltu | .bgeu => ctBI w0 && decide (bitsAt w0 8 1 = 0)
    | .addrFromS => decide (16 ≤ ctRD w0)
    | .addrToS => decide (16 ≤ ctRA w0)
    | .addrAdd | .addrBaseAdd | .addrStrideSet => decide (16 ≤ ctRD w0) || decide (16 ≤ ctRA w0)
    | .bp => decide (8 ≤ ctRA w0)
    | .pset => decide (8 ≤ ctRD w0)
    | .pget => decide (8 ≤ ctRA w0)
    | .pand | .por | .pxor => decide (8 ≤ ctRD w0) || decide (8 ≤ ctRA w0) || decide (8 ≤ ctRB w0)
    | .pnot => decide (8 ≤ ctRD w0) || decide (8 ≤ ctRA w0)
    | .ctLd | .ctSt | .phxld | .phxst => decide (16 ≤ ctRA w0)
    | .step => decide (16 ≤ ctRB w0)
    | _ => false)

/-- Whether an instruction breaks the encoding tables: R207's conditions. STEP on a rank other than the lead is ILLEGAL
too (R221). -/
def illegal (op : LOp) (w0 w1 : W64) (rank : Nat) : Bool :=
  match op.cls with
  | .mx => decide (bitsAt w0 8 1 = 0) || decide (bitsAt w0 55 9 ≠ 0) || decide (bitsAt w1 17 47 ≠ 0)
  | .vx => vxIllegal op w0 w1
  | .rd =>
    decide (bitsAt w0 8 1 = 0) || decide (bitsAt w0 51 13 ≠ 0) || decide (bitsAt w1 41 23 ≠ 0) ||
    !(isTB (bitsAt w0 23 6) || decide (bitsAt w0 23 6 = 0x3F)) ||
    (match bitsAt w0 11 2 with
      | 0 | 1 => !isTB (bitsAt w0 17 6)
      | 2 => decide (16 ≤ bitsAt w0 17 6)
      | _ => decide (4 ≤ bitsAt w0 17 6))
  | .mv =>
    decide (bitsAt w0 8 1 = 0) || decide (bitsAt w0 60 4 ≠ 0) ||
    (decide (op ≠ .xput) && decide (bitsAt w0 17 2 = 2))
  | .sy => syIllegal op w0
  | .ct => ctIllegal op w0 || (decide (op = .step) && decide (rank ≠ 0))

end Sys2Proof.Machine
end

