-- ==== Sys2Proof/Machine/Operands.lean ====
section
/-! DEFINITION. Operands of Lathe instructions: buffer views (Table 7.1), accumulators, scalars broadcast to every lane,
MX scales (Table 7.2), and the packed tile-store layout (R167). -/

namespace Sys2Proof.Machine

/-! ## Views -/

/-- A view code: a format of Table 5.4, or 0xA for INT32 (Table 8.6). -/
def viewBits (v : Nat) : Nat :=
  match Fmt.ofCode v with
  | some f => f.bits
  | none => 32

/-- Rows of a buffer in a view (Table 7.1). -/
def viewRows (v : Nat) : Nat := if v = 9 then 32 else 64

/-- Whether a view is an MX element format. -/
def viewMX (v : Nat) : Bool := decide (3 ≤ v) && decide (v ≤ 8)

/-- The format of a view; INT32 words are handled by code, and read as binary32 here only where no format applies. -/
def viewFmt (v : Nat) : Fmt := (Fmt.ofCode v).getD .fp32

/-! ## Buffers, accumulators and scales -/

/-- What an unlisted word of a buffer or accumulator reads as at power-on and after loading (Table 8.18). -/
def wordDflt (_ : Nat) : W32 := 0
def scaleDflt (_ : Nat) : Byte := 0

/-- Word `i` of a tile's buffers, and of its accumulators. -/
def Tile.tbWord (t : Tile) (i : Nat) : Nat := (Store.get wordDflt t.tb i).toNat
def Tile.accWord (t : Tile) (i : Nat) : Nat := (Store.get wordDflt t.acc i).toNat
def Tile.setTb (t : Tile) (i v : Nat) : Tile := { t with tb := Store.put wordDflt t.tb i (BitVec.ofNat 32 v) }
def Tile.setAcc (t : Tile) (i v : Nat) : Tile := { t with acc := Store.put wordDflt t.acc i (BitVec.ofNat 32 v) }

/-- Entry `i` of the scale table of buffer `b`. -/
def Tile.scale (t : Tile) (b i : Nat) : Nat := (Store.get scaleDflt t.scl (128 * b + i)).toNat
def Tile.setScale (t : Tile) (b i v : Nat) : Tile :=
  { t with scl := Store.put scaleDflt t.scl (128 * b + i) (BitVec.ofNat 8 v) }

/-- The scale table entry of an element (Table 7.2): axis 0 ROW, 1 COL, 2 SQUARE. -/
def scaleIndex (axis row col : Nat) : Nat :=
  match axis with
  | 0 => 2 * row + col / 32
  | 1 => 2 * col + row / 32
  | _ => 2 * (row / 32) + col / 32

/-- An element's code, read from an operand in a view (Table 8.6); `sc` is the value a scalar operand broadcasts. -/
def Tile.elem (t : Tile) (view opnd : Nat) (sc : W64) (row lane : Nat) : Nat :=
  if isScalar opnd then sc.toNat % 2 ^ viewBits view
  else if isACC opnd then t.accWord (4096 * (opnd - 8) + 64 * row + lane)
  else if view = 9 then
    t.tbWord (4096 * opnd + 128 * row + 2 * lane) + 2 ^ 32 * t.tbWord (4096 * opnd + 128 * row + 2 * lane + 1)
  else t.tbWord (4096 * opnd + 64 * row + lane) % 2 ^ viewBits view

/-- Writes an element's code to a buffer or an accumulator; the upper bits of the word become 0 (Table 7.1). -/
def Tile.setElem (t : Tile) (view opnd row lane code : Nat) : Tile :=
  if isACC opnd then t.setAcc (4096 * (opnd - 8) + 64 * row + lane) code
  else if view = 9 then
    (t.setTb (4096 * opnd + 128 * row + 2 * lane) (code % 2 ^ 32)).setTb (4096 * opnd + 128 * row + 2 * lane + 1) (code / 2 ^ 32)
  else t.setTb (4096 * opnd + 64 * row + lane) (code % 2 ^ viewBits view)

/-- The exact value of an element: an MX element is scaled by its block (R190), and every element of a block with
scale 0xFF is a NaN (R192). -/
def exactMX (f : Fmt) (scale code : Nat) : Ex :=
  if scale = 0xFF then .nan else (f.decode code).scale ((scale : Int) - 127)

/-- The exact value of an element of an operand in a view. -/
def Tile.exact (t : Tile) (view axis opnd : Nat) (sc : W64) (row lane : Nat) : Ex :=
  let c := t.elem view opnd sc row lane
  if viewMX view then exactMX (viewFmt view) (t.scale opnd (scaleIndex axis row lane)) c
  else (viewFmt view).decode c

/-! ## The tile store -/

/-- BASE and STRIDE of an A register in tile-store form (R206). -/
def aBase (a : W64) : Nat := bitsAt a 0 25
def aStride (a : W64) : Nat := bitsAt a 32 16

/-- Element `i` of packed elements of `w` bits that start at a byte address (R167): little-endian, element `i` at bit
`i × w`. -/
def Dev.packedElem (d : Dev) (a w i : Nat) : Nat :=
  d.mem64 (a + i * w / 8) ((i * w % 8 + w + 7) / 8) / 2 ^ (i * w % 8) % 2 ^ w

/-- Bytes of a row of `n` packed elements. -/
def packedBytes (w n : Nat) : Nat := (n * w + 7) / 8

/-- A row of packed elements as bytes. -/
def packRow (w : Nat) (codes : List Nat) : List Byte :=
  leBytes (packedBytes w codes.length) (codes.foldr (fun c v => c % 2 ^ w + v * 2 ^ w) 0)

/-- Whether `[a, a + n)` lies within the tile store (R164). -/
def inStore (a n : Nat) : Bool := decide (a + n ≤ tileStoreSize)

/-- Whether `[a, a + n)` meets the code range (CAUSE = CODE). -/
def Tile.hitsCode (t : Tile) (a n : Nat) : Bool :=
  decide (0 < n) && decide (a < t.get TLE_CODE_BASE + t.get TLE_CODE_LEN) && decide (t.get TLE_CODE_BASE < a + n)

/-- The causes of TLE_ERR.CAUSE (Tables 6.13 and 8.15). -/
def cFORMAT : Nat := 1
def cK : Nat := 2
def cTRANSPOSE : Nat := 3
def cGANG : Nat := 4
def cBANK : Nat := 5
def cPARITY : Nat := 6
def cILLEGAL : Nat := 7
def cALIGN : Nat := 8
def cRANGE : Nat := 9
def cCODE : Nat := 10
def cMEMORY : Nat := 11
def cCHECK : Nat := 12
def cSTEP : Nat := 13
def cWAIT : Nat := 14
def cBRK : Nat := 15

/-- The first cause whose condition holds, in the order given. -/
def firstCause : List (Bool × Nat) → Option Nat
  | [] => none
  | (c, n) :: r => if c then some n else firstCause r

end Sys2Proof.Machine
end

