-- ==== Sys2Proof/Machine/AgentOps.lean ====
section
/-! DEFINITION. Operations of a Quoin agent (R33 to R66): its messages, its region table, block checks, copy-on-write, the
cut, and fencing. -/

namespace Sys2Proof.Machine

/-! ## States and messages -/

/-- Agent states (Table 2.1). -/
def aRESET : Nat := 0
def aSIDEBAND : Nat := 1
def aREADY : Nat := 2
def aLOADING : Nat := 3
def aLIVE : Nat := 4
def aFENCED : Nat := 5

/-- QAG_STATE.STATE. -/
def Agent.state (a : Agent) : Nat := a.get QAG_STATE_STATE
/-- QAG_STATE.CSTATE: 0 IDLE, 1 ARMED, 2 DRAINING, 3 DONE. -/
def Agent.cstate (a : Agent) : Nat := a.get QAG_STATE_CSTATE
/-- QAG_STEP. -/
def Agent.step (a : Agent) : Nat := a.get QAG_STEP_STEP
/-- A bound position: LOADING, LIVE, FENCED (Table 2.1). -/
def Agent.bound (a : Agent) : Bool := decide (aLOADING ≤ a.state)

/-- What a Quoin message carries beside what its sender fills in. -/
structure QOut where
  ty : Nat
  sb : Bool
  status : Nat := 0
  last : Bool := true
  pkts : Nat := 1
  tag : Nat := 0
  arg : Nat := 0
  chk : Bool := false
  data : List Byte := []
  /-- The check that the block carries, where it is not the payload's own (R49). -/
  check : Option Nat := none
  /-- The payload starts with a mark block (R303). -/
  mark : Bool := false

/-- The fields of a message under an epoch, a position and a SEQ: TYPE, path, FLAGS, STATUS, EPOCH, POSITION, SEQ, PKTS, TAG, ARG, CHECK. -/
def QOut.fields (m : QOut) (epoch pos seq : Nat) : List Nat :=
  [m.ty, m.sb.toNat, m.last.toNat + if m.chk then 4 else 0, m.status, epoch, pos, seq, if m.last then m.pkts else 0, m.tag, m.arg,
    if m.chk then m.check.getD (crc64 m.data) else 0]

/-- The message as it crosses the link (R62): the 48-byte header of Table 2.32, with VER 1, LENGTH, and no signal, and its payload. -/
def QOut.bytes (m : QOut) (epoch pos seq : Nat) : List Byte :=
  pack [(1, m.ty), (1, m.last.toNat + (if m.chk then 4 else 0) + 8 * m.mark.toNat), (1, 1), (1, m.status), (4, epoch), (4, pos), (4, seq), (2, m.data.length), (2, 0),
    (4, if m.last then m.pkts else 0), (4, 0), (4, m.tag), (8, m.arg), (8, if m.chk then m.check.getD (crc64 m.data) else 0)] ++ m.data

/-- An agent sends a message (Table 2.32). -/
def aSend (n : Nat) (m : QOut) : Prog :=
  .look fun d =>
    let a := d.agent n
    let epoch := if m.ty = 0x01 then 0 else a.get QAG_BIND_EPOCH
    let seq := if m.sb then a.seqSb else a.seqTray
    .seq (modAgent n fun a => if m.sb then { a with seqSb := (a.seqSb + 1) % 2 ^ 32 } else { a with seqTray := (a.seqTray + 1) % 2 ^ 32 })
      (send (.ozmund n) Kind.quoin (m.fields epoch (a.get QAG_BIND_POSITION) seq) (m.bytes epoch (a.get QAG_BIND_POSITION) seq))

/-- A packet of a transfer: status, ARG, payload, and the block check that it carries. -/
structure APkt where
  status : Nat := 0
  arg : Nat := 0
  data : List Byte
  check : Option Nat := none

/-- The packets of a transfer. -/
def aPackets (n ty tag pkts : Nat) : List APkt → Prog
  | [] => .done
  | p :: ps =>
    .seq (aSend n { ty := ty, sb := false, status := p.status, last := ps.isEmpty, pkts := pkts, tag := tag, arg := p.arg, chk := p.check.isSome, data := p.data, check := p.check })
      (aPackets n ty tag pkts ps)

/-- A multi-packet transfer on the tray port. -/
def aTransfer (n ty : Nat) (ps : List APkt) : Prog :=
  .look fun d =>
    .seq (modAgent n fun a => { a with tag := (a.tag + 1) % 2 ^ 32 }) (aPackets n ty (d.agent n).tag ps.length ps)

/-- The one RESP to a request (R64), on the path it came by. -/
def aResp (n : Nat) (m : QMsg) (status : Nat) (arg : Nat := 0) (data : List Byte := []) : Prog :=
  aSend n { ty := 0x06, sb := m.sb, status := status, tag := m.seq.toNat, arg := arg, data := data }

/-- The path of heartbeats and health: the tray port while it is trained, otherwise the sideband (R58). -/
def Agent.path (a : Agent) : Bool := !(a.on QAG_STATE_TRAY_UP)

/-- Sets a bit of QAG_EVT (R60). -/
def aRaise (n : Nat) (f : Fld) : Prog := modAgent n fun a => a.set f 1

/-- ALERT_N is asserted (low) while an enabled event bit is 1 (R60). -/
def Agent.alert (a : Agent) : Bool :=
  decide (Store.get agentDflt a.regs 0x70 &&& Store.get agentDflt a.regs 0x78 ≠ 0)

/-- Whether a message reaches the agent: it is out of RESET and the path is up. -/
def Agent.hears (a : Agent) (m : QMsg) : Bool :=
  decide (a.state ≠ aRESET) && a.on (if m.sb then QAG_STATE_SB_UP else QAG_STATE_TRAY_UP)

/-- The first failure of R65. `ok`: the states that accept the type; `sbOk`: the sideband does (R66). -/
def Agent.refusal (a : Agent) (m : QMsg) (exempt : Bool) (ok : List Nat) (sbOk lenOk fault : Bool) : Option Nat :=
  firstCause [
    (!exempt && decide (m.epoch.toNat ≠ a.get QAG_BIND_EPOCH), stEPOCH),
    (decide (a.state = aFENCED) && !(ok.contains aFENCED), stFENCED),
    (decide (m.ver ≠ 1) || (m.sb && !sbOk), stUNSUPPORTED),
    (!lenOk || (m.last && decide (m.pkts = 0)), stLENGTH),
    (fault, stFAULT),
    (!(ok.contains a.state), stBUSY)]

/-- Takes a request: the first failure of R65 is answered, or the request is carried out. -/
def aRequest (n : Nat) (m : QMsg) (exempt : Bool) (ok : List Nat) (sbOk : Bool) (len : Nat) (fault : Agent → Bool)
    (k : Agent → Prog) : Prog :=
  .look fun d =>
    let a := d.agent n
    when (a.hears m) <|
      match a.refusal m exempt ok sbOk (decide (m.data.length = len)) (fault a) with
      | some st => aResp n m st
      | none => k a

/-- Takes a message that has no answer: one that fails is dropped, and a stale epoch counted (R65). -/
def aNotice (n : Nat) (m : QMsg) (ok : List Nat) (fault : Agent → Bool) (k : Agent → Prog) : Prog :=
  .look fun d =>
    let a := d.agent n
    when (a.hears m) <|
      match a.refusal m false ok false (decide (m.data.length = 0)) (fault a) with
      | some st => when (decide (st = stEPOCH)) (modAgent n fun a => a.set QAG_HLT5_VALUE (satAdd 64 (a.get QAG_HLT5_VALUE) 1))
      | none => k a

/-! ## The region table (R36 to R38) -/

/-- A present region: its entry, host address, length in blocks and bits. -/
structure Region where
  entry : Nat
  base : Nat
  blocks : Nat
  state : Bool
  checked : Bool
  arch : Bool
deriving DecidableEq, Repr

/-- Entry `i` when present: VALID = 1 and LEN ≠ 0. -/
def Agent.region (a : Agent) (i : Nat) : Option Region :=
  if a.on (QAG_REG_A_VALID i) ∧ a.get (QAG_REG_B_LEN i) ≠ 0 then
    some ⟨i, a.get (QAG_REG_A_BASE i) * 0x200000, a.get (QAG_REG_B_LEN i), a.on (QAG_REG_A_STATE i),
      a.on (QAG_REG_A_CHECKED i), a.on (QAG_REG_A_ARCH i)⟩
  else none

/-- The present regions, in index order. -/
def Agent.regions (a : Agent) : List Region := (List.range 64).filterMap a.region

/-- Bytes of a region, and granules (R36). -/
def Region.bytes (r : Region) : Nat := r.blocks * 4096
def Region.granules (r : Region) : Nat := (r.blocks + 511) / 512

/-- Sum over a list. -/
def sumOf {α : Type} (xs : List α) (f : α → Nat) : Nat := xs.foldl (fun t x => t + f x) 0

/-- Two ranges overlap. -/
def overlap (a n b m : Nat) : Bool := decide (a < b + m) && decide (b < a + n) && decide (0 < n) && decide (0 < m)

/-- The agent's own ranges: course buffer, check region, post-mortem region, witness staging region. -/
def Agent.ownRanges (a : Agent) : List (Nat × Nat) := [
  (a.get QAG_CBUF_BASE_BASE * 0x200000, a.get QAG_CBUF_CFG_SIZE * gib),
  (a.get QAG_CHK_BASE_BASE * 4096, 8 * sumOf (a.regions.filter (·.checked)) (·.blocks)),
  (a.get QAG_PM_BASE_BASE * 4096, 65536),
  (a.get QAG_WIT_BASE_BASE * 0x200000, 0x4000000)]

/-- Whether some pair of a list of regions overlaps. -/
def anyOverlap : List Region → Bool
  | [] => false
  | r :: rs => rs.any (fun s => overlap r.base r.bytes s.base s.bytes) || anyOverlap rs

/-- The FAULT cases of R37. -/
def Agent.tableFault (a : Agent) : Bool :=
  let rs := a.regions
  anyOverlap rs || rs.any (fun r => a.ownRanges.any fun o => overlap r.base r.bytes o.1 o.2) ||
    rs.any (fun r => r.arch && !r.state) || decide (1 < (rs.filter (·.arch)).length)

/-- The LENGTH cases of R37: STATE beyond 512 GiB or CHECKED beyond 1 TiB. DESIGN CHOICE: the limit is the bytes; regions whose last granules
are short may then have more than 262,144 granules (notes/assumptions/168). -/
def Agent.tableLength (a : Agent) : Bool :=
  decide (0x8000000 < sumOf (a.regions.filter (·.state)) (·.blocks)) ||
    decide (0x10000000 < sumOf (a.regions.filter (·.checked)) (·.blocks))

/-- The STATE regions with the number of the first granule of each, in table order. -/
def granStarts : Nat → List Region → List (Region × Nat)
  | _, [] => []
  | g, r :: rs => (r, g) :: granStarts (g + r.granules) rs
def Agent.stateRegions (a : Agent) : List (Region × Nat) := granStarts 0 (a.regions.filter (·.state))

/-- The number of state granules. -/
def Agent.granCount (a : Agent) : Nat := sumOf (a.regions.filter (·.state)) (·.granules)

/-- The granule that holds a host address. -/
def Agent.granOf (a : Agent) (addr : Nat) : Option Nat :=
  a.stateRegions.findSome? fun e =>
    if e.1.base ≤ addr ∧ addr < e.1.base + e.1.bytes then some (e.2 + (addr - e.1.base) / 0x200000) else none

/-- The granules that a run of bytes touches. -/
def Agent.gransOf (a : Agent) (addr len : Nat) : List Nat :=
  if len = 0 then []
  else ((List.range ((addr + len - 1) / 0x200000 - addr / 0x200000 + 1)).filterMap fun i =>
    a.granOf (if i = 0 then addr else (addr / 0x200000 + i) * 0x200000))

/-- Host address and block count of a granule. -/
def Agent.granAt (a : Agent) (g : Nat) : Option (Nat × Nat) :=
  a.stateRegions.findSome? fun e =>
    if e.2 ≤ g ∧ g < e.2 + e.1.granules then
      some (e.1.base + (g - e.2) * 0x200000, min 512 (e.1.blocks - (g - e.2) * 512))
    else none

/-- The granules of a STATE region from a first granule, if all lie within it. -/
def Agent.granRun (a : Agent) (region first count : Nat) : Option (List Nat) :=
  (a.stateRegions.find? fun e => decide (e.1.entry = region)).bind fun e =>
    if first + count ≤ e.1.granules then some ((List.range count).map (e.2 + first + ·)) else none

/-- The state of a granule while a course is in progress. -/
def granDflt (_ : Nat) : Gran := .prot
def Agent.gran (a : Agent) (g : Nat) : Gran := Store.get granDflt a.grans g

/-! ## Host memory and block checks (R48, R49) -/

/-- Bytes of a slot's host memory. -/
def Dev.hostBytes (d : Dev) (n a len : Nat) : List Byte := d.bytes (hostByte n a) len
/-- Writes bytes of host memory. -/
def putHost (n a : Nat) (bs : List Byte) : Prog := .act (.mem (hostByte n a) bs)

/-- Where the check word of the block at a host address stands, when a CHECKED region holds the block. -/
def Agent.checkAt (a : Agent) (addr : Nat) : Option Nat :=
  let rec go : Nat → List Region → Option Nat
    | _, [] => none
    | b, r :: rs =>
      if r.base ≤ addr ∧ addr < r.base + r.bytes then
        some (a.get QAG_CHK_BASE_BASE * 4096 + 8 * (b + (addr - r.base) / 4096))
      else go (b + r.blocks) rs
  go 0 (a.regions.filter (·.checked))

/-- The check of the block at a host address: the stored one when it carries one, else a fresh one (R49). -/
def hostCheck (d : Dev) (n addr : Nat) : Nat :=
  match (d.agent n).checkAt addr with
  | some w => d.mem64 (hostByte n w) 8
  | none => crc64 (d.hostBytes n (addr / 4096 * 4096) 4096)

/-- Whether the block at a host address agrees with its check. -/
def hostBlockOk (d : Dev) (n addr : Nat) : Bool := decide (crc64 (d.hostBytes n (addr / 4096 * 4096) 4096) = hostCheck d n addr)

/-- Produces the check of the block at a host address (R49). -/
def hostReCheck (n addr : Nat) : Prog :=
  .look fun d =>
    match (d.agent n).checkAt addr with
    | some w => putHost n w (leBytes 8 (crc64 (d.hostBytes n (addr / 4096 * 4096) 4096)))
    | none => .done

/-- A write to host memory, with the checks of the blocks it touches. -/
def hostWrite (n addr : Nat) (bs : List Byte) : Prog :=
  .seq (putHost n addr bs) (each (blocksOf addr bs.length) fun b => hostReCheck n (b * 4096))

/-- A block that fails its check on both reads: CHECK_FAIL, and the consuming operation is told. -/
def checkFailed (n addr : Nat) : Prog :=
  .seq (aRaise n QAG_EVT_CHECK_FAIL) (send (.slotHost n) Kind.blockFailed [addr])

/-! ## Frozen contents (R44) -/

/-- Block `b` of a granule as frozen at the cut: its bytes and its check. -/
def frozenBlock (d : Dev) (n g b : Nat) : List Byte × Nat :=
  let a := d.agent n
  match a.granAt g with
  | none => ([], crc64 [])
  | some (base, _) =>
    match a.gran g with
    | .copied slot =>
      let bs := d.hostBytes n (a.bufBase + slot * 0x200000 + b * 4096) 4096
      (bs, if (a.checkAt base).isNone then crc64 bs else (Store.get (fun _ => 0) a.bufChecks (512 * slot + b)).toNat)
    | _ => (d.hostBytes n (base + b * 4096) 4096, hostCheck d n (base + b * 4096))

/-- Whether a block agrees with its check. -/
def blockGood (b : List Byte × Nat) : Bool := decide (crc64 b.1 = b.2)

/-- The blocks of some granules as frozen. -/
def frozenBlocks (d : Dev) (n : Nat) (gs : List Nat) : List (List Byte × Nat) :=
  (gs.map fun g =>
    let blocks := match (d.agent n).granAt g with | some (_, k) => k | none => 0
    (List.range blocks).map fun b => frozenBlock d n g b).flatten

/-- A free slot of the course buffer. -/
def Agent.freeSlot (a : Agent) : Option Nat :=
  let used := a.grans.filterMap fun e => match e.2 with | .copied s => some s | _ => none
  if a.bufSlots ≤ used.length + a.copying.length then none
  else (List.range a.bufSlots).find? fun s => !(used.contains s)

/-- QAG_CBUF_USE.USED after a change of the slots in use. -/
def Agent.counted (a : Agent) : Agent :=
  a.set QAG_CBUF_USE_USED (a.grans.filter fun e => match e.2 with | .copied _ => true | _ => false).length

/-- Whether a held write still meets a protected granule. -/
def Agent.heldBack (a : Agent) (w : HeldWrite) : Bool :=
  decide (a.cstate = 2) && (a.gransOf w.addr w.data.length).any fun g => decide (a.gran g = .prot)

/-- Whether a write is held for want of a slot (R46): the protected granules that held writes wait for and no copy has begun on are more
than the free slots. -/
def Agent.starved (a : Agent) : Bool :=
  let wanted := (a.heldWrites.map fun w => (a.gransOf w.addr w.data.length).filter fun g => decide (a.gran g = .prot) && !(a.copying.contains g)).flatten
  let used := (a.grans.filter fun e => match e.2 with | .copied _ => true | _ => false).length + a.copying.length
  decide (a.cstate = 2) && decide (a.bufSlots < used + wanted.eraseDups.length)

/-- The stall of the step so far, in ticks: all its intervals (R46). -/
def stallTicks (d : Dev) (a : Agent) : Nat := a.stallTicks + (a.stallFrom.map fun t => d.clk - t).getD 0
/-- The stall of the step in whole µs. -/
def stallNow (d : Dev) (a : Agent) : Nat := min (2 ^ 32 - 1) (stallTicks d a / 700)
/-- The stall ends for now; what the step has had of it stays. -/
def stallStop (d : Dev) (a : Agent) : Agent := { a.set QAG_CBUF_USE_STALL_US (stallNow d a) with stallTicks := stallTicks d a, stallFrom := none }

/-- Starts or ends the stall after a change of the held writes. -/
def stallUpdate (n : Nat) : Prog :=
  .look fun d =>
    let a := d.agent n
    match a.stallFrom, a.starved with
    | none, true => modAgent n fun a => { a with stallFrom := some d.clk }
    | some _, false => modAgent n (stallStop d)
    | _, _ => .done

/-- Lets the held writes that no protected granule stops proceed, in order. -/
def releaseHeld (n : Nat) : Prog :=
  .look fun d =>
    let a := d.agent n
    all [modAgent n fun a => { a with heldWrites := a.heldWrites.filter a.heldBack },
      each (a.heldWrites.filter fun w => !(a.heldBack w)) fun w => hostWrite n w.addr w.data,
      stallUpdate n]

/-- Copies a granule into a buffer slot: PROT becomes COPIED. -/
def copyGranule (n g slot : Nat) : Prog :=
  .look fun d =>
    let a := d.agent n
    match a.granAt g with
    | none => .done
    | some (base, blocks) => all [
        putHost n (a.bufBase + slot * 0x200000) (d.hostBytes n base (blocks * 4096)),
        modAgent n fun a =>
          ({ a with grans := Store.put granDflt a.grans g (.copied slot), copying := a.copying.erase g,
                    bufChecks := (List.range blocks).foldl (fun st b =>
                      Store.put (fun _ => 0) st (512 * slot + b) (match a.checkAt (base + b * 4096) with
                        | some w => BitVec.ofNat 64 (d.mem64 (hostByte n w) 8)
                        | none => 0)) a.bufChecks }).counted]

/-! ## Abandonment and completion of a course -/

/-- The course is abandoned at the agent (last column of Table 2.14, R47): protection lifted, slots freed, held writes
released, map P of that course discarded. -/
def abandonCourse (n : Nat) : Prog :=
  .seq (modAgent n fun a =>
    let b := if a.pCourse = some (a.get QAG_COURSE_CUR) ∧ 2 ≤ a.cstate then { a with mapP := [], pCourse := none } else a
    ({ b with grans := [], copying := [], bufChecks := [], ctxWait := none, ctx := [], ctxOk := false }.set QAG_STATE_CSTATE 0).counted)
    (releaseHeld n)

/-- Drain requests that HALT_N holds back are answered with a status, overtaken by what ends the course (R13, R57, R61). -/
def answerDeferred (n status : Nat) : Prog :=
  .look fun d => .seq (each (d.agent n).deferred fun m => aResp n m status) (modAgent n fun a => { a with deferred := [] })

/-- COURSE_DONE goes out when every granule is SENT and CONTEXT has been answered OK (Table 2.31). -/
def courseDoneTest (n : Nat) : Prog :=
  .look fun d =>
    let a := d.agent n
    when (decide (a.cstate = 2) && a.ctxOk && (List.range a.granCount).all fun g => decide (a.gran g = .sent)) <| all [
      modAgent n fun a => a.set QAG_STATE_CSTATE 3,
      aSend n { ty := 0x17, sb := false, arg := a.get QAG_COURSE_CUR }]

/-! ## Witness selection (R53, R54) -/

/-- The selector key in force for a step. -/
def Agent.selector (a : Agent) (s : Nat) : Option Nat :=
  ((a.selectors.filter fun e => decide (e.1 ≤ s)).getLast?).map (·.2)

/-- Whether index `i` of domain `dom` in step `s` is selected. -/
def witSelected (key rate dom s i : Nat) : Bool :=
  decide (philoxWord key (i + dom * 2 ^ 32 + s % 2 ^ 64 * 2 ^ 64) 0 < 2 ^ (32 - min 20 rate))

/-- The entry of the schedule for a step. -/
def Agent.schedule (a : Agent) (s : Nat) : Nat := s % max 1 (min 256 (a.get QAG_WIT_CFG_PERIOD))

/-- The selected indices of a domain. -/
def Agent.selection (a : Agent) (s dom : Nat) : List Nat :=
  let count := if dom = 0 then a.get (QAG_WSCH_MX_TILES (a.schedule s)) else a.get (QAG_WSCH_RD_SLICES (a.schedule s))
  match a.selector s with
  | some key => if a.on QAG_WIT_CFG_EN then (List.range count).filter (witSelected key (a.get QAG_WIT_CFG_RATE) dom s) else []
  | none => []

/-- Places the lists of step `s` in the staging region (Table 2.23), and makes it the current step of QAG_WIT_COUNT. -/
def placeLists (n s : Nat) : Prog :=
  .look fun d =>
    let a := d.agent n
    let base := a.get QAG_WIT_BASE_BASE * 0x200000
    let put1 (dom : Nat) : Prog :=
      let xs := a.selection s dom
      let kept := xs.take 4096
      all [putHost n (base + s % 2 * 8 + dom * 4) (leBytes 4 kept.length),
        putHost n (base + 0x1000 + s % 2 * 0x8000 + dom * 0x4000) ((kept.map (leBytes 4)).flatten),
        modAgent n fun a => a.set QAG_HLT6_VALUE (satAdd 64 (a.get QAG_HLT6_VALUE) (xs.length - kept.length))]
    all [put1 0, put1 1,
      modAgent n fun a => { (a.set QAG_WIT_COUNT_MX_TILES (a.get (QAG_WSCH_MX_TILES (a.schedule s)))).set
          QAG_WIT_COUNT_RD_SLICES (a.get (QAG_WSCH_RD_SLICES (a.schedule s))) with
        listed := min 4096 (a.selection s 0).length + min 4096 (a.selection s 1).length, pushes := 0 }]

/-- Splits bytes into packets of at most 4,096. -/
def packets (bs : List Byte) : List (List Byte) := (chunks 4096 (bs.length / 4096 + 1) bs).filter fun c => !c.isEmpty

/-- The packets of a record in the staging region: one with a block that fails its check has status FAULT (R49). -/
def samplePackets (d : Dev) (n addr len : Nat) : List APkt :=
  (packets (d.hostBytes n addr len)).zipIdx.map fun c =>
    { status := if (blocksOf (addr + 4096 * c.2) c.1.length).all fun b => hostBlockOk d n (b * 4096) then stOK else stFAULT, data := c.1 }

/-- Sends the records that wait, unless HALT_N is low (R55, R61). -/
def sendSamples (n : Nat) : Nat → Prog
  | 0 => .done
  | fuel + 1 => .look fun d =>
      let a := d.agent n
      match a.samples with
      | [] => .done
      | (off, len) :: rest =>
        let ps := samplePackets d n (a.get QAG_WIT_BASE_BASE * 0x200000 + off) len
        when (!(a.on QAG_STATE_HALTED) && a.on QAG_STATE_TRAY_UP) <| all [
          when (ps.any fun p => decide (p.status ≠ stOK)) (aRaise n QAG_EVT_CHECK_FAIL),
          aTransfer n 0x22 ps,
          modAgent n fun a => { a.set QAG_WIT_RING_TAIL ((rest.head?.map (·.1)).getD (a.get QAG_WIT_RING_HEAD)) with samples := rest },
          sendSamples n fuel]
def pumpSamples (n : Nat) : Prog := .look fun d => sendSamples n (d.agent n).samples.length

/-! ## Pod Time (R402) -/

/-- QAG_PODTIME as it reads: its last value, and what has been counted since while the tray port is up. -/
def agentTime (d : Dev) (n : Nat) : Nat :=
  let a := d.agent n
  (a.get QAG_PODTIME_TIME + (a.timeAt.map fun t => d.clk - t).getD 0) % 2 ^ 64

/-! ## The post-mortem dump and fencing (R57) -/

/-- The 64 KiB dump. The header's reason and QAG_EVT take 8 bytes each (notes/assumptions). -/
def dumpImage (d : Dev) (n reason : Nat) : List Byte :=
  let a := d.agent n
  let head := pack [(4, a.get QAG_BIND_EPOCH), (4, a.get QAG_BIND_POSITION), (8, a.step), (8, agentTime d n),
    (8, reason), (8, (Store.get agentDflt a.regs 0x70).toNat)]
  head ++ List.replicate (4096 - head.length) 0 ++
    ((List.range 4096).map fun i => leBytes 8 (a.get (QAG_CNT_VALUE i))).flatten ++ List.replicate 28672 0

/-- Writes the dump to the post-mortem region and sends it as DUMP in 8 packets. -/
def writeAgentDump (n reason : Nat) : Prog :=
  .look fun d =>
    let a := d.agent n
    let img := dumpImage d n reason
    let ps := (List.range 8).map fun i => { arg := 512 * i + reason * 2 ^ 32, data := (img.drop (4096 + 4096 * i)).take 4096 : APkt }
    .seq (putHost n (a.get QAG_PM_BASE_BASE * 4096) img) <|
      if a.on QAG_STATE_TRAY_UP then aTransfer n 0x32 ps
      else .seq (modAgent n fun a => { a with tag := (a.tag + 1) % 2 ^ 32 })
        (each (ps.zipIdx) fun p => aSend n
          { ty := 0x32, sb := true, last := decide (p.2 = 7), pkts := 8, tag := a.tag, arg := p.1.arg, data := p.1.data })

/-- FENCE_DONE, once for each fence. -/
def fenceDone (n status : Nat) : Prog :=
  .look fun d =>
    when (decide ((d.agent n).state = aFENCED) && !(d.agent n).doneSent) <| all [
      aSend n { ty := 0x44, sb := (d.agent n).path, status := status },
      modAgent n fun a => { a.set QAG_EVT_FENCE_DONE 1 with doneSent := true }]

/-- Entry to FENCED (R57). -/
def enterFenced (n reason : Nat) : Prog :=
  .look fun d =>
    let a := d.agent n
    all [
      modAgent n fun a => { (a.set QAG_STATE_STATE aFENCED).set QAG_CTRL_FENCE_REQ 0 with fenceReason := reason, doneSent := false },
      when (decide (a.cstate = 1) || decide (a.cstate = 2)) (.seq (abandonCourse n)
        (when (a.on QAG_STATE_TRAY_UP) (aSend n { ty := 0x18, sb := false, arg := a.get QAG_COURSE_CUR + 2 * 2 ^ 32 }))),
      answerDeferred n stFENCED,
      each (a.xfers.filter fun x => x.last.isNone && !x.closed) fun x => aSend n { ty := 0x06, sb := x.sb, status := stFENCED, tag := x.seq.toNat },
      modAgent n fun a => { a with xfers := a.xfers.map fun x => { x with closed := x.closed || x.last.isNone } },
      send (.slotHost n) Kind.hostStop [],
      writeAgentDump n reason,
      when (a.on QAG_CTRL_QUIET) (fenceDone n stOK)]

/-- The fatal path: FATAL on the tray port and on the sideband, ALERT_N, and FENCED (R40, R57). -/
def fatalPath (n code reason : Nat) : Prog :=
  .look fun d =>
    let a := d.agent n
    let body := pack [(2, code), (6, 0), (8, a.step)]
    all [
      when (a.on QAG_STATE_TRAY_UP) (aSend n { ty := 0x42, sb := false, data := body }),
      when (a.on QAG_STATE_SB_UP) (aSend n { ty := 0x42, sb := true, data := body }),
      aRaise n QAG_EVT_FATAL,
      when (decide (a.state = aLOADING) || decide (a.state = aLIVE)) (enterFenced n reason)]

/-! ## The cut (R42, R43) -/

/-- The step context record (Table 2.12). -/
def contextRecord (a : Agent) (step course time : Nat) : List Byte :=
  pack [(8, step), (4, course), (4, a.get QAG_BIND_POSITION), (8, time), (40, 0)] ++
    ((List.range 16).map fun i => leBytes 8 (a.get (QAG_CUR_VALUE i))).flatten ++
    ((List.range 1024).map fun i => leBytes 8 (Store.get agentDflt a.regs (0x2000 + 8 * i)).toNat).flatten

/-- Sends the context record as a CONTEXT transfer with a new TAG, and awaits its answer, whose TAG is the SEQ of the LAST packet. DESIGN CHOICE
(notes/assumptions/166). -/
def sendContext (n : Nat) : Prog :=
  .look fun d =>
    let a := d.agent n
    .seq (aTransfer n 0x12 ((packets a.ctx).map fun c => { data := c }))
      (.look fun d' => modAgent n fun a => { a with ctxWait := some (((d'.agent n).seqTray + 2 ^ 32 - 1) % 2 ^ 32) })

/-- Shards of the STATE regions (R38). -/
def Agent.shardCount (a : Agent) : Nat := sumOf (a.regions.filter (·.state)) fun r => (r.blocks + 16383) / 16384

/-- The cut at the QAG_STEP write that carries `s`: context recorded, every granule protected, a fresh map P,
DRAINING, the mark key of the course; then CUT and the context transfer. -/
def cut (n s : Nat) : Prog :=
  .look fun d =>
    let a := d.agent n
    let c := a.get QAG_COURSE_CUR
    let t := agentTime d n
    all [
      modAgent n fun a => { a.set QAG_STATE_CSTATE 2 with
        ctx := contextRecord a s c t, grans := [], bufChecks := [], copying := [], mapP := [], pCourse := some c, ctxOk := false,
        ctxWait := none, markKey := if c % 2 = 0 then a.key0 else a.key1, markSlot := c % 2 },
      modAgent n (·.counted),
      aSend n { ty := 0x11, sb := false, arg := a.granCount, data := pack [(4, c), (4, a.shardCount), (8, s), (8, t)] },
      sendContext n]

end Sys2Proof.Machine
end

