-- ==== Sys2Proof/Machine/Agent.lean ====
section
/-! DEFINITION. Family: the Quoin agent (R33 to R66): its transitions, the requests it takes, its host's writes and its
timers. -/

namespace Sys2Proof.Machine

/-! ## Reset and training (Table 2.2) -/

/-- SLOT_RESET_N low or loss of slot power: RESET, every register at its Reset value. HALT_N stays as it is driven. -/
def execAgentReset (n : Slot) (s : State) : Host.Outcome State Fault Refusal :=
  s.run (modAgent n.val fun a => { haltLow := a.haltLow })

/-- QAG_ID of a slot's agent (Table 2.4): version 0x01, with the host's own fields. -/
def agentId (n : Nat) : W64 :=
  QAG_ID_HOST.into (QAG_ID_LATHE.into (QAG_ID_SPEC.into (QAG_ID_VENDOR.into 0 (QAG_ID_VENDOR.of (Config.agentId n))) 1) (QAG_ID_LATHE.of (Config.agentId n)))
    (QAG_ID_HOST.of (Config.agentId n))

/-- HELLO (Table 2.31): QAG_ID, the self-test result, and capabilities the spec does not give. -/
def hello (n : Nat) (sb : Bool) : Prog :=
  withFree fun cap => .look fun d =>
    let a := d.agent n
    aSend n { ty := 0x01, sb := sb, status := if a.selfFail then stFAULT else stOK,
              data := pack [(8, (agentId n).toNat), (8, a.selfFail.toNat), (8, cap.toNat), (40, 0)] }

/-- The host is told to halt (R61). -/
def haltHost (n : Nat) : Prog := .seq (modAgent n fun a => a.set QAG_STATE_HALTED 1) (send (.slotHost n) Kind.hostHalt [])

/-- The self-test ends: SIDEBAND, and HELLO on the sideband. With HALT_N low the host is halted at once. -/
def execAgentSelftestDone (n : Slot) (pass : Bool) (s : State) : Host.Outcome State Fault Refusal :=
  s.run <| .look fun d => when (decide ((d.agent n.val).state = aRESET)) <| all [
    modAgent n.val fun a => { (a.set QAG_STATE_STATE aSIDEBAND).set QAG_STATE_SB_UP 1 with selfFail := !pass },
    hello n.val true,
    when (d.agent n.val).haltLow (haltHost n.val)]

/-- The tray port trains: SIDEBAND goes to READY with HELLO; a bound agent only gains its port. After a failed self-test
the port is held down. -/
def execAgentTrayTrained (n : Slot) (s : State) : Host.Outcome State Fault Refusal :=
  s.run <| .look fun d =>
    let a := d.agent n.val
    when (!a.selfFail && decide (a.state ≠ aRESET)) <| all [
      modAgent n.val fun a => { a.set QAG_STATE_TRAY_UP 1 with seqTray := 0 },
      when (decide (a.state = aSIDEBAND)) (.seq (modAgent n.val fun a => a.set QAG_STATE_STATE aREADY) (hello n.val false)),
      pumpSamples n.val]

/-- The tray port is lost: READY goes to SIDEBAND; a bound agent keeps its state and sets TRAY_DOWN (R34). QAG_PODTIME holds its last value. -/
def execAgentTrayLost (n : Slot) (s : State) : Host.Outcome State Fault Refusal :=
  s.run <| .look fun d => modAgent n.val fun a =>
    let b := { (a.set QAG_STATE_TRAY_UP 0).set QAG_PODTIME_TIME (agentTime d n.val) with timeAt := none }
    if a.state = aREADY then b.set QAG_STATE_STATE aSIDEBAND else if a.bound then b.set QAG_EVT_TRAY_DOWN 1 else b

/-! ## Binding -/

/-- BIND (R34): EPOCH and POSITION from the header, QAG_STEP from the payload; map R has every bit set (R47). -/
def execBind (n : Slot) (m : QMsg) (s : State) : Host.Outcome State Fault Refusal :=
  s.run <| aRequest n.val m true [aREADY] false 8 (fun _ => false) fun _ => all [
    modAgent n.val fun a =>
      { (((a.set QAG_BIND_POSITION m.position.toNat).set QAG_BIND_EPOCH m.epoch.toNat).set QAG_STEP_STEP (leNat m.data)).set
          QAG_STATE_STATE aLOADING with mapR := [], rAll := true },
    aResp n.val m stOK]

/-- What RELEASE clears: epoch, position, regions, keys, counters, course and witness state. -/
def Agent.released (a : Agent) : Agent :=
  let keep (o : Nat) : Bool := !(decide (o = 0x18) || decide (o = 0x28) || decide (o = 0x38) || decide (o = 0x68) || decide (o = 0x90) ||
    decide (o = 0xA0) || (decide (0x400 ≤ o) && decide (o < 0x800)) || decide (0x8000 ≤ o))
  let b : Agent := { selfFail := a.selfFail, seqTray := a.seqTray, seqSb := a.seqSb, tag := a.tag, haltLow := a.haltLow, timeAt := a.timeAt,
                     regs := a.regs.filter fun e => keep e.1 }
  (((b.set QAG_STATE_STATE aREADY).set QAG_STATE_CSTATE 0).set QAG_CTRL_QUIET 0).set QAG_WIT_CFG_KEY_OK 0

/-- RELEASE (Table 2.2). Held writes proceed, since nothing protects their granules any longer, and requests that it overtakes are answered
ABANDONED (R13). -/
def execRelease (n : Slot) (m : QMsg) (s : State) : Host.Outcome State Fault Refusal :=
  s.run <| aRequest n.val m false [aLOADING, aLIVE, aFENCED] true 0 (fun _ => false) fun _ => all [
    abandonCourse n.val, answerDeferred n.val stABANDONED, modAgent n.val (·.released), aResp n.val m stOK]

/-! ## Transfers to the agent -/

/-- The entry of a transfer. -/
def Agent.xfer (a : Agent) (tag : Nat) : AXfer := (a.xfers.find? fun x => decide (x.tag = tag)).getD { tag := tag }

/-- An advance of an agent counter (R56). -/
def agentAdvance (n i inc : Nat) : Prog :=
  modAgent n fun a => a.set (QAG_CNT_VALUE i) ((a.get (QAG_CNT_VALUE i) + inc) % 2 ^ 64)

/-- One packet of a transfer with status `st`: the RESP after the LAST packet carries the first failure, and a signal is
applied when every counted packet has been written (R63, R65). In FENCED a signal is refused with FENCED (R56), and a request that the fence
has answered gets no second RESP (R57). DESIGN CHOICE: the RESP's TAG is the SEQ of the LAST packet (notes/assumptions/166). -/
def aPacket (n : Nat) (m : QMsg) (st : Nat) : Prog :=
  .look fun d =>
    let x := (d.agent n).xfer m.tag.toNat
    let fenced := decide ((d.agent n).state = aFENCED)
    let st := if st = stOK ∧ fenced ∧ m.last ∧ m.sig then stFENCED else st
    let y : AXfer :=
      { x with
        got := x.got + 1
        seq := m.seq
        sb := m.sb
        fail := if x.fail = 0 then st else x.fail
        last := if m.last then some (m.pkts.toNat, if m.sig then some (m.sigIdx.toNat, m.sigInc.toNat) else none) else x.last }
    let whole := match y.last with | some (p, _) => decide (p ≤ y.got) | none => false
    all [
      modAgent n fun a => { a with xfers := (a.xfers.filter fun z => decide (z.tag ≠ y.tag)) ++ if whole then [] else [y] },
      when (m.last && !x.closed) (aResp n m y.fail),
      match y.last with
      | some (_, some (i, inc)) => when (whole && decide (y.fail = 0) && decide (i < 4096) && !fenced) (agentAdvance n i inc)
      | _ => .done]

/-- Takes one packet of a multi-packet request: a packet that fails is not written, and its failure is remembered. -/
def aTransferIn (n : Nat) (m : QMsg) (ok : List Nat) (sbOk : Bool) (fault : Agent → Bool) (k : Prog) : Prog :=
  .look fun d =>
    let a := d.agent n
    when (a.hears m) <|
      match a.refusal m false ok sbOk (decide (m.data.length = 4096)) (fault a) with
      | some st => aPacket n m st
      | none => .seq k (aPacket n m stOK)

/-- LOAD (R37, R49, R65): one block at ARG; the carried check is verified, and stored for a CHECKED region. -/
def execLoad (n : Slot) (m : QMsg) (s : State) : Host.Outcome State Fault Refusal :=
  s.run <| aTransferIn n.val m [aLOADING, aFENCED] true
    (fun _ => !m.chk || decide (crc64 m.data ≠ m.check.toNat) || decide (m.arg.toNat % 4096 ≠ 0))
    (.seq (putHost n.val m.arg.toNat m.data) (hostReCheck n.val m.arg.toNat))

/-- COUNTER_SET (R56): 512 counters from the first index in ARG. -/
def execCounterSet (n : Slot) (m : QMsg) (s : State) : Host.Outcome State Fault Refusal :=
  s.run <| aTransferIn n.val m [aLOADING, aFENCED] false (fun _ => decide (3584 < m.arg.toNat))
    (modAgent n.val fun a => (List.range 512).foldl (fun a i => a.set (QAG_CNT_VALUE (m.arg.toNat + i)) (numAt m.data (8 * i) 8)) a)

/-- A SIGNAL to the agent (R63): one packet, applied in LIVE. -/
def execQuoinSignal (n : Slot) (m : QMsg) (s : State) : Host.Outcome State Fault Refusal :=
  s.run <| aNotice n.val m [aLIVE] (fun _ => decide (4096 ≤ m.sigIdx.toNat)) fun _ =>
    when (m.last && m.sig) (agentAdvance n.val m.sigIdx.toNat m.sigInc.toNat)

/-! ## Keys (R51) -/

/-- The course whose key a slot holds. -/
def Agent.keyCourse (a : Agent) (slot : Nat) : Nat := a.get (if slot % 2 = 0 then QAG_KEY_STAT_SLOT0 else QAG_KEY_STAT_SLOT1)
/-- A slot's key. -/
def Agent.key (a : Agent) (slot : Nat) : List Byte := if slot % 2 = 0 then a.key0 else a.key1
/-- Whether the key of a course is installed. -/
def Agent.holds (a : Agent) (c : Nat) : Bool := decide (a.keyCourse c = c) && !(a.key c).isEmpty

/-- MKEY: the key of course c goes in slot c mod 2; H = 0 is answered FAULT. DESIGN CHOICE: KEY_INVALID is set for that refusal alone, which
judges the key; LENGTH, EPOCH, BUSY and the like set no event (notes/assumptions/165). -/
def execMkey (n : Slot) (m : QMsg) (s : State) : Host.Outcome State Fault Refusal :=
  s.run <| .look fun d =>
    let bad := decide (leNat (m.data.take 16) = 0)
    let st := (d.agent n.val).refusal m false [aLOADING, aLIVE] false (decide (m.data.length = 32)) bad
    .seq (when ((d.agent n.val).hears m && decide (st = some stFAULT)) (aRaise n.val QAG_EVT_KEY_INVALID)) <|
      aRequest n.val m false [aLOADING, aLIVE] false 32 (fun _ => bad) fun _ =>
        let c := m.arg.toNat % 2 ^ 32
        .seq (modAgent n.val fun a =>
          if c % 2 = 0 then { a.set QAG_KEY_STAT_SLOT0 c with key0 := m.data } else { a.set QAG_KEY_STAT_SLOT1 c with key1 := m.data })
          (aResp n.val m stOK)

/-- WIT_KEY: the selector key for steps from the one in ARG (R141). -/
def execWitKey (n : Slot) (m : QMsg) (s : State) : Host.Outcome State Fault Refusal :=
  s.run <| aRequest n.val m false [aLOADING, aLIVE] false 8 (fun _ => false) fun _ =>
    .seq (modAgent n.val fun a => { a.set QAG_WIT_CFG_KEY_OK 1 with selectors := a.selectors ++ [(m.arg.toNat, leNat m.data)] })
      (aResp n.val m stOK)

/-! ## Admission -/

/-- ADMIT (R37, R51): the region table and the key of the mark course; LIVE at step s. -/
def execQuoinAdmit (n : Slot) (m : QMsg) (s : State) : Host.Outcome State Fault Refusal :=
  s.run <| .look fun d =>
    let a := d.agent n.val
    let c := numAt m.data 0 4
    when (a.hears m) <|
      match a.refusal m false [aLOADING] false (decide (m.data.length = 8) && !a.tableLength) (a.tableFault || !(a.holds c)) with
      | some st => aResp n.val m st
      | none => all [
          modAgent n.val fun a => { (a.set QAG_STEP_STEP m.arg.toNat).set QAG_STATE_STATE aLIVE with
            markKey := a.key c, markSlot := c % 2 },
          placeLists n.val m.arg.toNat,
          aResp n.val m stOK]

/-! ## Registers of the agent -/

/-- Offsets that the host may not write while bound (R35). -/
def ozmundOwned (o : Nat) : Bool :=
  (decide (0x400 ≤ o) && decide (o < 0x800)) || decide (o ∈ [0x30, 0x40, 0x48, 0x50, 0x58, 0x60]) ||
    (decide (0x1000 ≤ o) && decide (o < 0x1800))

/-- The agent's registers as they read. -/
def agentRead (d : Dev) (n off : Nat) : W64 :=
  let a := d.agent n
  if off = 0 then agentId n
  else if off = 0x80 then BitVec.ofNat 64 (agentTime d n)
  else if off = 0x38 then QAG_CBUF_USE_STALL_US.into (Store.get agentDflt a.regs off) (stallNow d a)
  else Store.get agentDflt a.regs off

/-- QAG_CTRL.QUIET (R57): FENCE_DONE with OK while a fence waits for it. -/
def quiet (n : Nat) : Prog := .seq (modAgent n fun a => a.set QAG_CTRL_QUIET 1) (fenceDone n stOK)
/-- QAG_CTRL.FENCE_REQ: the agent enters FENCED. -/
def fenceReq (n : Nat) : Prog :=
  .look fun d => .seq (modAgent n fun a => a.set QAG_CTRL_FENCE_REQ 1)
    (when (decide ((d.agent n).state = aLOADING) || decide ((d.agent n).state = aLIVE)) (enterFenced n 3))
/-- QAG_CTRL.FATAL with its reason code. -/
def fatal (n code : Nat) : Prog := .seq (modAgent n fun a => a.set QAG_CTRL_FATAL 1) (fatalPath n code 2)

/-- A write of QAG_CNT_ADD: FENCED ignores it (R56). -/
def cntAdd (n : Nat) (v : W64) : Prog :=
  .look fun d => when (decide ((d.agent n).state ≠ aFENCED)) (agentAdvance n (QAG_CNT_ADD_INDEX.of v) (QAG_CNT_ADD_INC.of v))

/-- A write of QAG_WIT_PUSH (R55): a record placed at the ring head, or a drop. DESIGN CHOICE: with QAG_WIT_CFG.EN = 0 the write is ignored, a
drop as well (notes/assumptions/206). -/
def witPush (n : Nat) (v : W64) : Prog :=
  .look fun d =>
    let a := d.agent n
    let len := QAG_WIT_PUSH_LEN.of v
    if !(a.on QAG_WIT_CFG_EN) then .done
    else if QAG_WIT_PUSH_DROP.of v = 1 then
      modAgent n fun a => { (a.set QAG_EVT_WIT_DROP 1).set QAG_HLT6_VALUE (satAdd 64 (a.get QAG_HLT6_VALUE) 1) with pushes := a.pushes + 1 }
    else if len = 0 then .done
    else
      let h := a.get QAG_WIT_RING_HEAD
      let off := if 0x4000000 < h + len then 0x11000 else h
      .seq (modAgent n fun a => { (if a.samples.isEmpty then a.set QAG_WIT_RING_TAIL off else a).set QAG_WIT_RING_HEAD (if off + len = 0x4000000 then 0x11000 else off + len) with
        pushes := a.pushes + 1, samples := a.samples ++ [(off, len)] }) (pumpSamples n)

/-- A write to one of the agent's registers, but for QAG_STEP. DESIGN CHOICE: the actions of one QAG_CTRL write are taken in the order KICK,
QUIET, FATAL, FENCE_REQ (notes/assumptions/207). -/
def agentWrite (n off : Nat) (v : W64) : Prog :=
  if off = 0x08 then all [
    when (decide (QAG_CTRL_KICK.of v = 1)) (modAgent n fun a => a.set QAG_CTRL_KICK 1),
    when (decide (QAG_CTRL_QUIET.of v = 1)) (quiet n),
    when (decide (QAG_CTRL_FATAL.of v = 1)) (fatal n (QAG_CTRL_REASON.of v)),
    when (decide (QAG_CTRL_FENCE_REQ.of v = 1)) (fenceReq n)]
  else if off = 0x88 then cntAdd n v
  else if off = 0x98 then witPush n v
  else modAgent n fun a =>
    let w := writtenWord agentRows off (Store.get agentDflt a.regs off) v
    { a with regs := Store.put agentDflt a.regs off w }

/-- A dropped message with a stale epoch is counted (R65). -/
def countStale (n : Nat) (m : QMsg) : Prog :=
  .look fun d => when (decide (m.epoch.toNat ≠ (d.agent n).get QAG_BIND_EPOCH))
    (modAgent n fun a => a.set QAG_HLT5_VALUE (satAdd 64 (a.get QAG_HLT5_VALUE) 1))

/-- A message of a reserved TYPE (R65): UNSUPPORTED, after the checks that come before it. -/
def reservedType (n : Nat) (m : QMsg) : Prog :=
  .look fun d =>
    let a := d.agent n
    when (a.hears m) (aResp n m ((firstCause [(decide (m.epoch.toNat ≠ a.get QAG_BIND_EPOCH), stEPOCH), (decide (a.state = aFENCED), stFENCED)]).getD
      stUNSUPPORTED))

/-- REG_RD (R65): an offset beyond the block, or not aligned, is FAULT. The table has no row for a message of a TYPE that no request has: this
row carries it (notes/assumptions/191); one of a type that only an agent sends is dropped. -/
def execQuoinRegRd (n : Slot) (m : QMsg) (ty : AgentType) (s : State) : Host.Outcome State Fault Refusal :=
  s.run <| match ty with
    | .regRd => aRequest n.val m true [aSIDEBAND, aREADY, aLOADING, aLIVE, aFENCED] true 0
        (fun _ => decide (0xFFFF < m.arg.toNat) || decide (m.arg.toNat % 8 ≠ 0)) fun _ =>
          .look fun d => aResp n.val m stOK 0 (leBytes 8 (agentRead d n.val m.arg.toNat).toNat)
    | .reserved => reservedType n.val m
    | .agentOnly => .look fun d => when ((d.agent n.val).hears m) (countStale n.val m)

/-- REG_WR (R40, R65): QAG_STEP is FAULT. -/
def execQuoinRegWr (n : Slot) (m : QMsg) (s : State) : Host.Outcome State Fault Refusal :=
  s.run <| aRequest n.val m true [aSIDEBAND, aREADY, aLOADING, aLIVE, aFENCED] true 8
    (fun _ => decide (0xFFFF < m.arg.toNat) || decide (m.arg.toNat % 8 ≠ 0) || decide (m.arg.toNat = 0x20)) fun _ =>
      .seq (agentWrite n.val m.arg.toNat (BitVec.ofNat 64 (leNat m.data))) (aResp n.val m stOK)

/-! ## A course at the agent -/

/-- The answer to a COURSE_ARM, with its ARG, in the order of R41; none: it arms. -/
def armRefusal (a : Agent) (m : QMsg) : Option (Nat × Nat) :=
  let c := numAt m.data 0 4
  let st := numAt m.data 8 8
  let size := a.get QAG_CBUF_CFG_SIZE
  match a.refusal m false [aLIVE] false
      (decide (m.data.length = 16) && !a.tableLength && decide (1 ≤ size) && decide (size ≤ 16)) (a.tableFault || !(a.holds c)) with
  | some e => some (e, if e = stFAULT ∧ !a.tableFault then 1 else 0)
  | none =>
    if st ≤ a.step then some (stBUSY, a.step)
    else if a.cstate = 1 ∨ a.cstate = 2 then some (stRETRY, 0)
    else none

/-- COURSE_ARM (R41). -/
def execCourseArm (n : Slot) (m : QMsg) (s : State) : Host.Outcome State Fault Refusal :=
  s.run <| .look fun d =>
    let a := d.agent n.val
    when (a.hears m) <|
      match armRefusal a m with
      | some (e, arg) => aResp n.val m e arg
      | none => .seq (modAgent n.val fun a => { (a.set QAG_STATE_CSTATE 1).set QAG_COURSE_CUR (numAt m.data 0 4) with
            armStep := numAt m.data 8 8, bufBase := a.get QAG_CBUF_BASE_BASE * 0x200000, bufSlots := a.get QAG_CBUF_CFG_SIZE * 512 })
          (aResp n.val m stOK)

/-- The granules of the shard that MARK_REQ names; none where R64 answers FAULT. -/
def markGrans (a : Agent) (arg : Nat) : Option (List Nat) :=
  let r := arg % 64
  let sh := arg / 2 ^ 8 % 2 ^ 24
  if arg / 64 % 4 ≠ 0 ∨ arg / 2 ^ 32 ≠ 0 ∨ a.cstate ≠ 2 then none
  else ((a.stateRegions.find? fun e => decide (e.1.entry = r)).bind fun e =>
    if 32 * sh < e.1.granules then a.granRun r (32 * sh) (min 32 (e.1.granules - 32 * sh)) else none).bind fun gs =>
      if gs.any fun g => decide (a.gran g = .sent) then none else some gs

/-- MARK_REQ (R52, R64): the MARK-128 of a shard's frozen contents under the key of the course drained. -/
def execMarkReq (n : Slot) (m : QMsg) (s : State) : Host.Outcome State Fault Refusal :=
  s.run <| aRequest n.val m false [aLIVE, aFENCED] false 0
    (fun a => (markGrans a m.arg.toNat).isNone || !(a.holds (a.get QAG_COURSE_CUR))) fun a => .look fun d =>
      let bl := frozenBlocks d n.val ((markGrans a m.arg.toNat).getD [])
      let k := a.key (a.get QAG_COURSE_CUR)
      if bl.all blockGood then
        aResp n.val m stOK 0 (leBytes 16 (mark128 (leNat (k.take 16)) (leNat (k.drop 16)) ((bl.map (·.1)).flatten) 1 0 0))
      else .seq (aRaise n.val QAG_EVT_CHECK_FAIL) (aResp n.val m stFAULT)

/-- The granules that a DRAIN_REQ or DRAIN_ACK names. -/
def drainGrans (a : Agent) (arg : Nat) : Option (List Nat) :=
  if a.cstate ≠ 2 then none else a.granRun (arg % 64) (arg / 2 ^ 8 % 2 ^ 24) (arg / 2 ^ 32)

/-- Whether R64 answers a DRAIN_REQ with FAULT. -/
def drainFault (a : Agent) (arg : Nat) : Bool :=
  decide (arg / 2 ^ 32 ≠ 0) &&
    (match drainGrans a arg with
      | none => true
      | some gs => gs.any fun g => decide (a.gran g = .sent))

/-- DRAIN_DATA for each block that a DRAIN_REQ names, with the block's own check (R49), then its RESP (R64). -/
def drainNow (n : Nat) (m : QMsg) : Prog :=
  .look fun d =>
    let bl := frozenBlocks d n ((drainGrans (d.agent n) m.arg.toNat).getD [])
    let first := m.arg.toNat / 2 ^ 8 % 2 ^ 24 * 0x200000
    let ps := bl.zipIdx.map fun e =>
      { status := if blockGood e.1 then stOK else stFAULT, arg := first + 4096 * e.2, data := e.1.1, check := some e.1.2 : APkt }
    all [
      when (!(bl.all blockGood)) (aRaise n QAG_EVT_CHECK_FAIL),
      aTransfer n 0x15 ps,
      match ps.find? fun p => decide (p.status ≠ stOK) with
      | some p => aResp n m stFAULT p.arg
      | none => aResp n m stOK]

/-- DRAIN_REQ (R64), checked when it is received: DRAIN_DATA for each block, then one RESP. One received while HALT_N is low waits (R61). -/
def drainReq (n : Nat) (m : QMsg) : Prog :=
  aRequest n m false [aLIVE] false 0 (fun a => drainFault a m.arg.toNat) fun a =>
    if m.arg.toNat / 2 ^ 32 = 0 then aResp n m stOK
    else if a.on QAG_STATE_HALTED then modAgent n fun a => { a with deferred := a.deferred ++ [m] }
    else drainNow n m

/-- DRAIN_REQ (R64). -/
def execDrainReq (n : Slot) (m : QMsg) (s : State) : Host.Outcome State Fault Refusal := s.run (drainReq n.val m)

/-- DRAIN_ACK (R44): the named granules go to SENT, protection lifted and slots freed; held writes go on. -/
def execDrainAck (n : Slot) (m : QMsg) (s : State) : Host.Outcome State Fault Refusal :=
  s.run <| aNotice n.val m [aLIVE] (fun a => (drainGrans a m.arg.toNat).isNone) fun a =>
    let gs := (drainGrans a m.arg.toNat).getD []
    all [
      modAgent n.val fun a =>
        { a with
          grans := gs.foldl (fun st g => Store.put granDflt st g .sent) a.grans
          copying := a.copying.filter fun g => !(gs.contains g) },
      modAgent n.val (·.counted),
      releaseHeld n.val,
      courseDoneTest n.val]

/-- ABANDON from the Ozmund (R44): the course it names is abandoned at the agent. -/
def execAgentAbandon (n : Slot) (m : QMsg) (s : State) : Host.Outcome State Fault Refusal :=
  s.run <| aRequest n.val m false [aLIVE, aFENCED] false 0 (fun _ => false) fun a =>
    .seq (when (decide (a.cstate ≠ 0) && decide (a.get QAG_COURSE_CUR = m.arg.toNat % 2 ^ 32)) (.seq (abandonCourse n.val) (answerDeferred n.val stABANDONED)))
      (aResp n.val m stOK)

/-- COMMIT_NOTE (R47). DESIGN CHOICE: it has no answer, and one that fails R65 is dropped (notes/assumptions/208). -/
def execCommitNote (n : Slot) (m : QMsg) (s : State) : Host.Outcome State Fault Refusal :=
  s.run <| aNotice n.val m [aLOADING, aLIVE] (fun _ => false) fun a =>
    let c := m.arg.toNat % 2 ^ 32
    modAgent n.val fun b =>
      let b := b.set QAG_COURSE_COMMITTED c
      if a.state = aLOADING then { b with mapR := [], rAll := false, mapP := [], pCourse := none }
      else if a.pCourse = some c then { b with mapR := a.mapP, rAll := false }
      else b

/-- Map R as bytes: bit g for granule g in table order. -/
def mapBytes (a : Agent) : List Byte :=
  (List.range 32768).map fun i =>
    BitVec.ofNat 8 ((List.range 8).foldl (fun v b =>
      v + if a.rAll ∨ Store.get (fun _ => false) a.mapR (8 * i + b) then 2 ^ b else 0) 0)

/-- DIRTY_REQ (R47): map R as a DIRTY_MAP transfer. DESIGN CHOICE: after the RESP (notes/assumptions/167). -/
def execDirtyReq (n : Slot) (m : QMsg) (s : State) : Host.Outcome State Fault Refusal :=
  s.run <| aRequest n.val m false [aLOADING, aLIVE, aFENCED] false 0 (fun _ => false) fun a =>
    .seq (aResp n.val m stOK) (aTransfer n.val 0x1B ((packets (mapBytes a)).map fun c => { data := c }))

/-- The Ozmund's RESP to CONTEXT (R42): OK ends the repeats, any other status sends the record again. One that fails R65 is dropped. -/
def execContextResp (n : Slot) (m : QMsg) (s : State) : Host.Outcome State Fault Refusal :=
  s.run <| .look fun d =>
    let a := d.agent n.val
    when (a.hears m) <| .seq (countStale n.val m) <|
      when (decide (m.epoch.toNat = a.get QAG_BIND_EPOCH) && decide (m.ver = 1) && decide (m.data.length ≤ 4096) && !(m.last && decide (m.pkts = 0)) &&
        decide (a.ctxWait = some m.tag.toNat)) <|
      if m.status = 0 then .seq (modAgent n.val fun a => { a with ctxWait := none, ctxOk := true }) (courseDoneTest n.val)
      else sendContext n.val

/-- No RESP to CONTEXT in 10 ms: the record is sent again with a new TAG (R42). -/
def execContextRetryTimeout (n : Slot) (s : State) : Host.Outcome State Fault Refusal :=
  s.run <| .look fun d => when (d.agent n.val).ctxWait.isSome (sendContext n.val)

/-! ## Fencing and dumps -/

/-- DUMP_REQ (R57): the dump is written and sent with reason 0. DESIGN CHOICE: after the RESP (notes/assumptions/167). -/
def execDumpReq (n : Slot) (m : QMsg) (s : State) : Host.Outcome State Fault Refusal :=
  s.run <| aRequest n.val m false [aLOADING, aLIVE, aFENCED] true 0 (fun _ => false) fun _ =>
    .seq (aResp n.val m stOK) (writeAgentDump n.val 0)

/-- FENCE (R57). In FENCED it is answered OK with no effect. -/
def execFence (n : Slot) (m : QMsg) (s : State) : Host.Outcome State Fault Refusal :=
  s.run <| aRequest n.val m false [aLOADING, aLIVE, aFENCED] true 0 (fun _ => false) fun a =>
    .seq (aResp n.val m stOK) (when (decide (a.state ≠ aFENCED)) (enterFenced n.val 1))

/-- UNFENCE (R34): back to LOADING, position still bound. -/
def execUnfence (n : Slot) (m : QMsg) (s : State) : Host.Outcome State Fault Refusal :=
  s.run <| aRequest n.val m false [aFENCED] true 0 (fun _ => false) fun _ =>
    .seq (modAgent n.val fun a => { (a.set QAG_STATE_STATE aLOADING).set QAG_CTRL_QUIET 0 with fenceReason := 0, doneSent := false })
      (aResp n.val m stOK)

/-- QUIET not set 15 ms after entry to FENCED: FENCE_DONE with FAULT (R57). -/
def execFenceQuietTimeout (n : Slot) (s : State) : Host.Outcome State Fault Refusal := s.run (fenceDone n.val stFAULT)

/-! ## The host -/

/-- A command of the host: held in reset with its agent, the host issues none (R40). -/
def hostRuns (n : Nat) (k : Prog) : Prog := .look fun d => when (decide ((d.agent n).state ≠ aRESET)) k

/-- QAG_STEP written in LIVE (R40, R42, R46, R55). -/
def stepLive (n : Nat) (v : W64) : Prog :=
  .look fun d =>
    let a := d.agent n
    if v.toNat = (a.step + 1) % 2 ^ 64 then all [
      complete stOK,
      when (decide (a.pushes < a.listed)) (aRaise n QAG_EVT_WIT_GAP),
      modAgent n fun a => { (a.set QAG_STEP_STEP v.toNat).set QAG_CBUF_USE_STALL_US 0 with stallFrom := none, stallTicks := 0 },
      stallUpdate n,
      when (decide (a.cstate = 1) && decide (a.armStep = v.toNat)) (cut n v.toNat),
      placeLists n v.toNat]
    else all [complete stFAULT, aRaise n QAG_EVT_STEP_SEQ, fatalPath n 6 4]

/-- A host's write of QAG_STEP (R40). -/
def stepWrite (n : Nat) (v : W64) : Prog :=
  .look fun d =>
    let st := (d.agent n).state
    if st = aLIVE then stepLive n v
    else complete (if st = aFENCED then stFENCED else stBUSY)

/-- The host writes QAG_STEP (R40). -/
def execQagStepWrite (n : Slot) (v : W64) (s : State) : Host.Outcome State Fault Refusal := s.run (hostRuns n.val (stepWrite n.val v))

/-- A local write of the host to a register of its agent (R8, R12, R35, R43, R59): while a position is bound, one to a register that the
Ozmund writes is ignored, with HOST_CFG. -/
def hostRegWrite (n off : Nat) (v : W64) : Prog :=
  if off % 8 ≠ 0 ∨ 0xFFFF < off then complete stFAULT
  else if off = 0x20 then stepWrite n v
  else .look fun d => .seq (complete stOK)
    (if (d.agent n).bound && ozmundOwned off then aRaise n QAG_EVT_HOST_CFG else agentWrite n off v)

/-- The host sets KICK (R58). -/
def execQagKick (n : Slot) (s : State) : Host.Outcome State Fault Refusal :=
  s.run (hostRuns n.val (modAgent n.val fun a => a.set QAG_CTRL_KICK 1))

/-- The host sets FATAL with a reason code (R57). -/
def execQagFatal (n : Slot) (code : BitVec 16) (s : State) : Host.Outcome State Fault Refusal :=
  s.run (hostRuns n.val (fatal n.val code.toNat))

/-- The host sets FENCE_REQ (R57). -/
def execQagFenceReq (n : Slot) (s : State) : Host.Outcome State Fault Refusal := s.run (hostRuns n.val (fenceReq n.val))

/-- The host sets QUIET (R57). -/
def execQagQuiet (n : Slot) (s : State) : Host.Outcome State Fault Refusal := s.run (hostRuns n.val (quiet n.val))

/-- The host writes QAG_CNT_ADD (R56). -/
def execQagCntAdd (n : Slot) (v : W64) (s : State) : Host.Outcome State Fault Refusal := s.run (hostRuns n.val (cntAdd n.val v))

/-- The host writes QAG_WIT_PUSH (R55). -/
def execQagWitPush (n : Slot) (v : W64) (s : State) : Host.Outcome State Fault Refusal := s.run (hostRuns n.val (witPush n.val v))

/-- The stall bound is reached (R46): the course is abandoned at the agent and ABANDON sent with reason STALL. -/
def stallAbandon (n : Nat) : Prog :=
  .look fun d =>
    let a := d.agent n
    all [abandonCourse n, answerDeferred n stABANDONED, aRaise n QAG_EVT_STALL_ABANDON,
      aSend n { ty := 0x18, sb := false, arg := a.get QAG_COURSE_CUR + 2 ^ 32 }]

/-- Sets the bits of granules in a map. -/
def setBits (m : Store Bool) (gs : List Nat) : Store Bool := gs.foldl (fun m g => Store.put (fun _ => false) m g true) m

/-- A host write to state (R44, R46, R47): its dirty bits are set; a write that meets a PROT granule is held while the
granule is copied, or for want of a slot. -/
def hostStateWrite (n addr : Nat) (bs : List Byte) : Prog :=
  .look fun d =>
    let a := d.agent n
    let gs := a.gransOf addr bs.length
    let w : HeldWrite := ⟨addr, bs⟩
    .seq (modAgent n fun a => { a with mapP := if a.pCourse.isSome then setBits a.mapP gs else a.mapP, mapR := setBits a.mapR gs }) <|
      if !(a.heldBack w) then hostWrite n addr bs
      else all [
        modAgent n fun a => { a with heldWrites := a.heldWrites ++ [w] },
        each (gs.filter fun g => decide (a.gran g = .prot) && !(a.copying.contains g)) fun g =>
          modAgent n fun a => if a.freeSlot.isSome then { a with copying := a.copying ++ [g] } else a,
        stallUpdate n,
        .look fun d' => when (decide (a.get QAG_CBUF_CFG_STALL_US = 0) && (d'.agent n).stallFrom.isSome) (stallAbandon n)]

/-- A host write to host memory (R44). -/
def execHostStateWrite (n : Slot) (addr : W64) (bs : List Byte) (s : State) : Host.Outcome State Fault Refusal :=
  s.run (hostRuns n.val (hostStateWrite n.val addr.toNat bs))

/-- The copy of a granule ends: COPIED, and the writes held for it proceed (R44). -/
def execCowCopyDone (n : Slot) (g : Nat) (s : State) : Host.Outcome State Fault Refusal :=
  s.run <| .look fun d =>
    let a := d.agent n.val
    when (a.copying.contains g) <|
      match { a with copying := a.copying.erase g }.freeSlot with
      | some slot => .seq (copyGranule n.val g slot) (releaseHeld n.val)
      | none => .done

/-- A held write proceeds once a slot is free (R46): the granules of write `i` that are still PROT are copied first. -/
def execHeldWriteRelease (n : Slot) (i : Nat) (s : State) : Host.Outcome State Fault Refusal :=
  s.run <| .look fun d =>
    let a := d.agent n.val
    match a.heldWrites[i]? with
    | none => .done
    | some w => .seq
        (each ((a.gransOf w.addr w.data.length).filter fun g => decide (a.gran g = .prot) && !(a.copying.contains g)) fun g =>
          .look fun d' => match (d'.agent n.val).freeSlot with
            | some slot => copyGranule n.val g slot
            | none => .done)
        (releaseHeld n.val)

/-- The stall time of the step reaches STALL_US while a write is held for want of a slot (R46). -/
def execStallAbandon (n : Slot) (s : State) : Host.Outcome State Fault Refusal :=
  s.run <| .look fun d => when ((d.agent n.val).stallFrom.isSome && decide ((d.agent n.val).get QAG_CBUF_CFG_STALL_US ≤ stallNow d (d.agent n.val)))
    (stallAbandon n.val)

/-- The host consumes a block (R49): its check is verified, and on a mismatch that persists CHECK_FAIL is set. -/
def execBlockConsume (n : Slot) (addr : W64) (s : State) : Host.Outcome State Fault Refusal :=
  s.run <| hostRuns n.val <| .look fun d => when (!(hostBlockOk d n.val addr.toNat)) (checkFailed n.val addr.toNat)

/-- An outgoing contribution is marked under the mark key (R51). Fields: position, SEQ24, slot bit, mark. -/
def execOutgoingContribution (n : Slot) (seq24 : BitVec 24) (bs : List Byte) (s : State) : Host.Outcome State Fault Refusal :=
  s.run <| hostRuns n.val <| .look fun d =>
    let a := d.agent n.val
    when (decide (a.state = aLIVE)) <|
      let pos := a.get QAG_BIND_POSITION
      send .fabric Kind.contribution
        [pos, seq24.toNat, a.markSlot, mark128 (leNat (a.markKey.take 16)) (leNat (a.markKey.drop 16)) bs 2 seq24.toNat pos] bs

/-- An incoming contribution is checked with the key in the slot its bit names (R51); a mismatch, or a slot never
written since BIND, sets MARK_FAIL. -/
def execContributionReceive (n : Slot) (pos : W32) (seq24 : BitVec 24) (slot : Fin 2) (mark : BitVec 128) (bs : List Byte)
    (s : State) : Host.Outcome State Fault Refusal :=
  s.run <| hostRuns n.val <| .look fun d =>
    let a := d.agent n.val
    let k := a.key slot.val
    if !k.isEmpty ∧ a.keyCourse slot.val ≠ 2 ^ 32 - 1 ∧
        mark128 (leNat (k.take 16)) (leNat (k.drop 16)) bs 2 seq24.toNat pos.toNat = mark.toNat then
      send (.slotHost n.val) Kind.contribution [pos.toNat, seq24.toNat, slot.val, mark.toNat] bs
    else .seq (aRaise n.val QAG_EVT_MARK_FAIL) (send (.slotHost n.val) Kind.markFailed [pos.toNat, seq24.toNat])

/-! ## Timers and pins -/

/-- HEARTBEAT (Table 2.31): ARG QAG_STEP; STATE, CSTATE, USED and stall time, 4 bytes each. Sending it clears KICK (Table 2.5). -/
def heartbeat (n : Nat) : Prog :=
  .look fun d =>
    let a := d.agent n
    .seq (modAgent n fun a => a.set QAG_CTRL_KICK 0) <| aSend n { ty := 0x40, sb := a.path, arg := a.step, data := pack [(4, a.state), (4, a.cstate), (4, a.get QAG_CBUF_USE_USED), (4, stallNow d a)] }

/-- Each 1 ms (R58): in LOADING and LIVE only with KICK; a period without it is counted. -/
def execHeartbeatTick (n : Slot) (s : State) : Host.Outcome State Fault Refusal :=
  s.run <| .look fun d =>
    let a := d.agent n.val
    if a.state = aLOADING ∨ a.state = aLIVE then
      (if a.on QAG_CTRL_KICK then heartbeat n.val
       else modAgent n.val fun a => a.set QAG_HLT4_VALUE (satAdd 64 (a.get QAG_HLT4_VALUE) 1))
    else when (decide (a.state = aREADY) || decide (a.state = aFENCED)) (heartbeat n.val)

/-- Every 100 ms from READY on (R59): QAG_HLT0–7, QAG_EVT, and reserved bytes. -/
def execHealthTick (n : Slot) (s : State) : Host.Outcome State Fault Refusal :=
  s.run <| .look fun d =>
    let a := d.agent n.val
    when (decide (aREADY ≤ a.state)) <| aSend n.val
      { ty := 0x41, sb := a.path, data := ((List.range 8).map fun i => leBytes 8 (Store.get agentDflt a.regs (0x100 + 8 * i)).toNat).flatten ++
          leBytes 8 (Store.get agentDflt a.regs 0x70).toNat ++ List.replicate 56 0 }

/-- HALT_N goes low (R61): the host is told to halt, and drain and sample packets stop; an agent in RESET halts its host when it leaves it. -/
def haltLow (n : Nat) : Prog :=
  .look fun d => .seq (modAgent n fun a => { a with haltLow := true })
    (when (decide ((d.agent n).state ≠ aRESET)) (.seq (aRaise n QAG_EVT_HALT) (haltHost n)))
def execHaltNLow (n : Slot) (s : State) : Host.Outcome State Fault Refusal := s.run (haltLow n.val)

/-- HALT_N goes high: both resume. -/
def execHaltNHigh (n : Slot) (s : State) : Host.Outcome State Fault Refusal :=
  s.run <| .look fun d => .seq (modAgent n.val fun a => { a with haltLow := false }) <| when ((d.agent n.val).on QAG_STATE_HALTED) <| all [
    modAgent n.val fun a => { a.set QAG_STATE_HALTED 0 with deferred := [] },
    send (.slotHost n.val) Kind.hostResume [],
    each (d.agent n.val).deferred fun m => drainNow n.val m,
    pumpSamples n.val]

end Sys2Proof.Machine
end

