-- ==== Sys2Proof/Machine/Flags.lean ====
section
/-! DEFINITION. The conditions that TLE_VXFLAGS collects from VX and RD instructions (R203), and the counts of completed
instructions (Tables 6.14 and 7.12). -/

namespace Sys2Proof.Machine

/-- TLE_VXFLAGS as a word (Table 7.11). -/
def Tile.vxFlags (t : Tile) : W64 := Store.get tileDflt t.regs 0x40

/-- Adds conditions to TLE_VXFLAGS; an instruction clears none (R203). -/
def Tile.addFlags (t : Tile) (f : Nat) : Tile :=
  { t with regs := Store.put tileDflt t.regs 0x40 (t.vxFlags ||| BitVec.ofNat 64 (f % 128)) }

/-- TLE_VXFLAGS cleared, as FLAGS leaves it (Table 8.14). -/
def Tile.clearFlags (t : Tile) : Tile := { t with regs := Store.put tileDflt t.regs 0x40 0 }

/-- Adds to a saturating count of the tile. -/
def Tile.bump (t : Tile) (f : Fld) (n : Nat := 1) : Tile := t.set f (satAdd f.width (t.get f) n)

end Sys2Proof.Machine
end

