-- ==== Sys2Proof/Machine/Mx.lean ====
section
/-! DEFINITION. MX passes (R157 to R177, R211): the checks that stop a pass before it starts, and the output elements
under the Reproducible Arithmetic Contract. -/

namespace Sys2Proof.Machine

/-! ## Fields of PASS (Table 8.4) -/

def mxGang (w : W64) : Nat := bitsAt w 9 2
def mxAcc (w : W64) : Bool := decide (bitsAt w 11 1 = 1)
def mxTr (w : W64) : Bool := decide (bitsAt w 12 1 = 1)
def mxSq (w : W64) : Bool := decide (bitsAt w 13 1 = 1)
def mxFmtA (w : W64) : Nat := bitsAt w 14 4
def mxFmtB (w : W64) : Nat := bitsAt w 18 4
def mxK (w : W64) : Nat := bitsAt w 38 17
def mxK0 (w1 : W64) : Nat := bitsAt w1 0 17

/-- Gangs, rows and columns of a configuration (Table 6.2). -/
def gangCount (cfg : Nat) : Nat := match cfg with | 0 => 4 | 1 => 2 | 2 => 2 | _ => 1
def gangRows (cfg : Nat) : Nat := match cfg with | 0 => 64 | 1 => 64 | _ => 128
def gangCols (cfg : Nat) : Nat := match cfg with | 0 => 64 | 2 => 64 | _ => 128

/-- The accumulator that holds output (m, n) of gang g (Table 6.2). -/
def gangAcc (cfg g m n : Nat) : Nat :=
  match cfg with
  | 0 => g
  | 1 => 2 * g + n / 64
  | 2 => g + 2 * (m / 64)
  | _ => 2 * (m / 64) + n / 64

/-- The accumulators a gang writes. -/
def gangAccs (cfg g : Nat) : List Nat :=
  match cfg with
  | 0 => [g] | 1 => [2 * g, 2 * g + 1] | 2 => [g, g + 2] | _ => [0, 1, 2, 3]

/-- The captured A registers of a pass: AA, AAS, AB, ABS in order (R209). -/
def avAt (e : QEntry) (i : Nat) : W64 := e.av.getD i 0

/-- The checks of a pass before it starts (R157, R162, R166, R211). -/
def passCheck (t : Tile) (e : QEntry) : Option Nat :=
  let fa := mxFmtA e.w0
  let fb := mxFmtB e.w0
  let mx := viewMX fa
  let k := mxK e.w0
  let k0 := mxK0 e.w1
  let cfg := t.get TLE_MXCFG_ACTIVE
  let m := gangRows cfg
  let n := gangCols cfg
  let a := avAt e 0
  let as_ := avAt e 1
  let b := avAt e 2
  let bs := avAt e 3
  let wa := viewBits fa
  let wb := viewBits fb
  let lines := if mxTr e.w0 then n else k0 + k
  let cols := if mxTr e.w0 then k0 + k else n
  let lastScale := (lines - 1) / 32 * (64 * aStride bs) + (if mxSq e.w0 then (cols - 1) / 32 else cols - 1) + 1
  firstCause [
    (decide (8 < fa) || decide (8 < fb) || (viewMX fa != viewMX fb), cFORMAT),
    (decide (65536 < k) || (mx && (decide (k % 32 ≠ 0) || decide (k0 % 32 ≠ 0))), cK),
    (mxTr e.w0 && mx && !mxSq e.w0, cTRANSPOSE),
    (decide (gangCount cfg ≤ mxGang e.w0), cGANG),
    (decide (aBase a % 64 ≠ 0) || decide (aBase b % 64 ≠ 0), cALIGN),
    (decide (0 < k) &&
      (!inStore (aBase a + 64 * (m - 1) * aStride a) (packedBytes wa (k0 + k)) ||
       !inStore (aBase b + 64 * (lines - 1) * aStride b) (packedBytes wb cols) ||
       (mx && (!inStore (aBase as_ + 64 * (m - 1) * aStride as_ + k0 / 32) (k / 32) ||
               !inStore (aBase bs) lastScale))), cBANK)]

/-- The block value of R169 and R170: products of 32 pairs, the two scale codes, and the value that is added. -/
def blockValue (ps : List (Ex × Ex)) (xa xb : Nat) : Ex :=
  let pr := ps.map fun p => Ex.mul p.1 p.2
  if xa = 0xFF ∨ xb = 0xFF ∨ pr.any (fun p => decide (p.1 = .nan)) then .nan
  else if pr.any (fun p => decide (p.1 = .inf false)) ∧ pr.any (fun p => decide (p.1 = .inf true)) then .nan
  else if pr.any (fun p => decide (p.1 = .inf false)) then .inf false
  else if pr.any (fun p => decide (p.1 = .inf true)) then .inf true
  else
    let sum := pr.foldl (fun s p => (Ex.add s p.1).1) (.fin false 0 1)
    let v := sum.scale ((xa : Int) + xb - 254)
    if v.isZero then .fin false 0 1 else v

/-- One addition into an accumulator, rounded once to binary32 (R169). -/
def accAdd (acc : Nat) (v : Ex) : Nat := (Fmt.fp32.round false .rne (Ex.add (Fmt.fp32.decode acc) v).1).1

/-- A product of R171: exact, rounded once to binary32. -/
def prod32 (a b : Ex) : Nat := (Fmt.fp32.round false .rne (Ex.mul a b).1).1

/-- The tree of R171 over eight products. -/
def tree8 (p : Nat → Nat) : Nat :=
  fp32Add (fp32Add (fp32Add (p 0) (p 1)) (fp32Add (p 2) (p 3))) (fp32Add (fp32Add (p 4) (p 5)) (fp32Add (p 6) (p 7)))

/-- The values that an output element adds over K, in order: block values of MX formats, group sums of the others. `a k`, `b k` are the
element codes, `xa j`, `xb j` the scale codes of block j (R169 to R171). -/
def outTerms (fa fb : Fmt) (k : Nat) (a b xa xb : Nat → Nat) : List Ex :=
  if fa.isMX then
    (List.range (k / 32)).map fun j =>
      blockValue ((List.range 32).map fun i => (fa.decode (a (32 * j + i)), fb.decode (b (32 * j + i)))) (xa j) (xb j)
  else
    (List.range ((k + 7) / 8)).map fun j => Fmt.fp32.decode (tree8 fun i =>
      if 8 * j + i < k then prod32 (fa.decode (a (8 * j + i))) (fb.decode (b (8 * j + i))) else 0)

/-- An output element over K (R169 to R171). -/
def outElem (fa fb : Fmt) (k : Nat) (a b xa xb : Nat → Nat) (acc : Nat) : Nat := (outTerms fa fb k a b xa xb).foldl accAdd acc

/-- A list in an order that the choices `c` make: each element goes to a chosen place among those before it. -/
def shuffle {α : Type} (c : Nat → Nat) (xs : List α) : List α :=
  xs.zipIdx.foldl (fun l e => l.insertIdx (c e.2 % (l.length + 1)) e.1) []

/-- Terms enter partial sums: each term is added to a chosen one, or begins a new one; `i` counts the choices. -/
def partialSums (c : Nat → Nat) : Nat → List Nat → List Ex → List Nat
  | _, ps, [] => ps
  | i, ps, t :: ts =>
    let k := c i % (ps.length + 1)
    partialSums c (i + 1) (if k < ps.length then ps.modify k (accAdd · t) else ps ++ [(Fmt.fp32.round false .rne t).1]) ts

/-- An output element under RELAXED (R177): the terms are taken in any order into binary32 partial sums, the first of which holds the
accumulator's word, and these are joined in any order at the end. `c` makes the choices, three for each term; nothing else is open. -/
def relaxedElem (c : Nat → Nat) (acc : Nat) (ts : List Ex) : Nat :=
  let n := ts.length
  match shuffle c ts with
  | [] => acc
  | t :: us =>
    match shuffle (fun i => c (2 * n + i)) (partialSums c n [accAdd acc t] us) with
    | [] => acc
    | p :: ps => ps.foldl fp32Add p

/-- The element of B at (k, n), and its scale (R211). -/
def passB (d : Dev) (base : Nat) (e : QEntry) (k n : Nat) : Nat :=
  let b := avAt e 2
  let t := if mxTr e.w0 then n else k
  let u := if mxTr e.w0 then k else n
  d.packedElem (base + aBase b + 64 * t * aStride b) (viewBits (mxFmtB e.w0)) u

def passBScale (d : Dev) (base : Nat) (e : QEntry) (k n : Nat) : Nat :=
  let bs := avAt e 3
  let t := if mxTr e.w0 then n else k
  let u := if mxTr e.w0 then k else n
  d.mem64 (base + aBase bs + 64 * (t / 32) * aStride bs + (if mxSq e.w0 then u / 32 else u)) 1

/-- The element of A at (m, k), and the scale of its block j (R211). -/
def passA (d : Dev) (base : Nat) (e : QEntry) (m k : Nat) : Nat :=
  d.packedElem (base + aBase (avAt e 0) + 64 * m * aStride (avAt e 0)) (viewBits (mxFmtA e.w0)) k

def passAScale (d : Dev) (base : Nat) (e : QEntry) (m j : Nat) : Nat :=
  d.mem64 (base + aBase (avAt e 1) + 64 * m * aStride (avAt e 1) + j) 1

/-- The values that output element (m, n) of a pass adds over its first `k` indices. -/
def passTerms (d : Dev) (base : Nat) (e : QEntry) (m n k : Nat) : List Ex :=
  let k0 := mxK0 e.w1
  outTerms (viewFmt (mxFmtA e.w0)) (viewFmt (mxFmtB e.w0)) k
    (fun i => passA d base e m (k0 + i)) (fun i => passB d base e (k0 + i) n)
    (fun j => passAScale d base e m (k0 / 32 + j)) (fun j => passBScale d base e (k0 + 32 * j) n)

/-- Output element (m, n) of a pass over its first `k` indices, from the accumulator's word (R174: over none it is +0 or unchanged). -/
def passElem (d : Dev) (base : Nat) (e : QEntry) (m n k acc : Nat) : Nat :=
  (passTerms d base e m n k).foldl accAdd (if mxAcc e.w0 then acc else 0)

/-- The cycles of Table 6.3, at least one chunk time. -/
def passCycles (e : QEntry) : Nat :=
  let fa := mxFmtA e.w0
  let fb := mxFmtB e.w0
  let k := mxK e.w0
  if fa = 0 ∨ fb = 0 then max 512 (8 * k)
  else if fa ≤ 2 then max 128 (2 * k)
  else if fa = 7 ∧ fb = 7 ∧ !mxTr e.w0 then max 64 ((k + 1) / 2)
  else max 64 k

/-- The outputs of a gang: row, column. -/
def gangCells (cfg : Nat) : List (Nat × Nat) :=
  (List.range (gangRows cfg)).flatMap fun m => (List.range (gangCols cfg)).map fun n => (m, n)

/-- The word of the accumulators that holds output (m, n). -/
def gangWord (cfg g m n : Nat) : Nat := 4096 * gangAcc cfg g m n + 64 * (m % 64) + n % 64

/-- The choices that one output element of a RELAXED pass takes at most: three for each of its terms. -/
def relaxedChoices (e : QEntry) : Nat := 3 * (mxK e.w0 + 1)

/-- The accumulators after a pass. Under RELAXED the order of summation within the pass is open (R177). -/
def passResult (d : Dev) (base : Nat) (t : Tile) (e : QEntry) (relaxed : Bool) (free : Nat → W64) : Tile :=
  let cfg := t.get TLE_MXCFG_ACTIVE
  let g := mxGang e.w0
  (gangCells cfg).foldl (fun u mn =>
    let i := gangWord cfg g mn.1 mn.2
    u.setAcc i (if relaxed ∧ mxK e.w0 ≠ 0 then
        relaxedElem (fun j => (free (relaxedChoices e * (128 * mn.1 + mn.2) + j)).toNat) (if mxAcc e.w0 then t.accWord i else 0)
          (passTerms d base e mn.1 mn.2 (mxK e.w0))
      else passElem d base e mn.1 mn.2 (mxK e.w0) (t.accWord i))) t

end Sys2Proof.Machine
end

