-- ==== Sys2Proof/Machine/Vx.lean ====
section
/-! DEFINITION. Vector instructions (R183 to R196, R212): checks, element functions, conversion and random draws. -/

namespace Sys2Proof.Machine

/-- The captured values of a VX instruction: S values of SA, SB and SC; A values of SA and SB; the P register. -/
def svAt (e : QEntry) (i : Nat) : W64 := e.sv.getD i 0

/-- Views that Table 7.3 allows an operation: destination and source. -/
def viewsOk (op : LOp) (dv sv : Nat) : Bool :=
  let small := [0, 1, 2]
  match op with
  | .vxAdd | .vxSub | .vxMul | .fma => (decide (dv ∈ small) && decide (sv ∈ small)) || (decide (dv = 9) && decide (sv = 9))
  | .div | .sqrt => (decide (dv = 0) && decide (sv = 0)) || (decide (dv = 9) && decide (sv = 9))
  | .rsqrt | .exp | .exp2 | .log | .log2 | .tanh | .sigmoid => decide (dv = 0) && decide (sv = 0)
  | .vxMin | .vxMax => decide (sv ∈ [0, 1, 2, 9]) && decide (dv = sv)
  | .abs | .neg => decide (sv ∈ [0, 1, 2, 3, 4, 5, 6, 7, 9]) && decide (dv = sv)
  | .cmpEq | .cmpLt | .cmpLe | .cmpUn => decide (sv ∈ [0, 1, 2, 9])
  | .sel => decide (sv ≤ 10) && decide (dv = sv)
  | .iadd | .isub | .imul | .imin | .imax | .vxAnd | .vxOr | .vxXor | .vxShl | .vxShr | .vxSar =>
    decide (dv = 10) && decide (sv = 10)
  | .i2f => decide (dv = 0) && decide (sv = 10)
  | .f2i => decide (dv = 10) && decide (sv = 0)
  | .cvt => decide (dv ≤ 9) && decide (sv ≤ 9)
  | .vxMov | .bcastRow | .bcastColumn | .trans => decide (sv ∈ [0, 10]) && decide (dv = sv)
  | .randRaw => decide (dv = 10)
  | .randUnif => decide (dv = 0)
  | .vxLd | .vxSt => decide (dv ≤ 10)
  | _ => true

/-- Whether the rows of the source view bound the operation. -/
def readsSView (op : LOp) : Bool := op.usesSA
/-- Whether the rows of the destination view do. -/
def readsDView (op : LOp) : Bool := !op.isCmp

/-- Scale bytes of a packed MX buffer: for each covered block, its table entry and its place beside A[SB] (the layout of
R211's scales). -/
def scalePlaces (axis r0 nr : Nat) (base stride : Nat) : List (Nat × Nat) :=
  match axis with
  | 0 => (List.range nr).flatMap fun i => [0, 1].map fun b => (2 * (r0 + i) + b, base + 64 * (r0 + i) * stride + b)
  | 1 => (List.range (nr / 32)).flatMap fun i => (List.range 64).map fun c =>
      (2 * c + (r0 / 32 + i), base + 64 * (r0 / 32 + i) * stride + c)
  | _ => (List.range (nr / 32)).flatMap fun i => [0, 1].map fun b =>
      (2 * (r0 / 32 + i) + b, base + 64 * (r0 / 32 + i) * stride + b)

/-- The tile-store address of a row of LD and ST (Table 8.7). -/
def ldRow (e : QEntry) (r : Nat) : Nat := aBase (e.av.getD 0 0) + bitsAt e.w1 0 25 + 64 * r * aStride (e.av.getD 0 0)

/-- The checks of a VX instruction at issue (R184, R212, Table 8.7). A reserved view code in either field is CAUSE = FORMAT, whether
or not the operation uses it (Table 8.6). -/
def vxCheck (t : Tile) (e : QEntry) : Option Nat :=
  let w := e.w0
  let op := e.op
  let dv := vxDView w
  let sv := vxSView w
  let r0 := vxR0 w
  let nr := vxNr w
  let srcs := (if op.usesSA then [vxSA w] else []) ++ (if op.usesSB then [vxSB w] else []) ++
    (if op = .fma then [vxSC w] else [])
  let tileStore := decide (op = .vxLd) || decide (op = .vxSt)
  let mxAxis := (tileStore && viewMX dv) || (decide (op = .cvt) && (viewMX dv || viewMX sv))
  let rows := (List.range nr).map fun i => (ldRow e (r0 + i), packedBytes (viewBits dv) 64)
  let scales := if viewMX dv then
      (scalePlaces (vxAxis w) r0 nr (aBase (e.av.getD 1 0)) (aStride (e.av.getD 1 0))).map fun p => (p.2, 1)
    else []
  firstCause [
    (decide (10 < dv) || decide (10 < sv) || !viewsOk op dv sv, cFORMAT),
    ((readsDView op && isACC (vxDst w) && decide (dv ≠ 0)) || srcs.any (fun c => isACC c && decide (sv ≠ 0)) ||
      srcs.any (fun c => isScalar c && viewMX sv), cFORMAT),
    (mxAxis && decide (vxAxis w ≠ 0) && (decide (r0 % 32 ≠ 0) || decide (nr % 32 ≠ 0)), cFORMAT),
    ((readsDView op && decide (viewRows dv < r0 + nr)) || (readsSView op && decide (viewRows sv < r0 + nr)), cRANGE),
    (op.isCmp && decide (1 < nr), cRANGE),
    (decide (op = .trans) && !(decide (nr = 0) || (decide (nr = 64) && decide (r0 = 0))), cRANGE),
    (tileStore && decide (0 < nr) && decide (ldRow e r0 % 64 ≠ 0), cALIGN),
    (decide (op = .vxSt) && (rows ++ scales).any (fun p => t.hitsCode p.1 p.2), cCODE),
    (tileStore && (rows ++ scales).any (fun p => !inStore p.1 p.2), cBANK)]

/-! ## Element functions -/

/-- A signed 32-bit value. -/
def sint32 (c : Nat) : Int := if c < 2 ^ 31 then c else (c : Int) - 2 ^ 32
/-- The 32-bit code of an integer, modulo 2³². -/
def code32 (i : Int) : Nat := (i % (2 ^ 32 : Nat)).toNat

/-- Integer operations on INT32 codes (Table 8.7, R189). -/
def intOp (op : LOp) (a b : Nat) : Nat :=
  match op with
  | .iadd => (a + b) % 2 ^ 32
  | .isub => (a + 2 ^ 32 - b) % 2 ^ 32
  | .imul => a * b % 2 ^ 32
  | .imin => if sint32 a ≤ sint32 b then a else b
  | .imax => if sint32 a ≤ sint32 b then b else a
  | .vxAnd => a &&& b
  | .vxOr => a ||| b
  | .vxXor => a ^^^ b
  | .vxShl => a * 2 ^ (b % 32) % 2 ^ 32
  | .vxShr => a / 2 ^ (b % 32)
  | _ => code32 (sint32 a / ((2 ^ (b % 32) : Nat) : Int))

/-- MIN and MAX (R189): −0 is below +0, and a NaN gives the canonical NaN. -/
def minMax (f : Fmt) (takeMax : Bool) (a b : Nat) : Nat :=
  let x := f.decode a
  let y := f.decode b
  if x = .nan ∨ y = .nan then f.canonicalNaN
  else
    let neg := fun v : Ex => match v with | .fin s _ _ => s | _ => false
    let below := x.lt y || (!(y.lt x) && x.isZero && y.isZero && neg x && !neg y)
    if takeMax then (if below then b else a) else (if below then a else if x.eq y && !(neg y && !neg x) then a else b)

/-- A compare of R189. -/
def cmpOp (op : LOp) (x y : Ex) : Bool :=
  let un := decide (x = .nan) || decide (y = .nan)
  match op with
  | .cmpEq => !un && x.eq y
  | .cmpLt => !un && x.lt y
  | .cmpLe => !un && !(y.lt x)
  | _ => un

/-- F2I (R189): toward zero, saturating; a NaN gives 0, with no condition, since no NaN is produced (Table 7.11). Code and
conditions. -/
def f2i (v : Ex) : Nat × Nat :=
  match v with
  | .nan => (0, 0)
  | .inf s => (if s then 2 ^ 31 else 2 ^ 31 - 1, flagSaturate)
  | .fin s n d =>
    let m := n / d
    let ix := decide (n % d ≠ 0)
    if s then (if 2 ^ 31 < m then (2 ^ 31, flagSaturate) else ((2 ^ 32 - m) % 2 ^ 32, flagIf ix flagInexact))
    else if 2 ^ 31 - 1 < m then (2 ^ 31 - 1, flagSaturate) else (m, flagIf ix flagInexact)

/-- The rounding of an instruction's RM field, with the word an element draws. -/
def rndOf (rm w : Nat) : Rnd := match rm with | 0 => .rne | 1 => .rtz | _ => .sto w

/-- A floating-point operation on exact operands, rounded once into the result format (R188): code and conditions. A
function no precision settles gives the free value `fv`. -/
def fpOp (op : LOp) (f : Fmt) (r : Rnd) (x y z : Ex) (fv : Nat) : Nat × Nat :=
  let fin (v : Ex) (fl : Nat) : Nat × Nat := let o := f.round false r v; (o.1, o.2 ||| fl)
  let fn (o : FnOut) : Nat × Nat :=
    match o.val with
    | some v => fin v (flagIf o.invalid flagInvalid + flagIf o.divZero flagDivZero)
    | none => (fv % 2 ^ f.bits, flagInexact)
  match op with
  | .vxAdd => let o := Ex.add x y; fin o.1 (flagIf o.2 flagInvalid)
  | .vxSub => let o := Ex.add x y.neg; fin o.1 (flagIf o.2 flagInvalid)
  | .vxMul => let o := Ex.mul x y; fin o.1 (flagIf o.2 flagInvalid)
  | .fma =>
    let p := Ex.mul x y
    let o := Ex.add p.1 z
    fin o.1 (flagIf (p.2 || o.2) flagInvalid)
  | .div => let o := Ex.div x y; fin o.1 (flagIf o.2.1 flagInvalid + flagIf o.2.2 flagDivZero)
  | .sqrt => let o := Ex.sqrt 640 x; fin o.1 (flagIf o.2 flagInvalid)
  | .rsqrt => let o := Ex.rsqrt 640 x; fin o.1 (flagIf o.2.1 flagInvalid + flagIf o.2.2 flagDivZero)
  | .exp => fn (fnExp x)
  | .exp2 => fn (fnExp2 x)
  | .log => fn (fnLog false x)
  | .log2 => fn (fnLog true x)
  | .tanh => fn (fnTanh x)
  | _ => fn (fnSigmoid x)

/-- ABS and NEG on a code: the sign bit alone, but a NaN becomes canonical (R188). -/
def signOp (op : LOp) (f : Fmt) (a : Nat) : Nat :=
  if f.decode a = .nan then f.canonicalNaN
  else
    let top := 2 ^ (f.bits - 1)
    let mag := a % top
    if op = .abs then mag else if a % (2 * top) = mag then mag + top else mag

/-! ## Conversion (R190 to R192) -/

/-- The rows of the block of an element, and its columns (Table 7.2). -/
def blockCells (axis row col : Nat) : List (Nat × Nat) :=
  match axis with
  | 0 => (List.range 32).map fun i => (row, col / 32 * 32 + i)
  | 1 => (List.range 32).map fun i => (row / 32 * 32 + i, col)
  | _ => (List.range 32).flatMap fun i => (List.range 32).map fun j => (row / 32 * 32 + i, col / 32 * 32 + j)

/-- The scale code of a destination block from the block's exact values (R191). -/
def blockScale (f : Fmt) (vs : List Ex) : Nat :=
  if !f.hasNaN && vs.any (fun v => decide (v = .nan)) then 0xFF
  else
    let amax := vs.foldl (fun m v => match v with
      | .fin _ n d => if m.1 * d < n * m.2 then (n, d) else m
      | _ => m) ((0, 1) : Nat × Nat)
    mxScaleCode f amax.1 amax.2

/-- One element of CVT into an MX destination whose block scale is `sc` (R191, R192). -/
def cvtMX (f : Fmt) (sat : Bool) (r : Rnd) (sc : Nat) (v : Ex) : Nat × Nat :=
  if sc = 0xFF then (0, 0)
  else
    let o := f.round sat r (v.scale (127 - (sc : Int)))
    -- MXINT8 has no −0
    if f = .mxint8 ∧ o.1 = 0 then (0, o.2) else o

/-! ## Random draws (R194) -/

/-- The 128-bit counter and the key of a stream. -/
def Tile.phxCtr (t : Tile) (k : Nat) : Nat := t.get (TLE_PHX_CTR_LO_CTR k) + 2 ^ 64 * t.get (TLE_PHX_CTR_HI_CTR k)
def Tile.setPhxCtr (t : Tile) (k c : Nat) : Tile :=
  (t.set (TLE_PHX_CTR_LO_CTR k) (c % 2 ^ 64)).set (TLE_PHX_CTR_HI_CTR k) (c / 2 ^ 64 % 2 ^ 64)

/-- The word that element `e` draws from stream `k`. -/
def Tile.drawn (t : Tile) (k e : Nat) : Nat :=
  philoxWord (t.get (TLE_PHX_KEY_KEY k)) ((t.phxCtr k + e / 4) % 2 ^ 128) (e % 4)

/-- The stream after an instruction that drew for `nr` rows. -/
def Tile.advance (t : Tile) (k nr : Nat) : Tile := t.setPhxCtr k ((t.phxCtr k + (64 * nr + 3) / 4) % 2 ^ 128)

/-! ## Whole instructions -/

/-- Whether a lane is written: not masked by the predicate (R186). -/
def laneOn (e : QEntry) (lane : Nat) : Bool :=
  !vxPen e.w0 || decide (e.op = .sel) || decide (bitsAt e.pv lane 1 = 1)

/-- The cells covered, row by row in lane order. -/
def cells (r0 nr : Nat) : List (Nat × Nat) :=
  (List.range nr).flatMap fun i => (List.range 64).map fun l => (r0 + i, l)

/-- The result element and conditions of every operation that computes lane by lane. -/
def vxElem (t : Tile) (e : QEntry) (free : Nat → W64) (row lane : Nat) : Nat × Nat :=
  let w := e.w0
  let sv := vxSView w
  let f := viewFmt sv
  let a := t.elem sv (vxSA w) (svAt e 0) row lane
  let b := t.elem sv (vxSB w) (svAt e 1) row lane
  let idx := 64 * (row - vxR0 w) + lane
  match e.op with
  | .vxMin => (minMax f false a b, 0)
  | .vxMax => (minMax f true a b, 0)
  | .abs | .neg => (signOp e.op f a, 0)
  | .sel => (if bitsAt e.pv lane 1 = 1 then a else b, 0)
  | .i2f =>
    let v := sint32 a
    Fmt.fp32.round false .rne (.fin (decide (v < 0)) v.natAbs 1)
  | .f2i => f2i (f.decode a)
  | .vxMov => (a, 0)
  | .bcastRow => (t.elem sv (vxSA w) (svAt e 0) (vxSB w) lane, 0)
  | .bcastColumn => (t.elem sv (vxSA w) (svAt e 0) row (vxSB w), 0)
  | .trans => (t.elem sv (vxSA w) (svAt e 0) lane row, 0)
  | .randRaw => (t.drawn (vxStream w) idx, 0)
  | .randUnif => ((Fmt.fp32.round false .rne (.fin false (t.drawn (vxStream w) idx / 256) (2 ^ 24))).1, 0)
  | .vxAdd | .vxSub | .vxMul | .fma | .div | .sqrt | .rsqrt | .exp | .exp2 | .log | .log2 | .tanh | .sigmoid =>
    fpOp e.op (viewFmt (vxDView w)) (rndOf (vxRm w) 0) (f.decode a) (f.decode b)
      (f.decode (t.elem sv (vxSC w) (svAt e 2) row lane)) (free idx).toNat
  | _ => (intOp e.op a b, 0)

/-- Whether a conversion is a bit copy: the same format on the same axis (Table 7.4). DESIGN CHOICE (notes/assumptions/209): CVT's one AXIS
field serves both sides, so that the same MX format always has the same axis. -/
def cvtCopies (w : W64) : Bool := decide (vxDView w = vxSView w)

/-- The scale codes that CVT writes: one for each destination block (R191), or the source's in a bit copy. -/
def cvtScales (t : Tile) (w : W64) (sc : W64) : List (Nat × Nat) :=
  if !viewMX (vxDView w) then []
  else
    (scalePlaces (vxAxis w) (vxR0 w) (vxNr w) 0 0).map fun p =>
      let i := p.1
      if cvtCopies w then (i, t.scale (vxSA w) i)
      else
        let cell := match vxAxis w with
          | 0 => (i / 2, i % 2 * 32)
          | 1 => (i % 2 * 32, i / 2)
          | _ => (i / 2 * 32, i % 2 * 32)
        (i, blockScale (viewFmt (vxDView w)) ((blockCells (vxAxis w) cell.1 cell.2).map fun q =>
          t.exact (vxSView w) (vxAxis w) (vxSA w) sc q.1 q.2))

/-- One element of CVT (R190), given the scales of the destination blocks. -/
def cvtElem (t : Tile) (e : QEntry) (scales : List (Nat × Nat)) (row lane : Nat) : Nat × Nat :=
  let w := e.w0
  let dv := vxDView w
  if cvtCopies w then (t.elem (vxSView w) (vxSA w) (svAt e 0) row lane, 0)
  else
    let v := t.exact (vxSView w) (vxAxis w) (vxSA w) (svAt e 0) row lane
    let r := rndOf (vxRm w) (if vxRm w = 2 then t.drawn (vxStream w) (64 * (row - vxR0 w) + lane) else 0)
    if viewMX dv then
      cvtMX (viewFmt dv) (vxSat w) r (((scales.find? fun p => p.1 = scaleIndex (vxAxis w) row lane).map (·.2)).getD 0x7F) v
    else (viewFmt dv).round (vxSat w) r v

/-- Writes results lane by lane, with the conditions of the lanes written. -/
def writeCells (t : Tile) (dv dst : Nat) (rs : List ((Nat × Nat) × (Nat × Nat))) : Tile :=
  rs.foldl (fun u r => (u.setElem dv dst r.1.1 r.1.2 r.2.1).addFlags r.2.2) t

/-- A predicate row of CMP: masked lanes keep their bit (R186). -/
def cmpRow (t : Tile) (e : QEntry) (old : W64) : W64 :=
  let w := e.w0
  let f := viewFmt (vxSView w)
  let row := vxR0 w
  BitVec.ofNat 64 <| (List.range 64).foldl (fun v lane =>
    let hit := if laneOn e lane then
        cmpOp e.op (f.decode (t.elem (vxSView w) (vxSA w) (svAt e 0) row lane)) (f.decode (t.elem (vxSView w) (vxSB w) (svAt e 1) row lane))
      else decide (bitsAt old lane 1 = 1)
    if hit then v + 2 ^ lane else v) 0

/-- A VX instruction that stays within the tile, on the tile's state (R186 to R196). -/
def vxRun (t : Tile) (e : QEntry) (free : Nat → W64) : Tile :=
  let w := e.w0
  let nr := vxNr w
  if nr = 0 then t
  else if e.op.isCmp then
    let p := TLE_P_VALUE (vxDst w - 0x10)
    t.set p (cmpRow t e (BitVec.ofNat 64 (t.get p))).toNat
  else
    let on := (cells (vxR0 w) nr).filter fun c => laneOn e c.2
    if e.op = .cvt then
      let scales := cvtScales t w (svAt e 0)
      let u := writeCells t (vxDView w) (vxDst w) (on.map fun c => (c, cvtElem t e scales c.1 c.2))
      let u := scales.foldl (fun u p => u.setScale (vxDst w) p.1 p.2) u
      -- the block scales are written whatever the predicate masks (Table 7.11)
      let u := u.addFlags (flagIf (!cvtCopies w && scales.any fun p => decide (p.2 = 0xFF)) flagNanBlock)
      if vxRm w = 2 ∧ !cvtCopies w then u.advance (vxStream w) nr else u
    else
      let u := writeCells t (vxDView w) (vxDst w) (on.map fun c => (c, vxElem t e free c.1 c.2))
      if e.op = .randRaw ∨ e.op = .randUnif then u.advance (vxStream w) nr else u

/-- LD: packed tile-store rows, and MX scales, into a buffer (Table 8.7). `base` is the tile store's physical start. -/
def vxLoad (d : Dev) (base : Nat) (t : Tile) (e : QEntry) : Tile :=
  let w := e.w0
  let dv := vxDView w
  let on := (cells (vxR0 w) (vxNr w)).filter fun c => laneOn e c.2
  let u := on.foldl (fun u c => u.setElem dv (vxDst w) c.1 c.2 (d.packedElem (base + ldRow e c.1) (viewBits dv) c.2)) t
  if viewMX dv then
    (scalePlaces (vxAxis w) (vxR0 w) (vxNr w) (aBase (e.av.getD 1 0)) (aStride (e.av.getD 1 0))).foldl
      (fun u p => u.setScale (vxDst w) p.1 (d.mem64 (base + p.2) 1)) u
  else u

/-- The bytes that ST writes: rows, then scales, each with its tile-store offset. A masked lane keeps its bits. -/
def vxStoreRuns (d : Dev) (base : Nat) (t : Tile) (e : QEntry) : List (Nat × List Byte) :=
  let w := e.w0
  let dv := vxDView w
  let row (r : Nat) : Nat × List Byte :=
    (ldRow e r, packRow (viewBits dv) ((List.range 64).map fun l =>
      if laneOn e l then t.elem dv (vxDst w) 0 r l else d.packedElem (base + ldRow e r) (viewBits dv) l))
  (List.range (vxNr w)).map (fun i => row (vxR0 w + i)) ++
  if viewMX dv then
    (scalePlaces (vxAxis w) (vxR0 w) (vxNr w) (aBase (e.av.getD 1 0)) (aStride (e.av.getD 1 0))).map
      fun p => (p.2, leBytes 1 (t.scale (vxDst w) p.1))
  else []

end Sys2Proof.Machine
end

