-- ==== Sys2Proof/Machine/Rd.lean ====
section
/-! DEFINITION. The reduction unit (R197 to R200): checks, the ORDER field, and the result slice. -/

namespace Sys2Proof.Machine

/-! ## Fields of REDUCE (Table 8.8) -/

def rdSrck (w : W64) : Nat := bitsAt w 11 2
def rdView (w : W64) : Nat := bitsAt w 13 4
def rdSrc (w : W64) : Nat := bitsAt w 17 6
def rdDst (w : W64) : Nat := bitsAt w 23 6
def rdDrow (w : W64) : Nat := bitsAt w 29 6
def rdN (w : W64) : Nat := if rdSrck w ≤ 1 then 64 else bitsAt w 39 12
def rdOrder (w1 : W64) : Nat := bitsAt w1 0 16
def rdOff (w1 : W64) : Nat := bitsAt w1 16 25
/-- ORDER (Table 7.7). -/
def ordKind (o : Nat) : Nat := o % 16
def ordGroup (o : Nat) : Nat := 2 ^ min 11 (o / 16 % 16)
def ordWide (o : Nat) : Bool := decide (o / 256 % 2 = 1)

/-- The format of the result: FP64 for FP64 input, FP32 otherwise (R198). -/
def rdOutView (w : W64) : Nat := if rdView w = 9 then 9 else 0

/-- Tile-store offset of vector `j` of a list in the tile store. -/
def rdVec (e : QEntry) (j : Nat) : Nat := aBase (e.av.getD 0 0) + rdOff e.w1 + 64 * j * aStride (e.av.getD 0 0)

/-- The checks of an RD instruction at issue (R198, R199, Table 8.8). -/
def rdCheck (t : Tile) (e : QEntry) : Option Nat :=
  let w := e.w0
  let o := rdOrder e.w1
  let k := rdSrck w
  let v := rdView w
  let n := rdN w
  let out := packedBytes (viewBits (rdOutView w)) 64
  let dst := aBase (e.av.getD 1 0)
  firstCause [
    (!(decide (v ∈ [0, 1, 2, 9])) || (decide (k ≤ 1) && decide (v = 9)) || (decide (k = 3) && decide (v ≠ 0)) ||
      decide (3 < ordKind o) || decide (512 ≤ o), cFORMAT),
    (decide (2048 < n) || (decide (k = 3) && decide ((4 - rdSrc w) * 64 < n)) ||
      (isTB (rdDst w) && decide (viewRows (rdOutView w) ≤ rdDrow w)), cRANGE),
    ((decide (k = 2) && decide (0 < n) && decide (rdVec e 0 % 64 ≠ 0)) || (decide (rdDst w = 0x3F) && decide (dst % 64 ≠ 0)), cALIGN),
    (decide (rdDst w = 0x3F) && t.hitsCode dst out, cCODE),
    ((decide (k = 2) && decide (0 < n) && !inStore (rdVec e (n - 1)) (packedBytes (viewBits v) 64)) ||
      (decide (rdDst w = 0x3F) && !inStore dst out), cBANK)]

/-- Element `i` of input vector `j` (R197). -/
def rdElem (d : Dev) (base : Nat) (t : Tile) (e : QEntry) (j i : Nat) : Nat :=
  let w := e.w0
  match rdSrck w with
  | 0 => t.elem (rdView w) (rdSrc w) 0 i j
  | 1 => t.elem (rdView w) (rdSrc w) 0 j i
  | 2 => d.packedElem (base + rdVec e j) (viewBits (rdView w)) i
  | _ => t.accWord (4096 * (rdSrc w + j / 64) + 64 * (j % 64) + i)

/-- A code widened exactly (R198). DESIGN CHOICE (notes/assumptions/210): of a NaN, a code of the working format is kept, a BF16 one keeps its
payload, and any other becomes the canonical NaN. -/
def widen (src dst : Fmt) (c : Nat) : Nat :=
  if src = dst then c
  else if src = .bf16 ∧ dst = .fp32 then c * 2 ^ 16
  else (dst.round false .rne (src.decode c)).1

/-- One ⊕ of R199 in the working format, with its conditions. -/
def plus (f : Fmt) (a b : Nat) : Nat × Nat :=
  let s := Ex.add (f.decode a) (f.decode b)
  let o := f.round false .rne s.1
  (o.1, o.2 ||| flagIf s.2 flagInvalid)

/-- A code with the conditions met so far. -/
def plusFl (f : Fmt) (a b : Nat × Nat) : Nat × Nat :=
  let o := plus f a.1 b.1
  (o.1, a.2 ||| b.2 ||| o.2)

/-- SEQ over a list that is not empty (R199). -/
def seqSum (f : Fmt) : List (Nat × Nat) → Nat × Nat
  | [] => (0, 0)
  | v :: vs => vs.foldl (plusFl f) v

/-- The largest power of two below `m`, for `m ≥ 2`. -/
def pairSplit (m : Nat) : Nat := 2 ^ Nat.log2 (m - 1)

/-- T(l, m) of PAIR over a list; the fuel bounds the depth (R199). -/
def pairSum (f : Fmt) : Nat → List (Nat × Nat) → Nat × Nat
  | 0, vs => seqSum f vs
  | _ + 1, [] => (0, 0)
  | _ + 1, [v] => v
  | n + 1, vs => plusFl f (pairSum f n (vs.take (pairSplit vs.length))) (pairSum f n (vs.drop (pairSplit vs.length)))

/-- Consecutive groups of `g`; the fuel bounds their number. -/
def groups (g : Nat) : Nat → List (Nat × Nat) → List (List (Nat × Nat))
  | 0, _ => []
  | _ + 1, [] => []
  | n + 1, vs => vs.take g :: groups g n (vs.drop g)

/-- A sum in the order of the ORDER field (R199). -/
def orderSum (f : Fmt) (o : Nat) (vs : List (Nat × Nat)) : Nat × Nat :=
  let gs := (groups (ordGroup o) vs.length vs).map (seqSum f)
  match ordKind o with
  | 0 => seqSum f vs
  | 1 => pairSum f 12 vs
  | 2 => seqSum f gs
  | _ => pairSum f 12 gs

/-- One result element: code in the result format and conditions (R197 to R199). -/
def rdResult (op : LOp) (view o : Nat) (codes : List Nat) : Nat × Nat :=
  let src := viewFmt view
  let out : Fmt := if view = 9 then .fp64 else .fp32
  match codes with
  | [] =>
    (match op with
      | .reduceSum => (0, 0)
      | .reduceMax => (out.infCode true, 0)
      | _ => (out.infCode false, 0))
  | [c] => (widen src out c, 0)
  | c :: cs =>
    if op = .reduceSum then
      let f : Fmt := if view = 9 ∨ ordWide o then .fp64 else .fp32
      let s := orderSum f o (codes.map fun x => (widen src f x, 0))
      if f = out then s
      else let r := out.round false .rne (f.decode s.1); (r.1, s.2 ||| r.2)
    else
      ((cs.map (widen src out)).foldl (minMax out (decide (op = .reduceMax))) (widen src out c), 0)

/-- The 64 elements of the slice. -/
def rdSlice (d : Dev) (base : Nat) (t : Tile) (e : QEntry) : List (Nat × Nat) :=
  (List.range 64).map fun i =>
    rdResult e.op (rdView e.w0) (rdOrder e.w1) ((List.range (rdN e.w0)).map fun j => rdElem d base t e j i)

/-- The tile after a slice is written to a buffer row. -/
def rdToBuffer (t : Tile) (e : QEntry) (slice : List (Nat × Nat)) : Tile :=
  slice.zipIdx.foldl (fun u s => u.setElem (rdOutView e.w0) (rdDst e.w0) (rdDrow e.w0) s.2 s.1.1) t

/-- A slice as packed bytes for the tile store. -/
def rdBytes (e : QEntry) (slice : List (Nat × Nat)) : List Byte :=
  packRow (viewBits (rdOutView e.w0)) (slice.map (·.1))

/-- The conditions of a slice. -/
def rdFlags (slice : List (Nat × Nat)) : Nat := slice.foldl (fun f s => f ||| s.2) 0

end Sys2Proof.Machine
end

