-- ==== Sys2Proof/Machine/Identity.lean ====
section
/-! DEFINITION. Certificates, the working key's signatures and identity fields (R380 to R385). -/

namespace Sys2Proof.Machine

/-- SHA-256 as bytes. -/
def digest (bs : List Byte) : List Byte := sha256 bs

/-- The Ozmund's own address (Table 0.6): ring position and rack. -/
def Dev.ownAddr (d : Dev) : Nat := d.get RNG_ADDR_POS + 64 * d.get RNG_ADDR_RACK

/-- Bytes `[off, off + n)` of a list. -/
def cut_ (bs : List Byte) (off n : Nat) : List Byte := (bs.drop off).take n

/-- All bytes of a range are 0. -/
def zeroAt (bs : List Byte) (off n : Nat) : Bool := (cut_ bs off n).all fun b => decide (b = 0)

/-- The certificate at the head of some bytes: 160 bytes and its signature (Table 15.3). -/
def certLen (bs : List Byte) : Nat := 160 + numAt bs 136 4
def certOf (bs : List Byte) : List Byte := bs.take (certLen bs)

/-- The subject public key of a certificate. -/
def certKey (c : List Byte) : List Byte := cut_ c 80 56

/-- R383: layout, kind, issuer digest, signature, reserved bytes. -/
def certOk (c : List Byte) (kind : Nat) (issuer : List Byte) : Bool :=
  decide (160 ≤ c.length) && decide (c.length = certLen c) && decide (c.take 8 = ascii "AZCERT01") && decide (numAt c 8 2 = 1) &&
    decide (numAt c 10 1 = kind) && decide (numAt c 11 1 < 2) && zeroAt c 12 4 && zeroAt c 41 3 && zeroAt c 46 2 && zeroAt c 140 20 &&
    decide (cut_ c 48 32 = digest issuer) && Config.lmsVerify issuer (c.take 160) (c.drop 160)

/-- The identity field of a peer (R384, R385): device certificate, working-key certificate, and the working key's
signature over a message, with the ENGINEERING flag that this part has (R381). -/
def identityOk (d : Dev) (field msg : List Byte) : Bool :=
  let eng := d.on SEC_STAT_ENG
  let dev := field.take 1932
  let wk := cut_ field 1932 1932
  certOk dev 1 (Config.rootPublic eng) && decide (numAt dev 11 1 = eng.toNat) && certOk wk 2 (certKey dev) &&
    decide (cut_ wk 24 16 = cut_ dev 24 16) && Config.lmsVerify (certKey wk) msg (field.drop 3864)

/-- Signs with the working key: the leaf is spent before the signature is released (R382); at 24,576 leaves the next
working key begins to be made. -/
def signWork (msg : List Byte) (k : List Byte → Prog) : Prog :=
  .look fun d =>
    let n := d.get SEC_LEAF_WK_USED
    all [put SEC_LEAF_WK_USED (n + 1),
      when (decide (24576 ≤ n + 1)) (modSec fun s => { s with wkMaking := true }),
      k (Config.lmsSign d.sec.wkGen n msg)]

/-- The identity field of this Ozmund over a message. -/
def withIdentity (msg : List Byte) (k : List Byte → Prog) : Prog :=
  signWork msg fun sig => .look fun d => k (Config.deviceCert ++ d.sec.wkCert ++ sig)

/-- A working key is certified: one identity leaf (R382). -/
def certifyWork : Prog :=
  .look fun d =>
    let leaf := d.get SEC_LEAF_ID_USED
    let g := d.sec.wkGen + 1
    let body := ascii "AZCERT01" ++ pack [(2, 1), (1, 2), (1, d.get SEC_STAT_ENG), (4, 0), (8, g)] ++ cut_ Config.deviceCert 24 16 ++
      pack [(1, 0), (3, 0), (2, 0), (2, 0)] ++ digest (certKey Config.deviceCert) ++ Config.lmsPublic g ++ pack [(4, 1612 + 160), (20, 0)]
    all [put SEC_LEAF_ID_USED (leaf + 1), put SEC_LEAF_WK_USED 0,
      modSec fun s => { s with wkGen := g, wkMaking := false, wkCert := body ++ Config.lmsSign 0 leaf body },
      put SEC_STAT_WK_READY 1,
      when (decide (1048576 < leaf + 1 + 1024)) (raise SEC_EVT_ID_LOW)]

/-- Whether an identity leaf is left. -/
def Dev.identityLeft (d : Dev) : Bool := decide (d.get SEC_LEAF_ID_USED < 1048576)

end Sys2Proof.Machine
end

