-- ==== Sys2Proof/Machine/LinkOps.lean ====
section
/-! DEFINITION. The link layer's sending side (R291, R292, R294, R295, R302), and the crossconnect's operations (R309 to R311). -/

namespace Sys2Proof.Machine

/-! ## Port states (Table 11.3) -/

def lOFF : Nat := 0
def lDOWN : Nat := 1
def lTRAINING : Nat := 2
def lUP : Nat := 3
def lSHED : Nat := 4
def lDETOUR : Nat := 5
def lPARKED : Nat := 6
def lQUIESCE : Nat := 7

def Dev.lState (d : Dev) (n : Nat) : Nat := d.get (LNK_STAT_STATE n)
/-- UP or SHED. -/
def Dev.lUp (d : Dev) (n : Nat) : Bool := decide (d.lState n = lUP) || decide (d.lState n = lSHED)

/-- Bit n of a field. -/
def bitOf (v n : Nat) : Bool := decide (v / 2 ^ n % 2 = 1)

/-- A LINK record of a port (Table 16.8). -/
def recordLink (p : Nat) : Prog := .look fun d => record 0x0C 0 (leBytes 1 p ++ leBytes 8 (d.word (LNK_STAT_STATE p).addr).toNat)

/-- A port takes a state with its lanes; a change of state is recorded. -/
def setPort (p st lanes : Nat) : Prog :=
  .look fun d => all [put (LNK_STAT_STATE p) st, put (LNK_STAT_LANES p) lanes, when (decide (d.lState p ≠ st)) (recordLink p)]

/-- The state of a port without a link: DOWN, or OFF while its EN is 0 (Table 11.3). -/
def Dev.downState (d : Dev) (p : Nat) : Nat := if d.on (LNK_CFG_EN p) then lDOWN else lOFF

/-- The port that carries a port's traffic: its own, or that of its detour path (Table 11.5). -/
def Dev.trayPort (d : Dev) (n : Nat) : Nat := if d.lState n = lDETOUR then d.get (LNK_STAT_DPORT n) else n

/-- The group of a port: a change of LNK_n_CFG.GROUP takes effect at its next training (Table 11.10). -/
def Dev.portGroup (d : Dev) (p : Nat) : Nat := (d.port p).group.getD (d.get (LNK_CFG_GROUP p))

/-- Ports 20–23 of a group that carry messages. -/
def Dev.groupPorts (d : Dev) (group : Nat) : List Nat :=
  [20, 21, 22, 23].filter fun p => decide (d.portGroup p = group) && (d.lUp p || decide (d.lState p = lQUIESCE))

/-- The port of a session's next message (R302): session 0 takes the PAIR ports, its DATA spread over them in turn, and a POD port when none
is left; another session keeps its POD port while that is up, and with no POD port left its messages go to the partner over session 0's
ports, to be relayed (Table 11.5). -/
def Dev.sessPort (d : Dev) (s : Nat) (isData : Bool) : Option Nat :=
  let pair := d.groupPorts 0
  let pod := d.groupPorts 1
  if s = 0 then
    (if pair.isEmpty then pod.head? else if isData then pair[(d.peer 0).turn % pair.length]? else pair.head?)
  else if pod.contains (d.peer s).port then some (d.peer s).port
  else if pod.isEmpty then pair.head?
  else pod[s % pod.length]?

/-! ## Flits (R291, R292, R294) -/

/-- DATA flits that a message takes with its prefix: 240 bytes to a flit. DESIGN CHOICE: every message begins a flit, and the end of its last
flit is 0 (notes/assumptions/221). -/
def flitsOf (len : Nat) : Nat := (len + 239) / 240
def TxMsg.flits (m : TxMsg) : Nat := flitsOf m.bytes.length

/-- The check of a flit over its first 31 eight-byte words (R291). -/
def flitCheck (f : List Byte) : Nat := (List.range 31).foldl (fun x i => x ^^^ numAt f (8 * i) 8) 0

/-- Flits held by the sender. -/
def Port.inFlight (p : Port) : Nat := (p.fseqOut + 4096 - p.oldest) % 4096
/-- The flits of the messages not released: those sent and not acknowledged, and those that wait. -/
def Port.heldFlits (p : Port) : List (List Byte × Nat) := (p.tx.map fun m => (List.range' m.acked (m.sent - m.acked)).map fun i => (m.bytes, i)).flatten
def Port.waitFlits (p : Port) : List (List Byte × Nat) := (p.tx.map fun m => (List.range' m.sent (m.flits - m.sent)).map fun i => (m.bytes, i)).flatten

/-- `k` more flits have been sent, oldest message first. -/
def markSent : Nat → List TxMsg → List TxMsg
  | _, [] => []
  | k, m :: ms => let j := min k (m.flits - m.sent); { m with sent := m.sent + j } :: markSent (k - j) ms
/-- `k` more flits have been acknowledged: a message whose every flit has been is released (R295). -/
def markAcked : Nat → List TxMsg → List TxMsg
  | _, [] => []
  | k, m :: ms =>
    let j := min k (m.sent - m.acked)
    let rest := markAcked (k - j) ms
    if m.acked + j = m.flits then rest else { m with acked := m.acked + j } :: rest

/-- DATA flit `f` of a port with part `i` of a message (Table 11.2): it leaves on the (f mod L)-th lane in use. Fields: lane and FSEQ. -/
def sendFlit (p f : Nat) (b : List Byte) (i : Nat) : Prog :=
  .look fun d =>
    let x := d.port p
    let lanes := if p < 24 then (List.range 8).filter (bitOf (d.get (LNK_STAT_LANES p))) else [0]
    let part := (b.drop (240 * i)).take 240
    let body := pack [(8, f + 2 ^ 12 * ((x.fseqIn + 4095) % 4096) + 2 ^ 24 * x.nak.toNat + 2 ^ 28 + 2 ^ 32 * (if i = 0 then 0 else 255))] ++ part ++
      List.replicate (240 - part.length) 0
    send (.port p) Kind.flit [lanes.getD (f % max 1 lanes.length) 0, f] (body ++ leBytes 8 (flitCheck body))

/-- Flits leave with successive FSEQs. -/
def sendFlits (p : Nat) : Nat → List (List Byte × Nat) → Prog
  | _, [] => .done
  | f, x :: xs => .seq (sendFlit p (f % 4096) x.1 x.2) (sendFlits p (f + 1) xs)

/-- Whether a port carries DATA flits (Table 11.3), or a sideband does (Table 11.10). -/
def Dev.linkCarries (d : Dev) (p : Nat) : Bool :=
  if p < 24 then d.lUp p || decide (d.lState p = lQUIESCE) else decide (d.get (LNK_SB_STATE (p - 24)) = 2)

/-- Sends as many of the flits that wait as the bound of 2,048 lets go. -/
def pumpPort (p : Nat) : Prog :=
  .look fun d =>
    let x := d.port p
    let fs := if d.linkCarries p then x.waitFlits.take (2048 - x.inFlight) else []
    .seq (sendFlits p x.fseqOut fs) (modPort p fun x => { x with fseqOut := (x.fseqOut + fs.length) % 4096, tx := markSent fs.length x.tx })

/-- A message of an origin takes its DSEQ and its prefix (R294), and goes in flits to the port that carries the traffic of `home`. `far`: the
receiver's session number. -/
def linkSend (origin home far : Nat) (b : List Byte) : Prog :=
  .look fun d =>
    let q := d.trayPort home
    let m : TxMsg := { origin := origin, home := home, bytes := pack [(4, (d.stream origin).out), (2, b.length), (2, far)] ++ b }
    .seq (.seq (modStream origin fun x => { x with out := (x.out + 1) % 2 ^ 32 }) (when (decide (q < 24)) (tally (1024 + 4 * q) (240 * m.flits))))
      (.seq (modPort q fun p => { p with tx := p.tx ++ [m] }) (pumpPort q))

/-! ## The crossconnect -/

/-- Whether the crossconnect refuses a command (R309): a MOVE to the stand-in ports while another slot is there, and a DETOUR
while a slot is there. -/
def Dev.xcnRefuses (d : Dev) : XOp → Bool
  | .move slot toStandIn _ => toStandIn && decide (d.get XCN_STAT_MAP ≠ 0) && decide (d.get XCN_STAT_MAP ≠ 2 ^ slot)
  | .detour _ on => on && decide (d.get XCN_STAT_MAP ≠ 0)

/-- The command and argument bytes of an operation (Table 11.8). -/
def XOp.bytes : XOp → List Byte
  | .move slot toStandIn _ => pack [(1, 0x10), (1, slot + 8 * toStandIn.toNat)]
  | .detour slot on => pack [(1, 0x11), (1, slot + 8 * on.toNat)]

/-- One frame on the crossconnect's SPI: CMD, ARG and CRC-8. -/
def spiFrame (cmd : List Byte) : Prog := .seq (bump XCN_SPI_FRAMES) (send .xcn Kind.spiFrame [] (cmd ++ leBytes 1 (crc8 cmd)))

/-- A frame and its repeats (R309): the first `bad` answers, of four at most, fail their CRC. -/
def spiFrames (cmd : List Byte) (bad : Nat) : Prog := .seq (each (List.range (min 4 (bad + 1))) fun _ => spiFrame cmd) (bump XCN_SPI_CRCERR bad)

/-- Clears the GO bit of an operation's register. -/
def clearGo : XOp → Prog
  | .move _ _ _ => put XCN_CTRL_GO 0
  | .detour _ _ => put XCN_DETOUR_GO 0

/-- An operation ends with ERR before the crossconnect takes it (R310). One of the shore controller stays for its timeout to
end, under R115. -/
def xcnRefused (op : XOp) : Prog :=
  .seq (.seq (put XCN_STAT_ERR 1) (clearGo op)) (match op with
    | .move _ _ true => .look fun d => modXcn fun x => { x with op := some op, since := d.clk }
    | _ => .done)

/-- Begins an operation (R310, steps 2 and 3): BUSY and the command, whose answers fail their CRC a free number of times (R309); four failures
or a refusal end it with ERR. XCN_STATUS rises as the crossconnect moves. Without crossconnect authority none is sent (R16). No command tells
the answer or the rise (notes/assumptions/220). -/
def xcnBegin (op : XOp) : Prog :=
  .look fun d => if !(d.on XCN_CTRL_AUTH) then xcnRefused op else withFree fun f =>
    let bad := f.toNat % 5
    .seq (spiFrames op.bytes bad) <|
    if bad = 4 ∨ d.xcnRefuses op then xcnRefused op
    else all [put XCN_STAT_BUSY 1, put XCN_STAT_STATUS 1, modXcn fun x => { x with op := some op, since := d.clk }]

/-- An operation that waits while BUSY is 1 (R311), and begins at once otherwise. -/
def xcnQueue (op : XOp) : Prog :=
  .look fun d =>
    if d.on XCN_STAT_BUSY then modXcn fun x => { x with waiting := x.waiting ++ [op] }
    else if !(d.on XCN_STAT_PGOOD) then xcnRefused op
    else xcnBegin op

/-- A move that the shore controller makes itself (R115, R125): it writes XCN_CTRL and sets GO. -/
def xcnMove (slot : Nat) (toStandIn : Bool) : Prog :=
  all [put XCN_CTRL_SLOT slot, put XCN_CTRL_DIR toStandIn.toNat, put XCN_CTRL_GO 1, xcnQueue (.move slot toStandIn true)]

end Sys2Proof.Machine
end

