-- ==== Sys2Proof/Machine/Peers.lean ====
section
/-! DEFINITION. Peer sessions and their messages (R282 to R285, R385). -/

namespace Sys2Proof.Machine

/-- What a peer message carries beside what its sender fills in. -/
structure POut where
  ty : Nat
  status : Nat := 0
  last : Bool := true
  pkts : Nat := 1
  tag : Nat := 0
  arg : Nat := 0
  data : List Byte := []
  /-- EPOCH, where it is not that of the job served or being admitted. -/
  epoch : Option Nat := none

/-- The epoch of messages to peers: that of the job served, or of the one being admitted. -/
def Dev.peerEpoch (d : Dev) : Nat := if d.epoch ≠ 0 then d.epoch else d.start.epoch

/-- Session states (Table 10.4). -/
def pCLOSED : Nat := 0
def pOPENING : Nat := 1
def pOPEN : Nat := 2
def pLOST : Nat := 3

/-- OPEN, OPEN_ACK, CLOSE and KEEPALIVE carry no job epoch (Table 10.5). -/
def noEpoch (ty : Nat) : Bool := decide (ty ≤ 4)

/-- A peer message leaves on a session. Fields: TYPE, the receiver's session number, SEQ, EPOCH, STATUS, FLAGS, PKTS,
TAG, ARG, CHECK of the payload. -/
def pSend (n : Nat) (m : POut) : Prog :=
  .look fun d =>
    let p := d.peer n
    let isData := decide (m.ty = 0x11)
    let q := d.sessPort n isData
    let epoch := if noEpoch m.ty then 0 else m.epoch.getD d.peerEpoch
    let flags := m.last.toNat + if m.data.isEmpty then 0 else 4
    let pkts := if m.last then m.pkts else 0
    let check := if m.data.isEmpty then 0 else crc64 m.data
    .seq (.seq (.seq (tally 1445 1) (modPeer n fun p => { p with sent := (p.sent + 1) % 2 ^ 32, port := q.getD 0x1F, turn := p.turn + isData.toNat }))
        (match q with
          | some q => linkSend (16 + n) q p.far (pack [(1, m.ty), (1, flags), (1, 1), (1, m.status), (4, epoch), (2, p.far), (2, 0), (4, p.sent), (2, m.data.length),
              (2, 0), (4, pkts), (4, 0), (4, m.tag), (8, m.arg), (8, check)] ++ m.data)
          | none => .done))
      (send (if n = 0 then .partner else .peer p.peer) Kind.peerMessage [m.ty, p.far, p.sent, epoch, m.status, flags, pkts, m.tag, m.arg, check] m.data)

/-- The partner's address, on session 0. -/
def Dev.partnerAddr (d : Dev) : Nat := d.get HUB_PAIR_PADDR

/-- The session in OPENING or OPEN to an address. -/
def Dev.sessionTo (d : Dev) (addr : Nat) : Option Nat :=
  (List.find? (fun e : Nat × PeerSess => decide (e.2.peer = addr) && (decide (e.2.st = pOPENING) || decide (e.2.st = pOPEN))) d.peers).map (·.1)

/-- SYN_STAT.SESSIONS after a change of state. -/
def countSessions : Prog :=
  .look fun d => put SYN_STAT_SESSIONS (d.peers.filter fun e => decide (e.2.st = pOPENING) || decide (e.2.st = pOPEN)).length

/-- The session an OPEN to or from an address takes: 0 for the partner, the one it had, or the lowest that is CLOSED. -/
def Dev.slotFor (d : Dev) (addr : Nat) : Option Nat :=
  if addr = d.partnerAddr ∧ d.on RNG_ADDR_ENUM then some 0
  else ((List.find? (fun e : Nat × PeerSess => decide (e.2.peer = addr) && decide (e.1 ≠ 0) && decide (e.2.st ≠ pCLOSED)) d.peers).map (·.1)) <|>
    ((List.range 16383).map (· + 1)).find? fun n => decide ((d.peer n).st = pCLOSED)

/-- 32 bytes from four words. -/
def nonceOf (f : Nat → W64) (at_ : Nat) : List Byte := (List.range 4).flatMap fun i => leBytes 8 (f (at_ + i)).toNat

/-- Sends OPEN on session `n` to an address (R385): OPENING, with a fresh ephemeral key. -/
def openSession (n addr : Nat) : Prog :=
  withFrees 4 fun f => .look fun d =>
    let body := pack [(2, d.get HUB_PART_PARTITION), (2, 0), (4, d.ownAddr)] ++ nonceOf f 0 ++ Config.kemPublic d.sync.ephemerals
    withIdentity body fun field => all [
      modPeer n fun _ => { st := pOPENING, peer := addr, eph := d.sync.ephemerals, openSent := body ++ field, port := 0x1F },
      modSync fun s => { s with ephemerals := s.ephemerals + 1 },
      countSessions,
      pSend n { ty := 0x01, last := true, pkts := 2, arg := n, data := body ++ field }]

/-- The keys and salts of a session from its shared secret and T₀: out and in (R385). -/
def sessionKeys (own peer : Nat) (ss t0 : List Byte) (p : PeerSess) : PeerSess :=
  let k (l : String) := digest (ss ++ t0 ++ ascii l)
  let iv := k "AZPS-IV"
  if own < peer then
    { p with keyOut := k "AZPS-LH", keyIn := k "AZPS-HL", saltOut := iv.take 4, saltIn := cut_ iv 4 4 }
  else { p with keyOut := k "AZPS-HL", keyIn := k "AZPS-LH", saltOut := cut_ iv 4 4, saltIn := iv.take 4 }

/-- A notice to an Ozmund (Table 10.7): its code at ARG bits 15:0. `info` is the sender's own number for the answer. A
notice to this Ozmund's own address comes back as a command. -/
def notify (addr code : Nat) (data : List Byte) (info : Nat := 0) : Prog :=
  .look fun d =>
    match d.sessionTo addr with
    | some n => .seq (modPeer n fun p => { p with reqs := p.reqs ++ [⟨p.sent, 0x10, code, info, data⟩] })
        (pSend n { ty := 0x10, arg := code, data := data })
    | none => send (.peer addr) Kind.notice [code, d.peerEpoch] data

/-- PAIR_HELLO to the partner (Tables 13.4, 13.6): when session 0 opens, and at each change of role, epoch or root. -/
def tellPartner : Prog :=
  .look fun d => notify d.partnerAddr 0x20 (pack [(4, d.ownAddr), (2, d.get RNG_ADDR_RACK), (1, d.get RNG_ADDR_TRAY), (1, d.mode.role.code),
    (4, d.peerEpoch), (2, d.get HUB_PART_PARTITION), (2, 0), (8, (d.word SEC_FWVER_VERSION.addr).toNat), (4, d.get CRS_COURSE_COMMITTED),
    (4, if d.epoch = 0 then 0 else d.get CRS_ROOT_ADDR)])

/-- The record of a role change (Table 16.8): new role, old role, epoch, cause. -/
def recordRole (old new : Role) (cause : Nat) : Prog :=
  .look fun d => record 0x03 new.code (pack [(1, old.code), (4, d.epoch), (1, cause)])
    (decide (old = .quarantine) || decide (new = .quarantine))

/-- Takes a role: the mode with GUEST_ON, the ROLE record, the notice of R335 and the word to the partner. A role
change that leaves the role as it is changes nothing. -/
def enterRole (r : Role) (guestOn : Bool) (cause : Nat := 0) : Prog :=
  .look fun d =>
    if d.mode.role = r then modMode fun m => { m with guestOn := guestOn }
    else all [
      modMode fun m => { m with role := r, guestOn := guestOn },
      recordRole d.mode.role r cause,
      .look fun d => notice 0x40 d.roleWord.toNat,
      tellPartner]

/-- RESP to a notice or a request (Table 10.6): TAG is its SEQ. -/
def pAnswer (src seq status : Nat) (arg : Nat := 0) (data : List Byte := []) : Prog :=
  .look fun d =>
    match d.sessionTo src with
    | some n => pSend n { ty := 0x15, status := status, tag := seq, arg := arg, data := data }
    | none => when (decide (src ≠ d.ownAddr)) (send (.peer src) Kind.notice [0x15, status, seq, arg] data)

/-- A message of a session has been received in order. -/
def heard (n : Nat) (seq : W32) : Prog := .seq (tally 1444 1) (modPeer n fun p => { p with rcvd := (seq.toNat + 1) % 2 ^ 32 })

/-- The checks of R285 on a message of an OPEN session, in the order of R13. -/
def pRefusal (d : Dev) (ty : Nat) (ver : Byte) (epoch : W32) (chk : Bool) (check : W64) (data : List Byte) (member lenOk fault : Bool) : Option Nat :=
  firstCause [
    (!member, stAUTH),
    (!(noEpoch ty) && decide (epoch.toNat ≠ d.peerEpoch), stEPOCH),
    (d.hubFenced, stFENCED),
    (decide (ver ≠ 1), stUNSUPPORTED),
    (!lenOk, stLENGTH),
    (fault || (chk && decide (crc64 data ≠ check.toNat)), stFAULT)]

/-- Members of the job served, by member index. -/
def Dev.isMember (d : Dev) (addr : Nat) : Bool := d.job.members.contains addr

/-- Whether a message of the epoch being torn down comes on a port in QUIESCE, which drops it (R314). Session 0 goes on. -/
def Dev.quiesced (d : Dev) (n epoch : Nat) : Bool :=
  decide (n ≠ 0) && decide (d.epoch ≠ 0) && decide (epoch = d.epoch) && decide (d.lState (d.peer n).port = lQUIESCE)

/-- Takes a notice: the first failure is answered, or the notice is carried out and `k` answers it. A message without an
OPEN session to its sender is dropped; this Ozmund's own notices need none. `exempt`: the notice is not of the job
served. `teardown`: it is one of the teardown's, which QUIESCE accepts. -/
def onNoticeIn (teardown : Bool) (m : NMsg) (exempt lenOk fault : Bool) (k : Prog) : Prog :=
  .look fun d =>
    let src := m.src.toNat
    let go : Prog := .look fun d =>
      match pRefusal d (if exempt then 0 else 0x10) m.ver m.epoch m.chk m.check m.data
          (exempt || decide (src = d.ownAddr) || decide (src = d.partnerAddr) || d.isMember src) lenOk fault with
      | some st => pAnswer src m.seq.toNat st
      | none => k
    if src = d.ownAddr then go
    else match d.sessionTo src with
      | some n => when (decide ((d.peer n).st = pOPEN)) (.seq (heard n m.seq)
          (if !teardown ∧ !exempt ∧ d.quiesced n m.epoch.toNat then bump SYN_COUNT_STALE else go))
      | none => .done

/-- Takes any other notice. -/
def onNotice (m : NMsg) (exempt lenOk fault : Bool) (k : Prog) : Prog := onNoticeIn false m exempt lenOk fault k

/-- Takes a notice that is answered OK and then carried out. -/
def onNoticeOk (m : NMsg) (exempt lenOk fault : Bool) (k : Prog) : Prog :=
  onNotice m exempt lenOk fault (.seq (pAnswer m.src.toNat m.seq.toNat stOK) k)

/-- Takes a notice of the teardown, of 8 bytes. -/
def onTeardown (m : NMsg) (k : Prog) : Prog :=
  onNoticeIn true m false (decide (m.data.length = 8)) false (.seq (pAnswer m.src.toNat m.seq.toNat stOK) k)

end Sys2Proof.Machine
end

