-- ==== Sys2Proof/Machine/WatchBase.lean ====
section
/-! DEFINITION. The sync unit's tables (R269 to R281): windows, watches to the control complex and to sessions, the
open-transfer table, the fence of the JOB window, and dumps (R286, R287). -/

namespace Sys2Proof.Machine

/-- Whether a wait for V on a counter holding C is satisfied (R270). -/
def satisfied (c v : W64) : Bool := decide (v = 0) || decide ((c - v).toNat < 2 ^ 63)

/-- The sync-unit counter of index `i` in a context's window (R272); none beyond the window. -/
def Dev.winCounter (d : Dev) (ctx i : Nat) : Option Nat :=
  if i < d.get (SYN_WIN_SIZE ctx) then some (d.get (SYN_WIN_BASE ctx) + i) else none

/-- Whether a counter belongs to the JOB window (Table 10.2). -/
def inJobWindow (counter : Nat) : Bool := decide (counter < 4096)

/-! ## Watches (R280) -/

/-- The lowest free watch. -/
def Dev.freeWatch (d : Dev) : Option Nat := (List.range 4096).find? fun n => (Store.find? d.watches n).isNone

/-- SYN_STAT.WATCHES after a watch is armed or removed. -/
def countWatches : Prog := .look fun d => put SYN_STAT_WATCHES d.watches.length

/-- Removes a watch. -/
def dropWatch (n : Nat) : Prog := .seq (.act (.watch n none)) countWatches

/-- Whether a watch belongs to a barrier of the course root. -/
def WatchTarget.barrier : WatchTarget → Bool
  | .courseBarrier | .rewindBarrier => true
  | _ => false

/-- The result of a watch goes to the control complex or to a session (Table 10.6): watch, result 0 FIRED or 1 TIMEOUT,
counter value. -/
def watchTell (n : Nat) (w : Watch) (result : Nat) : Prog :=
  .look fun d =>
    let v := (d.counter w.counter).toNat
    match w.target with
    | .session sess req => pSend sess { ty := 0x14, arg := req, data := pack [(2, w.counter - 8192), (1, result), (5, 0), (8, v)] }
    | _ => send .cc Kind.watchResult [n, result, v]

/-- Fires the watches on a counter that belong to no barrier and that its value now satisfies; a watch fires once and is
then removed. -/
def fireOthers (counter : Nat) : Prog :=
  .look fun d =>
    each (d.watches.filter fun e => decide (e.2.counter = counter) && !e.2.target.barrier && satisfied (d.counter counter) e.2.value) fun e =>
      all [tally 1441 1, dropWatch e.1, watchTell e.1 e.2 0]

/-- An advance of a barrier's own counter by its engine, once the barrier's watch is gone. -/
def advanceQuiet (counter : Nat) (inc : W64) : Prog :=
  .look fun d => when (decide (inc ≠ 0)) (all [tally 1440 1, .act (.counter counter (d.counter counter + inc)), fireOthers counter])

/-- Arms a watch of the control complex or of a session: the continuation gets its number and OK, or BUSY with
SYN_EVT.WATCH_FULL where none is free. A watch already satisfied fires at once. -/
def armOther (w : Watch) (k : Nat → Nat → Prog) : Prog :=
  .look fun d =>
    match d.freeWatch with
    | none => .seq (raise SYN_EVT_WATCH_FULL) (k 0 stBUSY)
    | some n => all [.act (.watch n (some w)), countWatches, k n stOK, fireOthers w.counter]

/-! ## Dumps (R286, R287, Table 10.8) -/

/-- Base of the post-mortem area. -/
def Dev.pmBase (d : Dev) : Nat := d.get SYN_PM_BASE_BASE * 2 ^ 23

/-- The flags of a dump. -/
def dumpFINAL : Nat := 1
def dumpREQUESTED : Nat := 2
def dumpFENCE : Nat := 4
def dumpQUARANTINE : Nat := 8
def dumpCHIP : Nat := 16
def dumpWHOLE : Nat := 32

/-- How an origin is coded in a dump: by its kind and number. -/
def Origin.word : Origin → Nat
  | .slot n => Config.originWord 0 n
  | .fabric => Config.originWord 1 0
  | .session n => Config.originWord 2 n
  | .local n => Config.originWord 3 n

/-- Whether an entry is against some counters (Table 10.8): before its LAST packet names one, by the window that its origin's signals reach. -/
def OpenEntry.against (e : OpenEntry) (first count : Nat) : Bool :=
  let c := if e.signal then e.counter else match e.origin with
    | .fabric | .local _ => 0
    | .session _ => 8192
    | .slot _ => 65536
  decide (first ≤ c) && decide (c < first + count)

/-- An open-transfer entry in a dump. -/
def OpenEntry.bytes (e : OpenEntry) (closed : Bool) : List Byte :=
  pack [(4, e.origin.word), (4, e.tag), (4, e.written), (4, e.pkts), (2, e.counter), (2, closed.toNat), (4, e.inc), (8, e.time)]

/-- A watch in a dump. -/
def Watch.bytes (w : Watch) : List Byte :=
  let sess := match w.target with | .session n _ => n | _ => 0
  let req := match w.target with | .session _ r => r | _ => 0
  let isS := match w.target with | .session _ _ => 2 | _ => 0
  pack [(2, w.counter), (2, 1 + isS), (2, sess), (2, 0), (8, w.value.toNat), (8, w.deadline), (8, req)]

/-- Writes the bytes of a dump with the sequence number `q` at a physical address. -/
def dumpTo (base q flags first count : Nat) (closed : List OpenEntry) : Prog :=
  .look fun d =>
    let ents := ((d.sync.transfers.filter (·.against first count)).map (·.bytes false) ++ closed.map (·.bytes true)).take 4096
    let head := ascii "AZSYNDMP" ++ pack [(2, 1), (2, flags), (4, q), (4, d.epoch), (4, d.ownAddr), (8, d.podTime), (4, first), (4, count),
      (4, ents.length)]
    all [
      zeroPhys base 0x106000,
      writePhys base head,
      writePhys (base + 0x1000) ((List.range count).map fun i => leBytes 8 (d.counter (first + i)).toNat).flatten,
      writePhys (base + 0x81000) ((List.range 1024).map fun m => leBytes 8 (d.word (SYN_BAR_A_COUNTER m).addr).toNat ++
        leBytes 8 (d.word (SYN_BAR_B_BASE m).addr).toNat).flatten,
      each d.watches fun e => writePhys (base + 0x85000 + 32 * e.1) e.2.bytes,
      writePhys (base + 0xA5000) ents.flatten,
      each d.peers fun e => writePhys (base + 0xC5000 + 16 * e.1)
        (pack [(4, e.2.peer), (1, e.2.st), (1, e.2.port), (2, 0), (4, e.2.sent), (4, e.2.rcvd)]),
      writePhys (base + 0x105000) (leBytes 8 q)]

/-- Writes a dump of `count` counters from `first`, mirrors it if the partner session is OPEN, and sets DUMP_DONE.
`closed`: the entries that the fence closed without signals. -/
def writeDump (flags first count : Nat) (closed : List OpenEntry) : Prog :=
  .look fun d =>
    let base := d.pmBase + d.sync.dumpSlot * 0x200000
    let q := (d.get SYN_DUMP_SEQ + 1) % 2 ^ 32
    all [
      put SYN_DUMP_SEQ q,
      dumpTo base q flags first count closed,
      modSync fun s => { s with dumpSlot := 1 - s.dumpSlot },
      put SYN_DUMP_GO 0,
      when (decide ((d.peer 0).st = pOPEN)) (.look fun d' => send .partner Kind.mirrorDump [q] (d'.physBytes base 0x105008)),
      raise SYN_EVT_DUMP_DONE]

/-! ## The open-transfer table (R274 to R279) -/

/-- SYN_STAT.OPEN after entries change. -/
def countOpen : Prog := .look fun d => put SYN_STAT_OPEN d.sync.transfers.length

/-- Whether an entry is against the JOB window. -/
def OpenEntry.onJob (e : OpenEntry) : Bool := decide (e.origin = .fabric) || (e.signal && inJobWindow e.counter)

/-- The entry of a transfer. -/
def Dev.openEntry (d : Dev) (o : Origin) (tag : Nat) : Option OpenEntry :=
  d.sync.transfers.find? fun e => decide (e.origin = o) && decide (e.tag = tag)

/-- Whether a packet finds its entry or may open one: the table has a free entry, and the origin is below its bound. -/
def Dev.transferRoom (d : Dev) (o : Origin) (tag : Nat) : Bool :=
  (d.openEntry o tag).isSome || decide (d.sync.transfers.length < 65536) && decide ((d.sync.transfers.filter fun e => decide (e.origin = o)).length < max 1 (d.get SYN_CFG_OPEN_MAX))

/-- Whether the fenced JOB window refuses a packet: it would open a new entry, or the counters are final. -/
def Dev.windowRefuses (d : Dev) (o : Origin) (tag : Nat) : Bool :=
  match d.sync.win with
  | .open => false
  | .draining => (d.openEntry o tag).isNone
  | .final => true

/-- One packet of a transfer has been written (R276): the continuation applies the signal (counter, increment) when every
counted packet has. -/
def packetWritten (o : Origin) (tag : Nat) (last : Option (Nat × Option (Nat × Nat))) (apply_ : Nat → Nat → Prog) : Prog :=
  .look fun d =>
    let e0 : OpenEntry := (d.openEntry o tag).getD { origin := o, tag := tag, written := 0, pkts := 0, counter := 0, inc := 0, signal := false, time := 0 }
    let e1 := { e0 with written := e0.written + 1, time := d.podTime, tick := d.clk }
    let e : OpenEntry := match last with
      | some (pkts, some (c, inc)) => { e1 with pkts := pkts, counter := c, inc := inc, signal := true }
      | some (pkts, none) => { e1 with pkts := pkts }
      | none => e1
    let rest := d.sync.transfers.filter fun x => !(decide (x.origin = o) && decide (x.tag = tag))
    let exceeds : Bool := decide (e.pkts ≠ 0) && decide (e.pkts < e.written)
    let whole := decide (e.pkts ≠ 0) && decide (e.pkts = e.written)
    all [
      modSync fun s => { s with transfers := if exceeds || whole then rest else rest ++ [e] },
      countOpen,
      when exceeds (raise SYN_EVT_COUNT_ERR),
      when (whole && e.signal) (apply_ e.counter e.inc)]

/-- Closes entries without their signals under R278. -/
def closeLost (p : OpenEntry → Bool) : Prog :=
  .look fun d =>
    let n := (d.sync.transfers.filter p).length
    when (decide (n ≠ 0)) (all [modSync fun s => { s with transfers := s.transfers.filter fun e => !(p e) }, countOpen,
      bump SYN_COUNT_LOST n, raise SYN_EVT_XFER_LOST])

/-- The JOB window is all zeros while nothing is shored (R273). -/
def zeroJobWindow : Prog := .look fun d => each (d.counters.filter fun e => inJobWindow e.1) fun e => .act (.counter e.1 0)

/-- The drain of the fenced window ends (R279): what remains open is closed without signals, the counters are final, and
a fence dump is written. -/
def windowFinal : Prog :=
  .look fun d =>
    when (decide (d.sync.win = .draining)) <|
      let closed := d.sync.transfers.filter (·.onJob)
      all [modSync fun s => { s with transfers := s.transfers.filter fun e => !e.onJob, win := .final }, countOpen,
        writeDump (dumpFINAL + dumpFENCE) (d.get (SYN_WIN_BASE 1)) (d.get (SYN_WIN_SIZE 1)) closed,
        when d.shore.slot.isNone zeroJobWindow]

/-- The JOB window is fenced (R279). With DRAIN_US = 0 open entries close at once. -/
def fenceWindow : Prog :=
  .look fun d =>
    when (decide (d.sync.win = .open)) <| all [
      modSync fun s => { s with win := .draining }, put SYN_STAT_FENCED 1,
      when (decide (d.get SYN_TIMEOUT_DRAIN_US = 0)) windowFinal]

/-- The window is set afresh and opens (R279, R288). -/
def openWindow : Prog := .seq (modSync fun s => { s with win := .open }) (put SYN_STAT_FENCED 0)

end Sys2Proof.Machine
end

