-- ==== Sys2Proof/Machine/JobOps.lean ====
section
/-! DEFINITION. Operations of a member on its tray: messages to agents, keys (R140, R141), positions and regions, the
broadcast tree (R347, R348), and bulk data to a peer. -/

namespace Sys2Proof.Machine

/-! ## Slots and positions -/

/-- Slot states (Table 1.6). -/
def sIDLE : Nat := 0
def sLIVE : Nat := 1
def sSHORED : Nat := 2
def sREINT : Nat := 3
def sFENCED : Nat := 4
def sQUAR : Nat := 5
def sABSENT : Nat := 6

/-- A slot's state. -/
def Dev.slotState (d : Dev) (n : Nat) : Nat := d.get (HUB_SLOT_STATE n)
/-- No position. -/
def noPos : Nat := 0xFFFFFFFF
/-- A slot's position. -/
def Dev.slotPos (d : Dev) (n : Nat) : Nat := d.get (HUB_SLOT_POSITION n)
/-- The slots in a state. -/
def Dev.slotsIn (d : Dev) (st : Nat) : List Nat := (List.range 8).filter fun n => decide (d.slotState n = st)
/-- The LIVE slots. -/
def Dev.live (d : Dev) : List Nat := d.slotsIn sLIVE
/-- Gives a slot a state. -/
def setSlot (n st : Nat) : Prog := put (HUB_SLOT_STATE n) st

/-- The package's positions of this member. -/
def Dev.myPositions (d : Dev) : List PosRec := d.job.positions.filter fun p => decide (p.member = d.get CRS_ROOT_MEMBER)
/-- The package's position of a slot. -/
def Dev.posOf (d : Dev) (n : Nat) : Option PosRec := d.myPositions.find? fun p => decide (p.slot = n)

/-- The position that messages to a slot's agent name: the slot's own, or the package's while an IDLE slot is loaded for the
job (Table 13.5). -/
def Dev.boundPos (d : Dev) (n : Nat) : Nat :=
  if d.slotPos n = noPos ∧ d.slotState n = sIDLE then ((d.posOf n).map (·.pos)).getD noPos else d.slotPos n

/-- A REGIONS record as an agent that holds its registers (Table 12.8). -/
def recAgent (r : List Byte) : Agent :=
  let put (a : Agent) (off v : Nat) : Agent :=
    { a with regs := Store.put agentDflt a.regs off (BitVec.ofNat 64 v &&& implMask agentRows off) }
  let a := [0x30, 0x40, 0x48, 0x50, 0x58].zipIdx.foldl (fun a e => put a e.1 (numAt r (8 + 8 * e.2) 8)) ({} : Agent)
  (List.range 128).foldl (fun a i => put a (0x400 + 8 * i) (numAt r (128 + 8 * i) 8)) a

/-- The region table of a position. -/
def Dev.table (d : Dev) (pos : Nat) : Agent :=
  match d.job.regions.find? fun e => decide (e.1 = pos) with
  | some e => recAgent e.2
  | none => {}

/-- Whether the shored position runs (phases RUNNING and COPYING of Table 4.10). -/
def Dev.shoredLive (d : Dev) : Bool := decide (d.get SHR_STAT_PHASE = 5) || decide (d.get SHR_STAT_PHASE = 6)

/-- The agent that the course engine is for the shored position (R95), among the agents. -/
def localAgent : Nat := 8

/-! ## Messages to an agent -/

/-- Whether a tray port carries messages, by its own lanes or its detour (Table 11.3). -/
def Dev.trayUp (d : Dev) (n : Nat) : Bool := decide (d.get (LNK_STAT_STATE n) ∈ [3, 4, 5])
/-- Whether a slot's sideband is up. -/
def Dev.sbUp (d : Dev) (n : Nat) : Bool := decide (d.get (LNK_SB_STATE n) = 2)

/-- The Ozmund sends a message to a slot's agent (Table 2.32) on a path. Fields as for an agent's message; EPOCH is that of the slot's BIND, 0
before it. -/
def oSendOn (n : Nat) (m : QOut) (keep : Bool) (note : List Nat) : Prog :=
  .look fun d =>
    let s := d.slot n
    let q := if m.sb then s.seqSb else s.seqTray
    let e := if m.ty = 0x02 then d.epoch else s.bound
    .seq (.seq (linkSend (if m.sb then 20000 + n else n) (if m.sb then 24 + n else n) 0 (m.bytes e (d.boundPos n) q)) (modSlot n fun s =>
      let s := { s with bound := if m.ty = 0x03 then 0 else e }
      let t := if m.sb then { s with seqSb := (s.seqSb + 1) % 2 ^ 32 } else { s with seqTray := (s.seqTray + 1) % 2 ^ 32 }
      if keep then { t with reqs := t.reqs ++ [{ seq := q, sb := m.sb, ty := m.ty, arg := m.arg, data := m.data, note := note }] } else t))
      (send (.agent n) Kind.quoin (m.fields e (d.boundPos n) q) (m.bytes e (d.boundPos n) q))

/-- The path of a message to an agent: the tray port, or the sideband while the port is down and the sideband carries the type (R66, R306). -/
def Dev.pathTo (d : Dev) (n ty : Nat) : Bool := !(d.trayUp n) && decide (ty ∈ [0x03, 0x04, 0x06, 0x07, 0x08, 0x33, 0x43, 0x45])

/-- A request to an agent. -/
def oReq (n ty arg : Nat) (data : List Byte := []) (note : List Nat := []) : Prog :=
  .look fun d => oSendOn n { ty := ty, sb := d.pathTo n ty, arg := arg, data := data } true note

/-- A message that has no answer. -/
def oTell (n ty arg : Nat) : Prog := .look fun d => oSendOn n { ty := ty, sb := d.pathTo n ty, arg := arg } false []

/-- A request that an agent refused with RETRY is sent again (R13). -/
def oAgain (n : Nat) (r : SReq) : Prog :=
  .look fun d => oSendOn n { ty := r.ty, sb := d.pathTo n r.ty, arg := r.arg, chk := decide (r.ty = 0x04), data := r.data } true []

/-- RESP to an agent's CONTEXT (R42). -/
def oResp (n : Nat) (m : QMsg) (status : Nat) : Prog :=
  oSendOn n { ty := 0x06, sb := m.sb, status := status, tag := m.seq.toNat } false []

/-- A transfer of blocks to an agent: ARG and payload of each packet. -/
def oPackets (n ty tag pkts : Nat) (chk : Bool) : List (Nat × List Byte) → Prog
  | [] => .done
  | (arg, bs) :: ps => .look fun d => .seq
      (oSendOn n { ty := ty, sb := d.pathTo n ty, last := ps.isEmpty, pkts := pkts, tag := tag, arg := arg, chk := chk, data := bs } ps.isEmpty [])
      (oPackets n ty tag pkts chk ps)
def oTransfer (n ty : Nat) (chk : Bool) (ps : List (Nat × List Byte)) : Prog :=
  .look fun d => .seq (modSlot n fun s => { s with tag := (s.tag + 1) % 2 ^ 32 }) (oPackets n ty (d.slot n).tag ps.length chk ps)

/-! ## Keys (R140, R141) -/

/-- The key of course c: the first digest whose H is neither 0 nor 1. -/
def courseKey (z : List Byte) (epoch c : Nat) : List Byte :=
  ((List.range 256).findSome? fun j =>
    let k := sha256 (z ++ ascii "AZMK" ++ leBytes 4 epoch ++ leBytes 4 c ++ leBytes 1 j)
    if 1 < leNat (k.take 16) then some k else none).getD []
/-- The selector key of rewind r. -/
def selectorKey (z : List Byte) (epoch r : Nat) : List Byte :=
  (sha256 (z ++ ascii "AZWS" ++ leBytes 4 epoch ++ leBytes 4 r)).take 8

def Dev.keyOf (d : Dev) (c : Nat) : List Byte := courseKey d.job.z d.epoch c

/-- MKEY for a course to a slot. -/
def sendKey (n c : Nat) : Prog :=
  .look fun d => .seq (oReq n 0x20 c (d.keyOf c))
    (modSlot n fun s => { s with keys := (s.keys.filter fun k => decide (k % 2 ≠ c % 2)) ++ [c] })
/-- COMMIT_NOTE to a slot. An agent answers it only to refuse it (R64, R109): the last one sent is kept for that. DEDUCED
(notes/assumptions/187). -/
def commitNote (n c : Nat) : Prog :=
  all [modSlot n fun s => { s with reqs := s.reqs.filter fun r => decide (r.ty ≠ 0x19) }, oReq n 0x19 c, modSlot n fun s => { s with noted := c }]
/-- WIT_KEY of a rewind for steps from `s`. -/
def sendSelector (n r s : Nat) : Prog := .look fun d => oReq n 0x21 s (selectorKey d.job.z d.epoch r)

/-- The member evaluates a slot's selection with the settings of this moment, until its next admission (R144, R147). -/
def witnessAs (n : Nat) : Prog :=
  .look fun d => modWit fun w => { w with sel := Store.insert w.sel n (d.on WIT_CTRL_EN, d.get WIT_CFG_RATE) }

/-- The witness registers that admission writes to an agent (R147): QAG_WIT_CFG, and the schedule rotated by s₀. -/
def sendSchedule (n : Nat) : Prog :=
  .seq (witnessAs n) <| .look fun d =>
    match (d.posOf n).bind fun p => (d.job.witness.find? fun e => decide (e.1 = p.program)).map (·.2) with
    | none => .done
    | some pairs =>
      let p := pairs.length
      .seq (oReq n 0x08 0x60 (leBytes 8 (d.get WIT_CTRL_EN + d.get WIT_CFG_RATE * 2 ^ 8 + p * 2 ^ 32)))
        (each (List.range p) fun k =>
          let e := pairs.getD ((k + p * (d.job.s0 + 1) - d.job.s0) % p) (0, 0)
          oReq n 0x08 (0x1000 + 8 * k) (leBytes 8 (e.1 + e.2 * 2 ^ 32)))

/-- The Ozmund-owned registers of an agent, from the package's REGIONS record. -/
def sendRegions (n : Nat) : Prog :=
  .look fun d =>
    let t := d.table (d.boundPos n)
    .seq (each [0x30, 0x40, 0x48, 0x50, 0x58] fun o => oReq n 0x08 o (leBytes 8 (Store.get agentDflt t.regs o).toNat))
      (each (List.range 128) fun i => oReq n 0x08 (0x400 + 8 * i) (leBytes 8 (Store.get agentDflt t.regs (0x400 + 8 * i)).toNat))

/-- QAG_CURn and the Philox streams of a position's step context record (R110). -/
def sendContextRegs (n : Nat) (ctx : List Byte) : Prog :=
  .seq (each (List.range 16) fun i => oReq n 0x08 (0x180 + 8 * i) (cut_ ctx (64 + 8 * i) 8))
    (each (List.range 1024) fun i => oReq n 0x08 (0x2000 + 8 * i) (cut_ ctx (192 + 8 * i) 8))

/-- The value of counter `i` of a position at a step, under the counter plan (R110); 0 for one the plan does not list. -/
def Dev.planValue (d : Dev) (pos i step : Nat) : Nat :=
  match d.job.plan.find? fun e => decide (e.idx = i) && (decide (e.pos = pos) || decide (e.pos = noPos)) with
  | some e => (e.a + e.d * ((step + 2 ^ 64 - d.job.s0) % 2 ^ 64)) % 2 ^ 64
  | none => 0

/-- COUNTER_SET of all counters of a slot. -/
def sendCounters (n : Nat) (value : Nat → Nat) : Prog :=
  oTransfer n 0x31 false ((List.range 8).map fun k => (512 * k, ((List.range 512).map fun i => leBytes 8 (value (512 * k + i))).flatten))

/-! ## The broadcast tree (R347, R348) -/

/-- The root's member index. -/
def Dev.rootIndex (d : Dev) : Nat := d.job.members.findIdx (fun a => decide (a = d.get CRS_ROOT_ADDR))
/-- This member's tree index. -/
def Dev.treeIndex (d : Dev) : Nat :=
  let n := max 1 d.job.members.length
  (d.get CRS_ROOT_MEMBER + n - d.rootIndex % n) % n
/-- The address of a tree index. -/
def Dev.treeAddr (d : Dev) (t : Nat) : Option Nat :=
  let n := max 1 d.job.members.length
  if t < d.job.members.length then d.job.members[(t + d.rootIndex) % n]? else none
/-- The children of this member, with those it has adopted (R349). -/
def Dev.children (d : Dev) : List Nat :=
  ((List.range 8).filterMap fun k => d.treeAddr (8 * d.treeIndex + 1 + k)) ++ d.start.adopted
/-- The parent, or the ancestor that stands in for it (R349). -/
def Dev.parent (d : Dev) : Option Nat := if d.get HUB_TREE_PARENT = 0x7FF then none else d.treeAddr (d.get HUB_TREE_PARENT)

/-- Forwards a broadcast notice to each child. -/
def forwardDown (code : Nat) (data : List Byte) : Prog := .look fun d => each d.children fun a => notify a code data
/-- The root broadcasts: to its children, and to itself. -/
def broadcast (code : Nat) (data : List Byte) : Prog := .look fun d => .seq (forwardDown code data) (notify d.ownAddr code data)
/-- A notice to the course root. -/
def toRoot (code : Nat) (data : List Byte) : Prog := .look fun d => notify (d.get CRS_ROOT_ADDR) code data
/-- A notice to the partner. -/
def toPartner (code : Nat) (data : List Byte) (info : Nat := 0) : Prog := .look fun d => notify d.partnerAddr code data info

/-- Bytes to a peer as the DATA of one transfer under a handle (Table 10.6). -/
def sendBulk (addr handle : Nat) (bs : List Byte) : Prog :=
  .look fun d =>
    match d.sessionTo addr with
    | none => .done
    | some n =>
      let ps := packets bs
      .seq (modSync fun s => { s with nextTag := (s.nextTag + 1) % 2 ^ 32 })
        (each ps.zipIdx fun e => pSend n
          { ty := 0x11, last := decide (e.2 + 1 = ps.length), pkts := ps.length, tag := d.sync.nextTag,
            arg := handle + e.2 * 4096 * 2 ^ 16, data := e.1 ++ List.replicate (64 - e.1.length) 0 })

/-- A fresh handle. -/
def withHandle (k : Nat → Prog) : Prog :=
  .look fun d => .seq (modSync fun s => { s with nextHandle := (s.nextHandle + 1) % 2 ^ 16 }) (k d.sync.nextHandle)

/-! ## Integrity events -/

/-- A field whose 0 acts as its reset value. -/
def orElse (v dflt : Nat) : Nat := if v = 0 then dflt else v

/-- The window of R150 in ticks. -/
def Dev.intWindow (d : Dev) : Nat := orElse (d.get WIT_LIMIT_WINDOW_S) 3600 * 700000000
/-- Times within the window. -/
def Dev.recent (d : Dev) (ts : List (Nat × Nat)) : List (Nat × Nat) := ts.filter fun e => decide (d.clk ≤ e.2 + d.intWindow)

/-- Counts an event against a slot. -/
def countSlot (n : Nat) : Prog :=
  .look fun d =>
    let ts := d.recent d.wit.slotTimes ++ [(n, d.clk)]
    all [modWit fun w => { w with slotTimes := ts },
      put (WIT_SLOT_EV_WINDOW n) (min 255 (ts.filter fun e => decide (e.1 = n)).length), bump (WIT_SLOT_EV_TOTAL n)]

/-- An integrity event of a class (R149): WIT_LAST, the datestone record, its bit of WIT_EVT, and its count. `slot` is none
for one counted against the Ozmund; DESIGN CHOICE: WIT_LAST.SLOT then reads 0 (notes/assumptions/171). -/
def intEvent (cls : Nat) (slot : Option Nat) (pos step : Nat) (ungated : Bool := false) : Prog :=
  all [
    put WIT_LAST_CLASS cls, put WIT_LAST_SLOT (slot.getD 0), put WIT_LAST_OZMUND slot.isNone.toNat, put WIT_LAST_UNGATED ungated.toNat,
    put WIT_LAST_POSITION pos, put WIT_LAST_STEP_STEP step,
    .look fun d => record 0x05 cls (leBytes 8 (d.word WIT_LAST_CLASS.addr).toNat ++ leBytes 8 (d.word WIT_LAST_STEP_STEP.addr).toNat),
    raise ⟨0x100030, cls - 1, 1⟩,
    .look fun d => modObs fun o => { o with hits := o.hits ++ ((List.range 8).filter fun n =>
      d.on (TAL_TRIG_A_ARMED n) && decide (d.get (TAL_TRIG_A_KIND n) = 4) && decide (d.get (TAL_TRIG_A_INDEX n) = cls) && !(o.hits.contains n)) },
    match slot with
    | some n => countSlot n
    | none => .done]

/-- The shored position's number, or none. -/
def Dev.shoredPos (d : Dev) : Nat := match d.shore.slot with | some n => d.slotPos n | none => noPos

/-- An integrity event counted against the Ozmund (Table 5.8). DESIGN CHOICE: one of the Ozmund's own memory carries the shored position
and its step, or no position (notes/assumptions/172). -/
def integrityOwn (cls : Nat) : Prog := .look fun d => intEvent cls none d.shoredPos (d.agent localAgent).step

end Sys2Proof.Machine
end

