-- ==== Sys2Proof/Machine/CourseOps.lean ====
section
/-! DEFINITION. The course engine of a member (R68 to R100): shards and their places, opening, the drain, sealing, votes,
commit and abandonment, and the local share of a shored position (R95). -/

namespace Sys2Proof.Machine

/-! ## Notice codes (Tables 3.1, 4.2 and 13.6) -/

def nCOURSE_OPEN : Nat := 0x01
def nCOURSE_DECIDE : Nat := 0x02
def nEARLY_REQ : Nat := 0x03
def nVOTE : Nat := 0x04
def nGROUP_DIGEST : Nat := 0x05
def nCOURSE_QUERY : Nat := 0x06
def nSHORE_NOTICE : Nat := 0x10
def nREWIND_PLAN : Nat := 0x11
def nREWOUND : Nat := 0x12
def nADMIT_ORDER : Nat := 0x13
def nMIRROR : Nat := 0x21
def nMIRROR_ACK : Nat := 0x22
def nFAR_PUT : Nat := 0x23
def nFAR_ACK : Nat := 0x24
def nLOST_REPORT : Nat := 0x27
def nDECISION_REC : Nat := 0x28
def nDECISION_ACK : Nat := 0x29
def nMANIFEST_WANT : Nat := 0x35

/-! ## Course states and causes (Tables 3.2 and 3.4) -/

def kIDLE : Nat := 0
def kOPENING : Nat := 1
def kDRAINING : Nat := 2
def kSEALING : Nat := 3
def kCOMMITTED : Nat := 4
def kABANDONED : Nat := 5

def vYES : Nat := 0
def vSTALL : Nat := 1
def vFENCE : Nat := 2
def vLATE : Nat := 3
def vTIMEOUT : Nat := 4
def vDIVERGE : Nat := 5
def vCAPACITY : Nat := 6
def vORDER : Nat := 7
def vCHECK : Nat := 8
def vRESET : Nat := 9
def vLINK : Nat := 10

/-- "No course" (R68). -/
def noCourse : Nat := 0xFFFFFFFF

def Dev.kState (d : Dev) : Nat := d.get CRS_STAT_STATE
/-- A course is in progress at this member. -/
def Dev.inCourse (d : Dev) : Bool := decide (1 ≤ d.kState) && decide (d.kState ≤ 3)
def Dev.cur (d : Dev) : Nat := d.get CRS_COURSE_CUR
def Dev.voted (d : Dev) : Bool := d.on CRS_STAT_VOTED
/-- A course option as it stands for the course in progress: a change takes effect at the next course opened. -/
def Dev.copt (d : Dev) (f : Fld) : Bool := decide (f.of d.course.ctrl = 1)
/-- The partner was PAIRED when the course opened, and still is (Table 3.9). -/
def Dev.paired (d : Dev) : Bool := d.course.paired && decide (d.mode.partner = .paired)
def withBit (v n : Nat) : Nat := if bitOf v n then v else v + 2 ^ n

/-- The slots whose share the Ozmund delivers itself: that of a shored position, and one handed back whose share of the course in progress
still drains from the Ozmund's copy (R95, R125). -/
def Dev.shoredSlots (d : Dev) : List Nat :=
  if d.shoredLive || decide (d.get SHR_STAT_PHASE = 7) then d.shore.slot.toList else d.shore.share.toList
/-- Whether an agent delivers a slot's share. -/
def Dev.remote (d : Dev) (n : Nat) : Bool := d.live.contains n && !(d.shoredSlots.contains n)
/-- The slots that take part in a course. -/
def Dev.taking (d : Dev) : List Nat := d.live.filter d.remote ++ d.shoredSlots

/-! ## Shards (R38) -/

/-- A shard of a slot's position: its region entry and number, its first granule in table order, its granules and 4 KiB
blocks. -/
structure Shard where
  slot : Nat
  region : Nat
  num : Nat
  first : Nat
  grans : Nat
  blocks : Nat
deriving DecidableEq, Repr

def Agent.shards (a : Agent) (slot : Nat) : List Shard :=
  a.stateRegions.flatMap fun e => (List.range ((e.1.blocks + 16383) / 16384)).map fun k =>
    ⟨slot, e.1.entry, k, e.2 + 32 * k, min 32 (e.1.granules - 32 * k), min 16384 (e.1.blocks - 16384 * k)⟩

/-- The region table of a slot's position. -/
def Dev.slotTable (d : Dev) (n : Nat) : Agent := d.table (d.slotPos n)
def Dev.shards (d : Dev) (n : Nat) : List Shard := (d.slotTable n).shards n
/-- The shard that holds a granule. -/
def Dev.shardOf (d : Dev) (n g : Nat) : Option Shard :=
  (d.shards n).find? fun s => decide (s.first ≤ g) && decide (g < s.first + s.grans)
/-- The granules of a shard. -/
def Shard.granules (s : Shard) : List Nat := (List.range s.grans).map (s.first + ·)
/-- ARG of DRAIN_REQ and DRAIN_ACK for a run of granules of a shard's region. -/
def Dev.runArg (d : Dev) (s : Shard) (g count : Nat) : Nat :=
  let start := (((d.slotTable s.slot).stateRegions.find? fun e => decide (e.1.entry = s.region)).map (·.2)).getD 0
  s.region + (g - start) * 2 ^ 8 + count * 2 ^ 32
/-- Blocks of a granule of a shard. -/
def Shard.blocksOf (s : Shard) (g : Nat) : Nat := min 512 (s.blocks - 512 * (g - s.first))

/-- A granule of a slot as one number, and a block of it. -/
def gk (n g : Nat) : Nat := 2 ^ 18 * n + g
def bk (n g b : Nat) : Nat := 512 * gk n g + b

def noFlag (_ : Nat) : Bool := false
def Dev.asked (d : Dev) (n g : Nat) : Bool := Store.get noFlag d.course.asked (gk n g)
def Dev.acked (d : Dev) (n g : Nat) : Bool := Store.get noFlag d.course.acked (gk n g)
def setAsked (n : Nat) (gs : List Nat) (b : Bool) : Prog :=
  modCourse fun c => { c with asked := gs.foldl (fun s g => Store.put noFlag s (gk n g) b) c.asked }

/-- Bit g of a dirty map. -/
def mapBit (m : List Byte) (g : Nat) : Bool := bitOf (m.getD (g / 8) 0).toNat (g % 8)

/-! ## Groups, carried shards and holders (R80, R81) -/

/-- The replica group of a position's region. -/
def Dev.groupOf (d : Dev) (pos region : Nat) : Option GroupRec :=
  d.job.groups.find? fun g => decide (g.region = region) && g.positions.contains pos
/-- The slots of this tray, ascending, whose positions take part in a group. -/
def Dev.groupSlots (d : Dev) (g : GroupRec) : List Nat :=
  (List.range 8).filter fun n => d.taking.contains n && g.positions.contains (d.slotPos n)
/-- Whether some position of a group lies on another tray. -/
def Dev.groupAway (d : Dev) (g : GroupRec) : Bool :=
  g.positions.any fun p => d.job.positions.any fun r => decide (r.pos = p) && decide (r.member ≠ d.get CRS_ROOT_MEMBER)

/-- The last COMMITTED course held. -/
def Dev.lastHeld (d : Dev) : Option Held := d.course.held.find? fun h => decide (h.course = d.get CRS_COURSE_COMMITTED)
/-- Its entry for a shard. -/
def Held.entFor (h : Held) (pos : Nat) (s : Shard) : Option MEnt :=
  h.ents.find? fun e => decide (e.pos = pos) && decide (e.region = s.region) && decide (e.shard = s.num)
/-- Whether a stored copy can still be read. -/
def Dev.storedOk (d : Dev) (addr blocks : Nat) : Bool :=
  (List.range ((addr % 0x200000 + 4096 * blocks + 0x1FFFFF) / 0x200000)).all fun i => d.physOk ((addr / 0x200000 + i) * 0x200000)

/-- Blocks of a stored shard that fail their checks raise CHECK (R138, R149). -/
def checkShard (e : MEnt) : Prog := .look fun d => when (d.storedOk e.loc e.len && !(d.runOk e.loc (e.len * 4096))) (integrityOwn 2)

/-- Every granule of a shard is clear in map D0 of its slot. -/
def Dev.clearInD0 (d : Dev) (s : Shard) (n : Nat) : Bool :=
  match Store.find? d.course.d0 n with
  | none => false
  | some m => s.granules.all fun g => !(mapBit m g)

/-- The shard of another slot with the same region and number. -/
def Dev.sameShard (d : Dev) (s : Shard) (n : Nat) : Option Shard :=
  (d.shards n).find? fun t => decide (t.region = s.region) && decide (t.num = s.num)

/-- The slots of the group of a shard on this tray; its own slot alone for a shard of no group. -/
def Dev.peersOf (d : Dev) (s : Shard) : List Nat :=
  match d.groupOf (d.slotPos s.slot) s.region with
  | some g => d.groupSlots g
  | none => [s.slot]

/-- The stored copy that a carried shard keeps (R80); none for a shard that is not carried. One stored once for several positions, or to be
compared with theirs (R81), asks for clear granules at each of them. -/
def Dev.carried (d : Dev) (s : Shard) : Option MEnt :=
  ((d.lastHeld.bind fun h => h.entFor (d.slotPos s.slot) s).filter fun e =>
    let peers := if d.copt CRS_CTRL_DEDUP_EN || bitOf e.flags 1 then d.peersOf s else [s.slot]
    d.copt CRS_CTRL_CARRY_EN && d.storedOk e.loc e.len && d.runOk e.loc (e.len * 4096) && peers.all fun n => (d.sameShard s n).any fun t => d.clearInD0 t n)

/-- What becomes of a shard: carried, drained, or marked only because another position's copy is stored. -/
inductive Share where
  | carried (e : MEnt)
  | drained
  | marked
deriving DecidableEq, Repr

/-- The slot whose copy of a group shard is stored (R81). -/
def Dev.holder (d : Dev) (s : Shard) : Nat :=
  let ns := d.peersOf s
  if d.copt CRS_CTRL_DEDUP_EN && decide (2 ≤ ns.length) then ns.getD (s.num % ns.length) s.slot else s.slot

def Dev.share (d : Dev) (s : Shard) : Share :=
  match d.carried s with
  | some e => .carried e
  | none => if d.holder s = s.slot then .drained else .marked

/-! ## The Shard Directory and places (R84, R85) -/

/-- Bytes of the tier and of the course cache in use by stored shards, granules on their way, far copies and homes of guest pages. -/
def Dev.usedPlaces (d : Dev) : List (Nat × Nat) :=
  (d.course.staged.map fun e => (e.2, pageBytes)) ++ d.course.dir.map (fun e => (e.2.addr, e.2.len * 4096)) ++ (d.hold.far.map fun f => (f.addr, f.len * 4096)) ++
    d.mmu.guests.flatMap fun g => g.pages.filterMap fun p => p.home.map fun h => (h, pageBytes)

/-- The lowest free place of some blocks between two addresses: at the start, or right after a place in use. -/
def Dev.placeIn (d : Dev) (lo hi blocks : Nat) : Option Nat :=
  let used := d.usedPlaces
  let fits (a : Nat) : Bool := decide (lo ≤ a) && decide (a + blocks * 4096 ≤ hi) &&
    used.all (fun u => !(overlap a (blocks * 4096) u.1 u.2)) && d.storedOk a blocks
  ((lo :: used.map fun u => u.1 + u.2).filter fits).foldl (fun m a => match m with
    | none => some a
    | some b => some (min a b)) none

/-- The end of the part of the tier that admission set aside for this member's own shards (R86), and the far area at the top of the tier
(R83). -/
def Dev.tierEnd (d : Dev) : Nat := tierPage (d.mmu.reservedTier - d.mmu.farTier)
def Dev.farBase (d : Dev) : Nat := tierPage (d.ddrDataPages - d.mmu.farTier)
def Dev.farTop (d : Dev) : Nat := tierPage d.ddrDataPages

/-- The part of the far area that takes a course's copies, one for each of the two courses held (R83). -/
def Dev.farPart (d : Dev) (course : Nat) : Nat × Nat :=
  let half := d.mmu.farTier / 2
  let lo := d.ddrDataPages - d.mmu.farTier + course % 2 * half
  (tierPage lo, tierPage (lo + half))
/-- Places for copies one above the other between two addresses, around what is in use. -/
def layFar (d : Dev) (hi : Nat) : Nat → List FarCopy → Option (List FarCopy)
  | _, [] => some []
  | lo, f :: fs => (d.placeIn lo hi f.len).bind fun a => (layFar d hi (a + f.len * 4096) fs).map ({ f with addr := a } :: ·)
/-- The places of a course's copies once one more has come: in the order of the manifest entries, in the course's part of the far area, or
anywhere in that area where copies carried from the other course leave the part too little room. DEDUCED: a copy that comes before an earlier
entry's moves up for it (notes/assumptions/188). -/
def Dev.farPlaces (d : Dev) (x : FarCopy) : Option (List FarCopy) :=
  let mine (f : FarCopy) : Bool := decide (f.epoch = x.epoch) && decide (f.course = x.course)
  let rest : Dev := { d with hold := { d.hold with far := d.hold.far.filter fun f => !(mine f) } }
  let fs := sortOn FarCopy.entry ((d.hold.far.filter fun f => mine f && decide (f.entry ≠ x.entry)) ++ [x])
  let part := d.farPart x.course
  (layFar rest part.2 part.1 fs) <|> (layFar rest d.farTop d.farBase fs)

/-- The page of the HBM course cache in which a granule gathers on its way into the tier (R84): the one it has, or the lowest free. -/
def Dev.stageFor (d : Dev) (k : Nat) : Option Nat := (Store.find? d.course.staged k) <|> (d.placeIn cacheBase d.reserveBase 512)

/-- What has come of some granules of a slot is discarded (R79). -/
def dropGranules (n : Nat) (gs : List Nat) : Prog :=
  let of (k : Nat) : Bool := gs.any fun g => decide (gk n g = k)
  modCourse fun c => { c with blocks := c.blocks.filter (fun e => !(of (e.1 / 512))), staged := c.staged.filter fun e => !(of e.1) }

/-- Whether shards of a slot stay in the HBM course cache: HOT, and a health watch of the slot fired within HOLDOFF_S. -/
def Dev.hot (d : Dev) (n : Nat) : Bool :=
  d.copt CRS_CTRL_HOT && d.course.fired.any fun f => decide (f.1 = n) &&
    decide (d.clk ≤ f.2.2 + CRS_CFG_HOLDOFF_S.of d.course.cfg * 700000000)

/-- A place for a shard: its tier and address. -/
def Dev.placeFor (d : Dev) (s : Shard) : Option (Nat × Nat) :=
  let ddr := (d.placeIn ddrBase d.tierEnd s.blocks).map fun a => (1, a)
  if d.hot s.slot then ((d.placeIn cacheBase d.reserveBase s.blocks).map fun a => (0, a)) <|> ddr else ddr

/-- The lowest free entry. -/
def Dev.freeDir (d : Dev) : Option Nat := (List.range 131072).find? fun i => (Store.find? d.course.dir i).isNone

/-- CRS_DIR after entries change. -/
def countDir : Prog :=
  .look fun d =>
    let n := d.course.dir.length
    .seq (put CRS_DIR_USED n) (put CRS_DIR_HIGH (max n (d.get CRS_DIR_HIGH)))

/-- The entry of a shard that is being drained. -/
def Dev.filling (d : Dev) (s : Shard) : Option (Nat × DirEnt) :=
  List.find? (fun e : Nat × DirEnt => decide (e.2.state = 1) && decide (e.2.slot = s.slot) && decide (e.2.region = s.region) &&
    decide (e.2.shard = s.num)) d.course.dir

/-- The entry of a shard of the course in progress, being drained or stored. -/
def Dev.placed (d : Dev) (s : Shard) : Option (Nat × DirEnt) :=
  List.find? (fun e : Nat × DirEnt => decide (e.2.slot = s.slot) && decide (e.2.region = s.region) && decide (e.2.shard = s.num) &&
    (decide (e.2.state = 1) || d.course.ents.any fun m => decide (m.loc = e.2.addr) && decide (m.flags % 2 = 0))) d.course.dir

/-- References and freedom of every entry (Table 3.6, R70, R85): IN0 and IN1 say which held courses refer to it, and an
entry to which none refers is freed. -/
def refreshDir : Prog :=
  .look fun d =>
    let cur := if d.inCourse then [(d.cur, d.course.ents)] else []
    let refs := cur ++ d.course.held.map fun h => (h.course, h.ents)
    let inSlot (b addr : Nat) : Bool := refs.any fun r => decide (r.1 % 2 = b) && r.2.any fun m => decide (m.loc = addr)
    let keep := d.course.dir.filterMap fun e =>
      if e.2.state = 1 then (if d.inCourse then some e else none)
      else
        let x := { e.2 with in0 := inSlot 0 e.2.addr, in1 := inSlot 1 e.2.addr }
        if x.in0 || x.in1 then some (e.1, x) else none
    .seq (modCourse fun c => { c with dir := keep }) countDir

/-- The 16 bytes of an entry (Table 3.6). -/
def DirEnt.bytes (e : DirEnt) : List Byte :=
  leBytes 16 (e.addr + e.tier * 2 ^ 52 + e.state * 2 ^ 54 + e.slot * 2 ^ 64 + e.region * 2 ^ 67 + e.shard * 2 ^ 73 +
    e.in0.toNat * 2 ^ 86 + e.in1.toNat * 2 ^ 87 + e.len * 2 ^ 88 + e.group * 2 ^ 103 + e.shared.toNat * 2 ^ 119)

/-! ## Votes (R89) -/

/-- VOTE to the root: the result, and the seal when it is YES. A member whose partner is not PAIRED sets SOLO, and one with
FAR_EN = 0 sets NOFAR, in a YES. -/
def vote (r : Nat) (sha : List Byte) : Prog :=
  .look fun d =>
    let solo := decide (r = vYES) && !d.paired
    let nofar := decide (r = vYES) && !(d.copt CRS_CTRL_FAR_EN)
    all [put CRS_STAT_VOTED 1, put CRS_STAT_SOLO solo.toNat, put CRS_CTRL_ABANDON 0,
      toRoot nVOTE (pack [(4, d.cur), (2, d.get CRS_ROOT_MEMBER), (1, r), (1, solo.toNat + 2 * nofar.toNat)] ++
        (sha ++ List.replicate 32 0).take 32),
      when solo (raise CRS_EVT_SOLO_VOTE)]

/-- Changes the leaf of every page of the STATE regions of context 1. -/
def eachLocalLeaf (f : Nat → Nat) : Prog :=
  .look fun d =>
    let a := d.agent localAgent
    each (List.range a.granCount) fun g => match a.granAt g with
      | some (base, _) => .look fun d => when (d.leafOf 1 base).isSome (editLeaf 1 base f)
      | none => .done

/-! ## Abandonment and commit -/

/-- The Ozmund's copy of a position handed back is given up: its pages are filled with zeros and released (R125, R250). -/
def releaseLocal : Prog :=
  .look fun d => all [
    each d.mmu.jobPages fun p => zeroPhys p.2 pageBytes,
    modMmu fun m => { m with jobPages := [], reclaim := if m.reclaim = .ended then .idle else m.reclaim },
    put (MMU_ROOT_VALID 1) 0, put (MMU_ROOT_ROOT 1) 0,
    modAgent localAgent fun _ => {}, zeroJobWindow,
    modShore fun s => { s with share := none }]

/-- The course in progress ends ABANDONED at this member with a cause (Table 3.3): ABANDON with reason ORDER to each LIVE
agent that has not sent COURSE_DONE, the vote unless one has been sent or none is due, and the storage released. -/
def abandonHere (cause : Nat) (tell : Bool) : Prog :=
  .look fun d =>
    when d.inCourse (all [
      each (d.live.filter fun n => d.remote n && !(bitOf (d.get CRS_STAT_DONE) n)) fun n => oReq n 0x18 (d.cur + 3 * 2 ^ 32),
      when (tell && !d.voted) (vote cause []),
      put CRS_STAT_STATE kABANDONED, put CRS_STAT_LAST_CAUSE cause, put CRS_STAT_UNACKED 0, put CRS_CTRL_ABANDON 0,
      bump CRS_COUNT_ABANDONS,
      when (decide (1 ≤ cause) && decide (cause ≤ 10)) (raise ⟨0x80050, cause, 1⟩),
      modCourse fun c => { c with ents := [], asked := [], acked := [], blocks := [], retried := [], staged := [], marks := [], cuts := [], farWait := [],
                                  rearm := [], digests := [], stalls := if cause = vSTALL then c.stalls + 1 else 0 },
      when (decide (cause = vSTALL) && decide (d.course.stalls + 1 = 3)) (raise CRS_EVT_STALL_REPEAT),
      when (decide (2 ≤ (d.agent localAgent).cstate)) (eachLocalLeaf fun e => e - e % 32 + e % 16),
      modAgent localAgent fun a => { a.set QAG_STATE_CSTATE 0 with grans := [] },
      when d.shore.share.isSome releaseLocal,
      refreshDir])

/-- The storage of a course as it comes to be held. -/
def Dev.toHold (d : Dev) : Held :=
  { course := d.cur, step := d.get CRS_STEP_STEP, ents := d.course.ents, cuts := d.course.cuts,
    manifest := d.physBytes (d.get CRS_MAN_BASE_BASE * 0x200000 + d.cur % 2 * 0x1000000)
      (4096 + 8448 * d.course.cuts.length + 128 * d.course.ents.length) }

/-- The slots whose agents take COMMIT_NOTE (R73): the LIVE ones, and one LOADING in a handback past its BIND. -/
def Dev.noted (d : Dev) : List Nat :=
  d.live ++ (d.shore.handback.filter fun h => decide (h.step = .copying) || decide (h.step = .boundary)).toList.map (·.slot)

/-- The course in progress is COMMITTED at this member (Table 3.3, R455): COMMIT_NOTE to every LIVE and LOADING agent, and
the previous COMMITTED course released. A member that has not voted rebuilds from the partner's mirror (R455). -/
def commitHere : Prog :=
  .look fun d =>
    when d.inCourse (all [
      when (!d.voted) (toPartner nMANIFEST_WANT (pack [(4, d.cur), (2, d.get CRS_ROOT_MEMBER), (2, 0)])),
      each d.noted fun n => commitNote n d.cur,
      modCourse fun c => { c with held := [d.toHold], ents := [], asked := [], acked := [], blocks := [], retried := [], staged := [], marks := [],
                                  cuts := [], farWait := [], rearm := [], digests := [], stalls := 0 },
      put CRS_COURSE_COMMITTED d.cur, put CRS_STAT_STATE kCOMMITTED, put CRS_STAT_UNACKED 0,
      bump CRS_COUNT_COMMITS, raise CRS_EVT_COMMIT,
      modAgent localAgent fun a => { a with mapR := a.mapP, mapP := [], rAll := false },
      when d.shore.share.isSome releaseLocal,
      refreshDir])

/-! ## Requests of the drain (R78) -/

/-- The class of a granule in the order of R78: 0 written after the cut, 1 written in the previous step, 2 the rest. -/
def Dev.granClass (d : Dev) (n g : Nat) : Nat :=
  let d0 := (Store.find? d.course.d0 n).getD []
  if mapBit d0 g then 1 else if mapBit ((Store.find? d.course.latest n).getD []) g then 0 else 2

/-- Granules of a slot that are still to be requested, in table order. -/
def Dev.toAsk (d : Dev) (n : Nat) : List (Shard × Nat) :=
  ((d.shards n).filter fun s => decide (d.share s = .drained)).flatMap fun s =>
    (s.granules.filter fun g => !(d.asked n g) && !(d.acked n g)).map fun g => (s, g)

/-- How many granules follow on a first one in a list of the same class and shard. -/
def runLen (d : Dev) (n : Nat) (s : Shard) (c : Nat) : Nat → List (Shard × Nat) → Nat
  | _, [] => 0
  | g, (t, h) :: rest => if decide (t = s) && decide (h = g) && decide (d.granClass n h = c) then 1 + runLen d n s c (g + 1) rest else 0

/-- The next run of granules to request from a slot: the lowest class, then table order, at most one shard. -/
def Dev.nextRun (d : Dev) (n : Nat) : Option (Shard × Nat × Nat) :=
  let xs := d.toAsk n
  ((List.range 3).findSome? fun c => (xs.find? fun x => decide (d.granClass n x.2 = c)).map fun x => (c, x)).map fun cx =>
    let rest := xs.dropWhile fun y => decide (y ≠ cx.2)
    (cx.2.1, cx.2.2, runLen d n cx.2.1 cx.1 cx.2.2 rest)

/-- Drain requests of a slot without their answer. -/
def Dev.drainsOut (d : Dev) (n : Nat) : List SReq := (d.slot n).reqs.filter fun r => decide (r.ty = 0x14)

/-- Sends drain requests of a slot while fewer are outstanding than the port may have. -/
def pumpDrain (n : Nat) : Nat → Prog
  | 0 => .done
  | fuel + 1 => .look fun d =>
      if d.kState ≠ kDRAINING ∨ max 1 Config.drainDepth ≤ (d.drainsOut n).length then .done
      else match d.nextRun n with
        | none => .done
        | some (s, g, k) => all [
            setAsked n ((List.range k).map (g + ·)) true,
            oReq n 0x14 (d.runArg s g k),
            pumpDrain n fuel]
def drain (n : Nat) : Prog := .look fun d => when (d.remote n) (pumpDrain n (max 1 Config.drainDepth))

/-! ## Acknowledged granules -/

/-- DRAIN_ACK for granules of a shard; the granules of a shored position are acknowledged locally. -/
def ackRun (s : Shard) (gs : List Nat) : Prog :=
  .look fun d =>
    let fresh := gs.filter fun g => !(d.acked s.slot g)
    all [
      modCourse fun c => { c with acked := fresh.foldl (fun m g => Store.put noFlag m (gk s.slot g) true) c.acked },
      put CRS_STAT_UNACKED (d.get CRS_STAT_UNACKED - fresh.length), tally 1379 fresh.length,
      if d.remote s.slot then (match gs with
        | [] => .done
        | g :: _ => oTell s.slot 0x16 (d.runArg s g gs.length))
      else all [
        each gs fun g => .look fun d => match (d.agent localAgent).granAt g with
          | none => .done
          | some (base, _) => .look fun d => when (d.leafOf 1 base).isSome (editLeaf 1 base fun e => e - e % 32 + e % 16),
        modAgent localAgent fun a => { a with grans := gs.foldl (fun m g => Store.put granDflt m g .sent) a.grans }]]

/-- The entry of a shard in the manifest of the course in progress (Table 3.8). -/
def Dev.entry (d : Dev) (s : Shard) (loc tier mark : Nat) (sha : List Byte) (carried shared far : Bool) : MEnt :=
  let g := d.groupOf (d.slotPos s.slot) s.region
  { pos := d.slotPos s.slot, region := s.region,
    flags := carried.toNat + 2 * shared.toNat + 4 * far.toNat + 8 * (g.any d.groupAway).toNat,
    group := (g.map (·.id)).getD 0, shard := s.num, len := s.blocks, offset := s.num * 0x4000000, course := d.cur, loc := loc, tier := tier,
    mark := mark, sha := sha }
def addEnt (e : MEnt) : Prog := modCourse fun c => { c with ents := c.ents ++ [e] }

/-- MARK-128 of a shard's bytes under a course's key (R52). -/
def Dev.shardMark (d : Dev) (c : Nat) (bs : List Byte) : Nat :=
  let k := d.keyOf c
  mark128 (leNat (k.take 16)) (leNat (k.drop 16)) bs 1 0 0

/-- Whether the partner holds a copy of a held entry beyond what its FAR flag says: the full mirror of its course carried it (R83, R456). -/
def Dev.farToo (d : Dev) (e : MEnt) : Bool := decide (d.course.farFull = some e.course) && !((d.groupOf e.pos e.region).any d.groupAway)

/-- Takes the shards of a slot as R80 and R81 give: a carried one is recorded and acknowledged at once, a copy that is
marked only gets MARK_REQ, and the rest is requested. A stored copy whose checks fail raises CHECK and is not carried (R137, R138). -/
def takeShards (n : Nat) : Prog :=
  .look fun d =>
    .seq (each (d.shards n) fun s => .seq (each (d.lastHeld.bind fun h => h.entFor (d.slotPos n) s).toList checkShard) <| match d.share s with
      | .carried e => .look fun d => .seq (.seq (tally 1381 1) (ackRun s s.granules))
          (addEnt (d.entry s e.loc e.tier (d.shardMark d.cur (d.physBytes e.loc (e.len * 4096))) e.sha true (bitOf e.flags 1) (bitOf e.flags 2 || d.farToo e)))
      | .marked => when (d.remote n) (oReq n 0x13 (s.region + s.num * 2 ^ 8))
      | .drained => .done) (drain n)

/-- The drain begins once every cut and every map D0 are in (Table 3.3, R78). -/
def beginDrain : Prog :=
  .look fun d =>
    when (decide (d.kState = kDRAINING) && d.course.asked.isEmpty && d.course.acked.isEmpty &&
        d.taking.all fun n => (Store.find? d.course.d0 n).isSome) (all [
      put CRS_STAT_UNACKED (sumOf d.taking fun n => (d.slotTable n).granCount),
      each d.taking takeShards])

/-! ## Cuts -/

/-- Every cut is in: OPENING becomes DRAINING. -/
def checkCuts : Prog :=
  .look fun d =>
    when (decide (d.kState = kOPENING) && d.taking.all fun n => bitOf (d.get CRS_STAT_CUT) n)
      (.seq (put CRS_STAT_STATE kDRAINING) beginDrain)

/-- A slot's map R has come (R78): the first after the cut is D0. -/
def takeMap (n : Nat) (m : List Byte) : Prog :=
  .seq (modCourse fun c => { c with d0 := if (Store.find? c.d0 n).isSome then c.d0 else Store.insert c.d0 n m, latest := Store.insert c.latest n m })
    (.seq beginDrain (drain n))

/-- Arms the local cut of the shored position (R95). -/
def armLocal (c s : Nat) : Prog :=
  .look fun d =>
    if s ≤ (d.agent localAgent).step then abandonHere vLATE true
    else modAgent localAgent fun a => { (a.set QAG_STATE_CSTATE 1).set QAG_COURSE_CUR c with armStep := s }

/-- MKEY and COURSE_ARM to a slot. -/
def armSlot (n c s : Nat) : Prog := .seq (sendKey n c) (oReq n 0x10 0 (pack [(4, c), (4, 0), (8, s)]))

/-- A course opens at this member (Table 3.3). A job slot that is FENCED or ABSENT makes it vote FENCE (R74), and one that
does not serve the job votes ORDER. -/
def openHere (c s : Nat) : Prog :=
  .look fun d => .seq
    (all [tally 1376 1, put CRS_COURSE_CUR c, put CRS_STEP_STEP s, put CRS_STAT_STATE kOPENING, put CRS_STAT_VOTED 0, put CRS_STAT_MIRROR_ACK 0,
      put CRS_STAT_SOLO 0, put CRS_STAT_CUT 0, put CRS_STAT_DONE 0, put CRS_STAT_UNACKED 0,
      modCourse fun k => { k with d0 := [], latest := [], asked := [], acked := [], blocks := [], retried := [], staged := [], marks := [], ents := [],
                                  cuts := [], farWait := [], gateOver := false, rearm := [], digests := [], mirrorSent := false,
                                  ctrl := d.word CRS_CTRL_EN.addr, cfg := d.word CRS_CFG_INTERVAL.addr, paired := decide (d.mode.partner = .paired) }])
    (if !(d.on CRS_CTRL_EN) then abandonHere vORDER true
     else if (List.range 8).any fun n => decide (d.slotPos n ≠ noPos) && (decide (d.slotState n = sFENCED) || decide (d.slotState n = sABSENT))
     then abandonHere vFENCE true
     else all [each d.live fun n => armSlot n c s,
       when (!d.shoredSlots.isEmpty) (armLocal c s),
       checkCuts])

/-! ## Witness expectations (R53, R144, R146) -/

/-- The witness settings of a slot's last admission: EN and RATE. -/
def Dev.witSettings (d : Dev) (n : Nat) : Bool × Nat := (Store.find? d.wit.sel n).getD (false, 0)

/-- The selected indices of a domain that a position expects in a step, at most 4,096. -/
def Dev.expects (d : Dev) (n step dom : Nat) : List Nat :=
  match (d.posOf n).bind fun p => (d.job.witness.find? fun e => decide (e.1 = p.program)).map (·.2) with
  | none => []
  | some pairs =>
    let e := pairs.getD ((step + 2 ^ 64 - d.job.s0) % 2 ^ 64 % max 1 pairs.length) (0, 0)
    let key := leNat (selectorKey d.job.z d.epoch d.wit.rewind)
    let set := d.witSettings n
    if set.1 then ((List.range (if dom = 0 then e.1 else e.2)).filter (witSelected key set.2 dom step)).take 4096 else []

/-- Samples of some steps come to be expected of a slot, but for those already compared or dropped. -/
def expectSteps (n lo hi : Nat) : Prog :=
  .look fun d => modWit fun w =>
    let news := (List.range (hi - lo)).flatMap fun i => [0, 1].flatMap fun dom => (d.expects n (lo + i) dom).map fun x => (n, dom, lo + i, x)
    let open_ := news.filter fun e => !(w.early.contains e)
    let k := (Store.find? w.owed n).getD 0
    { w with expected := w.expected ++ open_.drop k, owed := Store.insert w.owed n (k - open_.length),
             early := w.early.filter fun e => !(decide (e.1 = n) && decide (e.2.2.1 < hi)) }

/-- A slot's step has been learned by HEARTBEAT or CUT: samples of the steps passed are expected. -/
def learnStep (n step : Nat) : Prog :=
  .look fun d =>
    let old := Store.get (fun _ => 0) d.course.steps n
    when (decide (old < step)) (.seq (expectSteps n old step) (modCourse fun c => { c with steps := Store.insert c.steps n step }))

/-- Samples that the gate waits for: those of steps before the cut. -/
def Dev.gated (d : Dev) : List (Nat × Nat × Nat × Nat) := d.wit.expected.filter fun e => decide (e.2.2.1 < d.get CRS_STEP_STEP)
/-- Whether the gate holds the vote (R146). -/
def Dev.gateHolds (d : Dev) : Bool :=
  d.on WIT_CTRL_EN && d.on WIT_CTRL_GATE && decide (d.get WIT_CFG_GATE_MS ≠ 0) && !d.course.gateOver && !d.gated.isEmpty

/-! ## Group digests (R82) -/

/-- Shards of a group's region. -/
def Dev.groupShards (d : Dev) (g : GroupRec) : Nat :=
  match g.positions with
  | [] => 0
  | p :: _ => (((d.table p).shards 0).filter fun s => decide (s.region = g.region)).length
/-- Members other than this one that store shards of a group. -/
def Dev.groupOthers (d : Dev) (g : GroupRec) : List Nat :=
  ((d.job.positions.filter fun r => g.positions.contains r.pos && decide (r.member ≠ d.get CRS_ROOT_MEMBER)).map (·.member)).eraseDups
/-- Groups that this member keeps and whose positions lie on more than one tray. -/
def Dev.keeps (d : Dev) : List GroupRec := d.job.groups.filter fun g => decide (g.keeper = d.get CRS_ROOT_MEMBER) && d.groupAway g
/-- The SHA-256 another member reported for shard k of a group. -/
def Dev.reported (d : Dev) (g : GroupRec) (member k : Nat) : Option (List Byte) :=
  d.course.digests.findSome? fun x =>
    if x.1 = member ∧ x.2.1 = g.id ∧ x.2.2.1 ≤ k ∧ k < x.2.2.1 + x.2.2.2.length / 32 then some (cut_ x.2.2.2 (32 * (k - x.2.2.1)) 32) else none
/-- Whether every digest that this member keeps groups for is in. -/
def Dev.digestsIn (d : Dev) : Bool :=
  d.keeps.all fun g => (d.groupOthers g).all fun m => (List.range (d.groupShards g)).all fun k => (d.reported g m k).isSome

/-- The copies that a keeper compares of shard k of a group (R142): position, member and SHA-256 of the stored copy, one for
each position that the copy stands for. -/
def Dev.groupCopies (d : Dev) (g : GroupRec) (k : Nat) : List (Nat × Nat × List Byte) :=
  (d.job.positions.filter fun r => g.positions.contains r.pos).filterMap fun r =>
    (if r.member = d.get CRS_ROOT_MEMBER then
      (d.course.ents.find? fun e => decide (e.pos = r.pos) && decide (e.region = g.region) && decide (e.shard = k)).map (·.sha)
    else d.reported g r.member k).map fun x => (r.pos, r.member, x)
/-- Whether all values of a list are equal. -/
def allSame {α : Type} [DecidableEq α] : List α → Bool
  | [] => true
  | x :: xs => xs.all fun y => decide (y = x)
/-- Whether every group that this member keeps agrees. -/
def Dev.digestsAgree (d : Dev) : Bool :=
  d.keeps.all fun g => (List.range (d.groupShards g)).all fun k => allSame ((d.groupCopies g k).map (·.2.2))

/-- Cuts a list into runs of at most `n`. -/
def runsOf {α : Type} (n : Nat) (xs : List α) : List (List α) := (List.range ((xs.length + n - 1) / n)).map fun i => (xs.drop (n * i)).take n

/-- GROUP_DIGEST of the shards this member stores of a group, to its keeper, by first shard: 127 values fill a NOTICE (R71, R82, R283). -/
def sendDigests : Prog :=
  .look fun d =>
    each (d.job.groups.filter fun g => decide (g.keeper ≠ d.get CRS_ROOT_MEMBER)) fun g =>
      let es := (List.range (d.groupShards g)).filterMap fun k =>
        (d.course.ents.find? fun e => decide (e.group = g.id) && decide (e.shard = k)).map fun e => e.sha
      match d.job.members[g.keeper]? with
      | some a => each (runsOf 127 es).zipIdx fun x =>
          notify a nGROUP_DIGEST (pack [(4, d.cur), (2, g.id), (2, 0), (4, 127 * x.2), (4, x.1.length)] ++ x.1.flatten)
      | none => .done

/-! ## Sealing (R87, R88) -/

/-- A manifest entry's 128 bytes (Table 3.8). -/
def MEnt.bytes (e : MEnt) : List Byte :=
  pack [(4, e.pos), (1, e.region), (1, e.flags), (2, e.group), (4, e.shard), (4, e.len), (8, e.offset), (4, e.course), (4, 0),
    (8, e.loc + e.tier * 2 ^ 52), (16, e.mark)] ++ (e.sha ++ List.replicate 32 0).take 32 ++ List.replicate 40 0

/-- The entries in manifest order: by position, region, shard. -/
def sortEnts (es : List MEnt) : List MEnt :=
  sortOn (fun a => a.pos * 2 ^ 64 + a.region * 2 ^ 32 + a.shard) es

/-- A position section (R87): the position record and the step context record. -/
def PosCut.bytes (c : PosCut) (first count : Nat) (noState : Bool) : List Byte :=
  pack [(4, c.pos), (1, c.slot), (1, c.shored.toNat + 2 * noState.toNat), (2, 0), (4, first), (4, count), (4, c.grans), (4, c.shards), (8, c.time)] ++
    digest c.ctx ++ (c.ctx ++ List.replicate 8384 0).take 8384

/-- The manifest of the course in progress, with its seal. -/
def Dev.manifestOf (d : Dev) : List Byte :=
  let es := sortEnts d.course.ents
  let cs := sortOn PosCut.pos d.course.cuts
  let paired := d.paired
  let body := (cs.map fun c =>
      let n := (es.filter fun e => decide (e.pos = c.pos)).length
      c.bytes (es.filter fun e => decide (e.pos < c.pos)).length n (decide (c.grans = 0))).flatten ++ (es.map MEnt.bytes).flatten
  let head := ascii "AZCOURSE" ++ pack [(2, 1), (2, 1 + 2 * (!paired).toNat + 4 * (!(d.copt CRS_CTRL_FAR_EN)).toNat + 8 * (cs.any (·.shored)).toNat),
    (4, d.epoch), (4, d.cur), (4, 0), (8, d.get CRS_STEP_STEP), (4, d.ownAddr),
    (4, if d.mode.partner = .solo then 0xFFFFFFFF else d.partnerAddr), (4, cs.length), (4, es.length), (8, d.podTime),
    (8, 4096 + 8448 * cs.length + 128 * es.length)]
  let bare := head ++ List.replicate (4096 - head.length) 0 ++ body
  head ++ digest bare ++ List.replicate (4096 - 32 - head.length) 0 ++ body

/-- Where course c's manifest stands. -/
def Dev.manifestAt (d : Dev) (c : Nat) : Nat := d.get CRS_MAN_BASE_BASE * 0x200000 + c % 2 * 0x1000000
/-- The seal of the course in progress. -/
def Dev.sealNow (d : Dev) : List Byte := d.physBytes (d.manifestAt d.cur + 64) 32

/-- MIRROR of a course's manifest and the directory entries that the base course does not have, and their bytes. -/
def sendMirror (c base : Nat) (man : List Byte) (ents : List DirEnt) : Prog :=
  withHandle fun h => .look fun d => .seq
    (toPartner nMIRROR (pack [(4, c), (4, d.epoch), (2, h), (2, 0), (8, man.length), (4, ents.length), (4, base)]))
    (sendBulk d.partnerAddr h (man ++ (ents.map DirEnt.bytes).flatten))

/-- Directory entries changed since the last COMMITTED course: those that the course in progress refers to, new ones and carried ones, whose IN0
or IN1 it sets (R70, R88). -/
def Dev.changedDir (d : Dev) : List DirEnt :=
  (d.course.dir.filter fun e => d.course.ents.any fun m => decide (m.loc = e.2.addr)).map (·.2)

/-- The vote YES, once the mirror is acknowledged (PAIRED), every digest compared and found equal, and the gate lets it pass (R88, R146). -/
def tryVote : Prog :=
  .look fun d =>
    when (decide (d.kState = kSEALING) && !d.voted) (.seq (put WIT_STAT_GATE_HOLD d.gateHolds.toNat)
      (when ((d.on CRS_STAT_MIRROR_ACK || !d.paired) && d.digestsIn && d.digestsAgree && !d.gateHolds) (vote vYES d.sealNow)))

/-- Whether the drain is complete (Table 3.3): COURSE_DONE from every LIVE slot, every share recorded, every far copy
acknowledged. -/
def Dev.drained (d : Dev) : Bool :=
  decide (d.kState = kDRAINING) &&
  (d.taking.all fun n => bitOf (d.get CRS_STAT_DONE) n && (Store.find? d.course.d0 n).isSome &&
    (d.shards n).all fun s => d.course.ents.any fun e => decide (e.pos = d.slotPos n) && decide (e.region = s.region) && decide (e.shard = s.num)) &&
  (d.course.farWait.isEmpty || !d.paired)

/-- SEALING: the manifest is written, digests go to the keepers, and the mirror to the partner. -/
def sealCourse : Prog :=
  .look fun d =>
    let m := d.manifestOf
    all [refreshDir, writePhys (d.manifestAt d.cur) m, put CRS_STAT_STATE kSEALING, sendDigests,
      when d.paired (.seq (modCourse fun c => { c with mirrorSent := true })
        (.look fun d => sendMirror d.cur (d.get CRS_COURSE_COMMITTED) m d.changedDir)),
      tryVote]

/-! ## The shored position (R95) -/

/-- The physical page of an address of the shored position. -/
def Dev.jobPhys (d : Dev) (va : Nat) : Option Nat :=
  match d.translate 1 va false false with
  | .ok pa _ => some pa
  | .fault _ => none
/-- Whether the page of an address of context 1 has been written (D, Table 9.8). -/
def Dev.jobDirty (d : Dev) (va : Nat) : Bool :=
  match d.leafOf 1 va with
  | some l => entBit (d.mem64 l 8) 6
  | none => false

/-- The granules of the shored position written since D was last cleared. -/
def Dev.localDirty (d : Dev) : List Nat :=
  let a := d.agent localAgent
  (List.range a.granCount).filter fun g => match a.granAt g with | some (base, _) => d.jobDirty base | none => false

/-- A granule of the shored position whose D is about to be cleared outside a cut stays marked in its maps (R47, R80, R95): map R, and map P of
the course in progress. -/
def keepWritten (g : Nat) : Prog :=
  .look fun d => when ((d.localDirty).contains g)
    (modAgent localAgent fun a => { a with mapR := Store.put noFlag a.mapR g true, mapP := Store.put noFlag a.mapP g true })

/-- A granule of the shored position as frozen at the cut: live, or its copy in the shore reserve. -/
def Dev.localFrozen (d : Dev) (g : Nat) : List Byte :=
  let a := d.agent localAgent
  match a.granAt g with
  | none => []
  | some (base, blocks) =>
    match a.gran g with
    | .copied page => d.physBytes (page * pageBytes) (blocks * 4096)
    | _ => match d.jobPhys base with
      | some pa => d.physBytes pa (blocks * 4096)
      | none => List.replicate (blocks * 4096) 0

/-- The physical address of a granule of the shored position as frozen at the cut. -/
def Dev.frozenAt (d : Dev) (g : Nat) : Option Nat :=
  let a := d.agent localAgent
  match a.granAt g, a.gran g with
  | none, _ => none
  | some _, .copied page => some (page * pageBytes)
  | some (base, _), _ => d.jobPhys base

/-- Map R of the shored position as bytes. -/
def Dev.localMap (d : Dev) : List Byte :=
  let a := d.agent localAgent
  (List.range ((a.granCount + 7) / 8)).map fun i =>
    BitVec.ofNat 8 ((List.range 8).foldl (fun v b => if a.rAll || Store.get noFlag a.mapR (8 * i + b) then v + 2 ^ b else v) 0)

/-- The local cut at a boundary `s` with the step context (R95, Table 2.12): every granule of the STATE regions is protected,
map R takes the pages written since the last cut, and the cut is in. -/
def localCut (s : Nat) (ctx : List Byte) : Prog :=
  .look fun d =>
    let a := d.agent localAgent
    let n := d.shore.slot.getD 0
    let dirty := d.localDirty
    let mine : PosCut :=
      { slot := n, pos := d.slotPos n, time := d.podTime, grans := a.granCount, shards := a.shardCount,
        ctx := pack [(8, s), (4, d.cur), (4, d.slotPos n), (8, d.podTime), (40, 0)] ++ ctx, shored := true }
    all [
      modAgent localAgent fun a => { a.set QAG_STATE_CSTATE 2 with
        grans := [], markSlot := d.cur, mapP := [], mapR := dirty.foldl (fun m g => Store.put noFlag m g true) a.mapR },
      eachLocalLeaf fun e => e - e % 128 + e % 16 + 16 + e / 32 % 2 * 32,
      modCourse fun c => { c with cuts := c.cuts ++ [mine] },
      put CRS_STAT_CUT (withBit (d.get CRS_STAT_CUT) n),
      .look fun d => takeMap n d.localMap,
      checkCuts]

end Sys2Proof.Machine
end

