-- ==== Sys2Proof/Machine/ResetOps.lean ====
section
/-! DEFINITION. The reset controller's counts and ladders (R368 to R372). -/

namespace Sys2Proof.Machine

/-! ## Units (Table 14.10) and causes (Table 14.11) -/

def uSlot (n : Nat) : Nat := 0xA0 + n
def uXCN : Nat := 0xA8
def uTRAY : Nat := 0xA9
def uCHIP : Nat := 0xFF

def rcCOMMAND : Nat := 0
def rcTILE : Nat := 1
def rcSTOP : Nat := 2
def rcDMA : Nat := 3
def rcCC : Nat := 4
def rcFAULT : Nat := 5
def rcPARITY : Nat := 6
def rcDECLARE : Nat := 7
def rcFENCE_REQ : Nat := 8
def rcRING : Nat := 9

/-- Resets of a unit at a rung within the rung's window (R368); a window of 0 acts as 1. -/
def Dev.resetCount (d : Dev) (unit rung : Nat) : Nat :=
  (d.rst.counts.filter fun e => decide (e.1 = unit) && decide (e.2.1 = rung) &&
    decide (d.clk ≤ e.2.2 + max 1 (d.get (RST_LIMIT_WINDOW_S rung)) * 700000000)).length
/-- Whether a unit is at its limit at a rung. -/
def Dev.atLimit (d : Dev) (unit rung : Nat) : Bool := decide (max 1 (d.get (RST_LIMIT_COUNT rung)) ≤ d.resetCount unit rung)

/-- RST_UCNT of a unit (Table 14.14). -/
def Dev.unitCounts (d : Dev) (unit : Nat) : Nat :=
  (List.range 5).foldl (fun v k => v + min 255 (d.resetCount unit k) * 2 ^ (8 * k)) 0 + (d.rst.out.contains unit).toNat * 2 ^ 40

/-- The rungs of a unit in order (Table 14.4). -/
def rungsOf (unit : Nat) : List Nat :=
  if 1 ≤ unit ∧ unit < 0x40 then [0, 2, 3]
  else if unit < 0x80 then [1, 3]
  else if unit < 0x86 then [1, 3]
  else if 0x90 ≤ unit ∧ unit < 0x94 then [2, 3]
  else if 0xA0 ≤ unit ∧ unit < 0xA8 then [0, 2, 4]
  else if unit = uXCN ∨ unit = uTRAY then [4]
  else if unit = uCHIP then [3]
  else []

/-- Counts a reset at the rung taken (R368): RST_STAT, RST_TIME, the counts, the RESET record and its events. -/
def countReset (r : Reset) : Prog :=
  .look fun d => all [
    put RST_STAT_RUNG r.rung, put RST_STAT_UNIT r.unit, put RST_STAT_CAUSE r.cause, put RST_STAT_ESCALATED r.escalated.toNat,
    put RST_STAT_FENCE_OVER 0, put RST_TIME_TIME d.podTime,
    modRst fun x => { x with counts := x.counts ++ [(r.unit, r.rung, d.clk)] },
    bump ⟨RST_TOTAL_TOTAL.addr, 12 * r.rung, 12⟩,
    .look fun d => record 0x04 r.rung (leBytes 8 ((d.word RST_STAT_RUNG.addr).toNat % 2 ^ 18) ++ leBytes 8 (d.unitCounts r.unit))
      (r.escalated || decide (r.rung = 4)),
    when (decide (r.rung ≠ 3)) (raise RST_EVT_RESET),
    when r.escalated (raise RST_EVT_ESCALATED)]

/-- Where SHR_CTRL.EN is held at 0 (Table 17.3): a slow DDR5 tier, or the crossconnect out of service. -/
def Dev.shoreBarred (d : Dev) : Bool := d.on MEM_DDR_CFG_SLOW || d.rst.out.contains uXCN

/-- Where admission and the verification after a chip reset leave SHR_CTRL.EN at 0 (R151, R243, R312). -/
def Dev.shoreStop (d : Dev) : Bool :=
  d.shoreBarred || d.on XCN_STAT_ERR || decide (d.get WIT_LIMIT_RETIRE_MAX < d.get WIT_STAT_RETIRED)

/-- The crossconnect goes out of service (Table 14.4). -/
def xcnOut : Prog :=
  all [modRst fun x => { x with out := x.out ++ [uXCN] }, put XCN_STAT_ERR 1, put SHR_CTRL_EN 0, raise RST_EVT_XCN_OUT]

/-- A slot goes to QUARANTINE (R370): its power-enable is held low. A position it still holds stays where it is; one it
does not is unbound. -/
def slotOut (n : Nat) : Prog :=
  .look fun d => all [
    modRst fun x => { x with out := x.out ++ [uSlot n], cycle := x.cycle.filter fun m => decide (m ≠ n) },
    put RST_PWR_EN (d.get RST_PWR_EN / 2 ^ (n + 1) * 2 ^ (n + 1) + d.get RST_PWR_EN % 2 ^ n),
    send .land Kind.slotPower [n, 0],
    when (decide (d.get (HUB_SLOT_STATE n) ≠ 2) && decide (d.get (HUB_SLOT_STATE n) ≠ 3))
      (.seq (put (HUB_SLOT_STATE n) 5) (put (HUB_SLOT_POSITION n) 0xFFFFFFFF)),
    raise RST_EVT_SLOT_QUAR]

/-- The E2 that follows a declaration of a slot (R370): at the E2 limit, the power cycle of an E4 before reintegration
begins; at the E4 limit too, QUARANTINE. -/
def slotE2 (n cause : Nat) : Prog :=
  .look fun d =>
    if !(d.atLimit (uSlot n) 2) then .seq (countReset ⟨uSlot n, 2, cause, d.rst.above.contains n⟩)
      (modRst fun x => { x with above := x.above.filter fun m => decide (m ≠ n) })
    else if d.on SEC_POLICY_SLOT_E4 ∧ !(d.atLimit (uSlot n) 4) then
      .seq (countReset ⟨uSlot n, 4, cause, true⟩) (modRst fun x => { x with cycle := x.cycle ++ [n] })
    else slotOut n

end Sys2Proof.Machine
end

