-- ==== Sys2Proof/Machine/RootOps.lean ====
section
/-! DEFINITION. The course root (R75, R76, R89 to R94, R106 to R112): opening, votes, decisions, rewinds, and the takeover of
a new root. -/

namespace Sys2Proof.Machine

def Dev.isRoot (d : Dev) : Bool := d.on CRS_ROOT_IS_ROOT
def Dev.nOz (d : Dev) : Nat := d.get CRS_ROOT_N_OZ
/-- Milliseconds as Pod Time ticks (R5). -/
def msTicks (ms : Nat) : Nat := ms * 700000

/-- Bounds of the lead (R76). -/
def Dev.leadMin (d : Dev) : Nat := max 1 (d.get CRS_CFG_LEAD_MIN)
def Dev.leadMax (d : Dev) : Nat := max d.leadMin (d.get CRS_CFG_LEAD_MAX)

/-- S of R75: the highest QAG_STEP among the root's LIVE slots and its shored position; s₀ at a root that has neither. -/
def Dev.topStep (d : Dev) : Nat :=
  (d.live.map fun n => Store.get (fun _ => 0) d.course.steps n).foldl max
    (if d.shoredLive then (d.agent localAgent).step else if d.live.isEmpty then d.job.s0 else 0)

/-- Whether a course may be opened now: no hold, no rewind, a job that has members and has started (R68, R90, R107, Table 3.18). -/
def Dev.mayOpen (d : Dev) : Bool :=
  d.isRoot && d.course.holds.isEmpty && !d.course.noOpen && decide (d.nOz ≠ 0) && !d.course.taking && decide (d.get CRS_COURSE_COMMITTED ≠ noCourse)

/-! ## Shoring settings -/

/-- A field of SHR_CFG as the last declaration took it: a change of SHR_CFG or SHR_TIMEOUT takes effect at the next declaration. DEDUCED: of
any position of the job, as this member learns of it (notes/assumptions/186). -/
def Dev.shrCfg (d : Dev) (f : Fld) : Nat := f.of d.shore.cfg
/-- A declaration takes SHR_CFG and SHR_TIMEOUT as they stand. -/
def takeShrCfg : Prog :=
  .look fun d => modShore fun s => { s with cfg := d.word SHR_CFG_HB_MISS.addr, timeout := d.word SHR_TIMEOUT_REWIND_MS.addr }

/-- The next course and its step, when one is due (R75). -/
def Dev.nextDue (d : Dev) : Option (Nat × Nat) :=
  let c := d.course.highest + 1
  let soon := d.topStep + d.course.lead
  if !d.mayOpen ∨ noCourse ≤ c then none
  else if d.course.early then some (c, soon)
  else if d.get CRS_CFG_INTERVAL = 0 then none
  else some (c, max (d.course.lastStep + d.get CRS_CFG_INTERVAL) soon)

/-- The expected value of the barrier for a course (R89). -/
def Dev.courseGoal (d : Dev) (c : Nat) : Nat := d.nOz * ((c + 2 ^ 32 - d.get CRS_BAR_BASE) % 2 ^ 32)

/-- The watch of a barrier. -/
def Dev.barrierWatch (d : Dev) (t : WatchTarget) : Option (Nat × Watch) :=
  List.find? (fun e : Nat × Watch => decide (e.2.target = t)) d.watches
def dropBarrier (t : WatchTarget) : Prog :=
  .look fun d => match d.barrierWatch t with
    | some e => dropWatch e.1
    | none => .done
/-- Arms the watch of a barrier; where none is free SYN_EVT.WATCH_FULL tells (R280). -/
def armBarrier (t : WatchTarget) (counter goal deadline : Nat) : Prog :=
  .look fun d => match d.freeWatch with
    | some n => .seq (.act (.watch n (some ⟨counter, BitVec.ofNat 64 goal, deadline, t⟩))) countWatches
    | none => raise SYN_EVT_WATCH_FULL

/-- The root records that course c at step s is open, and watches its barrier. -/
def noteOpen (c s : Nat) : Prog :=
  .look fun d => .seq
    (modCourse fun k => { k with open_ := some (c, s), highest := c, lastStep := s, votes := [], early := false })
    (armBarrier .courseBarrier (d.get CRS_BAR_CNT) (d.courseGoal c) 0)

/-- COURSE_OPEN for the course that is due, when no course is in progress (R75). -/
def openDue : Prog :=
  .look fun d =>
    when (d.course.open_.isNone && d.course.deciding.isNone) <| match d.nextDue with
      | some (c, s) => .seq (noteOpen c s) (broadcast nCOURSE_OPEN (pack [(4, c), (4, 0), (8, s)]))
      | none => .done

/-- The root's vote deadline starts (R90): VOTE_MS from now, once. -/
def startVoteClock : Prog :=
  .look fun d => match d.barrierWatch .courseBarrier with
    | some (n, w) => when (decide (w.deadline = 0))
        (.act (.watch n (some { w with deadline := d.podTime + msTicks (orElse (d.get CRS_TIMEOUT_VOTE_MS) 10000) })))
    | none => .done

/-! ## Rewinds -/

/-- A rewind plan as Table 4.2 lays it out. -/
def Plan.bytes (p : Plan) : List Byte :=
  pack [(4, p.num), (4, p.course), (8, p.step), (2, p.count), (1, p.flags), (1, 0), (4, p.mark)]
def Plan.ofBytes (b : List Byte) : Plan :=
  ⟨numAt b 0 4, numAt b 4 4, numAt b 8 8, numAt b 16 2, numAt b 18 1, numAt b 20 4⟩

/-- The step of the last COMMITTED course. -/
def Dev.restoreStep (d : Dev) : Nat := (d.lastHeld.map (·.step)).getD d.job.s0

/-- The step of a course as far as this Ozmund knows it: of one it holds, of the last one it opened, or of its partner's mirror of it. -/
def Dev.stepOf (d : Dev) (c : Nat) : Option Nat :=
  ((d.course.held.find? fun h => decide (h.course = c)).map (·.step)) <|> (if d.cur = c then some (d.get CRS_STEP_STEP) else none) <|>
    ((d.hold.mirrors.find? fun m => decide (m.course = c) && decide (m.epoch = d.epoch)).map fun m => numAt m.manifest 24 8)

/-- The newest course that is COMMITTED under R91, with its step (R98): the root's own, one that it has decided to commit and whose
COURSE_DECIDE it has sent, or the newest that the answers of R93 reported. DESIGN CHOICE: no answer names a course's step, and where this
Ozmund does not know it either the restore step of its own course stands in (notes/assumptions/170). -/
def Dev.newest (d : Dev) : Nat × Nat :=
  let own := d.get CRS_COURSE_COMMITTED
  let (c, s) := match d.course.decided with
    | some x => if own = noCourse ∨ own < x.1 then x else (own, d.restoreStep)
    | none => (own, d.restoreStep)
  match d.course.known with
  | some k => if c = noCourse ∨ c < k then (k, (d.stepOf k).getD d.restoreStep) else (c, s)
  | none => (c, s)

/-- Sends a plan: the barrier waits for N_OZ × its number, with REWIND_MS unless SPARE is set (R108, R111, R112). -/
def sendPlan (p : Plan) : Prog :=
  .look fun d => all [
    modShore fun s => { s with rooting := true, rewound := [], plan := some p, noSource := false },
    put SHR_REWIND_NUMBER p.num,
    armBarrier .rewindBarrier (d.get SHR_REWIND_BAR) (d.nOz * p.num)
      (if bitOf p.flags 1 then 0 else d.podTime + msTicks (orElse (SHR_TIMEOUT_REWIND_MS.of d.shore.timeout) 3000)),
    broadcast nREWIND_PLAN p.bytes]

/-- The first plan of a rewind (R108), when notices wait and no course is in progress. -/
def startRewind : Prog :=
  .look fun d =>
    when (d.isRoot && !d.course.taking && !d.shore.rooting && !d.shore.notices.isEmpty && d.course.open_.isNone && d.course.deciding.isNone)
      (sendPlan ⟨d.get SHR_REWIND_NUMBER + 1, d.newest.1, d.newest.2, d.shore.notices.length,
        d.shore.handbackAsked.toNat + 2 * d.shore.spare.toNat, d.course.highest⟩)

/-- Supersedes the rewind in progress (R108): missing REWOUNDs are filled in, and the next plan keeps its course. After NOSOURCE no further
plan is sent (R109). -/
def supersede : Prog :=
  .look fun d => match d.shore.plan with
    | none => .done
    | some p => when (!d.shore.noSource) (all [
        dropBarrier .rewindBarrier,
        advanceQuiet (d.get SHR_REWIND_BAR) (BitVec.ofNat 64 (d.nOz - d.shore.rewound.length)),
        sendPlan { p with num := p.num + 1, count := d.shore.inherited + d.shore.notices.length,
                          flags := (d.shore.handbackAsked || bitOf p.flags 0).toNat + 2 * (d.shore.spare || bitOf p.flags 1).toNat }])

/-- The rewind is complete (R111): ADMIT_ORDER, and courses open again with S at the restore step (R107). -/
def rewindBarrierFired : Prog :=
  .look fun d => match d.shore.plan with
    | none => .done
    | some p => when (d.shore.rooting && !d.shore.noSource) (all [
        dropBarrier .rewindBarrier,
        broadcast nADMIT_ORDER (pack [(4, p.num), (4, 0), (8, p.step)]),
        modShore fun s => { s with rooting := false, notices := [], inherited := 0, spare := false, handbackAsked := false },
        modCourse fun c => { c with noOpen := false, steps := c.steps.map fun e => (e.1, min e.2 p.step) },
        openDue])

/-- Positions are covered beyond the tray: the event notice names them (R128). -/
def coverBeyond (ps : List Nat) : Prog := raise SHR_EVT_BEYOND ((ps.map (leBytes 4)).flatten)

/-- The positions of a member. -/
def Dev.positionsOf (d : Dev) (m : Nat) : List Nat := (d.job.positions.filter fun p => decide (p.member = m)).map (·.pos)

/-- Members whose positions must be covered beyond the tray are counted in a plan that supersedes the one in force, with
SPARE set (R112). -/
def superseding (ms : List Nat) : Prog :=
  .look fun d =>
    let ps := ms.flatMap d.positionsOf
    all [coverBeyond ps,
      modShore fun s => { s with notices := s.notices ++ ps.filter (fun p => !(s.notices.contains p)), spare := true },
      supersede]

/-- The root reports members lost that send no REWOUND, or one with FAULT, and supersedes the rewind (R112). -/
def rewindLost (ms : List Nat) : Prog :=
  .seq (modStart fun x => { x with lost := x.lost ++ ms.filter fun m => !(x.lost.contains m) }) (superseding ms)

/-- REWIND_MS has passed: the silent members are reported lost (R112). -/
def rewindBarrierTimeout : Prog :=
  .look fun d => when (d.shore.rooting && !d.shore.noSource)
    (rewindLost ((List.range d.nOz).filter fun m => !(d.shore.rewound.contains m)))

/-- The first REWOUND of a member for the rewind in force (R111). -/
def acceptRewound (num m result : Nat) : Prog :=
  .look fun d => match d.shore.plan with
    | none => .done
    | some p =>
      when (d.isRoot && d.shore.rooting && decide (num = p.num) && !(d.shore.rewound.contains m) && decide (m < d.nOz)) <|
        if result = 2 then all [modShore fun s => { s with noSource := true }, dropBarrier .rewindBarrier, raise SHR_EVT_FAILED]
        else if result = 0 then all [
          modShore fun s => { s with rewound := s.rewound ++ [m] },
          when (decide (d.shore.rewound.length + 1 = d.nOz)) (dropBarrier .rewindBarrier),
          advanceQuiet (d.get SHR_REWIND_BAR) 1,
          when (decide (d.shore.rewound.length + 1 = d.nOz)) rewindBarrierFired]
        else rewindLost [m]

/-! ## Decisions (R90, R91) -/

/-- The decision is made known, once its record is safe (R90, R91): COURSE_DECIDE, which names no next course where none may be opened any
more (R106, R107), then what waited for it: a rewind, or a course that has come to be due (R75, R77). An EARLY_REQ that came since the decision
makes the next course early. -/
def announce : Prog :=
  .look fun d => match d.course.deciding with
    | none => .done
    | some k =>
      let next := if !d.mayOpen then (noCourse, 0) else if d.course.early && !k.early then d.nextDue.getD (noCourse, 0) else (k.next, k.nextStep)
      all [
        modCourse fun c => { c with deciding := none, open_ := none, decided := if k.commit then some (k.course, (c.open_.map (·.2)).getD 0) else c.decided },
        broadcast nCOURSE_DECIDE (pack [(4, k.course), (1, (!k.commit).toNat), (1, k.reason), (2, 0), (4, next.1), (4, 0), (8, next.2)]),
        when (decide (next.1 ≠ noCourse)) (noteOpen next.1 next.2),
        startRewind, openDue]

/-- The root decides the course in progress (R90): missing votes are filled in on an abandonment, the lead follows R76, the
next course is named when one is due, and the record goes to the root's partner unless it is alone. -/
def decideCourse (commit : Bool) (reason : Nat) : Prog :=
  .look fun d => match d.course.open_ with
    | none => .done
    | some (c, _) =>
      when (d.isRoot && d.course.deciding.isNone && !d.course.taking) <|
        let missing := (List.range d.nOz).filter fun m => !(d.course.votes.any fun v => decide (v.1 = m))
        let votes := d.course.votes ++ if commit then [] else missing.map fun m => (m, vTIMEOUT)
        let late := votes.any fun v => decide (v.2 = vLATE)
        all [
          dropBarrier .courseBarrier,
          when (!commit) (advanceQuiet (d.get CRS_BAR_CNT) (BitVec.ofNat 64 missing.length)),
          modCourse fun k =>
            if commit then
              (if k.commits + 1 = 16 then { k with votes := votes, commits := 0, lead := max d.leadMin (k.lead - 1) }
               else { k with votes := votes, commits := k.commits + 1 })
            else { k with votes := votes, commits := 0, lead := if late then min d.leadMax (k.lead + 1) else k.lead },
          .look fun d =>
            let nx := d.nextDue.getD (noCourse, 0)
            modCourse fun k => { k with deciding := some ⟨c, commit, if commit then 0 else reason, nx.1, if nx.1 = noCourse then 0 else nx.2, k.early⟩ },
          if d.mode.partner = .solo then announce
          else toPartner nDECISION_REC (pack [(4, c), (1, (!commit).toNat), (1, if commit then 0 else reason), (2, 0), (8, d.podTime)])]

/-- The course barrier has reached its value: COMMIT when every accepted vote is YES (R90). -/
def courseBarrierFired : Prog :=
  .look fun d => when (d.course.votes.all fun v => decide (v.2 = vYES)) (decideCourse true 0)
/-- VOTE_MS has passed (R90). -/
def courseBarrierTimeout : Prog := decideCourse false vTIMEOUT

/-- The first vote of a member for the course in progress (R89); a reserved code is LINK (Table 3.4). -/
def acceptVote (c m result : Nat) : Prog :=
  .look fun d =>
    let r := if 10 < result then vLINK else result
    when (d.isRoot && d.course.deciding.isNone && !d.course.taking && decide (d.course.open_.map (·.1) = some c) && decide (m < d.nOz) &&
        !(d.course.votes.any fun v => decide (v.1 = m))) (all [
      modCourse fun k => { k with votes := k.votes ++ [(m, r)] },
      when d.taking.isEmpty startVoteClock,
      advanceQuiet (d.get CRS_BAR_CNT) 1,
      .look fun d' =>
        if r ≠ vYES then decideCourse false r
        else match d'.course.open_ with
          | some (c, _) => when (satisfied (d'.counter (d.get CRS_BAR_CNT)) (BitVec.ofNat 64 (d.courseGoal c))) courseBarrierFired
          | none => .done])

/-- A member that is lost, reset or in RECOVERY (R90): a vote it has not cast is filled in, and the course is abandoned. -/
def missVote (m result : Nat) : Prog :=
  .look fun d =>
    when (d.isRoot && d.course.open_.isSome && d.course.deciding.isNone && !d.course.taking && !(d.course.votes.any fun v => decide (v.1 = m))) (all [
      modCourse fun k => { k with votes := k.votes ++ [(m, result)] },
      advanceQuiet (d.get CRS_BAR_CNT) 1,
      decideCourse false result])

/-- SHORE_NOTICE at the root for positions (R106, R108). While a rewind is in progress every notice supersedes it, one of a position counted
already too, such as a slot fenced in place that is then declared (R109): it counts once more, so that the count rises. DEDUCED
(notes/assumptions/219). -/
def rootNotice (ps : List Nat) (handback : Bool) : Prog :=
  .look fun d =>
    let fresh := if d.shore.rooting then ps else ps.filter fun p => !(d.shore.notices.contains p)
    when d.isRoot (all [
      modCourse fun c => { c with noOpen := true },
      modShore fun s => { s with notices := s.notices ++ fresh, handbackAsked := s.handbackAsked || handback },
      if d.shore.rooting then supersede
      else if d.course.open_.isSome ∧ d.course.deciding.isNone then when (decide (d.shrCfg SHR_CFG_DECIDE_MS = 0)) (decideCourse false vTIMEOUT)
      else startRewind])

/-- A course is wanted at once (R77), of a job that has started. -/
def wantEarly : Prog := .look fun d => when (d.isRoot && decide (d.get CRS_COURSE_COMMITTED ≠ noCourse)) (.seq (modCourse fun c => { c with early := true }) openDue)

/-- A hold ends (R90): a course that came to be due meanwhile opens. -/
def endHold (m : Nat) : Prog :=
  .seq (modCourse fun c => { c with holds := c.holds.filter fun x => decide (x ≠ m) })
    (.look fun d => when d.course.holds.isEmpty openDue)

/-! ## A new root (R93, R94) -/

/-- The address of an Ozmund's partner, the other tray of its pair (R17): this Ozmund's own, or of its rack as the last ROLLCALL gave it.
DESIGN CHOICE: of another rack, whose trays no message names, the address with bit 0 turned (notes/assumptions/180). -/
def Dev.partnerOf (d : Dev) (addr : Nat) : Nat :=
  let turned := if addr % 2 = 0 then addr + 1 else addr - 1
  let pair (tray : Nat) : Nat := if tray % 2 = 0 then tray + 1 else tray - 1
  if addr = d.ownAddr then d.partnerAddr
  else if addr = d.partnerAddr then d.ownAddr
  else match d.hold.rack.find? fun e => decide (e.1 = addr) with
    | some e => ((d.hold.rack.find? fun x => decide (x.2 = pair e.2)).map (·.1)).getD turned
    | none => turned

/-- The course of a commit decision record that this Ozmund holds as its partner's partner (R91). -/
def Dev.heldDecision (d : Dev) : Option Nat := (d.hold.decision.filter fun r => decide (numAt r 4 1 = 0)).map fun r => numAt r 0 4

/-- A course number, unless it is none. -/
def courseNo (c : Nat) : Option Nat := if c = noCourse then none else some c
/-- The greater of two course numbers, where there are any. -/
def topCourse (a b : Option Nat) : Option Nat := match a, b with
  | some x, some y => some (max x y)
  | some x, none => some x
  | none, y => y

/-- This member takes over the root: it asks every member and the old root's partner (R93). What it knows itself counts as their answers do: its
own courses, and a decision record that it holds of an old root that is its partner; the last course it opened gives s_c of R75. DESIGN CHOICE: its lead starts at LEAD_MIN and its run of
commits at 0, and no early request, hold or vote that the old root held stands (notes/assumptions/170). -/
def takeRoot (old : Nat) : Prog :=
  .look fun d =>
    let own := courseNo (d.get CRS_COURSE_COMMITTED)
    let known := topCourse own (if old = d.partnerAddr then d.heldDecision else none)
    all [
      put CRS_ROOT_IS_ROOT 1,
      modCourse fun c => { c with taking := true, known := known, highest := (topCourse (courseNo d.cur) (topCourse known (own.map fun _ => d.job.c0))).getD 0,
                                  lead := d.leadMin, commits := 0, lastStep := d.get CRS_STEP_STEP, early := false, holds := [], votes := [], deciding := none, decided := none,
                                  open_ := if d.inCourse then some (d.cur, d.get CRS_STEP_STEP) else none },
      modShore fun s => { s with rooting := false, notices := [], inherited := 0, spare := false, handbackAsked := false, noSource := false },
      each (d.job.members ++ [d.partnerOf old]).eraseDups fun a => notify a nCOURSE_QUERY (pack [(4, d.cur)])]

/-- Sets the barrier counters of a new root (R94): `r` is the number of the rewind in progress, or the next one. -/
def rebase (r : Nat) : Prog :=
  .look fun d => all [
    .act (.counter (d.get CRS_BAR_CNT) 0),
    put CRS_BAR_BASE d.course.highest,
    .act (.counter (d.get SHR_REWIND_BAR) (BitVec.ofNat 64 (d.nOz * (r - 1))))]

/-- Every answer is in: the course in progress is decided on what is known to be committed, with the COMMITTED course before it, which a member
may still have in progress; the barriers are taken over, and a rewind that some
member holds a plan of is sent again, superseded by the notices that came meanwhile; with no plan, they start it (R93, R94, Table 4.4). -/
def tookRoot (planOpen : Bool) : Prog :=
  .look fun d =>
    let open_ := if planOpen then d.shore.plan else none
    all [
      modCourse fun c => { c with taking := false },
      modShore fun s => { s with rooting := open_.isSome, rewound := [], inherited := (open_.map (·.count)).getD 0 },
      rebase ((open_.map (·.num)).getD (d.get SHR_REWIND_NUMBER + 1)),
      (match d.course.open_ with
        | some (c, _) =>
          let tell (c : Nat) (commit : Bool) : Prog :=
            broadcast nCOURSE_DECIDE (pack [(4, c), (1, (!commit).toNat), (1, if commit then 0 else vORDER), (2, 0), (4, noCourse), (4, 0), (8, 0)])
          all [modCourse fun k => { k with open_ := none },
            (match d.course.known with
              | some k => if k < c then .seq (tell k true) (tell c false) else tell c true
              | none => tell c false)]
        | none => .done),
      (match open_ with
        | some p => all [modCourse fun k => { k with noOpen := true }, sendPlan p, when (!d.shore.notices.isEmpty) supersede]
        | none => .seq startRewind openDue)]

/-! ## The loss of the shored position -/

/-- The payload of SHORE_NOTICE (Table 4.2). -/
def Dev.noticeBytes (d : Dev) (pos slot cause : Nat) : List Byte :=
  pack [(4, pos), (2, d.get CRS_ROOT_MEMBER), (1, slot), (1, cause), (8, d.podTime), (4, if d.inCourse then d.cur else noCourse), (1, d.voted.toNat), (3, 0)]

/-- SHORE_NOTICE of a position (Table 4.2), kept until a plan answers it. -/
def shoreNotice (pos slot cause : Nat) : Prog :=
  .look fun d =>
    let b := d.noticeBytes pos slot cause
    .seq (modShore fun s => { s with sentNotices := s.sentNotices ++ [b] }) (toRoot nSHORE_NOTICE b)

/-- SHORE_NOTICEs that no plan has answered go to the root again (Table 4.4). -/
def noticesAgain : Prog := .look fun d => each d.shore.sentNotices fun b => toRoot nSHORE_NOTICE b

/-- The slot of a position that the Ozmund has lost: FENCED, or QUARANTINE where the ladder has taken it out of service (R370). -/
def retireSlot (n : Nat) : Prog :=
  .look fun d => if d.rst.out.contains (uSlot n) then .seq (setSlot n sQUAR) (put (HUB_SLOT_POSITION n) noPos) else setSlot n sFENCED

/-- The shored position is treated as failed: it is covered beyond the tray (R123, R136, R148, R224). DESIGN CHOICE: the role stays SHORE and the
slot FENCED, in phase FAILED, until the job's teardown, since Table 1.4 gives no transition for it (notes/assumptions/164). -/
def positionLost : Prog :=
  .look fun d =>
    match d.shore.slot with
    | none => .done
    | some n => all [
        when (!(bitOf (d.get CRS_STAT_DONE) n)) (abandonHere vFENCE true),
        each ((List.range 256).filter fun t => decide ((d.tile t).get TLE_CTRL_OWNER = 1) && decide ((d.tile t).get TLE_STAT_STATE = 1)) fun t =>
          modTile t fun x => x.set TLE_CTRL_STOP 1,
        fenceWindow,
        put SHR_STAT_PHASE 8,
        bump SHR_COUNT_FAILS,
        retireSlot n,
        modShore fun s => { s with slot := none, beyond := s.beyond ++ [n], handback := none },
        raise SHR_EVT_FAILED,
        coverBeyond [d.slotPos n],
        shoreNotice (d.slotPos n) n 6]

end Sys2Proof.Machine
end

