-- ==== Sys2Proof/Machine/Continuity.lean ====
section
/-! DEFINITION. What the engines below call upon when something happens to the job: integrity events (R149 to R151), the step
boundary of the shored position (R95, R125, R221), and the witness tiles' exceptions (Table 8.16). -/

namespace Sys2Proof.Machine

/-! ## Witness tiles -/

/-- The witness tiles (R145, R156): the WIT_CFG.TILES highest-numbered tiles that are not retired, in descending order; 0 acts as
1, and above 32 as 32. -/
def Dev.witnessTiles (d : Dev) : List Nat :=
  (((List.range 256).map (255 - ·)).filter fun n => !(bitOf (d.get (WIT_RETIRED_TILES (n / 64))) (n % 64))).take
    (min 32 (max 1 (d.get WIT_CFG_TILES)))

/-- The witness tiles that serve the witness engine now. -/
def Dev.witnessServing (d : Dev) : List Nat := d.witnessTiles.filter fun n => decide ((d.tile n).get TLE_CTRL_OWNER = 2)

/-- The owner of a tile changes, and RELAXED with it (R176). -/
def Tile.withOwner (t : Tile) (owner : Nat) : Tile := (t.set TLE_CTRL_OWNER owner).set TLE_CTRL_RELAXED 0

/-- The context of a tile's owner (MMU_TCTXk, Table 9.20). -/
def tctxFld (n : Nat) : Fld := ⟨(MMU_TCTX_CTX0 (n / 8)).addr, 8 * (n % 8), 6⟩

/-- Gives a tile to an owner and binds it to the owner's context (R156, R246): 0 for none, 2 for WITNESS. -/
def ownTile (n owner ctx : Nat) : Prog := .seq (modTile n fun t => t.withOwner owner) (put (tctxFld n) ctx)

/-- The control complex makes its free tiles among them the witness tiles, and frees those that are none any more (R156). A GUEST or SERVICE
program that holds one of them is stopped, to be saved; a JOB tile stays with its program while that lives (R228). DESIGN CHOICE
(notes/assumptions/175). -/
def settleWitness : Prog :=
  .look fun d => .seq
    (each (List.range 256) fun n => .look fun e =>
      let owner := (e.tile n).get TLE_CTRL_OWNER
      let w := d.witnessTiles.contains n
      if w ∧ owner = 0 then ownTile n 2 2
      else when (!w && decide (owner = 2)) (ownTile n 0 0))
    (each (d.mmu.programs.filter fun p => decide (p.ctx ≠ 1) && !p.saved && p.tiles.any d.witnessTiles.contains) fun p =>
      each p.tiles fun n => .look fun e => when (decide ((e.tile n).get TLE_STAT_STATE = 1) || decide ((e.tile n).get TLE_STAT_STATE = 3))
        (modTile n fun x => x.set TLE_CTRL_STOP 1))

/-- A tile is retired (R151, R156): it takes no owner and serves nothing until the next chip reset. Beyond RETIRE_MAX, shoring is disabled
and an event notice says so. -/
def retireTile (t own : Nat) : Prog :=
  .look fun d =>
    let k := d.get WIT_STAT_RETIRED + 1
    when (!(bitOf (d.get (WIT_RETIRED_TILES (t / 64))) (t % 64))) (all [
      put (WIT_RETIRED_TILES (t / 64)) (withBit (d.get (WIT_RETIRED_TILES (t / 64))) (t % 64)),
      put WIT_STAT_RETIRED k,
      modTile t fun x => (x.set TLE_STAT_STATE 4).set TLE_CTRL_EN 0, ownTile t 0 0,
      record 0x11 0 (pack [(2, t), (1, own)]) true,
      raise WIT_EVT_RETIRE,
      settleWitness,
      when (decide (d.get WIT_LIMIT_RETIRE_MAX < k)) (.seq (put SHR_CTRL_EN 0) (notice srcRetire k))])

/-- An OWN event against a witness tile (Table 5.5, R151). -/
def ownEvent (t pos step : Nat) : Prog :=
  .look fun d =>
    let ts := d.recent d.wit.ownTimes ++ [(t, d.clk)]
    let k := (ts.filter fun e => decide (e.1 = t)).length
    all [intEvent 7 none pos step, bump WIT_COUNT1_OWN, modWit fun w => { w with ownTimes := ts },
      when (decide (max 1 (d.get WIT_LIMIT_TILE_OWN) ≤ k)) (retireTile t k)]

/-! ## The witness queue -/

/-- What the witness engine keeps when a job begins or ends: the events in the window of R150 and R151. -/
def WitSt.forJob (w : WitSt) : WitSt := { slotTimes := w.slotTimes, ownTimes := w.ownTimes }

/-- Header fields of a sample record (Table 5.2). -/
def WRec.dom (r : WRec) : Nat := numAt r.data 8 1
def WRec.pos (r : WRec) : Nat := numAt r.data 12 4
def WRec.step (r : WRec) : Nat := numAt r.data 16 8
def WRec.index (r : WRec) : Nat := numAt r.data 24 4

/-- WIT_STAT.BACKLOG after the queue changes. -/
def countQueue : Prog := .look fun d => put WIT_STAT_BACKLOG d.wit.queue.length

/-- A sample is dealt with: it is expected no longer, or will not be once its step is learned, and the vote it may have held is tried. -/
def dealt (slot dom step index : Nat) : Prog :=
  .seq (modWit fun w =>
    let x := (slot, dom, step, index)
    if w.expected.contains x then { w with expected := w.expected.erase x } else { w with early := w.early ++ [x] }) tryVote

/-- A sample record joins the queue; one that finds it full is dropped (R145). `own` tells a record that the Ozmund forms (R147). -/
def queueSample (slot : Nat) (data : List Byte) (own : Bool) : Prog :=
  .look fun d =>
    let r : WRec := { slot := slot, data := data, own := own }
    if max 1 Config.witnessQueue ≤ d.wit.queue.length then .seq (bump WIT_COUNT1_DROPPED) (dealt slot r.dom r.step r.index)
    else .seq (modWit fun w => { w with queue := w.queue ++ [r] }) countQueue

/-- The record at the head of the queue leaves it. -/
def popRecord : Prog :=
  .look fun d => match d.wit.queue with
    | [] => .done
    | r :: rest => all [modWit fun w => { w with queue := rest }, countQueue, dealt r.slot r.dom r.step r.index]

/-- A STRAY event against a slot that a witness tile's exception raises (R143, R144); at the limit of R150 the slot is due to be declared, at
the next idle step (notes/assumptions/177). -/
def strayEvent (n step : Nat) : Prog :=
  .look fun d => all [bump WIT_COUNT1_STRAY, intEvent 9 (some n) (d.slotPos n) step,
    .look fun d => when (decide (max 1 (d.get WIT_LIMIT_COUNT) ≤ d.get (WIT_SLOT_EV_WINDOW n))) (modWit fun w => { w with due := w.due ++ [n] })]

/-- The oldest record has been on a witness tile, and its next recompute runs on another (R145, R224). -/
def markUsed (t : Nat) : Prog :=
  modWit fun w => match w.queue with
    | [] => w
    | r :: rest => { w with queue := { r with used := r.used.filter (fun u => decide (u ≠ t)) ++ [t] } :: rest }

/-- The witness tiles of a record in the order its recomputes take them (R145): those it has not used, from the highest number down, then
the one used longest ago. -/
def Dev.tilesFor (d : Dev) (r : WRec) : List Nat :=
  d.witnessServing.filter (fun t => !(r.used.contains t)) ++ r.used.filter fun t => d.witnessServing.contains t

/-- An exception of a witness tile (Table 8.16): PARITY, CHECK and WAIT leave the record for another tile; causes that arise
from the record's own fields discard it as STRAY; any other counts against the tile. -/
def witnessException (t cause : Nat) : Prog :=
  .look fun d =>
    if cause ∈ [6, 12, 14] then markUsed t
    else if cause ∈ [1, 2, 3, 8, 9] then (match d.wit.queue with
      | [] => .done
      | r :: _ => .seq popRecord (strayEvent r.slot r.step))
    else ownEvent t ((d.wit.queue.head?.map WRec.pos).getD noPos) ((d.wit.queue.head?.map WRec.step).getD 0)

/-! ## Checked moves -/

/-- Moves whole blocks with their checks, verified on the way (R137): a mismatch raises CHECK, and `bad` says what the consumer does
(R138). -/
def moveChecked (src dst n : Nat) (ok bad : Prog) : Prog :=
  .look fun d => if d.runOk src n then .seq (copyPhys src dst n) ok else .seq (integrityOwn 2) bad

/-! ## Loading an agent -/

/-- LOAD of bytes to host memory, block by block (Table 2.31). -/
def loadBytes (n addr : Nat) (bs : List Byte) : Prog :=
  .seq (tallySlot n 11 bs.length) <| .seq (tallyClass 2 bs.length) <| each (packets bs).zipIdx fun e => .look fun d =>
    oSendOn n { ty := 0x04, sb := !(d.trayUp n), arg := addr + 4096 * e.2, chk := true, data := e.1 } true []

/-- The live contents of a granule of the shored position. -/
def Dev.localLive (d : Dev) (g : Nat) : Nat × List Byte :=
  match (d.agent localAgent).granAt g with
  | none => (0, [])
  | some (base, blocks) => (base, match d.jobPhys base with
    | some pa => d.physBytes pa (blocks * 4096)
    | none => List.replicate (blocks * 4096) 0)

/-- Copies granules of the shored position to the accelerator; D of each page is cleared first, so that the next pass takes
what is written meanwhile (R125). -/
def copyLocal (n : Nat) (gs : List Nat) : Prog :=
  each gs fun g => .look fun d =>
    let b := d.localLive g
    if (d.jobPhys b.1).any fun pa => !(d.runOk pa b.2.length) then .seq (integrityOwn 2) positionLost
    else .seq (when (d.leafOf 1 b.1).isSome (.seq (keepWritten g) (editLeaf 1 b.1 fun e => e - e % 128 + e % 64))) (loadBytes n b.1 b.2)

/-- The boundary of a live handback (R125, steps 4 to 6): the position stops before it begins step s; what was written since
the last pass (`dirty`, taken before a local cut), the step context, the live counters and the keys go to the accelerator, and the crossconnect moves back. -/
def handbackBoundary (h : Handback) (s : Nat) (image : List Byte) (dirty : List Nat) : Prog :=
  .look fun d =>
    let c := (d.agent localAgent).markSlot
    all [
      each ((List.range 256).filter fun t => decide ((d.tile t).get TLE_CTRL_OWNER = 1) && decide ((d.tile t).get TLE_STAT_STATE = 1)) fun t =>
        modTile t fun x => x.set TLE_CTRL_STOP 1,
      put SHR_STAT_PHASE 7,
      copyLocal h.slot dirty,
      sendContextRegs h.slot (List.replicate 64 0 ++ image),
      sendCounters h.slot fun i => (d.counter i).toNat,
      when (decide (0 < c)) (sendKey h.slot (c - 1)),
      sendKey h.slot c,
      sendSelector h.slot d.wit.rewind s,
      modShore fun x => { x with handback := some { h with step := .admitting, moved := true, at_ := s, image := image } },
      xcnMove h.slot false]

/-- The lead rank of the shored position hands a step boundary to the course engine (R95, R221): the step number and context
image. A step other than the current one plus one is refused: the continuation then runs on false. -/
def jobStep (step : W64) (image : List Byte) (k : Bool → Prog) : Prog :=
  .look fun d =>
    let a := d.agent localAgent
    if step.toNat ≠ a.step + 1 then k false
    else all [
      modAgent localAgent fun a => { (a.set QAG_STEP_STEP step.toNat).set QAG_CBUF_USE_STALL_US 0 with stallFrom := none, stallTicks := 0 },
      modWit fun w => { w with mxNext := 0, rdNext := 0 },
      modAgent localAgent fun a => a.set QAG_CBUF_USE_STALL_US 0,
      when (decide (a.cstate = 1) && decide (a.armStep = step.toNat) && decide (d.kState = kOPENING)) (.seq (localCut step.toNat image) (.look fun d => when d.isRoot startVoteClock)),
      (match d.shore.slot with | some n => learnStep n step.toNat | none => .done),
      k true,
      (match d.shore.handback with
        | some h => when (h.live && decide (h.step = .boundary)) (handbackBoundary h step.toNat image d.localDirty)
        | none => .done)]

end Sys2Proof.Machine
end

