-- ==== Sys2Proof/Machine/SyncOps.lean ====
section
/-! DEFINITION. Advances of the sync unit's counters and the watches on them (R269 to R271, R279, R280). -/

namespace Sys2Proof.Machine

/-- A watch fires or times out: a barrier's acts at the course root (R90, R111, R112), any other tells its target. -/
def watchResult (n : Nat) (w : Watch) (result : Nat) : Prog :=
  match w.target with
  | .courseBarrier => if result = 0 then courseBarrierFired else courseBarrierTimeout
  | .rewindBarrier => if result = 0 then rewindBarrierFired else rewindBarrierTimeout
  | _ => watchTell n w result

/-- Fires each watch on a counter that its value now satisfies; a watch fires once and is then removed (R280). -/
def fireWatches (counter : Nat) : Prog :=
  .look fun d =>
    each (d.watches.filter fun e => decide (e.2.counter = counter) && satisfied (d.counter counter) e.2.value) fun e =>
      all [tally 1441 1, dropWatch e.1, watchResult e.1 e.2 0]

/-- An advance of a sync-unit counter (R269, R271). An advance by 0 changes nothing, and no advance reaches the JOB
window once its counters are final (R279). -/
def advance (counter : Nat) (inc : W64) : Prog :=
  .look fun d =>
    when (decide (inc ≠ 0) && !(inJobWindow counter && decide (d.sync.win = .final))) (.seq (tally 1440 1) <| .seq (.act (.counter counter (d.counter counter + inc))) (fireWatches counter))

/-- Arms a watch: the continuation gets its number and the status OK, or BUSY (with SYN_EVT.WATCH_FULL) where none is
free. A watch already satisfied fires at once (R280). -/
def armWatch (w : Watch) (k : Nat → Nat → Prog) : Prog :=
  .look fun d =>
    match d.freeWatch with
    | none => .seq (raise SYN_EVT_WATCH_FULL) (k 0 stBUSY)
    | some n => all [.act (.watch n (some w)), countWatches, k n stOK, fireWatches w.counter]

end Sys2Proof.Machine
end

