-- ==== Sys2Proof/Machine/Samples.lean ====
section
/-! DEFINITION. The sample records of the shored position (R147): its output tiles and reduction slices are numbered as its tiles issue
them (R53, R157, R197), and the record of each one selected is formed from the pass or slice itself (R143). -/

namespace Sys2Proof.Machine

/-- Zero bytes up to a multiple of 64 (R143). -/
def padded (bs : List Byte) : List Byte := bs ++ List.replicate ((64 - bs.length % 64) % 64) 0

/-- Words of 4 bytes, in order. -/
def wordList (ws : List Nat) : List Byte := (ws.map (leBytes 4)).flatten

/-- A sample record (Tables 5.2 and 5.3): its header fields, and its sections, each padded. -/
def sampleRecord (dom flags fa fb pos step index kn order : Nat) (sections : List (List Byte)) : List Byte :=
  let body := (sections.map padded).flatten
  ascii "AZWITREC" ++ pack [(1, dom), (1, flags), (1, fa), (1, fb), (4, pos), (8, step), (4, index), (4, kn), (2, order), (2, 0),
    (4, 128 + body.length)] ++ List.replicate 88 0 ++ body

/-- The largest K of one record (Table 5.4). -/
def recordK (view : Nat) : Nat := match view with | 0 => 1024 | 1 | 2 => 2048 | 5 | 6 | 7 => 8192 | _ => 4096

/-- The largest K of one record of a pass, and the spans of K that each count as an output tile of their own (Table 5.4). -/
def passSpan (e : QEntry) : Nat := min (recordK (mxFmtA e.w0)) (recordK (mxFmtB e.w0))
def passSpans (e : QEntry) : Nat := max 1 ((mxK e.w0 + passSpan e - 1) / passSpan e)

/-- The first row and column of a gang's output that an accumulator holds (Table 6.2). -/
def accOrigin (cfg g acc : Nat) : Nat × Nat :=
  match cfg with
  | 0 => (0, 0)
  | 1 => (0, 64 * (acc - 2 * g))
  | 2 => (64 * ((acc - g) / 2), 0)
  | _ => (64 * (acc / 2), 64 * (acc % 2))

/-- The record of span `j` of a pass in one accumulator, from the tile before the pass writes. ACC_IN of a later span is the partial sum
of those before it. -/
def passRecord (d : Dev) (base : Nat) (t : Tile) (e : QEntry) (pos step index acc j : Nat) : List Byte :=
  let o := accOrigin (t.get TLE_MXCFG_ACTIVE) (mxGang e.w0) acc
  let lo := j * passSpan e
  let k := min (mxK e.w0) (lo + passSpan e) - lo
  let k0 := mxK0 e.w1 + lo
  let word (i : Nat) : Nat := t.accWord (4096 * acc + i)
  let foldedTo (k i : Nat) : Nat := passElem d base e (o.1 + i / 64) (o.2 + i % 64) k (word i)
  let mx := viewMX (mxFmtA e.w0)
  let accf := mxAcc e.w0 || decide (j ≠ 0)
  let scales (f : Nat → Nat → Nat) : List (List Byte) :=
    if mx then [(List.range 64).flatMap fun r => (List.range (k / 32)).map fun b => BitVec.ofNat 8 (f r b)] else []
  sampleRecord 0 accf.toNat (mxFmtA e.w0) (mxFmtB e.w0) pos step index k 0 <|
    [(List.range 64).flatMap fun r => packRow (viewBits (mxFmtA e.w0)) ((List.range k).map fun i => passA d base e (o.1 + r) (k0 + i))] ++
    scales (fun r b => passAScale d base e (o.1 + r) (k0 / 32 + b)) ++
    [(List.range 64).flatMap fun c => packRow (viewBits (mxFmtB e.w0)) ((List.range k).map fun i => passB d base e (k0 + i) (o.2 + c))] ++
    scales (fun c b => passBScale d base e (k0 + 32 * b) (o.2 + c)) ++
    (if accf then [wordList ((List.range 4096).map fun i => if j = 0 then word i else foldedTo lo i)] else []) ++
    [wordList ((List.range 4096).map fun i => foldedTo (lo + k) i)]

/-- Whether a tile's passes and slices are the shored position's: a JOB tile, of a pair the even one (R148). -/
def Dev.sampledTile (d : Dev) (n : Nat) : Bool :=
  decide ((d.tile n).get TLE_CTRL_OWNER = 1) && !((d.tile n).on TLE_STAT_PAIRED && decide (n % 2 = 1))

/-- The records of a pass whose results reach the accumulators, as far as they are selected (R147). -/
def formPassRecords (n : Nat) (e : QEntry) : Prog :=
  .look fun d => match e.sample, d.shore.slot with
    | some (step, first), some s =>
      let t := d.tile n
      let accs := gangAccs (t.get TLE_MXCFG_ACTIVE) (mxGang e.w0)
      let picks := d.expects s step 0
      each (List.range (passSpans e)) fun j => each accs.zipIdx fun a =>
        let index := first + j * accs.length + a.2
        when (picks.contains index) (queueSample s (passRecord d (tileByte n 0) t e d.shoredPos step index a.1 j) true)
    | _, _ => .done

/-- Counts `k` output tiles, or slices, of the shored position's step. -/
def countTiles (k : Nat) : Prog := modWit fun w => { w with mxNext := w.mxNext + k }
def countSlices (k : Nat) : Prog := modWit fun w => { w with rdNext := w.rdNext + k }

/-- The record of a slice of the shored position, if it is selected, and the next number of its step (R147, R197). -/
def formSliceRecord (n : Nat) (e : QEntry) (slice : List (Nat × Nat)) : Prog :=
  .look fun d => when (d.sampledTile n) <| .seq (match d.shore.slot with
    | some s =>
      let t := d.tile n
      let step := (d.agent localAgent).step
      when ((d.expects s step 1).contains d.wit.rdNext) (queueSample s (sampleRecord 1 0 (rdView e.w0)
        (match e.op with | .reduceSum => 0 | .reduceMax => 1 | _ => 2) d.shoredPos step d.wit.rdNext (rdN e.w0) (rdOrder e.w1)
        [(List.range (rdN e.w0)).flatMap fun j => packRow (viewBits (rdView e.w0)) ((List.range 64).map (rdElem d (tileByte n 0) t e j)),
          rdBytes e slice]) true)
    | none => .done) (countSlices 1)

end Sys2Proof.Machine
end

