-- ==== Sys2Proof/Machine/TileEngine.lean ====
section
/-! DEFINITION. How a tile runs its program: dispatch, the four issue queues, completion, exceptions and stops (R205 to
R231, R159, R160, R180, R182, R213 to R217). -/

namespace Sys2Proof.Machine

/-! ## States and registers -/

/-- TLE_STAT.STATE codes (Table 6.12). -/
def tIDLE : Nat := 0
def tRUNNING : Nat := 1
def tSTOPPED : Nat := 2
def tHALTED : Nat := 3
def tRETIRED : Nat := 4
def tFAULTED : Nat := 5

/-- TLE_CTRL.OWNER codes (Table 6.10). -/
def oNONE : Nat := 0
def oJOB : Nat := 1
def oWITNESS : Nat := 2
def oGUEST : Nat := 3
def oSERVICE : Nat := 4

def Tile.state (t : Tile) : Nat := t.get TLE_STAT_STATE
def Tile.owner (t : Tile) : Nat := t.get TLE_CTRL_OWNER
def Tile.sReg (t : Tile) (i : Nat) : W64 := BitVec.ofNat 64 (t.get (TLE_S_VALUE i))
def Tile.aReg (t : Tile) (i : Nat) : W64 := BitVec.ofNat 64 (t.get (TLE_A_VALUE i))
def Tile.pReg (t : Tile) (i : Nat) : W64 := BitVec.ofNat 64 (t.get (TLE_P_VALUE i))
def Tile.setS (t : Tile) (i : Nat) (v : W64) : Tile := t.set (TLE_S_VALUE i) v.toNat
def Tile.setA (t : Tile) (i : Nat) (v : W64) : Tile := t.set (TLE_A_VALUE i) v.toNat
def Tile.setP (t : Tile) (i : Nat) (v : W64) : Tile := t.set (TLE_P_VALUE i) v.toNat
/-- Local counter C. -/
def Tile.counter (t : Tile) (i : Nat) : W64 := Store.get counterReset t.cnt i
def Tile.addCounter (t : Tile) (i : Nat) (v : W64) : Tile := { t with cnt := Store.put counterReset t.cnt i (t.counter i + v) }

/-- RELAXED is in force: set, owner GUEST, and not one of a lockstep pair (R176). -/
def Tile.relaxed (t : Tile) : Bool := t.on TLE_CTRL_RELAXED && decide (t.owner = oGUEST) && !t.on TLE_STAT_PAIRED

/-- The context bound to a tile. -/
def Dev.tctx (d : Dev) (n : Nat) : Nat := d.get (tctxFld n)

/-- The program a tile runs: the one whose rank map names it (R228). -/
def Dev.programOf (d : Dev) (n : Nat) : Option Program := d.mmu.programs.find? fun p => n ∈ p.tiles || n ∈ p.twins

/-- The tiles of a rank of a tile's program: one, or both twins of a pair (R228). -/
def Dev.rankTiles (d : Dev) (n rank : Nat) : List Nat :=
  match d.programOf n with
  | some p => (p.tiles[rank]?).toList ++ (p.twins[rank]?).toList
  | none => []

/-- The twin of a tile in paired execution (R148). -/
def twinOf (n : Nat) : Nat := if n % 2 = 0 then n + 1 else n - 1

/-- The tiles that run as one: a tile, or both twins of a lockstep pair, the even one first (R148). -/
def Dev.lockstep (d : Dev) (n : Nat) : List Nat := if (d.tile n).on TLE_STAT_PAIRED then [n / 2 * 2, n / 2 * 2 + 1] else [n]

/-- A tile of a pair acts outside the pair once: the even tile's instruction does (R148). -/
def Tile.silentTwin (t : Tile) (n : Nat) : Bool := t.on TLE_STAT_PAIRED && decide (n % 2 = 1)

/-- The twins of a pair differ (R148): a PAIR event, both stop, and the shored position is covered beyond the tray. -/
def pairFails (n : Nat) : Prog :=
  .seq (integrityOwn 8) <| .seq positionLost <| each [n, twinOf n] fun i => modTile i fun t => t.set TLE_CTRL_STOP 1

/-! ## Captures (R209) -/

/-- The value a VX operand code broadcasts, or 0 where it names no scalar. -/
def Tile.scalarAt (t : Tile) (code : Nat) : W64 := if isScalar code then t.sReg (code - 0x20) else 0

/-- An instruction with the S, A and P values it takes at dispatch. -/
def capture (t : Tile) (op : LOp) (w0 w1 : W64) (off : Nat) : QEntry :=
  match op.cls with
  | .mx =>
    { op := op, w0 := w0, w1 := w1, off := off, ahead := t.gangs.length
      av := [t.aReg (bitsAt w0 22 4), t.aReg (bitsAt w0 26 4), t.aReg (bitsAt w0 30 4), t.aReg (bitsAt w0 34 4)] }
  | .vx =>
    { op := op, w0 := w0, w1 := w1, off := off, pv := t.pReg (vxPred w0),
      sv := [t.scalarAt (vxSA w0), t.scalarAt (vxSB w0), t.scalarAt (vxSC w0)],
      av := [t.aReg (vxSA w0 % 16), t.aReg (vxSB w0 % 16)] }
  | .rd => { op := op, w0 := w0, w1 := w1, off := off, av := [t.aReg (rdSrc w0 % 16), t.aReg (bitsAt w0 35 4)] }
  | .mv => { op := op, w0 := w0, w1 := w1, off := off, av := [t.aReg (bitsAt w0 9 4), t.aReg (bitsAt w0 13 4)] }
  | .sy => { op := op, w0 := w0, w1 := w1, off := off, sv := [t.sReg (bitsAt w0 16 5)] }
  | .ct => { op := op, w0 := w0, w1 := w1, off := off }

/-- The words an instruction takes: 8 bytes each. -/
def QEntry.bytes (e : QEntry) : Nat := if bitsAt e.w0 8 1 = 1 then 16 else 8

/-! ## Stops, exceptions and completion -/

/-- The class of a tile's transfers (Table 9.13): its owner's. -/
def Dev.tileClass (d : Dev) (n : Nat) : Nat := match (d.tile n).owner with | 1 => 3 | 2 => 5 | 3 => 7 | _ => 8

/-- The class of a tile's direct transfers: STOP while its stop is pending. -/
def Dev.moveClass (d : Dev) (n : Nat) : Nat := if (d.tile n).on TLE_CTRL_STOP then 0 else d.tileClass n

/-- The class of a requester's transfer (Table 9.13). -/
def Dev.classOf (d : Dev) : Requester → Nat
  | .chan n => min 8 (d.get (DMA_CTRL_CLASS n))
  | .move n _ => d.moveClass n
  | .desc n _ => d.tileClass n

/-- Whether a cause is final (Table 9.9). -/
def finalCause (c : Nat) : Bool := decide (6 ≤ c)

/-- What a requester's fault puts into its record (Table 9.10). -/
def Dev.noteOf (d : Dev) (f : QFault) : FaultNote :=
  let engine := match f.req with | .chan _ => 1 | _ => 0
  let num := match f.req with | .chan n => n | .move n _ => n | .desc n _ => n
  ⟨d.podTime, f.va, f.cause, (if f.write then 1 else 0) + 2 * engine + (if finalCause f.cause then 4 else 0), num, f.ctx, d.classOf f.req⟩

/-- The queued fault of a requester, withdrawn: FLAGS bit 3 of its record is set, or of the record that still waits for space (R253, R254). -/
def withdraw (r : Requester) : Prog :=
  .look fun d =>
    each (d.mmu.faults.filter fun f => decide (f.req = r)) fun f =>
      all [
        modMmu fun m => { m with faults := m.faults.filter fun g => decide (g.req ≠ r) },
        match f.ring with
        | some i => .look fun d =>
            let a := d.get MMU_FQ_BASE * 4096 + 32 * i + 17
            .seq (writePhysNat a 1 (d.mem64 a 1 ||| 8)) (put MMU_STAT_OUTSTANDING (d.get MMU_STAT_OUTSTANDING - 1))
        | none => when (decide (f.cause ≠ 3)) (modMmu fun m => { m with owed := m.owed ++ [{ d.noteOf f with flags := (d.noteOf f).flags + 8 }] })]

/-- Transfers of a tile that are held on a queued fault stop there (R254). -/
def withdrawTile (n : Nat) : Prog :=
  .look fun d =>
    let t := d.tile n
    all [
      each (t.moves.zipIdx) fun m => when m.1.held (withdraw (.move n m.2)),
      each (t.descs.zipIdx) fun m => when m.1.held (withdraw (.desc n m.2)),
      modTile n fun t => { t with
        moves := t.moves.map fun m => { m with held := false }
        descs := t.descs.map fun j => { j with held := false, after := 0 } }]

/-- Once nothing is in progress, a tile with an exception enters FAULTED (R223), and one that END ended becomes IDLE with
EN = 0 (R231). The DESC transfers of a pair stand in the even tile. -/
def settle (n : Nat) : Prog :=
  .look fun d =>
    let t := d.tile n
    let quiet := t.passes.isEmpty && t.moves.all (·.held)
    if t.faulting && quiet then
      .seq (withdrawTile n) (modTile n fun t =>
        { (t.set TLE_STAT_STATE tFAULTED).set TLE_CTRL_EN 0 with faulting := false })
    else if t.ending && t.passes.isEmpty && t.moves.isEmpty && (d.lockstep n).all (fun i => (d.tile i).descs.isEmpty) && t.mx.isEmpty && t.vx.isEmpty &&
        t.rd.isEmpty && t.mv.isEmpty then
      modTile n fun t => { ((t.set TLE_STAT_STATE tIDLE).set TLE_CTRL_EN 0).set TLE_CTRL_STOP 0 with ending := false }
    else .done

/-- The session that an exception of a tile's program is told to (Table 8.16): the one that admitted the guest, else the one that loaded the
program. -/
def Dev.exceptionSession (d : Dev) (p : Program) : Nat :=
  ((d.mmu.guests.find? fun g => decide (g.ctx = p.ctx)).map (·.session)).getD p.session

/-- The report of an exception to the control complex, by the tile's owner (R224, Table 8.16). -/
def reportException (n cause : Nat) : Prog :=
  .look fun d =>
    let t := d.tile n
    let err := (Store.get tileDflt t.regs 0x20).toNat
    let addr := 0x400000 + 0x4000 * n + 0x20
    if t.owner = oJOB then positionLost
    else if t.owner = oWITNESS then witnessException n cause
    else match d.programOf n with
      | some p => noticeTo (d.exceptionSession p) addr 0 (pack [(2, n), (8, err)])
      | none => .done

/-- An exception: recorded in TLE_ERR if none is (R182, R222), no further dispatch or issue (R223), and reported. -/
def exception (n cause : Nat) (q : LClass) (off : Nat) : Prog :=
  .look fun d =>
    all [
      when (!(d.tile n).on TLE_ERR_VALID) (modTile n fun t =>
        (((t.set TLE_ERR_CAUSE cause).set TLE_ERR_QUEUE q.code).set TLE_ERR_IOFF off).set TLE_ERR_VALID 1),
      modTile n fun t => { t with faulting := true },
      reportException n cause,
      settle n]

/-! ## Registers and units an instruction waits for -/

/-- The P register that a CMP in the VX queue has yet to write (R209). -/
def Tile.pendingP (t : Tile) (p : Nat) : Bool := t.vx.any fun e => e.op.isCmp && decide (vxDst e.w0 = 0x10 + p)

/-- The P registers an instruction reads or writes. -/
def pRegs (op : LOp) (w0 : W64) : List Nat :=
  match op.cls with
  | .vx => (if vxPen w0 then [vxPred w0] else []) ++ (if op.isCmp then [vxDst w0 - 0x10] else [])
  | .ct =>
    (match op with
      | .bp | .pget => [ctRA w0]
      | .pset => [ctRD w0]
      | .pand | .por | .pxor => [ctRD w0, ctRA w0, ctRB w0]
      | .pnot => [ctRD w0, ctRA w0]
      | _ => [])
  | _ => []

/-- The accumulators a VX or RD instruction reads or writes (R160); with no row or vector it touches none (R186). DESIGN CHOICE: one that
writes an accumulator waits for a pass in progress on it as a reader does, the rule naming reads only (notes/assumptions/173). -/
def accsOf (e : QEntry) : List Nat :=
  match e.op.cls with
  | .vx =>
    if vxNr e.w0 = 0 then [] else
    let codes := (if e.op.isCmp then [] else [vxDst e.w0]) ++ (if e.op.usesSA then [vxSA e.w0] else []) ++
      (if e.op.usesSB then [vxSB e.w0] else []) ++ (if e.op = .fma then [vxSC e.w0] else [])
    (codes.filter isACC).map (· - 8)
  | .rd => if rdSrck e.w0 = 3 then (List.range ((rdN e.w0 + 63) / 64)).map (rdSrc e.w0 + ·) else []
  | _ => []

/-- The accumulators that passes in progress write. -/
def Tile.busyAccs (t : Tile) : List Nat := t.passes.flatMap fun p => gangAccs (t.get TLE_MXCFG_ACTIVE) (mxGang p.w0)

/-- Every earlier instruction of a queue has completed, once it stands at the head (Table 8.3). -/
def Tile.queueDone (t : Tile) (q : LClass) : Bool :=
  match q with
  | .mx => t.passes.isEmpty
  | .mv => t.moves.isEmpty
  | _ => true

/-- Every instruction dispatched before has completed. -/
def Tile.allDone (t : Tile) : Bool :=
  t.mx.isEmpty && t.vx.isEmpty && t.rd.isEmpty && t.mv.isEmpty && t.passes.isEmpty && t.moves.isEmpty

/-- A queue, and a tile with it replaced. -/
def Tile.queue (t : Tile) (q : LClass) : List QEntry :=
  match q with | .mx => t.mx | .vx => t.vx | .rd => t.rd | _ => t.mv
def Tile.setQueue (t : Tile) (q : LClass) (es : List QEntry) : Tile :=
  match q with
  | .mx => { t with mx := es } | .vx => { t with vx := es } | .rd => { t with rd := es } | _ => { t with mv := es }
/-- Takes the head off a queue. -/
def Tile.pop (t : Tile) (q : LClass) : Tile := t.setQueue q ((t.queue q).drop 1)

/-! ## SY (R216, R217) -/

/-- V of an SY instruction. -/
def syV (e : QEntry) : W64 :=
  if bitsAt e.w0 21 1 = 1 then e.sv.getD 0 0
  else if bitsAt e.w0 8 1 = 1 then e.w1
  else BitVec.ofNat 64 (bitsAt e.w0 22 32)

/-- The sync-unit counter of RWAIT and RSIGNAL in the tile's window (R272). -/
def syCounter (d : Dev) (n : Nat) (e : QEntry) : Option Nat := d.winCounter (d.tctx n) ((e.sv.getD 0 0).toNat % 2 ^ 16)

/-- Whether a WAIT or RWAIT is satisfied (R270); a wait for 0 always is. -/
def waitMet (d : Dev) (n : Nat) (e : QEntry) : Bool :=
  if e.op = .wait then satisfied ((d.tile n).counter (bitsAt e.w0 10 6)) (syV e)
  else match syCounter d n e with
    | some c => satisfied (d.counter c) (syV e)
    | none => false

/-- Whether an SY instruction can complete: a wait that holds, or a signal or drain whose earlier instructions have
completed (`earlier`). -/
def syReady (d : Dev) (n : Nat) (e : QEntry) (earlier : Bool) : Bool :=
  match e.op with
  | .wait | .rwait => !e.mark && waitMet d n e
  | _ => earlier

/-- The effect of an SY instruction that completes. -/
def syEffect (n : Nat) (e : QEntry) : Prog :=
  match e.op with
  | .sySignal => modTile n fun t => t.addCounter (bitsAt e.w0 10 6) (syV e)
  | .rsignal => .look fun d =>
      when (!((d.tile n).on TLE_STAT_PAIRED && decide (n % 2 = 1))) <|
        match syCounter d n e with
        | some c => when (!(inJobWindow c && decide (d.sync.win ≠ .open))) (advance c (syV e))
        | none => .done
  | _ => .done

/-- Whether RWAIT or RSIGNAL names a counter outside its window (CAUSE = RANGE, R272). -/
def syOutside (d : Dev) (n : Nat) (e : QEntry) : Bool :=
  (decide (e.op = .rwait) || decide (e.op = .rsignal)) && (syCounter d n e).isNone

/-! ## Descriptors (Table 9.12) -/

/-- A descriptor as its fields. -/
structure Desc where
  kind : Nat
  chain : Bool
  sigt : Nat
  sctx : Nat
  dctx : Nat
  doneBit : Bool
  sigc : Nat
  src : Nat
  dst : Nat
  len : Nat
  rows : Nat
  sstride : Nat
  dstride : Nat
  progress : Nat
  next : Nat
  /-- A reserved bit is nonzero. -/
  reserved : Bool
deriving DecidableEq, Repr

/-- Reads a descriptor from its 64 bytes. -/
def Desc.ofBytes (bs : List Byte) : Desc :=
  let w := numAt bs 0 8
  let l := numAt bs 24 8
  let bit (lo n : Nat) : Nat := w / 2 ^ lo % 2 ^ n
  { kind := bit 0 4, chain := decide (bit 4 1 = 1), sigt := bit 5 2, sctx := bit 8 6, dctx := bit 16 6,
    doneBit := decide (bit 28 1 = 1), sigc := bit 32 16, src := numAt bs 8 8, dst := numAt bs 16 8, len := l % 2 ^ 40,
    rows := l / 2 ^ 40, sstride := numAt bs 32 8, dstride := numAt bs 40 8, progress := numAt bs 48 8,
    next := numAt bs 56 8,
    reserved := decide (bit 7 1 ≠ 0) || decide (bit 14 2 ≠ 0) || decide (bit 22 2 ≠ 0) || decide (bit 29 3 ≠ 0) ||
      decide (bit 48 16 ≠ 0) }

/-- Rows moved: ROWS for STRIDED, else one. -/
def Desc.nRows (x : Desc) : Nat := if x.kind = 1 then x.rows else 1
/-- Strides that act only for STRIDED. -/
def Desc.sStep (x : Desc) : Nat := if x.kind = 1 then x.sstride else 0
def Desc.dStep (x : Desc) : Nat := if x.kind = 1 then x.dstride else 0
/-- Bytes of the whole descriptor. -/
def Desc.total (x : Desc) : Nat := x.len * x.nRows

/-! ## MV (R210, R213) -/

def mvSigt (w : W64) : Nat := bitsAt w 17 2
def mvSigc (w : W64) : Nat := bitsAt w 19 16
def mvLen (w : W64) : Nat := bitsAt w 35 25
/-- The tile-store side, and the other side in its form (Table 8.10). -/
def mvTileSide (e : QEntry) : Nat := aBase (e.av.getD 0 0) + bitsAt e.w1 0 25
def mvOtherStore (e : QEntry) : Nat := aBase (e.av.getD 1 0) + bitsAt e.w1 25 25
def mvMemory (e : QEntry) : Nat := ((e.av.getD 1 0).toNat + bitsAt e.w1 25 39) % 2 ^ 64
def mvRank (e : QEntry) : Nat := bitsAt (e.av.getD 1 0) 48 8

/-- The bytes an MV transfer reads and writes, each as a place (1 memory, 2 + rank a tile store), start and length. -/
def mvReads (e : QEntry) (rank : Nat) : Nat × Nat × Nat :=
  match e.op with
  | .copy => (2 + rank, mvOtherStore e, mvLen e.w0)
  | .get => (1, mvMemory e, mvLen e.w0)
  | _ => (2 + rank, mvTileSide e, mvLen e.w0)
def mvWrites (e : QEntry) (rank : Nat) : Nat × Nat × Nat :=
  match e.op with
  | .put => (1, mvMemory e, mvLen e.w0)
  | .xput => (2 + mvRank e, mvOtherStore e, mvLen e.w0)
  | _ => (2 + rank, mvTileSide e, mvLen e.w0)

/-- Whether two runs of bytes meet. -/
def runsMeet (a b : Nat × Nat × Nat) : Bool :=
  decide (a.1 = b.1) && decide (a.2.1 < b.2.1 + b.2.2) && decide (b.2.1 < a.2.1 + a.2.2)

/-- The runs of bytes that a transfer reads and writes. -/
structure Spans where
  reads : List (Nat × Nat × Nat)
  writes : List (Nat × Nat × Nat)
deriving DecidableEq, Repr

/-- The runs of the chain of descriptors that starts at an offset of a tile's store; the fuel bounds its length. A descriptor is read, and
written back, itself (R257). -/
def descSpans (d : Dev) (n rank : Nat) : Nat → Nat → Spans
  | 0, _ => ⟨[], []⟩
  | fuel + 1, off =>
    let x := Desc.ofBytes (d.bytes (tileByte n off) 64)
    let rest := if x.chain then descSpans d n rank fuel (x.next % 2 ^ 25) else ⟨[], []⟩
    let run (at_ step : Nat) : List (Nat × Nat × Nat) := if x.total = 0 then [] else [(1, at_, (x.nRows - 1) * step + x.len)]
    ⟨(2 + rank, off, 64) :: (if x.kind = 2 then [] else run x.src x.sStep) ++ rest.reads,
      (2 + rank, off, 64) :: run x.dst x.dStep ++ rest.writes⟩

/-- The runs of an MV instruction. -/
def mvSpans (d : Dev) (n : Nat) (e : QEntry) : Spans :=
  let rank := (d.tile n).get TLE_PROG_RANK
  if e.op = .desc then descSpans d n rank 64 (mvOtherStore e) else ⟨[mvReads e rank], [mvWrites e rank]⟩

/-- The runs of the transfers of a tile that are in flight: direct ones, and those of DESC (R214). -/
def inFlight (d : Dev) (n : Nat) : List Spans :=
  (d.tile n).moves.map (fun m => mvSpans d n m.entry) ++
    (d.tile n).descs.map (fun j => descSpans d n ((d.tile n).get TLE_PROG_RANK) 64 j.cur)

/-- Whether a transfer must wait for one in flight: it touches bytes that one writes, or writes bytes that one reads
(R210). -/
def Spans.clash (a b : Spans) : Bool :=
  a.reads.any (fun r => b.writes.any (runsMeet r)) || a.writes.any (fun w => b.writes.any (runsMeet w) || b.reads.any (runsMeet w))

/-- Whether an MV instruction waits for a transfer in flight. -/
def mvWaits (d : Dev) (n : Nat) (e : QEntry) : Bool := (inFlight d n).any (mvSpans d n e).clash

/-- Why no descriptor of a tile stands at an offset of its store (R222, R257): not on a 64-byte boundary, in the code range that its
write-back would reach, or outside the store. -/
def Tile.descCause (t : Tile) (a : Nat) : Option Nat :=
  firstCause [(decide (a % 64 ≠ 0), cALIGN), (t.hitsCode a 64, cCODE), (!inStore a 64, cBANK)]

/-- The checks of an MV instruction at issue (R213, R256, Table 8.9). -/
def mvCheck (d : Dev) (n : Nat) (e : QEntry) : Option Nat :=
  let t := d.tile n
  let len := mvLen e.w0
  let a := mvTileSide e
  let b := mvOtherStore e
  if e.op = .desc then t.descCause b else
    let otherStore := decide (e.op = .copy) || decide (e.op = .xput)
    let sigBad := match mvSigt e.w0 with
      | 1 | 2 => decide (64 ≤ mvSigc e.w0)
      | 3 => (d.winCounter (d.tctx n) (mvSigc e.w0)).isNone
      | _ => false
    let wr := mvWrites e 0
    let hits := match e.op with
      | .copy | .get => t.hitsCode a len
      | .xput => (d.rankTiles n (mvRank e)).any fun m => (d.tile m).hitsCode b len
      | _ => false
    firstCause [
      (decide (262144 < len) || (decide (e.op = .xput) && decide (t.get TLE_PROG_COUNT ≤ mvRank e)) || sigBad, cRANGE),
      (decide (len % 64 ≠ 0) || decide (a % 64 ≠ 0) || decide ((if otherStore then b else mvMemory e) % 64 ≠ 0), cALIGN),
      (hits && decide (wr.2.2 ≠ 0), cCODE),
      (decide (len ≠ 0) && (!inStore a len || (otherStore && !inStore b len)), cBANK)]

/-- The signal of an MV transfer that has ended (R213, R274). -/
def mvSignal (n : Nat) (e : QEntry) : Prog :=
  .look fun d =>
    match mvSigt e.w0 with
    | 1 => modTile n fun t => t.addCounter (mvSigc e.w0) 1
    | 2 => when (!(d.tile n).silentTwin n) (each (d.rankTiles n (mvRank e)) fun m => modTile m fun t => t.addCounter (mvSigc e.w0) 1)
    | 3 => when (!(d.tile n).silentTwin n) <|
        match d.winCounter (d.tctx n) (mvSigc e.w0) with
        | some c => advance c 1
        | none => .done
    | _ => .done

/-! ## CT (R205, R206, R218 to R221, R228) -/

/-- Operand B (Table 8.13). -/
def ctB (t : Tile) (e : QEntry) : W64 :=
  if ctBI e.w0 then (if bitsAt e.w0 8 1 = 1 then e.w1 else ctImm e.w0) else t.sReg (ctRB e.w0)

/-- The ALU functions (Table 8.14, OP 0x38). -/
def aluOp (op : LOp) (a b : W64) : W64 :=
  match op with
  | .ctAdd => a + b
  | .ctSub => a - b
  | .ctMul => a * b
  | .ctAnd => a &&& b
  | .ctOr => a ||| b
  | .ctXor => a ^^^ b
  | .ctShl => a <<< (b.toNat % 64)
  | .ctShr => a >>> (b.toNat % 64)
  | .ctSar => BitVec.sshiftRight a (b.toNat % 64)
  | .ctSlt => if a.slt b then 1 else 0
  | .ctSltu => if a.ult b then 1 else 0
  | .ctMin => if a.slt b then a else b
  | .ctMax => if a.slt b then b else a
  | _ => b

/-- The address functions (Table 8.14, OP 0x39) that write an A register. -/
def addrOp (op : LOp) (a b : W64) : W64 :=
  match op with
  | .addrAdd => a + b
  | .addrBaseAdd => BitVec.ofNat 64 (a.toNat - aBase a + (aBase a + b.toNat) % 2 ^ 25)
  | _ => BitVec.ofNat 64 (a.toNat - aStride a * 2 ^ 32 + b.toNat % 2 ^ 16 * 2 ^ 32)

/-- Whether a conditional branch is taken (Table 8.14, OP 0x3A); LOOP looks at S[RA] less 1 (R218). -/
def taken (t : Tile) (e : QEntry) : Bool :=
  let a := t.sReg (ctRA e.w0)
  let b := ctB t e
  match e.op with
  | .jmp => true
  | .beq => decide (a = b)
  | .bne => decide (a ≠ b)
  | .blt => a.slt b
  | .bge => !a.slt b
  | .bltu => a.ult b
  | .bgeu => !a.ult b
  | .loop => decide (a ≠ 0) && decide (a ≠ 1)
  | .bp => decide (t.pReg (ctRA e.w0) ≠ 0)
  | _ => false

/-- A branch target, if it is legal: a multiple of 8 within the code range (R218). -/
def branchTarget (t : Tile) (e : QEntry) : Option Nat :=
  let x : Int := (e.off : Int) + (ctImm e.w0).toInt
  let lo := t.get TLE_CODE_BASE
  if 0 ≤ x ∧ x % 8 = 0 ∧ (lo : Int) ≤ x ∧ x < (lo + t.get TLE_CODE_LEN : Nat) then some x.toNat else none

/-- A BASE + IMM32 address; none where it is negative (then outside the tile store). -/
def ctAddr (t : Tile) (e : QEntry) : Option Nat :=
  let x : Int := (aBase (t.aReg (ctRA e.w0)) : Int) + (ctImm e.w0).toInt
  if 0 ≤ x then some x.toNat else none

/-- A gang configuration is requested (R159): the passes dispatched before come before the change, and those dispatched after it wait for
it. A request that no pass was dispatched after gives way to the next. -/
def Tile.requestGang (t : Tile) (g : Nat) : Tile :=
  let k := t.gangs.length
  let gs := if decide (k ≠ 0) && !(t.mx.any fun f => decide (f.op = .pass) && decide (f.ahead = k)) then t.gangs.dropLast ++ [g]
    else t.gangs ++ [g]
  { t.set TLE_MXCFG_GANG g with gangs := if gs = [t.get TLE_MXCFG_ACTIVE] then [] else gs }

/-- What the front end makes of a CT instruction. -/
inductive CtOut where
  /-- It completes, with the tile it leaves and the next offset. -/
  | ok (t : Tile) (pc : Nat)
  /-- It completes with a write of the tile store beside it. -/
  | store (t : Tile) (pc : Nat) (off : Nat) (bs : List Byte)
  /-- It waits at the front end. -/
  | hold
  | fault (cause : Nat)
deriving DecidableEq, Repr

/-- CT instructions other than END, BRK and STEP (Table 8.14). -/
def ctRun (d : Dev) (n : Nat) (e : QEntry) : CtOut :=
  let t := d.tile n
  let w := e.w0
  let next := e.off + e.bytes
  let base := tileByte n 0
  match e.op with
  | .ctAdd | .ctSub | .ctMul | .ctAnd | .ctOr | .ctXor | .ctShl | .ctShr | .ctSar | .ctSlt | .ctSltu | .ctMin | .ctMax
  | .ctMov => .ok (t.setS (ctRD w) (aluOp e.op (t.sReg (ctRA w)) (ctB t e))) next
  | .addrFromS => .ok (t.setA (ctRD w) (t.sReg (ctRA w))) next
  | .addrToS => .ok (t.setS (ctRD w) (t.aReg (ctRA w))) next
  | .addrAdd | .addrBaseAdd | .addrStrideSet => .ok (t.setA (ctRD w) (addrOp e.op (t.aReg (ctRA w)) (ctB t e))) next
  | .jmp | .beq | .bne | .blt | .bge | .bltu | .bgeu | .bp | .loop =>
    if (pRegs e.op w).any t.pendingP then .hold
    else if taken t e then
      (match branchTarget t e with
        | some pc => .ok (if e.op = .loop then t.setS (ctRA w) (t.sReg (ctRA w) - 1) else t) pc
        | none => .fault cRANGE)
    else if e.op = .loop ∧ t.sReg (ctRA w) ≠ 0 then .ok (t.setS (ctRA w) (t.sReg (ctRA w) - 1)) next
    else .ok t next
  | .pset | .pget | .pand | .por | .pxor | .pnot =>
    if (pRegs e.op w).any t.pendingP then .hold
    else
      (match e.op with
        | .pset => .ok (t.setP (ctRD w) (t.sReg (ctRA w))) next
        | .pget => .ok (t.setS (ctRD w) (t.pReg (ctRA w))) next
        | .pand => .ok (t.setP (ctRD w) (t.pReg (ctRA w) &&& t.pReg (ctRB w))) next
        | .por => .ok (t.setP (ctRD w) (t.pReg (ctRA w) ||| t.pReg (ctRB w))) next
        | .pxor => .ok (t.setP (ctRD w) (t.pReg (ctRA w) ^^^ t.pReg (ctRB w))) next
        | _ => .ok (t.setP (ctRD w) (~~~(t.pReg (ctRA w)))) next)
  | .ctLd =>
    (match ctAddr t e with
      | some a =>
        if a % 8 ≠ 0 then .fault cALIGN
        else if !inStore a 8 then .fault cBANK
        else .ok (t.setS (ctRD w) (BitVec.ofNat 64 (d.mem64 (base + a) 8))) next
      | none => .fault cBANK)
  | .ctSt =>
    (match ctAddr t e with
      | some a =>
        if a % 8 ≠ 0 then .fault cALIGN
        else if t.hitsCode a 8 then .fault cCODE
        else if !inStore a 8 then .fault cBANK
        else .store t next a (leBytes 8 (t.sReg (ctRB w)).toNat)
      | none => .fault cBANK)
  | .nop => .ok t next
  | .cget => .ok (t.setS (ctRD w) (t.counter ((ctImm w).toNat % 64))) next
  | .phxld | .phxst =>
    if t.vx.any (fun f => decide (f.op.cls = .vx)) then .hold
    else
      (match ctAddr t e with
        | some a =>
          let k := ctRD w % 8
          if a % 32 ≠ 0 then .fault cALIGN
          else if e.op = .phxst ∧ t.hitsCode a 32 then .fault cCODE
          else if !inStore a 32 then .fault cBANK
          else if e.op = .phxld then
            .ok (((t.set (TLE_PHX_KEY_KEY k) (d.mem64 (base + a) 8)).set (TLE_PHX_CTR_LO_CTR k) (d.mem64 (base + a + 16) 8)).set
              (TLE_PHX_CTR_HI_CTR k) (d.mem64 (base + a + 24) 8)) next
          else .store t next a (leBytes 8 (t.get (TLE_PHX_KEY_KEY k)) ++ d.bytes (base + a + 8) 8 ++
            leBytes 8 (t.get (TLE_PHX_CTR_LO_CTR k)) ++ leBytes 8 (t.get (TLE_PHX_CTR_HI_CTR k)))
        | none => .fault cBANK)
  | .gang =>
    .ok (t.requestGang ((ctImm w).toNat % 4)) next
  | .ctTime => .ok (t.setS (ctRD w) (BitVec.ofNat 64 d.podTime)) next
  | .flags => if t.vx.isEmpty ∧ t.rd.isEmpty then .ok ((t.setS (ctRD w) t.vxFlags).clearFlags) next else .hold
  | .rank => .ok (t.setS (ctRD w) (BitVec.ofNat 64 (t.get TLE_PROG_RANK + 256 * t.get TLE_PROG_COUNT))) next
  | _ => .ok t next

/-! ## Issue -/

/-- The front end has finished with its instruction: the next is at `pc`. -/
def Tile.toNext (t : Tile) (pc : Nat) : Tile := { t.set TLE_PC_PC pc with front := none }

/-- The instruction that the front end holds, with the values its registers have now (R209). -/
def Tile.frontEntry (t : Tile) : Option QEntry := t.front.map fun e => { capture t e.op e.w0 e.w1 e.off with mark := e.mark }

/-- One step of the front end, if it can make one: an instruction it holds executes, or enters its queue. -/
def frontStep (d : Dev) (n : Nat) : Option Prog :=
  let t := d.tile n
  match t.frontEntry with
  | none => none
  | some e =>
    let next := e.off + e.bytes
    let fault (c : Nat) (q : LClass) : Prog := .seq (modTile n fun t => { t with front := none }) (exception n c q e.off)
    match e.op.cls with
    | .ct =>
      (match e.op with
        | .endProg => some (modTile n fun t => { t.toNext next with ending := true })
        | .brk => some (.seq (modTile n fun t => t.toNext next) (exception n cBRK .ct e.off))
        | .step =>
          if !t.allDone then none
          else if t.silentTwin n then some (modTile n fun t => t.toNext next)
          else
            let img := aBase (t.aReg (ctRB e.w0))
            if !inStore img 8320 then some (fault cBANK .ct)
            else if t.on TLE_STAT_PAIRED ∧ d.bytes (tileByte n img) 8320 ≠ d.bytes (tileByte (twinOf n) img) 8320 then some (pairFails n)
            else if t.owner = oJOB then
              some (jobStep (t.sReg (ctRA e.w0)) (d.bytes (tileByte n img) 8320) fun okay =>
                if okay then modTile n fun t => t.toNext next else fault cSTEP .ct)
            else some (modTile n fun t => t.toNext next)
        | _ =>
          match ctRun d n e with
          | .ok u pc => some (.act (.tile n (u.toNext pc)))
          | .store u pc off bs => some (.seq (.act (.tile n (u.toNext pc))) (.act (.mem (tileByte n off) bs)))
          | .hold => none
          | .fault c => some (fault c .ct))
    | .sy =>
      if bitsAt e.w0 9 1 = 1 then
        if syOutside d n e then some (fault cRANGE .sy)
        else if syReady d n e t.allDone then some (.seq (syEffect n e) (modTile n fun t => t.toNext next))
        else if (e.op = .wait ∨ e.op = .rwait) ∧ !e.mark then some (modTile n fun t => { t with front := some { op := e.op, w0 := e.w0, w1 := e.w1, off := e.off, mark := true } })
        else none
      else
        let q : LClass := match bitsAt e.w0 6 2 with | 0 => .mx | 1 => .vx | 2 => .rd | _ => .mv
        if 64 ≤ (t.queue q).length then none
        else some (modTile n fun t => (t.setQueue q (t.queue q ++ [capture t e.op e.w0 e.w1 e.off])).toNext next)
    | q =>
      if 64 ≤ (t.queue q).length ∨ (pRegs e.op e.w0).any t.pendingP then none
      else some (modTile n fun t => (t.setQueue q (t.queue q ++ [capture t e.op e.w0 e.w1 e.off])).toNext next)

/-- One step of a queue's head, if it can make one. DESIGN CHOICE (notes/assumptions/214): SIGT, SIGC and LEN of a DESC word act on nothing,
its descriptor's own signal and length do. -/
def queueStep (d : Dev) (n : Nat) (q : LClass) : Option Prog :=
  let t := d.tile n
  let base := tileByte n 0
  match t.queue q with
  | [] => none
  | e :: rest =>
    let pop : Prog := modTile n fun t => t.pop q
    let fault (c : Nat) (k : LClass) : Prog := exception n c k e.off
    match e.op.cls with
    | .sy =>
      if syOutside d n e then some (fault cRANGE .sy)
      else if syReady d n e (t.queueDone q) then some (.seq pop (syEffect n e))
      else if (e.op = .wait ∨ e.op = .rwait) ∧ !e.mark then some (modTile n fun t => t.setQueue q ({ e with mark := true } :: rest))
      else none
    | .mx =>
      if e.ahead ≠ 0 then none
      else match passCheck t e with
        | some c => some (fault c .mx)
        | none =>
          if t.passes.any (fun p => decide (mxGang p.w0 = mxGang e.w0)) then none
          else
            let accs := gangAccs (t.get TLE_MXCFG_ACTIVE) (mxGang e.w0)
            let mine := d.sampledTile n
            some (.seq
              (modTile n fun t => { t.pop q with passes := t.passes ++
                [{ e with sample := if mine then some ((d.agent localAgent).step, d.wit.mxNext) else none }] })
              (when mine (countTiles (accs.length * passSpans e))))
    | .vx =>
      (match vxCheck t e with
        | some c => some (fault c .vx)
        | none =>
          if (accsOf e).any (fun a => decide (a ∈ t.busyAccs)) then none
          else
            let count : Prog := modTile n fun t => (t.pop q).bump TLE_VXCOUNT_INSTR
            if e.op = .vxSt then
              some (all [each (vxStoreRuns d base t e) fun r => .act (.mem (base + r.1) r.2), count])
            else if e.op = .vxLd then some (.seq (modTile n fun t => vxLoad d base t e) count)
            else some (.seq (withFrees (64 * vxNr e.w0) fun fv => modTile n fun t => vxRun t e fv) count))
    | .rd =>
      (match rdCheck t e with
        | some c => some (fault c .rd)
        | none =>
          if (accsOf e).any (fun a => decide (a ∈ t.busyAccs)) then none
          else
            let slice := rdSlice d base t e
            let write : Prog := if rdDst e.w0 = 0x3F then .act (.mem (base + aBase (e.av.getD 1 0)) (rdBytes e slice))
              else modTile n fun t => rdToBuffer t e slice
            some (.seq (.seq (formSliceRecord n e slice) write) (modTile n fun t => ((t.pop q).addFlags (rdFlags slice)).bump TLE_RDCOUNT_SLICES)))
    | .mv =>
      (match mvCheck d n e with
        | some c => some (fault c .mv)
        | none =>
          if e.op = .desc then
            if t.silentTwin n then some pop
            else if 16 ≤ t.descs.length ∨ mvWaits d n e then none
            else some (modTile n fun t => { t.pop q with descs := t.descs ++ [{ first := mvOtherStore e, off := e.off, cur := mvOtherStore e }] })
          else if mvLen e.w0 = 0 then some (.seq pop (mvSignal n e))
          else if 4 ≤ t.moves.length ∨ mvWaits d n e then none
          else some (modTile n fun t => { t.pop q with moves := t.moves ++ [{ entry := e }] }))
    | .ct => some pop

/-- Whether a tile may dispatch and issue: RUNNING, with no stop pending and no exception recorded (R180, R223). -/
def Tile.issuing (t : Tile) : Bool := decide (t.state = tRUNNING) && !t.on TLE_CTRL_STOP && !t.faulting

/-- The first step that the front end or a queue can make. -/
def tileStep (d : Dev) (n : Nat) : Option Prog :=
  if (d.tile n).issuing then
    (frontStep d n <|> queueStep d n .mx <|> queueStep d n .vx <|> queueStep d n .rd <|> queueStep d n .mv)
  else none

/-- Runs the front ends and the queues of tiles, step by step together, until nothing more can go; `fuel` bounds the steps. -/
def runTiles (ns : List Nat) : Nat → Prog
  | 0 => each ns settle
  | fuel + 1 => .look fun d =>
      if ns.all fun n => (tileStep d n).isNone then each ns settle
      else .seq (each ns fun n => .look fun d => (tileStep d n).getD .done) (runTiles ns fuel)

/-- Enough for every queued instruction to be marked, to issue and to be checked once. The twins of a pair run in lockstep (R148). -/
def tilePump (n : Nat) : Prog := .look fun d => runTiles (d.lockstep n) 1024

/-! ## A Lathe instruction -/

/-- Whether a tile can take its next instruction at the front end. -/
def Tile.fetching (t : Tile) : Bool := t.issuing && !t.ending && t.front.isNone

/-- A tile fetches the instruction whose words stand at TLE_PC (R207 to R209): within the code range, checked, and held at the front end. A
word that names another operation is not this instruction, and nothing happens. DESIGN CHOICE (notes/assumptions/211): a word with a
reserved opcode or function in a class that Table 8.2 decodes reports that class, and CT where it decodes none. DESIGN CHOICE
(notes/assumptions/212): a word, or the second word of an instruction, outside the code range is RANGE, with QUEUE = CT. -/
def fetch (op : LOp) (n : Nat) (w0 w1 : W64) : Prog :=
  .look fun d =>
    let t := d.tile n
    let pc := t.get TLE_PC_PC
    let lo := t.get TLE_CODE_BASE
    let size := if bitsAt w0 8 1 = 1 then 16 else 8
    if !t.fetching then .done
    else if pc < lo ∨ lo + t.get TLE_CODE_LEN < pc + size then exception n cRANGE .ct pc
    else match latheOp w0 with
      | none => exception n cILLEGAL ((wordClass w0).getD .ct) pc
      | some o =>
        if o ≠ op then .done
        else if illegal op w0 w1 (t.get TLE_PROG_RANK) then exception n cILLEGAL op.cls pc
        else modTile n fun t => { t with front := some { op := op, w0 := w0, w1 := w1, off := pc } }

/-- An instruction of a tile, or of both twins of a pair: fetched, dispatched and issued as far as it can go. -/
def lathe (op : LOp) (n : Nat) (w0 w1 : W64) : Prog :=
  .look fun d => when (d.tile n).fetching (.seq (each (d.lockstep n) fun i => fetch op i w0 w1) (tilePump n))

end Sys2Proof.Machine
end

