-- ==== Sys2Proof/Machine/Transfers.lean ====
section
/-! DEFINITION. Transfers: direct MV transfers, DMA descriptors and their fragments, and the MMU's faults (R213 to R215,
R246 to R263). -/

namespace Sys2Proof.Machine

/-! ## Pieces of a run of bytes -/

/-- Splits `len` bytes from an address at 4 KiB boundaries: the offset and length of each piece. -/
def piecesFrom : Nat → Nat → Nat → Nat → List (Nat × Nat)
  | 0, _, _, _ => []
  | fuel + 1, va, off, len =>
    if len ≤ off then []
    else
      let n := min (len - off) (4096 - (va + off) % 4096)
      (off, n) :: piecesFrom fuel va (off + n) len

/-- The pieces of `[va + from, va + len)`. -/
def pieces (va fro len : Nat) : List (Nat × Nat) := piecesFrom ((len - fro) / 4096 + 2) va fro len

/-- A physical write, which for a tile's slot has no check word. -/
def moveBytes (pa : Nat) (bs : List Byte) : Prog := writePhys pa bs

/-! ## Direct MV transfers -/

/-- The first piece of a transfer's memory side that cannot be served: its offset, and the fault cause, or none for a
block whose check word does not agree (R138). -/
def moveBad (d : Dev) (n : Nat) (e : QEntry) : Option (Nat × Option Nat) :=
  if e.op = .get ∨ e.op = .put then
    ((pieces (mvMemory e) e.prog (mvLen e.w0)).findSome? fun p =>
      match d.translate (d.tctx n) ((mvMemory e + p.1) % 2 ^ 64) (decide (e.op = .put)) true with
      | .fault c => some (p.1, some c)
      | .ok pa _ => if e.op = .get ∧ !(d.blockOk pa) then some (p.1, none) else none)
  else none

/-- Delivers the bytes `[fro, to)` of a direct transfer. -/
def deliverMove (n : Nat) (e : QEntry) (fro upto : Nat) : Prog :=
  .look fun d =>
    let a := mvTileSide e
    match e.op with
    | .copy => .act (.mem (tileByte n (a + fro)) (d.bytes (tileByte n (mvOtherStore e + fro)) (upto - fro)))
    | .xput => each (d.rankTiles n (mvRank e)) fun m =>
        .act (.mem (tileByte m (mvOtherStore e + fro)) (d.bytes (tileByte n (a + fro)) (upto - fro)))
    | _ =>
      each (pieces (mvMemory e) fro upto) fun p =>
        .look fun d =>
          match d.translate (d.tctx n) ((mvMemory e + p.1) % 2 ^ 64) (decide (e.op = .put)) true with
          | .fault _ => .done
          | .ok pa leaf =>
            .seq (touchLeaf leaf (decide (e.op = .put))) <|
              if e.op = .get then .act (.mem (tileByte n (a + p.1)) (d.physBytes pa p.2))
              else writePhys pa (d.bytes (tileByte n (a + p.1)) p.2)

/-- Bytes of a direct transfer to or from memory are counted in its tile's class. -/
def tallyMove (n : Nat) (e : QEntry) (k : Nat) : Prog :=
  .look fun d => when (decide (e.op = .get) || decide (e.op = .put)) (tallyClass (d.moveClass n) k)

/-- Whether the twin of a paired tile would move other bytes out of its store (R148). -/
def pairDiffers (d : Dev) (n : Nat) (e : QEntry) : Bool :=
  (d.tile n).on TLE_STAT_PAIRED && (decide (e.op = .put) || decide (e.op = .xput)) &&
  (let r := mvReads e 0
   decide (d.bytes (tileByte n r.2.1) r.2.2 ≠ d.bytes (tileByte (twinOf n) r.2.1) r.2.2))

/-- The index of a tile's transfer that ends leaves the list. -/
def Tile.dropMove (t : Tile) (k : Nat) : Tile := { t with moves := t.moves.eraseIdx k }

/-- Faults of later transfers keep naming them after an earlier one has left the list. -/
def shiftFaults (n k : Nat) : Prog :=
  modMmu fun m => { m with faults := m.faults.map fun f =>
    match f.req with
    | .move t i => if t = n ∧ k < i then { f with req := .move t (i - 1) } else f
    | _ => f }

/-- A direct transfer of one tile completes as far as it can (R213): all its bytes and checks are written, then its own signal; or a
block fails its check and the tile stops with CAUSE = CHECK, progress recorded. A transfer whose translation fails waits
for the MMU (R252). -/
def endMove (n k : Nat) : Prog :=
  .look fun d =>
    match (d.tile n).moves[k]? with
    | none => .done
    | some m =>
      let e := m.entry
      if m.held then .done
      else if pairDiffers d n e then when (!(d.tile n).silentTwin n) (pairFails n)
      else match moveBad d n e with
        | some (_, some _) => .done
        | some (off, none) =>
          all [deliverMove n e e.prog off, tallyMove n e (off - e.prog),
            modTile n fun t => { t.dropMove k with mv := { e with prog := off } :: t.mv },
            shiftFaults n k, integrityOwn 2, exception n cCHECK .mv e.off]
        | none =>
          let silent := (d.tile n).silentTwin n && (decide (e.op = .put) || decide (e.op = .xput))
          all [when (!silent) (.seq (deliverMove n e e.prog (mvLen e.w0)) (tallyMove n e (mvLen e.w0 - e.prog))), modTile n fun t => t.dropMove k, shiftFaults n k,
            mvSignal n e]

/-- Direct transfer `k` of a tile, or of both twins of a pair (R148), completes, and the queues go on. -/
def finishMove (n k : Nat) : Prog :=
  .look fun d => all [each (d.lockstep n) fun i => endMove i k, each (d.lockstep n) settle, tilePump n]

/-- A direct transfer is answered with a status that is not OK: RETRY reissues it, any other stops the tile with CAUSE =
MEMORY (R215). -/
def answerMove (n k st : Nat) : Prog :=
  .look fun d =>
    match (d.tile n).moves[k]? with
    | none => .done
    | some m =>
      if st = stRETRY then
        modTile n fun t => { t with moves := t.moves.modify k fun m => { m with held := false } }
      else
        all [modTile n fun t => { t.dropMove k with mv := m.entry :: t.mv }, shiftFaults n k,
          exception n cMEMORY .mv m.entry.off]

/-! ## Descriptors in service -/

/-- Where a requester's current descriptor stands in the model's memory. -/
def Dev.descAt (d : Dev) : Requester → Nat
  | .chan n => (d.chan n).cur
  | .desc n k => tileByte n (((d.tile n).descs[k]?).map (·.cur) |>.getD 0)
  | .move _ _ => 0

/-- Where the descriptor that heads its chain stands. -/
def Dev.descHead (d : Dev) : Requester → Nat
  | .chan n => (d.chan n).entry
  | .desc n k => tileByte n (((d.tile n).descs[k]?).map (·.first) |>.getD 0)
  | .move _ _ => 0

/-- The bytes of a requester's current descriptor. -/
def Dev.desc (d : Dev) (r : Requester) : Desc := Desc.ofBytes (d.bytes (d.descAt r) 64)

/-- The byte of a twin's store that stands for a byte of a paired tile's store (R148). -/
def Dev.twinPlace (d : Dev) (r : Requester) (pa : Nat) : Option Nat :=
  match r, d.phys pa with
  | .desc n _, .tile m => if (d.tile n).on TLE_STAT_PAIRED ∧ m / 2 = n / 2 then some (tileByte (twinOf m) (pa - tileByte m 0)) else none
  | _, _ => none

/-- A requester's write, made in both stores of a pair where it reaches one of them (R148). -/
def writeFor (r : Requester) (pa : Nat) (bs : List Byte) : Prog :=
  .look fun d => .seq (writePhys pa bs) (match d.twinPlace r pa with | some q => writePhys q bs | none => .done)

/-- Writes part of a requester's current descriptor back (R257). -/
def writeBack (r : Requester) (off n v : Nat) : Prog := .look fun d => writeFor r (d.descAt r + off) (leBytes n v)

/-- STATUS and DONE of a descriptor (bytes 3 of its first word hold bits 31:24). -/
def writeStatus (r : Requester) (st : Nat) (fin : Bool) : Prog := writeBack r 3 1 (st + if fin then 16 else 0)

/-- Marks a requester's held or started state. -/
def setHeld (r : Requester) (h : Bool) : Prog :=
  match r with
  | .chan n => modChan n fun c => { c with held := h }
  | .desc n k => modTile n fun t => { t with descs := t.descs.modify k fun j => { j with held := h } }
  | .move n k => modTile n fun t => { t with moves := t.moves.modify k fun m => { m with held := h } }
def setStarted (r : Requester) (b : Bool) : Prog :=
  match r with
  | .chan n => .seq (modChan n fun c => { c with started := b }) (put (DMA_STAT_BUSY n) b.toNat)
  | .desc n k => modTile n fun t => { t with descs := t.descs.modify k fun j => { j with started := b } }
  | .move _ _ => .done

/-- Faults of later DESC transfers keep naming them after an earlier one has left the list. -/
def shiftDescFaults (n k : Nat) : Prog :=
  modMmu fun m => { m with faults := m.faults.map fun f =>
    match f.req with
    | .desc t i => if t = n ∧ k < i then { f with req := .desc t (i - 1) } else f
    | _ => f }

/-- Entries of a channel's ring (Table 9.21). -/
def Dev.ringSize (d : Dev) (n : Nat) : Nat := 16 * 2 ^ min 11 (d.get (DMA_CTRL_RSIZE n))
/-- A ring entry's physical address. -/
def Dev.ringEntry (d : Dev) (n i : Nat) : Nat := d.get (DMA_RING_BASE n) * 64 + 64 * i

/-- The context in whose window a transfer's signal lies: the owner's for a DESC transfer, the ring's for a channel. -/
def Dev.sigCtx (d : Dev) : Requester → Nat
  | .desc n _ => d.tctx n
  | _ => 0

/-- The signal that a transfer carries, from the descriptor that heads its chain (R257, R260). -/
def descSignal (r : Requester) : Prog :=
  .look fun d =>
    let h := Desc.ofBytes (d.bytes (d.descHead r) 64)
    match h.sigt with
    | 1 => (match r with
      | .desc n _ => each (d.lockstep n) fun i => modTile i fun t => t.addCounter (h.sigc % 64) 1
      | _ => .done)
    | 3 => (match d.winCounter (d.sigCtx r) h.sigc with
      | some c => advance c 1
      | none => .done)
    | _ => .done

/-- A transfer ends with OK: its signal, then for a channel the counts and the next ring entry, for a tile one DESC fewer
in flight. -/
def transferOk (r : Requester) : Prog :=
  .seq (descSignal r) <|
    match r with
    | .chan n => .look fun d => all [
        put (DMA_STAT_LAST n) stOK, bump (DMA_STAT_DONE n), setStarted r false,
        put (DMA_PTR_HEAD n) ((d.get (DMA_PTR_HEAD n) + 1) % d.ringSize n), send .cc Kind.dmaDone [n, stOK]]
    | .desc n k => all [modTile n fun t => { t with descs := t.descs.eraseIdx k }, shiftDescFaults n k,
        .look fun d => each (d.lockstep n) settle, tilePump n]
    | .move _ _ => .done

/-- A DESC transfer stops its tile, or both twins of a pair, with an exception (R222, R223): it stays in flight, to begin again from its
progress when the tile resumes. -/
def descException (n k cause : Nat) : Prog :=
  .look fun d =>
    let off := ((d.tile n).descs[k]?).map (·.off) |>.getD 0
    .seq (modTile n fun t => { t with descs := t.descs.modify k fun j => { j with started := false, held := false } })
      (each (d.lockstep n) fun i => exception i cause .mv off)

/-- A channel stops at the failing entry; a tile stops with CAUSE = MEMORY (R261, R215). -/
def transferStops (r : Requester) (st : Nat) : Prog :=
  match r with
  | .chan n => all [
      put (DMA_STAT_LAST n) st, bump (DMA_STAT_ERRS n), setStarted r false, modChan n (fun c => { c with held := false }),
      put (DMA_CTRL_EN n) 0, send .cc Kind.dmaDone [n, st]]
  | .desc n k => descException n k cMEMORY
  | .move _ _ => .done

/-- A transfer ends with another status (R261): STATUS is written, and the requester stops. -/
def transferBad (r : Requester) (st : Nat) : Prog := .seq (writeStatus r st false) (transferStops r st)

/-- The current descriptor ends with OK: STATUS and DONE, then the next of its chain, or the transfer's end. -/
def descriptorOk (r : Requester) : Prog :=
  .look fun d =>
    let x := d.desc r
    .seq (writeStatus r stOK true) <|
      if x.chain then
        (match r with
          | .chan n => modChan n fun c => { c with cur := x.next % 2 ^ 52, started := false }
          | .desc n k => modTile n fun t => { t with descs := t.descs.modify k fun j => { j with cur := x.next % 2 ^ 25, started := false } }
          | .move _ _ => .done)
      else transferOk r

/-- Whether two extents of a descriptor overlap (R258). -/
def Desc.overlaps (x : Desc) : Bool :=
  decide (x.kind ≠ 2) && decide (x.sctx = x.dctx) && decide (0 < x.total) &&
  (let se := x.src + (x.nRows - 1) * x.sStep + x.len
   let de := x.dst + (x.nRows - 1) * x.dStep + x.len
   decide (x.src < de) && decide (x.dst < se))

/-- The checks of R258, in the order of R13, with R272's for the counter. -/
def descCheck (d : Dev) (r : Requester) (x : Desc) : Option Nat :=
  let isTile := match r with | .desc _ _ => true | _ => false
  let owner := match r with | .desc n _ => d.tctx n | _ => 0
  firstCause [
    (isTile && (decide (x.dctx ≠ owner) || decide (x.sctx ≠ owner)), stAUTH),
    (decide (2 < x.kind) || decide (x.sigt = 2) || (decide (x.sigt = 1) && !isTile), stUNSUPPORTED),
    (decide (x.len % 64 ≠ 0) || decide (x.sstride % 64 ≠ 0) || decide (x.dstride % 64 ≠ 0), stLENGTH),
    ((decide (x.kind ≠ 2) && decide (x.src % 64 ≠ 0)) || decide (x.dst % 64 ≠ 0) || x.reserved || x.overlaps ||
      (decide (x.sigt = 1) && decide (64 ≤ x.sigc)) || (decide (x.sigt = 3) && (d.winCounter (d.sigCtx r) x.sigc).isNone), stFAULT)]

/-- Whether the twins of a pair hold other bytes for a requester to move out: of its descriptor, or of source bytes in their stores
(R148). -/
def twinsDiffer (d : Dev) (r : Requester) (runs : List (Nat × Nat)) : Bool :=
  runs.any fun x => (d.twinPlace r x.1).any fun q => decide (d.bytes q x.2 ≠ d.bytes x.1 x.2)

/-- The twins of the pair that a requester serves stop (R148). -/
def requesterPairFails (r : Requester) : Prog := match r with | .desc n _ => pairFails n | _ => .done

/-- A channel skips its ring entry, or what is left of its chain from a descriptor with DONE = 1 on (R257, R261). -/
def skipEntry (n : Nat) : Prog :=
  .look fun d => .seq (setStarted (.chan n) false) (put (DMA_PTR_HEAD n) ((d.get (DMA_PTR_HEAD n) + 1) % d.ringSize n))

/-- Why the current descriptor of a DESC cannot stand where its chain leads: the cause of the tile's exception. -/
def Dev.descCause (d : Dev) : Requester → Option Nat
  | .desc n k => (d.tile n).descCause (((d.tile n).descs[k]?).map (·.cur) |>.getD 0)
  | _ => none

/-- Takes a descriptor that stands ready: a channel skips it when DONE; it is refused, completed at once when nothing is left to move, or
begun (R257 to R260). One of a channel at an address that is not populated ends with FAULT (R233). DESIGN CHOICE (notes/assumptions/217):
so does one that NEXT places off a 64-byte boundary. -/
def beginDescriptor (r : Requester) : Prog :=
  .look fun d =>
    let x := d.desc r
    match r, d.descCause r with
    | .desc n k, some c => descException n k c
    | _, _ =>
      if !(d.physOk (d.descAt r)) ∨ d.descAt r % 64 ≠ 0 then transferStops r stFAULT
      else if twinsDiffer d r [(d.descAt r, 64)] then requesterPairFails r
      else match r, x.doneBit with
        | .chan n, true => skipEntry n
        | _, _ => match descCheck d r x with
          | some st => transferBad r st
          | none => if x.total ≤ x.progress then descriptorOk r else setStarted r true

/-- The next fragment of a descriptor (R260): source address, destination address, length. -/
def Desc.fragment (x : Desc) : Nat × Nat × Nat :=
  let row := x.progress / x.len
  let col := x.progress % x.len
  let da := (x.dst + row * x.dStep + col) % 2 ^ 64
  ((x.src + row * x.sStep + col) % 2 ^ 64, da, min (x.len - col) (4096 - da % 4096))

/-- The source pieces of a fragment: it may cross a 4 KiB boundary of the source. -/
def srcPieces (x : Desc) : List (Nat × Nat) := if x.kind = 2 then [] else pieces x.fragment.1 0 x.fragment.2.2

/-- Whether a write into a tile's slot is accepted (R234); a transfer that the tile itself issued is. -/
def slotOk (d : Dev) (r : Requester) (pa : Nat) : Bool :=
  match d.phys pa with
  | .tile m =>
    let st := (d.tile m).state
    decide (st = tIDLE) || decide (st = tSTOPPED) || decide (st = tFAULTED) ||
      (match r with | .desc n _ => decide (n = m) | _ => false)
  | _ => true

/-- The first access of the next fragment that fails: address, whether a write, context, cause. -/
def fragFault (d : Dev) (x : Desc) : Option (Nat × Bool × Nat × Nat) :=
  let f := x.fragment
  match (srcPieces x).findSome? (fun p =>
      match d.translate x.sctx ((f.1 + p.1) % 2 ^ 64) false false with
      | .fault c => some ((f.1 + p.1) % 2 ^ 64, false, x.sctx, c)
      | .ok _ _ => none) with
  | some b => some b
  | none => match d.translate x.dctx f.2.1 true false with
    | .fault c => some (f.2.1, true, x.dctx, c)
    | .ok _ _ => none

/-- The bytes of the next fragment, and whether every source block agrees with its check. -/
def fragBytes (d : Dev) (x : Desc) : List Byte × Bool :=
  if x.kind = 2 then (List.replicate x.fragment.2.2 0, true)
  else
    let ps := (srcPieces x).map fun p =>
      match d.translate x.sctx ((x.fragment.1 + p.1) % 2 ^ 64) false false with
      | .ok pa _ => (d.physBytes pa p.2, d.blockOk pa)
      | .fault _ => ([], true)
    ((ps.map (·.1)).flatten, ps.all (·.2))

/-- The leaves that a fragment's reads touch (R249). -/
def touchSource (x : Desc) : Prog :=
  each (srcPieces x) fun p => .look fun d =>
    match d.translate x.sctx ((x.fragment.1 + p.1) % 2 ^ 64) false false with
    | .ok _ leaf => touchLeaf leaf false
    | .fault _ => .done

/-- The runs of physical bytes that the next fragment reads. -/
def fragRuns (d : Dev) (x : Desc) : List (Nat × Nat) :=
  (srcPieces x).filterMap fun p => match d.translate x.sctx ((x.fragment.1 + p.1) % 2 ^ 64) false false with
    | .ok pa _ => some (pa, p.2)
    | .fault _ => none

/-- Whether a fragment writes the code range of the tile whose DESC it belongs to (CAUSE = CODE, R222). -/
def fragHitsCode (d : Dev) (r : Requester) (pa len : Nat) : Bool :=
  match r, d.phys pa with
  | .desc n _, .tile m => decide (m = n) && (d.tile n).hitsCode (pa - tileByte n 0) len
  | _, _ => false

/-- The tile's transfer stops with CAUSE = CODE. -/
def codeHit (r : Requester) : Prog := match r with | .desc n k => descException n k cCODE | _ => .done

/-- Bytes that a descriptor delivers. -/
def tallyFragment (r : Requester) (k : Nat) : Prog :=
  .look fun d => .seq (tallyClass (d.classOf r) k) (match r with | .chan n => tally (1120 + 2 * n) k | _ => .done)

/-- One fragment and its block check are written, PROGRESS advances, and after the last fragment the descriptor ends
(R260). A source block that fails its check ends the transfer with FAULT (R138, Table 9.11); a write that R234 refuses
ends it with BUSY. -/
def doFragment (r : Requester) : Prog :=
  .look fun d =>
    let x := d.desc r
    match fragFault d x with
    | some _ => .done
    | none =>
      match d.translate x.dctx x.fragment.2.1 true false with
      | .fault _ => .done
      | .ok pa leaf =>
        let b := fragBytes d x
        if !b.2 then .seq (integrityOwn 2) (transferBad r stFAULT)
        else if !slotOk d r pa then transferBad r stBUSY
        else if fragHitsCode d r pa x.fragment.2.2 then codeHit r
        else if twinsDiffer d r (fragRuns d x) then requesterPairFails r
        else all [
          touchSource x, touchLeaf leaf true, writeFor r pa b.1, tallyFragment r b.1.length,
          writeBack r 48 8 (x.progress + x.fragment.2.2),
          when (decide (x.total ≤ x.progress + x.fragment.2.2)) (descriptorOk r)]

/-! ## The fault queue (R252, R253) -/

/-- Records of the fault ring (Table 9.18). -/
def Dev.fqSize (d : Dev) : Nat := 64 * 2 ^ min 10 (d.get MMU_FQ_SIZE)
/-- Whether the ring has no free record. -/
def Dev.fqFull (d : Dev) : Bool := decide ((d.get MMU_FQ_PTR_HEAD + 1) % d.fqSize = d.get MMU_FQ_PTR_TAIL % d.fqSize)

/-- The answer to a final or aborted fault (Table 9.9). -/
def faultAnswer (c : Nat) : Nat := if c = fTRANSIT then stRETRY else stFAULT

/-- The 32 bytes of a fault record (Table 9.10). -/
def FaultNote.bytes (x : FaultNote) (index : Nat) : List Byte :=
  pack [(8, x.time), (8, x.va), (1, x.cause), (1, x.flags), (2, x.num), (1, x.ctx), (1, x.cls), (2, 0), (4, index), (4, 0)]

/-- Writes a record at HEAD. -/
def placeRecord (x : FaultNote) : Prog :=
  .look fun d => all [
    writePhys (d.get MMU_FQ_BASE * 4096 + 32 * d.get MMU_FQ_PTR_HEAD) (x.bytes d.mmu.nextIndex),
    put MMU_FQ_PTR_HEAD ((d.get MMU_FQ_PTR_HEAD + 1) % d.fqSize),
    modMmu fun m => { m with nextIndex := (m.nextIndex + 1) % 2 ^ 32 }]

/-- A fault of a command's transfer, which a DMA channel of the control complex moves (R334), or of a fabric packet: it is counted and
recorded, and no requester waits for it: a queued one is aborted at once. REQ, of which the spec says nothing here, is a free value
(notes/assumptions/80). -/
def noteFault (va cause : Nat) (write : Bool) (ctx cls engine : Nat) : Prog :=
  withFree fun r => .look fun d =>
    let x : FaultNote := ⟨d.podTime, va, cause, write.toNat + 2 * engine + (if finalCause cause then 4 else 0),
      if engine = 1 then r.toNat % 64 else r.toNat % 65536, ctx, cls⟩
    all [bump MMU_STAT_FAULTS, when (decide (cause = fCHECK)) (integrityOwn 2),
      if d.fqFull then modMmu fun m => { m with owed := m.owed ++ [x] } else placeRecord x]

/-- Answers a requester whose fault is final or aborted. -/
def answerRequester (r : Requester) (st : Nat) : Prog :=
  match r with
  | .move n k => answerMove n k st
  | .chan _ => transferBad r st
  | .desc _ _ => if st = stRETRY then setHeld r false else transferBad r st

/-- Writes a fault's record at HEAD; a queued fault then waits, a final one is answered. -/
def placeFault (f : QFault) : Prog :=
  .look fun d =>
    let i := d.get MMU_FQ_PTR_HEAD
    all [
      placeRecord (d.noteOf f),
      if finalCause f.cause then .seq (setHeld f.req false) (answerRequester f.req (faultAnswer f.cause))
      else .seq (put MMU_STAT_OUTSTANDING (d.get MMU_STAT_OUTSTANDING + 1))
        (modMmu fun m => { m with faults := m.faults ++ [{ f with ring := some i }] })]

/-- Raises a fault (R252): the requester holds; the record goes into the ring, or waits for space in it. PROT goes to the
course engine without the queue. A table block that fails its check raises CHECK too (R138). -/
def raiseFault (f : QFault) : Prog :=
  .look fun d => all [
    bump MMU_STAT_FAULTS, setHeld f.req true, when (decide (f.cause = fCHECK)) (integrityOwn 2),
    if f.cause = fPROT then modMmu fun m => { m with faults := m.faults ++ [{ f with ring := none }] }
    else if d.fqFull then modMmu fun m => { m with faults := m.faults ++ [{ f with ring := none }] }
    else placeFault f]

/-- Space in the fault ring lets the faults that waited for it be recorded, the oldest first; then those that none waits for (R253). -/
def refillRing : Nat → Prog
  | 0 => .done
  | fuel + 1 => .look fun d =>
      match d.mmu.faults.find? fun f => f.ring.isNone && decide (f.cause ≠ fPROT) with
      | some f => when (!d.fqFull) (all [modMmu fun m => { m with faults := m.faults.erase f }, placeFault f, refillRing fuel])
      | none => match d.mmu.owed with
        | x :: xs => when (!d.fqFull) (all [modMmu fun m => { m with owed := xs }, placeRecord x, refillRing fuel])
        | [] => .done

end Sys2Proof.Machine
end

