-- ==== Sys2Proof/Machine/Programs.lean ====
section
/-! DEFINITION. Programs and guests: images and loading (R225 to R228), ownership of tiles (R156), guest pages and homes,
the save area, and the reclaim of the guest quota (R264 to R268). -/

namespace Sys2Proof.Machine

/-! ## Images (Table 8.17) -/

/-- An image header as its fields. -/
structure Image where
  lead : Bool
  rank : Nat
  count : Nat
  load : Nat
  body : Nat
  code : Nat
  codeLen : Nat
  entry : Nat
  ctx : Nat
  gang : Nat
deriving DecidableEq, Repr

/-- Checks an image (R226): its fields, or the status with which the loader refuses it. -/
def parseImage (bs : List Byte) : Nat × Image :=
  let u (o n : Nat) := numAt bs o n
  let i : Image :=
    { lead := decide (u 10 2 % 2 = 1), rank := u 12 2, count := u 14 2, load := u 16 4, body := u 20 4, code := u 24 4,
      codeLen := u 28 4, entry := u 32 4, ctx := u 36 4, gang := u 40 1 % 4 }
  let body := (bs.drop 128).take i.body
  let bad := firstCause [
    (decide (bs.take 8 ≠ ascii "AZLATHE3") || decide (u 8 1 ≠ 3) || decide (u 9 1 ≠ 1), stUNSUPPORTED),
    (decide (i.count = 0) || decide (256 < i.count) || decide (i.count ≤ i.rank) || decide (i.load % 64 ≠ 0) ||
      decide (i.body % 64 ≠ 0) || decide (i.body < 64) || decide (tileStoreSize < i.load + i.body) ||
      decide (i.code % 8 ≠ 0) || decide (i.codeLen % 8 ≠ 0) || decide (i.codeLen < 8) || decide (i.body < i.code + i.codeLen) ||
      decide (i.entry < i.code) || decide (i.code + i.codeLen ≤ i.entry) ||
      (decide (i.rank = 0) && (decide (i.ctx % 64 ≠ 0) || decide (i.body < i.ctx + 8320))) ||
      (decide (i.rank ≠ 0) && decide (i.ctx ≠ 0)) || decide (bs.length < 128 + i.body), stLENGTH),
    (decide (sha256 body ≠ (bs.drop 64).take 32) || (i.lead != decide (i.rank = 0)) || decide (2 ≤ u 10 2) ||
      decide (4 ≤ u 40 1) || decide (u 41 23 ≠ 0) || decide (u 96 32 ≠ 0), stFAULT)]
  (bad.getD stOK, i)

/-- The tile after loading rank r of T (Table 8.18), with its identity, counts and owner kept by the caller. DESIGN CHOICE
(notes/assumptions/213): TLE_WAITLIM, which the table does not list, is its reset value. -/
def loadedTile (old : Tile) (i : Image) : Tile :=
  let keep (t : Tile) (f : Fld) : Tile := t.set f (old.get f)
  let t : Tile := {}
  let t := [TLE_ID_TILE, TLE_ID_DIE, TLE_ID_Y, TLE_ID_X, TLE_ID_LATHE, TLE_STAT_DIV, TLE_PASSES_PASSES, TLE_MXBUSY_CYCLES,
    TLE_VXCOUNT_INSTR, TLE_RDCOUNT_SLICES].foldl keep t
  let t := (t.setS 0 (BitVec.ofNat 64 i.rank)).setS 1 (BitVec.ofNat 64 i.count)
  let t := t.setA 0 (BitVec.ofNat 64 i.load)
  let t := t.set TLE_ENTRY_ENTRY (i.load + i.entry)
  let t := (t.set TLE_CODE_BASE (i.load + i.code)).set TLE_CODE_LEN i.codeLen
  let t := (t.set TLE_PROG_RANK i.rank).set TLE_PROG_COUNT i.count
  (t.set TLE_MXCFG_GANG i.gang).set TLE_MXCFG_ACTIVE i.gang

/-- Loads an image on a tile (R227): body at LOAD, every other byte 0. -/
def loadTile (n owner ctx : Nat) (i : Image) (body : List Byte) : Prog :=
  all [
    .act (.memClear (tileByte n 0) tileStoreSize),
    .act (.mem (tileByte n i.load) body),
    modTile n fun t => loadedTile t i,
    ownTile n owner ctx]

/-- A tile free of its program: no owner, nothing loaded, IDLE. A retired tile stays retired (R156). -/
def freeTile (n : Nat) : Prog :=
  .look fun d =>
    let t := d.tile n
    let u := (loadedTile t ⟨false, 0, 0, 0, 0, 0, 0, 0, 0, 0⟩)
    all [.act (.tile n (if t.state = tRETIRED then u.set TLE_STAT_STATE tRETIRED else u)),
      if d.witnessTiles.contains n then ownTile n oWITNESS 2 else ownTile n oNONE 0]

/-- Tiles that have no owner and are neither retired nor witness tiles, in ascending order. -/
def Dev.freeTiles (d : Dev) : List Nat :=
  (List.range 256).filter fun n => decide ((d.tile n).owner = oNONE) && decide ((d.tile n).state ≠ tRETIRED) && !(d.witnessTiles.contains n)

/-! ## Guest pages -/

/-- HBM pages of the guest quota, and those in use by guests and by the shored position. -/
def Dev.quotaPages (d : Dev) : List Nat := (List.range (d.get MMU_PART_GUEST_GIB * 512)).map fun i => d.quotaBase + i * pageBytes
def Dev.usedHbm (d : Dev) : List Nat :=
  d.mmu.guests.flatMap (fun g => g.pages.filterMap (·.hbm)) ++ d.mmu.service.filterMap (·.hbm) ++ d.mmu.jobPages.map (·.2)
/-- The first free page of the quota. -/
def Dev.freeQuotaPage (d : Dev) : Option Nat := d.quotaPages.find? fun p => !(d.usedHbm.contains p)
/-- The first free page of the shore reserve. -/
def Dev.freeReservePage (d : Dev) : Option Nat :=
  ((List.range (d.get MMU_PART_SHORE_GIB * 512)).map fun i => d.reserveBase + i * pageBytes).find? fun p =>
    !(d.mmu.jobPages.any fun q => q.2 = p) && !((d.agent localAgent).grans.any fun g => decide (g.2 = Gran.copied (p / pageBytes)))

/-- Tier pages that are homes of guest and service pages. -/
def Dev.homePages (d : Dev) : List Nat := d.mmu.guests.flatMap (fun g => g.pages.filterMap (·.home)) ++ d.mmu.service.filterMap (·.home)
/-- The first tier page free for a home: beyond what admission set aside, on a channel that is UP (R244). -/
def Dev.freeHome (d : Dev) : Option Nat :=
  ((List.range (d.ddrDataPages - d.mmu.reservedTier)).map fun i => tierPage (d.mmu.reservedTier + i)).find? fun p =>
    d.physOk p && !(d.homePages.contains p)

/-- MEM_DDR_USE.SPILL_GIB after homes change: whole GiB, rounded up. -/
def countHomes : Prog := .look fun d => put MEM_DDR_USE_SPILL_GIB ((d.homePages.length + 511) / 512)

/-- Changes one guest. -/
def modGuest (ctx : Nat) (f : Guest → Guest) : Prog :=
  modMmu fun m => { m with guests := m.guests.map fun g => if g.ctx = ctx then f g else g }

/-- The pages of a guest context, or of the SERVICE context. -/
def Dev.ctxPages (d : Dev) (ctx : Nat) : List GuestPage :=
  if ctx = 3 then d.mmu.service else ((d.mmu.guests.find? fun g => decide (g.ctx = ctx)).map (·.pages)).getD []

/-- Changes them. -/
def modPages (ctx : Nat) (f : List GuestPage → List GuestPage) : Prog :=
  if ctx = 3 then modMmu fun m => { m with service := f m.service } else modGuest ctx fun g => { g with pages := f g.pages }

/-- Changes the page at an address. -/
def modPage (ctx va : Nat) (f : GuestPage → GuestPage) : Prog := modPages ctx fun ps => ps.map fun p => if p.va = va then f p else p

/-- Frees the pages, images and sync window of a guest (R332, Table 1.4): its tiles stop and are freed, its context is no
longer in use. -/
def freeGuest (ctx : Nat) : Prog :=
  .look fun d => all [
    each (d.mmu.programs.filter fun p => decide (p.ctx = ctx)) fun p =>
      when (!p.saved) (each p.tiles fun n => .seq (withdrawTile n) (freeTile n)),
    modMmu fun m => { m with
      guests := m.guests.filter fun g => decide (g.ctx ≠ ctx)
      programs := m.programs.filter fun p => decide (p.ctx ≠ ctx) },
    put (MMU_ROOT_VALID ctx) 0, put (MMU_ROOT_ROOT ctx) 0,
    put (SYN_WIN_SIZE ctx) 0, put (SYN_WIN_BASE ctx) 0,
    countHomes]

/-- Discards a guest: freed, and its session told (R335). -/
def discardGuest (ctx : Nat) : Prog :=
  .look fun d =>
    match d.mmu.guests.find? fun g => decide (g.ctx = ctx) with
    | some g => .seq (freeGuest ctx) (guestDiscarded g.session ctx)
    | none => .done

/-- Discards every guest. -/
def discardGuests : Prog := .look fun d => each (d.mmu.guests.map (·.ctx)) discardGuest

/-- Writes one HBM page of a guest to its home and repoints it (R266): a page without a home gets one; with none left, or with a page whose
check still fails after the re-read, the guest is discarded (R136, R138, Table 4.4). -/
def spillPage (ctx : Nat) (p : GuestPage) : Prog :=
  .look fun d =>
    match p.hbm, p.home <|> d.freeHome with
    | some h, some home => moveChecked h home pageBytes (all [
        tallyClass 6 pageBytes,
        modPage ctx p.va fun q => { q with hbm := none, home := some home },
        editLeaf ctx p.va fun e => e - e % 2 ^ 52 + home + e % 2 ^ 12,
        countHomes]) (discardGuest ctx)
    | some _, none => discardGuest ctx
    | none, _ => .done

/-- Drops an HBM page whose home is current (R266, step 3). -/
def dropPage (ctx : Nat) (p : GuestPage) : Prog :=
  match p.home with
  | some home => all [
      modPage ctx p.va fun q => { q with hbm := none },
      editLeaf ctx p.va fun e => e - e % 2 ^ 52 + home + e % 2 ^ 12]
  | none => .done

/-- Whether a guest page's leaf has SHADOW set. -/
def Dev.shadowed (d : Dev) (ctx : Nat) (p : GuestPage) : Bool :=
  match d.leafOf ctx p.va with
  | some leaf => entBit (d.mem64 leaf 8) 7
  | none => false

/-! ## The save area (R264, R265) -/

/-- Words of a store as bytes: `n` words of `w` bytes from a key. -/
def wordBytes (w n : Nat) (f : Nat → Nat) : List Byte := ((List.range n).map fun i => leBytes w (f i)).flatten

/-- The words of the register page of an image (Table 9.14): the offset within the tile's block that word `i` from 0x182_9000 holds. Words 56
to 119 hold C0 to C63, and the page's rest the elapsed wait times. -/
def imageRegs : List (Nat × Nat) :=
  ((List.range 32).map fun i => (i, (TLE_S_VALUE i).addr)) ++ ((List.range 16).map fun i => (32 + i, (TLE_A_VALUE i).addr)) ++
  ((List.range 8).map fun i => (48 + i, (TLE_P_VALUE i).addr)) ++
  ((List.range 8).flatMap fun k => [(120 + 4 * k, (TLE_PHX_KEY_KEY k).addr), (122 + 4 * k, (TLE_PHX_CTR_LO_CTR k).addr),
    (123 + 4 * k, (TLE_PHX_CTR_HI_CTR k).addr)]) ++
  [(152, 0x40), (153, 0x70), (154, 0x60), (155, 0x68), (156, 0x80), (157, 0x10), (158, 0x78)]

/-- The image of a tile from 0x180_0000 (Table 9.14), up to TLE_WAITLIM. -/
def imageBytes (t : Tile) : List Byte :=
  wordBytes 4 24576 t.tbWord ++ wordBytes 4 16384 t.accWord ++
  (List.range 768).map (fun i => Store.get scaleDflt t.scl i) ++ List.replicate (4096 - 768) (0 : Byte) ++
  wordBytes 8 159 (fun i => if 56 ≤ i ∧ i < 120 then (t.counter (i - 56)).toNat
    else match imageRegs.lookup i with | some a => (Store.get tileDflt t.regs a).toNat | none => 0)

/-- A store's words from the bytes of an image. -/
def imageWords {w : Nat} (dflt : Nat → BitVec w) (bs : List Byte) (off size n : Nat) : Store (BitVec w) :=
  (List.range n).filterMap fun i =>
    let v := BitVec.ofNat w (numAt bs (off + size * i) size)
    if v = dflt i then none else some (i, v)

/-- A saved tile with everything that its image lays out as the image holds it (R265). -/
def Tile.ofImage (t : Tile) (bs : List Byte) : Tile :=
  { t with
    tb := imageWords wordDflt bs 0 4 24576
    acc := imageWords wordDflt bs 0x18000 4 16384
    scl := imageWords scaleDflt bs 0x28000 1 768
    cnt := imageWords counterReset bs (0x29000 + 8 * 56) 8 64
    regs := imageRegs.foldl (fun r p => Store.put tileDflt r p.2 (BitVec.ofNat 64 (numAt bs (0x29000 + 8 * p.1) 8))) t.regs }

/-- A stopped tile's image is copied to its slot of the save area (R264). The elapsed wait times and the 20 KiB whose layout is internal to the
part are free values (notes/assumptions/216). What the part keeps in the internal layout, the dispatched
instructions and the progress of transfers, the model holds in `savedTiles`. -/
def saveTile (n : Nat) : Prog :=
  .look fun d => all [
    tallyClass 0 25358336,
    writePhys (saveAreaBase + n * 0x2000000) (d.bytes (tileByte n 0) tileStoreSize),
    withFrees 2913 fun fv => writePhys (saveAreaBase + n * 0x2000000 + 0x1800000) (imageBytes (d.tile n) ++ wordBytes 8 2913 fun i => (fv i).toNat),
    .act (.savedTile n (d.tile n))]

/-- The counts of a tile since chip reset, which no save or restore rolls back (Tables 6.14 and 7.12). -/
def Tile.countsOf (t old : Tile) : Tile :=
  [TLE_PASSES_PASSES, TLE_MXBUSY_CYCLES, TLE_VXCOUNT_INSTR, TLE_RDCOUNT_SLICES].foldl (fun t f => t.set f (old.get f)) t

/-- Whether the image of a tile in the save area agrees with its checks (R137). -/
def Dev.imageOk (d : Dev) (n : Nat) : Bool :=
  d.runOk (saveAreaBase + n * 0x2000000) tileStoreSize && d.runOk (saveAreaBase + n * 0x2000000 + 0x1800000) 0x2F000

/-- An image returns to its tile (R265): every part bit for bit. -/
def restoreTile (n owner ctx : Nat) : Prog :=
  .look fun d => all [
    tallyClass 0 25358336,
    .act (.mem (tileByte n 0) (d.bytes (saveAreaBase + n * 0x2000000) tileStoreSize)),
    .act (.tile n (((Store.get tileReset d.savedTiles n).ofImage (d.bytes (saveAreaBase + n * 0x2000000 + 0x1800000) 0x2F000)).countsOf
      (d.tile n))),
    .act (.savedTile n {}),
    ownTile n owner ctx]

/-! ## Starting (R229) -/

/-- A wait found not satisfied is evaluated afresh (R217). -/
def QEntry.afresh (e : QEntry) : QEntry := if e.op.cls = .sy then { e with mark := false } else e

/-- A resumed tile: RUNNING, its waits to be evaluated afresh. -/
def Tile.resumed (t : Tile) : Tile :=
  { (t.set TLE_STAT_STATE tRUNNING).set TLE_CTRL_EN 1 with
    front := t.front.map (·.afresh), mx := t.mx.map (·.afresh), vx := t.vx.map (·.afresh), rd := t.rd.map (·.afresh),
    mv := t.mv.map (·.afresh), critStop := false }

/-- EN written 1: a tile in IDLE starts at TLE_ENTRY, one in STOPPED resumes at TLE_PC. -/
def Tile.started (t : Tile) : Tile := if t.state = tIDLE then (t.set TLE_PC_PC (t.get TLE_ENTRY_ENTRY)).resumed else t.resumed

/-! ## Reclaim (R266) -/

/-- The guest tiles. -/
def Dev.guestTiles (d : Dev) : List Nat := (List.range 256).filter fun n => decide ((d.tile n).owner = oGUEST)
/-- The channels of class GUEST. -/
def Dev.guestChans (d : Dev) : List Nat := (List.range 64).filter fun n => decide (d.get (DMA_CTRL_CLASS n) = 7)

/-- Steps 2 and 3, once every guest tile and channel has stopped: images are saved and the tiles freed, and pages with a
current copy are dropped. Spill then begins. -/
def frozen : Prog :=
  .look fun d =>
    let stillTile := d.guestTiles.any fun n => decide ((d.tile n).state = tRUNNING) || decide ((d.tile n).state = tHALTED)
    let stillChan := d.guestChans.any fun n => d.on (DMA_CTRL_EN n)
    when (decide (d.mmu.reclaim = .freezing) && !stillTile && !stillChan) (all [
      each d.guestTiles fun n => .seq (saveTile n) (freeTile n),
      modMmu fun m => { m with
        reclaim := .spilling
        programs := m.programs.map fun p => if 4 ≤ p.ctx then { p with saved := true } else p
        guests := m.guests.map fun g => { g with held := true } },
      each d.mmu.guests fun g => each g.pages fun p => when (d.shadowed g.ctx p && p.hbm.isSome) (dropPage g.ctx p)])

/-- The programs that hold a tile which is now one of the witness tiles, and whose tiles have stopped. -/
def Dev.displaced (d : Dev) : List Program :=
  d.mmu.programs.filter fun p => decide (p.ctx ≠ 1) && !p.saved && p.tiles.any d.witnessTiles.contains &&
    p.tiles.all fun n => decide ((d.tile n).state ≠ tRUNNING) && decide ((d.tile n).state ≠ tHALTED)

/-- Such a program leaves (R156, R264): its images are saved, its tiles are free, and those among the highest become witness tiles. -/
def displace : Prog :=
  .look fun d => each d.displaced fun p => .seq
    (each p.tiles fun n => .seq (saveTile n) (freeTile n))
    (modMmu fun m => { m with programs := m.programs.map fun q => if q = p then { q with saved := true } else q })

/-- Step 1: STOP to every guest tile and every channel of class GUEST. -/
def reclaimGuests : Prog :=
  .look fun d =>
    when (decide (d.mmu.reclaim = .idle)) (all [
      modMmu fun m => { m with reclaim := .freezing },
      each d.guestTiles fun n => when (decide ((d.tile n).state = tRUNNING)) (modTile n fun t => t.set TLE_CTRL_STOP 1),
      each d.guestChans fun n => when (d.on (DMA_CTRL_EN n)) (put (DMA_CTRL_STOP n) 1),
      frozen])

/-- Steps 4 and 5: every remaining HBM page of a guest is spilled in ascending physical address, and the quota is free. A guest discarded on the
way has no pages left to spill. -/
def spillAll : Prog :=
  .look fun d =>
    let ps := d.mmu.guests.flatMap fun g => g.pages.filterMap fun p => p.hbm.map fun h => (h, g.ctx, p)
    .seq (each (sortOn (fun a => a.1) ps) fun x => .look fun e => when (decide (x.2.2 ∈ e.ctxPages x.2.1)) (spillPage x.2.1 x.2.2))
      (modMmu fun m => { m with reclaim := .ended })

/-! ## Mapping on a fault -/

/-- Maps a page for a guest or service context (R244, R250): a free quota page, or a tier page. It is filled with zeros. A guest for whose page
there is neither is discarded. -/
def mapGuestPage (ctx va : Nat) : Prog :=
  .look fun d =>
    let v := va / pageBytes * pageBytes
    let take (pa : Nat) (home : Bool) : Prog := all [
      zeroPhys pa pageBytes, mapPage ctx v pa 0,
      modPages ctx fun ps => ps ++ [{ va := v, hbm := if home then none else some pa, home := if home then some pa else none }],
      countHomes]
    match d.freeQuotaPage with
    | some pa => take pa false
    | none => match d.freeHome with
      | some pa => take pa true
      | none => discardGuest ctx

/-- Brings a page of a guest or service context into HBM (R251): a free quota page, or the page of the same context that is spilled first. The
move of R249 is one step here. -/
def pageIn (ctx va : Nat) : Prog :=
  .look fun d =>
    let v := va / pageBytes * pageBytes
    let makeRoom : Prog := if d.freeQuotaPage.isSome then .done
      else match (d.ctxPages ctx).find? fun p => p.hbm.isSome && decide (p.va ≠ v) with
        | some p => spillPage ctx p
        | none => .done
    .seq makeRoom (.look fun d =>
      match d.freeQuotaPage, (d.ctxPages ctx).find? fun p => decide (p.va = v) with
      | some pa, some p => (match p.home with
        | some home => .seq (zeroPhys pa pageBytes) (moveChecked home pa pageBytes (all [tallyClass 6 pageBytes,
            modPage ctx v fun q => { q with hbm := some pa },
            editLeaf ctx v fun e => e - e % 2 ^ 52 + pa + e % 2 ^ 12]) (discardGuest ctx))
        | none => .done)
      | _, _ => .done)

/-- Maps the next free page of the shore reserve to the shored position, or of the quota once guest reclaim has ended
(R116, Table 9.11). -/
def mapJobPage (va : Nat) : Prog :=
  .look fun d =>
    let v := va / pageBytes * pageBytes
    let page := d.freeReservePage <|> (if d.mmu.reclaim = .idle ∨ d.mmu.reclaim = .ended then d.freeQuotaPage else none)
    match page with
    | some pa => all [zeroPhys pa pageBytes, mapPage 1 v pa 0, modMmu fun m => { m with jobPages := m.jobPages ++ [(v, pa)] }]
    | none => .done

/-- What the control complex does to a queued fault before it resumes it (Table 9.11, which maps no page for contexts 0 and 2). -/
def resolveFault (f : QFault) : Prog :=
  if f.ctx = 1 then when (decide (f.cause = fUNMAPPED)) (mapJobPage f.va)
  else if f.ctx < 3 then .done
  else if f.cause = fUNMAPPED then mapGuestPage f.ctx f.va
  else if f.cause = fWRITE then editLeaf f.ctx (f.va / pageBytes * pageBytes) (· ||| 4)
  else if f.cause = fTIER then pageIn f.ctx f.va
  else editLeaf f.ctx (f.va / pageBytes * pageBytes) fun e => e - e % 16 + e % 8

end Sys2Proof.Machine
end

