-- ==== Sys2Proof/Machine/TileControl.lean ====
section
/-! DEFINITION. Family: control of tiles (R156 to R163, R176 to R182, R204, R213, R217, R229 to R232): starting, stopping,
exceptions cleared, gang changes, waits, and the completion of passes and direct transfers. -/

namespace Sys2Proof.Machine

/-! ## Writes to a tile's block -/

/-- A write to a tile's register with no effect beyond its fields. -/
def writeTilePlain (n off : Nat) (v : W64) : Prog :=
  .seq (modTile n fun t =>
    let w := writtenWord tileRows off (Store.get tileDflt t.regs off) v
    { t with regs := Store.put tileDflt t.regs off (w &&& implMask tileRows off) }) (complete stOK)

/-- EN written 1 (R229): a tile in IDLE starts at TLE_ENTRY, one in STOPPED resumes at TLE_PC. With no program loaded
nothing changes (Table 8.21). During a global halt it starts frozen (R179). -/
def startTile (n : Nat) : Prog :=
  .look fun d =>
    let t := d.tile n
    if t.get TLE_PROG_COUNT = 0 then .done
    else if t.state = tIDLE ∨ t.state = tSTOPPED then all [
      each (d.lockstep n) fun i => modTile i (·.started),
      if d.on TAL_HALT_HALTED then each (d.lockstep n) fun i => modTile i fun t => t.set TLE_STAT_STATE tHALTED else tilePump n]
    else .done

/-- STOP is ordered (R180): the tile, or both twins of a pair, issue nothing new. -/
def stopTile (n : Nat) : Prog :=
  .look fun d => when (decide ((d.tile n).state = tRUNNING) || decide ((d.tile n).state = tHALTED))
    (each (d.lockstep n) fun i => modTile i fun t => t.set TLE_CTRL_STOP 1)

/-- A write of TLE_CTRL (Table 6.10): clearing EN acts as STOP. In QUARANTINE no tile starts (Table 1.3, R26): BUSY. -/
def writeTleCtrl (n : Nat) (v : W64) : Prog :=
  .look fun d =>
    let ran := decide ((d.tile n).state = tRUNNING) || decide ((d.tile n).state = tHALTED)
    all [
      modTile n fun t => t.set TLE_CTRL_RELAXED (TLE_CTRL_RELAXED.of v),
      when (ran && (decide (TLE_CTRL_STOP.of v = 1) || decide (TLE_CTRL_EN.of v = 0))) (stopTile n),
      when (!ran && decide (TLE_CTRL_EN.of v = 1) && decide (d.mode.role ≠ .quarantine)) (startTile n),
      complete (if !ran && decide (TLE_CTRL_EN.of v = 1) && decide (d.mode.role = .quarantine) then stBUSY else stOK)]

/-- EN = 1 written: the tile starts at TLE_ENTRY in IDLE or resumes at TLE_PC in STOPPED (R229). -/
def execTileEnWrite (t : TileId) (v : W64) (s : State) : Host.Outcome State Fault Refusal :=
  s.runUp (when (decide (TLE_CTRL_EN.of v = 1)) (writeTleCtrl t.val v))

/-- STOP = 1 written: the tile issues nothing new and stops at its next pre-emption point (R180). -/
def execTileStop (t : TileId) (v : W64) (s : State) : Host.Outcome State Fault Refusal :=
  s.runUp (when (decide (TLE_CTRL_STOP.of v = 1)) (writeTleCtrl t.val v))

/-- A write of TLE_ERR: clearing VALID returns a FAULTED tile to STOPPED (R182), where STOP reads 0 (Table 6.10). -/
def writeTleErr (n : Nat) (v : W64) : Prog :=
  .seq (when (decide (TLE_ERR_VALID.of v = 1)) (modTile n fun t =>
    let u := t.set TLE_ERR_VALID 0
    if u.state = tFAULTED then (u.set TLE_STAT_STATE tSTOPPED).set TLE_CTRL_STOP 0 else u)) (complete stOK)

/-- VALID cleared (R182). -/
def execTleErrValidClear (t : TileId) (v : W64) (s : State) : Host.Outcome State Fault Refusal :=
  s.runUp (when (decide (TLE_ERR_VALID.of v = 1)) (writeTleErr t.val v))

/-- A write of TLE_MXCFG requests a configuration, of both twins of a pair (R181); the passes that wait to issue come before the change
(R159). -/
def writeTleMxcfg (n : Nat) (v : W64) : Prog :=
  .look fun d => .seq (each (d.lockstep n) fun i => modTile i fun t => t.requestGang (TLE_MXCFG_GANG.of v)) (complete stOK)

/-- Offsets of the registers of Tables 8.20 to 8.22 and of the streams, which a write may not reach while RUNNING (R204,
R232). -/
def heldWhileRunning (off : Nat) : Bool :=
  (decide (0x60 ≤ off ∧ off ≤ 0x88) || decide (0x200 ≤ off ∧ off < 0x300) || decide (0x400 ≤ off ∧ off < 0x5C0)) &&
    decide ((fieldsAt tileRows off).length ≠ 0)

/-- A write to a register of a tile's block. -/
def writeTile (n off : Nat) (v : W64) : Prog :=
  .look fun d =>
    if off = 0x8 then writeTleCtrl n v
    else if off = 0x10 then writeTleMxcfg n v
    else if off = 0x20 then writeTleErr n v
    else if heldWhileRunning off ∧ (d.tile n).state = tRUNNING then complete stBUSY
    else writeTilePlain n off v

/-- A register of a tile's block as it reads: BUSY, RELAXED_ON and QDEPTH follow the tile's state; reserved bits and unassigned addresses read 0
(R11, R12). -/
def readTile (d : Dev) (n off : Nat) : W64 × Nat :=
  let t := d.tile n
  let w := Store.get tileDflt t.regs off &&& implMask tileRows off
  if off = 0 then
    (((((TLE_ID_TILE.into w n) |> (TLE_ID_DIE.into · (n / 64))) |> (TLE_ID_Y.into · (n % 64 / 8))) |> (TLE_ID_X.into · (n % 8))), stOK)
  else if off = 0x18 then
    let busy := (if t.passes.isEmpty then 0 else 1) + if t.moves.isEmpty then 0 else 8
    ((TLE_STAT_BUSY.into w busy) |> (TLE_STAT_RELAXED_ON.into · t.relaxed.toNat), stOK)
  else if off = 0x88 then
    (((((TLE_QDEPTH_MX.into w t.mx.length) |> (TLE_QDEPTH_VX.into · t.vx.length)) |> (TLE_QDEPTH_RD.into · t.rd.length))
      |> (TLE_QDEPTH_MV.into · t.mv.length)), stOK)
  else if 0x400 ≤ off ∧ off < 0x5C0 ∧ t.state = tRUNNING ∧ (fieldsAt tileRows off).length ≠ 0 then (0, stBUSY)
  else (w, stOK)

/-! ## Completion -/

/-- A pass's results reach its accumulators (R163, R169 to R177), and its sample records the witness queue (R147). DESIGN CHOICE: its
operands are read now, at its completion, so that a store made while it was in progress enters the result (notes/assumptions/174). -/
def finishPass (n : Nat) (e : QEntry) : Prog :=
  .seq (formPassRecords n e) <| .look fun d =>
    let t := d.tile n
    let end_ (t : Tile) : Tile := { ((t.bump TLE_PASSES_PASSES).bump TLE_MXBUSY_CYCLES (passCycles e)) with passes := t.passes.erase e }
    if t.relaxed then withFrees (16384 * relaxedChoices e) fun fv => .act (.tile n (end_ (passResult d (tileByte n 0) t e true fv)))
    else .act (.tile n (end_ (passResult d (tileByte n 0) t e false fun _ => 0)))

/-- The pass in progress on gang `g` completes (R160, R163). -/
def execPassComplete (t : TileId) (g : Fin 4) (s : State) : Host.Outcome State Fault Refusal :=
  s.runUp <| .look fun d =>
    when (decide ((d.tile t.val).state = tRUNNING)) <|
      all [
        each (d.lockstep t.val) fun i => match (d.tile i).passes.find? fun p => decide (mxGang p.w0 = g.val) with
          | some e => .seq (finishPass i e) (settle i)
          | none => .done,
        tilePump t.val]

/-- Direct transfer `k` in flight writes every byte and check, and applies its signal (R213, R274). -/
def execMvTransferComplete (t : TileId) (k : Nat) (s : State) : Host.Outcome State Fault Refusal :=
  s.runUp <| .look fun d => when (decide ((d.tile t.val).state = tRUNNING)) (finishMove t.val k)

/-- The work in progress of a stopping tile completes: passes, then the direct transfers that are not held, oldest
first. -/
def finishMoves (n : Nat) : Nat → Nat → Prog
  | 0, _ => .done
  | fuel + 1, k => .look fun d =>
      match (d.tile n).moves[k]? with
      | none => .done
      | some m =>
        if m.held ∨ ((moveBad d n m.entry).bind (·.2)).isSome then finishMoves n fuel (k + 1)
        else .seq (endMove n k) (finishMoves n fuel k)

/-- A stop ends (R180, R229): work in progress completes, held transfers and DESC transfers stop where they are, and the
tile is STOPPED with EN = 0. -/
def stopDone (n : Nat) : Prog :=
  .look fun d =>
    when (decide ((d.tile n).state = tRUNNING) && (d.tile n).on TLE_CTRL_STOP) (all [
      each (d.tile n).passes fun e => finishPass n e,
      finishMoves n 8 0,
      settle n,
      .look fun d => when (decide ((d.tile n).state = tRUNNING)) (.seq (withdrawTile n) (modTile n fun t =>
        ((t.set TLE_STAT_STATE (if t.faulting then tFAULTED else tSTOPPED)).set TLE_CTRL_EN 0))),
      modTile n fun t => { t.set TLE_CTRL_STOP 0 with faulting := false }])

/-- The oldest configuration requested comes into force: the passes that waited for it wait for one change fewer (R159). -/
def Tile.applyGang (t : Tile) : Tile :=
  match t.gangs with
  | [] => t
  | g :: gs => { t.set TLE_MXCFG_ACTIVE g with
      gangs := gs, mx := t.mx.map fun e => if e.op = .pass then { e with ahead := e.ahead - 1 } else e }

/-- A requested configuration takes effect, on both twins of a pair (R181): no pass is in progress and none dispatched before the request
waits (R159). -/
def execGangChangeApply (t : TileId) (s : State) : Host.Outcome State Fault Refusal :=
  s.runUp <| .look fun d =>
    let u := d.tile t.val
    when (!u.gangs.isEmpty && u.passes.isEmpty &&
        !(u.mx.any fun e => decide (e.op = .pass) && decide (e.ahead = 0)) && decide (u.state ≠ tHALTED)) <|
      .seq (each (d.lockstep t.val) fun i => modTile i Tile.applyGang) (tilePump t.val)

/-- The class of a queue number: MX, VX, RD, MV. -/
def queueClass (q : Fin 4) : LClass := match q.val with | 0 => .mx | 1 => .vx | 2 => .rd | _ => .mv

/-- The wait held at a queue's head, or at the front end (`none`). -/
def Tile.heldWait (t : Tile) (q : Option (Fin 4)) : Option QEntry :=
  let e := match q with
    | none => t.frontEntry
    | some q => (t.queue (queueClass q)).head?
  e.filter fun e => (decide (e.op = .wait) || decide (e.op = .rwait)) && e.mark

/-- A wait has held for TLE_WAITLIM.LIMIT_US (R217): the tile stops with CAUSE = WAIT. A limit of 0 is none. -/
def execWaitLimitExpire (t : TileId) (q : Option (Fin 4)) (s : State) : Host.Outcome State Fault Refusal :=
  s.runUp <| .look fun d =>
    let u := d.tile t.val
    when (u.issuing && decide (u.get TLE_WAITLIM_LIMIT_US ≠ 0)) <| each (d.lockstep t.val) fun i =>
      match (d.tile i).heldWait q with
      | some e => .seq (when q.isNone (modTile i fun u => { u with front := none })) (exception i cWAIT .sy e.off)
      | none => .done

/-- A held wait is released: its counter satisfies the expected value (R270, R271). -/
def execWaitSatisfied (t : TileId) (q : Option (Fin 4)) (s : State) : Host.Outcome State Fault Refusal :=
  s.runUp <| .look fun d =>
    let u := d.tile t.val
    when u.issuing <| .seq (each (d.lockstep t.val) fun i =>
      match (d.tile i).heldWait q with
      | some e => when (waitMet d i { e with mark := false }) <|
          modTile i fun u => match q with
            | none => { u with front := some { op := e.op, w0 := e.w0, w1 := e.w1, off := e.off } }
            | some q => u.setQueue (queueClass q) ({ e with mark := false } :: (u.queue (queueClass q)).drop 1)
      | none => .done) (tilePump t.val)

end Sys2Proof.Machine
end

