-- ==== Sys2Proof/Machine/MemoryUnit.lean ====
section
/-! DEFINITION. Family: translation, faults and memory (R136, R233 to R255, R267). -/

namespace Sys2Proof.Machine

/-! ## Faults -/

/-- The requester's next access that fails raises a fault (R252): a direct transfer first delivers what comes before it.
Where no access fails, nothing happens. -/
def execMmuFault (r : Requester) (s : State) : Host.Outcome State Fault Refusal :=
  s.runUp <| .look fun d =>
    match r with
    | .move n k =>
      (match (d.tile n).moves[k]? with
        | none => .done
        | some m =>
          if m.held ∨ (d.tile n).state ≠ tRUNNING then .done
          else match moveBad d n m.entry with
            | some (off, some c) => all [
                deliverMove n m.entry m.entry.prog off,
                modTile n fun t => { t with moves := t.moves.modify k fun m => { m with entry := { m.entry with prog := off } } },
                raiseFault ⟨none, r, (mvMemory m.entry + off) % 2 ^ 64, c, decide (m.entry.op = .put), d.tctx n⟩]
            | _ => .done)
    | .desc n k =>
      (match (d.tile n).descs[k]? with
        | none => .done
        | some j =>
          if j.held ∨ !j.started ∨ (d.tile n).state ≠ tRUNNING then .done
          else match fragFault d (d.desc r) with
            | some (va, w, ctx, c) => raiseFault ⟨none, r, va, c, w, ctx⟩
            | none => .done)
    | .chan n =>
      if (d.chan n).held ∨ !(d.chan n).started then .done
      else match fragFault d (d.desc r) with
        | some (va, w, ctx, c) => raiseFault ⟨none, r, va, c, w, ctx⟩
        | none => .done

/-- A write of MMU_FRESUME (R253): RESUME repeats the translation at the requester's progress, once the control complex
has dealt with the fault (Table 9.11); ABORT answers it. A record that names no queued fault changes nothing. -/
def writeFresume (v : W64) : Prog :=
  .look fun d =>
    .seq (match d.mmu.faults.find? fun f => decide (f.ring = some (MMU_FRESUME_INDEX.of v)) with
      | none => .done
      | some f =>
        let drop : Prog := .seq (put MMU_STAT_OUTSTANDING (d.get MMU_STAT_OUTSTANDING - 1))
          (modMmu fun m => { m with faults := m.faults.erase f })
        match MMU_FRESUME_ACTION.of v with
        | 0 => all [drop, resolveFault f, setHeld f.req false]
        | 1 => all [drop, setHeld f.req false, answerRequester f.req (faultAnswer f.cause)]
        | _ => .done) (complete stOK)

/-- RESUME (R253). -/
def execMmuFresumeResume (v : W64) (s : State) : Host.Outcome State Fault Refusal :=
  s.runUp (when (decide (MMU_FRESUME_ACTION.of v = 0)) (writeFresume v))

/-- ABORT (R253). -/
def execMmuFresumeAbort (v : W64) (s : State) : Host.Outcome State Fault Refusal :=
  s.runUp (when (decide (MMU_FRESUME_ACTION.of v = 1)) (writeFresume v))

/-- A write of the fault ring's TAIL lets faults that waited for space be recorded, as many as there is space for (R253). -/
def writeFqPtr (v : W64) : Prog := .look fun d => all [put MMU_FQ_PTR_TAIL (MMU_FQ_PTR_TAIL.of v), refillRing d.fqSize, complete stOK]

/-! ## Invalidation (R249) -/

/-- A write of MMU_INV (Table 9.17). An invalidation of a context with VALID = 0 completes at once; scope 0b11 is
ignored. -/
def writeInv (v : W64) : Prog :=
  .look fun d =>
    let scope := MMU_INV_SCOPE.of v
    .seq (when (decide (scope ≠ 3) && (decide (scope = 2) || decide (d.get (MMU_ROOT_VALID (MMU_INV_CTX.of v)) = 1)))
      (put MMU_INV_STAT_PENDING 1)) (complete stOK)

/-- MMU_INV with scope page (R249). -/
def execMmuInvPage (v : W64) (s : State) : Host.Outcome State Fault Refusal :=
  s.runUp (when (decide (MMU_INV_SCOPE.of v = 0)) (writeInv v))

/-- MMU_INV with scope context (R249). -/
def execMmuInvContext (v : W64) (s : State) : Host.Outcome State Fault Refusal :=
  s.runUp (when (decide (MMU_INV_SCOPE.of v = 1)) (writeInv v))

/-- MMU_INV with scope all (R249). -/
def execMmuInvAll (v : W64) (s : State) : Host.Outcome State Fault Refusal :=
  s.runUp (when (decide (MMU_INV_SCOPE.of v = 2)) (writeInv v))

/-- The invalidation completes and PENDING falls (R249). -/
def execMmuInvComplete (s : State) : Host.Outcome State Fault Refusal :=
  s.runUp (put MMU_INV_STAT_PENDING 0)

/-! ## The partition -/

/-- A write of MMU_PART (R237): only in SERVICE with no guest admitted, else BUSY; a course cache below 64 GiB is refused
with LENGTH. -/
def writeMmuPart (v : W64) : Prog :=
  .look fun d =>
    let g := MMU_PART_GUEST_GIB.of v
    let h := MMU_PART_SHORE_GIB.of v
    if 1427 < 16 + 64 + g + h then complete stLENGTH
    else if d.mode.role ≠ .service ∨ !d.mmu.guests.isEmpty then complete stBUSY
    else all [put MMU_PART_GUEST_GIB g, put MMU_PART_SHORE_GIB h, put MMU_PART_CACHE_GIB (1427 - 16 - h - g), complete stOK]

/-- MMU_PART written (R237). -/
def execMmuPartWrite (v : W64) (s : State) : Host.Outcome State Fault Refusal := s.runUp (writeMmuPart v)

/-! ## Errors and scrub -/

/-- The tier's rate in MB/s over the channels still UP (R241, R243). -/
def Dev.tierRate (d : Dev) : Nat :=
  d.get MEM_DDR_CFG_MTS * 8 * ((List.range 24).filter fun n => d.get (MEM_DDR_CH_STATE n) = 1).length

/-- MEM_DDR_CFG.SLOW follows the tier's rate; where it becomes 1, SHR_CTRL.EN is cleared (R243). -/
def checkTierRate : Prog :=
  .look fun d =>
    let slow := decide (d.tierRate < 1000000)
    .seq (put MEM_DDR_CFG_SLOW slow.toNat) (when slow (put SHR_CTRL_EN 0))

/-- A DDR5 channel goes OUT (R241): its pages are lost, the tier's figures fall, guests with a home on it are
discarded, and a MEMORY record is made. -/
def channelOut (ch : Nat) : Prog :=
  .look fun d =>
    let lost := d.mmu.guests.filter fun g => g.pages.any fun p => match p.home with
      | some a => decide (d.phys a = .ddr ch)
      | none => false
    all [
      put (MEM_DDR_CH_STATE ch) 3, put (MEM_DDR_CH_CAUSE ch) 5, checkTierRate,
      record 0x0B 1 (pack [(1, ch), (1, 3), (1, 5), (4, d.get (MEM_DDR_CH_UE ch))]) true,
      each lost fun g => discardGuest g.ctx]

/-- A patrol scrub pass corrects and counts what it finds (R240): corrected errors of HBM, and of each channel. With
HOURS = 0 there is no patrol scrub. -/
def execPatrolScrub (hbm : Nat) (ddr : List Nat) (s : State) : Host.Outcome State Fault Refusal :=
  s.runUp <| .look fun d =>
    when (decide (d.get MEM_SCRUB_HOURS ≠ 0)) (.seq (bump MEM_HBM_ERR_CE hbm)
      (each (ddr.zipIdx) fun c => when (decide (d.get (MEM_DDR_CH_STATE c.2) = 1)) (bump (MEM_DDR_CH_CE c.2) c.1)))

/-- Background cleaning (R267): with CLEAN_GBS set and nothing shoring, a dirty guest page is written to its home and
SHADOW is set. -/
def execCleanWrite (ctx : Fin 64) (va : W64) (s : State) : Host.Outcome State Fault Refusal :=
  s.runUp <| .look fun d =>
    let v := va.toNat / pageBytes * pageBytes
    let page := (d.mmu.guests.find? fun g => decide (g.ctx = ctx.val)).bind fun g => g.pages.find? fun p => decide (p.va = v)
    match page with
    | some p =>
      (match p.hbm, p.home <|> d.freeHome with
        | some h, some home =>
          when (decide (d.get MEM_DDR_CEIL_CLEAN_GBS ≠ 0) && decide (d.mode.role ≠ .shore) && decide (d.mmu.reclaim = .idle) &&
              !d.shadowed ctx.val p) <| moveChecked h home pageBytes (all [tallyClass 6 pageBytes,
            modPage ctx.val v fun q => { q with home := some home },
            editLeaf ctx.val v (· ||| 0x80), countHomes]) (discardGuest ctx.val)
        | _, _ => .done)
    | none => .done

/-- A saved program resumes (R265): its guest is admitted, and every tile of it is free. -/
def execGuestResume (ctx : Fin 64) (s : State) : Host.Outcome State Fault Refusal :=
  s.runUp <| .look fun d =>
    let admitted := d.mmu.guests.any fun g => decide (g.ctx = ctx.val) && !g.held
    match d.mmu.programs.find? fun p => decide (p.ctx = ctx.val) && p.saved with
    | some p =>
      when ((admitted || decide (ctx.val = 3)) && (d.mode.guestOn || decide (ctx.val = 3)) && p.tiles.all fun n => decide (n ∈ d.freeTiles)) <|
       if !(p.tiles.all d.imageOk) then .seq (integrityOwn 2) (discardGuest ctx.val) else all [
        each p.tiles fun n => restoreTile n (if ctx.val = 3 then oSERVICE else oGUEST) ctx.val,
        modMmu fun m => { m with programs := m.programs.map fun q => if q = p then { q with saved := false } else q },
        each p.tiles fun n => startTile n]
    | none => .done

end Sys2Proof.Machine
end

