-- ==== Sys2Proof/Machine/DmaUnit.lean ====
section
/-! DEFINITION. Family: DMA channels and descriptors (R256 to R263). -/

namespace Sys2Proof.Machine

/-- A write of DMA_CHn_CTRL (Table 9.21): EN = 1 resumes the channel at its ring HEAD; STOP is ordered for a channel that
serves its ring. In QUARANTINE no channel starts (Table 1.3, R26): BUSY. -/
def writeDmaCtrl (n : Nat) (v : W64) : Prog :=
  .look fun d =>
    let was := d.on (DMA_CTRL_EN n)
    if !was ∧ (DMA_CTRL_EN n).of v = 1 ∧ d.mode.role = .quarantine then complete stBUSY else all [
      put (DMA_CTRL_CLASS n) ((DMA_CTRL_CLASS n).of v), put (DMA_CTRL_RSIZE n) ((DMA_CTRL_RSIZE n).of v),
      put (DMA_CTRL_EN n) ((DMA_CTRL_EN n).of v),
      when (!was && decide ((DMA_CTRL_EN n).of v = 1)) (put (DMA_CTRL_STOPPED n) 0),
      when (was && decide ((DMA_CTRL_STOP n).of v = 1)) (put (DMA_CTRL_STOP n) 1),
      complete stOK]

/-- EN = 1 written (R261). -/
def execDmaEnWrite (n : ChanId) (v : W64) (s : State) : Host.Outcome State Fault Refusal :=
  s.runUp (when (decide ((DMA_CTRL_EN n.val).of v = 1)) (writeDmaCtrl n.val v))

/-- STOP = 1 written (R263). -/
def execDmaStop (n : ChanId) (v : W64) (s : State) : Host.Outcome State Fault Refusal :=
  s.runUp (when (decide ((DMA_CTRL_STOP n.val).of v = 1)) (writeDmaCtrl n.val v))

/-- The channel stops at a fragment boundary (R263): PROGRESS stands in its descriptor; a held transfer is withdrawn
(R254). -/
def stopChannel (n : Nat) : Prog :=
  .look fun d => when (d.on (DMA_CTRL_STOP n)) (all [
    withdraw (.chan n), modChan n fun c => { c with started := false, held := false, after := 0 },
    put (DMA_CTRL_STOPPED n) 1, put (DMA_CTRL_STOP n) 0, put (DMA_CTRL_EN n) 0, put (DMA_STAT_BUSY n) 0])

/-- A write of TAIL posts descriptors (R256). -/
def execDmaTailWrite (n : ChanId) (v : W64) (s : State) : Host.Outcome State Fault Refusal :=
  s.runUp (.seq (put (DMA_PTR_TAIL n.val) ((DMA_PTR_TAIL n.val).of v)) (complete stOK))

/-- Whether a requester's transfers go on: a channel enabled, a tile that runs, and no fault that holds it. -/
def Dev.serving (d : Dev) : Requester → Bool
  | .chan n => !(d.on TAL_HALT_HALTED) && d.on (DMA_CTRL_EN n) && !(d.chan n).held
  | .desc n k => decide ((d.tile n).state = tRUNNING) && !(d.tile n).faulting &&
      (match (d.tile n).descs[k]? with | some j => !j.held | none => false)
  | .move _ _ => false

/-- Whether it has been told to stop. -/
def Dev.stopping (d : Dev) : Requester → Bool
  | .chan n => d.on (DMA_CTRL_STOP n)
  | .desc n _ | .move n _ => (d.tile n).on TLE_CTRL_STOP

/-- The fragments that it has delivered since (R263). -/
def Dev.afterStop (d : Dev) : Requester → Nat
  | .chan n => (d.chan n).after
  | .desc n k => ((d.tile n).descs[k]?).map (·.after) |>.getD 0
  | .move _ _ => 0

/-- One more of them. -/
def countAfter (r : Requester) : Prog :=
  match r with
  | .chan n => modChan n fun c => { c with after := c.after + 1 }
  | .desc n k => modTile n fun t => { t with descs := t.descs.modify k fun j => { j with after := j.after + 1 } }
  | .move _ _ => .done

/-- Whether it has a descriptor begun. -/
def Dev.begun (d : Dev) : Requester → Bool
  | .chan n => (d.chan n).started
  | .desc n k => ((d.tile n).descs[k]?).any (·.started)
  | .move _ _ => false

/-- Whether a channel stands within a chain whose head it has served. -/
def inChain (c : Chan) : Bool := decide (c.cur ≠ c.entry)

/-- A channel or a tile's DESC takes its next descriptor, checks it and begins its transfer (R257, R258). A channel within a chain goes on
there while the chain's ring entry stands as the engine left it, with DONE = 1, and takes the entry anew once software has rewritten it
(R261). -/
def execDmaDescriptor (r : Requester) (s : State) : Host.Outcome State Fault Refusal :=
  s.runUp <| .look fun d =>
    when (d.serving r && !d.stopping r && !d.begun r) <|
      match r with
      | .chan n =>
        let head := d.get (DMA_PTR_HEAD n)
        let ent := d.ringEntry n head
        if (d.chan n).entry = ent ∧ inChain (d.chan n) ∧ (Desc.ofBytes (d.bytes ent 64)).doneBit then beginDescriptor r
        else if head = d.get (DMA_PTR_TAIL n) then .done
        else .seq (modChan n fun c => { c with entry := ent, cur := ent }) (beginDescriptor r)
      | _ => beginDescriptor r

/-- One fragment is delivered (R260); of a requester told to stop, one of the at most 16 in flight (R263). -/
def execDmaFragmentDone (r : Requester) (s : State) : Host.Outcome State Fault Refusal :=
  s.runUp <| .look fun d => when (d.serving r && d.begun r) <|
    if d.stopping r then when (decide (d.afterStop r < 16)) (.seq (countAfter r) (doFragment r)) else doFragment r

end Sys2Proof.Machine
end

