-- ==== Sys2Proof/Machine/ShoreOps.lean ====
section
/-! DEFINITION. The shore controller of a member (R101 to R130): declarations, the rewind, promotion, admission and
handback. -/

namespace Sys2Proof.Machine

/-! ## Phases (Table 4.10) and causes -/

def phIDLE : Nat := 0
def phFENCING : Nat := 1
def phPROMOTING : Nat := 2
def phLOADING : Nat := 3
def phREWINDING : Nat := 4
def phRUNNING : Nat := 5
def phCOPYING : Nat := 6
def phHANDING : Nat := 7
def phFAILED : Nat := 8

def Dev.phase (d : Dev) : Nat := d.get SHR_STAT_PHASE

/-! ## Lands of a slot -/

/-- SLOT_RESET_N of a slot is driven (Table 11.13). -/
def driveReset (n : Nat) (low : Bool) : Prog :=
  .look fun d => when (decide (d.on (LNK_SB_RESET n) ≠ low)) (.seq (put (LNK_SB_RESET n) low.toNat) (send .land Kind.slotReset [n, low.toNat]))

/-- Every path to a slot's agent that is up. -/
def fenceSlot (n : Nat) : Prog :=
  .look fun d => .seq (when (d.trayUp n) (oSendOn n { ty := 0x43, sb := false } true []))
    (when (d.sbUp n) (oSendOn n { ty := 0x43, sb := true } true []))

/-! ## Prerequisites (Table 4.1) -/

/-- Whether this member holds the position's share of a COMMITTED course. -/
def Dev.holdsShare (d : Dev) (pos : Nat) : Bool := d.lastHeld.any fun h => h.cuts.any (fun c => decide (c.pos = pos)) || h.ents.any fun e => decide (e.pos = pos)

/-- Whether the accelerator of a slot executes the Lathe instruction set, as its HELLO says (R102). -/
def Dev.slotLathe (d : Dev) (n : Nat) : Bool := (d.slot n).id.any fun id => decide (QAG_ID_LATHE.of (BitVec.ofNat 64 id) = 1)

/-- Whether a slot's position may be shored by this Ozmund (R101, R102). -/
def Dev.mayShore (d : Dev) (n : Nat) : Bool :=
  d.slotLathe n && !d.mode.compat && d.on SHR_CTRL_EN && decide (d.mode.role = .watch) && (d.slotsIn sSHORED ++ d.slotsIn sREINT).isEmpty &&
  decide (d.mode.fw = .run) && (d.posOf n).any (·.kernels) && d.on XCN_CTRL_AUTH && d.on XCN_STAT_PGOOD && !(d.on XCN_STAT_ERR) &&
  d.holdsShare (d.slotPos n)

/-! ## Failure of a shoring -/

/-- A shoring that cannot complete (R115, R148): FAILED, and its position is covered beyond the tray. -/
def shoringFails : Prog := .seq positionLost endTransit

/-! ## Declaration (R103 to R105, R113) -/

/-- SPARE_ADDR and SPARE_SLOT as admission took them (R130). -/
def Dev.spareAddr (d : Dev) : Nat := SPR_GROUP_SPARE_ADDR.of d.shore.sprGroup
def Dev.spareSlot (d : Dev) : Nat := SPR_GROUP_SPARE_SLOT.of d.shore.sprGroup

/-- A position is the group spare's from now on: its member and slot. -/
def spareHolds (pos : Nat) : Prog :=
  .look fun d => match d.job.members.findIdx? fun a => decide (a = d.spareAddr) with
    | some i => modJob fun j => { j with positions := j.positions.map fun r => if r.pos = pos then { r with member := i, slot := d.spareSlot } else r }
    | none => .done

/-- A slot's position is covered beyond the tray, and the fabric manager is told (R104, R128); in COMPAT by the group's spare while it is
AVAILABLE: its Ozmund gets the SHORE_NOTICE too (R129). DESIGN CHOICE: TRANSIT stands until ADMIT_ORDER (notes/assumptions/181), and the
copy of the notice is how that Ozmund learns of the position (notes/assumptions/184). -/
def coverSlot (n cause : Nat) : Prog :=
  .look fun d => all [
    modShore fun s => { s with beyond := s.beyond ++ [n] },
    modMode fun m => { m with covering := true },
    coverBeyond [d.slotPos n],
    when (d.mode.compat && decide (d.get SPR_STAT_STATE = 0)) (all [
      put SPR_STAT_STATE 1, put SPR_STAT_POSITION (d.slotPos n), notify d.spareAddr nSHORE_NOTICE (d.noticeBytes (d.slotPos n) n cause)])]

/-- The Ozmund sets out to take the position (R113): the shoring's slot, and guest work stopped and reclaimed. -/
def startShoring (n : Nat) : Prog :=
  .look fun d => all [
    put SHR_STAT_PHASE phFENCING, put SHR_STAT_SLOT n, put SHR_STAT_PASS 0, put SHR_POS_POSITION (d.slotPos n),
    modShore fun s => { s with slot := some n, declaredAt := d.clk, fenceOver := false, moved := false, retried := false, promoted := false,
                               loaded := false, done_ := [], repoints := [], repointsMade := [], counted := false },
    beginTransit .shore, reclaimGuests]

/-- t₀ of R29 for a declaration at a moment: for a missed heartbeat, FATAL or loss of power-good the earliest of the three. -/
def Dev.declareTime (d : Dev) (n cause now : Nat) : Nat :=
  if 1 ≤ cause ∧ cause ≤ 3 then ((Store.find? d.shore.firstMiss n).toList ++ (Store.find? d.shore.fatalAt n).toList).foldl min now else now

/-- Declares a LIVE slot failed with a cause. Two declared on the same tick: the lower slot is shored, if it may be (R25). -/
def declare_ (n cause now : Nat) : Prog :=
  .look fun d =>
    when (decide (d.slotState n = sLIVE)) <|
      let t0 := d.declareTime n cause now
      let same := d.shore.slot.filter fun m => decide (d.shore.declaredAt = d.clk) && decide (n < m) && decide (d.phase = phFENCING) && d.mayShore n
      all [
        setSlot n sFENCED, fenceSlot n,
        put SHR_STAT_CAUSE cause, put SHR_T0_TIME t0, takeShrCfg,
        modShore fun s => { s with fencing := s.fencing ++ [n], slots := Store.remove s.slots n, firstMiss := Store.remove s.firstMiss n,
                                   declared := some (match s.declared with | some t => min t t0 | none => t0) },
        modShore fun s => { s with inPlace := Store.remove s.inPlace n, deadlines := Store.remove s.deadlines n },
        raise SHR_EVT_DECLARED,
        record 0x06 cause (pack [(1, n), (4, d.slotPos n), (8, t0)]),
        when (!(bitOf (d.get CRS_STAT_DONE) n)) (abandonHere vFENCE true),
        shoreNotice (d.slotPos n) n cause,
        (match same with
          | some m => .seq (coverSlot m cause) (startShoring n)
          | none =>
            if d.mayShore n && d.shore.slot.isNone then
              (if d.mode.transit.isSome ∨ d.mode.faultWaits then modMode fun m => { m with waiting := m.waiting ++ [.shore n] } else startShoring n)
            else .seq (coverSlot n cause) (when (d.on XCN_DETOUR_ACTIVE) (xcnQueue (.detour (d.get XCN_DETOUR_ASLOT) false))))]

/-- A declaration at this moment. -/
def declareNow (n cause : Nat) : Prog := .look fun d => declare_ n cause d.podTime

/-- The fence of the slot to be shored has ended: its position comes to the Ozmund, and the crossconnect is told to move (R115, R117). -/
def takeOver (n : Nat) : Prog :=
  .look fun d => when (decide (d.shore.slot = some n) && decide (d.phase = phFENCING)) (all [
    enterRole .shore false, put HUB_ROLE_SHORE_SLOT n, setSlot n sSHORED,
    put SHR_STAT_PHASE phPROMOTING,
    modShore fun s => { s with fenceOver := true },
    xcnMove n true])

/-- The fence of a declared slot ends (R104, R115, R117): the slot is held in reset, and the position of a shoring comes to
the Ozmund, with the crossconnect told to move. -/
def fenceEnds (n : Nat) : Prog :=
  .look fun d =>
    when (d.shore.fencing.contains n) (all [
      modShore fun s => { s with fencing := s.fencing.filter fun m => decide (m ≠ n) },
      driveReset n true,
      takeOver n,
      slotE2 n rcDECLARE])

/-! ## The rewind (R109 to R111) -/

/-- The restore course as this member holds it. -/
def Dev.restoring (d : Dev) : Option Held := d.shore.plan.bind fun p => d.course.held.find? fun h => decide (h.course = p.course)

/-- Sends REWOUND for the plan in force, once. -/
def sendRewound (result : Nat) : Prog :=
  .look fun d => match d.shore.plan with
    | none => .done
    | some p => when (!d.shore.rewoundSent) (.seq (modShore fun s => { s with rewoundSent := true })
        (toRoot nREWOUND (pack [(4, p.num), (2, d.get CRS_ROOT_MEMBER), (1, result), (1, 0)])))

/-- Whether the shored position, if there is one, is ready under R117: loaded, its crossconnect move settled, and guest reclaim ended. -/
def Dev.shoreReady (d : Dev) : Bool := d.shore.slot.isNone || (d.shore.loaded && d.shore.moved && (decide (d.mmu.reclaim = .idle) || decide (d.mmu.reclaim = .ended)))

/-- The types of the messages that load an agent and that it answers (Tables 13.5 and 4.2): BIND, LOAD, REG_WR, MKEY, WIT_KEY and
COUNTER_SET. -/
def isLoad (ty : Nat) : Bool := decide (ty ∈ [0x02, 0x04, 0x08, 0x20, 0x21, 0x31])
/-- Such messages to a slot that have not been answered. -/
def Dev.loading (d : Dev) (n : Nat) : Bool := (d.slot n).reqs.any fun r => isLoad r.ty

/-- Whether a slot that a rewind is to hand back holds the restore course (R127). -/
def Dev.handbackLoaded (d : Dev) : Bool :=
  d.shore.handback.all fun h => h.live || decide (h.step ≠ .boundary) || (decide (h.course = d.shore.plan.map (·.course)) && !(d.loading h.slot))

/-- The slots that a rewind sets and admits: the LIVE ones, and a group spare that takes a position (R129). -/
def Dev.rewindSlots (d : Dev) : List Nat := d.live ++ (d.shore.cover.toList.filter fun c => c.bound && decide (d.slotState c.slot = sIDLE)).map (·.slot)

/-- Whether every slot whose position is covered beyond the tray has been covered (R111): by the group spare, in COMPAT (R129). In NATIVE the
replacement that joins as this member sends REWOUND in its stead (R128). -/
def Dev.beyondCovered (d : Dev) : Bool :=
  d.shore.beyond.all fun n => decide (d.slotPos n = noPos) || (d.mode.compat && decide (d.get SPR_STAT_STATE = 1) && decide (d.get SPR_STAT_POSITION = d.slotPos n))

/-- REWOUND, once every LIVE slot is set, the shored position is ready, and a spare that takes a position is loaded and set. -/
def checkRewound : Prog :=
  .look fun d =>
    when (!d.shore.admitted && d.shore.plan.isSome && d.shoreReady && d.beyondCovered && d.handbackLoaded && (d.shore.cover.all fun c => c.bound) &&
      (!d.start.joining || decide (d.get HUB_START_PHASE = 5)) && d.rewindSlots.all fun n => decide (Store.find? d.shore.slots n = some .set)) (sendRewound 0)

/-! ## Admission -/

/-- ADMIT to a slot at a step under a mark course, with the keys and the witness schedule before it (R111, R141, R147). -/
def admitSlot (n step mark : Nat) : Prog :=
  .look fun d => all [
    when (!((d.slot n).keys.contains mark)) (sendKey n mark),
    sendSelector n d.wit.rewind step,
    sendSchedule n,
    oReq n 0x05 step (pack [(4, mark), (4, 0)])]

/-- The witness key of an admission, and what the steps before it left (R141, R146). -/
def admitWitness (num : Nat) : Prog := modWit fun w => { w with rewind := num, expected := [], early := [], owed := [] }

/-- A slot that has been admitted at a step. WIT_SLOT_EVn.TOTAL counts from here (Table 5.18, notes/assumptions/176). -/
def slotAdmitted (n step : Nat) : Prog :=
  all [modCourse fun c => { c with steps := Store.insert c.steps n step },
    modWit fun w => { w with since := Store.insert w.since n step },
    put (WIT_SLOT_EV_TOTAL n) 0,
    .look fun d => modShore fun s => { s with
      misses := Store.remove s.misses n, firstMiss := Store.remove s.firstMiss n, inPlace := Store.remove s.inPlace n, slots := Store.remove s.slots n,
      deadlines := if n < 8 then Store.insert s.deadlines n (d.clk + 770000) else s.deadlines }]

/-- The shored position is admitted at a step (R111, R117): its lead rank starts, and time-to-resume ends. -/
def admitShored (step mark : Nat) : Prog :=
  .look fun d => match d.shore.slot with
    | none => .done
    | some n => when (d.shore.loaded && d.shore.moved) (all [
        openWindow,
        witnessAs n,
        modWit fun w => { w with mxNext := 0, rdNext := 0 },
        modAgent localAgent fun a => { (a.set QAG_STEP_STEP step).set QAG_STATE_CSTATE 0 with markKey := d.keyOf mark, markSlot := mark },
        each ((List.range 256).filter fun t => decide ((d.tile t).owner = oJOB)) fun t =>
          modTile t fun x => if d.on TAL_HALT_HALTED then x.started.set TLE_STAT_STATE tHALTED else x.started,
        put SHR_STAT_PHASE phRUNNING, put SHR_TADMIT_TIME d.podTime, endTransit,
        when (!d.shore.counted) (.seq (bump SHR_COUNT_SHORINGS) (modShore fun s => { s with counted := true })),
        slotAdmitted n step,
        record 0x07 0 (pack [(4, d.slotPos n), (4, d.get SHR_REWIND_NUMBER), (8, d.podTime - d.get SHR_T0_TIME)])])

/-- The handback ends before its point of no return (R126): the crossconnect goes back if it has moved, the agent is
released, the slot is held in reset and SHORED again, and the position resumes; one that a rewind was to hand back is
admitted itself at the restore step. A position that is being rewound meanwhile goes on being promoted. -/
def handbackFails : Prog :=
  .look fun d => match d.shore.handback with
    | none => .done
    | some h =>
      let back := !d.shore.admitted && (decide (d.phase = phPROMOTING) || decide (d.phase = phLOADING) || decide (d.phase = phREWINDING))
      all [
        modShore fun s => { s with handback := none },
        when h.moved (xcnMove h.slot true),
        when (decide (h.step = .copying) || decide (h.step = .boundary) || decide (h.step = .admitting)) (oReq h.slot 0x03 0),
        driveReset h.slot true,
        modPort h.slot fun p => { p with held := false },
        setSlot h.slot sSHORED,
        put SHR_CTRL_HANDBACK 0, raise SHR_EVT_HANDBACK,
        if back then checkRewound
        else .seq (each ((List.range 256).filter fun t => decide ((d.tile t).owner = oJOB) && (decide ((d.tile t).state = tSTOPPED) || (d.tile t).on TLE_CTRL_STOP)) fun t =>
          modTile t fun x => if x.state = tSTOPPED then x.resumed else x.set TLE_CTRL_STOP 0) (put SHR_STAT_PHASE phRUNNING),
        when (!h.live && decide (h.step = .admitting)) (admitShored h.at_ ((d.shore.plan.map (·.mark)).getD 0))]

/-! ## Shards of the restore course -/

/-- The next source of a shard that is not whole here (R99): the partner's far copy, or the members that store its replica
group; of a position that a spare here takes, the declaring member and its partner first (R129). -/
def Dev.shardSources (d : Dev) (e : MEnt) : List Nat :=
  (match d.shore.cover.filter fun c => decide (c.pos = e.pos) with
    | some c => [c.member, d.partnerOf c.member]
    | none => if (bitOf e.flags 2 || d.farToo e) && decide (d.mode.partner ≠ .solo) then [d.partnerAddr] else []) ++
    (match d.job.groups.find? fun g => decide (e.group ≠ 0) && decide (g.id = e.group) with
      | some g => (d.groupOthers g).filterMap fun m => d.job.members[m]?
      | none => [])

/-- Whether a stored shard is whole: readable, every block agrees with its check, and its SHA-256 is the manifest's. -/
def Dev.shardWhole (d : Dev) (e : MEnt) : Bool :=
  d.storedOk e.loc e.len && ((List.range e.len).all fun b => d.blockOk (e.loc + 4096 * b)) &&
    decide (digest (d.physBytes e.loc (e.len * 4096)) = e.sha)

/-- SHARD_WANT to the first source; NOSOURCE where there is none (R109). -/
def fetchShard (e : MEnt) : Prog :=
  .look fun d => match d.shardSources e with
    | a :: _ => notify a 0x33 (pack [(4, e.course), (4, 0)] ++ e.sha)
    | [] => sendRewound 2

/-- The shards of a slot that its map R touches, with their entries in the restore course. -/
def Dev.toReload (d : Dev) (n : Nat) : List (Shard × Option MEnt) :=
  let m := (Store.find? d.course.latest n).getD []
  ((d.shards n).filter fun s => s.granules.any (mapBit m)).map fun s => (s, d.restoring.bind fun h => h.entFor (d.slotPos n) s)

/-- Reloads a slot's granules from the restore course (R109, steps 4 and 5); shards that are not whole are fetched first. -/
def reloadSlot (n : Nat) : Prog :=
  .look fun d =>
    let xs := d.toReload n
    let bad := xs.filter fun x => !(x.2.any d.shardWhole)
    let m := (Store.find? d.course.latest n).getD []
    if bad.isEmpty then all [
      each xs fun x => each (x.1.granules.filter (mapBit m)) fun g =>
        (match x.2, (d.slotTable n).granAt g with
          | some e, some (base, blocks) => .look fun d => loadBytes n base (d.physBytes (e.loc + (g - x.1.first) * 0x200000) (blocks * 4096))
          | _, _ => .done),
      oReq n 0x45 0,
      modShore fun s => { s with slots := Store.insert s.slots n .loading }]
    else each bad fun x => match x.2 with
      | some e => .seq (checkShard e) (fetchShard e)
      | none => sendRewound 2

/-- The step of a slot in the rewind. -/
def setRStep (n : Nat) (r : RStep) : Prog := modShore fun s => { s with slots := Store.insert s.slots n r }

/-- FENCE_DONE of a slot in a rewind (R109, step 3). -/
def rewindFenced (n : Nat) : Prog :=
  .look fun d => all [modShore fun s => { s with lastFence := d.clk }, setRStep n .mapping, oReq n 0x1A 0]

/-- A slot begins to be rewound: COMMIT_NOTE when it knows an older course, then FENCE. A slot that fenced itself and has
sent FENCE_DONE sends it no more (R57). -/
def fenceForRewind (p : Plan) (n : Nat) : Prog :=
  .look fun d => all [when (decide ((d.slot n).noted ≠ p.course)) (commitNote n p.course), setRStep n .fencing, fenceSlot n,
    when (decide (Store.find? d.shore.inPlace n = some true)) (rewindFenced n)]

/-- The stored shards of a slot's position in a held course are loaded, each of them whole (R137). -/
def loadShards (n pos : Nat) (x : Held) : Prog :=
  each (sortEnts (x.ents.filter fun e => decide (e.pos = pos))) fun e => .look fun d =>
    match (d.table pos).region e.region with
    | some r => loadBytes n (r.base + e.offset) (d.physBytes e.loc (e.len * 4096))
    | none => .done

/-- The step context record of a position in a held course. -/
def Held.ctxOf (x : Held) (pos : Nat) : List Byte := ((x.cuts.find? fun c => decide (c.pos = pos)).map (·.ctx)).getD []

/-- A slot that a rewind is to hand back is loaded from a course (R127); shards that are not whole are fetched first, and with no source for
one the handback fails, or the rewind in progress. -/
def loadHandback (h : Handback) (x : Held) : Prog :=
  .look fun d =>
    let pos := d.slotPos h.slot
    let bad := x.ents.filter fun e => decide (e.pos = pos) && !(d.shardWhole e)
    if !bad.isEmpty then each bad fun e => .seq (checkShard e)
      (.look fun d => if (d.shardSources e).isEmpty ∧ d.shore.admitted then handbackFails else fetchShard e)
    else all [
      modShore fun s => { s with handback := some { h with course := some x.course } },
      loadShards h.slot pos x,
      commitNote h.slot x.course,
      sendContextRegs h.slot (x.ctxOf pos),
      sendCounters h.slot fun i => d.planValue pos i x.step]

/-- This tray's spare is to take a position (R129). -/
def takeCover (pos src : Nat) : Prog :=
  .look fun d => all [modShore fun s => { s with cover := some { pos := pos, slot := d.spareSlot, member := src } }, spareHolds pos,
    put SPR_STAT_STATE 1, put SPR_STAT_POSITION pos]

/-- The tray manifest of the restore course is asked for where a spare here takes a position whose share has not been taken in (R129). -/
def askCover (p : Plan) : Prog :=
  .look fun d => match d.shore.cover with
    | some c => when (decide (d.slotState c.slot = sIDLE) && !c.bound && !(d.restoring.any fun h => h.ents.any fun e => decide (e.pos = c.pos)))
        (match d.job.members.findIdx? fun a => decide (a = c.member) with
          | some i => notify c.member nMANIFEST_WANT (pack [(4, p.course), (2, i), (2, 0)])
          | none => .done)
    | none => .done

/-- The shard of a spare's position is whole in all its entries: the spare is bound and loaded, and takes part in the rewind (R128, R129). -/
def loadCover : Prog :=
  .look fun d => match d.shore.cover, d.shore.plan, d.restoring with
    | some c, some p, some h =>
      let es := h.ents.filter fun e => decide (e.pos = c.pos)
      when (!c.bound && !d.shore.admitted && !es.isEmpty && es.all d.shardWhole) (all [
        modShore fun s => { s with cover := some { c with bound := true } },
        oReq c.slot 0x02 0 (leBytes 8 p.step),
        sendRegions c.slot, sendSchedule c.slot,
        loadShards c.slot c.pos h,
        commitNote c.slot h.course,
        setRStep c.slot .loaded])
    | _, _, _ => .done

/-- A spare cannot take the position (R128): the member answers the rewind with FAULT, and the slot is released. -/
def coverFails : Prog :=
  .look fun d => match d.shore.cover with
    | some c => all [oReq c.slot 0x03 0, modShore fun s => { s with cover := none, slots := Store.remove s.slots c.slot }, put SPR_STAT_STATE 3, sendRewound 1]
    | none => .done

/-- A rewind plan reaches a member (R109, R111). Work already done for the plan it supersedes stands; the same plan from the same root changes
nothing, and one from a newly named root is answered again. -/
def takePlan (p : Plan) : Prog :=
  .look fun d =>
    let goesOn := !d.shore.admitted && decide (d.shore.plan.map (·.course) = some p.course)
    when (decide (d.shore.planTaken ≠ some (p.num, d.get CRS_ROOT_ADDR))) <| all [
      when (d.inCourse && decide (d.cur = p.course)) commitHere,
      when (d.inCourse && decide (d.cur ≠ p.course)) (abandonHere vORDER false),
      put SHR_REWIND_NUMBER p.num, put SHR_POS_RCOURSE p.course, put SHR_STEP_STEP p.step,
      when (d.shore.declared.isNone && !d.isRoot && !(bitOf p.flags 0)) takeShrCfg,
      modShore fun s => { s with plan := some p, planTaken := some (p.num, d.get CRS_ROOT_ADDR), sentNotices := [], rewoundSent := false, admitted := false,
                                 slots := if goesOn then s.slots else [],
                                 cover := if goesOn then s.cover else s.cover.map fun c => { c with bound := decide (d.slotState c.slot ≠ sIDLE) } },
      .look fun d => all [
        when (d.shore.slot.isNone && decide (d.phase = phIDLE)) (put SHR_STAT_PHASE phREWINDING),
        when (d.shore.slot.isSome && (decide (d.phase = phRUNNING) || decide (d.phase = phCOPYING))) (all [
          fenceWindow,
          each ((List.range 256).filter fun t => decide ((d.tile t).owner = oJOB) && decide ((d.tile t).state = tRUNNING)) fun t =>
            modTile t fun x => x.set TLE_CTRL_STOP 1,
          put SHR_STAT_PHASE phPROMOTING,
          modShore fun s => { s with promoted := false, loaded := false, done_ := [] }]),
        when (d.shore.slot.isSome && !goesOn) fenceWindow,
        each (d.live.filter fun n => (Store.find? d.shore.slots n).isNone) (fenceForRewind p)],
      (match d.shore.handback with
        | some h => .look fun d => match d.restoring with
          | some x => when (!h.live && decide (h.step = .boundary) && decide (h.course ≠ some x.course)) (loadHandback h x)
          | none => .done
        | none => .done),
      askCover p, loadCover,
      checkRewound]

/-- Cursors, streams and counters of the slots that are loaded, once FLIGHT_US has passed since the last FENCE_DONE (R110). -/
def setSlots : Prog :=
  .look fun d => match d.shore.plan, d.restoring with
    | some p, some h =>
      each (d.rewindSlots.filter fun n => decide (Store.find? d.shore.slots n = some .loaded)) fun n => all [
        sendContextRegs n (h.ctxOf (d.boundPos n)),
        sendCounters n fun i => d.planValue (d.boundPos n) i p.step,
        setRStep n .setting]
    | _, _ => .done

/-- The group spare has taken the position of a slot here, which holds it no more (R18, R129). -/
def positionMoved : Prog :=
  .look fun d => .seq
    (each ((List.range 8).filter fun n => decide (d.slotPos n = d.get SPR_STAT_POSITION) && decide (d.slotState n ≠ sLIVE)) fun n =>
      put (HUB_SLOT_POSITION n) noPos)
    (spareHolds (d.get SPR_STAT_POSITION))

/-- ADMIT_ORDER at a member (R111). A rewind that ends later than t₀ + 1.5 s sets OVER_BUDGET (R118). -/
def takeAdmit (num step : Nat) : Prog :=
  .look fun d => match d.shore.plan with
    | none => .done
    | some p => when (decide (p.num = num) && !d.shore.admitted) (all [
        admitWitness num,
        each (d.rewindSlots.filter fun n => decide (Store.find? d.shore.slots n = some .set)) fun n => all [
          put (HUB_SLOT_POSITION n) (d.boundPos n), setSlot n sLIVE, setRStep n .admitting, admitSlot n step p.mark],
        when (d.shore.declared.any fun t => decide (t + msTicks 1500 < d.podTime)) (raise SHR_EVT_OVER_BUDGET),
        modShore fun s => { s with admitted := true, declared := none },
        modMode fun m => { m with covering := false },
        when (decide (d.phase = phREWINDING)) (put SHR_STAT_PHASE phIDLE),
        (match d.shore.handback with
          | some h => if !h.live ∧ h.step = .boundary then .seq (modShore fun s => { s with handback := some { h with step := .admitting, moved := true, at_ := step } }) (.seq (put SHR_STAT_PHASE phHANDING) (xcnMove h.slot false))
              else admitShored step p.mark
          | none => admitShored step p.mark),
        when (decide (d.get SPR_STAT_STATE = 1)) (.seq (put SPR_STAT_STATE 2) positionMoved),
        raise SHR_EVT_ADMITTED])

/-! ## Promotion (R116, R117) -/

/-- The entries of the shored position in the restore course, the ARCH region first, then in manifest order. -/
def Dev.promotionList (d : Dev) : List MEnt :=
  match d.shore.slot, d.restoring with
  | some n, some h =>
    let es := sortEnts (h.ents.filter fun e => decide (e.pos = d.slotPos n))
    let arch (e : MEnt) : Bool := ((d.slotTable n).region e.region).any (·.arch)
    es.filter arch ++ es.filter fun e => !(arch e)
  | _, _ => []

/-- The pages of context 1 that are not yet mapped among those that a shard covers. -/
def Dev.unmapped (d : Dev) (base blocks : Nat) : List Nat :=
  (((List.range ((blocks + 511) / 512)).map fun i => base + i * pageBytes)).filter fun va => (d.leafOf 1 va).isNone

/-- A shard of the shored position is asked for from its next source (R99); with none the shoring fails (Table 4.4). -/
def otherSource (e : MEnt) : Prog :=
  .look fun d => match d.shardSources e with
    | a :: _ => notify a 0x33 (pack [(4, e.course), (4, 0)] ++ e.sha)
    | [] => .seq shoringFails (sendRewound 2)

/-- Promotes one shard when it is whole and its pages can be had; one that is not whole is fetched from its next source. -/
def promoteShard (n : Nat) (e : MEnt) : Prog :=
  .look fun d =>
    match (d.slotTable n).region e.region with
    | none => .done
    | some r =>
      let va := r.base + e.offset
      if d.shore.done_.contains (e.region, e.shard) then .done
      else if !(d.shardWhole e) then .seq (checkShard e) (otherSource e)
      else .seq (each (d.unmapped va e.len) mapJobPage) (.look fun d =>
        when (d.unmapped va e.len).isEmpty (all [
          each (List.range ((e.len + 511) / 512)) fun i => .look fun d =>
            (match d.jobPhys (va + i * pageBytes) with
              | some pa => .seq (tallyClass 1 (min 512 (e.len - 512 * i) * 4096)) (copyPhys (e.loc + i * pageBytes) pa (min 512 (e.len - 512 * i) * 4096))
              | none => .done),
          modShore fun s => { s with done_ := s.done_ ++ [(e.region, e.shard)] }]))

/-- Promotion, as far as the restore course and the pages allow (R116). -/
def promote : Prog :=
  .look fun d => match d.shore.slot with
    | none => .done
    | some n => when (d.shore.fenceOver && decide (d.phase = phPROMOTING)) (all [
        modAgent localAgent fun _ => d.slotTable n,
        each d.promotionList (promoteShard n)])

/-- Whether every shard has been promoted. -/
def Dev.promotionOver (d : Dev) : Bool :=
  d.shore.fenceOver && decide (d.phase = phPROMOTING) && d.restoring.isSome &&
    d.promotionList.all fun e => d.shore.done_.contains (e.region, e.shard)

/-- Tiles for a position's kernels: free, not witness tiles; with PAIRED, even tiles whose twins are free too (R148). -/
def Dev.kernelTiles (d : Dev) : List Nat :=
  if d.on SHR_CTRL_PAIRED then d.freeTiles.filter fun n => decide (n % 2 = 0) && d.freeTiles.contains (n + 1) else d.freeTiles

/-- Loads the position's kernels (R117, steps 1, 2 and 4): each rank on its tile, and on its twin's when paired; the context
image of the lead holds the restored step context. -/
def loadKernels (n : Nat) (ctx : List Byte) : Prog :=
  .look fun d =>
    let images := ((d.posOf n).bind fun p => d.job.images[p.program]?).getD []
    let old := (List.range 256).filter fun t => decide ((d.tile t).owner = oJOB)
    .seq (each old fun t => .seq (modTile t fun x => x.set TLE_STAT_STATE tIDLE) (freeTile t)) (.look fun d =>
      let tiles := d.kernelTiles.take images.length
      if tiles.length < images.length then shoringFails
      else
        let pair := d.on SHR_CTRL_PAIRED
        let load (e : List Byte × Nat) : Prog :=
          let i := (parseImage e.1).2
          let body := (e.1.drop 128).take i.body
          let body := if i.lead then (body.take i.ctx) ++ (ctx.drop 64 ++ List.replicate 8320 0).take 8320 ++ body.drop (i.ctx + 8320) else body
          loadTile e.2 oJOB 1 i body
        all [
          each (images.zip tiles) load,
          when pair (each (images.zip (tiles.map (· + 1))) load),
          when pair (each tiles fun t => .seq (modTile t fun x => x.set TLE_STAT_PAIRED 1) (modTile (t + 1) fun x => x.set TLE_STAT_PAIRED 1)),
          modMmu fun m => { m with programs := (m.programs.filter fun p => decide (p.ctx ≠ 1)) ++
            [{ ctx := 1, session := 16, tiles := tiles, twins := if pair then tiles.map (· + 1) else [] }] },
          modShore fun s => { s with loaded := true }])

/-- A live handback begins its copy anew once the position has been rewound: what was restored is written to no page that D marks (R125). -/
def recopy : Prog :=
  .look fun d => match d.shore.handback with
    | some h => when (h.live && (decide (h.step = .copying) || decide (h.step = .boundary))) (all [
        put SHR_STAT_PASS 0, modShore fun s => { s with handback := some { h with step := .copying } },
        copyLocal h.slot (List.range (d.agent localAgent).granCount)])
    | none => .done

/-- The counters of the shored position are set from the plan (R110), once its kernels are loaded and no advance can reach them: not while its
window drains (R269, R279). -/
def shoredCounters : Prog :=
  .look fun d => match d.shore.slot, d.shore.plan with
    | some n, some p => when (d.shore.loaded && decide (d.phase = phLOADING) && decide (d.sync.win ≠ .draining)) (all [
        each (List.range 4096) fun i => .act (.counter i (BitVec.ofNat 64 (d.planValue (d.slotPos n) i p.step))),
        put SHR_STAT_PHASE phREWINDING,
        recopy,
        checkRewound])
    | _, _ => .done

/-- Promotion has ended (R117): kernels, counters and context, and the position is ready. -/
def promotionEnds : Prog :=
  .look fun d => match d.shore.slot, d.restoring, d.shore.plan with
    | some n, some h, some _ =>
      let ctx := h.ctxOf (d.slotPos n)
      all [
        put SHR_STAT_PHASE phLOADING,
        modShore fun s => { s with promoted := true },
        modAgent localAgent fun a => { a with mapR := [], rAll := false, grans := [] },
        eachLocalLeaf fun e => e - e % 128 + e % 64 % 16 + e / 32 % 2 * 32,
        loadKernels n ctx,
        shoredCounters]
    | _, _, _ => .done

/-! ## Handback (R124 to R127) -/

/-- FLIGHT_US has passed since the last FENCE_DONE, and every slot of the rewind has sent its own (R110). -/
def Dev.flightOver (d : Dev) : Bool :=
  !(d.shore.slots.any fun e => decide (e.2 = .fencing)) && decide (d.shore.lastFence + orElse (d.shrCfg SHR_CFG_FLIGHT_US) 100 * 700 ≤ d.clk)

/-- ADMIT has been answered OK (R125): the slot is LIVE, the role becomes WATCH, and the shore reserve is released; where a course cut at the
boundary still drains from the Ozmund's copy, once that has ended. A course that opened meanwhile is armed at the slot. -/
def handbackDone (h : Handback) : Prog :=
  .look fun d => all [
    setSlot h.slot sLIVE, slotAdmitted h.slot h.at_,
    each ((List.range 256).filter fun t => decide ((d.tile t).owner = oJOB)) fun t => .seq (modTile t fun x => x.set TLE_STAT_STATE tIDLE) (freeTile t),
    zeroJobWindow,
    modMmu fun m => { m with programs := m.programs.filter fun p => decide (p.ctx ≠ 1) },
    (if d.inCourse ∧ bitOf (d.get CRS_STAT_CUT) h.slot ∧ !(bitOf (d.get CRS_STAT_DONE) h.slot) then modShore fun s => { s with share := some h.slot }
     else .seq releaseLocal (when (decide (d.kState = kOPENING) && !(bitOf (d.get CRS_STAT_CUT) h.slot)) (armSlot h.slot d.cur (d.get CRS_STEP_STEP)))),
    modShore fun s => { s with handback := none, slot := none, fenceOver := false, moved := false, promoted := false, loaded := false, done_ := [] },
    put SHR_STAT_PHASE phIDLE, put SHR_STAT_PASS 0, put SHR_POS_POSITION noPos, put SHR_CTRL_HANDBACK 0,
    enterRole .watch false, put HUB_ROLE_SHORE_SLOT 0,
    bump SHR_COUNT_HANDBACKS, raise SHR_EVT_HANDBACK]

/-- Changes the handback in progress. -/
def setHandback (h : Handback) : Prog := modShore fun s => { s with handback := some h }

/-- Power-good of the slot is high: its reset is released, its tray port held for the tests (R125, step 1). -/
def handbackPowered (h : Handback) : Prog :=
  .look fun d => all [driveReset h.slot false, modPort h.slot fun p => { p with held := true }, setPort h.slot (d.downState h.slot) 0,
    setHandback { h with step := .hello }]

/-- Starts a handback: the status that answers the request (R124, R125, Tables 4.4 and 4.7). -/
def startHandback (k : Nat → Prog) : Prog :=
  .look fun d => match d.shore.slot with
    | none => k stBUSY
    | some n =>
      if d.slotState n ≠ sSHORED ∨ d.phase ≠ phRUNNING ∨ d.shore.handback.isSome then k stBUSY
      else if d.shrCfg SHR_CFG_HB_LIVE = 1 ∧ !d.job.quiet then k stUNSUPPORTED
      else
        let h : Handback := { slot := n, live := decide (d.shrCfg SHR_CFG_HB_LIVE = 1), step := .power }
        all [
          put SHR_CTRL_HANDBACK 1, setSlot n sREINT, put SHR_STAT_PASS 0, put SHR_STAT_PHASE phCOPYING,
          setHandback h,
          (if d.rst.cycle.contains n then
            .seq (put RST_PWR_EN (d.get RST_PWR_EN / 2 ^ (n + 1) * 2 ^ (n + 1) + d.get RST_PWR_EN % 2 ^ n)) (send .land Kind.slotPower [n, 0])
          else when (!(d.rst.out.contains (uSlot n))) (all [
            put RST_PWR_EN (withBit (d.get RST_PWR_EN) n), send .land Kind.slotPower [n, 1],
            when (bitOf (d.get RST_PWR_PGOOD) n) (handbackPowered h)])),
          k stOK]

/-- A link test begins on a target (R307). -/
def beginTest (target : Nat) : Prog :=
  all [put LNK_TEST_TARGET target, put LNK_TEST_GO 1, put LNK_TEST_DONE 0, put LNK_TEST_PASS 0, put LNK_TEST_ERRORS 0,
    .look fun d => send (.port target) Kind.prbs31 [orElse (d.get LNK_TEST_TEST_MS) 1]]

/-- The tray port has trained (R125, steps 2 and 3; R127): BIND at the shored position's step, the registers, and the first
pass; a rewind handback loads the restore course instead and asks the root for a rewind. -/
def handbackTrained (h : Handback) : Prog :=
  .look fun d =>
    let a := d.agent localAgent
    all [
      oReq h.slot 0x02 0 (leBytes 8 a.step),
      sendRegions h.slot,
      if h.live then .seq (setHandback { h with step := .copying }) (copyLocal h.slot (List.range a.granCount))
      else all [
        setHandback { h with step := .boundary },
        (match d.lastHeld with
          | some x => loadHandback { h with step := .boundary } x
          | none => .done),
        shoreNotice (d.slotPos h.slot) h.slot 0]]

/-- A pass of a live handback has ended (R125, step 3). -/
def handbackPass (h : Handback) : Prog :=
  .look fun d =>
    let k := d.get SHR_STAT_PASS + 1
    let written := d.localDirty.length * pageBytes
    all [put SHR_STAT_PASS k,
      if written ≤ max 1 (d.shrCfg SHR_CFG_FINAL_GIB) * gib ∨ max 1 (d.shrCfg SHR_CFG_PASSES) ≤ k then setHandback { h with step := .boundary }
      else copyLocal h.slot d.localDirty]

/-- The crossconnect has settled for the shore controller: a move to the stand-in ports belongs to a shoring, one back to a
handback, whose ADMIT goes out (R115, R125, step 7). -/
def moveSettled (slot : Nat) (toStandIn : Bool) : Prog :=
  .look fun d =>
    if toStandIn then .seq (modShore fun s => { s with moved := true }) checkRewound
    else match d.shore.handback with
      | some h => when (decide (h.slot = slot) && decide (h.step = .admitting)) (admitSlot slot h.at_
          (if h.live then (d.agent localAgent).markSlot else ((d.shore.plan.map (·.mark)).getD 0)))
      | none => .done

/-- A move of the shore controller has failed (R115): once more, then the shoring ends; a handback ends at once. -/
def moveFailed (slot : Nat) (toStandIn : Bool) : Prog :=
  .look fun d =>
    if toStandIn then
      when (decide (d.shore.slot = some slot) && !d.shore.moved) <|
        if d.shore.retried then shoringFails
        else .seq (modShore fun s => { s with retried := true }) (xcnMove slot true)
    else handbackFails

end Sys2Proof.Machine
end

