-- ==== Sys2Proof/Machine/SlotOps.lean ====
section
/-! DEFINITION. What a member does with what its agents send: events against slots (R149, R150), health watches (R77), slots
that fence themselves (R370), and the placing, storing and comparing of shards (R79 to R85, R142). -/

namespace Sys2Proof.Machine

/-- A command that carries an agent's message. The hub serves agents while its firmware is in RUN (R388); a message of
another version is dropped, one of another epoch dropped and counted (R13). A slot that an Ozmund in QUARANTINE releases answers under the epoch of its
BIND (Table 4.4). -/
def fromAgentIn (teardown : Bool) (n : Nat) (m : QMsg) (exempt : Bool) (k : Prog) : Prog :=
  .look fun d =>
    when (decide (d.mode.fw = .run) && !d.hubFenced && decide (m.ver = 1) && !(d.on (LNK_SB_RESET n)))
      (if !exempt ∧ m.epoch.toNat ≠ d.epoch ∧ !(d.mode.role = .quarantine ∧ d.start.fencing.contains n ∧ m.epoch.toNat = (d.slot n).bound) then bump SYN_COUNT_STALE
       else if !teardown ∧ !exempt ∧ !m.sb ∧ d.lState n = lQUIESCE then bump SYN_COUNT_STALE else k)

/-- Takes any other message from an agent. -/
def fromAgent (n : Nat) (m : QMsg) (exempt : Bool) (k : Prog) : Prog := fromAgentIn false n m exempt k

/-! ## Events against slots -/

/-- An integrity event counted against a slot, with the declaration it may cause (R150): at once where `declare` says so, and
when the slot's count reaches its limit. -/
def slotEvent (cls n pos step : Nat) (ungated : Bool := false) (declareToo : Bool := false) : Prog :=
  .seq (intEvent cls (some n) pos step ungated) (.look fun d =>
    when (declareToo || decide (max 1 (d.get WIT_LIMIT_COUNT) ≤ d.get (WIT_SLOT_EV_WINDOW n))) (declareNow n 4))

/-- The highest step learned from a slot. -/
def Dev.slotStep (d : Dev) (n : Nat) : Nat := Store.get (fun _ => 0) d.course.steps n

/-! ## Health watches (R77, Table 3.5) -/

/-- A health watch of a slot fires, unless it did within HOLDOFF_S: CRS_EVT.EARLY, and EARLY_REQ to the root. The member's
own watches are those of slot 8. -/
def fireHealth (n code : Nat) : Prog :=
  .look fun d =>
    let h := CRS_CFG_HOLDOFF_S.of d.course.cfg * 700000000
    when (!(d.course.fired.any fun f => decide (f.1 = n) && decide (f.2.1 = code) && decide (d.clk < f.2.2 + h))) (all [
      modCourse fun c => { c with fired := (c.fired.filter fun f => !(decide (f.1 = n) && decide (f.2.1 = code))) ++ [(n, code, d.clk)] },
      raise CRS_EVT_EARLY,
      when (d.on CRS_CTRL_EARLY_EN && decide (d.epoch ≠ 0))
        (.seq (tally 1385 1) <| toRoot nEARLY_REQ (pack [(2, d.get CRS_ROOT_MEMBER), (1, code), (1, 0), (8, d.topStep)]))])

/-- A lane of a port that serves a live position has dropped: watch 0x05. -/
def laneWatch (port : Nat) : Prog :=
  .look fun d =>
    let slot := if port < 8 then port else if port = 19 ∧ d.on XCN_DETOUR_ACTIVE then d.get XCN_DETOUR_ASLOT else d.shore.slot.getD 8
    let serves := d.live.contains slot || (decide (8 ≤ port) && decide (port < 20) && d.shoredLive && decide (d.shore.slot = some slot))
    when (serves && d.copt CRS_CTRL_LANE_WATCH) (fireHealth slot 5)

/-- The watches that compare two HEALTH reports of a slot (QAG_HLT0–3). -/
def healthWatches (n : Nat) (old : Option (List Nat)) (new : List Nat) : Prog :=
  .look fun d =>
    let rise (i : Nat) : Nat := match old with | some o => new.getD i 0 - o.getD i 0 | none => 0
    let exceeds (i t : Nat) : Bool := decide (t ≠ 0) && decide (t ≤ rise i)
    let t := d.get CRS_WATCH0_THERM
    all [
      when (exceeds 0 (d.get CRS_WATCH0_CE)) (fireHealth n 1),
      when (exceeds 1 (d.get CRS_WATCH0_FLE)) (fireHealth n 2),
      when (decide (new.getD 2 0 < t) && (match old with | some o => decide (t ≤ o.getD 2 0) | none => true)) (fireHealth n 3),
      when (exceeds 3 (d.get CRS_WATCH0_UE)) (fireHealth n 4)]

/-- Samples that a host pushed as drops (R55, R146), from the rise of QAG_HLT6 beyond the indices that no list held: the
oldest samples expected of the slot are dealt with. DEDUCED: no message names a dropped sample. -/
def hostDrops (n k : Nat) : Prog :=
  .look fun d =>
    let mine := (d.wit.expected.filter fun e => decide (e.1 = n)).take k
    when (decide (k ≠ 0)) (all [bump WIT_COUNT1_DROPPED k,
      modWit fun w => { w with expected := mine.foldl (fun xs e => xs.erase e) w.expected,
                               owed := Store.insert w.owed n ((Store.find? w.owed n).getD 0 + (k - mine.length)) }, tryVote])

/-- Indices selected for a slot in steps a + 1 to b beyond the 4,096 that a list holds (R54). -/
def Dev.unlisted (d : Dev) (n a b : Nat) : Nat :=
  match (d.posOf n).bind fun p => (d.job.witness.find? fun e => decide (e.1 = p.program)).map (·.2) with
  | none => 0
  | some pairs => sumOf (List.range (b - a)) fun i =>
    let s := a + 1 + i
    let e := pairs.getD ((s + 2 ^ 64 - d.job.s0) % 2 ^ 64 % max 1 pairs.length) (0, 0)
    let key := leNat (selectorKey d.job.z d.epoch d.wit.rewind)
    sumOf [(0, e.1), (1, e.2)] fun x =>
      if (d.witSettings n).1 then ((List.range x.2).filter (witSelected key (d.witSettings n).2 x.1 s)).length - 4096 else 0

/-! ## A slot that fences itself (R370) -/

/-- The member learns that a LIVE slot has fenced itself: a rewind in place, or at the E0 limit a declaration. -/
def selfFenced (n : Nat) : Prog :=
  .look fun d =>
    when (decide (d.slotState n = sLIVE) && (Store.find? d.shore.slots n).isNone && (Store.find? d.shore.inPlace n).isNone && !d.start.ordered) <|
      if d.atLimit (uSlot n) 0 then .seq (modRst fun x => { x with above := x.above ++ [n] }) (declareNow n 6)
      else all [
        countReset ⟨uSlot n, 0, rcFENCE_REQ, false⟩,
        modShore fun s => { s with inPlace := Store.insert s.inPlace n false },
        when (!(bitOf (d.get CRS_STAT_DONE) n) && !d.voted) (abandonHere vFENCE true),
        shoreNotice (d.slotPos n) n 5]

/-! ## Placing and storing shards -/

/-- The number of a shard's entry in the tray manifest (R87). -/
def Dev.entryNumber (d : Dev) (s : Shard) : Nat :=
  sumOf (d.taking.filter fun n => decide (d.slotPos n < d.slotPos s.slot)) (fun n => (d.shards n).length) + (d.shards s.slot).findIdx (fun t => decide (t = s))

/-- Gives a shard its place and FILLING entry at its first block (R84, R85); with none to be had the member votes
CAPACITY. -/
def placeShard (s : Shard) (k : Prog) : Prog :=
  .look fun d =>
    if (d.placed s).isSome then k
    else match d.placeFor s, d.freeDir with
      | some (tier, a), some i =>
        let e : DirEnt := ⟨a, tier, 1, s.slot, s.region, s.num, false, false, s.blocks, ((d.groupOf (d.slotPos s.slot) s.region).map (·.id)).getD 0, false⟩
        all [modCourse fun c => { c with dir := Store.insert c.dir i e }, countDir, k]
      | _, _ => when (!d.voted) (abandonHere vCAPACITY true)

/-- The votes and events of replica copies that disagree, by slot and value (R142). -/
def diverge (step : Nat) (copies : List (Nat × Nat)) : Prog :=
  let count (v : Nat) : Nat := (copies.filter fun c => decide (c.2 = v)).length
  let bad := match copies.find? fun c => decide (copies.length < 2 * count c.2) with
    | some c => copies.filter fun x => decide (x.2 ≠ c.2)
    | none => copies
  .look fun d => .seq (when (!d.voted) (abandonHere vDIVERGE true)) (each bad fun c => .look fun d => slotEvent 5 c.1 (d.slotPos c.1) step)

/-- The mark of a slot's copy of a shard, when it is known: of a stored copy, of an agent's answer to MARK_REQ, or, for the
shored position, of its frozen contents. -/
def Dev.copyMark (d : Dev) (s : Shard) (n : Nat) : Option Nat :=
  match d.course.ents.find? fun e => decide (e.pos = d.slotPos n) && decide (e.region = s.region) && decide (e.shard = s.num) with
  | some e => some e.mark
  | none =>
    if !d.copt CRS_CTRL_DEDUP_EN then none
    else if d.remote n then (d.course.marks.find? fun x => decide (x.1 = n) && decide (x.2.1 = s.region) && decide (x.2.2.1 = s.num)).map (·.2.2.2)
    else (d.sameShard s n).map fun t => d.shardMark d.cur (t.granules.map d.localFrozen).flatten

/-- Compares the copies of a group shard on this tray, once all are known (R81): equal ones share the holder's copy under
dedup. -/
def settleShard (s : Shard) : Prog :=
  .look fun d =>
    let ns := d.peersOf s
    let copies := ns.filterMap fun n => (d.copyMark s n).map fun v => (n, v)
    let h := d.course.ents.find? fun e => decide (e.pos = d.slotPos (d.holder s)) && decide (e.region = s.region) && decide (e.shard = s.num)
    when (decide (2 ≤ ns.length) && decide (copies.length = ns.length) && d.inCourse) <|
      if !(allSame (copies.map (·.2))) then diverge (d.get CRS_STEP_STEP) copies
      else match h with
        | some e => each (ns.filter fun n => !(d.course.ents.any fun x => decide (x.pos = d.slotPos n) && decide (x.region = s.region) && decide (x.shard = s.num))) fun n =>
            (match d.sameShard s n with
              | some t => all [tally 1382 1, ackRun t t.granules, addEnt { e with pos := d.slotPos n }]
              | none => .done)
        | none => .done

/-- A shard is complete in its place (R79, R81, R83): hashed, marked, entered in the manifest, and sent to the partner where
R83 asks for a far copy. -/
def shardStored (s : Shard) : Prog :=
  .look fun d => match d.filling s with
    | none => .done
    | some (i, x) =>
      let bs := d.physBytes x.addr (x.len * 4096)
      let far := d.copt CRS_CTRL_FAR_EN && d.paired && !((d.groupOf (d.slotPos s.slot) s.region).any d.groupAway)
      let shared := d.copt CRS_CTRL_DEDUP_EN && decide (2 ≤ (d.peersOf s).length)
      let k := d.entryNumber s
      all [
        modCourse fun c => { c with dir := Store.insert c.dir i { x with state := 3, shared := shared } },
        addEnt (d.entry s x.addr x.tier (d.shardMark d.cur bs) (digest bs) false shared far),
        refreshDir, tally 1380 bs.length,
        when far (withHandle fun h => all [
          tally 1383 bs.length, tallyClass 4 bs.length,
          modCourse fun c => { c with farWait := c.farWait ++ [k] },
          toPartner nFAR_PUT (pack [(4, d.cur), (4, d.epoch), (2, h), (2, 0), (8, bs.length), (4, k)]),
          sendBulk d.partnerAddr h bs]),
        settleShard s]

/-- The share of a shored position is drained when its last granule is acknowledged; the Ozmund's copy of one handed back is then given up
(R125). -/
def localDone : Prog :=
  .look fun d => match d.shoredSlots with
    | n :: _ => when (d.inCourse && bitOf (d.get CRS_STAT_CUT) n && (List.range (d.slotTable n).granCount).all fun g => d.acked n g)
        (.seq (put CRS_STAT_DONE (withBit (d.get CRS_STAT_DONE) n)) (when d.shore.share.isSome releaseLocal))
    | [] => .done

/-- A granule is acknowledged, and its shard stored when it was the last one. -/
def granuleDone (s : Shard) (g : Nat) : Prog :=
  all [ackRun s [g], .look fun d => when (s.granules.all fun g => d.acked s.slot g) (shardStored s), localDone]

/-- The blocks of a granule have all been received. -/
def Dev.granuleHere (d : Dev) (s : Shard) (g : Nat) : Bool :=
  (List.range (s.blocksOf g)).all fun b => Store.get noFlag d.course.blocks (bk s.slot g b)

/-- A granule that has not been acknowledged is discarded and requested again (R79). -/
def granuleAgain (n g : Nat) : Prog := all [dropGranules n [g], setAsked n [g] false, drain n]

/-- A shard being stored cannot be placed at an address, or meets a bad word there: the directory places it elsewhere, what is acknowledged
moves with it, and the granule is requested again (Table 3.10, R255). Of a granule in the HBM course cache only the copy there goes. -/
def placeElsewhere (pa : Nat) : Prog :=
  .look fun d => .seq
    (match List.find? (fun e : Nat × Nat => decide (e.2 ≤ pa) && decide (pa < e.2 + pageBytes)) d.course.staged with
      | some e => granuleAgain (e.1 / 2 ^ 18) (e.1 % 2 ^ 18)
      | none => .done) <|
    match List.find? (fun e : Nat × DirEnt => decide (e.2.state = 1) && decide (e.2.addr ≤ pa) && decide (pa < e.2.addr + e.2.len * 4096)) d.course.dir with
    | none => .done
    | some (i, x) =>
      match (d.shards x.slot).find? fun s => decide (s.region = x.region) && decide (s.num = x.shard) with
      | none => .done
      | some s =>
        let g := s.first + (pa - x.addr) / 0x200000
        let at_ (k : Nat) : Nat := x.addr + (k - s.first) * 0x200000
        let moves := s.granules.filter fun k => d.acked s.slot k
        match d.placeFor s, d.freeDir with
        | some (tier, a), some j =>
          if moves.any fun k => decide (k = g) || !(d.storedOk (at_ k) (s.blocksOf k)) then when (!d.voted) (abandonHere vCHECK true)
          else all [
            each moves fun k => copyPhys (at_ k) (a + (k - s.first) * 0x200000) (s.blocksOf k * 4096),
            modCourse fun c => { c with dir := Store.insert (Store.remove c.dir i) j { x with addr := a, tier := tier } },
            granuleAgain s.slot g]
        | _, _ => when (!d.voted) (abandonHere vCAPACITY true)

/-- A granule that gathered in the HBM course cache moves to its place with its checks (R84); one whose checks fail there is discarded, and
asked for again (R79). A place that cannot be used, or where the checks fail, is left for another (R255). -/
def unstage (s : Shard) (g to_ : Nat) : Prog :=
  .look fun d =>
    let n := s.blocksOf g
    if !(d.storedOk to_ n) then placeElsewhere to_
    else match Store.find? d.course.staged (gk s.slot g) with
    | some page => moveChecked page to_ (n * 4096)
        (.seq (modCourse fun c => { c with staged := Store.remove c.staged (gk s.slot g) }) (granuleDone s g))
        (granuleAgain s.slot g)
    | none => if d.runOk to_ (n * 4096) then granuleDone s g else .seq (integrityOwn 2) (placeElsewhere to_)

/-- A granule is stored (R79); one of a shored position moves from its frozen contents (R95), whose checks are verified (R137, R138). -/
def storeGranule (n g : Nat) : Prog :=
  .look fun d => match d.shardOf n g with
    | none => .done
    | some s => when (decide (d.kState = kDRAINING) && !(d.acked n g) && decide (d.share s = .drained)) <|
        if d.remote n then (match d.filling s with
          | some (_, x) => when (d.granuleHere s g) (unstage s g (x.addr + (g - s.first) * 0x200000))
          | none => .done)
        else when (d.taking.contains n) (placeShard s (.look fun d => match d.filling s with
          | some (_, x) =>
            if (d.frozenAt g).any fun pa => !(d.runOk pa (d.localFrozen g).length) then .seq (integrityOwn 2) positionLost
            else if !(d.storedOk (x.addr + (g - s.first) * 0x200000) (s.blocksOf g)) then placeElsewhere (x.addr + (g - s.first) * 0x200000)
            else all [tallyClass 4 (d.localFrozen g).length, writePhys (x.addr + (g - s.first) * 0x200000) (d.localFrozen g), granuleDone s g]
          | none => .done))

/-- The keeper compares the stored copies reported to it with its own (R82, R142): it votes DIVERGE, and an event against
another member's position goes to that member. -/
def keeperCheck : Prog :=
  .look fun d =>
    when (decide (d.kState = kSEALING) && !d.voted && d.digestsIn && !d.digestsAgree) (.seq (abandonHere vDIVERGE true)
      (each d.keeps fun g => each (List.range (d.groupShards g)) fun k =>
        let cs := d.groupCopies g k
        let count (v : List Byte) : Nat := (cs.filter fun c => decide (c.2.2 = v)).length
        let bad := if allSame (cs.map (·.2.2)) then [] else match cs.find? fun c => decide (cs.length < 2 * count c.2.2) with
          | some c => cs.filter fun x => decide (x.2.2 ≠ c.2.2)
          | none => cs
        each bad fun c =>
          if c.2.1 = d.get CRS_ROOT_MEMBER then (match d.myPositions.find? fun p => decide (p.pos = c.1) with
            | some p => slotEvent 5 p.slot c.1 (d.get CRS_STEP_STEP)
            | none => .done)
          else match d.job.members[c.2.1]? with
            | some a => send (.peer a) Kind.divergeNotice [c.1, d.get CRS_STEP_STEP]
            | none => .done))

end Sys2Proof.Machine
end

