-- ==== Sys2Proof/Machine/Crossconnect.lean ====
section
/-! DEFINITION. Family: the tray crossconnect (R133, R298, R301, R309 to R312). -/

namespace Sys2Proof.Machine

/-! ## What its operations do to the ports -/

/-- A port begins to train (R297), unless it is off or held for a link test: its TRAIN flits state the Ozmund's address and the port. -/
def beginTraining (p : Nat) : Prog :=
  .look fun d => when (d.on (LNK_CFG_EN p) && !(d.port p).held) (all [
    bump (LNK_ERR_TRAININGS p), when (decide (d.lState p ≠ lDETOUR)) (setPort p lTRAINING 0), send (.port p) Kind.train [d.ownAddr, p]])

/-- The detour joint ends (R301, Table 11.5): port 19 leaves it, and the tray port trains from DOWN; the Ozmund does not join it
again by itself until that port has had MIN_LANES. -/
def endDetour : Prog :=
  .look fun d => when (d.on XCN_DETOUR_ACTIVE) (
    let n := d.get XCN_DETOUR_ASLOT
    all [put XCN_DETOUR_ACTIVE 0, put XCN_DETOUR_ASLOT 0, modPort n fun p => { p with noJoin := true },
      setPort n (d.downState n) 0, put (LNK_STAT_DPORT n) 0, beginTraining n])

/-- Every stand-in port trains afresh against its new far end (R298). -/
def trainStandIn : Prog := each (List.range 12) fun j => beginTraining (8 + j)

/-- Whether a map shows what was asked (R310). -/
def mapShows (m : XMap) : XOp → Bool
  | .move slot toStandIn _ => decide (m.map.toNat = if toStandIn then 2 ^ slot else 0)
  | .detour slot on => if on then decide (m.detour.toNat / 128 = 1) && decide (m.detour.toNat % 8 = slot) else decide (m.detour.toNat / 128 = 0)

/-- The map as read. At most one bit is 1 (R133): DESIGN CHOICE, a map with more is no map, and sets ERR (notes/assumptions/182). -/
def takeMapByte (m : XMap) : Prog :=
  if ((List.range 8).filter fun n => bitOf m.map.toNat n).length ≤ 1 then put XCN_STAT_MAP m.map.toNat else put XCN_STAT_ERR 1

/-- What follows a completed operation (R298, R301, R311): a MOVE to the stand-in ports ends any detour and drops one that
waits. -/
def xcnDone (op : XOp) : Prog :=
  match op with
  | .move slot toStandIn own => all [
      when toStandIn (.seq endDetour (modXcn fun x => { x with waiting := x.waiting.filter fun w => match w with | .detour _ _ => false | _ => true })),
      when toStandIn (.look fun d => when (d.xcn.waiting.isEmpty) (put XCN_DETOUR_GO 0)),
      trainStandIn,
      when own (moveSettled slot toStandIn)]
  | .detour slot on =>
    if on then all [put XCN_DETOUR_ACTIVE 1, put XCN_DETOUR_ASLOT slot, beginTraining 19]
    else .seq endDetour (beginTraining 19)

/-- What follows one that failed (R115, R311): the shore controller's own move is told; a tray port goes on under SHED. -/
def xcnFailed : XOp → Prog
  | .move slot toStandIn true => moveFailed slot toStandIn
  | _ => .done

/-- An operation ends with ERR. -/
def xcnError (op : XOp) : Prog :=
  all [put XCN_STAT_BUSY 0, put XCN_STAT_ERR 1, clearGo op, modXcn fun x => { x with op := none }, xcnFailed op]

/-! ## Register writes -/

/-- A write of XCN_CTRL (Table 4.15, R133, R310, R311): the plain fields, the power-enable land, then GO. A GO with
authority that names a second slot, or comes without power-good or while BUSY is 1, changes nothing but ERR; one without authority is
answered AUTH beside the plain fields (R10). -/
def writeXcnCtrl (v : W64) : Prog :=
  .look fun d =>
    let go := decide (XCN_CTRL_GO.of v = 1)
    let pw := XCN_CTRL_PWR_EN.of v
    let slot := XCN_CTRL_SLOT.of v
    if go ∧ d.on XCN_CTRL_AUTH ∧ ((d.get XCN_STAT_MAP ≠ 0 ∧ d.get XCN_STAT_MAP ≠ 2 ^ slot) ∨ !(d.on XCN_STAT_PGOOD) ∨ d.on XCN_STAT_BUSY) then
      .seq (put XCN_STAT_ERR 1) (complete (if touchesPK ctlRows XCN_CTRL_SLOT.addr (d.word XCN_CTRL_SLOT.addr) v then stAUTH else stOK))
    else all [
      writePlain XCN_CTRL_SLOT.addr (v &&& ~~~(0x10 : W64)),
      when (decide (pw ≠ d.get XCN_CTRL_PWR_EN)) (send .land Kind.xcnPower [pw]),
      when go (if !(d.on XCN_CTRL_AUTH) then complete stAUTH
        else .seq (put XCN_CTRL_GO 1) (xcnBegin (.move slot (decide (XCN_CTRL_DIR.of v = 1)) false)))]

/-- Whether the Ozmund may join a tray port's detour (R301). -/
def Dev.mayDetour (d : Dev) (slot : Nat) : Bool :=
  decide (d.mode.role = .watch) && d.on XCN_CTRL_AUTH && decide (d.lState 19 = lPARKED) && (!(d.on XCN_DETOUR_ACTIVE) || decide (d.get XCN_DETOUR_ASLOT = slot))

/-- A write of XCN_DETOUR (Table 11.14, R301, R310, R311). -/
def writeXcnDetour (v : W64) : Prog :=
  .look fun d =>
    let slot := XCN_DETOUR_SLOT.of v
    let on := decide (XCN_DETOUR_ON.of v = 1)
    let go := decide (XCN_DETOUR_GO.of v = 1)
    if go ∧ d.on XCN_CTRL_AUTH ∧ !(d.on XCN_STAT_PGOOD) then .seq (put XCN_STAT_ERR 1) (complete stOK)
    else .seq (writePlain XCN_DETOUR_SLOT.addr (v &&& ~~~(0x10 : W64))) (when go (
      if !(d.on XCN_CTRL_AUTH) then complete stAUTH
      else when (!on || d.mayDetour slot) (.seq (put XCN_DETOUR_GO 1) (xcnQueue (.detour slot on)))))

/-- XCN_CTRL.GO written 1 (R310). -/
def execXcnCtrlGo (v : W64) (s : State) : Host.Outcome State Fault Refusal :=
  s.runUp (when (decide (XCN_CTRL_GO.of v = 1)) (writeXcnCtrl v))

/-- XCN_DETOUR.GO written 1 (R301, R310). -/
def execXcnDetourGo (v : W64) (s : State) : Host.Outcome State Fault Refusal :=
  s.runUp (when (decide (XCN_DETOUR_GO.of v = 1)) (writeXcnDetour v))

/-- A write of XCN_CTRL.PWR_EN (R312): the power-enable is driven. -/
def execXcnPwrEnWrite (v : W64) (s : State) : Host.Outcome State Fault Refusal :=
  s.runUp (writeXcnCtrl v)

/-! ## Events of the crossconnect -/

/-- BUSY has fallen, and an operation that waited is sent: a MOVE before a detour (R311). A detour that may no longer be joined is dropped, and
the port goes on under SHED (R301). -/
def execXcnQueuedStart (s : State) : Host.Outcome State Fault Refusal :=
  s.runUp <| .look fun d =>
    let isMove : XOp → Bool := fun o => match o with | .move _ _ _ => true | _ => false
    when (!(d.on XCN_STAT_BUSY) && d.xcn.op.isNone) (match (d.xcn.waiting.find? isMove) <|> d.xcn.waiting.head? with
      | some op => .seq (modXcn fun x => { x with waiting := x.waiting.erase op })
          (match op with
            | .detour slot true => if d.mayDetour slot then (if d.on XCN_STAT_PGOOD then xcnBegin op else xcnRefused op) else clearGo op
            | _ => if d.on XCN_STAT_PGOOD then xcnBegin op else xcnRefused op)
      | none => .done)

/-- XCN_STATUS falls (R309, R310): READ_MAP is read, up to four frames while the answer fails its CRC, of which `bad` did; the
operation ends as the map shows. -/
def execXcnStatusFall (m : XMap) (bad : Fin 5) (s : State) : Host.Outcome State Fault Refusal :=
  s.runUp <| .look fun d => .seq (put XCN_STAT_STATUS 0) (match d.xcn.op with
    | none => .done
    | some op => when (d.on XCN_STAT_BUSY) (all [
        spiFrames (pack [(1, 0x02), (1, 0)]) bad.val,
        if bad.val = 4 then xcnError op
        else .seq (takeMapByte m) (if mapShows m op then all [
            put XCN_STAT_BUSY 0, clearGo op, put XCN_STAT_LAST_MS (min 65535 ((d.clk - d.xcn.since) / 700000)),
            modXcn fun x => { x with op := none }, xcnDone op]
          else xcnError op)]))

/-- XCN_STATUS does not rise within 1 ms or fall within TIMEOUT_MS (R310): the operation ends with ERR. -/
def execXcnMoveTimeout (s : State) : Host.Outcome State Fault Refusal :=
  s.runUp <| .look fun d => match d.xcn.op with
    | some op => xcnError op
    | none => .done

/-- Power-good of the crossconnect rises (R312): READ_ID and READ_MAP are read (`read`: both were answered), and anything but the home
state leaves ERR set and shoring disabled. -/
def execXcnPgoodRise (read : Bool) (m : XMap) (s : State) : Host.Outcome State Fault Refusal :=
  s.runUp <| .look fun d => when (!(d.on XCN_STAT_PGOOD)) (
    let home := decide (m.map = 0) && decide (m.detour.toNat / 128 = 0) && decide (m.park = 1) && decide (m.state.toNat % 4 = 1)
    all [put XCN_STAT_PGOOD 1, put XCN_STAT_STATUS 0,
      (if read then all [spiFrame (pack [(1, 0x01), (1, 0)]), spiFrame (pack [(1, 0x02), (1, 0)]), takeMapByte m] else spiFrames (pack [(1, 0x01), (1, 0)]) 4),
      when (!read || !home) (.seq (put XCN_STAT_ERR 1) (put SHR_CTRL_EN 0))])

/-- Power-good of the crossconnect falls (R312): a move in progress fails, a shored position has lost its place in the network, and a
detoured port goes DOWN. XCN_STATUS reads high while no crossconnect drives it (Table 11.7). -/
def execXcnPgoodFall (s : State) : Host.Outcome State Fault Refusal :=
  s.runUp <| .look fun d => when (d.on XCN_STAT_PGOOD) (all [
    put XCN_STAT_PGOOD 0, put XCN_STAT_STATUS 1,
    when (decide (d.get XCN_STAT_MAP ≠ 0) && d.shore.slot.isSome) positionLost,
    put XCN_STAT_MAP 0,
    (match d.xcn.op with | some op => xcnError op | none => .done),
    .look fun d => when (d.on XCN_DETOUR_ACTIVE) (all [
      setPort (d.get XCN_DETOUR_ASLOT) (d.downState (d.get XCN_DETOUR_ASLOT)) 0, put (LNK_STAT_DPORT (d.get XCN_DETOUR_ASLOT)) 0, put XCN_DETOUR_ACTIVE 0, put XCN_DETOUR_ASLOT 0])])

end Sys2Proof.Machine
end

