-- ==== Sys2Proof/Machine/Links.lean ====
section
/-! DEFINITION. Family: the link layer (R291 to R305, R307, R314) and the discipline of Pod Time (R305, R318, R401 to R403). -/

namespace Sys2Proof.Machine

/-! ## Lanes and states -/

/-- Lanes in a map. -/
def laneCount (v : Nat) : Nat := ((List.range 8).filter (bitOf v)).length
/-- LNK_n_CFG.MIN_LANES within its bounds (Table 11.10). -/
def Dev.minLanes (d : Dev) (p : Nat) : Nat := min 8 (max 2 (d.get (LNK_CFG_MIN_LANES p)))
/-- A list of ports after a first one, wrapping. -/
def afterPort (p : Nat) (ps : List Nat) : List Nat := ps.filter (fun q => decide (p < q)) ++ ps.filter fun q => decide (q < p)

/-- The port that can carry a failed port's traffic now (Table 11.5); 0x1F is relay through the partner. A tray port's detour
needs the crossconnect first. -/
def Dev.detourPort (d : Dev) (p : Nat) : Option Nat :=
  let ups (ps : List Nat) : Option Nat := (afterPort p ps).find? d.lUp
  if p < 8 then none
  else if p < 20 then ups ((List.range 12).map (8 + ·))
  else
    let group (g : Nat) : List Nat := [20, 21, 22, 23].filter fun q => decide (d.portGroup q = g)
    if d.portGroup p = 0 then ups (group 0) <|> ups (group 1)
    else ups (group 1) <|> (if (d.peer 0).st = pOPEN then some 0x1F else none)

/-- The path that a message not released takes when its port's traffic moves (R302, Table 11.5). -/
def Dev.pathOf (d : Dev) (m : TxMsg) : Option Nat :=
  if 16 ≤ m.origin ∧ m.origin < 20000 then d.sessPort (m.origin - 16) false else some (d.trayPort m.home)

/-- Messages go over their new path whole, with the same DSEQ (R295). -/
def resendMsgs (ms : List TxMsg) : Prog :=
  each ms fun m => .look fun d => match d.pathOf m with
    | some q => .seq (modPort q fun x => { x with tx := x.tx ++ [{ m with sent := 0, acked := 0 }] }) (pumpPort q)
    | none => .done

/-- The traffic of a port has moved: what it had not released is sent again on the new path (R295). -/
def resendOn (p : Nat) : Prog :=
  .look fun d => .seq (modPort p fun x => { x with oldest := x.fseqOut, tx := [], replays := 0 }) (resendMsgs (d.port p).tx)

/-- A port's traffic takes its detour path; without one the port stays as it is (R299). A tray port asks the crossconnect, unless
it may not. -/
def takeDetour (p : Nat) : Prog :=
  .look fun d =>
    if p < 8 then when (d.mayDetour p && !(d.port p).noJoin && !(d.on XCN_DETOUR_ACTIVE))
      (all [put XCN_DETOUR_SLOT p, put XCN_DETOUR_ON 1, put XCN_DETOUR_GO 1, xcnQueue (.detour p true)])
    else match d.detourPort p with
      | some q => all [setPort p lDETOUR 0, put (LNK_STAT_DPORT p) q, resendOn p]
      | none => .done

/-- A port goes DOWN with a cause (Table 11.11), or OFF. Its traffic takes its detour in DETOUR mode, if it carried any (R299), and that of a
session another port (R302); the detours of other ports that it carried are chosen again. -/
def portDown (p cause : Nat) : Prog :=
  .look fun d => all [
    setPort p (d.downState p) 0, put (LNK_STAT_CAUSE p) cause,
    when (d.lUp p) (if d.on (LNK_CFG_MODE p) then takeDetour p else when (decide (20 ≤ p) && decide (p < 24)) (resendOn p)),
    each ((List.range 24).filter fun r => decide (8 ≤ r) && decide (d.lState r = lDETOUR) && decide (d.get (LNK_STAT_DPORT r) = p)) takeDetour]

/-- The lanes of a trained port have changed (R293, R299): it uses those that both ends hold good. -/
def relane (p cause : Nat) : Prog :=
  .look fun d =>
    let lanes := (d.port p).good &&& (d.port p).farLanes
    let st := d.lState p
    if laneCount lanes < 2 then portDown p cause
    else .seq (setPort p (if st = lUP ∨ st = lSHED then (if lanes = 255 then lUP else lSHED) else st) lanes)
      (when ((decide (st = lUP) || decide (st = lSHED)) && d.on (LNK_CFG_MODE p) && decide (laneCount lanes < d.minLanes p)) (takeDetour p))

/-- LANEMAP to the far end: the boundary, which is the next flit that this end sends, and the lanes held good. -/
def sendLanemap (p : Nat) : Prog := .look fun d => send (.port p) Kind.lanemap [(d.port p).fseqOut, (d.port p).good]

/-- Whether a port uses lanes. -/
def Dev.trained (d : Dev) (p : Nat) : Bool := d.lUp p || decide (d.lState p = lPARKED) || decide (d.lState p = lQUIESCE)

/-- A lane is dropped (R293, R300): DROPS, health watch 0x05, and LANEMAP. -/
def dropLane (p lane cause : Nat) : Prog :=
  .look fun d => when (d.trained p && bitOf (d.port p).good lane) (all [
    modPort p fun x => { x with good := x.good - 2 ^ lane },
    bump (LNK_ERR_DROPS p), laneWatch p, sendLanemap p, relane p cause])

/-! ## Flits (R291, R292, R294, R295) -/

/-- The check words of a flit agree (R291): the exclusive OR of its first 31 eight-byte words is the last. -/
def flitOk (f : List Byte) : Bool :=
  decide (f.length = 256) && decide (flitCheck f = numAt f 248 8) && decide (numAt f 3 1 / 16 ≤ 3)

/-- One message at the head of a byte stream: DSEQ, ORIGIN and its bytes, and what follows. A LEN outside 48 to 4,144 is no
message. -/
def takeMessage (b : List Byte) : Option ((Nat × Nat × List Byte) × List Byte) :=
  let len := numAt b 4 2
  if 8 ≤ b.length ∧ 48 ≤ len ∧ len ≤ 4144 ∧ 8 + len ≤ b.length then some ((numAt b 0 4, numAt b 6 2, cut_ b 8 len), b.drop (8 + len)) else none

/-- The messages at the head of a stream, and what remains of the next. -/
def takeMessages : Nat → List Byte → List (Nat × Nat × List Byte) × List Byte
  | 0, b => ([], b)
  | n + 1, b => match takeMessage b with
    | some (m, rest) => let r := takeMessages n rest; (m :: r.1, r.2)
    | none => ([], if 8 ≤ b.length ∧ !(48 ≤ numAt b 4 2 ∧ numAt b 4 2 ≤ 4144) then [] else b)

/-- The origin of a message on a port (R295). -/
def Dev.originOf (d : Dev) (p origin : Nat) : Nat :=
  if 24 ≤ p then 20000 + (p - 24)
  else if p < 8 then p
  else if p = 19 ∧ d.on XCN_DETOUR_ACTIVE then d.get XCN_DETOUR_ASLOT
  else if p < 20 then 8
  else 16 + origin

/-- Whether a message is the teardown's own, which QUIESCE accepts (R314): TEARDOWN_REQ, TEARDOWN_ORDER and SCRUB_DONE, or from an agent RESP
and FENCE_DONE. -/
def isTeardown (p : Nat) (b : List Byte) : Bool :=
  if p < 8 then decide (numAt b 0 1 ∈ [0x06, 0x44]) else decide (numAt b 0 1 = 0x10) && decide (numAt b 32 2 ∈ [0x44, 0x45, 0x46])

/-- A message is delivered once (R295): a DSEQ already written, or beyond the map, is dropped. -/
def deliver (p : Nat) (m : Nat × Nat × List Byte) : Prog :=
  .look fun d =>
    let o := d.originOf p m.2.1
    let x := d.stream o
    let ahead := (m.1 + 2 ^ 32 - x.next) % 2 ^ 32
    when (decide (ahead ≤ 4096) && !(x.seen.contains m.1)) (
      let seen := m.1 :: x.seen
      let next := (List.range 4097).foldl (fun n _ => if seen.contains n then (n + 1) % 2 ^ 32 else n) x.next
      .seq (modStream o fun x => { x with next := next, seen := seen.filter fun s => decide ((s + 2 ^ 32 - next) % 2 ^ 32 ≤ 4096) })
        (if d.lState p = lQUIESCE ∧ p < 24 ∧ o ≠ 16 ∧ numAt m.2.2 4 4 = d.epoch ∧ d.epoch ≠ 0 ∧ !(isTeardown p m.2.2) then bump SYN_COUNT_STALE
         else send .cc Kind.delivered [p, o, m.1] m.2.2))

/-- The bytes of a DATA flit join the stream of their port: START says where the first message begins. -/
def takePayload (p : Nat) (f : List Byte) : Prog :=
  .look fun d =>
    let start := numAt f 4 1
    let body := cut_ f 8 240
    let rx := (d.port p).rx
    let a := if start < 240 then (takeMessages 1 (rx ++ body.take start)).1 else []
    let r := if start < 240 then takeMessages 5 (body.drop start)
      else if rx.isEmpty then ([], []) else takeMessages 1 (rx ++ body)
    .seq (modPort p fun x => { x with rx := r.2 }) (each (a ++ r.1) (deliver p))

/-- NAK with ACK naming the last good DATA flit (R292). -/
def sendNak (p : Nat) : Prog :=
  .look fun d => .seq (modPort p fun x => { x with nak := true }) (send (.port p) Kind.nak [((d.port p).fseqIn + 4095) % 4096])

/-- A flit is missing: NAK, once for each gap. -/
def gapNak (p : Nat) : Prog := .look fun d => when (!(d.port p).nak) (sendNak p)

/-- The sender replays every flit it holds (R292): RETRIES, for a tray port QAG_HLT7 too, and after RETRY_MAX replays a check of the
lanes. -/
def replay (p : Nat) : Prog :=
  .look fun d =>
    let x := d.port p
    let k := x.inFlight
    when (decide (k ≠ 0)) (all [
      (if p < 24 then bump (LNK_ERR_RETRIES p) k else bump (LNK_SB_RETRIES (p - 24)) k),
      when (decide (p < 8)) (modAgent p fun a => a.set QAG_HLT7_VALUE ((a.get QAG_HLT7_VALUE + k) % 2 ^ 64)),
      send (.port p) Kind.replay [x.oldest, k], sendFlits p x.oldest x.heldFlits,
      if p < 24 ∧ max 1 (d.get (LNK_CFG_RETRY_MAX p)) ≤ x.replays + 1 then
        .seq (modPort p fun x => { x with replays := 0 }) (send (.port p) Kind.laneCheck)
      else modPort p fun x => { x with replays := x.replays + 1 }])

/-- ACK and NAK of a good flit release and replay (R292). -/
def takeAck (p ack : Nat) (nak : Bool) : Prog :=
  .look fun d =>
    let x := d.port p
    let k := (ack + 1 + 4096 - x.oldest) % 4096
    .seq (when (decide (k ≠ 0) && decide (k ≤ x.inFlight))
        (.seq (modPort p fun x => { x with oldest := (ack + 1) % 4096, replays := 0, tx := markAcked k x.tx }) (pumpPort p)))
      (when nak (replay p))

/-- A check failure on a lane (R293): LANE_ERR of them within 1 ms drop it. -/
def laneFailed (p lane : Nat) : Prog :=
  .look fun d => when (decide (p < 24)) (
    let es := (lane, d.clk) :: (d.port p).laneErrs.filter fun e => decide (d.clk ≤ e.2 + 700000)
    .seq (modPort p fun x => { x with laneErrs := es })
      (when (decide (max 1 (d.get (LNK_CFG_LANE_ERR p)) ≤ (es.filter fun e => decide (e.1 = lane)).length)) (dropLane p lane 3)))

/-- A lane map of the far end takes effect (R293): only lanes that both ends hold good are used. -/
def takeLanemap (p lanes : Nat) : Prog := .seq (modPort p fun x => { x with farLanes := lanes, nextLanes := none }) (relane p 3)

/-- Whether a port takes flits. -/
def Dev.takesFlits (d : Dev) (p : Nat) : Bool :=
  if p < 24 then decide (lTRAINING ≤ d.lState p) else decide (d.get (LNK_SB_STATE (p - 24)) = 2)

/-- The flits held ahead that follow on an FSEQ, in order. -/
def inOrder : Nat → Nat → List (Nat × List Byte) → List (List Byte)
  | 0, _, _ => []
  | k + 1, f, q => match q.find? fun e => decide (e.1 = f) with
    | some e => e.2 :: inOrder k ((f + 1) % 4096) q
    | none => []

/-- A good DATA flit in its turn, with the flits put back in FSEQ order behind it (R291). -/
def takeFlit (p fseq : Nat) (flit : List Byte) : Prog :=
  .look fun d =>
    let q := (d.port p).ahead
    let fs := flit :: inOrder q.length ((fseq + 1) % 4096) q
    let next := (fseq + fs.length) % 4096
    all [
      modPort p fun x => { x with fseqIn := next, nak := false, ahead := q.filter fun e => decide (e.1 ≠ next) && decide ((e.1 + 4096 - next) % 4096 < 2048) },
      when (decide (p < 24)) (tally (1025 + 4 * p) (240 * fs.length)),
      each fs (takePayload p),
      .look fun d => .seq (when (!(d.port p).ahead.isEmpty) (gapNak p)) (match (d.port p).nextLanes with
        | some (at_, lanes) => when (decide ((next + 4096 - at_) % 4096 < 2048)) (takeLanemap p lanes)
        | none => .done)]

/-- A flit arrives (R291, R292, R294, R295): one ahead of its turn is held until those before it are in. -/
def execFlitReceive (p : Fin 32) (lane : Fin 8) (flit : List Byte) (s : State) : Host.Outcome State Fault Refusal :=
  s.runUp <| .look fun d => when (d.takesFlits p.val) <|
    if !(flitOk flit) then .seq (sendNak p.val) (laneFailed p.val lane.val)
    else
      let head := numAt flit 0 4
      let fseq := head % 4096
      .seq (takeAck p.val (head / 2 ^ 12 % 4096) (bitOf head 24))
        (when (decide (head / 2 ^ 28 = 1) && decide (d.lState p.val ≠ lTRAINING || 24 ≤ p.val)) (
          if fseq = (d.port p.val).fseqIn then takeFlit p.val fseq flit
          else when (decide ((fseq + 4096 - (d.port p.val).fseqIn) % 4096 < 2048)) (.seq
            (modPort p.val fun x => { x with ahead := (fseq, flit) :: x.ahead.filter fun e => decide (e.1 ≠ fseq) }) (gapNak p.val))))

/-- No advance of ACK for ACK_US (R292). -/
def execAckTimeout (p : Fin 32) (s : State) : Host.Outcome State Fault Refusal :=
  s.runUp <| .look fun d => when (d.takesFlits p.val) (replay p.val)

/-- A lane is lost (R293). -/
def execLaneDrop (p : Fin 24) (lane : Fin 8) (cause : BitVec 4) (s : State) : Host.Outcome State Fault Refusal :=
  s.runUp (dropLane p.val lane.val cause.toNat)

/-- LANEMAP from the far end (R293): it takes effect at the FSEQ boundary that it names. -/
def execLanemap (p : Fin 24) (boundary : BitVec 12) (lanes : Byte) (s : State) : Host.Outcome State Fault Refusal :=
  s.runUp <| .look fun d => when (d.trained p.val) (
    if ((d.port p.val).fseqIn + 4096 - boundary.toNat) % 4096 < 2048 then takeLanemap p.val lanes.toNat
    else modPort p.val fun x => { x with nextLanes := some (boundary.toNat, lanes.toNat) })

/-- Every RETRAIN_MS the dropped lanes of a port are retrained alone (R293). -/
def execLaneRetrainTick (p : Fin 24) (s : State) : Host.Outcome State Fault Refusal :=
  s.runUp <| .look fun d => when (d.trained p.val) (each ((List.range 8).filter fun i => !(bitOf (d.port p.val).good i)) fun i =>
    send (.port p.val) Kind.laneTrain [i])

/-- A retrained lane has passed 100 ms of PRBS31 (R293): it is taken back. -/
def execLaneRestore (p : Fin 24) (lane : Fin 8) (s : State) : Host.Outcome State Fault Refusal :=
  s.runUp <| .look fun d => when (d.trained p.val && !(bitOf (d.port p.val).good lane.val)) (all [
    modPort p.val fun x => { x with good := x.good + 2 ^ lane.val }, sendLanemap p.val, relane p.val 3])

/-! ## Training (R295 to R301) -/

/-- Light on a port that is DOWN, or whose traffic takes its detour (R297, R300). -/
def execPortLightDetect (p : Fin 24) (s : State) : Host.Outcome State Fault Refusal :=
  s.runUp <| .look fun d => when (decide (d.lState p.val = lDOWN) || (decide (d.lState p.val = lDETOUR) && decide (8 ≤ p.val))) (beginTraining p.val)

/-- Every RETRAIN_MS a port that is DOWN retries training (R296). -/
def execPortRetrainTick (p : Fin 24) (s : State) : Host.Outcome State Fault Refusal :=
  s.runUp <| .look fun d => when (decide (d.lState p.val = lDOWN)) (beginTraining p.val)

/-- Not trained within TRAIN_MS (R297): DOWN with TIMEOUT; a handback whose tray port this is ends. -/
def execTrainingTimeout (p : Fin 24) (s : State) : Host.Outcome State Fault Refusal :=
  s.runUp <| .look fun d => when (decide (d.lState p.val = lTRAINING)) (.seq (portDown p.val 6) (match d.shore.handback with
    | some h => when (decide (h.slot = p.val) && decide (h.step = .train)) handbackFails
    | none => .done))

/-- Whether a port found a far end that it must not (R297). An Ozmund that knows no partner yet takes any Ozmund on a PAIR port, at the port
of the same number. -/
def Dev.miswired (d : Dev) (p : Nat) (far : FarEnd) : Bool :=
  if p < 8 then (match far with | .agent n _ => decide (n ≠ p) | _ => true)
  else if p < 20 then false
  else match far with
    | .ozmund a q => decide (d.get (LNK_CFG_GROUP p) = 0) && ((d.on RNG_ADDR_ENUM && decide (a.toNat ≠ d.partnerAddr)) || decide (q ≠ p))
    | _ => true

/-- LNK_n_FAR (Table 11.11). -/
def setFar (p : Nat) (far : FarEnd) : Prog :=
  let w (addr fport agent fabric : Nat) : Prog :=
    all [put (LNK_FAR_ADDR p) addr, put (LNK_FAR_FPORT p) fport, put (LNK_FAR_AGENT p) agent, put (LNK_FAR_FABRIC p) fabric]
  match far with
  | .agent n _ => w 0 n 1 0
  | .ozmund a q => w a.toNat q 0 0
  | .fabric _ j => w 0 j 0 1
  | .loopback => w 0 0 0 0

/-- The origins whose DSEQ restarts when a port trains from DOWN with no detour in force (R295). -/
def Dev.freshOrigins (d : Dev) (p : Nat) : List Nat :=
  if p < 8 then (if d.on XCN_DETOUR_ACTIVE ∧ d.get XCN_DETOUR_ASLOT = p then [] else [p])
  else if p < 20 then (if (List.range 12).any fun j => d.lUp (8 + j) then [] else [8])
  else
    let g := d.get (LNK_CFG_GROUP p)
    if !(d.groupPorts g).isEmpty then []
    else (d.peers.filter fun e => decide ((e.1 = 0) = (g = 0))).map fun e => 16 + e.1

/-- Messages and transfers of an origin that were not complete are given up (R278, R295). -/
def freshOrigin (o : Nat) : Prog :=
  .seq (.seq (.act (.dseq o {})) (each (List.range 24) fun p => .look fun d => when ((d.port p).tx.any fun m => decide (m.origin = o))
      (modPort p fun x => { x with oldest := x.fseqOut, tx := (x.tx.filter fun m => decide (m.origin ≠ o)).map fun m => { m with sent := 0, acked := 0 } }))) (closeLost fun e => decide (e.origin = if o < 8 then Origin.slot o else if o = 8 then .fabric else .session (o - 16)))

/-- Training has ended (R297 to R301). -/
def trainingEnds (p lanes : Nat) (far : FarEnd) (delay : Nat) : Prog :=
  .look fun d =>
    let was := d.lState p
    let park := decide (far = .loopback) && decide (8 ≤ p) && decide (p < 20)
    if d.miswired p far then portDown p 4
    else if laneCount lanes < 2 then portDown p 3
    else if was = lDETOUR ∧ laneCount lanes < d.minLanes p then .done
    else
      let back := if was = lDETOUR then (d.port (d.get (LNK_STAT_DPORT p))).tx.filter fun m => decide (m.home = p) else []
      all [
      setFar p far,
      when (decide (was ≠ lDETOUR)) (.seq (each (d.freshOrigins p) freshOrigin) (when (decide (p < 8)) (modSlot p fun x => { x with seqTray := 0 }))),
      when (decide (was = lDETOUR)) (modPort (d.get (LNK_STAT_DPORT p)) fun x => { x with tx := x.tx.filter fun m => decide (m.home ≠ p) || decide (m.sent ≠ 0) }),
      modPort p fun x => { x with fseqOut := 0, oldest := 0, fseqIn := 0, nak := false, ahead := [], rx := [], replays := 0, good := lanes, farLanes := lanes,
                                  nextLanes := none, group := some (d.get (LNK_CFG_GROUP p)), tx := x.tx.map fun m => { m with sent := 0, acked := 0 },
                                  delay := delay, noJoin := if d.minLanes p ≤ laneCount lanes then false else x.noJoin },
      put (LNK_STAT_DPORT p) 0,
      setPort p (if park then lPARKED else if d.start.ordered ∧ p ≠ 19 ∧ !(20 ≤ p ∧ d.get (LNK_CFG_GROUP p) = 0) then lQUIESCE
        else if lanes = 255 then lUP else lSHED) lanes,
      when (decide (p = 19) && !park && d.on XCN_DETOUR_ACTIVE) (
        let n := d.get XCN_DETOUR_ASLOT
        when (d.on (LNK_CFG_EN n)) (all [setPort n lDETOUR 0, put (LNK_STAT_DPORT n) 19, resendOn n])),
      pumpPort p, resendMsgs back,
      .look fun d => when (d.lUp p && d.on (LNK_CFG_MODE p) && decide (laneCount lanes < d.minLanes p) && !(d.port p).noJoin) (takeDetour p),
      (match d.shore.handback with
        | some h => when (decide (h.slot = p) && decide (h.step = .train)) (handbackTrained h)
        | none => .done)]

/-- Training ends, with the lanes good at both ends, the identity of the far end and the delay measured (R297). -/
def execTrainingDone (p : Fin 24) (lanes : Byte) (far : FarEnd) (delay : Nat) (s : State) : Host.Outcome State Fault Refusal :=
  s.runUp <| .look fun d => when (decide (d.lState p.val = lTRAINING) || (decide (d.lState p.val = lDETOUR) && decide (8 ≤ p.val)))
    (trainingEnds p.val lanes.toNat far delay)

/-- A write of LNK_n_CFG (Table 11.10): EN written 0 turns the port off, and 1 lets it train. -/
def writeLnkCfg (p : Nat) (v : W64) : Prog :=
  .look fun d => all [
    writePlain (LNK_CFG_EN p).addr v,
    when (decide ((LNK_CFG_EN p).of v = 0) && decide (d.lState p ≠ lOFF)) (setPort p lOFF 0),
    when (decide ((LNK_CFG_EN p).of v = 1) && decide (d.lState p = lOFF)) (setPort p lDOWN 0)]

/-! ## Link tests (R307) -/

/-- Whether a link test may run on a target. -/
def Dev.mayTest (d : Dev) (target : Nat) : Bool :=
  if target < 24 then decide (d.lState target = lDOWN) || decide (d.lState target = lPARKED)
  else
    let n := target - 24
    decide (d.slotState n ∈ [sIDLE, sABSENT, sFENCED]) ||
      (decide (d.slotState n = sREINT) && d.shore.handback.any fun h => decide (h.slot = n) && decide (h.step ∈ [HbStep.power, .hello, .testSb, .testTray, .train]))

/-- A write of LNK_TEST (Table 11.12). -/
def writeLnkTest (v : W64) : Prog :=
  .look fun d =>
    .seq (writePlain LNK_TEST_GO.addr (v &&& ~~~(0x100 : W64))) (when (decide (LNK_TEST_GO.of v = 1)) (
      if d.on LNK_TEST_GO ∨ !(d.mayTest (LNK_TEST_TARGET.of v)) then complete stBUSY
      else beginTest (LNK_TEST_TARGET.of v)))

/-- LNK_TEST.GO written 1 (R307). -/
def execLnkTestGo (v : W64) (s : State) : Host.Outcome State Fault Refusal :=
  s.runUp (when (decide (LNK_TEST_GO.of v = 1)) (writeLnkTest v))

/-- A link test ends (R125, R307). In a handback the sideband's test is followed by the tray port's, and that by training. -/
def execLinkTestDone (errors : W32) (s : State) : Host.Outcome State Fault Refusal :=
  s.runUp <| .look fun d => when (d.on LNK_TEST_GO) (
    let target := d.get LNK_TEST_TARGET
    let pass := decide (errors = 0)
    all [
      put LNK_TEST_GO 0, put LNK_TEST_DONE 1, put LNK_TEST_PASS pass.toNat, put LNK_TEST_ERRORS errors.toNat,
      when (!pass && decide (target < 24)) (portDown target 7),
      (match d.shore.handback with
        | some h =>
          if h.step = .testSb ∧ target = 24 + h.slot then
            (if pass && d.mayTest h.slot then .seq (setHandback { h with step := .testTray }) (beginTest h.slot) else handbackFails)
          else when (decide (h.step = .testTray) && decide (target = h.slot))
            (if pass then all [setHandback { h with step := .train }, modPort h.slot fun x => { x with held := false }, beginTraining h.slot] else handbackFails)
        | none => .done)])

/-! ## Pod Time (R305, R318, R401 to R403) -/

/-- LOCKED changes: its event and the TIME record (R403, Table 16.8). -/
def setLocked (on : Bool) : Prog :=
  .look fun d => when (decide (d.on LNK_TIME_LOCKED ≠ on)) (all [
    put LNK_TIME_LOCKED on.toNat, raise (if on then TAL_EVT_LOCK else TAL_EVT_UNLOCK),
    .look fun d => record 0x0D on.toNat (leBytes 8 (d.word LNK_TIME_LOCKED.addr).toNat)])

/-- An offset from the source disciplines Pod Time (R305): a step while no job is served, else at most one tick in 10,000 is added
or withheld. LOCKED rises when every offset of the last 1 s was within ±6 ticks. -/
def discipline (o : Int) : Prog :=
  .look fun d =>
    let near := decide (-6 ≤ o) && decide (o ≤ 6)
    let since := if near then some (d.obs.within.getD d.clk) else none
    all [
      put LNK_TIME_OFFSET (o % 2 ^ 32).toNat,
      modObs fun x => { x with disciplined := true, srcLost := false, within := since },
      (if d.epoch = 0 then .act (.podTime ((d.podTime : Int) + o).toNat)
       else when (decide (o ≠ 0) && decide (d.obs.lastSlew + 10000 ≤ d.clk)) (.seq (modObs fun x => { x with lastSlew := d.clk })
          (if 0 < o then .act (.podTime (d.podTime + 1)) else modObs fun x => { x with withhold := true }))),
      if !near then setLocked false else when (since.any fun t => decide (t + 700000000 ≤ d.clk)) (setLocked true)]

/-- The source in force (Table 11.12). -/
def Dev.timeSource (d : Dev) : Nat := if 20 ≤ d.get LNK_TIME_SRC ∧ d.get LNK_TIME_SRC ≤ 23 then d.get LNK_TIME_SRC else 0x1F
/-- UP, SHED, DETOUR or QUIESCE. -/
def Dev.timePort (d : Dev) (p : Nat) : Bool := d.lUp p || decide (d.lState p = lDETOUR) || decide (d.lState p = lQUIESCE)

/-- Every 1 ms a port sends TIME (R305); stand-in ports carry none. -/
def execTimeFlitTick (p : Fin 24) (s : State) : Host.Outcome State Fault Refusal :=
  s.runUp <| .look fun d => when (d.timePort p.val && (decide (p.val < 8) || decide (20 ≤ p.val)))
    (send (.port p.val) Kind.timeFlit [d.podTime, (d.port p.val).timeTx, (d.port p.val).timeRx, if p.val < 8 then (d.port p.val).delay else 0])

/-- A TIME flit arrives (R305): on ports 20 to 23 at the Ozmund, whose Pod Time the source's offset disciplines; on a tray port at the
slot's agent, which loads QAG_PODTIME. -/
def execTimeFlit (p : Fin 24) (tTx t1 t2 delay : W64) (s : State) : Host.Outcome State Fault Refusal :=
  s.runUp <| .look fun d => when (d.timePort p.val) (
    if p.val < 8 then modAgent p.val fun a => { a.set QAG_PODTIME_TIME (tTx + delay).toNat with timeAt := some d.clk }
    else when (decide (20 ≤ p.val)) (
      let t4 : Int := d.podTime
      let dl := ((t4 - tTx.toNat) - ((t2.toNat : Int) - t1.toNat)) / 2
      .seq (modPort p.val fun x => { x with timeTx := tTx.toNat, timeRx := d.podTime })
        (when (decide (d.timeSource = p.val)) (discipline (tTx.toNat + dl - t4)))))

/-- An IEEE 1588 exchange has given the offset from the master (R318). -/
def execPtpMessage (offset : W32) (s : State) : Host.Outcome State Fault Refusal :=
  s.runUp <| .look fun d => when (d.on HST_NET_PTP && decide (d.timeSource = 0x1F)) (discipline offset.toInt)

/-- The source is lost (R403): its port has left service, or no Sync message has come for 2 s. Pod Time runs on CLK_C. -/
def execTimeSourceLost (s : State) : Host.Outcome State Fault Refusal :=
  s.runUp <| .look fun d => when (decide (d.timeSource = 0x1F) || !(d.timePort d.timeSource))
    (modObs fun x => { x with srcLost := true, within := none, withhold := false })

/-- 1 s after the source is lost (R403). -/
def execLockLossTimeout (s : State) : Host.Outcome State Fault Refusal :=
  s.runUp <| .look fun d => when d.obs.srcLost (setLocked false)

end Sys2Proof.Machine
end

