-- ==== Sys2Proof/Machine/Fabric.lean ====
section
/-! DEFINITION. Family: the fabric of the stand-in ports (R303, R304, Table 11.6) and the protected granules of the shored position
(R95, R255). -/

namespace Sys2Proof.Machine

/-- A command that waits for room (R276) or for a protected granule: it is taken again later, as one that a global halt held. -/
def deferCommand (c : Instr) : Prog := modObs fun o => { o with frozen := o.frozen ++ [c] }

/-! ## Protected granules (R95, R255) -/

/-- The granule of the shored position at an address, while its course protects it. -/
def Dev.protGranule (d : Dev) (va : Nat) : Option Nat :=
  let a := d.agent localAgent
  if a.cstate = 2 then (a.gransOf va 1).find? fun g => decide (a.gran g = .prot) else none

/-- Whether the course buffer of the shored position has a free slot in the shore reserve (R95). -/
def Dev.copyRoom (d : Dev) : Option Nat :=
  let a := d.agent localAgent
  if (a.grans.filter fun g => match g.2 with | .copied _ => true | _ => false).length < a.get QAG_CBUF_CFG_SIZE * 512 then d.freeReservePage else none

/-- Clears PROT of a page of the shored position. -/
def clearProt (va : Nat) : Prog := editLeaf 1 (va / pageBytes * pageBytes) fun e => e - e % 32 + e % 16

/-- The stall of the step ends (R46): a write found a slot. -/
def stallEnds : Prog :=
  .look fun d => when ((d.agent localAgent).stallFrom.isSome)
    (modAgent localAgent (stallStop d))

/-- A write meets a protected granule (R255): the course engine copies the granule into a free slot with its checks (R137), clears PROT and
lets the write go on with `k`. With no free slot the stall runs; at its bound the course is abandoned with STALL (R46), else `wait`. -/
def copyAside (va : Nat) (k wait : Prog) : Prog :=
  .look fun d =>
    let a := d.agent localAgent
    match d.protGranule va with
    | none => .seq (clearProt va) k
    | some g =>
      match d.copyRoom, a.granAt g, (a.granAt g).bind fun x => d.jobPhys x.1 with
      | some page, some (_, blocks), some pa => moveChecked pa page (blocks * 4096) (all [
          modAgent localAgent fun a => { a with grans := Store.put granDflt a.grans g (.copied (page / pageBytes)) },
          clearProt va, stallEnds, k]) positionLost
      | _, _, _ =>
        if a.get QAG_CBUF_CFG_STALL_US ≤ stallNow d a then all [when (!d.voted) (abandonHere vSTALL true), clearProt va, stallEnds, k]
        else .seq (modAgent localAgent fun a => { a with stallFrom := some (a.stallFrom.getD d.clk) }) wait

/-- The course engine takes a PROT fault of the shored position's own transfer (R255). -/
def execProtFault (r : Requester) (s : State) : Host.Outcome State Fault Refusal :=
  s.runEngine (.protFault r) <| .look fun d => match d.mmu.faults.find? fun f => decide (f.cause = fPROT) && decide (f.req = r) with
    | some f => copyAside f.va (.seq (modMmu fun m => { m with faults := m.faults.erase f }) (setHeld r false)) .done
    | none => .done

/-! ## Packets of the stand-in ports (R303) -/

/-- A contribution that fails its mark or its check is discarded, and the shored position asks the sender for it once more, at most three
times (R121). Fields: the sender's position, the step, SEQ24 and the attempt. -/
def askAgain (m : QMsg) : Prog :=
  .look fun d =>
    let key := (m.tag.toNat / 65536, (d.agent localAgent).step, numAt m.data 17 3)
    let n := ((d.shore.repointsMade.find? fun e => decide (e.1 = key)).map (·.2)).getD 0 + 1
    when (decide (n ≤ 3)) (.seq
      (modShore fun x => { x with repointsMade := (x.repointsMade.filter fun e => decide (e.1 ≠ key)) ++ [(key, n)] })
      (send .fabric Kind.repoint [key.1, key.2.1, key.2.2, n]))

/-- Takes a fabric packet for the shored position, while its window drains and is fenced too (R279): one of another epoch is dropped and
counted as stale, any other mismatch, a payload above `most` bytes too, dropped and counted. A contribution whose check fails is asked for
again. -/
def fabTake (p : Fin 24) (m : QMsg) (mark : Bool) (most : Nat) (k : Prog) : Prog :=
  .look fun d => when (!d.hubFenced && (d.shoredLive || (d.shore.slot.isSome && decide (d.sync.win ≠ .open))) && decide (8 ≤ p.val) && decide (p.val < 20)) <|
    if m.epoch.toNat ≠ d.epoch then bump SYN_COUNT_STALE
    else if m.position.toNat ≠ d.shoredPos ∨ m.ver ≠ 1 ∨ most < m.data.length then bump (LNK_ERR_DROPS p.val)
    else if m.chk ∧ crc64 m.data ≠ m.check.toNat then .seq (bump (LNK_ERR_DROPS p.val)) (when mark (askAgain m))
    else k

/-- The signal of a LAST packet (R274): index i of the JOB window; none beyond it. -/
def Dev.fabSignal (d : Dev) (m : QMsg) : Option (Option (Nat × Option (Nat × Nat))) :=
  if !m.last then some none
  else if !m.sig then some (some (m.pkts.toNat, none))
  else (d.winCounter 1 m.sigIdx.toNat).map fun c => some (m.pkts.toNat, some (c, m.sigInc.toNat))

/-- A packet of the stand-in fabric is counted into its transfer (R276). -/
def fabWritten (p : Fin 24) (m : QMsg) : Prog :=
  .look fun d => match d.fabSignal m with
    | some last => packetWritten .fabric m.tag.toNat last fun c inc => advance c (BitVec.ofNat 64 inc)
    | none => bump (LNK_ERR_DROPS p.val)

/-- Whether a packet waits at the link layer (R276), and whether the fenced window drops it (R279). -/
def fabAdmit (c : Instr) (m : QMsg) (k : Prog) : Prog :=
  .look fun d =>
    if d.windowRefuses .fabric m.tag.toNat then .done
    else if !(d.transferRoom .fabric m.tag.toNat) then deferCommand c
    else k

/-- The course whose key stands in a key slot of the shored position (R51): the last course cut or armed, or the one before it. -/
def Dev.localKeyCourse (d : Dev) (slot : Nat) : Option Nat :=
  let c := if d.cur = noCourse then (d.agent localAgent).markSlot else max d.cur (d.agent localAgent).markSlot
  if c % 2 = slot then some c else if c = 0 then none else some (c - 1)

/-- Whether the mark block at the head of a payload agrees (R51, R303): the sender's position is in TAG bits 31:16. -/
def Dev.fabMarkOk (d : Dev) (m : QMsg) : Bool :=
  match d.localKeyCourse (numAt m.data 16 1) with
  | some c =>
    let k := d.keyOf c
    decide (32 ≤ m.data.length) &&
      decide (mark128 (leNat (k.take 16)) (leNat (k.drop 16)) (m.data.drop 32) 2 (numAt m.data 17 3) (m.tag.toNat / 65536) = numAt m.data 0 16)
  | none => false

/-- A run of bytes by the 2 MiB pages it touches: address and bytes. -/
def byPages (va : Nat) (bs : List Byte) : List (Nat × List Byte) :=
  let n := pageBytes - va % pageBytes
  if bs.length ≤ n then [(va, bs)] else [(va, bs.take n), (va + n, bs.drop n)]

/-- FAB_WRITE (Table 11.6): written in context 1 with block checks. A contribution whose mark fails is discarded and its sender asked to send
it again (R121); a packet that cannot be written is dropped. -/
def fabWrite (c : Instr) (p : Fin 24) (m : QMsg) (mark : Bool) : Prog :=
  .look fun d =>
    if mark ∧ !(d.fabMarkOk m) then askAgain m
    else
      let parts := byPages m.arg.toNat (if mark then m.data.drop 32 else m.data)
      let xlat (va : Nat) := d.translate 1 va true false
      match parts.find? fun x => decide (xlat x.1 = .fault fPROT) with
      | some x => copyAside x.1 (deferCommand c) (deferCommand c)
      | none =>
        match parts.findSome? fun x => match xlat x.1 with | .fault c => some (x.1, c) | .ok _ _ => none with
        | some (va, c) => .seq (noteFault va c true 1 3 0) (bump (LNK_ERR_DROPS p.val))
        | none => .seq (each parts fun x => match xlat x.1 with
          | .ok pa leaf => .seq (touchLeaf leaf true) (writePhys pa x.2)
          | .fault _ => .done) (fabWritten p m)

/-- FAB_WRITE (R303). -/
def execFabWrite (p : Fin 24) (m : QMsg) (mark : Bool) (s : State) : Host.Outcome State Fault Refusal :=
  s.runEngine (.fabWrite p m mark) <| fabTake p m mark (4096 + 32 * mark.toNat) <| fabAdmit (.fabWrite p m mark) m (fabWrite (.fabWrite p m mark) p m mark)

/-- FAB_SIGNAL (R303). -/
def execFabSignal (p : Fin 24) (m : QMsg) (s : State) : Host.Outcome State Fault Refusal :=
  s.runEngine (.fabSignal p m) <| fabTake p m false 0 <| fabAdmit (.fabSignal p m) m (fabWritten p m)

/-- The stand-in port towards a position (R304): the fabric port that the route section of the shored position names. -/
def Dev.routeTo (d : Dev) (pos : Nat) : Nat :=
  let rs := ((d.job.routes.find? fun e => decide (e.1 = d.shoredPos)).map (·.2)).getD []
  8 + ((rs.find? fun r => decide (r.1 = pos)).map (·.2)).getD 0 % 12

/-- A fabric packet of the shored position leaves on its route. Fields: TYPE, STATUS, EPOCH, the destination position, TAG, ARG, MARK. -/
def fabSend (ty st dest tag arg : Nat) (data : List Byte) (mark : Bool := false) : Prog :=
  .look fun d => .seq (linkSend 8 (d.routeTo dest) 0 (({ ty := ty, sb := false, status := st, tag := tag, arg := arg, data := data, mark := mark } : QOut).bytes d.epoch dest 0)) (send .fabric Kind.fabric [ty, st, d.epoch, dest, tag, arg, mark.toNat] data)

/-- FAB_READ (Table 11.6): answered with FAB_RESP. A length of 0, or above 64, is LENGTH; while the window is fenced, or the hub
is reset, the answer is FENCED (R279, R313). -/
def execFabRead (p : Fin 24) (m : QMsg) (s : State) : Host.Outcome State Fault Refusal :=
  s.runEngine (.fabRead p m) <| .look fun d =>
    let sender := m.tag.toNat / 65536
    let n := m.arg.toNat / 2 ^ 52
    let va := m.arg.toNat % 2 ^ 52
    let resp (st : Nat) (data : List Byte) : Prog := fabSend 0x53 st sender (d.shoredPos % 65536 * 65536 + m.tag.toNat % 65536) m.seq.toNat data
    if d.hubFenced then when (decide (8 ≤ p.val) && decide (p.val < 20)) (resp stFENCED [])
    else fabTake p m false 0 <| if d.sync.win ≠ .open then resp stFENCED []
    else if n = 0 ∨ 64 < n then resp stLENGTH []
    else
      let parts := byPages va (List.replicate (64 * n) 0)
      let got := parts.map fun x => match d.translate 1 x.1 false false with
        | .ok pa leaf => some (leaf, d.physBytes pa x.2.length)
        | .fault _ => none
      match parts.findSome? fun x => match d.translate 1 x.1 false false with | .fault c => some (x.1, c) | .ok _ _ => none with
      | some (va, c) => .seq (noteFault va c false 1 3 0) (resp stFAULT [])
      | none => if (pieces va 0 (64 * n)).any fun x => match d.translate 1 (va + x.1) false false with | .ok pa _ => !(d.blockOk pa) | .fault _ => false then
        .seq (integrityOwn 2) (resp stFAULT [])
      else .seq (each (got.filterMap id) fun x => touchLeaf x.1 false) (resp stOK ((got.filterMap id).flatMap (·.2)))

/-- FAB_RESP (Table 11.6): it completes a read that the shored position issued; its data goes to the program that waits for it. -/
def execFabResp (p : Fin 24) (m : QMsg) (s : State) : Host.Outcome State Fault Refusal :=
  s.runEngine (.fabResp p m) <| fabTake p m false 4096 (send .cc Kind.fabResp [m.arg.toNat, m.status.toNat] m.data)

end Sys2Proof.Machine
end

