-- ==== Sys2Proof/Machine/Courses.lean ====
section
/-! DEFINITION. Family: course notices, the drain's timers, the vote, and the root's decisions (R71 to R94, R106, R343). -/

namespace Sys2Proof.Machine

/-- Takes a session-0 notice of Tables 13.4 and 13.6 (R343): from the partner, under the epoch that it last declared. -/
def onPair (m : NMsg) (lenOk fault : Bool) (k : Prog) : Prog :=
  .look fun d =>
    let src := m.src.toNat
    if src = d.partnerAddr ∧ m.epoch.toNat = d.get HUB_PAIR_PEPOCH then onNotice m true lenOk fault k
    else match d.sessionTo src with
      | some n => when (decide ((d.peer n).st = pOPEN)) (.seq (heard n m.seq)
          (pAnswer src m.seq.toNat (if src = d.partnerAddr then stEPOCH else stAUTH)))
      | none => .done

/-- A session-0 notice that is answered OK and then carried out. -/
def onPairOk (m : NMsg) (lenOk fault : Bool) (k : Prog) : Prog :=
  onPair m lenOk fault (.seq (pAnswer m.src.toNat m.seq.toNat stOK) k)

/-- The member index of an address. -/
def Dev.memberOf (d : Dev) (addr : Nat) : Option Nat :=
  if d.job.members.contains addr then some (d.job.members.findIdx fun a => decide (a = addr)) else none

/-- A course opens at a member that has none in progress and has not learned of it yet (Table 3.3). -/
def openFresh (c s : Nat) : Prog :=
  .look fun d => when (!d.inCourse && (decide (d.cur = noCourse) || decide (d.cur < c))) (openHere c s)

/-- COURSE_OPEN (R75): forwarded down the tree, and the course opens. -/
def execCourseOpen (m : NMsg) (s : State) : Host.Outcome State Fault Refusal :=
  s.runEngine (.courseOpen m) <| onNoticeOk m false (decide (m.data.length = 16)) false <|
    .seq (forwardDown nCOURSE_OPEN m.data) (openFresh (numAt m.data 0 4) (numAt m.data 8 8))

/-- COURSE_DECIDE (R73, R91, R455, Table 3.3): the course in progress is committed or abandoned, and the next course named
opens. A reserved reason is LINK. DESIGN CHOICE: a decision byte above 1, for which Table 3.1 gives no meaning, is answered FAULT
(notes/assumptions/169). -/
def execCourseDecide (m : NMsg) (s : State) : Host.Outcome State Fault Refusal :=
  s.runEngine (.courseDecide m) <|
    let c := numAt m.data 0 4
    let decision := numAt m.data 4 1
    let reason := numAt m.data 5 1
    let next := numAt m.data 8 4
    onNoticeOk m false (decide (m.data.length = 24) && !(decide (decision = 0) && decide (reason ≠ 0))) (decide (1 < decision)) <| all [
      forwardDown nCOURSE_DECIDE m.data,
      .look fun d => when (d.inCourse && decide (d.cur = c))
        (if decision = 0 then commitHere else abandonHere (if 10 < reason then vLINK else reason) true),
      when (decide (next ≠ noCourse)) (openFresh next (numAt m.data 16 8))]

/-- EARLY_REQ at the root (R77). -/
def execEarlyReq (m : NMsg) (s : State) : Host.Outcome State Fault Refusal :=
  s.runEngine (.earlyReq m) (onNoticeOk m false (decide (m.data.length = 12)) false wantEarly)

/-- VOTE at the root (R89, R90). -/
def execVote (m : NMsg) (s : State) : Host.Outcome State Fault Refusal :=
  s.runEngine (.vote m) <| onNoticeOk m false (decide (m.data.length = 40)) false
    (acceptVote (numAt m.data 0 4) (numAt m.data 4 2) (numAt m.data 6 1))

/-- GROUP_DIGEST at the keeper of a replica group (R82, R142). -/
def execGroupDigest (m : NMsg) (s : State) : Host.Outcome State Fault Refusal :=
  s.runEngine (.groupDigest m) <|
    let n := numAt m.data 12 4
    onNoticeOk m false (decide (n ≠ 0) && decide (m.data.length = 16 + 32 * n)) false <| .look fun d =>
      match d.memberOf m.src.toNat with
      | some i => when (d.inCourse && decide (d.cur = numAt m.data 0 4)) (all [
          modCourse fun c => { c with digests := c.digests ++ [(i, numAt m.data 4 2, numAt m.data 8 4, m.data.drop 16)] },
          keeperCheck, tryVote])
      | none => .done

/-- The answer to COURSE_QUERY (Table 3.1). A commit decision record that this Ozmund holds as partner makes the course it names
the last COMMITTED one (R91, R93). -/
def Dev.queryAnswer (d : Dev) : List Byte :=
  let committed := (topCourse (courseNo (d.get CRS_COURSE_COMMITTED)) d.heldDecision).getD noCourse
  pack [(4, d.cur), (4, committed), (8, (d.word CRS_STAT_STATE.addr).toNat), (4, d.get CRS_ROOT_ADDR), (4, 0)] ++
    (match d.shore.plan with | some p => p.bytes | none => List.replicate 24 0) ++
    pack [(1, d.shore.rewoundSent.toNat), (7, 0)]

/-- COURSE_QUERY (R71, R92, R93): answered with the course state; at the root it ends the hold on the asker (R90). The partner of
a root answers for the root's job too, under the epoch its partner declared (R343). A query from the root that this member knows is one of a
root newly named, and notices that no plan has answered go to it again (Table 4.4). -/
def execCourseQuery (m : NMsg) (s : State) : Host.Outcome State Fault Refusal :=
  s.runUp <| .look fun d =>
    onNotice m (decide (m.epoch.toNat = d.get HUB_PAIR_PEPOCH) && decide (m.epoch ≠ 0)) (decide (m.data.length = 4)) false <| .look fun d =>
      .seq (pAnswer m.src.toNat m.seq.toNat stOK 0 d.queryAnswer)
        (.seq (when d.isRoot (match d.memberOf m.src.toNat with
          | some i => endHold i
          | none => .done)) (when (!d.isRoot && decide (m.src.toNat = d.get CRS_ROOT_ADDR)) noticesAgain))

/-- Every share is drained, stored, hashed and far-copied (Table 3.3): the manifest is sealed, and the copies of replica groups
are compared. -/
def execDrainComplete (s : State) : Host.Outcome State Fault Refusal :=
  s.runEngine .drainComplete (.seq localDone (.look fun d => when d.drained (.seq sealCourse keeperCheck)))

/-! ## Timers of the drain -/

/-- Whether granules of a slot have not been acknowledged. -/
def Dev.slotUnacked (d : Dev) (n : Nat) : Bool := (List.range (d.slotTable n).granCount).any fun g => !(d.acked n g)

/-- DIRTY_MS has passed while granules of a slot that has been cut remain unacknowledged (R78): DIRTY_REQ again; 0 asks for D0 only. -/
def execDirtyReqRepeat (n : Slot) (s : State) : Host.Outcome State Fault Refusal :=
  s.runEngine (.dirtyReqRepeat n) <| .look fun d =>
    when (decide (d.get CRS_TIMEOUT_DIRTY_MS ≠ 0) && (decide (d.kState = kDRAINING) || decide (d.kState = kOPENING)) && bitOf (d.get CRS_STAT_CUT) n.val && d.remote n.val && d.slotUnacked n.val)
      (oReq n.val 0x1A 0)

/-- The granules that a drain request names, and those among them that have not come whole. -/
def Dev.requested (d : Dev) (n : Nat) (r : SReq) : List Nat :=
  let start := (((d.slotTable n).stateRegions.find? fun e => decide (e.1.entry = r.arg % 2 ^ 6)).map (·.2)).getD 0
  (List.range (r.arg / 2 ^ 32)).map fun i => start + r.arg / 2 ^ 8 % 2 ^ 24 + i
def Dev.partly (d : Dev) (n : Nat) (r : SReq) : List Nat :=
  (d.requested n r).filter fun g => !(d.acked n g) && !((d.shardOf n g).any fun s => d.granuleHere s g)

/-- A drain request has not been answered within REQ_MS (Table 3.10): it is sent again, and what it left partly received is discarded (R79). -/
def execDrainReqTimeout (n : Slot) (seq : W32) (s : State) : Host.Outcome State Fault Refusal :=
  s.runEngine (.drainReqTimeout n seq) <| .look fun d =>
    match (d.drainsOut n.val).find? fun r => decide (r.seq = seq.toNat) with
    | some r => when (decide (d.kState = kDRAINING)) (all [
        modSlot n.val fun x => { x with reqs := x.reqs.filter fun q => decide (q ≠ r) },
        dropGranules n.val (d.partly n.val r), oReq n.val 0x14 r.arg])
    | none => .done

/-- A slot makes no drain progress for PROGRESS_MS (R42, Table 3.10): LINK. -/
def execDrainProgressTimeout (n : Slot) (s : State) : Host.Outcome State Fault Refusal :=
  s.runEngine (.drainProgressTimeout n) <| .look fun d =>
    when (d.inCourse && bitOf (d.get CRS_STAT_CUT) n.val && !(bitOf (d.get CRS_STAT_DONE) n.val) && !d.voted) (abandonHere vLINK true)

/-- No decision within VOTE_MS (R92, R93): a member that has voted asks the root and the root's partner; one that has not abandons
its course by itself. -/
def execRootSilentTimeout (s : State) : Host.Outcome State Fault Refusal :=
  s.runEngine .rootSilentTimeout <| .look fun d =>
    let root := d.get CRS_ROOT_ADDR
    let ask (a : Nat) : Prog := notify a nCOURSE_QUERY (leBytes 4 d.cur)
    when d.inCourse (if d.voted then .seq (ask root) (ask (d.partnerOf root)) else abandonHere vORDER false)

/-! ## CRS_CTRL (Table 3.14) -/

/-- EARLY_REQ with code 0: a course is requested (R77). -/
def requestCourse : Prog :=
  .look fun d => when (decide (d.epoch ≠ 0)) (.seq (tally 1385 1) <| toRoot nEARLY_REQ (pack [(2, d.get CRS_ROOT_MEMBER), (1, 0), (1, 0), (8, d.topStep)]))

/-- The course in progress is abandoned with ORDER, unless the vote is sent. -/
def orderAbandon : Prog := .look fun d => when (d.inCourse && !d.voted) (abandonHere vORDER true)

/-- A write of CRS_CTRL: OPEN is cleared when EARLY_REQ is sent, ABANDON when the vote is, and clearing EN during a course
abandons it. -/
def writeCrsCtrl (v : W64) : Prog :=
  .look fun d => all [
    writePlain CRS_CTRL_EN.addr v,
    when (decide (CRS_CTRL_OPEN.of v = 1)) (.seq requestCourse (put CRS_CTRL_OPEN 0)),
    when (decide (CRS_CTRL_ABANDON.of v = 1)) (.seq orderAbandon (put CRS_CTRL_ABANDON 0)),
    when (d.on CRS_CTRL_EN && decide (CRS_CTRL_EN.of v = 0)) orderAbandon]

/-- CRS_CTRL.OPEN written 1 (R77). -/
def execCrsCtrlOpen (v : W64) (s : State) : Host.Outcome State Fault Refusal :=
  s.runUp (when (decide (CRS_CTRL_OPEN.of v = 1)) (writeCrsCtrl v))

/-- CRS_CTRL.ABANDON written 1 (Table 3.14). -/
def execCrsCtrlAbandon (v : W64) (s : State) : Host.Outcome State Fault Refusal :=
  s.runUp (when (decide (CRS_CTRL_ABANDON.of v = 1)) (writeCrsCtrl v))

/-- CRS_CTRL.EN written 0 (Table 3.14). -/
def execCrsCtrlEnClear (v : W64) (s : State) : Host.Outcome State Fault Refusal :=
  s.runUp (when (decide (CRS_CTRL_EN.of v = 0)) (writeCrsCtrl v))

/-! ## The root's partner, losses and shorings -/

/-- DECISION_REC (R90, R91): the partner of the root holds the record and acknowledges it. -/
def execDecisionRec (m : NMsg) (s : State) : Host.Outcome State Fault Refusal :=
  s.runEngine (.decisionRec m) <| onPairOk m (decide (m.data.length = 16)) false <|
    .seq (modHold fun h => { h with decision := some m.data }) (notify m.src.toNat nDECISION_ACK (m.data.take 4))

/-- DECISION_ACK (R91): the decision stands, and COURSE_DECIDE goes out. -/
def execDecisionAck (m : NMsg) (s : State) : Host.Outcome State Fault Refusal :=
  s.runEngine (.decisionAck m) <| onPairOk m (decide (m.data.length = 4)) false <| .look fun d =>
      when (d.isRoot && decide (d.course.deciding.map (·.course) = some (numAt m.data 0 4))) announce

/-- Causes of LOST_REPORT (Table 13.6). -/
def lostLOST : Nat := 1

/-- LOST_REPORT at the root (R90, R112, R344, R365). Its sender need not be a member. -/
def execLostReport (m : NMsg) (s : State) : Host.Outcome State Fault Refusal :=
  s.runEngine (.lostReport m) <| .look fun d =>
    onNoticeOk m (decide (m.epoch.toNat = d.epoch) && decide (d.epoch ≠ 0)) (decide (m.data.length = 12)) false <| .look fun d =>
      let cause := numAt m.data 8 1
      match d.memberOf (numAt m.data 0 4) with
      | none => .done
      | some i => when (d.isRoot && decide (numAt m.data 4 4 = d.epoch)) <|
          if cause = lostLOST then all [
            modStart fun x => { x with lost := if x.lost.contains i then x.lost else x.lost ++ [i] },
            missVote i vTIMEOUT,
            .look fun d => when (d.shore.rooting && !(d.shore.rewound.contains i)) (superseding [i])]
          else .seq (modCourse fun c => { c with holds := if c.holds.contains i then c.holds else c.holds ++ [i] }) (missVote i vRESET)

/-- Whether a SHORE_NOTICE asks for the group spare of this tray (R129): one that the root has had already, or that reaches a member that is not
the root (notes/assumptions/184). -/
def Dev.forSpare (d : Dev) (pos cause : Nat) : Bool :=
  d.mode.compat && decide (d.spareAddr = d.ownAddr) && decide (cause ≠ 0) && (!d.isRoot || d.shore.notices.contains pos)
/-- Whether the group spare of this tray is free for a position. -/
def Dev.spareFree (d : Dev) (pos : Nat) : Bool :=
  (d.shore.cover.all fun c => decide (c.pos = pos)) && decide (d.slotState d.spareSlot = sIDLE) && (d.slot d.spareSlot).id.isSome

/-- SHORE_NOTICE at the root (R106, R108): a position is to be covered; cause 0 asks for the rewind of a handback (R127), and any other is a
declaration, which takes SHR_CFG and SHR_TIMEOUT. The Ozmund of a group spare takes the position, or is BUSY (R129). -/
def execShoreNotice (m : NMsg) (s : State) : Host.Outcome State Fault Refusal :=
  s.runEngine (.shoreNotice m) <| onNotice m false (decide (m.data.length = 24)) false <| .look fun d =>
    let pos := numAt m.data 0 4
    let cause := numAt m.data 7 1
    let ans (st : Nat) : Prog := pAnswer m.src.toNat m.seq.toNat st
    if d.forSpare pos cause then
      (if d.spareFree pos then .seq (ans stOK) (takeCover pos m.src.toNat) else ans stBUSY)
    else all [ans stOK, when (d.isRoot && decide (cause ≠ 0)) takeShrCfg, rootNotice [pos] (decide (cause = 0))]

/-- DECIDE_MS after a SHORE_NOTICE (R106): missing votes are filled in, and the course is decided. -/
def execDecideWindowEnd (s : State) : Host.Outcome State Fault Refusal :=
  s.runEngine .decideWindowEnd <| .look fun d =>
    when (d.isRoot && !d.shore.notices.isEmpty && d.course.open_.isSome && d.course.deciding.isNone) (decideCourse false vTIMEOUT)

end Sys2Proof.Machine
end

