-- ==== Sys2Proof/Machine/Package.lean ====
section
/-! DEFINITION. Staged bytes, and the Setout package: its head, its chunks, its sections, the parse of R338 and the capacity
tests of R86 and R102. -/

namespace Sys2Proof.Machine

/-! ## Staged bytes -/

/-- Joins a range to a list of ranges that rises and does not touch. -/
def joinRange (a n : Nat) : List (Nat × Nat) → List (Nat × Nat)
  | [] => [(a, n)]
  | (b, m) :: rs =>
    if a + n < b then (a, n) :: (b, m) :: rs
    else if b + m < a then (b, m) :: joinRange a n rs
    else joinRange (min a b) (max (a + n) (b + m) - min a b) rs

/-- Whether a range lies within the ranges received. -/
def coversRange (rs : List (Nat × Nat)) (a n : Nat) : Bool :=
  decide (n = 0) || rs.any fun r => decide (r.1 ≤ a) && decide (a + n ≤ r.1 + r.2)

/-- Takes a range out of the ranges received. -/
def dropRange (rs : List (Nat × Nat)) (a n : Nat) : List (Nat × Nat) :=
  rs.flatMap fun r => (if r.1 < a then [(r.1, min r.2 (a - r.1))] else []) ++
    (if a + n < r.1 + r.2 then [(max r.1 (a + n), r.1 + r.2 - max r.1 (a + n))] else [])

/-- A byte that has not been staged. -/
def stageDflt (_ : Nat) : Byte := 0
def Stage.put (s : Stage) (off : Nat) (bs : List Byte) : Stage :=
  { bytes := Store.putAll stageDflt s.bytes off bs, have_ := if bs.isEmpty then s.have_ else joinRange off bs.length s.have_ }
def Stage.covers (s : Stage) (off n : Nat) : Bool := coversRange s.have_ off n
def Stage.get (s : Stage) (off n : Nat) : List Byte := Store.getAll stageDflt s.bytes off n
def Stage.drop (s : Stage) (off n : Nat) : Stage :=
  { bytes := Store.clearRange s.bytes off n, have_ := dropRange s.have_ off n }

/-! ## The head (R336, Table 12.7) -/

def headLen (h : List Byte) : Nat := numAt h 36 4
def pkgSections (h : List Byte) : Nat := numAt h 18 2
def pkgChunks (h : List Byte) : Nat := numAt h 20 4
def bodyLen (h : List Byte) : Nat := numAt h 24 8
/-- SHA-256 of a chunk, as the chunk table gives it. -/
def chunkSha (h : List Byte) (j : Nat) : List Byte := cut_ h (4096 + 32 * pkgSections h + 32 * j) 32
/-- Bytes of a chunk. -/
def chunkLen (h : List Byte) (j : Nat) : Nat := min 0x100000 (bodyLen h - 0x100000 * j)

/-- An entry of the section directory: type, OPTIONAL, place in the body, its own offset in the package. -/
structure Section where
  ty : Nat
  optional : Bool
  off : Nat
  len : Nat
  at_ : Nat
deriving DecidableEq, Repr

/-- The section directory. -/
def sectionsOf (h : List Byte) : List Section :=
  (List.range (pkgSections h)).map fun i =>
    let b := cut_ h (4096 + 32 * i) 32
    ⟨numAt b 0 2, bitOf (numAt b 2 2) 0, numAt b 8 8, numAt b 16 8, 4096 + 32 * i⟩

/-- The chunks of this member's package that have been verified. -/
def Dev.heldChunks (d : Dev) : List Nat := d.start.chunks.map (·.1)
/-- Bytes of a verified chunk. -/
def Dev.chunkBytes (d : Dev) (j : Nat) : List Byte := d.start.stage.get (d.start.head.length + 0x100000 * j) (chunkLen d.start.head j)
/-- Whether a part of the body lies in verified chunks. -/
def Dev.bodyHeld (d : Dev) (off n : Nat) : Bool :=
  decide (n = 0) || (List.range ((off + n - 1) / 0x100000 - off / 0x100000 + 1)).all fun i => d.heldChunks.contains (off / 0x100000 + i)
/-- Whether the whole package is held. -/
def Dev.packageHeld (d : Dev) : Bool :=
  !d.start.head.isEmpty && (List.range (pkgChunks d.start.head)).all fun j => d.heldChunks.contains j
/-- A section of the body. -/
def Dev.sectionOf (d : Dev) (ty : Nat) : Option Section := (sectionsOf d.start.head).find? fun s => decide (s.ty = ty)
def Dev.sectionBytes (d : Dev) (ty : Nat) : List Byte :=
  match d.sectionOf ty with
  | some s => d.start.stage.get (d.start.head.length + s.off) s.len
  | none => []

/-! ## Records (Table 12.8) -/

/-- Cuts a list into records of a fixed length. -/
def records (n : Nat) (bs : List Byte) : List (List Byte) := (List.range (bs.length / max 1 n)).map fun i => cut_ bs (n * i) n

def posRecs (bs : List Byte) : List PosRec :=
  (records 16 bs).map fun r => ⟨numAt r 0 4, numAt r 4 2, numAt r 6 1, bitOf (numAt r 7 1) 0, numAt r 8 2, numAt r 12 4⟩
def memberRecs (bs : List Byte) : List (Nat × Bool) := (records 8 bs).map fun r => (numAt r 0 4, bitOf (numAt r 4 1) 0)
def regionRecs (bs : List Byte) : List (Nat × List Byte) := (records 1152 bs).map fun r => (numAt r 0 4, r)
def planRecs (bs : List Byte) : List PlanRec := (records 32 bs).map fun r => ⟨numAt r 0 4, numAt r 4 2, numAt r 8 8, numAt r 16 8⟩

/-- Replica groups with the offset of each. -/
def groupRecs : Nat → Nat → List Byte → List (Nat × GroupRec)
  | 0, _, _ => []
  | fuel + 1, off, bs =>
    if bs.isEmpty then []
    else
      let m := numAt bs 6 2
      (off, ⟨numAt bs 0 2, numAt bs 2 1, numAt bs 4 2, (List.range m).map fun i => numAt bs (8 + 4 * i) 4⟩) ::
        groupRecs fuel (off + 8 + 4 * m) (bs.drop (8 + 4 * m))

/-- WITNESS records with the offset of each: program, period and pairs. -/
def witnessRecs : Nat → Nat → List Byte → List (Nat × Nat × List (Nat × Nat))
  | 0, _, _ => []
  | fuel + 1, off, bs =>
    if bs.isEmpty then []
    else
      let p := numAt bs 4 4
      (off, numAt bs 0 2, (List.range (min 256 p)).map fun i => (numAt bs (8 + 8 * i) 4, numAt bs (12 + 8 * i) 4)) ::
        witnessRecs fuel (off + 8 + 8 * p) (bs.drop (8 + 8 * p))

/-- Programs of the PROGRAMS section: the offset of each record, its T and its images as places in the section. -/
def programRecs : Nat → Nat → List Byte → List (Nat × Nat × List (Nat × Nat))
  | 0, _, _ => []
  | fuel + 1, off, bs =>
    let t := numAt bs 0 2
    (off, t, (List.range (min 256 t)).map fun i => (numAt bs (8 + 16 * i) 8, numAt bs (16 + 16 * i) 8)) ::
      programRecs fuel (off + 8 + 16 * t) (bs.drop (8 + 16 * t))

/-- Route records with the offset of each: position, E, entries. -/
def routeRecs : Nat → Nat → List Byte → List (Nat × Nat × Nat × List (Nat × Nat))
  | 0, _, _ => []
  | fuel + 1, off, bs =>
    if bs.isEmpty then []
    else
      let e := numAt bs 4 4
      (off, numAt bs 0 4, e, (List.range (min 16384 e)).map fun i => (numAt bs (8 + 8 * i) 4, numAt bs (12 + 8 * i) 1)) ::
        routeRecs fuel (off + 8 + 8 * e) (bs.drop (8 + 8 * e))

/-- The package as parsed. -/
structure Package where
  job : Job
  root : Nat
  cfg : List Byte

/-- The sections as the member keeps them. -/
def Dev.package (d : Dev) : Package :=
  let h := d.start.head
  let ms := memberRecs (d.sectionBytes 2)
  let progs := d.sectionBytes 7
  let wit := d.sectionBytes 6
  let rts := d.sectionBytes 8
  { job := {
      c0 := numAt h 32 4, s0 := numAt h 40 8, quiet := bitOf (numAt h 10 2) 0,
      members := ms.map (·.1),
      positions := posRecs (d.sectionBytes 1),
      regions := regionRecs (d.sectionBytes 3),
      groups := (groupRecs (d.sectionBytes 4).length 0 (d.sectionBytes 4)).map (·.2),
      plan := planRecs (d.sectionBytes 5),
      witness := (witnessRecs wit.length 0 wit).map (·.2),
      images := (programRecs (min 65536 (numAt progs 0 4)) 8 (progs.drop 8)).map fun p => p.2.2.map fun i => cut_ progs i.1 i.2,
      routes := (routeRecs rts.length 0 rts).map fun r => (r.2.1, r.2.2.2),
      cfg := d.sectionBytes 9, z := d.job.z },
    root := (ms.find? (·.2)).elim 0 (·.1),
    cfg := d.sectionBytes 9 }

/-! ## The parse (R338) -/

/-- A failure of the parse: status and offset in the package. -/
abbrev PkgFail := Nat × Nat

/-- The lowest offset of the failures of a kind; none where there are none. -/
def lowest (fs : List (Bool × Nat)) : Option Nat :=
  (fs.filter (·.1)).foldl (fun m f => match m with | none => some f.2 | some x => some (min x f.2)) none

/-- Values of a list that stand in it before, by place. -/
def repeats {α : Type} [DecidableEq α] (xs : List α) : List Nat := (List.range xs.length).filter fun i => match xs[i]? with
  | some x => (xs.take i).contains x
  | none => false

/-- UNSUPPORTED: magic, version, an unknown section type without OPTIONAL. -/
def Dev.pkgUnsupported (d : Dev) : List (Bool × Nat) :=
  let h := d.start.head
  [(decide (h.take 8 ≠ ascii "AZSETOUT"), 0), (decide (numAt h 8 2 ≠ 1), 8)] ++
    (sectionsOf h).map fun s => (!s.optional && !(decide (1 ≤ s.ty) && decide (s.ty ≤ 9)), s.at_)

/-- Where a section's bytes begin in the package. -/
def Dev.secAt (d : Dev) (ty : Nat) : Nat := d.start.head.length + ((d.sectionOf ty).map (·.off)).getD 0

/-- LENGTH: counts and lengths outside Tables 12.7 and 12.8, and replica regions of unequal length. -/
def Dev.pkgLength (d : Dev) : List (Bool × Nat) :=
  let h := d.start.head
  let n := numAt h 12 4
  let oz := numAt h 16 2
  let body := bodyLen h
  let p := d.package.job
  let len (ty : Nat) : Nat := (d.sectionBytes ty).length
  let dir (ty want : Nat) : Bool × Nat := ((d.sectionOf ty).any fun s => decide (s.len ≠ want), ((d.sectionOf ty).map (·.at_ + 16)).getD 0)
  [ (decide (n = 0) || decide (n = 0xFFFFFFFF), 12), (decide (oz = 0) || decide (2048 < oz), 16),
    (decide (pkgSections h = 0) || decide (64 < pkgSections h), 18),
    (decide (pkgChunks h ≠ (body + 0xFFFFF) / 0x100000), 20), (decide (64 * gib < body), 24),
    (decide (headLen h ≠ (4096 + 32 * pkgSections h + 32 * pkgChunks h + 4095) / 4096 * 4096), 36) ] ++
  (sectionsOf h).map (fun s => (decide (body < s.off + s.len), s.at_ + 16)) ++
  [dir 1 (16 * n), dir 2 (8 * oz), dir 3 (1152 * n), dir 9 64, (decide (len 5 % 32 ≠ 0), d.secAt 5), (decide (len 7 < 8), d.secAt 7)] ++
  (groupRecs (len 4) 0 (d.sectionBytes 4)).flatMap (fun g =>
    let lens := g.2.positions.map fun q => (((recAgent (((p.regions.find? fun r => decide (r.1 = q)).map (·.2)).getD [])).region g.2.region).map (·.blocks)).getD 0
    [(decide (g.2.positions.length < 2), d.secAt 4 + g.1 + 6), (!(allSame lens), d.secAt 4 + g.1)]) ++
  (witnessRecs (len 6) 0 (d.sectionBytes 6)).map (fun w =>
    let per := numAt (d.sectionBytes 6) (w.1 + 4) 4
    (decide (per = 0) || decide (256 < per) || decide (len 6 < w.1 + 8 + 8 * per), d.secAt 6 + w.1 + 4)) ++
  (programRecs (min 65536 (numAt (d.sectionBytes 7) 0 4)) 8 ((d.sectionBytes 7).drop 8)).flatMap (fun r =>
    (decide (r.2.1 = 0) || decide (256 < r.2.1), d.secAt 7 + r.1) ::
      r.2.2.zipIdx.map fun i => (decide (len 7 < i.1.1 + i.1.2), d.secAt 7 + r.1 + 8 + 16 * i.2)) ++
  (routeRecs (len 8) 0 (d.sectionBytes 8)).map fun r => (decide (16384 < r.2.2.1) || decide (len 8 < r.1 + 8 + 8 * r.2.2.1), d.secAt 8 + r.1 + 4)

/-- The bytes of a record that are reserved and must be 0, by its length's section. -/
def reservedZero (d : Dev) (ty n : Nat) (rs : List (Nat × Nat)) : List (Bool × Nat) :=
  (records n (d.sectionBytes ty)).zipIdx.flatMap fun r => rs.map fun z => (!(zeroAt r.1 z.1 z.2), d.secAt ty + n * r.2 + z.1)

/-- A word of COURSE_CFG whose reserved bits are not 0. -/
def cfgBad (d : Dev) (k addr : Nat) : Bool × Nat :=
  let w := BitVec.ofNat 64 (numAt (d.sectionBytes 9) (8 * k) 8)
  (decide (w &&& implMask ctlRows addr ≠ w), d.secAt 9 + 8 * k)

/-- FAULT: nonzero reserved bytes, missing or repeated sections, values out of range, and references that do not exist. -/
def Dev.pkgFault (d : Dev) : List (Bool × Nat) :=
  let h := d.start.head
  let p := d.package.job
  let ms := memberRecs (d.sectionBytes 2)
  let posOk (q : Nat) : Bool := p.positions.any fun r => decide (r.pos = q)
  let secs := sectionsOf h
  let progs := numAt (d.sectionBytes 7) 0 4
  let group (q r : Nat) : Option Nat :=
    let t := recAgent (((p.regions.find? fun e => decide (e.1 = q)).map (·.2)).getD [])
    (t.region r).map fun _ => t.get (QAG_REG_A_RGROUP r)
  let at1 (i off : Nat) : Nat := d.secAt 1 + 16 * i + off
  [ (!(zeroAt h 48 4048), 48), (decide (2 ≤ numAt h 10 2), 10), (decide (numAt h 32 4 = noCourse), 32),
    (!(zeroAt h (4096 + 32 * pkgSections h + 32 * pkgChunks h) (h.length - (4096 + 32 * pkgSections h + 32 * pkgChunks h))), 4096 + 32 * pkgSections h + 32 * pkgChunks h) ] ++
  secs.map (fun s => (!(zeroAt h (s.at_ + 4) 4) || !(zeroAt h (s.at_ + 24) 8) || decide (2 ≤ numAt h (s.at_ + 2) 2), s.at_ + 2)) ++
  ((List.range 9).map fun t => (!(secs.any fun s => decide (s.ty = t + 1)), 4096)) ++
  ((repeats (secs.map (·.ty))).map fun i => (true, 4096 + 32 * i)) ++
  reservedZero d 1 16 [(10, 2)] ++ reservedZero d 2 8 [(5, 3)] ++ reservedZero d 3 1152 [(4, 4), (48, 80)] ++ reservedZero d 5 32 [(6, 2), (24, 8)] ++
  p.positions.zipIdx.flatMap (fun r => [
    (decide (8 ≤ r.1.slot), at1 r.2 6), (decide (2 ≤ numAt (d.sectionBytes 1) (16 * r.2 + 7) 1), at1 r.2 7),
    (decide (ms.length ≤ r.1.member), at1 r.2 4), (decide (p.positions.length ≤ r.1.pos), at1 r.2 0),
    (decide (progs ≤ r.1.program), at1 r.2 8),
    (decide ((p.witness.filter fun w => decide (w.1 = r.1.program)).length ≠ 1), at1 r.2 8)]) ++
  ((repeats (p.positions.map (·.pos))).map fun i => (true, at1 i 0)) ++
  ((repeats (p.positions.map fun r => (r.member, r.slot))).map fun i => (true, at1 i 4)) ++
  ms.zipIdx.map (fun m => (decide (2 ≤ numAt (d.sectionBytes 2) (8 * m.2 + 4) 1) || decide (2 ^ 22 ≤ m.1.1), d.secAt 2 + 8 * m.2)) ++
  ((repeats (ms.map (·.1))).map fun i => (true, d.secAt 2 + 8 * i)) ++
  [(decide ((ms.filter (·.2)).length ≠ 1), d.secAt 2),
   (!d.start.joining && !(ms.any fun m => decide (m.1 = d.ownAddr)), d.secAt 2)] ++
  p.regions.zipIdx.map (fun r => (!(posOk r.1.1), d.secAt 3 + 1152 * r.2)) ++
  ((repeats (p.regions.map (·.1))).map fun i => (true, d.secAt 3 + 1152 * i)) ++
  p.regions.zipIdx.flatMap (fun r => (List.range 64).map fun k =>
    ((group r.1.1 k).any fun x => decide (x ≠ 0) && !(p.groups.any fun g => decide (g.id = x) && decide (g.region = k) && g.positions.contains r.1.1),
      d.secAt 3 + 1152 * r.2 + 128 + 16 * k)) ++
  (groupRecs (d.sectionBytes 4).length 0 (d.sectionBytes 4)).flatMap (fun g => [
    (decide (numAt (d.sectionBytes 4) (g.1 + 3) 1 ≠ 0), d.secAt 4 + g.1 + 3), (decide (ms.length ≤ g.2.keeper), d.secAt 4 + g.1 + 4),
    (g.2.positions.any fun q => !(posOk q), d.secAt 4 + g.1 + 8),
    (g.2.positions.any fun q => decide (group q g.2.region ≠ some g.2.id), d.secAt 4 + g.1 + 2)]) ++
  p.plan.zipIdx.map (fun e => (decide (4096 ≤ e.1.idx) || (decide (e.1.pos ≠ noPos) && !(posOk e.1.pos)), d.secAt 5 + 32 * e.2)) ++
  (witnessRecs (d.sectionBytes 6).length 0 (d.sectionBytes 6)).map (fun w =>
    (decide (numAt (d.sectionBytes 6) (w.1 + 2) 2 ≠ 0) || decide (progs ≤ w.2.1), d.secAt 6 + w.1)) ++
  [(decide (numAt (d.sectionBytes 7) 4 4 ≠ 0), d.secAt 7 + 4)] ++
  (programRecs (min 65536 progs) 8 ((d.sectionBytes 7).drop 8)).map (fun r =>
    (!(zeroAt (d.sectionBytes 7) (r.1 + 2) 6) || (r.2.2.any fun i => decide ((parseImage (cut_ (d.sectionBytes 7) i.1 i.2)).1 ≠ stOK)), d.secAt 7 + r.1)) ++
  (routeRecs (d.sectionBytes 8).length 0 (d.sectionBytes 8)).flatMap (fun r =>
    (!(posOk r.2.1), d.secAt 8 + r.1) :: r.2.2.2.zipIdx.map fun e =>
      (decide (11 < e.1.2) || !(posOk e.1.1) || !(zeroAt (d.sectionBytes 8) (r.1 + 8 + 8 * e.2 + 5) 3), d.secAt 8 + r.1 + 8 + 8 * e.2)) ++
  [cfgBad d 0 CRS_CFG_INTERVAL.addr, cfgBad d 2 CRS_TIMEOUT_VOTE_MS.addr, cfgBad d 3 CRS_WATCH0_CE.addr, cfgBad d 4 CRS_WATCH1_OWN_CE.addr,
   cfgBad d 5 SHR_CFG_HB_MISS.addr, (!(zeroAt (d.sectionBytes 9) 48 16), d.secAt 9 + 48)] ++
  (if d.get SPR_MODE_MODE = 1 then [
    (!(ms.any fun m => decide (m.1 = d.get SPR_GROUP_SPARE_ADDR)), d.secAt 2),
    (p.positions.any fun r => decide ((ms[r.member]?).any fun m => decide (m.1 = d.get SPR_GROUP_SPARE_ADDR)) && decide (r.slot = d.get SPR_GROUP_SPARE_SLOT), d.secAt 1)]
  else [])

/-- The first failure of the parse, in the order of R13. -/
def Dev.pkgFails (d : Dev) : Option PkgFail :=
  ((lowest d.pkgUnsupported).map fun o => (stUNSUPPORTED, o)) <|> ((lowest d.pkgLength).map fun o => (stLENGTH, o)) <|>
    ((lowest d.pkgFault).map fun o => (stFAULT, o))

/-! ## Capacity (R86, R102) -/

/-- 4 KiB blocks of a member's stored shards for one course, and their number, with dedup as enabled and no carrying. `far`:
only those that R83 forwards. -/
def memberNeed (j : Job) (member : Nat) (dedup far : Bool) : List Nat :=
  let mine := j.positions.filter fun p => decide (p.member = member)
  mine.flatMap fun p =>
    let t := recAgent (((j.regions.find? fun r => decide (r.1 = p.pos)).map (·.2)).getD [])
    (t.shards p.slot).filterMap fun s =>
      let g := j.groups.find? fun g => decide (g.region = s.region) && g.positions.contains p.pos
      let here := match g with
        | some g => (mine.filter fun (q : PosRec) => g.positions.contains q.pos).map fun (q : PosRec) => q.slot
        | none => [p.slot]
      let sorted := (List.range 8).filter fun n => here.contains n
      let holder := if dedup && decide (2 ≤ sorted.length) then sorted.getD (s.num % sorted.length) p.slot else p.slot
      let away := g.any fun g => g.positions.any fun q => j.positions.any fun r => decide (r.pos = q) && decide (r.member ≠ member)
      if holder ≠ p.slot ∨ (far ∧ away) then none else some s.blocks

/-- Tier pages that shards of some blocks take, each from a 2 MiB page of its own. -/
def pagesOf (bs : List Nat) : Nat := sumOf bs fun b => (b + 511) / 512

/-- Tier pages of this member's own shards for two courses, and of the far area that it must hold (R86). -/
def Dev.ownNeed (d : Dev) (j : Job) (member : Nat) (dedup : Bool) : Nat := 2 * pagesOf (memberNeed j member dedup false)
def Dev.farNeed (d : Dev) (j : Job) (dedup : Bool) : Nat :=
  let partner := j.members.findIdx fun a => decide (a = d.partnerAddr)
  if partner < j.members.length then 2 * pagesOf (memberNeed j partner dedup true)
  else if d.get HUB_PAIR_PEPOCH ≠ 0 ∧ d.hold.reserveEpoch = d.get HUB_PAIR_PEPOCH then d.hold.reserve * 512
  else 0

/-- The capacity tests: none where they pass, else the offset that R338's LENGTH carries. -/
def Dev.lacksRoom (d : Dev) (j : Job) (member : Nat) (dedup : Bool) : Option Nat :=
  let mine := j.positions.filter fun p => decide (p.member = member)
  let shoreNeed := mine.map fun p =>
    let t := recAgent (((j.regions.find? fun r => decide (r.1 = p.pos)).map (·.2)).getD [])
    sumOf t.stateRegions (fun e => e.1.blocks) * 4096 + t.get QAG_CBUF_CFG_SIZE * gib + p.work * gib
  if d.ddrUpPages < d.ownNeed j member dedup + d.farNeed j dedup then some (d.secAt 3)
  else if 131072 < 2 * (memberNeed j member dedup false).length then some (d.secAt 3)
  else if shoreNeed.any fun n => decide ((d.get MMU_PART_SHORE_GIB + d.get MMU_PART_GUEST_GIB) * gib < n) then some (d.secAt 1)
  else none

end Sys2Proof.Machine
end

