-- ==== Sys2Proof/Machine/PodOps.lean ====
section
/-! DEFINITION. Job admission, start and teardown at one member (R336, R338, R347 to R359): the tree, the staging of the package, the
intake of the initial course, loading, and the scrub. -/

namespace Sys2Proof.Machine

/-! ## Phases (Table 13.11) -/

def hNONE : Nat := 0
def hSTAGING : Nat := 1
def hPARSED : Nat := 2
def hINTAKE : Nat := 3
def hLOADING : Nat := 4
def hREADY : Nat := 5
def hSTARTED : Nat := 6
def hABORTED : Nat := 7
def hTEARDOWN : Nat := 8
def hSCRUBBING : Nat := 9

def Dev.hPhase (d : Dev) : Nat := d.get HUB_START_PHASE
def setPhase (p : Nat) : Prog := put HUB_START_PHASE p

/-- The JOB record (Table 16.8): 1 admitted, 2 start aborted, 3 teardown, 4 scrub done. -/
def recordJob (sub : Nat) : Prog := .look fun d => record 0x10 sub (pack [(4, d.peerEpoch), (2, d.nOz)])

/-- The outcome of an admission, as an event (R335, R336). -/
def admissionEvent (st arg : Nat) : Prog := notice srcAdmission 0 (pack [(1, st), (7, 0), (8, arg)])

/-! ## The tree (R347 to R349) -/

/-- Opens a session to an Ozmund that has none. One to the own address is refused with FAULT, one without a free session with BUSY (R282). -/
def openTo (a : Nat) : Prog :=
  .look fun d => when (d.on RNG_ADDR_ENUM && (d.sessionTo a).isNone) (
    if a = d.ownAddr then modSync fun s => { s with openStatus := stFAULT }
    else match d.slotFor a with
    | some n => openSession n a
    | none => modSync fun s => { s with openStatus := stBUSY })

/-- HUB_TREE from the member index and the root's (R347). -/
def setTree : Prog :=
  .look fun d => all [put HUB_TREE_INDEX d.treeIndex, put HUB_TREE_PARENT (if d.treeIndex = 0 then 0x7FF else (d.treeIndex - 1) / 8),
    put HUB_TREE_REPARENTED 0]

/-- Sends one chunk to a neighbour in the tree: TREE_CHUNK, and its bytes under the handle. -/
def sendChunk (a j : Nat) : Prog :=
  withHandle fun h => .look fun d => all [
    notify a 0x30 (pack [(4, j), (4, 0), (2, h), (6, 0)]), sendBulk a h (d.chunkBytes j),
    modStart fun x => { x with sent := x.sent ++ [(a, j)] }]

/-- A chunk that is held goes once to each child, and to the parent unless it came from there (R348). -/
def spreadChunk (j : Nat) : Prog :=
  .look fun d =>
    let src := (d.start.chunks.find? fun c => decide (c.1 = j)).map (·.2)
    let up := d.parent.toList.filter fun a => decide (src ≠ some a)
    each ((d.children ++ up).filter fun a => decide (a ≠ d.ownAddr) && !(d.start.sent.contains (a, j))) fun a => sendChunk a j
/-- All chunks that are held, once the tree is known. -/
def spreadAll : Prog := .look fun d => when (!d.job.members.isEmpty && decide (d.hPhase = hSTAGING)) (each d.heldChunks spreadChunk)

/-- TREE_WANT for the chunks that are missing, 127 digests to a notice. -/
def wantChunks (a : Nat) : Prog :=
  .look fun d =>
    let js := (List.range (pkgChunks d.start.head)).filter fun j => !(d.heldChunks.contains j)
    each (List.range ((js.length + 126) / 127)) fun i =>
      let part := (js.drop (127 * i)).take 127
      notify a 0x31 (pack [(4, part.length), (4, 0)] ++ part.flatMap (chunkSha d.start.head))

/-- The MEMBERS section is known as soon as its chunks are verified: the member finds itself and its neighbours in the tree. A
replacement stands at the index that HUB_JOIN gives it (R358). -/
def learnMembers : Prog :=
  .look fun d => match d.sectionOf 2 with
    | none => .done
    | some s => when (d.job.members.isEmpty && d.bodyHeld s.off s.len) <|
        let ms := memberRecs (d.sectionBytes 2)
        let own := if d.start.joining then d.get HUB_JOIN_MEMBER else ms.findIdx fun m => decide (m.1 = d.ownAddr)
        let addrs := if d.start.joining then (ms.map (·.1)).set own d.ownAddr else ms.map (·.1)
        let root := ms.findIdx (·.2)
        when (decide (own < ms.length) && decide (root < ms.length)) (all [
          modJob fun j => { j with members := addrs },
          put CRS_ROOT_ADDR (addrs.getD root 0), put CRS_ROOT_IS_ROOT (decide (own = root)).toNat, put CRS_ROOT_MEMBER own, put CRS_ROOT_N_OZ addrs.length,
          setTree,
          .look fun d => each (d.children ++ d.parent.toList ++ [d.get CRS_ROOT_ADDR]).eraseDups openTo,
          when d.start.joining (.look fun d => wantChunks (d.parent.getD (d.get CRS_ROOT_ADDR))),
          spreadAll])

/-! ## Staging (R336) -/

/-- What admission leaves when it is refused before the member enters WATCH, or when scrub ends: nothing of the package. -/
def dropPackage : Prog :=
  all [modStart fun _ => {}, modJob fun _ => {}, put CRS_ROOT_ADDR 0, put CRS_ROOT_IS_ROOT 0, put CRS_ROOT_MEMBER 0, put CRS_ROOT_N_OZ 0,
    put HUB_TREE_INDEX 0, put HUB_TREE_PARENT 0x7FF, put HUB_TREE_REPARENTED 0]

/-- Admission is refused with a status and an ARG (R336, R338). -/
def refuseAdmission (st arg : Nat) : Prog :=
  all [dropPackage, setPhase hABORTED, put HUB_START_STATUS st, admissionEvent st arg, tellPartner]

/-- The head is verified once all of it is present. -/
def takeHead : Prog :=
  .look fun d =>
    let x := d.start.stage
    when (d.start.head.isEmpty && x.covers 0 4096) <|
      let n := max 4096 (headLen (x.get 0 4096))
      when (x.covers 0 n) (if digest (x.get 0 n) = d.start.digest then modStart fun s => { s with head := x.get 0 n }
        else refuseAdmission stFAULT 0)

/-- A chunk is verified when its last byte arrives; one that fails is discarded. -/
def takeChunk (src j : Nat) : Prog :=
  .look fun d =>
    let h := d.start.head
    let base := h.length + 0x100000 * j
    when (!h.isEmpty && decide (j < pkgChunks h) && !(d.heldChunks.contains j) && d.start.stage.covers base (chunkLen h j)) <|
      if digest (d.chunkBytes j) = chunkSha h j then
        all [modStart fun s => { s with chunks := s.chunks ++ [(j, src)] }, learnMembers, when (!d.job.members.isEmpty) (spreadChunk j)]
      else modStart fun s => { s with stage := s.stage.drop base (chunkLen h j) }

/-- Package bytes come from a host (0) or from a neighbour. -/
def stageBytes (src off : Nat) (bs : List Byte) : Prog :=
  .look fun d =>
    let had := !d.start.head.isEmpty
    all [
      modStart fun s => { s with stage := s.stage.put off bs },
      takeHead,
      .look fun d =>
        let h := d.start.head
        when (!h.isEmpty) <|
          if had then
            let lo := (off - h.length) / 0x100000
            each (List.range ((off + bs.length - h.length + 0xFFFFF) / 0x100000 - lo)) fun i => takeChunk src (lo + i)
          else each (List.range (pkgChunks h)) (takeChunk src)]

/-! ## The intake of a course (R351, R352, R357, R358) -/

/-- READY to the root, once (R353); a replacement that cannot load answers the rewind instead. -/
def sendReady (st : Nat) : Prog :=
  .look fun d => when (!d.start.readySent) (all [
    modStart fun s => { s with readySent := true },
    put HUB_START_STATUS st,
    if d.start.joining then when (decide (st ≠ stOK)) (sendRewound 1)
    else toRoot 0x41 (pack [(2, d.get CRS_ROOT_MEMBER), (1, st), (5, 0)])])

/-- A manifest entry from its bytes (Table 3.8). -/
def MEnt.ofBytes (b : List Byte) : MEnt :=
  { pos := numAt b 0 4, region := numAt b 4 1 % 64, flags := numAt b 5 1, group := numAt b 6 2, shard := numAt b 8 4, len := numAt b 12 4,
    offset := numAt b 16 8, course := numAt b 24 4, loc := numAt b 32 8 % 2 ^ 52, tier := numAt b 32 8 / 2 ^ 52 % 4, mark := numAt b 40 16, sha := cut_ b 56 32 }

def manPositions (m : List Byte) : Nat := numAt m 40 4
def manEntries (m : List Byte) : List MEnt := (records 128 (m.drop (4096 + 8448 * manPositions m))).map MEnt.ofBytes
def manCuts (m : List Byte) : List PosCut :=
  (List.range (manPositions m)).map fun i =>
    let b := cut_ m (4096 + 8448 * i) 8448
    { slot := numAt b 4 1, pos := numAt b 0 4, time := numAt b 24 8, grans := numAt b 16 4, shards := numAt b 20 4, ctx := cut_ b 64 8384, shored := bitOf (numAt b 5 1) 0 }

/-- A manifest with its seal computed afresh (R87). -/
def reseal (m : List Byte) : List Byte := m.take 64 ++ digest (m.take 64 ++ List.replicate 32 0 ++ m.drop 96) ++ m.drop 96

/-- Whether a manifest is sealed and is one of course c. -/
def sealedFor (m : List Byte) (c : Nat) : Bool :=
  decide (m.take 8 = ascii "AZCOURSE") && decide (numAt m 8 2 = 1) && bitOf (numAt m 10 2) 0 && decide (numAt m 16 4 = c) &&
    decide (manPositions m ≤ 8) && decide (m.length = 4096 + 8448 * manPositions m + 128 * numAt m 44 4) && decide (numAt m 56 8 = m.length) &&
    decide (reseal m = m)

/-- Whether a manifest is one of course c for positions of this tray. -/
def Dev.manifestOk (d : Dev) (m : List Byte) (c : Nat) : Bool :=
  sealedFor m c && (manEntries m).all fun e => d.myPositions.any fun p => decide (p.pos = e.pos)

/-- The course being taken in. -/
def Dev.taken (d : Dev) : Option Held := if d.hPhase = hINTAKE ∨ d.hPhase = hLOADING then d.course.held.head? else none
def Dev.takenEnts (d : Dev) : List MEnt := (d.taken.map (·.ents)).getD []
def modTaken (f : Held → Held) : Prog := modCourse fun c => { c with held := match c.held with | [] => [] | h :: hs => f h :: hs }

/-- The member that takes a shard in from its host: the fetcher of a group shard, and for any other the member itself (R352). -/
def Dev.fetcher (d : Dev) (e : MEnt) : Nat :=
  match d.job.groups.find? fun g => decide (e.group ≠ 0) && decide (g.id = e.group) with
  | some g =>
    let ms := (List.range d.nOz).filter fun m => d.job.positions.any fun r => decide (r.member = m) && g.positions.contains r.pos
    ms.getD (e.shard % max 1 ms.length) (d.get CRS_ROOT_MEMBER)
  | none => d.get CRS_ROOT_MEMBER

/-- Where a shard that does not come from this member's host is asked for: its fetcher, or for a replacement the sources of R99. -/
def Dev.intakeSources (d : Dev) (e : MEnt) : List Nat :=
  if d.start.joining then [d.get HUB_JOIN_OLD, d.partnerOf (d.get HUB_JOIN_OLD)] ++ d.shardSources e
  else if d.fetcher e = d.get CRS_ROOT_MEMBER then []
  else (d.job.members[d.fetcher e]?).toList

/-- SHARD_WANT for a shard. -/
def askShard (a course : Nat) (sha : List Byte) : Prog := notify a 0x33 (pack [(4, course), (4, 0)] ++ sha)
/-- Asks the first source of entry i's shard. -/
def wantEntry (e : MEnt) : Prog := .look fun d => match d.intakeSources e with
  | a :: _ => askShard a e.course e.sha
  | [] => .done

/-- A Shard Directory entry, in a state, for a stored shard of the manifest; none is added for a copy that one serves already. -/
def addDir (e : MEnt) (st : Nat) : Prog :=
  .look fun d => match d.freeDir with
    | some i =>
      let n := ((d.myPositions.find? fun p => decide (p.pos = e.pos)).map (·.slot)).getD 0
      when (!(d.course.dir.any fun x => decide (x.2.addr = e.loc)))
        (.seq (modCourse fun c => { c with dir := Store.insert c.dir i ⟨e.loc, e.tier, st, n, e.region, e.shard, false, false, e.len, e.group, bitOf e.flags 1⟩ }) countDir)
    | none => .done

/-- Gives one entry of the manifest its place (R351): a copy that a replica on this tray shares takes the place of the first. -/
def placeEntry (e : MEnt) : Prog :=
  .look fun d =>
    let add (x : MEnt) : Prog := modTaken fun h => { h with ents := h.ents ++ [x] }
    match d.takenEnts.find? fun x => decide (e.group ≠ 0) && decide (x.group = e.group) && decide (x.shard = e.shard) && decide (x.sha = e.sha) with
    | some x => add { e with loc := x.loc, tier := x.tier }
    | none => match d.placeIn ddrBase d.tierEnd e.len, d.freeDir with
      | some a, some _ => .seq (addDir { e with loc := a, tier := 1 } 3) (add { e with loc := a, tier := 1 })
      | _, _ => sendReady stLENGTH

/-- The manifest of the course to be taken in is accepted: places for its shards, and SHARD_WANT for those that other members
take in. -/
def takeManifest (m : List Byte) (course step : Nat) : Prog :=
  all [
    modStart fun s => { s with manifest := m, intake := [], taken := [], again := [] },
    modCourse fun c => { c with held := [{ course := course, step := step, cuts := manCuts m, manifest := m }] },
    each (manEntries m) placeEntry,
    .look fun d => each (d.takenEnts.zipIdx.filter fun e => decide ((d.takenEnts.findIdx fun x => decide (x.loc = e.1.loc)) = e.2)) fun e => wantEntry e.1]

/-- Whether every entry's shard has been taken in. -/
def Dev.allTaken (d : Dev) : Bool := !d.start.manifest.isEmpty && (List.range d.takenEnts.length).all fun i => d.start.taken.contains i

/-- A shard that this Ozmund holds and has verified, by its SHA-256: of a held course, of the intake, or a far copy. -/
def Dev.findShard (d : Dev) (sha : List Byte) : Option (Nat × Nat) :=
  let mine := d.course.held.flatMap fun h => h.ents.zipIdx.filter fun e => d.taken.isNone || d.start.taken.contains e.2
  ((mine.map (·.1)).find? fun e => decide (e.sha = sha) && d.shardWhole e).map (fun e => (e.loc, e.len)) <|>
    ((d.hold.far.find? fun f => decide (f.sha = sha) && d.storedOk f.addr f.len && d.runOk f.addr (f.len * 4096)).map fun f => (f.addr, f.len))

/-- Copies of a shard that are held and fail their checks raise CHECK (R138, R149). -/
def checkCopies (sha : List Byte) : Prog :=
  .look fun d => .seq (each ((d.course.held.flatMap (·.ents)).filter fun e => decide (e.sha = sha)) checkShard)
    (each (d.hold.far.filter fun f => decide (f.sha = sha) && d.storedOk f.addr f.len && !(d.runOk f.addr (f.len * 4096))) fun _ => integrityOwn 2)

/-- SHARD_PUT, and the shard's bytes under the handle. -/
def putShard (a course : Nat) (sha : List Byte) (loc len : Nat) : Prog :=
  withHandle fun h => .look fun d => .seq (notify a 0x34 (pack [(4, course), (4, 0)] ++ sha ++ pack [(2, h), (6, 0)]))
    (sendBulk a h (d.physBytes loc (len * 4096)))

/-- Answers the SHARD_WANTs that waited for shards now held. -/
def answerWants : Prog :=
  .look fun d => each d.start.wants fun w => match d.findShard w.2.2 with
    | some x => .seq (putShard w.1 w.2.1 w.2.2 x.1 x.2) (modStart fun s => { s with wants := s.wants.filter fun v => decide (v ≠ w) })
    | none => .done

/-! ## Loading (Table 13.5) -/

/-- FAR_PUT of each shard of a held course that R83 forwards, and its complete mirror (R88, R456). -/
def sendFullMirror (h : Held) : Prog :=
  .look fun d =>
    let far := h.ents.zipIdx.filter fun e => !((d.groupOf e.1.pos e.1.region).any d.groupAway)
    let fs := if d.on CRS_CTRL_FAR_EN then far else []
    all [
      modCourse fun c => { c with farFull := none },
      each fs fun e => withHandle fun k => .look fun d => all [
        modCourse fun c => { c with farWait := c.farWait ++ [e.2] },
        tally 1383 (e.1.len * 4096), tallyClass 4 (e.1.len * 4096),
        toPartner nFAR_PUT (pack [(4, h.course), (4, d.epoch), (2, k), (2, 0), (8, e.1.len * 4096), (4, e.2)]),
        sendBulk d.partnerAddr k (d.physBytes e.1.loc (e.1.len * 4096))],
      .look fun d => sendMirror h.course noCourse h.manifest ((d.course.dir.filter fun x => h.ents.any fun e => decide (e.loc = x.2.addr)).map (·.2))]

/-- Loads one slot with its share of a course at a step (Table 13.5), under a rewind number. -/
def loadSlot (h : Held) (step rewind n : Nat) : Prog :=
  .look fun d =>
    let pos := d.boundPos n
    all [
      oReq n 0x02 0 (leBytes 8 step),
      sendRegions n, sendSchedule n,
      loadShards n pos h,
      sendContextRegs n (h.ctxOf pos),
      sendCounters n fun i => d.planValue pos i step,
      commitNote n h.course, sendKey n h.course, sendSelector n rewind step]

/-- Slots of this tray that the job uses. -/
def Dev.jobSlots (d : Dev) : List Nat := (List.range 8).filter fun n => (d.posOf n).isSome

/-- Messages of the load that have not been answered. -/
def Dev.loadsOut (d : Dev) : Bool := d.jobSlots.any d.loading

/-- Everything is loaded, mirrored and reserved: READY; a replacement's slots are ready for their ADMIT. -/
def checkLoaded : Prog :=
  .look fun d =>
    let paired := d.start.mirrored && decide (d.mode.partner ≠ .solo)
    when (decide (d.hPhase = hLOADING) && !d.loadsOut && (!paired || (d.course.farWait.isEmpty && decide ((d.taken.map (·.course)) = some d.course.mirrored))) &&
        (!d.start.farAsked || decide (d.mode.partner = .solo) || decide (d.start.farSt = some stOK))) (all [
      setPhase hREADY, modStart fun s => { s with intake := [], manStage := {} },
      if d.start.joining then .seq (.seq (put CRS_COURSE_COMMITTED ((d.taken.map (·.course)).getD noCourse))
        (each d.jobSlots fun n => all [setSlot n sLIVE, put (HUB_SLOT_POSITION n) (d.boundPos n), setRStep n .set])) (.seq checkRewound (put CRS_CTRL_EN 1))
      else sendReady stOK])

/-- Loading begins: far copies and mirror to the partner, and every slot. A shard that is not whole any more fails the start (R137, R138). -/
def beginLoading (h : Held) (step rewind : Nat) : Prog :=
  .look fun d =>
    let pair := decide (d.mode.partner = .paired) || (decide (d.mode.partner = .repairing) && d.start.joining)
    let bad := h.ents.filter fun e => !(d.shardWhole e)
    if !bad.isEmpty then .seq (each bad checkShard) (sendReady stFAULT)
    else all [
      setPhase hLOADING,
      when pair (.seq (modStart fun s => { s with mirrored := true }) (sendFullMirror h)),
      each d.jobSlots (loadSlot h step rewind),
      checkLoaded]

/-- The course is whole and Z is here (R351): marks under its key, LOCATIONs, and the seal; then loading begins. -/
def intakeEnds : Prog :=
  .look fun d => match d.taken with
    | none => .done
    | some h => when (decide (d.hPhase = hINTAKE) && d.allTaken && !d.job.z.isEmpty) <|
        let es := h.ents.map fun e => { e with mark := d.shardMark h.course (d.physBytes e.loc (e.len * 4096)) }
        let m := reseal (d.start.manifest.take (4096 + 8448 * manPositions d.start.manifest) ++ es.flatMap MEnt.bytes)
        let h' := { h with ents := es, manifest := m }
        all [modTaken fun _ => h', writePhys (d.manifestAt h.course) m, answerWants,
          beginLoading h' (if d.start.joining then h.step else d.job.s0) (if d.start.joining then d.get SHR_REWIND_NUMBER else 0)]

/-- Entry i's shard is complete: verified, and taken in for every entry at its place. A mismatch is asked for once more; the
second makes the member send READY with FAULT (R352). -/
def shardCame (i : Nat) : Prog :=
  .look fun d => match d.takenEnts[i]? with
    | none => .done
    | some e =>
      if digest (d.physBytes e.loc (e.len * 4096)) = e.sha then all [
        modStart fun s => { s with taken := (s.taken ++ (List.range d.takenEnts.length).filter fun k =>
          decide ((d.takenEnts[k]?).map (·.loc) = some e.loc)).eraseDups },
        answerWants, intakeEnds]
      else .seq (modStart fun s => { s with intake := Store.remove s.intake i, again := s.again ++ [i] })
        (if d.start.again.contains i then sendReady stFAULT else wantEntry e)

/-- Bytes of entry i's shard. -/
def shardBytes (i off : Nat) (bs : List Byte) : Prog :=
  .look fun d => match d.takenEnts[i]? with
    | none => .done
    | some e =>
      let rs := joinRange off bs.length ((Store.find? d.start.intake i).getD [])
      all [writePhys (e.loc + off) bs, modStart fun s => { s with intake := Store.insert s.intake i rs },
        when (coversRange rs 0 (e.len * 4096)) (shardCame i)]

/-! ## Entering WATCH -/

/-- Counters of the context-0 window that nothing uses, lowest first (R273). -/
def Dev.freeCounters (d : Dev) : List Nat :=
  ((List.range 8192).map (· + 8192)).filter fun c => !(d.watches.any fun w => decide (w.2.counter = c)) && decide (d.counter c = 0) &&
    !((List.range 1024).any fun m => d.on (SYN_BAR_A_VALID m) && decide (d.get (SYN_BAR_A_COUNTER m) = c))

/-- A register takes the image that COURSE_CFG gives. -/
def setImage (addr : Nat) (cfg : List Byte) (k : Nat) : Prog := .act (.ctl addr (BitVec.ofNat 64 (numAt cfg (8 * k) 8)))

/-- The settings that COURSE_CFG gives: CRS_CFG, CRS_CTRL bits 2–6, CRS_TIMEOUT, CRS_WATCH0, CRS_WATCH1, SHR_CFG (Table 12.8). -/
def packageSettings (cfg : List Byte) : Prog :=
  let w := BitVec.ofNat 64 (numAt cfg 8 8)
  all [
    setImage CRS_CFG_INTERVAL.addr cfg 0,
    each [CRS_CTRL_DEDUP_EN, CRS_CTRL_FAR_EN, CRS_CTRL_CARRY_EN, CRS_CTRL_LANE_WATCH, CRS_CTRL_HOT] fun f => put f (f.of w),
    setImage CRS_TIMEOUT_VOTE_MS.addr cfg 2, setImage CRS_WATCH0_CE.addr cfg 3, setImage CRS_WATCH1_OWN_CE.addr cfg 4,
    setImage SHR_CFG_HB_MISS.addr cfg 5]

/-- The kept course is released (R357). -/
def dropKept : Prog :=
  .look fun d => when (decide (d.get HUB_KEPT_COURSE ≠ noCourse)) (all [
    each d.course.dir fun e => zeroPhys e.2.addr (e.2.len * 4096),
    modCourse fun c => { c with held := [], dir := [] }, countDir,
    put HUB_KEPT_COURSE noCourse, put HUB_KEPT_DROP 0])

/-- The kept course is the one named as c₀ (R357): its header takes the new epoch, and only the shards not held are asked for. -/
def takeKept (h : Held) : Prog :=
  .look fun d =>
    let m := h.manifest.take 12 ++ leBytes 4 d.epoch ++ h.manifest.drop 16
    all [
      modStart fun s => { s with manifest := m, taken := (List.range h.ents.length).filter fun i => (h.ents[i]?).any d.shardWhole },
      modCourse fun c => { c with held := [{ h with step := d.job.s0 }] }, put HUB_KEPT_COURSE noCourse,
      .look fun d => each (h.ents.zipIdx.filter fun e => !(d.start.taken.contains e.2)) fun e => match d.shardSources e.1 with
        | a :: _ => askShard a h.course e.1.sha
        | [] => sendReady stFAULT]

/-- The member enters WATCH and INTAKE (R273, R337, Table 13.5). -/
def enterWatch : Prog :=
  .look fun d =>
    let p := d.package
    let w := BitVec.ofNat 64 (numAt p.cfg 8 8)
    let kept := if p.job.c0 = d.get HUB_KEPT_COURSE then d.course.held.find? fun h => decide (h.course = p.job.c0) else none
    let dedup := bitOf w.toNat 2
    let own := d.get CRS_ROOT_MEMBER
    let cs := d.freeCounters
    let static := decide (d.get SPR_MODE_MODE = 0) && d.on XCN_CTRL_AUTH && p.job.positions.any fun r => decide (r.member = own) && r.kernels && d.slotLathe r.slot
    all [
      when kept.isNone dropKept,
      put CRS_BAR_CNT (cs.getD 0 8192), put SHR_REWIND_BAR (cs.getD 1 8193),
      .act (.counter (cs.getD 0 8192) 0), .act (.counter (cs.getD 1 8193) 0),
      modCourse fun c => { held := kept.toList, dir := c.dir, mirrored := noCourse },
      modShore fun _ => { sprGroup := d.word SPR_GROUP_SPARE_ADDR.addr }, modWit WitSt.forJob, put WIT_STAT_BACKLOG 0, put WIT_STAT_GATE_HOLD 0, put WIT_COUNT0_COMPARED 0,
      put CRS_COUNT_COMMITS 0, put CRS_COUNT_ABANDONS 0, put CRS_DIR_HIGH 0, countDir,
      packageSettings p.cfg, takeShrCfg,
      put CRS_BAR_BASE p.job.c0, put SHR_REWIND_NUMBER 0,
      put CRS_COURSE_CUR noCourse, put CRS_COURSE_COMMITTED noCourse, .act (.ctl CRS_STAT_STATE.addr 0),
      .look fun d => modCourse fun c => { c with lead := d.leadMin },
      modJob fun j => { p.job with members := j.members, z := j.z },
      modMmu fun m => { m with reservedTier := d.ownNeed p.job own dedup + d.farNeed p.job dedup, farTier := d.farNeed p.job dedup },
      modMode fun m => { m with compat := decide (d.get SPR_MODE_MODE = 1) },
      put SPR_STAT_STATE 0, put SPR_STAT_POSITION noPos,
      put HUB_ROLE_JOB_EPOCH d.start.epoch,
      put SHR_CTRL_EN (static && !d.shoreStop).toNat,
      enterRole .watch (decide (d.mode.role = .guest) || d.mode.guestOn),
      setPhase hINTAKE,
      recordJob 1, admissionEvent stOK 0,
      when d.isRoot (withFrees 4 fun f => .look fun d => .seq (each d.job.members openTo)
        (each d.job.members fun a => notify a 0x40 (pack [(4, d.epoch), (4, 0)] ++ nonceOf f 0))),
      (match kept with | some h => takeKept h | none => .done),
      when d.start.joining (.look fun d => toRoot 0x50 (pack [(2, own), (2, 0), (4, d.get HUB_JOIN_OLD)])),
      intakeEnds]

/-- The capacity tests (R86, R102, R356), which wait while the partner tears down or a role transition is in progress. -/
def tryCapacity : Prog :=
  .look fun d =>
    let p := d.package
    when (decide (d.hPhase = hPARSED) && !d.hold.tearing && d.mode.transit.isNone && !d.mode.faultWaits) <|
      match d.lacksRoom p.job (d.get CRS_ROOT_MEMBER) (bitOf (numAt p.cfg 8 8) 2) with
      | some o => refuseAdmission stLENGTH o
      | none => enterWatch

/-- Whether the manifest area lies inside the system area (R238). -/
def Dev.manifestAreaOk (d : Dev) : Bool := decide (d.get CRS_MAN_BASE_BASE * 0x200000 + 0x4000000 ≤ cacheBase)

/-- The package is parsed once every chunk is held (R338); then FAR_RESERVE, and the capacity tests. -/
def packageComplete : Prog :=
  .look fun d => when (decide (d.hPhase = hSTAGING) && d.packageHeld) <|
    match d.pkgFails with
    | some (st, o) => refuseAdmission st o
    | none =>
      if d.get SPR_MODE_MODE = 1 ∧ ¬(8 ≤ d.get SPR_GROUP_SIZE ∧ d.get SPR_GROUP_SIZE ≤ 64) then refuseAdmission stLENGTH 0
      else if !d.manifestAreaOk then refuseAdmission stFAULT 0
      else
        let p := d.package
        let need := 2 * pagesOf (memberNeed p.job (d.get CRS_ROOT_MEMBER) (bitOf (numAt p.cfg 8 8) 2) true)
        all [
          setPhase hPARSED,
          when (bitOf (numAt p.cfg 8 8) 3 && decide (d.mode.partner ≠ .solo)) (.seq (modStart fun s => { s with farAsked := true })
            (toPartner 0x25 (pack [(4, d.start.epoch), (4, 0), (8, (need + 511) / 512)]))),
          tryCapacity]

/-! ## Start (R353) -/

/-- START at a member: every slot is admitted at s₀ under c₀, which is COMMITTED from then on (R68, R350). CRS_STAT.STATE stays IDLE: it reports
course CRS_COURSE.CUR, and none has been opened (R73). -/
def started (s0 : Nat) : Prog :=
  .look fun d => when (decide (d.hPhase = hREADY) && !d.start.joining) (all [
    setPhase hSTARTED,
    put CRS_COURSE_COMMITTED d.job.c0, put CRS_STEP_STEP s0,
    admitWitness 0,
    each d.jobSlots fun n => .look fun d => all [put (HUB_SLOT_POSITION n) (d.boundPos n), setSlot n sLIVE, admitSlot n s0 d.job.c0],
    modCourse fun c => { c with highest := d.job.c0, lastStep := s0, steps := d.jobSlots.foldl (fun x n => Store.insert x n s0) c.steps },
    refreshDir,
    put CRS_CTRL_EN 1,
    openDue])

/-! ## Teardown (R354, R355) -/

/-- A slot of the job is released, unless it is in QUARANTINE (Table 1.6). -/
def releaseSlot (n : Nat) : Prog :=
  .look fun d => if d.rst.out.contains (uSlot n) then retireSlot n
    else all [oReq n 0x03 0, put (HUB_SLOT_POSITION n) noPos,
      setSlot n (if bitOf (d.get RST_PWR_PGOOD) n then sIDLE else sABSENT), driveReset n false,
      modSlot n fun x => { x with keys := [], noted := noCourse }]

/-- Scrub is due (R354, steps 5 to 7): the slots are released, but for those in QUARANTINE (Table 1.6), the crossconnect goes back, and the partner
is told. -/
def teardownFenced : Prog :=
  .look fun d => when (d.start.ordered && decide (d.hPhase = hTEARDOWN)) (all [
    modStart fun s => { s with fencing := [] },
    each d.jobSlots releaseSlot,
    (match d.shore.slot with | some n => when (d.shore.moved || decide (d.get XCN_STAT_MAP ≠ 0)) (xcnMove n false) | none => .done),
    when (decide (d.mode.partner ≠ .solo)) (toPartner 0x2A (pack [(4, d.epoch), (1, d.start.keep.toNat), (3, 0)])),
    when d.isRoot (each (d.start.lost.filterMap fun m => d.job.members[m]?) fun a =>
      .seq (openTo (d.partnerOf a)) (notify (d.partnerOf a) 0x2A (pack [(4, d.epoch), (1, d.start.keep.toNat), (3, 0)]))),
    setPhase hSCRUBBING])

/-- Stops the shored position's tiles, and the shoring. -/
def stopShoring : Prog :=
  .look fun d => when (d.shore.slot.isSome) (all [
    fenceWindow,
    each ((List.range 256).filter fun t => decide ((d.tile t).owner = oJOB) && decide ((d.tile t).state = tRUNNING)) fun t =>
      modTile t fun x => x.set TLE_CTRL_STOP 1,
    modShore fun s => { s with handback := none }, put SHR_CTRL_HANDBACK 0, put SHR_STAT_PHASE phIDLE, endTransit])

/-- Teardown, or the scrub of an aborted start, begins at a member (R353, R354): idempotent. -/
def orderTeardown (keep aborted : Bool) : Prog :=
  .look fun d => when (!d.start.ordered && decide (d.peerEpoch ≠ 0)) <|
    if d.epoch = 0 then all [
      recordJob 2, when aborted (raise HUB_EVT_START_ABORT),
      dropPackage, setPhase hABORTED, zeroPhys cacheBase (d.reserveBase - cacheBase), tellPartner]
    else
      let ns := d.jobSlots
      all [
        modStart fun s => { s with ordered := true, keep := keep && !aborted, aborted := aborted, fencing := ns },
        modMode fun m => { m with covering := false },
        recordJob (if aborted then 2 else 3), when aborted (raise HUB_EVT_START_ABORT),
        orderAbandon, put CRS_CTRL_EN 0,
        stopShoring,
        each ((List.range 4).map (· + 20)) fun p => when (decide (d.get (LNK_CFG_GROUP p) = 1) && d.lUp p) (setPort p lQUIESCE (d.get (LNK_STAT_LANES p))),
        each ns fenceSlot,
        setPhase hTEARDOWN,
        when ns.isEmpty teardownFenced]

/-- The slots of a replaced member in QUARANTINE whose fence has ended are released (Table 4.4). -/
def releaseOut (ns : List Nat) : Prog :=
  .look fun d => when (decide (d.mode.role = .quarantine)) (.seq (each (ns.filter d.start.fencing.contains) releaseSlot)
    (modStart fun s => { s with fencing := s.fencing.filter fun m => !(ns.contains m) }))

/-- FENCE_DONE of a slot in a teardown. -/
def teardownSlot (n : Nat) : Prog :=
  all [releaseOut [n], modStart fun s => { s with fencing := s.fencing.filter fun m => decide (m ≠ n) },
    .look fun d => when d.start.fencing.isEmpty teardownFenced]

/-- Far copies and mirrors held for an epoch are filled with zeros and released (R355), or one course of them is kept. -/
def scrubFar (epoch : Nat) (keep : Bool) : Prog :=
  .look fun d =>
    let top := ((d.hold.mirrors.filter fun m => decide (m.epoch = epoch)).map (·.course)).foldl max 0
    let go (e c : Nat) : Bool := decide (e = epoch) && (!keep || decide (c ≠ top))
    let stays := d.hold.far.filter fun f => !(go f.epoch f.course)
    all [
      each (d.hold.far.filter fun f => go f.epoch f.course && !(stays.any fun x => decide (x.addr = f.addr))) fun f => zeroPhys f.addr (f.len * 4096),
      each (d.hold.mirrors.filter fun m => go m.epoch m.course) fun m =>
        zeroPhys (d.get CRS_MAN_BASE_BASE * 0x200000 + 0x2000000 + m.course % 2 * 0x1000000) 0x1000000,
      modHold fun h => { h with far := stays, mirrors := h.mirrors.filter fun m => !(go m.epoch m.course),
                                lacking := h.lacking.filter fun x => decide (x.1 ≠ epoch),
                                decision := if keep then h.decision else none,
                                z := if h.zEpoch = epoch then [] else h.z,
                                reserve := if h.reserveEpoch = epoch ∧ !keep then 0 else h.reserve,
                                kept := h.kept || keep },
      when (decide (d.hold.reserveEpoch = epoch) && !keep && decide (epoch ≠ d.epoch)) (modMmu fun m => { m with
        reservedTier := m.reservedTier - d.hold.reserve * 512, farTier := m.farTier - d.hold.reserve * 512 })]

/-- Scrub fills with zeros every page that the epoch held, and clears what else it held (R355). With KEEP the last COMMITTED course
stays, and HUB_KEPT names it. -/
def scrub : Prog :=
  .look fun d =>
    let keep := d.start.keep && d.lastHeld.isSome
    let man := d.get CRS_MAN_BASE_BASE * 0x200000
    let stay (a : Nat) : Bool := keep && d.lastHeld.any fun h => h.ents.any fun e => decide (e.loc = a)
    all [
      each (d.course.dir.filter fun e => !(stay e.2.addr)) fun e => zeroPhys e.2.addr (e.2.len * 4096),
      zeroPhys cacheBase (d.quotaBase - cacheBase),
      each d.mmu.jobPages fun p => zeroPhys p.2 pageBytes,
      each (if keep then [(d.get CRS_COURSE_COMMITTED + 1) % 2] else [0, 1]) fun k => zeroPhys (man + k * 0x1000000) 0x1000000,
      scrubFar d.epoch d.start.keep,
      each (d.counters.filter fun e => decide (e.1 < 4096) || (decide (8192 ≤ e.1) && decide (e.1 < 16384))) fun e => .act (.counter e.1 0),
      each d.watches fun e => dropWatch e.1,
      each (List.range 1024) fun m => .seq (.act (.ctl (SYN_BAR_A_VALID m).addr 0)) (.act (.ctl (SYN_BAR_B_BASE m).addr 0)),
      modSync fun s => { s with transfers := [], grants := [], win := .open }, put SYN_STAT_FENCED 0, countOpen,
      each ((List.range 256).filter fun t => decide ((d.tile t).owner = oJOB)) fun t => .seq (modTile t fun x => x.set TLE_STAT_STATE tIDLE) (freeTile t),
      .look fun d => modMmu fun m => { m with jobPages := [], programs := m.programs.filter fun p => decide (p.ctx ≠ 1),
                                              reservedTier := if keep then m.reservedTier else d.hold.reserve * 512, farTier := if keep then m.farTier else d.hold.reserve * 512 },
      put (MMU_ROOT_VALID 1) 0, put (MMU_ROOT_ROOT 1) 0, modAgent localAgent fun _ => {},
      modShore fun _ => {}, modWit WitSt.forJob,
      modCourse fun c => { held := if keep then c.held.filter fun h => decide (h.course = d.get CRS_COURSE_COMMITTED) else [],
                           dir := if keep then c.dir.filter fun e => stay e.2.addr else [] },
      countDir,
      put HUB_KEPT_COURSE (if keep then d.get CRS_COURSE_COMMITTED else d.get HUB_KEPT_COURSE),
      .act (.ctl CRS_STAT_STATE.addr 0), put CRS_COURSE_CUR noCourse, put CRS_COURSE_COMMITTED noCourse, put CRS_STEP_STEP 0,
      .act (.ctl SHR_STAT_PHASE.addr 0), put SHR_POS_POSITION noPos, put SHR_POS_RCOURSE noCourse, put SHR_STEP_STEP 0, put SHR_CTRL_EN 0,
      put SPR_STAT_STATE 0, put SPR_STAT_POSITION noPos, put WIT_STAT_BACKLOG 0, put WIT_STAT_GATE_HOLD 0]

/-- Whether the root may scrub: SCRUB_DONE is in from every other member that has not been reported lost (R354). -/
def Dev.mayScrub (d : Dev) : Bool :=
  !d.isRoot || d.start.replaced || d.start.aborted && d.nOz ≤ 1 ||
    (List.range d.nOz).all fun m => decide (m = d.get CRS_ROOT_MEMBER) || d.start.scrubbed.contains m || d.start.lost.contains m

/-- The RESP that FAR_RESERVE waited for while this Ozmund tore down (R356): OK when the room is there. -/
def answerReserve (src seq epoch gibs : Nat) : Prog :=
  .look fun d =>
    let had := if d.hold.reserveEpoch = epoch then d.hold.reserve * 512 else 0
    let room := d.ddrUpPages - (d.mmu.reservedTier - had)
    let inJob := decide (epoch = d.epoch) && decide (d.epoch ≠ 0) && d.isMember d.partnerAddr
    if inJob ∨ gibs * 512 ≤ room then all [
      modHold fun h => { h with reserve := gibs, reserveEpoch := epoch },
      when (!inJob) (modMmu fun m => { m with reservedTier := m.reservedTier - had + gibs * 512, farTier := m.farTier - had + gibs * 512 }),
      pAnswer src seq stOK]
    else pAnswer src seq stLENGTH

/-- Every session but session 0 is closed (R282, R355). -/
def closeSessions : Prog :=
  .look fun d => .seq (each (d.peers.filter fun e => decide (e.1 ≠ 0) && decide (e.2.st ≠ pCLOSED)) fun e =>
    .seq (when (decide (e.2.st = pOPEN)) (pSend e.1 { ty := 0x03 })) (modPeer e.1 fun _ => { sent := e.2.sent, rcvd := e.2.rcvd })) countSessions

/-- The member's scrub ends (R354, step 8; Table 1.4). -/
def scrubEnds : Prog :=
  .look fun d => when (decide (d.hPhase = hSCRUBBING) && d.mayScrub) <|
    let e := d.epoch
    let back : Role := if d.mode.role = .watch ∧ d.mode.guestOn then .guest else .service
    all [
      scrub,
      recordJob 4, raise HUB_EVT_SCRUB_DONE,
      when (!d.isRoot) (toRoot 0x46 (pack [(2, d.get CRS_ROOT_MEMBER), (2, 0), (4, e)])),
      when (decide (d.mode.partner ≠ .solo)) (toPartner 0x2B (pack [(4, e), (1, d.start.keep.toNat), (3, 0)])),
      when d.isRoot (raise HUB_EVT_ALL_SCRUBBED),
      closeSessions, dropPackage, put HUB_ROLE_JOB_EPOCH 0, put HUB_ROLE_SHORE_SLOT 0, setPhase (if d.start.aborted then hABORTED else hNONE),
      when (decide (d.mode.role = .shore)) discardGuests,
      if d.mode.role = .quarantine then tellPartner else enterRole back (decide (back = .guest)),
      (match d.hold.heldReserve with
        | some (src, seq, ep, gibs) => .seq (modHold fun h => { h with heldReserve := none }) (answerReserve src seq ep gibs)
        | none => .done)]

end Sys2Proof.Machine
end

