-- ==== Sys2Proof/Machine/SlotLink.lean ====
section
/-! DEFINITION. Family: what the Ozmund takes from its agents and slots (R29, R41, R42, R59, R64, R74, R78 to R81, R103, R104,
R143, R144, R266, R286, R370, R431). -/

namespace Sys2Proof.Machine

/-- HELLO (R431): the slot is served when its SPEC is supported and its self-test passed. A HELLO on the sideband ends a
reset, so nothing sent before it will be answered. In a handback it starts the link tests (R125). -/
def execHello (n : Slot) (m : QMsg) (s : State) : Host.Outcome State Fault Refusal :=
  s.runUp <| fromAgent n.val m true <| .look fun d =>
    let id := numAt m.data 0 8
    let old := decide (QAG_ID_SPEC.of (BitVec.ofNat 64 id) ≤ d.get HUB_ID_AGENT_SPEC)
    let failed := decide (m.status ≠ 0)
    all [
      when m.sb (put (LNK_SB_STATE n.val) 2),
      when m.sb (modSlot n.val fun x => { x with seqSb := 0, reqs := [], keys := [], noted := 0xFFFFFFFF, bound := 0 }),
      modSlot n.val fun x => { x with id := if old then some id else none, selfFail := failed },
      when (decide (d.slotState n.val = sABSENT)) (setSlot n.val sIDLE),
      when (!old) (oResp n.val m stUNSUPPORTED),
      (match d.shore.handback with
        | some h => when (decide (h.slot = n.val) && decide (h.step = .hello) && m.sb)
            (if failed || !old then handbackFails else .seq (setHandback { h with step := .testSb }) (beginTest (24 + n.val)))
        | none => .done)]

/-- CUT (R42, R78, R90): the cut of a slot is in, and DIRTY_REQ follows at once. -/
def execCutReceived (n : Slot) (m : QMsg) (s : State) : Host.Outcome State Fault Refusal :=
  s.runEngine (.cutReceived n m) <| fromAgent n.val m false <| .look fun d =>
    let cut : PosCut := { slot := n.val, pos := d.slotPos n.val, time := numAt m.data 16 8, grans := m.arg.toNat, shards := numAt m.data 4 4 }
    .seq (learnStep n.val (numAt m.data 8 8)) <|
      when (decide (m.data.length = 24) && decide (d.kState = kOPENING) && decide (numAt m.data 0 4 = d.cur) && d.remote n.val &&
          !(bitOf (d.get CRS_STAT_CUT) n.val)) (all [
        put CRS_STAT_CUT (withBit (d.get CRS_STAT_CUT) n.val),
        modCourse fun c => { c with cuts := c.cuts ++ [cut] },
        when d.isRoot startVoteClock,
        oReq n.val 0x1A 0,
        checkCuts])

/-- CONTEXT (R42), the whole transfer: the record is kept with the cut, and answered once. While the hub is reset it is answered FENCED (R313). -/
def execContext (n : Slot) (m : QMsg) (s : State) : Host.Outcome State Fault Refusal :=
  s.runEngine (.context n m) <| .look fun d => if d.hubFenced then oResp n.val m stFENCED else fromAgent n.val m false <| .look fun d =>
    if m.data.length ≠ 8384 then oResp n.val m stLENGTH
    else if !d.inCourse ∨ numAt m.data 8 4 ≠ d.cur ∨ !(d.course.cuts.any fun c => decide (c.slot = n.val)) then oResp n.val m stABANDONED
    else .seq (modCourse fun c => { c with cuts := c.cuts.map fun x => if x.slot = n.val then { x with ctx := m.data } else x })
      (oResp n.val m stOK)

/-- The granule of a slot that a DRAIN_DATA block belongs to: its region is that of the oldest drain request. -/
def Dev.drainTarget (d : Dev) (n : Nat) (off : Nat) : Option (Shard × Nat) :=
  (d.drainsOut n).head?.bind fun r =>
    let region := r.arg % 2 ^ 6
    ((d.slotTable n).stateRegions.find? fun e => decide (e.1.entry = region)).bind fun e =>
      let g := e.2 + off / 0x200000
      if r.arg / 2 ^ 8 % 2 ^ 24 ≤ off / 0x200000 ∧ off / 0x200000 < r.arg / 2 ^ 8 % 2 ^ 24 + r.arg / 2 ^ 32 ∧ off % 4096 = 0 then
        (d.shardOf n g).map fun s => (s, g)
      else none

/-- A block on its way into the tier goes to its granule's page of the HBM course cache, and straight to its place where there is no room for
one (R84); `at_` is the granule's place. -/
def stageBlock (n g b tier at_ : Nat) (data : List Byte) : Prog :=
  .look fun d =>
    let k := gk n g
    match if tier = 1 then d.stageFor k else none with
    | some page => .seq (modCourse fun c => { c with staged := Store.insert c.staged k page }) (writePhys (page + b * 4096) data)
    | none => writePhys (at_ + b * 4096) data

/-- DRAIN_DATA (R79, R84, R85, Table 3.10): one block, placed by the Shard Directory and staged; a block that fails its check is requested
once more, and the second failure is CHECK. -/
def execDrainData (n : Slot) (m : QMsg) (s : State) : Host.Outcome State Fault Refusal :=
  s.runEngine (.drainData n m) <| fromAgent n.val m false <| .look fun d =>
    .seq (tallySlot n.val 10 m.data.length) <| match d.drainTarget n.val m.arg.toNat with
    | none => .done
    | some (sh, g) => when (decide (d.kState = kDRAINING) && !(d.acked n.val g) && decide (m.data.length = 4096)) <|
        let b := m.arg.toNat % 0x200000 / 4096
        if m.status ≠ 0 ∨ crc64 m.data ≠ m.check.toNat then
          (if Store.get noFlag d.course.retried (bk n.val g b) then
            .seq (when (!d.voted) (abandonHere vCHECK true)) (slotEvent 2 n.val (d.slotPos n.val) (d.get CRS_STEP_STEP))
          else .seq (modCourse fun c => { c with retried := Store.put noFlag c.retried (bk n.val g b) true })
            (oReq n.val 0x14 (d.runArg sh g 1)))
        else placeShard sh (.look fun d => match d.filling sh with
          | some (_, x) => .seq (.seq (tallyClass 4 4096) (stageBlock n.val g b x.tier (x.addr + (g - sh.first) * 0x200000) m.data))
              (modCourse fun c => { c with blocks := Store.put noFlag c.blocks (bk n.val g b) true })
          | none => .done)

/-- A granule of a slot has all its blocks written, checked and hashed (R79). -/
def execGranuleStored (n : Slot) (g : Nat) (s : State) : Host.Outcome State Fault Refusal :=
  s.runEngine (.granuleStored n g) (storeGranule n.val g)

/-- DIRTY_MAP (R78, R109), the whole map R: the first after the cut is D0; in a rewind it orders the reload. -/
def execDirtyMap (n : Slot) (m : QMsg) (s : State) : Host.Outcome State Fault Refusal :=
  s.runEngine (.dirtyMap n m) <| fromAgent n.val m false <| .look fun d =>
    when (decide (m.data.length = 32768)) <|
      if Store.find? d.shore.slots n.val = some .mapping then
        .seq (modCourse fun c => { c with latest := Store.insert c.latest n.val m.data }) (reloadSlot n.val)
      else when (d.inCourse && bitOf (d.get CRS_STAT_CUT) n.val) (takeMap n.val m.data)

/-- A COURSE_ARM that waits for the agent's previous course is sent again (R41). -/
def rearm (n : Nat) : Prog :=
  .look fun d => when (d.course.rearm.contains n && d.inCourse)
    (.seq (modCourse fun c => { c with rearm := c.rearm.filter fun m => decide (m ≠ n) }) (armSlot n d.cur (d.get CRS_STEP_STEP)))

/-- COURSE_DONE (R74): the slot has delivered its share. -/
def execCourseDone (n : Slot) (m : QMsg) (s : State) : Host.Outcome State Fault Refusal :=
  s.runEngine (.courseDone n m) <| fromAgent n.val m false <| .look fun d =>
    .seq (when (d.inCourse && decide (m.arg.toNat = d.cur)) (put CRS_STAT_DONE (withBit (d.get CRS_STAT_DONE) n.val))) (rearm n.val)

/-- ABANDON from an agent (R46, R74): reason 1 is STALL, any other FENCE. -/
def execAbandon (n : Slot) (m : QMsg) (s : State) : Host.Outcome State Fault Refusal :=
  s.runEngine (.abandon n m) <| fromAgent n.val m false <| .look fun d =>
    .seq (when (d.inCourse && !d.voted && decide (m.arg.toNat % 2 ^ 32 = d.cur))
      (abandonHere (if m.arg.toNat / 2 ^ 32 = 1 then vSTALL else vFENCE) true)) (rearm n.val)

/-! ## Answers -/

/-- The answer to COURSE_ARM (R41). -/
def armAnswer (n : Nat) (r : SReq) (st arg : Nat) : Prog :=
  .look fun d => when (decide (d.kState = kOPENING) && decide (numAt r.data 0 4 = d.cur)) <|
    if st = stOK then .done
    else if st = stFAULT ∧ arg = 1 then armSlot n d.cur (d.get CRS_STEP_STEP)
    else if st = stRETRY then modCourse fun c => { c with rearm := c.rearm ++ [n] }
    else if st = stBUSY ∧ d.get CRS_STEP_STEP ≤ arg then abandonHere vLATE true
    else if st = stBUSY ∨ st = stFENCED then abandonHere vFENCE true
    else abandonHere vORDER true

/-- The answer to DRAIN_REQ (R64, R79): granules left partly received are discarded and requested again. -/
def drainAnswer (n : Nat) (r : SReq) : Prog :=
  .look fun d => when (decide (d.kState = kDRAINING)) (all [dropGranules n (d.partly n r), setAsked n (d.partly n r) false, drain n])

/-- The answer to MARK_REQ (R52, R81): the mark of a copy. After a FAULT the key is sent and the mark asked for once more; a second FAULT is that
of a copy that cannot be read, CHECK (notes/assumptions/130). -/
def markAnswer (n : Nat) (r : SReq) (st : Nat) (data : List Byte) : Prog :=
  .look fun d => when (decide (d.kState = kDRAINING)) <|
    let region := r.arg % 2 ^ 6
    let num := r.arg / 2 ^ 8
    if st = stOK then .seq (modCourse fun c => { c with marks := c.marks ++ [(n, region, num, leNat data)] })
      (.look fun d => match (d.shards n).find? fun s => decide (s.region = region) && decide (s.num = num) with
        | some s => settleShard s
        | none => .done)
    else if st = stRETRY then oReq n 0x13 r.arg [] r.note
    else when (decide (st = stFAULT)) <| if r.note.isEmpty then .seq (sendKey n d.cur) (oReq n 0x13 r.arg [] [1]) else (.seq (when (!d.voted) (abandonHere vCHECK true)) (slotEvent 2 n (d.slotPos n) (d.get CRS_STEP_STEP)))

/-- The answers that a rewind waits for (R109, R110): RETRY sends the message again, any other refusal declares the slot. -/
def rewindAnswer (n : Nat) (r : SReq) (st : Nat) : Prog :=
  .look fun d =>
    if st = stRETRY then (if r.ty = 0x31 then (match d.shore.plan with
        | some p => sendCounters n fun i => d.planValue (d.slotPos n) i p.step
        | none => .done)
      else oAgain n r)
    else if st ≠ stOK then declareNow n 6
    else if r.ty = 0x45 then all [
      (match d.shore.plan with | some p => commitNote n p.course | none => .done),
      setRStep n .loaded, when d.flightOver setSlots]
    else when (decide (r.ty = 0x31)) (.seq (setRStep n .set) checkRewound)

/-- The answer to ADMIT (R111, R125, R126). -/
def admitAnswer (n : Nat) (r : SReq) (st : Nat) : Prog :=
  .look fun d => match d.shore.handback with
    | some h => if h.slot = n then (if st = stOK then handbackDone h else handbackFails)
        else if st = stOK then slotAdmitted n r.arg else declareNow n 6
    | none => if st = stOK then slotAdmitted n r.arg else declareNow n 6

/-- Sends one register access of a host's AGENT_RD (0x07) or AGENT_WR (0x08) (R333): session number, REF, TARGET, registers completed and
asked for, and the bytes read so far or still to write. -/
def agentAsk (n ty sess ref target done total : Nat) (bytes : List Byte) : Prog :=
  if ty = 0x07 then oReq n 0x07 (target + 8 * done) [] ([sess, ref, target, done, total] ++ bytes.map BitVec.toNat)
  else oReq n 0x08 (target + 8 * done) (bytes.take 8) ([sess, ref, target, done, total] ++ (bytes.drop 8).map BitVec.toNat)

/-- An agent's answer to such an access: the next register, or the answer to the host. -/
def agentAnswer (n ty sess ref target done total st : Nat) (bytes data : List Byte) : Prog :=
  let got := if ty = 0x07 ∧ st = stOK then bytes ++ data else bytes
  let k := if st = stOK then done + 1 else done
  if st = stOK ∧ k < total then agentAsk n ty sess ref target k total got
  else .look fun d => when (decide (sess / 16 = (d.host (sess % 16)).opens)) (answer (sess % 16) ref target st k (if ty = 0x07 then got else []))

/-- An agent's answer while its slot is loaded for a start (Table 13.5, R353): RETRY sends the message again, any other refusal
aborts the start. -/
def loadAnswer (n : Nat) (r : SReq) (st : Nat) : Prog :=
  if st = stRETRY then .look fun d =>
    if r.ty = 0x31 then (match d.taken with
      | some h => sendCounters n fun i => d.planValue (d.boundPos n) i (if d.start.joining then h.step else d.job.s0)
      | none => .done)
    else oAgain n r
  else if st = stOK then checkLoaded else sendReady st

/-- An agent's answer while the group spare here is loaded for a position (R129). -/
def coverAnswer (n : Nat) (r : SReq) (st : Nat) : Prog :=
  .look fun d =>
    if st = stRETRY then (if r.ty = 0x31 then (match d.shore.plan with
        | some p => sendCounters n fun i => d.planValue (d.boundPos n) i p.step
        | none => .done)
      else oAgain n r)
    else if st ≠ stOK then coverFails
    else when (decide (r.ty = 0x31)) (.seq (setRStep n .set) checkRewound)

/-- An agent's answer in a handback (R125 to R127): what is refused with RETRY is sent again, any other refusal ends the handback. -/
def handbackAnswer (n : Nat) (r : SReq) (st : Nat) : Prog :=
  if st = stRETRY then oAgain n r else if st ≠ stOK then handbackFails else checkRewound

/-- RESP (R64): it answers the request whose SEQ its TAG carries. A reserved status is FAULT (R13). -/
def execQuoinResp (n : Slot) (m : QMsg) (s : State) : Host.Outcome State Fault Refusal :=
  s.runUp <| fromAgent n.val m true <| .look fun d =>
    let st := if 9 < m.status.toNat then stFAULT else m.status.toNat
    match (d.slot n.val).reqs.find? fun r => decide (r.seq = m.tag.toNat) && decide (r.sb = m.sb) with
    | none => .done
    | some r =>
      let inRewind := (Store.find? d.shore.slots n.val).isSome
      let inHandback := d.shore.handback.any fun h => decide (h.slot = n.val)
      let inCover := d.rewindSlots.contains n.val && !(d.live.contains n.val)
      .seq (modSlot n.val fun x => { x with reqs := x.reqs.filter fun q => !(decide (q.seq = r.seq) && decide (q.sb = r.sb)) }) <|
        match r.note with
        | sess :: ref :: target :: done :: total :: more => agentAnswer n.val r.ty sess ref target done total st (more.map (BitVec.ofNat 8)) m.data
        | _ =>
          if r.ty = 0x10 then armAnswer n.val r st m.arg.toNat
          else if r.ty = 0x13 then markAnswer n.val r st m.data
          else if r.ty = 0x14 then drainAnswer n.val r
          else if r.ty = 0x05 then admitAnswer n.val r st
          else if (isLoad r.ty ∨ r.ty = 0x19) ∧ d.hPhase = hLOADING then loadAnswer n.val r st
          else if (isLoad r.ty ∨ r.ty = 0x19) ∧ inCover then coverAnswer n.val r st
          else if r.ty ∈ [0x04, 0x08, 0x19, 0x31, 0x45] ∧ inRewind then rewindAnswer n.val r st
          else if (isLoad r.ty ∨ r.ty = 0x19) ∧ inHandback then handbackAnswer n.val r st
          else if r.ty = 0x19 ∧ st = stRETRY then oAgain n.val r
          else if r.ty = 0x08 ∧ r.arg = 0x70 ∧ st = stOK then
            modWit fun w => { w with seenCheck := if bitOf (leNat r.data) 1 then w.seenCheck.filter fun x => decide (x ≠ n.val) else w.seenCheck,
                                     seenMark := if bitOf (leNat r.data) 2 then w.seenMark.filter fun x => decide (x ≠ n.val) else w.seenMark }
          else .done

/-! ## Heartbeats, health and failure -/

/-- HEARTBEAT (R103): the next deadline falls 1.1 ms later; its step is learned, and a slot seen FENCED by itself starts R370. -/
def execHeartbeat (n : Slot) (m : QMsg) (s : State) : Host.Outcome State Fault Refusal :=
  s.runUp <| fromAgent n.val m false <| .look fun d => .seq (tallySlot n.val 8 1) <| when (decide (d.slotState n.val = sLIVE)) (all [
    modShore fun x => { x with misses := Store.remove x.misses n.val, firstMiss := Store.remove x.firstMiss n.val,
                               deadlines := Store.insert x.deadlines n.val (d.clk + 770000) },
    learnStep n.val m.arg.toNat,
    when (decide (numAt m.data 0 4 = aFENCED)) (selfFenced n.val)])

/-- A heartbeat deadline of a LIVE slot passes (R103): HB_MISS in a row declare it, with t₀ at the first. -/
def execHeartbeatDeadline (n : Slot) (s : State) : Host.Outcome State Fault Refusal :=
  s.runUp <| .look fun d =>
    match Store.find? d.shore.deadlines n.val with
    | none => .done
    | some t => when (decide (d.mode.fw = .run) && !(d.on TAL_HALT_HALTED) && decide (d.slotState n.val = sLIVE) && decide (t ≤ d.clk)) <|
        let k := Store.get (fun _ => 0) d.shore.misses n.val + 1
        let now := d.podTime - (d.clk - t)
        let t0 := if k = 1 then now else (Store.find? d.shore.firstMiss n.val).getD now
        .seq (tallySlot n.val 9 1) <| if orElse (d.get SHR_CFG_HB_MISS) 5 ≤ k then declare_ n.val 1 t0
        else modShore fun x => { x with misses := Store.insert x.misses n.val k, firstMiss := Store.insert x.firstMiss n.val t0,
                                        deadlines := Store.insert x.deadlines n.val (t + 700000) }

/-- HEALTH (R59, R77, R149): the watches, the drops, and an event when CHECK_FAIL or MARK_FAIL is first seen set. -/
def execHealth (n : Slot) (m : QMsg) (s : State) : Host.Outcome State Fault Refusal :=
  s.runEngine (.health n m) <| fromAgent n.val m false <| .look fun d =>
    when (decide (m.data.length = 128)) <|
      let hlt := (List.range 8).map fun i => numAt m.data (8 * i) 8
      let evt := numAt m.data 64 8
      let old := Store.find? d.course.health n.val
      let st := d.slotStep n.val
      let seen (bit cls : Nat) (was : Bool) (set : List Nat → WitSt → WitSt) (get : WitSt → List Nat) : Prog :=
        if bitOf evt bit then when (!was) (all [
          modWit fun w => set (get w ++ [n.val]) w,
          slotEvent cls n.val (d.slotPos n.val) st,
          oReq n.val 0x08 0x70 (leBytes 8 (2 ^ bit))])
        else modWit fun w => set ((get w).filter fun x => decide (x ≠ n.val)) w
      all [
        modCourse fun c => { c with health := Store.insert c.health n.val (hlt ++ [st]) },
        healthWatches n.val old hlt,
        (match old with
          | some o => hostDrops n.val (hlt.getD 6 0 - o.getD 6 0 - d.unlisted n.val (o.getD 8 0) st)
          | none => .done),
        seen 1 2 (d.wit.seenCheck.contains n.val) (fun l w => { w with seenCheck := l }) (·.seenCheck),
        seen 2 3 (d.wit.seenMark.contains n.val) (fun l w => { w with seenMark := l }) (·.seenMark)]

/-- FATAL (R29, R40, R103, R123, R411): the slot is declared; reason 0x0010 is an integrity event first, and a FATAL during a
global halt is declared at release with t₀ at its receipt. -/
def execFatal (n : Slot) (m : QMsg) (s : State) : Host.Outcome State Fault Refusal :=
  s.runUp <| fromAgent n.val m false <| .look fun d =>
    if d.on TAL_HALT_HALTED then
      when (Store.find? d.shore.fatalAt n.val).isNone (.seq (modShore fun x => { x with fatalAt := Store.insert x.fatalAt n.val d.podTime })
        (modObs fun o => { o with frozen := o.frozen ++ [.fatal n m] }))
    else
      let t0 := (Store.find? d.shore.fatalAt n.val).getD d.podTime
      all [
        modShore fun x => { x with fatalAt := Store.remove x.fatalAt n.val },
        when (decide (d.slotPos n.val ≠ noPos) && decide (numAt m.data 0 2 = 0x10)) (intEvent 4 (some n.val) (d.slotPos n.val) (d.slotStep n.val)),
        declare_ n.val 2 t0,
        when (d.shore.handback.any fun h => decide (h.slot = n.val)) handbackFails]

/-- FENCE_DONE (R104, R109, R370): it ends the fence of a declared slot, and in a rewind DIRTY_REQ follows; FAULT declares a
slot that was fenced for a rewind. -/
def execFenceDone (n : Slot) (m : QMsg) (s : State) : Host.Outcome State Fault Refusal :=
  s.runEngine (.fenceDone n m) <| fromAgentIn true n.val m false <| .look fun d =>
    if d.start.fencing.contains n.val then teardownSlot n.val
    else if d.shore.fencing.contains n.val then .seq (modShore fun s => { s with lastFence := d.clk }) (fenceEnds n.val)
    else if Store.find? d.shore.slots n.val = some .fencing then
      (if m.status ≠ 0 then declareNow n.val 6 else rewindFenced n.val)
    else .seq (selfFenced n.val) (.look fun d => when (Store.find? d.shore.inPlace n.val).isSome
      (if m.status ≠ 0 then declareNow n.val 6 else modShore fun x => { x with inPlace := Store.insert x.inPlace n.val true }))

/-- DUMP (R286, R287, R370), the whole transfer: it goes to the slot's part of the post-mortem area and to the partner; one with
the reason of FENCE_REQ tells that the slot fenced itself. -/
def execDump (n : Slot) (m : QMsg) (s : State) : Host.Outcome State Fault Refusal :=
  s.runUp <| fromAgent n.val m false <| .look fun d =>
    all [
      writePhys (d.pmBase + 0x400000 + n.val * 0x10000) m.data,
      when (decide ((d.peer 0).st = pOPEN)) (send .partner Kind.mirrorDump [n.val] m.data),
      when (decide (m.arg.toNat / 2 ^ 32 = 3)) (selfFenced n.val)]

/-! ## Samples -/

/-- Element bits of a format of Table 5.4, its largest K, and whether it is an MX format. -/
def witFormat : Nat → Option (Nat × Nat × Bool)
  | 0 => some (32, 1024, false)
  | 1 | 2 => some (16, 2048, false)
  | 3 | 4 | 8 => some (8, 4096, true)
  | 5 | 6 => some (6, 8192, true)
  | 7 => some (4, 8192, true)
  | _ => none

/-- A length padded to 64 bytes. -/
def pad64 (k : Nat) : Nat := (k + 63) / 64 * 64

/-- The length of the record that a header describes (Tables 5.2 to 5.4); none for a header that breaks R143. -/
def witLength (r : List Byte) : Option Nat :=
  let dom := numAt r 8 1
  let k := numAt r 28 4
  if r.take 8 ≠ ascii "AZWITREC" ∨ !(zeroAt r 34 2) ∨ !(zeroAt r 40 88) ∨ 2 ≤ numAt r 9 1 then none
  else if dom = 0 then
    match witFormat (numAt r 10 1), witFormat (numAt r 11 1) with
    | some (ba, ka, ma), some (bb, kb, mb) =>
      if ma ≠ mb ∨ min ka kb < k ∨ (ma ∧ k % 32 ≠ 0) ∨ numAt r 32 2 ≠ 0 then none
      else some (128 + pad64 (64 * k * ba / 8) + pad64 (64 * k * bb / 8) + (if ma then 2 * pad64 (2 * k) else 0) +
        (if numAt r 9 1 = 1 then 16384 else 0) + 16384)
    | _, _ => none
  else if dom = 1 then
    let f := numAt r 10 1
    let bits := if f = 9 then some 64 else (witFormat f).bind fun x => if x.2.2 then none else some x.1
    match bits with
    | some b => if 2048 < k ∨ 2 < numAt r 11 1 ∨ numAt r 9 1 ≠ 0 then none else some (128 + n64 k b + (if f = 9 then 512 else 256))
    | none => none
  else none
where
  /-- The INPUTS section. -/
  n64 (k b : Nat) : Nat := pad64 (k * 64 * b / 8)

/-- WIT_SAMPLE (R143 to R145), the whole record: one that breaks R143 or was not selected is STRAY, one that finds the queue
full is DROPPED, any other is queued. One that the agent sends with FAULT is damaged, and discarded (R49, R136). A record from the slot of the shored position, whose records the Ozmund forms itself (R147), is STRAY
and stands for none of them. A sample that is discarded is dealt with, whether its step has been learned or is the next one. -/
def execWitSample (n : Slot) (m : QMsg) (s : State) : Host.Outcome State Fault Refusal :=
  s.runEngine (.witSample n m) <| fromAgent n.val m false <| .look fun d =>
    let r : WRec := { slot := n.val, data := m.data }
    let since := (Store.find? d.wit.since n.val).getD 0
    let ok := decide (witLength m.data = some m.data.length) && decide (numAt m.data 36 4 = m.data.length) && decide (r.pos = d.slotPos n.val) &&
      decide (since ≤ r.step) && decide (r.step ≤ d.slotStep n.val + 1) && (d.expects n.val r.step r.dom).contains r.index &&
      !(d.shoredSlots.contains n.val)
    let stray : Prog := .seq (bump WIT_COUNT1_STRAY) (slotEvent 9 n.val (d.slotPos n.val) r.step)
    let x := (n.val, r.dom, r.step, r.index)
    let listed := decide (d.slotStep n.val ≤ r.step) && decide (r.step ≤ d.slotStep n.val + 1) && !(d.wit.early.contains x) &&
      (d.expects n.val r.step r.dom).contains r.index
    let drop := when (!(d.shoredSlots.contains n.val) && (d.wit.expected.contains x || listed)) (dealt n.val r.dom r.step r.index)
    .seq (.seq (tally 1414 m.data.length) (tallySlot n.val 12 m.data.length)) <| .seq (tallyClass 5 m.data.length) <|
    if m.status ≠ 0 then drop
    else if !ok then .seq stray drop
    else queueSample n.val r.data false

/-! ## Power of a slot, guests and fences -/

/-- A slot's power-good falls (R103, R125): a LIVE slot is declared, a handback ends, and any other slot is ABSENT. -/
def execSlotPgoodFall (n : Slot) (s : State) : Host.Outcome State Fault Refusal :=
  s.runUp <| .look fun d => when (bitOf (d.get RST_PWR_PGOOD) n.val) (all [
    put RST_PWR_PGOOD (d.get RST_PWR_PGOOD - 2 ^ n.val),
    put (LNK_SB_STATE n.val) 0,
    (if d.slotState n.val = sLIVE then declareNow n.val 3
     else when (decide (d.slotState n.val = sIDLE)) (setSlot n.val sABSENT)),
    when (d.shore.handback.any fun h => decide (h.slot = n.val)) handbackFails])

/-- A slot's power-good rises (R125, R306, R362): its sideband trains, and the slot is released from reset unless it is held
there. -/
def execSlotPgoodRise (n : Slot) (s : State) : Host.Outcome State Fault Refusal :=
  s.runUp <| .look fun d => when (!(bitOf (d.get RST_PWR_PGOOD) n.val)) (all [
    put RST_PWR_PGOOD (d.get RST_PWR_PGOOD + 2 ^ n.val),
    put (LNK_SB_STATE n.val) 1,
    (match d.shore.handback with
      | some h => if h.slot = n.val then when (decide (h.step = .power)) (handbackPowered h) else .done
      | none => when (decide (d.slotState n.val ∈ [sIDLE, sABSENT])) (driveReset n.val false))])

/-- The last guest page has been spilled (R266, R117): reclaim has ended, and pages of the quota can take promoted state. -/
def execGuestSpillDone (s : State) : Host.Outcome State Fault Refusal :=
  s.runEngine .guestSpillDone <| .look fun d => when (decide (d.mmu.reclaim = .spilling)) (all [spillAll, promote, checkRewound])

/-- FENCE_MS after a declaration (R104): the fence of the failed slot ends. -/
def execSlotFenceTimeout (n : Slot) (s : State) : Host.Outcome State Fault Refusal :=
  s.runEngine (.slotFenceTimeout n) (fenceEnds n.val)

end Sys2Proof.Machine
end

