-- ==== Sys2Proof/Machine/Integrity.lean ====
section
/-! DEFINITION. Family: the witness engine, its gate, divergence found elsewhere, and the job mark seed (R139, R142 to R151). -/

namespace Sys2Proof.Machine

/-! ## The recompute of a record (Tables 5.2 to 5.4) -/

/-- Element `i` of packed elements of `w` bits from a byte offset of a record. -/
def elemOf (bs : List Byte) (off w i : Nat) : Nat :=
  numAt bs (off + i * w / 8) ((i * w % 8 + w + 7) / 8) / 2 ^ (i * w % 8) % 2 ^ w

/-- The RESULT that the Reproducible Arithmetic Contract gives an MX record: 64 × 64 binary32 words, row by row. -/
def mxRecompute (r : List Byte) : List Byte :=
  let fa := numAt r 10 1
  let fb := numAt r 11 1
  let k := numAt r 28 4
  let wa := viewBits fa
  let wb := viewBits fb
  let scales := if viewMX fa then pad64 (2 * k) else 0
  let offAS := 128 + pad64 (64 * k * wa / 8)
  let offB := offAS + scales
  let offBS := offB + pad64 (64 * k * wb / 8)
  let offC := offBS + scales
  (List.range 4096).flatMap fun i =>
    let m := i / 64
    let n := i % 64
    leBytes 4 (outElem (viewFmt fa) (viewFmt fb) k (fun j => elemOf r 128 wa (m * k + j)) (fun j => elemOf r offB wb (n * k + j))
      (fun j => numAt r (offAS + m * (k / 32) + j) 1) (fun j => numAt r (offBS + n * (k / 32) + j) 1)
      (if numAt r 9 1 = 1 then numAt r (offC + 4 * i) 4 else 0))

/-- The RESULT of a reduction record: 64 elements, binary64 for binary64 input, else binary32. -/
def rdRecompute (r : List Byte) : List Byte :=
  let v := numAt r 10 1
  let op : LOp := match numAt r 11 1 with | 0 => .reduceSum | 1 => .reduceMax | _ => .reduceMin
  (List.range 64).flatMap fun i =>
    leBytes (if v = 9 then 8 else 4)
      (rdResult op v (numAt r 32 2) ((List.range (numAt r 28 4)).map fun j => elemOf r 128 (viewBits v) (64 * j + i))).1

/-- The recompute of a record, and the RESULT that it carries: its last section. -/
def WRec.recompute (r : WRec) : List Byte := if r.dom = 0 then mxRecompute r.data else rdRecompute r.data
def WRec.result (r : WRec) : List Byte := r.data.drop (r.data.length - r.recompute.length)

/-- An RD record whose ORDER is reserved: the recompute takes FORMAT, and the record is STRAY (Table 8.16). -/
def WRec.badOrder (r : WRec) : Bool := decide (r.dom = 1) && (decide (3 < ordKind (numAt r.data 32 2)) || decide (512 ≤ numAt r.data 32 2))

/-! ## Decisions (Table 5.5) -/

/-- A WITNESS event (R146, R147, R150): a step before the cut with the vote not sent abandons the course first; then the slot is
declared as WIT_CTRL.ACTION says. One of a record that the Ozmund formed counts against the Ozmund, whose shored position, if it still has it, is
covered beyond the tray. -/
def witnessEvent (r : WRec) : Prog :=
  .look fun d =>
    let before := decide (r.step < d.get CRS_STEP_STEP)
    let late := before && (d.voted || !d.inCourse)
    all [
      bump WIT_COUNT0_MISMATCH,
      when (before && d.inCourse && !d.voted) (abandonHere vORDER true),
      if r.own then .seq (intEvent 6 none r.pos r.step late) (when (decide (d.shore.slot = some r.slot)) positionLost)
      else slotEvent 6 r.slot r.pos r.step late (!(d.on WIT_CTRL_ACTION))]

/-- The witness engine takes the oldest record (R145): `wrong` gives, for each recompute in turn, what a witness tile that errs
makes of it; a tile that does not makes what the contract gives. -/
def execWitnessCompare (wrong : List (Option (List Byte))) (s : State) : Host.Outcome State Fault Refusal :=
  s.runEngine (.witnessCompare wrong) <| .look fun d =>
    match d.wit.queue.head?.map fun r => (r, d.tilesFor r) with
    | some (r, w0 :: ws) =>
      let tiles := w0 :: ws
      let tile (i : Nat) : Nat := tiles.getD (i % tiles.length) w0
      let got (i : Nat) : List Byte := ((wrong.getD i none).getD r.recompute)
      let own (is : List Nat) : Prog := each ((is.map tile).eraseDups) fun t => ownEvent t r.pos r.step
      if r.badOrder then .seq popRecord (.seq (bump WIT_COUNT1_STRAY) (slotEvent 9 r.slot r.pos r.step))
      else all [
        bump WIT_COUNT0_COMPARED,
        (if got 0 = r.result then .done
        else if got 1 = got 0 then witnessEvent r
        else if got 1 = r.result then own [0]
        else if got 2 = got 0 then .seq (witnessEvent r) (own [1])
        else if got 2 = r.result then own [0, 1]
        else own [0, 1, 2]),
        popRecord]
    | _ => .done

/-- GATE_MS after SEALING (R146): the gate stops holding, and what is pending counts as UNGATED. -/
def execWitGateTimeout (s : State) : Host.Outcome State Fault Refusal :=
  s.runEngine .witGateTimeout <| .look fun d => when (decide (d.kState = kSEALING) && !d.voted && d.gateHolds) (all [
    bump WIT_COUNT1_UNGATED d.gated.length,
    modCourse fun c => { c with gateOver := true },
    tryVote])

/-- A group keeper's DIVERGE event against a position of this member (R142): the member counts it. -/
def execDivergeNotice (pos : W32) (step : W64) (s : State) : Host.Outcome State Fault Refusal :=
  s.runEngine (.divergeNotice pos step) <| .look fun d => match d.myPositions.find? fun p => decide (p.pos = pos.toNat) with
    | some p => slotEvent 5 p.slot pos.toNat step.toNat
    | none => .done

end Sys2Proof.Machine
end

