-- ==== Sys2Proof/Machine/Rewinds.lean ====
section
/-! DEFINITION. Family: the rewind, promotion, handback and repointing (R103, R108 to R127). -/

namespace Sys2Proof.Machine

/-- A replacement asks for the restore course's tray manifest (R358): from the old member while it is alive, or from its partner. -/
def joinerPlan (p : Plan) : Prog :=
  .look fun d => when (d.start.joining && decide (d.hPhase = hINTAKE) && d.start.manifest.isEmpty) <|
    let old := d.get HUB_JOIN_OLD
    let a := if (d.sessionTo old).any fun n => decide ((d.peer n).st = pOPEN) then old else d.partnerOf old
    .seq (openTo a) (notify a nMANIFEST_WANT (pack [(4, p.course), (2, d.get CRS_ROOT_MEMBER), (2, 0)]))

/-- A replacement that has been admitted is a member like any other. -/
def joinerAdmitted : Prog :=
  .look fun d => when (d.start.joining && decide (d.hPhase = hREADY)) (.seq (modStart fun x => { x with joining := false }) (setPhase hSTARTED))

/-- REWIND_PLAN (R109, R111): forwarded down the tree and taken; a plan older than the last one is not. -/
def execRewindPlan (m : NMsg) (s : State) : Host.Outcome State Fault Refusal :=
  s.runEngine (.rewindPlan m) <|
    onNoticeOk m false (decide (m.data.length = 24) && decide (numAt m.data 16 2 ≠ 0)) false <| .look fun d =>
      let p := Plan.ofBytes m.data
      .seq (forwardDown nREWIND_PLAN m.data) (when (decide (d.get SHR_REWIND_NUMBER ≤ p.num)) (.seq (takePlan p) (joinerPlan p)))

/-- REWOUND at the root (R111, R112). -/
def execRewound (m : NMsg) (s : State) : Host.Outcome State Fault Refusal :=
  s.runEngine (.rewound m) <| onNoticeOk m false (decide (m.data.length = 8)) false
    (acceptRewound (numAt m.data 0 4) (numAt m.data 4 2) (numAt m.data 6 1))

/-- ADMIT_ORDER (R111). -/
def execAdmitOrder (m : NMsg) (s : State) : Host.Outcome State Fault Refusal :=
  s.runEngine (.admitOrder m) <| onNoticeOk m false (decide (m.data.length = 16)) false
    (.seq (forwardDown nADMIT_ORDER m.data) (.seq (takeAdmit (numAt m.data 0 4) (numAt m.data 8 8)) joinerAdmitted))

/-- REWIND_MS after the plan (R112). -/
def execRewindTimeout (s : State) : Host.Outcome State Fault Refusal :=
  s.runEngine .rewindTimeout <| .look fun d => match d.barrierWatch .rewindBarrier with
    | some e => when (decide (e.2.deadline ≠ 0) && decide (e.2.deadline ≤ d.podTime)) (.seq (raise SYN_EVT_WATCH_TIMEOUT) rewindBarrierTimeout)
    | none => .done

/-- Promotion ends only once FLIGHT_US has passed (R110, R117): the shored position's counters and context are set then. -/
def promotionGoesOn : Prog := .look fun d => when (d.promotionOver && d.flightOver) promotionEnds

/-- FLIGHT_US after the last FENCE_DONE (R110): cursors, streams and counters of the slots that are loaded, and of a shored position whose
promotion has ended. -/
def execFlightWaitEnd (s : State) : Host.Outcome State Fault Refusal :=
  s.runEngine .flightWaitEnd (.look fun d => when d.flightOver (.seq setSlots promotionGoesOn))

/-- The fence has ended and the restore course is known (R116): promotion goes on as far as it can. -/
def execPromotionStart (s : State) : Host.Outcome State Fault Refusal :=
  s.runEngine .promotionStart promote

/-- Promotion has ended (R117). -/
def execPromotionDone (s : State) : Host.Outcome State Fault Refusal :=
  s.runEngine .promotionDone promotionGoesOn

/-! ## SHR_CTRL (Table 4.7) -/

/-- A write of SHR_CTRL: the plain fields, then DECLARE and HANDBACK, each cleared when done. -/
def writeShrCtrl (v : W64) : Prog :=
  all [
    writePlain SHR_CTRL_EN.addr (v &&& ~~~(0xC : W64)),
    .look fun d => when d.shoreBarred (put SHR_CTRL_EN 0),
    when (decide (SHR_CTRL_DECLARE.of v = 1)) (.look fun d => declareNow (d.get SHR_CTRL_DSLOT) 4),
    when (decide (SHR_CTRL_HANDBACK.of v = 1)) (.look fun d => when (!(d.on SHR_CTRL_HANDBACK)) (startHandback complete))]

/-- SHR_CTRL.DECLARE written 1 (R103). -/
def execShrCtrlDeclare (v : W64) (s : State) : Host.Outcome State Fault Refusal :=
  s.runUp (when (decide (SHR_CTRL_DECLARE.of v = 1)) (writeShrCtrl v))

/-- SHR_CTRL.HANDBACK written 1 (R124, R125). -/
def execShrCtrlHandback (v : W64) (s : State) : Host.Outcome State Fault Refusal :=
  s.runUp (when (decide (SHR_CTRL_HANDBACK.of v = 1)) (writeShrCtrl v))

/-! ## Steps of a handback (R125) -/

/-- Runs on the handback in progress while it stands at a step. -/
def atStep (st : HbStep) (k : Handback → Prog) : Prog :=
  .look fun d => match d.shore.handback with
    | some h => when (decide (h.step = st)) (k h)
    | none => .done

/-- No power-good within 500 ms of power-enable (R125): the handback ends. -/
def execHandbackPgoodTimeout (s : State) : Host.Outcome State Fault Refusal :=
  s.runEngine .handbackPgoodTimeout (atStep .power fun _ => handbackFails)

/-- No HELLO within 60 ms of SLOT_RESET_N rising (R125): the handback ends. -/
def execHandbackHelloTimeout (s : State) : Host.Outcome State Fault Refusal :=
  s.runEngine .handbackHelloTimeout (atStep .hello fun _ => handbackFails)

/-- A copy pass of a live handback ends (R125). -/
def execHandbackPassDone (s : State) : Host.Outcome State Fault Refusal :=
  s.runEngine .handbackPassDone (atStep .copying handbackPass)

/-! ## Repointing (R121 to R123) -/

/-- A recomputed contribution of the shored position goes to the receiver that asked, with its SEQ24 and a fresh mark under the current key
(R122, R303). -/
def resendContribution (receiver seq addr : Nat) (bytes : List Byte) : Prog :=
  each (packets bytes).zipIdx fun e => .look fun d =>
    let a := d.agent localAgent
    let mark := mark128 (leNat (a.markKey.take 16)) (leNat (a.markKey.drop 16)) e.1 2 seq d.shoredPos
    fabSend 0x50 0 receiver (d.shoredPos % 65536 * 65536 + seq % 65536) (addr + 4096 * e.2)
      (leBytes 16 mark ++ pack [(1, a.markSlot % 2), (3, seq), (12, 0)] ++ e.1) true

/-- A receiver asks the shored position for a contribution once more: on the first two requests of a receiver the sender recomputes it, and
sends it again; with the third the position is treated as failed. What the program recomputes, and the receiver's address for it, are the
command's (notes/assumptions/189). -/
def execRepointRequest (receiver : W32) (step : W64) (seq : BitVec 24) (attempt : BitVec 2) (addr : W64) (bytes : List Byte) (s : State) :
    Host.Outcome State Fault Refusal :=
  s.runEngine (.repointRequest receiver step seq attempt addr bytes) <| .look fun d =>
    let key := (receiver.toNat, step.toNat, seq.toNat)
    let n := ((d.shore.repoints.find? fun e => decide (e.1 = key)).map (·.2)).getD 0 + 1
    when (d.shoredLive && decide (attempt ≠ 0)) (.seq
      (modShore fun x => { x with repoints := (x.repoints.filter fun e => decide (e.1 ≠ key)) ++ [(key, n)] })
      (if attempt = 3 ∨ 3 ≤ n then .seq (integrityOwn 4) positionLost
       else resendContribution receiver.toNat seq.toNat addr.toNat bytes))

end Sys2Proof.Machine
end

