-- ==== Sys2Proof/Machine/Pod.lean ====
section
/-! DEFINITION. Family: partners, mirrors and far copies, the broadcast tree, start, teardown and spares (R83, R88, R139, R342 to R360,
R456). -/

namespace Sys2Proof.Machine

/-! ## Partners (R342 to R344, Table 13.3) -/

/-- The partner state falls to SOLO for a cause of HUB_PAIR.CAUSE: what waited for the partner goes on without it. -/
def goSolo (cause : Nat) : Prog :=
  .look fun d => when (decide (d.mode.partner ≠ .solo)) (all [
    modMode fun m => { m with partner := .solo }, put HUB_PAIR_CAUSE cause,
    modHold fun h => { h with tearing := false },
    tryVote,
    when (d.isRoot && d.course.deciding.isSome) announce,
    tryCapacity, checkLoaded])

/-- LOST_REPORT about the partner to its job's course root, under that job's epoch (R344). -/
def reportPartner (cause : Nat) : Prog :=
  .look fun d =>
    let b := pack [(4, d.partnerAddr), (4, d.get HUB_PAIR_PEPOCH), (1, cause), (3, 0)]
    when (decide (d.get HUB_PAIR_PEPOCH ≠ 0) && decide (d.hold.root ≠ 0) && decide (d.hold.root ≠ d.partnerAddr))
      (if d.hold.root = d.ownAddr then notify d.ownAddr nLOST_REPORT b
       else .seq (openTo d.hold.root) (.look fun d => match d.sessionTo d.hold.root with
        | some n => .seq (modPeer n fun p => { p with reqs := p.reqs ++ [⟨p.sent, 0x10, nLOST_REPORT, 0, b⟩] })
            (pSend n { ty := 0x10, arg := nLOST_REPORT, data := b, epoch := some (d.get HUB_PAIR_PEPOCH) })
        | none => send (.peer d.hold.root) Kind.notice [nLOST_REPORT, d.get HUB_PAIR_PEPOCH] b))

/-- The positions of the partner's tray: of its member in this job, or of another job as its newest mirror lists them. -/
def Dev.partnerPositions (d : Dev) : List Nat :=
  if d.get HUB_PAIR_PEPOCH = d.epoch then ((d.memberOf d.partnerAddr).map d.positionsOf).getD []
  else
    let ms := d.hold.mirrors.filter fun m => decide (m.epoch = d.get HUB_PAIR_PEPOCH)
    ((ms.find? fun m => ms.all fun x => decide (x.course ≤ m.course)).map fun m => (manCuts m.manifest).map (·.pos)).getD []

/-- Both paths to the partner are silent for LOST_MS (R344); the event notice names the positions of its tray (R128). -/
def execPartnerLost (s : State) : Host.Outcome State Fault Refusal :=
  s.runEngine .partnerLost <| .look fun d =>
    let quiet := max (d.get RNG_CFG_LOST_MS) (3 * max 1 (d.get RNG_CFG_PULSE_MS)) * 700000
    when (decide (d.mode.partner ≠ .solo) && decide ((d.peer 0).st ≠ pOPEN) && d.hold.pulse.all fun t => decide (t + quiet ≤ d.clk)) 
      (all [reportPartner lostLOST, goSolo 2, raise HUB_EVT_PARTNER_LOST ((d.partnerPositions.map (leBytes 4)).flatten)])

/-- Whether this member owes its partner a full mirror, and the partner this member: a COMMITTED course without an acknowledged
mirror. -/
def Dev.owes (d : Dev) : Bool :=
  decide (d.epoch ≠ 0) && decide (d.get CRS_COURSE_COMMITTED ≠ noCourse) && decide (d.course.mirrored ≠ d.get CRS_COURSE_COMMITTED)
def Dev.owed (d : Dev) : Bool :=
  decide (d.get HUB_PAIR_PEPOCH ≠ 0) && decide (d.hold.committed ≠ noCourse) &&
    !(d.hold.mirrors.any fun m => m.acked && decide (m.epoch = d.get HUB_PAIR_PEPOCH) && decide (d.hold.committed ≤ m.course))

/-- The repair is over once neither side owes the other a mirror. -/
def settlePair : Prog :=
  .look fun d => when (decide (d.mode.partner ≠ .paired) && d.hold.hello && !d.owes && !d.owed)
    (.seq (modMode fun m => { m with partner := .paired }) (raise HUB_EVT_PAIRED))

/-- RESYNC, and the full mirror and far copies of the last COMMITTED course (R456), once its shards are whole here (R96, R137). -/
def resync : Prog :=
  .look fun d => match d.lastHeld with
    | some h =>
      let bad := h.ents.filter fun e => !(d.shardWhole e)
      .seq (modCourse fun c => { c with mirrorWaits := !bad.isEmpty })
        (if bad.isEmpty then .seq (toPartner 0x26 (pack [(4, h.course), (4, d.epoch)])) (sendFullMirror h)
         else each bad fun e => .seq (checkShard e) (match d.shardSources e with
          | a :: _ => askShard a h.course e.sha
          | [] => .done))
    | none => .done

/-- PAIR_HELLO (R342, R343, Table 13.3): its sender's role, epoch, course root and COMMITTED course are held. Of a partner in QUARANTINE an
event notice names the positions (R128). -/
def execPairHello (m : NMsg) (s : State) : Host.Outcome State Fault Refusal :=
  s.runUp <| onNotice m true (decide (m.data.length = 32)) false <| .look fun d =>
    let ans (st : Nat) : Prog := pAnswer m.src.toNat m.seq.toNat st
    if m.src.toNat ≠ d.partnerAddr ∨ numAt m.data 0 4 ≠ d.partnerAddr then ans stAUTH
    else .seq (ans stOK) <|
      if numAt m.data 12 2 ≠ d.get HUB_PART_PARTITION then .seq (put HUB_PAIR_CAUSE 3) (goSolo 3)
      else all [
        put HUB_PAIR_PEPOCH (numAt m.data 8 4),
        modHold fun h => { h with hello := true, role := numAt m.data 7 1, committed := numAt m.data 24 4, root := numAt m.data 28 4 },
        if numAt m.data 7 1 = Role.quarantine.code then .seq (goSolo 4)
          (when (decide (d.mode.partner ≠ .solo) && !d.partnerPositions.isEmpty) (coverBeyond d.partnerPositions))
        else .look fun d => when (decide (d.mode.partner = .solo)) (
          if d.owes ∨ d.owed then .seq (modMode fun m => { m with partner := .repairing }) (when d.owes resync)
          else settlePair)]

/-! ## Mirrors and far copies (R83, R88, R456) -/

/-- A buffer is granted for the DATA that a notice announces (R283). -/
def grant (m : NMsg) (code handle len : Nat) : Prog :=
  .look fun d => match d.sessionTo m.src.toNat with
    | some n => modSync fun s => { s with grants := (s.grants.filter fun g => !(decide (g.session = n) && decide (g.handle = handle))) ++
        [{ session := n, handle := handle, epoch := m.epoch.toNat, base := none, len := len, code := code, notice := m.data }] }
    | none => .done

/-- MIRROR (R88): manifest and directory entries follow. -/
def execMirror (m : NMsg) (s : State) : Host.Outcome State Fault Refusal :=
  s.runUp <| onPairOk m (decide (m.data.length = 28)) false (grant m nMIRROR (numAt m.data 8 2) (numAt m.data 12 8 + 16 * numAt m.data 20 4))

/-- The far copy of an entry that is held for an epoch. -/
def Dev.farCopy (d : Dev) (epoch : Nat) (e : MEnt) : Option FarCopy := d.hold.far.find? fun f => decide (f.epoch = epoch) && decide (f.sha = e.sha)

/-- Whether every far copy of a mirror's course is held (R88): those that its entries flag; of a full mirror, whose FAR_PUTs came before it
whatever the flags say (R456), all that were put, each of them its entry's by its SHA-256. -/
def Dev.mirrorWhole (d : Dev) (m : MirrorMan) : Bool :=
  if m.base = noCourse then
    !(d.hold.lacking.any fun x => decide (x.1 = m.epoch) && decide (x.2.1 = m.course)) &&
      !(d.sync.grants.any fun g => decide (g.code = nFAR_PUT) && decide (numAt g.notice 0 4 = m.course) && decide (numAt g.notice 4 4 = m.epoch)) &&
      (d.hold.far.filter fun f => decide (f.epoch = m.epoch) && decide (f.course = m.course)).all fun f =>
        ((manEntries m.manifest)[f.entry]?).any fun e => decide (e.sha = f.sha)
  else (manEntries m.manifest).all fun e => !(bitOf e.flags 2) || (d.farCopy m.epoch e).isSome

/-- The partner of a member has whatever a mirror names: it acknowledges it, and releases every course of the epoch but that one
and its base (R456). A carried shard is carried here too (R83). -/
def checkMirrors : Prog :=
  .look fun d => each (d.hold.mirrors.filter fun m => !m.acked) fun m =>
    when (d.mirrorWhole m) <|
      let mine := (manEntries m.manifest).zipIdx.filterMap fun e => if bitOf e.1.flags 2 ∨ m.base = noCourse then
        (d.farCopy m.epoch e.1).map fun f => { f with course := m.course, entry := e.2 } else none
      all [
        modHold fun h => { h with
          mirrors := (h.mirrors.filter fun x => decide (x.epoch ≠ m.epoch) || decide (x.course = m.base)) ++ [{ m with acked := true }],
          far := (h.far.filter fun f => decide (f.epoch ≠ m.epoch) || decide (f.course = m.base)) ++ mine },
        toPartner nMIRROR_ACK (pack [(4, m.course), (1, stOK), (3, 0)]),
        settlePair]

/-- A mirror is complete: it stands in the partner's part of the manifest area (R87). -/
def takeMirror (notice bs : List Byte) : Prog :=
  .look fun d =>
    let n := numAt notice 12 8
    let x : MirrorMan := { course := numAt notice 0 4, epoch := numAt notice 4 4, base := numAt notice 24 4, manifest := bs.take n, dir := bs.drop n }
    all [
      modHold fun h => { h with mirrors := (h.mirrors.filter fun y => !(decide (y.epoch = x.epoch) && decide (y.course = x.course))) ++ [x] },
      writePhys (d.get CRS_MAN_BASE_BASE * 0x200000 + 0x2000000 + x.course % 2 * 0x1000000) x.manifest,
      checkMirrors]

/-- FAR_PUT (R83, R456): the far copies of an earlier course of the epoch that no mirror completed are released. -/
def execFarPut (m : NMsg) (s : State) : Host.Outcome State Fault Refusal :=
  s.runUp <| onPairOk m (decide (m.data.length = 24)) false <|
    let c := numAt m.data 0 4
    let e := numAt m.data 4 4
    .seq (modHold fun h => { h with lacking := h.lacking.filter fun x => !(decide (x.1 = e) && (decide (x.2.1 < c) || decide (x.2 = (c, numAt m.data 20 4)))),
                                    far := h.far.filter fun f => decide (f.epoch ≠ e) || decide (c ≤ f.course) ||
        (h.mirrors.any fun x => decide (x.epoch = e) && decide (x.course = f.course)) })
      (grant m nFAR_PUT (numAt m.data 8 2) (numAt m.data 12 8))

/-- A far copy is complete: placed in the far area, and FAR_ACK (R83). One that has no place is lacking. -/
def takeFar (notice bs : List Byte) : Prog :=
  .look fun d =>
    let n := bs.length / 4096
    let x := (numAt notice 4 4, numAt notice 0 4, numAt notice 20 4)
    let ack (st : Nat) : Prog := toPartner nFAR_ACK (notice.take 4 ++ cut_ notice 20 4 ++ pack [(1, st), (3, 0)])
    .seq (tally 1384 bs.length) <| match d.farPlaces ⟨x.2.1, x.1, x.2.2, 0, n, digest bs⟩ with
    | some fs =>
      let was (f : FarCopy) : Option FarCopy := d.hold.far.find? fun g => decide (g.epoch = f.epoch) && decide (g.course = f.course) && decide (g.entry = f.entry)
      all [
        tallyClass 4 bs.length,
        each fs fun f => if f.entry = x.2.2 then writePhys f.addr bs
          else each (was f).toList fun g => when (decide (g.addr ≠ f.addr)) (writePhys f.addr (d.physBytes g.addr (g.len * 4096))),
        modHold fun h => { h with far := (h.far.filter fun f => !(decide (f.epoch = x.1) && decide (f.course = x.2.1))) ++ fs },
        ack stOK, checkMirrors]
    | none => .seq (modHold fun h => { h with lacking := h.lacking ++ [x] }) (ack stLENGTH)

/-- FAR_ACK (R83): a far copy is held; one that could not be stored fails the start (R353). -/
def execFarAck (m : NMsg) (s : State) : Host.Outcome State Fault Refusal :=
  s.runEngine (.farAck m) <| onPairOk m (decide (m.data.length = 12)) false <|
    if numAt m.data 8 1 = stOK then .seq (modCourse fun c => { c with farWait := c.farWait.erase (numAt m.data 4 4) }) checkLoaded
    else .look fun d => when (decide (d.hPhase = hLOADING)) (sendReady (numAt m.data 8 1))

/-- MIRROR_ACK (R88, Table 13.3): the mirror of the course in progress is held, and the vote may go; a full mirror ends REPAIRING
or the loading of a start. -/
def execMirrorAck (m : NMsg) (s : State) : Host.Outcome State Fault Refusal :=
  s.runEngine (.mirrorAck m) <| onPairOk m (decide (m.data.length = 8)) false <| .look fun d =>
    let c := numAt m.data 0 4
    when (decide (numAt m.data 4 1 = stOK)) (all [
      modCourse fun k => { k with mirrored := c },
      when (decide (c = d.get CRS_COURSE_COMMITTED) || decide (d.hPhase = hLOADING))
        (modCourse fun k => { k with farFull := if d.on CRS_CTRL_FAR_EN then some c else none }),
      when (decide (d.kState = kSEALING) && decide (d.cur = c) && d.course.mirrorSent) (.seq (put CRS_STAT_MIRROR_ACK 1) tryVote),
      settlePair, checkLoaded])

/-- FAR_RESERVE (R86, R356): answered at once, or when this Ozmund's own teardown has ended. -/
def execFarReserve (m : NMsg) (s : State) : Host.Outcome State Fault Refusal :=
  s.runUp <| onPair m (decide (m.data.length = 16)) (decide (numAt m.data 4 4 ≠ 0)) <| .look fun d =>
    let e := numAt m.data 0 4
    let g := numAt m.data 8 8
    if d.start.ordered then modHold fun h => { h with heldReserve := some (m.src.toNat, m.seq.toNat, e, g) }
    else answerReserve m.src.toNat m.seq.toNat e g

/-- RESYNC (R456): everything held for the sender's epoch is dropped. -/
def execResync (m : NMsg) (s : State) : Host.Outcome State Fault Refusal :=
  s.runUp <| onPairOk m (decide (m.data.length = 8)) false <|
    let e := numAt m.data 4 4
    modHold fun h => { h with far := h.far.filter fun f => decide (f.epoch ≠ e), lacking := h.lacking.filter fun x => decide (x.1 ≠ e), mirrors := h.mirrors.filter fun x => decide (x.epoch ≠ e), committed := numAt m.data 0 4 }

/-- TEARDOWN_NOTE (R355): from the partner, or from the root of a lost partner's job. The far area and mirror of the epoch are
scrubbed or kept. -/
def execTeardownNote (m : NMsg) (s : State) : Host.Outcome State Fault Refusal :=
  s.runUp <| .look fun d =>
    let go : Prog := .seq (scrubFar (numAt m.data 0 4) (bitOf (numAt m.data 4 1) 0))
      (when (decide (m.src.toNat = d.partnerAddr)) (modHold fun h => { h with tearing := true }))
    let len := decide (m.data.length = 8)
    if m.src.toNat = d.partnerAddr then onPairOk m len false go else onNoticeOk m true len false go

/-- PARTNER_SCRUB (R356): a held capacity test goes on. -/
def execPartnerScrub (m : NMsg) (s : State) : Host.Outcome State Fault Refusal :=
  s.runUp <| onPairOk m (decide (m.data.length = 8)) false (.seq (modHold fun h => { h with tearing := false }) tryCapacity)

/-- SEED (R139): a member holds Z and mirrors it to its partner; the partner holds it for the member. -/
def execSeed (m : NMsg) (s : State) : Host.Outcome State Fault Refusal :=
  s.runUp <| .look fun d =>
    let src := m.src.toNat
    let paired := decide (src = d.partnerAddr) && decide (m.epoch.toNat = d.get HUB_PAIR_PEPOCH)
    let e := numAt m.data 0 4
    onNoticeOk m (paired || decide (m.epoch.toNat = d.peerEpoch)) (decide (m.data.length = 40)) false <| .look fun d => .seq
      (when paired (modHold fun h => { h with z := m.data.drop 8, zEpoch := e }))
      (when (decide (e = d.peerEpoch) && decide (e ≠ 0) && d.job.z.isEmpty && (decide (src ≠ d.partnerAddr) || decide (src = d.get CRS_ROOT_ADDR) || d.start.joining))
        (all [modJob fun j => { j with z := m.data.drop 8 }, when (decide (d.mode.partner ≠ .solo)) (toPartner 0x40 m.data), intakeEnds]))

/-! ## The tree (R347 to R349) -/

/-- While a member does not know the job's members yet, notices of the epoch being admitted pass. -/
def Dev.treeExempt (d : Dev) (m : NMsg) : Bool := d.job.members.isEmpty && decide (d.start.epoch ≠ 0) && decide (m.epoch.toNat = d.start.epoch)

/-- TREE_CHUNK (R348): its bytes follow; one already held goes to the children that lack it. -/
def execTreeChunk (m : NMsg) (s : State) : Host.Outcome State Fault Refusal :=
  s.runUp <| .look fun d => onNotice m (d.treeExempt m) (decide (m.data.length = 16)) false <| .look fun d =>
    let j := numAt m.data 0 4
    when (decide (d.hPhase = hSTAGING)) <|
      if d.heldChunks.contains j then spreadChunk j
      else when (!d.start.head.isEmpty && decide (j < pkgChunks d.start.head)) (grant m 0x30 (numAt m.data 8 2) (chunkLen d.start.head j))

/-- A node adopts another as a child (R349). -/
def adopt (a : Nat) : Prog :=
  .look fun d => when (!(d.children.contains a)) (modStart fun x => { x with adopted := x.adopted ++ [a] })

/-- TREE_WANT (R349): the chunks named that are held, and the asker becomes a child for the rest. -/
def execTreeWant (m : NMsg) (s : State) : Host.Outcome State Fault Refusal :=
  s.runUp <| .look fun d =>
    let n := numAt m.data 0 4
    onNoticeOk m (d.treeExempt m || decide (m.epoch.toNat = d.peerEpoch)) (decide (1 ≤ n) && decide (n ≤ 127) && decide (m.data.length = 8 + 32 * n)) false <|
      .look fun d =>
        let want := (records 32 (m.data.drop 8)).take n
        .seq (adopt m.src.toNat) (each (d.heldChunks.filter fun j => want.contains (chunkSha d.start.head j)) (sendChunk m.src.toNat))

/-- TREE_JOIN (R349). -/
def execTreeJoin (m : NMsg) (s : State) : Host.Outcome State Fault Refusal :=
  s.runUp <| .look fun d => onNoticeOk m (d.treeExempt m) (decide (m.data.length = 8)) false (adopt m.src.toNat)

/-- The ancestors of a tree index, nearest first. -/
def ancestors : Nat → Nat → List Nat
  | 0, _ => []
  | fuel + 1, t => if t = 0 ∨ t = 0x7FF then [] else (t - 1) / 8 :: ancestors fuel ((t - 1) / 8)

/-- Whether a session to an address is open. -/
def Dev.openWith (d : Dev) (a : Nat) : Bool := (d.sessionTo a).any fun n => decide ((d.peer n).st = pOPEN)

/-- Re-parents to the nearest live ancestor, the first whose session opens (R349). -/
def reparent : Prog :=
  .look fun d => when d.start.orphaned <|
    let p := d.get HUB_TREE_PARENT
    let up := ancestors 4 p ++ [p]
    match up.find? fun t => (d.treeAddr t).any d.openWith with
    | none => each (up.filterMap d.treeAddr) openTo
    | some t =>
      let a := (d.treeAddr t).getD 0
      all [
        modStart fun x => { x with orphaned := false },
        put HUB_TREE_PARENT t, put HUB_TREE_REPARENTED 1, raise HUB_EVT_TREE_REPAIR,
        notify a 0x32 (pack [(4, d.treeIndex), (4, 0)]),
        if d.hPhase = hSTAGING then .seq (wantChunks a) spreadAll
        else when (decide (d.hPhase = hSTARTED)) (toRoot nCOURSE_QUERY (leBytes 4 d.cur))]

/-- This member's parent is lost or silent. -/
def orphan : Prog :=
  .look fun d => when (d.parent.isSome) (.seq (modStart fun x => { x with orphaned := true }) reparent)

/-- TREE_MS without a chunk from the parent (R349). -/
def execTreeSilenceTimeout (s : State) : Host.Outcome State Fault Refusal := s.runEngine .treeSilenceTimeout <| .look fun d =>
    when (decide (d.hPhase = hSTAGING) && !d.start.head.isEmpty && !d.packageHeld) orphan

/-- Chunks that no member holds, at the root after TREE_MS (R349): the member indices they belong to. -/
def execStripeMissingTimeout (s : State) : Host.Outcome State Fault Refusal :=
  s.runEngine .stripeMissingTimeout <| .look fun d =>
    let lack := (List.range (pkgChunks d.start.head)).filter fun j => !(d.heldChunks.contains j)
    when (d.isRoot && decide (d.hPhase = hSTAGING) && !lack.isEmpty)
      (raise HUB_EVT_STRIPE_MISSING (((lack.map fun j => j % max 1 d.nOz).eraseDups.map (leBytes 2)).flatten))

/-! ## Shards and manifests between members (R99, R352, R358) -/

/-- Notices that a source under R99 takes: of its own job, or of an epoch whose far copies it holds. -/
def Dev.sourceFor (d : Dev) (m : NMsg) : Bool :=
  decide (m.epoch.toNat = d.peerEpoch) && decide (m.epoch ≠ 0) || (d.hold.mirrors.any fun x => decide (x.epoch = m.epoch.toNat)) ||
    d.hold.far.any fun f => decide (f.epoch = m.epoch.toNat)

/-- SHARD_WANT (R99, R352): answered with SHARD_PUT once the shard is held and verified. -/
def execShardWant (m : NMsg) (s : State) : Host.Outcome State Fault Refusal :=
  s.runUp <| .look fun d => onNotice m (d.sourceFor m) (decide (m.data.length = 40)) (!(zeroAt m.data 4 4)) <| .look fun d =>
    let sha := m.data.drop 8
    let c := numAt m.data 0 4
    let ok : Prog := pAnswer m.src.toNat m.seq.toNat stOK
    match d.findShard sha with
    | some x => .seq ok (putShard m.src.toNat c sha x.1 x.2)
    | none =>
      if d.hPhase = hPARSED ∨ (d.hPhase = hINTAKE ∧ (d.start.manifest.isEmpty ∨ d.takenEnts.any fun e => decide (e.sha = sha))) then
        .seq ok (modStart fun x => { x with wants := x.wants ++ [(m.src.toNat, c, sha)] })
      else .seq (checkCopies sha) (pAnswer m.src.toNat m.seq.toNat stFAULT)

/-- The entry that a shard by its SHA-256 belongs to: of the intake, or of the restore course. -/
def Dev.wanted (d : Dev) (sha : List Byte) : Option MEnt :=
  (d.takenEnts.find? fun e => decide (e.sha = sha)) <|> (d.restoring.bind fun h => h.ents.find? fun e => decide (e.sha = sha)) <|>
    (d.lastHeld.bind fun h => h.ents.find? fun e => decide (e.sha = sha))

/-- Where a shard of the intake or of the restore course is asked for. -/
def Dev.sources (d : Dev) (e : MEnt) : List Nat := if d.hPhase = hINTAKE then d.intakeSources e else d.shardSources e

/-- SHARD_PUT (R352): its bytes follow. A source of R99 need not be a member of the job. -/
def execShardPut (m : NMsg) (s : State) : Host.Outcome State Fault Refusal :=
  s.runUp <| .look fun d =>
    let e := d.wanted (cut_ m.data 8 32)
    onNotice m (d.sourceFor m || (e.any fun e => (d.sources e).contains m.src.toNat)) (decide (m.data.length = 48)) false <|
      match e with
      | some e => grant m 0x34 (numAt m.data 40 2) (e.len * 4096)
      | none => .done

/-- What waited for a shard of the restore course goes on, once all that it waited for is whole. -/
def shardsGoOn : Prog :=
  .look fun d => .seq
    (each (d.live.filter fun n => decide (Store.find? d.shore.slots n = some .mapping)) fun n =>
      when ((d.toReload n).all fun x => x.2.any d.shardWhole) (reloadSlot n))
    (all [when (d.promotionList.all d.shardWhole) promote, loadCover,
      (match d.shore.handback, (if d.shore.admitted then d.lastHeld else d.restoring) with
        | some h, some x => when (!h.live && decide (h.step = .boundary) && decide (h.course ≠ some x.course) &&
            x.ents.all fun e => decide (e.pos ≠ d.slotPos h.slot) || d.shardWhole e) (loadHandback h x)
        | _, _ => .done),
      when (d.course.mirrorWaits && decide (d.mode.partner = .repairing) && d.lastHeld.any fun h => h.ents.all d.shardWhole) resync])

/-- The next source of R99 after one that did not have the shard: NOSOURCE where there is none. -/
def nextSource (src : Nat) (sha : List Byte) : Prog :=
  .look fun d => match d.wanted sha with
    | none => .done
    | some e =>
      let srcs := d.sources e
      match (srcs.drop (srcs.findIdx (fun a => decide (a = src)) + 1)).head? with
      | some a => askShard a e.course sha
      | none => if d.hPhase = hINTAKE then sendReady stFAULT
        else if d.shore.admitted then when (d.shore.handback.any fun h => !h.live && decide (h.step = .boundary) && h.course.isNone &&
          decide (e.pos = d.slotPos h.slot)) handbackFails
        else .seq (when (d.promotionList.any fun x => decide (x.sha = sha)) shoringFails) (sendRewound 2)

/-- The Shard Directory entry of a place is VERIFIED. -/
def verified (loc : Nat) : Prog :=
  modCourse fun c => { c with dir := c.dir.map fun e => if e.2.addr = loc ∧ e.2.state = 2 then (e.1, { e.2 with state := 3 }) else e }

/-- A shard has come whole: taken in, or put in its place in the restore course (R96, R99). -/
def takeShard (src : Nat) (sha bs : List Byte) : Prog :=
  .look fun d => match d.wanted sha with
    | none => .done
    | some e =>
      if d.hPhase = hINTAKE then shardBytes (d.takenEnts.findIdx fun x => decide (x.sha = sha)) 0 bs
      else if digest bs ≠ sha then nextSource src sha
      else .seq (writePhys e.loc bs) (.seq (verified e.loc) shardsGoOn)

/-- MANIFEST_WANT (R358): the tray manifest of a course, own or mirrored, as the payload of RESP packets. -/
def execManifestWant (m : NMsg) (s : State) : Host.Outcome State Fault Refusal :=
  s.runUp <| .look fun d => onNotice m (d.sourceFor m) (decide (m.data.length = 8)) false <| .look fun d =>
    let c := numAt m.data 0 4
    let i := numAt m.data 4 2
    let own := if d.epoch = m.epoch.toNat ∧ i = d.get CRS_ROOT_MEMBER then (d.course.held.find? fun h => decide (h.course = c)).map (·.manifest) else none
    let mirror := (d.hold.mirrors.find? fun x => decide (x.course = c) && decide (x.epoch = m.epoch.toNat)).map (·.manifest)
    match own <|> mirror, d.sessionTo m.src.toNat with
    | some man, some n =>
      let ps := packets man
      each ps.zipIdx fun p => pSend n { ty := 0x15, tag := m.seq.toNat, last := decide (p.2 + 1 = ps.length), pkts := ps.length, data := p.1 }
    | _, _ => pAnswer m.src.toNat m.seq.toNat stFAULT

/-! ## Start (R353) -/

/-- Every chunk is held (R336, R338). -/
def execPackageComplete (s : State) : Host.Outcome State Fault Refusal := s.runUp packageComplete

/-- START_ABORT from the root, with a status. -/
def abortStart (st : Nat) : Prog := .look fun d => broadcast 0x43 (pack [(4, d.peerEpoch), (1, st), (3, 0), (8, d.job.s0)])

/-- READY at the root (R353): the first of each member counts. A reserved status is FAULT (R13). -/
def execReady (m : NMsg) (s : State) : Host.Outcome State Fault Refusal :=
  s.runUp <| onNoticeOk m false (decide (m.data.length = 8)) false <| .look fun d =>
    let i := numAt m.data 0 2
    let st := if 9 < numAt m.data 2 1 then stFAULT else numAt m.data 2 1
    when (d.isRoot && decide (i < d.nOz) && !(d.start.ready.any fun r => decide (r.1 = i)) && decide (d.hPhase < hSTARTED)) (.seq
      (modStart fun x => { x with ready := x.ready ++ [(i, st)] })
      (if st ≠ stOK then abortStart st
       else .look fun d => when (decide (d.start.ready.length = d.nOz) && d.start.ready.all fun r => decide (r.2 = stOK))
        (broadcast 0x42 (pack [(4, d.epoch), (1, stOK), (3, 0), (8, d.job.s0)]))))

/-- START (R350, R353). -/
def execStartJob (m : NMsg) (s : State) : Host.Outcome State Fault Refusal :=
  s.runEngine (.startJob m) <| onNoticeOk m false (decide (m.data.length = 16)) false
    (.seq (forwardDown 0x42 m.data) (started (numAt m.data 8 8)))

/-- START_ABORT (R353). -/
def execStartAbort (m : NMsg) (s : State) : Host.Outcome State Fault Refusal :=
  s.runEngine (.startAbort m) <| onNoticeOk m false (decide (m.data.length = 16)) false <|
    all [forwardDown 0x43 m.data, .look fun d => when (decide (d.hPhase < hSTARTED)) (.seq (orderTeardown false true) (put HUB_START_STATUS (if 9 < numAt m.data 4 1 then stFAULT else numAt m.data 4 1)))]

/-- START_S passes (R353): the root aborts the start for all, a member for itself. -/
def execStartTimeout (s : State) : Host.Outcome State Fault Refusal :=
  s.runEngine .startTimeout <| .look fun d => when (decide (1 ≤ d.hPhase) && decide (d.hPhase < hSTARTED))
    (if d.isRoot && !d.job.members.isEmpty then abortStart stABANDONED else .seq (orderTeardown false true) (put HUB_START_STATUS stABANDONED))

/-! ## Teardown (R354 to R357) -/

/-- TEARDOWN_REQ at the root (R354). -/
def execTeardownReq (m : NMsg) (s : State) : Host.Outcome State Fault Refusal :=
  s.runUp <| onTeardown m (.look fun d => when d.isRoot (broadcast 0x45 m.data))

/-- TEARDOWN_ORDER (R354). -/
def execTeardownOrder (m : NMsg) (s : State) : Host.Outcome State Fault Refusal :=
  s.runUp <| onTeardown m (.seq (forwardDown 0x45 m.data) (orderTeardown (bitOf (numAt m.data 4 1) 0) false))

/-- FENCE_DONE is missing 20 ms after a teardown's FENCE (R354). -/
def execTeardownFenceTimeout (s : State) : Host.Outcome State Fault Refusal :=
  s.runUp (.look fun d => .seq (releaseOut d.start.fencing) teardownFenced)

/-- The member's scrub ends (R354, R355). -/
def execScrubComplete (s : State) : Host.Outcome State Fault Refusal := s.runUp scrubEnds

/-- SCRUB_DONE at the root (R354). -/
def execScrubDone (m : NMsg) (s : State) : Host.Outcome State Fault Refusal :=
  s.runUp <| onTeardown m <| .look fun d =>
    when (d.isRoot && decide (numAt m.data 4 4 = d.epoch)) (modStart fun x => { x with scrubbed := (x.scrubbed ++ [numAt m.data 0 2]).eraseDups })

/-- A write of HUB_KEPT (R357). -/
def writeHubKept (v : W64) : Prog := .seq (writePlain HUB_KEPT_DROP.addr v) (when (decide (HUB_KEPT_DROP.of v = 1)) (.seq dropKept (put HUB_KEPT_DROP 0)))

/-- HUB_KEPT.DROP written 1 (R357). -/
def execHubKeptDrop (v : W64) (s : State) : Host.Outcome State Fault Refusal := s.runUp (when (decide (HUB_KEPT_DROP.of v = 1)) (writeHubKept v))

/-! ## Spares (R358) -/

/-- Gives a member index another address. -/
def setMember (i a : Nat) : Prog := .seq (modJob fun j => { j with members := j.members.set i a }) setTree

/-- JOIN at the root (R358): accepted for a member reported lost, or one with a position that waits for cover; then MEMBER_MAP, Z, and
a rewind that counts its positions with SPARE. -/
def execJoin (m : NMsg) (s : State) : Host.Outcome State Fault Refusal :=
  s.runEngine (.join m) <| .look fun d => onNotice m (decide (m.epoch.toNat = d.epoch) && decide (d.epoch ≠ 0)) (decide (m.data.length = 8)) false <| .look fun d =>
    let i := numAt m.data 0 2
    let ps := d.positionsOf i
    let ok := d.isRoot && decide (d.job.members[i]? = some (numAt m.data 4 4)) && (d.start.lost.contains i || ps.any fun p => d.shore.notices.contains p)
    if !ok then pAnswer m.src.toNat m.seq.toNat stAUTH
    else all [
      pAnswer m.src.toNat m.seq.toNat stOK,
      broadcast 0x51 (pack [(2, i), (2, 0), (4, m.src.toNat)]),
      (match d.job.members[i]? with | some a => notify a 0x51 (pack [(2, i), (2, 0), (4, m.src.toNat)]) | none => .done),
      setMember i m.src.toNat,
      modStart fun x => { x with lost := x.lost.filter fun k => decide (k ≠ i) },
      endHold i,
      notify m.src.toNat 0x40 (pack [(4, d.epoch), (4, 0)] ++ d.job.z),
      if d.shore.rooting then when (!(ps.all fun p => d.shore.notices.contains p) || !d.shore.spare) (superseding [i])
      else .seq (modShore fun x => { x with spare := true }) (rootNotice ps false)]

/-- MEMBER_MAP (R358): the index has a new address; an old member that is alive fences and releases its slots, and scrubs. One in QUARANTINE,
whose job is over for it, only fences and releases them (Table 4.4). -/
def execMemberMap (m : NMsg) (s : State) : Host.Outcome State Fault Refusal :=
  s.runEngine (.memberMap m) <| .look fun d =>
    let out := decide (d.mode.role = .quarantine) && d.start.former.any fun f => decide (f.1 = m.epoch.toNat)
    onNoticeOk m out (decide (m.data.length = 8)) false <| .look fun d =>
    let i := numAt m.data 0 2
    let a := numAt m.data 4 4
    let mine := (List.range 8).filter fun n => decide (d.slotPos n ≠ noPos)
    if out then when (d.start.former.any fun f => decide (f.2 = i) && decide (a ≠ d.ownAddr))
      (.seq (modStart fun x => { x with former := none, fencing := mine }) (each mine fenceSlot))
    else all [
      forwardDown 0x51 m.data,
      setMember i a,
      when d.isRoot (endHold i),
      when (decide (i = d.get CRS_ROOT_MEMBER) && decide (a ≠ d.ownAddr)) (.seq (modStart fun x => { x with replaced := true }) (orderTeardown false false))]

/-! ## DATA -/

/-- The DATA that a notice announced has all come (R283, R360). -/
def grantDone (g : Grant) : Prog :=
  .look fun d =>
    let bs := g.got.get 0 g.len
    let src := (d.peer g.session).peer
    .seq (modSync fun s => { s with grants := s.grants.filter fun x => decide (x ≠ g) }) <|
      if g.code = nMIRROR then takeMirror g.notice bs
      else if g.code = nFAR_PUT then takeFar g.notice bs
      else if g.code = 0x30 then stageBytes src (d.start.head.length + 0x100000 * numAt g.notice 0 4) bs
      else if g.code = 0x34 then takeShard src (cut_ g.notice 8 32) bs
      else .done

end Sys2Proof.Machine
end

