-- ==== Sys2Proof/Machine/SyncUnit.lean ====
section
/-! DEFINITION. Family: the sync unit's counters, windows, barriers, watches and dumps (R269 to R289). -/

namespace Sys2Proof.Machine

/-! ## Counters -/

/-- A write of SYN_ADD: an advance of the counter that SYN_SEL names (R269). -/
def writeSynAdd (v : W64) : Prog := .look fun d => .seq (advance (d.get SYN_SEL_INDEX) v) (complete stOK)

/-- SYN_ADD written (R269). -/
def execSynAdd (v : W64) (s : State) : Host.Outcome State Fault Refusal := s.runUp (writeSynAdd v)

/-- The context whose window holds a counter of the range of Table 10.2 that SYN_WINn gives out. -/
def Dev.winOwner (d : Dev) (counter : Nat) : Option Nat :=
  ((List.range 61).map (· + 3)).find? fun n =>
    decide (d.get (SYN_WIN_BASE n) ≤ counter) && decide (counter < d.get (SYN_WIN_BASE n) + d.get (SYN_WIN_SIZE n))

/-- Whether every tile bound to a context is IDLE, STOPPED or FAULTED, and its channels are stopped (R288): one whose descriptor names it is
neither enabled nor at work. -/
def Dev.contextStill (d : Dev) (n : Nat) : Bool :=
  ((List.range 256).all fun t => decide ((d.tile t).owner = oNONE) || decide (d.tctx t ≠ n) || decide ((d.tile t).state ∈ [tIDLE, tSTOPPED, tFAULTED])) &&
    (List.range 64).all fun k => !((d.chan k).started || d.on (DMA_CTRL_EN k)) ||
      (decide ((d.desc (.chan k)).sctx ≠ n) && decide ((d.desc (.chan k)).dctx ≠ n))

/-- Whether no advance can reach a counter, so that SYN_SET may write it (R288). -/
def Dev.settable (d : Dev) (counter : Nat) : Bool :=
  if counter < 4096 then decide (d.sync.win = .final) && !d.shoredLive
  else if counter < 8192 then (List.range 256).all fun t => !(decide ((d.tile t).owner = oWITNESS) && decide ((d.tile t).state = tRUNNING))
  else if counter < 16384 then decide (d.epoch = 0)
  else match d.winOwner counter with
    | some n => d.contextStill n
    | none => true

/-- A write of SYN_SET (R288). -/
def writeSynSet (v : W64) : Prog :=
  .look fun d =>
    let c := d.get SYN_SEL_INDEX
    if d.settable c then all [.act (.counter c v), fireWatches c, complete stOK] else complete stBUSY

/-- SYN_SET written (R288). -/
def execSynSet (v : W64) (s : State) : Host.Outcome State Fault Refusal := s.runUp (writeSynSet v)

/-! ## Windows and barriers -/

/-- Whether a window of a context may stand at a place (R273): inside 16,384–65,535, and clear of every other one. -/
def Dev.windowFits (d : Dev) (n base size : Nat) : Bool :=
  decide (size = 0) ||
    (decide (16384 ≤ base) && decide (base + size ≤ 65536) &&
      ((List.range 61).map (· + 3)).all fun k => decide (k = n) || decide (d.get (SYN_WIN_SIZE k) = 0) ||
        decide (base + size ≤ d.get (SYN_WIN_BASE k)) || decide (d.get (SYN_WIN_BASE k) + d.get (SYN_WIN_SIZE k) ≤ base))

/-- A write of SYN_WINn (R273): the windows of contexts 0 to 2 are fixed. A window's counters start from 0. -/
def writeSynWin (n : Nat) (v : W64) : Prog :=
  .look fun d =>
    let base := (SYN_WIN_BASE n).of v
    let size := (SYN_WIN_SIZE n).of v
    if n < 3 then complete stOK
    else if d.get (MMU_ROOT_VALID n) = 1 then complete stBUSY
    else if !(d.windowFits n base size) then complete stLENGTH
    else all [put (SYN_WIN_BASE n) base, put (SYN_WIN_SIZE n) size, each (List.range size) fun i => .act (.counter (base + i) 0), complete stOK]

/-- SYN_WINn written (R273). -/
def execSynWinWrite (n : BitVec 6) (v : W64) (s : State) : Host.Outcome State Fault Refusal := s.runUp (writeSynWin n.toNat v)

/-- A write of SYN_BARm_A (R281): an entry with no participants is refused. -/
def writeSynBar (m : Nat) (v : W64) : Prog :=
  if (SYN_BAR_A_VALID m).of v = 1 ∧ (SYN_BAR_A_N m).of v = 0 then complete stLENGTH else writePlain (SYN_BAR_A_VALID m).addr v

/-- SYN_BARm_A written (R281). -/
def execSynBarWrite (m : BitVec 10) (v : W64) (s : State) : Host.Outcome State Fault Refusal := s.runUp (writeSynBar m.toNat v)

/-! ## Watches (R280) -/

/-- A write of SYN_WARM: with GO, a watch for the control complex's event queue on a counter of context 0's window. The
status stands in SYN_WRES, and the write completes with it. -/
def writeSynWarm (v : W64) : Prog :=
  .look fun d =>
    let c := SYN_WARM_COUNTER.of v
    let done (st : Nat) : Prog := .seq (put SYN_WRES_STATUS st) (complete st)
    if SYN_WARM_GO.of v = 0 then complete stOK
    else if c < d.get (SYN_WIN_BASE 0) ∨ d.get (SYN_WIN_BASE 0) + d.get (SYN_WIN_SIZE 0) ≤ c then done stFAULT
    else armOther ⟨c, d.word SYN_WV_V.addr, d.get SYN_WDL_DEADLINE, .cc⟩ fun n st => .seq (when (decide (st = stOK)) (put SYN_WRES_WATCH n)) (done st)

/-- SYN_WARM.GO written 1 (R280). -/
def execSynWarmGo (v : W64) (s : State) : Host.Outcome State Fault Refusal := s.runUp (when (decide (SYN_WARM_GO.of v = 1)) (writeSynWarm v))

/-- A watch's deadline passes first (R280, R90, R112). -/
def execWatchTimeout (n : BitVec 12) (s : State) : Host.Outcome State Fault Refusal :=
  s.runEngine (.watchTimeout n) <| .look fun d => match Store.find? d.watches n.toNat with
    | some w => when (decide (w.deadline ≠ 0) && decide (w.deadline ≤ d.podTime)) (all [dropWatch n.toNat, raise SYN_EVT_WATCH_TIMEOUT, watchResult n.toNat w 1])
    | none => .done

/-! ## Transfers and the fence -/

/-- An entry has been idle for XFER_US (R278). -/
def execXferTimeout (s : State) : Host.Outcome State Fault Refusal :=
  s.runEngine .xferTimeout <| .look fun d => closeLost fun e => decide (e.tick + 700 * orElse (d.get SYN_TIMEOUT_XFER_US) 1000 ≤ d.clk)

/-- DRAIN_US after a fence of the JOB window (R279). -/
def execWindowDrainEnd (s : State) : Host.Outcome State Fault Refusal := s.runEngine .windowDrainEnd (.seq windowFinal shoredCounters)

/-! ## Dumps (R286) -/

/-- A requested dump: the whole unit, or the window of a context. -/
def requestDump (whole : Bool) (ctx : Nat) : Prog :=
  .look fun d =>
    if whole then writeDump (dumpREQUESTED + dumpWHOLE) 0 65536 []
    else writeDump dumpREQUESTED (d.get (SYN_WIN_BASE ctx)) (d.get (SYN_WIN_SIZE ctx)) []

/-- A write of SYN_DUMP (Table 10.12). -/
def writeSynDump (v : W64) : Prog :=
  all [writePlain SYN_DUMP_GO.addr v,
    .look fun d => when (decide (SYN_DUMP_GO.of v = 1)) (requestDump (d.on SYN_DUMP_WHOLE) (d.get SYN_DUMP_CTX)), complete stOK]

/-- SYN_DUMP.GO written 1 (R286). -/
def execSynDumpGo (v : W64) (s : State) : Host.Outcome State Fault Refusal := s.runUp (when (decide (SYN_DUMP_GO.of v = 1)) (writeSynDump v))

end Sys2Proof.Machine
end

