-- ==== Sys2Proof/Machine/PeerLink.lean ====
section
/-! DEFINITION. Family: peer sessions and the peer messages that are no notices (R280, R282 to R285, R346, R373, R385). -/

namespace Sys2Proof.Machine

/-- A LAST packet counts the packets of its transfer, at least 1 (R65, Table 10.5). -/
def lastCounted (m : PMsg) : Bool := !(m.last && decide (m.pkts = 0))

/-- Takes a message of an OPEN session that carries a job epoch: the first failed check goes to `refuse`. Session 0 is the partner's
whatever job it serves (R346). -/
def onPeer (m : PMsg) (lenOk fault : Bool) (refuse : Nat → Prog) (k : Prog) : Prog :=
  .look fun d =>
    let n := m.session.toNat
    when (decide ((d.peer n).st = pOPEN)) <| .seq (heard n m.seq) <| if d.quiesced n m.epoch.toNat then bump SYN_COUNT_STALE else
      match pRefusal d 0x10 m.ver m.epoch m.chk m.check m.data (decide (n = 0) || d.isMember (d.peer n).peer) lenOk fault with
      | some st => refuse st
      | none => k

/-- What a failed DATA, SIGNAL or WATCH_FIRE leaves: it is dropped, and one of a stale epoch counted (R285). -/
def dropStale (st : Nat) : Prog := when (decide (st = stEPOCH)) (bump SYN_COUNT_STALE)

/-! ## Watches and signals -/

/-- WATCH_REQ (R280, R285): a watch on a counter of the context-0 window. -/
def execWatchReq (m : PMsg) (s : State) : Host.Outcome State Fault Refusal :=
  s.runUp <|
    let n := m.session.toNat
    let ans (st : Nat) : Prog := pSend n { ty := 0x15, status := st, tag := m.seq.toNat }
    let i := numAt m.data 0 2
    onPeer m (decide (m.data.length = 24) && lastCounted m) (decide (8192 ≤ i) || !(zeroAt m.data 2 6)) ans
      (armOther ⟨8192 + i, BitVec.ofNat 64 (numAt m.data 8 8), numAt m.data 16 8, .session n m.arg.toNat⟩ fun _ st => ans st)

/-- WATCH_FIRE (R280): the result of a watch at the peer, for the control complex. -/
def execWatchFire (m : PMsg) (s : State) : Host.Outcome State Fault Refusal :=
  s.runUp <| onPeer m (decide (m.data.length = 16) && lastCounted m) false dropStale (send .cc Kind.peerWatch [m.session.toNat, m.arg.toNat] m.data)

/-- SIGNAL (R285): it advances a counter of the context-0 window. -/
def execPeerSignal (m : PMsg) (s : State) : Host.Outcome State Fault Refusal :=
  s.runUp <| onPeer m (m.data.isEmpty && lastCounted m) (m.sig && decide (8192 ≤ m.sigIdx.toNat)) dropStale
    (when m.sig (advance (8192 + m.sigIdx.toNat) (m.sigInc.setWidth 64)))

/-! ## DATA -/

/-- DATA (R276, R283, R285): bytes for the buffer that a notice granted, under the epoch of that notice. A packet that would open one
transfer too many waits, and the signal of a transfer until the buffer's bytes are whole and in memory (R274). -/
def execPeerData (m : PMsg) (s : State) : Host.Outcome State Fault Refusal :=
  s.runUp <| .look fun d =>
    let n := m.session.toNat
    let h := m.arg.toNat % 2 ^ 16
    let off := m.arg.toNat / 2 ^ 16
    let o := Origin.session n
    when (decide ((d.peer n).st = pOPEN)) <|
      if !(d.transferRoom o m.tag.toNat) then deferCommand (.peerData m)
      else .seq (heard n m.seq) <|
        let grant (d : Dev) := d.sync.grants.find? fun g => decide (g.session = n) && decide (g.handle = h)
        let epoch := ((grant d).map (·.epoch)).getD d.peerEpoch
        let len := ((grant d).map (·.len)).getD 0
        let st := firstCause [
          (decide (n ≠ 0) && !(d.isMember (d.peer n).peer), stAUTH),
          (decide (m.epoch.toNat ≠ epoch), stEPOCH),
          (d.hubFenced, stFENCED),
          (decide (m.ver ≠ 1), stUNSUPPORTED),
          (decide (m.data.length < 64) || decide (4096 < m.data.length) || !(lastCounted m), stLENGTH),
          ((grant d).isNone || decide (len < off) || (m.sig && decide (8192 ≤ m.sigIdx.toNat)) || (m.chk && decide (crc64 m.data ≠ m.check.toNat)), stFAULT)]
        if d.quiesced n m.epoch.toNat then bump SYN_COUNT_STALE else match st with
        | some st => dropStale st
        | none =>
          let edit (f : Grant → Grant) : Prog := modSync fun s => { s with grants := s.grants.map fun g => if g.session = n ∧ g.handle = h then f g else g }
          all [
            edit fun g => { g with got := g.got.put off (m.data.take (len - off)) },
            packetWritten o m.tag.toNat (if m.last then some (m.pkts.toNat, if m.sig then some (8192 + m.sigIdx.toNat, m.sigInc.toNat) else none) else none)
              fun c inc => edit fun g => { g with signals := g.signals ++ [(c, inc)] },
            .look fun d => match grant d with
              | some g => when (g.got.covers 0 g.len) (.seq (grantDone g) (each g.signals fun x => advance x.1 (BitVec.ofNat 64 x.2)))
              | none => .done]

/-! ## Opening and closing (R282, R284, R385) -/

/-- An answer to an OPEN that no session is made for. -/
def refuseOpen (a far seq st : Nat) : Prog := send (.peer a) Kind.peerMessage [0x15, far, 0, 0, st, 1, 1, seq, 0, 0]

/-- A session is OPEN: on session 0 each side sends PAIR_HELLO (R342); a node that lost its parent may have found an ancestor. -/
def sessionOpened (n : Nat) : Prog := all [countSessions, when (decide (n = 0)) tellPartner, reparent]

/-- OPEN (R282, R340, R346, R381, R385). Where both sides open at once, the OPEN of the lower address stands. -/
def execPeerOpen (m : PMsg) (s : State) : Host.Outcome State Fault Refusal :=
  s.runUp <| .look fun d =>
    let a := numAt m.data 4 4
    let body := m.data.take 1224
    let other := decide (numAt m.data 0 2 ≠ d.get HUB_PART_PARTITION)
    let crossing := (d.sessionTo a).any fun n => decide ((d.peer n).st = pOPENING) && decide (d.ownAddr < a)
    when (d.on RNG_ADDR_ENUM && !crossing) <|
      match firstCause [
          (other || !(Config.kemKeyOk (cut_ m.data 40 1184)) || !(identityOk d (m.data.drop 1224) body), stAUTH),
          (d.hubFenced, stFENCED),
          (decide (m.ver ≠ 1), stUNSUPPORTED),
          (decide (m.data.length ≠ 6700), stLENGTH),
          (decide (a = d.ownAddr) || !(zeroAt m.data 2 2) || (m.chk && decide (crc64 m.data ≠ m.check.toNat)), stFAULT),
          (!d.identityLeft || !(d.on SEC_STAT_WK_READY) || (d.slotFor a).isNone, stBUSY)] with
      | some st => .seq (refuseOpen a m.arg.toNat m.seq.toNat st)
          (when (other && decide (a = d.partnerAddr)) (.seq (put HUB_PAIR_CAUSE 3) (goSolo 3)))
      | none => match d.slotFor a with
        | none => .done
        | some n => withFrees 5 fun f => .look fun d =>
          let kem := Config.kemEncaps (cut_ m.data 40 1184) (f 4).toNat
          let own := pack [(2, d.get HUB_PART_PARTITION), (2, 0), (4, d.ownAddr)] ++ nonceOf f 0 ++ kem.1
          let t0 := digest (m.data ++ own)
          withIdentity t0 fun field => all [
            modPeer n fun _ => sessionKeys d.ownAddr a kem.2 t0
              { st := pOPEN, peer := a, far := m.arg.toNat, port := 0x1F, rcvd := (m.seq.toNat + 1) % 2 ^ 32 },
            pSend n { ty := 0x02, pkts := 2, arg := n, data := own ++ field },
            sessionOpened n]

/-- A session that was being opened is CLOSED with a status (Table 10.4). -/
def openFails (n st : Nat) : Prog :=
  all [modPeer n fun p => { p with st := pCLOSED, openSent := [], reqs := [] }, modSync fun s => { s with openStatus := st }, countSessions]

/-- OPEN_ACK (R385): verified, the session is OPEN. -/
def execPeerOpenAck (m : PMsg) (s : State) : Host.Outcome State Fault Refusal :=
  s.runUp <| .look fun d =>
    let n := m.session.toNat
    let p := d.peer n
    let t0 := digest (p.openSent ++ m.data.take 1128)
    .seq (tally 1444 1) <| when (decide (p.st = pOPENING)) <|
      if m.ver = 1 ∧ m.data.length = 6604 ∧ numAt m.data 0 2 = d.get HUB_PART_PARTITION ∧ numAt m.data 4 4 = p.peer ∧
          !(m.chk && decide (crc64 m.data ≠ m.check.toNat)) ∧ identityOk d (m.data.drop 1128) t0 then
        .seq (modPeer n fun p => sessionKeys d.ownAddr p.peer (Config.kemDecaps p.eph (cut_ m.data 40 1088)) t0
          { p with st := pOPEN, far := m.arg.toNat, openSent := [], rcvd := (m.seq.toNat + 1) % 2 ^ 32 }) (sessionOpened n)
      else openFails n stAUTH

/-- CLOSE (R282, R285): answered, and the session ends; one that fails a check is answered with it. -/
def execPeerClose (m : PMsg) (s : State) : Host.Outcome State Fault Refusal :=
  s.runUp <| .look fun d =>
    let n := m.session.toNat
    let ans (st : Nat) : Prog := pSend n { ty := 0x15, status := st, tag := m.seq.toNat }
    when (decide ((d.peer n).st = pOPEN)) <| .seq (heard n m.seq) <|
      match pRefusal d 0x03 m.ver m.epoch m.chk m.check m.data true (m.data.isEmpty && lastCounted m) false with
      | some st => ans st
      | none => all [ans stOK, modPeer n fun p => { peer := p.peer, port := p.port, sent := p.sent, rcvd := p.rcvd }, countSessions]

/-- KEEPALIVE (R284): the session is live. -/
def execKeepalive (m : PMsg) (s : State) : Host.Outcome State Fault Refusal :=
  s.runUp <| .look fun d => when (decide ((d.peer m.session.toNat).st = pOPEN)) (heard m.session.toNat m.seq)

/-- Nothing has been sent for KA_MS (R284). -/
def execKeepaliveTick (n : BitVec 14) (s : State) : Host.Outcome State Fault Refusal :=
  s.runUp <| .look fun d => when (decide ((d.peer n.toNat).st = pOPEN)) (pSend n.toNat { ty := 0x04, arg := d.podTime })

/-- 100 ms in OPENING (Table 10.4): CLOSED. -/
def execSessionOpenTimeout (n : BitVec 14) (s : State) : Host.Outcome State Fault Refusal :=
  s.runUp <| .look fun d => when (decide ((d.peer n.toNat).st = pOPENING)) (openFails n.toNat stRETRY)

/-! ## RESP -/

/-- Whether an answer to COURSE_QUERY is still awaited on some session. -/
def Dev.queryOut (d : Dev) : Bool := d.peers.any fun e => decide (e.2.st = pOPEN) && e.2.reqs.any fun r => decide (r.code = nCOURSE_QUERY) && decide (r.ty = 0x10)

/-- A new root has every answer it waits for (R93): it goes on. A plan that a member holds and that this member has not seen admitted
is open. -/
def tookAnswers : Prog :=
  .look fun d => when (d.course.taking && !d.queryOut)
    (tookRoot (d.shore.plan.isSome && (!d.shore.admitted || d.shore.plan.any fun p => decide (d.get SHR_REWIND_NUMBER < p.num))))

/-- The newer of two courses with their steps, where there are any. -/
def newerCourse (a b : Option (Nat × Nat)) : Option (Nat × Nat) := match a, b with
  | some x, some y => if x.1 < y.1 then some y else some x
  | none, y => y
  | x, none => x

/-- An answer to COURSE_QUERY at a new root (R93, Table 4.4): the highest course that any member reports, the newest known to be
committed, and the plan of the highest number. -/
def rootLearns (b : List Byte) : Prog :=
  .look fun d =>
    let cur := courseNo (numAt b 0 4)
    let done := courseNo (numAt b 4 4)
    let p := Plan.ofBytes (cut_ b 24 24)
    let newer := decide (p.num ≠ 0) && !(d.shore.plan.any fun q => decide (p.num ≤ q.num))
    all [
      modCourse fun c => { c with highest := (topCourse (some c.highest) (topCourse cur done)).getD 0,
                                  known := topCourse c.known done,
                                  open_ := newerCourse c.open_ ((cur.filter fun k => decide (done ≠ some k) && decide (numAt b 8 8 % 8 ≠ kABANDONED)).map fun k => (k, 0)) },
      when newer (modShore fun s => { s with plan := some p, admitted := false })]

/-- An answer to COURSE_QUERY at a member (R92, R374): the decision on its course in progress, and after an E3 the root where only a
member could name it. A course that the answerer reports IDLE again without having COMMITTED it was abandoned (Table 3.2). -/
def memberLearns (b : List Byte) : Prog :=
  .look fun d =>
    let cur := numAt b 0 4
    let committed := numAt b 4 4
    all [
      when (!d.inCourse && decide (committed ≠ noCourse) && decide (committed = d.get CRS_COURSE_COMMITTED)) (each d.noted fun n => commitNote n committed),
      when (decide (d.get CRS_ROOT_ADDR = 0) && decide (d.epoch ≠ 0)) (.seq (put CRS_ROOT_ADDR (numAt b 16 4)) setTree),
      when d.inCourse (
        if committed ≠ noCourse ∧ d.cur ≤ committed then commitHere
        else if cur ≠ noCourse ∧ (d.cur < cur ∨ (cur = d.cur ∧ (numAt b 8 8 % 8 = kABANDONED ∨ numAt b 8 8 % 8 = kIDLE))) then abandonHere vORDER true
        else .done)]

/-- The member that follows in index order is asked for the root (R374). -/
def askNext (src : Nat) : Prog :=
  .look fun d => match ((d.job.members.dropWhile fun a => decide (a ≠ src)).drop 1).filter fun a => decide (a ≠ d.ownAddr) with
    | a :: _ => notify a nCOURSE_QUERY (leBytes 4 d.cur)
    | [] => .done

/-- A broadcast notice that a child answers FENCED goes to each of that child's own children (R373). -/
def passOver (child code : Nat) (data : List Byte) : Prog :=
  .look fun d => match d.memberOf child with
    | some i =>
      let n := max 1 d.job.members.length
      let t := (i + n - d.rootIndex % n) % n
      each ((List.range 8).filterMap fun k => d.treeAddr (8 * t + 1 + k)) fun a => notify a code data
    | none => .done

/-- The notices that go down the tree (R71, R348). -/
def isBroadcast (code : Nat) : Bool := [nCOURSE_OPEN, nCOURSE_DECIDE, nREWIND_PLAN, nADMIT_ORDER, 0x42, 0x43, 0x45, 0x51].contains code

/-- A restore course's manifest has come for a replacement (R358). -/
def joinerManifest (src st : Nat) (data m : List Byte) : Prog :=
  .look fun d => when (d.start.joining && decide (d.hPhase = hINTAKE) && d.start.manifest.isEmpty) <|
    match d.shore.plan with
    | some p =>
      if st = stOK ∧ d.manifestOk m p.course then takeManifest m p.course p.step
      else if src = d.get HUB_JOIN_OLD then .seq (openTo (d.partnerOf src)) (notify (d.partnerOf src) nMANIFEST_WANT data)
      else sendRewound 2
    | none => .done

/-- A member that has not voted on a course that is COMMITTED rebuilds it from its partner's mirror (R455): manifest and directory are the
mirror's, and the shards that are not whole here are asked for. DEDUCED: a directory entry follows from its manifest entry
(notes/assumptions/190). -/
def rebuildHeld (st : Nat) (m : List Byte) : Prog :=
  .look fun d =>
    let c := d.get CRS_COURSE_COMMITTED
    when (decide (st = stOK) && !d.start.joining && d.manifestOk m c) (all [
      modCourse fun k => { k with held := (k.held.filter fun h => decide (h.course ≠ c)) ++
        [{ course := c, step := numAt m 24 8, ents := manEntries m, cuts := manCuts m, manifest := m }] },
      writePhys (d.manifestAt c) m,
      each (manEntries m) fun e => .look fun d => addDir e (if d.shardWhole e then 3 else 2),
      refreshDir,
      each (manEntries m) fun e => .look fun d => when (!(d.shardWhole e)) (match d.shardSources e with
        | a :: _ => askShard a c e.sha
        | [] => .done)])

/-- One entry of a position that a spare here takes finds its place (R129). -/
def placeCover (course : Nat) (e : MEnt) : Prog :=
  .look fun d => match d.placeIn ddrBase d.tierEnd e.len, d.freeDir with
    | some a, some _ =>
      let x := { e with loc := a, tier := 1 }
      .seq (addDir x 2) (modCourse fun k => { k with held := k.held.map fun h => if h.course = course then { h with ents := h.ents ++ [x] } else h })
    | _, _ => .done

/-- The tray manifest of the declaring member has come (R99, R129): places, the position's record, and its shards asked for. A spare without
room for them cannot take the position. -/
def coverManifest (src st : Nat) (m : List Byte) : Prog :=
  .look fun d => match d.shore.cover, d.shore.plan with
    | some c, some p => when (decide (src = c.member) && !c.bound && decide (d.slotState c.slot = sIDLE) &&
        !(d.restoring.any fun h => h.ents.any fun e => decide (e.pos = c.pos))) <|
      let es := (manEntries m).filter fun e => decide (e.pos = c.pos)
      if st ≠ stOK ∨ !(sealedFor m p.course) then coverFails
      else all [
        modCourse fun k => { k with held := k.held.map fun h => if h.course = p.course then
          { h with cuts := h.cuts ++ (manCuts m).filter fun x => decide (x.pos = c.pos) } else h },
        each es (placeCover p.course),
        .look fun d =>
          let mine := (d.restoring.map fun h => h.ents.filter fun e => decide (e.pos = c.pos)).getD []
          if mine.length = es.length then .seq (each mine fetchShard) loadCover else coverFails]
    | _, _ => .done

/-- What the answer to a notice does at its sender. -/
def noticeAnswered (src code st : Nat) (sent answer : List Byte) : Prog :=
  .look fun d =>
    if code = nCOURSE_QUERY then
      if d.course.taking then .seq (when (decide (st = stOK) && decide (answer.length = 56)) (rootLearns answer)) tookAnswers
      else if st = stOK ∧ answer.length = 56 then memberLearns answer
      else when (decide (d.get CRS_ROOT_ADDR = 0) && decide (d.epoch ≠ 0)) (askNext src)
    else if isBroadcast code then when (decide (st = stFENCED)) (passOver src code sent)
    else if code = 0x25 then .seq (modStart fun x => { x with farSt := some st })
      (if st = stOK then checkLoaded
       else if d.hPhase = hPARSED then refuseAdmission stLENGTH 0
       else when (decide (d.hPhase = hINTAKE) || decide (d.hPhase = hLOADING)) (sendReady st))
    else if code = 0x33 then when (decide (st ≠ stOK)) (nextSource src (sent.drop 8))
    else if code = nMANIFEST_WANT then all [joinerManifest src st sent answer,
      when (decide (numAt sent 4 2 = d.get CRS_ROOT_MEMBER)) (rebuildHeld st answer), coverManifest src st answer]
    else if code = nSHORE_NOTICE then when (decide (st = stBUSY) && d.mode.compat && decide (src = d.spareAddr) && decide (d.get SPR_STAT_STATE = 1))
      (.seq (put SPR_STAT_STATE 2) (put SPR_STAT_POSITION noPos))
    else if code = 0x50 then when (decide (st = stAUTH)) (.seq (put HUB_START_STATUS st) (orderTeardown false true))
    else .done

/-- RESP (R283, R285): the answer to the request whose SEQ is its TAG. A RESP to OPEN with a failure ends the opening. -/
def execPeerResp (m : PMsg) (s : State) : Host.Outcome State Fault Refusal :=
  s.runUp <| .look fun d =>
    let n := m.session.toNat
    let p := d.peer n
    let st := if 9 < m.status.toNat then stFAULT else m.status.toNat
    if p.st = pOPENING then when (decide (st ≠ stOK) && decide (m.ver = 1)) (openFails n st)
    else when (decide (p.st = pOPEN) && decide (m.ver = 1)) <| .seq (heard n m.seq) <|
      when (!(m.chk && decide (m.data.length ≤ 4096) && decide (crc64 m.data ≠ m.check.toNat))) <|
        match p.reqs.find? fun r => decide (r.seq = m.tag.toNat) with
        | none => .done
        | some r => .seq (modPeer n fun p => { p with reqs := p.reqs.filter fun q => decide (q ≠ r) }) (noticeAnswered p.peer r.code st r.data m.data)

/-- Nothing has been received for LOST_MS (R278, R284, R349): LOST, and reopened at once. -/
def execSessionLost (n : BitVec 14) (s : State) : Host.Outcome State Fault Refusal :=
  s.runUp <| .look fun d =>
    let k := n.toNat
    let a := (d.peer k).peer
    when (decide ((d.peer k).st = pOPEN)) (all [
      modPeer k fun p => { p with st := pLOST, reqs := [] },
      raise SYN_EVT_SESS_LOST,
      closeLost fun e => decide (e.origin = .session k),
      modHold fun h => { h with lacking := h.lacking ++ (d.sync.grants.filter fun g => decide (g.session = k) && decide (g.code = nFAR_PUT)).map fun g =>
        (numAt g.notice 4 4, numAt g.notice 0 4, numAt g.notice 20 4) },
      modSync fun s => { s with grants := s.grants.filter fun g => decide (g.session ≠ k) },
      tookAnswers,
      openSession k a,
      when (decide (d.parent = some a)) orphan])

end Sys2Proof.Machine
end

