-- ==== Sys2Proof/Machine/Halt.lean ====
section
/-! DEFINITION. The global halt: how it begins and ends (R409, R410, Table 16.4). -/

namespace Sys2Proof.Machine

/-- A global halt is in force. -/
def Dev.halted (d : Dev) : Bool := d.on TAL_HALT_HALTED

/-- One of the four holds stands. -/
def Dev.held (d : Dev) : Bool := d.on TAL_HALT_CMD || d.on TAL_HALT_PIN || d.on TAL_HALT_JTAG || d.on TAL_HALT_TRIG

/-- The HALT record (Table 16.8). -/
def haltRecord (sub len : Nat) : Prog :=
  .look fun d => record 0x0E sub (leBytes 8 (d.word TAL_HALT_HALTED.addr).toNat ++ leBytes 8 len)

/-- The slots' HALT_N lines. -/
def haltLines (low : Bool) : Prog := each (List.range 8) fun n => .seq (put (LNK_SB_HALT n) low.toNat) (send .land Kind.haltN [n, (!low).toNat])

/-- The first hold of a global halt: running tiles freeze, and the slots' HALT_N go low. -/
def haltBegins : Prog :=
  .look fun d => all [
    put TAL_HALT_HALTED 1, put TAL_HALT_WHEN d.podTime,
    modObs fun o => { o with haltStart := d.podTime },
    each (List.range 256) fun n => when (decide ((d.tile n).state = tRUNNING)) (modTile n fun t => t.set TLE_STAT_STATE tHALTED),
    haltLines true, raise TAL_EVT_HALTED, haltRecord 1 0]

/-- A global halt ends: HALT_N rise, and this member's heartbeat deadlines restart from their full value. -/
def haltOver : Prog :=
  .look fun d => all [
    put TAL_HALT_HALTED 0,
    haltLines false,
    modShore fun x => { x with deadlines := x.deadlines.map fun e => (e.1, d.clk + 770000) },
    modObs fun o => { o with flagHalt := true },
    raise TAL_EVT_RELEASED, haltRecord 0 (d.podTime - d.obs.haltStart)]

/-- The last hold ends: frozen tiles go on where they stopped. -/
def haltEnds : Prog :=
  .seq haltOver (.look fun d =>
    each (List.range 256) fun n => when (decide ((d.tile n).state = tHALTED)) (.seq (modTile n fun t => t.set TLE_STAT_STATE tRUNNING) (tilePump n)))

/-- A hold that stands halts a running Ozmund at once (R411). -/
def haltIfHeld : Prog := .look fun d => when (d.held && !d.halted && decide (d.mode.fw = .run) && decide (d.mode.role ≠ .banked)) haltBegins

end Sys2Proof.Machine
end

