-- ==== Sys2Proof/Machine/Roles.lean ====
section
/-! DEFINITION. Family: role transitions (R22 to R26, R375, R376, R426). -/

namespace Sys2Proof.Machine

/-! ## QUARANTINE (R26) -/

/-- LOST_REPORT about this Ozmund itself, to its partner and its job's course root (R365). -/
def reportSelf (cause : Nat) : Prog :=
  .look fun d =>
    let b := pack [(4, d.ownAddr), (4, d.epoch), (1, cause), (3, 0)]
    .seq (when (decide (d.mode.partner ≠ .solo)) (toPartner nLOST_REPORT b))
      (when (decide (d.epoch ≠ 0) && decide (d.get CRS_ROOT_ADDR ≠ d.partnerAddr) && !d.isRoot) (toRoot nLOST_REPORT b))

/-- LOST_REPORT about this Ozmund, out of service, to the Ozmunds of its job and to its partner (R26). -/
def reportOut : Prog :=
  .look fun d =>
    let b := pack [(4, d.ownAddr), (4, d.epoch), (1, lostLOST), (3, 0)]
    each (((if d.mode.partner = .solo then [] else [d.partnerAddr]) ++ if d.epoch = 0 then [] else d.job.members).eraseDups.filter
      fun a => decide (a ≠ d.ownAddr)) fun a => notify a nLOST_REPORT b

/-- Every tile and channel that works is told to stop. -/
def stopEngines : Prog :=
  .seq (each (List.range 256) stopTile) (each (List.range 64) fun n => .look fun d => when (d.on (DMA_CTRL_EN n)) (put (DMA_CTRL_STOP n) 1))

/-- The Ozmund enters QUARANTINE (R26): courses stop, its engines are fenced, a shored position is covered beyond the tray, the job's
Ozmunds and the hosts are told, and a dump is written (R286). During a transition it waits (R24). DESIGN CHOICE: HUB_SLOTn keeps the states and
positions of the job's slots, until MEMBER_MAP has them released (notes/assumptions/205). -/
def quarantine (cause : Nat) : Prog :=
  .look fun d =>
    if d.mode.role = .quarantine then .done
    else if d.mode.transit.isSome then modMode fun m => { m with waiting := m.waiting ++ [.quarantine cause] }
    else all [
      abandonHere vORDER true,
      positionLost,
      reportOut,
      put CRS_CTRL_EN 0, put SHR_CTRL_EN 0,
      stopEngines, discardGuests,
      dropPackage, modStart fun x => { x with former := if d.epoch = 0 then none else some (d.epoch, d.get CRS_ROOT_MEMBER) }, setPhase hNONE,
      put HUB_ROLE_JOB_EPOCH 0, put HUB_ROLE_SHORE_SLOT 0,
      modMode fun m => { m with covering := false },
      put HUB_POST_QCLEAR 0,
      enterRole .quarantine false cause,
      writeDump (dumpQUARANTINE + dumpWHOLE) 0 65536 []]

/-! ## BANKED (R375, R376, R426) -/

/-- Whether the Ozmund holds state of its partner's job (R426). -/
def Dev.holdsPartner (d : Dev) : Bool :=
  (decide (d.mode.partner ≠ .solo) && decide (d.get HUB_PAIR_PEPOCH ≠ 0)) || !d.hold.far.isEmpty || !d.hold.mirrors.isEmpty || d.hold.decision.isSome ||
    !d.hold.z.isEmpty || decide (d.hold.reserve ≠ 0)

/-- Whether BANKED may be entered (Table 1.4, R411, R426). -/
def Dev.mayBank (d : Dev) : Bool :=
  (decide (d.mode.role = .service) || decide (d.mode.role = .guest)) && decide (d.mode.fw = .run) && decide (d.epoch = 0) && decide (d.start.epoch = 0) &&
    ((List.range 8).all fun n => !([sLIVE, sSHORED, sREINT].contains (d.slotState n))) && !d.halted && !d.holdsPartner

/-- Every guest tile and channel has stopped: images are saved, and the Ozmund sleeps. -/
def bankWhenStill : Prog :=
  .look fun d =>
    let running := (List.range 256).any fun n => decide ((d.tile n).state = tRUNNING) || decide ((d.tile n).state = tHALTED)
    when (decide (d.mode.transit = some .banked) && !running && !((List.range 64).any fun n => d.on (DMA_CTRL_EN n))) (all [
      each d.guestTiles saveTile,
      modMode fun m => { m with bankedFrom := m.role, bankedGuest := m.guestOn, transit := none },
      enterRole .banked false])

/-- BANKED is asked for: guest tiles and channels are told to stop. -/
def enterBanked : Prog :=
  .look fun d => all [
    modMode fun m => { m with transit := some .banked, bankedTiles := d.guestTiles.filter fun n => decide ((d.tile n).state = tRUNNING) },
    stopEngines, bankWhenStill]

/-- The wake from BANKED begins (Table 14.9). -/
def wake : Prog := .look fun d => when (decide (d.mode.role = .banked) && d.mode.transit.isNone) (modMode fun m => { m with transit := some m.bankedFrom })

/-! ## MODE (R23, Table 1.4) -/

/-- A MODE command's request: the status that answers it. A stack that failed training keeps the Ozmund in SERVICE (R235). -/
def requestRole (code : Nat) (k : Nat → Prog) : Prog :=
  .look fun d =>
    match Role.ofCode code with
    | none => k stBUSY
    | some r =>
      let run := decide (d.mode.fw = .run)
      if d.mode.role = .service ∧ d.get MEM_HBM_STAT_UP ≠ 2 ^ 32 - 1 then k stBUSY
      else if d.mode.role = .service ∧ r = .guest ∧ run then .seq (enterRole .guest true) (k stOK)
      else if d.mode.role = .guest ∧ r = .service ∧ run then all [discardGuests, enterRole .service false, k stOK]
      else if r = .banked ∧ d.mayBank then .seq enterBanked (k stOK)
      else if d.mode.role = .banked ∧ r = d.mode.bankedFrom then .seq wake (k stOK)
      else if d.mode.role = .quarantine ∧ r = .service ∧ d.on HUB_POST_QCLEAR then .seq (enterRole .service false) (k stOK)
      else k stBUSY

/-- A trigger that waited is taken when the transition has ended (R24): QUARANTINE, then SHORE, then a host's command, which runs as it
would now while its session stands; one whose session has ended meanwhile is not running, and goes with it (notes/assumptions/225). -/
def execRoleTriggerDequeue (s : State) : Host.Outcome State Fault Refusal :=
  s.runUp <| .look fun d =>
    let ts := d.mode.waiting
    let fault := ts.find? fun t => match t with | .quarantine _ => true | _ => false
    let shore := ts.find? fun t => match t with | .shore _ => true | _ => false
    when d.mode.transit.isNone <| match fault <|> shore <|> ts.head? with
      | none => .done
      | some t => .seq (modMode fun m => { m with waiting := m.waiting.erase t }) (match t with
        | .quarantine c => quarantine c
        | .shore n => .look fun d =>
          if d.mayShore n && d.shore.slot.isNone then .seq (startShoring n) (when (!(d.shore.fencing.contains n)) (takeOver n)) else coverSlot n (d.get SHR_STAT_CAUSE)
        | .host c sess => .look fun d => when (decide (d.hNumber (sess % 16) = sess)) (deferCommand c))

end Sys2Proof.Machine
end

