-- ==== Sys2Proof/Machine/ResetUnit.lean ====
section
/-! DEFINITION. Family: resets, their fences, the escalation ladder and the watchdogs (R362 to R372). -/

namespace Sys2Proof.Machine

/-! ## Units -/

def uCourse : Nat := 0x80
def uWitness : Nat := 0x81
def uShore : Nat := 0x82
def uXcnCtl : Nat := 0x83
def uDie (d : Nat) : Nat := 0x90 + d
def isCtx (u : Nat) : Bool := decide (1 ≤ u) && decide (u < 0x40)
def isChan (u : Nat) : Bool := decide (0x40 ≤ u) && decide (u < 0x80)
def isDie (u : Nat) : Bool := decide (0x90 ≤ u) && decide (u < 0x94)
def isSlot (u : Nat) : Bool := decide (0xA0 ≤ u) && decide (u < 0xA8)

/-- The tiles of a context and the dies that hold them. -/
def Dev.tilesOf (d : Dev) (x : Nat) : List Nat := (List.range 256).filter fun t => decide ((d.tile t).owner ≠ oNONE) && decide (d.tctx t = x)
def Dev.diesOf (d : Dev) (x : Nat) : List Nat := ((d.tilesOf x).map (· / 64)).eraseDups
def dieTiles (k : Nat) : List Nat := (List.range 64).map (· + 64 * k)
/-- The channels that serve a descriptor of a context. -/
def Dev.chansOf (d : Dev) (x : Nat) : List Nat :=
  (List.range 64).filter fun n => (d.chan n).started && (decide ((d.desc (.chan n)).sctx = x) || decide ((d.desc (.chan n)).dctx = x))

/-- Whether a reset in progress absorbs another one (R369). -/
def Reset.absorbs (a b : Reset) : Bool :=
  (decide (a.unit = uCHIP) && !(isSlot b.unit) && decide (b.unit ≠ uXCN) && decide (b.unit ≠ uTRAY)) ||
    (decide (a.unit = uTRAY) && (isSlot b.unit || decide (b.unit = uXCN))) || (decide (a.unit = b.unit) && decide (b.rung ≤ a.rung))

/-- A unit returns: GO is cleared where it was ordered there. -/
def endReset (r : Reset) : Prog :=
  .seq (modRst fun x => { x with active := x.active.filter fun a => decide (a ≠ r) })
    (.look fun d => .seq (put RST_STAT_ACTIVE (!d.rst.active.isEmpty).toNat)
      (when (!((d.rst.active ++ d.rst.waiting).any fun a => decide (a.cause = rcCOMMAND))) (put RST_CTRL_GO 0)))

/-! ## Tiles -/

/-- A tile returns to its power-on state, its store zeroed (R362); its divider is the clock's, and a retired tile stays retired. -/
def clearTile (n : Nat) : Prog :=
  .look fun d =>
    let t : Tile := ({} : Tile).set TLE_STAT_DIV (d.get CLK_STAT_DIV)
    all [withdrawTile n, .act (.memClear (tileByte n 0) tileStoreSize),
      .act (.tile n (if (d.tile n).state = tRETIRED then t.set TLE_STAT_STATE tRETIRED else t)), put (tctxFld n) 0]

/-- Records that no witness tile is left to compare are counted DROPPED (R363). -/
def dropRecords : Prog := .look fun d => .seq (bump WIT_COUNT1_DROPPED d.wit.queue.length) (.seq (modWit fun w => { w with queue := [], expected := [] }) countQueue)

/-! ## E3 (R365) -/

/-- Reset is asserted, after the dump and the record: what an E3 leaves (Table 14.8). The chip boots, or waits for REFCLK (R439). -/
def assertE3 : Prog :=
  .look fun d => when (decide (d.rst.fencing ≠ 0)) <|
    let r := (d.rst.active.find? fun a => decide (a.unit = uCHIP)).getD ⟨uCHIP, 3, 0, false⟩
    let when_ := d.get RST_TIME_TIME
    let fenceOver := d.get RST_STAT_FENCE_OVER
    let dropped := d.wit.queue.length
    let lost := decide (d.mode.role = .shore)
    all [
      writeDump (dumpFINAL + dumpCHIP + dumpWHOLE) 0 65536 [],
      when d.halted haltOver,
      countReset r, put RST_TIME_TIME when_, put RST_STAT_FENCE_OVER fenceOver, put RST_STAT_ACTIVE 0,
      each (List.range 256) fun n => .act (.memClear (tileByte n 0) tileStoreSize),
      .act .chipReset,
      each (List.range 256) fun n => when (decide (d.get CLK_STAT_DIV ≠ 4)) (modTile n fun t => t.set TLE_STAT_DIV (d.get CLK_STAT_DIV)),
      each (List.range 8) fun n => modSlot n fun x => { x with reqs := [] },
      each d.peers fun e => modPeer e.1 fun p => { p with reqs := [] },
      countSessions, countOpen, countWatches, countHomes,
      put CRS_CTRL_EARLY_EN 0, put CRS_CTRL_CARRY_EN 0, put CRS_CTRL_OPEN 0, put CRS_CTRL_ABANDON 0,
      when lost (put HUB_ROLE_SHORE_SLOT 0),
      put WIT_COUNT1_DROPPED dropped,
      put SEC_STAT_PENDING 0, put SEC_STAT_PROLE 0, put SEC_STAT_REMAIN_S 0,
      put HUB_POST_GO 0,
      put TAL_HALT_HALTED 0, put TAL_HALT_CMD 0, put TAL_HALT_JTAG 0, put TAL_HALT_TRIG 0]

/-- The fence has done all its steps once every channel has stopped. -/
def e3Fenced : Prog := .look fun d => when (decide (d.rst.fencing ≠ 0) && (List.range 64).all fun n => !(d.on (DMA_CTRL_EN n))) assertE3

/-- An E3 begins (R365, Table 14.6): the hub answers FENCED from here on, the root and the partner are told, a shored position is lost, tiles
halt and channels stop. -/
def beginE3 (r : Reset) : Prog :=
  .look fun d => all [
    modRst fun x => { x with active := [r], waiting := [], fencing := 1 },
    put RST_STAT_ACTIVE 1, put RST_STAT_FENCE_OVER 0, put RST_TIME_TIME d.podTime,
    reportSelf 2,
    positionLost,
    when (d.inCourse && !d.voted) (abandonHere vRESET false),
    each (List.range 256) fun n => when (decide ((d.tile n).state = tRUNNING)) (modTile n fun t => t.set TLE_STAT_STATE tHALTED),
    each (List.range 64) fun n => when (d.on (DMA_CTRL_EN n)) (put (DMA_CTRL_STOP n) 1),
    discardGuests,
    e3Fenced]

/-! ## E0 and E1 (R362, R363, Table 14.2) -/

/-- An E0 of a context takes place: its tiles are cleared, its channels' rings emptied, its window zeroed and its program discarded. -/
def finishE0 (r : Reset) : Prog :=
  .look fun d =>
    let x := r.unit
    all [
      each (d.tilesOf x) fun n => .look fun e => .seq (clearTile n) (when (decide ((e.tile n).owner = oWITNESS)) (ownTile n oWITNESS 2)),
      each (d.chansOf x) fun n => all [put (DMA_CTRL_STOP n) 1, stopChannel n, put (DMA_PTR_HEAD n) (d.get (DMA_PTR_TAIL n)), modChan n fun _ => {}],
      each (List.range (d.get (SYN_WIN_SIZE x))) fun i => .act (.counter (d.get (SYN_WIN_BASE x) + i) 0),
      modMmu fun m => { m with faults := m.faults.filter fun f => decide (f.ctx ≠ x) },
      when (decide (x = 3)) (modMmu fun m => { m with service := [] }),
      if 4 ≤ x then .seq (discardGuest x) (freeGuest x) else modMmu fun m => { m with programs := m.programs.filter fun p => decide (p.ctx ≠ x) },
      when (decide (x = 1)) (.seq (modMmu fun m => { m with jobPages := [] }) (modAgent localAgent fun _ => {})),
      endReset r]

/-- A slot is fenced and reloaded in place (R370): the root is told, and the rewind does it. -/
def slotInPlace (n : Nat) (r : Reset) : Prog :=
  .look fun d => .seq
    (when (d.live.contains n) (all [
      modShore fun s => { s with inPlace := Store.insert s.inPlace n false },
      when (!(bitOf (d.get CRS_STAT_DONE) n) && !d.voted) (abandonHere vFENCE true),
      fenceSlot n,
      shoreNotice (d.slotPos n) n 5]))
    (endReset r)

/-- An E1 takes place (Table 14.2). -/
def finishE1 (r : Reset) : Prog :=
  .look fun d =>
    let u := r.unit
    all [
      if isChan u then all [put (DMA_CTRL_STOP (u - 0x40)) 1, stopChannel (u - 0x40), put (DMA_CTRL_EN (u - 0x40)) 0]
      else if u = uCourse then when (d.inCourse && !d.voted) (abandonHere vRESET true)
      else if u = uXcnCtl then .seq (match d.xcn.op with | some op => xcnError op | none => .done) (spiFrame (pack [(1, 0x02), (1, 0)]))
      else .done,
      endReset r]

/-- Whether requests of a unit under an E0 or E1 fence are outstanding (R364). -/
def Dev.outstanding (d : Dev) (r : Reset) : Bool :=
  if r.rung = 0 then (d.tilesOf r.unit).any (fun n => decide ((d.tile n).state = tRUNNING)) || (d.chansOf r.unit).any fun n => d.on (DMA_CTRL_EN n)
  else isChan r.unit && d.on (DMA_CTRL_EN (r.unit - 0x40)) && (d.chan (r.unit - 0x40)).started

/-- The fence of an E0 or E1 is over. -/
def finishLow (r : Reset) : Prog := if r.rung = 0 then finishE0 r else finishE1 r

/-- What a stop that ends may release: an E3, an E0 or E1, and the sleep of BANKED. -/
def stopsEnded : Prog :=
  .look fun d => all [
    each (d.rst.active.filter fun r => decide (r.rung ≤ 1) && !(isSlot r.unit)) fun r => .look fun d => when (!(d.outstanding r)) (finishLow r),
    e3Fenced, bankWhenStill]

/-- The fence of an E0 or E1 begins: the unit's tiles and channels are told to stop. -/
def beginLow (r : Reset) : Prog :=
  .look fun d => all [
    countReset r,
    when (decide (r.unit = 1) && decide (r.rung = 0)) positionLost,
    if isSlot r.unit then slotInPlace (r.unit - 0xA0) r
    else all [
      when (decide (r.rung = 0)) (.seq (each (d.tilesOf r.unit) stopTile) (each (d.chansOf r.unit) fun n => put (DMA_CTRL_STOP n) 1)),
      when (isChan r.unit && d.on (DMA_CTRL_EN (r.unit - 0x40))) (put (DMA_CTRL_STOP (r.unit - 0x40)) 1),
      .look fun e => when (!(e.outstanding r) || decide (e.get RST_CFG_DRAIN_US = 0)) (finishLow r)]]

/-! ## E2 and E4 (R362, R363, R370, R371) -/

/-- An E2 of a die: its tiles halt and return to their power-on state. -/
def dieReset (r : Reset) : Prog :=
  .look fun d =>
    let ts := dieTiles (r.unit - 0x90)
    let gone := d.witnessTiles.all fun n => ts.contains n
    all [
      countReset r,
      when (ts.any fun n => decide ((d.tile n).owner = oJOB)) positionLost,
      each ts clearTile,
      modMmu fun m => { m with programs := m.programs.map fun p => { p with tiles := p.tiles.filter fun n => !(ts.contains n), twins := p.twins.filter fun n => !(ts.contains n) } },
      when gone dropRecords,
      settleWitness,
      endReset r]

/-- A slot's power-enable. -/
def slotPower (n : Nat) (on : Bool) : Prog :=
  .look fun d =>
    let clear := d.get RST_PWR_EN / 2 ^ (n + 1) * 2 ^ (n + 1) + d.get RST_PWR_EN % 2 ^ n
    when (!on || !(d.rst.out.contains (uSlot n))) (.seq (put RST_PWR_EN (clear + if on then 2 ^ n else 0)) (send .land Kind.slotPower [n, on.toNat]))
def xcnPower (on : Bool) : Prog := .seq (put XCN_CTRL_PWR_EN on.toNat) (send .land Kind.xcnPower [on.toNat])

/-- The slots and the crossconnect that an E4 cycles. -/
def e4Slots (u : Nat) : List Nat := if isSlot u then [u - 0xA0] else if u = uTRAY then List.range 8 else []

/-- An E2 of a slot without a position: SLOT_RESET_N is driven low and released. -/
def resetSlot (n : Nat) (r : Reset) : Prog :=
  all [countReset r, fenceSlot n, driveReset n true, modSlot n fun x => { x with reqs := [], keys := [], noted := noCourse, bound := 0 }, driveReset n false, endReset r]

/-- An E4 begins: the power-enables are held low for 200 ms. -/
def beginE4 (r : Reset) : Prog :=
  all [countReset r, each (e4Slots r.unit) fenceSlot, each (e4Slots r.unit) (slotPower · false), when (!(isSlot r.unit)) (xcnPower false)]

/-- Whether R371 allows an E4. -/
def Dev.e4Ok (d : Dev) (u : Nat) : Bool :=
  if isSlot u then decide (d.slotPos (u - 0xA0) = noPos)
  else (List.range 8).all (fun n => decide (d.slotPos n = noPos)) && !(d.on XCN_DETOUR_ACTIVE)

/-! ## Ordering a reset -/

/-- A reset at a rung that has been settled is taken (R369, R376, R411): absorbed by one in progress, waiting for the end of a global halt
or of BANKED, or begun. -/
def orderReset (r : Reset) : Prog :=
  .look fun d =>
    if d.rst.active.any fun a => a.absorbs r then .done
    else if (d.halted ∧ r.rung ≠ 3) ∨ d.mode.role = .banked then .seq (modRst fun x => { x with waiting := x.waiting ++ [r] }) wake
    else .seq
      (.seq (modRst fun x => { x with active := (x.active.filter fun a => !(r.absorbs a)) ++ [r], waiting := x.waiting.filter fun a => !(r.absorbs a) })
        (.seq (put RST_STAT_ACTIVE 1) (put RST_TIME_TIME d.podTime)))
      (if r.rung ≤ 1 then beginLow r
       else if r.rung = 3 then beginE3 r
       else if r.rung = 4 then beginE4 r
       else if isDie r.unit then dieReset r
       else if isSlot r.unit then resetSlot (r.unit - 0xA0) r
       else endReset r)

/-- The ladder of a unit from a rung on: the resets that each rung takes (Table 14.4). -/
def Dev.ladder (d : Dev) (u k : Nat) : List (List (Nat × Nat)) :=
  let dies := (d.diesOf u).map fun x => (uDie x, 2)
  let all_ : List (List (Nat × Nat)) :=
    if isCtx u then [[(u, 0)], if dies.isEmpty then [(uCHIP, 3)] else dies, [(uCHIP, 3)]]
    else if isDie u then [[(u, 2)], [(uCHIP, 3)]]
    else if u = uCHIP then [[(uCHIP, 3)]]
    else [[(u, 1)], [(uCHIP, 3)]]
  all_.filter fun l => l.all fun e => decide (k ≤ e.2)

/-- An event calls for rung k on a unit of the Ozmund (R368): the lowest rung not at its limit is taken, and beyond the top the Ozmund goes
to QUARANTINE. -/
def eventReset (u k cause : Nat) : Prog :=
  .look fun d =>
    let l := d.ladder u k
    match l.find? fun s => !(s.any fun e => d.atLimit e.1 e.2) with
    | some s => each s fun e => orderReset ⟨e.1, e.2, cause, decide (e.2 ≠ k)⟩
    | none => quarantine 1

/-- A watchdog fires (R367). -/
def watchdog (u k cause : Nat) : Prog := .seq (raise RST_EVT_WATCHDOG) (eventReset u k cause)

/-! ## Register writes -/

/-- An order of RST_CTRL (R368, R370, R371, Table 14.10): the status with which it completes. -/
def orderByCommand (u k : Nat) : Prog :=
  .look fun d =>
    let rungs := if isSlot u ∧ !(d.on SEC_POLICY_SLOT_E4) then [0, 2] else rungsOf u
    if !(rungs.contains k) then complete stFAULT
    else if u = uTRAY ∧ !(d.on SEC_POLICY_TRAY_E4) then complete stAUTH
    else if k = 4 ∧ !(d.e4Ok u) then complete stBUSY
    else .seq (.seq (put RST_CTRL_UNIT u) (.seq (put RST_CTRL_RUNG k) (put RST_CTRL_GO 1)))
      (.seq (if isCtx u ∧ k = 2 then (if (d.diesOf u).isEmpty then orderReset ⟨uCHIP, 3, rcCOMMAND, false⟩ else each (d.diesOf u) fun x => orderReset ⟨uDie x, 2, rcCOMMAND, false⟩)
        else if k = 3 then orderReset ⟨uCHIP, 3, rcCOMMAND, false⟩
        else if u = uShore ∧ k = 1 ∧ !(d.slotsIn sSHORED ++ d.slotsIn sREINT).isEmpty then orderReset ⟨1, 0, rcCOMMAND, false⟩
        else if isSlot u ∧ k = 2 ∧ d.slotPos (u - 0xA0) ≠ noPos then .seq (declareNow (u - 0xA0) 6) (put RST_CTRL_GO 0)
        else orderReset ⟨u, k, rcCOMMAND, false⟩) (complete stOK))

/-- A write of RST_CTRL. -/
def writeRstCtrl (v : W64) : Prog :=
  if RST_CTRL_GO.of v = 1 then orderByCommand (RST_CTRL_UNIT.of v) (RST_CTRL_RUNG.of v)
  else all [put RST_CTRL_UNIT (RST_CTRL_UNIT.of v), put RST_CTRL_RUNG (RST_CTRL_RUNG.of v), complete stOK]

/-- RST_CTRL.GO written 1 (R368). -/
def execRstCtrlGo (v : W64) (s : State) : Host.Outcome State Fault Refusal := s.runUp (when (decide (RST_CTRL_GO.of v = 1)) (writeRstCtrl v))

/-- A write of RST_PWR (R371): the power-enables. -/
def writeRstPwr (v : W64) : Prog :=
  .look fun d =>
    let e := RST_PWR_EN.of v
    if (List.range 8).any fun n => bitOf (d.get RST_PWR_EN) n && !(bitOf e n) && decide (d.slotPos n ≠ noPos) then complete stBUSY
    else .seq (each ((List.range 8).filter fun n => bitOf (d.get RST_PWR_EN) n != bitOf e n) fun n => slotPower n (bitOf e n)) (complete stOK)

/-- RST_PWR written (R371). -/
def execRstPwrWrite (v : W64) (s : State) : Host.Outcome State Fault Refusal := s.runUp (writeRstPwr v)

/-- A unit's reset counts are cleared, and it is back in service. -/
def forgive (u : Nat) : Prog := modRst fun x => { x with out := x.out.filter fun a => decide (a ≠ u), counts := x.counts.filter fun c => decide (c.1 ≠ u) }

/-- A write of RST_QCLR (R370, R371): slots come back to ABSENT, the crossconnect to service. -/
def writeRstQclr (v : W64) : Prog :=
  .look fun d =>
    let ns := (List.range 8).filter fun n => bitOf (RST_QCLR_SLOT.of v) n && d.rst.out.contains (uSlot n)
    let x := decide (RST_QCLR_XCN.of v = 1) && d.rst.out.contains uXCN
    if (ns.any fun n => decide (d.slotPos n ≠ noPos)) ∨ (x ∧ !(d.e4Ok uXCN)) then complete stBUSY
    else all [each ns fun n => .seq (forgive (uSlot n)) (setSlot n sABSENT), when x (.seq (forgive uXCN) (put XCN_STAT_ERR 0)), complete stOK]

/-- RST_QCLR.SLOT written (R370). -/
def execRstQclrSlot (v : W64) (s : State) : Host.Outcome State Fault Refusal := s.runUp (when (decide (RST_QCLR_SLOT.of v ≠ 0)) (writeRstQclr v))

/-- RST_QCLR.XCN written (R371). -/
def execRstQclrXcn (v : W64) (s : State) : Host.Outcome State Fault Refusal := s.runUp (when (decide (RST_QCLR_XCN.of v = 1)) (writeRstQclr v))

/-- RST_KICK written (R367): the cores named are alive; the register holds nothing. -/
def execRstKick (v : W64) (s : State) : Host.Outcome State Fault Refusal := s.runUp (when (decide (RST_KICK_CORE.of v < 256)) (complete stOK))

/-! ## Timers -/

/-- FENCE_MS passes before the fence of an E3 is over (R365). -/
def execE3FenceTimeout (s : State) : Host.Outcome State Fault Refusal :=
  s.runUp <| .look fun d => when (decide (d.rst.fencing ≠ 0)) (.seq (put RST_STAT_FENCE_OVER 1) assertE3)

/-- DRAIN_US passes in the fence of an E0 or E1 (R364): what is outstanding is answered FENCED, and the reset takes place. -/
def execResetDrainTimeout (unit : Byte) (s : State) : Host.Outcome State Fault Refusal :=
  s.runUp <| .look fun d => match d.rst.active.find? fun r => decide (r.unit = unit.toNat) && decide (r.rung ≤ 1) with
    | some r => finishLow r
    | none => .done

/-- 200 ms after an E4 took power away (R362, R370): it is given back. -/
def execE4PowerHoldEnd (unit : Byte) (s : State) : Host.Outcome State Fault Refusal :=
  s.runUp <| .look fun d =>
    let u := unit.toNat
    let cycled := (e4Slots u).filter d.rst.cycle.contains
    match d.rst.active.find? fun r => decide (r.unit = u) && decide (r.rung = 4) with
    | some r => all [each (e4Slots u) (slotPower · true), when (!(isSlot u)) (xcnPower true), endReset r]
    | none => each cycled fun n => when (d.shore.handback.any fun h => decide (h.slot = n)) (.seq (slotPower n true) (modRst fun x => { x with cycle := x.cycle.filter fun m => decide (m ≠ n) }))

/-! ## Watchdogs (Table 14.3) -/

/-- Whether some queue of a tile is neither empty nor held in an SY wait (R367). -/
def Tile.busyQueue (t : Tile) : Bool :=
  let waits (e : QEntry) : Bool := (decide (e.op = .wait) || decide (e.op = .rwait)) && e.mark
  [t.mx, t.vx, t.rd, t.mv].any fun q => !(q.head?.all waits)

/-- A running tile completes nothing for TILE_MS. -/
def execTileWatchdog (t : TileId) (s : State) : Host.Outcome State Fault Refusal :=
  s.runUp <| .look fun d => when (!d.halted && decide ((d.tile t.val).state = tRUNNING) && decide (d.get RST_WDOG_TILE_MS ≠ 0) && (d.tile t.val).busyQueue && isCtx (d.tctx t.val))
    (watchdog (d.tctx t.val) 0 rcTILE)

/-- A tile told to stop is not STOPPED after STOP_US. -/
def execStopWatchdog (t : TileId) (s : State) : Host.Outcome State Fault Refusal :=
  s.runUp <| .look fun d => when (!d.halted && (d.tile t.val).on TLE_CTRL_STOP && decide ((d.tile t.val).state = tRUNNING)) (watchdog (uDie (t.val / 64)) 2 rcSTOP)

/-- A busy channel makes no progress for DMA_MS. -/
def execDmaWatchdog (n : ChanId) (s : State) : Host.Outcome State Fault Refusal :=
  s.runUp <| .look fun d => when (!d.halted && d.on (DMA_STAT_BUSY n.val) && !(d.chan n.val).held) (watchdog (0x40 + n.val) 1 rcDMA)

/-- A queued fault of a guest or service context stands for FAULT_MS. -/
def execFaultWatchdog (r : Requester) (s : State) : Host.Outcome State Fault Refusal :=
  s.runUp <| .look fun d => match d.mmu.faults.find? fun f => decide (f.req = r) with
    | some f => when (!d.halted && decide (3 ≤ f.ctx) && decide (d.get RST_WDOG_FAULT_MS ≠ 0)) (watchdog f.ctx 0 rcFAULT)
    | none => .done

/-- A core of the control complex does not kick for CC_MS: an E3, which needs no firmware. -/
def execCcWatchdog (core : Fin 8) (s : State) : Host.Outcome State Fault Refusal :=
  s.runUp <| .look fun d => when (decide (d.mode.fw = .run) && decide (core.val < 8)) (watchdog uCHIP 3 rcCC)

/-! ## Stops that end -/

/-- The channel's fragments in flight are delivered: STOPPED is set and EN cleared (R263); guest reclaim goes on (R266). -/
def execDmaStopDone (n : ChanId) (s : State) : Host.Outcome State Fault Refusal :=
  s.runUp (all [stopChannel n.val, frozen, stopsEnded])

/-- A guest tile that the thermal manager stopped is saved (R449). -/
def saveCritical (n : Nat) : Prog :=
  .look fun d => when ((d.tile n).critStop && decide ((d.tile n).state = tSTOPPED) && decide ((d.tile n).owner = oGUEST)) (saveTile n)

/-- The tile reports STOPPED (R180); guest reclaim goes on once every guest tile and channel has (R266). -/
def execTileStopDone (t : TileId) (s : State) : Host.Outcome State Fault Refusal :=
  s.runUp (.look fun d => when (!d.halted) (all [each (d.lockstep t.val) stopDone, saveCritical t.val, frozen, displace, stopsEnded]))

/-- The wake from BANKED ends (R376): the role is restored, guest programs resume, and orders that waited are carried out. -/
def execBankedWakeDone (s : State) : Host.Outcome State Fault Refusal :=
  s.runUp <| .look fun d => when (decide (d.mode.role = .banked) && d.mode.transit.isSome) <|
    let rs := d.rst.waiting
    all [
      modMode fun m => { m with transit := none },
      enterRole d.mode.bankedFrom d.mode.bankedGuest,
      each d.mode.bankedTiles startTile,
      modMode fun m => { m with bankedTiles := [] },
      modRst fun x => { x with waiting := [] },
      haltIfHeld,
      each rs orderReset]

end Sys2Proof.Machine
end

