-- ==== Sys2Proof/Machine/Observability.lean ====
section
/-! DEFINITION. Family: tallies, global halt, scan-out and the datestone recorder (R405 to R417, R420). -/

namespace Sys2Proof.Machine

/-! ## The global halt (R409 to R411) -/

/-- The halt ends at the last hold's end, and the resets that waited are carried out. -/
def releaseHalt : Prog :=
  .look fun d => all [haltEnds, modRst fun x => { x with waiting := [] }, each d.rst.waiting orderReset]

/-- The halt follows its holds. -/
def settleHalt : Prog := .look fun d => .seq haltIfHeld (when (!d.held && d.halted) releaseHalt)

/-- The CMD hold is set: the status that answers, BUSY in BANKED (R411). -/
def holdByCommand (k : Nat → Prog) : Prog :=
  .look fun d => if d.mode.role = .banked then k stBUSY else all [put TAL_HALT_CMD 1, settleHalt, k stOK]

/-- The CMD and TRIG holds are cleared. -/
def releaseByCommand : Prog := all [put TAL_HALT_CMD 0, put TAL_HALT_TRIG 0, settleHalt]

/-- A write of TAL_HALT (Table 16.14). -/
def writeTalHalt (v : W64) : Prog :=
  .seq (if TAL_HALT_REQ.of v = 1 then holdByCommand complete else complete stOK) (when (decide (TAL_HALT_REL.of v = 1)) releaseByCommand)

/-- TAL_HALT.REQ written 1. -/
def execTalHaltReq (v : W64) (s : State) : Host.Outcome State Fault Refusal := s.runUp (when (decide (TAL_HALT_REQ.of v = 1)) (writeTalHalt v))

/-- TAL_HALT.REL written 1. -/
def execTalHaltRel (v : W64) (s : State) : Host.Outcome State Fault Refusal := s.runUp (when (decide (TAL_HALT_REL.of v = 1)) (writeTalHalt v))

/-- A command of a land or of the test access port, which work while the supplies are good. -/
def State.runPin (p : Prog) (s : State) : Host.Outcome State Fault Refusal := s.run (.look fun d => when d.power.pwrok p)

/-- HALT_IN_N goes low: a BANKED Ozmund wakes, then halts (R411). -/
def execHaltInNFall (s : State) : Host.Outcome State Fault Refusal := s.runPin (all [put TAL_HALT_PIN 1, wake, settleHalt])

/-- HALT_IN_N goes high. -/
def execHaltInNRise (s : State) : Host.Outcome State Fault Refusal := s.runPin (all [put TAL_HALT_PIN 0, settleHalt])

/-! ## Tallies (R405 to R407) -/

/-- Consecutive fields' values, by place. -/
def Dev.pick (d : Dev) (fs : List Fld) (i : Nat) : W64 := match fs[i]? with | some f => BitVec.ofNat 64 (d.get f) | none => 0

/-- A counter of Table 16.2. Those that mirror a field take its value, reserved ones read 0, and what HBM stacks and DDR5 channels moved is
free: the spec does not give the accesses of translation, scrubbing and repair. -/
def Dev.tallyValue (d : Dev) (i : Nat) : W64 :=
  let own := Store.get counterReset d.tallies i
  if i < 1024 then
    let t := d.tile (i / 4)
    BitVec.ofNat 64 (match i % 4 with
      | 0 => t.get TLE_PASSES_PASSES | 1 => t.get TLE_MXBUSY_CYCLES | 2 => t.get TLE_VXCOUNT_INSTR | _ => t.get TLE_RDCOUNT_SLICES)
  else if i < 1120 then
    let p := (i - 1024) / 4
    match i % 4 with
    | 2 => BitVec.ofNat 64 (d.get (LNK_ERR_RETRIES p)) | 3 => BitVec.ofNat 64 (d.get (LNK_ERR_DROPS p)) | _ => own
  else if i < 1248 then (if i % 2 = 1 then BitVec.ofNat 64 (d.get (DMA_STAT_DONE ((i - 1120) / 2))) else own)
  else if i < 1360 then Config.traffic d.free i
  else if i < 1369 then own
  else if i < 1376 then 0
  else if i < 1408 then
    (if i = 1377 then BitVec.ofNat 64 (d.get CRS_COUNT_COMMITS) else if i = 1378 then BitVec.ofNat 64 (d.get CRS_COUNT_ABANDONS)
     else if i ≤ 1385 then own else 0)
  else if i < 1440 then
    (if i < 1414 then d.pick [WIT_COUNT0_COMPARED, WIT_COUNT0_MISMATCH, WIT_COUNT1_OWN, WIT_COUNT1_DROPPED, WIT_COUNT1_STRAY, WIT_COUNT1_UNGATED] (i - 1408)
     else if i = 1414 then own else 0)
  else if i < 1472 then
    (if i = 1442 then BitVec.ofNat 64 (d.get SYN_COUNT_LOST) else if i = 1443 then BitVec.ofNat 64 (d.get SYN_COUNT_STALE)
     else if i < 1446 then own else 0)
  else if i < 1504 then
    (if 1474 ≤ i ∧ i ≤ 1477 then d.pick [HST_COUNT_TAG_FAIL, HST_COUNT_CRC_FAIL, HST_COUNT_REPLAY, HST_COUNT_NO_SESSION] (i - 1474)
     else if i < 1480 then own else 0)
  else if i < 1536 then
    d.pick ([SHR_COUNT_SHORINGS, SHR_COUNT_HANDBACKS, SHR_COUNT_FAILS, MMU_STAT_FAULTS] ++
      (List.range 5).map fun k => ⟨RST_TOTAL_TOTAL.addr, 12 * k, 12⟩) (i - 1504)
  else if i < 1792 then
    let n := (i - 1536) / 32
    let j := (i - 1536) % 32
    if j < 8 then BitVec.ofNat 64 (((Store.find? d.course.health n).getD []).getD j 0) else if j < 13 then own else 0
  else 0

/-- Sampling is on and not paused (TAL_STAT.RUNNING). -/
def Dev.sampling (d : Dev) : Bool :=
  decide (d.get TAL_CFG_INTERVAL_US ≠ 0) && d.up && decide (d.mode.fw = .run) && !d.halted && decide (d.mode.role ≠ .banked)

/-- The counters of the groups set in TAL_GROUPS, in ascending order. -/
def Dev.tallyList (d : Dev) : List Nat :=
  ((List.range 32).filter fun g => bitOf (d.get TAL_GROUPS_MASK) g).flatMap fun g => (List.range 64).map (64 * g + ·)

/-- L, the bytes of a sample, and S, the samples that the ring holds (R407). -/
def Dev.sampleLen (d : Dev) : Nat := 128 + 8 * d.tallyList.length
def Dev.ringSlots (d : Dev) : Nat := min 1024 (max 1 (d.get TAL_RING_SIZE_MIB)) * 2 ^ 20 / d.sampleLen

/-- TAL_SAMPLE after the settings change. -/
def settleTally : Prog := .look fun d => .seq (put TAL_SAMPLE_LEN d.sampleLen) (put TAL_SAMPLE_SLOTS d.ringSlots)

/-- The bytes of sample `k` taken now (Table 16.3). -/
def Dev.sampleBytes (d : Dev) (k : Nat) : List Byte :=
  let flags := d.obs.flagRestart.toNat + 2 * d.obs.flagHalt.toNat + 4 * (!(d.on LNK_TIME_LOCKED)).toNat + 8 * d.obs.flagThrottle.toNat
  let body := pack [(8, k), (8, d.podTime), (4, max 100 (d.get TAL_CFG_INTERVAL_US)), (4, d.get TAL_GROUPS_MASK), (2, d.tallyList.length), (1, flags),
      (1, d.get CLK_STAT_DIV), (36, 0)] ++ (d.tallyList.map fun i => leBytes 8 (d.tallyValue i).toNat).flatten
  body ++ pack [(8, k), (4, crc32c body), (52, 0)]

/-- The tally unit takes a sample (R406): Pod Time has crossed a multiple of the interval. -/
def execTallySample (s : State) : Host.Outcome State Fault Refusal :=
  s.runUp <| .look fun d => when (d.sampling && d.obs.disciplined) <|
    let k := d.get TAL_STAT_NEXT
    all [
      writePhys (tallyRingBase + k % d.ringSlots * d.sampleLen) (d.sampleBytes k),
      put TAL_STAT_NEXT (k + 1),
      modObs fun o => { o with flagRestart := false, flagHalt := false, flagThrottle := false },
      when (decide (d.ringSlots ≤ k) && decide (d.obs.readTo ≤ k - d.ringSlots)) (raise TAL_EVT_WRAP)]

/-! ## Triggers (R420) -/

/-- The event registers of the control map. -/
def eventRegs : List Nat := [0x238, 0x10028, 0x20090, 0x40048, 0x80050, 0xC0048, 0x100030, 0x140080, 0x380048, 0x3C0048]

/-- A write of TAL_TRIGn_A: an arm of a reserved kind, of a register that is no event register or of a reserved class changes nothing. -/
def writeTrigA (n : Nat) (v : W64) : Prog :=
  let kind := (TAL_TRIG_A_KIND n).of v
  let bad := decide (5 ≤ kind) || (decide (kind = 2) && !(eventRegs.contains ((TAL_TRIG_A_ADDR n).of v))) ||
    (decide (kind = 4) && !(decide (1 ≤ (TAL_TRIG_A_INDEX n).of v ∧ (TAL_TRIG_A_INDEX n).of v ≤ 9)))
  if (TAL_TRIG_A_ARMED n).of v = 1 ∧ bad then complete stFAULT
  else .seq (modObs fun o => { o with hits := o.hits.filter fun m => decide (m ≠ n) }) (writePlain (TAL_TRIG_A_KIND n).addr v)

/-- TAL_TRIGn_A written with ARMED = 1. -/
def execTalTrigArm (n : Fin 8) (v : W64) (s : State) : Host.Outcome State Fault Refusal :=
  s.runUp (when (decide ((TAL_TRIG_A_ARMED n.val).of v = 1)) (writeTrigA n.val v))

/-- Whether the condition of a trigger holds. -/
def Dev.trigHolds (d : Dev) (n : Nat) : Bool :=
  let i := d.get (TAL_TRIG_A_INDEX n)
  let v := d.word (TAL_TRIG_B_VALUE n).addr
  match d.get (TAL_TRIG_A_KIND n) with
  | 1 => satisfied (d.tallyValue i) v
  | 2 => (d.word (d.get (TAL_TRIG_A_ADDR n))).getLsbD i
  | 3 => decide (v.toNat ≤ d.podTime)
  | 4 => d.obs.hits.contains n
  | _ => false

/-- The 1 µs test of an armed trigger finds its condition: it fires, and the Ozmund halts. -/
def execTriggerFire (n : Fin 8) (s : State) : Host.Outcome State Fault Refusal :=
  s.runUp <| .look fun d => when (d.on (TAL_TRIG_A_ARMED n.val) && d.trigHolds n.val && decide (d.mode.role ≠ .banked)) (all [
    put (TAL_TRIG_A_ARMED n.val) 0, put TAL_HALT_TRIGNO n.val, put TAL_HALT_TRIG 1,
    modObs fun o => { o with hits := o.hits.filter fun m => decide (m ≠ n.val) },
    raise TAL_EVT_TRIGGERED, settleHalt])

/-! ## Scan-out (R412 to R414) -/

/-- The length of a scan chain (Table 16.5); none for a reserved one. -/
def chainLen (c : Nat) : Option Nat :=
  if c < 0x100 then some 25358336
  else if c = 0x100 then some 1069120
  else if c ≤ 0x140 then some 4096
  else if c = 0x141 then some 262144
  else if c = 0x142 then some 65536
  else none

/-- `n` bytes from an offset of content that is internal to the part. -/
def Dev.internal (d : Dev) (c off n : Nat) : List Byte := (((Config.scanInternal c d.free).drop off) ++ List.replicate n 0).take n

/-- A channel's registers and content in flight: the four registers, then what is internal to the part. -/
def Dev.chanScan (d : Dev) (n : Nat) : List Byte :=
  [DMA_CTRL_EN n, DMA_RING_BASE n, DMA_PTR_HEAD n, DMA_STAT_LAST n].flatMap (fun f => leBytes 8 (d.word f.addr).toNat) ++ d.internal (0x101 + n) 0 4064

/-- The whole-unit dump of the sync unit as the memory would hold it, with the FINAL flag clear. -/
def Dev.syncScan (d : Dev) : List Byte :=
  ((dumpTo 0 ((d.get SYN_DUMP_SEQ + 1) % 2 ^ 32) dumpWHOLE 0 65536 []).run d).bytes 0 0x105008 ++ List.replicate 56 0

/-- `n` bytes of a scan chain from an offset. -/
def Dev.scan (d : Dev) (c off n : Nat) : List Byte :=
  if c < 0x100 then
    let inStore := min n (0x1800000 - off)
    d.bytes (tileByte c off) inStore ++ ((imageBytes (d.tile c) ++ d.internal c 0 23304).drop (off - 0x1800000)).take (n - inStore)
  else if c = 0x100 then (d.syncScan.drop off).take n
  else if c ≤ 0x140 then (d.chanScan (c - 0x101)).drop off |>.take n
  else d.internal c off n

/-- The test access port shifts out. -/
def tdo (bits : List Bool) : Prog := send .land Kind.tdo (bits.map (·.toNat))

/-- The bits of a number, lowest first. -/
def bitsOf (n v : Nat) : List Bool := (List.range n).map fun i => bitOf v i

/-- As many bits as are shifted in, captured from the lands: which land a cell stands for is not given. -/
def captured (din : List Bool) (k : List Bool → Prog) : Prog := withFrees din.length fun f => k ((List.range din.length).map fun i => (f i).getLsbD 0)

/-- EXTEST: the boundary-scan register drives the lands, captured values shift out and new ones in. -/
def execExtest (din : List Bool) (s : State) : Host.Outcome State Fault Refusal :=
  s.runPin <| .look fun d => all [
    send .land Kind.boundaryDrive (d.obs.boundary.map (·.toNat)),
    when (!din.isEmpty) (captured din fun out => all [tdo out, modObs fun o => { o with boundary := din },
      send .land Kind.boundaryDrive (din.map (·.toNat))])]

/-- SAMPLE/PRELOAD: what the lands carry shifts out, and the register is loaded. -/
def execSamplePreload (din : List Bool) (s : State) : Host.Outcome State Fault Refusal :=
  s.runPin (captured din fun out => .seq (tdo out) (modObs fun o => { o with boundary := din }))

/-- IDCODE. -/
def execIdcode (s : State) : Host.Outcome State Fault Refusal := s.runPin (tdo (bitsOf 32 0x14800A6B))

/-- BYPASS, and every code that names no instruction: one bit of delay. -/
def execBypass (din : List Bool) (s : State) : Host.Outcome State Fault Refusal := s.runPin (tdo ((false :: din).take din.length))

/-- SCANSEL: the chain and offset are selected during a global halt; its register reads the last selection, and 0 without a halt. -/
def execScansel (v : BitVec 48) (s : State) : Host.Outcome State Fault Refusal :=
  s.runPin <| .look fun d =>
    if d.halted then .seq (tdo (bitsOf 48 (d.obs.scanChain + 2 ^ 16 * d.obs.scanOffset)))
      (modObs fun o => { o with scanChain := v.toNat % 2 ^ 16, scanOffset := v.toNat / 2 ^ 16 % 2 ^ 24 })
    else tdo (bitsOf 48 0)

/-- Bytes of a chain from an offset, wrapping at its end. -/
def Dev.scanWrapped (d : Dev) (c off len : Nat) : Nat → Nat → List Byte
  | 0, _ => []
  | fuel + 1, n =>
    let o := off % max 1 len
    if n = 0 then [] else d.scan c o (min n (len - o)) ++ d.scanWrapped c 0 len fuel (n - min n (len - o))

/-- SCANOUT of `n` bytes: the selected chain during a global halt, 0 otherwise and for a reserved chain. -/
def execScanout (n : Nat) (s : State) : Host.Outcome State Fault Refusal :=
  s.runPin <| .look fun d => send .land Kind.tdo [] (match d.halted, chainLen d.obs.scanChain with
    | true, some len => d.scanWrapped d.obs.scanChain (64 * d.obs.scanOffset) len (n + 1) n
    | _, _ => List.replicate n 0)

/-- HALTREQ: the JTAG hold takes the bit shifted in; a BANKED Ozmund wakes, then halts. -/
def execHaltreq (b : Bool) (s : State) : Host.Outcome State Fault Refusal :=
  s.runPin <| .look fun d => all [tdo [d.on TAL_HALT_JTAG], put TAL_HALT_JTAG b.toNat, when b wake, settleHalt]

/-! ## The datestone recorder (R416, R417) -/

/-- A write of DST_CTRL: NOTE makes a record of DST_NOTE0–3, unless 1,024 records wait. -/
def writeDstCtrl (v : W64) : Prog :=
  .look fun d =>
    if DST_CTRL_NOTE.of v = 0 then complete stOK
    else if 1024 ≤ d.get DST_STAT_QUEUE then complete stBUSY
    else .seq (record 0x20 0 ((List.range 4).flatMap fun k => leBytes 8 (d.word (DST_NOTE_BYTES k).addr).toNat)) (complete stOK)

/-- DST_CTRL.NOTE written 1. -/
def execDstCtrlNote (v : W64) (s : State) : Host.Outcome State Fault Refusal := s.runUp (when (decide (DST_CTRL_NOTE.of v = 1)) (writeDstCtrl v))

/-- The end of a second in which records were not made (R417): one SUPPRESSED record stands for them. -/
def execDatestoneSecondEnd (s : State) : Host.Outcome State Fault Refusal :=
  s.runUp <| .look fun d => when (decide (d.obs.notMade ≠ 0)) (all [
    writeRecord 0x12 0 (pack [(4, d.obs.notMade), (8, d.obs.notMadeTypes.toNat)]) false,
    modObs fun o => { o with notMade := 0, notMadeTypes := 0, rateCount := 0 },
    raise DST_EVT_SUPPRESSED])

/-- Every 60 s the operating seconds are saved (R416). -/
def execLifeSave (s : State) : Host.Outcome State Fault Refusal :=
  s.runPin (.look fun d => modObs fun o => { o with lifeSaved := d.get DST_LIFE_SECONDS })

end Sys2Proof.Machine
end

