-- ==== Sys2Proof/Machine/Security.lean ====
section
/-! DEFINITION. Firmware images, the Protection Set, authorisations and attestation (R386 to R399). -/

namespace Sys2Proof.Machine

/-! ## The management ring's frames (Table 13.1) -/

/-- Sends a frame of this Ozmund: type, flags, hops, destination, source. -/
def ringFrame (ty flags hops dst src : Nat) (payload : List Byte) : Prog :=
  let b := pack [(1, ty), (1, flags), (1, hops), (1, 0), (4, dst), (4, src), (2, payload.length), (2, 0)] ++ payload
  send .ring Kind.ringFrame [] (b ++ leBytes 4 (crc32c b))
def ringSend (ty dst : Nat) (payload : List Byte) : Prog := .look fun d => ringFrame ty 0 0 dst d.ownAddr payload

/-! ## Firmware images (R387, R389) -/

/-- The bytes of an image: its header and body (Table 15.5). -/
def imageLen (img : List Byte) : Nat := 8192 + numAt img 16 4

/-- The first check of R387 that an image fails, as SEC_STAT.FAILCAUSE; 0 for an image that is accepted. -/
def Dev.imageCause (d : Dev) (img : List Byte) : Nat :=
  let head := img.take 112
  let body := cut_ img 8192 (numAt img 16 4)
  let fleet := (d.sec.keys.take 2).filter fun k => !k.isEmpty
  if img.take 8 ≠ ascii "AZFWIMG1" ∨ 33546240 < numAt img 16 4 ∨ img.length < imageLen img then 1
  else if digest body ≠ cut_ img 24 32 then 2
  else if !(Config.lmsVerify (Config.fwPublic (d.on SEC_STAT_ENG)) head (cut_ img 128 (numAt img 112 4))) then 3
  else if numAt img 12 2 < d.get SEC_FWPOL_MIN_SVN then 4
  else if d.on SEC_FWPOL_COUNTER ∧ !(fleet.any fun k => Config.lmsVerify k head (cut_ img 3200 (numAt img 116 4))) then 5
  else 0

/-- Writes a digest to four registers, bytes in ascending order. -/
def putDigest (f : Nat → Fld) (first : Nat) (bs : List Byte) : Prog := each (List.range 4) fun k => put (f (first + k)) (numAt bs (8 * k) 8)

/-- The FIRMWARE record (Table 16.8): source 1 flash, 2 partner, 3 network. -/
def recordFirmware (src : Nat) (img : List Byte) : Prog := record 0x09 src (pack [(4, numAt img 8 4), (2, numAt img 12 2)] ++ (digest (img.take 112)).take 24) true

/-- The image that runs from here on: its measurement and version. -/
def measure (img : List Byte) : Prog :=
  all [putDigest SEC_MEAS_VALUE 0 (digest (img.take 112)), put SEC_FWVER_VERSION (numAt img 8 4), put SEC_FWVER_SVN (numAt img 12 2),
    modSec fun s => { s with retained := img.take (imageLen img) }]

/-- An accepted image is written to flash. -/
def flashImage (img : List Byte) : Prog := modSec fun s => { s with flash := some (img.take (imageLen img)) }

/-- The staged image, once its header says how long it is and every byte has come. -/
def Dev.stagedImage (d : Dev) : Option (List Byte) :=
  let n := imageLen (d.sec.stage.get 0 8192)
  if d.sec.stage.covers 0 8192 ∧ d.sec.stage.covers 0 n then some (d.sec.stage.get 0 n) else none

/-! ## The Protection Set (R390, Table 15.7) -/

/-- The protected registers in ascending address. -/
def protectedRegs : List Nat :=
  [0x200, 0x208, 0x20040, 0x20048, 0x20050, 0x20058, 0x20060, 0x40010, 0x40018, 0x40020, 0xC0800, 0xC0C00, 0xC0C08]

/-- The PK bits of a register. -/
def pkMask (a : Nat) : W64 := (fieldsAt ctlRows a).foldl (fun m f => if f.acc = .pk then m ||| bitMask f.lsb f.width else m) 0

/-- A key slot's 56 bytes, zero where it is empty. -/
def keyBytes (k : List Byte) : List Byte := (k ++ List.replicate 56 0).take 56

/-- The digest of the Protection Set. -/
def Dev.psetDigest (d : Dev) : List Byte :=
  digest (leBytes 8 (d.get SEC_PSEQ_SEQ) ++ (d.sec.keys.map keyBytes).flatten ++
    (protectedRegs.map fun a => leBytes 8 (d.word a &&& pkMask a).toNat).flatten)

/-- Whether a Fleet key or a Site key is installed. -/
def Dev.enrolled (d : Dev) : Bool := d.sec.keys.any fun k => !k.isEmpty

/-- The registers that show the Protection Set. -/
def showProtection : Prog :=
  .look fun d => all [
    put SEC_STAT_ENROLLED d.enrolled.toNat,
    putDigest SEC_PSET_VALUE 0 d.psetDigest,
    each (List.range 4) fun m => let k := d.sec.keys.getD m []
      putDigest SEC_KEY_VALUE (4 * m) (if k.isEmpty then List.replicate 32 0 else digest k)]

/-! ## Proposals (R393) -/

def recCount (r : List Byte) : Nat := numAt r 10 2
def recEntry (r : List Byte) (i : Nat) : List Byte := cut_ r (128 + 64 * i) 64
def recEntries (r : List Byte) : List (List Byte) := (List.range (recCount r)).map (recEntry r)

/-- Whether a public key is of a type of Table 15.1: LMS and LM-OTS types, most significant byte first (RFC 8554). -/
def keyTypeOk (k : List Byte) : Bool :=
  let t := leNat (k.take 4).reverse
  let o := leNat (cut_ k 4 4).reverse
  decide (6 ≤ t ∧ t ≤ 8) && decide (o = 3 ∨ o = 4)

/-- The slot of a KEY entry: role 1 FLEET, 2 SITE. -/
def entrySlot (e : List Byte) : Nat := 2 * (numAt e 1 1 - 1) + numAt e 2 1
def entryKey (e : List Byte) : List Byte := if zeroAt e 8 56 then [] else cut_ e 8 56

/-- The keys after a record. -/
def keysAfter (keys : List (List Byte)) (r : List Byte) : List (List Byte) :=
  (recEntries r).foldl (fun ks e => match numAt e 0 1 with
    | 2 => ks.set (entrySlot e) (entryKey e)
    | 3 => [[], [], [], []]
    | _ => ks) keys

/-- Whether a record contains CLEAR. -/
def clears (r : List Byte) : Bool := (recEntries r).any fun e => decide (numAt e 0 1 = 3)

/-- Whether a record's REG entries touch a register under a condition on its new value. -/
def touches (r : List Byte) (a : Nat) : Bool := (recEntries r).any fun e => decide (numAt e 0 1 = 1 ∧ numAt e 8 8 = a ∧ numAt e 16 8 ≠ 0)

/-- What an entry does to the registers. -/
def applyEntry (e : List Byte) : Prog :=
  match numAt e 0 1 with
  | 1 => .look fun d =>
    let m := BitVec.ofNat 64 (numAt e 16 8)
    .act (.ctl (numAt e 8 8) ((d.word (numAt e 8 8) &&& ~~~m) ||| (BitVec.ofNat 64 (numAt e 24 8) &&& m)))
  | 3 => each protectedRegs fun a => .look fun d => .act (.ctl a ((d.word a &&& ~~~(pkMask a)) ||| (ctlDflt a &&& pkMask a)))
  | _ => .done

/-! ## Authorisations (R392, R394) -/

def aKind (b : List Byte) : Nat := numAt b 8 1
def aRole (b : List Byte) : Nat := numAt b 9 1
def aTarget (b : List Byte) : Nat := numAt b 12 4
def aLen (b : List Byte) : Nat := numAt b 20 4
def aSeq (b : List Byte) : Nat := numAt b 24 8
def aDigest (b : List Byte) : List Byte := cut_ b 32 32
def aKey (b : List Byte) : List Byte := cut_ b 64 56
def aSigLen (b : List Byte) : Nat := numAt b 120 4
def aRecord (b : List Byte) : List Byte := cut_ b 128 (aLen b)
def aSig (b : List Byte) : List Byte := cut_ b (128 + aLen b) (aSigLen b)

/-- The record an authorisation is about: the one it carries, else the one that is pending. -/
def Dev.recordOf (d : Dev) (b : List Byte) : List Byte :=
  if aLen b ≠ 0 then aRecord b else match d.sec.pending with | some p => p.record | none => []

/-- The signer's key is installed for its role; an unenrolled part with ENROL_N low takes the key that the record installs (R391). -/
def Dev.signerOk (d : Dev) (b : List Byte) : Bool :=
  let slots := if aRole b = 1 then [0, 1] else [2, 3]
  if d.enrolled then slots.any fun i => decide (d.sec.keys.getD i [] = aKey b)
  else d.on SEC_STAT_ENROL && decide (aKind b = 1) &&
    (recEntries (d.recordOf b)).any fun e => decide (numAt e 0 1 = 2) && slots.contains (entrySlot e) && decide (entryKey e = aKey b)

/-- Whether every reserved byte of a record is 0. -/
def recordClean (r : List Byte) : Bool :=
  zeroAt r 12 4 && zeroAt r 30 98 && (recEntries r).all fun e => match numAt e 0 1 with
    | 1 => zeroAt e 1 7 && zeroAt e 32 32
    | 2 => zeroAt e 3 5
    | _ => zeroAt e 1 63

/-- Whether a record's entries are such as R394 allows. -/
def Dev.entriesOk (d : Dev) (r : List Byte) : Bool :=
  let ks := keysAfter d.sec.keys r
  ((recEntries r).all fun e => decide (numAt e 0 1 ≠ 1) || (protectedRegs.contains (numAt e 8 8) &&
    decide (BitVec.ofNat 64 (numAt e 16 8) &&& ~~~(pkMask (numAt e 8 8)) = 0))) &&
  (clears r || ((ks.take 2).any (fun k => !k.isEmpty) && (ks.drop 2).any fun k => !k.isEmpty))

/-- The first check of R394 that an authorisation for this Ozmund fails, with the SEQ it must exceed; OK for none. -/
def Dev.authzStatus (d : Dev) (b : List Byte) (floor : Nat) : Nat :=
  let change := decide (aKind b = 1)
  let r := aRecord b
  let n := recCount r
  if !(d.signerOk b) ∨ !(Config.lmsVerify (aKey b) (b.take 128) (aSig b)) ∨ aSeq b ≤ floor ∨ numAt b 16 2 ≠ d.get HUB_PART_PARTITION ∨
      !(aTarget b = d.ownAddr ∨ (change ∧ aTarget b = 0x3FFFFF)) then stAUTH
  else if b.take 8 ≠ ascii "AZAUTHZ1" ∨ !(aKind b = 1 ∨ aKind b = 2) ∨ !(aRole b = 1 ∨ aRole b = 2) ∨
      (aLen b ≠ 0 ∧ (numAt r 8 2 ≠ 1 ∨ (recEntries r).any fun e => !(decide (1 ≤ numAt e 0 1 ∧ numAt e 0 1 ≤ 3)) ||
        (decide (numAt e 0 1 = 2) && !(decide (1 ≤ numAt e 1 1 ∧ numAt e 1 1 ≤ 2) && decide (numAt e 2 1 ≤ 1) && ((entryKey e).isEmpty || keyTypeOk (entryKey e)))))) then
    stUNSUPPORTED
  else if b.length < 128 + aLen b + aSigLen b ∨ (if aLen b = 0 then change && d.sec.pending.isNone else
      !change || decide (n < 1 ∨ 62 < n ∨ aLen b ≠ 128 + 64 * n)) then stLENGTH
  else if !(zeroAt b 10 2 && zeroAt b 18 2 && zeroAt b 124 4) ∨ (!change ∧ !(zeroAt b 32 32)) ∨
      (aLen b ≠ 0 ∧ (digest r ≠ aDigest b ∨ r.take 8 ≠ ascii "AZPROPSL" ∨ numAt r 16 8 ≠ aSeq b ∨ numAt r 24 4 ≠ aTarget b ∨
        numAt r 28 2 ≠ numAt b 16 2 ∨ !(recordClean r) ∨ !(d.entriesOk r))) then stFAULT
  else stOK

/-- The conditions of R396 on the completing authorisation. -/
def Dev.changeBusy (d : Dev) (r : List Byte) : Bool :=
  ((touches r 0x200 || touches r 0x208 || clears r) && (decide (d.epoch ≠ 0) || !d.mmu.guests.isEmpty)) ||
  ((recEntries r).any fun e => decide (numAt e 0 1 = 1 ∧ numAt e 8 8 = XCN_CTRL_AUTH.addr) &&
      XCN_CTRL_AUTH.of (BitVec.ofNat 64 (numAt e 16 8)) == 1 && XCN_CTRL_AUTH.of (BitVec.ofNat 64 (numAt e 24 8)) == 0) &&
    (decide (d.get XCN_STAT_MAP ≠ 0) || d.on XCN_DETOUR_ACTIVE)

/-- The pending proposal is dropped. -/
def dropProposal : Prog :=
  all [modSec fun s => { s with pending := none }, put SEC_STAT_PENDING 0, put SEC_STAT_PROLE 0, putDigest SEC_PDIG_VALUE 0 []]

/-- A completed change (R397). -/
def applyChange (p : Proposal) : Prog :=
  .look fun d => all [
    put SEC_PSEQ_SEQ (numAt p.record 16 8),
    each (recEntries p.record) applyEntry,
    modSec fun s => { s with keys := keysAfter d.sec.keys p.record },
    dropProposal, showProtection,
    .look fun d => record 0x08 0 (leBytes 8 (d.get SEC_PSEQ_SEQ) ++ d.psetDigest.take 24) true,
    raise SEC_EVT_APPLIED]

/-- 300 s in CLK_C periods (R395). -/
def proposalTicks : Nat := 300 * 700000000

/-- An authorisation of kind CHANGE (R394, R395): the continuation gets the status and ARG. -/
def changeAuthz (b : List Byte) (k : Nat → Nat → Prog) : Prog :=
  .look fun d =>
    let st := d.authzStatus b (d.get SEC_PSEQ_SEQ)
    if st ≠ stOK then .seq (when (decide (st = stAUTH)) (raise SEC_EVT_REFUSED)) (k st 0)
    else match d.sec.pending with
      | none => all [
          modSec fun s => { s with pending := some ⟨aRecord b, aDigest b, aRole b, d.clk⟩ },
          put SEC_STAT_PENDING 1, put SEC_STAT_PROLE (aRole b), putDigest SEC_PDIG_VALUE 0 (aDigest b),
          raise SEC_EVT_PENDING, k stOK 1]
      | some p =>
        if p.digest ≠ aDigest b then k stBUSY 0
        else if p.role = aRole b then k stOK 1
        else if d.changeBusy p.record then k stBUSY 0
        else .seq (applyChange p) (k stOK 2)

/-- The window of the pending proposal has passed (R395). -/
def expireProposal : Prog := .look fun d => when (d.sec.pending.any fun p => decide (p.since + proposalTicks ≤ d.clk)) (.seq dropProposal (raise SEC_EVT_EXPIRED))

/-- 300 s after a proposal became pending. -/
def execProposalExpire (s : State) : Host.Outcome State Fault Refusal := s.runUp expireProposal

/-- A RESET authorisation that has reached this Ozmund (R398): an E3 if it passes, and whether it did. -/
def resetAuthz (b : List Byte) (k : Bool → Prog) : Prog :=
  .look fun d =>
    if aKind b = 2 ∧ d.authzStatus b (d.get SEC_RRSEQ_SEQ) = stOK ∧ d.on SEC_POLICY_RING_RESET then
      all [put SEC_RRSEQ_SEQ (aSeq b), orderReset ⟨uCHIP, 3, rcRING, false⟩, k true]
    else k false

/-- A RESET authorisation for another Ozmund of the rack goes out as RESET_REQ frames (R398). -/
def sendResetReq (b : List Byte) : Prog :=
  .look fun d =>
    let cs := chunks 1016 b.length b
    .seq (each cs.zipIdx fun c => ringSend 5 (aTarget b) (pack [(1, c.2), (1, cs.length), (2, 0), (4, d.sec.nextFrag)] ++ c.1))
      (modSec fun s => { s with nextFrag := (s.nextFrag + 1) % 2 ^ 32 })

/-! ## Attestation (R399) -/

/-- The report of Table 15.10. -/
def Dev.attestReport (d : Dev) (nonce : List Byte) : List Byte :=
  let four (f : Nat → Fld) := (List.range 4).flatMap fun k => leBytes 8 (d.get (f k))
  ascii "AZATTEST" ++ pack [(2, 1), (2, (d.on SEC_STAT_ENG).toNat + 2 * d.enrolled.toNat + 4 * (decide (d.get SEC_STAT_BOOTSRC ≠ 0)).toNat),
    (4, if d.on RNG_ADDR_ENUM then d.ownAddr else 0)] ++ cut_ Config.deviceCert 24 16 ++ nonce ++ four SEC_MEAS_VALUE ++ four SEC_PSET_VALUE ++
  pack [(8, d.get SEC_PSEQ_SEQ), (4, d.get SEC_FWVER_VERSION), (2, d.get SEC_FWVER_SVN), (2, d.get HUB_PART_PARTITION), (8, d.roleWord.toNat),
    (8, if d.on LNK_TIME_LOCKED then d.podTime else 0), (8, (d.word DST_LIFE_SECONDS.addr).toNat), (8, (d.word SEC_LEAF_WK_USED.addr).toNat), (80, 0)]

/-- The attestation answer: report, certificates, and the working key's signature over the report. -/
def attest (nonce : List Byte) (k : List Byte → Prog) : Prog :=
  .look fun d => let r := d.attestReport nonce
    withIdentity r fun id => k (r ++ id)

/-- Background generation of the next working key has ended (R382): the identity key certifies it, and it takes over. -/
def execWorkingKeyRoll (s : State) : Host.Outcome State Fault Refusal :=
  s.runUp <| .look fun d => when (d.sec.wkMaking && d.identityLeft) (.seq certifyWork (raise SEC_EVT_WK_ROLL))

end Sys2Proof.Machine
end

