-- ==== Sys2Proof/Machine/Ring.lean ====
section
/-! DEFINITION. Family: the management ring (R339 to R345, R398). A ring frame is its bytes as they arrive on RING_IN (Table 13.1). -/

namespace Sys2Proof.Machine

/-- The address of every Ozmund. -/
def everyOzmund : Nat := 0x3FFFFF

def fType (f : List Byte) : Nat := numAt f 0 1
def fFlags (f : List Byte) : Nat := numAt f 1 1
def fHops (f : List Byte) : Nat := numAt f 2 1
def fDst (f : List Byte) : Nat := numAt f 4 4
def fSrc (f : List Byte) : Nat := numAt f 8 4
def fData (f : List Byte) : List Byte := cut_ f 16 (numAt f 12 2)

/-- A frame that is whole: its length as it says, at most 1,024 bytes of payload, and its CRC. -/
def frameOk (f : List Byte) : Bool :=
  decide (f.length = 20 + numAt f 12 2) && decide (numAt f 12 2 ≤ 1024) && decide (numAt f (f.length - 4) 4 = crc32c (f.take (f.length - 4)))

/-- A frame goes on to the next Ozmund with HOPS raised, with flags and payload as they are now; at 64 hops it is removed. -/
def forward (f : List Byte) (flags : Nat) (payload : List Byte) : Prog :=
  if 64 ≤ fHops f then bump RNG_COUNT_DROPPED
  else .seq (bump RNG_COUNT_FORWARDED) (ringFrame (fType f) flags (fHops f + 1) (fDst f) (fSrc f) payload)

/-- A frame as it is goes on. -/
def forwardSame (f : List Byte) : Prog := forward f (fFlags f) (fData f)

/-- Whether a frame is addressed to this Ozmund, and whether this Ozmund sent it. -/
def Dev.forMe (d : Dev) (f : List Byte) : Bool := d.on RNG_ADDR_ENUM && decide (fDst f = d.ownAddr)
def Dev.mine (d : Dev) (f : List Byte) : Bool := d.on RNG_ADDR_ENUM && decide (fSrc f = d.ownAddr)

/-- A frame arrives: one whose CRC fails is dropped. -/
def ringIn (f : List Byte) (k : Prog) : Prog :=
  .look fun d => when d.power.pwrok (if frameOk f then k else bump RNG_COUNT_CRC_FAIL)

/-- A frame of one type for this Ozmund alone; others pass on. -/
def ringFor (ty : Nat) (f : List Byte) (k : Prog) : Prog :=
  ringIn f <| .look fun d =>
    if d.forMe f then when (decide (fType f = ty)) k
    else if d.mine f then .done
    else forwardSame f

/-! ## Enumeration (R340, R341) -/

/-- Whether a job or a guest is served. -/
def Dev.inService (d : Dev) : Bool := decide (d.epoch ≠ 0) || !d.mmu.guests.isEmpty

/-- A conflict of enumeration is shown. -/
def ringError (f : Fld) : Prog := .seq (put f 1) (raise HUB_EVT_ENUM_CONFLICT)

/-- ENUM: a ring position is taken, or a flag is set. -/
def execEnum (f : List Byte) (s : State) : Host.Outcome State Fault Refusal :=
  s.run <| ringIn f <| .look fun d =>
    let p := numAt (fData f) 0 1
    let go (q : Nat) : List Byte := pack [(1, q)] ++ (fData f).drop 1
    if fType f ≠ 1 ∨ (fData f).length ≠ 8 then forwardSame f
    else if numAt (fData f) 1 2 ≠ d.get RNG_ADDR_RACK ∨ d.get RNG_ADDR_RACK = 0xFFFF then
      .seq (ringError RNG_STAT_RACK_ERR) (forward f (fFlags f ||| 4) (fData f))
    else if d.on RNG_ADDR_ENUM ∧ d.inService then
      (if p ≤ d.get RNG_ADDR_POS then forward f (fFlags f) (go (d.get RNG_ADDR_POS + 1))
       else .seq (ringError RNG_STAT_CONFLICT) (forward f (fFlags f ||| 1) (fData f)))
    else if 63 < p then .seq (put RNG_STAT_FULL 1) (forward f (fFlags f ||| 2) (fData f))
    else all [put RNG_ADDR_POS p, put RNG_ADDR_ENUM 1, forward f (fFlags f) (go (p + 1))]

/-! ## The rollcall (R341, R342) -/

/-- The entries of a ROLLCALL: address, tray, role. -/
def rollEntries (bs : List Byte) : List (Nat × Nat × Nat) :=
  (chunks 8 (bs.length / 8) bs).map fun e => (numAt e 0 4, numAt e 4 1, numAt e 5 1)

/-- The Ozmund on the even tray opens session 0 once it knows its partner and runs. -/
def openPartner : Prog :=
  .look fun d => when (decide (d.get RNG_ADDR_TRAY % 2 = 0) && decide (d.mode.fw = .run) && decide (d.partnerAddr ≠ 0)) (openTo d.partnerAddr)

/-- ROLLCALL: the partner is found, this Ozmund's entry is appended, and an address that two Ozmunds have is dropped. -/
def execRollcall (f : List Byte) (s : State) : Host.Outcome State Fault Refusal :=
  s.run <| ringIn f <| .look fun d =>
    let es := rollEntries (fData f)
    let own := es.filter fun e => decide (e.1 = d.ownAddr)
    let here := own.any fun e => decide (e.2.1 = d.get RNG_ADDR_TRAY)
    let tray := d.get RNG_ADDR_TRAY
    let partner := es.find? fun e => decide (e.1 / 64 = d.get RNG_ADDR_RACK) && decide (e.2.1 = if tray % 2 = 0 then tray + 1 else tray - 1)
    let here_ := (es.filter fun e => decide (e.1 / 64 = d.get RNG_ADDR_RACK)).map fun e => (e.1, e.2.1)
    if !(d.on RNG_ADDR_ENUM) ∨ fType f ≠ 2 then forwardSame f
    else all [
      modHold fun h => { h with rack := (h.rack.filter fun e => !(here_.any fun x => decide (x.1 = e.1) || decide (x.2 = e.2))) ++ here_ },
      (match partner with
        | some e => .seq (put HUB_PAIR_PADDR e.1) openPartner
        | none => .done),
      when (decide (2 ≤ own.length) && !d.inService) (.seq (put RNG_ADDR_ENUM 0) (put RNG_ADDR_POS 0)),
      when (!(d.mine f)) (forward f (fFlags f) (if here ∨ 1024 < (fData f).length + 8 then fData f
        else fData f ++ pack [(4, d.ownAddr), (1, tray), (1, d.mode.role.code), (2, 0)]))]

/-! ## Liveness (R344) -/

/-- PULSE: the partner is alive; one in QUARANTINE has left the pair (Table 13.3). -/
def execPulse (f : List Byte) (s : State) : Host.Outcome State Fault Refusal :=
  s.run <| ringFor 3 f <| .look fun d => when (decide (fSrc f = d.partnerAddr)) (.seq
    (modHold fun h => { h with pulse := some d.clk })
    (when (decide (numAt (fData f) 0 8 % 16 = Role.quarantine.code)) (goSolo 4)))

/-- Every PULSE_MS a PULSE goes to the partner. -/
def execPulseTick (s : State) : Host.Outcome State Fault Refusal :=
  s.runUp <| .look fun d => when (d.on RNG_ADDR_ENUM && decide (d.partnerAddr ≠ 0)) (ringSend 3 d.partnerAddr (leBytes 8 d.roleWord.toNat))

/-! ## Other frames (R339) -/

/-- A frame that is not for this Ozmund passes on; one of a reserved type, too, unless it is addressed here. -/
def execRingFrameForward (f : List Byte) (s : State) : Host.Outcome State Fault Refusal :=
  s.run <| ringIn f <| .look fun d => when (!(d.forMe f) && !(d.mine f)) (forwardSame f)

/-! ## Reset requests (R345, R398) -/

/-- The fragments of one set, in order, when all have come. -/
def Dev.fragSet (d : Dev) (src id count : Nat) : Option (List Byte) :=
  let part (i : Nat) := (d.sec.frags.find? fun g => decide (g.1 = src ∧ g.2.1 = id ∧ g.2.2.1 = i ∧ g.2.2.2.1 = count)).map (·.2.2.2.2)
  ((List.range count).mapM part).map List.flatten

/-- A set of fragments is forgotten. -/
def dropFrags (src id : Nat) : Prog := modSec fun s => { s with frags := s.frags.filter fun g => !(decide (g.1 = src ∧ g.2.1 = id)) }

/-- RESET_REQ: the fragments are put together, and a valid authorisation is carried out as an E3. -/
def execResetReq (f : List Byte) (s : State) : Host.Outcome State Fault Refusal :=
  s.run <| ringFor 5 f <| .look fun d => when d.up <|
    let b := fData f
    let i := numAt b 0 1
    let n := numAt b 1 1
    let id := numAt b 4 4
    if b.length < 8 ∨ n = 0 ∨ n ≤ i ∨ !(zeroAt b 2 2) then bump RNG_COUNT_DROPPED
    else .seq (modSec fun s => { s with frags := (s.frags.filter fun g => !(decide (g.1 = fSrc f ∧ g.2.1 = id ∧ g.2.2.1 = i))) ++ [(fSrc f, id, i, n, b.drop 8)] })
      (.look fun d => match d.fragSet (fSrc f) id n with
        | some a => .seq (dropFrags (fSrc f) id) (resetAuthz a fun ok => when (!ok) (bump RNG_COUNT_DROPPED))
        | none => .done)

/-- 100 ms after the first fragment of a set, it is not whole (R398). -/
def execResetReqReassemblyTimeout (src : BitVec 22) (id : W32) (s : State) : Host.Outcome State Fault Refusal :=
  s.runUp <| .look fun d => when (d.sec.frags.any fun g => decide (g.1 = src.toNat ∧ g.2.1 = id.toNat)) (.seq (dropFrags src.toNat id.toNat) (bump RNG_COUNT_DROPPED))

end Sys2Proof.Machine
end

