-- ==== Sys2Proof/Machine/Boot.lean ====
section
/-! DEFINITION. Family: power, boot, recovery and the self-test (R26, R32, R374, R386 to R389, R434, R435, R442). -/

namespace Sys2Proof.Machine

/-! ## Power (R434, R435) -/

/-- The role of the last ROLE record of the datestone log, as its code. -/
def Dev.lastRole (d : Dev) : Nat :=
  (((d.circ.map (·.2)) ++ d.found).foldl (fun best r => if r.ty = 3 ∧ best.1 ≤ r.seq then (r.seq, r.sub) else best) (0, 0)).2

/-- Whether a DIMM is one of Table 9.5. -/
def dimmSpeedOk (x : Dimm) : Bool := if x.mr then decide (x.mts.toNat = 8000 ∨ x.mts.toNat = 8800) else decide (x.mts.toNat = 6400)
def dimmSizeOk (x : Dimm) : Bool := if x.mr then [128, 256, 512].contains x.gb.toNat else [64, 96, 128, 192, 256].contains x.gb.toNat

/-- How a channel that is trained ends, state and cause (R239, Table 9.25): `first` is the first channel's DIMM that trained. -/
def dimmResult (first : Option Dimm) (x : Option Dimm) : Nat × Nat :=
  match x with
  | none => (0, 0)
  | some x =>
    if !x.ecc then (2, 1)
    else if !(dimmSpeedOk x) then (2, 2)
    else if !(dimmSizeOk x) then (2, 3)
    else if !x.trains then (2, 4)
    else match first with
      | some f => if f.mr = x.mr ∧ f.mts = x.mts ∧ f.gb = x.gb then (1, 0) else (2, 3)
      | none => (1, 0)

/-- The memory is trained (R235, R239, R240, R242): the stacks, the channels in ascending order, and the tier's layout over the n channels
that pass, which runs where n ≥ 12. -/
def trainMemory (hbm : W32) (dimms : List (Option Dimm)) : Prog :=
  let first := (dimms.take 24).findSome? fun x => if dimmResult none x = (1, 0) then x else none
  let res := (List.range 24).map fun n => dimmResult first (dimms.getD n none)
  let n := (res.filter fun r => decide (r.1 = 1)).length
  all [
    put MEM_HBM_STAT_UP hbm.toNat, put MEM_HBM_STAT_ECC (if hbm.toNat = 2 ^ 32 - 1 then 1 else 0),
    each res.zipIdx fun r => .seq (put (MEM_DDR_CH_STATE r.2) r.1.1) (put (MEM_DDR_CH_CAUSE r.2) r.1.2),
    (match first with
      | some f => all [put MEM_DDR_CFG_MTS f.mts.toNat, put MEM_DDR_CFG_DIMM_GB f.gb.toNat, put MEM_DDR_CFG_MRDIMM f.mr.toNat]
      | none => .done),
    when (decide (12 ≤ n)) (.look fun d => .seq (put MEM_DDR_CFG_N n) (put MEM_DDR_CFG_D (d.ddrPages - (d.ddrPages + 512) / 513))),
    checkTierRate]

/-- OZ_PWROK rises with the straps RACK, TRAY and ENROL_N: the straps are sampled, the PLLs lock, the memory is trained, the protected
settings are loaded, and the part that was in QUARANTINE comes up in it. -/
def execOzPwrokRise (rack : BitVec 16) (tray : BitVec 4) (enrolN : Bool) (hbm : W32) (dimms : List (Option Dimm)) (s : State) :
    Host.Outcome State Fault Refusal :=
  s.run <| .look fun d => when (!d.power.pwrok) (all [
    modPower fun p => { p with pwrok := true, tripped := false },
    put RNG_ADDR_RACK rack.toNat, put RNG_ADDR_TRAY tray.toNat, put SEC_STAT_ENROL (!enrolN).toNat,
    when (decide (rack.toNat = 0xFFFF)) (ringError RNG_STAT_RACK_ERR),
    each [CLK_STAT_ROOT_LOCK, CLK_STAT_REF_OK, CLK_STAT_HBM_LOCK, CLK_STAT_DDR_LOCK, CLK_STAT_OPT_LOCK, CLK_STAT_ETH_LOCK] fun f => put f 1,
    trainMemory hbm dimms,
    bump DST_LIFE_CYCLES,
    showProtection,
    when (decide (d.lastRole = Role.quarantine.code)) (modMode fun m => { m with role := .quarantine })])

/-- Fields beside stored ones that a loss of power returns to their Reset values. -/
def lostFields : List Fld :=
  [SEC_STAT_BOOTSRC, SEC_STAT_ENROL, SEC_STAT_PENDING, SEC_STAT_PROLE, SEC_STAT_WK_READY, SEC_STAT_FAILCAUSE, SEC_STAT_REMAIN_S,
    XCN_CTRL_SLOT, XCN_CTRL_DIR, XCN_CTRL_GO, XCN_CTRL_PWR_EN, XCN_CTRL_TIMEOUT_MS, DST_STAT_QUEUE, DST_STAT_SUPPRESSED]

/-- Power is lost: the operating seconds fall back to those last saved (R416). -/
def losePower : Prog :=
  all [.act .powerLoss, each lostFields fun f => put f (f.of (ctlDflt f.addr)), .look fun d => put DST_LIFE_SECONDS d.obs.lifeSaved]

/-- OZ_PWROK falls, or a supply leaves tolerance: the Ozmund's own power loss (Table 14.8). -/
def execOzPwrokFall (s : State) : Host.Outcome State Fault Refusal := s.run (.look fun d => when d.power.pwrok losePower)

/-! ## The start of the firmware (R374, R386) -/

/-- The settings of the package that a chip reset does not keep, and what R374 does at RUN: course options, the course root, a
COURSE_QUERY, fresh heartbeat deadlines; CARRY_EN and SHR_CTRL.EN stay 0 until the stored shards are verified. -/
def returnToJob : Prog :=
  .look fun d => when (decide (d.epoch ≠ 0)) (all [
    packageSettings d.job.cfg,
    put CRS_CTRL_CARRY_EN 0, put SHR_CTRL_EN 0,
    put CRS_ROOT_IS_ROOT 0,
    modRst fun x => { x with verifying := true },
    modShore fun x => { x with deadlines := d.live.foldl (fun m n => Store.insert m n (d.clk + 770000)) [] },
    if d.mode.partner = .solo then .seq (put CRS_ROOT_ADDR 0)
      (match d.job.members.filter fun a => decide (a ≠ d.ownAddr) with
        | a :: _ => notify a nCOURSE_QUERY (leBytes 4 d.cur)
        | [] => .done)
    else when (decide (d.get CRS_ROOT_ADDR ≠ d.ownAddr)) (toRoot nCOURSE_QUERY (leBytes 4 d.cur))])

/-- The base registers of the system area that the control complex writes during BOOT (R238); CRS_MAN_BASE is kept over an E3 (Table 14.8).
DESIGN CHOICE (notes/assumptions/218): within the area of rings and dumps the fault ring stands at its start and the post-mortem area 64 MiB
beyond it. -/
def writeBases : Prog :=
  .look fun d => all [
    when (!d.rst.afterE3) (put CRS_MAN_BASE_BASE (manifestBase / 0x200000)),
    put MMU_FQ_BASE (0x84000000 / 4096), put SYN_PM_BASE_BASE (0x88000000 / 2 ^ 23)]

/-- The firmware starts: FW reads RUN, and a halt that is held begins. -/
def startFirmware : Prog :=
  .look fun d =>
    let reset := d.rst.afterE3
    all [
      modMode fun m => { m with fw := .run },
      modSec fun s => { s with asking := false, stage := {} },
      settleWitness, writeBases,
      if reset then all [modRst fun x => { x with afterE3 := false }, raise RST_EVT_CHIP, returnToJob]
      else record 0x02 (d.get SEC_STAT_BOOTSRC) (pack [(4, d.get SEC_FWVER_VERSION), (2, d.get SEC_FWVER_SVN), (1, d.get SEC_STAT_FAILCAUSE)]),
      openPartner, haltIfHeld,
      .look fun d => when (!d.halted && (List.range 8).any fun n => d.on (LNK_SB_HALT n)) (haltLines false)]

/-! ## Recovery (R388) -/

/-- A RECOVERY frame to the partner (Table 15.6). -/
def recoveryFrame (op off len : Nat) (data : List Byte) : Prog := .look fun d => ringSend 4 d.partnerAddr (pack [(1, op), (3, 0), (4, off), (4, len), (4, 0)] ++ data)

/-- The image is refused: RECOVERY. The ROM asks its partner, where the policy allows it. -/
def enterRecovery (cause : Nat) : Prog :=
  .look fun d => all [
    put SEC_STAT_FAILCAUSE cause, put SEC_STAT_BOOTSRC 3,
    modMode fun m => { m with fw := .recovery },
    raise SEC_EVT_RECOVERY,
    when d.rst.afterE3 (reportSelf 3),
    modSec fun s => { s with stage := {}, asking := d.on SEC_FWPOL_PARTNER },
    when (d.on SEC_FWPOL_PARTNER) (recoveryFrame 1 0 1008 [])]

/-- An image is accepted in RECOVERY: it goes to flash, and boot continues. Source: 1 partner, 2 network. -/
def acceptRecovered (src : Nat) (img : List Byte) : Prog :=
  all [flashImage img, measure img, put SEC_STAT_BOOTSRC src, recordFirmware (src + 1) img, startFirmware]

/-- The partner has no image, or its image fails: the ROM waits for the network. -/
def partnerFails : Prog := modSec fun s => { s with asking := false, stage := {} }

/-- Boot ends: the image is checked, the working key certified at a power-on, and the firmware starts, or RECOVERY begins. `readable`:
the flash can be read. -/
def execBootRun (readable : Bool) (s : State) : Host.Outcome State Fault Refusal :=
  s.runUp <| .look fun d => when (decide (d.mode.fw = .boot)) <|
    let kept := d.rst.afterE3 && !d.sec.retained.isEmpty
    let img := if kept then d.sec.retained else d.sec.flash.getD Config.factoryImage
    let cause := if !kept && !readable then 6 else d.imageCause img
    all [
      when (!(d.on SEC_STAT_WK_READY) && d.identityLeft) certifyWork,
      if cause ≠ 0 then enterRecovery cause
      else all [
        measure img, put SEC_STAT_FAILCAUSE 0,
        when (!kept) (.seq (put SEC_STAT_BOOTSRC 0) (recordFirmware 1 img)),
        startFirmware]]

/-- A RECOVERY frame (R388): WANT is answered from the retained image, DATA is staged and the next piece asked for, NONE ends the
partner's part. -/
def execRecovery (f : List Byte) (s : State) : Host.Outcome State Fault Refusal :=
  s.run <| ringFor 4 f <| .look fun d => when (d.up && decide (fSrc f = d.partnerAddr) && decide (16 ≤ (fData f).length)) <|
    let b := fData f
    let off := numAt b 4 4
    let n := min 1008 (numAt b 8 4)
    if numAt b 0 1 = 1 then
      (if d.mode.fw = .run ∧ off < d.sec.retained.length then recoveryFrame 2 off (min n (d.sec.retained.length - off)) ((d.sec.retained.drop off).take n)
       else recoveryFrame 3 off 0 [])
    else when (decide (d.mode.fw = .recovery) && d.sec.asking) <|
      if numAt b 0 1 = 2 then all [
        modSec fun s => { s with stage := s.stage.put off ((b.drop 16).take n) },
        .look fun d => match d.stagedImage with
          | some img => let c := d.imageCause img
            if c = 0 then acceptRecovered 1 img else .seq (put SEC_STAT_FAILCAUSE c) partnerFails
          | none =>
            let total := if d.sec.stage.covers 0 8192 then imageLen (d.sec.stage.get 0 8192) else 8192
            if 33554432 < total then .seq (put SEC_STAT_FAILCAUSE 1) partnerFails
            else when (decide (n ≠ 0)) (recoveryFrame 1 (off + n) (min 1008 (if d.sec.stage.covers 0 8192 then total - (off + n) else 1008)) [])]
      else when (decide (numAt b 0 1 = 3)) partnerFails

/-- The partner says nothing for 2 s (R388). -/
def execRecoveryPartnerTimeout (s : State) : Host.Outcome State Fault Refusal :=
  s.runUp (.look fun d => when (decide (d.mode.fw = .recovery) && d.sec.asking) partnerFails)

/-! ## Verification after a chip reset (R374) -/

/-- The stored shards of the last COMMITTED course have been verified: those that fail are taken from their next source (R96), and
CARRY_EN and SHR_CTRL.EN return to what admission gave. -/
def execShardVerifyDone (s : State) : Host.Outcome State Fault Refusal :=
  s.runUp <| .look fun d => when (d.rst.verifying && decide (d.mode.fw = .run)) <|
    let own := d.get CRS_ROOT_MEMBER
    let static := decide (d.get SPR_MODE_MODE = 0) && d.on XCN_CTRL_AUTH && d.job.positions.any fun r => decide (r.member = own) && r.kernels
    let w := BitVec.ofNat 64 (numAt d.job.cfg 8 8)
    all [
      modRst fun x => { x with verifying := false },
      (match d.lastHeld with
        | some h => each h.ents fun e => .look fun d => when (decide (e.loc ≠ 0) && !(d.shardWhole e)) (.seq (checkShard e) (match d.shardSources e with
            | a :: _ => askShard a h.course e.sha
            | [] => .done))
        | none => .done),
      put CRS_CTRL_CARRY_EN (CRS_CTRL_CARRY_EN.of w),
      put SHR_CTRL_EN (static && !d.shoreStop && decide (d.epoch ≠ 0)).toNat]

/-! ## The self-test (R32) -/

/-- What the items of Table 1.10 put on the block's lands: the link test on each port that is DOWN or PARKED and on the sideband of each
slot that is IDLE or ABSENT, and READ_ID and READ_MAP of a crossconnect with power-good. -/
def testItems : Prog :=
  .look fun d =>
    let ms := orElse (d.get LNK_TEST_TEST_MS) 1
    all [
      each ((List.range 24).filter fun p => decide (d.lState p = lDOWN) || decide (d.lState p = lPARKED)) fun p => send (.port p) Kind.prbs31 [ms],
      each ((List.range 8).filter fun n => decide (d.slotState n = sIDLE) || decide (d.slotState n = sABSENT)) fun n => send (.port (24 + n)) Kind.prbs31 [ms],
      when (d.on XCN_STAT_PGOOD) (.seq (spiFrame (pack [(1, 0x01), (1, 0)])) (spiFrame (pack [(1, 0x02), (1, 0)])))]

/-- The self-test starts: every tile that is not retired and that no program holds belongs to SERVICE until it ends, and the items run. -/
def startTest : Prog :=
  all [modMode fun m => { m with testing := true }, put HUB_POST_GO 1,
    each (List.range 256) fun n => .look fun d => when (decide ((d.tile n).state ≠ tRETIRED) &&
      (decide ((d.tile n).owner = oNONE) || decide ((d.tile n).owner = oWITNESS))) (ownTile n oSERVICE 3),
    testItems]

/-- At power-on the test starts by itself once FW = RUN. -/
def execPostAutostart (s : State) : Host.Outcome State Fault Refusal :=
  s.runUp (.look fun d => when (decide (d.mode.fw = .run) && !d.mode.testing && !(d.on HUB_POST_DONE)) startTest)

/-- A write of HUB_POST. -/
def writePost (v : W64) : Prog :=
  .look fun d =>
    if HUB_POST_GO.of v = 0 then complete stOK
    else if (d.mode.role = .service ∨ d.mode.role = .quarantine) ∧ d.mode.fw = .run ∧ !d.mode.testing ∧
        (List.range 256).all (fun n => decide ((d.tile n).owner ≠ oSERVICE)) then .seq startTest (complete stOK)
    else complete stBUSY

/-- HUB_POST.GO written 1. -/
def execHubPostGo (v : W64) (s : State) : Host.Outcome State Fault Refusal := s.runUp (when (decide (HUB_POST_GO.of v = 1)) (writePost v))

/-- The first item that fails (Table 1.10): the one that the parts under test gave, or item 0x03 where a stack has not trained. -/
def Dev.firstFail (d : Dev) (given : Nat) : Nat :=
  if d.get MEM_HBM_STAT_UP ≠ 2 ^ 32 - 1 ∧ (given = 0 ∨ 3 < given) then 3 else given

/-- The test ends with the code of the first item that failed, 0 for none (Table 1.10); `given` is what the parts under test gave
(notes/assumptions/30). -/
def execPostEnd (given : Fin 9) (s : State) : Host.Outcome State Fault Refusal :=
  s.runUp <| .look fun d => when d.mode.testing (let firstFail := d.firstFail given.val; all [
    modMode fun m => { m with testing := false },
    each (List.range 256) fun n => .look fun d => when (decide ((d.tile n).owner = oSERVICE)) (freeTile n),
    settleWitness,
    put HUB_POST_GO 0, put HUB_POST_DONE 1, put HUB_POST_PASS (decide (firstFail = 0)).toNat,
    put HUB_POST_QCLEAR (decide (firstFail = 0)).toNat, put HUB_POST_FIRST_FAIL firstFail,
    raise HUB_EVT_POST])

end Sys2Proof.Machine
end

