-- ==== Sys2Proof/Machine/Thermal.lean ====
section
/-! DEFINITION. Family: clocks and the thermal manager (R439, R440, R447 to R451). Temperatures are in 0.1 °C, two's complement; times are
CLK_C periods. -/

namespace Sys2Proof.Machine

/-! ## Settings with their limits (Tables 18.14, 18.15) -/

/-- A field of 16 bits as a signed number. -/
def signed16 (v : Nat) : Int := (BitVec.ofNat 16 v).toInt

def Dev.throttleC (d : Dev) : Int := min 1000 (signed16 (d.get CLK_TCFG_THROTTLE_C))
def Dev.hbmC (d : Dev) : Int := min 950 (signed16 (d.get CLK_TCFG_HBM_C))
def Dev.hyst (d : Dev) : Int := max 1 (d.get CLK_TCFG_HYST : Int)
def Dev.divMin (d : Dev) : Nat := min 8 (max 4 (d.get CLK_TCFG_DIV_MIN))
def Dev.limitW (d : Dev) : Nat := if d.get CLK_PWR_LIMIT_W = 0 ∨ 2700 < d.get CLK_PWR_LIMIT_W then 2700 else d.get CLK_PWR_LIMIT_W

def Dev.hotC (d : Dev) : Int := signed16 (d.get CLK_THERM_HOT)
def Dev.hbmHot (d : Dev) : Int := signed16 (d.get CLK_THERM_HBM_HOT)

/-- A millisecond and 100 ms. -/
def tickMs : Nat := 700000
def tick100 : Nat := 70000000

/-- Changes the thermal manager. -/
def modTherm (f : Therm → Therm) : Prog := modPower fun p => { p with therm := f p.therm }

/-- The THERMAL record (Table 16.8). -/
def recordThermal (new : Nat) : Prog := .look fun d => record 0x0A 0 (pack [(1, d.get CLK_STAT_DIV), (1, new), (2, d.get CLK_THERM_HOT)])

/-- The divider takes a value: every tile's TLE_STAT.DIV follows (R178, R448). -/
def setDiv (new : Nat) : Prog :=
  all [recordThermal new, put CLK_STAT_DIV new,
    each (List.range 256) fun n => modTile n fun t => t.set TLE_STAT_DIV new,
    modObs fun o => { o with flagThrottle := true }]

/-- A step down to a divider for a cause: 1 junction, 2 HBM, 3 power, 4 floor. -/
def stepDown (new cause : Nat) : Prog :=
  .look fun d =>
    let soon := d.power.therm.lastUp.any fun t => decide (d.clk < t + 700000000)
    all [
      setDiv new, put CLK_STAT_LIMITER cause, bump CLK_COUNT_DOWN,
      modTherm fun t => { t with lastDown := some d.clk, upSince := none, upWait := if soon then min 128 (2 * t.upWait) else t.upWait },
      raise CLK_EVT_THROTTLE, when (decide (cause = 3)) (raise CLK_EVT_PLIMIT)]

/-! ## The sample (R447, R448, R450) -/

/-- The first cause that calls for a step down; 0 for none. -/
def Dev.hotCause (d : Dev) : Nat :=
  if d.throttleC ≤ d.hotC then 1 else if d.hbmC ≤ d.hbmHot then 2 else if d.limitW ≤ d.get CLK_PWR_POWER_W then 3 else 0

/-- The conditions of a step up. -/
def Dev.cool (d : Dev) : Bool :=
  decide (d.hotC < d.throttleC - d.hyst) && decide (d.hbmHot < d.hbmC - d.hyst) && decide (100 * d.get CLK_PWR_POWER_W < 95 * d.limitW)

/-- The tick since which a condition holds. -/
def since_ (c : Bool) (now : Nat) (old : Option Nat) : Option Nat := if c then some (old.getD now) else none

/-- The hardware trip (R450): tiles halt, channels stop, and the tray is told to remove power. -/
def thermalTrip : Prog :=
  .look fun d => all [
    each (List.range 256) fun n => when (decide ((d.tile n).state = tRUNNING)) (modTile n fun t => t.set TLE_STAT_STATE tHALTED),
    each (List.range 64) fun n => when (d.on (DMA_CTRL_EN n)) (all [put (DMA_CTRL_STOPPED n) 1, put (DMA_CTRL_EN n) 0]),
    recordThermal 0,
    modPower fun p => { p with tripped := true },
    send .land Kind.thermtrip [0]]

/-- Watch 0x07 (R77): the margin falls below CRS_WATCH1.OWN_THERM. -/
def marginWatch : Prog :=
  .look fun d => when (decide (d.epoch ≠ 0) && d.up) <|
    let low := decide (d.throttleC - d.hotC < (d.get CRS_WATCH1_OWN_THERM : Int))
    .seq (when (low && decide (d.course.marginLow ≠ some true)) (fireHealth 8 7)) (modCourse fun c => { c with marginLow := some low })

/-- CLK_STAT.LIMITER between steps. -/
def settleLimiter : Prog :=
  .look fun d =>
    if d.power.therm.crit then put CLK_STAT_LIMITER 5
    else if d.get CLK_STAT_DIV = d.divMin then put CLK_STAT_LIMITER (if d.hotCause ≠ 0 then d.hotCause else if d.divMin = 4 then 0 else 4)
    else when (decide (d.hotCause ≠ 0)) (put CLK_STAT_LIMITER d.hotCause)

/-- The manager's reading every 100 µs: the hottest junction sensor, the hottest HBM4 stack, the package input. -/
def execThermalSample (hot : BitVec 16) (sensor : BitVec 6) (hbm watts : BitVec 16) (s : State) : Host.Outcome State Fault Refusal :=
  s.runPin <| .look fun d => when (!d.power.tripped) (all [
    put CLK_THERM_HOT hot.toNat, put CLK_THERM_SENSOR sensor.toNat, put CLK_THERM_HBM_HOT hbm.toNat,
    put CLK_PWR_POWER_W watts.toNat, put CLK_PWR_PEAK_W (max watts.toNat (d.get CLK_PWR_PEAK_W)),
    put CLK_STAT_MARGIN (BitVec.ofInt 16 (d.throttleC - hot.toInt)).toNat,
    .look fun d =>
      if 1150 ≤ d.hotC ∨ 1050 ≤ d.hbmHot then thermalTrip
      else if d.mode.role = .banked then when (decide (d.throttleC ≤ d.hotC)) wake
      else
        let t := d.power.therm
        let ready := t.lastDown.all fun x => decide (x + tickMs ≤ d.clk)
        all [
          modTherm fun t => { t with
            upWait := if t.lastDown.all fun x => decide (x + 60 * 700000000 ≤ d.clk) then 1 else t.upWait
            upSince := since_ d.cool d.clk t.upSince
            critSince := since_ (decide (d.get CLK_STAT_DIV = 8) && decide (1050 ≤ d.hotC)) d.clk t.critSince
            coolSince := since_ (decide (d.hotC < d.throttleC - d.hyst)) d.clk t.coolSince },
          when (decide (d.hotCause ≠ 0) && decide (d.get CLK_STAT_DIV < 8) && ready) (stepDown (d.get CLK_STAT_DIV + 1) d.hotCause),
          settleLimiter, marginWatch]])

/-- The up conditions have held for the up-wait (R448): one step up. -/
def execThrottleUp (s : State) : Host.Outcome State Fault Refusal :=
  s.runPin <| .look fun d =>
    let t := d.power.therm
    let div := d.get CLK_STAT_DIV
    when (!d.power.tripped && decide (d.mode.role ≠ .banked) && decide (d.divMin < div) && t.upSince.any fun x => decide (x + t.upWait * tick100 ≤ d.clk)) (all [
      setDiv (div - 1), bump CLK_COUNT_UP,
      modTherm fun t => { t with lastUp := some d.clk, upSince := some d.clk },
      when (decide (div - 1 = d.divMin)) (raise CLK_EVT_RESTORED),
      settleLimiter])

/-- A write of CLK_TCFG: a floor above the divider in force is a step down at once (R448). -/
def writeTcfg (v : W64) : Prog :=
  .seq (writePlain CLK_TCFG_DIV_MIN.addr v) (.look fun d => when (decide (d.get CLK_STAT_DIV < d.divMin)) (stepDown d.divMin 4))

/-- CLK_TCFG written with DIV_MIN above the divider in force. -/
def execClkTcfgWrite (v : W64) (s : State) : Host.Outcome State Fault Refusal :=
  s.runUp (.look fun d => when (decide (d.get CLK_STAT_DIV < min 8 (max 4 (CLK_TCFG_DIV_MIN.of v)))) (writeTcfg v))

/-! ## CRITICAL (R449) -/

/-- 10 ms at ÷8 and 105.0 °C: guest and witness tiles are stopped. -/
def execThermalCritical (s : State) : Host.Outcome State Fault Refusal :=
  s.runUp <| .look fun d =>
    when (!d.power.therm.crit && decide (d.get CLK_STAT_DIV = 8) && d.power.therm.critSince.any fun x => decide (x + 10 * tickMs ≤ d.clk)) (all [
      modTherm fun t => { t with crit := true },
      put CLK_STAT_LIMITER 5, raise CLK_EVT_CRIT,
      each (List.range 256) fun n =>
        let t := d.tile n
        when ((decide (t.owner = oGUEST) || decide (t.owner = oWITNESS)) && (decide (t.state = tRUNNING) || decide (t.state = tHALTED)))
          (.seq (modTile n fun t => { t with critStop := true }) (stopTile n))])

/-- HOT has stayed below THROTTLE_C − HYST for 1 s: the tiles that were stopped go on. -/
def execCriticalRecover (s : State) : Host.Outcome State Fault Refusal :=
  s.runUp <| .look fun d =>
    when (d.power.therm.crit && d.power.therm.coolSince.any fun x => decide (x + 700000000 ≤ d.clk)) (all [
      modTherm fun t => { t with crit := false },
      settleLimiter,
      each (List.range 256) fun n => when (d.tile n).critStop (all [
        modTile n fun t => { (if t.state = tSTOPPED then t else t.set TLE_CTRL_STOP 0) with critStop := false },
        when (decide ((d.tile n).state = tSTOPPED)) (startTile n),
        when (decide ((d.tile n).state = tRUNNING)) (tilePump n)])])

/-! ## REFCLK (R439) -/

/-- REFCLK has been absent for 2 µs: the PHYs lose lock, every link goes down, and the hardware orders an E3. The spec gives no code for
its cause, so RST_STAT.CAUSE is free. -/
def execRefclkLost (s : State) : Host.Outcome State Fault Refusal :=
  s.runUp <| .look fun d => when d.power.ref (all [
    modPower fun p => { p with ref := false },
    each [CLK_STAT_REF_OK, CLK_STAT_HBM_LOCK, CLK_STAT_DDR_LOCK, CLK_STAT_OPT_LOCK, CLK_STAT_ETH_LOCK] fun f => put f 0,
    raise CLK_EVT_REF_LOST,
    each (List.range 24) fun p => when (decide (d.lState p ≠ lDOWN) && decide (d.lState p ≠ 0)) (portDown p 2),
    put HST_STAT_UP0 0, put HST_STAT_UP1 0,
    withFree fun f => orderReset ⟨uCHIP, 3, f.toNat % 16, false⟩])

/-- REFCLK has been present for 1 ms: the Ozmund leaves reset and boots. -/
def execRefclkRestored (s : State) : Host.Outcome State Fault Refusal :=
  s.runPin <| .look fun d => when (!d.power.ref) (all [
    modPower fun p => { p with ref := true },
    each [CLK_STAT_ROOT_LOCK, CLK_STAT_REF_OK, CLK_STAT_HBM_LOCK, CLK_STAT_DDR_LOCK, CLK_STAT_OPT_LOCK, CLK_STAT_ETH_LOCK] fun f => put f 1])

/-! ## DIMMs (R440) -/

/-- The DIMMs' temperatures, by channel: the hottest is shown, a channel at 85 °C or more refreshes twice as often, and 95 °C is an event. -/
def execDimmTempRead (temps : List (BitVec 16)) (s : State) : Host.Outcome State Fault Refusal :=
  s.runUp <| .look fun d =>
    let ts := (temps.take 24).zipIdx.filter fun e => decide (d.get (MEM_DDR_CH_STATE e.2) = 1)
    let hottest := ts.foldl (fun best e => if best.1.toInt < e.1.toInt then e else best) (ts.headD (0, 0))
    all [
      put CLK_THERM_DIMM_HOT hottest.1.toNat, put CLK_THERM_CHANNEL hottest.2,
      each ts fun e => send .land Kind.dimmRefresh [e.2, if 850 ≤ e.1.toInt then 2 else 1],
      when (ts.any fun e => decide (950 ≤ e.1.toInt)) (.seq (raise CLK_EVT_DIMM_HOT)
        (record 0x0A 0 (pack [(1, d.get CLK_STAT_DIV), (1, d.get CLK_STAT_DIV), (2, hottest.1.toNat)])))]

end Sys2Proof.Machine
end

