-- ==== Sys2Proof/Machine/RegSpace.lean ====
section
/-! DEFINITION. Family: the control address space as hosts reach it (R8 to R12, R429 to R430, Table 17.7). -/

namespace Sys2Proof.Machine

/-! ## Reads -/

/-- Every condition of Table 1.8 that the Ozmund can observe holds for every LIVE slot (R429). -/
def Dev.bound (d : Dev) : Bool :=
  (d.slotsIn sSHORED ++ d.slotsIn sREINT).isEmpty && decide (d.mode.role = .watch) && decide (d.mode.fw = .run) &&
    ((List.range 12).map (8 + ·)).all (fun p => decide (d.get (LNK_STAT_LANES p) = 0xFF) && decide (d.lState p = lPARKED)) &&
    d.live.all fun n =>
      d.holdsShare (d.slotPos n) && (d.posOf n).any (·.kernels) &&
        decide (sumOf (d.table (d.slotPos n)).stateRegions (fun e => e.1.blocks) * 4096 ≤ 360000000000)

/-- Whether the group spare is in force (R129, R130): COMPAT at the job's admission, or while there is no job as SPR_MODE stands. -/
def Dev.sparing (d : Dev) : Bool := if d.epoch = 0 then decide (d.get SPR_MODE_MODE = 1) else d.mode.compat

/-- HUB_MODES (Table 17.5): course options and the interval as in force for the current course, and 0 while there is none. DESIGN CHOICE:
EARLY_EN reads as CRS_CTRL.EARLY_EN, 1, at power-on too, where Table 17.5 prints Reset 0 (notes/assumptions/163),
and WITNESS likewise as WIT_CTRL.EN, 1 (notes/assumptions/204). -/
def Dev.modesWord (d : Dev) : W64 :=
  let now := decide (d.cur ≠ noCourse)
  let b (v : Bool) : Nat := v.toNat
  let relaxed := (List.range 256).any fun n => (d.tile n).relaxed
  let paired := d.shore.slot.isSome && d.mmu.programs.any fun p => decide (p.ctx = 1) && !p.twins.isEmpty
  let deg := sumOf (List.range 24) fun p => if d.lState p = lSHED ∨ d.lState p = lDETOUR then 2 ^ p else 0
  BitVec.ofNat 64 (d.mode.role.code + 16 * b d.mode.guestOn + 32 * d.mode.partner.code + 128 * b d.mode.compat + 256 * d.mode.fw.code +
    2 ^ 10 * d.get CRS_CTRL_EARLY_EN + 2 ^ 11 * b (now && d.copt CRS_CTRL_DEDUP_EN) + 2 ^ 12 * b (now && d.copt CRS_CTRL_FAR_EN) +
    2 ^ 13 * b (now && d.copt CRS_CTRL_CARRY_EN) + 2 ^ 14 * b paired + 2 ^ 15 * b relaxed + 2 ^ 16 * d.get WIT_CTRL_EN + 2 ^ 17 * d.get SHR_CTRL_EN +
    2 ^ 18 * b d.bound + 2 ^ 24 * deg + 2 ^ 48 * (if now then CRS_CFG_INTERVAL.of d.course.cfg else 0))

/-- GiB of some pages, rounded up. -/
def gibOf (pages : Nat) : Nat := (pages + 511) / 512

/-- MEM_DDR_USE (Table 9.23). -/
def Dev.ddrUse (d : Dev) : W64 :=
  let stored := sumOf (d.course.dir.filter fun e => decide (e.2.tier = 1)) fun e => (e.2.len + 511) / 512
  let far := d.mmu.farTier
  let w := MEM_DDR_USE_COURSE_GIB.into 0 (gibOf stored)
  let w := MEM_DDR_USE_FAR_GIB.into w (gibOf far)
  let w := MEM_DDR_USE_SPILL_GIB.into w (d.get MEM_DDR_USE_SPILL_GIB)
  MEM_DDR_USE_FREE_GIB.into w ((d.ddrUpPages - stored - far - d.homePages.length) / 512)

/-- SYN_SESS: the session that SYN_SESS_SEL names. -/
def Dev.sessWord (d : Dev) : W64 :=
  let p := d.peer (d.get SYN_SESS_SEL_SESSION)
  SYN_SESS_PORT.into (SYN_SESS_STATE.into (SYN_SESS_PEER.into 0 p.peer) p.st) p.port

/-- Seconds left to the pending proposal (R395). -/
def Dev.remainS (d : Dev) : Nat :=
  match d.sec.pending with
  | some p => (p.since + proposalTicks - d.clk + 699999999) / 700000000
  | none => 0

/-- Host sessions OPENING or OPEN. -/
def Dev.hostSessions (d : Dev) : Nat := ((List.range 16).filter fun n => decide (d.get (HST_SESS_STATE n) ≠ 0)).length

/-- A control register as it reads. What no command brings the block, the links of the Ethernet ports and the signal of RING_IN, is
free. -/
def Dev.readWord (d : Dev) (a : Nat) : W64 :=
  let w := d.word a
  let f := (Config.freeWord d.free).toNat
  if a = 0 then HUB_ID_ENG.into w (d.get SEC_STAT_ENG)
  else if a = 0x8 then BitVec.ofNat 64 (numAt Config.deviceCert 24 8)
  else if a = 0x10 then BitVec.ofNat 64 (numAt Config.deviceCert 32 8)
  else if a = 0x40 then d.roleWord
  else if a = 0x48 then d.modesWord
  else if a = 0x20070 then BitVec.ofNat 64 (d.unitCounts (d.get RST_USEL_UNIT))
  else if a = 0x40000 then SEC_STAT_REMAIN_S.into w d.remainS
  else if a = 0xC0C10 then (if d.sparing then w else SPR_STAT_STATE.into w 3)
  else if a = 0x140008 then d.counter (d.get SYN_SEL_INDEX)
  else if a = 0x140078 then d.sessWord
  else if 0x1F0100 ≤ a ∧ a < 0x1F0140 then (LNK_SB_ALERT 0).into w (d.agent ((a - 0x1F0100) / 8)).alert.toNat
  else if a = 0x200028 then HST_MAC_MAC.into 0 Config.macAddress.toNat
  else if a = 0x200030 then HST_STAT_SESSIONS.into (BitVec.ofNat 64 (f % 4)) d.hostSessions
  else if a = 0x240010 then RNG_STAT_IN_UP.into w (f % 2)
  else if a = 0x300018 then d.ddrUse
  else if a = 0x380018 then TAL_STAT_RUNNING.into w d.sampling.toNat
  else if a = 0x380030 then d.tallyValue (d.get TAL_SEL_INDEX)
  else if a = 0x380038 then BitVec.ofNat 64 d.podTime
  else w

/-- A register of the control address space as it reads, with its status (R8, R12). -/
def Dev.readReg (d : Dev) (a : Nat) : W64 × Nat :=
  if a % 8 ≠ 0 ∨ 0x7FFFFF < a then (0, stFAULT)
  else if 0x400000 ≤ a then readTile d ((a - 0x400000) / 0x4000) (a % 0x4000)
  else (d.readWord a, stOK)

/-- What a read does besides: a read of CRS_COURSE lets CRS_STAT.STATE return from COMMITTED or ABANDONED to IDLE (Table 3.15), and a free
value is drawn. -/
def readEffect (a : Nat) : Prog :=
  .look fun d => all [
    when (decide (a = 0x80010) && (decide (d.get CRS_STAT_STATE = kCOMMITTED) || decide (d.get CRS_STAT_STATE = kABANDONED))) (put CRS_STAT_STATE 0),
    when (decide (a = 0x200030 ∨ a = 0x240010 ∨ a = 0x380030)) (.act (.draw 1))]

/-! ## Writes -/

/-- HST_CFG (Table 12.9): while a session stands, a write that changes UDP_PORT changes nothing. -/
def writeHstCfg (v : W64) : Prog :=
  .look fun d => if HST_CFG_UDP_PORT.of v ≠ d.get HST_CFG_UDP_PORT ∧ d.hostSessions ≠ 0 then complete stBUSY else writePlain HST_CFG_UDP_PORT.addr v

/-- A register that is written only while a condition holds, else BUSY. -/
def writeIf (ok : Dev → Bool) (a : Nat) (v : W64) : Prog := .look fun d => if ok d then writePlain a v else complete stBUSY

/-- A write to a control register below the tiles' blocks: by the register's own rule where it has one, else each field by its access
type (R10). -/
def writeCtl (a : Nat) (v : W64) : Prog :=
  if a = 0x50 then writePost v
  else if a = 0x218 then writeIf (fun d => decide (d.epoch = 0)) a v
  else if a = 0x230 then writeHubKept v
  else if a = 0x10010 then writeTcfg v
  else if a = 0x20000 then writeRstCtrl v
  else if a = 0x20028 then complete stOK
  else if a = 0x20080 then writeRstPwr v
  else if a = 0x20088 then writeRstQclr v
  else if a = 0x80000 then writeCrsCtrl v
  else if a = 0x80028 ∨ a = 0x80030 ∨ a = 0x80068 then (.look fun d => if d.epoch ≠ 0 then complete stOK else writePlain a v)
  else if a = 0xC0000 then writeShrCtrl v
  else if a = 0xC0800 then writeXcnCtrl v
  else if a = 0xC0810 then writeXcnDetour v
  else if a = 0x100008 then all [writePlain a v, settleWitness, displace, complete stOK]
  else if a = 0x140010 then writeSynAdd v
  else if a = 0x140018 then writeSynSet v
  else if a = 0x140040 then writeSynDump v
  else if a = 0x140050 then writeSynWarm v
  else if 0x140100 ≤ a ∧ a < 0x140300 then writeSynWin ((a - 0x140100) / 8) v
  else if 0x142000 ≤ a ∧ a < 0x146000 ∧ a % 16 = 0 then writeSynBar ((a - 0x142000) / 16) v
  else if 0x180000 ≤ a ∧ a < 0x198000 ∧ a % 0x1000 = 0 then writeLnkCfg ((a - 0x180000) / 0x1000) v
  else if a = 0x1F0008 then writeLnkTest v
  else if a = 0x200000 then writeHstCfg v
  else if a = 0x280000 then writeMmuPart v
  else if a = 0x280010 then writeInv v
  else if a = 0x280028 then writeFqPtr v
  else if a = 0x280030 then writeFresume v
  else if a = 0x280100 then complete stOK
  else if 0x284000 ≤ a ∧ a < 0x284800 ∧ a % 32 = 0 then writeDmaCtrl ((a - 0x284000) / 32) v
  else if a = 0x380008 ∨ a = 0x380010 then .seq (writeIf (fun d => decide (d.get TAL_CFG_INTERVAL_US = 0)) a v) settleTally
  else if a = 0x380040 then writeTalHalt v
  else if 0x380100 ≤ a ∧ a < 0x380180 ∧ a % 16 = 0 then writeTrigA ((a - 0x380100) / 16) v
  else if a = 0x3C0040 then writeDstCtrl v
  else writePlain a v

/-- A write to the control address space; `Dev.status` is the status it completes with (R8, R10, R12). -/
def writeReg (a : Nat) (v : W64) : Prog :=
  if a % 8 ≠ 0 ∨ 0x7FFFFF < a then complete stFAULT
  else if 0x400000 ≤ a then writeTile ((a - 0x400000) / 0x4000) (a % 0x4000) v
  else writeCtl a v

/-- A write to a register with no row of its own (R10): one of the Ozmund's, or one of its agent's by an accelerator (R35). -/
def execRegisterWrite (side : RegSide) (a v : W64) (s : State) : Host.Outcome State Fault Refusal :=
  match side with
  | .ozmund => s.runUp (writeReg a.toNat v)
  | .host n => s.run (hostRuns n.val (hostRegWrite n.val a.toNat v))

end Sys2Proof.Machine
end

