-- ==== Sys2Proof/Machine/Setout.lean ====
section
/-! DEFINITION. Family: datagrams and sessions of the Setout protocol, and the Ozmund's own Ethernet control plane (R315 to R331, R384, R391). -/

namespace Sys2Proof.Machine

def hFREE : Nat := 0
def hOPENING : Nat := 1
def hOPEN : Nat := 2

/-! ## Frames (R316, R317) -/

/-- The MAC address of a port (R316), and the link-local address made from it by the modified EUI-64 method. -/
def macOf (port : Bool) : Nat := Config.macAddress.toNat + port.toNat
def linkLocal (port : Bool) : Nat :=
  let m := macOf port
  0xFE80 * 2 ^ 112 + Nat.xor (m / 2 ^ 24 % 2 ^ 24) 0x020000 * 2 ^ 40 + 0xFFFE * 2 ^ 24 + m % 2 ^ 24

/-- The IPv6 and IPv4 addresses that a port holds. -/
def Dev.ip6 (d : Dev) (port : Bool) (a : Nat) : Bool :=
  let g := (d.word HST_IP6_HI_ADDR.addr).toNat * 2 ^ 64 + (d.word HST_IP6_LO_ADDR.addr).toNat
  d.on HST_NET_IPV6 && (decide (a = linkLocal port) || (decide (g ≠ 0) && decide (a = g)))
def Dev.ip4 (d : Dev) (a : Nat) : Bool := d.on HST_NET_IPV4 && decide (a = d.get HST_IP4_ADDR)

/-- A frame carries the 802.1Q tag that HST_NET requires, or none. -/
def Dev.vlanOk (d : Dev) (vid : Option (BitVec 12)) : Bool :=
  match vid with
  | some v => d.on HST_NET_VLAN && decide (v.toNat = d.get HST_NET_VID)
  | none => !(d.on HST_NET_VLAN)

/-- A UDP datagram for the Setout port that is not dropped: the frame's length and tag, no fragment, option or extension header, an address that
the port holds, the checksum, which IPv4 alone may leave zero, and the UDP port. -/
def Dev.takesUdp (d : Dev) (e : Ether) : Bool :=
  decide (e.len ≤ 9216) && d.vlanOk e.tag && e.whole && (if e.v6 then d.ip6 e.port e.dst.toNat else d.ip4 e.dst.toNat) && e.sum.getD (!e.v6) &&
    decide (e.port2.toNat = d.get HST_CFG_UDP_PORT)

/-! ## Opening (R323, R324, R384) -/

/-- Whether the host credential of an OPEN_REQ passes, with the class it allows (R383, R384, R391): `b` holds the header and payload. -/
def Dev.credential (d : Dev) (b : List Byte) : Option Nat :=
  let p := b.drop 48
  let field := cut_ p 1224 (numAt p 1220 2)
  let cert := certOf field
  let signer := d.sec.keys.any fun k => !k.isEmpty && certOk cert 3 k
  let self := !d.enrolled && d.on SEC_STAT_ENROL && decide (numAt cert 40 1 = 2) && certOk cert 3 (certKey cert)
  let part := numAt cert 44 2
  if (signer || self) && decide (numAt cert 40 1 ≤ 2) && decide (d.get SEC_CREDMIN_MIN ≤ numAt cert 16 8) &&
      (decide (part = 0xFFFF) || decide (part = d.get HUB_PART_PARTITION)) &&
      Config.lmsVerify (certKey cert) (b.take (48 + 1220)) (field.drop (certLen field)) then some (numAt cert 40 1)
  else none

/-- The layout of an OPEN_REQ (Table 12.2). -/
def openReqOk (b : List Byte) : Bool :=
  let p := b.drop 48
  decide (1224 ≤ p.length) && decide (p.length = 1224 + numAt p 1220 2) && decide (1 ≤ numAt p 1220 2) && decide (numAt p 1220 2 ≤ 6968) &&
    decide (numAt p 1 1 < 2) && zeroAt p 2 2 && zeroAt p 1222 2 && Config.kemKeyOk (cut_ p 36 1184)

/-- The header of an OPEN_RSP (Table 12.4). -/
def openRspHeader (len st : Nat) : List Byte :=
  pack [(1, 1), (1, 2), (2, 3), (4, 0), (4, 0), (4, 0), (8, 0), (2, len), (1, st), (1, 0), (4, 0), (4, 0), (4, 1), (8, 0)]

/-- A handshake datagram (R319): SID 0 and CTR 0, header and payload in clear, and their CRC-32C. -/
def handshake (b : List Byte) : List Byte := List.replicate 16 0 ++ b ++ leBytes 4 (crc32c b)

/-- OPEN_RSP leaves: port, address, UDP port and tag. -/
def sendOpenRsp (e : Ether) (b : List Byte) : Prog :=
  .look fun d => .seq (tally 1473 1) (send .ether Kind.setoutPacket [e.port.toNat, e.addr.toNat, e.udp.toNat, d.vlanTag] (handshake b))

/-- OPEN_RSP refuses: bytes 0–7 only, with SESSION 0. -/
def refuseHost (e : Ether) (st : Nat) : Prog := sendOpenRsp e (openRspHeader 8 st ++ List.replicate 8 0)

/-- Sessions that may stand at once (R322). -/
def Dev.sessMax (d : Dev) : Nat := min 16 (max 1 (d.get HST_NET_SESS_MAX))

/-- A session opens in a free slot: keys, the settings of HST_CFG in force, and OPEN_RSP. -/
def openHost (e : Ether) (b : List Byte) (n cls : Nat) : Prog :=
  withFrees 5 fun f => .look fun d =>
    let p := b.drop 48
    let kem := Config.kemEncaps (cut_ p 36 1184) (f 4).toNat
    let opens := (d.host n).opens + 1
    let hdr := openRspHeader 6608 stOK
    let own := pack [(4, n + 16 * opens), (1, cls), (3, 0)] ++ nonceOf f 0 ++ kem.1 ++ pack [(2, 5476), (2, 0)]
    let t0 := digest (b ++ hdr ++ own)
    let keyOf (label : String) : List Byte := digest (kem.2 ++ t0 ++ ascii label)
    withIdentity t0 fun fld =>
     let h : HSess :=
      { opens := opens, nonce := cut_ p 4 32, rsp := hdr ++ own ++ fld, srcAddr := e.addr.toNat, srcPort := e.udp.toNat
        keyIn := keyOf "AZSO-HO", keyOut := keyOf "AZSO-OH", saltIn := (keyOf "AZSO-IV").take 4, saltOut := cut_ (keyOf "AZSO-IV") 4 4
        window := min 4096 (max 16 (d.get HST_CFG_WINDOW)), retryMax := max 1 (d.get HST_CFG_RETRY_MAX), idleS := d.get HST_CFG_IDLE_S }
     all [
      .act (.host n h),
      .act (.ctl (HST_SESS_STATE n).addr 0),
      put (HST_SESS_STATE n) hOPENING, put (HST_SESS_CLASS n) cls, put (HST_SESS_EVENTS n) (numAt p 1 1), put (HST_SESS_PORT n) e.port.toNat,
      sendOpenRsp e (hdr ++ own ++ fld)]

/-- OPEN_REQ, header and payload (R323): a repeated one draws the same OPEN_RSP; the rest is checked in the order of R13. -/
def execOpenReq (e : Ether) (b : List Byte) (s : State) : Host.Outcome State Fault Refusal :=
  s.runUp <| .look fun d => when (d.on RNG_ADDR_ENUM && d.takesUdp e && decide (48 ≤ b.length)) <|
    let p := b.drop 48
    match (List.range 16).find? fun n => decide (d.hState n ≠ hFREE) && decide ((d.host n).nonce = cut_ p 4 32) with
    | some n => sendOpenRsp e (d.host n).rsp
    | none =>
      let cls := if openReqOk b then (d.credential b).map fun c => min c (numAt p 0 1) else none
      match cls with
        | none => refuseHost e stAUTH
        | some c =>
          if d.mode.fw = .recovery ∧ c ≠ 2 then refuseHost e stAUTH
          else if numAt b 0 1 ≠ 1 then refuseHost e stUNSUPPORTED
          else if d.mode.fw = .boot ∨ !d.identityLeft ∨ !(d.on SEC_STAT_WK_READY) ∨ d.sessMax ≤ d.hostSessions then refuseHost e stBUSY
          else match (List.range 16).find? fun n => decide (d.hState n = hFREE) with
            | none => refuseHost e stBUSY
            | some n => openHost e b n c

/-- No authenticated datagram within 1 s of OPEN_RSP (R325). -/
def execHostSessionOpenTimeout (n : Fin 16) (s : State) : Host.Outcome State Fault Refusal :=
  s.runUp (.look fun d => when (decide (d.hState n.val = hOPENING)) (freeHost n.val))

/-- No authenticated datagram within IDLE_S (R325). -/
def execHostSessionIdle (n : Fin 16) (s : State) : Host.Outcome State Fault Refusal :=
  s.runUp (.look fun d => when (decide (d.hState n.val = hOPEN) && decide ((d.host n.val).idleS ≠ 0)) (freeHost n.val))

/-! ## Acknowledgement (R327, R328) -/

/-- An ACK packet: no SEQ and no payload. -/
def sendAck (n : Nat) (nak : Bool) : Prog :=
  .look fun d => sendPkt n ⟨0, 4, 3 + 8 * nak.toNat, d.epoch, 0, 0, 0, 0, 0, []⟩

/-- A packet is sent again, with the same header and a new CTR. -/
def resendPkt (n : Nat) (p : OutPkt) : Prog := .seq (tally 1479 1) (sendPkt n p)

/-- The retransmission time in ticks (Table 12.9). -/
def Dev.rtoTicks (d : Dev) : Nat := 700 * (if d.get HST_CFG_RTO_US = 0 then 200 else d.get HST_CFG_RTO_US)

/-- The host acknowledges up to a SEQ: those packets are done with. On a NAK the next one is sent again, at most once per RTO. -/
def hostAcked (n ack : Nat) (nak : Bool) : Prog :=
  .look fun d =>
    let h := d.host n
    let left := h.unacked.filter fun p => !(decide ((ack + 2 ^ 32 - p.seq) % 2 ^ 32 < 2 ^ 31))
    let again := nak && (match h.lastResend with | some t => decide (t + d.rtoTicks ≤ d.clk) | none => true)
    all [
      modHost n fun h => { h with unacked := left, retries := if left.length < h.unacked.length then 0 else h.retries },
      (match left.find? fun p => decide (p.seq = (ack + 1) % 2 ^ 32) with
        | some p => when again (.seq (modHost n fun h => { h with lastResend := some d.clk }) (resendPkt n p))
        | none => .done),
      pump n]

/-- ACK from the host (R328). -/
def execHostAck (n : Fin 16) (ack : W32) (nak : Bool) (s : State) : Host.Outcome State Fault Refusal :=
  s.runUp (.look fun d => when (decide (d.hState n.val = hOPEN)) (hostAcked n.val ack.toNat nak))

/-- 20 µs with something unacknowledged (R328). -/
def execAckDelayTimer (n : Fin 16) (s : State) : Host.Outcome State Fault Refusal :=
  s.runUp (.look fun d => when (decide (d.hState n.val = hOPEN) && decide ((d.host n.val).sinceAck ≠ 0)) (sendAck n.val false))

/-- The oldest unacknowledged packet has waited RTO_US (R325, R328). -/
def execRetransmitTimeout (n : Fin 16) (s : State) : Host.Outcome State Fault Refusal :=
  s.runUp <| .look fun d => when (decide (d.hState n.val = hOPEN)) <|
    match (d.host n.val).unacked with
    | [] => .done
    | p :: _ =>
      if (d.host n.val).retryMax ≤ (d.host n.val).retries then freeHost n.val
      else .seq (modHost n.val fun h => { h with retries := h.retries + 1 }) (resendPkt n.val p)

/-! ## Datagrams (R319 to R321, R326, R331) -/

/-- Packets held that the next expected SEQ reaches, one after the other. -/
def joinHeld : Nat → Nat → List Nat → Nat × List Nat
  | 0, e, hs => (e, hs)
  | fuel + 1, e, hs => if hs.contains e then joinHeld fuel ((e + 1) % 2 ^ 32) (hs.filter fun x => decide (x ≠ e)) else (e, hs)

/-- A packet of the host's stream (R327, R328): accepted, held beyond a gap, acknowledged again, or dropped. -/
def takeSeq (n s : Nat) : Prog :=
  .look fun d =>
    let h := d.host n
    let e := d.get (HST_SESS_SEQ_IN n)
    let far := (s + 2 ^ 32 - e) % 2 ^ 32
    if far < h.window then
      let r := joinHeld (h.heldSeqs.length + 1) e (if h.heldSeqs.contains s then h.heldSeqs else s :: h.heldSeqs)
      all [
        put (HST_SESS_SEQ_IN n) r.1,
        modHost n fun h => { h with heldSeqs := r.2, sinceAck := h.sinceAck + 1 },
        if far ≠ 0 then sendAck n true else when (decide (h.window / 4 ≤ h.sinceAck + 1)) (sendAck n false)]
    else if (e + 2 ^ 32 - s) % 2 ^ 32 ≤ h.window then sendAck n false
    else bump HST_COUNT_NO_SESSION

/-- The inner part of an authenticated datagram: CRC, SESSION, ACK and SEQ. -/
def takeInner (n sid : Nat) (b : List Byte) : Prog :=
  let len := numAt b 24 2
  if b.length ≠ 52 + len then bump HST_COUNT_NO_SESSION
  else if numAt b (48 + len) 4 ≠ crc32c (b.take (48 + len)) then bump HST_COUNT_CRC_FAIL
  else if numAt b 8 4 ≠ sid then bump HST_COUNT_NO_SESSION
  else .seq (when (bitOf (numAt b 2 2) 2) (hostAcked n (numAt b 32 4) (bitOf (numAt b 2 2) 3)))
    (.look fun d => when (decide (numAt b 1 1 ≠ 4) && decide (d.hState n = hOPEN)) (takeSeq n (numAt b 12 4)))

/-- A datagram of the session in a slot: the tag, the CTR, then the inner part. The session is OPEN from its first authenticated datagram. -/
def takeSealed (e : Ether) (n : Nat) (b : List Byte) : Prog :=
  .look fun d =>
    let h := d.host n
    let ctr := numAt b 8 8
    match Config.gcmOpen h.keyIn (h.saltIn ++ leBytes 8 ctr) (b.take 16) (b.drop 16) with
    | none => bump HST_COUNT_TAG_FAIL
    | some inner =>
      if ctr ≤ h.ctrIn ∧ (ctr = h.ctrIn ∨ ctr + 1024 < h.ctrIn ∨ h.ctrSeen.contains ctr) then bump HST_COUNT_REPLAY
      else
        let top := max ctr h.ctrIn
        .seq (modHost n fun h => { h with ctrIn := top, ctrSeen := (ctr :: h.ctrIn :: h.ctrSeen).filter fun c => decide (c < top) && decide (top ≤ c + 1024),
                                          srcAddr := e.addr.toNat, srcPort := e.udp.toNat })
        (.seq (.seq (put (HST_SESS_STATE n) hOPEN) (put (HST_SESS_PORT n) e.port.toNat))
        (if 2 ^ 32 ≤ ctr then closeHost n stAUTH else takeInner n (numAt b 0 4) inner))

/-- A UDP datagram to HST_CFG.UDP_PORT. The commands of its stream and the handshake are commands of their own. -/
def execSetoutDatagram (e : Ether) (b : List Byte) (s : State) : Host.Outcome State Fault Refusal :=
  s.runUp <| .look fun d => when (d.on RNG_ADDR_ENUM && d.takesUdp e) <| .seq (tally 1472 1) <|
    let sid := numAt b 0 4
    if sid = 0 then
      (if b.length < 68 ∨ 8276 < b.length ∨ b.length ≠ 68 + numAt b 40 2 then bump HST_COUNT_NO_SESSION
       else when (decide (numAt b (64 + numAt b 40 2) 4 ≠ crc32c ((b.drop 16).take (48 + numAt b 40 2)))) (bump HST_COUNT_CRC_FAIL))
    else if b.length < 84 ∨ 8276 < b.length ∨ d.hState (sid % 16) = hFREE ∨ d.hNumber (sid % 16) ≠ sid then bump HST_COUNT_NO_SESSION
    else takeSealed e (sid % 16) b

/-! ## The Ethernet control plane (R317) -/

/-- An answer of the control plane: protocol, port, to whom, the address it speaks for with its MAC, and the tag. -/
def etherReply (proto : Nat) (e : Ether) (a : Nat) (data : List Byte) : Prog :=
  .look fun d => when (decide (e.len ≤ 9216) && e.whole) (send .ether Kind.etherReply [proto, e.port.toNat, e.addr.toNat, a, macOf e.port, d.vlanTag] data)

/-- Neighbour Solicitation for an IPv6 address: a Neighbour Advertisement answers it. -/
def execNeighbourSolicitation (e : Ether) (vid : Option (BitVec 12)) (target : BitVec 128) (s : State) : Host.Outcome State Fault Refusal :=
  s.runUp (.look fun d => when (d.vlanOk vid && d.ip6 e.port target.toNat) (etherReply 136 e target.toNat []))

/-- ARP request for an IPv4 address. -/
def execArpRequest (e : Ether) (vid : Option (BitVec 12)) (target : W32) (s : State) : Host.Outcome State Fault Refusal :=
  s.runUp (.look fun d => when (d.vlanOk vid && d.ip4 target.toNat) (etherReply 2 e target.toNat []))

/-- ICMP (IPv4) or ICMPv6 Echo Request to an address, with its identifier, sequence number and data: the Echo Reply carries them back. -/
def execEchoRequest (e : Ether) (vid : Option (BitVec 12)) (v6 : Bool) (target : BitVec 128) (data : List Byte) (s : State) :
    Host.Outcome State Fault Refusal :=
  s.runUp <| .look fun d => when (d.vlanOk vid && (if v6 then d.ip6 e.port target.toNat else d.ip4 target.toNat))
    (etherReply (if v6 then 129 else 0) e target.toNat data)

end Sys2Proof.Machine
end

