-- ==== Sys2Proof/Machine/HostCmds.lean ====
section
/-! DEFINITION. Family: the commands of the Setout protocol (R330 to R334, Table 12.5, R408, R413, R418, R419). -/

namespace Sys2Proof.Machine

/-! ## The checks (R331, R332) -/

/-- The epoch rules of Table 12.5. -/
inductive EpochRule where
  | any | job | new
deriving DecidableEq, Repr

/-- The epoch being admitted, from JOB_ADMIT until START (R350). -/
def Dev.admitting (d : Dev) : Bool := decide (hSTAGING ≤ d.hPhase) && decide (d.hPhase ≤ hREADY)

/-- Whether an epoch passes a rule (R331). -/
def Dev.epochOk (d : Dev) (r : EpochRule) (e : Nat) : Bool :=
  match r with
  | .any => decide (e = 0) || decide (e = d.epoch)
  | .job => decide (e ≠ 0) && decide (e = d.epoch)
  | .new => decide (e ≠ 0) && (decide (d.epoch = 0) || (d.admitting && decide (e = d.start.epoch)))

/-- The answer to a command. -/
def reply (m : HMsg) (st arg : Nat) (data : List Byte := []) : Prog := answer m.slot.val m.seq.toNat m.target.toNat st arg data

/-- Bits of ARG beyond those that the type names are 0. -/
def argClean (m : HMsg) (mask : W64) : Bool := decide (m.arg &&& ~~~mask = 0)
/-- A field of ARG. -/
def argAt (m : HMsg) (lsb width : Nat) : Nat := m.arg.toNat / 2 ^ lsb % 2 ^ width

/-- A session that cannot send executes nothing further (R327). -/
def Dev.hostStuck (d : Dev) (n : Nat) : Bool := !(d.host n).waiting.isEmpty || !(d.host n).deferred.isEmpty

/-- The first check of R13 that a command fails: class, epoch, a chip reset in progress, version, the type's own checks, and in RECOVERY
the commands it does not answer (R388). -/
def Dev.hostFails (d : Dev) (m : HMsg) (cls : Nat) (rule : EpochRule) (recov close : Bool) (own : List (Bool × Nat)) : Option Nat :=
  firstCause ([
    (decide (d.get (HST_SESS_CLASS m.slot.val) < cls), stAUTH),
    (!(d.epochOk rule m.epoch.toNat), stEPOCH),
    (d.hubFenced && !close, stFENCED),
    (decide (m.ver ≠ 1), stUNSUPPORTED)] ++ own ++ [
    (decide (d.mode.fw = .recovery) && !recov, stBUSY)])

/-- A command of a session (R330, R331): it waits while the session cannot send; else it is executed, or answered with the first check
that fails. -/
def hostCmd (c : Instr) (m : HMsg) (cls : Dev → Nat) (rule : EpochRule) (recov close : Bool) (own : Dev → List (Bool × Nat)) (k : Prog) : Prog :=
  .look fun d => when (decide (d.hState m.slot.val = hOPEN)) <|
    if d.hostStuck m.slot.val then modHost m.slot.val fun h => { h with deferred := h.deferred ++ [c] }
    else .seq (tally 1478 1) (match d.hostFails m (cls d) rule recov close (own d) with
      | some st => reply m st 0
      | none => k)

def clsOBSERVE : Nat := 0
def clsOPERATE : Nat := 1
def clsSERVICE : Nat := 2

/-- A request without payload. -/
def noData (m : HMsg) : Bool × Nat := (!m.data.isEmpty, stLENGTH)
/-- A request with a payload of `n` bytes. -/
def dataOf (m : HMsg) (n : Nat) : Bool × Nat := (decide (m.data.length ≠ n), stLENGTH)
/-- A request with some payload. -/
def someData (m : HMsg) : Bool × Nat := (m.data.isEmpty, stLENGTH)

/-- A command that a role transition must end before, and the fault-driven ones that wait (R24): it waits. -/
def Dev.inTransit (d : Dev) : Bool := d.mode.transit.isSome || d.mode.faultWaits
def waitRole (c : Instr) (n : Nat) (k : Prog) : Prog :=
  .look fun d => if d.inTransit then modMode fun x => { x with waiting := x.waiting ++ [.host c (d.hNumber n)] } else k
/-- A command that wakes the Ozmund from BANKED, and then runs (R376). -/
def waitAwake (c : Instr) (n : Nat) (k : Prog) : Prog :=
  .look fun d => if d.mode.role = .banked then .seq wake (modMode fun x => { x with waiting := x.waiting ++ [.host c (d.hNumber n)] }) else k

/-! ## CLOSE (R325) -/

/-- CLOSE: answered, and the slot is free. -/
def execHostClose (m : HMsg) (s : State) : Host.Outcome State Fault Refusal :=
  s.runUp <| hostCmd (.hostClose m) m (fun _ => clsOBSERVE) .any true true (fun _ => [noData m]) (.seq (reply m stOK 0) (freeHost m.slot.val))

/-! ## Registers (R333) -/

/-- Reads of consecutive registers up to the first that fails: status, registers read and their bytes. -/
def readRegs (k : Nat → Nat → List Byte → Prog) : Nat → Nat → Nat → List Byte → Prog
  | 0, _, done, acc => k stOK done acc
  | n + 1, a, done, acc => .look fun d =>
    let r := d.readReg a
    if r.2 ≠ stOK then k r.2 done acc else .seq (readEffect a) (readRegs k n (a + 8) (done + 1) (acc ++ leBytes 8 r.1.toNat))

/-- Writes to consecutive registers up to the first that fails: status and registers written. -/
def writeRegs (k : Nat → Nat → Prog) : Nat → List Byte → Nat → Nat → Prog
  | 0, _, _, done => k stOK done
  | n + 1, bs, a, done => all [complete stOK, writeReg a (BitVec.ofNat 64 (numAt bs 0 8)),
      .look fun d => if d.status ≠ stOK then k d.status done else writeRegs k n (bs.drop 8) (a + 8) (done + 1)]

/-- REG_RD. -/
def execRegRd (m : HMsg) (s : State) : Host.Outcome State Fault Refusal :=
  s.runUp <| hostCmd (.regRd m) m (fun _ => clsOBSERVE) .any true false
    (fun _ => [noData m, (decide (1024 < argAt m 0 11), stLENGTH), (!(argClean m 0x7FF), stFAULT)])
    (readRegs (fun st n bs => reply m st n bs) (argAt m 0 11) m.target.toNat 0 [])

/-- REG_WR. -/
def execRegWr (m : HMsg) (s : State) : Host.Outcome State Fault Refusal :=
  s.runUp <| hostCmd (.regWr m) m (fun _ => clsOPERATE) .any false false
    (fun _ => [someData m, (decide (m.data.length % 8 ≠ 0), stLENGTH)])
    (writeRegs (fun st n => reply m st n) (m.data.length / 8) m.data m.target.toNat 0)

/-- No agent answers in a slot that is ABSENT, nor is one asked in QUARANTINE (Table 1.3); an address outside the 64 KiB of an agent, or
misaligned, is told first (R13). -/
def agentAbsent (m : HMsg) (d : Dev) : List (Bool × Nat) :=
  let no := decide (d.slotState (argAt m 0 3) = sABSENT) || decide (d.mode.role = .quarantine)
  [(no && (decide (m.target.toNat % 8 ≠ 0) || decide (0x10000 ≤ m.target.toNat)), stFAULT), (no, stBUSY)]

/-- AGENT_RD: REG_RD messages to the slot, one after the other. -/
def execAgentRd (m : HMsg) (s : State) : Host.Outcome State Fault Refusal :=
  s.runUp <| hostCmd (.agentRd m) m (fun _ => clsOBSERVE) .any false false
    (fun d => [noData m, (decide (512 < argAt m 16 10), stLENGTH), (!(argClean m 0x3FF0007), stFAULT)] ++ agentAbsent m d)
    (if argAt m 16 10 = 0 then reply m stOK 0
     else .look fun d => agentAsk (argAt m 0 3) 0x07 (d.hNumber m.slot.val) m.seq.toNat m.target.toNat 0 (argAt m 16 10) [])

/-- AGENT_WR: REG_WR messages to the slot, one after the other. -/
def execAgentWr (m : HMsg) (s : State) : Host.Outcome State Fault Refusal :=
  s.runUp <| hostCmd (.agentWr m) m (fun _ => clsOPERATE) .any false false
    (fun d => [someData m, (decide (m.data.length % 8 ≠ 0) || decide (4096 < m.data.length), stLENGTH), (!(argClean m 0x7), stFAULT)] ++ agentAbsent m d)
    (.look fun d => agentAsk (argAt m 0 3) 0x08 (d.hNumber m.slot.val) m.seq.toNat m.target.toNat 0 (m.data.length / 8) m.data)

/-! ## Memory (R334) -/

/-- A DMA write into the slot of a tile that works is turned away (R234). -/
def Dev.tileWorks (d : Dev) (pa : Nat) : Bool :=
  match d.phys pa with
  | .tile n => !(decide ((d.tile n).state = tIDLE) || decide ((d.tile n).state = tSTOPPED) || decide ((d.tile n).state = tFAULTED))
  | _ => false

/-- Moves the pieces of a command's transfer in a context, up to the first that fails: status, bytes done, and bytes read. A block that
does not agree with its check word ends a read (R138). -/
def moveMem (ctx : Nat) (write : Bool) (va : Nat) (data : List Byte) (k : Nat → Nat → List Byte → Prog) :
    List (Nat × Nat) → Nat → List Byte → Prog
  | [], done, acc => k stOK done acc
  | p :: ps, done, acc => .look fun d =>
    match d.translate ctx ((va + p.1) % 2 ^ 64) write false with
    | .fault c => .seq (noteFault ((va + p.1) % 2 ^ 64) c write ctx 8 1) (k stFAULT done acc)
    | .ok pa leaf =>
      if write && d.tileWorks pa then k stBUSY done acc
      else if !write && !(d.blockOk pa) then .seq (integrityOwn 2) (k stFAULT done acc)
      else if write then all [touchLeaf leaf true, writePhys pa (cut_ data p.1 p.2), moveMem ctx write va data k ps (done + p.2) acc]
      else .seq (touchLeaf leaf false) (moveMem ctx write va data k ps (done + p.2) (acc ++ d.physBytes pa p.2))

/-- Reads bytes of a context. -/
def readMem (ctx va n : Nat) (k : Nat → Nat → List Byte → Prog) : Prog := moveMem ctx false va [] k (pieces va 0 n) 0 []

/-- A transfer of class SERVICE. -/
def tallyService (n : Nat) : Prog := tallyClass 8 n

/-- BUSY in BANKED (R376) and during a global halt (R332). -/
def Dev.resting (d : Dev) : Bool := decide (d.mode.role = .banked) || d.halted

/-- The checks of MEM_RD and MEM_WR: length, reserved bits of ARG, alignment. -/
def memChecks (m : HMsg) : List (Bool × Nat) :=
  [(decide (2 ^ 30 < 64 * argAt m 32 32), stLENGTH), (!(argClean m 0xFFFFFFFF0000003F), stFAULT), (decide (m.target.toNat % 64 ≠ 0), stFAULT)]

/-- Memory that does not serve commands: while the Ozmund rests, and in QUARANTINE (Table 1.3). An address that is not mapped is told first
(R13). -/
def memBusy (m : HMsg) (write : Bool) (n : Nat) (d : Dev) : List (Bool × Nat) :=
  let no := d.resting || decide (d.mode.role = .quarantine) || (write && decide (argAt m 0 6 = 0) && decide (d.epoch ≠ 0))
  let bad := (pieces m.target.toNat 0 n).any fun p =>
    match d.translate (argAt m 0 6) ((m.target.toNat + p.1) % 2 ^ 64) write false with
    | .fault _ => true
    | .ok _ _ => false
  [(no && bad, stFAULT), (no, stBUSY)]

/-- MEM_RD. -/
def execMemRd (m : HMsg) (s : State) : Host.Outcome State Fault Refusal :=
  s.runUp <| hostCmd (.memRd m) m (fun _ => clsOPERATE) .any false false (fun d => noData m :: memChecks m ++ memBusy m false (64 * argAt m 32 32) d)
    (readMem (argAt m 0 6) m.target.toNat (64 * argAt m 32 32) fun st n bs => .seq (tallyService n) (reply m st n bs))

/-- MEM_WR: class SERVICE for context 0, and none for contexts 1 and 2. -/
def execMemWr (m : HMsg) (s : State) : Host.Outcome State Fault Refusal :=
  s.runUp <| hostCmd (.memWr m) m
    (fun _ => if argAt m 0 6 = 0 then clsSERVICE else if argAt m 0 6 ≤ 2 then clsSERVICE + 1 else clsOPERATE) .any false false
    (fun d => [someData m, (decide (m.data.length % 64 ≠ 0) || decide (m.data.length ≠ 64 * argAt m 32 32), stLENGTH)] ++ memChecks m ++
      memBusy m true m.data.length d)
    (moveMem (argAt m 0 6) true m.target.toNat m.data (fun st n _ => .seq (tallyService n) (reply m st n)) (pieces m.target.toNat 0 m.data.length) 0 [])

/-! ## PKG_PUT (R336, R351) -/

/-- What a PKG_PUT may not name (R336, R351): bytes beyond the package, or beyond its shard; reserved bits, or an entry that the manifest
taken in does not have. -/
def putChecks (m : HMsg) (d : Dev) : List (Bool × Nat) :=
  let t := m.target.toNat
  let n := m.data.length
  let e := t / 2 ^ 32 % 2 ^ 17
  let x := if e = 0 then none else d.takenEnts[e - 1]?
  if t < 2 ^ 63 then [(decide (64 * gib < t + n), stLENGTH)]
  else [(x.any fun x => decide (x.len * 4096 < t % 2 ^ 32 + n), stLENGTH),
    (decide (t / 2 ^ 49 % 2 ^ 14 ≠ 0) || (decide (d.hPhase = hINTAKE) && decide (e ≠ 0) && x.isNone), stFAULT)]

/-- Package bytes, or bytes of the intake of c₀. -/
def takePut (m : HMsg) : Prog :=
  .look fun d =>
    let t := m.target.toNat
    let n := m.data.length
    if t < 2 ^ 63 then
      if d.hPhase ≠ hSTAGING then reply m stBUSY 0
      else all [stageBytes 0 t m.data, packageComplete, reply m stOK n]
    else
      let off := t % 2 ^ 32
      let e := t / 2 ^ 32 % 2 ^ 17
      if d.hPhase ≠ hINTAKE ∨ d.start.joining then reply m stBUSY 0
      else if e = 0 then
        .seq (modStart fun s => { s with manStage := s.manStage.put off m.data }) (.look fun d =>
          let x := d.start.manStage
          let len := numAt (x.get 56 8) 0 8
          if d.start.manifest.isEmpty ∧ x.covers 0 4096 ∧ x.covers 0 len then
            let man := x.get 0 len
            if d.manifestOk man d.job.c0 then all [takeManifest man d.job.c0 d.job.s0, reply m stOK n]
            else .seq (modStart fun s => { s with manStage := {} }) (reply m stFAULT 0)
          else reply m stOK n)
      else match d.takenEnts[e - 1]? with
        | none => .done
        | some _ => .seq (shardBytes (e - 1) off m.data) (reply m stOK n)

/-- PKG_PUT. -/
def execPkgPut (m : HMsg) (s : State) : Host.Outcome State Fault Refusal :=
  s.runUp <| hostCmd (.pkgPut m) m (fun _ => clsOPERATE) .new false false
    (fun d => someData m :: putChecks m d ++ [(d.halted || decide (m.epoch.toNat ≠ d.start.epoch) || !d.admitting, stBUSY)]) (takePut m)

/-! ## Programs and guests (R225 to R227, R244, R332, R334) -/

/-- Reads the images that a program list names; the first status other than OK ends it. -/
def readImages (ctx : Nat) (k : Nat → List (Image × List Byte) → Prog) : Nat → List (Nat × Nat) → List (Image × List Byte) → Prog
  | _, [], acc => k stOK acc
  | total, e :: es, acc =>
    readMem ctx e.1 (min e.2 (128 + tileStoreSize)) fun st _ bs =>
      if st ≠ stOK then k st [] else
        let r := parseImage bs
        if r.1 ≠ stOK then k r.1 []
        else if r.2.rank ≠ acc.length ∨ r.2.count ≠ total then k stFAULT []
        else readImages ctx k total es (acc ++ [(r.2, (bs.drop 128).take r.2.body)])

/-- Loads a program's ranks on free tiles, and starts them. -/
def loadProgram (session ctx : Nat) (start : Bool) (is : List (Image × List Byte)) : Prog :=
  .look fun d =>
    let ts := d.freeTiles.take is.length
    all [
      each (is.zip ts) fun x => loadTile x.2 (if ctx = 3 then oSERVICE else oGUEST) ctx x.1.1 x.1.2,
      modMmu fun u => { u with programs := u.programs ++ [{ ctx := ctx, session := session, tiles := ts }] },
      when start (each ts startTile)]

/-- PROG_LOAD: the list, then every image, then the tiles. -/
def takeProgram (m : HMsg) (busy : Dev → Bool) : Prog :=
  let ctx := argAt m 0 6
  readMem ctx m.target.toNat 8 fun st _ b =>
    let t := numAt b 0 8
    if st ≠ stOK then reply m st 0
    else if t = 0 ∨ 256 < t then reply m stLENGTH 0
    else readMem ctx (m.target.toNat + 8) (16 * t) fun st _ b =>
      if st ≠ stOK then reply m st 0
      else readImages ctx (fun st is => if st ≠ stOK then reply m st 0 else
          .look fun d => if busy d ∨ d.freeTiles.length < t then reply m stBUSY 0 else .seq (loadProgram m.slot.val ctx (m.arg.getLsbD 8) is) (reply m stOK 0))
        t ((List.range t).map fun i => (numAt b (16 * i) 8, numAt b (16 * i + 8) 8)) []

/-- Whether a guest context runs: admitted, and not held since a reclaim. -/
def Dev.guestRuns (d : Dev) (ctx : Nat) : Bool := d.mode.guestOn && d.mmu.guests.any fun g => decide (g.ctx = ctx) && !g.held

/-- PROG_LOAD. -/
def execProgLoad (m : HMsg) (s : State) : Host.Outcome State Fault Refusal :=
  s.runUp <| hostCmd (.progLoad m) m (fun _ => clsOPERATE) .any false false
    (fun _ => [noData m, (!(argClean m 0x13F), stFAULT), (decide (argAt m 0 6 < 3), stFAULT)])
    (takeProgram m fun d => decide (d.mode.role = .banked) || decide (d.mode.role = .quarantine) || (decide (argAt m 0 6 ≠ 3) && !(d.guestRuns (argAt m 0 6))))

/-- A guest is admitted to a context, which gets a root table; or one that was reclaimed is readmitted (R268). -/
def admitGuest (session ctx : Nat) : Prog :=
  .look fun d => all [
    modMmu fun u =>
      let gs := if u.guests.any (fun g => decide (g.ctx = ctx)) then
          u.guests.map fun g => if g.ctx = ctx then { g with session := session, held := false } else g
        else u.guests ++ [{ ctx := ctx, session := session }]
      { u with guests := gs },
    when (!(d.on (MMU_ROOT_VALID ctx))) (newTable fun a => .seq (put (MMU_ROOT_ROOT ctx) (a / 1024)) (put (MMU_ROOT_VALID ctx) 1)),
    when (decide (d.mode.role = .watch)) (modMode fun x => { x with guestOn := true })]

/-- The context granted: the one asked for if it is free or holds a reclaimed guest, or for 0 the lowest free one. -/
def Dev.guestCtx (d : Dev) (want : Nat) : Option Nat :=
  let free (c : Nat) : Bool := !(d.mmu.guests.any fun g => decide (g.ctx = c))
  if want = 0 then ((List.range 60).map (· + 4)).find? free
  else if free want || d.mmu.guests.any (fun g => decide (g.ctx = want) && g.held) then some want
  else none

/-- Whether a guest may be admitted now. -/
def Dev.guestBusy (d : Dev) (want : Nat) : Bool :=
  !(decide (d.mode.role = .guest) || decide (d.mode.role = .watch)) || decide (d.mode.fw ≠ .run) || d.on HUB_POST_GO || !(d.on HUB_POST_PASS) ||
    decide (d.get MEM_HBM_STAT_UP ≠ 2 ^ 32 - 1) || (d.guestCtx want).isNone

/-- GUEST_ADMIT: the context granted in ARG. -/
def execGuestAdmit (m : HMsg) (s : State) : Host.Outcome State Fault Refusal :=
  s.runUp <| hostCmd (.guestAdmit m) m (fun _ => clsOPERATE) .any false false
    (fun _ => [noData m, (!(argClean m 0x3F), stFAULT), (decide (1 ≤ argAt m 0 6 ∧ argAt m 0 6 < 4), stFAULT)]) <|
    waitRole (.guestAdmit m) m.slot.val <| waitAwake (.guestAdmit m) m.slot.val <| .look fun d =>
      if d.guestBusy (argAt m 0 6) then reply m stBUSY 0
      else match d.guestCtx (argAt m 0 6) with
        | some c => .seq (admitGuest m.slot.val c) (reply m stOK c)
        | none => reply m stBUSY 0

/-- GUEST_END: the guest's pages, images and window are freed. -/
def execGuestEnd (m : HMsg) (s : State) : Host.Outcome State Fault Refusal :=
  s.runUp <| hostCmd (.guestEnd m) m (fun _ => clsOPERATE) .any false false
    (fun d => [noData m, (!(argClean m 0x3F), stFAULT), (decide (argAt m 0 6 < 4), stFAULT),
      (!(d.mmu.guests.any fun g => decide (g.ctx = argAt m 0 6)), stBUSY)])
    (all [freeGuest (argAt m 0 6),
      .look fun d => when (d.mmu.guests.isEmpty && decide (d.mode.role = .watch)) (modMode fun x => { x with guestOn := false }),
      reply m stOK 0])

/-! ## Modes and jobs -/

/-- MODE (R23). -/
def execModeCommand (m : HMsg) (s : State) : Host.Outcome State Fault Refusal :=
  s.runUp <| hostCmd (.modeCommand m) m (fun _ => clsOPERATE) .any false false (fun _ => [noData m, (!(argClean m 0xF), stFAULT)]) <|
    waitRole (.modeCommand m) m.slot.val (requestRole (argAt m 0 4) fun st => reply m st 0)

/-- Whether a state does not allow a job admission (Table 1.4, R32, R240, R331). -/
def Dev.jobBusy (d : Dev) : Bool :=
  !(decide (d.mode.role = .service) || decide (d.mode.role = .guest)) || decide (d.mode.fw ≠ .run) || !(d.on RNG_ADDR_ENUM) ||
    d.on HUB_POST_GO || !(d.on HUB_POST_PASS) || decide (d.get MEM_HBM_STAT_UP ≠ 2 ^ 32 - 1) ||
    decide (((List.range 24).filter fun n => decide (d.get (MEM_DDR_CH_STATE n) = 1)).length < 12) ||
    !(decide (d.hPhase = hNONE) || decide (d.hPhase = hABORTED))

/-- Ports leave QUIESCE at a JOB_ADMIT (R356). -/
def leaveQuiesce : Prog :=
  each (List.range 24) fun p => .look fun d => when (decide (d.lState p = lQUIESCE))
    (setPort p (if d.get (LNK_STAT_LANES p) = 0xFF then lUP else lSHED) (d.get (LNK_STAT_LANES p)))

/-- Staging opens for an epoch (R336). -/
def openStaging (e : Nat) (dig : List Byte) : Prog :=
  .look fun d => all [
    modStart fun _ => { digest := dig, epoch := e, joining := d.on HUB_JOIN_VALID },
    setPhase hSTAGING, leaveQuiesce, tellPartner]

/-- JOB_ADMIT. -/
def execJobAdmit (m : HMsg) (s : State) : Host.Outcome State Fault Refusal :=
  s.runUp <| hostCmd (.jobAdmit m) m
    (fun d => if m.epoch.toNat ≠ 0 ∧ (m.epoch.toNat < d.get HUB_EPOCHS_MIN ∨ d.get HUB_EPOCHS_MAX < m.epoch.toNat) then clsSERVICE + 1 else clsOPERATE)
    .new false false (fun _ => [dataOf m 48, (!(zeroAt m.data 32 16), stFAULT)]) <|
    waitRole (.jobAdmit m) m.slot.val <| .look fun d =>
      if d.mode.role = .banked ∧ (d.hPhase = hNONE ∨ d.hPhase = hABORTED) then waitAwake (.jobAdmit m) m.slot.val .done
      else if d.jobBusy then reply m stBUSY 0
      else .seq (openStaging m.epoch.toNat (m.data.take 32)) (reply m stOK 0)

/-- TEARDOWN: forwarded to the root (R354). -/
def execTeardown (m : HMsg) (s : State) : Host.Outcome State Fault Refusal :=
  s.runUp <| hostCmd (.teardown m) m (fun _ => clsOPERATE) .job false false (fun _ => [noData m, (!(argClean m 0x1), stFAULT)])
    (.look fun d => .seq (toRoot 0x44 (pack [(4, d.epoch), (1, argAt m 0 1), (3, 0)])) (reply m stOK 0))

/-! ## Courses and shoring -/

/-- A new root is named (R93): this member takes over, or follows it. -/
def nameRoot (a : Nat) : Prog :=
  .look fun d =>
    let old := d.get CRS_ROOT_ADDR
    if a = d.ownAddr then .seq (put CRS_ROOT_ADDR a) (when (!d.isRoot) (.seq (takeRoot old) noticesAgain))
    else all [put CRS_ROOT_ADDR a, put CRS_ROOT_IS_ROOT 0, openTo a]

/-- COURSE by its sub-operation (Table 12.5). -/
def courseCommand (c : Instr) (m : HMsg) : Prog :=
  let op := argAt m 0 4
  hostCmd c m (fun _ => clsOPERATE) .job false false
    (fun d => [(decide (3 < op), stUNSUPPORTED), noData m, (!(argClean m 0xF), stFAULT),
      (decide (op = 2) && !(d.job.members.any fun a => decide (a = m.target.toNat)), stFAULT)]) <|
    if op = 0 then .seq requestCourse (reply m stOK 0)
    else if op = 1 then .seq orderAbandon (reply m stOK 0)
    else if op = 2 then .seq (nameRoot m.target.toNat) (reply m stOK 0)
    else .look fun d => .seq (readEffect 0x80010)
      (reply m stOK 16 (leBytes 8 (d.word CRS_COURSE_CUR.addr).toNat ++ leBytes 8 (d.word CRS_STAT_STATE.addr).toNat))

/-- COURSE with sub-operation OPEN (R77). -/
def execCourseCmdOpen (m : HMsg) (s : State) : Host.Outcome State Fault Refusal := s.runUp (courseCommand (.courseCmdOpen m) m)
/-- COURSE with sub-operation ABANDON (R73). -/
def execCourseCmdAbandon (m : HMsg) (s : State) : Host.Outcome State Fault Refusal := s.runUp (courseCommand (.courseCmdAbandon m) m)
/-- COURSE with sub-operation ROOT (R93). -/
def execCourseCmdRoot (m : HMsg) (s : State) : Host.Outcome State Fault Refusal := s.runUp (courseCommand (.courseCmdRoot m) m)
/-- COURSE with sub-operation QUERY (R332). -/
def execCourseCmdQuery (m : HMsg) (s : State) : Host.Outcome State Fault Refusal := s.runUp (courseCommand (.courseCmdQuery m) m)

/-- SHORE by its sub-operation (Table 12.5). -/
def shoreCommand (c : Instr) (m : HMsg) : Prog :=
  let op := argAt m 0 4
  hostCmd c m (fun _ => clsOPERATE) .job false false
    (fun _ => [(decide (1 < op), stUNSUPPORTED), noData m, (!(argClean m 0x7F) || (decide (op = 1) && decide (argAt m 4 3 ≠ 0)), stFAULT)]) <|
    if op = 0 then .seq (declareNow (argAt m 4 3) 4) (reply m stOK 0)
    else startHandback fun st => reply m st 0

/-- SHORE with sub-operation DECLARE (R103). -/
def execShoreDeclare (m : HMsg) (s : State) : Host.Outcome State Fault Refusal := s.runUp (shoreCommand (.shoreDeclare m) m)
/-- SHORE with sub-operation HANDBACK (R125). -/
def execShoreHandback (m : HMsg) (s : State) : Host.Outcome State Fault Refusal := s.runUp (shoreCommand (.shoreHandback m) m)

/-! ## The datestone log (R418, R419) -/

/-- The records of a view, in the order of their numbers. -/
def Dev.logView (d : Dev) (view : Nat) : List DRec :=
  if view = 1 then d.found else sortOn DRec.seq (d.circ.map (·.2))

/-- The number of the first record that a LOG_RD of the live view names: a number older than the oldest held starts there. -/
def Dev.liveFirst (d : Dev) (first : Nat) : Nat := max first (((d.logView 2).head?.map (·.seq)).getD 0)

/-- The records that a LOG_RD returns. The live view reads slots in slot order whatever they hold, on to the count (R419): in a slot whose
record is not yet written stands an older one. Nothing is made while the read, one step here, goes on. -/
def Dev.logTaken (d : Dev) (view first count : Nat) : List DRec :=
  if view = 2 then
    (if d.get DST_SEQ_NEXT ≤ d.liveFirst first then []
      else (List.range count).filterMap fun i => Store.find? d.circ ((d.liveFirst first + i) % 61440))
  else ((d.logView view).filter fun r => decide (first ≤ r.seq)).take count

/-- The answer to LOG_RD: header, records, and for the live view the trailer. -/
def Dev.logAnswer (d : Dev) (view first count : Nat) : List Byte :=
  let rs := d.logTaken view first count
  let nx := d.get DST_SEQ_NEXT
  let q := (rs.head?.map (·.seq)).getD 0
  pack [(1, view), (1, 0), (2, rs.length), (4, 0), (8, q), (8, if view = 2 ∧ rs ≠ [] then q + rs.length - 1 else (rs.getLast?.map (·.seq)).getD 0), (8, nx),
      (8, ((d.logView view).head?.map (·.seq)).getD 0), (24, 0)] ++
    rs.flatMap DRec.bytes ++ (if view = 2 then pack [(8, nx), (56, 0)] else [])

/-- LOG_RD. -/
def logCommand (c : Instr) (m : HMsg) : Prog :=
  hostCmd c m (fun _ => if argAt m 0 2 = 2 then clsSERVICE else clsOBSERVE) .any true false
    (fun _ => [(decide (argAt m 0 2 = 3), stUNSUPPORTED), noData m])
    (.look fun d => let b := if argAt m 2 14 = 0 then [] else d.logAnswer (argAt m 0 2) (argAt m 16 48) (argAt m 2 14)
      reply m stOK b.length b)

/-- LOG_RD of view CIRCULATING (R418). -/
def execLogRdCirculating (m : HMsg) (s : State) : Host.Outcome State Fault Refusal := s.runUp (logCommand (.logRdCirculating m) m)
/-- LOG_RD of view FOUNDATION (R418). -/
def execLogRdFoundation (m : HMsg) (s : State) : Host.Outcome State Fault Refusal := s.runUp (logCommand (.logRdFoundation m) m)
/-- LOG_RD of view LIVE (R419). -/
def execLogRdLive (m : HMsg) (s : State) : Host.Outcome State Fault Refusal := s.runUp (logCommand (.logRdLive m) m)

/-! ## Tallies, dumps, halt and scan (R286, R408, R409, R413) -/

/-- Whether the bytes of a slot of the tally ring are sample `k`: both numbers and the CRC. -/
def sampleOk (k : Nat) (b : List Byte) : Bool :=
  decide (numAt b 0 8 = k) && decide (numAt b (b.length - 64) 8 = k) && decide (numAt b (b.length - 56) 4 = crc32c (b.take (b.length - 64)))

/-- The samples from `first` that the ring still holds, whole and in order. -/
def Dev.samples (d : Dev) (first count : Nat) : List Byte :=
  let nx := d.get TAL_STAT_NEXT
  let fro := max first (nx - d.ringSlots)
  ((List.range (min count (nx - fro))).map fun i =>
    (fro + i, d.physBytes (tallyRingBase + (fro + i) % d.ringSlots * d.sampleLen) d.sampleLen)).flatMap fun x => if sampleOk x.1 x.2 then x.2 else []

/-- TALLY_RD. -/
def execTallyRd (m : HMsg) (s : State) : Host.Outcome State Fault Refusal :=
  s.runUp <| hostCmd (.tallyRd m) m (fun _ => clsOBSERVE) .any false false
    (fun d => [noData m, (decide (2 ^ 30 < argAt m 48 16 * d.sampleLen), stLENGTH), (d.resting, stBUSY)])
    (.look fun d =>
      let b := d.samples (argAt m 0 48) (argAt m 48 16)
      .seq (modObs fun o => { o with readTo := max o.readTo (min (d.get TAL_STAT_NEXT) (argAt m 0 48 + argAt m 48 16)) }) (reply m stOK b.length b))

/-- DUMP: the sync unit's, or a slot's agent's. -/
def dumpCommand (c : Instr) (m : HMsg) : Prog :=
  let ag := m.arg.getLsbD 16
  let n := argAt m 17 3
  hostCmd c m (fun _ => clsOPERATE) .any false false
    (fun d => [noData m, (!(argClean m 0xF3F01) || (!ag && decide (n ≠ 0)), stFAULT),
      ((ag && decide (d.slotState n = sABSENT)) || decide (d.mode.role = .quarantine), stBUSY)])
    (.seq (if ag then oReq n 0x33 0 else requestDump (m.arg.getLsbD 0) (argAt m 8 6)) (reply m stOK 0))

/-- DUMP of the sync unit (R286). -/
def execDumpCommand (m : HMsg) (s : State) : Host.Outcome State Fault Refusal := s.runUp (dumpCommand (.dumpCommand m) m)
/-- DUMP with AGENT set: DUMP_REQ to a slot (R57). -/
def execDumpCommandAgent (m : HMsg) (s : State) : Host.Outcome State Fault Refusal := s.runUp (dumpCommand (.dumpCommandAgent m) m)

/-- HALT: the CMD hold is set, or CMD and TRIG are cleared. -/
def haltCommand (c : Instr) (m : HMsg) : Prog :=
  hostCmd c m (fun _ => clsOPERATE) .any false false (fun _ => [noData m, (!(argClean m 0x1), stFAULT)])
    (if m.arg.getLsbD 0 then holdByCommand fun st => reply m st 0 else .seq releaseByCommand (reply m stOK 0))

/-- HALT with ARG bit 0 = 1 (R409). -/
def execHaltCommand (m : HMsg) (s : State) : Host.Outcome State Fault Refusal := s.runUp (haltCommand (.haltCommand m) m)
/-- HALT with ARG bit 0 = 0 (R409). -/
def execHaltReleaseCommand (m : HMsg) (s : State) : Host.Outcome State Fault Refusal := s.runUp (haltCommand (.haltReleaseCommand m) m)

/-- SCAN: a range of a scan chain. -/
def execScan (m : HMsg) (s : State) : Host.Outcome State Fault Refusal :=
  s.runUp <| hostCmd (.scan m) m (fun _ => clsSERVICE) .any false false
    (fun d => [((chainLen (argAt m 0 16)).isNone, stUNSUPPORTED), noData m,
      (decide ((chainLen (argAt m 0 16)).getD 0 < 64 * (argAt m 16 24 + argAt m 40 24)), stLENGTH), (!d.halted, stBUSY)])
    (.look fun d => let b := d.scan (argAt m 0 16) (64 * argAt m 16 24) (64 * argAt m 40 24)
      reply m stOK b.length b)

/-! ## Security and firmware (R389, R394, R398, R399) -/

/-- Whether an address lies in this Ozmund's rack (Table 0.6). -/
def Dev.inRack (d : Dev) (a : Nat) : Bool := decide (a / 64 = d.get RNG_ADDR_RACK) && decide (1 ≤ a % 64)

/-- AUTHZ by its kind: RESET goes to the Ozmund that it names, anything else is checked here. One that is cut short and whose signature
fails is AUTH, which comes before LENGTH (R13). -/
def authzCommand (c : Instr) (m : HMsg) : Prog :=
  hostCmd c m (fun _ => clsOPERATE) .any false false (fun _ => []) <| .look fun d =>
    if m.data.length < 128 then
      (if d.authzStatus m.data (d.get SEC_PSEQ_SEQ) = stAUTH then .seq (raise SEC_EVT_REFUSED) (reply m stAUTH 0) else reply m stLENGTH 0)
    else if aKind m.data ≠ 2 then changeAuthz m.data fun st arg => reply m st arg
    else if aTarget m.data = d.ownAddr then
      let st := d.authzStatus m.data (d.get SEC_RRSEQ_SEQ)
      if st ≠ stOK then .seq (when (decide (st = stAUTH)) (raise SEC_EVT_REFUSED)) (reply m st 0)
      else if !(d.on SEC_POLICY_RING_RESET) then reply m stAUTH 0
      else .seq (reply m stOK 0) (resetAuthz m.data fun _ => .done)
    else if d.on RNG_ADDR_ENUM && d.inRack (aTarget m.data) then .seq (sendResetReq m.data) (reply m stOK 0)
    else reply m stFAULT 0

/-- AUTHZ of kind CHANGE (R394, R395). -/
def execAuthzChange (m : HMsg) (s : State) : Host.Outcome State Fault Refusal := s.runUp (authzCommand (.authzChange m) m)
/-- AUTHZ of kind RESET (R398). -/
def execAuthzReset (m : HMsg) (s : State) : Host.Outcome State Fault Refusal := s.runUp (authzCommand (.authzReset m) m)

/-- Bytes of control-complex memory for an image. -/
def stageTop : Nat := 33554432

/-- In RECOVERY the ROM waits for the network (R388). -/
def Dev.netRecovery (d : Dev) : Bool := decide (d.mode.fw = .recovery) && d.on SEC_FWPOL_NET && !d.sec.asking

/-- FW_PUT: image bytes are staged. -/
def execFwPut (m : HMsg) (s : State) : Host.Outcome State Fault Refusal :=
  s.runUp <| hostCmd (.fwPut m) m (fun _ => clsSERVICE) .any true false
    (fun d => [someData m, (decide (stageTop < m.target.toNat + m.data.length), stFAULT),
      (d.halted || !(if d.mode.fw = .recovery then d.netRecovery else decide (d.mode.role = .service)), stBUSY)])
    (.seq (modSec fun x => { x with stage := x.stage.put m.target.toNat m.data }) (reply m stOK m.data.length))

/-- An image accepted over the network: flash, and the retained copy; in RECOVERY boot goes on. -/
def acceptNet (img : List Byte) : Prog :=
  .look fun d =>
    if d.mode.fw = .recovery then .seq (raise SEC_EVT_FW_ACCEPTED) (acceptRecovered 2 img)
    else all [flashImage img, modSec fun x => { x with retained := img.take (imageLen img), stage := {} }, recordFirmware 3 img, raise SEC_EVT_FW_ACCEPTED]

/-- FW_ACCEPT: AUTH for an image that is not accepted comes before any other status (R13). -/
def execFwAccept (m : HMsg) (s : State) : Host.Outcome State Fault Refusal :=
  s.runUp <| hostCmd (.fwAccept m) m (fun d => if d.stagedImage.any fun i => decide (d.imageCause i ≠ 0) then clsSERVICE + 1 else clsSERVICE) .any true false
    (fun d => [dataOf m 32, (d.stagedImage.isNone, stLENGTH), (d.stagedImage.any fun i => decide (digest i ≠ m.data), stFAULT),
      (decide (d.mode.fw = .recovery) && !d.netRecovery, stBUSY)])
    (.look fun d => match d.stagedImage with
      | none => .done
      | some img => .seq (acceptNet img) (reply m stOK 0))

/-- ATTEST: the report, the certificates and the signature. -/
def execAttest (m : HMsg) (s : State) : Host.Outcome State Fault Refusal :=
  s.runUp <| hostCmd (.attest m) m (fun _ => clsOBSERVE) .any true false
    (fun d => [dataOf m 32, (!(d.on SEC_STAT_WK_READY), stBUSY)])
    (attest m.data fun b => reply m stOK b.length b)

end Sys2Proof.Machine
end

