-- ==== Sys2Proof/Machine/LatheCt.lean ====
section
/-! DEFINITION. Family: the CT instructions (R205, R206, R218 to R221, R228, R231). A command is the instruction whose words stand at the
tile's TLE_PC; what it does then and later is the tile engine's. -/

namespace Sys2Proof.Machine

/-- CT ALU ADD writes S[RA] + B to S[RD] (R205). -/
def execCtAdd (t : TileId) (w0 w1 : W64) (s : State) : Host.Outcome State Fault Refusal :=
  s.runUp (lathe .ctAdd t.val w0 w1)

/-- CT ALU SUB writes S[RA] − B to S[RD] (R205). -/
def execCtSub (t : TileId) (w0 w1 : W64) (s : State) : Host.Outcome State Fault Refusal :=
  s.runUp (lathe .ctSub t.val w0 w1)

/-- CT ALU MUL writes the low 64 bits of S[RA] × B (R205). -/
def execCtMul (t : TileId) (w0 w1 : W64) (s : State) : Host.Outcome State Fault Refusal :=
  s.runUp (lathe .ctMul t.val w0 w1)

/-- CT ALU AND writes S[RA] AND B (R205). -/
def execCtAnd (t : TileId) (w0 w1 : W64) (s : State) : Host.Outcome State Fault Refusal :=
  s.runUp (lathe .ctAnd t.val w0 w1)

/-- CT ALU OR writes S[RA] OR B (R205). -/
def execCtOr (t : TileId) (w0 w1 : W64) (s : State) : Host.Outcome State Fault Refusal :=
  s.runUp (lathe .ctOr t.val w0 w1)

/-- CT ALU XOR writes S[RA] XOR B (R205). -/
def execCtXor (t : TileId) (w0 w1 : W64) (s : State) : Host.Outcome State Fault Refusal :=
  s.runUp (lathe .ctXor t.val w0 w1)

/-- CT ALU SHL shifts S[RA] left by B bits 5:0 (R205). -/
def execCtShl (t : TileId) (w0 w1 : W64) (s : State) : Host.Outcome State Fault Refusal :=
  s.runUp (lathe .ctShl t.val w0 w1)

/-- CT ALU SHR shifts S[RA] right logically by B bits 5:0 (R205). -/
def execCtShr (t : TileId) (w0 w1 : W64) (s : State) : Host.Outcome State Fault Refusal :=
  s.runUp (lathe .ctShr t.val w0 w1)

/-- CT ALU SAR shifts S[RA] right arithmetically by B bits 5:0 (R205). -/
def execCtSar (t : TileId) (w0 w1 : W64) (s : State) : Host.Outcome State Fault Refusal :=
  s.runUp (lathe .ctSar t.val w0 w1)

/-- CT ALU SLT writes 1 if S[RA] < B signed, else 0 (R205). -/
def execCtSlt (t : TileId) (w0 w1 : W64) (s : State) : Host.Outcome State Fault Refusal :=
  s.runUp (lathe .ctSlt t.val w0 w1)

/-- CT ALU SLTU writes 1 if S[RA] < B unsigned, else 0 (R205). -/
def execCtSltu (t : TileId) (w0 w1 : W64) (s : State) : Host.Outcome State Fault Refusal :=
  s.runUp (lathe .ctSltu t.val w0 w1)

/-- CT ALU MIN writes the signed minimum of S[RA] and B (R205). -/
def execCtMin (t : TileId) (w0 w1 : W64) (s : State) : Host.Outcome State Fault Refusal :=
  s.runUp (lathe .ctMin t.val w0 w1)

/-- CT ALU MAX writes the signed maximum of S[RA] and B (R205). -/
def execCtMax (t : TileId) (w0 w1 : W64) (s : State) : Host.Outcome State Fault Refusal :=
  s.runUp (lathe .ctMax t.val w0 w1)

/-- CT ALU MOV writes B to S[RD] (R205). -/
def execCtMov (t : TileId) (w0 w1 : W64) (s : State) : Host.Outcome State Fault Refusal :=
  s.runUp (lathe .ctMov t.val w0 w1)

/-- CT address function 0 copies S[RA] into A[RD] (R206). -/
def execAddrFromS (t : TileId) (w0 w1 : W64) (s : State) : Host.Outcome State Fault Refusal :=
  s.runUp (lathe .addrFromS t.val w0 w1)

/-- CT address function 1 copies A[RA] into S[RD] (R206). -/
def execAddrToS (t : TileId) (w0 w1 : W64) (s : State) : Host.Outcome State Fault Refusal :=
  s.runUp (lathe .addrToS t.val w0 w1)

/-- CT address function 2 writes A[RA] + B modulo 2^64 to A[RD] (R206). -/
def execAddrAdd (t : TileId) (w0 w1 : W64) (s : State) : Host.Outcome State Fault Refusal :=
  s.runUp (lathe .addrAdd t.val w0 w1)

/-- CT address function 3 adds B to the BASE field modulo 2^25 (R206). -/
def execAddrBaseAdd (t : TileId) (w0 w1 : W64) (s : State) : Host.Outcome State Fault Refusal :=
  s.runUp (lathe .addrBaseAdd t.val w0 w1)

/-- CT address function 4 sets the STRIDE field from B bits 15:0 (R206). -/
def execAddrStrideSet (t : TileId) (w0 w1 : W64) (s : State) : Host.Outcome State Fault Refusal :=
  s.runUp (lathe .addrStrideSet t.val w0 w1)

/-- CT JMP branches unconditionally to the offset plus IMM32 (R218). -/
def execJmp (t : TileId) (w0 w1 : W64) (s : State) : Host.Outcome State Fault Refusal :=
  s.runUp (lathe .jmp t.val w0 w1)

/-- CT BEQ branches if S[RA] equals B (R218). -/
def execBeq (t : TileId) (w0 w1 : W64) (s : State) : Host.Outcome State Fault Refusal :=
  s.runUp (lathe .beq t.val w0 w1)

/-- CT BNE branches if S[RA] differs from B (R218). -/
def execBne (t : TileId) (w0 w1 : W64) (s : State) : Host.Outcome State Fault Refusal :=
  s.runUp (lathe .bne t.val w0 w1)

/-- CT BLT branches if S[RA] < B signed (R218). -/
def execBlt (t : TileId) (w0 w1 : W64) (s : State) : Host.Outcome State Fault Refusal :=
  s.runUp (lathe .blt t.val w0 w1)

/-- CT BGE branches if S[RA] ≥ B signed (R218). -/
def execBge (t : TileId) (w0 w1 : W64) (s : State) : Host.Outcome State Fault Refusal :=
  s.runUp (lathe .bge t.val w0 w1)

/-- CT BLTU branches if S[RA] < B unsigned (R218). -/
def execBltu (t : TileId) (w0 w1 : W64) (s : State) : Host.Outcome State Fault Refusal :=
  s.runUp (lathe .bltu t.val w0 w1)

/-- CT BGEU branches if S[RA] ≥ B unsigned (R218). -/
def execBgeu (t : TileId) (w0 w1 : W64) (s : State) : Host.Outcome State Fault Refusal :=
  s.runUp (lathe .bgeu t.val w0 w1)

/-- CT LOOP decrements S[RA] and branches while the result is not 0 (R218). -/
def execCtLoop (t : TileId) (w0 w1 : W64) (s : State) : Host.Outcome State Fault Refusal :=
  s.runUp (lathe .loop t.val w0 w1)

/-- CT BP branches if P[RA] is nonzero, waiting on a pending CMP (R218). -/
def execBp (t : TileId) (w0 w1 : W64) (s : State) : Host.Outcome State Fault Refusal :=
  s.runUp (lathe .bp t.val w0 w1)

/-- CT PSET writes S[RA] to P[RD] (R218). -/
def execPset (t : TileId) (w0 w1 : W64) (s : State) : Host.Outcome State Fault Refusal :=
  s.runUp (lathe .pset t.val w0 w1)

/-- CT PGET writes P[RA] to S[RD] (R218). -/
def execPget (t : TileId) (w0 w1 : W64) (s : State) : Host.Outcome State Fault Refusal :=
  s.runUp (lathe .pget t.val w0 w1)

/-- CT PAND writes P[RA] AND P[RB] (R218). -/
def execPand (t : TileId) (w0 w1 : W64) (s : State) : Host.Outcome State Fault Refusal :=
  s.runUp (lathe .pand t.val w0 w1)

/-- CT POR writes P[RA] OR P[RB] (R218). -/
def execPor (t : TileId) (w0 w1 : W64) (s : State) : Host.Outcome State Fault Refusal :=
  s.runUp (lathe .por t.val w0 w1)

/-- CT PXOR writes P[RA] XOR P[RB] (R218). -/
def execPxor (t : TileId) (w0 w1 : W64) (s : State) : Host.Outcome State Fault Refusal :=
  s.runUp (lathe .pxor t.val w0 w1)

/-- CT PNOT writes NOT P[RA] (R218). -/
def execPnot (t : TileId) (w0 w1 : W64) (s : State) : Host.Outcome State Fault Refusal :=
  s.runUp (lathe .pnot t.val w0 w1)

/-- CT LD reads an 8-byte tile-store word into S[RD] at dispatch (R219). -/
def execCtLd (t : TileId) (w0 w1 : W64) (s : State) : Host.Outcome State Fault Refusal :=
  s.runUp (lathe .ctLd t.val w0 w1)

/-- CT ST writes S[RB] to an 8-byte tile-store word at dispatch (R219). -/
def execCtSt (t : TileId) (w0 w1 : W64) (s : State) : Host.Outcome State Fault Refusal :=
  s.runUp (lathe .ctSt t.val w0 w1)

/-- CT NOP does nothing (R207). -/
def execCtNop (t : TileId) (w0 w1 : W64) (s : State) : Host.Outcome State Fault Refusal :=
  s.runUp (lathe .nop t.val w0 w1)

/-- CT END stops dispatch and the tile becomes IDLE once its queues and DESC transfers have en (R231). -/
def execEndProgram (t : TileId) (w0 w1 : W64) (s : State) : Host.Outcome State Fault Refusal :=
  s.runUp (lathe .endProg t.val w0 w1)

/-- CT BRK raises the BRK exception, resuming at the next instruction (R223). -/
def execCtBrk (t : TileId) (w0 w1 : W64) (s : State) : Host.Outcome State Fault Refusal :=
  s.runUp (lathe .brk t.val w0 w1)

/-- CT STEP on the lead rank waits for all queues, then hands the step number and context imag (R221). -/
def execCtStep (t : TileId) (w0 w1 : W64) (s : State) : Host.Outcome State Fault Refusal :=
  s.runUp (lathe .step t.val w0 w1)

/-- CT CGET reads a local counter into S[RD] (R219). -/
def execCget (t : TileId) (w0 w1 : W64) (s : State) : Host.Outcome State Fault Refusal :=
  s.runUp (lathe .cget t.val w0 w1)

/-- CT PHXLD loads a Philox stream from a 32-byte record after earlier VX instructions complet (R220). -/
def execPhxld (t : TileId) (w0 w1 : W64) (s : State) : Host.Outcome State Fault Refusal :=
  s.runUp (lathe .phxld t.val w0 w1)

/-- CT PHXST stores a Philox stream to a 32-byte record (R220). -/
def execPhxst (t : TileId) (w0 w1 : W64) (s : State) : Host.Outcome State Fault Refusal :=
  s.runUp (lathe .phxst t.val w0 w1)

/-- CT GANG requests a new gang configuration in TLE_MXCFG.GANG (R159). -/
def execCtGang (t : TileId) (w0 w1 : W64) (s : State) : Host.Outcome State Fault Refusal :=
  s.runUp (lathe .gang t.val w0 w1)

/-- CT TIME reads Pod Time into S[RD] (R219). -/
def execCtTime (t : TileId) (w0 w1 : W64) (s : State) : Host.Outcome State Fault Refusal :=
  s.runUp (lathe .ctTime t.val w0 w1)

/-- CT FLAGS reads and clears TLE_VXFLAGS once the VX and RD queues are empty (R219). -/
def execCtFlags (t : TileId) (w0 w1 : W64) (s : State) : Host.Outcome State Fault Refusal :=
  s.runUp (lathe .flags t.val w0 w1)

/-- CT RANK returns the rank and rank count of the program (R228). -/
def execCtRank (t : TileId) (w0 w1 : W64) (s : State) : Host.Outcome State Fault Refusal :=
  s.runUp (lathe .rank t.val w0 w1)

end Sys2Proof.Machine
end

