-- ==== Sys2Proof/Machine/LatheMvSy.lean ====
section
/-! DEFINITION. Family: the MV and SY instructions (R210, R213 to R217). A command is the instruction whose words stand at the
tile's TLE_PC; what it does then and later is the tile engine's. -/

namespace Sys2Proof.Machine

/-- MV COPY moves bytes within the tile store and applies its signal on completion (R213). -/
def execMvCopy (t : TileId) (w0 w1 : W64) (s : State) : Host.Outcome State Fault Refusal :=
  s.runUp (lathe .copy t.val w0 w1)

/-- MV GET moves bytes from HBM memory into the tile store, verifying whole blocks (R213). -/
def execMvGet (t : TileId) (w0 w1 : W64) (s : State) : Host.Outcome State Fault Refusal :=
  s.runUp (lathe .get t.val w0 w1)

/-- MV PUT moves bytes from the tile store into HBM memory, recomputing block checks (R213). -/
def execMvPut (t : TileId) (w0 w1 : W64) (s : State) : Host.Outcome State Fault Refusal :=
  s.runUp (lathe .put t.val w0 w1)

/-- MV XPUT moves bytes into the tile store of another rank of the same program (R213). -/
def execMvXput (t : TileId) (w0 w1 : W64) (s : State) : Host.Outcome State Fault Refusal :=
  s.runUp (lathe .xput t.val w0 w1)

/-- MV DESC hands a DMA descriptor to the hub, which runs it independently of the queue (R214). -/
def execMvDesc (t : TileId) (w0 w1 : W64) (s : State) : Host.Outcome State Fault Refusal :=
  s.runUp (lathe .desc t.val w0 w1)

/-- SY WAIT holds its queue or the front end until a local counter reaches V (R216). -/
def execSyWait (t : TileId) (w0 w1 : W64) (s : State) : Host.Outcome State Fault Refusal :=
  s.runUp (lathe .wait t.val w0 w1)

/-- SY SIGNAL adds V to a local counter once earlier instructions have completed (R216). -/
def execSySignal (t : TileId) (w0 w1 : W64) (s : State) : Host.Outcome State Fault Refusal :=
  s.runUp (lathe .sySignal t.val w0 w1)

/-- SY RWAIT holds until a sync-object counter of the position reaches V (R272). -/
def execRwait (t : TileId) (w0 w1 : W64) (s : State) : Host.Outcome State Fault Refusal :=
  s.runUp (lathe .rwait t.val w0 w1)

/-- SY RSIGNAL adds V to a sync-object counter once earlier instructions have completed (R272). -/
def execRsignal (t : TileId) (w0 w1 : W64) (s : State) : Host.Outcome State Fault Refusal :=
  s.runUp (lathe .rsignal t.val w0 w1)

/-- SY DRAIN holds until every earlier instruction of the queue, or of all queues, has complet (R210). -/
def execSyDrain (t : TileId) (w0 w1 : W64) (s : State) : Host.Outcome State Fault Refusal :=
  s.runUp (lathe .drain t.val w0 w1)

end Sys2Proof.Machine
end

