-- ==== Sys2Proof/Machine/LatheMx.lean ====
section
/-! DEFINITION. Family: MX PASS and RD REDUCE (R157 to R177, R197 to R200, R211). A command is the instruction whose words stand at the
tile's TLE_PC; what it does then and later is the tile engine's. -/

namespace Sys2Proof.Machine

/-- An MX PASS multiplies A by B into the gang's accumulators under the Reproducible Arithmeti (R157). -/
def execPass (t : TileId) (w0 w1 : W64) (s : State) : Host.Outcome State Fault Refusal :=
  s.runUp (lathe .pass t.val w0 w1)

/-- RD REDUCE sum combines n input vectors in the fixed ORDER into one slice (R199). -/
def execReduceSum (t : TileId) (w0 w1 : W64) (s : State) : Host.Outcome State Fault Refusal :=
  s.runUp (lathe .reduceSum t.val w0 w1)

/-- RD REDUCE max takes the element-wise maximum of n vectors (R199). -/
def execReduceMax (t : TileId) (w0 w1 : W64) (s : State) : Host.Outcome State Fault Refusal :=
  s.runUp (lathe .reduceMax t.val w0 w1)

/-- RD REDUCE min takes the element-wise minimum of n vectors (R199). -/
def execReduceMin (t : TileId) (w0 w1 : W64) (s : State) : Host.Outcome State Fault Refusal :=
  s.runUp (lathe .reduceMin t.val w0 w1)

end Sys2Proof.Machine
end

