-- ==== Sys2Proof/Machine/LatheVx.lean ====
section
/-! DEFINITION. Family: the vector instructions (R183 to R196, R212). A command is the instruction whose words stand at the
tile's TLE_PC; what it does then and later is the tile engine's. -/

namespace Sys2Proof.Machine

/-- VX ADD adds two sources element by element with one rounding (R188). -/
def execVxAdd (t : TileId) (w0 w1 : W64) (s : State) : Host.Outcome State Fault Refusal :=
  s.runUp (lathe .vxAdd t.val w0 w1)

/-- VX SUB subtracts element by element with one rounding (R188). -/
def execVxSub (t : TileId) (w0 w1 : W64) (s : State) : Host.Outcome State Fault Refusal :=
  s.runUp (lathe .vxSub t.val w0 w1)

/-- VX MUL multiplies element by element with one rounding (R188). -/
def execVxMul (t : TileId) (w0 w1 : W64) (s : State) : Host.Outcome State Fault Refusal :=
  s.runUp (lathe .vxMul t.val w0 w1)

/-- VX FMA computes a × b + c with one rounding (R188). -/
def execVxFma (t : TileId) (w0 w1 : W64) (s : State) : Host.Outcome State Fault Refusal :=
  s.runUp (lathe .fma t.val w0 w1)

/-- VX DIV divides with a correctly rounded result (R188). -/
def execVxDiv (t : TileId) (w0 w1 : W64) (s : State) : Host.Outcome State Fault Refusal :=
  s.runUp (lathe .div t.val w0 w1)

/-- VX SQRT takes a correctly rounded square root (R188). -/
def execVxSqrt (t : TileId) (w0 w1 : W64) (s : State) : Host.Outcome State Fault Refusal :=
  s.runUp (lathe .sqrt t.val w0 w1)

/-- VX RSQRT takes a correctly rounded reciprocal square root in FP32 (R188). -/
def execVxRsqrt (t : TileId) (w0 w1 : W64) (s : State) : Host.Outcome State Fault Refusal :=
  s.runUp (lathe .rsqrt t.val w0 w1)

/-- VX FUNC EXP returns the correctly rounded exponential (R188). -/
def execVxExp (t : TileId) (w0 w1 : W64) (s : State) : Host.Outcome State Fault Refusal :=
  s.runUp (lathe .exp t.val w0 w1)

/-- VX FUNC EXP2 returns the correctly rounded base-2 exponential (R188). -/
def execVxExp2 (t : TileId) (w0 w1 : W64) (s : State) : Host.Outcome State Fault Refusal :=
  s.runUp (lathe .exp2 t.val w0 w1)

/-- VX FUNC LOG returns the correctly rounded natural logarithm (R188). -/
def execVxLog (t : TileId) (w0 w1 : W64) (s : State) : Host.Outcome State Fault Refusal :=
  s.runUp (lathe .log t.val w0 w1)

/-- VX FUNC LOG2 returns the correctly rounded base-2 logarithm (R188). -/
def execVxLog2 (t : TileId) (w0 w1 : W64) (s : State) : Host.Outcome State Fault Refusal :=
  s.runUp (lathe .log2 t.val w0 w1)

/-- VX FUNC TANH returns the correctly rounded hyperbolic tangent (R188). -/
def execVxTanh (t : TileId) (w0 w1 : W64) (s : State) : Host.Outcome State Fault Refusal :=
  s.runUp (lathe .tanh t.val w0 w1)

/-- VX FUNC SIGMOID returns the correctly rounded sigmoid (R188). -/
def execVxSigmoid (t : TileId) (w0 w1 : W64) (s : State) : Host.Outcome State Fault Refusal :=
  s.runUp (lathe .sigmoid t.val w0 w1)

/-- VX MIN returns the smaller element, ordering −0 below +0 and giving the canonical NaN (R189). -/
def execVxMin (t : TileId) (w0 w1 : W64) (s : State) : Host.Outcome State Fault Refusal :=
  s.runUp (lathe .vxMin t.val w0 w1)

/-- VX MAX returns the larger element under the same rules (R189). -/
def execVxMax (t : TileId) (w0 w1 : W64) (s : State) : Host.Outcome State Fault Refusal :=
  s.runUp (lathe .vxMax t.val w0 w1)

/-- VX ABS takes the magnitude of each element (R188). -/
def execVxAbs (t : TileId) (w0 w1 : W64) (s : State) : Host.Outcome State Fault Refusal :=
  s.runUp (lathe .abs t.val w0 w1)

/-- VX NEG negates each element (R188). -/
def execVxNeg (t : TileId) (w0 w1 : W64) (s : State) : Host.Outcome State Fault Refusal :=
  s.runUp (lathe .neg t.val w0 w1)

/-- VX CMP EQ writes one row of equality results into a predicate register (R189). -/
def execCmpEq (t : TileId) (w0 w1 : W64) (s : State) : Host.Outcome State Fault Refusal :=
  s.runUp (lathe .cmpEq t.val w0 w1)

/-- VX CMP LT writes one row of less-than results into a predicate register (R189). -/
def execCmpLt (t : TileId) (w0 w1 : W64) (s : State) : Host.Outcome State Fault Refusal :=
  s.runUp (lathe .cmpLt t.val w0 w1)

/-- VX CMP LE writes one row of less-or-equal results into a predicate register (R189). -/
def execCmpLe (t : TileId) (w0 w1 : W64) (s : State) : Host.Outcome State Fault Refusal :=
  s.runUp (lathe .cmpLe t.val w0 w1)

/-- VX CMP UN writes one row of unordered results into a predicate register (R189). -/
def execCmpUn (t : TileId) (w0 w1 : W64) (s : State) : Host.Outcome State Fault Refusal :=
  s.runUp (lathe .cmpUn t.val w0 w1)

/-- VX SEL takes SA where the predicate lane bit is 1 and SB otherwise (R186). -/
def execVxSel (t : TileId) (w0 w1 : W64) (s : State) : Host.Outcome State Fault Refusal :=
  s.runUp (lathe .sel t.val w0 w1)

/-- VX INT IADD adds INT32 elements (R186). -/
def execIadd (t : TileId) (w0 w1 : W64) (s : State) : Host.Outcome State Fault Refusal :=
  s.runUp (lathe .iadd t.val w0 w1)

/-- VX INT ISUB subtracts INT32 elements (R186). -/
def execIsub (t : TileId) (w0 w1 : W64) (s : State) : Host.Outcome State Fault Refusal :=
  s.runUp (lathe .isub t.val w0 w1)

/-- VX INT IMUL multiplies INT32 elements, keeping the low 32 bits (R186). -/
def execImul (t : TileId) (w0 w1 : W64) (s : State) : Host.Outcome State Fault Refusal :=
  s.runUp (lathe .imul t.val w0 w1)

/-- VX INT IMIN takes the smaller INT32 element (R186). -/
def execImin (t : TileId) (w0 w1 : W64) (s : State) : Host.Outcome State Fault Refusal :=
  s.runUp (lathe .imin t.val w0 w1)

/-- VX INT IMAX takes the larger INT32 element (R186). -/
def execImax (t : TileId) (w0 w1 : W64) (s : State) : Host.Outcome State Fault Refusal :=
  s.runUp (lathe .imax t.val w0 w1)

/-- VX INT AND takes the bitwise AND of INT32 elements (R186). -/
def execVxAnd (t : TileId) (w0 w1 : W64) (s : State) : Host.Outcome State Fault Refusal :=
  s.runUp (lathe .vxAnd t.val w0 w1)

/-- VX INT OR takes the bitwise OR of INT32 elements (R186). -/
def execVxOr (t : TileId) (w0 w1 : W64) (s : State) : Host.Outcome State Fault Refusal :=
  s.runUp (lathe .vxOr t.val w0 w1)

/-- VX INT XOR takes the bitwise XOR of INT32 elements (R186). -/
def execVxXor (t : TileId) (w0 w1 : W64) (s : State) : Host.Outcome State Fault Refusal :=
  s.runUp (lathe .vxXor t.val w0 w1)

/-- VX INT SHL shifts left by the low 5 bits of the count (R189). -/
def execVxShl (t : TileId) (w0 w1 : W64) (s : State) : Host.Outcome State Fault Refusal :=
  s.runUp (lathe .vxShl t.val w0 w1)

/-- VX INT SHR shifts right logically by the low 5 bits of the count (R189). -/
def execVxShr (t : TileId) (w0 w1 : W64) (s : State) : Host.Outcome State Fault Refusal :=
  s.runUp (lathe .vxShr t.val w0 w1)

/-- VX INT SAR shifts right arithmetically by the low 5 bits of the count (R189). -/
def execVxSar (t : TileId) (w0 w1 : W64) (s : State) : Host.Outcome State Fault Refusal :=
  s.runUp (lathe .vxSar t.val w0 w1)

/-- VX I2F converts INT32 to FP32 rounding to nearest even (R189). -/
def execI2f (t : TileId) (w0 w1 : W64) (s : State) : Host.Outcome State Fault Refusal :=
  s.runUp (lathe .i2f t.val w0 w1)

/-- VX F2I converts FP32 to INT32 toward zero, saturating and turning NaN into 0 (R189). -/
def execF2i (t : TileId) (w0 w1 : W64) (s : State) : Host.Outcome State Fault Refusal :=
  s.runUp (lathe .f2i t.val w0 w1)

/-- VX CVT converts between formats with one rounding, computing MX block scales and drawing r (R190). -/
def execCvt (t : TileId) (w0 w1 : W64) (s : State) : Host.Outcome State Fault Refusal :=
  s.runUp (lathe .cvt t.val w0 w1)

/-- VX MOV copies 32-bit view elements (R187). -/
def execVxMov (t : TileId) (w0 w1 : W64) (s : State) : Host.Outcome State Fault Refusal :=
  s.runUp (lathe .vxMov t.val w0 w1)

/-- VX BCAST row copies one source row into every covered row (R187). -/
def execBcastRow (t : TileId) (w0 w1 : W64) (s : State) : Host.Outcome State Fault Refusal :=
  s.runUp (lathe .bcastRow t.val w0 w1)

/-- VX BCAST column copies one word of each row across that row (R187). -/
def execBcastColumn (t : TileId) (w0 w1 : W64) (s : State) : Host.Outcome State Fault Refusal :=
  s.runUp (lathe .bcastColumn t.val w0 w1)

/-- VX TRANS transposes a 64 × 64 buffer (R187). -/
def execTrans (t : TileId) (w0 w1 : W64) (s : State) : Host.Outcome State Fault Refusal :=
  s.runUp (lathe .trans t.val w0 w1)

/-- VX RAND RAW writes drawn Philox words as INT32 and advances the stream counter (R196). -/
def execRandRaw (t : TileId) (w0 w1 : W64) (s : State) : Host.Outcome State Fault Refusal :=
  s.runUp (lathe .randRaw t.val w0 w1)

/-- VX RAND UNIF writes uniform FP32 values in [0, 1) from drawn words (R196). -/
def execRandUnif (t : TileId) (w0 w1 : W64) (s : State) : Host.Outcome State Fault Refusal :=
  s.runUp (lathe .randUnif t.val w0 w1)

/-- VX LD loads packed tile-store rows, and MX scales, into a tile buffer (R187). -/
def execVxLd (t : TileId) (w0 w1 : W64) (s : State) : Host.Outcome State Fault Refusal :=
  s.runUp (lathe .vxLd t.val w0 w1)

/-- VX ST writes a tile buffer, and its scales, to the tile store in packed layout (R187). -/
def execVxSt (t : TileId) (w0 w1 : W64) (s : State) : Host.Outcome State Fault Refusal :=
  s.runUp (lathe .vxSt t.val w0 w1)

end Sys2Proof.Machine
end

