-- ==== Sys2Proof/Machine/Parity.lean ====
section
/-! DEFINITION. Family: words that fail their parity or ECC (R134 to R136, R182, R222, R241). -/

namespace Sys2Proof.Machine

/-! ## Tiles -/

/-- The class of a code of TLE_ERR.QUEUE (Table 6.13). -/
def classOfCode (k : Nat) : LClass := match k with | 0 => .mx | 1 => .vx | 2 => .rd | 3 => .mv | 4 => .sy | _ => .ct

/-- The offset of the instruction of a class that a tile has in hand: in progress, at the head of its queue, or at the front end. -/
def Tile.metBy (t : Tile) (q : LClass) : Nat :=
  let front := t.get TLE_PC_PC
  match q with
  | .mx => (((t.passes ++ t.mx).head?).map (·.off)).getD front
  | .vx => ((t.vx.head?).map (·.off)).getD front
  | .rd => ((t.rd.head?).map (·.off)).getD front
  | .mv => (((t.moves.map (·.entry) ++ t.mv).head?).map (·.off)).getD front
  | _ => (t.front.map (·.off)).getD front

/-- The instruction that met a bad word of a tile store: the transfer of this tile that read it, else the pass in progress, else what the
front end has in hand. DEDUCED (notes/assumptions/179). -/
def Dev.storeReader (d : Dev) (n : Nat) (r : Option Requester) : LClass × Nat :=
  let t := d.tile n
  match r with
  | some (.move m k) => if m = n then (.mv, ((t.moves[k]?).map (·.entry.off)).getD (t.metBy .mv)) else (.ct, t.metBy .ct)
  | some (.desc m k) => if m = n then (.mv, ((t.descs[k]?).map (·.off)).getD (t.metBy .mv)) else (.ct, t.metBy .ct)
  | _ => if t.passes.isEmpty then (.ct, t.metBy .ct) else (.mx, t.metBy .mx)

/-- A tile that runs stops with CAUSE = PARITY (R182, R222). -/
def tileParity (n : Nat) (q : LClass) (off : Nat) : Prog :=
  .look fun d => when (decide ((d.tile n).state = tRUNNING) || decide ((d.tile n).state = tHALTED)) (exception n cPARITY q off)

/-! ## What the consumer of a bad word does (R136) -/

/-- What the consumers of a word of HBM or of the tier do. A guest page that no request of an engine was reading is the spill's (Table 4.4). -/
def memoryConsumers (pa : Nat) (r : Option Requester) : Prog :=
  .look fun d => all [
    placeElsewhere pa,
    when (decide (d.phase = phPROMOTING)) (each (d.promotionList.filter fun e =>
      decide (e.loc ≤ pa) && decide (pa < e.loc + e.len * 4096) && !(d.shore.done_.contains (e.region, e.shard))) otherSource),
    when r.isNone (each (d.mmu.guests.filter fun g => g.pages.any fun p =>
      decide (p.hbm = some (pa / pageBytes * pageBytes)) || decide (p.home = some (pa / pageBytes * pageBytes))) fun g => discardGuest g.ctx),
    when (d.mmu.jobPages.any fun p => decide (p.2 = pa / pageBytes * pageBytes)) positionLost]

/-! ## The command -/

/-- A bad word of physical memory: it counts against its stack or channel, a channel that reaches 16 going OUT (R241), or stops the tile
whose store it is in. -/
def countBad (pa : Nat) (r : Option Requester) : Prog :=
  .look fun d => match d.phys pa with
    | .hbm | .hbmCheck => .seq (bump MEM_HBM_ERR_UE)
        (record 0x0B 0 (pack [(1, pa / 4096 % 32), (1, 1), (1, 0), (4, d.get MEM_HBM_ERR_UE + 1)]))
    | .ddr ch | .ddrCheck ch => .seq (bump (MEM_DDR_CH_UE ch)) <|
        if d.get (MEM_DDR_CH_UE ch) + 1 = 16 ∧ d.get (MEM_DDR_CH_STATE ch) = 1 then channelOut ch
        else record 0x0B 1 (pack [(1, ch), (1, d.get (MEM_DDR_CH_STATE ch)), (1, 0), (4, d.get (MEM_DDR_CH_UE ch) + 1)])
    | .tile n => tileParity n (d.storeReader n r).1 (d.storeReader n r).2
    | _ => .done

/-- A word that passes when it is read again: a corrected error of on-chip memory (R134). Table 16.2 has no counter for it
(notes/assumptions/178). -/
def corrected : Prog := modObs fun o => { o with sramCorrected := o.sramCorrected + 1 }

/-- The unit of an engine whose own state fails its parity, and the rung that its reset takes (Table 14.3). -/
def engineReset (u : Nat) : Prog := if 0x80 ≤ u ∧ u ≤ 0x83 then watchdog u 1 6 else watchdog uCHIP 3 6

/-- A word that fails (R134, R136): the request that found it is answered FAULT, a PARITY_UE event is raised, and its consumer acts. One in on-chip
memory that passes when it is read again counts as corrected. -/
def execMemoryUe (place : UePlace) (r : Option Requester) (passes : Bool) (s : State) : Host.Outcome State Fault Refusal :=
  s.runUp <| .look fun d =>
    let answer_ : Prog := match r with
      | some q => answerRequester q stFAULT
      | none => .done
    match place with
    | .phys pa => (match d.phys pa with
      | .none | .ctl => .done
      | .tile _ => if passes then corrected else all [integrityOwn 1, countBad pa r, answer_]
      | _ => when (!passes) (all [integrityOwn 1, countBad pa r, answer_, memoryConsumers pa r]))
    | .tile n cls =>
      if passes then corrected
      else all [integrityOwn 1, tileParity n (classOfCode cls) ((d.tile n).metBy (classOfCode cls)), answer_]
    | .record i => when (!passes) (match d.wit.queue[i]? with
      | some x => all [integrityOwn 1, modWit fun w => { w with queue := w.queue.eraseIdx i }, countQueue, dealt x.slot x.dom x.step x.index]
      | none => .done)
    | .engine u => if passes then corrected else all [integrityOwn 1, answer_, engineReset u]

end Sys2Proof.Machine
end

