-- ==== Sys2Proof/Machine/Dispatch.lean ====
section
/-! DEFINITION. What each command does: one arm per constructor of Instr. -/

namespace Sys2Proof.Machine

def exec (i : Instr) (s : State) : Host.Outcome State Fault Refusal :=
  match i with
  | .cutReceived n m => Sys2Proof.Machine.execCutReceived n m s
  | .context n m => Sys2Proof.Machine.execContext n m s
  | .drainData n m => Sys2Proof.Machine.execDrainData n m s
  | .granuleStored n g => Sys2Proof.Machine.execGranuleStored n g s
  | .dirtyMap n m => Sys2Proof.Machine.execDirtyMap n m s
  | .courseDone n m => Sys2Proof.Machine.execCourseDone n m s
  | .abandon n m => Sys2Proof.Machine.execAbandon n m s
  | .health n m => Sys2Proof.Machine.execHealth n m s
  | .fenceDone n m => Sys2Proof.Machine.execFenceDone n m s
  | .witSample n m => Sys2Proof.Machine.execWitSample n m s
  | .slotFenceTimeout n => Sys2Proof.Machine.execSlotFenceTimeout n s
  | .courseOpen m => Sys2Proof.Machine.execCourseOpen m s
  | .courseDecide m => Sys2Proof.Machine.execCourseDecide m s
  | .earlyReq m => Sys2Proof.Machine.execEarlyReq m s
  | .vote m => Sys2Proof.Machine.execVote m s
  | .groupDigest m => Sys2Proof.Machine.execGroupDigest m s
  | .mirrorAck m => Sys2Proof.Machine.execMirrorAck m s
  | .dirtyReqRepeat n => Sys2Proof.Machine.execDirtyReqRepeat n s
  | .drainReqTimeout n seq => Sys2Proof.Machine.execDrainReqTimeout n seq s
  | .drainProgressTimeout n => Sys2Proof.Machine.execDrainProgressTimeout n s
  | .decisionRec m => Sys2Proof.Machine.execDecisionRec m s
  | .decisionAck m => Sys2Proof.Machine.execDecisionAck m s
  | .lostReport m => Sys2Proof.Machine.execLostReport m s
  | .shoreNotice m => Sys2Proof.Machine.execShoreNotice m s
  | .rewindPlan m => Sys2Proof.Machine.execRewindPlan m s
  | .rewound m => Sys2Proof.Machine.execRewound m s
  | .admitOrder m => Sys2Proof.Machine.execAdmitOrder m s
  | .repointRequest receiver step seq attempt addr bytes => Sys2Proof.Machine.execRepointRequest receiver step seq attempt addr bytes s
  | .witnessCompare wrong => Sys2Proof.Machine.execWitnessCompare wrong s
  | .divergeNotice pos step => Sys2Proof.Machine.execDivergeNotice pos step s
  | .protFault r => Sys2Proof.Machine.execProtFault r s
  | .watchTimeout n => Sys2Proof.Machine.execWatchTimeout n s
  | .peerData m => Sys2Proof.Machine.execPeerData m s
  | .fabWrite p m mark => Sys2Proof.Machine.execFabWrite p m mark s
  | .fabSignal p m => Sys2Proof.Machine.execFabSignal p m s
  | .fabRead p m => Sys2Proof.Machine.execFabRead p m s
  | .fabResp p m => Sys2Proof.Machine.execFabResp p m s
  | .hostClose m => Sys2Proof.Machine.execHostClose m s
  | .regRd m => Sys2Proof.Machine.execRegRd m s
  | .regWr m => Sys2Proof.Machine.execRegWr m s
  | .agentRd m => Sys2Proof.Machine.execAgentRd m s
  | .agentWr m => Sys2Proof.Machine.execAgentWr m s
  | .memRd m => Sys2Proof.Machine.execMemRd m s
  | .memWr m => Sys2Proof.Machine.execMemWr m s
  | .pkgPut m => Sys2Proof.Machine.execPkgPut m s
  | .progLoad m => Sys2Proof.Machine.execProgLoad m s
  | .modeCommand m => Sys2Proof.Machine.execModeCommand m s
  | .jobAdmit m => Sys2Proof.Machine.execJobAdmit m s
  | .teardown m => Sys2Proof.Machine.execTeardown m s
  | .guestAdmit m => Sys2Proof.Machine.execGuestAdmit m s
  | .guestEnd m => Sys2Proof.Machine.execGuestEnd m s
  | .courseCmdOpen m => Sys2Proof.Machine.execCourseCmdOpen m s
  | .courseCmdAbandon m => Sys2Proof.Machine.execCourseCmdAbandon m s
  | .courseCmdRoot m => Sys2Proof.Machine.execCourseCmdRoot m s
  | .courseCmdQuery m => Sys2Proof.Machine.execCourseCmdQuery m s
  | .shoreDeclare m => Sys2Proof.Machine.execShoreDeclare m s
  | .shoreHandback m => Sys2Proof.Machine.execShoreHandback m s
  | .logRdCirculating m => Sys2Proof.Machine.execLogRdCirculating m s
  | .logRdFoundation m => Sys2Proof.Machine.execLogRdFoundation m s
  | .logRdLive m => Sys2Proof.Machine.execLogRdLive m s
  | .tallyRd m => Sys2Proof.Machine.execTallyRd m s
  | .dumpCommand m => Sys2Proof.Machine.execDumpCommand m s
  | .dumpCommandAgent m => Sys2Proof.Machine.execDumpCommandAgent m s
  | .haltCommand m => Sys2Proof.Machine.execHaltCommand m s
  | .haltReleaseCommand m => Sys2Proof.Machine.execHaltReleaseCommand m s
  | .scan m => Sys2Proof.Machine.execScan m s
  | .authzChange m => Sys2Proof.Machine.execAuthzChange m s
  | .authzReset m => Sys2Proof.Machine.execAuthzReset m s
  | .fwPut m => Sys2Proof.Machine.execFwPut m s
  | .fwAccept m => Sys2Proof.Machine.execFwAccept m s
  | .attest m => Sys2Proof.Machine.execAttest m s
  | .farAck m => Sys2Proof.Machine.execFarAck m s
  | .startJob m => Sys2Proof.Machine.execStartJob m s
  | .startAbort m => Sys2Proof.Machine.execStartAbort m s
  | .join m => Sys2Proof.Machine.execJoin m s
  | .memberMap m => Sys2Proof.Machine.execMemberMap m s
  | .ozPwrokRise rack tray enrolN hbm dimms => Sys2Proof.Machine.execOzPwrokRise rack tray enrolN hbm dimms s
  | .ozPwrokFall => Sys2Proof.Machine.execOzPwrokFall s
  | .bootRun readable => Sys2Proof.Machine.execBootRun readable s
  | .shardVerifyDone => Sys2Proof.Machine.execShardVerifyDone s
  | .recovery f => Sys2Proof.Machine.execRecovery f s
  | .recoveryPartnerTimeout => Sys2Proof.Machine.execRecoveryPartnerTimeout s
  | .workingKeyRoll => Sys2Proof.Machine.execWorkingKeyRoll s
  | .postAutostart => Sys2Proof.Machine.execPostAutostart s
  | .hubPostGo v => Sys2Proof.Machine.execHubPostGo v s
  | .postEnd firstFail => Sys2Proof.Machine.execPostEnd firstFail s
  | .roleTriggerDequeue => Sys2Proof.Machine.execRoleTriggerDequeue s
  | .bankedWakeDone => Sys2Proof.Machine.execBankedWakeDone s
  | .agentReset n => Sys2Proof.Machine.execAgentReset n s
  | .agentSelftestDone n pass => Sys2Proof.Machine.execAgentSelftestDone n pass s
  | .agentTrayTrained n => Sys2Proof.Machine.execAgentTrayTrained n s
  | .agentTrayLost n => Sys2Proof.Machine.execAgentTrayLost n s
  | .bind n m => Sys2Proof.Machine.execBind n m s
  | .release n m => Sys2Proof.Machine.execRelease n m s
  | .load n m => Sys2Proof.Machine.execLoad n m s
  | .quoinAdmit n m => Sys2Proof.Machine.execQuoinAdmit n m s
  | .quoinRegRd n m ty => Sys2Proof.Machine.execQuoinRegRd n m ty s
  | .quoinRegWr n m => Sys2Proof.Machine.execQuoinRegWr n m s
  | .courseArm n m => Sys2Proof.Machine.execCourseArm n m s
  | .markReq n m => Sys2Proof.Machine.execMarkReq n m s
  | .drainReq n m => Sys2Proof.Machine.execDrainReq n m s
  | .drainAck n m => Sys2Proof.Machine.execDrainAck n m s
  | .agentAbandon n m => Sys2Proof.Machine.execAgentAbandon n m s
  | .commitNote n m => Sys2Proof.Machine.execCommitNote n m s
  | .dirtyReq n m => Sys2Proof.Machine.execDirtyReq n m s
  | .mkey n m => Sys2Proof.Machine.execMkey n m s
  | .witKey n m => Sys2Proof.Machine.execWitKey n m s
  | .quoinSignal n m => Sys2Proof.Machine.execQuoinSignal n m s
  | .counterSet n m => Sys2Proof.Machine.execCounterSet n m s
  | .dumpReq n m => Sys2Proof.Machine.execDumpReq n m s
  | .fence n m => Sys2Proof.Machine.execFence n m s
  | .unfence n m => Sys2Proof.Machine.execUnfence n m s
  | .contextResp n m => Sys2Proof.Machine.execContextResp n m s
  | .contextRetryTimeout n => Sys2Proof.Machine.execContextRetryTimeout n s
  | .qagStepWrite n v => Sys2Proof.Machine.execQagStepWrite n v s
  | .qagKick n => Sys2Proof.Machine.execQagKick n s
  | .qagFatal n code => Sys2Proof.Machine.execQagFatal n code s
  | .qagFenceReq n => Sys2Proof.Machine.execQagFenceReq n s
  | .qagQuiet n => Sys2Proof.Machine.execQagQuiet n s
  | .fenceQuietTimeout n => Sys2Proof.Machine.execFenceQuietTimeout n s
  | .qagCntAdd n v => Sys2Proof.Machine.execQagCntAdd n v s
  | .qagWitPush n v => Sys2Proof.Machine.execQagWitPush n v s
  | .hostStateWrite n addr bs => Sys2Proof.Machine.execHostStateWrite n addr bs s
  | .cowCopyDone n g => Sys2Proof.Machine.execCowCopyDone n g s
  | .heldWriteRelease n k => Sys2Proof.Machine.execHeldWriteRelease n k s
  | .stallAbandon n => Sys2Proof.Machine.execStallAbandon n s
  | .blockConsume n addr => Sys2Proof.Machine.execBlockConsume n addr s
  | .contributionReceive n pos seq24 slot mark bs => Sys2Proof.Machine.execContributionReceive n pos seq24 slot mark bs s
  | .heartbeatTick n => Sys2Proof.Machine.execHeartbeatTick n s
  | .healthTick n => Sys2Proof.Machine.execHealthTick n s
  | .haltNLow n => Sys2Proof.Machine.execHaltNLow n s
  | .haltNHigh n => Sys2Proof.Machine.execHaltNHigh n s
  | .hello n m => Sys2Proof.Machine.execHello n m s
  | .quoinResp n m => Sys2Proof.Machine.execQuoinResp n m s
  | .heartbeat n m => Sys2Proof.Machine.execHeartbeat n m s
  | .heartbeatDeadline n => Sys2Proof.Machine.execHeartbeatDeadline n s
  | .fatal n m => Sys2Proof.Machine.execFatal n m s
  | .dump n m => Sys2Proof.Machine.execDump n m s
  | .slotPgoodFall n => Sys2Proof.Machine.execSlotPgoodFall n s
  | .slotPgoodRise n => Sys2Proof.Machine.execSlotPgoodRise n s
  | .guestSpillDone => Sys2Proof.Machine.execGuestSpillDone s
  | .courseQuery m => Sys2Proof.Machine.execCourseQuery m s
  | .drainComplete => Sys2Proof.Machine.execDrainComplete s
  | .rootSilentTimeout => Sys2Proof.Machine.execRootSilentTimeout s
  | .crsCtrlOpen v => Sys2Proof.Machine.execCrsCtrlOpen v s
  | .crsCtrlAbandon v => Sys2Proof.Machine.execCrsCtrlAbandon v s
  | .crsCtrlEnClear v => Sys2Proof.Machine.execCrsCtrlEnClear v s
  | .decideWindowEnd => Sys2Proof.Machine.execDecideWindowEnd s
  | .rewindTimeout => Sys2Proof.Machine.execRewindTimeout s
  | .flightWaitEnd => Sys2Proof.Machine.execFlightWaitEnd s
  | .promotionStart => Sys2Proof.Machine.execPromotionStart s
  | .promotionDone => Sys2Proof.Machine.execPromotionDone s
  | .shrCtrlDeclare v => Sys2Proof.Machine.execShrCtrlDeclare v s
  | .shrCtrlHandback v => Sys2Proof.Machine.execShrCtrlHandback v s
  | .handbackPgoodTimeout => Sys2Proof.Machine.execHandbackPgoodTimeout s
  | .handbackHelloTimeout => Sys2Proof.Machine.execHandbackHelloTimeout s
  | .handbackPassDone => Sys2Proof.Machine.execHandbackPassDone s
  | .xcnCtrlGo v => Sys2Proof.Machine.execXcnCtrlGo v s
  | .xcnDetourGo v => Sys2Proof.Machine.execXcnDetourGo v s
  | .xcnQueuedStart => Sys2Proof.Machine.execXcnQueuedStart s
  | .xcnStatusFall m bad => Sys2Proof.Machine.execXcnStatusFall m bad s
  | .xcnMoveTimeout => Sys2Proof.Machine.execXcnMoveTimeout s
  | .xcnPwrEnWrite v => Sys2Proof.Machine.execXcnPwrEnWrite v s
  | .xcnPgoodRise read m => Sys2Proof.Machine.execXcnPgoodRise read m s
  | .xcnPgoodFall => Sys2Proof.Machine.execXcnPgoodFall s
  | .witGateTimeout => Sys2Proof.Machine.execWitGateTimeout s
  | .seed m => Sys2Proof.Machine.execSeed m s
  | .tileEnWrite t v => Sys2Proof.Machine.execTileEnWrite t v s
  | .tileStop t v => Sys2Proof.Machine.execTileStop t v s
  | .tileStopDone t => Sys2Proof.Machine.execTileStopDone t s
  | .tleErrValidClear t v => Sys2Proof.Machine.execTleErrValidClear t v s
  | .gangChangeApply t => Sys2Proof.Machine.execGangChangeApply t s
  | .waitLimitExpire t q => Sys2Proof.Machine.execWaitLimitExpire t q s
  | .waitSatisfied t q => Sys2Proof.Machine.execWaitSatisfied t q s
  | .pass t w0 w1 => Sys2Proof.Machine.execPass t w0 w1 s
  | .passComplete t g => Sys2Proof.Machine.execPassComplete t g s
  | .vxAdd t w0 w1 => Sys2Proof.Machine.execVxAdd t w0 w1 s
  | .vxSub t w0 w1 => Sys2Proof.Machine.execVxSub t w0 w1 s
  | .vxMul t w0 w1 => Sys2Proof.Machine.execVxMul t w0 w1 s
  | .vxFma t w0 w1 => Sys2Proof.Machine.execVxFma t w0 w1 s
  | .vxDiv t w0 w1 => Sys2Proof.Machine.execVxDiv t w0 w1 s
  | .vxSqrt t w0 w1 => Sys2Proof.Machine.execVxSqrt t w0 w1 s
  | .vxRsqrt t w0 w1 => Sys2Proof.Machine.execVxRsqrt t w0 w1 s
  | .vxExp t w0 w1 => Sys2Proof.Machine.execVxExp t w0 w1 s
  | .vxExp2 t w0 w1 => Sys2Proof.Machine.execVxExp2 t w0 w1 s
  | .vxLog t w0 w1 => Sys2Proof.Machine.execVxLog t w0 w1 s
  | .vxLog2 t w0 w1 => Sys2Proof.Machine.execVxLog2 t w0 w1 s
  | .vxTanh t w0 w1 => Sys2Proof.Machine.execVxTanh t w0 w1 s
  | .vxSigmoid t w0 w1 => Sys2Proof.Machine.execVxSigmoid t w0 w1 s
  | .vxMin t w0 w1 => Sys2Proof.Machine.execVxMin t w0 w1 s
  | .vxMax t w0 w1 => Sys2Proof.Machine.execVxMax t w0 w1 s
  | .vxAbs t w0 w1 => Sys2Proof.Machine.execVxAbs t w0 w1 s
  | .vxNeg t w0 w1 => Sys2Proof.Machine.execVxNeg t w0 w1 s
  | .cmpEq t w0 w1 => Sys2Proof.Machine.execCmpEq t w0 w1 s
  | .cmpLt t w0 w1 => Sys2Proof.Machine.execCmpLt t w0 w1 s
  | .cmpLe t w0 w1 => Sys2Proof.Machine.execCmpLe t w0 w1 s
  | .cmpUn t w0 w1 => Sys2Proof.Machine.execCmpUn t w0 w1 s
  | .vxSel t w0 w1 => Sys2Proof.Machine.execVxSel t w0 w1 s
  | .iadd t w0 w1 => Sys2Proof.Machine.execIadd t w0 w1 s
  | .isub t w0 w1 => Sys2Proof.Machine.execIsub t w0 w1 s
  | .imul t w0 w1 => Sys2Proof.Machine.execImul t w0 w1 s
  | .imin t w0 w1 => Sys2Proof.Machine.execImin t w0 w1 s
  | .imax t w0 w1 => Sys2Proof.Machine.execImax t w0 w1 s
  | .vxAnd t w0 w1 => Sys2Proof.Machine.execVxAnd t w0 w1 s
  | .vxOr t w0 w1 => Sys2Proof.Machine.execVxOr t w0 w1 s
  | .vxXor t w0 w1 => Sys2Proof.Machine.execVxXor t w0 w1 s
  | .vxShl t w0 w1 => Sys2Proof.Machine.execVxShl t w0 w1 s
  | .vxShr t w0 w1 => Sys2Proof.Machine.execVxShr t w0 w1 s
  | .vxSar t w0 w1 => Sys2Proof.Machine.execVxSar t w0 w1 s
  | .i2f t w0 w1 => Sys2Proof.Machine.execI2f t w0 w1 s
  | .f2i t w0 w1 => Sys2Proof.Machine.execF2i t w0 w1 s
  | .cvt t w0 w1 => Sys2Proof.Machine.execCvt t w0 w1 s
  | .vxMov t w0 w1 => Sys2Proof.Machine.execVxMov t w0 w1 s
  | .bcastRow t w0 w1 => Sys2Proof.Machine.execBcastRow t w0 w1 s
  | .bcastColumn t w0 w1 => Sys2Proof.Machine.execBcastColumn t w0 w1 s
  | .trans t w0 w1 => Sys2Proof.Machine.execTrans t w0 w1 s
  | .randRaw t w0 w1 => Sys2Proof.Machine.execRandRaw t w0 w1 s
  | .randUnif t w0 w1 => Sys2Proof.Machine.execRandUnif t w0 w1 s
  | .vxLd t w0 w1 => Sys2Proof.Machine.execVxLd t w0 w1 s
  | .vxSt t w0 w1 => Sys2Proof.Machine.execVxSt t w0 w1 s
  | .reduceSum t w0 w1 => Sys2Proof.Machine.execReduceSum t w0 w1 s
  | .reduceMax t w0 w1 => Sys2Proof.Machine.execReduceMax t w0 w1 s
  | .reduceMin t w0 w1 => Sys2Proof.Machine.execReduceMin t w0 w1 s
  | .mvCopy t w0 w1 => Sys2Proof.Machine.execMvCopy t w0 w1 s
  | .mvGet t w0 w1 => Sys2Proof.Machine.execMvGet t w0 w1 s
  | .mvPut t w0 w1 => Sys2Proof.Machine.execMvPut t w0 w1 s
  | .mvXput t w0 w1 => Sys2Proof.Machine.execMvXput t w0 w1 s
  | .mvDesc t w0 w1 => Sys2Proof.Machine.execMvDesc t w0 w1 s
  | .mvTransferComplete t k => Sys2Proof.Machine.execMvTransferComplete t k s
  | .syWait t w0 w1 => Sys2Proof.Machine.execSyWait t w0 w1 s
  | .sySignal t w0 w1 => Sys2Proof.Machine.execSySignal t w0 w1 s
  | .rwait t w0 w1 => Sys2Proof.Machine.execRwait t w0 w1 s
  | .rsignal t w0 w1 => Sys2Proof.Machine.execRsignal t w0 w1 s
  | .syDrain t w0 w1 => Sys2Proof.Machine.execSyDrain t w0 w1 s
  | .ctAdd t w0 w1 => Sys2Proof.Machine.execCtAdd t w0 w1 s
  | .ctSub t w0 w1 => Sys2Proof.Machine.execCtSub t w0 w1 s
  | .ctMul t w0 w1 => Sys2Proof.Machine.execCtMul t w0 w1 s
  | .ctAnd t w0 w1 => Sys2Proof.Machine.execCtAnd t w0 w1 s
  | .ctOr t w0 w1 => Sys2Proof.Machine.execCtOr t w0 w1 s
  | .ctXor t w0 w1 => Sys2Proof.Machine.execCtXor t w0 w1 s
  | .ctShl t w0 w1 => Sys2Proof.Machine.execCtShl t w0 w1 s
  | .ctShr t w0 w1 => Sys2Proof.Machine.execCtShr t w0 w1 s
  | .ctSar t w0 w1 => Sys2Proof.Machine.execCtSar t w0 w1 s
  | .ctSlt t w0 w1 => Sys2Proof.Machine.execCtSlt t w0 w1 s
  | .ctSltu t w0 w1 => Sys2Proof.Machine.execCtSltu t w0 w1 s
  | .ctMin t w0 w1 => Sys2Proof.Machine.execCtMin t w0 w1 s
  | .ctMax t w0 w1 => Sys2Proof.Machine.execCtMax t w0 w1 s
  | .ctMov t w0 w1 => Sys2Proof.Machine.execCtMov t w0 w1 s
  | .addrFromS t w0 w1 => Sys2Proof.Machine.execAddrFromS t w0 w1 s
  | .addrToS t w0 w1 => Sys2Proof.Machine.execAddrToS t w0 w1 s
  | .addrAdd t w0 w1 => Sys2Proof.Machine.execAddrAdd t w0 w1 s
  | .addrBaseAdd t w0 w1 => Sys2Proof.Machine.execAddrBaseAdd t w0 w1 s
  | .addrStrideSet t w0 w1 => Sys2Proof.Machine.execAddrStrideSet t w0 w1 s
  | .jmp t w0 w1 => Sys2Proof.Machine.execJmp t w0 w1 s
  | .beq t w0 w1 => Sys2Proof.Machine.execBeq t w0 w1 s
  | .bne t w0 w1 => Sys2Proof.Machine.execBne t w0 w1 s
  | .blt t w0 w1 => Sys2Proof.Machine.execBlt t w0 w1 s
  | .bge t w0 w1 => Sys2Proof.Machine.execBge t w0 w1 s
  | .bltu t w0 w1 => Sys2Proof.Machine.execBltu t w0 w1 s
  | .bgeu t w0 w1 => Sys2Proof.Machine.execBgeu t w0 w1 s
  | .ctLoop t w0 w1 => Sys2Proof.Machine.execCtLoop t w0 w1 s
  | .bp t w0 w1 => Sys2Proof.Machine.execBp t w0 w1 s
  | .pset t w0 w1 => Sys2Proof.Machine.execPset t w0 w1 s
  | .pget t w0 w1 => Sys2Proof.Machine.execPget t w0 w1 s
  | .pand t w0 w1 => Sys2Proof.Machine.execPand t w0 w1 s
  | .por t w0 w1 => Sys2Proof.Machine.execPor t w0 w1 s
  | .pxor t w0 w1 => Sys2Proof.Machine.execPxor t w0 w1 s
  | .pnot t w0 w1 => Sys2Proof.Machine.execPnot t w0 w1 s
  | .ctLd t w0 w1 => Sys2Proof.Machine.execCtLd t w0 w1 s
  | .ctSt t w0 w1 => Sys2Proof.Machine.execCtSt t w0 w1 s
  | .ctNop t w0 w1 => Sys2Proof.Machine.execCtNop t w0 w1 s
  | .endProgram t w0 w1 => Sys2Proof.Machine.execEndProgram t w0 w1 s
  | .ctBrk t w0 w1 => Sys2Proof.Machine.execCtBrk t w0 w1 s
  | .ctStep t w0 w1 => Sys2Proof.Machine.execCtStep t w0 w1 s
  | .cget t w0 w1 => Sys2Proof.Machine.execCget t w0 w1 s
  | .phxld t w0 w1 => Sys2Proof.Machine.execPhxld t w0 w1 s
  | .phxst t w0 w1 => Sys2Proof.Machine.execPhxst t w0 w1 s
  | .ctGang t w0 w1 => Sys2Proof.Machine.execCtGang t w0 w1 s
  | .ctTime t w0 w1 => Sys2Proof.Machine.execCtTime t w0 w1 s
  | .ctFlags t w0 w1 => Sys2Proof.Machine.execCtFlags t w0 w1 s
  | .ctRank t w0 w1 => Sys2Proof.Machine.execCtRank t w0 w1 s
  | .mmuFault r => Sys2Proof.Machine.execMmuFault r s
  | .mmuFresumeResume v => Sys2Proof.Machine.execMmuFresumeResume v s
  | .mmuFresumeAbort v => Sys2Proof.Machine.execMmuFresumeAbort v s
  | .mmuInvPage v => Sys2Proof.Machine.execMmuInvPage v s
  | .mmuInvContext v => Sys2Proof.Machine.execMmuInvContext v s
  | .mmuInvAll v => Sys2Proof.Machine.execMmuInvAll v s
  | .mmuInvComplete => Sys2Proof.Machine.execMmuInvComplete s
  | .mmuPartWrite v => Sys2Proof.Machine.execMmuPartWrite v s
  | .dmaEnWrite n v => Sys2Proof.Machine.execDmaEnWrite n v s
  | .dmaStop n v => Sys2Proof.Machine.execDmaStop n v s
  | .dmaStopDone n => Sys2Proof.Machine.execDmaStopDone n s
  | .dmaTailWrite n v => Sys2Proof.Machine.execDmaTailWrite n v s
  | .dmaDescriptor r => Sys2Proof.Machine.execDmaDescriptor r s
  | .dmaFragmentDone r => Sys2Proof.Machine.execDmaFragmentDone r s
  | .memoryUe place r passes => Sys2Proof.Machine.execMemoryUe place r passes s
  | .patrolScrub hbm ddr => Sys2Proof.Machine.execPatrolScrub hbm ddr s
  | .dimmTempRead temps => Sys2Proof.Machine.execDimmTempRead temps s
  | .cleanWrite ctx va => Sys2Proof.Machine.execCleanWrite ctx va s
  | .guestResume ctx => Sys2Proof.Machine.execGuestResume ctx s
  | .synAdd v => Sys2Proof.Machine.execSynAdd v s
  | .synSet v => Sys2Proof.Machine.execSynSet v s
  | .synWinWrite n v => Sys2Proof.Machine.execSynWinWrite n v s
  | .synBarWrite m v => Sys2Proof.Machine.execSynBarWrite m v s
  | .synWarmGo v => Sys2Proof.Machine.execSynWarmGo v s
  | .watchReq m => Sys2Proof.Machine.execWatchReq m s
  | .watchFire m => Sys2Proof.Machine.execWatchFire m s
  | .xferTimeout => Sys2Proof.Machine.execXferTimeout s
  | .windowDrainEnd => Sys2Proof.Machine.execWindowDrainEnd s
  | .synDumpGo v => Sys2Proof.Machine.execSynDumpGo v s
  | .peerOpen m => Sys2Proof.Machine.execPeerOpen m s
  | .peerOpenAck m => Sys2Proof.Machine.execPeerOpenAck m s
  | .peerClose m => Sys2Proof.Machine.execPeerClose m s
  | .keepalive m => Sys2Proof.Machine.execKeepalive m s
  | .peerSignal m => Sys2Proof.Machine.execPeerSignal m s
  | .peerResp m => Sys2Proof.Machine.execPeerResp m s
  | .keepaliveTick n => Sys2Proof.Machine.execKeepaliveTick n s
  | .sessionLost n => Sys2Proof.Machine.execSessionLost n s
  | .sessionOpenTimeout n => Sys2Proof.Machine.execSessionOpenTimeout n s
  | .flitReceive p lane flit => Sys2Proof.Machine.execFlitReceive p lane flit s
  | .ackTimeout p => Sys2Proof.Machine.execAckTimeout p s
  | .laneDrop p lane cause => Sys2Proof.Machine.execLaneDrop p lane cause s
  | .lanemap p boundary lanes => Sys2Proof.Machine.execLanemap p boundary lanes s
  | .laneRetrainTick p => Sys2Proof.Machine.execLaneRetrainTick p s
  | .laneRestore p lane => Sys2Proof.Machine.execLaneRestore p lane s
  | .portLightDetect p => Sys2Proof.Machine.execPortLightDetect p s
  | .trainingDone p lanes far delay => Sys2Proof.Machine.execTrainingDone p lanes far delay s
  | .trainingTimeout p => Sys2Proof.Machine.execTrainingTimeout p s
  | .portRetrainTick p => Sys2Proof.Machine.execPortRetrainTick p s
  | .timeFlitTick p => Sys2Proof.Machine.execTimeFlitTick p s
  | .timeFlit p tTx t1 t2 delay => Sys2Proof.Machine.execTimeFlit p tTx t1 t2 delay s
  | .ptpMessage offset => Sys2Proof.Machine.execPtpMessage offset s
  | .timeSourceLost => Sys2Proof.Machine.execTimeSourceLost s
  | .lockLossTimeout => Sys2Proof.Machine.execLockLossTimeout s
  | .lnkTestGo v => Sys2Proof.Machine.execLnkTestGo v s
  | .linkTestDone errors => Sys2Proof.Machine.execLinkTestDone errors s
  | .setoutDatagram e b => Sys2Proof.Machine.execSetoutDatagram e b s
  | .openReq e b => Sys2Proof.Machine.execOpenReq e b s
  | .hostSessionOpenTimeout n => Sys2Proof.Machine.execHostSessionOpenTimeout n s
  | .hostSessionIdle n => Sys2Proof.Machine.execHostSessionIdle n s
  | .hostAck n ack nak => Sys2Proof.Machine.execHostAck n ack nak s
  | .ackDelayTimer n => Sys2Proof.Machine.execAckDelayTimer n s
  | .retransmitTimeout n => Sys2Proof.Machine.execRetransmitTimeout n s
  | .packageComplete => Sys2Proof.Machine.execPackageComplete s
  | .proposalExpire => Sys2Proof.Machine.execProposalExpire s
  | .enum f => Sys2Proof.Machine.execEnum f s
  | .rollcall f => Sys2Proof.Machine.execRollcall f s
  | .pulse f => Sys2Proof.Machine.execPulse f s
  | .pulseTick => Sys2Proof.Machine.execPulseTick s
  | .ringFrameForward f => Sys2Proof.Machine.execRingFrameForward f s
  | .resetReq f => Sys2Proof.Machine.execResetReq f s
  | .partnerLost => Sys2Proof.Machine.execPartnerLost s
  | .pairHello m => Sys2Proof.Machine.execPairHello m s
  | .mirror m => Sys2Proof.Machine.execMirror m s
  | .farPut m => Sys2Proof.Machine.execFarPut m s
  | .farReserve m => Sys2Proof.Machine.execFarReserve m s
  | .resync m => Sys2Proof.Machine.execResync m s
  | .teardownNote m => Sys2Proof.Machine.execTeardownNote m s
  | .partnerScrub m => Sys2Proof.Machine.execPartnerScrub m s
  | .treeChunk m => Sys2Proof.Machine.execTreeChunk m s
  | .treeWant m => Sys2Proof.Machine.execTreeWant m s
  | .treeJoin m => Sys2Proof.Machine.execTreeJoin m s
  | .treeSilenceTimeout => Sys2Proof.Machine.execTreeSilenceTimeout s
  | .stripeMissingTimeout => Sys2Proof.Machine.execStripeMissingTimeout s
  | .shardWant m => Sys2Proof.Machine.execShardWant m s
  | .shardPut m => Sys2Proof.Machine.execShardPut m s
  | .manifestWant m => Sys2Proof.Machine.execManifestWant m s
  | .ready m => Sys2Proof.Machine.execReady m s
  | .startTimeout => Sys2Proof.Machine.execStartTimeout s
  | .teardownReq m => Sys2Proof.Machine.execTeardownReq m s
  | .teardownOrder m => Sys2Proof.Machine.execTeardownOrder m s
  | .scrubComplete => Sys2Proof.Machine.execScrubComplete s
  | .scrubDone m => Sys2Proof.Machine.execScrubDone m s
  | .hubKeptDrop v => Sys2Proof.Machine.execHubKeptDrop v s
  | .rstCtrlGo v => Sys2Proof.Machine.execRstCtrlGo v s
  | .e3FenceTimeout => Sys2Proof.Machine.execE3FenceTimeout s
  | .resetDrainTimeout unit => Sys2Proof.Machine.execResetDrainTimeout unit s
  | .e4PowerHoldEnd unit => Sys2Proof.Machine.execE4PowerHoldEnd unit s
  | .tileWatchdog t => Sys2Proof.Machine.execTileWatchdog t s
  | .stopWatchdog t => Sys2Proof.Machine.execStopWatchdog t s
  | .dmaWatchdog n => Sys2Proof.Machine.execDmaWatchdog n s
  | .faultWatchdog r => Sys2Proof.Machine.execFaultWatchdog r s
  | .ccWatchdog core => Sys2Proof.Machine.execCcWatchdog core s
  | .rstKick v => Sys2Proof.Machine.execRstKick v s
  | .rstPwrWrite v => Sys2Proof.Machine.execRstPwrWrite v s
  | .rstQclrSlot v => Sys2Proof.Machine.execRstQclrSlot v s
  | .rstQclrXcn v => Sys2Proof.Machine.execRstQclrXcn v s
  | .tallySample => Sys2Proof.Machine.execTallySample s
  | .talHaltReq v => Sys2Proof.Machine.execTalHaltReq v s
  | .talHaltRel v => Sys2Proof.Machine.execTalHaltRel v s
  | .haltInNFall => Sys2Proof.Machine.execHaltInNFall s
  | .haltInNRise => Sys2Proof.Machine.execHaltInNRise s
  | .talTrigArm n v => Sys2Proof.Machine.execTalTrigArm n v s
  | .triggerFire n => Sys2Proof.Machine.execTriggerFire n s
  | .extest din => Sys2Proof.Machine.execExtest din s
  | .idcode => Sys2Proof.Machine.execIdcode s
  | .samplePreload din => Sys2Proof.Machine.execSamplePreload din s
  | .scansel v => Sys2Proof.Machine.execScansel v s
  | .scanout n => Sys2Proof.Machine.execScanout n s
  | .haltreq b => Sys2Proof.Machine.execHaltreq b s
  | .bypass din => Sys2Proof.Machine.execBypass din s
  | .dstCtrlNote v => Sys2Proof.Machine.execDstCtrlNote v s
  | .datestoneSecondEnd => Sys2Proof.Machine.execDatestoneSecondEnd s
  | .lifeSave => Sys2Proof.Machine.execLifeSave s
  | .thermalSample hot sensor hbm watts => Sys2Proof.Machine.execThermalSample hot sensor hbm watts s
  | .throttleUp => Sys2Proof.Machine.execThrottleUp s
  | .thermalCritical => Sys2Proof.Machine.execThermalCritical s
  | .criticalRecover => Sys2Proof.Machine.execCriticalRecover s
  | .clkTcfgWrite v => Sys2Proof.Machine.execClkTcfgWrite v s
  | .refclkLost => Sys2Proof.Machine.execRefclkLost s
  | .refclkRestored => Sys2Proof.Machine.execRefclkRestored s
  | .registerWrite side a v => Sys2Proof.Machine.execRegisterWrite side a v s
  | .neighbourSolicitation e vid target => Sys2Proof.Machine.execNeighbourSolicitation e vid target s
  | .arpRequest e vid target => Sys2Proof.Machine.execArpRequest e vid target s
  | .echoRequest e vid v6 target data => Sys2Proof.Machine.execEchoRequest e vid v6 target data s
  | .outgoingContribution n seq24 bs => Sys2Proof.Machine.execOutgoingContribution n seq24 bs s
  | .resetReqReassemblyTimeout src id => Sys2Proof.Machine.execResetReqReassemblyTimeout src id s
  | .teardownFenceTimeout => Sys2Proof.Machine.execTeardownFenceTimeout s

end Sys2Proof.Machine
end

