-- ==== Sys2Proof/Machine/Idle.lean ====
section
/-! DEFINITION. What the block does by itself while no command waits: one CLK_C period passes (R435, R5, R416), and a command that had to
wait inside the block is carried out (R327, R410). -/

namespace Sys2Proof.Machine

/-- CLK_C periods in a second (R435). -/
def ticksPerSecond : Nat := 700000000

/-- Pod Time advances with CLK_C once it is disciplined, unless the tick is withheld to slew it (R305, R401). -/
def tickPodTime : Prog :=
  .look fun d =>
    if d.obs.withhold then modObs fun o => { o with withhold := false }
    else when d.obs.disciplined (.act (.podTime (d.podTime + 1)))

/-- A whole second of operating time (R416, R417): the part's own clock counts, the rate limit starts anew unless a SUPPRESSED record is due,
and events leave the window of R150. -/
def wholeSecond : Prog :=
  .look fun d => all [
    bump DST_LIFE_SECONDS,
    when (decide (d.obs.notMade = 0)) (modObs fun o => { o with rateCount := 0 }),
    each (List.range 8) fun n =>
      put (WIT_SLOT_EV_WINDOW n) (min 255 ((d.recent d.wit.slotTimes).filter fun e => decide (e.1 = n)).length)]

/-- What the witness engine left to the shore controller and to the control complex: declarations that are due (R150), and programs that give
up witness tiles (R156). -/
def settleDue : Prog :=
  .look fun d => when (!d.halted && d.up) (.seq
    (when (!d.wit.due.isEmpty) (.seq (modWit fun w => { w with due := [] }) (each d.wit.due fun n => declareNow n 4))) displace)

/-- A barrier's watch that was armed on a counter that satisfied it already fires (R280). -/
def fireBarriers : Prog :=
  .look fun d => when (!d.halted && d.up) (match List.find? (fun e : Nat × Watch => e.2.target.barrier && satisfied (d.counter e.2.counter) e.2.value) d.watches with
    | some e => fireWatches e.2.counter
    | none => .done)

/-- One CLK_C period while the supplies are good. -/
def tick : Prog :=
  .look fun d => when d.power.pwrok (all [
    .act (.clk (d.clk + 1)), tickPodTime, settleDue, fireBarriers, when (decide ((d.clk + 1) % ticksPerSecond = 0)) wholeSecond])

/-- The first host session that holds a command back and can send again (R327). -/
def Dev.hostReady (d : Dev) : Option Nat :=
  (List.range 16).find? fun n => !(d.host n).deferred.isEmpty && (d.host n).waiting.isEmpty

/-- A session's commands that follow the one now executed. A session that has ended holds none. -/
def restoreDeferred (n : Nat) (rest : List Instr) : Prog :=
  .look fun d => when (decide (d.hState n ≠ hFREE)) (modHost n fun h => { h with deferred := rest ++ h.deferred })

/-- A command that waited inside the block is carried out: one that a global halt or a full link had frozen, else the next of a session
that can send again. -/
def State.runWaiting (s : State) : Host.Outcome State Fault Refusal :=
  match s.dev.halted, s.dev.obs.frozen with
  | false, c :: cs => exec c { s with dev := (modObs fun o => { o with frozen := cs }).run s.dev }
  | _, _ =>
    match s.dev.hostReady with
    | none => .next s
    | some n =>
      match (s.dev.host n).deferred with
      | [] => .next s
      | c :: rest =>
        match exec c { s with dev := (modHost n fun h => { h with deferred := [] }).run s.dev } with
        | .next t => .next { t with dev := (restoreDeferred n rest).run t.dev }
        | o => o

/-- The idle step. -/
def State.idle (s : State) : Host.Outcome State Fault Refusal := State.runWaiting { s with dev := tick.run s.dev }

end Sys2Proof.Machine
end

