-- ==== Sys2Proof/Safety.lean ====
section
/-! DEFINITION. What every state of a run satisfies: the invariant that the statements speak of. -/

namespace Sys2Proof.Machine

/-- Memory stands in its canonical form: addresses rise, and no listed byte equals what an unlisted one reads as. -/
abbrev Memory.wf (m : Store Byte) : Prop := Store.Canonical memDflt m

/-- Keys of a sparse part rise. -/
abbrev Store.Rising {α : Type} (m : Store α) : Prop := m.Pairwise fun a b => a.1 < b.1

/-- Every control register holds only bits that its table gives it (R11). -/
def Dev.ctlImplemented (d : Dev) : Prop := ∀ e ∈ d.ctl, e.2 &&& implMask ctlRows e.1 = e.2

/-- The invariant of the block: every sparse part stands in its canonical form, the control registers hold implemented bits only, and the
mode is one that Table 17.2 allows (R424). -/
structure Dev.Inv (d : Dev) : Prop where
  mem : Memory.wf d.mem
  checks : Store.Canonical checkDflt d.checks
  ctl : Store.Canonical ctlDflt d.ctl
  ctlBits : d.ctlImplemented
  tiles : Store.Canonical tileReset d.tiles
  savedTiles : Store.Canonical tileReset d.savedTiles
  agents : Store.Canonical agentReset d.agents
  chans : Store.Canonical chanReset d.chans
  counters : Store.Canonical counterReset d.counters
  ports : Store.Canonical portReset d.ports
  dseq : Store.Canonical dseqReset d.dseq
  peers : Store.Canonical peerReset d.peers
  hosts : Store.Canonical hostReset d.hosts
  tallies : Store.Canonical counterReset d.tallies
  slots : Store.Canonical slotReset d.slots
  watches : Store.Rising d.watches
  circ : Store.Rising d.circ
  mode : d.mode.legal = true

/-- The invariant of a state; the queue may hold any commands. -/
def State.Inv (s : State) : Prop := s.dev.Inv

/-! ## What a command leaves alone -/

/-- A named part of the block: a control register, a byte of memory, a numbered unit, or a part of which there is one. -/
inductive Part where
  | reg (a : Nat) | byte (a : Nat) | check (b : Nat) | tile (n : Nat) | savedTile (n : Nat) | agent (n : Nat) | chan (n : Nat)
  | counter (n : Nat) | watch (n : Nat) | port (n : Nat) | stream (o : Nat) | peer (n : Nat) | host (n : Nat) | circ (k : Nat)
  | tally (n : Nat) | slot (n : Nat)
  | power | mode | mmu | xcn | sync | found | obs | sec | job | course | shore | wit | start | hold | rst | clk | podTime | status | free | out
deriving DecidableEq, Repr

/-- Two blocks have the same in a part. -/
def Dev.alike (d e : Dev) : Part → Prop
  | .reg a => e.word a = d.word a
  | .byte a => Store.get memDflt e.mem a = Store.get memDflt d.mem a
  | .check b => Store.get checkDflt e.checks b = Store.get checkDflt d.checks b
  | .tile n => e.tile n = d.tile n
  | .savedTile n => Store.get tileReset e.savedTiles n = Store.get tileReset d.savedTiles n
  | .agent n => e.agent n = d.agent n
  | .chan n => e.chan n = d.chan n
  | .counter n => e.counter n = d.counter n
  | .watch n => Store.find? e.watches n = Store.find? d.watches n
  | .port n => e.port n = d.port n
  | .stream o => e.stream o = d.stream o
  | .peer n => e.peer n = d.peer n
  | .host n => e.host n = d.host n
  | .circ k => Store.find? e.circ k = Store.find? d.circ k
  | .tally n => Store.get counterReset e.tallies n = Store.get counterReset d.tallies n
  | .slot n => e.slot n = d.slot n
  | .power => e.power = d.power
  | .mode => e.mode = d.mode
  | .mmu => e.mmu = d.mmu
  | .xcn => e.xcn = d.xcn
  | .sync => e.sync = d.sync
  | .found => e.found = d.found
  | .obs => e.obs = d.obs
  | .sec => e.sec = d.sec
  | .job => e.job = d.job
  | .course => e.course = d.course
  | .shore => e.shore = d.shore
  | .wit => e.wit = d.wit
  | .start => e.start = d.start
  | .hold => e.hold = d.hold
  | .rst => e.rst = d.rst
  | .clk => e.clk = d.clk
  | .podTime => e.podTime = d.podTime
  | .status => e.status = d.status
  | .free => e.free = d.free
  | .out => e.out = d.out

/-- Parts given one by one. -/
def only (ps : List Part) (p : Part) : Bool := decide (p ∈ ps)

/-- The areas of the block: all parts of one kind. -/
inductive Area where
  | regs | memory | checks | tiles | savedTiles | agents | chans | counters | watches | ports | streams | peers | hosts | circ | tallies | slots
  | power | mode | mmu | xcn | sync | found | obs | sec | job | course | shore | wit | start | hold | rst | clk | podTime | status | free | out
deriving DecidableEq, Repr

/-- The area of a part. -/
def Part.area : Part → Area
  | .reg _ => .regs
  | .byte _ => .memory
  | .check _ => .checks
  | .tile _ => .tiles
  | .savedTile _ => .savedTiles
  | .agent _ => .agents
  | .chan _ => .chans
  | .counter _ => .counters
  | .watch _ => .watches
  | .port _ => .ports
  | .stream _ => .streams
  | .peer _ => .peers
  | .host _ => .hosts
  | .circ _ => .circ
  | .tally _ => .tallies
  | .slot _ => .slots
  | .power => .power
  | .mode => .mode
  | .mmu => .mmu
  | .xcn => .xcn
  | .sync => .sync
  | .found => .found
  | .obs => .obs
  | .sec => .sec
  | .job => .job
  | .course => .course
  | .shore => .shore
  | .wit => .wit
  | .start => .start
  | .hold => .hold
  | .rst => .rst
  | .clk => .clk
  | .podTime => .podTime
  | .status => .status
  | .free => .free
  | .out => .out

/-- Every part of some areas. -/
def areas (as : List Area) (p : Part) : Bool := decide (p.area ∈ as)

/-- Every part but those of some areas. -/
def butAreas (as : List Area) (p : Part) : Bool := !decide (p.area ∈ as)

/-- Every tile as well. -/
def orTiles (w : Part → Bool) (p : Part) : Bool :=
  w p || match p with
    | .tile _ => true
    | _ => false

/-- The control registers of `n` addresses from `a` as well. -/
def orRegs (a n : Nat) (w : Part → Bool) (p : Part) : Bool :=
  w p || match p with
    | .reg x => decide (a ≤ x) && decide (x < a + n)
    | _ => false

/-- The `n` bytes of memory from `a` as well, with the check words of the blocks they lie in (R137). -/
def orBytes (a n : Nat) (w : Part → Bool) (p : Part) : Bool :=
  w p || match p with
    | .byte x => decide (a ≤ x) && decide (x < a + n)
    | .check b => decide (a / 4096 ≤ b) && decide (b * 4096 < a + n)
    | _ => false

/-- Bytes of a slot's host memory as well: ranges, each by its host address and length. -/
def orHost (n : Nat) (rs : List (Nat × Nat)) (w : Part → Bool) (p : Part) : Bool :=
  w p || match p with
    | .byte x => rs.any fun r => decide (hostByte n r.1 ≤ x) && decide (x < hostByte n r.1 + r.2)
    | _ => false

/-- What a host write of an agent stores to: its bytes, and the check words of the CHECKED blocks that they lie in (R49). -/
def Agent.written (a : Agent) (w : HeldWrite) : List (Nat × Nat) :=
  (w.addr, w.data.length) :: (blocksOf w.addr w.data.length).filterMap fun b => (a.checkAt (b * 4096)).map fun c => (c, 8)

/-- What the held writes store to when they proceed. -/
def Agent.heldPlaces (a : Agent) : List (Nat × Nat) := (a.heldWrites.map a.written).flatten

/-- The witness lists at the start of the staging region (Table 2.23). -/
def Agent.listPlace (a : Agent) : Nat × Nat := (a.get QAG_WIT_BASE_BASE * 0x200000, 0x11000)

/-- The post-mortem region (R57). -/
def Agent.dumpPlace (a : Agent) : Nat × Nat := (a.get QAG_PM_BASE_BASE * 4096, 65536)

/-- Where the next witness record is placed, and the ring's HEAD after it (Table 2.27). -/
def Agent.recordAt (a : Agent) (len : Nat) : Nat := if 0x4000000 < a.get QAG_WIT_RING_HEAD + len then 0x11000 else a.get QAG_WIT_RING_HEAD
def Agent.headAfter (a : Agent) (len : Nat) : Nat := if a.recordAt len + len = 0x4000000 then 0x11000 else a.recordAt len + len

/-- What an agent sends of FATAL (R57): on each path that is up. -/
def Agent.fatalTo (a : Agent) (n : Nat) : List (Dest × List Nat) :=
  (if a.on QAG_STATE_TRAY_UP then [(.ozmund n, [0x42, 0])] else []) ++ if a.on QAG_STATE_SB_UP then [(.ozmund n, [0x42, 1])] else []

/-- Parts that the sending of event notices may change (R335): the host sessions, their registers and counts, and what has been sent. -/
def orEvents (w : Part → Bool) (p : Part) : Bool :=
  w p || match p with
    | .reg a => decide (0x200100 ≤ a) && decide (a < 0x200180)
    | .host _ | .out => true
    | .tally n => decide (n = 1473)
    | _ => false

/-- Parts that the datestone recorder may change too (R415, R417). -/
def orRecord (w : Part → Bool) (p : Part) : Bool :=
  orEvents w p || match p with
    | .reg a => decide (0x3C0000 ≤ a) && decide (a < 0x3C0060)
    | .circ _ | .found | .obs => true
    | _ => false

/-- The command takes a next state that leaves the queue alone, differs from the state before in the parts `w` picks at most, and of which
`Q` holds. -/
def Leads (w : Part → Bool) (c : Instr) (s : State) (Q : Dev → Prop) : Prop :=
  ∃ t, exec c s = .next t ∧ t.pending = s.pending ∧ (∀ p, w p = false → s.dev.alike t.dev p) ∧ Q t.dev

/-! ## Terms of the statements -/

/-- The parts that the beginning of a global halt changes: TAL_HALT, TAL_EVT, the slots' HALT_N lines, the running tiles, and what its event
and its record change. -/
def haltParts : Part → Bool := orRecord (orTiles (orRegs 0x1F0100 0x40 (only [.reg 0x380040, .reg 0x380048, .status, .mode])))

/-- A block that a hold would halt: firmware in RUN, not BANKED, no halt in force (R409, R411). -/
abbrev Dev.haltable (d : Dev) : Prop := d.mode.fw = .run ∧ d.mode.role ≠ .banked ∧ d.halted = false

/-- The block has halted (R410): HALTED, the Pod Time of the halt, and every tile that ran is HALTED. -/
abbrev Dev.hasHalted (before d : Dev) : Prop :=
  d.get TAL_HALT_HALTED = 1 ∧ d.get TAL_HALT_WHEN = before.podTime % 2 ^ TAL_HALT_WHEN.width ∧
    ∀ n, n < 256 → (before.tile n).state = tRUNNING → (d.tile n).state = tHALTED

/-- A record of a type and subtype stands in the circulating area, under the number that was next (R415). -/
abbrev Dev.hasRecorded (before d : Dev) (ty sub : Nat) (detail : List Byte) : Prop :=
  (Store.find? d.circ (before.get DST_SEQ_NEXT % 61440)).map (fun r => (r.seq, r.ty, r.sub, r.detail, r.time)) =
    some (before.get DST_SEQ_NEXT, ty, sub, detail, before.podTime)

/-- No reset is in progress or waits, no halt is in force, and the block is awake. -/
abbrev Dev.resetsRest (d : Dev) : Prop := d.rst.active = [] ∧ d.rst.waiting = [] ∧ d.halted = false ∧ d.mode.role ≠ .banked

/-- RST_STAT shows a reset (Table 14.13). -/
abbrev Dev.showsReset (d : Dev) (unit rung cause : Nat) : Prop :=
  d.get RST_STAT_UNIT = unit ∧ d.get RST_STAT_RUNG = rung ∧ d.get RST_STAT_CAUSE = cause

/-- The agent carries out a request: the message reaches it, its epoch is the bound one (but for exempt types), and the state, the version,
the path and the length are those that R65 and R66 accept. -/
abbrev Agent.takes (a : Agent) (m : QMsg) (exempt : Bool) (ok : List Nat) (sbOk : Bool) (len : Nat) : Prop :=
  a.hears m = true ∧ (exempt = true ∨ m.epoch.toNat = a.get QAG_BIND_EPOCH) ∧ a.state ∈ ok ∧ m.ver = 1 ∧ (m.sb = true → sbOk = true) ∧
    m.data.length = len ∧ m.pkts ≠ 0

/-- The RESP with which an agent answers a request, its fields from the state `a` in which it is sent (Table 2.32, R64). -/
def Agent.resp (a : Agent) (n : Nat) (m : QMsg) (status : Nat) (arg : Nat := 0) (data : List Byte := []) : Msg :=
  let q : QOut := { ty := 0x06, sb := m.sb, status := status, tag := m.seq.toNat, arg := arg, data := data }
  let epoch := a.get QAG_BIND_EPOCH
  let pos := a.get QAG_BIND_POSITION
  let seq := if m.sb then a.seqSb else a.seqTray
  ⟨.ozmund n, Kind.quoin, q.fields epoch pos seq, q.bytes epoch pos seq⟩

/-- Agent `n` and what has been sent. -/
def agentOnly (n : Nat) : Part → Bool := only [.agent n, .out]

/-- The messages sent since a state before. The DATA flits that carry some of them on a port leave beside them (R291). -/
def Dev.sentSince (before d : Dev) : List Msg := (d.out.drop before.out.length).filter fun x => decide (x.kind ≠ Kind.flit)

/-- What left before stands, and these messages have been sent, in this order. -/
abbrev Dev.tells (before d : Dev) (ms : List Msg) : Prop := d.out.take before.out.length = before.out ∧ before.sentSince d = ms

/-- The messages sent since a state before: where each goes, and its first `k` fields. -/
def Dev.news (before d : Dev) (k : Nat) : List (Dest × List Nat) := (before.sentSince d).map fun x => (x.dest, x.args.take k)

/-- The engines run: the Ozmund is out of reset, and no global halt is in force (R410, R434). -/
abbrev Dev.runs (d : Dev) : Prop := d.up = true ∧ d.halted = false

/-- A session to an address is OPEN (Table 10.4). -/
def Dev.openTo (d : Dev) (addr : Nat) : Bool := (d.sessionTo addr).any fun n => decide ((d.peer n).st = pOPEN)

/-- A notice of `len` bytes passes every check of R285: it is this Ozmund's own or comes on an OPEN session, from a member or the partner, under
the epoch served (`exempt`: a notice of Tables 13.4 and 13.6, which is of no job), and QUIESCE drops none but those of a teardown (R314). -/
abbrev Dev.accepts (d : Dev) (m : NMsg) (exempt : Bool) (len : Nat) (teardown : Bool := false) : Prop :=
  (exempt = true ∨ teardown = true ∨ m.src.toNat = d.ownAddr ∨ (d.sessionTo m.src.toNat).all (fun n => !(d.quiesced n m.epoch.toNat)) = true) ∧
  Store.Canonical peerReset d.peers ∧ (m.src.toNat = d.ownAddr ∨ d.openTo m.src.toNat = true) ∧
    (exempt = true ∨ m.src.toNat = d.ownAddr ∨ m.src.toNat = d.partnerAddr ∨ d.isMember m.src.toNat = true) ∧
    (exempt = true ∨ m.epoch.toNat = d.peerEpoch) ∧ d.hubFenced = false ∧ m.ver = 1 ∧ (m.chk = true → crc64 m.data = m.check.toNat) ∧ m.data.length = len

/-- A session-0 notice comes from the partner, under the epoch it last declared (R343). -/
abbrev Dev.fromPartner (d : Dev) (m : NMsg) : Prop := m.src.toNat = d.partnerAddr ∧ m.epoch.toNat = d.get HUB_PAIR_PEPOCH

/-- A notice of a code has been sent to an address since a state before: on its session, or without one. -/
abbrev Dev.notified (before d : Dev) (addr code : Nat) (data : List Byte) : Prop :=
  ∃ x ∈ d.out.drop before.out.length, x.data = data ∧
    ((x.kind = Kind.notice ∧ x.dest = .peer addr ∧ x.args.head? = some code) ∨
     (x.kind = Kind.peerMessage ∧ x.dest = (if before.sessionTo addr = some 0 then .partner else .peer addr) ∧
       x.args[0]? = some 0x10 ∧ x.args[8]? = some code))

/-- The requests of a slot that wait for their answers: type and argument. -/
def Dev.asking (d : Dev) (n : Nat) : List (Nat × Nat) := (d.slot n).reqs.map fun r => (r.ty, r.arg)

/-- The course in progress has ended ABANDONED at this member with a cause (Table 3.2). -/
abbrev Dev.abandoned (d : Dev) (cause : Nat) : Prop := d.kState = kABANDONED ∧ d.get CRS_STAT_LAST_CAUSE = cause

/-- The bytes of a VOTE that is not YES (Table 3.1). -/
def Dev.noVote (d : Dev) (c cause : Nat) : List Byte := pack [(4, c), (2, d.get CRS_ROOT_MEMBER), (1, cause), (1, 0)] ++ List.replicate 32 0

/-- The Ozmund takes what a slot's agent sends (R13, R388): firmware in RUN, the hub not fenced, the slot out of reset, the version 1, and the
epoch the one served (`exempt`: a message that carries none); a tray port in QUIESCE drops all but a teardown's (R314). -/
abbrev Dev.takesFrom (d : Dev) (n : Nat) (m : QMsg) (exempt : Bool) (teardown : Bool := false) : Prop :=
  d.mode.fw = .run ∧ d.hubFenced = false ∧ m.ver = 1 ∧ d.on (LNK_SB_RESET n) = false ∧ (exempt = true ∨ m.epoch.toNat = d.epoch) ∧
    (exempt = true ∨ teardown = true ∨ m.sb = true ∨ d.lState n ≠ lQUIESCE)

/-- The slot has been declared failed with a cause (R103): it is FENCED, and SHR_EVT.DECLARED is set. -/
abbrev Dev.declared (d : Dev) (n cause : Nat) : Prop := d.slotState n = sFENCED ∧ d.get SHR_STAT_CAUSE = cause ∧ d.on SHR_EVT_DECLARED = true

/-- A command to the crossconnect as its SPI frame: command, argument and CRC-8 (Table 11.8). -/
def xcnFrame (cmd arg : Nat) : Msg := ⟨.xcn, Kind.spiFrame, [], pack [(1, cmd), (1, arg)] ++ leBytes 1 (crc8 (pack [(1, cmd), (1, arg)]))⟩

/-- How many answers of the crossconnect's first command fail their CRC, up to four (R309; notes/assumptions/220): a free value. -/
def Dev.xcnBad (d : Dev) : Nat := (Config.freeWord d.free).toNat % 5

/-- A command has been sent to the crossconnect, as often as its answers fail their CRC, and four failures set ERR (R309). -/
abbrev Dev.commanded (before d : Dev) (f : Msg) : Prop :=
  d.out = before.out ++ List.replicate (min 4 (before.xcnBad + 1)) f ∧ (before.xcnBad = 4 → d.on XCN_STAT_ERR = true ∧ d.xcn.op = before.xcn.op)

/-- A notice has been answered since a state before: RESP with a status, its TAG the notice's SEQ (Table 10.6). -/
abbrev Dev.answered (before d : Dev) (seq st : Nat) : Prop :=
  ∃ x ∈ d.out.drop before.out.length, x.kind = Kind.peerMessage ∧ x.args[0]? = some 0x15 ∧ x.args[4]? = some st ∧ x.args[7]? = some seq

/-- A buffer has been granted to a session for DATA that a notice announces (R283). -/
abbrev Dev.granted (d : Dev) (n handle len code : Nat) : Prop :=
  d.sync.grants.getLast?.map (fun g => (g.session, g.handle, g.len, g.code, g.got)) = some (n, handle, len, code, {})

/-- A message of an OPEN session passes every check of R285: it comes on the partner's session or from a member, under the epoch served. -/
abbrev Dev.takesPeer (d : Dev) (m : PMsg) (len : Nat) : Prop :=
  Store.Canonical peerReset d.peers ∧ (d.peer m.session.toNat).st = pOPEN ∧
    (m.session.toNat = 0 ∨ d.isMember (d.peer m.session.toNat).peer = true) ∧ m.epoch.toNat = d.peerEpoch ∧
    d.quiesced m.session.toNat m.epoch.toNat = false ∧ d.hubFenced = false ∧ m.ver = 1 ∧ lastCounted m = true ∧
    (m.chk = true → crc64 m.data = m.check.toNat) ∧ m.data.length = len

/-- The bytes of a ring frame, with its CRC (Table 13.1). -/
def frameBytes (ty flags hops dst src : Nat) (payload : List Byte) : List Byte :=
  let b := pack [(1, ty), (1, flags), (1, hops), (1, 0), (4, dst), (4, src), (2, payload.length), (2, 0)] ++ payload
  b ++ leBytes 4 (crc32c b)

/-- A ring frame has left since a state before. -/
abbrev Dev.framed (before d : Dev) (f : List Byte) : Prop := (⟨.ring, Kind.ringFrame, [], f⟩ : Msg) ∈ d.out.drop before.out.length

/-- The payload of a ROLLCALL names nobody at this Ozmund's address, and has room for its entry. -/
abbrev Dev.noEntry (d : Dev) (f : List Byte) : Prop :=
  (rollEntries (fData f)).all (fun e => decide (e.1 ≠ d.ownAddr)) = true ∧ (fData f).length + 8 ≤ 1024

/-- The entry of a ROLLCALL for this Ozmund's partner: same rack, the other tray of the pair (R342). -/
def Dev.partnerEntry (d : Dev) (f : List Byte) : Option (Nat × Nat × Nat) :=
  (rollEntries (fData f)).find? fun e => decide (e.1 / 64 = d.get RNG_ADDR_RACK) &&
    decide (e.2.1 = if d.get RNG_ADDR_TRAY % 2 = 0 then d.get RNG_ADDR_TRAY + 1 else d.get RNG_ADDR_TRAY - 1)

/-- A DATA flit in order on a port that takes flits, which no gap or acknowledgement stands beside (R292): check words good, the FSEQ expected,
no NAK, and ACK naming the last flit released. -/
abbrev Dev.flitInOrder (d : Dev) (p : Nat) (f : List Byte) : Prop :=
  d.takesFlits p = true ∧ flitOk f = true ∧ numAt f 0 4 / 2 ^ 28 = 1 ∧ (d.lState p ≠ lTRAINING ∨ 24 ≤ p) ∧ numAt f 0 4 % 4096 = (d.port p).fseqIn ∧
    bitOf (numAt f 0 4) 24 = false ∧ (numAt f 0 4 / 2 ^ 12 % 4096 + 1) % 4096 = (d.port p).oldest

/-- The traffic of a port stays on it with these lanes: its detour is off, or the lanes suffice (R299). -/
abbrev Dev.staysOn (d : Dev) (p lanes : Nat) : Prop := d.on (LNK_CFG_MODE p) = false ∨ d.minLanes p ≤ laneCount lanes

/-- A port may be trained: enabled, and not held for a link test. -/
abbrev Dev.trainable (d : Dev) (p : Nat) : Prop := d.on (LNK_CFG_EN p) = true ∧ (d.port p).held = false

/-- A channel's transfer stands begun and not held, and its next access fails: the record that its fault would have (R252). -/
abbrev Dev.faultsAt (d : Dev) (n va : Nat) (w : Bool) (ctx c : Nat) : Prop :=
  (d.chan n).held = false ∧ (d.chan n).started = true ∧ fragFault d (d.desc (.chan n)) = some (va, w, ctx, c)

/-- Where the next record of the fault ring stands. -/
def Dev.fqNext (d : Dev) : Nat := d.get MMU_FQ_BASE * 4096 + 32 * d.get MMU_FQ_PTR_HEAD

/-- A channel has stopped at a failing entry with a status (R261): the count, EN and BUSY, the status in its descriptor, and word to the control
complex. -/
abbrev Dev.stopped (before d : Dev) (n st : Nat) : Prop :=
  d.get (DMA_STAT_LAST n) = st ∧ d.on (DMA_CTRL_EN n) = false ∧ d.get (DMA_STAT_BUSY n) = 0 ∧
    d.get (DMA_STAT_ERRS n) = satAdd (DMA_STAT_ERRS n).width (before.get (DMA_STAT_ERRS n)) 1 ∧ (d.chan n).started = false ∧ (d.chan n).held = false ∧
    (⟨.cc, Kind.dmaDone, [n, st], []⟩ : Msg) ∈ d.out.drop before.out.length

/-- The fields of DMA_CHn_STAT and DMA_CHn_CTRL stand at their reset values and the ring has an entry that no chain has reached: the channel is
ready to take the descriptor at its ring's HEAD (R256, R257). -/
abbrev Dev.readyFor (d : Dev) (n at_ : Nat) : Prop :=
  d.halted = false ∧ d.on (DMA_CTRL_EN n) = true ∧ d.on (DMA_CTRL_STOP n) = false ∧ (d.chan n).held = false ∧ (d.chan n).started = false ∧
    (d.chan n).cur = (d.chan n).entry ∧ d.get (DMA_PTR_HEAD n) ≠ d.get (DMA_PTR_TAIL n) ∧ d.ringEntry n (d.get (DMA_PTR_HEAD n)) = at_

/-- A channel in the middle of a descriptor of physical addresses, whose next fragment goes to `pa` and can be moved (R260, R262). -/
abbrev Dev.movesTo (d : Dev) (n : Nat) (x : Desc) (pa : Nat) : Prop :=
  d.halted = false ∧ d.on (DMA_CTRL_EN n) = true ∧ d.on (DMA_CTRL_STOP n) = false ∧ (d.chan n).held = false ∧ (d.chan n).started = true ∧
    d.desc (.chan n) = x ∧ x.sctx = 0 ∧ x.dctx = 0 ∧ fragFault d x = none ∧ d.translate 0 x.fragment.2.1 true false = .ok pa 0 ∧
    slotOk d (.chan n) pa = true ∧ d.phys pa = .hbm ∧ d.phys ((d.chan n).cur) = .hbm ∧ d.phys ((d.chan n).cur + 48) = .hbm ∧
    d.phys ((d.chan n).cur + 3) = .hbm ∧ (pa + x.fragment.2.2 ≤ (d.chan n).cur ∨ (d.chan n).cur + 64 ≤ pa)

/-- A fabric packet for the shored position passes the checks of R303. -/
abbrev Dev.takesFabric (d : Dev) (p : Fin 24) (m : QMsg) : Prop :=
  d.hubFenced = false ∧ d.shoredLive = true ∧ 8 ≤ p.val ∧ p.val < 20 ∧ m.epoch.toNat = d.epoch ∧ m.position.toNat = d.shoredPos ∧ m.ver = 1 ∧
    (m.chk = true → crc64 m.data = m.check.toNat)

/-- The addresses of the table entries that a walk for an address reads, down to L4 (R247). -/
def Dev.entriesOf (d : Dev) (va : Nat) : Nat → Nat → Nat → List Nat
  | 0, _, _ => []
  | fuel + 1, level, table =>
    let at_ := table + 8 * (if level = 0 then va / 2 ^ 57 % 128 else va / 2 ^ (48 - 9 * (level - 1)) % 512)
    at_ :: if level < 4 ∧ entBit (d.mem64 at_ 8) 0 then d.entriesOf va fuel (level + 1) (entAddr (d.mem64 at_ 8)) else []

/-- A tile of a saved program as its image gives it back, with the counts that no restore rolls back, bound to an owner (R264, R265). -/
def Dev.restored (d : Dev) (n owner : Nat) : Tile :=
  (((Store.get tileReset d.savedTiles n).ofImage (d.bytes (saveAreaBase + n * 0x2000000 + 0x1800000) 0x2F000)).countsOf (d.tile n)).withOwner owner

/-- No watch stands on a counter. -/
def Dev.unwatched (d : Dev) (c : Nat) : Bool := d.watches.all fun e => decide (e.2.counter ≠ c)

/-- A tile has nothing queued and nothing in progress, and is not one of a lockstep pair. -/
abbrev Tile.idleQueues (t : Tile) : Prop :=
  t.on TLE_STAT_PAIRED = false ∧ t.front = none ∧ t.mx = [] ∧ t.vx = [] ∧ t.rd = [] ∧ t.mv = [] ∧ t.passes = [] ∧ t.moves = [] ∧ t.ending = false ∧ t.faulting = false

/-- A tile has nothing queued, and may issue; it is not one of a lockstep pair. -/
abbrev Tile.runsEmpty (t : Tile) : Prop :=
  t.on TLE_STAT_PAIRED = false ∧ t.issuing = true ∧ t.mx = [] ∧ t.vx = [] ∧ t.rd = [] ∧ t.mv = [] ∧ t.ending = false

/-! ### Instructions of a tile -/

/-- The bytes of an instruction: 8, or 16 with its extension word (R205). -/
def insLen (w0 : W64) : Nat := if bitsAt w0 8 1 = 1 then 16 else 8

/-- An instruction's words stand at TLE_PC of a tile that can take it, within its code range; they name this operation and break no encoding
rule (R207), and nothing waits in the tile's queues. -/
abbrev Dev.takesNext (d : Dev) (n : Nat) (op : LOp) (w0 w1 : W64) : Prop :=
  (d.tile n).fetching = true ∧ (d.tile n).mx = [] ∧ (d.tile n).vx = [] ∧ (d.tile n).rd = [] ∧ (d.tile n).mv = [] ∧
    (d.tile n).get TLE_CODE_BASE ≤ (d.tile n).get TLE_PC_PC ∧
    (d.tile n).get TLE_PC_PC + insLen w0 ≤ (d.tile n).get TLE_CODE_BASE + (d.tile n).get TLE_CODE_LEN ∧ latheOp w0 = some op ∧
    illegal op w0 w1 ((d.tile n).get TLE_PROG_RANK) = false

/-- The same of a tile that is not one of a lockstep pair; `TilesStartStopAndWait` states how the twins of a pair run. -/
abbrev Dev.fetches (d : Dev) (n : Nat) (op : LOp) (w0 w1 : W64) : Prop := (d.tile n).on TLE_STAT_PAIRED = false ∧ d.takesNext n op w0 w1

/-- A record of the shored position (Tables 5.2 and 5.3): its domain, position, step and index, and its length. -/
abbrev Dev.shoredRecord (d : Dev) (r : WRec) (slot dom step index : Nat) : Prop :=
  r.slot = slot ∧ numAt r.data 8 1 = dom ∧ numAt r.data 12 4 = d.shoredPos % 2 ^ 32 ∧ numAt r.data 16 8 = step % 2 ^ 64 ∧
    numAt r.data 24 4 = index % 2 ^ 32 ∧ numAt r.data 36 4 = r.data.length

/-- The tile once its front end has finished with an instruction: the next stands behind it. -/
def Tile.past (t : Tile) (w0 : W64) : Tile := t.toNext (t.get TLE_PC_PC + insLen w0)

/-- An instruction as a queue holds it, with the registers captured (R209). -/
def Dev.queued (d : Dev) (n : Nat) (op : LOp) (w0 w1 : W64) : QEntry := capture (d.tile n) op w0 w1 ((d.tile n).get TLE_PC_PC)

/-- Operand B of a CT instruction (Table 8.13): the extension word, IMM32 sign-extended, or a register. -/
def Tile.srcB (t : Tile) (w0 w1 : W64) : W64 :=
  if ctBI w0 then (if bitsAt w0 8 1 = 1 then w1 else ctImm w0) else t.sReg (ctRB w0)

/-- A CT instruction completes at the front end and leaves the tile `u`, apart from TLE_PC. -/
def CtSets (c : TileId → W64 → W64 → Instr) (op : LOp) (u : Dev → Nat → W64 → W64 → Tile) : Prop :=
  ∀ t w0 w1 s, s.dev.up = true → s.dev.fetches t.val op w0 w1 →
    Leads (only [.tile t.val]) (c t w0 w1) s fun d => d.tile t.val = (u s.dev t.val w0 w1).toNext ((s.dev.tile t.val).get TLE_PC_PC + insLen w0)

/-- One that writes S[RD] with a function of S[RA] and operand B. -/
def CtAlu (c : TileId → W64 → W64 → Instr) (op : LOp) (f : W64 → W64 → W64) : Prop :=
  CtSets c op fun d n w0 w1 => (d.tile n).setS (ctRD w0) (f ((d.tile n).sReg (ctRA w0)) ((d.tile n).srcB w0 w1))

/-- One that writes A[RD] with a function of A[RA] and operand B. -/
def CtAddr (c : TileId → W64 → W64 → Instr) (op : LOp) (f : W64 → W64 → W64) : Prop :=
  CtSets c op fun d n w0 w1 => (d.tile n).setA (ctRD w0) (f ((d.tile n).aReg (ctRA w0)) ((d.tile n).srcB w0 w1))

/-- One that writes P[RD] with a function of P[RA] and P[RB]. -/
def CtPred (c : TileId → W64 → W64 → Instr) (op : LOp) (f : W64 → W64 → W64) : Prop :=
  CtSets c op fun d n w0 _ => (d.tile n).setP (ctRD w0) (f ((d.tile n).pReg (ctRA w0)) ((d.tile n).pReg (ctRB w0)))

/-- The target of a branch (R218): TLE_PC plus IMM32. -/
def Dev.branchTo (d : Dev) (n : Nat) (w0 : W64) : Int := ((d.tile n).get TLE_PC_PC : Int) + (ctImm w0).toInt

/-- A branch target is legal: a multiple of 8 within the code range (R218). -/
abbrev Dev.branchLegal (d : Dev) (n : Nat) (w0 : W64) : Prop :=
  0 ≤ d.branchTo n w0 ∧ d.branchTo n w0 % 8 = 0 ∧ ((d.tile n).get TLE_CODE_BASE : Int) ≤ d.branchTo n w0 ∧
    d.branchTo n w0 < ((d.tile n).get TLE_CODE_BASE + (d.tile n).get TLE_CODE_LEN : Nat)

/-- A tile that no engine and no host watches: not the job's or a witness's, and of no program. -/
abbrev Dev.unattended (d : Dev) (n : Nat) : Prop := (d.tile n).owner ∉ [oJOB, oWITNESS] ∧ d.programOf n = none

/-- A tile has stopped on an exception (R182, R223): FAULTED, with its cause, queue and offset in TLE_ERR, which held none. -/
abbrev Dev.faulted (before d : Dev) (n cause : Nat) (q : LClass) (off : Nat) : Prop :=
  (d.tile n).state = tFAULTED ∧ (d.tile n).on TLE_CTRL_EN = false ∧
    ((before.tile n).on TLE_ERR_VALID = false → (d.tile n).on TLE_ERR_VALID = true ∧ (d.tile n).get TLE_ERR_CAUSE = cause ∧
      (d.tile n).get TLE_ERR_QUEUE = q.code ∧ (d.tile n).get TLE_ERR_IOFF = off % 2 ^ 32)

/-- A branch goes to its target where its condition holds, and on where not; a taken branch to an illegal target stops the tile with RANGE. -/
def CtBranch (c : TileId → W64 → W64 → Instr) (op : LOp) (cond : Tile → W64 → W64 → Bool) : Prop :=
  (∀ t w0 w1 s, s.dev.up = true → s.dev.fetches t.val op w0 w1 → cond (s.dev.tile t.val) w0 w1 = true → s.dev.branchLegal t.val w0 →
    Leads (only [.tile t.val]) (c t w0 w1) s fun d => d.tile t.val = (s.dev.tile t.val).toNext (s.dev.branchTo t.val w0).toNat) ∧
  (∀ t w0 w1 s, s.dev.up = true → s.dev.fetches t.val op w0 w1 → cond (s.dev.tile t.val) w0 w1 = false →
    Leads (only [.tile t.val]) (c t w0 w1) s fun d => d.tile t.val = (s.dev.tile t.val).past w0) ∧
  (∀ t w0 w1 s, s.dev.up = true → s.dev.fetches t.val op w0 w1 → cond (s.dev.tile t.val) w0 w1 = true → ¬s.dev.branchLegal t.val w0 →
    s.dev.unattended t.val → (s.dev.tile t.val).passes = [] → (s.dev.tile t.val).moves = [] → (s.dev.tile t.val).descs = [] →
    Leads (only [.tile t.val]) (c t w0 w1) s fun d => s.dev.faulted d t.val cRANGE .ct ((s.dev.tile t.val).get TLE_PC_PC))

/-- A compare of operands, for `CtBranch`. -/
def byOperands (f : W64 → W64 → Bool) (t : Tile) (w0 w1 : W64) : Bool := f (t.sReg (ctRA w0)) (t.srcB w0 w1)

/-- The tile-store address of LD, ST, PHXLD and PHXST: the BASE of A[RA] plus IMM32 (Table 8.14). -/
def Dev.ctAt (d : Dev) (n : Nat) (w0 : W64) : Int := (aBase ((d.tile n).aReg (ctRA w0)) : Int) + (ctImm w0).toInt

/-- An access of a CT instruction stands within the tile store, aligned. -/
abbrev Dev.ctReaches (d : Dev) (n : Nat) (w0 : W64) (a size : Nat) : Prop := d.ctAt n w0 = (a : Int) ∧ a % size = 0 ∧ inStore a size = true

/-! ### Vector instructions -/

/-- A VX instruction that is fetched passes its checks at issue, and no pass is writing accumulators. -/
abbrev Dev.issues (d : Dev) (n : Nat) (op : LOp) (w0 w1 : W64) : Prop :=
  d.fetches n op w0 w1 ∧ vxCheck (d.tile n) (d.queued n op w0 w1) = none ∧ (d.tile n).passes = []

/-- The cell is one that a VX instruction covers and its predicate lets it write (R186). -/
abbrev QEntry.covers (e : QEntry) (row lane : Nat) : Prop := vxR0 e.w0 ≤ row ∧ row < vxR0 e.w0 + vxNr e.w0 ∧ laneOn e lane = true

/-- The conditions that TLE_VXFLAGS has gathered over the lanes that a VX instruction writes (R203). -/
def vxFlagsOver (old : W64) (e : QEntry) (h : Nat → Nat → Nat) : W64 :=
  ((cells (vxR0 e.w0) (vxNr e.w0)).filter fun c => laneOn e c.2).foldl (fun f c => f ||| BitVec.ofNat 64 (h c.1 c.2 % 128)) old

/-- A VX instruction writes each covered cell of its destination with the code that `h` gives, leaves every other cell, gathers the conditions
that `h` gives, and counts itself. -/
def VxOp (c : TileId → W64 → W64 → Instr) (op : LOp) (h : Tile → QEntry → Nat → Nat → Nat × Nat) : Prop :=
  ∀ t w0 w1 s, s.dev.up = true → s.dev.issues t.val op w0 w1 →
    Leads (only [.tile t.val, .free]) (c t w0 w1) s fun d =>
      (∀ row < viewRows (vxDView w0), ∀ lane < 64, (d.tile t.val).elem (vxDView w0) (vxDst w0) 0 row lane =
        if (s.dev.queued t.val op w0 w1).covers row lane then (h (s.dev.tile t.val) (s.dev.queued t.val op w0 w1) row lane).1 % 2 ^ viewBits (vxDView w0)
        else (s.dev.tile t.val).elem (vxDView w0) (vxDst w0) 0 row lane) ∧
      (d.tile t.val).vxFlags = vxFlagsOver (s.dev.tile t.val).vxFlags (s.dev.queued t.val op w0 w1)
        (fun row lane => (h (s.dev.tile t.val) (s.dev.queued t.val op w0 w1) row lane).2) ∧
      (d.tile t.val).get TLE_PC_PC = ((s.dev.tile t.val).get TLE_PC_PC + insLen w0) % 2 ^ 32 ∧
      (d.tile t.val).get TLE_VXCOUNT_INSTR = satAdd TLE_VXCOUNT_INSTR.width ((s.dev.tile t.val).get TLE_VXCOUNT_INSTR) 1

/-- The source codes of a lane. -/
def srcA (t : Tile) (e : QEntry) (row lane : Nat) : Nat := t.elem (vxSView e.w0) (vxSA e.w0) (svAt e 0) row lane
def srcBv (t : Tile) (e : QEntry) (row lane : Nat) : Nat := t.elem (vxSView e.w0) (vxSB e.w0) (svAt e 1) row lane
def srcC (t : Tile) (e : QEntry) (row lane : Nat) : Nat := t.elem (vxSView e.w0) (vxSC e.w0) (svAt e 2) row lane

/-- An exact value rounded once into the destination format (R188), with the conditions it met and those given. -/
def roundedVx (e : QEntry) (v : Ex) (conditions : Nat) : Nat × Nat :=
  (((viewFmt (vxDView e.w0)).round false (rndOf (vxRm e.w0) 0) v).1, ((viewFmt (vxDView e.w0)).round false (rndOf (vxRm e.w0) 0) v).2 ||| conditions)

/-- Arithmetic on exact operands, rounded once: `f` gives the exact result and the conditions. -/
def VxExact (c : TileId → W64 → W64 → Instr) (op : LOp) (f : Ex → Ex → Ex → Ex × Nat) : Prop :=
  VxOp c op fun t e row lane =>
    let o := f ((viewFmt (vxSView e.w0)).decode (srcA t e row lane)) ((viewFmt (vxSView e.w0)).decode (srcBv t e row lane))
      ((viewFmt (vxSView e.w0)).decode (srcC t e row lane))
    roundedVx e o.1 o.2

/-- A function of one operand (R188): in each covered cell whose exact value `fn` settles, that value rounded once. -/
def VxFn (c : TileId → W64 → W64 → Instr) (op : LOp) (fn : Ex → FnOut) : Prop :=
  ∀ t w0 w1 row lane v s, s.dev.up = true → s.dev.issues t.val op w0 w1 → lane < 64 → (s.dev.queued t.val op w0 w1).covers row lane →
    (fn ((viewFmt (vxSView w0)).decode (srcA (s.dev.tile t.val) (s.dev.queued t.val op w0 w1) row lane))).val = some v →
    Leads (only [.tile t.val, .free]) (c t w0 w1) s fun d =>
      (d.tile t.val).elem (vxDView w0) (vxDst w0) 0 row lane = (roundedVx (s.dev.queued t.val op w0 w1) v 0).1 % 2 ^ viewBits (vxDView w0) ∧
      (d.tile t.val).get TLE_PC_PC = ((s.dev.tile t.val).get TLE_PC_PC + insLen w0) % 2 ^ 32

/-- An operation on the INT32 codes of two operands. -/
def VxInt (c : TileId → W64 → W64 → Instr) (op : LOp) (f : BitVec 32 → BitVec 32 → BitVec 32) : Prop :=
  VxOp c op fun t e row lane => ((f (BitVec.ofNat 32 (srcA t e row lane)) (BitVec.ofNat 32 (srcBv t e row lane))).toNat, 0)

/-- A compare writes bit `lane` of its predicate register (R186, R189) for each lane the predicate lets it write, and leaves the others. -/
def VxCmp (c : TileId → W64 → W64 → Instr) (op : LOp) (f : Ex → Ex → Bool) : Prop :=
  ∀ t w0 w1 s, s.dev.up = true → s.dev.issues t.val op w0 w1 → vxNr w0 = 1 →
    Leads (only [.tile t.val, .free]) (c t w0 w1) s fun d => ∀ lane < 64,
      bitsAt ((d.tile t.val).pReg (vxDst w0 - 0x10)) lane 1 =
        if laneOn (s.dev.queued t.val op w0 w1) lane = true then
          (f ((viewFmt (vxSView w0)).decode (srcA (s.dev.tile t.val) (s.dev.queued t.val op w0 w1) (vxR0 w0) lane))
            ((viewFmt (vxSView w0)).decode (srcBv (s.dev.tile t.val) (s.dev.queued t.val op w0 w1) (vxR0 w0) lane))).toNat
        else bitsAt ((s.dev.tile t.val).pReg (vxDst w0 - 0x10)) lane 1

/-- Neither operand is a NaN. -/
def ordered (x y : Ex) : Bool := decide (x ≠ .nan) && decide (y ≠ .nan)

/-! ### The other queues -/

/-- A pass that is fetched passes its checks at issue; no gang change is pending and its gang is free. -/
abbrev Dev.startsPass (d : Dev) (n : Nat) (w0 w1 : W64) : Prop :=
  d.fetches n .pass w0 w1 ∧ (d.tile n).gangs = [] ∧ passCheck (d.tile n) (d.queued n .pass w0 w1) = none ∧
    (d.tile n).passes.all (fun p => decide (mxGang p.w0 ≠ mxGang w0)) = true

/-- A direct transfer that is fetched passes its checks at issue, and none in flight, direct or of DESC, clashes with it (R210). -/
abbrev Dev.startsMove (d : Dev) (n : Nat) (op : LOp) (w0 w1 : W64) : Prop :=
  d.fetches n op w0 w1 ∧ mvCheck d n (d.queued n op w0 w1) = none ∧ mvLen w0 ≠ 0 ∧ (d.tile n).moves.length < 4 ∧
    mvWaits d n (d.queued n op w0 w1) = false

/-- A direct transfer is in flight once it has issued. -/
def MvStarts (c : TileId → W64 → W64 → Instr) (op : LOp) : Prop :=
  ∀ t w0 w1 s, s.dev.up = true → s.dev.startsMove t.val op w0 w1 →
    Leads (only [.tile t.val]) (c t w0 w1) s fun d =>
      d.tile t.val = { (s.dev.tile t.val).past w0 with moves := (s.dev.tile t.val).moves ++ [⟨s.dev.queued t.val op w0 w1, false⟩] }

/-- REDUCE writes a slice: each of its 64 elements combines the input vectors' elements (R197 to R199). -/
def RdSlice (c : TileId → W64 → W64 → Instr) (op : LOp) : Prop :=
  (∀ t w0 w1 s, s.dev.up = true → s.dev.fetches t.val op w0 w1 → rdCheck (s.dev.tile t.val) (s.dev.queued t.val op w0 w1) = none →
    (s.dev.tile t.val).passes = [] → rdDst w0 ≠ 0x3F → s.dev.sampledTile t.val = false →
    Leads (only [.tile t.val]) (c t w0 w1) s fun d =>
      (∀ i < 64, (d.tile t.val).elem (rdOutView w0) (rdDst w0) 0 (rdDrow w0) i =
        (rdResult op (rdView w0) (rdOrder w1) ((List.range (rdN w0)).map fun j =>
          rdElem s.dev (tileByte t.val 0) (s.dev.tile t.val) (s.dev.queued t.val op w0 w1) j i)).1 % 2 ^ viewBits (rdOutView w0)) ∧
      (d.tile t.val).get TLE_RDCOUNT_SLICES = satAdd TLE_RDCOUNT_SLICES.width ((s.dev.tile t.val).get TLE_RDCOUNT_SLICES) 1) ∧
  (∀ t w0 w1 s, s.dev.up = true → s.dev.fetches t.val op w0 w1 → rdCheck (s.dev.tile t.val) (s.dev.queued t.val op w0 w1) = none →
    (s.dev.tile t.val).passes = [] → rdDst w0 = 0x3F → s.dev.sampledTile t.val = false →
    Leads (orBytes (tileByte t.val (aBase ((s.dev.queued t.val op w0 w1).av.getD 1 0))) (packedBytes (viewBits (rdOutView w0)) 64) (only [.tile t.val]))
      (c t w0 w1) s fun d => ∀ i < 64,
        d.packedElem (tileByte t.val (aBase ((s.dev.queued t.val op w0 w1).av.getD 1 0))) (viewBits (rdOutView w0)) i =
          (rdResult op (rdView w0) (rdOrder w1) ((List.range (rdN w0)).map fun j =>
            rdElem s.dev (tileByte t.val 0) (s.dev.tile t.val) (s.dev.queued t.val op w0 w1) j i)).1 % 2 ^ viewBits (rdOutView w0)) ∧
  (∀ t w0 w1 slot s, s.dev.up = true → s.dev.fetches t.val op w0 w1 → rdCheck (s.dev.tile t.val) (s.dev.queued t.val op w0 w1) = none →
    (s.dev.tile t.val).passes = [] → rdDst w0 ≠ 0x3F → s.dev.sampledTile t.val = true → s.dev.shore.slot = some slot → s.dev.wit.queue = [] →
    Leads (only [.tile t.val, .wit, .reg WIT_STAT_BACKLOG.addr]) (c t w0 w1) s fun d => d.wit.rdNext = s.dev.wit.rdNext + 1 ∧
      (s.dev.wit.rdNext ∉ s.dev.expects slot (s.dev.agent localAgent).step 1 → d.wit.queue = []) ∧
      (s.dev.wit.rdNext ∈ s.dev.expects slot (s.dev.agent localAgent).step 1 → d.wit.queue.length = 1 ∧
        ∀ r ∈ d.wit.queue, s.dev.shoredRecord r slot 1 (s.dev.agent localAgent).step s.dev.wit.rdNext))

/-- V of an SY instruction (Table 8.12): a register, the extension word, or IMM32. -/
def Tile.syValue (t : Tile) (w0 w1 : W64) : W64 :=
  if bitsAt w0 21 1 = 1 then t.sReg (bitsAt w0 16 5) else if bitsAt w0 8 1 = 1 then w1 else BitVec.ofNat 64 (bitsAt w0 22 32)

/-! ### The Setout protocol -/

/-- Packets that an answer of so many bytes takes (R329). -/
def packetsOf (len : Nat) : Nat := max 1 ((len + 8191) / 8192)

/-- The slot's session is OPEN, nothing waits on it, and an answer of `len` bytes fits in its window (R325, R327). -/
abbrev Dev.hostTurn (d : Dev) (n len : Nat) : Prop :=
  d.hState n = hOPEN ∧ (d.host n).waiting = [] ∧ (d.host n).deferred = [] ∧ (d.host n).events = [] ∧
    (d.host n).unacked.length + packetsOf len ≤ (d.host n).window ∧ (d.host n).ctrOut + packetsOf len < 2 ^ 32

/-- A command passes the checks that every command has (R331, R332), and its session can send the answer. -/
abbrev Dev.obeys (d : Dev) (m : HMsg) (cls : Nat) (rule : EpochRule) (len : Nat) : Prop :=
  d.hostTurn m.slot.val len ∧ cls ≤ d.get (HST_SESS_CLASS m.slot.val) ∧ d.epochOk rule m.epoch.toNat = true ∧ d.hubFenced = false ∧ m.ver = 1 ∧
    d.mode.fw ≠ .recovery

/-- The packets of an answer (R329): 8,192 bytes each, the last with the status and ARG. -/
def Dev.respPackets (d : Dev) (m : HMsg) (status arg : Nat) (data : List Byte) : List OutPkt :=
  let cs := if data.isEmpty then [[]] else (chunks 8192 data.length data).filter fun c => !c.isEmpty
  answerPkts (d.host m.slot.val).seqOut d.epoch m.target.toNat status m.seq.toNat arg cs.length 0 cs

/-- The datagram that carries the i-th packet of an answer: CTR, type, flags, EPOCH, SEQ, TARGET, STATUS, REF, ACK, PKTS, ARG
(Table 12.4), where it goes, and its bytes. -/
def Dev.datagram (d : Dev) (n i : Nat) (p : OutPkt) : Msg :=
  ⟨.host n, Kind.setoutPacket, [(d.host n).ctrOut + 1 + i, p.ty, p.flags + 4, p.epoch, p.seq, p.target, p.status, p.ref,
    (d.get (HST_SESS_SEQ_IN n) + 2 ^ 32 - 1) % 2 ^ 32, p.pkts, p.arg, d.get (HST_SESS_PORT n), (d.host n).srcAddr, (d.host n).srcPort, d.vlanTag],
    d.sealed n ((d.host n).ctrOut + 1 + i) ((d.get (HST_SESS_SEQ_IN n) + 2 ^ 32 - 1) % 2 ^ 32) p⟩

/-- The datagrams of an answer to a command that comes in a state. -/
def Dev.response (d : Dev) (m : HMsg) (status arg : Nat) (data : List Byte) : List Msg :=
  (d.respPackets m status arg data).zipIdx.map fun x => d.datagram m.slot.val x.2 x.1

/-- The command has been answered, and nothing else has left. -/
abbrev Dev.replied (before d : Dev) (m : HMsg) (status arg : Nat) (data : List Byte := []) : Prop :=
  d.out = before.out ++ before.response m status arg data

/-- The command has been answered, beside what else has left. -/
abbrev Dev.replies (before d : Dev) (m : HMsg) (status arg : Nat) (data : List Byte := []) : Prop :=
  ∀ x ∈ before.response m status arg data, x ∈ d.out.drop before.out.length

/-- What an answered command changes at least: its session, the counts of commands and datagrams, what has been sent; and further parts. -/
def hostParts (m : HMsg) (ps : List Part) : Part → Bool := only ([.host m.slot.val, .tally 1478, .tally 1473, .out] ++ ps)

/-- What a datagram of a session opens to, by its key and CTR; none where the tag fails (R320, R321). -/
def Dev.opened (d : Dev) (n : Nat) (b : List Byte) : Option (List Byte) :=
  Config.gcmOpen (d.host n).keyIn ((d.host n).saltIn ++ leBytes 8 (numAt b 8 8)) (b.take 16) (b.drop 16)

/-- The header and payload that a datagram opens to: length, CRC and SESSION are good (Table 12.4). -/
abbrev Dev.innerOk (d : Dev) (n : Nat) (x : List Byte) : Prop :=
  x.length = 52 + numAt x 24 2 ∧ numAt x (48 + numAt x 24 2) 4 = crc32c (x.take (48 + numAt x 24 2)) ∧ numAt x 8 4 = d.hNumber n

/-- A field's part of a word. -/
def FldSpec.part (f : FldSpec) (w : W64) : Nat := w.toNat / 2 ^ f.lsb % 2 ^ f.width

/-- What a field of each access type holds after a write (Table 0.4), apart from a two-key change. -/
abbrev FldSpec.wrote (f : FldSpec) (old v new : W64) : Prop :=
  f.part new = match f.acc with
    | .rw => f.part v
    | .ro | .pk => f.part old
    | .w1c => f.part (old &&& ~~~v)
    | .w1s => f.part (old ||| v)
    | .wo => 0

/-- Control registers below the tiles' blocks that have a rule of their own beside Table 0.4. -/
def ownRule (a : Nat) : Bool :=
  decide (a ∈ [0x50, 0x218, 0x230, 0x10010, 0x20000, 0x20028, 0x20080, 0x20088, 0x80000, 0x80028, 0x80030, 0x80068, 0xC0000, 0xC0800, 0xC0810,
    0x100008, 0x140010, 0x140018, 0x140040, 0x140050, 0x1F0008, 0x200000, 0x280000, 0x280010, 0x280028, 0x280030, 0x280100, 0x380008, 0x380010,
    0x380040, 0x3C0040]) ||
  decide (0x140100 ≤ a ∧ a < 0x140300) || decide (0x142000 ≤ a ∧ a < 0x146000 ∧ a % 16 = 0) ||
  decide (0x180000 ≤ a ∧ a < 0x198000 ∧ a % 0x1000 = 0) || decide (0x284000 ≤ a ∧ a < 0x284800 ∧ a % 32 = 0) ||
  decide (0x380100 ≤ a ∧ a < 0x380180 ∧ a % 16 = 0)

/-- A control register below the tiles' blocks that each field's access type alone governs. -/
abbrev plainReg (a : Nat) : Prop := a % 8 = 0 ∧ a < 0x400000 ∧ ownRule a = false

/-- The fields of such a register after a write. -/
abbrev Dev.wroteReg (before d : Dev) (a : Nat) (v : W64) : Prop := ∀ f ∈ fieldsAt ctlRows a, f.wrote (before.word a) v (d.word a)

/-- An address of the control space that no register occupies. -/
abbrev unoccupied (a : Nat) : Prop :=
  a % 8 = 0 ∧ a ≤ 0x7FFFFF ∧ (a < 0x400000 → fieldsAt ctlRows a = []) ∧ (0x400000 ≤ a → fieldsAt tileRows (a % 0x4000) = [])

/-- A register that a read of its word leaves as it is, and whose value no free value enters. -/
abbrev quietReg (a : Nat) : Prop := a ∉ [0x80010, 0x200030, 0x240010, 0x380030]

/-- The physical address of a piece of a command's transfer, if its context maps it, the block agrees with its check word, and the leaf entry that maps
it, if there is one, carries A already, and D for a write (R249). -/
def Dev.pieceAt (d : Dev) (ctx va : Nat) (write : Bool) (p : Nat × Nat) : Option Nat :=
  match d.translate ctx ((va + p.1) % 2 ^ 64) write false with
  | .fault _ => none
  | .ok pa leaf =>
    if d.blockOk pa && (decide (leaf = 0) ||
        decide (d.mem64 leaf 8 = if write then (d.mem64 leaf 8 ||| 0x60) &&& (2 ^ 64 - 1 - 0x80) else d.mem64 leaf 8 ||| 0x20)) then some pa
    else none

/-- Every piece of a read in a context can be served. -/
abbrev Dev.readable (d : Dev) (ctx va len : Nat) : Prop := ∀ p ∈ pieces va 0 len, (d.pieceAt ctx va false p).isSome = true

/-- The bytes of a context. -/
def Dev.virtBytes (d : Dev) (ctx va len : Nat) : List Byte :=
  (pieces va 0 len).flatMap fun p => d.physBytes ((d.pieceAt ctx va false p).getD 0) p.2

/-- Nothing waits for the block's own time: a declaration that is due, or a program that gives up witness tiles. -/
abbrev Dev.nothingDue (d : Dev) : Prop := d.halted = true ∨ d.up = false ∨ (d.wit.due = [] ∧ d.displaced = [])

/-- No session takes event notices (R335). -/
abbrev Dev.noListeners (d : Dev) : Prop := ∀ n < 16, d.get (HST_SESS_EVENTS n) = 0

end Sys2Proof.Machine
end

