-- ==== Sys2Proof/Certificates/Slice0/Obligations.lean ====
section
/-! DEFINITION. The statements for the provers. Each says, of commands named in it, under what conditions on the state and the operands the
command has its own effect, what the next state then holds, and which parts of the block it may change at most. -/

set_option maxRecDepth 4000

open Sys2Proof Sys2Proof.Machine

/-- A global halt begins at a register write, HALT_IN_N or HALTREQ, and lasts while another request holds. Each of the three requests sets its
bit of TAL_HALT and halts the block; withdrawing one while another holds clears its own bit and leaves HALTED set.
(spec/16_observability.md: Global halt) -/
def Obligations.HoldsBeginAndEndAGlobalHalt : Prop :=
  (∀ v s, s.dev.up = true → s.dev.haltable → TAL_HALT_REQ.of v = 1 → TAL_HALT_REL.of v = 0 →
    Leads haltParts (.talHaltReq v) s fun d => d.get TAL_HALT_CMD = 1 ∧ d.status = stOK ∧ s.dev.hasHalted d) ∧
  (∀ s, s.dev.power.pwrok = true → s.dev.haltable →
    Leads haltParts .haltInNFall s fun d => d.get TAL_HALT_PIN = 1 ∧ s.dev.hasHalted d) ∧
  (∀ s, s.dev.power.pwrok = true → s.dev.haltable →
    Leads haltParts (.haltreq true) s fun d => d.get TAL_HALT_JTAG = 1 ∧ s.dev.hasHalted d) ∧
  (∀ v s, s.dev.up = true → TAL_HALT_REL.of v = 1 → TAL_HALT_REQ.of v = 0 →
    (s.dev.on TAL_HALT_PIN = true ∨ s.dev.on TAL_HALT_JTAG = true) → s.dev.halted = true →
    Leads (only [.reg 0x380040, .status]) (.talHaltRel v) s fun d =>
      d.get TAL_HALT_CMD = 0 ∧ d.get TAL_HALT_TRIG = 0 ∧ d.get TAL_HALT_HALTED = 1 ∧ d.status = stOK) ∧
  (∀ s, s.dev.power.pwrok = true → (s.dev.on TAL_HALT_CMD = true ∨ s.dev.on TAL_HALT_JTAG = true ∨ s.dev.on TAL_HALT_TRIG = true) →
    s.dev.halted = true →
    Leads (only [.reg 0x380040]) .haltInNRise s fun d => d.get TAL_HALT_PIN = 0 ∧ d.get TAL_HALT_HALTED = 1) ∧
  (∀ s, s.dev.power.pwrok = true → s.dev.halted = true → s.dev.on TAL_HALT_JTAG = true →
    (s.dev.on TAL_HALT_CMD = true ∨ s.dev.on TAL_HALT_PIN = true ∨ s.dev.on TAL_HALT_TRIG = true) →
    Leads (only [.reg 0x380040, .out]) (.haltreq false) s fun d =>
      d.get TAL_HALT_JTAG = 0 ∧ d.get TAL_HALT_HALTED = 1 ∧ d.out = s.dev.out ++ [⟨.land, Kind.tdo, [1], []⟩])

/-- A tally sample, a datestone note, the count of records not made, and the life counter. A sample lies in the tally ring at its sequence
number and NEXT advances; a note becomes a record with the next sequence number where the rate limit allows it, or is answered BUSY with
1,024 waiting; the second's end records what was not made; LIFE_SAVE keeps the seconds. (spec/16_observability.md: Tallies, The datestone
log) -/
def Obligations.TalliesAndRecordsAreKept : Prop :=
  (∀ s, s.dev.up = true → s.dev.sampling = true → s.dev.obs.disciplined = true →
    let k := s.dev.get TAL_STAT_NEXT
    let a := tallyRingBase + k % s.dev.ringSlots * s.dev.sampleLen
    let bs := s.dev.sampleBytes k
    Leads (orEvents (orBytes a bs.length (only [.reg TAL_STAT_NEXT.addr, .reg TAL_EVT_WRAP.addr, .obs]))) .tallySample s fun d =>
      d.bytes a bs.length = bs ∧ d.get TAL_STAT_NEXT = (k + 1) % 2 ^ TAL_STAT_NEXT.width) ∧
  (∀ v s, s.dev.up = true → DST_CTRL_NOTE.of v = 1 → s.dev.get DST_STAT_QUEUE < 1024 → s.dev.obs.rateCount < max 1 (s.dev.get DST_CFG_RATE) →
    Leads (orRecord (only [.status])) (.dstCtrlNote v) s fun d =>
      s.dev.hasRecorded d 0x20 0 ((List.range 4).flatMap fun k => leBytes 8 (s.dev.word (DST_NOTE_BYTES k).addr).toNat) ∧
      d.get DST_SEQ_NEXT = (s.dev.get DST_SEQ_NEXT + 1) % 2 ^ DST_SEQ_NEXT.width ∧ d.status = stOK) ∧
  (∀ v s, s.dev.up = true → DST_CTRL_NOTE.of v = 1 → 1024 ≤ s.dev.get DST_STAT_QUEUE →
    Leads (only [.status]) (.dstCtrlNote v) s fun d => d.status = stBUSY) ∧
  (∀ s, s.dev.up = true → s.dev.obs.notMade ≠ 0 →
    Leads (orRecord (only [])) .datestoneSecondEnd s fun d =>
      s.dev.hasRecorded d 0x12 0 (pack [(4, s.dev.obs.notMade), (8, s.dev.obs.notMadeTypes.toNat)]) ∧
      d.obs.notMade = 0 ∧ d.obs.notMadeTypes = 0 ∧ d.get DST_EVT_SUPPRESSED = 1) ∧
  (∀ s, s.dev.power.pwrok = true → Leads (only [.obs]) .lifeSave s fun d => d.obs.lifeSaved = s.dev.get DST_LIFE_SECONDS)

/-- A trigger is armed with a kind and an address the table allows, and fires into a global halt. TAL_TRIG accepts kinds 0 to 4 with their
limits and answers FAULT beyond; a firing trigger disarms, names itself in TAL_HALT and halts the block. (spec/16_observability.md: Global
halt, Registers) -/
def Obligations.TriggersArmAndFire : Prop :=
  (∀ n v s, s.dev.up = true → (TAL_TRIG_A_ARMED n.val).of v = 1 → (TAL_TRIG_A_KIND n.val).of v < 5 →
    ((TAL_TRIG_A_KIND n.val).of v = 2 → eventRegs.contains ((TAL_TRIG_A_ADDR n.val).of v) = true) →
    ((TAL_TRIG_A_KIND n.val).of v = 4 → 1 ≤ (TAL_TRIG_A_INDEX n.val).of v ∧ (TAL_TRIG_A_INDEX n.val).of v ≤ 9) →
    Leads (only [.reg (TAL_TRIG_A_KIND n.val).addr, .obs, .status]) (.talTrigArm n v) s fun d =>
      d.get (TAL_TRIG_A_ARMED n.val) = 1 ∧ d.get (TAL_TRIG_A_KIND n.val) = (TAL_TRIG_A_KIND n.val).of v ∧
      d.get (TAL_TRIG_A_INDEX n.val) = (TAL_TRIG_A_INDEX n.val).of v ∧ d.get (TAL_TRIG_A_ADDR n.val) = (TAL_TRIG_A_ADDR n.val).of v) ∧
  (∀ n v s, s.dev.up = true → (TAL_TRIG_A_ARMED n.val).of v = 1 → 5 ≤ (TAL_TRIG_A_KIND n.val).of v →
    Leads (only [.status]) (.talTrigArm n v) s fun d => d.status = stFAULT) ∧
  (∀ n s, s.dev.up = true → s.dev.haltable → s.dev.on (TAL_TRIG_A_ARMED n.val) = true → s.dev.trigHolds n.val = true →
    Leads (fun p => haltParts p || decide (p = .reg (TAL_TRIG_A_ARMED n.val).addr)) (.triggerFire n) s fun d =>
      d.get (TAL_TRIG_A_ARMED n.val) = 0 ∧ d.get TAL_HALT_TRIG = 1 ∧ d.get TAL_HALT_TRIGNO = n.val ∧ d.get TAL_EVT_TRIGGERED = 1 ∧ s.dev.hasHalted d)

/-- The test access port shifts out what each of its instructions selects. IDCODE, BYPASS, SAMPLE/PRELOAD, EXTEST, SCANSEL and SCANOUT put
their data register on TDO; SCANSEL and SCANOUT read 0 outside a global halt. What the boundary cells capture is free: the statement says
only its length. (spec/16_observability.md: Scan-out) -/
def Obligations.TestAccessPortShiftsOut : Prop :=
  (∀ s, s.dev.power.pwrok = true →
    Leads (only [.out]) .idcode s fun d => d.out = s.dev.out ++ [⟨.land, Kind.tdo, (bitsOf 32 0x14800A6B).map (·.toNat), []⟩]) ∧
  (∀ din s, s.dev.power.pwrok = true →
    Leads (only [.out]) (.bypass din) s fun d => d.out = s.dev.out ++ [⟨.land, Kind.tdo, ((false :: din).take din.length).map (·.toNat), []⟩]) ∧
  (∀ din s, s.dev.power.pwrok = true →
    Leads (only [.out, .obs, .free]) (.samplePreload din) s fun d => d.obs.boundary = din ∧ d.free = s.dev.free + din.length ∧
      ∃ cap : List Nat, cap.length = din.length ∧ d.out = s.dev.out ++ [⟨.land, Kind.tdo, cap, []⟩]) ∧
  (∀ din s, s.dev.power.pwrok = true → din ≠ [] →
    Leads (only [.out, .obs, .free]) (.extest din) s fun d => d.obs.boundary = din ∧
      ∃ cap : List Nat, cap.length = din.length ∧ d.out = s.dev.out ++ [⟨.land, Kind.boundaryDrive, s.dev.obs.boundary.map (·.toNat), []⟩,
        ⟨.land, Kind.tdo, cap, []⟩, ⟨.land, Kind.boundaryDrive, din.map (·.toNat), []⟩]) ∧
  (∀ v s, s.dev.power.pwrok = true → s.dev.halted = true →
    Leads (only [.out, .obs]) (.scansel v) s fun d => d.obs.scanChain = v.toNat % 2 ^ 16 ∧ d.obs.scanOffset = v.toNat / 2 ^ 16 % 2 ^ 24 ∧
      d.out = s.dev.out ++ [⟨.land, Kind.tdo, (bitsOf 48 (s.dev.obs.scanChain + 2 ^ 16 * s.dev.obs.scanOffset)).map (·.toNat), []⟩]) ∧
  (∀ v s, s.dev.power.pwrok = true → s.dev.halted = false →
    Leads (only [.out]) (.scansel v) s fun d => d.out = s.dev.out ++ [⟨.land, Kind.tdo, List.replicate 48 0, []⟩]) ∧
  (∀ n len s, s.dev.power.pwrok = true → s.dev.halted = true → chainLen s.dev.obs.scanChain = some len → 64 * s.dev.obs.scanOffset + n ≤ len → n ≠ 0 →
    Leads (only [.out]) (.scanout n) s fun d =>
      d.out = s.dev.out ++ [⟨.land, Kind.tdo, [], s.dev.scan s.dev.obs.scanChain (64 * s.dev.obs.scanOffset) n⟩]) ∧
  (∀ n s, s.dev.power.pwrok = true → s.dev.halted = false →
    Leads (only [.out]) (.scanout n) s fun d => d.out = s.dev.out ++ [⟨.land, Kind.tdo, [], List.replicate n 0⟩])

/-- The thermal manager records each sample and steps the divider up and down. A cool sample outside a job is recorded and moves no divider; a
first hot one below the trip steps the divider and every tile's up by one with its event; at the trip temperature THERMTRIP is driven,
running tiles halt and DMA is disabled; after its interval the divider steps back by one; a floor above the divider takes effect at once.
(spec/18_package.md: Throttling, Registers) -/
def Obligations.ThermalManagerStepsTheDivider : Prop :=
  (∀ hot sensor hbm watts s, s.dev.power.pwrok = true → s.dev.power.tripped = false → s.dev.epoch = 0 → s.dev.mode.role ≠ .banked →
    hot.toInt < s.dev.throttleC → hbm.toInt < s.dev.hbmC → watts.toNat < s.dev.limitW →
    Leads (only [.reg CLK_STAT_DIV.addr, .reg CLK_THERM_HOT.addr, .reg CLK_PWR_POWER_W.addr, .power]) (.thermalSample hot sensor hbm watts) s fun d =>
      d.get CLK_THERM_HOT = hot.toNat ∧ d.get CLK_THERM_SENSOR = sensor.toNat ∧ d.get CLK_THERM_HBM_HOT = hbm.toNat ∧
      d.get CLK_PWR_POWER_W = watts.toNat ∧ d.get CLK_PWR_PEAK_W = max watts.toNat (s.dev.get CLK_PWR_PEAK_W) ∧
      d.get CLK_STAT_MARGIN = (BitVec.ofInt 16 (s.dev.throttleC - hot.toInt)).toNat ∧ d.get CLK_STAT_DIV = s.dev.get CLK_STAT_DIV) ∧
  (∀ hot sensor hbm watts s, s.dev.power.pwrok = true → s.dev.power.tripped = false → s.dev.epoch = 0 → s.dev.mode.role ≠ .banked →
    s.dev.throttleC ≤ hot.toInt → hot.toInt < 1150 → hbm.toInt < 1050 → s.dev.get CLK_STAT_DIV < 8 → s.dev.power.therm.lastDown = none →
    Leads (areas [.regs, .tiles, .power, .hosts, .tallies, .circ, .found, .obs, .out]) (.thermalSample hot sensor hbm watts) s fun d =>
      d.get CLK_STAT_DIV = s.dev.get CLK_STAT_DIV + 1 ∧ d.get CLK_EVT_THROTTLE = 1 ∧ d.power.therm.lastDown = some s.dev.clk ∧
      ∀ n, n < 256 → (d.tile n).get TLE_STAT_DIV = s.dev.get CLK_STAT_DIV + 1) ∧
  (∀ hot sensor hbm watts s, s.dev.power.pwrok = true → s.dev.power.tripped = false → (1150 ≤ hot.toInt ∨ 1050 ≤ hbm.toInt) →
    Leads (areas [.regs, .tiles, .power, .hosts, .tallies, .circ, .found, .obs, .out]) (.thermalSample hot sensor hbm watts) s fun d =>
      d.power.tripped = true ∧ d.out.getLast? = some ⟨.land, Kind.thermtrip, [0], []⟩ ∧
      (∀ n, n < 256 → (s.dev.tile n).state = tRUNNING → (d.tile n).state = tHALTED) ∧ ∀ n, n < 64 → d.get (DMA_CTRL_EN n) = 0) ∧
  (∀ s, s.dev.power.pwrok = true → s.dev.power.tripped = false → s.dev.mode.role ≠ .banked → s.dev.divMin < s.dev.get CLK_STAT_DIV →
    (∃ t, s.dev.power.therm.upSince = some t ∧ t + s.dev.power.therm.upWait * tick100 ≤ s.dev.clk) →
    Leads (areas [.regs, .tiles, .power, .hosts, .tallies, .circ, .found, .obs, .out]) .throttleUp s fun d =>
      d.get CLK_STAT_DIV = s.dev.get CLK_STAT_DIV - 1 ∧ d.power.therm.lastUp = some s.dev.clk ∧
      ∀ n, n < 256 → (d.tile n).get TLE_STAT_DIV = s.dev.get CLK_STAT_DIV - 1) ∧
  (∀ v s, s.dev.up = true → s.dev.get CLK_STAT_DIV < min 8 (max 4 (CLK_TCFG_DIV_MIN.of v)) →
    Leads (areas [.regs, .tiles, .power, .hosts, .tallies, .circ, .found, .obs, .status, .out]) (.clkTcfgWrite v) s fun d =>
      d.get CLK_TCFG_DIV_MIN = CLK_TCFG_DIV_MIN.of v ∧ d.get CLK_STAT_DIV = min 8 (max 4 (CLK_TCFG_DIV_MIN.of v)) ∧ d.get CLK_STAT_LIMITER = 4)

/-- Critical heat stops guest and witness tiles, and the reference clock is lost and restored. Ten milliseconds at divider 8 enter the
critical state, which stops the running guest and witness tiles, and else nothing changes; one cool second leaves it and resumes each tile
it stopped where it stood; REFCLK loss clears the lock bits, begins the chip's E3 by the fence and stops the channels, and its return sets
the bits; a DIMM reading names the hottest channel in use, DIMM_HOT from 95.0 degrees, and gives each channel its refresh; with no channel
in use it reads 0. (spec/18_package.md: Throttling, Clocks, Cooling) -/
def Obligations.CriticalHeatAndClocks : Prop :=
  (∀ s, s.dev.up = true → s.dev.power.therm.crit = false → s.dev.get CLK_STAT_DIV = 8 →
    (∃ t, s.dev.power.therm.critSince = some t ∧ t + 10 * tickMs ≤ s.dev.clk) →
    Leads (areas [.regs, .tiles, .power, .hosts, .tallies, .out]) .thermalCritical s fun d =>
      d.power.therm.crit = true ∧ d.get CLK_STAT_LIMITER = 5 ∧ d.get CLK_EVT_CRIT = 1 ∧
      ∀ n, n < 256 → ((s.dev.tile n).owner = oGUEST ∨ (s.dev.tile n).owner = oWITNESS) → (s.dev.tile n).state = tRUNNING →
        (d.tile n).critStop = true ∧ (d.tile n).get TLE_CTRL_STOP = 1) ∧
  (∀ s, s.dev.up = true → (s.dev.power.therm.crit = true ∨ s.dev.get CLK_STAT_DIV ≠ 8 ∨ s.dev.power.therm.critSince = none) →
    Leads (only []) .thermalCritical s fun d => d = s.dev) ∧
  (∀ s, s.dev.up = true → s.dev.power.therm.crit = true →
    (∃ t, s.dev.power.therm.coolSince = some t ∧ t + 700000000 ≤ s.dev.clk) →
    Leads (butAreas [.savedTiles, .chans, .mode, .sec, .job, .hold, .rst, .clk, .podTime, .status]) .criticalRecover s fun d =>
      d.power.therm = { s.dev.power.therm with crit := false }) ∧
  (∀ s, s.dev.runs → s.dev.power.therm.crit = true → (∃ t, s.dev.power.therm.coolSince = some t ∧ t + 700000000 ≤ s.dev.clk) →
    (∀ n, n < 256 → (s.dev.tile n).critStop = true → (s.dev.tile n).state = tSTOPPED ∧ (s.dev.tile n).idleQueues ∧ (s.dev.tile n).get TLE_PROG_COUNT ≠ 0 ∧
      (s.dev.tile n).on TLE_CTRL_STOP = false) →
    Leads (areas [.regs, .tiles, .power]) .criticalRecover s fun d => d.power = { s.dev.power with therm := { s.dev.power.therm with crit := false } } ∧
      ∀ n, n < 256 → if (s.dev.tile n).critStop then (d.tile n).state = tRUNNING ∧ (d.tile n).critStop = false ∧ (d.tile n).get TLE_PC_PC = (s.dev.tile n).get TLE_PC_PC
        else d.tile n = s.dev.tile n) ∧
  (∀ s, s.dev.up = true → (s.dev.power.therm.crit = false ∨ s.dev.power.therm.coolSince = none) → Leads (only []) .criticalRecover s fun d => d = s.dev) ∧
  (∀ s, s.dev.up = true → s.dev.power.ref = true →
    Leads (butAreas [.job, .start, .hold, .clk, .podTime, .status]) .refclkLost s fun d => d.power = { s.dev.power with ref := false }) ∧
  (∀ c s, s.dev.up = true → s.dev.power.ref = true → s.dev.rst.active = [] → s.dev.mode.role ≠ .banked → c < 64 → s.dev.on (DMA_CTRL_EN c) = true →
    Leads (butAreas [.job, .start, .hold, .clk, .podTime, .status]) .refclkLost s fun d => d.power = { s.dev.power with ref := false } ∧
      d.get CLK_EVT_REF_LOST = 1 ∧ d.get CLK_STAT_REF_OK = 0 ∧ d.get CLK_STAT_HBM_LOCK = 0 ∧ d.get CLK_STAT_DDR_LOCK = 0 ∧ d.get CLK_STAT_OPT_LOCK = 0 ∧
      d.get CLK_STAT_ETH_LOCK = 0 ∧ d.rst.fencing = 1 ∧ d.get RST_STAT_ACTIVE = 1 ∧ d.rst.active.map (fun r => (r.unit, r.rung)) = [(uCHIP, 3)] ∧
      d.on (DMA_CTRL_STOP c) = true) ∧
  (∀ s, s.dev.up = false → Leads (only []) .refclkLost s fun d => d = s.dev) ∧
  (∀ s, s.dev.power.pwrok = true → s.dev.power.ref = false →
    Leads (only [.reg CLK_STAT_REF_OK.addr, .power]) .refclkRestored s fun d =>
      d.power.ref = true ∧ d.get CLK_STAT_ROOT_LOCK = 1 ∧ d.get CLK_STAT_REF_OK = 1 ∧ d.get CLK_STAT_HBM_LOCK = 1 ∧ d.get CLK_STAT_DDR_LOCK = 1 ∧
      d.get CLK_STAT_OPT_LOCK = 1 ∧ d.get CLK_STAT_ETH_LOCK = 1) ∧
  (∀ s, s.dev.power.pwrok = true → s.dev.power.ref = true → Leads (only []) .refclkRestored s fun d => d = s.dev) ∧
  (∀ (temps : List (BitVec 16)) s, s.dev.up = true → (∃ c, c < 24 ∧ c < temps.length ∧ s.dev.get (MEM_DDR_CH_STATE c) = 1) →
    Leads (orRecord (only [.reg CLK_THERM_DIMM_HOT.addr, .reg CLK_THERM_CHANNEL.addr, .reg CLK_EVT_DIMM_HOT.addr])) (.dimmTempRead temps) s fun d =>
      ∃ c x, c < 24 ∧ s.dev.get (MEM_DDR_CH_STATE c) = 1 ∧ temps[c]? = some x ∧ d.get CLK_THERM_CHANNEL = c ∧ d.get CLK_THERM_DIMM_HOT = x.toNat ∧
        (∀ c' y, c' < 24 → s.dev.get (MEM_DDR_CH_STATE c') = 1 → temps[c']? = some y → y.toInt ≤ x.toInt) ∧
        (950 ≤ x.toInt → d.get CLK_EVT_DIMM_HOT = 1)) ∧
  (∀ (temps : List (BitVec 16)) c x s, s.dev.up = true → c < 24 → s.dev.get (MEM_DDR_CH_STATE c) = 1 → temps[c]? = some x →
    Leads (orRecord (only [.reg CLK_THERM_DIMM_HOT.addr, .reg CLK_THERM_CHANNEL.addr, .reg CLK_EVT_DIMM_HOT.addr])) (.dimmTempRead temps) s fun d =>
      (⟨.land, Kind.dimmRefresh, [c, if 850 ≤ x.toInt then 2 else 1], []⟩ : Msg) ∈ s.dev.sentSince d) ∧
  (∀ (temps : List (BitVec 16)) s, s.dev.up = true → (∀ c, c < 24 → c < temps.length → s.dev.get (MEM_DDR_CH_STATE c) ≠ 1) →
    Leads (only [.reg CLK_THERM_DIMM_HOT.addr, .reg CLK_THERM_CHANNEL.addr]) (.dimmTempRead temps) s fun d =>
      d.get CLK_THERM_DIMM_HOT = 0 ∧ d.get CLK_THERM_CHANNEL = 0)

/-- A waiting role trigger is taken up, a proposal expires, the working key is rolled. A waiting host command is taken up again while its
session stands, to be carried out when the block next idles (the model's frozen list), and goes where the slot serves another session (log
entry 225); a proposal not approved in its time goes, with its event; the roll uses one leaf of the identity key and leaves the new key
ready with none used. (spec/17_modes.md: Rules that only the combination decides; spec/15_security.md: Two-key changes, Certificates and
credentials) -/
def Obligations.WaitingTriggersAndTheSecurityClock : Prop :=
  (∀ c n rest s, s.dev.up = true → s.dev.mode.transit = none → s.dev.mode.waiting = .host c n :: rest →
    (∀ t ∈ rest, ∃ c' k, t = .host c' k) → s.dev.mode.legal = true → s.dev.hNumber (n % 16) = n →
    Leads (only [.mode, .obs]) .roleTriggerDequeue s fun d => d.mode = { s.dev.mode with waiting := rest } ∧ d.obs.frozen = s.dev.obs.frozen ++ [c]) ∧
  (∀ c n rest s, s.dev.up = true → s.dev.mode.transit = none → s.dev.mode.waiting = .host c n :: rest →
    (∀ t ∈ rest, ∃ c' k, t = .host c' k) → s.dev.mode.legal = true → s.dev.hNumber (n % 16) ≠ n →
    Leads (only [.mode]) .roleTriggerDequeue s fun d => d.mode = { s.dev.mode with waiting := rest }) ∧
  (∀ p s, s.dev.up = true → s.dev.sec.pending = some p → p.since + proposalTicks ≤ s.dev.clk →
    Leads (areas [.regs, .hosts, .tallies, .sec, .out]) .proposalExpire s fun d =>
      d.sec = { s.dev.sec with pending := none } ∧ d.get SEC_STAT_PENDING = 0 ∧ d.get SEC_STAT_PROLE = 0 ∧ d.get SEC_EVT_EXPIRED = 1) ∧
  (∀ s, s.dev.up = true → s.dev.sec.wkMaking = true → s.dev.identityLeft = true →
    Leads (areas [.regs, .hosts, .tallies, .sec, .out]) .workingKeyRoll s fun d =>
      d.sec.wkMaking = false ∧ d.sec.wkGen = s.dev.sec.wkGen + 1 ∧ d.get SEC_LEAF_ID_USED = s.dev.get SEC_LEAF_ID_USED + 1 ∧ d.get SEC_LEAF_WK_USED = 0 ∧
      d.get SEC_STAT_WK_READY = 1 ∧ d.get SEC_EVT_WK_ROLL = 1)

/-- RST_CTRL, RST_PWR and RST_QCLR reset, power and release units, or answer why not. A rung 1 reset of the sync unit, port engine or host
engine, of the course engine outside a course and of the shore engine with nothing shored completes, answers OK, is counted and leaves
what it says; a rung the tray, chip or crossconnect does not have is FAULT, a tray E4 without its policy AUTH, the E4 of a slot that
serves a position BUSY; slot power follows RST_PWR, but for a slot in QUARANTINE, unless a bound position would lose it (BUSY); a
quarantined slot or crossconnect is released with its counts, or BUSY; RST_KICK is OK. (spec/14_resets.md: The escalation ladder,
Registers) -/
def Obligations.ResetsOrderedByRegister : Prop :=
  (∀ v s, s.dev.up = true → s.dev.resetsRest → RST_CTRL_GO.of v = 1 → RST_CTRL_RUNG.of v = 1 →
    (RST_CTRL_UNIT.of v ∈ [0x81, 0x84, 0x85] ∨ (RST_CTRL_UNIT.of v = 0x80 ∧ s.dev.inCourse = false) ∨
      (RST_CTRL_UNIT.of v = 0x82 ∧ s.dev.slotsIn sSHORED = [] ∧ s.dev.slotsIn sREINT = [])) →
    Leads (orRecord (areas [.regs, .rst, .status])) (.rstCtrlGo v) s fun d => d.showsReset (RST_CTRL_UNIT.of v) 1 0 ∧ d.get RST_CTRL_GO = 0 ∧ d.status = stOK ∧ d.rst.active = [] ∧
      d.rst.counts = s.dev.rst.counts ++ [(RST_CTRL_UNIT.of v, 1, s.dev.clk)]) ∧
  (∀ v s, s.dev.up = true → RST_CTRL_GO.of v = 1 → RST_CTRL_UNIT.of v ∈ [0x81, 0x90, 0xFF] → RST_CTRL_RUNG.of v = 0 →
    Leads (only [.status]) (.rstCtrlGo v) s fun d => d.status = stFAULT) ∧
  (∀ v s, s.dev.up = true → RST_CTRL_GO.of v = 1 → RST_CTRL_UNIT.of v = 0xA9 → RST_CTRL_RUNG.of v = 4 → s.dev.on SEC_POLICY_TRAY_E4 = false →
    Leads (only [.status]) (.rstCtrlGo v) s fun d => d.status = stAUTH) ∧
  (∀ v n s, s.dev.up = true → n < 8 → RST_CTRL_GO.of v = 1 → RST_CTRL_UNIT.of v = uSlot n → RST_CTRL_RUNG.of v = 4 → s.dev.on SEC_POLICY_SLOT_E4 = true →
    s.dev.slotPos n ≠ noPos → Leads (only [.status]) (.rstCtrlGo v) s fun d => d.status = stBUSY) ∧
  (∀ v s, s.dev.up = true →
    (∀ n, n < 8 → bitOf (s.dev.get RST_PWR_EN) n = true → bitOf (RST_PWR_EN.of v) n = false → s.dev.slotPos n = noPos) →
    Leads (only [.reg RST_PWR_EN.addr, .status, .out]) (.rstPwrWrite v) s fun d => d.status = stOK ∧
      ∀ n, n < 8 → bitOf (d.get RST_PWR_EN) n = (bitOf (RST_PWR_EN.of v) n && (bitOf (s.dev.get RST_PWR_EN) n || !(s.dev.rst.out.contains (uSlot n))))) ∧
  (∀ v s, s.dev.up = true →
    (∃ n, n < 8 ∧ bitOf (s.dev.get RST_PWR_EN) n = true ∧ bitOf (RST_PWR_EN.of v) n = false ∧ s.dev.slotPos n ≠ noPos) →
    Leads (only [.status]) (.rstPwrWrite v) s fun d => d.status = stBUSY) ∧
  (∀ v s, s.dev.up = true → RST_QCLR_SLOT.of v ≠ 0 → RST_QCLR_XCN.of v = 0 →
    (∀ n, n < 8 → bitOf (RST_QCLR_SLOT.of v) n = true → uSlot n ∈ s.dev.rst.out → s.dev.slotPos n = noPos) →
    Leads (only ([.rst, .status] ++ (List.range 8).map fun n => .reg (HUB_SLOT_STATE n).addr)) (.rstQclrSlot v) s fun d => d.status = stOK ∧
      ∀ n, n < 8 → if bitOf (RST_QCLR_SLOT.of v) n = true ∧ uSlot n ∈ s.dev.rst.out then
        uSlot n ∉ d.rst.out ∧ (∀ c ∈ d.rst.counts, c.1 ≠ uSlot n) ∧ d.slotState n = sABSENT else d.slotState n = s.dev.slotState n) ∧
  (∀ v n s, s.dev.up = true → n < 8 → bitOf (RST_QCLR_SLOT.of v) n = true → uSlot n ∈ s.dev.rst.out → s.dev.slotPos n ≠ noPos →
    Leads (only [.status]) (.rstQclrSlot v) s fun d => d.status = stBUSY) ∧
  (∀ v s, s.dev.up = true → RST_QCLR_SLOT.of v = 0 → RST_QCLR_XCN.of v = 1 → uXCN ∈ s.dev.rst.out → s.dev.e4Ok uXCN = true →
    Leads (only [.reg XCN_STAT_ERR.addr, .rst, .status]) (.rstQclrXcn v) s fun d =>
      d.status = stOK ∧ uXCN ∉ d.rst.out ∧ (∀ c ∈ d.rst.counts, c.1 ≠ uXCN) ∧ d.get XCN_STAT_ERR = 0) ∧
  (∀ v s, s.dev.up = true → RST_QCLR_XCN.of v = 1 → uXCN ∈ s.dev.rst.out → s.dev.e4Ok uXCN = false →
    Leads (only [.status]) (.rstQclrXcn v) s fun d => d.status = stBUSY) ∧
  (∀ v s, s.dev.up = true → Leads (only [.status]) (.rstKick v) s fun d => d.status = stOK)

/-- The reset timers, the ladder's windows, and the ends of stops and of BANKED. An E3's fence wait ends in BOOT; a drained rung 1 reset of a
DMA channel ends; the hold of a tray E4 restores power; the tile, fault, DMA, stop and control-core watchdogs start the reset of their
unit with their cause; a stopping DMA channel or tile becomes STOPPED; waking from BANKED returns to GUEST. (spec/14_resets.md: Fence
first, Hangs, The escalation ladder, BANKED) -/
def Obligations.WatchdogsAndResetTimers : Prop :=
  (∀ s, s.dev.up = true → s.dev.rst.fencing ≠ 0 → s.dev.mode.legal = true →
    Leads (butAreas [.agents, .ports, .streams, .power, .xcn, .job, .start, .hold, .clk, .podTime, .status, .free]) .e3FenceTimeout s fun d => d.rst.fencing = 0 ∧ d.rst.active = [] ∧ d.rst.afterE3 = true ∧ d.mode.fw = .boot ∧ d.get RST_STAT_FENCE_OVER = 1) ∧
  (∀ (u : Byte) n r s, s.dev.up = true → n < 64 → u.toNat = 0x40 + n → s.dev.rst.active = [r] → r.unit = 0x40 + n → r.rung = 1 →
    Leads (butAreas [.savedTiles, .watches, .power, .sec, .job, .start, .hold, .clk, .podTime, .status]) (.resetDrainTimeout u) s fun d => d.get (DMA_CTRL_EN n) = 0 ∧ d.rst.active = [] ∧ d.get RST_STAT_ACTIVE = 0) ∧
  (∀ (u : Byte) r s, s.dev.up = true → u.toNat = uTRAY → s.dev.rst.active = [r] → r.unit = uTRAY → r.rung = 4 → s.dev.rst.out = [] →
    Leads (areas [.regs, .rst, .out]) (.e4PowerHoldEnd u) s fun d => d.get RST_PWR_EN = 0xFF ∧ d.get XCN_CTRL_PWR_EN = 1 ∧ d.rst.active = []) ∧
  (∀ (t : TileId) x s, s.dev.up = true → s.dev.resetsRest → 3 ≤ x → x < 64 → s.dev.tctx t.val = x → (s.dev.tile t.val).state = tRUNNING →
    (s.dev.tile t.val).owner ≠ oNONE → (s.dev.tile t.val).busyQueue = true → s.dev.get RST_WDOG_TILE_MS ≠ 0 → s.dev.get RST_CFG_DRAIN_US ≠ 0 →
    s.dev.atLimit x 0 = false →
    Leads (butAreas [.power, .hold, .clk, .podTime, .status]) (.tileWatchdog t) s fun d => d.rst.active = [⟨x, 0, rcTILE, false⟩] ∧ d.showsReset x 0 rcTILE ∧ d.get RST_EVT_WATCHDOG = 1 ∧
      (d.tile t.val).get TLE_CTRL_STOP = 1) ∧
  (∀ r f (t : TileId) s, s.dev.up = true → s.dev.resetsRest → s.dev.mmu.faults = [f] → f.req = r → 3 ≤ f.ctx → f.ctx < 64 →
    s.dev.tctx t.val = f.ctx → (s.dev.tile t.val).state = tRUNNING → (s.dev.tile t.val).owner ≠ oNONE → s.dev.get RST_WDOG_FAULT_MS ≠ 0 →
    s.dev.get RST_CFG_DRAIN_US ≠ 0 → s.dev.atLimit f.ctx 0 = false →
    Leads (butAreas [.power, .hold, .clk, .podTime, .status]) (.faultWatchdog r) s fun d => d.rst.active = [⟨f.ctx, 0, rcFAULT, false⟩] ∧ d.showsReset f.ctx 0 rcFAULT ∧ d.get RST_EVT_WATCHDOG = 1) ∧
  (∀ (n : ChanId) s, s.dev.up = true → s.dev.resetsRest → s.dev.on (DMA_STAT_BUSY n.val) = true → s.dev.on (DMA_CTRL_EN n.val) = true →
    (s.dev.chan n.val).started = true → (s.dev.chan n.val).held = false → s.dev.get RST_CFG_DRAIN_US ≠ 0 → s.dev.atLimit (0x40 + n.val) 1 = false →
    Leads (butAreas [.power, .hold, .clk, .podTime, .status]) (.dmaWatchdog n) s fun d => d.rst.active = [⟨0x40 + n.val, 1, rcDMA, false⟩] ∧ d.showsReset (0x40 + n.val) 1 rcDMA ∧
      d.get (DMA_CTRL_STOP n.val) = 1 ∧ d.get RST_EVT_WATCHDOG = 1) ∧
  (∀ (t : TileId) s, s.dev.up = true → s.dev.resetsRest → (s.dev.tile t.val).state = tRUNNING → (s.dev.tile t.val).on TLE_CTRL_STOP = true →
    s.dev.shore.slot = none → s.dev.wit.sel = [] → s.dev.atLimit (uDie (t.val / 64)) 2 = false →
    Leads (butAreas [.power, .hold, .clk, .podTime, .status]) (.stopWatchdog t) s fun d => d.showsReset (uDie (t.val / 64)) 2 rcSTOP ∧ d.rst.active = [] ∧ d.get RST_EVT_WATCHDOG = 1) ∧
  (∀ core n s, s.dev.up = true → s.dev.mode.fw = .run → s.dev.mode.role ≠ .banked → s.dev.rst.active = [] → n < 64 → s.dev.on (DMA_CTRL_EN n) = true →
    s.dev.atLimit uCHIP 3 = false →
    Leads (butAreas [.power, .hold, .clk, .podTime, .status]) (.ccWatchdog core) s fun d => d.rst.active = [⟨uCHIP, 3, rcCC, false⟩] ∧ d.rst.fencing = 1 ∧ d.get RST_STAT_ACTIVE = 1 ∧ d.get RST_EVT_WATCHDOG = 1) ∧
  (∀ (n : ChanId) s, s.dev.up = true → s.dev.on (DMA_CTRL_STOP n.val) = true → s.dev.rst.active = [] → s.dev.rst.fencing = 0 → s.dev.mmu.reclaim ≠ .freezing →
    s.dev.mode.transit ≠ some .banked →
    Leads (butAreas [.power, .job, .start, .hold, .clk, .podTime, .status]) (.dmaStopDone n) s fun d => d.get (DMA_CTRL_STOPPED n.val) = 1 ∧ d.get (DMA_CTRL_STOP n.val) = 0 ∧ d.get (DMA_CTRL_EN n.val) = 0 ∧
      (d.chan n.val).started = false) ∧
  (∀ (t : TileId) s, s.dev.up = true → s.dev.halted = false → (s.dev.tile t.val).state = tRUNNING → (s.dev.tile t.val).on TLE_CTRL_STOP = true →
    (s.dev.tile t.val).passes = [] → (s.dev.tile t.val).moves = [] → (s.dev.tile t.val).descs = [] → (s.dev.tile t.val).faulting = false →
    (s.dev.tile t.val).critStop = false → s.dev.rst.active = [] → s.dev.rst.fencing = 0 → s.dev.mmu.reclaim ≠ .freezing → s.dev.mode.transit ≠ some .banked →
    Leads (butAreas [.power, .job, .hold, .clk, .podTime, .status]) (.tileStopDone t) s fun d => (d.tile t.val).state = tSTOPPED ∧ (d.tile t.val).get TLE_CTRL_EN = 0 ∧ (d.tile t.val).get TLE_CTRL_STOP = 0) ∧
  (∀ x s, s.dev.up = true → s.dev.mode.role = .banked → s.dev.mode.transit = some x → s.dev.mode.bankedTiles = [] → s.dev.rst.waiting = [] →
    s.dev.held = false → s.dev.mode.bankedFrom = .guest → s.dev.mode.bankedGuest = true → s.dev.mode.legal = true →
    Leads (butAreas [.power, .job, .hold, .clk, .podTime, .status]) .bankedWakeDone s fun d => d.mode.role = .guest ∧ d.mode.guestOn = true ∧ d.mode.transit = none)

/-- Power rises and falls, firmware boots or fails, the self-test runs and ends. OZ_PWROK samples straps and memories; its fall clears what is
volatile; BOOT without an image goes to recovery with cause 1, with an accepted image to RUN; recovery answers and their time; the
verification and the self-test start, are refused BUSY, and end, giving every tile back. (spec/18_package.md: Control lands and straps,
Power; spec/15_security.md: Boot and firmware; spec/01_roles.md: Self-test) -/
def Obligations.PowerBootAndSelfTest : Prop :=
  (∀ rack tray enrolN hbm (dimms : List (Option Dimm)) s, s.dev.power.pwrok = false → rack.toNat ≠ 0xFFFF →
    Leads (areas [.regs, .hosts, .tallies, .power, .mode, .out]) (.ozPwrokRise rack tray enrolN hbm dimms) s fun d =>
      d.power.pwrok = true ∧ d.get RNG_ADDR_RACK = rack.toNat ∧ d.get RNG_ADDR_TRAY = tray.toNat ∧ d.get SEC_STAT_ENROL = (!enrolN).toNat ∧
      d.get CLK_STAT_ROOT_LOCK = 1 ∧ d.get MEM_HBM_STAT_UP = hbm.toNat ∧ d.get DST_LIFE_CYCLES = (s.dev.get DST_LIFE_CYCLES + 1) % 2 ^ 24 ∧
      ∀ n, n < 24 → dimms.getD n none = none → d.get (MEM_DDR_CH_STATE n) = 0) ∧
  (∀ s, s.dev.power.pwrok = true → s.dev.lastRole ≠ Role.quarantine.code →
    Leads (butAreas [.found, .circ, .clk, .status, .free, .out]) .ozPwrokFall s fun d =>
      d.power.pwrok = false ∧ d.mem = [] ∧ d.mode = {} ∧ d.hosts = [] ∧ d.peers = [] ∧ d.get DST_LIFE_SECONDS = s.dev.obs.lifeSaved % 2 ^ 40) ∧
  (∀ s, s.dev.up = true → s.dev.mode.fw = .boot → s.dev.mode.legal = true → s.dev.on SEC_STAT_WK_READY = true → s.dev.rst.afterE3 = false →
    s.dev.sec.flash = some [] → s.dev.mode.role = .service →
    Leads (areas [.regs, .tiles, .ports, .streams, .peers, .hosts, .circ, .tallies, .mode, .sync, .found, .obs, .sec, .shore, .rst, .free, .out]) (.bootRun true) s fun d => d.mode.fw = .recovery ∧ d.get SEC_STAT_FAILCAUSE = 1 ∧ d.get SEC_STAT_BOOTSRC = 3 ∧ d.get SEC_EVT_RECOVERY = 1) ∧
  (∀ img s, s.dev.up = true → s.dev.mode.fw = .boot → s.dev.mode.legal = true → s.dev.on SEC_STAT_WK_READY = true → s.dev.rst.afterE3 = false →
    s.dev.sec.flash = some img →
    Leads (areas [.regs, .tiles, .ports, .streams, .peers, .hosts, .circ, .tallies, .mode, .sync, .found, .obs, .sec, .shore, .rst, .free, .out]) (.bootRun true) s fun d =>
      s.dev.imageCause img = 0 → d.mode.fw = .run ∧ d.get SEC_STAT_FAILCAUSE = 0 ∧ d.get SEC_STAT_BOOTSRC = 0) ∧
  (∀ f s, s.dev.up = true → frameOk f = true → s.dev.forMe f = true → fType f = 4 → fSrc f = s.dev.partnerAddr → 16 ≤ (fData f).length →
    numAt (fData f) 0 1 = 3 → s.dev.mode.fw = .recovery → s.dev.sec.asking = true →
    Leads (only [.sec]) (.recovery f) s fun d => d.sec.asking = false) ∧
  (∀ s, s.dev.up = true → s.dev.mode.fw = .recovery → s.dev.sec.asking = true →
    Leads (only [.sec]) .recoveryPartnerTimeout s fun d => d.sec.asking = false) ∧
  (∀ s, s.dev.up = true → s.dev.mode.fw = .run → s.dev.rst.verifying = true → s.dev.lastHeld = none →
    Leads (areas [.regs, .ports, .streams, .peers, .tallies, .rst, .out]) .shardVerifyDone s fun d => d.rst.verifying = false ∧ d.get CRS_CTRL_CARRY_EN = CRS_CTRL_CARRY_EN.of (BitVec.ofNat 64 (numAt s.dev.job.cfg 8 8))) ∧
  (∀ s, s.dev.up = true → s.dev.mode.fw = .run → s.dev.mode.legal = true → s.dev.mode.testing = false → s.dev.on HUB_POST_DONE = false →
    Leads (areas [.regs, .tiles, .mode, .out]) .postAutostart s fun d => d.mode.testing = true ∧ d.get HUB_POST_GO = 1 ∧
      ∀ n, n < 256 → (d.tile n).owner = if (s.dev.tile n).state ≠ tRETIRED ∧ (s.dev.tile n).owner ∈ [oNONE, oWITNESS] then oSERVICE else (s.dev.tile n).owner) ∧
  (∀ v s, s.dev.up = true → s.dev.mode.fw = .run → s.dev.mode.legal = true → HUB_POST_GO.of v = 1 → s.dev.mode.role ∈ [.service, .quarantine] → s.dev.mode.testing = false →
    (∀ n, n < 256 → (s.dev.tile n).owner ≠ oSERVICE) →
    Leads (areas [.regs, .tiles, .mode, .status, .out]) (.hubPostGo v) s fun d => d.mode.testing = true ∧ d.get HUB_POST_GO = 1 ∧ d.status = stOK ∧
      ∀ n, n < 256 → (d.tile n).owner = if (s.dev.tile n).state ≠ tRETIRED ∧ (s.dev.tile n).owner ∈ [oNONE, oWITNESS] then oSERVICE else (s.dev.tile n).owner) ∧
  (∀ v s, s.dev.up = true → HUB_POST_GO.of v = 1 →
    (s.dev.mode.testing = true ∨ s.dev.mode.role = .watch ∨ s.dev.mode.role = .shore ∨ s.dev.mode.role = .guest ∨ s.dev.mode.role = .banked ∨
      ∃ n, n < 256 ∧ (s.dev.tile n).owner = oSERVICE) →
    Leads (only [.status]) (.hubPostGo v) s fun d => d.status = stBUSY) ∧
  (∀ code s, s.dev.up = true → s.dev.mode.testing = true → s.dev.mode.legal = true → s.dev.get MEM_HBM_STAT_UP = 2 ^ 32 - 1 →
    Leads (areas [.regs, .tiles, .hosts, .tallies, .mode, .out]) (.postEnd code) s fun d => d.mode.testing = false ∧ d.get HUB_POST_GO = 0 ∧ d.get HUB_POST_DONE = 1 ∧
      d.get HUB_POST_PASS = (decide (code = 0)).toNat ∧ d.get HUB_POST_FIRST_FAIL = code.val ∧ d.get HUB_EVT_POST = 1 ∧
      ∀ n, n < 256 → (s.dev.tile n).owner = oSERVICE → (d.tile n).owner ≠ oSERVICE)

/-- A Quoin agent passes its states, is bound, admitted, fenced and released. Reset, self-test, training and its loss, BIND, RELEASE, ADMIT,
FENCE, UNFENCE and the quiet timeout lead from state to state with their answers; BIND in another state is BUSY; a fence answers an open
transfer FENCED, a second FENCE is OK and changes no register; a dump is answered and sent. A reset keeps the level of HALT_N, and the
agent that leaves it with HALT_N low halts its host. (spec/02_quoin_agent.md: Agent states, Fencing, The Quoin link protocol) -/
def Obligations.AgentStatesAndFencing : Prop :=
  (∀ n s, Leads (only [.agent n.val]) (.agentReset n) s fun d => d.agent n.val = { haltLow := (s.dev.agent n.val).haltLow }) ∧
  (∀ n pass s, (s.dev.agent n.val).state = aRESET → Leads (only [.agent n.val, .free, .out]) (.agentSelftestDone n pass) s fun d =>
    (d.agent n.val).state = aSIDEBAND ∧ (d.agent n.val).on QAG_STATE_SB_UP = true ∧ (d.agent n.val).selfFail = !pass ∧
      (d.agent n.val).on QAG_STATE_HALTED = ((s.dev.agent n.val).haltLow || (s.dev.agent n.val).on QAG_STATE_HALTED) ∧
      s.dev.news d 4 = [(.ozmund n.val, [0x01, 1, 1, if pass then stOK else stFAULT])] ++
        if (s.dev.agent n.val).haltLow then [(.slotHost n.val, [])] else []) ∧
  (∀ n s, (s.dev.agent n.val).state = aSIDEBAND → (s.dev.agent n.val).selfFail = false → (s.dev.agent n.val).samples = [] →
    Leads (only [.agent n.val, .free, .out]) (.agentTrayTrained n) s fun d =>
      (d.agent n.val).state = aREADY ∧ (d.agent n.val).on QAG_STATE_TRAY_UP = true ∧
        s.dev.news d 4 = [(.ozmund n.val, [0x01, 0, 1, stOK])]) ∧
  (∀ n s, (s.dev.agent n.val).selfFail = true → Leads (only []) (.agentTrayTrained n) s fun d => d = s.dev) ∧
  (∀ n s, (s.dev.agent n.val).state = aREADY → Leads (only [.agent n.val]) (.agentTrayLost n) s fun d =>
    d.agent n.val = { ((s.dev.agent n.val).set QAG_STATE_TRAY_UP 0).set QAG_PODTIME_TIME (agentTime s.dev n.val) with timeAt := none }.set
      QAG_STATE_STATE aSIDEBAND) ∧
  (∀ n s, (s.dev.agent n.val).bound = true → Leads (only [.agent n.val]) (.agentTrayLost n) s fun d =>
    d.agent n.val = { ((s.dev.agent n.val).set QAG_STATE_TRAY_UP 0).set QAG_PODTIME_TIME (agentTime s.dev n.val) with timeAt := none }.set
      QAG_EVT_TRAY_DOWN 1) ∧
  (∀ n m s, (s.dev.agent n.val).takes m true [aREADY] false 8 → Leads (agentOnly n.val) (.bind n m) s fun d =>
    (d.agent n.val).state = aLOADING ∧ (d.agent n.val).get QAG_BIND_POSITION = m.position.toNat ∧ (d.agent n.val).get QAG_BIND_EPOCH = m.epoch.toNat ∧
      (d.agent n.val).step = leNat m.data ∧ (d.agent n.val).rAll = true ∧
      s.dev.news d 6 = [(.ozmund n.val, [0x06, 0, 1, stOK, m.epoch.toNat, m.position.toNat])]) ∧
  (∀ n m s, (s.dev.agent n.val).hears m = true → m.ver = 1 → m.sb = false → m.data.length = 8 → m.pkts ≠ 0 →
    (s.dev.agent n.val).state ∉ [aREADY, aFENCED] → Leads (agentOnly n.val) (.bind n m) s fun d =>
      d.out = s.dev.out ++ [(s.dev.agent n.val).resp n.val m stBUSY] ∧ (d.agent n.val).regs = (s.dev.agent n.val).regs) ∧
  (∀ n m s, (s.dev.agent n.val).takes m false [aLOADING, aLIVE, aFENCED] true 0 → (s.dev.agent n.val).heldWrites = [] →
    Leads (agentOnly n.val) (.release n m) s fun d =>
      (d.agent n.val).state = aREADY ∧ (d.agent n.val).cstate = 0 ∧ (d.agent n.val).get QAG_BIND_EPOCH = 0 ∧ (d.agent n.val).regions = [] ∧
        (d.agent n.val).key0 = [] ∧ (d.agent n.val).key1 = [] ∧ (d.agent n.val).get (QAG_CNT_VALUE 0) = 0) ∧
  (∀ n m s, (s.dev.agent n.val).takes m false [aLOADING] false 8 → (s.dev.agent n.val).tableLength = false → (s.dev.agent n.val).tableFault = false →
    (s.dev.agent n.val).holds (numAt m.data 0 4) = true →
    Leads (areas [.memory, .agents, .out]) (.quoinAdmit n m) s fun d => (d.agent n.val).state = aLIVE ∧ (d.agent n.val).step = m.arg.toNat ∧
      (d.agent n.val).markKey = (s.dev.agent n.val).key (numAt m.data 0 4) ∧ d.out = s.dev.out ++ [(s.dev.agent n.val).resp n.val m stOK]) ∧
  (∀ n m s, (s.dev.agent n.val).takes m false [aLOADING, aLIVE] true 0 → (s.dev.agent n.val).cstate = 0 → (s.dev.agent n.val).deferred = [] →
    (s.dev.agent n.val).xfers = [] → Leads (areas [.memory, .agents, .out]) (.fence n m) s fun d => (d.agent n.val).state = aFENCED ∧ (d.agent n.val).fenceReason = 1 ∧
      (d.out.drop s.dev.out.length).take 2 = [(s.dev.agent n.val).resp n.val m stOK, ⟨.slotHost n.val, Kind.hostStop, [], []⟩]) ∧
  (∀ n m x s, (s.dev.agent n.val).takes m false [aLOADING] true 0 → (s.dev.agent n.val).cstate = 0 → (s.dev.agent n.val).deferred = [] →
    (s.dev.agent n.val).xfers = [x] → x.last = none → x.closed = false →
    Leads (areas [.memory, .agents, .out]) (.fence n m) s fun d => (d.agent n.val).state = aFENCED ∧ (d.agent n.val).xfers = [{ x with closed := true }] ∧
      (d.out[s.dev.out.length + 1]?).map (fun y => (y.dest, y.args.take 6, y.args[8]?)) = some (.ozmund n.val,
        [0x06, x.sb.toNat, 1, stFENCED, (s.dev.agent n.val).get QAG_BIND_EPOCH, (s.dev.agent n.val).get QAG_BIND_POSITION], some x.seq.toNat)) ∧
  (∀ n m s, (s.dev.agent n.val).takes m false [aFENCED] true 0 → Leads (agentOnly n.val) (.fence n m) s fun d =>
    d.out = s.dev.out ++ [(s.dev.agent n.val).resp n.val m stOK] ∧ (d.agent n.val).regs = (s.dev.agent n.val).regs) ∧
  (∀ n m s, (s.dev.agent n.val).takes m false [aFENCED] true 0 → Leads (agentOnly n.val) (.unfence n m) s fun d =>
    (d.agent n.val).state = aLOADING ∧ (d.agent n.val).on QAG_CTRL_QUIET = false ∧ (d.agent n.val).doneSent = false ∧
      d.out = s.dev.out ++ [(s.dev.agent n.val).resp n.val m stOK]) ∧
  (∀ n s, (s.dev.agent n.val).state = aFENCED → (s.dev.agent n.val).doneSent = false → Leads (agentOnly n.val) (.fenceQuietTimeout n) s fun d =>
    (d.agent n.val).doneSent = true ∧ (d.agent n.val).on QAG_EVT_FENCE_DONE = true ∧
      s.dev.news d 4 = [(.ozmund n.val, [0x44, (s.dev.agent n.val).path.toNat, 1, stFAULT])]) ∧
  (∀ n m s, (s.dev.agent n.val).takes m false [aLOADING, aLIVE, aFENCED] true 0 →
    Leads (areas [.memory, .agents, .out]) (.dumpReq n m) s fun d => d.out[s.dev.out.length]? = some ((s.dev.agent n.val).resp n.val m stOK) ∧
      (s.dev.news d 2).drop 1 = List.replicate 8 (.ozmund n.val, [0x32, (s.dev.agent n.val).path.toNat]))

/-- An agent takes blocks, counters, keys and register accesses. MKEY of another epoch is EPOCH; LOAD stores a block whose check agrees and
answers FAULT otherwise; COUNTER_SET and SIGNAL change the counters; a key is kept at its slot and a zero key is refused with its event;
WIT_KEY keeps its selectors; REG_RD and REG_WR read and write, a write of register 0x20 being FAULT; a reserved TYPE is UNSUPPORTED, and
one that only an agent sends is dropped. (spec/02_quoin_agent.md: State regions, MARK-128, Register block, The Quoin link protocol) -/
def Obligations.AgentLoadingKeysAndRegisters : Prop :=
  (∀ n m s, (s.dev.agent n.val).hears m = true → m.epoch.toNat ≠ (s.dev.agent n.val).get QAG_BIND_EPOCH →
    Leads (agentOnly n.val) (.mkey n m) s fun d => d.out = s.dev.out ++ [(s.dev.agent n.val).resp n.val m stEPOCH]) ∧
  (∀ n m s, (s.dev.agent n.val).takes m false [aLOADING, aFENCED] true 4096 → m.chk = true → crc64 m.data = m.check.toNat → m.arg.toNat % 4096 = 0 →
    m.last = true → m.sig = false → m.pkts = 1 → (s.dev.agent n.val).xfers = [] →
    Leads (areas [.memory, .agents, .out]) (.load n m) s fun d => d.out = s.dev.out ++ [(s.dev.agent n.val).resp n.val m stOK] ∧
      ((s.dev.agent n.val).checkAt m.arg.toNat = none → d.hostBytes n.val m.arg.toNat 4096 = m.data)) ∧
  (∀ n m s, (s.dev.agent n.val).takes m false [aLOADING, aFENCED] true 4096 → m.chk = true → crc64 m.data ≠ m.check.toNat →
    m.last = true → m.sig = false → m.pkts = 1 → (s.dev.agent n.val).xfers = [] →
    Leads (agentOnly n.val) (.load n m) s fun d => d.out = s.dev.out ++ [(s.dev.agent n.val).resp n.val m stFAULT]) ∧
  (∀ n m s, (s.dev.agent n.val).takes m false [aLOADING, aFENCED] false 4096 → m.arg.toNat ≤ 3584 → m.last = true → m.sig = false → m.pkts = 1 →
    (s.dev.agent n.val).xfers = [] →
    Leads (agentOnly n.val) (.counterSet n m) s fun d => d.out = s.dev.out ++ [(s.dev.agent n.val).resp n.val m stOK] ∧
      ∀ i, i < 512 → (d.agent n.val).get (QAG_CNT_VALUE (m.arg.toNat + i)) = numAt m.data (8 * i) 8) ∧
  (∀ n m s, (s.dev.agent n.val).takes m false [aLIVE] false 0 → m.last = true → m.sig = true → m.sigIdx.toNat < 4096 →
    Leads (only [.agent n.val]) (.quoinSignal n m) s fun d =>
      (d.agent n.val).get (QAG_CNT_VALUE m.sigIdx.toNat) = ((s.dev.agent n.val).get (QAG_CNT_VALUE m.sigIdx.toNat) + m.sigInc.toNat) % 2 ^ 64) ∧
  (∀ n m s, (s.dev.agent n.val).takes m false [aLOADING, aLIVE] false 32 → leNat (m.data.take 16) ≠ 0 → m.arg.toNat < 2 ^ 32 →
    Leads (agentOnly n.val) (.mkey n m) s fun d => (d.agent n.val).key m.arg.toNat = m.data ∧ (d.agent n.val).keyCourse m.arg.toNat = m.arg.toNat ∧
      (d.agent n.val).key (m.arg.toNat + 1) = (s.dev.agent n.val).key (m.arg.toNat + 1) ∧ d.out = s.dev.out ++ [(s.dev.agent n.val).resp n.val m stOK]) ∧
  (∀ n m s, (s.dev.agent n.val).takes m false [aLOADING, aLIVE] false 32 → leNat (m.data.take 16) = 0 →
    Leads (agentOnly n.val) (.mkey n m) s fun d => (d.agent n.val).on QAG_EVT_KEY_INVALID = true ∧ (d.agent n.val).key0 = (s.dev.agent n.val).key0 ∧
      (d.agent n.val).key1 = (s.dev.agent n.val).key1 ∧ d.out = s.dev.out ++ [(s.dev.agent n.val).resp n.val m stFAULT]) ∧
  (∀ n m s, (s.dev.agent n.val).takes m false [aLOADING, aLIVE] false 8 →
    Leads (agentOnly n.val) (.witKey n m) s fun d => (d.agent n.val).on QAG_WIT_CFG_KEY_OK = true ∧ d.out = s.dev.out ++ [(s.dev.agent n.val).resp n.val m stOK] ∧
      (d.agent n.val).selectors = (s.dev.agent n.val).selectors ++ [(m.arg.toNat, leNat m.data)]) ∧
  (∀ n m s, (s.dev.agent n.val).takes m true [aSIDEBAND, aREADY, aLOADING, aLIVE, aFENCED] true 0 → m.arg.toNat ≤ 0xFFFF → m.arg.toNat % 8 = 0 →
    m.arg.toNat ∉ [0, 0x38, 0x80] → Leads (agentOnly n.val) (.quoinRegRd n m .regRd) s fun d => d.out = s.dev.out ++
      [(s.dev.agent n.val).resp n.val m stOK 0 (leBytes 8 (Store.get agentDflt (s.dev.agent n.val).regs m.arg.toNat).toNat)]) ∧
  (∀ n m s, (s.dev.agent n.val).takes m true [aSIDEBAND, aREADY, aLOADING, aLIVE, aFENCED] true 0 → m.arg.toNat ∈ [0, 0x38, 0x80] →
    Leads (agentOnly n.val) (.quoinRegRd n m .regRd) s fun d => d.out = s.dev.out ++
      [(s.dev.agent n.val).resp n.val m stOK 0 (leBytes 8 (if m.arg.toNat = 0 then agentId n.val else if m.arg.toNat = 0x80
        then BitVec.ofNat 64 (agentTime s.dev n.val) else
          QAG_CBUF_USE_STALL_US.into (Store.get agentDflt (s.dev.agent n.val).regs 0x38) (stallNow s.dev (s.dev.agent n.val))).toNat)]) ∧
  (∀ n m s, (s.dev.agent n.val).takes m false [aLOADING, aLIVE] true m.data.length →
    Leads (agentOnly n.val) (.quoinRegRd n m .reserved) s fun d => d.out = s.dev.out ++ [(s.dev.agent n.val).resp n.val m stUNSUPPORTED] ∧
      (d.agent n.val).regs = (s.dev.agent n.val).regs) ∧
  (∀ n m s, (s.dev.agent n.val).hears m = true → m.epoch.toNat = (s.dev.agent n.val).get QAG_BIND_EPOCH →
    Leads (only []) (.quoinRegRd n m .agentOnly) s fun d => d = s.dev) ∧
  (∀ n m s, (s.dev.agent n.val).takes m true [aSIDEBAND, aREADY, aLOADING, aLIVE, aFENCED] true 8 → m.arg.toNat = 0x20 →
    Leads (agentOnly n.val) (.quoinRegWr n m) s fun d => d.out = s.dev.out ++ [(s.dev.agent n.val).resp n.val m stFAULT]) ∧
  (∀ n m s, (s.dev.agent n.val).takes m true [aSIDEBAND, aREADY, aLOADING, aLIVE, aFENCED] true 8 → m.arg.toNat ≤ 0xFFFF → m.arg.toNat % 8 = 0 →
    m.arg.toNat ∉ [0x08, 0x18, 0x20, 0x88, 0x98] →
    Leads (agentOnly n.val) (.quoinRegWr n m) s fun d => d.out = s.dev.out ++ [(s.dev.agent n.val).resp n.val m stOK] ∧
      Store.get agentDflt (d.agent n.val).regs m.arg.toNat =
        writtenWord agentRows m.arg.toNat (Store.get agentDflt (s.dev.agent n.val).regs m.arg.toNat) (BitVec.ofNat 64 (leNat m.data)))

/-- An agent arms a course, marks and drains it, and takes its decision. COURSE_ARM arms, or is BUSY with the step passed; MARK_REQ answers
MARK-128 of the frozen granules; DRAIN_REQ sends its blocks, or is deferred in a halt; DRAIN_ACK, ABANDON, COMMIT_NOTE and DIRTY_REQ act
on granules and maps; the context's answer ends its wait, and its timeout sends it again. (spec/02_quoin_agent.md: The cut, Copy-on-write
and the course buffer, The Quoin link protocol) -/
def Obligations.AgentServesACourse : Prop :=
  (∀ n m s, (s.dev.agent n.val).takes m false [aLIVE] false 16 → (s.dev.agent n.val).tableLength = false → (s.dev.agent n.val).tableFault = false →
    1 ≤ (s.dev.agent n.val).get QAG_CBUF_CFG_SIZE → (s.dev.agent n.val).get QAG_CBUF_CFG_SIZE ≤ 16 → (s.dev.agent n.val).holds (numAt m.data 0 4) = true →
    (s.dev.agent n.val).step < numAt m.data 8 8 → (s.dev.agent n.val).cstate ∉ [1, 2] →
    Leads (agentOnly n.val) (.courseArm n m) s fun d => (d.agent n.val).cstate = 1 ∧ (d.agent n.val).get QAG_COURSE_CUR = numAt m.data 0 4 ∧
      (d.agent n.val).armStep = numAt m.data 8 8 ∧ d.out = s.dev.out ++ [(s.dev.agent n.val).resp n.val m stOK]) ∧
  (∀ n m s, (s.dev.agent n.val).takes m false [aLIVE] false 16 → (s.dev.agent n.val).tableLength = false → (s.dev.agent n.val).tableFault = false →
    1 ≤ (s.dev.agent n.val).get QAG_CBUF_CFG_SIZE → (s.dev.agent n.val).get QAG_CBUF_CFG_SIZE ≤ 16 → (s.dev.agent n.val).holds (numAt m.data 0 4) = true →
    numAt m.data 8 8 ≤ (s.dev.agent n.val).step →
    Leads (agentOnly n.val) (.courseArm n m) s fun d => (d.agent n.val).regs = (s.dev.agent n.val).regs ∧
      d.out = s.dev.out ++ [(s.dev.agent n.val).resp n.val m stBUSY (s.dev.agent n.val).step]) ∧
  (∀ n m gs s, (s.dev.agent n.val).takes m false [aLIVE, aFENCED] false 0 → markGrans (s.dev.agent n.val) m.arg.toNat = some gs →
    (s.dev.agent n.val).holds ((s.dev.agent n.val).get QAG_COURSE_CUR) = true → (frozenBlocks s.dev n.val gs).all blockGood = true →
    Leads (agentOnly n.val) (.markReq n m) s fun d => (d.agent n.val).regs = (s.dev.agent n.val).regs ∧ d.out = s.dev.out ++
      [(s.dev.agent n.val).resp n.val m stOK 0 (leBytes 16 (mark128 (leNat (((s.dev.agent n.val).key ((s.dev.agent n.val).get QAG_COURSE_CUR)).take 16))
        (leNat (((s.dev.agent n.val).key ((s.dev.agent n.val).get QAG_COURSE_CUR)).drop 16)) (((frozenBlocks s.dev n.val gs).map (·.1)).flatten) 1 0 0))]) ∧
  (∀ n m gs s, (s.dev.agent n.val).takes m false [aLIVE] false 0 → m.arg.toNat / 2 ^ 32 ≠ 0 → drainGrans (s.dev.agent n.val) m.arg.toNat = some gs →
    (∀ g ∈ gs, (s.dev.agent n.val).gran g ≠ .sent) → (s.dev.agent n.val).on QAG_STATE_HALTED = false → (frozenBlocks s.dev n.val gs).all blockGood = true →
    Leads (agentOnly n.val) (.drainReq n m) s fun d => (d.agent n.val).regs = (s.dev.agent n.val).regs ∧
      s.dev.news d 2 = List.replicate (frozenBlocks s.dev n.val gs).length (.ozmund n.val, [0x15, 0]) ++ [(.ozmund n.val, [0x06, 0])]) ∧
  (∀ n m gs s, (s.dev.agent n.val).takes m false [aLIVE] false 0 → m.arg.toNat / 2 ^ 32 ≠ 0 → drainGrans (s.dev.agent n.val) m.arg.toNat = some gs →
    (∀ g ∈ gs, (s.dev.agent n.val).gran g ≠ .sent) → (s.dev.agent n.val).on QAG_STATE_HALTED = true →
    Leads (only [.agent n.val]) (.drainReq n m) s fun d => d.agent n.val = { s.dev.agent n.val with deferred := (s.dev.agent n.val).deferred ++ [m] }) ∧
  (∀ n m gs s, (s.dev.agent n.val).takes m false [aLIVE] false 0 → drainGrans (s.dev.agent n.val) m.arg.toNat = some gs →
    Leads (areas [.memory, .agents, .out]) (.drainAck n m) s fun d => (∀ g ∈ gs, (d.agent n.val).gran g = .sent ∧ g ∉ (d.agent n.val).copying) ∧
      ∀ g, g < 262144 → g ∉ gs → (d.agent n.val).gran g = (s.dev.agent n.val).gran g) ∧
  (∀ n m s, (s.dev.agent n.val).takes m false [aLIVE, aFENCED] false 0 → (s.dev.agent n.val).cstate ≠ 0 →
    (s.dev.agent n.val).get QAG_COURSE_CUR = m.arg.toNat % 2 ^ 32 → (s.dev.agent n.val).heldWrites = [] →
    Leads (agentOnly n.val) (.agentAbandon n m) s fun d => (d.agent n.val).cstate = 0 ∧ (d.agent n.val).grans = [] ∧
      (d.agent n.val).get QAG_CBUF_USE_USED = 0 ∧ d.out = s.dev.out ++ [(s.dev.agent n.val).resp n.val m stOK]) ∧
  (∀ n m s, (s.dev.agent n.val).takes m false [aLIVE] false 0 → (s.dev.agent n.val).pCourse = some (m.arg.toNat % 2 ^ 32) →
    Leads (only [.agent n.val]) (.commitNote n m) s fun d => (d.agent n.val).get QAG_COURSE_COMMITTED = m.arg.toNat % 2 ^ 32 ∧
      (d.agent n.val).mapR = (s.dev.agent n.val).mapP ∧ (d.agent n.val).rAll = false) ∧
  (∀ n m s, (s.dev.agent n.val).takes m false [aLOADING, aLIVE, aFENCED] false 0 →
    Leads (agentOnly n.val) (.dirtyReq n m) s fun d => (d.agent n.val).regs = (s.dev.agent n.val).regs ∧
      d.out[s.dev.out.length]? = some ((s.dev.agent n.val).resp n.val m stOK) ∧ (s.dev.news d 2).drop 1 = List.replicate 8 (.ozmund n.val, [0x1B, 0])) ∧
  (∀ n m s, (s.dev.agent n.val).hears m = true → m.epoch.toNat = (s.dev.agent n.val).get QAG_BIND_EPOCH →
    (s.dev.agent n.val).ctxWait = some m.tag.toNat → m.status = 0 →
    Leads (agentOnly n.val) (.contextResp n m) s fun d => (d.agent n.val).ctxWait = none ∧ (d.agent n.val).ctxOk = true) ∧
  (∀ n s, (s.dev.agent n.val).ctxWait.isSome = true → Leads (agentOnly n.val) (.contextRetryTimeout n) s fun d =>
    (d.agent n.val).tag = ((s.dev.agent n.val).tag + 1) % 2 ^ 32 ∧ (d.agent n.val).ctxWait.isSome = true ∧
      s.dev.news d 2 = List.replicate (packets (s.dev.agent n.val).ctx).length (.ozmund n.val, [0x12, 0]))

/-- The host accelerator steps its agent, writes state, counts, pushes samples and consumes blocks. A step write of the next number advances,
counts the pushes anew and lists the next selection, or cuts the armed course and sends its context; any other fences with STEP_SEQ; it is
FENCED or BUSY in the other states. A register it writes takes the write by its access types, or, where the Ozmund owns it, is left with
HOST_CFG. In RESET no command of the host changes anything (the accelerator is held). KICK is noted; FATAL and FENCE_REQ fence and stop
the host, or in a state without positions are noted; QUIET ends the fence; a counter add reaches the counter; a push forms its record,
sent or kept, or counts its drop, and with EN = 0 does nothing (log entry 206, the model's choice); a state write is made, or held while
its granule is copied, or ends the course where the stall allows none; a copy's end and a release let held writes through; the stall
abandons; a consumed bad block fails the host. (spec/02_quoin_agent.md: The cut, Copy-on-write and the course buffer, Witness sample
forwarding, Synchronisation counters, Obligations on the host accelerator) -/
def Obligations.HostWritesItsAgent : Prop :=
  (∀ n v s, (s.dev.agent n.val).state = aLIVE → v.toNat = ((s.dev.agent n.val).step + 1) % 2 ^ 64 → ((s.dev.agent n.val).cstate ≠ 1 ∨ (s.dev.agent n.val).armStep ≠ v.toNat) →
    Leads (orHost n.val [(s.dev.agent n.val).listPlace] (only [.agent n.val, .status])) (.qagStepWrite n v) s fun d => d.status = stOK ∧ (d.agent n.val).step = v.toNat ∧
      (d.agent n.val).state = aLIVE ∧ (d.agent n.val).cstate = (s.dev.agent n.val).cstate ∧ (d.agent n.val).get QAG_CBUF_USE_STALL_US = 0 ∧ (d.agent n.val).pushes = 0 ∧
      (d.agent n.val).on QAG_EVT_WIT_GAP = ((s.dev.agent n.val).on QAG_EVT_WIT_GAP || decide ((s.dev.agent n.val).pushes < (s.dev.agent n.val).listed)) ∧
      d.hostBytes n.val ((s.dev.agent n.val).get QAG_WIT_BASE_BASE * 0x200000 + v.toNat % 2 * 8) 8 =
        leBytes 4 (min 4096 ((s.dev.agent n.val).selection v.toNat 0).length) ++ leBytes 4 (min 4096 ((s.dev.agent n.val).selection v.toNat 1).length)) ∧
  (∀ n v s, (s.dev.agent n.val).state = aLIVE → v.toNat = ((s.dev.agent n.val).step + 1) % 2 ^ 64 → (s.dev.agent n.val).cstate = 1 → (s.dev.agent n.val).armStep = v.toNat →
    Leads (orHost n.val [(s.dev.agent n.val).listPlace] (only [.agent n.val, .status, .out])) (.qagStepWrite n v) s fun d => d.status = stOK ∧ (d.agent n.val).step = v.toNat ∧
      (d.agent n.val).cstate = 2 ∧ (d.agent n.val).pCourse = some ((s.dev.agent n.val).get QAG_COURSE_CUR) ∧ (d.agent n.val).mapP = [] ∧ (d.agent n.val).grans = [] ∧
      (d.agent n.val).ctx = contextRecord (s.dev.agent n.val) v.toNat ((s.dev.agent n.val).get QAG_COURSE_CUR) (agentTime s.dev n.val) ∧
      s.dev.news d 2 = (.ozmund n.val, [0x11, 0]) :: List.replicate (packets (d.agent n.val).ctx).length (.ozmund n.val, [0x12, 0])) ∧
  (∀ n v s, (s.dev.agent n.val).state = aLIVE → v.toNat ≠ ((s.dev.agent n.val).step + 1) % 2 ^ 64 →
    Leads (orHost n.val ((s.dev.agent n.val).dumpPlace :: (s.dev.agent n.val).heldPlaces) (only [.agent n.val, .status, .out])) (.qagStepWrite n v) s fun d => d.status = stFAULT ∧
      (d.agent n.val).state = aFENCED ∧ (d.agent n.val).on QAG_EVT_STEP_SEQ = true ∧ (d.agent n.val).on QAG_EVT_FATAL = true ∧
      (d.agent n.val).step = (s.dev.agent n.val).step ∧ (d.agent n.val).fenceReason = 4 ∧ (s.dev.news d 2).take ((s.dev.agent n.val).fatalTo n.val).length = (s.dev.agent n.val).fatalTo n.val ∧
      (⟨.slotHost n.val, Kind.hostStop, [], []⟩ : Msg) ∈ s.dev.sentSince d) ∧
  (∀ n v s, (s.dev.agent n.val).state = aFENCED → Leads (only [.status]) (.qagStepWrite n v) s fun d => d.status = stFENCED) ∧
  (∀ n v s, (s.dev.agent n.val).state ∈ [aSIDEBAND, aREADY, aLOADING] → Leads (only [.status]) (.qagStepWrite n v) s fun d => d.status = stBUSY) ∧
  (∀ n a v s, (s.dev.agent n.val).state ≠ aRESET → (s.dev.agent n.val).bound = true → a.toNat % 8 = 0 → ozmundOwned a.toNat = true →
    Leads (only [.agent n.val, .status]) (.registerWrite (.host n) a v) s fun d => d.status = stOK ∧
      d.agent n.val = (s.dev.agent n.val).set QAG_EVT_HOST_CFG 1) ∧
  (∀ n a v s, (s.dev.agent n.val).state ≠ aRESET → ((s.dev.agent n.val).bound = false ∨ ozmundOwned a.toNat = false) → a.toNat % 8 = 0 → a.toNat ≤ 0xFFFF →
    a.toNat ∉ [0x08, 0x20, 0x88, 0x98] →
    Leads (only [.agent n.val, .status]) (.registerWrite (.host n) a v) s fun d => d.status = stOK ∧ d.agent n.val = { s.dev.agent n.val with
      regs := Store.put agentDflt (s.dev.agent n.val).regs a.toNat
        (writtenWord agentRows a.toNat (Store.get agentDflt (s.dev.agent n.val).regs a.toNat) v) }) ∧
  (∀ n a v s, (s.dev.agent n.val).state ≠ aRESET → (a.toNat % 8 ≠ 0 ∨ 0xFFFF < a.toNat) →
    Leads (only [.status]) (.registerWrite (.host n) a v) s fun d => d.status = stFAULT) ∧
  (∀ n a v w code addr bs c s, (s.dev.agent n.val).state = aRESET → c ∈ ([.registerWrite (.host n) a v, .qagStepWrite n w, .qagKick n, .qagFatal n code, .qagFenceReq n, .qagQuiet n,
      .qagCntAdd n w, .qagWitPush n w, .hostStateWrite n addr bs, .blockConsume n addr] : List Instr) →
    Leads (only []) c s fun d => d = s.dev) ∧
  (∀ n s, (s.dev.agent n.val).state ≠ aRESET → Leads (only [.agent n.val]) (.qagKick n) s fun d => d.agent n.val = (s.dev.agent n.val).set QAG_CTRL_KICK 1) ∧
  (∀ n code s, (s.dev.agent n.val).state ∈ [aLOADING, aLIVE] →
    Leads (orHost n.val ((s.dev.agent n.val).dumpPlace :: (s.dev.agent n.val).heldPlaces) (agentOnly n.val)) (.qagFatal n code) s fun d => (d.agent n.val).state = aFENCED ∧
      (d.agent n.val).on QAG_EVT_FATAL = true ∧ (d.agent n.val).fenceReason = 2 ∧ (s.dev.news d 2).take ((s.dev.agent n.val).fatalTo n.val).length = (s.dev.agent n.val).fatalTo n.val ∧
      (⟨.slotHost n.val, Kind.hostStop, [], []⟩ : Msg) ∈ s.dev.sentSince d) ∧
  (∀ n code s, (s.dev.agent n.val).state ∈ [aSIDEBAND, aREADY, aFENCED] → Leads (agentOnly n.val) (.qagFatal n code) s fun d =>
    (d.agent n.val).regs = (((s.dev.agent n.val).set QAG_CTRL_FATAL 1).set QAG_EVT_FATAL 1).regs ∧ s.dev.news d 2 = (s.dev.agent n.val).fatalTo n.val ∧
      ∀ x ∈ s.dev.sentSince d, x.data.drop 48 = pack [(2, code.toNat), (6, 0), (8, (s.dev.agent n.val).step)]) ∧
  (∀ n s, (s.dev.agent n.val).state ∈ [aLOADING, aLIVE] → Leads (orHost n.val ((s.dev.agent n.val).dumpPlace :: (s.dev.agent n.val).heldPlaces) (agentOnly n.val)) (.qagFenceReq n) s fun d =>
    (d.agent n.val).state = aFENCED ∧ (d.agent n.val).on QAG_CTRL_FENCE_REQ = false ∧ (d.agent n.val).fenceReason = 3 ∧
      (⟨.slotHost n.val, Kind.hostStop, [], []⟩ : Msg) ∈ s.dev.sentSince d) ∧
  (∀ n s, (s.dev.agent n.val).state ∈ [aSIDEBAND, aREADY, aFENCED] → Leads (only [.agent n.val]) (.qagFenceReq n) s fun d =>
    d.agent n.val = (s.dev.agent n.val).set QAG_CTRL_FENCE_REQ 1) ∧
  (∀ n s, (s.dev.agent n.val).state = aFENCED → (s.dev.agent n.val).doneSent = false → Leads (agentOnly n.val) (.qagQuiet n) s fun d =>
    (d.agent n.val).on QAG_CTRL_QUIET = true ∧ (d.agent n.val).on QAG_EVT_FENCE_DONE = true ∧ (d.agent n.val).doneSent = true ∧
      s.dev.news d 4 = [(.ozmund n.val, [0x44, (s.dev.agent n.val).path.toNat, 1, stOK])]) ∧
  (∀ n s, (s.dev.agent n.val).state ≠ aRESET → ((s.dev.agent n.val).state = aFENCED → (s.dev.agent n.val).doneSent = true) → Leads (only [.agent n.val]) (.qagQuiet n) s fun d =>
    d.agent n.val = (s.dev.agent n.val).set QAG_CTRL_QUIET 1) ∧
  (∀ n v s, (s.dev.agent n.val).state ∉ [aRESET, aFENCED] → Leads (only [.agent n.val]) (.qagCntAdd n v) s fun d =>
    d.agent n.val = (s.dev.agent n.val).set (QAG_CNT_VALUE (QAG_CNT_ADD_INDEX.of v))
      (((s.dev.agent n.val).get (QAG_CNT_VALUE (QAG_CNT_ADD_INDEX.of v)) + QAG_CNT_ADD_INC.of v) % 2 ^ 64)) ∧
  (∀ n v s, (s.dev.agent n.val).state = aFENCED → Leads (only []) (.qagCntAdd n v) s fun d => d = s.dev) ∧
  (∀ n v s, (s.dev.agent n.val).state ≠ aRESET → (s.dev.agent n.val).on QAG_WIT_CFG_EN = true → QAG_WIT_PUSH_DROP.of v = 0 → QAG_WIT_PUSH_LEN.of v ≠ 0 → QAG_WIT_PUSH_LEN.of v ≤ 0x3FEF000 →
    ((s.dev.agent n.val).on QAG_STATE_HALTED = true ∨ (s.dev.agent n.val).on QAG_STATE_TRAY_UP = false) →
    Leads (only [.agent n.val]) (.qagWitPush n v) s fun d => (d.agent n.val).pushes = (s.dev.agent n.val).pushes + 1 ∧
      (d.agent n.val).samples = (s.dev.agent n.val).samples ++ [((s.dev.agent n.val).recordAt (QAG_WIT_PUSH_LEN.of v), QAG_WIT_PUSH_LEN.of v)] ∧
      (d.agent n.val).get QAG_WIT_RING_HEAD = (s.dev.agent n.val).headAfter (QAG_WIT_PUSH_LEN.of v)) ∧
  (∀ n v s, (s.dev.agent n.val).state ≠ aRESET → (s.dev.agent n.val).on QAG_WIT_CFG_EN = true → QAG_WIT_PUSH_DROP.of v = 0 → QAG_WIT_PUSH_LEN.of v ≠ 0 → QAG_WIT_PUSH_LEN.of v ≤ 0x3FEF000 →
    (s.dev.agent n.val).on QAG_STATE_HALTED = false → (s.dev.agent n.val).on QAG_STATE_TRAY_UP = true → (s.dev.agent n.val).samples = [] →
    Leads (agentOnly n.val) (.qagWitPush n v) s fun d => (d.agent n.val).pushes = (s.dev.agent n.val).pushes + 1 ∧ (d.agent n.val).samples = [] ∧
      (d.agent n.val).get QAG_WIT_RING_HEAD = (s.dev.agent n.val).headAfter (QAG_WIT_PUSH_LEN.of v) ∧
      (d.agent n.val).get QAG_WIT_RING_TAIL = (s.dev.agent n.val).headAfter (QAG_WIT_PUSH_LEN.of v) ∧ (∀ x ∈ s.dev.news d 2, x = (.ozmund n.val, [0x22, 0])) ∧
      ((s.dev.sentSince d).map fun x => x.data.drop 48).flatten =
        s.dev.hostBytes n.val ((s.dev.agent n.val).get QAG_WIT_BASE_BASE * 0x200000 + (s.dev.agent n.val).recordAt (QAG_WIT_PUSH_LEN.of v)) (QAG_WIT_PUSH_LEN.of v)) ∧
  (∀ n v s, (s.dev.agent n.val).state ≠ aRESET → (s.dev.agent n.val).on QAG_WIT_CFG_EN = true → QAG_WIT_PUSH_DROP.of v = 1 → Leads (only [.agent n.val]) (.qagWitPush n v) s fun d =>
    d.agent n.val = { ((s.dev.agent n.val).set QAG_EVT_WIT_DROP 1).set QAG_HLT6_VALUE (satAdd 64 ((s.dev.agent n.val).get QAG_HLT6_VALUE) 1) with pushes := (s.dev.agent n.val).pushes + 1 }) ∧
  (∀ n v s, (s.dev.agent n.val).state ≠ aRESET → (s.dev.agent n.val).on QAG_WIT_CFG_EN = false → Leads (only []) (.qagWitPush n v) s fun d => d = s.dev) ∧
  (∀ n addr bs s, (s.dev.agent n.val).state ≠ aRESET → (s.dev.agent n.val).heldBack ⟨addr.toNat, bs⟩ = false →
    Leads (orHost n.val ((s.dev.agent n.val).written ⟨addr.toNat, bs⟩) (only [.agent n.val])) (.hostStateWrite n addr bs) s fun d =>
      d.agent n.val = { s.dev.agent n.val with
        mapP := if (s.dev.agent n.val).pCourse.isSome then setBits (s.dev.agent n.val).mapP ((s.dev.agent n.val).gransOf addr.toNat bs.length) else (s.dev.agent n.val).mapP
        mapR := setBits (s.dev.agent n.val).mapR ((s.dev.agent n.val).gransOf addr.toNat bs.length) } ∧
      ((∀ r ∈ ((s.dev.agent n.val).written ⟨addr.toNat, bs⟩).drop 1, r.1 + r.2 ≤ addr.toNat ∨ addr.toNat + bs.length ≤ r.1) →
        d.hostBytes n.val addr.toNat bs.length = bs)) ∧
  (∀ n addr bs g s, (s.dev.agent n.val).state ≠ aRESET → (s.dev.agent n.val).heldBack ⟨addr.toNat, bs⟩ = true → (s.dev.agent n.val).get QAG_CBUF_CFG_STALL_US ≠ 0 → (s.dev.agent n.val).gransOf addr.toNat bs.length = [g] →
    Leads (only [.agent n.val]) (.hostStateWrite n addr bs) s fun d =>
      (d.agent n.val).heldWrites = (s.dev.agent n.val).heldWrites ++ [⟨addr.toNat, bs⟩] ∧ (d.agent n.val).gran g = .prot ∧
      Store.get (fun _ => false) (d.agent n.val).mapR g = true ∧
      (d.agent n.val).copying = (if (s.dev.agent n.val).copying.contains g = false ∧ (s.dev.agent n.val).freeSlot.isSome then (s.dev.agent n.val).copying ++ [g] else (s.dev.agent n.val).copying) ∧
      ((s.dev.agent n.val).copying.contains g = false → (s.dev.agent n.val).freeSlot = none → (d.agent n.val).stallFrom.isSome = true)) ∧
  (∀ n addr bs s, (s.dev.agent n.val).state ≠ aRESET → (s.dev.agent n.val).heldBack ⟨addr.toNat, bs⟩ = true → (s.dev.agent n.val).get QAG_CBUF_CFG_STALL_US ≠ 0 →
    Leads (only [.agent n.val]) (.hostStateWrite n addr bs) s fun d => (d.agent n.val).heldWrites = (s.dev.agent n.val).heldWrites ++ [⟨addr.toNat, bs⟩]) ∧
  (∀ n addr bs g s, (s.dev.agent n.val).state ≠ aRESET → (s.dev.agent n.val).heldBack ⟨addr.toNat, bs⟩ = true → (s.dev.agent n.val).get QAG_CBUF_CFG_STALL_US = 0 → (s.dev.agent n.val).gransOf addr.toNat bs.length = [g] →
    (s.dev.agent n.val).copying.contains g = false → (s.dev.agent n.val).freeSlot = none →
    Leads (orHost n.val ((s.dev.agent n.val).heldPlaces ++ (s.dev.agent n.val).written ⟨addr.toNat, bs⟩) (agentOnly n.val)) (.hostStateWrite n addr bs) s fun d =>
      (d.agent n.val).cstate = 0 ∧ (d.agent n.val).heldWrites = [] ∧ (d.agent n.val).on QAG_EVT_STALL_ABANDON = true ∧
      (s.dev.news d 2).getLast? = some (.ozmund n.val, [0x18, 0])) ∧
  (∀ n g slot lo k s, g ∈ (s.dev.agent n.val).copying → { s.dev.agent n.val with copying := (s.dev.agent n.val).copying.erase g }.freeSlot = some slot →
    (s.dev.agent n.val).granAt g = some (lo, k) →
    Leads (orHost n.val (((s.dev.agent n.val).bufBase + slot * 0x200000, k * 4096) :: (s.dev.agent n.val).heldPlaces) (only [.agent n.val])) (.cowCopyDone n g) s fun d =>
      (d.agent n.val).gran g = .copied slot ∧ (d.agent n.val).copying = (s.dev.agent n.val).copying.erase g ∧
      ((s.dev.agent n.val).heldWrites = [] → d.hostBytes n.val ((s.dev.agent n.val).bufBase + slot * 0x200000) (k * 4096) = s.dev.hostBytes n.val lo (k * 4096))) ∧
  (∀ n g w slot lo k s, g ∈ (s.dev.agent n.val).copying → { s.dev.agent n.val with copying := (s.dev.agent n.val).copying.erase g }.freeSlot = some slot →
    (s.dev.agent n.val).granAt g = some (lo, k) → (s.dev.agent n.val).heldWrites = [w] → (s.dev.agent n.val).gransOf w.addr w.data.length = [g] →
    Leads (orHost n.val (((s.dev.agent n.val).bufBase + slot * 0x200000, k * 4096) :: (s.dev.agent n.val).heldPlaces) (only [.agent n.val])) (.cowCopyDone n g) s fun d =>
      (d.agent n.val).gran g = .copied slot ∧ (d.agent n.val).heldWrites = [] ∧
      ((∀ r ∈ ((s.dev.agent n.val).written w).drop 1, r.1 + r.2 ≤ w.addr ∨ w.addr + w.data.length ≤ r.1) → d.hostBytes n.val w.addr w.data.length = w.data)) ∧
  (∀ n g s, (s.dev.agent n.val).copying.contains g = false → Leads (only []) (.cowCopyDone n g) s fun d => d = s.dev) ∧
  (∀ n g w slot lo k s, (s.dev.agent n.val).heldWrites = [w] → (s.dev.agent n.val).gransOf w.addr w.data.length = [g] → (s.dev.agent n.val).gran g = .prot →
    (s.dev.agent n.val).copying = [] → (s.dev.agent n.val).freeSlot = some slot → (s.dev.agent n.val).granAt g = some (lo, k) →
    Leads (orHost n.val (((s.dev.agent n.val).bufBase + slot * 0x200000, k * 4096) :: (s.dev.agent n.val).written w) (only [.agent n.val])) (.heldWriteRelease n 0) s fun d =>
      (d.agent n.val).gran g = .copied slot ∧ (d.agent n.val).heldWrites = [] ∧
      ((∀ r ∈ ((s.dev.agent n.val).written w).drop 1, r.1 + r.2 ≤ w.addr ∨ w.addr + w.data.length ≤ r.1) → d.hostBytes n.val w.addr w.data.length = w.data)) ∧
  (∀ n i s, (s.dev.agent n.val).heldWrites.length ≤ i → Leads (only []) (.heldWriteRelease n i) s fun d => d = s.dev) ∧
  (∀ n s, (s.dev.agent n.val).stallFrom.isSome = true → (s.dev.agent n.val).get QAG_CBUF_CFG_STALL_US ≤ stallNow s.dev (s.dev.agent n.val) →
    Leads (orHost n.val (s.dev.agent n.val).heldPlaces (agentOnly n.val)) (.stallAbandon n) s fun d =>
      (d.agent n.val).cstate = 0 ∧ (d.agent n.val).grans = [] ∧ (d.agent n.val).heldWrites = [] ∧ (d.agent n.val).on QAG_EVT_STALL_ABANDON = true ∧
      (s.dev.news d 3).getLast? = some (.ozmund n.val, [0x18, 0, 1])) ∧
  (∀ n s, ((s.dev.agent n.val).stallFrom = none ∨ stallNow s.dev (s.dev.agent n.val) < (s.dev.agent n.val).get QAG_CBUF_CFG_STALL_US) → Leads (only []) (.stallAbandon n) s fun d => d = s.dev) ∧
  (∀ n addr s, (s.dev.agent n.val).state ≠ aRESET → hostBlockOk s.dev n.val addr.toNat = false → Leads (agentOnly n.val) (.blockConsume n addr) s fun d =>
    d.agent n.val = (s.dev.agent n.val).set QAG_EVT_CHECK_FAIL 1 ∧ d.out = s.dev.out ++ [⟨.slotHost n.val, Kind.blockFailed, [addr.toNat], []⟩]) ∧
  (∀ n addr s, hostBlockOk s.dev n.val addr.toNat = true → Leads (only []) (.blockConsume n addr) s fun d => d = s.dev)

/-- Contributions carry and are checked by MARK-128; heartbeats, health and HALT_N. An outgoing contribution carries its mark; a received one
whose mark agrees is delivered, and with no key raises MARK_FAIL; the heartbeat goes out after a kick and its lack is counted; HEALTH is
sent with its registers; HALT_N halts and releases, and in RESET its level is kept. (spec/02_quoin_agent.md: MARK-128, Heartbeat and
health; spec/05_integrity.md: Mason's marks and the job key schedule) -/
def Obligations.AgentContributionsAndTimers : Prop :=
  (∀ n seq24 bs s, (s.dev.agent n.val).state = aLIVE → Leads (only [.out]) (.outgoingContribution n seq24 bs) s fun d =>
    d.out = s.dev.out ++ [⟨.fabric, Kind.contribution, [(s.dev.agent n.val).get QAG_BIND_POSITION, seq24.toNat, (s.dev.agent n.val).markSlot,
      mark128 (leNat ((s.dev.agent n.val).markKey.take 16)) (leNat ((s.dev.agent n.val).markKey.drop 16)) bs 2 seq24.toNat
        ((s.dev.agent n.val).get QAG_BIND_POSITION)], bs⟩]) ∧
  (∀ n pos seq24 slot mark bs s, (s.dev.agent n.val).state ≠ aRESET → (s.dev.agent n.val).key slot.val ≠ [] → (s.dev.agent n.val).keyCourse slot.val ≠ 2 ^ 32 - 1 →
    mark128 (leNat (((s.dev.agent n.val).key slot.val).take 16)) (leNat (((s.dev.agent n.val).key slot.val).drop 16)) bs 2 seq24.toNat pos.toNat = mark.toNat →
    Leads (only [.out]) (.contributionReceive n pos seq24 slot mark bs) s fun d =>
      d.out = s.dev.out ++ [⟨.slotHost n.val, Kind.contribution, [pos.toNat, seq24.toNat, slot.val, mark.toNat], bs⟩]) ∧
  (∀ n pos seq24 slot mark bs s, (s.dev.agent n.val).state ≠ aRESET → (s.dev.agent n.val).key slot.val = [] →
    Leads (agentOnly n.val) (.contributionReceive n pos seq24 slot mark bs) s fun d => d.agent n.val = (s.dev.agent n.val).set QAG_EVT_MARK_FAIL 1 ∧
      d.out = s.dev.out ++ [⟨.slotHost n.val, Kind.markFailed, [pos.toNat, seq24.toNat], []⟩]) ∧
  (∀ n s, (s.dev.agent n.val).state ∈ [aLOADING, aLIVE] → (s.dev.agent n.val).on QAG_CTRL_KICK = true →
    Leads (agentOnly n.val) (.heartbeatTick n) s fun d => (d.agent n.val).on QAG_CTRL_KICK = false ∧
      s.dev.news d 2 = [(.ozmund n.val, [0x40, (s.dev.agent n.val).path.toNat])] ∧ (s.dev.news d 10).map (fun x => x.2[9]?) = [some (s.dev.agent n.val).step]) ∧
  (∀ n s, (s.dev.agent n.val).state ∈ [aLOADING, aLIVE] → (s.dev.agent n.val).on QAG_CTRL_KICK = false →
    Leads (only [.agent n.val]) (.heartbeatTick n) s fun d =>
      d.agent n.val = (s.dev.agent n.val).set QAG_HLT4_VALUE (satAdd 64 ((s.dev.agent n.val).get QAG_HLT4_VALUE) 1)) ∧
  (∀ n s, aREADY ≤ (s.dev.agent n.val).state → Leads (agentOnly n.val) (.healthTick n) s fun d => (d.agent n.val).regs = (s.dev.agent n.val).regs ∧
    s.dev.news d 2 = [(.ozmund n.val, [0x41, (s.dev.agent n.val).path.toNat])] ∧
    (d.out.drop s.dev.out.length).map (fun x => (x.data.drop 48).take 8) = [leBytes 8 (Store.get agentDflt (s.dev.agent n.val).regs 0x100).toNat]) ∧
  (∀ n s, (s.dev.agent n.val).state ≠ aRESET → Leads (agentOnly n.val) (.haltNLow n) s fun d =>
    d.agent n.val = { ((s.dev.agent n.val).set QAG_EVT_HALT 1).set QAG_STATE_HALTED 1 with haltLow := true } ∧
    d.out = s.dev.out ++ [⟨.slotHost n.val, Kind.hostHalt, [], []⟩]) ∧
  (∀ n s, (s.dev.agent n.val).state = aRESET → Leads (only [.agent n.val]) (.haltNLow n) s fun d =>
    d.agent n.val = { s.dev.agent n.val with haltLow := true }) ∧
  (∀ n s, (s.dev.agent n.val).on QAG_STATE_HALTED = true → (s.dev.agent n.val).deferred = [] → (s.dev.agent n.val).samples = [] →
    Leads (agentOnly n.val) (.haltNHigh n) s fun d => d.agent n.val = { (s.dev.agent n.val).set QAG_STATE_HALTED 0 with haltLow := false } ∧
      d.out = s.dev.out ++ [⟨.slotHost n.val, Kind.hostResume, [], []⟩])

/-- A member opens, drains, votes on and ends a course, and orders its own end of it. COURSE_OPEN opens and arms the live slots, or is refused
with a vote of ORDER while courses are disabled; COURSE_DECIDE commits or abandons; a query is answered; the drained course is sealed and
voted on alone; requests are repeated; a slot without progress and a silent root end or ask; CRS_CTRL opens, abandons and disables.
(spec/03_courses.md: Course lifecycle, Opening a course, Sealing and the course barrier, Registers) -/
def Obligations.CoursesAtAMember : Prop :=
  (∀ m s, s.dev.runs → s.dev.accepts m false 16 → s.dev.inCourse = false → (s.dev.cur = noCourse ∨ s.dev.cur < numAt m.data 0 4) →
    s.dev.on CRS_CTRL_EN = true → (∀ n, n < 8 → s.dev.slotPos n ≠ noPos → s.dev.slotState n ∉ [sFENCED, sABSENT]) →
    s.dev.shoredSlots = [] → s.dev.live ≠ [] →
    Leads (areas [.regs, .memory, .checks, .agents, .ports, .streams, .peers, .hosts, .tallies, .slots, .mmu, .obs, .course, .circ, .found, .wit, .out]) (.courseOpen m) s fun d => d.kState = kOPENING ∧ d.cur = numAt m.data 0 4 ∧ d.get CRS_STEP_STEP = numAt m.data 8 8 ∧ d.voted = false ∧
      d.get CRS_STAT_CUT = 0 ∧ d.get CRS_COURSE_COMMITTED = s.dev.get CRS_COURSE_COMMITTED ∧
      ∀ n ∈ s.dev.live, (d.slot n).reqs.getLast?.map (fun r => (r.ty, r.data)) = some (0x10, pack [(4, numAt m.data 0 4), (4, 0), (8, numAt m.data 8 8)])) ∧
  (∀ m s, s.dev.runs → s.dev.accepts m false 16 → s.dev.inCourse = false → (s.dev.cur = noCourse ∨ s.dev.cur < numAt m.data 0 4) →
    s.dev.on CRS_CTRL_EN = false →
    Leads (areas [.regs, .memory, .checks, .agents, .ports, .streams, .peers, .hosts, .tallies, .slots, .mmu, .obs, .course, .shore, .circ, .found, .wit, .counters, .out]) (.courseOpen m) s fun d => d.abandoned vORDER ∧ d.cur = numAt m.data 0 4 ∧ d.voted = true ∧
      s.dev.notified d (s.dev.get CRS_ROOT_ADDR) nVOTE (s.dev.noVote (numAt m.data 0 4) vORDER)) ∧
  (∀ m s, s.dev.runs → s.dev.accepts m false 24 → numAt m.data 4 1 = 0 → numAt m.data 5 1 = 0 → numAt m.data 8 4 = noCourse →
    s.dev.inCourse = true → s.dev.cur = numAt m.data 0 4 →
    Leads (areas [.regs, .memory, .checks, .agents, .ports, .streams, .peers, .hosts, .tallies, .slots, .mmu, .obs, .course, .shore, .circ, .found, .wit, .counters, .out]) (.courseDecide m) s fun d => d.kState = kCOMMITTED ∧ d.get CRS_COURSE_COMMITTED = numAt m.data 0 4 ∧
      d.course.held.map (·.course) = [numAt m.data 0 4] ∧ d.on CRS_EVT_COMMIT = true ∧ d.cur = s.dev.cur) ∧
  (∀ m s, s.dev.runs → s.dev.accepts m false 24 → numAt m.data 4 1 = 1 → numAt m.data 8 4 = noCourse →
    s.dev.inCourse = true → s.dev.cur = numAt m.data 0 4 →
    Leads (areas [.regs, .memory, .checks, .agents, .ports, .streams, .peers, .hosts, .tallies, .slots, .mmu, .obs, .course, .shore, .circ, .found, .wit, .counters, .out]) (.courseDecide m) s fun d => d.abandoned (if 10 < numAt m.data 5 1 then vLINK else numAt m.data 5 1) ∧
      d.get CRS_COURSE_COMMITTED = s.dev.get CRS_COURSE_COMMITTED ∧ d.course.held = s.dev.course.held) ∧
  (∀ m n s, s.dev.up = true → s.dev.accepts m false 4 → s.dev.sessionTo m.src.toNat = some n → m.src.toNat ≠ s.dev.ownAddr → s.dev.isRoot = false →
    s.dev.shore.sentNotices = [] →
    Leads (areas [.regs, .watches, .ports, .streams, .peers, .hosts, .tallies, .course, .out]) (.courseQuery m) s fun d => d.course = s.dev.course ∧ s.dev.tells d [⟨if n = 0 then .partner else .peer m.src.toNat,
      Kind.peerMessage, [0x15, (s.dev.peer n).far, (s.dev.peer n).sent, s.dev.peerEpoch, stOK, 5, 1, m.seq.toNat, 0, crc64 s.dev.queryAnswer],
      s.dev.queryAnswer⟩]) ∧
  (∀ s, s.dev.runs → s.dev.shoredSlots = [] → s.dev.drained = true → s.dev.paired = false → s.dev.job.groups = [] → s.dev.gateHolds = false →
    s.dev.voted = false →
    Leads (butAreas [.chans, .watches, .power, .sec, .job, .start, .hold, .rst, .clk, .podTime, .status]) .drainComplete s fun d => d.kState = kSEALING ∧ d.voted = true ∧ d.get CRS_STAT_SOLO = 1 ∧ d.on CRS_EVT_SOLO_VOTE = true ∧
      d.cur = s.dev.cur ∧ d.course.ents = s.dev.course.ents) ∧
  (∀ n s, s.dev.runs → s.dev.get CRS_TIMEOUT_DIRTY_MS ≠ 0 → s.dev.kState ∈ [kOPENING, kDRAINING] → bitOf (s.dev.get CRS_STAT_CUT) n.val = true →
    s.dev.remote n.val = true → s.dev.slotUnacked n.val = true →
    Leads (areas [.ports, .streams, .tallies, .slots, .obs, .out]) (.dirtyReqRepeat n) s fun d => d.asking n.val = s.dev.asking n.val ++ [(0x1A, 0)]) ∧
  (∀ n seq r s, s.dev.runs → s.dev.kState = kDRAINING → (s.dev.slot n.val).reqs = [r] → r.ty = 0x14 → r.seq = seq.toNat →
    Leads (areas [.ports, .streams, .tallies, .slots, .obs, .out]) (.drainReqTimeout n seq) s fun d => d.asking n.val = [(0x14, r.arg)] ∧ (d.slot n.val).reqs.map (·.data) = [[]]) ∧
  (∀ n s, s.dev.runs → s.dev.inCourse = true → bitOf (s.dev.get CRS_STAT_CUT) n.val = true → bitOf (s.dev.get CRS_STAT_DONE) n.val = false →
    s.dev.voted = false →
    Leads (areas [.regs, .memory, .checks, .agents, .ports, .streams, .peers, .hosts, .tallies, .slots, .mmu, .obs, .course, .shore, .counters, .out]) (.drainProgressTimeout n) s fun d => d.abandoned vLINK ∧ d.voted = true ∧
      s.dev.notified d (s.dev.get CRS_ROOT_ADDR) nVOTE (s.dev.noVote s.dev.cur vLINK)) ∧
  (∀ s, s.dev.runs → s.dev.inCourse = true → s.dev.voted = true →
    Leads (areas [.regs, .memory, .checks, .agents, .ports, .streams, .peers, .hosts, .tallies, .slots, .mmu, .obs, .course, .out]) .rootSilentTimeout s fun d => d.course = s.dev.course ∧
      s.dev.notified d (s.dev.get CRS_ROOT_ADDR) nCOURSE_QUERY (leBytes 4 s.dev.cur) ∧
      s.dev.notified d (s.dev.partnerOf (s.dev.get CRS_ROOT_ADDR)) nCOURSE_QUERY (leBytes 4 s.dev.cur)) ∧
  (∀ s, s.dev.runs → s.dev.inCourse = true → s.dev.voted = false →
    Leads (areas [.regs, .memory, .checks, .agents, .ports, .streams, .peers, .hosts, .tallies, .slots, .mmu, .obs, .course, .shore, .counters, .out]) .rootSilentTimeout s fun d => d.abandoned vORDER ∧ d.voted = false) ∧
  (∀ v s, s.dev.up = true → CRS_CTRL_OPEN.of v = 1 → CRS_CTRL_ABANDON.of v = 0 → CRS_CTRL_EN.of v = 1 → s.dev.epoch ≠ 0 →
    Leads (areas [.regs, .memory, .checks, .agents, .ports, .streams, .peers, .hosts, .tallies, .slots, .mmu, .course, .status, .out]) (.crsCtrlOpen v) s fun d => d.get CRS_CTRL_OPEN = 0 ∧ d.get CRS_CTRL_EN = 1 ∧ d.course = s.dev.course ∧
      s.dev.notified d (s.dev.get CRS_ROOT_ADDR) nEARLY_REQ (pack [(2, s.dev.get CRS_ROOT_MEMBER), (1, 0), (1, 0), (8, s.dev.topStep)])) ∧
  (∀ v s, s.dev.up = true → CRS_CTRL_ABANDON.of v = 1 → CRS_CTRL_OPEN.of v = 0 → s.dev.inCourse = true → s.dev.voted = false →
    Leads (areas [.regs, .memory, .checks, .agents, .ports, .streams, .peers, .hosts, .tallies, .slots, .mmu, .course, .shore, .status, .counters, .out]) (.crsCtrlAbandon v) s fun d => d.abandoned vORDER ∧ d.get CRS_CTRL_ABANDON = 0 ∧ d.voted = true ∧
      s.dev.notified d (s.dev.get CRS_ROOT_ADDR) nVOTE (s.dev.noVote s.dev.cur vORDER)) ∧
  (∀ v s, s.dev.up = true → CRS_CTRL_EN.of v = 0 → CRS_CTRL_OPEN.of v = 0 → s.dev.on CRS_CTRL_EN = true → s.dev.inCourse = true → s.dev.voted = false →
    Leads (areas [.regs, .memory, .checks, .agents, .ports, .streams, .peers, .hosts, .tallies, .slots, .mmu, .course, .shore, .status, .counters, .out]) (.crsCtrlEnClear v) s fun d => d.get CRS_CTRL_EN = 0 ∧ d.abandoned vORDER ∧ d.voted = true)

/-- The root opens a course, counts votes and digests, and decides. An early request opens the next course; a vote is counted, abandons by its
reason, or completes the barrier and commits, with the decision recorded at the partner; its acknowledgement announces it; a digest is
kept; LOST and RESET reports and shore notices hold the course; the window's end abandons it with TIMEOUT. (spec/03_courses.md: The course
root and its members, Early courses, Mirror and vote; spec/05_integrity.md: Replica agreement) -/
def Obligations.CoursesAtTheRoot : Prop :=
  (∀ m s, s.dev.runs → s.dev.accepts m false 12 → s.dev.mayOpen = true → s.dev.course.open_ = none → s.dev.course.deciding = none →
    s.dev.course.highest + 1 < noCourse →
    Leads (areas [.regs, .watches, .ports, .streams, .peers, .hosts, .tallies, .obs, .course, .out]) (.earlyReq m) s fun d => d.course.open_ = some (s.dev.course.highest + 1, s.dev.topStep + s.dev.course.lead) ∧
      d.course.highest = s.dev.course.highest + 1 ∧ d.course.votes = [] ∧
      s.dev.notified d s.dev.ownAddr nCOURSE_OPEN (pack [(4, s.dev.course.highest + 1), (4, 0), (8, s.dev.topStep + s.dev.course.lead)])) ∧
  (∀ m c k s, s.dev.runs → s.dev.accepts m false 40 → s.dev.isRoot = true → s.dev.course.deciding = none → s.dev.course.open_ = some (c, k) →
    numAt m.data 0 4 = c → numAt m.data 4 2 < s.dev.nOz → (s.dev.course.votes.all fun v => decide (v.1 ≠ numAt m.data 4 2)) = true →
    numAt m.data 6 1 = vYES → satisfied (s.dev.counter (s.dev.get CRS_BAR_CNT) + 1) (BitVec.ofNat 64 (s.dev.courseGoal c)) = false →
    s.dev.course.taking = false →
    Leads (areas [.regs, .counters, .watches, .ports, .streams, .peers, .hosts, .tallies, .obs, .course, .shore, .out]) (.vote m) s fun d => d.course = { s.dev.course with votes := s.dev.course.votes ++ [(numAt m.data 4 2, vYES)] } ∧
      d.counter (s.dev.get CRS_BAR_CNT) = s.dev.counter (s.dev.get CRS_BAR_CNT) + 1) ∧
  (∀ m c k s, s.dev.runs → s.dev.accepts m false 40 → s.dev.isRoot = true → s.dev.course.deciding = none → s.dev.course.open_ = some (c, k) →
    numAt m.data 0 4 = c → numAt m.data 4 2 < s.dev.nOz → (s.dev.course.votes.all fun v => decide (v.1 ≠ numAt m.data 4 2)) = true →
    1 ≤ numAt m.data 6 1 → numAt m.data 6 1 ≤ 10 → s.dev.mode.partner ≠ .solo → s.dev.course.taking = false →
    Leads (areas [.regs, .counters, .watches, .ports, .streams, .peers, .hosts, .tallies, .obs, .course, .shore, .out]) (.vote m) s fun d => d.course.deciding.map (fun x => (x.course, x.commit, x.reason)) = some (c, false, numAt m.data 6 1) ∧
      (∀ i, i < s.dev.nOz → (d.course.votes.any fun v => decide (v.1 = i)) = true) ∧
      s.dev.notified d s.dev.partnerAddr nDECISION_REC (pack [(4, c), (1, 1), (1, numAt m.data 6 1), (2, 0), (8, s.dev.podTime)])) ∧
  (∀ m c k s, s.dev.runs → s.dev.accepts m false 40 → s.dev.isRoot = true → s.dev.course.deciding = none → s.dev.course.open_ = some (c, k) →
    numAt m.data 0 4 = c → numAt m.data 4 2 < s.dev.nOz → (s.dev.course.votes.all fun v => decide (v.1 ≠ numAt m.data 4 2) && decide (v.2 = vYES)) = true →
    numAt m.data 6 1 = vYES → satisfied (s.dev.counter (s.dev.get CRS_BAR_CNT) + 1) (BitVec.ofNat 64 (s.dev.courseGoal c)) = true →
    s.dev.mode.partner ≠ .solo → s.dev.course.taking = false →
    Leads (areas [.regs, .counters, .watches, .ports, .streams, .peers, .hosts, .tallies, .obs, .course, .shore, .out]) (.vote m) s fun d => d.course.deciding.map (fun x => (x.course, x.commit, x.reason)) = some (c, true, 0) ∧
      s.dev.notified d s.dev.partnerAddr nDECISION_REC (pack [(4, c), (1, 0), (1, 0), (2, 0), (8, s.dev.podTime)])) ∧
  (∀ m k s, s.dev.runs → s.dev.accepts m true 4 → s.dev.fromPartner m → s.dev.isRoot = true → s.dev.course.deciding = some k →
    k.course = numAt m.data 0 4 → k.next = noCourse → s.dev.shore.notices = [] → s.dev.mayOpen = false →
    Leads (areas [.regs, .watches, .ports, .streams, .peers, .hosts, .tallies, .obs, .course, .shore, .out]) (.decisionAck m) s fun d =>
      d.course = { s.dev.course with
        deciding := none, open_ := none,
        decided := if k.commit then some (k.course, (s.dev.course.open_.map (·.2)).getD 0) else s.dev.course.decided } ∧
      s.dev.notified d s.dev.ownAddr nCOURSE_DECIDE
        (pack [(4, k.course), (1, (!k.commit).toNat), (1, k.reason), (2, 0), (4, noCourse), (4, 0), (8, k.nextStep)])) ∧
  (∀ m s, s.dev.runs → s.dev.accepts m true 16 → s.dev.fromPartner m →
    Leads (areas [.ports, .streams, .peers, .tallies, .obs, .hold, .out]) (.decisionRec m) s fun d => d.hold = { s.dev.hold with decision := some m.data } ∧
      s.dev.notified d m.src.toNat nDECISION_ACK (m.data.take 4)) ∧
  (∀ m i s, s.dev.runs → s.dev.accepts m false (16 + 32 * numAt m.data 12 4) → numAt m.data 12 4 ≠ 0 → s.dev.memberOf m.src.toNat = some i →
    s.dev.kState = kDRAINING → s.dev.cur = numAt m.data 0 4 →
    Leads (butAreas [.chans, .watches, .power, .sec, .job, .start, .hold, .rst, .clk, .podTime, .status]) (.groupDigest m) s fun d => d.course = { s.dev.course with
      digests := s.dev.course.digests ++ [(i, numAt m.data 4 2, numAt m.data 8 4, m.data.drop 16)] }) ∧
  (∀ m i s, s.dev.runs → s.dev.accepts m true 12 → m.epoch.toNat = s.dev.epoch → s.dev.epoch ≠ 0 → s.dev.memberOf (numAt m.data 0 4) = some i →
    s.dev.isRoot = true → numAt m.data 4 4 = s.dev.epoch → numAt m.data 8 1 = lostLOST → s.dev.course.open_ = none → s.dev.shore.rooting = false →
    Leads (areas [.regs, .counters, .watches, .ports, .streams, .peers, .hosts, .tallies, .obs, .course, .shore, .start, .out]) (.lostReport m) s fun d => i ∈ d.start.lost ∧ (∀ j ∈ s.dev.start.lost, j ∈ d.start.lost) ∧ d.course = s.dev.course) ∧
  (∀ m i c k s, s.dev.runs → s.dev.accepts m true 12 → m.epoch.toNat = s.dev.epoch → s.dev.epoch ≠ 0 → s.dev.memberOf (numAt m.data 0 4) = some i →
    s.dev.isRoot = true → numAt m.data 4 4 = s.dev.epoch → numAt m.data 8 1 ≠ lostLOST → s.dev.course.open_ = some (c, k) → s.dev.course.deciding = none →
    (s.dev.course.votes.all fun v => decide (v.1 ≠ i)) = true → s.dev.mode.partner ≠ .solo → s.dev.course.taking = false →
    Leads (areas [.regs, .counters, .watches, .ports, .streams, .peers, .hosts, .tallies, .obs, .course, .shore, .start, .out]) (.lostReport m) s fun d => i ∈ d.course.holds ∧ d.start = s.dev.start ∧
      d.course.deciding.map (fun x => (x.course, x.commit, x.reason, x.next)) = some (c, false, vRESET, noCourse)) ∧
  (∀ m c k s, s.dev.runs → s.dev.accepts m false 24 → s.dev.isRoot = true → s.dev.shore.rooting = false → s.dev.course.open_ = some (c, k) →
    s.dev.course.deciding = none → s.dev.shrCfg SHR_CFG_DECIDE_MS ≠ 0 → numAt m.data 0 4 ∉ s.dev.shore.notices →
    Leads (areas [.regs, .counters, .watches, .ports, .streams, .peers, .hosts, .tallies, .obs, .course, .shore, .out]) (.shoreNotice m) s fun d => d.course = { s.dev.course with noOpen := true } ∧
      d.shore.notices = s.dev.shore.notices ++ [numAt m.data 0 4] ∧
      d.shore.handbackAsked = (s.dev.shore.handbackAsked || decide (numAt m.data 7 1 = 0)) ∧ d.shore.plan = s.dev.shore.plan) ∧
  (∀ c k s, s.dev.runs → s.dev.isRoot = true → s.dev.shore.notices ≠ [] → s.dev.course.open_ = some (c, k) → s.dev.course.deciding = none →
    s.dev.mode.partner ≠ .solo → s.dev.course.taking = false →
    Leads (areas [.regs, .counters, .watches, .ports, .streams, .peers, .hosts, .tallies, .obs, .course, .shore, .out]) .decideWindowEnd s fun d => d.course.deciding.map (fun x => (x.course, x.commit, x.reason)) = some (c, false, vTIMEOUT) ∧
      d.counter (s.dev.get CRS_BAR_CNT) = s.dev.counter (s.dev.get CRS_BAR_CNT) + BitVec.ofNat 64
        ((List.range s.dev.nOz).filter fun m => !(s.dev.course.votes.any fun v => decide (v.1 = m))).length)

/-- A slot reports its cut, its context, its blocks and its maps, and answers. A cut is recorded and the last one starts the drain; a context
is kept, answered ABANDONED, or FENCED while the hub is fenced; a drained block reaches its place where its check agrees, is asked for
again once, then abandons the course; a stored granule is acknowledged; dirty maps, DONE, ABANDON, answers and witness samples have their
effect; the spill of guests ends. (spec/03_courses.md: The drain, Shard Directory; spec/02_quoin_agent.md: The Quoin link protocol) -/
def Obligations.SlotsDeliverTheirShare : Prop :=
  (∀ n m s, s.dev.runs → s.dev.takesFrom n.val m false → m.data.length = 24 → s.dev.kState = kOPENING → numAt m.data 0 4 = s.dev.cur →
    n.val ∈ s.dev.live → bitOf (s.dev.get CRS_STAT_CUT) n.val = false →
    Leads (areas [.regs, .memory, .checks, .agents, .watches, .ports, .streams, .tallies, .slots, .mmu, .obs, .course, .wit, .hosts, .circ, .found, .out]) (.cutReceived n m) s fun d => d.get CRS_STAT_CUT = s.dev.get CRS_STAT_CUT + 2 ^ n.val ∧
      d.kState = (if (s.dev.taking.all fun k => decide (k = n.val) || bitOf (s.dev.get CRS_STAT_CUT) k) = true then kDRAINING else kOPENING) ∧
      d.course.cuts.map (fun c => (c.slot, c.pos, c.time, c.grans, c.shards)) =
        s.dev.course.cuts.map (fun c => (c.slot, c.pos, c.time, c.grans, c.shards)) ++
          [(n.val, s.dev.slotPos n.val, numAt m.data 16 8, m.arg.toNat, numAt m.data 4 4)] ∧
      (s.dev.asking n.val ++ [(0x1A, 0)]) <+: d.asking n.val) ∧
  (∀ n m s, s.dev.runs → s.dev.takesFrom n.val m false → m.data.length = 8384 → s.dev.inCourse = true → numAt m.data 8 4 = s.dev.cur →
    (s.dev.course.cuts.any fun c => decide (c.slot = n.val)) = true →
    Leads (areas [.regs, .ports, .streams, .tallies, .slots, .obs, .course, .out]) (.context n m) s fun d =>
      d.course = { s.dev.course with cuts := s.dev.course.cuts.map fun x => if x.slot = n.val then { x with ctx := m.data } else x } ∧
      s.dev.news d 4 = [(.agent n.val, [0x06, m.sb.toNat, 1, stOK])] ∧ (d.out.getLast?.bind fun x => x.args[8]?) = some m.seq.toNat) ∧
  (∀ n m s, s.dev.runs → s.dev.takesFrom n.val m false → m.data.length = 8384 → s.dev.inCourse = false →
    Leads (areas [.regs, .ports, .streams, .tallies, .slots, .obs, .course, .out]) (.context n m) s fun d => d.course = s.dev.course ∧ s.dev.news d 4 = [(.agent n.val, [0x06, m.sb.toNat, 1, stABANDONED])]) ∧
  (∀ n m s, s.dev.runs → s.dev.hubFenced = true →
    Leads (areas [.ports, .streams, .tallies, .slots, .out]) (.context n m) s fun d => s.dev.news d 4 = [(.agent n.val, [0x06, m.sb.toNat, 1, stFENCED])]) ∧
  (∀ n m sh g i x s, s.dev.runs → s.dev.takesFrom n.val m false → s.dev.kState = kDRAINING → s.dev.drainTarget n.val m.arg.toNat = some (sh, g) →
    s.dev.acked n.val g = false → m.data.length = 4096 → m.status = 0 → crc64 m.data = m.check.toNat → s.dev.filling sh = some (i, x) →
    s.dev.phys (x.addr + (g - sh.first) * 0x200000 + m.arg.toNat % 0x200000 / 4096 * 4096) = .hbm →
    Leads (butAreas [.chans, .watches, .power, .sec, .job, .start, .hold, .rst, .clk, .podTime, .status]) (.drainData n m) s fun d =>
      d.bytes (x.addr + (g - sh.first) * 0x200000 + m.arg.toNat % 0x200000 / 4096 * 4096) 4096 = m.data ∧
      Store.get noFlag d.course.blocks (bk n.val g (m.arg.toNat % 0x200000 / 4096)) = true ∧ d.course.dir = s.dev.course.dir) ∧
  (∀ n m sh g s, s.dev.runs → s.dev.takesFrom n.val m false → s.dev.kState = kDRAINING → s.dev.drainTarget n.val m.arg.toNat = some (sh, g) →
    s.dev.acked n.val g = false → m.data.length = 4096 → crc64 m.data ≠ m.check.toNat →
    Store.get noFlag s.dev.course.retried (bk n.val g (m.arg.toNat % 0x200000 / 4096)) = false →
    Leads (butAreas [.chans, .watches, .power, .sec, .job, .start, .hold, .rst, .clk, .podTime, .status]) (.drainData n m) s fun d => Store.get noFlag d.course.retried (bk n.val g (m.arg.toNat % 0x200000 / 4096)) = true ∧
      d.asking n.val = s.dev.asking n.val ++ [(0x14, s.dev.runArg sh g 1)] ∧ d.kState = kDRAINING ∧ d.course.blocks = s.dev.course.blocks) ∧
  (∀ n m sh g s, s.dev.runs → s.dev.takesFrom n.val m false → s.dev.kState = kDRAINING → s.dev.drainTarget n.val m.arg.toNat = some (sh, g) →
    s.dev.acked n.val g = false → m.data.length = 4096 → crc64 m.data ≠ m.check.toNat →
    Store.get noFlag s.dev.course.retried (bk n.val g (m.arg.toNat % 0x200000 / 4096)) = true →
    s.dev.voted = false →
    Leads (butAreas [.chans, .watches, .power, .sec, .job, .start, .hold, .rst, .clk, .podTime, .status]) (.drainData n m) s fun d => d.abandoned vCHECK ∧ d.voted = true) ∧
  (∀ n g sh e s, s.dev.runs → s.dev.kState = kDRAINING → s.dev.shardOf n.val g = some sh → s.dev.acked n.val g = false → s.dev.share sh = .drained →
    n.val ∈ s.dev.live → s.dev.granuleHere sh g = true → s.dev.filling sh = some e → (sh.granules.all fun k => decide (k = g) || s.dev.acked n.val k) = false →
    s.dev.shoredSlots = [] → s.dev.get CRS_STAT_UNACKED ≠ 0 →
    Leads (butAreas [.chans, .watches, .power, .sec, .job, .start, .hold, .rst, .clk, .podTime, .status]) (.granuleStored n g) s fun d => d.acked n.val g = true ∧ d.get CRS_STAT_UNACKED = s.dev.get CRS_STAT_UNACKED - 1 ∧
      s.dev.news d 1 = [(.agent n.val, [0x16])] ∧ (d.out.getLast?.bind fun x => x.args[9]?) = some (s.dev.runArg sh g 1) ∧ d.course.ents = s.dev.course.ents) ∧
  (∀ n m s, s.dev.runs → s.dev.takesFrom n.val m false → m.data.length = 32768 → Store.find? s.dev.shore.slots n.val ≠ some .mapping →
    s.dev.inCourse = true → bitOf (s.dev.get CRS_STAT_CUT) n.val = true →
    Leads (areas [.regs, .memory, .checks, .agents, .ports, .streams, .peers, .tallies, .slots, .mmu, .obs, .course, .shore, .out]) (.dirtyMap n m) s fun d => Store.find? d.course.latest n.val = some m.data ∧
      Store.find? d.course.d0 n.val = some ((Store.find? s.dev.course.d0 n.val).getD m.data)) ∧
  (∀ n m s, s.dev.runs → s.dev.takesFrom n.val m false → s.dev.inCourse = true → m.arg.toNat = s.dev.cur → bitOf (s.dev.get CRS_STAT_DONE) n.val = false →
    n.val ∉ s.dev.course.rearm →
    Leads (only [.reg CRS_STAT_DONE.addr]) (.courseDone n m) s fun d => d.get CRS_STAT_DONE = s.dev.get CRS_STAT_DONE + 2 ^ n.val ∧ d.kState = s.dev.kState) ∧
  (∀ n m s, s.dev.runs → s.dev.takesFrom n.val m false → s.dev.inCourse = true → s.dev.voted = false → m.arg.toNat % 2 ^ 32 = s.dev.cur →
    Leads (areas [.regs, .memory, .checks, .agents, .ports, .streams, .peers, .hosts, .tallies, .slots, .mmu, .obs, .course, .shore, .counters, .out]) (.abandon n m) s fun d => d.abandoned (if m.arg.toNat / 2 ^ 32 = 1 then vSTALL else vFENCE) ∧ d.voted = true) ∧
  (∀ n m r s, s.dev.up = true → s.dev.takesFrom n.val m true → (s.dev.slot n.val).reqs = [r] → r.seq = m.tag.toNat → r.sb = m.sb → r.note = [] → r.ty = 0x10 →
    m.status.toNat = stBUSY → s.dev.kState = kOPENING → numAt r.data 0 4 = s.dev.cur → s.dev.get CRS_STEP_STEP ≤ m.arg.toNat → s.dev.voted = false →
    Leads (butAreas [.chans, .watches, .power, .sec, .job, .hold, .rst, .clk, .podTime, .status]) (.quoinResp n m) s fun d => d.abandoned vLATE ∧ d.voted = true ∧ (0x10, r.arg) ∉ d.asking n.val) ∧
  (∀ n m r s, s.dev.up = true → s.dev.takesFrom n.val m true → (s.dev.slot n.val).reqs = [r] → r.seq = m.tag.toNat → r.sb = m.sb → r.note = [] → r.ty = 0x05 →
    m.status.toNat = stOK → s.dev.shore.handback = none →
    Leads (butAreas [.chans, .watches, .power, .sec, .job, .hold, .rst, .clk, .podTime, .status]) (.quoinResp n m) s fun d => d.asking n.val = [] ∧ Store.find? d.course.steps n.val = some r.arg ∧ Store.find? d.wit.since n.val = some r.arg ∧
      Store.find? d.shore.slots n.val = none) ∧
  (∀ n m s, s.dev.up = true → s.dev.takesFrom n.val m true → (∀ r ∈ (s.dev.slot n.val).reqs, r.seq ≠ m.tag.toNat ∨ r.sb ≠ m.sb) →
    Leads (only []) (.quoinResp n m) s fun d => d = s.dev) ∧
  (∀ n m s, s.dev.runs → s.dev.takesFrom n.val m false → n.val ∉ s.dev.shoredSlots → witLength m.data = some m.data.length →
    numAt m.data 36 4 = m.data.length → numAt m.data 12 4 = s.dev.slotPos n.val → (Store.find? s.dev.wit.since n.val).getD 0 ≤ numAt m.data 16 8 →
    numAt m.data 16 8 ≤ s.dev.slotStep n.val + 1 → numAt m.data 24 4 ∈ s.dev.expects n.val (numAt m.data 16 8) (numAt m.data 8 1) → s.dev.wit.queue = [] →
    Leads (butAreas [.chans, .watches, .power, .sec, .job, .start, .hold, .rst, .clk, .podTime, .status]) (.witSample n m) s fun d => d.wit = { s.dev.wit with queue := [{ slot := n.val, data := m.data }] } ∧ d.get WIT_STAT_BACKLOG = 1 ∧ d.out = s.dev.out) ∧
  (∀ s, s.dev.runs → s.dev.mmu.reclaim = .spilling → s.dev.mmu.guests = [] → s.dev.shore.slot = none → s.dev.shore.admitted = true →
    Leads (areas [.regs, .memory, .checks, .tiles, .agents, .ports, .streams, .peers, .hosts, .tallies, .slots, .mode, .mmu, .obs, .course, .shore, .out]) .guestSpillDone s fun d => d.mmu = { s.dev.mmu with reclaim := .ended })

/-- A slot's heartbeat, health, fatal notice, dump and power-good. HELLO makes a slot IDLE with its sideband up and its keys gone, or is
UNSUPPORTED; a heartbeat renews its deadline, and missed ones are counted until the slot is declared failed; HEALTH is kept; FATAL
declares it, or waits for the halt's end; the end of its fence resets it, goes on with the rewind or shores the position; dumps are kept
and mirrored; power-good falls, and rises into the sideband's training. (spec/04_shoring.md: Declaring a slot failed;
spec/02_quoin_agent.md: Heartbeat and health; spec/11_links.md: Copper sideband) -/
def Obligations.SlotsBeatAndFail : Prop :=
  (∀ n m s, s.dev.up = true → s.dev.takesFrom n.val m true → s.dev.shore.handback = none → m.sb = true → s.dev.slotState n.val = sABSENT →
    QAG_ID_SPEC.of (BitVec.ofNat 64 (numAt m.data 0 8)) ≤ s.dev.get HUB_ID_AGENT_SPEC →
    Leads (only [.slot n.val, .reg (HUB_SLOT_STATE n.val).addr, .reg (LNK_SB_STATE n.val).addr]) (.hello n m) s fun d => d.slotState n.val = sIDLE ∧
      (d.slot n.val).id = some (numAt m.data 0 8) ∧ (d.slot n.val).selfFail = decide (m.status ≠ 0) ∧ (d.slot n.val).reqs = [] ∧ (d.slot n.val).keys = [] ∧
      (d.slot n.val).seqSb = 0 ∧ d.sbUp n.val = true) ∧
  (∀ n m s, s.dev.up = true → s.dev.takesFrom n.val m true → s.dev.shore.handback = none →
    s.dev.get HUB_ID_AGENT_SPEC < QAG_ID_SPEC.of (BitVec.ofNat 64 (numAt m.data 0 8)) →
    Leads (areas [.regs, .tiles, .agents, .ports, .streams, .hosts, .circ, .tallies, .slots, .mode, .xcn, .sync, .found, .obs, .course, .shore, .wit, .out]) (.hello n m) s fun d => (d.slot n.val).id = none ∧ s.dev.news d 4 = [(.agent n.val, [0x06, m.sb.toNat, 1, stUNSUPPORTED])]) ∧
  (∀ n m s, s.dev.up = true → s.dev.takesFrom n.val m false → s.dev.slotState n.val = sLIVE → numAt m.data 0 4 ≠ aFENCED →
    Leads (butAreas [.chans, .watches, .power, .sec, .job, .start, .hold, .clk, .podTime, .status]) (.heartbeat n m) s fun d => Store.find? d.shore.misses n.val = none ∧ Store.find? d.shore.deadlines n.val = some (s.dev.clk + 770000) ∧
      d.slotStep n.val = max (s.dev.slotStep n.val) m.arg.toNat ∧ d.slotState n.val = sLIVE) ∧
  (∀ n t s, s.dev.up = true → Store.find? s.dev.shore.deadlines n.val = some t → s.dev.mode.fw = .run → s.dev.halted = false → s.dev.slotState n.val = sLIVE →
    t ≤ s.dev.clk → Store.get (fun _ => 0) s.dev.shore.misses n.val + 1 < orElse (s.dev.get SHR_CFG_HB_MISS) 5 →
    Leads (butAreas [.chans, .watches, .power, .sec, .job, .wit, .start, .hold, .rst, .clk, .podTime, .status]) (.heartbeatDeadline n) s fun d => d.slotState n.val = sLIVE ∧ Store.find? d.shore.deadlines n.val = some (t + 700000) ∧
      Store.find? d.shore.misses n.val = some (Store.get (fun _ => 0) s.dev.shore.misses n.val + 1)) ∧
  (∀ n t s, s.dev.up = true → Store.find? s.dev.shore.deadlines n.val = some t → s.dev.mode.fw = .run → s.dev.halted = false → s.dev.slotState n.val = sLIVE →
    t ≤ s.dev.clk → orElse (s.dev.get SHR_CFG_HB_MISS) 5 ≤ Store.get (fun _ => 0) s.dev.shore.misses n.val + 1 →
    Leads (butAreas [.chans, .watches, .power, .sec, .job, .wit, .start, .hold, .rst, .clk, .podTime, .status]) (.heartbeatDeadline n) s fun d => d.declared n.val 1 ∧ Store.find? d.shore.deadlines n.val = none) ∧
  (∀ n m s, s.dev.runs → s.dev.takesFrom n.val m false → m.data.length = 128 →
    Leads (butAreas [.chans, .watches, .power, .sec, .job, .start, .hold, .rst, .clk, .podTime, .status]) (.health n m) s fun d =>
      Store.find? d.course.health n.val = some (((List.range 8).map fun i => numAt m.data (8 * i) 8) ++ [s.dev.slotStep n.val]) ∧
      (n.val ∈ d.wit.seenCheck ↔ bitOf (numAt m.data 64 8) 1 = true) ∧ (n.val ∈ d.wit.seenMark ↔ bitOf (numAt m.data 64 8) 2 = true)) ∧
  (∀ n m s, s.dev.runs → s.dev.takesFrom n.val m false → s.dev.slotState n.val = sLIVE → Store.find? s.dev.shore.fatalAt n.val = none →
    Leads (butAreas [.chans, .watches, .power, .sec, .job, .start, .hold, .rst, .clk, .podTime, .status]) (.fatal n m) s fun d => d.declared n.val 2 ∧ d.get SHR_T0_TIME = s.dev.podTime % 2 ^ SHR_T0_TIME.width) ∧
  (∀ n m s, s.dev.up = true → s.dev.halted = true → s.dev.takesFrom n.val m false → Store.find? s.dev.shore.fatalAt n.val = none →
    Leads (only [.shore, .obs]) (.fatal n m) s fun d => Store.find? d.shore.fatalAt n.val = some s.dev.podTime ∧
      d.obs.frozen = s.dev.obs.frozen ++ [.fatal n m]) ∧
  (∀ n m s, s.dev.runs → s.dev.takesFrom n.val m false → n.val ∉ s.dev.start.fencing → n.val ∈ s.dev.shore.fencing → s.dev.shore.slot ≠ some n.val →
    Leads (butAreas [.chans, .watches, .power, .job, .wit, .hold, .clk, .podTime, .status]) (.fenceDone n m) s fun d => n.val ∉ d.shore.fencing ∧ d.on (LNK_SB_RESET n.val) = true ∧ d.slotState n.val = s.dev.slotState n.val) ∧
  (∀ n m s, s.dev.runs → s.dev.takesFrom n.val m false → n.val ∉ s.dev.start.fencing → n.val ∉ s.dev.shore.fencing →
    Store.find? s.dev.shore.slots n.val = some .fencing → m.status = 0 →
    Leads (butAreas [.chans, .watches, .power, .job, .wit, .hold, .clk, .podTime, .status]) (.fenceDone n m) s fun d => Store.find? d.shore.slots n.val = some .mapping ∧ d.shore.lastFence = s.dev.clk ∧
      d.asking n.val = s.dev.asking n.val ++ [(0x1A, 0)]) ∧
  (∀ n s, s.dev.runs → n.val ∈ s.dev.shore.fencing → s.dev.shore.slot ≠ some n.val →
    Leads (areas [.regs, .ports, .streams, .peers, .hosts, .circ, .tallies, .mode, .xcn, .found, .obs, .shore, .rst, .out]) (.slotFenceTimeout n) s fun d => n.val ∉ d.shore.fencing ∧ d.on (LNK_SB_RESET n.val) = true) ∧
  (∀ n s, s.dev.runs → n.val ∈ s.dev.shore.fencing → s.dev.shore.slot = some n.val → s.dev.phase = phFENCING →
    Leads (areas [.regs, .ports, .streams, .peers, .hosts, .circ, .tallies, .mode, .xcn, .found, .obs, .shore, .rst, .free, .out]) (.slotFenceTimeout n) s fun d => d.slotState n.val = sSHORED ∧ d.phase = phPROMOTING ∧ d.shore.fenceOver = true ∧
      d.get HUB_ROLE_SHORE_SLOT = n.val ∧ d.on (LNK_SB_RESET n.val) = true) ∧
  (∀ n m s, s.dev.up = true → s.dev.takesFrom n.val m false → s.dev.phys (s.dev.pmBase + 0x400000 + n.val * 0x10000) = .hbm →
    (s.dev.peer 0).st = pOPEN → m.arg.toNat / 2 ^ 32 ≠ 3 →
    Leads (orBytes (s.dev.pmBase + 0x400000 + n.val * 0x10000) m.data.length (only [.out])) (.dump n m) s fun d =>
      d.bytes (s.dev.pmBase + 0x400000 + n.val * 0x10000) m.data.length = m.data ∧
      d.out = s.dev.out ++ [⟨.partner, Kind.mirrorDump, [n.val], m.data⟩]) ∧
  (∀ n s, s.dev.up = true → bitOf (s.dev.get RST_PWR_PGOOD) n.val = true → s.dev.slotState n.val = sIDLE → s.dev.shore.handback = none →
    Leads (only [.reg RST_PWR_PGOOD.addr, .reg (LNK_SB_STATE n.val).addr, .reg (HUB_SLOT_STATE n.val).addr]) (.slotPgoodFall n) s fun d =>
      d.get RST_PWR_PGOOD = s.dev.get RST_PWR_PGOOD - 2 ^ n.val ∧ d.slotState n.val = sABSENT ∧ d.sbUp n.val = false) ∧
  (∀ n s, s.dev.up = true → bitOf (s.dev.get RST_PWR_PGOOD) n.val = true → s.dev.slotState n.val = sLIVE → s.dev.shore.handback = none →
    Leads (butAreas [.chans, .watches, .power, .sec, .job, .start, .hold, .rst, .clk, .podTime, .status]) (.slotPgoodFall n) s fun d => d.declared n.val 3 ∧ d.get RST_PWR_PGOOD = s.dev.get RST_PWR_PGOOD - 2 ^ n.val) ∧
  (∀ n s, s.dev.up = true → bitOf (s.dev.get RST_PWR_PGOOD) n.val = false → s.dev.slotState n.val = sABSENT → s.dev.shore.handback = none →
    Leads (only [.reg RST_PWR_PGOOD.addr, .reg (LNK_SB_STATE n.val).addr, .out]) (.slotPgoodRise n) s fun d =>
      d.get RST_PWR_PGOOD = s.dev.get RST_PWR_PGOOD + 2 ^ n.val ∧ d.get (LNK_SB_STATE n.val) = 1 ∧ d.on (LNK_SB_RESET n.val) = false)

/-- A rewind plan is taken, counted and admitted; promotion; handback; repointing. A plan fences the live slots, an older one is ignored; the
root counts REWOUND and orders admission, which sets the slots going; its timeout reports the silent members lost, notes their positions
and plans afresh; promotion copies the held course into the job's memory and, no earlier than the flight wait ends, starts its tiles once
the window is final; declaring and handing back begin, are BUSY, pass, and time out: after admission the tiles go on, before it the
promotion does; a repoint request sends the contribution again under a fresh mark, and its third attempt fails the position.
(spec/04_shoring.md: The rewind, Taking the position, Repointing, Handing back, Registers) -/
def Obligations.RewindsOnTheTray : Prop :=
  (∀ m s, s.dev.runs → s.dev.accepts m false 24 → numAt m.data 16 2 ≠ 0 → s.dev.get SHR_REWIND_NUMBER ≤ numAt m.data 0 4 → s.dev.inCourse = false →
    s.dev.shore.slot = none → s.dev.phase = phIDLE → s.dev.shore.admitted = true → s.dev.shore.inPlace = [] → s.dev.live ≠ [] → s.dev.start.joining = false →
    s.dev.shore.planTaken ≠ some (numAt m.data 0 4, s.dev.get CRS_ROOT_ADDR) → s.dev.shore.handback = none → s.dev.shore.cover = none →
    Leads (butAreas [.savedTiles, .chans, .watches, .power, .job, .wit, .start, .hold, .rst, .clk, .podTime, .status]) (.rewindPlan m) s fun d => d.get SHR_REWIND_NUMBER = numAt m.data 0 4 ∧ d.get SHR_POS_RCOURSE = numAt m.data 4 4 ∧
      d.get SHR_STEP_STEP = numAt m.data 8 8 ∧ d.shore.plan = some (Plan.ofBytes m.data) ∧ d.phase = phREWINDING ∧ d.shore.admitted = false ∧
      ∀ n ∈ s.dev.live, Store.find? d.shore.slots n = some .fencing) ∧
  (∀ m s, s.dev.runs → s.dev.accepts m false 24 → numAt m.data 16 2 ≠ 0 → numAt m.data 0 4 < s.dev.get SHR_REWIND_NUMBER →
    Leads (butAreas [.savedTiles, .chans, .watches, .power, .job, .wit, .start, .hold, .rst, .clk, .podTime, .status]) (.rewindPlan m) s fun d => d.shore = s.dev.shore ∧ d.get SHR_REWIND_NUMBER = s.dev.get SHR_REWIND_NUMBER) ∧
  (∀ m p s, s.dev.runs → s.dev.accepts m false 8 → s.dev.isRoot = true → s.dev.shore.rooting = true → s.dev.shore.plan = some p → numAt m.data 0 4 = p.num →
    numAt m.data 4 2 ∉ s.dev.shore.rewound → numAt m.data 4 2 < s.dev.nOz → numAt m.data 6 1 = 0 → s.dev.shore.rewound.length + 1 ≠ s.dev.nOz →
    Leads (areas [.regs, .counters, .watches, .ports, .streams, .peers, .hosts, .tallies, .obs, .course, .shore, .out]) (.rewound m) s fun d => d.shore = { s.dev.shore with rewound := s.dev.shore.rewound ++ [numAt m.data 4 2] } ∧
      d.counter (s.dev.get SHR_REWIND_BAR) = s.dev.counter (s.dev.get SHR_REWIND_BAR) + 1) ∧
  (∀ m p s, s.dev.runs → s.dev.accepts m false 8 → s.dev.isRoot = true → s.dev.shore.rooting = true → s.dev.shore.plan = some p → numAt m.data 0 4 = p.num →
    numAt m.data 4 2 ∉ s.dev.shore.rewound → numAt m.data 4 2 < s.dev.nOz → numAt m.data 6 1 = 0 → s.dev.shore.rewound.length + 1 = s.dev.nOz →
    s.dev.shore.noSource = false →
    Leads (areas [.regs, .counters, .watches, .ports, .streams, .peers, .hosts, .tallies, .obs, .course, .shore, .out]) (.rewound m) s fun d => d.shore.rooting = false ∧ d.shore.notices = [] ∧ d.course.noOpen = false ∧
      s.dev.notified d s.dev.ownAddr nADMIT_ORDER (pack [(4, p.num), (4, 0), (8, p.step)])) ∧
  (∀ m p s, s.dev.runs → s.dev.accepts m false 16 → s.dev.shore.plan = some p → p.num = numAt m.data 0 4 → s.dev.shore.admitted = false →
    s.dev.shore.slot = none → s.dev.shore.handback = none → s.dev.start.joining = false → s.dev.phase = phREWINDING → s.dev.shore.cover = none →
    Leads (butAreas [.memory, .checks, .savedTiles, .chans, .counters, .watches, .power, .mmu, .sec, .job, .hold, .rst, .clk, .podTime, .status]) (.admitOrder m) s fun d => d.shore.admitted = true ∧ d.phase = phIDLE ∧ d.on SHR_EVT_ADMITTED = true ∧ d.wit.rewind = p.num ∧
      ∀ n ∈ s.dev.live, Store.find? s.dev.shore.slots n = some .set →
        Store.find? d.shore.slots n = some .admitting ∧ (d.asking n).getLast? = some (0x05, numAt m.data 8 8)) ∧
  (∀ e p s, s.dev.runs → s.dev.barrierWatch .rewindBarrier = some e → e.2.deadline ≠ 0 → e.2.deadline ≤ s.dev.podTime → s.dev.shore.rooting = true →
    s.dev.shore.noSource = false → s.dev.shore.plan = some p →
    Leads (areas [.regs, .counters, .watches, .ports, .streams, .peers, .hosts, .tallies, .obs, .shore, .start, .out]) .rewindTimeout s fun d => d.shore.plan.map (fun q => (q.num, q.course, q.step)) = some (p.num + 1, p.course, p.step) ∧ d.shore.spare = true ∧
      d.shore.rewound = [] ∧ d.on SHR_EVT_BEYOND = true ∧ d.on SYN_EVT_WATCH_TIMEOUT = true ∧
      ∀ m, m < s.dev.nOz → m ∉ s.dev.shore.rewound → m ∈ d.start.lost ∧ ∀ q ∈ s.dev.positionsOf m, q ∈ d.shore.notices) ∧
  (∀ p h s, s.dev.runs → s.dev.flightOver = true → s.dev.promotionOver = false → s.dev.shore.plan = some p → s.dev.restoring = some h →
    Leads (areas [.ports, .streams, .tallies, .slots, .obs, .shore, .out]) .flightWaitEnd s fun d => ∀ n ∈ s.dev.live, Store.find? s.dev.shore.slots n = some .loaded →
      Store.find? d.shore.slots n = some .setting ∧ ((d.asking n).getLast?.map (·.1)) = some 0x31) ∧
  (∀ n e r pa s, s.dev.runs → s.dev.shore.slot = some n → s.dev.shore.fenceOver = true → s.dev.phase = phPROMOTING → s.dev.promotionList = [e] →
    (s.dev.slotTable n).region e.region = some r → (e.region, e.shard) ∉ s.dev.shore.done_ → s.dev.shardWhole e = true → e.len ≤ 512 →
    s.dev.jobPhys (r.base + e.offset) = some pa → s.dev.phys pa = .hbm →
    Leads (areas [.regs, .memory, .checks, .tiles, .agents, .ports, .streams, .peers, .hosts, .tallies, .slots, .mode, .mmu, .obs, .course, .shore, .out]) .promotionStart s fun d => d.bytes pa (e.len * 4096) = s.dev.physBytes e.loc (e.len * 4096) ∧
      d.shore.done_ = s.dev.shore.done_ ++ [(e.region, e.shard)] ∧ d.agent localAgent = s.dev.slotTable n) ∧
  (∀ s, s.dev.runs → s.dev.flightOver = false → Leads (only []) .promotionDone s fun d => d = s.dev) ∧
  (∀ n p h s, s.dev.runs → s.dev.promotionOver = true → s.dev.flightOver = true → s.dev.shore.slot = some n → s.dev.shore.plan = some p → s.dev.restoring = some h →
    s.dev.sync.win = .draining → (∀ t, t < 256 → (s.dev.tile t).owner ≠ oJOB) →
    (((s.dev.posOf n).bind fun q => s.dev.job.images[q.program]?).getD []).length ≤ s.dev.kernelTiles.length →
    Leads (areas [.regs, .memory, .checks, .tiles, .agents, .ports, .streams, .peers, .hosts, .tallies, .slots, .mode, .mmu, .obs, .course, .shore, .out]) .promotionDone s fun d =>
      d.shore.promoted = true ∧ d.shore.loaded = true ∧ d.phase = phLOADING) ∧
  (∀ n p h s, s.dev.runs → s.dev.promotionOver = true → s.dev.flightOver = true → s.dev.shore.slot = some n → s.dev.shore.plan = some p → s.dev.restoring = some h →
    s.dev.sync.win ≠ .draining → s.dev.shore.handback = none →
    (∀ t, t < 256 → (s.dev.tile t).owner ≠ oJOB) →
    (((s.dev.posOf n).bind fun q => s.dev.job.images[q.program]?).getD []).length ≤ s.dev.kernelTiles.length →
    Leads (areas [.regs, .memory, .checks, .tiles, .agents, .counters, .ports, .streams, .peers, .hosts, .tallies, .slots, .mode, .mmu, .obs, .course, .shore, .out]) .promotionDone s fun d => d.shore.promoted = true ∧ d.shore.loaded = true ∧ d.phase = phREWINDING ∧
      (∀ t ∈ s.dev.kernelTiles.take (((s.dev.posOf n).bind fun q => s.dev.job.images[q.program]?).getD []).length, (d.tile t).owner = oJOB) ∧
      ∀ i, i < 4096 → d.counter i = BitVec.ofNat 64 (s.dev.planValue (s.dev.slotPos n) i p.step)) ∧
  (∀ v s, s.dev.up = true → SHR_CTRL_DECLARE.of v = 1 → SHR_CTRL_HANDBACK.of v = 0 → s.dev.slotState (SHR_CTRL_DSLOT.of v) = sLIVE →
    Leads (butAreas [.chans, .watches, .power, .sec, .job, .wit, .start, .hold, .rst, .clk, .podTime]) (.shrCtrlDeclare v) s fun d => d.declared (SHR_CTRL_DSLOT.of v) 4 ∧ d.get SHR_CTRL_DECLARE = 0) ∧
  (∀ v n s, s.dev.up = true → SHR_CTRL_HANDBACK.of v = 1 → SHR_CTRL_DECLARE.of v = 0 → s.dev.on SHR_CTRL_HANDBACK = false → s.dev.shore.slot = some n →
    n < 8 → s.dev.slotState n = sSHORED → s.dev.phase = phRUNNING → s.dev.shore.handback = none → s.dev.shrCfg SHR_CFG_HB_LIVE = 0 →
    uSlot n ∉ s.dev.rst.out → n ∉ s.dev.rst.cycle →
    Leads (butAreas [.chans, .watches, .power, .sec, .job, .wit, .start, .hold, .rst, .clk, .podTime]) (.shrCtrlHandback v) s fun d => d.status = stOK ∧ d.on SHR_CTRL_HANDBACK = true ∧ d.slotState n = sREINT ∧ d.phase = phCOPYING ∧
      d.shore.handback.map (fun h => (h.slot, h.live)) = some (n, false) ∧ bitOf (d.get RST_PWR_EN) n = true) ∧
  (∀ v s, s.dev.up = true → SHR_CTRL_HANDBACK.of v = 1 → SHR_CTRL_DECLARE.of v = 0 → s.dev.on SHR_CTRL_HANDBACK = false → s.dev.shore.slot = none →
    Leads (butAreas [.chans, .watches, .power, .sec, .job, .wit, .start, .hold, .rst, .clk, .podTime]) (.shrCtrlHandback v) s fun d => d.status = stBUSY ∧ d.shore = s.dev.shore) ∧
  (∀ h s, s.dev.runs → s.dev.shore.handback = some h → h.slot < 8 → h.step = .power → h.moved = false → s.dev.shore.admitted = true →
    Leads (areas [.regs, .tiles, .agents, .ports, .streams, .hosts, .circ, .tallies, .slots, .mode, .xcn, .sync, .found, .obs, .course, .shore, .wit, .free, .out]) .handbackPgoodTimeout s fun d => d.shore.handback = none ∧ d.slotState h.slot = sSHORED ∧ d.phase = phRUNNING ∧
      d.get SHR_CTRL_HANDBACK = 0 ∧ d.on SHR_EVT_HANDBACK = true ∧ d.on (LNK_SB_RESET h.slot) = true) ∧
  (∀ h s, s.dev.runs → s.dev.shore.handback = some h → h.slot < 8 → h.step = .hello → h.moved = false → s.dev.shore.admitted = false →
    s.dev.phase = phPROMOTING → s.dev.shoreReady = false →
    Leads (areas [.regs, .ports, .hosts, .circ, .tallies, .slots, .mode, .found, .obs, .shore, .out]) .handbackHelloTimeout s fun d => d.shore.handback = none ∧
      d.slotState h.slot = sSHORED ∧ d.phase = phPROMOTING ∧ d.on SHR_EVT_HANDBACK = true) ∧
  (∀ h s, s.dev.runs → s.dev.shore.handback = some h → h.slot < 8 → h.step = .hello → h.moved = false → s.dev.shore.admitted = true →
    Leads (areas [.regs, .tiles, .agents, .ports, .streams, .hosts, .circ, .tallies, .slots, .mode, .xcn, .sync, .found, .obs, .course, .shore, .wit, .free, .out]) .handbackHelloTimeout s fun d => d.shore.handback = none ∧ d.slotState h.slot = sSHORED ∧ d.phase = phRUNNING ∧
      d.get SHR_CTRL_HANDBACK = 0 ∧ d.on SHR_EVT_HANDBACK = true ∧ d.on (LNK_SB_RESET h.slot) = true) ∧
  (∀ h s, s.dev.runs → s.dev.shore.handback = some h → h.step = .copying → s.dev.localDirty = [] →
    Leads (only [.reg SHR_STAT_PASS.addr, .shore]) .handbackPassDone s fun d => d.shore = { s.dev.shore with handback := some { h with step := .boundary } } ∧
      d.get SHR_STAT_PASS = (s.dev.get SHR_STAT_PASS + 1) % 2 ^ SHR_STAT_PASS.width) ∧
  (∀ receiver step seq attempt addr bs s, s.dev.runs → s.dev.shoredLive = true → attempt.toNat = 1 → bs ≠ [] → bs.length ≤ 4096 →
    (s.dev.shore.repoints.all fun e => decide (e.1 ≠ (receiver.toNat, step.toNat, seq.toNat))) = true →
    Leads (areas [.ports, .streams, .tallies, .shore, .out]) (.repointRequest receiver step seq attempt addr bs) s fun d =>
      d.shore = { s.dev.shore with repoints := s.dev.shore.repoints ++ [((receiver.toNat, step.toNat, seq.toNat), 1)] } ∧
      s.dev.tells d [⟨.fabric, Kind.fabric, [0x50, 0, s.dev.epoch, receiver.toNat, s.dev.shoredPos % 65536 * 65536 + seq.toNat % 65536, addr.toNat, 1],
        leBytes 16 (mark128 (leNat ((s.dev.agent localAgent).markKey.take 16)) (leNat ((s.dev.agent localAgent).markKey.drop 16)) bs 2 seq.toNat s.dev.shoredPos) ++
          pack [(1, (s.dev.agent localAgent).markSlot % 2), (3, seq.toNat), (12, 0)] ++ bs⟩]) ∧
  (∀ receiver step seq attempt addr bs n s, s.dev.runs → s.dev.shoredLive = true → attempt.toNat = 3 → s.dev.shore.slot = some n → n < 8 →
    Leads (butAreas [.savedTiles, .chans, .watches, .power, .mode, .xcn, .sec, .job, .start, .hold, .rst, .clk, .podTime, .status, .free]) (.repointRequest receiver step seq attempt addr bs) s fun d => d.phase = phFAILED ∧ d.slotState n = sFENCED ∧ d.shore.slot = none ∧
      d.on SHR_EVT_FAILED = true ∧ d.get WIT_LAST_CLASS = 4 ∧ d.get WIT_LAST_OZMUND = 1)

/-- A witness record is compared and counted; the gate; DIVERGE. Agreement is counted; a mismatch is counted and declares the slot; a re-check
that differs counts as the Ozmund's own error; the gate's time ends it and the vote goes out; a divergence is counted at its slot.
(spec/05_integrity.md: Selection and comparison, Integrity events, Registers) -/
def Obligations.WitnessesComparedAndEventsCounted : Prop :=
  (∀ r s, s.dev.runs → s.dev.wit.queue = [r] → s.dev.tilesFor r ≠ [] → r.badOrder = false → r.recompute = r.result →
    Leads (butAreas [.chans, .watches, .power, .sec, .job, .start, .hold, .rst, .clk, .podTime, .status]) (.witnessCompare []) s fun d => d.wit.queue = [] ∧ d.get WIT_STAT_BACKLOG = 0 ∧
      d.get WIT_COUNT0_COMPARED = satAdd WIT_COUNT0_COMPARED.width (s.dev.get WIT_COUNT0_COMPARED) 1 ∧
      d.get WIT_COUNT0_MISMATCH = s.dev.get WIT_COUNT0_MISMATCH ∧ d.wit.expected = s.dev.wit.expected.erase (r.slot, r.dom, r.step, r.index)) ∧
  (∀ r s, s.dev.runs → s.dev.wit.queue = [r] → s.dev.tilesFor r ≠ [] → r.badOrder = false → r.recompute ≠ r.result → r.slot < 8 → s.dev.slotState r.slot = sLIVE →
    s.dev.shoredSlots = [] → s.dev.on WIT_CTRL_ACTION = false →
    Leads (butAreas [.chans, .watches, .power, .sec, .job, .start, .hold, .rst, .clk, .podTime, .status]) (.witnessCompare []) s fun d => d.wit.queue = [] ∧
      d.get WIT_COUNT0_MISMATCH = satAdd WIT_COUNT0_MISMATCH.width (s.dev.get WIT_COUNT0_MISMATCH) 1 ∧ d.get WIT_LAST_CLASS = 6 ∧
      d.get WIT_LAST_SLOT = r.slot ∧ d.get WIT_LAST_OZMUND = 0 ∧ d.declared r.slot 4) ∧
  (∀ r x s, s.dev.runs → s.dev.wit.queue = [r] → s.dev.tilesFor r ≠ [] → r.badOrder = false → r.recompute = r.result → x ≠ r.result →
    Leads (butAreas [.chans, .watches, .power, .sec, .job, .start, .hold, .rst, .clk, .podTime, .status]) (.witnessCompare [some x]) s fun d => d.wit.queue = [] ∧ d.get WIT_LAST_CLASS = 7 ∧ d.get WIT_LAST_OZMUND = 1 ∧
      d.get WIT_COUNT1_OWN = satAdd WIT_COUNT1_OWN.width (s.dev.get WIT_COUNT1_OWN) 1 ∧ d.get WIT_COUNT0_MISMATCH = s.dev.get WIT_COUNT0_MISMATCH) ∧
  (∀ s, s.dev.runs → s.dev.kState = kSEALING → s.dev.voted = false → s.dev.gateHolds = true → s.dev.paired = false → s.dev.job.groups = [] →
    Leads (areas [.regs, .ports, .streams, .peers, .hosts, .tallies, .obs, .course, .out]) .witGateTimeout s fun d => d.course.gateOver = true ∧ d.voted = true ∧ d.kState = kSEALING ∧
      d.get WIT_COUNT1_UNGATED = satAdd WIT_COUNT1_UNGATED.width (s.dev.get WIT_COUNT1_UNGATED) s.dev.gated.length) ∧
  (∀ pos step p s, s.dev.runs → (s.dev.myPositions.find? fun q => decide (q.pos = pos.toNat)) = some p → p.slot < 8 →
    Leads (butAreas [.chans, .watches, .power, .sec, .job, .start, .hold, .rst, .clk, .podTime, .status]) (.divergeNotice pos step) s fun d => d.get WIT_LAST_CLASS = 5 ∧ d.get WIT_LAST_SLOT = p.slot ∧ d.get WIT_LAST_POSITION = pos.toNat ∧
      d.get WIT_LAST_STEP_STEP = step.toNat ∧
      d.get (WIT_SLOT_EV_TOTAL p.slot) = satAdd (WIT_SLOT_EV_TOTAL p.slot).width (s.dev.get (WIT_SLOT_EV_TOTAL p.slot)) 1)

/-- The crossconnect moves a slot, sets a detour, and loses and regains power. GO starts an operation with its SPI frame, sent again while its
answer fails, up to four times (how often is free, log entry 220), is queued, or is refused with ERR; a waiting detour that may no longer
be joined is dropped; the status falls with the map, the error or a timeout; power-good reads the status; its loss under a shored position
fails the position. (spec/11_links.md: The crossconnect control interface, SHED and DETOUR; spec/04_shoring.md: Faults during shoring) -/
def Obligations.CrossconnectMovesAndDetours : Prop :=
  (∀ v s, s.dev.up = true → XCN_CTRL_GO.of v = 1 → XCN_CTRL_PWR_EN.of v = s.dev.get XCN_CTRL_PWR_EN → s.dev.on XCN_CTRL_AUTH = true →
    s.dev.on XCN_STAT_PGOOD = true → s.dev.on XCN_STAT_BUSY = false → s.dev.get XCN_STAT_MAP = 0 →
    Leads (areas [.regs, .xcn, .status, .free, .out]) (.xcnCtrlGo v) s fun d => s.dev.commanded d (xcnFrame 0x10 (XCN_CTRL_SLOT.of v + 8 * XCN_CTRL_DIR.of v)) ∧
      (s.dev.xcnBad < 4 → d.on XCN_STAT_BUSY = true ∧ d.on XCN_STAT_STATUS = true ∧ d.on XCN_CTRL_GO = true ∧ d.get XCN_STAT_ERR = s.dev.get XCN_STAT_ERR ∧
        d.xcn = { s.dev.xcn with op := some (.move (XCN_CTRL_SLOT.of v) (decide (XCN_CTRL_DIR.of v = 1)) false), since := s.dev.clk })) ∧
  (∀ v s, s.dev.up = true → XCN_CTRL_GO.of v = 1 → s.dev.on XCN_CTRL_AUTH = true →
    (s.dev.on XCN_STAT_PGOOD = false ∨ s.dev.on XCN_STAT_BUSY = true ∨
      (s.dev.get XCN_STAT_MAP ≠ 0 ∧ s.dev.get XCN_STAT_MAP ≠ 2 ^ XCN_CTRL_SLOT.of v)) →
    Leads (only [.reg XCN_STAT_ERR.addr, .status]) (.xcnCtrlGo v) s fun d => d.on XCN_STAT_ERR = true ∧
      d.status = (if touchesPK ctlRows XCN_CTRL_SLOT.addr (s.dev.word XCN_CTRL_SLOT.addr) v = true then stAUTH else stOK)) ∧
  (∀ v s, s.dev.up = true → XCN_CTRL_GO.of v = 1 → XCN_CTRL_PWR_EN.of v = s.dev.get XCN_CTRL_PWR_EN → s.dev.on XCN_CTRL_AUTH = false →
    Leads (only [.reg XCN_CTRL_GO.addr, .status]) (.xcnCtrlGo v) s fun d => d.status = stAUTH ∧ d.get XCN_CTRL_GO = s.dev.get XCN_CTRL_GO) ∧
  (∀ v s, s.dev.up = true → XCN_DETOUR_GO.of v = 1 → XCN_DETOUR_ON.of v = 1 → s.dev.on XCN_STAT_PGOOD = true → s.dev.on XCN_STAT_BUSY = false →
    s.dev.get XCN_STAT_MAP = 0 → s.dev.mayDetour (XCN_DETOUR_SLOT.of v) = true →
    Leads (areas [.regs, .xcn, .status, .free, .out]) (.xcnDetourGo v) s fun d => s.dev.commanded d (xcnFrame 0x11 (XCN_DETOUR_SLOT.of v + 8)) ∧
      (s.dev.xcnBad < 4 → d.on XCN_STAT_BUSY = true ∧ d.on XCN_DETOUR_GO = true ∧
        d.xcn = { s.dev.xcn with op := some (.detour (XCN_DETOUR_SLOT.of v) true), since := s.dev.clk })) ∧
  (∀ v s, s.dev.up = true → XCN_DETOUR_GO.of v = 1 → XCN_DETOUR_ON.of v = 0 → s.dev.on XCN_CTRL_AUTH = true → s.dev.on XCN_STAT_PGOOD = true →
    s.dev.on XCN_STAT_BUSY = true →
    Leads (areas [.regs, .xcn, .status, .out]) (.xcnDetourGo v) s fun d => d.xcn = { s.dev.xcn with waiting := s.dev.xcn.waiting ++ [.detour (XCN_DETOUR_SLOT.of v) false] } ∧ d.out = s.dev.out) ∧
  (∀ v s, s.dev.up = true → XCN_CTRL_GO.of v = 0 → XCN_CTRL_PWR_EN.of v ≠ s.dev.get XCN_CTRL_PWR_EN →
    Leads (only [.reg XCN_CTRL_GO.addr, .status, .out]) (.xcnPwrEnWrite v) s fun d => d.get XCN_CTRL_PWR_EN = XCN_CTRL_PWR_EN.of v ∧
      d.out = s.dev.out ++ [⟨.land, Kind.xcnPower, [XCN_CTRL_PWR_EN.of v], []⟩]) ∧
  (∀ op s, s.dev.up = true → s.dev.on XCN_STAT_BUSY = false → s.dev.xcn.op = none → s.dev.xcn.waiting = [op] → s.dev.on XCN_STAT_PGOOD = true →
    s.dev.xcnRefuses op = false → s.dev.on XCN_CTRL_AUTH = true → (match op with | .detour slot true => s.dev.mayDetour slot | _ => true) = true →
    Leads (areas [.regs, .xcn, .free, .out]) .xcnQueuedStart s fun d => s.dev.commanded d ⟨.xcn, Kind.spiFrame, [], op.bytes ++ leBytes 1 (crc8 op.bytes)⟩ ∧
      (s.dev.xcnBad < 4 → d.on XCN_STAT_BUSY = true ∧ d.xcn = { s.dev.xcn with op := some op, waiting := [], since := s.dev.clk })) ∧
  (∀ slot s, s.dev.up = true → s.dev.on XCN_STAT_BUSY = false → s.dev.xcn.op = none → s.dev.xcn.waiting = [.detour slot true] →
    s.dev.mayDetour slot = false →
    Leads (only [.reg XCN_DETOUR_GO.addr, .xcn]) .xcnQueuedStart s fun d => d.xcn = { s.dev.xcn with waiting := [] } ∧ d.get XCN_DETOUR_GO = 0) ∧
  (∀ m bad slot dir s, s.dev.up = true → s.dev.on XCN_STAT_BUSY = true → s.dev.xcn.op = some (.move slot dir false) → bad.val < 4 →
    m.map.toNat = (if dir then 2 ^ slot else 0) →
    Leads (butAreas [.savedTiles, .chans, .watches, .power, .sec, .job, .start, .hold, .rst, .clk, .podTime, .status]) (.xcnStatusFall m bad) s fun d => d.get XCN_STAT_BUSY = 0 ∧ d.get XCN_CTRL_GO = 0 ∧ d.get XCN_STAT_MAP = m.map.toNat ∧ d.xcn.op = none ∧
      d.get XCN_STAT_ERR = s.dev.get XCN_STAT_ERR ∧ d.get XCN_STAT_LAST_MS = min 65535 ((s.dev.clk - s.dev.xcn.since) / 700000)) ∧
  (∀ m slot dir s, s.dev.up = true → s.dev.on XCN_STAT_BUSY = true → s.dev.xcn.op = some (.move slot dir false) →
    Leads (butAreas [.savedTiles, .chans, .watches, .power, .sec, .job, .start, .hold, .rst, .clk, .podTime, .status]) (.xcnStatusFall m 4) s fun d => d.get XCN_STAT_BUSY = 0 ∧ d.on XCN_STAT_ERR = true ∧ d.get XCN_CTRL_GO = 0 ∧ d.xcn.op = none ∧
      d.get XCN_STAT_MAP = s.dev.get XCN_STAT_MAP ∧ (d.out.drop s.dev.out.length).length = 4) ∧
  (∀ slot dir s, s.dev.up = true → s.dev.xcn.op = some (.move slot dir false) →
    Leads (only [.reg XCN_STAT_BUSY.addr, .reg XCN_CTRL_GO.addr, .xcn]) .xcnMoveTimeout s fun d => d.get XCN_STAT_BUSY = 0 ∧ d.on XCN_STAT_ERR = true ∧
      d.get XCN_CTRL_GO = 0 ∧ d.xcn = { s.dev.xcn with op := none }) ∧
  (∀ m s, s.dev.up = true → s.dev.on XCN_STAT_PGOOD = false → m.map = 0 → m.detour.toNat / 128 = 0 → m.park = 1 → m.state.toNat % 4 = 1 →
    Leads (only [.reg XCN_STAT_PGOOD.addr, .reg XCN_SPI_FRAMES.addr, .out]) (.xcnPgoodRise true m) s fun d => d.on XCN_STAT_PGOOD = true ∧
      d.get XCN_STAT_STATUS = 0 ∧ d.get XCN_STAT_MAP = 0 ∧ d.get XCN_STAT_ERR = s.dev.get XCN_STAT_ERR ∧
      s.dev.news d 0 = [(.xcn, []), (.xcn, [])]) ∧
  (∀ m s, s.dev.up = true → s.dev.on XCN_STAT_PGOOD = false →
    Leads (areas [.regs, .out]) (.xcnPgoodRise false m) s fun d => d.on XCN_STAT_PGOOD = true ∧ d.on XCN_STAT_ERR = true ∧
      d.get XCN_SPI_FRAMES = satAdd XCN_SPI_FRAMES.width (s.dev.get XCN_SPI_FRAMES) 4 ∧ d.get SHR_CTRL_EN = 0 ∧
      d.get XCN_STAT_MAP = s.dev.get XCN_STAT_MAP) ∧
  (∀ s, s.dev.up = true → s.dev.on XCN_STAT_PGOOD = true → s.dev.get XCN_STAT_MAP = 0 → s.dev.xcn.op = none → s.dev.on XCN_DETOUR_ACTIVE = false →
    Leads (only [.reg XCN_STAT_PGOOD.addr]) .xcnPgoodFall s fun d => d.get XCN_STAT_PGOOD = 0 ∧ d.get XCN_STAT_STATUS = 1) ∧
  (∀ n s, s.dev.up = true → s.dev.on XCN_STAT_PGOOD = true → s.dev.get XCN_STAT_MAP ≠ 0 → s.dev.shore.slot = some n → n < 8 → s.dev.xcn.op = none →
    Leads (butAreas [.savedTiles, .chans, .watches, .power, .sec, .job, .start, .hold, .rst, .clk, .podTime, .status]) .xcnPgoodFall s fun d => d.get XCN_STAT_PGOOD = 0 ∧ d.get XCN_STAT_MAP = 0 ∧ d.phase = phFAILED ∧ d.slotState n = sFENCED ∧ d.shore.slot = none)

/-- Partners pair and are lost; mirrors, far copies, reserves, scrubs and seeds. PAIR_HELLO pairs, or ends the pair for another partition; the
pulse's silence ends it. MIRROR and FAR_PUT are granted a transfer; their acknowledgements are noted and let the vote go; FAR_RESERVE
reserves, is LENGTH or waits; RESYNC and TEARDOWN_NOTE drop what the partner held; a scrub's end and a seed are kept.
(spec/13_pod_operations.md: Partners; spec/01_roles.md: Partners and the levels of the pod; spec/03_courses.md: Far copies) -/
def Obligations.PartnersAndFarCopies : Prop :=
  (∀ s, s.dev.runs → s.dev.mode.legal = true → s.dev.mode.partner ≠ .solo → (s.dev.peer 0).st ≠ pOPEN →
    (s.dev.hold.pulse.all fun t => decide (t + max (s.dev.get RNG_CFG_LOST_MS) (3 * max 1 (s.dev.get RNG_CFG_PULSE_MS)) * 700000 ≤ s.dev.clk)) = true →
    Leads (butAreas [.tiles, .savedTiles, .agents, .chans, .power, .xcn, .rst, .clk, .podTime, .status]) .partnerLost s fun d => d.mode.partner = .solo ∧ d.get HUB_PAIR_CAUSE = 2 ∧ d.on HUB_EVT_PARTNER_LOST = true ∧ d.hold.tearing = false) ∧
  (∀ m s, s.dev.up = true → s.dev.mode.legal = true → s.dev.accepts m true 32 → m.src.toNat = s.dev.partnerAddr → numAt m.data 0 4 = s.dev.partnerAddr →
    numAt m.data 12 2 = s.dev.get HUB_PART_PARTITION → numAt m.data 7 1 ≠ Role.quarantine.code → s.dev.mode.partner = .solo → s.dev.epoch = 0 →
    numAt m.data 24 4 = noCourse →
    Leads (butAreas [.tiles, .savedTiles, .agents, .chans, .power, .xcn, .rst, .clk, .podTime, .status]) (.pairHello m) s fun d => d.mode.partner = .paired ∧ d.on HUB_EVT_PAIRED = true ∧ d.get HUB_PAIR_PEPOCH = numAt m.data 8 4 ∧
      d.hold = { s.dev.hold with hello := true, role := numAt m.data 7 1, committed := noCourse, root := numAt m.data 28 4 }) ∧
  (∀ m s, s.dev.up = true → s.dev.mode.legal = true → s.dev.accepts m true 32 → m.src.toNat = s.dev.partnerAddr → numAt m.data 0 4 = s.dev.partnerAddr →
    numAt m.data 12 2 ≠ s.dev.get HUB_PART_PARTITION →
    Leads (butAreas [.tiles, .savedTiles, .agents, .chans, .power, .xcn, .rst, .clk, .podTime, .status]) (.pairHello m) s fun d => d.mode.partner = .solo ∧ d.get HUB_PAIR_CAUSE = 3 ∧ d.get HUB_PAIR_PEPOCH = s.dev.get HUB_PAIR_PEPOCH) ∧
  (∀ m n s, s.dev.up = true → s.dev.accepts m true 28 → s.dev.fromPartner m → s.dev.sessionTo m.src.toNat = some n → m.src.toNat ≠ s.dev.ownAddr →
    Leads (areas [.ports, .streams, .peers, .tallies, .sync, .out]) (.mirror m) s fun d => d.granted n (numAt m.data 8 2) (numAt m.data 12 8 + 16 * numAt m.data 20 4) nMIRROR ∧
      s.dev.answered d m.seq.toNat stOK ∧ d.hold = s.dev.hold) ∧
  (∀ m n s, s.dev.up = true → s.dev.accepts m true 24 → s.dev.fromPartner m → s.dev.sessionTo m.src.toNat = some n → m.src.toNat ≠ s.dev.ownAddr →
    Leads (areas [.ports, .streams, .peers, .tallies, .sync, .hold, .out]) (.farPut m) s fun d => d.granted n (numAt m.data 8 2) (numAt m.data 12 8) nFAR_PUT ∧ s.dev.answered d m.seq.toNat stOK ∧
      (∀ f ∈ s.dev.hold.far, f.epoch ≠ numAt m.data 4 4 ∨ numAt m.data 0 4 ≤ f.course → f ∈ d.hold.far) ∧
      ∀ f ∈ d.hold.far, f ∈ s.dev.hold.far ∧ (f.epoch = numAt m.data 4 4 → f.course < numAt m.data 0 4 →
        (s.dev.hold.mirrors.any fun x => decide (x.epoch = f.epoch) && decide (x.course = f.course)) = true)) ∧
  (∀ m s, s.dev.runs → s.dev.accepts m true 12 → s.dev.fromPartner m → numAt m.data 8 1 = stOK → s.dev.hPhase ≠ hLOADING →
    Leads (areas [.regs, .ports, .streams, .peers, .tallies, .obs, .course, .shore, .start, .out]) (.farAck m) s fun d => d.course = { s.dev.course with farWait := s.dev.course.farWait.erase (numAt m.data 4 4) }) ∧
  (∀ m s, s.dev.runs → s.dev.accepts m true 8 → s.dev.fromPartner m → numAt m.data 4 1 = stOK → s.dev.kState = kSEALING → s.dev.cur = numAt m.data 0 4 →
    s.dev.course.mirrorSent = true → s.dev.hPhase ≠ hLOADING → s.dev.mode.partner = .paired → s.dev.voted = false → s.dev.job.groups = [] →
    s.dev.gateHolds = false →
    Leads (areas [.regs, .ports, .streams, .peers, .hosts, .tallies, .mode, .obs, .course, .shore, .start, .out]) (.mirrorAck m) s fun d => d.course = { s.dev.course with mirrored := numAt m.data 0 4 } ∧ d.on CRS_STAT_MIRROR_ACK = true ∧
      d.voted = true ∧ d.kState = kSEALING ∧ d.mode.partner = .paired) ∧
  (∀ m s, s.dev.up = true → s.dev.accepts m true 16 → s.dev.fromPartner m → numAt m.data 4 4 = 0 → s.dev.start.ordered = false → s.dev.epoch = 0 →
    s.dev.hold.reserveEpoch ≠ numAt m.data 0 4 → numAt m.data 8 8 * 512 ≤ s.dev.ddrUpPages - s.dev.mmu.reservedTier - s.dev.homePages.length → m.src.toNat ≠ s.dev.ownAddr →
    Leads (areas [.ports, .streams, .peers, .tallies, .mmu, .hold, .out]) (.farReserve m) s fun d => d.hold = { s.dev.hold with reserve := numAt m.data 8 8, reserveEpoch := numAt m.data 0 4 } ∧
      d.mmu = { s.dev.mmu with reservedTier := s.dev.mmu.reservedTier + numAt m.data 8 8 * 512, farTier := s.dev.mmu.farTier + numAt m.data 8 8 * 512 } ∧ s.dev.answered d m.seq.toNat stOK) ∧
  (∀ m s, s.dev.up = true → s.dev.accepts m true 16 → s.dev.fromPartner m → numAt m.data 4 4 = 0 → s.dev.start.ordered = false → s.dev.epoch = 0 →
    s.dev.ddrUpPages - s.dev.mmu.reservedTier - s.dev.homePages.length < numAt m.data 8 8 * 512 → m.src.toNat ≠ s.dev.ownAddr →
    Leads (areas [.ports, .streams, .peers, .tallies, .mmu, .hold, .out]) (.farReserve m) s fun d => d.hold = s.dev.hold ∧ d.mmu = s.dev.mmu ∧ s.dev.answered d m.seq.toNat stLENGTH) ∧
  (∀ m s, s.dev.up = true → s.dev.accepts m true 16 → s.dev.fromPartner m → numAt m.data 4 4 = 0 → s.dev.start.ordered = true →
    Leads (areas [.ports, .streams, .peers, .tallies, .mmu, .hold, .out]) (.farReserve m) s fun d =>
      d.hold = { s.dev.hold with heldReserve := some (m.src.toNat, m.seq.toNat, numAt m.data 0 4, numAt m.data 8 8) } ∧ d.out = s.dev.out) ∧
  (∀ m s, s.dev.up = true → s.dev.accepts m true 8 → s.dev.fromPartner m →
    Leads (areas [.ports, .streams, .peers, .tallies, .hold, .out]) (.resync m) s fun d => d.hold.far = s.dev.hold.far.filter (fun f => decide (f.epoch ≠ numAt m.data 4 4)) ∧
      d.hold.mirrors = s.dev.hold.mirrors.filter (fun x => decide (x.epoch ≠ numAt m.data 4 4)) ∧ d.hold.committed = numAt m.data 0 4 ∧
      d.hold.tearing = s.dev.hold.tearing) ∧
  (∀ m s, s.dev.up = true → s.dev.accepts m true 8 → s.dev.fromPartner m → numAt m.data 4 1 = 0 →
    Leads (areas [.memory, .checks, .ports, .streams, .peers, .tallies, .mmu, .hold, .out]) (.teardownNote m) s fun d => d.hold.tearing = true ∧
      d.mmu.reservedTier = s.dev.mmu.reservedTier - (if s.dev.hold.reserveEpoch = numAt m.data 0 4 ∧ numAt m.data 0 4 ≠ s.dev.epoch then s.dev.hold.reserve * 512 else 0) ∧ d.hold.far = s.dev.hold.far.filter (fun f => decide (f.epoch ≠ numAt m.data 0 4)) ∧
      d.hold.mirrors = s.dev.hold.mirrors.filter (fun x => decide (x.epoch ≠ numAt m.data 0 4)) ∧ d.hold.decision = none) ∧
  (∀ m s, s.dev.up = true → s.dev.accepts m true 8 → s.dev.fromPartner m → s.dev.hPhase ≠ hPARSED →
    Leads (butAreas [.tiles, .savedTiles, .agents, .chans, .watches, .power, .xcn, .rst, .clk, .podTime, .status]) (.partnerScrub m) s fun d => d.hold = { s.dev.hold with tearing := false } ∧ d.hPhase = s.dev.hPhase) ∧
  (∀ m s, s.dev.up = true → s.dev.accepts m false 40 → m.src.toNat ≠ s.dev.partnerAddr → numAt m.data 0 4 = s.dev.peerEpoch → s.dev.peerEpoch ≠ 0 →
    s.dev.job.z = [] → s.dev.hPhase ≠ hINTAKE →
    Leads (areas [.regs, .memory, .checks, .ports, .streams, .peers, .tallies, .slots, .sync, .job, .course, .shore, .start, .hold, .out]) (.seed m) s fun d => d.job = { s.dev.job with z := m.data.drop 8 } ∧ d.hold = s.dev.hold ∧
      (s.dev.mode.partner ≠ .solo → s.dev.notified d s.dev.partnerAddr 0x40 m.data)) ∧
  (∀ m s, s.dev.up = true → s.dev.accepts m true 40 → s.dev.fromPartner m → s.dev.job.z ≠ [] →
    Leads (areas [.regs, .memory, .checks, .ports, .streams, .peers, .tallies, .slots, .sync, .job, .course, .shore, .start, .hold, .out]) (.seed m) s fun d => d.hold = { s.dev.hold with z := m.data.drop 8, zEpoch := numAt m.data 0 4 } ∧ d.job = s.dev.job)

/-- A start package travels the tree chunk by chunk, is accepted and started. A chunk is granted; one asked for is sent; a child joins; a
silent parent is replaced; missing stripes raise their event; shards and manifests are asked for and sent; the complete package is parsed
or aborted with its cause; READY of all starts the job, of one that failed aborts it; START_JOB makes the slots LIVE; START_ABORT and the
timeout abort. (spec/13_pod_operations.md: The broadcast tree, Job start; spec/12_host_protocol.md: The Setout package) -/
def Obligations.TheTreeAndThePackage : Prop :=
  (∀ m n s, s.dev.up = true → s.dev.accepts m false 16 → s.dev.sessionTo m.src.toNat = some n → m.src.toNat ≠ s.dev.ownAddr → s.dev.hPhase = hSTAGING →
    numAt m.data 0 4 ∉ s.dev.heldChunks → s.dev.start.head ≠ [] → numAt m.data 0 4 < pkgChunks s.dev.start.head →
    Leads (areas [.ports, .streams, .peers, .tallies, .sync, .start, .out]) (.treeChunk m) s fun d => d.granted n (numAt m.data 8 2) (chunkLen s.dev.start.head (numAt m.data 0 4)) 0x30 ∧ d.start = s.dev.start) ∧
  (∀ m s, s.dev.up = true → s.dev.accepts m false (8 + 32 * numAt m.data 0 4) → 1 ≤ numAt m.data 0 4 → numAt m.data 0 4 ≤ 127 →
    Leads (areas [.ports, .streams, .peers, .tallies, .sync, .start, .out]) (.treeWant m) s fun d => m.src.toNat ∈ d.children ∧
      ∀ j ∈ s.dev.heldChunks, chunkSha s.dev.start.head j ∈ (records 32 (m.data.drop 8)).take (numAt m.data 0 4) → (m.src.toNat, j) ∈ d.start.sent) ∧
  (∀ m s, s.dev.up = true → s.dev.accepts m false 8 → m.src.toNat ∉ s.dev.children →
    Leads (areas [.ports, .streams, .peers, .tallies, .start, .out]) (.treeJoin m) s fun d => d.start = { s.dev.start with adopted := s.dev.start.adopted ++ [m.src.toNat] }) ∧
  (∀ t s, s.dev.runs → s.dev.hPhase = hSTAGING → s.dev.start.head ≠ [] → s.dev.packageHeld = false → s.dev.parent.isSome = true →
    ((ancestors 4 (s.dev.get HUB_TREE_PARENT) ++ [s.dev.get HUB_TREE_PARENT]).find? fun t => (s.dev.treeAddr t).any s.dev.openWith) = some t →
    Leads (areas [.regs, .ports, .streams, .peers, .hosts, .tallies, .sync, .obs, .sec, .start, .free, .out]) .treeSilenceTimeout s fun d => d.get HUB_TREE_PARENT = t ∧ d.get HUB_TREE_REPARENTED = 1 ∧ d.on HUB_EVT_TREE_REPAIR = true ∧
      d.start.orphaned = false ∧ s.dev.notified d ((s.dev.treeAddr t).getD 0) 0x32 (pack [(4, s.dev.treeIndex), (4, 0)])) ∧
  (∀ s, s.dev.runs → s.dev.isRoot = true → s.dev.hPhase = hSTAGING → (∃ j, j < pkgChunks s.dev.start.head ∧ j ∉ s.dev.heldChunks) →
    Leads (orEvents (only [.reg HUB_EVT_STRIPE_MISSING.addr])) .stripeMissingTimeout s fun d => d.on HUB_EVT_STRIPE_MISSING = true) ∧
  (∀ m loc len s, s.dev.up = true → s.dev.accepts m false 40 → numAt m.data 4 4 = 0 → s.dev.findShard (m.data.drop 8) = some (loc, len) →
    Leads (areas [.ports, .streams, .peers, .tallies, .sync, .start, .out]) (.shardWant m) s fun d => s.dev.notified d m.src.toNat 0x34
      (pack [(4, numAt m.data 0 4), (4, 0)] ++ m.data.drop 8 ++ pack [(2, s.dev.sync.nextHandle), (6, 0)]) ∧ d.course = s.dev.course) ∧
  (∀ m s, s.dev.up = true → s.dev.accepts m false 40 → numAt m.data 4 4 = 0 → s.dev.findShard (m.data.drop 8) = none → s.dev.hPhase = hSTARTED →
    m.src.toNat ≠ s.dev.ownAddr →
    Leads (areas [.ports, .streams, .peers, .tallies, .sync, .start, .regs, .hosts, .circ, .found, .obs, .wit, .out]) (.shardWant m) s fun d => s.dev.answered d m.seq.toNat stFAULT ∧ d.start = s.dev.start) ∧
  (∀ m n e s, s.dev.up = true → s.dev.accepts m false 48 → s.dev.sessionTo m.src.toNat = some n → m.src.toNat ≠ s.dev.ownAddr →
    s.dev.wanted (cut_ m.data 8 32) = some e →
    Leads (areas [.ports, .streams, .peers, .tallies, .sync, .out]) (.shardPut m) s fun d => d.granted n (numAt m.data 40 2) (e.len * 4096) 0x34) ∧
  (∀ m n h s, s.dev.up = true → s.dev.accepts m false 8 → s.dev.sessionTo m.src.toNat = some n → m.src.toNat ≠ s.dev.ownAddr →
    s.dev.epoch = m.epoch.toNat → numAt m.data 4 2 = s.dev.get CRS_ROOT_MEMBER → (s.dev.course.held.find? fun x => decide (x.course = numAt m.data 0 4)) = some h →
    Leads (areas [.ports, .streams, .peers, .tallies, .out]) (.manifestWant m) s fun d => (s.dev.sentSince d).map (·.data) = packets h.manifest ∧
      ∀ x ∈ s.dev.sentSince d, x.kind = Kind.peerMessage ∧ x.args[0]? = some 0x15 ∧ x.args[7]? = some m.seq.toNat) ∧
  (∀ s, s.dev.up = true → s.dev.hPhase = hSTAGING → s.dev.packageHeld = true → s.dev.manifestAreaOk = true → s.dev.get SPR_MODE_MODE = 0 →
    s.dev.hold.tearing = true →
    Leads (butAreas [.tiles, .savedTiles, .agents, .chans, .watches, .power, .xcn, .hold, .rst, .clk, .podTime, .status]) .packageComplete s fun d =>
      (s.dev.pkgFails = none → d.hPhase = hPARSED ∧ d.epoch = s.dev.epoch ∧ d.start.head = s.dev.start.head) ∧
      (s.dev.pkgFails ≠ none → d.hPhase = hABORTED ∧ d.get HUB_START_STATUS = (s.dev.pkgFails.getD (0, 0)).1 ∧ d.start = {} ∧ d.job = {})) ∧
  (∀ m s, s.dev.up = true → s.dev.accepts m false 8 → s.dev.isRoot = true → numAt m.data 0 2 < s.dev.nOz → numAt m.data 2 1 = stOK →
    (s.dev.start.ready.all fun r => decide (r.1 ≠ numAt m.data 0 2) && decide (r.2 = stOK)) = true → s.dev.hPhase < hSTARTED →
    s.dev.start.ready.length + 1 = s.dev.nOz →
    Leads (areas [.ports, .streams, .peers, .tallies, .start, .out]) (.ready m) s fun d => d.start = { s.dev.start with ready := s.dev.start.ready ++ [(numAt m.data 0 2, stOK)] } ∧
      s.dev.notified d s.dev.ownAddr 0x42 (pack [(4, s.dev.epoch), (1, stOK), (3, 0), (8, s.dev.job.s0)])) ∧
  (∀ m s, s.dev.up = true → s.dev.accepts m false 8 → s.dev.isRoot = true → numAt m.data 0 2 < s.dev.nOz → numAt m.data 2 1 ≠ stOK →
    (s.dev.start.ready.all fun r => decide (r.1 ≠ numAt m.data 0 2)) = true → s.dev.hPhase < hSTARTED →
    Leads (areas [.ports, .streams, .peers, .tallies, .start, .out]) (.ready m) s fun d =>
      d.start = { s.dev.start with ready := s.dev.start.ready ++ [(numAt m.data 0 2, if 9 < numAt m.data 2 1 then stFAULT else numAt m.data 2 1)] } ∧
      s.dev.notified d s.dev.ownAddr 0x43
        (pack [(4, s.dev.peerEpoch), (1, if 9 < numAt m.data 2 1 then stFAULT else numAt m.data 2 1), (3, 0), (8, s.dev.job.s0)])) ∧
  (∀ m s, s.dev.runs → s.dev.accepts m false 16 → s.dev.hPhase = hREADY → s.dev.start.joining = false →
    Leads (areas [.regs, .watches, .ports, .streams, .peers, .hosts, .tallies, .slots, .obs, .course, .wit, .out]) (.startJob m) s fun d => d.hPhase = hSTARTED ∧ d.get CRS_COURSE_COMMITTED = s.dev.job.c0 % 2 ^ 32 ∧ d.kState = s.dev.kState ∧
      d.get CRS_STEP_STEP = numAt m.data 8 8 ∧ d.on CRS_CTRL_EN = true ∧ ∀ n ∈ s.dev.jobSlots, d.slotState n = sLIVE ∧ d.slotPos n = s.dev.boundPos n % 2 ^ 32) ∧
  (∀ m s, s.dev.runs → s.dev.accepts m false 16 → s.dev.hPhase < hSTARTED → s.dev.start.ordered = false → s.dev.peerEpoch ≠ 0 → s.dev.epoch = 0 →
    Leads (butAreas [.savedTiles, .chans, .watches, .power, .wit, .hold, .rst, .clk, .podTime, .status]) (.startAbort m) s fun d => d.hPhase = hABORTED ∧ d.get HUB_START_STATUS = (if 9 < numAt m.data 4 1 then stFAULT else numAt m.data 4 1) ∧ d.start = {} ∧
      d.job = {} ∧ d.on HUB_EVT_START_ABORT = true) ∧
  (∀ s, s.dev.runs → s.dev.isRoot = true → s.dev.job.members ≠ [] → 1 ≤ s.dev.hPhase → s.dev.hPhase < hSTARTED →
    Leads (butAreas [.savedTiles, .chans, .watches, .power, .wit, .hold, .rst, .clk, .podTime, .status]) .startTimeout s fun d => d.hPhase = s.dev.hPhase ∧
      s.dev.notified d s.dev.ownAddr 0x43 (pack [(4, s.dev.peerEpoch), (1, stABANDONED), (3, 0), (8, s.dev.job.s0)])) ∧
  (∀ s, s.dev.runs → s.dev.isRoot = false → 1 ≤ s.dev.hPhase → s.dev.hPhase < hSTARTED → s.dev.start.ordered = false → s.dev.peerEpoch ≠ 0 → s.dev.epoch = 0 →
    Leads (butAreas [.savedTiles, .chans, .watches, .power, .wit, .hold, .rst, .clk, .podTime, .status]) .startTimeout s fun d => d.hPhase = hABORTED ∧ d.get HUB_START_STATUS = stABANDONED ∧ d.start = {})

/-- A job is torn down, its memory scrubbed, and a member replaced. TEARDOWN_REQ becomes the root's order, carried on to the children, and a
second one changes nothing; the order begins the teardown and its fences, drops a course not voted on, is passed on when repeated, and in
a member that has not started its job ends the job's state at once; their timeout unbinds the slots; the scrub's end returns to SERVICE
with the cache's bytes all 0 and its held courses gone, or, where the order keeps it, keeps the last committed course as HUB_KEPT, and
elsewhere does nothing; SCRUB_DONE is counted at the root alone; HUB_KEPT drops every shard's bytes; JOIN replaces a lost member, plans a
rewind for the positions that it covers, or is AUTH away from the root; MEMBER_MAP is kept and passed on, tears a replaced member down,
and lets an Ozmund in QUARANTINE fence the slots of the position it has lost. (spec/13_pod_operations.md: Teardown, Spares, Notices) -/
def Obligations.JobsTornDownAndMembersReplaced : Prop :=
  (∀ m s, s.dev.up = true → s.dev.accepts m false 8 true → s.dev.isRoot = true →
    Leads (areas [.ports, .streams, .peers, .tallies, .out]) (.teardownReq m) s fun d => s.dev.notified d s.dev.ownAddr 0x45 m.data ∧
      ∀ a ∈ s.dev.children, s.dev.notified d a 0x45 m.data) ∧
  (∀ m s, s.dev.up = true → s.dev.accepts m false 8 true → s.dev.start.ordered = false → s.dev.epoch ≠ 0 → s.dev.jobSlots ≠ [] →
    Leads (butAreas [.savedTiles, .chans, .watches, .power, .wit, .hold, .rst, .clk, .podTime, .status]) (.teardownOrder m) s fun d => d.hPhase = hTEARDOWN ∧ d.start.ordered = true ∧ d.start.keep = bitOf (numAt m.data 4 1) 0 ∧
      d.start.fencing = s.dev.jobSlots ∧ d.get CRS_CTRL_EN = 0 ∧ d.inCourse = (s.dev.inCourse && s.dev.voted) ∧
      ∀ a ∈ s.dev.children, s.dev.notified d a 0x45 m.data) ∧
  (∀ m s, s.dev.up = true → s.dev.accepts m false 8 true → s.dev.start.ordered = true →
    Leads (areas [.ports, .streams, .peers, .tallies, .out]) (.teardownOrder m) s fun d => ∀ a ∈ s.dev.children, s.dev.notified d a 0x45 m.data) ∧
  (∀ m s, s.dev.up = true → s.dev.accepts m false 8 true → s.dev.start.ordered = false → s.dev.epoch = 0 → s.dev.peerEpoch ≠ 0 →
    Leads (orBytes cacheBase (s.dev.reserveBase - cacheBase) (orRecord (areas [.regs, .ports, .streams, .peers, .tallies, .start, .job]))) (.teardownOrder m) s fun d =>
      d.hPhase = hABORTED ∧ d.start = {} ∧ d.job = {} ∧ s.dev.hasRecorded d 0x10 2 (pack [(4, s.dev.peerEpoch), (2, s.dev.nOz)]) ∧
      ∀ a, cacheBase ≤ a → a < s.dev.reserveBase → Store.get memDflt d.mem a = 0) ∧
  (∀ s, s.dev.up = true → s.dev.start.ordered = true → s.dev.hPhase = hTEARDOWN → s.dev.shore.slot = none →
    Leads (areas [.regs, .ports, .streams, .peers, .tallies, .slots, .xcn, .sync, .sec, .start, .free, .out]) .teardownFenceTimeout s fun d => d.hPhase = hSCRUBBING ∧ d.start.fencing = [] ∧
      ∀ n ∈ s.dev.jobSlots, d.slotPos n = noPos ∧ (if uSlot n ∈ s.dev.rst.out then d.slotState n = sQUAR
        else d.slotState n = (if bitOf (s.dev.get RST_PWR_PGOOD) n then sIDLE else sABSENT) ∧ d.on (LNK_SB_RESET n) = false)) ∧
  (∀ s, s.dev.up = true → s.dev.mode.legal = true → s.dev.hPhase = hSCRUBBING → s.dev.mayScrub = true → s.dev.start.aborted = false → s.dev.start.keep = false →
    s.dev.mode.role = .watch → s.dev.mode.guestOn = false → s.dev.hold.heldReserve = none →
    Leads (butAreas [.savedTiles, .chans, .slots, .power, .xcn, .sec, .rst, .clk, .podTime, .status, .free]) .scrubComplete s fun d => d.hPhase = hNONE ∧ d.epoch = 0 ∧ d.mode.role = .service ∧ d.job = {} ∧ d.start = {} ∧ d.course.held = [] ∧
      d.course.dir = [] ∧ d.on HUB_EVT_SCRUB_DONE = true ∧ d.get CRS_COURSE_COMMITTED = noCourse ∧
      ∀ a, cacheBase ≤ a → a < s.dev.quotaBase → Store.get memDflt d.mem a = 0) ∧
  (∀ s, s.dev.up = true → s.dev.mode.legal = true → s.dev.hPhase = hSCRUBBING → s.dev.mayScrub = true → s.dev.start.aborted = false → s.dev.start.keep = true →
    s.dev.lastHeld.isSome = true → s.dev.mode.role = .watch → s.dev.mode.guestOn = false → s.dev.hold.heldReserve = none →
    Leads (butAreas [.savedTiles, .chans, .slots, .power, .xcn, .sec, .rst, .clk, .podTime, .status, .free]) .scrubComplete s fun d => d.hPhase = hNONE ∧ d.epoch = 0 ∧ d.mode.role = .service ∧ d.job = {} ∧ d.start = {} ∧
      d.course.held = (s.dev.course.held.filter fun h => decide (h.course = s.dev.get CRS_COURSE_COMMITTED)) ∧
      d.get HUB_KEPT_COURSE = s.dev.get CRS_COURSE_COMMITTED ∧ d.on HUB_EVT_SCRUB_DONE = true ∧ d.get CRS_COURSE_COMMITTED = noCourse ∧
      ∀ a, cacheBase ≤ a → a < s.dev.quotaBase → Store.get memDflt d.mem a = 0) ∧
  (∀ s, s.dev.up = true → (s.dev.hPhase ≠ hSCRUBBING ∨ s.dev.mayScrub = false) → Leads (only []) .scrubComplete s fun d => d = s.dev) ∧
  (∀ m s, s.dev.up = true → s.dev.accepts m false 8 true → s.dev.isRoot = true → numAt m.data 4 4 = s.dev.epoch →
    Leads (areas [.ports, .streams, .peers, .tallies, .start, .out]) (.scrubDone m) s fun d =>
      d.start = { s.dev.start with scrubbed := (s.dev.start.scrubbed ++ [numAt m.data 0 2]).eraseDups }) ∧
  (∀ m s, s.dev.up = true → s.dev.accepts m false 8 true → (s.dev.isRoot = false ∨ numAt m.data 4 4 ≠ s.dev.epoch) →
    Leads (areas [.ports, .streams, .peers, .tallies, .out]) (.scrubDone m) s fun d => d.start = s.dev.start) ∧
  (∀ v s, s.dev.up = true → HUB_KEPT_DROP.of v = 1 → s.dev.get HUB_KEPT_COURSE ≠ noCourse →
    Leads (fun p => areas [.regs, .course, .status] p || s.dev.course.dir.any fun e => orBytes e.2.addr (e.2.len * 4096) (only []) p) (.hubKeptDrop v) s fun d =>
      d.get HUB_KEPT_COURSE = noCourse ∧ d.get HUB_KEPT_DROP = 0 ∧ d.course.held = [] ∧ d.course.dir = [] ∧ d.get CRS_DIR_USED = 0 ∧
      ∀ e ∈ s.dev.course.dir, ∀ b ∈ d.bytes e.2.addr (e.2.len * 4096), b = 0) ∧
  (∀ v s, s.dev.up = true → HUB_KEPT_DROP.of v = 1 → s.dev.get HUB_KEPT_COURSE = noCourse →
    Leads (only [.reg HUB_KEPT_DROP.addr, .status]) (.hubKeptDrop v) s fun d => d.get HUB_KEPT_COURSE = noCourse ∧ d.get HUB_KEPT_DROP = 0) ∧
  (∀ v s, s.dev.up = true → HUB_KEPT_DROP.of v = 0 → Leads (only []) (.hubKeptDrop v) s fun d => d = s.dev) ∧
  (∀ m i s, s.dev.runs → s.dev.accepts m true 8 → m.epoch.toNat = s.dev.epoch → s.dev.epoch ≠ 0 → s.dev.isRoot = true → numAt m.data 0 2 = i →
    s.dev.job.members[i]? = some (numAt m.data 4 4) → i ∈ s.dev.start.lost → s.dev.shore.rooting = false → m.src.toNat ≠ s.dev.ownAddr →
    Leads (areas [.regs, .counters, .watches, .ports, .streams, .peers, .hosts, .tallies, .obs, .job, .course, .shore, .start, .out]) (.join m) s fun d => d.job.members = s.dev.job.members.set i m.src.toNat ∧ i ∉ d.start.lost ∧ d.shore.spare = true ∧
      s.dev.answered d m.seq.toNat stOK ∧ s.dev.notified d s.dev.ownAddr 0x51 (pack [(2, i), (2, 0), (4, m.src.toNat)])) ∧
  (∀ m i p x s, s.dev.runs → s.dev.accepts m true 8 → m.epoch.toNat = s.dev.epoch → s.dev.epoch ≠ 0 → s.dev.isRoot = true → numAt m.data 0 2 = i →
    s.dev.job.members[i]? = some (numAt m.data 4 4) → i ∈ s.dev.start.lost → s.dev.shore.rooting = true → s.dev.shore.plan = some p → s.dev.shore.noSource = false →
    x ∈ s.dev.positionsOf i → x ∉ s.dev.shore.notices → m.src.toNat ≠ s.dev.ownAddr →
    Leads (areas [.regs, .counters, .watches, .ports, .streams, .peers, .hosts, .tallies, .obs, .job, .course, .shore, .start, .out]) (.join m) s fun d =>
      d.job.members = s.dev.job.members.set i m.src.toNat ∧ i ∉ d.start.lost ∧ d.shore.spare = true ∧ x ∈ d.shore.notices ∧ d.shore.rewound = [] ∧
      d.shore.plan.map (·.num) = some (p.num + 1) ∧ s.dev.answered d m.seq.toNat stOK) ∧
  (∀ m s, s.dev.runs → s.dev.accepts m true 8 → m.epoch.toNat = s.dev.epoch → s.dev.epoch ≠ 0 → s.dev.isRoot = false → m.src.toNat ≠ s.dev.ownAddr →
    Leads (areas [.regs, .counters, .watches, .ports, .streams, .peers, .hosts, .tallies, .obs, .job, .course, .shore, .start, .out]) (.join m) s fun d => d.job = s.dev.job ∧ s.dev.answered d m.seq.toNat stAUTH) ∧
  (∀ m s, s.dev.runs → s.dev.accepts m false 8 → s.dev.mode.role ≠ .quarantine → numAt m.data 0 2 ≠ s.dev.get CRS_ROOT_MEMBER → s.dev.isRoot = false →
    Leads (areas [.regs, .ports, .streams, .peers, .tallies, .job, .out]) (.memberMap m) s fun d => d.job = { s.dev.job with members := s.dev.job.members.set (numAt m.data 0 2) (numAt m.data 4 4) } ∧
      ∀ a ∈ s.dev.children, s.dev.notified d a 0x51 m.data) ∧
  (∀ m s, s.dev.runs → s.dev.accepts m true 8 → s.dev.mode.role = .quarantine → s.dev.start.former = some (m.epoch.toNat, numAt m.data 0 2) →
    numAt m.data 4 4 ≠ s.dev.ownAddr →
    Leads (areas [.ports, .streams, .peers, .tallies, .slots, .start, .out]) (.memberMap m) s fun d =>
      d.start = { s.dev.start with former := none, fencing := (List.range 8).filter fun n => decide (s.dev.slotPos n ≠ noPos) } ∧
      ∀ n ∈ d.start.fencing, s.dev.trayUp n = true → ((d.slot n).reqs.map (·.ty)).contains 0x43 = true) ∧
  (∀ m s, s.dev.runs → s.dev.accepts m false 8 → s.dev.mode.role ≠ .quarantine → numAt m.data 0 2 = s.dev.get CRS_ROOT_MEMBER → numAt m.data 4 4 ≠ s.dev.ownAddr → s.dev.isRoot = false →
    s.dev.start.ordered = false → s.dev.epoch ≠ 0 → s.dev.jobSlots ≠ [] →
    Leads (butAreas [.savedTiles, .chans, .power, .wit, .hold, .rst, .clk, .podTime, .status]) (.memberMap m) s fun d => d.start.replaced = true ∧ d.start.ordered = true ∧ d.start.fencing = s.dev.jobSlots ∧ d.hPhase = hTEARDOWN ∧
      d.job.members = s.dev.job.members.set (numAt m.data 0 2) (numAt m.data 4 4) ∧
      ∀ n ∈ s.dev.jobSlots, s.dev.trayUp n = true → ((d.slot n).reqs.map (·.ty)).contains 0x43 = true)

/-- A peer session opens, is refused, opens afresh, times out and closes. PEER_OPEN of a good identity opens the session and of a bad one is
answered AUTH, as is another partition; its acknowledgement opens it or closes it with status AUTH, the open's time with RETRY; CLOSE
(refused UNSUPPORTED under another version), KEEPALIVE and their timers act on the session; a lost one opens afresh and drops its grants
and transfers. (spec/10_sync.md: Peer sessions) -/
def Obligations.SessionsOpenAndClose : Prop :=
  (∀ m k s, s.dev.up = true → Store.Canonical peerReset s.dev.peers → s.dev.on RNG_ADDR_ENUM = true → s.dev.start.orphaned = false →
    (s.dev.sessionTo (numAt m.data 4 4)).all (fun n => decide ((s.dev.peer n).st ≠ pOPENING) || decide (numAt m.data 4 4 ≤ s.dev.ownAddr)) = true →
    numAt m.data 0 2 = s.dev.get HUB_PART_PARTITION → s.dev.hubFenced = false → m.ver = 1 → m.data.length = 6700 → numAt m.data 4 4 ≠ s.dev.ownAddr →
    zeroAt m.data 2 2 = true → (m.chk = true → crc64 m.data = m.check.toNat) → s.dev.identityLeft = true → s.dev.on SEC_STAT_WK_READY = true → s.dev.slotFor (numAt m.data 4 4) = some k →
    Leads (butAreas [.tiles, .savedTiles, .agents, .chans, .power, .xcn, .rst, .clk, .podTime, .status]) (.peerOpen m) s fun d =>
      (Config.kemKeyOk (cut_ m.data 40 1184) = true → identityOk s.dev (m.data.drop 1224) (m.data.take 1224) = true →
        ((d.peer k).st, (d.peer k).peer, (d.peer k).far) = (pOPEN, numAt m.data 4 4, m.arg.toNat)) ∧
      ((Config.kemKeyOk (cut_ m.data 40 1184) = false ∨ identityOk s.dev (m.data.drop 1224) (m.data.take 1224) = false) →
        d.peers = s.dev.peers ∧
        d.out = s.dev.out ++ [⟨.peer (numAt m.data 4 4), Kind.peerMessage, [0x15, m.arg.toNat, 0, 0, stAUTH, 1, 1, m.seq.toNat, 0, 0], []⟩])) ∧
  (∀ m s, s.dev.up = true → Store.Canonical peerReset s.dev.peers → s.dev.on RNG_ADDR_ENUM = true →
    (s.dev.sessionTo (numAt m.data 4 4)).all (fun n => decide ((s.dev.peer n).st ≠ pOPENING) || decide (numAt m.data 4 4 ≤ s.dev.ownAddr)) = true →
    numAt m.data 0 2 ≠ s.dev.get HUB_PART_PARTITION → numAt m.data 4 4 ≠ s.dev.partnerAddr →
    Leads (butAreas [.tiles, .savedTiles, .agents, .chans, .power, .xcn, .rst, .clk, .podTime, .status]) (.peerOpen m) s fun d => d.peers = s.dev.peers ∧
      d.out = s.dev.out ++ [⟨.peer (numAt m.data 4 4), Kind.peerMessage, [0x15, m.arg.toNat, 0, 0, stAUTH, 1, 1, m.seq.toNat, 0, 0], []⟩]) ∧
  (∀ m s, s.dev.up = true → Store.Canonical peerReset s.dev.peers → (s.dev.peer m.session.toNat).st = pOPENING → s.dev.start.orphaned = false →
    m.ver = 1 → m.data.length = 6604 → numAt m.data 0 2 = s.dev.get HUB_PART_PARTITION → numAt m.data 4 4 = (s.dev.peer m.session.toNat).peer → (m.chk = true → crc64 m.data = m.check.toNat) →
    Leads (areas [.regs, .ports, .streams, .peers, .hosts, .tallies, .sync, .sec, .start, .free, .out]) (.peerOpenAck m) s fun d =>
      (identityOk s.dev (m.data.drop 1128) (digest ((s.dev.peer m.session.toNat).openSent ++ m.data.take 1128)) = true →
        ((d.peer m.session.toNat).st, (d.peer m.session.toNat).far, (d.peer m.session.toNat).openSent) = (pOPEN, m.arg.toNat, [])) ∧
      (identityOk s.dev (m.data.drop 1128) (digest ((s.dev.peer m.session.toNat).openSent ++ m.data.take 1128)) = false →
        (d.peer m.session.toNat).st = pCLOSED ∧ d.sync.openStatus = stAUTH ∧ d.out = s.dev.out)) ∧
  (∀ m s, s.dev.up = true → Store.Canonical peerReset s.dev.peers → (s.dev.peer m.session.toNat).st = pOPENING →
    (m.ver ≠ 1 ∨ m.data.length ≠ 6604 ∨ numAt m.data 0 2 ≠ s.dev.get HUB_PART_PARTITION ∨ numAt m.data 4 4 ≠ (s.dev.peer m.session.toNat).peer) →
    Leads (areas [.regs, .ports, .streams, .peers, .hosts, .tallies, .sync, .sec, .start, .free, .out]) (.peerOpenAck m) s fun d => (d.peer m.session.toNat).st = pCLOSED ∧
      d.sync = { s.dev.sync with openStatus := stAUTH } ∧ d.out = s.dev.out) ∧
  (∀ m s, s.dev.up = true → Store.Canonical peerReset s.dev.peers → (s.dev.peer m.session.toNat).st = pOPEN → s.dev.hubFenced = false →
    m.ver = 1 → m.data = [] → lastCounted m = true → (m.chk = true → crc64 m.data = m.check.toNat) →
    Leads (areas [.regs, .ports, .streams, .peers, .tallies, .out]) (.peerClose m) s fun d => (d.peer m.session.toNat).st = pCLOSED ∧ (d.peer m.session.toNat).reqs = [] ∧ s.dev.answered d m.seq.toNat stOK) ∧
  (∀ m s, s.dev.up = true → Store.Canonical peerReset s.dev.peers → (s.dev.peer m.session.toNat).st = pOPEN → s.dev.hubFenced = false → m.ver ≠ 1 →
    Leads (areas [.regs, .ports, .streams, .peers, .tallies, .out]) (.peerClose m) s fun d => (d.peer m.session.toNat).st = pOPEN ∧ s.dev.answered d m.seq.toNat stUNSUPPORTED) ∧
  (∀ m s, s.dev.up = true → Store.Canonical peerReset s.dev.peers → (s.dev.peer m.session.toNat).st = pOPEN →
    Leads (areas [.peers, .tallies]) (.keepalive m) s fun d => d.peer m.session.toNat = { s.dev.peer m.session.toNat with rcvd := (m.seq.toNat + 1) % 2 ^ 32 } ∧
      ∀ n < 16384, n ≠ m.session.toNat → d.peer n = s.dev.peer n) ∧
  (∀ n s, s.dev.up = true → Store.Canonical peerReset s.dev.peers → (s.dev.peer n.toNat).st = pOPEN →
    Leads (areas [.ports, .streams, .peers, .tallies, .out]) (.keepaliveTick n) s fun d => (s.dev.sentSince d).map (fun x => (x.kind, x.args, x.data)) =
        [(Kind.peerMessage, [0x04, (s.dev.peer n.toNat).far, (s.dev.peer n.toNat).sent, 0, 0, 1, 1, 0, s.dev.podTime, 0], [])] ∧
      (d.peer n.toNat).sent = ((s.dev.peer n.toNat).sent + 1) % 2 ^ 32) ∧
  (∀ n s, s.dev.up = true → Store.Canonical peerReset s.dev.peers → (s.dev.peer n.toNat).st = pOPENING →
    Leads (areas [.regs, .peers, .sync]) (.sessionOpenTimeout n) s fun d => d.peer n.toNat = { s.dev.peer n.toNat with st := pCLOSED, openSent := [], reqs := [] } ∧
      d.sync = { s.dev.sync with openStatus := stRETRY }) ∧
  (∀ n s, s.dev.up = true → Store.Canonical peerReset s.dev.peers → (s.dev.peer n.toNat).st = pOPEN → s.dev.course.taking = false →
    s.dev.parent ≠ some (s.dev.peer n.toNat).peer →
    Leads (areas [.regs, .counters, .watches, .ports, .streams, .peers, .hosts, .tallies, .sync, .sec, .course, .shore, .start, .hold, .free, .out]) (.sessionLost n) s fun d => ((d.peer n.toNat).st, (d.peer n.toNat).peer, (d.peer n.toNat).reqs) = (pOPENING, (s.dev.peer n.toNat).peer, []) ∧
      d.on SYN_EVT_SESS_LOST = true ∧ d.sync.grants = s.dev.sync.grants.filter (fun g => decide (g.session ≠ n.toNat)) ∧
      d.sync.transfers = s.dev.sync.transfers.filter (fun e => decide (e.origin ≠ .session n.toNat)))

/-- Watches, signals, granted data and answers of a peer. WATCH_REQ arms a watch, or is BUSY with none free; a watch's firing is reported;
SIGNAL increments its counter and no other, and in QUIESCE is counted as stale; a last packet that counts none is LENGTH; granted data is
kept with its signals waiting until it is written, and that of another epoch is counted as stale; an answer ends its request, an answer to
a course query commits the course, an error while opening closes the session. (spec/10_sync.md: Peer sessions, Signals and their data,
Waits and watches) -/
def Obligations.PeersSignalAndAnswer : Prop :=
  (∀ m k s, s.dev.up = true → s.dev.takesPeer m 24 → numAt m.data 0 2 < 8192 → zeroAt m.data 2 6 = true → s.dev.freeWatch = some k →
    satisfied (s.dev.counter (8192 + numAt m.data 0 2)) (BitVec.ofNat 64 (numAt m.data 8 8)) = false →
    s.dev.watches.all (fun e => decide (e.2.counter ≠ 8192 + numAt m.data 0 2)) = true →
    Leads (areas [.regs, .watches, .ports, .streams, .peers, .hosts, .tallies, .out]) (.watchReq m) s fun d =>
      Store.find? d.watches k = some ⟨8192 + numAt m.data 0 2, BitVec.ofNat 64 (numAt m.data 8 8), numAt m.data 16 8, .session m.session.toNat m.arg.toNat⟩ ∧
      s.dev.answered d m.seq.toNat stOK) ∧
  (∀ m s, s.dev.up = true → s.dev.takesPeer m 24 → numAt m.data 0 2 < 8192 → zeroAt m.data 2 6 = true → s.dev.freeWatch = none →
    Leads (areas [.regs, .watches, .ports, .streams, .peers, .hosts, .tallies, .out]) (.watchReq m) s fun d => d.watches = s.dev.watches ∧ d.on SYN_EVT_WATCH_FULL = true ∧ s.dev.answered d m.seq.toNat stBUSY) ∧
  (∀ m s, s.dev.up = true → s.dev.takesPeer m 16 →
    Leads (areas [.regs, .peers, .tallies, .out]) (.watchFire m) s fun d => d.out = s.dev.out ++ [⟨.cc, Kind.peerWatch, [m.session.toNat, m.arg.toNat], m.data⟩]) ∧
  (∀ m s, s.dev.up = true → s.dev.takesPeer m 0 → m.sig = true → m.sigIdx.toNat < 8192 →
    s.dev.watches.all (fun e => decide (e.2.counter ≠ 8192 + m.sigIdx.toNat)) = true →
    Leads (areas [.regs, .counters, .watches, .ports, .streams, .peers, .hosts, .tallies, .course, .shore, .start, .out]) (.peerSignal m) s fun d => d.counter (8192 + m.sigIdx.toNat) = s.dev.counter (8192 + m.sigIdx.toNat) + m.sigInc.setWidth 64 ∧
      (∀ c < 16384, c ≠ 8192 + m.sigIdx.toNat → d.counter c = s.dev.counter c) ∧ d.watches = s.dev.watches ∧ d.out = s.dev.out) ∧
  (∀ m s, s.dev.up = true → Store.Canonical peerReset s.dev.peers → (s.dev.peer m.session.toNat).st = pOPEN →
    s.dev.quiesced m.session.toNat m.epoch.toNat = true →
    Leads (areas [.regs, .peers, .tallies]) (.peerSignal m) s fun d => d.get SYN_COUNT_STALE = satAdd 32 (s.dev.get SYN_COUNT_STALE) 1) ∧
  (∀ m s, s.dev.up = true → Store.Canonical peerReset s.dev.peers → (s.dev.peer m.session.toNat).st = pOPEN →
    s.dev.isMember (s.dev.peer m.session.toNat).peer = true → m.epoch.toNat = s.dev.peerEpoch → s.dev.quiesced m.session.toNat m.epoch.toNat = false →
    s.dev.hubFenced = false → m.ver = 1 → m.last = true → m.pkts = 0 →
    Leads (areas [.regs, .ports, .streams, .peers, .tallies, .out]) (.watchReq m) s fun d => s.dev.answered d m.seq.toNat stLENGTH) ∧
  (∀ m g s, s.dev.up = true → Store.Canonical peerReset s.dev.peers → (s.dev.peer m.session.toNat).st = pOPEN →
    (m.session.toNat = 0 ∨ s.dev.isMember (s.dev.peer m.session.toNat).peer = true) → s.dev.quiesced m.session.toNat m.epoch.toNat = false →
    s.dev.hubFenced = false → lastCounted m = true → s.dev.transferRoom (.session m.session.toNat) m.tag.toNat = true →
    s.dev.sync.grants.find? (fun g => decide (g.session = m.session.toNat) && decide (g.handle = m.arg.toNat % 2 ^ 16)) = some g →
    m.epoch.toNat = g.epoch → m.ver = 1 → 64 ≤ m.data.length → m.data.length ≤ 4096 → (m.chk = true → crc64 m.data = m.check.toNat) →
    (m.sig = true → m.sigIdx.toNat < 8192) → s.dev.watches = [] → m.arg.toNat / 2 ^ 16 ≤ g.len →
    (g.got.put (m.arg.toNat / 2 ^ 16) (m.data.take (g.len - m.arg.toNat / 2 ^ 16))).covers 0 g.len = false →
    Leads (butAreas [.savedTiles, .chans, .circ, .power, .found, .wit, .rst, .clk, .podTime, .status]) (.peerData m) s fun d => (∀ c, d.counter c = s.dev.counter c) ∧
      d.sync.grants.map (fun x => { x with signals := [] }) = s.dev.sync.grants.map fun x =>
        if x.session = m.session.toNat ∧ x.handle = m.arg.toNat % 2 ^ 16 then
          { x with signals := [], got := x.got.put (m.arg.toNat / 2 ^ 16) (m.data.take (g.len - m.arg.toNat / 2 ^ 16)) }
        else { x with signals := [] }) ∧
  (∀ m s, s.dev.up = true → Store.Canonical peerReset s.dev.peers → (s.dev.peer m.session.toNat).st = pOPEN →
    (m.session.toNat = 0 ∨ s.dev.isMember (s.dev.peer m.session.toNat).peer = true) → s.dev.transferRoom (.session m.session.toNat) m.tag.toNat = true →
    m.epoch.toNat ≠ ((s.dev.sync.grants.find? (fun g => decide (g.session = m.session.toNat) && decide (g.handle = m.arg.toNat % 2 ^ 16))).map
      (·.epoch)).getD s.dev.peerEpoch →
    Leads (butAreas [.savedTiles, .chans, .circ, .power, .found, .wit, .rst, .clk, .podTime, .status]) (.peerData m) s fun d => d.sync = s.dev.sync ∧ d.get SYN_COUNT_STALE = satAdd 32 (s.dev.get SYN_COUNT_STALE) 1) ∧
  (∀ m r s, s.dev.up = true → Store.Canonical peerReset s.dev.peers → (s.dev.peer m.session.toNat).st = pOPEN → m.ver = 1 → m.status = 0 →
    (m.chk = true → m.data.length ≤ 4096 → crc64 m.data = m.check.toNat) →
    (s.dev.peer m.session.toNat).reqs.find? (fun r => decide (r.seq = m.tag.toNat)) = some r → r.code ∉ [nCOURSE_QUERY, 0x25, nMANIFEST_WANT] →
    Leads (butAreas [.savedTiles, .chans, .power, .wit, .hold, .rst, .clk, .podTime, .status]) (.peerResp m) s fun d => (d.peer m.session.toNat).reqs = (s.dev.peer m.session.toNat).reqs.filter (fun q => decide (q ≠ r)) ∧
      (d.peer m.session.toNat).st = pOPEN ∧ d.out = s.dev.out) ∧
  (∀ m r s, s.dev.up = true → Store.Canonical peerReset s.dev.peers → (s.dev.peer m.session.toNat).st = pOPEN → m.ver = 1 → m.status = 0 → (m.chk = true → crc64 m.data = m.check.toNat) →
    (s.dev.peer m.session.toNat).reqs.find? (fun r => decide (r.seq = m.tag.toNat)) = some r → r.code = nCOURSE_QUERY →
    s.dev.course.taking = false → m.data.length = 56 → s.dev.inCourse = true → numAt m.data 4 4 = s.dev.cur → s.dev.cur ≠ noCourse → s.dev.voted = true →
    s.dev.get CRS_ROOT_ADDR ≠ 0 →
    Leads (butAreas [.savedTiles, .chans, .power, .wit, .hold, .rst, .clk, .podTime, .status]) (.peerResp m) s fun d => d.kState = kCOMMITTED ∧ d.get CRS_COURSE_COMMITTED = s.dev.cur ∧ d.on CRS_EVT_COMMIT = true) ∧
  (∀ m s, s.dev.up = true → Store.Canonical peerReset s.dev.peers → (s.dev.peer m.session.toNat).st = pOPENING → m.ver = 1 → m.status ≠ 0 →
    Leads (butAreas [.savedTiles, .chans, .power, .wit, .hold, .rst, .clk, .podTime, .status]) (.peerResp m) s fun d => (d.peer m.session.toNat).st = pCLOSED ∧ (d.peer m.session.toNat).reqs = [] ∧
      d.sync = { s.dev.sync with openStatus := if 9 < m.status.toNat then stFAULT else m.status.toNat } ∧ d.out = s.dev.out)

/-- The management ring enumerates, calls the roll, pulses and forwards. ENUM takes the position, or reports the rack conflict; ROLLCALL adds
the entry; PULSE is noted, and one of a quarantined partner ends the pair; frames for others are forwarded to 64 hops and otherwise
dropped and counted, as is one whose CRC is wrong; RESET_REQ is reassembled, carried out or dropped, and its fragments time out.
(spec/13_pod_operations.md: The management ring; spec/15_security.md: Reset authorisations on the ring) -/
def Obligations.TheManagementRing : Prop :=
  (∀ f s, s.dev.power.pwrok = true → frameOk f = true → fType f = 1 → (fData f).length = 8 → numAt (fData f) 1 2 = s.dev.get RNG_ADDR_RACK →
    s.dev.get RNG_ADDR_RACK ≠ 0xFFFF → (s.dev.on RNG_ADDR_ENUM = true → s.dev.inService = false) → numAt (fData f) 0 1 ≤ 63 → fHops f < 64 →
    Leads (areas [.regs, .hosts, .tallies, .out]) (.enum f) s fun d => d.get RNG_ADDR_POS = numAt (fData f) 0 1 ∧ d.on RNG_ADDR_ENUM = true ∧
      d.out = s.dev.out ++ [⟨.ring, Kind.ringFrame, [],
        frameBytes 1 (fFlags f) (fHops f + 1) (fDst f) (fSrc f) (pack [(1, numAt (fData f) 0 1 + 1)] ++ (fData f).drop 1)⟩]) ∧
  (∀ f s, s.dev.power.pwrok = true → frameOk f = true → fType f = 1 → (fData f).length = 8 →
    (numAt (fData f) 1 2 ≠ s.dev.get RNG_ADDR_RACK ∨ s.dev.get RNG_ADDR_RACK = 0xFFFF) → fHops f < 64 →
    Leads (areas [.regs, .hosts, .tallies, .out]) (.enum f) s fun d => d.on RNG_STAT_RACK_ERR = true ∧ d.on HUB_EVT_ENUM_CONFLICT = true ∧ d.get RNG_ADDR_POS = s.dev.get RNG_ADDR_POS ∧
      s.dev.framed d (frameBytes 1 (fFlags f ||| 4) (fHops f + 1) (fDst f) (fSrc f) (fData f))) ∧
  (∀ f e s, s.dev.power.pwrok = true → frameOk f = true → fType f = 2 → s.dev.on RNG_ADDR_ENUM = true → s.dev.mine f = false → s.dev.noEntry f →
    s.dev.partnerEntry f = some e → fHops f < 64 → Store.Canonical peerReset s.dev.peers →
    Leads (areas [.regs, .ports, .streams, .peers, .tallies, .sync, .sec, .hold, .free, .out]) (.rollcall f) s fun d => d.partnerAddr = e.1 ∧ (e.1, e.2.1) ∈ d.hold.rack ∧
      s.dev.framed d (frameBytes 2 (fFlags f) (fHops f + 1) (fDst f) (fSrc f)
        (fData f ++ pack [(4, s.dev.ownAddr), (1, s.dev.get RNG_ADDR_TRAY), (1, s.dev.mode.role.code), (2, 0)]))) ∧
  (∀ f s, s.dev.power.pwrok = true → frameOk f = true → fType f = 3 → s.dev.forMe f = true → fSrc f = s.dev.partnerAddr →
    numAt (fData f) 0 8 % 16 ≠ Role.quarantine.code →
    Leads (butAreas [.tiles, .savedTiles, .agents, .chans, .power, .xcn, .rst, .clk, .podTime, .status]) (.pulse f) s fun d => d.hold = { s.dev.hold with pulse := some s.dev.clk } ∧ d.mode = s.dev.mode) ∧
  (∀ f s, s.dev.power.pwrok = true → s.dev.mode.legal = true → frameOk f = true → fType f = 3 → s.dev.forMe f = true → fSrc f = s.dev.partnerAddr →
    numAt (fData f) 0 8 % 16 = Role.quarantine.code → s.dev.mode.partner ≠ .solo →
    Leads (butAreas [.tiles, .savedTiles, .agents, .chans, .power, .xcn, .rst, .clk, .podTime, .status]) (.pulse f) s fun d => d.mode.partner = .solo ∧ d.get HUB_PAIR_CAUSE = 4) ∧
  (∀ s, s.dev.up = true → s.dev.on RNG_ADDR_ENUM = true → s.dev.partnerAddr ≠ 0 →
    Leads (areas [.out]) .pulseTick s fun d => d.out = s.dev.out ++
      [⟨.ring, Kind.ringFrame, [], frameBytes 3 0 0 s.dev.partnerAddr s.dev.ownAddr (leBytes 8 s.dev.roleWord.toNat)⟩]) ∧
  (∀ f s, s.dev.power.pwrok = true → frameOk f = true → s.dev.forMe f = false → s.dev.mine f = false → fHops f < 64 →
    Leads (areas [.regs, .out]) (.ringFrameForward f) s fun d => d.out = s.dev.out ++
      [⟨.ring, Kind.ringFrame, [], frameBytes (fType f) (fFlags f) (fHops f + 1) (fDst f) (fSrc f) (fData f)⟩]) ∧
  (∀ f s, s.dev.power.pwrok = true → frameOk f = true → s.dev.forMe f = false → s.dev.mine f = false → 64 ≤ fHops f →
    Leads (areas [.regs, .out]) (.ringFrameForward f) s fun d => d.out = s.dev.out ∧ d.get RNG_COUNT_DROPPED = satAdd 16 (s.dev.get RNG_COUNT_DROPPED) 1) ∧
  (∀ f s, s.dev.power.pwrok = true → frameOk f = false →
    Leads (areas [.regs, .out]) (.ringFrameForward f) s fun d => d.out = s.dev.out ∧ d.get RNG_COUNT_CRC_FAIL = satAdd 16 (s.dev.get RNG_COUNT_CRC_FAIL) 1) ∧
  (∀ f s, s.dev.up = true → s.dev.power.pwrok = true → frameOk f = true → fType f = 5 → s.dev.forMe f = true → 8 ≤ (fData f).length →
    numAt (fData f) 0 1 < numAt (fData f) 1 1 → zeroAt (fData f) 2 2 = true →
    ((List.range (numAt (fData f) 1 1)).any fun j => decide (j ≠ numAt (fData f) 0 1) &&
      s.dev.sec.frags.all fun g => !(decide (g.1 = fSrc f ∧ g.2.1 = numAt (fData f) 4 4 ∧ g.2.2.1 = j))) = true →
    Leads (butAreas [.power, .job, .start, .hold, .clk, .podTime, .status]) (.resetReq f) s fun d => d.sec = { s.dev.sec with frags := (s.dev.sec.frags.filter fun g =>
        !(decide (g.1 = fSrc f ∧ g.2.1 = numAt (fData f) 4 4 ∧ g.2.2.1 = numAt (fData f) 0 1))) ++
          [(fSrc f, numAt (fData f) 4 4, numAt (fData f) 0 1, numAt (fData f) 1 1, (fData f).drop 8)] } ∧ d.rst = s.dev.rst ∧ d.out = s.dev.out) ∧
  (∀ f s, s.dev.up = true → s.dev.power.pwrok = true → frameOk f = true → fType f = 5 → s.dev.forMe f = true → 8 ≤ (fData f).length →
    numAt (fData f) 0 1 = 0 → numAt (fData f) 1 1 = 1 → zeroAt (fData f) 2 2 = true → s.dev.resetsRest →
    Leads (butAreas [.power, .job, .start, .hold, .clk, .podTime, .status]) (.resetReq f) s fun d =>
      (aKind ((fData f).drop 8) = 2 → s.dev.authzStatus ((fData f).drop 8) (s.dev.get SEC_RRSEQ_SEQ) = stOK → s.dev.on SEC_POLICY_RING_RESET = true →
        d.rst.fencing ≠ 0 ∨ d.rst.afterE3 = true) ∧
      (s.dev.authzStatus ((fData f).drop 8) (s.dev.get SEC_RRSEQ_SEQ) ≠ stOK →
        d.rst = s.dev.rst ∧ d.get RNG_COUNT_DROPPED = satAdd 16 (s.dev.get RNG_COUNT_DROPPED) 1)) ∧
  (∀ src id s, s.dev.runs → (s.dev.sec.frags.any fun g => decide (g.1 = src.toNat ∧ g.2.1 = id.toNat)) = true →
    Leads (areas [.regs, .sec]) (.resetReqReassemblyTimeout src id) s fun d =>
      d.sec = { s.dev.sec with frags := s.dev.sec.frags.filter fun g => !(decide (g.1 = src.toNat ∧ g.2.1 = id.toNat)) } ∧
      d.get RNG_COUNT_DROPPED = satAdd 16 (s.dev.get RNG_COUNT_DROPPED) 1)

/-- A flit is accepted in order, held against its CRC, answered by NAK and replayed. A flit that is not whole is answered by NAK and not
taken; one ahead is kept, asks for what is missing, and is taken when that has come; one in order delivers its message and advances FSEQ;
a NAK replays what is in flight; an acknowledgement releases the flits it covers; its timeout replays, counts, and at the limit checks the
lanes. (spec/11_links.md: Flits, Messages on flits) -/
def Obligations.FlitsOnALink : Prop :=
  (∀ p lane flit s, s.dev.up = true → Store.Canonical portReset s.dev.ports → s.dev.takesFlits p.val = true → flitOk flit = false →
    Leads (areas [.regs, .agents, .ports, .streams, .peers, .hosts, .circ, .tallies, .xcn, .found, .obs, .course, .free, .out]) (.flitReceive p lane flit) s fun d => (d.port p.val).nak = true ∧ (d.port p.val).fseqIn = (s.dev.port p.val).fseqIn ∧
      (d.port p.val).rx = (s.dev.port p.val).rx ∧
      (⟨.port p.val, Kind.nak, [((s.dev.port p.val).fseqIn + 4095) % 4096], []⟩ : Msg) ∈ d.out.drop s.dev.out.length) ∧
  (∀ p lane flit x rest s, s.dev.up = true → Store.Canonical portReset s.dev.ports → s.dev.flitInOrder p.val flit → numAt flit 4 1 = 0 →
    (s.dev.port p.val).rx = [] → takeMessages 5 (cut_ flit 8 240) = ([x], rest) → s.dev.lState p.val ≠ lQUIESCE →
    (s.dev.stream (s.dev.originOf p.val x.2.1)).next = x.1 → (s.dev.stream (s.dev.originOf p.val x.2.1)).seen = [] →
    (s.dev.port p.val).ahead = [] → (s.dev.port p.val).nextLanes = none →
    Leads (areas [.regs, .agents, .ports, .streams, .peers, .hosts, .circ, .tallies, .xcn, .found, .obs, .course, .free, .out]) (.flitReceive p lane flit) s fun d => (d.port p.val).fseqIn = ((s.dev.port p.val).fseqIn + 1) % 4096 ∧ (d.port p.val).nak = false ∧
      (d.port p.val).rx = rest ∧ (d.stream (s.dev.originOf p.val x.2.1)).next = (x.1 + 1) % 2 ^ 32 ∧
      d.out = s.dev.out ++ [⟨.cc, Kind.delivered, [p.val, s.dev.originOf p.val x.2.1, x.1], x.2.2⟩]) ∧
  (∀ p lane flit s, s.dev.up = true → Store.Canonical portReset s.dev.ports → s.dev.flitInOrder p.val flit → numAt flit 4 1 = 255 →
    (s.dev.port p.val).rx ≠ [] → takeMessage ((s.dev.port p.val).rx ++ cut_ flit 8 240) = none → 48 ≤ numAt (s.dev.port p.val).rx 4 2 →
    numAt (s.dev.port p.val).rx 4 2 ≤ 4144 → 8 ≤ (s.dev.port p.val).rx.length →
    (s.dev.port p.val).ahead = [] → (s.dev.port p.val).nextLanes = none →
    Leads (areas [.regs, .agents, .ports, .streams, .peers, .hosts, .circ, .tallies, .xcn, .found, .obs, .course, .free, .out]) (.flitReceive p lane flit) s fun d => (d.port p.val).fseqIn = ((s.dev.port p.val).fseqIn + 1) % 4096 ∧
      (d.port p.val).rx = (s.dev.port p.val).rx ++ cut_ flit 8 240 ∧ d.out = s.dev.out) ∧
  (∀ p lane flit s, s.dev.up = true → Store.Canonical portReset s.dev.ports → s.dev.takesFlits p.val = true → flitOk flit = true →
    numAt flit 0 4 / 2 ^ 28 = 1 → (s.dev.lState p.val ≠ lTRAINING ∨ 24 ≤ p.val) → numAt flit 0 4 % 4096 ≠ (s.dev.port p.val).fseqIn →
    (numAt flit 0 4 % 4096 + 4096 - (s.dev.port p.val).fseqIn) % 4096 < 2048 → bitOf (numAt flit 0 4) 24 = false →
    Leads (areas [.ports, .out]) (.flitReceive p lane flit) s fun d => (d.port p.val).nak = true ∧ (d.port p.val).fseqIn = (s.dev.port p.val).fseqIn ∧
      (d.port p.val).ahead.head? = some (numAt flit 0 4 % 4096, flit) ∧ (d.port p.val).rx = (s.dev.port p.val).rx ∧
      ((s.dev.port p.val).nak = false → (⟨.port p.val, Kind.nak, [((s.dev.port p.val).fseqIn + 4095) % 4096], []⟩ : Msg) ∈ d.out.drop s.dev.out.length)) ∧
  (∀ p lane flit g s, s.dev.up = true → Store.Canonical portReset s.dev.ports → s.dev.flitInOrder p.val flit →
    (s.dev.port p.val).ahead = [(((s.dev.port p.val).fseqIn + 1) % 4096, g)] →
    Leads (areas [.regs, .agents, .ports, .streams, .peers, .hosts, .circ, .tallies, .xcn, .found, .obs, .course, .free, .out]) (.flitReceive p lane flit) s fun d =>
      (d.port p.val).fseqIn = ((s.dev.port p.val).fseqIn + 2) % 4096 ∧ (d.port p.val).ahead = [] ∧ (d.port p.val).nak = false) ∧
  (∀ p lane flit s, s.dev.up = true → Store.Canonical portReset s.dev.ports → s.dev.takesFlits p.val = true → flitOk flit = true →
    numAt flit 0 4 / 2 ^ 28 ≠ 1 → bitOf (numAt flit 0 4) 24 = true → (numAt flit 0 4 / 2 ^ 12 % 4096 + 1) % 4096 = (s.dev.port p.val).oldest →
    (s.dev.port p.val).inFlight ≠ 0 →
    Leads (areas [.regs, .agents, .ports, .streams, .peers, .hosts, .circ, .tallies, .xcn, .found, .obs, .course, .free, .out]) (.flitReceive p lane flit) s fun d =>
      (⟨.port p.val, Kind.replay, [(s.dev.port p.val).oldest, (s.dev.port p.val).inFlight], []⟩ : Msg) ∈ d.out.drop s.dev.out.length ∧
      (p.val < 24 → d.get (LNK_ERR_RETRIES p.val) = satAdd 32 (s.dev.get (LNK_ERR_RETRIES p.val)) (s.dev.port p.val).inFlight)) ∧
  (∀ p lane flit s, s.dev.up = true → Store.Canonical portReset s.dev.ports → s.dev.takesFlits p.val = true → flitOk flit = true →
    numAt flit 0 4 / 2 ^ 28 ≠ 1 → bitOf (numAt flit 0 4) 24 = false → (s.dev.port p.val).waitFlits = [] →
    0 < (numAt flit 0 4 / 2 ^ 12 % 4096 + 4097 - (s.dev.port p.val).oldest) % 4096 →
    (numAt flit 0 4 / 2 ^ 12 % 4096 + 4097 - (s.dev.port p.val).oldest) % 4096 ≤ (s.dev.port p.val).inFlight →
    Leads (areas [.regs, .agents, .ports, .streams, .peers, .hosts, .circ, .tallies, .xcn, .found, .obs, .course, .free, .out]) (.flitReceive p lane flit) s fun d =>
      d.port p.val = { s.dev.port p.val with
        oldest := (numAt flit 0 4 / 2 ^ 12 % 4096 + 1) % 4096, replays := 0, fseqOut := (s.dev.port p.val).fseqOut % 4096,
        tx := markAcked ((numAt flit 0 4 / 2 ^ 12 % 4096 + 4097 - (s.dev.port p.val).oldest) % 4096) (s.dev.port p.val).tx } ∧ d.out = s.dev.out) ∧
  (∀ p s, s.dev.up = true → Store.Canonical portReset s.dev.ports → s.dev.takesFlits p.val = true → (s.dev.port p.val).inFlight ≠ 0 →
    Leads (areas [.regs, .agents, .ports, .out]) (.ackTimeout p) s fun d =>
      (⟨.port p.val, Kind.replay, [(s.dev.port p.val).oldest, (s.dev.port p.val).inFlight], []⟩ : Msg) ∈ d.out.drop s.dev.out.length ∧
      (24 ≤ p.val → d.get (LNK_SB_RETRIES (p.val - 24)) = satAdd 32 (s.dev.get (LNK_SB_RETRIES (p.val - 24))) (s.dev.port p.val).inFlight) ∧
      (p.val < 24 → max 1 (s.dev.get (LNK_CFG_RETRY_MAX p.val)) ≤ (s.dev.port p.val).replays + 1 →
        (⟨.port p.val, Kind.laneCheck, [], []⟩ : Msg) ∈ d.out.drop s.dev.out.length ∧ (d.port p.val).replays = 0))

/-- Lanes drop and return; a port trains, parks, detours or goes down. A dropped lane leaves SHED, or DOWN with fewer than two; the far end's
lane map takes effect at the FSEQ boundary it names; it and a restored lane give UP or SHED; retraining and light start training under the
own address and port; a trained port takes the group of its configuration; its timeout and a miswired far end give DOWN with their cause,
its end UP, SHED or PARKED. That a lane map sends nothing is stated for SOLO (it is mirrored to a partner). (spec/11_links.md: Port states
and training, SHED and DETOUR, Registers) -/
def Obligations.LanesComeAndGo : Prop :=
  (∀ p lane cause s, s.dev.up = true → Store.Canonical portReset s.dev.ports → s.dev.lUp p.val = true → bitOf (s.dev.port p.val).good lane.val = true →
    s.dev.copt CRS_CTRL_LANE_WATCH = false → 2 ≤ laneCount (((s.dev.port p.val).good - 2 ^ lane.val) &&& (s.dev.port p.val).farLanes) →
    s.dev.staysOn p.val (((s.dev.port p.val).good - 2 ^ lane.val) &&& (s.dev.port p.val).farLanes) → (s.dev.port p.val).good < 256 →
    Leads (areas [.regs, .ports, .streams, .peers, .hosts, .circ, .tallies, .xcn, .found, .obs, .course, .free, .out]) (.laneDrop p lane cause) s fun d => (d.port p.val).good = (s.dev.port p.val).good - 2 ^ lane.val ∧
      d.get (LNK_ERR_DROPS p.val) = satAdd 16 (s.dev.get (LNK_ERR_DROPS p.val)) 1 ∧ d.lState p.val = lSHED ∧
      d.get (LNK_STAT_LANES p.val) = ((s.dev.port p.val).good - 2 ^ lane.val) &&& (s.dev.port p.val).farLanes ∧
      (⟨.port p.val, Kind.lanemap, [(s.dev.port p.val).fseqOut, (s.dev.port p.val).good - 2 ^ lane.val], []⟩ : Msg) ∈ d.out.drop s.dev.out.length) ∧
  (∀ p lane cause s, s.dev.up = true → Store.Canonical portReset s.dev.ports → s.dev.lUp p.val = true → bitOf (s.dev.port p.val).good lane.val = true →
    s.dev.copt CRS_CTRL_LANE_WATCH = false → laneCount (((s.dev.port p.val).good - 2 ^ lane.val) &&& (s.dev.port p.val).farLanes) < 2 →
    s.dev.on (LNK_CFG_MODE p.val) = false →
    Leads (areas [.regs, .ports, .streams, .peers, .hosts, .circ, .tallies, .xcn, .found, .obs, .course, .free, .out]) (.laneDrop p lane cause) s fun d => d.lState p.val = s.dev.downState p.val ∧ d.get (LNK_STAT_CAUSE p.val) = cause.toNat ∧ d.get (LNK_STAT_LANES p.val) = 0) ∧
  (∀ p b lanes s, s.dev.up = true → Store.Canonical portReset s.dev.ports → s.dev.lUp p.val = true →
    2 ≤ laneCount ((s.dev.port p.val).good &&& lanes.toNat) → s.dev.staysOn p.val ((s.dev.port p.val).good &&& lanes.toNat) →
    ((s.dev.port p.val).fseqIn + 4096 - b.toNat) % 4096 < 2048 →
    Leads (areas [.regs, .ports, .hosts, .circ, .tallies, .found, .obs, .out]) (.lanemap p b lanes) s fun d => (d.port p.val).farLanes = lanes.toNat ∧
      d.get (LNK_STAT_LANES p.val) = (s.dev.port p.val).good &&& lanes.toNat ∧
      d.lState p.val = (if (s.dev.port p.val).good &&& lanes.toNat = 255 then lUP else lSHED) ∧ (s.dev.mode.partner = .solo → d.out = s.dev.out)) ∧
  (∀ p b lanes s, s.dev.up = true → Store.Canonical portReset s.dev.ports → s.dev.trained p.val = true →
    2048 ≤ ((s.dev.port p.val).fseqIn + 4096 - b.toNat) % 4096 →
    Leads (only [.port p.val]) (.lanemap p b lanes) s fun d => d.port p.val = { s.dev.port p.val with nextLanes := some (b.toNat, lanes.toNat) }) ∧
  (∀ p s, s.dev.up = true → s.dev.trained p.val = true →
    Leads (areas [.out]) (.laneRetrainTick p) s fun d => d.out = s.dev.out ++
      ((List.range 8).filter fun i => !(bitOf (s.dev.port p.val).good i)).map fun i => ⟨.port p.val, Kind.laneTrain, [i], []⟩) ∧
  (∀ p lane s, s.dev.up = true → Store.Canonical portReset s.dev.ports → s.dev.lUp p.val = true → bitOf (s.dev.port p.val).good lane.val = false →
    2 ≤ laneCount (((s.dev.port p.val).good + 2 ^ lane.val) &&& (s.dev.port p.val).farLanes) →
    s.dev.staysOn p.val (((s.dev.port p.val).good + 2 ^ lane.val) &&& (s.dev.port p.val).farLanes) → (s.dev.port p.val).good < 256 →
    Leads (areas [.regs, .ports, .hosts, .circ, .tallies, .xcn, .found, .obs, .free, .out]) (.laneRestore p lane) s fun d => (d.port p.val).good = (s.dev.port p.val).good + 2 ^ lane.val ∧
      d.get (LNK_STAT_LANES p.val) = ((s.dev.port p.val).good + 2 ^ lane.val) &&& (s.dev.port p.val).farLanes ∧
      d.lState p.val = (if ((s.dev.port p.val).good + 2 ^ lane.val) &&& (s.dev.port p.val).farLanes = 255 then lUP else lSHED) ∧
      (⟨.port p.val, Kind.lanemap, [(s.dev.port p.val).fseqOut, (s.dev.port p.val).good + 2 ^ lane.val], []⟩ : Msg) ∈ d.out.drop s.dev.out.length) ∧
  (∀ p s, s.dev.up = true → s.dev.trainable p.val → s.dev.lState p.val = lDOWN →
    Leads (areas [.regs, .hosts, .circ, .tallies, .found, .obs, .out]) (.portLightDetect p) s fun d => d.lState p.val = lTRAINING ∧
      d.get (LNK_ERR_TRAININGS p.val) = satAdd 16 (s.dev.get (LNK_ERR_TRAININGS p.val)) 1 ∧
      (⟨.port p.val, Kind.train, [s.dev.ownAddr, p.val], []⟩ : Msg) ∈ d.out.drop s.dev.out.length) ∧
  (∀ p s, s.dev.up = true → s.dev.trainable p.val → s.dev.lState p.val = lDETOUR → 8 ≤ p.val →
    Leads (areas [.regs, .hosts, .circ, .tallies, .found, .obs, .out]) (.portLightDetect p) s fun d => d.lState p.val = lDETOUR ∧
      d.get (LNK_ERR_TRAININGS p.val) = satAdd 16 (s.dev.get (LNK_ERR_TRAININGS p.val)) 1 ∧
      d.out = s.dev.out ++ [⟨.port p.val, Kind.train, [s.dev.ownAddr, p.val], []⟩]) ∧
  (∀ p s, s.dev.up = true → s.dev.trainable p.val → s.dev.lState p.val = lDOWN →
    Leads (areas [.regs, .hosts, .circ, .tallies, .found, .obs, .out]) (.portRetrainTick p) s fun d => d.lState p.val = lTRAINING ∧
      d.get (LNK_ERR_TRAININGS p.val) = satAdd 16 (s.dev.get (LNK_ERR_TRAININGS p.val)) 1 ∧
      (⟨.port p.val, Kind.train, [s.dev.ownAddr, p.val], []⟩ : Msg) ∈ d.out.drop s.dev.out.length) ∧
  (∀ p s, s.dev.up = true → s.dev.lState p.val = lTRAINING → s.dev.shore.handback = none →
    Leads (areas [.regs, .tiles, .agents, .ports, .streams, .hosts, .circ, .tallies, .slots, .mode, .xcn, .sync, .found, .obs, .course, .shore, .wit, .free, .out]) (.trainingTimeout p) s fun d => d.lState p.val = s.dev.downState p.val ∧ d.get (LNK_STAT_CAUSE p.val) = 6) ∧
  (∀ p lanes far delay s, s.dev.up = true → Store.Canonical portReset s.dev.ports → s.dev.lState p.val = lTRAINING → s.dev.miswired p.val far = false →
    2 ≤ laneCount lanes.toNat → s.dev.staysOn p.val lanes.toNat → s.dev.start.ordered = false → p.val ≠ 19 → (far = .loopback → p.val < 8 ∨ 20 ≤ p.val) →
    s.dev.shore.handback = none →
    Leads (areas [.regs, .memory, .checks, .ports, .streams, .peers, .hosts, .circ, .tallies, .slots, .mmu, .xcn, .sync, .found, .obs, .shore, .out]) (.trainingDone p lanes far delay) s fun d => d.lState p.val = (if lanes.toNat = 255 then lUP else lSHED) ∧
      d.get (LNK_STAT_LANES p.val) = lanes.toNat ∧ d.get (LNK_FAR_AGENT p.val) = (match far with | .agent _ _ => 1 | _ => 0) ∧
      ((d.port p.val).fseqIn, (d.port p.val).oldest, (d.port p.val).good, (d.port p.val).farLanes, (d.port p.val).delay) =
        (0, 0, lanes.toNat, lanes.toNat, delay) ∧ d.portGroup p.val = s.dev.get (LNK_CFG_GROUP p.val)) ∧
  (∀ p lanes delay s, s.dev.up = true → Store.Canonical portReset s.dev.ports → s.dev.lState p.val = lTRAINING → 2 ≤ laneCount lanes.toNat →
    s.dev.start.ordered = false → 8 ≤ p.val → p.val < 20 → s.dev.shore.handback = none →
    Leads (areas [.regs, .memory, .checks, .ports, .streams, .peers, .hosts, .circ, .tallies, .slots, .mmu, .xcn, .sync, .found, .obs, .shore, .out]) (.trainingDone p lanes .loopback delay) s fun d => d.lState p.val = lPARKED ∧ d.get (LNK_STAT_LANES p.val) = lanes.toNat) ∧
  (∀ p lanes far delay s, s.dev.up = true → s.dev.lState p.val = lTRAINING → s.dev.miswired p.val far = true →
    Leads (areas [.regs, .memory, .checks, .ports, .streams, .peers, .hosts, .circ, .tallies, .slots, .mmu, .xcn, .sync, .found, .obs, .shore, .out]) (.trainingDone p lanes far delay) s fun d => d.lState p.val = s.dev.downState p.val ∧ d.get (LNK_STAT_CAUSE p.val) = 4)

/-- A link test runs and ends; Pod Time is carried, disciplined and lost. LNK_TEST starts or is BUSY, and ends PASS or with its errors and the
port DOWN (OFF where it is not enabled); TIME flits go out and are taken by agents, kept, or discipline Pod Time; PTP sets it outside a
job and slews it within; loss of the source unlocks, with its record where the rate limit allows it. (spec/11_links.md: Port states and
training, Pod Time on the ports; spec/16_observability.md: Pod Time) -/
def Obligations.LinkTestsAndPodTime : Prop :=
  (∀ v s, s.dev.up = true → LNK_TEST_GO.of v = 1 → s.dev.on LNK_TEST_GO = false → s.dev.mayTest (LNK_TEST_TARGET.of v) = true →
    Leads (areas [.regs, .status, .out]) (.lnkTestGo v) s fun d => d.status = stOK ∧ d.on LNK_TEST_GO = true ∧ d.get LNK_TEST_TARGET = LNK_TEST_TARGET.of v ∧ d.get LNK_TEST_DONE = 0 ∧
      d.get LNK_TEST_ERRORS = 0 ∧
      d.out = s.dev.out ++ [⟨.port (LNK_TEST_TARGET.of v), Kind.prbs31, [max 1 (LNK_TEST_TEST_MS.of v)], []⟩]) ∧
  (∀ v s, s.dev.up = true → LNK_TEST_GO.of v = 1 → (s.dev.on LNK_TEST_GO = true ∨ s.dev.mayTest (LNK_TEST_TARGET.of v) = false) →
    Leads (areas [.regs, .status, .out]) (.lnkTestGo v) s fun d => d.status = stBUSY ∧ d.out = s.dev.out) ∧
  (∀ e s, s.dev.up = true → s.dev.on LNK_TEST_GO = true → e = 0 → s.dev.shore.handback = none →
    Leads (areas [.regs, .tiles, .agents, .ports, .streams, .hosts, .circ, .tallies, .slots, .mode, .xcn, .sync, .found, .obs, .course, .shore, .wit, .free, .out]) (.linkTestDone e) s fun d => (d.get LNK_TEST_GO, d.get LNK_TEST_DONE, d.get LNK_TEST_PASS, d.get LNK_TEST_ERRORS) = (0, 1, 1, 0) ∧
      d.lState (s.dev.get LNK_TEST_TARGET) = s.dev.lState (s.dev.get LNK_TEST_TARGET)) ∧
  (∀ e s, s.dev.up = true → s.dev.on LNK_TEST_GO = true → e ≠ 0 → s.dev.get LNK_TEST_TARGET < 24 → s.dev.lUp (s.dev.get LNK_TEST_TARGET) = false →
    s.dev.shore.handback = none →
    Leads (areas [.regs, .tiles, .agents, .ports, .streams, .hosts, .circ, .tallies, .slots, .mode, .xcn, .sync, .found, .obs, .course, .shore, .wit, .free, .out]) (.linkTestDone e) s fun d => (d.get LNK_TEST_GO, d.get LNK_TEST_DONE, d.get LNK_TEST_PASS, d.get LNK_TEST_ERRORS) = (0, 1, 0, e.toNat) ∧
      d.lState (s.dev.get LNK_TEST_TARGET) = s.dev.downState (s.dev.get LNK_TEST_TARGET) ∧ d.get (LNK_STAT_CAUSE (s.dev.get LNK_TEST_TARGET)) = 7) ∧
  (∀ p s, s.dev.up = true → s.dev.timePort p.val = true → (p.val < 8 ∨ 20 ≤ p.val) →
    Leads (areas [.out]) (.timeFlitTick p) s fun d => d.out = s.dev.out ++ [⟨.port p.val, Kind.timeFlit,
      [s.dev.podTime, (s.dev.port p.val).timeTx, (s.dev.port p.val).timeRx, if p.val < 8 then (s.dev.port p.val).delay else 0], []⟩]) ∧
  (∀ p tTx t1 t2 dl s, s.dev.up = true → s.dev.timePort p.val = true → p.val < 8 →
    Leads (areas [.regs, .agents, .ports, .hosts, .circ, .tallies, .found, .obs, .podTime, .out]) (.timeFlit p tTx t1 t2 dl) s fun d => (d.agent p.val).get QAG_PODTIME_TIME = (tTx + dl).toNat ∧ d.podTime = s.dev.podTime ∧ d.out = s.dev.out) ∧
  (∀ p tTx t1 t2 dl s, s.dev.up = true → s.dev.timePort p.val = true → 20 ≤ p.val → s.dev.timeSource ≠ p.val →
    Leads (areas [.regs, .agents, .ports, .hosts, .circ, .tallies, .found, .obs, .podTime, .out]) (.timeFlit p tTx t1 t2 dl) s fun d => d.port p.val = { s.dev.port p.val with timeTx := tTx.toNat, timeRx := s.dev.podTime } ∧
      d.podTime = s.dev.podTime) ∧
  (∀ p tTx t1 t2 dl s, s.dev.up = true → s.dev.timePort p.val = true → 20 ≤ p.val → s.dev.timeSource = p.val → s.dev.epoch = 0 → tTx.toNat ≤ s.dev.podTime →
    t1.toNat ≤ t2.toNat → t2.toNat - t1.toNat ≤ s.dev.podTime - tTx.toNat →
    Leads (areas [.regs, .agents, .ports, .hosts, .circ, .tallies, .found, .obs, .podTime, .out]) (.timeFlit p tTx t1 t2 dl) s fun d =>
      d.podTime = tTx.toNat + (s.dev.podTime - tTx.toNat - (t2.toNat - t1.toNat)) / 2 ∧ d.obs.disciplined = true ∧ d.obs.srcLost = false) ∧
  (∀ o s, s.dev.up = true → s.dev.on HST_NET_PTP = true → s.dev.timeSource = 0x1F → s.dev.epoch = 0 → 0 ≤ o.toInt →
    Leads (areas [.regs, .hosts, .circ, .tallies, .found, .obs, .podTime, .out]) (.ptpMessage o) s fun d => d.podTime = s.dev.podTime + o.toNat ∧ d.get LNK_TIME_OFFSET = o.toNat ∧ d.obs.disciplined = true ∧
      (6 < o.toNat → d.on LNK_TIME_LOCKED = false ∧ d.obs.within = none)) ∧
  (∀ o s, s.dev.up = true → s.dev.on HST_NET_PTP = true → s.dev.timeSource = 0x1F → s.dev.epoch ≠ 0 → o.toInt < 0 → s.dev.obs.lastSlew + 10000 ≤ s.dev.clk →
    Leads (areas [.regs, .hosts, .circ, .tallies, .found, .obs, .podTime, .out]) (.ptpMessage o) s fun d => d.podTime = s.dev.podTime ∧ d.obs.withhold = true ∧ d.obs.lastSlew = s.dev.clk ∧ d.get LNK_TIME_OFFSET = o.toNat) ∧
  (∀ s, s.dev.up = true → (s.dev.timeSource = 0x1F ∨ s.dev.timePort s.dev.timeSource = false) →
    Leads (areas [.obs]) .timeSourceLost s fun d => d.obs = { s.dev.obs with srcLost := true, within := none, withhold := false }) ∧
  (∀ s, s.dev.up = true → s.dev.obs.srcLost = true → s.dev.on LNK_TIME_LOCKED = true → s.dev.obs.rateCount < max 1 (s.dev.get DST_CFG_RATE) →
    Leads (areas [.regs, .hosts, .circ, .tallies, .found, .obs, .out]) .lockLossTimeout s fun d => d.on LNK_TIME_LOCKED = false ∧ d.on TAL_EVT_UNLOCK = true ∧
      s.dev.hasRecorded d 0x0D 0 (leBytes 8 ((d.word LNK_TIME_LOCKED.addr).toNat)))

/-- A translation fault is queued, held, resumed or aborted; invalidations complete. A fault of a DMA channel takes the next record of the
queue and holds it; PROT and a full queue take none; a final cause stops the channel with FAULT; a channel without a fault is left alone;
a tile's transfer is held; FRESUME resumes, aborts or finds none; MMU_INV of a page, a context or all is pending until complete.
(spec/09_memory.md: Faults, Address translation, Registers) -/
def Obligations.FaultsOfTranslation : Prop :=
  (∀ n va w ctx c s, s.dev.up = true → Store.Canonical chanReset s.dev.chans → s.dev.faultsAt n va w ctx c → c ≠ fPROT → finalCause c = false →
    s.dev.fqFull = false → s.dev.phys s.dev.fqNext = .hbm →
    Leads (orBytes s.dev.fqNext 32 (areas [.regs, .chans, .mmu])) (.mmuFault (.chan n)) s fun d =>
      d.mmu = { s.dev.mmu with nextIndex := (s.dev.mmu.nextIndex + 1) % 2 ^ 32,
                               faults := s.dev.mmu.faults ++ [⟨some (s.dev.get MMU_FQ_PTR_HEAD), .chan n, va, c, w, ctx⟩] } ∧
      d.bytes s.dev.fqNext 32 = (s.dev.noteOf ⟨none, .chan n, va, c, w, ctx⟩).bytes s.dev.mmu.nextIndex ∧ d.chan n = { s.dev.chan n with held := true } ∧
      d.get MMU_FQ_PTR_HEAD = (s.dev.get MMU_FQ_PTR_HEAD + 1) % s.dev.fqSize ∧ d.get MMU_STAT_FAULTS = satAdd 32 (s.dev.get MMU_STAT_FAULTS) 1 ∧
      d.get MMU_STAT_OUTSTANDING = (s.dev.get MMU_STAT_OUTSTANDING + 1) % 2 ^ 16 ∧ d.out = s.dev.out) ∧
  (∀ n va w ctx c s, s.dev.up = true → Store.Canonical chanReset s.dev.chans → s.dev.faultsAt n va w ctx c → (c = fPROT ∨ s.dev.fqFull = true) →
    Leads (butAreas [.savedTiles, .watches, .power, .mode, .xcn, .sec, .job, .start, .hold, .rst, .clk, .podTime, .status, .free]) (.mmuFault (.chan n)) s fun d =>
      d.mmu = { s.dev.mmu with faults := s.dev.mmu.faults ++ [⟨none, .chan n, va, c, w, ctx⟩] } ∧ d.chan n = { s.dev.chan n with held := true } ∧
      d.get MMU_FQ_PTR_HEAD = s.dev.get MMU_FQ_PTR_HEAD ∧ d.mem = s.dev.mem) ∧
  (∀ n va w ctx c s, s.dev.up = true → Store.Canonical chanReset s.dev.chans → s.dev.faultsAt n va w ctx c → finalCause c = true →
    s.dev.fqFull = false → n < 64 →
    Leads (butAreas [.savedTiles, .watches, .power, .mode, .xcn, .sec, .job, .start, .hold, .rst, .clk, .podTime, .status, .free]) (.mmuFault (.chan n)) s fun d => s.dev.stopped d n stFAULT ∧ d.mmu.faults = s.dev.mmu.faults ∧
      d.get MMU_FQ_PTR_HEAD = (s.dev.get MMU_FQ_PTR_HEAD + 1) % s.dev.fqSize) ∧
  (∀ n s, s.dev.up = true → (s.dev.chan n).held = false → fragFault s.dev (s.dev.desc (.chan n)) = none →
    Leads (only []) (.mmuFault (.chan n)) s fun d => d = s.dev) ∧
  (∀ n k m off c s, s.dev.up = true → Store.Canonical tileReset s.dev.tiles → (s.dev.tile n).moves[k]? = some m → m.held = false →
    (s.dev.tile n).state = tRUNNING → moveBad s.dev n m.entry = some (off, some c) → off = m.entry.prog → c ≠ fPROT → finalCause c = false →
    s.dev.fqFull = true →
    Leads (butAreas [.savedTiles, .watches, .power, .mode, .xcn, .sec, .job, .start, .hold, .rst, .clk, .podTime, .status, .free]) (.mmuFault (.move n k)) s fun d => (d.tile n).moves[k]? = some { m with held := true } ∧
      d.mmu.faults = s.dev.mmu.faults ++ [⟨none, .move n k, (mvMemory m.entry + off) % 2 ^ 64, c, decide (m.entry.op = .put), s.dev.tctx n⟩]) ∧
  (∀ v f n s, s.dev.up = true → Store.Canonical chanReset s.dev.chans → MMU_FRESUME_ACTION.of v = 0 →
    (s.dev.mmu.faults.find? fun f => decide (f.ring = some (MMU_FRESUME_INDEX.of v))) = some f → f.req = .chan n → f.ctx = 1 → f.cause ≠ fUNMAPPED →
    Leads (butAreas [.savedTiles, .watches, .power, .mode, .xcn, .sec, .job, .start, .hold, .rst, .clk, .podTime, .free]) (.mmuFresumeResume v) s fun d => d.status = stOK ∧ d.mmu = { s.dev.mmu with faults := s.dev.mmu.faults.erase f } ∧
      d.chan n = { s.dev.chan n with held := false } ∧ d.get MMU_STAT_OUTSTANDING = s.dev.get MMU_STAT_OUTSTANDING - 1) ∧
  (∀ v f n s, s.dev.up = true → Store.Canonical chanReset s.dev.chans → MMU_FRESUME_ACTION.of v = 1 → n < 64 →
    (s.dev.mmu.faults.find? fun f => decide (f.ring = some (MMU_FRESUME_INDEX.of v))) = some f → f.req = .chan n →
    Leads (butAreas [.savedTiles, .watches, .power, .mode, .xcn, .sec, .job, .start, .hold, .rst, .clk, .podTime, .free]) (.mmuFresumeAbort v) s fun d => d.status = stOK ∧ d.mmu.faults = s.dev.mmu.faults.erase f ∧ s.dev.stopped d n (faultAnswer f.cause)) ∧
  (∀ v s, s.dev.up = true → MMU_FRESUME_ACTION.of v = 1 → (s.dev.mmu.faults.find? fun f => decide (f.ring = some (MMU_FRESUME_INDEX.of v))) = none →
    Leads (only [.status]) (.mmuFresumeAbort v) s fun d => d.status = stOK) ∧
  (∀ v s, s.dev.up = true → MMU_INV_SCOPE.of v = 0 →
    Leads (only [.reg MMU_INV_STAT_PENDING.addr, .status]) (.mmuInvPage v) s fun d => d.status = stOK ∧
      d.get MMU_INV_STAT_PENDING = if s.dev.get (MMU_ROOT_VALID (MMU_INV_CTX.of v)) = 1 then 1 else s.dev.get MMU_INV_STAT_PENDING) ∧
  (∀ v s, s.dev.up = true → MMU_INV_SCOPE.of v = 1 →
    Leads (only [.reg MMU_INV_STAT_PENDING.addr, .status]) (.mmuInvContext v) s fun d => d.status = stOK ∧
      d.get MMU_INV_STAT_PENDING = if s.dev.get (MMU_ROOT_VALID (MMU_INV_CTX.of v)) = 1 then 1 else s.dev.get MMU_INV_STAT_PENDING) ∧
  (∀ v s, s.dev.up = true → MMU_INV_SCOPE.of v = 2 →
    Leads (only [.reg MMU_INV_STAT_PENDING.addr, .status]) (.mmuInvAll v) s fun d => d.status = stOK ∧ d.get MMU_INV_STAT_PENDING = 1) ∧
  (∀ s, s.dev.up = true → Leads (only [.reg MMU_INV_STAT_PENDING.addr]) .mmuInvComplete s fun d => d.get MMU_INV_STAT_PENDING = 0)

/-- The partition is written, errors are counted, a channel degrades, guests resume. MMU_PART is written, or is LENGTH or BUSY; an
uncorrectable error is counted by memory, stops the channel that met it with FAULT, and the sixteenth of a DDR channel retires it; at an
address without memory nothing changes, a corrected one of a store is only counted, one of a running tile faults it with PARITY, one of a
witness record drops that record, one of an engine resets the engine with cause PARITY; patrol scrub counts, or does nothing at 0 hours; a
clean write gives the page its bytes at a home in the tier and marks the leaf, or with no bandwidth, in SHORE or in a reclaim does
nothing; a saved guest program resumes on its tiles with stores and registers from its images, is discarded with its guest and an
integrity event where an image fails its check, and without one saved nothing changes. (spec/09_memory.md: The HBM partition, The DDR5
tier, Block checks in memory, Reclaiming the guest quota) -/
def Obligations.MemoryErrorsAndPartition : Prop :=
  (∀ v s, s.dev.up = true → MMU_PART_GUEST_GIB.of v + MMU_PART_SHORE_GIB.of v ≤ 1347 → s.dev.mode.role = .service → s.dev.mmu.guests = [] →
    Leads (only [.reg MMU_PART_GUEST_GIB.addr, .status]) (.mmuPartWrite v) s fun d => d.status = stOK ∧
      d.get MMU_PART_GUEST_GIB = MMU_PART_GUEST_GIB.of v ∧ d.get MMU_PART_SHORE_GIB = MMU_PART_SHORE_GIB.of v ∧
      d.get MMU_PART_CACHE_GIB = 1411 - MMU_PART_SHORE_GIB.of v - MMU_PART_GUEST_GIB.of v) ∧
  (∀ v s, s.dev.up = true → 1347 < MMU_PART_GUEST_GIB.of v + MMU_PART_SHORE_GIB.of v →
    Leads (only [.status]) (.mmuPartWrite v) s fun d => d.status = stLENGTH) ∧
  (∀ v s, s.dev.up = true → MMU_PART_GUEST_GIB.of v + MMU_PART_SHORE_GIB.of v ≤ 1347 → (s.dev.mode.role ≠ .service ∨ s.dev.mmu.guests ≠ []) →
    Leads (only [.status]) (.mmuPartWrite v) s fun d => d.status = stBUSY) ∧
  (∀ pa s, s.dev.up = true → s.dev.phys pa = .hbm →
    Leads (butAreas [.savedTiles, .chans, .watches, .power, .xcn, .sec, .job, .start, .hold, .rst, .clk, .podTime, .status, .free]) (.memoryUe (.phys pa) none false) s fun d => d.get MEM_HBM_ERR_UE = satAdd 16 (s.dev.get MEM_HBM_ERR_UE) 1 ∧ d.get WIT_LAST_CLASS = 1 ∧
      d.get WIT_LAST_OZMUND = 1) ∧
  (∀ pa ch s, s.dev.up = true → s.dev.phys pa = .ddr ch → ch < 24 → (s.dev.get (MEM_DDR_CH_UE ch) ≠ 15 ∨ s.dev.get (MEM_DDR_CH_STATE ch) ≠ 1) →
    Leads (butAreas [.savedTiles, .chans, .watches, .power, .xcn, .sec, .job, .start, .hold, .rst, .clk, .podTime, .status, .free]) (.memoryUe (.phys pa) none false) s fun d => d.get (MEM_DDR_CH_UE ch) = satAdd 16 (s.dev.get (MEM_DDR_CH_UE ch)) 1 ∧
      d.get (MEM_DDR_CH_STATE ch) = s.dev.get (MEM_DDR_CH_STATE ch) ∧ d.get WIT_LAST_CLASS = 1) ∧
  (∀ pa ch s, s.dev.up = true → s.dev.phys pa = .ddr ch → ch < 24 → s.dev.get (MEM_DDR_CH_UE ch) = 15 → s.dev.get (MEM_DDR_CH_STATE ch) = 1 →
    s.dev.mmu.guests = [] →
    Leads (butAreas [.savedTiles, .chans, .watches, .power, .xcn, .sec, .job, .start, .hold, .rst, .clk, .podTime, .status, .free]) (.memoryUe (.phys pa) none false) s fun d => d.get (MEM_DDR_CH_STATE ch) = 3 ∧ d.get (MEM_DDR_CH_CAUSE ch) = 5 ∧ d.get (MEM_DDR_CH_UE ch) = 16 ∧
      (d.get MEM_DDR_CFG_SLOW = 1 → d.on SHR_CTRL_EN = false)) ∧
  (∀ pa n s, s.dev.up = true → Store.Canonical chanReset s.dev.chans → s.dev.phys pa = .hbm → n < 64 →
    Leads (butAreas [.savedTiles, .watches, .power, .xcn, .sec, .job, .start, .hold, .rst, .clk, .podTime, .status, .free]) (.memoryUe (.phys pa) (some (.chan n)) false) s fun d => s.dev.stopped d n stFAULT ∧ d.get MEM_HBM_ERR_UE = satAdd 16 (s.dev.get MEM_HBM_ERR_UE) 1) ∧
  (∀ pa r passes s, s.dev.up = true → s.dev.phys pa ∈ [.none, .ctl] → Leads (only []) (.memoryUe (.phys pa) r passes) s fun d => d = s.dev) ∧
  (∀ place r s, s.dev.up = true → ((∃ n cls, place = .tile n cls) ∨ ∃ u, place = .engine u) → Leads (only [.obs]) (.memoryUe place r true) s fun d =>
    d.obs = { s.dev.obs with sramCorrected := s.dev.obs.sramCorrected + 1 }) ∧
  (∀ n cls s, s.dev.up = true → (s.dev.tile n).state ∈ [tRUNNING, tHALTED] → (s.dev.tile n).passes = [] → (s.dev.tile n).moves = [] →
    (s.dev.tile n).on TLE_ERR_VALID = false → (s.dev.tile n).owner ≠ oWITNESS →
    Leads (butAreas [.savedTiles, .chans, .watches, .power, .xcn, .sec, .job, .start, .hold, .rst, .clk, .podTime, .status, .free]) (.memoryUe (.tile n cls) none false) s fun d =>
      (d.tile n).state = tFAULTED ∧ (d.tile n).on TLE_ERR_VALID = true ∧ (d.tile n).get TLE_ERR_CAUSE = cPARITY ∧
      (d.tile n).get TLE_ERR_QUEUE = (classOfCode cls).code ∧ d.get WIT_LAST_CLASS = 1) ∧
  (∀ i x s, s.dev.up = true → s.dev.wit.queue[i]? = some x →
    Leads (areas [.regs, .ports, .streams, .peers, .hosts, .circ, .tallies, .found, .obs, .wit, .out]) (.memoryUe (.record i) none false) s fun d =>
      d.wit.queue = s.dev.wit.queue.eraseIdx i ∧ d.wit.expected = s.dev.wit.expected.erase (x.slot, x.dom, x.step, x.index) ∧ d.get WIT_STAT_BACKLOG = (s.dev.wit.queue.eraseIdx i).length % 2 ^ WIT_STAT_BACKLOG.width ∧
      d.get WIT_LAST_CLASS = 1) ∧
  (∀ u s, s.dev.up = true → s.dev.resetsRest → u ∈ [0x81, 0x82] → s.dev.slotsIn sSHORED = [] → s.dev.slotsIn sREINT = [] → s.dev.atLimit u 1 = false →
    Leads (orRecord (areas [.regs, .rst])) (.memoryUe (.engine u) none false) s fun d => d.showsReset u 1 rcPARITY ∧ d.on RST_EVT_WATCHDOG = true ∧
      d.rst.counts = s.dev.rst.counts ++ [(u, 1, s.dev.clk)] ∧ d.get WIT_LAST_CLASS = 1) ∧
  (∀ hbm (ddr : List Nat) s, s.dev.up = true → s.dev.get MEM_SCRUB_HOURS ≠ 0 → ddr.length ≤ 24 →
    Leads (areas [.regs]) (.patrolScrub hbm ddr) s fun d => d.get MEM_HBM_ERR_CE = satAdd MEM_HBM_ERR_CE.width (s.dev.get MEM_HBM_ERR_CE) hbm ∧
      ∀ ch < 24, d.get (MEM_DDR_CH_CE ch) = if s.dev.get (MEM_DDR_CH_STATE ch) = 1
        then satAdd (MEM_DDR_CH_CE ch).width (s.dev.get (MEM_DDR_CH_CE ch)) (ddr.getD ch 0) else s.dev.get (MEM_DDR_CH_CE ch)) ∧
  (∀ hbm ddr s, s.dev.up = true → s.dev.get MEM_SCRUB_HOURS = 0 → Leads (only []) (.patrolScrub hbm ddr) s fun d => d = s.dev) ∧
  (∀ (ctx : Fin 64) (va : W64) g p h home leaf s, s.dev.up = true → (s.dev.mmu.guests.find? fun g => decide (g.ctx = ctx.val)) = some g → ctx.val ≠ 3 →
    (g.pages.find? fun p => decide (p.va = va.toNat / pageBytes * pageBytes)) = some p → p.hbm = some h → p.home = none → s.dev.freeHome = some home →
    s.dev.get MEM_DDR_CEIL_CLEAN_GBS ≠ 0 → s.dev.mode.role ≠ .shore → s.dev.mmu.reclaim = .idle → s.dev.shadowed ctx.val p = false →
    s.dev.runOk h pageBytes = true →
    (s.dev.entriesOf (va.toNat / pageBytes * pageBytes) 5 0 (s.dev.get (MMU_ROOT_ROOT ctx.val) * 1024))[4]? = some leaf → s.dev.phys leaf = .hbm →
    (∀ a ∈ s.dev.entriesOf (va.toNat / pageBytes * pageBytes) 5 0 (s.dev.get (MMU_ROOT_ROOT ctx.val) * 1024), a + 8 ≤ home ∨ home + pageBytes ≤ a) →
    Leads (orBytes leaf 8 (orBytes home pageBytes (only [.reg MEM_DDR_USE_SPILL_GIB.addr, .mmu, .tally 1366]))) (.cleanWrite ctx va) s fun d =>
      (d.mmu.guests.find? fun g => decide (g.ctx = ctx.val)) =
        some { g with pages := g.pages.map fun q => if q.va = va.toNat / pageBytes * pageBytes then { q with home := some home } else q } ∧
      entBit (d.mem64 leaf 8) 7 = true ∧ d.bytes home pageBytes = s.dev.bytes h pageBytes) ∧
  (∀ (ctx : Fin 64) va s, s.dev.up = true → (s.dev.get MEM_DDR_CEIL_CLEAN_GBS = 0 ∨ s.dev.mode.role = .shore ∨ s.dev.mmu.reclaim ≠ .idle) →
    Leads (only []) (.cleanWrite ctx va) s fun d => d = s.dev) ∧
  (∀ (ctx : Fin 64) p s, s.dev.runs → (s.dev.mmu.programs.find? fun p => decide (p.ctx = ctx.val) && p.saved) = some p → ctx.val ≠ 3 →
    (s.dev.mmu.guests.any fun g => decide (g.ctx = ctx.val) && !g.held) = true → s.dev.mode.guestOn = true →
    (p.tiles.all fun n => decide (n ∈ s.dev.freeTiles)) = true → p.tiles.Nodup →
    (∀ n ∈ p.tiles, s.dev.imageOk n = true ∧ (s.dev.restored n oGUEST).idleQueues ∧ (s.dev.restored n oGUEST).state ∈ [tIDLE, tSTOPPED] ∧ (s.dev.restored n oGUEST).on TLE_CTRL_STOP = false) →
    Leads (fun q => areas [.regs, .mmu, .tallies] q || p.tiles.any fun n => orBytes (tileByte n 0) tileStoreSize (only [.tile n, .savedTile n]) q)
      (.guestResume ctx) s fun d =>
      d.mmu.programs = s.dev.mmu.programs.map (fun q => if q = p then { q with saved := false } else q) ∧
      ∀ n ∈ p.tiles, d.tile n = (if (s.dev.restored n oGUEST).get TLE_PROG_COUNT = 0 then s.dev.restored n oGUEST else (s.dev.restored n oGUEST).started) ∧ d.tctx n = ctx.val ∧
        d.bytes (tileByte n 0) tileStoreSize = s.dev.bytes (saveAreaBase + n * 0x2000000) tileStoreSize) ∧
  (∀ (ctx : Fin 64) p g s, s.dev.up = true → (s.dev.mmu.programs.find? fun p => decide (p.ctx = ctx.val) && p.saved) = some p → ctx.val ≠ 3 →
    (s.dev.mmu.guests.find? fun g => decide (g.ctx = ctx.val)) = some g → g.held = false → s.dev.mode.guestOn = true →
    (p.tiles.all fun n => decide (n ∈ s.dev.freeTiles)) = true → p.tiles.all s.dev.imageOk = false →
    Leads (butAreas [.savedTiles, .counters, .watches, .power, .mode, .xcn, .sec, .job, .course, .shore, .start, .hold, .rst, .clk, .podTime, .status]) (.guestResume ctx) s fun d =>
      d.mmu.guests = (s.dev.mmu.guests.filter fun g => decide (g.ctx ≠ ctx.val)) ∧ d.get WIT_LAST_CLASS = 2 ∧ d.get (MMU_ROOT_VALID ctx.val) = 0) ∧
  (∀ (ctx : Fin 64) s, s.dev.up = true → (s.dev.mmu.programs.any fun p => decide (p.ctx = ctx.val) && p.saved) = false →
    Leads (only []) (.guestResume ctx) s fun d => d = s.dev)

/-- A DMA channel is enabled, stopped, rung, checks a descriptor and moves its fragments. A channel is enabled (BUSY in QUARANTINE), asked to
stop and rung; its descriptor is taken, skipped where done, or stops it with its status written back; a fragment reaches its destination
with its progress; the last one completes with HEAD, counts and signal; a source block that fails its check stops it with FAULT.
(spec/09_memory.md: DMA engines and descriptors, Registers) -/
def Obligations.DmaChannelsMoveBlocks : Prop :=
  (∀ n v s, s.dev.up = true → (DMA_CTRL_EN n.val).of v = 1 → (DMA_CTRL_STOP n.val).of v = 0 →
    (s.dev.mode.role ≠ .quarantine ∨ s.dev.on (DMA_CTRL_EN n.val) = true) →
    Leads (only [.reg (DMA_CTRL_EN n.val).addr, .status]) (.dmaEnWrite n v) s fun d => d.status = stOK ∧
      d.on (DMA_CTRL_EN n.val) = true ∧ d.get (DMA_CTRL_CLASS n.val) = (DMA_CTRL_CLASS n.val).of v ∧
      d.get (DMA_CTRL_RSIZE n.val) = (DMA_CTRL_RSIZE n.val).of v ∧ (s.dev.on (DMA_CTRL_EN n.val) = false → d.get (DMA_CTRL_STOPPED n.val) = 0)) ∧
  (∀ n v s, s.dev.up = true → (DMA_CTRL_EN n.val).of v = 1 → s.dev.mode.role = .quarantine → s.dev.on (DMA_CTRL_EN n.val) = false →
    Leads (only [.status]) (.dmaEnWrite n v) s fun d => d.status = stBUSY) ∧
  (∀ n v s, s.dev.up = true → (DMA_CTRL_STOP n.val).of v = 1 → s.dev.on (DMA_CTRL_EN n.val) = true →
    Leads (only [.reg (DMA_CTRL_EN n.val).addr, .status]) (.dmaStop n v) s fun d => d.status = stOK ∧ d.on (DMA_CTRL_STOP n.val) = true) ∧
  (∀ n v s, s.dev.up = true →
    Leads (only [.reg (DMA_PTR_TAIL n.val).addr, .status]) (.dmaTailWrite n v) s fun d => d.status = stOK ∧
      d.get (DMA_PTR_TAIL n.val) = (DMA_PTR_TAIL n.val).of v ∧ d.get (DMA_PTR_HEAD n.val) = s.dev.get (DMA_PTR_HEAD n.val)) ∧
  (∀ n at_ s, s.dev.up = true → Store.Canonical chanReset s.dev.chans → s.dev.readyFor n at_ → (Desc.ofBytes (s.dev.bytes at_ 64)).doneBit = false →
    descCheck s.dev (.chan n) (Desc.ofBytes (s.dev.bytes at_ 64)) = none → (Desc.ofBytes (s.dev.bytes at_ 64)).total ≠ 0 →
    Leads (butAreas [.savedTiles, .power, .mode, .sec, .job, .hold, .rst, .clk, .podTime, .status]) (.dmaDescriptor (.chan n)) s fun d => d.chan n = { s.dev.chan n with entry := at_, cur := at_, started := true } ∧
      d.get (DMA_STAT_BUSY n) = 1 ∧ d.get (DMA_PTR_HEAD n) = s.dev.get (DMA_PTR_HEAD n) ∧ d.mem = s.dev.mem ∧ d.out = s.dev.out) ∧
  (∀ n at_ code s, s.dev.up = true → n < 64 → Store.Canonical chanReset s.dev.chans → s.dev.readyFor n at_ → s.dev.phys (at_ + 3) = .hbm →
    (Desc.ofBytes (s.dev.bytes at_ 64)).doneBit = false → descCheck s.dev (.chan n) (Desc.ofBytes (s.dev.bytes at_ 64)) = some code → code < 16 →
    Leads (butAreas [.savedTiles, .power, .mode, .sec, .job, .hold, .rst, .clk, .podTime, .status]) (.dmaDescriptor (.chan n)) s fun d => s.dev.stopped d n code ∧ d.bytes (at_ + 3) 1 = leBytes 1 code ∧
      d.get (DMA_PTR_HEAD n) = s.dev.get (DMA_PTR_HEAD n)) ∧
  (∀ n at_ s, s.dev.up = true → n < 64 → Store.Canonical chanReset s.dev.chans → s.dev.readyFor n at_ → (Desc.ofBytes (s.dev.bytes at_ 64)).doneBit = true →
    (Desc.ofBytes (s.dev.bytes at_ 64)).chain = false →
    Leads (butAreas [.savedTiles, .power, .mode, .sec, .job, .hold, .rst, .clk, .podTime, .status]) (.dmaDescriptor (.chan n)) s fun d => (d.chan n).started = false ∧ d.mem = s.dev.mem ∧
      d.get (DMA_PTR_HEAD n) = (s.dev.get (DMA_PTR_HEAD n) + 1) % s.dev.ringSize n) ∧
  (∀ n x pa s, s.dev.up = true → n < 64 → Store.Canonical chanReset s.dev.chans → s.dev.movesTo n x pa → (fragBytes s.dev x).2 = true →
    x.progress + x.fragment.2.2 < x.total →
    Leads (orBytes pa x.fragment.2.2 (orBytes ((s.dev.chan n).cur + 48) 8 (areas [.tallies]))) (.dmaFragmentDone (.chan n)) s fun d => d.bytes pa x.fragment.2.2 = (fragBytes s.dev x).1 ∧
      d.desc (.chan n) = { x with progress := x.progress + x.fragment.2.2 } ∧ d.chan n = s.dev.chan n ∧ d.out = s.dev.out) ∧
  (∀ n x pa s, s.dev.up = true → n < 64 → Store.Canonical chanReset s.dev.chans → s.dev.movesTo n x pa → (fragBytes s.dev x).2 = true →
    x.total ≤ x.progress + x.fragment.2.2 → x.chain = false → (s.dev.chan n).entry = (s.dev.chan n).cur → x.sigt = 0 →
    Leads (orBytes pa x.fragment.2.2 (orBytes (s.dev.chan n).cur 64 (orRegs (DMA_CTRL_EN n).addr 0x20 (areas [.tallies, .chans, .out])))) (.dmaFragmentDone (.chan n)) s fun d => d.bytes pa x.fragment.2.2 = (fragBytes s.dev x).1 ∧
      (d.desc (.chan n)).doneBit = true ∧ d.get (DMA_STAT_LAST n) = stOK ∧
      d.get (DMA_STAT_DONE n) = satAdd (DMA_STAT_DONE n).width (s.dev.get (DMA_STAT_DONE n)) 1 ∧ (d.chan n).started = false ∧
      d.get (DMA_PTR_HEAD n) = (s.dev.get (DMA_PTR_HEAD n) + 1) % s.dev.ringSize n ∧ d.out = s.dev.out ++ [⟨.cc, Kind.dmaDone, [n, stOK], []⟩]) ∧
  (∀ n x pa c s, s.dev.up = true → n < 64 → Store.Canonical chanReset s.dev.chans → s.dev.movesTo n x pa → (fragBytes s.dev x).2 = true →
    x.total ≤ x.progress + x.fragment.2.2 → x.chain = false → (s.dev.chan n).entry = (s.dev.chan n).cur → x.sigt = 3 →
    s.dev.winCounter 0 x.sigc = some c → 4096 ≤ c → (s.dev.watches.all fun e => decide (e.2.counter ≠ c)) = true →
    Leads (butAreas [.savedTiles, .power, .mode, .sec, .job, .hold, .rst, .clk, .podTime, .status]) (.dmaFragmentDone (.chan n)) s fun d => d.counter c = s.dev.counter c + 1 ∧ d.bytes pa x.fragment.2.2 = (fragBytes s.dev x).1 ∧
      (d.chan n).started = false) ∧
  (∀ n x pa s, s.dev.up = true → n < 64 → Store.Canonical chanReset s.dev.chans → s.dev.movesTo n x pa → (fragBytes s.dev x).2 = false →
    Leads (butAreas [.savedTiles, .power, .mode, .sec, .job, .hold, .rst, .clk, .podTime, .status]) (.dmaFragmentDone (.chan n)) s fun d => s.dev.stopped d n stFAULT ∧ d.get WIT_LAST_CLASS = 2)

/-- Packets of the fabric reach and leave the shored position in memory. A PROT fault is dropped, or copies its granule and frees the channel;
a fabric write within a page reaches memory, one with a wrong mark is asked for again and one of an old epoch counted; a signal increments
its counter; a read whose blocks agree with their checks answers its bytes, or FENCED, and one with a payload is dropped and counted; an
answer is passed on. (spec/04_shoring.md: Running shored, Repointing; spec/02_quoin_agent.md: Copy-on-write and the course buffer) -/
def Obligations.FabricOfTheShoredPosition : Prop :=
  (∀ f s, s.dev.runs → (s.dev.mmu.faults.find? fun g => decide (g.cause = fPROT) && decide (g.req = f.req)) = some f →
    s.dev.protGranule f.va = none → (∀ n, n < 64 → f.req = .chan n → Store.Canonical chanReset s.dev.chans) →
    Leads (areas [.regs, .memory, .checks, .tiles, .agents, .chans, .ports, .streams, .peers, .hosts, .tallies, .slots, .mmu, .obs, .course, .out]) (.protFault f.req) s fun d => d.mmu.faults = s.dev.mmu.faults.erase f ∧ d.agents = s.dev.agents ∧ d.out = s.dev.out) ∧
  (∀ f n g page lo k x s, s.dev.runs → Store.Canonical agentReset s.dev.agents → Store.Canonical chanReset s.dev.chans →
    (s.dev.mmu.faults.find? fun g => decide (g.cause = fPROT) && decide (g.req = f.req)) = some f → f.req = .chan n →
    s.dev.protGranule f.va = some g → s.dev.copyRoom = some page → (s.dev.agent localAgent).granAt g = some (lo, k) → s.dev.jobPhys f.va = some x →
    s.dev.jobPhys lo = some x → s.dev.runOk x (k * 4096) = true →
    Leads (areas [.regs, .memory, .checks, .tiles, .agents, .chans, .ports, .streams, .peers, .hosts, .tallies, .slots, .mmu, .obs, .course, .out]) (.protFault f.req) s fun d => d.mmu.faults = s.dev.mmu.faults.erase f ∧ d.chan n = { s.dev.chan n with held := false } ∧
      Store.get granDflt (d.agent localAgent).grans g = .copied (page / pageBytes) ∧ (d.agent localAgent).stallFrom = none) ∧
  (∀ p m mark pa leaf s, s.dev.runs → s.dev.takesFabric p m → s.dev.sync.win = .open → s.dev.openEntry .fabric m.tag.toNat = none →
    s.dev.transferRoom .fabric m.tag.toNat = true → m.last = false → (mark = true → s.dev.fabMarkOk m = true) →
    m.data.length ≤ 4096 + 32 * mark.toNat → m.arg.toNat % pageBytes + m.data.length ≤ pageBytes →
    s.dev.translate 1 m.arg.toNat true false = .ok pa leaf → s.dev.phys pa = .hbm →
    Leads (orBytes pa (if mark then m.data.drop 32 else m.data).length (orBytes leaf 8 (areas [.regs, .sync]))) (.fabWrite p m mark) s fun d =>
      d.bytes pa (if mark then m.data.drop 32 else m.data).length = (if mark then m.data.drop 32 else m.data) ∧
      d.sync.transfers = s.dev.sync.transfers ++ [⟨.fabric, m.tag.toNat, 1, 0, 0, 0, false, s.dev.podTime, s.dev.clk⟩] ∧ d.out = s.dev.out) ∧
  (∀ p m s, s.dev.runs → s.dev.takesFabric p m → s.dev.sync.win = .open → s.dev.transferRoom .fabric m.tag.toNat = true → m.data.length ≤ 4128 →
    s.dev.fabMarkOk m = false →
    (s.dev.shore.repointsMade.all fun e => decide (e.1 ≠ (m.tag.toNat / 65536, (s.dev.agent localAgent).step, numAt m.data 17 3))) = true →
    Leads (only [.shore, .out]) (.fabWrite p m true) s fun d =>
      d.out = s.dev.out ++ [⟨.fabric, Kind.repoint, [m.tag.toNat / 65536, (s.dev.agent localAgent).step, numAt m.data 17 3, 1], []⟩] ∧
      d.shore = { s.dev.shore with repointsMade := s.dev.shore.repointsMade ++ [((m.tag.toNat / 65536, (s.dev.agent localAgent).step, numAt m.data 17 3), 1)] }) ∧
  (∀ p m mark s, s.dev.runs → s.dev.hubFenced = false → s.dev.shoredLive = true → 8 ≤ p.val → p.val < 20 → m.epoch.toNat ≠ s.dev.epoch →
    Leads (only [.reg SYN_COUNT_STALE.addr]) (.fabWrite p m mark) s fun d => d.get SYN_COUNT_STALE = satAdd 32 (s.dev.get SYN_COUNT_STALE) 1) ∧
  (∀ p m c s, s.dev.runs → s.dev.takesFabric p m → s.dev.sync.win = .open → s.dev.openEntry .fabric m.tag.toNat = none →
    s.dev.transferRoom .fabric m.tag.toNat = true → m.data = [] → m.last = true → m.sig = true → m.pkts = 1 → s.dev.winCounter 1 m.sigIdx.toNat = some c →
    (s.dev.watches.all fun e => decide (e.2.counter ≠ c)) = true →
    Leads (areas [.regs, .counters, .watches, .ports, .streams, .peers, .hosts, .tallies, .sync, .obs, .course, .shore, .start, .out]) (.fabSignal p m) s fun d => d.counter c = s.dev.counter c + BitVec.ofNat 64 m.sigInc.toNat ∧ d.out = s.dev.out ∧
      d.sync.transfers = s.dev.sync.transfers.filter fun x => !(decide (x.origin = .fabric) && decide (x.tag = m.tag.toNat))) ∧
  (∀ p m pa leaf s, s.dev.runs → s.dev.takesFabric p m → s.dev.sync.win = .open → m.data = [] → 0 < m.arg.toNat / 2 ^ 52 → m.arg.toNat / 2 ^ 52 ≤ 64 →
    m.arg.toNat % 2 ^ 52 % pageBytes + 64 * (m.arg.toNat / 2 ^ 52) ≤ pageBytes → s.dev.translate 1 (m.arg.toNat % 2 ^ 52) false false = .ok pa leaf →
    s.dev.runOk pa (64 * (m.arg.toNat / 2 ^ 52)) = true →
    Leads (orBytes leaf 8 (areas [.streams, .ports, .tallies, .out])) (.fabRead p m) s fun d => s.dev.tells d [⟨.fabric, Kind.fabric,
      [0x53, stOK, s.dev.epoch, m.tag.toNat / 65536, s.dev.shoredPos % 65536 * 65536 + m.tag.toNat % 65536, m.seq.toNat, 0],
      s.dev.physBytes pa (64 * (m.arg.toNat / 2 ^ 52))⟩]) ∧
  (∀ p m s, s.dev.runs → (s.dev.takesFabric p m ∧ m.data = [] ∧ s.dev.sync.win ≠ .open ∨ s.dev.hubFenced = true ∧ 8 ≤ p.val ∧ p.val < 20) →
    Leads (areas [.ports, .streams, .tallies, .out]) (.fabRead p m) s fun d => s.dev.tells d [⟨.fabric, Kind.fabric,
      [0x53, stFENCED, s.dev.epoch, m.tag.toNat / 65536, s.dev.shoredPos % 65536 * 65536 + m.tag.toNat % 65536, m.seq.toNat, 0], []⟩]) ∧
  (∀ p m s, s.dev.runs → s.dev.takesFabric p m → m.data ≠ [] →
    Leads (only [.reg (LNK_ERR_DROPS p.val).addr]) (.fabRead p m) s fun d =>
      d.get (LNK_ERR_DROPS p.val) = satAdd (LNK_ERR_DROPS p.val).width (s.dev.get (LNK_ERR_DROPS p.val)) 1) ∧
  (∀ p m s, s.dev.runs → s.dev.takesFabric p m → m.data.length ≤ 4096 →
    Leads (areas [.regs, .obs, .out]) (.fabResp p m) s fun d => d.out = s.dev.out ++ [⟨.cc, Kind.fabResp, [m.arg.toNat, m.status.toNat], m.data⟩])

/-- Counters are added to, compared, watched and windowed. SYN_ADD adds, fires the watch it satisfies, or changes nothing; SYN_SET sets or is
BUSY; windows are set and zeroed, or are LENGTH, BUSY or ignored below context 3; barriers are set or LENGTH; SYN_WARM arms a watch or is
FAULT; a watch's deadline reports its timeout. (spec/10_sync.md: Comparison, Windows of the sync unit, Fencing a window, Waits and
watches, Barriers) -/
def Obligations.CountersAndWatches : Prop :=
  (∀ v s, s.dev.up = true → v ≠ 0 → (s.dev.get SYN_SEL_INDEX < 4096 → s.dev.sync.win ≠ .final) → s.dev.unwatched (s.dev.get SYN_SEL_INDEX) = true →
    Leads (only [.counter (s.dev.get SYN_SEL_INDEX), .tally 1440, .status]) (.synAdd v) s fun d => d.status = stOK ∧
      d.counter (s.dev.get SYN_SEL_INDEX) = s.dev.counter (s.dev.get SYN_SEL_INDEX) + v) ∧
  (∀ v k w s, s.dev.up = true → v ≠ 0 → (s.dev.get SYN_SEL_INDEX < 4096 → s.dev.sync.win ≠ .final) → s.dev.watches = [(k, w)] →
    w.counter = s.dev.get SYN_SEL_INDEX → w.target = .cc → satisfied (s.dev.counter (s.dev.get SYN_SEL_INDEX) + v) w.value = true →
    Leads (areas [.regs, .counters, .watches, .ports, .streams, .peers, .hosts, .tallies, .course, .shore, .status, .out]) (.synAdd v) s fun d => d.counter (s.dev.get SYN_SEL_INDEX) = s.dev.counter (s.dev.get SYN_SEL_INDEX) + v ∧ d.watches = [] ∧
      d.get SYN_STAT_WATCHES = 0 ∧
      d.out = s.dev.out ++ [⟨.cc, Kind.watchResult, [k, 0, (s.dev.counter (s.dev.get SYN_SEL_INDEX) + v).toNat], []⟩]) ∧
  (∀ v s, s.dev.up = true → (v = 0 ∨ (s.dev.get SYN_SEL_INDEX < 4096 ∧ s.dev.sync.win = .final)) →
    Leads (only [.status]) (.synAdd v) s fun d => d.status = stOK) ∧
  (∀ v s, s.dev.up = true → s.dev.settable (s.dev.get SYN_SEL_INDEX) = true → s.dev.unwatched (s.dev.get SYN_SEL_INDEX) = true →
    Leads (only [.counter (s.dev.get SYN_SEL_INDEX), .status]) (.synSet v) s fun d => d.status = stOK ∧ d.counter (s.dev.get SYN_SEL_INDEX) = v) ∧
  (∀ v s, s.dev.up = true → s.dev.settable (s.dev.get SYN_SEL_INDEX) = false → Leads (only [.status]) (.synSet v) s fun d => d.status = stBUSY) ∧
  (∀ n v s, s.dev.up = true → 3 ≤ n.toNat → s.dev.get (MMU_ROOT_VALID n.toNat) = 0 →
    s.dev.windowFits n.toNat ((SYN_WIN_BASE n.toNat).of v) ((SYN_WIN_SIZE n.toNat).of v) = true →
    Leads (areas [.regs, .counters, .status]) (.synWinWrite n v) s fun d => d.status = stOK ∧ d.get (SYN_WIN_BASE n.toNat) = (SYN_WIN_BASE n.toNat).of v ∧
      d.get (SYN_WIN_SIZE n.toNat) = (SYN_WIN_SIZE n.toNat).of v ∧
      ∀ i < (SYN_WIN_SIZE n.toNat).of v, d.counter ((SYN_WIN_BASE n.toNat).of v + i) = 0) ∧
  (∀ n v s, s.dev.up = true → 3 ≤ n.toNat → s.dev.get (MMU_ROOT_VALID n.toNat) = 0 →
    s.dev.windowFits n.toNat ((SYN_WIN_BASE n.toNat).of v) ((SYN_WIN_SIZE n.toNat).of v) = false →
    Leads (only [.status]) (.synWinWrite n v) s fun d => d.status = stLENGTH) ∧
  (∀ n v s, s.dev.up = true → 3 ≤ n.toNat → s.dev.get (MMU_ROOT_VALID n.toNat) = 1 →
    Leads (only [.status]) (.synWinWrite n v) s fun d => d.status = stBUSY) ∧
  (∀ n v s, s.dev.up = true → n.toNat < 3 → Leads (only [.status]) (.synWinWrite n v) s fun d => d.status = stOK) ∧
  (∀ m v s, s.dev.up = true → ((SYN_BAR_A_VALID m.toNat).of v = 0 ∨ (SYN_BAR_A_N m.toNat).of v ≠ 0) →
    Leads (only [.reg (SYN_BAR_A_VALID m.toNat).addr, .status]) (.synBarWrite m v) s fun d => d.status = stOK ∧
      d.get (SYN_BAR_A_VALID m.toNat) = (SYN_BAR_A_VALID m.toNat).of v ∧ d.get (SYN_BAR_A_N m.toNat) = (SYN_BAR_A_N m.toNat).of v ∧
      d.get (SYN_BAR_A_COUNTER m.toNat) = (SYN_BAR_A_COUNTER m.toNat).of v) ∧
  (∀ m v s, s.dev.up = true → (SYN_BAR_A_VALID m.toNat).of v = 1 → (SYN_BAR_A_N m.toNat).of v = 0 →
    Leads (only [.status]) (.synBarWrite m v) s fun d => d.status = stLENGTH) ∧
  (∀ v k s, s.dev.up = true → SYN_WARM_GO.of v = 1 → s.dev.get (SYN_WIN_BASE 0) ≤ SYN_WARM_COUNTER.of v →
    SYN_WARM_COUNTER.of v < s.dev.get (SYN_WIN_BASE 0) + s.dev.get (SYN_WIN_SIZE 0) → s.dev.freeWatch = some k →
    s.dev.unwatched (SYN_WARM_COUNTER.of v) = true → satisfied (s.dev.counter (SYN_WARM_COUNTER.of v)) (s.dev.word SYN_WV_V.addr) = false →
    Leads (areas [.regs, .watches, .ports, .streams, .peers, .hosts, .tallies, .status, .out]) (.synWarmGo v) s fun d => d.status = stOK ∧ d.get SYN_WRES_STATUS = stOK ∧ d.get SYN_WRES_WATCH = k ∧ d.out = s.dev.out ∧
      Store.find? d.watches k = some ⟨SYN_WARM_COUNTER.of v, s.dev.word SYN_WV_V.addr, s.dev.get SYN_WDL_DEADLINE, .cc⟩) ∧
  (∀ v s, s.dev.up = true → SYN_WARM_GO.of v = 1 →
    (SYN_WARM_COUNTER.of v < s.dev.get (SYN_WIN_BASE 0) ∨ s.dev.get (SYN_WIN_BASE 0) + s.dev.get (SYN_WIN_SIZE 0) ≤ SYN_WARM_COUNTER.of v) →
    Leads (only [.reg SYN_WRES_STATUS.addr, .status]) (.synWarmGo v) s fun d => d.status = stFAULT ∧ d.get SYN_WRES_STATUS = stFAULT) ∧
  (∀ n w s, s.dev.runs → Store.find? s.dev.watches n.toNat = some w → w.deadline ≠ 0 → w.deadline ≤ s.dev.podTime → w.target = .cc →
    Leads (areas [.regs, .counters, .watches, .ports, .streams, .peers, .hosts, .tallies, .obs, .course, .shore, .out]) (.watchTimeout n) s fun d => d.watches = Store.remove s.dev.watches n.toNat ∧ d.on SYN_EVT_WATCH_TIMEOUT = true ∧
      (⟨.cc, Kind.watchResult, [n.toNat, 1, (s.dev.counter w.counter).toNat], []⟩ : Msg) ∈ d.out.drop s.dev.out.length)

/-- Transfers that time out are lost; a drained window and a requested dump are written. Transfers idle for their time by the clock go and are
counted; the end of a window's drain makes it final with its dump, and with nothing shored zeroes its counters; SYN_DUMP writes its
header, with the entries against its counters, and every counter of the window. (spec/10_sync.md: Signals and their data, Dumps) -/
def Obligations.TransfersAndDumps : Prop :=
  (∀ s, s.dev.runs → (s.dev.sync.transfers.any fun e => decide (e.tick + 700 * orElse (s.dev.get SYN_TIMEOUT_XFER_US) 1000 ≤ s.dev.clk)) = true →
    Leads (areas [.regs, .hosts, .tallies, .sync, .obs, .out]) .xferTimeout s fun d => d.on SYN_EVT_XFER_LOST = true ∧ d.counters = s.dev.counters ∧
      d.sync = { s.dev.sync with transfers := s.dev.sync.transfers.filter (fun e => decide (s.dev.clk < e.tick + 700 * orElse (s.dev.get SYN_TIMEOUT_XFER_US) 1000)) } ∧
      d.get SYN_COUNT_LOST = satAdd SYN_COUNT_LOST.width (s.dev.get SYN_COUNT_LOST)
        (s.dev.sync.transfers.filter fun e => decide (e.tick + 700 * orElse (s.dev.get SYN_TIMEOUT_XFER_US) 1000 ≤ s.dev.clk)).length) ∧
  (∀ n s, s.dev.runs → s.dev.sync.win = .draining → s.dev.shore.slot = some n → s.dev.phase ≠ phLOADING →
    Leads (areas [.regs, .memory, .checks, .hosts, .tallies, .sync, .obs, .out]) .windowDrainEnd s fun d => d.sync.win = .final ∧ d.sync.transfers = s.dev.sync.transfers.filter (fun e => !e.onJob) ∧
      d.counters = s.dev.counters ∧ d.get SYN_DUMP_SEQ = (s.dev.get SYN_DUMP_SEQ + 1) % 2 ^ 32 ∧ d.on SYN_EVT_DUMP_DONE = true ∧
      d.sync.dumpSlot = 1 - s.dev.sync.dumpSlot) ∧
  (∀ s, s.dev.runs → s.dev.sync.win = .draining → s.dev.shore.slot = none → Store.Canonical counterReset s.dev.counters →
    Leads (areas [.regs, .memory, .checks, .counters, .hosts, .tallies, .sync, .obs, .out]) .windowDrainEnd s fun d => d.sync.win = .final ∧
      (∀ i < 4096, d.counter i = 0) ∧ ∀ i, 4096 ≤ i → d.counter i = s.dev.counter i) ∧
  (∀ v s, s.dev.up = true → SYN_DUMP_GO.of v = 1 → SYN_DUMP_WHOLE.of v = 0 →
    s.dev.pmBase + s.dev.sync.dumpSlot * 0x200000 + 0x106000 ≤ hbmCheckBase → s.dev.get (SYN_WIN_SIZE (SYN_DUMP_CTX.of v)) ≤ 65536 →
    Leads (areas [.regs, .memory, .checks, .hosts, .tallies, .sync, .status, .out]) (.synDumpGo v) s fun d => d.status = stOK ∧ d.get SYN_DUMP_SEQ = (s.dev.get SYN_DUMP_SEQ + 1) % 2 ^ 32 ∧ d.get SYN_DUMP_GO = 0 ∧
      d.on SYN_EVT_DUMP_DONE = true ∧ d.sync = { s.dev.sync with dumpSlot := 1 - s.dev.sync.dumpSlot } ∧
      d.bytes (s.dev.pmBase + s.dev.sync.dumpSlot * 0x200000) 48 = ascii "AZSYNDMP" ++ pack [(2, 1), (2, dumpREQUESTED),
        (4, (s.dev.get SYN_DUMP_SEQ + 1) % 2 ^ 32), (4, s.dev.epoch), (4, s.dev.ownAddr), (8, s.dev.podTime),
        (4, s.dev.get (SYN_WIN_BASE (SYN_DUMP_CTX.of v))), (4, s.dev.get (SYN_WIN_SIZE (SYN_DUMP_CTX.of v))), (4, min 4096 (s.dev.sync.transfers.filter (·.against
          (s.dev.get (SYN_WIN_BASE (SYN_DUMP_CTX.of v))) (s.dev.get (SYN_WIN_SIZE (SYN_DUMP_CTX.of v))))).length), (4, 0)] ∧
      ∀ i < s.dev.get (SYN_WIN_SIZE (SYN_DUMP_CTX.of v)), d.bytes (s.dev.pmBase + s.dev.sync.dumpSlot * 0x200000 + 0x1000 + 8 * i) 8 =
        leBytes 8 (s.dev.counter (s.dev.get (SYN_WIN_BASE (SYN_DUMP_CTX.of v)) + i)).toNat)

/-- A tile starts, stops, waits, completes and faults. TLE_CTRL starts an idle tile at ENTRY and a stopped one where it stood, HALTED in a
global halt, and not without a program; in QUARANTINE it is BUSY; STOP is noted, at both tiles of a pair, and the two of a pair execute
together; clearing ERR makes a faulted tile STOPPED; a gang change waits for open passes; a wait is satisfied or faults at its limit; a
pass completes; COPY, PUT and GET move their bytes. That GET leaves memory alone is stated for context 0. (spec/08_lathe_isa.md:
Programming model, Exceptions, Running, stopping and resuming; spec/06_lathe_tiles.md: Throttling, halt, pre-emption and replay) -/
def Obligations.TilesStartStopAndWait : Prop :=
  (∀ t v s, s.dev.up = true → TLE_CTRL_EN.of v = 1 → (s.dev.tile t.val).state = tIDLE → (s.dev.tile t.val).get TLE_PROG_COUNT ≠ 0 →
    (s.dev.tile t.val).idleQueues → s.dev.on TAL_HALT_HALTED = false → (s.dev.tile t.val).on TLE_CTRL_STOP = false → s.dev.mode.role ≠ .quarantine →
    Leads (only [.tile t.val, .status]) (.tileEnWrite t v) s fun d => d.status = stOK ∧ (d.tile t.val).state = tRUNNING ∧
      (d.tile t.val).on TLE_CTRL_EN = true ∧ (d.tile t.val).get TLE_PC_PC = (s.dev.tile t.val).get TLE_ENTRY_ENTRY ∧
      (d.tile t.val).get TLE_CTRL_RELAXED = TLE_CTRL_RELAXED.of v) ∧
  (∀ t v s, s.dev.up = true → TLE_CTRL_EN.of v = 1 → (s.dev.tile t.val).state = tSTOPPED → (s.dev.tile t.val).get TLE_PROG_COUNT ≠ 0 →
    (s.dev.tile t.val).idleQueues → s.dev.on TAL_HALT_HALTED = false → (s.dev.tile t.val).on TLE_CTRL_STOP = false → s.dev.mode.role ≠ .quarantine →
    Leads (only [.tile t.val, .status]) (.tileEnWrite t v) s fun d => d.status = stOK ∧ (d.tile t.val).state = tRUNNING ∧
      (d.tile t.val).on TLE_CTRL_EN = true ∧ (d.tile t.val).get TLE_PC_PC = (s.dev.tile t.val).get TLE_PC_PC) ∧
  (∀ t v s, s.dev.up = true → TLE_CTRL_EN.of v = 1 → (s.dev.tile t.val).state ∈ [tIDLE, tSTOPPED] → (s.dev.tile t.val).get TLE_PROG_COUNT ≠ 0 →
    s.dev.on TAL_HALT_HALTED = true → s.dev.mode.role ≠ .quarantine → (s.dev.tile t.val).on TLE_STAT_PAIRED = false →
    Leads (only [.tile t.val, .status]) (.tileEnWrite t v) s fun d => d.status = stOK ∧ (d.tile t.val).state = tHALTED) ∧
  (∀ t v s, s.dev.up = true → TLE_CTRL_EN.of v = 1 → (s.dev.tile t.val).state ∈ [tIDLE, tSTOPPED] → (s.dev.tile t.val).get TLE_PROG_COUNT = 0 → s.dev.mode.role ≠ .quarantine →
    Leads (only [.tile t.val, .status]) (.tileEnWrite t v) s fun d => d.status = stOK ∧ (d.tile t.val).state = (s.dev.tile t.val).state) ∧
  (∀ t v s, s.dev.up = true → TLE_CTRL_EN.of v = 1 → (s.dev.tile t.val).state ∈ [tIDLE, tSTOPPED] → s.dev.mode.role = .quarantine →
    Leads (only [.tile t.val, .status]) (.tileEnWrite t v) s fun d => d.status = stBUSY ∧ (d.tile t.val).state = (s.dev.tile t.val).state) ∧
  (∀ t v s, s.dev.up = true → TLE_CTRL_STOP.of v = 1 → (s.dev.tile t.val).state = tRUNNING → (s.dev.tile t.val).on TLE_STAT_PAIRED = true →
    Leads (only [.tile (t.val / 2 * 2), .tile (t.val / 2 * 2 + 1), .status]) (.tileStop t v) s fun d => d.status = stOK ∧
      (d.tile (t.val / 2 * 2)).on TLE_CTRL_STOP = true ∧ (d.tile (t.val / 2 * 2 + 1)).on TLE_CTRL_STOP = true) ∧
  (∀ t w0 w1 s, s.dev.up = true → (s.dev.tile t.val).on TLE_STAT_PAIRED = true → s.dev.takesNext (t.val / 2 * 2) .ctAdd w0 w1 →
    s.dev.takesNext (t.val / 2 * 2 + 1) .ctAdd w0 w1 →
    Leads (only [.tile (t.val / 2 * 2), .tile (t.val / 2 * 2 + 1)]) (.ctAdd t w0 w1) s fun d => ∀ n ∈ [t.val / 2 * 2, t.val / 2 * 2 + 1],
      d.tile n = ((s.dev.tile n).setS (ctRD w0) ((s.dev.tile n).sReg (ctRA w0) + (s.dev.tile n).srcB w0 w1)).toNext
        ((s.dev.tile n).get TLE_PC_PC + insLen w0)) ∧
  (∀ t v s, s.dev.up = true → TLE_CTRL_STOP.of v = 1 → (s.dev.tile t.val).state ∈ [tRUNNING, tHALTED] → (s.dev.tile t.val).on TLE_STAT_PAIRED = false →
    Leads (only [.tile t.val, .status]) (.tileStop t v) s fun d => d.status = stOK ∧
      d.tile t.val = ((s.dev.tile t.val).set TLE_CTRL_RELAXED (TLE_CTRL_RELAXED.of v)).set TLE_CTRL_STOP 1) ∧
  (∀ t v s, s.dev.up = true → TLE_ERR_VALID.of v = 1 → (s.dev.tile t.val).state = tFAULTED →
    Leads (only [.tile t.val, .status]) (.tleErrValidClear t v) s fun d => d.status = stOK ∧
      d.tile t.val = (((s.dev.tile t.val).set TLE_ERR_VALID 0).set TLE_STAT_STATE tSTOPPED).set TLE_CTRL_STOP 0) ∧
  (∀ t g gs s, s.dev.up = true → (s.dev.tile t.val).gangs = g :: gs → (s.dev.tile t.val).idleQueues → (s.dev.tile t.val).state ≠ tHALTED →
    Leads (only [.tile t.val]) (.gangChangeApply t) s fun d =>
      d.tile t.val = { (s.dev.tile t.val).set TLE_MXCFG_ACTIVE g with gangs := gs }) ∧
  (∀ t s, s.dev.up = true → (s.dev.tile t.val).passes ≠ [] → Leads (only []) (.gangChangeApply t) s fun d => d = s.dev) ∧
  (∀ t e s, s.dev.up = true → (s.dev.tile t.val).issuing = true → (s.dev.tile t.val).get TLE_WAITLIM_LIMIT_US ≠ 0 →
    (s.dev.tile t.val).heldWait none = some e → (s.dev.tile t.val).passes = [] → (s.dev.tile t.val).moves = [] → (s.dev.tile t.val).descs = [] →
    (s.dev.tile t.val).owner ∉ [oJOB, oWITNESS] → s.dev.programOf t.val = none → (s.dev.tile t.val).on TLE_ERR_VALID = false → e.off < 2 ^ 32 →
    (s.dev.tile t.val).on TLE_STAT_PAIRED = false →
    Leads (only [.tile t.val]) (.waitLimitExpire t none) s fun d => (d.tile t.val).state = tFAULTED ∧ (d.tile t.val).on TLE_CTRL_EN = false ∧
      (d.tile t.val).get TLE_ERR_CAUSE = cWAIT ∧ (d.tile t.val).get TLE_ERR_IOFF = e.off ∧ (d.tile t.val).on TLE_ERR_VALID = true ∧
      (d.tile t.val).front = none) ∧
  (∀ t e s, s.dev.up = true → (s.dev.tile t.val).runsEmpty → (s.dev.tile t.val).front = some e → e.mark = true → e.op = .wait → bitsAt e.w0 9 1 = 1 →
    satisfied ((s.dev.tile t.val).counter (bitsAt e.w0 10 6)) (if bitsAt e.w0 21 1 = 1 then (s.dev.tile t.val).sReg (bitsAt e.w0 16 5)
      else if bitsAt e.w0 8 1 = 1 then e.w1 else BitVec.ofNat 64 (bitsAt e.w0 22 32)) = true →
    Leads (only [.tile t.val]) (.waitSatisfied t none) s fun d => d.tile t.val = (s.dev.tile t.val).toNext (e.off + e.bytes)) ∧
  (∀ t g e s, s.dev.up = true → (s.dev.tile t.val).runsEmpty → (s.dev.tile t.val).front = none → (s.dev.tile t.val).relaxed = false →
    ((s.dev.tile t.val).passes.find? fun p => decide (mxGang p.w0 = g.val)) = some e → e.sample = none →
    Leads (only [.tile t.val]) (.passComplete t g) s fun d =>
      d.tile t.val = { ((passResult s.dev (tileByte t.val 0) (s.dev.tile t.val) e false fun _ => 0).bump TLE_PASSES_PASSES).bump TLE_MXBUSY_CYCLES (passCycles e) with passes := (s.dev.tile t.val).passes.erase e }) ∧
  (∀ t e s, s.dev.up = true → (s.dev.tile t.val).runsEmpty → (s.dev.tile t.val).front = none → (s.dev.tile t.val).moves = [⟨e, false⟩] →
    (s.dev.tile t.val).on TLE_STAT_PAIRED = false → e.op = .copy → e.prog = 0 → mvSigt e.w0 = 1 → s.dev.mmu.faults = [] →
    Leads (orBytes (tileByte t.val (mvTileSide e)) (mvLen e.w0) (only [.tile t.val])) (.mvTransferComplete t 0) s fun d =>
      d.bytes (tileByte t.val (mvTileSide e)) (mvLen e.w0) = s.dev.bytes (tileByte t.val (mvOtherStore e)) (mvLen e.w0) ∧
      d.tile t.val = { (s.dev.tile t.val).addCounter (mvSigc e.w0) 1 with moves := [] }) ∧
  (∀ t e pa leaf s, s.dev.up = true → (s.dev.tile t.val).runsEmpty → (s.dev.tile t.val).front = none → (s.dev.tile t.val).moves = [⟨e, false⟩] →
    (s.dev.tile t.val).on TLE_STAT_PAIRED = false → e.op = .put → e.prog = 0 → mvSigt e.w0 = 0 → s.dev.mmu.faults = [] → 0 < mvLen e.w0 →
    mvMemory e % 4096 + mvLen e.w0 ≤ 4096 → s.dev.translate (s.dev.tctx t.val) (mvMemory e) true true = .ok pa leaf → s.dev.phys pa = .hbm →
    Leads (orBytes pa (mvLen e.w0) (orBytes leaf 8 (areas [.tiles, .tallies]))) (.mvTransferComplete t 0) s fun d =>
      d.bytes pa (mvLen e.w0) = s.dev.bytes (tileByte t.val (mvTileSide e)) (mvLen e.w0) ∧ (d.tile t.val).moves = []) ∧
  (∀ t e pa leaf s, s.dev.up = true → (s.dev.tile t.val).runsEmpty → (s.dev.tile t.val).front = none → (s.dev.tile t.val).moves = [⟨e, false⟩] →
    (s.dev.tile t.val).on TLE_STAT_PAIRED = false → e.op = .get → e.prog = 0 → mvSigt e.w0 = 0 → s.dev.mmu.faults = [] → 0 < mvLen e.w0 →
    mvMemory e % 4096 + mvLen e.w0 ≤ 4096 → s.dev.translate (s.dev.tctx t.val) (mvMemory e) false true = .ok pa leaf → s.dev.blockOk pa = true → leaf = 0 →
    Leads (orBytes (tileByte t.val (mvTileSide e)) (mvLen e.w0) (areas [.tiles, .tallies])) (.mvTransferComplete t 0) s fun d =>
      d.bytes (tileByte t.val (mvTileSide e)) (mvLen e.w0) = s.dev.physBytes pa (mvLen e.w0) ∧ (d.tile t.val).moves = [])

/-- The CT class computes on S, A and P registers. Each writes its stated result to its S, A or P register and moves the pc past its words; no
other part of the block changes. (spec/08_lathe_isa.md: CT class) -/
def Obligations.CtArithmeticAndAddresses : Prop :=
  CtAlu .ctAdd .ctAdd (fun a b => a + b) ∧ CtAlu .ctSub .ctSub (fun a b => a - b) ∧ CtAlu .ctMul .ctMul (fun a b => a * b) ∧
  CtAlu .ctAnd .ctAnd (fun a b => a &&& b) ∧ CtAlu .ctOr .ctOr (fun a b => a ||| b) ∧ CtAlu .ctXor .ctXor (fun a b => a ^^^ b) ∧
  CtAlu .ctShl .ctShl (fun a b => a <<< (b.toNat % 64)) ∧ CtAlu .ctShr .ctShr (fun a b => a >>> (b.toNat % 64)) ∧
  CtAlu .ctSar .ctSar (fun a b => a.sshiftRight (b.toNat % 64)) ∧
  CtAlu .ctSlt .ctSlt (fun a b => if a.toInt < b.toInt then 1 else 0) ∧ CtAlu .ctSltu .ctSltu (fun a b => if a.toNat < b.toNat then 1 else 0) ∧
  CtAlu .ctMin .ctMin (fun a b => if a.toInt < b.toInt then a else b) ∧ CtAlu .ctMax .ctMax (fun a b => if a.toInt < b.toInt then b else a) ∧
  CtAlu .ctMov .ctMov (fun _ b => b) ∧
  CtSets .addrFromS .addrFromS (fun d n w0 _ => (d.tile n).setA (ctRD w0) ((d.tile n).sReg (ctRA w0))) ∧
  CtSets .addrToS .addrToS (fun d n w0 _ => (d.tile n).setS (ctRD w0) ((d.tile n).aReg (ctRA w0))) ∧
  CtAddr .addrAdd .addrAdd (fun a b => a + b) ∧
  CtAddr .addrBaseAdd .addrBaseAdd (fun a b => BitVec.ofNat 64 (a.toNat - a.toNat % 2 ^ 25 + (a.toNat + b.toNat) % 2 ^ 25)) ∧
  CtAddr .addrStrideSet .addrStrideSet (fun a b => (a &&& 0xFFFF0000FFFFFFFF) ||| ((b &&& 0xFFFF) <<< 32)) ∧
  CtSets .pset .pset (fun d n w0 _ => (d.tile n).setP (ctRD w0) ((d.tile n).sReg (ctRA w0))) ∧
  CtSets .pget .pget (fun d n w0 _ => (d.tile n).setS (ctRD w0) ((d.tile n).pReg (ctRA w0))) ∧
  CtPred .pand .pand (fun a b => a &&& b) ∧ CtPred .por .por (fun a b => a ||| b) ∧ CtPred .pxor .pxor (fun a b => a ^^^ b) ∧
  CtPred .pnot .pnot (fun a _ => ~~~a) ∧
  CtSets .ctNop .nop (fun d n _ _ => d.tile n) ∧
  CtSets .cget .cget (fun d n w0 _ => (d.tile n).setS (ctRD w0) ((d.tile n).counter ((ctImm w0).toNat % 64))) ∧
  CtSets .ctTime .ctTime (fun d n w0 _ => (d.tile n).setS (ctRD w0) (BitVec.ofNat 64 d.podTime)) ∧
  CtSets .ctRank .rank (fun d n w0 _ =>
    (d.tile n).setS (ctRD w0) (BitVec.ofNat 64 ((d.tile n).get TLE_PROG_RANK + 256 * (d.tile n).get TLE_PROG_COUNT))) ∧
  CtSets .ctFlags .flags (fun d n w0 _ => ((d.tile n).setS (ctRD w0) (d.tile n).vxFlags).clearFlags)

/-- The CT class branches, loads and stores the tile store, steps, ends and breaks. Branches reach their target where their condition holds,
pass on where it does not, and fault with RANGE where the target is not legal; LOOP counts; LD, ST, PHXLD and PHXST reach the store; GANG,
END, BRK and STEP act (GANG notes its change), STEP starts the step's numbering afresh and waits for open passes. (spec/08_lathe_isa.md:
CT class, Step boundaries, Exceptions) -/
def Obligations.CtControlAndStore : Prop :=
  (∀ t w0 w1 s, s.dev.up = true → s.dev.fetches t.val .jmp w0 w1 → s.dev.branchLegal t.val w0 →
    Leads (only [.tile t.val]) (.jmp t w0 w1) s fun d => d.tile t.val = (s.dev.tile t.val).toNext (s.dev.branchTo t.val w0).toNat) ∧
  (∀ t w0 w1 s, s.dev.up = true → s.dev.fetches t.val .jmp w0 w1 → ¬s.dev.branchLegal t.val w0 →
    s.dev.unattended t.val → (s.dev.tile t.val).passes = [] → (s.dev.tile t.val).moves = [] → (s.dev.tile t.val).descs = [] →
    Leads (only [.tile t.val]) (.jmp t w0 w1) s fun d => s.dev.faulted d t.val cRANGE .ct ((s.dev.tile t.val).get TLE_PC_PC)) ∧
  CtBranch .beq .beq (byOperands fun a b => decide (a = b)) ∧
  CtBranch .bne .bne (byOperands fun a b => decide (a ≠ b)) ∧ CtBranch .blt .blt (byOperands fun a b => decide (a.toInt < b.toInt)) ∧
  CtBranch .bge .bge (byOperands fun a b => decide (b.toInt ≤ a.toInt)) ∧ CtBranch .bltu .bltu (byOperands fun a b => decide (a.toNat < b.toNat)) ∧
  CtBranch .bgeu .bgeu (byOperands fun a b => decide (b.toNat ≤ a.toNat)) ∧ CtBranch .bp .bp (fun t w0 _ => decide (t.pReg (ctRA w0) ≠ 0)) ∧
  (∀ t w0 w1 s, s.dev.up = true → s.dev.fetches t.val .loop w0 w1 → 2 ≤ ((s.dev.tile t.val).sReg (ctRA w0)).toNat → s.dev.branchLegal t.val w0 →
    Leads (only [.tile t.val]) (.ctLoop t w0 w1) s fun d => d.tile t.val =
      ((s.dev.tile t.val).setS (ctRA w0) ((s.dev.tile t.val).sReg (ctRA w0) - 1)).toNext (s.dev.branchTo t.val w0).toNat) ∧
  (∀ t w0 w1 s, s.dev.up = true → s.dev.fetches t.val .loop w0 w1 → ((s.dev.tile t.val).sReg (ctRA w0)).toNat ≤ 1 →
    Leads (only [.tile t.val]) (.ctLoop t w0 w1) s fun d => d.tile t.val =
      ((s.dev.tile t.val).setS (ctRA w0) (if (s.dev.tile t.val).sReg (ctRA w0) = 1 then 0 else (s.dev.tile t.val).sReg (ctRA w0))).toNext
        ((s.dev.tile t.val).get TLE_PC_PC + insLen w0)) ∧
  (∀ t w0 w1 a s, s.dev.up = true → s.dev.fetches t.val .ctLd w0 w1 → s.dev.ctReaches t.val w0 a 8 →
    Leads (only [.tile t.val]) (.ctLd t w0 w1) s fun d => d.tile t.val =
      ((s.dev.tile t.val).setS (ctRD w0) (BitVec.ofNat 64 (leNat (s.dev.bytes (tileByte t.val a) 8)))).toNext ((s.dev.tile t.val).get TLE_PC_PC + insLen w0)) ∧
  (∀ t w0 w1 a s, s.dev.up = true → s.dev.fetches t.val .ctSt w0 w1 → s.dev.ctReaches t.val w0 a 8 → (s.dev.tile t.val).hitsCode a 8 = false →
    Leads (orBytes (tileByte t.val a) 8 (only [.tile t.val])) (.ctSt t w0 w1) s fun d => d.tile t.val = (s.dev.tile t.val).past w0 ∧
      d.bytes (tileByte t.val a) 8 = leBytes 8 ((s.dev.tile t.val).sReg (ctRB w0)).toNat) ∧
  (∀ t w0 w1 a s, s.dev.up = true → s.dev.fetches t.val .phxld w0 w1 → s.dev.ctReaches t.val w0 a 32 →
    Leads (only [.tile t.val]) (.phxld t w0 w1) s fun d => d.tile t.val =
      ((((s.dev.tile t.val).set (TLE_PHX_KEY_KEY (ctRD w0 % 8)) (leNat (s.dev.bytes (tileByte t.val a) 8))).set (TLE_PHX_CTR_LO_CTR (ctRD w0 % 8))
        (leNat (s.dev.bytes (tileByte t.val (a + 16)) 8))).set (TLE_PHX_CTR_HI_CTR (ctRD w0 % 8)) (leNat (s.dev.bytes (tileByte t.val (a + 24)) 8))).toNext
          ((s.dev.tile t.val).get TLE_PC_PC + insLen w0)) ∧
  (∀ t w0 w1 a s, s.dev.up = true → s.dev.fetches t.val .phxst w0 w1 → s.dev.ctReaches t.val w0 a 32 → (s.dev.tile t.val).hitsCode a 32 = false →
    Leads (orBytes (tileByte t.val a) 32 (only [.tile t.val])) (.phxst t w0 w1) s fun d => d.tile t.val = (s.dev.tile t.val).past w0 ∧
      leNat (d.bytes (tileByte t.val a) 8) = (s.dev.tile t.val).get (TLE_PHX_KEY_KEY (ctRD w0 % 8)) ∧
      d.bytes (tileByte t.val (a + 8)) 8 = s.dev.bytes (tileByte t.val (a + 8)) 8 ∧
      leNat (d.bytes (tileByte t.val (a + 16)) 16) = (s.dev.tile t.val).phxCtr (ctRD w0 % 8)) ∧
  (∀ t w0 w1 s, s.dev.up = true → s.dev.fetches t.val .gang w0 w1 → (s.dev.tile t.val).gangs = [] →
    (ctImm w0).toNat % 4 ≠ (s.dev.tile t.val).get TLE_MXCFG_ACTIVE →
    Leads (only [.tile t.val]) (.ctGang t w0 w1) s fun d => d.tile t.val =
      { ((s.dev.tile t.val).set TLE_MXCFG_GANG ((ctImm w0).toNat % 4)).toNext ((s.dev.tile t.val).get TLE_PC_PC + insLen w0) with
        gangs := [(ctImm w0).toNat % 4] }) ∧
  (∀ t w0 w1 s, s.dev.up = true → s.dev.fetches t.val .gang w0 w1 → (s.dev.tile t.val).gangs = [] →
    (ctImm w0).toNat % 4 = (s.dev.tile t.val).get TLE_MXCFG_ACTIVE →
    Leads (only [.tile t.val]) (.ctGang t w0 w1) s fun d =>
      d.tile t.val = ((s.dev.tile t.val).set TLE_MXCFG_GANG ((ctImm w0).toNat % 4)).toNext ((s.dev.tile t.val).get TLE_PC_PC + insLen w0)) ∧
  (∀ t w0 w1 s, s.dev.up = true → s.dev.fetches t.val .endProg w0 w1 → (s.dev.tile t.val).passes = [] → (s.dev.tile t.val).moves = [] →
    (s.dev.tile t.val).descs = [] →
    Leads (only [.tile t.val]) (.endProgram t w0 w1) s fun d => d.tile t.val =
      ((((s.dev.tile t.val).past w0).set TLE_STAT_STATE tIDLE).set TLE_CTRL_EN 0).set TLE_CTRL_STOP 0) ∧
  (∀ t w0 w1 s, s.dev.up = true → s.dev.fetches t.val .brk w0 w1 → s.dev.unattended t.val → (s.dev.tile t.val).passes = [] →
    (s.dev.tile t.val).moves = [] → (s.dev.tile t.val).descs = [] →
    Leads (only [.tile t.val]) (.ctBrk t w0 w1) s fun d => s.dev.faulted d t.val cBRK .ct ((s.dev.tile t.val).get TLE_PC_PC) ∧
      (d.tile t.val).get TLE_PC_PC = ((s.dev.tile t.val).past w0).get TLE_PC_PC) ∧
  (∀ t w0 w1 s, s.dev.up = true → s.dev.fetches t.val .step w0 w1 → (s.dev.tile t.val).passes = [] → (s.dev.tile t.val).moves = [] →
    inStore (aBase ((s.dev.tile t.val).aReg (ctRB w0))) 8320 = true → (s.dev.tile t.val).owner ≠ oJOB →
    Leads (only [.tile t.val]) (.ctStep t w0 w1) s fun d => d.tile t.val = (s.dev.tile t.val).past w0) ∧
  (∀ t w0 w1 s, s.dev.up = true → s.dev.fetches t.val .step w0 w1 → (s.dev.tile t.val).passes = [] → (s.dev.tile t.val).moves = [] →
    inStore (aBase ((s.dev.tile t.val).aReg (ctRB w0))) 8320 = true → (s.dev.tile t.val).owner = oJOB → s.dev.shore.slot = none →
    ((s.dev.tile t.val).sReg (ctRA w0)).toNat = (s.dev.agent localAgent).step + 1 → (s.dev.agent localAgent).cstate = 0 → s.dev.shore.handback = none →
    Leads (only [.tile t.val, .agent localAgent, .wit]) (.ctStep t w0 w1) s fun d => d.tile t.val = (s.dev.tile t.val).past w0 ∧
      (d.agent localAgent).step = (s.dev.agent localAgent).step + 1 ∧ d.wit = { s.dev.wit with mxNext := 0, rdNext := 0 }) ∧
  (∀ t w0 w1 s, s.dev.up = true → s.dev.fetches t.val .step w0 w1 → (s.dev.tile t.val).passes ≠ [] →
    Leads (only [.tile t.val]) (.ctStep t w0 w1) s fun d =>
      d.tile t.val = { s.dev.tile t.val with front := some { op := .step, w0 := w0, w1 := w1, off := (s.dev.tile t.val).get TLE_PC_PC } })

/-- The VX class computes each element by its exact function, rounded once. For every row and lane that the instruction covers, the element
written is the stated function of its sources: exact and rounded once with its flags for arithmetic, the elementary function wherever the
model's function gives a value, bitwise and integer results by their definition. (spec/08_lathe_isa.md: VX class;
spec/07_vector_reduction.md: Vector instructions; spec/06_lathe_tiles.md: The Reproducible Arithmetic Contract) -/
def Obligations.VectorArithmetic : Prop :=
  VxExact .vxAdd .vxAdd (fun x y _ => ((Ex.add x y).1, flagIf (Ex.add x y).2 flagInvalid)) ∧
  VxExact .vxSub .vxSub (fun x y _ => ((Ex.add x y.neg).1, flagIf (Ex.add x y.neg).2 flagInvalid)) ∧
  VxExact .vxMul .vxMul (fun x y _ => ((Ex.mul x y).1, flagIf (Ex.mul x y).2 flagInvalid)) ∧
  VxExact .vxFma .fma (fun x y z => ((Ex.add (Ex.mul x y).1 z).1, flagIf ((Ex.mul x y).2 || (Ex.add (Ex.mul x y).1 z).2) flagInvalid)) ∧
  VxExact .vxDiv .div (fun x y _ => ((Ex.div x y).1, flagIf (Ex.div x y).2.1 flagInvalid + flagIf (Ex.div x y).2.2 flagDivZero)) ∧
  VxExact .vxSqrt .sqrt (fun x _ _ => ((Ex.sqrt 640 x).1, flagIf (Ex.sqrt 640 x).2 flagInvalid)) ∧
  VxExact .vxRsqrt .rsqrt (fun x _ _ => ((Ex.rsqrt 640 x).1, flagIf (Ex.rsqrt 640 x).2.1 flagInvalid + flagIf (Ex.rsqrt 640 x).2.2 flagDivZero)) ∧
  VxFn .vxExp .exp fnExp ∧ VxFn .vxExp2 .exp2 fnExp2 ∧ VxFn .vxLog .log (fnLog false) ∧ VxFn .vxLog2 .log2 (fnLog true) ∧
  VxFn .vxTanh .tanh fnTanh ∧ VxFn .vxSigmoid .sigmoid fnSigmoid ∧
  VxOp .vxMin .vxMin (fun t e row lane => (minMax (viewFmt (vxSView e.w0)) false (srcA t e row lane) (srcBv t e row lane), 0)) ∧
  VxOp .vxMax .vxMax (fun t e row lane => (minMax (viewFmt (vxSView e.w0)) true (srcA t e row lane) (srcBv t e row lane), 0)) ∧
  VxOp .vxAbs .abs (fun t e row lane => (signOp .abs (viewFmt (vxSView e.w0)) (srcA t e row lane), 0)) ∧
  VxOp .vxNeg .neg (fun t e row lane => (signOp .neg (viewFmt (vxSView e.w0)) (srcA t e row lane), 0)) ∧
  VxInt .iadd .iadd (fun a b => a + b) ∧ VxInt .isub .isub (fun a b => a - b) ∧ VxInt .imul .imul (fun a b => a * b) ∧
  VxInt .imin .imin (fun a b => if a.toInt ≤ b.toInt then a else b) ∧ VxInt .imax .imax (fun a b => if a.toInt ≤ b.toInt then b else a) ∧
  VxInt .vxAnd .vxAnd (fun a b => a &&& b) ∧ VxInt .vxOr .vxOr (fun a b => a ||| b) ∧ VxInt .vxXor .vxXor (fun a b => a ^^^ b) ∧
  VxInt .vxShl .vxShl (fun a b => a <<< (b.toNat % 32)) ∧ VxInt .vxShr .vxShr (fun a b => a >>> (b.toNat % 32)) ∧
  VxInt .vxSar .vxSar (fun a b => a.sshiftRight (b.toNat % 32))

/-- The VX class compares, selects, moves, converts, draws and reaches the store. Comparisons write their predicate; selection, integer
conversion, moves, broadcasts, transposition and Philox draws write their elements; a conversion rounds each element, to an MX format
under its block scale; loads and stores move packed elements, a masked lane keeping its bits. (spec/08_lathe_isa.md: VX class;
spec/07_vector_reduction.md: Format conversion, Stochastic rounding and the Philox generator) -/
def Obligations.VectorComparesAndMoves : Prop :=
  VxCmp .cmpEq .cmpEq (fun x y => ordered x y && x.eq y) ∧ VxCmp .cmpLt .cmpLt (fun x y => ordered x y && x.lt y) ∧
  VxCmp .cmpLe .cmpLe (fun x y => ordered x y && (x.lt y || x.eq y)) ∧ VxCmp .cmpUn .cmpUn (fun x y => !ordered x y) ∧
  VxOp .vxSel .sel (fun t e row lane => (if bitsAt e.pv lane 1 = 1 then srcA t e row lane else srcBv t e row lane, 0)) ∧
  VxOp .i2f .i2f (fun t e row lane => Fmt.fp32.round false .rne
    (.fin (decide ((BitVec.ofNat 32 (srcA t e row lane)).toInt < 0)) (BitVec.ofNat 32 (srcA t e row lane)).toInt.natAbs 1)) ∧
  VxOp .f2i .f2i (fun t e row lane => f2i (Fmt.fp32.decode (srcA t e row lane))) ∧
  VxOp .vxMov .vxMov (fun t e row lane => (srcA t e row lane, 0)) ∧
  VxOp .bcastRow .bcastRow (fun t e _ lane => (srcA t e (vxSB e.w0) lane, 0)) ∧
  VxOp .bcastColumn .bcastColumn (fun t e row _ => (srcA t e row (vxSB e.w0), 0)) ∧
  VxOp .trans .trans (fun t e row lane => (srcA t e lane row, 0)) ∧
  VxOp .randRaw .randRaw (fun t e row lane => (t.drawn (vxStream e.w0) (64 * (row - vxR0 e.w0) + lane), 0)) ∧
  VxOp .randUnif .randUnif (fun t e row lane =>
    ((Fmt.fp32.round false .rne (.fin false (t.drawn (vxStream e.w0) (64 * (row - vxR0 e.w0) + lane) / 256) (2 ^ 24))).1, 0)) ∧
  (∀ t w0 w1 s, s.dev.up = true → s.dev.issues t.val .randRaw w0 w1 → vxNr w0 ≠ 0 →
    Leads (only [.tile t.val, .free]) (.randRaw t w0 w1) s fun d => (d.tile t.val).phxCtr (vxStream w0) =
      ((s.dev.tile t.val).phxCtr (vxStream w0) + 16 * vxNr w0) % 2 ^ 128) ∧
  (∀ t w0 w1 row lane s, s.dev.up = true → s.dev.issues t.val .cvt w0 w1 → lane < 64 → (s.dev.queued t.val .cvt w0 w1).covers row lane →
    vxDView w0 = vxSView w0 →
    Leads (only [.tile t.val, .free]) (.cvt t w0 w1) s fun d => (d.tile t.val).elem (vxDView w0) (vxDst w0) 0 row lane =
      srcA (s.dev.tile t.val) (s.dev.queued t.val .cvt w0 w1) row lane ∧ (d.tile t.val).vxFlags = (s.dev.tile t.val).vxFlags) ∧
  (∀ t w0 w1 row lane s, s.dev.up = true → s.dev.issues t.val .cvt w0 w1 → lane < 64 → (s.dev.queued t.val .cvt w0 w1).covers row lane →
    vxDView w0 ≠ vxSView w0 → viewMX (vxDView w0) = false →
    Leads (only [.tile t.val, .free]) (.cvt t w0 w1) s fun d => (d.tile t.val).elem (vxDView w0) (vxDst w0) 0 row lane =
      ((viewFmt (vxDView w0)).round (vxSat w0)
        (rndOf (vxRm w0) (if vxRm w0 = 2 then (s.dev.tile t.val).drawn (vxStream w0) (64 * (row - vxR0 w0) + lane) else 0))
        ((s.dev.tile t.val).exact (vxSView w0) (vxAxis w0) (vxSA w0) (svAt (s.dev.queued t.val .cvt w0 w1) 0) row lane)).1 % 2 ^ viewBits (vxDView w0)) ∧
  (∀ t w0 w1 row lane s, s.dev.up = true → s.dev.issues t.val .cvt w0 w1 → lane < 64 → (s.dev.queued t.val .cvt w0 w1).covers row lane →
    vxDView w0 ≠ vxSView w0 → viewMX (vxDView w0) = true → viewMX (vxSView w0) = false →
    Leads (only [.tile t.val, .free]) (.cvt t w0 w1) s fun d =>
      (d.tile t.val).scale (vxDst w0) (scaleIndex (vxAxis w0) row lane) =
        blockScale (viewFmt (vxDView w0)) ((blockCells (vxAxis w0) row lane).map fun q =>
          (viewFmt (vxSView w0)).decode (srcA (s.dev.tile t.val) (s.dev.queued t.val .cvt w0 w1) q.1 q.2)) % 256 ∧
      (d.tile t.val).elem (vxDView w0) (vxDst w0) 0 row lane =
        (cvtMX (viewFmt (vxDView w0)) (vxSat w0)
          (rndOf (vxRm w0) (if vxRm w0 = 2 then (s.dev.tile t.val).drawn (vxStream w0) (64 * (row - vxR0 w0) + lane) else 0))
          (blockScale (viewFmt (vxDView w0)) ((blockCells (vxAxis w0) row lane).map fun q =>
            (viewFmt (vxSView w0)).decode (srcA (s.dev.tile t.val) (s.dev.queued t.val .cvt w0 w1) q.1 q.2)))
          ((viewFmt (vxSView w0)).decode (srcA (s.dev.tile t.val) (s.dev.queued t.val .cvt w0 w1) row lane))).1 % 2 ^ viewBits (vxDView w0)) ∧
  (∀ t w0 w1 row lane s, s.dev.up = true → s.dev.issues t.val .vxLd w0 w1 → lane < 64 → (s.dev.queued t.val .vxLd w0 w1).covers row lane →
    Leads (only [.tile t.val]) (.vxLd t w0 w1) s fun d => (d.tile t.val).elem (vxDView w0) (vxDst w0) 0 row lane =
      s.dev.packedElem (tileByte t.val (ldRow (s.dev.queued t.val .vxLd w0 w1) row)) (viewBits (vxDView w0)) lane) ∧
  (∀ t w0 w1 s, s.dev.up = true → s.dev.issues t.val .vxSt w0 w1 → vxNr w0 = 1 → viewMX (vxDView w0) = false →
    Leads (orBytes (tileByte t.val (ldRow (s.dev.queued t.val .vxSt w0 w1) (vxR0 w0))) (8 * viewBits (vxDView w0)) (only [.tile t.val])) (.vxSt t w0 w1) s fun d =>
      ∀ lane < 64, d.packedElem (tileByte t.val (ldRow (s.dev.queued t.val .vxSt w0 w1) (vxR0 w0))) (viewBits (vxDView w0)) lane =
        if laneOn (s.dev.queued t.val .vxSt w0 w1) lane = true then (s.dev.tile t.val).elem (vxDView w0) (vxDst w0) 0 (vxR0 w0) lane
        else s.dev.packedElem (tileByte t.val (ldRow (s.dev.queued t.val .vxSt w0 w1) (vxR0 w0))) (viewBits (vxDView w0)) lane)

/-- A pass starts, waits and completes by the contract; the reduction unit folds its slices. PASS enters its queue, or waits behind a gang
change or in front while its gang is busy; on a sampled tile it takes the numbers of its output tiles; at completion each accumulator word
of the gang is the contract's element of its row and column, the pass leaves the queue, and a selected output tile becomes a witness
record; SUM, MAX and MIN fold their slices by the rule and write result or accumulator. (spec/06_lathe_tiles.md: Passes and output tiles,
The Reproducible Arithmetic Contract; spec/07_vector_reduction.md: The reduction unit; spec/08_lathe_isa.md: MX class, RD class) -/
def Obligations.PassesAndReductions : Prop :=
  (∀ t w0 w1 s, s.dev.up = true → s.dev.startsPass t.val w0 w1 → s.dev.sampledTile t.val = false →
    Leads (only [.tile t.val]) (.pass t w0 w1) s fun d =>
      d.tile t.val = { (s.dev.tile t.val).past w0 with passes := (s.dev.tile t.val).passes ++ [s.dev.queued t.val .pass w0 w1] }) ∧
  (∀ t w0 w1 s, s.dev.up = true → s.dev.startsPass t.val w0 w1 → s.dev.sampledTile t.val = true →
    Leads (only [.tile t.val, .wit]) (.pass t w0 w1) s fun d =>
      d.tile t.val = { (s.dev.tile t.val).past w0 with passes := (s.dev.tile t.val).passes ++
        [{ s.dev.queued t.val .pass w0 w1 with sample := some ((s.dev.agent localAgent).step, s.dev.wit.mxNext) }] } ∧
      d.wit.mxNext = s.dev.wit.mxNext + (gangAccs ((s.dev.tile t.val).get TLE_MXCFG_ACTIVE) (mxGang w0)).length * passSpans (s.dev.queued t.val .pass w0 w1)) ∧
  (∀ t w0 w1 s, s.dev.up = true → s.dev.fetches t.val .pass w0 w1 → (s.dev.tile t.val).gangs ≠ [] →
    Leads (only [.tile t.val]) (.pass t w0 w1) s fun d => d.tile t.val = { (s.dev.tile t.val).past w0 with mx := [s.dev.queued t.val .pass w0 w1] }) ∧
  (∀ t w0 w1 s, s.dev.up = true → s.dev.fetches t.val .pass w0 w1 → (s.dev.tile t.val).gangs = [] →
    passCheck (s.dev.tile t.val) (s.dev.queued t.val .pass w0 w1) = none →
    (s.dev.tile t.val).passes.any (fun p => decide (mxGang p.w0 = mxGang w0)) = true →
    Leads (only [.tile t.val]) (.pass t w0 w1) s fun d =>
      d.tile t.val = { (s.dev.tile t.val).past w0 with mx := [s.dev.queued t.val .pass w0 w1] }) ∧
  (∀ t g e m n s, s.dev.up = true → (s.dev.tile t.val).runsEmpty → (s.dev.tile t.val).front = none → (s.dev.tile t.val).relaxed = false →
    ((s.dev.tile t.val).passes.find? fun p => decide (mxGang p.w0 = g.val)) = some e → e.sample = none →
    m < gangRows ((s.dev.tile t.val).get TLE_MXCFG_ACTIVE) → n < gangCols ((s.dev.tile t.val).get TLE_MXCFG_ACTIVE) →
    Leads (only [.tile t.val]) (.passComplete t g) s fun d =>
      (d.tile t.val).accWord (gangWord ((s.dev.tile t.val).get TLE_MXCFG_ACTIVE) g.val m n) =
        outElem (viewFmt (mxFmtA e.w0)) (viewFmt (mxFmtB e.w0)) (mxK e.w0)
          (fun k => s.dev.packedElem (tileByte t.val 0 + aBase (avAt e 0) + 64 * m * aStride (avAt e 0)) (viewBits (mxFmtA e.w0)) (mxK0 e.w1 + k))
          (fun k => passB s.dev (tileByte t.val 0) e (mxK0 e.w1 + k) n)
          (fun j => leNat (s.dev.bytes (tileByte t.val 0 + aBase (avAt e 1) + 64 * m * aStride (avAt e 1) + mxK0 e.w1 / 32 + j) 1))
          (fun j => passBScale s.dev (tileByte t.val 0) e (mxK0 e.w1 + 32 * j) n)
          (if mxAcc e.w0 then (s.dev.tile t.val).accWord (gangWord ((s.dev.tile t.val).get TLE_MXCFG_ACTIVE) g.val m n) else 0) % 2 ^ 32 ∧
      (d.tile t.val).passes = (s.dev.tile t.val).passes.erase e) ∧
  (∀ t g e step first slot s, s.dev.up = true → (s.dev.tile t.val).runsEmpty → (s.dev.tile t.val).front = none → (s.dev.tile t.val).relaxed = false →
    ((s.dev.tile t.val).passes.find? fun p => decide (mxGang p.w0 = g.val)) = some e → e.sample = some (step, first) → s.dev.shore.slot = some slot →
    (s.dev.tile t.val).get TLE_MXCFG_ACTIVE = 0 → mxK e.w0 ≤ passSpan e → first ∈ s.dev.expects slot step 0 → s.dev.wit.queue = [] →
    Leads (only [.tile t.val, .wit, .reg WIT_STAT_BACKLOG.addr]) (.passComplete t g) s fun d => (d.tile t.val).passes = (s.dev.tile t.val).passes.erase e ∧
      d.wit.queue.length = 1 ∧ ∀ r ∈ d.wit.queue, s.dev.shoredRecord r slot 0 step first) ∧
  RdSlice .reduceSum .reduceSum ∧ RdSlice .reduceMax .reduceMax ∧ RdSlice .reduceMin .reduceMin

/-- The MV and SY classes start transfers, signal, wait and drain. COPY, GET, PUT and XPUT enter the queue of transfers, DESC that of
descriptors; a copy of no length signals at once; WAIT and RWAIT pass where satisfied and WAIT else holds the pc; SIGNAL and RSIGNAL add
to counters of the tile and of its window; DRAIN passes with nothing open and else holds the pc. (spec/08_lathe_isa.md: MV class, SY
class) -/
def Obligations.TransfersAndSignalsOfATile : Prop :=
  MvStarts .mvCopy .copy ∧ MvStarts .mvGet .get ∧ MvStarts .mvPut .put ∧ MvStarts .mvXput .xput ∧
  (∀ t w0 w1 s, s.dev.up = true → s.dev.fetches t.val .desc w0 w1 → mvCheck s.dev t.val (s.dev.queued t.val .desc w0 w1) = none →
    (s.dev.tile t.val).descs.length < 16 → mvWaits s.dev t.val (s.dev.queued t.val .desc w0 w1) = false →
    Leads (only [.tile t.val]) (.mvDesc t w0 w1) s fun d => d.tile t.val = { (s.dev.tile t.val).past w0 with
      descs := (s.dev.tile t.val).descs ++
        [⟨mvOtherStore (s.dev.queued t.val .desc w0 w1), (s.dev.tile t.val).get TLE_PC_PC, mvOtherStore (s.dev.queued t.val .desc w0 w1), false, false, 0⟩] }) ∧
  (∀ t w0 w1 s, s.dev.up = true → s.dev.fetches t.val .copy w0 w1 → mvCheck s.dev t.val (s.dev.queued t.val .copy w0 w1) = none → mvLen w0 = 0 →
    mvSigt w0 = 1 → (s.dev.tile t.val).moves = [] →
    Leads (only [.tile t.val]) (.mvCopy t w0 w1) s fun d => d.tile t.val = ((s.dev.tile t.val).past w0).addCounter (mvSigc w0) 1) ∧
  (∀ t w0 w1 s, s.dev.up = true → s.dev.fetches t.val .wait w0 w1 → bitsAt w0 9 1 = 1 →
    satisfied ((s.dev.tile t.val).counter (bitsAt w0 10 6)) ((s.dev.tile t.val).syValue w0 w1) = true →
    Leads (only [.tile t.val]) (.syWait t w0 w1) s fun d => d.tile t.val = (s.dev.tile t.val).past w0) ∧
  (∀ t w0 w1 s, s.dev.up = true → s.dev.fetches t.val .wait w0 w1 → bitsAt w0 9 1 = 1 →
    satisfied ((s.dev.tile t.val).counter (bitsAt w0 10 6)) ((s.dev.tile t.val).syValue w0 w1) = false →
    Leads (only [.tile t.val]) (.syWait t w0 w1) s fun d => (d.tile t.val).heldWait none ≠ none ∧
      (d.tile t.val).get TLE_PC_PC = (s.dev.tile t.val).get TLE_PC_PC) ∧
  (∀ t w0 w1 s, s.dev.up = true → s.dev.fetches t.val .sySignal w0 w1 → bitsAt w0 9 1 = 1 → (s.dev.tile t.val).passes = [] →
    (s.dev.tile t.val).moves = [] →
    Leads (only [.tile t.val]) (.sySignal t w0 w1) s fun d => d.tile t.val = ((s.dev.tile t.val).addCounter (bitsAt w0 10 6)
      ((s.dev.tile t.val).syValue w0 w1)).toNext ((s.dev.tile t.val).get TLE_PC_PC + insLen w0)) ∧
  (∀ t w0 w1 s, s.dev.up = true → s.dev.fetches t.val .sySignal w0 w1 → bitsAt w0 9 1 = 0 → bitsAt w0 6 2 = 3 →
    (s.dev.tile t.val).moves = [] →
    Leads (only [.tile t.val]) (.sySignal t w0 w1) s fun d => d.tile t.val = ((s.dev.tile t.val).past w0).addCounter (bitsAt w0 10 6)
      ((s.dev.tile t.val).syValue w0 w1)) ∧
  (∀ t w0 w1 c s, s.dev.up = true → s.dev.fetches t.val .rwait w0 w1 → bitsAt w0 9 1 = 0 → bitsAt w0 6 2 = 0 →
    s.dev.winCounter (s.dev.tctx t.val) (((s.dev.tile t.val).sReg (bitsAt w0 16 5)).toNat % 2 ^ 16) = some c →
    satisfied (s.dev.counter c) ((s.dev.tile t.val).syValue w0 w1) = true →
    Leads (only [.tile t.val]) (.rwait t w0 w1) s fun d => d.tile t.val = (s.dev.tile t.val).past w0) ∧
  (∀ t w0 w1 c s, s.dev.up = true → s.dev.fetches t.val .rsignal w0 w1 → bitsAt w0 9 1 = 0 → bitsAt w0 6 2 = 1 → (s.dev.tile t.val).on TLE_STAT_PAIRED = false →
    s.dev.winCounter (s.dev.tctx t.val) (((s.dev.tile t.val).sReg (bitsAt w0 16 5)).toNat % 2 ^ 16) = some c → 4096 ≤ c → s.dev.unwatched c = true →
    (s.dev.tile t.val).syValue w0 w1 ≠ 0 →
    Leads (only [.tile t.val, .counter c, .tally 1440]) (.rsignal t w0 w1) s fun d => d.tile t.val = (s.dev.tile t.val).past w0 ∧
      d.counter c = s.dev.counter c + ((s.dev.tile t.val).syValue w0 w1)) ∧
  (∀ t w0 w1 s, s.dev.up = true → s.dev.fetches t.val .drain w0 w1 → bitsAt w0 9 1 = 1 → (s.dev.tile t.val).passes = [] → (s.dev.tile t.val).moves = [] →
    Leads (only [.tile t.val]) (.syDrain t w0 w1) s fun d => d.tile t.val = (s.dev.tile t.val).past w0) ∧
  (∀ t w0 w1 s, s.dev.up = true → s.dev.fetches t.val .drain w0 w1 → bitsAt w0 9 1 = 1 → (s.dev.tile t.val).moves ≠ [] →
    Leads (only [.tile t.val]) (.syDrain t w0 w1) s fun d => (d.tile t.val).get TLE_PC_PC = (s.dev.tile t.val).get TLE_PC_PC ∧
      (d.tile t.val).front.isSome = true ∧ (d.tile t.val).moves = (s.dev.tile t.val).moves)

/-- A host closes its session and reads and writes registers, agents and memory. CLOSE frees the session; REG_RD answers the registers, or the
first one's failure; REG_WR writes each by its rule, or is FAULT; AGENT_RD and AGENT_WR send the first access to the agent; reads of
agents and memory are BUSY in QUARANTINE; MEM_RD answers the bytes of a context, or FAULT with the fault counted; MEM_WR writes them with
their check. (spec/12_host_protocol.md: Commands, Checks and status) -/
def Obligations.HostsReadAndWrite : Prop :=
  (∀ m s, s.dev.up = true → s.dev.hostTurn m.slot.val 0 → s.dev.epochOk .any m.epoch.toNat = true → m.ver = 1 → m.data = [] →
    Leads (hostParts m [.reg (HST_SESS_STATE m.slot.val).addr]) (.hostClose m) s fun d => s.dev.replied d m stOK 0 ∧ d.hState m.slot.val = hFREE ∧
      d.host m.slot.val = { opens := (s.dev.host m.slot.val).opens }) ∧
  (∀ m s, s.dev.up = true → s.dev.obeys m 0 .any (8 * m.arg.toNat) → m.data = [] → m.arg.toNat ≤ 1024 →
    (∀ i < m.arg.toNat, quietReg (m.target.toNat + 8 * i) ∧ (s.dev.readReg (m.target.toNat + 8 * i)).2 = stOK) →
    Leads (hostParts m []) (.regRd m) s fun d => s.dev.replied d m stOK m.arg.toNat
      ((List.range m.arg.toNat).flatMap fun i => leBytes 8 (s.dev.readReg (m.target.toNat + 8 * i)).1.toNat)) ∧
  (∀ m s, s.dev.up = true → s.dev.obeys m 0 .any 0 → m.data = [] → m.arg.toNat ≤ 1024 → 0 < m.arg.toNat → (s.dev.readReg m.target.toNat).2 ≠ stOK →
    Leads (hostParts m []) (.regRd m) s fun d => s.dev.replied d m (s.dev.readReg m.target.toNat).2 0) ∧
  (∀ m s, s.dev.up = true → s.dev.obeys m clsOPERATE .any 0 → m.data ≠ [] → m.data.length % 8 = 0 →
    (∀ i < m.data.length / 8, plainReg (m.target.toNat + 8 * i) ∧
      touchesPK ctlRows (m.target.toNat + 8 * i) (s.dev.word (m.target.toNat + 8 * i)) (BitVec.ofNat 64 (numAt m.data (8 * i) 8)) = false) →
    m.target.toNat + m.data.length ≤ 0x200100 →
    Leads (orRegs m.target.toNat m.data.length (hostParts m [.status])) (.regWr m) s fun d => s.dev.replied d m stOK (m.data.length / 8) ∧
      ∀ i < m.data.length / 8, s.dev.wroteReg d (m.target.toNat + 8 * i) (BitVec.ofNat 64 (numAt m.data (8 * i) 8))) ∧
  (∀ m s, s.dev.up = true → s.dev.obeys m clsOPERATE .any 0 → m.data ≠ [] → m.data.length % 8 = 0 → (m.target.toNat % 8 ≠ 0 ∨ 0x7FFFFF < m.target.toNat) →
    Leads (hostParts m [.status]) (.regWr m) s fun d => s.dev.replied d m stFAULT 0) ∧
  (∀ m s, s.dev.up = true → s.dev.obeys m 0 .any 0 → m.data = [] → m.arg.toNat < 8 →
    s.dev.slotState m.arg.toNat ≠ sABSENT → s.dev.mode.role ≠ .quarantine → Leads (hostParts m []) (.agentRd m) s fun d => s.dev.replied d m stOK 0) ∧
  (∀ m n c s, s.dev.up = true → s.dev.obeys m 0 .any 0 → m.data = [] → m.arg.toNat = n + 2 ^ 16 * c → n < 8 → 0 < c → c ≤ 512 →
    s.dev.slotState n ≠ sABSENT → s.dev.mode.role ≠ .quarantine →
    Leads (areas [.regs, .ports, .streams, .hosts, .tallies, .slots, .out]) (.agentRd m) s fun d => (d.slot n).reqs = (s.dev.slot n).reqs ++
        [{ seq := if s.dev.trayUp n then (s.dev.slot n).seqTray else (s.dev.slot n).seqSb, sb := !(s.dev.trayUp n), ty := 0x07, arg := m.target.toNat,
           data := [], note := [s.dev.hNumber m.slot.val, m.seq.toNat, m.target.toNat, 0, c] }] ∧
      (s.dev.sentSince d).map (fun x => (x.kind, x.dest, x.args.take 2)) = [(Kind.quoin, .agent n, [0x07, (!(s.dev.trayUp n)).toNat])]) ∧
  (∀ m n s, s.dev.up = true → s.dev.obeys m clsOPERATE .any 0 → m.data ≠ [] → m.data.length % 8 = 0 → m.data.length ≤ 4096 → m.arg.toNat = n → n < 8 →
    s.dev.slotState n ≠ sABSENT → s.dev.mode.role ≠ .quarantine →
    Leads (areas [.regs, .ports, .streams, .hosts, .tallies, .slots, .out]) (.agentWr m) s fun d => (d.slot n).reqs = (s.dev.slot n).reqs ++
        [{ seq := if s.dev.trayUp n then (s.dev.slot n).seqTray else (s.dev.slot n).seqSb, sb := !(s.dev.trayUp n), ty := 0x08, arg := m.target.toNat,
           data := m.data.take 8, note := [s.dev.hNumber m.slot.val, m.seq.toNat, m.target.toNat, 0, m.data.length / 8] ++ (m.data.drop 8).map BitVec.toNat }] ∧
      (s.dev.sentSince d).map (fun x => (x.kind, x.dest, x.args.take 2, x.data.drop 48)) =
        [(Kind.quoin, .agent n, [0x08, (!(s.dev.trayUp n)).toNat], m.data.take 8)]) ∧
  (∀ m n c s, s.dev.up = true → s.dev.obeys m 0 .any 0 → m.data = [] → m.arg.toNat = n + 2 ^ 16 * c → n < 8 → c ≤ 512 →
    (s.dev.slotState n = sABSENT ∨ s.dev.mode.role = .quarantine) → m.target.toNat % 8 = 0 → m.target.toNat < 0x4000 →
    Leads (hostParts m []) (.agentRd m) s fun d => s.dev.replied d m stBUSY 0) ∧
  (∀ m s, s.dev.up = true → s.dev.obeys m clsOPERATE .any (64 * argAt m 32 32) → m.data = [] → m.target.toNat % 64 = 0 → argClean m 0xFFFFFFFF0000003F = true →
    64 * argAt m 32 32 ≤ 2 ^ 30 → s.dev.resting = false → s.dev.mode.role ≠ .quarantine →
    s.dev.readable (argAt m 0 6) m.target.toNat (64 * argAt m 32 32) →
    Leads (areas [.hosts, .tallies, .out, .obs]) (.memRd m) s fun d =>
      s.dev.replied d m stOK (64 * argAt m 32 32) (s.dev.virtBytes (argAt m 0 6) m.target.toNat (64 * argAt m 32 32))) ∧
  (∀ m cause s, s.dev.up = true → s.dev.obeys m clsOPERATE .any 0 → m.data = [] → m.target.toNat % 64 = 0 → argClean m 0xFFFFFFFF0000003F = true →
    s.dev.resting = false → 0 < argAt m 32 32 → argAt m 32 32 ≤ 2 ^ 24 → s.dev.translate (argAt m 0 6) m.target.toNat false false = .fault cause →
    s.dev.mode.role ≠ .quarantine → s.dev.noListeners →
    Leads (areas [.regs, .memory, .checks, .hosts, .circ, .tallies, .mmu, .found, .obs, .wit, .free, .out]) (.memRd m) s fun d => s.dev.replies d m stFAULT 0 ∧
      d.get MMU_STAT_FAULTS = satAdd MMU_STAT_FAULTS.width (s.dev.get MMU_STAT_FAULTS) 1) ∧
  (∀ m s, s.dev.up = true → s.dev.obeys m clsOPERATE .any 0 → m.data = [] → m.target.toNat % 64 = 0 → argClean m 0xFFFFFFFF0000003F = true →
    64 * argAt m 32 32 ≤ 2 ^ 30 → (s.dev.resting = true ∨ s.dev.mode.role = .quarantine) →
    s.dev.readable (argAt m 0 6) m.target.toNat (64 * argAt m 32 32) →
    Leads (hostParts m []) (.memRd m) s fun d => s.dev.replied d m stBUSY 0) ∧
  (∀ m pa s, s.dev.up = true → s.dev.obeys m (if argAt m 0 6 = 0 then clsSERVICE else clsOPERATE) .any 0 → argAt m 0 6 ∉ [1, 2] →
    m.data.length = 64 * argAt m 32 32 → m.target.toNat % 64 = 0 → argClean m 0xFFFFFFFF0000003F = true → s.dev.resting = false →
    s.dev.mode.role ≠ .quarantine → (argAt m 0 6 = 0 → s.dev.epoch = 0) → m.data ≠ [] →
    m.target.toNat % 4096 + m.data.length ≤ 4096 → s.dev.pieceAt (argAt m 0 6) m.target.toNat true (0, m.data.length) = some pa → s.dev.phys pa = .hbm →
    Leads (orBytes pa m.data.length (areas [.hosts, .tallies, .out, .obs])) (.memWr m) s fun d => s.dev.replied d m stOK m.data.length ∧
      d.physBytes pa m.data.length = m.data ∧ d.blockOk pa = true)

/-- Host commands are checked for class, epoch, fence, version, length and mode. By REG_RD, REG_WR and SCAN: a lower class is AUTH, another
epoch EPOCH, a fenced block FENCED, another version UNSUPPORTED, unexpected data LENGTH; in recovery a read of no registers is OK and a
write BUSY; a command behind a waiting one is deferred; one of a session that is not open changes nothing. (spec/12_host_protocol.md:
Checks and status, Sequence, acknowledgement and windows) -/
def Obligations.HostCommandsAreChecked : Prop :=
  (∀ m s, s.dev.up = true → s.dev.hostTurn m.slot.val 0 → s.dev.get (HST_SESS_CLASS m.slot.val) < clsOPERATE →
    Leads (hostParts m []) (.regWr m) s fun d => s.dev.replied d m stAUTH 0) ∧
  (∀ m s, s.dev.up = true → s.dev.hostTurn m.slot.val 0 → s.dev.get (HST_SESS_CLASS m.slot.val) < clsSERVICE →
    Leads (hostParts m []) (.scan m) s fun d => s.dev.replied d m stAUTH 0) ∧
  (∀ m s, s.dev.up = true → s.dev.hostTurn m.slot.val 0 → m.epoch.toNat ≠ 0 → m.epoch.toNat ≠ s.dev.epoch →
    Leads (hostParts m []) (.regRd m) s fun d => s.dev.replied d m stEPOCH 0) ∧
  (∀ m s, s.dev.up = true → s.dev.hostTurn m.slot.val 0 → m.epoch.toNat = 0 → s.dev.hubFenced = true →
    Leads (hostParts m []) (.regRd m) s fun d => s.dev.replied d m stFENCED 0) ∧
  (∀ m s, s.dev.up = true → s.dev.hostTurn m.slot.val 0 → m.epoch.toNat = 0 → s.dev.hubFenced = false → m.ver ≠ 1 →
    Leads (hostParts m []) (.regRd m) s fun d => s.dev.replied d m stUNSUPPORTED 0) ∧
  (∀ m s, s.dev.up = true → s.dev.hostTurn m.slot.val 0 → m.epoch.toNat = 0 → s.dev.hubFenced = false → m.ver = 1 → m.data ≠ [] →
    Leads (hostParts m []) (.regRd m) s fun d => s.dev.replied d m stLENGTH 0) ∧
  (∀ m s, s.dev.up = true → s.dev.hostTurn m.slot.val 0 → m.epoch.toNat = 0 → s.dev.hubFenced = false → m.ver = 1 → m.data = [] → m.arg = 0 →
    s.dev.mode.fw = .recovery → Leads (hostParts m []) (.regRd m) s fun d => s.dev.replied d m stOK 0) ∧
  (∀ m s, s.dev.up = true → s.dev.hostTurn m.slot.val 0 → m.epoch.toNat = 0 → clsOPERATE ≤ s.dev.get (HST_SESS_CLASS m.slot.val) → s.dev.hubFenced = false →
    m.ver = 1 → m.data ≠ [] → m.data.length % 8 = 0 → s.dev.mode.fw = .recovery →
    Leads (hostParts m []) (.regWr m) s fun d => s.dev.replied d m stBUSY 0) ∧
  (∀ m s, s.dev.up = true → s.dev.hState m.slot.val = hOPEN → (s.dev.host m.slot.val).waiting ≠ [] →
    Leads (only [.host m.slot.val]) (.regRd m) s fun d => d.host m.slot.val =
      { s.dev.host m.slot.val with deferred := (s.dev.host m.slot.val).deferred ++ [.regRd m] }) ∧
  (∀ m s, s.dev.up = true → s.dev.hState m.slot.val ≠ hOPEN → Leads (only []) (.regRd m) s fun d => d = s.dev)

/-- A host reads the logs, the tallies and scan chains, and orders dumps and halts. LOG_RD of each log, TALLY_RD and SCAN answer their bytes,
SCAN being BUSY outside a halt; DUMP writes the window's counters, asks the agent, or is BUSY in QUARANTINE; HALT halts, releases, or is
BUSY in BANKED. (spec/12_host_protocol.md: Commands; spec/16_observability.md: Reading the log, Tallies, Scan-out, Global halt;
spec/10_sync.md: Dumps) -/
def Obligations.HostsReadLogsAndDumps : Prop :=
  (∀ m s, s.dev.up = true → s.dev.obeys m 0 .any (s.dev.logAnswer 0 (argAt m 16 48) (argAt m 2 14)).length → m.data = [] → argAt m 0 2 = 0 → argAt m 2 14 ≠ 0 →
    Leads (hostParts m []) (.logRdCirculating m) s fun d =>
      s.dev.replied d m stOK (s.dev.logAnswer 0 (argAt m 16 48) (argAt m 2 14)).length (s.dev.logAnswer 0 (argAt m 16 48) (argAt m 2 14))) ∧
  (∀ m s, s.dev.up = true → s.dev.obeys m 0 .any (s.dev.logAnswer 1 (argAt m 16 48) (argAt m 2 14)).length → m.data = [] → argAt m 0 2 = 1 → argAt m 2 14 ≠ 0 →
    Leads (hostParts m []) (.logRdFoundation m) s fun d =>
      s.dev.replied d m stOK (s.dev.logAnswer 1 (argAt m 16 48) (argAt m 2 14)).length (s.dev.logAnswer 1 (argAt m 16 48) (argAt m 2 14))) ∧
  (∀ m s, s.dev.up = true → s.dev.obeys m clsSERVICE .any (s.dev.logAnswer 2 (argAt m 16 48) (argAt m 2 14)).length → m.data = [] → argAt m 0 2 = 2 → argAt m 2 14 ≠ 0 →
    Leads (hostParts m []) (.logRdLive m) s fun d =>
      s.dev.replied d m stOK (s.dev.logAnswer 2 (argAt m 16 48) (argAt m 2 14)).length (s.dev.logAnswer 2 (argAt m 16 48) (argAt m 2 14))) ∧
  (∀ m s, s.dev.up = true → s.dev.obeys m 0 .any (s.dev.samples (argAt m 0 48) (argAt m 48 16)).length → m.data = [] →
    argAt m 48 16 * s.dev.sampleLen ≤ 2 ^ 30 → s.dev.resting = false →
    Leads (hostParts m [.obs]) (.tallyRd m) s fun d =>
      s.dev.replied d m stOK (s.dev.samples (argAt m 0 48) (argAt m 48 16)).length (s.dev.samples (argAt m 0 48) (argAt m 48 16)) ∧
      d.obs = { s.dev.obs with readTo := max s.dev.obs.readTo (min (s.dev.get TAL_STAT_NEXT) (argAt m 0 48 + argAt m 48 16)) }) ∧
  (∀ m len s, s.dev.up = true → s.dev.obeys m clsSERVICE .any (64 * argAt m 40 24) → m.data = [] → s.dev.halted = true → chainLen (argAt m 0 16) = some len →
    64 * (argAt m 16 24 + argAt m 40 24) ≤ len →
    Leads (hostParts m []) (.scan m) s fun d =>
      s.dev.replied d m stOK (64 * argAt m 40 24) (s.dev.scan (argAt m 0 16) (64 * argAt m 16 24) (64 * argAt m 40 24))) ∧
  (∀ m s, s.dev.up = true → s.dev.obeys m clsSERVICE .any 0 → m.data = [] → s.dev.halted = false → chainLen (argAt m 0 16) ≠ none →
    64 * (argAt m 16 24 + argAt m 40 24) ≤ (chainLen (argAt m 0 16)).getD 0 →
    Leads (hostParts m []) (.scan m) s fun d => s.dev.replied d m stBUSY 0) ∧
  (∀ m c s, s.dev.up = true → s.dev.obeys m clsOPERATE .any 0 → s.dev.noListeners → m.data = [] → m.arg.toNat = 2 ^ 8 * c → c < 64 → s.dev.mode.role ≠ .quarantine →
    s.dev.pmBase + s.dev.sync.dumpSlot * 0x200000 + 0x106000 ≤ hbmCheckBase → s.dev.get (SYN_WIN_SIZE c) ≤ 65536 →
    Leads (areas [.regs, .memory, .checks, .ports, .streams, .hosts, .tallies, .slots, .sync, .out]) (.dumpCommand m) s fun d => s.dev.replies d m stOK 0 ∧ d.get SYN_DUMP_SEQ = (s.dev.get SYN_DUMP_SEQ + 1) % 2 ^ 32 ∧
      ∀ i < s.dev.get (SYN_WIN_SIZE c), d.bytes (s.dev.pmBase + s.dev.sync.dumpSlot * 0x200000 + 0x1000 + 8 * i) 8 =
        leBytes 8 (s.dev.counter (s.dev.get (SYN_WIN_BASE c) + i)).toNat) ∧
  (∀ m n s, s.dev.up = true → s.dev.obeys m clsOPERATE .any 0 → m.data = [] → n < 8 → m.arg.toNat = 2 ^ 16 + 2 ^ 17 * n → s.dev.slotState n ≠ sABSENT →
    s.dev.mode.role ≠ .quarantine →
    Leads (areas [.regs, .memory, .checks, .ports, .streams, .hosts, .tallies, .slots, .sync, .out]) (.dumpCommandAgent m) s fun d => s.dev.replies d m stOK 0 ∧ d.asking n = s.dev.asking n ++ [(0x33, 0)]) ∧
  (∀ m c s, s.dev.up = true → s.dev.obeys m clsOPERATE .any 0 → m.data = [] → m.arg.toNat = 2 ^ 8 * c → c < 64 → s.dev.mode.role = .quarantine →
    Leads (hostParts m []) (.dumpCommand m) s fun d => s.dev.replied d m stBUSY 0) ∧
  (∀ m s, s.dev.up = true → s.dev.obeys m clsOPERATE .any 0 → s.dev.noListeners → s.dev.haltable → m.data = [] → m.arg = 1 →
    Leads (orTiles (orRecord (orRegs 0x1F0100 0x40 (hostParts m [.reg 0x380040, .reg 0x380048, .mode, .status])))) (.haltCommand m) s fun d =>
      d.get TAL_HALT_CMD = 1 ∧ s.dev.hasHalted d ∧ s.dev.replies d m stOK 0) ∧
  (∀ m s, s.dev.up = true → s.dev.obeys m clsOPERATE .any 0 → (s.dev.on TAL_HALT_PIN = true ∨ s.dev.on TAL_HALT_JTAG = true) → s.dev.halted = true →
    m.data = [] → m.arg = 0 →
    Leads (hostParts m [.reg 0x380040]) (.haltReleaseCommand m) s fun d =>
      d.get TAL_HALT_CMD = 0 ∧ d.get TAL_HALT_TRIG = 0 ∧ d.get TAL_HALT_HALTED = 1 ∧ s.dev.replied d m stOK 0) ∧
  (∀ m s, s.dev.up = true → s.dev.obeys m clsOPERATE .any 0 → s.dev.mode.role = .banked → m.data = [] → m.arg = 1 →
    Leads (hostParts m []) (.haltCommand m) s fun d => s.dev.replied d m stBUSY 0)

/-- A host stages a package, uploads shards, loads a program, admits and ends guests. Package bytes are staged, or BUSY outside the phase;
shard bytes reach their place; PROG_LOAD of one accepted image loads it on the first free tile, or is LENGTH where its list names none or
too many; a guest is admitted in role GUEST, is BUSY or waits for the transition; ending a guest clears its context and programs.
(spec/12_host_protocol.md: Commands, The Setout package; spec/08_lathe_isa.md: Program images; spec/01_roles.md: Roles) -/
def Obligations.HostsLoadProgramsAndGuests : Prop :=
  (∀ m s, s.dev.up = true → s.dev.obeys m clsOPERATE .new 0 → m.data ≠ [] → s.dev.halted = false → m.epoch.toNat = s.dev.start.epoch →
    s.dev.hPhase = hSTAGING → m.target.toNat + m.data.length ≤ 64 * gib → (s.dev.start.stage.put m.target.toNat m.data).covers 0 4096 = false →
    s.dev.start.head = [] →
    Leads (hostParts m [.start]) (.pkgPut m) s fun d => s.dev.replied d m stOK m.data.length ∧
      d.start = { s.dev.start with stage := s.dev.start.stage.put m.target.toNat m.data }) ∧
  (∀ m s, s.dev.up = true → s.dev.obeys m clsOPERATE .new 0 → m.data ≠ [] → s.dev.halted = false → m.epoch.toNat = s.dev.start.epoch →
    s.dev.admitting = true → s.dev.hPhase ≠ hSTAGING → m.target.toNat + m.data.length ≤ 64 * gib →
    Leads (hostParts m []) (.pkgPut m) s fun d => s.dev.replied d m stBUSY 0) ∧
  (∀ m e x s, s.dev.up = true → s.dev.obeys m clsOPERATE .new 0 → m.data ≠ [] → s.dev.halted = false → m.epoch.toNat = s.dev.start.epoch →
    s.dev.hPhase = hINTAKE → s.dev.start.joining = false → e ≠ 0 → e < 2 ^ 17 → m.target.toNat = 2 ^ 63 + e * 2 ^ 32 + m.target.toNat % 2 ^ 32 →
    s.dev.takenEnts[e - 1]? = some x → m.target.toNat % 2 ^ 32 + m.data.length ≤ x.len * 4096 → s.dev.phys (x.loc + m.target.toNat % 2 ^ 32) = .hbm →
    coversRange (joinRange (m.target.toNat % 2 ^ 32) m.data.length ((Store.find? s.dev.start.intake (e - 1)).getD [])) 0 (x.len * 4096) = false →
    Leads (orBytes (x.loc + m.target.toNat % 2 ^ 32) m.data.length (hostParts m [.start])) (.pkgPut m) s fun d => s.dev.replied d m stOK m.data.length ∧
      d.bytes (x.loc + m.target.toNat % 2 ^ 32) m.data.length = m.data) ∧
  (∀ m va len i n s, s.dev.up = true → s.dev.obeys m clsOPERATE .any 0 → m.data = [] → m.arg.toNat = 3 →
    s.dev.mode.role ∉ [.banked, .quarantine] → s.dev.readable 3 m.target.toNat 8 → s.dev.readable 3 (m.target.toNat + 8) 16 →
    s.dev.virtBytes 3 m.target.toNat 8 = leBytes 8 1 → s.dev.virtBytes 3 (m.target.toNat + 8) 16 = leBytes 8 va ++ leBytes 8 len → va < 2 ^ 64 →
    len ≤ 128 + tileStoreSize → s.dev.readable 3 va len → parseImage (s.dev.virtBytes 3 va len) = (stOK, i) → i.rank = 0 → i.count = 1 →
    s.dev.freeTiles.head? = some n →
    Leads (butAreas [.savedTiles, .chans, .power, .mode, .sec, .job, .hold, .rst, .clk, .podTime, .status]) (.progLoad m) s fun d => s.dev.replied d m stOK 0 ∧
      d.tile n = ((loadedTile (s.dev.tile n) i).set TLE_CTRL_OWNER oSERVICE).set TLE_CTRL_RELAXED 0 ∧ d.tctx n = 3 ∧
      d.bytes (tileByte n i.load) i.body = ((s.dev.virtBytes 3 va len).drop 128).take i.body ∧
      d.mmu.programs = s.dev.mmu.programs ++ [{ ctx := 3, session := m.slot.val, tiles := [n] }]) ∧
  (∀ m s, s.dev.up = true → s.dev.obeys m clsOPERATE .any 0 → m.data = [] → m.arg.toNat = 3 →
    s.dev.readable 3 m.target.toNat 8 → (numAt (s.dev.virtBytes 3 m.target.toNat 8) 0 8 = 0 ∨ 256 < numAt (s.dev.virtBytes 3 m.target.toNat 8) 0 8) →
    Leads (hostParts m []) (.progLoad m) s fun d => s.dev.replied d m stLENGTH 0) ∧
  (∀ m c s, s.dev.up = true → s.dev.obeys m clsOPERATE .any 0 → m.data = [] → m.arg.toNat = 0 → s.dev.inTransit = false →
    s.dev.mode.role = .guest → s.dev.guestBusy 0 = false → s.dev.guestCtx 0 = some c → c < 64 → s.dev.on (MMU_ROOT_VALID c) = false →
    Leads (areas [.regs, .memory, .checks, .hosts, .tallies, .mode, .mmu, .out]) (.guestAdmit m) s fun d => s.dev.replied d m stOK c ∧ d.on (MMU_ROOT_VALID c) = true ∧
      d.mmu.guests = s.dev.mmu.guests ++ [{ ctx := c, session := m.slot.val }] ∧ d.mode = s.dev.mode) ∧
  (∀ m s, s.dev.up = true → s.dev.obeys m clsOPERATE .any 0 → m.data = [] → m.arg.toNat = 0 → s.dev.inTransit = false →
    s.dev.mode.role ≠ .banked → s.dev.guestBusy 0 = true → Leads (hostParts m []) (.guestAdmit m) s fun d => s.dev.replied d m stBUSY 0) ∧
  (∀ m s, s.dev.up = true → s.dev.obeys m clsOPERATE .any 0 → m.data = [] → m.arg.toNat = 0 → s.dev.inTransit = true →
    Leads (hostParts m [.mode]) (.guestAdmit m) s fun d => d.mode = { s.dev.mode with waiting := s.dev.mode.waiting ++ [.host (.guestAdmit m) (s.dev.hNumber m.slot.val)] } ∧
      d.out = s.dev.out) ∧
  (∀ m c s, s.dev.up = true → s.dev.obeys m clsOPERATE .any 0 → m.data = [] → m.arg.toNat = c → 4 ≤ c → c < 64 →
    s.dev.mmu.guests.any (fun g => decide (g.ctx = c)) = true →
    Leads (areas [.regs, .memory, .checks, .tiles, .hosts, .tallies, .mode, .mmu, .out]) (.guestEnd m) s fun d => s.dev.replied d m stOK 0 ∧ d.on (MMU_ROOT_VALID c) = false ∧ d.get (SYN_WIN_SIZE c) = 0 ∧
      d.mmu.guests = s.dev.mmu.guests.filter (fun g => decide (g.ctx ≠ c)) ∧ d.mmu.programs = s.dev.mmu.programs.filter (fun p => decide (p.ctx ≠ c)))

/-- A host orders roles, jobs, courses and shoring. MODE enters and leaves GUEST, is BUSY in WATCH and with an HBM stack down, and waits in a
transition; JOB_ADMIT opens the staging, is BUSY, or AUTH below the epochs; TEARDOWN, COURSE (open, abandon, root, query) and SHORE
(declare, hand back) answer and act. (spec/12_host_protocol.md: Commands; spec/13_pod_operations.md: Job start, Teardown;
spec/17_modes.md: The matrix) -/
def Obligations.HostsRunJobsAndCourses : Prop :=
  (∀ m s, s.dev.up = true → s.dev.obeys m clsOPERATE .any 0 → s.dev.noListeners → m.data = [] → m.arg.toNat = Role.guest.code → s.dev.inTransit = false →
    s.dev.mode.role = .service → s.dev.mode.fw = .run → s.dev.get MEM_HBM_STAT_UP = 2 ^ 32 - 1 →
    Leads (areas [.regs, .memory, .checks, .tiles, .savedTiles, .ports, .streams, .peers, .hosts, .circ, .tallies, .mode, .mmu, .found, .obs, .out]) (.modeCommand m) s fun d => d.mode = { s.dev.mode with role := .guest, guestOn := true } ∧ s.dev.replies d m stOK 0) ∧
  (∀ m s, s.dev.up = true → s.dev.obeys m clsOPERATE .any 0 → s.dev.noListeners → m.data = [] → m.arg.toNat = Role.service.code → s.dev.inTransit = false →
    s.dev.mode.role = .guest → s.dev.mode.fw = .run → s.dev.mmu.guests = [] →
    Leads (areas [.regs, .memory, .checks, .tiles, .savedTiles, .ports, .streams, .peers, .hosts, .circ, .tallies, .mode, .mmu, .found, .obs, .out]) (.modeCommand m) s fun d => d.mode = { s.dev.mode with role := .service, guestOn := false } ∧ s.dev.replies d m stOK 0) ∧
  (∀ m s, s.dev.up = true → s.dev.obeys m clsOPERATE .any 0 → m.data = [] → m.arg.toNat < 16 → s.dev.inTransit = false →
    (s.dev.mode.role = .watch ∨ s.dev.mode.role = .service ∧ s.dev.get MEM_HBM_STAT_UP ≠ 2 ^ 32 - 1) →
    Leads (hostParts m []) (.modeCommand m) s fun d => s.dev.replied d m stBUSY 0) ∧
  (∀ m s, s.dev.up = true → s.dev.obeys m clsOPERATE .any 0 → m.data = [] → m.arg.toNat < 16 → s.dev.inTransit = true →
    Leads (hostParts m [.mode]) (.modeCommand m) s fun d => d.mode = { s.dev.mode with waiting := s.dev.mode.waiting ++ [.host (.modeCommand m) (s.dev.hNumber m.slot.val)] } ∧
      d.out = s.dev.out) ∧
  (∀ m s, s.dev.up = true → s.dev.obeys m clsOPERATE .new 0 → s.dev.get HUB_EPOCHS_MIN ≤ m.epoch.toNat → m.epoch.toNat ≤ s.dev.get HUB_EPOCHS_MAX →
    m.data.length = 48 → zeroAt m.data 32 16 = true → s.dev.inTransit = false → s.dev.mode.role ≠ .banked → s.dev.jobBusy = false →
    Leads (areas [.regs, .ports, .streams, .peers, .hosts, .circ, .tallies, .mode, .found, .obs, .start, .out]) (.jobAdmit m) s fun d => s.dev.replies d m stOK 0 ∧ d.hPhase = hSTAGING ∧
      d.start = { digest := m.data.take 32, epoch := m.epoch.toNat, joining := s.dev.on HUB_JOIN_VALID }) ∧
  (∀ m s, s.dev.up = true → s.dev.obeys m clsOPERATE .new 0 → s.dev.get HUB_EPOCHS_MIN ≤ m.epoch.toNat → m.epoch.toNat ≤ s.dev.get HUB_EPOCHS_MAX →
    m.data.length = 48 → zeroAt m.data 32 16 = true → s.dev.inTransit = false → s.dev.mode.role ≠ .banked → s.dev.jobBusy = true →
    Leads (hostParts m []) (.jobAdmit m) s fun d => s.dev.replied d m stBUSY 0) ∧
  (∀ m s, s.dev.up = true → s.dev.obeys m clsOPERATE .new 0 → s.dev.get (HST_SESS_CLASS m.slot.val) ≤ 2 → m.epoch.toNat < s.dev.get HUB_EPOCHS_MIN →
    Leads (hostParts m []) (.jobAdmit m) s fun d => s.dev.replied d m stAUTH 0) ∧
  (∀ m s, s.dev.up = true → s.dev.obeys m clsOPERATE .job 0 → m.data = [] → m.arg.toNat ≤ 1 →
    Leads (areas [.regs, .ports, .streams, .peers, .hosts, .tallies, .out]) (.teardown m) s fun d => s.dev.replies d m stOK 0 ∧
      s.dev.notified d (s.dev.get CRS_ROOT_ADDR) 0x44 (pack [(4, s.dev.epoch), (1, m.arg.toNat), (3, 0)])) ∧
  (∀ m s, s.dev.up = true → s.dev.obeys m clsOPERATE .job 0 → m.data = [] → m.arg.toNat = 0 →
    Leads (areas [.regs, .memory, .checks, .agents, .ports, .streams, .peers, .hosts, .tallies, .slots, .mmu, .sync, .sec, .course, .free, .out]) (.courseCmdOpen m) s fun d => s.dev.replies d m stOK 0 ∧ d.course = s.dev.course ∧
      s.dev.notified d (s.dev.get CRS_ROOT_ADDR) nEARLY_REQ (pack [(2, s.dev.get CRS_ROOT_MEMBER), (1, 0), (1, 0), (8, s.dev.topStep)])) ∧
  (∀ m s, s.dev.up = true → s.dev.obeys m clsOPERATE .job 0 → s.dev.noListeners → m.data = [] → m.arg.toNat = 1 → s.dev.inCourse = true → s.dev.voted = false →
    Leads (areas [.regs, .memory, .checks, .agents, .ports, .streams, .peers, .hosts, .tallies, .slots, .mmu, .sync, .sec, .course, .shore, .free, .counters, .out]) (.courseCmdAbandon m) s fun d => s.dev.replies d m stOK 0 ∧ d.abandoned vORDER ∧ d.voted = true ∧
      s.dev.notified d (s.dev.get CRS_ROOT_ADDR) nVOTE (s.dev.noVote s.dev.cur vORDER)) ∧
  (∀ m s, s.dev.up = true → s.dev.obeys m clsOPERATE .job 0 → m.data = [] → m.arg.toNat = 2 → m.target.toNat = s.dev.ownAddr →
    s.dev.ownAddr ∈ s.dev.job.members → s.dev.isRoot = false →
    Leads (areas [.regs, .memory, .checks, .agents, .ports, .streams, .peers, .hosts, .tallies, .slots, .mmu, .sync, .sec, .course, .shore, .free, .counters, .out]) (.courseCmdRoot m) s fun d => s.dev.replies d m stOK 0 ∧ d.get CRS_ROOT_ADDR = s.dev.ownAddr ∧ d.isRoot = true ∧ d.course.taking = true) ∧
  (∀ m s, s.dev.up = true → s.dev.obeys m clsOPERATE .job 0 → m.data = [] → m.arg.toNat = 2 → m.target.toNat ≠ s.dev.ownAddr →
    m.target.toNat ∈ s.dev.job.members → m.target.toNat < 2 ^ CRS_ROOT_ADDR.width → s.dev.sessionTo m.target.toNat ≠ none →
    Leads (areas [.regs, .memory, .checks, .agents, .ports, .streams, .peers, .hosts, .tallies, .slots, .mmu, .sync, .sec, .course, .free, .out]) (.courseCmdRoot m) s fun d => s.dev.replies d m stOK 0 ∧ d.get CRS_ROOT_ADDR = m.target.toNat ∧ d.isRoot = false) ∧
  (∀ m s, s.dev.up = true → s.dev.obeys m clsOPERATE .job 0 → m.data = [] → m.arg.toNat = 2 → m.target.toNat ∉ s.dev.job.members →
    Leads (hostParts m []) (.courseCmdRoot m) s fun d => s.dev.replied d m stFAULT 0) ∧
  (∀ m s, s.dev.up = true → s.dev.obeys m clsOPERATE .job 16 → m.data = [] → m.arg.toNat = 3 →
    Leads (hostParts m [.reg CRS_STAT_STATE.addr]) (.courseCmdQuery m) s fun d =>
      s.dev.replied d m stOK 16 (leBytes 8 (s.dev.word CRS_COURSE_CUR.addr).toNat ++ leBytes 8 (s.dev.word CRS_STAT_STATE.addr).toNat) ∧
      d.get CRS_STAT_STATE = if s.dev.kState ∈ [kCOMMITTED, kABANDONED] then 0 else s.dev.kState) ∧
  (∀ m n s, s.dev.up = true → s.dev.obeys m clsOPERATE .job 0 → s.dev.noListeners → m.data = [] → n < 8 → m.arg.toNat = 16 * n → s.dev.slotState n = sLIVE →
    Leads (butAreas [.chans, .watches, .power, .sec, .job, .wit, .start, .hold, .rst, .clk, .podTime, .status]) (.shoreDeclare m) s fun d => s.dev.replies d m stOK 0 ∧ d.declared n 4) ∧
  (∀ m s, s.dev.up = true → s.dev.obeys m clsOPERATE .job 0 → m.data = [] → m.arg.toNat = 1 → s.dev.shore.slot = none →
    Leads (hostParts m []) (.shoreHandback m) s fun d => s.dev.replied d m stBUSY 0) ∧
  (∀ m n s, s.dev.up = true → s.dev.obeys m clsOPERATE .job 0 → m.data = [] → m.arg.toNat = 1 → s.dev.shore.slot = some n →
    n < 8 → s.dev.slotState n = sSHORED → s.dev.phase = phRUNNING → s.dev.shore.handback = none → s.dev.shrCfg SHR_CFG_HB_LIVE = 0 →
    uSlot n ∉ s.dev.rst.out → n ∉ s.dev.rst.cycle →
    Leads (butAreas [.chans, .watches, .power, .sec, .job, .wit, .start, .hold, .rst, .clk, .podTime, .status]) (.shoreHandback m) s fun d => s.dev.replies d m stOK 0 ∧ d.on SHR_CTRL_HANDBACK = true ∧ d.slotState n = sREINT ∧ d.phase = phCOPYING ∧
      d.shore.handback.map (fun h => (h.slot, h.live)) = some (n, false) ∧ bitOf (d.get RST_PWR_EN) n = true)

/-- A host proposes, approves and withdraws, and uploads, accepts and boots firmware. AUTHZ of a change is accepted as pending, BUSY beside
another, or refused AUTH with its event, or LENGTH; of a reset it starts the E3, travels the ring, or is refused; FW_PUT stages or is
BUSY; FW_ACCEPT is FAULT, AUTH, LENGTH or makes the image the flash's; ATTEST answers its report or is BUSY. Signature checks are Config's
opaque functions (log entry 9). (spec/15_security.md: Two-key changes, Boot and firmware, Attestation; spec/12_host_protocol.md: Commands) -/
def Obligations.HostsChangeAuthorityAndFirmware : Prop :=
  (∀ m s, s.dev.up = true → s.dev.obeys m clsOPERATE .any 0 → s.dev.noListeners → 128 ≤ m.data.length → aKind m.data = 1 → s.dev.sec.pending = none →
    Leads (butAreas [.power, .job, .start, .hold, .clk, .podTime, .status]) (.authzChange m) s fun d =>
      (s.dev.authzStatus m.data (s.dev.get SEC_PSEQ_SEQ) = stOK → s.dev.replies d m stOK 1 ∧ d.on SEC_STAT_PENDING = true ∧ d.on SEC_EVT_PENDING = true ∧
        d.sec.pending.map (fun p => (p.record, p.digest, p.role)) = some (aRecord m.data, aDigest m.data, aRole m.data)) ∧
      (s.dev.authzStatus m.data (s.dev.get SEC_PSEQ_SEQ) ≠ stOK →
        s.dev.replies d m (s.dev.authzStatus m.data (s.dev.get SEC_PSEQ_SEQ)) 0 ∧ d.sec = s.dev.sec ∧
        (s.dev.authzStatus m.data (s.dev.get SEC_PSEQ_SEQ) = stAUTH → d.on SEC_EVT_REFUSED = true))) ∧
  (∀ m p s, s.dev.up = true → s.dev.obeys m clsOPERATE .any 0 → s.dev.noListeners → 128 ≤ m.data.length → aKind m.data = 1 → s.dev.sec.pending = some p →
    p.digest ≠ aDigest m.data →
    Leads (butAreas [.power, .job, .start, .hold, .clk, .podTime, .status]) (.authzChange m) s fun d => d.sec = s.dev.sec ∧
      (s.dev.authzStatus m.data (s.dev.get SEC_PSEQ_SEQ) = stOK → s.dev.replies d m stBUSY 0)) ∧
  (∀ m s, s.dev.up = true → s.dev.obeys m clsOPERATE .any 0 → m.data.length < 128 →
    s.dev.noListeners →
    Leads (hostParts m [.reg SEC_EVT_REFUSED.addr]) (.authzChange m) s fun d =>
      (s.dev.authzStatus m.data (s.dev.get SEC_PSEQ_SEQ) = stAUTH → s.dev.replied d m stAUTH 0 ∧ d.on SEC_EVT_REFUSED = true) ∧
      (s.dev.authzStatus m.data (s.dev.get SEC_PSEQ_SEQ) ≠ stAUTH → s.dev.replied d m stLENGTH 0)) ∧
  (∀ m s, s.dev.up = true → s.dev.obeys m clsOPERATE .any 0 → s.dev.noListeners → 128 ≤ m.data.length → aKind m.data = 2 → aTarget m.data = s.dev.ownAddr →
    s.dev.rst.active = [] → s.dev.mode.role ≠ .banked →
    Leads (butAreas [.power, .job, .start, .hold, .clk, .podTime, .status]) (.authzReset m) s fun d =>
      (s.dev.authzStatus m.data (s.dev.get SEC_RRSEQ_SEQ) = stOK → s.dev.on SEC_POLICY_RING_RESET = true →
        s.dev.replies d m stOK 0 ∧ d.get SEC_RRSEQ_SEQ = aSeq m.data ∧ d.rst.active = [⟨uCHIP, 3, rcRING, false⟩]) ∧
      (s.dev.authzStatus m.data (s.dev.get SEC_RRSEQ_SEQ) = stOK → s.dev.on SEC_POLICY_RING_RESET = false → s.dev.replies d m stAUTH 0 ∧ d.rst = s.dev.rst) ∧
      (s.dev.authzStatus m.data (s.dev.get SEC_RRSEQ_SEQ) ≠ stOK →
        s.dev.replies d m (s.dev.authzStatus m.data (s.dev.get SEC_RRSEQ_SEQ)) 0 ∧ d.rst = s.dev.rst)) ∧
  (∀ m s, s.dev.up = true → s.dev.obeys m clsOPERATE .any 0 → 128 ≤ m.data.length → m.data.length ≤ 1016 → aKind m.data = 2 → aTarget m.data ≠ s.dev.ownAddr →
    s.dev.on RNG_ADDR_ENUM = true → s.dev.inRack (aTarget m.data) = true →
    Leads (hostParts m [.sec]) (.authzReset m) s fun d => s.dev.replies d m stOK 0 ∧
      s.dev.framed d (frameBytes 5 0 0 (aTarget m.data) s.dev.ownAddr (pack [(1, 0), (1, 1), (2, 0), (4, s.dev.sec.nextFrag)] ++ m.data))) ∧
  (∀ m s, s.dev.up = true → s.dev.obeys m clsOPERATE .any 0 → 128 ≤ m.data.length → aKind m.data = 2 → aTarget m.data ≠ s.dev.ownAddr →
    s.dev.inRack (aTarget m.data) = false → Leads (hostParts m []) (.authzReset m) s fun d => s.dev.replied d m stFAULT 0) ∧
  (∀ m s, s.dev.up = true → s.dev.obeys m clsSERVICE .any 0 → m.data ≠ [] → m.target.toNat + m.data.length ≤ stageTop → s.dev.halted = false →
    s.dev.mode.role = .service →
    Leads (hostParts m [.sec]) (.fwPut m) s fun d => s.dev.replied d m stOK m.data.length ∧
      d.sec = { s.dev.sec with stage := s.dev.sec.stage.put m.target.toNat m.data }) ∧
  (∀ m s, s.dev.up = true → s.dev.obeys m clsSERVICE .any 0 → m.data ≠ [] → m.target.toNat + m.data.length ≤ stageTop → s.dev.mode.role ≠ .service →
    Leads (hostParts m []) (.fwPut m) s fun d => s.dev.replied d m stBUSY 0) ∧
  (∀ m img s, s.dev.up = true → s.dev.obeys m clsSERVICE .any 0 → s.dev.noListeners → m.data.length = 32 → s.dev.stagedImage = some img →
    Leads (areas [.regs, .tiles, .ports, .streams, .peers, .hosts, .circ, .tallies, .mode, .sync, .found, .obs, .sec, .shore, .rst, .free, .out]) (.fwAccept m) s fun d =>
      (s.dev.imageCause img ≠ 0 → s.dev.replied d m stAUTH 0 ∧ d.sec = s.dev.sec) ∧
      (s.dev.imageCause img = 0 → digest img ≠ m.data → s.dev.replied d m stFAULT 0 ∧ d.sec = s.dev.sec) ∧
      (digest img = m.data → s.dev.imageCause img = 0 → s.dev.replies d m stOK 0 ∧ d.on SEC_EVT_FW_ACCEPTED = true ∧
        d.sec = { s.dev.sec with flash := some (img.take (imageLen img)), retained := img.take (imageLen img), stage := {} })) ∧
  (∀ m s, s.dev.up = true → s.dev.obeys m clsSERVICE .any 0 → m.data.length = 32 → s.dev.stagedImage = none →
    Leads (hostParts m []) (.fwAccept m) s fun d => s.dev.replied d m stLENGTH 0) ∧
  (∀ m s, s.dev.up = true → s.dev.obeys m 0 .any 8192 → s.dev.noListeners → m.data.length = 32 → s.dev.on SEC_STAT_WK_READY = true → s.dev.get SEC_LEAF_WK_USED + 64 < 32768 →
    Leads (areas [.regs, .hosts, .tallies, .sec, .out]) (.attest m) s fun d => ∃ id p,
      (s.dev.respPackets m stOK (s.dev.attestReport m.data ++ id).length (s.dev.attestReport m.data ++ id)).head? = some p ∧
      s.dev.datagram m.slot.val 0 p ∈ d.out.drop s.dev.out.length) ∧
  (∀ m s, s.dev.up = true → s.dev.obeys m 0 .any 0 → m.data.length = 32 → s.dev.on SEC_STAT_WK_READY = false →
    Leads (hostParts m []) (.attest m) s fun d => s.dev.replied d m stBUSY 0)

/-- Datagrams are opened, ordered, acknowledged, retransmitted. A datagram that the addresses, the port and the frame rules let in opens or is
counted by TAG_FAIL, advances the session and its sequence; a repeated counter, no session and a wrong CRC are counted, and one that the
rules keep out changes nothing; acknowledgements drop what they cover or resend the next; the timers acknowledge, retransmit, and free the
session at the limit. Decryption is Config's opaque function (log entry 9). (spec/12_host_protocol.md: Datagrams, Sequence,
acknowledgement and windows) -/
def Obligations.HostDatagramsAndAcknowledgements : Prop :=
  (∀ e n b s, s.dev.up = true → s.dev.on RNG_ADDR_ENUM = true → s.dev.takesUdp e = true → n < 16 → s.dev.hState n ≠ hFREE → s.dev.hNumber n ≠ 0 → numAt b 0 4 = s.dev.hNumber n →
    84 ≤ b.length → b.length ≤ 8276 → (s.dev.host n).ctrIn < numAt b 8 8 → numAt b 8 8 < 2 ^ 32 → (s.dev.host n).ctrOut + 1 < 2 ^ 32 →
    (s.dev.host n).heldSeqs = [] → 16 ≤ (s.dev.host n).window →
    Leads (areas [.regs, .hosts, .tallies, .out]) (.setoutDatagram e b) s fun d =>
      (s.dev.opened n b = none → d.hosts = s.dev.hosts ∧ d.get HST_COUNT_TAG_FAIL = satAdd HST_COUNT_TAG_FAIL.width (s.dev.get HST_COUNT_TAG_FAIL) 1) ∧
      ∀ inner, s.dev.opened n b = some inner → bitOf (numAt inner 2 2) 2 = false →
        d.hState n = hOPEN ∧ d.get (HST_SESS_PORT n) = e.port.toNat ∧ (d.host n).ctrIn = numAt b 8 8 ∧
        ((d.host n).srcAddr, (d.host n).srcPort) = (e.addr.toNat, e.udp.toNat) ∧
        (s.dev.innerOk n inner → numAt inner 1 1 ≠ 4 → numAt inner 12 4 = s.dev.get (HST_SESS_SEQ_IN n) →
          d.get (HST_SESS_SEQ_IN n) = (s.dev.get (HST_SESS_SEQ_IN n) + 1) % 2 ^ 32)) ∧
  (∀ e n b s, s.dev.up = true → s.dev.on RNG_ADDR_ENUM = true → s.dev.takesUdp e = true → n < 16 → s.dev.hState n ≠ hFREE → s.dev.hNumber n ≠ 0 → numAt b 0 4 = s.dev.hNumber n →
    84 ≤ b.length → b.length ≤ 8276 → numAt b 8 8 = (s.dev.host n).ctrIn →
    Leads (only [.reg HST_COUNT_REPLAY.addr, .reg HST_COUNT_TAG_FAIL.addr, .tally 1472]) (.setoutDatagram e b) s fun d =>
      (s.dev.opened n b).isSome = true → d.get HST_COUNT_REPLAY = satAdd HST_COUNT_REPLAY.width (s.dev.get HST_COUNT_REPLAY) 1) ∧
  (∀ e b s, s.dev.up = true → s.dev.on RNG_ADDR_ENUM = true → s.dev.takesUdp e = true → numAt b 0 4 ≠ 0 →
    (b.length < 84 ∨ 8276 < b.length ∨ s.dev.hState (numAt b 0 4 % 16) = hFREE ∨ s.dev.hNumber (numAt b 0 4 % 16) ≠ numAt b 0 4) →
    Leads (only [.reg HST_COUNT_NO_SESSION.addr, .tally 1472]) (.setoutDatagram e b) s fun d =>
      d.get HST_COUNT_NO_SESSION = satAdd HST_COUNT_NO_SESSION.width (s.dev.get HST_COUNT_NO_SESSION) 1) ∧
  (∀ e b s, s.dev.up = true → s.dev.takesUdp e = false → Leads (only []) (.setoutDatagram e b) s fun d => d = s.dev) ∧
  (∀ e b s, s.dev.up = true → s.dev.on RNG_ADDR_ENUM = true → s.dev.takesUdp e = true → numAt b 0 4 = 0 → 68 ≤ b.length → b.length ≤ 8276 → b.length = 68 + numAt b 40 2 →
    numAt b (64 + numAt b 40 2) 4 ≠ crc32c ((b.drop 16).take (48 + numAt b 40 2)) →
    Leads (only [.reg HST_COUNT_CRC_FAIL.addr, .tally 1472]) (.setoutDatagram e b) s fun d =>
      d.get HST_COUNT_CRC_FAIL = satAdd HST_COUNT_CRC_FAIL.width (s.dev.get HST_COUNT_CRC_FAIL) 1) ∧
  (∀ n ack s, s.dev.up = true → s.dev.hState n.val = hOPEN → (s.dev.host n.val).waiting = [] → (s.dev.host n.val).events = [] →
    Leads (only [.host n.val]) (.hostAck n ack false) s fun d => d.host n.val = { s.dev.host n.val with
      unacked := (s.dev.host n.val).unacked.filter (fun p => decide (2 ^ 31 ≤ (ack.toNat + 2 ^ 32 - p.seq) % 2 ^ 32))
      retries := if (s.dev.host n.val).unacked.any (fun p => decide ((ack.toNat + 2 ^ 32 - p.seq) % 2 ^ 32 < 2 ^ 31)) then 0
        else (s.dev.host n.val).retries }) ∧
  (∀ n ack p s, s.dev.up = true → s.dev.hState n.val = hOPEN → (s.dev.host n.val).waiting = [] → (s.dev.host n.val).events = [] →
    (s.dev.host n.val).unacked = [p] → p.seq = (ack.toNat + 1) % 2 ^ 32 → (s.dev.host n.val).ctrOut + 1 < 2 ^ 32 →
    (∀ t, (s.dev.host n.val).lastResend = some t → t + s.dev.rtoTicks ≤ s.dev.clk) →
    Leads (only [.host n.val, .tally 1473, .tally 1479, .out]) (.hostAck n ack true) s fun d =>
      d.out = s.dev.out ++ [s.dev.datagram n.val 0 p] ∧ (d.host n.val).lastResend = some s.dev.clk ∧ (d.host n.val).unacked = [p] ∧
      (d.host n.val).ctrOut = (s.dev.host n.val).ctrOut + 1) ∧
  (∀ n s, s.dev.up = true → s.dev.hState n.val = hOPEN → (s.dev.host n.val).sinceAck ≠ 0 → (s.dev.host n.val).ctrOut + 1 < 2 ^ 32 →
    Leads (only [.host n.val, .tally 1473, .out]) (.ackDelayTimer n) s fun d =>
      d.out = s.dev.out ++ [s.dev.datagram n.val 0 ⟨0, 4, 3, s.dev.epoch, 0, 0, 0, 0, 0, []⟩] ∧
      d.host n.val = { s.dev.host n.val with sinceAck := 0, ctrOut := (s.dev.host n.val).ctrOut + 1 }) ∧
  (∀ n p ps s, s.dev.up = true → s.dev.hState n.val = hOPEN → (s.dev.host n.val).unacked = p :: ps →
    (s.dev.host n.val).retries < (s.dev.host n.val).retryMax → (s.dev.host n.val).ctrOut + 1 < 2 ^ 32 →
    Leads (only [.host n.val, .tally 1473, .tally 1479, .out]) (.retransmitTimeout n) s fun d =>
      d.out = s.dev.out ++ [s.dev.datagram n.val 0 p] ∧ (d.host n.val).retries = (s.dev.host n.val).retries + 1 ∧ (d.host n.val).unacked = p :: ps) ∧
  (∀ n s, s.dev.up = true → s.dev.hState n.val = hOPEN → (s.dev.host n.val).unacked ≠ [] →
    (s.dev.host n.val).retryMax ≤ (s.dev.host n.val).retries →
    Leads (only [.host n.val, .reg (HST_SESS_STATE n.val).addr]) (.retransmitTimeout n) s fun d => d.hState n.val = hFREE ∧
      d.host n.val = { opens := (s.dev.host n.val).opens })

/-- A host session opens with its credential, or is refused, times out and goes idle. OPEN_REQ with a good credential opens in the lower of
its class and the asked one, and otherwise is AUTH; the same nonce gets the same answer; another version is UNSUPPORTED, a full table or
no working key BUSY; a session left opening or idle is freed; a stale timeout changes nothing. (spec/12_host_protocol.md: Sessions;
spec/15_security.md: Certificates and credentials) -/
def Obligations.HostSessionsOpenAndEnd : Prop :=
  (∀ e b s, s.dev.up = true → s.dev.on RNG_ADDR_ENUM = true → s.dev.takesUdp e = true → 48 ≤ b.length → (∀ n < 16, s.dev.hState n = hFREE) → s.dev.mode.fw = .run →
    s.dev.identityLeft = true → s.dev.on SEC_STAT_WK_READY = true → numAt b 0 1 = 1 →
    Leads (areas [.regs, .hosts, .tallies, .sec, .free, .out]) (.openReq e b) s fun d =>
      (∀ c, openReqOk b = true → s.dev.credential b = some c →
        d.hState 0 = hOPENING ∧ d.get (HST_SESS_CLASS 0) = min c (numAt (b.drop 48) 0 1) ∧ d.get (HST_SESS_EVENTS 0) = numAt (b.drop 48) 1 1 ∧
        d.get (HST_SESS_PORT 0) = e.port.toNat ∧ (d.host 0).opens = (s.dev.host 0).opens + 1 ∧ (d.host 0).nonce = cut_ (b.drop 48) 4 32 ∧
        (d.host 0).rsp.take 48 = openRspHeader 6608 stOK ∧ d.get SEC_LEAF_WK_USED = (s.dev.get SEC_LEAF_WK_USED + 1) % 2 ^ SEC_LEAF_WK_USED.width ∧
        d.out = s.dev.out ++ [⟨.ether, Kind.setoutPacket, [e.port.toNat, e.addr.toNat, e.udp.toNat, s.dev.vlanTag], handshake (d.host 0).rsp⟩]) ∧
      ((openReqOk b = false ∨ s.dev.credential b = none) →
        d.hosts = s.dev.hosts ∧ d.out = s.dev.out ++ [⟨.ether, Kind.setoutPacket, [e.port.toNat, e.addr.toNat, e.udp.toNat, s.dev.vlanTag],
          handshake (openRspHeader 8 stAUTH ++ List.replicate 8 0)⟩])) ∧
  (∀ e b n s, s.dev.up = true → s.dev.on RNG_ADDR_ENUM = true → s.dev.takesUdp e = true → 48 ≤ b.length → n < 16 → s.dev.hState n ≠ hFREE →
    (s.dev.host n).nonce = cut_ (b.drop 48) 4 32 → (∀ k < n, s.dev.hState k = hFREE ∨ (s.dev.host k).nonce ≠ cut_ (b.drop 48) 4 32) →
    Leads (only [.tally 1473, .out]) (.openReq e b) s fun d =>
      d.out = s.dev.out ++ [⟨.ether, Kind.setoutPacket, [e.port.toNat, e.addr.toNat, e.udp.toNat, s.dev.vlanTag], handshake (s.dev.host n).rsp⟩]) ∧
  (∀ e b s, s.dev.up = true → s.dev.on RNG_ADDR_ENUM = true → s.dev.takesUdp e = true → 48 ≤ b.length → (∀ n < 16, s.dev.hState n = hFREE) → numAt b 0 1 ≠ 1 →
    Leads (only [.tally 1473, .out]) (.openReq e b) s fun d =>
      d.out = s.dev.out ++ [⟨.ether, Kind.setoutPacket, [e.port.toNat, e.addr.toNat, e.udp.toNat, s.dev.vlanTag],
        handshake (openRspHeader 8 (if openReqOk b = true ∧ (s.dev.credential b).isSome = true then stUNSUPPORTED else stAUTH) ++ List.replicate 8 0)⟩]) ∧
  (∀ e b s, s.dev.up = true → s.dev.on RNG_ADDR_ENUM = true → s.dev.takesUdp e = true → 48 ≤ b.length →
    (∀ n < 16, s.dev.hState n = hFREE ∨ (s.dev.host n).nonce ≠ cut_ (b.drop 48) 4 32) → s.dev.mode.fw = .run → numAt b 0 1 = 1 →
    (s.dev.sessMax ≤ s.dev.hostSessions ∨ s.dev.on SEC_STAT_WK_READY = false) →
    Leads (only [.tally 1473, .out]) (.openReq e b) s fun d =>
      d.out = s.dev.out ++ [⟨.ether, Kind.setoutPacket, [e.port.toNat, e.addr.toNat, e.udp.toNat, s.dev.vlanTag],
        handshake (openRspHeader 8 (if openReqOk b = true ∧ (s.dev.credential b).isSome = true then stBUSY else stAUTH) ++ List.replicate 8 0)⟩]) ∧
  (∀ n s, s.dev.up = true → s.dev.hState n.val = hOPENING →
    Leads (only [.host n.val, .reg (HST_SESS_STATE n.val).addr]) (.hostSessionOpenTimeout n) s fun d => d.hState n.val = hFREE ∧
      d.host n.val = { opens := (s.dev.host n.val).opens }) ∧
  (∀ n s, s.dev.up = true → s.dev.hState n.val = hOPEN → (s.dev.host n.val).idleS ≠ 0 →
    Leads (only [.host n.val, .reg (HST_SESS_STATE n.val).addr]) (.hostSessionIdle n) s fun d => d.hState n.val = hFREE ∧
      d.host n.val = { opens := (s.dev.host n.val).opens }) ∧
  (∀ n s, s.dev.up = true → s.dev.hState n.val ≠ hOPENING → Leads (only []) (.hostSessionOpenTimeout n) s fun d => d = s.dev)

/-- Neighbour solicitations, ARP and echo requests are answered for own addresses. Each is answered with its own kind, addresses and data
where the frame is whole, at most 9,216 bytes and of the port's VLAN, and the address family is enabled, and otherwise nothing changes.
(spec/12_host_protocol.md: Ethernet attachment) -/
def Obligations.TheEthernetControlPlaneAnswers : Prop :=
  (∀ e vid target s, s.dev.up = true → s.dev.vlanOk vid = true → e.len ≤ 9216 → e.whole = true → s.dev.on HST_NET_IPV6 = true →
    (target.toNat = linkLocal e.port ∨ (target ≠ 0 ∧ target = s.dev.word HST_IP6_HI_ADDR.addr ++ s.dev.word HST_IP6_LO_ADDR.addr)) →
    Leads (only [.out]) (.neighbourSolicitation e vid target) s fun d => d.out = s.dev.out ++
      [⟨.ether, Kind.etherReply, [136, e.port.toNat, e.addr.toNat, target.toNat, Config.macAddress.toNat + e.port.toNat, s.dev.vlanTag], []⟩]) ∧
  (∀ e vid target s, s.dev.up = true → s.dev.vlanOk vid = true → e.len ≤ 9216 → e.whole = true → s.dev.on HST_NET_IPV4 = true → target.toNat = s.dev.get HST_IP4_ADDR →
    Leads (only [.out]) (.arpRequest e vid target) s fun d => d.out = s.dev.out ++
      [⟨.ether, Kind.etherReply, [2, e.port.toNat, e.addr.toNat, target.toNat, Config.macAddress.toNat + e.port.toNat, s.dev.vlanTag], []⟩]) ∧
  (∀ e vid target data s, s.dev.up = true → s.dev.vlanOk vid = true → e.len ≤ 9216 → e.whole = true → s.dev.on HST_NET_IPV6 = true →
    (target.toNat = linkLocal e.port ∨ (target ≠ 0 ∧ target = s.dev.word HST_IP6_HI_ADDR.addr ++ s.dev.word HST_IP6_LO_ADDR.addr)) →
    Leads (only [.out]) (.echoRequest e vid true target data) s fun d => d.out = s.dev.out ++
      [⟨.ether, Kind.etherReply, [129, e.port.toNat, e.addr.toNat, target.toNat, Config.macAddress.toNat + e.port.toNat, s.dev.vlanTag], data⟩]) ∧
  (∀ e vid target data s, s.dev.up = true → s.dev.vlanOk vid = true → e.len ≤ 9216 → e.whole = true → s.dev.on HST_NET_IPV4 = true → target.toNat = s.dev.get HST_IP4_ADDR →
    Leads (only [.out]) (.echoRequest e vid false target data) s fun d => d.out = s.dev.out ++
      [⟨.ether, Kind.etherReply, [0, e.port.toNat, e.addr.toNat, target.toNat, Config.macAddress.toNat + e.port.toNat, s.dev.vlanTag], data⟩]) ∧
  (∀ e vid target s, s.dev.up = true → (9216 < e.len ∨ e.whole = false ∨ s.dev.vlanOk vid = false ∨ s.dev.on HST_NET_IPV6 = false) →
    Leads (only []) (.neighbourSolicitation e vid target) s fun d => d = s.dev) ∧
  (∀ e vid target s, s.dev.up = true → (9216 < e.len ∨ e.whole = false ∨ s.dev.vlanOk vid = false ∨ s.dev.on HST_NET_IPV4 = false ∨ target.toNat ≠ s.dev.get HST_IP4_ADDR) →
    Leads (only []) (.arpRequest e vid target) s fun d => d = s.dev) ∧
  (∀ e vid v6 target data s, s.dev.up = true → (9216 < e.len ∨ e.whole = false ∨ s.dev.vlanOk vid = false) →
    Leads (only []) (.echoRequest e vid v6 target data) s fun d => d = s.dev)

/-- A register write keeps each field's access rule, and answers its status. A plain register takes the write by each field's access type with
OK, or AUTH where it touches a Protection Set field; a misaligned address is FAULT; registers 0x218, 0x80028, 0x80030 and 0x80068 are not
written during a job, the UDP port not with sessions open; S registers of a tile that does not run are written, and no register of a
running one (BUSY). (spec/00_scope.md: Registers; spec/15_security.md: The Protection Set; spec/08_lathe_isa.md: Registers) -/
def Obligations.RegistersAreWrittenByTheirRules : Prop :=
  (∀ a v s, s.dev.up = true → plainReg a.toNat → touchesPK ctlRows a.toNat (s.dev.word a.toNat) v = false →
    Leads (only [.reg a.toNat, .status]) (.registerWrite .ozmund a v) s fun d => s.dev.wroteReg d a.toNat v ∧ d.status = stOK) ∧
  (∀ a v s, s.dev.up = true → plainReg a.toNat → touchesPK ctlRows a.toNat (s.dev.word a.toNat) v = true →
    Leads (only [.reg a.toNat, .status]) (.registerWrite .ozmund a v) s fun d => s.dev.wroteReg d a.toNat v ∧ d.status = stAUTH) ∧
  (∀ a v s, s.dev.up = true → a.toNat % 8 ≠ 0 → Leads (only [.status]) (.registerWrite .ozmund a v) s fun d => d.status = stFAULT) ∧
  (∀ v s, s.dev.up = true → s.dev.epoch = 0 →
    Leads (only [.reg 0x218, .status]) (.registerWrite .ozmund 0x218 v) s fun d => s.dev.wroteReg d 0x218 v) ∧
  (∀ v s, s.dev.up = true → s.dev.epoch ≠ 0 → Leads (only [.status]) (.registerWrite .ozmund 0x218 v) s fun d => d.status = stBUSY) ∧
  (∀ a v s, s.dev.up = true → a.toNat ∈ [0x80028, 0x80030, 0x80068] → s.dev.epoch = 0 →
    Leads (only [.reg a.toNat, .status]) (.registerWrite .ozmund a v) s fun d => s.dev.wroteReg d a.toNat v) ∧
  (∀ a v s, s.dev.up = true → a.toNat ∈ [0x80028, 0x80030, 0x80068] → s.dev.epoch ≠ 0 →
    Leads (only [.status]) (.registerWrite .ozmund a v) s fun d => d.status = stOK) ∧
  (∀ v s, s.dev.up = true → (HST_CFG_UDP_PORT.of v = s.dev.get HST_CFG_UDP_PORT ∨ s.dev.hostSessions = 0) →
    Leads (only [.reg HST_CFG_UDP_PORT.addr, .status]) (.registerWrite .ozmund 0x200000 v) s fun d => s.dev.wroteReg d 0x200000 v ∧ d.status = stOK) ∧
  (∀ v s, s.dev.up = true → HST_CFG_UDP_PORT.of v ≠ s.dev.get HST_CFG_UDP_PORT → s.dev.hostSessions ≠ 0 →
    Leads (only [.status]) (.registerWrite .ozmund 0x200000 v) s fun d => d.status = stBUSY) ∧
  (∀ (t : TileId) a v s, s.dev.up = true → a.toNat = 0x400000 + 0x4000 * t.val + 0x400 + a.toNat % 0x400 → a.toNat % 0x400 < 0x100 → a.toNat % 8 = 0 →
    (s.dev.tile t.val).state ≠ tRUNNING →
    Leads (only [.tile t.val, .status]) (.registerWrite .ozmund a v) s fun d => d.status = stOK ∧
      (d.tile t.val).sReg (a.toNat % 0x400 / 8) = v ∧ ∀ k < 32, k ≠ a.toNat % 0x400 / 8 → (d.tile t.val).sReg k = (s.dev.tile t.val).sReg k) ∧
  (∀ (t : TileId) a v s, s.dev.up = true → a.toNat = 0x400000 + 0x4000 * t.val + 0x400 + a.toNat % 0x400 → a.toNat % 0x400 < 0x1C0 → a.toNat % 8 = 0 →
    (s.dev.tile t.val).state = tRUNNING → Leads (only [.status]) (.registerWrite .ozmund a v) s fun d => d.status = stBUSY)

/-- An unassigned address reads as 0, ignores writes and is OK; beyond 0x7F_FFFF is FAULT. For every address that no register occupies,
reading gives 0 with OK and a write changes nothing but the status, OK; beyond 0x7F_FFFF both are FAULT. The same holds through REG_RD and
REG_WR of a host. (R12) -/
def Obligations.UnassignedAddressesReadZero : Prop :=
  (∀ a (d : Dev), d.ctlImplemented → unoccupied a → d.readReg a = (0, stOK)) ∧
  (∀ a (d : Dev), 0x7FFFFF < a → (d.readReg a).2 = stFAULT) ∧
  (∀ a v s, s.dev.up = true → unoccupied a.toNat → Leads (only [.status]) (.registerWrite .ozmund a v) s fun d => d.status = stOK) ∧
  (∀ a v s, s.dev.up = true → 0x7FFFFF < a.toNat → Leads (only [.status]) (.registerWrite .ozmund a v) s fun d => d.status = stFAULT) ∧
  (∀ m s, s.dev.ctlImplemented → s.dev.up = true → s.dev.obeys m 0 .any 8 → m.data = [] → m.arg = 1 → unoccupied m.target.toNat →
    Leads (hostParts m []) (.regRd m) s fun d => s.dev.replied d m stOK 1 (List.replicate 8 0)) ∧
  (∀ m s, s.dev.up = true → s.dev.obeys m clsOPERATE .any 0 → m.data.length = 8 → unoccupied m.target.toNat →
    Leads (hostParts m [.status]) (.regWr m) s fun d => s.dev.replied d m stOK 1) ∧
  (∀ m s, s.dev.up = true → s.dev.obeys m clsOPERATE .any 0 → m.data.length = 8 → 0x7FFFFF < m.target.toNat →
    Leads (hostParts m [.status]) (.regWr m) s fun d => s.dev.replied d m stFAULT 0)

/-- SCAN answers a reserved chain UNSUPPORTED, a range past the end LENGTH, length 0 OK with no data, else BUSY or the bits. For a host of
class SERVICE: chain, offset and length are read from ARG in 64-byte units; during a halt the answer carries the bits of the range. (R413) -/
def Obligations.ScanAnswersByChainAndRange : Prop :=
  (∀ m len s, s.dev.up = true → s.dev.obeys m clsSERVICE .any (64 * argAt m 40 24) → m.data = [] → s.dev.halted = true →
    chainLen (argAt m 0 16) = some len → 64 * (argAt m 16 24 + argAt m 40 24) ≤ len →
    Leads (hostParts m []) (.scan m) s fun d =>
      s.dev.replied d m stOK (64 * argAt m 40 24) (s.dev.scan (argAt m 0 16) (64 * argAt m 16 24) (64 * argAt m 40 24))) ∧
  (∀ m s, s.dev.up = true → s.dev.obeys m clsSERVICE .any 0 → m.data = [] → chainLen (argAt m 0 16) = none →
    Leads (hostParts m []) (.scan m) s fun d => s.dev.replied d m stUNSUPPORTED 0) ∧
  (∀ m len s, s.dev.up = true → s.dev.obeys m clsSERVICE .any 0 → m.data = [] → chainLen (argAt m 0 16) = some len →
    len < 64 * (argAt m 16 24 + argAt m 40 24) →
    Leads (hostParts m []) (.scan m) s fun d => s.dev.replied d m stLENGTH 0) ∧
  (∀ m len s, s.dev.up = true → s.dev.obeys m clsSERVICE .any 0 → m.data = [] → s.dev.halted = true → chainLen (argAt m 0 16) = some len →
    argAt m 40 24 = 0 → 64 * argAt m 16 24 ≤ len →
    Leads (hostParts m []) (.scan m) s fun d => s.dev.replied d m stOK 0) ∧
  (∀ m len s, s.dev.up = true → s.dev.obeys m clsSERVICE .any 0 → m.data = [] → s.dev.halted = false → chainLen (argAt m 0 16) = some len →
    64 * (argAt m 16 24 + argAt m 40 24) ≤ len →
    Leads (hostParts m []) (.scan m) s fun d => s.dev.replied d m stBUSY 0)

/-- A step is exec of the command in front, on the state with the queue's rest. For every command c, queue rest cs and block d: step with c in
front is exec c with the rest cs. The queue is the model's (log entry 1). (spec/00_scope.md: The Ozmund in figures) -/
def Obligations.StepTakesTheCommandInFront : Prop :=
  ∀ c cs d, step { dev := d, pending := c :: cs } = exec c { dev := d, pending := cs }

/-- With no command waiting a step lets one clock period pass, or takes a command that waited. The model's choice (log entry 2): with power
good, and no declaration or displaced program due, the clock, Pod Time, operating seconds and the rate limit's second move on, without it
nothing changes; where a frozen or deferred command is ready, that command is carried out (stated without power). (spec/18_package.md:
Clocks; spec/16_observability.md: Pod Time) -/
def Obligations.AnIdleBlockLetsAPeriodPass : Prop :=
  (∀ d, d.power.pwrok = true → d.nothingDue → (d.halted = true ∨ d.obs.frozen = []) → d.hostReady = none → (d.clk + 1) % ticksPerSecond ≠ 0 →
    ∃ e, step { dev := d, pending := [] } = .next { dev := e, pending := [] } ∧ (∀ p, only [.clk, .podTime, .obs] p = false → d.alike e p) ∧
      e.clk = d.clk + 1 ∧
      e.podTime = (if d.obs.withhold = false ∧ d.obs.disciplined = true then d.podTime + 1 else d.podTime) ∧ e.obs = { d.obs with withhold := false }) ∧
  (∀ d, d.power.pwrok = true → d.nothingDue → (d.halted = true ∨ d.obs.frozen = []) → d.hostReady = none → (d.clk + 1) % ticksPerSecond = 0 →
    ∃ e, step { dev := d, pending := [] } = .next { dev := e, pending := [] } ∧
      (∀ p, areas [.regs, .clk, .podTime, .obs] p = false → d.alike e p) ∧ e.clk = d.clk + 1 ∧
      e.get DST_LIFE_SECONDS = satAdd DST_LIFE_SECONDS.width (d.get DST_LIFE_SECONDS) 1 ∧
      e.obs.rateCount = if d.obs.notMade = 0 then 0 else d.obs.rateCount) ∧
  (∀ d, d.power.pwrok = false → (d.halted = true ∨ d.obs.frozen = []) → d.hostReady = none →
    step { dev := d, pending := [] } = .next { dev := d, pending := [] }) ∧
  (∀ c cs d, d.power.pwrok = false → d.halted = false → d.obs.frozen = c :: cs →
    step { dev := d, pending := [] } = exec c { dev := { d with obs := { d.obs with frozen := cs } }, pending := [] }) ∧
  (∀ n c rest d, d.power.pwrok = false → (d.halted = true ∨ d.obs.frozen = []) → d.hostReady = some n → (d.host n).deferred = c :: rest →
    ∃ t, exec c { dev := (modHost n fun h => { h with deferred := [] }).run d, pending := [] } = .next t ∧
      step { dev := d, pending := [] } = .next { t with dev := (restoreDeferred n rest).run t.dev })

/-- The state after reset meets the invariant and holds each register's reset value. Reset lists no memory and no command; role SERVICE,
partner SOLO, firmware BOOT, without power; every control word reads as its reset word, of which the values the spec does not give are the
model's choice (log entries 3 to 5). (spec/00_scope.md: Registers; spec/01_roles.md: Roles) -/
def Obligations.ResetMeetsTheInvariant : Prop :=
  State.reset.Inv ∧ State.reset.pending = [] ∧ State.reset.dev.mem = [] ∧ State.reset.dev.up = false ∧
    State.reset.dev.mode.role = .service ∧ State.reset.dev.mode.partner = .solo ∧ State.reset.dev.mode.fw = .boot ∧
    ∀ a, State.reset.dev.word a = resetWord ctlRows a

/-- Every step from a state of the invariant answers a next state that meets it. Whatever command stands in front, and while none waits:
memory and every sparse part stay in canonical form, control registers hold implemented bits only, and the mode stays one that Table 17.2
allows. (spec/00_scope.md: Registers; spec/17_modes.md: The matrix) -/
def Obligations.EveryStepKeepsTheInvariant : Prop :=
  ∀ s, s.Inv → ∃ t, step s = .next t ∧ t.Inv
end

