-- ==== Sys2Proof/Decode.lean ====
section
/-! DEFINITION. Words that spell a command. spec/opcode_table.json gives no row any bits: the commands of this block reach it as messages,
frames, register accesses and signals, whose layouts the meanings read. -/

namespace Sys2Proof

/-- The command that a word spells by the table's bits: none, since no row has bits. -/
def decodeTableWord (_nbits _w : Nat) : Option Instr := none

end Sys2Proof
end

