-- ==== Sys2Proof/Laws/State.lean ====
section
/-! SUPPORT. What each effect makes of each part of the block: one lemma per part per effect. -/

namespace Sys2Proof.Machine

/-! ### power -/

@[simp] theorem apply_power_power (p : Power) (d : Dev) : ((Eff.power p).apply d).power = p := rfl
@[simp] theorem apply_power_mode (p : Power) (d : Dev) : ((Eff.power p).apply d).mode = d.mode := rfl
@[simp] theorem apply_power_ctl (p : Power) (d : Dev) : ((Eff.power p).apply d).ctl = d.ctl := rfl
@[simp] theorem apply_power_mem (p : Power) (d : Dev) : ((Eff.power p).apply d).mem = d.mem := rfl
@[simp] theorem apply_power_checks (p : Power) (d : Dev) : ((Eff.power p).apply d).checks = d.checks := rfl
@[simp] theorem apply_power_tiles (p : Power) (d : Dev) : ((Eff.power p).apply d).tiles = d.tiles := rfl
@[simp] theorem apply_power_savedTiles (p : Power) (d : Dev) : ((Eff.power p).apply d).savedTiles = d.savedTiles := rfl
@[simp] theorem apply_power_agents (p : Power) (d : Dev) : ((Eff.power p).apply d).agents = d.agents := rfl
@[simp] theorem apply_power_mmu (p : Power) (d : Dev) : ((Eff.power p).apply d).mmu = d.mmu := rfl
@[simp] theorem apply_power_chans (p : Power) (d : Dev) : ((Eff.power p).apply d).chans = d.chans := rfl
@[simp] theorem apply_power_counters (p : Power) (d : Dev) : ((Eff.power p).apply d).counters = d.counters := rfl
@[simp] theorem apply_power_watches (p : Power) (d : Dev) : ((Eff.power p).apply d).watches = d.watches := rfl
@[simp] theorem apply_power_ports (p : Power) (d : Dev) : ((Eff.power p).apply d).ports = d.ports := rfl
@[simp] theorem apply_power_dseq (p : Power) (d : Dev) : ((Eff.power p).apply d).dseq = d.dseq := rfl
@[simp] theorem apply_power_xcn (p : Power) (d : Dev) : ((Eff.power p).apply d).xcn = d.xcn := rfl
@[simp] theorem apply_power_peers (p : Power) (d : Dev) : ((Eff.power p).apply d).peers = d.peers := rfl
@[simp] theorem apply_power_sync (p : Power) (d : Dev) : ((Eff.power p).apply d).sync = d.sync := rfl
@[simp] theorem apply_power_hosts (p : Power) (d : Dev) : ((Eff.power p).apply d).hosts = d.hosts := rfl
@[simp] theorem apply_power_circ (p : Power) (d : Dev) : ((Eff.power p).apply d).circ = d.circ := rfl
@[simp] theorem apply_power_found (p : Power) (d : Dev) : ((Eff.power p).apply d).found = d.found := rfl
@[simp] theorem apply_power_obs (p : Power) (d : Dev) : ((Eff.power p).apply d).obs = d.obs := rfl
@[simp] theorem apply_power_tallies (p : Power) (d : Dev) : ((Eff.power p).apply d).tallies = d.tallies := rfl
@[simp] theorem apply_power_sec (p : Power) (d : Dev) : ((Eff.power p).apply d).sec = d.sec := rfl
@[simp] theorem apply_power_job (p : Power) (d : Dev) : ((Eff.power p).apply d).job = d.job := rfl
@[simp] theorem apply_power_course (p : Power) (d : Dev) : ((Eff.power p).apply d).course = d.course := rfl
@[simp] theorem apply_power_shore (p : Power) (d : Dev) : ((Eff.power p).apply d).shore = d.shore := rfl
@[simp] theorem apply_power_wit (p : Power) (d : Dev) : ((Eff.power p).apply d).wit = d.wit := rfl
@[simp] theorem apply_power_slots (p : Power) (d : Dev) : ((Eff.power p).apply d).slots = d.slots := rfl
@[simp] theorem apply_power_start (p : Power) (d : Dev) : ((Eff.power p).apply d).start = d.start := rfl
@[simp] theorem apply_power_hold (p : Power) (d : Dev) : ((Eff.power p).apply d).hold = d.hold := rfl
@[simp] theorem apply_power_rst (p : Power) (d : Dev) : ((Eff.power p).apply d).rst = d.rst := rfl
@[simp] theorem apply_power_clk (p : Power) (d : Dev) : ((Eff.power p).apply d).clk = d.clk := rfl
@[simp] theorem apply_power_podTime (p : Power) (d : Dev) : ((Eff.power p).apply d).podTime = d.podTime := rfl
@[simp] theorem apply_power_status (p : Power) (d : Dev) : ((Eff.power p).apply d).status = d.status := rfl
@[simp] theorem apply_power_free (p : Power) (d : Dev) : ((Eff.power p).apply d).free = d.free := rfl
@[simp] theorem apply_power_out (p : Power) (d : Dev) : ((Eff.power p).apply d).out = d.out := rfl

/-! ### mode -/

@[simp] theorem apply_mode_power (m : Mode) (d : Dev) : ((Eff.mode m).apply d).power = d.power := by simp only [Eff.apply]; split <;> rfl
@[simp] theorem apply_mode_mode (m : Mode) (d : Dev) : ((Eff.mode m).apply d).mode = if m.legal then m else d.mode := by simp only [Eff.apply]; split <;> rfl
@[simp] theorem apply_mode_ctl (m : Mode) (d : Dev) : ((Eff.mode m).apply d).ctl = d.ctl := by simp only [Eff.apply]; split <;> rfl
@[simp] theorem apply_mode_mem (m : Mode) (d : Dev) : ((Eff.mode m).apply d).mem = d.mem := by simp only [Eff.apply]; split <;> rfl
@[simp] theorem apply_mode_checks (m : Mode) (d : Dev) : ((Eff.mode m).apply d).checks = d.checks := by simp only [Eff.apply]; split <;> rfl
@[simp] theorem apply_mode_tiles (m : Mode) (d : Dev) : ((Eff.mode m).apply d).tiles = d.tiles := by simp only [Eff.apply]; split <;> rfl
@[simp] theorem apply_mode_savedTiles (m : Mode) (d : Dev) : ((Eff.mode m).apply d).savedTiles = d.savedTiles := by simp only [Eff.apply]; split <;> rfl
@[simp] theorem apply_mode_agents (m : Mode) (d : Dev) : ((Eff.mode m).apply d).agents = d.agents := by simp only [Eff.apply]; split <;> rfl
@[simp] theorem apply_mode_mmu (m : Mode) (d : Dev) : ((Eff.mode m).apply d).mmu = d.mmu := by simp only [Eff.apply]; split <;> rfl
@[simp] theorem apply_mode_chans (m : Mode) (d : Dev) : ((Eff.mode m).apply d).chans = d.chans := by simp only [Eff.apply]; split <;> rfl
@[simp] theorem apply_mode_counters (m : Mode) (d : Dev) : ((Eff.mode m).apply d).counters = d.counters := by simp only [Eff.apply]; split <;> rfl
@[simp] theorem apply_mode_watches (m : Mode) (d : Dev) : ((Eff.mode m).apply d).watches = d.watches := by simp only [Eff.apply]; split <;> rfl
@[simp] theorem apply_mode_ports (m : Mode) (d : Dev) : ((Eff.mode m).apply d).ports = d.ports := by simp only [Eff.apply]; split <;> rfl
@[simp] theorem apply_mode_dseq (m : Mode) (d : Dev) : ((Eff.mode m).apply d).dseq = d.dseq := by simp only [Eff.apply]; split <;> rfl
@[simp] theorem apply_mode_xcn (m : Mode) (d : Dev) : ((Eff.mode m).apply d).xcn = d.xcn := by simp only [Eff.apply]; split <;> rfl
@[simp] theorem apply_mode_peers (m : Mode) (d : Dev) : ((Eff.mode m).apply d).peers = d.peers := by simp only [Eff.apply]; split <;> rfl
@[simp] theorem apply_mode_sync (m : Mode) (d : Dev) : ((Eff.mode m).apply d).sync = d.sync := by simp only [Eff.apply]; split <;> rfl
@[simp] theorem apply_mode_hosts (m : Mode) (d : Dev) : ((Eff.mode m).apply d).hosts = d.hosts := by simp only [Eff.apply]; split <;> rfl
@[simp] theorem apply_mode_circ (m : Mode) (d : Dev) : ((Eff.mode m).apply d).circ = d.circ := by simp only [Eff.apply]; split <;> rfl
@[simp] theorem apply_mode_found (m : Mode) (d : Dev) : ((Eff.mode m).apply d).found = d.found := by simp only [Eff.apply]; split <;> rfl
@[simp] theorem apply_mode_obs (m : Mode) (d : Dev) : ((Eff.mode m).apply d).obs = d.obs := by simp only [Eff.apply]; split <;> rfl
@[simp] theorem apply_mode_tallies (m : Mode) (d : Dev) : ((Eff.mode m).apply d).tallies = d.tallies := by simp only [Eff.apply]; split <;> rfl
@[simp] theorem apply_mode_sec (m : Mode) (d : Dev) : ((Eff.mode m).apply d).sec = d.sec := by simp only [Eff.apply]; split <;> rfl
@[simp] theorem apply_mode_job (m : Mode) (d : Dev) : ((Eff.mode m).apply d).job = d.job := by simp only [Eff.apply]; split <;> rfl
@[simp] theorem apply_mode_course (m : Mode) (d : Dev) : ((Eff.mode m).apply d).course = d.course := by simp only [Eff.apply]; split <;> rfl
@[simp] theorem apply_mode_shore (m : Mode) (d : Dev) : ((Eff.mode m).apply d).shore = d.shore := by simp only [Eff.apply]; split <;> rfl
@[simp] theorem apply_mode_wit (m : Mode) (d : Dev) : ((Eff.mode m).apply d).wit = d.wit := by simp only [Eff.apply]; split <;> rfl
@[simp] theorem apply_mode_slots (m : Mode) (d : Dev) : ((Eff.mode m).apply d).slots = d.slots := by simp only [Eff.apply]; split <;> rfl
@[simp] theorem apply_mode_start (m : Mode) (d : Dev) : ((Eff.mode m).apply d).start = d.start := by simp only [Eff.apply]; split <;> rfl
@[simp] theorem apply_mode_hold (m : Mode) (d : Dev) : ((Eff.mode m).apply d).hold = d.hold := by simp only [Eff.apply]; split <;> rfl
@[simp] theorem apply_mode_rst (m : Mode) (d : Dev) : ((Eff.mode m).apply d).rst = d.rst := by simp only [Eff.apply]; split <;> rfl
@[simp] theorem apply_mode_clk (m : Mode) (d : Dev) : ((Eff.mode m).apply d).clk = d.clk := by simp only [Eff.apply]; split <;> rfl
@[simp] theorem apply_mode_podTime (m : Mode) (d : Dev) : ((Eff.mode m).apply d).podTime = d.podTime := by simp only [Eff.apply]; split <;> rfl
@[simp] theorem apply_mode_status (m : Mode) (d : Dev) : ((Eff.mode m).apply d).status = d.status := by simp only [Eff.apply]; split <;> rfl
@[simp] theorem apply_mode_free (m : Mode) (d : Dev) : ((Eff.mode m).apply d).free = d.free := by simp only [Eff.apply]; split <;> rfl
@[simp] theorem apply_mode_out (m : Mode) (d : Dev) : ((Eff.mode m).apply d).out = d.out := by simp only [Eff.apply]; split <;> rfl

/-! ### ctl -/

@[simp] theorem apply_ctl_power (a : Nat) (v : W64) (d : Dev) : ((Eff.ctl a v).apply d).power = d.power := rfl
@[simp] theorem apply_ctl_mode (a : Nat) (v : W64) (d : Dev) : ((Eff.ctl a v).apply d).mode = d.mode := rfl
@[simp] theorem apply_ctl_ctl (a : Nat) (v : W64) (d : Dev) : ((Eff.ctl a v).apply d).ctl = Store.put ctlDflt d.ctl a (v &&& implMask ctlRows a) := rfl
@[simp] theorem apply_ctl_mem (a : Nat) (v : W64) (d : Dev) : ((Eff.ctl a v).apply d).mem = d.mem := rfl
@[simp] theorem apply_ctl_checks (a : Nat) (v : W64) (d : Dev) : ((Eff.ctl a v).apply d).checks = d.checks := rfl
@[simp] theorem apply_ctl_tiles (a : Nat) (v : W64) (d : Dev) : ((Eff.ctl a v).apply d).tiles = d.tiles := rfl
@[simp] theorem apply_ctl_savedTiles (a : Nat) (v : W64) (d : Dev) : ((Eff.ctl a v).apply d).savedTiles = d.savedTiles := rfl
@[simp] theorem apply_ctl_agents (a : Nat) (v : W64) (d : Dev) : ((Eff.ctl a v).apply d).agents = d.agents := rfl
@[simp] theorem apply_ctl_mmu (a : Nat) (v : W64) (d : Dev) : ((Eff.ctl a v).apply d).mmu = d.mmu := rfl
@[simp] theorem apply_ctl_chans (a : Nat) (v : W64) (d : Dev) : ((Eff.ctl a v).apply d).chans = d.chans := rfl
@[simp] theorem apply_ctl_counters (a : Nat) (v : W64) (d : Dev) : ((Eff.ctl a v).apply d).counters = d.counters := rfl
@[simp] theorem apply_ctl_watches (a : Nat) (v : W64) (d : Dev) : ((Eff.ctl a v).apply d).watches = d.watches := rfl
@[simp] theorem apply_ctl_ports (a : Nat) (v : W64) (d : Dev) : ((Eff.ctl a v).apply d).ports = d.ports := rfl
@[simp] theorem apply_ctl_dseq (a : Nat) (v : W64) (d : Dev) : ((Eff.ctl a v).apply d).dseq = d.dseq := rfl
@[simp] theorem apply_ctl_xcn (a : Nat) (v : W64) (d : Dev) : ((Eff.ctl a v).apply d).xcn = d.xcn := rfl
@[simp] theorem apply_ctl_peers (a : Nat) (v : W64) (d : Dev) : ((Eff.ctl a v).apply d).peers = d.peers := rfl
@[simp] theorem apply_ctl_sync (a : Nat) (v : W64) (d : Dev) : ((Eff.ctl a v).apply d).sync = d.sync := rfl
@[simp] theorem apply_ctl_hosts (a : Nat) (v : W64) (d : Dev) : ((Eff.ctl a v).apply d).hosts = d.hosts := rfl
@[simp] theorem apply_ctl_circ (a : Nat) (v : W64) (d : Dev) : ((Eff.ctl a v).apply d).circ = d.circ := rfl
@[simp] theorem apply_ctl_found (a : Nat) (v : W64) (d : Dev) : ((Eff.ctl a v).apply d).found = d.found := rfl
@[simp] theorem apply_ctl_obs (a : Nat) (v : W64) (d : Dev) : ((Eff.ctl a v).apply d).obs = d.obs := rfl
@[simp] theorem apply_ctl_tallies (a : Nat) (v : W64) (d : Dev) : ((Eff.ctl a v).apply d).tallies = d.tallies := rfl
@[simp] theorem apply_ctl_sec (a : Nat) (v : W64) (d : Dev) : ((Eff.ctl a v).apply d).sec = d.sec := rfl
@[simp] theorem apply_ctl_job (a : Nat) (v : W64) (d : Dev) : ((Eff.ctl a v).apply d).job = d.job := rfl
@[simp] theorem apply_ctl_course (a : Nat) (v : W64) (d : Dev) : ((Eff.ctl a v).apply d).course = d.course := rfl
@[simp] theorem apply_ctl_shore (a : Nat) (v : W64) (d : Dev) : ((Eff.ctl a v).apply d).shore = d.shore := rfl
@[simp] theorem apply_ctl_wit (a : Nat) (v : W64) (d : Dev) : ((Eff.ctl a v).apply d).wit = d.wit := rfl
@[simp] theorem apply_ctl_slots (a : Nat) (v : W64) (d : Dev) : ((Eff.ctl a v).apply d).slots = d.slots := rfl
@[simp] theorem apply_ctl_start (a : Nat) (v : W64) (d : Dev) : ((Eff.ctl a v).apply d).start = d.start := rfl
@[simp] theorem apply_ctl_hold (a : Nat) (v : W64) (d : Dev) : ((Eff.ctl a v).apply d).hold = d.hold := rfl
@[simp] theorem apply_ctl_rst (a : Nat) (v : W64) (d : Dev) : ((Eff.ctl a v).apply d).rst = d.rst := rfl
@[simp] theorem apply_ctl_clk (a : Nat) (v : W64) (d : Dev) : ((Eff.ctl a v).apply d).clk = d.clk := rfl
@[simp] theorem apply_ctl_podTime (a : Nat) (v : W64) (d : Dev) : ((Eff.ctl a v).apply d).podTime = d.podTime := rfl
@[simp] theorem apply_ctl_status (a : Nat) (v : W64) (d : Dev) : ((Eff.ctl a v).apply d).status = d.status := rfl
@[simp] theorem apply_ctl_free (a : Nat) (v : W64) (d : Dev) : ((Eff.ctl a v).apply d).free = d.free := rfl
@[simp] theorem apply_ctl_out (a : Nat) (v : W64) (d : Dev) : ((Eff.ctl a v).apply d).out = d.out := rfl

/-! ### mem -/

@[simp] theorem apply_mem_power (a : Nat) (bs : List Byte) (d : Dev) : ((Eff.mem a bs).apply d).power = d.power := rfl
@[simp] theorem apply_mem_mode (a : Nat) (bs : List Byte) (d : Dev) : ((Eff.mem a bs).apply d).mode = d.mode := rfl
@[simp] theorem apply_mem_ctl (a : Nat) (bs : List Byte) (d : Dev) : ((Eff.mem a bs).apply d).ctl = d.ctl := rfl
@[simp] theorem apply_mem_mem (a : Nat) (bs : List Byte) (d : Dev) : ((Eff.mem a bs).apply d).mem = Store.putAll memDflt d.mem a bs := rfl
@[simp] theorem apply_mem_checks (a : Nat) (bs : List Byte) (d : Dev) : ((Eff.mem a bs).apply d).checks = d.checks := rfl
@[simp] theorem apply_mem_tiles (a : Nat) (bs : List Byte) (d : Dev) : ((Eff.mem a bs).apply d).tiles = d.tiles := rfl
@[simp] theorem apply_mem_savedTiles (a : Nat) (bs : List Byte) (d : Dev) : ((Eff.mem a bs).apply d).savedTiles = d.savedTiles := rfl
@[simp] theorem apply_mem_agents (a : Nat) (bs : List Byte) (d : Dev) : ((Eff.mem a bs).apply d).agents = d.agents := rfl
@[simp] theorem apply_mem_mmu (a : Nat) (bs : List Byte) (d : Dev) : ((Eff.mem a bs).apply d).mmu = d.mmu := rfl
@[simp] theorem apply_mem_chans (a : Nat) (bs : List Byte) (d : Dev) : ((Eff.mem a bs).apply d).chans = d.chans := rfl
@[simp] theorem apply_mem_counters (a : Nat) (bs : List Byte) (d : Dev) : ((Eff.mem a bs).apply d).counters = d.counters := rfl
@[simp] theorem apply_mem_watches (a : Nat) (bs : List Byte) (d : Dev) : ((Eff.mem a bs).apply d).watches = d.watches := rfl
@[simp] theorem apply_mem_ports (a : Nat) (bs : List Byte) (d : Dev) : ((Eff.mem a bs).apply d).ports = d.ports := rfl
@[simp] theorem apply_mem_dseq (a : Nat) (bs : List Byte) (d : Dev) : ((Eff.mem a bs).apply d).dseq = d.dseq := rfl
@[simp] theorem apply_mem_xcn (a : Nat) (bs : List Byte) (d : Dev) : ((Eff.mem a bs).apply d).xcn = d.xcn := rfl
@[simp] theorem apply_mem_peers (a : Nat) (bs : List Byte) (d : Dev) : ((Eff.mem a bs).apply d).peers = d.peers := rfl
@[simp] theorem apply_mem_sync (a : Nat) (bs : List Byte) (d : Dev) : ((Eff.mem a bs).apply d).sync = d.sync := rfl
@[simp] theorem apply_mem_hosts (a : Nat) (bs : List Byte) (d : Dev) : ((Eff.mem a bs).apply d).hosts = d.hosts := rfl
@[simp] theorem apply_mem_circ (a : Nat) (bs : List Byte) (d : Dev) : ((Eff.mem a bs).apply d).circ = d.circ := rfl
@[simp] theorem apply_mem_found (a : Nat) (bs : List Byte) (d : Dev) : ((Eff.mem a bs).apply d).found = d.found := rfl
@[simp] theorem apply_mem_obs (a : Nat) (bs : List Byte) (d : Dev) : ((Eff.mem a bs).apply d).obs = d.obs := rfl
@[simp] theorem apply_mem_tallies (a : Nat) (bs : List Byte) (d : Dev) : ((Eff.mem a bs).apply d).tallies = d.tallies := rfl
@[simp] theorem apply_mem_sec (a : Nat) (bs : List Byte) (d : Dev) : ((Eff.mem a bs).apply d).sec = d.sec := rfl
@[simp] theorem apply_mem_job (a : Nat) (bs : List Byte) (d : Dev) : ((Eff.mem a bs).apply d).job = d.job := rfl
@[simp] theorem apply_mem_course (a : Nat) (bs : List Byte) (d : Dev) : ((Eff.mem a bs).apply d).course = d.course := rfl
@[simp] theorem apply_mem_shore (a : Nat) (bs : List Byte) (d : Dev) : ((Eff.mem a bs).apply d).shore = d.shore := rfl
@[simp] theorem apply_mem_wit (a : Nat) (bs : List Byte) (d : Dev) : ((Eff.mem a bs).apply d).wit = d.wit := rfl
@[simp] theorem apply_mem_slots (a : Nat) (bs : List Byte) (d : Dev) : ((Eff.mem a bs).apply d).slots = d.slots := rfl
@[simp] theorem apply_mem_start (a : Nat) (bs : List Byte) (d : Dev) : ((Eff.mem a bs).apply d).start = d.start := rfl
@[simp] theorem apply_mem_hold (a : Nat) (bs : List Byte) (d : Dev) : ((Eff.mem a bs).apply d).hold = d.hold := rfl
@[simp] theorem apply_mem_rst (a : Nat) (bs : List Byte) (d : Dev) : ((Eff.mem a bs).apply d).rst = d.rst := rfl
@[simp] theorem apply_mem_clk (a : Nat) (bs : List Byte) (d : Dev) : ((Eff.mem a bs).apply d).clk = d.clk := rfl
@[simp] theorem apply_mem_podTime (a : Nat) (bs : List Byte) (d : Dev) : ((Eff.mem a bs).apply d).podTime = d.podTime := rfl
@[simp] theorem apply_mem_status (a : Nat) (bs : List Byte) (d : Dev) : ((Eff.mem a bs).apply d).status = d.status := rfl
@[simp] theorem apply_mem_free (a : Nat) (bs : List Byte) (d : Dev) : ((Eff.mem a bs).apply d).free = d.free := rfl
@[simp] theorem apply_mem_out (a : Nat) (bs : List Byte) (d : Dev) : ((Eff.mem a bs).apply d).out = d.out := rfl

/-! ### memClear -/

@[simp] theorem apply_memClear_power (a n : Nat) (d : Dev) : ((Eff.memClear a n).apply d).power = d.power := rfl
@[simp] theorem apply_memClear_mode (a n : Nat) (d : Dev) : ((Eff.memClear a n).apply d).mode = d.mode := rfl
@[simp] theorem apply_memClear_ctl (a n : Nat) (d : Dev) : ((Eff.memClear a n).apply d).ctl = d.ctl := rfl
@[simp] theorem apply_memClear_mem (a n : Nat) (d : Dev) : ((Eff.memClear a n).apply d).mem = Store.clearRange d.mem a n := rfl
@[simp] theorem apply_memClear_checks (a n : Nat) (d : Dev) : ((Eff.memClear a n).apply d).checks = d.checks := rfl
@[simp] theorem apply_memClear_tiles (a n : Nat) (d : Dev) : ((Eff.memClear a n).apply d).tiles = d.tiles := rfl
@[simp] theorem apply_memClear_savedTiles (a n : Nat) (d : Dev) : ((Eff.memClear a n).apply d).savedTiles = d.savedTiles := rfl
@[simp] theorem apply_memClear_agents (a n : Nat) (d : Dev) : ((Eff.memClear a n).apply d).agents = d.agents := rfl
@[simp] theorem apply_memClear_mmu (a n : Nat) (d : Dev) : ((Eff.memClear a n).apply d).mmu = d.mmu := rfl
@[simp] theorem apply_memClear_chans (a n : Nat) (d : Dev) : ((Eff.memClear a n).apply d).chans = d.chans := rfl
@[simp] theorem apply_memClear_counters (a n : Nat) (d : Dev) : ((Eff.memClear a n).apply d).counters = d.counters := rfl
@[simp] theorem apply_memClear_watches (a n : Nat) (d : Dev) : ((Eff.memClear a n).apply d).watches = d.watches := rfl
@[simp] theorem apply_memClear_ports (a n : Nat) (d : Dev) : ((Eff.memClear a n).apply d).ports = d.ports := rfl
@[simp] theorem apply_memClear_dseq (a n : Nat) (d : Dev) : ((Eff.memClear a n).apply d).dseq = d.dseq := rfl
@[simp] theorem apply_memClear_xcn (a n : Nat) (d : Dev) : ((Eff.memClear a n).apply d).xcn = d.xcn := rfl
@[simp] theorem apply_memClear_peers (a n : Nat) (d : Dev) : ((Eff.memClear a n).apply d).peers = d.peers := rfl
@[simp] theorem apply_memClear_sync (a n : Nat) (d : Dev) : ((Eff.memClear a n).apply d).sync = d.sync := rfl
@[simp] theorem apply_memClear_hosts (a n : Nat) (d : Dev) : ((Eff.memClear a n).apply d).hosts = d.hosts := rfl
@[simp] theorem apply_memClear_circ (a n : Nat) (d : Dev) : ((Eff.memClear a n).apply d).circ = d.circ := rfl
@[simp] theorem apply_memClear_found (a n : Nat) (d : Dev) : ((Eff.memClear a n).apply d).found = d.found := rfl
@[simp] theorem apply_memClear_obs (a n : Nat) (d : Dev) : ((Eff.memClear a n).apply d).obs = d.obs := rfl
@[simp] theorem apply_memClear_tallies (a n : Nat) (d : Dev) : ((Eff.memClear a n).apply d).tallies = d.tallies := rfl
@[simp] theorem apply_memClear_sec (a n : Nat) (d : Dev) : ((Eff.memClear a n).apply d).sec = d.sec := rfl
@[simp] theorem apply_memClear_job (a n : Nat) (d : Dev) : ((Eff.memClear a n).apply d).job = d.job := rfl
@[simp] theorem apply_memClear_course (a n : Nat) (d : Dev) : ((Eff.memClear a n).apply d).course = d.course := rfl
@[simp] theorem apply_memClear_shore (a n : Nat) (d : Dev) : ((Eff.memClear a n).apply d).shore = d.shore := rfl
@[simp] theorem apply_memClear_wit (a n : Nat) (d : Dev) : ((Eff.memClear a n).apply d).wit = d.wit := rfl
@[simp] theorem apply_memClear_slots (a n : Nat) (d : Dev) : ((Eff.memClear a n).apply d).slots = d.slots := rfl
@[simp] theorem apply_memClear_start (a n : Nat) (d : Dev) : ((Eff.memClear a n).apply d).start = d.start := rfl
@[simp] theorem apply_memClear_hold (a n : Nat) (d : Dev) : ((Eff.memClear a n).apply d).hold = d.hold := rfl
@[simp] theorem apply_memClear_rst (a n : Nat) (d : Dev) : ((Eff.memClear a n).apply d).rst = d.rst := rfl
@[simp] theorem apply_memClear_clk (a n : Nat) (d : Dev) : ((Eff.memClear a n).apply d).clk = d.clk := rfl
@[simp] theorem apply_memClear_podTime (a n : Nat) (d : Dev) : ((Eff.memClear a n).apply d).podTime = d.podTime := rfl
@[simp] theorem apply_memClear_status (a n : Nat) (d : Dev) : ((Eff.memClear a n).apply d).status = d.status := rfl
@[simp] theorem apply_memClear_free (a n : Nat) (d : Dev) : ((Eff.memClear a n).apply d).free = d.free := rfl
@[simp] theorem apply_memClear_out (a n : Nat) (d : Dev) : ((Eff.memClear a n).apply d).out = d.out := rfl

/-! ### check -/

@[simp] theorem apply_check_power (b : Nat) (v : W64) (d : Dev) : ((Eff.check b v).apply d).power = d.power := rfl
@[simp] theorem apply_check_mode (b : Nat) (v : W64) (d : Dev) : ((Eff.check b v).apply d).mode = d.mode := rfl
@[simp] theorem apply_check_ctl (b : Nat) (v : W64) (d : Dev) : ((Eff.check b v).apply d).ctl = d.ctl := rfl
@[simp] theorem apply_check_mem (b : Nat) (v : W64) (d : Dev) : ((Eff.check b v).apply d).mem = d.mem := rfl
@[simp] theorem apply_check_checks (b : Nat) (v : W64) (d : Dev) : ((Eff.check b v).apply d).checks = Store.put checkDflt d.checks b v := rfl
@[simp] theorem apply_check_tiles (b : Nat) (v : W64) (d : Dev) : ((Eff.check b v).apply d).tiles = d.tiles := rfl
@[simp] theorem apply_check_savedTiles (b : Nat) (v : W64) (d : Dev) : ((Eff.check b v).apply d).savedTiles = d.savedTiles := rfl
@[simp] theorem apply_check_agents (b : Nat) (v : W64) (d : Dev) : ((Eff.check b v).apply d).agents = d.agents := rfl
@[simp] theorem apply_check_mmu (b : Nat) (v : W64) (d : Dev) : ((Eff.check b v).apply d).mmu = d.mmu := rfl
@[simp] theorem apply_check_chans (b : Nat) (v : W64) (d : Dev) : ((Eff.check b v).apply d).chans = d.chans := rfl
@[simp] theorem apply_check_counters (b : Nat) (v : W64) (d : Dev) : ((Eff.check b v).apply d).counters = d.counters := rfl
@[simp] theorem apply_check_watches (b : Nat) (v : W64) (d : Dev) : ((Eff.check b v).apply d).watches = d.watches := rfl
@[simp] theorem apply_check_ports (b : Nat) (v : W64) (d : Dev) : ((Eff.check b v).apply d).ports = d.ports := rfl
@[simp] theorem apply_check_dseq (b : Nat) (v : W64) (d : Dev) : ((Eff.check b v).apply d).dseq = d.dseq := rfl
@[simp] theorem apply_check_xcn (b : Nat) (v : W64) (d : Dev) : ((Eff.check b v).apply d).xcn = d.xcn := rfl
@[simp] theorem apply_check_peers (b : Nat) (v : W64) (d : Dev) : ((Eff.check b v).apply d).peers = d.peers := rfl
@[simp] theorem apply_check_sync (b : Nat) (v : W64) (d : Dev) : ((Eff.check b v).apply d).sync = d.sync := rfl
@[simp] theorem apply_check_hosts (b : Nat) (v : W64) (d : Dev) : ((Eff.check b v).apply d).hosts = d.hosts := rfl
@[simp] theorem apply_check_circ (b : Nat) (v : W64) (d : Dev) : ((Eff.check b v).apply d).circ = d.circ := rfl
@[simp] theorem apply_check_found (b : Nat) (v : W64) (d : Dev) : ((Eff.check b v).apply d).found = d.found := rfl
@[simp] theorem apply_check_obs (b : Nat) (v : W64) (d : Dev) : ((Eff.check b v).apply d).obs = d.obs := rfl
@[simp] theorem apply_check_tallies (b : Nat) (v : W64) (d : Dev) : ((Eff.check b v).apply d).tallies = d.tallies := rfl
@[simp] theorem apply_check_sec (b : Nat) (v : W64) (d : Dev) : ((Eff.check b v).apply d).sec = d.sec := rfl
@[simp] theorem apply_check_job (b : Nat) (v : W64) (d : Dev) : ((Eff.check b v).apply d).job = d.job := rfl
@[simp] theorem apply_check_course (b : Nat) (v : W64) (d : Dev) : ((Eff.check b v).apply d).course = d.course := rfl
@[simp] theorem apply_check_shore (b : Nat) (v : W64) (d : Dev) : ((Eff.check b v).apply d).shore = d.shore := rfl
@[simp] theorem apply_check_wit (b : Nat) (v : W64) (d : Dev) : ((Eff.check b v).apply d).wit = d.wit := rfl
@[simp] theorem apply_check_slots (b : Nat) (v : W64) (d : Dev) : ((Eff.check b v).apply d).slots = d.slots := rfl
@[simp] theorem apply_check_start (b : Nat) (v : W64) (d : Dev) : ((Eff.check b v).apply d).start = d.start := rfl
@[simp] theorem apply_check_hold (b : Nat) (v : W64) (d : Dev) : ((Eff.check b v).apply d).hold = d.hold := rfl
@[simp] theorem apply_check_rst (b : Nat) (v : W64) (d : Dev) : ((Eff.check b v).apply d).rst = d.rst := rfl
@[simp] theorem apply_check_clk (b : Nat) (v : W64) (d : Dev) : ((Eff.check b v).apply d).clk = d.clk := rfl
@[simp] theorem apply_check_podTime (b : Nat) (v : W64) (d : Dev) : ((Eff.check b v).apply d).podTime = d.podTime := rfl
@[simp] theorem apply_check_status (b : Nat) (v : W64) (d : Dev) : ((Eff.check b v).apply d).status = d.status := rfl
@[simp] theorem apply_check_free (b : Nat) (v : W64) (d : Dev) : ((Eff.check b v).apply d).free = d.free := rfl
@[simp] theorem apply_check_out (b : Nat) (v : W64) (d : Dev) : ((Eff.check b v).apply d).out = d.out := rfl

/-! ### checkClear -/

@[simp] theorem apply_checkClear_power (b n : Nat) (d : Dev) : ((Eff.checkClear b n).apply d).power = d.power := rfl
@[simp] theorem apply_checkClear_mode (b n : Nat) (d : Dev) : ((Eff.checkClear b n).apply d).mode = d.mode := rfl
@[simp] theorem apply_checkClear_ctl (b n : Nat) (d : Dev) : ((Eff.checkClear b n).apply d).ctl = d.ctl := rfl
@[simp] theorem apply_checkClear_mem (b n : Nat) (d : Dev) : ((Eff.checkClear b n).apply d).mem = d.mem := rfl
@[simp] theorem apply_checkClear_checks (b n : Nat) (d : Dev) : ((Eff.checkClear b n).apply d).checks = Store.clearRange d.checks b n := rfl
@[simp] theorem apply_checkClear_tiles (b n : Nat) (d : Dev) : ((Eff.checkClear b n).apply d).tiles = d.tiles := rfl
@[simp] theorem apply_checkClear_savedTiles (b n : Nat) (d : Dev) : ((Eff.checkClear b n).apply d).savedTiles = d.savedTiles := rfl
@[simp] theorem apply_checkClear_agents (b n : Nat) (d : Dev) : ((Eff.checkClear b n).apply d).agents = d.agents := rfl
@[simp] theorem apply_checkClear_mmu (b n : Nat) (d : Dev) : ((Eff.checkClear b n).apply d).mmu = d.mmu := rfl
@[simp] theorem apply_checkClear_chans (b n : Nat) (d : Dev) : ((Eff.checkClear b n).apply d).chans = d.chans := rfl
@[simp] theorem apply_checkClear_counters (b n : Nat) (d : Dev) : ((Eff.checkClear b n).apply d).counters = d.counters := rfl
@[simp] theorem apply_checkClear_watches (b n : Nat) (d : Dev) : ((Eff.checkClear b n).apply d).watches = d.watches := rfl
@[simp] theorem apply_checkClear_ports (b n : Nat) (d : Dev) : ((Eff.checkClear b n).apply d).ports = d.ports := rfl
@[simp] theorem apply_checkClear_dseq (b n : Nat) (d : Dev) : ((Eff.checkClear b n).apply d).dseq = d.dseq := rfl
@[simp] theorem apply_checkClear_xcn (b n : Nat) (d : Dev) : ((Eff.checkClear b n).apply d).xcn = d.xcn := rfl
@[simp] theorem apply_checkClear_peers (b n : Nat) (d : Dev) : ((Eff.checkClear b n).apply d).peers = d.peers := rfl
@[simp] theorem apply_checkClear_sync (b n : Nat) (d : Dev) : ((Eff.checkClear b n).apply d).sync = d.sync := rfl
@[simp] theorem apply_checkClear_hosts (b n : Nat) (d : Dev) : ((Eff.checkClear b n).apply d).hosts = d.hosts := rfl
@[simp] theorem apply_checkClear_circ (b n : Nat) (d : Dev) : ((Eff.checkClear b n).apply d).circ = d.circ := rfl
@[simp] theorem apply_checkClear_found (b n : Nat) (d : Dev) : ((Eff.checkClear b n).apply d).found = d.found := rfl
@[simp] theorem apply_checkClear_obs (b n : Nat) (d : Dev) : ((Eff.checkClear b n).apply d).obs = d.obs := rfl
@[simp] theorem apply_checkClear_tallies (b n : Nat) (d : Dev) : ((Eff.checkClear b n).apply d).tallies = d.tallies := rfl
@[simp] theorem apply_checkClear_sec (b n : Nat) (d : Dev) : ((Eff.checkClear b n).apply d).sec = d.sec := rfl
@[simp] theorem apply_checkClear_job (b n : Nat) (d : Dev) : ((Eff.checkClear b n).apply d).job = d.job := rfl
@[simp] theorem apply_checkClear_course (b n : Nat) (d : Dev) : ((Eff.checkClear b n).apply d).course = d.course := rfl
@[simp] theorem apply_checkClear_shore (b n : Nat) (d : Dev) : ((Eff.checkClear b n).apply d).shore = d.shore := rfl
@[simp] theorem apply_checkClear_wit (b n : Nat) (d : Dev) : ((Eff.checkClear b n).apply d).wit = d.wit := rfl
@[simp] theorem apply_checkClear_slots (b n : Nat) (d : Dev) : ((Eff.checkClear b n).apply d).slots = d.slots := rfl
@[simp] theorem apply_checkClear_start (b n : Nat) (d : Dev) : ((Eff.checkClear b n).apply d).start = d.start := rfl
@[simp] theorem apply_checkClear_hold (b n : Nat) (d : Dev) : ((Eff.checkClear b n).apply d).hold = d.hold := rfl
@[simp] theorem apply_checkClear_rst (b n : Nat) (d : Dev) : ((Eff.checkClear b n).apply d).rst = d.rst := rfl
@[simp] theorem apply_checkClear_clk (b n : Nat) (d : Dev) : ((Eff.checkClear b n).apply d).clk = d.clk := rfl
@[simp] theorem apply_checkClear_podTime (b n : Nat) (d : Dev) : ((Eff.checkClear b n).apply d).podTime = d.podTime := rfl
@[simp] theorem apply_checkClear_status (b n : Nat) (d : Dev) : ((Eff.checkClear b n).apply d).status = d.status := rfl
@[simp] theorem apply_checkClear_free (b n : Nat) (d : Dev) : ((Eff.checkClear b n).apply d).free = d.free := rfl
@[simp] theorem apply_checkClear_out (b n : Nat) (d : Dev) : ((Eff.checkClear b n).apply d).out = d.out := rfl

/-! ### tile -/

@[simp] theorem apply_tile_power (n : Nat) (t : Tile) (d : Dev) : ((Eff.tile n t).apply d).power = d.power := rfl
@[simp] theorem apply_tile_mode (n : Nat) (t : Tile) (d : Dev) : ((Eff.tile n t).apply d).mode = d.mode := rfl
@[simp] theorem apply_tile_ctl (n : Nat) (t : Tile) (d : Dev) : ((Eff.tile n t).apply d).ctl = d.ctl := rfl
@[simp] theorem apply_tile_mem (n : Nat) (t : Tile) (d : Dev) : ((Eff.tile n t).apply d).mem = d.mem := rfl
@[simp] theorem apply_tile_checks (n : Nat) (t : Tile) (d : Dev) : ((Eff.tile n t).apply d).checks = d.checks := rfl
@[simp] theorem apply_tile_tiles (n : Nat) (t : Tile) (d : Dev) : ((Eff.tile n t).apply d).tiles = Store.put tileReset d.tiles n t := rfl
@[simp] theorem apply_tile_savedTiles (n : Nat) (t : Tile) (d : Dev) : ((Eff.tile n t).apply d).savedTiles = d.savedTiles := rfl
@[simp] theorem apply_tile_agents (n : Nat) (t : Tile) (d : Dev) : ((Eff.tile n t).apply d).agents = d.agents := rfl
@[simp] theorem apply_tile_mmu (n : Nat) (t : Tile) (d : Dev) : ((Eff.tile n t).apply d).mmu = d.mmu := rfl
@[simp] theorem apply_tile_chans (n : Nat) (t : Tile) (d : Dev) : ((Eff.tile n t).apply d).chans = d.chans := rfl
@[simp] theorem apply_tile_counters (n : Nat) (t : Tile) (d : Dev) : ((Eff.tile n t).apply d).counters = d.counters := rfl
@[simp] theorem apply_tile_watches (n : Nat) (t : Tile) (d : Dev) : ((Eff.tile n t).apply d).watches = d.watches := rfl
@[simp] theorem apply_tile_ports (n : Nat) (t : Tile) (d : Dev) : ((Eff.tile n t).apply d).ports = d.ports := rfl
@[simp] theorem apply_tile_dseq (n : Nat) (t : Tile) (d : Dev) : ((Eff.tile n t).apply d).dseq = d.dseq := rfl
@[simp] theorem apply_tile_xcn (n : Nat) (t : Tile) (d : Dev) : ((Eff.tile n t).apply d).xcn = d.xcn := rfl
@[simp] theorem apply_tile_peers (n : Nat) (t : Tile) (d : Dev) : ((Eff.tile n t).apply d).peers = d.peers := rfl
@[simp] theorem apply_tile_sync (n : Nat) (t : Tile) (d : Dev) : ((Eff.tile n t).apply d).sync = d.sync := rfl
@[simp] theorem apply_tile_hosts (n : Nat) (t : Tile) (d : Dev) : ((Eff.tile n t).apply d).hosts = d.hosts := rfl
@[simp] theorem apply_tile_circ (n : Nat) (t : Tile) (d : Dev) : ((Eff.tile n t).apply d).circ = d.circ := rfl
@[simp] theorem apply_tile_found (n : Nat) (t : Tile) (d : Dev) : ((Eff.tile n t).apply d).found = d.found := rfl
@[simp] theorem apply_tile_obs (n : Nat) (t : Tile) (d : Dev) : ((Eff.tile n t).apply d).obs = d.obs := rfl
@[simp] theorem apply_tile_tallies (n : Nat) (t : Tile) (d : Dev) : ((Eff.tile n t).apply d).tallies = d.tallies := rfl
@[simp] theorem apply_tile_sec (n : Nat) (t : Tile) (d : Dev) : ((Eff.tile n t).apply d).sec = d.sec := rfl
@[simp] theorem apply_tile_job (n : Nat) (t : Tile) (d : Dev) : ((Eff.tile n t).apply d).job = d.job := rfl
@[simp] theorem apply_tile_course (n : Nat) (t : Tile) (d : Dev) : ((Eff.tile n t).apply d).course = d.course := rfl
@[simp] theorem apply_tile_shore (n : Nat) (t : Tile) (d : Dev) : ((Eff.tile n t).apply d).shore = d.shore := rfl
@[simp] theorem apply_tile_wit (n : Nat) (t : Tile) (d : Dev) : ((Eff.tile n t).apply d).wit = d.wit := rfl
@[simp] theorem apply_tile_slots (n : Nat) (t : Tile) (d : Dev) : ((Eff.tile n t).apply d).slots = d.slots := rfl
@[simp] theorem apply_tile_start (n : Nat) (t : Tile) (d : Dev) : ((Eff.tile n t).apply d).start = d.start := rfl
@[simp] theorem apply_tile_hold (n : Nat) (t : Tile) (d : Dev) : ((Eff.tile n t).apply d).hold = d.hold := rfl
@[simp] theorem apply_tile_rst (n : Nat) (t : Tile) (d : Dev) : ((Eff.tile n t).apply d).rst = d.rst := rfl
@[simp] theorem apply_tile_clk (n : Nat) (t : Tile) (d : Dev) : ((Eff.tile n t).apply d).clk = d.clk := rfl
@[simp] theorem apply_tile_podTime (n : Nat) (t : Tile) (d : Dev) : ((Eff.tile n t).apply d).podTime = d.podTime := rfl
@[simp] theorem apply_tile_status (n : Nat) (t : Tile) (d : Dev) : ((Eff.tile n t).apply d).status = d.status := rfl
@[simp] theorem apply_tile_free (n : Nat) (t : Tile) (d : Dev) : ((Eff.tile n t).apply d).free = d.free := rfl
@[simp] theorem apply_tile_out (n : Nat) (t : Tile) (d : Dev) : ((Eff.tile n t).apply d).out = d.out := rfl

/-! ### savedTile -/

@[simp] theorem apply_savedTile_power (n : Nat) (t : Tile) (d : Dev) : ((Eff.savedTile n t).apply d).power = d.power := rfl
@[simp] theorem apply_savedTile_mode (n : Nat) (t : Tile) (d : Dev) : ((Eff.savedTile n t).apply d).mode = d.mode := rfl
@[simp] theorem apply_savedTile_ctl (n : Nat) (t : Tile) (d : Dev) : ((Eff.savedTile n t).apply d).ctl = d.ctl := rfl
@[simp] theorem apply_savedTile_mem (n : Nat) (t : Tile) (d : Dev) : ((Eff.savedTile n t).apply d).mem = d.mem := rfl
@[simp] theorem apply_savedTile_checks (n : Nat) (t : Tile) (d : Dev) : ((Eff.savedTile n t).apply d).checks = d.checks := rfl
@[simp] theorem apply_savedTile_tiles (n : Nat) (t : Tile) (d : Dev) : ((Eff.savedTile n t).apply d).tiles = d.tiles := rfl
@[simp] theorem apply_savedTile_savedTiles (n : Nat) (t : Tile) (d : Dev) : ((Eff.savedTile n t).apply d).savedTiles = Store.put tileReset d.savedTiles n t := rfl
@[simp] theorem apply_savedTile_agents (n : Nat) (t : Tile) (d : Dev) : ((Eff.savedTile n t).apply d).agents = d.agents := rfl
@[simp] theorem apply_savedTile_mmu (n : Nat) (t : Tile) (d : Dev) : ((Eff.savedTile n t).apply d).mmu = d.mmu := rfl
@[simp] theorem apply_savedTile_chans (n : Nat) (t : Tile) (d : Dev) : ((Eff.savedTile n t).apply d).chans = d.chans := rfl
@[simp] theorem apply_savedTile_counters (n : Nat) (t : Tile) (d : Dev) : ((Eff.savedTile n t).apply d).counters = d.counters := rfl
@[simp] theorem apply_savedTile_watches (n : Nat) (t : Tile) (d : Dev) : ((Eff.savedTile n t).apply d).watches = d.watches := rfl
@[simp] theorem apply_savedTile_ports (n : Nat) (t : Tile) (d : Dev) : ((Eff.savedTile n t).apply d).ports = d.ports := rfl
@[simp] theorem apply_savedTile_dseq (n : Nat) (t : Tile) (d : Dev) : ((Eff.savedTile n t).apply d).dseq = d.dseq := rfl
@[simp] theorem apply_savedTile_xcn (n : Nat) (t : Tile) (d : Dev) : ((Eff.savedTile n t).apply d).xcn = d.xcn := rfl
@[simp] theorem apply_savedTile_peers (n : Nat) (t : Tile) (d : Dev) : ((Eff.savedTile n t).apply d).peers = d.peers := rfl
@[simp] theorem apply_savedTile_sync (n : Nat) (t : Tile) (d : Dev) : ((Eff.savedTile n t).apply d).sync = d.sync := rfl
@[simp] theorem apply_savedTile_hosts (n : Nat) (t : Tile) (d : Dev) : ((Eff.savedTile n t).apply d).hosts = d.hosts := rfl
@[simp] theorem apply_savedTile_circ (n : Nat) (t : Tile) (d : Dev) : ((Eff.savedTile n t).apply d).circ = d.circ := rfl
@[simp] theorem apply_savedTile_found (n : Nat) (t : Tile) (d : Dev) : ((Eff.savedTile n t).apply d).found = d.found := rfl
@[simp] theorem apply_savedTile_obs (n : Nat) (t : Tile) (d : Dev) : ((Eff.savedTile n t).apply d).obs = d.obs := rfl
@[simp] theorem apply_savedTile_tallies (n : Nat) (t : Tile) (d : Dev) : ((Eff.savedTile n t).apply d).tallies = d.tallies := rfl
@[simp] theorem apply_savedTile_sec (n : Nat) (t : Tile) (d : Dev) : ((Eff.savedTile n t).apply d).sec = d.sec := rfl
@[simp] theorem apply_savedTile_job (n : Nat) (t : Tile) (d : Dev) : ((Eff.savedTile n t).apply d).job = d.job := rfl
@[simp] theorem apply_savedTile_course (n : Nat) (t : Tile) (d : Dev) : ((Eff.savedTile n t).apply d).course = d.course := rfl
@[simp] theorem apply_savedTile_shore (n : Nat) (t : Tile) (d : Dev) : ((Eff.savedTile n t).apply d).shore = d.shore := rfl
@[simp] theorem apply_savedTile_wit (n : Nat) (t : Tile) (d : Dev) : ((Eff.savedTile n t).apply d).wit = d.wit := rfl
@[simp] theorem apply_savedTile_slots (n : Nat) (t : Tile) (d : Dev) : ((Eff.savedTile n t).apply d).slots = d.slots := rfl
@[simp] theorem apply_savedTile_start (n : Nat) (t : Tile) (d : Dev) : ((Eff.savedTile n t).apply d).start = d.start := rfl
@[simp] theorem apply_savedTile_hold (n : Nat) (t : Tile) (d : Dev) : ((Eff.savedTile n t).apply d).hold = d.hold := rfl
@[simp] theorem apply_savedTile_rst (n : Nat) (t : Tile) (d : Dev) : ((Eff.savedTile n t).apply d).rst = d.rst := rfl
@[simp] theorem apply_savedTile_clk (n : Nat) (t : Tile) (d : Dev) : ((Eff.savedTile n t).apply d).clk = d.clk := rfl
@[simp] theorem apply_savedTile_podTime (n : Nat) (t : Tile) (d : Dev) : ((Eff.savedTile n t).apply d).podTime = d.podTime := rfl
@[simp] theorem apply_savedTile_status (n : Nat) (t : Tile) (d : Dev) : ((Eff.savedTile n t).apply d).status = d.status := rfl
@[simp] theorem apply_savedTile_free (n : Nat) (t : Tile) (d : Dev) : ((Eff.savedTile n t).apply d).free = d.free := rfl
@[simp] theorem apply_savedTile_out (n : Nat) (t : Tile) (d : Dev) : ((Eff.savedTile n t).apply d).out = d.out := rfl

/-! ### agent -/

@[simp] theorem apply_agent_power (n : Nat) (a : Agent) (d : Dev) : ((Eff.agent n a).apply d).power = d.power := rfl
@[simp] theorem apply_agent_mode (n : Nat) (a : Agent) (d : Dev) : ((Eff.agent n a).apply d).mode = d.mode := rfl
@[simp] theorem apply_agent_ctl (n : Nat) (a : Agent) (d : Dev) : ((Eff.agent n a).apply d).ctl = d.ctl := rfl
@[simp] theorem apply_agent_mem (n : Nat) (a : Agent) (d : Dev) : ((Eff.agent n a).apply d).mem = d.mem := rfl
@[simp] theorem apply_agent_checks (n : Nat) (a : Agent) (d : Dev) : ((Eff.agent n a).apply d).checks = d.checks := rfl
@[simp] theorem apply_agent_tiles (n : Nat) (a : Agent) (d : Dev) : ((Eff.agent n a).apply d).tiles = d.tiles := rfl
@[simp] theorem apply_agent_savedTiles (n : Nat) (a : Agent) (d : Dev) : ((Eff.agent n a).apply d).savedTiles = d.savedTiles := rfl
@[simp] theorem apply_agent_agents (n : Nat) (a : Agent) (d : Dev) : ((Eff.agent n a).apply d).agents = Store.put agentReset d.agents n a := rfl
@[simp] theorem apply_agent_mmu (n : Nat) (a : Agent) (d : Dev) : ((Eff.agent n a).apply d).mmu = d.mmu := rfl
@[simp] theorem apply_agent_chans (n : Nat) (a : Agent) (d : Dev) : ((Eff.agent n a).apply d).chans = d.chans := rfl
@[simp] theorem apply_agent_counters (n : Nat) (a : Agent) (d : Dev) : ((Eff.agent n a).apply d).counters = d.counters := rfl
@[simp] theorem apply_agent_watches (n : Nat) (a : Agent) (d : Dev) : ((Eff.agent n a).apply d).watches = d.watches := rfl
@[simp] theorem apply_agent_ports (n : Nat) (a : Agent) (d : Dev) : ((Eff.agent n a).apply d).ports = d.ports := rfl
@[simp] theorem apply_agent_dseq (n : Nat) (a : Agent) (d : Dev) : ((Eff.agent n a).apply d).dseq = d.dseq := rfl
@[simp] theorem apply_agent_xcn (n : Nat) (a : Agent) (d : Dev) : ((Eff.agent n a).apply d).xcn = d.xcn := rfl
@[simp] theorem apply_agent_peers (n : Nat) (a : Agent) (d : Dev) : ((Eff.agent n a).apply d).peers = d.peers := rfl
@[simp] theorem apply_agent_sync (n : Nat) (a : Agent) (d : Dev) : ((Eff.agent n a).apply d).sync = d.sync := rfl
@[simp] theorem apply_agent_hosts (n : Nat) (a : Agent) (d : Dev) : ((Eff.agent n a).apply d).hosts = d.hosts := rfl
@[simp] theorem apply_agent_circ (n : Nat) (a : Agent) (d : Dev) : ((Eff.agent n a).apply d).circ = d.circ := rfl
@[simp] theorem apply_agent_found (n : Nat) (a : Agent) (d : Dev) : ((Eff.agent n a).apply d).found = d.found := rfl
@[simp] theorem apply_agent_obs (n : Nat) (a : Agent) (d : Dev) : ((Eff.agent n a).apply d).obs = d.obs := rfl
@[simp] theorem apply_agent_tallies (n : Nat) (a : Agent) (d : Dev) : ((Eff.agent n a).apply d).tallies = d.tallies := rfl
@[simp] theorem apply_agent_sec (n : Nat) (a : Agent) (d : Dev) : ((Eff.agent n a).apply d).sec = d.sec := rfl
@[simp] theorem apply_agent_job (n : Nat) (a : Agent) (d : Dev) : ((Eff.agent n a).apply d).job = d.job := rfl
@[simp] theorem apply_agent_course (n : Nat) (a : Agent) (d : Dev) : ((Eff.agent n a).apply d).course = d.course := rfl
@[simp] theorem apply_agent_shore (n : Nat) (a : Agent) (d : Dev) : ((Eff.agent n a).apply d).shore = d.shore := rfl
@[simp] theorem apply_agent_wit (n : Nat) (a : Agent) (d : Dev) : ((Eff.agent n a).apply d).wit = d.wit := rfl
@[simp] theorem apply_agent_slots (n : Nat) (a : Agent) (d : Dev) : ((Eff.agent n a).apply d).slots = d.slots := rfl
@[simp] theorem apply_agent_start (n : Nat) (a : Agent) (d : Dev) : ((Eff.agent n a).apply d).start = d.start := rfl
@[simp] theorem apply_agent_hold (n : Nat) (a : Agent) (d : Dev) : ((Eff.agent n a).apply d).hold = d.hold := rfl
@[simp] theorem apply_agent_rst (n : Nat) (a : Agent) (d : Dev) : ((Eff.agent n a).apply d).rst = d.rst := rfl
@[simp] theorem apply_agent_clk (n : Nat) (a : Agent) (d : Dev) : ((Eff.agent n a).apply d).clk = d.clk := rfl
@[simp] theorem apply_agent_podTime (n : Nat) (a : Agent) (d : Dev) : ((Eff.agent n a).apply d).podTime = d.podTime := rfl
@[simp] theorem apply_agent_status (n : Nat) (a : Agent) (d : Dev) : ((Eff.agent n a).apply d).status = d.status := rfl
@[simp] theorem apply_agent_free (n : Nat) (a : Agent) (d : Dev) : ((Eff.agent n a).apply d).free = d.free := rfl
@[simp] theorem apply_agent_out (n : Nat) (a : Agent) (d : Dev) : ((Eff.agent n a).apply d).out = d.out := rfl

/-! ### mmu -/

@[simp] theorem apply_mmu_power (m : Mmu) (d : Dev) : ((Eff.mmu m).apply d).power = d.power := rfl
@[simp] theorem apply_mmu_mode (m : Mmu) (d : Dev) : ((Eff.mmu m).apply d).mode = d.mode := rfl
@[simp] theorem apply_mmu_ctl (m : Mmu) (d : Dev) : ((Eff.mmu m).apply d).ctl = d.ctl := rfl
@[simp] theorem apply_mmu_mem (m : Mmu) (d : Dev) : ((Eff.mmu m).apply d).mem = d.mem := rfl
@[simp] theorem apply_mmu_checks (m : Mmu) (d : Dev) : ((Eff.mmu m).apply d).checks = d.checks := rfl
@[simp] theorem apply_mmu_tiles (m : Mmu) (d : Dev) : ((Eff.mmu m).apply d).tiles = d.tiles := rfl
@[simp] theorem apply_mmu_savedTiles (m : Mmu) (d : Dev) : ((Eff.mmu m).apply d).savedTiles = d.savedTiles := rfl
@[simp] theorem apply_mmu_agents (m : Mmu) (d : Dev) : ((Eff.mmu m).apply d).agents = d.agents := rfl
@[simp] theorem apply_mmu_mmu (m : Mmu) (d : Dev) : ((Eff.mmu m).apply d).mmu = m := rfl
@[simp] theorem apply_mmu_chans (m : Mmu) (d : Dev) : ((Eff.mmu m).apply d).chans = d.chans := rfl
@[simp] theorem apply_mmu_counters (m : Mmu) (d : Dev) : ((Eff.mmu m).apply d).counters = d.counters := rfl
@[simp] theorem apply_mmu_watches (m : Mmu) (d : Dev) : ((Eff.mmu m).apply d).watches = d.watches := rfl
@[simp] theorem apply_mmu_ports (m : Mmu) (d : Dev) : ((Eff.mmu m).apply d).ports = d.ports := rfl
@[simp] theorem apply_mmu_dseq (m : Mmu) (d : Dev) : ((Eff.mmu m).apply d).dseq = d.dseq := rfl
@[simp] theorem apply_mmu_xcn (m : Mmu) (d : Dev) : ((Eff.mmu m).apply d).xcn = d.xcn := rfl
@[simp] theorem apply_mmu_peers (m : Mmu) (d : Dev) : ((Eff.mmu m).apply d).peers = d.peers := rfl
@[simp] theorem apply_mmu_sync (m : Mmu) (d : Dev) : ((Eff.mmu m).apply d).sync = d.sync := rfl
@[simp] theorem apply_mmu_hosts (m : Mmu) (d : Dev) : ((Eff.mmu m).apply d).hosts = d.hosts := rfl
@[simp] theorem apply_mmu_circ (m : Mmu) (d : Dev) : ((Eff.mmu m).apply d).circ = d.circ := rfl
@[simp] theorem apply_mmu_found (m : Mmu) (d : Dev) : ((Eff.mmu m).apply d).found = d.found := rfl
@[simp] theorem apply_mmu_obs (m : Mmu) (d : Dev) : ((Eff.mmu m).apply d).obs = d.obs := rfl
@[simp] theorem apply_mmu_tallies (m : Mmu) (d : Dev) : ((Eff.mmu m).apply d).tallies = d.tallies := rfl
@[simp] theorem apply_mmu_sec (m : Mmu) (d : Dev) : ((Eff.mmu m).apply d).sec = d.sec := rfl
@[simp] theorem apply_mmu_job (m : Mmu) (d : Dev) : ((Eff.mmu m).apply d).job = d.job := rfl
@[simp] theorem apply_mmu_course (m : Mmu) (d : Dev) : ((Eff.mmu m).apply d).course = d.course := rfl
@[simp] theorem apply_mmu_shore (m : Mmu) (d : Dev) : ((Eff.mmu m).apply d).shore = d.shore := rfl
@[simp] theorem apply_mmu_wit (m : Mmu) (d : Dev) : ((Eff.mmu m).apply d).wit = d.wit := rfl
@[simp] theorem apply_mmu_slots (m : Mmu) (d : Dev) : ((Eff.mmu m).apply d).slots = d.slots := rfl
@[simp] theorem apply_mmu_start (m : Mmu) (d : Dev) : ((Eff.mmu m).apply d).start = d.start := rfl
@[simp] theorem apply_mmu_hold (m : Mmu) (d : Dev) : ((Eff.mmu m).apply d).hold = d.hold := rfl
@[simp] theorem apply_mmu_rst (m : Mmu) (d : Dev) : ((Eff.mmu m).apply d).rst = d.rst := rfl
@[simp] theorem apply_mmu_clk (m : Mmu) (d : Dev) : ((Eff.mmu m).apply d).clk = d.clk := rfl
@[simp] theorem apply_mmu_podTime (m : Mmu) (d : Dev) : ((Eff.mmu m).apply d).podTime = d.podTime := rfl
@[simp] theorem apply_mmu_status (m : Mmu) (d : Dev) : ((Eff.mmu m).apply d).status = d.status := rfl
@[simp] theorem apply_mmu_free (m : Mmu) (d : Dev) : ((Eff.mmu m).apply d).free = d.free := rfl
@[simp] theorem apply_mmu_out (m : Mmu) (d : Dev) : ((Eff.mmu m).apply d).out = d.out := rfl

/-! ### chan -/

@[simp] theorem apply_chan_power (n : Nat) (c : Chan) (d : Dev) : ((Eff.chan n c).apply d).power = d.power := rfl
@[simp] theorem apply_chan_mode (n : Nat) (c : Chan) (d : Dev) : ((Eff.chan n c).apply d).mode = d.mode := rfl
@[simp] theorem apply_chan_ctl (n : Nat) (c : Chan) (d : Dev) : ((Eff.chan n c).apply d).ctl = d.ctl := rfl
@[simp] theorem apply_chan_mem (n : Nat) (c : Chan) (d : Dev) : ((Eff.chan n c).apply d).mem = d.mem := rfl
@[simp] theorem apply_chan_checks (n : Nat) (c : Chan) (d : Dev) : ((Eff.chan n c).apply d).checks = d.checks := rfl
@[simp] theorem apply_chan_tiles (n : Nat) (c : Chan) (d : Dev) : ((Eff.chan n c).apply d).tiles = d.tiles := rfl
@[simp] theorem apply_chan_savedTiles (n : Nat) (c : Chan) (d : Dev) : ((Eff.chan n c).apply d).savedTiles = d.savedTiles := rfl
@[simp] theorem apply_chan_agents (n : Nat) (c : Chan) (d : Dev) : ((Eff.chan n c).apply d).agents = d.agents := rfl
@[simp] theorem apply_chan_mmu (n : Nat) (c : Chan) (d : Dev) : ((Eff.chan n c).apply d).mmu = d.mmu := rfl
@[simp] theorem apply_chan_chans (n : Nat) (c : Chan) (d : Dev) : ((Eff.chan n c).apply d).chans = Store.put chanReset d.chans n c := rfl
@[simp] theorem apply_chan_counters (n : Nat) (c : Chan) (d : Dev) : ((Eff.chan n c).apply d).counters = d.counters := rfl
@[simp] theorem apply_chan_watches (n : Nat) (c : Chan) (d : Dev) : ((Eff.chan n c).apply d).watches = d.watches := rfl
@[simp] theorem apply_chan_ports (n : Nat) (c : Chan) (d : Dev) : ((Eff.chan n c).apply d).ports = d.ports := rfl
@[simp] theorem apply_chan_dseq (n : Nat) (c : Chan) (d : Dev) : ((Eff.chan n c).apply d).dseq = d.dseq := rfl
@[simp] theorem apply_chan_xcn (n : Nat) (c : Chan) (d : Dev) : ((Eff.chan n c).apply d).xcn = d.xcn := rfl
@[simp] theorem apply_chan_peers (n : Nat) (c : Chan) (d : Dev) : ((Eff.chan n c).apply d).peers = d.peers := rfl
@[simp] theorem apply_chan_sync (n : Nat) (c : Chan) (d : Dev) : ((Eff.chan n c).apply d).sync = d.sync := rfl
@[simp] theorem apply_chan_hosts (n : Nat) (c : Chan) (d : Dev) : ((Eff.chan n c).apply d).hosts = d.hosts := rfl
@[simp] theorem apply_chan_circ (n : Nat) (c : Chan) (d : Dev) : ((Eff.chan n c).apply d).circ = d.circ := rfl
@[simp] theorem apply_chan_found (n : Nat) (c : Chan) (d : Dev) : ((Eff.chan n c).apply d).found = d.found := rfl
@[simp] theorem apply_chan_obs (n : Nat) (c : Chan) (d : Dev) : ((Eff.chan n c).apply d).obs = d.obs := rfl
@[simp] theorem apply_chan_tallies (n : Nat) (c : Chan) (d : Dev) : ((Eff.chan n c).apply d).tallies = d.tallies := rfl
@[simp] theorem apply_chan_sec (n : Nat) (c : Chan) (d : Dev) : ((Eff.chan n c).apply d).sec = d.sec := rfl
@[simp] theorem apply_chan_job (n : Nat) (c : Chan) (d : Dev) : ((Eff.chan n c).apply d).job = d.job := rfl
@[simp] theorem apply_chan_course (n : Nat) (c : Chan) (d : Dev) : ((Eff.chan n c).apply d).course = d.course := rfl
@[simp] theorem apply_chan_shore (n : Nat) (c : Chan) (d : Dev) : ((Eff.chan n c).apply d).shore = d.shore := rfl
@[simp] theorem apply_chan_wit (n : Nat) (c : Chan) (d : Dev) : ((Eff.chan n c).apply d).wit = d.wit := rfl
@[simp] theorem apply_chan_slots (n : Nat) (c : Chan) (d : Dev) : ((Eff.chan n c).apply d).slots = d.slots := rfl
@[simp] theorem apply_chan_start (n : Nat) (c : Chan) (d : Dev) : ((Eff.chan n c).apply d).start = d.start := rfl
@[simp] theorem apply_chan_hold (n : Nat) (c : Chan) (d : Dev) : ((Eff.chan n c).apply d).hold = d.hold := rfl
@[simp] theorem apply_chan_rst (n : Nat) (c : Chan) (d : Dev) : ((Eff.chan n c).apply d).rst = d.rst := rfl
@[simp] theorem apply_chan_clk (n : Nat) (c : Chan) (d : Dev) : ((Eff.chan n c).apply d).clk = d.clk := rfl
@[simp] theorem apply_chan_podTime (n : Nat) (c : Chan) (d : Dev) : ((Eff.chan n c).apply d).podTime = d.podTime := rfl
@[simp] theorem apply_chan_status (n : Nat) (c : Chan) (d : Dev) : ((Eff.chan n c).apply d).status = d.status := rfl
@[simp] theorem apply_chan_free (n : Nat) (c : Chan) (d : Dev) : ((Eff.chan n c).apply d).free = d.free := rfl
@[simp] theorem apply_chan_out (n : Nat) (c : Chan) (d : Dev) : ((Eff.chan n c).apply d).out = d.out := rfl

/-! ### counter -/

@[simp] theorem apply_counter_power (n : Nat) (v : W64) (d : Dev) : ((Eff.counter n v).apply d).power = d.power := rfl
@[simp] theorem apply_counter_mode (n : Nat) (v : W64) (d : Dev) : ((Eff.counter n v).apply d).mode = d.mode := rfl
@[simp] theorem apply_counter_ctl (n : Nat) (v : W64) (d : Dev) : ((Eff.counter n v).apply d).ctl = d.ctl := rfl
@[simp] theorem apply_counter_mem (n : Nat) (v : W64) (d : Dev) : ((Eff.counter n v).apply d).mem = d.mem := rfl
@[simp] theorem apply_counter_checks (n : Nat) (v : W64) (d : Dev) : ((Eff.counter n v).apply d).checks = d.checks := rfl
@[simp] theorem apply_counter_tiles (n : Nat) (v : W64) (d : Dev) : ((Eff.counter n v).apply d).tiles = d.tiles := rfl
@[simp] theorem apply_counter_savedTiles (n : Nat) (v : W64) (d : Dev) : ((Eff.counter n v).apply d).savedTiles = d.savedTiles := rfl
@[simp] theorem apply_counter_agents (n : Nat) (v : W64) (d : Dev) : ((Eff.counter n v).apply d).agents = d.agents := rfl
@[simp] theorem apply_counter_mmu (n : Nat) (v : W64) (d : Dev) : ((Eff.counter n v).apply d).mmu = d.mmu := rfl
@[simp] theorem apply_counter_chans (n : Nat) (v : W64) (d : Dev) : ((Eff.counter n v).apply d).chans = d.chans := rfl
@[simp] theorem apply_counter_counters (n : Nat) (v : W64) (d : Dev) : ((Eff.counter n v).apply d).counters = Store.put counterReset d.counters n v := rfl
@[simp] theorem apply_counter_watches (n : Nat) (v : W64) (d : Dev) : ((Eff.counter n v).apply d).watches = d.watches := rfl
@[simp] theorem apply_counter_ports (n : Nat) (v : W64) (d : Dev) : ((Eff.counter n v).apply d).ports = d.ports := rfl
@[simp] theorem apply_counter_dseq (n : Nat) (v : W64) (d : Dev) : ((Eff.counter n v).apply d).dseq = d.dseq := rfl
@[simp] theorem apply_counter_xcn (n : Nat) (v : W64) (d : Dev) : ((Eff.counter n v).apply d).xcn = d.xcn := rfl
@[simp] theorem apply_counter_peers (n : Nat) (v : W64) (d : Dev) : ((Eff.counter n v).apply d).peers = d.peers := rfl
@[simp] theorem apply_counter_sync (n : Nat) (v : W64) (d : Dev) : ((Eff.counter n v).apply d).sync = d.sync := rfl
@[simp] theorem apply_counter_hosts (n : Nat) (v : W64) (d : Dev) : ((Eff.counter n v).apply d).hosts = d.hosts := rfl
@[simp] theorem apply_counter_circ (n : Nat) (v : W64) (d : Dev) : ((Eff.counter n v).apply d).circ = d.circ := rfl
@[simp] theorem apply_counter_found (n : Nat) (v : W64) (d : Dev) : ((Eff.counter n v).apply d).found = d.found := rfl
@[simp] theorem apply_counter_obs (n : Nat) (v : W64) (d : Dev) : ((Eff.counter n v).apply d).obs = d.obs := rfl
@[simp] theorem apply_counter_tallies (n : Nat) (v : W64) (d : Dev) : ((Eff.counter n v).apply d).tallies = d.tallies := rfl
@[simp] theorem apply_counter_sec (n : Nat) (v : W64) (d : Dev) : ((Eff.counter n v).apply d).sec = d.sec := rfl
@[simp] theorem apply_counter_job (n : Nat) (v : W64) (d : Dev) : ((Eff.counter n v).apply d).job = d.job := rfl
@[simp] theorem apply_counter_course (n : Nat) (v : W64) (d : Dev) : ((Eff.counter n v).apply d).course = d.course := rfl
@[simp] theorem apply_counter_shore (n : Nat) (v : W64) (d : Dev) : ((Eff.counter n v).apply d).shore = d.shore := rfl
@[simp] theorem apply_counter_wit (n : Nat) (v : W64) (d : Dev) : ((Eff.counter n v).apply d).wit = d.wit := rfl
@[simp] theorem apply_counter_slots (n : Nat) (v : W64) (d : Dev) : ((Eff.counter n v).apply d).slots = d.slots := rfl
@[simp] theorem apply_counter_start (n : Nat) (v : W64) (d : Dev) : ((Eff.counter n v).apply d).start = d.start := rfl
@[simp] theorem apply_counter_hold (n : Nat) (v : W64) (d : Dev) : ((Eff.counter n v).apply d).hold = d.hold := rfl
@[simp] theorem apply_counter_rst (n : Nat) (v : W64) (d : Dev) : ((Eff.counter n v).apply d).rst = d.rst := rfl
@[simp] theorem apply_counter_clk (n : Nat) (v : W64) (d : Dev) : ((Eff.counter n v).apply d).clk = d.clk := rfl
@[simp] theorem apply_counter_podTime (n : Nat) (v : W64) (d : Dev) : ((Eff.counter n v).apply d).podTime = d.podTime := rfl
@[simp] theorem apply_counter_status (n : Nat) (v : W64) (d : Dev) : ((Eff.counter n v).apply d).status = d.status := rfl
@[simp] theorem apply_counter_free (n : Nat) (v : W64) (d : Dev) : ((Eff.counter n v).apply d).free = d.free := rfl
@[simp] theorem apply_counter_out (n : Nat) (v : W64) (d : Dev) : ((Eff.counter n v).apply d).out = d.out := rfl

/-! ### watch -/

@[simp] theorem apply_watch_power (n : Nat) (w : Option Watch) (d : Dev) : ((Eff.watch n w).apply d).power = d.power := by cases w <;> rfl
@[simp] theorem apply_watch_mode (n : Nat) (w : Option Watch) (d : Dev) : ((Eff.watch n w).apply d).mode = d.mode := by cases w <;> rfl
@[simp] theorem apply_watch_ctl (n : Nat) (w : Option Watch) (d : Dev) : ((Eff.watch n w).apply d).ctl = d.ctl := by cases w <;> rfl
@[simp] theorem apply_watch_mem (n : Nat) (w : Option Watch) (d : Dev) : ((Eff.watch n w).apply d).mem = d.mem := by cases w <;> rfl
@[simp] theorem apply_watch_checks (n : Nat) (w : Option Watch) (d : Dev) : ((Eff.watch n w).apply d).checks = d.checks := by cases w <;> rfl
@[simp] theorem apply_watch_tiles (n : Nat) (w : Option Watch) (d : Dev) : ((Eff.watch n w).apply d).tiles = d.tiles := by cases w <;> rfl
@[simp] theorem apply_watch_savedTiles (n : Nat) (w : Option Watch) (d : Dev) : ((Eff.watch n w).apply d).savedTiles = d.savedTiles := by cases w <;> rfl
@[simp] theorem apply_watch_agents (n : Nat) (w : Option Watch) (d : Dev) : ((Eff.watch n w).apply d).agents = d.agents := by cases w <;> rfl
@[simp] theorem apply_watch_mmu (n : Nat) (w : Option Watch) (d : Dev) : ((Eff.watch n w).apply d).mmu = d.mmu := by cases w <;> rfl
@[simp] theorem apply_watch_chans (n : Nat) (w : Option Watch) (d : Dev) : ((Eff.watch n w).apply d).chans = d.chans := by cases w <;> rfl
@[simp] theorem apply_watch_counters (n : Nat) (w : Option Watch) (d : Dev) : ((Eff.watch n w).apply d).counters = d.counters := by cases w <;> rfl
@[simp] theorem apply_watch_some_watches (n : Nat) (w : Watch) (d : Dev) : ((Eff.watch n (some w)).apply d).watches = Store.insert d.watches n w := rfl
@[simp] theorem apply_watch_none_watches (n : Nat) (d : Dev) : ((Eff.watch n none).apply d).watches = Store.remove d.watches n := rfl
@[simp] theorem apply_watch_ports (n : Nat) (w : Option Watch) (d : Dev) : ((Eff.watch n w).apply d).ports = d.ports := by cases w <;> rfl
@[simp] theorem apply_watch_dseq (n : Nat) (w : Option Watch) (d : Dev) : ((Eff.watch n w).apply d).dseq = d.dseq := by cases w <;> rfl
@[simp] theorem apply_watch_xcn (n : Nat) (w : Option Watch) (d : Dev) : ((Eff.watch n w).apply d).xcn = d.xcn := by cases w <;> rfl
@[simp] theorem apply_watch_peers (n : Nat) (w : Option Watch) (d : Dev) : ((Eff.watch n w).apply d).peers = d.peers := by cases w <;> rfl
@[simp] theorem apply_watch_sync (n : Nat) (w : Option Watch) (d : Dev) : ((Eff.watch n w).apply d).sync = d.sync := by cases w <;> rfl
@[simp] theorem apply_watch_hosts (n : Nat) (w : Option Watch) (d : Dev) : ((Eff.watch n w).apply d).hosts = d.hosts := by cases w <;> rfl
@[simp] theorem apply_watch_circ (n : Nat) (w : Option Watch) (d : Dev) : ((Eff.watch n w).apply d).circ = d.circ := by cases w <;> rfl
@[simp] theorem apply_watch_found (n : Nat) (w : Option Watch) (d : Dev) : ((Eff.watch n w).apply d).found = d.found := by cases w <;> rfl
@[simp] theorem apply_watch_obs (n : Nat) (w : Option Watch) (d : Dev) : ((Eff.watch n w).apply d).obs = d.obs := by cases w <;> rfl
@[simp] theorem apply_watch_tallies (n : Nat) (w : Option Watch) (d : Dev) : ((Eff.watch n w).apply d).tallies = d.tallies := by cases w <;> rfl
@[simp] theorem apply_watch_sec (n : Nat) (w : Option Watch) (d : Dev) : ((Eff.watch n w).apply d).sec = d.sec := by cases w <;> rfl
@[simp] theorem apply_watch_job (n : Nat) (w : Option Watch) (d : Dev) : ((Eff.watch n w).apply d).job = d.job := by cases w <;> rfl
@[simp] theorem apply_watch_course (n : Nat) (w : Option Watch) (d : Dev) : ((Eff.watch n w).apply d).course = d.course := by cases w <;> rfl
@[simp] theorem apply_watch_shore (n : Nat) (w : Option Watch) (d : Dev) : ((Eff.watch n w).apply d).shore = d.shore := by cases w <;> rfl
@[simp] theorem apply_watch_wit (n : Nat) (w : Option Watch) (d : Dev) : ((Eff.watch n w).apply d).wit = d.wit := by cases w <;> rfl
@[simp] theorem apply_watch_slots (n : Nat) (w : Option Watch) (d : Dev) : ((Eff.watch n w).apply d).slots = d.slots := by cases w <;> rfl
@[simp] theorem apply_watch_start (n : Nat) (w : Option Watch) (d : Dev) : ((Eff.watch n w).apply d).start = d.start := by cases w <;> rfl
@[simp] theorem apply_watch_hold (n : Nat) (w : Option Watch) (d : Dev) : ((Eff.watch n w).apply d).hold = d.hold := by cases w <;> rfl
@[simp] theorem apply_watch_rst (n : Nat) (w : Option Watch) (d : Dev) : ((Eff.watch n w).apply d).rst = d.rst := by cases w <;> rfl
@[simp] theorem apply_watch_clk (n : Nat) (w : Option Watch) (d : Dev) : ((Eff.watch n w).apply d).clk = d.clk := by cases w <;> rfl
@[simp] theorem apply_watch_podTime (n : Nat) (w : Option Watch) (d : Dev) : ((Eff.watch n w).apply d).podTime = d.podTime := by cases w <;> rfl
@[simp] theorem apply_watch_status (n : Nat) (w : Option Watch) (d : Dev) : ((Eff.watch n w).apply d).status = d.status := by cases w <;> rfl
@[simp] theorem apply_watch_free (n : Nat) (w : Option Watch) (d : Dev) : ((Eff.watch n w).apply d).free = d.free := by cases w <;> rfl
@[simp] theorem apply_watch_out (n : Nat) (w : Option Watch) (d : Dev) : ((Eff.watch n w).apply d).out = d.out := by cases w <;> rfl

/-! ### peer -/

@[simp] theorem apply_peer_power (n : Nat) (p : PeerSess) (d : Dev) : ((Eff.peer n p).apply d).power = d.power := rfl
@[simp] theorem apply_peer_mode (n : Nat) (p : PeerSess) (d : Dev) : ((Eff.peer n p).apply d).mode = d.mode := rfl
@[simp] theorem apply_peer_ctl (n : Nat) (p : PeerSess) (d : Dev) : ((Eff.peer n p).apply d).ctl = d.ctl := rfl
@[simp] theorem apply_peer_mem (n : Nat) (p : PeerSess) (d : Dev) : ((Eff.peer n p).apply d).mem = d.mem := rfl
@[simp] theorem apply_peer_checks (n : Nat) (p : PeerSess) (d : Dev) : ((Eff.peer n p).apply d).checks = d.checks := rfl
@[simp] theorem apply_peer_tiles (n : Nat) (p : PeerSess) (d : Dev) : ((Eff.peer n p).apply d).tiles = d.tiles := rfl
@[simp] theorem apply_peer_savedTiles (n : Nat) (p : PeerSess) (d : Dev) : ((Eff.peer n p).apply d).savedTiles = d.savedTiles := rfl
@[simp] theorem apply_peer_agents (n : Nat) (p : PeerSess) (d : Dev) : ((Eff.peer n p).apply d).agents = d.agents := rfl
@[simp] theorem apply_peer_mmu (n : Nat) (p : PeerSess) (d : Dev) : ((Eff.peer n p).apply d).mmu = d.mmu := rfl
@[simp] theorem apply_peer_chans (n : Nat) (p : PeerSess) (d : Dev) : ((Eff.peer n p).apply d).chans = d.chans := rfl
@[simp] theorem apply_peer_counters (n : Nat) (p : PeerSess) (d : Dev) : ((Eff.peer n p).apply d).counters = d.counters := rfl
@[simp] theorem apply_peer_watches (n : Nat) (p : PeerSess) (d : Dev) : ((Eff.peer n p).apply d).watches = d.watches := rfl
@[simp] theorem apply_peer_ports (n : Nat) (p : PeerSess) (d : Dev) : ((Eff.peer n p).apply d).ports = d.ports := rfl
@[simp] theorem apply_peer_dseq (n : Nat) (p : PeerSess) (d : Dev) : ((Eff.peer n p).apply d).dseq = d.dseq := rfl
@[simp] theorem apply_peer_xcn (n : Nat) (p : PeerSess) (d : Dev) : ((Eff.peer n p).apply d).xcn = d.xcn := rfl
@[simp] theorem apply_peer_peers (n : Nat) (p : PeerSess) (d : Dev) : ((Eff.peer n p).apply d).peers = Store.put peerReset d.peers n p := rfl
@[simp] theorem apply_peer_sync (n : Nat) (p : PeerSess) (d : Dev) : ((Eff.peer n p).apply d).sync = d.sync := rfl
@[simp] theorem apply_peer_hosts (n : Nat) (p : PeerSess) (d : Dev) : ((Eff.peer n p).apply d).hosts = d.hosts := rfl
@[simp] theorem apply_peer_circ (n : Nat) (p : PeerSess) (d : Dev) : ((Eff.peer n p).apply d).circ = d.circ := rfl
@[simp] theorem apply_peer_found (n : Nat) (p : PeerSess) (d : Dev) : ((Eff.peer n p).apply d).found = d.found := rfl
@[simp] theorem apply_peer_obs (n : Nat) (p : PeerSess) (d : Dev) : ((Eff.peer n p).apply d).obs = d.obs := rfl
@[simp] theorem apply_peer_tallies (n : Nat) (p : PeerSess) (d : Dev) : ((Eff.peer n p).apply d).tallies = d.tallies := rfl
@[simp] theorem apply_peer_sec (n : Nat) (p : PeerSess) (d : Dev) : ((Eff.peer n p).apply d).sec = d.sec := rfl
@[simp] theorem apply_peer_job (n : Nat) (p : PeerSess) (d : Dev) : ((Eff.peer n p).apply d).job = d.job := rfl
@[simp] theorem apply_peer_course (n : Nat) (p : PeerSess) (d : Dev) : ((Eff.peer n p).apply d).course = d.course := rfl
@[simp] theorem apply_peer_shore (n : Nat) (p : PeerSess) (d : Dev) : ((Eff.peer n p).apply d).shore = d.shore := rfl
@[simp] theorem apply_peer_wit (n : Nat) (p : PeerSess) (d : Dev) : ((Eff.peer n p).apply d).wit = d.wit := rfl
@[simp] theorem apply_peer_slots (n : Nat) (p : PeerSess) (d : Dev) : ((Eff.peer n p).apply d).slots = d.slots := rfl
@[simp] theorem apply_peer_start (n : Nat) (p : PeerSess) (d : Dev) : ((Eff.peer n p).apply d).start = d.start := rfl
@[simp] theorem apply_peer_hold (n : Nat) (p : PeerSess) (d : Dev) : ((Eff.peer n p).apply d).hold = d.hold := rfl
@[simp] theorem apply_peer_rst (n : Nat) (p : PeerSess) (d : Dev) : ((Eff.peer n p).apply d).rst = d.rst := rfl
@[simp] theorem apply_peer_clk (n : Nat) (p : PeerSess) (d : Dev) : ((Eff.peer n p).apply d).clk = d.clk := rfl
@[simp] theorem apply_peer_podTime (n : Nat) (p : PeerSess) (d : Dev) : ((Eff.peer n p).apply d).podTime = d.podTime := rfl
@[simp] theorem apply_peer_status (n : Nat) (p : PeerSess) (d : Dev) : ((Eff.peer n p).apply d).status = d.status := rfl
@[simp] theorem apply_peer_free (n : Nat) (p : PeerSess) (d : Dev) : ((Eff.peer n p).apply d).free = d.free := rfl
@[simp] theorem apply_peer_out (n : Nat) (p : PeerSess) (d : Dev) : ((Eff.peer n p).apply d).out = d.out := rfl

/-! ### port -/

@[simp] theorem apply_port_power (n : Nat) (p : Port) (d : Dev) : ((Eff.port n p).apply d).power = d.power := rfl
@[simp] theorem apply_port_mode (n : Nat) (p : Port) (d : Dev) : ((Eff.port n p).apply d).mode = d.mode := rfl
@[simp] theorem apply_port_ctl (n : Nat) (p : Port) (d : Dev) : ((Eff.port n p).apply d).ctl = d.ctl := rfl
@[simp] theorem apply_port_mem (n : Nat) (p : Port) (d : Dev) : ((Eff.port n p).apply d).mem = d.mem := rfl
@[simp] theorem apply_port_checks (n : Nat) (p : Port) (d : Dev) : ((Eff.port n p).apply d).checks = d.checks := rfl
@[simp] theorem apply_port_tiles (n : Nat) (p : Port) (d : Dev) : ((Eff.port n p).apply d).tiles = d.tiles := rfl
@[simp] theorem apply_port_savedTiles (n : Nat) (p : Port) (d : Dev) : ((Eff.port n p).apply d).savedTiles = d.savedTiles := rfl
@[simp] theorem apply_port_agents (n : Nat) (p : Port) (d : Dev) : ((Eff.port n p).apply d).agents = d.agents := rfl
@[simp] theorem apply_port_mmu (n : Nat) (p : Port) (d : Dev) : ((Eff.port n p).apply d).mmu = d.mmu := rfl
@[simp] theorem apply_port_chans (n : Nat) (p : Port) (d : Dev) : ((Eff.port n p).apply d).chans = d.chans := rfl
@[simp] theorem apply_port_counters (n : Nat) (p : Port) (d : Dev) : ((Eff.port n p).apply d).counters = d.counters := rfl
@[simp] theorem apply_port_watches (n : Nat) (p : Port) (d : Dev) : ((Eff.port n p).apply d).watches = d.watches := rfl
@[simp] theorem apply_port_ports (n : Nat) (p : Port) (d : Dev) : ((Eff.port n p).apply d).ports = Store.put portReset d.ports n p := rfl
@[simp] theorem apply_port_dseq (n : Nat) (p : Port) (d : Dev) : ((Eff.port n p).apply d).dseq = d.dseq := rfl
@[simp] theorem apply_port_xcn (n : Nat) (p : Port) (d : Dev) : ((Eff.port n p).apply d).xcn = d.xcn := rfl
@[simp] theorem apply_port_peers (n : Nat) (p : Port) (d : Dev) : ((Eff.port n p).apply d).peers = d.peers := rfl
@[simp] theorem apply_port_sync (n : Nat) (p : Port) (d : Dev) : ((Eff.port n p).apply d).sync = d.sync := rfl
@[simp] theorem apply_port_hosts (n : Nat) (p : Port) (d : Dev) : ((Eff.port n p).apply d).hosts = d.hosts := rfl
@[simp] theorem apply_port_circ (n : Nat) (p : Port) (d : Dev) : ((Eff.port n p).apply d).circ = d.circ := rfl
@[simp] theorem apply_port_found (n : Nat) (p : Port) (d : Dev) : ((Eff.port n p).apply d).found = d.found := rfl
@[simp] theorem apply_port_obs (n : Nat) (p : Port) (d : Dev) : ((Eff.port n p).apply d).obs = d.obs := rfl
@[simp] theorem apply_port_tallies (n : Nat) (p : Port) (d : Dev) : ((Eff.port n p).apply d).tallies = d.tallies := rfl
@[simp] theorem apply_port_sec (n : Nat) (p : Port) (d : Dev) : ((Eff.port n p).apply d).sec = d.sec := rfl
@[simp] theorem apply_port_job (n : Nat) (p : Port) (d : Dev) : ((Eff.port n p).apply d).job = d.job := rfl
@[simp] theorem apply_port_course (n : Nat) (p : Port) (d : Dev) : ((Eff.port n p).apply d).course = d.course := rfl
@[simp] theorem apply_port_shore (n : Nat) (p : Port) (d : Dev) : ((Eff.port n p).apply d).shore = d.shore := rfl
@[simp] theorem apply_port_wit (n : Nat) (p : Port) (d : Dev) : ((Eff.port n p).apply d).wit = d.wit := rfl
@[simp] theorem apply_port_slots (n : Nat) (p : Port) (d : Dev) : ((Eff.port n p).apply d).slots = d.slots := rfl
@[simp] theorem apply_port_start (n : Nat) (p : Port) (d : Dev) : ((Eff.port n p).apply d).start = d.start := rfl
@[simp] theorem apply_port_hold (n : Nat) (p : Port) (d : Dev) : ((Eff.port n p).apply d).hold = d.hold := rfl
@[simp] theorem apply_port_rst (n : Nat) (p : Port) (d : Dev) : ((Eff.port n p).apply d).rst = d.rst := rfl
@[simp] theorem apply_port_clk (n : Nat) (p : Port) (d : Dev) : ((Eff.port n p).apply d).clk = d.clk := rfl
@[simp] theorem apply_port_podTime (n : Nat) (p : Port) (d : Dev) : ((Eff.port n p).apply d).podTime = d.podTime := rfl
@[simp] theorem apply_port_status (n : Nat) (p : Port) (d : Dev) : ((Eff.port n p).apply d).status = d.status := rfl
@[simp] theorem apply_port_free (n : Nat) (p : Port) (d : Dev) : ((Eff.port n p).apply d).free = d.free := rfl
@[simp] theorem apply_port_out (n : Nat) (p : Port) (d : Dev) : ((Eff.port n p).apply d).out = d.out := rfl

/-! ### dseq -/

@[simp] theorem apply_dseq_power (o : Nat) (x : DStream) (d : Dev) : ((Eff.dseq o x).apply d).power = d.power := rfl
@[simp] theorem apply_dseq_mode (o : Nat) (x : DStream) (d : Dev) : ((Eff.dseq o x).apply d).mode = d.mode := rfl
@[simp] theorem apply_dseq_ctl (o : Nat) (x : DStream) (d : Dev) : ((Eff.dseq o x).apply d).ctl = d.ctl := rfl
@[simp] theorem apply_dseq_mem (o : Nat) (x : DStream) (d : Dev) : ((Eff.dseq o x).apply d).mem = d.mem := rfl
@[simp] theorem apply_dseq_checks (o : Nat) (x : DStream) (d : Dev) : ((Eff.dseq o x).apply d).checks = d.checks := rfl
@[simp] theorem apply_dseq_tiles (o : Nat) (x : DStream) (d : Dev) : ((Eff.dseq o x).apply d).tiles = d.tiles := rfl
@[simp] theorem apply_dseq_savedTiles (o : Nat) (x : DStream) (d : Dev) : ((Eff.dseq o x).apply d).savedTiles = d.savedTiles := rfl
@[simp] theorem apply_dseq_agents (o : Nat) (x : DStream) (d : Dev) : ((Eff.dseq o x).apply d).agents = d.agents := rfl
@[simp] theorem apply_dseq_mmu (o : Nat) (x : DStream) (d : Dev) : ((Eff.dseq o x).apply d).mmu = d.mmu := rfl
@[simp] theorem apply_dseq_chans (o : Nat) (x : DStream) (d : Dev) : ((Eff.dseq o x).apply d).chans = d.chans := rfl
@[simp] theorem apply_dseq_counters (o : Nat) (x : DStream) (d : Dev) : ((Eff.dseq o x).apply d).counters = d.counters := rfl
@[simp] theorem apply_dseq_watches (o : Nat) (x : DStream) (d : Dev) : ((Eff.dseq o x).apply d).watches = d.watches := rfl
@[simp] theorem apply_dseq_ports (o : Nat) (x : DStream) (d : Dev) : ((Eff.dseq o x).apply d).ports = d.ports := rfl
@[simp] theorem apply_dseq_dseq (o : Nat) (x : DStream) (d : Dev) : ((Eff.dseq o x).apply d).dseq = Store.put dseqReset d.dseq o x := rfl
@[simp] theorem apply_dseq_xcn (o : Nat) (x : DStream) (d : Dev) : ((Eff.dseq o x).apply d).xcn = d.xcn := rfl
@[simp] theorem apply_dseq_peers (o : Nat) (x : DStream) (d : Dev) : ((Eff.dseq o x).apply d).peers = d.peers := rfl
@[simp] theorem apply_dseq_sync (o : Nat) (x : DStream) (d : Dev) : ((Eff.dseq o x).apply d).sync = d.sync := rfl
@[simp] theorem apply_dseq_hosts (o : Nat) (x : DStream) (d : Dev) : ((Eff.dseq o x).apply d).hosts = d.hosts := rfl
@[simp] theorem apply_dseq_circ (o : Nat) (x : DStream) (d : Dev) : ((Eff.dseq o x).apply d).circ = d.circ := rfl
@[simp] theorem apply_dseq_found (o : Nat) (x : DStream) (d : Dev) : ((Eff.dseq o x).apply d).found = d.found := rfl
@[simp] theorem apply_dseq_obs (o : Nat) (x : DStream) (d : Dev) : ((Eff.dseq o x).apply d).obs = d.obs := rfl
@[simp] theorem apply_dseq_tallies (o : Nat) (x : DStream) (d : Dev) : ((Eff.dseq o x).apply d).tallies = d.tallies := rfl
@[simp] theorem apply_dseq_sec (o : Nat) (x : DStream) (d : Dev) : ((Eff.dseq o x).apply d).sec = d.sec := rfl
@[simp] theorem apply_dseq_job (o : Nat) (x : DStream) (d : Dev) : ((Eff.dseq o x).apply d).job = d.job := rfl
@[simp] theorem apply_dseq_course (o : Nat) (x : DStream) (d : Dev) : ((Eff.dseq o x).apply d).course = d.course := rfl
@[simp] theorem apply_dseq_shore (o : Nat) (x : DStream) (d : Dev) : ((Eff.dseq o x).apply d).shore = d.shore := rfl
@[simp] theorem apply_dseq_wit (o : Nat) (x : DStream) (d : Dev) : ((Eff.dseq o x).apply d).wit = d.wit := rfl
@[simp] theorem apply_dseq_slots (o : Nat) (x : DStream) (d : Dev) : ((Eff.dseq o x).apply d).slots = d.slots := rfl
@[simp] theorem apply_dseq_start (o : Nat) (x : DStream) (d : Dev) : ((Eff.dseq o x).apply d).start = d.start := rfl
@[simp] theorem apply_dseq_hold (o : Nat) (x : DStream) (d : Dev) : ((Eff.dseq o x).apply d).hold = d.hold := rfl
@[simp] theorem apply_dseq_rst (o : Nat) (x : DStream) (d : Dev) : ((Eff.dseq o x).apply d).rst = d.rst := rfl
@[simp] theorem apply_dseq_clk (o : Nat) (x : DStream) (d : Dev) : ((Eff.dseq o x).apply d).clk = d.clk := rfl
@[simp] theorem apply_dseq_podTime (o : Nat) (x : DStream) (d : Dev) : ((Eff.dseq o x).apply d).podTime = d.podTime := rfl
@[simp] theorem apply_dseq_status (o : Nat) (x : DStream) (d : Dev) : ((Eff.dseq o x).apply d).status = d.status := rfl
@[simp] theorem apply_dseq_free (o : Nat) (x : DStream) (d : Dev) : ((Eff.dseq o x).apply d).free = d.free := rfl
@[simp] theorem apply_dseq_out (o : Nat) (x : DStream) (d : Dev) : ((Eff.dseq o x).apply d).out = d.out := rfl

/-! ### xcn -/

@[simp] theorem apply_xcn_power (x : Xcn) (d : Dev) : ((Eff.xcn x).apply d).power = d.power := rfl
@[simp] theorem apply_xcn_mode (x : Xcn) (d : Dev) : ((Eff.xcn x).apply d).mode = d.mode := rfl
@[simp] theorem apply_xcn_ctl (x : Xcn) (d : Dev) : ((Eff.xcn x).apply d).ctl = d.ctl := rfl
@[simp] theorem apply_xcn_mem (x : Xcn) (d : Dev) : ((Eff.xcn x).apply d).mem = d.mem := rfl
@[simp] theorem apply_xcn_checks (x : Xcn) (d : Dev) : ((Eff.xcn x).apply d).checks = d.checks := rfl
@[simp] theorem apply_xcn_tiles (x : Xcn) (d : Dev) : ((Eff.xcn x).apply d).tiles = d.tiles := rfl
@[simp] theorem apply_xcn_savedTiles (x : Xcn) (d : Dev) : ((Eff.xcn x).apply d).savedTiles = d.savedTiles := rfl
@[simp] theorem apply_xcn_agents (x : Xcn) (d : Dev) : ((Eff.xcn x).apply d).agents = d.agents := rfl
@[simp] theorem apply_xcn_mmu (x : Xcn) (d : Dev) : ((Eff.xcn x).apply d).mmu = d.mmu := rfl
@[simp] theorem apply_xcn_chans (x : Xcn) (d : Dev) : ((Eff.xcn x).apply d).chans = d.chans := rfl
@[simp] theorem apply_xcn_counters (x : Xcn) (d : Dev) : ((Eff.xcn x).apply d).counters = d.counters := rfl
@[simp] theorem apply_xcn_watches (x : Xcn) (d : Dev) : ((Eff.xcn x).apply d).watches = d.watches := rfl
@[simp] theorem apply_xcn_ports (x : Xcn) (d : Dev) : ((Eff.xcn x).apply d).ports = d.ports := rfl
@[simp] theorem apply_xcn_dseq (x : Xcn) (d : Dev) : ((Eff.xcn x).apply d).dseq = d.dseq := rfl
@[simp] theorem apply_xcn_xcn (x : Xcn) (d : Dev) : ((Eff.xcn x).apply d).xcn = x := rfl
@[simp] theorem apply_xcn_peers (x : Xcn) (d : Dev) : ((Eff.xcn x).apply d).peers = d.peers := rfl
@[simp] theorem apply_xcn_sync (x : Xcn) (d : Dev) : ((Eff.xcn x).apply d).sync = d.sync := rfl
@[simp] theorem apply_xcn_hosts (x : Xcn) (d : Dev) : ((Eff.xcn x).apply d).hosts = d.hosts := rfl
@[simp] theorem apply_xcn_circ (x : Xcn) (d : Dev) : ((Eff.xcn x).apply d).circ = d.circ := rfl
@[simp] theorem apply_xcn_found (x : Xcn) (d : Dev) : ((Eff.xcn x).apply d).found = d.found := rfl
@[simp] theorem apply_xcn_obs (x : Xcn) (d : Dev) : ((Eff.xcn x).apply d).obs = d.obs := rfl
@[simp] theorem apply_xcn_tallies (x : Xcn) (d : Dev) : ((Eff.xcn x).apply d).tallies = d.tallies := rfl
@[simp] theorem apply_xcn_sec (x : Xcn) (d : Dev) : ((Eff.xcn x).apply d).sec = d.sec := rfl
@[simp] theorem apply_xcn_job (x : Xcn) (d : Dev) : ((Eff.xcn x).apply d).job = d.job := rfl
@[simp] theorem apply_xcn_course (x : Xcn) (d : Dev) : ((Eff.xcn x).apply d).course = d.course := rfl
@[simp] theorem apply_xcn_shore (x : Xcn) (d : Dev) : ((Eff.xcn x).apply d).shore = d.shore := rfl
@[simp] theorem apply_xcn_wit (x : Xcn) (d : Dev) : ((Eff.xcn x).apply d).wit = d.wit := rfl
@[simp] theorem apply_xcn_slots (x : Xcn) (d : Dev) : ((Eff.xcn x).apply d).slots = d.slots := rfl
@[simp] theorem apply_xcn_start (x : Xcn) (d : Dev) : ((Eff.xcn x).apply d).start = d.start := rfl
@[simp] theorem apply_xcn_hold (x : Xcn) (d : Dev) : ((Eff.xcn x).apply d).hold = d.hold := rfl
@[simp] theorem apply_xcn_rst (x : Xcn) (d : Dev) : ((Eff.xcn x).apply d).rst = d.rst := rfl
@[simp] theorem apply_xcn_clk (x : Xcn) (d : Dev) : ((Eff.xcn x).apply d).clk = d.clk := rfl
@[simp] theorem apply_xcn_podTime (x : Xcn) (d : Dev) : ((Eff.xcn x).apply d).podTime = d.podTime := rfl
@[simp] theorem apply_xcn_status (x : Xcn) (d : Dev) : ((Eff.xcn x).apply d).status = d.status := rfl
@[simp] theorem apply_xcn_free (x : Xcn) (d : Dev) : ((Eff.xcn x).apply d).free = d.free := rfl
@[simp] theorem apply_xcn_out (x : Xcn) (d : Dev) : ((Eff.xcn x).apply d).out = d.out := rfl

/-! ### sync -/

@[simp] theorem apply_sync_power (x : Sync) (d : Dev) : ((Eff.sync x).apply d).power = d.power := rfl
@[simp] theorem apply_sync_mode (x : Sync) (d : Dev) : ((Eff.sync x).apply d).mode = d.mode := rfl
@[simp] theorem apply_sync_ctl (x : Sync) (d : Dev) : ((Eff.sync x).apply d).ctl = d.ctl := rfl
@[simp] theorem apply_sync_mem (x : Sync) (d : Dev) : ((Eff.sync x).apply d).mem = d.mem := rfl
@[simp] theorem apply_sync_checks (x : Sync) (d : Dev) : ((Eff.sync x).apply d).checks = d.checks := rfl
@[simp] theorem apply_sync_tiles (x : Sync) (d : Dev) : ((Eff.sync x).apply d).tiles = d.tiles := rfl
@[simp] theorem apply_sync_savedTiles (x : Sync) (d : Dev) : ((Eff.sync x).apply d).savedTiles = d.savedTiles := rfl
@[simp] theorem apply_sync_agents (x : Sync) (d : Dev) : ((Eff.sync x).apply d).agents = d.agents := rfl
@[simp] theorem apply_sync_mmu (x : Sync) (d : Dev) : ((Eff.sync x).apply d).mmu = d.mmu := rfl
@[simp] theorem apply_sync_chans (x : Sync) (d : Dev) : ((Eff.sync x).apply d).chans = d.chans := rfl
@[simp] theorem apply_sync_counters (x : Sync) (d : Dev) : ((Eff.sync x).apply d).counters = d.counters := rfl
@[simp] theorem apply_sync_watches (x : Sync) (d : Dev) : ((Eff.sync x).apply d).watches = d.watches := rfl
@[simp] theorem apply_sync_ports (x : Sync) (d : Dev) : ((Eff.sync x).apply d).ports = d.ports := rfl
@[simp] theorem apply_sync_dseq (x : Sync) (d : Dev) : ((Eff.sync x).apply d).dseq = d.dseq := rfl
@[simp] theorem apply_sync_xcn (x : Sync) (d : Dev) : ((Eff.sync x).apply d).xcn = d.xcn := rfl
@[simp] theorem apply_sync_peers (x : Sync) (d : Dev) : ((Eff.sync x).apply d).peers = d.peers := rfl
@[simp] theorem apply_sync_sync (x : Sync) (d : Dev) : ((Eff.sync x).apply d).sync = x := rfl
@[simp] theorem apply_sync_hosts (x : Sync) (d : Dev) : ((Eff.sync x).apply d).hosts = d.hosts := rfl
@[simp] theorem apply_sync_circ (x : Sync) (d : Dev) : ((Eff.sync x).apply d).circ = d.circ := rfl
@[simp] theorem apply_sync_found (x : Sync) (d : Dev) : ((Eff.sync x).apply d).found = d.found := rfl
@[simp] theorem apply_sync_obs (x : Sync) (d : Dev) : ((Eff.sync x).apply d).obs = d.obs := rfl
@[simp] theorem apply_sync_tallies (x : Sync) (d : Dev) : ((Eff.sync x).apply d).tallies = d.tallies := rfl
@[simp] theorem apply_sync_sec (x : Sync) (d : Dev) : ((Eff.sync x).apply d).sec = d.sec := rfl
@[simp] theorem apply_sync_job (x : Sync) (d : Dev) : ((Eff.sync x).apply d).job = d.job := rfl
@[simp] theorem apply_sync_course (x : Sync) (d : Dev) : ((Eff.sync x).apply d).course = d.course := rfl
@[simp] theorem apply_sync_shore (x : Sync) (d : Dev) : ((Eff.sync x).apply d).shore = d.shore := rfl
@[simp] theorem apply_sync_wit (x : Sync) (d : Dev) : ((Eff.sync x).apply d).wit = d.wit := rfl
@[simp] theorem apply_sync_slots (x : Sync) (d : Dev) : ((Eff.sync x).apply d).slots = d.slots := rfl
@[simp] theorem apply_sync_start (x : Sync) (d : Dev) : ((Eff.sync x).apply d).start = d.start := rfl
@[simp] theorem apply_sync_hold (x : Sync) (d : Dev) : ((Eff.sync x).apply d).hold = d.hold := rfl
@[simp] theorem apply_sync_rst (x : Sync) (d : Dev) : ((Eff.sync x).apply d).rst = d.rst := rfl
@[simp] theorem apply_sync_clk (x : Sync) (d : Dev) : ((Eff.sync x).apply d).clk = d.clk := rfl
@[simp] theorem apply_sync_podTime (x : Sync) (d : Dev) : ((Eff.sync x).apply d).podTime = d.podTime := rfl
@[simp] theorem apply_sync_status (x : Sync) (d : Dev) : ((Eff.sync x).apply d).status = d.status := rfl
@[simp] theorem apply_sync_free (x : Sync) (d : Dev) : ((Eff.sync x).apply d).free = d.free := rfl
@[simp] theorem apply_sync_out (x : Sync) (d : Dev) : ((Eff.sync x).apply d).out = d.out := rfl

/-! ### host -/

@[simp] theorem apply_host_power (n : Nat) (h : HSess) (d : Dev) : ((Eff.host n h).apply d).power = d.power := rfl
@[simp] theorem apply_host_mode (n : Nat) (h : HSess) (d : Dev) : ((Eff.host n h).apply d).mode = d.mode := rfl
@[simp] theorem apply_host_ctl (n : Nat) (h : HSess) (d : Dev) : ((Eff.host n h).apply d).ctl = d.ctl := rfl
@[simp] theorem apply_host_mem (n : Nat) (h : HSess) (d : Dev) : ((Eff.host n h).apply d).mem = d.mem := rfl
@[simp] theorem apply_host_checks (n : Nat) (h : HSess) (d : Dev) : ((Eff.host n h).apply d).checks = d.checks := rfl
@[simp] theorem apply_host_tiles (n : Nat) (h : HSess) (d : Dev) : ((Eff.host n h).apply d).tiles = d.tiles := rfl
@[simp] theorem apply_host_savedTiles (n : Nat) (h : HSess) (d : Dev) : ((Eff.host n h).apply d).savedTiles = d.savedTiles := rfl
@[simp] theorem apply_host_agents (n : Nat) (h : HSess) (d : Dev) : ((Eff.host n h).apply d).agents = d.agents := rfl
@[simp] theorem apply_host_mmu (n : Nat) (h : HSess) (d : Dev) : ((Eff.host n h).apply d).mmu = d.mmu := rfl
@[simp] theorem apply_host_chans (n : Nat) (h : HSess) (d : Dev) : ((Eff.host n h).apply d).chans = d.chans := rfl
@[simp] theorem apply_host_counters (n : Nat) (h : HSess) (d : Dev) : ((Eff.host n h).apply d).counters = d.counters := rfl
@[simp] theorem apply_host_watches (n : Nat) (h : HSess) (d : Dev) : ((Eff.host n h).apply d).watches = d.watches := rfl
@[simp] theorem apply_host_ports (n : Nat) (h : HSess) (d : Dev) : ((Eff.host n h).apply d).ports = d.ports := rfl
@[simp] theorem apply_host_dseq (n : Nat) (h : HSess) (d : Dev) : ((Eff.host n h).apply d).dseq = d.dseq := rfl
@[simp] theorem apply_host_xcn (n : Nat) (h : HSess) (d : Dev) : ((Eff.host n h).apply d).xcn = d.xcn := rfl
@[simp] theorem apply_host_peers (n : Nat) (h : HSess) (d : Dev) : ((Eff.host n h).apply d).peers = d.peers := rfl
@[simp] theorem apply_host_sync (n : Nat) (h : HSess) (d : Dev) : ((Eff.host n h).apply d).sync = d.sync := rfl
@[simp] theorem apply_host_hosts (n : Nat) (h : HSess) (d : Dev) : ((Eff.host n h).apply d).hosts = Store.put hostReset d.hosts n h := rfl
@[simp] theorem apply_host_circ (n : Nat) (h : HSess) (d : Dev) : ((Eff.host n h).apply d).circ = d.circ := rfl
@[simp] theorem apply_host_found (n : Nat) (h : HSess) (d : Dev) : ((Eff.host n h).apply d).found = d.found := rfl
@[simp] theorem apply_host_obs (n : Nat) (h : HSess) (d : Dev) : ((Eff.host n h).apply d).obs = d.obs := rfl
@[simp] theorem apply_host_tallies (n : Nat) (h : HSess) (d : Dev) : ((Eff.host n h).apply d).tallies = d.tallies := rfl
@[simp] theorem apply_host_sec (n : Nat) (h : HSess) (d : Dev) : ((Eff.host n h).apply d).sec = d.sec := rfl
@[simp] theorem apply_host_job (n : Nat) (h : HSess) (d : Dev) : ((Eff.host n h).apply d).job = d.job := rfl
@[simp] theorem apply_host_course (n : Nat) (h : HSess) (d : Dev) : ((Eff.host n h).apply d).course = d.course := rfl
@[simp] theorem apply_host_shore (n : Nat) (h : HSess) (d : Dev) : ((Eff.host n h).apply d).shore = d.shore := rfl
@[simp] theorem apply_host_wit (n : Nat) (h : HSess) (d : Dev) : ((Eff.host n h).apply d).wit = d.wit := rfl
@[simp] theorem apply_host_slots (n : Nat) (h : HSess) (d : Dev) : ((Eff.host n h).apply d).slots = d.slots := rfl
@[simp] theorem apply_host_start (n : Nat) (h : HSess) (d : Dev) : ((Eff.host n h).apply d).start = d.start := rfl
@[simp] theorem apply_host_hold (n : Nat) (h : HSess) (d : Dev) : ((Eff.host n h).apply d).hold = d.hold := rfl
@[simp] theorem apply_host_rst (n : Nat) (h : HSess) (d : Dev) : ((Eff.host n h).apply d).rst = d.rst := rfl
@[simp] theorem apply_host_clk (n : Nat) (h : HSess) (d : Dev) : ((Eff.host n h).apply d).clk = d.clk := rfl
@[simp] theorem apply_host_podTime (n : Nat) (h : HSess) (d : Dev) : ((Eff.host n h).apply d).podTime = d.podTime := rfl
@[simp] theorem apply_host_status (n : Nat) (h : HSess) (d : Dev) : ((Eff.host n h).apply d).status = d.status := rfl
@[simp] theorem apply_host_free (n : Nat) (h : HSess) (d : Dev) : ((Eff.host n h).apply d).free = d.free := rfl
@[simp] theorem apply_host_out (n : Nat) (h : HSess) (d : Dev) : ((Eff.host n h).apply d).out = d.out := rfl

/-! ### circ -/

@[simp] theorem apply_circ_power (k : Nat) (r : DRec) (d : Dev) : ((Eff.circ k r).apply d).power = d.power := rfl
@[simp] theorem apply_circ_mode (k : Nat) (r : DRec) (d : Dev) : ((Eff.circ k r).apply d).mode = d.mode := rfl
@[simp] theorem apply_circ_ctl (k : Nat) (r : DRec) (d : Dev) : ((Eff.circ k r).apply d).ctl = d.ctl := rfl
@[simp] theorem apply_circ_mem (k : Nat) (r : DRec) (d : Dev) : ((Eff.circ k r).apply d).mem = d.mem := rfl
@[simp] theorem apply_circ_checks (k : Nat) (r : DRec) (d : Dev) : ((Eff.circ k r).apply d).checks = d.checks := rfl
@[simp] theorem apply_circ_tiles (k : Nat) (r : DRec) (d : Dev) : ((Eff.circ k r).apply d).tiles = d.tiles := rfl
@[simp] theorem apply_circ_savedTiles (k : Nat) (r : DRec) (d : Dev) : ((Eff.circ k r).apply d).savedTiles = d.savedTiles := rfl
@[simp] theorem apply_circ_agents (k : Nat) (r : DRec) (d : Dev) : ((Eff.circ k r).apply d).agents = d.agents := rfl
@[simp] theorem apply_circ_mmu (k : Nat) (r : DRec) (d : Dev) : ((Eff.circ k r).apply d).mmu = d.mmu := rfl
@[simp] theorem apply_circ_chans (k : Nat) (r : DRec) (d : Dev) : ((Eff.circ k r).apply d).chans = d.chans := rfl
@[simp] theorem apply_circ_counters (k : Nat) (r : DRec) (d : Dev) : ((Eff.circ k r).apply d).counters = d.counters := rfl
@[simp] theorem apply_circ_watches (k : Nat) (r : DRec) (d : Dev) : ((Eff.circ k r).apply d).watches = d.watches := rfl
@[simp] theorem apply_circ_ports (k : Nat) (r : DRec) (d : Dev) : ((Eff.circ k r).apply d).ports = d.ports := rfl
@[simp] theorem apply_circ_dseq (k : Nat) (r : DRec) (d : Dev) : ((Eff.circ k r).apply d).dseq = d.dseq := rfl
@[simp] theorem apply_circ_xcn (k : Nat) (r : DRec) (d : Dev) : ((Eff.circ k r).apply d).xcn = d.xcn := rfl
@[simp] theorem apply_circ_peers (k : Nat) (r : DRec) (d : Dev) : ((Eff.circ k r).apply d).peers = d.peers := rfl
@[simp] theorem apply_circ_sync (k : Nat) (r : DRec) (d : Dev) : ((Eff.circ k r).apply d).sync = d.sync := rfl
@[simp] theorem apply_circ_hosts (k : Nat) (r : DRec) (d : Dev) : ((Eff.circ k r).apply d).hosts = d.hosts := rfl
@[simp] theorem apply_circ_circ (k : Nat) (r : DRec) (d : Dev) : ((Eff.circ k r).apply d).circ = Store.insert d.circ k r := rfl
@[simp] theorem apply_circ_found (k : Nat) (r : DRec) (d : Dev) : ((Eff.circ k r).apply d).found = d.found := rfl
@[simp] theorem apply_circ_obs (k : Nat) (r : DRec) (d : Dev) : ((Eff.circ k r).apply d).obs = d.obs := rfl
@[simp] theorem apply_circ_tallies (k : Nat) (r : DRec) (d : Dev) : ((Eff.circ k r).apply d).tallies = d.tallies := rfl
@[simp] theorem apply_circ_sec (k : Nat) (r : DRec) (d : Dev) : ((Eff.circ k r).apply d).sec = d.sec := rfl
@[simp] theorem apply_circ_job (k : Nat) (r : DRec) (d : Dev) : ((Eff.circ k r).apply d).job = d.job := rfl
@[simp] theorem apply_circ_course (k : Nat) (r : DRec) (d : Dev) : ((Eff.circ k r).apply d).course = d.course := rfl
@[simp] theorem apply_circ_shore (k : Nat) (r : DRec) (d : Dev) : ((Eff.circ k r).apply d).shore = d.shore := rfl
@[simp] theorem apply_circ_wit (k : Nat) (r : DRec) (d : Dev) : ((Eff.circ k r).apply d).wit = d.wit := rfl
@[simp] theorem apply_circ_slots (k : Nat) (r : DRec) (d : Dev) : ((Eff.circ k r).apply d).slots = d.slots := rfl
@[simp] theorem apply_circ_start (k : Nat) (r : DRec) (d : Dev) : ((Eff.circ k r).apply d).start = d.start := rfl
@[simp] theorem apply_circ_hold (k : Nat) (r : DRec) (d : Dev) : ((Eff.circ k r).apply d).hold = d.hold := rfl
@[simp] theorem apply_circ_rst (k : Nat) (r : DRec) (d : Dev) : ((Eff.circ k r).apply d).rst = d.rst := rfl
@[simp] theorem apply_circ_clk (k : Nat) (r : DRec) (d : Dev) : ((Eff.circ k r).apply d).clk = d.clk := rfl
@[simp] theorem apply_circ_podTime (k : Nat) (r : DRec) (d : Dev) : ((Eff.circ k r).apply d).podTime = d.podTime := rfl
@[simp] theorem apply_circ_status (k : Nat) (r : DRec) (d : Dev) : ((Eff.circ k r).apply d).status = d.status := rfl
@[simp] theorem apply_circ_free (k : Nat) (r : DRec) (d : Dev) : ((Eff.circ k r).apply d).free = d.free := rfl
@[simp] theorem apply_circ_out (k : Nat) (r : DRec) (d : Dev) : ((Eff.circ k r).apply d).out = d.out := rfl

/-! ### found -/

@[simp] theorem apply_found_power (r : DRec) (d : Dev) : ((Eff.found r).apply d).power = d.power := rfl
@[simp] theorem apply_found_mode (r : DRec) (d : Dev) : ((Eff.found r).apply d).mode = d.mode := rfl
@[simp] theorem apply_found_ctl (r : DRec) (d : Dev) : ((Eff.found r).apply d).ctl = d.ctl := rfl
@[simp] theorem apply_found_mem (r : DRec) (d : Dev) : ((Eff.found r).apply d).mem = d.mem := rfl
@[simp] theorem apply_found_checks (r : DRec) (d : Dev) : ((Eff.found r).apply d).checks = d.checks := rfl
@[simp] theorem apply_found_tiles (r : DRec) (d : Dev) : ((Eff.found r).apply d).tiles = d.tiles := rfl
@[simp] theorem apply_found_savedTiles (r : DRec) (d : Dev) : ((Eff.found r).apply d).savedTiles = d.savedTiles := rfl
@[simp] theorem apply_found_agents (r : DRec) (d : Dev) : ((Eff.found r).apply d).agents = d.agents := rfl
@[simp] theorem apply_found_mmu (r : DRec) (d : Dev) : ((Eff.found r).apply d).mmu = d.mmu := rfl
@[simp] theorem apply_found_chans (r : DRec) (d : Dev) : ((Eff.found r).apply d).chans = d.chans := rfl
@[simp] theorem apply_found_counters (r : DRec) (d : Dev) : ((Eff.found r).apply d).counters = d.counters := rfl
@[simp] theorem apply_found_watches (r : DRec) (d : Dev) : ((Eff.found r).apply d).watches = d.watches := rfl
@[simp] theorem apply_found_ports (r : DRec) (d : Dev) : ((Eff.found r).apply d).ports = d.ports := rfl
@[simp] theorem apply_found_dseq (r : DRec) (d : Dev) : ((Eff.found r).apply d).dseq = d.dseq := rfl
@[simp] theorem apply_found_xcn (r : DRec) (d : Dev) : ((Eff.found r).apply d).xcn = d.xcn := rfl
@[simp] theorem apply_found_peers (r : DRec) (d : Dev) : ((Eff.found r).apply d).peers = d.peers := rfl
@[simp] theorem apply_found_sync (r : DRec) (d : Dev) : ((Eff.found r).apply d).sync = d.sync := rfl
@[simp] theorem apply_found_hosts (r : DRec) (d : Dev) : ((Eff.found r).apply d).hosts = d.hosts := rfl
@[simp] theorem apply_found_circ (r : DRec) (d : Dev) : ((Eff.found r).apply d).circ = d.circ := rfl
@[simp] theorem apply_found_found (r : DRec) (d : Dev) : ((Eff.found r).apply d).found = d.found ++ [r] := rfl
@[simp] theorem apply_found_obs (r : DRec) (d : Dev) : ((Eff.found r).apply d).obs = d.obs := rfl
@[simp] theorem apply_found_tallies (r : DRec) (d : Dev) : ((Eff.found r).apply d).tallies = d.tallies := rfl
@[simp] theorem apply_found_sec (r : DRec) (d : Dev) : ((Eff.found r).apply d).sec = d.sec := rfl
@[simp] theorem apply_found_job (r : DRec) (d : Dev) : ((Eff.found r).apply d).job = d.job := rfl
@[simp] theorem apply_found_course (r : DRec) (d : Dev) : ((Eff.found r).apply d).course = d.course := rfl
@[simp] theorem apply_found_shore (r : DRec) (d : Dev) : ((Eff.found r).apply d).shore = d.shore := rfl
@[simp] theorem apply_found_wit (r : DRec) (d : Dev) : ((Eff.found r).apply d).wit = d.wit := rfl
@[simp] theorem apply_found_slots (r : DRec) (d : Dev) : ((Eff.found r).apply d).slots = d.slots := rfl
@[simp] theorem apply_found_start (r : DRec) (d : Dev) : ((Eff.found r).apply d).start = d.start := rfl
@[simp] theorem apply_found_hold (r : DRec) (d : Dev) : ((Eff.found r).apply d).hold = d.hold := rfl
@[simp] theorem apply_found_rst (r : DRec) (d : Dev) : ((Eff.found r).apply d).rst = d.rst := rfl
@[simp] theorem apply_found_clk (r : DRec) (d : Dev) : ((Eff.found r).apply d).clk = d.clk := rfl
@[simp] theorem apply_found_podTime (r : DRec) (d : Dev) : ((Eff.found r).apply d).podTime = d.podTime := rfl
@[simp] theorem apply_found_status (r : DRec) (d : Dev) : ((Eff.found r).apply d).status = d.status := rfl
@[simp] theorem apply_found_free (r : DRec) (d : Dev) : ((Eff.found r).apply d).free = d.free := rfl
@[simp] theorem apply_found_out (r : DRec) (d : Dev) : ((Eff.found r).apply d).out = d.out := rfl

/-! ### obs -/

@[simp] theorem apply_obs_power (o : Obs) (d : Dev) : ((Eff.obs o).apply d).power = d.power := rfl
@[simp] theorem apply_obs_mode (o : Obs) (d : Dev) : ((Eff.obs o).apply d).mode = d.mode := rfl
@[simp] theorem apply_obs_ctl (o : Obs) (d : Dev) : ((Eff.obs o).apply d).ctl = d.ctl := rfl
@[simp] theorem apply_obs_mem (o : Obs) (d : Dev) : ((Eff.obs o).apply d).mem = d.mem := rfl
@[simp] theorem apply_obs_checks (o : Obs) (d : Dev) : ((Eff.obs o).apply d).checks = d.checks := rfl
@[simp] theorem apply_obs_tiles (o : Obs) (d : Dev) : ((Eff.obs o).apply d).tiles = d.tiles := rfl
@[simp] theorem apply_obs_savedTiles (o : Obs) (d : Dev) : ((Eff.obs o).apply d).savedTiles = d.savedTiles := rfl
@[simp] theorem apply_obs_agents (o : Obs) (d : Dev) : ((Eff.obs o).apply d).agents = d.agents := rfl
@[simp] theorem apply_obs_mmu (o : Obs) (d : Dev) : ((Eff.obs o).apply d).mmu = d.mmu := rfl
@[simp] theorem apply_obs_chans (o : Obs) (d : Dev) : ((Eff.obs o).apply d).chans = d.chans := rfl
@[simp] theorem apply_obs_counters (o : Obs) (d : Dev) : ((Eff.obs o).apply d).counters = d.counters := rfl
@[simp] theorem apply_obs_watches (o : Obs) (d : Dev) : ((Eff.obs o).apply d).watches = d.watches := rfl
@[simp] theorem apply_obs_ports (o : Obs) (d : Dev) : ((Eff.obs o).apply d).ports = d.ports := rfl
@[simp] theorem apply_obs_dseq (o : Obs) (d : Dev) : ((Eff.obs o).apply d).dseq = d.dseq := rfl
@[simp] theorem apply_obs_xcn (o : Obs) (d : Dev) : ((Eff.obs o).apply d).xcn = d.xcn := rfl
@[simp] theorem apply_obs_peers (o : Obs) (d : Dev) : ((Eff.obs o).apply d).peers = d.peers := rfl
@[simp] theorem apply_obs_sync (o : Obs) (d : Dev) : ((Eff.obs o).apply d).sync = d.sync := rfl
@[simp] theorem apply_obs_hosts (o : Obs) (d : Dev) : ((Eff.obs o).apply d).hosts = d.hosts := rfl
@[simp] theorem apply_obs_circ (o : Obs) (d : Dev) : ((Eff.obs o).apply d).circ = d.circ := rfl
@[simp] theorem apply_obs_found (o : Obs) (d : Dev) : ((Eff.obs o).apply d).found = d.found := rfl
@[simp] theorem apply_obs_obs (o : Obs) (d : Dev) : ((Eff.obs o).apply d).obs = o := rfl
@[simp] theorem apply_obs_tallies (o : Obs) (d : Dev) : ((Eff.obs o).apply d).tallies = d.tallies := rfl
@[simp] theorem apply_obs_sec (o : Obs) (d : Dev) : ((Eff.obs o).apply d).sec = d.sec := rfl
@[simp] theorem apply_obs_job (o : Obs) (d : Dev) : ((Eff.obs o).apply d).job = d.job := rfl
@[simp] theorem apply_obs_course (o : Obs) (d : Dev) : ((Eff.obs o).apply d).course = d.course := rfl
@[simp] theorem apply_obs_shore (o : Obs) (d : Dev) : ((Eff.obs o).apply d).shore = d.shore := rfl
@[simp] theorem apply_obs_wit (o : Obs) (d : Dev) : ((Eff.obs o).apply d).wit = d.wit := rfl
@[simp] theorem apply_obs_slots (o : Obs) (d : Dev) : ((Eff.obs o).apply d).slots = d.slots := rfl
@[simp] theorem apply_obs_start (o : Obs) (d : Dev) : ((Eff.obs o).apply d).start = d.start := rfl
@[simp] theorem apply_obs_hold (o : Obs) (d : Dev) : ((Eff.obs o).apply d).hold = d.hold := rfl
@[simp] theorem apply_obs_rst (o : Obs) (d : Dev) : ((Eff.obs o).apply d).rst = d.rst := rfl
@[simp] theorem apply_obs_clk (o : Obs) (d : Dev) : ((Eff.obs o).apply d).clk = d.clk := rfl
@[simp] theorem apply_obs_podTime (o : Obs) (d : Dev) : ((Eff.obs o).apply d).podTime = d.podTime := rfl
@[simp] theorem apply_obs_status (o : Obs) (d : Dev) : ((Eff.obs o).apply d).status = d.status := rfl
@[simp] theorem apply_obs_free (o : Obs) (d : Dev) : ((Eff.obs o).apply d).free = d.free := rfl
@[simp] theorem apply_obs_out (o : Obs) (d : Dev) : ((Eff.obs o).apply d).out = d.out := rfl

/-! ### tally -/

@[simp] theorem apply_tally_power (n : Nat) (v : W64) (d : Dev) : ((Eff.tally n v).apply d).power = d.power := rfl
@[simp] theorem apply_tally_mode (n : Nat) (v : W64) (d : Dev) : ((Eff.tally n v).apply d).mode = d.mode := rfl
@[simp] theorem apply_tally_ctl (n : Nat) (v : W64) (d : Dev) : ((Eff.tally n v).apply d).ctl = d.ctl := rfl
@[simp] theorem apply_tally_mem (n : Nat) (v : W64) (d : Dev) : ((Eff.tally n v).apply d).mem = d.mem := rfl
@[simp] theorem apply_tally_checks (n : Nat) (v : W64) (d : Dev) : ((Eff.tally n v).apply d).checks = d.checks := rfl
@[simp] theorem apply_tally_tiles (n : Nat) (v : W64) (d : Dev) : ((Eff.tally n v).apply d).tiles = d.tiles := rfl
@[simp] theorem apply_tally_savedTiles (n : Nat) (v : W64) (d : Dev) : ((Eff.tally n v).apply d).savedTiles = d.savedTiles := rfl
@[simp] theorem apply_tally_agents (n : Nat) (v : W64) (d : Dev) : ((Eff.tally n v).apply d).agents = d.agents := rfl
@[simp] theorem apply_tally_mmu (n : Nat) (v : W64) (d : Dev) : ((Eff.tally n v).apply d).mmu = d.mmu := rfl
@[simp] theorem apply_tally_chans (n : Nat) (v : W64) (d : Dev) : ((Eff.tally n v).apply d).chans = d.chans := rfl
@[simp] theorem apply_tally_counters (n : Nat) (v : W64) (d : Dev) : ((Eff.tally n v).apply d).counters = d.counters := rfl
@[simp] theorem apply_tally_watches (n : Nat) (v : W64) (d : Dev) : ((Eff.tally n v).apply d).watches = d.watches := rfl
@[simp] theorem apply_tally_ports (n : Nat) (v : W64) (d : Dev) : ((Eff.tally n v).apply d).ports = d.ports := rfl
@[simp] theorem apply_tally_dseq (n : Nat) (v : W64) (d : Dev) : ((Eff.tally n v).apply d).dseq = d.dseq := rfl
@[simp] theorem apply_tally_xcn (n : Nat) (v : W64) (d : Dev) : ((Eff.tally n v).apply d).xcn = d.xcn := rfl
@[simp] theorem apply_tally_peers (n : Nat) (v : W64) (d : Dev) : ((Eff.tally n v).apply d).peers = d.peers := rfl
@[simp] theorem apply_tally_sync (n : Nat) (v : W64) (d : Dev) : ((Eff.tally n v).apply d).sync = d.sync := rfl
@[simp] theorem apply_tally_hosts (n : Nat) (v : W64) (d : Dev) : ((Eff.tally n v).apply d).hosts = d.hosts := rfl
@[simp] theorem apply_tally_circ (n : Nat) (v : W64) (d : Dev) : ((Eff.tally n v).apply d).circ = d.circ := rfl
@[simp] theorem apply_tally_found (n : Nat) (v : W64) (d : Dev) : ((Eff.tally n v).apply d).found = d.found := rfl
@[simp] theorem apply_tally_obs (n : Nat) (v : W64) (d : Dev) : ((Eff.tally n v).apply d).obs = d.obs := rfl
@[simp] theorem apply_tally_tallies (n : Nat) (v : W64) (d : Dev) : ((Eff.tally n v).apply d).tallies = Store.put counterReset d.tallies n v := rfl
@[simp] theorem apply_tally_sec (n : Nat) (v : W64) (d : Dev) : ((Eff.tally n v).apply d).sec = d.sec := rfl
@[simp] theorem apply_tally_job (n : Nat) (v : W64) (d : Dev) : ((Eff.tally n v).apply d).job = d.job := rfl
@[simp] theorem apply_tally_course (n : Nat) (v : W64) (d : Dev) : ((Eff.tally n v).apply d).course = d.course := rfl
@[simp] theorem apply_tally_shore (n : Nat) (v : W64) (d : Dev) : ((Eff.tally n v).apply d).shore = d.shore := rfl
@[simp] theorem apply_tally_wit (n : Nat) (v : W64) (d : Dev) : ((Eff.tally n v).apply d).wit = d.wit := rfl
@[simp] theorem apply_tally_slots (n : Nat) (v : W64) (d : Dev) : ((Eff.tally n v).apply d).slots = d.slots := rfl
@[simp] theorem apply_tally_start (n : Nat) (v : W64) (d : Dev) : ((Eff.tally n v).apply d).start = d.start := rfl
@[simp] theorem apply_tally_hold (n : Nat) (v : W64) (d : Dev) : ((Eff.tally n v).apply d).hold = d.hold := rfl
@[simp] theorem apply_tally_rst (n : Nat) (v : W64) (d : Dev) : ((Eff.tally n v).apply d).rst = d.rst := rfl
@[simp] theorem apply_tally_clk (n : Nat) (v : W64) (d : Dev) : ((Eff.tally n v).apply d).clk = d.clk := rfl
@[simp] theorem apply_tally_podTime (n : Nat) (v : W64) (d : Dev) : ((Eff.tally n v).apply d).podTime = d.podTime := rfl
@[simp] theorem apply_tally_status (n : Nat) (v : W64) (d : Dev) : ((Eff.tally n v).apply d).status = d.status := rfl
@[simp] theorem apply_tally_free (n : Nat) (v : W64) (d : Dev) : ((Eff.tally n v).apply d).free = d.free := rfl
@[simp] theorem apply_tally_out (n : Nat) (v : W64) (d : Dev) : ((Eff.tally n v).apply d).out = d.out := rfl

/-! ### sec -/

@[simp] theorem apply_sec_power (x : Sec) (d : Dev) : ((Eff.sec x).apply d).power = d.power := rfl
@[simp] theorem apply_sec_mode (x : Sec) (d : Dev) : ((Eff.sec x).apply d).mode = d.mode := rfl
@[simp] theorem apply_sec_ctl (x : Sec) (d : Dev) : ((Eff.sec x).apply d).ctl = d.ctl := rfl
@[simp] theorem apply_sec_mem (x : Sec) (d : Dev) : ((Eff.sec x).apply d).mem = d.mem := rfl
@[simp] theorem apply_sec_checks (x : Sec) (d : Dev) : ((Eff.sec x).apply d).checks = d.checks := rfl
@[simp] theorem apply_sec_tiles (x : Sec) (d : Dev) : ((Eff.sec x).apply d).tiles = d.tiles := rfl
@[simp] theorem apply_sec_savedTiles (x : Sec) (d : Dev) : ((Eff.sec x).apply d).savedTiles = d.savedTiles := rfl
@[simp] theorem apply_sec_agents (x : Sec) (d : Dev) : ((Eff.sec x).apply d).agents = d.agents := rfl
@[simp] theorem apply_sec_mmu (x : Sec) (d : Dev) : ((Eff.sec x).apply d).mmu = d.mmu := rfl
@[simp] theorem apply_sec_chans (x : Sec) (d : Dev) : ((Eff.sec x).apply d).chans = d.chans := rfl
@[simp] theorem apply_sec_counters (x : Sec) (d : Dev) : ((Eff.sec x).apply d).counters = d.counters := rfl
@[simp] theorem apply_sec_watches (x : Sec) (d : Dev) : ((Eff.sec x).apply d).watches = d.watches := rfl
@[simp] theorem apply_sec_ports (x : Sec) (d : Dev) : ((Eff.sec x).apply d).ports = d.ports := rfl
@[simp] theorem apply_sec_dseq (x : Sec) (d : Dev) : ((Eff.sec x).apply d).dseq = d.dseq := rfl
@[simp] theorem apply_sec_xcn (x : Sec) (d : Dev) : ((Eff.sec x).apply d).xcn = d.xcn := rfl
@[simp] theorem apply_sec_peers (x : Sec) (d : Dev) : ((Eff.sec x).apply d).peers = d.peers := rfl
@[simp] theorem apply_sec_sync (x : Sec) (d : Dev) : ((Eff.sec x).apply d).sync = d.sync := rfl
@[simp] theorem apply_sec_hosts (x : Sec) (d : Dev) : ((Eff.sec x).apply d).hosts = d.hosts := rfl
@[simp] theorem apply_sec_circ (x : Sec) (d : Dev) : ((Eff.sec x).apply d).circ = d.circ := rfl
@[simp] theorem apply_sec_found (x : Sec) (d : Dev) : ((Eff.sec x).apply d).found = d.found := rfl
@[simp] theorem apply_sec_obs (x : Sec) (d : Dev) : ((Eff.sec x).apply d).obs = d.obs := rfl
@[simp] theorem apply_sec_tallies (x : Sec) (d : Dev) : ((Eff.sec x).apply d).tallies = d.tallies := rfl
@[simp] theorem apply_sec_sec (x : Sec) (d : Dev) : ((Eff.sec x).apply d).sec = x := rfl
@[simp] theorem apply_sec_job (x : Sec) (d : Dev) : ((Eff.sec x).apply d).job = d.job := rfl
@[simp] theorem apply_sec_course (x : Sec) (d : Dev) : ((Eff.sec x).apply d).course = d.course := rfl
@[simp] theorem apply_sec_shore (x : Sec) (d : Dev) : ((Eff.sec x).apply d).shore = d.shore := rfl
@[simp] theorem apply_sec_wit (x : Sec) (d : Dev) : ((Eff.sec x).apply d).wit = d.wit := rfl
@[simp] theorem apply_sec_slots (x : Sec) (d : Dev) : ((Eff.sec x).apply d).slots = d.slots := rfl
@[simp] theorem apply_sec_start (x : Sec) (d : Dev) : ((Eff.sec x).apply d).start = d.start := rfl
@[simp] theorem apply_sec_hold (x : Sec) (d : Dev) : ((Eff.sec x).apply d).hold = d.hold := rfl
@[simp] theorem apply_sec_rst (x : Sec) (d : Dev) : ((Eff.sec x).apply d).rst = d.rst := rfl
@[simp] theorem apply_sec_clk (x : Sec) (d : Dev) : ((Eff.sec x).apply d).clk = d.clk := rfl
@[simp] theorem apply_sec_podTime (x : Sec) (d : Dev) : ((Eff.sec x).apply d).podTime = d.podTime := rfl
@[simp] theorem apply_sec_status (x : Sec) (d : Dev) : ((Eff.sec x).apply d).status = d.status := rfl
@[simp] theorem apply_sec_free (x : Sec) (d : Dev) : ((Eff.sec x).apply d).free = d.free := rfl
@[simp] theorem apply_sec_out (x : Sec) (d : Dev) : ((Eff.sec x).apply d).out = d.out := rfl

/-! ### job -/

@[simp] theorem apply_job_power (x : Job) (d : Dev) : ((Eff.job x).apply d).power = d.power := rfl
@[simp] theorem apply_job_mode (x : Job) (d : Dev) : ((Eff.job x).apply d).mode = d.mode := rfl
@[simp] theorem apply_job_ctl (x : Job) (d : Dev) : ((Eff.job x).apply d).ctl = d.ctl := rfl
@[simp] theorem apply_job_mem (x : Job) (d : Dev) : ((Eff.job x).apply d).mem = d.mem := rfl
@[simp] theorem apply_job_checks (x : Job) (d : Dev) : ((Eff.job x).apply d).checks = d.checks := rfl
@[simp] theorem apply_job_tiles (x : Job) (d : Dev) : ((Eff.job x).apply d).tiles = d.tiles := rfl
@[simp] theorem apply_job_savedTiles (x : Job) (d : Dev) : ((Eff.job x).apply d).savedTiles = d.savedTiles := rfl
@[simp] theorem apply_job_agents (x : Job) (d : Dev) : ((Eff.job x).apply d).agents = d.agents := rfl
@[simp] theorem apply_job_mmu (x : Job) (d : Dev) : ((Eff.job x).apply d).mmu = d.mmu := rfl
@[simp] theorem apply_job_chans (x : Job) (d : Dev) : ((Eff.job x).apply d).chans = d.chans := rfl
@[simp] theorem apply_job_counters (x : Job) (d : Dev) : ((Eff.job x).apply d).counters = d.counters := rfl
@[simp] theorem apply_job_watches (x : Job) (d : Dev) : ((Eff.job x).apply d).watches = d.watches := rfl
@[simp] theorem apply_job_ports (x : Job) (d : Dev) : ((Eff.job x).apply d).ports = d.ports := rfl
@[simp] theorem apply_job_dseq (x : Job) (d : Dev) : ((Eff.job x).apply d).dseq = d.dseq := rfl
@[simp] theorem apply_job_xcn (x : Job) (d : Dev) : ((Eff.job x).apply d).xcn = d.xcn := rfl
@[simp] theorem apply_job_peers (x : Job) (d : Dev) : ((Eff.job x).apply d).peers = d.peers := rfl
@[simp] theorem apply_job_sync (x : Job) (d : Dev) : ((Eff.job x).apply d).sync = d.sync := rfl
@[simp] theorem apply_job_hosts (x : Job) (d : Dev) : ((Eff.job x).apply d).hosts = d.hosts := rfl
@[simp] theorem apply_job_circ (x : Job) (d : Dev) : ((Eff.job x).apply d).circ = d.circ := rfl
@[simp] theorem apply_job_found (x : Job) (d : Dev) : ((Eff.job x).apply d).found = d.found := rfl
@[simp] theorem apply_job_obs (x : Job) (d : Dev) : ((Eff.job x).apply d).obs = d.obs := rfl
@[simp] theorem apply_job_tallies (x : Job) (d : Dev) : ((Eff.job x).apply d).tallies = d.tallies := rfl
@[simp] theorem apply_job_sec (x : Job) (d : Dev) : ((Eff.job x).apply d).sec = d.sec := rfl
@[simp] theorem apply_job_job (x : Job) (d : Dev) : ((Eff.job x).apply d).job = x := rfl
@[simp] theorem apply_job_course (x : Job) (d : Dev) : ((Eff.job x).apply d).course = d.course := rfl
@[simp] theorem apply_job_shore (x : Job) (d : Dev) : ((Eff.job x).apply d).shore = d.shore := rfl
@[simp] theorem apply_job_wit (x : Job) (d : Dev) : ((Eff.job x).apply d).wit = d.wit := rfl
@[simp] theorem apply_job_slots (x : Job) (d : Dev) : ((Eff.job x).apply d).slots = d.slots := rfl
@[simp] theorem apply_job_start (x : Job) (d : Dev) : ((Eff.job x).apply d).start = d.start := rfl
@[simp] theorem apply_job_hold (x : Job) (d : Dev) : ((Eff.job x).apply d).hold = d.hold := rfl
@[simp] theorem apply_job_rst (x : Job) (d : Dev) : ((Eff.job x).apply d).rst = d.rst := rfl
@[simp] theorem apply_job_clk (x : Job) (d : Dev) : ((Eff.job x).apply d).clk = d.clk := rfl
@[simp] theorem apply_job_podTime (x : Job) (d : Dev) : ((Eff.job x).apply d).podTime = d.podTime := rfl
@[simp] theorem apply_job_status (x : Job) (d : Dev) : ((Eff.job x).apply d).status = d.status := rfl
@[simp] theorem apply_job_free (x : Job) (d : Dev) : ((Eff.job x).apply d).free = d.free := rfl
@[simp] theorem apply_job_out (x : Job) (d : Dev) : ((Eff.job x).apply d).out = d.out := rfl

/-! ### course -/

@[simp] theorem apply_course_power (x : CourseSt) (d : Dev) : ((Eff.course x).apply d).power = d.power := rfl
@[simp] theorem apply_course_mode (x : CourseSt) (d : Dev) : ((Eff.course x).apply d).mode = d.mode := rfl
@[simp] theorem apply_course_ctl (x : CourseSt) (d : Dev) : ((Eff.course x).apply d).ctl = d.ctl := rfl
@[simp] theorem apply_course_mem (x : CourseSt) (d : Dev) : ((Eff.course x).apply d).mem = d.mem := rfl
@[simp] theorem apply_course_checks (x : CourseSt) (d : Dev) : ((Eff.course x).apply d).checks = d.checks := rfl
@[simp] theorem apply_course_tiles (x : CourseSt) (d : Dev) : ((Eff.course x).apply d).tiles = d.tiles := rfl
@[simp] theorem apply_course_savedTiles (x : CourseSt) (d : Dev) : ((Eff.course x).apply d).savedTiles = d.savedTiles := rfl
@[simp] theorem apply_course_agents (x : CourseSt) (d : Dev) : ((Eff.course x).apply d).agents = d.agents := rfl
@[simp] theorem apply_course_mmu (x : CourseSt) (d : Dev) : ((Eff.course x).apply d).mmu = d.mmu := rfl
@[simp] theorem apply_course_chans (x : CourseSt) (d : Dev) : ((Eff.course x).apply d).chans = d.chans := rfl
@[simp] theorem apply_course_counters (x : CourseSt) (d : Dev) : ((Eff.course x).apply d).counters = d.counters := rfl
@[simp] theorem apply_course_watches (x : CourseSt) (d : Dev) : ((Eff.course x).apply d).watches = d.watches := rfl
@[simp] theorem apply_course_ports (x : CourseSt) (d : Dev) : ((Eff.course x).apply d).ports = d.ports := rfl
@[simp] theorem apply_course_dseq (x : CourseSt) (d : Dev) : ((Eff.course x).apply d).dseq = d.dseq := rfl
@[simp] theorem apply_course_xcn (x : CourseSt) (d : Dev) : ((Eff.course x).apply d).xcn = d.xcn := rfl
@[simp] theorem apply_course_peers (x : CourseSt) (d : Dev) : ((Eff.course x).apply d).peers = d.peers := rfl
@[simp] theorem apply_course_sync (x : CourseSt) (d : Dev) : ((Eff.course x).apply d).sync = d.sync := rfl
@[simp] theorem apply_course_hosts (x : CourseSt) (d : Dev) : ((Eff.course x).apply d).hosts = d.hosts := rfl
@[simp] theorem apply_course_circ (x : CourseSt) (d : Dev) : ((Eff.course x).apply d).circ = d.circ := rfl
@[simp] theorem apply_course_found (x : CourseSt) (d : Dev) : ((Eff.course x).apply d).found = d.found := rfl
@[simp] theorem apply_course_obs (x : CourseSt) (d : Dev) : ((Eff.course x).apply d).obs = d.obs := rfl
@[simp] theorem apply_course_tallies (x : CourseSt) (d : Dev) : ((Eff.course x).apply d).tallies = d.tallies := rfl
@[simp] theorem apply_course_sec (x : CourseSt) (d : Dev) : ((Eff.course x).apply d).sec = d.sec := rfl
@[simp] theorem apply_course_job (x : CourseSt) (d : Dev) : ((Eff.course x).apply d).job = d.job := rfl
@[simp] theorem apply_course_course (x : CourseSt) (d : Dev) : ((Eff.course x).apply d).course = x := rfl
@[simp] theorem apply_course_shore (x : CourseSt) (d : Dev) : ((Eff.course x).apply d).shore = d.shore := rfl
@[simp] theorem apply_course_wit (x : CourseSt) (d : Dev) : ((Eff.course x).apply d).wit = d.wit := rfl
@[simp] theorem apply_course_slots (x : CourseSt) (d : Dev) : ((Eff.course x).apply d).slots = d.slots := rfl
@[simp] theorem apply_course_start (x : CourseSt) (d : Dev) : ((Eff.course x).apply d).start = d.start := rfl
@[simp] theorem apply_course_hold (x : CourseSt) (d : Dev) : ((Eff.course x).apply d).hold = d.hold := rfl
@[simp] theorem apply_course_rst (x : CourseSt) (d : Dev) : ((Eff.course x).apply d).rst = d.rst := rfl
@[simp] theorem apply_course_clk (x : CourseSt) (d : Dev) : ((Eff.course x).apply d).clk = d.clk := rfl
@[simp] theorem apply_course_podTime (x : CourseSt) (d : Dev) : ((Eff.course x).apply d).podTime = d.podTime := rfl
@[simp] theorem apply_course_status (x : CourseSt) (d : Dev) : ((Eff.course x).apply d).status = d.status := rfl
@[simp] theorem apply_course_free (x : CourseSt) (d : Dev) : ((Eff.course x).apply d).free = d.free := rfl
@[simp] theorem apply_course_out (x : CourseSt) (d : Dev) : ((Eff.course x).apply d).out = d.out := rfl

/-! ### shore -/

@[simp] theorem apply_shore_power (x : ShoreSt) (d : Dev) : ((Eff.shore x).apply d).power = d.power := rfl
@[simp] theorem apply_shore_mode (x : ShoreSt) (d : Dev) : ((Eff.shore x).apply d).mode = d.mode := rfl
@[simp] theorem apply_shore_ctl (x : ShoreSt) (d : Dev) : ((Eff.shore x).apply d).ctl = d.ctl := rfl
@[simp] theorem apply_shore_mem (x : ShoreSt) (d : Dev) : ((Eff.shore x).apply d).mem = d.mem := rfl
@[simp] theorem apply_shore_checks (x : ShoreSt) (d : Dev) : ((Eff.shore x).apply d).checks = d.checks := rfl
@[simp] theorem apply_shore_tiles (x : ShoreSt) (d : Dev) : ((Eff.shore x).apply d).tiles = d.tiles := rfl
@[simp] theorem apply_shore_savedTiles (x : ShoreSt) (d : Dev) : ((Eff.shore x).apply d).savedTiles = d.savedTiles := rfl
@[simp] theorem apply_shore_agents (x : ShoreSt) (d : Dev) : ((Eff.shore x).apply d).agents = d.agents := rfl
@[simp] theorem apply_shore_mmu (x : ShoreSt) (d : Dev) : ((Eff.shore x).apply d).mmu = d.mmu := rfl
@[simp] theorem apply_shore_chans (x : ShoreSt) (d : Dev) : ((Eff.shore x).apply d).chans = d.chans := rfl
@[simp] theorem apply_shore_counters (x : ShoreSt) (d : Dev) : ((Eff.shore x).apply d).counters = d.counters := rfl
@[simp] theorem apply_shore_watches (x : ShoreSt) (d : Dev) : ((Eff.shore x).apply d).watches = d.watches := rfl
@[simp] theorem apply_shore_ports (x : ShoreSt) (d : Dev) : ((Eff.shore x).apply d).ports = d.ports := rfl
@[simp] theorem apply_shore_dseq (x : ShoreSt) (d : Dev) : ((Eff.shore x).apply d).dseq = d.dseq := rfl
@[simp] theorem apply_shore_xcn (x : ShoreSt) (d : Dev) : ((Eff.shore x).apply d).xcn = d.xcn := rfl
@[simp] theorem apply_shore_peers (x : ShoreSt) (d : Dev) : ((Eff.shore x).apply d).peers = d.peers := rfl
@[simp] theorem apply_shore_sync (x : ShoreSt) (d : Dev) : ((Eff.shore x).apply d).sync = d.sync := rfl
@[simp] theorem apply_shore_hosts (x : ShoreSt) (d : Dev) : ((Eff.shore x).apply d).hosts = d.hosts := rfl
@[simp] theorem apply_shore_circ (x : ShoreSt) (d : Dev) : ((Eff.shore x).apply d).circ = d.circ := rfl
@[simp] theorem apply_shore_found (x : ShoreSt) (d : Dev) : ((Eff.shore x).apply d).found = d.found := rfl
@[simp] theorem apply_shore_obs (x : ShoreSt) (d : Dev) : ((Eff.shore x).apply d).obs = d.obs := rfl
@[simp] theorem apply_shore_tallies (x : ShoreSt) (d : Dev) : ((Eff.shore x).apply d).tallies = d.tallies := rfl
@[simp] theorem apply_shore_sec (x : ShoreSt) (d : Dev) : ((Eff.shore x).apply d).sec = d.sec := rfl
@[simp] theorem apply_shore_job (x : ShoreSt) (d : Dev) : ((Eff.shore x).apply d).job = d.job := rfl
@[simp] theorem apply_shore_course (x : ShoreSt) (d : Dev) : ((Eff.shore x).apply d).course = d.course := rfl
@[simp] theorem apply_shore_shore (x : ShoreSt) (d : Dev) : ((Eff.shore x).apply d).shore = x := rfl
@[simp] theorem apply_shore_wit (x : ShoreSt) (d : Dev) : ((Eff.shore x).apply d).wit = d.wit := rfl
@[simp] theorem apply_shore_slots (x : ShoreSt) (d : Dev) : ((Eff.shore x).apply d).slots = d.slots := rfl
@[simp] theorem apply_shore_start (x : ShoreSt) (d : Dev) : ((Eff.shore x).apply d).start = d.start := rfl
@[simp] theorem apply_shore_hold (x : ShoreSt) (d : Dev) : ((Eff.shore x).apply d).hold = d.hold := rfl
@[simp] theorem apply_shore_rst (x : ShoreSt) (d : Dev) : ((Eff.shore x).apply d).rst = d.rst := rfl
@[simp] theorem apply_shore_clk (x : ShoreSt) (d : Dev) : ((Eff.shore x).apply d).clk = d.clk := rfl
@[simp] theorem apply_shore_podTime (x : ShoreSt) (d : Dev) : ((Eff.shore x).apply d).podTime = d.podTime := rfl
@[simp] theorem apply_shore_status (x : ShoreSt) (d : Dev) : ((Eff.shore x).apply d).status = d.status := rfl
@[simp] theorem apply_shore_free (x : ShoreSt) (d : Dev) : ((Eff.shore x).apply d).free = d.free := rfl
@[simp] theorem apply_shore_out (x : ShoreSt) (d : Dev) : ((Eff.shore x).apply d).out = d.out := rfl

/-! ### wit -/

@[simp] theorem apply_wit_power (x : WitSt) (d : Dev) : ((Eff.wit x).apply d).power = d.power := rfl
@[simp] theorem apply_wit_mode (x : WitSt) (d : Dev) : ((Eff.wit x).apply d).mode = d.mode := rfl
@[simp] theorem apply_wit_ctl (x : WitSt) (d : Dev) : ((Eff.wit x).apply d).ctl = d.ctl := rfl
@[simp] theorem apply_wit_mem (x : WitSt) (d : Dev) : ((Eff.wit x).apply d).mem = d.mem := rfl
@[simp] theorem apply_wit_checks (x : WitSt) (d : Dev) : ((Eff.wit x).apply d).checks = d.checks := rfl
@[simp] theorem apply_wit_tiles (x : WitSt) (d : Dev) : ((Eff.wit x).apply d).tiles = d.tiles := rfl
@[simp] theorem apply_wit_savedTiles (x : WitSt) (d : Dev) : ((Eff.wit x).apply d).savedTiles = d.savedTiles := rfl
@[simp] theorem apply_wit_agents (x : WitSt) (d : Dev) : ((Eff.wit x).apply d).agents = d.agents := rfl
@[simp] theorem apply_wit_mmu (x : WitSt) (d : Dev) : ((Eff.wit x).apply d).mmu = d.mmu := rfl
@[simp] theorem apply_wit_chans (x : WitSt) (d : Dev) : ((Eff.wit x).apply d).chans = d.chans := rfl
@[simp] theorem apply_wit_counters (x : WitSt) (d : Dev) : ((Eff.wit x).apply d).counters = d.counters := rfl
@[simp] theorem apply_wit_watches (x : WitSt) (d : Dev) : ((Eff.wit x).apply d).watches = d.watches := rfl
@[simp] theorem apply_wit_ports (x : WitSt) (d : Dev) : ((Eff.wit x).apply d).ports = d.ports := rfl
@[simp] theorem apply_wit_dseq (x : WitSt) (d : Dev) : ((Eff.wit x).apply d).dseq = d.dseq := rfl
@[simp] theorem apply_wit_xcn (x : WitSt) (d : Dev) : ((Eff.wit x).apply d).xcn = d.xcn := rfl
@[simp] theorem apply_wit_peers (x : WitSt) (d : Dev) : ((Eff.wit x).apply d).peers = d.peers := rfl
@[simp] theorem apply_wit_sync (x : WitSt) (d : Dev) : ((Eff.wit x).apply d).sync = d.sync := rfl
@[simp] theorem apply_wit_hosts (x : WitSt) (d : Dev) : ((Eff.wit x).apply d).hosts = d.hosts := rfl
@[simp] theorem apply_wit_circ (x : WitSt) (d : Dev) : ((Eff.wit x).apply d).circ = d.circ := rfl
@[simp] theorem apply_wit_found (x : WitSt) (d : Dev) : ((Eff.wit x).apply d).found = d.found := rfl
@[simp] theorem apply_wit_obs (x : WitSt) (d : Dev) : ((Eff.wit x).apply d).obs = d.obs := rfl
@[simp] theorem apply_wit_tallies (x : WitSt) (d : Dev) : ((Eff.wit x).apply d).tallies = d.tallies := rfl
@[simp] theorem apply_wit_sec (x : WitSt) (d : Dev) : ((Eff.wit x).apply d).sec = d.sec := rfl
@[simp] theorem apply_wit_job (x : WitSt) (d : Dev) : ((Eff.wit x).apply d).job = d.job := rfl
@[simp] theorem apply_wit_course (x : WitSt) (d : Dev) : ((Eff.wit x).apply d).course = d.course := rfl
@[simp] theorem apply_wit_shore (x : WitSt) (d : Dev) : ((Eff.wit x).apply d).shore = d.shore := rfl
@[simp] theorem apply_wit_wit (x : WitSt) (d : Dev) : ((Eff.wit x).apply d).wit = x := rfl
@[simp] theorem apply_wit_slots (x : WitSt) (d : Dev) : ((Eff.wit x).apply d).slots = d.slots := rfl
@[simp] theorem apply_wit_start (x : WitSt) (d : Dev) : ((Eff.wit x).apply d).start = d.start := rfl
@[simp] theorem apply_wit_hold (x : WitSt) (d : Dev) : ((Eff.wit x).apply d).hold = d.hold := rfl
@[simp] theorem apply_wit_rst (x : WitSt) (d : Dev) : ((Eff.wit x).apply d).rst = d.rst := rfl
@[simp] theorem apply_wit_clk (x : WitSt) (d : Dev) : ((Eff.wit x).apply d).clk = d.clk := rfl
@[simp] theorem apply_wit_podTime (x : WitSt) (d : Dev) : ((Eff.wit x).apply d).podTime = d.podTime := rfl
@[simp] theorem apply_wit_status (x : WitSt) (d : Dev) : ((Eff.wit x).apply d).status = d.status := rfl
@[simp] theorem apply_wit_free (x : WitSt) (d : Dev) : ((Eff.wit x).apply d).free = d.free := rfl
@[simp] theorem apply_wit_out (x : WitSt) (d : Dev) : ((Eff.wit x).apply d).out = d.out := rfl

/-! ### slot -/

@[simp] theorem apply_slot_power (n : Nat) (x : SlotSt) (d : Dev) : ((Eff.slot n x).apply d).power = d.power := rfl
@[simp] theorem apply_slot_mode (n : Nat) (x : SlotSt) (d : Dev) : ((Eff.slot n x).apply d).mode = d.mode := rfl
@[simp] theorem apply_slot_ctl (n : Nat) (x : SlotSt) (d : Dev) : ((Eff.slot n x).apply d).ctl = d.ctl := rfl
@[simp] theorem apply_slot_mem (n : Nat) (x : SlotSt) (d : Dev) : ((Eff.slot n x).apply d).mem = d.mem := rfl
@[simp] theorem apply_slot_checks (n : Nat) (x : SlotSt) (d : Dev) : ((Eff.slot n x).apply d).checks = d.checks := rfl
@[simp] theorem apply_slot_tiles (n : Nat) (x : SlotSt) (d : Dev) : ((Eff.slot n x).apply d).tiles = d.tiles := rfl
@[simp] theorem apply_slot_savedTiles (n : Nat) (x : SlotSt) (d : Dev) : ((Eff.slot n x).apply d).savedTiles = d.savedTiles := rfl
@[simp] theorem apply_slot_agents (n : Nat) (x : SlotSt) (d : Dev) : ((Eff.slot n x).apply d).agents = d.agents := rfl
@[simp] theorem apply_slot_mmu (n : Nat) (x : SlotSt) (d : Dev) : ((Eff.slot n x).apply d).mmu = d.mmu := rfl
@[simp] theorem apply_slot_chans (n : Nat) (x : SlotSt) (d : Dev) : ((Eff.slot n x).apply d).chans = d.chans := rfl
@[simp] theorem apply_slot_counters (n : Nat) (x : SlotSt) (d : Dev) : ((Eff.slot n x).apply d).counters = d.counters := rfl
@[simp] theorem apply_slot_watches (n : Nat) (x : SlotSt) (d : Dev) : ((Eff.slot n x).apply d).watches = d.watches := rfl
@[simp] theorem apply_slot_ports (n : Nat) (x : SlotSt) (d : Dev) : ((Eff.slot n x).apply d).ports = d.ports := rfl
@[simp] theorem apply_slot_dseq (n : Nat) (x : SlotSt) (d : Dev) : ((Eff.slot n x).apply d).dseq = d.dseq := rfl
@[simp] theorem apply_slot_xcn (n : Nat) (x : SlotSt) (d : Dev) : ((Eff.slot n x).apply d).xcn = d.xcn := rfl
@[simp] theorem apply_slot_peers (n : Nat) (x : SlotSt) (d : Dev) : ((Eff.slot n x).apply d).peers = d.peers := rfl
@[simp] theorem apply_slot_sync (n : Nat) (x : SlotSt) (d : Dev) : ((Eff.slot n x).apply d).sync = d.sync := rfl
@[simp] theorem apply_slot_hosts (n : Nat) (x : SlotSt) (d : Dev) : ((Eff.slot n x).apply d).hosts = d.hosts := rfl
@[simp] theorem apply_slot_circ (n : Nat) (x : SlotSt) (d : Dev) : ((Eff.slot n x).apply d).circ = d.circ := rfl
@[simp] theorem apply_slot_found (n : Nat) (x : SlotSt) (d : Dev) : ((Eff.slot n x).apply d).found = d.found := rfl
@[simp] theorem apply_slot_obs (n : Nat) (x : SlotSt) (d : Dev) : ((Eff.slot n x).apply d).obs = d.obs := rfl
@[simp] theorem apply_slot_tallies (n : Nat) (x : SlotSt) (d : Dev) : ((Eff.slot n x).apply d).tallies = d.tallies := rfl
@[simp] theorem apply_slot_sec (n : Nat) (x : SlotSt) (d : Dev) : ((Eff.slot n x).apply d).sec = d.sec := rfl
@[simp] theorem apply_slot_job (n : Nat) (x : SlotSt) (d : Dev) : ((Eff.slot n x).apply d).job = d.job := rfl
@[simp] theorem apply_slot_course (n : Nat) (x : SlotSt) (d : Dev) : ((Eff.slot n x).apply d).course = d.course := rfl
@[simp] theorem apply_slot_shore (n : Nat) (x : SlotSt) (d : Dev) : ((Eff.slot n x).apply d).shore = d.shore := rfl
@[simp] theorem apply_slot_wit (n : Nat) (x : SlotSt) (d : Dev) : ((Eff.slot n x).apply d).wit = d.wit := rfl
@[simp] theorem apply_slot_slots (n : Nat) (x : SlotSt) (d : Dev) : ((Eff.slot n x).apply d).slots = Store.put slotReset d.slots n x := rfl
@[simp] theorem apply_slot_start (n : Nat) (x : SlotSt) (d : Dev) : ((Eff.slot n x).apply d).start = d.start := rfl
@[simp] theorem apply_slot_hold (n : Nat) (x : SlotSt) (d : Dev) : ((Eff.slot n x).apply d).hold = d.hold := rfl
@[simp] theorem apply_slot_rst (n : Nat) (x : SlotSt) (d : Dev) : ((Eff.slot n x).apply d).rst = d.rst := rfl
@[simp] theorem apply_slot_clk (n : Nat) (x : SlotSt) (d : Dev) : ((Eff.slot n x).apply d).clk = d.clk := rfl
@[simp] theorem apply_slot_podTime (n : Nat) (x : SlotSt) (d : Dev) : ((Eff.slot n x).apply d).podTime = d.podTime := rfl
@[simp] theorem apply_slot_status (n : Nat) (x : SlotSt) (d : Dev) : ((Eff.slot n x).apply d).status = d.status := rfl
@[simp] theorem apply_slot_free (n : Nat) (x : SlotSt) (d : Dev) : ((Eff.slot n x).apply d).free = d.free := rfl
@[simp] theorem apply_slot_out (n : Nat) (x : SlotSt) (d : Dev) : ((Eff.slot n x).apply d).out = d.out := rfl

/-! ### start -/

@[simp] theorem apply_start_power (x : StartSt) (d : Dev) : ((Eff.start x).apply d).power = d.power := rfl
@[simp] theorem apply_start_mode (x : StartSt) (d : Dev) : ((Eff.start x).apply d).mode = d.mode := rfl
@[simp] theorem apply_start_ctl (x : StartSt) (d : Dev) : ((Eff.start x).apply d).ctl = d.ctl := rfl
@[simp] theorem apply_start_mem (x : StartSt) (d : Dev) : ((Eff.start x).apply d).mem = d.mem := rfl
@[simp] theorem apply_start_checks (x : StartSt) (d : Dev) : ((Eff.start x).apply d).checks = d.checks := rfl
@[simp] theorem apply_start_tiles (x : StartSt) (d : Dev) : ((Eff.start x).apply d).tiles = d.tiles := rfl
@[simp] theorem apply_start_savedTiles (x : StartSt) (d : Dev) : ((Eff.start x).apply d).savedTiles = d.savedTiles := rfl
@[simp] theorem apply_start_agents (x : StartSt) (d : Dev) : ((Eff.start x).apply d).agents = d.agents := rfl
@[simp] theorem apply_start_mmu (x : StartSt) (d : Dev) : ((Eff.start x).apply d).mmu = d.mmu := rfl
@[simp] theorem apply_start_chans (x : StartSt) (d : Dev) : ((Eff.start x).apply d).chans = d.chans := rfl
@[simp] theorem apply_start_counters (x : StartSt) (d : Dev) : ((Eff.start x).apply d).counters = d.counters := rfl
@[simp] theorem apply_start_watches (x : StartSt) (d : Dev) : ((Eff.start x).apply d).watches = d.watches := rfl
@[simp] theorem apply_start_ports (x : StartSt) (d : Dev) : ((Eff.start x).apply d).ports = d.ports := rfl
@[simp] theorem apply_start_dseq (x : StartSt) (d : Dev) : ((Eff.start x).apply d).dseq = d.dseq := rfl
@[simp] theorem apply_start_xcn (x : StartSt) (d : Dev) : ((Eff.start x).apply d).xcn = d.xcn := rfl
@[simp] theorem apply_start_peers (x : StartSt) (d : Dev) : ((Eff.start x).apply d).peers = d.peers := rfl
@[simp] theorem apply_start_sync (x : StartSt) (d : Dev) : ((Eff.start x).apply d).sync = d.sync := rfl
@[simp] theorem apply_start_hosts (x : StartSt) (d : Dev) : ((Eff.start x).apply d).hosts = d.hosts := rfl
@[simp] theorem apply_start_circ (x : StartSt) (d : Dev) : ((Eff.start x).apply d).circ = d.circ := rfl
@[simp] theorem apply_start_found (x : StartSt) (d : Dev) : ((Eff.start x).apply d).found = d.found := rfl
@[simp] theorem apply_start_obs (x : StartSt) (d : Dev) : ((Eff.start x).apply d).obs = d.obs := rfl
@[simp] theorem apply_start_tallies (x : StartSt) (d : Dev) : ((Eff.start x).apply d).tallies = d.tallies := rfl
@[simp] theorem apply_start_sec (x : StartSt) (d : Dev) : ((Eff.start x).apply d).sec = d.sec := rfl
@[simp] theorem apply_start_job (x : StartSt) (d : Dev) : ((Eff.start x).apply d).job = d.job := rfl
@[simp] theorem apply_start_course (x : StartSt) (d : Dev) : ((Eff.start x).apply d).course = d.course := rfl
@[simp] theorem apply_start_shore (x : StartSt) (d : Dev) : ((Eff.start x).apply d).shore = d.shore := rfl
@[simp] theorem apply_start_wit (x : StartSt) (d : Dev) : ((Eff.start x).apply d).wit = d.wit := rfl
@[simp] theorem apply_start_slots (x : StartSt) (d : Dev) : ((Eff.start x).apply d).slots = d.slots := rfl
@[simp] theorem apply_start_start (x : StartSt) (d : Dev) : ((Eff.start x).apply d).start = x := rfl
@[simp] theorem apply_start_hold (x : StartSt) (d : Dev) : ((Eff.start x).apply d).hold = d.hold := rfl
@[simp] theorem apply_start_rst (x : StartSt) (d : Dev) : ((Eff.start x).apply d).rst = d.rst := rfl
@[simp] theorem apply_start_clk (x : StartSt) (d : Dev) : ((Eff.start x).apply d).clk = d.clk := rfl
@[simp] theorem apply_start_podTime (x : StartSt) (d : Dev) : ((Eff.start x).apply d).podTime = d.podTime := rfl
@[simp] theorem apply_start_status (x : StartSt) (d : Dev) : ((Eff.start x).apply d).status = d.status := rfl
@[simp] theorem apply_start_free (x : StartSt) (d : Dev) : ((Eff.start x).apply d).free = d.free := rfl
@[simp] theorem apply_start_out (x : StartSt) (d : Dev) : ((Eff.start x).apply d).out = d.out := rfl

/-! ### hold -/

@[simp] theorem apply_hold_power (x : PartnerHold) (d : Dev) : ((Eff.hold x).apply d).power = d.power := rfl
@[simp] theorem apply_hold_mode (x : PartnerHold) (d : Dev) : ((Eff.hold x).apply d).mode = d.mode := rfl
@[simp] theorem apply_hold_ctl (x : PartnerHold) (d : Dev) : ((Eff.hold x).apply d).ctl = d.ctl := rfl
@[simp] theorem apply_hold_mem (x : PartnerHold) (d : Dev) : ((Eff.hold x).apply d).mem = d.mem := rfl
@[simp] theorem apply_hold_checks (x : PartnerHold) (d : Dev) : ((Eff.hold x).apply d).checks = d.checks := rfl
@[simp] theorem apply_hold_tiles (x : PartnerHold) (d : Dev) : ((Eff.hold x).apply d).tiles = d.tiles := rfl
@[simp] theorem apply_hold_savedTiles (x : PartnerHold) (d : Dev) : ((Eff.hold x).apply d).savedTiles = d.savedTiles := rfl
@[simp] theorem apply_hold_agents (x : PartnerHold) (d : Dev) : ((Eff.hold x).apply d).agents = d.agents := rfl
@[simp] theorem apply_hold_mmu (x : PartnerHold) (d : Dev) : ((Eff.hold x).apply d).mmu = d.mmu := rfl
@[simp] theorem apply_hold_chans (x : PartnerHold) (d : Dev) : ((Eff.hold x).apply d).chans = d.chans := rfl
@[simp] theorem apply_hold_counters (x : PartnerHold) (d : Dev) : ((Eff.hold x).apply d).counters = d.counters := rfl
@[simp] theorem apply_hold_watches (x : PartnerHold) (d : Dev) : ((Eff.hold x).apply d).watches = d.watches := rfl
@[simp] theorem apply_hold_ports (x : PartnerHold) (d : Dev) : ((Eff.hold x).apply d).ports = d.ports := rfl
@[simp] theorem apply_hold_dseq (x : PartnerHold) (d : Dev) : ((Eff.hold x).apply d).dseq = d.dseq := rfl
@[simp] theorem apply_hold_xcn (x : PartnerHold) (d : Dev) : ((Eff.hold x).apply d).xcn = d.xcn := rfl
@[simp] theorem apply_hold_peers (x : PartnerHold) (d : Dev) : ((Eff.hold x).apply d).peers = d.peers := rfl
@[simp] theorem apply_hold_sync (x : PartnerHold) (d : Dev) : ((Eff.hold x).apply d).sync = d.sync := rfl
@[simp] theorem apply_hold_hosts (x : PartnerHold) (d : Dev) : ((Eff.hold x).apply d).hosts = d.hosts := rfl
@[simp] theorem apply_hold_circ (x : PartnerHold) (d : Dev) : ((Eff.hold x).apply d).circ = d.circ := rfl
@[simp] theorem apply_hold_found (x : PartnerHold) (d : Dev) : ((Eff.hold x).apply d).found = d.found := rfl
@[simp] theorem apply_hold_obs (x : PartnerHold) (d : Dev) : ((Eff.hold x).apply d).obs = d.obs := rfl
@[simp] theorem apply_hold_tallies (x : PartnerHold) (d : Dev) : ((Eff.hold x).apply d).tallies = d.tallies := rfl
@[simp] theorem apply_hold_sec (x : PartnerHold) (d : Dev) : ((Eff.hold x).apply d).sec = d.sec := rfl
@[simp] theorem apply_hold_job (x : PartnerHold) (d : Dev) : ((Eff.hold x).apply d).job = d.job := rfl
@[simp] theorem apply_hold_course (x : PartnerHold) (d : Dev) : ((Eff.hold x).apply d).course = d.course := rfl
@[simp] theorem apply_hold_shore (x : PartnerHold) (d : Dev) : ((Eff.hold x).apply d).shore = d.shore := rfl
@[simp] theorem apply_hold_wit (x : PartnerHold) (d : Dev) : ((Eff.hold x).apply d).wit = d.wit := rfl
@[simp] theorem apply_hold_slots (x : PartnerHold) (d : Dev) : ((Eff.hold x).apply d).slots = d.slots := rfl
@[simp] theorem apply_hold_start (x : PartnerHold) (d : Dev) : ((Eff.hold x).apply d).start = d.start := rfl
@[simp] theorem apply_hold_hold (x : PartnerHold) (d : Dev) : ((Eff.hold x).apply d).hold = x := rfl
@[simp] theorem apply_hold_rst (x : PartnerHold) (d : Dev) : ((Eff.hold x).apply d).rst = d.rst := rfl
@[simp] theorem apply_hold_clk (x : PartnerHold) (d : Dev) : ((Eff.hold x).apply d).clk = d.clk := rfl
@[simp] theorem apply_hold_podTime (x : PartnerHold) (d : Dev) : ((Eff.hold x).apply d).podTime = d.podTime := rfl
@[simp] theorem apply_hold_status (x : PartnerHold) (d : Dev) : ((Eff.hold x).apply d).status = d.status := rfl
@[simp] theorem apply_hold_free (x : PartnerHold) (d : Dev) : ((Eff.hold x).apply d).free = d.free := rfl
@[simp] theorem apply_hold_out (x : PartnerHold) (d : Dev) : ((Eff.hold x).apply d).out = d.out := rfl

/-! ### rst -/

@[simp] theorem apply_rst_power (x : ResetSt) (d : Dev) : ((Eff.rst x).apply d).power = d.power := rfl
@[simp] theorem apply_rst_mode (x : ResetSt) (d : Dev) : ((Eff.rst x).apply d).mode = d.mode := rfl
@[simp] theorem apply_rst_ctl (x : ResetSt) (d : Dev) : ((Eff.rst x).apply d).ctl = d.ctl := rfl
@[simp] theorem apply_rst_mem (x : ResetSt) (d : Dev) : ((Eff.rst x).apply d).mem = d.mem := rfl
@[simp] theorem apply_rst_checks (x : ResetSt) (d : Dev) : ((Eff.rst x).apply d).checks = d.checks := rfl
@[simp] theorem apply_rst_tiles (x : ResetSt) (d : Dev) : ((Eff.rst x).apply d).tiles = d.tiles := rfl
@[simp] theorem apply_rst_savedTiles (x : ResetSt) (d : Dev) : ((Eff.rst x).apply d).savedTiles = d.savedTiles := rfl
@[simp] theorem apply_rst_agents (x : ResetSt) (d : Dev) : ((Eff.rst x).apply d).agents = d.agents := rfl
@[simp] theorem apply_rst_mmu (x : ResetSt) (d : Dev) : ((Eff.rst x).apply d).mmu = d.mmu := rfl
@[simp] theorem apply_rst_chans (x : ResetSt) (d : Dev) : ((Eff.rst x).apply d).chans = d.chans := rfl
@[simp] theorem apply_rst_counters (x : ResetSt) (d : Dev) : ((Eff.rst x).apply d).counters = d.counters := rfl
@[simp] theorem apply_rst_watches (x : ResetSt) (d : Dev) : ((Eff.rst x).apply d).watches = d.watches := rfl
@[simp] theorem apply_rst_ports (x : ResetSt) (d : Dev) : ((Eff.rst x).apply d).ports = d.ports := rfl
@[simp] theorem apply_rst_dseq (x : ResetSt) (d : Dev) : ((Eff.rst x).apply d).dseq = d.dseq := rfl
@[simp] theorem apply_rst_xcn (x : ResetSt) (d : Dev) : ((Eff.rst x).apply d).xcn = d.xcn := rfl
@[simp] theorem apply_rst_peers (x : ResetSt) (d : Dev) : ((Eff.rst x).apply d).peers = d.peers := rfl
@[simp] theorem apply_rst_sync (x : ResetSt) (d : Dev) : ((Eff.rst x).apply d).sync = d.sync := rfl
@[simp] theorem apply_rst_hosts (x : ResetSt) (d : Dev) : ((Eff.rst x).apply d).hosts = d.hosts := rfl
@[simp] theorem apply_rst_circ (x : ResetSt) (d : Dev) : ((Eff.rst x).apply d).circ = d.circ := rfl
@[simp] theorem apply_rst_found (x : ResetSt) (d : Dev) : ((Eff.rst x).apply d).found = d.found := rfl
@[simp] theorem apply_rst_obs (x : ResetSt) (d : Dev) : ((Eff.rst x).apply d).obs = d.obs := rfl
@[simp] theorem apply_rst_tallies (x : ResetSt) (d : Dev) : ((Eff.rst x).apply d).tallies = d.tallies := rfl
@[simp] theorem apply_rst_sec (x : ResetSt) (d : Dev) : ((Eff.rst x).apply d).sec = d.sec := rfl
@[simp] theorem apply_rst_job (x : ResetSt) (d : Dev) : ((Eff.rst x).apply d).job = d.job := rfl
@[simp] theorem apply_rst_course (x : ResetSt) (d : Dev) : ((Eff.rst x).apply d).course = d.course := rfl
@[simp] theorem apply_rst_shore (x : ResetSt) (d : Dev) : ((Eff.rst x).apply d).shore = d.shore := rfl
@[simp] theorem apply_rst_wit (x : ResetSt) (d : Dev) : ((Eff.rst x).apply d).wit = d.wit := rfl
@[simp] theorem apply_rst_slots (x : ResetSt) (d : Dev) : ((Eff.rst x).apply d).slots = d.slots := rfl
@[simp] theorem apply_rst_start (x : ResetSt) (d : Dev) : ((Eff.rst x).apply d).start = d.start := rfl
@[simp] theorem apply_rst_hold (x : ResetSt) (d : Dev) : ((Eff.rst x).apply d).hold = d.hold := rfl
@[simp] theorem apply_rst_rst (x : ResetSt) (d : Dev) : ((Eff.rst x).apply d).rst = x := rfl
@[simp] theorem apply_rst_clk (x : ResetSt) (d : Dev) : ((Eff.rst x).apply d).clk = d.clk := rfl
@[simp] theorem apply_rst_podTime (x : ResetSt) (d : Dev) : ((Eff.rst x).apply d).podTime = d.podTime := rfl
@[simp] theorem apply_rst_status (x : ResetSt) (d : Dev) : ((Eff.rst x).apply d).status = d.status := rfl
@[simp] theorem apply_rst_free (x : ResetSt) (d : Dev) : ((Eff.rst x).apply d).free = d.free := rfl
@[simp] theorem apply_rst_out (x : ResetSt) (d : Dev) : ((Eff.rst x).apply d).out = d.out := rfl

/-! ### clk -/

@[simp] theorem apply_clk_power (t : Nat) (d : Dev) : ((Eff.clk t).apply d).power = d.power := rfl
@[simp] theorem apply_clk_mode (t : Nat) (d : Dev) : ((Eff.clk t).apply d).mode = d.mode := rfl
@[simp] theorem apply_clk_ctl (t : Nat) (d : Dev) : ((Eff.clk t).apply d).ctl = d.ctl := rfl
@[simp] theorem apply_clk_mem (t : Nat) (d : Dev) : ((Eff.clk t).apply d).mem = d.mem := rfl
@[simp] theorem apply_clk_checks (t : Nat) (d : Dev) : ((Eff.clk t).apply d).checks = d.checks := rfl
@[simp] theorem apply_clk_tiles (t : Nat) (d : Dev) : ((Eff.clk t).apply d).tiles = d.tiles := rfl
@[simp] theorem apply_clk_savedTiles (t : Nat) (d : Dev) : ((Eff.clk t).apply d).savedTiles = d.savedTiles := rfl
@[simp] theorem apply_clk_agents (t : Nat) (d : Dev) : ((Eff.clk t).apply d).agents = d.agents := rfl
@[simp] theorem apply_clk_mmu (t : Nat) (d : Dev) : ((Eff.clk t).apply d).mmu = d.mmu := rfl
@[simp] theorem apply_clk_chans (t : Nat) (d : Dev) : ((Eff.clk t).apply d).chans = d.chans := rfl
@[simp] theorem apply_clk_counters (t : Nat) (d : Dev) : ((Eff.clk t).apply d).counters = d.counters := rfl
@[simp] theorem apply_clk_watches (t : Nat) (d : Dev) : ((Eff.clk t).apply d).watches = d.watches := rfl
@[simp] theorem apply_clk_ports (t : Nat) (d : Dev) : ((Eff.clk t).apply d).ports = d.ports := rfl
@[simp] theorem apply_clk_dseq (t : Nat) (d : Dev) : ((Eff.clk t).apply d).dseq = d.dseq := rfl
@[simp] theorem apply_clk_xcn (t : Nat) (d : Dev) : ((Eff.clk t).apply d).xcn = d.xcn := rfl
@[simp] theorem apply_clk_peers (t : Nat) (d : Dev) : ((Eff.clk t).apply d).peers = d.peers := rfl
@[simp] theorem apply_clk_sync (t : Nat) (d : Dev) : ((Eff.clk t).apply d).sync = d.sync := rfl
@[simp] theorem apply_clk_hosts (t : Nat) (d : Dev) : ((Eff.clk t).apply d).hosts = d.hosts := rfl
@[simp] theorem apply_clk_circ (t : Nat) (d : Dev) : ((Eff.clk t).apply d).circ = d.circ := rfl
@[simp] theorem apply_clk_found (t : Nat) (d : Dev) : ((Eff.clk t).apply d).found = d.found := rfl
@[simp] theorem apply_clk_obs (t : Nat) (d : Dev) : ((Eff.clk t).apply d).obs = d.obs := rfl
@[simp] theorem apply_clk_tallies (t : Nat) (d : Dev) : ((Eff.clk t).apply d).tallies = d.tallies := rfl
@[simp] theorem apply_clk_sec (t : Nat) (d : Dev) : ((Eff.clk t).apply d).sec = d.sec := rfl
@[simp] theorem apply_clk_job (t : Nat) (d : Dev) : ((Eff.clk t).apply d).job = d.job := rfl
@[simp] theorem apply_clk_course (t : Nat) (d : Dev) : ((Eff.clk t).apply d).course = d.course := rfl
@[simp] theorem apply_clk_shore (t : Nat) (d : Dev) : ((Eff.clk t).apply d).shore = d.shore := rfl
@[simp] theorem apply_clk_wit (t : Nat) (d : Dev) : ((Eff.clk t).apply d).wit = d.wit := rfl
@[simp] theorem apply_clk_slots (t : Nat) (d : Dev) : ((Eff.clk t).apply d).slots = d.slots := rfl
@[simp] theorem apply_clk_start (t : Nat) (d : Dev) : ((Eff.clk t).apply d).start = d.start := rfl
@[simp] theorem apply_clk_hold (t : Nat) (d : Dev) : ((Eff.clk t).apply d).hold = d.hold := rfl
@[simp] theorem apply_clk_rst (t : Nat) (d : Dev) : ((Eff.clk t).apply d).rst = d.rst := rfl
@[simp] theorem apply_clk_clk (t : Nat) (d : Dev) : ((Eff.clk t).apply d).clk = t := rfl
@[simp] theorem apply_clk_podTime (t : Nat) (d : Dev) : ((Eff.clk t).apply d).podTime = d.podTime := rfl
@[simp] theorem apply_clk_status (t : Nat) (d : Dev) : ((Eff.clk t).apply d).status = d.status := rfl
@[simp] theorem apply_clk_free (t : Nat) (d : Dev) : ((Eff.clk t).apply d).free = d.free := rfl
@[simp] theorem apply_clk_out (t : Nat) (d : Dev) : ((Eff.clk t).apply d).out = d.out := rfl

/-! ### podTime -/

@[simp] theorem apply_podTime_power (t : Nat) (d : Dev) : ((Eff.podTime t).apply d).power = d.power := rfl
@[simp] theorem apply_podTime_mode (t : Nat) (d : Dev) : ((Eff.podTime t).apply d).mode = d.mode := rfl
@[simp] theorem apply_podTime_ctl (t : Nat) (d : Dev) : ((Eff.podTime t).apply d).ctl = d.ctl := rfl
@[simp] theorem apply_podTime_mem (t : Nat) (d : Dev) : ((Eff.podTime t).apply d).mem = d.mem := rfl
@[simp] theorem apply_podTime_checks (t : Nat) (d : Dev) : ((Eff.podTime t).apply d).checks = d.checks := rfl
@[simp] theorem apply_podTime_tiles (t : Nat) (d : Dev) : ((Eff.podTime t).apply d).tiles = d.tiles := rfl
@[simp] theorem apply_podTime_savedTiles (t : Nat) (d : Dev) : ((Eff.podTime t).apply d).savedTiles = d.savedTiles := rfl
@[simp] theorem apply_podTime_agents (t : Nat) (d : Dev) : ((Eff.podTime t).apply d).agents = d.agents := rfl
@[simp] theorem apply_podTime_mmu (t : Nat) (d : Dev) : ((Eff.podTime t).apply d).mmu = d.mmu := rfl
@[simp] theorem apply_podTime_chans (t : Nat) (d : Dev) : ((Eff.podTime t).apply d).chans = d.chans := rfl
@[simp] theorem apply_podTime_counters (t : Nat) (d : Dev) : ((Eff.podTime t).apply d).counters = d.counters := rfl
@[simp] theorem apply_podTime_watches (t : Nat) (d : Dev) : ((Eff.podTime t).apply d).watches = d.watches := rfl
@[simp] theorem apply_podTime_ports (t : Nat) (d : Dev) : ((Eff.podTime t).apply d).ports = d.ports := rfl
@[simp] theorem apply_podTime_dseq (t : Nat) (d : Dev) : ((Eff.podTime t).apply d).dseq = d.dseq := rfl
@[simp] theorem apply_podTime_xcn (t : Nat) (d : Dev) : ((Eff.podTime t).apply d).xcn = d.xcn := rfl
@[simp] theorem apply_podTime_peers (t : Nat) (d : Dev) : ((Eff.podTime t).apply d).peers = d.peers := rfl
@[simp] theorem apply_podTime_sync (t : Nat) (d : Dev) : ((Eff.podTime t).apply d).sync = d.sync := rfl
@[simp] theorem apply_podTime_hosts (t : Nat) (d : Dev) : ((Eff.podTime t).apply d).hosts = d.hosts := rfl
@[simp] theorem apply_podTime_circ (t : Nat) (d : Dev) : ((Eff.podTime t).apply d).circ = d.circ := rfl
@[simp] theorem apply_podTime_found (t : Nat) (d : Dev) : ((Eff.podTime t).apply d).found = d.found := rfl
@[simp] theorem apply_podTime_obs (t : Nat) (d : Dev) : ((Eff.podTime t).apply d).obs = d.obs := rfl
@[simp] theorem apply_podTime_tallies (t : Nat) (d : Dev) : ((Eff.podTime t).apply d).tallies = d.tallies := rfl
@[simp] theorem apply_podTime_sec (t : Nat) (d : Dev) : ((Eff.podTime t).apply d).sec = d.sec := rfl
@[simp] theorem apply_podTime_job (t : Nat) (d : Dev) : ((Eff.podTime t).apply d).job = d.job := rfl
@[simp] theorem apply_podTime_course (t : Nat) (d : Dev) : ((Eff.podTime t).apply d).course = d.course := rfl
@[simp] theorem apply_podTime_shore (t : Nat) (d : Dev) : ((Eff.podTime t).apply d).shore = d.shore := rfl
@[simp] theorem apply_podTime_wit (t : Nat) (d : Dev) : ((Eff.podTime t).apply d).wit = d.wit := rfl
@[simp] theorem apply_podTime_slots (t : Nat) (d : Dev) : ((Eff.podTime t).apply d).slots = d.slots := rfl
@[simp] theorem apply_podTime_start (t : Nat) (d : Dev) : ((Eff.podTime t).apply d).start = d.start := rfl
@[simp] theorem apply_podTime_hold (t : Nat) (d : Dev) : ((Eff.podTime t).apply d).hold = d.hold := rfl
@[simp] theorem apply_podTime_rst (t : Nat) (d : Dev) : ((Eff.podTime t).apply d).rst = d.rst := rfl
@[simp] theorem apply_podTime_clk (t : Nat) (d : Dev) : ((Eff.podTime t).apply d).clk = d.clk := rfl
@[simp] theorem apply_podTime_podTime (t : Nat) (d : Dev) : ((Eff.podTime t).apply d).podTime = t := rfl
@[simp] theorem apply_podTime_status (t : Nat) (d : Dev) : ((Eff.podTime t).apply d).status = d.status := rfl
@[simp] theorem apply_podTime_free (t : Nat) (d : Dev) : ((Eff.podTime t).apply d).free = d.free := rfl
@[simp] theorem apply_podTime_out (t : Nat) (d : Dev) : ((Eff.podTime t).apply d).out = d.out := rfl

/-! ### status -/

@[simp] theorem apply_status_power (x : Nat) (d : Dev) : ((Eff.status x).apply d).power = d.power := rfl
@[simp] theorem apply_status_mode (x : Nat) (d : Dev) : ((Eff.status x).apply d).mode = d.mode := rfl
@[simp] theorem apply_status_ctl (x : Nat) (d : Dev) : ((Eff.status x).apply d).ctl = d.ctl := rfl
@[simp] theorem apply_status_mem (x : Nat) (d : Dev) : ((Eff.status x).apply d).mem = d.mem := rfl
@[simp] theorem apply_status_checks (x : Nat) (d : Dev) : ((Eff.status x).apply d).checks = d.checks := rfl
@[simp] theorem apply_status_tiles (x : Nat) (d : Dev) : ((Eff.status x).apply d).tiles = d.tiles := rfl
@[simp] theorem apply_status_savedTiles (x : Nat) (d : Dev) : ((Eff.status x).apply d).savedTiles = d.savedTiles := rfl
@[simp] theorem apply_status_agents (x : Nat) (d : Dev) : ((Eff.status x).apply d).agents = d.agents := rfl
@[simp] theorem apply_status_mmu (x : Nat) (d : Dev) : ((Eff.status x).apply d).mmu = d.mmu := rfl
@[simp] theorem apply_status_chans (x : Nat) (d : Dev) : ((Eff.status x).apply d).chans = d.chans := rfl
@[simp] theorem apply_status_counters (x : Nat) (d : Dev) : ((Eff.status x).apply d).counters = d.counters := rfl
@[simp] theorem apply_status_watches (x : Nat) (d : Dev) : ((Eff.status x).apply d).watches = d.watches := rfl
@[simp] theorem apply_status_ports (x : Nat) (d : Dev) : ((Eff.status x).apply d).ports = d.ports := rfl
@[simp] theorem apply_status_dseq (x : Nat) (d : Dev) : ((Eff.status x).apply d).dseq = d.dseq := rfl
@[simp] theorem apply_status_xcn (x : Nat) (d : Dev) : ((Eff.status x).apply d).xcn = d.xcn := rfl
@[simp] theorem apply_status_peers (x : Nat) (d : Dev) : ((Eff.status x).apply d).peers = d.peers := rfl
@[simp] theorem apply_status_sync (x : Nat) (d : Dev) : ((Eff.status x).apply d).sync = d.sync := rfl
@[simp] theorem apply_status_hosts (x : Nat) (d : Dev) : ((Eff.status x).apply d).hosts = d.hosts := rfl
@[simp] theorem apply_status_circ (x : Nat) (d : Dev) : ((Eff.status x).apply d).circ = d.circ := rfl
@[simp] theorem apply_status_found (x : Nat) (d : Dev) : ((Eff.status x).apply d).found = d.found := rfl
@[simp] theorem apply_status_obs (x : Nat) (d : Dev) : ((Eff.status x).apply d).obs = d.obs := rfl
@[simp] theorem apply_status_tallies (x : Nat) (d : Dev) : ((Eff.status x).apply d).tallies = d.tallies := rfl
@[simp] theorem apply_status_sec (x : Nat) (d : Dev) : ((Eff.status x).apply d).sec = d.sec := rfl
@[simp] theorem apply_status_job (x : Nat) (d : Dev) : ((Eff.status x).apply d).job = d.job := rfl
@[simp] theorem apply_status_course (x : Nat) (d : Dev) : ((Eff.status x).apply d).course = d.course := rfl
@[simp] theorem apply_status_shore (x : Nat) (d : Dev) : ((Eff.status x).apply d).shore = d.shore := rfl
@[simp] theorem apply_status_wit (x : Nat) (d : Dev) : ((Eff.status x).apply d).wit = d.wit := rfl
@[simp] theorem apply_status_slots (x : Nat) (d : Dev) : ((Eff.status x).apply d).slots = d.slots := rfl
@[simp] theorem apply_status_start (x : Nat) (d : Dev) : ((Eff.status x).apply d).start = d.start := rfl
@[simp] theorem apply_status_hold (x : Nat) (d : Dev) : ((Eff.status x).apply d).hold = d.hold := rfl
@[simp] theorem apply_status_rst (x : Nat) (d : Dev) : ((Eff.status x).apply d).rst = d.rst := rfl
@[simp] theorem apply_status_clk (x : Nat) (d : Dev) : ((Eff.status x).apply d).clk = d.clk := rfl
@[simp] theorem apply_status_podTime (x : Nat) (d : Dev) : ((Eff.status x).apply d).podTime = d.podTime := rfl
@[simp] theorem apply_status_status (x : Nat) (d : Dev) : ((Eff.status x).apply d).status = x := rfl
@[simp] theorem apply_status_free (x : Nat) (d : Dev) : ((Eff.status x).apply d).free = d.free := rfl
@[simp] theorem apply_status_out (x : Nat) (d : Dev) : ((Eff.status x).apply d).out = d.out := rfl

/-! ### draw -/

@[simp] theorem apply_draw_power (n : Nat) (d : Dev) : ((Eff.draw n).apply d).power = d.power := rfl
@[simp] theorem apply_draw_mode (n : Nat) (d : Dev) : ((Eff.draw n).apply d).mode = d.mode := rfl
@[simp] theorem apply_draw_ctl (n : Nat) (d : Dev) : ((Eff.draw n).apply d).ctl = d.ctl := rfl
@[simp] theorem apply_draw_mem (n : Nat) (d : Dev) : ((Eff.draw n).apply d).mem = d.mem := rfl
@[simp] theorem apply_draw_checks (n : Nat) (d : Dev) : ((Eff.draw n).apply d).checks = d.checks := rfl
@[simp] theorem apply_draw_tiles (n : Nat) (d : Dev) : ((Eff.draw n).apply d).tiles = d.tiles := rfl
@[simp] theorem apply_draw_savedTiles (n : Nat) (d : Dev) : ((Eff.draw n).apply d).savedTiles = d.savedTiles := rfl
@[simp] theorem apply_draw_agents (n : Nat) (d : Dev) : ((Eff.draw n).apply d).agents = d.agents := rfl
@[simp] theorem apply_draw_mmu (n : Nat) (d : Dev) : ((Eff.draw n).apply d).mmu = d.mmu := rfl
@[simp] theorem apply_draw_chans (n : Nat) (d : Dev) : ((Eff.draw n).apply d).chans = d.chans := rfl
@[simp] theorem apply_draw_counters (n : Nat) (d : Dev) : ((Eff.draw n).apply d).counters = d.counters := rfl
@[simp] theorem apply_draw_watches (n : Nat) (d : Dev) : ((Eff.draw n).apply d).watches = d.watches := rfl
@[simp] theorem apply_draw_ports (n : Nat) (d : Dev) : ((Eff.draw n).apply d).ports = d.ports := rfl
@[simp] theorem apply_draw_dseq (n : Nat) (d : Dev) : ((Eff.draw n).apply d).dseq = d.dseq := rfl
@[simp] theorem apply_draw_xcn (n : Nat) (d : Dev) : ((Eff.draw n).apply d).xcn = d.xcn := rfl
@[simp] theorem apply_draw_peers (n : Nat) (d : Dev) : ((Eff.draw n).apply d).peers = d.peers := rfl
@[simp] theorem apply_draw_sync (n : Nat) (d : Dev) : ((Eff.draw n).apply d).sync = d.sync := rfl
@[simp] theorem apply_draw_hosts (n : Nat) (d : Dev) : ((Eff.draw n).apply d).hosts = d.hosts := rfl
@[simp] theorem apply_draw_circ (n : Nat) (d : Dev) : ((Eff.draw n).apply d).circ = d.circ := rfl
@[simp] theorem apply_draw_found (n : Nat) (d : Dev) : ((Eff.draw n).apply d).found = d.found := rfl
@[simp] theorem apply_draw_obs (n : Nat) (d : Dev) : ((Eff.draw n).apply d).obs = d.obs := rfl
@[simp] theorem apply_draw_tallies (n : Nat) (d : Dev) : ((Eff.draw n).apply d).tallies = d.tallies := rfl
@[simp] theorem apply_draw_sec (n : Nat) (d : Dev) : ((Eff.draw n).apply d).sec = d.sec := rfl
@[simp] theorem apply_draw_job (n : Nat) (d : Dev) : ((Eff.draw n).apply d).job = d.job := rfl
@[simp] theorem apply_draw_course (n : Nat) (d : Dev) : ((Eff.draw n).apply d).course = d.course := rfl
@[simp] theorem apply_draw_shore (n : Nat) (d : Dev) : ((Eff.draw n).apply d).shore = d.shore := rfl
@[simp] theorem apply_draw_wit (n : Nat) (d : Dev) : ((Eff.draw n).apply d).wit = d.wit := rfl
@[simp] theorem apply_draw_slots (n : Nat) (d : Dev) : ((Eff.draw n).apply d).slots = d.slots := rfl
@[simp] theorem apply_draw_start (n : Nat) (d : Dev) : ((Eff.draw n).apply d).start = d.start := rfl
@[simp] theorem apply_draw_hold (n : Nat) (d : Dev) : ((Eff.draw n).apply d).hold = d.hold := rfl
@[simp] theorem apply_draw_rst (n : Nat) (d : Dev) : ((Eff.draw n).apply d).rst = d.rst := rfl
@[simp] theorem apply_draw_clk (n : Nat) (d : Dev) : ((Eff.draw n).apply d).clk = d.clk := rfl
@[simp] theorem apply_draw_podTime (n : Nat) (d : Dev) : ((Eff.draw n).apply d).podTime = d.podTime := rfl
@[simp] theorem apply_draw_status (n : Nat) (d : Dev) : ((Eff.draw n).apply d).status = d.status := rfl
@[simp] theorem apply_draw_free (n : Nat) (d : Dev) : ((Eff.draw n).apply d).free = d.free + n := rfl
@[simp] theorem apply_draw_out (n : Nat) (d : Dev) : ((Eff.draw n).apply d).out = d.out := rfl

/-! ### emit -/

@[simp] theorem apply_emit_power (m : Msg) (d : Dev) : ((Eff.emit m).apply d).power = d.power := rfl
@[simp] theorem apply_emit_mode (m : Msg) (d : Dev) : ((Eff.emit m).apply d).mode = d.mode := rfl
@[simp] theorem apply_emit_ctl (m : Msg) (d : Dev) : ((Eff.emit m).apply d).ctl = d.ctl := rfl
@[simp] theorem apply_emit_mem (m : Msg) (d : Dev) : ((Eff.emit m).apply d).mem = d.mem := rfl
@[simp] theorem apply_emit_checks (m : Msg) (d : Dev) : ((Eff.emit m).apply d).checks = d.checks := rfl
@[simp] theorem apply_emit_tiles (m : Msg) (d : Dev) : ((Eff.emit m).apply d).tiles = d.tiles := rfl
@[simp] theorem apply_emit_savedTiles (m : Msg) (d : Dev) : ((Eff.emit m).apply d).savedTiles = d.savedTiles := rfl
@[simp] theorem apply_emit_agents (m : Msg) (d : Dev) : ((Eff.emit m).apply d).agents = d.agents := rfl
@[simp] theorem apply_emit_mmu (m : Msg) (d : Dev) : ((Eff.emit m).apply d).mmu = d.mmu := rfl
@[simp] theorem apply_emit_chans (m : Msg) (d : Dev) : ((Eff.emit m).apply d).chans = d.chans := rfl
@[simp] theorem apply_emit_counters (m : Msg) (d : Dev) : ((Eff.emit m).apply d).counters = d.counters := rfl
@[simp] theorem apply_emit_watches (m : Msg) (d : Dev) : ((Eff.emit m).apply d).watches = d.watches := rfl
@[simp] theorem apply_emit_ports (m : Msg) (d : Dev) : ((Eff.emit m).apply d).ports = d.ports := rfl
@[simp] theorem apply_emit_dseq (m : Msg) (d : Dev) : ((Eff.emit m).apply d).dseq = d.dseq := rfl
@[simp] theorem apply_emit_xcn (m : Msg) (d : Dev) : ((Eff.emit m).apply d).xcn = d.xcn := rfl
@[simp] theorem apply_emit_peers (m : Msg) (d : Dev) : ((Eff.emit m).apply d).peers = d.peers := rfl
@[simp] theorem apply_emit_sync (m : Msg) (d : Dev) : ((Eff.emit m).apply d).sync = d.sync := rfl
@[simp] theorem apply_emit_hosts (m : Msg) (d : Dev) : ((Eff.emit m).apply d).hosts = d.hosts := rfl
@[simp] theorem apply_emit_circ (m : Msg) (d : Dev) : ((Eff.emit m).apply d).circ = d.circ := rfl
@[simp] theorem apply_emit_found (m : Msg) (d : Dev) : ((Eff.emit m).apply d).found = d.found := rfl
@[simp] theorem apply_emit_obs (m : Msg) (d : Dev) : ((Eff.emit m).apply d).obs = d.obs := rfl
@[simp] theorem apply_emit_tallies (m : Msg) (d : Dev) : ((Eff.emit m).apply d).tallies = d.tallies := rfl
@[simp] theorem apply_emit_sec (m : Msg) (d : Dev) : ((Eff.emit m).apply d).sec = d.sec := rfl
@[simp] theorem apply_emit_job (m : Msg) (d : Dev) : ((Eff.emit m).apply d).job = d.job := rfl
@[simp] theorem apply_emit_course (m : Msg) (d : Dev) : ((Eff.emit m).apply d).course = d.course := rfl
@[simp] theorem apply_emit_shore (m : Msg) (d : Dev) : ((Eff.emit m).apply d).shore = d.shore := rfl
@[simp] theorem apply_emit_wit (m : Msg) (d : Dev) : ((Eff.emit m).apply d).wit = d.wit := rfl
@[simp] theorem apply_emit_slots (m : Msg) (d : Dev) : ((Eff.emit m).apply d).slots = d.slots := rfl
@[simp] theorem apply_emit_start (m : Msg) (d : Dev) : ((Eff.emit m).apply d).start = d.start := rfl
@[simp] theorem apply_emit_hold (m : Msg) (d : Dev) : ((Eff.emit m).apply d).hold = d.hold := rfl
@[simp] theorem apply_emit_rst (m : Msg) (d : Dev) : ((Eff.emit m).apply d).rst = d.rst := rfl
@[simp] theorem apply_emit_clk (m : Msg) (d : Dev) : ((Eff.emit m).apply d).clk = d.clk := rfl
@[simp] theorem apply_emit_podTime (m : Msg) (d : Dev) : ((Eff.emit m).apply d).podTime = d.podTime := rfl
@[simp] theorem apply_emit_status (m : Msg) (d : Dev) : ((Eff.emit m).apply d).status = d.status := rfl
@[simp] theorem apply_emit_free (m : Msg) (d : Dev) : ((Eff.emit m).apply d).free = d.free := rfl
@[simp] theorem apply_emit_out (m : Msg) (d : Dev) : ((Eff.emit m).apply d).out = d.out ++ [m] := rfl

end Sys2Proof.Machine
end

