-- ==== Sys2Proof/Laws/Store.lean ====
section
/-! SUPPORT. Reads after writes of sparse data, and that every operation keeps the canonical form. -/

namespace Sys2Proof

variable {α : Type} {dflt : Nat → α} {m : Store α} {k j : Nat} {v : α}

theorem Store.find?_insert_same (m : Store α) (k : Nat) (v : α) : Store.find? (Store.insert m k v) k = some v := by
  induction m with
  | nil => simp [Store.insert, Store.find?]
  | cons e m ih =>
    simp only [Store.insert]
    split
    · simp only [Store.find?]
      rw [if_neg (by omega)]
      exact ih
    · split <;> simp [Store.find?]

theorem Store.find?_insert_other (m : Store α) (v : α) (h : j ≠ k) : Store.find? (Store.insert m k v) j = Store.find? m j := by
  induction m with
  | nil => simp [Store.insert, Store.find?, Ne.symm h]
  | cons e m ih =>
    simp only [Store.insert]
    split
    · simp only [Store.find?, ih]
    · split
      · rename_i he
        simp only [Store.find?, he, if_neg (Ne.symm h)]
      · simp only [Store.find?, if_neg (Ne.symm h)]

theorem Store.find?_remove (m : Store α) (j k : Nat) : Store.find? (Store.remove m k) j = if j = k then none else Store.find? m j := by
  induction m with
  | nil => simp [Store.remove, Store.find?]
  | cons e m ih =>
    simp only [Store.remove, List.filter_cons] at ih ⊢
    by_cases he : e.1 = k <;> by_cases hj : j = k <;> simp [he, hj, Store.find?] <;> simp_all <;> omega

theorem Store.mem_insert {e : Nat × α} (h : e ∈ Store.insert m k v) : e = (k, v) ∨ e ∈ m := by
  induction m <;> grind [Store.insert]

theorem Store.mem_remove {e : Nat × α} (h : e ∈ Store.remove m k) : e ∈ m := (List.mem_filter.mp h).1

theorem Store.rising_insert (h : m.Pairwise fun a b => a.1 < b.1) : (Store.insert m k v).Pairwise fun a b => a.1 < b.1 := by
  induction m with
  | nil => simp [Store.insert]
  | cons e m ih =>
    obtain ⟨below, rest⟩ := List.pairwise_cons.mp h
    unfold Store.insert
    split
    · next he => exact List.pairwise_cons.mpr ⟨fun x hx => (Store.mem_insert hx).elim (fun hk => hk ▸ he) (below x), ih rest⟩
    · split
      · next he => exact List.pairwise_cons.mpr ⟨by rwa [← he], rest⟩
      · have he : k < e.1 := by omega
        exact List.pairwise_cons.mpr ⟨by simpa [he] using fun a b hab => Nat.lt_trans he (below (a, b) hab), h⟩

theorem Store.rising_remove (h : m.Pairwise fun a b => a.1 < b.1) : (Store.remove m k).Pairwise fun a b => a.1 < b.1 := h.filter _

/-- Reading after a write: the written key reads as written, every other as before. -/
theorem Store.get_put [DecidableEq α] (m : Store α) (k : Nat) (v : α) (j : Nat) :
    Store.get dflt (Store.put dflt m k v) j = if j = k then v else Store.get dflt m j := by
  by_cases hv : v = dflt k <;> by_cases hj : j = k
  · subst hj
    simp [Store.put, Store.get, hv, Store.find?_remove]
  · simp [Store.put, Store.get, hv, Store.find?_remove, hj]
  · subst hj
    simp [Store.put, Store.get, hv, Store.find?_insert_same]
  · simp [Store.put, Store.get, hv, Store.find?_insert_other m v hj, hj]

/-- Reading back what was written. -/
@[simp] theorem Store.get_put_same [DecidableEq α] (m : Store α) (k : Nat) (v : α) : Store.get dflt (Store.put dflt m k v) k = v := by
  simp [Store.get_put]

/-- A write leaves every other key alone. -/
theorem Store.get_put_other [DecidableEq α] (h : j ≠ k) : Store.get dflt (Store.put dflt m k v) j = Store.get dflt m j := by
  simp [Store.get_put, h]

/-- A write keeps the canonical form. -/
theorem Store.canonical_put [DecidableEq α] (h : Store.Canonical dflt m) : Store.Canonical dflt (Store.put dflt m k v) := by
  simp only [Store.put]
  split
  · exact ⟨Store.rising_remove h.1, fun e he => h.2 e (Store.mem_remove he)⟩
  · rename_i hv
    refine ⟨Store.rising_insert h.1, fun e he => ?_⟩
    rcases Store.mem_insert he with rfl | he
    · exact hv
    · exact h.2 e he

theorem Store.canonical_putAll [DecidableEq α] (vs : List α) : ∀ {m : Store α} {k : Nat}, Store.Canonical dflt m →
    Store.Canonical dflt (Store.putAll dflt m k vs) := by
  induction vs with
  | nil => exact fun h => h
  | cons v vs ih => exact fun h => ih (Store.canonical_put h)

/-- Any part of a canonical list taken out by a test is canonical. -/
theorem Store.canonical_filter (p : Nat × α → Bool) (h : Store.Canonical dflt m) : Store.Canonical dflt (m.filter p) :=
  ⟨h.1.filter p, fun e he => h.2 e (List.mem_filter.mp he).1⟩

theorem Store.canonical_clearRange (base len : Nat) (h : Store.Canonical dflt m) : Store.Canonical dflt (Store.clearRange m base len) :=
  Store.canonical_filter _ h

theorem Store.canonical_nil : Store.Canonical dflt [] := ⟨List.Pairwise.nil, by simp⟩

/-- Writing a run of bytes leaves every key outside it alone. -/
theorem Store.get_putAll_other [DecidableEq α] (vs : List α) : ∀ {m : Store α} {k : Nat}, (j < k ∨ k + vs.length ≤ j) →
    Store.get dflt (Store.putAll dflt m k vs) j = Store.get dflt m j := by
  induction vs with
  | nil => exact fun _ => rfl
  | cons v vs ih =>
    intro m k h
    simp only [List.length_cons] at h
    simp only [Store.putAll]
    rw [ih (by omega), Store.get_put_other (by omega)]

end Sys2Proof
end

