-- ==== Sys2Proof/Laws/Prog.lean ====
section
/-! SUPPORT. Running a program, step by step; what keeps a part of the block; and that every program keeps the invariant. -/

namespace Sys2Proof.Machine

/-! ## Running -/

@[simp] theorem run_done (d : Dev) : Prog.done.run d = d := rfl
@[simp] theorem run_act (e : Eff) (d : Dev) : (Prog.act e).run d = e.apply d := rfl
@[simp] theorem run_seq (p q : Prog) (d : Dev) : (Prog.seq p q).run d = q.run (p.run d) := rfl
@[simp] theorem run_look (f : Dev → Prog) (d : Dev) : (Prog.look f).run d = (f d).run d := rfl
@[simp] theorem run_all_nil (d : Dev) : (all []).run d = d := rfl
@[simp] theorem run_all_cons (p : Prog) (ps : List Prog) (d : Dev) : (all (p :: ps)).run d = (all ps).run (p.run d) := rfl
@[simp] theorem run_when_true (p : Prog) (d : Dev) : (when true p).run d = p.run d := rfl
@[simp] theorem run_when_false (p : Prog) (d : Dev) : (when false p).run d = d := rfl
theorem run_when (c : Bool) (p : Prog) (d : Dev) : (when c p).run d = if c then p.run d else d := by cases c <;> rfl
@[simp] theorem run_each_nil {α : Type} (f : α → Prog) (d : Dev) : (each [] f).run d = d := rfl
@[simp] theorem run_each_cons {α : Type} (x : α) (xs : List α) (f : α → Prog) (d : Dev) :
    (each (x :: xs) f).run d = (each xs f).run ((f x).run d) := rfl
theorem run_ite (c : Prop) [Decidable c] (p q : Prog) (d : Dev) : (if c then p else q).run d = if c then p.run d else q.run d := by
  split <;> rfl

theorem run_put (f : Fld) (v : Nat) (d : Dev) : (put f v).run d = (Eff.ctl f.addr (f.into (d.word f.addr) v)).apply d := rfl
theorem run_bump (f : Fld) (k : Nat) (d : Dev) : (bump f k).run d = (put f (satAdd f.width (d.get f) k)).run d := rfl
@[simp] theorem run_send (dest : Dest) (k : Kind) (args : List Nat) (data : List Byte) (d : Dev) :
    (send dest k args data).run d = (Eff.emit ⟨dest, k, args, data⟩).apply d := rfl
@[simp] theorem run_complete (st : Nat) (d : Dev) : (complete st).run d = (Eff.status st).apply d := rfl
@[simp] theorem run_tally (n k : Nat) (d : Dev) :
    (tally n k).run d = (Eff.tally n (Store.get counterReset d.tallies n + BitVec.ofNat 64 k)).apply d := rfl
@[simp] theorem run_withFree (f : W64 → Prog) (d : Dev) : (withFree f).run d = (f (Config.freeWord d.free)).run ((Eff.draw 1).apply d) := rfl
@[simp] theorem run_withFrees (n : Nat) (f : (Nat → W64) → Prog) (d : Dev) :
    (withFrees n f).run d = (f fun i => Config.freeWord (d.free + i)).run ((Eff.draw n).apply d) := rfl
@[simp] theorem run_modTile (n : Nat) (f : Tile → Tile) (d : Dev) : (modTile n f).run d = (Eff.tile n (f (d.tile n))).apply d := rfl
@[simp] theorem run_modAgent (n : Nat) (f : Agent → Agent) (d : Dev) : (modAgent n f).run d = (Eff.agent n (f (d.agent n))).apply d := rfl
@[simp] theorem run_modMmu (f : Mmu → Mmu) (d : Dev) : (modMmu f).run d = (Eff.mmu (f d.mmu)).apply d := rfl
@[simp] theorem run_modChan (n : Nat) (f : Chan → Chan) (d : Dev) : (modChan n f).run d = (Eff.chan n (f (d.chan n))).apply d := rfl
@[simp] theorem run_modSync (f : Sync → Sync) (d : Dev) : (modSync f).run d = (Eff.sync (f d.sync)).apply d := rfl
@[simp] theorem run_modPeer (n : Nat) (f : PeerSess → PeerSess) (d : Dev) : (modPeer n f).run d = (Eff.peer n (f (d.peer n))).apply d := rfl
@[simp] theorem run_modPort (n : Nat) (f : Port → Port) (d : Dev) : (modPort n f).run d = (Eff.port n (f (d.port n))).apply d := rfl
@[simp] theorem run_modStream (o : Nat) (f : DStream → DStream) (d : Dev) : (modStream o f).run d = (Eff.dseq o (f (d.stream o))).apply d := rfl
@[simp] theorem run_modXcn (f : Xcn → Xcn) (d : Dev) : (modXcn f).run d = (Eff.xcn (f d.xcn)).apply d := rfl
@[simp] theorem run_modHost (n : Nat) (f : HSess → HSess) (d : Dev) : (modHost n f).run d = (Eff.host n (f (d.host n))).apply d := rfl
@[simp] theorem run_modObs (f : Obs → Obs) (d : Dev) : (modObs f).run d = (Eff.obs (f d.obs)).apply d := rfl
@[simp] theorem run_modSec (f : Sec → Sec) (d : Dev) : (modSec f).run d = (Eff.sec (f d.sec)).apply d := rfl
@[simp] theorem run_modJob (f : Job → Job) (d : Dev) : (modJob f).run d = (Eff.job (f d.job)).apply d := rfl
@[simp] theorem run_modCourse (f : CourseSt → CourseSt) (d : Dev) : (modCourse f).run d = (Eff.course (f d.course)).apply d := rfl
@[simp] theorem run_modShore (f : ShoreSt → ShoreSt) (d : Dev) : (modShore f).run d = (Eff.shore (f d.shore)).apply d := rfl
@[simp] theorem run_modWit (f : WitSt → WitSt) (d : Dev) : (modWit f).run d = (Eff.wit (f d.wit)).apply d := rfl
@[simp] theorem run_modStart (f : StartSt → StartSt) (d : Dev) : (modStart f).run d = (Eff.start (f d.start)).apply d := rfl
@[simp] theorem run_modHold (f : PartnerHold → PartnerHold) (d : Dev) : (modHold f).run d = (Eff.hold (f d.hold)).apply d := rfl
@[simp] theorem run_modRst (f : ResetSt → ResetSt) (d : Dev) : (modRst f).run d = (Eff.rst (f d.rst)).apply d := rfl
@[simp] theorem run_modSlot (n : Nat) (f : SlotSt → SlotSt) (d : Dev) : (modSlot n f).run d = (Eff.slot n (f (d.slot n))).apply d := rfl
@[simp] theorem run_modMode (f : Mode → Mode) (d : Dev) : (modMode f).run d = (Eff.mode (f d.mode)).apply d := rfl
@[simp] theorem run_modPower (f : Power → Power) (d : Dev) : (modPower f).run d = (Eff.power (f d.power)).apply d := rfl

/-! ## Parts that a program leaves alone -/

/-- A program leaves a reading of the block unchanged, from every state. -/
def Keeps {α : Type} (g : Dev → α) (p : Prog) : Prop := ∀ d, g (p.run d) = g d

section
variable {α β : Type} {g : Dev → α}

theorem keeps_done : Keeps g .done := fun _ => rfl
theorem keeps_act {e : Eff} (h : ∀ d, g (e.apply d) = g d) : Keeps g (.act e) := h
theorem keeps_seq {p q : Prog} (hp : Keeps g p) (hq : Keeps g q) : Keeps g (.seq p q) := fun d => (hq (p.run d)).trans (hp d)
theorem keeps_look {f : Dev → Prog} (h : ∀ d, Keeps g (f d)) : Keeps g (.look f) := fun d => h d d
theorem keeps_nil : Keeps g (all []) := fun _ => rfl
theorem keeps_cons {p : Prog} {ps : List Prog} (hp : Keeps g p) (hq : Keeps g (all ps)) : Keeps g (all (p :: ps)) := keeps_seq hp hq
theorem keeps_when {c : Bool} {p : Prog} (hp : Keeps g p) : Keeps g (when c p) := by
  cases c
  · exact keeps_done
  · exact hp
theorem keeps_ite {c : Prop} [Decidable c] {p q : Prog} (hp : Keeps g p) (hq : Keeps g q) : Keeps g (if c then p else q) := by
  split
  · exact hp
  · exact hq
theorem keeps_each {xs : List β} {f : β → Prog} (h : ∀ x, Keeps g (f x)) : Keeps g (each xs f) := by
  induction xs with
  | nil => exact fun _ => rfl
  | cons x xs ih => exact keeps_seq (h x) ih
theorem keeps_withFree {f : W64 → Prog} (hd : ∀ d, g ((Eff.draw 1).apply d) = g d) (h : ∀ w, Keeps g (f w)) : Keeps g (withFree f) :=
  keeps_look fun _ => keeps_seq (keeps_act hd) (h _)
end

/-! ## What a program may change -/

/-- The parts an effect may change. -/
def Eff.touches : Eff → Part → Bool
  | .power _, p => decide (p = .power)
  | .mode _, p => decide (p = .mode)
  | .ctl a _, p => decide (p = .reg a)
  | .mem a bs, p => match p with | .byte x => decide (a ≤ x) && decide (x < a + bs.length) | _ => false
  | .memClear a n, p => match p with | .byte x => decide (a ≤ x) && decide (x < a + n) | _ => false
  | .check b _, p => decide (p = .check b)
  | .checkClear b n, p => match p with | .check x => decide (b ≤ x) && decide (x < b + n) | _ => false
  | .tile n _, p => decide (p = .tile n)
  | .savedTile n _, p => decide (p = .savedTile n)
  | .agent n _, p => decide (p = .agent n)
  | .mmu _, p => decide (p = .mmu)
  | .chan n _, p => decide (p = .chan n)
  | .counter n _, p => decide (p = .counter n)
  | .watch n _, p => decide (p = .watch n)
  | .peer n _, p => decide (p = .peer n)
  | .port n _, p => decide (p = .port n)
  | .dseq o _, p => decide (p = .stream o)
  | .xcn _, p => decide (p = .xcn)
  | .sync _, p => decide (p = .sync)
  | .host n _, p => decide (p = .host n)
  | .circ k _, p => decide (p = .circ k)
  | .found _, p => decide (p = .found)
  | .obs _, p => decide (p = .obs)
  | .tally n _, p => decide (p = .tally n)
  | .sec _, p => decide (p = .sec)
  | .job _, p => decide (p = .job)
  | .course _, p => decide (p = .course)
  | .shore _, p => decide (p = .shore)
  | .wit _, p => decide (p = .wit)
  | .slot n _, p => decide (p = .slot n)
  | .start _, p => decide (p = .start)
  | .hold _, p => decide (p = .hold)
  | .rst _, p => decide (p = .rst)
  | .clk _, p => decide (p = .clk)
  | .podTime _, p => decide (p = .podTime)
  | .status _, p => decide (p = .status)
  | .draw _, p => decide (p = .free)
  | .emit _, p => decide (p = .out)
  | .chipReset, _ => true
  | .powerLoss, _ => true

theorem Store.find?_clearRange {α : Type} (m : Store α) (b n k : Nat) (h : ¬(b ≤ k ∧ k < b + n)) : Store.find? (Store.clearRange m b n) k = Store.find? m k := by
  induction m with
  | nil => rfl
  | cons e m ih =>
    simp only [Store.clearRange, List.filter_cons] at ih ⊢
    by_cases he : e.1 = k
    · have hf : (!(decide (b ≤ e.1) && decide (e.1 < b + n))) = true := by simp; omega
      simp only [hf, ↓reduceIte, Store.find?]
      simp only [he, ↓reduceIte]
    · split
      · simp only [Store.find?, if_neg he, ih]
      · simp only [Store.find?, if_neg he, ih]

theorem Store.get_clearRange {α : Type} {f : Nat → α} (m : Store α) (b n k : Nat) (h : ¬(b ≤ k ∧ k < b + n)) :
    Store.get f (Store.clearRange m b n) k = Store.get f m k := by
  simp only [Store.get, Store.find?_clearRange m b n k h]

/-- An effect changes no part that it does not touch. -/
theorem Eff.apply_alike (e : Eff) (d : Dev) (p : Part) (h : e.touches p = false) : d.alike (e.apply d) p := by
  cases e with
  | mode m => cases p <;> simp_all [Eff.touches, Dev.alike, Dev.word, Dev.tile, Dev.agent, Dev.chan, Dev.counter, Dev.port, Dev.stream, Dev.peer, Dev.host, Dev.slot]
  | mem a bs =>
    cases p <;> try rfl
    rename_i x
    simp only [Eff.touches, Bool.and_eq_false_iff, decide_eq_false_iff_not] at h
    exact Store.get_putAll_other bs (by omega)
  | memClear a n =>
    cases p <;> try rfl
    rename_i x
    simp only [Eff.touches, Bool.and_eq_false_iff, decide_eq_false_iff_not] at h
    exact Store.get_clearRange _ _ _ _ (by omega)
  | checkClear a n =>
    cases p <;> try rfl
    rename_i x
    simp only [Eff.touches, Bool.and_eq_false_iff, decide_eq_false_iff_not] at h
    exact Store.get_clearRange _ _ _ _ (by omega)
  | watch n w =>
    cases p <;> cases w <;> try rfl
    all_goals
      rename_i x
      simp only [Eff.touches, decide_eq_false_iff_not, Part.watch.injEq] at h
      simp [Dev.alike, Eff.apply, Store.find?_remove, Store.find?_insert_other, h]
  | circ k r =>
    cases p <;> try rfl
    simp only [Eff.touches, decide_eq_false_iff_not, Part.circ.injEq] at h
    exact Store.find?_insert_other _ _ h
  | chipReset => simp [Eff.touches] at h
  | powerLoss => simp [Eff.touches] at h
  | _ =>
    cases p <;> try rfl
    all_goals first
      | (simp only [Eff.touches, decide_eq_false_iff_not, not_true_eq_false] at h; done)
      | (simp only [Eff.touches, decide_eq_false_iff_not, Part.reg.injEq, Part.check.injEq, Part.tile.injEq, Part.savedTile.injEq,
          Part.agent.injEq, Part.chan.injEq, Part.counter.injEq, Part.port.injEq, Part.stream.injEq, Part.peer.injEq, Part.host.injEq,
          Part.tally.injEq, Part.slot.injEq] at h
         exact Store.get_put_other h)

theorem Dev.alike_trans {a b c : Dev} {p : Part} (h : a.alike b p) (k : b.alike c p) : a.alike c p := by
  cases p <;> exact k.trans h

/-- Run from a block, a program changes parts that `w` picks only. -/
def Prog.within (w : Part → Bool) : Prog → Dev → Prop
  | .done, _ => True
  | .act e, _ => ∀ p, e.touches p = true → w p = true
  | .seq p q, d => p.within w d ∧ q.within w (p.run d)
  | .look f, d => (f d).within w d

theorem Prog.within_alike {w : Part → Bool} (q : Prog) : ∀ {d : Dev}, q.within w d → ∀ p, w p = false → d.alike (q.run d) p := by
  induction q with
  | done => exact fun _ p _ => by cases p <;> rfl
  | act e =>
    exact fun h p hp => Eff.apply_alike e _ p (by
      cases hq : e.touches p
      · rfl
      · exact absurd (h p hq) (by simp [hp]))
  | seq p q hp hq => exact fun h x hx => Dev.alike_trans (hp h.1 x hx) (hq h.2 x hx)
  | look f ih => exact fun h x hx => ih _ h x hx

section
variable {w : Part → Bool}

theorem Prog.within_mono {w' : Part → Bool} (h : ∀ p, w p = true → w' p = true) (q : Prog) : ∀ {d : Dev}, q.within w d → q.within w' d := by
  induction q with
  | done => exact fun _ => trivial
  | act e => exact fun hq p hp => h p (hq p hp)
  | seq p q hp hq => exact fun k => ⟨hp k.1, hq k.2⟩
  | look f ih => exact fun k => ih _ k

@[simp] theorem within_done (d : Dev) : Prog.done.within w d := trivial
@[simp] theorem within_seq (p q : Prog) (d : Dev) : (Prog.seq p q).within w d ↔ p.within w d ∧ q.within w (p.run d) := Iff.rfl
@[simp] theorem within_look (f : Dev → Prog) (d : Dev) : (Prog.look f).within w d ↔ (f d).within w d := Iff.rfl
@[simp] theorem within_nil (d : Dev) : (all []).within w d := trivial
@[simp] theorem within_cons (p : Prog) (ps : List Prog) (d : Dev) : (all (p :: ps)).within w d ↔ p.within w d ∧ (all ps).within w (p.run d) := Iff.rfl
theorem within_when {c : Bool} {p : Prog} {d : Dev} (h : c = true → p.within w d) : (when c p).within w d := by
  cases c
  · trivial
  · exact h rfl
@[simp] theorem within_when_true (p : Prog) (d : Dev) : (when true p).within w d ↔ p.within w d := Iff.rfl
@[simp] theorem within_when_false (p : Prog) (d : Dev) : (when false p).within w d := trivial
theorem within_ite {c : Prop} [Decidable c] {p q : Prog} {d : Dev} (hp : c → p.within w d) (hq : ¬c → q.within w d) : (if c then p else q).within w d := by
  split
  · exact hp ‹_›
  · exact hq ‹_›
theorem within_each {α : Type} {xs : List α} {f : α → Prog} (h : ∀ x ∈ xs, ∀ d, (f x).within w d) : ∀ d : Dev, (each xs f).within w d := by
  induction xs with
  | nil => exact fun _ => trivial
  | cons x xs ih => exact fun d => ⟨h x (by simp) d, ih (fun y hy => h y (by simp [hy])) _⟩

@[simp] theorem within_put (f : Fld) (v : Nat) (d : Dev) : (put f v).within w d ↔ w (.reg f.addr) = true := by
  simp [put, Prog.within, Eff.touches]
@[simp] theorem within_bump (f : Fld) (v : Nat) (d : Dev) : (bump f v).within w d ↔ w (.reg f.addr) = true := by
  simp [bump]
@[simp] theorem within_send (dest : Dest) (k : Kind) (args : List Nat) (data : List Byte) (d : Dev) : (send dest k args data).within w d ↔ w .out = true := by
  simp [send, Prog.within, Eff.touches]
@[simp] theorem within_complete (st : Nat) (d : Dev) : (complete st).within w d ↔ w .status = true := by simp [complete, Prog.within, Eff.touches]
@[simp] theorem within_tally (n k : Nat) (d : Dev) : (tally n k).within w d ↔ w (.tally n) = true := by simp [tally, Prog.within, Eff.touches]
@[simp] theorem within_modTile (n : Nat) (f : Tile → Tile) (d : Dev) : (modTile n f).within w d ↔ w (.tile n) = true := by simp [modTile, Prog.within, Eff.touches]
@[simp] theorem within_modAgent (n : Nat) (f : Agent → Agent) (d : Dev) : (modAgent n f).within w d ↔ w (.agent n) = true := by simp [modAgent, Prog.within, Eff.touches]
@[simp] theorem within_modMmu (f : Mmu → Mmu) (d : Dev) : (modMmu f).within w d ↔ w .mmu = true := by simp [modMmu, Prog.within, Eff.touches]
@[simp] theorem within_modChan (n : Nat) (f : Chan → Chan) (d : Dev) : (modChan n f).within w d ↔ w (.chan n) = true := by simp [modChan, Prog.within, Eff.touches]
@[simp] theorem within_modSync (f : Sync → Sync) (d : Dev) : (modSync f).within w d ↔ w .sync = true := by simp [modSync, Prog.within, Eff.touches]
@[simp] theorem within_modPeer (n : Nat) (f : PeerSess → PeerSess) (d : Dev) : (modPeer n f).within w d ↔ w (.peer n) = true := by simp [modPeer, Prog.within, Eff.touches]
@[simp] theorem within_modPort (n : Nat) (f : Port → Port) (d : Dev) : (modPort n f).within w d ↔ w (.port n) = true := by simp [modPort, Prog.within, Eff.touches]
@[simp] theorem within_modStream (n : Nat) (f : DStream → DStream) (d : Dev) : (modStream n f).within w d ↔ w (.stream n) = true := by simp [modStream, Prog.within, Eff.touches]
@[simp] theorem within_modXcn (f : Xcn → Xcn) (d : Dev) : (modXcn f).within w d ↔ w .xcn = true := by simp [modXcn, Prog.within, Eff.touches]
@[simp] theorem within_modHost (n : Nat) (f : HSess → HSess) (d : Dev) : (modHost n f).within w d ↔ w (.host n) = true := by simp [modHost, Prog.within, Eff.touches]
@[simp] theorem within_modObs (f : Obs → Obs) (d : Dev) : (modObs f).within w d ↔ w .obs = true := by simp [modObs, Prog.within, Eff.touches]
@[simp] theorem within_modSec (f : Sec → Sec) (d : Dev) : (modSec f).within w d ↔ w .sec = true := by simp [modSec, Prog.within, Eff.touches]
@[simp] theorem within_modJob (f : Job → Job) (d : Dev) : (modJob f).within w d ↔ w .job = true := by simp [modJob, Prog.within, Eff.touches]
@[simp] theorem within_modCourse (f : CourseSt → CourseSt) (d : Dev) : (modCourse f).within w d ↔ w .course = true := by simp [modCourse, Prog.within, Eff.touches]
@[simp] theorem within_modShore (f : ShoreSt → ShoreSt) (d : Dev) : (modShore f).within w d ↔ w .shore = true := by simp [modShore, Prog.within, Eff.touches]
@[simp] theorem within_modWit (f : WitSt → WitSt) (d : Dev) : (modWit f).within w d ↔ w .wit = true := by simp [modWit, Prog.within, Eff.touches]
@[simp] theorem within_modStart (f : StartSt → StartSt) (d : Dev) : (modStart f).within w d ↔ w .start = true := by simp [modStart, Prog.within, Eff.touches]
@[simp] theorem within_modHold (f : PartnerHold → PartnerHold) (d : Dev) : (modHold f).within w d ↔ w .hold = true := by simp [modHold, Prog.within, Eff.touches]
@[simp] theorem within_modRst (f : ResetSt → ResetSt) (d : Dev) : (modRst f).within w d ↔ w .rst = true := by simp [modRst, Prog.within, Eff.touches]
@[simp] theorem within_modSlot (n : Nat) (f : SlotSt → SlotSt) (d : Dev) : (modSlot n f).within w d ↔ w (.slot n) = true := by simp [modSlot, Prog.within, Eff.touches]
@[simp] theorem within_modMode (f : Mode → Mode) (d : Dev) : (modMode f).within w d ↔ w .mode = true := by simp [modMode, Prog.within, Eff.touches]
@[simp] theorem within_modPower (f : Power → Power) (d : Dev) : (modPower f).within w d ↔ w .power = true := by simp [modPower, Prog.within, Eff.touches]
@[simp] theorem within_ctl (a : Nat) (v : W64) (d : Dev) : (Prog.act (.ctl a v)).within w d ↔ w (.reg a) = true := by simp [Prog.within, Eff.touches]
@[simp] theorem within_counter (n : Nat) (v : W64) (d : Dev) : (Prog.act (.counter n v)).within w d ↔ w (.counter n) = true := by simp [Prog.within, Eff.touches]
@[simp] theorem within_obs (o : Obs) (d : Dev) : (Prog.act (.obs o)).within w d ↔ w .obs = true := by simp [Prog.within, Eff.touches]
@[simp] theorem within_circ (k : Nat) (r : DRec) (d : Dev) : (Prog.act (.circ k r)).within w d ↔ w (.circ k) = true := by simp [Prog.within, Eff.touches]
@[simp] theorem within_found (r : DRec) (d : Dev) : (Prog.act (.found r)).within w d ↔ w .found = true := by simp [Prog.within, Eff.touches]
@[simp] theorem within_status (n : Nat) (d : Dev) : (Prog.act (.status n)).within w d ↔ w .status = true := by simp [Prog.within, Eff.touches]
@[simp] theorem within_clk (n : Nat) (d : Dev) : (Prog.act (.clk n)).within w d ↔ w .clk = true := by simp [Prog.within, Eff.touches]
@[simp] theorem within_podTime (n : Nat) (d : Dev) : (Prog.act (.podTime n)).within w d ↔ w .podTime = true := by simp [Prog.within, Eff.touches]
@[simp] theorem within_draw (n : Nat) (d : Dev) : (Prog.act (.draw n)).within w d ↔ w .free = true := by simp [Prog.within, Eff.touches]
@[simp] theorem within_emit (m : Msg) (d : Dev) : (Prog.act (.emit m)).within w d ↔ w .out = true := by simp [Prog.within, Eff.touches]
@[simp] theorem within_withFree (f : W64 → Prog) (d : Dev) :
    (withFree f).within w d ↔ w .free = true ∧ (f (Config.freeWord d.free)).within w ((Eff.draw 1).apply d) := by
  simp [withFree]
end

/-- A command whose meaning runs a program leads where the program does. -/
theorem leads_run {w : Part → Bool} {c : Instr} {s : State} {Q : Dev → Prop} (q : Prog) (h : exec c s = s.run q) (hw : q.within w s.dev)
    (hQ : Q (q.run s.dev)) : Leads w c s Q :=
  ⟨_, h, rfl, q.within_alike hw, hQ⟩

/-! ## The invariant -/

theorem Mode.afterE3_legal (m : Mode) (h : m.legal = true) : m.afterE3.legal = true := by
  unfold Mode.afterE3
  split
  · rename_i hr
    cases hg : m.guestOn <;> simp_all [Mode.legal]
  · dsimp only
    split
    · assumption
    · rfl
  · rename_i hs hb
    revert h
    cases hr : m.role <;> simp_all [Mode.legal]

theorem ctlImplemented_put {d : Dev} (h : d.ctlImplemented) (a : Nat) (v : W64) : ((Eff.ctl a v).apply d).ctlImplemented := by
  intro e he
  simp only [apply_ctl_ctl, Store.put] at he
  split at he
  · exact h e (Store.mem_remove he)
  · rcases Store.mem_insert he with rfl | he
    · show v &&& implMask ctlRows a &&& implMask ctlRows a = v &&& implMask ctlRows a
      rw [BitVec.and_assoc, BitVec.and_self]
    · exact h e he

/-- Every effect keeps the invariant. -/
theorem Eff.apply_inv (e : Eff) (d : Dev) (h : d.Inv) : (e.apply d).Inv := by
  cases e with
  | ctl a v => exact { h with ctl := Store.canonical_put h.ctl, ctlBits := ctlImplemented_put h.ctlBits a v }
  | mode m =>
    simp only [Eff.apply]
    split
    · rename_i hm
      exact { h with mode := hm }
    · exact h
  | mem a bs => exact { h with mem := Store.canonical_putAll bs h.mem }
  | memClear a n => exact { h with mem := Store.canonical_clearRange a n h.mem }
  | check b v => exact { h with checks := Store.canonical_put h.checks }
  | checkClear b n => exact { h with checks := Store.canonical_clearRange b n h.checks }
  | tile n t => exact { h with tiles := Store.canonical_put h.tiles }
  | savedTile n t => exact { h with savedTiles := Store.canonical_put h.savedTiles }
  | agent n a => exact { h with agents := Store.canonical_put h.agents }
  | chan n c => exact { h with chans := Store.canonical_put h.chans }
  | counter n v => exact { h with counters := Store.canonical_put h.counters }
  | watch n w =>
    cases w with
    | some x => exact { h with watches := Store.rising_insert h.watches }
    | none => exact { h with watches := Store.rising_remove h.watches }
  | peer n p => exact { h with peers := Store.canonical_put h.peers }
  | port n p => exact { h with ports := Store.canonical_put h.ports }
  | dseq o x => exact { h with dseq := Store.canonical_put h.dseq }
  | host n x => exact { h with hosts := Store.canonical_put h.hosts }
  | circ k r => exact { h with circ := Store.rising_insert h.circ }
  | tally n v => exact { h with tallies := Store.canonical_put h.tallies }
  | slot n x => exact { h with slots := Store.canonical_put h.slots }
  | chipReset =>
    exact { h with
      mode := Mode.afterE3_legal _ h.mode
      ctl := Store.canonical_filter _ h.ctl
      ctlBits := fun e he => h.ctlBits e (List.mem_filter.mp he).1
      tiles := Store.canonical_nil, savedTiles := Store.canonical_nil, chans := Store.canonical_nil, counters := Store.canonical_nil
      tallies := Store.canonical_nil, watches := List.Pairwise.nil }
  | powerLoss =>
    exact {
      mem := Store.canonical_nil, checks := Store.canonical_nil, ctl := Store.canonical_filter _ h.ctl
      ctlBits := fun e he => h.ctlBits e (List.mem_filter.mp he).1
      tiles := Store.canonical_nil, savedTiles := Store.canonical_nil, agents := Store.canonical_nil, chans := Store.canonical_nil
      counters := Store.canonical_nil, ports := Store.canonical_nil, dseq := Store.canonical_nil, peers := Store.canonical_nil
      hosts := Store.canonical_nil, tallies := Store.canonical_nil, slots := Store.canonical_nil, watches := List.Pairwise.nil
      circ := h.circ, mode := rfl }
  | _ => exact { h with }

/-- Every program keeps the invariant. -/
theorem Prog.run_inv (p : Prog) : ∀ d : Dev, d.Inv → (p.run d).Inv := by
  induction p with
  | done => exact fun _ h => h
  | act e => exact fun d h => e.apply_inv d h
  | seq p q hp hq => exact fun d h => hq _ (hp d h)
  | look f ih => exact fun d h => ih d d h

end Sys2Proof.Machine
end

