-- ==== Sys2Proof/Laws/Regs.lean ====
section
/-! SUPPORT. Fields of registers: what a field reads as after a write of it, or of another field. -/

namespace Sys2Proof.Machine

/-- The bits of a field's value. -/
theorem Fld.testBit_of (f : Fld) (w : W64) (i : Nat) : (f.of w).testBit i = (decide (i < f.width) && w.getLsbD (f.lsb + i)) := by
  simp only [Fld.of, Nat.testBit_mod_two_pow, Nat.testBit_div_two_pow, BitVec.getLsbD]
  rw [Nat.add_comm]

theorem bitMask_getLsbD (l n i : Nat) : (bitMask l n).getLsbD i = (decide (i < 64) && decide (l ≤ i) && decide (i < l + n)) := by
  simp only [bitMask, BitVec.getLsbD_ofNat, Nat.testBit_mul_two_pow, Nat.testBit_two_pow_sub_one]
  by_cases h1 : i < 64 <;> by_cases h2 : l ≤ i <;> simp [h1, h2]
  omega

theorem Fld.into_getLsbD (f : Fld) (w : W64) (v i : Nat) (hi : i < 64) :
    (f.into w v).getLsbD i = if f.lsb ≤ i ∧ i < f.lsb + f.width then v.testBit (i - f.lsb) else w.getLsbD i := by
  simp only [Fld.into, BitVec.getLsbD_or, BitVec.getLsbD_and, BitVec.getLsbD_not, bitMask_getLsbD, BitVec.getLsbD_ofNat,
    Nat.testBit_mul_two_pow, Nat.testBit_mod_two_pow, hi, decide_true, Bool.true_and]
  by_cases h1 : f.lsb ≤ i <;> by_cases h2 : i < f.lsb + f.width <;> simp [h1, h2] <;> omega

/-- A field reads back what was written, cut to its width. -/
theorem Fld.of_into (f : Fld) (w : W64) (v : Nat) (h : f.lsb + f.width ≤ 64) : f.of (f.into w v) = v % 2 ^ f.width := by
  apply Nat.eq_of_testBit_eq
  intro i
  rw [Fld.testBit_of, Nat.testBit_mod_two_pow]
  by_cases hi : i < f.width
  · rw [Fld.into_getLsbD f w v _ (by omega), if_pos (by omega)]
    simp [hi]
  · simp [hi]

/-- Two fields share no bit. -/
def Fld.apart (f g : Fld) : Bool := decide (f.addr ≠ g.addr) || decide (f.lsb + f.width ≤ g.lsb) || decide (g.lsb + g.width ≤ f.lsb)

/-- A field of the same register, apart from the written one, reads as before. -/
theorem Fld.of_into_other (f g : Fld) (w : W64) (v : Nat) (h : f.lsb + f.width ≤ g.lsb ∨ g.lsb + g.width ≤ f.lsb) :
    g.of (f.into w v) = g.of w := by
  apply Nat.eq_of_testBit_eq
  intro i
  rw [Fld.testBit_of, Fld.testBit_of]
  by_cases hi : i < g.width
  · by_cases h6 : g.lsb + i < 64
    · rw [Fld.into_getLsbD f w v _ h6, if_neg (by omega)]
    · simp [BitVec.getLsbD_of_ge _ _ (Nat.le_of_not_lt h6)]
  · simp [hi]

/-- A field whose every bit a table implements. -/
def Fld.real (t : List RegRow) (f : Fld) : Bool :=
  decide (f.lsb + f.width ≤ 64) && decide (implMask t f.addr &&& bitMask f.lsb f.width = bitMask f.lsb f.width)

theorem Fld.of_mask {t : List RegRow} {f : Fld} (h : f.real t = true) (w : W64) : f.of (w &&& implMask t f.addr) = f.of w := by
  simp only [Fld.real, Bool.and_eq_true, decide_eq_true_eq] at h
  apply Nat.eq_of_testBit_eq
  intro i
  rw [Fld.testBit_of, Fld.testBit_of]
  by_cases hi : i < f.width
  · have := congrArg (fun x => BitVec.getLsbD x (f.lsb + i)) h.2
    simp only [BitVec.getLsbD_and, bitMask_getLsbD] at this
    have h6 : f.lsb + i < 64 := by omega
    simp only [h6, decide_true, show f.lsb ≤ f.lsb + i by omega, show f.lsb + i < f.lsb + f.width by omega, Bool.and_true] at this
    simp [this]
  · simp [hi]

/-! ## Control registers -/

theorem word_ctl (a b : Nat) (v : W64) (d : Dev) : ((Eff.ctl a v).apply d).word b = if b = a then v &&& implMask ctlRows a else d.word b :=
  Store.get_put ..

/-- The block's own write of a field. -/
theorem get_put_same (f : Fld) (v : Nat) (d : Dev) (h : f.real ctlRows = true) : ((put f v).run d).get f = v % 2 ^ f.width := by
  have hw : f.lsb + f.width ≤ 64 := by simp [Fld.real] at h; omega
  simp only [run_put, Dev.get, word_ctl, if_true, Fld.of_mask h, Fld.of_into f _ v hw]

/-- It leaves every field apart from it. -/
theorem get_put_other (f g : Fld) (v : Nat) (d : Dev) (h : g.real ctlRows = true) (hd : f.apart g = true) : ((put f v).run d).get g = d.get g := by
  simp only [run_put, Dev.get, word_ctl]
  split
  · rename_i he
    simp only [Fld.apart, he, ne_eq, not_true_eq_false, decide_false, Bool.false_or, Bool.or_eq_true, decide_eq_true_eq] at hd
    rw [← he, Fld.of_mask h, Fld.of_into_other f g _ v hd]
  · rfl

/-- The register of a field written whole. -/
theorem get_ctl_same (f : Fld) (v : W64) (d : Dev) (h : f.real ctlRows = true) : ((Eff.ctl f.addr v).apply d).get f = f.of v := by
  simp only [Dev.get, word_ctl, if_true, Fld.of_mask h]

/-- A field that its table gives as RW, with every other field of its register apart from it. -/
def Fld.isRw (t : List RegRow) (f : Fld) : Bool :=
  decide (f.lsb + f.width ≤ 64) &&
  (fieldsAt t f.addr).any (fun x => decide (x.lsb = f.lsb) && decide (x.width = f.width) && decide (x.acc = .rw)) &&
  (fieldsAt t f.addr).all (fun x => (decide (x.lsb = f.lsb) && decide (x.width = f.width) && decide (x.acc = .rw)) ||
    decide (x.lsb + x.width ≤ f.lsb) || decide (f.lsb + f.width ≤ x.lsb))

theorem FldSpec.written_getLsbD (x : FldSpec) (old v : W64) (i : Nat) (h : i < x.lsb ∨ x.lsb + x.width ≤ i) : (x.written old v).getLsbD i = false := by
  have hm : (bitMask x.lsb x.width).getLsbD i = false := by
    rw [bitMask_getLsbD]
    rcases h with h | h <;> simp <;> omega
  cases hx : x.acc <;> simp [FldSpec.written, hx, hm]

/-- A plain write of an RW field gives it the value written. -/
theorem Fld.of_writtenWord {t : List RegRow} {f : Fld} (h : f.isRw t = true) (old v : W64) : f.of (writtenWord t f.addr old v) = f.of v := by
  simp only [Fld.isRw, Bool.and_eq_true, decide_eq_true_eq] at h
  obtain ⟨⟨h6, ha⟩, hb⟩ := h
  apply Nat.eq_of_testBit_eq
  intro i
  rw [Fld.testBit_of, Fld.testBit_of]
  by_cases hi : i < f.width
  · simp only [hi, decide_true, Bool.true_and, writtenWord]
    have hrw : ∀ x : FldSpec, x.lsb = f.lsb → x.width = f.width → x.acc = .rw → (x.written old v).getLsbD (f.lsb + i) = v.getLsbD (f.lsb + i) := by
      intro x h1 h2 h3
      simp only [FldSpec.written, h3, BitVec.getLsbD_and, bitMask_getLsbD, h1, h2]
      simp [show f.lsb + i < 64 by omega, hi]
    have hfold : ∀ (l : List FldSpec) (w : W64),
        l.all (fun x => (decide (x.lsb = f.lsb) && decide (x.width = f.width) && decide (x.acc = .rw)) ||
          decide (x.lsb + x.width ≤ f.lsb) || decide (f.lsb + f.width ≤ x.lsb)) = true →
        (l.foldl (fun w x => w ||| x.written old v) w).getLsbD (f.lsb + i) = (w.getLsbD (f.lsb + i) ||
          (l.any (fun x => decide (x.lsb = f.lsb) && decide (x.width = f.width) && decide (x.acc = .rw)) && v.getLsbD (f.lsb + i))) := by
      intro l
      induction l with
      | nil => simp
      | cons x l ih =>
        intro w hl
        simp only [List.all_cons, Bool.and_eq_true] at hl
        rw [List.foldl_cons, ih _ hl.2, List.any_cons, BitVec.getLsbD_or]
        by_cases hx : x.lsb = f.lsb ∧ x.width = f.width ∧ x.acc = .rw
        · rw [hrw x hx.1 hx.2.1 hx.2.2]
          simp only [hx, decide_true, Bool.and_self, Bool.true_or, Bool.true_and]
          cases w.getLsbD (f.lsb + i) <;> cases v.getLsbD (f.lsb + i) <;> simp
        · have hd : (decide (x.lsb = f.lsb) && decide (x.width = f.width) && decide (x.acc = .rw)) = false := by
            simpa [and_assoc] using hx
          rw [hd, Bool.false_or, Bool.or_eq_true, decide_eq_true_eq, decide_eq_true_eq] at hl
          rw [hd, FldSpec.written_getLsbD x old v _ (by omega), Bool.or_false, Bool.false_or]
    rw [hfold _ _ hb, ha]
    simp
  · simp [hi]

theorem get_writePlain (f : Fld) (v : W64) (d : Dev) (h : f.isRw ctlRows = true) (hr : f.real ctlRows = true) :
    ((writePlain f.addr v).run d).get f = f.of v := by
  show ((Eff.ctl f.addr (writtenWord ctlRows f.addr (d.word f.addr) v)).apply d).get f = f.of v
  rw [get_ctl_same f _ d hr, Fld.of_writtenWord h]

/-! ## Registers of an agent and of a tile -/

theorem Agent.get_set_same (f : Fld) (v : Nat) (a : Agent) (h : f.lsb + f.width ≤ 64) : (a.set f v).get f = v % 2 ^ f.width := by
  simp only [Agent.get, Agent.set, Store.get_put_same, Fld.of_into f _ v h]

theorem Agent.get_set_other (f g : Fld) (v : Nat) (a : Agent) (h : f.apart g = true) : (a.set f v).get g = a.get g := by
  simp only [Agent.get, Agent.set, Store.get_put]
  split
  · rename_i he
    simp only [Fld.apart, he, ne_eq, not_true_eq_false, decide_false, Bool.false_or, Bool.or_eq_true, decide_eq_true_eq] at h
    rw [Fld.of_into_other f g _ v h, he]
  · rfl

theorem Tile.get_set_same (f : Fld) (v : Nat) (t : Tile) (h : f.lsb + f.width ≤ 64) : (t.set f v).get f = v % 2 ^ f.width := by
  simp only [Tile.get, Tile.set, Store.get_put_same, Fld.of_into f _ v h]

theorem Tile.get_set_other (f g : Fld) (v : Nat) (t : Tile) (h : f.apart g = true) : (t.set f v).get g = t.get g := by
  simp only [Tile.get, Tile.set, Store.get_put]
  split
  · rename_i he
    simp only [Fld.apart, he, ne_eq, not_true_eq_false, decide_false, Bool.false_or, Bool.or_eq_true, decide_eq_true_eq] at h
    rw [Fld.of_into_other f g _ v h, he]
  · rfl

end Sys2Proof.Machine
end

