-- ==== Sys2Proof/Laws/Events.lean ====
section
/-! SUPPORT. What the shared operations of every command may change: sending on host sessions, event notices and datestone records. -/

namespace Sys2Proof.Machine

section
variable {w : Part → Bool}

/-- The parts that a session's traffic may change. -/
structure Sends (w : Part → Bool) : Prop where
  state : ∀ n, n < 16 → w (.reg (HST_SESS_STATE n).addr) = true
  host : ∀ n, w (.host n) = true
  out : w .out = true
  count : w (.tally 1473) = true

theorem sends_orEvents (w : Part → Bool) : Sends (orEvents w) := by
  refine ⟨fun n h => ?_, fun n => by simp [orEvents], by simp [orEvents], by simp [orEvents]⟩
  have h1 : 0x200100 ≤ (HST_SESS_STATE n).addr := Nat.le_add_right ..
  have h2 : (HST_SESS_STATE n).addr < 0x200180 := by
    show 0x200100 + 0x8 * n < 0x200180
    omega
  simp only [orEvents, h1, h2, decide_true, Bool.and_self, Bool.or_true]

theorem sends_orRecord (w : Part → Bool) : Sends (orRecord w) := by
  have h := sends_orEvents w
  exact ⟨fun n hn => by simp only [orRecord, h.state n hn, Bool.true_or], fun n => by simp [orRecord, orEvents], by simp [orRecord, orEvents],
    by simp [orRecord, orEvents]⟩

theorem within_freeHost (hs : Sends w) {n : Nat} (hn : n < 16) (d : Dev) : (freeHost n).within w d :=
  ⟨(within_modHost n _ d).mpr (hs.host n), (within_ctl (HST_SESS_STATE n).addr 0 _).mpr (hs.state n hn)⟩

theorem within_sendDatagram (hs : Sends w) (n : Nat) (p : OutPkt) (d : Dev) : (sendDatagram n p).within w d := by
  simp only [sendDatagram, within_look, within_cons, within_modHost, within_tally, within_send, hs.host, hs.out, hs.count, within_nil, and_self]

theorem within_closeHost (hs : Sends w) {n : Nat} (hn : n < 16) (st : Nat) (d : Dev) : (closeHost n st).within w d := by
  simp [closeHost, within_sendDatagram hs, within_freeHost hs hn]

theorem within_sendPkt (hs : Sends w) {n : Nat} (hn : n < 16) (p : OutPkt) (d : Dev) : (sendPkt n p).within w d := by
  simp only [sendPkt, within_look]
  exact within_ite (fun _ => within_closeHost hs hn ..) fun _ => within_sendDatagram hs ..

theorem within_pumpSession (hs : Sends w) {n : Nat} (hn : n < 16) : ∀ k d, (pumpSession n k).within w d := by
  intro k
  induction k with
  | zero => exact fun _ => trivial
  | succ k ih =>
    intro d
    simp only [pumpSession, within_look]
    refine within_ite (fun _ => trivial) fun _ => ?_
    have hE : w (.reg (HST_SESS_EVQ n).addr) = true := hs.state n hn
    split <;> simp [hs.host, hE, within_sendPkt hs hn, ih]

theorem within_pump (hs : Sends w) {n : Nat} (hn : n < 16) (d : Dev) : (pump n).within w d := within_pumpSession hs hn _ _

theorem within_answer (hs : Sends w) {n : Nat} (hn : n < 16) (ref target st arg : Nat) (data : List Byte) (d : Dev) :
    (answer n ref target st arg data).within w d := by
  simp only [answer, within_look]
  refine within_ite (fun _ => trivial) fun _ => ?_
  simp [hs.host, within_pump hs hn]

theorem within_noticeTo (hs : Sends w) {n : Nat} (hn : n < 16) (src bits : Nat) (data : List Byte) (d : Dev) :
    (noticeTo n src bits data).within w d := by
  simp only [noticeTo, within_look]
  refine within_when fun _ => ?_
  have hE : w (.reg (HST_SESS_EVQ n).addr) = true := hs.state n hn
  simp [hs.host, hE, within_pump hs hn]

theorem within_notice (hs : Sends w) (src bits : Nat) (data : List Byte) (d : Dev) : (notice src bits data).within w d := by
  refine within_each (fun n hn d => ?_) d
  simp only [within_look]
  exact within_when fun _ => within_noticeTo hs (List.mem_range.mp hn) ..

/-- Raising an event writes its register and sends notices; nothing else. -/
theorem within_raise (hs : Sends w) {f : Fld} (hf : w (.reg f.addr) = true) (data : List Byte) (d : Dev) : (raise f data).within w d := by
  simp only [raise, within_look, within_seq, within_put, hf, true_and]
  exact within_when fun _ => within_notice hs ..

/-- The event bit is set, whatever the notices do. -/
theorem get_raise (f : Fld) (data : List Byte) (d : Dev) (h : f.real ctlRows = true) (hw : f.width = 1)
    (ha : f.addr < 0x200100 ∨ 0x200180 ≤ f.addr) : ((raise f data).run d).get f = 1 := by
  have hq := Prog.within_alike (w := orEvents (only [])) (when (d.on { f with addr := f.addr + 8 }) (notice f.addr (2 ^ f.lsb) data))
    (d := (put f 1).run d) (within_when fun _ => within_notice (sends_orEvents _) ..) (.reg f.addr) (by simp [orEvents, only]; omega)
  have hg := get_put_same f 1 d h
  rw [hw] at hg
  exact (congrArg f.of hq).trans hg

/-- The registers that hold neither the event nor a session read as before. -/
theorem word_raise (f : Fld) (data : List Byte) (d : Dev) (a : Nat) (hf : a ≠ f.addr) (ha : a < 0x200100 ∨ 0x200180 ≤ a) :
    ((raise f data).run d).word a = d.word a :=
  Prog.within_alike (w := orEvents (only [.reg f.addr])) _ (within_raise (sends_orEvents _) (by simp [orEvents, only]) ..) (.reg a)
    (by simp [orEvents, only, hf]; omega)

/-- The parts that the recorder may change. -/
def Records (w : Part → Bool) : Prop :=
  Sends w ∧ (∀ a, 0x3C0000 ≤ a → a < 0x3C0060 → w (.reg a) = true) ∧ (∀ k, w (.circ k) = true) ∧ w .found = true ∧ w .obs = true

theorem records_orRecord (w : Part → Bool) : Records (orRecord w) := by
  refine ⟨sends_orRecord w, fun a h k => ?_, fun k => by simp [orRecord], by simp [orRecord], by simp [orRecord]⟩
  simp [orRecord, h, k]

theorem within_writeRecord (hr : Records w) (ty sub : Nat) (detail : List Byte) (found : Bool) (d : Dev) : (writeRecord ty sub detail found).within w d := by
  obtain ⟨hs, hd, hc, hf, ho⟩ := hr
  have h1 : w (.reg DST_SEQ_NEXT.addr) = true := hd _ (by decide) (by decide)
  have h2 : w (.reg DST_STAT_FOUND_USED.addr) = true := hd _ (by decide) (by decide)
  have h3 : w (.reg DST_STAT_FOUND_FULL.addr) = true := hd _ (by decide) (by decide)
  have h4 : w (.reg DST_EVT_FOUND_FULL.addr) = true := hd _ (by decide) (by decide)
  simp only [writeRecord, within_look, within_cons, within_circ, hc, within_put, h1, true_and, within_nil, and_true]
  refine ⟨within_when fun _ => ?_, within_when fun _ => by simp [hs.out]⟩
  simp only [within_cons, within_found, hf, within_put, h2, true_and, within_nil, and_true]
  exact within_when fun _ => by simp [h3, within_raise hs h4]

/-- Making a record changes the recorder's parts and those of the notices only. -/
theorem within_record (hr : Records w) (ty sub : Nat) (detail : List Byte) (found : Bool) (d : Dev) : (record ty sub detail found).within w d := by
  have h5 : w (.reg DST_STAT_SUPPRESSED.addr) = true := hr.2.1 _ (by decide) (by decide)
  simp only [record, within_look]
  refine within_ite (fun _ => within_ite (fun _ => ?_) fun _ => ?_) fun _ => within_writeRecord hr ..
  · simp [hr.2.2.2.2, within_writeRecord hr]
  · simp [hr.2.2.2.2, h5]
end

end Sys2Proof.Machine
end

