-- ==== Sys2Proof/Laws/Readings.lean ====
section
/-! SUPPORT. The readings of the block (fields of registers, numbered units) after each effect: a reading of another part is unchanged. -/

namespace Sys2Proof.Machine

/-! ### word -/

@[simp] theorem word_apply_power (p : _) (d : Dev) (j : Nat) : ((Eff.power p).apply d).word j = d.word j := rfl
@[simp] theorem word_apply_mode (m : _) (d : Dev) (j : Nat) : ((Eff.mode m).apply d).word j = d.word j := by
  simp [Dev.word]
@[simp] theorem word_apply_mem (a : _) (bs : _) (d : Dev) (j : Nat) : ((Eff.mem a bs).apply d).word j = d.word j := rfl
@[simp] theorem word_apply_memClear (a : _) (k : _) (d : Dev) (j : Nat) : ((Eff.memClear a k).apply d).word j = d.word j := rfl
@[simp] theorem word_apply_check (b : _) (v : _) (d : Dev) (j : Nat) : ((Eff.check b v).apply d).word j = d.word j := rfl
@[simp] theorem word_apply_checkClear (b : _) (k : _) (d : Dev) (j : Nat) : ((Eff.checkClear b k).apply d).word j = d.word j := rfl
@[simp] theorem word_apply_tile (n : _) (t : _) (d : Dev) (j : Nat) : ((Eff.tile n t).apply d).word j = d.word j := rfl
@[simp] theorem word_apply_savedTile (n : _) (t : _) (d : Dev) (j : Nat) : ((Eff.savedTile n t).apply d).word j = d.word j := rfl
@[simp] theorem word_apply_agent (n : _) (a : _) (d : Dev) (j : Nat) : ((Eff.agent n a).apply d).word j = d.word j := rfl
@[simp] theorem word_apply_mmu (x : _) (d : Dev) (j : Nat) : ((Eff.mmu x).apply d).word j = d.word j := rfl
@[simp] theorem word_apply_chan (n : _) (c : _) (d : Dev) (j : Nat) : ((Eff.chan n c).apply d).word j = d.word j := rfl
@[simp] theorem word_apply_counter (n : _) (v : _) (d : Dev) (j : Nat) : ((Eff.counter n v).apply d).word j = d.word j := rfl
@[simp] theorem word_apply_watch (n : _) (w : _) (d : Dev) (j : Nat) : ((Eff.watch n w).apply d).word j = d.word j := by
  cases w <;> rfl
@[simp] theorem word_apply_peer (n : _) (x : _) (d : Dev) (j : Nat) : ((Eff.peer n x).apply d).word j = d.word j := rfl
@[simp] theorem word_apply_port (n : _) (x : _) (d : Dev) (j : Nat) : ((Eff.port n x).apply d).word j = d.word j := rfl
@[simp] theorem word_apply_dseq (o : _) (x : _) (d : Dev) (j : Nat) : ((Eff.dseq o x).apply d).word j = d.word j := rfl
@[simp] theorem word_apply_xcn (x : _) (d : Dev) (j : Nat) : ((Eff.xcn x).apply d).word j = d.word j := rfl
@[simp] theorem word_apply_sync (x : _) (d : Dev) (j : Nat) : ((Eff.sync x).apply d).word j = d.word j := rfl
@[simp] theorem word_apply_host (n : _) (x : _) (d : Dev) (j : Nat) : ((Eff.host n x).apply d).word j = d.word j := rfl
@[simp] theorem word_apply_circ (k : _) (r : _) (d : Dev) (j : Nat) : ((Eff.circ k r).apply d).word j = d.word j := rfl
@[simp] theorem word_apply_found (r : _) (d : Dev) (j : Nat) : ((Eff.found r).apply d).word j = d.word j := rfl
@[simp] theorem word_apply_obs (x : _) (d : Dev) (j : Nat) : ((Eff.obs x).apply d).word j = d.word j := rfl
@[simp] theorem word_apply_tally (n : _) (v : _) (d : Dev) (j : Nat) : ((Eff.tally n v).apply d).word j = d.word j := rfl
@[simp] theorem word_apply_sec (x : _) (d : Dev) (j : Nat) : ((Eff.sec x).apply d).word j = d.word j := rfl
@[simp] theorem word_apply_job (x : _) (d : Dev) (j : Nat) : ((Eff.job x).apply d).word j = d.word j := rfl
@[simp] theorem word_apply_course (x : _) (d : Dev) (j : Nat) : ((Eff.course x).apply d).word j = d.word j := rfl
@[simp] theorem word_apply_shore (x : _) (d : Dev) (j : Nat) : ((Eff.shore x).apply d).word j = d.word j := rfl
@[simp] theorem word_apply_wit (x : _) (d : Dev) (j : Nat) : ((Eff.wit x).apply d).word j = d.word j := rfl
@[simp] theorem word_apply_slot (n : _) (x : _) (d : Dev) (j : Nat) : ((Eff.slot n x).apply d).word j = d.word j := rfl
@[simp] theorem word_apply_start (x : _) (d : Dev) (j : Nat) : ((Eff.start x).apply d).word j = d.word j := rfl
@[simp] theorem word_apply_hold (x : _) (d : Dev) (j : Nat) : ((Eff.hold x).apply d).word j = d.word j := rfl
@[simp] theorem word_apply_rst (x : _) (d : Dev) (j : Nat) : ((Eff.rst x).apply d).word j = d.word j := rfl
@[simp] theorem word_apply_clk (t : _) (d : Dev) (j : Nat) : ((Eff.clk t).apply d).word j = d.word j := rfl
@[simp] theorem word_apply_podTime (t : _) (d : Dev) (j : Nat) : ((Eff.podTime t).apply d).word j = d.word j := rfl
@[simp] theorem word_apply_status (t : _) (d : Dev) (j : Nat) : ((Eff.status t).apply d).word j = d.word j := rfl
@[simp] theorem word_apply_draw (k : _) (d : Dev) (j : Nat) : ((Eff.draw k).apply d).word j = d.word j := rfl
@[simp] theorem word_apply_emit (x : _) (d : Dev) (j : Nat) : ((Eff.emit x).apply d).word j = d.word j := rfl

/-! ### get -/

@[simp] theorem get_apply_power (p : _) (d : Dev) (j : Fld) : ((Eff.power p).apply d).get j = d.get j := rfl
@[simp] theorem get_apply_mode (m : _) (d : Dev) (j : Fld) : ((Eff.mode m).apply d).get j = d.get j := by
  simp [Dev.get, Dev.word]
@[simp] theorem get_apply_mem (a : _) (bs : _) (d : Dev) (j : Fld) : ((Eff.mem a bs).apply d).get j = d.get j := rfl
@[simp] theorem get_apply_memClear (a : _) (k : _) (d : Dev) (j : Fld) : ((Eff.memClear a k).apply d).get j = d.get j := rfl
@[simp] theorem get_apply_check (b : _) (v : _) (d : Dev) (j : Fld) : ((Eff.check b v).apply d).get j = d.get j := rfl
@[simp] theorem get_apply_checkClear (b : _) (k : _) (d : Dev) (j : Fld) : ((Eff.checkClear b k).apply d).get j = d.get j := rfl
@[simp] theorem get_apply_tile (n : _) (t : _) (d : Dev) (j : Fld) : ((Eff.tile n t).apply d).get j = d.get j := rfl
@[simp] theorem get_apply_savedTile (n : _) (t : _) (d : Dev) (j : Fld) : ((Eff.savedTile n t).apply d).get j = d.get j := rfl
@[simp] theorem get_apply_agent (n : _) (a : _) (d : Dev) (j : Fld) : ((Eff.agent n a).apply d).get j = d.get j := rfl
@[simp] theorem get_apply_mmu (x : _) (d : Dev) (j : Fld) : ((Eff.mmu x).apply d).get j = d.get j := rfl
@[simp] theorem get_apply_chan (n : _) (c : _) (d : Dev) (j : Fld) : ((Eff.chan n c).apply d).get j = d.get j := rfl
@[simp] theorem get_apply_counter (n : _) (v : _) (d : Dev) (j : Fld) : ((Eff.counter n v).apply d).get j = d.get j := rfl
@[simp] theorem get_apply_watch (n : _) (w : _) (d : Dev) (j : Fld) : ((Eff.watch n w).apply d).get j = d.get j := by
  cases w <;> rfl
@[simp] theorem get_apply_peer (n : _) (x : _) (d : Dev) (j : Fld) : ((Eff.peer n x).apply d).get j = d.get j := rfl
@[simp] theorem get_apply_port (n : _) (x : _) (d : Dev) (j : Fld) : ((Eff.port n x).apply d).get j = d.get j := rfl
@[simp] theorem get_apply_dseq (o : _) (x : _) (d : Dev) (j : Fld) : ((Eff.dseq o x).apply d).get j = d.get j := rfl
@[simp] theorem get_apply_xcn (x : _) (d : Dev) (j : Fld) : ((Eff.xcn x).apply d).get j = d.get j := rfl
@[simp] theorem get_apply_sync (x : _) (d : Dev) (j : Fld) : ((Eff.sync x).apply d).get j = d.get j := rfl
@[simp] theorem get_apply_host (n : _) (x : _) (d : Dev) (j : Fld) : ((Eff.host n x).apply d).get j = d.get j := rfl
@[simp] theorem get_apply_circ (k : _) (r : _) (d : Dev) (j : Fld) : ((Eff.circ k r).apply d).get j = d.get j := rfl
@[simp] theorem get_apply_found (r : _) (d : Dev) (j : Fld) : ((Eff.found r).apply d).get j = d.get j := rfl
@[simp] theorem get_apply_obs (x : _) (d : Dev) (j : Fld) : ((Eff.obs x).apply d).get j = d.get j := rfl
@[simp] theorem get_apply_tally (n : _) (v : _) (d : Dev) (j : Fld) : ((Eff.tally n v).apply d).get j = d.get j := rfl
@[simp] theorem get_apply_sec (x : _) (d : Dev) (j : Fld) : ((Eff.sec x).apply d).get j = d.get j := rfl
@[simp] theorem get_apply_job (x : _) (d : Dev) (j : Fld) : ((Eff.job x).apply d).get j = d.get j := rfl
@[simp] theorem get_apply_course (x : _) (d : Dev) (j : Fld) : ((Eff.course x).apply d).get j = d.get j := rfl
@[simp] theorem get_apply_shore (x : _) (d : Dev) (j : Fld) : ((Eff.shore x).apply d).get j = d.get j := rfl
@[simp] theorem get_apply_wit (x : _) (d : Dev) (j : Fld) : ((Eff.wit x).apply d).get j = d.get j := rfl
@[simp] theorem get_apply_slot (n : _) (x : _) (d : Dev) (j : Fld) : ((Eff.slot n x).apply d).get j = d.get j := rfl
@[simp] theorem get_apply_start (x : _) (d : Dev) (j : Fld) : ((Eff.start x).apply d).get j = d.get j := rfl
@[simp] theorem get_apply_hold (x : _) (d : Dev) (j : Fld) : ((Eff.hold x).apply d).get j = d.get j := rfl
@[simp] theorem get_apply_rst (x : _) (d : Dev) (j : Fld) : ((Eff.rst x).apply d).get j = d.get j := rfl
@[simp] theorem get_apply_clk (t : _) (d : Dev) (j : Fld) : ((Eff.clk t).apply d).get j = d.get j := rfl
@[simp] theorem get_apply_podTime (t : _) (d : Dev) (j : Fld) : ((Eff.podTime t).apply d).get j = d.get j := rfl
@[simp] theorem get_apply_status (t : _) (d : Dev) (j : Fld) : ((Eff.status t).apply d).get j = d.get j := rfl
@[simp] theorem get_apply_draw (k : _) (d : Dev) (j : Fld) : ((Eff.draw k).apply d).get j = d.get j := rfl
@[simp] theorem get_apply_emit (x : _) (d : Dev) (j : Fld) : ((Eff.emit x).apply d).get j = d.get j := rfl

/-! ### tile -/

@[simp] theorem tile_apply_power (p : _) (d : Dev) (j : Nat) : ((Eff.power p).apply d).tile j = d.tile j := rfl
@[simp] theorem tile_apply_mode (m : _) (d : Dev) (j : Nat) : ((Eff.mode m).apply d).tile j = d.tile j := by
  simp [Dev.tile]
@[simp] theorem tile_apply_ctl (a : _) (v : _) (d : Dev) (j : Nat) : ((Eff.ctl a v).apply d).tile j = d.tile j := rfl
@[simp] theorem tile_apply_mem (a : _) (bs : _) (d : Dev) (j : Nat) : ((Eff.mem a bs).apply d).tile j = d.tile j := rfl
@[simp] theorem tile_apply_memClear (a : _) (k : _) (d : Dev) (j : Nat) : ((Eff.memClear a k).apply d).tile j = d.tile j := rfl
@[simp] theorem tile_apply_check (b : _) (v : _) (d : Dev) (j : Nat) : ((Eff.check b v).apply d).tile j = d.tile j := rfl
@[simp] theorem tile_apply_checkClear (b : _) (k : _) (d : Dev) (j : Nat) : ((Eff.checkClear b k).apply d).tile j = d.tile j := rfl
@[simp] theorem tile_apply_savedTile (n : _) (t : _) (d : Dev) (j : Nat) : ((Eff.savedTile n t).apply d).tile j = d.tile j := rfl
@[simp] theorem tile_apply_agent (n : _) (a : _) (d : Dev) (j : Nat) : ((Eff.agent n a).apply d).tile j = d.tile j := rfl
@[simp] theorem tile_apply_mmu (x : _) (d : Dev) (j : Nat) : ((Eff.mmu x).apply d).tile j = d.tile j := rfl
@[simp] theorem tile_apply_chan (n : _) (c : _) (d : Dev) (j : Nat) : ((Eff.chan n c).apply d).tile j = d.tile j := rfl
@[simp] theorem tile_apply_counter (n : _) (v : _) (d : Dev) (j : Nat) : ((Eff.counter n v).apply d).tile j = d.tile j := rfl
@[simp] theorem tile_apply_watch (n : _) (w : _) (d : Dev) (j : Nat) : ((Eff.watch n w).apply d).tile j = d.tile j := by
  cases w <;> rfl
@[simp] theorem tile_apply_peer (n : _) (x : _) (d : Dev) (j : Nat) : ((Eff.peer n x).apply d).tile j = d.tile j := rfl
@[simp] theorem tile_apply_port (n : _) (x : _) (d : Dev) (j : Nat) : ((Eff.port n x).apply d).tile j = d.tile j := rfl
@[simp] theorem tile_apply_dseq (o : _) (x : _) (d : Dev) (j : Nat) : ((Eff.dseq o x).apply d).tile j = d.tile j := rfl
@[simp] theorem tile_apply_xcn (x : _) (d : Dev) (j : Nat) : ((Eff.xcn x).apply d).tile j = d.tile j := rfl
@[simp] theorem tile_apply_sync (x : _) (d : Dev) (j : Nat) : ((Eff.sync x).apply d).tile j = d.tile j := rfl
@[simp] theorem tile_apply_host (n : _) (x : _) (d : Dev) (j : Nat) : ((Eff.host n x).apply d).tile j = d.tile j := rfl
@[simp] theorem tile_apply_circ (k : _) (r : _) (d : Dev) (j : Nat) : ((Eff.circ k r).apply d).tile j = d.tile j := rfl
@[simp] theorem tile_apply_found (r : _) (d : Dev) (j : Nat) : ((Eff.found r).apply d).tile j = d.tile j := rfl
@[simp] theorem tile_apply_obs (x : _) (d : Dev) (j : Nat) : ((Eff.obs x).apply d).tile j = d.tile j := rfl
@[simp] theorem tile_apply_tally (n : _) (v : _) (d : Dev) (j : Nat) : ((Eff.tally n v).apply d).tile j = d.tile j := rfl
@[simp] theorem tile_apply_sec (x : _) (d : Dev) (j : Nat) : ((Eff.sec x).apply d).tile j = d.tile j := rfl
@[simp] theorem tile_apply_job (x : _) (d : Dev) (j : Nat) : ((Eff.job x).apply d).tile j = d.tile j := rfl
@[simp] theorem tile_apply_course (x : _) (d : Dev) (j : Nat) : ((Eff.course x).apply d).tile j = d.tile j := rfl
@[simp] theorem tile_apply_shore (x : _) (d : Dev) (j : Nat) : ((Eff.shore x).apply d).tile j = d.tile j := rfl
@[simp] theorem tile_apply_wit (x : _) (d : Dev) (j : Nat) : ((Eff.wit x).apply d).tile j = d.tile j := rfl
@[simp] theorem tile_apply_slot (n : _) (x : _) (d : Dev) (j : Nat) : ((Eff.slot n x).apply d).tile j = d.tile j := rfl
@[simp] theorem tile_apply_start (x : _) (d : Dev) (j : Nat) : ((Eff.start x).apply d).tile j = d.tile j := rfl
@[simp] theorem tile_apply_hold (x : _) (d : Dev) (j : Nat) : ((Eff.hold x).apply d).tile j = d.tile j := rfl
@[simp] theorem tile_apply_rst (x : _) (d : Dev) (j : Nat) : ((Eff.rst x).apply d).tile j = d.tile j := rfl
@[simp] theorem tile_apply_clk (t : _) (d : Dev) (j : Nat) : ((Eff.clk t).apply d).tile j = d.tile j := rfl
@[simp] theorem tile_apply_podTime (t : _) (d : Dev) (j : Nat) : ((Eff.podTime t).apply d).tile j = d.tile j := rfl
@[simp] theorem tile_apply_status (t : _) (d : Dev) (j : Nat) : ((Eff.status t).apply d).tile j = d.tile j := rfl
@[simp] theorem tile_apply_draw (k : _) (d : Dev) (j : Nat) : ((Eff.draw k).apply d).tile j = d.tile j := rfl
@[simp] theorem tile_apply_emit (x : _) (d : Dev) (j : Nat) : ((Eff.emit x).apply d).tile j = d.tile j := rfl
theorem tile_apply (n : _) (t : _) (d : Dev) (j : Nat) : ((Eff.tile n t).apply d).tile j = if j = n then t else d.tile j := Store.get_put ..
@[simp] theorem tile_apply_same (n : _) (t : _) (d : Dev) : ((Eff.tile n t).apply d).tile n = t := Store.get_put_same ..

/-! ### agent -/

@[simp] theorem agent_apply_power (p : _) (d : Dev) (j : Nat) : ((Eff.power p).apply d).agent j = d.agent j := rfl
@[simp] theorem agent_apply_mode (m : _) (d : Dev) (j : Nat) : ((Eff.mode m).apply d).agent j = d.agent j := by
  simp [Dev.agent]
@[simp] theorem agent_apply_ctl (a : _) (v : _) (d : Dev) (j : Nat) : ((Eff.ctl a v).apply d).agent j = d.agent j := rfl
@[simp] theorem agent_apply_mem (a : _) (bs : _) (d : Dev) (j : Nat) : ((Eff.mem a bs).apply d).agent j = d.agent j := rfl
@[simp] theorem agent_apply_memClear (a : _) (k : _) (d : Dev) (j : Nat) : ((Eff.memClear a k).apply d).agent j = d.agent j := rfl
@[simp] theorem agent_apply_check (b : _) (v : _) (d : Dev) (j : Nat) : ((Eff.check b v).apply d).agent j = d.agent j := rfl
@[simp] theorem agent_apply_checkClear (b : _) (k : _) (d : Dev) (j : Nat) : ((Eff.checkClear b k).apply d).agent j = d.agent j := rfl
@[simp] theorem agent_apply_tile (n : _) (t : _) (d : Dev) (j : Nat) : ((Eff.tile n t).apply d).agent j = d.agent j := rfl
@[simp] theorem agent_apply_savedTile (n : _) (t : _) (d : Dev) (j : Nat) : ((Eff.savedTile n t).apply d).agent j = d.agent j := rfl
@[simp] theorem agent_apply_mmu (x : _) (d : Dev) (j : Nat) : ((Eff.mmu x).apply d).agent j = d.agent j := rfl
@[simp] theorem agent_apply_chan (n : _) (c : _) (d : Dev) (j : Nat) : ((Eff.chan n c).apply d).agent j = d.agent j := rfl
@[simp] theorem agent_apply_counter (n : _) (v : _) (d : Dev) (j : Nat) : ((Eff.counter n v).apply d).agent j = d.agent j := rfl
@[simp] theorem agent_apply_watch (n : _) (w : _) (d : Dev) (j : Nat) : ((Eff.watch n w).apply d).agent j = d.agent j := by
  cases w <;> rfl
@[simp] theorem agent_apply_peer (n : _) (x : _) (d : Dev) (j : Nat) : ((Eff.peer n x).apply d).agent j = d.agent j := rfl
@[simp] theorem agent_apply_port (n : _) (x : _) (d : Dev) (j : Nat) : ((Eff.port n x).apply d).agent j = d.agent j := rfl
@[simp] theorem agent_apply_dseq (o : _) (x : _) (d : Dev) (j : Nat) : ((Eff.dseq o x).apply d).agent j = d.agent j := rfl
@[simp] theorem agent_apply_xcn (x : _) (d : Dev) (j : Nat) : ((Eff.xcn x).apply d).agent j = d.agent j := rfl
@[simp] theorem agent_apply_sync (x : _) (d : Dev) (j : Nat) : ((Eff.sync x).apply d).agent j = d.agent j := rfl
@[simp] theorem agent_apply_host (n : _) (x : _) (d : Dev) (j : Nat) : ((Eff.host n x).apply d).agent j = d.agent j := rfl
@[simp] theorem agent_apply_circ (k : _) (r : _) (d : Dev) (j : Nat) : ((Eff.circ k r).apply d).agent j = d.agent j := rfl
@[simp] theorem agent_apply_found (r : _) (d : Dev) (j : Nat) : ((Eff.found r).apply d).agent j = d.agent j := rfl
@[simp] theorem agent_apply_obs (x : _) (d : Dev) (j : Nat) : ((Eff.obs x).apply d).agent j = d.agent j := rfl
@[simp] theorem agent_apply_tally (n : _) (v : _) (d : Dev) (j : Nat) : ((Eff.tally n v).apply d).agent j = d.agent j := rfl
@[simp] theorem agent_apply_sec (x : _) (d : Dev) (j : Nat) : ((Eff.sec x).apply d).agent j = d.agent j := rfl
@[simp] theorem agent_apply_job (x : _) (d : Dev) (j : Nat) : ((Eff.job x).apply d).agent j = d.agent j := rfl
@[simp] theorem agent_apply_course (x : _) (d : Dev) (j : Nat) : ((Eff.course x).apply d).agent j = d.agent j := rfl
@[simp] theorem agent_apply_shore (x : _) (d : Dev) (j : Nat) : ((Eff.shore x).apply d).agent j = d.agent j := rfl
@[simp] theorem agent_apply_wit (x : _) (d : Dev) (j : Nat) : ((Eff.wit x).apply d).agent j = d.agent j := rfl
@[simp] theorem agent_apply_slot (n : _) (x : _) (d : Dev) (j : Nat) : ((Eff.slot n x).apply d).agent j = d.agent j := rfl
@[simp] theorem agent_apply_start (x : _) (d : Dev) (j : Nat) : ((Eff.start x).apply d).agent j = d.agent j := rfl
@[simp] theorem agent_apply_hold (x : _) (d : Dev) (j : Nat) : ((Eff.hold x).apply d).agent j = d.agent j := rfl
@[simp] theorem agent_apply_rst (x : _) (d : Dev) (j : Nat) : ((Eff.rst x).apply d).agent j = d.agent j := rfl
@[simp] theorem agent_apply_clk (t : _) (d : Dev) (j : Nat) : ((Eff.clk t).apply d).agent j = d.agent j := rfl
@[simp] theorem agent_apply_podTime (t : _) (d : Dev) (j : Nat) : ((Eff.podTime t).apply d).agent j = d.agent j := rfl
@[simp] theorem agent_apply_status (t : _) (d : Dev) (j : Nat) : ((Eff.status t).apply d).agent j = d.agent j := rfl
@[simp] theorem agent_apply_draw (k : _) (d : Dev) (j : Nat) : ((Eff.draw k).apply d).agent j = d.agent j := rfl
@[simp] theorem agent_apply_emit (x : _) (d : Dev) (j : Nat) : ((Eff.emit x).apply d).agent j = d.agent j := rfl
theorem agent_apply (n : _) (a : _) (d : Dev) (j : Nat) : ((Eff.agent n a).apply d).agent j = if j = n then a else d.agent j := Store.get_put ..
@[simp] theorem agent_apply_same (n : _) (a : _) (d : Dev) : ((Eff.agent n a).apply d).agent n = a := Store.get_put_same ..

/-! ### chan -/

@[simp] theorem chan_apply_power (p : _) (d : Dev) (j : Nat) : ((Eff.power p).apply d).chan j = d.chan j := rfl
@[simp] theorem chan_apply_mode (m : _) (d : Dev) (j : Nat) : ((Eff.mode m).apply d).chan j = d.chan j := by
  simp [Dev.chan]
@[simp] theorem chan_apply_ctl (a : _) (v : _) (d : Dev) (j : Nat) : ((Eff.ctl a v).apply d).chan j = d.chan j := rfl
@[simp] theorem chan_apply_mem (a : _) (bs : _) (d : Dev) (j : Nat) : ((Eff.mem a bs).apply d).chan j = d.chan j := rfl
@[simp] theorem chan_apply_memClear (a : _) (k : _) (d : Dev) (j : Nat) : ((Eff.memClear a k).apply d).chan j = d.chan j := rfl
@[simp] theorem chan_apply_check (b : _) (v : _) (d : Dev) (j : Nat) : ((Eff.check b v).apply d).chan j = d.chan j := rfl
@[simp] theorem chan_apply_checkClear (b : _) (k : _) (d : Dev) (j : Nat) : ((Eff.checkClear b k).apply d).chan j = d.chan j := rfl
@[simp] theorem chan_apply_tile (n : _) (t : _) (d : Dev) (j : Nat) : ((Eff.tile n t).apply d).chan j = d.chan j := rfl
@[simp] theorem chan_apply_savedTile (n : _) (t : _) (d : Dev) (j : Nat) : ((Eff.savedTile n t).apply d).chan j = d.chan j := rfl
@[simp] theorem chan_apply_agent (n : _) (a : _) (d : Dev) (j : Nat) : ((Eff.agent n a).apply d).chan j = d.chan j := rfl
@[simp] theorem chan_apply_mmu (x : _) (d : Dev) (j : Nat) : ((Eff.mmu x).apply d).chan j = d.chan j := rfl
@[simp] theorem chan_apply_counter (n : _) (v : _) (d : Dev) (j : Nat) : ((Eff.counter n v).apply d).chan j = d.chan j := rfl
@[simp] theorem chan_apply_watch (n : _) (w : _) (d : Dev) (j : Nat) : ((Eff.watch n w).apply d).chan j = d.chan j := by
  cases w <;> rfl
@[simp] theorem chan_apply_peer (n : _) (x : _) (d : Dev) (j : Nat) : ((Eff.peer n x).apply d).chan j = d.chan j := rfl
@[simp] theorem chan_apply_port (n : _) (x : _) (d : Dev) (j : Nat) : ((Eff.port n x).apply d).chan j = d.chan j := rfl
@[simp] theorem chan_apply_dseq (o : _) (x : _) (d : Dev) (j : Nat) : ((Eff.dseq o x).apply d).chan j = d.chan j := rfl
@[simp] theorem chan_apply_xcn (x : _) (d : Dev) (j : Nat) : ((Eff.xcn x).apply d).chan j = d.chan j := rfl
@[simp] theorem chan_apply_sync (x : _) (d : Dev) (j : Nat) : ((Eff.sync x).apply d).chan j = d.chan j := rfl
@[simp] theorem chan_apply_host (n : _) (x : _) (d : Dev) (j : Nat) : ((Eff.host n x).apply d).chan j = d.chan j := rfl
@[simp] theorem chan_apply_circ (k : _) (r : _) (d : Dev) (j : Nat) : ((Eff.circ k r).apply d).chan j = d.chan j := rfl
@[simp] theorem chan_apply_found (r : _) (d : Dev) (j : Nat) : ((Eff.found r).apply d).chan j = d.chan j := rfl
@[simp] theorem chan_apply_obs (x : _) (d : Dev) (j : Nat) : ((Eff.obs x).apply d).chan j = d.chan j := rfl
@[simp] theorem chan_apply_tally (n : _) (v : _) (d : Dev) (j : Nat) : ((Eff.tally n v).apply d).chan j = d.chan j := rfl
@[simp] theorem chan_apply_sec (x : _) (d : Dev) (j : Nat) : ((Eff.sec x).apply d).chan j = d.chan j := rfl
@[simp] theorem chan_apply_job (x : _) (d : Dev) (j : Nat) : ((Eff.job x).apply d).chan j = d.chan j := rfl
@[simp] theorem chan_apply_course (x : _) (d : Dev) (j : Nat) : ((Eff.course x).apply d).chan j = d.chan j := rfl
@[simp] theorem chan_apply_shore (x : _) (d : Dev) (j : Nat) : ((Eff.shore x).apply d).chan j = d.chan j := rfl
@[simp] theorem chan_apply_wit (x : _) (d : Dev) (j : Nat) : ((Eff.wit x).apply d).chan j = d.chan j := rfl
@[simp] theorem chan_apply_slot (n : _) (x : _) (d : Dev) (j : Nat) : ((Eff.slot n x).apply d).chan j = d.chan j := rfl
@[simp] theorem chan_apply_start (x : _) (d : Dev) (j : Nat) : ((Eff.start x).apply d).chan j = d.chan j := rfl
@[simp] theorem chan_apply_hold (x : _) (d : Dev) (j : Nat) : ((Eff.hold x).apply d).chan j = d.chan j := rfl
@[simp] theorem chan_apply_rst (x : _) (d : Dev) (j : Nat) : ((Eff.rst x).apply d).chan j = d.chan j := rfl
@[simp] theorem chan_apply_clk (t : _) (d : Dev) (j : Nat) : ((Eff.clk t).apply d).chan j = d.chan j := rfl
@[simp] theorem chan_apply_podTime (t : _) (d : Dev) (j : Nat) : ((Eff.podTime t).apply d).chan j = d.chan j := rfl
@[simp] theorem chan_apply_status (t : _) (d : Dev) (j : Nat) : ((Eff.status t).apply d).chan j = d.chan j := rfl
@[simp] theorem chan_apply_draw (k : _) (d : Dev) (j : Nat) : ((Eff.draw k).apply d).chan j = d.chan j := rfl
@[simp] theorem chan_apply_emit (x : _) (d : Dev) (j : Nat) : ((Eff.emit x).apply d).chan j = d.chan j := rfl
theorem chan_apply (n : _) (c : _) (d : Dev) (j : Nat) : ((Eff.chan n c).apply d).chan j = if j = n then c else d.chan j := Store.get_put ..
@[simp] theorem chan_apply_same (n : _) (c : _) (d : Dev) : ((Eff.chan n c).apply d).chan n = c := Store.get_put_same ..

/-! ### counter -/

@[simp] theorem counter_apply_power (p : _) (d : Dev) (j : Nat) : ((Eff.power p).apply d).counter j = d.counter j := rfl
@[simp] theorem counter_apply_mode (m : _) (d : Dev) (j : Nat) : ((Eff.mode m).apply d).counter j = d.counter j := by
  simp [Dev.counter]
@[simp] theorem counter_apply_ctl (a : _) (v : _) (d : Dev) (j : Nat) : ((Eff.ctl a v).apply d).counter j = d.counter j := rfl
@[simp] theorem counter_apply_mem (a : _) (bs : _) (d : Dev) (j : Nat) : ((Eff.mem a bs).apply d).counter j = d.counter j := rfl
@[simp] theorem counter_apply_memClear (a : _) (k : _) (d : Dev) (j : Nat) : ((Eff.memClear a k).apply d).counter j = d.counter j := rfl
@[simp] theorem counter_apply_check (b : _) (v : _) (d : Dev) (j : Nat) : ((Eff.check b v).apply d).counter j = d.counter j := rfl
@[simp] theorem counter_apply_checkClear (b : _) (k : _) (d : Dev) (j : Nat) : ((Eff.checkClear b k).apply d).counter j = d.counter j := rfl
@[simp] theorem counter_apply_tile (n : _) (t : _) (d : Dev) (j : Nat) : ((Eff.tile n t).apply d).counter j = d.counter j := rfl
@[simp] theorem counter_apply_savedTile (n : _) (t : _) (d : Dev) (j : Nat) : ((Eff.savedTile n t).apply d).counter j = d.counter j := rfl
@[simp] theorem counter_apply_agent (n : _) (a : _) (d : Dev) (j : Nat) : ((Eff.agent n a).apply d).counter j = d.counter j := rfl
@[simp] theorem counter_apply_mmu (x : _) (d : Dev) (j : Nat) : ((Eff.mmu x).apply d).counter j = d.counter j := rfl
@[simp] theorem counter_apply_chan (n : _) (c : _) (d : Dev) (j : Nat) : ((Eff.chan n c).apply d).counter j = d.counter j := rfl
@[simp] theorem counter_apply_watch (n : _) (w : _) (d : Dev) (j : Nat) : ((Eff.watch n w).apply d).counter j = d.counter j := by
  cases w <;> rfl
@[simp] theorem counter_apply_peer (n : _) (x : _) (d : Dev) (j : Nat) : ((Eff.peer n x).apply d).counter j = d.counter j := rfl
@[simp] theorem counter_apply_port (n : _) (x : _) (d : Dev) (j : Nat) : ((Eff.port n x).apply d).counter j = d.counter j := rfl
@[simp] theorem counter_apply_dseq (o : _) (x : _) (d : Dev) (j : Nat) : ((Eff.dseq o x).apply d).counter j = d.counter j := rfl
@[simp] theorem counter_apply_xcn (x : _) (d : Dev) (j : Nat) : ((Eff.xcn x).apply d).counter j = d.counter j := rfl
@[simp] theorem counter_apply_sync (x : _) (d : Dev) (j : Nat) : ((Eff.sync x).apply d).counter j = d.counter j := rfl
@[simp] theorem counter_apply_host (n : _) (x : _) (d : Dev) (j : Nat) : ((Eff.host n x).apply d).counter j = d.counter j := rfl
@[simp] theorem counter_apply_circ (k : _) (r : _) (d : Dev) (j : Nat) : ((Eff.circ k r).apply d).counter j = d.counter j := rfl
@[simp] theorem counter_apply_found (r : _) (d : Dev) (j : Nat) : ((Eff.found r).apply d).counter j = d.counter j := rfl
@[simp] theorem counter_apply_obs (x : _) (d : Dev) (j : Nat) : ((Eff.obs x).apply d).counter j = d.counter j := rfl
@[simp] theorem counter_apply_tally (n : _) (v : _) (d : Dev) (j : Nat) : ((Eff.tally n v).apply d).counter j = d.counter j := rfl
@[simp] theorem counter_apply_sec (x : _) (d : Dev) (j : Nat) : ((Eff.sec x).apply d).counter j = d.counter j := rfl
@[simp] theorem counter_apply_job (x : _) (d : Dev) (j : Nat) : ((Eff.job x).apply d).counter j = d.counter j := rfl
@[simp] theorem counter_apply_course (x : _) (d : Dev) (j : Nat) : ((Eff.course x).apply d).counter j = d.counter j := rfl
@[simp] theorem counter_apply_shore (x : _) (d : Dev) (j : Nat) : ((Eff.shore x).apply d).counter j = d.counter j := rfl
@[simp] theorem counter_apply_wit (x : _) (d : Dev) (j : Nat) : ((Eff.wit x).apply d).counter j = d.counter j := rfl
@[simp] theorem counter_apply_slot (n : _) (x : _) (d : Dev) (j : Nat) : ((Eff.slot n x).apply d).counter j = d.counter j := rfl
@[simp] theorem counter_apply_start (x : _) (d : Dev) (j : Nat) : ((Eff.start x).apply d).counter j = d.counter j := rfl
@[simp] theorem counter_apply_hold (x : _) (d : Dev) (j : Nat) : ((Eff.hold x).apply d).counter j = d.counter j := rfl
@[simp] theorem counter_apply_rst (x : _) (d : Dev) (j : Nat) : ((Eff.rst x).apply d).counter j = d.counter j := rfl
@[simp] theorem counter_apply_clk (t : _) (d : Dev) (j : Nat) : ((Eff.clk t).apply d).counter j = d.counter j := rfl
@[simp] theorem counter_apply_podTime (t : _) (d : Dev) (j : Nat) : ((Eff.podTime t).apply d).counter j = d.counter j := rfl
@[simp] theorem counter_apply_status (t : _) (d : Dev) (j : Nat) : ((Eff.status t).apply d).counter j = d.counter j := rfl
@[simp] theorem counter_apply_draw (k : _) (d : Dev) (j : Nat) : ((Eff.draw k).apply d).counter j = d.counter j := rfl
@[simp] theorem counter_apply_emit (x : _) (d : Dev) (j : Nat) : ((Eff.emit x).apply d).counter j = d.counter j := rfl
theorem counter_apply (n : _) (v : _) (d : Dev) (j : Nat) : ((Eff.counter n v).apply d).counter j = if j = n then v else d.counter j := Store.get_put ..
@[simp] theorem counter_apply_same (n : _) (v : _) (d : Dev) : ((Eff.counter n v).apply d).counter n = v := Store.get_put_same ..

/-! ### peer -/

@[simp] theorem peer_apply_power (p : _) (d : Dev) (j : Nat) : ((Eff.power p).apply d).peer j = d.peer j := rfl
@[simp] theorem peer_apply_mode (m : _) (d : Dev) (j : Nat) : ((Eff.mode m).apply d).peer j = d.peer j := by
  simp [Dev.peer]
@[simp] theorem peer_apply_ctl (a : _) (v : _) (d : Dev) (j : Nat) : ((Eff.ctl a v).apply d).peer j = d.peer j := rfl
@[simp] theorem peer_apply_mem (a : _) (bs : _) (d : Dev) (j : Nat) : ((Eff.mem a bs).apply d).peer j = d.peer j := rfl
@[simp] theorem peer_apply_memClear (a : _) (k : _) (d : Dev) (j : Nat) : ((Eff.memClear a k).apply d).peer j = d.peer j := rfl
@[simp] theorem peer_apply_check (b : _) (v : _) (d : Dev) (j : Nat) : ((Eff.check b v).apply d).peer j = d.peer j := rfl
@[simp] theorem peer_apply_checkClear (b : _) (k : _) (d : Dev) (j : Nat) : ((Eff.checkClear b k).apply d).peer j = d.peer j := rfl
@[simp] theorem peer_apply_tile (n : _) (t : _) (d : Dev) (j : Nat) : ((Eff.tile n t).apply d).peer j = d.peer j := rfl
@[simp] theorem peer_apply_savedTile (n : _) (t : _) (d : Dev) (j : Nat) : ((Eff.savedTile n t).apply d).peer j = d.peer j := rfl
@[simp] theorem peer_apply_agent (n : _) (a : _) (d : Dev) (j : Nat) : ((Eff.agent n a).apply d).peer j = d.peer j := rfl
@[simp] theorem peer_apply_mmu (x : _) (d : Dev) (j : Nat) : ((Eff.mmu x).apply d).peer j = d.peer j := rfl
@[simp] theorem peer_apply_chan (n : _) (c : _) (d : Dev) (j : Nat) : ((Eff.chan n c).apply d).peer j = d.peer j := rfl
@[simp] theorem peer_apply_counter (n : _) (v : _) (d : Dev) (j : Nat) : ((Eff.counter n v).apply d).peer j = d.peer j := rfl
@[simp] theorem peer_apply_watch (n : _) (w : _) (d : Dev) (j : Nat) : ((Eff.watch n w).apply d).peer j = d.peer j := by
  cases w <;> rfl
@[simp] theorem peer_apply_port (n : _) (x : _) (d : Dev) (j : Nat) : ((Eff.port n x).apply d).peer j = d.peer j := rfl
@[simp] theorem peer_apply_dseq (o : _) (x : _) (d : Dev) (j : Nat) : ((Eff.dseq o x).apply d).peer j = d.peer j := rfl
@[simp] theorem peer_apply_xcn (x : _) (d : Dev) (j : Nat) : ((Eff.xcn x).apply d).peer j = d.peer j := rfl
@[simp] theorem peer_apply_sync (x : _) (d : Dev) (j : Nat) : ((Eff.sync x).apply d).peer j = d.peer j := rfl
@[simp] theorem peer_apply_host (n : _) (x : _) (d : Dev) (j : Nat) : ((Eff.host n x).apply d).peer j = d.peer j := rfl
@[simp] theorem peer_apply_circ (k : _) (r : _) (d : Dev) (j : Nat) : ((Eff.circ k r).apply d).peer j = d.peer j := rfl
@[simp] theorem peer_apply_found (r : _) (d : Dev) (j : Nat) : ((Eff.found r).apply d).peer j = d.peer j := rfl
@[simp] theorem peer_apply_obs (x : _) (d : Dev) (j : Nat) : ((Eff.obs x).apply d).peer j = d.peer j := rfl
@[simp] theorem peer_apply_tally (n : _) (v : _) (d : Dev) (j : Nat) : ((Eff.tally n v).apply d).peer j = d.peer j := rfl
@[simp] theorem peer_apply_sec (x : _) (d : Dev) (j : Nat) : ((Eff.sec x).apply d).peer j = d.peer j := rfl
@[simp] theorem peer_apply_job (x : _) (d : Dev) (j : Nat) : ((Eff.job x).apply d).peer j = d.peer j := rfl
@[simp] theorem peer_apply_course (x : _) (d : Dev) (j : Nat) : ((Eff.course x).apply d).peer j = d.peer j := rfl
@[simp] theorem peer_apply_shore (x : _) (d : Dev) (j : Nat) : ((Eff.shore x).apply d).peer j = d.peer j := rfl
@[simp] theorem peer_apply_wit (x : _) (d : Dev) (j : Nat) : ((Eff.wit x).apply d).peer j = d.peer j := rfl
@[simp] theorem peer_apply_slot (n : _) (x : _) (d : Dev) (j : Nat) : ((Eff.slot n x).apply d).peer j = d.peer j := rfl
@[simp] theorem peer_apply_start (x : _) (d : Dev) (j : Nat) : ((Eff.start x).apply d).peer j = d.peer j := rfl
@[simp] theorem peer_apply_hold (x : _) (d : Dev) (j : Nat) : ((Eff.hold x).apply d).peer j = d.peer j := rfl
@[simp] theorem peer_apply_rst (x : _) (d : Dev) (j : Nat) : ((Eff.rst x).apply d).peer j = d.peer j := rfl
@[simp] theorem peer_apply_clk (t : _) (d : Dev) (j : Nat) : ((Eff.clk t).apply d).peer j = d.peer j := rfl
@[simp] theorem peer_apply_podTime (t : _) (d : Dev) (j : Nat) : ((Eff.podTime t).apply d).peer j = d.peer j := rfl
@[simp] theorem peer_apply_status (t : _) (d : Dev) (j : Nat) : ((Eff.status t).apply d).peer j = d.peer j := rfl
@[simp] theorem peer_apply_draw (k : _) (d : Dev) (j : Nat) : ((Eff.draw k).apply d).peer j = d.peer j := rfl
@[simp] theorem peer_apply_emit (x : _) (d : Dev) (j : Nat) : ((Eff.emit x).apply d).peer j = d.peer j := rfl
theorem peer_apply (n : _) (x : _) (d : Dev) (j : Nat) : ((Eff.peer n x).apply d).peer j = if j = n then x else d.peer j := Store.get_put ..
@[simp] theorem peer_apply_same (n : _) (x : _) (d : Dev) : ((Eff.peer n x).apply d).peer n = x := Store.get_put_same ..

/-! ### port -/

@[simp] theorem port_apply_power (p : _) (d : Dev) (j : Nat) : ((Eff.power p).apply d).port j = d.port j := rfl
@[simp] theorem port_apply_mode (m : _) (d : Dev) (j : Nat) : ((Eff.mode m).apply d).port j = d.port j := by
  simp [Dev.port]
@[simp] theorem port_apply_ctl (a : _) (v : _) (d : Dev) (j : Nat) : ((Eff.ctl a v).apply d).port j = d.port j := rfl
@[simp] theorem port_apply_mem (a : _) (bs : _) (d : Dev) (j : Nat) : ((Eff.mem a bs).apply d).port j = d.port j := rfl
@[simp] theorem port_apply_memClear (a : _) (k : _) (d : Dev) (j : Nat) : ((Eff.memClear a k).apply d).port j = d.port j := rfl
@[simp] theorem port_apply_check (b : _) (v : _) (d : Dev) (j : Nat) : ((Eff.check b v).apply d).port j = d.port j := rfl
@[simp] theorem port_apply_checkClear (b : _) (k : _) (d : Dev) (j : Nat) : ((Eff.checkClear b k).apply d).port j = d.port j := rfl
@[simp] theorem port_apply_tile (n : _) (t : _) (d : Dev) (j : Nat) : ((Eff.tile n t).apply d).port j = d.port j := rfl
@[simp] theorem port_apply_savedTile (n : _) (t : _) (d : Dev) (j : Nat) : ((Eff.savedTile n t).apply d).port j = d.port j := rfl
@[simp] theorem port_apply_agent (n : _) (a : _) (d : Dev) (j : Nat) : ((Eff.agent n a).apply d).port j = d.port j := rfl
@[simp] theorem port_apply_mmu (x : _) (d : Dev) (j : Nat) : ((Eff.mmu x).apply d).port j = d.port j := rfl
@[simp] theorem port_apply_chan (n : _) (c : _) (d : Dev) (j : Nat) : ((Eff.chan n c).apply d).port j = d.port j := rfl
@[simp] theorem port_apply_counter (n : _) (v : _) (d : Dev) (j : Nat) : ((Eff.counter n v).apply d).port j = d.port j := rfl
@[simp] theorem port_apply_watch (n : _) (w : _) (d : Dev) (j : Nat) : ((Eff.watch n w).apply d).port j = d.port j := by
  cases w <;> rfl
@[simp] theorem port_apply_peer (n : _) (x : _) (d : Dev) (j : Nat) : ((Eff.peer n x).apply d).port j = d.port j := rfl
@[simp] theorem port_apply_dseq (o : _) (x : _) (d : Dev) (j : Nat) : ((Eff.dseq o x).apply d).port j = d.port j := rfl
@[simp] theorem port_apply_xcn (x : _) (d : Dev) (j : Nat) : ((Eff.xcn x).apply d).port j = d.port j := rfl
@[simp] theorem port_apply_sync (x : _) (d : Dev) (j : Nat) : ((Eff.sync x).apply d).port j = d.port j := rfl
@[simp] theorem port_apply_host (n : _) (x : _) (d : Dev) (j : Nat) : ((Eff.host n x).apply d).port j = d.port j := rfl
@[simp] theorem port_apply_circ (k : _) (r : _) (d : Dev) (j : Nat) : ((Eff.circ k r).apply d).port j = d.port j := rfl
@[simp] theorem port_apply_found (r : _) (d : Dev) (j : Nat) : ((Eff.found r).apply d).port j = d.port j := rfl
@[simp] theorem port_apply_obs (x : _) (d : Dev) (j : Nat) : ((Eff.obs x).apply d).port j = d.port j := rfl
@[simp] theorem port_apply_tally (n : _) (v : _) (d : Dev) (j : Nat) : ((Eff.tally n v).apply d).port j = d.port j := rfl
@[simp] theorem port_apply_sec (x : _) (d : Dev) (j : Nat) : ((Eff.sec x).apply d).port j = d.port j := rfl
@[simp] theorem port_apply_job (x : _) (d : Dev) (j : Nat) : ((Eff.job x).apply d).port j = d.port j := rfl
@[simp] theorem port_apply_course (x : _) (d : Dev) (j : Nat) : ((Eff.course x).apply d).port j = d.port j := rfl
@[simp] theorem port_apply_shore (x : _) (d : Dev) (j : Nat) : ((Eff.shore x).apply d).port j = d.port j := rfl
@[simp] theorem port_apply_wit (x : _) (d : Dev) (j : Nat) : ((Eff.wit x).apply d).port j = d.port j := rfl
@[simp] theorem port_apply_slot (n : _) (x : _) (d : Dev) (j : Nat) : ((Eff.slot n x).apply d).port j = d.port j := rfl
@[simp] theorem port_apply_start (x : _) (d : Dev) (j : Nat) : ((Eff.start x).apply d).port j = d.port j := rfl
@[simp] theorem port_apply_hold (x : _) (d : Dev) (j : Nat) : ((Eff.hold x).apply d).port j = d.port j := rfl
@[simp] theorem port_apply_rst (x : _) (d : Dev) (j : Nat) : ((Eff.rst x).apply d).port j = d.port j := rfl
@[simp] theorem port_apply_clk (t : _) (d : Dev) (j : Nat) : ((Eff.clk t).apply d).port j = d.port j := rfl
@[simp] theorem port_apply_podTime (t : _) (d : Dev) (j : Nat) : ((Eff.podTime t).apply d).port j = d.port j := rfl
@[simp] theorem port_apply_status (t : _) (d : Dev) (j : Nat) : ((Eff.status t).apply d).port j = d.port j := rfl
@[simp] theorem port_apply_draw (k : _) (d : Dev) (j : Nat) : ((Eff.draw k).apply d).port j = d.port j := rfl
@[simp] theorem port_apply_emit (x : _) (d : Dev) (j : Nat) : ((Eff.emit x).apply d).port j = d.port j := rfl
theorem port_apply (n : _) (x : _) (d : Dev) (j : Nat) : ((Eff.port n x).apply d).port j = if j = n then x else d.port j := Store.get_put ..
@[simp] theorem port_apply_same (n : _) (x : _) (d : Dev) : ((Eff.port n x).apply d).port n = x := Store.get_put_same ..

/-! ### stream -/

@[simp] theorem stream_apply_power (p : _) (d : Dev) (j : Nat) : ((Eff.power p).apply d).stream j = d.stream j := rfl
@[simp] theorem stream_apply_mode (m : _) (d : Dev) (j : Nat) : ((Eff.mode m).apply d).stream j = d.stream j := by
  simp [Dev.stream]
@[simp] theorem stream_apply_ctl (a : _) (v : _) (d : Dev) (j : Nat) : ((Eff.ctl a v).apply d).stream j = d.stream j := rfl
@[simp] theorem stream_apply_mem (a : _) (bs : _) (d : Dev) (j : Nat) : ((Eff.mem a bs).apply d).stream j = d.stream j := rfl
@[simp] theorem stream_apply_memClear (a : _) (k : _) (d : Dev) (j : Nat) : ((Eff.memClear a k).apply d).stream j = d.stream j := rfl
@[simp] theorem stream_apply_check (b : _) (v : _) (d : Dev) (j : Nat) : ((Eff.check b v).apply d).stream j = d.stream j := rfl
@[simp] theorem stream_apply_checkClear (b : _) (k : _) (d : Dev) (j : Nat) : ((Eff.checkClear b k).apply d).stream j = d.stream j := rfl
@[simp] theorem stream_apply_tile (n : _) (t : _) (d : Dev) (j : Nat) : ((Eff.tile n t).apply d).stream j = d.stream j := rfl
@[simp] theorem stream_apply_savedTile (n : _) (t : _) (d : Dev) (j : Nat) : ((Eff.savedTile n t).apply d).stream j = d.stream j := rfl
@[simp] theorem stream_apply_agent (n : _) (a : _) (d : Dev) (j : Nat) : ((Eff.agent n a).apply d).stream j = d.stream j := rfl
@[simp] theorem stream_apply_mmu (x : _) (d : Dev) (j : Nat) : ((Eff.mmu x).apply d).stream j = d.stream j := rfl
@[simp] theorem stream_apply_chan (n : _) (c : _) (d : Dev) (j : Nat) : ((Eff.chan n c).apply d).stream j = d.stream j := rfl
@[simp] theorem stream_apply_counter (n : _) (v : _) (d : Dev) (j : Nat) : ((Eff.counter n v).apply d).stream j = d.stream j := rfl
@[simp] theorem stream_apply_watch (n : _) (w : _) (d : Dev) (j : Nat) : ((Eff.watch n w).apply d).stream j = d.stream j := by
  cases w <;> rfl
@[simp] theorem stream_apply_peer (n : _) (x : _) (d : Dev) (j : Nat) : ((Eff.peer n x).apply d).stream j = d.stream j := rfl
@[simp] theorem stream_apply_port (n : _) (x : _) (d : Dev) (j : Nat) : ((Eff.port n x).apply d).stream j = d.stream j := rfl
@[simp] theorem stream_apply_xcn (x : _) (d : Dev) (j : Nat) : ((Eff.xcn x).apply d).stream j = d.stream j := rfl
@[simp] theorem stream_apply_sync (x : _) (d : Dev) (j : Nat) : ((Eff.sync x).apply d).stream j = d.stream j := rfl
@[simp] theorem stream_apply_host (n : _) (x : _) (d : Dev) (j : Nat) : ((Eff.host n x).apply d).stream j = d.stream j := rfl
@[simp] theorem stream_apply_circ (k : _) (r : _) (d : Dev) (j : Nat) : ((Eff.circ k r).apply d).stream j = d.stream j := rfl
@[simp] theorem stream_apply_found (r : _) (d : Dev) (j : Nat) : ((Eff.found r).apply d).stream j = d.stream j := rfl
@[simp] theorem stream_apply_obs (x : _) (d : Dev) (j : Nat) : ((Eff.obs x).apply d).stream j = d.stream j := rfl
@[simp] theorem stream_apply_tally (n : _) (v : _) (d : Dev) (j : Nat) : ((Eff.tally n v).apply d).stream j = d.stream j := rfl
@[simp] theorem stream_apply_sec (x : _) (d : Dev) (j : Nat) : ((Eff.sec x).apply d).stream j = d.stream j := rfl
@[simp] theorem stream_apply_job (x : _) (d : Dev) (j : Nat) : ((Eff.job x).apply d).stream j = d.stream j := rfl
@[simp] theorem stream_apply_course (x : _) (d : Dev) (j : Nat) : ((Eff.course x).apply d).stream j = d.stream j := rfl
@[simp] theorem stream_apply_shore (x : _) (d : Dev) (j : Nat) : ((Eff.shore x).apply d).stream j = d.stream j := rfl
@[simp] theorem stream_apply_wit (x : _) (d : Dev) (j : Nat) : ((Eff.wit x).apply d).stream j = d.stream j := rfl
@[simp] theorem stream_apply_slot (n : _) (x : _) (d : Dev) (j : Nat) : ((Eff.slot n x).apply d).stream j = d.stream j := rfl
@[simp] theorem stream_apply_start (x : _) (d : Dev) (j : Nat) : ((Eff.start x).apply d).stream j = d.stream j := rfl
@[simp] theorem stream_apply_hold (x : _) (d : Dev) (j : Nat) : ((Eff.hold x).apply d).stream j = d.stream j := rfl
@[simp] theorem stream_apply_rst (x : _) (d : Dev) (j : Nat) : ((Eff.rst x).apply d).stream j = d.stream j := rfl
@[simp] theorem stream_apply_clk (t : _) (d : Dev) (j : Nat) : ((Eff.clk t).apply d).stream j = d.stream j := rfl
@[simp] theorem stream_apply_podTime (t : _) (d : Dev) (j : Nat) : ((Eff.podTime t).apply d).stream j = d.stream j := rfl
@[simp] theorem stream_apply_status (t : _) (d : Dev) (j : Nat) : ((Eff.status t).apply d).stream j = d.stream j := rfl
@[simp] theorem stream_apply_draw (k : _) (d : Dev) (j : Nat) : ((Eff.draw k).apply d).stream j = d.stream j := rfl
@[simp] theorem stream_apply_emit (x : _) (d : Dev) (j : Nat) : ((Eff.emit x).apply d).stream j = d.stream j := rfl
theorem stream_apply (o : _) (x : _) (d : Dev) (j : Nat) : ((Eff.dseq o x).apply d).stream j = if j = o then x else d.stream j := Store.get_put ..
@[simp] theorem stream_apply_same (o : _) (x : _) (d : Dev) : ((Eff.dseq o x).apply d).stream o = x := Store.get_put_same ..

/-! ### host -/

@[simp] theorem host_apply_power (p : _) (d : Dev) (j : Nat) : ((Eff.power p).apply d).host j = d.host j := rfl
@[simp] theorem host_apply_mode (m : _) (d : Dev) (j : Nat) : ((Eff.mode m).apply d).host j = d.host j := by
  simp [Dev.host]
@[simp] theorem host_apply_ctl (a : _) (v : _) (d : Dev) (j : Nat) : ((Eff.ctl a v).apply d).host j = d.host j := rfl
@[simp] theorem host_apply_mem (a : _) (bs : _) (d : Dev) (j : Nat) : ((Eff.mem a bs).apply d).host j = d.host j := rfl
@[simp] theorem host_apply_memClear (a : _) (k : _) (d : Dev) (j : Nat) : ((Eff.memClear a k).apply d).host j = d.host j := rfl
@[simp] theorem host_apply_check (b : _) (v : _) (d : Dev) (j : Nat) : ((Eff.check b v).apply d).host j = d.host j := rfl
@[simp] theorem host_apply_checkClear (b : _) (k : _) (d : Dev) (j : Nat) : ((Eff.checkClear b k).apply d).host j = d.host j := rfl
@[simp] theorem host_apply_tile (n : _) (t : _) (d : Dev) (j : Nat) : ((Eff.tile n t).apply d).host j = d.host j := rfl
@[simp] theorem host_apply_savedTile (n : _) (t : _) (d : Dev) (j : Nat) : ((Eff.savedTile n t).apply d).host j = d.host j := rfl
@[simp] theorem host_apply_agent (n : _) (a : _) (d : Dev) (j : Nat) : ((Eff.agent n a).apply d).host j = d.host j := rfl
@[simp] theorem host_apply_mmu (x : _) (d : Dev) (j : Nat) : ((Eff.mmu x).apply d).host j = d.host j := rfl
@[simp] theorem host_apply_chan (n : _) (c : _) (d : Dev) (j : Nat) : ((Eff.chan n c).apply d).host j = d.host j := rfl
@[simp] theorem host_apply_counter (n : _) (v : _) (d : Dev) (j : Nat) : ((Eff.counter n v).apply d).host j = d.host j := rfl
@[simp] theorem host_apply_watch (n : _) (w : _) (d : Dev) (j : Nat) : ((Eff.watch n w).apply d).host j = d.host j := by
  cases w <;> rfl
@[simp] theorem host_apply_peer (n : _) (x : _) (d : Dev) (j : Nat) : ((Eff.peer n x).apply d).host j = d.host j := rfl
@[simp] theorem host_apply_port (n : _) (x : _) (d : Dev) (j : Nat) : ((Eff.port n x).apply d).host j = d.host j := rfl
@[simp] theorem host_apply_dseq (o : _) (x : _) (d : Dev) (j : Nat) : ((Eff.dseq o x).apply d).host j = d.host j := rfl
@[simp] theorem host_apply_xcn (x : _) (d : Dev) (j : Nat) : ((Eff.xcn x).apply d).host j = d.host j := rfl
@[simp] theorem host_apply_sync (x : _) (d : Dev) (j : Nat) : ((Eff.sync x).apply d).host j = d.host j := rfl
@[simp] theorem host_apply_circ (k : _) (r : _) (d : Dev) (j : Nat) : ((Eff.circ k r).apply d).host j = d.host j := rfl
@[simp] theorem host_apply_found (r : _) (d : Dev) (j : Nat) : ((Eff.found r).apply d).host j = d.host j := rfl
@[simp] theorem host_apply_obs (x : _) (d : Dev) (j : Nat) : ((Eff.obs x).apply d).host j = d.host j := rfl
@[simp] theorem host_apply_tally (n : _) (v : _) (d : Dev) (j : Nat) : ((Eff.tally n v).apply d).host j = d.host j := rfl
@[simp] theorem host_apply_sec (x : _) (d : Dev) (j : Nat) : ((Eff.sec x).apply d).host j = d.host j := rfl
@[simp] theorem host_apply_job (x : _) (d : Dev) (j : Nat) : ((Eff.job x).apply d).host j = d.host j := rfl
@[simp] theorem host_apply_course (x : _) (d : Dev) (j : Nat) : ((Eff.course x).apply d).host j = d.host j := rfl
@[simp] theorem host_apply_shore (x : _) (d : Dev) (j : Nat) : ((Eff.shore x).apply d).host j = d.host j := rfl
@[simp] theorem host_apply_wit (x : _) (d : Dev) (j : Nat) : ((Eff.wit x).apply d).host j = d.host j := rfl
@[simp] theorem host_apply_slot (n : _) (x : _) (d : Dev) (j : Nat) : ((Eff.slot n x).apply d).host j = d.host j := rfl
@[simp] theorem host_apply_start (x : _) (d : Dev) (j : Nat) : ((Eff.start x).apply d).host j = d.host j := rfl
@[simp] theorem host_apply_hold (x : _) (d : Dev) (j : Nat) : ((Eff.hold x).apply d).host j = d.host j := rfl
@[simp] theorem host_apply_rst (x : _) (d : Dev) (j : Nat) : ((Eff.rst x).apply d).host j = d.host j := rfl
@[simp] theorem host_apply_clk (t : _) (d : Dev) (j : Nat) : ((Eff.clk t).apply d).host j = d.host j := rfl
@[simp] theorem host_apply_podTime (t : _) (d : Dev) (j : Nat) : ((Eff.podTime t).apply d).host j = d.host j := rfl
@[simp] theorem host_apply_status (t : _) (d : Dev) (j : Nat) : ((Eff.status t).apply d).host j = d.host j := rfl
@[simp] theorem host_apply_draw (k : _) (d : Dev) (j : Nat) : ((Eff.draw k).apply d).host j = d.host j := rfl
@[simp] theorem host_apply_emit (x : _) (d : Dev) (j : Nat) : ((Eff.emit x).apply d).host j = d.host j := rfl
theorem host_apply (n : _) (x : _) (d : Dev) (j : Nat) : ((Eff.host n x).apply d).host j = if j = n then x else d.host j := Store.get_put ..
@[simp] theorem host_apply_same (n : _) (x : _) (d : Dev) : ((Eff.host n x).apply d).host n = x := Store.get_put_same ..

/-! ### slot -/

@[simp] theorem slot_apply_power (p : _) (d : Dev) (j : Nat) : ((Eff.power p).apply d).slot j = d.slot j := rfl
@[simp] theorem slot_apply_mode (m : _) (d : Dev) (j : Nat) : ((Eff.mode m).apply d).slot j = d.slot j := by
  simp [Dev.slot]
@[simp] theorem slot_apply_ctl (a : _) (v : _) (d : Dev) (j : Nat) : ((Eff.ctl a v).apply d).slot j = d.slot j := rfl
@[simp] theorem slot_apply_mem (a : _) (bs : _) (d : Dev) (j : Nat) : ((Eff.mem a bs).apply d).slot j = d.slot j := rfl
@[simp] theorem slot_apply_memClear (a : _) (k : _) (d : Dev) (j : Nat) : ((Eff.memClear a k).apply d).slot j = d.slot j := rfl
@[simp] theorem slot_apply_check (b : _) (v : _) (d : Dev) (j : Nat) : ((Eff.check b v).apply d).slot j = d.slot j := rfl
@[simp] theorem slot_apply_checkClear (b : _) (k : _) (d : Dev) (j : Nat) : ((Eff.checkClear b k).apply d).slot j = d.slot j := rfl
@[simp] theorem slot_apply_tile (n : _) (t : _) (d : Dev) (j : Nat) : ((Eff.tile n t).apply d).slot j = d.slot j := rfl
@[simp] theorem slot_apply_savedTile (n : _) (t : _) (d : Dev) (j : Nat) : ((Eff.savedTile n t).apply d).slot j = d.slot j := rfl
@[simp] theorem slot_apply_agent (n : _) (a : _) (d : Dev) (j : Nat) : ((Eff.agent n a).apply d).slot j = d.slot j := rfl
@[simp] theorem slot_apply_mmu (x : _) (d : Dev) (j : Nat) : ((Eff.mmu x).apply d).slot j = d.slot j := rfl
@[simp] theorem slot_apply_chan (n : _) (c : _) (d : Dev) (j : Nat) : ((Eff.chan n c).apply d).slot j = d.slot j := rfl
@[simp] theorem slot_apply_counter (n : _) (v : _) (d : Dev) (j : Nat) : ((Eff.counter n v).apply d).slot j = d.slot j := rfl
@[simp] theorem slot_apply_watch (n : _) (w : _) (d : Dev) (j : Nat) : ((Eff.watch n w).apply d).slot j = d.slot j := by
  cases w <;> rfl
@[simp] theorem slot_apply_peer (n : _) (x : _) (d : Dev) (j : Nat) : ((Eff.peer n x).apply d).slot j = d.slot j := rfl
@[simp] theorem slot_apply_port (n : _) (x : _) (d : Dev) (j : Nat) : ((Eff.port n x).apply d).slot j = d.slot j := rfl
@[simp] theorem slot_apply_dseq (o : _) (x : _) (d : Dev) (j : Nat) : ((Eff.dseq o x).apply d).slot j = d.slot j := rfl
@[simp] theorem slot_apply_xcn (x : _) (d : Dev) (j : Nat) : ((Eff.xcn x).apply d).slot j = d.slot j := rfl
@[simp] theorem slot_apply_sync (x : _) (d : Dev) (j : Nat) : ((Eff.sync x).apply d).slot j = d.slot j := rfl
@[simp] theorem slot_apply_host (n : _) (x : _) (d : Dev) (j : Nat) : ((Eff.host n x).apply d).slot j = d.slot j := rfl
@[simp] theorem slot_apply_circ (k : _) (r : _) (d : Dev) (j : Nat) : ((Eff.circ k r).apply d).slot j = d.slot j := rfl
@[simp] theorem slot_apply_found (r : _) (d : Dev) (j : Nat) : ((Eff.found r).apply d).slot j = d.slot j := rfl
@[simp] theorem slot_apply_obs (x : _) (d : Dev) (j : Nat) : ((Eff.obs x).apply d).slot j = d.slot j := rfl
@[simp] theorem slot_apply_tally (n : _) (v : _) (d : Dev) (j : Nat) : ((Eff.tally n v).apply d).slot j = d.slot j := rfl
@[simp] theorem slot_apply_sec (x : _) (d : Dev) (j : Nat) : ((Eff.sec x).apply d).slot j = d.slot j := rfl
@[simp] theorem slot_apply_job (x : _) (d : Dev) (j : Nat) : ((Eff.job x).apply d).slot j = d.slot j := rfl
@[simp] theorem slot_apply_course (x : _) (d : Dev) (j : Nat) : ((Eff.course x).apply d).slot j = d.slot j := rfl
@[simp] theorem slot_apply_shore (x : _) (d : Dev) (j : Nat) : ((Eff.shore x).apply d).slot j = d.slot j := rfl
@[simp] theorem slot_apply_wit (x : _) (d : Dev) (j : Nat) : ((Eff.wit x).apply d).slot j = d.slot j := rfl
@[simp] theorem slot_apply_start (x : _) (d : Dev) (j : Nat) : ((Eff.start x).apply d).slot j = d.slot j := rfl
@[simp] theorem slot_apply_hold (x : _) (d : Dev) (j : Nat) : ((Eff.hold x).apply d).slot j = d.slot j := rfl
@[simp] theorem slot_apply_rst (x : _) (d : Dev) (j : Nat) : ((Eff.rst x).apply d).slot j = d.slot j := rfl
@[simp] theorem slot_apply_clk (t : _) (d : Dev) (j : Nat) : ((Eff.clk t).apply d).slot j = d.slot j := rfl
@[simp] theorem slot_apply_podTime (t : _) (d : Dev) (j : Nat) : ((Eff.podTime t).apply d).slot j = d.slot j := rfl
@[simp] theorem slot_apply_status (t : _) (d : Dev) (j : Nat) : ((Eff.status t).apply d).slot j = d.slot j := rfl
@[simp] theorem slot_apply_draw (k : _) (d : Dev) (j : Nat) : ((Eff.draw k).apply d).slot j = d.slot j := rfl
@[simp] theorem slot_apply_emit (x : _) (d : Dev) (j : Nat) : ((Eff.emit x).apply d).slot j = d.slot j := rfl
theorem slot_apply (n : _) (x : _) (d : Dev) (j : Nat) : ((Eff.slot n x).apply d).slot j = if j = n then x else d.slot j := Store.get_put ..
@[simp] theorem slot_apply_same (n : _) (x : _) (d : Dev) : ((Eff.slot n x).apply d).slot n = x := Store.get_put_same ..

/-! ### A field written by the block -/

@[simp] theorem put_power (f : Fld) (v : Nat) (d : Dev) : ((put f v).run d).power = d.power := rfl
@[simp] theorem put_mode (f : Fld) (v : Nat) (d : Dev) : ((put f v).run d).mode = d.mode := rfl
@[simp] theorem put_mem (f : Fld) (v : Nat) (d : Dev) : ((put f v).run d).mem = d.mem := rfl
@[simp] theorem put_checks (f : Fld) (v : Nat) (d : Dev) : ((put f v).run d).checks = d.checks := rfl
@[simp] theorem put_tiles (f : Fld) (v : Nat) (d : Dev) : ((put f v).run d).tiles = d.tiles := rfl
@[simp] theorem put_savedTiles (f : Fld) (v : Nat) (d : Dev) : ((put f v).run d).savedTiles = d.savedTiles := rfl
@[simp] theorem put_agents (f : Fld) (v : Nat) (d : Dev) : ((put f v).run d).agents = d.agents := rfl
@[simp] theorem put_mmu (f : Fld) (v : Nat) (d : Dev) : ((put f v).run d).mmu = d.mmu := rfl
@[simp] theorem put_chans (f : Fld) (v : Nat) (d : Dev) : ((put f v).run d).chans = d.chans := rfl
@[simp] theorem put_counters (f : Fld) (v : Nat) (d : Dev) : ((put f v).run d).counters = d.counters := rfl
@[simp] theorem put_watches (f : Fld) (v : Nat) (d : Dev) : ((put f v).run d).watches = d.watches := rfl
@[simp] theorem put_ports (f : Fld) (v : Nat) (d : Dev) : ((put f v).run d).ports = d.ports := rfl
@[simp] theorem put_dseq (f : Fld) (v : Nat) (d : Dev) : ((put f v).run d).dseq = d.dseq := rfl
@[simp] theorem put_xcn (f : Fld) (v : Nat) (d : Dev) : ((put f v).run d).xcn = d.xcn := rfl
@[simp] theorem put_peers (f : Fld) (v : Nat) (d : Dev) : ((put f v).run d).peers = d.peers := rfl
@[simp] theorem put_sync (f : Fld) (v : Nat) (d : Dev) : ((put f v).run d).sync = d.sync := rfl
@[simp] theorem put_hosts (f : Fld) (v : Nat) (d : Dev) : ((put f v).run d).hosts = d.hosts := rfl
@[simp] theorem put_circ (f : Fld) (v : Nat) (d : Dev) : ((put f v).run d).circ = d.circ := rfl
@[simp] theorem put_found (f : Fld) (v : Nat) (d : Dev) : ((put f v).run d).found = d.found := rfl
@[simp] theorem put_obs (f : Fld) (v : Nat) (d : Dev) : ((put f v).run d).obs = d.obs := rfl
@[simp] theorem put_tallies (f : Fld) (v : Nat) (d : Dev) : ((put f v).run d).tallies = d.tallies := rfl
@[simp] theorem put_sec (f : Fld) (v : Nat) (d : Dev) : ((put f v).run d).sec = d.sec := rfl
@[simp] theorem put_job (f : Fld) (v : Nat) (d : Dev) : ((put f v).run d).job = d.job := rfl
@[simp] theorem put_course (f : Fld) (v : Nat) (d : Dev) : ((put f v).run d).course = d.course := rfl
@[simp] theorem put_shore (f : Fld) (v : Nat) (d : Dev) : ((put f v).run d).shore = d.shore := rfl
@[simp] theorem put_wit (f : Fld) (v : Nat) (d : Dev) : ((put f v).run d).wit = d.wit := rfl
@[simp] theorem put_slots (f : Fld) (v : Nat) (d : Dev) : ((put f v).run d).slots = d.slots := rfl
@[simp] theorem put_start (f : Fld) (v : Nat) (d : Dev) : ((put f v).run d).start = d.start := rfl
@[simp] theorem put_hold (f : Fld) (v : Nat) (d : Dev) : ((put f v).run d).hold = d.hold := rfl
@[simp] theorem put_rst (f : Fld) (v : Nat) (d : Dev) : ((put f v).run d).rst = d.rst := rfl
@[simp] theorem put_clk (f : Fld) (v : Nat) (d : Dev) : ((put f v).run d).clk = d.clk := rfl
@[simp] theorem put_podTime (f : Fld) (v : Nat) (d : Dev) : ((put f v).run d).podTime = d.podTime := rfl
@[simp] theorem put_status (f : Fld) (v : Nat) (d : Dev) : ((put f v).run d).status = d.status := rfl
@[simp] theorem put_free (f : Fld) (v : Nat) (d : Dev) : ((put f v).run d).free = d.free := rfl
@[simp] theorem put_out (f : Fld) (v : Nat) (d : Dev) : ((put f v).run d).out = d.out := rfl
@[simp] theorem put_tile (f : Fld) (v : Nat) (d : Dev) (j : Nat) : ((put f v).run d).tile j = d.tile j := rfl
@[simp] theorem put_agent (f : Fld) (v : Nat) (d : Dev) (j : Nat) : ((put f v).run d).agent j = d.agent j := rfl
@[simp] theorem put_chan (f : Fld) (v : Nat) (d : Dev) (j : Nat) : ((put f v).run d).chan j = d.chan j := rfl
@[simp] theorem put_counter (f : Fld) (v : Nat) (d : Dev) (j : Nat) : ((put f v).run d).counter j = d.counter j := rfl
@[simp] theorem put_peer (f : Fld) (v : Nat) (d : Dev) (j : Nat) : ((put f v).run d).peer j = d.peer j := rfl
@[simp] theorem put_port (f : Fld) (v : Nat) (d : Dev) (j : Nat) : ((put f v).run d).port j = d.port j := rfl
@[simp] theorem put_stream (f : Fld) (v : Nat) (d : Dev) (j : Nat) : ((put f v).run d).stream j = d.stream j := rfl
@[simp] theorem put_host (f : Fld) (v : Nat) (d : Dev) (j : Nat) : ((put f v).run d).host j = d.host j := rfl
@[simp] theorem put_slot (f : Fld) (v : Nat) (d : Dev) (j : Nat) : ((put f v).run d).slot j = d.slot j := rfl

end Sys2Proof.Machine
end

