-- ==== Sys2Proof/Laws/Notices.lean ====
section
/-! SUPPORT. The readings of the block after event notices, records and answers: all but the parts that those may change read as before. -/

namespace Sys2Proof.Machine

/-- An address outside the session registers. -/
def offSessions (a : Nat) : Bool := decide (a < 0x200100) || decide (0x200180 ≤ a)

/-- An address outside those and the recorder's registers. -/
def offRecorder (a : Nat) : Bool := offSessions a && (decide (a < 0x3C0000) || decide (0x3C0060 ≤ a))

/-! ### raise -/

theorem alike_raise (f : Fld) (x : List Byte) (d : Dev) (p : Part) (hp : (orEvents (only [.reg f.addr])) p = false) : d.alike ((raise f x).run d) p :=
  Prog.within_alike _ (within_raise (sends_orEvents _) (by simp [orEvents, only]) ..) p hp
@[simp] theorem raise_tile (f : Fld) (x : List Byte) (d : Dev) (j : Nat) : ((raise f x).run d).tile j = d.tile j := alike_raise f x d (.tile j) rfl
@[simp] theorem raise_agent (f : Fld) (x : List Byte) (d : Dev) (j : Nat) : ((raise f x).run d).agent j = d.agent j := alike_raise f x d (.agent j) rfl
@[simp] theorem raise_chan (f : Fld) (x : List Byte) (d : Dev) (j : Nat) : ((raise f x).run d).chan j = d.chan j := alike_raise f x d (.chan j) rfl
@[simp] theorem raise_counter (f : Fld) (x : List Byte) (d : Dev) (j : Nat) : ((raise f x).run d).counter j = d.counter j := alike_raise f x d (.counter j) rfl
@[simp] theorem raise_port (f : Fld) (x : List Byte) (d : Dev) (j : Nat) : ((raise f x).run d).port j = d.port j := alike_raise f x d (.port j) rfl
@[simp] theorem raise_stream (f : Fld) (x : List Byte) (d : Dev) (j : Nat) : ((raise f x).run d).stream j = d.stream j := alike_raise f x d (.stream j) rfl
@[simp] theorem raise_peer (f : Fld) (x : List Byte) (d : Dev) (j : Nat) : ((raise f x).run d).peer j = d.peer j := alike_raise f x d (.peer j) rfl
@[simp] theorem raise_slot (f : Fld) (x : List Byte) (d : Dev) (j : Nat) : ((raise f x).run d).slot j = d.slot j := alike_raise f x d (.slot j) rfl
@[simp] theorem raise_power (f : Fld) (x : List Byte) (d : Dev) : ((raise f x).run d).power = d.power := alike_raise f x d .power rfl
@[simp] theorem raise_mode (f : Fld) (x : List Byte) (d : Dev) : ((raise f x).run d).mode = d.mode := alike_raise f x d .mode rfl
@[simp] theorem raise_mmu (f : Fld) (x : List Byte) (d : Dev) : ((raise f x).run d).mmu = d.mmu := alike_raise f x d .mmu rfl
@[simp] theorem raise_xcn (f : Fld) (x : List Byte) (d : Dev) : ((raise f x).run d).xcn = d.xcn := alike_raise f x d .xcn rfl
@[simp] theorem raise_sync (f : Fld) (x : List Byte) (d : Dev) : ((raise f x).run d).sync = d.sync := alike_raise f x d .sync rfl
@[simp] theorem raise_sec (f : Fld) (x : List Byte) (d : Dev) : ((raise f x).run d).sec = d.sec := alike_raise f x d .sec rfl
@[simp] theorem raise_job (f : Fld) (x : List Byte) (d : Dev) : ((raise f x).run d).job = d.job := alike_raise f x d .job rfl
@[simp] theorem raise_course (f : Fld) (x : List Byte) (d : Dev) : ((raise f x).run d).course = d.course := alike_raise f x d .course rfl
@[simp] theorem raise_shore (f : Fld) (x : List Byte) (d : Dev) : ((raise f x).run d).shore = d.shore := alike_raise f x d .shore rfl
@[simp] theorem raise_wit (f : Fld) (x : List Byte) (d : Dev) : ((raise f x).run d).wit = d.wit := alike_raise f x d .wit rfl
@[simp] theorem raise_start (f : Fld) (x : List Byte) (d : Dev) : ((raise f x).run d).start = d.start := alike_raise f x d .start rfl
@[simp] theorem raise_hold (f : Fld) (x : List Byte) (d : Dev) : ((raise f x).run d).hold = d.hold := alike_raise f x d .hold rfl
@[simp] theorem raise_rst (f : Fld) (x : List Byte) (d : Dev) : ((raise f x).run d).rst = d.rst := alike_raise f x d .rst rfl
@[simp] theorem raise_clk (f : Fld) (x : List Byte) (d : Dev) : ((raise f x).run d).clk = d.clk := alike_raise f x d .clk rfl
@[simp] theorem raise_podTime (f : Fld) (x : List Byte) (d : Dev) : ((raise f x).run d).podTime = d.podTime := alike_raise f x d .podTime rfl
@[simp] theorem raise_status (f : Fld) (x : List Byte) (d : Dev) : ((raise f x).run d).status = d.status := alike_raise f x d .status rfl
@[simp] theorem raise_free (f : Fld) (x : List Byte) (d : Dev) : ((raise f x).run d).free = d.free := alike_raise f x d .free rfl
@[simp] theorem raise_found (f : Fld) (x : List Byte) (d : Dev) : ((raise f x).run d).found = d.found := alike_raise f x d .found rfl
@[simp] theorem raise_obs (f : Fld) (x : List Byte) (d : Dev) : ((raise f x).run d).obs = d.obs := alike_raise f x d .obs rfl
theorem raise_get (f : Fld) (x : List Byte) (d : Dev) (j : Fld) (h : offSessions j.addr = true) (hf : j.addr ≠ f.addr) : ((raise f x).run d).get j = d.get j :=
  congrArg j.of (alike_raise f x d (.reg j.addr) (by simp [offSessions] at h; simp [orEvents, only, hf]; omega))
theorem raise_mem (f : Fld) (x : List Byte) (d : Dev) (j : Nat) : Store.get memDflt ((raise f x).run d).mem j = Store.get memDflt d.mem j := alike_raise f x d (.byte j) rfl

/-! ### notice -/

theorem alike_notice (a b : Nat) (x : List Byte) (d : Dev) (p : Part) (hp : (orEvents (only [])) p = false) : d.alike ((notice a b x).run d) p :=
  Prog.within_alike _ (within_notice (sends_orEvents _) ..) p hp
@[simp] theorem notice_tile (a b : Nat) (x : List Byte) (d : Dev) (j : Nat) : ((notice a b x).run d).tile j = d.tile j := alike_notice a b x d (.tile j) rfl
@[simp] theorem notice_agent (a b : Nat) (x : List Byte) (d : Dev) (j : Nat) : ((notice a b x).run d).agent j = d.agent j := alike_notice a b x d (.agent j) rfl
@[simp] theorem notice_chan (a b : Nat) (x : List Byte) (d : Dev) (j : Nat) : ((notice a b x).run d).chan j = d.chan j := alike_notice a b x d (.chan j) rfl
@[simp] theorem notice_counter (a b : Nat) (x : List Byte) (d : Dev) (j : Nat) : ((notice a b x).run d).counter j = d.counter j := alike_notice a b x d (.counter j) rfl
@[simp] theorem notice_port (a b : Nat) (x : List Byte) (d : Dev) (j : Nat) : ((notice a b x).run d).port j = d.port j := alike_notice a b x d (.port j) rfl
@[simp] theorem notice_stream (a b : Nat) (x : List Byte) (d : Dev) (j : Nat) : ((notice a b x).run d).stream j = d.stream j := alike_notice a b x d (.stream j) rfl
@[simp] theorem notice_peer (a b : Nat) (x : List Byte) (d : Dev) (j : Nat) : ((notice a b x).run d).peer j = d.peer j := alike_notice a b x d (.peer j) rfl
@[simp] theorem notice_slot (a b : Nat) (x : List Byte) (d : Dev) (j : Nat) : ((notice a b x).run d).slot j = d.slot j := alike_notice a b x d (.slot j) rfl
@[simp] theorem notice_power (a b : Nat) (x : List Byte) (d : Dev) : ((notice a b x).run d).power = d.power := alike_notice a b x d .power rfl
@[simp] theorem notice_mode (a b : Nat) (x : List Byte) (d : Dev) : ((notice a b x).run d).mode = d.mode := alike_notice a b x d .mode rfl
@[simp] theorem notice_mmu (a b : Nat) (x : List Byte) (d : Dev) : ((notice a b x).run d).mmu = d.mmu := alike_notice a b x d .mmu rfl
@[simp] theorem notice_xcn (a b : Nat) (x : List Byte) (d : Dev) : ((notice a b x).run d).xcn = d.xcn := alike_notice a b x d .xcn rfl
@[simp] theorem notice_sync (a b : Nat) (x : List Byte) (d : Dev) : ((notice a b x).run d).sync = d.sync := alike_notice a b x d .sync rfl
@[simp] theorem notice_sec (a b : Nat) (x : List Byte) (d : Dev) : ((notice a b x).run d).sec = d.sec := alike_notice a b x d .sec rfl
@[simp] theorem notice_job (a b : Nat) (x : List Byte) (d : Dev) : ((notice a b x).run d).job = d.job := alike_notice a b x d .job rfl
@[simp] theorem notice_course (a b : Nat) (x : List Byte) (d : Dev) : ((notice a b x).run d).course = d.course := alike_notice a b x d .course rfl
@[simp] theorem notice_shore (a b : Nat) (x : List Byte) (d : Dev) : ((notice a b x).run d).shore = d.shore := alike_notice a b x d .shore rfl
@[simp] theorem notice_wit (a b : Nat) (x : List Byte) (d : Dev) : ((notice a b x).run d).wit = d.wit := alike_notice a b x d .wit rfl
@[simp] theorem notice_start (a b : Nat) (x : List Byte) (d : Dev) : ((notice a b x).run d).start = d.start := alike_notice a b x d .start rfl
@[simp] theorem notice_hold (a b : Nat) (x : List Byte) (d : Dev) : ((notice a b x).run d).hold = d.hold := alike_notice a b x d .hold rfl
@[simp] theorem notice_rst (a b : Nat) (x : List Byte) (d : Dev) : ((notice a b x).run d).rst = d.rst := alike_notice a b x d .rst rfl
@[simp] theorem notice_clk (a b : Nat) (x : List Byte) (d : Dev) : ((notice a b x).run d).clk = d.clk := alike_notice a b x d .clk rfl
@[simp] theorem notice_podTime (a b : Nat) (x : List Byte) (d : Dev) : ((notice a b x).run d).podTime = d.podTime := alike_notice a b x d .podTime rfl
@[simp] theorem notice_status (a b : Nat) (x : List Byte) (d : Dev) : ((notice a b x).run d).status = d.status := alike_notice a b x d .status rfl
@[simp] theorem notice_free (a b : Nat) (x : List Byte) (d : Dev) : ((notice a b x).run d).free = d.free := alike_notice a b x d .free rfl
@[simp] theorem notice_found (a b : Nat) (x : List Byte) (d : Dev) : ((notice a b x).run d).found = d.found := alike_notice a b x d .found rfl
@[simp] theorem notice_obs (a b : Nat) (x : List Byte) (d : Dev) : ((notice a b x).run d).obs = d.obs := alike_notice a b x d .obs rfl
theorem notice_get (a b : Nat) (x : List Byte) (d : Dev) (j : Fld) (h : offSessions j.addr = true) : ((notice a b x).run d).get j = d.get j :=
  congrArg j.of (alike_notice a b x d (.reg j.addr) (by simp [offSessions] at h; simp [orEvents, only]; omega))
theorem notice_mem (a b : Nat) (x : List Byte) (d : Dev) (j : Nat) : Store.get memDflt ((notice a b x).run d).mem j = Store.get memDflt d.mem j := alike_notice a b x d (.byte j) rfl

/-! ### noticeTo -/

theorem alike_noticeTo {k : Nat} (hk : k < 16) (a b : Nat) (x : List Byte) (d : Dev) (p : Part) (hp : (orEvents (only [])) p = false) : d.alike ((noticeTo k a b x).run d) p :=
  Prog.within_alike _ (within_noticeTo (sends_orEvents _) hk ..) p hp
@[simp] theorem noticeTo_tile {k : Nat} (hk : k < 16) (a b : Nat) (x : List Byte) (d : Dev) (j : Nat) : ((noticeTo k a b x).run d).tile j = d.tile j := alike_noticeTo hk a b x d (.tile j) rfl
@[simp] theorem noticeTo_agent {k : Nat} (hk : k < 16) (a b : Nat) (x : List Byte) (d : Dev) (j : Nat) : ((noticeTo k a b x).run d).agent j = d.agent j := alike_noticeTo hk a b x d (.agent j) rfl
@[simp] theorem noticeTo_chan {k : Nat} (hk : k < 16) (a b : Nat) (x : List Byte) (d : Dev) (j : Nat) : ((noticeTo k a b x).run d).chan j = d.chan j := alike_noticeTo hk a b x d (.chan j) rfl
@[simp] theorem noticeTo_counter {k : Nat} (hk : k < 16) (a b : Nat) (x : List Byte) (d : Dev) (j : Nat) : ((noticeTo k a b x).run d).counter j = d.counter j := alike_noticeTo hk a b x d (.counter j) rfl
@[simp] theorem noticeTo_port {k : Nat} (hk : k < 16) (a b : Nat) (x : List Byte) (d : Dev) (j : Nat) : ((noticeTo k a b x).run d).port j = d.port j := alike_noticeTo hk a b x d (.port j) rfl
@[simp] theorem noticeTo_stream {k : Nat} (hk : k < 16) (a b : Nat) (x : List Byte) (d : Dev) (j : Nat) : ((noticeTo k a b x).run d).stream j = d.stream j := alike_noticeTo hk a b x d (.stream j) rfl
@[simp] theorem noticeTo_peer {k : Nat} (hk : k < 16) (a b : Nat) (x : List Byte) (d : Dev) (j : Nat) : ((noticeTo k a b x).run d).peer j = d.peer j := alike_noticeTo hk a b x d (.peer j) rfl
@[simp] theorem noticeTo_slot {k : Nat} (hk : k < 16) (a b : Nat) (x : List Byte) (d : Dev) (j : Nat) : ((noticeTo k a b x).run d).slot j = d.slot j := alike_noticeTo hk a b x d (.slot j) rfl
@[simp] theorem noticeTo_power {k : Nat} (hk : k < 16) (a b : Nat) (x : List Byte) (d : Dev) : ((noticeTo k a b x).run d).power = d.power := alike_noticeTo hk a b x d .power rfl
@[simp] theorem noticeTo_mode {k : Nat} (hk : k < 16) (a b : Nat) (x : List Byte) (d : Dev) : ((noticeTo k a b x).run d).mode = d.mode := alike_noticeTo hk a b x d .mode rfl
@[simp] theorem noticeTo_mmu {k : Nat} (hk : k < 16) (a b : Nat) (x : List Byte) (d : Dev) : ((noticeTo k a b x).run d).mmu = d.mmu := alike_noticeTo hk a b x d .mmu rfl
@[simp] theorem noticeTo_xcn {k : Nat} (hk : k < 16) (a b : Nat) (x : List Byte) (d : Dev) : ((noticeTo k a b x).run d).xcn = d.xcn := alike_noticeTo hk a b x d .xcn rfl
@[simp] theorem noticeTo_sync {k : Nat} (hk : k < 16) (a b : Nat) (x : List Byte) (d : Dev) : ((noticeTo k a b x).run d).sync = d.sync := alike_noticeTo hk a b x d .sync rfl
@[simp] theorem noticeTo_sec {k : Nat} (hk : k < 16) (a b : Nat) (x : List Byte) (d : Dev) : ((noticeTo k a b x).run d).sec = d.sec := alike_noticeTo hk a b x d .sec rfl
@[simp] theorem noticeTo_job {k : Nat} (hk : k < 16) (a b : Nat) (x : List Byte) (d : Dev) : ((noticeTo k a b x).run d).job = d.job := alike_noticeTo hk a b x d .job rfl
@[simp] theorem noticeTo_course {k : Nat} (hk : k < 16) (a b : Nat) (x : List Byte) (d : Dev) : ((noticeTo k a b x).run d).course = d.course := alike_noticeTo hk a b x d .course rfl
@[simp] theorem noticeTo_shore {k : Nat} (hk : k < 16) (a b : Nat) (x : List Byte) (d : Dev) : ((noticeTo k a b x).run d).shore = d.shore := alike_noticeTo hk a b x d .shore rfl
@[simp] theorem noticeTo_wit {k : Nat} (hk : k < 16) (a b : Nat) (x : List Byte) (d : Dev) : ((noticeTo k a b x).run d).wit = d.wit := alike_noticeTo hk a b x d .wit rfl
@[simp] theorem noticeTo_start {k : Nat} (hk : k < 16) (a b : Nat) (x : List Byte) (d : Dev) : ((noticeTo k a b x).run d).start = d.start := alike_noticeTo hk a b x d .start rfl
@[simp] theorem noticeTo_hold {k : Nat} (hk : k < 16) (a b : Nat) (x : List Byte) (d : Dev) : ((noticeTo k a b x).run d).hold = d.hold := alike_noticeTo hk a b x d .hold rfl
@[simp] theorem noticeTo_rst {k : Nat} (hk : k < 16) (a b : Nat) (x : List Byte) (d : Dev) : ((noticeTo k a b x).run d).rst = d.rst := alike_noticeTo hk a b x d .rst rfl
@[simp] theorem noticeTo_clk {k : Nat} (hk : k < 16) (a b : Nat) (x : List Byte) (d : Dev) : ((noticeTo k a b x).run d).clk = d.clk := alike_noticeTo hk a b x d .clk rfl
@[simp] theorem noticeTo_podTime {k : Nat} (hk : k < 16) (a b : Nat) (x : List Byte) (d : Dev) : ((noticeTo k a b x).run d).podTime = d.podTime := alike_noticeTo hk a b x d .podTime rfl
@[simp] theorem noticeTo_status {k : Nat} (hk : k < 16) (a b : Nat) (x : List Byte) (d : Dev) : ((noticeTo k a b x).run d).status = d.status := alike_noticeTo hk a b x d .status rfl
@[simp] theorem noticeTo_free {k : Nat} (hk : k < 16) (a b : Nat) (x : List Byte) (d : Dev) : ((noticeTo k a b x).run d).free = d.free := alike_noticeTo hk a b x d .free rfl
@[simp] theorem noticeTo_found {k : Nat} (hk : k < 16) (a b : Nat) (x : List Byte) (d : Dev) : ((noticeTo k a b x).run d).found = d.found := alike_noticeTo hk a b x d .found rfl
@[simp] theorem noticeTo_obs {k : Nat} (hk : k < 16) (a b : Nat) (x : List Byte) (d : Dev) : ((noticeTo k a b x).run d).obs = d.obs := alike_noticeTo hk a b x d .obs rfl
theorem noticeTo_get {k : Nat} (hk : k < 16) (a b : Nat) (x : List Byte) (d : Dev) (j : Fld) (h : offSessions j.addr = true) : ((noticeTo k a b x).run d).get j = d.get j :=
  congrArg j.of (alike_noticeTo hk a b x d (.reg j.addr) (by simp [offSessions] at h; simp [orEvents, only]; omega))
theorem noticeTo_mem {k : Nat} (hk : k < 16) (a b : Nat) (x : List Byte) (d : Dev) (j : Nat) : Store.get memDflt ((noticeTo k a b x).run d).mem j = Store.get memDflt d.mem j := alike_noticeTo hk a b x d (.byte j) rfl

/-! ### answer -/

theorem alike_answer {k : Nat} (hk : k < 16) (a b c e : Nat) (x : List Byte) (d : Dev) (p : Part) (hp : (orEvents (only [])) p = false) : d.alike ((answer k a b c e x).run d) p :=
  Prog.within_alike _ (within_answer (sends_orEvents _) hk ..) p hp
@[simp] theorem answer_tile {k : Nat} (hk : k < 16) (a b c e : Nat) (x : List Byte) (d : Dev) (j : Nat) : ((answer k a b c e x).run d).tile j = d.tile j := alike_answer hk a b c e x d (.tile j) rfl
@[simp] theorem answer_agent {k : Nat} (hk : k < 16) (a b c e : Nat) (x : List Byte) (d : Dev) (j : Nat) : ((answer k a b c e x).run d).agent j = d.agent j := alike_answer hk a b c e x d (.agent j) rfl
@[simp] theorem answer_chan {k : Nat} (hk : k < 16) (a b c e : Nat) (x : List Byte) (d : Dev) (j : Nat) : ((answer k a b c e x).run d).chan j = d.chan j := alike_answer hk a b c e x d (.chan j) rfl
@[simp] theorem answer_counter {k : Nat} (hk : k < 16) (a b c e : Nat) (x : List Byte) (d : Dev) (j : Nat) : ((answer k a b c e x).run d).counter j = d.counter j := alike_answer hk a b c e x d (.counter j) rfl
@[simp] theorem answer_port {k : Nat} (hk : k < 16) (a b c e : Nat) (x : List Byte) (d : Dev) (j : Nat) : ((answer k a b c e x).run d).port j = d.port j := alike_answer hk a b c e x d (.port j) rfl
@[simp] theorem answer_stream {k : Nat} (hk : k < 16) (a b c e : Nat) (x : List Byte) (d : Dev) (j : Nat) : ((answer k a b c e x).run d).stream j = d.stream j := alike_answer hk a b c e x d (.stream j) rfl
@[simp] theorem answer_peer {k : Nat} (hk : k < 16) (a b c e : Nat) (x : List Byte) (d : Dev) (j : Nat) : ((answer k a b c e x).run d).peer j = d.peer j := alike_answer hk a b c e x d (.peer j) rfl
@[simp] theorem answer_slot {k : Nat} (hk : k < 16) (a b c e : Nat) (x : List Byte) (d : Dev) (j : Nat) : ((answer k a b c e x).run d).slot j = d.slot j := alike_answer hk a b c e x d (.slot j) rfl
@[simp] theorem answer_power {k : Nat} (hk : k < 16) (a b c e : Nat) (x : List Byte) (d : Dev) : ((answer k a b c e x).run d).power = d.power := alike_answer hk a b c e x d .power rfl
@[simp] theorem answer_mode {k : Nat} (hk : k < 16) (a b c e : Nat) (x : List Byte) (d : Dev) : ((answer k a b c e x).run d).mode = d.mode := alike_answer hk a b c e x d .mode rfl
@[simp] theorem answer_mmu {k : Nat} (hk : k < 16) (a b c e : Nat) (x : List Byte) (d : Dev) : ((answer k a b c e x).run d).mmu = d.mmu := alike_answer hk a b c e x d .mmu rfl
@[simp] theorem answer_xcn {k : Nat} (hk : k < 16) (a b c e : Nat) (x : List Byte) (d : Dev) : ((answer k a b c e x).run d).xcn = d.xcn := alike_answer hk a b c e x d .xcn rfl
@[simp] theorem answer_sync {k : Nat} (hk : k < 16) (a b c e : Nat) (x : List Byte) (d : Dev) : ((answer k a b c e x).run d).sync = d.sync := alike_answer hk a b c e x d .sync rfl
@[simp] theorem answer_sec {k : Nat} (hk : k < 16) (a b c e : Nat) (x : List Byte) (d : Dev) : ((answer k a b c e x).run d).sec = d.sec := alike_answer hk a b c e x d .sec rfl
@[simp] theorem answer_job {k : Nat} (hk : k < 16) (a b c e : Nat) (x : List Byte) (d : Dev) : ((answer k a b c e x).run d).job = d.job := alike_answer hk a b c e x d .job rfl
@[simp] theorem answer_course {k : Nat} (hk : k < 16) (a b c e : Nat) (x : List Byte) (d : Dev) : ((answer k a b c e x).run d).course = d.course := alike_answer hk a b c e x d .course rfl
@[simp] theorem answer_shore {k : Nat} (hk : k < 16) (a b c e : Nat) (x : List Byte) (d : Dev) : ((answer k a b c e x).run d).shore = d.shore := alike_answer hk a b c e x d .shore rfl
@[simp] theorem answer_wit {k : Nat} (hk : k < 16) (a b c e : Nat) (x : List Byte) (d : Dev) : ((answer k a b c e x).run d).wit = d.wit := alike_answer hk a b c e x d .wit rfl
@[simp] theorem answer_start {k : Nat} (hk : k < 16) (a b c e : Nat) (x : List Byte) (d : Dev) : ((answer k a b c e x).run d).start = d.start := alike_answer hk a b c e x d .start rfl
@[simp] theorem answer_hold {k : Nat} (hk : k < 16) (a b c e : Nat) (x : List Byte) (d : Dev) : ((answer k a b c e x).run d).hold = d.hold := alike_answer hk a b c e x d .hold rfl
@[simp] theorem answer_rst {k : Nat} (hk : k < 16) (a b c e : Nat) (x : List Byte) (d : Dev) : ((answer k a b c e x).run d).rst = d.rst := alike_answer hk a b c e x d .rst rfl
@[simp] theorem answer_clk {k : Nat} (hk : k < 16) (a b c e : Nat) (x : List Byte) (d : Dev) : ((answer k a b c e x).run d).clk = d.clk := alike_answer hk a b c e x d .clk rfl
@[simp] theorem answer_podTime {k : Nat} (hk : k < 16) (a b c e : Nat) (x : List Byte) (d : Dev) : ((answer k a b c e x).run d).podTime = d.podTime := alike_answer hk a b c e x d .podTime rfl
@[simp] theorem answer_status {k : Nat} (hk : k < 16) (a b c e : Nat) (x : List Byte) (d : Dev) : ((answer k a b c e x).run d).status = d.status := alike_answer hk a b c e x d .status rfl
@[simp] theorem answer_free {k : Nat} (hk : k < 16) (a b c e : Nat) (x : List Byte) (d : Dev) : ((answer k a b c e x).run d).free = d.free := alike_answer hk a b c e x d .free rfl
@[simp] theorem answer_found {k : Nat} (hk : k < 16) (a b c e : Nat) (x : List Byte) (d : Dev) : ((answer k a b c e x).run d).found = d.found := alike_answer hk a b c e x d .found rfl
@[simp] theorem answer_obs {k : Nat} (hk : k < 16) (a b c e : Nat) (x : List Byte) (d : Dev) : ((answer k a b c e x).run d).obs = d.obs := alike_answer hk a b c e x d .obs rfl
theorem answer_get {k : Nat} (hk : k < 16) (a b c e : Nat) (x : List Byte) (d : Dev) (j : Fld) (h : offSessions j.addr = true) : ((answer k a b c e x).run d).get j = d.get j :=
  congrArg j.of (alike_answer hk a b c e x d (.reg j.addr) (by simp [offSessions] at h; simp [orEvents, only]; omega))
theorem answer_mem {k : Nat} (hk : k < 16) (a b c e : Nat) (x : List Byte) (d : Dev) (j : Nat) : Store.get memDflt ((answer k a b c e x).run d).mem j = Store.get memDflt d.mem j := alike_answer hk a b c e x d (.byte j) rfl

/-! ### record -/

theorem alike_record (a b : Nat) (x : List Byte) (y : Bool) (d : Dev) (p : Part) (hp : (orRecord (only [])) p = false) : d.alike ((record a b x y).run d) p :=
  Prog.within_alike _ (within_record (records_orRecord _) ..) p hp
@[simp] theorem record_tile (a b : Nat) (x : List Byte) (y : Bool) (d : Dev) (j : Nat) : ((record a b x y).run d).tile j = d.tile j := alike_record a b x y d (.tile j) rfl
@[simp] theorem record_agent (a b : Nat) (x : List Byte) (y : Bool) (d : Dev) (j : Nat) : ((record a b x y).run d).agent j = d.agent j := alike_record a b x y d (.agent j) rfl
@[simp] theorem record_chan (a b : Nat) (x : List Byte) (y : Bool) (d : Dev) (j : Nat) : ((record a b x y).run d).chan j = d.chan j := alike_record a b x y d (.chan j) rfl
@[simp] theorem record_counter (a b : Nat) (x : List Byte) (y : Bool) (d : Dev) (j : Nat) : ((record a b x y).run d).counter j = d.counter j := alike_record a b x y d (.counter j) rfl
@[simp] theorem record_port (a b : Nat) (x : List Byte) (y : Bool) (d : Dev) (j : Nat) : ((record a b x y).run d).port j = d.port j := alike_record a b x y d (.port j) rfl
@[simp] theorem record_stream (a b : Nat) (x : List Byte) (y : Bool) (d : Dev) (j : Nat) : ((record a b x y).run d).stream j = d.stream j := alike_record a b x y d (.stream j) rfl
@[simp] theorem record_peer (a b : Nat) (x : List Byte) (y : Bool) (d : Dev) (j : Nat) : ((record a b x y).run d).peer j = d.peer j := alike_record a b x y d (.peer j) rfl
@[simp] theorem record_slot (a b : Nat) (x : List Byte) (y : Bool) (d : Dev) (j : Nat) : ((record a b x y).run d).slot j = d.slot j := alike_record a b x y d (.slot j) rfl
@[simp] theorem record_power (a b : Nat) (x : List Byte) (y : Bool) (d : Dev) : ((record a b x y).run d).power = d.power := alike_record a b x y d .power rfl
@[simp] theorem record_mode (a b : Nat) (x : List Byte) (y : Bool) (d : Dev) : ((record a b x y).run d).mode = d.mode := alike_record a b x y d .mode rfl
@[simp] theorem record_mmu (a b : Nat) (x : List Byte) (y : Bool) (d : Dev) : ((record a b x y).run d).mmu = d.mmu := alike_record a b x y d .mmu rfl
@[simp] theorem record_xcn (a b : Nat) (x : List Byte) (y : Bool) (d : Dev) : ((record a b x y).run d).xcn = d.xcn := alike_record a b x y d .xcn rfl
@[simp] theorem record_sync (a b : Nat) (x : List Byte) (y : Bool) (d : Dev) : ((record a b x y).run d).sync = d.sync := alike_record a b x y d .sync rfl
@[simp] theorem record_sec (a b : Nat) (x : List Byte) (y : Bool) (d : Dev) : ((record a b x y).run d).sec = d.sec := alike_record a b x y d .sec rfl
@[simp] theorem record_job (a b : Nat) (x : List Byte) (y : Bool) (d : Dev) : ((record a b x y).run d).job = d.job := alike_record a b x y d .job rfl
@[simp] theorem record_course (a b : Nat) (x : List Byte) (y : Bool) (d : Dev) : ((record a b x y).run d).course = d.course := alike_record a b x y d .course rfl
@[simp] theorem record_shore (a b : Nat) (x : List Byte) (y : Bool) (d : Dev) : ((record a b x y).run d).shore = d.shore := alike_record a b x y d .shore rfl
@[simp] theorem record_wit (a b : Nat) (x : List Byte) (y : Bool) (d : Dev) : ((record a b x y).run d).wit = d.wit := alike_record a b x y d .wit rfl
@[simp] theorem record_start (a b : Nat) (x : List Byte) (y : Bool) (d : Dev) : ((record a b x y).run d).start = d.start := alike_record a b x y d .start rfl
@[simp] theorem record_hold (a b : Nat) (x : List Byte) (y : Bool) (d : Dev) : ((record a b x y).run d).hold = d.hold := alike_record a b x y d .hold rfl
@[simp] theorem record_rst (a b : Nat) (x : List Byte) (y : Bool) (d : Dev) : ((record a b x y).run d).rst = d.rst := alike_record a b x y d .rst rfl
@[simp] theorem record_clk (a b : Nat) (x : List Byte) (y : Bool) (d : Dev) : ((record a b x y).run d).clk = d.clk := alike_record a b x y d .clk rfl
@[simp] theorem record_podTime (a b : Nat) (x : List Byte) (y : Bool) (d : Dev) : ((record a b x y).run d).podTime = d.podTime := alike_record a b x y d .podTime rfl
@[simp] theorem record_status (a b : Nat) (x : List Byte) (y : Bool) (d : Dev) : ((record a b x y).run d).status = d.status := alike_record a b x y d .status rfl
@[simp] theorem record_free (a b : Nat) (x : List Byte) (y : Bool) (d : Dev) : ((record a b x y).run d).free = d.free := alike_record a b x y d .free rfl
theorem record_get (a b : Nat) (x : List Byte) (y : Bool) (d : Dev) (j : Fld) (h : offRecorder j.addr = true) : ((record a b x y).run d).get j = d.get j :=
  congrArg j.of (alike_record a b x y d (.reg j.addr) (by simp [offRecorder, offSessions] at h; simp [orRecord, orEvents, only]; omega))
theorem record_mem (a b : Nat) (x : List Byte) (y : Bool) (d : Dev) (j : Nat) : Store.get memDflt ((record a b x y).run d).mem j = Store.get memDflt d.mem j := alike_record a b x y d (.byte j) rfl

/-! ### writeRecord -/

theorem alike_writeRecord (a b : Nat) (x : List Byte) (y : Bool) (d : Dev) (p : Part) (hp : (orRecord (only [])) p = false) : d.alike ((writeRecord a b x y).run d) p :=
  Prog.within_alike _ (within_writeRecord (records_orRecord _) ..) p hp
@[simp] theorem writeRecord_tile (a b : Nat) (x : List Byte) (y : Bool) (d : Dev) (j : Nat) : ((writeRecord a b x y).run d).tile j = d.tile j := alike_writeRecord a b x y d (.tile j) rfl
@[simp] theorem writeRecord_agent (a b : Nat) (x : List Byte) (y : Bool) (d : Dev) (j : Nat) : ((writeRecord a b x y).run d).agent j = d.agent j := alike_writeRecord a b x y d (.agent j) rfl
@[simp] theorem writeRecord_chan (a b : Nat) (x : List Byte) (y : Bool) (d : Dev) (j : Nat) : ((writeRecord a b x y).run d).chan j = d.chan j := alike_writeRecord a b x y d (.chan j) rfl
@[simp] theorem writeRecord_counter (a b : Nat) (x : List Byte) (y : Bool) (d : Dev) (j : Nat) : ((writeRecord a b x y).run d).counter j = d.counter j := alike_writeRecord a b x y d (.counter j) rfl
@[simp] theorem writeRecord_port (a b : Nat) (x : List Byte) (y : Bool) (d : Dev) (j : Nat) : ((writeRecord a b x y).run d).port j = d.port j := alike_writeRecord a b x y d (.port j) rfl
@[simp] theorem writeRecord_stream (a b : Nat) (x : List Byte) (y : Bool) (d : Dev) (j : Nat) : ((writeRecord a b x y).run d).stream j = d.stream j := alike_writeRecord a b x y d (.stream j) rfl
@[simp] theorem writeRecord_peer (a b : Nat) (x : List Byte) (y : Bool) (d : Dev) (j : Nat) : ((writeRecord a b x y).run d).peer j = d.peer j := alike_writeRecord a b x y d (.peer j) rfl
@[simp] theorem writeRecord_slot (a b : Nat) (x : List Byte) (y : Bool) (d : Dev) (j : Nat) : ((writeRecord a b x y).run d).slot j = d.slot j := alike_writeRecord a b x y d (.slot j) rfl
@[simp] theorem writeRecord_power (a b : Nat) (x : List Byte) (y : Bool) (d : Dev) : ((writeRecord a b x y).run d).power = d.power := alike_writeRecord a b x y d .power rfl
@[simp] theorem writeRecord_mode (a b : Nat) (x : List Byte) (y : Bool) (d : Dev) : ((writeRecord a b x y).run d).mode = d.mode := alike_writeRecord a b x y d .mode rfl
@[simp] theorem writeRecord_mmu (a b : Nat) (x : List Byte) (y : Bool) (d : Dev) : ((writeRecord a b x y).run d).mmu = d.mmu := alike_writeRecord a b x y d .mmu rfl
@[simp] theorem writeRecord_xcn (a b : Nat) (x : List Byte) (y : Bool) (d : Dev) : ((writeRecord a b x y).run d).xcn = d.xcn := alike_writeRecord a b x y d .xcn rfl
@[simp] theorem writeRecord_sync (a b : Nat) (x : List Byte) (y : Bool) (d : Dev) : ((writeRecord a b x y).run d).sync = d.sync := alike_writeRecord a b x y d .sync rfl
@[simp] theorem writeRecord_sec (a b : Nat) (x : List Byte) (y : Bool) (d : Dev) : ((writeRecord a b x y).run d).sec = d.sec := alike_writeRecord a b x y d .sec rfl
@[simp] theorem writeRecord_job (a b : Nat) (x : List Byte) (y : Bool) (d : Dev) : ((writeRecord a b x y).run d).job = d.job := alike_writeRecord a b x y d .job rfl
@[simp] theorem writeRecord_course (a b : Nat) (x : List Byte) (y : Bool) (d : Dev) : ((writeRecord a b x y).run d).course = d.course := alike_writeRecord a b x y d .course rfl
@[simp] theorem writeRecord_shore (a b : Nat) (x : List Byte) (y : Bool) (d : Dev) : ((writeRecord a b x y).run d).shore = d.shore := alike_writeRecord a b x y d .shore rfl
@[simp] theorem writeRecord_wit (a b : Nat) (x : List Byte) (y : Bool) (d : Dev) : ((writeRecord a b x y).run d).wit = d.wit := alike_writeRecord a b x y d .wit rfl
@[simp] theorem writeRecord_start (a b : Nat) (x : List Byte) (y : Bool) (d : Dev) : ((writeRecord a b x y).run d).start = d.start := alike_writeRecord a b x y d .start rfl
@[simp] theorem writeRecord_hold (a b : Nat) (x : List Byte) (y : Bool) (d : Dev) : ((writeRecord a b x y).run d).hold = d.hold := alike_writeRecord a b x y d .hold rfl
@[simp] theorem writeRecord_rst (a b : Nat) (x : List Byte) (y : Bool) (d : Dev) : ((writeRecord a b x y).run d).rst = d.rst := alike_writeRecord a b x y d .rst rfl
@[simp] theorem writeRecord_clk (a b : Nat) (x : List Byte) (y : Bool) (d : Dev) : ((writeRecord a b x y).run d).clk = d.clk := alike_writeRecord a b x y d .clk rfl
@[simp] theorem writeRecord_podTime (a b : Nat) (x : List Byte) (y : Bool) (d : Dev) : ((writeRecord a b x y).run d).podTime = d.podTime := alike_writeRecord a b x y d .podTime rfl
@[simp] theorem writeRecord_status (a b : Nat) (x : List Byte) (y : Bool) (d : Dev) : ((writeRecord a b x y).run d).status = d.status := alike_writeRecord a b x y d .status rfl
@[simp] theorem writeRecord_free (a b : Nat) (x : List Byte) (y : Bool) (d : Dev) : ((writeRecord a b x y).run d).free = d.free := alike_writeRecord a b x y d .free rfl
theorem writeRecord_get (a b : Nat) (x : List Byte) (y : Bool) (d : Dev) (j : Fld) (h : offRecorder j.addr = true) : ((writeRecord a b x y).run d).get j = d.get j :=
  congrArg j.of (alike_writeRecord a b x y d (.reg j.addr) (by simp [offRecorder, offSessions] at h; simp [orRecord, orEvents, only]; omega))
theorem writeRecord_mem (a b : Nat) (x : List Byte) (y : Bool) (d : Dev) (j : Nat) : Store.get memDflt ((writeRecord a b x y).run d).mem j = Store.get memDflt d.mem j := alike_writeRecord a b x y d (.byte j) rfl

end Sys2Proof.Machine
end

