-- ==== Sys2Proof/Laws/Loops.lean ====
section
/-! SUPPORT. Loops over numbered units, and lists of fields written one after the other. -/

namespace Sys2Proof.Machine

theorem each_keeps {α β : Type} {g : Dev → α} {xs : List β} {f : β → Prog} (h : ∀ x ∈ xs, ∀ d, g ((f x).run d) = g d) (d : Dev) :
    g ((each xs f).run d) = g d := by
  induction xs generalizing d with
  | nil => rfl
  | cons x xs ih =>
    rw [run_each_cons, ih (fun y hy => h y (by simp [hy])), h x (by simp)]

/-- A loop that changes each unit of a kind at most once. -/
theorem each_units {β : Type} {get : Dev → Nat → β} {f : Nat → Prog} {F : Nat → β → β}
    (hs : ∀ n d, get ((f n).run d) n = F n (get d n)) (ho : ∀ n m d, m ≠ n → get ((f n).run d) m = get d m) :
    ∀ (xs : List Nat), xs.Nodup → ∀ (d : Dev) (n : Nat), get ((each xs f).run d) n = if n ∈ xs then F n (get d n) else get d n := by
  intro xs
  induction xs with
  | nil => exact fun _ d n => by simp
  | cons x xs ih =>
    intro hx d n
    rw [List.nodup_cons] at hx
    rw [run_each_cons, ih hx.2]
    by_cases hn : n = x
    · subst hn
      simp [hx.1, hs]
    · simp [hn, ho _ _ _ hn]

/-- Tiles changed under a test. -/
theorem each_tiles (c : Nat → Bool) (F : Nat → Tile → Tile) (k : Nat) (d : Dev) (n : Nat) :
    ((each (List.range k) fun m => when (c m) (modTile m (F m))).run d).tile n = if n < k ∧ c n = true then F n (d.tile n) else d.tile n := by
  rw [each_units (get := Dev.tile) (F := fun m t => if c m then F m t else t) _ _ _ List.nodup_range]
  · by_cases h1 : n < k <;> by_cases h2 : c n = true <;> simp [h1, h2]
  · intro m e
    by_cases h : c m = true <;> simp [h]
  · intro m j e hj
    by_cases h : c m = true <;> simp [h, tile_apply, hj]

end Sys2Proof.Machine
end

