-- ==== Sys2Proof/Laws/Mem.lean ====
section
/-! SUPPORT. Memory: reads after writes of runs of bytes, and what a write of physical memory changes. -/

namespace Sys2Proof.Machine

theorem Store.getAll_putAll {α : Type} [DecidableEq α] {dflt : Nat → α} (vs : List α) : ∀ (m : Store α) (k : Nat),
    Store.getAll dflt (Store.putAll dflt m k vs) k vs.length = vs := by
  induction vs with
  | nil => exact fun _ _ => rfl
  | cons v vs ih =>
    intro m k
    simp only [Store.putAll, List.length_cons, Store.getAll, ih]
    rw [Store.get_putAll_other vs (.inl (by omega)), Store.get_put_same]

theorem Store.getAll_congr {α : Type} {dflt : Nat → α} {m m' : Store α} (h : ∀ j, Store.get dflt m' j = Store.get dflt m j) (n : Nat) :
    ∀ k, Store.getAll dflt m' k n = Store.getAll dflt m k n := by
  induction n with
  | zero => exact fun _ => rfl
  | succ n ih =>
    intro k
    simp only [Store.getAll, h, ih]

theorem Store.length_getAll {α : Type} {dflt : Nat → α} (m : Store α) (n : Nat) : ∀ k, (Store.getAll dflt m k n).length = n := by
  induction n with
  | zero => exact fun _ => rfl
  | succ n ih => exact fun k => by simp [Store.getAll, ih]

theorem bytes_congr {d e : Dev} (h : ∀ j, Store.get memDflt e.mem j = Store.get memDflt d.mem j) (a n : Nat) : e.bytes a n = d.bytes a n :=
  Store.getAll_congr h n a

/-- Bytes written read back. -/
theorem bytes_mem (a : Nat) (bs : List Byte) (d : Dev) : ((Eff.mem a bs).apply d).bytes a bs.length = bs := Store.getAll_putAll bs d.mem a

theorem bytes_put (f : Fld) (v : Nat) (d : Dev) (a n : Nat) : ((put f v).run d).bytes a n = d.bytes a n := rfl
theorem bytes_raise (f : Fld) (x : List Byte) (d : Dev) (a n : Nat) : ((raise f x).run d).bytes a n = d.bytes a n :=
  bytes_congr (raise_mem f x d) a n
theorem bytes_record (p q : Nat) (x : List Byte) (y : Bool) (d : Dev) (a n : Nat) : ((record p q x y).run d).bytes a n = d.bytes a n :=
  bytes_congr (record_mem p q x y d) a n

/-- Checks made afresh leave memory as it is. -/
theorem mem_reChecks (bs : List Nat) (d : Dev) : ((each bs reCheck).run d).mem = d.mem :=
  each_keeps (g := Dev.mem) (fun _ _ e => by rw [reCheck, run_look, run_act]; exact apply_check_mem ..) d

/-- Memory that holds bytes itself: HBM, the tier and the tile stores. -/
def Phys.plain : Phys → Bool
  | .hbm | .ddr _ | .tile _ => true
  | _ => false

theorem mem_writePhys (a : Nat) (bs : List Byte) (d : Dev) (h : (d.phys a).plain = true) :
    ((writePhys a bs).run d).mem = Store.putAll memDflt d.mem a bs := by
  unfold writePhys
  rw [run_look]
  generalize d.phys a = p at h ⊢
  cases p <;> simp [Phys.plain] at h
  · exact mem_reChecks ..
  · exact mem_reChecks ..
  · rfl

/-- A write of memory proper reads back. -/
theorem bytes_writePhys (a : Nat) (bs : List Byte) (d : Dev) (h : (d.phys a).plain = true) :
    ((writePhys a bs).run d).bytes a bs.length = bs := by
  simp only [Dev.bytes, mem_writePhys a bs d h, Store.getAll_putAll]

theorem get_writePhys (a : Nat) (bs : List Byte) (d : Dev) (f : Fld) : ((writePhys a bs).run d).get f = d.get f := by
  have hr : ∀ (xs : List Nat) e, ((each xs reCheck).run e).get f = e.get f := fun xs e => each_keeps (g := fun d => d.get f) (fun _ _ e => by rw [reCheck, run_look, run_act]; exact get_apply_check ..) e
  have hc : ∀ (xs : List (Byte × Nat)) e, ((each xs fun e => writeCheckByte (a + e.2) e.1).run e).get f = e.get f := fun xs e =>
    each_keeps (g := fun d => d.get f) (fun x _ e => by simp only [writeCheckByte, run_look]; split <;> simp) e
  simp only [writePhys, run_look]
  split <;> simp [hr, hc]

/-- It changes those bytes and the check words of their blocks at most. -/
theorem within_writePhys {w : Part → Bool} (a : Nat) (bs : List Byte) (d : Dev) (h : (d.phys a).plain = true)
    (hb : ∀ x, a ≤ x → x < a + bs.length → w (.byte x) = true)
    (hc : ∀ b, a / 4096 ≤ b → b * 4096 < a + bs.length → w (.check b) = true) : (writePhys a bs).within w d := by
  have hm : ∀ e, (Prog.act (.mem a bs)).within w e := by
    intro e p hp
    cases p <;> simp [Eff.touches] at hp
    exact hb _ hp.1 hp.2
  have hr : ∀ e, (each (blocksOf a bs.length) reCheck).within w e := fun e => within_each (fun b hbk e => by
    simp only [blocksOf] at hbk
    split at hbk
    · simp at hbk
    · simp only [List.mem_map, List.mem_range] at hbk
      obtain ⟨i, hi, rfl⟩ := hbk
      intro p hp
      simp only [Eff.touches, decide_eq_true_eq] at hp
      subst hp
      exact hc _ (by omega) (by omega)) e
  unfold writePhys
  rw [within_look]
  generalize d.phys a = p at h ⊢
  cases p <;> simp [Phys.plain] at h
  · exact ⟨hm _, hr _, trivial⟩
  · exact ⟨hm _, hr _, trivial⟩
  · exact hm _

end Sys2Proof.Machine
end

