-- ==== Sys2Proof/Laws/Writes.lean ====
section
/-! SUPPORT. Which areas of the block a program writes, by the effects that stand in it, whatever the state: every shared operation and every
meaning has one lemma of this form (Laws/Writes*.lean). -/

namespace Sys2Proof.Machine

/-- The number of the area that an effect writes; 40 is the reset of the chip, 41 the loss of power. -/
def Eff.num : Eff → Nat
  | .power _ => 16
  | .mode _ => 17
  | .ctl _ _ => 0
  | .mem _ _ => 1
  | .memClear _ _ => 1
  | .check _ _ => 2
  | .checkClear _ _ => 2
  | .tile _ _ => 3
  | .savedTile _ _ => 4
  | .agent _ _ => 5
  | .mmu _ => 18
  | .chan _ _ => 6
  | .counter _ _ => 7
  | .watch _ _ => 8
  | .peer _ _ => 11
  | .port _ _ => 9
  | .dseq _ _ => 10
  | .xcn _ => 19
  | .sync _ => 20
  | .host _ _ => 12
  | .circ _ _ => 13
  | .found _ => 21
  | .obs _ => 22
  | .tally _ _ => 14
  | .sec _ => 23
  | .job _ => 24
  | .course _ => 25
  | .shore _ => 26
  | .wit _ => 27
  | .slot _ _ => 15
  | .start _ => 28
  | .hold _ => 29
  | .rst _ => 30
  | .clk _ => 31
  | .podTime _ => 32
  | .status _ => 33
  | .draw _ => 34
  | .emit _ => 35
  | .chipReset => 40
  | .powerLoss => 41

/-- The effects that may change an area, as a mask. -/
def Area.mask : Area → Nat
  | .regs => 0x30000000001
  | .memory => 0x20000000002
  | .checks => 0x20000000004
  | .tiles => 0x30000000008
  | .savedTiles => 0x30000000010
  | .agents => 0x20000000020
  | .chans => 0x30000000040
  | .counters => 0x30000000080
  | .watches => 0x30000000100
  | .ports => 0x20000000200
  | .streams => 0x20000000400
  | .peers => 0x20000000800
  | .hosts => 0x20000001000
  | .circ => 0x2000
  | .tallies => 0x30000004000
  | .slots => 0x20000008000
  | .power => 0x20000010000
  | .mode => 0x30000020000
  | .mmu => 0x30000040000
  | .xcn => 0x20000080000
  | .sync => 0x30000100000
  | .found => 0x200000
  | .obs => 0x30000400000
  | .sec => 0x30000800000
  | .job => 0x20001000000
  | .course => 0x30002000000
  | .shore => 0x30004000000
  | .wit => 0x30008000000
  | .start => 0x20010000000
  | .hold => 0x20020000000
  | .rst => 0x30040000000
  | .clk => 0x80000000
  | .podTime => 0x20100000000
  | .status => 0x200000000
  | .free => 0x400000000
  | .out => 0x800000000

/-- Every effect that stands in a program has its number in the mask. -/
def Prog.Writes (m : Nat) : Prog → Prop
  | .done => True
  | .act e => m.testBit e.num = true
  | .seq p q => p.Writes m ∧ q.Writes m
  | .look f => ∀ d, (f d).Writes m

section
variable {m n : Nat}

theorem within_mask (h : n &&& m = n) {k : Nat} (hk : k &&& n = k) : k &&& m = k := by
  rw [← hk, Nat.and_assoc, h]

/-- A mask may grow. -/
theorem Prog.Writes.mono {p : Prog} (h : n &&& m = n) (hp : p.Writes n) : p.Writes m := by
  induction p with
  | done => trivial
  | act e =>
    have := congrArg (Nat.testBit · e.num) h
    have hb : n.testBit e.num = true := hp
    simp only [Nat.testBit_and, hb, Bool.true_and] at this
    exact this
  | seq p q hp' hq' => exact ⟨hp' hp.1, hq' hp.2⟩
  | look f ih => exact fun d => ih d (hp d)

theorem bit_mask (h : n &&& m = n) {k : Nat} (hk : n.testBit k = true) : m.testBit k = true := by
  have := congrArg (Nat.testBit · k) h
  simp only [Nat.testBit_and, hk, Bool.true_and] at this
  exact this

theorem writes_done : Prog.done.Writes m := trivial
theorem writes_act {e : Eff} (h : m.testBit e.num = true) : (Prog.act e).Writes m := h
theorem writes_seq {p q : Prog} (hp : p.Writes m) (hq : q.Writes m) : (Prog.seq p q).Writes m := ⟨hp, hq⟩
theorem writes_look {f : Dev → Prog} (h : ∀ d, (f d).Writes m) : (Prog.look f).Writes m := h
theorem writes_nil : (all []).Writes m := trivial
theorem writes_cons {p : Prog} {ps : List Prog} (hp : p.Writes m) (hq : (all ps).Writes m) : (all (p :: ps)).Writes m := ⟨hp, hq⟩
theorem writes_all {ps : List Prog} (h : ∀ p ∈ ps, p.Writes m) : (all ps).Writes m := by
  induction ps with
  | nil => exact trivial
  | cons p ps ih => exact ⟨h p (by simp), ih fun q hq => h q (by simp [hq])⟩
theorem writes_when {c : Bool} {p : Prog} (h : p.Writes m) : (when c p).Writes m := by
  cases c
  · exact trivial
  · exact h
theorem writes_ite {c : Prop} [Decidable c] {p q : Prog} (hp : p.Writes m) (hq : q.Writes m) : (if c then p else q).Writes m := by
  split
  · exact hp
  · exact hq
theorem writes_each {α : Type} {xs : List α} {f : α → Prog} (h : ∀ x, (f x).Writes m) : (each xs f).Writes m := by
  induction xs with
  | nil => exact trivial
  | cons x xs ih => exact ⟨h x, ih⟩

/-- An effect whose number an area's mask lacks leaves every part of the area alone. -/
theorem Eff.alike_of_mask (e : Eff) (p : Part) (d : Dev) (h : p.area.mask.testBit e.num = false) : d.alike (e.apply d) p := by
  by_cases hc : e.touches p = false
  · exact e.apply_alike d p hc
  · cases e with
    | chipReset => cases p <;> first | rfl | exact absurd h (by simp only [Part.area, Eff.num]; decide)
    | powerLoss => cases p <;> first | rfl | exact absurd h (by simp only [Part.area, Eff.num]; decide)
    | _ => cases p <;> first | exact absurd h (by simp only [Part.area, Eff.num]; decide) | exact absurd rfl hc | exact absurd (by simp [Eff.touches]) hc

/-- A program leaves alone every part of an area that the effects standing in it cannot change. -/
theorem Prog.Writes.alike {p : Part} (hm : m &&& p.area.mask = 0) (q : Prog) : q.Writes m → ∀ d : Dev, d.alike (q.run d) p := by
  induction q with
  | done => exact fun _ d => by cases p <;> rfl
  | act e =>
    intro h d
    refine e.alike_of_mask p d ?_
    cases hb : p.area.mask.testBit e.num
    · rfl
    · have := congrArg (Nat.testBit · e.num) hm
      simp only [Nat.testBit_and, hb, Bool.and_true, Nat.zero_testBit] at this
      have h' : m.testBit e.num = true := h
      rw [h'] at this
      cases this
  | seq a b ha hb => exact fun h d => Dev.alike_trans (ha h.1 d) (hb h.2 _)
  | look f ih => exact fun h d => ih d (h d) d

/-- Every area. -/
def Area.every : List Area :=
  [.regs, .memory, .checks, .tiles, .savedTiles, .agents, .chans, .counters, .watches, .ports, .streams, .peers, .hosts, .circ, .tallies, .slots, .power, .mode,
   .mmu, .xcn, .sync, .found, .obs, .sec, .job, .course, .shore, .wit, .start, .hold, .rst, .clk, .podTime, .status, .free, .out]

theorem Area.mem_every (a : Area) : a ∈ Area.every := by cases a <;> decide

/-- A program with a mask changes parts of some areas at most, where every other area's mask is apart from it. -/
theorem Prog.Writes.areas {as : List Area} {q : Prog} (h : q.Writes m) (hm : Area.every.all (fun a => decide (a ∈ as) || decide (m &&& a.mask = 0)) = true)
    (d : Dev) (p : Part) (hp : Machine.areas as p = false) : d.alike (q.run d) p := by
  refine Prog.Writes.alike ?_ q h d
  have := List.all_eq_true.mp hm _ (Area.mem_every p.area)
  simp only [Machine.areas, decide_eq_false_iff_not] at hp
  simpa [hp] using this

end

end Sys2Proof.Machine
end

