-- ==== Sys2Proof/Laws/Writes1.lean ====
section
/-! SUPPORT. What each shared operation writes (part 1): one lemma per operation, of the areas its effects name. -/

set_option maxRecDepth 16000

namespace Sys2Proof.Machine

theorem put_writes {m : Nat} (hm : 1 &&& m = 1) {a1 : _} {a2 : _} : (put a1 a2).Writes m := by
  unfold put
  repeat' first
    | with_reducible first | exact writes_done | exact writes_nil | refine writes_cons ?_ ?_ | refine writes_seq ?_ ?_ | refine writes_look fun _ => ?_ | refine writes_when ?_ | refine writes_each fun _ => ?_ | refine writes_ite ?_ ?_ | refine writes_act (bit_mask hm ?_)
    | ((with_reducible show Nat.testBit _ (Eff.num _) = true); simp only [Eff.num]; rfl) | split | dsimp only

theorem bump_writes {m : Nat} (hm : 1 &&& m = 1) {a1 : _} {a2 : _} : (bump a1 a2).Writes m := by
  have c0 := @put_writes m (within_mask hm rfl)
  unfold bump
  repeat' first
    | with_reducible first | exact writes_done | exact writes_nil | refine writes_cons ?_ ?_ | refine writes_seq ?_ ?_ | refine writes_look fun _ => ?_ | refine writes_when ?_ | refine writes_each fun _ => ?_ | refine writes_ite ?_ ?_ | exact c0 | refine writes_act (bit_mask hm ?_)
    | ((with_reducible show Nat.testBit _ (Eff.num _) = true); simp only [Eff.num]; rfl) | split | dsimp only

theorem complete_writes {m : Nat} (hm : 8589934592 &&& m = 8589934592) {a1 : _} : (complete a1).Writes m := by
  unfold complete
  repeat' first
    | with_reducible first | exact writes_done | exact writes_nil | refine writes_cons ?_ ?_ | refine writes_seq ?_ ?_ | refine writes_look fun _ => ?_ | refine writes_when ?_ | refine writes_each fun _ => ?_ | refine writes_ite ?_ ?_ | refine writes_act (bit_mask hm ?_)
    | ((with_reducible show Nat.testBit _ (Eff.num _) = true); simp only [Eff.num]; rfl) | split | dsimp only

theorem modAgent_writes {m : Nat} (hm : 32 &&& m = 32) {a1 : _} {a2 : _} : (modAgent a1 a2).Writes m := by
  unfold modAgent
  repeat' first
    | with_reducible first | exact writes_done | exact writes_nil | refine writes_cons ?_ ?_ | refine writes_seq ?_ ?_ | refine writes_look fun _ => ?_ | refine writes_when ?_ | refine writes_each fun _ => ?_ | refine writes_ite ?_ ?_ | refine writes_act (bit_mask hm ?_)
    | ((with_reducible show Nat.testBit _ (Eff.num _) = true); simp only [Eff.num]; rfl) | split | dsimp only

theorem modChan_writes {m : Nat} (hm : 64 &&& m = 64) {a1 : _} {a2 : _} : (modChan a1 a2).Writes m := by
  unfold modChan
  repeat' first
    | with_reducible first | exact writes_done | exact writes_nil | refine writes_cons ?_ ?_ | refine writes_seq ?_ ?_ | refine writes_look fun _ => ?_ | refine writes_when ?_ | refine writes_each fun _ => ?_ | refine writes_ite ?_ ?_ | refine writes_act (bit_mask hm ?_)
    | ((with_reducible show Nat.testBit _ (Eff.num _) = true); simp only [Eff.num]; rfl) | split | dsimp only

theorem modCourse_writes {m : Nat} (hm : 33554432 &&& m = 33554432) {a1 : _} : (modCourse a1).Writes m := by
  unfold modCourse
  repeat' first
    | with_reducible first | exact writes_done | exact writes_nil | refine writes_cons ?_ ?_ | refine writes_seq ?_ ?_ | refine writes_look fun _ => ?_ | refine writes_when ?_ | refine writes_each fun _ => ?_ | refine writes_ite ?_ ?_ | refine writes_act (bit_mask hm ?_)
    | ((with_reducible show Nat.testBit _ (Eff.num _) = true); simp only [Eff.num]; rfl) | split | dsimp only

theorem modHold_writes {m : Nat} (hm : 536870912 &&& m = 536870912) {a1 : _} : (modHold a1).Writes m := by
  unfold modHold
  repeat' first
    | with_reducible first | exact writes_done | exact writes_nil | refine writes_cons ?_ ?_ | refine writes_seq ?_ ?_ | refine writes_look fun _ => ?_ | refine writes_when ?_ | refine writes_each fun _ => ?_ | refine writes_ite ?_ ?_ | refine writes_act (bit_mask hm ?_)
    | ((with_reducible show Nat.testBit _ (Eff.num _) = true); simp only [Eff.num]; rfl) | split | dsimp only

theorem modHost_writes {m : Nat} (hm : 4096 &&& m = 4096) {a1 : _} {a2 : _} : (modHost a1 a2).Writes m := by
  unfold modHost
  repeat' first
    | with_reducible first | exact writes_done | exact writes_nil | refine writes_cons ?_ ?_ | refine writes_seq ?_ ?_ | refine writes_look fun _ => ?_ | refine writes_when ?_ | refine writes_each fun _ => ?_ | refine writes_ite ?_ ?_ | refine writes_act (bit_mask hm ?_)
    | ((with_reducible show Nat.testBit _ (Eff.num _) = true); simp only [Eff.num]; rfl) | split | dsimp only

theorem modJob_writes {m : Nat} (hm : 16777216 &&& m = 16777216) {a1 : _} : (modJob a1).Writes m := by
  unfold modJob
  repeat' first
    | with_reducible first | exact writes_done | exact writes_nil | refine writes_cons ?_ ?_ | refine writes_seq ?_ ?_ | refine writes_look fun _ => ?_ | refine writes_when ?_ | refine writes_each fun _ => ?_ | refine writes_ite ?_ ?_ | refine writes_act (bit_mask hm ?_)
    | ((with_reducible show Nat.testBit _ (Eff.num _) = true); simp only [Eff.num]; rfl) | split | dsimp only

theorem modMmu_writes {m : Nat} (hm : 262144 &&& m = 262144) {a1 : _} : (modMmu a1).Writes m := by
  unfold modMmu
  repeat' first
    | with_reducible first | exact writes_done | exact writes_nil | refine writes_cons ?_ ?_ | refine writes_seq ?_ ?_ | refine writes_look fun _ => ?_ | refine writes_when ?_ | refine writes_each fun _ => ?_ | refine writes_ite ?_ ?_ | refine writes_act (bit_mask hm ?_)
    | ((with_reducible show Nat.testBit _ (Eff.num _) = true); simp only [Eff.num]; rfl) | split | dsimp only

theorem modMode_writes {m : Nat} (hm : 131072 &&& m = 131072) {a1 : _} : (modMode a1).Writes m := by
  unfold modMode
  repeat' first
    | with_reducible first | exact writes_done | exact writes_nil | refine writes_cons ?_ ?_ | refine writes_seq ?_ ?_ | refine writes_look fun _ => ?_ | refine writes_when ?_ | refine writes_each fun _ => ?_ | refine writes_ite ?_ ?_ | refine writes_act (bit_mask hm ?_)
    | ((with_reducible show Nat.testBit _ (Eff.num _) = true); simp only [Eff.num]; rfl) | split | dsimp only

theorem modObs_writes {m : Nat} (hm : 4194304 &&& m = 4194304) {a1 : _} : (modObs a1).Writes m := by
  unfold modObs
  repeat' first
    | with_reducible first | exact writes_done | exact writes_nil | refine writes_cons ?_ ?_ | refine writes_seq ?_ ?_ | refine writes_look fun _ => ?_ | refine writes_when ?_ | refine writes_each fun _ => ?_ | refine writes_ite ?_ ?_ | refine writes_act (bit_mask hm ?_)
    | ((with_reducible show Nat.testBit _ (Eff.num _) = true); simp only [Eff.num]; rfl) | split | dsimp only

theorem modPeer_writes {m : Nat} (hm : 2048 &&& m = 2048) {a1 : _} {a2 : _} : (modPeer a1 a2).Writes m := by
  unfold modPeer
  repeat' first
    | with_reducible first | exact writes_done | exact writes_nil | refine writes_cons ?_ ?_ | refine writes_seq ?_ ?_ | refine writes_look fun _ => ?_ | refine writes_when ?_ | refine writes_each fun _ => ?_ | refine writes_ite ?_ ?_ | refine writes_act (bit_mask hm ?_)
    | ((with_reducible show Nat.testBit _ (Eff.num _) = true); simp only [Eff.num]; rfl) | split | dsimp only

theorem modPort_writes {m : Nat} (hm : 512 &&& m = 512) {a1 : _} {a2 : _} : (modPort a1 a2).Writes m := by
  unfold modPort
  repeat' first
    | with_reducible first | exact writes_done | exact writes_nil | refine writes_cons ?_ ?_ | refine writes_seq ?_ ?_ | refine writes_look fun _ => ?_ | refine writes_when ?_ | refine writes_each fun _ => ?_ | refine writes_ite ?_ ?_ | refine writes_act (bit_mask hm ?_)
    | ((with_reducible show Nat.testBit _ (Eff.num _) = true); simp only [Eff.num]; rfl) | split | dsimp only

theorem modPower_writes {m : Nat} (hm : 65536 &&& m = 65536) {a1 : _} : (modPower a1).Writes m := by
  unfold modPower
  repeat' first
    | with_reducible first | exact writes_done | exact writes_nil | refine writes_cons ?_ ?_ | refine writes_seq ?_ ?_ | refine writes_look fun _ => ?_ | refine writes_when ?_ | refine writes_each fun _ => ?_ | refine writes_ite ?_ ?_ | refine writes_act (bit_mask hm ?_)
    | ((with_reducible show Nat.testBit _ (Eff.num _) = true); simp only [Eff.num]; rfl) | split | dsimp only

theorem modRst_writes {m : Nat} (hm : 1073741824 &&& m = 1073741824) {a1 : _} : (modRst a1).Writes m := by
  unfold modRst
  repeat' first
    | with_reducible first | exact writes_done | exact writes_nil | refine writes_cons ?_ ?_ | refine writes_seq ?_ ?_ | refine writes_look fun _ => ?_ | refine writes_when ?_ | refine writes_each fun _ => ?_ | refine writes_ite ?_ ?_ | refine writes_act (bit_mask hm ?_)
    | ((with_reducible show Nat.testBit _ (Eff.num _) = true); simp only [Eff.num]; rfl) | split | dsimp only

theorem modSec_writes {m : Nat} (hm : 8388608 &&& m = 8388608) {a1 : _} : (modSec a1).Writes m := by
  unfold modSec
  repeat' first
    | with_reducible first | exact writes_done | exact writes_nil | refine writes_cons ?_ ?_ | refine writes_seq ?_ ?_ | refine writes_look fun _ => ?_ | refine writes_when ?_ | refine writes_each fun _ => ?_ | refine writes_ite ?_ ?_ | refine writes_act (bit_mask hm ?_)
    | ((with_reducible show Nat.testBit _ (Eff.num _) = true); simp only [Eff.num]; rfl) | split | dsimp only

theorem modShore_writes {m : Nat} (hm : 67108864 &&& m = 67108864) {a1 : _} : (modShore a1).Writes m := by
  unfold modShore
  repeat' first
    | with_reducible first | exact writes_done | exact writes_nil | refine writes_cons ?_ ?_ | refine writes_seq ?_ ?_ | refine writes_look fun _ => ?_ | refine writes_when ?_ | refine writes_each fun _ => ?_ | refine writes_ite ?_ ?_ | refine writes_act (bit_mask hm ?_)
    | ((with_reducible show Nat.testBit _ (Eff.num _) = true); simp only [Eff.num]; rfl) | split | dsimp only

theorem modSlot_writes {m : Nat} (hm : 32768 &&& m = 32768) {a1 : _} {a2 : _} : (modSlot a1 a2).Writes m := by
  unfold modSlot
  repeat' first
    | with_reducible first | exact writes_done | exact writes_nil | refine writes_cons ?_ ?_ | refine writes_seq ?_ ?_ | refine writes_look fun _ => ?_ | refine writes_when ?_ | refine writes_each fun _ => ?_ | refine writes_ite ?_ ?_ | refine writes_act (bit_mask hm ?_)
    | ((with_reducible show Nat.testBit _ (Eff.num _) = true); simp only [Eff.num]; rfl) | split | dsimp only

theorem modStart_writes {m : Nat} (hm : 268435456 &&& m = 268435456) {a1 : _} : (modStart a1).Writes m := by
  unfold modStart
  repeat' first
    | with_reducible first | exact writes_done | exact writes_nil | refine writes_cons ?_ ?_ | refine writes_seq ?_ ?_ | refine writes_look fun _ => ?_ | refine writes_when ?_ | refine writes_each fun _ => ?_ | refine writes_ite ?_ ?_ | refine writes_act (bit_mask hm ?_)
    | ((with_reducible show Nat.testBit _ (Eff.num _) = true); simp only [Eff.num]; rfl) | split | dsimp only

theorem modStream_writes {m : Nat} (hm : 1024 &&& m = 1024) {a1 : _} {a2 : _} : (modStream a1 a2).Writes m := by
  unfold modStream
  repeat' first
    | with_reducible first | exact writes_done | exact writes_nil | refine writes_cons ?_ ?_ | refine writes_seq ?_ ?_ | refine writes_look fun _ => ?_ | refine writes_when ?_ | refine writes_each fun _ => ?_ | refine writes_ite ?_ ?_ | refine writes_act (bit_mask hm ?_)
    | ((with_reducible show Nat.testBit _ (Eff.num _) = true); simp only [Eff.num]; rfl) | split | dsimp only

theorem modSync_writes {m : Nat} (hm : 1048576 &&& m = 1048576) {a1 : _} : (modSync a1).Writes m := by
  unfold modSync
  repeat' first
    | with_reducible first | exact writes_done | exact writes_nil | refine writes_cons ?_ ?_ | refine writes_seq ?_ ?_ | refine writes_look fun _ => ?_ | refine writes_when ?_ | refine writes_each fun _ => ?_ | refine writes_ite ?_ ?_ | refine writes_act (bit_mask hm ?_)
    | ((with_reducible show Nat.testBit _ (Eff.num _) = true); simp only [Eff.num]; rfl) | split | dsimp only

theorem modTile_writes {m : Nat} (hm : 8 &&& m = 8) {a1 : _} {a2 : _} : (modTile a1 a2).Writes m := by
  unfold modTile
  repeat' first
    | with_reducible first | exact writes_done | exact writes_nil | refine writes_cons ?_ ?_ | refine writes_seq ?_ ?_ | refine writes_look fun _ => ?_ | refine writes_when ?_ | refine writes_each fun _ => ?_ | refine writes_ite ?_ ?_ | refine writes_act (bit_mask hm ?_)
    | ((with_reducible show Nat.testBit _ (Eff.num _) = true); simp only [Eff.num]; rfl) | split | dsimp only

theorem modWit_writes {m : Nat} (hm : 134217728 &&& m = 134217728) {a1 : _} : (modWit a1).Writes m := by
  unfold modWit
  repeat' first
    | with_reducible first | exact writes_done | exact writes_nil | refine writes_cons ?_ ?_ | refine writes_seq ?_ ?_ | refine writes_look fun _ => ?_ | refine writes_when ?_ | refine writes_each fun _ => ?_ | refine writes_ite ?_ ?_ | refine writes_act (bit_mask hm ?_)
    | ((with_reducible show Nat.testBit _ (Eff.num _) = true); simp only [Eff.num]; rfl) | split | dsimp only

theorem modXcn_writes {m : Nat} (hm : 524288 &&& m = 524288) {a1 : _} : (modXcn a1).Writes m := by
  unfold modXcn
  repeat' first
    | with_reducible first | exact writes_done | exact writes_nil | refine writes_cons ?_ ?_ | refine writes_seq ?_ ?_ | refine writes_look fun _ => ?_ | refine writes_when ?_ | refine writes_each fun _ => ?_ | refine writes_ite ?_ ?_ | refine writes_act (bit_mask hm ?_)
    | ((with_reducible show Nat.testBit _ (Eff.num _) = true); simp only [Eff.num]; rfl) | split | dsimp only

theorem send_writes {m : Nat} (hm : 34359738368 &&& m = 34359738368) {a1 : _} {a2 : _} {a3 : _} {a4 : _} : (send a1 a2 a3 a4).Writes m := by
  unfold send
  repeat' first
    | with_reducible first | exact writes_done | exact writes_nil | refine writes_cons ?_ ?_ | refine writes_seq ?_ ?_ | refine writes_look fun _ => ?_ | refine writes_when ?_ | refine writes_each fun _ => ?_ | refine writes_ite ?_ ?_ | refine writes_act (bit_mask hm ?_)
    | ((with_reducible show Nat.testBit _ (Eff.num _) = true); simp only [Eff.num]; rfl) | split | dsimp only

theorem tally_writes {m : Nat} (hm : 16384 &&& m = 16384) {a1 : _} {a2 : _} : (tally a1 a2).Writes m := by
  unfold tally
  repeat' first
    | with_reducible first | exact writes_done | exact writes_nil | refine writes_cons ?_ ?_ | refine writes_seq ?_ ?_ | refine writes_look fun _ => ?_ | refine writes_when ?_ | refine writes_each fun _ => ?_ | refine writes_ite ?_ ?_ | refine writes_act (bit_mask hm ?_)
    | ((with_reducible show Nat.testBit _ (Eff.num _) = true); simp only [Eff.num]; rfl) | split | dsimp only

theorem tallyClass_writes {m : Nat} (hm : 16384 &&& m = 16384) {a1 : _} {a2 : _} : (tallyClass a1 a2).Writes m := by
  have c0 := @tally_writes m (within_mask hm rfl)
  unfold tallyClass
  repeat' first
    | with_reducible first | exact writes_done | exact writes_nil | refine writes_cons ?_ ?_ | refine writes_seq ?_ ?_ | refine writes_look fun _ => ?_ | refine writes_when ?_ | refine writes_each fun _ => ?_ | refine writes_ite ?_ ?_ | exact c0 | refine writes_act (bit_mask hm ?_)
    | ((with_reducible show Nat.testBit _ (Eff.num _) = true); simp only [Eff.num]; rfl) | split | dsimp only

theorem tallySlot_writes {m : Nat} (hm : 16384 &&& m = 16384) {a1 : _} {a2 : _} {a3 : _} : (tallySlot a1 a2 a3).Writes m := by
  have c0 := @tally_writes m (within_mask hm rfl)
  unfold tallySlot
  repeat' first
    | with_reducible first | exact writes_done | exact writes_nil | refine writes_cons ?_ ?_ | refine writes_seq ?_ ?_ | refine writes_look fun _ => ?_ | refine writes_when ?_ | refine writes_each fun _ => ?_ | refine writes_ite ?_ ?_ | exact c0 | refine writes_act (bit_mask hm ?_)
    | ((with_reducible show Nat.testBit _ (Eff.num _) = true); simp only [Eff.num]; rfl) | split | dsimp only

theorem withFree_writes {m : Nat} (hm : 17179869184 &&& m = 17179869184) {a1 : _} (h1 : ∀ x0, (a1 x0).Writes m) : (withFree a1).Writes m := by
  unfold withFree
  repeat' first
    | with_reducible first | exact writes_done | exact writes_nil | refine writes_cons ?_ ?_ | refine writes_seq ?_ ?_ | refine writes_look fun _ => ?_ | refine writes_when ?_ | refine writes_each fun _ => ?_ | refine writes_ite ?_ ?_ | exact h1 _ | refine writes_act (bit_mask hm ?_)
    | ((with_reducible show Nat.testBit _ (Eff.num _) = true); simp only [Eff.num]; rfl) | split | dsimp only

theorem withFrees_writes {m : Nat} (hm : 17179869184 &&& m = 17179869184) {a1 : _} {a2 : _} (h2 : ∀ x0, (a2 x0).Writes m) : (withFrees a1 a2).Writes m := by
  unfold withFrees
  repeat' first
    | with_reducible first | exact writes_done | exact writes_nil | refine writes_cons ?_ ?_ | refine writes_seq ?_ ?_ | refine writes_look fun _ => ?_ | refine writes_when ?_ | refine writes_each fun _ => ?_ | refine writes_ite ?_ ?_ | exact h2 _ | refine writes_act (bit_mask hm ?_)
    | ((with_reducible show Nat.testBit _ (Eff.num _) = true); simp only [Eff.num]; rfl) | split | dsimp only

theorem copyPhys_writes {m : Nat} (hm : 6 &&& m = 6) {a1 : _} {a2 : _} {a3 : _} : (copyPhys a1 a2 a3).Writes m := by
  unfold copyPhys
  repeat' first
    | with_reducible first | exact writes_done | exact writes_nil | refine writes_cons ?_ ?_ | refine writes_seq ?_ ?_ | refine writes_look fun _ => ?_ | refine writes_when ?_ | refine writes_each fun _ => ?_ | refine writes_ite ?_ ?_ | refine writes_act (bit_mask hm ?_)
    | ((with_reducible show Nat.testBit _ (Eff.num _) = true); simp only [Eff.num]; rfl) | split | dsimp only

theorem copyRaw_writes {m : Nat} (hm : 2 &&& m = 2) {a1 : _} {a2 : _} {a3 : _} : (copyRaw a1 a2 a3).Writes m := by
  unfold copyRaw
  repeat' first
    | with_reducible first | exact writes_done | exact writes_nil | refine writes_cons ?_ ?_ | refine writes_seq ?_ ?_ | refine writes_look fun _ => ?_ | refine writes_when ?_ | refine writes_each fun _ => ?_ | refine writes_ite ?_ ?_ | refine writes_act (bit_mask hm ?_)
    | ((with_reducible show Nat.testBit _ (Eff.num _) = true); simp only [Eff.num]; rfl) | split | dsimp only

theorem zeroPhys_writes {m : Nat} (hm : 6 &&& m = 6) {a1 : _} {a2 : _} : (zeroPhys a1 a2).Writes m := by
  unfold zeroPhys
  repeat' first
    | with_reducible first | exact writes_done | exact writes_nil | refine writes_cons ?_ ?_ | refine writes_seq ?_ ?_ | refine writes_look fun _ => ?_ | refine writes_when ?_ | refine writes_each fun _ => ?_ | refine writes_ite ?_ ?_ | refine writes_act (bit_mask hm ?_)
    | ((with_reducible show Nat.testBit _ (Eff.num _) = true); simp only [Eff.num]; rfl) | split | dsimp only

theorem newTable_writes {m : Nat} (hm : 262150 &&& m = 262150) {a1 : _} (h1 : ∀ x0, (a1 x0).Writes m) : (newTable a1).Writes m := by
  have c0 := @modMmu_writes m (within_mask hm rfl)
  have c1 := @zeroPhys_writes m (within_mask hm rfl)
  unfold newTable
  repeat' first
    | with_reducible first | exact writes_done | exact writes_nil | refine writes_cons ?_ ?_ | refine writes_seq ?_ ?_ | refine writes_look fun _ => ?_ | refine writes_when ?_ | refine writes_each fun _ => ?_ | refine writes_ite ?_ ?_ | exact c0 | exact c1 | exact h1 _ | refine writes_act (bit_mask hm ?_)
    | ((with_reducible show Nat.testBit _ (Eff.num _) = true); simp only [Eff.num]; rfl) | split | dsimp only

theorem reCheck_writes {m : Nat} (hm : 4 &&& m = 4) {a1 : _} : (reCheck a1).Writes m := by
  unfold reCheck
  repeat' first
    | with_reducible first | exact writes_done | exact writes_nil | refine writes_cons ?_ ?_ | refine writes_seq ?_ ?_ | refine writes_look fun _ => ?_ | refine writes_when ?_ | refine writes_each fun _ => ?_ | refine writes_ite ?_ ?_ | refine writes_act (bit_mask hm ?_)
    | ((with_reducible show Nat.testBit _ (Eff.num _) = true); simp only [Eff.num]; rfl) | split | dsimp only

theorem writeCheckByte_writes {m : Nat} (hm : 4 &&& m = 4) {a1 : _} {a2 : _} : (writeCheckByte a1 a2).Writes m := by
  unfold writeCheckByte
  repeat' first
    | with_reducible first | exact writes_done | exact writes_nil | refine writes_cons ?_ ?_ | refine writes_seq ?_ ?_ | refine writes_look fun _ => ?_ | refine writes_when ?_ | refine writes_each fun _ => ?_ | refine writes_ite ?_ ?_ | refine writes_act (bit_mask hm ?_)
    | ((with_reducible show Nat.testBit _ (Eff.num _) = true); simp only [Eff.num]; rfl) | split | dsimp only

theorem writePhys_writes {m : Nat} (hm : 6 &&& m = 6) {a1 : _} {a2 : _} : (writePhys a1 a2).Writes m := by
  have c0 := @reCheck_writes m (within_mask hm rfl)
  have c1 := @writeCheckByte_writes m (within_mask hm rfl)
  unfold writePhys
  repeat' first
    | with_reducible first | exact writes_done | exact writes_nil | refine writes_cons ?_ ?_ | refine writes_seq ?_ ?_ | refine writes_look fun _ => ?_ | refine writes_when ?_ | refine writes_each fun _ => ?_ | refine writes_ite ?_ ?_ | exact c0 | exact c1 | refine writes_act (bit_mask hm ?_)
    | ((with_reducible show Nat.testBit _ (Eff.num _) = true); simp only [Eff.num]; rfl) | split | dsimp only

theorem writePhysNat_writes {m : Nat} (hm : 6 &&& m = 6) {a1 : _} {a2 : _} {a3 : _} : (writePhysNat a1 a2 a3).Writes m := by
  have c0 := @writePhys_writes m (within_mask hm rfl)
  unfold writePhysNat
  repeat' first
    | with_reducible first | exact writes_done | exact writes_nil | refine writes_cons ?_ ?_ | refine writes_seq ?_ ?_ | refine writes_look fun _ => ?_ | refine writes_when ?_ | refine writes_each fun _ => ?_ | refine writes_ite ?_ ?_ | exact c0 | refine writes_act (bit_mask hm ?_)
    | ((with_reducible show Nat.testBit _ (Eff.num _) = true); simp only [Eff.num]; rfl) | split | dsimp only

theorem withLeaf_writes {m : Nat} (hm : 262150 &&& m = 262150) {a1 : _} {a2 : _} {a3 : _} {a4 : _} {a5 : _} {a6 : _} (h3 : ∀ x0, (a3 x0).Writes m) : (withLeaf a1 a2 a3 a4 a5 a6).Writes m := by
  have c0 := @newTable_writes m (within_mask hm rfl)
  have c1 := @writePhysNat_writes m (within_mask hm rfl)
  induction a4 generalizing a1 a2 a5 a6 with
  | zero =>
    unfold withLeaf
    repeat' first
      | with_reducible first | exact writes_done | exact writes_nil | refine writes_cons ?_ ?_ | refine writes_seq ?_ ?_ | refine writes_look fun _ => ?_ | refine writes_when ?_ | refine writes_each fun _ => ?_ | refine writes_ite ?_ ?_ | refine c0 (fun _ => ?_) | exact c1 | exact h3 _ | refine writes_act (bit_mask hm ?_)
      | ((with_reducible show Nat.testBit _ (Eff.num _) = true); simp only [Eff.num]; rfl) | split | dsimp only
  | succ k ih =>
    unfold withLeaf
    repeat' first
      | with_reducible first | apply ih | exact writes_done | exact writes_nil | refine writes_cons ?_ ?_ | refine writes_seq ?_ ?_ | refine writes_look fun _ => ?_ | refine writes_when ?_ | refine writes_each fun _ => ?_ | refine writes_ite ?_ ?_ | refine c0 (fun _ => ?_) | exact c1 | exact h3 _ | refine writes_act (bit_mask hm ?_)
      | ((with_reducible show Nat.testBit _ (Eff.num _) = true); simp only [Eff.num]; rfl) | split | dsimp only

theorem editLeaf_writes {m : Nat} (hm : 262150 &&& m = 262150) {a1 : _} {a2 : _} {a3 : _} : (editLeaf a1 a2 a3).Writes m := by
  have c0 := @withLeaf_writes m (within_mask hm rfl)
  have c1 := @writePhysNat_writes m (within_mask hm rfl)
  unfold editLeaf
  repeat' first
    | with_reducible first | exact writes_done | exact writes_nil | refine writes_cons ?_ ?_ | refine writes_seq ?_ ?_ | refine writes_look fun _ => ?_ | refine writes_when ?_ | refine writes_each fun _ => ?_ | refine writes_ite ?_ ?_ | refine c0 (fun _ => ?_) | exact c1 | refine writes_act (bit_mask hm ?_)
    | ((with_reducible show Nat.testBit _ (Eff.num _) = true); simp only [Eff.num]; rfl) | split | dsimp only

theorem mapPage_writes {m : Nat} (hm : 262151 &&& m = 262151) {a1 : _} {a2 : _} {a3 : _} {a4 : _} : (mapPage a1 a2 a3 a4).Writes m := by
  have c0 := @newTable_writes m (within_mask hm rfl)
  have c1 := @put_writes m (within_mask hm rfl)
  have c2 := @withLeaf_writes m (within_mask hm rfl)
  have c3 := @writePhysNat_writes m (within_mask hm rfl)
  unfold mapPage
  repeat' first
    | with_reducible first | exact writes_done | exact writes_nil | refine writes_cons ?_ ?_ | refine writes_seq ?_ ?_ | refine writes_look fun _ => ?_ | refine writes_when ?_ | refine writes_each fun _ => ?_ | refine writes_ite ?_ ?_ | refine c0 (fun _ => ?_) | exact c1 | refine c2 (fun _ => ?_) | exact c3 | refine writes_act (bit_mask hm ?_)
    | ((with_reducible show Nat.testBit _ (Eff.num _) = true); simp only [Eff.num]; rfl) | split | dsimp only

theorem touchLeaf_writes {m : Nat} (hm : 6 &&& m = 6) {a1 : _} {a2 : _} : (touchLeaf a1 a2).Writes m := by
  have c0 := @writePhysNat_writes m (within_mask hm rfl)
  unfold touchLeaf
  repeat' first
    | with_reducible first | exact writes_done | exact writes_nil | refine writes_cons ?_ ?_ | refine writes_seq ?_ ?_ | refine writes_look fun _ => ?_ | refine writes_when ?_ | refine writes_each fun _ => ?_ | refine writes_ite ?_ ?_ | exact c0 | refine writes_act (bit_mask hm ?_)
    | ((with_reducible show Nat.testBit _ (Eff.num _) = true); simp only [Eff.num]; rfl) | split | dsimp only

theorem freeHost_writes {m : Nat} (hm : 4097 &&& m = 4097) {a1 : _} : (freeHost a1).Writes m := by
  have c0 := @modHost_writes m (within_mask hm rfl)
  unfold freeHost
  repeat' first
    | with_reducible first | exact writes_done | exact writes_nil | refine writes_cons ?_ ?_ | refine writes_seq ?_ ?_ | refine writes_look fun _ => ?_ | refine writes_when ?_ | refine writes_each fun _ => ?_ | refine writes_ite ?_ ?_ | exact c0 | refine writes_act (bit_mask hm ?_)
    | ((with_reducible show Nat.testBit _ (Eff.num _) = true); simp only [Eff.num]; rfl) | split | dsimp only

theorem sendDatagram_writes {m : Nat} (hm : 34359758848 &&& m = 34359758848) {a1 : _} {a2 : _} : (sendDatagram a1 a2).Writes m := by
  have c0 := @modHost_writes m (within_mask hm rfl)
  have c1 := @send_writes m (within_mask hm rfl)
  have c2 := @tally_writes m (within_mask hm rfl)
  unfold sendDatagram
  repeat' first
    | with_reducible first | exact writes_done | exact writes_nil | refine writes_cons ?_ ?_ | refine writes_seq ?_ ?_ | refine writes_look fun _ => ?_ | refine writes_when ?_ | refine writes_each fun _ => ?_ | refine writes_ite ?_ ?_ | exact c0 | exact c1 | exact c2 | refine writes_act (bit_mask hm ?_)
    | ((with_reducible show Nat.testBit _ (Eff.num _) = true); simp only [Eff.num]; rfl) | split | dsimp only

theorem closeHost_writes {m : Nat} (hm : 34359758849 &&& m = 34359758849) {a1 : _} {a2 : _} : (closeHost a1 a2).Writes m := by
  have c0 := @freeHost_writes m (within_mask hm rfl)
  have c1 := @sendDatagram_writes m (within_mask hm rfl)
  unfold closeHost
  repeat' first
    | with_reducible first | exact writes_done | exact writes_nil | refine writes_cons ?_ ?_ | refine writes_seq ?_ ?_ | refine writes_look fun _ => ?_ | refine writes_when ?_ | refine writes_each fun _ => ?_ | refine writes_ite ?_ ?_ | exact c0 | exact c1 | refine writes_act (bit_mask hm ?_)
    | ((with_reducible show Nat.testBit _ (Eff.num _) = true); simp only [Eff.num]; rfl) | split | dsimp only

theorem sendPkt_writes {m : Nat} (hm : 34359758849 &&& m = 34359758849) {a1 : _} {a2 : _} : (sendPkt a1 a2).Writes m := by
  have c0 := @closeHost_writes m (within_mask hm rfl)
  have c1 := @sendDatagram_writes m (within_mask hm rfl)
  unfold sendPkt
  repeat' first
    | with_reducible first | exact writes_done | exact writes_nil | refine writes_cons ?_ ?_ | refine writes_seq ?_ ?_ | refine writes_look fun _ => ?_ | refine writes_when ?_ | refine writes_each fun _ => ?_ | refine writes_ite ?_ ?_ | exact c0 | exact c1 | refine writes_act (bit_mask hm ?_)
    | ((with_reducible show Nat.testBit _ (Eff.num _) = true); simp only [Eff.num]; rfl) | split | dsimp only

theorem pumpSession_writes {m : Nat} (hm : 34359758849 &&& m = 34359758849) {a1 : _} {a2 : _} : (pumpSession a1 a2).Writes m := by
  have c0 := @modHost_writes m (within_mask hm rfl)
  have c1 := @put_writes m (within_mask hm rfl)
  have c2 := @sendPkt_writes m (within_mask hm rfl)
  induction a2 generalizing a1 with
  | zero =>
    unfold pumpSession
    repeat' first
      | with_reducible first | exact writes_done | exact writes_nil | refine writes_cons ?_ ?_ | refine writes_seq ?_ ?_ | refine writes_look fun _ => ?_ | refine writes_when ?_ | refine writes_each fun _ => ?_ | refine writes_ite ?_ ?_ | exact c0 | exact c1 | exact c2 | refine writes_act (bit_mask hm ?_)
      | ((with_reducible show Nat.testBit _ (Eff.num _) = true); simp only [Eff.num]; rfl) | split | dsimp only
  | succ k ih =>
    unfold pumpSession
    repeat' first
      | with_reducible first | apply ih | exact writes_done | exact writes_nil | refine writes_cons ?_ ?_ | refine writes_seq ?_ ?_ | refine writes_look fun _ => ?_ | refine writes_when ?_ | refine writes_each fun _ => ?_ | refine writes_ite ?_ ?_ | exact c0 | exact c1 | exact c2 | refine writes_act (bit_mask hm ?_)
      | ((with_reducible show Nat.testBit _ (Eff.num _) = true); simp only [Eff.num]; rfl) | split | dsimp only

theorem pump_writes {m : Nat} (hm : 34359758849 &&& m = 34359758849) {a1 : _} : (pump a1).Writes m := by
  have c0 := @pumpSession_writes m (within_mask hm rfl)
  unfold pump
  repeat' first
    | with_reducible first | exact writes_done | exact writes_nil | refine writes_cons ?_ ?_ | refine writes_seq ?_ ?_ | refine writes_look fun _ => ?_ | refine writes_when ?_ | refine writes_each fun _ => ?_ | refine writes_ite ?_ ?_ | exact c0 | refine writes_act (bit_mask hm ?_)
    | ((with_reducible show Nat.testBit _ (Eff.num _) = true); simp only [Eff.num]; rfl) | split | dsimp only

theorem answer_writes {m : Nat} (hm : 34359758849 &&& m = 34359758849) {a1 : _} {a2 : _} {a3 : _} {a4 : _} {a5 : _} {a6 : _} : (answer a1 a2 a3 a4 a5 a6).Writes m := by
  have c0 := @modHost_writes m (within_mask hm rfl)
  have c1 := @pump_writes m (within_mask hm rfl)
  unfold answer
  repeat' first
    | with_reducible first | exact writes_done | exact writes_nil | refine writes_cons ?_ ?_ | refine writes_seq ?_ ?_ | refine writes_look fun _ => ?_ | refine writes_when ?_ | refine writes_each fun _ => ?_ | refine writes_ite ?_ ?_ | exact c0 | exact c1 | refine writes_act (bit_mask hm ?_)
    | ((with_reducible show Nat.testBit _ (Eff.num _) = true); simp only [Eff.num]; rfl) | split | dsimp only

theorem beginTransit_writes {m : Nat} (hm : 131072 &&& m = 131072) {a1 : _} : (beginTransit a1).Writes m := by
  have c0 := @modMode_writes m (within_mask hm rfl)
  unfold beginTransit
  repeat' first
    | with_reducible first | exact writes_done | exact writes_nil | refine writes_cons ?_ ?_ | refine writes_seq ?_ ?_ | refine writes_look fun _ => ?_ | refine writes_when ?_ | refine writes_each fun _ => ?_ | refine writes_ite ?_ ?_ | exact c0 | refine writes_act (bit_mask hm ?_)
    | ((with_reducible show Nat.testBit _ (Eff.num _) = true); simp only [Eff.num]; rfl) | split | dsimp only

theorem endTransit_writes {m : Nat} (hm : 131072 &&& m = 131072) : (endTransit).Writes m := by
  have c0 := @modMode_writes m (within_mask hm rfl)
  unfold endTransit
  repeat' first
    | with_reducible first | exact writes_done | exact writes_nil | refine writes_cons ?_ ?_ | refine writes_seq ?_ ?_ | refine writes_look fun _ => ?_ | refine writes_when ?_ | refine writes_each fun _ => ?_ | refine writes_ite ?_ ?_ | exact c0 | refine writes_act (bit_mask hm ?_)
    | ((with_reducible show Nat.testBit _ (Eff.num _) = true); simp only [Eff.num]; rfl) | split | dsimp only

theorem noticeTo_writes {m : Nat} (hm : 34359758849 &&& m = 34359758849) {a1 : _} {a2 : _} {a3 : _} {a4 : _} : (noticeTo a1 a2 a3 a4).Writes m := by
  have c0 := @modHost_writes m (within_mask hm rfl)
  have c1 := @pump_writes m (within_mask hm rfl)
  have c2 := @put_writes m (within_mask hm rfl)
  unfold noticeTo
  repeat' first
    | with_reducible first | exact writes_done | exact writes_nil | refine writes_cons ?_ ?_ | refine writes_seq ?_ ?_ | refine writes_look fun _ => ?_ | refine writes_when ?_ | refine writes_each fun _ => ?_ | refine writes_ite ?_ ?_ | exact c0 | exact c1 | exact c2 | refine writes_act (bit_mask hm ?_)
    | ((with_reducible show Nat.testBit _ (Eff.num _) = true); simp only [Eff.num]; rfl) | split | dsimp only

theorem guestDiscarded_writes {m : Nat} (hm : 34359758849 &&& m = 34359758849) {a1 : _} {a2 : _} : (guestDiscarded a1 a2).Writes m := by
  have c0 := @noticeTo_writes m (within_mask hm rfl)
  unfold guestDiscarded
  repeat' first
    | with_reducible first | exact writes_done | exact writes_nil | refine writes_cons ?_ ?_ | refine writes_seq ?_ ?_ | refine writes_look fun _ => ?_ | refine writes_when ?_ | refine writes_each fun _ => ?_ | refine writes_ite ?_ ?_ | exact c0 | refine writes_act (bit_mask hm ?_)
    | ((with_reducible show Nat.testBit _ (Eff.num _) = true); simp only [Eff.num]; rfl) | split | dsimp only

theorem notice_writes {m : Nat} (hm : 34359758849 &&& m = 34359758849) {a1 : _} {a2 : _} {a3 : _} : (notice a1 a2 a3).Writes m := by
  have c0 := @noticeTo_writes m (within_mask hm rfl)
  unfold notice
  repeat' first
    | with_reducible first | exact writes_done | exact writes_nil | refine writes_cons ?_ ?_ | refine writes_seq ?_ ?_ | refine writes_look fun _ => ?_ | refine writes_when ?_ | refine writes_each fun _ => ?_ | refine writes_ite ?_ ?_ | exact c0 | refine writes_act (bit_mask hm ?_)
    | ((with_reducible show Nat.testBit _ (Eff.num _) = true); simp only [Eff.num]; rfl) | split | dsimp only

theorem raise_writes {m : Nat} (hm : 34359758849 &&& m = 34359758849) {a1 : _} {a2 : _} : (raise a1 a2).Writes m := by
  have c0 := @notice_writes m (within_mask hm rfl)
  have c1 := @put_writes m (within_mask hm rfl)
  unfold raise
  repeat' first
    | with_reducible first | exact writes_done | exact writes_nil | refine writes_cons ?_ ?_ | refine writes_seq ?_ ?_ | refine writes_look fun _ => ?_ | refine writes_when ?_ | refine writes_each fun _ => ?_ | refine writes_ite ?_ ?_ | exact c0 | exact c1 | refine writes_act (bit_mask hm ?_)
    | ((with_reducible show Nat.testBit _ (Eff.num _) = true); simp only [Eff.num]; rfl) | split | dsimp only

theorem writeRecord_writes {m : Nat} (hm : 34361864193 &&& m = 34361864193) {a1 : _} {a2 : _} {a3 : _} {a4 : _} : (writeRecord a1 a2 a3 a4).Writes m := by
  have c0 := @put_writes m (within_mask hm rfl)
  have c1 := @raise_writes m (within_mask hm rfl)
  have c2 := @send_writes m (within_mask hm rfl)
  unfold writeRecord
  repeat' first
    | with_reducible first | exact writes_done | exact writes_nil | refine writes_cons ?_ ?_ | refine writes_seq ?_ ?_ | refine writes_look fun _ => ?_ | refine writes_when ?_ | refine writes_each fun _ => ?_ | refine writes_ite ?_ ?_ | exact c0 | exact c1 | exact c2 | refine writes_act (bit_mask hm ?_)
    | ((with_reducible show Nat.testBit _ (Eff.num _) = true); simp only [Eff.num]; rfl) | split | dsimp only

theorem record_writes {m : Nat} (hm : 34366058497 &&& m = 34366058497) {a1 : _} {a2 : _} {a3 : _} {a4 : _} : (record a1 a2 a3 a4).Writes m := by
  have c0 := @bump_writes m (within_mask hm rfl)
  have c1 := @modObs_writes m (within_mask hm rfl)
  have c2 := @writeRecord_writes m (within_mask hm rfl)
  unfold record
  repeat' first
    | with_reducible first | exact writes_done | exact writes_nil | refine writes_cons ?_ ?_ | refine writes_seq ?_ ?_ | refine writes_look fun _ => ?_ | refine writes_when ?_ | refine writes_each fun _ => ?_ | refine writes_ite ?_ ?_ | exact c0 | exact c1 | exact c2 | refine writes_act (bit_mask hm ?_)
    | ((with_reducible show Nat.testBit _ (Eff.num _) = true); simp only [Eff.num]; rfl) | split | dsimp only

theorem writePlain_writes {m : Nat} (hm : 8589934593 &&& m = 8589934593) {a1 : _} {a2 : _} : (writePlain a1 a2).Writes m := by
  have c0 := @complete_writes m (within_mask hm rfl)
  unfold writePlain
  repeat' first
    | with_reducible first | exact writes_done | exact writes_nil | refine writes_cons ?_ ?_ | refine writes_seq ?_ ?_ | refine writes_look fun _ => ?_ | refine writes_when ?_ | refine writes_each fun _ => ?_ | refine writes_ite ?_ ?_ | exact c0 | refine writes_act (bit_mask hm ?_)
    | ((with_reducible show Nat.testBit _ (Eff.num _) = true); simp only [Eff.num]; rfl) | split | dsimp only

theorem aNotice_writes {m : Nat} (hm : 32 &&& m = 32) {a1 : _} {a2 : _} {a3 : _} {a4 : _} {a5 : _} (h5 : ∀ x0, (a5 x0).Writes m) : (aNotice a1 a2 a3 a4 a5).Writes m := by
  have c0 := @modAgent_writes m (within_mask hm rfl)
  unfold aNotice
  repeat' first
    | with_reducible first | exact writes_done | exact writes_nil | refine writes_cons ?_ ?_ | refine writes_seq ?_ ?_ | refine writes_look fun _ => ?_ | refine writes_when ?_ | refine writes_each fun _ => ?_ | refine writes_ite ?_ ?_ | exact c0 | exact h5 _ | refine writes_act (bit_mask hm ?_)
    | ((with_reducible show Nat.testBit _ (Eff.num _) = true); simp only [Eff.num]; rfl) | split | dsimp only

theorem aSend_writes {m : Nat} (hm : 34359738400 &&& m = 34359738400) {a1 : _} {a2 : _} : (aSend a1 a2).Writes m := by
  have c0 := @modAgent_writes m (within_mask hm rfl)
  have c1 := @send_writes m (within_mask hm rfl)
  unfold aSend
  repeat' first
    | with_reducible first | exact writes_done | exact writes_nil | refine writes_cons ?_ ?_ | refine writes_seq ?_ ?_ | refine writes_look fun _ => ?_ | refine writes_when ?_ | refine writes_each fun _ => ?_ | refine writes_ite ?_ ?_ | exact c0 | exact c1 | refine writes_act (bit_mask hm ?_)
    | ((with_reducible show Nat.testBit _ (Eff.num _) = true); simp only [Eff.num]; rfl) | split | dsimp only

theorem aPackets_writes {m : Nat} (hm : 34359738400 &&& m = 34359738400) {a1 : _} {a2 : _} {a3 : _} {a4 : _} {a5 : _} : (aPackets a1 a2 a3 a4 a5).Writes m := by
  have c0 := @aSend_writes m (within_mask hm rfl)
  induction a5 generalizing a1 a2 a3 a4 with
  | nil =>
    unfold aPackets
    repeat' first
      | with_reducible first | exact writes_done | exact writes_nil | refine writes_cons ?_ ?_ | refine writes_seq ?_ ?_ | refine writes_look fun _ => ?_ | refine writes_when ?_ | refine writes_each fun _ => ?_ | refine writes_ite ?_ ?_ | exact c0 | refine writes_act (bit_mask hm ?_)
      | ((with_reducible show Nat.testBit _ (Eff.num _) = true); simp only [Eff.num]; rfl) | split | dsimp only
  | cons x xs ih =>
    unfold aPackets
    repeat' first
      | with_reducible first | apply ih | exact writes_done | exact writes_nil | refine writes_cons ?_ ?_ | refine writes_seq ?_ ?_ | refine writes_look fun _ => ?_ | refine writes_when ?_ | refine writes_each fun _ => ?_ | refine writes_ite ?_ ?_ | exact c0 | refine writes_act (bit_mask hm ?_)
      | ((with_reducible show Nat.testBit _ (Eff.num _) = true); simp only [Eff.num]; rfl) | split | dsimp only

theorem aRaise_writes {m : Nat} (hm : 32 &&& m = 32) {a1 : _} {a2 : _} : (aRaise a1 a2).Writes m := by
  have c0 := @modAgent_writes m (within_mask hm rfl)
  unfold aRaise
  repeat' first
    | with_reducible first | exact writes_done | exact writes_nil | refine writes_cons ?_ ?_ | refine writes_seq ?_ ?_ | refine writes_look fun _ => ?_ | refine writes_when ?_ | refine writes_each fun _ => ?_ | refine writes_ite ?_ ?_ | exact c0 | refine writes_act (bit_mask hm ?_)
    | ((with_reducible show Nat.testBit _ (Eff.num _) = true); simp only [Eff.num]; rfl) | split | dsimp only

theorem aResp_writes {m : Nat} (hm : 34359738400 &&& m = 34359738400) {a1 : _} {a2 : _} {a3 : _} {a4 : _} {a5 : _} : (aResp a1 a2 a3 a4 a5).Writes m := by
  have c0 := @aSend_writes m (within_mask hm rfl)
  unfold aResp
  repeat' first
    | with_reducible first | exact writes_done | exact writes_nil | refine writes_cons ?_ ?_ | refine writes_seq ?_ ?_ | refine writes_look fun _ => ?_ | refine writes_when ?_ | refine writes_each fun _ => ?_ | refine writes_ite ?_ ?_ | exact c0 | refine writes_act (bit_mask hm ?_)
    | ((with_reducible show Nat.testBit _ (Eff.num _) = true); simp only [Eff.num]; rfl) | split | dsimp only

theorem aRequest_writes {m : Nat} (hm : 34359738400 &&& m = 34359738400) {a1 : _} {a2 : _} {a3 : _} {a4 : _} {a5 : _} {a6 : _} {a7 : _} {a8 : _} (h8 : ∀ x0, (a8 x0).Writes m) : (aRequest a1 a2 a3 a4 a5 a6 a7 a8).Writes m := by
  have c0 := @aResp_writes m (within_mask hm rfl)
  unfold aRequest
  repeat' first
    | with_reducible first | exact writes_done | exact writes_nil | refine writes_cons ?_ ?_ | refine writes_seq ?_ ?_ | refine writes_look fun _ => ?_ | refine writes_when ?_ | refine writes_each fun _ => ?_ | refine writes_ite ?_ ?_ | exact c0 | exact h8 _ | refine writes_act (bit_mask hm ?_)
    | ((with_reducible show Nat.testBit _ (Eff.num _) = true); simp only [Eff.num]; rfl) | split | dsimp only

theorem aTransfer_writes {m : Nat} (hm : 34359738400 &&& m = 34359738400) {a1 : _} {a2 : _} {a3 : _} : (aTransfer a1 a2 a3).Writes m := by
  have c0 := @aPackets_writes m (within_mask hm rfl)
  have c1 := @modAgent_writes m (within_mask hm rfl)
  unfold aTransfer
  repeat' first
    | with_reducible first | exact writes_done | exact writes_nil | refine writes_cons ?_ ?_ | refine writes_seq ?_ ?_ | refine writes_look fun _ => ?_ | refine writes_when ?_ | refine writes_each fun _ => ?_ | refine writes_ite ?_ ?_ | exact c0 | exact c1 | refine writes_act (bit_mask hm ?_)
    | ((with_reducible show Nat.testBit _ (Eff.num _) = true); simp only [Eff.num]; rfl) | split | dsimp only

theorem putHost_writes {m : Nat} (hm : 2 &&& m = 2) {a1 : _} {a2 : _} {a3 : _} : (putHost a1 a2 a3).Writes m := by
  unfold putHost
  repeat' first
    | with_reducible first | exact writes_done | exact writes_nil | refine writes_cons ?_ ?_ | refine writes_seq ?_ ?_ | refine writes_look fun _ => ?_ | refine writes_when ?_ | refine writes_each fun _ => ?_ | refine writes_ite ?_ ?_ | refine writes_act (bit_mask hm ?_)
    | ((with_reducible show Nat.testBit _ (Eff.num _) = true); simp only [Eff.num]; rfl) | split | dsimp only

theorem hostReCheck_writes {m : Nat} (hm : 2 &&& m = 2) {a1 : _} {a2 : _} : (hostReCheck a1 a2).Writes m := by
  have c0 := @putHost_writes m (within_mask hm rfl)
  unfold hostReCheck
  repeat' first
    | with_reducible first | exact writes_done | exact writes_nil | refine writes_cons ?_ ?_ | refine writes_seq ?_ ?_ | refine writes_look fun _ => ?_ | refine writes_when ?_ | refine writes_each fun _ => ?_ | refine writes_ite ?_ ?_ | exact c0 | refine writes_act (bit_mask hm ?_)
    | ((with_reducible show Nat.testBit _ (Eff.num _) = true); simp only [Eff.num]; rfl) | split | dsimp only

theorem hostWrite_writes {m : Nat} (hm : 2 &&& m = 2) {a1 : _} {a2 : _} {a3 : _} : (hostWrite a1 a2 a3).Writes m := by
  have c0 := @hostReCheck_writes m (within_mask hm rfl)
  have c1 := @putHost_writes m (within_mask hm rfl)
  unfold hostWrite
  repeat' first
    | with_reducible first | exact writes_done | exact writes_nil | refine writes_cons ?_ ?_ | refine writes_seq ?_ ?_ | refine writes_look fun _ => ?_ | refine writes_when ?_ | refine writes_each fun _ => ?_ | refine writes_ite ?_ ?_ | exact c0 | exact c1 | refine writes_act (bit_mask hm ?_)
    | ((with_reducible show Nat.testBit _ (Eff.num _) = true); simp only [Eff.num]; rfl) | split | dsimp only

theorem stallUpdate_writes {m : Nat} (hm : 32 &&& m = 32) {a1 : _} : (stallUpdate a1).Writes m := by
  have c0 := @modAgent_writes m (within_mask hm rfl)
  unfold stallUpdate
  repeat' first
    | with_reducible first | exact writes_done | exact writes_nil | refine writes_cons ?_ ?_ | refine writes_seq ?_ ?_ | refine writes_look fun _ => ?_ | refine writes_when ?_ | refine writes_each fun _ => ?_ | refine writes_ite ?_ ?_ | exact c0 | refine writes_act (bit_mask hm ?_)
    | ((with_reducible show Nat.testBit _ (Eff.num _) = true); simp only [Eff.num]; rfl) | split | dsimp only

theorem releaseHeld_writes {m : Nat} (hm : 34 &&& m = 34) {a1 : _} : (releaseHeld a1).Writes m := by
  have c0 := @hostWrite_writes m (within_mask hm rfl)
  have c1 := @modAgent_writes m (within_mask hm rfl)
  have c2 := @stallUpdate_writes m (within_mask hm rfl)
  unfold releaseHeld
  repeat' first
    | with_reducible first | exact writes_done | exact writes_nil | refine writes_cons ?_ ?_ | refine writes_seq ?_ ?_ | refine writes_look fun _ => ?_ | refine writes_when ?_ | refine writes_each fun _ => ?_ | refine writes_ite ?_ ?_ | exact c0 | exact c1 | exact c2 | refine writes_act (bit_mask hm ?_)
    | ((with_reducible show Nat.testBit _ (Eff.num _) = true); simp only [Eff.num]; rfl) | split | dsimp only

theorem abandonCourse_writes {m : Nat} (hm : 34 &&& m = 34) {a1 : _} : (abandonCourse a1).Writes m := by
  have c0 := @modAgent_writes m (within_mask hm rfl)
  have c1 := @releaseHeld_writes m (within_mask hm rfl)
  unfold abandonCourse
  repeat' first
    | with_reducible first | exact writes_done | exact writes_nil | refine writes_cons ?_ ?_ | refine writes_seq ?_ ?_ | refine writes_look fun _ => ?_ | refine writes_when ?_ | refine writes_each fun _ => ?_ | refine writes_ite ?_ ?_ | exact c0 | exact c1 | refine writes_act (bit_mask hm ?_)
    | ((with_reducible show Nat.testBit _ (Eff.num _) = true); simp only [Eff.num]; rfl) | split | dsimp only

theorem answerDeferred_writes {m : Nat} (hm : 34359738400 &&& m = 34359738400) {a1 : _} {a2 : _} : (answerDeferred a1 a2).Writes m := by
  have c0 := @aResp_writes m (within_mask hm rfl)
  have c1 := @modAgent_writes m (within_mask hm rfl)
  unfold answerDeferred
  repeat' first
    | with_reducible first | exact writes_done | exact writes_nil | refine writes_cons ?_ ?_ | refine writes_seq ?_ ?_ | refine writes_look fun _ => ?_ | refine writes_when ?_ | refine writes_each fun _ => ?_ | refine writes_ite ?_ ?_ | exact c0 | exact c1 | refine writes_act (bit_mask hm ?_)
    | ((with_reducible show Nat.testBit _ (Eff.num _) = true); simp only [Eff.num]; rfl) | split | dsimp only

end Sys2Proof.Machine
end

