-- ==== Sys2Proof/Laws/Writes2.lean ====
section
/-! SUPPORT. What each shared operation writes (part 2): one lemma per operation, of the areas its effects name. -/

set_option maxRecDepth 16000

namespace Sys2Proof.Machine

theorem checkFailed_writes {m : Nat} (hm : 34359738400 &&& m = 34359738400) {a1 : _} {a2 : _} : (checkFailed a1 a2).Writes m := by
  have c0 := @aRaise_writes m (within_mask hm rfl)
  have c1 := @send_writes m (within_mask hm rfl)
  unfold checkFailed
  repeat' first
    | with_reducible first | exact writes_done | exact writes_nil | refine writes_cons ?_ ?_ | refine writes_seq ?_ ?_ | refine writes_look fun _ => ?_ | refine writes_when ?_ | refine writes_each fun _ => ?_ | refine writes_ite ?_ ?_ | exact c0 | exact c1 | refine writes_act (bit_mask hm ?_)
    | ((with_reducible show Nat.testBit _ (Eff.num _) = true); simp only [Eff.num]; rfl) | split | dsimp only

theorem copyGranule_writes {m : Nat} (hm : 34 &&& m = 34) {a1 : _} {a2 : _} {a3 : _} : (copyGranule a1 a2 a3).Writes m := by
  have c0 := @modAgent_writes m (within_mask hm rfl)
  have c1 := @putHost_writes m (within_mask hm rfl)
  unfold copyGranule
  repeat' first
    | with_reducible first | exact writes_done | exact writes_nil | refine writes_cons ?_ ?_ | refine writes_seq ?_ ?_ | refine writes_look fun _ => ?_ | refine writes_when ?_ | refine writes_each fun _ => ?_ | refine writes_ite ?_ ?_ | exact c0 | exact c1 | refine writes_act (bit_mask hm ?_)
    | ((with_reducible show Nat.testBit _ (Eff.num _) = true); simp only [Eff.num]; rfl) | split | dsimp only

theorem courseDoneTest_writes {m : Nat} (hm : 34359738400 &&& m = 34359738400) {a1 : _} : (courseDoneTest a1).Writes m := by
  have c0 := @aSend_writes m (within_mask hm rfl)
  have c1 := @modAgent_writes m (within_mask hm rfl)
  unfold courseDoneTest
  repeat' first
    | with_reducible first | exact writes_done | exact writes_nil | refine writes_cons ?_ ?_ | refine writes_seq ?_ ?_ | refine writes_look fun _ => ?_ | refine writes_when ?_ | refine writes_each fun _ => ?_ | refine writes_ite ?_ ?_ | exact c0 | exact c1 | refine writes_act (bit_mask hm ?_)
    | ((with_reducible show Nat.testBit _ (Eff.num _) = true); simp only [Eff.num]; rfl) | split | dsimp only

theorem sendContext_writes {m : Nat} (hm : 34359738400 &&& m = 34359738400) {a1 : _} : (sendContext a1).Writes m := by
  have c0 := @aTransfer_writes m (within_mask hm rfl)
  have c1 := @modAgent_writes m (within_mask hm rfl)
  unfold sendContext
  repeat' first
    | with_reducible first | exact writes_done | exact writes_nil | refine writes_cons ?_ ?_ | refine writes_seq ?_ ?_ | refine writes_look fun _ => ?_ | refine writes_when ?_ | refine writes_each fun _ => ?_ | refine writes_ite ?_ ?_ | exact c0 | exact c1 | refine writes_act (bit_mask hm ?_)
    | ((with_reducible show Nat.testBit _ (Eff.num _) = true); simp only [Eff.num]; rfl) | split | dsimp only

theorem cut_writes {m : Nat} (hm : 34359738400 &&& m = 34359738400) {a1 : _} {a2 : _} : (cut a1 a2).Writes m := by
  have c0 := @aSend_writes m (within_mask hm rfl)
  have c1 := @modAgent_writes m (within_mask hm rfl)
  have c2 := @sendContext_writes m (within_mask hm rfl)
  unfold cut
  repeat' first
    | with_reducible first | exact writes_done | exact writes_nil | refine writes_cons ?_ ?_ | refine writes_seq ?_ ?_ | refine writes_look fun _ => ?_ | refine writes_when ?_ | refine writes_each fun _ => ?_ | refine writes_ite ?_ ?_ | exact c0 | exact c1 | exact c2 | refine writes_act (bit_mask hm ?_)
    | ((with_reducible show Nat.testBit _ (Eff.num _) = true); simp only [Eff.num]; rfl) | split | dsimp only

theorem fenceDone_writes {m : Nat} (hm : 34359738400 &&& m = 34359738400) {a1 : _} {a2 : _} : (fenceDone a1 a2).Writes m := by
  have c0 := @aSend_writes m (within_mask hm rfl)
  have c1 := @modAgent_writes m (within_mask hm rfl)
  unfold fenceDone
  repeat' first
    | with_reducible first | exact writes_done | exact writes_nil | refine writes_cons ?_ ?_ | refine writes_seq ?_ ?_ | refine writes_look fun _ => ?_ | refine writes_when ?_ | refine writes_each fun _ => ?_ | refine writes_ite ?_ ?_ | exact c0 | exact c1 | refine writes_act (bit_mask hm ?_)
    | ((with_reducible show Nat.testBit _ (Eff.num _) = true); simp only [Eff.num]; rfl) | split | dsimp only

theorem writeAgentDump_writes {m : Nat} (hm : 34359738402 &&& m = 34359738402) {a1 : _} {a2 : _} : (writeAgentDump a1 a2).Writes m := by
  have c0 := @aSend_writes m (within_mask hm rfl)
  have c1 := @aTransfer_writes m (within_mask hm rfl)
  have c2 := @modAgent_writes m (within_mask hm rfl)
  have c3 := @putHost_writes m (within_mask hm rfl)
  unfold writeAgentDump
  repeat' first
    | with_reducible first | exact writes_done | exact writes_nil | refine writes_cons ?_ ?_ | refine writes_seq ?_ ?_ | refine writes_look fun _ => ?_ | refine writes_when ?_ | refine writes_each fun _ => ?_ | refine writes_ite ?_ ?_ | exact c0 | exact c1 | exact c2 | exact c3 | refine writes_act (bit_mask hm ?_)
    | ((with_reducible show Nat.testBit _ (Eff.num _) = true); simp only [Eff.num]; rfl) | split | dsimp only

theorem enterFenced_writes {m : Nat} (hm : 34359738402 &&& m = 34359738402) {a1 : _} {a2 : _} : (enterFenced a1 a2).Writes m := by
  have c0 := @aSend_writes m (within_mask hm rfl)
  have c1 := @abandonCourse_writes m (within_mask hm rfl)
  have c2 := @answerDeferred_writes m (within_mask hm rfl)
  have c3 := @fenceDone_writes m (within_mask hm rfl)
  have c4 := @modAgent_writes m (within_mask hm rfl)
  have c5 := @send_writes m (within_mask hm rfl)
  have c6 := @writeAgentDump_writes m (within_mask hm rfl)
  unfold enterFenced
  repeat' first
    | with_reducible first | exact writes_done | exact writes_nil | refine writes_cons ?_ ?_ | refine writes_seq ?_ ?_ | refine writes_look fun _ => ?_ | refine writes_when ?_ | refine writes_each fun _ => ?_ | refine writes_ite ?_ ?_ | exact c0 | exact c1 | exact c2 | exact c3 | exact c4 | exact c5 | exact c6 | refine writes_act (bit_mask hm ?_)
    | ((with_reducible show Nat.testBit _ (Eff.num _) = true); simp only [Eff.num]; rfl) | split | dsimp only

theorem fatalPath_writes {m : Nat} (hm : 34359738402 &&& m = 34359738402) {a1 : _} {a2 : _} {a3 : _} : (fatalPath a1 a2 a3).Writes m := by
  have c0 := @aRaise_writes m (within_mask hm rfl)
  have c1 := @aSend_writes m (within_mask hm rfl)
  have c2 := @enterFenced_writes m (within_mask hm rfl)
  unfold fatalPath
  repeat' first
    | with_reducible first | exact writes_done | exact writes_nil | refine writes_cons ?_ ?_ | refine writes_seq ?_ ?_ | refine writes_look fun _ => ?_ | refine writes_when ?_ | refine writes_each fun _ => ?_ | refine writes_ite ?_ ?_ | exact c0 | exact c1 | exact c2 | refine writes_act (bit_mask hm ?_)
    | ((with_reducible show Nat.testBit _ (Eff.num _) = true); simp only [Eff.num]; rfl) | split | dsimp only

theorem placeLists_writes {m : Nat} (hm : 34 &&& m = 34) {a1 : _} {a2 : _} : (placeLists a1 a2).Writes m := by
  have c0 := @modAgent_writes m (within_mask hm rfl)
  have c1 := @putHost_writes m (within_mask hm rfl)
  unfold placeLists
  repeat' first
    | with_reducible first | exact writes_done | exact writes_nil | refine writes_cons ?_ ?_ | refine writes_seq ?_ ?_ | refine writes_look fun _ => ?_ | refine writes_when ?_ | refine writes_each fun _ => ?_ | refine writes_ite ?_ ?_ | exact c0 | exact c1 | refine writes_act (bit_mask hm ?_)
    | ((with_reducible show Nat.testBit _ (Eff.num _) = true); simp only [Eff.num]; rfl) | split | dsimp only

theorem sendSamples_writes {m : Nat} (hm : 34359738400 &&& m = 34359738400) {a1 : _} {a2 : _} : (sendSamples a1 a2).Writes m := by
  have c0 := @aRaise_writes m (within_mask hm rfl)
  have c1 := @aTransfer_writes m (within_mask hm rfl)
  have c2 := @modAgent_writes m (within_mask hm rfl)
  induction a2 generalizing a1 with
  | zero =>
    unfold sendSamples
    repeat' first
      | with_reducible first | exact writes_done | exact writes_nil | refine writes_cons ?_ ?_ | refine writes_seq ?_ ?_ | refine writes_look fun _ => ?_ | refine writes_when ?_ | refine writes_each fun _ => ?_ | refine writes_ite ?_ ?_ | exact c0 | exact c1 | exact c2 | refine writes_act (bit_mask hm ?_)
      | ((with_reducible show Nat.testBit _ (Eff.num _) = true); simp only [Eff.num]; rfl) | split | dsimp only
  | succ k ih =>
    unfold sendSamples
    repeat' first
      | with_reducible first | apply ih | exact writes_done | exact writes_nil | refine writes_cons ?_ ?_ | refine writes_seq ?_ ?_ | refine writes_look fun _ => ?_ | refine writes_when ?_ | refine writes_each fun _ => ?_ | refine writes_ite ?_ ?_ | exact c0 | exact c1 | exact c2 | refine writes_act (bit_mask hm ?_)
      | ((with_reducible show Nat.testBit _ (Eff.num _) = true); simp only [Eff.num]; rfl) | split | dsimp only

theorem pumpSamples_writes {m : Nat} (hm : 34359738400 &&& m = 34359738400) {a1 : _} : (pumpSamples a1).Writes m := by
  have c0 := @sendSamples_writes m (within_mask hm rfl)
  unfold pumpSamples
  repeat' first
    | with_reducible first | exact writes_done | exact writes_nil | refine writes_cons ?_ ?_ | refine writes_seq ?_ ?_ | refine writes_look fun _ => ?_ | refine writes_when ?_ | refine writes_each fun _ => ?_ | refine writes_ite ?_ ?_ | exact c0 | refine writes_act (bit_mask hm ?_)
    | ((with_reducible show Nat.testBit _ (Eff.num _) = true); simp only [Eff.num]; rfl) | split | dsimp only

theorem agentAdvance_writes {m : Nat} (hm : 32 &&& m = 32) {a1 : _} {a2 : _} {a3 : _} : (agentAdvance a1 a2 a3).Writes m := by
  have c0 := @modAgent_writes m (within_mask hm rfl)
  unfold agentAdvance
  repeat' first
    | with_reducible first | exact writes_done | exact writes_nil | refine writes_cons ?_ ?_ | refine writes_seq ?_ ?_ | refine writes_look fun _ => ?_ | refine writes_when ?_ | refine writes_each fun _ => ?_ | refine writes_ite ?_ ?_ | exact c0 | refine writes_act (bit_mask hm ?_)
    | ((with_reducible show Nat.testBit _ (Eff.num _) = true); simp only [Eff.num]; rfl) | split | dsimp only

theorem aPacket_writes {m : Nat} (hm : 34359738400 &&& m = 34359738400) {a1 : _} {a2 : _} {a3 : _} : (aPacket a1 a2 a3).Writes m := by
  have c0 := @aResp_writes m (within_mask hm rfl)
  have c1 := @agentAdvance_writes m (within_mask hm rfl)
  have c2 := @modAgent_writes m (within_mask hm rfl)
  unfold aPacket
  repeat' first
    | with_reducible first | exact writes_done | exact writes_nil | refine writes_cons ?_ ?_ | refine writes_seq ?_ ?_ | refine writes_look fun _ => ?_ | refine writes_when ?_ | refine writes_each fun _ => ?_ | refine writes_ite ?_ ?_ | exact c0 | exact c1 | exact c2 | refine writes_act (bit_mask hm ?_)
    | ((with_reducible show Nat.testBit _ (Eff.num _) = true); simp only [Eff.num]; rfl) | split | dsimp only

theorem aTransferIn_writes {m : Nat} (hm : 34359738400 &&& m = 34359738400) {a1 : _} {a2 : _} {a3 : _} {a4 : _} {a5 : _} {a6 : _} (h6 : (a6).Writes m) : (aTransferIn a1 a2 a3 a4 a5 a6).Writes m := by
  have c0 := @aPacket_writes m (within_mask hm rfl)
  unfold aTransferIn
  repeat' first
    | with_reducible first | exact writes_done | exact writes_nil | refine writes_cons ?_ ?_ | refine writes_seq ?_ ?_ | refine writes_look fun _ => ?_ | refine writes_when ?_ | refine writes_each fun _ => ?_ | refine writes_ite ?_ ?_ | exact c0 | exact h6 | refine writes_act (bit_mask hm ?_)
    | ((with_reducible show Nat.testBit _ (Eff.num _) = true); simp only [Eff.num]; rfl) | split | dsimp only

theorem cntAdd_writes {m : Nat} (hm : 32 &&& m = 32) {a1 : _} {a2 : _} : (cntAdd a1 a2).Writes m := by
  have c0 := @agentAdvance_writes m (within_mask hm rfl)
  unfold cntAdd
  repeat' first
    | with_reducible first | exact writes_done | exact writes_nil | refine writes_cons ?_ ?_ | refine writes_seq ?_ ?_ | refine writes_look fun _ => ?_ | refine writes_when ?_ | refine writes_each fun _ => ?_ | refine writes_ite ?_ ?_ | exact c0 | refine writes_act (bit_mask hm ?_)
    | ((with_reducible show Nat.testBit _ (Eff.num _) = true); simp only [Eff.num]; rfl) | split | dsimp only

theorem fatal_writes {m : Nat} (hm : 34359738402 &&& m = 34359738402) {a1 : _} {a2 : _} : (fatal a1 a2).Writes m := by
  have c0 := @fatalPath_writes m (within_mask hm rfl)
  have c1 := @modAgent_writes m (within_mask hm rfl)
  unfold fatal
  repeat' first
    | with_reducible first | exact writes_done | exact writes_nil | refine writes_cons ?_ ?_ | refine writes_seq ?_ ?_ | refine writes_look fun _ => ?_ | refine writes_when ?_ | refine writes_each fun _ => ?_ | refine writes_ite ?_ ?_ | exact c0 | exact c1 | refine writes_act (bit_mask hm ?_)
    | ((with_reducible show Nat.testBit _ (Eff.num _) = true); simp only [Eff.num]; rfl) | split | dsimp only

theorem fenceReq_writes {m : Nat} (hm : 34359738402 &&& m = 34359738402) {a1 : _} : (fenceReq a1).Writes m := by
  have c0 := @enterFenced_writes m (within_mask hm rfl)
  have c1 := @modAgent_writes m (within_mask hm rfl)
  unfold fenceReq
  repeat' first
    | with_reducible first | exact writes_done | exact writes_nil | refine writes_cons ?_ ?_ | refine writes_seq ?_ ?_ | refine writes_look fun _ => ?_ | refine writes_when ?_ | refine writes_each fun _ => ?_ | refine writes_ite ?_ ?_ | exact c0 | exact c1 | refine writes_act (bit_mask hm ?_)
    | ((with_reducible show Nat.testBit _ (Eff.num _) = true); simp only [Eff.num]; rfl) | split | dsimp only

theorem quiet_writes {m : Nat} (hm : 34359738400 &&& m = 34359738400) {a1 : _} : (quiet a1).Writes m := by
  have c0 := @fenceDone_writes m (within_mask hm rfl)
  have c1 := @modAgent_writes m (within_mask hm rfl)
  unfold quiet
  repeat' first
    | with_reducible first | exact writes_done | exact writes_nil | refine writes_cons ?_ ?_ | refine writes_seq ?_ ?_ | refine writes_look fun _ => ?_ | refine writes_when ?_ | refine writes_each fun _ => ?_ | refine writes_ite ?_ ?_ | exact c0 | exact c1 | refine writes_act (bit_mask hm ?_)
    | ((with_reducible show Nat.testBit _ (Eff.num _) = true); simp only [Eff.num]; rfl) | split | dsimp only

theorem witPush_writes {m : Nat} (hm : 34359738400 &&& m = 34359738400) {a1 : _} {a2 : _} : (witPush a1 a2).Writes m := by
  have c0 := @modAgent_writes m (within_mask hm rfl)
  have c1 := @pumpSamples_writes m (within_mask hm rfl)
  unfold witPush
  repeat' first
    | with_reducible first | exact writes_done | exact writes_nil | refine writes_cons ?_ ?_ | refine writes_seq ?_ ?_ | refine writes_look fun _ => ?_ | refine writes_when ?_ | refine writes_each fun _ => ?_ | refine writes_ite ?_ ?_ | exact c0 | exact c1 | refine writes_act (bit_mask hm ?_)
    | ((with_reducible show Nat.testBit _ (Eff.num _) = true); simp only [Eff.num]; rfl) | split | dsimp only

theorem agentWrite_writes {m : Nat} (hm : 34359738402 &&& m = 34359738402) {a1 : _} {a2 : _} {a3 : _} : (agentWrite a1 a2 a3).Writes m := by
  have c0 := @cntAdd_writes m (within_mask hm rfl)
  have c1 := @fatal_writes m (within_mask hm rfl)
  have c2 := @fenceReq_writes m (within_mask hm rfl)
  have c3 := @modAgent_writes m (within_mask hm rfl)
  have c4 := @quiet_writes m (within_mask hm rfl)
  have c5 := @witPush_writes m (within_mask hm rfl)
  unfold agentWrite
  repeat' first
    | with_reducible first | exact writes_done | exact writes_nil | refine writes_cons ?_ ?_ | refine writes_seq ?_ ?_ | refine writes_look fun _ => ?_ | refine writes_when ?_ | refine writes_each fun _ => ?_ | refine writes_ite ?_ ?_ | exact c0 | exact c1 | exact c2 | exact c3 | exact c4 | exact c5 | refine writes_act (bit_mask hm ?_)
    | ((with_reducible show Nat.testBit _ (Eff.num _) = true); simp only [Eff.num]; rfl) | split | dsimp only

theorem countStale_writes {m : Nat} (hm : 32 &&& m = 32) {a1 : _} {a2 : _} : (countStale a1 a2).Writes m := by
  have c0 := @modAgent_writes m (within_mask hm rfl)
  unfold countStale
  repeat' first
    | with_reducible first | exact writes_done | exact writes_nil | refine writes_cons ?_ ?_ | refine writes_seq ?_ ?_ | refine writes_look fun _ => ?_ | refine writes_when ?_ | refine writes_each fun _ => ?_ | refine writes_ite ?_ ?_ | exact c0 | refine writes_act (bit_mask hm ?_)
    | ((with_reducible show Nat.testBit _ (Eff.num _) = true); simp only [Eff.num]; rfl) | split | dsimp only

theorem drainNow_writes {m : Nat} (hm : 34359738400 &&& m = 34359738400) {a1 : _} {a2 : _} : (drainNow a1 a2).Writes m := by
  have c0 := @aRaise_writes m (within_mask hm rfl)
  have c1 := @aResp_writes m (within_mask hm rfl)
  have c2 := @aTransfer_writes m (within_mask hm rfl)
  unfold drainNow
  repeat' first
    | with_reducible first | exact writes_done | exact writes_nil | refine writes_cons ?_ ?_ | refine writes_seq ?_ ?_ | refine writes_look fun _ => ?_ | refine writes_when ?_ | refine writes_each fun _ => ?_ | refine writes_ite ?_ ?_ | exact c0 | exact c1 | exact c2 | refine writes_act (bit_mask hm ?_)
    | ((with_reducible show Nat.testBit _ (Eff.num _) = true); simp only [Eff.num]; rfl) | split | dsimp only

theorem drainReq_writes {m : Nat} (hm : 34359738400 &&& m = 34359738400) {a1 : _} {a2 : _} : (drainReq a1 a2).Writes m := by
  have c0 := @aRequest_writes m (within_mask hm rfl)
  have c1 := @aResp_writes m (within_mask hm rfl)
  have c2 := @drainNow_writes m (within_mask hm rfl)
  have c3 := @modAgent_writes m (within_mask hm rfl)
  unfold drainReq
  repeat' first
    | with_reducible first | exact writes_done | exact writes_nil | refine writes_cons ?_ ?_ | refine writes_seq ?_ ?_ | refine writes_look fun _ => ?_ | refine writes_when ?_ | refine writes_each fun _ => ?_ | refine writes_ite ?_ ?_ | refine c0 (fun _ => ?_) | exact c1 | exact c2 | exact c3 | refine writes_act (bit_mask hm ?_)
    | ((with_reducible show Nat.testBit _ (Eff.num _) = true); simp only [Eff.num]; rfl) | split | dsimp only

theorem haltHost_writes {m : Nat} (hm : 34359738400 &&& m = 34359738400) {a1 : _} : (haltHost a1).Writes m := by
  have c0 := @modAgent_writes m (within_mask hm rfl)
  have c1 := @send_writes m (within_mask hm rfl)
  unfold haltHost
  repeat' first
    | with_reducible first | exact writes_done | exact writes_nil | refine writes_cons ?_ ?_ | refine writes_seq ?_ ?_ | refine writes_look fun _ => ?_ | refine writes_when ?_ | refine writes_each fun _ => ?_ | refine writes_ite ?_ ?_ | exact c0 | exact c1 | refine writes_act (bit_mask hm ?_)
    | ((with_reducible show Nat.testBit _ (Eff.num _) = true); simp only [Eff.num]; rfl) | split | dsimp only

theorem haltLow_writes {m : Nat} (hm : 34359738400 &&& m = 34359738400) {a1 : _} : (haltLow a1).Writes m := by
  have c0 := @aRaise_writes m (within_mask hm rfl)
  have c1 := @haltHost_writes m (within_mask hm rfl)
  have c2 := @modAgent_writes m (within_mask hm rfl)
  unfold haltLow
  repeat' first
    | with_reducible first | exact writes_done | exact writes_nil | refine writes_cons ?_ ?_ | refine writes_seq ?_ ?_ | refine writes_look fun _ => ?_ | refine writes_when ?_ | refine writes_each fun _ => ?_ | refine writes_ite ?_ ?_ | exact c0 | exact c1 | exact c2 | refine writes_act (bit_mask hm ?_)
    | ((with_reducible show Nat.testBit _ (Eff.num _) = true); simp only [Eff.num]; rfl) | split | dsimp only

theorem heartbeat_writes {m : Nat} (hm : 34359738400 &&& m = 34359738400) {a1 : _} : (heartbeat a1).Writes m := by
  have c0 := @aSend_writes m (within_mask hm rfl)
  have c1 := @modAgent_writes m (within_mask hm rfl)
  unfold heartbeat
  repeat' first
    | with_reducible first | exact writes_done | exact writes_nil | refine writes_cons ?_ ?_ | refine writes_seq ?_ ?_ | refine writes_look fun _ => ?_ | refine writes_when ?_ | refine writes_each fun _ => ?_ | refine writes_ite ?_ ?_ | exact c0 | exact c1 | refine writes_act (bit_mask hm ?_)
    | ((with_reducible show Nat.testBit _ (Eff.num _) = true); simp only [Eff.num]; rfl) | split | dsimp only

theorem hello_writes {m : Nat} (hm : 51539607584 &&& m = 51539607584) {a1 : _} {a2 : _} : (hello a1 a2).Writes m := by
  have c0 := @aSend_writes m (within_mask hm rfl)
  have c1 := @withFree_writes m (within_mask hm rfl)
  unfold hello
  repeat' first
    | with_reducible first | exact writes_done | exact writes_nil | refine writes_cons ?_ ?_ | refine writes_seq ?_ ?_ | refine writes_look fun _ => ?_ | refine writes_when ?_ | refine writes_each fun _ => ?_ | refine writes_ite ?_ ?_ | exact c0 | refine c1 (fun _ => ?_) | refine writes_act (bit_mask hm ?_)
    | ((with_reducible show Nat.testBit _ (Eff.num _) = true); simp only [Eff.num]; rfl) | split | dsimp only

theorem stepLive_writes {m : Nat} (hm : 42949672994 &&& m = 42949672994) {a1 : _} {a2 : _} : (stepLive a1 a2).Writes m := by
  have c0 := @aRaise_writes m (within_mask hm rfl)
  have c1 := @complete_writes m (within_mask hm rfl)
  have c2 := @cut_writes m (within_mask hm rfl)
  have c3 := @fatalPath_writes m (within_mask hm rfl)
  have c4 := @modAgent_writes m (within_mask hm rfl)
  have c5 := @placeLists_writes m (within_mask hm rfl)
  have c6 := @stallUpdate_writes m (within_mask hm rfl)
  unfold stepLive
  repeat' first
    | with_reducible first | exact writes_done | exact writes_nil | refine writes_cons ?_ ?_ | refine writes_seq ?_ ?_ | refine writes_look fun _ => ?_ | refine writes_when ?_ | refine writes_each fun _ => ?_ | refine writes_ite ?_ ?_ | exact c0 | exact c1 | exact c2 | exact c3 | exact c4 | exact c5 | exact c6 | refine writes_act (bit_mask hm ?_)
    | ((with_reducible show Nat.testBit _ (Eff.num _) = true); simp only [Eff.num]; rfl) | split | dsimp only

theorem stepWrite_writes {m : Nat} (hm : 42949672994 &&& m = 42949672994) {a1 : _} {a2 : _} : (stepWrite a1 a2).Writes m := by
  have c0 := @complete_writes m (within_mask hm rfl)
  have c1 := @stepLive_writes m (within_mask hm rfl)
  unfold stepWrite
  repeat' first
    | with_reducible first | exact writes_done | exact writes_nil | refine writes_cons ?_ ?_ | refine writes_seq ?_ ?_ | refine writes_look fun _ => ?_ | refine writes_when ?_ | refine writes_each fun _ => ?_ | refine writes_ite ?_ ?_ | exact c0 | exact c1 | refine writes_act (bit_mask hm ?_)
    | ((with_reducible show Nat.testBit _ (Eff.num _) = true); simp only [Eff.num]; rfl) | split | dsimp only

theorem hostRegWrite_writes {m : Nat} (hm : 42949672994 &&& m = 42949672994) {a1 : _} {a2 : _} {a3 : _} : (hostRegWrite a1 a2 a3).Writes m := by
  have c0 := @aRaise_writes m (within_mask hm rfl)
  have c1 := @agentWrite_writes m (within_mask hm rfl)
  have c2 := @complete_writes m (within_mask hm rfl)
  have c3 := @stepWrite_writes m (within_mask hm rfl)
  unfold hostRegWrite
  repeat' first
    | with_reducible first | exact writes_done | exact writes_nil | refine writes_cons ?_ ?_ | refine writes_seq ?_ ?_ | refine writes_look fun _ => ?_ | refine writes_when ?_ | refine writes_each fun _ => ?_ | refine writes_ite ?_ ?_ | exact c0 | exact c1 | exact c2 | exact c3 | refine writes_act (bit_mask hm ?_)
    | ((with_reducible show Nat.testBit _ (Eff.num _) = true); simp only [Eff.num]; rfl) | split | dsimp only

theorem hostRuns_writes {m : Nat} (hm : 0 &&& m = 0) {a1 : _} {a2 : _} (h2 : (a2).Writes m) : (hostRuns a1 a2).Writes m := by
  unfold hostRuns
  repeat' first
    | with_reducible first | exact writes_done | exact writes_nil | refine writes_cons ?_ ?_ | refine writes_seq ?_ ?_ | refine writes_look fun _ => ?_ | refine writes_when ?_ | refine writes_each fun _ => ?_ | refine writes_ite ?_ ?_ | exact h2 | refine writes_act (bit_mask hm ?_)
    | ((with_reducible show Nat.testBit _ (Eff.num _) = true); simp only [Eff.num]; rfl) | split | dsimp only

theorem stallAbandon_writes {m : Nat} (hm : 34359738402 &&& m = 34359738402) {a1 : _} : (stallAbandon a1).Writes m := by
  have c0 := @aRaise_writes m (within_mask hm rfl)
  have c1 := @aSend_writes m (within_mask hm rfl)
  have c2 := @abandonCourse_writes m (within_mask hm rfl)
  have c3 := @answerDeferred_writes m (within_mask hm rfl)
  unfold stallAbandon
  repeat' first
    | with_reducible first | exact writes_done | exact writes_nil | refine writes_cons ?_ ?_ | refine writes_seq ?_ ?_ | refine writes_look fun _ => ?_ | refine writes_when ?_ | refine writes_each fun _ => ?_ | refine writes_ite ?_ ?_ | exact c0 | exact c1 | exact c2 | exact c3 | refine writes_act (bit_mask hm ?_)
    | ((with_reducible show Nat.testBit _ (Eff.num _) = true); simp only [Eff.num]; rfl) | split | dsimp only

theorem hostStateWrite_writes {m : Nat} (hm : 34359738402 &&& m = 34359738402) {a1 : _} {a2 : _} {a3 : _} : (hostStateWrite a1 a2 a3).Writes m := by
  have c0 := @hostWrite_writes m (within_mask hm rfl)
  have c1 := @modAgent_writes m (within_mask hm rfl)
  have c2 := @stallAbandon_writes m (within_mask hm rfl)
  have c3 := @stallUpdate_writes m (within_mask hm rfl)
  unfold hostStateWrite
  repeat' first
    | with_reducible first | exact writes_done | exact writes_nil | refine writes_cons ?_ ?_ | refine writes_seq ?_ ?_ | refine writes_look fun _ => ?_ | refine writes_when ?_ | refine writes_each fun _ => ?_ | refine writes_ite ?_ ?_ | exact c0 | exact c1 | exact c2 | exact c3 | refine writes_act (bit_mask hm ?_)
    | ((with_reducible show Nat.testBit _ (Eff.num _) = true); simp only [Eff.num]; rfl) | split | dsimp only

theorem reservedType_writes {m : Nat} (hm : 34359738400 &&& m = 34359738400) {a1 : _} {a2 : _} : (reservedType a1 a2).Writes m := by
  have c0 := @aResp_writes m (within_mask hm rfl)
  unfold reservedType
  repeat' first
    | with_reducible first | exact writes_done | exact writes_nil | refine writes_cons ?_ ?_ | refine writes_seq ?_ ?_ | refine writes_look fun _ => ?_ | refine writes_when ?_ | refine writes_each fun _ => ?_ | refine writes_ite ?_ ?_ | exact c0 | refine writes_act (bit_mask hm ?_)
    | ((with_reducible show Nat.testBit _ (Eff.num _) = true); simp only [Eff.num]; rfl) | split | dsimp only

theorem certifyWork_writes {m : Nat} (hm : 34368147457 &&& m = 34368147457) : (certifyWork).Writes m := by
  have c0 := @modSec_writes m (within_mask hm rfl)
  have c1 := @put_writes m (within_mask hm rfl)
  have c2 := @raise_writes m (within_mask hm rfl)
  unfold certifyWork
  repeat' first
    | with_reducible first | exact writes_done | exact writes_nil | refine writes_cons ?_ ?_ | refine writes_seq ?_ ?_ | refine writes_look fun _ => ?_ | refine writes_when ?_ | refine writes_each fun _ => ?_ | refine writes_ite ?_ ?_ | exact c0 | exact c1 | exact c2 | refine writes_act (bit_mask hm ?_)
    | ((with_reducible show Nat.testBit _ (Eff.num _) = true); simp only [Eff.num]; rfl) | split | dsimp only

theorem signWork_writes {m : Nat} (hm : 8388609 &&& m = 8388609) {a1 : _} {a2 : _} (h2 : ∀ x0, (a2 x0).Writes m) : (signWork a1 a2).Writes m := by
  have c0 := @modSec_writes m (within_mask hm rfl)
  have c1 := @put_writes m (within_mask hm rfl)
  unfold signWork
  repeat' first
    | with_reducible first | exact writes_done | exact writes_nil | refine writes_cons ?_ ?_ | refine writes_seq ?_ ?_ | refine writes_look fun _ => ?_ | refine writes_when ?_ | refine writes_each fun _ => ?_ | refine writes_ite ?_ ?_ | exact c0 | exact c1 | exact h2 _ | refine writes_act (bit_mask hm ?_)
    | ((with_reducible show Nat.testBit _ (Eff.num _) = true); simp only [Eff.num]; rfl) | split | dsimp only

theorem withIdentity_writes {m : Nat} (hm : 8388609 &&& m = 8388609) {a1 : _} {a2 : _} (h2 : ∀ x0, (a2 x0).Writes m) : (withIdentity a1 a2).Writes m := by
  have c0 := @signWork_writes m (within_mask hm rfl)
  unfold withIdentity
  repeat' first
    | with_reducible first | exact writes_done | exact writes_nil | refine writes_cons ?_ ?_ | refine writes_seq ?_ ?_ | refine writes_look fun _ => ?_ | refine writes_when ?_ | refine writes_each fun _ => ?_ | refine writes_ite ?_ ?_ | refine c0 (fun _ => ?_) | exact h2 _ | refine writes_act (bit_mask hm ?_)
    | ((with_reducible show Nat.testBit _ (Eff.num _) = true); simp only [Eff.num]; rfl) | split | dsimp only

theorem clearGo_writes {m : Nat} (hm : 1 &&& m = 1) {a1 : _} : (clearGo a1).Writes m := by
  have c0 := @put_writes m (within_mask hm rfl)
  unfold clearGo
  repeat' first
    | with_reducible first | exact writes_done | exact writes_nil | refine writes_cons ?_ ?_ | refine writes_seq ?_ ?_ | refine writes_look fun _ => ?_ | refine writes_when ?_ | refine writes_each fun _ => ?_ | refine writes_ite ?_ ?_ | exact c0 | refine writes_act (bit_mask hm ?_)
    | ((with_reducible show Nat.testBit _ (Eff.num _) = true); simp only [Eff.num]; rfl) | split | dsimp only

theorem sendFlit_writes {m : Nat} (hm : 34359738368 &&& m = 34359738368) {a1 : _} {a2 : _} {a3 : _} {a4 : _} : (sendFlit a1 a2 a3 a4).Writes m := by
  have c0 := @send_writes m (within_mask hm rfl)
  unfold sendFlit
  repeat' first
    | with_reducible first | exact writes_done | exact writes_nil | refine writes_cons ?_ ?_ | refine writes_seq ?_ ?_ | refine writes_look fun _ => ?_ | refine writes_when ?_ | refine writes_each fun _ => ?_ | refine writes_ite ?_ ?_ | exact c0 | refine writes_act (bit_mask hm ?_)
    | ((with_reducible show Nat.testBit _ (Eff.num _) = true); simp only [Eff.num]; rfl) | split | dsimp only

theorem sendFlits_writes {m : Nat} (hm : 34359738368 &&& m = 34359738368) {a1 : _} {a2 : _} {a3 : _} : (sendFlits a1 a2 a3).Writes m := by
  have c0 := @sendFlit_writes m (within_mask hm rfl)
  induction a3 generalizing a1 a2 with
  | nil =>
    unfold sendFlits
    repeat' first
      | with_reducible first | exact writes_done | exact writes_nil | refine writes_cons ?_ ?_ | refine writes_seq ?_ ?_ | refine writes_look fun _ => ?_ | refine writes_when ?_ | refine writes_each fun _ => ?_ | refine writes_ite ?_ ?_ | exact c0 | refine writes_act (bit_mask hm ?_)
      | ((with_reducible show Nat.testBit _ (Eff.num _) = true); simp only [Eff.num]; rfl) | split | dsimp only
  | cons x xs ih =>
    unfold sendFlits
    repeat' first
      | with_reducible first | apply ih | exact writes_done | exact writes_nil | refine writes_cons ?_ ?_ | refine writes_seq ?_ ?_ | refine writes_look fun _ => ?_ | refine writes_when ?_ | refine writes_each fun _ => ?_ | refine writes_ite ?_ ?_ | exact c0 | refine writes_act (bit_mask hm ?_)
      | ((with_reducible show Nat.testBit _ (Eff.num _) = true); simp only [Eff.num]; rfl) | split | dsimp only

theorem pumpPort_writes {m : Nat} (hm : 34359738880 &&& m = 34359738880) {a1 : _} : (pumpPort a1).Writes m := by
  have c0 := @modPort_writes m (within_mask hm rfl)
  have c1 := @sendFlits_writes m (within_mask hm rfl)
  unfold pumpPort
  repeat' first
    | with_reducible first | exact writes_done | exact writes_nil | refine writes_cons ?_ ?_ | refine writes_seq ?_ ?_ | refine writes_look fun _ => ?_ | refine writes_when ?_ | refine writes_each fun _ => ?_ | refine writes_ite ?_ ?_ | exact c0 | exact c1 | refine writes_act (bit_mask hm ?_)
    | ((with_reducible show Nat.testBit _ (Eff.num _) = true); simp only [Eff.num]; rfl) | split | dsimp only

theorem linkSend_writes {m : Nat} (hm : 34359756288 &&& m = 34359756288) {a1 : _} {a2 : _} {a3 : _} {a4 : _} : (linkSend a1 a2 a3 a4).Writes m := by
  have c0 := @modPort_writes m (within_mask hm rfl)
  have c1 := @modStream_writes m (within_mask hm rfl)
  have c2 := @pumpPort_writes m (within_mask hm rfl)
  have c3 := @tally_writes m (within_mask hm rfl)
  unfold linkSend
  repeat' first
    | with_reducible first | exact writes_done | exact writes_nil | refine writes_cons ?_ ?_ | refine writes_seq ?_ ?_ | refine writes_look fun _ => ?_ | refine writes_when ?_ | refine writes_each fun _ => ?_ | refine writes_ite ?_ ?_ | exact c0 | exact c1 | exact c2 | exact c3 | refine writes_act (bit_mask hm ?_)
    | ((with_reducible show Nat.testBit _ (Eff.num _) = true); simp only [Eff.num]; rfl) | split | dsimp only

theorem recordLink_writes {m : Nat} (hm : 34366058497 &&& m = 34366058497) {a1 : _} : (recordLink a1).Writes m := by
  have c0 := @record_writes m (within_mask hm rfl)
  unfold recordLink
  repeat' first
    | with_reducible first | exact writes_done | exact writes_nil | refine writes_cons ?_ ?_ | refine writes_seq ?_ ?_ | refine writes_look fun _ => ?_ | refine writes_when ?_ | refine writes_each fun _ => ?_ | refine writes_ite ?_ ?_ | exact c0 | refine writes_act (bit_mask hm ?_)
    | ((with_reducible show Nat.testBit _ (Eff.num _) = true); simp only [Eff.num]; rfl) | split | dsimp only

theorem setPort_writes {m : Nat} (hm : 34366058497 &&& m = 34366058497) {a1 : _} {a2 : _} {a3 : _} : (setPort a1 a2 a3).Writes m := by
  have c0 := @put_writes m (within_mask hm rfl)
  have c1 := @recordLink_writes m (within_mask hm rfl)
  unfold setPort
  repeat' first
    | with_reducible first | exact writes_done | exact writes_nil | refine writes_cons ?_ ?_ | refine writes_seq ?_ ?_ | refine writes_look fun _ => ?_ | refine writes_when ?_ | refine writes_each fun _ => ?_ | refine writes_ite ?_ ?_ | exact c0 | exact c1 | refine writes_act (bit_mask hm ?_)
    | ((with_reducible show Nat.testBit _ (Eff.num _) = true); simp only [Eff.num]; rfl) | split | dsimp only

theorem spiFrame_writes {m : Nat} (hm : 34359738369 &&& m = 34359738369) {a1 : _} : (spiFrame a1).Writes m := by
  have c0 := @bump_writes m (within_mask hm rfl)
  have c1 := @send_writes m (within_mask hm rfl)
  unfold spiFrame
  repeat' first
    | with_reducible first | exact writes_done | exact writes_nil | refine writes_cons ?_ ?_ | refine writes_seq ?_ ?_ | refine writes_look fun _ => ?_ | refine writes_when ?_ | refine writes_each fun _ => ?_ | refine writes_ite ?_ ?_ | exact c0 | exact c1 | refine writes_act (bit_mask hm ?_)
    | ((with_reducible show Nat.testBit _ (Eff.num _) = true); simp only [Eff.num]; rfl) | split | dsimp only

theorem spiFrames_writes {m : Nat} (hm : 34359738369 &&& m = 34359738369) {a1 : _} {a2 : _} : (spiFrames a1 a2).Writes m := by
  have c0 := @bump_writes m (within_mask hm rfl)
  have c1 := @spiFrame_writes m (within_mask hm rfl)
  unfold spiFrames
  repeat' first
    | with_reducible first | exact writes_done | exact writes_nil | refine writes_cons ?_ ?_ | refine writes_seq ?_ ?_ | refine writes_look fun _ => ?_ | refine writes_when ?_ | refine writes_each fun _ => ?_ | refine writes_ite ?_ ?_ | exact c0 | exact c1 | refine writes_act (bit_mask hm ?_)
    | ((with_reducible show Nat.testBit _ (Eff.num _) = true); simp only [Eff.num]; rfl) | split | dsimp only

theorem xcnRefused_writes {m : Nat} (hm : 524289 &&& m = 524289) {a1 : _} : (xcnRefused a1).Writes m := by
  have c0 := @clearGo_writes m (within_mask hm rfl)
  have c1 := @modXcn_writes m (within_mask hm rfl)
  have c2 := @put_writes m (within_mask hm rfl)
  unfold xcnRefused
  repeat' first
    | with_reducible first | exact writes_done | exact writes_nil | refine writes_cons ?_ ?_ | refine writes_seq ?_ ?_ | refine writes_look fun _ => ?_ | refine writes_when ?_ | refine writes_each fun _ => ?_ | refine writes_ite ?_ ?_ | exact c0 | exact c1 | exact c2 | refine writes_act (bit_mask hm ?_)
    | ((with_reducible show Nat.testBit _ (Eff.num _) = true); simp only [Eff.num]; rfl) | split | dsimp only

theorem xcnBegin_writes {m : Nat} (hm : 51540131841 &&& m = 51540131841) {a1 : _} : (xcnBegin a1).Writes m := by
  have c0 := @modXcn_writes m (within_mask hm rfl)
  have c1 := @put_writes m (within_mask hm rfl)
  have c2 := @spiFrames_writes m (within_mask hm rfl)
  have c3 := @withFree_writes m (within_mask hm rfl)
  have c4 := @xcnRefused_writes m (within_mask hm rfl)
  unfold xcnBegin
  repeat' first
    | with_reducible first | exact writes_done | exact writes_nil | refine writes_cons ?_ ?_ | refine writes_seq ?_ ?_ | refine writes_look fun _ => ?_ | refine writes_when ?_ | refine writes_each fun _ => ?_ | refine writes_ite ?_ ?_ | exact c0 | exact c1 | exact c2 | refine c3 (fun _ => ?_) | exact c4 | refine writes_act (bit_mask hm ?_)
    | ((with_reducible show Nat.testBit _ (Eff.num _) = true); simp only [Eff.num]; rfl) | split | dsimp only

theorem xcnQueue_writes {m : Nat} (hm : 51540131841 &&& m = 51540131841) {a1 : _} : (xcnQueue a1).Writes m := by
  have c0 := @modXcn_writes m (within_mask hm rfl)
  have c1 := @xcnBegin_writes m (within_mask hm rfl)
  have c2 := @xcnRefused_writes m (within_mask hm rfl)
  unfold xcnQueue
  repeat' first
    | with_reducible first | exact writes_done | exact writes_nil | refine writes_cons ?_ ?_ | refine writes_seq ?_ ?_ | refine writes_look fun _ => ?_ | refine writes_when ?_ | refine writes_each fun _ => ?_ | refine writes_ite ?_ ?_ | exact c0 | exact c1 | exact c2 | refine writes_act (bit_mask hm ?_)
    | ((with_reducible show Nat.testBit _ (Eff.num _) = true); simp only [Eff.num]; rfl) | split | dsimp only

theorem xcnMove_writes {m : Nat} (hm : 51540131841 &&& m = 51540131841) {a1 : _} {a2 : _} : (xcnMove a1 a2).Writes m := by
  have c0 := @put_writes m (within_mask hm rfl)
  have c1 := @xcnQueue_writes m (within_mask hm rfl)
  unfold xcnMove
  repeat' first
    | with_reducible first | exact writes_done | exact writes_nil | refine writes_cons ?_ ?_ | refine writes_seq ?_ ?_ | refine writes_look fun _ => ?_ | refine writes_when ?_ | refine writes_each fun _ => ?_ | refine writes_ite ?_ ?_ | exact c0 | exact c1 | refine writes_act (bit_mask hm ?_)
    | ((with_reducible show Nat.testBit _ (Eff.num _) = true); simp only [Eff.num]; rfl) | split | dsimp only

theorem countSessions_writes {m : Nat} (hm : 1 &&& m = 1) : (countSessions).Writes m := by
  have c0 := @put_writes m (within_mask hm rfl)
  unfold countSessions
  repeat' first
    | with_reducible first | exact writes_done | exact writes_nil | refine writes_cons ?_ ?_ | refine writes_seq ?_ ?_ | refine writes_look fun _ => ?_ | refine writes_when ?_ | refine writes_each fun _ => ?_ | refine writes_ite ?_ ?_ | exact c0 | refine writes_act (bit_mask hm ?_)
    | ((with_reducible show Nat.testBit _ (Eff.num _) = true); simp only [Eff.num]; rfl) | split | dsimp only

theorem recordRole_writes {m : Nat} (hm : 34366058497 &&& m = 34366058497) {a1 : _} {a2 : _} {a3 : _} : (recordRole a1 a2 a3).Writes m := by
  have c0 := @record_writes m (within_mask hm rfl)
  unfold recordRole
  repeat' first
    | with_reducible first | exact writes_done | exact writes_nil | refine writes_cons ?_ ?_ | refine writes_seq ?_ ?_ | refine writes_look fun _ => ?_ | refine writes_when ?_ | refine writes_each fun _ => ?_ | refine writes_ite ?_ ?_ | exact c0 | refine writes_act (bit_mask hm ?_)
    | ((with_reducible show Nat.testBit _ (Eff.num _) = true); simp only [Eff.num]; rfl) | split | dsimp only

theorem pSend_writes {m : Nat} (hm : 34359758336 &&& m = 34359758336) {a1 : _} {a2 : _} : (pSend a1 a2).Writes m := by
  have c0 := @linkSend_writes m (within_mask hm rfl)
  have c1 := @modPeer_writes m (within_mask hm rfl)
  have c2 := @send_writes m (within_mask hm rfl)
  have c3 := @tally_writes m (within_mask hm rfl)
  unfold pSend
  repeat' first
    | with_reducible first | exact writes_done | exact writes_nil | refine writes_cons ?_ ?_ | refine writes_seq ?_ ?_ | refine writes_look fun _ => ?_ | refine writes_when ?_ | refine writes_each fun _ => ?_ | refine writes_ite ?_ ?_ | exact c0 | exact c1 | exact c2 | exact c3 | refine writes_act (bit_mask hm ?_)
    | ((with_reducible show Nat.testBit _ (Eff.num _) = true); simp only [Eff.num]; rfl) | split | dsimp only

theorem notify_writes {m : Nat} (hm : 34359758336 &&& m = 34359758336) {a1 : _} {a2 : _} {a3 : _} {a4 : _} : (notify a1 a2 a3 a4).Writes m := by
  have c0 := @modPeer_writes m (within_mask hm rfl)
  have c1 := @pSend_writes m (within_mask hm rfl)
  have c2 := @send_writes m (within_mask hm rfl)
  unfold notify
  repeat' first
    | with_reducible first | exact writes_done | exact writes_nil | refine writes_cons ?_ ?_ | refine writes_seq ?_ ?_ | refine writes_look fun _ => ?_ | refine writes_when ?_ | refine writes_each fun _ => ?_ | refine writes_ite ?_ ?_ | exact c0 | exact c1 | exact c2 | refine writes_act (bit_mask hm ?_)
    | ((with_reducible show Nat.testBit _ (Eff.num _) = true); simp only [Eff.num]; rfl) | split | dsimp only

theorem tellPartner_writes {m : Nat} (hm : 34359758336 &&& m = 34359758336) : (tellPartner).Writes m := by
  have c0 := @notify_writes m (within_mask hm rfl)
  unfold tellPartner
  repeat' first
    | with_reducible first | exact writes_done | exact writes_nil | refine writes_cons ?_ ?_ | refine writes_seq ?_ ?_ | refine writes_look fun _ => ?_ | refine writes_when ?_ | refine writes_each fun _ => ?_ | refine writes_ite ?_ ?_ | exact c0 | refine writes_act (bit_mask hm ?_)
    | ((with_reducible show Nat.testBit _ (Eff.num _) = true); simp only [Eff.num]; rfl) | split | dsimp only

theorem enterRole_writes {m : Nat} (hm : 34366193153 &&& m = 34366193153) {a1 : _} {a2 : _} {a3 : _} : (enterRole a1 a2 a3).Writes m := by
  have c0 := @modMode_writes m (within_mask hm rfl)
  have c1 := @notice_writes m (within_mask hm rfl)
  have c2 := @recordRole_writes m (within_mask hm rfl)
  have c3 := @tellPartner_writes m (within_mask hm rfl)
  unfold enterRole
  repeat' first
    | with_reducible first | exact writes_done | exact writes_nil | refine writes_cons ?_ ?_ | refine writes_seq ?_ ?_ | refine writes_look fun _ => ?_ | refine writes_when ?_ | refine writes_each fun _ => ?_ | refine writes_ite ?_ ?_ | exact c0 | exact c1 | exact c2 | exact c3 | refine writes_act (bit_mask hm ?_)
    | ((with_reducible show Nat.testBit _ (Eff.num _) = true); simp only [Eff.num]; rfl) | split | dsimp only

theorem heard_writes {m : Nat} (hm : 18432 &&& m = 18432) {a1 : _} {a2 : _} : (heard a1 a2).Writes m := by
  have c0 := @modPeer_writes m (within_mask hm rfl)
  have c1 := @tally_writes m (within_mask hm rfl)
  unfold heard
  repeat' first
    | with_reducible first | exact writes_done | exact writes_nil | refine writes_cons ?_ ?_ | refine writes_seq ?_ ?_ | refine writes_look fun _ => ?_ | refine writes_when ?_ | refine writes_each fun _ => ?_ | refine writes_ite ?_ ?_ | exact c0 | exact c1 | refine writes_act (bit_mask hm ?_)
    | ((with_reducible show Nat.testBit _ (Eff.num _) = true); simp only [Eff.num]; rfl) | split | dsimp only

theorem pAnswer_writes {m : Nat} (hm : 34359758336 &&& m = 34359758336) {a1 : _} {a2 : _} {a3 : _} {a4 : _} {a5 : _} : (pAnswer a1 a2 a3 a4 a5).Writes m := by
  have c0 := @pSend_writes m (within_mask hm rfl)
  have c1 := @send_writes m (within_mask hm rfl)
  unfold pAnswer
  repeat' first
    | with_reducible first | exact writes_done | exact writes_nil | refine writes_cons ?_ ?_ | refine writes_seq ?_ ?_ | refine writes_look fun _ => ?_ | refine writes_when ?_ | refine writes_each fun _ => ?_ | refine writes_ite ?_ ?_ | exact c0 | exact c1 | refine writes_act (bit_mask hm ?_)
    | ((with_reducible show Nat.testBit _ (Eff.num _) = true); simp only [Eff.num]; rfl) | split | dsimp only

theorem onNoticeIn_writes {m : Nat} (hm : 34359758337 &&& m = 34359758337) {a1 : _} {a2 : _} {a3 : _} {a4 : _} {a5 : _} {a6 : _} (h6 : (a6).Writes m) : (onNoticeIn a1 a2 a3 a4 a5 a6).Writes m := by
  have c0 := @bump_writes m (within_mask hm rfl)
  have c1 := @heard_writes m (within_mask hm rfl)
  have c2 := @pAnswer_writes m (within_mask hm rfl)
  unfold onNoticeIn
  repeat' first
    | with_reducible first | exact writes_done | exact writes_nil | refine writes_cons ?_ ?_ | refine writes_seq ?_ ?_ | refine writes_look fun _ => ?_ | refine writes_when ?_ | refine writes_each fun _ => ?_ | refine writes_ite ?_ ?_ | exact c0 | exact c1 | exact c2 | exact h6 | refine writes_act (bit_mask hm ?_)
    | ((with_reducible show Nat.testBit _ (Eff.num _) = true); simp only [Eff.num]; rfl) | split | dsimp only

theorem onNotice_writes {m : Nat} (hm : 34359758337 &&& m = 34359758337) {a1 : _} {a2 : _} {a3 : _} {a4 : _} {a5 : _} (h5 : (a5).Writes m) : (onNotice a1 a2 a3 a4 a5).Writes m := by
  have c0 := @onNoticeIn_writes m (within_mask hm rfl)
  unfold onNotice
  repeat' first
    | with_reducible first | exact writes_done | exact writes_nil | refine writes_cons ?_ ?_ | refine writes_seq ?_ ?_ | refine writes_look fun _ => ?_ | refine writes_when ?_ | refine writes_each fun _ => ?_ | refine writes_ite ?_ ?_ | refine c0 ?_ | exact h5 | refine writes_act (bit_mask hm ?_)
    | ((with_reducible show Nat.testBit _ (Eff.num _) = true); simp only [Eff.num]; rfl) | split | dsimp only

theorem onNoticeOk_writes {m : Nat} (hm : 34359758337 &&& m = 34359758337) {a1 : _} {a2 : _} {a3 : _} {a4 : _} {a5 : _} (h5 : (a5).Writes m) : (onNoticeOk a1 a2 a3 a4 a5).Writes m := by
  have c0 := @onNotice_writes m (within_mask hm rfl)
  have c1 := @pAnswer_writes m (within_mask hm rfl)
  unfold onNoticeOk
  repeat' first
    | with_reducible first | exact writes_done | exact writes_nil | refine writes_cons ?_ ?_ | refine writes_seq ?_ ?_ | refine writes_look fun _ => ?_ | refine writes_when ?_ | refine writes_each fun _ => ?_ | refine writes_ite ?_ ?_ | refine c0 ?_ | exact c1 | exact h5 | refine writes_act (bit_mask hm ?_)
    | ((with_reducible show Nat.testBit _ (Eff.num _) = true); simp only [Eff.num]; rfl) | split | dsimp only

theorem onTeardown_writes {m : Nat} (hm : 34359758337 &&& m = 34359758337) {a1 : _} {a2 : _} (h2 : (a2).Writes m) : (onTeardown a1 a2).Writes m := by
  have c0 := @onNoticeIn_writes m (within_mask hm rfl)
  have c1 := @pAnswer_writes m (within_mask hm rfl)
  unfold onTeardown
  repeat' first
    | with_reducible first | exact writes_done | exact writes_nil | refine writes_cons ?_ ?_ | refine writes_seq ?_ ?_ | refine writes_look fun _ => ?_ | refine writes_when ?_ | refine writes_each fun _ => ?_ | refine writes_ite ?_ ?_ | refine c0 ?_ | exact c1 | exact h2 | refine writes_act (bit_mask hm ?_)
    | ((with_reducible show Nat.testBit _ (Eff.num _) = true); simp only [Eff.num]; rfl) | split | dsimp only

end Sys2Proof.Machine
end

