-- ==== Sys2Proof/Laws/Writes3.lean ====
section
/-! SUPPORT. What each shared operation writes (part 3): one lemma per operation, of the areas its effects name. -/

set_option maxRecDepth 16000

namespace Sys2Proof.Machine

theorem openSession_writes {m : Nat} (hm : 51549064705 &&& m = 51549064705) {a1 : _} {a2 : _} : (openSession a1 a2).Writes m := by
  have c0 := @countSessions_writes m (within_mask hm rfl)
  have c1 := @modPeer_writes m (within_mask hm rfl)
  have c2 := @modSync_writes m (within_mask hm rfl)
  have c3 := @pSend_writes m (within_mask hm rfl)
  have c4 := @withFrees_writes m (within_mask hm rfl)
  have c5 := @withIdentity_writes m (within_mask hm rfl)
  unfold openSession
  repeat' first
    | with_reducible first | exact writes_done | exact writes_nil | refine writes_cons ?_ ?_ | refine writes_seq ?_ ?_ | refine writes_look fun _ => ?_ | refine writes_when ?_ | refine writes_each fun _ => ?_ | refine writes_ite ?_ ?_ | exact c0 | exact c1 | exact c2 | exact c3 | refine c4 (fun _ => ?_) | refine c5 (fun _ => ?_) | refine writes_act (bit_mask hm ?_)
    | ((with_reducible show Nat.testBit _ (Eff.num _) = true); simp only [Eff.num]; rfl) | split | dsimp only

theorem countWatches_writes {m : Nat} (hm : 1 &&& m = 1) : (countWatches).Writes m := by
  have c0 := @put_writes m (within_mask hm rfl)
  unfold countWatches
  repeat' first
    | with_reducible first | exact writes_done | exact writes_nil | refine writes_cons ?_ ?_ | refine writes_seq ?_ ?_ | refine writes_look fun _ => ?_ | refine writes_when ?_ | refine writes_each fun _ => ?_ | refine writes_ite ?_ ?_ | exact c0 | refine writes_act (bit_mask hm ?_)
    | ((with_reducible show Nat.testBit _ (Eff.num _) = true); simp only [Eff.num]; rfl) | split | dsimp only

theorem dropWatch_writes {m : Nat} (hm : 257 &&& m = 257) {a1 : _} : (dropWatch a1).Writes m := by
  have c0 := @countWatches_writes m (within_mask hm rfl)
  unfold dropWatch
  repeat' first
    | with_reducible first | exact writes_done | exact writes_nil | refine writes_cons ?_ ?_ | refine writes_seq ?_ ?_ | refine writes_look fun _ => ?_ | refine writes_when ?_ | refine writes_each fun _ => ?_ | refine writes_ite ?_ ?_ | exact c0 | refine writes_act (bit_mask hm ?_)
    | ((with_reducible show Nat.testBit _ (Eff.num _) = true); simp only [Eff.num]; rfl) | split | dsimp only

theorem watchTell_writes {m : Nat} (hm : 34359758336 &&& m = 34359758336) {a1 : _} {a2 : _} {a3 : _} : (watchTell a1 a2 a3).Writes m := by
  have c0 := @pSend_writes m (within_mask hm rfl)
  have c1 := @send_writes m (within_mask hm rfl)
  unfold watchTell
  repeat' first
    | with_reducible first | exact writes_done | exact writes_nil | refine writes_cons ?_ ?_ | refine writes_seq ?_ ?_ | refine writes_look fun _ => ?_ | refine writes_when ?_ | refine writes_each fun _ => ?_ | refine writes_ite ?_ ?_ | exact c0 | exact c1 | refine writes_act (bit_mask hm ?_)
    | ((with_reducible show Nat.testBit _ (Eff.num _) = true); simp only [Eff.num]; rfl) | split | dsimp only

theorem fireOthers_writes {m : Nat} (hm : 34359758593 &&& m = 34359758593) {a1 : _} : (fireOthers a1).Writes m := by
  have c0 := @dropWatch_writes m (within_mask hm rfl)
  have c1 := @tally_writes m (within_mask hm rfl)
  have c2 := @watchTell_writes m (within_mask hm rfl)
  unfold fireOthers
  repeat' first
    | with_reducible first | exact writes_done | exact writes_nil | refine writes_cons ?_ ?_ | refine writes_seq ?_ ?_ | refine writes_look fun _ => ?_ | refine writes_when ?_ | refine writes_each fun _ => ?_ | refine writes_ite ?_ ?_ | exact c0 | exact c1 | exact c2 | refine writes_act (bit_mask hm ?_)
    | ((with_reducible show Nat.testBit _ (Eff.num _) = true); simp only [Eff.num]; rfl) | split | dsimp only

theorem advanceQuiet_writes {m : Nat} (hm : 34359758721 &&& m = 34359758721) {a1 : _} {a2 : _} : (advanceQuiet a1 a2).Writes m := by
  have c0 := @fireOthers_writes m (within_mask hm rfl)
  have c1 := @tally_writes m (within_mask hm rfl)
  unfold advanceQuiet
  repeat' first
    | with_reducible first | exact writes_done | exact writes_nil | refine writes_cons ?_ ?_ | refine writes_seq ?_ ?_ | refine writes_look fun _ => ?_ | refine writes_when ?_ | refine writes_each fun _ => ?_ | refine writes_ite ?_ ?_ | exact c0 | exact c1 | refine writes_act (bit_mask hm ?_)
    | ((with_reducible show Nat.testBit _ (Eff.num _) = true); simp only [Eff.num]; rfl) | split | dsimp only

theorem armOther_writes {m : Nat} (hm : 34359762689 &&& m = 34359762689) {a1 : _} {a2 : _} (h2 : ∀ x0 x1, (a2 x0 x1).Writes m) : (armOther a1 a2).Writes m := by
  have c0 := @countWatches_writes m (within_mask hm rfl)
  have c1 := @fireOthers_writes m (within_mask hm rfl)
  have c2 := @raise_writes m (within_mask hm rfl)
  unfold armOther
  repeat' first
    | with_reducible first | exact writes_done | exact writes_nil | refine writes_cons ?_ ?_ | refine writes_seq ?_ ?_ | refine writes_look fun _ => ?_ | refine writes_when ?_ | refine writes_each fun _ => ?_ | refine writes_ite ?_ ?_ | exact c0 | exact c1 | exact c2 | exact h2 _ _ | refine writes_act (bit_mask hm ?_)
    | ((with_reducible show Nat.testBit _ (Eff.num _) = true); simp only [Eff.num]; rfl) | split | dsimp only

theorem countOpen_writes {m : Nat} (hm : 1 &&& m = 1) : (countOpen).Writes m := by
  have c0 := @put_writes m (within_mask hm rfl)
  unfold countOpen
  repeat' first
    | with_reducible first | exact writes_done | exact writes_nil | refine writes_cons ?_ ?_ | refine writes_seq ?_ ?_ | refine writes_look fun _ => ?_ | refine writes_when ?_ | refine writes_each fun _ => ?_ | refine writes_ite ?_ ?_ | exact c0 | refine writes_act (bit_mask hm ?_)
    | ((with_reducible show Nat.testBit _ (Eff.num _) = true); simp only [Eff.num]; rfl) | split | dsimp only

theorem closeLost_writes {m : Nat} (hm : 34360807425 &&& m = 34360807425) {a1 : _} : (closeLost a1).Writes m := by
  have c0 := @bump_writes m (within_mask hm rfl)
  have c1 := @countOpen_writes m (within_mask hm rfl)
  have c2 := @modSync_writes m (within_mask hm rfl)
  have c3 := @raise_writes m (within_mask hm rfl)
  unfold closeLost
  repeat' first
    | with_reducible first | exact writes_done | exact writes_nil | refine writes_cons ?_ ?_ | refine writes_seq ?_ ?_ | refine writes_look fun _ => ?_ | refine writes_when ?_ | refine writes_each fun _ => ?_ | refine writes_ite ?_ ?_ | exact c0 | exact c1 | exact c2 | exact c3 | refine writes_act (bit_mask hm ?_)
    | ((with_reducible show Nat.testBit _ (Eff.num _) = true); simp only [Eff.num]; rfl) | split | dsimp only

theorem dumpTo_writes {m : Nat} (hm : 6 &&& m = 6) {a1 : _} {a2 : _} {a3 : _} {a4 : _} {a5 : _} {a6 : _} : (dumpTo a1 a2 a3 a4 a5 a6).Writes m := by
  have c0 := @writePhys_writes m (within_mask hm rfl)
  have c1 := @zeroPhys_writes m (within_mask hm rfl)
  unfold dumpTo
  repeat' first
    | with_reducible first | exact writes_done | exact writes_nil | refine writes_cons ?_ ?_ | refine writes_seq ?_ ?_ | refine writes_look fun _ => ?_ | refine writes_when ?_ | refine writes_each fun _ => ?_ | refine writes_ite ?_ ?_ | exact c0 | exact c1 | refine writes_act (bit_mask hm ?_)
    | ((with_reducible show Nat.testBit _ (Eff.num _) = true); simp only [Eff.num]; rfl) | split | dsimp only

theorem writeDump_writes {m : Nat} (hm : 34360807431 &&& m = 34360807431) {a1 : _} {a2 : _} {a3 : _} {a4 : _} : (writeDump a1 a2 a3 a4).Writes m := by
  have c0 := @dumpTo_writes m (within_mask hm rfl)
  have c1 := @modSync_writes m (within_mask hm rfl)
  have c2 := @put_writes m (within_mask hm rfl)
  have c3 := @raise_writes m (within_mask hm rfl)
  have c4 := @send_writes m (within_mask hm rfl)
  unfold writeDump
  repeat' first
    | with_reducible first | exact writes_done | exact writes_nil | refine writes_cons ?_ ?_ | refine writes_seq ?_ ?_ | refine writes_look fun _ => ?_ | refine writes_when ?_ | refine writes_each fun _ => ?_ | refine writes_ite ?_ ?_ | exact c0 | exact c1 | exact c2 | exact c3 | exact c4 | refine writes_act (bit_mask hm ?_)
    | ((with_reducible show Nat.testBit _ (Eff.num _) = true); simp only [Eff.num]; rfl) | split | dsimp only

theorem zeroJobWindow_writes {m : Nat} (hm : 128 &&& m = 128) : (zeroJobWindow).Writes m := by
  unfold zeroJobWindow
  repeat' first
    | with_reducible first | exact writes_done | exact writes_nil | refine writes_cons ?_ ?_ | refine writes_seq ?_ ?_ | refine writes_look fun _ => ?_ | refine writes_when ?_ | refine writes_each fun _ => ?_ | refine writes_ite ?_ ?_ | refine writes_act (bit_mask hm ?_)
    | ((with_reducible show Nat.testBit _ (Eff.num _) = true); simp only [Eff.num]; rfl) | split | dsimp only

theorem windowFinal_writes {m : Nat} (hm : 34360807559 &&& m = 34360807559) : (windowFinal).Writes m := by
  have c0 := @countOpen_writes m (within_mask hm rfl)
  have c1 := @modSync_writes m (within_mask hm rfl)
  have c2 := @writeDump_writes m (within_mask hm rfl)
  have c3 := @zeroJobWindow_writes m (within_mask hm rfl)
  unfold windowFinal
  repeat' first
    | with_reducible first | exact writes_done | exact writes_nil | refine writes_cons ?_ ?_ | refine writes_seq ?_ ?_ | refine writes_look fun _ => ?_ | refine writes_when ?_ | refine writes_each fun _ => ?_ | refine writes_ite ?_ ?_ | exact c0 | exact c1 | exact c2 | exact c3 | refine writes_act (bit_mask hm ?_)
    | ((with_reducible show Nat.testBit _ (Eff.num _) = true); simp only [Eff.num]; rfl) | split | dsimp only

theorem fenceWindow_writes {m : Nat} (hm : 34360807559 &&& m = 34360807559) : (fenceWindow).Writes m := by
  have c0 := @modSync_writes m (within_mask hm rfl)
  have c1 := @put_writes m (within_mask hm rfl)
  have c2 := @windowFinal_writes m (within_mask hm rfl)
  unfold fenceWindow
  repeat' first
    | with_reducible first | exact writes_done | exact writes_nil | refine writes_cons ?_ ?_ | refine writes_seq ?_ ?_ | refine writes_look fun _ => ?_ | refine writes_when ?_ | refine writes_each fun _ => ?_ | refine writes_ite ?_ ?_ | exact c0 | exact c1 | exact c2 | refine writes_act (bit_mask hm ?_)
    | ((with_reducible show Nat.testBit _ (Eff.num _) = true); simp only [Eff.num]; rfl) | split | dsimp only

theorem openWindow_writes {m : Nat} (hm : 1048577 &&& m = 1048577) : (openWindow).Writes m := by
  have c0 := @modSync_writes m (within_mask hm rfl)
  have c1 := @put_writes m (within_mask hm rfl)
  unfold openWindow
  repeat' first
    | with_reducible first | exact writes_done | exact writes_nil | refine writes_cons ?_ ?_ | refine writes_seq ?_ ?_ | refine writes_look fun _ => ?_ | refine writes_when ?_ | refine writes_each fun _ => ?_ | refine writes_ite ?_ ?_ | exact c0 | exact c1 | refine writes_act (bit_mask hm ?_)
    | ((with_reducible show Nat.testBit _ (Eff.num _) = true); simp only [Eff.num]; rfl) | split | dsimp only

theorem packetWritten_writes {m : Nat} (hm : 34360807425 &&& m = 34360807425) {a1 : _} {a2 : _} {a3 : _} {a4 : _} (h4 : ∀ x0 x1, (a4 x0 x1).Writes m) : (packetWritten a1 a2 a3 a4).Writes m := by
  have c0 := @countOpen_writes m (within_mask hm rfl)
  have c1 := @modSync_writes m (within_mask hm rfl)
  have c2 := @raise_writes m (within_mask hm rfl)
  unfold packetWritten
  repeat' first
    | with_reducible first | exact writes_done | exact writes_nil | refine writes_cons ?_ ?_ | refine writes_seq ?_ ?_ | refine writes_look fun _ => ?_ | refine writes_when ?_ | refine writes_each fun _ => ?_ | refine writes_ite ?_ ?_ | exact c0 | exact c1 | exact c2 | exact h4 _ _ | refine writes_act (bit_mask hm ?_)
    | ((with_reducible show Nat.testBit _ (Eff.num _) = true); simp only [Eff.num]; rfl) | split | dsimp only

theorem forwardDown_writes {m : Nat} (hm : 34359758336 &&& m = 34359758336) {a1 : _} {a2 : _} : (forwardDown a1 a2).Writes m := by
  have c0 := @notify_writes m (within_mask hm rfl)
  unfold forwardDown
  repeat' first
    | with_reducible first | exact writes_done | exact writes_nil | refine writes_cons ?_ ?_ | refine writes_seq ?_ ?_ | refine writes_look fun _ => ?_ | refine writes_when ?_ | refine writes_each fun _ => ?_ | refine writes_ite ?_ ?_ | exact c0 | refine writes_act (bit_mask hm ?_)
    | ((with_reducible show Nat.testBit _ (Eff.num _) = true); simp only [Eff.num]; rfl) | split | dsimp only

theorem broadcast_writes {m : Nat} (hm : 34359758336 &&& m = 34359758336) {a1 : _} {a2 : _} : (broadcast a1 a2).Writes m := by
  have c0 := @forwardDown_writes m (within_mask hm rfl)
  have c1 := @notify_writes m (within_mask hm rfl)
  unfold broadcast
  repeat' first
    | with_reducible first | exact writes_done | exact writes_nil | refine writes_cons ?_ ?_ | refine writes_seq ?_ ?_ | refine writes_look fun _ => ?_ | refine writes_when ?_ | refine writes_each fun _ => ?_ | refine writes_ite ?_ ?_ | exact c0 | exact c1 | refine writes_act (bit_mask hm ?_)
    | ((with_reducible show Nat.testBit _ (Eff.num _) = true); simp only [Eff.num]; rfl) | split | dsimp only

theorem oSendOn_writes {m : Nat} (hm : 34359789056 &&& m = 34359789056) {a1 : _} {a2 : _} {a3 : _} {a4 : _} : (oSendOn a1 a2 a3 a4).Writes m := by
  have c0 := @linkSend_writes m (within_mask hm rfl)
  have c1 := @modSlot_writes m (within_mask hm rfl)
  have c2 := @send_writes m (within_mask hm rfl)
  unfold oSendOn
  repeat' first
    | with_reducible first | exact writes_done | exact writes_nil | refine writes_cons ?_ ?_ | refine writes_seq ?_ ?_ | refine writes_look fun _ => ?_ | refine writes_when ?_ | refine writes_each fun _ => ?_ | refine writes_ite ?_ ?_ | exact c0 | exact c1 | exact c2 | refine writes_act (bit_mask hm ?_)
    | ((with_reducible show Nat.testBit _ (Eff.num _) = true); simp only [Eff.num]; rfl) | split | dsimp only

theorem oReq_writes {m : Nat} (hm : 34359789056 &&& m = 34359789056) {a1 : _} {a2 : _} {a3 : _} {a4 : _} {a5 : _} : (oReq a1 a2 a3 a4 a5).Writes m := by
  have c0 := @oSendOn_writes m (within_mask hm rfl)
  unfold oReq
  repeat' first
    | with_reducible first | exact writes_done | exact writes_nil | refine writes_cons ?_ ?_ | refine writes_seq ?_ ?_ | refine writes_look fun _ => ?_ | refine writes_when ?_ | refine writes_each fun _ => ?_ | refine writes_ite ?_ ?_ | exact c0 | refine writes_act (bit_mask hm ?_)
    | ((with_reducible show Nat.testBit _ (Eff.num _) = true); simp only [Eff.num]; rfl) | split | dsimp only

theorem commitNote_writes {m : Nat} (hm : 34359789056 &&& m = 34359789056) {a1 : _} {a2 : _} : (commitNote a1 a2).Writes m := by
  have c0 := @modSlot_writes m (within_mask hm rfl)
  have c1 := @oReq_writes m (within_mask hm rfl)
  unfold commitNote
  repeat' first
    | with_reducible first | exact writes_done | exact writes_nil | refine writes_cons ?_ ?_ | refine writes_seq ?_ ?_ | refine writes_look fun _ => ?_ | refine writes_when ?_ | refine writes_each fun _ => ?_ | refine writes_ite ?_ ?_ | exact c0 | exact c1 | refine writes_act (bit_mask hm ?_)
    | ((with_reducible show Nat.testBit _ (Eff.num _) = true); simp only [Eff.num]; rfl) | split | dsimp only

theorem countSlot_writes {m : Nat} (hm : 134217729 &&& m = 134217729) {a1 : _} : (countSlot a1).Writes m := by
  have c0 := @bump_writes m (within_mask hm rfl)
  have c1 := @modWit_writes m (within_mask hm rfl)
  have c2 := @put_writes m (within_mask hm rfl)
  unfold countSlot
  repeat' first
    | with_reducible first | exact writes_done | exact writes_nil | refine writes_cons ?_ ?_ | refine writes_seq ?_ ?_ | refine writes_look fun _ => ?_ | refine writes_when ?_ | refine writes_each fun _ => ?_ | refine writes_ite ?_ ?_ | exact c0 | exact c1 | exact c2 | refine writes_act (bit_mask hm ?_)
    | ((with_reducible show Nat.testBit _ (Eff.num _) = true); simp only [Eff.num]; rfl) | split | dsimp only

theorem intEvent_writes {m : Nat} (hm : 34500276225 &&& m = 34500276225) {a1 : _} {a2 : _} {a3 : _} {a4 : _} {a5 : _} : (intEvent a1 a2 a3 a4 a5).Writes m := by
  have c0 := @countSlot_writes m (within_mask hm rfl)
  have c1 := @modObs_writes m (within_mask hm rfl)
  have c2 := @put_writes m (within_mask hm rfl)
  have c3 := @raise_writes m (within_mask hm rfl)
  have c4 := @record_writes m (within_mask hm rfl)
  unfold intEvent
  repeat' first
    | with_reducible first | exact writes_done | exact writes_nil | refine writes_cons ?_ ?_ | refine writes_seq ?_ ?_ | refine writes_look fun _ => ?_ | refine writes_when ?_ | refine writes_each fun _ => ?_ | refine writes_ite ?_ ?_ | exact c0 | exact c1 | exact c2 | exact c3 | exact c4 | refine writes_act (bit_mask hm ?_)
    | ((with_reducible show Nat.testBit _ (Eff.num _) = true); simp only [Eff.num]; rfl) | split | dsimp only

theorem integrityOwn_writes {m : Nat} (hm : 34500276225 &&& m = 34500276225) {a1 : _} : (integrityOwn a1).Writes m := by
  have c0 := @intEvent_writes m (within_mask hm rfl)
  unfold integrityOwn
  repeat' first
    | with_reducible first | exact writes_done | exact writes_nil | refine writes_cons ?_ ?_ | refine writes_seq ?_ ?_ | refine writes_look fun _ => ?_ | refine writes_when ?_ | refine writes_each fun _ => ?_ | refine writes_ite ?_ ?_ | exact c0 | refine writes_act (bit_mask hm ?_)
    | ((with_reducible show Nat.testBit _ (Eff.num _) = true); simp only [Eff.num]; rfl) | split | dsimp only

theorem oAgain_writes {m : Nat} (hm : 34359789056 &&& m = 34359789056) {a1 : _} {a2 : _} : (oAgain a1 a2).Writes m := by
  have c0 := @oSendOn_writes m (within_mask hm rfl)
  unfold oAgain
  repeat' first
    | with_reducible first | exact writes_done | exact writes_nil | refine writes_cons ?_ ?_ | refine writes_seq ?_ ?_ | refine writes_look fun _ => ?_ | refine writes_when ?_ | refine writes_each fun _ => ?_ | refine writes_ite ?_ ?_ | exact c0 | refine writes_act (bit_mask hm ?_)
    | ((with_reducible show Nat.testBit _ (Eff.num _) = true); simp only [Eff.num]; rfl) | split | dsimp only

theorem oPackets_writes {m : Nat} (hm : 34359789056 &&& m = 34359789056) {a1 : _} {a2 : _} {a3 : _} {a4 : _} {a5 : _} {a6 : _} : (oPackets a1 a2 a3 a4 a5 a6).Writes m := by
  have c0 := @oSendOn_writes m (within_mask hm rfl)
  induction a6 generalizing a1 a2 a3 a4 a5 with
  | nil =>
    unfold oPackets
    repeat' first
      | with_reducible first | exact writes_done | exact writes_nil | refine writes_cons ?_ ?_ | refine writes_seq ?_ ?_ | refine writes_look fun _ => ?_ | refine writes_when ?_ | refine writes_each fun _ => ?_ | refine writes_ite ?_ ?_ | exact c0 | refine writes_act (bit_mask hm ?_)
      | ((with_reducible show Nat.testBit _ (Eff.num _) = true); simp only [Eff.num]; rfl) | split | dsimp only
  | cons x xs ih =>
    unfold oPackets
    repeat' first
      | with_reducible first | apply ih | exact writes_done | exact writes_nil | refine writes_cons ?_ ?_ | refine writes_seq ?_ ?_ | refine writes_look fun _ => ?_ | refine writes_when ?_ | refine writes_each fun _ => ?_ | refine writes_ite ?_ ?_ | exact c0 | refine writes_act (bit_mask hm ?_)
      | ((with_reducible show Nat.testBit _ (Eff.num _) = true); simp only [Eff.num]; rfl) | split | dsimp only

theorem oResp_writes {m : Nat} (hm : 34359789056 &&& m = 34359789056) {a1 : _} {a2 : _} {a3 : _} : (oResp a1 a2 a3).Writes m := by
  have c0 := @oSendOn_writes m (within_mask hm rfl)
  unfold oResp
  repeat' first
    | with_reducible first | exact writes_done | exact writes_nil | refine writes_cons ?_ ?_ | refine writes_seq ?_ ?_ | refine writes_look fun _ => ?_ | refine writes_when ?_ | refine writes_each fun _ => ?_ | refine writes_ite ?_ ?_ | exact c0 | refine writes_act (bit_mask hm ?_)
    | ((with_reducible show Nat.testBit _ (Eff.num _) = true); simp only [Eff.num]; rfl) | split | dsimp only

theorem oTell_writes {m : Nat} (hm : 34359789056 &&& m = 34359789056) {a1 : _} {a2 : _} {a3 : _} : (oTell a1 a2 a3).Writes m := by
  have c0 := @oSendOn_writes m (within_mask hm rfl)
  unfold oTell
  repeat' first
    | with_reducible first | exact writes_done | exact writes_nil | refine writes_cons ?_ ?_ | refine writes_seq ?_ ?_ | refine writes_look fun _ => ?_ | refine writes_when ?_ | refine writes_each fun _ => ?_ | refine writes_ite ?_ ?_ | exact c0 | refine writes_act (bit_mask hm ?_)
    | ((with_reducible show Nat.testBit _ (Eff.num _) = true); simp only [Eff.num]; rfl) | split | dsimp only

theorem oTransfer_writes {m : Nat} (hm : 34359789056 &&& m = 34359789056) {a1 : _} {a2 : _} {a3 : _} {a4 : _} : (oTransfer a1 a2 a3 a4).Writes m := by
  have c0 := @modSlot_writes m (within_mask hm rfl)
  have c1 := @oPackets_writes m (within_mask hm rfl)
  unfold oTransfer
  repeat' first
    | with_reducible first | exact writes_done | exact writes_nil | refine writes_cons ?_ ?_ | refine writes_seq ?_ ?_ | refine writes_look fun _ => ?_ | refine writes_when ?_ | refine writes_each fun _ => ?_ | refine writes_ite ?_ ?_ | exact c0 | exact c1 | refine writes_act (bit_mask hm ?_)
    | ((with_reducible show Nat.testBit _ (Eff.num _) = true); simp only [Eff.num]; rfl) | split | dsimp only

theorem sendBulk_writes {m : Nat} (hm : 34360806912 &&& m = 34360806912) {a1 : _} {a2 : _} {a3 : _} : (sendBulk a1 a2 a3).Writes m := by
  have c0 := @modSync_writes m (within_mask hm rfl)
  have c1 := @pSend_writes m (within_mask hm rfl)
  unfold sendBulk
  repeat' first
    | with_reducible first | exact writes_done | exact writes_nil | refine writes_cons ?_ ?_ | refine writes_seq ?_ ?_ | refine writes_look fun _ => ?_ | refine writes_when ?_ | refine writes_each fun _ => ?_ | refine writes_ite ?_ ?_ | exact c0 | exact c1 | refine writes_act (bit_mask hm ?_)
    | ((with_reducible show Nat.testBit _ (Eff.num _) = true); simp only [Eff.num]; rfl) | split | dsimp only

theorem sendContextRegs_writes {m : Nat} (hm : 34359789056 &&& m = 34359789056) {a1 : _} {a2 : _} : (sendContextRegs a1 a2).Writes m := by
  have c0 := @oReq_writes m (within_mask hm rfl)
  unfold sendContextRegs
  repeat' first
    | with_reducible first | exact writes_done | exact writes_nil | refine writes_cons ?_ ?_ | refine writes_seq ?_ ?_ | refine writes_look fun _ => ?_ | refine writes_when ?_ | refine writes_each fun _ => ?_ | refine writes_ite ?_ ?_ | exact c0 | refine writes_act (bit_mask hm ?_)
    | ((with_reducible show Nat.testBit _ (Eff.num _) = true); simp only [Eff.num]; rfl) | split | dsimp only

theorem sendCounters_writes {m : Nat} (hm : 34359789056 &&& m = 34359789056) {a1 : _} {a2 : _} : (sendCounters a1 a2).Writes m := by
  have c0 := @oTransfer_writes m (within_mask hm rfl)
  unfold sendCounters
  repeat' first
    | with_reducible first | exact writes_done | exact writes_nil | refine writes_cons ?_ ?_ | refine writes_seq ?_ ?_ | refine writes_look fun _ => ?_ | refine writes_when ?_ | refine writes_each fun _ => ?_ | refine writes_ite ?_ ?_ | exact c0 | refine writes_act (bit_mask hm ?_)
    | ((with_reducible show Nat.testBit _ (Eff.num _) = true); simp only [Eff.num]; rfl) | split | dsimp only

theorem sendKey_writes {m : Nat} (hm : 34359789056 &&& m = 34359789056) {a1 : _} {a2 : _} : (sendKey a1 a2).Writes m := by
  have c0 := @modSlot_writes m (within_mask hm rfl)
  have c1 := @oReq_writes m (within_mask hm rfl)
  unfold sendKey
  repeat' first
    | with_reducible first | exact writes_done | exact writes_nil | refine writes_cons ?_ ?_ | refine writes_seq ?_ ?_ | refine writes_look fun _ => ?_ | refine writes_when ?_ | refine writes_each fun _ => ?_ | refine writes_ite ?_ ?_ | exact c0 | exact c1 | refine writes_act (bit_mask hm ?_)
    | ((with_reducible show Nat.testBit _ (Eff.num _) = true); simp only [Eff.num]; rfl) | split | dsimp only

theorem sendRegions_writes {m : Nat} (hm : 34359789056 &&& m = 34359789056) {a1 : _} : (sendRegions a1).Writes m := by
  have c0 := @oReq_writes m (within_mask hm rfl)
  unfold sendRegions
  repeat' first
    | with_reducible first | exact writes_done | exact writes_nil | refine writes_cons ?_ ?_ | refine writes_seq ?_ ?_ | refine writes_look fun _ => ?_ | refine writes_when ?_ | refine writes_each fun _ => ?_ | refine writes_ite ?_ ?_ | exact c0 | refine writes_act (bit_mask hm ?_)
    | ((with_reducible show Nat.testBit _ (Eff.num _) = true); simp only [Eff.num]; rfl) | split | dsimp only

theorem witnessAs_writes {m : Nat} (hm : 134217728 &&& m = 134217728) {a1 : _} : (witnessAs a1).Writes m := by
  have c0 := @modWit_writes m (within_mask hm rfl)
  unfold witnessAs
  repeat' first
    | with_reducible first | exact writes_done | exact writes_nil | refine writes_cons ?_ ?_ | refine writes_seq ?_ ?_ | refine writes_look fun _ => ?_ | refine writes_when ?_ | refine writes_each fun _ => ?_ | refine writes_ite ?_ ?_ | exact c0 | refine writes_act (bit_mask hm ?_)
    | ((with_reducible show Nat.testBit _ (Eff.num _) = true); simp only [Eff.num]; rfl) | split | dsimp only

theorem sendSchedule_writes {m : Nat} (hm : 34494006784 &&& m = 34494006784) {a1 : _} : (sendSchedule a1).Writes m := by
  have c0 := @oReq_writes m (within_mask hm rfl)
  have c1 := @witnessAs_writes m (within_mask hm rfl)
  unfold sendSchedule
  repeat' first
    | with_reducible first | exact writes_done | exact writes_nil | refine writes_cons ?_ ?_ | refine writes_seq ?_ ?_ | refine writes_look fun _ => ?_ | refine writes_when ?_ | refine writes_each fun _ => ?_ | refine writes_ite ?_ ?_ | exact c0 | exact c1 | refine writes_act (bit_mask hm ?_)
    | ((with_reducible show Nat.testBit _ (Eff.num _) = true); simp only [Eff.num]; rfl) | split | dsimp only

theorem sendSelector_writes {m : Nat} (hm : 34359789056 &&& m = 34359789056) {a1 : _} {a2 : _} {a3 : _} : (sendSelector a1 a2 a3).Writes m := by
  have c0 := @oReq_writes m (within_mask hm rfl)
  unfold sendSelector
  repeat' first
    | with_reducible first | exact writes_done | exact writes_nil | refine writes_cons ?_ ?_ | refine writes_seq ?_ ?_ | refine writes_look fun _ => ?_ | refine writes_when ?_ | refine writes_each fun _ => ?_ | refine writes_ite ?_ ?_ | exact c0 | refine writes_act (bit_mask hm ?_)
    | ((with_reducible show Nat.testBit _ (Eff.num _) = true); simp only [Eff.num]; rfl) | split | dsimp only

theorem setSlot_writes {m : Nat} (hm : 1 &&& m = 1) {a1 : _} {a2 : _} : (setSlot a1 a2).Writes m := by
  have c0 := @put_writes m (within_mask hm rfl)
  unfold setSlot
  repeat' first
    | with_reducible first | exact writes_done | exact writes_nil | refine writes_cons ?_ ?_ | refine writes_seq ?_ ?_ | refine writes_look fun _ => ?_ | refine writes_when ?_ | refine writes_each fun _ => ?_ | refine writes_ite ?_ ?_ | exact c0 | refine writes_act (bit_mask hm ?_)
    | ((with_reducible show Nat.testBit _ (Eff.num _) = true); simp only [Eff.num]; rfl) | split | dsimp only

theorem toPartner_writes {m : Nat} (hm : 34359758336 &&& m = 34359758336) {a1 : _} {a2 : _} {a3 : _} : (toPartner a1 a2 a3).Writes m := by
  have c0 := @notify_writes m (within_mask hm rfl)
  unfold toPartner
  repeat' first
    | with_reducible first | exact writes_done | exact writes_nil | refine writes_cons ?_ ?_ | refine writes_seq ?_ ?_ | refine writes_look fun _ => ?_ | refine writes_when ?_ | refine writes_each fun _ => ?_ | refine writes_ite ?_ ?_ | exact c0 | refine writes_act (bit_mask hm ?_)
    | ((with_reducible show Nat.testBit _ (Eff.num _) = true); simp only [Eff.num]; rfl) | split | dsimp only

theorem toRoot_writes {m : Nat} (hm : 34359758336 &&& m = 34359758336) {a1 : _} {a2 : _} : (toRoot a1 a2).Writes m := by
  have c0 := @notify_writes m (within_mask hm rfl)
  unfold toRoot
  repeat' first
    | with_reducible first | exact writes_done | exact writes_nil | refine writes_cons ?_ ?_ | refine writes_seq ?_ ?_ | refine writes_look fun _ => ?_ | refine writes_when ?_ | refine writes_each fun _ => ?_ | refine writes_ite ?_ ?_ | exact c0 | refine writes_act (bit_mask hm ?_)
    | ((with_reducible show Nat.testBit _ (Eff.num _) = true); simp only [Eff.num]; rfl) | split | dsimp only

theorem withHandle_writes {m : Nat} (hm : 1048576 &&& m = 1048576) {a1 : _} (h1 : ∀ x0, (a1 x0).Writes m) : (withHandle a1).Writes m := by
  have c0 := @modSync_writes m (within_mask hm rfl)
  unfold withHandle
  repeat' first
    | with_reducible first | exact writes_done | exact writes_nil | refine writes_cons ?_ ?_ | refine writes_seq ?_ ?_ | refine writes_look fun _ => ?_ | refine writes_when ?_ | refine writes_each fun _ => ?_ | refine writes_ite ?_ ?_ | exact c0 | exact h1 _ | refine writes_act (bit_mask hm ?_)
    | ((with_reducible show Nat.testBit _ (Eff.num _) = true); simp only [Eff.num]; rfl) | split | dsimp only

theorem eachLocalLeaf_writes {m : Nat} (hm : 262150 &&& m = 262150) {a1 : _} : (eachLocalLeaf a1).Writes m := by
  have c0 := @editLeaf_writes m (within_mask hm rfl)
  unfold eachLocalLeaf
  repeat' first
    | with_reducible first | exact writes_done | exact writes_nil | refine writes_cons ?_ ?_ | refine writes_seq ?_ ?_ | refine writes_look fun _ => ?_ | refine writes_when ?_ | refine writes_each fun _ => ?_ | refine writes_ite ?_ ?_ | exact c0 | refine writes_act (bit_mask hm ?_)
    | ((with_reducible show Nat.testBit _ (Eff.num _) = true); simp only [Eff.num]; rfl) | split | dsimp only

theorem countDir_writes {m : Nat} (hm : 1 &&& m = 1) : (countDir).Writes m := by
  have c0 := @put_writes m (within_mask hm rfl)
  unfold countDir
  repeat' first
    | with_reducible first | exact writes_done | exact writes_nil | refine writes_cons ?_ ?_ | refine writes_seq ?_ ?_ | refine writes_look fun _ => ?_ | refine writes_when ?_ | refine writes_each fun _ => ?_ | refine writes_ite ?_ ?_ | exact c0 | refine writes_act (bit_mask hm ?_)
    | ((with_reducible show Nat.testBit _ (Eff.num _) = true); simp only [Eff.num]; rfl) | split | dsimp only

theorem refreshDir_writes {m : Nat} (hm : 33554433 &&& m = 33554433) : (refreshDir).Writes m := by
  have c0 := @countDir_writes m (within_mask hm rfl)
  have c1 := @modCourse_writes m (within_mask hm rfl)
  unfold refreshDir
  repeat' first
    | with_reducible first | exact writes_done | exact writes_nil | refine writes_cons ?_ ?_ | refine writes_seq ?_ ?_ | refine writes_look fun _ => ?_ | refine writes_when ?_ | refine writes_each fun _ => ?_ | refine writes_ite ?_ ?_ | exact c0 | exact c1 | refine writes_act (bit_mask hm ?_)
    | ((with_reducible show Nat.testBit _ (Eff.num _) = true); simp only [Eff.num]; rfl) | split | dsimp only

theorem releaseLocal_writes {m : Nat} (hm : 67371175 &&& m = 67371175) : (releaseLocal).Writes m := by
  have c0 := @modAgent_writes m (within_mask hm rfl)
  have c1 := @modMmu_writes m (within_mask hm rfl)
  have c2 := @modShore_writes m (within_mask hm rfl)
  have c3 := @put_writes m (within_mask hm rfl)
  have c4 := @zeroJobWindow_writes m (within_mask hm rfl)
  have c5 := @zeroPhys_writes m (within_mask hm rfl)
  unfold releaseLocal
  repeat' first
    | with_reducible first | exact writes_done | exact writes_nil | refine writes_cons ?_ ?_ | refine writes_seq ?_ ?_ | refine writes_look fun _ => ?_ | refine writes_when ?_ | refine writes_each fun _ => ?_ | refine writes_ite ?_ ?_ | exact c0 | exact c1 | exact c2 | exact c3 | exact c4 | exact c5 | refine writes_act (bit_mask hm ?_)
    | ((with_reducible show Nat.testBit _ (Eff.num _) = true); simp only [Eff.num]; rfl) | split | dsimp only

theorem vote_writes {m : Nat} (hm : 34359762433 &&& m = 34359762433) {a1 : _} {a2 : _} : (vote a1 a2).Writes m := by
  have c0 := @put_writes m (within_mask hm rfl)
  have c1 := @raise_writes m (within_mask hm rfl)
  have c2 := @toRoot_writes m (within_mask hm rfl)
  unfold vote
  repeat' first
    | with_reducible first | exact writes_done | exact writes_nil | refine writes_cons ?_ ?_ | refine writes_seq ?_ ?_ | refine writes_look fun _ => ?_ | refine writes_when ?_ | refine writes_each fun _ => ?_ | refine writes_ite ?_ ?_ | exact c0 | exact c1 | exact c2 | refine writes_act (bit_mask hm ?_)
    | ((with_reducible show Nat.testBit _ (Eff.num _) = true); simp only [Eff.num]; rfl) | split | dsimp only

theorem abandonHere_writes {m : Nat} (hm : 34460720807 &&& m = 34460720807) {a1 : _} {a2 : _} : (abandonHere a1 a2).Writes m := by
  have c0 := @bump_writes m (within_mask hm rfl)
  have c1 := @eachLocalLeaf_writes m (within_mask hm rfl)
  have c2 := @modAgent_writes m (within_mask hm rfl)
  have c3 := @modCourse_writes m (within_mask hm rfl)
  have c4 := @oReq_writes m (within_mask hm rfl)
  have c5 := @put_writes m (within_mask hm rfl)
  have c6 := @raise_writes m (within_mask hm rfl)
  have c7 := @refreshDir_writes m (within_mask hm rfl)
  have c8 := @releaseLocal_writes m (within_mask hm rfl)
  have c9 := @vote_writes m (within_mask hm rfl)
  unfold abandonHere
  repeat' first
    | with_reducible first | exact writes_done | exact writes_nil | refine writes_cons ?_ ?_ | refine writes_seq ?_ ?_ | refine writes_look fun _ => ?_ | refine writes_when ?_ | refine writes_each fun _ => ?_ | refine writes_ite ?_ ?_ | exact c0 | exact c1 | exact c2 | exact c3 | exact c4 | exact c5 | exact c6 | exact c7 | exact c8 | exact c9 | refine writes_act (bit_mask hm ?_)
    | ((with_reducible show Nat.testBit _ (Eff.num _) = true); simp only [Eff.num]; rfl) | split | dsimp only

theorem ackRun_writes {m : Nat} (hm : 34393605671 &&& m = 34393605671) {a1 : _} {a2 : _} : (ackRun a1 a2).Writes m := by
  have c0 := @editLeaf_writes m (within_mask hm rfl)
  have c1 := @modAgent_writes m (within_mask hm rfl)
  have c2 := @modCourse_writes m (within_mask hm rfl)
  have c3 := @oTell_writes m (within_mask hm rfl)
  have c4 := @put_writes m (within_mask hm rfl)
  have c5 := @tally_writes m (within_mask hm rfl)
  unfold ackRun
  repeat' first
    | with_reducible first | exact writes_done | exact writes_nil | refine writes_cons ?_ ?_ | refine writes_seq ?_ ?_ | refine writes_look fun _ => ?_ | refine writes_when ?_ | refine writes_each fun _ => ?_ | refine writes_ite ?_ ?_ | exact c0 | exact c1 | exact c2 | exact c3 | exact c4 | exact c5 | refine writes_act (bit_mask hm ?_)
    | ((with_reducible show Nat.testBit _ (Eff.num _) = true); simp only [Eff.num]; rfl) | split | dsimp only

theorem addEnt_writes {m : Nat} (hm : 33554432 &&& m = 33554432) {a1 : _} : (addEnt a1).Writes m := by
  have c0 := @modCourse_writes m (within_mask hm rfl)
  unfold addEnt
  repeat' first
    | with_reducible first | exact writes_done | exact writes_nil | refine writes_cons ?_ ?_ | refine writes_seq ?_ ?_ | refine writes_look fun _ => ?_ | refine writes_when ?_ | refine writes_each fun _ => ?_ | refine writes_ite ?_ ?_ | exact c0 | refine writes_act (bit_mask hm ?_)
    | ((with_reducible show Nat.testBit _ (Eff.num _) = true); simp only [Eff.num]; rfl) | split | dsimp only

theorem armLocal_writes {m : Nat} (hm : 34460720807 &&& m = 34460720807) {a1 : _} {a2 : _} : (armLocal a1 a2).Writes m := by
  have c0 := @abandonHere_writes m (within_mask hm rfl)
  have c1 := @modAgent_writes m (within_mask hm rfl)
  unfold armLocal
  repeat' first
    | with_reducible first | exact writes_done | exact writes_nil | refine writes_cons ?_ ?_ | refine writes_seq ?_ ?_ | refine writes_look fun _ => ?_ | refine writes_when ?_ | refine writes_each fun _ => ?_ | refine writes_ite ?_ ?_ | exact c0 | exact c1 | refine writes_act (bit_mask hm ?_)
    | ((with_reducible show Nat.testBit _ (Eff.num _) = true); simp only [Eff.num]; rfl) | split | dsimp only

theorem armSlot_writes {m : Nat} (hm : 34359789056 &&& m = 34359789056) {a1 : _} {a2 : _} {a3 : _} : (armSlot a1 a2 a3).Writes m := by
  have c0 := @oReq_writes m (within_mask hm rfl)
  have c1 := @sendKey_writes m (within_mask hm rfl)
  unfold armSlot
  repeat' first
    | with_reducible first | exact writes_done | exact writes_nil | refine writes_cons ?_ ?_ | refine writes_seq ?_ ?_ | refine writes_look fun _ => ?_ | refine writes_when ?_ | refine writes_each fun _ => ?_ | refine writes_ite ?_ ?_ | exact c0 | exact c1 | refine writes_act (bit_mask hm ?_)
    | ((with_reducible show Nat.testBit _ (Eff.num _) = true); simp only [Eff.num]; rfl) | split | dsimp only

theorem checkShard_writes {m : Nat} (hm : 34500276225 &&& m = 34500276225) {a1 : _} : (checkShard a1).Writes m := by
  have c0 := @integrityOwn_writes m (within_mask hm rfl)
  unfold checkShard
  repeat' first
    | with_reducible first | exact writes_done | exact writes_nil | refine writes_cons ?_ ?_ | refine writes_seq ?_ ?_ | refine writes_look fun _ => ?_ | refine writes_when ?_ | refine writes_each fun _ => ?_ | refine writes_ite ?_ ?_ | exact c0 | refine writes_act (bit_mask hm ?_)
    | ((with_reducible show Nat.testBit _ (Eff.num _) = true); simp only [Eff.num]; rfl) | split | dsimp only

theorem setAsked_writes {m : Nat} (hm : 33554432 &&& m = 33554432) {a1 : _} {a2 : _} {a3 : _} : (setAsked a1 a2 a3).Writes m := by
  have c0 := @modCourse_writes m (within_mask hm rfl)
  unfold setAsked
  repeat' first
    | with_reducible first | exact writes_done | exact writes_nil | refine writes_cons ?_ ?_ | refine writes_seq ?_ ?_ | refine writes_look fun _ => ?_ | refine writes_when ?_ | refine writes_each fun _ => ?_ | refine writes_ite ?_ ?_ | exact c0 | refine writes_act (bit_mask hm ?_)
    | ((with_reducible show Nat.testBit _ (Eff.num _) = true); simp only [Eff.num]; rfl) | split | dsimp only

theorem pumpDrain_writes {m : Nat} (hm : 34393343488 &&& m = 34393343488) {a1 : _} {a2 : _} : (pumpDrain a1 a2).Writes m := by
  have c0 := @oReq_writes m (within_mask hm rfl)
  have c1 := @setAsked_writes m (within_mask hm rfl)
  induction a2 generalizing a1 with
  | zero =>
    unfold pumpDrain
    repeat' first
      | with_reducible first | exact writes_done | exact writes_nil | refine writes_cons ?_ ?_ | refine writes_seq ?_ ?_ | refine writes_look fun _ => ?_ | refine writes_when ?_ | refine writes_each fun _ => ?_ | refine writes_ite ?_ ?_ | exact c0 | exact c1 | refine writes_act (bit_mask hm ?_)
      | ((with_reducible show Nat.testBit _ (Eff.num _) = true); simp only [Eff.num]; rfl) | split | dsimp only
  | succ k ih =>
    unfold pumpDrain
    repeat' first
      | with_reducible first | apply ih | exact writes_done | exact writes_nil | refine writes_cons ?_ ?_ | refine writes_seq ?_ ?_ | refine writes_look fun _ => ?_ | refine writes_when ?_ | refine writes_each fun _ => ?_ | refine writes_ite ?_ ?_ | exact c0 | exact c1 | refine writes_act (bit_mask hm ?_)
      | ((with_reducible show Nat.testBit _ (Eff.num _) = true); simp only [Eff.num]; rfl) | split | dsimp only

theorem drain_writes {m : Nat} (hm : 34393343488 &&& m = 34393343488) {a1 : _} : (drain a1).Writes m := by
  have c0 := @pumpDrain_writes m (within_mask hm rfl)
  unfold drain
  repeat' first
    | with_reducible first | exact writes_done | exact writes_nil | refine writes_cons ?_ ?_ | refine writes_seq ?_ ?_ | refine writes_look fun _ => ?_ | refine writes_when ?_ | refine writes_each fun _ => ?_ | refine writes_ite ?_ ?_ | exact c0 | refine writes_act (bit_mask hm ?_)
    | ((with_reducible show Nat.testBit _ (Eff.num _) = true); simp only [Eff.num]; rfl) | split | dsimp only

theorem takeShards_writes {m : Nat} (hm : 34534127143 &&& m = 34534127143) {a1 : _} : (takeShards a1).Writes m := by
  have c0 := @ackRun_writes m (within_mask hm rfl)
  have c1 := @addEnt_writes m (within_mask hm rfl)
  have c2 := @checkShard_writes m (within_mask hm rfl)
  have c3 := @drain_writes m (within_mask hm rfl)
  have c4 := @oReq_writes m (within_mask hm rfl)
  have c5 := @tally_writes m (within_mask hm rfl)
  unfold takeShards
  repeat' first
    | with_reducible first | exact writes_done | exact writes_nil | refine writes_cons ?_ ?_ | refine writes_seq ?_ ?_ | refine writes_look fun _ => ?_ | refine writes_when ?_ | refine writes_each fun _ => ?_ | refine writes_ite ?_ ?_ | exact c0 | exact c1 | exact c2 | exact c3 | exact c4 | exact c5 | refine writes_act (bit_mask hm ?_)
    | ((with_reducible show Nat.testBit _ (Eff.num _) = true); simp only [Eff.num]; rfl) | split | dsimp only

theorem beginDrain_writes {m : Nat} (hm : 34534127143 &&& m = 34534127143) : (beginDrain).Writes m := by
  have c0 := @put_writes m (within_mask hm rfl)
  have c1 := @takeShards_writes m (within_mask hm rfl)
  unfold beginDrain
  repeat' first
    | with_reducible first | exact writes_done | exact writes_nil | refine writes_cons ?_ ?_ | refine writes_seq ?_ ?_ | refine writes_look fun _ => ?_ | refine writes_when ?_ | refine writes_each fun _ => ?_ | refine writes_ite ?_ ?_ | exact c0 | exact c1 | refine writes_act (bit_mask hm ?_)
    | ((with_reducible show Nat.testBit _ (Eff.num _) = true); simp only [Eff.num]; rfl) | split | dsimp only

theorem checkCuts_writes {m : Nat} (hm : 34534127143 &&& m = 34534127143) : (checkCuts).Writes m := by
  have c0 := @beginDrain_writes m (within_mask hm rfl)
  have c1 := @put_writes m (within_mask hm rfl)
  unfold checkCuts
  repeat' first
    | with_reducible first | exact writes_done | exact writes_nil | refine writes_cons ?_ ?_ | refine writes_seq ?_ ?_ | refine writes_look fun _ => ?_ | refine writes_when ?_ | refine writes_each fun _ => ?_ | refine writes_ite ?_ ?_ | exact c0 | exact c1 | refine writes_act (bit_mask hm ?_)
    | ((with_reducible show Nat.testBit _ (Eff.num _) = true); simp only [Eff.num]; rfl) | split | dsimp only

theorem commitHere_writes {m : Nat} (hm : 34460720807 &&& m = 34460720807) : (commitHere).Writes m := by
  have c0 := @bump_writes m (within_mask hm rfl)
  have c1 := @commitNote_writes m (within_mask hm rfl)
  have c2 := @modAgent_writes m (within_mask hm rfl)
  have c3 := @modCourse_writes m (within_mask hm rfl)
  have c4 := @put_writes m (within_mask hm rfl)
  have c5 := @raise_writes m (within_mask hm rfl)
  have c6 := @refreshDir_writes m (within_mask hm rfl)
  have c7 := @releaseLocal_writes m (within_mask hm rfl)
  have c8 := @toPartner_writes m (within_mask hm rfl)
  unfold commitHere
  repeat' first
    | with_reducible first | exact writes_done | exact writes_nil | refine writes_cons ?_ ?_ | refine writes_seq ?_ ?_ | refine writes_look fun _ => ?_ | refine writes_when ?_ | refine writes_each fun _ => ?_ | refine writes_ite ?_ ?_ | exact c0 | exact c1 | exact c2 | exact c3 | exact c4 | exact c5 | exact c6 | exact c7 | exact c8 | refine writes_act (bit_mask hm ?_)
    | ((with_reducible show Nat.testBit _ (Eff.num _) = true); simp only [Eff.num]; rfl) | split | dsimp only

theorem dropGranules_writes {m : Nat} (hm : 33554432 &&& m = 33554432) {a1 : _} {a2 : _} : (dropGranules a1 a2).Writes m := by
  have c0 := @modCourse_writes m (within_mask hm rfl)
  unfold dropGranules
  repeat' first
    | with_reducible first | exact writes_done | exact writes_nil | refine writes_cons ?_ ?_ | refine writes_seq ?_ ?_ | refine writes_look fun _ => ?_ | refine writes_when ?_ | refine writes_each fun _ => ?_ | refine writes_ite ?_ ?_ | exact c0 | refine writes_act (bit_mask hm ?_)
    | ((with_reducible show Nat.testBit _ (Eff.num _) = true); simp only [Eff.num]; rfl) | split | dsimp only

theorem expectSteps_writes {m : Nat} (hm : 134217728 &&& m = 134217728) {a1 : _} {a2 : _} {a3 : _} : (expectSteps a1 a2 a3).Writes m := by
  have c0 := @modWit_writes m (within_mask hm rfl)
  unfold expectSteps
  repeat' first
    | with_reducible first | exact writes_done | exact writes_nil | refine writes_cons ?_ ?_ | refine writes_seq ?_ ?_ | refine writes_look fun _ => ?_ | refine writes_when ?_ | refine writes_each fun _ => ?_ | refine writes_ite ?_ ?_ | exact c0 | refine writes_act (bit_mask hm ?_)
    | ((with_reducible show Nat.testBit _ (Eff.num _) = true); simp only [Eff.num]; rfl) | split | dsimp only

theorem keepWritten_writes {m : Nat} (hm : 32 &&& m = 32) {a1 : _} : (keepWritten a1).Writes m := by
  have c0 := @modAgent_writes m (within_mask hm rfl)
  unfold keepWritten
  repeat' first
    | with_reducible first | exact writes_done | exact writes_nil | refine writes_cons ?_ ?_ | refine writes_seq ?_ ?_ | refine writes_look fun _ => ?_ | refine writes_when ?_ | refine writes_each fun _ => ?_ | refine writes_ite ?_ ?_ | exact c0 | refine writes_act (bit_mask hm ?_)
    | ((with_reducible show Nat.testBit _ (Eff.num _) = true); simp only [Eff.num]; rfl) | split | dsimp only

theorem learnStep_writes {m : Nat} (hm : 167772160 &&& m = 167772160) {a1 : _} {a2 : _} : (learnStep a1 a2).Writes m := by
  have c0 := @expectSteps_writes m (within_mask hm rfl)
  have c1 := @modCourse_writes m (within_mask hm rfl)
  unfold learnStep
  repeat' first
    | with_reducible first | exact writes_done | exact writes_nil | refine writes_cons ?_ ?_ | refine writes_seq ?_ ?_ | refine writes_look fun _ => ?_ | refine writes_when ?_ | refine writes_each fun _ => ?_ | refine writes_ite ?_ ?_ | exact c0 | exact c1 | refine writes_act (bit_mask hm ?_)
    | ((with_reducible show Nat.testBit _ (Eff.num _) = true); simp only [Eff.num]; rfl) | split | dsimp only

theorem takeMap_writes {m : Nat} (hm : 34534127143 &&& m = 34534127143) {a1 : _} {a2 : _} : (takeMap a1 a2).Writes m := by
  have c0 := @beginDrain_writes m (within_mask hm rfl)
  have c1 := @drain_writes m (within_mask hm rfl)
  have c2 := @modCourse_writes m (within_mask hm rfl)
  unfold takeMap
  repeat' first
    | with_reducible first | exact writes_done | exact writes_nil | refine writes_cons ?_ ?_ | refine writes_seq ?_ ?_ | refine writes_look fun _ => ?_ | refine writes_when ?_ | refine writes_each fun _ => ?_ | refine writes_ite ?_ ?_ | exact c0 | exact c1 | exact c2 | refine writes_act (bit_mask hm ?_)
    | ((with_reducible show Nat.testBit _ (Eff.num _) = true); simp only [Eff.num]; rfl) | split | dsimp only

end Sys2Proof.Machine
end

