-- ==== Sys2Proof/Laws/Writes4.lean ====
section
/-! SUPPORT. What each shared operation writes (part 4): one lemma per operation, of the areas its effects name. -/

set_option maxRecDepth 16000

namespace Sys2Proof.Machine

theorem localCut_writes {m : Nat} (hm : 34534127143 &&& m = 34534127143) {a1 : _} {a2 : _} : (localCut a1 a2).Writes m := by
  have c0 := @checkCuts_writes m (within_mask hm rfl)
  have c1 := @eachLocalLeaf_writes m (within_mask hm rfl)
  have c2 := @modAgent_writes m (within_mask hm rfl)
  have c3 := @modCourse_writes m (within_mask hm rfl)
  have c4 := @put_writes m (within_mask hm rfl)
  have c5 := @takeMap_writes m (within_mask hm rfl)
  unfold localCut
  repeat' first
    | with_reducible first | exact writes_done | exact writes_nil | refine writes_cons ?_ ?_ | refine writes_seq ?_ ?_ | refine writes_look fun _ => ?_ | refine writes_when ?_ | refine writes_each fun _ => ?_ | refine writes_ite ?_ ?_ | exact c0 | exact c1 | exact c2 | exact c3 | exact c4 | exact c5 | refine writes_act (bit_mask hm ?_)
    | ((with_reducible show Nat.testBit _ (Eff.num _) = true); simp only [Eff.num]; rfl) | split | dsimp only

theorem openHere_writes {m : Nat} (hm : 34601238183 &&& m = 34601238183) {a1 : _} {a2 : _} : (openHere a1 a2).Writes m := by
  have c0 := @abandonHere_writes m (within_mask hm rfl)
  have c1 := @armLocal_writes m (within_mask hm rfl)
  have c2 := @armSlot_writes m (within_mask hm rfl)
  have c3 := @checkCuts_writes m (within_mask hm rfl)
  have c4 := @modCourse_writes m (within_mask hm rfl)
  have c5 := @put_writes m (within_mask hm rfl)
  have c6 := @tally_writes m (within_mask hm rfl)
  unfold openHere
  repeat' first
    | with_reducible first | exact writes_done | exact writes_nil | refine writes_cons ?_ ?_ | refine writes_seq ?_ ?_ | refine writes_look fun _ => ?_ | refine writes_when ?_ | refine writes_each fun _ => ?_ | refine writes_ite ?_ ?_ | exact c0 | exact c1 | exact c2 | exact c3 | exact c4 | exact c5 | exact c6 | refine writes_act (bit_mask hm ?_)
    | ((with_reducible show Nat.testBit _ (Eff.num _) = true); simp only [Eff.num]; rfl) | split | dsimp only

theorem sendDigests_writes {m : Nat} (hm : 34359758336 &&& m = 34359758336) : (sendDigests).Writes m := by
  have c0 := @notify_writes m (within_mask hm rfl)
  unfold sendDigests
  repeat' first
    | with_reducible first | exact writes_done | exact writes_nil | refine writes_cons ?_ ?_ | refine writes_seq ?_ ?_ | refine writes_look fun _ => ?_ | refine writes_when ?_ | refine writes_each fun _ => ?_ | refine writes_ite ?_ ?_ | exact c0 | refine writes_act (bit_mask hm ?_)
    | ((with_reducible show Nat.testBit _ (Eff.num _) = true); simp only [Eff.num]; rfl) | split | dsimp only

theorem sendMirror_writes {m : Nat} (hm : 34360806912 &&& m = 34360806912) {a1 : _} {a2 : _} {a3 : _} {a4 : _} : (sendMirror a1 a2 a3 a4).Writes m := by
  have c0 := @sendBulk_writes m (within_mask hm rfl)
  have c1 := @toPartner_writes m (within_mask hm rfl)
  have c2 := @withHandle_writes m (within_mask hm rfl)
  unfold sendMirror
  repeat' first
    | with_reducible first | exact writes_done | exact writes_nil | refine writes_cons ?_ ?_ | refine writes_seq ?_ ?_ | refine writes_look fun _ => ?_ | refine writes_when ?_ | refine writes_each fun _ => ?_ | refine writes_ite ?_ ?_ | exact c0 | exact c1 | refine c2 (fun _ => ?_) | refine writes_act (bit_mask hm ?_)
    | ((with_reducible show Nat.testBit _ (Eff.num _) = true); simp only [Eff.num]; rfl) | split | dsimp only

theorem tryVote_writes {m : Nat} (hm : 34359762433 &&& m = 34359762433) : (tryVote).Writes m := by
  have c0 := @put_writes m (within_mask hm rfl)
  have c1 := @vote_writes m (within_mask hm rfl)
  unfold tryVote
  repeat' first
    | with_reducible first | exact writes_done | exact writes_nil | refine writes_cons ?_ ?_ | refine writes_seq ?_ ?_ | refine writes_look fun _ => ?_ | refine writes_when ?_ | refine writes_each fun _ => ?_ | refine writes_ite ?_ ?_ | exact c0 | exact c1 | refine writes_act (bit_mask hm ?_)
    | ((with_reducible show Nat.testBit _ (Eff.num _) = true); simp only [Eff.num]; rfl) | split | dsimp only

theorem sealCourse_writes {m : Nat} (hm : 34394365447 &&& m = 34394365447) : (sealCourse).Writes m := by
  have c0 := @modCourse_writes m (within_mask hm rfl)
  have c1 := @put_writes m (within_mask hm rfl)
  have c2 := @refreshDir_writes m (within_mask hm rfl)
  have c3 := @sendDigests_writes m (within_mask hm rfl)
  have c4 := @sendMirror_writes m (within_mask hm rfl)
  have c5 := @tryVote_writes m (within_mask hm rfl)
  have c6 := @writePhys_writes m (within_mask hm rfl)
  unfold sealCourse
  repeat' first
    | with_reducible first | exact writes_done | exact writes_nil | refine writes_cons ?_ ?_ | refine writes_seq ?_ ?_ | refine writes_look fun _ => ?_ | refine writes_when ?_ | refine writes_each fun _ => ?_ | refine writes_ite ?_ ?_ | exact c0 | exact c1 | exact c2 | exact c3 | exact c4 | exact c5 | exact c6 | refine writes_act (bit_mask hm ?_)
    | ((with_reducible show Nat.testBit _ (Eff.num _) = true); simp only [Eff.num]; rfl) | split | dsimp only

theorem countReset_writes {m : Nat} (hm : 35439800321 &&& m = 35439800321) {a1 : _} : (countReset a1).Writes m := by
  have c0 := @bump_writes m (within_mask hm rfl)
  have c1 := @modRst_writes m (within_mask hm rfl)
  have c2 := @put_writes m (within_mask hm rfl)
  have c3 := @raise_writes m (within_mask hm rfl)
  have c4 := @record_writes m (within_mask hm rfl)
  unfold countReset
  repeat' first
    | with_reducible first | exact writes_done | exact writes_nil | refine writes_cons ?_ ?_ | refine writes_seq ?_ ?_ | refine writes_look fun _ => ?_ | refine writes_when ?_ | refine writes_each fun _ => ?_ | refine writes_ite ?_ ?_ | exact c0 | exact c1 | exact c2 | exact c3 | exact c4 | refine writes_act (bit_mask hm ?_)
    | ((with_reducible show Nat.testBit _ (Eff.num _) = true); simp only [Eff.num]; rfl) | split | dsimp only

theorem slotOut_writes {m : Nat} (hm : 35433500673 &&& m = 35433500673) {a1 : _} : (slotOut a1).Writes m := by
  have c0 := @modRst_writes m (within_mask hm rfl)
  have c1 := @put_writes m (within_mask hm rfl)
  have c2 := @raise_writes m (within_mask hm rfl)
  have c3 := @send_writes m (within_mask hm rfl)
  unfold slotOut
  repeat' first
    | with_reducible first | exact writes_done | exact writes_nil | refine writes_cons ?_ ?_ | refine writes_seq ?_ ?_ | refine writes_look fun _ => ?_ | refine writes_when ?_ | refine writes_each fun _ => ?_ | refine writes_ite ?_ ?_ | exact c0 | exact c1 | exact c2 | exact c3 | refine writes_act (bit_mask hm ?_)
    | ((with_reducible show Nat.testBit _ (Eff.num _) = true); simp only [Eff.num]; rfl) | split | dsimp only

theorem slotE2_writes {m : Nat} (hm : 35439800321 &&& m = 35439800321) {a1 : _} {a2 : _} : (slotE2 a1 a2).Writes m := by
  have c0 := @countReset_writes m (within_mask hm rfl)
  have c1 := @modRst_writes m (within_mask hm rfl)
  have c2 := @slotOut_writes m (within_mask hm rfl)
  unfold slotE2
  repeat' first
    | with_reducible first | exact writes_done | exact writes_nil | refine writes_cons ?_ ?_ | refine writes_seq ?_ ?_ | refine writes_look fun _ => ?_ | refine writes_when ?_ | refine writes_each fun _ => ?_ | refine writes_ite ?_ ?_ | exact c0 | exact c1 | exact c2 | refine writes_act (bit_mask hm ?_)
    | ((with_reducible show Nat.testBit _ (Eff.num _) = true); simp only [Eff.num]; rfl) | split | dsimp only

theorem xcnOut_writes {m : Nat} (hm : 35433500673 &&& m = 35433500673) : (xcnOut).Writes m := by
  have c0 := @modRst_writes m (within_mask hm rfl)
  have c1 := @put_writes m (within_mask hm rfl)
  have c2 := @raise_writes m (within_mask hm rfl)
  unfold xcnOut
  repeat' first
    | with_reducible first | exact writes_done | exact writes_nil | refine writes_cons ?_ ?_ | refine writes_seq ?_ ?_ | refine writes_look fun _ => ?_ | refine writes_when ?_ | refine writes_each fun _ => ?_ | refine writes_ite ?_ ?_ | exact c0 | exact c1 | exact c2 | refine writes_act (bit_mask hm ?_)
    | ((with_reducible show Nat.testBit _ (Eff.num _) = true); simp only [Eff.num]; rfl) | split | dsimp only

theorem dropBarrier_writes {m : Nat} (hm : 257 &&& m = 257) {a1 : _} : (dropBarrier a1).Writes m := by
  have c0 := @dropWatch_writes m (within_mask hm rfl)
  unfold dropBarrier
  repeat' first
    | with_reducible first | exact writes_done | exact writes_nil | refine writes_cons ?_ ?_ | refine writes_seq ?_ ?_ | refine writes_look fun _ => ?_ | refine writes_when ?_ | refine writes_each fun _ => ?_ | refine writes_ite ?_ ?_ | exact c0 | refine writes_act (bit_mask hm ?_)
    | ((with_reducible show Nat.testBit _ (Eff.num _) = true); simp only [Eff.num]; rfl) | split | dsimp only

theorem armBarrier_writes {m : Nat} (hm : 34359759105 &&& m = 34359759105) {a1 : _} {a2 : _} {a3 : _} {a4 : _} : (armBarrier a1 a2 a3 a4).Writes m := by
  have c0 := @countWatches_writes m (within_mask hm rfl)
  have c1 := @raise_writes m (within_mask hm rfl)
  unfold armBarrier
  repeat' first
    | with_reducible first | exact writes_done | exact writes_nil | refine writes_cons ?_ ?_ | refine writes_seq ?_ ?_ | refine writes_look fun _ => ?_ | refine writes_when ?_ | refine writes_each fun _ => ?_ | refine writes_ite ?_ ?_ | exact c0 | exact c1 | refine writes_act (bit_mask hm ?_)
    | ((with_reducible show Nat.testBit _ (Eff.num _) = true); simp only [Eff.num]; rfl) | split | dsimp only

theorem noteOpen_writes {m : Nat} (hm : 34393313537 &&& m = 34393313537) {a1 : _} {a2 : _} : (noteOpen a1 a2).Writes m := by
  have c0 := @armBarrier_writes m (within_mask hm rfl)
  have c1 := @modCourse_writes m (within_mask hm rfl)
  unfold noteOpen
  repeat' first
    | with_reducible first | exact writes_done | exact writes_nil | refine writes_cons ?_ ?_ | refine writes_seq ?_ ?_ | refine writes_look fun _ => ?_ | refine writes_when ?_ | refine writes_each fun _ => ?_ | refine writes_ite ?_ ?_ | exact c0 | exact c1 | refine writes_act (bit_mask hm ?_)
    | ((with_reducible show Nat.testBit _ (Eff.num _) = true); simp only [Eff.num]; rfl) | split | dsimp only

theorem openDue_writes {m : Nat} (hm : 34393317121 &&& m = 34393317121) : (openDue).Writes m := by
  have c0 := @broadcast_writes m (within_mask hm rfl)
  have c1 := @noteOpen_writes m (within_mask hm rfl)
  unfold openDue
  repeat' first
    | with_reducible first | exact writes_done | exact writes_nil | refine writes_cons ?_ ?_ | refine writes_seq ?_ ?_ | refine writes_look fun _ => ?_ | refine writes_when ?_ | refine writes_each fun _ => ?_ | refine writes_ite ?_ ?_ | exact c0 | exact c1 | refine writes_act (bit_mask hm ?_)
    | ((with_reducible show Nat.testBit _ (Eff.num _) = true); simp only [Eff.num]; rfl) | split | dsimp only

theorem rewindBarrierFired_writes {m : Nat} (hm : 34460425985 &&& m = 34460425985) : (rewindBarrierFired).Writes m := by
  have c0 := @broadcast_writes m (within_mask hm rfl)
  have c1 := @dropBarrier_writes m (within_mask hm rfl)
  have c2 := @modCourse_writes m (within_mask hm rfl)
  have c3 := @modShore_writes m (within_mask hm rfl)
  have c4 := @openDue_writes m (within_mask hm rfl)
  unfold rewindBarrierFired
  repeat' first
    | with_reducible first | exact writes_done | exact writes_nil | refine writes_cons ?_ ?_ | refine writes_seq ?_ ?_ | refine writes_look fun _ => ?_ | refine writes_when ?_ | refine writes_each fun _ => ?_ | refine writes_ite ?_ ?_ | exact c0 | exact c1 | exact c2 | exact c3 | exact c4 | refine writes_act (bit_mask hm ?_)
    | ((with_reducible show Nat.testBit _ (Eff.num _) = true); simp only [Eff.num]; rfl) | split | dsimp only

theorem coverBeyond_writes {m : Nat} (hm : 34359758849 &&& m = 34359758849) {a1 : _} : (coverBeyond a1).Writes m := by
  have c0 := @raise_writes m (within_mask hm rfl)
  unfold coverBeyond
  repeat' first
    | with_reducible first | exact writes_done | exact writes_nil | refine writes_cons ?_ ?_ | refine writes_seq ?_ ?_ | refine writes_look fun _ => ?_ | refine writes_when ?_ | refine writes_each fun _ => ?_ | refine writes_ite ?_ ?_ | exact c0 | refine writes_act (bit_mask hm ?_)
    | ((with_reducible show Nat.testBit _ (Eff.num _) = true); simp only [Eff.num]; rfl) | split | dsimp only

theorem sendPlan_writes {m : Nat} (hm : 34426871553 &&& m = 34426871553) {a1 : _} : (sendPlan a1).Writes m := by
  have c0 := @armBarrier_writes m (within_mask hm rfl)
  have c1 := @broadcast_writes m (within_mask hm rfl)
  have c2 := @modShore_writes m (within_mask hm rfl)
  have c3 := @put_writes m (within_mask hm rfl)
  unfold sendPlan
  repeat' first
    | with_reducible first | exact writes_done | exact writes_nil | refine writes_cons ?_ ?_ | refine writes_seq ?_ ?_ | refine writes_look fun _ => ?_ | refine writes_when ?_ | refine writes_each fun _ => ?_ | refine writes_ite ?_ ?_ | exact c0 | exact c1 | exact c2 | exact c3 | refine writes_act (bit_mask hm ?_)
    | ((with_reducible show Nat.testBit _ (Eff.num _) = true); simp only [Eff.num]; rfl) | split | dsimp only

theorem supersede_writes {m : Nat} (hm : 34426871681 &&& m = 34426871681) : (supersede).Writes m := by
  have c0 := @advanceQuiet_writes m (within_mask hm rfl)
  have c1 := @dropBarrier_writes m (within_mask hm rfl)
  have c2 := @sendPlan_writes m (within_mask hm rfl)
  unfold supersede
  repeat' first
    | with_reducible first | exact writes_done | exact writes_nil | refine writes_cons ?_ ?_ | refine writes_seq ?_ ?_ | refine writes_look fun _ => ?_ | refine writes_when ?_ | refine writes_each fun _ => ?_ | refine writes_ite ?_ ?_ | exact c0 | exact c1 | exact c2 | refine writes_act (bit_mask hm ?_)
    | ((with_reducible show Nat.testBit _ (Eff.num _) = true); simp only [Eff.num]; rfl) | split | dsimp only

theorem superseding_writes {m : Nat} (hm : 34426871681 &&& m = 34426871681) {a1 : _} : (superseding a1).Writes m := by
  have c0 := @coverBeyond_writes m (within_mask hm rfl)
  have c1 := @modShore_writes m (within_mask hm rfl)
  have c2 := @supersede_writes m (within_mask hm rfl)
  unfold superseding
  repeat' first
    | with_reducible first | exact writes_done | exact writes_nil | refine writes_cons ?_ ?_ | refine writes_seq ?_ ?_ | refine writes_look fun _ => ?_ | refine writes_when ?_ | refine writes_each fun _ => ?_ | refine writes_ite ?_ ?_ | exact c0 | exact c1 | exact c2 | refine writes_act (bit_mask hm ?_)
    | ((with_reducible show Nat.testBit _ (Eff.num _) = true); simp only [Eff.num]; rfl) | split | dsimp only

theorem rewindLost_writes {m : Nat} (hm : 34695307137 &&& m = 34695307137) {a1 : _} : (rewindLost a1).Writes m := by
  have c0 := @modStart_writes m (within_mask hm rfl)
  have c1 := @superseding_writes m (within_mask hm rfl)
  unfold rewindLost
  repeat' first
    | with_reducible first | exact writes_done | exact writes_nil | refine writes_cons ?_ ?_ | refine writes_seq ?_ ?_ | refine writes_look fun _ => ?_ | refine writes_when ?_ | refine writes_each fun _ => ?_ | refine writes_ite ?_ ?_ | exact c0 | exact c1 | refine writes_act (bit_mask hm ?_)
    | ((with_reducible show Nat.testBit _ (Eff.num _) = true); simp only [Eff.num]; rfl) | split | dsimp only

theorem acceptRewound_writes {m : Nat} (hm : 34728861569 &&& m = 34728861569) {a1 : _} {a2 : _} {a3 : _} : (acceptRewound a1 a2 a3).Writes m := by
  have c0 := @advanceQuiet_writes m (within_mask hm rfl)
  have c1 := @dropBarrier_writes m (within_mask hm rfl)
  have c2 := @modShore_writes m (within_mask hm rfl)
  have c3 := @raise_writes m (within_mask hm rfl)
  have c4 := @rewindBarrierFired_writes m (within_mask hm rfl)
  have c5 := @rewindLost_writes m (within_mask hm rfl)
  unfold acceptRewound
  repeat' first
    | with_reducible first | exact writes_done | exact writes_nil | refine writes_cons ?_ ?_ | refine writes_seq ?_ ?_ | refine writes_look fun _ => ?_ | refine writes_when ?_ | refine writes_each fun _ => ?_ | refine writes_ite ?_ ?_ | exact c0 | exact c1 | exact c2 | exact c3 | exact c4 | exact c5 | refine writes_act (bit_mask hm ?_)
    | ((with_reducible show Nat.testBit _ (Eff.num _) = true); simp only [Eff.num]; rfl) | split | dsimp only

theorem startRewind_writes {m : Nat} (hm : 34426871553 &&& m = 34426871553) : (startRewind).Writes m := by
  have c0 := @sendPlan_writes m (within_mask hm rfl)
  unfold startRewind
  repeat' first
    | with_reducible first | exact writes_done | exact writes_nil | refine writes_cons ?_ ?_ | refine writes_seq ?_ ?_ | refine writes_look fun _ => ?_ | refine writes_when ?_ | refine writes_each fun _ => ?_ | refine writes_ite ?_ ?_ | exact c0 | refine writes_act (bit_mask hm ?_)
    | ((with_reducible show Nat.testBit _ (Eff.num _) = true); simp only [Eff.num]; rfl) | split | dsimp only

theorem announce_writes {m : Nat} (hm : 34460425985 &&& m = 34460425985) : (announce).Writes m := by
  have c0 := @broadcast_writes m (within_mask hm rfl)
  have c1 := @modCourse_writes m (within_mask hm rfl)
  have c2 := @noteOpen_writes m (within_mask hm rfl)
  have c3 := @openDue_writes m (within_mask hm rfl)
  have c4 := @startRewind_writes m (within_mask hm rfl)
  unfold announce
  repeat' first
    | with_reducible first | exact writes_done | exact writes_nil | refine writes_cons ?_ ?_ | refine writes_seq ?_ ?_ | refine writes_look fun _ => ?_ | refine writes_when ?_ | refine writes_each fun _ => ?_ | refine writes_ite ?_ ?_ | exact c0 | exact c1 | exact c2 | exact c3 | exact c4 | refine writes_act (bit_mask hm ?_)
    | ((with_reducible show Nat.testBit _ (Eff.num _) = true); simp only [Eff.num]; rfl) | split | dsimp only

theorem decideCourse_writes {m : Nat} (hm : 34460426113 &&& m = 34460426113) {a1 : _} {a2 : _} : (decideCourse a1 a2).Writes m := by
  have c0 := @advanceQuiet_writes m (within_mask hm rfl)
  have c1 := @announce_writes m (within_mask hm rfl)
  have c2 := @dropBarrier_writes m (within_mask hm rfl)
  have c3 := @modCourse_writes m (within_mask hm rfl)
  have c4 := @toPartner_writes m (within_mask hm rfl)
  unfold decideCourse
  repeat' first
    | with_reducible first | exact writes_done | exact writes_nil | refine writes_cons ?_ ?_ | refine writes_seq ?_ ?_ | refine writes_look fun _ => ?_ | refine writes_when ?_ | refine writes_each fun _ => ?_ | refine writes_ite ?_ ?_ | exact c0 | exact c1 | exact c2 | exact c3 | exact c4 | refine writes_act (bit_mask hm ?_)
    | ((with_reducible show Nat.testBit _ (Eff.num _) = true); simp only [Eff.num]; rfl) | split | dsimp only

theorem courseBarrierFired_writes {m : Nat} (hm : 34460426113 &&& m = 34460426113) : (courseBarrierFired).Writes m := by
  have c0 := @decideCourse_writes m (within_mask hm rfl)
  unfold courseBarrierFired
  repeat' first
    | with_reducible first | exact writes_done | exact writes_nil | refine writes_cons ?_ ?_ | refine writes_seq ?_ ?_ | refine writes_look fun _ => ?_ | refine writes_when ?_ | refine writes_each fun _ => ?_ | refine writes_ite ?_ ?_ | exact c0 | refine writes_act (bit_mask hm ?_)
    | ((with_reducible show Nat.testBit _ (Eff.num _) = true); simp only [Eff.num]; rfl) | split | dsimp only

theorem startVoteClock_writes {m : Nat} (hm : 256 &&& m = 256) : (startVoteClock).Writes m := by
  unfold startVoteClock
  repeat' first
    | with_reducible first | exact writes_done | exact writes_nil | refine writes_cons ?_ ?_ | refine writes_seq ?_ ?_ | refine writes_look fun _ => ?_ | refine writes_when ?_ | refine writes_each fun _ => ?_ | refine writes_ite ?_ ?_ | refine writes_act (bit_mask hm ?_)
    | ((with_reducible show Nat.testBit _ (Eff.num _) = true); simp only [Eff.num]; rfl) | split | dsimp only

theorem acceptVote_writes {m : Nat} (hm : 34460426113 &&& m = 34460426113) {a1 : _} {a2 : _} {a3 : _} : (acceptVote a1 a2 a3).Writes m := by
  have c0 := @advanceQuiet_writes m (within_mask hm rfl)
  have c1 := @courseBarrierFired_writes m (within_mask hm rfl)
  have c2 := @decideCourse_writes m (within_mask hm rfl)
  have c3 := @modCourse_writes m (within_mask hm rfl)
  have c4 := @startVoteClock_writes m (within_mask hm rfl)
  unfold acceptVote
  repeat' first
    | with_reducible first | exact writes_done | exact writes_nil | refine writes_cons ?_ ?_ | refine writes_seq ?_ ?_ | refine writes_look fun _ => ?_ | refine writes_when ?_ | refine writes_each fun _ => ?_ | refine writes_ite ?_ ?_ | exact c0 | exact c1 | exact c2 | exact c3 | exact c4 | refine writes_act (bit_mask hm ?_)
    | ((with_reducible show Nat.testBit _ (Eff.num _) = true); simp only [Eff.num]; rfl) | split | dsimp only

theorem courseBarrierTimeout_writes {m : Nat} (hm : 34460426113 &&& m = 34460426113) : (courseBarrierTimeout).Writes m := by
  have c0 := @decideCourse_writes m (within_mask hm rfl)
  unfold courseBarrierTimeout
  repeat' first
    | with_reducible first | exact writes_done | exact writes_nil | refine writes_cons ?_ ?_ | refine writes_seq ?_ ?_ | refine writes_look fun _ => ?_ | refine writes_when ?_ | refine writes_each fun _ => ?_ | refine writes_ite ?_ ?_ | exact c0 | refine writes_act (bit_mask hm ?_)
    | ((with_reducible show Nat.testBit _ (Eff.num _) = true); simp only [Eff.num]; rfl) | split | dsimp only

theorem endHold_writes {m : Nat} (hm : 34393317121 &&& m = 34393317121) {a1 : _} : (endHold a1).Writes m := by
  have c0 := @modCourse_writes m (within_mask hm rfl)
  have c1 := @openDue_writes m (within_mask hm rfl)
  unfold endHold
  repeat' first
    | with_reducible first | exact writes_done | exact writes_nil | refine writes_cons ?_ ?_ | refine writes_seq ?_ ?_ | refine writes_look fun _ => ?_ | refine writes_when ?_ | refine writes_each fun _ => ?_ | refine writes_ite ?_ ?_ | exact c0 | exact c1 | refine writes_act (bit_mask hm ?_)
    | ((with_reducible show Nat.testBit _ (Eff.num _) = true); simp only [Eff.num]; rfl) | split | dsimp only

theorem missVote_writes {m : Nat} (hm : 34460426113 &&& m = 34460426113) {a1 : _} {a2 : _} : (missVote a1 a2).Writes m := by
  have c0 := @advanceQuiet_writes m (within_mask hm rfl)
  have c1 := @decideCourse_writes m (within_mask hm rfl)
  have c2 := @modCourse_writes m (within_mask hm rfl)
  unfold missVote
  repeat' first
    | with_reducible first | exact writes_done | exact writes_nil | refine writes_cons ?_ ?_ | refine writes_seq ?_ ?_ | refine writes_look fun _ => ?_ | refine writes_when ?_ | refine writes_each fun _ => ?_ | refine writes_ite ?_ ?_ | exact c0 | exact c1 | exact c2 | refine writes_act (bit_mask hm ?_)
    | ((with_reducible show Nat.testBit _ (Eff.num _) = true); simp only [Eff.num]; rfl) | split | dsimp only

theorem noticesAgain_writes {m : Nat} (hm : 34359758336 &&& m = 34359758336) : (noticesAgain).Writes m := by
  have c0 := @toRoot_writes m (within_mask hm rfl)
  unfold noticesAgain
  repeat' first
    | with_reducible first | exact writes_done | exact writes_nil | refine writes_cons ?_ ?_ | refine writes_seq ?_ ?_ | refine writes_look fun _ => ?_ | refine writes_when ?_ | refine writes_each fun _ => ?_ | refine writes_ite ?_ ?_ | exact c0 | refine writes_act (bit_mask hm ?_)
    | ((with_reducible show Nat.testBit _ (Eff.num _) = true); simp only [Eff.num]; rfl) | split | dsimp only

theorem retireSlot_writes {m : Nat} (hm : 1 &&& m = 1) {a1 : _} : (retireSlot a1).Writes m := by
  have c0 := @put_writes m (within_mask hm rfl)
  have c1 := @setSlot_writes m (within_mask hm rfl)
  unfold retireSlot
  repeat' first
    | with_reducible first | exact writes_done | exact writes_nil | refine writes_cons ?_ ?_ | refine writes_seq ?_ ?_ | refine writes_look fun _ => ?_ | refine writes_when ?_ | refine writes_each fun _ => ?_ | refine writes_ite ?_ ?_ | exact c0 | exact c1 | refine writes_act (bit_mask hm ?_)
    | ((with_reducible show Nat.testBit _ (Eff.num _) = true); simp only [Eff.num]; rfl) | split | dsimp only

theorem shoreNotice_writes {m : Nat} (hm : 34426867200 &&& m = 34426867200) {a1 : _} {a2 : _} {a3 : _} : (shoreNotice a1 a2 a3).Writes m := by
  have c0 := @modShore_writes m (within_mask hm rfl)
  have c1 := @toRoot_writes m (within_mask hm rfl)
  unfold shoreNotice
  repeat' first
    | with_reducible first | exact writes_done | exact writes_nil | refine writes_cons ?_ ?_ | refine writes_seq ?_ ?_ | refine writes_look fun _ => ?_ | refine writes_when ?_ | refine writes_each fun _ => ?_ | refine writes_ite ?_ ?_ | exact c0 | exact c1 | refine writes_act (bit_mask hm ?_)
    | ((with_reducible show Nat.testBit _ (Eff.num _) = true); simp only [Eff.num]; rfl) | split | dsimp only

theorem positionLost_writes {m : Nat} (hm : 34461769391 &&& m = 34461769391) : (positionLost).Writes m := by
  have c0 := @abandonHere_writes m (within_mask hm rfl)
  have c1 := @bump_writes m (within_mask hm rfl)
  have c2 := @coverBeyond_writes m (within_mask hm rfl)
  have c3 := @fenceWindow_writes m (within_mask hm rfl)
  have c4 := @modShore_writes m (within_mask hm rfl)
  have c5 := @modTile_writes m (within_mask hm rfl)
  have c6 := @put_writes m (within_mask hm rfl)
  have c7 := @raise_writes m (within_mask hm rfl)
  have c8 := @retireSlot_writes m (within_mask hm rfl)
  have c9 := @shoreNotice_writes m (within_mask hm rfl)
  unfold positionLost
  repeat' first
    | with_reducible first | exact writes_done | exact writes_nil | refine writes_cons ?_ ?_ | refine writes_seq ?_ ?_ | refine writes_look fun _ => ?_ | refine writes_when ?_ | refine writes_each fun _ => ?_ | refine writes_ite ?_ ?_ | exact c0 | exact c1 | exact c2 | exact c3 | exact c4 | exact c5 | exact c6 | exact c7 | exact c8 | exact c9 | refine writes_act (bit_mask hm ?_)
    | ((with_reducible show Nat.testBit _ (Eff.num _) = true); simp only [Eff.num]; rfl) | split | dsimp only

theorem rebase_writes {m : Nat} (hm : 129 &&& m = 129) {a1 : _} : (rebase a1).Writes m := by
  have c0 := @put_writes m (within_mask hm rfl)
  unfold rebase
  repeat' first
    | with_reducible first | exact writes_done | exact writes_nil | refine writes_cons ?_ ?_ | refine writes_seq ?_ ?_ | refine writes_look fun _ => ?_ | refine writes_when ?_ | refine writes_each fun _ => ?_ | refine writes_ite ?_ ?_ | exact c0 | refine writes_act (bit_mask hm ?_)
    | ((with_reducible show Nat.testBit _ (Eff.num _) = true); simp only [Eff.num]; rfl) | split | dsimp only

theorem rewindBarrierTimeout_writes {m : Nat} (hm : 34695307137 &&& m = 34695307137) : (rewindBarrierTimeout).Writes m := by
  have c0 := @rewindLost_writes m (within_mask hm rfl)
  unfold rewindBarrierTimeout
  repeat' first
    | with_reducible first | exact writes_done | exact writes_nil | refine writes_cons ?_ ?_ | refine writes_seq ?_ ?_ | refine writes_look fun _ => ?_ | refine writes_when ?_ | refine writes_each fun _ => ?_ | refine writes_ite ?_ ?_ | exact c0 | refine writes_act (bit_mask hm ?_)
    | ((with_reducible show Nat.testBit _ (Eff.num _) = true); simp only [Eff.num]; rfl) | split | dsimp only

theorem rootNotice_writes {m : Nat} (hm : 34460426113 &&& m = 34460426113) {a1 : _} {a2 : _} : (rootNotice a1 a2).Writes m := by
  have c0 := @decideCourse_writes m (within_mask hm rfl)
  have c1 := @modCourse_writes m (within_mask hm rfl)
  have c2 := @modShore_writes m (within_mask hm rfl)
  have c3 := @startRewind_writes m (within_mask hm rfl)
  have c4 := @supersede_writes m (within_mask hm rfl)
  unfold rootNotice
  repeat' first
    | with_reducible first | exact writes_done | exact writes_nil | refine writes_cons ?_ ?_ | refine writes_seq ?_ ?_ | refine writes_look fun _ => ?_ | refine writes_when ?_ | refine writes_each fun _ => ?_ | refine writes_ite ?_ ?_ | exact c0 | exact c1 | exact c2 | exact c3 | exact c4 | refine writes_act (bit_mask hm ?_)
    | ((with_reducible show Nat.testBit _ (Eff.num _) = true); simp only [Eff.num]; rfl) | split | dsimp only

theorem takeRoot_writes {m : Nat} (hm : 34460421633 &&& m = 34460421633) {a1 : _} : (takeRoot a1).Writes m := by
  have c0 := @modCourse_writes m (within_mask hm rfl)
  have c1 := @modShore_writes m (within_mask hm rfl)
  have c2 := @notify_writes m (within_mask hm rfl)
  have c3 := @put_writes m (within_mask hm rfl)
  unfold takeRoot
  repeat' first
    | with_reducible first | exact writes_done | exact writes_nil | refine writes_cons ?_ ?_ | refine writes_seq ?_ ?_ | refine writes_look fun _ => ?_ | refine writes_when ?_ | refine writes_each fun _ => ?_ | refine writes_ite ?_ ?_ | exact c0 | exact c1 | exact c2 | exact c3 | refine writes_act (bit_mask hm ?_)
    | ((with_reducible show Nat.testBit _ (Eff.num _) = true); simp only [Eff.num]; rfl) | split | dsimp only

theorem takeShrCfg_writes {m : Nat} (hm : 67108864 &&& m = 67108864) : (takeShrCfg).Writes m := by
  have c0 := @modShore_writes m (within_mask hm rfl)
  unfold takeShrCfg
  repeat' first
    | with_reducible first | exact writes_done | exact writes_nil | refine writes_cons ?_ ?_ | refine writes_seq ?_ ?_ | refine writes_look fun _ => ?_ | refine writes_when ?_ | refine writes_each fun _ => ?_ | refine writes_ite ?_ ?_ | exact c0 | refine writes_act (bit_mask hm ?_)
    | ((with_reducible show Nat.testBit _ (Eff.num _) = true); simp only [Eff.num]; rfl) | split | dsimp only

theorem tookRoot_writes {m : Nat} (hm : 34460426113 &&& m = 34460426113) {a1 : _} : (tookRoot a1).Writes m := by
  have c0 := @broadcast_writes m (within_mask hm rfl)
  have c1 := @modCourse_writes m (within_mask hm rfl)
  have c2 := @modShore_writes m (within_mask hm rfl)
  have c3 := @openDue_writes m (within_mask hm rfl)
  have c4 := @rebase_writes m (within_mask hm rfl)
  have c5 := @sendPlan_writes m (within_mask hm rfl)
  have c6 := @startRewind_writes m (within_mask hm rfl)
  have c7 := @supersede_writes m (within_mask hm rfl)
  unfold tookRoot
  repeat' first
    | with_reducible first | exact writes_done | exact writes_nil | refine writes_cons ?_ ?_ | refine writes_seq ?_ ?_ | refine writes_look fun _ => ?_ | refine writes_when ?_ | refine writes_each fun _ => ?_ | refine writes_ite ?_ ?_ | exact c0 | exact c1 | exact c2 | exact c3 | exact c4 | exact c5 | exact c6 | exact c7 | refine writes_act (bit_mask hm ?_)
    | ((with_reducible show Nat.testBit _ (Eff.num _) = true); simp only [Eff.num]; rfl) | split | dsimp only

theorem wantEarly_writes {m : Nat} (hm : 34393317121 &&& m = 34393317121) : (wantEarly).Writes m := by
  have c0 := @modCourse_writes m (within_mask hm rfl)
  have c1 := @openDue_writes m (within_mask hm rfl)
  unfold wantEarly
  repeat' first
    | with_reducible first | exact writes_done | exact writes_nil | refine writes_cons ?_ ?_ | refine writes_seq ?_ ?_ | refine writes_look fun _ => ?_ | refine writes_when ?_ | refine writes_each fun _ => ?_ | refine writes_ite ?_ ?_ | exact c0 | exact c1 | refine writes_act (bit_mask hm ?_)
    | ((with_reducible show Nat.testBit _ (Eff.num _) = true); simp only [Eff.num]; rfl) | split | dsimp only

theorem loadBytes_writes {m : Nat} (hm : 34359789056 &&& m = 34359789056) {a1 : _} {a2 : _} {a3 : _} : (loadBytes a1 a2 a3).Writes m := by
  have c0 := @oSendOn_writes m (within_mask hm rfl)
  have c1 := @tallyClass_writes m (within_mask hm rfl)
  have c2 := @tallySlot_writes m (within_mask hm rfl)
  unfold loadBytes
  repeat' first
    | with_reducible first | exact writes_done | exact writes_nil | refine writes_cons ?_ ?_ | refine writes_seq ?_ ?_ | refine writes_look fun _ => ?_ | refine writes_when ?_ | refine writes_each fun _ => ?_ | refine writes_ite ?_ ?_ | exact c0 | exact c1 | exact c2 | refine writes_act (bit_mask hm ?_)
    | ((with_reducible show Nat.testBit _ (Eff.num _) = true); simp only [Eff.num]; rfl) | split | dsimp only

theorem copyLocal_writes {m : Nat} (hm : 34602286767 &&& m = 34602286767) {a1 : _} {a2 : _} : (copyLocal a1 a2).Writes m := by
  have c0 := @editLeaf_writes m (within_mask hm rfl)
  have c1 := @integrityOwn_writes m (within_mask hm rfl)
  have c2 := @keepWritten_writes m (within_mask hm rfl)
  have c3 := @loadBytes_writes m (within_mask hm rfl)
  have c4 := @positionLost_writes m (within_mask hm rfl)
  unfold copyLocal
  repeat' first
    | with_reducible first | exact writes_done | exact writes_nil | refine writes_cons ?_ ?_ | refine writes_seq ?_ ?_ | refine writes_look fun _ => ?_ | refine writes_when ?_ | refine writes_each fun _ => ?_ | refine writes_ite ?_ ?_ | exact c0 | exact c1 | exact c2 | exact c3 | exact c4 | refine writes_act (bit_mask hm ?_)
    | ((with_reducible show Nat.testBit _ (Eff.num _) = true); simp only [Eff.num]; rfl) | split | dsimp only

theorem countQueue_writes {m : Nat} (hm : 1 &&& m = 1) : (countQueue).Writes m := by
  have c0 := @put_writes m (within_mask hm rfl)
  unfold countQueue
  repeat' first
    | with_reducible first | exact writes_done | exact writes_nil | refine writes_cons ?_ ?_ | refine writes_seq ?_ ?_ | refine writes_look fun _ => ?_ | refine writes_when ?_ | refine writes_each fun _ => ?_ | refine writes_ite ?_ ?_ | exact c0 | refine writes_act (bit_mask hm ?_)
    | ((with_reducible show Nat.testBit _ (Eff.num _) = true); simp only [Eff.num]; rfl) | split | dsimp only

theorem dealt_writes {m : Nat} (hm : 34493980161 &&& m = 34493980161) {a1 : _} {a2 : _} {a3 : _} {a4 : _} : (dealt a1 a2 a3 a4).Writes m := by
  have c0 := @modWit_writes m (within_mask hm rfl)
  have c1 := @tryVote_writes m (within_mask hm rfl)
  unfold dealt
  repeat' first
    | with_reducible first | exact writes_done | exact writes_nil | refine writes_cons ?_ ?_ | refine writes_seq ?_ ?_ | refine writes_look fun _ => ?_ | refine writes_when ?_ | refine writes_each fun _ => ?_ | refine writes_ite ?_ ?_ | exact c0 | exact c1 | refine writes_act (bit_mask hm ?_)
    | ((with_reducible show Nat.testBit _ (Eff.num _) = true); simp only [Eff.num]; rfl) | split | dsimp only

theorem handbackBoundary_writes {m : Nat} (hm : 51782680239 &&& m = 51782680239) {a1 : _} {a2 : _} {a3 : _} {a4 : _} : (handbackBoundary a1 a2 a3 a4).Writes m := by
  have c0 := @copyLocal_writes m (within_mask hm rfl)
  have c1 := @modShore_writes m (within_mask hm rfl)
  have c2 := @modTile_writes m (within_mask hm rfl)
  have c3 := @put_writes m (within_mask hm rfl)
  have c4 := @sendContextRegs_writes m (within_mask hm rfl)
  have c5 := @sendCounters_writes m (within_mask hm rfl)
  have c6 := @sendKey_writes m (within_mask hm rfl)
  have c7 := @sendSelector_writes m (within_mask hm rfl)
  have c8 := @xcnMove_writes m (within_mask hm rfl)
  unfold handbackBoundary
  repeat' first
    | with_reducible first | exact writes_done | exact writes_nil | refine writes_cons ?_ ?_ | refine writes_seq ?_ ?_ | refine writes_look fun _ => ?_ | refine writes_when ?_ | refine writes_each fun _ => ?_ | refine writes_ite ?_ ?_ | exact c0 | exact c1 | exact c2 | exact c3 | exact c4 | exact c5 | exact c6 | exact c7 | exact c8 | refine writes_act (bit_mask hm ?_)
    | ((with_reducible show Nat.testBit _ (Eff.num _) = true); simp only [Eff.num]; rfl) | split | dsimp only

theorem jobStep_writes {m : Nat} (hm : 51782680495 &&& m = 51782680495) {a1 : _} {a2 : _} {a3 : _} (h3 : ∀ x0, (a3 x0).Writes m) : (jobStep a1 a2 a3).Writes m := by
  have c0 := @handbackBoundary_writes m (within_mask hm rfl)
  have c1 := @learnStep_writes m (within_mask hm rfl)
  have c2 := @localCut_writes m (within_mask hm rfl)
  have c3 := @modAgent_writes m (within_mask hm rfl)
  have c4 := @modWit_writes m (within_mask hm rfl)
  have c5 := @startVoteClock_writes m (within_mask hm rfl)
  unfold jobStep
  repeat' first
    | with_reducible first | exact writes_done | exact writes_nil | refine writes_cons ?_ ?_ | refine writes_seq ?_ ?_ | refine writes_look fun _ => ?_ | refine writes_when ?_ | refine writes_each fun _ => ?_ | refine writes_ite ?_ ?_ | exact c0 | exact c1 | exact c2 | exact c3 | exact c4 | exact c5 | exact h3 _ | refine writes_act (bit_mask hm ?_)
    | ((with_reducible show Nat.testBit _ (Eff.num _) = true); simp only [Eff.num]; rfl) | split | dsimp only

theorem markUsed_writes {m : Nat} (hm : 134217728 &&& m = 134217728) {a1 : _} : (markUsed a1).Writes m := by
  have c0 := @modWit_writes m (within_mask hm rfl)
  unfold markUsed
  repeat' first
    | with_reducible first | exact writes_done | exact writes_nil | refine writes_cons ?_ ?_ | refine writes_seq ?_ ?_ | refine writes_look fun _ => ?_ | refine writes_when ?_ | refine writes_each fun _ => ?_ | refine writes_ite ?_ ?_ | exact c0 | refine writes_act (bit_mask hm ?_)
    | ((with_reducible show Nat.testBit _ (Eff.num _) = true); simp only [Eff.num]; rfl) | split | dsimp only

theorem moveChecked_writes {m : Nat} (hm : 34500276231 &&& m = 34500276231) {a1 : _} {a2 : _} {a3 : _} {a4 : _} {a5 : _} (h4 : (a4).Writes m) (h5 : (a5).Writes m) : (moveChecked a1 a2 a3 a4 a5).Writes m := by
  have c0 := @copyPhys_writes m (within_mask hm rfl)
  have c1 := @integrityOwn_writes m (within_mask hm rfl)
  unfold moveChecked
  repeat' first
    | with_reducible first | exact writes_done | exact writes_nil | refine writes_cons ?_ ?_ | refine writes_seq ?_ ?_ | refine writes_look fun _ => ?_ | refine writes_when ?_ | refine writes_each fun _ => ?_ | refine writes_ite ?_ ?_ | exact c0 | exact c1 | exact h4 | exact h5 | refine writes_act (bit_mask hm ?_)
    | ((with_reducible show Nat.testBit _ (Eff.num _) = true); simp only [Eff.num]; rfl) | split | dsimp only

theorem ownTile_writes {m : Nat} (hm : 9 &&& m = 9) {a1 : _} {a2 : _} {a3 : _} : (ownTile a1 a2 a3).Writes m := by
  have c0 := @modTile_writes m (within_mask hm rfl)
  have c1 := @put_writes m (within_mask hm rfl)
  unfold ownTile
  repeat' first
    | with_reducible first | exact writes_done | exact writes_nil | refine writes_cons ?_ ?_ | refine writes_seq ?_ ?_ | refine writes_look fun _ => ?_ | refine writes_when ?_ | refine writes_each fun _ => ?_ | refine writes_ite ?_ ?_ | exact c0 | exact c1 | refine writes_act (bit_mask hm ?_)
    | ((with_reducible show Nat.testBit _ (Eff.num _) = true); simp only [Eff.num]; rfl) | split | dsimp only

theorem settleWitness_writes {m : Nat} (hm : 9 &&& m = 9) : (settleWitness).Writes m := by
  have c0 := @modTile_writes m (within_mask hm rfl)
  have c1 := @ownTile_writes m (within_mask hm rfl)
  unfold settleWitness
  repeat' first
    | with_reducible first | exact writes_done | exact writes_nil | refine writes_cons ?_ ?_ | refine writes_seq ?_ ?_ | refine writes_look fun _ => ?_ | refine writes_when ?_ | refine writes_each fun _ => ?_ | refine writes_ite ?_ ?_ | exact c0 | exact c1 | refine writes_act (bit_mask hm ?_)
    | ((with_reducible show Nat.testBit _ (Eff.num _) = true); simp only [Eff.num]; rfl) | split | dsimp only

theorem retireTile_writes {m : Nat} (hm : 34366058505 &&& m = 34366058505) {a1 : _} {a2 : _} : (retireTile a1 a2).Writes m := by
  have c0 := @modTile_writes m (within_mask hm rfl)
  have c1 := @notice_writes m (within_mask hm rfl)
  have c2 := @ownTile_writes m (within_mask hm rfl)
  have c3 := @put_writes m (within_mask hm rfl)
  have c4 := @raise_writes m (within_mask hm rfl)
  have c5 := @record_writes m (within_mask hm rfl)
  have c6 := @settleWitness_writes m (within_mask hm rfl)
  unfold retireTile
  repeat' first
    | with_reducible first | exact writes_done | exact writes_nil | refine writes_cons ?_ ?_ | refine writes_seq ?_ ?_ | refine writes_look fun _ => ?_ | refine writes_when ?_ | refine writes_each fun _ => ?_ | refine writes_ite ?_ ?_ | exact c0 | exact c1 | exact c2 | exact c3 | exact c4 | exact c5 | exact c6 | refine writes_act (bit_mask hm ?_)
    | ((with_reducible show Nat.testBit _ (Eff.num _) = true); simp only [Eff.num]; rfl) | split | dsimp only

theorem ownEvent_writes {m : Nat} (hm : 34500276233 &&& m = 34500276233) {a1 : _} {a2 : _} {a3 : _} : (ownEvent a1 a2 a3).Writes m := by
  have c0 := @bump_writes m (within_mask hm rfl)
  have c1 := @intEvent_writes m (within_mask hm rfl)
  have c2 := @modWit_writes m (within_mask hm rfl)
  have c3 := @retireTile_writes m (within_mask hm rfl)
  unfold ownEvent
  repeat' first
    | with_reducible first | exact writes_done | exact writes_nil | refine writes_cons ?_ ?_ | refine writes_seq ?_ ?_ | refine writes_look fun _ => ?_ | refine writes_when ?_ | refine writes_each fun _ => ?_ | refine writes_ite ?_ ?_ | exact c0 | exact c1 | exact c2 | exact c3 | refine writes_act (bit_mask hm ?_)
    | ((with_reducible show Nat.testBit _ (Eff.num _) = true); simp only [Eff.num]; rfl) | split | dsimp only

theorem popRecord_writes {m : Nat} (hm : 34493980161 &&& m = 34493980161) : (popRecord).Writes m := by
  have c0 := @countQueue_writes m (within_mask hm rfl)
  have c1 := @dealt_writes m (within_mask hm rfl)
  have c2 := @modWit_writes m (within_mask hm rfl)
  unfold popRecord
  repeat' first
    | with_reducible first | exact writes_done | exact writes_nil | refine writes_cons ?_ ?_ | refine writes_seq ?_ ?_ | refine writes_look fun _ => ?_ | refine writes_when ?_ | refine writes_each fun _ => ?_ | refine writes_ite ?_ ?_ | exact c0 | exact c1 | exact c2 | refine writes_act (bit_mask hm ?_)
    | ((with_reducible show Nat.testBit _ (Eff.num _) = true); simp only [Eff.num]; rfl) | split | dsimp only

theorem queueSample_writes {m : Nat} (hm : 34493980161 &&& m = 34493980161) {a1 : _} {a2 : _} {a3 : _} : (queueSample a1 a2 a3).Writes m := by
  have c0 := @bump_writes m (within_mask hm rfl)
  have c1 := @countQueue_writes m (within_mask hm rfl)
  have c2 := @dealt_writes m (within_mask hm rfl)
  have c3 := @modWit_writes m (within_mask hm rfl)
  unfold queueSample
  repeat' first
    | with_reducible first | exact writes_done | exact writes_nil | refine writes_cons ?_ ?_ | refine writes_seq ?_ ?_ | refine writes_look fun _ => ?_ | refine writes_when ?_ | refine writes_each fun _ => ?_ | refine writes_ite ?_ ?_ | exact c0 | exact c1 | exact c2 | exact c3 | refine writes_act (bit_mask hm ?_)
    | ((with_reducible show Nat.testBit _ (Eff.num _) = true); simp only [Eff.num]; rfl) | split | dsimp only

theorem strayEvent_writes {m : Nat} (hm : 34500276225 &&& m = 34500276225) {a1 : _} {a2 : _} : (strayEvent a1 a2).Writes m := by
  have c0 := @bump_writes m (within_mask hm rfl)
  have c1 := @intEvent_writes m (within_mask hm rfl)
  have c2 := @modWit_writes m (within_mask hm rfl)
  unfold strayEvent
  repeat' first
    | with_reducible first | exact writes_done | exact writes_nil | refine writes_cons ?_ ?_ | refine writes_seq ?_ ?_ | refine writes_look fun _ => ?_ | refine writes_when ?_ | refine writes_each fun _ => ?_ | refine writes_ite ?_ ?_ | exact c0 | exact c1 | exact c2 | refine writes_act (bit_mask hm ?_)
    | ((with_reducible show Nat.testBit _ (Eff.num _) = true); simp only [Eff.num]; rfl) | split | dsimp only

theorem witnessException_writes {m : Nat} (hm : 34500279817 &&& m = 34500279817) {a1 : _} {a2 : _} : (witnessException a1 a2).Writes m := by
  have c0 := @markUsed_writes m (within_mask hm rfl)
  have c1 := @ownEvent_writes m (within_mask hm rfl)
  have c2 := @popRecord_writes m (within_mask hm rfl)
  have c3 := @strayEvent_writes m (within_mask hm rfl)
  unfold witnessException
  repeat' first
    | with_reducible first | exact writes_done | exact writes_nil | refine writes_cons ?_ ?_ | refine writes_seq ?_ ?_ | refine writes_look fun _ => ?_ | refine writes_when ?_ | refine writes_each fun _ => ?_ | refine writes_ite ?_ ?_ | exact c0 | exact c1 | exact c2 | exact c3 | refine writes_act (bit_mask hm ?_)
    | ((with_reducible show Nat.testBit _ (Eff.num _) = true); simp only [Eff.num]; rfl) | split | dsimp only

theorem watchResult_writes {m : Nat} (hm : 34728861569 &&& m = 34728861569) {a1 : _} {a2 : _} {a3 : _} : (watchResult a1 a2 a3).Writes m := by
  have c0 := @courseBarrierFired_writes m (within_mask hm rfl)
  have c1 := @courseBarrierTimeout_writes m (within_mask hm rfl)
  have c2 := @rewindBarrierFired_writes m (within_mask hm rfl)
  have c3 := @rewindBarrierTimeout_writes m (within_mask hm rfl)
  have c4 := @watchTell_writes m (within_mask hm rfl)
  unfold watchResult
  repeat' first
    | with_reducible first | exact writes_done | exact writes_nil | refine writes_cons ?_ ?_ | refine writes_seq ?_ ?_ | refine writes_look fun _ => ?_ | refine writes_when ?_ | refine writes_each fun _ => ?_ | refine writes_ite ?_ ?_ | exact c0 | exact c1 | exact c2 | exact c3 | exact c4 | refine writes_act (bit_mask hm ?_)
    | ((with_reducible show Nat.testBit _ (Eff.num _) = true); simp only [Eff.num]; rfl) | split | dsimp only

theorem fireWatches_writes {m : Nat} (hm : 34728861569 &&& m = 34728861569) {a1 : _} : (fireWatches a1).Writes m := by
  have c0 := @dropWatch_writes m (within_mask hm rfl)
  have c1 := @tally_writes m (within_mask hm rfl)
  have c2 := @watchResult_writes m (within_mask hm rfl)
  unfold fireWatches
  repeat' first
    | with_reducible first | exact writes_done | exact writes_nil | refine writes_cons ?_ ?_ | refine writes_seq ?_ ?_ | refine writes_look fun _ => ?_ | refine writes_when ?_ | refine writes_each fun _ => ?_ | refine writes_ite ?_ ?_ | exact c0 | exact c1 | exact c2 | refine writes_act (bit_mask hm ?_)
    | ((with_reducible show Nat.testBit _ (Eff.num _) = true); simp only [Eff.num]; rfl) | split | dsimp only

theorem advance_writes {m : Nat} (hm : 34728861569 &&& m = 34728861569) {a1 : _} {a2 : _} : (advance a1 a2).Writes m := by
  have c0 := @fireWatches_writes m (within_mask hm rfl)
  have c1 := @tally_writes m (within_mask hm rfl)
  unfold advance
  repeat' first
    | with_reducible first | exact writes_done | exact writes_nil | refine writes_cons ?_ ?_ | refine writes_seq ?_ ?_ | refine writes_look fun _ => ?_ | refine writes_when ?_ | refine writes_each fun _ => ?_ | refine writes_ite ?_ ?_ | exact c0 | exact c1 | refine writes_act (bit_mask hm ?_)
    | ((with_reducible show Nat.testBit _ (Eff.num _) = true); simp only [Eff.num]; rfl) | split | dsimp only

end Sys2Proof.Machine
end

