-- ==== Sys2Proof/Laws/Writes5.lean ====
section
/-! SUPPORT. What each shared operation writes (part 5): one lemma per operation, of the areas its effects name. -/

set_option maxRecDepth 16000

namespace Sys2Proof.Machine

theorem armWatch_writes {m : Nat} (hm : 34728861569 &&& m = 34728861569) {a1 : _} {a2 : _} (h2 : ∀ x0 x1, (a2 x0 x1).Writes m) : (armWatch a1 a2).Writes m := by
  have c0 := @countWatches_writes m (within_mask hm rfl)
  have c1 := @fireWatches_writes m (within_mask hm rfl)
  have c2 := @raise_writes m (within_mask hm rfl)
  unfold armWatch
  repeat' first
    | with_reducible first | exact writes_done | exact writes_nil | refine writes_cons ?_ ?_ | refine writes_seq ?_ ?_ | refine writes_look fun _ => ?_ | refine writes_when ?_ | refine writes_each fun _ => ?_ | refine writes_ite ?_ ?_ | exact c0 | exact c1 | exact c2 | exact h2 _ _ | refine writes_act (bit_mask hm ?_)
    | ((with_reducible show Nat.testBit _ (Eff.num _) = true); simp only [Eff.num]; rfl) | split | dsimp only

theorem countSlices_writes {m : Nat} (hm : 134217728 &&& m = 134217728) {a1 : _} : (countSlices a1).Writes m := by
  have c0 := @modWit_writes m (within_mask hm rfl)
  unfold countSlices
  repeat' first
    | with_reducible first | exact writes_done | exact writes_nil | refine writes_cons ?_ ?_ | refine writes_seq ?_ ?_ | refine writes_look fun _ => ?_ | refine writes_when ?_ | refine writes_each fun _ => ?_ | refine writes_ite ?_ ?_ | exact c0 | refine writes_act (bit_mask hm ?_)
    | ((with_reducible show Nat.testBit _ (Eff.num _) = true); simp only [Eff.num]; rfl) | split | dsimp only

theorem countTiles_writes {m : Nat} (hm : 134217728 &&& m = 134217728) {a1 : _} : (countTiles a1).Writes m := by
  have c0 := @modWit_writes m (within_mask hm rfl)
  unfold countTiles
  repeat' first
    | with_reducible first | exact writes_done | exact writes_nil | refine writes_cons ?_ ?_ | refine writes_seq ?_ ?_ | refine writes_look fun _ => ?_ | refine writes_when ?_ | refine writes_each fun _ => ?_ | refine writes_ite ?_ ?_ | exact c0 | refine writes_act (bit_mask hm ?_)
    | ((with_reducible show Nat.testBit _ (Eff.num _) = true); simp only [Eff.num]; rfl) | split | dsimp only

theorem formPassRecords_writes {m : Nat} (hm : 34493980161 &&& m = 34493980161) {a1 : _} {a2 : _} : (formPassRecords a1 a2).Writes m := by
  have c0 := @queueSample_writes m (within_mask hm rfl)
  unfold formPassRecords
  repeat' first
    | with_reducible first | exact writes_done | exact writes_nil | refine writes_cons ?_ ?_ | refine writes_seq ?_ ?_ | refine writes_look fun _ => ?_ | refine writes_when ?_ | refine writes_each fun _ => ?_ | refine writes_ite ?_ ?_ | exact c0 | refine writes_act (bit_mask hm ?_)
    | ((with_reducible show Nat.testBit _ (Eff.num _) = true); simp only [Eff.num]; rfl) | split | dsimp only

theorem formSliceRecord_writes {m : Nat} (hm : 34493980161 &&& m = 34493980161) {a1 : _} {a2 : _} {a3 : _} : (formSliceRecord a1 a2 a3).Writes m := by
  have c0 := @countSlices_writes m (within_mask hm rfl)
  have c1 := @queueSample_writes m (within_mask hm rfl)
  unfold formSliceRecord
  repeat' first
    | with_reducible first | exact writes_done | exact writes_nil | refine writes_cons ?_ ?_ | refine writes_seq ?_ ?_ | refine writes_look fun _ => ?_ | refine writes_when ?_ | refine writes_each fun _ => ?_ | refine writes_ite ?_ ?_ | exact c0 | exact c1 | refine writes_act (bit_mask hm ?_)
    | ((with_reducible show Nat.testBit _ (Eff.num _) = true); simp only [Eff.num]; rfl) | split | dsimp only

theorem reportException_writes {m : Nat} (hm : 34602286767 &&& m = 34602286767) {a1 : _} {a2 : _} : (reportException a1 a2).Writes m := by
  have c0 := @noticeTo_writes m (within_mask hm rfl)
  have c1 := @positionLost_writes m (within_mask hm rfl)
  have c2 := @witnessException_writes m (within_mask hm rfl)
  unfold reportException
  repeat' first
    | with_reducible first | exact writes_done | exact writes_nil | refine writes_cons ?_ ?_ | refine writes_seq ?_ ?_ | refine writes_look fun _ => ?_ | refine writes_when ?_ | refine writes_each fun _ => ?_ | refine writes_ite ?_ ?_ | exact c0 | exact c1 | exact c2 | refine writes_act (bit_mask hm ?_)
    | ((with_reducible show Nat.testBit _ (Eff.num _) = true); simp only [Eff.num]; rfl) | split | dsimp only

theorem withdraw_writes {m : Nat} (hm : 262151 &&& m = 262151) {a1 : _} : (withdraw a1).Writes m := by
  have c0 := @modMmu_writes m (within_mask hm rfl)
  have c1 := @put_writes m (within_mask hm rfl)
  have c2 := @writePhysNat_writes m (within_mask hm rfl)
  unfold withdraw
  repeat' first
    | with_reducible first | exact writes_done | exact writes_nil | refine writes_cons ?_ ?_ | refine writes_seq ?_ ?_ | refine writes_look fun _ => ?_ | refine writes_when ?_ | refine writes_each fun _ => ?_ | refine writes_ite ?_ ?_ | exact c0 | exact c1 | exact c2 | refine writes_act (bit_mask hm ?_)
    | ((with_reducible show Nat.testBit _ (Eff.num _) = true); simp only [Eff.num]; rfl) | split | dsimp only

theorem withdrawTile_writes {m : Nat} (hm : 262159 &&& m = 262159) {a1 : _} : (withdrawTile a1).Writes m := by
  have c0 := @modTile_writes m (within_mask hm rfl)
  have c1 := @withdraw_writes m (within_mask hm rfl)
  unfold withdrawTile
  repeat' first
    | with_reducible first | exact writes_done | exact writes_nil | refine writes_cons ?_ ?_ | refine writes_seq ?_ ?_ | refine writes_look fun _ => ?_ | refine writes_when ?_ | refine writes_each fun _ => ?_ | refine writes_ite ?_ ?_ | exact c0 | exact c1 | refine writes_act (bit_mask hm ?_)
    | ((with_reducible show Nat.testBit _ (Eff.num _) = true); simp only [Eff.num]; rfl) | split | dsimp only

theorem settle_writes {m : Nat} (hm : 262159 &&& m = 262159) {a1 : _} : (settle a1).Writes m := by
  have c0 := @modTile_writes m (within_mask hm rfl)
  have c1 := @withdrawTile_writes m (within_mask hm rfl)
  unfold settle
  repeat' first
    | with_reducible first | exact writes_done | exact writes_nil | refine writes_cons ?_ ?_ | refine writes_seq ?_ ?_ | refine writes_look fun _ => ?_ | refine writes_when ?_ | refine writes_each fun _ => ?_ | refine writes_ite ?_ ?_ | exact c0 | exact c1 | refine writes_act (bit_mask hm ?_)
    | ((with_reducible show Nat.testBit _ (Eff.num _) = true); simp only [Eff.num]; rfl) | split | dsimp only

theorem exception_writes {m : Nat} (hm : 34602286767 &&& m = 34602286767) {a1 : _} {a2 : _} {a3 : _} {a4 : _} : (exception a1 a2 a3 a4).Writes m := by
  have c0 := @modTile_writes m (within_mask hm rfl)
  have c1 := @reportException_writes m (within_mask hm rfl)
  have c2 := @settle_writes m (within_mask hm rfl)
  unfold exception
  repeat' first
    | with_reducible first | exact writes_done | exact writes_nil | refine writes_cons ?_ ?_ | refine writes_seq ?_ ?_ | refine writes_look fun _ => ?_ | refine writes_when ?_ | refine writes_each fun _ => ?_ | refine writes_ite ?_ ?_ | exact c0 | exact c1 | exact c2 | refine writes_act (bit_mask hm ?_)
    | ((with_reducible show Nat.testBit _ (Eff.num _) = true); simp only [Eff.num]; rfl) | split | dsimp only

theorem fetch_writes {m : Nat} (hm : 34602286767 &&& m = 34602286767) {a1 : _} {a2 : _} {a3 : _} {a4 : _} : (fetch a1 a2 a3 a4).Writes m := by
  have c0 := @exception_writes m (within_mask hm rfl)
  have c1 := @modTile_writes m (within_mask hm rfl)
  unfold fetch
  repeat' first
    | with_reducible first | exact writes_done | exact writes_nil | refine writes_cons ?_ ?_ | refine writes_seq ?_ ?_ | refine writes_look fun _ => ?_ | refine writes_when ?_ | refine writes_each fun _ => ?_ | refine writes_ite ?_ ?_ | exact c0 | exact c1 | refine writes_act (bit_mask hm ?_)
    | ((with_reducible show Nat.testBit _ (Eff.num _) = true); simp only [Eff.num]; rfl) | split | dsimp only

theorem pairFails_writes {m : Nat} (hm : 34602286767 &&& m = 34602286767) {a1 : _} : (pairFails a1).Writes m := by
  have c0 := @integrityOwn_writes m (within_mask hm rfl)
  have c1 := @modTile_writes m (within_mask hm rfl)
  have c2 := @positionLost_writes m (within_mask hm rfl)
  unfold pairFails
  repeat' first
    | with_reducible first | exact writes_done | exact writes_nil | refine writes_cons ?_ ?_ | refine writes_seq ?_ ?_ | refine writes_look fun _ => ?_ | refine writes_when ?_ | refine writes_each fun _ => ?_ | refine writes_ite ?_ ?_ | exact c0 | exact c1 | exact c2 | refine writes_act (bit_mask hm ?_)
    | ((with_reducible show Nat.testBit _ (Eff.num _) = true); simp only [Eff.num]; rfl) | split | dsimp only

theorem syEffect_writes {m : Nat} (hm : 34728861577 &&& m = 34728861577) {a1 : _} {a2 : _} : (syEffect a1 a2).Writes m := by
  have c0 := @advance_writes m (within_mask hm rfl)
  have c1 := @modTile_writes m (within_mask hm rfl)
  unfold syEffect
  repeat' first
    | with_reducible first | exact writes_done | exact writes_nil | refine writes_cons ?_ ?_ | refine writes_seq ?_ ?_ | refine writes_look fun _ => ?_ | refine writes_when ?_ | refine writes_each fun _ => ?_ | refine writes_ite ?_ ?_ | exact c0 | exact c1 | refine writes_act (bit_mask hm ?_)
    | ((with_reducible show Nat.testBit _ (Eff.num _) = true); simp only [Eff.num]; rfl) | split | dsimp only

/-- The step that may be there writes areas of the mask only. -/
def OptWrites (m : Nat) : Option Prog → Prop
  | none => True
  | some p => p.Writes m

theorem optW_none {m : Nat} : OptWrites m none := trivial
theorem optW_some {m : Nat} {p : Prog} (h : p.Writes m) : OptWrites m (some p) := h
theorem optW_or {m : Nat} {a b : Option Prog} (ha : OptWrites m a) (hb : OptWrites m b) : OptWrites m (a <|> b) := by
  cases a
  · exact hb
  · exact ha

theorem frontStep_writes {m : Nat} (hm : 52051115951 &&& m = 52051115951) {d : Dev} {n : Nat} : OptWrites m (frontStep d n) := by
  have c0 := @exception_writes m (within_mask hm rfl)
  have c1 := @jobStep_writes m (within_mask hm rfl)
  have c2 := @modTile_writes m (within_mask hm rfl)
  have c3 := @pairFails_writes m (within_mask hm rfl)
  have c4 := @syEffect_writes m (within_mask hm rfl)
  unfold frontStep
  repeat' first
    | with_reducible first | exact optW_none | refine optW_some ?_ | exact writes_done | exact writes_nil | refine writes_cons ?_ ?_ | refine writes_seq ?_ ?_ | refine writes_look fun _ => ?_ | refine writes_when ?_ | refine writes_each fun _ => ?_ | refine writes_ite ?_ ?_ | exact c0 | refine c1 (fun _ => ?_) | exact c2 | exact c3 | exact c4 | refine writes_act (bit_mask hm ?_)
    | ((with_reducible show Nat.testBit _ (Eff.num _) = true); simp only [Eff.num]; rfl) | split | dsimp only

theorem mvSignal_writes {m : Nat} (hm : 34728861577 &&& m = 34728861577) {a1 : _} {a2 : _} : (mvSignal a1 a2).Writes m := by
  have c0 := @advance_writes m (within_mask hm rfl)
  have c1 := @modTile_writes m (within_mask hm rfl)
  unfold mvSignal
  repeat' first
    | with_reducible first | exact writes_done | exact writes_nil | refine writes_cons ?_ ?_ | refine writes_seq ?_ ?_ | refine writes_look fun _ => ?_ | refine writes_when ?_ | refine writes_each fun _ => ?_ | refine writes_ite ?_ ?_ | exact c0 | exact c1 | refine writes_act (bit_mask hm ?_)
    | ((with_reducible show Nat.testBit _ (Eff.num _) = true); simp only [Eff.num]; rfl) | split | dsimp only

theorem queueStep_writes {m : Nat} (hm : 52050591663 &&& m = 52050591663) {d : Dev} {n : Nat} {q : LClass} : OptWrites m (queueStep d n q) := by
  have c0 := @countTiles_writes m (within_mask hm rfl)
  have c1 := @exception_writes m (within_mask hm rfl)
  have c2 := @formSliceRecord_writes m (within_mask hm rfl)
  have c3 := @modTile_writes m (within_mask hm rfl)
  have c4 := @mvSignal_writes m (within_mask hm rfl)
  have c5 := @syEffect_writes m (within_mask hm rfl)
  have c6 := @withFrees_writes m (within_mask hm rfl)
  unfold queueStep
  repeat' first
    | with_reducible first | exact optW_none | refine optW_some ?_ | exact writes_done | exact writes_nil | refine writes_cons ?_ ?_ | refine writes_seq ?_ ?_ | refine writes_look fun _ => ?_ | refine writes_when ?_ | refine writes_each fun _ => ?_ | refine writes_ite ?_ ?_ | exact c0 | exact c1 | exact c2 | exact c3 | exact c4 | exact c5 | refine c6 (fun _ => ?_) | refine writes_act (bit_mask hm ?_)
    | ((with_reducible show Nat.testBit _ (Eff.num _) = true); simp only [Eff.num]; rfl) | split | dsimp only

theorem tileStep_writes {m : Nat} (hm : 52051115951 &&& m = 52051115951) {d : Dev} {n : Nat} : OptWrites m (tileStep d n) := by
  unfold tileStep
  split
  · exact optW_or (frontStep_writes (within_mask hm rfl)) (optW_or (queueStep_writes (within_mask hm rfl)) (optW_or (queueStep_writes (within_mask hm rfl)) (optW_or (queueStep_writes (within_mask hm rfl)) (queueStep_writes (within_mask hm rfl)))))
  · exact optW_none

theorem runTiles_writes {m : Nat} (hm : 52051115951 &&& m = 52051115951) {ns : List Nat} {k : Nat} : (runTiles ns k).Writes m := by
  have c0 := @settle_writes m (within_mask hm rfl)
  induction k with
  | zero => exact writes_each fun _ => c0
  | succ k ih =>
    refine writes_look fun d => ?_
    split
    · exact writes_each fun _ => c0
    · refine writes_seq (writes_each fun n => writes_look fun d => ?_) ih
      have h := @tileStep_writes m (within_mask hm rfl) d n
      cases hs : tileStep d n with
      | none => exact writes_done
      | some p =>
        rw [hs] at h
        exact h

theorem tilePump_writes {m : Nat} (hm : 52051115951 &&& m = 52051115951) {a1 : _} : (tilePump a1).Writes m := by
  have c0 := @runTiles_writes m (within_mask hm rfl)
  unfold tilePump
  repeat' first
    | with_reducible first | exact writes_done | exact writes_nil | refine writes_cons ?_ ?_ | refine writes_seq ?_ ?_ | refine writes_look fun _ => ?_ | refine writes_when ?_ | refine writes_each fun _ => ?_ | refine writes_ite ?_ ?_ | exact c0 | refine writes_act (bit_mask hm ?_)
    | ((with_reducible show Nat.testBit _ (Eff.num _) = true); simp only [Eff.num]; rfl) | split | dsimp only

theorem lathe_writes {m : Nat} (hm : 52051115951 &&& m = 52051115951) {a1 : _} {a2 : _} {a3 : _} {a4 : _} : (lathe a1 a2 a3 a4).Writes m := by
  have c0 := @fetch_writes m (within_mask hm rfl)
  have c1 := @tilePump_writes m (within_mask hm rfl)
  unfold lathe
  repeat' first
    | with_reducible first | exact writes_done | exact writes_nil | refine writes_cons ?_ ?_ | refine writes_seq ?_ ?_ | refine writes_look fun _ => ?_ | refine writes_when ?_ | refine writes_each fun _ => ?_ | refine writes_ite ?_ ?_ | exact c0 | exact c1 | refine writes_act (bit_mask hm ?_)
    | ((with_reducible show Nat.testBit _ (Eff.num _) = true); simp only [Eff.num]; rfl) | split | dsimp only

theorem shiftFaults_writes {m : Nat} (hm : 262144 &&& m = 262144) {a1 : _} {a2 : _} : (shiftFaults a1 a2).Writes m := by
  have c0 := @modMmu_writes m (within_mask hm rfl)
  unfold shiftFaults
  repeat' first
    | with_reducible first | exact writes_done | exact writes_nil | refine writes_cons ?_ ?_ | refine writes_seq ?_ ?_ | refine writes_look fun _ => ?_ | refine writes_when ?_ | refine writes_each fun _ => ?_ | refine writes_ite ?_ ?_ | exact c0 | refine writes_act (bit_mask hm ?_)
    | ((with_reducible show Nat.testBit _ (Eff.num _) = true); simp only [Eff.num]; rfl) | split | dsimp only

theorem answerMove_writes {m : Nat} (hm : 34602286767 &&& m = 34602286767) {a1 : _} {a2 : _} {a3 : _} : (answerMove a1 a2 a3).Writes m := by
  have c0 := @exception_writes m (within_mask hm rfl)
  have c1 := @modTile_writes m (within_mask hm rfl)
  have c2 := @shiftFaults_writes m (within_mask hm rfl)
  unfold answerMove
  repeat' first
    | with_reducible first | exact writes_done | exact writes_nil | refine writes_cons ?_ ?_ | refine writes_seq ?_ ?_ | refine writes_look fun _ => ?_ | refine writes_when ?_ | refine writes_each fun _ => ?_ | refine writes_ite ?_ ?_ | exact c0 | exact c1 | exact c2 | refine writes_act (bit_mask hm ?_)
    | ((with_reducible show Nat.testBit _ (Eff.num _) = true); simp only [Eff.num]; rfl) | split | dsimp only

theorem setHeld_writes {m : Nat} (hm : 72 &&& m = 72) {a1 : _} {a2 : _} : (setHeld a1 a2).Writes m := by
  have c0 := @modChan_writes m (within_mask hm rfl)
  have c1 := @modTile_writes m (within_mask hm rfl)
  unfold setHeld
  repeat' first
    | with_reducible first | exact writes_done | exact writes_nil | refine writes_cons ?_ ?_ | refine writes_seq ?_ ?_ | refine writes_look fun _ => ?_ | refine writes_when ?_ | refine writes_each fun _ => ?_ | refine writes_ite ?_ ?_ | exact c0 | exact c1 | refine writes_act (bit_mask hm ?_)
    | ((with_reducible show Nat.testBit _ (Eff.num _) = true); simp only [Eff.num]; rfl) | split | dsimp only

theorem descException_writes {m : Nat} (hm : 34602286767 &&& m = 34602286767) {a1 : _} {a2 : _} {a3 : _} : (descException a1 a2 a3).Writes m := by
  have c0 := @exception_writes m (within_mask hm rfl)
  have c1 := @modTile_writes m (within_mask hm rfl)
  unfold descException
  repeat' first
    | with_reducible first | exact writes_done | exact writes_nil | refine writes_cons ?_ ?_ | refine writes_seq ?_ ?_ | refine writes_look fun _ => ?_ | refine writes_when ?_ | refine writes_each fun _ => ?_ | refine writes_ite ?_ ?_ | exact c0 | exact c1 | refine writes_act (bit_mask hm ?_)
    | ((with_reducible show Nat.testBit _ (Eff.num _) = true); simp only [Eff.num]; rfl) | split | dsimp only

theorem setStarted_writes {m : Nat} (hm : 73 &&& m = 73) {a1 : _} {a2 : _} : (setStarted a1 a2).Writes m := by
  have c0 := @modChan_writes m (within_mask hm rfl)
  have c1 := @modTile_writes m (within_mask hm rfl)
  have c2 := @put_writes m (within_mask hm rfl)
  unfold setStarted
  repeat' first
    | with_reducible first | exact writes_done | exact writes_nil | refine writes_cons ?_ ?_ | refine writes_seq ?_ ?_ | refine writes_look fun _ => ?_ | refine writes_when ?_ | refine writes_each fun _ => ?_ | refine writes_ite ?_ ?_ | exact c0 | exact c1 | exact c2 | refine writes_act (bit_mask hm ?_)
    | ((with_reducible show Nat.testBit _ (Eff.num _) = true); simp only [Eff.num]; rfl) | split | dsimp only

theorem transferStops_writes {m : Nat} (hm : 34602286831 &&& m = 34602286831) {a1 : _} {a2 : _} : (transferStops a1 a2).Writes m := by
  have c0 := @bump_writes m (within_mask hm rfl)
  have c1 := @descException_writes m (within_mask hm rfl)
  have c2 := @modChan_writes m (within_mask hm rfl)
  have c3 := @put_writes m (within_mask hm rfl)
  have c4 := @send_writes m (within_mask hm rfl)
  have c5 := @setStarted_writes m (within_mask hm rfl)
  unfold transferStops
  repeat' first
    | with_reducible first | exact writes_done | exact writes_nil | refine writes_cons ?_ ?_ | refine writes_seq ?_ ?_ | refine writes_look fun _ => ?_ | refine writes_when ?_ | refine writes_each fun _ => ?_ | refine writes_ite ?_ ?_ | exact c0 | exact c1 | exact c2 | exact c3 | exact c4 | exact c5 | refine writes_act (bit_mask hm ?_)
    | ((with_reducible show Nat.testBit _ (Eff.num _) = true); simp only [Eff.num]; rfl) | split | dsimp only

theorem writeFor_writes {m : Nat} (hm : 6 &&& m = 6) {a1 : _} {a2 : _} {a3 : _} : (writeFor a1 a2 a3).Writes m := by
  have c0 := @writePhys_writes m (within_mask hm rfl)
  unfold writeFor
  repeat' first
    | with_reducible first | exact writes_done | exact writes_nil | refine writes_cons ?_ ?_ | refine writes_seq ?_ ?_ | refine writes_look fun _ => ?_ | refine writes_when ?_ | refine writes_each fun _ => ?_ | refine writes_ite ?_ ?_ | exact c0 | refine writes_act (bit_mask hm ?_)
    | ((with_reducible show Nat.testBit _ (Eff.num _) = true); simp only [Eff.num]; rfl) | split | dsimp only

theorem writeBack_writes {m : Nat} (hm : 6 &&& m = 6) {a1 : _} {a2 : _} {a3 : _} {a4 : _} : (writeBack a1 a2 a3 a4).Writes m := by
  have c0 := @writeFor_writes m (within_mask hm rfl)
  unfold writeBack
  repeat' first
    | with_reducible first | exact writes_done | exact writes_nil | refine writes_cons ?_ ?_ | refine writes_seq ?_ ?_ | refine writes_look fun _ => ?_ | refine writes_when ?_ | refine writes_each fun _ => ?_ | refine writes_ite ?_ ?_ | exact c0 | refine writes_act (bit_mask hm ?_)
    | ((with_reducible show Nat.testBit _ (Eff.num _) = true); simp only [Eff.num]; rfl) | split | dsimp only

theorem writeStatus_writes {m : Nat} (hm : 6 &&& m = 6) {a1 : _} {a2 : _} {a3 : _} : (writeStatus a1 a2 a3).Writes m := by
  have c0 := @writeBack_writes m (within_mask hm rfl)
  unfold writeStatus
  repeat' first
    | with_reducible first | exact writes_done | exact writes_nil | refine writes_cons ?_ ?_ | refine writes_seq ?_ ?_ | refine writes_look fun _ => ?_ | refine writes_when ?_ | refine writes_each fun _ => ?_ | refine writes_ite ?_ ?_ | exact c0 | refine writes_act (bit_mask hm ?_)
    | ((with_reducible show Nat.testBit _ (Eff.num _) = true); simp only [Eff.num]; rfl) | split | dsimp only

theorem transferBad_writes {m : Nat} (hm : 34602286831 &&& m = 34602286831) {a1 : _} {a2 : _} : (transferBad a1 a2).Writes m := by
  have c0 := @transferStops_writes m (within_mask hm rfl)
  have c1 := @writeStatus_writes m (within_mask hm rfl)
  unfold transferBad
  repeat' first
    | with_reducible first | exact writes_done | exact writes_nil | refine writes_cons ?_ ?_ | refine writes_seq ?_ ?_ | refine writes_look fun _ => ?_ | refine writes_when ?_ | refine writes_each fun _ => ?_ | refine writes_ite ?_ ?_ | exact c0 | exact c1 | refine writes_act (bit_mask hm ?_)
    | ((with_reducible show Nat.testBit _ (Eff.num _) = true); simp only [Eff.num]; rfl) | split | dsimp only

theorem answerRequester_writes {m : Nat} (hm : 34602286831 &&& m = 34602286831) {a1 : _} {a2 : _} : (answerRequester a1 a2).Writes m := by
  have c0 := @answerMove_writes m (within_mask hm rfl)
  have c1 := @setHeld_writes m (within_mask hm rfl)
  have c2 := @transferBad_writes m (within_mask hm rfl)
  unfold answerRequester
  repeat' first
    | with_reducible first | exact writes_done | exact writes_nil | refine writes_cons ?_ ?_ | refine writes_seq ?_ ?_ | refine writes_look fun _ => ?_ | refine writes_when ?_ | refine writes_each fun _ => ?_ | refine writes_ite ?_ ?_ | exact c0 | exact c1 | exact c2 | refine writes_act (bit_mask hm ?_)
    | ((with_reducible show Nat.testBit _ (Eff.num _) = true); simp only [Eff.num]; rfl) | split | dsimp only

theorem descSignal_writes {m : Nat} (hm : 34728861577 &&& m = 34728861577) {a1 : _} : (descSignal a1).Writes m := by
  have c0 := @advance_writes m (within_mask hm rfl)
  have c1 := @modTile_writes m (within_mask hm rfl)
  unfold descSignal
  repeat' first
    | with_reducible first | exact writes_done | exact writes_nil | refine writes_cons ?_ ?_ | refine writes_seq ?_ ?_ | refine writes_look fun _ => ?_ | refine writes_when ?_ | refine writes_each fun _ => ?_ | refine writes_ite ?_ ?_ | exact c0 | exact c1 | refine writes_act (bit_mask hm ?_)
    | ((with_reducible show Nat.testBit _ (Eff.num _) = true); simp only [Eff.num]; rfl) | split | dsimp only

theorem shiftDescFaults_writes {m : Nat} (hm : 262144 &&& m = 262144) {a1 : _} {a2 : _} : (shiftDescFaults a1 a2).Writes m := by
  have c0 := @modMmu_writes m (within_mask hm rfl)
  unfold shiftDescFaults
  repeat' first
    | with_reducible first | exact writes_done | exact writes_nil | refine writes_cons ?_ ?_ | refine writes_seq ?_ ?_ | refine writes_look fun _ => ?_ | refine writes_when ?_ | refine writes_each fun _ => ?_ | refine writes_ite ?_ ?_ | exact c0 | refine writes_act (bit_mask hm ?_)
    | ((with_reducible show Nat.testBit _ (Eff.num _) = true); simp only [Eff.num]; rfl) | split | dsimp only

theorem transferOk_writes {m : Nat} (hm : 52051116015 &&& m = 52051116015) {a1 : _} : (transferOk a1).Writes m := by
  have c0 := @bump_writes m (within_mask hm rfl)
  have c1 := @descSignal_writes m (within_mask hm rfl)
  have c2 := @modTile_writes m (within_mask hm rfl)
  have c3 := @put_writes m (within_mask hm rfl)
  have c4 := @send_writes m (within_mask hm rfl)
  have c5 := @setStarted_writes m (within_mask hm rfl)
  have c6 := @settle_writes m (within_mask hm rfl)
  have c7 := @shiftDescFaults_writes m (within_mask hm rfl)
  have c8 := @tilePump_writes m (within_mask hm rfl)
  unfold transferOk
  repeat' first
    | with_reducible first | exact writes_done | exact writes_nil | refine writes_cons ?_ ?_ | refine writes_seq ?_ ?_ | refine writes_look fun _ => ?_ | refine writes_when ?_ | refine writes_each fun _ => ?_ | refine writes_ite ?_ ?_ | exact c0 | exact c1 | exact c2 | exact c3 | exact c4 | exact c5 | exact c6 | exact c7 | exact c8 | refine writes_act (bit_mask hm ?_)
    | ((with_reducible show Nat.testBit _ (Eff.num _) = true); simp only [Eff.num]; rfl) | split | dsimp only

theorem descriptorOk_writes {m : Nat} (hm : 52051116015 &&& m = 52051116015) {a1 : _} : (descriptorOk a1).Writes m := by
  have c0 := @modChan_writes m (within_mask hm rfl)
  have c1 := @modTile_writes m (within_mask hm rfl)
  have c2 := @transferOk_writes m (within_mask hm rfl)
  have c3 := @writeStatus_writes m (within_mask hm rfl)
  unfold descriptorOk
  repeat' first
    | with_reducible first | exact writes_done | exact writes_nil | refine writes_cons ?_ ?_ | refine writes_seq ?_ ?_ | refine writes_look fun _ => ?_ | refine writes_when ?_ | refine writes_each fun _ => ?_ | refine writes_ite ?_ ?_ | exact c0 | exact c1 | exact c2 | exact c3 | refine writes_act (bit_mask hm ?_)
    | ((with_reducible show Nat.testBit _ (Eff.num _) = true); simp only [Eff.num]; rfl) | split | dsimp only

theorem requesterPairFails_writes {m : Nat} (hm : 34602286767 &&& m = 34602286767) {a1 : _} : (requesterPairFails a1).Writes m := by
  have c0 := @pairFails_writes m (within_mask hm rfl)
  unfold requesterPairFails
  repeat' first
    | with_reducible first | exact writes_done | exact writes_nil | refine writes_cons ?_ ?_ | refine writes_seq ?_ ?_ | refine writes_look fun _ => ?_ | refine writes_when ?_ | refine writes_each fun _ => ?_ | refine writes_ite ?_ ?_ | exact c0 | refine writes_act (bit_mask hm ?_)
    | ((with_reducible show Nat.testBit _ (Eff.num _) = true); simp only [Eff.num]; rfl) | split | dsimp only

theorem skipEntry_writes {m : Nat} (hm : 73 &&& m = 73) {a1 : _} : (skipEntry a1).Writes m := by
  have c0 := @put_writes m (within_mask hm rfl)
  have c1 := @setStarted_writes m (within_mask hm rfl)
  unfold skipEntry
  repeat' first
    | with_reducible first | exact writes_done | exact writes_nil | refine writes_cons ?_ ?_ | refine writes_seq ?_ ?_ | refine writes_look fun _ => ?_ | refine writes_when ?_ | refine writes_each fun _ => ?_ | refine writes_ite ?_ ?_ | exact c0 | exact c1 | refine writes_act (bit_mask hm ?_)
    | ((with_reducible show Nat.testBit _ (Eff.num _) = true); simp only [Eff.num]; rfl) | split | dsimp only

theorem beginDescriptor_writes {m : Nat} (hm : 52051116015 &&& m = 52051116015) {a1 : _} : (beginDescriptor a1).Writes m := by
  have c0 := @descException_writes m (within_mask hm rfl)
  have c1 := @descriptorOk_writes m (within_mask hm rfl)
  have c2 := @requesterPairFails_writes m (within_mask hm rfl)
  have c3 := @setStarted_writes m (within_mask hm rfl)
  have c4 := @skipEntry_writes m (within_mask hm rfl)
  have c5 := @transferBad_writes m (within_mask hm rfl)
  have c6 := @transferStops_writes m (within_mask hm rfl)
  unfold beginDescriptor
  repeat' first
    | with_reducible first | exact writes_done | exact writes_nil | refine writes_cons ?_ ?_ | refine writes_seq ?_ ?_ | refine writes_look fun _ => ?_ | refine writes_when ?_ | refine writes_each fun _ => ?_ | refine writes_ite ?_ ?_ | exact c0 | exact c1 | exact c2 | exact c3 | exact c4 | exact c5 | exact c6 | refine writes_act (bit_mask hm ?_)
    | ((with_reducible show Nat.testBit _ (Eff.num _) = true); simp only [Eff.num]; rfl) | split | dsimp only

theorem codeHit_writes {m : Nat} (hm : 34602286767 &&& m = 34602286767) {a1 : _} : (codeHit a1).Writes m := by
  have c0 := @descException_writes m (within_mask hm rfl)
  unfold codeHit
  repeat' first
    | with_reducible first | exact writes_done | exact writes_nil | refine writes_cons ?_ ?_ | refine writes_seq ?_ ?_ | refine writes_look fun _ => ?_ | refine writes_when ?_ | refine writes_each fun _ => ?_ | refine writes_ite ?_ ?_ | exact c0 | refine writes_act (bit_mask hm ?_)
    | ((with_reducible show Nat.testBit _ (Eff.num _) = true); simp only [Eff.num]; rfl) | split | dsimp only

theorem deliverMove_writes {m : Nat} (hm : 6 &&& m = 6) {a1 : _} {a2 : _} {a3 : _} {a4 : _} : (deliverMove a1 a2 a3 a4).Writes m := by
  have c0 := @touchLeaf_writes m (within_mask hm rfl)
  have c1 := @writePhys_writes m (within_mask hm rfl)
  unfold deliverMove
  repeat' first
    | with_reducible first | exact writes_done | exact writes_nil | refine writes_cons ?_ ?_ | refine writes_seq ?_ ?_ | refine writes_look fun _ => ?_ | refine writes_when ?_ | refine writes_each fun _ => ?_ | refine writes_ite ?_ ?_ | exact c0 | exact c1 | refine writes_act (bit_mask hm ?_)
    | ((with_reducible show Nat.testBit _ (Eff.num _) = true); simp only [Eff.num]; rfl) | split | dsimp only

theorem tallyFragment_writes {m : Nat} (hm : 16384 &&& m = 16384) {a1 : _} {a2 : _} : (tallyFragment a1 a2).Writes m := by
  have c0 := @tally_writes m (within_mask hm rfl)
  have c1 := @tallyClass_writes m (within_mask hm rfl)
  unfold tallyFragment
  repeat' first
    | with_reducible first | exact writes_done | exact writes_nil | refine writes_cons ?_ ?_ | refine writes_seq ?_ ?_ | refine writes_look fun _ => ?_ | refine writes_when ?_ | refine writes_each fun _ => ?_ | refine writes_ite ?_ ?_ | exact c0 | exact c1 | refine writes_act (bit_mask hm ?_)
    | ((with_reducible show Nat.testBit _ (Eff.num _) = true); simp only [Eff.num]; rfl) | split | dsimp only

theorem touchSource_writes {m : Nat} (hm : 6 &&& m = 6) {a1 : _} : (touchSource a1).Writes m := by
  have c0 := @touchLeaf_writes m (within_mask hm rfl)
  unfold touchSource
  repeat' first
    | with_reducible first | exact writes_done | exact writes_nil | refine writes_cons ?_ ?_ | refine writes_seq ?_ ?_ | refine writes_look fun _ => ?_ | refine writes_when ?_ | refine writes_each fun _ => ?_ | refine writes_ite ?_ ?_ | exact c0 | refine writes_act (bit_mask hm ?_)
    | ((with_reducible show Nat.testBit _ (Eff.num _) = true); simp only [Eff.num]; rfl) | split | dsimp only

theorem doFragment_writes {m : Nat} (hm : 52051116015 &&& m = 52051116015) {a1 : _} : (doFragment a1).Writes m := by
  have c0 := @codeHit_writes m (within_mask hm rfl)
  have c1 := @descriptorOk_writes m (within_mask hm rfl)
  have c2 := @integrityOwn_writes m (within_mask hm rfl)
  have c3 := @requesterPairFails_writes m (within_mask hm rfl)
  have c4 := @tallyFragment_writes m (within_mask hm rfl)
  have c5 := @touchLeaf_writes m (within_mask hm rfl)
  have c6 := @touchSource_writes m (within_mask hm rfl)
  have c7 := @transferBad_writes m (within_mask hm rfl)
  have c8 := @writeBack_writes m (within_mask hm rfl)
  have c9 := @writeFor_writes m (within_mask hm rfl)
  unfold doFragment
  repeat' first
    | with_reducible first | exact writes_done | exact writes_nil | refine writes_cons ?_ ?_ | refine writes_seq ?_ ?_ | refine writes_look fun _ => ?_ | refine writes_when ?_ | refine writes_each fun _ => ?_ | refine writes_ite ?_ ?_ | exact c0 | exact c1 | exact c2 | exact c3 | exact c4 | exact c5 | exact c6 | exact c7 | exact c8 | exact c9 | refine writes_act (bit_mask hm ?_)
    | ((with_reducible show Nat.testBit _ (Eff.num _) = true); simp only [Eff.num]; rfl) | split | dsimp only

theorem tallyMove_writes {m : Nat} (hm : 16384 &&& m = 16384) {a1 : _} {a2 : _} {a3 : _} : (tallyMove a1 a2 a3).Writes m := by
  have c0 := @tallyClass_writes m (within_mask hm rfl)
  unfold tallyMove
  repeat' first
    | with_reducible first | exact writes_done | exact writes_nil | refine writes_cons ?_ ?_ | refine writes_seq ?_ ?_ | refine writes_look fun _ => ?_ | refine writes_when ?_ | refine writes_each fun _ => ?_ | refine writes_ite ?_ ?_ | exact c0 | refine writes_act (bit_mask hm ?_)
    | ((with_reducible show Nat.testBit _ (Eff.num _) = true); simp only [Eff.num]; rfl) | split | dsimp only

theorem endMove_writes {m : Nat} (hm : 34870722479 &&& m = 34870722479) {a1 : _} {a2 : _} : (endMove a1 a2).Writes m := by
  have c0 := @deliverMove_writes m (within_mask hm rfl)
  have c1 := @exception_writes m (within_mask hm rfl)
  have c2 := @integrityOwn_writes m (within_mask hm rfl)
  have c3 := @modTile_writes m (within_mask hm rfl)
  have c4 := @mvSignal_writes m (within_mask hm rfl)
  have c5 := @pairFails_writes m (within_mask hm rfl)
  have c6 := @shiftFaults_writes m (within_mask hm rfl)
  have c7 := @tallyMove_writes m (within_mask hm rfl)
  unfold endMove
  repeat' first
    | with_reducible first | exact writes_done | exact writes_nil | refine writes_cons ?_ ?_ | refine writes_seq ?_ ?_ | refine writes_look fun _ => ?_ | refine writes_when ?_ | refine writes_each fun _ => ?_ | refine writes_ite ?_ ?_ | exact c0 | exact c1 | exact c2 | exact c3 | exact c4 | exact c5 | exact c6 | exact c7 | refine writes_act (bit_mask hm ?_)
    | ((with_reducible show Nat.testBit _ (Eff.num _) = true); simp only [Eff.num]; rfl) | split | dsimp only

theorem finishMove_writes {m : Nat} (hm : 52051115951 &&& m = 52051115951) {a1 : _} {a2 : _} : (finishMove a1 a2).Writes m := by
  have c0 := @endMove_writes m (within_mask hm rfl)
  have c1 := @settle_writes m (within_mask hm rfl)
  have c2 := @tilePump_writes m (within_mask hm rfl)
  unfold finishMove
  repeat' first
    | with_reducible first | exact writes_done | exact writes_nil | refine writes_cons ?_ ?_ | refine writes_seq ?_ ?_ | refine writes_look fun _ => ?_ | refine writes_when ?_ | refine writes_each fun _ => ?_ | refine writes_ite ?_ ?_ | exact c0 | exact c1 | exact c2 | refine writes_act (bit_mask hm ?_)
    | ((with_reducible show Nat.testBit _ (Eff.num _) = true); simp only [Eff.num]; rfl) | split | dsimp only

theorem moveBytes_writes {m : Nat} (hm : 6 &&& m = 6) {a1 : _} {a2 : _} : (moveBytes a1 a2).Writes m := by
  have c0 := @writePhys_writes m (within_mask hm rfl)
  unfold moveBytes
  repeat' first
    | with_reducible first | exact writes_done | exact writes_nil | refine writes_cons ?_ ?_ | refine writes_seq ?_ ?_ | refine writes_look fun _ => ?_ | refine writes_when ?_ | refine writes_each fun _ => ?_ | refine writes_ite ?_ ?_ | exact c0 | refine writes_act (bit_mask hm ?_)
    | ((with_reducible show Nat.testBit _ (Eff.num _) = true); simp only [Eff.num]; rfl) | split | dsimp only

theorem placeRecord_writes {m : Nat} (hm : 262151 &&& m = 262151) {a1 : _} : (placeRecord a1).Writes m := by
  have c0 := @modMmu_writes m (within_mask hm rfl)
  have c1 := @put_writes m (within_mask hm rfl)
  have c2 := @writePhys_writes m (within_mask hm rfl)
  unfold placeRecord
  repeat' first
    | with_reducible first | exact writes_done | exact writes_nil | refine writes_cons ?_ ?_ | refine writes_seq ?_ ?_ | refine writes_look fun _ => ?_ | refine writes_when ?_ | refine writes_each fun _ => ?_ | refine writes_ite ?_ ?_ | exact c0 | exact c1 | exact c2 | refine writes_act (bit_mask hm ?_)
    | ((with_reducible show Nat.testBit _ (Eff.num _) = true); simp only [Eff.num]; rfl) | split | dsimp only

theorem noteFault_writes {m : Nat} (hm : 51680407559 &&& m = 51680407559) {a1 : _} {a2 : _} {a3 : _} {a4 : _} {a5 : _} {a6 : _} : (noteFault a1 a2 a3 a4 a5 a6).Writes m := by
  have c0 := @bump_writes m (within_mask hm rfl)
  have c1 := @integrityOwn_writes m (within_mask hm rfl)
  have c2 := @modMmu_writes m (within_mask hm rfl)
  have c3 := @placeRecord_writes m (within_mask hm rfl)
  have c4 := @withFree_writes m (within_mask hm rfl)
  unfold noteFault
  repeat' first
    | with_reducible first | exact writes_done | exact writes_nil | refine writes_cons ?_ ?_ | refine writes_seq ?_ ?_ | refine writes_look fun _ => ?_ | refine writes_when ?_ | refine writes_each fun _ => ?_ | refine writes_ite ?_ ?_ | exact c0 | exact c1 | exact c2 | exact c3 | refine c4 (fun _ => ?_) | refine writes_act (bit_mask hm ?_)
    | ((with_reducible show Nat.testBit _ (Eff.num _) = true); simp only [Eff.num]; rfl) | split | dsimp only

theorem placeFault_writes {m : Nat} (hm : 34602286831 &&& m = 34602286831) {a1 : _} : (placeFault a1).Writes m := by
  have c0 := @answerRequester_writes m (within_mask hm rfl)
  have c1 := @modMmu_writes m (within_mask hm rfl)
  have c2 := @placeRecord_writes m (within_mask hm rfl)
  have c3 := @put_writes m (within_mask hm rfl)
  have c4 := @setHeld_writes m (within_mask hm rfl)
  unfold placeFault
  repeat' first
    | with_reducible first | exact writes_done | exact writes_nil | refine writes_cons ?_ ?_ | refine writes_seq ?_ ?_ | refine writes_look fun _ => ?_ | refine writes_when ?_ | refine writes_each fun _ => ?_ | refine writes_ite ?_ ?_ | exact c0 | exact c1 | exact c2 | exact c3 | exact c4 | refine writes_act (bit_mask hm ?_)
    | ((with_reducible show Nat.testBit _ (Eff.num _) = true); simp only [Eff.num]; rfl) | split | dsimp only

theorem raiseFault_writes {m : Nat} (hm : 34602286831 &&& m = 34602286831) {a1 : _} : (raiseFault a1).Writes m := by
  have c0 := @bump_writes m (within_mask hm rfl)
  have c1 := @integrityOwn_writes m (within_mask hm rfl)
  have c2 := @modMmu_writes m (within_mask hm rfl)
  have c3 := @placeFault_writes m (within_mask hm rfl)
  have c4 := @setHeld_writes m (within_mask hm rfl)
  unfold raiseFault
  repeat' first
    | with_reducible first | exact writes_done | exact writes_nil | refine writes_cons ?_ ?_ | refine writes_seq ?_ ?_ | refine writes_look fun _ => ?_ | refine writes_when ?_ | refine writes_each fun _ => ?_ | refine writes_ite ?_ ?_ | exact c0 | exact c1 | exact c2 | exact c3 | exact c4 | refine writes_act (bit_mask hm ?_)
    | ((with_reducible show Nat.testBit _ (Eff.num _) = true); simp only [Eff.num]; rfl) | split | dsimp only

theorem refillRing_writes {m : Nat} (hm : 34602286831 &&& m = 34602286831) {a1 : _} : (refillRing a1).Writes m := by
  have c0 := @modMmu_writes m (within_mask hm rfl)
  have c1 := @placeFault_writes m (within_mask hm rfl)
  have c2 := @placeRecord_writes m (within_mask hm rfl)
  induction a1 with
  | zero =>
    unfold refillRing
    repeat' first
      | with_reducible first | exact writes_done | exact writes_nil | refine writes_cons ?_ ?_ | refine writes_seq ?_ ?_ | refine writes_look fun _ => ?_ | refine writes_when ?_ | refine writes_each fun _ => ?_ | refine writes_ite ?_ ?_ | exact c0 | exact c1 | exact c2 | refine writes_act (bit_mask hm ?_)
      | ((with_reducible show Nat.testBit _ (Eff.num _) = true); simp only [Eff.num]; rfl) | split | dsimp only
  | succ k ih =>
    unfold refillRing
    repeat' first
      | with_reducible first | apply ih | exact writes_done | exact writes_nil | refine writes_cons ?_ ?_ | refine writes_seq ?_ ?_ | refine writes_look fun _ => ?_ | refine writes_when ?_ | refine writes_each fun _ => ?_ | refine writes_ite ?_ ?_ | exact c0 | exact c1 | exact c2 | refine writes_act (bit_mask hm ?_)
      | ((with_reducible show Nat.testBit _ (Eff.num _) = true); simp only [Eff.num]; rfl) | split | dsimp only

theorem countHomes_writes {m : Nat} (hm : 1 &&& m = 1) : (countHomes).Writes m := by
  have c0 := @put_writes m (within_mask hm rfl)
  unfold countHomes
  repeat' first
    | with_reducible first | exact writes_done | exact writes_nil | refine writes_cons ?_ ?_ | refine writes_seq ?_ ?_ | refine writes_look fun _ => ?_ | refine writes_when ?_ | refine writes_each fun _ => ?_ | refine writes_ite ?_ ?_ | exact c0 | refine writes_act (bit_mask hm ?_)
    | ((with_reducible show Nat.testBit _ (Eff.num _) = true); simp only [Eff.num]; rfl) | split | dsimp only

theorem freeTile_writes {m : Nat} (hm : 9 &&& m = 9) {a1 : _} : (freeTile a1).Writes m := by
  have c0 := @ownTile_writes m (within_mask hm rfl)
  unfold freeTile
  repeat' first
    | with_reducible first | exact writes_done | exact writes_nil | refine writes_cons ?_ ?_ | refine writes_seq ?_ ?_ | refine writes_look fun _ => ?_ | refine writes_when ?_ | refine writes_each fun _ => ?_ | refine writes_ite ?_ ?_ | exact c0 | refine writes_act (bit_mask hm ?_)
    | ((with_reducible show Nat.testBit _ (Eff.num _) = true); simp only [Eff.num]; rfl) | split | dsimp only

theorem freeGuest_writes {m : Nat} (hm : 262159 &&& m = 262159) {a1 : _} : (freeGuest a1).Writes m := by
  have c0 := @countHomes_writes m (within_mask hm rfl)
  have c1 := @freeTile_writes m (within_mask hm rfl)
  have c2 := @modMmu_writes m (within_mask hm rfl)
  have c3 := @put_writes m (within_mask hm rfl)
  have c4 := @withdrawTile_writes m (within_mask hm rfl)
  unfold freeGuest
  repeat' first
    | with_reducible first | exact writes_done | exact writes_nil | refine writes_cons ?_ ?_ | refine writes_seq ?_ ?_ | refine writes_look fun _ => ?_ | refine writes_when ?_ | refine writes_each fun _ => ?_ | refine writes_ite ?_ ?_ | exact c0 | exact c1 | exact c2 | exact c3 | exact c4 | refine writes_act (bit_mask hm ?_)
    | ((with_reducible show Nat.testBit _ (Eff.num _) = true); simp only [Eff.num]; rfl) | split | dsimp only

theorem discardGuest_writes {m : Nat} (hm : 34360021007 &&& m = 34360021007) {a1 : _} : (discardGuest a1).Writes m := by
  have c0 := @freeGuest_writes m (within_mask hm rfl)
  have c1 := @guestDiscarded_writes m (within_mask hm rfl)
  unfold discardGuest
  repeat' first
    | with_reducible first | exact writes_done | exact writes_nil | refine writes_cons ?_ ?_ | refine writes_seq ?_ ?_ | refine writes_look fun _ => ?_ | refine writes_when ?_ | refine writes_each fun _ => ?_ | refine writes_ite ?_ ?_ | exact c0 | exact c1 | refine writes_act (bit_mask hm ?_)
    | ((with_reducible show Nat.testBit _ (Eff.num _) = true); simp only [Eff.num]; rfl) | split | dsimp only

theorem discardGuests_writes {m : Nat} (hm : 34360021007 &&& m = 34360021007) : (discardGuests).Writes m := by
  have c0 := @discardGuest_writes m (within_mask hm rfl)
  unfold discardGuests
  repeat' first
    | with_reducible first | exact writes_done | exact writes_nil | refine writes_cons ?_ ?_ | refine writes_seq ?_ ?_ | refine writes_look fun _ => ?_ | refine writes_when ?_ | refine writes_each fun _ => ?_ | refine writes_ite ?_ ?_ | exact c0 | refine writes_act (bit_mask hm ?_)
    | ((with_reducible show Nat.testBit _ (Eff.num _) = true); simp only [Eff.num]; rfl) | split | dsimp only

theorem saveTile_writes {m : Nat} (hm : 17179885590 &&& m = 17179885590) {a1 : _} : (saveTile a1).Writes m := by
  have c0 := @tallyClass_writes m (within_mask hm rfl)
  have c1 := @withFrees_writes m (within_mask hm rfl)
  have c2 := @writePhys_writes m (within_mask hm rfl)
  unfold saveTile
  repeat' first
    | with_reducible first | exact writes_done | exact writes_nil | refine writes_cons ?_ ?_ | refine writes_seq ?_ ?_ | refine writes_look fun _ => ?_ | refine writes_when ?_ | refine writes_each fun _ => ?_ | refine writes_ite ?_ ?_ | exact c0 | refine c1 (fun _ => ?_) | exact c2 | refine writes_act (bit_mask hm ?_)
    | ((with_reducible show Nat.testBit _ (Eff.num _) = true); simp only [Eff.num]; rfl) | split | dsimp only

theorem displace_writes {m : Nat} (hm : 17180147743 &&& m = 17180147743) : (displace).Writes m := by
  have c0 := @freeTile_writes m (within_mask hm rfl)
  have c1 := @modMmu_writes m (within_mask hm rfl)
  have c2 := @saveTile_writes m (within_mask hm rfl)
  unfold displace
  repeat' first
    | with_reducible first | exact writes_done | exact writes_nil | refine writes_cons ?_ ?_ | refine writes_seq ?_ ?_ | refine writes_look fun _ => ?_ | refine writes_when ?_ | refine writes_each fun _ => ?_ | refine writes_ite ?_ ?_ | exact c0 | exact c1 | exact c2 | refine writes_act (bit_mask hm ?_)
    | ((with_reducible show Nat.testBit _ (Eff.num _) = true); simp only [Eff.num]; rfl) | split | dsimp only

theorem modGuest_writes {m : Nat} (hm : 262144 &&& m = 262144) {a1 : _} {a2 : _} : (modGuest a1 a2).Writes m := by
  have c0 := @modMmu_writes m (within_mask hm rfl)
  unfold modGuest
  repeat' first
    | with_reducible first | exact writes_done | exact writes_nil | refine writes_cons ?_ ?_ | refine writes_seq ?_ ?_ | refine writes_look fun _ => ?_ | refine writes_when ?_ | refine writes_each fun _ => ?_ | refine writes_ite ?_ ?_ | exact c0 | refine writes_act (bit_mask hm ?_)
    | ((with_reducible show Nat.testBit _ (Eff.num _) = true); simp only [Eff.num]; rfl) | split | dsimp only

theorem modPages_writes {m : Nat} (hm : 262144 &&& m = 262144) {a1 : _} {a2 : _} : (modPages a1 a2).Writes m := by
  have c0 := @modGuest_writes m (within_mask hm rfl)
  have c1 := @modMmu_writes m (within_mask hm rfl)
  unfold modPages
  repeat' first
    | with_reducible first | exact writes_done | exact writes_nil | refine writes_cons ?_ ?_ | refine writes_seq ?_ ?_ | refine writes_look fun _ => ?_ | refine writes_when ?_ | refine writes_each fun _ => ?_ | refine writes_ite ?_ ?_ | exact c0 | exact c1 | refine writes_act (bit_mask hm ?_)
    | ((with_reducible show Nat.testBit _ (Eff.num _) = true); simp only [Eff.num]; rfl) | split | dsimp only

theorem modPage_writes {m : Nat} (hm : 262144 &&& m = 262144) {a1 : _} {a2 : _} {a3 : _} : (modPage a1 a2 a3).Writes m := by
  have c0 := @modPages_writes m (within_mask hm rfl)
  unfold modPage
  repeat' first
    | with_reducible first | exact writes_done | exact writes_nil | refine writes_cons ?_ ?_ | refine writes_seq ?_ ?_ | refine writes_look fun _ => ?_ | refine writes_when ?_ | refine writes_each fun _ => ?_ | refine writes_ite ?_ ?_ | exact c0 | refine writes_act (bit_mask hm ?_)
    | ((with_reducible show Nat.testBit _ (Eff.num _) = true); simp only [Eff.num]; rfl) | split | dsimp only

end Sys2Proof.Machine
end

