-- ==== Sys2Proof/Laws/Writes6.lean ====
section
/-! SUPPORT. What each shared operation writes (part 6): one lemma per operation, of the areas its effects name. -/

set_option maxRecDepth 16000

namespace Sys2Proof.Machine

theorem dropPage_writes {m : Nat} (hm : 262150 &&& m = 262150) {a1 : _} {a2 : _} : (dropPage a1 a2).Writes m := by
  have c0 := @editLeaf_writes m (within_mask hm rfl)
  have c1 := @modPage_writes m (within_mask hm rfl)
  unfold dropPage
  repeat' first
    | with_reducible first | exact writes_done | exact writes_nil | refine writes_cons ?_ ?_ | refine writes_seq ?_ ?_ | refine writes_look fun _ => ?_ | refine writes_when ?_ | refine writes_each fun _ => ?_ | refine writes_ite ?_ ?_ | exact c0 | exact c1 | refine writes_act (bit_mask hm ?_)
    | ((with_reducible show Nat.testBit _ (Eff.num _) = true); simp only [Eff.num]; rfl) | split | dsimp only

theorem frozen_writes {m : Nat} (hm : 17180147743 &&& m = 17180147743) : (frozen).Writes m := by
  have c0 := @dropPage_writes m (within_mask hm rfl)
  have c1 := @freeTile_writes m (within_mask hm rfl)
  have c2 := @modMmu_writes m (within_mask hm rfl)
  have c3 := @saveTile_writes m (within_mask hm rfl)
  unfold frozen
  repeat' first
    | with_reducible first | exact writes_done | exact writes_nil | refine writes_cons ?_ ?_ | refine writes_seq ?_ ?_ | refine writes_look fun _ => ?_ | refine writes_when ?_ | refine writes_each fun _ => ?_ | refine writes_ite ?_ ?_ | exact c0 | exact c1 | exact c2 | exact c3 | refine writes_act (bit_mask hm ?_)
    | ((with_reducible show Nat.testBit _ (Eff.num _) = true); simp only [Eff.num]; rfl) | split | dsimp only

theorem loadTile_writes {m : Nat} (hm : 11 &&& m = 11) {a1 : _} {a2 : _} {a3 : _} {a4 : _} {a5 : _} : (loadTile a1 a2 a3 a4 a5).Writes m := by
  have c0 := @modTile_writes m (within_mask hm rfl)
  have c1 := @ownTile_writes m (within_mask hm rfl)
  unfold loadTile
  repeat' first
    | with_reducible first | exact writes_done | exact writes_nil | refine writes_cons ?_ ?_ | refine writes_seq ?_ ?_ | refine writes_look fun _ => ?_ | refine writes_when ?_ | refine writes_each fun _ => ?_ | refine writes_ite ?_ ?_ | exact c0 | exact c1 | refine writes_act (bit_mask hm ?_)
    | ((with_reducible show Nat.testBit _ (Eff.num _) = true); simp only [Eff.num]; rfl) | split | dsimp only

theorem mapGuestPage_writes {m : Nat} (hm : 34360021007 &&& m = 34360021007) {a1 : _} {a2 : _} : (mapGuestPage a1 a2).Writes m := by
  have c0 := @countHomes_writes m (within_mask hm rfl)
  have c1 := @discardGuest_writes m (within_mask hm rfl)
  have c2 := @mapPage_writes m (within_mask hm rfl)
  have c3 := @modPages_writes m (within_mask hm rfl)
  have c4 := @zeroPhys_writes m (within_mask hm rfl)
  unfold mapGuestPage
  repeat' first
    | with_reducible first | exact writes_done | exact writes_nil | refine writes_cons ?_ ?_ | refine writes_seq ?_ ?_ | refine writes_look fun _ => ?_ | refine writes_when ?_ | refine writes_each fun _ => ?_ | refine writes_ite ?_ ?_ | exact c0 | exact c1 | exact c2 | exact c3 | exact c4 | refine writes_act (bit_mask hm ?_)
    | ((with_reducible show Nat.testBit _ (Eff.num _) = true); simp only [Eff.num]; rfl) | split | dsimp only

theorem mapJobPage_writes {m : Nat} (hm : 262151 &&& m = 262151) {a1 : _} : (mapJobPage a1).Writes m := by
  have c0 := @mapPage_writes m (within_mask hm rfl)
  have c1 := @modMmu_writes m (within_mask hm rfl)
  have c2 := @zeroPhys_writes m (within_mask hm rfl)
  unfold mapJobPage
  repeat' first
    | with_reducible first | exact writes_done | exact writes_nil | refine writes_cons ?_ ?_ | refine writes_seq ?_ ?_ | refine writes_look fun _ => ?_ | refine writes_when ?_ | refine writes_each fun _ => ?_ | refine writes_ite ?_ ?_ | exact c0 | exact c1 | exact c2 | refine writes_act (bit_mask hm ?_)
    | ((with_reducible show Nat.testBit _ (Eff.num _) = true); simp only [Eff.num]; rfl) | split | dsimp only

theorem spillPage_writes {m : Nat} (hm : 34500538383 &&& m = 34500538383) {a1 : _} {a2 : _} : (spillPage a1 a2).Writes m := by
  have c0 := @countHomes_writes m (within_mask hm rfl)
  have c1 := @discardGuest_writes m (within_mask hm rfl)
  have c2 := @editLeaf_writes m (within_mask hm rfl)
  have c3 := @modPage_writes m (within_mask hm rfl)
  have c4 := @moveChecked_writes m (within_mask hm rfl)
  have c5 := @tallyClass_writes m (within_mask hm rfl)
  unfold spillPage
  repeat' first
    | with_reducible first | exact writes_done | exact writes_nil | refine writes_cons ?_ ?_ | refine writes_seq ?_ ?_ | refine writes_look fun _ => ?_ | refine writes_when ?_ | refine writes_each fun _ => ?_ | refine writes_ite ?_ ?_ | exact c0 | exact c1 | exact c2 | exact c3 | refine c4 ?_ ?_ | exact c5 | refine writes_act (bit_mask hm ?_)
    | ((with_reducible show Nat.testBit _ (Eff.num _) = true); simp only [Eff.num]; rfl) | split | dsimp only

theorem pageIn_writes {m : Nat} (hm : 34500538383 &&& m = 34500538383) {a1 : _} {a2 : _} : (pageIn a1 a2).Writes m := by
  have c0 := @discardGuest_writes m (within_mask hm rfl)
  have c1 := @editLeaf_writes m (within_mask hm rfl)
  have c2 := @modPage_writes m (within_mask hm rfl)
  have c3 := @moveChecked_writes m (within_mask hm rfl)
  have c4 := @spillPage_writes m (within_mask hm rfl)
  have c5 := @tallyClass_writes m (within_mask hm rfl)
  have c6 := @zeroPhys_writes m (within_mask hm rfl)
  unfold pageIn
  repeat' first
    | with_reducible first | exact writes_done | exact writes_nil | refine writes_cons ?_ ?_ | refine writes_seq ?_ ?_ | refine writes_look fun _ => ?_ | refine writes_when ?_ | refine writes_each fun _ => ?_ | refine writes_ite ?_ ?_ | exact c0 | exact c1 | exact c2 | refine c3 ?_ ?_ | exact c4 | exact c5 | exact c6 | refine writes_act (bit_mask hm ?_)
    | ((with_reducible show Nat.testBit _ (Eff.num _) = true); simp only [Eff.num]; rfl) | split | dsimp only

theorem reclaimGuests_writes {m : Nat} (hm : 17180147743 &&& m = 17180147743) : (reclaimGuests).Writes m := by
  have c0 := @frozen_writes m (within_mask hm rfl)
  have c1 := @modMmu_writes m (within_mask hm rfl)
  have c2 := @modTile_writes m (within_mask hm rfl)
  have c3 := @put_writes m (within_mask hm rfl)
  unfold reclaimGuests
  repeat' first
    | with_reducible first | exact writes_done | exact writes_nil | refine writes_cons ?_ ?_ | refine writes_seq ?_ ?_ | refine writes_look fun _ => ?_ | refine writes_when ?_ | refine writes_each fun _ => ?_ | refine writes_ite ?_ ?_ | exact c0 | exact c1 | exact c2 | exact c3 | refine writes_act (bit_mask hm ?_)
    | ((with_reducible show Nat.testBit _ (Eff.num _) = true); simp only [Eff.num]; rfl) | split | dsimp only

theorem resolveFault_writes {m : Nat} (hm : 34500538383 &&& m = 34500538383) {a1 : _} : (resolveFault a1).Writes m := by
  have c0 := @editLeaf_writes m (within_mask hm rfl)
  have c1 := @mapGuestPage_writes m (within_mask hm rfl)
  have c2 := @mapJobPage_writes m (within_mask hm rfl)
  have c3 := @pageIn_writes m (within_mask hm rfl)
  unfold resolveFault
  repeat' first
    | with_reducible first | exact writes_done | exact writes_nil | refine writes_cons ?_ ?_ | refine writes_seq ?_ ?_ | refine writes_look fun _ => ?_ | refine writes_when ?_ | refine writes_each fun _ => ?_ | refine writes_ite ?_ ?_ | exact c0 | exact c1 | exact c2 | exact c3 | refine writes_act (bit_mask hm ?_)
    | ((with_reducible show Nat.testBit _ (Eff.num _) = true); simp only [Eff.num]; rfl) | split | dsimp only

theorem restoreTile_writes {m : Nat} (hm : 16411 &&& m = 16411) {a1 : _} {a2 : _} {a3 : _} : (restoreTile a1 a2 a3).Writes m := by
  have c0 := @ownTile_writes m (within_mask hm rfl)
  have c1 := @tallyClass_writes m (within_mask hm rfl)
  unfold restoreTile
  repeat' first
    | with_reducible first | exact writes_done | exact writes_nil | refine writes_cons ?_ ?_ | refine writes_seq ?_ ?_ | refine writes_look fun _ => ?_ | refine writes_when ?_ | refine writes_each fun _ => ?_ | refine writes_ite ?_ ?_ | exact c0 | exact c1 | refine writes_act (bit_mask hm ?_)
    | ((with_reducible show Nat.testBit _ (Eff.num _) = true); simp only [Eff.num]; rfl) | split | dsimp only

theorem spillAll_writes {m : Nat} (hm : 34500538383 &&& m = 34500538383) : (spillAll).Writes m := by
  have c0 := @modMmu_writes m (within_mask hm rfl)
  have c1 := @spillPage_writes m (within_mask hm rfl)
  unfold spillAll
  repeat' first
    | with_reducible first | exact writes_done | exact writes_nil | refine writes_cons ?_ ?_ | refine writes_seq ?_ ?_ | refine writes_look fun _ => ?_ | refine writes_when ?_ | refine writes_each fun _ => ?_ | refine writes_ite ?_ ?_ | exact c0 | exact c1 | refine writes_act (bit_mask hm ?_)
    | ((with_reducible show Nat.testBit _ (Eff.num _) = true); simp only [Eff.num]; rfl) | split | dsimp only

theorem slotAdmitted_writes {m : Nat} (hm : 234881025 &&& m = 234881025) {a1 : _} {a2 : _} : (slotAdmitted a1 a2).Writes m := by
  have c0 := @modCourse_writes m (within_mask hm rfl)
  have c1 := @modShore_writes m (within_mask hm rfl)
  have c2 := @modWit_writes m (within_mask hm rfl)
  have c3 := @put_writes m (within_mask hm rfl)
  unfold slotAdmitted
  repeat' first
    | with_reducible first | exact writes_done | exact writes_nil | refine writes_cons ?_ ?_ | refine writes_seq ?_ ?_ | refine writes_look fun _ => ?_ | refine writes_when ?_ | refine writes_each fun _ => ?_ | refine writes_ite ?_ ?_ | exact c0 | exact c1 | exact c2 | exact c3 | refine writes_act (bit_mask hm ?_)
    | ((with_reducible show Nat.testBit _ (Eff.num _) = true); simp only [Eff.num]; rfl) | split | dsimp only

theorem admitShored_writes {m : Nat} (hm : 34602119209 &&& m = 34602119209) {a1 : _} {a2 : _} : (admitShored a1 a2).Writes m := by
  have c0 := @bump_writes m (within_mask hm rfl)
  have c1 := @endTransit_writes m (within_mask hm rfl)
  have c2 := @modAgent_writes m (within_mask hm rfl)
  have c3 := @modShore_writes m (within_mask hm rfl)
  have c4 := @modTile_writes m (within_mask hm rfl)
  have c5 := @modWit_writes m (within_mask hm rfl)
  have c6 := @openWindow_writes m (within_mask hm rfl)
  have c7 := @put_writes m (within_mask hm rfl)
  have c8 := @record_writes m (within_mask hm rfl)
  have c9 := @slotAdmitted_writes m (within_mask hm rfl)
  have c10 := @witnessAs_writes m (within_mask hm rfl)
  unfold admitShored
  repeat' first
    | with_reducible first | exact writes_done | exact writes_nil | refine writes_cons ?_ ?_ | refine writes_seq ?_ ?_ | refine writes_look fun _ => ?_ | refine writes_when ?_ | refine writes_each fun _ => ?_ | refine writes_ite ?_ ?_ | exact c0 | exact c1 | exact c2 | exact c3 | exact c4 | exact c5 | exact c6 | exact c7 | exact c8 | exact c9 | exact c10 | refine writes_act (bit_mask hm ?_)
    | ((with_reducible show Nat.testBit _ (Eff.num _) = true); simp only [Eff.num]; rfl) | split | dsimp only

theorem admitSlot_writes {m : Nat} (hm : 34494006784 &&& m = 34494006784) {a1 : _} {a2 : _} {a3 : _} : (admitSlot a1 a2 a3).Writes m := by
  have c0 := @oReq_writes m (within_mask hm rfl)
  have c1 := @sendKey_writes m (within_mask hm rfl)
  have c2 := @sendSchedule_writes m (within_mask hm rfl)
  have c3 := @sendSelector_writes m (within_mask hm rfl)
  unfold admitSlot
  repeat' first
    | with_reducible first | exact writes_done | exact writes_nil | refine writes_cons ?_ ?_ | refine writes_seq ?_ ?_ | refine writes_look fun _ => ?_ | refine writes_when ?_ | refine writes_each fun _ => ?_ | refine writes_ite ?_ ?_ | exact c0 | exact c1 | exact c2 | exact c3 | refine writes_act (bit_mask hm ?_)
    | ((with_reducible show Nat.testBit _ (Eff.num _) = true); simp only [Eff.num]; rfl) | split | dsimp only

theorem admitWitness_writes {m : Nat} (hm : 134217728 &&& m = 134217728) {a1 : _} : (admitWitness a1).Writes m := by
  have c0 := @modWit_writes m (within_mask hm rfl)
  unfold admitWitness
  repeat' first
    | with_reducible first | exact writes_done | exact writes_nil | refine writes_cons ?_ ?_ | refine writes_seq ?_ ?_ | refine writes_look fun _ => ?_ | refine writes_when ?_ | refine writes_each fun _ => ?_ | refine writes_ite ?_ ?_ | exact c0 | refine writes_act (bit_mask hm ?_)
    | ((with_reducible show Nat.testBit _ (Eff.num _) = true); simp only [Eff.num]; rfl) | split | dsimp only

theorem askCover_writes {m : Nat} (hm : 34359758336 &&& m = 34359758336) {a1 : _} : (askCover a1).Writes m := by
  have c0 := @notify_writes m (within_mask hm rfl)
  unfold askCover
  repeat' first
    | with_reducible first | exact writes_done | exact writes_nil | refine writes_cons ?_ ?_ | refine writes_seq ?_ ?_ | refine writes_look fun _ => ?_ | refine writes_when ?_ | refine writes_each fun _ => ?_ | refine writes_ite ?_ ?_ | exact c0 | refine writes_act (bit_mask hm ?_)
    | ((with_reducible show Nat.testBit _ (Eff.num _) = true); simp only [Eff.num]; rfl) | split | dsimp only

theorem beginTest_writes {m : Nat} (hm : 34359738369 &&& m = 34359738369) {a1 : _} : (beginTest a1).Writes m := by
  have c0 := @put_writes m (within_mask hm rfl)
  have c1 := @send_writes m (within_mask hm rfl)
  unfold beginTest
  repeat' first
    | with_reducible first | exact writes_done | exact writes_nil | refine writes_cons ?_ ?_ | refine writes_seq ?_ ?_ | refine writes_look fun _ => ?_ | refine writes_when ?_ | refine writes_each fun _ => ?_ | refine writes_ite ?_ ?_ | exact c0 | exact c1 | refine writes_act (bit_mask hm ?_)
    | ((with_reducible show Nat.testBit _ (Eff.num _) = true); simp only [Eff.num]; rfl) | split | dsimp only

theorem sendRewound_writes {m : Nat} (hm : 34426867200 &&& m = 34426867200) {a1 : _} : (sendRewound a1).Writes m := by
  have c0 := @modShore_writes m (within_mask hm rfl)
  have c1 := @toRoot_writes m (within_mask hm rfl)
  unfold sendRewound
  repeat' first
    | with_reducible first | exact writes_done | exact writes_nil | refine writes_cons ?_ ?_ | refine writes_seq ?_ ?_ | refine writes_look fun _ => ?_ | refine writes_when ?_ | refine writes_each fun _ => ?_ | refine writes_ite ?_ ?_ | exact c0 | exact c1 | refine writes_act (bit_mask hm ?_)
    | ((with_reducible show Nat.testBit _ (Eff.num _) = true); simp only [Eff.num]; rfl) | split | dsimp only

theorem checkRewound_writes {m : Nat} (hm : 34426867200 &&& m = 34426867200) : (checkRewound).Writes m := by
  have c0 := @sendRewound_writes m (within_mask hm rfl)
  unfold checkRewound
  repeat' first
    | with_reducible first | exact writes_done | exact writes_nil | refine writes_cons ?_ ?_ | refine writes_seq ?_ ?_ | refine writes_look fun _ => ?_ | refine writes_when ?_ | refine writes_each fun _ => ?_ | refine writes_ite ?_ ?_ | exact c0 | refine writes_act (bit_mask hm ?_)
    | ((with_reducible show Nat.testBit _ (Eff.num _) = true); simp only [Eff.num]; rfl) | split | dsimp only

theorem coverFails_writes {m : Nat} (hm : 34426899969 &&& m = 34426899969) : (coverFails).Writes m := by
  have c0 := @modShore_writes m (within_mask hm rfl)
  have c1 := @oReq_writes m (within_mask hm rfl)
  have c2 := @put_writes m (within_mask hm rfl)
  have c3 := @sendRewound_writes m (within_mask hm rfl)
  unfold coverFails
  repeat' first
    | with_reducible first | exact writes_done | exact writes_nil | refine writes_cons ?_ ?_ | refine writes_seq ?_ ?_ | refine writes_look fun _ => ?_ | refine writes_when ?_ | refine writes_each fun _ => ?_ | refine writes_ite ?_ ?_ | exact c0 | exact c1 | exact c2 | exact c3 | refine writes_act (bit_mask hm ?_)
    | ((with_reducible show Nat.testBit _ (Eff.num _) = true); simp only [Eff.num]; rfl) | split | dsimp only

theorem coverSlot_writes {m : Nat} (hm : 34427002369 &&& m = 34427002369) {a1 : _} {a2 : _} : (coverSlot a1 a2).Writes m := by
  have c0 := @coverBeyond_writes m (within_mask hm rfl)
  have c1 := @modMode_writes m (within_mask hm rfl)
  have c2 := @modShore_writes m (within_mask hm rfl)
  have c3 := @notify_writes m (within_mask hm rfl)
  have c4 := @put_writes m (within_mask hm rfl)
  unfold coverSlot
  repeat' first
    | with_reducible first | exact writes_done | exact writes_nil | refine writes_cons ?_ ?_ | refine writes_seq ?_ ?_ | refine writes_look fun _ => ?_ | refine writes_when ?_ | refine writes_each fun _ => ?_ | refine writes_ite ?_ ?_ | exact c0 | exact c1 | exact c2 | exact c3 | exact c4 | refine writes_act (bit_mask hm ?_)
    | ((with_reducible show Nat.testBit _ (Eff.num _) = true); simp only [Eff.num]; rfl) | split | dsimp only

theorem fenceSlot_writes {m : Nat} (hm : 34359789056 &&& m = 34359789056) {a1 : _} : (fenceSlot a1).Writes m := by
  have c0 := @oSendOn_writes m (within_mask hm rfl)
  unfold fenceSlot
  repeat' first
    | with_reducible first | exact writes_done | exact writes_nil | refine writes_cons ?_ ?_ | refine writes_seq ?_ ?_ | refine writes_look fun _ => ?_ | refine writes_when ?_ | refine writes_each fun _ => ?_ | refine writes_ite ?_ ?_ | exact c0 | refine writes_act (bit_mask hm ?_)
    | ((with_reducible show Nat.testBit _ (Eff.num _) = true); simp only [Eff.num]; rfl) | split | dsimp only

theorem startShoring_writes {m : Nat} (hm : 17247387679 &&& m = 17247387679) {a1 : _} : (startShoring a1).Writes m := by
  have c0 := @beginTransit_writes m (within_mask hm rfl)
  have c1 := @modShore_writes m (within_mask hm rfl)
  have c2 := @put_writes m (within_mask hm rfl)
  have c3 := @reclaimGuests_writes m (within_mask hm rfl)
  unfold startShoring
  repeat' first
    | with_reducible first | exact writes_done | exact writes_nil | refine writes_cons ?_ ?_ | refine writes_seq ?_ ?_ | refine writes_look fun _ => ?_ | refine writes_when ?_ | refine writes_each fun _ => ?_ | refine writes_ite ?_ ?_ | exact c0 | exact c1 | exact c2 | exact c3 | refine writes_act (bit_mask hm ?_)
    | ((with_reducible show Nat.testBit _ (Eff.num _) = true); simp only [Eff.num]; rfl) | split | dsimp only

theorem declare__writes {m : Nat} (hm : 51647545023 &&& m = 51647545023) {a1 : _} {a2 : _} {a3 : _} : (declare_ a1 a2 a3).Writes m := by
  have c0 := @abandonHere_writes m (within_mask hm rfl)
  have c1 := @coverSlot_writes m (within_mask hm rfl)
  have c2 := @fenceSlot_writes m (within_mask hm rfl)
  have c3 := @modMode_writes m (within_mask hm rfl)
  have c4 := @modShore_writes m (within_mask hm rfl)
  have c5 := @put_writes m (within_mask hm rfl)
  have c6 := @raise_writes m (within_mask hm rfl)
  have c7 := @record_writes m (within_mask hm rfl)
  have c8 := @setSlot_writes m (within_mask hm rfl)
  have c9 := @shoreNotice_writes m (within_mask hm rfl)
  have c10 := @startShoring_writes m (within_mask hm rfl)
  have c11 := @takeShrCfg_writes m (within_mask hm rfl)
  have c12 := @xcnQueue_writes m (within_mask hm rfl)
  unfold declare_
  repeat' first
    | with_reducible first | exact writes_done | exact writes_nil | refine writes_cons ?_ ?_ | refine writes_seq ?_ ?_ | refine writes_look fun _ => ?_ | refine writes_when ?_ | refine writes_each fun _ => ?_ | refine writes_ite ?_ ?_ | exact c0 | exact c1 | exact c2 | exact c3 | exact c4 | exact c5 | exact c6 | exact c7 | exact c8 | exact c9 | exact c10 | exact c11 | exact c12 | refine writes_act (bit_mask hm ?_)
    | ((with_reducible show Nat.testBit _ (Eff.num _) = true); simp only [Eff.num]; rfl) | split | dsimp only

theorem declareNow_writes {m : Nat} (hm : 51647545023 &&& m = 51647545023) {a1 : _} {a2 : _} : (declareNow a1 a2).Writes m := by
  have c0 := @declare__writes m (within_mask hm rfl)
  unfold declareNow
  repeat' first
    | with_reducible first | exact writes_done | exact writes_nil | refine writes_cons ?_ ?_ | refine writes_seq ?_ ?_ | refine writes_look fun _ => ?_ | refine writes_when ?_ | refine writes_each fun _ => ?_ | refine writes_ite ?_ ?_ | exact c0 | refine writes_act (bit_mask hm ?_)
    | ((with_reducible show Nat.testBit _ (Eff.num _) = true); simp only [Eff.num]; rfl) | split | dsimp only

theorem driveReset_writes {m : Nat} (hm : 34359738369 &&& m = 34359738369) {a1 : _} {a2 : _} : (driveReset a1 a2).Writes m := by
  have c0 := @put_writes m (within_mask hm rfl)
  have c1 := @send_writes m (within_mask hm rfl)
  unfold driveReset
  repeat' first
    | with_reducible first | exact writes_done | exact writes_nil | refine writes_cons ?_ ?_ | refine writes_seq ?_ ?_ | refine writes_look fun _ => ?_ | refine writes_when ?_ | refine writes_each fun _ => ?_ | refine writes_ite ?_ ?_ | exact c0 | exact c1 | refine writes_act (bit_mask hm ?_)
    | ((with_reducible show Nat.testBit _ (Eff.num _) = true); simp only [Eff.num]; rfl) | split | dsimp only

theorem takeOver_writes {m : Nat} (hm : 51613695489 &&& m = 51613695489) {a1 : _} : (takeOver a1).Writes m := by
  have c0 := @enterRole_writes m (within_mask hm rfl)
  have c1 := @modShore_writes m (within_mask hm rfl)
  have c2 := @put_writes m (within_mask hm rfl)
  have c3 := @setSlot_writes m (within_mask hm rfl)
  have c4 := @xcnMove_writes m (within_mask hm rfl)
  unfold takeOver
  repeat' first
    | with_reducible first | exact writes_done | exact writes_nil | refine writes_cons ?_ ?_ | refine writes_seq ?_ ?_ | refine writes_look fun _ => ?_ | refine writes_when ?_ | refine writes_each fun _ => ?_ | refine writes_ite ?_ ?_ | exact c0 | exact c1 | exact c2 | exact c3 | exact c4 | refine writes_act (bit_mask hm ?_)
    | ((with_reducible show Nat.testBit _ (Eff.num _) = true); simp only [Eff.num]; rfl) | split | dsimp only

theorem fenceEnds_writes {m : Nat} (hm : 52687437313 &&& m = 52687437313) {a1 : _} : (fenceEnds a1).Writes m := by
  have c0 := @driveReset_writes m (within_mask hm rfl)
  have c1 := @modShore_writes m (within_mask hm rfl)
  have c2 := @slotE2_writes m (within_mask hm rfl)
  have c3 := @takeOver_writes m (within_mask hm rfl)
  unfold fenceEnds
  repeat' first
    | with_reducible first | exact writes_done | exact writes_nil | refine writes_cons ?_ ?_ | refine writes_seq ?_ ?_ | refine writes_look fun _ => ?_ | refine writes_when ?_ | refine writes_each fun _ => ?_ | refine writes_ite ?_ ?_ | exact c0 | exact c1 | exact c2 | exact c3 | refine writes_act (bit_mask hm ?_)
    | ((with_reducible show Nat.testBit _ (Eff.num _) = true); simp only [Eff.num]; rfl) | split | dsimp only

theorem setRStep_writes {m : Nat} (hm : 67108864 &&& m = 67108864) {a1 : _} {a2 : _} : (setRStep a1 a2).Writes m := by
  have c0 := @modShore_writes m (within_mask hm rfl)
  unfold setRStep
  repeat' first
    | with_reducible first | exact writes_done | exact writes_nil | refine writes_cons ?_ ?_ | refine writes_seq ?_ ?_ | refine writes_look fun _ => ?_ | refine writes_when ?_ | refine writes_each fun _ => ?_ | refine writes_ite ?_ ?_ | exact c0 | refine writes_act (bit_mask hm ?_)
    | ((with_reducible show Nat.testBit _ (Eff.num _) = true); simp only [Eff.num]; rfl) | split | dsimp only

theorem rewindFenced_writes {m : Nat} (hm : 34426897920 &&& m = 34426897920) {a1 : _} : (rewindFenced a1).Writes m := by
  have c0 := @modShore_writes m (within_mask hm rfl)
  have c1 := @oReq_writes m (within_mask hm rfl)
  have c2 := @setRStep_writes m (within_mask hm rfl)
  unfold rewindFenced
  repeat' first
    | with_reducible first | exact writes_done | exact writes_nil | refine writes_cons ?_ ?_ | refine writes_seq ?_ ?_ | refine writes_look fun _ => ?_ | refine writes_when ?_ | refine writes_each fun _ => ?_ | refine writes_ite ?_ ?_ | exact c0 | exact c1 | exact c2 | refine writes_act (bit_mask hm ?_)
    | ((with_reducible show Nat.testBit _ (Eff.num _) = true); simp only [Eff.num]; rfl) | split | dsimp only

theorem fenceForRewind_writes {m : Nat} (hm : 34426897920 &&& m = 34426897920) {a1 : _} {a2 : _} : (fenceForRewind a1 a2).Writes m := by
  have c0 := @commitNote_writes m (within_mask hm rfl)
  have c1 := @fenceSlot_writes m (within_mask hm rfl)
  have c2 := @rewindFenced_writes m (within_mask hm rfl)
  have c3 := @setRStep_writes m (within_mask hm rfl)
  unfold fenceForRewind
  repeat' first
    | with_reducible first | exact writes_done | exact writes_nil | refine writes_cons ?_ ?_ | refine writes_seq ?_ ?_ | refine writes_look fun _ => ?_ | refine writes_when ?_ | refine writes_each fun _ => ?_ | refine writes_ite ?_ ?_ | exact c0 | exact c1 | exact c2 | exact c3 | refine writes_act (bit_mask hm ?_)
    | ((with_reducible show Nat.testBit _ (Eff.num _) = true); simp only [Eff.num]; rfl) | split | dsimp only

theorem fetchShard_writes {m : Nat} (hm : 34426867200 &&& m = 34426867200) {a1 : _} : (fetchShard a1).Writes m := by
  have c0 := @notify_writes m (within_mask hm rfl)
  have c1 := @sendRewound_writes m (within_mask hm rfl)
  unfold fetchShard
  repeat' first
    | with_reducible first | exact writes_done | exact writes_nil | refine writes_cons ?_ ?_ | refine writes_seq ?_ ?_ | refine writes_look fun _ => ?_ | refine writes_when ?_ | refine writes_each fun _ => ?_ | refine writes_ite ?_ ?_ | exact c0 | exact c1 | refine writes_act (bit_mask hm ?_)
    | ((with_reducible show Nat.testBit _ (Eff.num _) = true); simp only [Eff.num]; rfl) | split | dsimp only

theorem handbackDone_writes {m : Nat} (hm : 34601369263 &&& m = 34601369263) {a1 : _} : (handbackDone a1).Writes m := by
  have c0 := @armSlot_writes m (within_mask hm rfl)
  have c1 := @bump_writes m (within_mask hm rfl)
  have c2 := @enterRole_writes m (within_mask hm rfl)
  have c3 := @freeTile_writes m (within_mask hm rfl)
  have c4 := @modMmu_writes m (within_mask hm rfl)
  have c5 := @modShore_writes m (within_mask hm rfl)
  have c6 := @modTile_writes m (within_mask hm rfl)
  have c7 := @put_writes m (within_mask hm rfl)
  have c8 := @raise_writes m (within_mask hm rfl)
  have c9 := @releaseLocal_writes m (within_mask hm rfl)
  have c10 := @setSlot_writes m (within_mask hm rfl)
  have c11 := @slotAdmitted_writes m (within_mask hm rfl)
  have c12 := @zeroJobWindow_writes m (within_mask hm rfl)
  unfold handbackDone
  repeat' first
    | with_reducible first | exact writes_done | exact writes_nil | refine writes_cons ?_ ?_ | refine writes_seq ?_ ?_ | refine writes_look fun _ => ?_ | refine writes_when ?_ | refine writes_each fun _ => ?_ | refine writes_ite ?_ ?_ | exact c0 | exact c1 | exact c2 | exact c3 | exact c4 | exact c5 | exact c6 | exact c7 | exact c8 | exact c9 | exact c10 | exact c11 | exact c12 | refine writes_act (bit_mask hm ?_)
    | ((with_reducible show Nat.testBit _ (Eff.num _) = true); simp only [Eff.num]; rfl) | split | dsimp only

theorem handbackFails_writes {m : Nat} (hm : 51782549033 &&& m = 51782549033) : (handbackFails).Writes m := by
  have c0 := @admitShored_writes m (within_mask hm rfl)
  have c1 := @checkRewound_writes m (within_mask hm rfl)
  have c2 := @driveReset_writes m (within_mask hm rfl)
  have c3 := @modPort_writes m (within_mask hm rfl)
  have c4 := @modShore_writes m (within_mask hm rfl)
  have c5 := @modTile_writes m (within_mask hm rfl)
  have c6 := @oReq_writes m (within_mask hm rfl)
  have c7 := @put_writes m (within_mask hm rfl)
  have c8 := @raise_writes m (within_mask hm rfl)
  have c9 := @setSlot_writes m (within_mask hm rfl)
  have c10 := @xcnMove_writes m (within_mask hm rfl)
  unfold handbackFails
  repeat' first
    | with_reducible first | exact writes_done | exact writes_nil | refine writes_cons ?_ ?_ | refine writes_seq ?_ ?_ | refine writes_look fun _ => ?_ | refine writes_when ?_ | refine writes_each fun _ => ?_ | refine writes_ite ?_ ?_ | exact c0 | exact c1 | exact c2 | exact c3 | exact c4 | exact c5 | exact c6 | exact c7 | exact c8 | exact c9 | exact c10 | refine writes_act (bit_mask hm ?_)
    | ((with_reducible show Nat.testBit _ (Eff.num _) = true); simp only [Eff.num]; rfl) | split | dsimp only

theorem setHandback_writes {m : Nat} (hm : 67108864 &&& m = 67108864) {a1 : _} : (setHandback a1).Writes m := by
  have c0 := @modShore_writes m (within_mask hm rfl)
  unfold setHandback
  repeat' first
    | with_reducible first | exact writes_done | exact writes_nil | refine writes_cons ?_ ?_ | refine writes_seq ?_ ?_ | refine writes_look fun _ => ?_ | refine writes_when ?_ | refine writes_each fun _ => ?_ | refine writes_ite ?_ ?_ | exact c0 | refine writes_act (bit_mask hm ?_)
    | ((with_reducible show Nat.testBit _ (Eff.num _) = true); simp only [Eff.num]; rfl) | split | dsimp only

theorem handbackPass_writes {m : Nat} (hm : 34602286767 &&& m = 34602286767) {a1 : _} : (handbackPass a1).Writes m := by
  have c0 := @copyLocal_writes m (within_mask hm rfl)
  have c1 := @put_writes m (within_mask hm rfl)
  have c2 := @setHandback_writes m (within_mask hm rfl)
  unfold handbackPass
  repeat' first
    | with_reducible first | exact writes_done | exact writes_nil | refine writes_cons ?_ ?_ | refine writes_seq ?_ ?_ | refine writes_look fun _ => ?_ | refine writes_when ?_ | refine writes_each fun _ => ?_ | refine writes_ite ?_ ?_ | exact c0 | exact c1 | exact c2 | refine writes_act (bit_mask hm ?_)
    | ((with_reducible show Nat.testBit _ (Eff.num _) = true); simp only [Eff.num]; rfl) | split | dsimp only

theorem handbackPowered_writes {m : Nat} (hm : 34433167873 &&& m = 34433167873) {a1 : _} : (handbackPowered a1).Writes m := by
  have c0 := @driveReset_writes m (within_mask hm rfl)
  have c1 := @modPort_writes m (within_mask hm rfl)
  have c2 := @setHandback_writes m (within_mask hm rfl)
  have c3 := @setPort_writes m (within_mask hm rfl)
  unfold handbackPowered
  repeat' first
    | with_reducible first | exact writes_done | exact writes_nil | refine writes_cons ?_ ?_ | refine writes_seq ?_ ?_ | refine writes_look fun _ => ?_ | refine writes_when ?_ | refine writes_each fun _ => ?_ | refine writes_ite ?_ ?_ | exact c0 | exact c1 | exact c2 | exact c3 | refine writes_act (bit_mask hm ?_)
    | ((with_reducible show Nat.testBit _ (Eff.num _) = true); simp only [Eff.num]; rfl) | split | dsimp only

theorem loadShards_writes {m : Nat} (hm : 34359789056 &&& m = 34359789056) {a1 : _} {a2 : _} {a3 : _} : (loadShards a1 a2 a3).Writes m := by
  have c0 := @loadBytes_writes m (within_mask hm rfl)
  unfold loadShards
  repeat' first
    | with_reducible first | exact writes_done | exact writes_nil | refine writes_cons ?_ ?_ | refine writes_seq ?_ ?_ | refine writes_look fun _ => ?_ | refine writes_when ?_ | refine writes_each fun _ => ?_ | refine writes_ite ?_ ?_ | exact c0 | refine writes_act (bit_mask hm ?_)
    | ((with_reducible show Nat.testBit _ (Eff.num _) = true); simp only [Eff.num]; rfl) | split | dsimp only

theorem loadHandback_writes {m : Nat} (hm : 51782549033 &&& m = 51782549033) {a1 : _} {a2 : _} : (loadHandback a1 a2).Writes m := by
  have c0 := @checkShard_writes m (within_mask hm rfl)
  have c1 := @commitNote_writes m (within_mask hm rfl)
  have c2 := @fetchShard_writes m (within_mask hm rfl)
  have c3 := @handbackFails_writes m (within_mask hm rfl)
  have c4 := @loadShards_writes m (within_mask hm rfl)
  have c5 := @modShore_writes m (within_mask hm rfl)
  have c6 := @sendContextRegs_writes m (within_mask hm rfl)
  have c7 := @sendCounters_writes m (within_mask hm rfl)
  unfold loadHandback
  repeat' first
    | with_reducible first | exact writes_done | exact writes_nil | refine writes_cons ?_ ?_ | refine writes_seq ?_ ?_ | refine writes_look fun _ => ?_ | refine writes_when ?_ | refine writes_each fun _ => ?_ | refine writes_ite ?_ ?_ | exact c0 | exact c1 | exact c2 | exact c3 | exact c4 | exact c5 | exact c6 | exact c7 | refine writes_act (bit_mask hm ?_)
    | ((with_reducible show Nat.testBit _ (Eff.num _) = true); simp only [Eff.num]; rfl) | split | dsimp only

theorem handbackTrained_writes {m : Nat} (hm : 51782811311 &&& m = 51782811311) {a1 : _} : (handbackTrained a1).Writes m := by
  have c0 := @copyLocal_writes m (within_mask hm rfl)
  have c1 := @loadHandback_writes m (within_mask hm rfl)
  have c2 := @oReq_writes m (within_mask hm rfl)
  have c3 := @sendRegions_writes m (within_mask hm rfl)
  have c4 := @setHandback_writes m (within_mask hm rfl)
  have c5 := @shoreNotice_writes m (within_mask hm rfl)
  unfold handbackTrained
  repeat' first
    | with_reducible first | exact writes_done | exact writes_nil | refine writes_cons ?_ ?_ | refine writes_seq ?_ ?_ | refine writes_look fun _ => ?_ | refine writes_when ?_ | refine writes_each fun _ => ?_ | refine writes_ite ?_ ?_ | exact c0 | exact c1 | exact c2 | exact c3 | exact c4 | exact c5 | refine writes_act (bit_mask hm ?_)
    | ((with_reducible show Nat.testBit _ (Eff.num _) = true); simp only [Eff.num]; rfl) | split | dsimp only

theorem loadCover_writes {m : Nat} (hm : 34561115648 &&& m = 34561115648) : (loadCover).Writes m := by
  have c0 := @commitNote_writes m (within_mask hm rfl)
  have c1 := @loadShards_writes m (within_mask hm rfl)
  have c2 := @modShore_writes m (within_mask hm rfl)
  have c3 := @oReq_writes m (within_mask hm rfl)
  have c4 := @sendRegions_writes m (within_mask hm rfl)
  have c5 := @sendSchedule_writes m (within_mask hm rfl)
  have c6 := @setRStep_writes m (within_mask hm rfl)
  unfold loadCover
  repeat' first
    | with_reducible first | exact writes_done | exact writes_nil | refine writes_cons ?_ ?_ | refine writes_seq ?_ ?_ | refine writes_look fun _ => ?_ | refine writes_when ?_ | refine writes_each fun _ => ?_ | refine writes_ite ?_ ?_ | exact c0 | exact c1 | exact c2 | exact c3 | exact c4 | exact c5 | exact c6 | refine writes_act (bit_mask hm ?_)
    | ((with_reducible show Nat.testBit _ (Eff.num _) = true); simp only [Eff.num]; rfl) | split | dsimp only

theorem shoringFails_writes {m : Nat} (hm : 34461900463 &&& m = 34461900463) : (shoringFails).Writes m := by
  have c0 := @endTransit_writes m (within_mask hm rfl)
  have c1 := @positionLost_writes m (within_mask hm rfl)
  unfold shoringFails
  repeat' first
    | with_reducible first | exact writes_done | exact writes_nil | refine writes_cons ?_ ?_ | refine writes_seq ?_ ?_ | refine writes_look fun _ => ?_ | refine writes_when ?_ | refine writes_each fun _ => ?_ | refine writes_ite ?_ ?_ | exact c0 | exact c1 | refine writes_act (bit_mask hm ?_)
    | ((with_reducible show Nat.testBit _ (Eff.num _) = true); simp only [Eff.num]; rfl) | split | dsimp only

theorem loadKernels_writes {m : Nat} (hm : 34461900463 &&& m = 34461900463) {a1 : _} {a2 : _} : (loadKernels a1 a2).Writes m := by
  have c0 := @freeTile_writes m (within_mask hm rfl)
  have c1 := @loadTile_writes m (within_mask hm rfl)
  have c2 := @modMmu_writes m (within_mask hm rfl)
  have c3 := @modShore_writes m (within_mask hm rfl)
  have c4 := @modTile_writes m (within_mask hm rfl)
  have c5 := @shoringFails_writes m (within_mask hm rfl)
  unfold loadKernels
  repeat' first
    | with_reducible first | exact writes_done | exact writes_nil | refine writes_cons ?_ ?_ | refine writes_seq ?_ ?_ | refine writes_look fun _ => ?_ | refine writes_when ?_ | refine writes_each fun _ => ?_ | refine writes_ite ?_ ?_ | exact c0 | exact c1 | exact c2 | exact c3 | exact c4 | exact c5 | refine writes_act (bit_mask hm ?_)
    | ((with_reducible show Nat.testBit _ (Eff.num _) = true); simp only [Eff.num]; rfl) | split | dsimp only

theorem moveFailed_writes {m : Nat} (hm : 51782811311 &&& m = 51782811311) {a1 : _} {a2 : _} : (moveFailed a1 a2).Writes m := by
  have c0 := @handbackFails_writes m (within_mask hm rfl)
  have c1 := @modShore_writes m (within_mask hm rfl)
  have c2 := @shoringFails_writes m (within_mask hm rfl)
  have c3 := @xcnMove_writes m (within_mask hm rfl)
  unfold moveFailed
  repeat' first
    | with_reducible first | exact writes_done | exact writes_nil | refine writes_cons ?_ ?_ | refine writes_seq ?_ ?_ | refine writes_look fun _ => ?_ | refine writes_when ?_ | refine writes_each fun _ => ?_ | refine writes_ite ?_ ?_ | exact c0 | exact c1 | exact c2 | exact c3 | refine writes_act (bit_mask hm ?_)
    | ((with_reducible show Nat.testBit _ (Eff.num _) = true); simp only [Eff.num]; rfl) | split | dsimp only

theorem moveSettled_writes {m : Nat} (hm : 34561117696 &&& m = 34561117696) {a1 : _} {a2 : _} : (moveSettled a1 a2).Writes m := by
  have c0 := @admitSlot_writes m (within_mask hm rfl)
  have c1 := @checkRewound_writes m (within_mask hm rfl)
  have c2 := @modShore_writes m (within_mask hm rfl)
  unfold moveSettled
  repeat' first
    | with_reducible first | exact writes_done | exact writes_nil | refine writes_cons ?_ ?_ | refine writes_seq ?_ ?_ | refine writes_look fun _ => ?_ | refine writes_when ?_ | refine writes_each fun _ => ?_ | refine writes_ite ?_ ?_ | exact c0 | exact c1 | exact c2 | refine writes_act (bit_mask hm ?_)
    | ((with_reducible show Nat.testBit _ (Eff.num _) = true); simp only [Eff.num]; rfl) | split | dsimp only

theorem otherSource_writes {m : Nat} (hm : 34461900463 &&& m = 34461900463) {a1 : _} : (otherSource a1).Writes m := by
  have c0 := @notify_writes m (within_mask hm rfl)
  have c1 := @sendRewound_writes m (within_mask hm rfl)
  have c2 := @shoringFails_writes m (within_mask hm rfl)
  unfold otherSource
  repeat' first
    | with_reducible first | exact writes_done | exact writes_nil | refine writes_cons ?_ ?_ | refine writes_seq ?_ ?_ | refine writes_look fun _ => ?_ | refine writes_when ?_ | refine writes_each fun _ => ?_ | refine writes_ite ?_ ?_ | exact c0 | exact c1 | exact c2 | refine writes_act (bit_mask hm ?_)
    | ((with_reducible show Nat.testBit _ (Eff.num _) = true); simp only [Eff.num]; rfl) | split | dsimp only

theorem spareHolds_writes {m : Nat} (hm : 16777216 &&& m = 16777216) {a1 : _} : (spareHolds a1).Writes m := by
  have c0 := @modJob_writes m (within_mask hm rfl)
  unfold spareHolds
  repeat' first
    | with_reducible first | exact writes_done | exact writes_nil | refine writes_cons ?_ ?_ | refine writes_seq ?_ ?_ | refine writes_look fun _ => ?_ | refine writes_when ?_ | refine writes_each fun _ => ?_ | refine writes_ite ?_ ?_ | exact c0 | refine writes_act (bit_mask hm ?_)
    | ((with_reducible show Nat.testBit _ (Eff.num _) = true); simp only [Eff.num]; rfl) | split | dsimp only

theorem positionMoved_writes {m : Nat} (hm : 16777217 &&& m = 16777217) : (positionMoved).Writes m := by
  have c0 := @put_writes m (within_mask hm rfl)
  have c1 := @spareHolds_writes m (within_mask hm rfl)
  unfold positionMoved
  repeat' first
    | with_reducible first | exact writes_done | exact writes_nil | refine writes_cons ?_ ?_ | refine writes_seq ?_ ?_ | refine writes_look fun _ => ?_ | refine writes_when ?_ | refine writes_each fun _ => ?_ | refine writes_ite ?_ ?_ | exact c0 | exact c1 | refine writes_act (bit_mask hm ?_)
    | ((with_reducible show Nat.testBit _ (Eff.num _) = true); simp only [Eff.num]; rfl) | split | dsimp only

theorem promoteShard_writes {m : Nat} (hm : 34602417839 &&& m = 34602417839) {a1 : _} {a2 : _} : (promoteShard a1 a2).Writes m := by
  have c0 := @checkShard_writes m (within_mask hm rfl)
  have c1 := @copyPhys_writes m (within_mask hm rfl)
  have c2 := @mapJobPage_writes m (within_mask hm rfl)
  have c3 := @modShore_writes m (within_mask hm rfl)
  have c4 := @otherSource_writes m (within_mask hm rfl)
  have c5 := @tallyClass_writes m (within_mask hm rfl)
  unfold promoteShard
  repeat' first
    | with_reducible first | exact writes_done | exact writes_nil | refine writes_cons ?_ ?_ | refine writes_seq ?_ ?_ | refine writes_look fun _ => ?_ | refine writes_when ?_ | refine writes_each fun _ => ?_ | refine writes_ite ?_ ?_ | exact c0 | exact c1 | exact c2 | exact c3 | exact c4 | exact c5 | refine writes_act (bit_mask hm ?_)
    | ((with_reducible show Nat.testBit _ (Eff.num _) = true); simp only [Eff.num]; rfl) | split | dsimp only

theorem promote_writes {m : Nat} (hm : 34602417839 &&& m = 34602417839) : (promote).Writes m := by
  have c0 := @modAgent_writes m (within_mask hm rfl)
  have c1 := @promoteShard_writes m (within_mask hm rfl)
  unfold promote
  repeat' first
    | with_reducible first | exact writes_done | exact writes_nil | refine writes_cons ?_ ?_ | refine writes_seq ?_ ?_ | refine writes_look fun _ => ?_ | refine writes_when ?_ | refine writes_each fun _ => ?_ | refine writes_ite ?_ ?_ | exact c0 | exact c1 | refine writes_act (bit_mask hm ?_)
    | ((with_reducible show Nat.testBit _ (Eff.num _) = true); simp only [Eff.num]; rfl) | split | dsimp only

theorem recopy_writes {m : Nat} (hm : 34602286767 &&& m = 34602286767) : (recopy).Writes m := by
  have c0 := @copyLocal_writes m (within_mask hm rfl)
  have c1 := @modShore_writes m (within_mask hm rfl)
  have c2 := @put_writes m (within_mask hm rfl)
  unfold recopy
  repeat' first
    | with_reducible first | exact writes_done | exact writes_nil | refine writes_cons ?_ ?_ | refine writes_seq ?_ ?_ | refine writes_look fun _ => ?_ | refine writes_when ?_ | refine writes_each fun _ => ?_ | refine writes_ite ?_ ?_ | exact c0 | exact c1 | exact c2 | refine writes_act (bit_mask hm ?_)
    | ((with_reducible show Nat.testBit _ (Eff.num _) = true); simp only [Eff.num]; rfl) | split | dsimp only

theorem shoredCounters_writes {m : Nat} (hm : 34602286767 &&& m = 34602286767) : (shoredCounters).Writes m := by
  have c0 := @checkRewound_writes m (within_mask hm rfl)
  have c1 := @put_writes m (within_mask hm rfl)
  have c2 := @recopy_writes m (within_mask hm rfl)
  unfold shoredCounters
  repeat' first
    | with_reducible first | exact writes_done | exact writes_nil | refine writes_cons ?_ ?_ | refine writes_seq ?_ ?_ | refine writes_look fun _ => ?_ | refine writes_when ?_ | refine writes_each fun _ => ?_ | refine writes_ite ?_ ?_ | exact c0 | exact c1 | exact c2 | refine writes_act (bit_mask hm ?_)
    | ((with_reducible show Nat.testBit _ (Eff.num _) = true); simp only [Eff.num]; rfl) | split | dsimp only

theorem promotionEnds_writes {m : Nat} (hm : 34602417839 &&& m = 34602417839) : (promotionEnds).Writes m := by
  have c0 := @eachLocalLeaf_writes m (within_mask hm rfl)
  have c1 := @loadKernels_writes m (within_mask hm rfl)
  have c2 := @modAgent_writes m (within_mask hm rfl)
  have c3 := @modShore_writes m (within_mask hm rfl)
  have c4 := @put_writes m (within_mask hm rfl)
  have c5 := @shoredCounters_writes m (within_mask hm rfl)
  unfold promotionEnds
  repeat' first
    | with_reducible first | exact writes_done | exact writes_nil | refine writes_cons ?_ ?_ | refine writes_seq ?_ ?_ | refine writes_look fun _ => ?_ | refine writes_when ?_ | refine writes_each fun _ => ?_ | refine writes_ite ?_ ?_ | exact c0 | exact c1 | exact c2 | exact c3 | exact c4 | exact c5 | refine writes_act (bit_mask hm ?_)
    | ((with_reducible show Nat.testBit _ (Eff.num _) = true); simp only [Eff.num]; rfl) | split | dsimp only

theorem reloadSlot_writes {m : Nat} (hm : 34567421441 &&& m = 34567421441) {a1 : _} : (reloadSlot a1).Writes m := by
  have c0 := @checkShard_writes m (within_mask hm rfl)
  have c1 := @fetchShard_writes m (within_mask hm rfl)
  have c2 := @loadBytes_writes m (within_mask hm rfl)
  have c3 := @modShore_writes m (within_mask hm rfl)
  have c4 := @oReq_writes m (within_mask hm rfl)
  have c5 := @sendRewound_writes m (within_mask hm rfl)
  unfold reloadSlot
  repeat' first
    | with_reducible first | exact writes_done | exact writes_nil | refine writes_cons ?_ ?_ | refine writes_seq ?_ ?_ | refine writes_look fun _ => ?_ | refine writes_when ?_ | refine writes_each fun _ => ?_ | refine writes_ite ?_ ?_ | exact c0 | exact c1 | exact c2 | exact c3 | exact c4 | exact c5 | refine writes_act (bit_mask hm ?_)
    | ((with_reducible show Nat.testBit _ (Eff.num _) = true); simp only [Eff.num]; rfl) | split | dsimp only

theorem setSlots_writes {m : Nat} (hm : 34426897920 &&& m = 34426897920) : (setSlots).Writes m := by
  have c0 := @sendContextRegs_writes m (within_mask hm rfl)
  have c1 := @sendCounters_writes m (within_mask hm rfl)
  have c2 := @setRStep_writes m (within_mask hm rfl)
  unfold setSlots
  repeat' first
    | with_reducible first | exact writes_done | exact writes_nil | refine writes_cons ?_ ?_ | refine writes_seq ?_ ?_ | refine writes_look fun _ => ?_ | refine writes_when ?_ | refine writes_each fun _ => ?_ | refine writes_ite ?_ ?_ | exact c0 | exact c1 | exact c2 | refine writes_act (bit_mask hm ?_)
    | ((with_reducible show Nat.testBit _ (Eff.num _) = true); simp only [Eff.num]; rfl) | split | dsimp only

theorem startHandback_writes {m : Nat} (hm : 34433167873 &&& m = 34433167873) {a1 : _} (h1 : ∀ x0, (a1 x0).Writes m) : (startHandback a1).Writes m := by
  have c0 := @handbackPowered_writes m (within_mask hm rfl)
  have c1 := @put_writes m (within_mask hm rfl)
  have c2 := @send_writes m (within_mask hm rfl)
  have c3 := @setHandback_writes m (within_mask hm rfl)
  have c4 := @setSlot_writes m (within_mask hm rfl)
  unfold startHandback
  repeat' first
    | with_reducible first | exact writes_done | exact writes_nil | refine writes_cons ?_ ?_ | refine writes_seq ?_ ?_ | refine writes_look fun _ => ?_ | refine writes_when ?_ | refine writes_each fun _ => ?_ | refine writes_ite ?_ ?_ | exact c0 | exact c1 | exact c2 | exact c3 | exact c4 | exact h1 _ | refine writes_act (bit_mask hm ?_)
    | ((with_reducible show Nat.testBit _ (Eff.num _) = true); simp only [Eff.num]; rfl) | split | dsimp only

end Sys2Proof.Machine
end

