-- ==== Sys2Proof/Laws/Writes7.lean ====
section
/-! SUPPORT. What each shared operation writes (part 7): one lemma per operation, of the areas its effects name. -/

set_option maxRecDepth 16000

namespace Sys2Proof.Machine

theorem takeAdmit_writes {m : Nat} (hm : 51799324201 &&& m = 51799324201) {a1 : _} {a2 : _} : (takeAdmit a1 a2).Writes m := by
  have c0 := @admitShored_writes m (within_mask hm rfl)
  have c1 := @admitSlot_writes m (within_mask hm rfl)
  have c2 := @admitWitness_writes m (within_mask hm rfl)
  have c3 := @modMode_writes m (within_mask hm rfl)
  have c4 := @modShore_writes m (within_mask hm rfl)
  have c5 := @positionMoved_writes m (within_mask hm rfl)
  have c6 := @put_writes m (within_mask hm rfl)
  have c7 := @raise_writes m (within_mask hm rfl)
  have c8 := @setRStep_writes m (within_mask hm rfl)
  have c9 := @setSlot_writes m (within_mask hm rfl)
  have c10 := @xcnMove_writes m (within_mask hm rfl)
  unfold takeAdmit
  repeat' first
    | with_reducible first | exact writes_done | exact writes_nil | refine writes_cons ?_ ?_ | refine writes_seq ?_ ?_ | refine writes_look fun _ => ?_ | refine writes_when ?_ | refine writes_each fun _ => ?_ | refine writes_ite ?_ ?_ | exact c0 | exact c1 | exact c2 | exact c3 | exact c4 | exact c5 | exact c6 | exact c7 | exact c8 | exact c9 | exact c10 | refine writes_act (bit_mask hm ?_)
    | ((with_reducible show Nat.testBit _ (Eff.num _) = true); simp only [Eff.num]; rfl) | split | dsimp only

theorem takeCover_writes {m : Nat} (hm : 83886081 &&& m = 83886081) {a1 : _} {a2 : _} : (takeCover a1 a2).Writes m := by
  have c0 := @modShore_writes m (within_mask hm rfl)
  have c1 := @put_writes m (within_mask hm rfl)
  have c2 := @spareHolds_writes m (within_mask hm rfl)
  unfold takeCover
  repeat' first
    | with_reducible first | exact writes_done | exact writes_nil | refine writes_cons ?_ ?_ | refine writes_seq ?_ ?_ | refine writes_look fun _ => ?_ | refine writes_when ?_ | refine writes_each fun _ => ?_ | refine writes_ite ?_ ?_ | exact c0 | exact c1 | exact c2 | refine writes_act (bit_mask hm ?_)
    | ((with_reducible show Nat.testBit _ (Eff.num _) = true); simp only [Eff.num]; rfl) | split | dsimp only

theorem takePlan_writes {m : Nat} (hm : 51782811311 &&& m = 51782811311) {a1 : _} : (takePlan a1).Writes m := by
  have c0 := @abandonHere_writes m (within_mask hm rfl)
  have c1 := @askCover_writes m (within_mask hm rfl)
  have c2 := @checkRewound_writes m (within_mask hm rfl)
  have c3 := @commitHere_writes m (within_mask hm rfl)
  have c4 := @fenceForRewind_writes m (within_mask hm rfl)
  have c5 := @fenceWindow_writes m (within_mask hm rfl)
  have c6 := @loadCover_writes m (within_mask hm rfl)
  have c7 := @loadHandback_writes m (within_mask hm rfl)
  have c8 := @modShore_writes m (within_mask hm rfl)
  have c9 := @modTile_writes m (within_mask hm rfl)
  have c10 := @put_writes m (within_mask hm rfl)
  have c11 := @takeShrCfg_writes m (within_mask hm rfl)
  unfold takePlan
  repeat' first
    | with_reducible first | exact writes_done | exact writes_nil | refine writes_cons ?_ ?_ | refine writes_seq ?_ ?_ | refine writes_look fun _ => ?_ | refine writes_when ?_ | refine writes_each fun _ => ?_ | refine writes_ite ?_ ?_ | exact c0 | exact c1 | exact c2 | exact c3 | exact c4 | exact c5 | exact c6 | exact c7 | exact c8 | exact c9 | exact c10 | exact c11 | refine writes_act (bit_mask hm ?_)
    | ((with_reducible show Nat.testBit _ (Eff.num _) = true); simp only [Eff.num]; rfl) | split | dsimp only

theorem slotEvent_writes {m : Nat} (hm : 51781762751 &&& m = 51781762751) {a1 : _} {a2 : _} {a3 : _} {a4 : _} {a5 : _} {a6 : _} : (slotEvent a1 a2 a3 a4 a5 a6).Writes m := by
  have c0 := @declareNow_writes m (within_mask hm rfl)
  have c1 := @intEvent_writes m (within_mask hm rfl)
  unfold slotEvent
  repeat' first
    | with_reducible first | exact writes_done | exact writes_nil | refine writes_cons ?_ ?_ | refine writes_seq ?_ ?_ | refine writes_look fun _ => ?_ | refine writes_when ?_ | refine writes_each fun _ => ?_ | refine writes_ite ?_ ?_ | exact c0 | exact c1 | refine writes_act (bit_mask hm ?_)
    | ((with_reducible show Nat.testBit _ (Eff.num _) = true); simp only [Eff.num]; rfl) | split | dsimp only

theorem diverge_writes {m : Nat} (hm : 51781762751 &&& m = 51781762751) {a1 : _} {a2 : _} : (diverge a1 a2).Writes m := by
  have c0 := @abandonHere_writes m (within_mask hm rfl)
  have c1 := @slotEvent_writes m (within_mask hm rfl)
  unfold diverge
  repeat' first
    | with_reducible first | exact writes_done | exact writes_nil | refine writes_cons ?_ ?_ | refine writes_seq ?_ ?_ | refine writes_look fun _ => ?_ | refine writes_when ?_ | refine writes_each fun _ => ?_ | refine writes_ite ?_ ?_ | exact c0 | exact c1 | refine writes_act (bit_mask hm ?_)
    | ((with_reducible show Nat.testBit _ (Eff.num _) = true); simp only [Eff.num]; rfl) | split | dsimp only

theorem fireHealth_writes {m : Nat} (hm : 34393316865 &&& m = 34393316865) {a1 : _} {a2 : _} : (fireHealth a1 a2).Writes m := by
  have c0 := @modCourse_writes m (within_mask hm rfl)
  have c1 := @raise_writes m (within_mask hm rfl)
  have c2 := @tally_writes m (within_mask hm rfl)
  have c3 := @toRoot_writes m (within_mask hm rfl)
  unfold fireHealth
  repeat' first
    | with_reducible first | exact writes_done | exact writes_nil | refine writes_cons ?_ ?_ | refine writes_seq ?_ ?_ | refine writes_look fun _ => ?_ | refine writes_when ?_ | refine writes_each fun _ => ?_ | refine writes_ite ?_ ?_ | exact c0 | exact c1 | exact c2 | exact c3 | refine writes_act (bit_mask hm ?_)
    | ((with_reducible show Nat.testBit _ (Eff.num _) = true); simp only [Eff.num]; rfl) | split | dsimp only

theorem fromAgentIn_writes {m : Nat} (hm : 1 &&& m = 1) {a1 : _} {a2 : _} {a3 : _} {a4 : _} {a5 : _} (h5 : (a5).Writes m) : (fromAgentIn a1 a2 a3 a4 a5).Writes m := by
  have c0 := @bump_writes m (within_mask hm rfl)
  unfold fromAgentIn
  repeat' first
    | with_reducible first | exact writes_done | exact writes_nil | refine writes_cons ?_ ?_ | refine writes_seq ?_ ?_ | refine writes_look fun _ => ?_ | refine writes_when ?_ | refine writes_each fun _ => ?_ | refine writes_ite ?_ ?_ | exact c0 | exact h5 | refine writes_act (bit_mask hm ?_)
    | ((with_reducible show Nat.testBit _ (Eff.num _) = true); simp only [Eff.num]; rfl) | split | dsimp only

theorem fromAgent_writes {m : Nat} (hm : 1 &&& m = 1) {a1 : _} {a2 : _} {a3 : _} {a4 : _} (h4 : (a4).Writes m) : (fromAgent a1 a2 a3 a4).Writes m := by
  have c0 := @fromAgentIn_writes m (within_mask hm rfl)
  unfold fromAgent
  repeat' first
    | with_reducible first | exact writes_done | exact writes_nil | refine writes_cons ?_ ?_ | refine writes_seq ?_ ?_ | refine writes_look fun _ => ?_ | refine writes_when ?_ | refine writes_each fun _ => ?_ | refine writes_ite ?_ ?_ | refine c0 ?_ | exact h4 | refine writes_act (bit_mask hm ?_)
    | ((with_reducible show Nat.testBit _ (Eff.num _) = true); simp only [Eff.num]; rfl) | split | dsimp only

theorem granuleAgain_writes {m : Nat} (hm : 34393343488 &&& m = 34393343488) {a1 : _} {a2 : _} : (granuleAgain a1 a2).Writes m := by
  have c0 := @drain_writes m (within_mask hm rfl)
  have c1 := @dropGranules_writes m (within_mask hm rfl)
  have c2 := @setAsked_writes m (within_mask hm rfl)
  unfold granuleAgain
  repeat' first
    | with_reducible first | exact writes_done | exact writes_nil | refine writes_cons ?_ ?_ | refine writes_seq ?_ ?_ | refine writes_look fun _ => ?_ | refine writes_when ?_ | refine writes_each fun _ => ?_ | refine writes_ite ?_ ?_ | exact c0 | exact c1 | exact c2 | refine writes_act (bit_mask hm ?_)
    | ((with_reducible show Nat.testBit _ (Eff.num _) = true); simp only [Eff.num]; rfl) | split | dsimp only

theorem localDone_writes {m : Nat} (hm : 67371175 &&& m = 67371175) : (localDone).Writes m := by
  have c0 := @put_writes m (within_mask hm rfl)
  have c1 := @releaseLocal_writes m (within_mask hm rfl)
  unfold localDone
  repeat' first
    | with_reducible first | exact writes_done | exact writes_nil | refine writes_cons ?_ ?_ | refine writes_seq ?_ ?_ | refine writes_look fun _ => ?_ | refine writes_when ?_ | refine writes_each fun _ => ?_ | refine writes_ite ?_ ?_ | exact c0 | exact c1 | refine writes_act (bit_mask hm ?_)
    | ((with_reducible show Nat.testBit _ (Eff.num _) = true); simp only [Eff.num]; rfl) | split | dsimp only

theorem settleShard_writes {m : Nat} (hm : 51781762751 &&& m = 51781762751) {a1 : _} : (settleShard a1).Writes m := by
  have c0 := @ackRun_writes m (within_mask hm rfl)
  have c1 := @addEnt_writes m (within_mask hm rfl)
  have c2 := @diverge_writes m (within_mask hm rfl)
  have c3 := @tally_writes m (within_mask hm rfl)
  unfold settleShard
  repeat' first
    | with_reducible first | exact writes_done | exact writes_nil | refine writes_cons ?_ ?_ | refine writes_seq ?_ ?_ | refine writes_look fun _ => ?_ | refine writes_when ?_ | refine writes_each fun _ => ?_ | refine writes_ite ?_ ?_ | exact c0 | exact c1 | exact c2 | exact c3 | refine writes_act (bit_mask hm ?_)
    | ((with_reducible show Nat.testBit _ (Eff.num _) = true); simp only [Eff.num]; rfl) | split | dsimp only

theorem shardStored_writes {m : Nat} (hm : 51782811327 &&& m = 51782811327) {a1 : _} : (shardStored a1).Writes m := by
  have c0 := @addEnt_writes m (within_mask hm rfl)
  have c1 := @modCourse_writes m (within_mask hm rfl)
  have c2 := @refreshDir_writes m (within_mask hm rfl)
  have c3 := @sendBulk_writes m (within_mask hm rfl)
  have c4 := @settleShard_writes m (within_mask hm rfl)
  have c5 := @tally_writes m (within_mask hm rfl)
  have c6 := @tallyClass_writes m (within_mask hm rfl)
  have c7 := @toPartner_writes m (within_mask hm rfl)
  have c8 := @withHandle_writes m (within_mask hm rfl)
  unfold shardStored
  repeat' first
    | with_reducible first | exact writes_done | exact writes_nil | refine writes_cons ?_ ?_ | refine writes_seq ?_ ?_ | refine writes_look fun _ => ?_ | refine writes_when ?_ | refine writes_each fun _ => ?_ | refine writes_ite ?_ ?_ | exact c0 | exact c1 | exact c2 | exact c3 | exact c4 | exact c5 | exact c6 | exact c7 | refine c8 (fun _ => ?_) | refine writes_act (bit_mask hm ?_)
    | ((with_reducible show Nat.testBit _ (Eff.num _) = true); simp only [Eff.num]; rfl) | split | dsimp only

theorem granuleDone_writes {m : Nat} (hm : 51782811327 &&& m = 51782811327) {a1 : _} {a2 : _} : (granuleDone a1 a2).Writes m := by
  have c0 := @ackRun_writes m (within_mask hm rfl)
  have c1 := @localDone_writes m (within_mask hm rfl)
  have c2 := @shardStored_writes m (within_mask hm rfl)
  unfold granuleDone
  repeat' first
    | with_reducible first | exact writes_done | exact writes_nil | refine writes_cons ?_ ?_ | refine writes_seq ?_ ?_ | refine writes_look fun _ => ?_ | refine writes_when ?_ | refine writes_each fun _ => ?_ | refine writes_ite ?_ ?_ | exact c0 | exact c1 | exact c2 | refine writes_act (bit_mask hm ?_)
    | ((with_reducible show Nat.testBit _ (Eff.num _) = true); simp only [Eff.num]; rfl) | split | dsimp only

theorem healthWatches_writes {m : Nat} (hm : 34393316865 &&& m = 34393316865) {a1 : _} {a2 : _} {a3 : _} : (healthWatches a1 a2 a3).Writes m := by
  have c0 := @fireHealth_writes m (within_mask hm rfl)
  unfold healthWatches
  repeat' first
    | with_reducible first | exact writes_done | exact writes_nil | refine writes_cons ?_ ?_ | refine writes_seq ?_ ?_ | refine writes_look fun _ => ?_ | refine writes_when ?_ | refine writes_each fun _ => ?_ | refine writes_ite ?_ ?_ | exact c0 | refine writes_act (bit_mask hm ?_)
    | ((with_reducible show Nat.testBit _ (Eff.num _) = true); simp only [Eff.num]; rfl) | split | dsimp only

theorem hostDrops_writes {m : Nat} (hm : 34493980161 &&& m = 34493980161) {a1 : _} {a2 : _} : (hostDrops a1 a2).Writes m := by
  have c0 := @bump_writes m (within_mask hm rfl)
  have c1 := @modWit_writes m (within_mask hm rfl)
  have c2 := @tryVote_writes m (within_mask hm rfl)
  unfold hostDrops
  repeat' first
    | with_reducible first | exact writes_done | exact writes_nil | refine writes_cons ?_ ?_ | refine writes_seq ?_ ?_ | refine writes_look fun _ => ?_ | refine writes_when ?_ | refine writes_each fun _ => ?_ | refine writes_ite ?_ ?_ | exact c0 | exact c1 | exact c2 | refine writes_act (bit_mask hm ?_)
    | ((with_reducible show Nat.testBit _ (Eff.num _) = true); simp only [Eff.num]; rfl) | split | dsimp only

theorem keeperCheck_writes {m : Nat} (hm : 51781762751 &&& m = 51781762751) : (keeperCheck).Writes m := by
  have c0 := @abandonHere_writes m (within_mask hm rfl)
  have c1 := @send_writes m (within_mask hm rfl)
  have c2 := @slotEvent_writes m (within_mask hm rfl)
  unfold keeperCheck
  repeat' first
    | with_reducible first | exact writes_done | exact writes_nil | refine writes_cons ?_ ?_ | refine writes_seq ?_ ?_ | refine writes_look fun _ => ?_ | refine writes_when ?_ | refine writes_each fun _ => ?_ | refine writes_ite ?_ ?_ | exact c0 | exact c1 | exact c2 | refine writes_act (bit_mask hm ?_)
    | ((with_reducible show Nat.testBit _ (Eff.num _) = true); simp only [Eff.num]; rfl) | split | dsimp only

theorem laneWatch_writes {m : Nat} (hm : 34393316865 &&& m = 34393316865) {a1 : _} : (laneWatch a1).Writes m := by
  have c0 := @fireHealth_writes m (within_mask hm rfl)
  unfold laneWatch
  repeat' first
    | with_reducible first | exact writes_done | exact writes_nil | refine writes_cons ?_ ?_ | refine writes_seq ?_ ?_ | refine writes_look fun _ => ?_ | refine writes_when ?_ | refine writes_each fun _ => ?_ | refine writes_ite ?_ ?_ | exact c0 | refine writes_act (bit_mask hm ?_)
    | ((with_reducible show Nat.testBit _ (Eff.num _) = true); simp only [Eff.num]; rfl) | split | dsimp only

theorem placeElsewhere_writes {m : Nat} (hm : 34460720807 &&& m = 34460720807) {a1 : _} : (placeElsewhere a1).Writes m := by
  have c0 := @abandonHere_writes m (within_mask hm rfl)
  have c1 := @copyPhys_writes m (within_mask hm rfl)
  have c2 := @granuleAgain_writes m (within_mask hm rfl)
  have c3 := @modCourse_writes m (within_mask hm rfl)
  unfold placeElsewhere
  repeat' first
    | with_reducible first | exact writes_done | exact writes_nil | refine writes_cons ?_ ?_ | refine writes_seq ?_ ?_ | refine writes_look fun _ => ?_ | refine writes_when ?_ | refine writes_each fun _ => ?_ | refine writes_ite ?_ ?_ | exact c0 | exact c1 | exact c2 | exact c3 | refine writes_act (bit_mask hm ?_)
    | ((with_reducible show Nat.testBit _ (Eff.num _) = true); simp only [Eff.num]; rfl) | split | dsimp only

theorem placeShard_writes {m : Nat} (hm : 34460720807 &&& m = 34460720807) {a1 : _} {a2 : _} (h2 : (a2).Writes m) : (placeShard a1 a2).Writes m := by
  have c0 := @abandonHere_writes m (within_mask hm rfl)
  have c1 := @countDir_writes m (within_mask hm rfl)
  have c2 := @modCourse_writes m (within_mask hm rfl)
  unfold placeShard
  repeat' first
    | with_reducible first | exact writes_done | exact writes_nil | refine writes_cons ?_ ?_ | refine writes_seq ?_ ?_ | refine writes_look fun _ => ?_ | refine writes_when ?_ | refine writes_each fun _ => ?_ | refine writes_ite ?_ ?_ | exact c0 | exact c1 | exact c2 | exact h2 | refine writes_act (bit_mask hm ?_)
    | ((with_reducible show Nat.testBit _ (Eff.num _) = true); simp only [Eff.num]; rfl) | split | dsimp only

theorem selfFenced_writes {m : Nat} (hm : 52721286847 &&& m = 52721286847) {a1 : _} : (selfFenced a1).Writes m := by
  have c0 := @abandonHere_writes m (within_mask hm rfl)
  have c1 := @countReset_writes m (within_mask hm rfl)
  have c2 := @declareNow_writes m (within_mask hm rfl)
  have c3 := @modRst_writes m (within_mask hm rfl)
  have c4 := @modShore_writes m (within_mask hm rfl)
  have c5 := @shoreNotice_writes m (within_mask hm rfl)
  unfold selfFenced
  repeat' first
    | with_reducible first | exact writes_done | exact writes_nil | refine writes_cons ?_ ?_ | refine writes_seq ?_ ?_ | refine writes_look fun _ => ?_ | refine writes_when ?_ | refine writes_each fun _ => ?_ | refine writes_ite ?_ ?_ | exact c0 | exact c1 | exact c2 | exact c3 | exact c4 | exact c5 | refine writes_act (bit_mask hm ?_)
    | ((with_reducible show Nat.testBit _ (Eff.num _) = true); simp only [Eff.num]; rfl) | split | dsimp only

theorem unstage_writes {m : Nat} (hm : 51782811327 &&& m = 51782811327) {a1 : _} {a2 : _} {a3 : _} : (unstage a1 a2 a3).Writes m := by
  have c0 := @granuleAgain_writes m (within_mask hm rfl)
  have c1 := @granuleDone_writes m (within_mask hm rfl)
  have c2 := @integrityOwn_writes m (within_mask hm rfl)
  have c3 := @modCourse_writes m (within_mask hm rfl)
  have c4 := @moveChecked_writes m (within_mask hm rfl)
  have c5 := @placeElsewhere_writes m (within_mask hm rfl)
  unfold unstage
  repeat' first
    | with_reducible first | exact writes_done | exact writes_nil | refine writes_cons ?_ ?_ | refine writes_seq ?_ ?_ | refine writes_look fun _ => ?_ | refine writes_when ?_ | refine writes_each fun _ => ?_ | refine writes_ite ?_ ?_ | exact c0 | exact c1 | exact c2 | exact c3 | refine c4 ?_ ?_ | exact c5 | refine writes_act (bit_mask hm ?_)
    | ((with_reducible show Nat.testBit _ (Eff.num _) = true); simp only [Eff.num]; rfl) | split | dsimp only

theorem storeGranule_writes {m : Nat} (hm : 51782811327 &&& m = 51782811327) {a1 : _} {a2 : _} : (storeGranule a1 a2).Writes m := by
  have c0 := @granuleDone_writes m (within_mask hm rfl)
  have c1 := @integrityOwn_writes m (within_mask hm rfl)
  have c2 := @placeElsewhere_writes m (within_mask hm rfl)
  have c3 := @placeShard_writes m (within_mask hm rfl)
  have c4 := @positionLost_writes m (within_mask hm rfl)
  have c5 := @tallyClass_writes m (within_mask hm rfl)
  have c6 := @unstage_writes m (within_mask hm rfl)
  have c7 := @writePhys_writes m (within_mask hm rfl)
  unfold storeGranule
  repeat' first
    | with_reducible first | exact writes_done | exact writes_nil | refine writes_cons ?_ ?_ | refine writes_seq ?_ ?_ | refine writes_look fun _ => ?_ | refine writes_when ?_ | refine writes_each fun _ => ?_ | refine writes_ite ?_ ?_ | exact c0 | exact c1 | exact c2 | refine c3 ?_ | exact c4 | exact c5 | exact c6 | exact c7 | refine writes_act (bit_mask hm ?_)
    | ((with_reducible show Nat.testBit _ (Eff.num _) = true); simp only [Eff.num]; rfl) | split | dsimp only

theorem onPair_writes {m : Nat} (hm : 34359758337 &&& m = 34359758337) {a1 : _} {a2 : _} {a3 : _} {a4 : _} (h4 : (a4).Writes m) : (onPair a1 a2 a3 a4).Writes m := by
  have c0 := @heard_writes m (within_mask hm rfl)
  have c1 := @onNotice_writes m (within_mask hm rfl)
  have c2 := @pAnswer_writes m (within_mask hm rfl)
  unfold onPair
  repeat' first
    | with_reducible first | exact writes_done | exact writes_nil | refine writes_cons ?_ ?_ | refine writes_seq ?_ ?_ | refine writes_look fun _ => ?_ | refine writes_when ?_ | refine writes_each fun _ => ?_ | refine writes_ite ?_ ?_ | exact c0 | refine c1 ?_ | exact c2 | exact h4 | refine writes_act (bit_mask hm ?_)
    | ((with_reducible show Nat.testBit _ (Eff.num _) = true); simp only [Eff.num]; rfl) | split | dsimp only

theorem onPairOk_writes {m : Nat} (hm : 34359758337 &&& m = 34359758337) {a1 : _} {a2 : _} {a3 : _} {a4 : _} (h4 : (a4).Writes m) : (onPairOk a1 a2 a3 a4).Writes m := by
  have c0 := @onPair_writes m (within_mask hm rfl)
  have c1 := @pAnswer_writes m (within_mask hm rfl)
  unfold onPairOk
  repeat' first
    | with_reducible first | exact writes_done | exact writes_nil | refine writes_cons ?_ ?_ | refine writes_seq ?_ ?_ | refine writes_look fun _ => ?_ | refine writes_when ?_ | refine writes_each fun _ => ?_ | refine writes_ite ?_ ?_ | refine c0 ?_ | exact c1 | exact h4 | refine writes_act (bit_mask hm ?_)
    | ((with_reducible show Nat.testBit _ (Eff.num _) = true); simp only [Eff.num]; rfl) | split | dsimp only

theorem openFresh_writes {m : Nat} (hm : 34601238183 &&& m = 34601238183) {a1 : _} {a2 : _} : (openFresh a1 a2).Writes m := by
  have c0 := @openHere_writes m (within_mask hm rfl)
  unfold openFresh
  repeat' first
    | with_reducible first | exact writes_done | exact writes_nil | refine writes_cons ?_ ?_ | refine writes_seq ?_ ?_ | refine writes_look fun _ => ?_ | refine writes_when ?_ | refine writes_each fun _ => ?_ | refine writes_ite ?_ ?_ | exact c0 | refine writes_act (bit_mask hm ?_)
    | ((with_reducible show Nat.testBit _ (Eff.num _) = true); simp only [Eff.num]; rfl) | split | dsimp only

theorem orderAbandon_writes {m : Nat} (hm : 34460720807 &&& m = 34460720807) : (orderAbandon).Writes m := by
  have c0 := @abandonHere_writes m (within_mask hm rfl)
  unfold orderAbandon
  repeat' first
    | with_reducible first | exact writes_done | exact writes_nil | refine writes_cons ?_ ?_ | refine writes_seq ?_ ?_ | refine writes_look fun _ => ?_ | refine writes_when ?_ | refine writes_each fun _ => ?_ | refine writes_ite ?_ ?_ | exact c0 | refine writes_act (bit_mask hm ?_)
    | ((with_reducible show Nat.testBit _ (Eff.num _) = true); simp only [Eff.num]; rfl) | split | dsimp only

theorem requestCourse_writes {m : Nat} (hm : 34359758336 &&& m = 34359758336) : (requestCourse).Writes m := by
  have c0 := @tally_writes m (within_mask hm rfl)
  have c1 := @toRoot_writes m (within_mask hm rfl)
  unfold requestCourse
  repeat' first
    | with_reducible first | exact writes_done | exact writes_nil | refine writes_cons ?_ ?_ | refine writes_seq ?_ ?_ | refine writes_look fun _ => ?_ | refine writes_when ?_ | refine writes_each fun _ => ?_ | refine writes_ite ?_ ?_ | exact c0 | exact c1 | refine writes_act (bit_mask hm ?_)
    | ((with_reducible show Nat.testBit _ (Eff.num _) = true); simp only [Eff.num]; rfl) | split | dsimp only

theorem writeCrsCtrl_writes {m : Nat} (hm : 43050655399 &&& m = 43050655399) {a1 : _} : (writeCrsCtrl a1).Writes m := by
  have c0 := @orderAbandon_writes m (within_mask hm rfl)
  have c1 := @put_writes m (within_mask hm rfl)
  have c2 := @requestCourse_writes m (within_mask hm rfl)
  have c3 := @writePlain_writes m (within_mask hm rfl)
  unfold writeCrsCtrl
  repeat' first
    | with_reducible first | exact writes_done | exact writes_nil | refine writes_cons ?_ ?_ | refine writes_seq ?_ ?_ | refine writes_look fun _ => ?_ | refine writes_when ?_ | refine writes_each fun _ => ?_ | refine writes_ite ?_ ?_ | exact c0 | exact c1 | exact c2 | exact c3 | refine writes_act (bit_mask hm ?_)
    | ((with_reducible show Nat.testBit _ (Eff.num _) = true); simp only [Eff.num]; rfl) | split | dsimp only

theorem beginTraining_writes {m : Nat} (hm : 34366058497 &&& m = 34366058497) {a1 : _} : (beginTraining a1).Writes m := by
  have c0 := @bump_writes m (within_mask hm rfl)
  have c1 := @send_writes m (within_mask hm rfl)
  have c2 := @setPort_writes m (within_mask hm rfl)
  unfold beginTraining
  repeat' first
    | with_reducible first | exact writes_done | exact writes_nil | refine writes_cons ?_ ?_ | refine writes_seq ?_ ?_ | refine writes_look fun _ => ?_ | refine writes_when ?_ | refine writes_each fun _ => ?_ | refine writes_ite ?_ ?_ | exact c0 | exact c1 | exact c2 | refine writes_act (bit_mask hm ?_)
    | ((with_reducible show Nat.testBit _ (Eff.num _) = true); simp only [Eff.num]; rfl) | split | dsimp only

theorem endDetour_writes {m : Nat} (hm : 34366059009 &&& m = 34366059009) : (endDetour).Writes m := by
  have c0 := @beginTraining_writes m (within_mask hm rfl)
  have c1 := @modPort_writes m (within_mask hm rfl)
  have c2 := @put_writes m (within_mask hm rfl)
  have c3 := @setPort_writes m (within_mask hm rfl)
  unfold endDetour
  repeat' first
    | with_reducible first | exact writes_done | exact writes_nil | refine writes_cons ?_ ?_ | refine writes_seq ?_ ?_ | refine writes_look fun _ => ?_ | refine writes_when ?_ | refine writes_each fun _ => ?_ | refine writes_ite ?_ ?_ | exact c0 | exact c1 | exact c2 | exact c3 | refine writes_act (bit_mask hm ?_)
    | ((with_reducible show Nat.testBit _ (Eff.num _) = true); simp only [Eff.num]; rfl) | split | dsimp only

theorem takeMapByte_writes {m : Nat} (hm : 1 &&& m = 1) {a1 : _} : (takeMapByte a1).Writes m := by
  have c0 := @put_writes m (within_mask hm rfl)
  unfold takeMapByte
  repeat' first
    | with_reducible first | exact writes_done | exact writes_nil | refine writes_cons ?_ ?_ | refine writes_seq ?_ ?_ | refine writes_look fun _ => ?_ | refine writes_when ?_ | refine writes_each fun _ => ?_ | refine writes_ite ?_ ?_ | exact c0 | refine writes_act (bit_mask hm ?_)
    | ((with_reducible show Nat.testBit _ (Eff.num _) = true); simp only [Eff.num]; rfl) | split | dsimp only

theorem trainStandIn_writes {m : Nat} (hm : 34366058497 &&& m = 34366058497) : (trainStandIn).Writes m := by
  have c0 := @beginTraining_writes m (within_mask hm rfl)
  unfold trainStandIn
  repeat' first
    | with_reducible first | exact writes_done | exact writes_nil | refine writes_cons ?_ ?_ | refine writes_seq ?_ ?_ | refine writes_look fun _ => ?_ | refine writes_when ?_ | refine writes_each fun _ => ?_ | refine writes_ite ?_ ?_ | exact c0 | refine writes_act (bit_mask hm ?_)
    | ((with_reducible show Nat.testBit _ (Eff.num _) = true); simp only [Eff.num]; rfl) | split | dsimp only

theorem writeXcnCtrl_writes {m : Nat} (hm : 60130066433 &&& m = 60130066433) {a1 : _} : (writeXcnCtrl a1).Writes m := by
  have c0 := @complete_writes m (within_mask hm rfl)
  have c1 := @put_writes m (within_mask hm rfl)
  have c2 := @send_writes m (within_mask hm rfl)
  have c3 := @writePlain_writes m (within_mask hm rfl)
  have c4 := @xcnBegin_writes m (within_mask hm rfl)
  unfold writeXcnCtrl
  repeat' first
    | with_reducible first | exact writes_done | exact writes_nil | refine writes_cons ?_ ?_ | refine writes_seq ?_ ?_ | refine writes_look fun _ => ?_ | refine writes_when ?_ | refine writes_each fun _ => ?_ | refine writes_ite ?_ ?_ | exact c0 | exact c1 | exact c2 | exact c3 | exact c4 | refine writes_act (bit_mask hm ?_)
    | ((with_reducible show Nat.testBit _ (Eff.num _) = true); simp only [Eff.num]; rfl) | split | dsimp only

theorem writeXcnDetour_writes {m : Nat} (hm : 60130066433 &&& m = 60130066433) {a1 : _} : (writeXcnDetour a1).Writes m := by
  have c0 := @complete_writes m (within_mask hm rfl)
  have c1 := @put_writes m (within_mask hm rfl)
  have c2 := @writePlain_writes m (within_mask hm rfl)
  have c3 := @xcnQueue_writes m (within_mask hm rfl)
  unfold writeXcnDetour
  repeat' first
    | with_reducible first | exact writes_done | exact writes_nil | refine writes_cons ?_ ?_ | refine writes_seq ?_ ?_ | refine writes_look fun _ => ?_ | refine writes_when ?_ | refine writes_each fun _ => ?_ | refine writes_ite ?_ ?_ | exact c0 | exact c1 | exact c2 | exact c3 | refine writes_act (bit_mask hm ?_)
    | ((with_reducible show Nat.testBit _ (Eff.num _) = true); simp only [Eff.num]; rfl) | split | dsimp only

theorem xcnDone_writes {m : Nat} (hm : 34567945729 &&& m = 34567945729) {a1 : _} : (xcnDone a1).Writes m := by
  have c0 := @beginTraining_writes m (within_mask hm rfl)
  have c1 := @endDetour_writes m (within_mask hm rfl)
  have c2 := @modXcn_writes m (within_mask hm rfl)
  have c3 := @moveSettled_writes m (within_mask hm rfl)
  have c4 := @put_writes m (within_mask hm rfl)
  have c5 := @trainStandIn_writes m (within_mask hm rfl)
  unfold xcnDone
  repeat' first
    | with_reducible first | exact writes_done | exact writes_nil | refine writes_cons ?_ ?_ | refine writes_seq ?_ ?_ | refine writes_look fun _ => ?_ | refine writes_when ?_ | refine writes_each fun _ => ?_ | refine writes_ite ?_ ?_ | exact c0 | exact c1 | exact c2 | exact c3 | exact c4 | exact c5 | refine writes_act (bit_mask hm ?_)
    | ((with_reducible show Nat.testBit _ (Eff.num _) = true); simp only [Eff.num]; rfl) | split | dsimp only

theorem xcnFailed_writes {m : Nat} (hm : 51782811311 &&& m = 51782811311) {a1 : _} : (xcnFailed a1).Writes m := by
  have c0 := @moveFailed_writes m (within_mask hm rfl)
  unfold xcnFailed
  repeat' first
    | with_reducible first | exact writes_done | exact writes_nil | refine writes_cons ?_ ?_ | refine writes_seq ?_ ?_ | refine writes_look fun _ => ?_ | refine writes_when ?_ | refine writes_each fun _ => ?_ | refine writes_ite ?_ ?_ | exact c0 | refine writes_act (bit_mask hm ?_)
    | ((with_reducible show Nat.testBit _ (Eff.num _) = true); simp only [Eff.num]; rfl) | split | dsimp only

theorem xcnError_writes {m : Nat} (hm : 51782811311 &&& m = 51782811311) {a1 : _} : (xcnError a1).Writes m := by
  have c0 := @clearGo_writes m (within_mask hm rfl)
  have c1 := @modXcn_writes m (within_mask hm rfl)
  have c2 := @put_writes m (within_mask hm rfl)
  have c3 := @xcnFailed_writes m (within_mask hm rfl)
  unfold xcnError
  repeat' first
    | with_reducible first | exact writes_done | exact writes_nil | refine writes_cons ?_ ?_ | refine writes_seq ?_ ?_ | refine writes_look fun _ => ?_ | refine writes_when ?_ | refine writes_each fun _ => ?_ | refine writes_ite ?_ ?_ | exact c0 | exact c1 | exact c2 | exact c3 | refine writes_act (bit_mask hm ?_)
    | ((with_reducible show Nat.testBit _ (Eff.num _) = true); simp only [Eff.num]; rfl) | split | dsimp only

theorem addDir_writes {m : Nat} (hm : 33554433 &&& m = 33554433) {a1 : _} {a2 : _} : (addDir a1 a2).Writes m := by
  have c0 := @countDir_writes m (within_mask hm rfl)
  have c1 := @modCourse_writes m (within_mask hm rfl)
  unfold addDir
  repeat' first
    | with_reducible first | exact writes_done | exact writes_nil | refine writes_cons ?_ ?_ | refine writes_seq ?_ ?_ | refine writes_look fun _ => ?_ | refine writes_when ?_ | refine writes_each fun _ => ?_ | refine writes_ite ?_ ?_ | exact c0 | exact c1 | refine writes_act (bit_mask hm ?_)
    | ((with_reducible show Nat.testBit _ (Eff.num _) = true); simp only [Eff.num]; rfl) | split | dsimp only

theorem admissionEvent_writes {m : Nat} (hm : 34359758849 &&& m = 34359758849) {a1 : _} {a2 : _} : (admissionEvent a1 a2).Writes m := by
  have c0 := @notice_writes m (within_mask hm rfl)
  unfold admissionEvent
  repeat' first
    | with_reducible first | exact writes_done | exact writes_nil | refine writes_cons ?_ ?_ | refine writes_seq ?_ ?_ | refine writes_look fun _ => ?_ | refine writes_when ?_ | refine writes_each fun _ => ?_ | refine writes_ite ?_ ?_ | exact c0 | refine writes_act (bit_mask hm ?_)
    | ((with_reducible show Nat.testBit _ (Eff.num _) = true); simp only [Eff.num]; rfl) | split | dsimp only

theorem answerReserve_writes {m : Nat} (hm : 34896891392 &&& m = 34896891392) {a1 : _} {a2 : _} {a3 : _} {a4 : _} : (answerReserve a1 a2 a3 a4).Writes m := by
  have c0 := @modHold_writes m (within_mask hm rfl)
  have c1 := @modMmu_writes m (within_mask hm rfl)
  have c2 := @pAnswer_writes m (within_mask hm rfl)
  unfold answerReserve
  repeat' first
    | with_reducible first | exact writes_done | exact writes_nil | refine writes_cons ?_ ?_ | refine writes_seq ?_ ?_ | refine writes_look fun _ => ?_ | refine writes_when ?_ | refine writes_each fun _ => ?_ | refine writes_ite ?_ ?_ | exact c0 | exact c1 | exact c2 | refine writes_act (bit_mask hm ?_)
    | ((with_reducible show Nat.testBit _ (Eff.num _) = true); simp only [Eff.num]; rfl) | split | dsimp only

theorem putShard_writes {m : Nat} (hm : 34360806912 &&& m = 34360806912) {a1 : _} {a2 : _} {a3 : _} {a4 : _} {a5 : _} : (putShard a1 a2 a3 a4 a5).Writes m := by
  have c0 := @notify_writes m (within_mask hm rfl)
  have c1 := @sendBulk_writes m (within_mask hm rfl)
  have c2 := @withHandle_writes m (within_mask hm rfl)
  unfold putShard
  repeat' first
    | with_reducible first | exact writes_done | exact writes_nil | refine writes_cons ?_ ?_ | refine writes_seq ?_ ?_ | refine writes_look fun _ => ?_ | refine writes_when ?_ | refine writes_each fun _ => ?_ | refine writes_ite ?_ ?_ | exact c0 | exact c1 | refine c2 (fun _ => ?_) | refine writes_act (bit_mask hm ?_)
    | ((with_reducible show Nat.testBit _ (Eff.num _) = true); simp only [Eff.num]; rfl) | split | dsimp only

theorem answerWants_writes {m : Nat} (hm : 34629242368 &&& m = 34629242368) : (answerWants).Writes m := by
  have c0 := @modStart_writes m (within_mask hm rfl)
  have c1 := @putShard_writes m (within_mask hm rfl)
  unfold answerWants
  repeat' first
    | with_reducible first | exact writes_done | exact writes_nil | refine writes_cons ?_ ?_ | refine writes_seq ?_ ?_ | refine writes_look fun _ => ?_ | refine writes_when ?_ | refine writes_each fun _ => ?_ | refine writes_ite ?_ ?_ | exact c0 | exact c1 | refine writes_act (bit_mask hm ?_)
    | ((with_reducible show Nat.testBit _ (Eff.num _) = true); simp only [Eff.num]; rfl) | split | dsimp only

theorem askShard_writes {m : Nat} (hm : 34359758336 &&& m = 34359758336) {a1 : _} {a2 : _} {a3 : _} : (askShard a1 a2 a3).Writes m := by
  have c0 := @notify_writes m (within_mask hm rfl)
  unfold askShard
  repeat' first
    | with_reducible first | exact writes_done | exact writes_nil | refine writes_cons ?_ ?_ | refine writes_seq ?_ ?_ | refine writes_look fun _ => ?_ | refine writes_when ?_ | refine writes_each fun _ => ?_ | refine writes_ite ?_ ?_ | exact c0 | refine writes_act (bit_mask hm ?_)
    | ((with_reducible show Nat.testBit _ (Eff.num _) = true); simp only [Eff.num]; rfl) | split | dsimp only

theorem sendReady_writes {m : Nat} (hm : 34695302657 &&& m = 34695302657) {a1 : _} : (sendReady a1).Writes m := by
  have c0 := @modStart_writes m (within_mask hm rfl)
  have c1 := @put_writes m (within_mask hm rfl)
  have c2 := @sendRewound_writes m (within_mask hm rfl)
  have c3 := @toRoot_writes m (within_mask hm rfl)
  unfold sendReady
  repeat' first
    | with_reducible first | exact writes_done | exact writes_nil | refine writes_cons ?_ ?_ | refine writes_seq ?_ ?_ | refine writes_look fun _ => ?_ | refine writes_when ?_ | refine writes_each fun _ => ?_ | refine writes_ite ?_ ?_ | exact c0 | exact c1 | exact c2 | exact c3 | refine writes_act (bit_mask hm ?_)
    | ((with_reducible show Nat.testBit _ (Eff.num _) = true); simp only [Eff.num]; rfl) | split | dsimp only

theorem setPhase_writes {m : Nat} (hm : 1 &&& m = 1) {a1 : _} : (setPhase a1).Writes m := by
  have c0 := @put_writes m (within_mask hm rfl)
  unfold setPhase
  repeat' first
    | with_reducible first | exact writes_done | exact writes_nil | refine writes_cons ?_ ?_ | refine writes_seq ?_ ?_ | refine writes_look fun _ => ?_ | refine writes_when ?_ | refine writes_each fun _ => ?_ | refine writes_ite ?_ ?_ | exact c0 | refine writes_act (bit_mask hm ?_)
    | ((with_reducible show Nat.testBit _ (Eff.num _) = true); simp only [Eff.num]; rfl) | split | dsimp only

theorem checkLoaded_writes {m : Nat} (hm : 34695302657 &&& m = 34695302657) : (checkLoaded).Writes m := by
  have c0 := @checkRewound_writes m (within_mask hm rfl)
  have c1 := @modStart_writes m (within_mask hm rfl)
  have c2 := @put_writes m (within_mask hm rfl)
  have c3 := @sendReady_writes m (within_mask hm rfl)
  have c4 := @setPhase_writes m (within_mask hm rfl)
  have c5 := @setRStep_writes m (within_mask hm rfl)
  have c6 := @setSlot_writes m (within_mask hm rfl)
  unfold checkLoaded
  repeat' first
    | with_reducible first | exact writes_done | exact writes_nil | refine writes_cons ?_ ?_ | refine writes_seq ?_ ?_ | refine writes_look fun _ => ?_ | refine writes_when ?_ | refine writes_each fun _ => ?_ | refine writes_ite ?_ ?_ | exact c0 | exact c1 | exact c2 | exact c3 | exact c4 | exact c5 | exact c6 | refine writes_act (bit_mask hm ?_)
    | ((with_reducible show Nat.testBit _ (Eff.num _) = true); simp only [Eff.num]; rfl) | split | dsimp only

theorem loadSlot_writes {m : Nat} (hm : 34494006784 &&& m = 34494006784) {a1 : _} {a2 : _} {a3 : _} {a4 : _} : (loadSlot a1 a2 a3 a4).Writes m := by
  have c0 := @commitNote_writes m (within_mask hm rfl)
  have c1 := @loadShards_writes m (within_mask hm rfl)
  have c2 := @oReq_writes m (within_mask hm rfl)
  have c3 := @sendContextRegs_writes m (within_mask hm rfl)
  have c4 := @sendCounters_writes m (within_mask hm rfl)
  have c5 := @sendKey_writes m (within_mask hm rfl)
  have c6 := @sendRegions_writes m (within_mask hm rfl)
  have c7 := @sendSchedule_writes m (within_mask hm rfl)
  have c8 := @sendSelector_writes m (within_mask hm rfl)
  unfold loadSlot
  repeat' first
    | with_reducible first | exact writes_done | exact writes_nil | refine writes_cons ?_ ?_ | refine writes_seq ?_ ?_ | refine writes_look fun _ => ?_ | refine writes_when ?_ | refine writes_each fun _ => ?_ | refine writes_ite ?_ ?_ | exact c0 | exact c1 | exact c2 | exact c3 | exact c4 | exact c5 | exact c6 | exact c7 | exact c8 | refine writes_act (bit_mask hm ?_)
    | ((with_reducible show Nat.testBit _ (Eff.num _) = true); simp only [Eff.num]; rfl) | split | dsimp only

theorem sendFullMirror_writes {m : Nat} (hm : 34394361344 &&& m = 34394361344) {a1 : _} : (sendFullMirror a1).Writes m := by
  have c0 := @modCourse_writes m (within_mask hm rfl)
  have c1 := @sendBulk_writes m (within_mask hm rfl)
  have c2 := @sendMirror_writes m (within_mask hm rfl)
  have c3 := @tally_writes m (within_mask hm rfl)
  have c4 := @tallyClass_writes m (within_mask hm rfl)
  have c5 := @toPartner_writes m (within_mask hm rfl)
  have c6 := @withHandle_writes m (within_mask hm rfl)
  unfold sendFullMirror
  repeat' first
    | with_reducible first | exact writes_done | exact writes_nil | refine writes_cons ?_ ?_ | refine writes_seq ?_ ?_ | refine writes_look fun _ => ?_ | refine writes_when ?_ | refine writes_each fun _ => ?_ | refine writes_ite ?_ ?_ | exact c0 | exact c1 | exact c2 | exact c3 | exact c4 | exact c5 | refine c6 (fun _ => ?_) | refine writes_act (bit_mask hm ?_)
    | ((with_reducible show Nat.testBit _ (Eff.num _) = true); simp only [Eff.num]; rfl) | split | dsimp only

theorem beginLoading_writes {m : Nat} (hm : 34870459905 &&& m = 34870459905) {a1 : _} {a2 : _} {a3 : _} : (beginLoading a1 a2 a3).Writes m := by
  have c0 := @checkLoaded_writes m (within_mask hm rfl)
  have c1 := @checkShard_writes m (within_mask hm rfl)
  have c2 := @loadSlot_writes m (within_mask hm rfl)
  have c3 := @modStart_writes m (within_mask hm rfl)
  have c4 := @sendFullMirror_writes m (within_mask hm rfl)
  have c5 := @sendReady_writes m (within_mask hm rfl)
  have c6 := @setPhase_writes m (within_mask hm rfl)
  unfold beginLoading
  repeat' first
    | with_reducible first | exact writes_done | exact writes_nil | refine writes_cons ?_ ?_ | refine writes_seq ?_ ?_ | refine writes_look fun _ => ?_ | refine writes_when ?_ | refine writes_each fun _ => ?_ | refine writes_ite ?_ ?_ | exact c0 | exact c1 | exact c2 | exact c3 | exact c4 | exact c5 | exact c6 | refine writes_act (bit_mask hm ?_)
    | ((with_reducible show Nat.testBit _ (Eff.num _) = true); simp only [Eff.num]; rfl) | split | dsimp only

theorem checkCopies_writes {m : Nat} (hm : 34500276225 &&& m = 34500276225) {a1 : _} : (checkCopies a1).Writes m := by
  have c0 := @checkShard_writes m (within_mask hm rfl)
  have c1 := @integrityOwn_writes m (within_mask hm rfl)
  unfold checkCopies
  repeat' first
    | with_reducible first | exact writes_done | exact writes_nil | refine writes_cons ?_ ?_ | refine writes_seq ?_ ?_ | refine writes_look fun _ => ?_ | refine writes_when ?_ | refine writes_each fun _ => ?_ | refine writes_ite ?_ ?_ | exact c0 | exact c1 | refine writes_act (bit_mask hm ?_)
    | ((with_reducible show Nat.testBit _ (Eff.num _) = true); simp only [Eff.num]; rfl) | split | dsimp only

theorem closeSessions_writes {m : Nat} (hm : 34359758337 &&& m = 34359758337) : (closeSessions).Writes m := by
  have c0 := @countSessions_writes m (within_mask hm rfl)
  have c1 := @modPeer_writes m (within_mask hm rfl)
  have c2 := @pSend_writes m (within_mask hm rfl)
  unfold closeSessions
  repeat' first
    | with_reducible first | exact writes_done | exact writes_nil | refine writes_cons ?_ ?_ | refine writes_seq ?_ ?_ | refine writes_look fun _ => ?_ | refine writes_when ?_ | refine writes_each fun _ => ?_ | refine writes_ite ?_ ?_ | exact c0 | exact c1 | exact c2 | refine writes_act (bit_mask hm ?_)
    | ((with_reducible show Nat.testBit _ (Eff.num _) = true); simp only [Eff.num]; rfl) | split | dsimp only

theorem dropKept_writes {m : Nat} (hm : 33554439 &&& m = 33554439) : (dropKept).Writes m := by
  have c0 := @countDir_writes m (within_mask hm rfl)
  have c1 := @modCourse_writes m (within_mask hm rfl)
  have c2 := @put_writes m (within_mask hm rfl)
  have c3 := @zeroPhys_writes m (within_mask hm rfl)
  unfold dropKept
  repeat' first
    | with_reducible first | exact writes_done | exact writes_nil | refine writes_cons ?_ ?_ | refine writes_seq ?_ ?_ | refine writes_look fun _ => ?_ | refine writes_when ?_ | refine writes_each fun _ => ?_ | refine writes_ite ?_ ?_ | exact c0 | exact c1 | exact c2 | exact c3 | refine writes_act (bit_mask hm ?_)
    | ((with_reducible show Nat.testBit _ (Eff.num _) = true); simp only [Eff.num]; rfl) | split | dsimp only

theorem dropPackage_writes {m : Nat} (hm : 285212673 &&& m = 285212673) : (dropPackage).Writes m := by
  have c0 := @modJob_writes m (within_mask hm rfl)
  have c1 := @modStart_writes m (within_mask hm rfl)
  have c2 := @put_writes m (within_mask hm rfl)
  unfold dropPackage
  repeat' first
    | with_reducible first | exact writes_done | exact writes_nil | refine writes_cons ?_ ?_ | refine writes_seq ?_ ?_ | refine writes_look fun _ => ?_ | refine writes_when ?_ | refine writes_each fun _ => ?_ | refine writes_ite ?_ ?_ | exact c0 | exact c1 | exact c2 | refine writes_act (bit_mask hm ?_)
    | ((with_reducible show Nat.testBit _ (Eff.num _) = true); simp only [Eff.num]; rfl) | split | dsimp only

theorem modTaken_writes {m : Nat} (hm : 33554432 &&& m = 33554432) {a1 : _} : (modTaken a1).Writes m := by
  have c0 := @modCourse_writes m (within_mask hm rfl)
  unfold modTaken
  repeat' first
    | with_reducible first | exact writes_done | exact writes_nil | refine writes_cons ?_ ?_ | refine writes_seq ?_ ?_ | refine writes_look fun _ => ?_ | refine writes_when ?_ | refine writes_each fun _ => ?_ | refine writes_ite ?_ ?_ | exact c0 | refine writes_act (bit_mask hm ?_)
    | ((with_reducible show Nat.testBit _ (Eff.num _) = true); simp only [Eff.num]; rfl) | split | dsimp only

theorem intakeEnds_writes {m : Nat} (hm : 34870459911 &&& m = 34870459911) : (intakeEnds).Writes m := by
  have c0 := @answerWants_writes m (within_mask hm rfl)
  have c1 := @beginLoading_writes m (within_mask hm rfl)
  have c2 := @modTaken_writes m (within_mask hm rfl)
  have c3 := @writePhys_writes m (within_mask hm rfl)
  unfold intakeEnds
  repeat' first
    | with_reducible first | exact writes_done | exact writes_nil | refine writes_cons ?_ ?_ | refine writes_seq ?_ ?_ | refine writes_look fun _ => ?_ | refine writes_when ?_ | refine writes_each fun _ => ?_ | refine writes_ite ?_ ?_ | exact c0 | exact c1 | exact c2 | exact c3 | refine writes_act (bit_mask hm ?_)
    | ((with_reducible show Nat.testBit _ (Eff.num _) = true); simp only [Eff.num]; rfl) | split | dsimp only

theorem openTo_writes {m : Nat} (hm : 51549064705 &&& m = 51549064705) {a1 : _} : (openTo a1).Writes m := by
  have c0 := @modSync_writes m (within_mask hm rfl)
  have c1 := @openSession_writes m (within_mask hm rfl)
  unfold openTo
  repeat' first
    | with_reducible first | exact writes_done | exact writes_nil | refine writes_cons ?_ ?_ | refine writes_seq ?_ ?_ | refine writes_look fun _ => ?_ | refine writes_when ?_ | refine writes_each fun _ => ?_ | refine writes_ite ?_ ?_ | exact c0 | exact c1 | refine writes_act (bit_mask hm ?_)
    | ((with_reducible show Nat.testBit _ (Eff.num _) = true); simp only [Eff.num]; rfl) | split | dsimp only

theorem setImage_writes {m : Nat} (hm : 1 &&& m = 1) {a1 : _} {a2 : _} {a3 : _} : (setImage a1 a2 a3).Writes m := by
  unfold setImage
  repeat' first
    | with_reducible first | exact writes_done | exact writes_nil | refine writes_cons ?_ ?_ | refine writes_seq ?_ ?_ | refine writes_look fun _ => ?_ | refine writes_when ?_ | refine writes_each fun _ => ?_ | refine writes_ite ?_ ?_ | refine writes_act (bit_mask hm ?_)
    | ((with_reducible show Nat.testBit _ (Eff.num _) = true); simp only [Eff.num]; rfl) | split | dsimp only

theorem packageSettings_writes {m : Nat} (hm : 1 &&& m = 1) {a1 : _} : (packageSettings a1).Writes m := by
  have c0 := @put_writes m (within_mask hm rfl)
  have c1 := @setImage_writes m (within_mask hm rfl)
  unfold packageSettings
  repeat' first
    | with_reducible first | exact writes_done | exact writes_nil | refine writes_cons ?_ ?_ | refine writes_seq ?_ ?_ | refine writes_look fun _ => ?_ | refine writes_when ?_ | refine writes_each fun _ => ?_ | refine writes_ite ?_ ?_ | exact c0 | exact c1 | refine writes_act (bit_mask hm ?_)
    | ((with_reducible show Nat.testBit _ (Eff.num _) = true); simp only [Eff.num]; rfl) | split | dsimp only

theorem recordJob_writes {m : Nat} (hm : 34366058497 &&& m = 34366058497) {a1 : _} : (recordJob a1).Writes m := by
  have c0 := @record_writes m (within_mask hm rfl)
  unfold recordJob
  repeat' first
    | with_reducible first | exact writes_done | exact writes_nil | refine writes_cons ?_ ?_ | refine writes_seq ?_ ?_ | refine writes_look fun _ => ?_ | refine writes_when ?_ | refine writes_each fun _ => ?_ | refine writes_ite ?_ ?_ | exact c0 | refine writes_act (bit_mask hm ?_)
    | ((with_reducible show Nat.testBit _ (Eff.num _) = true); simp only [Eff.num]; rfl) | split | dsimp only

end Sys2Proof.Machine
end

