-- ==== Sys2Proof/Laws/Writes8.lean ====
section
/-! SUPPORT. What each shared operation writes (part 8): one lemma per operation, of the areas its effects name. -/

set_option maxRecDepth 16000

namespace Sys2Proof.Machine

theorem takeKept_writes {m : Nat} (hm : 34728857089 &&& m = 34728857089) {a1 : _} : (takeKept a1).Writes m := by
  have c0 := @askShard_writes m (within_mask hm rfl)
  have c1 := @modCourse_writes m (within_mask hm rfl)
  have c2 := @modStart_writes m (within_mask hm rfl)
  have c3 := @put_writes m (within_mask hm rfl)
  have c4 := @sendReady_writes m (within_mask hm rfl)
  unfold takeKept
  repeat' first
    | with_reducible first | exact writes_done | exact writes_nil | refine writes_cons ?_ ?_ | refine writes_seq ?_ ?_ | refine writes_look fun _ => ?_ | refine writes_when ?_ | refine writes_each fun _ => ?_ | refine writes_ite ?_ ?_ | exact c0 | exact c1 | exact c2 | exact c3 | exact c4 | refine writes_act (bit_mask hm ?_)
    | ((with_reducible show Nat.testBit _ (Eff.num _) = true); simp only [Eff.num]; rfl) | split | dsimp only

theorem enterWatch_writes {m : Nat} (hm : 52075888263 &&& m = 52075888263) : (enterWatch).Writes m := by
  have c0 := @admissionEvent_writes m (within_mask hm rfl)
  have c1 := @countDir_writes m (within_mask hm rfl)
  have c2 := @dropKept_writes m (within_mask hm rfl)
  have c3 := @enterRole_writes m (within_mask hm rfl)
  have c4 := @intakeEnds_writes m (within_mask hm rfl)
  have c5 := @modCourse_writes m (within_mask hm rfl)
  have c6 := @modJob_writes m (within_mask hm rfl)
  have c7 := @modMmu_writes m (within_mask hm rfl)
  have c8 := @modMode_writes m (within_mask hm rfl)
  have c9 := @modShore_writes m (within_mask hm rfl)
  have c10 := @modWit_writes m (within_mask hm rfl)
  have c11 := @notify_writes m (within_mask hm rfl)
  have c12 := @openTo_writes m (within_mask hm rfl)
  have c13 := @packageSettings_writes m (within_mask hm rfl)
  have c14 := @put_writes m (within_mask hm rfl)
  have c15 := @recordJob_writes m (within_mask hm rfl)
  have c16 := @setPhase_writes m (within_mask hm rfl)
  have c17 := @takeKept_writes m (within_mask hm rfl)
  have c18 := @takeShrCfg_writes m (within_mask hm rfl)
  have c19 := @toRoot_writes m (within_mask hm rfl)
  have c20 := @withFrees_writes m (within_mask hm rfl)
  unfold enterWatch
  repeat' first
    | with_reducible first | exact writes_done | exact writes_nil | refine writes_cons ?_ ?_ | refine writes_seq ?_ ?_ | refine writes_look fun _ => ?_ | refine writes_when ?_ | refine writes_each fun _ => ?_ | refine writes_ite ?_ ?_ | exact c0 | exact c1 | exact c2 | exact c3 | exact c4 | exact c5 | exact c6 | exact c7 | exact c8 | exact c9 | exact c10 | exact c11 | exact c12 | exact c13 | exact c14 | exact c15 | exact c16 | exact c17 | exact c18 | exact c19 | refine c20 (fun _ => ?_) | refine writes_act (bit_mask hm ?_)
    | ((with_reducible show Nat.testBit _ (Eff.num _) = true); simp only [Eff.num]; rfl) | split | dsimp only

theorem setTree_writes {m : Nat} (hm : 1 &&& m = 1) : (setTree).Writes m := by
  have c0 := @put_writes m (within_mask hm rfl)
  unfold setTree
  repeat' first
    | with_reducible first | exact writes_done | exact writes_nil | refine writes_cons ?_ ?_ | refine writes_seq ?_ ?_ | refine writes_look fun _ => ?_ | refine writes_when ?_ | refine writes_each fun _ => ?_ | refine writes_ite ?_ ?_ | exact c0 | refine writes_act (bit_mask hm ?_)
    | ((with_reducible show Nat.testBit _ (Eff.num _) = true); simp only [Eff.num]; rfl) | split | dsimp only

theorem sendChunk_writes {m : Nat} (hm : 34629242368 &&& m = 34629242368) {a1 : _} {a2 : _} : (sendChunk a1 a2).Writes m := by
  have c0 := @modStart_writes m (within_mask hm rfl)
  have c1 := @notify_writes m (within_mask hm rfl)
  have c2 := @sendBulk_writes m (within_mask hm rfl)
  have c3 := @withHandle_writes m (within_mask hm rfl)
  unfold sendChunk
  repeat' first
    | with_reducible first | exact writes_done | exact writes_nil | refine writes_cons ?_ ?_ | refine writes_seq ?_ ?_ | refine writes_look fun _ => ?_ | refine writes_when ?_ | refine writes_each fun _ => ?_ | refine writes_ite ?_ ?_ | exact c0 | exact c1 | exact c2 | refine c3 (fun _ => ?_) | refine writes_act (bit_mask hm ?_)
    | ((with_reducible show Nat.testBit _ (Eff.num _) = true); simp only [Eff.num]; rfl) | split | dsimp only

theorem spreadChunk_writes {m : Nat} (hm : 34629242368 &&& m = 34629242368) {a1 : _} : (spreadChunk a1).Writes m := by
  have c0 := @sendChunk_writes m (within_mask hm rfl)
  unfold spreadChunk
  repeat' first
    | with_reducible first | exact writes_done | exact writes_nil | refine writes_cons ?_ ?_ | refine writes_seq ?_ ?_ | refine writes_look fun _ => ?_ | refine writes_when ?_ | refine writes_each fun _ => ?_ | refine writes_ite ?_ ?_ | exact c0 | refine writes_act (bit_mask hm ?_)
    | ((with_reducible show Nat.testBit _ (Eff.num _) = true); simp only [Eff.num]; rfl) | split | dsimp only

theorem spreadAll_writes {m : Nat} (hm : 34629242368 &&& m = 34629242368) : (spreadAll).Writes m := by
  have c0 := @spreadChunk_writes m (within_mask hm rfl)
  unfold spreadAll
  repeat' first
    | with_reducible first | exact writes_done | exact writes_nil | refine writes_cons ?_ ?_ | refine writes_seq ?_ ?_ | refine writes_look fun _ => ?_ | refine writes_when ?_ | refine writes_each fun _ => ?_ | refine writes_ite ?_ ?_ | exact c0 | refine writes_act (bit_mask hm ?_)
    | ((with_reducible show Nat.testBit _ (Eff.num _) = true); simp only [Eff.num]; rfl) | split | dsimp only

theorem wantChunks_writes {m : Nat} (hm : 34359758336 &&& m = 34359758336) {a1 : _} : (wantChunks a1).Writes m := by
  have c0 := @notify_writes m (within_mask hm rfl)
  unfold wantChunks
  repeat' first
    | with_reducible first | exact writes_done | exact writes_nil | refine writes_cons ?_ ?_ | refine writes_seq ?_ ?_ | refine writes_look fun _ => ?_ | refine writes_when ?_ | refine writes_each fun _ => ?_ | refine writes_ite ?_ ?_ | exact c0 | refine writes_act (bit_mask hm ?_)
    | ((with_reducible show Nat.testBit _ (Eff.num _) = true); simp only [Eff.num]; rfl) | split | dsimp only

theorem learnMembers_writes {m : Nat} (hm : 51834277377 &&& m = 51834277377) : (learnMembers).Writes m := by
  have c0 := @modJob_writes m (within_mask hm rfl)
  have c1 := @openTo_writes m (within_mask hm rfl)
  have c2 := @put_writes m (within_mask hm rfl)
  have c3 := @setTree_writes m (within_mask hm rfl)
  have c4 := @spreadAll_writes m (within_mask hm rfl)
  have c5 := @wantChunks_writes m (within_mask hm rfl)
  unfold learnMembers
  repeat' first
    | with_reducible first | exact writes_done | exact writes_nil | refine writes_cons ?_ ?_ | refine writes_seq ?_ ?_ | refine writes_look fun _ => ?_ | refine writes_when ?_ | refine writes_each fun _ => ?_ | refine writes_ite ?_ ?_ | exact c0 | exact c1 | exact c2 | exact c3 | exact c4 | exact c5 | refine writes_act (bit_mask hm ?_)
    | ((with_reducible show Nat.testBit _ (Eff.num _) = true); simp only [Eff.num]; rfl) | split | dsimp only

theorem stopShoring_writes {m : Nat} (hm : 34428047503 &&& m = 34428047503) : (stopShoring).Writes m := by
  have c0 := @endTransit_writes m (within_mask hm rfl)
  have c1 := @fenceWindow_writes m (within_mask hm rfl)
  have c2 := @modShore_writes m (within_mask hm rfl)
  have c3 := @modTile_writes m (within_mask hm rfl)
  have c4 := @put_writes m (within_mask hm rfl)
  unfold stopShoring
  repeat' first
    | with_reducible first | exact writes_done | exact writes_nil | refine writes_cons ?_ ?_ | refine writes_seq ?_ ?_ | refine writes_look fun _ => ?_ | refine writes_when ?_ | refine writes_each fun _ => ?_ | refine writes_ite ?_ ?_ | exact c0 | exact c1 | exact c2 | exact c3 | exact c4 | refine writes_act (bit_mask hm ?_)
    | ((with_reducible show Nat.testBit _ (Eff.num _) = true); simp only [Eff.num]; rfl) | split | dsimp only

theorem releaseSlot_writes {m : Nat} (hm : 34359789057 &&& m = 34359789057) {a1 : _} : (releaseSlot a1).Writes m := by
  have c0 := @driveReset_writes m (within_mask hm rfl)
  have c1 := @modSlot_writes m (within_mask hm rfl)
  have c2 := @oReq_writes m (within_mask hm rfl)
  have c3 := @put_writes m (within_mask hm rfl)
  have c4 := @retireSlot_writes m (within_mask hm rfl)
  have c5 := @setSlot_writes m (within_mask hm rfl)
  unfold releaseSlot
  repeat' first
    | with_reducible first | exact writes_done | exact writes_nil | refine writes_cons ?_ ?_ | refine writes_seq ?_ ?_ | refine writes_look fun _ => ?_ | refine writes_when ?_ | refine writes_each fun _ => ?_ | refine writes_ite ?_ ?_ | exact c0 | exact c1 | exact c2 | exact c3 | exact c4 | exact c5 | refine writes_act (bit_mask hm ?_)
    | ((with_reducible show Nat.testBit _ (Eff.num _) = true); simp only [Eff.num]; rfl) | split | dsimp only

theorem teardownFenced_writes {m : Nat} (hm : 51818057217 &&& m = 51818057217) : (teardownFenced).Writes m := by
  have c0 := @modStart_writes m (within_mask hm rfl)
  have c1 := @notify_writes m (within_mask hm rfl)
  have c2 := @openTo_writes m (within_mask hm rfl)
  have c3 := @releaseSlot_writes m (within_mask hm rfl)
  have c4 := @setPhase_writes m (within_mask hm rfl)
  have c5 := @toPartner_writes m (within_mask hm rfl)
  have c6 := @xcnMove_writes m (within_mask hm rfl)
  unfold teardownFenced
  repeat' first
    | with_reducible first | exact writes_done | exact writes_nil | refine writes_cons ?_ ?_ | refine writes_seq ?_ ?_ | refine writes_look fun _ => ?_ | refine writes_when ?_ | refine writes_each fun _ => ?_ | refine writes_ite ?_ ?_ | exact c0 | exact c1 | exact c2 | exact c3 | exact c4 | exact c5 | exact c6 | refine writes_act (bit_mask hm ?_)
    | ((with_reducible show Nat.testBit _ (Eff.num _) = true); simp only [Eff.num]; rfl) | split | dsimp only

theorem orderTeardown_writes {m : Nat} (hm : 51942194863 &&& m = 51942194863) {a1 : _} {a2 : _} : (orderTeardown a1 a2).Writes m := by
  have c0 := @dropPackage_writes m (within_mask hm rfl)
  have c1 := @fenceSlot_writes m (within_mask hm rfl)
  have c2 := @modMode_writes m (within_mask hm rfl)
  have c3 := @modStart_writes m (within_mask hm rfl)
  have c4 := @orderAbandon_writes m (within_mask hm rfl)
  have c5 := @put_writes m (within_mask hm rfl)
  have c6 := @raise_writes m (within_mask hm rfl)
  have c7 := @recordJob_writes m (within_mask hm rfl)
  have c8 := @setPhase_writes m (within_mask hm rfl)
  have c9 := @setPort_writes m (within_mask hm rfl)
  have c10 := @stopShoring_writes m (within_mask hm rfl)
  have c11 := @teardownFenced_writes m (within_mask hm rfl)
  have c12 := @tellPartner_writes m (within_mask hm rfl)
  have c13 := @zeroPhys_writes m (within_mask hm rfl)
  unfold orderTeardown
  repeat' first
    | with_reducible first | exact writes_done | exact writes_nil | refine writes_cons ?_ ?_ | refine writes_seq ?_ ?_ | refine writes_look fun _ => ?_ | refine writes_when ?_ | refine writes_each fun _ => ?_ | refine writes_ite ?_ ?_ | exact c0 | exact c1 | exact c2 | exact c3 | exact c4 | exact c5 | exact c6 | exact c7 | exact c8 | exact c9 | exact c10 | exact c11 | exact c12 | exact c13 | refine writes_act (bit_mask hm ?_)
    | ((with_reducible show Nat.testBit _ (Eff.num _) = true); simp only [Eff.num]; rfl) | split | dsimp only

theorem refuseAdmission_writes {m : Nat} (hm : 34644975105 &&& m = 34644975105) {a1 : _} {a2 : _} : (refuseAdmission a1 a2).Writes m := by
  have c0 := @admissionEvent_writes m (within_mask hm rfl)
  have c1 := @dropPackage_writes m (within_mask hm rfl)
  have c2 := @put_writes m (within_mask hm rfl)
  have c3 := @setPhase_writes m (within_mask hm rfl)
  have c4 := @tellPartner_writes m (within_mask hm rfl)
  unfold refuseAdmission
  repeat' first
    | with_reducible first | exact writes_done | exact writes_nil | refine writes_cons ?_ ?_ | refine writes_seq ?_ ?_ | refine writes_look fun _ => ?_ | refine writes_when ?_ | refine writes_each fun _ => ?_ | refine writes_ite ?_ ?_ | exact c0 | exact c1 | exact c2 | exact c3 | exact c4 | refine writes_act (bit_mask hm ?_)
    | ((with_reducible show Nat.testBit _ (Eff.num _) = true); simp only [Eff.num]; rfl) | split | dsimp only

theorem tryCapacity_writes {m : Nat} (hm : 52075888263 &&& m = 52075888263) : (tryCapacity).Writes m := by
  have c0 := @enterWatch_writes m (within_mask hm rfl)
  have c1 := @refuseAdmission_writes m (within_mask hm rfl)
  unfold tryCapacity
  repeat' first
    | with_reducible first | exact writes_done | exact writes_nil | refine writes_cons ?_ ?_ | refine writes_seq ?_ ?_ | refine writes_look fun _ => ?_ | refine writes_when ?_ | refine writes_each fun _ => ?_ | refine writes_ite ?_ ?_ | exact c0 | exact c1 | refine writes_act (bit_mask hm ?_)
    | ((with_reducible show Nat.testBit _ (Eff.num _) = true); simp only [Eff.num]; rfl) | split | dsimp only

theorem packageComplete_writes {m : Nat} (hm : 52075888263 &&& m = 52075888263) : (packageComplete).Writes m := by
  have c0 := @modStart_writes m (within_mask hm rfl)
  have c1 := @refuseAdmission_writes m (within_mask hm rfl)
  have c2 := @setPhase_writes m (within_mask hm rfl)
  have c3 := @toPartner_writes m (within_mask hm rfl)
  have c4 := @tryCapacity_writes m (within_mask hm rfl)
  unfold packageComplete
  repeat' first
    | with_reducible first | exact writes_done | exact writes_nil | refine writes_cons ?_ ?_ | refine writes_seq ?_ ?_ | refine writes_look fun _ => ?_ | refine writes_when ?_ | refine writes_each fun _ => ?_ | refine writes_ite ?_ ?_ | exact c0 | exact c1 | exact c2 | exact c3 | exact c4 | refine writes_act (bit_mask hm ?_)
    | ((with_reducible show Nat.testBit _ (Eff.num _) = true); simp only [Eff.num]; rfl) | split | dsimp only

theorem placeEntry_writes {m : Nat} (hm : 34728857089 &&& m = 34728857089) {a1 : _} : (placeEntry a1).Writes m := by
  have c0 := @addDir_writes m (within_mask hm rfl)
  have c1 := @modTaken_writes m (within_mask hm rfl)
  have c2 := @sendReady_writes m (within_mask hm rfl)
  unfold placeEntry
  repeat' first
    | with_reducible first | exact writes_done | exact writes_nil | refine writes_cons ?_ ?_ | refine writes_seq ?_ ?_ | refine writes_look fun _ => ?_ | refine writes_when ?_ | refine writes_each fun _ => ?_ | refine writes_ite ?_ ?_ | exact c0 | exact c1 | exact c2 | refine writes_act (bit_mask hm ?_)
    | ((with_reducible show Nat.testBit _ (Eff.num _) = true); simp only [Eff.num]; rfl) | split | dsimp only

theorem releaseOut_writes {m : Nat} (hm : 34628224513 &&& m = 34628224513) {a1 : _} : (releaseOut a1).Writes m := by
  have c0 := @modStart_writes m (within_mask hm rfl)
  have c1 := @releaseSlot_writes m (within_mask hm rfl)
  unfold releaseOut
  repeat' first
    | with_reducible first | exact writes_done | exact writes_nil | refine writes_cons ?_ ?_ | refine writes_seq ?_ ?_ | refine writes_look fun _ => ?_ | refine writes_when ?_ | refine writes_each fun _ => ?_ | refine writes_ite ?_ ?_ | exact c0 | exact c1 | refine writes_act (bit_mask hm ?_)
    | ((with_reducible show Nat.testBit _ (Eff.num _) = true); simp only [Eff.num]; rfl) | split | dsimp only

theorem scrubFar_writes {m : Nat} (hm : 537133062 &&& m = 537133062) {a1 : _} {a2 : _} : (scrubFar a1 a2).Writes m := by
  have c0 := @modHold_writes m (within_mask hm rfl)
  have c1 := @modMmu_writes m (within_mask hm rfl)
  have c2 := @zeroPhys_writes m (within_mask hm rfl)
  unfold scrubFar
  repeat' first
    | with_reducible first | exact writes_done | exact writes_nil | refine writes_cons ?_ ?_ | refine writes_seq ?_ ?_ | refine writes_look fun _ => ?_ | refine writes_when ?_ | refine writes_each fun _ => ?_ | refine writes_ite ?_ ?_ | exact c0 | exact c1 | exact c2 | refine writes_act (bit_mask hm ?_)
    | ((with_reducible show Nat.testBit _ (Eff.num _) = true); simp only [Eff.num]; rfl) | split | dsimp only

theorem scrub_writes {m : Nat} (hm : 773063087 &&& m = 773063087) : (scrub).Writes m := by
  have c0 := @countDir_writes m (within_mask hm rfl)
  have c1 := @countOpen_writes m (within_mask hm rfl)
  have c2 := @dropWatch_writes m (within_mask hm rfl)
  have c3 := @freeTile_writes m (within_mask hm rfl)
  have c4 := @modAgent_writes m (within_mask hm rfl)
  have c5 := @modCourse_writes m (within_mask hm rfl)
  have c6 := @modMmu_writes m (within_mask hm rfl)
  have c7 := @modShore_writes m (within_mask hm rfl)
  have c8 := @modSync_writes m (within_mask hm rfl)
  have c9 := @modTile_writes m (within_mask hm rfl)
  have c10 := @modWit_writes m (within_mask hm rfl)
  have c11 := @put_writes m (within_mask hm rfl)
  have c12 := @scrubFar_writes m (within_mask hm rfl)
  have c13 := @zeroPhys_writes m (within_mask hm rfl)
  unfold scrub
  repeat' first
    | with_reducible first | exact writes_done | exact writes_nil | refine writes_cons ?_ ?_ | refine writes_seq ?_ ?_ | refine writes_look fun _ => ?_ | refine writes_when ?_ | refine writes_each fun _ => ?_ | refine writes_ite ?_ ?_ | exact c0 | exact c1 | exact c2 | exact c3 | exact c4 | exact c5 | exact c6 | exact c7 | exact c8 | exact c9 | exact c10 | exact c11 | exact c12 | exact c13 | refine writes_act (bit_mask hm ?_)
    | ((with_reducible show Nat.testBit _ (Eff.num _) = true); simp only [Eff.num]; rfl) | split | dsimp only

theorem scrubEnds_writes {m : Nat} (hm : 35424468911 &&& m = 35424468911) : (scrubEnds).Writes m := by
  have c0 := @answerReserve_writes m (within_mask hm rfl)
  have c1 := @closeSessions_writes m (within_mask hm rfl)
  have c2 := @discardGuests_writes m (within_mask hm rfl)
  have c3 := @dropPackage_writes m (within_mask hm rfl)
  have c4 := @enterRole_writes m (within_mask hm rfl)
  have c5 := @modHold_writes m (within_mask hm rfl)
  have c6 := @put_writes m (within_mask hm rfl)
  have c7 := @raise_writes m (within_mask hm rfl)
  have c8 := @recordJob_writes m (within_mask hm rfl)
  have c9 := @scrub_writes m (within_mask hm rfl)
  have c10 := @setPhase_writes m (within_mask hm rfl)
  have c11 := @tellPartner_writes m (within_mask hm rfl)
  have c12 := @toPartner_writes m (within_mask hm rfl)
  have c13 := @toRoot_writes m (within_mask hm rfl)
  unfold scrubEnds
  repeat' first
    | with_reducible first | exact writes_done | exact writes_nil | refine writes_cons ?_ ?_ | refine writes_seq ?_ ?_ | refine writes_look fun _ => ?_ | refine writes_when ?_ | refine writes_each fun _ => ?_ | refine writes_ite ?_ ?_ | exact c0 | exact c1 | exact c2 | exact c3 | exact c4 | exact c5 | exact c6 | exact c7 | exact c8 | exact c9 | exact c10 | exact c11 | exact c12 | exact c13 | refine writes_act (bit_mask hm ?_)
    | ((with_reducible show Nat.testBit _ (Eff.num _) = true); simp only [Eff.num]; rfl) | split | dsimp only

theorem wantEntry_writes {m : Nat} (hm : 34359758336 &&& m = 34359758336) {a1 : _} : (wantEntry a1).Writes m := by
  have c0 := @askShard_writes m (within_mask hm rfl)
  unfold wantEntry
  repeat' first
    | with_reducible first | exact writes_done | exact writes_nil | refine writes_cons ?_ ?_ | refine writes_seq ?_ ?_ | refine writes_look fun _ => ?_ | refine writes_when ?_ | refine writes_each fun _ => ?_ | refine writes_ite ?_ ?_ | exact c0 | refine writes_act (bit_mask hm ?_)
    | ((with_reducible show Nat.testBit _ (Eff.num _) = true); simp only [Eff.num]; rfl) | split | dsimp only

theorem shardCame_writes {m : Nat} (hm : 34870459911 &&& m = 34870459911) {a1 : _} : (shardCame a1).Writes m := by
  have c0 := @answerWants_writes m (within_mask hm rfl)
  have c1 := @intakeEnds_writes m (within_mask hm rfl)
  have c2 := @modStart_writes m (within_mask hm rfl)
  have c3 := @sendReady_writes m (within_mask hm rfl)
  have c4 := @wantEntry_writes m (within_mask hm rfl)
  unfold shardCame
  repeat' first
    | with_reducible first | exact writes_done | exact writes_nil | refine writes_cons ?_ ?_ | refine writes_seq ?_ ?_ | refine writes_look fun _ => ?_ | refine writes_when ?_ | refine writes_each fun _ => ?_ | refine writes_ite ?_ ?_ | exact c0 | exact c1 | exact c2 | exact c3 | exact c4 | refine writes_act (bit_mask hm ?_)
    | ((with_reducible show Nat.testBit _ (Eff.num _) = true); simp only [Eff.num]; rfl) | split | dsimp only

theorem shardBytes_writes {m : Nat} (hm : 34870459911 &&& m = 34870459911) {a1 : _} {a2 : _} {a3 : _} : (shardBytes a1 a2 a3).Writes m := by
  have c0 := @modStart_writes m (within_mask hm rfl)
  have c1 := @shardCame_writes m (within_mask hm rfl)
  have c2 := @writePhys_writes m (within_mask hm rfl)
  unfold shardBytes
  repeat' first
    | with_reducible first | exact writes_done | exact writes_nil | refine writes_cons ?_ ?_ | refine writes_seq ?_ ?_ | refine writes_look fun _ => ?_ | refine writes_when ?_ | refine writes_each fun _ => ?_ | refine writes_ite ?_ ?_ | exact c0 | exact c1 | exact c2 | refine writes_act (bit_mask hm ?_)
    | ((with_reducible show Nat.testBit _ (Eff.num _) = true); simp only [Eff.num]; rfl) | split | dsimp only

theorem takeChunk_writes {m : Nat} (hm : 51834277377 &&& m = 51834277377) {a1 : _} {a2 : _} : (takeChunk a1 a2).Writes m := by
  have c0 := @learnMembers_writes m (within_mask hm rfl)
  have c1 := @modStart_writes m (within_mask hm rfl)
  have c2 := @spreadChunk_writes m (within_mask hm rfl)
  unfold takeChunk
  repeat' first
    | with_reducible first | exact writes_done | exact writes_nil | refine writes_cons ?_ ?_ | refine writes_seq ?_ ?_ | refine writes_look fun _ => ?_ | refine writes_when ?_ | refine writes_each fun _ => ?_ | refine writes_ite ?_ ?_ | exact c0 | exact c1 | exact c2 | refine writes_act (bit_mask hm ?_)
    | ((with_reducible show Nat.testBit _ (Eff.num _) = true); simp only [Eff.num]; rfl) | split | dsimp only

theorem takeHead_writes {m : Nat} (hm : 34644975105 &&& m = 34644975105) : (takeHead).Writes m := by
  have c0 := @modStart_writes m (within_mask hm rfl)
  have c1 := @refuseAdmission_writes m (within_mask hm rfl)
  unfold takeHead
  repeat' first
    | with_reducible first | exact writes_done | exact writes_nil | refine writes_cons ?_ ?_ | refine writes_seq ?_ ?_ | refine writes_look fun _ => ?_ | refine writes_when ?_ | refine writes_each fun _ => ?_ | refine writes_ite ?_ ?_ | exact c0 | exact c1 | refine writes_act (bit_mask hm ?_)
    | ((with_reducible show Nat.testBit _ (Eff.num _) = true); simp only [Eff.num]; rfl) | split | dsimp only

theorem stageBytes_writes {m : Nat} (hm : 51834281473 &&& m = 51834281473) {a1 : _} {a2 : _} {a3 : _} : (stageBytes a1 a2 a3).Writes m := by
  have c0 := @modStart_writes m (within_mask hm rfl)
  have c1 := @takeChunk_writes m (within_mask hm rfl)
  have c2 := @takeHead_writes m (within_mask hm rfl)
  unfold stageBytes
  repeat' first
    | with_reducible first | exact writes_done | exact writes_nil | refine writes_cons ?_ ?_ | refine writes_seq ?_ ?_ | refine writes_look fun _ => ?_ | refine writes_when ?_ | refine writes_each fun _ => ?_ | refine writes_ite ?_ ?_ | exact c0 | exact c1 | exact c2 | refine writes_act (bit_mask hm ?_)
    | ((with_reducible show Nat.testBit _ (Eff.num _) = true); simp only [Eff.num]; rfl) | split | dsimp only

theorem started_writes {m : Nat} (hm : 34527567617 &&& m = 34527567617) {a1 : _} : (started a1).Writes m := by
  have c0 := @admitSlot_writes m (within_mask hm rfl)
  have c1 := @admitWitness_writes m (within_mask hm rfl)
  have c2 := @modCourse_writes m (within_mask hm rfl)
  have c3 := @openDue_writes m (within_mask hm rfl)
  have c4 := @put_writes m (within_mask hm rfl)
  have c5 := @refreshDir_writes m (within_mask hm rfl)
  have c6 := @setPhase_writes m (within_mask hm rfl)
  have c7 := @setSlot_writes m (within_mask hm rfl)
  unfold started
  repeat' first
    | with_reducible first | exact writes_done | exact writes_nil | refine writes_cons ?_ ?_ | refine writes_seq ?_ ?_ | refine writes_look fun _ => ?_ | refine writes_when ?_ | refine writes_each fun _ => ?_ | refine writes_ite ?_ ?_ | exact c0 | exact c1 | exact c2 | exact c3 | exact c4 | exact c5 | exact c6 | exact c7 | refine writes_act (bit_mask hm ?_)
    | ((with_reducible show Nat.testBit _ (Eff.num _) = true); simp only [Eff.num]; rfl) | split | dsimp only

theorem takeManifest_writes {m : Nat} (hm : 34728857089 &&& m = 34728857089) {a1 : _} {a2 : _} {a3 : _} : (takeManifest a1 a2 a3).Writes m := by
  have c0 := @modCourse_writes m (within_mask hm rfl)
  have c1 := @modStart_writes m (within_mask hm rfl)
  have c2 := @placeEntry_writes m (within_mask hm rfl)
  have c3 := @wantEntry_writes m (within_mask hm rfl)
  unfold takeManifest
  repeat' first
    | with_reducible first | exact writes_done | exact writes_nil | refine writes_cons ?_ ?_ | refine writes_seq ?_ ?_ | refine writes_look fun _ => ?_ | refine writes_when ?_ | refine writes_each fun _ => ?_ | refine writes_ite ?_ ?_ | exact c0 | exact c1 | exact c2 | exact c3 | refine writes_act (bit_mask hm ?_)
    | ((with_reducible show Nat.testBit _ (Eff.num _) = true); simp only [Eff.num]; rfl) | split | dsimp only

theorem teardownSlot_writes {m : Nat} (hm : 51818057217 &&& m = 51818057217) {a1 : _} : (teardownSlot a1).Writes m := by
  have c0 := @modStart_writes m (within_mask hm rfl)
  have c1 := @releaseOut_writes m (within_mask hm rfl)
  have c2 := @teardownFenced_writes m (within_mask hm rfl)
  unfold teardownSlot
  repeat' first
    | with_reducible first | exact writes_done | exact writes_nil | refine writes_cons ?_ ?_ | refine writes_seq ?_ ?_ | refine writes_look fun _ => ?_ | refine writes_when ?_ | refine writes_each fun _ => ?_ | refine writes_ite ?_ ?_ | exact c0 | exact c1 | exact c2 | refine writes_act (bit_mask hm ?_)
    | ((with_reducible show Nat.testBit _ (Eff.num _) = true); simp only [Eff.num]; rfl) | split | dsimp only

theorem admitAnswer_writes {m : Nat} (hm : 51782811327 &&& m = 51782811327) {a1 : _} {a2 : _} {a3 : _} : (admitAnswer a1 a2 a3).Writes m := by
  have c0 := @declareNow_writes m (within_mask hm rfl)
  have c1 := @handbackDone_writes m (within_mask hm rfl)
  have c2 := @handbackFails_writes m (within_mask hm rfl)
  have c3 := @slotAdmitted_writes m (within_mask hm rfl)
  unfold admitAnswer
  repeat' first
    | with_reducible first | exact writes_done | exact writes_nil | refine writes_cons ?_ ?_ | refine writes_seq ?_ ?_ | refine writes_look fun _ => ?_ | refine writes_when ?_ | refine writes_each fun _ => ?_ | refine writes_ite ?_ ?_ | exact c0 | exact c1 | exact c2 | exact c3 | refine writes_act (bit_mask hm ?_)
    | ((with_reducible show Nat.testBit _ (Eff.num _) = true); simp only [Eff.num]; rfl) | split | dsimp only

theorem agentAsk_writes {m : Nat} (hm : 34359789056 &&& m = 34359789056) {a1 : _} {a2 : _} {a3 : _} {a4 : _} {a5 : _} {a6 : _} {a7 : _} {a8 : _} : (agentAsk a1 a2 a3 a4 a5 a6 a7 a8).Writes m := by
  have c0 := @oReq_writes m (within_mask hm rfl)
  unfold agentAsk
  repeat' first
    | with_reducible first | exact writes_done | exact writes_nil | refine writes_cons ?_ ?_ | refine writes_seq ?_ ?_ | refine writes_look fun _ => ?_ | refine writes_when ?_ | refine writes_each fun _ => ?_ | refine writes_ite ?_ ?_ | exact c0 | refine writes_act (bit_mask hm ?_)
    | ((with_reducible show Nat.testBit _ (Eff.num _) = true); simp only [Eff.num]; rfl) | split | dsimp only

theorem agentAnswer_writes {m : Nat} (hm : 34359793153 &&& m = 34359793153) {a1 : _} {a2 : _} {a3 : _} {a4 : _} {a5 : _} {a6 : _} {a7 : _} {a8 : _} {a9 : _} {a10 : _} : (agentAnswer a1 a2 a3 a4 a5 a6 a7 a8 a9 a10).Writes m := by
  have c0 := @agentAsk_writes m (within_mask hm rfl)
  have c1 := @answer_writes m (within_mask hm rfl)
  unfold agentAnswer
  repeat' first
    | with_reducible first | exact writes_done | exact writes_nil | refine writes_cons ?_ ?_ | refine writes_seq ?_ ?_ | refine writes_look fun _ => ?_ | refine writes_when ?_ | refine writes_each fun _ => ?_ | refine writes_ite ?_ ?_ | exact c0 | exact c1 | refine writes_act (bit_mask hm ?_)
    | ((with_reducible show Nat.testBit _ (Eff.num _) = true); simp only [Eff.num]; rfl) | split | dsimp only

theorem armAnswer_writes {m : Nat} (hm : 34460720807 &&& m = 34460720807) {a1 : _} {a2 : _} {a3 : _} {a4 : _} : (armAnswer a1 a2 a3 a4).Writes m := by
  have c0 := @abandonHere_writes m (within_mask hm rfl)
  have c1 := @armSlot_writes m (within_mask hm rfl)
  have c2 := @modCourse_writes m (within_mask hm rfl)
  unfold armAnswer
  repeat' first
    | with_reducible first | exact writes_done | exact writes_nil | refine writes_cons ?_ ?_ | refine writes_seq ?_ ?_ | refine writes_look fun _ => ?_ | refine writes_when ?_ | refine writes_each fun _ => ?_ | refine writes_ite ?_ ?_ | exact c0 | exact c1 | exact c2 | refine writes_act (bit_mask hm ?_)
    | ((with_reducible show Nat.testBit _ (Eff.num _) = true); simp only [Eff.num]; rfl) | split | dsimp only

theorem coverAnswer_writes {m : Nat} (hm : 34426899969 &&& m = 34426899969) {a1 : _} {a2 : _} {a3 : _} : (coverAnswer a1 a2 a3).Writes m := by
  have c0 := @checkRewound_writes m (within_mask hm rfl)
  have c1 := @coverFails_writes m (within_mask hm rfl)
  have c2 := @oAgain_writes m (within_mask hm rfl)
  have c3 := @sendCounters_writes m (within_mask hm rfl)
  have c4 := @setRStep_writes m (within_mask hm rfl)
  unfold coverAnswer
  repeat' first
    | with_reducible first | exact writes_done | exact writes_nil | refine writes_cons ?_ ?_ | refine writes_seq ?_ ?_ | refine writes_look fun _ => ?_ | refine writes_when ?_ | refine writes_each fun _ => ?_ | refine writes_ite ?_ ?_ | exact c0 | exact c1 | exact c2 | exact c3 | exact c4 | refine writes_act (bit_mask hm ?_)
    | ((with_reducible show Nat.testBit _ (Eff.num _) = true); simp only [Eff.num]; rfl) | split | dsimp only

theorem drainAnswer_writes {m : Nat} (hm : 34393343488 &&& m = 34393343488) {a1 : _} {a2 : _} : (drainAnswer a1 a2).Writes m := by
  have c0 := @drain_writes m (within_mask hm rfl)
  have c1 := @dropGranules_writes m (within_mask hm rfl)
  have c2 := @setAsked_writes m (within_mask hm rfl)
  unfold drainAnswer
  repeat' first
    | with_reducible first | exact writes_done | exact writes_nil | refine writes_cons ?_ ?_ | refine writes_seq ?_ ?_ | refine writes_look fun _ => ?_ | refine writes_when ?_ | refine writes_each fun _ => ?_ | refine writes_ite ?_ ?_ | exact c0 | exact c1 | exact c2 | refine writes_act (bit_mask hm ?_)
    | ((with_reducible show Nat.testBit _ (Eff.num _) = true); simp only [Eff.num]; rfl) | split | dsimp only

theorem handbackAnswer_writes {m : Nat} (hm : 51782549033 &&& m = 51782549033) {a1 : _} {a2 : _} {a3 : _} : (handbackAnswer a1 a2 a3).Writes m := by
  have c0 := @checkRewound_writes m (within_mask hm rfl)
  have c1 := @handbackFails_writes m (within_mask hm rfl)
  have c2 := @oAgain_writes m (within_mask hm rfl)
  unfold handbackAnswer
  repeat' first
    | with_reducible first | exact writes_done | exact writes_nil | refine writes_cons ?_ ?_ | refine writes_seq ?_ ?_ | refine writes_look fun _ => ?_ | refine writes_when ?_ | refine writes_each fun _ => ?_ | refine writes_ite ?_ ?_ | exact c0 | exact c1 | exact c2 | refine writes_act (bit_mask hm ?_)
    | ((with_reducible show Nat.testBit _ (Eff.num _) = true); simp only [Eff.num]; rfl) | split | dsimp only

theorem loadAnswer_writes {m : Nat} (hm : 34695335425 &&& m = 34695335425) {a1 : _} {a2 : _} {a3 : _} : (loadAnswer a1 a2 a3).Writes m := by
  have c0 := @checkLoaded_writes m (within_mask hm rfl)
  have c1 := @oAgain_writes m (within_mask hm rfl)
  have c2 := @sendCounters_writes m (within_mask hm rfl)
  have c3 := @sendReady_writes m (within_mask hm rfl)
  unfold loadAnswer
  repeat' first
    | with_reducible first | exact writes_done | exact writes_nil | refine writes_cons ?_ ?_ | refine writes_seq ?_ ?_ | refine writes_look fun _ => ?_ | refine writes_when ?_ | refine writes_each fun _ => ?_ | refine writes_ite ?_ ?_ | exact c0 | exact c1 | exact c2 | exact c3 | refine writes_act (bit_mask hm ?_)
    | ((with_reducible show Nat.testBit _ (Eff.num _) = true); simp only [Eff.num]; rfl) | split | dsimp only

theorem markAnswer_writes {m : Nat} (hm : 51781762751 &&& m = 51781762751) {a1 : _} {a2 : _} {a3 : _} {a4 : _} : (markAnswer a1 a2 a3 a4).Writes m := by
  have c0 := @abandonHere_writes m (within_mask hm rfl)
  have c1 := @modCourse_writes m (within_mask hm rfl)
  have c2 := @oReq_writes m (within_mask hm rfl)
  have c3 := @sendKey_writes m (within_mask hm rfl)
  have c4 := @settleShard_writes m (within_mask hm rfl)
  have c5 := @slotEvent_writes m (within_mask hm rfl)
  unfold markAnswer
  repeat' first
    | with_reducible first | exact writes_done | exact writes_nil | refine writes_cons ?_ ?_ | refine writes_seq ?_ ?_ | refine writes_look fun _ => ?_ | refine writes_when ?_ | refine writes_each fun _ => ?_ | refine writes_ite ?_ ?_ | exact c0 | exact c1 | exact c2 | exact c3 | exact c4 | exact c5 | refine writes_act (bit_mask hm ?_)
    | ((with_reducible show Nat.testBit _ (Eff.num _) = true); simp only [Eff.num]; rfl) | split | dsimp only

theorem rearm_writes {m : Nat} (hm : 34393343488 &&& m = 34393343488) {a1 : _} : (rearm a1).Writes m := by
  have c0 := @armSlot_writes m (within_mask hm rfl)
  have c1 := @modCourse_writes m (within_mask hm rfl)
  unfold rearm
  repeat' first
    | with_reducible first | exact writes_done | exact writes_nil | refine writes_cons ?_ ?_ | refine writes_seq ?_ ?_ | refine writes_look fun _ => ?_ | refine writes_when ?_ | refine writes_each fun _ => ?_ | refine writes_ite ?_ ?_ | exact c0 | exact c1 | refine writes_act (bit_mask hm ?_)
    | ((with_reducible show Nat.testBit _ (Eff.num _) = true); simp only [Eff.num]; rfl) | split | dsimp only

theorem rewindAnswer_writes {m : Nat} (hm : 51647545023 &&& m = 51647545023) {a1 : _} {a2 : _} {a3 : _} : (rewindAnswer a1 a2 a3).Writes m := by
  have c0 := @checkRewound_writes m (within_mask hm rfl)
  have c1 := @commitNote_writes m (within_mask hm rfl)
  have c2 := @declareNow_writes m (within_mask hm rfl)
  have c3 := @oAgain_writes m (within_mask hm rfl)
  have c4 := @sendCounters_writes m (within_mask hm rfl)
  have c5 := @setRStep_writes m (within_mask hm rfl)
  have c6 := @setSlots_writes m (within_mask hm rfl)
  unfold rewindAnswer
  repeat' first
    | with_reducible first | exact writes_done | exact writes_nil | refine writes_cons ?_ ?_ | refine writes_seq ?_ ?_ | refine writes_look fun _ => ?_ | refine writes_when ?_ | refine writes_each fun _ => ?_ | refine writes_ite ?_ ?_ | exact c0 | exact c1 | exact c2 | exact c3 | exact c4 | exact c5 | exact c6 | refine writes_act (bit_mask hm ?_)
    | ((with_reducible show Nat.testBit _ (Eff.num _) = true); simp only [Eff.num]; rfl) | split | dsimp only

theorem stageBlock_writes {m : Nat} (hm : 33554438 &&& m = 33554438) {a1 : _} {a2 : _} {a3 : _} {a4 : _} {a5 : _} {a6 : _} : (stageBlock a1 a2 a3 a4 a5 a6).Writes m := by
  have c0 := @modCourse_writes m (within_mask hm rfl)
  have c1 := @writePhys_writes m (within_mask hm rfl)
  unfold stageBlock
  repeat' first
    | with_reducible first | exact writes_done | exact writes_nil | refine writes_cons ?_ ?_ | refine writes_seq ?_ ?_ | refine writes_look fun _ => ?_ | refine writes_when ?_ | refine writes_each fun _ => ?_ | refine writes_ite ?_ ?_ | exact c0 | exact c1 | refine writes_act (bit_mask hm ?_)
    | ((with_reducible show Nat.testBit _ (Eff.num _) = true); simp only [Eff.num]; rfl) | split | dsimp only

theorem deliver_writes {m : Nat} (hm : 34359739393 &&& m = 34359739393) {a1 : _} {a2 : _} : (deliver a1 a2).Writes m := by
  have c0 := @bump_writes m (within_mask hm rfl)
  have c1 := @modStream_writes m (within_mask hm rfl)
  have c2 := @send_writes m (within_mask hm rfl)
  unfold deliver
  repeat' first
    | with_reducible first | exact writes_done | exact writes_nil | refine writes_cons ?_ ?_ | refine writes_seq ?_ ?_ | refine writes_look fun _ => ?_ | refine writes_when ?_ | refine writes_each fun _ => ?_ | refine writes_ite ?_ ?_ | exact c0 | exact c1 | exact c2 | refine writes_act (bit_mask hm ?_)
    | ((with_reducible show Nat.testBit _ (Eff.num _) = true); simp only [Eff.num]; rfl) | split | dsimp only

theorem setLocked_writes {m : Nat} (hm : 34366058497 &&& m = 34366058497) {a1 : _} : (setLocked a1).Writes m := by
  have c0 := @put_writes m (within_mask hm rfl)
  have c1 := @raise_writes m (within_mask hm rfl)
  have c2 := @record_writes m (within_mask hm rfl)
  unfold setLocked
  repeat' first
    | with_reducible first | exact writes_done | exact writes_nil | refine writes_cons ?_ ?_ | refine writes_seq ?_ ?_ | refine writes_look fun _ => ?_ | refine writes_when ?_ | refine writes_each fun _ => ?_ | refine writes_ite ?_ ?_ | exact c0 | exact c1 | exact c2 | refine writes_act (bit_mask hm ?_)
    | ((with_reducible show Nat.testBit _ (Eff.num _) = true); simp only [Eff.num]; rfl) | split | dsimp only

theorem discipline_writes {m : Nat} (hm : 38661025793 &&& m = 38661025793) {a1 : _} : (discipline a1).Writes m := by
  have c0 := @modObs_writes m (within_mask hm rfl)
  have c1 := @put_writes m (within_mask hm rfl)
  have c2 := @setLocked_writes m (within_mask hm rfl)
  unfold discipline
  repeat' first
    | with_reducible first | exact writes_done | exact writes_nil | refine writes_cons ?_ ?_ | refine writes_seq ?_ ?_ | refine writes_look fun _ => ?_ | refine writes_when ?_ | refine writes_each fun _ => ?_ | refine writes_ite ?_ ?_ | exact c0 | exact c1 | exact c2 | refine writes_act (bit_mask hm ?_)
    | ((with_reducible show Nat.testBit _ (Eff.num _) = true); simp only [Eff.num]; rfl) | split | dsimp only

theorem resendMsgs_writes {m : Nat} (hm : 34359738880 &&& m = 34359738880) {a1 : _} : (resendMsgs a1).Writes m := by
  have c0 := @modPort_writes m (within_mask hm rfl)
  have c1 := @pumpPort_writes m (within_mask hm rfl)
  unfold resendMsgs
  repeat' first
    | with_reducible first | exact writes_done | exact writes_nil | refine writes_cons ?_ ?_ | refine writes_seq ?_ ?_ | refine writes_look fun _ => ?_ | refine writes_when ?_ | refine writes_each fun _ => ?_ | refine writes_ite ?_ ?_ | exact c0 | exact c1 | refine writes_act (bit_mask hm ?_)
    | ((with_reducible show Nat.testBit _ (Eff.num _) = true); simp only [Eff.num]; rfl) | split | dsimp only

theorem resendOn_writes {m : Nat} (hm : 34359738880 &&& m = 34359738880) {a1 : _} : (resendOn a1).Writes m := by
  have c0 := @modPort_writes m (within_mask hm rfl)
  have c1 := @resendMsgs_writes m (within_mask hm rfl)
  unfold resendOn
  repeat' first
    | with_reducible first | exact writes_done | exact writes_nil | refine writes_cons ?_ ?_ | refine writes_seq ?_ ?_ | refine writes_look fun _ => ?_ | refine writes_when ?_ | refine writes_each fun _ => ?_ | refine writes_ite ?_ ?_ | exact c0 | exact c1 | refine writes_act (bit_mask hm ?_)
    | ((with_reducible show Nat.testBit _ (Eff.num _) = true); simp only [Eff.num]; rfl) | split | dsimp only

theorem takeDetour_writes {m : Nat} (hm : 51546452481 &&& m = 51546452481) {a1 : _} : (takeDetour a1).Writes m := by
  have c0 := @put_writes m (within_mask hm rfl)
  have c1 := @resendOn_writes m (within_mask hm rfl)
  have c2 := @setPort_writes m (within_mask hm rfl)
  have c3 := @xcnQueue_writes m (within_mask hm rfl)
  unfold takeDetour
  repeat' first
    | with_reducible first | exact writes_done | exact writes_nil | refine writes_cons ?_ ?_ | refine writes_seq ?_ ?_ | refine writes_look fun _ => ?_ | refine writes_when ?_ | refine writes_each fun _ => ?_ | refine writes_ite ?_ ?_ | exact c0 | exact c1 | exact c2 | exact c3 | refine writes_act (bit_mask hm ?_)
    | ((with_reducible show Nat.testBit _ (Eff.num _) = true); simp only [Eff.num]; rfl) | split | dsimp only

theorem portDown_writes {m : Nat} (hm : 51546452481 &&& m = 51546452481) {a1 : _} {a2 : _} : (portDown a1 a2).Writes m := by
  have c0 := @put_writes m (within_mask hm rfl)
  have c1 := @resendOn_writes m (within_mask hm rfl)
  have c2 := @setPort_writes m (within_mask hm rfl)
  have c3 := @takeDetour_writes m (within_mask hm rfl)
  unfold portDown
  repeat' first
    | with_reducible first | exact writes_done | exact writes_nil | refine writes_cons ?_ ?_ | refine writes_seq ?_ ?_ | refine writes_look fun _ => ?_ | refine writes_when ?_ | refine writes_each fun _ => ?_ | refine writes_ite ?_ ?_ | exact c0 | exact c1 | exact c2 | exact c3 | refine writes_act (bit_mask hm ?_)
    | ((with_reducible show Nat.testBit _ (Eff.num _) = true); simp only [Eff.num]; rfl) | split | dsimp only

theorem relane_writes {m : Nat} (hm : 51546452481 &&& m = 51546452481) {a1 : _} {a2 : _} : (relane a1 a2).Writes m := by
  have c0 := @portDown_writes m (within_mask hm rfl)
  have c1 := @setPort_writes m (within_mask hm rfl)
  have c2 := @takeDetour_writes m (within_mask hm rfl)
  unfold relane
  repeat' first
    | with_reducible first | exact writes_done | exact writes_nil | refine writes_cons ?_ ?_ | refine writes_seq ?_ ?_ | refine writes_look fun _ => ?_ | refine writes_when ?_ | refine writes_each fun _ => ?_ | refine writes_ite ?_ ?_ | exact c0 | exact c1 | exact c2 | refine writes_act (bit_mask hm ?_)
    | ((with_reducible show Nat.testBit _ (Eff.num _) = true); simp only [Eff.num]; rfl) | split | dsimp only

theorem sendLanemap_writes {m : Nat} (hm : 34359738368 &&& m = 34359738368) {a1 : _} : (sendLanemap a1).Writes m := by
  have c0 := @send_writes m (within_mask hm rfl)
  unfold sendLanemap
  repeat' first
    | with_reducible first | exact writes_done | exact writes_nil | refine writes_cons ?_ ?_ | refine writes_seq ?_ ?_ | refine writes_look fun _ => ?_ | refine writes_when ?_ | refine writes_each fun _ => ?_ | refine writes_ite ?_ ?_ | exact c0 | refine writes_act (bit_mask hm ?_)
    | ((with_reducible show Nat.testBit _ (Eff.num _) = true); simp only [Eff.num]; rfl) | split | dsimp only

theorem dropLane_writes {m : Nat} (hm : 51580009985 &&& m = 51580009985) {a1 : _} {a2 : _} {a3 : _} : (dropLane a1 a2 a3).Writes m := by
  have c0 := @bump_writes m (within_mask hm rfl)
  have c1 := @laneWatch_writes m (within_mask hm rfl)
  have c2 := @modPort_writes m (within_mask hm rfl)
  have c3 := @relane_writes m (within_mask hm rfl)
  have c4 := @sendLanemap_writes m (within_mask hm rfl)
  unfold dropLane
  repeat' first
    | with_reducible first | exact writes_done | exact writes_nil | refine writes_cons ?_ ?_ | refine writes_seq ?_ ?_ | refine writes_look fun _ => ?_ | refine writes_when ?_ | refine writes_each fun _ => ?_ | refine writes_ite ?_ ?_ | exact c0 | exact c1 | exact c2 | exact c3 | exact c4 | refine writes_act (bit_mask hm ?_)
    | ((with_reducible show Nat.testBit _ (Eff.num _) = true); simp only [Eff.num]; rfl) | split | dsimp only

theorem freshOrigin_writes {m : Nat} (hm : 34360808961 &&& m = 34360808961) {a1 : _} : (freshOrigin a1).Writes m := by
  have c0 := @closeLost_writes m (within_mask hm rfl)
  have c1 := @modPort_writes m (within_mask hm rfl)
  unfold freshOrigin
  repeat' first
    | with_reducible first | exact writes_done | exact writes_nil | refine writes_cons ?_ ?_ | refine writes_seq ?_ ?_ | refine writes_look fun _ => ?_ | refine writes_when ?_ | refine writes_each fun _ => ?_ | refine writes_ite ?_ ?_ | exact c0 | exact c1 | refine writes_act (bit_mask hm ?_)
    | ((with_reducible show Nat.testBit _ (Eff.num _) = true); simp only [Eff.num]; rfl) | split | dsimp only

theorem sendNak_writes {m : Nat} (hm : 34359738880 &&& m = 34359738880) {a1 : _} : (sendNak a1).Writes m := by
  have c0 := @modPort_writes m (within_mask hm rfl)
  have c1 := @send_writes m (within_mask hm rfl)
  unfold sendNak
  repeat' first
    | with_reducible first | exact writes_done | exact writes_nil | refine writes_cons ?_ ?_ | refine writes_seq ?_ ?_ | refine writes_look fun _ => ?_ | refine writes_when ?_ | refine writes_each fun _ => ?_ | refine writes_ite ?_ ?_ | exact c0 | exact c1 | refine writes_act (bit_mask hm ?_)
    | ((with_reducible show Nat.testBit _ (Eff.num _) = true); simp only [Eff.num]; rfl) | split | dsimp only

theorem gapNak_writes {m : Nat} (hm : 34359738880 &&& m = 34359738880) {a1 : _} : (gapNak a1).Writes m := by
  have c0 := @sendNak_writes m (within_mask hm rfl)
  unfold gapNak
  repeat' first
    | with_reducible first | exact writes_done | exact writes_nil | refine writes_cons ?_ ?_ | refine writes_seq ?_ ?_ | refine writes_look fun _ => ?_ | refine writes_when ?_ | refine writes_each fun _ => ?_ | refine writes_ite ?_ ?_ | exact c0 | refine writes_act (bit_mask hm ?_)
    | ((with_reducible show Nat.testBit _ (Eff.num _) = true); simp only [Eff.num]; rfl) | split | dsimp only

theorem laneFailed_writes {m : Nat} (hm : 51580009985 &&& m = 51580009985) {a1 : _} {a2 : _} : (laneFailed a1 a2).Writes m := by
  have c0 := @dropLane_writes m (within_mask hm rfl)
  have c1 := @modPort_writes m (within_mask hm rfl)
  unfold laneFailed
  repeat' first
    | with_reducible first | exact writes_done | exact writes_nil | refine writes_cons ?_ ?_ | refine writes_seq ?_ ?_ | refine writes_look fun _ => ?_ | refine writes_when ?_ | refine writes_each fun _ => ?_ | refine writes_ite ?_ ?_ | exact c0 | exact c1 | refine writes_act (bit_mask hm ?_)
    | ((with_reducible show Nat.testBit _ (Eff.num _) = true); simp only [Eff.num]; rfl) | split | dsimp only

end Sys2Proof.Machine
end

