-- ==== Sys2Proof/Laws/Writes9.lean ====
section
/-! SUPPORT. What each shared operation writes (part 9): one lemma per operation, of the areas its effects name. -/

set_option maxRecDepth 16000

namespace Sys2Proof.Machine

theorem replay_writes {m : Nat} (hm : 34359738913 &&& m = 34359738913) {a1 : _} : (replay a1).Writes m := by
  have c0 := @bump_writes m (within_mask hm rfl)
  have c1 := @modAgent_writes m (within_mask hm rfl)
  have c2 := @modPort_writes m (within_mask hm rfl)
  have c3 := @send_writes m (within_mask hm rfl)
  have c4 := @sendFlits_writes m (within_mask hm rfl)
  unfold replay
  repeat' first
    | with_reducible first | exact writes_done | exact writes_nil | refine writes_cons ?_ ?_ | refine writes_seq ?_ ?_ | refine writes_look fun _ => ?_ | refine writes_when ?_ | refine writes_each fun _ => ?_ | refine writes_ite ?_ ?_ | exact c0 | exact c1 | exact c2 | exact c3 | exact c4 | refine writes_act (bit_mask hm ?_)
    | ((with_reducible show Nat.testBit _ (Eff.num _) = true); simp only [Eff.num]; rfl) | split | dsimp only

theorem setFar_writes {m : Nat} (hm : 1 &&& m = 1) {a1 : _} {a2 : _} : (setFar a1 a2).Writes m := by
  have c0 := @put_writes m (within_mask hm rfl)
  unfold setFar
  repeat' first
    | with_reducible first | exact writes_done | exact writes_nil | refine writes_cons ?_ ?_ | refine writes_seq ?_ ?_ | refine writes_look fun _ => ?_ | refine writes_when ?_ | refine writes_each fun _ => ?_ | refine writes_ite ?_ ?_ | exact c0 | refine writes_act (bit_mask hm ?_)
    | ((with_reducible show Nat.testBit _ (Eff.num _) = true); simp only [Eff.num]; rfl) | split | dsimp only

theorem takeAck_writes {m : Nat} (hm : 34359738913 &&& m = 34359738913) {a1 : _} {a2 : _} {a3 : _} : (takeAck a1 a2 a3).Writes m := by
  have c0 := @modPort_writes m (within_mask hm rfl)
  have c1 := @pumpPort_writes m (within_mask hm rfl)
  have c2 := @replay_writes m (within_mask hm rfl)
  unfold takeAck
  repeat' first
    | with_reducible first | exact writes_done | exact writes_nil | refine writes_cons ?_ ?_ | refine writes_seq ?_ ?_ | refine writes_look fun _ => ?_ | refine writes_when ?_ | refine writes_each fun _ => ?_ | refine writes_ite ?_ ?_ | exact c0 | exact c1 | exact c2 | refine writes_act (bit_mask hm ?_)
    | ((with_reducible show Nat.testBit _ (Eff.num _) = true); simp only [Eff.num]; rfl) | split | dsimp only

theorem takeLanemap_writes {m : Nat} (hm : 51546452481 &&& m = 51546452481) {a1 : _} {a2 : _} : (takeLanemap a1 a2).Writes m := by
  have c0 := @modPort_writes m (within_mask hm rfl)
  have c1 := @relane_writes m (within_mask hm rfl)
  unfold takeLanemap
  repeat' first
    | with_reducible first | exact writes_done | exact writes_nil | refine writes_cons ?_ ?_ | refine writes_seq ?_ ?_ | refine writes_look fun _ => ?_ | refine writes_when ?_ | refine writes_each fun _ => ?_ | refine writes_ite ?_ ?_ | exact c0 | exact c1 | refine writes_act (bit_mask hm ?_)
    | ((with_reducible show Nat.testBit _ (Eff.num _) = true); simp only [Eff.num]; rfl) | split | dsimp only

theorem takePayload_writes {m : Nat} (hm : 34359739905 &&& m = 34359739905) {a1 : _} {a2 : _} : (takePayload a1 a2).Writes m := by
  have c0 := @deliver_writes m (within_mask hm rfl)
  have c1 := @modPort_writes m (within_mask hm rfl)
  unfold takePayload
  repeat' first
    | with_reducible first | exact writes_done | exact writes_nil | refine writes_cons ?_ ?_ | refine writes_seq ?_ ?_ | refine writes_look fun _ => ?_ | refine writes_when ?_ | refine writes_each fun _ => ?_ | refine writes_ite ?_ ?_ | exact c0 | exact c1 | refine writes_act (bit_mask hm ?_)
    | ((with_reducible show Nat.testBit _ (Eff.num _) = true); simp only [Eff.num]; rfl) | split | dsimp only

theorem takeFlit_writes {m : Nat} (hm : 51546453505 &&& m = 51546453505) {a1 : _} {a2 : _} {a3 : _} : (takeFlit a1 a2 a3).Writes m := by
  have c0 := @gapNak_writes m (within_mask hm rfl)
  have c1 := @modPort_writes m (within_mask hm rfl)
  have c2 := @takeLanemap_writes m (within_mask hm rfl)
  have c3 := @takePayload_writes m (within_mask hm rfl)
  have c4 := @tally_writes m (within_mask hm rfl)
  unfold takeFlit
  repeat' first
    | with_reducible first | exact writes_done | exact writes_nil | refine writes_cons ?_ ?_ | refine writes_seq ?_ ?_ | refine writes_look fun _ => ?_ | refine writes_when ?_ | refine writes_each fun _ => ?_ | refine writes_ite ?_ ?_ | exact c0 | exact c1 | exact c2 | exact c3 | exact c4 | refine writes_act (bit_mask hm ?_)
    | ((with_reducible show Nat.testBit _ (Eff.num _) = true); simp only [Eff.num]; rfl) | split | dsimp only

theorem trainingEnds_writes {m : Nat} (hm : 51782811311 &&& m = 51782811311) {a1 : _} {a2 : _} {a3 : _} {a4 : _} : (trainingEnds a1 a2 a3 a4).Writes m := by
  have c0 := @freshOrigin_writes m (within_mask hm rfl)
  have c1 := @handbackTrained_writes m (within_mask hm rfl)
  have c2 := @modPort_writes m (within_mask hm rfl)
  have c3 := @modSlot_writes m (within_mask hm rfl)
  have c4 := @portDown_writes m (within_mask hm rfl)
  have c5 := @pumpPort_writes m (within_mask hm rfl)
  have c6 := @put_writes m (within_mask hm rfl)
  have c7 := @resendMsgs_writes m (within_mask hm rfl)
  have c8 := @resendOn_writes m (within_mask hm rfl)
  have c9 := @setFar_writes m (within_mask hm rfl)
  have c10 := @setPort_writes m (within_mask hm rfl)
  have c11 := @takeDetour_writes m (within_mask hm rfl)
  unfold trainingEnds
  repeat' first
    | with_reducible first | exact writes_done | exact writes_nil | refine writes_cons ?_ ?_ | refine writes_seq ?_ ?_ | refine writes_look fun _ => ?_ | refine writes_when ?_ | refine writes_each fun _ => ?_ | refine writes_ite ?_ ?_ | exact c0 | exact c1 | exact c2 | exact c3 | exact c4 | exact c5 | exact c6 | exact c7 | exact c8 | exact c9 | exact c10 | exact c11 | refine writes_act (bit_mask hm ?_)
    | ((with_reducible show Nat.testBit _ (Eff.num _) = true); simp only [Eff.num]; rfl) | split | dsimp only

theorem writeLnkCfg_writes {m : Nat} (hm : 42955993089 &&& m = 42955993089) {a1 : _} {a2 : _} : (writeLnkCfg a1 a2).Writes m := by
  have c0 := @setPort_writes m (within_mask hm rfl)
  have c1 := @writePlain_writes m (within_mask hm rfl)
  unfold writeLnkCfg
  repeat' first
    | with_reducible first | exact writes_done | exact writes_nil | refine writes_cons ?_ ?_ | refine writes_seq ?_ ?_ | refine writes_look fun _ => ?_ | refine writes_when ?_ | refine writes_each fun _ => ?_ | refine writes_ite ?_ ?_ | exact c0 | exact c1 | refine writes_act (bit_mask hm ?_)
    | ((with_reducible show Nat.testBit _ (Eff.num _) = true); simp only [Eff.num]; rfl) | split | dsimp only

theorem writeLnkTest_writes {m : Nat} (hm : 42949672961 &&& m = 42949672961) {a1 : _} : (writeLnkTest a1).Writes m := by
  have c0 := @beginTest_writes m (within_mask hm rfl)
  have c1 := @complete_writes m (within_mask hm rfl)
  have c2 := @writePlain_writes m (within_mask hm rfl)
  unfold writeLnkTest
  repeat' first
    | with_reducible first | exact writes_done | exact writes_nil | refine writes_cons ?_ ?_ | refine writes_seq ?_ ?_ | refine writes_look fun _ => ?_ | refine writes_when ?_ | refine writes_each fun _ => ?_ | refine writes_ite ?_ ?_ | exact c0 | exact c1 | exact c2 | refine writes_act (bit_mask hm ?_)
    | ((with_reducible show Nat.testBit _ (Eff.num _) = true); simp only [Eff.num]; rfl) | split | dsimp only

theorem askAgain_writes {m : Nat} (hm : 34426847232 &&& m = 34426847232) {a1 : _} : (askAgain a1).Writes m := by
  have c0 := @modShore_writes m (within_mask hm rfl)
  have c1 := @send_writes m (within_mask hm rfl)
  unfold askAgain
  repeat' first
    | with_reducible first | exact writes_done | exact writes_nil | refine writes_cons ?_ ?_ | refine writes_seq ?_ ?_ | refine writes_look fun _ => ?_ | refine writes_when ?_ | refine writes_each fun _ => ?_ | refine writes_ite ?_ ?_ | exact c0 | exact c1 | refine writes_act (bit_mask hm ?_)
    | ((with_reducible show Nat.testBit _ (Eff.num _) = true); simp only [Eff.num]; rfl) | split | dsimp only

theorem clearProt_writes {m : Nat} (hm : 262150 &&& m = 262150) {a1 : _} : (clearProt a1).Writes m := by
  have c0 := @editLeaf_writes m (within_mask hm rfl)
  unfold clearProt
  repeat' first
    | with_reducible first | exact writes_done | exact writes_nil | refine writes_cons ?_ ?_ | refine writes_seq ?_ ?_ | refine writes_look fun _ => ?_ | refine writes_when ?_ | refine writes_each fun _ => ?_ | refine writes_ite ?_ ?_ | exact c0 | refine writes_act (bit_mask hm ?_)
    | ((with_reducible show Nat.testBit _ (Eff.num _) = true); simp only [Eff.num]; rfl) | split | dsimp only

theorem stallEnds_writes {m : Nat} (hm : 32 &&& m = 32) : (stallEnds).Writes m := by
  have c0 := @modAgent_writes m (within_mask hm rfl)
  unfold stallEnds
  repeat' first
    | with_reducible first | exact writes_done | exact writes_nil | refine writes_cons ?_ ?_ | refine writes_seq ?_ ?_ | refine writes_look fun _ => ?_ | refine writes_when ?_ | refine writes_each fun _ => ?_ | refine writes_ite ?_ ?_ | exact c0 | refine writes_act (bit_mask hm ?_)
    | ((with_reducible show Nat.testBit _ (Eff.num _) = true); simp only [Eff.num]; rfl) | split | dsimp only

theorem copyAside_writes {m : Nat} (hm : 34602286767 &&& m = 34602286767) {a1 : _} {a2 : _} {a3 : _} (h2 : (a2).Writes m) (h3 : (a3).Writes m) : (copyAside a1 a2 a3).Writes m := by
  have c0 := @abandonHere_writes m (within_mask hm rfl)
  have c1 := @clearProt_writes m (within_mask hm rfl)
  have c2 := @modAgent_writes m (within_mask hm rfl)
  have c3 := @moveChecked_writes m (within_mask hm rfl)
  have c4 := @positionLost_writes m (within_mask hm rfl)
  have c5 := @stallEnds_writes m (within_mask hm rfl)
  unfold copyAside
  repeat' first
    | with_reducible first | exact writes_done | exact writes_nil | refine writes_cons ?_ ?_ | refine writes_seq ?_ ?_ | refine writes_look fun _ => ?_ | refine writes_when ?_ | refine writes_each fun _ => ?_ | refine writes_ite ?_ ?_ | exact c0 | exact c1 | exact c2 | refine c3 ?_ ?_ | exact c4 | exact c5 | exact h2 | exact h3 | refine writes_act (bit_mask hm ?_)
    | ((with_reducible show Nat.testBit _ (Eff.num _) = true); simp only [Eff.num]; rfl) | split | dsimp only

theorem deferCommand_writes {m : Nat} (hm : 4194304 &&& m = 4194304) {a1 : _} : (deferCommand a1).Writes m := by
  have c0 := @modObs_writes m (within_mask hm rfl)
  unfold deferCommand
  repeat' first
    | with_reducible first | exact writes_done | exact writes_nil | refine writes_cons ?_ ?_ | refine writes_seq ?_ ?_ | refine writes_look fun _ => ?_ | refine writes_when ?_ | refine writes_each fun _ => ?_ | refine writes_ite ?_ ?_ | exact c0 | refine writes_act (bit_mask hm ?_)
    | ((with_reducible show Nat.testBit _ (Eff.num _) = true); simp only [Eff.num]; rfl) | split | dsimp only

theorem fabAdmit_writes {m : Nat} (hm : 4194304 &&& m = 4194304) {a1 : _} {a2 : _} {a3 : _} (h3 : (a3).Writes m) : (fabAdmit a1 a2 a3).Writes m := by
  have c0 := @deferCommand_writes m (within_mask hm rfl)
  unfold fabAdmit
  repeat' first
    | with_reducible first | exact writes_done | exact writes_nil | refine writes_cons ?_ ?_ | refine writes_seq ?_ ?_ | refine writes_look fun _ => ?_ | refine writes_when ?_ | refine writes_each fun _ => ?_ | refine writes_ite ?_ ?_ | exact c0 | exact h3 | refine writes_act (bit_mask hm ?_)
    | ((with_reducible show Nat.testBit _ (Eff.num _) = true); simp only [Eff.num]; rfl) | split | dsimp only

theorem fabSend_writes {m : Nat} (hm : 34359756288 &&& m = 34359756288) {a1 : _} {a2 : _} {a3 : _} {a4 : _} {a5 : _} {a6 : _} {a7 : _} : (fabSend a1 a2 a3 a4 a5 a6 a7).Writes m := by
  have c0 := @linkSend_writes m (within_mask hm rfl)
  have c1 := @send_writes m (within_mask hm rfl)
  unfold fabSend
  repeat' first
    | with_reducible first | exact writes_done | exact writes_nil | refine writes_cons ?_ ?_ | refine writes_seq ?_ ?_ | refine writes_look fun _ => ?_ | refine writes_when ?_ | refine writes_each fun _ => ?_ | refine writes_ite ?_ ?_ | exact c0 | exact c1 | refine writes_act (bit_mask hm ?_)
    | ((with_reducible show Nat.testBit _ (Eff.num _) = true); simp only [Eff.num]; rfl) | split | dsimp only

theorem fabTake_writes {m : Nat} (hm : 34426847233 &&& m = 34426847233) {a1 : _} {a2 : _} {a3 : _} {a4 : _} {a5 : _} (h5 : (a5).Writes m) : (fabTake a1 a2 a3 a4 a5).Writes m := by
  have c0 := @askAgain_writes m (within_mask hm rfl)
  have c1 := @bump_writes m (within_mask hm rfl)
  unfold fabTake
  repeat' first
    | with_reducible first | exact writes_done | exact writes_nil | refine writes_cons ?_ ?_ | refine writes_seq ?_ ?_ | refine writes_look fun _ => ?_ | refine writes_when ?_ | refine writes_each fun _ => ?_ | refine writes_ite ?_ ?_ | exact c0 | exact c1 | exact h5 | refine writes_act (bit_mask hm ?_)
    | ((with_reducible show Nat.testBit _ (Eff.num _) = true); simp only [Eff.num]; rfl) | split | dsimp only

theorem fabWritten_writes {m : Nat} (hm : 34729910145 &&& m = 34729910145) {a1 : _} {a2 : _} : (fabWritten a1 a2).Writes m := by
  have c0 := @advance_writes m (within_mask hm rfl)
  have c1 := @bump_writes m (within_mask hm rfl)
  have c2 := @packetWritten_writes m (within_mask hm rfl)
  unfold fabWritten
  repeat' first
    | with_reducible first | exact writes_done | exact writes_nil | refine writes_cons ?_ ?_ | refine writes_seq ?_ ?_ | refine writes_look fun _ => ?_ | refine writes_when ?_ | refine writes_each fun _ => ?_ | refine writes_ite ?_ ?_ | exact c0 | exact c1 | refine c2 (fun _ _ => ?_) | refine writes_act (bit_mask hm ?_)
    | ((with_reducible show Nat.testBit _ (Eff.num _) = true); simp only [Eff.num]; rfl) | split | dsimp only

theorem fabWrite_writes {m : Nat} (hm : 52050591663 &&& m = 52050591663) {a1 : _} {a2 : _} {a3 : _} {a4 : _} : (fabWrite a1 a2 a3 a4).Writes m := by
  have c0 := @askAgain_writes m (within_mask hm rfl)
  have c1 := @bump_writes m (within_mask hm rfl)
  have c2 := @copyAside_writes m (within_mask hm rfl)
  have c3 := @deferCommand_writes m (within_mask hm rfl)
  have c4 := @fabWritten_writes m (within_mask hm rfl)
  have c5 := @noteFault_writes m (within_mask hm rfl)
  have c6 := @touchLeaf_writes m (within_mask hm rfl)
  have c7 := @writePhys_writes m (within_mask hm rfl)
  unfold fabWrite
  repeat' first
    | with_reducible first | exact writes_done | exact writes_nil | refine writes_cons ?_ ?_ | refine writes_seq ?_ ?_ | refine writes_look fun _ => ?_ | refine writes_when ?_ | refine writes_each fun _ => ?_ | refine writes_ite ?_ ?_ | exact c0 | exact c1 | refine c2 ?_ ?_ | exact c3 | exact c4 | exact c5 | exact c6 | exact c7 | refine writes_act (bit_mask hm ?_)
    | ((with_reducible show Nat.testBit _ (Eff.num _) = true); simp only [Eff.num]; rfl) | split | dsimp only

theorem atStep_writes {m : Nat} (hm : 0 &&& m = 0) {a1 : _} {a2 : _} (h2 : ∀ x0, (a2 x0).Writes m) : (atStep a1 a2).Writes m := by
  unfold atStep
  repeat' first
    | with_reducible first | exact writes_done | exact writes_nil | refine writes_cons ?_ ?_ | refine writes_seq ?_ ?_ | refine writes_look fun _ => ?_ | refine writes_when ?_ | refine writes_each fun _ => ?_ | refine writes_ite ?_ ?_ | exact h2 _ | refine writes_act (bit_mask hm ?_)
    | ((with_reducible show Nat.testBit _ (Eff.num _) = true); simp only [Eff.num]; rfl) | split | dsimp only

theorem joinerAdmitted_writes {m : Nat} (hm : 268435457 &&& m = 268435457) : (joinerAdmitted).Writes m := by
  have c0 := @modStart_writes m (within_mask hm rfl)
  have c1 := @setPhase_writes m (within_mask hm rfl)
  unfold joinerAdmitted
  repeat' first
    | with_reducible first | exact writes_done | exact writes_nil | refine writes_cons ?_ ?_ | refine writes_seq ?_ ?_ | refine writes_look fun _ => ?_ | refine writes_when ?_ | refine writes_each fun _ => ?_ | refine writes_ite ?_ ?_ | exact c0 | exact c1 | refine writes_act (bit_mask hm ?_)
    | ((with_reducible show Nat.testBit _ (Eff.num _) = true); simp only [Eff.num]; rfl) | split | dsimp only

theorem joinerPlan_writes {m : Nat} (hm : 51549064705 &&& m = 51549064705) {a1 : _} : (joinerPlan a1).Writes m := by
  have c0 := @notify_writes m (within_mask hm rfl)
  have c1 := @openTo_writes m (within_mask hm rfl)
  unfold joinerPlan
  repeat' first
    | with_reducible first | exact writes_done | exact writes_nil | refine writes_cons ?_ ?_ | refine writes_seq ?_ ?_ | refine writes_look fun _ => ?_ | refine writes_when ?_ | refine writes_each fun _ => ?_ | refine writes_ite ?_ ?_ | exact c0 | exact c1 | refine writes_act (bit_mask hm ?_)
    | ((with_reducible show Nat.testBit _ (Eff.num _) = true); simp only [Eff.num]; rfl) | split | dsimp only

theorem promotionGoesOn_writes {m : Nat} (hm : 34602417839 &&& m = 34602417839) : (promotionGoesOn).Writes m := by
  have c0 := @promotionEnds_writes m (within_mask hm rfl)
  unfold promotionGoesOn
  repeat' first
    | with_reducible first | exact writes_done | exact writes_nil | refine writes_cons ?_ ?_ | refine writes_seq ?_ ?_ | refine writes_look fun _ => ?_ | refine writes_when ?_ | refine writes_each fun _ => ?_ | refine writes_ite ?_ ?_ | exact c0 | refine writes_act (bit_mask hm ?_)
    | ((with_reducible show Nat.testBit _ (Eff.num _) = true); simp only [Eff.num]; rfl) | split | dsimp only

theorem resendContribution_writes {m : Nat} (hm : 34359756288 &&& m = 34359756288) {a1 : _} {a2 : _} {a3 : _} {a4 : _} : (resendContribution a1 a2 a3 a4).Writes m := by
  have c0 := @fabSend_writes m (within_mask hm rfl)
  unfold resendContribution
  repeat' first
    | with_reducible first | exact writes_done | exact writes_nil | refine writes_cons ?_ ?_ | refine writes_seq ?_ ?_ | refine writes_look fun _ => ?_ | refine writes_when ?_ | refine writes_each fun _ => ?_ | refine writes_ite ?_ ?_ | exact c0 | refine writes_act (bit_mask hm ?_)
    | ((with_reducible show Nat.testBit _ (Eff.num _) = true); simp only [Eff.num]; rfl) | split | dsimp only

theorem writeShrCtrl_writes {m : Nat} (hm : 60237479615 &&& m = 60237479615) {a1 : _} : (writeShrCtrl a1).Writes m := by
  have c0 := @complete_writes m (within_mask hm rfl)
  have c1 := @declareNow_writes m (within_mask hm rfl)
  have c2 := @put_writes m (within_mask hm rfl)
  have c3 := @startHandback_writes m (within_mask hm rfl)
  have c4 := @writePlain_writes m (within_mask hm rfl)
  unfold writeShrCtrl
  repeat' first
    | with_reducible first | exact writes_done | exact writes_nil | refine writes_cons ?_ ?_ | refine writes_seq ?_ ?_ | refine writes_look fun _ => ?_ | refine writes_when ?_ | refine writes_each fun _ => ?_ | refine writes_ite ?_ ?_ | exact c0 | exact c1 | exact c2 | refine c3 (fun _ => ?_) | exact c4 | refine writes_act (bit_mask hm ?_)
    | ((with_reducible show Nat.testBit _ (Eff.num _) = true); simp only [Eff.num]; rfl) | split | dsimp only

theorem witnessEvent_writes {m : Nat} (hm : 51782811327 &&& m = 51782811327) {a1 : _} : (witnessEvent a1).Writes m := by
  have c0 := @abandonHere_writes m (within_mask hm rfl)
  have c1 := @bump_writes m (within_mask hm rfl)
  have c2 := @intEvent_writes m (within_mask hm rfl)
  have c3 := @positionLost_writes m (within_mask hm rfl)
  have c4 := @slotEvent_writes m (within_mask hm rfl)
  unfold witnessEvent
  repeat' first
    | with_reducible first | exact writes_done | exact writes_nil | refine writes_cons ?_ ?_ | refine writes_seq ?_ ?_ | refine writes_look fun _ => ?_ | refine writes_when ?_ | refine writes_each fun _ => ?_ | refine writes_ite ?_ ?_ | exact c0 | exact c1 | exact c2 | exact c3 | exact c4 | refine writes_act (bit_mask hm ?_)
    | ((with_reducible show Nat.testBit _ (Eff.num _) = true); simp only [Eff.num]; rfl) | split | dsimp only

theorem abortStart_writes {m : Nat} (hm : 34359758336 &&& m = 34359758336) {a1 : _} : (abortStart a1).Writes m := by
  have c0 := @broadcast_writes m (within_mask hm rfl)
  unfold abortStart
  repeat' first
    | with_reducible first | exact writes_done | exact writes_nil | refine writes_cons ?_ ?_ | refine writes_seq ?_ ?_ | refine writes_look fun _ => ?_ | refine writes_when ?_ | refine writes_each fun _ => ?_ | refine writes_ite ?_ ?_ | exact c0 | refine writes_act (bit_mask hm ?_)
    | ((with_reducible show Nat.testBit _ (Eff.num _) = true); simp only [Eff.num]; rfl) | split | dsimp only

theorem adopt_writes {m : Nat} (hm : 268435456 &&& m = 268435456) {a1 : _} : (adopt a1).Writes m := by
  have c0 := @modStart_writes m (within_mask hm rfl)
  unfold adopt
  repeat' first
    | with_reducible first | exact writes_done | exact writes_nil | refine writes_cons ?_ ?_ | refine writes_seq ?_ ?_ | refine writes_look fun _ => ?_ | refine writes_when ?_ | refine writes_each fun _ => ?_ | refine writes_ite ?_ ?_ | exact c0 | refine writes_act (bit_mask hm ?_)
    | ((with_reducible show Nat.testBit _ (Eff.num _) = true); simp only [Eff.num]; rfl) | split | dsimp only

theorem settlePair_writes {m : Nat} (hm : 34359889921 &&& m = 34359889921) : (settlePair).Writes m := by
  have c0 := @modMode_writes m (within_mask hm rfl)
  have c1 := @raise_writes m (within_mask hm rfl)
  unfold settlePair
  repeat' first
    | with_reducible first | exact writes_done | exact writes_nil | refine writes_cons ?_ ?_ | refine writes_seq ?_ ?_ | refine writes_look fun _ => ?_ | refine writes_when ?_ | refine writes_each fun _ => ?_ | refine writes_ite ?_ ?_ | exact c0 | exact c1 | refine writes_act (bit_mask hm ?_)
    | ((with_reducible show Nat.testBit _ (Eff.num _) = true); simp only [Eff.num]; rfl) | split | dsimp only

theorem checkMirrors_writes {m : Nat} (hm : 34896764417 &&& m = 34896764417) : (checkMirrors).Writes m := by
  have c0 := @modHold_writes m (within_mask hm rfl)
  have c1 := @settlePair_writes m (within_mask hm rfl)
  have c2 := @toPartner_writes m (within_mask hm rfl)
  unfold checkMirrors
  repeat' first
    | with_reducible first | exact writes_done | exact writes_nil | refine writes_cons ?_ ?_ | refine writes_seq ?_ ?_ | refine writes_look fun _ => ?_ | refine writes_when ?_ | refine writes_each fun _ => ?_ | refine writes_ite ?_ ?_ | exact c0 | exact c1 | exact c2 | refine writes_act (bit_mask hm ?_)
    | ((with_reducible show Nat.testBit _ (Eff.num _) = true); simp only [Eff.num]; rfl) | split | dsimp only

theorem goSolo_writes {m : Nat} (hm : 52612759431 &&& m = 52612759431) {a1 : _} : (goSolo a1).Writes m := by
  have c0 := @announce_writes m (within_mask hm rfl)
  have c1 := @checkLoaded_writes m (within_mask hm rfl)
  have c2 := @modHold_writes m (within_mask hm rfl)
  have c3 := @modMode_writes m (within_mask hm rfl)
  have c4 := @put_writes m (within_mask hm rfl)
  have c5 := @tryCapacity_writes m (within_mask hm rfl)
  have c6 := @tryVote_writes m (within_mask hm rfl)
  unfold goSolo
  repeat' first
    | with_reducible first | exact writes_done | exact writes_nil | refine writes_cons ?_ ?_ | refine writes_seq ?_ ?_ | refine writes_look fun _ => ?_ | refine writes_when ?_ | refine writes_each fun _ => ?_ | refine writes_ite ?_ ?_ | exact c0 | exact c1 | exact c2 | exact c3 | exact c4 | exact c5 | exact c6 | refine writes_act (bit_mask hm ?_)
    | ((with_reducible show Nat.testBit _ (Eff.num _) = true); simp only [Eff.num]; rfl) | split | dsimp only

theorem grant_writes {m : Nat} (hm : 1048576 &&& m = 1048576) {a1 : _} {a2 : _} {a3 : _} {a4 : _} : (grant a1 a2 a3 a4).Writes m := by
  have c0 := @modSync_writes m (within_mask hm rfl)
  unfold grant
  repeat' first
    | with_reducible first | exact writes_done | exact writes_nil | refine writes_cons ?_ ?_ | refine writes_seq ?_ ?_ | refine writes_look fun _ => ?_ | refine writes_when ?_ | refine writes_each fun _ => ?_ | refine writes_ite ?_ ?_ | exact c0 | refine writes_act (bit_mask hm ?_)
    | ((with_reducible show Nat.testBit _ (Eff.num _) = true); simp only [Eff.num]; rfl) | split | dsimp only

theorem takeFar_writes {m : Nat} (hm : 34896764423 &&& m = 34896764423) {a1 : _} {a2 : _} : (takeFar a1 a2).Writes m := by
  have c0 := @checkMirrors_writes m (within_mask hm rfl)
  have c1 := @modHold_writes m (within_mask hm rfl)
  have c2 := @tally_writes m (within_mask hm rfl)
  have c3 := @tallyClass_writes m (within_mask hm rfl)
  have c4 := @toPartner_writes m (within_mask hm rfl)
  have c5 := @writePhys_writes m (within_mask hm rfl)
  unfold takeFar
  repeat' first
    | with_reducible first | exact writes_done | exact writes_nil | refine writes_cons ?_ ?_ | refine writes_seq ?_ ?_ | refine writes_look fun _ => ?_ | refine writes_when ?_ | refine writes_each fun _ => ?_ | refine writes_ite ?_ ?_ | exact c0 | exact c1 | exact c2 | exact c3 | exact c4 | exact c5 | refine writes_act (bit_mask hm ?_)
    | ((with_reducible show Nat.testBit _ (Eff.num _) = true); simp only [Eff.num]; rfl) | split | dsimp only

theorem takeMirror_writes {m : Nat} (hm : 34896764423 &&& m = 34896764423) {a1 : _} {a2 : _} : (takeMirror a1 a2).Writes m := by
  have c0 := @checkMirrors_writes m (within_mask hm rfl)
  have c1 := @modHold_writes m (within_mask hm rfl)
  have c2 := @writePhys_writes m (within_mask hm rfl)
  unfold takeMirror
  repeat' first
    | with_reducible first | exact writes_done | exact writes_nil | refine writes_cons ?_ ?_ | refine writes_seq ?_ ?_ | refine writes_look fun _ => ?_ | refine writes_when ?_ | refine writes_each fun _ => ?_ | refine writes_ite ?_ ?_ | exact c0 | exact c1 | exact c2 | refine writes_act (bit_mask hm ?_)
    | ((with_reducible show Nat.testBit _ (Eff.num _) = true); simp only [Eff.num]; rfl) | split | dsimp only

theorem nextSource_writes {m : Nat} (hm : 52051246767 &&& m = 52051246767) {a1 : _} {a2 : _} : (nextSource a1 a2).Writes m := by
  have c0 := @askShard_writes m (within_mask hm rfl)
  have c1 := @handbackFails_writes m (within_mask hm rfl)
  have c2 := @sendReady_writes m (within_mask hm rfl)
  have c3 := @sendRewound_writes m (within_mask hm rfl)
  have c4 := @shoringFails_writes m (within_mask hm rfl)
  unfold nextSource
  repeat' first
    | with_reducible first | exact writes_done | exact writes_nil | refine writes_cons ?_ ?_ | refine writes_seq ?_ ?_ | refine writes_look fun _ => ?_ | refine writes_when ?_ | refine writes_each fun _ => ?_ | refine writes_ite ?_ ?_ | exact c0 | exact c1 | exact c2 | exact c3 | exact c4 | refine writes_act (bit_mask hm ?_)
    | ((with_reducible show Nat.testBit _ (Eff.num _) = true); simp only [Eff.num]; rfl) | split | dsimp only

theorem resync_writes {m : Nat} (hm : 34534882817 &&& m = 34534882817) : (resync).Writes m := by
  have c0 := @askShard_writes m (within_mask hm rfl)
  have c1 := @checkShard_writes m (within_mask hm rfl)
  have c2 := @modCourse_writes m (within_mask hm rfl)
  have c3 := @sendFullMirror_writes m (within_mask hm rfl)
  have c4 := @toPartner_writes m (within_mask hm rfl)
  unfold resync
  repeat' first
    | with_reducible first | exact writes_done | exact writes_nil | refine writes_cons ?_ ?_ | refine writes_seq ?_ ?_ | refine writes_look fun _ => ?_ | refine writes_when ?_ | refine writes_each fun _ => ?_ | refine writes_ite ?_ ?_ | exact c0 | exact c1 | exact c2 | exact c3 | exact c4 | refine writes_act (bit_mask hm ?_)
    | ((with_reducible show Nat.testBit _ (Eff.num _) = true); simp only [Eff.num]; rfl) | split | dsimp only

theorem shardsGoOn_writes {m : Nat} (hm : 51782811311 &&& m = 51782811311) : (shardsGoOn).Writes m := by
  have c0 := @loadCover_writes m (within_mask hm rfl)
  have c1 := @loadHandback_writes m (within_mask hm rfl)
  have c2 := @promote_writes m (within_mask hm rfl)
  have c3 := @reloadSlot_writes m (within_mask hm rfl)
  have c4 := @resync_writes m (within_mask hm rfl)
  unfold shardsGoOn
  repeat' first
    | with_reducible first | exact writes_done | exact writes_nil | refine writes_cons ?_ ?_ | refine writes_seq ?_ ?_ | refine writes_look fun _ => ?_ | refine writes_when ?_ | refine writes_each fun _ => ?_ | refine writes_ite ?_ ?_ | exact c0 | exact c1 | exact c2 | exact c3 | exact c4 | refine writes_act (bit_mask hm ?_)
    | ((with_reducible show Nat.testBit _ (Eff.num _) = true); simp only [Eff.num]; rfl) | split | dsimp only

theorem verified_writes {m : Nat} (hm : 33554432 &&& m = 33554432) {a1 : _} : (verified a1).Writes m := by
  have c0 := @modCourse_writes m (within_mask hm rfl)
  unfold verified
  repeat' first
    | with_reducible first | exact writes_done | exact writes_nil | refine writes_cons ?_ ?_ | refine writes_seq ?_ ?_ | refine writes_look fun _ => ?_ | refine writes_when ?_ | refine writes_each fun _ => ?_ | refine writes_ite ?_ ?_ | exact c0 | refine writes_act (bit_mask hm ?_)
    | ((with_reducible show Nat.testBit _ (Eff.num _) = true); simp only [Eff.num]; rfl) | split | dsimp only

theorem takeShard_writes {m : Nat} (hm : 52051246767 &&& m = 52051246767) {a1 : _} {a2 : _} {a3 : _} : (takeShard a1 a2 a3).Writes m := by
  have c0 := @nextSource_writes m (within_mask hm rfl)
  have c1 := @shardBytes_writes m (within_mask hm rfl)
  have c2 := @shardsGoOn_writes m (within_mask hm rfl)
  have c3 := @verified_writes m (within_mask hm rfl)
  have c4 := @writePhys_writes m (within_mask hm rfl)
  unfold takeShard
  repeat' first
    | with_reducible first | exact writes_done | exact writes_nil | refine writes_cons ?_ ?_ | refine writes_seq ?_ ?_ | refine writes_look fun _ => ?_ | refine writes_when ?_ | refine writes_each fun _ => ?_ | refine writes_ite ?_ ?_ | exact c0 | exact c1 | exact c2 | exact c3 | exact c4 | refine writes_act (bit_mask hm ?_)
    | ((with_reducible show Nat.testBit _ (Eff.num _) = true); simp only [Eff.num]; rfl) | split | dsimp only

theorem grantDone_writes {m : Nat} (hm : 52613283503 &&& m = 52613283503) {a1 : _} : (grantDone a1).Writes m := by
  have c0 := @modSync_writes m (within_mask hm rfl)
  have c1 := @stageBytes_writes m (within_mask hm rfl)
  have c2 := @takeFar_writes m (within_mask hm rfl)
  have c3 := @takeMirror_writes m (within_mask hm rfl)
  have c4 := @takeShard_writes m (within_mask hm rfl)
  unfold grantDone
  repeat' first
    | with_reducible first | exact writes_done | exact writes_nil | refine writes_cons ?_ ?_ | refine writes_seq ?_ ?_ | refine writes_look fun _ => ?_ | refine writes_when ?_ | refine writes_each fun _ => ?_ | refine writes_ite ?_ ?_ | exact c0 | exact c1 | exact c2 | exact c3 | exact c4 | refine writes_act (bit_mask hm ?_)
    | ((with_reducible show Nat.testBit _ (Eff.num _) = true); simp only [Eff.num]; rfl) | split | dsimp only

theorem reparent_writes {m : Nat} (hm : 51817504257 &&& m = 51817504257) : (reparent).Writes m := by
  have c0 := @modStart_writes m (within_mask hm rfl)
  have c1 := @notify_writes m (within_mask hm rfl)
  have c2 := @openTo_writes m (within_mask hm rfl)
  have c3 := @put_writes m (within_mask hm rfl)
  have c4 := @raise_writes m (within_mask hm rfl)
  have c5 := @spreadAll_writes m (within_mask hm rfl)
  have c6 := @toRoot_writes m (within_mask hm rfl)
  have c7 := @wantChunks_writes m (within_mask hm rfl)
  unfold reparent
  repeat' first
    | with_reducible first | exact writes_done | exact writes_nil | refine writes_cons ?_ ?_ | refine writes_seq ?_ ?_ | refine writes_look fun _ => ?_ | refine writes_when ?_ | refine writes_each fun _ => ?_ | refine writes_ite ?_ ?_ | exact c0 | exact c1 | exact c2 | exact c3 | exact c4 | exact c5 | exact c6 | exact c7 | refine writes_act (bit_mask hm ?_)
    | ((with_reducible show Nat.testBit _ (Eff.num _) = true); simp only [Eff.num]; rfl) | split | dsimp only

theorem orphan_writes {m : Nat} (hm : 51817504257 &&& m = 51817504257) : (orphan).Writes m := by
  have c0 := @modStart_writes m (within_mask hm rfl)
  have c1 := @reparent_writes m (within_mask hm rfl)
  unfold orphan
  repeat' first
    | with_reducible first | exact writes_done | exact writes_nil | refine writes_cons ?_ ?_ | refine writes_seq ?_ ?_ | refine writes_look fun _ => ?_ | refine writes_when ?_ | refine writes_each fun _ => ?_ | refine writes_ite ?_ ?_ | exact c0 | exact c1 | refine writes_act (bit_mask hm ?_)
    | ((with_reducible show Nat.testBit _ (Eff.num _) = true); simp only [Eff.num]; rfl) | split | dsimp only

theorem reportPartner_writes {m : Nat} (hm : 51549064705 &&& m = 51549064705) {a1 : _} : (reportPartner a1).Writes m := by
  have c0 := @modPeer_writes m (within_mask hm rfl)
  have c1 := @notify_writes m (within_mask hm rfl)
  have c2 := @openTo_writes m (within_mask hm rfl)
  have c3 := @pSend_writes m (within_mask hm rfl)
  have c4 := @send_writes m (within_mask hm rfl)
  unfold reportPartner
  repeat' first
    | with_reducible first | exact writes_done | exact writes_nil | refine writes_cons ?_ ?_ | refine writes_seq ?_ ?_ | refine writes_look fun _ => ?_ | refine writes_when ?_ | refine writes_each fun _ => ?_ | refine writes_ite ?_ ?_ | exact c0 | exact c1 | exact c2 | exact c3 | exact c4 | refine writes_act (bit_mask hm ?_)
    | ((with_reducible show Nat.testBit _ (Eff.num _) = true); simp only [Eff.num]; rfl) | split | dsimp only

theorem setMember_writes {m : Nat} (hm : 16777217 &&& m = 16777217) {a1 : _} {a2 : _} : (setMember a1 a2).Writes m := by
  have c0 := @modJob_writes m (within_mask hm rfl)
  have c1 := @setTree_writes m (within_mask hm rfl)
  unfold setMember
  repeat' first
    | with_reducible first | exact writes_done | exact writes_nil | refine writes_cons ?_ ?_ | refine writes_seq ?_ ?_ | refine writes_look fun _ => ?_ | refine writes_when ?_ | refine writes_each fun _ => ?_ | refine writes_ite ?_ ?_ | exact c0 | exact c1 | refine writes_act (bit_mask hm ?_)
    | ((with_reducible show Nat.testBit _ (Eff.num _) = true); simp only [Eff.num]; rfl) | split | dsimp only

theorem writeHubKept_writes {m : Nat} (hm : 8623489031 &&& m = 8623489031) {a1 : _} : (writeHubKept a1).Writes m := by
  have c0 := @dropKept_writes m (within_mask hm rfl)
  have c1 := @put_writes m (within_mask hm rfl)
  have c2 := @writePlain_writes m (within_mask hm rfl)
  unfold writeHubKept
  repeat' first
    | with_reducible first | exact writes_done | exact writes_nil | refine writes_cons ?_ ?_ | refine writes_seq ?_ ?_ | refine writes_look fun _ => ?_ | refine writes_when ?_ | refine writes_each fun _ => ?_ | refine writes_ite ?_ ?_ | exact c0 | exact c1 | exact c2 | refine writes_act (bit_mask hm ?_)
    | ((with_reducible show Nat.testBit _ (Eff.num _) = true); simp only [Eff.num]; rfl) | split | dsimp only

theorem requestDump_writes {m : Nat} (hm : 34360807431 &&& m = 34360807431) {a1 : _} {a2 : _} : (requestDump a1 a2).Writes m := by
  have c0 := @writeDump_writes m (within_mask hm rfl)
  unfold requestDump
  repeat' first
    | with_reducible first | exact writes_done | exact writes_nil | refine writes_cons ?_ ?_ | refine writes_seq ?_ ?_ | refine writes_look fun _ => ?_ | refine writes_when ?_ | refine writes_each fun _ => ?_ | refine writes_ite ?_ ?_ | exact c0 | refine writes_act (bit_mask hm ?_)
    | ((with_reducible show Nat.testBit _ (Eff.num _) = true); simp only [Eff.num]; rfl) | split | dsimp only

theorem writeSynAdd_writes {m : Nat} (hm : 43318796161 &&& m = 43318796161) {a1 : _} : (writeSynAdd a1).Writes m := by
  have c0 := @advance_writes m (within_mask hm rfl)
  have c1 := @complete_writes m (within_mask hm rfl)
  unfold writeSynAdd
  repeat' first
    | with_reducible first | exact writes_done | exact writes_nil | refine writes_cons ?_ ?_ | refine writes_seq ?_ ?_ | refine writes_look fun _ => ?_ | refine writes_when ?_ | refine writes_each fun _ => ?_ | refine writes_ite ?_ ?_ | exact c0 | exact c1 | refine writes_act (bit_mask hm ?_)
    | ((with_reducible show Nat.testBit _ (Eff.num _) = true); simp only [Eff.num]; rfl) | split | dsimp only

theorem writeSynBar_writes {m : Nat} (hm : 8589934593 &&& m = 8589934593) {a1 : _} {a2 : _} : (writeSynBar a1 a2).Writes m := by
  have c0 := @complete_writes m (within_mask hm rfl)
  have c1 := @writePlain_writes m (within_mask hm rfl)
  unfold writeSynBar
  repeat' first
    | with_reducible first | exact writes_done | exact writes_nil | refine writes_cons ?_ ?_ | refine writes_seq ?_ ?_ | refine writes_look fun _ => ?_ | refine writes_when ?_ | refine writes_each fun _ => ?_ | refine writes_ite ?_ ?_ | exact c0 | exact c1 | refine writes_act (bit_mask hm ?_)
    | ((with_reducible show Nat.testBit _ (Eff.num _) = true); simp only [Eff.num]; rfl) | split | dsimp only

theorem writeSynDump_writes {m : Nat} (hm : 42950742023 &&& m = 42950742023) {a1 : _} : (writeSynDump a1).Writes m := by
  have c0 := @complete_writes m (within_mask hm rfl)
  have c1 := @requestDump_writes m (within_mask hm rfl)
  have c2 := @writePlain_writes m (within_mask hm rfl)
  unfold writeSynDump
  repeat' first
    | with_reducible first | exact writes_done | exact writes_nil | refine writes_cons ?_ ?_ | refine writes_seq ?_ ?_ | refine writes_look fun _ => ?_ | refine writes_when ?_ | refine writes_each fun _ => ?_ | refine writes_ite ?_ ?_ | exact c0 | exact c1 | exact c2 | refine writes_act (bit_mask hm ?_)
    | ((with_reducible show Nat.testBit _ (Eff.num _) = true); simp only [Eff.num]; rfl) | split | dsimp only

theorem writeSynSet_writes {m : Nat} (hm : 43318796161 &&& m = 43318796161) {a1 : _} : (writeSynSet a1).Writes m := by
  have c0 := @complete_writes m (within_mask hm rfl)
  have c1 := @fireWatches_writes m (within_mask hm rfl)
  unfold writeSynSet
  repeat' first
    | with_reducible first | exact writes_done | exact writes_nil | refine writes_cons ?_ ?_ | refine writes_seq ?_ ?_ | refine writes_look fun _ => ?_ | refine writes_when ?_ | refine writes_each fun _ => ?_ | refine writes_ite ?_ ?_ | exact c0 | exact c1 | refine writes_act (bit_mask hm ?_)
    | ((with_reducible show Nat.testBit _ (Eff.num _) = true); simp only [Eff.num]; rfl) | split | dsimp only

theorem writeSynWarm_writes {m : Nat} (hm : 42949697281 &&& m = 42949697281) {a1 : _} : (writeSynWarm a1).Writes m := by
  have c0 := @armOther_writes m (within_mask hm rfl)
  have c1 := @complete_writes m (within_mask hm rfl)
  have c2 := @put_writes m (within_mask hm rfl)
  unfold writeSynWarm
  repeat' first
    | with_reducible first | exact writes_done | exact writes_nil | refine writes_cons ?_ ?_ | refine writes_seq ?_ ?_ | refine writes_look fun _ => ?_ | refine writes_when ?_ | refine writes_each fun _ => ?_ | refine writes_ite ?_ ?_ | refine c0 (fun _ _ => ?_) | exact c1 | exact c2 | refine writes_act (bit_mask hm ?_)
    | ((with_reducible show Nat.testBit _ (Eff.num _) = true); simp only [Eff.num]; rfl) | split | dsimp only

theorem writeSynWin_writes {m : Nat} (hm : 8589934721 &&& m = 8589934721) {a1 : _} {a2 : _} : (writeSynWin a1 a2).Writes m := by
  have c0 := @complete_writes m (within_mask hm rfl)
  have c1 := @put_writes m (within_mask hm rfl)
  unfold writeSynWin
  repeat' first
    | with_reducible first | exact writes_done | exact writes_nil | refine writes_cons ?_ ?_ | refine writes_seq ?_ ?_ | refine writes_look fun _ => ?_ | refine writes_when ?_ | refine writes_each fun _ => ?_ | refine writes_ite ?_ ?_ | exact c0 | exact c1 | refine writes_act (bit_mask hm ?_)
    | ((with_reducible show Nat.testBit _ (Eff.num _) = true); simp only [Eff.num]; rfl) | split | dsimp only

theorem askNext_writes {m : Nat} (hm : 34359758336 &&& m = 34359758336) {a1 : _} : (askNext a1).Writes m := by
  have c0 := @notify_writes m (within_mask hm rfl)
  unfold askNext
  repeat' first
    | with_reducible first | exact writes_done | exact writes_nil | refine writes_cons ?_ ?_ | refine writes_seq ?_ ?_ | refine writes_look fun _ => ?_ | refine writes_when ?_ | refine writes_each fun _ => ?_ | refine writes_ite ?_ ?_ | exact c0 | refine writes_act (bit_mask hm ?_)
    | ((with_reducible show Nat.testBit _ (Eff.num _) = true); simp only [Eff.num]; rfl) | split | dsimp only

theorem placeCover_writes {m : Nat} (hm : 33554433 &&& m = 33554433) {a1 : _} {a2 : _} : (placeCover a1 a2).Writes m := by
  have c0 := @addDir_writes m (within_mask hm rfl)
  have c1 := @modCourse_writes m (within_mask hm rfl)
  unfold placeCover
  repeat' first
    | with_reducible first | exact writes_done | exact writes_nil | refine writes_cons ?_ ?_ | refine writes_seq ?_ ?_ | refine writes_look fun _ => ?_ | refine writes_when ?_ | refine writes_each fun _ => ?_ | refine writes_ite ?_ ?_ | exact c0 | exact c1 | refine writes_act (bit_mask hm ?_)
    | ((with_reducible show Nat.testBit _ (Eff.num _) = true); simp only [Eff.num]; rfl) | split | dsimp only

theorem coverManifest_writes {m : Nat} (hm : 34594672129 &&& m = 34594672129) {a1 : _} {a2 : _} {a3 : _} : (coverManifest a1 a2 a3).Writes m := by
  have c0 := @coverFails_writes m (within_mask hm rfl)
  have c1 := @fetchShard_writes m (within_mask hm rfl)
  have c2 := @loadCover_writes m (within_mask hm rfl)
  have c3 := @modCourse_writes m (within_mask hm rfl)
  have c4 := @placeCover_writes m (within_mask hm rfl)
  unfold coverManifest
  repeat' first
    | with_reducible first | exact writes_done | exact writes_nil | refine writes_cons ?_ ?_ | refine writes_seq ?_ ?_ | refine writes_look fun _ => ?_ | refine writes_when ?_ | refine writes_each fun _ => ?_ | refine writes_ite ?_ ?_ | exact c0 | exact c1 | exact c2 | exact c3 | exact c4 | refine writes_act (bit_mask hm ?_)
    | ((with_reducible show Nat.testBit _ (Eff.num _) = true); simp only [Eff.num]; rfl) | split | dsimp only

theorem dropStale_writes {m : Nat} (hm : 1 &&& m = 1) {a1 : _} : (dropStale a1).Writes m := by
  have c0 := @bump_writes m (within_mask hm rfl)
  unfold dropStale
  repeat' first
    | with_reducible first | exact writes_done | exact writes_nil | refine writes_cons ?_ ?_ | refine writes_seq ?_ ?_ | refine writes_look fun _ => ?_ | refine writes_when ?_ | refine writes_each fun _ => ?_ | refine writes_ite ?_ ?_ | exact c0 | refine writes_act (bit_mask hm ?_)
    | ((with_reducible show Nat.testBit _ (Eff.num _) = true); simp only [Eff.num]; rfl) | split | dsimp only

theorem joinerManifest_writes {m : Nat} (hm : 51918163457 &&& m = 51918163457) {a1 : _} {a2 : _} {a3 : _} {a4 : _} : (joinerManifest a1 a2 a3 a4).Writes m := by
  have c0 := @notify_writes m (within_mask hm rfl)
  have c1 := @openTo_writes m (within_mask hm rfl)
  have c2 := @sendRewound_writes m (within_mask hm rfl)
  have c3 := @takeManifest_writes m (within_mask hm rfl)
  unfold joinerManifest
  repeat' first
    | with_reducible first | exact writes_done | exact writes_nil | refine writes_cons ?_ ?_ | refine writes_seq ?_ ?_ | refine writes_look fun _ => ?_ | refine writes_when ?_ | refine writes_each fun _ => ?_ | refine writes_ite ?_ ?_ | exact c0 | exact c1 | exact c2 | exact c3 | refine writes_act (bit_mask hm ?_)
    | ((with_reducible show Nat.testBit _ (Eff.num _) = true); simp only [Eff.num]; rfl) | split | dsimp only

theorem memberLearns_writes {m : Nat} (hm : 34460720807 &&& m = 34460720807) {a1 : _} : (memberLearns a1).Writes m := by
  have c0 := @abandonHere_writes m (within_mask hm rfl)
  have c1 := @commitHere_writes m (within_mask hm rfl)
  have c2 := @commitNote_writes m (within_mask hm rfl)
  have c3 := @put_writes m (within_mask hm rfl)
  have c4 := @setTree_writes m (within_mask hm rfl)
  unfold memberLearns
  repeat' first
    | with_reducible first | exact writes_done | exact writes_nil | refine writes_cons ?_ ?_ | refine writes_seq ?_ ?_ | refine writes_look fun _ => ?_ | refine writes_when ?_ | refine writes_each fun _ => ?_ | refine writes_ite ?_ ?_ | exact c0 | exact c1 | exact c2 | exact c3 | exact c4 | refine writes_act (bit_mask hm ?_)
    | ((with_reducible show Nat.testBit _ (Eff.num _) = true); simp only [Eff.num]; rfl) | split | dsimp only

theorem passOver_writes {m : Nat} (hm : 34359758336 &&& m = 34359758336) {a1 : _} {a2 : _} {a3 : _} : (passOver a1 a2 a3).Writes m := by
  have c0 := @notify_writes m (within_mask hm rfl)
  unfold passOver
  repeat' first
    | with_reducible first | exact writes_done | exact writes_nil | refine writes_cons ?_ ?_ | refine writes_seq ?_ ?_ | refine writes_look fun _ => ?_ | refine writes_when ?_ | refine writes_each fun _ => ?_ | refine writes_ite ?_ ?_ | exact c0 | refine writes_act (bit_mask hm ?_)
    | ((with_reducible show Nat.testBit _ (Eff.num _) = true); simp only [Eff.num]; rfl) | split | dsimp only

theorem rebuildHeld_writes {m : Nat} (hm : 34393312775 &&& m = 34393312775) {a1 : _} {a2 : _} : (rebuildHeld a1 a2).Writes m := by
  have c0 := @addDir_writes m (within_mask hm rfl)
  have c1 := @askShard_writes m (within_mask hm rfl)
  have c2 := @modCourse_writes m (within_mask hm rfl)
  have c3 := @refreshDir_writes m (within_mask hm rfl)
  have c4 := @writePhys_writes m (within_mask hm rfl)
  unfold rebuildHeld
  repeat' first
    | with_reducible first | exact writes_done | exact writes_nil | refine writes_cons ?_ ?_ | refine writes_seq ?_ ?_ | refine writes_look fun _ => ?_ | refine writes_when ?_ | refine writes_each fun _ => ?_ | refine writes_ite ?_ ?_ | exact c0 | exact c1 | exact c2 | exact c3 | exact c4 | refine writes_act (bit_mask hm ?_)
    | ((with_reducible show Nat.testBit _ (Eff.num _) = true); simp only [Eff.num]; rfl) | split | dsimp only

theorem rootLearns_writes {m : Nat} (hm : 100663296 &&& m = 100663296) {a1 : _} : (rootLearns a1).Writes m := by
  have c0 := @modCourse_writes m (within_mask hm rfl)
  have c1 := @modShore_writes m (within_mask hm rfl)
  unfold rootLearns
  repeat' first
    | with_reducible first | exact writes_done | exact writes_nil | refine writes_cons ?_ ?_ | refine writes_seq ?_ ?_ | refine writes_look fun _ => ?_ | refine writes_when ?_ | refine writes_each fun _ => ?_ | refine writes_ite ?_ ?_ | exact c0 | exact c1 | refine writes_act (bit_mask hm ?_)
    | ((with_reducible show Nat.testBit _ (Eff.num _) = true); simp only [Eff.num]; rfl) | split | dsimp only

end Sys2Proof.Machine
end

