-- ==== Sys2Proof/Laws/Writes10.lean ====
section
/-! SUPPORT. What each shared operation writes (part 10): one lemma per operation, of the areas its effects name. -/

set_option maxRecDepth 16000

namespace Sys2Proof.Machine

theorem tookAnswers_writes {m : Nat} (hm : 34460426113 &&& m = 34460426113) : (tookAnswers).Writes m := by
  have c0 := @tookRoot_writes m (within_mask hm rfl)
  unfold tookAnswers
  repeat' first
    | with_reducible first | exact writes_done | exact writes_nil | refine writes_cons ?_ ?_ | refine writes_seq ?_ ?_ | refine writes_look fun _ => ?_ | refine writes_when ?_ | refine writes_each fun _ => ?_ | refine writes_ite ?_ ?_ | exact c0 | refine writes_act (bit_mask hm ?_)
    | ((with_reducible show Nat.testBit _ (Eff.num _) = true); simp only [Eff.num]; rfl) | split | dsimp only

theorem noticeAnswered_writes {m : Nat} (hm : 52076412847 &&& m = 52076412847) {a1 : _} {a2 : _} {a3 : _} {a4 : _} {a5 : _} : (noticeAnswered a1 a2 a3 a4 a5).Writes m := by
  have c0 := @askNext_writes m (within_mask hm rfl)
  have c1 := @checkLoaded_writes m (within_mask hm rfl)
  have c2 := @coverManifest_writes m (within_mask hm rfl)
  have c3 := @joinerManifest_writes m (within_mask hm rfl)
  have c4 := @memberLearns_writes m (within_mask hm rfl)
  have c5 := @modStart_writes m (within_mask hm rfl)
  have c6 := @nextSource_writes m (within_mask hm rfl)
  have c7 := @orderTeardown_writes m (within_mask hm rfl)
  have c8 := @passOver_writes m (within_mask hm rfl)
  have c9 := @put_writes m (within_mask hm rfl)
  have c10 := @rebuildHeld_writes m (within_mask hm rfl)
  have c11 := @refuseAdmission_writes m (within_mask hm rfl)
  have c12 := @rootLearns_writes m (within_mask hm rfl)
  have c13 := @sendReady_writes m (within_mask hm rfl)
  have c14 := @tookAnswers_writes m (within_mask hm rfl)
  unfold noticeAnswered
  repeat' first
    | with_reducible first | exact writes_done | exact writes_nil | refine writes_cons ?_ ?_ | refine writes_seq ?_ ?_ | refine writes_look fun _ => ?_ | refine writes_when ?_ | refine writes_each fun _ => ?_ | refine writes_ite ?_ ?_ | exact c0 | exact c1 | exact c2 | exact c3 | exact c4 | exact c5 | exact c6 | exact c7 | exact c8 | exact c9 | exact c10 | exact c11 | exact c12 | exact c13 | exact c14 | refine writes_act (bit_mask hm ?_)
    | ((with_reducible show Nat.testBit _ (Eff.num _) = true); simp only [Eff.num]; rfl) | split | dsimp only

theorem onPeer_writes {m : Nat} (hm : 18433 &&& m = 18433) {a1 : _} {a2 : _} {a3 : _} {a4 : _} {a5 : _} (h4 : ∀ x0, (a4 x0).Writes m) (h5 : (a5).Writes m) : (onPeer a1 a2 a3 a4 a5).Writes m := by
  have c0 := @bump_writes m (within_mask hm rfl)
  have c1 := @heard_writes m (within_mask hm rfl)
  unfold onPeer
  repeat' first
    | with_reducible first | exact writes_done | exact writes_nil | refine writes_cons ?_ ?_ | refine writes_seq ?_ ?_ | refine writes_look fun _ => ?_ | refine writes_when ?_ | refine writes_each fun _ => ?_ | refine writes_ite ?_ ?_ | exact c0 | exact c1 | exact h4 _ | exact h5 | refine writes_act (bit_mask hm ?_)
    | ((with_reducible show Nat.testBit _ (Eff.num _) = true); simp only [Eff.num]; rfl) | split | dsimp only

theorem openFails_writes {m : Nat} (hm : 1050625 &&& m = 1050625) {a1 : _} {a2 : _} : (openFails a1 a2).Writes m := by
  have c0 := @countSessions_writes m (within_mask hm rfl)
  have c1 := @modPeer_writes m (within_mask hm rfl)
  have c2 := @modSync_writes m (within_mask hm rfl)
  unfold openFails
  repeat' first
    | with_reducible first | exact writes_done | exact writes_nil | refine writes_cons ?_ ?_ | refine writes_seq ?_ ?_ | refine writes_look fun _ => ?_ | refine writes_when ?_ | refine writes_each fun _ => ?_ | refine writes_ite ?_ ?_ | exact c0 | exact c1 | exact c2 | refine writes_act (bit_mask hm ?_)
    | ((with_reducible show Nat.testBit _ (Eff.num _) = true); simp only [Eff.num]; rfl) | split | dsimp only

theorem refuseOpen_writes {m : Nat} (hm : 34359738368 &&& m = 34359738368) {a1 : _} {a2 : _} {a3 : _} {a4 : _} : (refuseOpen a1 a2 a3 a4).Writes m := by
  have c0 := @send_writes m (within_mask hm rfl)
  unfold refuseOpen
  repeat' first
    | with_reducible first | exact writes_done | exact writes_nil | refine writes_cons ?_ ?_ | refine writes_seq ?_ ?_ | refine writes_look fun _ => ?_ | refine writes_when ?_ | refine writes_each fun _ => ?_ | refine writes_ite ?_ ?_ | exact c0 | refine writes_act (bit_mask hm ?_)
    | ((with_reducible show Nat.testBit _ (Eff.num _) = true); simp only [Eff.num]; rfl) | split | dsimp only

theorem sessionOpened_writes {m : Nat} (hm : 51817504257 &&& m = 51817504257) {a1 : _} : (sessionOpened a1).Writes m := by
  have c0 := @countSessions_writes m (within_mask hm rfl)
  have c1 := @reparent_writes m (within_mask hm rfl)
  have c2 := @tellPartner_writes m (within_mask hm rfl)
  unfold sessionOpened
  repeat' first
    | with_reducible first | exact writes_done | exact writes_nil | refine writes_cons ?_ ?_ | refine writes_seq ?_ ?_ | refine writes_look fun _ => ?_ | refine writes_when ?_ | refine writes_each fun _ => ?_ | refine writes_ite ?_ ?_ | exact c0 | exact c1 | exact c2 | refine writes_act (bit_mask hm ?_)
    | ((with_reducible show Nat.testBit _ (Eff.num _) = true); simp only [Eff.num]; rfl) | split | dsimp only

theorem finishMoves_writes {m : Nat} (hm : 34870722479 &&& m = 34870722479) {a1 : _} {a2 : _} {a3 : _} : (finishMoves a1 a2 a3).Writes m := by
  have c0 := @endMove_writes m (within_mask hm rfl)
  induction a2 generalizing a1 a3 with
  | zero =>
    unfold finishMoves
    repeat' first
      | with_reducible first | exact writes_done | exact writes_nil | refine writes_cons ?_ ?_ | refine writes_seq ?_ ?_ | refine writes_look fun _ => ?_ | refine writes_when ?_ | refine writes_each fun _ => ?_ | refine writes_ite ?_ ?_ | exact c0 | refine writes_act (bit_mask hm ?_)
      | ((with_reducible show Nat.testBit _ (Eff.num _) = true); simp only [Eff.num]; rfl) | split | dsimp only
  | succ k ih =>
    unfold finishMoves
    repeat' first
      | with_reducible first | apply ih | exact writes_done | exact writes_nil | refine writes_cons ?_ ?_ | refine writes_seq ?_ ?_ | refine writes_look fun _ => ?_ | refine writes_when ?_ | refine writes_each fun _ => ?_ | refine writes_ite ?_ ?_ | exact c0 | refine writes_act (bit_mask hm ?_)
      | ((with_reducible show Nat.testBit _ (Eff.num _) = true); simp only [Eff.num]; rfl) | split | dsimp only

theorem finishPass_writes {m : Nat} (hm : 51673849353 &&& m = 51673849353) {a1 : _} {a2 : _} : (finishPass a1 a2).Writes m := by
  have c0 := @formPassRecords_writes m (within_mask hm rfl)
  have c1 := @withFrees_writes m (within_mask hm rfl)
  unfold finishPass
  repeat' first
    | with_reducible first | exact writes_done | exact writes_nil | refine writes_cons ?_ ?_ | refine writes_seq ?_ ?_ | refine writes_look fun _ => ?_ | refine writes_when ?_ | refine writes_each fun _ => ?_ | refine writes_ite ?_ ?_ | exact c0 | refine c1 (fun _ => ?_) | refine writes_act (bit_mask hm ?_)
    | ((with_reducible show Nat.testBit _ (Eff.num _) = true); simp only [Eff.num]; rfl) | split | dsimp only

theorem startTile_writes {m : Nat} (hm : 52051115951 &&& m = 52051115951) {a1 : _} : (startTile a1).Writes m := by
  have c0 := @modTile_writes m (within_mask hm rfl)
  have c1 := @tilePump_writes m (within_mask hm rfl)
  unfold startTile
  repeat' first
    | with_reducible first | exact writes_done | exact writes_nil | refine writes_cons ?_ ?_ | refine writes_seq ?_ ?_ | refine writes_look fun _ => ?_ | refine writes_when ?_ | refine writes_each fun _ => ?_ | refine writes_ite ?_ ?_ | exact c0 | exact c1 | refine writes_act (bit_mask hm ?_)
    | ((with_reducible show Nat.testBit _ (Eff.num _) = true); simp only [Eff.num]; rfl) | split | dsimp only

theorem stopDone_writes {m : Nat} (hm : 52050591663 &&& m = 52050591663) {a1 : _} : (stopDone a1).Writes m := by
  have c0 := @finishMoves_writes m (within_mask hm rfl)
  have c1 := @finishPass_writes m (within_mask hm rfl)
  have c2 := @modTile_writes m (within_mask hm rfl)
  have c3 := @settle_writes m (within_mask hm rfl)
  have c4 := @withdrawTile_writes m (within_mask hm rfl)
  unfold stopDone
  repeat' first
    | with_reducible first | exact writes_done | exact writes_nil | refine writes_cons ?_ ?_ | refine writes_seq ?_ ?_ | refine writes_look fun _ => ?_ | refine writes_when ?_ | refine writes_each fun _ => ?_ | refine writes_ite ?_ ?_ | exact c0 | exact c1 | exact c2 | exact c3 | exact c4 | refine writes_act (bit_mask hm ?_)
    | ((with_reducible show Nat.testBit _ (Eff.num _) = true); simp only [Eff.num]; rfl) | split | dsimp only

theorem stopTile_writes {m : Nat} (hm : 8 &&& m = 8) {a1 : _} : (stopTile a1).Writes m := by
  have c0 := @modTile_writes m (within_mask hm rfl)
  unfold stopTile
  repeat' first
    | with_reducible first | exact writes_done | exact writes_nil | refine writes_cons ?_ ?_ | refine writes_seq ?_ ?_ | refine writes_look fun _ => ?_ | refine writes_when ?_ | refine writes_each fun _ => ?_ | refine writes_ite ?_ ?_ | exact c0 | refine writes_act (bit_mask hm ?_)
    | ((with_reducible show Nat.testBit _ (Eff.num _) = true); simp only [Eff.num]; rfl) | split | dsimp only

theorem writeTilePlain_writes {m : Nat} (hm : 8589934600 &&& m = 8589934600) {a1 : _} {a2 : _} {a3 : _} : (writeTilePlain a1 a2 a3).Writes m := by
  have c0 := @complete_writes m (within_mask hm rfl)
  have c1 := @modTile_writes m (within_mask hm rfl)
  unfold writeTilePlain
  repeat' first
    | with_reducible first | exact writes_done | exact writes_nil | refine writes_cons ?_ ?_ | refine writes_seq ?_ ?_ | refine writes_look fun _ => ?_ | refine writes_when ?_ | refine writes_each fun _ => ?_ | refine writes_ite ?_ ?_ | exact c0 | exact c1 | refine writes_act (bit_mask hm ?_)
    | ((with_reducible show Nat.testBit _ (Eff.num _) = true); simp only [Eff.num]; rfl) | split | dsimp only

theorem writeTleCtrl_writes {m : Nat} (hm : 60641050543 &&& m = 60641050543) {a1 : _} {a2 : _} : (writeTleCtrl a1 a2).Writes m := by
  have c0 := @complete_writes m (within_mask hm rfl)
  have c1 := @modTile_writes m (within_mask hm rfl)
  have c2 := @startTile_writes m (within_mask hm rfl)
  have c3 := @stopTile_writes m (within_mask hm rfl)
  unfold writeTleCtrl
  repeat' first
    | with_reducible first | exact writes_done | exact writes_nil | refine writes_cons ?_ ?_ | refine writes_seq ?_ ?_ | refine writes_look fun _ => ?_ | refine writes_when ?_ | refine writes_each fun _ => ?_ | refine writes_ite ?_ ?_ | exact c0 | exact c1 | exact c2 | exact c3 | refine writes_act (bit_mask hm ?_)
    | ((with_reducible show Nat.testBit _ (Eff.num _) = true); simp only [Eff.num]; rfl) | split | dsimp only

theorem writeTleErr_writes {m : Nat} (hm : 8589934600 &&& m = 8589934600) {a1 : _} {a2 : _} : (writeTleErr a1 a2).Writes m := by
  have c0 := @complete_writes m (within_mask hm rfl)
  have c1 := @modTile_writes m (within_mask hm rfl)
  unfold writeTleErr
  repeat' first
    | with_reducible first | exact writes_done | exact writes_nil | refine writes_cons ?_ ?_ | refine writes_seq ?_ ?_ | refine writes_look fun _ => ?_ | refine writes_when ?_ | refine writes_each fun _ => ?_ | refine writes_ite ?_ ?_ | exact c0 | exact c1 | refine writes_act (bit_mask hm ?_)
    | ((with_reducible show Nat.testBit _ (Eff.num _) = true); simp only [Eff.num]; rfl) | split | dsimp only

theorem writeTleMxcfg_writes {m : Nat} (hm : 8589934600 &&& m = 8589934600) {a1 : _} {a2 : _} : (writeTleMxcfg a1 a2).Writes m := by
  have c0 := @complete_writes m (within_mask hm rfl)
  have c1 := @modTile_writes m (within_mask hm rfl)
  unfold writeTleMxcfg
  repeat' first
    | with_reducible first | exact writes_done | exact writes_nil | refine writes_cons ?_ ?_ | refine writes_seq ?_ ?_ | refine writes_look fun _ => ?_ | refine writes_when ?_ | refine writes_each fun _ => ?_ | refine writes_ite ?_ ?_ | exact c0 | exact c1 | refine writes_act (bit_mask hm ?_)
    | ((with_reducible show Nat.testBit _ (Eff.num _) = true); simp only [Eff.num]; rfl) | split | dsimp only

theorem writeTile_writes {m : Nat} (hm : 60641050543 &&& m = 60641050543) {a1 : _} {a2 : _} {a3 : _} : (writeTile a1 a2 a3).Writes m := by
  have c0 := @complete_writes m (within_mask hm rfl)
  have c1 := @writeTilePlain_writes m (within_mask hm rfl)
  have c2 := @writeTleCtrl_writes m (within_mask hm rfl)
  have c3 := @writeTleErr_writes m (within_mask hm rfl)
  have c4 := @writeTleMxcfg_writes m (within_mask hm rfl)
  unfold writeTile
  repeat' first
    | with_reducible first | exact writes_done | exact writes_nil | refine writes_cons ?_ ?_ | refine writes_seq ?_ ?_ | refine writes_look fun _ => ?_ | refine writes_when ?_ | refine writes_each fun _ => ?_ | refine writes_ite ?_ ?_ | exact c0 | exact c1 | exact c2 | exact c3 | exact c4 | refine writes_act (bit_mask hm ?_)
    | ((with_reducible show Nat.testBit _ (Eff.num _) = true); simp only [Eff.num]; rfl) | split | dsimp only

theorem checkTierRate_writes {m : Nat} (hm : 1 &&& m = 1) : (checkTierRate).Writes m := by
  have c0 := @put_writes m (within_mask hm rfl)
  unfold checkTierRate
  repeat' first
    | with_reducible first | exact writes_done | exact writes_nil | refine writes_cons ?_ ?_ | refine writes_seq ?_ ?_ | refine writes_look fun _ => ?_ | refine writes_when ?_ | refine writes_each fun _ => ?_ | refine writes_ite ?_ ?_ | exact c0 | refine writes_act (bit_mask hm ?_)
    | ((with_reducible show Nat.testBit _ (Eff.num _) = true); simp only [Eff.num]; rfl) | split | dsimp only

theorem channelOut_writes {m : Nat} (hm : 34366320655 &&& m = 34366320655) {a1 : _} : (channelOut a1).Writes m := by
  have c0 := @checkTierRate_writes m (within_mask hm rfl)
  have c1 := @discardGuest_writes m (within_mask hm rfl)
  have c2 := @put_writes m (within_mask hm rfl)
  have c3 := @record_writes m (within_mask hm rfl)
  unfold channelOut
  repeat' first
    | with_reducible first | exact writes_done | exact writes_nil | refine writes_cons ?_ ?_ | refine writes_seq ?_ ?_ | refine writes_look fun _ => ?_ | refine writes_when ?_ | refine writes_each fun _ => ?_ | refine writes_ite ?_ ?_ | exact c0 | exact c1 | exact c2 | exact c3 | refine writes_act (bit_mask hm ?_)
    | ((with_reducible show Nat.testBit _ (Eff.num _) = true); simp only [Eff.num]; rfl) | split | dsimp only

theorem writeFqPtr_writes {m : Nat} (hm : 43192221423 &&& m = 43192221423) {a1 : _} : (writeFqPtr a1).Writes m := by
  have c0 := @complete_writes m (within_mask hm rfl)
  have c1 := @put_writes m (within_mask hm rfl)
  have c2 := @refillRing_writes m (within_mask hm rfl)
  unfold writeFqPtr
  repeat' first
    | with_reducible first | exact writes_done | exact writes_nil | refine writes_cons ?_ ?_ | refine writes_seq ?_ ?_ | refine writes_look fun _ => ?_ | refine writes_when ?_ | refine writes_each fun _ => ?_ | refine writes_ite ?_ ?_ | exact c0 | exact c1 | exact c2 | refine writes_act (bit_mask hm ?_)
    | ((with_reducible show Nat.testBit _ (Eff.num _) = true); simp only [Eff.num]; rfl) | split | dsimp only

theorem writeFresume_writes {m : Nat} (hm : 43192221423 &&& m = 43192221423) {a1 : _} : (writeFresume a1).Writes m := by
  have c0 := @answerRequester_writes m (within_mask hm rfl)
  have c1 := @complete_writes m (within_mask hm rfl)
  have c2 := @modMmu_writes m (within_mask hm rfl)
  have c3 := @put_writes m (within_mask hm rfl)
  have c4 := @resolveFault_writes m (within_mask hm rfl)
  have c5 := @setHeld_writes m (within_mask hm rfl)
  unfold writeFresume
  repeat' first
    | with_reducible first | exact writes_done | exact writes_nil | refine writes_cons ?_ ?_ | refine writes_seq ?_ ?_ | refine writes_look fun _ => ?_ | refine writes_when ?_ | refine writes_each fun _ => ?_ | refine writes_ite ?_ ?_ | exact c0 | exact c1 | exact c2 | exact c3 | exact c4 | exact c5 | refine writes_act (bit_mask hm ?_)
    | ((with_reducible show Nat.testBit _ (Eff.num _) = true); simp only [Eff.num]; rfl) | split | dsimp only

theorem writeInv_writes {m : Nat} (hm : 8589934593 &&& m = 8589934593) {a1 : _} : (writeInv a1).Writes m := by
  have c0 := @complete_writes m (within_mask hm rfl)
  have c1 := @put_writes m (within_mask hm rfl)
  unfold writeInv
  repeat' first
    | with_reducible first | exact writes_done | exact writes_nil | refine writes_cons ?_ ?_ | refine writes_seq ?_ ?_ | refine writes_look fun _ => ?_ | refine writes_when ?_ | refine writes_each fun _ => ?_ | refine writes_ite ?_ ?_ | exact c0 | exact c1 | refine writes_act (bit_mask hm ?_)
    | ((with_reducible show Nat.testBit _ (Eff.num _) = true); simp only [Eff.num]; rfl) | split | dsimp only

theorem writeMmuPart_writes {m : Nat} (hm : 8589934593 &&& m = 8589934593) {a1 : _} : (writeMmuPart a1).Writes m := by
  have c0 := @complete_writes m (within_mask hm rfl)
  have c1 := @put_writes m (within_mask hm rfl)
  unfold writeMmuPart
  repeat' first
    | with_reducible first | exact writes_done | exact writes_nil | refine writes_cons ?_ ?_ | refine writes_seq ?_ ?_ | refine writes_look fun _ => ?_ | refine writes_when ?_ | refine writes_each fun _ => ?_ | refine writes_ite ?_ ?_ | exact c0 | exact c1 | refine writes_act (bit_mask hm ?_)
    | ((with_reducible show Nat.testBit _ (Eff.num _) = true); simp only [Eff.num]; rfl) | split | dsimp only

theorem countAfter_writes {m : Nat} (hm : 72 &&& m = 72) {a1 : _} : (countAfter a1).Writes m := by
  have c0 := @modChan_writes m (within_mask hm rfl)
  have c1 := @modTile_writes m (within_mask hm rfl)
  unfold countAfter
  repeat' first
    | with_reducible first | exact writes_done | exact writes_nil | refine writes_cons ?_ ?_ | refine writes_seq ?_ ?_ | refine writes_look fun _ => ?_ | refine writes_when ?_ | refine writes_each fun _ => ?_ | refine writes_ite ?_ ?_ | exact c0 | exact c1 | refine writes_act (bit_mask hm ?_)
    | ((with_reducible show Nat.testBit _ (Eff.num _) = true); simp only [Eff.num]; rfl) | split | dsimp only

theorem stopChannel_writes {m : Nat} (hm : 262215 &&& m = 262215) {a1 : _} : (stopChannel a1).Writes m := by
  have c0 := @modChan_writes m (within_mask hm rfl)
  have c1 := @put_writes m (within_mask hm rfl)
  have c2 := @withdraw_writes m (within_mask hm rfl)
  unfold stopChannel
  repeat' first
    | with_reducible first | exact writes_done | exact writes_nil | refine writes_cons ?_ ?_ | refine writes_seq ?_ ?_ | refine writes_look fun _ => ?_ | refine writes_when ?_ | refine writes_each fun _ => ?_ | refine writes_ite ?_ ?_ | exact c0 | exact c1 | exact c2 | refine writes_act (bit_mask hm ?_)
    | ((with_reducible show Nat.testBit _ (Eff.num _) = true); simp only [Eff.num]; rfl) | split | dsimp only

theorem writeDmaCtrl_writes {m : Nat} (hm : 8589934593 &&& m = 8589934593) {a1 : _} {a2 : _} : (writeDmaCtrl a1 a2).Writes m := by
  have c0 := @complete_writes m (within_mask hm rfl)
  have c1 := @put_writes m (within_mask hm rfl)
  unfold writeDmaCtrl
  repeat' first
    | with_reducible first | exact writes_done | exact writes_nil | refine writes_cons ?_ ?_ | refine writes_seq ?_ ?_ | refine writes_look fun _ => ?_ | refine writes_when ?_ | refine writes_each fun _ => ?_ | refine writes_ite ?_ ?_ | exact c0 | exact c1 | refine writes_act (bit_mask hm ?_)
    | ((with_reducible show Nat.testBit _ (Eff.num _) = true); simp only [Eff.num]; rfl) | split | dsimp only

theorem haltLines_writes {m : Nat} (hm : 34359738369 &&& m = 34359738369) {a1 : _} : (haltLines a1).Writes m := by
  have c0 := @put_writes m (within_mask hm rfl)
  have c1 := @send_writes m (within_mask hm rfl)
  unfold haltLines
  repeat' first
    | with_reducible first | exact writes_done | exact writes_nil | refine writes_cons ?_ ?_ | refine writes_seq ?_ ?_ | refine writes_look fun _ => ?_ | refine writes_when ?_ | refine writes_each fun _ => ?_ | refine writes_ite ?_ ?_ | exact c0 | exact c1 | refine writes_act (bit_mask hm ?_)
    | ((with_reducible show Nat.testBit _ (Eff.num _) = true); simp only [Eff.num]; rfl) | split | dsimp only

theorem haltRecord_writes {m : Nat} (hm : 34366058497 &&& m = 34366058497) {a1 : _} {a2 : _} : (haltRecord a1 a2).Writes m := by
  have c0 := @record_writes m (within_mask hm rfl)
  unfold haltRecord
  repeat' first
    | with_reducible first | exact writes_done | exact writes_nil | refine writes_cons ?_ ?_ | refine writes_seq ?_ ?_ | refine writes_look fun _ => ?_ | refine writes_when ?_ | refine writes_each fun _ => ?_ | refine writes_ite ?_ ?_ | exact c0 | refine writes_act (bit_mask hm ?_)
    | ((with_reducible show Nat.testBit _ (Eff.num _) = true); simp only [Eff.num]; rfl) | split | dsimp only

theorem haltBegins_writes {m : Nat} (hm : 34366058505 &&& m = 34366058505) : (haltBegins).Writes m := by
  have c0 := @haltLines_writes m (within_mask hm rfl)
  have c1 := @haltRecord_writes m (within_mask hm rfl)
  have c2 := @modObs_writes m (within_mask hm rfl)
  have c3 := @modTile_writes m (within_mask hm rfl)
  have c4 := @put_writes m (within_mask hm rfl)
  have c5 := @raise_writes m (within_mask hm rfl)
  unfold haltBegins
  repeat' first
    | with_reducible first | exact writes_done | exact writes_nil | refine writes_cons ?_ ?_ | refine writes_seq ?_ ?_ | refine writes_look fun _ => ?_ | refine writes_when ?_ | refine writes_each fun _ => ?_ | refine writes_ite ?_ ?_ | exact c0 | exact c1 | exact c2 | exact c3 | exact c4 | exact c5 | refine writes_act (bit_mask hm ?_)
    | ((with_reducible show Nat.testBit _ (Eff.num _) = true); simp only [Eff.num]; rfl) | split | dsimp only

theorem haltOver_writes {m : Nat} (hm : 34433167361 &&& m = 34433167361) : (haltOver).Writes m := by
  have c0 := @haltLines_writes m (within_mask hm rfl)
  have c1 := @haltRecord_writes m (within_mask hm rfl)
  have c2 := @modObs_writes m (within_mask hm rfl)
  have c3 := @modShore_writes m (within_mask hm rfl)
  have c4 := @put_writes m (within_mask hm rfl)
  have c5 := @raise_writes m (within_mask hm rfl)
  unfold haltOver
  repeat' first
    | with_reducible first | exact writes_done | exact writes_nil | refine writes_cons ?_ ?_ | refine writes_seq ?_ ?_ | refine writes_look fun _ => ?_ | refine writes_when ?_ | refine writes_each fun _ => ?_ | refine writes_ite ?_ ?_ | exact c0 | exact c1 | exact c2 | exact c3 | exact c4 | exact c5 | refine writes_act (bit_mask hm ?_)
    | ((with_reducible show Nat.testBit _ (Eff.num _) = true); simp only [Eff.num]; rfl) | split | dsimp only

theorem haltEnds_writes {m : Nat} (hm : 52051115951 &&& m = 52051115951) : (haltEnds).Writes m := by
  have c0 := @haltOver_writes m (within_mask hm rfl)
  have c1 := @modTile_writes m (within_mask hm rfl)
  have c2 := @tilePump_writes m (within_mask hm rfl)
  unfold haltEnds
  repeat' first
    | with_reducible first | exact writes_done | exact writes_nil | refine writes_cons ?_ ?_ | refine writes_seq ?_ ?_ | refine writes_look fun _ => ?_ | refine writes_when ?_ | refine writes_each fun _ => ?_ | refine writes_ite ?_ ?_ | exact c0 | exact c1 | exact c2 | refine writes_act (bit_mask hm ?_)
    | ((with_reducible show Nat.testBit _ (Eff.num _) = true); simp only [Eff.num]; rfl) | split | dsimp only

theorem haltIfHeld_writes {m : Nat} (hm : 34366058505 &&& m = 34366058505) : (haltIfHeld).Writes m := by
  have c0 := @haltBegins_writes m (within_mask hm rfl)
  unfold haltIfHeld
  repeat' first
    | with_reducible first | exact writes_done | exact writes_nil | refine writes_cons ?_ ?_ | refine writes_seq ?_ ?_ | refine writes_look fun _ => ?_ | refine writes_when ?_ | refine writes_each fun _ => ?_ | refine writes_ite ?_ ?_ | exact c0 | refine writes_act (bit_mask hm ?_)
    | ((with_reducible show Nat.testBit _ (Eff.num _) = true); simp only [Eff.num]; rfl) | split | dsimp only

theorem bankWhenStill_writes {m : Nat} (hm : 51546062359 &&& m = 51546062359) : (bankWhenStill).Writes m := by
  have c0 := @enterRole_writes m (within_mask hm rfl)
  have c1 := @modMode_writes m (within_mask hm rfl)
  have c2 := @saveTile_writes m (within_mask hm rfl)
  unfold bankWhenStill
  repeat' first
    | with_reducible first | exact writes_done | exact writes_nil | refine writes_cons ?_ ?_ | refine writes_seq ?_ ?_ | refine writes_look fun _ => ?_ | refine writes_when ?_ | refine writes_each fun _ => ?_ | refine writes_ite ?_ ?_ | exact c0 | exact c1 | exact c2 | refine writes_act (bit_mask hm ?_)
    | ((with_reducible show Nat.testBit _ (Eff.num _) = true); simp only [Eff.num]; rfl) | split | dsimp only

theorem stopEngines_writes {m : Nat} (hm : 9 &&& m = 9) : (stopEngines).Writes m := by
  have c0 := @put_writes m (within_mask hm rfl)
  have c1 := @stopTile_writes m (within_mask hm rfl)
  unfold stopEngines
  repeat' first
    | with_reducible first | exact writes_done | exact writes_nil | refine writes_cons ?_ ?_ | refine writes_seq ?_ ?_ | refine writes_look fun _ => ?_ | refine writes_when ?_ | refine writes_each fun _ => ?_ | refine writes_ite ?_ ?_ | exact c0 | exact c1 | refine writes_act (bit_mask hm ?_)
    | ((with_reducible show Nat.testBit _ (Eff.num _) = true); simp only [Eff.num]; rfl) | split | dsimp only

theorem enterBanked_writes {m : Nat} (hm : 51546062367 &&& m = 51546062367) : (enterBanked).Writes m := by
  have c0 := @bankWhenStill_writes m (within_mask hm rfl)
  have c1 := @modMode_writes m (within_mask hm rfl)
  have c2 := @stopEngines_writes m (within_mask hm rfl)
  unfold enterBanked
  repeat' first
    | with_reducible first | exact writes_done | exact writes_nil | refine writes_cons ?_ ?_ | refine writes_seq ?_ ?_ | refine writes_look fun _ => ?_ | refine writes_when ?_ | refine writes_each fun _ => ?_ | refine writes_ite ?_ ?_ | exact c0 | exact c1 | exact c2 | refine writes_act (bit_mask hm ?_)
    | ((with_reducible show Nat.testBit _ (Eff.num _) = true); simp only [Eff.num]; rfl) | split | dsimp only

theorem reportOut_writes {m : Nat} (hm : 34359758336 &&& m = 34359758336) : (reportOut).Writes m := by
  have c0 := @notify_writes m (within_mask hm rfl)
  unfold reportOut
  repeat' first
    | with_reducible first | exact writes_done | exact writes_nil | refine writes_cons ?_ ?_ | refine writes_seq ?_ ?_ | refine writes_look fun _ => ?_ | refine writes_when ?_ | refine writes_each fun _ => ?_ | refine writes_ite ?_ ?_ | exact c0 | refine writes_act (bit_mask hm ?_)
    | ((with_reducible show Nat.testBit _ (Eff.num _) = true); simp only [Eff.num]; rfl) | split | dsimp only

theorem quarantine_writes {m : Nat} (hm : 34753412783 &&& m = 34753412783) {a1 : _} : (quarantine a1).Writes m := by
  have c0 := @abandonHere_writes m (within_mask hm rfl)
  have c1 := @discardGuests_writes m (within_mask hm rfl)
  have c2 := @dropPackage_writes m (within_mask hm rfl)
  have c3 := @enterRole_writes m (within_mask hm rfl)
  have c4 := @modMode_writes m (within_mask hm rfl)
  have c5 := @modStart_writes m (within_mask hm rfl)
  have c6 := @positionLost_writes m (within_mask hm rfl)
  have c7 := @put_writes m (within_mask hm rfl)
  have c8 := @reportOut_writes m (within_mask hm rfl)
  have c9 := @setPhase_writes m (within_mask hm rfl)
  have c10 := @stopEngines_writes m (within_mask hm rfl)
  have c11 := @writeDump_writes m (within_mask hm rfl)
  unfold quarantine
  repeat' first
    | with_reducible first | exact writes_done | exact writes_nil | refine writes_cons ?_ ?_ | refine writes_seq ?_ ?_ | refine writes_look fun _ => ?_ | refine writes_when ?_ | refine writes_each fun _ => ?_ | refine writes_ite ?_ ?_ | exact c0 | exact c1 | exact c2 | exact c3 | exact c4 | exact c5 | exact c6 | exact c7 | exact c8 | exact c9 | exact c10 | exact c11 | refine writes_act (bit_mask hm ?_)
    | ((with_reducible show Nat.testBit _ (Eff.num _) = true); simp only [Eff.num]; rfl) | split | dsimp only

theorem reportSelf_writes {m : Nat} (hm : 34359758336 &&& m = 34359758336) {a1 : _} : (reportSelf a1).Writes m := by
  have c0 := @toPartner_writes m (within_mask hm rfl)
  have c1 := @toRoot_writes m (within_mask hm rfl)
  unfold reportSelf
  repeat' first
    | with_reducible first | exact writes_done | exact writes_nil | refine writes_cons ?_ ?_ | refine writes_seq ?_ ?_ | refine writes_look fun _ => ?_ | refine writes_when ?_ | refine writes_each fun _ => ?_ | refine writes_ite ?_ ?_ | exact c0 | exact c1 | refine writes_act (bit_mask hm ?_)
    | ((with_reducible show Nat.testBit _ (Eff.num _) = true); simp only [Eff.num]; rfl) | split | dsimp only

theorem wake_writes {m : Nat} (hm : 131072 &&& m = 131072) : (wake).Writes m := by
  have c0 := @modMode_writes m (within_mask hm rfl)
  unfold wake
  repeat' first
    | with_reducible first | exact writes_done | exact writes_nil | refine writes_cons ?_ ?_ | refine writes_seq ?_ ?_ | refine writes_look fun _ => ?_ | refine writes_when ?_ | refine writes_each fun _ => ?_ | refine writes_ite ?_ ?_ | exact c0 | refine writes_act (bit_mask hm ?_)
    | ((with_reducible show Nat.testBit _ (Eff.num _) = true); simp only [Eff.num]; rfl) | split | dsimp only

theorem requestRole_writes {m : Nat} (hm : 51546324511 &&& m = 51546324511) {a1 : _} {a2 : _} (h2 : ∀ x0, (a2 x0).Writes m) : (requestRole a1 a2).Writes m := by
  have c0 := @discardGuests_writes m (within_mask hm rfl)
  have c1 := @enterBanked_writes m (within_mask hm rfl)
  have c2 := @enterRole_writes m (within_mask hm rfl)
  have c3 := @wake_writes m (within_mask hm rfl)
  unfold requestRole
  repeat' first
    | with_reducible first | exact writes_done | exact writes_nil | refine writes_cons ?_ ?_ | refine writes_seq ?_ ?_ | refine writes_look fun _ => ?_ | refine writes_when ?_ | refine writes_each fun _ => ?_ | refine writes_ite ?_ ?_ | exact c0 | exact c1 | exact c2 | exact c3 | exact h2 _ | refine writes_act (bit_mask hm ?_)
    | ((with_reducible show Nat.testBit _ (Eff.num _) = true); simp only [Eff.num]; rfl) | split | dsimp only

theorem assertE3_writes {m : Nat} (hm : 1135019620367 &&& m = 1135019620367) : (assertE3).Writes m := by
  have c0 := @countHomes_writes m (within_mask hm rfl)
  have c1 := @countOpen_writes m (within_mask hm rfl)
  have c2 := @countReset_writes m (within_mask hm rfl)
  have c3 := @countSessions_writes m (within_mask hm rfl)
  have c4 := @countWatches_writes m (within_mask hm rfl)
  have c5 := @haltOver_writes m (within_mask hm rfl)
  have c6 := @modPeer_writes m (within_mask hm rfl)
  have c7 := @modSlot_writes m (within_mask hm rfl)
  have c8 := @modTile_writes m (within_mask hm rfl)
  have c9 := @put_writes m (within_mask hm rfl)
  have c10 := @writeDump_writes m (within_mask hm rfl)
  unfold assertE3
  repeat' first
    | with_reducible first | exact writes_done | exact writes_nil | refine writes_cons ?_ ?_ | refine writes_seq ?_ ?_ | refine writes_look fun _ => ?_ | refine writes_when ?_ | refine writes_each fun _ => ?_ | refine writes_ite ?_ ?_ | exact c0 | exact c1 | exact c2 | exact c3 | exact c4 | exact c5 | exact c6 | exact c7 | exact c8 | exact c9 | exact c10 | refine writes_act (bit_mask hm ?_)
    | ((with_reducible show Nat.testBit _ (Eff.num _) = true); simp only [Eff.num]; rfl) | split | dsimp only

theorem e3Fenced_writes {m : Nat} (hm : 1135019620367 &&& m = 1135019620367) : (e3Fenced).Writes m := by
  have c0 := @assertE3_writes m (within_mask hm rfl)
  unfold e3Fenced
  repeat' first
    | with_reducible first | exact writes_done | exact writes_nil | refine writes_cons ?_ ?_ | refine writes_seq ?_ ?_ | refine writes_look fun _ => ?_ | refine writes_when ?_ | refine writes_each fun _ => ?_ | refine writes_ite ?_ ?_ | exact c0 | refine writes_act (bit_mask hm ?_)
    | ((with_reducible show Nat.testBit _ (Eff.num _) = true); simp only [Eff.num]; rfl) | split | dsimp only

theorem beginE3_writes {m : Nat} (hm : 1135053438639 &&& m = 1135053438639) {a1 : _} : (beginE3 a1).Writes m := by
  have c0 := @abandonHere_writes m (within_mask hm rfl)
  have c1 := @discardGuests_writes m (within_mask hm rfl)
  have c2 := @e3Fenced_writes m (within_mask hm rfl)
  have c3 := @modRst_writes m (within_mask hm rfl)
  have c4 := @modTile_writes m (within_mask hm rfl)
  have c5 := @positionLost_writes m (within_mask hm rfl)
  have c6 := @put_writes m (within_mask hm rfl)
  have c7 := @reportSelf_writes m (within_mask hm rfl)
  unfold beginE3
  repeat' first
    | with_reducible first | exact writes_done | exact writes_nil | refine writes_cons ?_ ?_ | refine writes_seq ?_ ?_ | refine writes_look fun _ => ?_ | refine writes_when ?_ | refine writes_each fun _ => ?_ | refine writes_ite ?_ ?_ | exact c0 | exact c1 | exact c2 | exact c3 | exact c4 | exact c5 | exact c6 | exact c7 | refine writes_act (bit_mask hm ?_)
    | ((with_reducible show Nat.testBit _ (Eff.num _) = true); simp only [Eff.num]; rfl) | split | dsimp only

theorem slotPower_writes {m : Nat} (hm : 34359738369 &&& m = 34359738369) {a1 : _} {a2 : _} : (slotPower a1 a2).Writes m := by
  have c0 := @put_writes m (within_mask hm rfl)
  have c1 := @send_writes m (within_mask hm rfl)
  unfold slotPower
  repeat' first
    | with_reducible first | exact writes_done | exact writes_nil | refine writes_cons ?_ ?_ | refine writes_seq ?_ ?_ | refine writes_look fun _ => ?_ | refine writes_when ?_ | refine writes_each fun _ => ?_ | refine writes_ite ?_ ?_ | exact c0 | exact c1 | refine writes_act (bit_mask hm ?_)
    | ((with_reducible show Nat.testBit _ (Eff.num _) = true); simp only [Eff.num]; rfl) | split | dsimp only

theorem xcnPower_writes {m : Nat} (hm : 34359738369 &&& m = 34359738369) {a1 : _} : (xcnPower a1).Writes m := by
  have c0 := @put_writes m (within_mask hm rfl)
  have c1 := @send_writes m (within_mask hm rfl)
  unfold xcnPower
  repeat' first
    | with_reducible first | exact writes_done | exact writes_nil | refine writes_cons ?_ ?_ | refine writes_seq ?_ ?_ | refine writes_look fun _ => ?_ | refine writes_when ?_ | refine writes_each fun _ => ?_ | refine writes_ite ?_ ?_ | exact c0 | exact c1 | refine writes_act (bit_mask hm ?_)
    | ((with_reducible show Nat.testBit _ (Eff.num _) = true); simp only [Eff.num]; rfl) | split | dsimp only

theorem beginE4_writes {m : Nat} (hm : 35439834625 &&& m = 35439834625) {a1 : _} : (beginE4 a1).Writes m := by
  have c0 := @countReset_writes m (within_mask hm rfl)
  have c1 := @fenceSlot_writes m (within_mask hm rfl)
  have c2 := @slotPower_writes m (within_mask hm rfl)
  have c3 := @xcnPower_writes m (within_mask hm rfl)
  unfold beginE4
  repeat' first
    | with_reducible first | exact writes_done | exact writes_nil | refine writes_cons ?_ ?_ | refine writes_seq ?_ ?_ | refine writes_look fun _ => ?_ | refine writes_when ?_ | refine writes_each fun _ => ?_ | refine writes_ite ?_ ?_ | exact c0 | exact c1 | exact c2 | exact c3 | refine writes_act (bit_mask hm ?_)
    | ((with_reducible show Nat.testBit _ (Eff.num _) = true); simp only [Eff.num]; rfl) | split | dsimp only

theorem clearTile_writes {m : Nat} (hm : 262159 &&& m = 262159) {a1 : _} : (clearTile a1).Writes m := by
  have c0 := @put_writes m (within_mask hm rfl)
  have c1 := @withdrawTile_writes m (within_mask hm rfl)
  unfold clearTile
  repeat' first
    | with_reducible first | exact writes_done | exact writes_nil | refine writes_cons ?_ ?_ | refine writes_seq ?_ ?_ | refine writes_look fun _ => ?_ | refine writes_when ?_ | refine writes_each fun _ => ?_ | refine writes_ite ?_ ?_ | exact c0 | exact c1 | refine writes_act (bit_mask hm ?_)
    | ((with_reducible show Nat.testBit _ (Eff.num _) = true); simp only [Eff.num]; rfl) | split | dsimp only

theorem endReset_writes {m : Nat} (hm : 1073741825 &&& m = 1073741825) {a1 : _} : (endReset a1).Writes m := by
  have c0 := @modRst_writes m (within_mask hm rfl)
  have c1 := @put_writes m (within_mask hm rfl)
  unfold endReset
  repeat' first
    | with_reducible first | exact writes_done | exact writes_nil | refine writes_cons ?_ ?_ | refine writes_seq ?_ ?_ | refine writes_look fun _ => ?_ | refine writes_when ?_ | refine writes_each fun _ => ?_ | refine writes_ite ?_ ?_ | exact c0 | exact c1 | refine writes_act (bit_mask hm ?_)
    | ((with_reducible show Nat.testBit _ (Eff.num _) = true); simp only [Eff.num]; rfl) | split | dsimp only

theorem finishE0_writes {m : Nat} (hm : 35433763055 &&& m = 35433763055) {a1 : _} : (finishE0 a1).Writes m := by
  have c0 := @clearTile_writes m (within_mask hm rfl)
  have c1 := @discardGuest_writes m (within_mask hm rfl)
  have c2 := @endReset_writes m (within_mask hm rfl)
  have c3 := @freeGuest_writes m (within_mask hm rfl)
  have c4 := @modAgent_writes m (within_mask hm rfl)
  have c5 := @modChan_writes m (within_mask hm rfl)
  have c6 := @modMmu_writes m (within_mask hm rfl)
  have c7 := @ownTile_writes m (within_mask hm rfl)
  have c8 := @put_writes m (within_mask hm rfl)
  have c9 := @stopChannel_writes m (within_mask hm rfl)
  unfold finishE0
  repeat' first
    | with_reducible first | exact writes_done | exact writes_nil | refine writes_cons ?_ ?_ | refine writes_seq ?_ ?_ | refine writes_look fun _ => ?_ | refine writes_when ?_ | refine writes_each fun _ => ?_ | refine writes_ite ?_ ?_ | exact c0 | exact c1 | exact c2 | exact c3 | exact c4 | exact c5 | exact c6 | exact c7 | exact c8 | exact c9 | refine writes_act (bit_mask hm ?_)
    | ((with_reducible show Nat.testBit _ (Eff.num _) = true); simp only [Eff.num]; rfl) | split | dsimp only

theorem finishE1_writes {m : Nat} (hm : 52856553199 &&& m = 52856553199) {a1 : _} : (finishE1 a1).Writes m := by
  have c0 := @abandonHere_writes m (within_mask hm rfl)
  have c1 := @endReset_writes m (within_mask hm rfl)
  have c2 := @put_writes m (within_mask hm rfl)
  have c3 := @spiFrame_writes m (within_mask hm rfl)
  have c4 := @stopChannel_writes m (within_mask hm rfl)
  have c5 := @xcnError_writes m (within_mask hm rfl)
  unfold finishE1
  repeat' first
    | with_reducible first | exact writes_done | exact writes_nil | refine writes_cons ?_ ?_ | refine writes_seq ?_ ?_ | refine writes_look fun _ => ?_ | refine writes_when ?_ | refine writes_each fun _ => ?_ | refine writes_ite ?_ ?_ | exact c0 | exact c1 | exact c2 | exact c3 | exact c4 | exact c5 | refine writes_act (bit_mask hm ?_)
    | ((with_reducible show Nat.testBit _ (Eff.num _) = true); simp only [Eff.num]; rfl) | split | dsimp only

theorem finishLow_writes {m : Nat} (hm : 52856553199 &&& m = 52856553199) {a1 : _} : (finishLow a1).Writes m := by
  have c0 := @finishE0_writes m (within_mask hm rfl)
  have c1 := @finishE1_writes m (within_mask hm rfl)
  unfold finishLow
  repeat' first
    | with_reducible first | exact writes_done | exact writes_nil | refine writes_cons ?_ ?_ | refine writes_seq ?_ ?_ | refine writes_look fun _ => ?_ | refine writes_when ?_ | refine writes_each fun _ => ?_ | refine writes_ite ?_ ?_ | exact c0 | exact c1 | refine writes_act (bit_mask hm ?_)
    | ((with_reducible show Nat.testBit _ (Eff.num _) = true); simp only [Eff.num]; rfl) | split | dsimp only

theorem slotInPlace_writes {m : Nat} (hm : 35534462631 &&& m = 35534462631) {a1 : _} {a2 : _} : (slotInPlace a1 a2).Writes m := by
  have c0 := @abandonHere_writes m (within_mask hm rfl)
  have c1 := @endReset_writes m (within_mask hm rfl)
  have c2 := @fenceSlot_writes m (within_mask hm rfl)
  have c3 := @modShore_writes m (within_mask hm rfl)
  have c4 := @shoreNotice_writes m (within_mask hm rfl)
  unfold slotInPlace
  repeat' first
    | with_reducible first | exact writes_done | exact writes_nil | refine writes_cons ?_ ?_ | refine writes_seq ?_ ?_ | refine writes_look fun _ => ?_ | refine writes_when ?_ | refine writes_each fun _ => ?_ | refine writes_ite ?_ ?_ | exact c0 | exact c1 | exact c2 | exact c3 | exact c4 | refine writes_act (bit_mask hm ?_)
    | ((with_reducible show Nat.testBit _ (Eff.num _) = true); simp only [Eff.num]; rfl) | split | dsimp only

theorem beginLow_writes {m : Nat} (hm : 52856553199 &&& m = 52856553199) {a1 : _} : (beginLow a1).Writes m := by
  have c0 := @countReset_writes m (within_mask hm rfl)
  have c1 := @finishLow_writes m (within_mask hm rfl)
  have c2 := @positionLost_writes m (within_mask hm rfl)
  have c3 := @put_writes m (within_mask hm rfl)
  have c4 := @slotInPlace_writes m (within_mask hm rfl)
  have c5 := @stopTile_writes m (within_mask hm rfl)
  unfold beginLow
  repeat' first
    | with_reducible first | exact writes_done | exact writes_nil | refine writes_cons ?_ ?_ | refine writes_seq ?_ ?_ | refine writes_look fun _ => ?_ | refine writes_when ?_ | refine writes_each fun _ => ?_ | refine writes_ite ?_ ?_ | exact c0 | exact c1 | exact c2 | exact c3 | exact c4 | exact c5 | refine writes_act (bit_mask hm ?_)
    | ((with_reducible show Nat.testBit _ (Eff.num _) = true); simp only [Eff.num]; rfl) | split | dsimp only

theorem dropRecords_writes {m : Nat} (hm : 134217729 &&& m = 134217729) : (dropRecords).Writes m := by
  have c0 := @bump_writes m (within_mask hm rfl)
  have c1 := @countQueue_writes m (within_mask hm rfl)
  have c2 := @modWit_writes m (within_mask hm rfl)
  unfold dropRecords
  repeat' first
    | with_reducible first | exact writes_done | exact writes_nil | refine writes_cons ?_ ?_ | refine writes_seq ?_ ?_ | refine writes_look fun _ => ?_ | refine writes_when ?_ | refine writes_each fun _ => ?_ | refine writes_ite ?_ ?_ | exact c0 | exact c1 | exact c2 | refine writes_act (bit_mask hm ?_)
    | ((with_reducible show Nat.testBit _ (Eff.num _) = true); simp only [Eff.num]; rfl) | split | dsimp only

theorem dieReset_writes {m : Nat} (hm : 35676028591 &&& m = 35676028591) {a1 : _} : (dieReset a1).Writes m := by
  have c0 := @clearTile_writes m (within_mask hm rfl)
  have c1 := @countReset_writes m (within_mask hm rfl)
  have c2 := @dropRecords_writes m (within_mask hm rfl)
  have c3 := @endReset_writes m (within_mask hm rfl)
  have c4 := @modMmu_writes m (within_mask hm rfl)
  have c5 := @positionLost_writes m (within_mask hm rfl)
  have c6 := @settleWitness_writes m (within_mask hm rfl)
  unfold dieReset
  repeat' first
    | with_reducible first | exact writes_done | exact writes_nil | refine writes_cons ?_ ?_ | refine writes_seq ?_ ?_ | refine writes_look fun _ => ?_ | refine writes_when ?_ | refine writes_each fun _ => ?_ | refine writes_ite ?_ ?_ | exact c0 | exact c1 | exact c2 | exact c3 | exact c4 | exact c5 | exact c6 | refine writes_act (bit_mask hm ?_)
    | ((with_reducible show Nat.testBit _ (Eff.num _) = true); simp only [Eff.num]; rfl) | split | dsimp only

theorem resetSlot_writes {m : Nat} (hm : 35439834625 &&& m = 35439834625) {a1 : _} {a2 : _} : (resetSlot a1 a2).Writes m := by
  have c0 := @countReset_writes m (within_mask hm rfl)
  have c1 := @driveReset_writes m (within_mask hm rfl)
  have c2 := @endReset_writes m (within_mask hm rfl)
  have c3 := @fenceSlot_writes m (within_mask hm rfl)
  have c4 := @modSlot_writes m (within_mask hm rfl)
  unfold resetSlot
  repeat' first
    | with_reducible first | exact writes_done | exact writes_nil | refine writes_cons ?_ ?_ | refine writes_seq ?_ ?_ | refine writes_look fun _ => ?_ | refine writes_when ?_ | refine writes_each fun _ => ?_ | refine writes_ite ?_ ?_ | exact c0 | exact c1 | exact c2 | exact c3 | exact c4 | refine writes_act (bit_mask hm ?_)
    | ((with_reducible show Nat.testBit _ (Eff.num _) = true); simp only [Eff.num]; rfl) | split | dsimp only

theorem orderReset_writes {m : Nat} (hm : 1152368180975 &&& m = 1152368180975) {a1 : _} : (orderReset a1).Writes m := by
  have c0 := @beginE3_writes m (within_mask hm rfl)
  have c1 := @beginE4_writes m (within_mask hm rfl)
  have c2 := @beginLow_writes m (within_mask hm rfl)
  have c3 := @dieReset_writes m (within_mask hm rfl)
  have c4 := @endReset_writes m (within_mask hm rfl)
  have c5 := @modRst_writes m (within_mask hm rfl)
  have c6 := @put_writes m (within_mask hm rfl)
  have c7 := @resetSlot_writes m (within_mask hm rfl)
  have c8 := @wake_writes m (within_mask hm rfl)
  unfold orderReset
  repeat' first
    | with_reducible first | exact writes_done | exact writes_nil | refine writes_cons ?_ ?_ | refine writes_seq ?_ ?_ | refine writes_look fun _ => ?_ | refine writes_when ?_ | refine writes_each fun _ => ?_ | refine writes_ite ?_ ?_ | exact c0 | exact c1 | exact c2 | exact c3 | exact c4 | exact c5 | exact c6 | exact c7 | exact c8 | refine writes_act (bit_mask hm ?_)
    | ((with_reducible show Nat.testBit _ (Eff.num _) = true); simp only [Eff.num]; rfl) | split | dsimp only

theorem eventReset_writes {m : Nat} (hm : 1152653393647 &&& m = 1152653393647) {a1 : _} {a2 : _} {a3 : _} : (eventReset a1 a2 a3).Writes m := by
  have c0 := @orderReset_writes m (within_mask hm rfl)
  have c1 := @quarantine_writes m (within_mask hm rfl)
  unfold eventReset
  repeat' first
    | with_reducible first | exact writes_done | exact writes_nil | refine writes_cons ?_ ?_ | refine writes_seq ?_ ?_ | refine writes_look fun _ => ?_ | refine writes_when ?_ | refine writes_each fun _ => ?_ | refine writes_ite ?_ ?_ | exact c0 | exact c1 | refine writes_act (bit_mask hm ?_)
    | ((with_reducible show Nat.testBit _ (Eff.num _) = true); simp only [Eff.num]; rfl) | split | dsimp only

theorem forgive_writes {m : Nat} (hm : 1073741824 &&& m = 1073741824) {a1 : _} : (forgive a1).Writes m := by
  have c0 := @modRst_writes m (within_mask hm rfl)
  unfold forgive
  repeat' first
    | with_reducible first | exact writes_done | exact writes_nil | refine writes_cons ?_ ?_ | refine writes_seq ?_ ?_ | refine writes_look fun _ => ?_ | refine writes_when ?_ | refine writes_each fun _ => ?_ | refine writes_ite ?_ ?_ | exact c0 | refine writes_act (bit_mask hm ?_)
    | ((with_reducible show Nat.testBit _ (Eff.num _) = true); simp only [Eff.num]; rfl) | split | dsimp only

end Sys2Proof.Machine
end

