-- ==== Sys2Proof/Laws/Writes11.lean ====
section
/-! SUPPORT. What each shared operation writes (part 11): one lemma per operation, of the areas its effects name. -/

set_option maxRecDepth 16000

namespace Sys2Proof.Machine

theorem orderByCommand_writes {m : Nat} (hm : 1160958115583 &&& m = 1160958115583) {a1 : _} {a2 : _} : (orderByCommand a1 a2).Writes m := by
  have c0 := @complete_writes m (within_mask hm rfl)
  have c1 := @declareNow_writes m (within_mask hm rfl)
  have c2 := @orderReset_writes m (within_mask hm rfl)
  have c3 := @put_writes m (within_mask hm rfl)
  unfold orderByCommand
  repeat' first
    | with_reducible first | exact writes_done | exact writes_nil | refine writes_cons ?_ ?_ | refine writes_seq ?_ ?_ | refine writes_look fun _ => ?_ | refine writes_when ?_ | refine writes_each fun _ => ?_ | refine writes_ite ?_ ?_ | exact c0 | exact c1 | exact c2 | exact c3 | refine writes_act (bit_mask hm ?_)
    | ((with_reducible show Nat.testBit _ (Eff.num _) = true); simp only [Eff.num]; rfl) | split | dsimp only

theorem saveCritical_writes {m : Nat} (hm : 17179885590 &&& m = 17179885590) {a1 : _} : (saveCritical a1).Writes m := by
  have c0 := @saveTile_writes m (within_mask hm rfl)
  unfold saveCritical
  repeat' first
    | with_reducible first | exact writes_done | exact writes_nil | refine writes_cons ?_ ?_ | refine writes_seq ?_ ?_ | refine writes_look fun _ => ?_ | refine writes_when ?_ | refine writes_each fun _ => ?_ | refine writes_ite ?_ ?_ | exact c0 | refine writes_act (bit_mask hm ?_)
    | ((with_reducible show Nat.testBit _ (Eff.num _) = true); simp only [Eff.num]; rfl) | split | dsimp only

theorem stopsEnded_writes {m : Nat} (hm : 1152368180991 &&& m = 1152368180991) : (stopsEnded).Writes m := by
  have c0 := @bankWhenStill_writes m (within_mask hm rfl)
  have c1 := @e3Fenced_writes m (within_mask hm rfl)
  have c2 := @finishLow_writes m (within_mask hm rfl)
  unfold stopsEnded
  repeat' first
    | with_reducible first | exact writes_done | exact writes_nil | refine writes_cons ?_ ?_ | refine writes_seq ?_ ?_ | refine writes_look fun _ => ?_ | refine writes_when ?_ | refine writes_each fun _ => ?_ | refine writes_ite ?_ ?_ | exact c0 | exact c1 | exact c2 | refine writes_act (bit_mask hm ?_)
    | ((with_reducible show Nat.testBit _ (Eff.num _) = true); simp only [Eff.num]; rfl) | split | dsimp only

theorem watchdog_writes {m : Nat} (hm : 1152653393647 &&& m = 1152653393647) {a1 : _} {a2 : _} {a3 : _} : (watchdog a1 a2 a3).Writes m := by
  have c0 := @eventReset_writes m (within_mask hm rfl)
  have c1 := @raise_writes m (within_mask hm rfl)
  unfold watchdog
  repeat' first
    | with_reducible first | exact writes_done | exact writes_nil | refine writes_cons ?_ ?_ | refine writes_seq ?_ ?_ | refine writes_look fun _ => ?_ | refine writes_when ?_ | refine writes_each fun _ => ?_ | refine writes_ite ?_ ?_ | exact c0 | exact c1 | refine writes_act (bit_mask hm ?_)
    | ((with_reducible show Nat.testBit _ (Eff.num _) = true); simp only [Eff.num]; rfl) | split | dsimp only

theorem writeRstCtrl_writes {m : Nat} (hm : 1160958115583 &&& m = 1160958115583) {a1 : _} : (writeRstCtrl a1).Writes m := by
  have c0 := @complete_writes m (within_mask hm rfl)
  have c1 := @orderByCommand_writes m (within_mask hm rfl)
  have c2 := @put_writes m (within_mask hm rfl)
  unfold writeRstCtrl
  repeat' first
    | with_reducible first | exact writes_done | exact writes_nil | refine writes_cons ?_ ?_ | refine writes_seq ?_ ?_ | refine writes_look fun _ => ?_ | refine writes_when ?_ | refine writes_each fun _ => ?_ | refine writes_ite ?_ ?_ | exact c0 | exact c1 | exact c2 | refine writes_act (bit_mask hm ?_)
    | ((with_reducible show Nat.testBit _ (Eff.num _) = true); simp only [Eff.num]; rfl) | split | dsimp only

theorem writeRstPwr_writes {m : Nat} (hm : 42949672961 &&& m = 42949672961) {a1 : _} : (writeRstPwr a1).Writes m := by
  have c0 := @complete_writes m (within_mask hm rfl)
  have c1 := @slotPower_writes m (within_mask hm rfl)
  unfold writeRstPwr
  repeat' first
    | with_reducible first | exact writes_done | exact writes_nil | refine writes_cons ?_ ?_ | refine writes_seq ?_ ?_ | refine writes_look fun _ => ?_ | refine writes_when ?_ | refine writes_each fun _ => ?_ | refine writes_ite ?_ ?_ | exact c0 | exact c1 | refine writes_act (bit_mask hm ?_)
    | ((with_reducible show Nat.testBit _ (Eff.num _) = true); simp only [Eff.num]; rfl) | split | dsimp only

theorem writeRstQclr_writes {m : Nat} (hm : 9663676417 &&& m = 9663676417) {a1 : _} : (writeRstQclr a1).Writes m := by
  have c0 := @complete_writes m (within_mask hm rfl)
  have c1 := @forgive_writes m (within_mask hm rfl)
  have c2 := @put_writes m (within_mask hm rfl)
  have c3 := @setSlot_writes m (within_mask hm rfl)
  unfold writeRstQclr
  repeat' first
    | with_reducible first | exact writes_done | exact writes_nil | refine writes_cons ?_ ?_ | refine writes_seq ?_ ?_ | refine writes_look fun _ => ?_ | refine writes_when ?_ | refine writes_each fun _ => ?_ | refine writes_ite ?_ ?_ | exact c0 | exact c1 | exact c2 | exact c3 | refine writes_act (bit_mask hm ?_)
    | ((with_reducible show Nat.testBit _ (Eff.num _) = true); simp only [Eff.num]; rfl) | split | dsimp only

theorem captured_writes {m : Nat} (hm : 17179869184 &&& m = 17179869184) {a1 : _} {a2 : _} (h2 : ∀ x0, (a2 x0).Writes m) : (captured a1 a2).Writes m := by
  have c0 := @withFrees_writes m (within_mask hm rfl)
  unfold captured
  repeat' first
    | with_reducible first | exact writes_done | exact writes_nil | refine writes_cons ?_ ?_ | refine writes_seq ?_ ?_ | refine writes_look fun _ => ?_ | refine writes_when ?_ | refine writes_each fun _ => ?_ | refine writes_ite ?_ ?_ | refine c0 (fun _ => ?_) | exact h2 _ | refine writes_act (bit_mask hm ?_)
    | ((with_reducible show Nat.testBit _ (Eff.num _) = true); simp only [Eff.num]; rfl) | split | dsimp only

theorem releaseHalt_writes {m : Nat} (hm : 1152636616687 &&& m = 1152636616687) : (releaseHalt).Writes m := by
  have c0 := @haltEnds_writes m (within_mask hm rfl)
  have c1 := @modRst_writes m (within_mask hm rfl)
  have c2 := @orderReset_writes m (within_mask hm rfl)
  unfold releaseHalt
  repeat' first
    | with_reducible first | exact writes_done | exact writes_nil | refine writes_cons ?_ ?_ | refine writes_seq ?_ ?_ | refine writes_look fun _ => ?_ | refine writes_when ?_ | refine writes_each fun _ => ?_ | refine writes_ite ?_ ?_ | exact c0 | exact c1 | exact c2 | refine writes_act (bit_mask hm ?_)
    | ((with_reducible show Nat.testBit _ (Eff.num _) = true); simp only [Eff.num]; rfl) | split | dsimp only

theorem settleHalt_writes {m : Nat} (hm : 1152636616687 &&& m = 1152636616687) : (settleHalt).Writes m := by
  have c0 := @haltIfHeld_writes m (within_mask hm rfl)
  have c1 := @releaseHalt_writes m (within_mask hm rfl)
  unfold settleHalt
  repeat' first
    | with_reducible first | exact writes_done | exact writes_nil | refine writes_cons ?_ ?_ | refine writes_seq ?_ ?_ | refine writes_look fun _ => ?_ | refine writes_when ?_ | refine writes_each fun _ => ?_ | refine writes_ite ?_ ?_ | exact c0 | exact c1 | refine writes_act (bit_mask hm ?_)
    | ((with_reducible show Nat.testBit _ (Eff.num _) = true); simp only [Eff.num]; rfl) | split | dsimp only

theorem holdByCommand_writes {m : Nat} (hm : 1152636616687 &&& m = 1152636616687) {a1 : _} (h1 : ∀ x0, (a1 x0).Writes m) : (holdByCommand a1).Writes m := by
  have c0 := @put_writes m (within_mask hm rfl)
  have c1 := @settleHalt_writes m (within_mask hm rfl)
  unfold holdByCommand
  repeat' first
    | with_reducible first | exact writes_done | exact writes_nil | refine writes_cons ?_ ?_ | refine writes_seq ?_ ?_ | refine writes_look fun _ => ?_ | refine writes_when ?_ | refine writes_each fun _ => ?_ | refine writes_ite ?_ ?_ | exact c0 | exact c1 | exact h1 _ | refine writes_act (bit_mask hm ?_)
    | ((with_reducible show Nat.testBit _ (Eff.num _) = true); simp only [Eff.num]; rfl) | split | dsimp only

theorem releaseByCommand_writes {m : Nat} (hm : 1152636616687 &&& m = 1152636616687) : (releaseByCommand).Writes m := by
  have c0 := @put_writes m (within_mask hm rfl)
  have c1 := @settleHalt_writes m (within_mask hm rfl)
  unfold releaseByCommand
  repeat' first
    | with_reducible first | exact writes_done | exact writes_nil | refine writes_cons ?_ ?_ | refine writes_seq ?_ ?_ | refine writes_look fun _ => ?_ | refine writes_when ?_ | refine writes_each fun _ => ?_ | refine writes_ite ?_ ?_ | exact c0 | exact c1 | refine writes_act (bit_mask hm ?_)
    | ((with_reducible show Nat.testBit _ (Eff.num _) = true); simp only [Eff.num]; rfl) | split | dsimp only

theorem settleTally_writes {m : Nat} (hm : 1 &&& m = 1) : (settleTally).Writes m := by
  have c0 := @put_writes m (within_mask hm rfl)
  unfold settleTally
  repeat' first
    | with_reducible first | exact writes_done | exact writes_nil | refine writes_cons ?_ ?_ | refine writes_seq ?_ ?_ | refine writes_look fun _ => ?_ | refine writes_when ?_ | refine writes_each fun _ => ?_ | refine writes_ite ?_ ?_ | exact c0 | refine writes_act (bit_mask hm ?_)
    | ((with_reducible show Nat.testBit _ (Eff.num _) = true); simp only [Eff.num]; rfl) | split | dsimp only

theorem tdo_writes {m : Nat} (hm : 34359738368 &&& m = 34359738368) {a1 : _} : (tdo a1).Writes m := by
  have c0 := @send_writes m (within_mask hm rfl)
  unfold tdo
  repeat' first
    | with_reducible first | exact writes_done | exact writes_nil | refine writes_cons ?_ ?_ | refine writes_seq ?_ ?_ | refine writes_look fun _ => ?_ | refine writes_when ?_ | refine writes_each fun _ => ?_ | refine writes_ite ?_ ?_ | exact c0 | refine writes_act (bit_mask hm ?_)
    | ((with_reducible show Nat.testBit _ (Eff.num _) = true); simp only [Eff.num]; rfl) | split | dsimp only

theorem writeDstCtrl_writes {m : Nat} (hm : 42955993089 &&& m = 42955993089) {a1 : _} : (writeDstCtrl a1).Writes m := by
  have c0 := @complete_writes m (within_mask hm rfl)
  have c1 := @record_writes m (within_mask hm rfl)
  unfold writeDstCtrl
  repeat' first
    | with_reducible first | exact writes_done | exact writes_nil | refine writes_cons ?_ ?_ | refine writes_seq ?_ ?_ | refine writes_look fun _ => ?_ | refine writes_when ?_ | refine writes_each fun _ => ?_ | refine writes_ite ?_ ?_ | exact c0 | exact c1 | refine writes_act (bit_mask hm ?_)
    | ((with_reducible show Nat.testBit _ (Eff.num _) = true); simp only [Eff.num]; rfl) | split | dsimp only

theorem writeTalHalt_writes {m : Nat} (hm : 1161226551279 &&& m = 1161226551279) {a1 : _} : (writeTalHalt a1).Writes m := by
  have c0 := @complete_writes m (within_mask hm rfl)
  have c1 := @holdByCommand_writes m (within_mask hm rfl)
  have c2 := @releaseByCommand_writes m (within_mask hm rfl)
  unfold writeTalHalt
  repeat' first
    | with_reducible first | exact writes_done | exact writes_nil | refine writes_cons ?_ ?_ | refine writes_seq ?_ ?_ | refine writes_look fun _ => ?_ | refine writes_when ?_ | refine writes_each fun _ => ?_ | refine writes_ite ?_ ?_ | exact c0 | refine c1 (fun _ => ?_) | exact c2 | refine writes_act (bit_mask hm ?_)
    | ((with_reducible show Nat.testBit _ (Eff.num _) = true); simp only [Eff.num]; rfl) | split | dsimp only

theorem writeTrigA_writes {m : Nat} (hm : 8594128897 &&& m = 8594128897) {a1 : _} {a2 : _} : (writeTrigA a1 a2).Writes m := by
  have c0 := @complete_writes m (within_mask hm rfl)
  have c1 := @modObs_writes m (within_mask hm rfl)
  have c2 := @writePlain_writes m (within_mask hm rfl)
  unfold writeTrigA
  repeat' first
    | with_reducible first | exact writes_done | exact writes_nil | refine writes_cons ?_ ?_ | refine writes_seq ?_ ?_ | refine writes_look fun _ => ?_ | refine writes_when ?_ | refine writes_each fun _ => ?_ | refine writes_ite ?_ ?_ | exact c0 | exact c1 | exact c2 | refine writes_act (bit_mask hm ?_)
    | ((with_reducible show Nat.testBit _ (Eff.num _) = true); simp only [Eff.num]; rfl) | split | dsimp only

theorem applyEntry_writes {m : Nat} (hm : 1 &&& m = 1) {a1 : _} : (applyEntry a1).Writes m := by
  unfold applyEntry
  repeat' first
    | with_reducible first | exact writes_done | exact writes_nil | refine writes_cons ?_ ?_ | refine writes_seq ?_ ?_ | refine writes_look fun _ => ?_ | refine writes_when ?_ | refine writes_each fun _ => ?_ | refine writes_ite ?_ ?_ | refine writes_act (bit_mask hm ?_)
    | ((with_reducible show Nat.testBit _ (Eff.num _) = true); simp only [Eff.num]; rfl) | split | dsimp only

theorem putDigest_writes {m : Nat} (hm : 1 &&& m = 1) {a1 : _} {a2 : _} {a3 : _} : (putDigest a1 a2 a3).Writes m := by
  have c0 := @put_writes m (within_mask hm rfl)
  unfold putDigest
  repeat' first
    | with_reducible first | exact writes_done | exact writes_nil | refine writes_cons ?_ ?_ | refine writes_seq ?_ ?_ | refine writes_look fun _ => ?_ | refine writes_when ?_ | refine writes_each fun _ => ?_ | refine writes_ite ?_ ?_ | exact c0 | refine writes_act (bit_mask hm ?_)
    | ((with_reducible show Nat.testBit _ (Eff.num _) = true); simp only [Eff.num]; rfl) | split | dsimp only

theorem dropProposal_writes {m : Nat} (hm : 8388609 &&& m = 8388609) : (dropProposal).Writes m := by
  have c0 := @modSec_writes m (within_mask hm rfl)
  have c1 := @put_writes m (within_mask hm rfl)
  have c2 := @putDigest_writes m (within_mask hm rfl)
  unfold dropProposal
  repeat' first
    | with_reducible first | exact writes_done | exact writes_nil | refine writes_cons ?_ ?_ | refine writes_seq ?_ ?_ | refine writes_look fun _ => ?_ | refine writes_when ?_ | refine writes_each fun _ => ?_ | refine writes_ite ?_ ?_ | exact c0 | exact c1 | exact c2 | refine writes_act (bit_mask hm ?_)
    | ((with_reducible show Nat.testBit _ (Eff.num _) = true); simp only [Eff.num]; rfl) | split | dsimp only

theorem showProtection_writes {m : Nat} (hm : 1 &&& m = 1) : (showProtection).Writes m := by
  have c0 := @put_writes m (within_mask hm rfl)
  have c1 := @putDigest_writes m (within_mask hm rfl)
  unfold showProtection
  repeat' first
    | with_reducible first | exact writes_done | exact writes_nil | refine writes_cons ?_ ?_ | refine writes_seq ?_ ?_ | refine writes_look fun _ => ?_ | refine writes_when ?_ | refine writes_each fun _ => ?_ | refine writes_ite ?_ ?_ | exact c0 | exact c1 | refine writes_act (bit_mask hm ?_)
    | ((with_reducible show Nat.testBit _ (Eff.num _) = true); simp only [Eff.num]; rfl) | split | dsimp only

theorem applyChange_writes {m : Nat} (hm : 34374447105 &&& m = 34374447105) {a1 : _} : (applyChange a1).Writes m := by
  have c0 := @applyEntry_writes m (within_mask hm rfl)
  have c1 := @dropProposal_writes m (within_mask hm rfl)
  have c2 := @modSec_writes m (within_mask hm rfl)
  have c3 := @put_writes m (within_mask hm rfl)
  have c4 := @raise_writes m (within_mask hm rfl)
  have c5 := @record_writes m (within_mask hm rfl)
  have c6 := @showProtection_writes m (within_mask hm rfl)
  unfold applyChange
  repeat' first
    | with_reducible first | exact writes_done | exact writes_nil | refine writes_cons ?_ ?_ | refine writes_seq ?_ ?_ | refine writes_look fun _ => ?_ | refine writes_when ?_ | refine writes_each fun _ => ?_ | refine writes_ite ?_ ?_ | exact c0 | exact c1 | exact c2 | exact c3 | exact c4 | exact c5 | exact c6 | refine writes_act (bit_mask hm ?_)
    | ((with_reducible show Nat.testBit _ (Eff.num _) = true); simp only [Eff.num]; rfl) | split | dsimp only

theorem attest_writes {m : Nat} (hm : 8388609 &&& m = 8388609) {a1 : _} {a2 : _} (h2 : ∀ x0, (a2 x0).Writes m) : (attest a1 a2).Writes m := by
  have c0 := @withIdentity_writes m (within_mask hm rfl)
  unfold attest
  repeat' first
    | with_reducible first | exact writes_done | exact writes_nil | refine writes_cons ?_ ?_ | refine writes_seq ?_ ?_ | refine writes_look fun _ => ?_ | refine writes_when ?_ | refine writes_each fun _ => ?_ | refine writes_ite ?_ ?_ | refine c0 (fun _ => ?_) | exact h2 _ | refine writes_act (bit_mask hm ?_)
    | ((with_reducible show Nat.testBit _ (Eff.num _) = true); simp only [Eff.num]; rfl) | split | dsimp only

theorem changeAuthz_writes {m : Nat} (hm : 34374447105 &&& m = 34374447105) {a1 : _} {a2 : _} (h2 : ∀ x0 x1, (a2 x0 x1).Writes m) : (changeAuthz a1 a2).Writes m := by
  have c0 := @applyChange_writes m (within_mask hm rfl)
  have c1 := @modSec_writes m (within_mask hm rfl)
  have c2 := @put_writes m (within_mask hm rfl)
  have c3 := @putDigest_writes m (within_mask hm rfl)
  have c4 := @raise_writes m (within_mask hm rfl)
  unfold changeAuthz
  repeat' first
    | with_reducible first | exact writes_done | exact writes_nil | refine writes_cons ?_ ?_ | refine writes_seq ?_ ?_ | refine writes_look fun _ => ?_ | refine writes_when ?_ | refine writes_each fun _ => ?_ | refine writes_ite ?_ ?_ | exact c0 | exact c1 | exact c2 | exact c3 | exact c4 | exact h2 _ _ | refine writes_act (bit_mask hm ?_)
    | ((with_reducible show Nat.testBit _ (Eff.num _) = true); simp only [Eff.num]; rfl) | split | dsimp only

theorem expireProposal_writes {m : Nat} (hm : 34368147457 &&& m = 34368147457) : (expireProposal).Writes m := by
  have c0 := @dropProposal_writes m (within_mask hm rfl)
  have c1 := @raise_writes m (within_mask hm rfl)
  unfold expireProposal
  repeat' first
    | with_reducible first | exact writes_done | exact writes_nil | refine writes_cons ?_ ?_ | refine writes_seq ?_ ?_ | refine writes_look fun _ => ?_ | refine writes_when ?_ | refine writes_each fun _ => ?_ | refine writes_ite ?_ ?_ | exact c0 | exact c1 | refine writes_act (bit_mask hm ?_)
    | ((with_reducible show Nat.testBit _ (Eff.num _) = true); simp only [Eff.num]; rfl) | split | dsimp only

theorem flashImage_writes {m : Nat} (hm : 8388608 &&& m = 8388608) {a1 : _} : (flashImage a1).Writes m := by
  have c0 := @modSec_writes m (within_mask hm rfl)
  unfold flashImage
  repeat' first
    | with_reducible first | exact writes_done | exact writes_nil | refine writes_cons ?_ ?_ | refine writes_seq ?_ ?_ | refine writes_look fun _ => ?_ | refine writes_when ?_ | refine writes_each fun _ => ?_ | refine writes_ite ?_ ?_ | exact c0 | refine writes_act (bit_mask hm ?_)
    | ((with_reducible show Nat.testBit _ (Eff.num _) = true); simp only [Eff.num]; rfl) | split | dsimp only

theorem measure_writes {m : Nat} (hm : 8388609 &&& m = 8388609) {a1 : _} : (measure a1).Writes m := by
  have c0 := @modSec_writes m (within_mask hm rfl)
  have c1 := @put_writes m (within_mask hm rfl)
  have c2 := @putDigest_writes m (within_mask hm rfl)
  unfold measure
  repeat' first
    | with_reducible first | exact writes_done | exact writes_nil | refine writes_cons ?_ ?_ | refine writes_seq ?_ ?_ | refine writes_look fun _ => ?_ | refine writes_when ?_ | refine writes_each fun _ => ?_ | refine writes_ite ?_ ?_ | exact c0 | exact c1 | exact c2 | refine writes_act (bit_mask hm ?_)
    | ((with_reducible show Nat.testBit _ (Eff.num _) = true); simp only [Eff.num]; rfl) | split | dsimp only

theorem recordFirmware_writes {m : Nat} (hm : 34366058497 &&& m = 34366058497) {a1 : _} {a2 : _} : (recordFirmware a1 a2).Writes m := by
  have c0 := @record_writes m (within_mask hm rfl)
  unfold recordFirmware
  repeat' first
    | with_reducible first | exact writes_done | exact writes_nil | refine writes_cons ?_ ?_ | refine writes_seq ?_ ?_ | refine writes_look fun _ => ?_ | refine writes_when ?_ | refine writes_each fun _ => ?_ | refine writes_ite ?_ ?_ | exact c0 | refine writes_act (bit_mask hm ?_)
    | ((with_reducible show Nat.testBit _ (Eff.num _) = true); simp only [Eff.num]; rfl) | split | dsimp only

theorem resetAuthz_writes {m : Nat} (hm : 1152368180975 &&& m = 1152368180975) {a1 : _} {a2 : _} (h2 : ∀ x0, (a2 x0).Writes m) : (resetAuthz a1 a2).Writes m := by
  have c0 := @orderReset_writes m (within_mask hm rfl)
  have c1 := @put_writes m (within_mask hm rfl)
  unfold resetAuthz
  repeat' first
    | with_reducible first | exact writes_done | exact writes_nil | refine writes_cons ?_ ?_ | refine writes_seq ?_ ?_ | refine writes_look fun _ => ?_ | refine writes_when ?_ | refine writes_each fun _ => ?_ | refine writes_ite ?_ ?_ | exact c0 | exact c1 | exact h2 _ | refine writes_act (bit_mask hm ?_)
    | ((with_reducible show Nat.testBit _ (Eff.num _) = true); simp only [Eff.num]; rfl) | split | dsimp only

theorem ringFrame_writes {m : Nat} (hm : 34359738368 &&& m = 34359738368) {a1 : _} {a2 : _} {a3 : _} {a4 : _} {a5 : _} {a6 : _} : (ringFrame a1 a2 a3 a4 a5 a6).Writes m := by
  have c0 := @send_writes m (within_mask hm rfl)
  unfold ringFrame
  repeat' first
    | with_reducible first | exact writes_done | exact writes_nil | refine writes_cons ?_ ?_ | refine writes_seq ?_ ?_ | refine writes_look fun _ => ?_ | refine writes_when ?_ | refine writes_each fun _ => ?_ | refine writes_ite ?_ ?_ | exact c0 | refine writes_act (bit_mask hm ?_)
    | ((with_reducible show Nat.testBit _ (Eff.num _) = true); simp only [Eff.num]; rfl) | split | dsimp only

theorem ringSend_writes {m : Nat} (hm : 34359738368 &&& m = 34359738368) {a1 : _} {a2 : _} {a3 : _} : (ringSend a1 a2 a3).Writes m := by
  have c0 := @ringFrame_writes m (within_mask hm rfl)
  unfold ringSend
  repeat' first
    | with_reducible first | exact writes_done | exact writes_nil | refine writes_cons ?_ ?_ | refine writes_seq ?_ ?_ | refine writes_look fun _ => ?_ | refine writes_when ?_ | refine writes_each fun _ => ?_ | refine writes_ite ?_ ?_ | exact c0 | refine writes_act (bit_mask hm ?_)
    | ((with_reducible show Nat.testBit _ (Eff.num _) = true); simp only [Eff.num]; rfl) | split | dsimp only

theorem sendResetReq_writes {m : Nat} (hm : 34368126976 &&& m = 34368126976) {a1 : _} : (sendResetReq a1).Writes m := by
  have c0 := @modSec_writes m (within_mask hm rfl)
  have c1 := @ringSend_writes m (within_mask hm rfl)
  unfold sendResetReq
  repeat' first
    | with_reducible first | exact writes_done | exact writes_nil | refine writes_cons ?_ ?_ | refine writes_seq ?_ ?_ | refine writes_look fun _ => ?_ | refine writes_when ?_ | refine writes_each fun _ => ?_ | refine writes_ite ?_ ?_ | exact c0 | exact c1 | refine writes_act (bit_mask hm ?_)
    | ((with_reducible show Nat.testBit _ (Eff.num _) = true); simp only [Eff.num]; rfl) | split | dsimp only

theorem dropFrags_writes {m : Nat} (hm : 8388608 &&& m = 8388608) {a1 : _} {a2 : _} : (dropFrags a1 a2).Writes m := by
  have c0 := @modSec_writes m (within_mask hm rfl)
  unfold dropFrags
  repeat' first
    | with_reducible first | exact writes_done | exact writes_nil | refine writes_cons ?_ ?_ | refine writes_seq ?_ ?_ | refine writes_look fun _ => ?_ | refine writes_when ?_ | refine writes_each fun _ => ?_ | refine writes_ite ?_ ?_ | exact c0 | refine writes_act (bit_mask hm ?_)
    | ((with_reducible show Nat.testBit _ (Eff.num _) = true); simp only [Eff.num]; rfl) | split | dsimp only

theorem forward_writes {m : Nat} (hm : 34359738369 &&& m = 34359738369) {a1 : _} {a2 : _} {a3 : _} : (forward a1 a2 a3).Writes m := by
  have c0 := @bump_writes m (within_mask hm rfl)
  have c1 := @ringFrame_writes m (within_mask hm rfl)
  unfold forward
  repeat' first
    | with_reducible first | exact writes_done | exact writes_nil | refine writes_cons ?_ ?_ | refine writes_seq ?_ ?_ | refine writes_look fun _ => ?_ | refine writes_when ?_ | refine writes_each fun _ => ?_ | refine writes_ite ?_ ?_ | exact c0 | exact c1 | refine writes_act (bit_mask hm ?_)
    | ((with_reducible show Nat.testBit _ (Eff.num _) = true); simp only [Eff.num]; rfl) | split | dsimp only

theorem forwardSame_writes {m : Nat} (hm : 34359738369 &&& m = 34359738369) {a1 : _} : (forwardSame a1).Writes m := by
  have c0 := @forward_writes m (within_mask hm rfl)
  unfold forwardSame
  repeat' first
    | with_reducible first | exact writes_done | exact writes_nil | refine writes_cons ?_ ?_ | refine writes_seq ?_ ?_ | refine writes_look fun _ => ?_ | refine writes_when ?_ | refine writes_each fun _ => ?_ | refine writes_ite ?_ ?_ | exact c0 | refine writes_act (bit_mask hm ?_)
    | ((with_reducible show Nat.testBit _ (Eff.num _) = true); simp only [Eff.num]; rfl) | split | dsimp only

theorem openPartner_writes {m : Nat} (hm : 51549064705 &&& m = 51549064705) : (openPartner).Writes m := by
  have c0 := @openTo_writes m (within_mask hm rfl)
  unfold openPartner
  repeat' first
    | with_reducible first | exact writes_done | exact writes_nil | refine writes_cons ?_ ?_ | refine writes_seq ?_ ?_ | refine writes_look fun _ => ?_ | refine writes_when ?_ | refine writes_each fun _ => ?_ | refine writes_ite ?_ ?_ | exact c0 | refine writes_act (bit_mask hm ?_)
    | ((with_reducible show Nat.testBit _ (Eff.num _) = true); simp only [Eff.num]; rfl) | split | dsimp only

theorem ringError_writes {m : Nat} (hm : 34359758849 &&& m = 34359758849) {a1 : _} : (ringError a1).Writes m := by
  have c0 := @put_writes m (within_mask hm rfl)
  have c1 := @raise_writes m (within_mask hm rfl)
  unfold ringError
  repeat' first
    | with_reducible first | exact writes_done | exact writes_nil | refine writes_cons ?_ ?_ | refine writes_seq ?_ ?_ | refine writes_look fun _ => ?_ | refine writes_when ?_ | refine writes_each fun _ => ?_ | refine writes_ite ?_ ?_ | exact c0 | exact c1 | refine writes_act (bit_mask hm ?_)
    | ((with_reducible show Nat.testBit _ (Eff.num _) = true); simp only [Eff.num]; rfl) | split | dsimp only

theorem ringIn_writes {m : Nat} (hm : 1 &&& m = 1) {a1 : _} {a2 : _} (h2 : (a2).Writes m) : (ringIn a1 a2).Writes m := by
  have c0 := @bump_writes m (within_mask hm rfl)
  unfold ringIn
  repeat' first
    | with_reducible first | exact writes_done | exact writes_nil | refine writes_cons ?_ ?_ | refine writes_seq ?_ ?_ | refine writes_look fun _ => ?_ | refine writes_when ?_ | refine writes_each fun _ => ?_ | refine writes_ite ?_ ?_ | exact c0 | exact h2 | refine writes_act (bit_mask hm ?_)
    | ((with_reducible show Nat.testBit _ (Eff.num _) = true); simp only [Eff.num]; rfl) | split | dsimp only

theorem ringFor_writes {m : Nat} (hm : 34359738369 &&& m = 34359738369) {a1 : _} {a2 : _} {a3 : _} (h3 : (a3).Writes m) : (ringFor a1 a2 a3).Writes m := by
  have c0 := @forwardSame_writes m (within_mask hm rfl)
  have c1 := @ringIn_writes m (within_mask hm rfl)
  unfold ringFor
  repeat' first
    | with_reducible first | exact writes_done | exact writes_nil | refine writes_cons ?_ ?_ | refine writes_seq ?_ ?_ | refine writes_look fun _ => ?_ | refine writes_when ?_ | refine writes_each fun _ => ?_ | refine writes_ite ?_ ?_ | exact c0 | refine c1 ?_ | exact h3 | refine writes_act (bit_mask hm ?_)
    | ((with_reducible show Nat.testBit _ (Eff.num _) = true); simp only [Eff.num]; rfl) | split | dsimp only

theorem returnToJob_writes {m : Nat} (hm : 35500609025 &&& m = 35500609025) : (returnToJob).Writes m := by
  have c0 := @modRst_writes m (within_mask hm rfl)
  have c1 := @modShore_writes m (within_mask hm rfl)
  have c2 := @notify_writes m (within_mask hm rfl)
  have c3 := @packageSettings_writes m (within_mask hm rfl)
  have c4 := @put_writes m (within_mask hm rfl)
  have c5 := @toRoot_writes m (within_mask hm rfl)
  unfold returnToJob
  repeat' first
    | with_reducible first | exact writes_done | exact writes_nil | refine writes_cons ?_ ?_ | refine writes_seq ?_ ?_ | refine writes_look fun _ => ?_ | refine writes_when ?_ | refine writes_each fun _ => ?_ | refine writes_ite ?_ ?_ | exact c0 | exact c1 | exact c2 | exact c3 | exact c4 | exact c5 | refine writes_act (bit_mask hm ?_)
    | ((with_reducible show Nat.testBit _ (Eff.num _) = true); simp only [Eff.num]; rfl) | split | dsimp only

theorem writeBases_writes {m : Nat} (hm : 1 &&& m = 1) : (writeBases).Writes m := by
  have c0 := @put_writes m (within_mask hm rfl)
  unfold writeBases
  repeat' first
    | with_reducible first | exact writes_done | exact writes_nil | refine writes_cons ?_ ?_ | refine writes_seq ?_ ?_ | refine writes_look fun _ => ?_ | refine writes_when ?_ | refine writes_each fun _ => ?_ | refine writes_ite ?_ ?_ | exact c0 | refine writes_act (bit_mask hm ?_)
    | ((with_reducible show Nat.testBit _ (Eff.num _) = true); simp only [Eff.num]; rfl) | split | dsimp only

theorem startFirmware_writes {m : Nat} (hm : 52696350217 &&& m = 52696350217) : (startFirmware).Writes m := by
  have c0 := @haltIfHeld_writes m (within_mask hm rfl)
  have c1 := @haltLines_writes m (within_mask hm rfl)
  have c2 := @modMode_writes m (within_mask hm rfl)
  have c3 := @modRst_writes m (within_mask hm rfl)
  have c4 := @modSec_writes m (within_mask hm rfl)
  have c5 := @openPartner_writes m (within_mask hm rfl)
  have c6 := @raise_writes m (within_mask hm rfl)
  have c7 := @record_writes m (within_mask hm rfl)
  have c8 := @returnToJob_writes m (within_mask hm rfl)
  have c9 := @settleWitness_writes m (within_mask hm rfl)
  have c10 := @writeBases_writes m (within_mask hm rfl)
  unfold startFirmware
  repeat' first
    | with_reducible first | exact writes_done | exact writes_nil | refine writes_cons ?_ ?_ | refine writes_seq ?_ ?_ | refine writes_look fun _ => ?_ | refine writes_when ?_ | refine writes_each fun _ => ?_ | refine writes_ite ?_ ?_ | exact c0 | exact c1 | exact c2 | exact c3 | exact c4 | exact c5 | exact c6 | exact c7 | exact c8 | exact c9 | exact c10 | refine writes_act (bit_mask hm ?_)
    | ((with_reducible show Nat.testBit _ (Eff.num _) = true); simp only [Eff.num]; rfl) | split | dsimp only

theorem acceptRecovered_writes {m : Nat} (hm : 52696350217 &&& m = 52696350217) {a1 : _} {a2 : _} : (acceptRecovered a1 a2).Writes m := by
  have c0 := @flashImage_writes m (within_mask hm rfl)
  have c1 := @measure_writes m (within_mask hm rfl)
  have c2 := @put_writes m (within_mask hm rfl)
  have c3 := @recordFirmware_writes m (within_mask hm rfl)
  have c4 := @startFirmware_writes m (within_mask hm rfl)
  unfold acceptRecovered
  repeat' first
    | with_reducible first | exact writes_done | exact writes_nil | refine writes_cons ?_ ?_ | refine writes_seq ?_ ?_ | refine writes_look fun _ => ?_ | refine writes_when ?_ | refine writes_each fun _ => ?_ | refine writes_ite ?_ ?_ | exact c0 | exact c1 | exact c2 | exact c3 | exact c4 | refine writes_act (bit_mask hm ?_)
    | ((with_reducible show Nat.testBit _ (Eff.num _) = true); simp only [Eff.num]; rfl) | split | dsimp only

theorem recoveryFrame_writes {m : Nat} (hm : 34359738368 &&& m = 34359738368) {a1 : _} {a2 : _} {a3 : _} {a4 : _} : (recoveryFrame a1 a2 a3 a4).Writes m := by
  have c0 := @ringSend_writes m (within_mask hm rfl)
  unfold recoveryFrame
  repeat' first
    | with_reducible first | exact writes_done | exact writes_nil | refine writes_cons ?_ ?_ | refine writes_seq ?_ ?_ | refine writes_look fun _ => ?_ | refine writes_when ?_ | refine writes_each fun _ => ?_ | refine writes_ite ?_ ?_ | exact c0 | refine writes_act (bit_mask hm ?_)
    | ((with_reducible show Nat.testBit _ (Eff.num _) = true); simp only [Eff.num]; rfl) | split | dsimp only

theorem enterRecovery_writes {m : Nat} (hm : 34368282113 &&& m = 34368282113) {a1 : _} : (enterRecovery a1).Writes m := by
  have c0 := @modMode_writes m (within_mask hm rfl)
  have c1 := @modSec_writes m (within_mask hm rfl)
  have c2 := @put_writes m (within_mask hm rfl)
  have c3 := @raise_writes m (within_mask hm rfl)
  have c4 := @recoveryFrame_writes m (within_mask hm rfl)
  have c5 := @reportSelf_writes m (within_mask hm rfl)
  unfold enterRecovery
  repeat' first
    | with_reducible first | exact writes_done | exact writes_nil | refine writes_cons ?_ ?_ | refine writes_seq ?_ ?_ | refine writes_look fun _ => ?_ | refine writes_when ?_ | refine writes_each fun _ => ?_ | refine writes_ite ?_ ?_ | exact c0 | exact c1 | exact c2 | exact c3 | exact c4 | exact c5 | refine writes_act (bit_mask hm ?_)
    | ((with_reducible show Nat.testBit _ (Eff.num _) = true); simp only [Eff.num]; rfl) | split | dsimp only

theorem losePower_writes {m : Nat} (hm : 2199023255553 &&& m = 2199023255553) : (losePower).Writes m := by
  have c0 := @put_writes m (within_mask hm rfl)
  unfold losePower
  repeat' first
    | with_reducible first | exact writes_done | exact writes_nil | refine writes_cons ?_ ?_ | refine writes_seq ?_ ?_ | refine writes_look fun _ => ?_ | refine writes_when ?_ | refine writes_each fun _ => ?_ | refine writes_ite ?_ ?_ | exact c0 | refine writes_act (bit_mask hm ?_)
    | ((with_reducible show Nat.testBit _ (Eff.num _) = true); simp only [Eff.num]; rfl) | split | dsimp only

theorem partnerFails_writes {m : Nat} (hm : 8388608 &&& m = 8388608) : (partnerFails).Writes m := by
  have c0 := @modSec_writes m (within_mask hm rfl)
  unfold partnerFails
  repeat' first
    | with_reducible first | exact writes_done | exact writes_nil | refine writes_cons ?_ ?_ | refine writes_seq ?_ ?_ | refine writes_look fun _ => ?_ | refine writes_when ?_ | refine writes_each fun _ => ?_ | refine writes_ite ?_ ?_ | exact c0 | refine writes_act (bit_mask hm ?_)
    | ((with_reducible show Nat.testBit _ (Eff.num _) = true); simp only [Eff.num]; rfl) | split | dsimp only

theorem testItems_writes {m : Nat} (hm : 34359738369 &&& m = 34359738369) : (testItems).Writes m := by
  have c0 := @send_writes m (within_mask hm rfl)
  have c1 := @spiFrame_writes m (within_mask hm rfl)
  unfold testItems
  repeat' first
    | with_reducible first | exact writes_done | exact writes_nil | refine writes_cons ?_ ?_ | refine writes_seq ?_ ?_ | refine writes_look fun _ => ?_ | refine writes_when ?_ | refine writes_each fun _ => ?_ | refine writes_ite ?_ ?_ | exact c0 | exact c1 | refine writes_act (bit_mask hm ?_)
    | ((with_reducible show Nat.testBit _ (Eff.num _) = true); simp only [Eff.num]; rfl) | split | dsimp only

theorem startTest_writes {m : Nat} (hm : 34359869449 &&& m = 34359869449) : (startTest).Writes m := by
  have c0 := @modMode_writes m (within_mask hm rfl)
  have c1 := @ownTile_writes m (within_mask hm rfl)
  have c2 := @put_writes m (within_mask hm rfl)
  have c3 := @testItems_writes m (within_mask hm rfl)
  unfold startTest
  repeat' first
    | with_reducible first | exact writes_done | exact writes_nil | refine writes_cons ?_ ?_ | refine writes_seq ?_ ?_ | refine writes_look fun _ => ?_ | refine writes_when ?_ | refine writes_each fun _ => ?_ | refine writes_ite ?_ ?_ | exact c0 | exact c1 | exact c2 | exact c3 | refine writes_act (bit_mask hm ?_)
    | ((with_reducible show Nat.testBit _ (Eff.num _) = true); simp only [Eff.num]; rfl) | split | dsimp only

theorem trainMemory_writes {m : Nat} (hm : 1 &&& m = 1) {a1 : _} {a2 : _} : (trainMemory a1 a2).Writes m := by
  have c0 := @checkTierRate_writes m (within_mask hm rfl)
  have c1 := @put_writes m (within_mask hm rfl)
  unfold trainMemory
  repeat' first
    | with_reducible first | exact writes_done | exact writes_nil | refine writes_cons ?_ ?_ | refine writes_seq ?_ ?_ | refine writes_look fun _ => ?_ | refine writes_when ?_ | refine writes_each fun _ => ?_ | refine writes_ite ?_ ?_ | exact c0 | exact c1 | refine writes_act (bit_mask hm ?_)
    | ((with_reducible show Nat.testBit _ (Eff.num _) = true); simp only [Eff.num]; rfl) | split | dsimp only

theorem writePost_writes {m : Nat} (hm : 42949804041 &&& m = 42949804041) {a1 : _} : (writePost a1).Writes m := by
  have c0 := @complete_writes m (within_mask hm rfl)
  have c1 := @startTest_writes m (within_mask hm rfl)
  unfold writePost
  repeat' first
    | with_reducible first | exact writes_done | exact writes_nil | refine writes_cons ?_ ?_ | refine writes_seq ?_ ?_ | refine writes_look fun _ => ?_ | refine writes_when ?_ | refine writes_each fun _ => ?_ | refine writes_ite ?_ ?_ | exact c0 | exact c1 | refine writes_act (bit_mask hm ?_)
    | ((with_reducible show Nat.testBit _ (Eff.num _) = true); simp only [Eff.num]; rfl) | split | dsimp only

theorem marginWatch_writes {m : Nat} (hm : 34393316865 &&& m = 34393316865) : (marginWatch).Writes m := by
  have c0 := @fireHealth_writes m (within_mask hm rfl)
  have c1 := @modCourse_writes m (within_mask hm rfl)
  unfold marginWatch
  repeat' first
    | with_reducible first | exact writes_done | exact writes_nil | refine writes_cons ?_ ?_ | refine writes_seq ?_ ?_ | refine writes_look fun _ => ?_ | refine writes_when ?_ | refine writes_each fun _ => ?_ | refine writes_ite ?_ ?_ | exact c0 | exact c1 | refine writes_act (bit_mask hm ?_)
    | ((with_reducible show Nat.testBit _ (Eff.num _) = true); simp only [Eff.num]; rfl) | split | dsimp only

theorem modTherm_writes {m : Nat} (hm : 65536 &&& m = 65536) {a1 : _} : (modTherm a1).Writes m := by
  have c0 := @modPower_writes m (within_mask hm rfl)
  unfold modTherm
  repeat' first
    | with_reducible first | exact writes_done | exact writes_nil | refine writes_cons ?_ ?_ | refine writes_seq ?_ ?_ | refine writes_look fun _ => ?_ | refine writes_when ?_ | refine writes_each fun _ => ?_ | refine writes_ite ?_ ?_ | exact c0 | refine writes_act (bit_mask hm ?_)
    | ((with_reducible show Nat.testBit _ (Eff.num _) = true); simp only [Eff.num]; rfl) | split | dsimp only

theorem recordThermal_writes {m : Nat} (hm : 34366058497 &&& m = 34366058497) {a1 : _} : (recordThermal a1).Writes m := by
  have c0 := @record_writes m (within_mask hm rfl)
  unfold recordThermal
  repeat' first
    | with_reducible first | exact writes_done | exact writes_nil | refine writes_cons ?_ ?_ | refine writes_seq ?_ ?_ | refine writes_look fun _ => ?_ | refine writes_when ?_ | refine writes_each fun _ => ?_ | refine writes_ite ?_ ?_ | exact c0 | refine writes_act (bit_mask hm ?_)
    | ((with_reducible show Nat.testBit _ (Eff.num _) = true); simp only [Eff.num]; rfl) | split | dsimp only

theorem setDiv_writes {m : Nat} (hm : 34366058505 &&& m = 34366058505) {a1 : _} : (setDiv a1).Writes m := by
  have c0 := @modObs_writes m (within_mask hm rfl)
  have c1 := @modTile_writes m (within_mask hm rfl)
  have c2 := @put_writes m (within_mask hm rfl)
  have c3 := @recordThermal_writes m (within_mask hm rfl)
  unfold setDiv
  repeat' first
    | with_reducible first | exact writes_done | exact writes_nil | refine writes_cons ?_ ?_ | refine writes_seq ?_ ?_ | refine writes_look fun _ => ?_ | refine writes_when ?_ | refine writes_each fun _ => ?_ | refine writes_ite ?_ ?_ | exact c0 | exact c1 | exact c2 | exact c3 | refine writes_act (bit_mask hm ?_)
    | ((with_reducible show Nat.testBit _ (Eff.num _) = true); simp only [Eff.num]; rfl) | split | dsimp only

theorem settleLimiter_writes {m : Nat} (hm : 1 &&& m = 1) : (settleLimiter).Writes m := by
  have c0 := @put_writes m (within_mask hm rfl)
  unfold settleLimiter
  repeat' first
    | with_reducible first | exact writes_done | exact writes_nil | refine writes_cons ?_ ?_ | refine writes_seq ?_ ?_ | refine writes_look fun _ => ?_ | refine writes_when ?_ | refine writes_each fun _ => ?_ | refine writes_ite ?_ ?_ | exact c0 | refine writes_act (bit_mask hm ?_)
    | ((with_reducible show Nat.testBit _ (Eff.num _) = true); simp only [Eff.num]; rfl) | split | dsimp only

theorem stepDown_writes {m : Nat} (hm : 34366124041 &&& m = 34366124041) {a1 : _} {a2 : _} : (stepDown a1 a2).Writes m := by
  have c0 := @bump_writes m (within_mask hm rfl)
  have c1 := @modTherm_writes m (within_mask hm rfl)
  have c2 := @put_writes m (within_mask hm rfl)
  have c3 := @raise_writes m (within_mask hm rfl)
  have c4 := @setDiv_writes m (within_mask hm rfl)
  unfold stepDown
  repeat' first
    | with_reducible first | exact writes_done | exact writes_nil | refine writes_cons ?_ ?_ | refine writes_seq ?_ ?_ | refine writes_look fun _ => ?_ | refine writes_when ?_ | refine writes_each fun _ => ?_ | refine writes_ite ?_ ?_ | exact c0 | exact c1 | exact c2 | exact c3 | exact c4 | refine writes_act (bit_mask hm ?_)
    | ((with_reducible show Nat.testBit _ (Eff.num _) = true); simp only [Eff.num]; rfl) | split | dsimp only

theorem thermalTrip_writes {m : Nat} (hm : 34366124041 &&& m = 34366124041) : (thermalTrip).Writes m := by
  have c0 := @modPower_writes m (within_mask hm rfl)
  have c1 := @modTile_writes m (within_mask hm rfl)
  have c2 := @put_writes m (within_mask hm rfl)
  have c3 := @recordThermal_writes m (within_mask hm rfl)
  have c4 := @send_writes m (within_mask hm rfl)
  unfold thermalTrip
  repeat' first
    | with_reducible first | exact writes_done | exact writes_nil | refine writes_cons ?_ ?_ | refine writes_seq ?_ ?_ | refine writes_look fun _ => ?_ | refine writes_when ?_ | refine writes_each fun _ => ?_ | refine writes_ite ?_ ?_ | exact c0 | exact c1 | exact c2 | exact c3 | exact c4 | refine writes_act (bit_mask hm ?_)
    | ((with_reducible show Nat.testBit _ (Eff.num _) = true); simp only [Eff.num]; rfl) | split | dsimp only

theorem writeTcfg_writes {m : Nat} (hm : 42956058633 &&& m = 42956058633) {a1 : _} : (writeTcfg a1).Writes m := by
  have c0 := @stepDown_writes m (within_mask hm rfl)
  have c1 := @writePlain_writes m (within_mask hm rfl)
  unfold writeTcfg
  repeat' first
    | with_reducible first | exact writes_done | exact writes_nil | refine writes_cons ?_ ?_ | refine writes_seq ?_ ?_ | refine writes_look fun _ => ?_ | refine writes_when ?_ | refine writes_each fun _ => ?_ | refine writes_ite ?_ ?_ | exact c0 | exact c1 | refine writes_act (bit_mask hm ?_)
    | ((with_reducible show Nat.testBit _ (Eff.num _) = true); simp only [Eff.num]; rfl) | split | dsimp only

theorem readEffect_writes {m : Nat} (hm : 17179869185 &&& m = 17179869185) {a1 : _} : (readEffect a1).Writes m := by
  have c0 := @put_writes m (within_mask hm rfl)
  unfold readEffect
  repeat' first
    | with_reducible first | exact writes_done | exact writes_nil | refine writes_cons ?_ ?_ | refine writes_seq ?_ ?_ | refine writes_look fun _ => ?_ | refine writes_when ?_ | refine writes_each fun _ => ?_ | refine writes_ite ?_ ?_ | exact c0 | refine writes_act (bit_mask hm ?_)
    | ((with_reducible show Nat.testBit _ (Eff.num _) = true); simp only [Eff.num]; rfl) | split | dsimp only

theorem writeHstCfg_writes {m : Nat} (hm : 8589934593 &&& m = 8589934593) {a1 : _} : (writeHstCfg a1).Writes m := by
  have c0 := @complete_writes m (within_mask hm rfl)
  have c1 := @writePlain_writes m (within_mask hm rfl)
  unfold writeHstCfg
  repeat' first
    | with_reducible first | exact writes_done | exact writes_nil | refine writes_cons ?_ ?_ | refine writes_seq ?_ ?_ | refine writes_look fun _ => ?_ | refine writes_when ?_ | refine writes_each fun _ => ?_ | refine writes_ite ?_ ?_ | exact c0 | exact c1 | refine writes_act (bit_mask hm ?_)
    | ((with_reducible show Nat.testBit _ (Eff.num _) = true); simp only [Eff.num]; rfl) | split | dsimp only

theorem writeIf_writes {m : Nat} (hm : 8589934593 &&& m = 8589934593) {a1 : _} {a2 : _} {a3 : _} : (writeIf a1 a2 a3).Writes m := by
  have c0 := @complete_writes m (within_mask hm rfl)
  have c1 := @writePlain_writes m (within_mask hm rfl)
  unfold writeIf
  repeat' first
    | with_reducible first | exact writes_done | exact writes_nil | refine writes_cons ?_ ?_ | refine writes_seq ?_ ?_ | refine writes_look fun _ => ?_ | refine writes_when ?_ | refine writes_each fun _ => ?_ | refine writes_ite ?_ ?_ | exact c0 | exact c1 | refine writes_act (bit_mask hm ?_)
    | ((with_reducible show Nat.testBit _ (Eff.num _) = true); simp only [Eff.num]; rfl) | split | dsimp only

end Sys2Proof.Machine
end

