-- ==== Sys2Proof/Laws/Writes12.lean ====
section
/-! SUPPORT. What each shared operation writes (part 12): one lemma per operation, of the areas its effects name. -/

set_option maxRecDepth 16000

namespace Sys2Proof.Machine

theorem writeCtl_writes {m : Nat} (hm : 1161226616831 &&& m = 1161226616831) {a1 : _} {a2 : _} : (writeCtl a1 a2).Writes m := by
  have c0 := @complete_writes m (within_mask hm rfl)
  have c1 := @displace_writes m (within_mask hm rfl)
  have c2 := @settleTally_writes m (within_mask hm rfl)
  have c3 := @settleWitness_writes m (within_mask hm rfl)
  have c4 := @writeCrsCtrl_writes m (within_mask hm rfl)
  have c5 := @writeDmaCtrl_writes m (within_mask hm rfl)
  have c6 := @writeDstCtrl_writes m (within_mask hm rfl)
  have c7 := @writeFqPtr_writes m (within_mask hm rfl)
  have c8 := @writeFresume_writes m (within_mask hm rfl)
  have c9 := @writeHstCfg_writes m (within_mask hm rfl)
  have c10 := @writeHubKept_writes m (within_mask hm rfl)
  have c11 := @writeIf_writes m (within_mask hm rfl)
  have c12 := @writeInv_writes m (within_mask hm rfl)
  have c13 := @writeLnkCfg_writes m (within_mask hm rfl)
  have c14 := @writeLnkTest_writes m (within_mask hm rfl)
  have c15 := @writeMmuPart_writes m (within_mask hm rfl)
  have c16 := @writePlain_writes m (within_mask hm rfl)
  have c17 := @writePost_writes m (within_mask hm rfl)
  have c18 := @writeRstCtrl_writes m (within_mask hm rfl)
  have c19 := @writeRstPwr_writes m (within_mask hm rfl)
  have c20 := @writeRstQclr_writes m (within_mask hm rfl)
  have c21 := @writeShrCtrl_writes m (within_mask hm rfl)
  have c22 := @writeSynAdd_writes m (within_mask hm rfl)
  have c23 := @writeSynBar_writes m (within_mask hm rfl)
  have c24 := @writeSynDump_writes m (within_mask hm rfl)
  have c25 := @writeSynSet_writes m (within_mask hm rfl)
  have c26 := @writeSynWarm_writes m (within_mask hm rfl)
  have c27 := @writeSynWin_writes m (within_mask hm rfl)
  have c28 := @writeTalHalt_writes m (within_mask hm rfl)
  have c29 := @writeTcfg_writes m (within_mask hm rfl)
  have c30 := @writeTrigA_writes m (within_mask hm rfl)
  have c31 := @writeXcnCtrl_writes m (within_mask hm rfl)
  have c32 := @writeXcnDetour_writes m (within_mask hm rfl)
  unfold writeCtl
  repeat' first
    | with_reducible first | exact writes_done | exact writes_nil | refine writes_cons ?_ ?_ | refine writes_seq ?_ ?_ | refine writes_look fun _ => ?_ | refine writes_when ?_ | refine writes_each fun _ => ?_ | refine writes_ite ?_ ?_ | exact c0 | exact c1 | exact c2 | exact c3 | exact c4 | exact c5 | exact c6 | exact c7 | exact c8 | exact c9 | exact c10 | exact c11 | exact c12 | exact c13 | exact c14 | exact c15 | exact c16 | exact c17 | exact c18 | exact c19 | exact c20 | exact c21 | exact c22 | exact c23 | exact c24 | exact c25 | exact c26 | exact c27 | exact c28 | exact c29 | exact c30 | exact c31 | exact c32 | refine writes_act (bit_mask hm ?_)
    | ((with_reducible show Nat.testBit _ (Eff.num _) = true); simp only [Eff.num]; rfl) | split | dsimp only

theorem writeReg_writes {m : Nat} (hm : 1161226616831 &&& m = 1161226616831) {a1 : _} {a2 : _} : (writeReg a1 a2).Writes m := by
  have c0 := @complete_writes m (within_mask hm rfl)
  have c1 := @writeCtl_writes m (within_mask hm rfl)
  have c2 := @writeTile_writes m (within_mask hm rfl)
  unfold writeReg
  repeat' first
    | with_reducible first | exact writes_done | exact writes_nil | refine writes_cons ?_ ?_ | refine writes_seq ?_ ?_ | refine writes_look fun _ => ?_ | refine writes_when ?_ | refine writes_each fun _ => ?_ | refine writes_ite ?_ ?_ | exact c0 | exact c1 | exact c2 | refine writes_act (bit_mask hm ?_)
    | ((with_reducible show Nat.testBit _ (Eff.num _) = true); simp only [Eff.num]; rfl) | split | dsimp only

theorem etherReply_writes {m : Nat} (hm : 34359738368 &&& m = 34359738368) {a1 : _} {a2 : _} {a3 : _} {a4 : _} : (etherReply a1 a2 a3 a4).Writes m := by
  have c0 := @send_writes m (within_mask hm rfl)
  unfold etherReply
  repeat' first
    | with_reducible first | exact writes_done | exact writes_nil | refine writes_cons ?_ ?_ | refine writes_seq ?_ ?_ | refine writes_look fun _ => ?_ | refine writes_when ?_ | refine writes_each fun _ => ?_ | refine writes_ite ?_ ?_ | exact c0 | refine writes_act (bit_mask hm ?_)
    | ((with_reducible show Nat.testBit _ (Eff.num _) = true); simp only [Eff.num]; rfl) | split | dsimp only

theorem resendPkt_writes {m : Nat} (hm : 34359758849 &&& m = 34359758849) {a1 : _} {a2 : _} : (resendPkt a1 a2).Writes m := by
  have c0 := @sendPkt_writes m (within_mask hm rfl)
  have c1 := @tally_writes m (within_mask hm rfl)
  unfold resendPkt
  repeat' first
    | with_reducible first | exact writes_done | exact writes_nil | refine writes_cons ?_ ?_ | refine writes_seq ?_ ?_ | refine writes_look fun _ => ?_ | refine writes_when ?_ | refine writes_each fun _ => ?_ | refine writes_ite ?_ ?_ | exact c0 | exact c1 | refine writes_act (bit_mask hm ?_)
    | ((with_reducible show Nat.testBit _ (Eff.num _) = true); simp only [Eff.num]; rfl) | split | dsimp only

theorem hostAcked_writes {m : Nat} (hm : 34359758849 &&& m = 34359758849) {a1 : _} {a2 : _} {a3 : _} : (hostAcked a1 a2 a3).Writes m := by
  have c0 := @modHost_writes m (within_mask hm rfl)
  have c1 := @pump_writes m (within_mask hm rfl)
  have c2 := @resendPkt_writes m (within_mask hm rfl)
  unfold hostAcked
  repeat' first
    | with_reducible first | exact writes_done | exact writes_nil | refine writes_cons ?_ ?_ | refine writes_seq ?_ ?_ | refine writes_look fun _ => ?_ | refine writes_when ?_ | refine writes_each fun _ => ?_ | refine writes_ite ?_ ?_ | exact c0 | exact c1 | exact c2 | refine writes_act (bit_mask hm ?_)
    | ((with_reducible show Nat.testBit _ (Eff.num _) = true); simp only [Eff.num]; rfl) | split | dsimp only

theorem sendOpenRsp_writes {m : Nat} (hm : 34359754752 &&& m = 34359754752) {a1 : _} {a2 : _} : (sendOpenRsp a1 a2).Writes m := by
  have c0 := @send_writes m (within_mask hm rfl)
  have c1 := @tally_writes m (within_mask hm rfl)
  unfold sendOpenRsp
  repeat' first
    | with_reducible first | exact writes_done | exact writes_nil | refine writes_cons ?_ ?_ | refine writes_seq ?_ ?_ | refine writes_look fun _ => ?_ | refine writes_when ?_ | refine writes_each fun _ => ?_ | refine writes_ite ?_ ?_ | exact c0 | exact c1 | refine writes_act (bit_mask hm ?_)
    | ((with_reducible show Nat.testBit _ (Eff.num _) = true); simp only [Eff.num]; rfl) | split | dsimp only

theorem openHost_writes {m : Nat} (hm : 51548016641 &&& m = 51548016641) {a1 : _} {a2 : _} {a3 : _} {a4 : _} : (openHost a1 a2 a3 a4).Writes m := by
  have c0 := @put_writes m (within_mask hm rfl)
  have c1 := @sendOpenRsp_writes m (within_mask hm rfl)
  have c2 := @withFrees_writes m (within_mask hm rfl)
  have c3 := @withIdentity_writes m (within_mask hm rfl)
  unfold openHost
  repeat' first
    | with_reducible first | exact writes_done | exact writes_nil | refine writes_cons ?_ ?_ | refine writes_seq ?_ ?_ | refine writes_look fun _ => ?_ | refine writes_when ?_ | refine writes_each fun _ => ?_ | refine writes_ite ?_ ?_ | exact c0 | exact c1 | refine c2 (fun _ => ?_) | refine c3 (fun _ => ?_) | refine writes_act (bit_mask hm ?_)
    | ((with_reducible show Nat.testBit _ (Eff.num _) = true); simp only [Eff.num]; rfl) | split | dsimp only

theorem refuseHost_writes {m : Nat} (hm : 34359754752 &&& m = 34359754752) {a1 : _} {a2 : _} : (refuseHost a1 a2).Writes m := by
  have c0 := @sendOpenRsp_writes m (within_mask hm rfl)
  unfold refuseHost
  repeat' first
    | with_reducible first | exact writes_done | exact writes_nil | refine writes_cons ?_ ?_ | refine writes_seq ?_ ?_ | refine writes_look fun _ => ?_ | refine writes_when ?_ | refine writes_each fun _ => ?_ | refine writes_ite ?_ ?_ | exact c0 | refine writes_act (bit_mask hm ?_)
    | ((with_reducible show Nat.testBit _ (Eff.num _) = true); simp only [Eff.num]; rfl) | split | dsimp only

theorem sendAck_writes {m : Nat} (hm : 34359758849 &&& m = 34359758849) {a1 : _} {a2 : _} : (sendAck a1 a2).Writes m := by
  have c0 := @sendPkt_writes m (within_mask hm rfl)
  unfold sendAck
  repeat' first
    | with_reducible first | exact writes_done | exact writes_nil | refine writes_cons ?_ ?_ | refine writes_seq ?_ ?_ | refine writes_look fun _ => ?_ | refine writes_when ?_ | refine writes_each fun _ => ?_ | refine writes_ite ?_ ?_ | exact c0 | refine writes_act (bit_mask hm ?_)
    | ((with_reducible show Nat.testBit _ (Eff.num _) = true); simp only [Eff.num]; rfl) | split | dsimp only

theorem takeSeq_writes {m : Nat} (hm : 34359758849 &&& m = 34359758849) {a1 : _} {a2 : _} : (takeSeq a1 a2).Writes m := by
  have c0 := @bump_writes m (within_mask hm rfl)
  have c1 := @modHost_writes m (within_mask hm rfl)
  have c2 := @put_writes m (within_mask hm rfl)
  have c3 := @sendAck_writes m (within_mask hm rfl)
  unfold takeSeq
  repeat' first
    | with_reducible first | exact writes_done | exact writes_nil | refine writes_cons ?_ ?_ | refine writes_seq ?_ ?_ | refine writes_look fun _ => ?_ | refine writes_when ?_ | refine writes_each fun _ => ?_ | refine writes_ite ?_ ?_ | exact c0 | exact c1 | exact c2 | exact c3 | refine writes_act (bit_mask hm ?_)
    | ((with_reducible show Nat.testBit _ (Eff.num _) = true); simp only [Eff.num]; rfl) | split | dsimp only

theorem takeInner_writes {m : Nat} (hm : 34359758849 &&& m = 34359758849) {a1 : _} {a2 : _} {a3 : _} : (takeInner a1 a2 a3).Writes m := by
  have c0 := @bump_writes m (within_mask hm rfl)
  have c1 := @hostAcked_writes m (within_mask hm rfl)
  have c2 := @takeSeq_writes m (within_mask hm rfl)
  unfold takeInner
  repeat' first
    | with_reducible first | exact writes_done | exact writes_nil | refine writes_cons ?_ ?_ | refine writes_seq ?_ ?_ | refine writes_look fun _ => ?_ | refine writes_when ?_ | refine writes_each fun _ => ?_ | refine writes_ite ?_ ?_ | exact c0 | exact c1 | exact c2 | refine writes_act (bit_mask hm ?_)
    | ((with_reducible show Nat.testBit _ (Eff.num _) = true); simp only [Eff.num]; rfl) | split | dsimp only

theorem takeSealed_writes {m : Nat} (hm : 34359758849 &&& m = 34359758849) {a1 : _} {a2 : _} {a3 : _} : (takeSealed a1 a2 a3).Writes m := by
  have c0 := @bump_writes m (within_mask hm rfl)
  have c1 := @closeHost_writes m (within_mask hm rfl)
  have c2 := @modHost_writes m (within_mask hm rfl)
  have c3 := @put_writes m (within_mask hm rfl)
  have c4 := @takeInner_writes m (within_mask hm rfl)
  unfold takeSealed
  repeat' first
    | with_reducible first | exact writes_done | exact writes_nil | refine writes_cons ?_ ?_ | refine writes_seq ?_ ?_ | refine writes_look fun _ => ?_ | refine writes_when ?_ | refine writes_each fun _ => ?_ | refine writes_ite ?_ ?_ | exact c0 | exact c1 | exact c2 | exact c3 | exact c4 | refine writes_act (bit_mask hm ?_)
    | ((with_reducible show Nat.testBit _ (Eff.num _) = true); simp only [Eff.num]; rfl) | split | dsimp only

theorem acceptNet_writes {m : Nat} (hm : 52696350217 &&& m = 52696350217) {a1 : _} : (acceptNet a1).Writes m := by
  have c0 := @acceptRecovered_writes m (within_mask hm rfl)
  have c1 := @flashImage_writes m (within_mask hm rfl)
  have c2 := @modSec_writes m (within_mask hm rfl)
  have c3 := @raise_writes m (within_mask hm rfl)
  have c4 := @recordFirmware_writes m (within_mask hm rfl)
  unfold acceptNet
  repeat' first
    | with_reducible first | exact writes_done | exact writes_nil | refine writes_cons ?_ ?_ | refine writes_seq ?_ ?_ | refine writes_look fun _ => ?_ | refine writes_when ?_ | refine writes_each fun _ => ?_ | refine writes_ite ?_ ?_ | exact c0 | exact c1 | exact c2 | exact c3 | exact c4 | refine writes_act (bit_mask hm ?_)
    | ((with_reducible show Nat.testBit _ (Eff.num _) = true); simp only [Eff.num]; rfl) | split | dsimp only

theorem admitGuest_writes {m : Nat} (hm : 393223 &&& m = 393223) {a1 : _} {a2 : _} : (admitGuest a1 a2).Writes m := by
  have c0 := @modMmu_writes m (within_mask hm rfl)
  have c1 := @modMode_writes m (within_mask hm rfl)
  have c2 := @newTable_writes m (within_mask hm rfl)
  have c3 := @put_writes m (within_mask hm rfl)
  unfold admitGuest
  repeat' first
    | with_reducible first | exact writes_done | exact writes_nil | refine writes_cons ?_ ?_ | refine writes_seq ?_ ?_ | refine writes_look fun _ => ?_ | refine writes_when ?_ | refine writes_each fun _ => ?_ | refine writes_ite ?_ ?_ | exact c0 | exact c1 | refine c2 (fun _ => ?_) | exact c3 | refine writes_act (bit_mask hm ?_)
    | ((with_reducible show Nat.testBit _ (Eff.num _) = true); simp only [Eff.num]; rfl) | split | dsimp only

theorem reply_writes {m : Nat} (hm : 34359758849 &&& m = 34359758849) {a1 : _} {a2 : _} {a3 : _} {a4 : _} : (reply a1 a2 a3 a4).Writes m := by
  have c0 := @answer_writes m (within_mask hm rfl)
  unfold reply
  repeat' first
    | with_reducible first | exact writes_done | exact writes_nil | refine writes_cons ?_ ?_ | refine writes_seq ?_ ?_ | refine writes_look fun _ => ?_ | refine writes_when ?_ | refine writes_each fun _ => ?_ | refine writes_ite ?_ ?_ | exact c0 | refine writes_act (bit_mask hm ?_)
    | ((with_reducible show Nat.testBit _ (Eff.num _) = true); simp only [Eff.num]; rfl) | split | dsimp only

theorem hostCmd_writes {m : Nat} (hm : 34359758849 &&& m = 34359758849) {a1 : _} {a2 : _} {a3 : _} {a4 : _} {a5 : _} {a6 : _} {a7 : _} {a8 : _} (h8 : (a8).Writes m) : (hostCmd a1 a2 a3 a4 a5 a6 a7 a8).Writes m := by
  have c0 := @modHost_writes m (within_mask hm rfl)
  have c1 := @reply_writes m (within_mask hm rfl)
  have c2 := @tally_writes m (within_mask hm rfl)
  unfold hostCmd
  repeat' first
    | with_reducible first | exact writes_done | exact writes_nil | refine writes_cons ?_ ?_ | refine writes_seq ?_ ?_ | refine writes_look fun _ => ?_ | refine writes_when ?_ | refine writes_each fun _ => ?_ | refine writes_ite ?_ ?_ | exact c0 | exact c1 | exact c2 | exact h8 | refine writes_act (bit_mask hm ?_)
    | ((with_reducible show Nat.testBit _ (Eff.num _) = true); simp only [Eff.num]; rfl) | split | dsimp only

theorem authzCommand_writes {m : Nat} (hm : 1152376569583 &&& m = 1152376569583) {a1 : _} {a2 : _} : (authzCommand a1 a2).Writes m := by
  have c0 := @changeAuthz_writes m (within_mask hm rfl)
  have c1 := @hostCmd_writes m (within_mask hm rfl)
  have c2 := @raise_writes m (within_mask hm rfl)
  have c3 := @reply_writes m (within_mask hm rfl)
  have c4 := @resetAuthz_writes m (within_mask hm rfl)
  have c5 := @sendResetReq_writes m (within_mask hm rfl)
  unfold authzCommand
  repeat' first
    | with_reducible first | exact writes_done | exact writes_nil | refine writes_cons ?_ ?_ | refine writes_seq ?_ ?_ | refine writes_look fun _ => ?_ | refine writes_when ?_ | refine writes_each fun _ => ?_ | refine writes_ite ?_ ?_ | refine c0 (fun _ _ => ?_) | refine c1 ?_ | exact c2 | exact c3 | refine c4 (fun _ => ?_) | exact c5 | refine writes_act (bit_mask hm ?_)
    | ((with_reducible show Nat.testBit _ (Eff.num _) = true); simp only [Eff.num]; rfl) | split | dsimp only

theorem nameRoot_writes {m : Nat} (hm : 51649728001 &&& m = 51649728001) {a1 : _} : (nameRoot a1).Writes m := by
  have c0 := @noticesAgain_writes m (within_mask hm rfl)
  have c1 := @openTo_writes m (within_mask hm rfl)
  have c2 := @put_writes m (within_mask hm rfl)
  have c3 := @takeRoot_writes m (within_mask hm rfl)
  unfold nameRoot
  repeat' first
    | with_reducible first | exact writes_done | exact writes_nil | refine writes_cons ?_ ?_ | refine writes_seq ?_ ?_ | refine writes_look fun _ => ?_ | refine writes_when ?_ | refine writes_each fun _ => ?_ | refine writes_ite ?_ ?_ | exact c0 | exact c1 | exact c2 | exact c3 | refine writes_act (bit_mask hm ?_)
    | ((with_reducible show Nat.testBit _ (Eff.num _) = true); simp only [Eff.num]; rfl) | split | dsimp only

theorem courseCommand_writes {m : Nat} (hm : 51650027175 &&& m = 51650027175) {a1 : _} {a2 : _} : (courseCommand a1 a2).Writes m := by
  have c0 := @hostCmd_writes m (within_mask hm rfl)
  have c1 := @nameRoot_writes m (within_mask hm rfl)
  have c2 := @orderAbandon_writes m (within_mask hm rfl)
  have c3 := @readEffect_writes m (within_mask hm rfl)
  have c4 := @reply_writes m (within_mask hm rfl)
  have c5 := @requestCourse_writes m (within_mask hm rfl)
  unfold courseCommand
  repeat' first
    | with_reducible first | exact writes_done | exact writes_nil | refine writes_cons ?_ ?_ | refine writes_seq ?_ ?_ | refine writes_look fun _ => ?_ | refine writes_when ?_ | refine writes_each fun _ => ?_ | refine writes_ite ?_ ?_ | refine c0 ?_ | exact c1 | exact c2 | exact c3 | exact c4 | exact c5 | refine writes_act (bit_mask hm ?_)
    | ((with_reducible show Nat.testBit _ (Eff.num _) = true); simp only [Eff.num]; rfl) | split | dsimp only

theorem dumpCommand_writes {m : Nat} (hm : 34360841735 &&& m = 34360841735) {a1 : _} {a2 : _} : (dumpCommand a1 a2).Writes m := by
  have c0 := @hostCmd_writes m (within_mask hm rfl)
  have c1 := @oReq_writes m (within_mask hm rfl)
  have c2 := @reply_writes m (within_mask hm rfl)
  have c3 := @requestDump_writes m (within_mask hm rfl)
  unfold dumpCommand
  repeat' first
    | with_reducible first | exact writes_done | exact writes_nil | refine writes_cons ?_ ?_ | refine writes_seq ?_ ?_ | refine writes_look fun _ => ?_ | refine writes_when ?_ | refine writes_each fun _ => ?_ | refine writes_ite ?_ ?_ | refine c0 ?_ | exact c1 | exact c2 | exact c3 | refine writes_act (bit_mask hm ?_)
    | ((with_reducible show Nat.testBit _ (Eff.num _) = true); simp only [Eff.num]; rfl) | split | dsimp only

theorem haltCommand_writes {m : Nat} (hm : 1152636616687 &&& m = 1152636616687) {a1 : _} {a2 : _} : (haltCommand a1 a2).Writes m := by
  have c0 := @holdByCommand_writes m (within_mask hm rfl)
  have c1 := @hostCmd_writes m (within_mask hm rfl)
  have c2 := @releaseByCommand_writes m (within_mask hm rfl)
  have c3 := @reply_writes m (within_mask hm rfl)
  unfold haltCommand
  repeat' first
    | with_reducible first | exact writes_done | exact writes_nil | refine writes_cons ?_ ?_ | refine writes_seq ?_ ?_ | refine writes_look fun _ => ?_ | refine writes_when ?_ | refine writes_each fun _ => ?_ | refine writes_ite ?_ ?_ | refine c0 (fun _ => ?_) | refine c1 ?_ | exact c2 | exact c3 | refine writes_act (bit_mask hm ?_)
    | ((with_reducible show Nat.testBit _ (Eff.num _) = true); simp only [Eff.num]; rfl) | split | dsimp only

theorem leaveQuiesce_writes {m : Nat} (hm : 34366058497 &&& m = 34366058497) : (leaveQuiesce).Writes m := by
  have c0 := @setPort_writes m (within_mask hm rfl)
  unfold leaveQuiesce
  repeat' first
    | with_reducible first | exact writes_done | exact writes_nil | refine writes_cons ?_ ?_ | refine writes_seq ?_ ?_ | refine writes_look fun _ => ?_ | refine writes_when ?_ | refine writes_each fun _ => ?_ | refine writes_ite ?_ ?_ | exact c0 | refine writes_act (bit_mask hm ?_)
    | ((with_reducible show Nat.testBit _ (Eff.num _) = true); simp only [Eff.num]; rfl) | split | dsimp only

theorem loadProgram_writes {m : Nat} (hm : 52051115951 &&& m = 52051115951) {a1 : _} {a2 : _} {a3 : _} {a4 : _} : (loadProgram a1 a2 a3 a4).Writes m := by
  have c0 := @loadTile_writes m (within_mask hm rfl)
  have c1 := @modMmu_writes m (within_mask hm rfl)
  have c2 := @startTile_writes m (within_mask hm rfl)
  unfold loadProgram
  repeat' first
    | with_reducible first | exact writes_done | exact writes_nil | refine writes_cons ?_ ?_ | refine writes_seq ?_ ?_ | refine writes_look fun _ => ?_ | refine writes_when ?_ | refine writes_each fun _ => ?_ | refine writes_ite ?_ ?_ | exact c0 | exact c1 | exact c2 | refine writes_act (bit_mask hm ?_)
    | ((with_reducible show Nat.testBit _ (Eff.num _) = true); simp only [Eff.num]; rfl) | split | dsimp only

theorem logCommand_writes {m : Nat} (hm : 34359758849 &&& m = 34359758849) {a1 : _} {a2 : _} : (logCommand a1 a2).Writes m := by
  have c0 := @hostCmd_writes m (within_mask hm rfl)
  have c1 := @reply_writes m (within_mask hm rfl)
  unfold logCommand
  repeat' first
    | with_reducible first | exact writes_done | exact writes_nil | refine writes_cons ?_ ?_ | refine writes_seq ?_ ?_ | refine writes_look fun _ => ?_ | refine writes_when ?_ | refine writes_each fun _ => ?_ | refine writes_ite ?_ ?_ | refine c0 ?_ | exact c1 | refine writes_act (bit_mask hm ?_)
    | ((with_reducible show Nat.testBit _ (Eff.num _) = true); simp only [Eff.num]; rfl) | split | dsimp only

theorem moveMem_writes {m : Nat} (hm : 51680407559 &&& m = 51680407559) {a1 : _} {a2 : _} {a3 : _} {a4 : _} {a5 : _} {a6 : _} {a7 : _} {a8 : _} (h5 : ∀ x0 x1 x2, (a5 x0 x1 x2).Writes m) : (moveMem a1 a2 a3 a4 a5 a6 a7 a8).Writes m := by
  have c0 := @integrityOwn_writes m (within_mask hm rfl)
  have c1 := @noteFault_writes m (within_mask hm rfl)
  have c2 := @touchLeaf_writes m (within_mask hm rfl)
  have c3 := @writePhys_writes m (within_mask hm rfl)
  induction a6 generalizing a1 a2 a3 a4 a7 a8 with
  | nil =>
    unfold moveMem
    repeat' first
      | with_reducible first | exact writes_done | exact writes_nil | refine writes_cons ?_ ?_ | refine writes_seq ?_ ?_ | refine writes_look fun _ => ?_ | refine writes_when ?_ | refine writes_each fun _ => ?_ | refine writes_ite ?_ ?_ | exact c0 | exact c1 | exact c2 | exact c3 | exact h5 _ _ _ | refine writes_act (bit_mask hm ?_)
      | ((with_reducible show Nat.testBit _ (Eff.num _) = true); simp only [Eff.num]; rfl) | split | dsimp only
  | cons x xs ih =>
    unfold moveMem
    repeat' first
      | with_reducible first | apply ih | exact writes_done | exact writes_nil | refine writes_cons ?_ ?_ | refine writes_seq ?_ ?_ | refine writes_look fun _ => ?_ | refine writes_when ?_ | refine writes_each fun _ => ?_ | refine writes_ite ?_ ?_ | exact c0 | exact c1 | exact c2 | exact c3 | exact h5 _ _ _ | refine writes_act (bit_mask hm ?_)
      | ((with_reducible show Nat.testBit _ (Eff.num _) = true); simp only [Eff.num]; rfl) | split | dsimp only

theorem openStaging_writes {m : Nat} (hm : 34634497537 &&& m = 34634497537) {a1 : _} {a2 : _} : (openStaging a1 a2).Writes m := by
  have c0 := @leaveQuiesce_writes m (within_mask hm rfl)
  have c1 := @modStart_writes m (within_mask hm rfl)
  have c2 := @setPhase_writes m (within_mask hm rfl)
  have c3 := @tellPartner_writes m (within_mask hm rfl)
  unfold openStaging
  repeat' first
    | with_reducible first | exact writes_done | exact writes_nil | refine writes_cons ?_ ?_ | refine writes_seq ?_ ?_ | refine writes_look fun _ => ?_ | refine writes_when ?_ | refine writes_each fun _ => ?_ | refine writes_ite ?_ ?_ | exact c0 | exact c1 | exact c2 | exact c3 | refine writes_act (bit_mask hm ?_)
    | ((with_reducible show Nat.testBit _ (Eff.num _) = true); simp only [Eff.num]; rfl) | split | dsimp only

theorem readMem_writes {m : Nat} (hm : 51680407559 &&& m = 51680407559) {a1 : _} {a2 : _} {a3 : _} {a4 : _} (h4 : ∀ x0 x1 x2, (a4 x0 x1 x2).Writes m) : (readMem a1 a2 a3 a4).Writes m := by
  have c0 := @moveMem_writes m (within_mask hm rfl)
  unfold readMem
  repeat' first
    | with_reducible first | exact writes_done | exact writes_nil | refine writes_cons ?_ ?_ | refine writes_seq ?_ ?_ | refine writes_look fun _ => ?_ | refine writes_when ?_ | refine writes_each fun _ => ?_ | refine writes_ite ?_ ?_ | refine c0 (fun _ _ _ => ?_) | exact h4 _ _ _ | refine writes_act (bit_mask hm ?_)
    | ((with_reducible show Nat.testBit _ (Eff.num _) = true); simp only [Eff.num]; rfl) | split | dsimp only

theorem readImages_writes {m : Nat} (hm : 51680407559 &&& m = 51680407559) {a1 : _} {a2 : _} {a3 : _} {a4 : _} {a5 : _} (h2 : ∀ x0 x1, (a2 x0 x1).Writes m) : (readImages a1 a2 a3 a4 a5).Writes m := by
  have c0 := @readMem_writes m (within_mask hm rfl)
  induction a4 generalizing a1 a3 a5 with
  | nil =>
    unfold readImages
    repeat' first
      | with_reducible first | exact writes_done | exact writes_nil | refine writes_cons ?_ ?_ | refine writes_seq ?_ ?_ | refine writes_look fun _ => ?_ | refine writes_when ?_ | refine writes_each fun _ => ?_ | refine writes_ite ?_ ?_ | refine c0 (fun _ _ _ => ?_) | exact h2 _ _ | refine writes_act (bit_mask hm ?_)
      | ((with_reducible show Nat.testBit _ (Eff.num _) = true); simp only [Eff.num]; rfl) | split | dsimp only
  | cons x xs ih =>
    unfold readImages
    repeat' first
      | with_reducible first | apply ih | exact writes_done | exact writes_nil | refine writes_cons ?_ ?_ | refine writes_seq ?_ ?_ | refine writes_look fun _ => ?_ | refine writes_when ?_ | refine writes_each fun _ => ?_ | refine writes_ite ?_ ?_ | refine c0 (fun _ _ _ => ?_) | exact h2 _ _ | refine writes_act (bit_mask hm ?_)
      | ((with_reducible show Nat.testBit _ (Eff.num _) = true); simp only [Eff.num]; rfl) | split | dsimp only

theorem readRegs_writes {m : Nat} (hm : 17179869185 &&& m = 17179869185) {a1 : _} {a2 : _} {a3 : _} {a4 : _} {a5 : _} (h1 : ∀ x0 x1 x2, (a1 x0 x1 x2).Writes m) : (readRegs a1 a2 a3 a4 a5).Writes m := by
  have c0 := @readEffect_writes m (within_mask hm rfl)
  induction a2 generalizing a3 a4 a5 with
  | zero =>
    unfold readRegs
    repeat' first
      | with_reducible first | exact writes_done | exact writes_nil | refine writes_cons ?_ ?_ | refine writes_seq ?_ ?_ | refine writes_look fun _ => ?_ | refine writes_when ?_ | refine writes_each fun _ => ?_ | refine writes_ite ?_ ?_ | exact c0 | exact h1 _ _ _ | refine writes_act (bit_mask hm ?_)
      | ((with_reducible show Nat.testBit _ (Eff.num _) = true); simp only [Eff.num]; rfl) | split | dsimp only
  | succ k ih =>
    unfold readRegs
    repeat' first
      | with_reducible first | apply ih | exact writes_done | exact writes_nil | refine writes_cons ?_ ?_ | refine writes_seq ?_ ?_ | refine writes_look fun _ => ?_ | refine writes_when ?_ | refine writes_each fun _ => ?_ | refine writes_ite ?_ ?_ | exact c0 | exact h1 _ _ _ | refine writes_act (bit_mask hm ?_)
      | ((with_reducible show Nat.testBit _ (Eff.num _) = true); simp only [Eff.num]; rfl) | split | dsimp only

theorem shoreCommand_writes {m : Nat} (hm : 51647545023 &&& m = 51647545023) {a1 : _} {a2 : _} : (shoreCommand a1 a2).Writes m := by
  have c0 := @declareNow_writes m (within_mask hm rfl)
  have c1 := @hostCmd_writes m (within_mask hm rfl)
  have c2 := @reply_writes m (within_mask hm rfl)
  have c3 := @startHandback_writes m (within_mask hm rfl)
  unfold shoreCommand
  repeat' first
    | with_reducible first | exact writes_done | exact writes_nil | refine writes_cons ?_ ?_ | refine writes_seq ?_ ?_ | refine writes_look fun _ => ?_ | refine writes_when ?_ | refine writes_each fun _ => ?_ | refine writes_ite ?_ ?_ | exact c0 | refine c1 ?_ | exact c2 | refine c3 (fun _ => ?_) | refine writes_act (bit_mask hm ?_)
    | ((with_reducible show Nat.testBit _ (Eff.num _) = true); simp only [Eff.num]; rfl) | split | dsimp only

theorem takeProgram_writes {m : Nat} (hm : 52051115951 &&& m = 52051115951) {a1 : _} {a2 : _} : (takeProgram a1 a2).Writes m := by
  have c0 := @loadProgram_writes m (within_mask hm rfl)
  have c1 := @readImages_writes m (within_mask hm rfl)
  have c2 := @readMem_writes m (within_mask hm rfl)
  have c3 := @reply_writes m (within_mask hm rfl)
  unfold takeProgram
  repeat' first
    | with_reducible first | exact writes_done | exact writes_nil | refine writes_cons ?_ ?_ | refine writes_seq ?_ ?_ | refine writes_look fun _ => ?_ | refine writes_when ?_ | refine writes_each fun _ => ?_ | refine writes_ite ?_ ?_ | exact c0 | refine c1 (fun _ _ => ?_) | refine c2 (fun _ _ _ => ?_) | exact c3 | refine writes_act (bit_mask hm ?_)
    | ((with_reducible show Nat.testBit _ (Eff.num _) = true); simp only [Eff.num]; rfl) | split | dsimp only

theorem takePut_writes {m : Nat} (hm : 52075888263 &&& m = 52075888263) {a1 : _} : (takePut a1).Writes m := by
  have c0 := @modStart_writes m (within_mask hm rfl)
  have c1 := @packageComplete_writes m (within_mask hm rfl)
  have c2 := @reply_writes m (within_mask hm rfl)
  have c3 := @shardBytes_writes m (within_mask hm rfl)
  have c4 := @stageBytes_writes m (within_mask hm rfl)
  have c5 := @takeManifest_writes m (within_mask hm rfl)
  unfold takePut
  repeat' first
    | with_reducible first | exact writes_done | exact writes_nil | refine writes_cons ?_ ?_ | refine writes_seq ?_ ?_ | refine writes_look fun _ => ?_ | refine writes_when ?_ | refine writes_each fun _ => ?_ | refine writes_ite ?_ ?_ | exact c0 | exact c1 | exact c2 | exact c3 | exact c4 | exact c5 | refine writes_act (bit_mask hm ?_)
    | ((with_reducible show Nat.testBit _ (Eff.num _) = true); simp only [Eff.num]; rfl) | split | dsimp only

theorem tallyService_writes {m : Nat} (hm : 16384 &&& m = 16384) {a1 : _} : (tallyService a1).Writes m := by
  have c0 := @tallyClass_writes m (within_mask hm rfl)
  unfold tallyService
  repeat' first
    | with_reducible first | exact writes_done | exact writes_nil | refine writes_cons ?_ ?_ | refine writes_seq ?_ ?_ | refine writes_look fun _ => ?_ | refine writes_when ?_ | refine writes_each fun _ => ?_ | refine writes_ite ?_ ?_ | exact c0 | refine writes_act (bit_mask hm ?_)
    | ((with_reducible show Nat.testBit _ (Eff.num _) = true); simp only [Eff.num]; rfl) | split | dsimp only

theorem waitAwake_writes {m : Nat} (hm : 131072 &&& m = 131072) {a1 : _} {a2 : _} {a3 : _} (h3 : (a3).Writes m) : (waitAwake a1 a2 a3).Writes m := by
  have c0 := @modMode_writes m (within_mask hm rfl)
  have c1 := @wake_writes m (within_mask hm rfl)
  unfold waitAwake
  repeat' first
    | with_reducible first | exact writes_done | exact writes_nil | refine writes_cons ?_ ?_ | refine writes_seq ?_ ?_ | refine writes_look fun _ => ?_ | refine writes_when ?_ | refine writes_each fun _ => ?_ | refine writes_ite ?_ ?_ | exact c0 | exact c1 | exact h3 | refine writes_act (bit_mask hm ?_)
    | ((with_reducible show Nat.testBit _ (Eff.num _) = true); simp only [Eff.num]; rfl) | split | dsimp only

theorem waitRole_writes {m : Nat} (hm : 131072 &&& m = 131072) {a1 : _} {a2 : _} {a3 : _} (h3 : (a3).Writes m) : (waitRole a1 a2 a3).Writes m := by
  have c0 := @modMode_writes m (within_mask hm rfl)
  unfold waitRole
  repeat' first
    | with_reducible first | exact writes_done | exact writes_nil | refine writes_cons ?_ ?_ | refine writes_seq ?_ ?_ | refine writes_look fun _ => ?_ | refine writes_when ?_ | refine writes_each fun _ => ?_ | refine writes_ite ?_ ?_ | exact c0 | exact h3 | refine writes_act (bit_mask hm ?_)
    | ((with_reducible show Nat.testBit _ (Eff.num _) = true); simp only [Eff.num]; rfl) | split | dsimp only

theorem writeRegs_writes {m : Nat} (hm : 1161226616831 &&& m = 1161226616831) {a1 : _} {a2 : _} {a3 : _} {a4 : _} {a5 : _} (h1 : ∀ x0 x1, (a1 x0 x1).Writes m) : (writeRegs a1 a2 a3 a4 a5).Writes m := by
  have c0 := @complete_writes m (within_mask hm rfl)
  have c1 := @writeReg_writes m (within_mask hm rfl)
  induction a2 generalizing a3 a4 a5 with
  | zero =>
    unfold writeRegs
    repeat' first
      | with_reducible first | exact writes_done | exact writes_nil | refine writes_cons ?_ ?_ | refine writes_seq ?_ ?_ | refine writes_look fun _ => ?_ | refine writes_when ?_ | refine writes_each fun _ => ?_ | refine writes_ite ?_ ?_ | exact c0 | exact c1 | exact h1 _ _ | refine writes_act (bit_mask hm ?_)
      | ((with_reducible show Nat.testBit _ (Eff.num _) = true); simp only [Eff.num]; rfl) | split | dsimp only
  | succ k ih =>
    unfold writeRegs
    repeat' first
      | with_reducible first | apply ih | exact writes_done | exact writes_nil | refine writes_cons ?_ ?_ | refine writes_seq ?_ ?_ | refine writes_look fun _ => ?_ | refine writes_when ?_ | refine writes_each fun _ => ?_ | refine writes_ite ?_ ?_ | exact c0 | exact c1 | exact h1 _ _ | refine writes_act (bit_mask hm ?_)
      | ((with_reducible show Nat.testBit _ (Eff.num _) = true); simp only [Eff.num]; rfl) | split | dsimp only

theorem corrected_writes {m : Nat} (hm : 4194304 &&& m = 4194304) : (corrected).Writes m := by
  have c0 := @modObs_writes m (within_mask hm rfl)
  unfold corrected
  repeat' first
    | with_reducible first | exact writes_done | exact writes_nil | refine writes_cons ?_ ?_ | refine writes_seq ?_ ?_ | refine writes_look fun _ => ?_ | refine writes_when ?_ | refine writes_each fun _ => ?_ | refine writes_ite ?_ ?_ | exact c0 | refine writes_act (bit_mask hm ?_)
    | ((with_reducible show Nat.testBit _ (Eff.num _) = true); simp only [Eff.num]; rfl) | split | dsimp only

theorem tileParity_writes {m : Nat} (hm : 34602286767 &&& m = 34602286767) {a1 : _} {a2 : _} {a3 : _} : (tileParity a1 a2 a3).Writes m := by
  have c0 := @exception_writes m (within_mask hm rfl)
  unfold tileParity
  repeat' first
    | with_reducible first | exact writes_done | exact writes_nil | refine writes_cons ?_ ?_ | refine writes_seq ?_ ?_ | refine writes_look fun _ => ?_ | refine writes_when ?_ | refine writes_each fun _ => ?_ | refine writes_ite ?_ ?_ | exact c0 | refine writes_act (bit_mask hm ?_)
    | ((with_reducible show Nat.testBit _ (Eff.num _) = true); simp only [Eff.num]; rfl) | split | dsimp only

theorem countBad_writes {m : Nat} (hm : 34602286767 &&& m = 34602286767) {a1 : _} {a2 : _} : (countBad a1 a2).Writes m := by
  have c0 := @bump_writes m (within_mask hm rfl)
  have c1 := @channelOut_writes m (within_mask hm rfl)
  have c2 := @record_writes m (within_mask hm rfl)
  have c3 := @tileParity_writes m (within_mask hm rfl)
  unfold countBad
  repeat' first
    | with_reducible first | exact writes_done | exact writes_nil | refine writes_cons ?_ ?_ | refine writes_seq ?_ ?_ | refine writes_look fun _ => ?_ | refine writes_when ?_ | refine writes_each fun _ => ?_ | refine writes_ite ?_ ?_ | exact c0 | exact c1 | exact c2 | exact c3 | refine writes_act (bit_mask hm ?_)
    | ((with_reducible show Nat.testBit _ (Eff.num _) = true); simp only [Eff.num]; rfl) | split | dsimp only

theorem engineReset_writes {m : Nat} (hm : 1152653393647 &&& m = 1152653393647) {a1 : _} : (engineReset a1).Writes m := by
  have c0 := @watchdog_writes m (within_mask hm rfl)
  unfold engineReset
  repeat' first
    | with_reducible first | exact writes_done | exact writes_nil | refine writes_cons ?_ ?_ | refine writes_seq ?_ ?_ | refine writes_look fun _ => ?_ | refine writes_when ?_ | refine writes_each fun _ => ?_ | refine writes_ite ?_ ?_ | exact c0 | refine writes_act (bit_mask hm ?_)
    | ((with_reducible show Nat.testBit _ (Eff.num _) = true); simp only [Eff.num]; rfl) | split | dsimp only

theorem memoryConsumers_writes {m : Nat} (hm : 34461900463 &&& m = 34461900463) {a1 : _} {a2 : _} : (memoryConsumers a1 a2).Writes m := by
  have c0 := @discardGuest_writes m (within_mask hm rfl)
  have c1 := @otherSource_writes m (within_mask hm rfl)
  have c2 := @placeElsewhere_writes m (within_mask hm rfl)
  have c3 := @positionLost_writes m (within_mask hm rfl)
  unfold memoryConsumers
  repeat' first
    | with_reducible first | exact writes_done | exact writes_nil | refine writes_cons ?_ ?_ | refine writes_seq ?_ ?_ | refine writes_look fun _ => ?_ | refine writes_when ?_ | refine writes_each fun _ => ?_ | refine writes_ite ?_ ?_ | exact c0 | exact c1 | exact c2 | exact c3 | refine writes_act (bit_mask hm ?_)
    | ((with_reducible show Nat.testBit _ (Eff.num _) = true); simp only [Eff.num]; rfl) | split | dsimp only

end Sys2Proof.Machine
end

