-- ==== Sys2Proof/Laws/Writes13.lean ====
section
/-! SUPPORT. What each meaning writes (part 1): it takes a next state, by a program whose effects are of these areas. -/

set_option maxRecDepth 16000

namespace Sys2Proof.Machine

theorem execAgentAbandon_writes {m : Nat} (hm : 34359738402 &&& m = 34359738402) (a1 : _) (a2 : _) (s : State) : ∃ q : Prog, q.Writes m ∧ execAgentAbandon a1 a2 s = s.run q := by
  have c0 := @aRequest_writes m (within_mask hm rfl)
  have c1 := @aResp_writes m (within_mask hm rfl)
  have c2 := @abandonCourse_writes m (within_mask hm rfl)
  have c3 := @answerDeferred_writes m (within_mask hm rfl)
  refine ⟨_, ?_, rfl⟩
  repeat' first
    | with_reducible first | exact writes_done | exact writes_nil | refine writes_cons ?_ ?_ | refine writes_seq ?_ ?_ | refine writes_look fun _ => ?_ | refine writes_when ?_ | refine writes_each fun _ => ?_ | refine writes_ite ?_ ?_ | refine c0 (fun _ => ?_) | exact c1 | exact c2 | exact c3 | refine writes_act (bit_mask hm ?_)
    | ((with_reducible show Nat.testBit _ (Eff.num _) = true); simp only [Eff.num]; rfl) | split | dsimp only [id]

theorem execAgentReset_writes {m : Nat} (hm : 32 &&& m = 32) (a1 : _) (s : State) : ∃ q : Prog, q.Writes m ∧ execAgentReset a1 s = s.run q := by
  have c0 := @modAgent_writes m (within_mask hm rfl)
  refine ⟨_, ?_, rfl⟩
  repeat' first
    | with_reducible first | exact writes_done | exact writes_nil | refine writes_cons ?_ ?_ | refine writes_seq ?_ ?_ | refine writes_look fun _ => ?_ | refine writes_when ?_ | refine writes_each fun _ => ?_ | refine writes_ite ?_ ?_ | exact c0 | refine writes_act (bit_mask hm ?_)
    | ((with_reducible show Nat.testBit _ (Eff.num _) = true); simp only [Eff.num]; rfl) | split | dsimp only [id]

theorem execAgentSelftestDone_writes {m : Nat} (hm : 51539607584 &&& m = 51539607584) (a1 : _) (a2 : _) (s : State) : ∃ q : Prog, q.Writes m ∧ execAgentSelftestDone a1 a2 s = s.run q := by
  have c0 := @haltHost_writes m (within_mask hm rfl)
  have c1 := @hello_writes m (within_mask hm rfl)
  have c2 := @modAgent_writes m (within_mask hm rfl)
  refine ⟨_, ?_, rfl⟩
  repeat' first
    | with_reducible first | exact writes_done | exact writes_nil | refine writes_cons ?_ ?_ | refine writes_seq ?_ ?_ | refine writes_look fun _ => ?_ | refine writes_when ?_ | refine writes_each fun _ => ?_ | refine writes_ite ?_ ?_ | exact c0 | exact c1 | exact c2 | refine writes_act (bit_mask hm ?_)
    | ((with_reducible show Nat.testBit _ (Eff.num _) = true); simp only [Eff.num]; rfl) | split | dsimp only [id]

theorem execAgentTrayLost_writes {m : Nat} (hm : 32 &&& m = 32) (a1 : _) (s : State) : ∃ q : Prog, q.Writes m ∧ execAgentTrayLost a1 s = s.run q := by
  have c0 := @modAgent_writes m (within_mask hm rfl)
  refine ⟨_, ?_, rfl⟩
  repeat' first
    | with_reducible first | exact writes_done | exact writes_nil | refine writes_cons ?_ ?_ | refine writes_seq ?_ ?_ | refine writes_look fun _ => ?_ | refine writes_when ?_ | refine writes_each fun _ => ?_ | refine writes_ite ?_ ?_ | exact c0 | refine writes_act (bit_mask hm ?_)
    | ((with_reducible show Nat.testBit _ (Eff.num _) = true); simp only [Eff.num]; rfl) | split | dsimp only [id]

theorem execAgentTrayTrained_writes {m : Nat} (hm : 51539607584 &&& m = 51539607584) (a1 : _) (s : State) : ∃ q : Prog, q.Writes m ∧ execAgentTrayTrained a1 s = s.run q := by
  have c0 := @hello_writes m (within_mask hm rfl)
  have c1 := @modAgent_writes m (within_mask hm rfl)
  have c2 := @pumpSamples_writes m (within_mask hm rfl)
  refine ⟨_, ?_, rfl⟩
  repeat' first
    | with_reducible first | exact writes_done | exact writes_nil | refine writes_cons ?_ ?_ | refine writes_seq ?_ ?_ | refine writes_look fun _ => ?_ | refine writes_when ?_ | refine writes_each fun _ => ?_ | refine writes_ite ?_ ?_ | exact c0 | exact c1 | exact c2 | refine writes_act (bit_mask hm ?_)
    | ((with_reducible show Nat.testBit _ (Eff.num _) = true); simp only [Eff.num]; rfl) | split | dsimp only [id]

theorem execBind_writes {m : Nat} (hm : 34359738400 &&& m = 34359738400) (a1 : _) (a2 : _) (s : State) : ∃ q : Prog, q.Writes m ∧ execBind a1 a2 s = s.run q := by
  have c0 := @aRequest_writes m (within_mask hm rfl)
  have c1 := @aResp_writes m (within_mask hm rfl)
  have c2 := @modAgent_writes m (within_mask hm rfl)
  refine ⟨_, ?_, rfl⟩
  repeat' first
    | with_reducible first | exact writes_done | exact writes_nil | refine writes_cons ?_ ?_ | refine writes_seq ?_ ?_ | refine writes_look fun _ => ?_ | refine writes_when ?_ | refine writes_each fun _ => ?_ | refine writes_ite ?_ ?_ | refine c0 (fun _ => ?_) | exact c1 | exact c2 | refine writes_act (bit_mask hm ?_)
    | ((with_reducible show Nat.testBit _ (Eff.num _) = true); simp only [Eff.num]; rfl) | split | dsimp only [id]

theorem execBlockConsume_writes {m : Nat} (hm : 34359738400 &&& m = 34359738400) (a1 : _) (a2 : _) (s : State) : ∃ q : Prog, q.Writes m ∧ execBlockConsume a1 a2 s = s.run q := by
  have c0 := @checkFailed_writes m (within_mask hm rfl)
  have c1 := @hostRuns_writes m (within_mask hm rfl)
  refine ⟨_, ?_, rfl⟩
  repeat' first
    | with_reducible first | exact writes_done | exact writes_nil | refine writes_cons ?_ ?_ | refine writes_seq ?_ ?_ | refine writes_look fun _ => ?_ | refine writes_when ?_ | refine writes_each fun _ => ?_ | refine writes_ite ?_ ?_ | exact c0 | refine c1 ?_ | refine writes_act (bit_mask hm ?_)
    | ((with_reducible show Nat.testBit _ (Eff.num _) = true); simp only [Eff.num]; rfl) | split | dsimp only [id]

theorem execCommitNote_writes {m : Nat} (hm : 32 &&& m = 32) (a1 : _) (a2 : _) (s : State) : ∃ q : Prog, q.Writes m ∧ execCommitNote a1 a2 s = s.run q := by
  have c0 := @aNotice_writes m (within_mask hm rfl)
  have c1 := @modAgent_writes m (within_mask hm rfl)
  refine ⟨_, ?_, rfl⟩
  repeat' first
    | with_reducible first | exact writes_done | exact writes_nil | refine writes_cons ?_ ?_ | refine writes_seq ?_ ?_ | refine writes_look fun _ => ?_ | refine writes_when ?_ | refine writes_each fun _ => ?_ | refine writes_ite ?_ ?_ | refine c0 (fun _ => ?_) | exact c1 | refine writes_act (bit_mask hm ?_)
    | ((with_reducible show Nat.testBit _ (Eff.num _) = true); simp only [Eff.num]; rfl) | split | dsimp only [id]

theorem execContextResp_writes {m : Nat} (hm : 34359738400 &&& m = 34359738400) (a1 : _) (a2 : _) (s : State) : ∃ q : Prog, q.Writes m ∧ execContextResp a1 a2 s = s.run q := by
  have c0 := @countStale_writes m (within_mask hm rfl)
  have c1 := @courseDoneTest_writes m (within_mask hm rfl)
  have c2 := @modAgent_writes m (within_mask hm rfl)
  have c3 := @sendContext_writes m (within_mask hm rfl)
  refine ⟨_, ?_, rfl⟩
  repeat' first
    | with_reducible first | exact writes_done | exact writes_nil | refine writes_cons ?_ ?_ | refine writes_seq ?_ ?_ | refine writes_look fun _ => ?_ | refine writes_when ?_ | refine writes_each fun _ => ?_ | refine writes_ite ?_ ?_ | exact c0 | exact c1 | exact c2 | exact c3 | refine writes_act (bit_mask hm ?_)
    | ((with_reducible show Nat.testBit _ (Eff.num _) = true); simp only [Eff.num]; rfl) | split | dsimp only [id]

theorem execContextRetryTimeout_writes {m : Nat} (hm : 34359738400 &&& m = 34359738400) (a1 : _) (s : State) : ∃ q : Prog, q.Writes m ∧ execContextRetryTimeout a1 s = s.run q := by
  have c0 := @sendContext_writes m (within_mask hm rfl)
  refine ⟨_, ?_, rfl⟩
  repeat' first
    | with_reducible first | exact writes_done | exact writes_nil | refine writes_cons ?_ ?_ | refine writes_seq ?_ ?_ | refine writes_look fun _ => ?_ | refine writes_when ?_ | refine writes_each fun _ => ?_ | refine writes_ite ?_ ?_ | exact c0 | refine writes_act (bit_mask hm ?_)
    | ((with_reducible show Nat.testBit _ (Eff.num _) = true); simp only [Eff.num]; rfl) | split | dsimp only [id]

theorem execContributionReceive_writes {m : Nat} (hm : 34359738400 &&& m = 34359738400) (a1 : _) (a2 : _) (a3 : _) (a4 : _) (a5 : _) (a6 : _) (s : State) : ∃ q : Prog, q.Writes m ∧ execContributionReceive a1 a2 a3 a4 a5 a6 s = s.run q := by
  have c0 := @aRaise_writes m (within_mask hm rfl)
  have c1 := @hostRuns_writes m (within_mask hm rfl)
  have c2 := @send_writes m (within_mask hm rfl)
  refine ⟨_, ?_, rfl⟩
  repeat' first
    | with_reducible first | exact writes_done | exact writes_nil | refine writes_cons ?_ ?_ | refine writes_seq ?_ ?_ | refine writes_look fun _ => ?_ | refine writes_when ?_ | refine writes_each fun _ => ?_ | refine writes_ite ?_ ?_ | exact c0 | refine c1 ?_ | exact c2 | refine writes_act (bit_mask hm ?_)
    | ((with_reducible show Nat.testBit _ (Eff.num _) = true); simp only [Eff.num]; rfl) | split | dsimp only [id]

theorem execCounterSet_writes {m : Nat} (hm : 34359738400 &&& m = 34359738400) (a1 : _) (a2 : _) (s : State) : ∃ q : Prog, q.Writes m ∧ execCounterSet a1 a2 s = s.run q := by
  have c0 := @aTransferIn_writes m (within_mask hm rfl)
  have c1 := @modAgent_writes m (within_mask hm rfl)
  refine ⟨_, ?_, rfl⟩
  repeat' first
    | with_reducible first | exact writes_done | exact writes_nil | refine writes_cons ?_ ?_ | refine writes_seq ?_ ?_ | refine writes_look fun _ => ?_ | refine writes_when ?_ | refine writes_each fun _ => ?_ | refine writes_ite ?_ ?_ | refine c0 ?_ | exact c1 | refine writes_act (bit_mask hm ?_)
    | ((with_reducible show Nat.testBit _ (Eff.num _) = true); simp only [Eff.num]; rfl) | split | dsimp only [id]

theorem execCourseArm_writes {m : Nat} (hm : 34359738400 &&& m = 34359738400) (a1 : _) (a2 : _) (s : State) : ∃ q : Prog, q.Writes m ∧ execCourseArm a1 a2 s = s.run q := by
  have c0 := @aResp_writes m (within_mask hm rfl)
  have c1 := @modAgent_writes m (within_mask hm rfl)
  refine ⟨_, ?_, rfl⟩
  repeat' first
    | with_reducible first | exact writes_done | exact writes_nil | refine writes_cons ?_ ?_ | refine writes_seq ?_ ?_ | refine writes_look fun _ => ?_ | refine writes_when ?_ | refine writes_each fun _ => ?_ | refine writes_ite ?_ ?_ | exact c0 | exact c1 | refine writes_act (bit_mask hm ?_)
    | ((with_reducible show Nat.testBit _ (Eff.num _) = true); simp only [Eff.num]; rfl) | split | dsimp only [id]

theorem execCowCopyDone_writes {m : Nat} (hm : 34 &&& m = 34) (a1 : _) (a2 : _) (s : State) : ∃ q : Prog, q.Writes m ∧ execCowCopyDone a1 a2 s = s.run q := by
  have c0 := @copyGranule_writes m (within_mask hm rfl)
  have c1 := @releaseHeld_writes m (within_mask hm rfl)
  refine ⟨_, ?_, rfl⟩
  repeat' first
    | with_reducible first | exact writes_done | exact writes_nil | refine writes_cons ?_ ?_ | refine writes_seq ?_ ?_ | refine writes_look fun _ => ?_ | refine writes_when ?_ | refine writes_each fun _ => ?_ | refine writes_ite ?_ ?_ | exact c0 | exact c1 | refine writes_act (bit_mask hm ?_)
    | ((with_reducible show Nat.testBit _ (Eff.num _) = true); simp only [Eff.num]; rfl) | split | dsimp only [id]

theorem execDirtyReq_writes {m : Nat} (hm : 34359738400 &&& m = 34359738400) (a1 : _) (a2 : _) (s : State) : ∃ q : Prog, q.Writes m ∧ execDirtyReq a1 a2 s = s.run q := by
  have c0 := @aRequest_writes m (within_mask hm rfl)
  have c1 := @aResp_writes m (within_mask hm rfl)
  have c2 := @aTransfer_writes m (within_mask hm rfl)
  refine ⟨_, ?_, rfl⟩
  repeat' first
    | with_reducible first | exact writes_done | exact writes_nil | refine writes_cons ?_ ?_ | refine writes_seq ?_ ?_ | refine writes_look fun _ => ?_ | refine writes_when ?_ | refine writes_each fun _ => ?_ | refine writes_ite ?_ ?_ | refine c0 (fun _ => ?_) | exact c1 | exact c2 | refine writes_act (bit_mask hm ?_)
    | ((with_reducible show Nat.testBit _ (Eff.num _) = true); simp only [Eff.num]; rfl) | split | dsimp only [id]

theorem execDrainAck_writes {m : Nat} (hm : 34359738402 &&& m = 34359738402) (a1 : _) (a2 : _) (s : State) : ∃ q : Prog, q.Writes m ∧ execDrainAck a1 a2 s = s.run q := by
  have c0 := @aNotice_writes m (within_mask hm rfl)
  have c1 := @courseDoneTest_writes m (within_mask hm rfl)
  have c2 := @modAgent_writes m (within_mask hm rfl)
  have c3 := @releaseHeld_writes m (within_mask hm rfl)
  refine ⟨_, ?_, rfl⟩
  repeat' first
    | with_reducible first | exact writes_done | exact writes_nil | refine writes_cons ?_ ?_ | refine writes_seq ?_ ?_ | refine writes_look fun _ => ?_ | refine writes_when ?_ | refine writes_each fun _ => ?_ | refine writes_ite ?_ ?_ | refine c0 (fun _ => ?_) | exact c1 | exact c2 | exact c3 | refine writes_act (bit_mask hm ?_)
    | ((with_reducible show Nat.testBit _ (Eff.num _) = true); simp only [Eff.num]; rfl) | split | dsimp only [id]

theorem execDrainReq_writes {m : Nat} (hm : 34359738400 &&& m = 34359738400) (a1 : _) (a2 : _) (s : State) : ∃ q : Prog, q.Writes m ∧ execDrainReq a1 a2 s = s.run q := by
  have c0 := @drainReq_writes m (within_mask hm rfl)
  refine ⟨_, ?_, rfl⟩
  repeat' first
    | with_reducible first | exact writes_done | exact writes_nil | refine writes_cons ?_ ?_ | refine writes_seq ?_ ?_ | refine writes_look fun _ => ?_ | refine writes_when ?_ | refine writes_each fun _ => ?_ | refine writes_ite ?_ ?_ | exact c0 | refine writes_act (bit_mask hm ?_)
    | ((with_reducible show Nat.testBit _ (Eff.num _) = true); simp only [Eff.num]; rfl) | split | dsimp only [id]

theorem execDumpReq_writes {m : Nat} (hm : 34359738402 &&& m = 34359738402) (a1 : _) (a2 : _) (s : State) : ∃ q : Prog, q.Writes m ∧ execDumpReq a1 a2 s = s.run q := by
  have c0 := @aRequest_writes m (within_mask hm rfl)
  have c1 := @aResp_writes m (within_mask hm rfl)
  have c2 := @writeAgentDump_writes m (within_mask hm rfl)
  refine ⟨_, ?_, rfl⟩
  repeat' first
    | with_reducible first | exact writes_done | exact writes_nil | refine writes_cons ?_ ?_ | refine writes_seq ?_ ?_ | refine writes_look fun _ => ?_ | refine writes_when ?_ | refine writes_each fun _ => ?_ | refine writes_ite ?_ ?_ | refine c0 (fun _ => ?_) | exact c1 | exact c2 | refine writes_act (bit_mask hm ?_)
    | ((with_reducible show Nat.testBit _ (Eff.num _) = true); simp only [Eff.num]; rfl) | split | dsimp only [id]

theorem execFence_writes {m : Nat} (hm : 34359738402 &&& m = 34359738402) (a1 : _) (a2 : _) (s : State) : ∃ q : Prog, q.Writes m ∧ execFence a1 a2 s = s.run q := by
  have c0 := @aRequest_writes m (within_mask hm rfl)
  have c1 := @aResp_writes m (within_mask hm rfl)
  have c2 := @enterFenced_writes m (within_mask hm rfl)
  refine ⟨_, ?_, rfl⟩
  repeat' first
    | with_reducible first | exact writes_done | exact writes_nil | refine writes_cons ?_ ?_ | refine writes_seq ?_ ?_ | refine writes_look fun _ => ?_ | refine writes_when ?_ | refine writes_each fun _ => ?_ | refine writes_ite ?_ ?_ | refine c0 (fun _ => ?_) | exact c1 | exact c2 | refine writes_act (bit_mask hm ?_)
    | ((with_reducible show Nat.testBit _ (Eff.num _) = true); simp only [Eff.num]; rfl) | split | dsimp only [id]

theorem execFenceQuietTimeout_writes {m : Nat} (hm : 34359738400 &&& m = 34359738400) (a1 : _) (s : State) : ∃ q : Prog, q.Writes m ∧ execFenceQuietTimeout a1 s = s.run q := by
  have c0 := @fenceDone_writes m (within_mask hm rfl)
  refine ⟨_, ?_, rfl⟩
  repeat' first
    | with_reducible first | exact writes_done | exact writes_nil | refine writes_cons ?_ ?_ | refine writes_seq ?_ ?_ | refine writes_look fun _ => ?_ | refine writes_when ?_ | refine writes_each fun _ => ?_ | refine writes_ite ?_ ?_ | exact c0 | refine writes_act (bit_mask hm ?_)
    | ((with_reducible show Nat.testBit _ (Eff.num _) = true); simp only [Eff.num]; rfl) | split | dsimp only [id]

theorem execHaltNHigh_writes {m : Nat} (hm : 34359738400 &&& m = 34359738400) (a1 : _) (s : State) : ∃ q : Prog, q.Writes m ∧ execHaltNHigh a1 s = s.run q := by
  have c0 := @drainNow_writes m (within_mask hm rfl)
  have c1 := @modAgent_writes m (within_mask hm rfl)
  have c2 := @pumpSamples_writes m (within_mask hm rfl)
  have c3 := @send_writes m (within_mask hm rfl)
  refine ⟨_, ?_, rfl⟩
  repeat' first
    | with_reducible first | exact writes_done | exact writes_nil | refine writes_cons ?_ ?_ | refine writes_seq ?_ ?_ | refine writes_look fun _ => ?_ | refine writes_when ?_ | refine writes_each fun _ => ?_ | refine writes_ite ?_ ?_ | exact c0 | exact c1 | exact c2 | exact c3 | refine writes_act (bit_mask hm ?_)
    | ((with_reducible show Nat.testBit _ (Eff.num _) = true); simp only [Eff.num]; rfl) | split | dsimp only [id]

theorem execHaltNLow_writes {m : Nat} (hm : 34359738400 &&& m = 34359738400) (a1 : _) (s : State) : ∃ q : Prog, q.Writes m ∧ execHaltNLow a1 s = s.run q := by
  have c0 := @haltLow_writes m (within_mask hm rfl)
  refine ⟨_, ?_, rfl⟩
  repeat' first
    | with_reducible first | exact writes_done | exact writes_nil | refine writes_cons ?_ ?_ | refine writes_seq ?_ ?_ | refine writes_look fun _ => ?_ | refine writes_when ?_ | refine writes_each fun _ => ?_ | refine writes_ite ?_ ?_ | exact c0 | refine writes_act (bit_mask hm ?_)
    | ((with_reducible show Nat.testBit _ (Eff.num _) = true); simp only [Eff.num]; rfl) | split | dsimp only [id]

theorem execHealthTick_writes {m : Nat} (hm : 34359738400 &&& m = 34359738400) (a1 : _) (s : State) : ∃ q : Prog, q.Writes m ∧ execHealthTick a1 s = s.run q := by
  have c0 := @aSend_writes m (within_mask hm rfl)
  refine ⟨_, ?_, rfl⟩
  repeat' first
    | with_reducible first | exact writes_done | exact writes_nil | refine writes_cons ?_ ?_ | refine writes_seq ?_ ?_ | refine writes_look fun _ => ?_ | refine writes_when ?_ | refine writes_each fun _ => ?_ | refine writes_ite ?_ ?_ | exact c0 | refine writes_act (bit_mask hm ?_)
    | ((with_reducible show Nat.testBit _ (Eff.num _) = true); simp only [Eff.num]; rfl) | split | dsimp only [id]

theorem execHeartbeatTick_writes {m : Nat} (hm : 34359738400 &&& m = 34359738400) (a1 : _) (s : State) : ∃ q : Prog, q.Writes m ∧ execHeartbeatTick a1 s = s.run q := by
  have c0 := @heartbeat_writes m (within_mask hm rfl)
  have c1 := @modAgent_writes m (within_mask hm rfl)
  refine ⟨_, ?_, rfl⟩
  repeat' first
    | with_reducible first | exact writes_done | exact writes_nil | refine writes_cons ?_ ?_ | refine writes_seq ?_ ?_ | refine writes_look fun _ => ?_ | refine writes_when ?_ | refine writes_each fun _ => ?_ | refine writes_ite ?_ ?_ | exact c0 | exact c1 | refine writes_act (bit_mask hm ?_)
    | ((with_reducible show Nat.testBit _ (Eff.num _) = true); simp only [Eff.num]; rfl) | split | dsimp only [id]

theorem execHeldWriteRelease_writes {m : Nat} (hm : 34 &&& m = 34) (a1 : _) (a2 : _) (s : State) : ∃ q : Prog, q.Writes m ∧ execHeldWriteRelease a1 a2 s = s.run q := by
  have c0 := @copyGranule_writes m (within_mask hm rfl)
  have c1 := @releaseHeld_writes m (within_mask hm rfl)
  refine ⟨_, ?_, rfl⟩
  repeat' first
    | with_reducible first | exact writes_done | exact writes_nil | refine writes_cons ?_ ?_ | refine writes_seq ?_ ?_ | refine writes_look fun _ => ?_ | refine writes_when ?_ | refine writes_each fun _ => ?_ | refine writes_ite ?_ ?_ | exact c0 | exact c1 | refine writes_act (bit_mask hm ?_)
    | ((with_reducible show Nat.testBit _ (Eff.num _) = true); simp only [Eff.num]; rfl) | split | dsimp only [id]

theorem execHostStateWrite_writes {m : Nat} (hm : 34359738402 &&& m = 34359738402) (a1 : _) (a2 : _) (a3 : _) (s : State) : ∃ q : Prog, q.Writes m ∧ execHostStateWrite a1 a2 a3 s = s.run q := by
  have c0 := @hostRuns_writes m (within_mask hm rfl)
  have c1 := @hostStateWrite_writes m (within_mask hm rfl)
  refine ⟨_, ?_, rfl⟩
  repeat' first
    | with_reducible first | exact writes_done | exact writes_nil | refine writes_cons ?_ ?_ | refine writes_seq ?_ ?_ | refine writes_look fun _ => ?_ | refine writes_when ?_ | refine writes_each fun _ => ?_ | refine writes_ite ?_ ?_ | refine c0 ?_ | exact c1 | refine writes_act (bit_mask hm ?_)
    | ((with_reducible show Nat.testBit _ (Eff.num _) = true); simp only [Eff.num]; rfl) | split | dsimp only [id]

theorem execLoad_writes {m : Nat} (hm : 34359738402 &&& m = 34359738402) (a1 : _) (a2 : _) (s : State) : ∃ q : Prog, q.Writes m ∧ execLoad a1 a2 s = s.run q := by
  have c0 := @aTransferIn_writes m (within_mask hm rfl)
  have c1 := @hostReCheck_writes m (within_mask hm rfl)
  have c2 := @putHost_writes m (within_mask hm rfl)
  refine ⟨_, ?_, rfl⟩
  repeat' first
    | with_reducible first | exact writes_done | exact writes_nil | refine writes_cons ?_ ?_ | refine writes_seq ?_ ?_ | refine writes_look fun _ => ?_ | refine writes_when ?_ | refine writes_each fun _ => ?_ | refine writes_ite ?_ ?_ | refine c0 ?_ | exact c1 | exact c2 | refine writes_act (bit_mask hm ?_)
    | ((with_reducible show Nat.testBit _ (Eff.num _) = true); simp only [Eff.num]; rfl) | split | dsimp only [id]

theorem execMarkReq_writes {m : Nat} (hm : 34359738400 &&& m = 34359738400) (a1 : _) (a2 : _) (s : State) : ∃ q : Prog, q.Writes m ∧ execMarkReq a1 a2 s = s.run q := by
  have c0 := @aRaise_writes m (within_mask hm rfl)
  have c1 := @aRequest_writes m (within_mask hm rfl)
  have c2 := @aResp_writes m (within_mask hm rfl)
  refine ⟨_, ?_, rfl⟩
  repeat' first
    | with_reducible first | exact writes_done | exact writes_nil | refine writes_cons ?_ ?_ | refine writes_seq ?_ ?_ | refine writes_look fun _ => ?_ | refine writes_when ?_ | refine writes_each fun _ => ?_ | refine writes_ite ?_ ?_ | exact c0 | refine c1 (fun _ => ?_) | exact c2 | refine writes_act (bit_mask hm ?_)
    | ((with_reducible show Nat.testBit _ (Eff.num _) = true); simp only [Eff.num]; rfl) | split | dsimp only [id]

theorem execMkey_writes {m : Nat} (hm : 34359738400 &&& m = 34359738400) (a1 : _) (a2 : _) (s : State) : ∃ q : Prog, q.Writes m ∧ execMkey a1 a2 s = s.run q := by
  have c0 := @aRaise_writes m (within_mask hm rfl)
  have c1 := @aRequest_writes m (within_mask hm rfl)
  have c2 := @aResp_writes m (within_mask hm rfl)
  have c3 := @modAgent_writes m (within_mask hm rfl)
  refine ⟨_, ?_, rfl⟩
  repeat' first
    | with_reducible first | exact writes_done | exact writes_nil | refine writes_cons ?_ ?_ | refine writes_seq ?_ ?_ | refine writes_look fun _ => ?_ | refine writes_when ?_ | refine writes_each fun _ => ?_ | refine writes_ite ?_ ?_ | exact c0 | refine c1 (fun _ => ?_) | exact c2 | exact c3 | refine writes_act (bit_mask hm ?_)
    | ((with_reducible show Nat.testBit _ (Eff.num _) = true); simp only [Eff.num]; rfl) | split | dsimp only [id]

theorem execOutgoingContribution_writes {m : Nat} (hm : 34359738368 &&& m = 34359738368) (a1 : _) (a2 : _) (a3 : _) (s : State) : ∃ q : Prog, q.Writes m ∧ execOutgoingContribution a1 a2 a3 s = s.run q := by
  have c0 := @hostRuns_writes m (within_mask hm rfl)
  have c1 := @send_writes m (within_mask hm rfl)
  refine ⟨_, ?_, rfl⟩
  repeat' first
    | with_reducible first | exact writes_done | exact writes_nil | refine writes_cons ?_ ?_ | refine writes_seq ?_ ?_ | refine writes_look fun _ => ?_ | refine writes_when ?_ | refine writes_each fun _ => ?_ | refine writes_ite ?_ ?_ | refine c0 ?_ | exact c1 | refine writes_act (bit_mask hm ?_)
    | ((with_reducible show Nat.testBit _ (Eff.num _) = true); simp only [Eff.num]; rfl) | split | dsimp only [id]

theorem execQagCntAdd_writes {m : Nat} (hm : 32 &&& m = 32) (a1 : _) (a2 : _) (s : State) : ∃ q : Prog, q.Writes m ∧ execQagCntAdd a1 a2 s = s.run q := by
  have c0 := @cntAdd_writes m (within_mask hm rfl)
  have c1 := @hostRuns_writes m (within_mask hm rfl)
  refine ⟨_, ?_, rfl⟩
  repeat' first
    | with_reducible first | exact writes_done | exact writes_nil | refine writes_cons ?_ ?_ | refine writes_seq ?_ ?_ | refine writes_look fun _ => ?_ | refine writes_when ?_ | refine writes_each fun _ => ?_ | refine writes_ite ?_ ?_ | exact c0 | refine c1 ?_ | refine writes_act (bit_mask hm ?_)
    | ((with_reducible show Nat.testBit _ (Eff.num _) = true); simp only [Eff.num]; rfl) | split | dsimp only [id]

theorem execQagFatal_writes {m : Nat} (hm : 34359738402 &&& m = 34359738402) (a1 : _) (a2 : _) (s : State) : ∃ q : Prog, q.Writes m ∧ execQagFatal a1 a2 s = s.run q := by
  have c0 := @fatal_writes m (within_mask hm rfl)
  have c1 := @hostRuns_writes m (within_mask hm rfl)
  refine ⟨_, ?_, rfl⟩
  repeat' first
    | with_reducible first | exact writes_done | exact writes_nil | refine writes_cons ?_ ?_ | refine writes_seq ?_ ?_ | refine writes_look fun _ => ?_ | refine writes_when ?_ | refine writes_each fun _ => ?_ | refine writes_ite ?_ ?_ | exact c0 | refine c1 ?_ | refine writes_act (bit_mask hm ?_)
    | ((with_reducible show Nat.testBit _ (Eff.num _) = true); simp only [Eff.num]; rfl) | split | dsimp only [id]

theorem execQagFenceReq_writes {m : Nat} (hm : 34359738402 &&& m = 34359738402) (a1 : _) (s : State) : ∃ q : Prog, q.Writes m ∧ execQagFenceReq a1 s = s.run q := by
  have c0 := @fenceReq_writes m (within_mask hm rfl)
  have c1 := @hostRuns_writes m (within_mask hm rfl)
  refine ⟨_, ?_, rfl⟩
  repeat' first
    | with_reducible first | exact writes_done | exact writes_nil | refine writes_cons ?_ ?_ | refine writes_seq ?_ ?_ | refine writes_look fun _ => ?_ | refine writes_when ?_ | refine writes_each fun _ => ?_ | refine writes_ite ?_ ?_ | exact c0 | refine c1 ?_ | refine writes_act (bit_mask hm ?_)
    | ((with_reducible show Nat.testBit _ (Eff.num _) = true); simp only [Eff.num]; rfl) | split | dsimp only [id]

theorem execQagKick_writes {m : Nat} (hm : 32 &&& m = 32) (a1 : _) (s : State) : ∃ q : Prog, q.Writes m ∧ execQagKick a1 s = s.run q := by
  have c0 := @hostRuns_writes m (within_mask hm rfl)
  have c1 := @modAgent_writes m (within_mask hm rfl)
  refine ⟨_, ?_, rfl⟩
  repeat' first
    | with_reducible first | exact writes_done | exact writes_nil | refine writes_cons ?_ ?_ | refine writes_seq ?_ ?_ | refine writes_look fun _ => ?_ | refine writes_when ?_ | refine writes_each fun _ => ?_ | refine writes_ite ?_ ?_ | refine c0 ?_ | exact c1 | refine writes_act (bit_mask hm ?_)
    | ((with_reducible show Nat.testBit _ (Eff.num _) = true); simp only [Eff.num]; rfl) | split | dsimp only [id]

theorem execQagQuiet_writes {m : Nat} (hm : 34359738400 &&& m = 34359738400) (a1 : _) (s : State) : ∃ q : Prog, q.Writes m ∧ execQagQuiet a1 s = s.run q := by
  have c0 := @hostRuns_writes m (within_mask hm rfl)
  have c1 := @quiet_writes m (within_mask hm rfl)
  refine ⟨_, ?_, rfl⟩
  repeat' first
    | with_reducible first | exact writes_done | exact writes_nil | refine writes_cons ?_ ?_ | refine writes_seq ?_ ?_ | refine writes_look fun _ => ?_ | refine writes_when ?_ | refine writes_each fun _ => ?_ | refine writes_ite ?_ ?_ | refine c0 ?_ | exact c1 | refine writes_act (bit_mask hm ?_)
    | ((with_reducible show Nat.testBit _ (Eff.num _) = true); simp only [Eff.num]; rfl) | split | dsimp only [id]

theorem execQagStepWrite_writes {m : Nat} (hm : 42949672994 &&& m = 42949672994) (a1 : _) (a2 : _) (s : State) : ∃ q : Prog, q.Writes m ∧ execQagStepWrite a1 a2 s = s.run q := by
  have c0 := @hostRuns_writes m (within_mask hm rfl)
  have c1 := @stepWrite_writes m (within_mask hm rfl)
  refine ⟨_, ?_, rfl⟩
  repeat' first
    | with_reducible first | exact writes_done | exact writes_nil | refine writes_cons ?_ ?_ | refine writes_seq ?_ ?_ | refine writes_look fun _ => ?_ | refine writes_when ?_ | refine writes_each fun _ => ?_ | refine writes_ite ?_ ?_ | refine c0 ?_ | exact c1 | refine writes_act (bit_mask hm ?_)
    | ((with_reducible show Nat.testBit _ (Eff.num _) = true); simp only [Eff.num]; rfl) | split | dsimp only [id]

theorem execQagWitPush_writes {m : Nat} (hm : 34359738400 &&& m = 34359738400) (a1 : _) (a2 : _) (s : State) : ∃ q : Prog, q.Writes m ∧ execQagWitPush a1 a2 s = s.run q := by
  have c0 := @hostRuns_writes m (within_mask hm rfl)
  have c1 := @witPush_writes m (within_mask hm rfl)
  refine ⟨_, ?_, rfl⟩
  repeat' first
    | with_reducible first | exact writes_done | exact writes_nil | refine writes_cons ?_ ?_ | refine writes_seq ?_ ?_ | refine writes_look fun _ => ?_ | refine writes_when ?_ | refine writes_each fun _ => ?_ | refine writes_ite ?_ ?_ | refine c0 ?_ | exact c1 | refine writes_act (bit_mask hm ?_)
    | ((with_reducible show Nat.testBit _ (Eff.num _) = true); simp only [Eff.num]; rfl) | split | dsimp only [id]

theorem execQuoinAdmit_writes {m : Nat} (hm : 34359738402 &&& m = 34359738402) (a1 : _) (a2 : _) (s : State) : ∃ q : Prog, q.Writes m ∧ execQuoinAdmit a1 a2 s = s.run q := by
  have c0 := @aResp_writes m (within_mask hm rfl)
  have c1 := @modAgent_writes m (within_mask hm rfl)
  have c2 := @placeLists_writes m (within_mask hm rfl)
  refine ⟨_, ?_, rfl⟩
  repeat' first
    | with_reducible first | exact writes_done | exact writes_nil | refine writes_cons ?_ ?_ | refine writes_seq ?_ ?_ | refine writes_look fun _ => ?_ | refine writes_when ?_ | refine writes_each fun _ => ?_ | refine writes_ite ?_ ?_ | exact c0 | exact c1 | exact c2 | refine writes_act (bit_mask hm ?_)
    | ((with_reducible show Nat.testBit _ (Eff.num _) = true); simp only [Eff.num]; rfl) | split | dsimp only [id]

theorem execQuoinRegRd_writes {m : Nat} (hm : 34359738400 &&& m = 34359738400) (a1 : _) (a2 : _) (a3 : _) (s : State) : ∃ q : Prog, q.Writes m ∧ execQuoinRegRd a1 a2 a3 s = s.run q := by
  have c0 := @aRequest_writes m (within_mask hm rfl)
  have c1 := @aResp_writes m (within_mask hm rfl)
  have c2 := @countStale_writes m (within_mask hm rfl)
  have c3 := @reservedType_writes m (within_mask hm rfl)
  refine ⟨_, ?_, rfl⟩
  repeat' first
    | with_reducible first | exact writes_done | exact writes_nil | refine writes_cons ?_ ?_ | refine writes_seq ?_ ?_ | refine writes_look fun _ => ?_ | refine writes_when ?_ | refine writes_each fun _ => ?_ | refine writes_ite ?_ ?_ | refine c0 (fun _ => ?_) | exact c1 | exact c2 | exact c3 | refine writes_act (bit_mask hm ?_)
    | ((with_reducible show Nat.testBit _ (Eff.num _) = true); simp only [Eff.num]; rfl) | split | dsimp only [id]

theorem execQuoinRegWr_writes {m : Nat} (hm : 34359738402 &&& m = 34359738402) (a1 : _) (a2 : _) (s : State) : ∃ q : Prog, q.Writes m ∧ execQuoinRegWr a1 a2 s = s.run q := by
  have c0 := @aRequest_writes m (within_mask hm rfl)
  have c1 := @aResp_writes m (within_mask hm rfl)
  have c2 := @agentWrite_writes m (within_mask hm rfl)
  refine ⟨_, ?_, rfl⟩
  repeat' first
    | with_reducible first | exact writes_done | exact writes_nil | refine writes_cons ?_ ?_ | refine writes_seq ?_ ?_ | refine writes_look fun _ => ?_ | refine writes_when ?_ | refine writes_each fun _ => ?_ | refine writes_ite ?_ ?_ | refine c0 (fun _ => ?_) | exact c1 | exact c2 | refine writes_act (bit_mask hm ?_)
    | ((with_reducible show Nat.testBit _ (Eff.num _) = true); simp only [Eff.num]; rfl) | split | dsimp only [id]

theorem execQuoinSignal_writes {m : Nat} (hm : 32 &&& m = 32) (a1 : _) (a2 : _) (s : State) : ∃ q : Prog, q.Writes m ∧ execQuoinSignal a1 a2 s = s.run q := by
  have c0 := @aNotice_writes m (within_mask hm rfl)
  have c1 := @agentAdvance_writes m (within_mask hm rfl)
  refine ⟨_, ?_, rfl⟩
  repeat' first
    | with_reducible first | exact writes_done | exact writes_nil | refine writes_cons ?_ ?_ | refine writes_seq ?_ ?_ | refine writes_look fun _ => ?_ | refine writes_when ?_ | refine writes_each fun _ => ?_ | refine writes_ite ?_ ?_ | refine c0 (fun _ => ?_) | exact c1 | refine writes_act (bit_mask hm ?_)
    | ((with_reducible show Nat.testBit _ (Eff.num _) = true); simp only [Eff.num]; rfl) | split | dsimp only [id]

theorem execRelease_writes {m : Nat} (hm : 34359738402 &&& m = 34359738402) (a1 : _) (a2 : _) (s : State) : ∃ q : Prog, q.Writes m ∧ execRelease a1 a2 s = s.run q := by
  have c0 := @aRequest_writes m (within_mask hm rfl)
  have c1 := @aResp_writes m (within_mask hm rfl)
  have c2 := @abandonCourse_writes m (within_mask hm rfl)
  have c3 := @answerDeferred_writes m (within_mask hm rfl)
  have c4 := @modAgent_writes m (within_mask hm rfl)
  refine ⟨_, ?_, rfl⟩
  repeat' first
    | with_reducible first | exact writes_done | exact writes_nil | refine writes_cons ?_ ?_ | refine writes_seq ?_ ?_ | refine writes_look fun _ => ?_ | refine writes_when ?_ | refine writes_each fun _ => ?_ | refine writes_ite ?_ ?_ | refine c0 (fun _ => ?_) | exact c1 | exact c2 | exact c3 | exact c4 | refine writes_act (bit_mask hm ?_)
    | ((with_reducible show Nat.testBit _ (Eff.num _) = true); simp only [Eff.num]; rfl) | split | dsimp only [id]

theorem execStallAbandon_writes {m : Nat} (hm : 34359738402 &&& m = 34359738402) (a1 : _) (s : State) : ∃ q : Prog, q.Writes m ∧ execStallAbandon a1 s = s.run q := by
  have c0 := @stallAbandon_writes m (within_mask hm rfl)
  refine ⟨_, ?_, rfl⟩
  repeat' first
    | with_reducible first | exact writes_done | exact writes_nil | refine writes_cons ?_ ?_ | refine writes_seq ?_ ?_ | refine writes_look fun _ => ?_ | refine writes_when ?_ | refine writes_each fun _ => ?_ | refine writes_ite ?_ ?_ | exact c0 | refine writes_act (bit_mask hm ?_)
    | ((with_reducible show Nat.testBit _ (Eff.num _) = true); simp only [Eff.num]; rfl) | split | dsimp only [id]

theorem execUnfence_writes {m : Nat} (hm : 34359738400 &&& m = 34359738400) (a1 : _) (a2 : _) (s : State) : ∃ q : Prog, q.Writes m ∧ execUnfence a1 a2 s = s.run q := by
  have c0 := @aRequest_writes m (within_mask hm rfl)
  have c1 := @aResp_writes m (within_mask hm rfl)
  have c2 := @modAgent_writes m (within_mask hm rfl)
  refine ⟨_, ?_, rfl⟩
  repeat' first
    | with_reducible first | exact writes_done | exact writes_nil | refine writes_cons ?_ ?_ | refine writes_seq ?_ ?_ | refine writes_look fun _ => ?_ | refine writes_when ?_ | refine writes_each fun _ => ?_ | refine writes_ite ?_ ?_ | refine c0 (fun _ => ?_) | exact c1 | exact c2 | refine writes_act (bit_mask hm ?_)
    | ((with_reducible show Nat.testBit _ (Eff.num _) = true); simp only [Eff.num]; rfl) | split | dsimp only [id]

theorem execWitKey_writes {m : Nat} (hm : 34359738400 &&& m = 34359738400) (a1 : _) (a2 : _) (s : State) : ∃ q : Prog, q.Writes m ∧ execWitKey a1 a2 s = s.run q := by
  have c0 := @aRequest_writes m (within_mask hm rfl)
  have c1 := @aResp_writes m (within_mask hm rfl)
  have c2 := @modAgent_writes m (within_mask hm rfl)
  refine ⟨_, ?_, rfl⟩
  repeat' first
    | with_reducible first | exact writes_done | exact writes_nil | refine writes_cons ?_ ?_ | refine writes_seq ?_ ?_ | refine writes_look fun _ => ?_ | refine writes_when ?_ | refine writes_each fun _ => ?_ | refine writes_ite ?_ ?_ | refine c0 (fun _ => ?_) | exact c1 | exact c2 | refine writes_act (bit_mask hm ?_)
    | ((with_reducible show Nat.testBit _ (Eff.num _) = true); simp only [Eff.num]; rfl) | split | dsimp only [id]

theorem execCourseDecide_writes {m : Nat} (hm : 34601238183 &&& m = 34601238183) (a1 : _) (s : State) : ∃ q : Prog, q.Writes m ∧ execCourseDecide a1 s = s.run q := by
  have c0 := @abandonHere_writes m (within_mask hm rfl)
  have c1 := @commitHere_writes m (within_mask hm rfl)
  have c2 := @forwardDown_writes m (within_mask hm rfl)
  have c3 := @onNoticeOk_writes m (within_mask hm rfl)
  have c4 := @openFresh_writes m (within_mask hm rfl)
  refine ⟨_, ?_, rfl⟩
  repeat' first
    | with_reducible first | exact writes_done | exact writes_nil | refine writes_cons ?_ ?_ | refine writes_seq ?_ ?_ | refine writes_look fun _ => ?_ | refine writes_when ?_ | refine writes_each fun _ => ?_ | refine writes_ite ?_ ?_ | exact c0 | exact c1 | exact c2 | refine c3 ?_ | exact c4 | refine writes_act (bit_mask hm ?_)
    | ((with_reducible show Nat.testBit _ (Eff.num _) = true); simp only [Eff.num]; rfl) | split | dsimp only [id]

theorem execCourseOpen_writes {m : Nat} (hm : 34601238183 &&& m = 34601238183) (a1 : _) (s : State) : ∃ q : Prog, q.Writes m ∧ execCourseOpen a1 s = s.run q := by
  have c0 := @forwardDown_writes m (within_mask hm rfl)
  have c1 := @onNoticeOk_writes m (within_mask hm rfl)
  have c2 := @openFresh_writes m (within_mask hm rfl)
  refine ⟨_, ?_, rfl⟩
  repeat' first
    | with_reducible first | exact writes_done | exact writes_nil | refine writes_cons ?_ ?_ | refine writes_seq ?_ ?_ | refine writes_look fun _ => ?_ | refine writes_when ?_ | refine writes_each fun _ => ?_ | refine writes_ite ?_ ?_ | exact c0 | refine c1 ?_ | exact c2 | refine writes_act (bit_mask hm ?_)
    | ((with_reducible show Nat.testBit _ (Eff.num _) = true); simp only [Eff.num]; rfl) | split | dsimp only [id]

theorem execCourseQuery_writes {m : Nat} (hm : 34393317121 &&& m = 34393317121) (a1 : _) (s : State) : ∃ q : Prog, q.Writes m ∧ execCourseQuery a1 s = s.run q := by
  have c0 := @endHold_writes m (within_mask hm rfl)
  have c1 := @noticesAgain_writes m (within_mask hm rfl)
  have c2 := @onNotice_writes m (within_mask hm rfl)
  have c3 := @pAnswer_writes m (within_mask hm rfl)
  refine ⟨_, ?_, rfl⟩
  repeat' first
    | with_reducible first | exact writes_done | exact writes_nil | refine writes_cons ?_ ?_ | refine writes_seq ?_ ?_ | refine writes_look fun _ => ?_ | refine writes_when ?_ | refine writes_each fun _ => ?_ | refine writes_ite ?_ ?_ | exact c0 | exact c1 | refine c2 ?_ | exact c3 | refine writes_act (bit_mask hm ?_)
    | ((with_reducible show Nat.testBit _ (Eff.num _) = true); simp only [Eff.num]; rfl) | split | dsimp only [id]

theorem execCrsCtrlAbandon_writes {m : Nat} (hm : 43050655399 &&& m = 43050655399) (a1 : _) (s : State) : ∃ q : Prog, q.Writes m ∧ execCrsCtrlAbandon a1 s = s.run q := by
  have c0 := @writeCrsCtrl_writes m (within_mask hm rfl)
  refine ⟨_, ?_, rfl⟩
  repeat' first
    | with_reducible first | exact writes_done | exact writes_nil | refine writes_cons ?_ ?_ | refine writes_seq ?_ ?_ | refine writes_look fun _ => ?_ | refine writes_when ?_ | refine writes_each fun _ => ?_ | refine writes_ite ?_ ?_ | exact c0 | refine writes_act (bit_mask hm ?_)
    | ((with_reducible show Nat.testBit _ (Eff.num _) = true); simp only [Eff.num]; rfl) | split | dsimp only [id]

theorem execCrsCtrlEnClear_writes {m : Nat} (hm : 43050655399 &&& m = 43050655399) (a1 : _) (s : State) : ∃ q : Prog, q.Writes m ∧ execCrsCtrlEnClear a1 s = s.run q := by
  have c0 := @writeCrsCtrl_writes m (within_mask hm rfl)
  refine ⟨_, ?_, rfl⟩
  repeat' first
    | with_reducible first | exact writes_done | exact writes_nil | refine writes_cons ?_ ?_ | refine writes_seq ?_ ?_ | refine writes_look fun _ => ?_ | refine writes_when ?_ | refine writes_each fun _ => ?_ | refine writes_ite ?_ ?_ | exact c0 | refine writes_act (bit_mask hm ?_)
    | ((with_reducible show Nat.testBit _ (Eff.num _) = true); simp only [Eff.num]; rfl) | split | dsimp only [id]

theorem execCrsCtrlOpen_writes {m : Nat} (hm : 43050655399 &&& m = 43050655399) (a1 : _) (s : State) : ∃ q : Prog, q.Writes m ∧ execCrsCtrlOpen a1 s = s.run q := by
  have c0 := @writeCrsCtrl_writes m (within_mask hm rfl)
  refine ⟨_, ?_, rfl⟩
  repeat' first
    | with_reducible first | exact writes_done | exact writes_nil | refine writes_cons ?_ ?_ | refine writes_seq ?_ ?_ | refine writes_look fun _ => ?_ | refine writes_when ?_ | refine writes_each fun _ => ?_ | refine writes_ite ?_ ?_ | exact c0 | refine writes_act (bit_mask hm ?_)
    | ((with_reducible show Nat.testBit _ (Eff.num _) = true); simp only [Eff.num]; rfl) | split | dsimp only [id]

theorem execDecideWindowEnd_writes {m : Nat} (hm : 34464620417 &&& m = 34464620417) (s : State) : ∃ q : Prog, q.Writes m ∧ execDecideWindowEnd s = s.run q := by
  have c0 := @decideCourse_writes m (within_mask hm rfl)
  refine ⟨_, ?_, rfl⟩
  repeat' first
    | with_reducible first | exact writes_done | exact writes_nil | refine writes_cons ?_ ?_ | refine writes_seq ?_ ?_ | refine writes_look fun _ => ?_ | refine writes_when ?_ | refine writes_each fun _ => ?_ | refine writes_ite ?_ ?_ | exact c0 | refine writes_act (bit_mask hm ?_)
    | ((with_reducible show Nat.testBit _ (Eff.num _) = true); simp only [Eff.num]; rfl) | split | dsimp only [id]

theorem execDecisionAck_writes {m : Nat} (hm : 34464620289 &&& m = 34464620289) (a1 : _) (s : State) : ∃ q : Prog, q.Writes m ∧ execDecisionAck a1 s = s.run q := by
  have c0 := @announce_writes m (within_mask hm rfl)
  have c1 := @onPairOk_writes m (within_mask hm rfl)
  refine ⟨_, ?_, rfl⟩
  repeat' first
    | with_reducible first | exact writes_done | exact writes_nil | refine writes_cons ?_ ?_ | refine writes_seq ?_ ?_ | refine writes_look fun _ => ?_ | refine writes_when ?_ | refine writes_each fun _ => ?_ | refine writes_ite ?_ ?_ | exact c0 | refine c1 ?_ | refine writes_act (bit_mask hm ?_)
    | ((with_reducible show Nat.testBit _ (Eff.num _) = true); simp only [Eff.num]; rfl) | split | dsimp only [id]

theorem execDecisionRec_writes {m : Nat} (hm : 34900823553 &&& m = 34900823553) (a1 : _) (s : State) : ∃ q : Prog, q.Writes m ∧ execDecisionRec a1 s = s.run q := by
  have c0 := @modHold_writes m (within_mask hm rfl)
  have c1 := @notify_writes m (within_mask hm rfl)
  have c2 := @onPairOk_writes m (within_mask hm rfl)
  refine ⟨_, ?_, rfl⟩
  repeat' first
    | with_reducible first | exact writes_done | exact writes_nil | refine writes_cons ?_ ?_ | refine writes_seq ?_ ?_ | refine writes_look fun _ => ?_ | refine writes_when ?_ | refine writes_each fun _ => ?_ | refine writes_ite ?_ ?_ | exact c0 | exact c1 | refine c2 ?_ | refine writes_act (bit_mask hm ?_)
    | ((with_reducible show Nat.testBit _ (Eff.num _) = true); simp only [Eff.num]; rfl) | split | dsimp only [id]

theorem execDirtyReqRepeat_writes {m : Nat} (hm : 34363983360 &&& m = 34363983360) (a1 : _) (s : State) : ∃ q : Prog, q.Writes m ∧ execDirtyReqRepeat a1 s = s.run q := by
  have c0 := @oReq_writes m (within_mask hm rfl)
  refine ⟨_, ?_, rfl⟩
  repeat' first
    | with_reducible first | exact writes_done | exact writes_nil | refine writes_cons ?_ ?_ | refine writes_seq ?_ ?_ | refine writes_look fun _ => ?_ | refine writes_when ?_ | refine writes_each fun _ => ?_ | refine writes_ite ?_ ?_ | exact c0 | refine writes_act (bit_mask hm ?_)
    | ((with_reducible show Nat.testBit _ (Eff.num _) = true); simp only [Eff.num]; rfl) | split | dsimp only [id]

theorem execDrainComplete_writes {m : Nat} (hm : 51782811327 &&& m = 51782811327) (s : State) : ∃ q : Prog, q.Writes m ∧ execDrainComplete s = s.run q := by
  have c0 := @keeperCheck_writes m (within_mask hm rfl)
  have c1 := @localDone_writes m (within_mask hm rfl)
  have c2 := @sealCourse_writes m (within_mask hm rfl)
  refine ⟨_, ?_, rfl⟩
  repeat' first
    | with_reducible first | exact writes_done | exact writes_nil | refine writes_cons ?_ ?_ | refine writes_seq ?_ ?_ | refine writes_look fun _ => ?_ | refine writes_when ?_ | refine writes_each fun _ => ?_ | refine writes_ite ?_ ?_ | exact c0 | exact c1 | exact c2 | refine writes_act (bit_mask hm ?_)
    | ((with_reducible show Nat.testBit _ (Eff.num _) = true); simp only [Eff.num]; rfl) | split | dsimp only [id]

theorem execDrainProgressTimeout_writes {m : Nat} (hm : 34464915111 &&& m = 34464915111) (a1 : _) (s : State) : ∃ q : Prog, q.Writes m ∧ execDrainProgressTimeout a1 s = s.run q := by
  have c0 := @abandonHere_writes m (within_mask hm rfl)
  refine ⟨_, ?_, rfl⟩
  repeat' first
    | with_reducible first | exact writes_done | exact writes_nil | refine writes_cons ?_ ?_ | refine writes_seq ?_ ?_ | refine writes_look fun _ => ?_ | refine writes_when ?_ | refine writes_each fun _ => ?_ | refine writes_ite ?_ ?_ | exact c0 | refine writes_act (bit_mask hm ?_)
    | ((with_reducible show Nat.testBit _ (Eff.num _) = true); simp only [Eff.num]; rfl) | split | dsimp only [id]

theorem execDrainReqTimeout_writes {m : Nat} (hm : 34397537792 &&& m = 34397537792) (a1 : _) (a2 : _) (s : State) : ∃ q : Prog, q.Writes m ∧ execDrainReqTimeout a1 a2 s = s.run q := by
  have c0 := @dropGranules_writes m (within_mask hm rfl)
  have c1 := @modSlot_writes m (within_mask hm rfl)
  have c2 := @oReq_writes m (within_mask hm rfl)
  refine ⟨_, ?_, rfl⟩
  repeat' first
    | with_reducible first | exact writes_done | exact writes_nil | refine writes_cons ?_ ?_ | refine writes_seq ?_ ?_ | refine writes_look fun _ => ?_ | refine writes_when ?_ | refine writes_each fun _ => ?_ | refine writes_ite ?_ ?_ | exact c0 | exact c1 | exact c2 | refine writes_act (bit_mask hm ?_)
    | ((with_reducible show Nat.testBit _ (Eff.num _) = true); simp only [Eff.num]; rfl) | split | dsimp only [id]

theorem execEarlyReq_writes {m : Nat} (hm : 34397511425 &&& m = 34397511425) (a1 : _) (s : State) : ∃ q : Prog, q.Writes m ∧ execEarlyReq a1 s = s.run q := by
  have c0 := @onNoticeOk_writes m (within_mask hm rfl)
  have c1 := @wantEarly_writes m (within_mask hm rfl)
  refine ⟨_, ?_, rfl⟩
  repeat' first
    | with_reducible first | exact writes_done | exact writes_nil | refine writes_cons ?_ ?_ | refine writes_seq ?_ ?_ | refine writes_look fun _ => ?_ | refine writes_when ?_ | refine writes_each fun _ => ?_ | refine writes_ite ?_ ?_ | refine c0 ?_ | exact c1 | refine writes_act (bit_mask hm ?_)
    | ((with_reducible show Nat.testBit _ (Eff.num _) = true); simp only [Eff.num]; rfl) | split | dsimp only [id]

theorem execGroupDigest_writes {m : Nat} (hm : 51781762751 &&& m = 51781762751) (a1 : _) (s : State) : ∃ q : Prog, q.Writes m ∧ execGroupDigest a1 s = s.run q := by
  have c0 := @keeperCheck_writes m (within_mask hm rfl)
  have c1 := @modCourse_writes m (within_mask hm rfl)
  have c2 := @onNoticeOk_writes m (within_mask hm rfl)
  have c3 := @tryVote_writes m (within_mask hm rfl)
  refine ⟨_, ?_, rfl⟩
  repeat' first
    | with_reducible first | exact writes_done | exact writes_nil | refine writes_cons ?_ ?_ | refine writes_seq ?_ ?_ | refine writes_look fun _ => ?_ | refine writes_when ?_ | refine writes_each fun _ => ?_ | refine writes_ite ?_ ?_ | exact c0 | exact c1 | refine c2 ?_ | exact c3 | refine writes_act (bit_mask hm ?_)
    | ((with_reducible show Nat.testBit _ (Eff.num _) = true); simp only [Eff.num]; rfl) | split | dsimp only [id]

end Sys2Proof.Machine
end

