-- ==== Sys2Proof/Laws/Writes14.lean ====
section
/-! SUPPORT. What each meaning writes (part 2): it takes a next state, by a program whose effects are of these areas. -/

set_option maxRecDepth 16000

namespace Sys2Proof.Machine

theorem execLostReport_writes {m : Nat} (hm : 34733055873 &&& m = 34733055873) (a1 : _) (s : State) : ∃ q : Prog, q.Writes m ∧ execLostReport a1 s = s.run q := by
  have c0 := @missVote_writes m (within_mask hm rfl)
  have c1 := @modCourse_writes m (within_mask hm rfl)
  have c2 := @modStart_writes m (within_mask hm rfl)
  have c3 := @onNoticeOk_writes m (within_mask hm rfl)
  have c4 := @superseding_writes m (within_mask hm rfl)
  refine ⟨_, ?_, rfl⟩
  repeat' first
    | with_reducible first | exact writes_done | exact writes_nil | refine writes_cons ?_ ?_ | refine writes_seq ?_ ?_ | refine writes_look fun _ => ?_ | refine writes_when ?_ | refine writes_each fun _ => ?_ | refine writes_ite ?_ ?_ | exact c0 | exact c1 | exact c2 | refine c3 ?_ | exact c4 | refine writes_act (bit_mask hm ?_)
    | ((with_reducible show Nat.testBit _ (Eff.num _) = true); simp only [Eff.num]; rfl) | split | dsimp only [id]

theorem execRootSilentTimeout_writes {m : Nat} (hm : 34464915111 &&& m = 34464915111) (s : State) : ∃ q : Prog, q.Writes m ∧ execRootSilentTimeout s = s.run q := by
  have c0 := @abandonHere_writes m (within_mask hm rfl)
  have c1 := @notify_writes m (within_mask hm rfl)
  refine ⟨_, ?_, rfl⟩
  repeat' first
    | with_reducible first | exact writes_done | exact writes_nil | refine writes_cons ?_ ?_ | refine writes_seq ?_ ?_ | refine writes_look fun _ => ?_ | refine writes_when ?_ | refine writes_each fun _ => ?_ | refine writes_ite ?_ ?_ | exact c0 | exact c1 | refine writes_act (bit_mask hm ?_)
    | ((with_reducible show Nat.testBit _ (Eff.num _) = true); simp only [Eff.num]; rfl) | split | dsimp only [id]

theorem execShoreNotice_writes {m : Nat} (hm : 34481397633 &&& m = 34481397633) (a1 : _) (s : State) : ∃ q : Prog, q.Writes m ∧ execShoreNotice a1 s = s.run q := by
  have c0 := @onNotice_writes m (within_mask hm rfl)
  have c1 := @pAnswer_writes m (within_mask hm rfl)
  have c2 := @rootNotice_writes m (within_mask hm rfl)
  have c3 := @takeCover_writes m (within_mask hm rfl)
  have c4 := @takeShrCfg_writes m (within_mask hm rfl)
  refine ⟨_, ?_, rfl⟩
  repeat' first
    | with_reducible first | exact writes_done | exact writes_nil | refine writes_cons ?_ ?_ | refine writes_seq ?_ ?_ | refine writes_look fun _ => ?_ | refine writes_when ?_ | refine writes_each fun _ => ?_ | refine writes_ite ?_ ?_ | refine c0 ?_ | exact c1 | exact c2 | exact c3 | exact c4 | refine writes_act (bit_mask hm ?_)
    | ((with_reducible show Nat.testBit _ (Eff.num _) = true); simp only [Eff.num]; rfl) | split | dsimp only [id]

theorem execVote_writes {m : Nat} (hm : 34464620417 &&& m = 34464620417) (a1 : _) (s : State) : ∃ q : Prog, q.Writes m ∧ execVote a1 s = s.run q := by
  have c0 := @acceptVote_writes m (within_mask hm rfl)
  have c1 := @onNoticeOk_writes m (within_mask hm rfl)
  refine ⟨_, ?_, rfl⟩
  repeat' first
    | with_reducible first | exact writes_done | exact writes_nil | refine writes_cons ?_ ?_ | refine writes_seq ?_ ?_ | refine writes_look fun _ => ?_ | refine writes_when ?_ | refine writes_each fun _ => ?_ | refine writes_ite ?_ ?_ | exact c0 | refine c1 ?_ | refine writes_act (bit_mask hm ?_)
    | ((with_reducible show Nat.testBit _ (Eff.num _) = true); simp only [Eff.num]; rfl) | split | dsimp only [id]

theorem execXcnCtrlGo_writes {m : Nat} (hm : 60130066433 &&& m = 60130066433) (a1 : _) (s : State) : ∃ q : Prog, q.Writes m ∧ execXcnCtrlGo a1 s = s.run q := by
  have c0 := @writeXcnCtrl_writes m (within_mask hm rfl)
  refine ⟨_, ?_, rfl⟩
  repeat' first
    | with_reducible first | exact writes_done | exact writes_nil | refine writes_cons ?_ ?_ | refine writes_seq ?_ ?_ | refine writes_look fun _ => ?_ | refine writes_when ?_ | refine writes_each fun _ => ?_ | refine writes_ite ?_ ?_ | exact c0 | refine writes_act (bit_mask hm ?_)
    | ((with_reducible show Nat.testBit _ (Eff.num _) = true); simp only [Eff.num]; rfl) | split | dsimp only [id]

theorem execXcnDetourGo_writes {m : Nat} (hm : 60130066433 &&& m = 60130066433) (a1 : _) (s : State) : ∃ q : Prog, q.Writes m ∧ execXcnDetourGo a1 s = s.run q := by
  have c0 := @writeXcnDetour_writes m (within_mask hm rfl)
  refine ⟨_, ?_, rfl⟩
  repeat' first
    | with_reducible first | exact writes_done | exact writes_nil | refine writes_cons ?_ ?_ | refine writes_seq ?_ ?_ | refine writes_look fun _ => ?_ | refine writes_when ?_ | refine writes_each fun _ => ?_ | refine writes_ite ?_ ?_ | exact c0 | refine writes_act (bit_mask hm ?_)
    | ((with_reducible show Nat.testBit _ (Eff.num _) = true); simp only [Eff.num]; rfl) | split | dsimp only [id]

theorem execXcnMoveTimeout_writes {m : Nat} (hm : 51782811311 &&& m = 51782811311) (s : State) : ∃ q : Prog, q.Writes m ∧ execXcnMoveTimeout s = s.run q := by
  have c0 := @xcnError_writes m (within_mask hm rfl)
  refine ⟨_, ?_, rfl⟩
  repeat' first
    | with_reducible first | exact writes_done | exact writes_nil | refine writes_cons ?_ ?_ | refine writes_seq ?_ ?_ | refine writes_look fun _ => ?_ | refine writes_when ?_ | refine writes_each fun _ => ?_ | refine writes_ite ?_ ?_ | exact c0 | refine writes_act (bit_mask hm ?_)
    | ((with_reducible show Nat.testBit _ (Eff.num _) = true); simp only [Eff.num]; rfl) | split | dsimp only [id]

theorem execXcnPgoodFall_writes {m : Nat} (hm : 51782811311 &&& m = 51782811311) (s : State) : ∃ q : Prog, q.Writes m ∧ execXcnPgoodFall s = s.run q := by
  have c0 := @positionLost_writes m (within_mask hm rfl)
  have c1 := @put_writes m (within_mask hm rfl)
  have c2 := @setPort_writes m (within_mask hm rfl)
  have c3 := @xcnError_writes m (within_mask hm rfl)
  refine ⟨_, ?_, rfl⟩
  repeat' first
    | with_reducible first | exact writes_done | exact writes_nil | refine writes_cons ?_ ?_ | refine writes_seq ?_ ?_ | refine writes_look fun _ => ?_ | refine writes_when ?_ | refine writes_each fun _ => ?_ | refine writes_ite ?_ ?_ | exact c0 | exact c1 | exact c2 | exact c3 | refine writes_act (bit_mask hm ?_)
    | ((with_reducible show Nat.testBit _ (Eff.num _) = true); simp only [Eff.num]; rfl) | split | dsimp only [id]

theorem execXcnPgoodRise_writes {m : Nat} (hm : 34359738369 &&& m = 34359738369) (a1 : _) (a2 : _) (s : State) : ∃ q : Prog, q.Writes m ∧ execXcnPgoodRise a1 a2 s = s.run q := by
  have c0 := @put_writes m (within_mask hm rfl)
  have c1 := @spiFrame_writes m (within_mask hm rfl)
  have c2 := @spiFrames_writes m (within_mask hm rfl)
  have c3 := @takeMapByte_writes m (within_mask hm rfl)
  refine ⟨_, ?_, rfl⟩
  repeat' first
    | with_reducible first | exact writes_done | exact writes_nil | refine writes_cons ?_ ?_ | refine writes_seq ?_ ?_ | refine writes_look fun _ => ?_ | refine writes_when ?_ | refine writes_each fun _ => ?_ | refine writes_ite ?_ ?_ | exact c0 | exact c1 | exact c2 | exact c3 | refine writes_act (bit_mask hm ?_)
    | ((with_reducible show Nat.testBit _ (Eff.num _) = true); simp only [Eff.num]; rfl) | split | dsimp only [id]

theorem execXcnPwrEnWrite_writes {m : Nat} (hm : 60130066433 &&& m = 60130066433) (a1 : _) (s : State) : ∃ q : Prog, q.Writes m ∧ execXcnPwrEnWrite a1 s = s.run q := by
  have c0 := @writeXcnCtrl_writes m (within_mask hm rfl)
  refine ⟨_, ?_, rfl⟩
  repeat' first
    | with_reducible first | exact writes_done | exact writes_nil | refine writes_cons ?_ ?_ | refine writes_seq ?_ ?_ | refine writes_look fun _ => ?_ | refine writes_when ?_ | refine writes_each fun _ => ?_ | refine writes_ite ?_ ?_ | exact c0 | refine writes_act (bit_mask hm ?_)
    | ((with_reducible show Nat.testBit _ (Eff.num _) = true); simp only [Eff.num]; rfl) | split | dsimp only [id]

theorem execXcnQueuedStart_writes {m : Nat} (hm : 51540131841 &&& m = 51540131841) (s : State) : ∃ q : Prog, q.Writes m ∧ execXcnQueuedStart s = s.run q := by
  have c0 := @clearGo_writes m (within_mask hm rfl)
  have c1 := @modXcn_writes m (within_mask hm rfl)
  have c2 := @xcnBegin_writes m (within_mask hm rfl)
  have c3 := @xcnRefused_writes m (within_mask hm rfl)
  refine ⟨_, ?_, rfl⟩
  repeat' first
    | with_reducible first | exact writes_done | exact writes_nil | refine writes_cons ?_ ?_ | refine writes_seq ?_ ?_ | refine writes_look fun _ => ?_ | refine writes_when ?_ | refine writes_each fun _ => ?_ | refine writes_ite ?_ ?_ | exact c0 | exact c1 | exact c2 | exact c3 | refine writes_act (bit_mask hm ?_)
    | ((with_reducible show Nat.testBit _ (Eff.num _) = true); simp only [Eff.num]; rfl) | split | dsimp only [id]

theorem execXcnStatusFall_writes {m : Nat} (hm : 51782811311 &&& m = 51782811311) (a1 : _) (a2 : _) (s : State) : ∃ q : Prog, q.Writes m ∧ execXcnStatusFall a1 a2 s = s.run q := by
  have c0 := @clearGo_writes m (within_mask hm rfl)
  have c1 := @modXcn_writes m (within_mask hm rfl)
  have c2 := @put_writes m (within_mask hm rfl)
  have c3 := @spiFrames_writes m (within_mask hm rfl)
  have c4 := @takeMapByte_writes m (within_mask hm rfl)
  have c5 := @xcnDone_writes m (within_mask hm rfl)
  have c6 := @xcnError_writes m (within_mask hm rfl)
  refine ⟨_, ?_, rfl⟩
  repeat' first
    | with_reducible first | exact writes_done | exact writes_nil | refine writes_cons ?_ ?_ | refine writes_seq ?_ ?_ | refine writes_look fun _ => ?_ | refine writes_when ?_ | refine writes_each fun _ => ?_ | refine writes_ite ?_ ?_ | exact c0 | exact c1 | exact c2 | exact c3 | exact c4 | exact c5 | exact c6 | refine writes_act (bit_mask hm ?_)
    | ((with_reducible show Nat.testBit _ (Eff.num _) = true); simp only [Eff.num]; rfl) | split | dsimp only [id]

theorem execAbandon_writes {m : Nat} (hm : 34464915111 &&& m = 34464915111) (a1 : _) (a2 : _) (s : State) : ∃ q : Prog, q.Writes m ∧ execAbandon a1 a2 s = s.run q := by
  have c0 := @abandonHere_writes m (within_mask hm rfl)
  have c1 := @fromAgent_writes m (within_mask hm rfl)
  have c2 := @rearm_writes m (within_mask hm rfl)
  refine ⟨_, ?_, rfl⟩
  repeat' first
    | with_reducible first | exact writes_done | exact writes_nil | refine writes_cons ?_ ?_ | refine writes_seq ?_ ?_ | refine writes_look fun _ => ?_ | refine writes_when ?_ | refine writes_each fun _ => ?_ | refine writes_ite ?_ ?_ | exact c0 | refine c1 ?_ | exact c2 | refine writes_act (bit_mask hm ?_)
    | ((with_reducible show Nat.testBit _ (Eff.num _) = true); simp only [Eff.num]; rfl) | split | dsimp only [id]

theorem execContext_writes {m : Nat} (hm : 34397537793 &&& m = 34397537793) (a1 : _) (a2 : _) (s : State) : ∃ q : Prog, q.Writes m ∧ execContext a1 a2 s = s.run q := by
  have c0 := @fromAgent_writes m (within_mask hm rfl)
  have c1 := @modCourse_writes m (within_mask hm rfl)
  have c2 := @oResp_writes m (within_mask hm rfl)
  refine ⟨_, ?_, rfl⟩
  repeat' first
    | with_reducible first | exact writes_done | exact writes_nil | refine writes_cons ?_ ?_ | refine writes_seq ?_ ?_ | refine writes_look fun _ => ?_ | refine writes_when ?_ | refine writes_each fun _ => ?_ | refine writes_ite ?_ ?_ | refine c0 ?_ | exact c1 | exact c2 | refine writes_act (bit_mask hm ?_)
    | ((with_reducible show Nat.testBit _ (Eff.num _) = true); simp only [Eff.num]; rfl) | split | dsimp only [id]

theorem execCourseDone_writes {m : Nat} (hm : 34397537793 &&& m = 34397537793) (a1 : _) (a2 : _) (s : State) : ∃ q : Prog, q.Writes m ∧ execCourseDone a1 a2 s = s.run q := by
  have c0 := @fromAgent_writes m (within_mask hm rfl)
  have c1 := @put_writes m (within_mask hm rfl)
  have c2 := @rearm_writes m (within_mask hm rfl)
  refine ⟨_, ?_, rfl⟩
  repeat' first
    | with_reducible first | exact writes_done | exact writes_nil | refine writes_cons ?_ ?_ | refine writes_seq ?_ ?_ | refine writes_look fun _ => ?_ | refine writes_when ?_ | refine writes_each fun _ => ?_ | refine writes_ite ?_ ?_ | refine c0 ?_ | exact c1 | exact c2 | refine writes_act (bit_mask hm ?_)
    | ((with_reducible show Nat.testBit _ (Eff.num _) = true); simp only [Eff.num]; rfl) | split | dsimp only [id]

theorem execCutReceived_writes {m : Nat} (hm : 34534127399 &&& m = 34534127399) (a1 : _) (a2 : _) (s : State) : ∃ q : Prog, q.Writes m ∧ execCutReceived a1 a2 s = s.run q := by
  have c0 := @checkCuts_writes m (within_mask hm rfl)
  have c1 := @fromAgent_writes m (within_mask hm rfl)
  have c2 := @learnStep_writes m (within_mask hm rfl)
  have c3 := @modCourse_writes m (within_mask hm rfl)
  have c4 := @oReq_writes m (within_mask hm rfl)
  have c5 := @put_writes m (within_mask hm rfl)
  have c6 := @startVoteClock_writes m (within_mask hm rfl)
  refine ⟨_, ?_, rfl⟩
  repeat' first
    | with_reducible first | exact writes_done | exact writes_nil | refine writes_cons ?_ ?_ | refine writes_seq ?_ ?_ | refine writes_look fun _ => ?_ | refine writes_when ?_ | refine writes_each fun _ => ?_ | refine writes_ite ?_ ?_ | exact c0 | refine c1 ?_ | exact c2 | exact c3 | exact c4 | exact c5 | exact c6 | refine writes_act (bit_mask hm ?_)
    | ((with_reducible show Nat.testBit _ (Eff.num _) = true); simp only [Eff.num]; rfl) | split | dsimp only [id]

theorem execDirtyMap_writes {m : Nat} (hm : 34601238055 &&& m = 34601238055) (a1 : _) (a2 : _) (s : State) : ∃ q : Prog, q.Writes m ∧ execDirtyMap a1 a2 s = s.run q := by
  have c0 := @fromAgent_writes m (within_mask hm rfl)
  have c1 := @modCourse_writes m (within_mask hm rfl)
  have c2 := @reloadSlot_writes m (within_mask hm rfl)
  have c3 := @takeMap_writes m (within_mask hm rfl)
  refine ⟨_, ?_, rfl⟩
  repeat' first
    | with_reducible first | exact writes_done | exact writes_nil | refine writes_cons ?_ ?_ | refine writes_seq ?_ ?_ | refine writes_look fun _ => ?_ | refine writes_when ?_ | refine writes_each fun _ => ?_ | refine writes_ite ?_ ?_ | refine c0 ?_ | exact c1 | exact c2 | exact c3 | refine writes_act (bit_mask hm ?_)
    | ((with_reducible show Nat.testBit _ (Eff.num _) = true); simp only [Eff.num]; rfl) | split | dsimp only [id]

theorem execDrainData_writes {m : Nat} (hm : 51781762751 &&& m = 51781762751) (a1 : _) (a2 : _) (s : State) : ∃ q : Prog, q.Writes m ∧ execDrainData a1 a2 s = s.run q := by
  have c0 := @abandonHere_writes m (within_mask hm rfl)
  have c1 := @fromAgent_writes m (within_mask hm rfl)
  have c2 := @modCourse_writes m (within_mask hm rfl)
  have c3 := @oReq_writes m (within_mask hm rfl)
  have c4 := @placeShard_writes m (within_mask hm rfl)
  have c5 := @slotEvent_writes m (within_mask hm rfl)
  have c6 := @stageBlock_writes m (within_mask hm rfl)
  have c7 := @tallyClass_writes m (within_mask hm rfl)
  have c8 := @tallySlot_writes m (within_mask hm rfl)
  refine ⟨_, ?_, rfl⟩
  repeat' first
    | with_reducible first | exact writes_done | exact writes_nil | refine writes_cons ?_ ?_ | refine writes_seq ?_ ?_ | refine writes_look fun _ => ?_ | refine writes_when ?_ | refine writes_each fun _ => ?_ | refine writes_ite ?_ ?_ | exact c0 | refine c1 ?_ | exact c2 | exact c3 | refine c4 ?_ | exact c5 | exact c6 | exact c7 | exact c8 | refine writes_act (bit_mask hm ?_)
    | ((with_reducible show Nat.testBit _ (Eff.num _) = true); simp only [Eff.num]; rfl) | split | dsimp only [id]

theorem execDump_writes {m : Nat} (hm : 52721286847 &&& m = 52721286847) (a1 : _) (a2 : _) (s : State) : ∃ q : Prog, q.Writes m ∧ execDump a1 a2 s = s.run q := by
  have c0 := @fromAgent_writes m (within_mask hm rfl)
  have c1 := @selfFenced_writes m (within_mask hm rfl)
  have c2 := @send_writes m (within_mask hm rfl)
  have c3 := @writePhys_writes m (within_mask hm rfl)
  refine ⟨_, ?_, rfl⟩
  repeat' first
    | with_reducible first | exact writes_done | exact writes_nil | refine writes_cons ?_ ?_ | refine writes_seq ?_ ?_ | refine writes_look fun _ => ?_ | refine writes_when ?_ | refine writes_each fun _ => ?_ | refine writes_ite ?_ ?_ | refine c0 ?_ | exact c1 | exact c2 | exact c3 | refine writes_act (bit_mask hm ?_)
    | ((with_reducible show Nat.testBit _ (Eff.num _) = true); simp only [Eff.num]; rfl) | split | dsimp only [id]

theorem execFatal_writes {m : Nat} (hm : 51782811327 &&& m = 51782811327) (a1 : _) (a2 : _) (s : State) : ∃ q : Prog, q.Writes m ∧ execFatal a1 a2 s = s.run q := by
  have c0 := @declare__writes m (within_mask hm rfl)
  have c1 := @fromAgent_writes m (within_mask hm rfl)
  have c2 := @handbackFails_writes m (within_mask hm rfl)
  have c3 := @intEvent_writes m (within_mask hm rfl)
  have c4 := @modObs_writes m (within_mask hm rfl)
  have c5 := @modShore_writes m (within_mask hm rfl)
  refine ⟨_, ?_, rfl⟩
  repeat' first
    | with_reducible first | exact writes_done | exact writes_nil | refine writes_cons ?_ ?_ | refine writes_seq ?_ ?_ | refine writes_look fun _ => ?_ | refine writes_when ?_ | refine writes_each fun _ => ?_ | refine writes_ite ?_ ?_ | exact c0 | refine c1 ?_ | exact c2 | exact c3 | exact c4 | exact c5 | refine writes_act (bit_mask hm ?_)
    | ((with_reducible show Nat.testBit _ (Eff.num _) = true); simp only [Eff.num]; rfl) | split | dsimp only [id]

theorem execFenceDone_writes {m : Nat} (hm : 52999159487 &&& m = 52999159487) (a1 : _) (a2 : _) (s : State) : ∃ q : Prog, q.Writes m ∧ execFenceDone a1 a2 s = s.run q := by
  have c0 := @declareNow_writes m (within_mask hm rfl)
  have c1 := @fenceEnds_writes m (within_mask hm rfl)
  have c2 := @fromAgentIn_writes m (within_mask hm rfl)
  have c3 := @modShore_writes m (within_mask hm rfl)
  have c4 := @rewindFenced_writes m (within_mask hm rfl)
  have c5 := @selfFenced_writes m (within_mask hm rfl)
  have c6 := @teardownSlot_writes m (within_mask hm rfl)
  refine ⟨_, ?_, rfl⟩
  repeat' first
    | with_reducible first | exact writes_done | exact writes_nil | refine writes_cons ?_ ?_ | refine writes_seq ?_ ?_ | refine writes_look fun _ => ?_ | refine writes_when ?_ | refine writes_each fun _ => ?_ | refine writes_ite ?_ ?_ | exact c0 | exact c1 | refine c2 ?_ | exact c3 | exact c4 | exact c5 | exact c6 | refine writes_act (bit_mask hm ?_)
    | ((with_reducible show Nat.testBit _ (Eff.num _) = true); simp only [Eff.num]; rfl) | split | dsimp only [id]

theorem execGranuleStored_writes {m : Nat} (hm : 51782811327 &&& m = 51782811327) (a1 : _) (a2 : _) (s : State) : ∃ q : Prog, q.Writes m ∧ execGranuleStored a1 a2 s = s.run q := by
  have c0 := @storeGranule_writes m (within_mask hm rfl)
  refine ⟨_, ?_, rfl⟩
  repeat' first
    | with_reducible first | exact writes_done | exact writes_nil | refine writes_cons ?_ ?_ | refine writes_seq ?_ ?_ | refine writes_look fun _ => ?_ | refine writes_when ?_ | refine writes_each fun _ => ?_ | refine writes_ite ?_ ?_ | exact c0 | refine writes_act (bit_mask hm ?_)
    | ((with_reducible show Nat.testBit _ (Eff.num _) = true); simp only [Eff.num]; rfl) | split | dsimp only [id]

theorem execGuestSpillDone_writes {m : Nat} (hm : 34602417839 &&& m = 34602417839) (s : State) : ∃ q : Prog, q.Writes m ∧ execGuestSpillDone s = s.run q := by
  have c0 := @checkRewound_writes m (within_mask hm rfl)
  have c1 := @promote_writes m (within_mask hm rfl)
  have c2 := @spillAll_writes m (within_mask hm rfl)
  refine ⟨_, ?_, rfl⟩
  repeat' first
    | with_reducible first | exact writes_done | exact writes_nil | refine writes_cons ?_ ?_ | refine writes_seq ?_ ?_ | refine writes_look fun _ => ?_ | refine writes_when ?_ | refine writes_each fun _ => ?_ | refine writes_ite ?_ ?_ | exact c0 | exact c1 | exact c2 | refine writes_act (bit_mask hm ?_)
    | ((with_reducible show Nat.testBit _ (Eff.num _) = true); simp only [Eff.num]; rfl) | split | dsimp only [id]

theorem execHealth_writes {m : Nat} (hm : 51781762751 &&& m = 51781762751) (a1 : _) (a2 : _) (s : State) : ∃ q : Prog, q.Writes m ∧ execHealth a1 a2 s = s.run q := by
  have c0 := @fromAgent_writes m (within_mask hm rfl)
  have c1 := @healthWatches_writes m (within_mask hm rfl)
  have c2 := @hostDrops_writes m (within_mask hm rfl)
  have c3 := @modCourse_writes m (within_mask hm rfl)
  have c4 := @modWit_writes m (within_mask hm rfl)
  have c5 := @oReq_writes m (within_mask hm rfl)
  have c6 := @slotEvent_writes m (within_mask hm rfl)
  refine ⟨_, ?_, rfl⟩
  repeat' first
    | with_reducible first | exact writes_done | exact writes_nil | refine writes_cons ?_ ?_ | refine writes_seq ?_ ?_ | refine writes_look fun _ => ?_ | refine writes_when ?_ | refine writes_each fun _ => ?_ | refine writes_ite ?_ ?_ | refine c0 ?_ | exact c1 | exact c2 | exact c3 | exact c4 | exact c5 | exact c6 | refine writes_act (bit_mask hm ?_)
    | ((with_reducible show Nat.testBit _ (Eff.num _) = true); simp only [Eff.num]; rfl) | split | dsimp only [id]

theorem execHeartbeat_writes {m : Nat} (hm : 52855504575 &&& m = 52855504575) (a1 : _) (a2 : _) (s : State) : ∃ q : Prog, q.Writes m ∧ execHeartbeat a1 a2 s = s.run q := by
  have c0 := @fromAgent_writes m (within_mask hm rfl)
  have c1 := @learnStep_writes m (within_mask hm rfl)
  have c2 := @modShore_writes m (within_mask hm rfl)
  have c3 := @selfFenced_writes m (within_mask hm rfl)
  have c4 := @tallySlot_writes m (within_mask hm rfl)
  refine ⟨_, ?_, rfl⟩
  repeat' first
    | with_reducible first | exact writes_done | exact writes_nil | refine writes_cons ?_ ?_ | refine writes_seq ?_ ?_ | refine writes_look fun _ => ?_ | refine writes_when ?_ | refine writes_each fun _ => ?_ | refine writes_ite ?_ ?_ | refine c0 ?_ | exact c1 | exact c2 | exact c3 | exact c4 | refine writes_act (bit_mask hm ?_)
    | ((with_reducible show Nat.testBit _ (Eff.num _) = true); simp only [Eff.num]; rfl) | split | dsimp only [id]

theorem execHeartbeatDeadline_writes {m : Nat} (hm : 51647545023 &&& m = 51647545023) (a1 : _) (s : State) : ∃ q : Prog, q.Writes m ∧ execHeartbeatDeadline a1 s = s.run q := by
  have c0 := @declare__writes m (within_mask hm rfl)
  have c1 := @modShore_writes m (within_mask hm rfl)
  have c2 := @tallySlot_writes m (within_mask hm rfl)
  refine ⟨_, ?_, rfl⟩
  repeat' first
    | with_reducible first | exact writes_done | exact writes_nil | refine writes_cons ?_ ?_ | refine writes_seq ?_ ?_ | refine writes_look fun _ => ?_ | refine writes_when ?_ | refine writes_each fun _ => ?_ | refine writes_ite ?_ ?_ | exact c0 | exact c1 | exact c2 | refine writes_act (bit_mask hm ?_)
    | ((with_reducible show Nat.testBit _ (Eff.num _) = true); simp only [Eff.num]; rfl) | split | dsimp only [id]

theorem execHello_writes {m : Nat} (hm : 51782549033 &&& m = 51782549033) (a1 : _) (a2 : _) (s : State) : ∃ q : Prog, q.Writes m ∧ execHello a1 a2 s = s.run q := by
  have c0 := @beginTest_writes m (within_mask hm rfl)
  have c1 := @fromAgent_writes m (within_mask hm rfl)
  have c2 := @handbackFails_writes m (within_mask hm rfl)
  have c3 := @modSlot_writes m (within_mask hm rfl)
  have c4 := @oResp_writes m (within_mask hm rfl)
  have c5 := @put_writes m (within_mask hm rfl)
  have c6 := @setHandback_writes m (within_mask hm rfl)
  have c7 := @setSlot_writes m (within_mask hm rfl)
  refine ⟨_, ?_, rfl⟩
  repeat' first
    | with_reducible first | exact writes_done | exact writes_nil | refine writes_cons ?_ ?_ | refine writes_seq ?_ ?_ | refine writes_look fun _ => ?_ | refine writes_when ?_ | refine writes_each fun _ => ?_ | refine writes_ite ?_ ?_ | exact c0 | refine c1 ?_ | exact c2 | exact c3 | exact c4 | exact c5 | exact c6 | exact c7 | refine writes_act (bit_mask hm ?_)
    | ((with_reducible show Nat.testBit _ (Eff.num _) = true); simp only [Eff.num]; rfl) | split | dsimp only [id]

theorem execQuoinResp_writes {m : Nat} (hm : 52051246783 &&& m = 52051246783) (a1 : _) (a2 : _) (s : State) : ∃ q : Prog, q.Writes m ∧ execQuoinResp a1 a2 s = s.run q := by
  have c0 := @admitAnswer_writes m (within_mask hm rfl)
  have c1 := @agentAnswer_writes m (within_mask hm rfl)
  have c2 := @armAnswer_writes m (within_mask hm rfl)
  have c3 := @coverAnswer_writes m (within_mask hm rfl)
  have c4 := @drainAnswer_writes m (within_mask hm rfl)
  have c5 := @fromAgent_writes m (within_mask hm rfl)
  have c6 := @handbackAnswer_writes m (within_mask hm rfl)
  have c7 := @loadAnswer_writes m (within_mask hm rfl)
  have c8 := @markAnswer_writes m (within_mask hm rfl)
  have c9 := @modSlot_writes m (within_mask hm rfl)
  have c10 := @modWit_writes m (within_mask hm rfl)
  have c11 := @oAgain_writes m (within_mask hm rfl)
  have c12 := @rewindAnswer_writes m (within_mask hm rfl)
  refine ⟨_, ?_, rfl⟩
  repeat' first
    | with_reducible first | exact writes_done | exact writes_nil | refine writes_cons ?_ ?_ | refine writes_seq ?_ ?_ | refine writes_look fun _ => ?_ | refine writes_when ?_ | refine writes_each fun _ => ?_ | refine writes_ite ?_ ?_ | exact c0 | exact c1 | exact c2 | exact c3 | exact c4 | refine c5 ?_ | exact c6 | exact c7 | exact c8 | exact c9 | exact c10 | exact c11 | exact c12 | refine writes_act (bit_mask hm ?_)
    | ((with_reducible show Nat.testBit _ (Eff.num _) = true); simp only [Eff.num]; rfl) | split | dsimp only [id]

theorem execSlotFenceTimeout_writes {m : Nat} (hm : 52687437313 &&& m = 52687437313) (a1 : _) (s : State) : ∃ q : Prog, q.Writes m ∧ execSlotFenceTimeout a1 s = s.run q := by
  have c0 := @fenceEnds_writes m (within_mask hm rfl)
  refine ⟨_, ?_, rfl⟩
  repeat' first
    | with_reducible first | exact writes_done | exact writes_nil | refine writes_cons ?_ ?_ | refine writes_seq ?_ ?_ | refine writes_look fun _ => ?_ | refine writes_when ?_ | refine writes_each fun _ => ?_ | refine writes_ite ?_ ?_ | exact c0 | refine writes_act (bit_mask hm ?_)
    | ((with_reducible show Nat.testBit _ (Eff.num _) = true); simp only [Eff.num]; rfl) | split | dsimp only [id]

theorem execSlotPgoodFall_writes {m : Nat} (hm : 51782811327 &&& m = 51782811327) (a1 : _) (s : State) : ∃ q : Prog, q.Writes m ∧ execSlotPgoodFall a1 s = s.run q := by
  have c0 := @declareNow_writes m (within_mask hm rfl)
  have c1 := @handbackFails_writes m (within_mask hm rfl)
  have c2 := @put_writes m (within_mask hm rfl)
  have c3 := @setSlot_writes m (within_mask hm rfl)
  refine ⟨_, ?_, rfl⟩
  repeat' first
    | with_reducible first | exact writes_done | exact writes_nil | refine writes_cons ?_ ?_ | refine writes_seq ?_ ?_ | refine writes_look fun _ => ?_ | refine writes_when ?_ | refine writes_each fun _ => ?_ | refine writes_ite ?_ ?_ | exact c0 | exact c1 | exact c2 | exact c3 | refine writes_act (bit_mask hm ?_)
    | ((with_reducible show Nat.testBit _ (Eff.num _) = true); simp only [Eff.num]; rfl) | split | dsimp only [id]

theorem execSlotPgoodRise_writes {m : Nat} (hm : 34433167873 &&& m = 34433167873) (a1 : _) (s : State) : ∃ q : Prog, q.Writes m ∧ execSlotPgoodRise a1 s = s.run q := by
  have c0 := @driveReset_writes m (within_mask hm rfl)
  have c1 := @handbackPowered_writes m (within_mask hm rfl)
  have c2 := @put_writes m (within_mask hm rfl)
  refine ⟨_, ?_, rfl⟩
  repeat' first
    | with_reducible first | exact writes_done | exact writes_nil | refine writes_cons ?_ ?_ | refine writes_seq ?_ ?_ | refine writes_look fun _ => ?_ | refine writes_when ?_ | refine writes_each fun _ => ?_ | refine writes_ite ?_ ?_ | exact c0 | exact c1 | exact c2 | refine writes_act (bit_mask hm ?_)
    | ((with_reducible show Nat.testBit _ (Eff.num _) = true); simp only [Eff.num]; rfl) | split | dsimp only [id]

theorem execWitSample_writes {m : Nat} (hm : 51781762751 &&& m = 51781762751) (a1 : _) (a2 : _) (s : State) : ∃ q : Prog, q.Writes m ∧ execWitSample a1 a2 s = s.run q := by
  have c0 := @bump_writes m (within_mask hm rfl)
  have c1 := @dealt_writes m (within_mask hm rfl)
  have c2 := @fromAgent_writes m (within_mask hm rfl)
  have c3 := @queueSample_writes m (within_mask hm rfl)
  have c4 := @slotEvent_writes m (within_mask hm rfl)
  have c5 := @tally_writes m (within_mask hm rfl)
  have c6 := @tallyClass_writes m (within_mask hm rfl)
  have c7 := @tallySlot_writes m (within_mask hm rfl)
  refine ⟨_, ?_, rfl⟩
  repeat' first
    | with_reducible first | exact writes_done | exact writes_nil | refine writes_cons ?_ ?_ | refine writes_seq ?_ ?_ | refine writes_look fun _ => ?_ | refine writes_when ?_ | refine writes_each fun _ => ?_ | refine writes_ite ?_ ?_ | exact c0 | exact c1 | refine c2 ?_ | exact c3 | exact c4 | exact c5 | exact c6 | exact c7 | refine writes_act (bit_mask hm ?_)
    | ((with_reducible show Nat.testBit _ (Eff.num _) = true); simp only [Eff.num]; rfl) | split | dsimp only [id]

theorem execAckTimeout_writes {m : Nat} (hm : 34359738913 &&& m = 34359738913) (a1 : _) (s : State) : ∃ q : Prog, q.Writes m ∧ execAckTimeout a1 s = s.run q := by
  have c0 := @replay_writes m (within_mask hm rfl)
  refine ⟨_, ?_, rfl⟩
  repeat' first
    | with_reducible first | exact writes_done | exact writes_nil | refine writes_cons ?_ ?_ | refine writes_seq ?_ ?_ | refine writes_look fun _ => ?_ | refine writes_when ?_ | refine writes_each fun _ => ?_ | refine writes_ite ?_ ?_ | exact c0 | refine writes_act (bit_mask hm ?_)
    | ((with_reducible show Nat.testBit _ (Eff.num _) = true); simp only [Eff.num]; rfl) | split | dsimp only [id]

theorem execFlitReceive_writes {m : Nat} (hm : 51580010017 &&& m = 51580010017) (a1 : _) (a2 : _) (a3 : _) (s : State) : ∃ q : Prog, q.Writes m ∧ execFlitReceive a1 a2 a3 s = s.run q := by
  have c0 := @gapNak_writes m (within_mask hm rfl)
  have c1 := @laneFailed_writes m (within_mask hm rfl)
  have c2 := @modPort_writes m (within_mask hm rfl)
  have c3 := @sendNak_writes m (within_mask hm rfl)
  have c4 := @takeAck_writes m (within_mask hm rfl)
  have c5 := @takeFlit_writes m (within_mask hm rfl)
  refine ⟨_, ?_, rfl⟩
  repeat' first
    | with_reducible first | exact writes_done | exact writes_nil | refine writes_cons ?_ ?_ | refine writes_seq ?_ ?_ | refine writes_look fun _ => ?_ | refine writes_when ?_ | refine writes_each fun _ => ?_ | refine writes_ite ?_ ?_ | exact c0 | exact c1 | exact c2 | exact c3 | exact c4 | exact c5 | refine writes_act (bit_mask hm ?_)
    | ((with_reducible show Nat.testBit _ (Eff.num _) = true); simp only [Eff.num]; rfl) | split | dsimp only [id]

theorem execLaneDrop_writes {m : Nat} (hm : 51580009985 &&& m = 51580009985) (a1 : _) (a2 : _) (a3 : _) (s : State) : ∃ q : Prog, q.Writes m ∧ execLaneDrop a1 a2 a3 s = s.run q := by
  have c0 := @dropLane_writes m (within_mask hm rfl)
  refine ⟨_, ?_, rfl⟩
  repeat' first
    | with_reducible first | exact writes_done | exact writes_nil | refine writes_cons ?_ ?_ | refine writes_seq ?_ ?_ | refine writes_look fun _ => ?_ | refine writes_when ?_ | refine writes_each fun _ => ?_ | refine writes_ite ?_ ?_ | exact c0 | refine writes_act (bit_mask hm ?_)
    | ((with_reducible show Nat.testBit _ (Eff.num _) = true); simp only [Eff.num]; rfl) | split | dsimp only [id]

theorem execLaneRestore_writes {m : Nat} (hm : 51546452481 &&& m = 51546452481) (a1 : _) (a2 : _) (s : State) : ∃ q : Prog, q.Writes m ∧ execLaneRestore a1 a2 s = s.run q := by
  have c0 := @modPort_writes m (within_mask hm rfl)
  have c1 := @relane_writes m (within_mask hm rfl)
  have c2 := @sendLanemap_writes m (within_mask hm rfl)
  refine ⟨_, ?_, rfl⟩
  repeat' first
    | with_reducible first | exact writes_done | exact writes_nil | refine writes_cons ?_ ?_ | refine writes_seq ?_ ?_ | refine writes_look fun _ => ?_ | refine writes_when ?_ | refine writes_each fun _ => ?_ | refine writes_ite ?_ ?_ | exact c0 | exact c1 | exact c2 | refine writes_act (bit_mask hm ?_)
    | ((with_reducible show Nat.testBit _ (Eff.num _) = true); simp only [Eff.num]; rfl) | split | dsimp only [id]

theorem execLaneRetrainTick_writes {m : Nat} (hm : 34359738368 &&& m = 34359738368) (a1 : _) (s : State) : ∃ q : Prog, q.Writes m ∧ execLaneRetrainTick a1 s = s.run q := by
  have c0 := @send_writes m (within_mask hm rfl)
  refine ⟨_, ?_, rfl⟩
  repeat' first
    | with_reducible first | exact writes_done | exact writes_nil | refine writes_cons ?_ ?_ | refine writes_seq ?_ ?_ | refine writes_look fun _ => ?_ | refine writes_when ?_ | refine writes_each fun _ => ?_ | refine writes_ite ?_ ?_ | exact c0 | refine writes_act (bit_mask hm ?_)
    | ((with_reducible show Nat.testBit _ (Eff.num _) = true); simp only [Eff.num]; rfl) | split | dsimp only [id]

theorem execLanemap_writes {m : Nat} (hm : 51546452481 &&& m = 51546452481) (a1 : _) (a2 : _) (a3 : _) (s : State) : ∃ q : Prog, q.Writes m ∧ execLanemap a1 a2 a3 s = s.run q := by
  have c0 := @modPort_writes m (within_mask hm rfl)
  have c1 := @takeLanemap_writes m (within_mask hm rfl)
  refine ⟨_, ?_, rfl⟩
  repeat' first
    | with_reducible first | exact writes_done | exact writes_nil | refine writes_cons ?_ ?_ | refine writes_seq ?_ ?_ | refine writes_look fun _ => ?_ | refine writes_when ?_ | refine writes_each fun _ => ?_ | refine writes_ite ?_ ?_ | exact c0 | exact c1 | refine writes_act (bit_mask hm ?_)
    | ((with_reducible show Nat.testBit _ (Eff.num _) = true); simp only [Eff.num]; rfl) | split | dsimp only [id]

theorem execLinkTestDone_writes {m : Nat} (hm : 51782549033 &&& m = 51782549033) (a1 : _) (s : State) : ∃ q : Prog, q.Writes m ∧ execLinkTestDone a1 s = s.run q := by
  have c0 := @beginTest_writes m (within_mask hm rfl)
  have c1 := @beginTraining_writes m (within_mask hm rfl)
  have c2 := @handbackFails_writes m (within_mask hm rfl)
  have c3 := @modPort_writes m (within_mask hm rfl)
  have c4 := @portDown_writes m (within_mask hm rfl)
  have c5 := @put_writes m (within_mask hm rfl)
  have c6 := @setHandback_writes m (within_mask hm rfl)
  refine ⟨_, ?_, rfl⟩
  repeat' first
    | with_reducible first | exact writes_done | exact writes_nil | refine writes_cons ?_ ?_ | refine writes_seq ?_ ?_ | refine writes_look fun _ => ?_ | refine writes_when ?_ | refine writes_each fun _ => ?_ | refine writes_ite ?_ ?_ | exact c0 | exact c1 | exact c2 | exact c3 | exact c4 | exact c5 | exact c6 | refine writes_act (bit_mask hm ?_)
    | ((with_reducible show Nat.testBit _ (Eff.num _) = true); simp only [Eff.num]; rfl) | split | dsimp only [id]

theorem execLnkTestGo_writes {m : Nat} (hm : 42949672961 &&& m = 42949672961) (a1 : _) (s : State) : ∃ q : Prog, q.Writes m ∧ execLnkTestGo a1 s = s.run q := by
  have c0 := @writeLnkTest_writes m (within_mask hm rfl)
  refine ⟨_, ?_, rfl⟩
  repeat' first
    | with_reducible first | exact writes_done | exact writes_nil | refine writes_cons ?_ ?_ | refine writes_seq ?_ ?_ | refine writes_look fun _ => ?_ | refine writes_when ?_ | refine writes_each fun _ => ?_ | refine writes_ite ?_ ?_ | exact c0 | refine writes_act (bit_mask hm ?_)
    | ((with_reducible show Nat.testBit _ (Eff.num _) = true); simp only [Eff.num]; rfl) | split | dsimp only [id]

theorem execLockLossTimeout_writes {m : Nat} (hm : 34366058497 &&& m = 34366058497) (s : State) : ∃ q : Prog, q.Writes m ∧ execLockLossTimeout s = s.run q := by
  have c0 := @setLocked_writes m (within_mask hm rfl)
  refine ⟨_, ?_, rfl⟩
  repeat' first
    | with_reducible first | exact writes_done | exact writes_nil | refine writes_cons ?_ ?_ | refine writes_seq ?_ ?_ | refine writes_look fun _ => ?_ | refine writes_when ?_ | refine writes_each fun _ => ?_ | refine writes_ite ?_ ?_ | exact c0 | refine writes_act (bit_mask hm ?_)
    | ((with_reducible show Nat.testBit _ (Eff.num _) = true); simp only [Eff.num]; rfl) | split | dsimp only [id]

theorem execPortLightDetect_writes {m : Nat} (hm : 34366058497 &&& m = 34366058497) (a1 : _) (s : State) : ∃ q : Prog, q.Writes m ∧ execPortLightDetect a1 s = s.run q := by
  have c0 := @beginTraining_writes m (within_mask hm rfl)
  refine ⟨_, ?_, rfl⟩
  repeat' first
    | with_reducible first | exact writes_done | exact writes_nil | refine writes_cons ?_ ?_ | refine writes_seq ?_ ?_ | refine writes_look fun _ => ?_ | refine writes_when ?_ | refine writes_each fun _ => ?_ | refine writes_ite ?_ ?_ | exact c0 | refine writes_act (bit_mask hm ?_)
    | ((with_reducible show Nat.testBit _ (Eff.num _) = true); simp only [Eff.num]; rfl) | split | dsimp only [id]

theorem execPortRetrainTick_writes {m : Nat} (hm : 34366058497 &&& m = 34366058497) (a1 : _) (s : State) : ∃ q : Prog, q.Writes m ∧ execPortRetrainTick a1 s = s.run q := by
  have c0 := @beginTraining_writes m (within_mask hm rfl)
  refine ⟨_, ?_, rfl⟩
  repeat' first
    | with_reducible first | exact writes_done | exact writes_nil | refine writes_cons ?_ ?_ | refine writes_seq ?_ ?_ | refine writes_look fun _ => ?_ | refine writes_when ?_ | refine writes_each fun _ => ?_ | refine writes_ite ?_ ?_ | exact c0 | refine writes_act (bit_mask hm ?_)
    | ((with_reducible show Nat.testBit _ (Eff.num _) = true); simp only [Eff.num]; rfl) | split | dsimp only [id]

theorem execPtpMessage_writes {m : Nat} (hm : 38661025793 &&& m = 38661025793) (a1 : _) (s : State) : ∃ q : Prog, q.Writes m ∧ execPtpMessage a1 s = s.run q := by
  have c0 := @discipline_writes m (within_mask hm rfl)
  refine ⟨_, ?_, rfl⟩
  repeat' first
    | with_reducible first | exact writes_done | exact writes_nil | refine writes_cons ?_ ?_ | refine writes_seq ?_ ?_ | refine writes_look fun _ => ?_ | refine writes_when ?_ | refine writes_each fun _ => ?_ | refine writes_ite ?_ ?_ | exact c0 | refine writes_act (bit_mask hm ?_)
    | ((with_reducible show Nat.testBit _ (Eff.num _) = true); simp only [Eff.num]; rfl) | split | dsimp only [id]

theorem execTimeFlit_writes {m : Nat} (hm : 38661026337 &&& m = 38661026337) (a1 : _) (a2 : _) (a3 : _) (a4 : _) (a5 : _) (s : State) : ∃ q : Prog, q.Writes m ∧ execTimeFlit a1 a2 a3 a4 a5 s = s.run q := by
  have c0 := @discipline_writes m (within_mask hm rfl)
  have c1 := @modAgent_writes m (within_mask hm rfl)
  have c2 := @modPort_writes m (within_mask hm rfl)
  refine ⟨_, ?_, rfl⟩
  repeat' first
    | with_reducible first | exact writes_done | exact writes_nil | refine writes_cons ?_ ?_ | refine writes_seq ?_ ?_ | refine writes_look fun _ => ?_ | refine writes_when ?_ | refine writes_each fun _ => ?_ | refine writes_ite ?_ ?_ | exact c0 | exact c1 | exact c2 | refine writes_act (bit_mask hm ?_)
    | ((with_reducible show Nat.testBit _ (Eff.num _) = true); simp only [Eff.num]; rfl) | split | dsimp only [id]

theorem execTimeFlitTick_writes {m : Nat} (hm : 34359738368 &&& m = 34359738368) (a1 : _) (s : State) : ∃ q : Prog, q.Writes m ∧ execTimeFlitTick a1 s = s.run q := by
  have c0 := @send_writes m (within_mask hm rfl)
  refine ⟨_, ?_, rfl⟩
  repeat' first
    | with_reducible first | exact writes_done | exact writes_nil | refine writes_cons ?_ ?_ | refine writes_seq ?_ ?_ | refine writes_look fun _ => ?_ | refine writes_when ?_ | refine writes_each fun _ => ?_ | refine writes_ite ?_ ?_ | exact c0 | refine writes_act (bit_mask hm ?_)
    | ((with_reducible show Nat.testBit _ (Eff.num _) = true); simp only [Eff.num]; rfl) | split | dsimp only [id]

theorem execTimeSourceLost_writes {m : Nat} (hm : 4194304 &&& m = 4194304) (s : State) : ∃ q : Prog, q.Writes m ∧ execTimeSourceLost s = s.run q := by
  have c0 := @modObs_writes m (within_mask hm rfl)
  refine ⟨_, ?_, rfl⟩
  repeat' first
    | with_reducible first | exact writes_done | exact writes_nil | refine writes_cons ?_ ?_ | refine writes_seq ?_ ?_ | refine writes_look fun _ => ?_ | refine writes_when ?_ | refine writes_each fun _ => ?_ | refine writes_ite ?_ ?_ | exact c0 | refine writes_act (bit_mask hm ?_)
    | ((with_reducible show Nat.testBit _ (Eff.num _) = true); simp only [Eff.num]; rfl) | split | dsimp only [id]

theorem execTrainingDone_writes {m : Nat} (hm : 51782811311 &&& m = 51782811311) (a1 : _) (a2 : _) (a3 : _) (a4 : _) (s : State) : ∃ q : Prog, q.Writes m ∧ execTrainingDone a1 a2 a3 a4 s = s.run q := by
  have c0 := @trainingEnds_writes m (within_mask hm rfl)
  refine ⟨_, ?_, rfl⟩
  repeat' first
    | with_reducible first | exact writes_done | exact writes_nil | refine writes_cons ?_ ?_ | refine writes_seq ?_ ?_ | refine writes_look fun _ => ?_ | refine writes_when ?_ | refine writes_each fun _ => ?_ | refine writes_ite ?_ ?_ | exact c0 | refine writes_act (bit_mask hm ?_)
    | ((with_reducible show Nat.testBit _ (Eff.num _) = true); simp only [Eff.num]; rfl) | split | dsimp only [id]

theorem execTrainingTimeout_writes {m : Nat} (hm : 51782549033 &&& m = 51782549033) (a1 : _) (s : State) : ∃ q : Prog, q.Writes m ∧ execTrainingTimeout a1 s = s.run q := by
  have c0 := @handbackFails_writes m (within_mask hm rfl)
  have c1 := @portDown_writes m (within_mask hm rfl)
  refine ⟨_, ?_, rfl⟩
  repeat' first
    | with_reducible first | exact writes_done | exact writes_nil | refine writes_cons ?_ ?_ | refine writes_seq ?_ ?_ | refine writes_look fun _ => ?_ | refine writes_when ?_ | refine writes_each fun _ => ?_ | refine writes_ite ?_ ?_ | exact c0 | exact c1 | refine writes_act (bit_mask hm ?_)
    | ((with_reducible show Nat.testBit _ (Eff.num _) = true); simp only [Eff.num]; rfl) | split | dsimp only [id]

theorem execFabRead_writes {m : Nat} (hm : 51747517959 &&& m = 51747517959) (a1 : _) (a2 : _) (s : State) : ∃ q : Prog, q.Writes m ∧ execFabRead a1 a2 s = s.run q := by
  have c0 := @fabSend_writes m (within_mask hm rfl)
  have c1 := @fabTake_writes m (within_mask hm rfl)
  have c2 := @integrityOwn_writes m (within_mask hm rfl)
  have c3 := @noteFault_writes m (within_mask hm rfl)
  have c4 := @touchLeaf_writes m (within_mask hm rfl)
  refine ⟨_, ?_, rfl⟩
  repeat' first
    | with_reducible first | exact writes_done | exact writes_nil | refine writes_cons ?_ ?_ | refine writes_seq ?_ ?_ | refine writes_look fun _ => ?_ | refine writes_when ?_ | refine writes_each fun _ => ?_ | refine writes_ite ?_ ?_ | exact c0 | refine c1 ?_ | exact c2 | exact c3 | exact c4 | refine writes_act (bit_mask hm ?_)
    | ((with_reducible show Nat.testBit _ (Eff.num _) = true); simp only [Eff.num]; rfl) | split | dsimp only [id]

theorem execFabResp_writes {m : Nat} (hm : 34431041537 &&& m = 34431041537) (a1 : _) (a2 : _) (s : State) : ∃ q : Prog, q.Writes m ∧ execFabResp a1 a2 s = s.run q := by
  have c0 := @fabTake_writes m (within_mask hm rfl)
  have c1 := @send_writes m (within_mask hm rfl)
  refine ⟨_, ?_, rfl⟩
  repeat' first
    | with_reducible first | exact writes_done | exact writes_nil | refine writes_cons ?_ ?_ | refine writes_seq ?_ ?_ | refine writes_look fun _ => ?_ | refine writes_when ?_ | refine writes_each fun _ => ?_ | refine writes_ite ?_ ?_ | refine c0 ?_ | exact c1 | refine writes_act (bit_mask hm ?_)
    | ((with_reducible show Nat.testBit _ (Eff.num _) = true); simp only [Eff.num]; rfl) | split | dsimp only [id]

theorem execFabSignal_writes {m : Nat} (hm : 34734104449 &&& m = 34734104449) (a1 : _) (a2 : _) (s : State) : ∃ q : Prog, q.Writes m ∧ execFabSignal a1 a2 s = s.run q := by
  have c0 := @fabAdmit_writes m (within_mask hm rfl)
  have c1 := @fabTake_writes m (within_mask hm rfl)
  have c2 := @fabWritten_writes m (within_mask hm rfl)
  refine ⟨_, ?_, rfl⟩
  repeat' first
    | with_reducible first | exact writes_done | exact writes_nil | refine writes_cons ?_ ?_ | refine writes_seq ?_ ?_ | refine writes_look fun _ => ?_ | refine writes_when ?_ | refine writes_each fun _ => ?_ | refine writes_ite ?_ ?_ | refine c0 ?_ | refine c1 ?_ | exact c2 | refine writes_act (bit_mask hm ?_)
    | ((with_reducible show Nat.testBit _ (Eff.num _) = true); simp only [Eff.num]; rfl) | split | dsimp only [id]

theorem execFabWrite_writes {m : Nat} (hm : 52050591663 &&& m = 52050591663) (a1 : _) (a2 : _) (a3 : _) (s : State) : ∃ q : Prog, q.Writes m ∧ execFabWrite a1 a2 a3 s = s.run q := by
  have c0 := @fabAdmit_writes m (within_mask hm rfl)
  have c1 := @fabTake_writes m (within_mask hm rfl)
  have c2 := @fabWrite_writes m (within_mask hm rfl)
  refine ⟨_, ?_, rfl⟩
  repeat' first
    | with_reducible first | exact writes_done | exact writes_nil | refine writes_cons ?_ ?_ | refine writes_seq ?_ ?_ | refine writes_look fun _ => ?_ | refine writes_when ?_ | refine writes_each fun _ => ?_ | refine writes_ite ?_ ?_ | refine c0 ?_ | refine c1 ?_ | exact c2 | refine writes_act (bit_mask hm ?_)
    | ((with_reducible show Nat.testBit _ (Eff.num _) = true); simp only [Eff.num]; rfl) | split | dsimp only [id]

theorem execProtFault_writes {m : Nat} (hm : 34602286831 &&& m = 34602286831) (a1 : _) (s : State) : ∃ q : Prog, q.Writes m ∧ execProtFault a1 s = s.run q := by
  have c0 := @copyAside_writes m (within_mask hm rfl)
  have c1 := @modMmu_writes m (within_mask hm rfl)
  have c2 := @setHeld_writes m (within_mask hm rfl)
  refine ⟨_, ?_, rfl⟩
  repeat' first
    | with_reducible first | exact writes_done | exact writes_nil | refine writes_cons ?_ ?_ | refine writes_seq ?_ ?_ | refine writes_look fun _ => ?_ | refine writes_when ?_ | refine writes_each fun _ => ?_ | refine writes_ite ?_ ?_ | refine c0 ?_ ?_ | exact c1 | exact c2 | refine writes_act (bit_mask hm ?_)
    | ((with_reducible show Nat.testBit _ (Eff.num _) = true); simp only [Eff.num]; rfl) | split | dsimp only [id]

theorem execAdmitOrder_writes {m : Nat} (hm : 52067761705 &&& m = 52067761705) (a1 : _) (s : State) : ∃ q : Prog, q.Writes m ∧ execAdmitOrder a1 s = s.run q := by
  have c0 := @forwardDown_writes m (within_mask hm rfl)
  have c1 := @joinerAdmitted_writes m (within_mask hm rfl)
  have c2 := @onNoticeOk_writes m (within_mask hm rfl)
  have c3 := @takeAdmit_writes m (within_mask hm rfl)
  refine ⟨_, ?_, rfl⟩
  repeat' first
    | with_reducible first | exact writes_done | exact writes_nil | refine writes_cons ?_ ?_ | refine writes_seq ?_ ?_ | refine writes_look fun _ => ?_ | refine writes_when ?_ | refine writes_each fun _ => ?_ | refine writes_ite ?_ ?_ | exact c0 | exact c1 | refine c2 ?_ | exact c3 | refine writes_act (bit_mask hm ?_)
    | ((with_reducible show Nat.testBit _ (Eff.num _) = true); simp only [Eff.num]; rfl) | split | dsimp only [id]

end Sys2Proof.Machine
end

