-- ==== Sys2Proof/Laws/Writes15.lean ====
section
/-! SUPPORT. What each meaning writes (part 3): it takes a next state, by a program whose effects are of these areas. -/

set_option maxRecDepth 16000

namespace Sys2Proof.Machine

theorem execFlightWaitEnd_writes {m : Nat} (hm : 34602417839 &&& m = 34602417839) (s : State) : ∃ q : Prog, q.Writes m ∧ execFlightWaitEnd s = s.run q := by
  have c0 := @promotionGoesOn_writes m (within_mask hm rfl)
  have c1 := @setSlots_writes m (within_mask hm rfl)
  refine ⟨_, ?_, rfl⟩
  repeat' first
    | with_reducible first | exact writes_done | exact writes_nil | refine writes_cons ?_ ?_ | refine writes_seq ?_ ?_ | refine writes_look fun _ => ?_ | refine writes_when ?_ | refine writes_each fun _ => ?_ | refine writes_ite ?_ ?_ | exact c0 | exact c1 | refine writes_act (bit_mask hm ?_)
    | ((with_reducible show Nat.testBit _ (Eff.num _) = true); simp only [Eff.num]; rfl) | split | dsimp only [id]

theorem execHandbackHelloTimeout_writes {m : Nat} (hm : 51782549033 &&& m = 51782549033) (s : State) : ∃ q : Prog, q.Writes m ∧ execHandbackHelloTimeout s = s.run q := by
  have c0 := @atStep_writes m (within_mask hm rfl)
  have c1 := @handbackFails_writes m (within_mask hm rfl)
  refine ⟨_, ?_, rfl⟩
  repeat' first
    | with_reducible first | exact writes_done | exact writes_nil | refine writes_cons ?_ ?_ | refine writes_seq ?_ ?_ | refine writes_look fun _ => ?_ | refine writes_when ?_ | refine writes_each fun _ => ?_ | refine writes_ite ?_ ?_ | refine c0 (fun _ => ?_) | exact c1 | refine writes_act (bit_mask hm ?_)
    | ((with_reducible show Nat.testBit _ (Eff.num _) = true); simp only [Eff.num]; rfl) | split | dsimp only [id]

theorem execHandbackPassDone_writes {m : Nat} (hm : 34602286767 &&& m = 34602286767) (s : State) : ∃ q : Prog, q.Writes m ∧ execHandbackPassDone s = s.run q := by
  have c0 := @atStep_writes m (within_mask hm rfl)
  have c1 := @handbackPass_writes m (within_mask hm rfl)
  refine ⟨_, ?_, rfl⟩
  repeat' first
    | with_reducible first | exact writes_done | exact writes_nil | refine writes_cons ?_ ?_ | refine writes_seq ?_ ?_ | refine writes_look fun _ => ?_ | refine writes_when ?_ | refine writes_each fun _ => ?_ | refine writes_ite ?_ ?_ | refine c0 (fun _ => ?_) | exact c1 | refine writes_act (bit_mask hm ?_)
    | ((with_reducible show Nat.testBit _ (Eff.num _) = true); simp only [Eff.num]; rfl) | split | dsimp only [id]

theorem execHandbackPgoodTimeout_writes {m : Nat} (hm : 51782549033 &&& m = 51782549033) (s : State) : ∃ q : Prog, q.Writes m ∧ execHandbackPgoodTimeout s = s.run q := by
  have c0 := @atStep_writes m (within_mask hm rfl)
  have c1 := @handbackFails_writes m (within_mask hm rfl)
  refine ⟨_, ?_, rfl⟩
  repeat' first
    | with_reducible first | exact writes_done | exact writes_nil | refine writes_cons ?_ ?_ | refine writes_seq ?_ ?_ | refine writes_look fun _ => ?_ | refine writes_when ?_ | refine writes_each fun _ => ?_ | refine writes_ite ?_ ?_ | refine c0 (fun _ => ?_) | exact c1 | refine writes_act (bit_mask hm ?_)
    | ((with_reducible show Nat.testBit _ (Eff.num _) = true); simp only [Eff.num]; rfl) | split | dsimp only [id]

theorem execPromotionDone_writes {m : Nat} (hm : 34602417839 &&& m = 34602417839) (s : State) : ∃ q : Prog, q.Writes m ∧ execPromotionDone s = s.run q := by
  have c0 := @promotionGoesOn_writes m (within_mask hm rfl)
  refine ⟨_, ?_, rfl⟩
  repeat' first
    | with_reducible first | exact writes_done | exact writes_nil | refine writes_cons ?_ ?_ | refine writes_seq ?_ ?_ | refine writes_look fun _ => ?_ | refine writes_when ?_ | refine writes_each fun _ => ?_ | refine writes_ite ?_ ?_ | exact c0 | refine writes_act (bit_mask hm ?_)
    | ((with_reducible show Nat.testBit _ (Eff.num _) = true); simp only [Eff.num]; rfl) | split | dsimp only [id]

theorem execPromotionStart_writes {m : Nat} (hm : 34602417839 &&& m = 34602417839) (s : State) : ∃ q : Prog, q.Writes m ∧ execPromotionStart s = s.run q := by
  have c0 := @promote_writes m (within_mask hm rfl)
  refine ⟨_, ?_, rfl⟩
  repeat' first
    | with_reducible first | exact writes_done | exact writes_nil | refine writes_cons ?_ ?_ | refine writes_seq ?_ ?_ | refine writes_look fun _ => ?_ | refine writes_when ?_ | refine writes_each fun _ => ?_ | refine writes_ite ?_ ?_ | exact c0 | refine writes_act (bit_mask hm ?_)
    | ((with_reducible show Nat.testBit _ (Eff.num _) = true); simp only [Eff.num]; rfl) | split | dsimp only [id]

theorem execRepointRequest_writes {m : Nat} (hm : 34602286767 &&& m = 34602286767) (a1 : _) (a2 : _) (a3 : _) (a4 : _) (a5 : _) (a6 : _) (s : State) : ∃ q : Prog, q.Writes m ∧ execRepointRequest a1 a2 a3 a4 a5 a6 s = s.run q := by
  have c0 := @integrityOwn_writes m (within_mask hm rfl)
  have c1 := @modShore_writes m (within_mask hm rfl)
  have c2 := @positionLost_writes m (within_mask hm rfl)
  have c3 := @resendContribution_writes m (within_mask hm rfl)
  refine ⟨_, ?_, rfl⟩
  repeat' first
    | with_reducible first | exact writes_done | exact writes_nil | refine writes_cons ?_ ?_ | refine writes_seq ?_ ?_ | refine writes_look fun _ => ?_ | refine writes_when ?_ | refine writes_each fun _ => ?_ | refine writes_ite ?_ ?_ | exact c0 | exact c1 | exact c2 | exact c3 | refine writes_act (bit_mask hm ?_)
    | ((with_reducible show Nat.testBit _ (Eff.num _) = true); simp only [Eff.num]; rfl) | split | dsimp only [id]

theorem execRewindPlan_writes {m : Nat} (hm : 51791199919 &&& m = 51791199919) (a1 : _) (s : State) : ∃ q : Prog, q.Writes m ∧ execRewindPlan a1 s = s.run q := by
  have c0 := @forwardDown_writes m (within_mask hm rfl)
  have c1 := @joinerPlan_writes m (within_mask hm rfl)
  have c2 := @onNoticeOk_writes m (within_mask hm rfl)
  have c3 := @takePlan_writes m (within_mask hm rfl)
  refine ⟨_, ?_, rfl⟩
  repeat' first
    | with_reducible first | exact writes_done | exact writes_nil | refine writes_cons ?_ ?_ | refine writes_seq ?_ ?_ | refine writes_look fun _ => ?_ | refine writes_when ?_ | refine writes_each fun _ => ?_ | refine writes_ite ?_ ?_ | exact c0 | exact c1 | refine c2 ?_ | exact c3 | refine writes_act (bit_mask hm ?_)
    | ((with_reducible show Nat.testBit _ (Eff.num _) = true); simp only [Eff.num]; rfl) | split | dsimp only [id]

theorem execRewindTimeout_writes {m : Nat} (hm : 34699501441 &&& m = 34699501441) (s : State) : ∃ q : Prog, q.Writes m ∧ execRewindTimeout s = s.run q := by
  have c0 := @raise_writes m (within_mask hm rfl)
  have c1 := @rewindBarrierTimeout_writes m (within_mask hm rfl)
  refine ⟨_, ?_, rfl⟩
  repeat' first
    | with_reducible first | exact writes_done | exact writes_nil | refine writes_cons ?_ ?_ | refine writes_seq ?_ ?_ | refine writes_look fun _ => ?_ | refine writes_when ?_ | refine writes_each fun _ => ?_ | refine writes_ite ?_ ?_ | exact c0 | exact c1 | refine writes_act (bit_mask hm ?_)
    | ((with_reducible show Nat.testBit _ (Eff.num _) = true); simp only [Eff.num]; rfl) | split | dsimp only [id]

theorem execRewound_writes {m : Nat} (hm : 34733055873 &&& m = 34733055873) (a1 : _) (s : State) : ∃ q : Prog, q.Writes m ∧ execRewound a1 s = s.run q := by
  have c0 := @acceptRewound_writes m (within_mask hm rfl)
  have c1 := @onNoticeOk_writes m (within_mask hm rfl)
  refine ⟨_, ?_, rfl⟩
  repeat' first
    | with_reducible first | exact writes_done | exact writes_nil | refine writes_cons ?_ ?_ | refine writes_seq ?_ ?_ | refine writes_look fun _ => ?_ | refine writes_when ?_ | refine writes_each fun _ => ?_ | refine writes_ite ?_ ?_ | exact c0 | refine c1 ?_ | refine writes_act (bit_mask hm ?_)
    | ((with_reducible show Nat.testBit _ (Eff.num _) = true); simp only [Eff.num]; rfl) | split | dsimp only [id]

theorem execShrCtrlDeclare_writes {m : Nat} (hm : 60237479615 &&& m = 60237479615) (a1 : _) (s : State) : ∃ q : Prog, q.Writes m ∧ execShrCtrlDeclare a1 s = s.run q := by
  have c0 := @writeShrCtrl_writes m (within_mask hm rfl)
  refine ⟨_, ?_, rfl⟩
  repeat' first
    | with_reducible first | exact writes_done | exact writes_nil | refine writes_cons ?_ ?_ | refine writes_seq ?_ ?_ | refine writes_look fun _ => ?_ | refine writes_when ?_ | refine writes_each fun _ => ?_ | refine writes_ite ?_ ?_ | exact c0 | refine writes_act (bit_mask hm ?_)
    | ((with_reducible show Nat.testBit _ (Eff.num _) = true); simp only [Eff.num]; rfl) | split | dsimp only [id]

theorem execShrCtrlHandback_writes {m : Nat} (hm : 60237479615 &&& m = 60237479615) (a1 : _) (s : State) : ∃ q : Prog, q.Writes m ∧ execShrCtrlHandback a1 s = s.run q := by
  have c0 := @writeShrCtrl_writes m (within_mask hm rfl)
  refine ⟨_, ?_, rfl⟩
  repeat' first
    | with_reducible first | exact writes_done | exact writes_nil | refine writes_cons ?_ ?_ | refine writes_seq ?_ ?_ | refine writes_look fun _ => ?_ | refine writes_when ?_ | refine writes_each fun _ => ?_ | refine writes_ite ?_ ?_ | exact c0 | refine writes_act (bit_mask hm ?_)
    | ((with_reducible show Nat.testBit _ (Eff.num _) = true); simp only [Eff.num]; rfl) | split | dsimp only [id]

theorem execDivergeNotice_writes {m : Nat} (hm : 51781762751 &&& m = 51781762751) (a1 : _) (a2 : _) (s : State) : ∃ q : Prog, q.Writes m ∧ execDivergeNotice a1 a2 s = s.run q := by
  have c0 := @slotEvent_writes m (within_mask hm rfl)
  refine ⟨_, ?_, rfl⟩
  repeat' first
    | with_reducible first | exact writes_done | exact writes_nil | refine writes_cons ?_ ?_ | refine writes_seq ?_ ?_ | refine writes_look fun _ => ?_ | refine writes_when ?_ | refine writes_each fun _ => ?_ | refine writes_ite ?_ ?_ | exact c0 | refine writes_act (bit_mask hm ?_)
    | ((with_reducible show Nat.testBit _ (Eff.num _) = true); simp only [Eff.num]; rfl) | split | dsimp only [id]

theorem execWitGateTimeout_writes {m : Nat} (hm : 34397511169 &&& m = 34397511169) (s : State) : ∃ q : Prog, q.Writes m ∧ execWitGateTimeout s = s.run q := by
  have c0 := @bump_writes m (within_mask hm rfl)
  have c1 := @modCourse_writes m (within_mask hm rfl)
  have c2 := @tryVote_writes m (within_mask hm rfl)
  refine ⟨_, ?_, rfl⟩
  repeat' first
    | with_reducible first | exact writes_done | exact writes_nil | refine writes_cons ?_ ?_ | refine writes_seq ?_ ?_ | refine writes_look fun _ => ?_ | refine writes_when ?_ | refine writes_each fun _ => ?_ | refine writes_ite ?_ ?_ | exact c0 | exact c1 | exact c2 | refine writes_act (bit_mask hm ?_)
    | ((with_reducible show Nat.testBit _ (Eff.num _) = true); simp only [Eff.num]; rfl) | split | dsimp only [id]

theorem execWitnessCompare_writes {m : Nat} (hm : 51782811327 &&& m = 51782811327) (a1 : _) (s : State) : ∃ q : Prog, q.Writes m ∧ execWitnessCompare a1 s = s.run q := by
  have c0 := @bump_writes m (within_mask hm rfl)
  have c1 := @ownEvent_writes m (within_mask hm rfl)
  have c2 := @popRecord_writes m (within_mask hm rfl)
  have c3 := @slotEvent_writes m (within_mask hm rfl)
  have c4 := @witnessEvent_writes m (within_mask hm rfl)
  refine ⟨_, ?_, rfl⟩
  repeat' first
    | with_reducible first | exact writes_done | exact writes_nil | refine writes_cons ?_ ?_ | refine writes_seq ?_ ?_ | refine writes_look fun _ => ?_ | refine writes_when ?_ | refine writes_each fun _ => ?_ | refine writes_ite ?_ ?_ | exact c0 | exact c1 | exact c2 | exact c3 | exact c4 | refine writes_act (bit_mask hm ?_)
    | ((with_reducible show Nat.testBit _ (Eff.num _) = true); simp only [Eff.num]; rfl) | split | dsimp only [id]

theorem execFarAck_writes {m : Nat} (hm : 34733051393 &&& m = 34733051393) (a1 : _) (s : State) : ∃ q : Prog, q.Writes m ∧ execFarAck a1 s = s.run q := by
  have c0 := @checkLoaded_writes m (within_mask hm rfl)
  have c1 := @modCourse_writes m (within_mask hm rfl)
  have c2 := @onPairOk_writes m (within_mask hm rfl)
  have c3 := @sendReady_writes m (within_mask hm rfl)
  refine ⟨_, ?_, rfl⟩
  repeat' first
    | with_reducible first | exact writes_done | exact writes_nil | refine writes_cons ?_ ?_ | refine writes_seq ?_ ?_ | refine writes_look fun _ => ?_ | refine writes_when ?_ | refine writes_each fun _ => ?_ | refine writes_ite ?_ ?_ | exact c0 | exact c1 | refine c2 ?_ | exact c3 | refine writes_act (bit_mask hm ?_)
    | ((with_reducible show Nat.testBit _ (Eff.num _) = true); simp only [Eff.num]; rfl) | split | dsimp only [id]

theorem execFarPut_writes {m : Nat} (hm : 34897677825 &&& m = 34897677825) (a1 : _) (s : State) : ∃ q : Prog, q.Writes m ∧ execFarPut a1 s = s.run q := by
  have c0 := @grant_writes m (within_mask hm rfl)
  have c1 := @modHold_writes m (within_mask hm rfl)
  have c2 := @onPairOk_writes m (within_mask hm rfl)
  refine ⟨_, ?_, rfl⟩
  repeat' first
    | with_reducible first | exact writes_done | exact writes_nil | refine writes_cons ?_ ?_ | refine writes_seq ?_ ?_ | refine writes_look fun _ => ?_ | refine writes_when ?_ | refine writes_each fun _ => ?_ | refine writes_ite ?_ ?_ | exact c0 | exact c1 | refine c2 ?_ | refine writes_act (bit_mask hm ?_)
    | ((with_reducible show Nat.testBit _ (Eff.num _) = true); simp only [Eff.num]; rfl) | split | dsimp only [id]

theorem execFarReserve_writes {m : Nat} (hm : 34896891393 &&& m = 34896891393) (a1 : _) (s : State) : ∃ q : Prog, q.Writes m ∧ execFarReserve a1 s = s.run q := by
  have c0 := @answerReserve_writes m (within_mask hm rfl)
  have c1 := @modHold_writes m (within_mask hm rfl)
  have c2 := @onPair_writes m (within_mask hm rfl)
  refine ⟨_, ?_, rfl⟩
  repeat' first
    | with_reducible first | exact writes_done | exact writes_nil | refine writes_cons ?_ ?_ | refine writes_seq ?_ ?_ | refine writes_look fun _ => ?_ | refine writes_when ?_ | refine writes_each fun _ => ?_ | refine writes_ite ?_ ?_ | exact c0 | exact c1 | refine c2 ?_ | refine writes_act (bit_mask hm ?_)
    | ((with_reducible show Nat.testBit _ (Eff.num _) = true); simp only [Eff.num]; rfl) | split | dsimp only [id]

theorem execHubKeptDrop_writes {m : Nat} (hm : 8623489031 &&& m = 8623489031) (a1 : _) (s : State) : ∃ q : Prog, q.Writes m ∧ execHubKeptDrop a1 s = s.run q := by
  have c0 := @writeHubKept_writes m (within_mask hm rfl)
  refine ⟨_, ?_, rfl⟩
  repeat' first
    | with_reducible first | exact writes_done | exact writes_nil | refine writes_cons ?_ ?_ | refine writes_seq ?_ ?_ | refine writes_look fun _ => ?_ | refine writes_when ?_ | refine writes_each fun _ => ?_ | refine writes_ite ?_ ?_ | exact c0 | refine writes_act (bit_mask hm ?_)
    | ((with_reducible show Nat.testBit _ (Eff.num _) = true); simp only [Eff.num]; rfl) | split | dsimp only [id]

theorem execJoin_writes {m : Nat} (hm : 34749833089 &&& m = 34749833089) (a1 : _) (s : State) : ∃ q : Prog, q.Writes m ∧ execJoin a1 s = s.run q := by
  have c0 := @broadcast_writes m (within_mask hm rfl)
  have c1 := @endHold_writes m (within_mask hm rfl)
  have c2 := @modShore_writes m (within_mask hm rfl)
  have c3 := @modStart_writes m (within_mask hm rfl)
  have c4 := @notify_writes m (within_mask hm rfl)
  have c5 := @onNotice_writes m (within_mask hm rfl)
  have c6 := @pAnswer_writes m (within_mask hm rfl)
  have c7 := @rootNotice_writes m (within_mask hm rfl)
  have c8 := @setMember_writes m (within_mask hm rfl)
  have c9 := @superseding_writes m (within_mask hm rfl)
  refine ⟨_, ?_, rfl⟩
  repeat' first
    | with_reducible first | exact writes_done | exact writes_nil | refine writes_cons ?_ ?_ | refine writes_seq ?_ ?_ | refine writes_look fun _ => ?_ | refine writes_when ?_ | refine writes_each fun _ => ?_ | refine writes_ite ?_ ?_ | exact c0 | exact c1 | exact c2 | exact c3 | exact c4 | refine c5 ?_ | exact c6 | exact c7 | exact c8 | exact c9 | refine writes_act (bit_mask hm ?_)
    | ((with_reducible show Nat.testBit _ (Eff.num _) = true); simp only [Eff.num]; rfl) | split | dsimp only [id]

theorem execManifestWant_writes {m : Nat} (hm : 34359758337 &&& m = 34359758337) (a1 : _) (s : State) : ∃ q : Prog, q.Writes m ∧ execManifestWant a1 s = s.run q := by
  have c0 := @onNotice_writes m (within_mask hm rfl)
  have c1 := @pAnswer_writes m (within_mask hm rfl)
  have c2 := @pSend_writes m (within_mask hm rfl)
  refine ⟨_, ?_, rfl⟩
  repeat' first
    | with_reducible first | exact writes_done | exact writes_nil | refine writes_cons ?_ ?_ | refine writes_seq ?_ ?_ | refine writes_look fun _ => ?_ | refine writes_when ?_ | refine writes_each fun _ => ?_ | refine writes_ite ?_ ?_ | refine c0 ?_ | exact c1 | exact c2 | refine writes_act (bit_mask hm ?_)
    | ((with_reducible show Nat.testBit _ (Eff.num _) = true); simp only [Eff.num]; rfl) | split | dsimp only [id]

theorem execMemberMap_writes {m : Nat} (hm : 51942195119 &&& m = 51942195119) (a1 : _) (s : State) : ∃ q : Prog, q.Writes m ∧ execMemberMap a1 s = s.run q := by
  have c0 := @endHold_writes m (within_mask hm rfl)
  have c1 := @fenceSlot_writes m (within_mask hm rfl)
  have c2 := @forwardDown_writes m (within_mask hm rfl)
  have c3 := @modStart_writes m (within_mask hm rfl)
  have c4 := @onNoticeOk_writes m (within_mask hm rfl)
  have c5 := @orderTeardown_writes m (within_mask hm rfl)
  have c6 := @setMember_writes m (within_mask hm rfl)
  refine ⟨_, ?_, rfl⟩
  repeat' first
    | with_reducible first | exact writes_done | exact writes_nil | refine writes_cons ?_ ?_ | refine writes_seq ?_ ?_ | refine writes_look fun _ => ?_ | refine writes_when ?_ | refine writes_each fun _ => ?_ | refine writes_ite ?_ ?_ | exact c0 | exact c1 | exact c2 | exact c3 | refine c4 ?_ | exact c5 | exact c6 | refine writes_act (bit_mask hm ?_)
    | ((with_reducible show Nat.testBit _ (Eff.num _) = true); simp only [Eff.num]; rfl) | split | dsimp only [id]

theorem execMirror_writes {m : Nat} (hm : 34360806913 &&& m = 34360806913) (a1 : _) (s : State) : ∃ q : Prog, q.Writes m ∧ execMirror a1 s = s.run q := by
  have c0 := @grant_writes m (within_mask hm rfl)
  have c1 := @onPairOk_writes m (within_mask hm rfl)
  refine ⟨_, ?_, rfl⟩
  repeat' first
    | with_reducible first | exact writes_done | exact writes_nil | refine writes_cons ?_ ?_ | refine writes_seq ?_ ?_ | refine writes_look fun _ => ?_ | refine writes_when ?_ | refine writes_each fun _ => ?_ | refine writes_ite ?_ ?_ | exact c0 | refine c1 ?_ | refine writes_act (bit_mask hm ?_)
    | ((with_reducible show Nat.testBit _ (Eff.num _) = true); simp only [Eff.num]; rfl) | split | dsimp only [id]

theorem execMirrorAck_writes {m : Nat} (hm : 34733186561 &&& m = 34733186561) (a1 : _) (s : State) : ∃ q : Prog, q.Writes m ∧ execMirrorAck a1 s = s.run q := by
  have c0 := @checkLoaded_writes m (within_mask hm rfl)
  have c1 := @modCourse_writes m (within_mask hm rfl)
  have c2 := @onPairOk_writes m (within_mask hm rfl)
  have c3 := @put_writes m (within_mask hm rfl)
  have c4 := @settlePair_writes m (within_mask hm rfl)
  have c5 := @tryVote_writes m (within_mask hm rfl)
  refine ⟨_, ?_, rfl⟩
  repeat' first
    | with_reducible first | exact writes_done | exact writes_nil | refine writes_cons ?_ ?_ | refine writes_seq ?_ ?_ | refine writes_look fun _ => ?_ | refine writes_when ?_ | refine writes_each fun _ => ?_ | refine writes_ite ?_ ?_ | exact c0 | exact c1 | refine c2 ?_ | exact c3 | exact c4 | exact c5 | refine writes_act (bit_mask hm ?_)
    | ((with_reducible show Nat.testBit _ (Eff.num _) = true); simp only [Eff.num]; rfl) | split | dsimp only [id]

theorem execPackageComplete_writes {m : Nat} (hm : 52075888263 &&& m = 52075888263) (s : State) : ∃ q : Prog, q.Writes m ∧ execPackageComplete s = s.run q := by
  have c0 := @packageComplete_writes m (within_mask hm rfl)
  refine ⟨_, ?_, rfl⟩
  repeat' first
    | with_reducible first | exact writes_done | exact writes_nil | refine writes_cons ?_ ?_ | refine writes_seq ?_ ?_ | refine writes_look fun _ => ?_ | refine writes_when ?_ | refine writes_each fun _ => ?_ | refine writes_ite ?_ ?_ | exact c0 | refine writes_act (bit_mask hm ?_)
    | ((with_reducible show Nat.testBit _ (Eff.num _) = true); simp only [Eff.num]; rfl) | split | dsimp only [id]

theorem execPairHello_writes {m : Nat} (hm : 52612759431 &&& m = 52612759431) (a1 : _) (s : State) : ∃ q : Prog, q.Writes m ∧ execPairHello a1 s = s.run q := by
  have c0 := @coverBeyond_writes m (within_mask hm rfl)
  have c1 := @goSolo_writes m (within_mask hm rfl)
  have c2 := @modHold_writes m (within_mask hm rfl)
  have c3 := @modMode_writes m (within_mask hm rfl)
  have c4 := @onNotice_writes m (within_mask hm rfl)
  have c5 := @pAnswer_writes m (within_mask hm rfl)
  have c6 := @put_writes m (within_mask hm rfl)
  have c7 := @resync_writes m (within_mask hm rfl)
  have c8 := @settlePair_writes m (within_mask hm rfl)
  refine ⟨_, ?_, rfl⟩
  repeat' first
    | with_reducible first | exact writes_done | exact writes_nil | refine writes_cons ?_ ?_ | refine writes_seq ?_ ?_ | refine writes_look fun _ => ?_ | refine writes_when ?_ | refine writes_each fun _ => ?_ | refine writes_ite ?_ ?_ | exact c0 | exact c1 | exact c2 | exact c3 | refine c4 ?_ | exact c5 | exact c6 | exact c7 | exact c8 | refine writes_act (bit_mask hm ?_)
    | ((with_reducible show Nat.testBit _ (Eff.num _) = true); simp only [Eff.num]; rfl) | split | dsimp only [id]

theorem execPartnerLost_writes {m : Nat} (hm : 52612759431 &&& m = 52612759431) (s : State) : ∃ q : Prog, q.Writes m ∧ execPartnerLost s = s.run q := by
  have c0 := @goSolo_writes m (within_mask hm rfl)
  have c1 := @raise_writes m (within_mask hm rfl)
  have c2 := @reportPartner_writes m (within_mask hm rfl)
  refine ⟨_, ?_, rfl⟩
  repeat' first
    | with_reducible first | exact writes_done | exact writes_nil | refine writes_cons ?_ ?_ | refine writes_seq ?_ ?_ | refine writes_look fun _ => ?_ | refine writes_when ?_ | refine writes_each fun _ => ?_ | refine writes_ite ?_ ?_ | exact c0 | exact c1 | exact c2 | refine writes_act (bit_mask hm ?_)
    | ((with_reducible show Nat.testBit _ (Eff.num _) = true); simp only [Eff.num]; rfl) | split | dsimp only [id]

theorem execPartnerScrub_writes {m : Nat} (hm : 52612759175 &&& m = 52612759175) (a1 : _) (s : State) : ∃ q : Prog, q.Writes m ∧ execPartnerScrub a1 s = s.run q := by
  have c0 := @modHold_writes m (within_mask hm rfl)
  have c1 := @onPairOk_writes m (within_mask hm rfl)
  have c2 := @tryCapacity_writes m (within_mask hm rfl)
  refine ⟨_, ?_, rfl⟩
  repeat' first
    | with_reducible first | exact writes_done | exact writes_nil | refine writes_cons ?_ ?_ | refine writes_seq ?_ ?_ | refine writes_look fun _ => ?_ | refine writes_when ?_ | refine writes_each fun _ => ?_ | refine writes_ite ?_ ?_ | exact c0 | refine c1 ?_ | exact c2 | refine writes_act (bit_mask hm ?_)
    | ((with_reducible show Nat.testBit _ (Eff.num _) = true); simp only [Eff.num]; rfl) | split | dsimp only [id]

theorem execReady_writes {m : Nat} (hm : 34628193793 &&& m = 34628193793) (a1 : _) (s : State) : ∃ q : Prog, q.Writes m ∧ execReady a1 s = s.run q := by
  have c0 := @abortStart_writes m (within_mask hm rfl)
  have c1 := @broadcast_writes m (within_mask hm rfl)
  have c2 := @modStart_writes m (within_mask hm rfl)
  have c3 := @onNoticeOk_writes m (within_mask hm rfl)
  refine ⟨_, ?_, rfl⟩
  repeat' first
    | with_reducible first | exact writes_done | exact writes_nil | refine writes_cons ?_ ?_ | refine writes_seq ?_ ?_ | refine writes_look fun _ => ?_ | refine writes_when ?_ | refine writes_each fun _ => ?_ | refine writes_ite ?_ ?_ | exact c0 | exact c1 | exact c2 | refine c3 ?_ | refine writes_act (bit_mask hm ?_)
    | ((with_reducible show Nat.testBit _ (Eff.num _) = true); simp only [Eff.num]; rfl) | split | dsimp only [id]

theorem execResync_writes {m : Nat} (hm : 34896629249 &&& m = 34896629249) (a1 : _) (s : State) : ∃ q : Prog, q.Writes m ∧ execResync a1 s = s.run q := by
  have c0 := @modHold_writes m (within_mask hm rfl)
  have c1 := @onPairOk_writes m (within_mask hm rfl)
  refine ⟨_, ?_, rfl⟩
  repeat' first
    | with_reducible first | exact writes_done | exact writes_nil | refine writes_cons ?_ ?_ | refine writes_seq ?_ ?_ | refine writes_look fun _ => ?_ | refine writes_when ?_ | refine writes_each fun _ => ?_ | refine writes_ite ?_ ?_ | exact c0 | refine c1 ?_ | refine writes_act (bit_mask hm ?_)
    | ((with_reducible show Nat.testBit _ (Eff.num _) = true); simp only [Eff.num]; rfl) | split | dsimp only [id]

theorem execScrubComplete_writes {m : Nat} (hm : 35424468911 &&& m = 35424468911) (s : State) : ∃ q : Prog, q.Writes m ∧ execScrubComplete s = s.run q := by
  have c0 := @scrubEnds_writes m (within_mask hm rfl)
  refine ⟨_, ?_, rfl⟩
  repeat' first
    | with_reducible first | exact writes_done | exact writes_nil | refine writes_cons ?_ ?_ | refine writes_seq ?_ ?_ | refine writes_look fun _ => ?_ | refine writes_when ?_ | refine writes_each fun _ => ?_ | refine writes_ite ?_ ?_ | exact c0 | refine writes_act (bit_mask hm ?_)
    | ((with_reducible show Nat.testBit _ (Eff.num _) = true); simp only [Eff.num]; rfl) | split | dsimp only [id]

theorem execScrubDone_writes {m : Nat} (hm : 34628193793 &&& m = 34628193793) (a1 : _) (s : State) : ∃ q : Prog, q.Writes m ∧ execScrubDone a1 s = s.run q := by
  have c0 := @modStart_writes m (within_mask hm rfl)
  have c1 := @onTeardown_writes m (within_mask hm rfl)
  refine ⟨_, ?_, rfl⟩
  repeat' first
    | with_reducible first | exact writes_done | exact writes_nil | refine writes_cons ?_ ?_ | refine writes_seq ?_ ?_ | refine writes_look fun _ => ?_ | refine writes_when ?_ | refine writes_each fun _ => ?_ | refine writes_ite ?_ ?_ | exact c0 | refine c1 ?_ | refine writes_act (bit_mask hm ?_)
    | ((with_reducible show Nat.testBit _ (Eff.num _) = true); simp only [Eff.num]; rfl) | split | dsimp only [id]

theorem execSeed_writes {m : Nat} (hm : 35424108039 &&& m = 35424108039) (a1 : _) (s : State) : ∃ q : Prog, q.Writes m ∧ execSeed a1 s = s.run q := by
  have c0 := @intakeEnds_writes m (within_mask hm rfl)
  have c1 := @modHold_writes m (within_mask hm rfl)
  have c2 := @modJob_writes m (within_mask hm rfl)
  have c3 := @onNoticeOk_writes m (within_mask hm rfl)
  have c4 := @toPartner_writes m (within_mask hm rfl)
  refine ⟨_, ?_, rfl⟩
  repeat' first
    | with_reducible first | exact writes_done | exact writes_nil | refine writes_cons ?_ ?_ | refine writes_seq ?_ ?_ | refine writes_look fun _ => ?_ | refine writes_when ?_ | refine writes_each fun _ => ?_ | refine writes_ite ?_ ?_ | exact c0 | exact c1 | exact c2 | refine c3 ?_ | exact c4 | refine writes_act (bit_mask hm ?_)
    | ((with_reducible show Nat.testBit _ (Eff.num _) = true); simp only [Eff.num]; rfl) | split | dsimp only [id]

theorem execShardPut_writes {m : Nat} (hm : 34360806913 &&& m = 34360806913) (a1 : _) (s : State) : ∃ q : Prog, q.Writes m ∧ execShardPut a1 s = s.run q := by
  have c0 := @grant_writes m (within_mask hm rfl)
  have c1 := @onNotice_writes m (within_mask hm rfl)
  refine ⟨_, ?_, rfl⟩
  repeat' first
    | with_reducible first | exact writes_done | exact writes_nil | refine writes_cons ?_ ?_ | refine writes_seq ?_ ?_ | refine writes_look fun _ => ?_ | refine writes_when ?_ | refine writes_each fun _ => ?_ | refine writes_ite ?_ ?_ | exact c0 | refine c1 ?_ | refine writes_act (bit_mask hm ?_)
    | ((with_reducible show Nat.testBit _ (Eff.num _) = true); simp only [Eff.num]; rfl) | split | dsimp only [id]

theorem execShardWant_writes {m : Nat} (hm : 34769763841 &&& m = 34769763841) (a1 : _) (s : State) : ∃ q : Prog, q.Writes m ∧ execShardWant a1 s = s.run q := by
  have c0 := @checkCopies_writes m (within_mask hm rfl)
  have c1 := @modStart_writes m (within_mask hm rfl)
  have c2 := @onNotice_writes m (within_mask hm rfl)
  have c3 := @pAnswer_writes m (within_mask hm rfl)
  have c4 := @putShard_writes m (within_mask hm rfl)
  refine ⟨_, ?_, rfl⟩
  repeat' first
    | with_reducible first | exact writes_done | exact writes_nil | refine writes_cons ?_ ?_ | refine writes_seq ?_ ?_ | refine writes_look fun _ => ?_ | refine writes_when ?_ | refine writes_each fun _ => ?_ | refine writes_ite ?_ ?_ | exact c0 | exact c1 | refine c2 ?_ | exact c3 | exact c4 | refine writes_act (bit_mask hm ?_)
    | ((with_reducible show Nat.testBit _ (Eff.num _) = true); simp only [Eff.num]; rfl) | split | dsimp only [id]

theorem execStartAbort_writes {m : Nat} (hm : 51942194863 &&& m = 51942194863) (a1 : _) (s : State) : ∃ q : Prog, q.Writes m ∧ execStartAbort a1 s = s.run q := by
  have c0 := @forwardDown_writes m (within_mask hm rfl)
  have c1 := @onNoticeOk_writes m (within_mask hm rfl)
  have c2 := @orderTeardown_writes m (within_mask hm rfl)
  have c3 := @put_writes m (within_mask hm rfl)
  refine ⟨_, ?_, rfl⟩
  repeat' first
    | with_reducible first | exact writes_done | exact writes_nil | refine writes_cons ?_ ?_ | refine writes_seq ?_ ?_ | refine writes_look fun _ => ?_ | refine writes_when ?_ | refine writes_each fun _ => ?_ | refine writes_ite ?_ ?_ | exact c0 | refine c1 ?_ | exact c2 | exact c3 | refine writes_act (bit_mask hm ?_)
    | ((with_reducible show Nat.testBit _ (Eff.num _) = true); simp only [Eff.num]; rfl) | split | dsimp only [id]

theorem execStartJob_writes {m : Nat} (hm : 34531761921 &&& m = 34531761921) (a1 : _) (s : State) : ∃ q : Prog, q.Writes m ∧ execStartJob a1 s = s.run q := by
  have c0 := @forwardDown_writes m (within_mask hm rfl)
  have c1 := @onNoticeOk_writes m (within_mask hm rfl)
  have c2 := @started_writes m (within_mask hm rfl)
  refine ⟨_, ?_, rfl⟩
  repeat' first
    | with_reducible first | exact writes_done | exact writes_nil | refine writes_cons ?_ ?_ | refine writes_seq ?_ ?_ | refine writes_look fun _ => ?_ | refine writes_when ?_ | refine writes_each fun _ => ?_ | refine writes_ite ?_ ?_ | exact c0 | refine c1 ?_ | exact c2 | refine writes_act (bit_mask hm ?_)
    | ((with_reducible show Nat.testBit _ (Eff.num _) = true); simp only [Eff.num]; rfl) | split | dsimp only [id]

theorem execStartTimeout_writes {m : Nat} (hm : 51942194863 &&& m = 51942194863) (s : State) : ∃ q : Prog, q.Writes m ∧ execStartTimeout s = s.run q := by
  have c0 := @abortStart_writes m (within_mask hm rfl)
  have c1 := @orderTeardown_writes m (within_mask hm rfl)
  have c2 := @put_writes m (within_mask hm rfl)
  refine ⟨_, ?_, rfl⟩
  repeat' first
    | with_reducible first | exact writes_done | exact writes_nil | refine writes_cons ?_ ?_ | refine writes_seq ?_ ?_ | refine writes_look fun _ => ?_ | refine writes_when ?_ | refine writes_each fun _ => ?_ | refine writes_ite ?_ ?_ | exact c0 | exact c1 | exact c2 | refine writes_act (bit_mask hm ?_)
    | ((with_reducible show Nat.testBit _ (Eff.num _) = true); simp only [Eff.num]; rfl) | split | dsimp only [id]

theorem execStripeMissingTimeout_writes {m : Nat} (hm : 34363953153 &&& m = 34363953153) (s : State) : ∃ q : Prog, q.Writes m ∧ execStripeMissingTimeout s = s.run q := by
  have c0 := @raise_writes m (within_mask hm rfl)
  refine ⟨_, ?_, rfl⟩
  repeat' first
    | with_reducible first | exact writes_done | exact writes_nil | refine writes_cons ?_ ?_ | refine writes_seq ?_ ?_ | refine writes_look fun _ => ?_ | refine writes_when ?_ | refine writes_each fun _ => ?_ | refine writes_ite ?_ ?_ | exact c0 | refine writes_act (bit_mask hm ?_)
    | ((with_reducible show Nat.testBit _ (Eff.num _) = true); simp only [Eff.num]; rfl) | split | dsimp only [id]

theorem execTeardownFenceTimeout_writes {m : Nat} (hm : 51818057217 &&& m = 51818057217) (s : State) : ∃ q : Prog, q.Writes m ∧ execTeardownFenceTimeout s = s.run q := by
  have c0 := @releaseOut_writes m (within_mask hm rfl)
  have c1 := @teardownFenced_writes m (within_mask hm rfl)
  refine ⟨_, ?_, rfl⟩
  repeat' first
    | with_reducible first | exact writes_done | exact writes_nil | refine writes_cons ?_ ?_ | refine writes_seq ?_ ?_ | refine writes_look fun _ => ?_ | refine writes_when ?_ | refine writes_each fun _ => ?_ | refine writes_ite ?_ ?_ | exact c0 | exact c1 | refine writes_act (bit_mask hm ?_)
    | ((with_reducible show Nat.testBit _ (Eff.num _) = true); simp only [Eff.num]; rfl) | split | dsimp only [id]

theorem execTeardownNote_writes {m : Nat} (hm : 34896891399 &&& m = 34896891399) (a1 : _) (s : State) : ∃ q : Prog, q.Writes m ∧ execTeardownNote a1 s = s.run q := by
  have c0 := @modHold_writes m (within_mask hm rfl)
  have c1 := @onNoticeOk_writes m (within_mask hm rfl)
  have c2 := @onPairOk_writes m (within_mask hm rfl)
  have c3 := @scrubFar_writes m (within_mask hm rfl)
  refine ⟨_, ?_, rfl⟩
  repeat' first
    | with_reducible first | exact writes_done | exact writes_nil | refine writes_cons ?_ ?_ | refine writes_seq ?_ ?_ | refine writes_look fun _ => ?_ | refine writes_when ?_ | refine writes_each fun _ => ?_ | refine writes_ite ?_ ?_ | exact c0 | refine c1 ?_ | refine c2 ?_ | exact c3 | refine writes_act (bit_mask hm ?_)
    | ((with_reducible show Nat.testBit _ (Eff.num _) = true); simp only [Eff.num]; rfl) | split | dsimp only [id]

theorem execTeardownOrder_writes {m : Nat} (hm : 51942194863 &&& m = 51942194863) (a1 : _) (s : State) : ∃ q : Prog, q.Writes m ∧ execTeardownOrder a1 s = s.run q := by
  have c0 := @forwardDown_writes m (within_mask hm rfl)
  have c1 := @onTeardown_writes m (within_mask hm rfl)
  have c2 := @orderTeardown_writes m (within_mask hm rfl)
  refine ⟨_, ?_, rfl⟩
  repeat' first
    | with_reducible first | exact writes_done | exact writes_nil | refine writes_cons ?_ ?_ | refine writes_seq ?_ ?_ | refine writes_look fun _ => ?_ | refine writes_when ?_ | refine writes_each fun _ => ?_ | refine writes_ite ?_ ?_ | exact c0 | refine c1 ?_ | exact c2 | refine writes_act (bit_mask hm ?_)
    | ((with_reducible show Nat.testBit _ (Eff.num _) = true); simp only [Eff.num]; rfl) | split | dsimp only [id]

theorem execTeardownReq_writes {m : Nat} (hm : 34359758337 &&& m = 34359758337) (a1 : _) (s : State) : ∃ q : Prog, q.Writes m ∧ execTeardownReq a1 s = s.run q := by
  have c0 := @broadcast_writes m (within_mask hm rfl)
  have c1 := @onTeardown_writes m (within_mask hm rfl)
  refine ⟨_, ?_, rfl⟩
  repeat' first
    | with_reducible first | exact writes_done | exact writes_nil | refine writes_cons ?_ ?_ | refine writes_seq ?_ ?_ | refine writes_look fun _ => ?_ | refine writes_when ?_ | refine writes_each fun _ => ?_ | refine writes_ite ?_ ?_ | exact c0 | refine c1 ?_ | refine writes_act (bit_mask hm ?_)
    | ((with_reducible show Nat.testBit _ (Eff.num _) = true); simp only [Eff.num]; rfl) | split | dsimp only [id]

theorem execTreeChunk_writes {m : Nat} (hm : 34629242369 &&& m = 34629242369) (a1 : _) (s : State) : ∃ q : Prog, q.Writes m ∧ execTreeChunk a1 s = s.run q := by
  have c0 := @grant_writes m (within_mask hm rfl)
  have c1 := @onNotice_writes m (within_mask hm rfl)
  have c2 := @spreadChunk_writes m (within_mask hm rfl)
  refine ⟨_, ?_, rfl⟩
  repeat' first
    | with_reducible first | exact writes_done | exact writes_nil | refine writes_cons ?_ ?_ | refine writes_seq ?_ ?_ | refine writes_look fun _ => ?_ | refine writes_when ?_ | refine writes_each fun _ => ?_ | refine writes_ite ?_ ?_ | exact c0 | refine c1 ?_ | exact c2 | refine writes_act (bit_mask hm ?_)
    | ((with_reducible show Nat.testBit _ (Eff.num _) = true); simp only [Eff.num]; rfl) | split | dsimp only [id]

theorem execTreeJoin_writes {m : Nat} (hm : 34628193793 &&& m = 34628193793) (a1 : _) (s : State) : ∃ q : Prog, q.Writes m ∧ execTreeJoin a1 s = s.run q := by
  have c0 := @adopt_writes m (within_mask hm rfl)
  have c1 := @onNoticeOk_writes m (within_mask hm rfl)
  refine ⟨_, ?_, rfl⟩
  repeat' first
    | with_reducible first | exact writes_done | exact writes_nil | refine writes_cons ?_ ?_ | refine writes_seq ?_ ?_ | refine writes_look fun _ => ?_ | refine writes_when ?_ | refine writes_each fun _ => ?_ | refine writes_ite ?_ ?_ | exact c0 | refine c1 ?_ | refine writes_act (bit_mask hm ?_)
    | ((with_reducible show Nat.testBit _ (Eff.num _) = true); simp only [Eff.num]; rfl) | split | dsimp only [id]

theorem execTreeSilenceTimeout_writes {m : Nat} (hm : 51821698561 &&& m = 51821698561) (s : State) : ∃ q : Prog, q.Writes m ∧ execTreeSilenceTimeout s = s.run q := by
  have c0 := @orphan_writes m (within_mask hm rfl)
  refine ⟨_, ?_, rfl⟩
  repeat' first
    | with_reducible first | exact writes_done | exact writes_nil | refine writes_cons ?_ ?_ | refine writes_seq ?_ ?_ | refine writes_look fun _ => ?_ | refine writes_when ?_ | refine writes_each fun _ => ?_ | refine writes_ite ?_ ?_ | exact c0 | refine writes_act (bit_mask hm ?_)
    | ((with_reducible show Nat.testBit _ (Eff.num _) = true); simp only [Eff.num]; rfl) | split | dsimp only [id]

theorem execTreeWant_writes {m : Nat} (hm : 34629242369 &&& m = 34629242369) (a1 : _) (s : State) : ∃ q : Prog, q.Writes m ∧ execTreeWant a1 s = s.run q := by
  have c0 := @adopt_writes m (within_mask hm rfl)
  have c1 := @onNoticeOk_writes m (within_mask hm rfl)
  have c2 := @sendChunk_writes m (within_mask hm rfl)
  refine ⟨_, ?_, rfl⟩
  repeat' first
    | with_reducible first | exact writes_done | exact writes_nil | refine writes_cons ?_ ?_ | refine writes_seq ?_ ?_ | refine writes_look fun _ => ?_ | refine writes_when ?_ | refine writes_each fun _ => ?_ | refine writes_ite ?_ ?_ | exact c0 | refine c1 ?_ | exact c2 | refine writes_act (bit_mask hm ?_)
    | ((with_reducible show Nat.testBit _ (Eff.num _) = true); simp only [Eff.num]; rfl) | split | dsimp only [id]

theorem execSynAdd_writes {m : Nat} (hm : 43318796161 &&& m = 43318796161) (a1 : _) (s : State) : ∃ q : Prog, q.Writes m ∧ execSynAdd a1 s = s.run q := by
  have c0 := @writeSynAdd_writes m (within_mask hm rfl)
  refine ⟨_, ?_, rfl⟩
  repeat' first
    | with_reducible first | exact writes_done | exact writes_nil | refine writes_cons ?_ ?_ | refine writes_seq ?_ ?_ | refine writes_look fun _ => ?_ | refine writes_when ?_ | refine writes_each fun _ => ?_ | refine writes_ite ?_ ?_ | exact c0 | refine writes_act (bit_mask hm ?_)
    | ((with_reducible show Nat.testBit _ (Eff.num _) = true); simp only [Eff.num]; rfl) | split | dsimp only [id]

theorem execSynBarWrite_writes {m : Nat} (hm : 8589934593 &&& m = 8589934593) (a1 : _) (a2 : _) (s : State) : ∃ q : Prog, q.Writes m ∧ execSynBarWrite a1 a2 s = s.run q := by
  have c0 := @writeSynBar_writes m (within_mask hm rfl)
  refine ⟨_, ?_, rfl⟩
  repeat' first
    | with_reducible first | exact writes_done | exact writes_nil | refine writes_cons ?_ ?_ | refine writes_seq ?_ ?_ | refine writes_look fun _ => ?_ | refine writes_when ?_ | refine writes_each fun _ => ?_ | refine writes_ite ?_ ?_ | exact c0 | refine writes_act (bit_mask hm ?_)
    | ((with_reducible show Nat.testBit _ (Eff.num _) = true); simp only [Eff.num]; rfl) | split | dsimp only [id]

theorem execSynDumpGo_writes {m : Nat} (hm : 42950742023 &&& m = 42950742023) (a1 : _) (s : State) : ∃ q : Prog, q.Writes m ∧ execSynDumpGo a1 s = s.run q := by
  have c0 := @writeSynDump_writes m (within_mask hm rfl)
  refine ⟨_, ?_, rfl⟩
  repeat' first
    | with_reducible first | exact writes_done | exact writes_nil | refine writes_cons ?_ ?_ | refine writes_seq ?_ ?_ | refine writes_look fun _ => ?_ | refine writes_when ?_ | refine writes_each fun _ => ?_ | refine writes_ite ?_ ?_ | exact c0 | refine writes_act (bit_mask hm ?_)
    | ((with_reducible show Nat.testBit _ (Eff.num _) = true); simp only [Eff.num]; rfl) | split | dsimp only [id]

theorem execSynSet_writes {m : Nat} (hm : 43318796161 &&& m = 43318796161) (a1 : _) (s : State) : ∃ q : Prog, q.Writes m ∧ execSynSet a1 s = s.run q := by
  have c0 := @writeSynSet_writes m (within_mask hm rfl)
  refine ⟨_, ?_, rfl⟩
  repeat' first
    | with_reducible first | exact writes_done | exact writes_nil | refine writes_cons ?_ ?_ | refine writes_seq ?_ ?_ | refine writes_look fun _ => ?_ | refine writes_when ?_ | refine writes_each fun _ => ?_ | refine writes_ite ?_ ?_ | exact c0 | refine writes_act (bit_mask hm ?_)
    | ((with_reducible show Nat.testBit _ (Eff.num _) = true); simp only [Eff.num]; rfl) | split | dsimp only [id]

theorem execSynWarmGo_writes {m : Nat} (hm : 42949697281 &&& m = 42949697281) (a1 : _) (s : State) : ∃ q : Prog, q.Writes m ∧ execSynWarmGo a1 s = s.run q := by
  have c0 := @writeSynWarm_writes m (within_mask hm rfl)
  refine ⟨_, ?_, rfl⟩
  repeat' first
    | with_reducible first | exact writes_done | exact writes_nil | refine writes_cons ?_ ?_ | refine writes_seq ?_ ?_ | refine writes_look fun _ => ?_ | refine writes_when ?_ | refine writes_each fun _ => ?_ | refine writes_ite ?_ ?_ | exact c0 | refine writes_act (bit_mask hm ?_)
    | ((with_reducible show Nat.testBit _ (Eff.num _) = true); simp only [Eff.num]; rfl) | split | dsimp only [id]

theorem execSynWinWrite_writes {m : Nat} (hm : 8589934721 &&& m = 8589934721) (a1 : _) (a2 : _) (s : State) : ∃ q : Prog, q.Writes m ∧ execSynWinWrite a1 a2 s = s.run q := by
  have c0 := @writeSynWin_writes m (within_mask hm rfl)
  refine ⟨_, ?_, rfl⟩
  repeat' first
    | with_reducible first | exact writes_done | exact writes_nil | refine writes_cons ?_ ?_ | refine writes_seq ?_ ?_ | refine writes_look fun _ => ?_ | refine writes_when ?_ | refine writes_each fun _ => ?_ | refine writes_ite ?_ ?_ | exact c0 | refine writes_act (bit_mask hm ?_)
    | ((with_reducible show Nat.testBit _ (Eff.num _) = true); simp only [Eff.num]; rfl) | split | dsimp only [id]

theorem execWatchTimeout_writes {m : Nat} (hm : 34733055873 &&& m = 34733055873) (a1 : _) (s : State) : ∃ q : Prog, q.Writes m ∧ execWatchTimeout a1 s = s.run q := by
  have c0 := @dropWatch_writes m (within_mask hm rfl)
  have c1 := @raise_writes m (within_mask hm rfl)
  have c2 := @watchResult_writes m (within_mask hm rfl)
  refine ⟨_, ?_, rfl⟩
  repeat' first
    | with_reducible first | exact writes_done | exact writes_nil | refine writes_cons ?_ ?_ | refine writes_seq ?_ ?_ | refine writes_look fun _ => ?_ | refine writes_when ?_ | refine writes_each fun _ => ?_ | refine writes_ite ?_ ?_ | exact c0 | exact c1 | exact c2 | refine writes_act (bit_mask hm ?_)
    | ((with_reducible show Nat.testBit _ (Eff.num _) = true); simp only [Eff.num]; rfl) | split | dsimp only [id]

theorem execWindowDrainEnd_writes {m : Nat} (hm : 34602286767 &&& m = 34602286767) (s : State) : ∃ q : Prog, q.Writes m ∧ execWindowDrainEnd s = s.run q := by
  have c0 := @shoredCounters_writes m (within_mask hm rfl)
  have c1 := @windowFinal_writes m (within_mask hm rfl)
  refine ⟨_, ?_, rfl⟩
  repeat' first
    | with_reducible first | exact writes_done | exact writes_nil | refine writes_cons ?_ ?_ | refine writes_seq ?_ ?_ | refine writes_look fun _ => ?_ | refine writes_when ?_ | refine writes_each fun _ => ?_ | refine writes_ite ?_ ?_ | exact c0 | exact c1 | refine writes_act (bit_mask hm ?_)
    | ((with_reducible show Nat.testBit _ (Eff.num _) = true); simp only [Eff.num]; rfl) | split | dsimp only [id]

theorem execXferTimeout_writes {m : Nat} (hm : 34365001729 &&& m = 34365001729) (s : State) : ∃ q : Prog, q.Writes m ∧ execXferTimeout s = s.run q := by
  have c0 := @closeLost_writes m (within_mask hm rfl)
  refine ⟨_, ?_, rfl⟩
  repeat' first
    | with_reducible first | exact writes_done | exact writes_nil | refine writes_cons ?_ ?_ | refine writes_seq ?_ ?_ | refine writes_look fun _ => ?_ | refine writes_when ?_ | refine writes_each fun _ => ?_ | refine writes_ite ?_ ?_ | exact c0 | refine writes_act (bit_mask hm ?_)
    | ((with_reducible show Nat.testBit _ (Eff.num _) = true); simp only [Eff.num]; rfl) | split | dsimp only [id]

theorem execKeepalive_writes {m : Nat} (hm : 18432 &&& m = 18432) (a1 : _) (s : State) : ∃ q : Prog, q.Writes m ∧ execKeepalive a1 s = s.run q := by
  have c0 := @heard_writes m (within_mask hm rfl)
  refine ⟨_, ?_, rfl⟩
  repeat' first
    | with_reducible first | exact writes_done | exact writes_nil | refine writes_cons ?_ ?_ | refine writes_seq ?_ ?_ | refine writes_look fun _ => ?_ | refine writes_when ?_ | refine writes_each fun _ => ?_ | refine writes_ite ?_ ?_ | exact c0 | refine writes_act (bit_mask hm ?_)
    | ((with_reducible show Nat.testBit _ (Eff.num _) = true); simp only [Eff.num]; rfl) | split | dsimp only [id]

theorem execKeepaliveTick_writes {m : Nat} (hm : 34359758336 &&& m = 34359758336) (a1 : _) (s : State) : ∃ q : Prog, q.Writes m ∧ execKeepaliveTick a1 s = s.run q := by
  have c0 := @pSend_writes m (within_mask hm rfl)
  refine ⟨_, ?_, rfl⟩
  repeat' first
    | with_reducible first | exact writes_done | exact writes_nil | refine writes_cons ?_ ?_ | refine writes_seq ?_ ?_ | refine writes_look fun _ => ?_ | refine writes_when ?_ | refine writes_each fun _ => ?_ | refine writes_ite ?_ ?_ | exact c0 | refine writes_act (bit_mask hm ?_)
    | ((with_reducible show Nat.testBit _ (Eff.num _) = true); simp only [Eff.num]; rfl) | split | dsimp only [id]

theorem execPeerClose_writes {m : Nat} (hm : 34359758337 &&& m = 34359758337) (a1 : _) (s : State) : ∃ q : Prog, q.Writes m ∧ execPeerClose a1 s = s.run q := by
  have c0 := @countSessions_writes m (within_mask hm rfl)
  have c1 := @heard_writes m (within_mask hm rfl)
  have c2 := @modPeer_writes m (within_mask hm rfl)
  have c3 := @pSend_writes m (within_mask hm rfl)
  refine ⟨_, ?_, rfl⟩
  repeat' first
    | with_reducible first | exact writes_done | exact writes_nil | refine writes_cons ?_ ?_ | refine writes_seq ?_ ?_ | refine writes_look fun _ => ?_ | refine writes_when ?_ | refine writes_each fun _ => ?_ | refine writes_ite ?_ ?_ | exact c0 | exact c1 | exact c2 | exact c3 | refine writes_act (bit_mask hm ?_)
    | ((with_reducible show Nat.testBit _ (Eff.num _) = true); simp only [Eff.num]; rfl) | split | dsimp only [id]

end Sys2Proof.Machine
end

