-- ==== Sys2Proof/Laws/Writes16.lean ====
section
/-! SUPPORT. What each meaning writes (part 4): it takes a next state, by a program whose effects are of these areas. -/

set_option maxRecDepth 16000

namespace Sys2Proof.Machine

theorem execPeerData_writes {m : Nat} (hm : 52613283759 &&& m = 52613283759) (a1 : _) (s : State) : ∃ q : Prog, q.Writes m ∧ execPeerData a1 s = s.run q := by
  have c0 := @advance_writes m (within_mask hm rfl)
  have c1 := @bump_writes m (within_mask hm rfl)
  have c2 := @deferCommand_writes m (within_mask hm rfl)
  have c3 := @dropStale_writes m (within_mask hm rfl)
  have c4 := @grantDone_writes m (within_mask hm rfl)
  have c5 := @heard_writes m (within_mask hm rfl)
  have c6 := @modSync_writes m (within_mask hm rfl)
  have c7 := @packetWritten_writes m (within_mask hm rfl)
  refine ⟨_, ?_, rfl⟩
  repeat' first
    | with_reducible first | exact writes_done | exact writes_nil | refine writes_cons ?_ ?_ | refine writes_seq ?_ ?_ | refine writes_look fun _ => ?_ | refine writes_when ?_ | refine writes_each fun _ => ?_ | refine writes_ite ?_ ?_ | exact c0 | exact c1 | exact c2 | exact c3 | exact c4 | exact c5 | exact c6 | refine c7 (fun _ _ => ?_) | refine writes_act (bit_mask hm ?_)
    | ((with_reducible show Nat.testBit _ (Eff.num _) = true); simp only [Eff.num]; rfl) | split | dsimp only [id]

theorem execPeerOpen_writes {m : Nat} (hm : 52612759431 &&& m = 52612759431) (a1 : _) (s : State) : ∃ q : Prog, q.Writes m ∧ execPeerOpen a1 s = s.run q := by
  have c0 := @goSolo_writes m (within_mask hm rfl)
  have c1 := @modPeer_writes m (within_mask hm rfl)
  have c2 := @pSend_writes m (within_mask hm rfl)
  have c3 := @put_writes m (within_mask hm rfl)
  have c4 := @refuseOpen_writes m (within_mask hm rfl)
  have c5 := @sessionOpened_writes m (within_mask hm rfl)
  have c6 := @withFrees_writes m (within_mask hm rfl)
  have c7 := @withIdentity_writes m (within_mask hm rfl)
  refine ⟨_, ?_, rfl⟩
  repeat' first
    | with_reducible first | exact writes_done | exact writes_nil | refine writes_cons ?_ ?_ | refine writes_seq ?_ ?_ | refine writes_look fun _ => ?_ | refine writes_when ?_ | refine writes_each fun _ => ?_ | refine writes_ite ?_ ?_ | exact c0 | exact c1 | exact c2 | exact c3 | exact c4 | exact c5 | refine c6 (fun _ => ?_) | refine c7 (fun _ => ?_) | refine writes_act (bit_mask hm ?_)
    | ((with_reducible show Nat.testBit _ (Eff.num _) = true); simp only [Eff.num]; rfl) | split | dsimp only [id]

theorem execPeerOpenAck_writes {m : Nat} (hm : 51817504257 &&& m = 51817504257) (a1 : _) (s : State) : ∃ q : Prog, q.Writes m ∧ execPeerOpenAck a1 s = s.run q := by
  have c0 := @modPeer_writes m (within_mask hm rfl)
  have c1 := @openFails_writes m (within_mask hm rfl)
  have c2 := @sessionOpened_writes m (within_mask hm rfl)
  have c3 := @tally_writes m (within_mask hm rfl)
  refine ⟨_, ?_, rfl⟩
  repeat' first
    | with_reducible first | exact writes_done | exact writes_nil | refine writes_cons ?_ ?_ | refine writes_seq ?_ ?_ | refine writes_look fun _ => ?_ | refine writes_when ?_ | refine writes_each fun _ => ?_ | refine writes_ite ?_ ?_ | exact c0 | exact c1 | exact c2 | exact c3 | refine writes_act (bit_mask hm ?_)
    | ((with_reducible show Nat.testBit _ (Eff.num _) = true); simp only [Eff.num]; rfl) | split | dsimp only [id]

theorem execPeerResp_writes {m : Nat} (hm : 52076412847 &&& m = 52076412847) (a1 : _) (s : State) : ∃ q : Prog, q.Writes m ∧ execPeerResp a1 s = s.run q := by
  have c0 := @heard_writes m (within_mask hm rfl)
  have c1 := @modPeer_writes m (within_mask hm rfl)
  have c2 := @noticeAnswered_writes m (within_mask hm rfl)
  have c3 := @openFails_writes m (within_mask hm rfl)
  refine ⟨_, ?_, rfl⟩
  repeat' first
    | with_reducible first | exact writes_done | exact writes_nil | refine writes_cons ?_ ?_ | refine writes_seq ?_ ?_ | refine writes_look fun _ => ?_ | refine writes_when ?_ | refine writes_each fun _ => ?_ | refine writes_ite ?_ ?_ | exact c0 | exact c1 | exact c2 | exact c3 | refine writes_act (bit_mask hm ?_)
    | ((with_reducible show Nat.testBit _ (Eff.num _) = true); simp only [Eff.num]; rfl) | split | dsimp only [id]

theorem execPeerSignal_writes {m : Nat} (hm : 34728861569 &&& m = 34728861569) (a1 : _) (s : State) : ∃ q : Prog, q.Writes m ∧ execPeerSignal a1 s = s.run q := by
  have c0 := @advance_writes m (within_mask hm rfl)
  have c1 := @dropStale_writes m (within_mask hm rfl)
  have c2 := @onPeer_writes m (within_mask hm rfl)
  refine ⟨_, ?_, rfl⟩
  repeat' first
    | with_reducible first | exact writes_done | exact writes_nil | refine writes_cons ?_ ?_ | refine writes_seq ?_ ?_ | refine writes_look fun _ => ?_ | refine writes_when ?_ | refine writes_each fun _ => ?_ | refine writes_ite ?_ ?_ | exact c0 | exact c1 | refine c2 (fun _ => ?_) ?_ | refine writes_act (bit_mask hm ?_)
    | ((with_reducible show Nat.testBit _ (Eff.num _) = true); simp only [Eff.num]; rfl) | split | dsimp only [id]

theorem execSessionLost_writes {m : Nat} (hm : 52455038849 &&& m = 52455038849) (a1 : _) (s : State) : ∃ q : Prog, q.Writes m ∧ execSessionLost a1 s = s.run q := by
  have c0 := @closeLost_writes m (within_mask hm rfl)
  have c1 := @modHold_writes m (within_mask hm rfl)
  have c2 := @modPeer_writes m (within_mask hm rfl)
  have c3 := @modSync_writes m (within_mask hm rfl)
  have c4 := @openSession_writes m (within_mask hm rfl)
  have c5 := @orphan_writes m (within_mask hm rfl)
  have c6 := @raise_writes m (within_mask hm rfl)
  have c7 := @tookAnswers_writes m (within_mask hm rfl)
  refine ⟨_, ?_, rfl⟩
  repeat' first
    | with_reducible first | exact writes_done | exact writes_nil | refine writes_cons ?_ ?_ | refine writes_seq ?_ ?_ | refine writes_look fun _ => ?_ | refine writes_when ?_ | refine writes_each fun _ => ?_ | refine writes_ite ?_ ?_ | exact c0 | exact c1 | exact c2 | exact c3 | exact c4 | exact c5 | exact c6 | exact c7 | refine writes_act (bit_mask hm ?_)
    | ((with_reducible show Nat.testBit _ (Eff.num _) = true); simp only [Eff.num]; rfl) | split | dsimp only [id]

theorem execSessionOpenTimeout_writes {m : Nat} (hm : 1050625 &&& m = 1050625) (a1 : _) (s : State) : ∃ q : Prog, q.Writes m ∧ execSessionOpenTimeout a1 s = s.run q := by
  have c0 := @openFails_writes m (within_mask hm rfl)
  refine ⟨_, ?_, rfl⟩
  repeat' first
    | with_reducible first | exact writes_done | exact writes_nil | refine writes_cons ?_ ?_ | refine writes_seq ?_ ?_ | refine writes_look fun _ => ?_ | refine writes_when ?_ | refine writes_each fun _ => ?_ | refine writes_ite ?_ ?_ | exact c0 | refine writes_act (bit_mask hm ?_)
    | ((with_reducible show Nat.testBit _ (Eff.num _) = true); simp only [Eff.num]; rfl) | split | dsimp only [id]

theorem execWatchFire_writes {m : Nat} (hm : 34359756801 &&& m = 34359756801) (a1 : _) (s : State) : ∃ q : Prog, q.Writes m ∧ execWatchFire a1 s = s.run q := by
  have c0 := @dropStale_writes m (within_mask hm rfl)
  have c1 := @onPeer_writes m (within_mask hm rfl)
  have c2 := @send_writes m (within_mask hm rfl)
  refine ⟨_, ?_, rfl⟩
  repeat' first
    | with_reducible first | exact writes_done | exact writes_nil | refine writes_cons ?_ ?_ | refine writes_seq ?_ ?_ | refine writes_look fun _ => ?_ | refine writes_when ?_ | refine writes_each fun _ => ?_ | refine writes_ite ?_ ?_ | exact c0 | refine c1 (fun _ => ?_) ?_ | exact c2 | refine writes_act (bit_mask hm ?_)
    | ((with_reducible show Nat.testBit _ (Eff.num _) = true); simp only [Eff.num]; rfl) | split | dsimp only [id]

theorem execWatchReq_writes {m : Nat} (hm : 34359762689 &&& m = 34359762689) (a1 : _) (s : State) : ∃ q : Prog, q.Writes m ∧ execWatchReq a1 s = s.run q := by
  have c0 := @armOther_writes m (within_mask hm rfl)
  have c1 := @onPeer_writes m (within_mask hm rfl)
  have c2 := @pSend_writes m (within_mask hm rfl)
  refine ⟨_, ?_, rfl⟩
  repeat' first
    | with_reducible first | exact writes_done | exact writes_nil | refine writes_cons ?_ ?_ | refine writes_seq ?_ ?_ | refine writes_look fun _ => ?_ | refine writes_when ?_ | refine writes_each fun _ => ?_ | refine writes_ite ?_ ?_ | refine c0 (fun _ _ => ?_) | refine c1 (fun _ => ?_) ?_ | exact c2 | refine writes_act (bit_mask hm ?_)
    | ((with_reducible show Nat.testBit _ (Eff.num _) = true); simp only [Eff.num]; rfl) | split | dsimp only [id]

theorem execGangChangeApply_writes {m : Nat} (hm : 52051115951 &&& m = 52051115951) (a1 : _) (s : State) : ∃ q : Prog, q.Writes m ∧ execGangChangeApply a1 s = s.run q := by
  have c0 := @modTile_writes m (within_mask hm rfl)
  have c1 := @tilePump_writes m (within_mask hm rfl)
  refine ⟨_, ?_, rfl⟩
  repeat' first
    | with_reducible first | exact writes_done | exact writes_nil | refine writes_cons ?_ ?_ | refine writes_seq ?_ ?_ | refine writes_look fun _ => ?_ | refine writes_when ?_ | refine writes_each fun _ => ?_ | refine writes_ite ?_ ?_ | exact c0 | exact c1 | refine writes_act (bit_mask hm ?_)
    | ((with_reducible show Nat.testBit _ (Eff.num _) = true); simp only [Eff.num]; rfl) | split | dsimp only [id]

theorem execMvTransferComplete_writes {m : Nat} (hm : 52051115951 &&& m = 52051115951) (a1 : _) (a2 : _) (s : State) : ∃ q : Prog, q.Writes m ∧ execMvTransferComplete a1 a2 s = s.run q := by
  have c0 := @finishMove_writes m (within_mask hm rfl)
  refine ⟨_, ?_, rfl⟩
  repeat' first
    | with_reducible first | exact writes_done | exact writes_nil | refine writes_cons ?_ ?_ | refine writes_seq ?_ ?_ | refine writes_look fun _ => ?_ | refine writes_when ?_ | refine writes_each fun _ => ?_ | refine writes_ite ?_ ?_ | exact c0 | refine writes_act (bit_mask hm ?_)
    | ((with_reducible show Nat.testBit _ (Eff.num _) = true); simp only [Eff.num]; rfl) | split | dsimp only [id]

theorem execPassComplete_writes {m : Nat} (hm : 52051115951 &&& m = 52051115951) (a1 : _) (a2 : _) (s : State) : ∃ q : Prog, q.Writes m ∧ execPassComplete a1 a2 s = s.run q := by
  have c0 := @finishPass_writes m (within_mask hm rfl)
  have c1 := @settle_writes m (within_mask hm rfl)
  have c2 := @tilePump_writes m (within_mask hm rfl)
  refine ⟨_, ?_, rfl⟩
  repeat' first
    | with_reducible first | exact writes_done | exact writes_nil | refine writes_cons ?_ ?_ | refine writes_seq ?_ ?_ | refine writes_look fun _ => ?_ | refine writes_when ?_ | refine writes_each fun _ => ?_ | refine writes_ite ?_ ?_ | exact c0 | exact c1 | exact c2 | refine writes_act (bit_mask hm ?_)
    | ((with_reducible show Nat.testBit _ (Eff.num _) = true); simp only [Eff.num]; rfl) | split | dsimp only [id]

theorem execTileEnWrite_writes {m : Nat} (hm : 60641050543 &&& m = 60641050543) (a1 : _) (a2 : _) (s : State) : ∃ q : Prog, q.Writes m ∧ execTileEnWrite a1 a2 s = s.run q := by
  have c0 := @writeTleCtrl_writes m (within_mask hm rfl)
  refine ⟨_, ?_, rfl⟩
  repeat' first
    | with_reducible first | exact writes_done | exact writes_nil | refine writes_cons ?_ ?_ | refine writes_seq ?_ ?_ | refine writes_look fun _ => ?_ | refine writes_when ?_ | refine writes_each fun _ => ?_ | refine writes_ite ?_ ?_ | exact c0 | refine writes_act (bit_mask hm ?_)
    | ((with_reducible show Nat.testBit _ (Eff.num _) = true); simp only [Eff.num]; rfl) | split | dsimp only [id]

theorem execTileStop_writes {m : Nat} (hm : 60641050543 &&& m = 60641050543) (a1 : _) (a2 : _) (s : State) : ∃ q : Prog, q.Writes m ∧ execTileStop a1 a2 s = s.run q := by
  have c0 := @writeTleCtrl_writes m (within_mask hm rfl)
  refine ⟨_, ?_, rfl⟩
  repeat' first
    | with_reducible first | exact writes_done | exact writes_nil | refine writes_cons ?_ ?_ | refine writes_seq ?_ ?_ | refine writes_look fun _ => ?_ | refine writes_when ?_ | refine writes_each fun _ => ?_ | refine writes_ite ?_ ?_ | exact c0 | refine writes_act (bit_mask hm ?_)
    | ((with_reducible show Nat.testBit _ (Eff.num _) = true); simp only [Eff.num]; rfl) | split | dsimp only [id]

theorem execTleErrValidClear_writes {m : Nat} (hm : 8589934600 &&& m = 8589934600) (a1 : _) (a2 : _) (s : State) : ∃ q : Prog, q.Writes m ∧ execTleErrValidClear a1 a2 s = s.run q := by
  have c0 := @writeTleErr_writes m (within_mask hm rfl)
  refine ⟨_, ?_, rfl⟩
  repeat' first
    | with_reducible first | exact writes_done | exact writes_nil | refine writes_cons ?_ ?_ | refine writes_seq ?_ ?_ | refine writes_look fun _ => ?_ | refine writes_when ?_ | refine writes_each fun _ => ?_ | refine writes_ite ?_ ?_ | exact c0 | refine writes_act (bit_mask hm ?_)
    | ((with_reducible show Nat.testBit _ (Eff.num _) = true); simp only [Eff.num]; rfl) | split | dsimp only [id]

theorem execWaitLimitExpire_writes {m : Nat} (hm : 34602286767 &&& m = 34602286767) (a1 : _) (a2 : _) (s : State) : ∃ q : Prog, q.Writes m ∧ execWaitLimitExpire a1 a2 s = s.run q := by
  have c0 := @exception_writes m (within_mask hm rfl)
  have c1 := @modTile_writes m (within_mask hm rfl)
  refine ⟨_, ?_, rfl⟩
  repeat' first
    | with_reducible first | exact writes_done | exact writes_nil | refine writes_cons ?_ ?_ | refine writes_seq ?_ ?_ | refine writes_look fun _ => ?_ | refine writes_when ?_ | refine writes_each fun _ => ?_ | refine writes_ite ?_ ?_ | exact c0 | exact c1 | refine writes_act (bit_mask hm ?_)
    | ((with_reducible show Nat.testBit _ (Eff.num _) = true); simp only [Eff.num]; rfl) | split | dsimp only [id]

theorem execWaitSatisfied_writes {m : Nat} (hm : 52051115951 &&& m = 52051115951) (a1 : _) (a2 : _) (s : State) : ∃ q : Prog, q.Writes m ∧ execWaitSatisfied a1 a2 s = s.run q := by
  have c0 := @modTile_writes m (within_mask hm rfl)
  have c1 := @tilePump_writes m (within_mask hm rfl)
  refine ⟨_, ?_, rfl⟩
  repeat' first
    | with_reducible first | exact writes_done | exact writes_nil | refine writes_cons ?_ ?_ | refine writes_seq ?_ ?_ | refine writes_look fun _ => ?_ | refine writes_when ?_ | refine writes_each fun _ => ?_ | refine writes_ite ?_ ?_ | exact c0 | exact c1 | refine writes_act (bit_mask hm ?_)
    | ((with_reducible show Nat.testBit _ (Eff.num _) = true); simp only [Eff.num]; rfl) | split | dsimp only [id]

theorem execCleanWrite_writes {m : Nat} (hm : 34500538383 &&& m = 34500538383) (a1 : _) (a2 : _) (s : State) : ∃ q : Prog, q.Writes m ∧ execCleanWrite a1 a2 s = s.run q := by
  have c0 := @countHomes_writes m (within_mask hm rfl)
  have c1 := @discardGuest_writes m (within_mask hm rfl)
  have c2 := @editLeaf_writes m (within_mask hm rfl)
  have c3 := @modPage_writes m (within_mask hm rfl)
  have c4 := @moveChecked_writes m (within_mask hm rfl)
  have c5 := @tallyClass_writes m (within_mask hm rfl)
  refine ⟨_, ?_, rfl⟩
  repeat' first
    | with_reducible first | exact writes_done | exact writes_nil | refine writes_cons ?_ ?_ | refine writes_seq ?_ ?_ | refine writes_look fun _ => ?_ | refine writes_when ?_ | refine writes_each fun _ => ?_ | refine writes_ite ?_ ?_ | exact c0 | exact c1 | exact c2 | exact c3 | refine c4 ?_ ?_ | exact c5 | refine writes_act (bit_mask hm ?_)
    | ((with_reducible show Nat.testBit _ (Eff.num _) = true); simp only [Eff.num]; rfl) | split | dsimp only [id]

theorem execGuestResume_writes {m : Nat} (hm : 52051115967 &&& m = 52051115967) (a1 : _) (s : State) : ∃ q : Prog, q.Writes m ∧ execGuestResume a1 s = s.run q := by
  have c0 := @discardGuest_writes m (within_mask hm rfl)
  have c1 := @integrityOwn_writes m (within_mask hm rfl)
  have c2 := @modMmu_writes m (within_mask hm rfl)
  have c3 := @restoreTile_writes m (within_mask hm rfl)
  have c4 := @startTile_writes m (within_mask hm rfl)
  refine ⟨_, ?_, rfl⟩
  repeat' first
    | with_reducible first | exact writes_done | exact writes_nil | refine writes_cons ?_ ?_ | refine writes_seq ?_ ?_ | refine writes_look fun _ => ?_ | refine writes_when ?_ | refine writes_each fun _ => ?_ | refine writes_ite ?_ ?_ | exact c0 | exact c1 | exact c2 | exact c3 | exact c4 | refine writes_act (bit_mask hm ?_)
    | ((with_reducible show Nat.testBit _ (Eff.num _) = true); simp only [Eff.num]; rfl) | split | dsimp only [id]

theorem execMmuFault_writes {m : Nat} (hm : 34602286831 &&& m = 34602286831) (a1 : _) (s : State) : ∃ q : Prog, q.Writes m ∧ execMmuFault a1 s = s.run q := by
  have c0 := @deliverMove_writes m (within_mask hm rfl)
  have c1 := @modTile_writes m (within_mask hm rfl)
  have c2 := @raiseFault_writes m (within_mask hm rfl)
  refine ⟨_, ?_, rfl⟩
  repeat' first
    | with_reducible first | exact writes_done | exact writes_nil | refine writes_cons ?_ ?_ | refine writes_seq ?_ ?_ | refine writes_look fun _ => ?_ | refine writes_when ?_ | refine writes_each fun _ => ?_ | refine writes_ite ?_ ?_ | exact c0 | exact c1 | exact c2 | refine writes_act (bit_mask hm ?_)
    | ((with_reducible show Nat.testBit _ (Eff.num _) = true); simp only [Eff.num]; rfl) | split | dsimp only [id]

theorem execMmuFresumeAbort_writes {m : Nat} (hm : 43192221423 &&& m = 43192221423) (a1 : _) (s : State) : ∃ q : Prog, q.Writes m ∧ execMmuFresumeAbort a1 s = s.run q := by
  have c0 := @writeFresume_writes m (within_mask hm rfl)
  refine ⟨_, ?_, rfl⟩
  repeat' first
    | with_reducible first | exact writes_done | exact writes_nil | refine writes_cons ?_ ?_ | refine writes_seq ?_ ?_ | refine writes_look fun _ => ?_ | refine writes_when ?_ | refine writes_each fun _ => ?_ | refine writes_ite ?_ ?_ | exact c0 | refine writes_act (bit_mask hm ?_)
    | ((with_reducible show Nat.testBit _ (Eff.num _) = true); simp only [Eff.num]; rfl) | split | dsimp only [id]

theorem execMmuFresumeResume_writes {m : Nat} (hm : 43192221423 &&& m = 43192221423) (a1 : _) (s : State) : ∃ q : Prog, q.Writes m ∧ execMmuFresumeResume a1 s = s.run q := by
  have c0 := @writeFresume_writes m (within_mask hm rfl)
  refine ⟨_, ?_, rfl⟩
  repeat' first
    | with_reducible first | exact writes_done | exact writes_nil | refine writes_cons ?_ ?_ | refine writes_seq ?_ ?_ | refine writes_look fun _ => ?_ | refine writes_when ?_ | refine writes_each fun _ => ?_ | refine writes_ite ?_ ?_ | exact c0 | refine writes_act (bit_mask hm ?_)
    | ((with_reducible show Nat.testBit _ (Eff.num _) = true); simp only [Eff.num]; rfl) | split | dsimp only [id]

theorem execMmuInvAll_writes {m : Nat} (hm : 8589934593 &&& m = 8589934593) (a1 : _) (s : State) : ∃ q : Prog, q.Writes m ∧ execMmuInvAll a1 s = s.run q := by
  have c0 := @writeInv_writes m (within_mask hm rfl)
  refine ⟨_, ?_, rfl⟩
  repeat' first
    | with_reducible first | exact writes_done | exact writes_nil | refine writes_cons ?_ ?_ | refine writes_seq ?_ ?_ | refine writes_look fun _ => ?_ | refine writes_when ?_ | refine writes_each fun _ => ?_ | refine writes_ite ?_ ?_ | exact c0 | refine writes_act (bit_mask hm ?_)
    | ((with_reducible show Nat.testBit _ (Eff.num _) = true); simp only [Eff.num]; rfl) | split | dsimp only [id]

theorem execMmuInvComplete_writes {m : Nat} (hm : 1 &&& m = 1) (s : State) : ∃ q : Prog, q.Writes m ∧ execMmuInvComplete s = s.run q := by
  have c0 := @put_writes m (within_mask hm rfl)
  refine ⟨_, ?_, rfl⟩
  repeat' first
    | with_reducible first | exact writes_done | exact writes_nil | refine writes_cons ?_ ?_ | refine writes_seq ?_ ?_ | refine writes_look fun _ => ?_ | refine writes_when ?_ | refine writes_each fun _ => ?_ | refine writes_ite ?_ ?_ | exact c0 | refine writes_act (bit_mask hm ?_)
    | ((with_reducible show Nat.testBit _ (Eff.num _) = true); simp only [Eff.num]; rfl) | split | dsimp only [id]

theorem execMmuInvContext_writes {m : Nat} (hm : 8589934593 &&& m = 8589934593) (a1 : _) (s : State) : ∃ q : Prog, q.Writes m ∧ execMmuInvContext a1 s = s.run q := by
  have c0 := @writeInv_writes m (within_mask hm rfl)
  refine ⟨_, ?_, rfl⟩
  repeat' first
    | with_reducible first | exact writes_done | exact writes_nil | refine writes_cons ?_ ?_ | refine writes_seq ?_ ?_ | refine writes_look fun _ => ?_ | refine writes_when ?_ | refine writes_each fun _ => ?_ | refine writes_ite ?_ ?_ | exact c0 | refine writes_act (bit_mask hm ?_)
    | ((with_reducible show Nat.testBit _ (Eff.num _) = true); simp only [Eff.num]; rfl) | split | dsimp only [id]

theorem execMmuInvPage_writes {m : Nat} (hm : 8589934593 &&& m = 8589934593) (a1 : _) (s : State) : ∃ q : Prog, q.Writes m ∧ execMmuInvPage a1 s = s.run q := by
  have c0 := @writeInv_writes m (within_mask hm rfl)
  refine ⟨_, ?_, rfl⟩
  repeat' first
    | with_reducible first | exact writes_done | exact writes_nil | refine writes_cons ?_ ?_ | refine writes_seq ?_ ?_ | refine writes_look fun _ => ?_ | refine writes_when ?_ | refine writes_each fun _ => ?_ | refine writes_ite ?_ ?_ | exact c0 | refine writes_act (bit_mask hm ?_)
    | ((with_reducible show Nat.testBit _ (Eff.num _) = true); simp only [Eff.num]; rfl) | split | dsimp only [id]

theorem execMmuPartWrite_writes {m : Nat} (hm : 8589934593 &&& m = 8589934593) (a1 : _) (s : State) : ∃ q : Prog, q.Writes m ∧ execMmuPartWrite a1 s = s.run q := by
  have c0 := @writeMmuPart_writes m (within_mask hm rfl)
  refine ⟨_, ?_, rfl⟩
  repeat' first
    | with_reducible first | exact writes_done | exact writes_nil | refine writes_cons ?_ ?_ | refine writes_seq ?_ ?_ | refine writes_look fun _ => ?_ | refine writes_when ?_ | refine writes_each fun _ => ?_ | refine writes_ite ?_ ?_ | exact c0 | refine writes_act (bit_mask hm ?_)
    | ((with_reducible show Nat.testBit _ (Eff.num _) = true); simp only [Eff.num]; rfl) | split | dsimp only [id]

theorem execPatrolScrub_writes {m : Nat} (hm : 1 &&& m = 1) (a1 : _) (a2 : _) (s : State) : ∃ q : Prog, q.Writes m ∧ execPatrolScrub a1 a2 s = s.run q := by
  have c0 := @bump_writes m (within_mask hm rfl)
  refine ⟨_, ?_, rfl⟩
  repeat' first
    | with_reducible first | exact writes_done | exact writes_nil | refine writes_cons ?_ ?_ | refine writes_seq ?_ ?_ | refine writes_look fun _ => ?_ | refine writes_when ?_ | refine writes_each fun _ => ?_ | refine writes_ite ?_ ?_ | exact c0 | refine writes_act (bit_mask hm ?_)
    | ((with_reducible show Nat.testBit _ (Eff.num _) = true); simp only [Eff.num]; rfl) | split | dsimp only [id]

theorem execDmaDescriptor_writes {m : Nat} (hm : 52051116015 &&& m = 52051116015) (a1 : _) (s : State) : ∃ q : Prog, q.Writes m ∧ execDmaDescriptor a1 s = s.run q := by
  have c0 := @beginDescriptor_writes m (within_mask hm rfl)
  have c1 := @modChan_writes m (within_mask hm rfl)
  refine ⟨_, ?_, rfl⟩
  repeat' first
    | with_reducible first | exact writes_done | exact writes_nil | refine writes_cons ?_ ?_ | refine writes_seq ?_ ?_ | refine writes_look fun _ => ?_ | refine writes_when ?_ | refine writes_each fun _ => ?_ | refine writes_ite ?_ ?_ | exact c0 | exact c1 | refine writes_act (bit_mask hm ?_)
    | ((with_reducible show Nat.testBit _ (Eff.num _) = true); simp only [Eff.num]; rfl) | split | dsimp only [id]

theorem execDmaEnWrite_writes {m : Nat} (hm : 8589934593 &&& m = 8589934593) (a1 : _) (a2 : _) (s : State) : ∃ q : Prog, q.Writes m ∧ execDmaEnWrite a1 a2 s = s.run q := by
  have c0 := @writeDmaCtrl_writes m (within_mask hm rfl)
  refine ⟨_, ?_, rfl⟩
  repeat' first
    | with_reducible first | exact writes_done | exact writes_nil | refine writes_cons ?_ ?_ | refine writes_seq ?_ ?_ | refine writes_look fun _ => ?_ | refine writes_when ?_ | refine writes_each fun _ => ?_ | refine writes_ite ?_ ?_ | exact c0 | refine writes_act (bit_mask hm ?_)
    | ((with_reducible show Nat.testBit _ (Eff.num _) = true); simp only [Eff.num]; rfl) | split | dsimp only [id]

theorem execDmaFragmentDone_writes {m : Nat} (hm : 52051116015 &&& m = 52051116015) (a1 : _) (s : State) : ∃ q : Prog, q.Writes m ∧ execDmaFragmentDone a1 s = s.run q := by
  have c0 := @countAfter_writes m (within_mask hm rfl)
  have c1 := @doFragment_writes m (within_mask hm rfl)
  refine ⟨_, ?_, rfl⟩
  repeat' first
    | with_reducible first | exact writes_done | exact writes_nil | refine writes_cons ?_ ?_ | refine writes_seq ?_ ?_ | refine writes_look fun _ => ?_ | refine writes_when ?_ | refine writes_each fun _ => ?_ | refine writes_ite ?_ ?_ | exact c0 | exact c1 | refine writes_act (bit_mask hm ?_)
    | ((with_reducible show Nat.testBit _ (Eff.num _) = true); simp only [Eff.num]; rfl) | split | dsimp only [id]

theorem execDmaStop_writes {m : Nat} (hm : 8589934593 &&& m = 8589934593) (a1 : _) (a2 : _) (s : State) : ∃ q : Prog, q.Writes m ∧ execDmaStop a1 a2 s = s.run q := by
  have c0 := @writeDmaCtrl_writes m (within_mask hm rfl)
  refine ⟨_, ?_, rfl⟩
  repeat' first
    | with_reducible first | exact writes_done | exact writes_nil | refine writes_cons ?_ ?_ | refine writes_seq ?_ ?_ | refine writes_look fun _ => ?_ | refine writes_when ?_ | refine writes_each fun _ => ?_ | refine writes_ite ?_ ?_ | exact c0 | refine writes_act (bit_mask hm ?_)
    | ((with_reducible show Nat.testBit _ (Eff.num _) = true); simp only [Eff.num]; rfl) | split | dsimp only [id]

theorem execDmaTailWrite_writes {m : Nat} (hm : 8589934593 &&& m = 8589934593) (a1 : _) (a2 : _) (s : State) : ∃ q : Prog, q.Writes m ∧ execDmaTailWrite a1 a2 s = s.run q := by
  have c0 := @complete_writes m (within_mask hm rfl)
  have c1 := @put_writes m (within_mask hm rfl)
  refine ⟨_, ?_, rfl⟩
  repeat' first
    | with_reducible first | exact writes_done | exact writes_nil | refine writes_cons ?_ ?_ | refine writes_seq ?_ ?_ | refine writes_look fun _ => ?_ | refine writes_when ?_ | refine writes_each fun _ => ?_ | refine writes_ite ?_ ?_ | exact c0 | exact c1 | refine writes_act (bit_mask hm ?_)
    | ((with_reducible show Nat.testBit _ (Eff.num _) = true); simp only [Eff.num]; rfl) | split | dsimp only [id]

theorem execRoleTriggerDequeue_writes {m : Nat} (hm : 51933806271 &&& m = 51933806271) (s : State) : ∃ q : Prog, q.Writes m ∧ execRoleTriggerDequeue s = s.run q := by
  have c0 := @coverSlot_writes m (within_mask hm rfl)
  have c1 := @deferCommand_writes m (within_mask hm rfl)
  have c2 := @modMode_writes m (within_mask hm rfl)
  have c3 := @quarantine_writes m (within_mask hm rfl)
  have c4 := @startShoring_writes m (within_mask hm rfl)
  have c5 := @takeOver_writes m (within_mask hm rfl)
  refine ⟨_, ?_, rfl⟩
  repeat' first
    | with_reducible first | exact writes_done | exact writes_nil | refine writes_cons ?_ ?_ | refine writes_seq ?_ ?_ | refine writes_look fun _ => ?_ | refine writes_when ?_ | refine writes_each fun _ => ?_ | refine writes_ite ?_ ?_ | exact c0 | exact c1 | exact c2 | exact c3 | exact c4 | exact c5 | refine writes_act (bit_mask hm ?_)
    | ((with_reducible show Nat.testBit _ (Eff.num _) = true); simp only [Eff.num]; rfl) | split | dsimp only [id]

theorem execBankedWakeDone_writes {m : Nat} (hm : 1152636616687 &&& m = 1152636616687) (s : State) : ∃ q : Prog, q.Writes m ∧ execBankedWakeDone s = s.run q := by
  have c0 := @enterRole_writes m (within_mask hm rfl)
  have c1 := @haltIfHeld_writes m (within_mask hm rfl)
  have c2 := @modMode_writes m (within_mask hm rfl)
  have c3 := @modRst_writes m (within_mask hm rfl)
  have c4 := @orderReset_writes m (within_mask hm rfl)
  have c5 := @startTile_writes m (within_mask hm rfl)
  refine ⟨_, ?_, rfl⟩
  repeat' first
    | with_reducible first | exact writes_done | exact writes_nil | refine writes_cons ?_ ?_ | refine writes_seq ?_ ?_ | refine writes_look fun _ => ?_ | refine writes_when ?_ | refine writes_each fun _ => ?_ | refine writes_ite ?_ ?_ | exact c0 | exact c1 | exact c2 | exact c3 | exact c4 | exact c5 | refine writes_act (bit_mask hm ?_)
    | ((with_reducible show Nat.testBit _ (Eff.num _) = true); simp only [Eff.num]; rfl) | split | dsimp only [id]

theorem execCcWatchdog_writes {m : Nat} (hm : 1152653393647 &&& m = 1152653393647) (a1 : _) (s : State) : ∃ q : Prog, q.Writes m ∧ execCcWatchdog a1 s = s.run q := by
  have c0 := @watchdog_writes m (within_mask hm rfl)
  refine ⟨_, ?_, rfl⟩
  repeat' first
    | with_reducible first | exact writes_done | exact writes_nil | refine writes_cons ?_ ?_ | refine writes_seq ?_ ?_ | refine writes_look fun _ => ?_ | refine writes_when ?_ | refine writes_each fun _ => ?_ | refine writes_ite ?_ ?_ | exact c0 | refine writes_act (bit_mask hm ?_)
    | ((with_reducible show Nat.testBit _ (Eff.num _) = true); simp only [Eff.num]; rfl) | split | dsimp only [id]

theorem execDmaStopDone_writes {m : Nat} (hm : 1152368180991 &&& m = 1152368180991) (a1 : _) (s : State) : ∃ q : Prog, q.Writes m ∧ execDmaStopDone a1 s = s.run q := by
  have c0 := @frozen_writes m (within_mask hm rfl)
  have c1 := @stopChannel_writes m (within_mask hm rfl)
  have c2 := @stopsEnded_writes m (within_mask hm rfl)
  refine ⟨_, ?_, rfl⟩
  repeat' first
    | with_reducible first | exact writes_done | exact writes_nil | refine writes_cons ?_ ?_ | refine writes_seq ?_ ?_ | refine writes_look fun _ => ?_ | refine writes_when ?_ | refine writes_each fun _ => ?_ | refine writes_ite ?_ ?_ | exact c0 | exact c1 | exact c2 | refine writes_act (bit_mask hm ?_)
    | ((with_reducible show Nat.testBit _ (Eff.num _) = true); simp only [Eff.num]; rfl) | split | dsimp only [id]

theorem execDmaWatchdog_writes {m : Nat} (hm : 1152653393647 &&& m = 1152653393647) (a1 : _) (s : State) : ∃ q : Prog, q.Writes m ∧ execDmaWatchdog a1 s = s.run q := by
  have c0 := @watchdog_writes m (within_mask hm rfl)
  refine ⟨_, ?_, rfl⟩
  repeat' first
    | with_reducible first | exact writes_done | exact writes_nil | refine writes_cons ?_ ?_ | refine writes_seq ?_ ?_ | refine writes_look fun _ => ?_ | refine writes_when ?_ | refine writes_each fun _ => ?_ | refine writes_ite ?_ ?_ | exact c0 | refine writes_act (bit_mask hm ?_)
    | ((with_reducible show Nat.testBit _ (Eff.num _) = true); simp only [Eff.num]; rfl) | split | dsimp only [id]

theorem execE3FenceTimeout_writes {m : Nat} (hm : 1135019620367 &&& m = 1135019620367) (s : State) : ∃ q : Prog, q.Writes m ∧ execE3FenceTimeout s = s.run q := by
  have c0 := @assertE3_writes m (within_mask hm rfl)
  have c1 := @put_writes m (within_mask hm rfl)
  refine ⟨_, ?_, rfl⟩
  repeat' first
    | with_reducible first | exact writes_done | exact writes_nil | refine writes_cons ?_ ?_ | refine writes_seq ?_ ?_ | refine writes_look fun _ => ?_ | refine writes_when ?_ | refine writes_each fun _ => ?_ | refine writes_ite ?_ ?_ | exact c0 | exact c1 | refine writes_act (bit_mask hm ?_)
    | ((with_reducible show Nat.testBit _ (Eff.num _) = true); simp only [Eff.num]; rfl) | split | dsimp only [id]

theorem execE4PowerHoldEnd_writes {m : Nat} (hm : 35433480193 &&& m = 35433480193) (a1 : _) (s : State) : ∃ q : Prog, q.Writes m ∧ execE4PowerHoldEnd a1 s = s.run q := by
  have c0 := @endReset_writes m (within_mask hm rfl)
  have c1 := @modRst_writes m (within_mask hm rfl)
  have c2 := @slotPower_writes m (within_mask hm rfl)
  have c3 := @xcnPower_writes m (within_mask hm rfl)
  refine ⟨_, ?_, rfl⟩
  repeat' first
    | with_reducible first | exact writes_done | exact writes_nil | refine writes_cons ?_ ?_ | refine writes_seq ?_ ?_ | refine writes_look fun _ => ?_ | refine writes_when ?_ | refine writes_each fun _ => ?_ | refine writes_ite ?_ ?_ | exact c0 | exact c1 | exact c2 | exact c3 | refine writes_act (bit_mask hm ?_)
    | ((with_reducible show Nat.testBit _ (Eff.num _) = true); simp only [Eff.num]; rfl) | split | dsimp only [id]

theorem execFaultWatchdog_writes {m : Nat} (hm : 1152653393647 &&& m = 1152653393647) (a1 : _) (s : State) : ∃ q : Prog, q.Writes m ∧ execFaultWatchdog a1 s = s.run q := by
  have c0 := @watchdog_writes m (within_mask hm rfl)
  refine ⟨_, ?_, rfl⟩
  repeat' first
    | with_reducible first | exact writes_done | exact writes_nil | refine writes_cons ?_ ?_ | refine writes_seq ?_ ?_ | refine writes_look fun _ => ?_ | refine writes_when ?_ | refine writes_each fun _ => ?_ | refine writes_ite ?_ ?_ | exact c0 | refine writes_act (bit_mask hm ?_)
    | ((with_reducible show Nat.testBit _ (Eff.num _) = true); simp only [Eff.num]; rfl) | split | dsimp only [id]

theorem execResetDrainTimeout_writes {m : Nat} (hm : 52856553199 &&& m = 52856553199) (a1 : _) (s : State) : ∃ q : Prog, q.Writes m ∧ execResetDrainTimeout a1 s = s.run q := by
  have c0 := @finishLow_writes m (within_mask hm rfl)
  refine ⟨_, ?_, rfl⟩
  repeat' first
    | with_reducible first | exact writes_done | exact writes_nil | refine writes_cons ?_ ?_ | refine writes_seq ?_ ?_ | refine writes_look fun _ => ?_ | refine writes_when ?_ | refine writes_each fun _ => ?_ | refine writes_ite ?_ ?_ | exact c0 | refine writes_act (bit_mask hm ?_)
    | ((with_reducible show Nat.testBit _ (Eff.num _) = true); simp only [Eff.num]; rfl) | split | dsimp only [id]

theorem execRstCtrlGo_writes {m : Nat} (hm : 1160958115583 &&& m = 1160958115583) (a1 : _) (s : State) : ∃ q : Prog, q.Writes m ∧ execRstCtrlGo a1 s = s.run q := by
  have c0 := @writeRstCtrl_writes m (within_mask hm rfl)
  refine ⟨_, ?_, rfl⟩
  repeat' first
    | with_reducible first | exact writes_done | exact writes_nil | refine writes_cons ?_ ?_ | refine writes_seq ?_ ?_ | refine writes_look fun _ => ?_ | refine writes_when ?_ | refine writes_each fun _ => ?_ | refine writes_ite ?_ ?_ | exact c0 | refine writes_act (bit_mask hm ?_)
    | ((with_reducible show Nat.testBit _ (Eff.num _) = true); simp only [Eff.num]; rfl) | split | dsimp only [id]

theorem execRstKick_writes {m : Nat} (hm : 8589934592 &&& m = 8589934592) (a1 : _) (s : State) : ∃ q : Prog, q.Writes m ∧ execRstKick a1 s = s.run q := by
  have c0 := @complete_writes m (within_mask hm rfl)
  refine ⟨_, ?_, rfl⟩
  repeat' first
    | with_reducible first | exact writes_done | exact writes_nil | refine writes_cons ?_ ?_ | refine writes_seq ?_ ?_ | refine writes_look fun _ => ?_ | refine writes_when ?_ | refine writes_each fun _ => ?_ | refine writes_ite ?_ ?_ | exact c0 | refine writes_act (bit_mask hm ?_)
    | ((with_reducible show Nat.testBit _ (Eff.num _) = true); simp only [Eff.num]; rfl) | split | dsimp only [id]

theorem execRstPwrWrite_writes {m : Nat} (hm : 42949672961 &&& m = 42949672961) (a1 : _) (s : State) : ∃ q : Prog, q.Writes m ∧ execRstPwrWrite a1 s = s.run q := by
  have c0 := @writeRstPwr_writes m (within_mask hm rfl)
  refine ⟨_, ?_, rfl⟩
  repeat' first
    | with_reducible first | exact writes_done | exact writes_nil | refine writes_cons ?_ ?_ | refine writes_seq ?_ ?_ | refine writes_look fun _ => ?_ | refine writes_when ?_ | refine writes_each fun _ => ?_ | refine writes_ite ?_ ?_ | exact c0 | refine writes_act (bit_mask hm ?_)
    | ((with_reducible show Nat.testBit _ (Eff.num _) = true); simp only [Eff.num]; rfl) | split | dsimp only [id]

theorem execRstQclrSlot_writes {m : Nat} (hm : 9663676417 &&& m = 9663676417) (a1 : _) (s : State) : ∃ q : Prog, q.Writes m ∧ execRstQclrSlot a1 s = s.run q := by
  have c0 := @writeRstQclr_writes m (within_mask hm rfl)
  refine ⟨_, ?_, rfl⟩
  repeat' first
    | with_reducible first | exact writes_done | exact writes_nil | refine writes_cons ?_ ?_ | refine writes_seq ?_ ?_ | refine writes_look fun _ => ?_ | refine writes_when ?_ | refine writes_each fun _ => ?_ | refine writes_ite ?_ ?_ | exact c0 | refine writes_act (bit_mask hm ?_)
    | ((with_reducible show Nat.testBit _ (Eff.num _) = true); simp only [Eff.num]; rfl) | split | dsimp only [id]

theorem execRstQclrXcn_writes {m : Nat} (hm : 9663676417 &&& m = 9663676417) (a1 : _) (s : State) : ∃ q : Prog, q.Writes m ∧ execRstQclrXcn a1 s = s.run q := by
  have c0 := @writeRstQclr_writes m (within_mask hm rfl)
  refine ⟨_, ?_, rfl⟩
  repeat' first
    | with_reducible first | exact writes_done | exact writes_nil | refine writes_cons ?_ ?_ | refine writes_seq ?_ ?_ | refine writes_look fun _ => ?_ | refine writes_when ?_ | refine writes_each fun _ => ?_ | refine writes_ite ?_ ?_ | exact c0 | refine writes_act (bit_mask hm ?_)
    | ((with_reducible show Nat.testBit _ (Eff.num _) = true); simp only [Eff.num]; rfl) | split | dsimp only [id]

theorem execStopWatchdog_writes {m : Nat} (hm : 1152653393647 &&& m = 1152653393647) (a1 : _) (s : State) : ∃ q : Prog, q.Writes m ∧ execStopWatchdog a1 s = s.run q := by
  have c0 := @watchdog_writes m (within_mask hm rfl)
  refine ⟨_, ?_, rfl⟩
  repeat' first
    | with_reducible first | exact writes_done | exact writes_nil | refine writes_cons ?_ ?_ | refine writes_seq ?_ ?_ | refine writes_look fun _ => ?_ | refine writes_when ?_ | refine writes_each fun _ => ?_ | refine writes_ite ?_ ?_ | exact c0 | refine writes_act (bit_mask hm ?_)
    | ((with_reducible show Nat.testBit _ (Eff.num _) = true); simp only [Eff.num]; rfl) | split | dsimp only [id]

theorem execTileStopDone_writes {m : Nat} (hm : 1152636616703 &&& m = 1152636616703) (a1 : _) (s : State) : ∃ q : Prog, q.Writes m ∧ execTileStopDone a1 s = s.run q := by
  have c0 := @displace_writes m (within_mask hm rfl)
  have c1 := @frozen_writes m (within_mask hm rfl)
  have c2 := @saveCritical_writes m (within_mask hm rfl)
  have c3 := @stopDone_writes m (within_mask hm rfl)
  have c4 := @stopsEnded_writes m (within_mask hm rfl)
  refine ⟨_, ?_, rfl⟩
  repeat' first
    | with_reducible first | exact writes_done | exact writes_nil | refine writes_cons ?_ ?_ | refine writes_seq ?_ ?_ | refine writes_look fun _ => ?_ | refine writes_when ?_ | refine writes_each fun _ => ?_ | refine writes_ite ?_ ?_ | exact c0 | exact c1 | exact c2 | exact c3 | exact c4 | refine writes_act (bit_mask hm ?_)
    | ((with_reducible show Nat.testBit _ (Eff.num _) = true); simp only [Eff.num]; rfl) | split | dsimp only [id]

theorem execTileWatchdog_writes {m : Nat} (hm : 1152653393647 &&& m = 1152653393647) (a1 : _) (s : State) : ∃ q : Prog, q.Writes m ∧ execTileWatchdog a1 s = s.run q := by
  have c0 := @watchdog_writes m (within_mask hm rfl)
  refine ⟨_, ?_, rfl⟩
  repeat' first
    | with_reducible first | exact writes_done | exact writes_nil | refine writes_cons ?_ ?_ | refine writes_seq ?_ ?_ | refine writes_look fun _ => ?_ | refine writes_when ?_ | refine writes_each fun _ => ?_ | refine writes_ite ?_ ?_ | exact c0 | refine writes_act (bit_mask hm ?_)
    | ((with_reducible show Nat.testBit _ (Eff.num _) = true); simp only [Eff.num]; rfl) | split | dsimp only [id]

theorem execBypass_writes {m : Nat} (hm : 34359738368 &&& m = 34359738368) (a1 : _) (s : State) : ∃ q : Prog, q.Writes m ∧ execBypass a1 s = s.run q := by
  have c0 := @tdo_writes m (within_mask hm rfl)
  refine ⟨_, ?_, rfl⟩
  repeat' first
    | with_reducible first | exact writes_done | exact writes_nil | refine writes_cons ?_ ?_ | refine writes_seq ?_ ?_ | refine writes_look fun _ => ?_ | refine writes_when ?_ | refine writes_each fun _ => ?_ | refine writes_ite ?_ ?_ | exact c0 | refine writes_act (bit_mask hm ?_)
    | ((with_reducible show Nat.testBit _ (Eff.num _) = true); simp only [Eff.num]; rfl) | split | dsimp only [id]

theorem execDatestoneSecondEnd_writes {m : Nat} (hm : 34366058497 &&& m = 34366058497) (s : State) : ∃ q : Prog, q.Writes m ∧ execDatestoneSecondEnd s = s.run q := by
  have c0 := @modObs_writes m (within_mask hm rfl)
  have c1 := @raise_writes m (within_mask hm rfl)
  have c2 := @writeRecord_writes m (within_mask hm rfl)
  refine ⟨_, ?_, rfl⟩
  repeat' first
    | with_reducible first | exact writes_done | exact writes_nil | refine writes_cons ?_ ?_ | refine writes_seq ?_ ?_ | refine writes_look fun _ => ?_ | refine writes_when ?_ | refine writes_each fun _ => ?_ | refine writes_ite ?_ ?_ | exact c0 | exact c1 | exact c2 | refine writes_act (bit_mask hm ?_)
    | ((with_reducible show Nat.testBit _ (Eff.num _) = true); simp only [Eff.num]; rfl) | split | dsimp only [id]

theorem execDstCtrlNote_writes {m : Nat} (hm : 42955993089 &&& m = 42955993089) (a1 : _) (s : State) : ∃ q : Prog, q.Writes m ∧ execDstCtrlNote a1 s = s.run q := by
  have c0 := @writeDstCtrl_writes m (within_mask hm rfl)
  refine ⟨_, ?_, rfl⟩
  repeat' first
    | with_reducible first | exact writes_done | exact writes_nil | refine writes_cons ?_ ?_ | refine writes_seq ?_ ?_ | refine writes_look fun _ => ?_ | refine writes_when ?_ | refine writes_each fun _ => ?_ | refine writes_ite ?_ ?_ | exact c0 | refine writes_act (bit_mask hm ?_)
    | ((with_reducible show Nat.testBit _ (Eff.num _) = true); simp only [Eff.num]; rfl) | split | dsimp only [id]

theorem execExtest_writes {m : Nat} (hm : 51543801856 &&& m = 51543801856) (a1 : _) (s : State) : ∃ q : Prog, q.Writes m ∧ execExtest a1 s = s.run q := by
  have c0 := @captured_writes m (within_mask hm rfl)
  have c1 := @modObs_writes m (within_mask hm rfl)
  have c2 := @send_writes m (within_mask hm rfl)
  have c3 := @tdo_writes m (within_mask hm rfl)
  refine ⟨_, ?_, rfl⟩
  repeat' first
    | with_reducible first | exact writes_done | exact writes_nil | refine writes_cons ?_ ?_ | refine writes_seq ?_ ?_ | refine writes_look fun _ => ?_ | refine writes_when ?_ | refine writes_each fun _ => ?_ | refine writes_ite ?_ ?_ | refine c0 (fun _ => ?_) | exact c1 | exact c2 | exact c3 | refine writes_act (bit_mask hm ?_)
    | ((with_reducible show Nat.testBit _ (Eff.num _) = true); simp only [Eff.num]; rfl) | split | dsimp only [id]

theorem execHaltInNFall_writes {m : Nat} (hm : 1152636616687 &&& m = 1152636616687) (s : State) : ∃ q : Prog, q.Writes m ∧ execHaltInNFall s = s.run q := by
  have c0 := @put_writes m (within_mask hm rfl)
  have c1 := @settleHalt_writes m (within_mask hm rfl)
  have c2 := @wake_writes m (within_mask hm rfl)
  refine ⟨_, ?_, rfl⟩
  repeat' first
    | with_reducible first | exact writes_done | exact writes_nil | refine writes_cons ?_ ?_ | refine writes_seq ?_ ?_ | refine writes_look fun _ => ?_ | refine writes_when ?_ | refine writes_each fun _ => ?_ | refine writes_ite ?_ ?_ | exact c0 | exact c1 | exact c2 | refine writes_act (bit_mask hm ?_)
    | ((with_reducible show Nat.testBit _ (Eff.num _) = true); simp only [Eff.num]; rfl) | split | dsimp only [id]

theorem execHaltInNRise_writes {m : Nat} (hm : 1152636616687 &&& m = 1152636616687) (s : State) : ∃ q : Prog, q.Writes m ∧ execHaltInNRise s = s.run q := by
  have c0 := @put_writes m (within_mask hm rfl)
  have c1 := @settleHalt_writes m (within_mask hm rfl)
  refine ⟨_, ?_, rfl⟩
  repeat' first
    | with_reducible first | exact writes_done | exact writes_nil | refine writes_cons ?_ ?_ | refine writes_seq ?_ ?_ | refine writes_look fun _ => ?_ | refine writes_when ?_ | refine writes_each fun _ => ?_ | refine writes_ite ?_ ?_ | exact c0 | exact c1 | refine writes_act (bit_mask hm ?_)
    | ((with_reducible show Nat.testBit _ (Eff.num _) = true); simp only [Eff.num]; rfl) | split | dsimp only [id]

theorem execHaltreq_writes {m : Nat} (hm : 1152636616687 &&& m = 1152636616687) (a1 : _) (s : State) : ∃ q : Prog, q.Writes m ∧ execHaltreq a1 s = s.run q := by
  have c0 := @put_writes m (within_mask hm rfl)
  have c1 := @settleHalt_writes m (within_mask hm rfl)
  have c2 := @tdo_writes m (within_mask hm rfl)
  have c3 := @wake_writes m (within_mask hm rfl)
  refine ⟨_, ?_, rfl⟩
  repeat' first
    | with_reducible first | exact writes_done | exact writes_nil | refine writes_cons ?_ ?_ | refine writes_seq ?_ ?_ | refine writes_look fun _ => ?_ | refine writes_when ?_ | refine writes_each fun _ => ?_ | refine writes_ite ?_ ?_ | exact c0 | exact c1 | exact c2 | exact c3 | refine writes_act (bit_mask hm ?_)
    | ((with_reducible show Nat.testBit _ (Eff.num _) = true); simp only [Eff.num]; rfl) | split | dsimp only [id]

theorem execIdcode_writes {m : Nat} (hm : 34359738368 &&& m = 34359738368) (s : State) : ∃ q : Prog, q.Writes m ∧ execIdcode s = s.run q := by
  have c0 := @tdo_writes m (within_mask hm rfl)
  refine ⟨_, ?_, rfl⟩
  repeat' first
    | with_reducible first | exact writes_done | exact writes_nil | refine writes_cons ?_ ?_ | refine writes_seq ?_ ?_ | refine writes_look fun _ => ?_ | refine writes_when ?_ | refine writes_each fun _ => ?_ | refine writes_ite ?_ ?_ | exact c0 | refine writes_act (bit_mask hm ?_)
    | ((with_reducible show Nat.testBit _ (Eff.num _) = true); simp only [Eff.num]; rfl) | split | dsimp only [id]

theorem execLifeSave_writes {m : Nat} (hm : 4194304 &&& m = 4194304) (s : State) : ∃ q : Prog, q.Writes m ∧ execLifeSave s = s.run q := by
  have c0 := @modObs_writes m (within_mask hm rfl)
  refine ⟨_, ?_, rfl⟩
  repeat' first
    | with_reducible first | exact writes_done | exact writes_nil | refine writes_cons ?_ ?_ | refine writes_seq ?_ ?_ | refine writes_look fun _ => ?_ | refine writes_when ?_ | refine writes_each fun _ => ?_ | refine writes_ite ?_ ?_ | exact c0 | refine writes_act (bit_mask hm ?_)
    | ((with_reducible show Nat.testBit _ (Eff.num _) = true); simp only [Eff.num]; rfl) | split | dsimp only [id]

theorem execSamplePreload_writes {m : Nat} (hm : 51543801856 &&& m = 51543801856) (a1 : _) (s : State) : ∃ q : Prog, q.Writes m ∧ execSamplePreload a1 s = s.run q := by
  have c0 := @captured_writes m (within_mask hm rfl)
  have c1 := @modObs_writes m (within_mask hm rfl)
  have c2 := @tdo_writes m (within_mask hm rfl)
  refine ⟨_, ?_, rfl⟩
  repeat' first
    | with_reducible first | exact writes_done | exact writes_nil | refine writes_cons ?_ ?_ | refine writes_seq ?_ ?_ | refine writes_look fun _ => ?_ | refine writes_when ?_ | refine writes_each fun _ => ?_ | refine writes_ite ?_ ?_ | refine c0 (fun _ => ?_) | exact c1 | exact c2 | refine writes_act (bit_mask hm ?_)
    | ((with_reducible show Nat.testBit _ (Eff.num _) = true); simp only [Eff.num]; rfl) | split | dsimp only [id]

end Sys2Proof.Machine
end

