-- ==== Sys2Proof/Laws/Writes17.lean ====
section
/-! SUPPORT. What each meaning writes (part 5): it takes a next state, by a program whose effects are of these areas. -/

set_option maxRecDepth 16000

namespace Sys2Proof.Machine

theorem execScanout_writes {m : Nat} (hm : 34359738368 &&& m = 34359738368) (a1 : _) (s : State) : ∃ q : Prog, q.Writes m ∧ execScanout a1 s = s.run q := by
  have c0 := @send_writes m (within_mask hm rfl)
  refine ⟨_, ?_, rfl⟩
  repeat' first
    | with_reducible first | exact writes_done | exact writes_nil | refine writes_cons ?_ ?_ | refine writes_seq ?_ ?_ | refine writes_look fun _ => ?_ | refine writes_when ?_ | refine writes_each fun _ => ?_ | refine writes_ite ?_ ?_ | exact c0 | refine writes_act (bit_mask hm ?_)
    | ((with_reducible show Nat.testBit _ (Eff.num _) = true); simp only [Eff.num]; rfl) | split | dsimp only [id]

theorem execScansel_writes {m : Nat} (hm : 34363932672 &&& m = 34363932672) (a1 : _) (s : State) : ∃ q : Prog, q.Writes m ∧ execScansel a1 s = s.run q := by
  have c0 := @modObs_writes m (within_mask hm rfl)
  have c1 := @tdo_writes m (within_mask hm rfl)
  refine ⟨_, ?_, rfl⟩
  repeat' first
    | with_reducible first | exact writes_done | exact writes_nil | refine writes_cons ?_ ?_ | refine writes_seq ?_ ?_ | refine writes_look fun _ => ?_ | refine writes_when ?_ | refine writes_each fun _ => ?_ | refine writes_ite ?_ ?_ | exact c0 | exact c1 | refine writes_act (bit_mask hm ?_)
    | ((with_reducible show Nat.testBit _ (Eff.num _) = true); simp only [Eff.num]; rfl) | split | dsimp only [id]

theorem execTalHaltRel_writes {m : Nat} (hm : 1161226551279 &&& m = 1161226551279) (a1 : _) (s : State) : ∃ q : Prog, q.Writes m ∧ execTalHaltRel a1 s = s.run q := by
  have c0 := @writeTalHalt_writes m (within_mask hm rfl)
  refine ⟨_, ?_, rfl⟩
  repeat' first
    | with_reducible first | exact writes_done | exact writes_nil | refine writes_cons ?_ ?_ | refine writes_seq ?_ ?_ | refine writes_look fun _ => ?_ | refine writes_when ?_ | refine writes_each fun _ => ?_ | refine writes_ite ?_ ?_ | exact c0 | refine writes_act (bit_mask hm ?_)
    | ((with_reducible show Nat.testBit _ (Eff.num _) = true); simp only [Eff.num]; rfl) | split | dsimp only [id]

theorem execTalHaltReq_writes {m : Nat} (hm : 1161226551279 &&& m = 1161226551279) (a1 : _) (s : State) : ∃ q : Prog, q.Writes m ∧ execTalHaltReq a1 s = s.run q := by
  have c0 := @writeTalHalt_writes m (within_mask hm rfl)
  refine ⟨_, ?_, rfl⟩
  repeat' first
    | with_reducible first | exact writes_done | exact writes_nil | refine writes_cons ?_ ?_ | refine writes_seq ?_ ?_ | refine writes_look fun _ => ?_ | refine writes_when ?_ | refine writes_each fun _ => ?_ | refine writes_ite ?_ ?_ | exact c0 | refine writes_act (bit_mask hm ?_)
    | ((with_reducible show Nat.testBit _ (Eff.num _) = true); simp only [Eff.num]; rfl) | split | dsimp only [id]

theorem execTalTrigArm_writes {m : Nat} (hm : 8594128897 &&& m = 8594128897) (a1 : _) (a2 : _) (s : State) : ∃ q : Prog, q.Writes m ∧ execTalTrigArm a1 a2 s = s.run q := by
  have c0 := @writeTrigA_writes m (within_mask hm rfl)
  refine ⟨_, ?_, rfl⟩
  repeat' first
    | with_reducible first | exact writes_done | exact writes_nil | refine writes_cons ?_ ?_ | refine writes_seq ?_ ?_ | refine writes_look fun _ => ?_ | refine writes_when ?_ | refine writes_each fun _ => ?_ | refine writes_ite ?_ ?_ | exact c0 | refine writes_act (bit_mask hm ?_)
    | ((with_reducible show Nat.testBit _ (Eff.num _) = true); simp only [Eff.num]; rfl) | split | dsimp only [id]

theorem execTallySample_writes {m : Nat} (hm : 34363953159 &&& m = 34363953159) (s : State) : ∃ q : Prog, q.Writes m ∧ execTallySample s = s.run q := by
  have c0 := @modObs_writes m (within_mask hm rfl)
  have c1 := @put_writes m (within_mask hm rfl)
  have c2 := @raise_writes m (within_mask hm rfl)
  have c3 := @writePhys_writes m (within_mask hm rfl)
  refine ⟨_, ?_, rfl⟩
  repeat' first
    | with_reducible first | exact writes_done | exact writes_nil | refine writes_cons ?_ ?_ | refine writes_seq ?_ ?_ | refine writes_look fun _ => ?_ | refine writes_when ?_ | refine writes_each fun _ => ?_ | refine writes_ite ?_ ?_ | exact c0 | exact c1 | exact c2 | exact c3 | refine writes_act (bit_mask hm ?_)
    | ((with_reducible show Nat.testBit _ (Eff.num _) = true); simp only [Eff.num]; rfl) | split | dsimp only [id]

theorem execTriggerFire_writes {m : Nat} (hm : 1152636616687 &&& m = 1152636616687) (a1 : _) (s : State) : ∃ q : Prog, q.Writes m ∧ execTriggerFire a1 s = s.run q := by
  have c0 := @modObs_writes m (within_mask hm rfl)
  have c1 := @put_writes m (within_mask hm rfl)
  have c2 := @raise_writes m (within_mask hm rfl)
  have c3 := @settleHalt_writes m (within_mask hm rfl)
  refine ⟨_, ?_, rfl⟩
  repeat' first
    | with_reducible first | exact writes_done | exact writes_nil | refine writes_cons ?_ ?_ | refine writes_seq ?_ ?_ | refine writes_look fun _ => ?_ | refine writes_when ?_ | refine writes_each fun _ => ?_ | refine writes_ite ?_ ?_ | exact c0 | exact c1 | exact c2 | exact c3 | refine writes_act (bit_mask hm ?_)
    | ((with_reducible show Nat.testBit _ (Eff.num _) = true); simp only [Eff.num]; rfl) | split | dsimp only [id]

theorem execProposalExpire_writes {m : Nat} (hm : 34368147457 &&& m = 34368147457) (s : State) : ∃ q : Prog, q.Writes m ∧ execProposalExpire s = s.run q := by
  have c0 := @expireProposal_writes m (within_mask hm rfl)
  refine ⟨_, ?_, rfl⟩
  repeat' first
    | with_reducible first | exact writes_done | exact writes_nil | refine writes_cons ?_ ?_ | refine writes_seq ?_ ?_ | refine writes_look fun _ => ?_ | refine writes_when ?_ | refine writes_each fun _ => ?_ | refine writes_ite ?_ ?_ | exact c0 | refine writes_act (bit_mask hm ?_)
    | ((with_reducible show Nat.testBit _ (Eff.num _) = true); simp only [Eff.num]; rfl) | split | dsimp only [id]

theorem execWorkingKeyRoll_writes {m : Nat} (hm : 34368147457 &&& m = 34368147457) (s : State) : ∃ q : Prog, q.Writes m ∧ execWorkingKeyRoll s = s.run q := by
  have c0 := @certifyWork_writes m (within_mask hm rfl)
  have c1 := @raise_writes m (within_mask hm rfl)
  refine ⟨_, ?_, rfl⟩
  repeat' first
    | with_reducible first | exact writes_done | exact writes_nil | refine writes_cons ?_ ?_ | refine writes_seq ?_ ?_ | refine writes_look fun _ => ?_ | refine writes_when ?_ | refine writes_each fun _ => ?_ | refine writes_ite ?_ ?_ | exact c0 | exact c1 | refine writes_act (bit_mask hm ?_)
    | ((with_reducible show Nat.testBit _ (Eff.num _) = true); simp only [Eff.num]; rfl) | split | dsimp only [id]

theorem execEnum_writes {m : Nat} (hm : 34359758849 &&& m = 34359758849) (a1 : _) (s : State) : ∃ q : Prog, q.Writes m ∧ execEnum a1 s = s.run q := by
  have c0 := @forward_writes m (within_mask hm rfl)
  have c1 := @forwardSame_writes m (within_mask hm rfl)
  have c2 := @put_writes m (within_mask hm rfl)
  have c3 := @ringError_writes m (within_mask hm rfl)
  have c4 := @ringIn_writes m (within_mask hm rfl)
  refine ⟨_, ?_, rfl⟩
  repeat' first
    | with_reducible first | exact writes_done | exact writes_nil | refine writes_cons ?_ ?_ | refine writes_seq ?_ ?_ | refine writes_look fun _ => ?_ | refine writes_when ?_ | refine writes_each fun _ => ?_ | refine writes_ite ?_ ?_ | exact c0 | exact c1 | exact c2 | exact c3 | refine c4 ?_ | refine writes_act (bit_mask hm ?_)
    | ((with_reducible show Nat.testBit _ (Eff.num _) = true); simp only [Eff.num]; rfl) | split | dsimp only [id]

theorem execPulse_writes {m : Nat} (hm : 52612759431 &&& m = 52612759431) (a1 : _) (s : State) : ∃ q : Prog, q.Writes m ∧ execPulse a1 s = s.run q := by
  have c0 := @goSolo_writes m (within_mask hm rfl)
  have c1 := @modHold_writes m (within_mask hm rfl)
  have c2 := @ringFor_writes m (within_mask hm rfl)
  refine ⟨_, ?_, rfl⟩
  repeat' first
    | with_reducible first | exact writes_done | exact writes_nil | refine writes_cons ?_ ?_ | refine writes_seq ?_ ?_ | refine writes_look fun _ => ?_ | refine writes_when ?_ | refine writes_each fun _ => ?_ | refine writes_ite ?_ ?_ | exact c0 | exact c1 | refine c2 ?_ | refine writes_act (bit_mask hm ?_)
    | ((with_reducible show Nat.testBit _ (Eff.num _) = true); simp only [Eff.num]; rfl) | split | dsimp only [id]

theorem execPulseTick_writes {m : Nat} (hm : 34359738368 &&& m = 34359738368) (s : State) : ∃ q : Prog, q.Writes m ∧ execPulseTick s = s.run q := by
  have c0 := @ringSend_writes m (within_mask hm rfl)
  refine ⟨_, ?_, rfl⟩
  repeat' first
    | with_reducible first | exact writes_done | exact writes_nil | refine writes_cons ?_ ?_ | refine writes_seq ?_ ?_ | refine writes_look fun _ => ?_ | refine writes_when ?_ | refine writes_each fun _ => ?_ | refine writes_ite ?_ ?_ | exact c0 | refine writes_act (bit_mask hm ?_)
    | ((with_reducible show Nat.testBit _ (Eff.num _) = true); simp only [Eff.num]; rfl) | split | dsimp only [id]

theorem execResetReq_writes {m : Nat} (hm : 1152376569583 &&& m = 1152376569583) (a1 : _) (s : State) : ∃ q : Prog, q.Writes m ∧ execResetReq a1 s = s.run q := by
  have c0 := @bump_writes m (within_mask hm rfl)
  have c1 := @dropFrags_writes m (within_mask hm rfl)
  have c2 := @modSec_writes m (within_mask hm rfl)
  have c3 := @resetAuthz_writes m (within_mask hm rfl)
  have c4 := @ringFor_writes m (within_mask hm rfl)
  refine ⟨_, ?_, rfl⟩
  repeat' first
    | with_reducible first | exact writes_done | exact writes_nil | refine writes_cons ?_ ?_ | refine writes_seq ?_ ?_ | refine writes_look fun _ => ?_ | refine writes_when ?_ | refine writes_each fun _ => ?_ | refine writes_ite ?_ ?_ | exact c0 | exact c1 | exact c2 | refine c3 (fun _ => ?_) | refine c4 ?_ | refine writes_act (bit_mask hm ?_)
    | ((with_reducible show Nat.testBit _ (Eff.num _) = true); simp only [Eff.num]; rfl) | split | dsimp only [id]

theorem execResetReqReassemblyTimeout_writes {m : Nat} (hm : 8388609 &&& m = 8388609) (a1 : _) (a2 : _) (s : State) : ∃ q : Prog, q.Writes m ∧ execResetReqReassemblyTimeout a1 a2 s = s.run q := by
  have c0 := @bump_writes m (within_mask hm rfl)
  have c1 := @dropFrags_writes m (within_mask hm rfl)
  refine ⟨_, ?_, rfl⟩
  repeat' first
    | with_reducible first | exact writes_done | exact writes_nil | refine writes_cons ?_ ?_ | refine writes_seq ?_ ?_ | refine writes_look fun _ => ?_ | refine writes_when ?_ | refine writes_each fun _ => ?_ | refine writes_ite ?_ ?_ | exact c0 | exact c1 | refine writes_act (bit_mask hm ?_)
    | ((with_reducible show Nat.testBit _ (Eff.num _) = true); simp only [Eff.num]; rfl) | split | dsimp only [id]

theorem execRingFrameForward_writes {m : Nat} (hm : 34359738369 &&& m = 34359738369) (a1 : _) (s : State) : ∃ q : Prog, q.Writes m ∧ execRingFrameForward a1 s = s.run q := by
  have c0 := @forwardSame_writes m (within_mask hm rfl)
  have c1 := @ringIn_writes m (within_mask hm rfl)
  refine ⟨_, ?_, rfl⟩
  repeat' first
    | with_reducible first | exact writes_done | exact writes_nil | refine writes_cons ?_ ?_ | refine writes_seq ?_ ?_ | refine writes_look fun _ => ?_ | refine writes_when ?_ | refine writes_each fun _ => ?_ | refine writes_ite ?_ ?_ | exact c0 | refine c1 ?_ | refine writes_act (bit_mask hm ?_)
    | ((with_reducible show Nat.testBit _ (Eff.num _) = true); simp only [Eff.num]; rfl) | split | dsimp only [id]

theorem execRollcall_writes {m : Nat} (hm : 52085935617 &&& m = 52085935617) (a1 : _) (s : State) : ∃ q : Prog, q.Writes m ∧ execRollcall a1 s = s.run q := by
  have c0 := @forward_writes m (within_mask hm rfl)
  have c1 := @forwardSame_writes m (within_mask hm rfl)
  have c2 := @modHold_writes m (within_mask hm rfl)
  have c3 := @openPartner_writes m (within_mask hm rfl)
  have c4 := @put_writes m (within_mask hm rfl)
  have c5 := @ringIn_writes m (within_mask hm rfl)
  refine ⟨_, ?_, rfl⟩
  repeat' first
    | with_reducible first | exact writes_done | exact writes_nil | refine writes_cons ?_ ?_ | refine writes_seq ?_ ?_ | refine writes_look fun _ => ?_ | refine writes_when ?_ | refine writes_each fun _ => ?_ | refine writes_ite ?_ ?_ | exact c0 | exact c1 | exact c2 | exact c3 | exact c4 | refine c5 ?_ | refine writes_act (bit_mask hm ?_)
    | ((with_reducible show Nat.testBit _ (Eff.num _) = true); simp only [Eff.num]; rfl) | split | dsimp only [id]

theorem execBootRun_writes {m : Nat} (hm : 52696350217 &&& m = 52696350217) (a1 : _) (s : State) : ∃ q : Prog, q.Writes m ∧ execBootRun a1 s = s.run q := by
  have c0 := @certifyWork_writes m (within_mask hm rfl)
  have c1 := @enterRecovery_writes m (within_mask hm rfl)
  have c2 := @measure_writes m (within_mask hm rfl)
  have c3 := @put_writes m (within_mask hm rfl)
  have c4 := @recordFirmware_writes m (within_mask hm rfl)
  have c5 := @startFirmware_writes m (within_mask hm rfl)
  refine ⟨_, ?_, rfl⟩
  repeat' first
    | with_reducible first | exact writes_done | exact writes_nil | refine writes_cons ?_ ?_ | refine writes_seq ?_ ?_ | refine writes_look fun _ => ?_ | refine writes_when ?_ | refine writes_each fun _ => ?_ | refine writes_ite ?_ ?_ | exact c0 | exact c1 | exact c2 | exact c3 | exact c4 | exact c5 | refine writes_act (bit_mask hm ?_)
    | ((with_reducible show Nat.testBit _ (Eff.num _) = true); simp only [Eff.num]; rfl) | split | dsimp only [id]

theorem execHubPostGo_writes {m : Nat} (hm : 42949804041 &&& m = 42949804041) (a1 : _) (s : State) : ∃ q : Prog, q.Writes m ∧ execHubPostGo a1 s = s.run q := by
  have c0 := @writePost_writes m (within_mask hm rfl)
  refine ⟨_, ?_, rfl⟩
  repeat' first
    | with_reducible first | exact writes_done | exact writes_nil | refine writes_cons ?_ ?_ | refine writes_seq ?_ ?_ | refine writes_look fun _ => ?_ | refine writes_when ?_ | refine writes_each fun _ => ?_ | refine writes_ite ?_ ?_ | exact c0 | refine writes_act (bit_mask hm ?_)
    | ((with_reducible show Nat.testBit _ (Eff.num _) = true); simp only [Eff.num]; rfl) | split | dsimp only [id]

theorem execOzPwrokFall_writes {m : Nat} (hm : 2199023255553 &&& m = 2199023255553) (s : State) : ∃ q : Prog, q.Writes m ∧ execOzPwrokFall s = s.run q := by
  have c0 := @losePower_writes m (within_mask hm rfl)
  refine ⟨_, ?_, rfl⟩
  repeat' first
    | with_reducible first | exact writes_done | exact writes_nil | refine writes_cons ?_ ?_ | refine writes_seq ?_ ?_ | refine writes_look fun _ => ?_ | refine writes_when ?_ | refine writes_each fun _ => ?_ | refine writes_ite ?_ ?_ | exact c0 | refine writes_act (bit_mask hm ?_)
    | ((with_reducible show Nat.testBit _ (Eff.num _) = true); simp only [Eff.num]; rfl) | split | dsimp only [id]

theorem execOzPwrokRise_writes {m : Nat} (hm : 34359955457 &&& m = 34359955457) (a1 : _) (a2 : _) (a3 : _) (a4 : _) (a5 : _) (s : State) : ∃ q : Prog, q.Writes m ∧ execOzPwrokRise a1 a2 a3 a4 a5 s = s.run q := by
  have c0 := @bump_writes m (within_mask hm rfl)
  have c1 := @modMode_writes m (within_mask hm rfl)
  have c2 := @modPower_writes m (within_mask hm rfl)
  have c3 := @put_writes m (within_mask hm rfl)
  have c4 := @ringError_writes m (within_mask hm rfl)
  have c5 := @showProtection_writes m (within_mask hm rfl)
  have c6 := @trainMemory_writes m (within_mask hm rfl)
  refine ⟨_, ?_, rfl⟩
  repeat' first
    | with_reducible first | exact writes_done | exact writes_nil | refine writes_cons ?_ ?_ | refine writes_seq ?_ ?_ | refine writes_look fun _ => ?_ | refine writes_when ?_ | refine writes_each fun _ => ?_ | refine writes_ite ?_ ?_ | exact c0 | exact c1 | exact c2 | exact c3 | exact c4 | exact c5 | exact c6 | refine writes_act (bit_mask hm ?_)
    | ((with_reducible show Nat.testBit _ (Eff.num _) = true); simp only [Eff.num]; rfl) | split | dsimp only [id]

theorem execPostAutostart_writes {m : Nat} (hm : 34359869449 &&& m = 34359869449) (s : State) : ∃ q : Prog, q.Writes m ∧ execPostAutostart s = s.run q := by
  have c0 := @startTest_writes m (within_mask hm rfl)
  refine ⟨_, ?_, rfl⟩
  repeat' first
    | with_reducible first | exact writes_done | exact writes_nil | refine writes_cons ?_ ?_ | refine writes_seq ?_ ?_ | refine writes_look fun _ => ?_ | refine writes_when ?_ | refine writes_each fun _ => ?_ | refine writes_ite ?_ ?_ | exact c0 | refine writes_act (bit_mask hm ?_)
    | ((with_reducible show Nat.testBit _ (Eff.num _) = true); simp only [Eff.num]; rfl) | split | dsimp only [id]

theorem execPostEnd_writes {m : Nat} (hm : 34359889929 &&& m = 34359889929) (a1 : _) (s : State) : ∃ q : Prog, q.Writes m ∧ execPostEnd a1 s = s.run q := by
  have c0 := @freeTile_writes m (within_mask hm rfl)
  have c1 := @modMode_writes m (within_mask hm rfl)
  have c2 := @put_writes m (within_mask hm rfl)
  have c3 := @raise_writes m (within_mask hm rfl)
  have c4 := @settleWitness_writes m (within_mask hm rfl)
  refine ⟨_, ?_, rfl⟩
  repeat' first
    | with_reducible first | exact writes_done | exact writes_nil | refine writes_cons ?_ ?_ | refine writes_seq ?_ ?_ | refine writes_look fun _ => ?_ | refine writes_when ?_ | refine writes_each fun _ => ?_ | refine writes_ite ?_ ?_ | exact c0 | exact c1 | exact c2 | exact c3 | exact c4 | refine writes_act (bit_mask hm ?_)
    | ((with_reducible show Nat.testBit _ (Eff.num _) = true); simp only [Eff.num]; rfl) | split | dsimp only [id]

theorem execRecovery_writes {m : Nat} (hm : 52696350217 &&& m = 52696350217) (a1 : _) (s : State) : ∃ q : Prog, q.Writes m ∧ execRecovery a1 s = s.run q := by
  have c0 := @acceptRecovered_writes m (within_mask hm rfl)
  have c1 := @modSec_writes m (within_mask hm rfl)
  have c2 := @partnerFails_writes m (within_mask hm rfl)
  have c3 := @put_writes m (within_mask hm rfl)
  have c4 := @recoveryFrame_writes m (within_mask hm rfl)
  have c5 := @ringFor_writes m (within_mask hm rfl)
  refine ⟨_, ?_, rfl⟩
  repeat' first
    | with_reducible first | exact writes_done | exact writes_nil | refine writes_cons ?_ ?_ | refine writes_seq ?_ ?_ | refine writes_look fun _ => ?_ | refine writes_when ?_ | refine writes_each fun _ => ?_ | refine writes_ite ?_ ?_ | exact c0 | exact c1 | exact c2 | exact c3 | exact c4 | refine c5 ?_ | refine writes_act (bit_mask hm ?_)
    | ((with_reducible show Nat.testBit _ (Eff.num _) = true); simp only [Eff.num]; rfl) | split | dsimp only [id]

theorem execRecoveryPartnerTimeout_writes {m : Nat} (hm : 8388608 &&& m = 8388608) (s : State) : ∃ q : Prog, q.Writes m ∧ execRecoveryPartnerTimeout s = s.run q := by
  have c0 := @partnerFails_writes m (within_mask hm rfl)
  refine ⟨_, ?_, rfl⟩
  repeat' first
    | with_reducible first | exact writes_done | exact writes_nil | refine writes_cons ?_ ?_ | refine writes_seq ?_ ?_ | refine writes_look fun _ => ?_ | refine writes_when ?_ | refine writes_each fun _ => ?_ | refine writes_ite ?_ ?_ | exact c0 | refine writes_act (bit_mask hm ?_)
    | ((with_reducible show Nat.testBit _ (Eff.num _) = true); simp only [Eff.num]; rfl) | split | dsimp only [id]

theorem execShardVerifyDone_writes {m : Nat} (hm : 35574021633 &&& m = 35574021633) (s : State) : ∃ q : Prog, q.Writes m ∧ execShardVerifyDone s = s.run q := by
  have c0 := @askShard_writes m (within_mask hm rfl)
  have c1 := @checkShard_writes m (within_mask hm rfl)
  have c2 := @modRst_writes m (within_mask hm rfl)
  have c3 := @put_writes m (within_mask hm rfl)
  refine ⟨_, ?_, rfl⟩
  repeat' first
    | with_reducible first | exact writes_done | exact writes_nil | refine writes_cons ?_ ?_ | refine writes_seq ?_ ?_ | refine writes_look fun _ => ?_ | refine writes_when ?_ | refine writes_each fun _ => ?_ | refine writes_ite ?_ ?_ | exact c0 | exact c1 | exact c2 | exact c3 | refine writes_act (bit_mask hm ?_)
    | ((with_reducible show Nat.testBit _ (Eff.num _) = true); simp only [Eff.num]; rfl) | split | dsimp only [id]

theorem execClkTcfgWrite_writes {m : Nat} (hm : 42956058633 &&& m = 42956058633) (a1 : _) (s : State) : ∃ q : Prog, q.Writes m ∧ execClkTcfgWrite a1 s = s.run q := by
  have c0 := @writeTcfg_writes m (within_mask hm rfl)
  refine ⟨_, ?_, rfl⟩
  repeat' first
    | with_reducible first | exact writes_done | exact writes_nil | refine writes_cons ?_ ?_ | refine writes_seq ?_ ?_ | refine writes_look fun _ => ?_ | refine writes_when ?_ | refine writes_each fun _ => ?_ | refine writes_ite ?_ ?_ | exact c0 | refine writes_act (bit_mask hm ?_)
    | ((with_reducible show Nat.testBit _ (Eff.num _) = true); simp only [Eff.num]; rfl) | split | dsimp only [id]

theorem execCriticalRecover_writes {m : Nat} (hm : 52051181487 &&& m = 52051181487) (s : State) : ∃ q : Prog, q.Writes m ∧ execCriticalRecover s = s.run q := by
  have c0 := @modTherm_writes m (within_mask hm rfl)
  have c1 := @modTile_writes m (within_mask hm rfl)
  have c2 := @settleLimiter_writes m (within_mask hm rfl)
  have c3 := @startTile_writes m (within_mask hm rfl)
  have c4 := @tilePump_writes m (within_mask hm rfl)
  refine ⟨_, ?_, rfl⟩
  repeat' first
    | with_reducible first | exact writes_done | exact writes_nil | refine writes_cons ?_ ?_ | refine writes_seq ?_ ?_ | refine writes_look fun _ => ?_ | refine writes_when ?_ | refine writes_each fun _ => ?_ | refine writes_ite ?_ ?_ | exact c0 | exact c1 | exact c2 | exact c3 | exact c4 | refine writes_act (bit_mask hm ?_)
    | ((with_reducible show Nat.testBit _ (Eff.num _) = true); simp only [Eff.num]; rfl) | split | dsimp only [id]

theorem execDimmTempRead_writes {m : Nat} (hm : 34366058497 &&& m = 34366058497) (a1 : _) (s : State) : ∃ q : Prog, q.Writes m ∧ execDimmTempRead a1 s = s.run q := by
  have c0 := @put_writes m (within_mask hm rfl)
  have c1 := @raise_writes m (within_mask hm rfl)
  have c2 := @record_writes m (within_mask hm rfl)
  have c3 := @send_writes m (within_mask hm rfl)
  refine ⟨_, ?_, rfl⟩
  repeat' first
    | with_reducible first | exact writes_done | exact writes_nil | refine writes_cons ?_ ?_ | refine writes_seq ?_ ?_ | refine writes_look fun _ => ?_ | refine writes_when ?_ | refine writes_each fun _ => ?_ | refine writes_ite ?_ ?_ | exact c0 | exact c1 | exact c2 | exact c3 | refine writes_act (bit_mask hm ?_)
    | ((with_reducible show Nat.testBit _ (Eff.num _) = true); simp only [Eff.num]; rfl) | split | dsimp only [id]

theorem execRefclkLost_writes {m : Nat} (hm : 1152368246511 &&& m = 1152368246511) (s : State) : ∃ q : Prog, q.Writes m ∧ execRefclkLost s = s.run q := by
  have c0 := @modPower_writes m (within_mask hm rfl)
  have c1 := @orderReset_writes m (within_mask hm rfl)
  have c2 := @portDown_writes m (within_mask hm rfl)
  have c3 := @put_writes m (within_mask hm rfl)
  have c4 := @raise_writes m (within_mask hm rfl)
  have c5 := @withFree_writes m (within_mask hm rfl)
  refine ⟨_, ?_, rfl⟩
  repeat' first
    | with_reducible first | exact writes_done | exact writes_nil | refine writes_cons ?_ ?_ | refine writes_seq ?_ ?_ | refine writes_look fun _ => ?_ | refine writes_when ?_ | refine writes_each fun _ => ?_ | refine writes_ite ?_ ?_ | exact c0 | exact c1 | exact c2 | exact c3 | exact c4 | refine c5 (fun _ => ?_) | refine writes_act (bit_mask hm ?_)
    | ((with_reducible show Nat.testBit _ (Eff.num _) = true); simp only [Eff.num]; rfl) | split | dsimp only [id]

theorem execRefclkRestored_writes {m : Nat} (hm : 65537 &&& m = 65537) (s : State) : ∃ q : Prog, q.Writes m ∧ execRefclkRestored s = s.run q := by
  have c0 := @modPower_writes m (within_mask hm rfl)
  have c1 := @put_writes m (within_mask hm rfl)
  refine ⟨_, ?_, rfl⟩
  repeat' first
    | with_reducible first | exact writes_done | exact writes_nil | refine writes_cons ?_ ?_ | refine writes_seq ?_ ?_ | refine writes_look fun _ => ?_ | refine writes_when ?_ | refine writes_each fun _ => ?_ | refine writes_ite ?_ ?_ | exact c0 | exact c1 | refine writes_act (bit_mask hm ?_)
    | ((with_reducible show Nat.testBit _ (Eff.num _) = true); simp only [Eff.num]; rfl) | split | dsimp only [id]

theorem execThermalCritical_writes {m : Nat} (hm : 34359824393 &&& m = 34359824393) (s : State) : ∃ q : Prog, q.Writes m ∧ execThermalCritical s = s.run q := by
  have c0 := @modTherm_writes m (within_mask hm rfl)
  have c1 := @modTile_writes m (within_mask hm rfl)
  have c2 := @put_writes m (within_mask hm rfl)
  have c3 := @raise_writes m (within_mask hm rfl)
  have c4 := @stopTile_writes m (within_mask hm rfl)
  refine ⟨_, ?_, rfl⟩
  repeat' first
    | with_reducible first | exact writes_done | exact writes_nil | refine writes_cons ?_ ?_ | refine writes_seq ?_ ?_ | refine writes_look fun _ => ?_ | refine writes_when ?_ | refine writes_each fun _ => ?_ | refine writes_ite ?_ ?_ | exact c0 | exact c1 | exact c2 | exact c3 | exact c4 | refine writes_act (bit_mask hm ?_)
    | ((with_reducible show Nat.testBit _ (Eff.num _) = true); simp only [Eff.num]; rfl) | split | dsimp only [id]

theorem execThermalSample_writes {m : Nat} (hm : 34399813129 &&& m = 34399813129) (a1 : _) (a2 : _) (a3 : _) (a4 : _) (s : State) : ∃ q : Prog, q.Writes m ∧ execThermalSample a1 a2 a3 a4 s = s.run q := by
  have c0 := @marginWatch_writes m (within_mask hm rfl)
  have c1 := @modTherm_writes m (within_mask hm rfl)
  have c2 := @put_writes m (within_mask hm rfl)
  have c3 := @settleLimiter_writes m (within_mask hm rfl)
  have c4 := @stepDown_writes m (within_mask hm rfl)
  have c5 := @thermalTrip_writes m (within_mask hm rfl)
  have c6 := @wake_writes m (within_mask hm rfl)
  refine ⟨_, ?_, rfl⟩
  repeat' first
    | with_reducible first | exact writes_done | exact writes_nil | refine writes_cons ?_ ?_ | refine writes_seq ?_ ?_ | refine writes_look fun _ => ?_ | refine writes_when ?_ | refine writes_each fun _ => ?_ | refine writes_ite ?_ ?_ | exact c0 | exact c1 | exact c2 | exact c3 | exact c4 | exact c5 | exact c6 | refine writes_act (bit_mask hm ?_)
    | ((with_reducible show Nat.testBit _ (Eff.num _) = true); simp only [Eff.num]; rfl) | split | dsimp only [id]

theorem execThrottleUp_writes {m : Nat} (hm : 34366124041 &&& m = 34366124041) (s : State) : ∃ q : Prog, q.Writes m ∧ execThrottleUp s = s.run q := by
  have c0 := @bump_writes m (within_mask hm rfl)
  have c1 := @modTherm_writes m (within_mask hm rfl)
  have c2 := @raise_writes m (within_mask hm rfl)
  have c3 := @setDiv_writes m (within_mask hm rfl)
  have c4 := @settleLimiter_writes m (within_mask hm rfl)
  refine ⟨_, ?_, rfl⟩
  repeat' first
    | with_reducible first | exact writes_done | exact writes_nil | refine writes_cons ?_ ?_ | refine writes_seq ?_ ?_ | refine writes_look fun _ => ?_ | refine writes_when ?_ | refine writes_each fun _ => ?_ | refine writes_ite ?_ ?_ | exact c0 | exact c1 | exact c2 | exact c3 | exact c4 | refine writes_act (bit_mask hm ?_)
    | ((with_reducible show Nat.testBit _ (Eff.num _) = true); simp only [Eff.num]; rfl) | split | dsimp only [id]

theorem execRegisterWrite_writes {m : Nat} (hm : 1161226616831 &&& m = 1161226616831) (a1 : _) (a2 : _) (a3 : _) (s : State) : ∃ q : Prog, q.Writes m ∧ execRegisterWrite a1 a2 a3 s = s.run q := by
  have c0 := @hostRegWrite_writes m (within_mask hm rfl)
  have c1 := @hostRuns_writes m (within_mask hm rfl)
  have c2 := @writeReg_writes m (within_mask hm rfl)
  cases a1 <;> refine ⟨_, ?_, rfl⟩
  all_goals repeat' first
    | with_reducible first | exact writes_done | exact writes_nil | refine writes_cons ?_ ?_ | refine writes_seq ?_ ?_ | refine writes_look fun _ => ?_ | refine writes_when ?_ | refine writes_each fun _ => ?_ | refine writes_ite ?_ ?_ | exact c0 | refine c1 ?_ | exact c2 | refine writes_act (bit_mask hm ?_)
    | ((with_reducible show Nat.testBit _ (Eff.num _) = true); simp only [Eff.num]; rfl) | split | dsimp only [id]

theorem execAckDelayTimer_writes {m : Nat} (hm : 34359758849 &&& m = 34359758849) (a1 : _) (s : State) : ∃ q : Prog, q.Writes m ∧ execAckDelayTimer a1 s = s.run q := by
  have c0 := @sendAck_writes m (within_mask hm rfl)
  refine ⟨_, ?_, rfl⟩
  repeat' first
    | with_reducible first | exact writes_done | exact writes_nil | refine writes_cons ?_ ?_ | refine writes_seq ?_ ?_ | refine writes_look fun _ => ?_ | refine writes_when ?_ | refine writes_each fun _ => ?_ | refine writes_ite ?_ ?_ | exact c0 | refine writes_act (bit_mask hm ?_)
    | ((with_reducible show Nat.testBit _ (Eff.num _) = true); simp only [Eff.num]; rfl) | split | dsimp only [id]

theorem execArpRequest_writes {m : Nat} (hm : 34359738368 &&& m = 34359738368) (a1 : _) (a2 : _) (a3 : _) (s : State) : ∃ q : Prog, q.Writes m ∧ execArpRequest a1 a2 a3 s = s.run q := by
  have c0 := @etherReply_writes m (within_mask hm rfl)
  refine ⟨_, ?_, rfl⟩
  repeat' first
    | with_reducible first | exact writes_done | exact writes_nil | refine writes_cons ?_ ?_ | refine writes_seq ?_ ?_ | refine writes_look fun _ => ?_ | refine writes_when ?_ | refine writes_each fun _ => ?_ | refine writes_ite ?_ ?_ | exact c0 | refine writes_act (bit_mask hm ?_)
    | ((with_reducible show Nat.testBit _ (Eff.num _) = true); simp only [Eff.num]; rfl) | split | dsimp only [id]

theorem execEchoRequest_writes {m : Nat} (hm : 34359738368 &&& m = 34359738368) (a1 : _) (a2 : _) (a3 : _) (a4 : _) (a5 : _) (s : State) : ∃ q : Prog, q.Writes m ∧ execEchoRequest a1 a2 a3 a4 a5 s = s.run q := by
  have c0 := @etherReply_writes m (within_mask hm rfl)
  refine ⟨_, ?_, rfl⟩
  repeat' first
    | with_reducible first | exact writes_done | exact writes_nil | refine writes_cons ?_ ?_ | refine writes_seq ?_ ?_ | refine writes_look fun _ => ?_ | refine writes_when ?_ | refine writes_each fun _ => ?_ | refine writes_ite ?_ ?_ | exact c0 | refine writes_act (bit_mask hm ?_)
    | ((with_reducible show Nat.testBit _ (Eff.num _) = true); simp only [Eff.num]; rfl) | split | dsimp only [id]

theorem execHostAck_writes {m : Nat} (hm : 34359758849 &&& m = 34359758849) (a1 : _) (a2 : _) (a3 : _) (s : State) : ∃ q : Prog, q.Writes m ∧ execHostAck a1 a2 a3 s = s.run q := by
  have c0 := @hostAcked_writes m (within_mask hm rfl)
  refine ⟨_, ?_, rfl⟩
  repeat' first
    | with_reducible first | exact writes_done | exact writes_nil | refine writes_cons ?_ ?_ | refine writes_seq ?_ ?_ | refine writes_look fun _ => ?_ | refine writes_when ?_ | refine writes_each fun _ => ?_ | refine writes_ite ?_ ?_ | exact c0 | refine writes_act (bit_mask hm ?_)
    | ((with_reducible show Nat.testBit _ (Eff.num _) = true); simp only [Eff.num]; rfl) | split | dsimp only [id]

theorem execHostSessionIdle_writes {m : Nat} (hm : 4097 &&& m = 4097) (a1 : _) (s : State) : ∃ q : Prog, q.Writes m ∧ execHostSessionIdle a1 s = s.run q := by
  have c0 := @freeHost_writes m (within_mask hm rfl)
  refine ⟨_, ?_, rfl⟩
  repeat' first
    | with_reducible first | exact writes_done | exact writes_nil | refine writes_cons ?_ ?_ | refine writes_seq ?_ ?_ | refine writes_look fun _ => ?_ | refine writes_when ?_ | refine writes_each fun _ => ?_ | refine writes_ite ?_ ?_ | exact c0 | refine writes_act (bit_mask hm ?_)
    | ((with_reducible show Nat.testBit _ (Eff.num _) = true); simp only [Eff.num]; rfl) | split | dsimp only [id]

theorem execHostSessionOpenTimeout_writes {m : Nat} (hm : 4097 &&& m = 4097) (a1 : _) (s : State) : ∃ q : Prog, q.Writes m ∧ execHostSessionOpenTimeout a1 s = s.run q := by
  have c0 := @freeHost_writes m (within_mask hm rfl)
  refine ⟨_, ?_, rfl⟩
  repeat' first
    | with_reducible first | exact writes_done | exact writes_nil | refine writes_cons ?_ ?_ | refine writes_seq ?_ ?_ | refine writes_look fun _ => ?_ | refine writes_when ?_ | refine writes_each fun _ => ?_ | refine writes_ite ?_ ?_ | exact c0 | refine writes_act (bit_mask hm ?_)
    | ((with_reducible show Nat.testBit _ (Eff.num _) = true); simp only [Eff.num]; rfl) | split | dsimp only [id]

theorem execNeighbourSolicitation_writes {m : Nat} (hm : 34359738368 &&& m = 34359738368) (a1 : _) (a2 : _) (a3 : _) (s : State) : ∃ q : Prog, q.Writes m ∧ execNeighbourSolicitation a1 a2 a3 s = s.run q := by
  have c0 := @etherReply_writes m (within_mask hm rfl)
  refine ⟨_, ?_, rfl⟩
  repeat' first
    | with_reducible first | exact writes_done | exact writes_nil | refine writes_cons ?_ ?_ | refine writes_seq ?_ ?_ | refine writes_look fun _ => ?_ | refine writes_when ?_ | refine writes_each fun _ => ?_ | refine writes_ite ?_ ?_ | exact c0 | refine writes_act (bit_mask hm ?_)
    | ((with_reducible show Nat.testBit _ (Eff.num _) = true); simp only [Eff.num]; rfl) | split | dsimp only [id]

theorem execOpenReq_writes {m : Nat} (hm : 51548016641 &&& m = 51548016641) (a1 : _) (a2 : _) (s : State) : ∃ q : Prog, q.Writes m ∧ execOpenReq a1 a2 s = s.run q := by
  have c0 := @openHost_writes m (within_mask hm rfl)
  have c1 := @refuseHost_writes m (within_mask hm rfl)
  have c2 := @sendOpenRsp_writes m (within_mask hm rfl)
  refine ⟨_, ?_, rfl⟩
  repeat' first
    | with_reducible first | exact writes_done | exact writes_nil | refine writes_cons ?_ ?_ | refine writes_seq ?_ ?_ | refine writes_look fun _ => ?_ | refine writes_when ?_ | refine writes_each fun _ => ?_ | refine writes_ite ?_ ?_ | exact c0 | exact c1 | exact c2 | refine writes_act (bit_mask hm ?_)
    | ((with_reducible show Nat.testBit _ (Eff.num _) = true); simp only [Eff.num]; rfl) | split | dsimp only [id]

theorem execRetransmitTimeout_writes {m : Nat} (hm : 34359758849 &&& m = 34359758849) (a1 : _) (s : State) : ∃ q : Prog, q.Writes m ∧ execRetransmitTimeout a1 s = s.run q := by
  have c0 := @freeHost_writes m (within_mask hm rfl)
  have c1 := @modHost_writes m (within_mask hm rfl)
  have c2 := @resendPkt_writes m (within_mask hm rfl)
  refine ⟨_, ?_, rfl⟩
  repeat' first
    | with_reducible first | exact writes_done | exact writes_nil | refine writes_cons ?_ ?_ | refine writes_seq ?_ ?_ | refine writes_look fun _ => ?_ | refine writes_when ?_ | refine writes_each fun _ => ?_ | refine writes_ite ?_ ?_ | exact c0 | exact c1 | exact c2 | refine writes_act (bit_mask hm ?_)
    | ((with_reducible show Nat.testBit _ (Eff.num _) = true); simp only [Eff.num]; rfl) | split | dsimp only [id]

theorem execSetoutDatagram_writes {m : Nat} (hm : 34359758849 &&& m = 34359758849) (a1 : _) (a2 : _) (s : State) : ∃ q : Prog, q.Writes m ∧ execSetoutDatagram a1 a2 s = s.run q := by
  have c0 := @bump_writes m (within_mask hm rfl)
  have c1 := @takeSealed_writes m (within_mask hm rfl)
  have c2 := @tally_writes m (within_mask hm rfl)
  refine ⟨_, ?_, rfl⟩
  repeat' first
    | with_reducible first | exact writes_done | exact writes_nil | refine writes_cons ?_ ?_ | refine writes_seq ?_ ?_ | refine writes_look fun _ => ?_ | refine writes_when ?_ | refine writes_each fun _ => ?_ | refine writes_ite ?_ ?_ | exact c0 | exact c1 | exact c2 | refine writes_act (bit_mask hm ?_)
    | ((with_reducible show Nat.testBit _ (Eff.num _) = true); simp only [Eff.num]; rfl) | split | dsimp only [id]

theorem execAgentRd_writes {m : Nat} (hm : 34359793153 &&& m = 34359793153) (a1 : _) (s : State) : ∃ q : Prog, q.Writes m ∧ execAgentRd a1 s = s.run q := by
  have c0 := @agentAsk_writes m (within_mask hm rfl)
  have c1 := @hostCmd_writes m (within_mask hm rfl)
  have c2 := @reply_writes m (within_mask hm rfl)
  refine ⟨_, ?_, rfl⟩
  repeat' first
    | with_reducible first | exact writes_done | exact writes_nil | refine writes_cons ?_ ?_ | refine writes_seq ?_ ?_ | refine writes_look fun _ => ?_ | refine writes_when ?_ | refine writes_each fun _ => ?_ | refine writes_ite ?_ ?_ | exact c0 | refine c1 ?_ | exact c2 | refine writes_act (bit_mask hm ?_)
    | ((with_reducible show Nat.testBit _ (Eff.num _) = true); simp only [Eff.num]; rfl) | split | dsimp only [id]

theorem execAgentWr_writes {m : Nat} (hm : 34359793153 &&& m = 34359793153) (a1 : _) (s : State) : ∃ q : Prog, q.Writes m ∧ execAgentWr a1 s = s.run q := by
  have c0 := @agentAsk_writes m (within_mask hm rfl)
  have c1 := @hostCmd_writes m (within_mask hm rfl)
  refine ⟨_, ?_, rfl⟩
  repeat' first
    | with_reducible first | exact writes_done | exact writes_nil | refine writes_cons ?_ ?_ | refine writes_seq ?_ ?_ | refine writes_look fun _ => ?_ | refine writes_when ?_ | refine writes_each fun _ => ?_ | refine writes_ite ?_ ?_ | exact c0 | refine c1 ?_ | refine writes_act (bit_mask hm ?_)
    | ((with_reducible show Nat.testBit _ (Eff.num _) = true); simp only [Eff.num]; rfl) | split | dsimp only [id]

theorem execAttest_writes {m : Nat} (hm : 34368147457 &&& m = 34368147457) (a1 : _) (s : State) : ∃ q : Prog, q.Writes m ∧ execAttest a1 s = s.run q := by
  have c0 := @attest_writes m (within_mask hm rfl)
  have c1 := @hostCmd_writes m (within_mask hm rfl)
  have c2 := @reply_writes m (within_mask hm rfl)
  refine ⟨_, ?_, rfl⟩
  repeat' first
    | with_reducible first | exact writes_done | exact writes_nil | refine writes_cons ?_ ?_ | refine writes_seq ?_ ?_ | refine writes_look fun _ => ?_ | refine writes_when ?_ | refine writes_each fun _ => ?_ | refine writes_ite ?_ ?_ | refine c0 (fun _ => ?_) | refine c1 ?_ | exact c2 | refine writes_act (bit_mask hm ?_)
    | ((with_reducible show Nat.testBit _ (Eff.num _) = true); simp only [Eff.num]; rfl) | split | dsimp only [id]

theorem execAuthzChange_writes {m : Nat} (hm : 1152376569583 &&& m = 1152376569583) (a1 : _) (s : State) : ∃ q : Prog, q.Writes m ∧ execAuthzChange a1 s = s.run q := by
  have c0 := @authzCommand_writes m (within_mask hm rfl)
  refine ⟨_, ?_, rfl⟩
  repeat' first
    | with_reducible first | exact writes_done | exact writes_nil | refine writes_cons ?_ ?_ | refine writes_seq ?_ ?_ | refine writes_look fun _ => ?_ | refine writes_when ?_ | refine writes_each fun _ => ?_ | refine writes_ite ?_ ?_ | exact c0 | refine writes_act (bit_mask hm ?_)
    | ((with_reducible show Nat.testBit _ (Eff.num _) = true); simp only [Eff.num]; rfl) | split | dsimp only [id]

theorem execAuthzReset_writes {m : Nat} (hm : 1152376569583 &&& m = 1152376569583) (a1 : _) (s : State) : ∃ q : Prog, q.Writes m ∧ execAuthzReset a1 s = s.run q := by
  have c0 := @authzCommand_writes m (within_mask hm rfl)
  refine ⟨_, ?_, rfl⟩
  repeat' first
    | with_reducible first | exact writes_done | exact writes_nil | refine writes_cons ?_ ?_ | refine writes_seq ?_ ?_ | refine writes_look fun _ => ?_ | refine writes_when ?_ | refine writes_each fun _ => ?_ | refine writes_ite ?_ ?_ | exact c0 | refine writes_act (bit_mask hm ?_)
    | ((with_reducible show Nat.testBit _ (Eff.num _) = true); simp only [Eff.num]; rfl) | split | dsimp only [id]

theorem execCourseCmdAbandon_writes {m : Nat} (hm : 51650027175 &&& m = 51650027175) (a1 : _) (s : State) : ∃ q : Prog, q.Writes m ∧ execCourseCmdAbandon a1 s = s.run q := by
  have c0 := @courseCommand_writes m (within_mask hm rfl)
  refine ⟨_, ?_, rfl⟩
  repeat' first
    | with_reducible first | exact writes_done | exact writes_nil | refine writes_cons ?_ ?_ | refine writes_seq ?_ ?_ | refine writes_look fun _ => ?_ | refine writes_when ?_ | refine writes_each fun _ => ?_ | refine writes_ite ?_ ?_ | exact c0 | refine writes_act (bit_mask hm ?_)
    | ((with_reducible show Nat.testBit _ (Eff.num _) = true); simp only [Eff.num]; rfl) | split | dsimp only [id]

theorem execCourseCmdOpen_writes {m : Nat} (hm : 51650027175 &&& m = 51650027175) (a1 : _) (s : State) : ∃ q : Prog, q.Writes m ∧ execCourseCmdOpen a1 s = s.run q := by
  have c0 := @courseCommand_writes m (within_mask hm rfl)
  refine ⟨_, ?_, rfl⟩
  repeat' first
    | with_reducible first | exact writes_done | exact writes_nil | refine writes_cons ?_ ?_ | refine writes_seq ?_ ?_ | refine writes_look fun _ => ?_ | refine writes_when ?_ | refine writes_each fun _ => ?_ | refine writes_ite ?_ ?_ | exact c0 | refine writes_act (bit_mask hm ?_)
    | ((with_reducible show Nat.testBit _ (Eff.num _) = true); simp only [Eff.num]; rfl) | split | dsimp only [id]

theorem execCourseCmdQuery_writes {m : Nat} (hm : 51650027175 &&& m = 51650027175) (a1 : _) (s : State) : ∃ q : Prog, q.Writes m ∧ execCourseCmdQuery a1 s = s.run q := by
  have c0 := @courseCommand_writes m (within_mask hm rfl)
  refine ⟨_, ?_, rfl⟩
  repeat' first
    | with_reducible first | exact writes_done | exact writes_nil | refine writes_cons ?_ ?_ | refine writes_seq ?_ ?_ | refine writes_look fun _ => ?_ | refine writes_when ?_ | refine writes_each fun _ => ?_ | refine writes_ite ?_ ?_ | exact c0 | refine writes_act (bit_mask hm ?_)
    | ((with_reducible show Nat.testBit _ (Eff.num _) = true); simp only [Eff.num]; rfl) | split | dsimp only [id]

theorem execCourseCmdRoot_writes {m : Nat} (hm : 51650027175 &&& m = 51650027175) (a1 : _) (s : State) : ∃ q : Prog, q.Writes m ∧ execCourseCmdRoot a1 s = s.run q := by
  have c0 := @courseCommand_writes m (within_mask hm rfl)
  refine ⟨_, ?_, rfl⟩
  repeat' first
    | with_reducible first | exact writes_done | exact writes_nil | refine writes_cons ?_ ?_ | refine writes_seq ?_ ?_ | refine writes_look fun _ => ?_ | refine writes_when ?_ | refine writes_each fun _ => ?_ | refine writes_ite ?_ ?_ | exact c0 | refine writes_act (bit_mask hm ?_)
    | ((with_reducible show Nat.testBit _ (Eff.num _) = true); simp only [Eff.num]; rfl) | split | dsimp only [id]

theorem execDumpCommand_writes {m : Nat} (hm : 34360841735 &&& m = 34360841735) (a1 : _) (s : State) : ∃ q : Prog, q.Writes m ∧ execDumpCommand a1 s = s.run q := by
  have c0 := @dumpCommand_writes m (within_mask hm rfl)
  refine ⟨_, ?_, rfl⟩
  repeat' first
    | with_reducible first | exact writes_done | exact writes_nil | refine writes_cons ?_ ?_ | refine writes_seq ?_ ?_ | refine writes_look fun _ => ?_ | refine writes_when ?_ | refine writes_each fun _ => ?_ | refine writes_ite ?_ ?_ | exact c0 | refine writes_act (bit_mask hm ?_)
    | ((with_reducible show Nat.testBit _ (Eff.num _) = true); simp only [Eff.num]; rfl) | split | dsimp only [id]

theorem execDumpCommandAgent_writes {m : Nat} (hm : 34360841735 &&& m = 34360841735) (a1 : _) (s : State) : ∃ q : Prog, q.Writes m ∧ execDumpCommandAgent a1 s = s.run q := by
  have c0 := @dumpCommand_writes m (within_mask hm rfl)
  refine ⟨_, ?_, rfl⟩
  repeat' first
    | with_reducible first | exact writes_done | exact writes_nil | refine writes_cons ?_ ?_ | refine writes_seq ?_ ?_ | refine writes_look fun _ => ?_ | refine writes_when ?_ | refine writes_each fun _ => ?_ | refine writes_ite ?_ ?_ | exact c0 | refine writes_act (bit_mask hm ?_)
    | ((with_reducible show Nat.testBit _ (Eff.num _) = true); simp only [Eff.num]; rfl) | split | dsimp only [id]

theorem execFwAccept_writes {m : Nat} (hm : 52696350217 &&& m = 52696350217) (a1 : _) (s : State) : ∃ q : Prog, q.Writes m ∧ execFwAccept a1 s = s.run q := by
  have c0 := @acceptNet_writes m (within_mask hm rfl)
  have c1 := @hostCmd_writes m (within_mask hm rfl)
  have c2 := @reply_writes m (within_mask hm rfl)
  refine ⟨_, ?_, rfl⟩
  repeat' first
    | with_reducible first | exact writes_done | exact writes_nil | refine writes_cons ?_ ?_ | refine writes_seq ?_ ?_ | refine writes_look fun _ => ?_ | refine writes_when ?_ | refine writes_each fun _ => ?_ | refine writes_ite ?_ ?_ | exact c0 | refine c1 ?_ | exact c2 | refine writes_act (bit_mask hm ?_)
    | ((with_reducible show Nat.testBit _ (Eff.num _) = true); simp only [Eff.num]; rfl) | split | dsimp only [id]

theorem execFwPut_writes {m : Nat} (hm : 34368147457 &&& m = 34368147457) (a1 : _) (s : State) : ∃ q : Prog, q.Writes m ∧ execFwPut a1 s = s.run q := by
  have c0 := @hostCmd_writes m (within_mask hm rfl)
  have c1 := @modSec_writes m (within_mask hm rfl)
  have c2 := @reply_writes m (within_mask hm rfl)
  refine ⟨_, ?_, rfl⟩
  repeat' first
    | with_reducible first | exact writes_done | exact writes_nil | refine writes_cons ?_ ?_ | refine writes_seq ?_ ?_ | refine writes_look fun _ => ?_ | refine writes_when ?_ | refine writes_each fun _ => ?_ | refine writes_ite ?_ ?_ | refine c0 ?_ | exact c1 | exact c2 | refine writes_act (bit_mask hm ?_)
    | ((with_reducible show Nat.testBit _ (Eff.num _) = true); simp only [Eff.num]; rfl) | split | dsimp only [id]

theorem execGuestAdmit_writes {m : Nat} (hm : 34360152071 &&& m = 34360152071) (a1 : _) (s : State) : ∃ q : Prog, q.Writes m ∧ execGuestAdmit a1 s = s.run q := by
  have c0 := @admitGuest_writes m (within_mask hm rfl)
  have c1 := @hostCmd_writes m (within_mask hm rfl)
  have c2 := @reply_writes m (within_mask hm rfl)
  have c3 := @waitAwake_writes m (within_mask hm rfl)
  have c4 := @waitRole_writes m (within_mask hm rfl)
  refine ⟨_, ?_, rfl⟩
  repeat' first
    | with_reducible first | exact writes_done | exact writes_nil | refine writes_cons ?_ ?_ | refine writes_seq ?_ ?_ | refine writes_look fun _ => ?_ | refine writes_when ?_ | refine writes_each fun _ => ?_ | refine writes_ite ?_ ?_ | exact c0 | refine c1 ?_ | exact c2 | refine c3 ?_ | refine c4 ?_ | refine writes_act (bit_mask hm ?_)
    | ((with_reducible show Nat.testBit _ (Eff.num _) = true); simp only [Eff.num]; rfl) | split | dsimp only [id]

theorem execGuestEnd_writes {m : Nat} (hm : 34360152079 &&& m = 34360152079) (a1 : _) (s : State) : ∃ q : Prog, q.Writes m ∧ execGuestEnd a1 s = s.run q := by
  have c0 := @freeGuest_writes m (within_mask hm rfl)
  have c1 := @hostCmd_writes m (within_mask hm rfl)
  have c2 := @modMode_writes m (within_mask hm rfl)
  have c3 := @reply_writes m (within_mask hm rfl)
  refine ⟨_, ?_, rfl⟩
  repeat' first
    | with_reducible first | exact writes_done | exact writes_nil | refine writes_cons ?_ ?_ | refine writes_seq ?_ ?_ | refine writes_look fun _ => ?_ | refine writes_when ?_ | refine writes_each fun _ => ?_ | refine writes_ite ?_ ?_ | exact c0 | refine c1 ?_ | exact c2 | exact c3 | refine writes_act (bit_mask hm ?_)
    | ((with_reducible show Nat.testBit _ (Eff.num _) = true); simp only [Eff.num]; rfl) | split | dsimp only [id]

end Sys2Proof.Machine
end

