-- ==== Sys2Proof/Laws/Writes18.lean ====
section
/-! SUPPORT. What each meaning writes (part 6): it takes a next state, by a program whose effects are of these areas. -/

set_option maxRecDepth 16000

namespace Sys2Proof.Machine

theorem execHaltCommand_writes {m : Nat} (hm : 1152636616687 &&& m = 1152636616687) (a1 : _) (s : State) : ∃ q : Prog, q.Writes m ∧ execHaltCommand a1 s = s.run q := by
  have c0 := @haltCommand_writes m (within_mask hm rfl)
  refine ⟨_, ?_, rfl⟩
  repeat' first
    | with_reducible first | exact writes_done | exact writes_nil | refine writes_cons ?_ ?_ | refine writes_seq ?_ ?_ | refine writes_look fun _ => ?_ | refine writes_when ?_ | refine writes_each fun _ => ?_ | refine writes_ite ?_ ?_ | exact c0 | refine writes_act (bit_mask hm ?_)
    | ((with_reducible show Nat.testBit _ (Eff.num _) = true); simp only [Eff.num]; rfl) | split | dsimp only [id]

theorem execHaltReleaseCommand_writes {m : Nat} (hm : 1152636616687 &&& m = 1152636616687) (a1 : _) (s : State) : ∃ q : Prog, q.Writes m ∧ execHaltReleaseCommand a1 s = s.run q := by
  have c0 := @haltCommand_writes m (within_mask hm rfl)
  refine ⟨_, ?_, rfl⟩
  repeat' first
    | with_reducible first | exact writes_done | exact writes_nil | refine writes_cons ?_ ?_ | refine writes_seq ?_ ?_ | refine writes_look fun _ => ?_ | refine writes_when ?_ | refine writes_each fun _ => ?_ | refine writes_ite ?_ ?_ | exact c0 | refine writes_act (bit_mask hm ?_)
    | ((with_reducible show Nat.testBit _ (Eff.num _) = true); simp only [Eff.num]; rfl) | split | dsimp only [id]

theorem execHostClose_writes {m : Nat} (hm : 34359758849 &&& m = 34359758849) (a1 : _) (s : State) : ∃ q : Prog, q.Writes m ∧ execHostClose a1 s = s.run q := by
  have c0 := @freeHost_writes m (within_mask hm rfl)
  have c1 := @hostCmd_writes m (within_mask hm rfl)
  have c2 := @reply_writes m (within_mask hm rfl)
  refine ⟨_, ?_, rfl⟩
  repeat' first
    | with_reducible first | exact writes_done | exact writes_nil | refine writes_cons ?_ ?_ | refine writes_seq ?_ ?_ | refine writes_look fun _ => ?_ | refine writes_when ?_ | refine writes_each fun _ => ?_ | refine writes_ite ?_ ?_ | exact c0 | refine c1 ?_ | exact c2 | refine writes_act (bit_mask hm ?_)
    | ((with_reducible show Nat.testBit _ (Eff.num _) = true); simp only [Eff.num]; rfl) | split | dsimp only [id]

theorem execJobAdmit_writes {m : Nat} (hm : 34634628609 &&& m = 34634628609) (a1 : _) (s : State) : ∃ q : Prog, q.Writes m ∧ execJobAdmit a1 s = s.run q := by
  have c0 := @hostCmd_writes m (within_mask hm rfl)
  have c1 := @openStaging_writes m (within_mask hm rfl)
  have c2 := @reply_writes m (within_mask hm rfl)
  have c3 := @waitAwake_writes m (within_mask hm rfl)
  have c4 := @waitRole_writes m (within_mask hm rfl)
  refine ⟨_, ?_, rfl⟩
  repeat' first
    | with_reducible first | exact writes_done | exact writes_nil | refine writes_cons ?_ ?_ | refine writes_seq ?_ ?_ | refine writes_look fun _ => ?_ | refine writes_when ?_ | refine writes_each fun _ => ?_ | refine writes_ite ?_ ?_ | refine c0 ?_ | exact c1 | exact c2 | refine c3 ?_ | refine c4 ?_ | refine writes_act (bit_mask hm ?_)
    | ((with_reducible show Nat.testBit _ (Eff.num _) = true); simp only [Eff.num]; rfl) | split | dsimp only [id]

theorem execLogRdCirculating_writes {m : Nat} (hm : 34359758849 &&& m = 34359758849) (a1 : _) (s : State) : ∃ q : Prog, q.Writes m ∧ execLogRdCirculating a1 s = s.run q := by
  have c0 := @logCommand_writes m (within_mask hm rfl)
  refine ⟨_, ?_, rfl⟩
  repeat' first
    | with_reducible first | exact writes_done | exact writes_nil | refine writes_cons ?_ ?_ | refine writes_seq ?_ ?_ | refine writes_look fun _ => ?_ | refine writes_when ?_ | refine writes_each fun _ => ?_ | refine writes_ite ?_ ?_ | exact c0 | refine writes_act (bit_mask hm ?_)
    | ((with_reducible show Nat.testBit _ (Eff.num _) = true); simp only [Eff.num]; rfl) | split | dsimp only [id]

theorem execLogRdFoundation_writes {m : Nat} (hm : 34359758849 &&& m = 34359758849) (a1 : _) (s : State) : ∃ q : Prog, q.Writes m ∧ execLogRdFoundation a1 s = s.run q := by
  have c0 := @logCommand_writes m (within_mask hm rfl)
  refine ⟨_, ?_, rfl⟩
  repeat' first
    | with_reducible first | exact writes_done | exact writes_nil | refine writes_cons ?_ ?_ | refine writes_seq ?_ ?_ | refine writes_look fun _ => ?_ | refine writes_when ?_ | refine writes_each fun _ => ?_ | refine writes_ite ?_ ?_ | exact c0 | refine writes_act (bit_mask hm ?_)
    | ((with_reducible show Nat.testBit _ (Eff.num _) = true); simp only [Eff.num]; rfl) | split | dsimp only [id]

theorem execLogRdLive_writes {m : Nat} (hm : 34359758849 &&& m = 34359758849) (a1 : _) (s : State) : ∃ q : Prog, q.Writes m ∧ execLogRdLive a1 s = s.run q := by
  have c0 := @logCommand_writes m (within_mask hm rfl)
  refine ⟨_, ?_, rfl⟩
  repeat' first
    | with_reducible first | exact writes_done | exact writes_nil | refine writes_cons ?_ ?_ | refine writes_seq ?_ ?_ | refine writes_look fun _ => ?_ | refine writes_when ?_ | refine writes_each fun _ => ?_ | refine writes_ite ?_ ?_ | exact c0 | refine writes_act (bit_mask hm ?_)
    | ((with_reducible show Nat.testBit _ (Eff.num _) = true); simp only [Eff.num]; rfl) | split | dsimp only [id]

theorem execMemRd_writes {m : Nat} (hm : 51680407559 &&& m = 51680407559) (a1 : _) (s : State) : ∃ q : Prog, q.Writes m ∧ execMemRd a1 s = s.run q := by
  have c0 := @hostCmd_writes m (within_mask hm rfl)
  have c1 := @readMem_writes m (within_mask hm rfl)
  have c2 := @reply_writes m (within_mask hm rfl)
  have c3 := @tallyService_writes m (within_mask hm rfl)
  refine ⟨_, ?_, rfl⟩
  repeat' first
    | with_reducible first | exact writes_done | exact writes_nil | refine writes_cons ?_ ?_ | refine writes_seq ?_ ?_ | refine writes_look fun _ => ?_ | refine writes_when ?_ | refine writes_each fun _ => ?_ | refine writes_ite ?_ ?_ | refine c0 ?_ | refine c1 (fun _ _ _ => ?_) | exact c2 | exact c3 | refine writes_act (bit_mask hm ?_)
    | ((with_reducible show Nat.testBit _ (Eff.num _) = true); simp only [Eff.num]; rfl) | split | dsimp only [id]

theorem execMemWr_writes {m : Nat} (hm : 51680407559 &&& m = 51680407559) (a1 : _) (s : State) : ∃ q : Prog, q.Writes m ∧ execMemWr a1 s = s.run q := by
  have c0 := @hostCmd_writes m (within_mask hm rfl)
  have c1 := @moveMem_writes m (within_mask hm rfl)
  have c2 := @reply_writes m (within_mask hm rfl)
  have c3 := @tallyService_writes m (within_mask hm rfl)
  refine ⟨_, ?_, rfl⟩
  repeat' first
    | with_reducible first | exact writes_done | exact writes_nil | refine writes_cons ?_ ?_ | refine writes_seq ?_ ?_ | refine writes_look fun _ => ?_ | refine writes_when ?_ | refine writes_each fun _ => ?_ | refine writes_ite ?_ ?_ | refine c0 ?_ | refine c1 (fun _ _ _ => ?_) | exact c2 | exact c3 | refine writes_act (bit_mask hm ?_)
    | ((with_reducible show Nat.testBit _ (Eff.num _) = true); simp only [Eff.num]; rfl) | split | dsimp only [id]

theorem execModeCommand_writes {m : Nat} (hm : 51546324511 &&& m = 51546324511) (a1 : _) (s : State) : ∃ q : Prog, q.Writes m ∧ execModeCommand a1 s = s.run q := by
  have c0 := @hostCmd_writes m (within_mask hm rfl)
  have c1 := @reply_writes m (within_mask hm rfl)
  have c2 := @requestRole_writes m (within_mask hm rfl)
  have c3 := @waitRole_writes m (within_mask hm rfl)
  refine ⟨_, ?_, rfl⟩
  repeat' first
    | with_reducible first | exact writes_done | exact writes_nil | refine writes_cons ?_ ?_ | refine writes_seq ?_ ?_ | refine writes_look fun _ => ?_ | refine writes_when ?_ | refine writes_each fun _ => ?_ | refine writes_ite ?_ ?_ | refine c0 ?_ | exact c1 | refine c2 (fun _ => ?_) | refine c3 ?_ | refine writes_act (bit_mask hm ?_)
    | ((with_reducible show Nat.testBit _ (Eff.num _) = true); simp only [Eff.num]; rfl) | split | dsimp only [id]

theorem execPkgPut_writes {m : Nat} (hm : 52075888263 &&& m = 52075888263) (a1 : _) (s : State) : ∃ q : Prog, q.Writes m ∧ execPkgPut a1 s = s.run q := by
  have c0 := @hostCmd_writes m (within_mask hm rfl)
  have c1 := @takePut_writes m (within_mask hm rfl)
  refine ⟨_, ?_, rfl⟩
  repeat' first
    | with_reducible first | exact writes_done | exact writes_nil | refine writes_cons ?_ ?_ | refine writes_seq ?_ ?_ | refine writes_look fun _ => ?_ | refine writes_when ?_ | refine writes_each fun _ => ?_ | refine writes_ite ?_ ?_ | refine c0 ?_ | exact c1 | refine writes_act (bit_mask hm ?_)
    | ((with_reducible show Nat.testBit _ (Eff.num _) = true); simp only [Eff.num]; rfl) | split | dsimp only [id]

theorem execProgLoad_writes {m : Nat} (hm : 52051115951 &&& m = 52051115951) (a1 : _) (s : State) : ∃ q : Prog, q.Writes m ∧ execProgLoad a1 s = s.run q := by
  have c0 := @hostCmd_writes m (within_mask hm rfl)
  have c1 := @takeProgram_writes m (within_mask hm rfl)
  refine ⟨_, ?_, rfl⟩
  repeat' first
    | with_reducible first | exact writes_done | exact writes_nil | refine writes_cons ?_ ?_ | refine writes_seq ?_ ?_ | refine writes_look fun _ => ?_ | refine writes_when ?_ | refine writes_each fun _ => ?_ | refine writes_ite ?_ ?_ | refine c0 ?_ | exact c1 | refine writes_act (bit_mask hm ?_)
    | ((with_reducible show Nat.testBit _ (Eff.num _) = true); simp only [Eff.num]; rfl) | split | dsimp only [id]

theorem execRegRd_writes {m : Nat} (hm : 51539628033 &&& m = 51539628033) (a1 : _) (s : State) : ∃ q : Prog, q.Writes m ∧ execRegRd a1 s = s.run q := by
  have c0 := @hostCmd_writes m (within_mask hm rfl)
  have c1 := @readRegs_writes m (within_mask hm rfl)
  have c2 := @reply_writes m (within_mask hm rfl)
  refine ⟨_, ?_, rfl⟩
  repeat' first
    | with_reducible first | exact writes_done | exact writes_nil | refine writes_cons ?_ ?_ | refine writes_seq ?_ ?_ | refine writes_look fun _ => ?_ | refine writes_when ?_ | refine writes_each fun _ => ?_ | refine writes_ite ?_ ?_ | refine c0 ?_ | refine c1 (fun _ _ _ => ?_) | exact c2 | refine writes_act (bit_mask hm ?_)
    | ((with_reducible show Nat.testBit _ (Eff.num _) = true); simp only [Eff.num]; rfl) | split | dsimp only [id]

theorem execRegWr_writes {m : Nat} (hm : 1161226616831 &&& m = 1161226616831) (a1 : _) (s : State) : ∃ q : Prog, q.Writes m ∧ execRegWr a1 s = s.run q := by
  have c0 := @hostCmd_writes m (within_mask hm rfl)
  have c1 := @reply_writes m (within_mask hm rfl)
  have c2 := @writeRegs_writes m (within_mask hm rfl)
  refine ⟨_, ?_, rfl⟩
  repeat' first
    | with_reducible first | exact writes_done | exact writes_nil | refine writes_cons ?_ ?_ | refine writes_seq ?_ ?_ | refine writes_look fun _ => ?_ | refine writes_when ?_ | refine writes_each fun _ => ?_ | refine writes_ite ?_ ?_ | refine c0 ?_ | exact c1 | refine c2 (fun _ _ => ?_) | refine writes_act (bit_mask hm ?_)
    | ((with_reducible show Nat.testBit _ (Eff.num _) = true); simp only [Eff.num]; rfl) | split | dsimp only [id]

theorem execScan_writes {m : Nat} (hm : 34359758849 &&& m = 34359758849) (a1 : _) (s : State) : ∃ q : Prog, q.Writes m ∧ execScan a1 s = s.run q := by
  have c0 := @hostCmd_writes m (within_mask hm rfl)
  have c1 := @reply_writes m (within_mask hm rfl)
  refine ⟨_, ?_, rfl⟩
  repeat' first
    | with_reducible first | exact writes_done | exact writes_nil | refine writes_cons ?_ ?_ | refine writes_seq ?_ ?_ | refine writes_look fun _ => ?_ | refine writes_when ?_ | refine writes_each fun _ => ?_ | refine writes_ite ?_ ?_ | refine c0 ?_ | exact c1 | refine writes_act (bit_mask hm ?_)
    | ((with_reducible show Nat.testBit _ (Eff.num _) = true); simp only [Eff.num]; rfl) | split | dsimp only [id]

theorem execShoreDeclare_writes {m : Nat} (hm : 51647545023 &&& m = 51647545023) (a1 : _) (s : State) : ∃ q : Prog, q.Writes m ∧ execShoreDeclare a1 s = s.run q := by
  have c0 := @shoreCommand_writes m (within_mask hm rfl)
  refine ⟨_, ?_, rfl⟩
  repeat' first
    | with_reducible first | exact writes_done | exact writes_nil | refine writes_cons ?_ ?_ | refine writes_seq ?_ ?_ | refine writes_look fun _ => ?_ | refine writes_when ?_ | refine writes_each fun _ => ?_ | refine writes_ite ?_ ?_ | exact c0 | refine writes_act (bit_mask hm ?_)
    | ((with_reducible show Nat.testBit _ (Eff.num _) = true); simp only [Eff.num]; rfl) | split | dsimp only [id]

theorem execShoreHandback_writes {m : Nat} (hm : 51647545023 &&& m = 51647545023) (a1 : _) (s : State) : ∃ q : Prog, q.Writes m ∧ execShoreHandback a1 s = s.run q := by
  have c0 := @shoreCommand_writes m (within_mask hm rfl)
  refine ⟨_, ?_, rfl⟩
  repeat' first
    | with_reducible first | exact writes_done | exact writes_nil | refine writes_cons ?_ ?_ | refine writes_seq ?_ ?_ | refine writes_look fun _ => ?_ | refine writes_when ?_ | refine writes_each fun _ => ?_ | refine writes_ite ?_ ?_ | exact c0 | refine writes_act (bit_mask hm ?_)
    | ((with_reducible show Nat.testBit _ (Eff.num _) = true); simp only [Eff.num]; rfl) | split | dsimp only [id]

theorem execTallyRd_writes {m : Nat} (hm : 34363953153 &&& m = 34363953153) (a1 : _) (s : State) : ∃ q : Prog, q.Writes m ∧ execTallyRd a1 s = s.run q := by
  have c0 := @hostCmd_writes m (within_mask hm rfl)
  have c1 := @modObs_writes m (within_mask hm rfl)
  have c2 := @reply_writes m (within_mask hm rfl)
  refine ⟨_, ?_, rfl⟩
  repeat' first
    | with_reducible first | exact writes_done | exact writes_nil | refine writes_cons ?_ ?_ | refine writes_seq ?_ ?_ | refine writes_look fun _ => ?_ | refine writes_when ?_ | refine writes_each fun _ => ?_ | refine writes_ite ?_ ?_ | refine c0 ?_ | exact c1 | exact c2 | refine writes_act (bit_mask hm ?_)
    | ((with_reducible show Nat.testBit _ (Eff.num _) = true); simp only [Eff.num]; rfl) | split | dsimp only [id]

theorem execTeardown_writes {m : Nat} (hm : 34359762433 &&& m = 34359762433) (a1 : _) (s : State) : ∃ q : Prog, q.Writes m ∧ execTeardown a1 s = s.run q := by
  have c0 := @hostCmd_writes m (within_mask hm rfl)
  have c1 := @reply_writes m (within_mask hm rfl)
  have c2 := @toRoot_writes m (within_mask hm rfl)
  refine ⟨_, ?_, rfl⟩
  repeat' first
    | with_reducible first | exact writes_done | exact writes_nil | refine writes_cons ?_ ?_ | refine writes_seq ?_ ?_ | refine writes_look fun _ => ?_ | refine writes_when ?_ | refine writes_each fun _ => ?_ | refine writes_ite ?_ ?_ | refine c0 ?_ | exact c1 | exact c2 | refine writes_act (bit_mask hm ?_)
    | ((with_reducible show Nat.testBit _ (Eff.num _) = true); simp only [Eff.num]; rfl) | split | dsimp only [id]

theorem execAddrAdd_writes {m : Nat} (hm : 52051115951 &&& m = 52051115951) (a1 : _) (a2 : _) (a3 : _) (s : State) : ∃ q : Prog, q.Writes m ∧ execAddrAdd a1 a2 a3 s = s.run q := by
  have c0 := @lathe_writes m (within_mask hm rfl)
  refine ⟨_, ?_, rfl⟩
  repeat' first
    | with_reducible first | exact writes_done | exact writes_nil | refine writes_cons ?_ ?_ | refine writes_seq ?_ ?_ | refine writes_look fun _ => ?_ | refine writes_when ?_ | refine writes_each fun _ => ?_ | refine writes_ite ?_ ?_ | exact c0 | refine writes_act (bit_mask hm ?_)
    | ((with_reducible show Nat.testBit _ (Eff.num _) = true); simp only [Eff.num]; rfl) | split | dsimp only [id]

theorem execAddrBaseAdd_writes {m : Nat} (hm : 52051115951 &&& m = 52051115951) (a1 : _) (a2 : _) (a3 : _) (s : State) : ∃ q : Prog, q.Writes m ∧ execAddrBaseAdd a1 a2 a3 s = s.run q := by
  have c0 := @lathe_writes m (within_mask hm rfl)
  refine ⟨_, ?_, rfl⟩
  repeat' first
    | with_reducible first | exact writes_done | exact writes_nil | refine writes_cons ?_ ?_ | refine writes_seq ?_ ?_ | refine writes_look fun _ => ?_ | refine writes_when ?_ | refine writes_each fun _ => ?_ | refine writes_ite ?_ ?_ | exact c0 | refine writes_act (bit_mask hm ?_)
    | ((with_reducible show Nat.testBit _ (Eff.num _) = true); simp only [Eff.num]; rfl) | split | dsimp only [id]

theorem execAddrFromS_writes {m : Nat} (hm : 52051115951 &&& m = 52051115951) (a1 : _) (a2 : _) (a3 : _) (s : State) : ∃ q : Prog, q.Writes m ∧ execAddrFromS a1 a2 a3 s = s.run q := by
  have c0 := @lathe_writes m (within_mask hm rfl)
  refine ⟨_, ?_, rfl⟩
  repeat' first
    | with_reducible first | exact writes_done | exact writes_nil | refine writes_cons ?_ ?_ | refine writes_seq ?_ ?_ | refine writes_look fun _ => ?_ | refine writes_when ?_ | refine writes_each fun _ => ?_ | refine writes_ite ?_ ?_ | exact c0 | refine writes_act (bit_mask hm ?_)
    | ((with_reducible show Nat.testBit _ (Eff.num _) = true); simp only [Eff.num]; rfl) | split | dsimp only [id]

theorem execAddrStrideSet_writes {m : Nat} (hm : 52051115951 &&& m = 52051115951) (a1 : _) (a2 : _) (a3 : _) (s : State) : ∃ q : Prog, q.Writes m ∧ execAddrStrideSet a1 a2 a3 s = s.run q := by
  have c0 := @lathe_writes m (within_mask hm rfl)
  refine ⟨_, ?_, rfl⟩
  repeat' first
    | with_reducible first | exact writes_done | exact writes_nil | refine writes_cons ?_ ?_ | refine writes_seq ?_ ?_ | refine writes_look fun _ => ?_ | refine writes_when ?_ | refine writes_each fun _ => ?_ | refine writes_ite ?_ ?_ | exact c0 | refine writes_act (bit_mask hm ?_)
    | ((with_reducible show Nat.testBit _ (Eff.num _) = true); simp only [Eff.num]; rfl) | split | dsimp only [id]

theorem execAddrToS_writes {m : Nat} (hm : 52051115951 &&& m = 52051115951) (a1 : _) (a2 : _) (a3 : _) (s : State) : ∃ q : Prog, q.Writes m ∧ execAddrToS a1 a2 a3 s = s.run q := by
  have c0 := @lathe_writes m (within_mask hm rfl)
  refine ⟨_, ?_, rfl⟩
  repeat' first
    | with_reducible first | exact writes_done | exact writes_nil | refine writes_cons ?_ ?_ | refine writes_seq ?_ ?_ | refine writes_look fun _ => ?_ | refine writes_when ?_ | refine writes_each fun _ => ?_ | refine writes_ite ?_ ?_ | exact c0 | refine writes_act (bit_mask hm ?_)
    | ((with_reducible show Nat.testBit _ (Eff.num _) = true); simp only [Eff.num]; rfl) | split | dsimp only [id]

theorem execBeq_writes {m : Nat} (hm : 52051115951 &&& m = 52051115951) (a1 : _) (a2 : _) (a3 : _) (s : State) : ∃ q : Prog, q.Writes m ∧ execBeq a1 a2 a3 s = s.run q := by
  have c0 := @lathe_writes m (within_mask hm rfl)
  refine ⟨_, ?_, rfl⟩
  repeat' first
    | with_reducible first | exact writes_done | exact writes_nil | refine writes_cons ?_ ?_ | refine writes_seq ?_ ?_ | refine writes_look fun _ => ?_ | refine writes_when ?_ | refine writes_each fun _ => ?_ | refine writes_ite ?_ ?_ | exact c0 | refine writes_act (bit_mask hm ?_)
    | ((with_reducible show Nat.testBit _ (Eff.num _) = true); simp only [Eff.num]; rfl) | split | dsimp only [id]

theorem execBge_writes {m : Nat} (hm : 52051115951 &&& m = 52051115951) (a1 : _) (a2 : _) (a3 : _) (s : State) : ∃ q : Prog, q.Writes m ∧ execBge a1 a2 a3 s = s.run q := by
  have c0 := @lathe_writes m (within_mask hm rfl)
  refine ⟨_, ?_, rfl⟩
  repeat' first
    | with_reducible first | exact writes_done | exact writes_nil | refine writes_cons ?_ ?_ | refine writes_seq ?_ ?_ | refine writes_look fun _ => ?_ | refine writes_when ?_ | refine writes_each fun _ => ?_ | refine writes_ite ?_ ?_ | exact c0 | refine writes_act (bit_mask hm ?_)
    | ((with_reducible show Nat.testBit _ (Eff.num _) = true); simp only [Eff.num]; rfl) | split | dsimp only [id]

theorem execBgeu_writes {m : Nat} (hm : 52051115951 &&& m = 52051115951) (a1 : _) (a2 : _) (a3 : _) (s : State) : ∃ q : Prog, q.Writes m ∧ execBgeu a1 a2 a3 s = s.run q := by
  have c0 := @lathe_writes m (within_mask hm rfl)
  refine ⟨_, ?_, rfl⟩
  repeat' first
    | with_reducible first | exact writes_done | exact writes_nil | refine writes_cons ?_ ?_ | refine writes_seq ?_ ?_ | refine writes_look fun _ => ?_ | refine writes_when ?_ | refine writes_each fun _ => ?_ | refine writes_ite ?_ ?_ | exact c0 | refine writes_act (bit_mask hm ?_)
    | ((with_reducible show Nat.testBit _ (Eff.num _) = true); simp only [Eff.num]; rfl) | split | dsimp only [id]

theorem execBlt_writes {m : Nat} (hm : 52051115951 &&& m = 52051115951) (a1 : _) (a2 : _) (a3 : _) (s : State) : ∃ q : Prog, q.Writes m ∧ execBlt a1 a2 a3 s = s.run q := by
  have c0 := @lathe_writes m (within_mask hm rfl)
  refine ⟨_, ?_, rfl⟩
  repeat' first
    | with_reducible first | exact writes_done | exact writes_nil | refine writes_cons ?_ ?_ | refine writes_seq ?_ ?_ | refine writes_look fun _ => ?_ | refine writes_when ?_ | refine writes_each fun _ => ?_ | refine writes_ite ?_ ?_ | exact c0 | refine writes_act (bit_mask hm ?_)
    | ((with_reducible show Nat.testBit _ (Eff.num _) = true); simp only [Eff.num]; rfl) | split | dsimp only [id]

theorem execBltu_writes {m : Nat} (hm : 52051115951 &&& m = 52051115951) (a1 : _) (a2 : _) (a3 : _) (s : State) : ∃ q : Prog, q.Writes m ∧ execBltu a1 a2 a3 s = s.run q := by
  have c0 := @lathe_writes m (within_mask hm rfl)
  refine ⟨_, ?_, rfl⟩
  repeat' first
    | with_reducible first | exact writes_done | exact writes_nil | refine writes_cons ?_ ?_ | refine writes_seq ?_ ?_ | refine writes_look fun _ => ?_ | refine writes_when ?_ | refine writes_each fun _ => ?_ | refine writes_ite ?_ ?_ | exact c0 | refine writes_act (bit_mask hm ?_)
    | ((with_reducible show Nat.testBit _ (Eff.num _) = true); simp only [Eff.num]; rfl) | split | dsimp only [id]

theorem execBne_writes {m : Nat} (hm : 52051115951 &&& m = 52051115951) (a1 : _) (a2 : _) (a3 : _) (s : State) : ∃ q : Prog, q.Writes m ∧ execBne a1 a2 a3 s = s.run q := by
  have c0 := @lathe_writes m (within_mask hm rfl)
  refine ⟨_, ?_, rfl⟩
  repeat' first
    | with_reducible first | exact writes_done | exact writes_nil | refine writes_cons ?_ ?_ | refine writes_seq ?_ ?_ | refine writes_look fun _ => ?_ | refine writes_when ?_ | refine writes_each fun _ => ?_ | refine writes_ite ?_ ?_ | exact c0 | refine writes_act (bit_mask hm ?_)
    | ((with_reducible show Nat.testBit _ (Eff.num _) = true); simp only [Eff.num]; rfl) | split | dsimp only [id]

theorem execBp_writes {m : Nat} (hm : 52051115951 &&& m = 52051115951) (a1 : _) (a2 : _) (a3 : _) (s : State) : ∃ q : Prog, q.Writes m ∧ execBp a1 a2 a3 s = s.run q := by
  have c0 := @lathe_writes m (within_mask hm rfl)
  refine ⟨_, ?_, rfl⟩
  repeat' first
    | with_reducible first | exact writes_done | exact writes_nil | refine writes_cons ?_ ?_ | refine writes_seq ?_ ?_ | refine writes_look fun _ => ?_ | refine writes_when ?_ | refine writes_each fun _ => ?_ | refine writes_ite ?_ ?_ | exact c0 | refine writes_act (bit_mask hm ?_)
    | ((with_reducible show Nat.testBit _ (Eff.num _) = true); simp only [Eff.num]; rfl) | split | dsimp only [id]

theorem execCget_writes {m : Nat} (hm : 52051115951 &&& m = 52051115951) (a1 : _) (a2 : _) (a3 : _) (s : State) : ∃ q : Prog, q.Writes m ∧ execCget a1 a2 a3 s = s.run q := by
  have c0 := @lathe_writes m (within_mask hm rfl)
  refine ⟨_, ?_, rfl⟩
  repeat' first
    | with_reducible first | exact writes_done | exact writes_nil | refine writes_cons ?_ ?_ | refine writes_seq ?_ ?_ | refine writes_look fun _ => ?_ | refine writes_when ?_ | refine writes_each fun _ => ?_ | refine writes_ite ?_ ?_ | exact c0 | refine writes_act (bit_mask hm ?_)
    | ((with_reducible show Nat.testBit _ (Eff.num _) = true); simp only [Eff.num]; rfl) | split | dsimp only [id]

theorem execCtAdd_writes {m : Nat} (hm : 52051115951 &&& m = 52051115951) (a1 : _) (a2 : _) (a3 : _) (s : State) : ∃ q : Prog, q.Writes m ∧ execCtAdd a1 a2 a3 s = s.run q := by
  have c0 := @lathe_writes m (within_mask hm rfl)
  refine ⟨_, ?_, rfl⟩
  repeat' first
    | with_reducible first | exact writes_done | exact writes_nil | refine writes_cons ?_ ?_ | refine writes_seq ?_ ?_ | refine writes_look fun _ => ?_ | refine writes_when ?_ | refine writes_each fun _ => ?_ | refine writes_ite ?_ ?_ | exact c0 | refine writes_act (bit_mask hm ?_)
    | ((with_reducible show Nat.testBit _ (Eff.num _) = true); simp only [Eff.num]; rfl) | split | dsimp only [id]

theorem execCtAnd_writes {m : Nat} (hm : 52051115951 &&& m = 52051115951) (a1 : _) (a2 : _) (a3 : _) (s : State) : ∃ q : Prog, q.Writes m ∧ execCtAnd a1 a2 a3 s = s.run q := by
  have c0 := @lathe_writes m (within_mask hm rfl)
  refine ⟨_, ?_, rfl⟩
  repeat' first
    | with_reducible first | exact writes_done | exact writes_nil | refine writes_cons ?_ ?_ | refine writes_seq ?_ ?_ | refine writes_look fun _ => ?_ | refine writes_when ?_ | refine writes_each fun _ => ?_ | refine writes_ite ?_ ?_ | exact c0 | refine writes_act (bit_mask hm ?_)
    | ((with_reducible show Nat.testBit _ (Eff.num _) = true); simp only [Eff.num]; rfl) | split | dsimp only [id]

theorem execCtBrk_writes {m : Nat} (hm : 52051115951 &&& m = 52051115951) (a1 : _) (a2 : _) (a3 : _) (s : State) : ∃ q : Prog, q.Writes m ∧ execCtBrk a1 a2 a3 s = s.run q := by
  have c0 := @lathe_writes m (within_mask hm rfl)
  refine ⟨_, ?_, rfl⟩
  repeat' first
    | with_reducible first | exact writes_done | exact writes_nil | refine writes_cons ?_ ?_ | refine writes_seq ?_ ?_ | refine writes_look fun _ => ?_ | refine writes_when ?_ | refine writes_each fun _ => ?_ | refine writes_ite ?_ ?_ | exact c0 | refine writes_act (bit_mask hm ?_)
    | ((with_reducible show Nat.testBit _ (Eff.num _) = true); simp only [Eff.num]; rfl) | split | dsimp only [id]

theorem execCtFlags_writes {m : Nat} (hm : 52051115951 &&& m = 52051115951) (a1 : _) (a2 : _) (a3 : _) (s : State) : ∃ q : Prog, q.Writes m ∧ execCtFlags a1 a2 a3 s = s.run q := by
  have c0 := @lathe_writes m (within_mask hm rfl)
  refine ⟨_, ?_, rfl⟩
  repeat' first
    | with_reducible first | exact writes_done | exact writes_nil | refine writes_cons ?_ ?_ | refine writes_seq ?_ ?_ | refine writes_look fun _ => ?_ | refine writes_when ?_ | refine writes_each fun _ => ?_ | refine writes_ite ?_ ?_ | exact c0 | refine writes_act (bit_mask hm ?_)
    | ((with_reducible show Nat.testBit _ (Eff.num _) = true); simp only [Eff.num]; rfl) | split | dsimp only [id]

theorem execCtGang_writes {m : Nat} (hm : 52051115951 &&& m = 52051115951) (a1 : _) (a2 : _) (a3 : _) (s : State) : ∃ q : Prog, q.Writes m ∧ execCtGang a1 a2 a3 s = s.run q := by
  have c0 := @lathe_writes m (within_mask hm rfl)
  refine ⟨_, ?_, rfl⟩
  repeat' first
    | with_reducible first | exact writes_done | exact writes_nil | refine writes_cons ?_ ?_ | refine writes_seq ?_ ?_ | refine writes_look fun _ => ?_ | refine writes_when ?_ | refine writes_each fun _ => ?_ | refine writes_ite ?_ ?_ | exact c0 | refine writes_act (bit_mask hm ?_)
    | ((with_reducible show Nat.testBit _ (Eff.num _) = true); simp only [Eff.num]; rfl) | split | dsimp only [id]

theorem execCtLd_writes {m : Nat} (hm : 52051115951 &&& m = 52051115951) (a1 : _) (a2 : _) (a3 : _) (s : State) : ∃ q : Prog, q.Writes m ∧ execCtLd a1 a2 a3 s = s.run q := by
  have c0 := @lathe_writes m (within_mask hm rfl)
  refine ⟨_, ?_, rfl⟩
  repeat' first
    | with_reducible first | exact writes_done | exact writes_nil | refine writes_cons ?_ ?_ | refine writes_seq ?_ ?_ | refine writes_look fun _ => ?_ | refine writes_when ?_ | refine writes_each fun _ => ?_ | refine writes_ite ?_ ?_ | exact c0 | refine writes_act (bit_mask hm ?_)
    | ((with_reducible show Nat.testBit _ (Eff.num _) = true); simp only [Eff.num]; rfl) | split | dsimp only [id]

theorem execCtLoop_writes {m : Nat} (hm : 52051115951 &&& m = 52051115951) (a1 : _) (a2 : _) (a3 : _) (s : State) : ∃ q : Prog, q.Writes m ∧ execCtLoop a1 a2 a3 s = s.run q := by
  have c0 := @lathe_writes m (within_mask hm rfl)
  refine ⟨_, ?_, rfl⟩
  repeat' first
    | with_reducible first | exact writes_done | exact writes_nil | refine writes_cons ?_ ?_ | refine writes_seq ?_ ?_ | refine writes_look fun _ => ?_ | refine writes_when ?_ | refine writes_each fun _ => ?_ | refine writes_ite ?_ ?_ | exact c0 | refine writes_act (bit_mask hm ?_)
    | ((with_reducible show Nat.testBit _ (Eff.num _) = true); simp only [Eff.num]; rfl) | split | dsimp only [id]

theorem execCtMax_writes {m : Nat} (hm : 52051115951 &&& m = 52051115951) (a1 : _) (a2 : _) (a3 : _) (s : State) : ∃ q : Prog, q.Writes m ∧ execCtMax a1 a2 a3 s = s.run q := by
  have c0 := @lathe_writes m (within_mask hm rfl)
  refine ⟨_, ?_, rfl⟩
  repeat' first
    | with_reducible first | exact writes_done | exact writes_nil | refine writes_cons ?_ ?_ | refine writes_seq ?_ ?_ | refine writes_look fun _ => ?_ | refine writes_when ?_ | refine writes_each fun _ => ?_ | refine writes_ite ?_ ?_ | exact c0 | refine writes_act (bit_mask hm ?_)
    | ((with_reducible show Nat.testBit _ (Eff.num _) = true); simp only [Eff.num]; rfl) | split | dsimp only [id]

theorem execCtMin_writes {m : Nat} (hm : 52051115951 &&& m = 52051115951) (a1 : _) (a2 : _) (a3 : _) (s : State) : ∃ q : Prog, q.Writes m ∧ execCtMin a1 a2 a3 s = s.run q := by
  have c0 := @lathe_writes m (within_mask hm rfl)
  refine ⟨_, ?_, rfl⟩
  repeat' first
    | with_reducible first | exact writes_done | exact writes_nil | refine writes_cons ?_ ?_ | refine writes_seq ?_ ?_ | refine writes_look fun _ => ?_ | refine writes_when ?_ | refine writes_each fun _ => ?_ | refine writes_ite ?_ ?_ | exact c0 | refine writes_act (bit_mask hm ?_)
    | ((with_reducible show Nat.testBit _ (Eff.num _) = true); simp only [Eff.num]; rfl) | split | dsimp only [id]

theorem execCtMov_writes {m : Nat} (hm : 52051115951 &&& m = 52051115951) (a1 : _) (a2 : _) (a3 : _) (s : State) : ∃ q : Prog, q.Writes m ∧ execCtMov a1 a2 a3 s = s.run q := by
  have c0 := @lathe_writes m (within_mask hm rfl)
  refine ⟨_, ?_, rfl⟩
  repeat' first
    | with_reducible first | exact writes_done | exact writes_nil | refine writes_cons ?_ ?_ | refine writes_seq ?_ ?_ | refine writes_look fun _ => ?_ | refine writes_when ?_ | refine writes_each fun _ => ?_ | refine writes_ite ?_ ?_ | exact c0 | refine writes_act (bit_mask hm ?_)
    | ((with_reducible show Nat.testBit _ (Eff.num _) = true); simp only [Eff.num]; rfl) | split | dsimp only [id]

theorem execCtMul_writes {m : Nat} (hm : 52051115951 &&& m = 52051115951) (a1 : _) (a2 : _) (a3 : _) (s : State) : ∃ q : Prog, q.Writes m ∧ execCtMul a1 a2 a3 s = s.run q := by
  have c0 := @lathe_writes m (within_mask hm rfl)
  refine ⟨_, ?_, rfl⟩
  repeat' first
    | with_reducible first | exact writes_done | exact writes_nil | refine writes_cons ?_ ?_ | refine writes_seq ?_ ?_ | refine writes_look fun _ => ?_ | refine writes_when ?_ | refine writes_each fun _ => ?_ | refine writes_ite ?_ ?_ | exact c0 | refine writes_act (bit_mask hm ?_)
    | ((with_reducible show Nat.testBit _ (Eff.num _) = true); simp only [Eff.num]; rfl) | split | dsimp only [id]

theorem execCtNop_writes {m : Nat} (hm : 52051115951 &&& m = 52051115951) (a1 : _) (a2 : _) (a3 : _) (s : State) : ∃ q : Prog, q.Writes m ∧ execCtNop a1 a2 a3 s = s.run q := by
  have c0 := @lathe_writes m (within_mask hm rfl)
  refine ⟨_, ?_, rfl⟩
  repeat' first
    | with_reducible first | exact writes_done | exact writes_nil | refine writes_cons ?_ ?_ | refine writes_seq ?_ ?_ | refine writes_look fun _ => ?_ | refine writes_when ?_ | refine writes_each fun _ => ?_ | refine writes_ite ?_ ?_ | exact c0 | refine writes_act (bit_mask hm ?_)
    | ((with_reducible show Nat.testBit _ (Eff.num _) = true); simp only [Eff.num]; rfl) | split | dsimp only [id]

theorem execCtOr_writes {m : Nat} (hm : 52051115951 &&& m = 52051115951) (a1 : _) (a2 : _) (a3 : _) (s : State) : ∃ q : Prog, q.Writes m ∧ execCtOr a1 a2 a3 s = s.run q := by
  have c0 := @lathe_writes m (within_mask hm rfl)
  refine ⟨_, ?_, rfl⟩
  repeat' first
    | with_reducible first | exact writes_done | exact writes_nil | refine writes_cons ?_ ?_ | refine writes_seq ?_ ?_ | refine writes_look fun _ => ?_ | refine writes_when ?_ | refine writes_each fun _ => ?_ | refine writes_ite ?_ ?_ | exact c0 | refine writes_act (bit_mask hm ?_)
    | ((with_reducible show Nat.testBit _ (Eff.num _) = true); simp only [Eff.num]; rfl) | split | dsimp only [id]

theorem execCtRank_writes {m : Nat} (hm : 52051115951 &&& m = 52051115951) (a1 : _) (a2 : _) (a3 : _) (s : State) : ∃ q : Prog, q.Writes m ∧ execCtRank a1 a2 a3 s = s.run q := by
  have c0 := @lathe_writes m (within_mask hm rfl)
  refine ⟨_, ?_, rfl⟩
  repeat' first
    | with_reducible first | exact writes_done | exact writes_nil | refine writes_cons ?_ ?_ | refine writes_seq ?_ ?_ | refine writes_look fun _ => ?_ | refine writes_when ?_ | refine writes_each fun _ => ?_ | refine writes_ite ?_ ?_ | exact c0 | refine writes_act (bit_mask hm ?_)
    | ((with_reducible show Nat.testBit _ (Eff.num _) = true); simp only [Eff.num]; rfl) | split | dsimp only [id]

theorem execCtSar_writes {m : Nat} (hm : 52051115951 &&& m = 52051115951) (a1 : _) (a2 : _) (a3 : _) (s : State) : ∃ q : Prog, q.Writes m ∧ execCtSar a1 a2 a3 s = s.run q := by
  have c0 := @lathe_writes m (within_mask hm rfl)
  refine ⟨_, ?_, rfl⟩
  repeat' first
    | with_reducible first | exact writes_done | exact writes_nil | refine writes_cons ?_ ?_ | refine writes_seq ?_ ?_ | refine writes_look fun _ => ?_ | refine writes_when ?_ | refine writes_each fun _ => ?_ | refine writes_ite ?_ ?_ | exact c0 | refine writes_act (bit_mask hm ?_)
    | ((with_reducible show Nat.testBit _ (Eff.num _) = true); simp only [Eff.num]; rfl) | split | dsimp only [id]

theorem execCtShl_writes {m : Nat} (hm : 52051115951 &&& m = 52051115951) (a1 : _) (a2 : _) (a3 : _) (s : State) : ∃ q : Prog, q.Writes m ∧ execCtShl a1 a2 a3 s = s.run q := by
  have c0 := @lathe_writes m (within_mask hm rfl)
  refine ⟨_, ?_, rfl⟩
  repeat' first
    | with_reducible first | exact writes_done | exact writes_nil | refine writes_cons ?_ ?_ | refine writes_seq ?_ ?_ | refine writes_look fun _ => ?_ | refine writes_when ?_ | refine writes_each fun _ => ?_ | refine writes_ite ?_ ?_ | exact c0 | refine writes_act (bit_mask hm ?_)
    | ((with_reducible show Nat.testBit _ (Eff.num _) = true); simp only [Eff.num]; rfl) | split | dsimp only [id]

theorem execCtShr_writes {m : Nat} (hm : 52051115951 &&& m = 52051115951) (a1 : _) (a2 : _) (a3 : _) (s : State) : ∃ q : Prog, q.Writes m ∧ execCtShr a1 a2 a3 s = s.run q := by
  have c0 := @lathe_writes m (within_mask hm rfl)
  refine ⟨_, ?_, rfl⟩
  repeat' first
    | with_reducible first | exact writes_done | exact writes_nil | refine writes_cons ?_ ?_ | refine writes_seq ?_ ?_ | refine writes_look fun _ => ?_ | refine writes_when ?_ | refine writes_each fun _ => ?_ | refine writes_ite ?_ ?_ | exact c0 | refine writes_act (bit_mask hm ?_)
    | ((with_reducible show Nat.testBit _ (Eff.num _) = true); simp only [Eff.num]; rfl) | split | dsimp only [id]

theorem execCtSlt_writes {m : Nat} (hm : 52051115951 &&& m = 52051115951) (a1 : _) (a2 : _) (a3 : _) (s : State) : ∃ q : Prog, q.Writes m ∧ execCtSlt a1 a2 a3 s = s.run q := by
  have c0 := @lathe_writes m (within_mask hm rfl)
  refine ⟨_, ?_, rfl⟩
  repeat' first
    | with_reducible first | exact writes_done | exact writes_nil | refine writes_cons ?_ ?_ | refine writes_seq ?_ ?_ | refine writes_look fun _ => ?_ | refine writes_when ?_ | refine writes_each fun _ => ?_ | refine writes_ite ?_ ?_ | exact c0 | refine writes_act (bit_mask hm ?_)
    | ((with_reducible show Nat.testBit _ (Eff.num _) = true); simp only [Eff.num]; rfl) | split | dsimp only [id]

theorem execCtSltu_writes {m : Nat} (hm : 52051115951 &&& m = 52051115951) (a1 : _) (a2 : _) (a3 : _) (s : State) : ∃ q : Prog, q.Writes m ∧ execCtSltu a1 a2 a3 s = s.run q := by
  have c0 := @lathe_writes m (within_mask hm rfl)
  refine ⟨_, ?_, rfl⟩
  repeat' first
    | with_reducible first | exact writes_done | exact writes_nil | refine writes_cons ?_ ?_ | refine writes_seq ?_ ?_ | refine writes_look fun _ => ?_ | refine writes_when ?_ | refine writes_each fun _ => ?_ | refine writes_ite ?_ ?_ | exact c0 | refine writes_act (bit_mask hm ?_)
    | ((with_reducible show Nat.testBit _ (Eff.num _) = true); simp only [Eff.num]; rfl) | split | dsimp only [id]

theorem execCtSt_writes {m : Nat} (hm : 52051115951 &&& m = 52051115951) (a1 : _) (a2 : _) (a3 : _) (s : State) : ∃ q : Prog, q.Writes m ∧ execCtSt a1 a2 a3 s = s.run q := by
  have c0 := @lathe_writes m (within_mask hm rfl)
  refine ⟨_, ?_, rfl⟩
  repeat' first
    | with_reducible first | exact writes_done | exact writes_nil | refine writes_cons ?_ ?_ | refine writes_seq ?_ ?_ | refine writes_look fun _ => ?_ | refine writes_when ?_ | refine writes_each fun _ => ?_ | refine writes_ite ?_ ?_ | exact c0 | refine writes_act (bit_mask hm ?_)
    | ((with_reducible show Nat.testBit _ (Eff.num _) = true); simp only [Eff.num]; rfl) | split | dsimp only [id]

theorem execCtStep_writes {m : Nat} (hm : 52051115951 &&& m = 52051115951) (a1 : _) (a2 : _) (a3 : _) (s : State) : ∃ q : Prog, q.Writes m ∧ execCtStep a1 a2 a3 s = s.run q := by
  have c0 := @lathe_writes m (within_mask hm rfl)
  refine ⟨_, ?_, rfl⟩
  repeat' first
    | with_reducible first | exact writes_done | exact writes_nil | refine writes_cons ?_ ?_ | refine writes_seq ?_ ?_ | refine writes_look fun _ => ?_ | refine writes_when ?_ | refine writes_each fun _ => ?_ | refine writes_ite ?_ ?_ | exact c0 | refine writes_act (bit_mask hm ?_)
    | ((with_reducible show Nat.testBit _ (Eff.num _) = true); simp only [Eff.num]; rfl) | split | dsimp only [id]

theorem execCtSub_writes {m : Nat} (hm : 52051115951 &&& m = 52051115951) (a1 : _) (a2 : _) (a3 : _) (s : State) : ∃ q : Prog, q.Writes m ∧ execCtSub a1 a2 a3 s = s.run q := by
  have c0 := @lathe_writes m (within_mask hm rfl)
  refine ⟨_, ?_, rfl⟩
  repeat' first
    | with_reducible first | exact writes_done | exact writes_nil | refine writes_cons ?_ ?_ | refine writes_seq ?_ ?_ | refine writes_look fun _ => ?_ | refine writes_when ?_ | refine writes_each fun _ => ?_ | refine writes_ite ?_ ?_ | exact c0 | refine writes_act (bit_mask hm ?_)
    | ((with_reducible show Nat.testBit _ (Eff.num _) = true); simp only [Eff.num]; rfl) | split | dsimp only [id]

theorem execCtTime_writes {m : Nat} (hm : 52051115951 &&& m = 52051115951) (a1 : _) (a2 : _) (a3 : _) (s : State) : ∃ q : Prog, q.Writes m ∧ execCtTime a1 a2 a3 s = s.run q := by
  have c0 := @lathe_writes m (within_mask hm rfl)
  refine ⟨_, ?_, rfl⟩
  repeat' first
    | with_reducible first | exact writes_done | exact writes_nil | refine writes_cons ?_ ?_ | refine writes_seq ?_ ?_ | refine writes_look fun _ => ?_ | refine writes_when ?_ | refine writes_each fun _ => ?_ | refine writes_ite ?_ ?_ | exact c0 | refine writes_act (bit_mask hm ?_)
    | ((with_reducible show Nat.testBit _ (Eff.num _) = true); simp only [Eff.num]; rfl) | split | dsimp only [id]

theorem execCtXor_writes {m : Nat} (hm : 52051115951 &&& m = 52051115951) (a1 : _) (a2 : _) (a3 : _) (s : State) : ∃ q : Prog, q.Writes m ∧ execCtXor a1 a2 a3 s = s.run q := by
  have c0 := @lathe_writes m (within_mask hm rfl)
  refine ⟨_, ?_, rfl⟩
  repeat' first
    | with_reducible first | exact writes_done | exact writes_nil | refine writes_cons ?_ ?_ | refine writes_seq ?_ ?_ | refine writes_look fun _ => ?_ | refine writes_when ?_ | refine writes_each fun _ => ?_ | refine writes_ite ?_ ?_ | exact c0 | refine writes_act (bit_mask hm ?_)
    | ((with_reducible show Nat.testBit _ (Eff.num _) = true); simp only [Eff.num]; rfl) | split | dsimp only [id]

theorem execEndProgram_writes {m : Nat} (hm : 52051115951 &&& m = 52051115951) (a1 : _) (a2 : _) (a3 : _) (s : State) : ∃ q : Prog, q.Writes m ∧ execEndProgram a1 a2 a3 s = s.run q := by
  have c0 := @lathe_writes m (within_mask hm rfl)
  refine ⟨_, ?_, rfl⟩
  repeat' first
    | with_reducible first | exact writes_done | exact writes_nil | refine writes_cons ?_ ?_ | refine writes_seq ?_ ?_ | refine writes_look fun _ => ?_ | refine writes_when ?_ | refine writes_each fun _ => ?_ | refine writes_ite ?_ ?_ | exact c0 | refine writes_act (bit_mask hm ?_)
    | ((with_reducible show Nat.testBit _ (Eff.num _) = true); simp only [Eff.num]; rfl) | split | dsimp only [id]

theorem execJmp_writes {m : Nat} (hm : 52051115951 &&& m = 52051115951) (a1 : _) (a2 : _) (a3 : _) (s : State) : ∃ q : Prog, q.Writes m ∧ execJmp a1 a2 a3 s = s.run q := by
  have c0 := @lathe_writes m (within_mask hm rfl)
  refine ⟨_, ?_, rfl⟩
  repeat' first
    | with_reducible first | exact writes_done | exact writes_nil | refine writes_cons ?_ ?_ | refine writes_seq ?_ ?_ | refine writes_look fun _ => ?_ | refine writes_when ?_ | refine writes_each fun _ => ?_ | refine writes_ite ?_ ?_ | exact c0 | refine writes_act (bit_mask hm ?_)
    | ((with_reducible show Nat.testBit _ (Eff.num _) = true); simp only [Eff.num]; rfl) | split | dsimp only [id]

theorem execPand_writes {m : Nat} (hm : 52051115951 &&& m = 52051115951) (a1 : _) (a2 : _) (a3 : _) (s : State) : ∃ q : Prog, q.Writes m ∧ execPand a1 a2 a3 s = s.run q := by
  have c0 := @lathe_writes m (within_mask hm rfl)
  refine ⟨_, ?_, rfl⟩
  repeat' first
    | with_reducible first | exact writes_done | exact writes_nil | refine writes_cons ?_ ?_ | refine writes_seq ?_ ?_ | refine writes_look fun _ => ?_ | refine writes_when ?_ | refine writes_each fun _ => ?_ | refine writes_ite ?_ ?_ | exact c0 | refine writes_act (bit_mask hm ?_)
    | ((with_reducible show Nat.testBit _ (Eff.num _) = true); simp only [Eff.num]; rfl) | split | dsimp only [id]

theorem execPget_writes {m : Nat} (hm : 52051115951 &&& m = 52051115951) (a1 : _) (a2 : _) (a3 : _) (s : State) : ∃ q : Prog, q.Writes m ∧ execPget a1 a2 a3 s = s.run q := by
  have c0 := @lathe_writes m (within_mask hm rfl)
  refine ⟨_, ?_, rfl⟩
  repeat' first
    | with_reducible first | exact writes_done | exact writes_nil | refine writes_cons ?_ ?_ | refine writes_seq ?_ ?_ | refine writes_look fun _ => ?_ | refine writes_when ?_ | refine writes_each fun _ => ?_ | refine writes_ite ?_ ?_ | exact c0 | refine writes_act (bit_mask hm ?_)
    | ((with_reducible show Nat.testBit _ (Eff.num _) = true); simp only [Eff.num]; rfl) | split | dsimp only [id]

theorem execPhxld_writes {m : Nat} (hm : 52051115951 &&& m = 52051115951) (a1 : _) (a2 : _) (a3 : _) (s : State) : ∃ q : Prog, q.Writes m ∧ execPhxld a1 a2 a3 s = s.run q := by
  have c0 := @lathe_writes m (within_mask hm rfl)
  refine ⟨_, ?_, rfl⟩
  repeat' first
    | with_reducible first | exact writes_done | exact writes_nil | refine writes_cons ?_ ?_ | refine writes_seq ?_ ?_ | refine writes_look fun _ => ?_ | refine writes_when ?_ | refine writes_each fun _ => ?_ | refine writes_ite ?_ ?_ | exact c0 | refine writes_act (bit_mask hm ?_)
    | ((with_reducible show Nat.testBit _ (Eff.num _) = true); simp only [Eff.num]; rfl) | split | dsimp only [id]

theorem execPhxst_writes {m : Nat} (hm : 52051115951 &&& m = 52051115951) (a1 : _) (a2 : _) (a3 : _) (s : State) : ∃ q : Prog, q.Writes m ∧ execPhxst a1 a2 a3 s = s.run q := by
  have c0 := @lathe_writes m (within_mask hm rfl)
  refine ⟨_, ?_, rfl⟩
  repeat' first
    | with_reducible first | exact writes_done | exact writes_nil | refine writes_cons ?_ ?_ | refine writes_seq ?_ ?_ | refine writes_look fun _ => ?_ | refine writes_when ?_ | refine writes_each fun _ => ?_ | refine writes_ite ?_ ?_ | exact c0 | refine writes_act (bit_mask hm ?_)
    | ((with_reducible show Nat.testBit _ (Eff.num _) = true); simp only [Eff.num]; rfl) | split | dsimp only [id]

theorem execPnot_writes {m : Nat} (hm : 52051115951 &&& m = 52051115951) (a1 : _) (a2 : _) (a3 : _) (s : State) : ∃ q : Prog, q.Writes m ∧ execPnot a1 a2 a3 s = s.run q := by
  have c0 := @lathe_writes m (within_mask hm rfl)
  refine ⟨_, ?_, rfl⟩
  repeat' first
    | with_reducible first | exact writes_done | exact writes_nil | refine writes_cons ?_ ?_ | refine writes_seq ?_ ?_ | refine writes_look fun _ => ?_ | refine writes_when ?_ | refine writes_each fun _ => ?_ | refine writes_ite ?_ ?_ | exact c0 | refine writes_act (bit_mask hm ?_)
    | ((with_reducible show Nat.testBit _ (Eff.num _) = true); simp only [Eff.num]; rfl) | split | dsimp only [id]

theorem execPor_writes {m : Nat} (hm : 52051115951 &&& m = 52051115951) (a1 : _) (a2 : _) (a3 : _) (s : State) : ∃ q : Prog, q.Writes m ∧ execPor a1 a2 a3 s = s.run q := by
  have c0 := @lathe_writes m (within_mask hm rfl)
  refine ⟨_, ?_, rfl⟩
  repeat' first
    | with_reducible first | exact writes_done | exact writes_nil | refine writes_cons ?_ ?_ | refine writes_seq ?_ ?_ | refine writes_look fun _ => ?_ | refine writes_when ?_ | refine writes_each fun _ => ?_ | refine writes_ite ?_ ?_ | exact c0 | refine writes_act (bit_mask hm ?_)
    | ((with_reducible show Nat.testBit _ (Eff.num _) = true); simp only [Eff.num]; rfl) | split | dsimp only [id]

theorem execPset_writes {m : Nat} (hm : 52051115951 &&& m = 52051115951) (a1 : _) (a2 : _) (a3 : _) (s : State) : ∃ q : Prog, q.Writes m ∧ execPset a1 a2 a3 s = s.run q := by
  have c0 := @lathe_writes m (within_mask hm rfl)
  refine ⟨_, ?_, rfl⟩
  repeat' first
    | with_reducible first | exact writes_done | exact writes_nil | refine writes_cons ?_ ?_ | refine writes_seq ?_ ?_ | refine writes_look fun _ => ?_ | refine writes_when ?_ | refine writes_each fun _ => ?_ | refine writes_ite ?_ ?_ | exact c0 | refine writes_act (bit_mask hm ?_)
    | ((with_reducible show Nat.testBit _ (Eff.num _) = true); simp only [Eff.num]; rfl) | split | dsimp only [id]

theorem execPxor_writes {m : Nat} (hm : 52051115951 &&& m = 52051115951) (a1 : _) (a2 : _) (a3 : _) (s : State) : ∃ q : Prog, q.Writes m ∧ execPxor a1 a2 a3 s = s.run q := by
  have c0 := @lathe_writes m (within_mask hm rfl)
  refine ⟨_, ?_, rfl⟩
  repeat' first
    | with_reducible first | exact writes_done | exact writes_nil | refine writes_cons ?_ ?_ | refine writes_seq ?_ ?_ | refine writes_look fun _ => ?_ | refine writes_when ?_ | refine writes_each fun _ => ?_ | refine writes_ite ?_ ?_ | exact c0 | refine writes_act (bit_mask hm ?_)
    | ((with_reducible show Nat.testBit _ (Eff.num _) = true); simp only [Eff.num]; rfl) | split | dsimp only [id]

end Sys2Proof.Machine
end

