-- ==== Sys2Proof/Laws/Writes19.lean ====
section
/-! SUPPORT. What each meaning writes (part 7): it takes a next state, by a program whose effects are of these areas. -/

set_option maxRecDepth 16000

namespace Sys2Proof.Machine

theorem execMvCopy_writes {m : Nat} (hm : 52051115951 &&& m = 52051115951) (a1 : _) (a2 : _) (a3 : _) (s : State) : ∃ q : Prog, q.Writes m ∧ execMvCopy a1 a2 a3 s = s.run q := by
  have c0 := @lathe_writes m (within_mask hm rfl)
  refine ⟨_, ?_, rfl⟩
  repeat' first
    | with_reducible first | exact writes_done | exact writes_nil | refine writes_cons ?_ ?_ | refine writes_seq ?_ ?_ | refine writes_look fun _ => ?_ | refine writes_when ?_ | refine writes_each fun _ => ?_ | refine writes_ite ?_ ?_ | exact c0 | refine writes_act (bit_mask hm ?_)
    | ((with_reducible show Nat.testBit _ (Eff.num _) = true); simp only [Eff.num]; rfl) | split | dsimp only [id]

theorem execMvDesc_writes {m : Nat} (hm : 52051115951 &&& m = 52051115951) (a1 : _) (a2 : _) (a3 : _) (s : State) : ∃ q : Prog, q.Writes m ∧ execMvDesc a1 a2 a3 s = s.run q := by
  have c0 := @lathe_writes m (within_mask hm rfl)
  refine ⟨_, ?_, rfl⟩
  repeat' first
    | with_reducible first | exact writes_done | exact writes_nil | refine writes_cons ?_ ?_ | refine writes_seq ?_ ?_ | refine writes_look fun _ => ?_ | refine writes_when ?_ | refine writes_each fun _ => ?_ | refine writes_ite ?_ ?_ | exact c0 | refine writes_act (bit_mask hm ?_)
    | ((with_reducible show Nat.testBit _ (Eff.num _) = true); simp only [Eff.num]; rfl) | split | dsimp only [id]

theorem execMvGet_writes {m : Nat} (hm : 52051115951 &&& m = 52051115951) (a1 : _) (a2 : _) (a3 : _) (s : State) : ∃ q : Prog, q.Writes m ∧ execMvGet a1 a2 a3 s = s.run q := by
  have c0 := @lathe_writes m (within_mask hm rfl)
  refine ⟨_, ?_, rfl⟩
  repeat' first
    | with_reducible first | exact writes_done | exact writes_nil | refine writes_cons ?_ ?_ | refine writes_seq ?_ ?_ | refine writes_look fun _ => ?_ | refine writes_when ?_ | refine writes_each fun _ => ?_ | refine writes_ite ?_ ?_ | exact c0 | refine writes_act (bit_mask hm ?_)
    | ((with_reducible show Nat.testBit _ (Eff.num _) = true); simp only [Eff.num]; rfl) | split | dsimp only [id]

theorem execMvPut_writes {m : Nat} (hm : 52051115951 &&& m = 52051115951) (a1 : _) (a2 : _) (a3 : _) (s : State) : ∃ q : Prog, q.Writes m ∧ execMvPut a1 a2 a3 s = s.run q := by
  have c0 := @lathe_writes m (within_mask hm rfl)
  refine ⟨_, ?_, rfl⟩
  repeat' first
    | with_reducible first | exact writes_done | exact writes_nil | refine writes_cons ?_ ?_ | refine writes_seq ?_ ?_ | refine writes_look fun _ => ?_ | refine writes_when ?_ | refine writes_each fun _ => ?_ | refine writes_ite ?_ ?_ | exact c0 | refine writes_act (bit_mask hm ?_)
    | ((with_reducible show Nat.testBit _ (Eff.num _) = true); simp only [Eff.num]; rfl) | split | dsimp only [id]

theorem execMvXput_writes {m : Nat} (hm : 52051115951 &&& m = 52051115951) (a1 : _) (a2 : _) (a3 : _) (s : State) : ∃ q : Prog, q.Writes m ∧ execMvXput a1 a2 a3 s = s.run q := by
  have c0 := @lathe_writes m (within_mask hm rfl)
  refine ⟨_, ?_, rfl⟩
  repeat' first
    | with_reducible first | exact writes_done | exact writes_nil | refine writes_cons ?_ ?_ | refine writes_seq ?_ ?_ | refine writes_look fun _ => ?_ | refine writes_when ?_ | refine writes_each fun _ => ?_ | refine writes_ite ?_ ?_ | exact c0 | refine writes_act (bit_mask hm ?_)
    | ((with_reducible show Nat.testBit _ (Eff.num _) = true); simp only [Eff.num]; rfl) | split | dsimp only [id]

theorem execRsignal_writes {m : Nat} (hm : 52051115951 &&& m = 52051115951) (a1 : _) (a2 : _) (a3 : _) (s : State) : ∃ q : Prog, q.Writes m ∧ execRsignal a1 a2 a3 s = s.run q := by
  have c0 := @lathe_writes m (within_mask hm rfl)
  refine ⟨_, ?_, rfl⟩
  repeat' first
    | with_reducible first | exact writes_done | exact writes_nil | refine writes_cons ?_ ?_ | refine writes_seq ?_ ?_ | refine writes_look fun _ => ?_ | refine writes_when ?_ | refine writes_each fun _ => ?_ | refine writes_ite ?_ ?_ | exact c0 | refine writes_act (bit_mask hm ?_)
    | ((with_reducible show Nat.testBit _ (Eff.num _) = true); simp only [Eff.num]; rfl) | split | dsimp only [id]

theorem execRwait_writes {m : Nat} (hm : 52051115951 &&& m = 52051115951) (a1 : _) (a2 : _) (a3 : _) (s : State) : ∃ q : Prog, q.Writes m ∧ execRwait a1 a2 a3 s = s.run q := by
  have c0 := @lathe_writes m (within_mask hm rfl)
  refine ⟨_, ?_, rfl⟩
  repeat' first
    | with_reducible first | exact writes_done | exact writes_nil | refine writes_cons ?_ ?_ | refine writes_seq ?_ ?_ | refine writes_look fun _ => ?_ | refine writes_when ?_ | refine writes_each fun _ => ?_ | refine writes_ite ?_ ?_ | exact c0 | refine writes_act (bit_mask hm ?_)
    | ((with_reducible show Nat.testBit _ (Eff.num _) = true); simp only [Eff.num]; rfl) | split | dsimp only [id]

theorem execSyDrain_writes {m : Nat} (hm : 52051115951 &&& m = 52051115951) (a1 : _) (a2 : _) (a3 : _) (s : State) : ∃ q : Prog, q.Writes m ∧ execSyDrain a1 a2 a3 s = s.run q := by
  have c0 := @lathe_writes m (within_mask hm rfl)
  refine ⟨_, ?_, rfl⟩
  repeat' first
    | with_reducible first | exact writes_done | exact writes_nil | refine writes_cons ?_ ?_ | refine writes_seq ?_ ?_ | refine writes_look fun _ => ?_ | refine writes_when ?_ | refine writes_each fun _ => ?_ | refine writes_ite ?_ ?_ | exact c0 | refine writes_act (bit_mask hm ?_)
    | ((with_reducible show Nat.testBit _ (Eff.num _) = true); simp only [Eff.num]; rfl) | split | dsimp only [id]

theorem execSySignal_writes {m : Nat} (hm : 52051115951 &&& m = 52051115951) (a1 : _) (a2 : _) (a3 : _) (s : State) : ∃ q : Prog, q.Writes m ∧ execSySignal a1 a2 a3 s = s.run q := by
  have c0 := @lathe_writes m (within_mask hm rfl)
  refine ⟨_, ?_, rfl⟩
  repeat' first
    | with_reducible first | exact writes_done | exact writes_nil | refine writes_cons ?_ ?_ | refine writes_seq ?_ ?_ | refine writes_look fun _ => ?_ | refine writes_when ?_ | refine writes_each fun _ => ?_ | refine writes_ite ?_ ?_ | exact c0 | refine writes_act (bit_mask hm ?_)
    | ((with_reducible show Nat.testBit _ (Eff.num _) = true); simp only [Eff.num]; rfl) | split | dsimp only [id]

theorem execSyWait_writes {m : Nat} (hm : 52051115951 &&& m = 52051115951) (a1 : _) (a2 : _) (a3 : _) (s : State) : ∃ q : Prog, q.Writes m ∧ execSyWait a1 a2 a3 s = s.run q := by
  have c0 := @lathe_writes m (within_mask hm rfl)
  refine ⟨_, ?_, rfl⟩
  repeat' first
    | with_reducible first | exact writes_done | exact writes_nil | refine writes_cons ?_ ?_ | refine writes_seq ?_ ?_ | refine writes_look fun _ => ?_ | refine writes_when ?_ | refine writes_each fun _ => ?_ | refine writes_ite ?_ ?_ | exact c0 | refine writes_act (bit_mask hm ?_)
    | ((with_reducible show Nat.testBit _ (Eff.num _) = true); simp only [Eff.num]; rfl) | split | dsimp only [id]

theorem execPass_writes {m : Nat} (hm : 52051115951 &&& m = 52051115951) (a1 : _) (a2 : _) (a3 : _) (s : State) : ∃ q : Prog, q.Writes m ∧ execPass a1 a2 a3 s = s.run q := by
  have c0 := @lathe_writes m (within_mask hm rfl)
  refine ⟨_, ?_, rfl⟩
  repeat' first
    | with_reducible first | exact writes_done | exact writes_nil | refine writes_cons ?_ ?_ | refine writes_seq ?_ ?_ | refine writes_look fun _ => ?_ | refine writes_when ?_ | refine writes_each fun _ => ?_ | refine writes_ite ?_ ?_ | exact c0 | refine writes_act (bit_mask hm ?_)
    | ((with_reducible show Nat.testBit _ (Eff.num _) = true); simp only [Eff.num]; rfl) | split | dsimp only [id]

theorem execReduceMax_writes {m : Nat} (hm : 52051115951 &&& m = 52051115951) (a1 : _) (a2 : _) (a3 : _) (s : State) : ∃ q : Prog, q.Writes m ∧ execReduceMax a1 a2 a3 s = s.run q := by
  have c0 := @lathe_writes m (within_mask hm rfl)
  refine ⟨_, ?_, rfl⟩
  repeat' first
    | with_reducible first | exact writes_done | exact writes_nil | refine writes_cons ?_ ?_ | refine writes_seq ?_ ?_ | refine writes_look fun _ => ?_ | refine writes_when ?_ | refine writes_each fun _ => ?_ | refine writes_ite ?_ ?_ | exact c0 | refine writes_act (bit_mask hm ?_)
    | ((with_reducible show Nat.testBit _ (Eff.num _) = true); simp only [Eff.num]; rfl) | split | dsimp only [id]

theorem execReduceMin_writes {m : Nat} (hm : 52051115951 &&& m = 52051115951) (a1 : _) (a2 : _) (a3 : _) (s : State) : ∃ q : Prog, q.Writes m ∧ execReduceMin a1 a2 a3 s = s.run q := by
  have c0 := @lathe_writes m (within_mask hm rfl)
  refine ⟨_, ?_, rfl⟩
  repeat' first
    | with_reducible first | exact writes_done | exact writes_nil | refine writes_cons ?_ ?_ | refine writes_seq ?_ ?_ | refine writes_look fun _ => ?_ | refine writes_when ?_ | refine writes_each fun _ => ?_ | refine writes_ite ?_ ?_ | exact c0 | refine writes_act (bit_mask hm ?_)
    | ((with_reducible show Nat.testBit _ (Eff.num _) = true); simp only [Eff.num]; rfl) | split | dsimp only [id]

theorem execReduceSum_writes {m : Nat} (hm : 52051115951 &&& m = 52051115951) (a1 : _) (a2 : _) (a3 : _) (s : State) : ∃ q : Prog, q.Writes m ∧ execReduceSum a1 a2 a3 s = s.run q := by
  have c0 := @lathe_writes m (within_mask hm rfl)
  refine ⟨_, ?_, rfl⟩
  repeat' first
    | with_reducible first | exact writes_done | exact writes_nil | refine writes_cons ?_ ?_ | refine writes_seq ?_ ?_ | refine writes_look fun _ => ?_ | refine writes_when ?_ | refine writes_each fun _ => ?_ | refine writes_ite ?_ ?_ | exact c0 | refine writes_act (bit_mask hm ?_)
    | ((with_reducible show Nat.testBit _ (Eff.num _) = true); simp only [Eff.num]; rfl) | split | dsimp only [id]

theorem execBcastColumn_writes {m : Nat} (hm : 52051115951 &&& m = 52051115951) (a1 : _) (a2 : _) (a3 : _) (s : State) : ∃ q : Prog, q.Writes m ∧ execBcastColumn a1 a2 a3 s = s.run q := by
  have c0 := @lathe_writes m (within_mask hm rfl)
  refine ⟨_, ?_, rfl⟩
  repeat' first
    | with_reducible first | exact writes_done | exact writes_nil | refine writes_cons ?_ ?_ | refine writes_seq ?_ ?_ | refine writes_look fun _ => ?_ | refine writes_when ?_ | refine writes_each fun _ => ?_ | refine writes_ite ?_ ?_ | exact c0 | refine writes_act (bit_mask hm ?_)
    | ((with_reducible show Nat.testBit _ (Eff.num _) = true); simp only [Eff.num]; rfl) | split | dsimp only [id]

theorem execBcastRow_writes {m : Nat} (hm : 52051115951 &&& m = 52051115951) (a1 : _) (a2 : _) (a3 : _) (s : State) : ∃ q : Prog, q.Writes m ∧ execBcastRow a1 a2 a3 s = s.run q := by
  have c0 := @lathe_writes m (within_mask hm rfl)
  refine ⟨_, ?_, rfl⟩
  repeat' first
    | with_reducible first | exact writes_done | exact writes_nil | refine writes_cons ?_ ?_ | refine writes_seq ?_ ?_ | refine writes_look fun _ => ?_ | refine writes_when ?_ | refine writes_each fun _ => ?_ | refine writes_ite ?_ ?_ | exact c0 | refine writes_act (bit_mask hm ?_)
    | ((with_reducible show Nat.testBit _ (Eff.num _) = true); simp only [Eff.num]; rfl) | split | dsimp only [id]

theorem execCmpEq_writes {m : Nat} (hm : 52051115951 &&& m = 52051115951) (a1 : _) (a2 : _) (a3 : _) (s : State) : ∃ q : Prog, q.Writes m ∧ execCmpEq a1 a2 a3 s = s.run q := by
  have c0 := @lathe_writes m (within_mask hm rfl)
  refine ⟨_, ?_, rfl⟩
  repeat' first
    | with_reducible first | exact writes_done | exact writes_nil | refine writes_cons ?_ ?_ | refine writes_seq ?_ ?_ | refine writes_look fun _ => ?_ | refine writes_when ?_ | refine writes_each fun _ => ?_ | refine writes_ite ?_ ?_ | exact c0 | refine writes_act (bit_mask hm ?_)
    | ((with_reducible show Nat.testBit _ (Eff.num _) = true); simp only [Eff.num]; rfl) | split | dsimp only [id]

theorem execCmpLe_writes {m : Nat} (hm : 52051115951 &&& m = 52051115951) (a1 : _) (a2 : _) (a3 : _) (s : State) : ∃ q : Prog, q.Writes m ∧ execCmpLe a1 a2 a3 s = s.run q := by
  have c0 := @lathe_writes m (within_mask hm rfl)
  refine ⟨_, ?_, rfl⟩
  repeat' first
    | with_reducible first | exact writes_done | exact writes_nil | refine writes_cons ?_ ?_ | refine writes_seq ?_ ?_ | refine writes_look fun _ => ?_ | refine writes_when ?_ | refine writes_each fun _ => ?_ | refine writes_ite ?_ ?_ | exact c0 | refine writes_act (bit_mask hm ?_)
    | ((with_reducible show Nat.testBit _ (Eff.num _) = true); simp only [Eff.num]; rfl) | split | dsimp only [id]

theorem execCmpLt_writes {m : Nat} (hm : 52051115951 &&& m = 52051115951) (a1 : _) (a2 : _) (a3 : _) (s : State) : ∃ q : Prog, q.Writes m ∧ execCmpLt a1 a2 a3 s = s.run q := by
  have c0 := @lathe_writes m (within_mask hm rfl)
  refine ⟨_, ?_, rfl⟩
  repeat' first
    | with_reducible first | exact writes_done | exact writes_nil | refine writes_cons ?_ ?_ | refine writes_seq ?_ ?_ | refine writes_look fun _ => ?_ | refine writes_when ?_ | refine writes_each fun _ => ?_ | refine writes_ite ?_ ?_ | exact c0 | refine writes_act (bit_mask hm ?_)
    | ((with_reducible show Nat.testBit _ (Eff.num _) = true); simp only [Eff.num]; rfl) | split | dsimp only [id]

theorem execCmpUn_writes {m : Nat} (hm : 52051115951 &&& m = 52051115951) (a1 : _) (a2 : _) (a3 : _) (s : State) : ∃ q : Prog, q.Writes m ∧ execCmpUn a1 a2 a3 s = s.run q := by
  have c0 := @lathe_writes m (within_mask hm rfl)
  refine ⟨_, ?_, rfl⟩
  repeat' first
    | with_reducible first | exact writes_done | exact writes_nil | refine writes_cons ?_ ?_ | refine writes_seq ?_ ?_ | refine writes_look fun _ => ?_ | refine writes_when ?_ | refine writes_each fun _ => ?_ | refine writes_ite ?_ ?_ | exact c0 | refine writes_act (bit_mask hm ?_)
    | ((with_reducible show Nat.testBit _ (Eff.num _) = true); simp only [Eff.num]; rfl) | split | dsimp only [id]

theorem execCvt_writes {m : Nat} (hm : 52051115951 &&& m = 52051115951) (a1 : _) (a2 : _) (a3 : _) (s : State) : ∃ q : Prog, q.Writes m ∧ execCvt a1 a2 a3 s = s.run q := by
  have c0 := @lathe_writes m (within_mask hm rfl)
  refine ⟨_, ?_, rfl⟩
  repeat' first
    | with_reducible first | exact writes_done | exact writes_nil | refine writes_cons ?_ ?_ | refine writes_seq ?_ ?_ | refine writes_look fun _ => ?_ | refine writes_when ?_ | refine writes_each fun _ => ?_ | refine writes_ite ?_ ?_ | exact c0 | refine writes_act (bit_mask hm ?_)
    | ((with_reducible show Nat.testBit _ (Eff.num _) = true); simp only [Eff.num]; rfl) | split | dsimp only [id]

theorem execF2i_writes {m : Nat} (hm : 52051115951 &&& m = 52051115951) (a1 : _) (a2 : _) (a3 : _) (s : State) : ∃ q : Prog, q.Writes m ∧ execF2i a1 a2 a3 s = s.run q := by
  have c0 := @lathe_writes m (within_mask hm rfl)
  refine ⟨_, ?_, rfl⟩
  repeat' first
    | with_reducible first | exact writes_done | exact writes_nil | refine writes_cons ?_ ?_ | refine writes_seq ?_ ?_ | refine writes_look fun _ => ?_ | refine writes_when ?_ | refine writes_each fun _ => ?_ | refine writes_ite ?_ ?_ | exact c0 | refine writes_act (bit_mask hm ?_)
    | ((with_reducible show Nat.testBit _ (Eff.num _) = true); simp only [Eff.num]; rfl) | split | dsimp only [id]

theorem execI2f_writes {m : Nat} (hm : 52051115951 &&& m = 52051115951) (a1 : _) (a2 : _) (a3 : _) (s : State) : ∃ q : Prog, q.Writes m ∧ execI2f a1 a2 a3 s = s.run q := by
  have c0 := @lathe_writes m (within_mask hm rfl)
  refine ⟨_, ?_, rfl⟩
  repeat' first
    | with_reducible first | exact writes_done | exact writes_nil | refine writes_cons ?_ ?_ | refine writes_seq ?_ ?_ | refine writes_look fun _ => ?_ | refine writes_when ?_ | refine writes_each fun _ => ?_ | refine writes_ite ?_ ?_ | exact c0 | refine writes_act (bit_mask hm ?_)
    | ((with_reducible show Nat.testBit _ (Eff.num _) = true); simp only [Eff.num]; rfl) | split | dsimp only [id]

theorem execIadd_writes {m : Nat} (hm : 52051115951 &&& m = 52051115951) (a1 : _) (a2 : _) (a3 : _) (s : State) : ∃ q : Prog, q.Writes m ∧ execIadd a1 a2 a3 s = s.run q := by
  have c0 := @lathe_writes m (within_mask hm rfl)
  refine ⟨_, ?_, rfl⟩
  repeat' first
    | with_reducible first | exact writes_done | exact writes_nil | refine writes_cons ?_ ?_ | refine writes_seq ?_ ?_ | refine writes_look fun _ => ?_ | refine writes_when ?_ | refine writes_each fun _ => ?_ | refine writes_ite ?_ ?_ | exact c0 | refine writes_act (bit_mask hm ?_)
    | ((with_reducible show Nat.testBit _ (Eff.num _) = true); simp only [Eff.num]; rfl) | split | dsimp only [id]

theorem execImax_writes {m : Nat} (hm : 52051115951 &&& m = 52051115951) (a1 : _) (a2 : _) (a3 : _) (s : State) : ∃ q : Prog, q.Writes m ∧ execImax a1 a2 a3 s = s.run q := by
  have c0 := @lathe_writes m (within_mask hm rfl)
  refine ⟨_, ?_, rfl⟩
  repeat' first
    | with_reducible first | exact writes_done | exact writes_nil | refine writes_cons ?_ ?_ | refine writes_seq ?_ ?_ | refine writes_look fun _ => ?_ | refine writes_when ?_ | refine writes_each fun _ => ?_ | refine writes_ite ?_ ?_ | exact c0 | refine writes_act (bit_mask hm ?_)
    | ((with_reducible show Nat.testBit _ (Eff.num _) = true); simp only [Eff.num]; rfl) | split | dsimp only [id]

theorem execImin_writes {m : Nat} (hm : 52051115951 &&& m = 52051115951) (a1 : _) (a2 : _) (a3 : _) (s : State) : ∃ q : Prog, q.Writes m ∧ execImin a1 a2 a3 s = s.run q := by
  have c0 := @lathe_writes m (within_mask hm rfl)
  refine ⟨_, ?_, rfl⟩
  repeat' first
    | with_reducible first | exact writes_done | exact writes_nil | refine writes_cons ?_ ?_ | refine writes_seq ?_ ?_ | refine writes_look fun _ => ?_ | refine writes_when ?_ | refine writes_each fun _ => ?_ | refine writes_ite ?_ ?_ | exact c0 | refine writes_act (bit_mask hm ?_)
    | ((with_reducible show Nat.testBit _ (Eff.num _) = true); simp only [Eff.num]; rfl) | split | dsimp only [id]

theorem execImul_writes {m : Nat} (hm : 52051115951 &&& m = 52051115951) (a1 : _) (a2 : _) (a3 : _) (s : State) : ∃ q : Prog, q.Writes m ∧ execImul a1 a2 a3 s = s.run q := by
  have c0 := @lathe_writes m (within_mask hm rfl)
  refine ⟨_, ?_, rfl⟩
  repeat' first
    | with_reducible first | exact writes_done | exact writes_nil | refine writes_cons ?_ ?_ | refine writes_seq ?_ ?_ | refine writes_look fun _ => ?_ | refine writes_when ?_ | refine writes_each fun _ => ?_ | refine writes_ite ?_ ?_ | exact c0 | refine writes_act (bit_mask hm ?_)
    | ((with_reducible show Nat.testBit _ (Eff.num _) = true); simp only [Eff.num]; rfl) | split | dsimp only [id]

theorem execIsub_writes {m : Nat} (hm : 52051115951 &&& m = 52051115951) (a1 : _) (a2 : _) (a3 : _) (s : State) : ∃ q : Prog, q.Writes m ∧ execIsub a1 a2 a3 s = s.run q := by
  have c0 := @lathe_writes m (within_mask hm rfl)
  refine ⟨_, ?_, rfl⟩
  repeat' first
    | with_reducible first | exact writes_done | exact writes_nil | refine writes_cons ?_ ?_ | refine writes_seq ?_ ?_ | refine writes_look fun _ => ?_ | refine writes_when ?_ | refine writes_each fun _ => ?_ | refine writes_ite ?_ ?_ | exact c0 | refine writes_act (bit_mask hm ?_)
    | ((with_reducible show Nat.testBit _ (Eff.num _) = true); simp only [Eff.num]; rfl) | split | dsimp only [id]

theorem execRandRaw_writes {m : Nat} (hm : 52051115951 &&& m = 52051115951) (a1 : _) (a2 : _) (a3 : _) (s : State) : ∃ q : Prog, q.Writes m ∧ execRandRaw a1 a2 a3 s = s.run q := by
  have c0 := @lathe_writes m (within_mask hm rfl)
  refine ⟨_, ?_, rfl⟩
  repeat' first
    | with_reducible first | exact writes_done | exact writes_nil | refine writes_cons ?_ ?_ | refine writes_seq ?_ ?_ | refine writes_look fun _ => ?_ | refine writes_when ?_ | refine writes_each fun _ => ?_ | refine writes_ite ?_ ?_ | exact c0 | refine writes_act (bit_mask hm ?_)
    | ((with_reducible show Nat.testBit _ (Eff.num _) = true); simp only [Eff.num]; rfl) | split | dsimp only [id]

theorem execRandUnif_writes {m : Nat} (hm : 52051115951 &&& m = 52051115951) (a1 : _) (a2 : _) (a3 : _) (s : State) : ∃ q : Prog, q.Writes m ∧ execRandUnif a1 a2 a3 s = s.run q := by
  have c0 := @lathe_writes m (within_mask hm rfl)
  refine ⟨_, ?_, rfl⟩
  repeat' first
    | with_reducible first | exact writes_done | exact writes_nil | refine writes_cons ?_ ?_ | refine writes_seq ?_ ?_ | refine writes_look fun _ => ?_ | refine writes_when ?_ | refine writes_each fun _ => ?_ | refine writes_ite ?_ ?_ | exact c0 | refine writes_act (bit_mask hm ?_)
    | ((with_reducible show Nat.testBit _ (Eff.num _) = true); simp only [Eff.num]; rfl) | split | dsimp only [id]

theorem execTrans_writes {m : Nat} (hm : 52051115951 &&& m = 52051115951) (a1 : _) (a2 : _) (a3 : _) (s : State) : ∃ q : Prog, q.Writes m ∧ execTrans a1 a2 a3 s = s.run q := by
  have c0 := @lathe_writes m (within_mask hm rfl)
  refine ⟨_, ?_, rfl⟩
  repeat' first
    | with_reducible first | exact writes_done | exact writes_nil | refine writes_cons ?_ ?_ | refine writes_seq ?_ ?_ | refine writes_look fun _ => ?_ | refine writes_when ?_ | refine writes_each fun _ => ?_ | refine writes_ite ?_ ?_ | exact c0 | refine writes_act (bit_mask hm ?_)
    | ((with_reducible show Nat.testBit _ (Eff.num _) = true); simp only [Eff.num]; rfl) | split | dsimp only [id]

theorem execVxAbs_writes {m : Nat} (hm : 52051115951 &&& m = 52051115951) (a1 : _) (a2 : _) (a3 : _) (s : State) : ∃ q : Prog, q.Writes m ∧ execVxAbs a1 a2 a3 s = s.run q := by
  have c0 := @lathe_writes m (within_mask hm rfl)
  refine ⟨_, ?_, rfl⟩
  repeat' first
    | with_reducible first | exact writes_done | exact writes_nil | refine writes_cons ?_ ?_ | refine writes_seq ?_ ?_ | refine writes_look fun _ => ?_ | refine writes_when ?_ | refine writes_each fun _ => ?_ | refine writes_ite ?_ ?_ | exact c0 | refine writes_act (bit_mask hm ?_)
    | ((with_reducible show Nat.testBit _ (Eff.num _) = true); simp only [Eff.num]; rfl) | split | dsimp only [id]

theorem execVxAdd_writes {m : Nat} (hm : 52051115951 &&& m = 52051115951) (a1 : _) (a2 : _) (a3 : _) (s : State) : ∃ q : Prog, q.Writes m ∧ execVxAdd a1 a2 a3 s = s.run q := by
  have c0 := @lathe_writes m (within_mask hm rfl)
  refine ⟨_, ?_, rfl⟩
  repeat' first
    | with_reducible first | exact writes_done | exact writes_nil | refine writes_cons ?_ ?_ | refine writes_seq ?_ ?_ | refine writes_look fun _ => ?_ | refine writes_when ?_ | refine writes_each fun _ => ?_ | refine writes_ite ?_ ?_ | exact c0 | refine writes_act (bit_mask hm ?_)
    | ((with_reducible show Nat.testBit _ (Eff.num _) = true); simp only [Eff.num]; rfl) | split | dsimp only [id]

theorem execVxAnd_writes {m : Nat} (hm : 52051115951 &&& m = 52051115951) (a1 : _) (a2 : _) (a3 : _) (s : State) : ∃ q : Prog, q.Writes m ∧ execVxAnd a1 a2 a3 s = s.run q := by
  have c0 := @lathe_writes m (within_mask hm rfl)
  refine ⟨_, ?_, rfl⟩
  repeat' first
    | with_reducible first | exact writes_done | exact writes_nil | refine writes_cons ?_ ?_ | refine writes_seq ?_ ?_ | refine writes_look fun _ => ?_ | refine writes_when ?_ | refine writes_each fun _ => ?_ | refine writes_ite ?_ ?_ | exact c0 | refine writes_act (bit_mask hm ?_)
    | ((with_reducible show Nat.testBit _ (Eff.num _) = true); simp only [Eff.num]; rfl) | split | dsimp only [id]

theorem execVxDiv_writes {m : Nat} (hm : 52051115951 &&& m = 52051115951) (a1 : _) (a2 : _) (a3 : _) (s : State) : ∃ q : Prog, q.Writes m ∧ execVxDiv a1 a2 a3 s = s.run q := by
  have c0 := @lathe_writes m (within_mask hm rfl)
  refine ⟨_, ?_, rfl⟩
  repeat' first
    | with_reducible first | exact writes_done | exact writes_nil | refine writes_cons ?_ ?_ | refine writes_seq ?_ ?_ | refine writes_look fun _ => ?_ | refine writes_when ?_ | refine writes_each fun _ => ?_ | refine writes_ite ?_ ?_ | exact c0 | refine writes_act (bit_mask hm ?_)
    | ((with_reducible show Nat.testBit _ (Eff.num _) = true); simp only [Eff.num]; rfl) | split | dsimp only [id]

theorem execVxExp_writes {m : Nat} (hm : 52051115951 &&& m = 52051115951) (a1 : _) (a2 : _) (a3 : _) (s : State) : ∃ q : Prog, q.Writes m ∧ execVxExp a1 a2 a3 s = s.run q := by
  have c0 := @lathe_writes m (within_mask hm rfl)
  refine ⟨_, ?_, rfl⟩
  repeat' first
    | with_reducible first | exact writes_done | exact writes_nil | refine writes_cons ?_ ?_ | refine writes_seq ?_ ?_ | refine writes_look fun _ => ?_ | refine writes_when ?_ | refine writes_each fun _ => ?_ | refine writes_ite ?_ ?_ | exact c0 | refine writes_act (bit_mask hm ?_)
    | ((with_reducible show Nat.testBit _ (Eff.num _) = true); simp only [Eff.num]; rfl) | split | dsimp only [id]

theorem execVxExp2_writes {m : Nat} (hm : 52051115951 &&& m = 52051115951) (a1 : _) (a2 : _) (a3 : _) (s : State) : ∃ q : Prog, q.Writes m ∧ execVxExp2 a1 a2 a3 s = s.run q := by
  have c0 := @lathe_writes m (within_mask hm rfl)
  refine ⟨_, ?_, rfl⟩
  repeat' first
    | with_reducible first | exact writes_done | exact writes_nil | refine writes_cons ?_ ?_ | refine writes_seq ?_ ?_ | refine writes_look fun _ => ?_ | refine writes_when ?_ | refine writes_each fun _ => ?_ | refine writes_ite ?_ ?_ | exact c0 | refine writes_act (bit_mask hm ?_)
    | ((with_reducible show Nat.testBit _ (Eff.num _) = true); simp only [Eff.num]; rfl) | split | dsimp only [id]

theorem execVxFma_writes {m : Nat} (hm : 52051115951 &&& m = 52051115951) (a1 : _) (a2 : _) (a3 : _) (s : State) : ∃ q : Prog, q.Writes m ∧ execVxFma a1 a2 a3 s = s.run q := by
  have c0 := @lathe_writes m (within_mask hm rfl)
  refine ⟨_, ?_, rfl⟩
  repeat' first
    | with_reducible first | exact writes_done | exact writes_nil | refine writes_cons ?_ ?_ | refine writes_seq ?_ ?_ | refine writes_look fun _ => ?_ | refine writes_when ?_ | refine writes_each fun _ => ?_ | refine writes_ite ?_ ?_ | exact c0 | refine writes_act (bit_mask hm ?_)
    | ((with_reducible show Nat.testBit _ (Eff.num _) = true); simp only [Eff.num]; rfl) | split | dsimp only [id]

theorem execVxLd_writes {m : Nat} (hm : 52051115951 &&& m = 52051115951) (a1 : _) (a2 : _) (a3 : _) (s : State) : ∃ q : Prog, q.Writes m ∧ execVxLd a1 a2 a3 s = s.run q := by
  have c0 := @lathe_writes m (within_mask hm rfl)
  refine ⟨_, ?_, rfl⟩
  repeat' first
    | with_reducible first | exact writes_done | exact writes_nil | refine writes_cons ?_ ?_ | refine writes_seq ?_ ?_ | refine writes_look fun _ => ?_ | refine writes_when ?_ | refine writes_each fun _ => ?_ | refine writes_ite ?_ ?_ | exact c0 | refine writes_act (bit_mask hm ?_)
    | ((with_reducible show Nat.testBit _ (Eff.num _) = true); simp only [Eff.num]; rfl) | split | dsimp only [id]

theorem execVxLog_writes {m : Nat} (hm : 52051115951 &&& m = 52051115951) (a1 : _) (a2 : _) (a3 : _) (s : State) : ∃ q : Prog, q.Writes m ∧ execVxLog a1 a2 a3 s = s.run q := by
  have c0 := @lathe_writes m (within_mask hm rfl)
  refine ⟨_, ?_, rfl⟩
  repeat' first
    | with_reducible first | exact writes_done | exact writes_nil | refine writes_cons ?_ ?_ | refine writes_seq ?_ ?_ | refine writes_look fun _ => ?_ | refine writes_when ?_ | refine writes_each fun _ => ?_ | refine writes_ite ?_ ?_ | exact c0 | refine writes_act (bit_mask hm ?_)
    | ((with_reducible show Nat.testBit _ (Eff.num _) = true); simp only [Eff.num]; rfl) | split | dsimp only [id]

theorem execVxLog2_writes {m : Nat} (hm : 52051115951 &&& m = 52051115951) (a1 : _) (a2 : _) (a3 : _) (s : State) : ∃ q : Prog, q.Writes m ∧ execVxLog2 a1 a2 a3 s = s.run q := by
  have c0 := @lathe_writes m (within_mask hm rfl)
  refine ⟨_, ?_, rfl⟩
  repeat' first
    | with_reducible first | exact writes_done | exact writes_nil | refine writes_cons ?_ ?_ | refine writes_seq ?_ ?_ | refine writes_look fun _ => ?_ | refine writes_when ?_ | refine writes_each fun _ => ?_ | refine writes_ite ?_ ?_ | exact c0 | refine writes_act (bit_mask hm ?_)
    | ((with_reducible show Nat.testBit _ (Eff.num _) = true); simp only [Eff.num]; rfl) | split | dsimp only [id]

theorem execVxMax_writes {m : Nat} (hm : 52051115951 &&& m = 52051115951) (a1 : _) (a2 : _) (a3 : _) (s : State) : ∃ q : Prog, q.Writes m ∧ execVxMax a1 a2 a3 s = s.run q := by
  have c0 := @lathe_writes m (within_mask hm rfl)
  refine ⟨_, ?_, rfl⟩
  repeat' first
    | with_reducible first | exact writes_done | exact writes_nil | refine writes_cons ?_ ?_ | refine writes_seq ?_ ?_ | refine writes_look fun _ => ?_ | refine writes_when ?_ | refine writes_each fun _ => ?_ | refine writes_ite ?_ ?_ | exact c0 | refine writes_act (bit_mask hm ?_)
    | ((with_reducible show Nat.testBit _ (Eff.num _) = true); simp only [Eff.num]; rfl) | split | dsimp only [id]

theorem execVxMin_writes {m : Nat} (hm : 52051115951 &&& m = 52051115951) (a1 : _) (a2 : _) (a3 : _) (s : State) : ∃ q : Prog, q.Writes m ∧ execVxMin a1 a2 a3 s = s.run q := by
  have c0 := @lathe_writes m (within_mask hm rfl)
  refine ⟨_, ?_, rfl⟩
  repeat' first
    | with_reducible first | exact writes_done | exact writes_nil | refine writes_cons ?_ ?_ | refine writes_seq ?_ ?_ | refine writes_look fun _ => ?_ | refine writes_when ?_ | refine writes_each fun _ => ?_ | refine writes_ite ?_ ?_ | exact c0 | refine writes_act (bit_mask hm ?_)
    | ((with_reducible show Nat.testBit _ (Eff.num _) = true); simp only [Eff.num]; rfl) | split | dsimp only [id]

theorem execVxMov_writes {m : Nat} (hm : 52051115951 &&& m = 52051115951) (a1 : _) (a2 : _) (a3 : _) (s : State) : ∃ q : Prog, q.Writes m ∧ execVxMov a1 a2 a3 s = s.run q := by
  have c0 := @lathe_writes m (within_mask hm rfl)
  refine ⟨_, ?_, rfl⟩
  repeat' first
    | with_reducible first | exact writes_done | exact writes_nil | refine writes_cons ?_ ?_ | refine writes_seq ?_ ?_ | refine writes_look fun _ => ?_ | refine writes_when ?_ | refine writes_each fun _ => ?_ | refine writes_ite ?_ ?_ | exact c0 | refine writes_act (bit_mask hm ?_)
    | ((with_reducible show Nat.testBit _ (Eff.num _) = true); simp only [Eff.num]; rfl) | split | dsimp only [id]

theorem execVxMul_writes {m : Nat} (hm : 52051115951 &&& m = 52051115951) (a1 : _) (a2 : _) (a3 : _) (s : State) : ∃ q : Prog, q.Writes m ∧ execVxMul a1 a2 a3 s = s.run q := by
  have c0 := @lathe_writes m (within_mask hm rfl)
  refine ⟨_, ?_, rfl⟩
  repeat' first
    | with_reducible first | exact writes_done | exact writes_nil | refine writes_cons ?_ ?_ | refine writes_seq ?_ ?_ | refine writes_look fun _ => ?_ | refine writes_when ?_ | refine writes_each fun _ => ?_ | refine writes_ite ?_ ?_ | exact c0 | refine writes_act (bit_mask hm ?_)
    | ((with_reducible show Nat.testBit _ (Eff.num _) = true); simp only [Eff.num]; rfl) | split | dsimp only [id]

theorem execVxNeg_writes {m : Nat} (hm : 52051115951 &&& m = 52051115951) (a1 : _) (a2 : _) (a3 : _) (s : State) : ∃ q : Prog, q.Writes m ∧ execVxNeg a1 a2 a3 s = s.run q := by
  have c0 := @lathe_writes m (within_mask hm rfl)
  refine ⟨_, ?_, rfl⟩
  repeat' first
    | with_reducible first | exact writes_done | exact writes_nil | refine writes_cons ?_ ?_ | refine writes_seq ?_ ?_ | refine writes_look fun _ => ?_ | refine writes_when ?_ | refine writes_each fun _ => ?_ | refine writes_ite ?_ ?_ | exact c0 | refine writes_act (bit_mask hm ?_)
    | ((with_reducible show Nat.testBit _ (Eff.num _) = true); simp only [Eff.num]; rfl) | split | dsimp only [id]

theorem execVxOr_writes {m : Nat} (hm : 52051115951 &&& m = 52051115951) (a1 : _) (a2 : _) (a3 : _) (s : State) : ∃ q : Prog, q.Writes m ∧ execVxOr a1 a2 a3 s = s.run q := by
  have c0 := @lathe_writes m (within_mask hm rfl)
  refine ⟨_, ?_, rfl⟩
  repeat' first
    | with_reducible first | exact writes_done | exact writes_nil | refine writes_cons ?_ ?_ | refine writes_seq ?_ ?_ | refine writes_look fun _ => ?_ | refine writes_when ?_ | refine writes_each fun _ => ?_ | refine writes_ite ?_ ?_ | exact c0 | refine writes_act (bit_mask hm ?_)
    | ((with_reducible show Nat.testBit _ (Eff.num _) = true); simp only [Eff.num]; rfl) | split | dsimp only [id]

theorem execVxRsqrt_writes {m : Nat} (hm : 52051115951 &&& m = 52051115951) (a1 : _) (a2 : _) (a3 : _) (s : State) : ∃ q : Prog, q.Writes m ∧ execVxRsqrt a1 a2 a3 s = s.run q := by
  have c0 := @lathe_writes m (within_mask hm rfl)
  refine ⟨_, ?_, rfl⟩
  repeat' first
    | with_reducible first | exact writes_done | exact writes_nil | refine writes_cons ?_ ?_ | refine writes_seq ?_ ?_ | refine writes_look fun _ => ?_ | refine writes_when ?_ | refine writes_each fun _ => ?_ | refine writes_ite ?_ ?_ | exact c0 | refine writes_act (bit_mask hm ?_)
    | ((with_reducible show Nat.testBit _ (Eff.num _) = true); simp only [Eff.num]; rfl) | split | dsimp only [id]

theorem execVxSar_writes {m : Nat} (hm : 52051115951 &&& m = 52051115951) (a1 : _) (a2 : _) (a3 : _) (s : State) : ∃ q : Prog, q.Writes m ∧ execVxSar a1 a2 a3 s = s.run q := by
  have c0 := @lathe_writes m (within_mask hm rfl)
  refine ⟨_, ?_, rfl⟩
  repeat' first
    | with_reducible first | exact writes_done | exact writes_nil | refine writes_cons ?_ ?_ | refine writes_seq ?_ ?_ | refine writes_look fun _ => ?_ | refine writes_when ?_ | refine writes_each fun _ => ?_ | refine writes_ite ?_ ?_ | exact c0 | refine writes_act (bit_mask hm ?_)
    | ((with_reducible show Nat.testBit _ (Eff.num _) = true); simp only [Eff.num]; rfl) | split | dsimp only [id]

theorem execVxSel_writes {m : Nat} (hm : 52051115951 &&& m = 52051115951) (a1 : _) (a2 : _) (a3 : _) (s : State) : ∃ q : Prog, q.Writes m ∧ execVxSel a1 a2 a3 s = s.run q := by
  have c0 := @lathe_writes m (within_mask hm rfl)
  refine ⟨_, ?_, rfl⟩
  repeat' first
    | with_reducible first | exact writes_done | exact writes_nil | refine writes_cons ?_ ?_ | refine writes_seq ?_ ?_ | refine writes_look fun _ => ?_ | refine writes_when ?_ | refine writes_each fun _ => ?_ | refine writes_ite ?_ ?_ | exact c0 | refine writes_act (bit_mask hm ?_)
    | ((with_reducible show Nat.testBit _ (Eff.num _) = true); simp only [Eff.num]; rfl) | split | dsimp only [id]

theorem execVxShl_writes {m : Nat} (hm : 52051115951 &&& m = 52051115951) (a1 : _) (a2 : _) (a3 : _) (s : State) : ∃ q : Prog, q.Writes m ∧ execVxShl a1 a2 a3 s = s.run q := by
  have c0 := @lathe_writes m (within_mask hm rfl)
  refine ⟨_, ?_, rfl⟩
  repeat' first
    | with_reducible first | exact writes_done | exact writes_nil | refine writes_cons ?_ ?_ | refine writes_seq ?_ ?_ | refine writes_look fun _ => ?_ | refine writes_when ?_ | refine writes_each fun _ => ?_ | refine writes_ite ?_ ?_ | exact c0 | refine writes_act (bit_mask hm ?_)
    | ((with_reducible show Nat.testBit _ (Eff.num _) = true); simp only [Eff.num]; rfl) | split | dsimp only [id]

theorem execVxShr_writes {m : Nat} (hm : 52051115951 &&& m = 52051115951) (a1 : _) (a2 : _) (a3 : _) (s : State) : ∃ q : Prog, q.Writes m ∧ execVxShr a1 a2 a3 s = s.run q := by
  have c0 := @lathe_writes m (within_mask hm rfl)
  refine ⟨_, ?_, rfl⟩
  repeat' first
    | with_reducible first | exact writes_done | exact writes_nil | refine writes_cons ?_ ?_ | refine writes_seq ?_ ?_ | refine writes_look fun _ => ?_ | refine writes_when ?_ | refine writes_each fun _ => ?_ | refine writes_ite ?_ ?_ | exact c0 | refine writes_act (bit_mask hm ?_)
    | ((with_reducible show Nat.testBit _ (Eff.num _) = true); simp only [Eff.num]; rfl) | split | dsimp only [id]

theorem execVxSigmoid_writes {m : Nat} (hm : 52051115951 &&& m = 52051115951) (a1 : _) (a2 : _) (a3 : _) (s : State) : ∃ q : Prog, q.Writes m ∧ execVxSigmoid a1 a2 a3 s = s.run q := by
  have c0 := @lathe_writes m (within_mask hm rfl)
  refine ⟨_, ?_, rfl⟩
  repeat' first
    | with_reducible first | exact writes_done | exact writes_nil | refine writes_cons ?_ ?_ | refine writes_seq ?_ ?_ | refine writes_look fun _ => ?_ | refine writes_when ?_ | refine writes_each fun _ => ?_ | refine writes_ite ?_ ?_ | exact c0 | refine writes_act (bit_mask hm ?_)
    | ((with_reducible show Nat.testBit _ (Eff.num _) = true); simp only [Eff.num]; rfl) | split | dsimp only [id]

theorem execVxSqrt_writes {m : Nat} (hm : 52051115951 &&& m = 52051115951) (a1 : _) (a2 : _) (a3 : _) (s : State) : ∃ q : Prog, q.Writes m ∧ execVxSqrt a1 a2 a3 s = s.run q := by
  have c0 := @lathe_writes m (within_mask hm rfl)
  refine ⟨_, ?_, rfl⟩
  repeat' first
    | with_reducible first | exact writes_done | exact writes_nil | refine writes_cons ?_ ?_ | refine writes_seq ?_ ?_ | refine writes_look fun _ => ?_ | refine writes_when ?_ | refine writes_each fun _ => ?_ | refine writes_ite ?_ ?_ | exact c0 | refine writes_act (bit_mask hm ?_)
    | ((with_reducible show Nat.testBit _ (Eff.num _) = true); simp only [Eff.num]; rfl) | split | dsimp only [id]

theorem execVxSt_writes {m : Nat} (hm : 52051115951 &&& m = 52051115951) (a1 : _) (a2 : _) (a3 : _) (s : State) : ∃ q : Prog, q.Writes m ∧ execVxSt a1 a2 a3 s = s.run q := by
  have c0 := @lathe_writes m (within_mask hm rfl)
  refine ⟨_, ?_, rfl⟩
  repeat' first
    | with_reducible first | exact writes_done | exact writes_nil | refine writes_cons ?_ ?_ | refine writes_seq ?_ ?_ | refine writes_look fun _ => ?_ | refine writes_when ?_ | refine writes_each fun _ => ?_ | refine writes_ite ?_ ?_ | exact c0 | refine writes_act (bit_mask hm ?_)
    | ((with_reducible show Nat.testBit _ (Eff.num _) = true); simp only [Eff.num]; rfl) | split | dsimp only [id]

theorem execVxSub_writes {m : Nat} (hm : 52051115951 &&& m = 52051115951) (a1 : _) (a2 : _) (a3 : _) (s : State) : ∃ q : Prog, q.Writes m ∧ execVxSub a1 a2 a3 s = s.run q := by
  have c0 := @lathe_writes m (within_mask hm rfl)
  refine ⟨_, ?_, rfl⟩
  repeat' first
    | with_reducible first | exact writes_done | exact writes_nil | refine writes_cons ?_ ?_ | refine writes_seq ?_ ?_ | refine writes_look fun _ => ?_ | refine writes_when ?_ | refine writes_each fun _ => ?_ | refine writes_ite ?_ ?_ | exact c0 | refine writes_act (bit_mask hm ?_)
    | ((with_reducible show Nat.testBit _ (Eff.num _) = true); simp only [Eff.num]; rfl) | split | dsimp only [id]

theorem execVxTanh_writes {m : Nat} (hm : 52051115951 &&& m = 52051115951) (a1 : _) (a2 : _) (a3 : _) (s : State) : ∃ q : Prog, q.Writes m ∧ execVxTanh a1 a2 a3 s = s.run q := by
  have c0 := @lathe_writes m (within_mask hm rfl)
  refine ⟨_, ?_, rfl⟩
  repeat' first
    | with_reducible first | exact writes_done | exact writes_nil | refine writes_cons ?_ ?_ | refine writes_seq ?_ ?_ | refine writes_look fun _ => ?_ | refine writes_when ?_ | refine writes_each fun _ => ?_ | refine writes_ite ?_ ?_ | exact c0 | refine writes_act (bit_mask hm ?_)
    | ((with_reducible show Nat.testBit _ (Eff.num _) = true); simp only [Eff.num]; rfl) | split | dsimp only [id]

theorem execVxXor_writes {m : Nat} (hm : 52051115951 &&& m = 52051115951) (a1 : _) (a2 : _) (a3 : _) (s : State) : ∃ q : Prog, q.Writes m ∧ execVxXor a1 a2 a3 s = s.run q := by
  have c0 := @lathe_writes m (within_mask hm rfl)
  refine ⟨_, ?_, rfl⟩
  repeat' first
    | with_reducible first | exact writes_done | exact writes_nil | refine writes_cons ?_ ?_ | refine writes_seq ?_ ?_ | refine writes_look fun _ => ?_ | refine writes_when ?_ | refine writes_each fun _ => ?_ | refine writes_ite ?_ ?_ | exact c0 | refine writes_act (bit_mask hm ?_)
    | ((with_reducible show Nat.testBit _ (Eff.num _) = true); simp only [Eff.num]; rfl) | split | dsimp only [id]

theorem execMemoryUe_writes {m : Nat} (hm : 1152653393647 &&& m = 1152653393647) (a1 : _) (a2 : _) (a3 : _) (s : State) : ∃ q : Prog, q.Writes m ∧ execMemoryUe a1 a2 a3 s = s.run q := by
  have c0 := @answerRequester_writes m (within_mask hm rfl)
  have c1 := @corrected_writes m (within_mask hm rfl)
  have c2 := @countBad_writes m (within_mask hm rfl)
  have c3 := @countQueue_writes m (within_mask hm rfl)
  have c4 := @dealt_writes m (within_mask hm rfl)
  have c5 := @engineReset_writes m (within_mask hm rfl)
  have c6 := @integrityOwn_writes m (within_mask hm rfl)
  have c7 := @memoryConsumers_writes m (within_mask hm rfl)
  have c8 := @modWit_writes m (within_mask hm rfl)
  have c9 := @tileParity_writes m (within_mask hm rfl)
  refine ⟨_, ?_, rfl⟩
  repeat' first
    | with_reducible first | exact writes_done | exact writes_nil | refine writes_cons ?_ ?_ | refine writes_seq ?_ ?_ | refine writes_look fun _ => ?_ | refine writes_when ?_ | refine writes_each fun _ => ?_ | refine writes_ite ?_ ?_ | exact c0 | exact c1 | exact c2 | exact c3 | exact c4 | exact c5 | exact c6 | exact c7 | exact c8 | exact c9 | refine writes_act (bit_mask hm ?_)
    | ((with_reducible show Nat.testBit _ (Eff.num _) = true); simp only [Eff.num]; rfl) | split | dsimp only [id]

end Sys2Proof.Machine
end

