-- ==== Sys2Proof/Laws/Writes20.lean ====
section
/-! SUPPORT. What the block writes by itself in one CLK_C period: one lemma per operation of the idle step. -/

set_option maxRecDepth 16000

namespace Sys2Proof.Machine

theorem fireBarriers_writes {m : Nat} (hm : 34728861569 &&& m = 34728861569) : (fireBarriers).Writes m := by
  have c0 := @fireWatches_writes m (within_mask hm rfl)
  unfold fireBarriers
  repeat' first
    | with_reducible first | exact writes_done | exact writes_nil | refine writes_cons ?_ ?_ | refine writes_seq ?_ ?_ | refine writes_look fun _ => ?_ | refine writes_when ?_ | refine writes_each fun _ => ?_ | refine writes_ite ?_ ?_ | exact c0 | refine writes_act (bit_mask hm ?_)
    | ((with_reducible show Nat.testBit _ (Eff.num _) = true); simp only [Eff.num]; rfl) | split | dsimp only

theorem restoreDeferred_writes {m : Nat} (hm : 4096 &&& m = 4096) {a1 : _} {a2 : _} : (restoreDeferred a1 a2).Writes m := by
  have c0 := @modHost_writes m (within_mask hm rfl)
  unfold restoreDeferred
  repeat' first
    | with_reducible first | exact writes_done | exact writes_nil | refine writes_cons ?_ ?_ | refine writes_seq ?_ ?_ | refine writes_look fun _ => ?_ | refine writes_when ?_ | refine writes_each fun _ => ?_ | refine writes_ite ?_ ?_ | exact c0 | refine writes_act (bit_mask hm ?_)
    | ((with_reducible show Nat.testBit _ (Eff.num _) = true); simp only [Eff.num]; rfl) | split | dsimp only

theorem settleDue_writes {m : Nat} (hm : 51781762751 &&& m = 51781762751) : (settleDue).Writes m := by
  have c0 := @declareNow_writes m (within_mask hm rfl)
  have c1 := @displace_writes m (within_mask hm rfl)
  have c2 := @modWit_writes m (within_mask hm rfl)
  unfold settleDue
  repeat' first
    | with_reducible first | exact writes_done | exact writes_nil | refine writes_cons ?_ ?_ | refine writes_seq ?_ ?_ | refine writes_look fun _ => ?_ | refine writes_when ?_ | refine writes_each fun _ => ?_ | refine writes_ite ?_ ?_ | exact c0 | exact c1 | exact c2 | refine writes_act (bit_mask hm ?_)
    | ((with_reducible show Nat.testBit _ (Eff.num _) = true); simp only [Eff.num]; rfl) | split | dsimp only

theorem tickPodTime_writes {m : Nat} (hm : 4299161600 &&& m = 4299161600) : (tickPodTime).Writes m := by
  have c0 := @modObs_writes m (within_mask hm rfl)
  unfold tickPodTime
  repeat' first
    | with_reducible first | exact writes_done | exact writes_nil | refine writes_cons ?_ ?_ | refine writes_seq ?_ ?_ | refine writes_look fun _ => ?_ | refine writes_when ?_ | refine writes_each fun _ => ?_ | refine writes_ite ?_ ?_ | exact c0 | refine writes_act (bit_mask hm ?_)
    | ((with_reducible show Nat.testBit _ (Eff.num _) = true); simp only [Eff.num]; rfl) | split | dsimp only

theorem wholeSecond_writes {m : Nat} (hm : 4194305 &&& m = 4194305) : (wholeSecond).Writes m := by
  have c0 := @bump_writes m (within_mask hm rfl)
  have c1 := @modObs_writes m (within_mask hm rfl)
  have c2 := @put_writes m (within_mask hm rfl)
  unfold wholeSecond
  repeat' first
    | with_reducible first | exact writes_done | exact writes_nil | refine writes_cons ?_ ?_ | refine writes_seq ?_ ?_ | refine writes_look fun _ => ?_ | refine writes_when ?_ | refine writes_each fun _ => ?_ | refine writes_ite ?_ ?_ | exact c0 | exact c1 | exact c2 | refine writes_act (bit_mask hm ?_)
    | ((with_reducible show Nat.testBit _ (Eff.num _) = true); simp only [Eff.num]; rfl) | split | dsimp only

theorem tick_writes {m : Nat} (hm : 58492649407 &&& m = 58492649407) : (tick).Writes m := by
  have c0 := @fireBarriers_writes m (within_mask hm rfl)
  have c1 := @settleDue_writes m (within_mask hm rfl)
  have c2 := @tickPodTime_writes m (within_mask hm rfl)
  have c3 := @wholeSecond_writes m (within_mask hm rfl)
  unfold tick
  repeat' first
    | with_reducible first | exact writes_done | exact writes_nil | refine writes_cons ?_ ?_ | refine writes_seq ?_ ?_ | refine writes_look fun _ => ?_ | refine writes_when ?_ | refine writes_each fun _ => ?_ | refine writes_ite ?_ ?_ | exact c0 | exact c1 | exact c2 | exact c3 | refine writes_act (bit_mask hm ?_)
    | ((with_reducible show Nat.testBit _ (Eff.num _) = true); simp only [Eff.num]; rfl) | split | dsimp only

end Sys2Proof.Machine
end

