-- ==== Sys2Proof/Laws/Meanings.lean ====
section
/-! SUPPORT. Every command takes a next state by running a program, and leaves the queue alone; what its meaning's effects name is all it changes. -/

namespace Sys2Proof.Machine

/-- Every command takes the next state that some program leaves. -/
theorem exec_run (c : Instr) (s : State) : ∃ q : Prog, exec c s = s.run q := by
  cases c with
  | cutReceived x0 x1 => exact (execCutReceived_writes (m := 4398046511103) rfl x0 x1 s).imp fun _ h => h.2
  | context x0 x1 => exact (execContext_writes (m := 4398046511103) rfl x0 x1 s).imp fun _ h => h.2
  | drainData x0 x1 => exact (execDrainData_writes (m := 4398046511103) rfl x0 x1 s).imp fun _ h => h.2
  | granuleStored x0 x1 => exact (execGranuleStored_writes (m := 4398046511103) rfl x0 x1 s).imp fun _ h => h.2
  | dirtyMap x0 x1 => exact (execDirtyMap_writes (m := 4398046511103) rfl x0 x1 s).imp fun _ h => h.2
  | courseDone x0 x1 => exact (execCourseDone_writes (m := 4398046511103) rfl x0 x1 s).imp fun _ h => h.2
  | abandon x0 x1 => exact (execAbandon_writes (m := 4398046511103) rfl x0 x1 s).imp fun _ h => h.2
  | health x0 x1 => exact (execHealth_writes (m := 4398046511103) rfl x0 x1 s).imp fun _ h => h.2
  | fenceDone x0 x1 => exact (execFenceDone_writes (m := 4398046511103) rfl x0 x1 s).imp fun _ h => h.2
  | witSample x0 x1 => exact (execWitSample_writes (m := 4398046511103) rfl x0 x1 s).imp fun _ h => h.2
  | slotFenceTimeout x0 => exact (execSlotFenceTimeout_writes (m := 4398046511103) rfl x0 s).imp fun _ h => h.2
  | courseOpen x0 => exact (execCourseOpen_writes (m := 4398046511103) rfl x0 s).imp fun _ h => h.2
  | courseDecide x0 => exact (execCourseDecide_writes (m := 4398046511103) rfl x0 s).imp fun _ h => h.2
  | earlyReq x0 => exact (execEarlyReq_writes (m := 4398046511103) rfl x0 s).imp fun _ h => h.2
  | vote x0 => exact (execVote_writes (m := 4398046511103) rfl x0 s).imp fun _ h => h.2
  | groupDigest x0 => exact (execGroupDigest_writes (m := 4398046511103) rfl x0 s).imp fun _ h => h.2
  | mirrorAck x0 => exact (execMirrorAck_writes (m := 4398046511103) rfl x0 s).imp fun _ h => h.2
  | dirtyReqRepeat x0 => exact (execDirtyReqRepeat_writes (m := 4398046511103) rfl x0 s).imp fun _ h => h.2
  | drainReqTimeout x0 x1 => exact (execDrainReqTimeout_writes (m := 4398046511103) rfl x0 x1 s).imp fun _ h => h.2
  | drainProgressTimeout x0 => exact (execDrainProgressTimeout_writes (m := 4398046511103) rfl x0 s).imp fun _ h => h.2
  | decisionRec x0 => exact (execDecisionRec_writes (m := 4398046511103) rfl x0 s).imp fun _ h => h.2
  | decisionAck x0 => exact (execDecisionAck_writes (m := 4398046511103) rfl x0 s).imp fun _ h => h.2
  | lostReport x0 => exact (execLostReport_writes (m := 4398046511103) rfl x0 s).imp fun _ h => h.2
  | shoreNotice x0 => exact (execShoreNotice_writes (m := 4398046511103) rfl x0 s).imp fun _ h => h.2
  | rewindPlan x0 => exact (execRewindPlan_writes (m := 4398046511103) rfl x0 s).imp fun _ h => h.2
  | rewound x0 => exact (execRewound_writes (m := 4398046511103) rfl x0 s).imp fun _ h => h.2
  | admitOrder x0 => exact (execAdmitOrder_writes (m := 4398046511103) rfl x0 s).imp fun _ h => h.2
  | repointRequest x0 x1 x2 x3 x4 x5 => exact (execRepointRequest_writes (m := 4398046511103) rfl x0 x1 x2 x3 x4 x5 s).imp fun _ h => h.2
  | witnessCompare x0 => exact (execWitnessCompare_writes (m := 4398046511103) rfl x0 s).imp fun _ h => h.2
  | divergeNotice x0 x1 => exact (execDivergeNotice_writes (m := 4398046511103) rfl x0 x1 s).imp fun _ h => h.2
  | protFault x0 => exact (execProtFault_writes (m := 4398046511103) rfl x0 s).imp fun _ h => h.2
  | watchTimeout x0 => exact (execWatchTimeout_writes (m := 4398046511103) rfl x0 s).imp fun _ h => h.2
  | peerData x0 => exact (execPeerData_writes (m := 4398046511103) rfl x0 s).imp fun _ h => h.2
  | fabWrite x0 x1 x2 => exact (execFabWrite_writes (m := 4398046511103) rfl x0 x1 x2 s).imp fun _ h => h.2
  | fabSignal x0 x1 => exact (execFabSignal_writes (m := 4398046511103) rfl x0 x1 s).imp fun _ h => h.2
  | fabRead x0 x1 => exact (execFabRead_writes (m := 4398046511103) rfl x0 x1 s).imp fun _ h => h.2
  | fabResp x0 x1 => exact (execFabResp_writes (m := 4398046511103) rfl x0 x1 s).imp fun _ h => h.2
  | hostClose x0 => exact (execHostClose_writes (m := 4398046511103) rfl x0 s).imp fun _ h => h.2
  | regRd x0 => exact (execRegRd_writes (m := 4398046511103) rfl x0 s).imp fun _ h => h.2
  | regWr x0 => exact (execRegWr_writes (m := 4398046511103) rfl x0 s).imp fun _ h => h.2
  | agentRd x0 => exact (execAgentRd_writes (m := 4398046511103) rfl x0 s).imp fun _ h => h.2
  | agentWr x0 => exact (execAgentWr_writes (m := 4398046511103) rfl x0 s).imp fun _ h => h.2
  | memRd x0 => exact (execMemRd_writes (m := 4398046511103) rfl x0 s).imp fun _ h => h.2
  | memWr x0 => exact (execMemWr_writes (m := 4398046511103) rfl x0 s).imp fun _ h => h.2
  | pkgPut x0 => exact (execPkgPut_writes (m := 4398046511103) rfl x0 s).imp fun _ h => h.2
  | progLoad x0 => exact (execProgLoad_writes (m := 4398046511103) rfl x0 s).imp fun _ h => h.2
  | modeCommand x0 => exact (execModeCommand_writes (m := 4398046511103) rfl x0 s).imp fun _ h => h.2
  | jobAdmit x0 => exact (execJobAdmit_writes (m := 4398046511103) rfl x0 s).imp fun _ h => h.2
  | teardown x0 => exact (execTeardown_writes (m := 4398046511103) rfl x0 s).imp fun _ h => h.2
  | guestAdmit x0 => exact (execGuestAdmit_writes (m := 4398046511103) rfl x0 s).imp fun _ h => h.2
  | guestEnd x0 => exact (execGuestEnd_writes (m := 4398046511103) rfl x0 s).imp fun _ h => h.2
  | courseCmdOpen x0 => exact (execCourseCmdOpen_writes (m := 4398046511103) rfl x0 s).imp fun _ h => h.2
  | courseCmdAbandon x0 => exact (execCourseCmdAbandon_writes (m := 4398046511103) rfl x0 s).imp fun _ h => h.2
  | courseCmdRoot x0 => exact (execCourseCmdRoot_writes (m := 4398046511103) rfl x0 s).imp fun _ h => h.2
  | courseCmdQuery x0 => exact (execCourseCmdQuery_writes (m := 4398046511103) rfl x0 s).imp fun _ h => h.2
  | shoreDeclare x0 => exact (execShoreDeclare_writes (m := 4398046511103) rfl x0 s).imp fun _ h => h.2
  | shoreHandback x0 => exact (execShoreHandback_writes (m := 4398046511103) rfl x0 s).imp fun _ h => h.2
  | logRdCirculating x0 => exact (execLogRdCirculating_writes (m := 4398046511103) rfl x0 s).imp fun _ h => h.2
  | logRdFoundation x0 => exact (execLogRdFoundation_writes (m := 4398046511103) rfl x0 s).imp fun _ h => h.2
  | logRdLive x0 => exact (execLogRdLive_writes (m := 4398046511103) rfl x0 s).imp fun _ h => h.2
  | tallyRd x0 => exact (execTallyRd_writes (m := 4398046511103) rfl x0 s).imp fun _ h => h.2
  | dumpCommand x0 => exact (execDumpCommand_writes (m := 4398046511103) rfl x0 s).imp fun _ h => h.2
  | dumpCommandAgent x0 => exact (execDumpCommandAgent_writes (m := 4398046511103) rfl x0 s).imp fun _ h => h.2
  | haltCommand x0 => exact (execHaltCommand_writes (m := 4398046511103) rfl x0 s).imp fun _ h => h.2
  | haltReleaseCommand x0 => exact (execHaltReleaseCommand_writes (m := 4398046511103) rfl x0 s).imp fun _ h => h.2
  | scan x0 => exact (execScan_writes (m := 4398046511103) rfl x0 s).imp fun _ h => h.2
  | authzChange x0 => exact (execAuthzChange_writes (m := 4398046511103) rfl x0 s).imp fun _ h => h.2
  | authzReset x0 => exact (execAuthzReset_writes (m := 4398046511103) rfl x0 s).imp fun _ h => h.2
  | fwPut x0 => exact (execFwPut_writes (m := 4398046511103) rfl x0 s).imp fun _ h => h.2
  | fwAccept x0 => exact (execFwAccept_writes (m := 4398046511103) rfl x0 s).imp fun _ h => h.2
  | attest x0 => exact (execAttest_writes (m := 4398046511103) rfl x0 s).imp fun _ h => h.2
  | farAck x0 => exact (execFarAck_writes (m := 4398046511103) rfl x0 s).imp fun _ h => h.2
  | startJob x0 => exact (execStartJob_writes (m := 4398046511103) rfl x0 s).imp fun _ h => h.2
  | startAbort x0 => exact (execStartAbort_writes (m := 4398046511103) rfl x0 s).imp fun _ h => h.2
  | join x0 => exact (execJoin_writes (m := 4398046511103) rfl x0 s).imp fun _ h => h.2
  | memberMap x0 => exact (execMemberMap_writes (m := 4398046511103) rfl x0 s).imp fun _ h => h.2
  | ozPwrokRise x0 x1 x2 x3 x4 => exact (execOzPwrokRise_writes (m := 4398046511103) rfl x0 x1 x2 x3 x4 s).imp fun _ h => h.2
  | ozPwrokFall => exact (execOzPwrokFall_writes (m := 4398046511103) rfl s).imp fun _ h => h.2
  | bootRun x0 => exact (execBootRun_writes (m := 4398046511103) rfl x0 s).imp fun _ h => h.2
  | shardVerifyDone => exact (execShardVerifyDone_writes (m := 4398046511103) rfl s).imp fun _ h => h.2
  | recovery x0 => exact (execRecovery_writes (m := 4398046511103) rfl x0 s).imp fun _ h => h.2
  | recoveryPartnerTimeout => exact (execRecoveryPartnerTimeout_writes (m := 4398046511103) rfl s).imp fun _ h => h.2
  | workingKeyRoll => exact (execWorkingKeyRoll_writes (m := 4398046511103) rfl s).imp fun _ h => h.2
  | postAutostart => exact (execPostAutostart_writes (m := 4398046511103) rfl s).imp fun _ h => h.2
  | hubPostGo x0 => exact (execHubPostGo_writes (m := 4398046511103) rfl x0 s).imp fun _ h => h.2
  | postEnd x0 => exact (execPostEnd_writes (m := 4398046511103) rfl x0 s).imp fun _ h => h.2
  | roleTriggerDequeue => exact (execRoleTriggerDequeue_writes (m := 4398046511103) rfl s).imp fun _ h => h.2
  | bankedWakeDone => exact (execBankedWakeDone_writes (m := 4398046511103) rfl s).imp fun _ h => h.2
  | agentReset x0 => exact (execAgentReset_writes (m := 4398046511103) rfl x0 s).imp fun _ h => h.2
  | agentSelftestDone x0 x1 => exact (execAgentSelftestDone_writes (m := 4398046511103) rfl x0 x1 s).imp fun _ h => h.2
  | agentTrayTrained x0 => exact (execAgentTrayTrained_writes (m := 4398046511103) rfl x0 s).imp fun _ h => h.2
  | agentTrayLost x0 => exact (execAgentTrayLost_writes (m := 4398046511103) rfl x0 s).imp fun _ h => h.2
  | bind x0 x1 => exact (execBind_writes (m := 4398046511103) rfl x0 x1 s).imp fun _ h => h.2
  | release x0 x1 => exact (execRelease_writes (m := 4398046511103) rfl x0 x1 s).imp fun _ h => h.2
  | load x0 x1 => exact (execLoad_writes (m := 4398046511103) rfl x0 x1 s).imp fun _ h => h.2
  | quoinAdmit x0 x1 => exact (execQuoinAdmit_writes (m := 4398046511103) rfl x0 x1 s).imp fun _ h => h.2
  | quoinRegRd x0 x1 x2 => exact (execQuoinRegRd_writes (m := 4398046511103) rfl x0 x1 x2 s).imp fun _ h => h.2
  | quoinRegWr x0 x1 => exact (execQuoinRegWr_writes (m := 4398046511103) rfl x0 x1 s).imp fun _ h => h.2
  | courseArm x0 x1 => exact (execCourseArm_writes (m := 4398046511103) rfl x0 x1 s).imp fun _ h => h.2
  | markReq x0 x1 => exact (execMarkReq_writes (m := 4398046511103) rfl x0 x1 s).imp fun _ h => h.2
  | drainReq x0 x1 => exact (execDrainReq_writes (m := 4398046511103) rfl x0 x1 s).imp fun _ h => h.2
  | drainAck x0 x1 => exact (execDrainAck_writes (m := 4398046511103) rfl x0 x1 s).imp fun _ h => h.2
  | agentAbandon x0 x1 => exact (execAgentAbandon_writes (m := 4398046511103) rfl x0 x1 s).imp fun _ h => h.2
  | commitNote x0 x1 => exact (execCommitNote_writes (m := 4398046511103) rfl x0 x1 s).imp fun _ h => h.2
  | dirtyReq x0 x1 => exact (execDirtyReq_writes (m := 4398046511103) rfl x0 x1 s).imp fun _ h => h.2
  | mkey x0 x1 => exact (execMkey_writes (m := 4398046511103) rfl x0 x1 s).imp fun _ h => h.2
  | witKey x0 x1 => exact (execWitKey_writes (m := 4398046511103) rfl x0 x1 s).imp fun _ h => h.2
  | quoinSignal x0 x1 => exact (execQuoinSignal_writes (m := 4398046511103) rfl x0 x1 s).imp fun _ h => h.2
  | counterSet x0 x1 => exact (execCounterSet_writes (m := 4398046511103) rfl x0 x1 s).imp fun _ h => h.2
  | dumpReq x0 x1 => exact (execDumpReq_writes (m := 4398046511103) rfl x0 x1 s).imp fun _ h => h.2
  | fence x0 x1 => exact (execFence_writes (m := 4398046511103) rfl x0 x1 s).imp fun _ h => h.2
  | unfence x0 x1 => exact (execUnfence_writes (m := 4398046511103) rfl x0 x1 s).imp fun _ h => h.2
  | contextResp x0 x1 => exact (execContextResp_writes (m := 4398046511103) rfl x0 x1 s).imp fun _ h => h.2
  | contextRetryTimeout x0 => exact (execContextRetryTimeout_writes (m := 4398046511103) rfl x0 s).imp fun _ h => h.2
  | qagStepWrite x0 x1 => exact (execQagStepWrite_writes (m := 4398046511103) rfl x0 x1 s).imp fun _ h => h.2
  | qagKick x0 => exact (execQagKick_writes (m := 4398046511103) rfl x0 s).imp fun _ h => h.2
  | qagFatal x0 x1 => exact (execQagFatal_writes (m := 4398046511103) rfl x0 x1 s).imp fun _ h => h.2
  | qagFenceReq x0 => exact (execQagFenceReq_writes (m := 4398046511103) rfl x0 s).imp fun _ h => h.2
  | qagQuiet x0 => exact (execQagQuiet_writes (m := 4398046511103) rfl x0 s).imp fun _ h => h.2
  | fenceQuietTimeout x0 => exact (execFenceQuietTimeout_writes (m := 4398046511103) rfl x0 s).imp fun _ h => h.2
  | qagCntAdd x0 x1 => exact (execQagCntAdd_writes (m := 4398046511103) rfl x0 x1 s).imp fun _ h => h.2
  | qagWitPush x0 x1 => exact (execQagWitPush_writes (m := 4398046511103) rfl x0 x1 s).imp fun _ h => h.2
  | hostStateWrite x0 x1 x2 => exact (execHostStateWrite_writes (m := 4398046511103) rfl x0 x1 x2 s).imp fun _ h => h.2
  | cowCopyDone x0 x1 => exact (execCowCopyDone_writes (m := 4398046511103) rfl x0 x1 s).imp fun _ h => h.2
  | heldWriteRelease x0 x1 => exact (execHeldWriteRelease_writes (m := 4398046511103) rfl x0 x1 s).imp fun _ h => h.2
  | stallAbandon x0 => exact (execStallAbandon_writes (m := 4398046511103) rfl x0 s).imp fun _ h => h.2
  | blockConsume x0 x1 => exact (execBlockConsume_writes (m := 4398046511103) rfl x0 x1 s).imp fun _ h => h.2
  | contributionReceive x0 x1 x2 x3 x4 x5 => exact (execContributionReceive_writes (m := 4398046511103) rfl x0 x1 x2 x3 x4 x5 s).imp fun _ h => h.2
  | heartbeatTick x0 => exact (execHeartbeatTick_writes (m := 4398046511103) rfl x0 s).imp fun _ h => h.2
  | healthTick x0 => exact (execHealthTick_writes (m := 4398046511103) rfl x0 s).imp fun _ h => h.2
  | haltNLow x0 => exact (execHaltNLow_writes (m := 4398046511103) rfl x0 s).imp fun _ h => h.2
  | haltNHigh x0 => exact (execHaltNHigh_writes (m := 4398046511103) rfl x0 s).imp fun _ h => h.2
  | hello x0 x1 => exact (execHello_writes (m := 4398046511103) rfl x0 x1 s).imp fun _ h => h.2
  | quoinResp x0 x1 => exact (execQuoinResp_writes (m := 4398046511103) rfl x0 x1 s).imp fun _ h => h.2
  | heartbeat x0 x1 => exact (execHeartbeat_writes (m := 4398046511103) rfl x0 x1 s).imp fun _ h => h.2
  | heartbeatDeadline x0 => exact (execHeartbeatDeadline_writes (m := 4398046511103) rfl x0 s).imp fun _ h => h.2
  | fatal x0 x1 => exact (execFatal_writes (m := 4398046511103) rfl x0 x1 s).imp fun _ h => h.2
  | dump x0 x1 => exact (execDump_writes (m := 4398046511103) rfl x0 x1 s).imp fun _ h => h.2
  | slotPgoodFall x0 => exact (execSlotPgoodFall_writes (m := 4398046511103) rfl x0 s).imp fun _ h => h.2
  | slotPgoodRise x0 => exact (execSlotPgoodRise_writes (m := 4398046511103) rfl x0 s).imp fun _ h => h.2
  | guestSpillDone => exact (execGuestSpillDone_writes (m := 4398046511103) rfl s).imp fun _ h => h.2
  | courseQuery x0 => exact (execCourseQuery_writes (m := 4398046511103) rfl x0 s).imp fun _ h => h.2
  | drainComplete => exact (execDrainComplete_writes (m := 4398046511103) rfl s).imp fun _ h => h.2
  | rootSilentTimeout => exact (execRootSilentTimeout_writes (m := 4398046511103) rfl s).imp fun _ h => h.2
  | crsCtrlOpen x0 => exact (execCrsCtrlOpen_writes (m := 4398046511103) rfl x0 s).imp fun _ h => h.2
  | crsCtrlAbandon x0 => exact (execCrsCtrlAbandon_writes (m := 4398046511103) rfl x0 s).imp fun _ h => h.2
  | crsCtrlEnClear x0 => exact (execCrsCtrlEnClear_writes (m := 4398046511103) rfl x0 s).imp fun _ h => h.2
  | decideWindowEnd => exact (execDecideWindowEnd_writes (m := 4398046511103) rfl s).imp fun _ h => h.2
  | rewindTimeout => exact (execRewindTimeout_writes (m := 4398046511103) rfl s).imp fun _ h => h.2
  | flightWaitEnd => exact (execFlightWaitEnd_writes (m := 4398046511103) rfl s).imp fun _ h => h.2
  | promotionStart => exact (execPromotionStart_writes (m := 4398046511103) rfl s).imp fun _ h => h.2
  | promotionDone => exact (execPromotionDone_writes (m := 4398046511103) rfl s).imp fun _ h => h.2
  | shrCtrlDeclare x0 => exact (execShrCtrlDeclare_writes (m := 4398046511103) rfl x0 s).imp fun _ h => h.2
  | shrCtrlHandback x0 => exact (execShrCtrlHandback_writes (m := 4398046511103) rfl x0 s).imp fun _ h => h.2
  | handbackPgoodTimeout => exact (execHandbackPgoodTimeout_writes (m := 4398046511103) rfl s).imp fun _ h => h.2
  | handbackHelloTimeout => exact (execHandbackHelloTimeout_writes (m := 4398046511103) rfl s).imp fun _ h => h.2
  | handbackPassDone => exact (execHandbackPassDone_writes (m := 4398046511103) rfl s).imp fun _ h => h.2
  | xcnCtrlGo x0 => exact (execXcnCtrlGo_writes (m := 4398046511103) rfl x0 s).imp fun _ h => h.2
  | xcnDetourGo x0 => exact (execXcnDetourGo_writes (m := 4398046511103) rfl x0 s).imp fun _ h => h.2
  | xcnQueuedStart => exact (execXcnQueuedStart_writes (m := 4398046511103) rfl s).imp fun _ h => h.2
  | xcnStatusFall x0 x1 => exact (execXcnStatusFall_writes (m := 4398046511103) rfl x0 x1 s).imp fun _ h => h.2
  | xcnMoveTimeout => exact (execXcnMoveTimeout_writes (m := 4398046511103) rfl s).imp fun _ h => h.2
  | xcnPwrEnWrite x0 => exact (execXcnPwrEnWrite_writes (m := 4398046511103) rfl x0 s).imp fun _ h => h.2
  | xcnPgoodRise x0 x1 => exact (execXcnPgoodRise_writes (m := 4398046511103) rfl x0 x1 s).imp fun _ h => h.2
  | xcnPgoodFall => exact (execXcnPgoodFall_writes (m := 4398046511103) rfl s).imp fun _ h => h.2
  | witGateTimeout => exact (execWitGateTimeout_writes (m := 4398046511103) rfl s).imp fun _ h => h.2
  | seed x0 => exact (execSeed_writes (m := 4398046511103) rfl x0 s).imp fun _ h => h.2
  | tileEnWrite x0 x1 => exact (execTileEnWrite_writes (m := 4398046511103) rfl x0 x1 s).imp fun _ h => h.2
  | tileStop x0 x1 => exact (execTileStop_writes (m := 4398046511103) rfl x0 x1 s).imp fun _ h => h.2
  | tileStopDone x0 => exact (execTileStopDone_writes (m := 4398046511103) rfl x0 s).imp fun _ h => h.2
  | tleErrValidClear x0 x1 => exact (execTleErrValidClear_writes (m := 4398046511103) rfl x0 x1 s).imp fun _ h => h.2
  | gangChangeApply x0 => exact (execGangChangeApply_writes (m := 4398046511103) rfl x0 s).imp fun _ h => h.2
  | waitLimitExpire x0 x1 => exact (execWaitLimitExpire_writes (m := 4398046511103) rfl x0 x1 s).imp fun _ h => h.2
  | waitSatisfied x0 x1 => exact (execWaitSatisfied_writes (m := 4398046511103) rfl x0 x1 s).imp fun _ h => h.2
  | pass x0 x1 x2 => exact (execPass_writes (m := 4398046511103) rfl x0 x1 x2 s).imp fun _ h => h.2
  | passComplete x0 x1 => exact (execPassComplete_writes (m := 4398046511103) rfl x0 x1 s).imp fun _ h => h.2
  | vxAdd x0 x1 x2 => exact (execVxAdd_writes (m := 4398046511103) rfl x0 x1 x2 s).imp fun _ h => h.2
  | vxSub x0 x1 x2 => exact (execVxSub_writes (m := 4398046511103) rfl x0 x1 x2 s).imp fun _ h => h.2
  | vxMul x0 x1 x2 => exact (execVxMul_writes (m := 4398046511103) rfl x0 x1 x2 s).imp fun _ h => h.2
  | vxFma x0 x1 x2 => exact (execVxFma_writes (m := 4398046511103) rfl x0 x1 x2 s).imp fun _ h => h.2
  | vxDiv x0 x1 x2 => exact (execVxDiv_writes (m := 4398046511103) rfl x0 x1 x2 s).imp fun _ h => h.2
  | vxSqrt x0 x1 x2 => exact (execVxSqrt_writes (m := 4398046511103) rfl x0 x1 x2 s).imp fun _ h => h.2
  | vxRsqrt x0 x1 x2 => exact (execVxRsqrt_writes (m := 4398046511103) rfl x0 x1 x2 s).imp fun _ h => h.2
  | vxExp x0 x1 x2 => exact (execVxExp_writes (m := 4398046511103) rfl x0 x1 x2 s).imp fun _ h => h.2
  | vxExp2 x0 x1 x2 => exact (execVxExp2_writes (m := 4398046511103) rfl x0 x1 x2 s).imp fun _ h => h.2
  | vxLog x0 x1 x2 => exact (execVxLog_writes (m := 4398046511103) rfl x0 x1 x2 s).imp fun _ h => h.2
  | vxLog2 x0 x1 x2 => exact (execVxLog2_writes (m := 4398046511103) rfl x0 x1 x2 s).imp fun _ h => h.2
  | vxTanh x0 x1 x2 => exact (execVxTanh_writes (m := 4398046511103) rfl x0 x1 x2 s).imp fun _ h => h.2
  | vxSigmoid x0 x1 x2 => exact (execVxSigmoid_writes (m := 4398046511103) rfl x0 x1 x2 s).imp fun _ h => h.2
  | vxMin x0 x1 x2 => exact (execVxMin_writes (m := 4398046511103) rfl x0 x1 x2 s).imp fun _ h => h.2
  | vxMax x0 x1 x2 => exact (execVxMax_writes (m := 4398046511103) rfl x0 x1 x2 s).imp fun _ h => h.2
  | vxAbs x0 x1 x2 => exact (execVxAbs_writes (m := 4398046511103) rfl x0 x1 x2 s).imp fun _ h => h.2
  | vxNeg x0 x1 x2 => exact (execVxNeg_writes (m := 4398046511103) rfl x0 x1 x2 s).imp fun _ h => h.2
  | cmpEq x0 x1 x2 => exact (execCmpEq_writes (m := 4398046511103) rfl x0 x1 x2 s).imp fun _ h => h.2
  | cmpLt x0 x1 x2 => exact (execCmpLt_writes (m := 4398046511103) rfl x0 x1 x2 s).imp fun _ h => h.2
  | cmpLe x0 x1 x2 => exact (execCmpLe_writes (m := 4398046511103) rfl x0 x1 x2 s).imp fun _ h => h.2
  | cmpUn x0 x1 x2 => exact (execCmpUn_writes (m := 4398046511103) rfl x0 x1 x2 s).imp fun _ h => h.2
  | vxSel x0 x1 x2 => exact (execVxSel_writes (m := 4398046511103) rfl x0 x1 x2 s).imp fun _ h => h.2
  | iadd x0 x1 x2 => exact (execIadd_writes (m := 4398046511103) rfl x0 x1 x2 s).imp fun _ h => h.2
  | isub x0 x1 x2 => exact (execIsub_writes (m := 4398046511103) rfl x0 x1 x2 s).imp fun _ h => h.2
  | imul x0 x1 x2 => exact (execImul_writes (m := 4398046511103) rfl x0 x1 x2 s).imp fun _ h => h.2
  | imin x0 x1 x2 => exact (execImin_writes (m := 4398046511103) rfl x0 x1 x2 s).imp fun _ h => h.2
  | imax x0 x1 x2 => exact (execImax_writes (m := 4398046511103) rfl x0 x1 x2 s).imp fun _ h => h.2
  | vxAnd x0 x1 x2 => exact (execVxAnd_writes (m := 4398046511103) rfl x0 x1 x2 s).imp fun _ h => h.2
  | vxOr x0 x1 x2 => exact (execVxOr_writes (m := 4398046511103) rfl x0 x1 x2 s).imp fun _ h => h.2
  | vxXor x0 x1 x2 => exact (execVxXor_writes (m := 4398046511103) rfl x0 x1 x2 s).imp fun _ h => h.2
  | vxShl x0 x1 x2 => exact (execVxShl_writes (m := 4398046511103) rfl x0 x1 x2 s).imp fun _ h => h.2
  | vxShr x0 x1 x2 => exact (execVxShr_writes (m := 4398046511103) rfl x0 x1 x2 s).imp fun _ h => h.2
  | vxSar x0 x1 x2 => exact (execVxSar_writes (m := 4398046511103) rfl x0 x1 x2 s).imp fun _ h => h.2
  | i2f x0 x1 x2 => exact (execI2f_writes (m := 4398046511103) rfl x0 x1 x2 s).imp fun _ h => h.2
  | f2i x0 x1 x2 => exact (execF2i_writes (m := 4398046511103) rfl x0 x1 x2 s).imp fun _ h => h.2
  | cvt x0 x1 x2 => exact (execCvt_writes (m := 4398046511103) rfl x0 x1 x2 s).imp fun _ h => h.2
  | vxMov x0 x1 x2 => exact (execVxMov_writes (m := 4398046511103) rfl x0 x1 x2 s).imp fun _ h => h.2
  | bcastRow x0 x1 x2 => exact (execBcastRow_writes (m := 4398046511103) rfl x0 x1 x2 s).imp fun _ h => h.2
  | bcastColumn x0 x1 x2 => exact (execBcastColumn_writes (m := 4398046511103) rfl x0 x1 x2 s).imp fun _ h => h.2
  | trans x0 x1 x2 => exact (execTrans_writes (m := 4398046511103) rfl x0 x1 x2 s).imp fun _ h => h.2
  | randRaw x0 x1 x2 => exact (execRandRaw_writes (m := 4398046511103) rfl x0 x1 x2 s).imp fun _ h => h.2
  | randUnif x0 x1 x2 => exact (execRandUnif_writes (m := 4398046511103) rfl x0 x1 x2 s).imp fun _ h => h.2
  | vxLd x0 x1 x2 => exact (execVxLd_writes (m := 4398046511103) rfl x0 x1 x2 s).imp fun _ h => h.2
  | vxSt x0 x1 x2 => exact (execVxSt_writes (m := 4398046511103) rfl x0 x1 x2 s).imp fun _ h => h.2
  | reduceSum x0 x1 x2 => exact (execReduceSum_writes (m := 4398046511103) rfl x0 x1 x2 s).imp fun _ h => h.2
  | reduceMax x0 x1 x2 => exact (execReduceMax_writes (m := 4398046511103) rfl x0 x1 x2 s).imp fun _ h => h.2
  | reduceMin x0 x1 x2 => exact (execReduceMin_writes (m := 4398046511103) rfl x0 x1 x2 s).imp fun _ h => h.2
  | mvCopy x0 x1 x2 => exact (execMvCopy_writes (m := 4398046511103) rfl x0 x1 x2 s).imp fun _ h => h.2
  | mvGet x0 x1 x2 => exact (execMvGet_writes (m := 4398046511103) rfl x0 x1 x2 s).imp fun _ h => h.2
  | mvPut x0 x1 x2 => exact (execMvPut_writes (m := 4398046511103) rfl x0 x1 x2 s).imp fun _ h => h.2
  | mvXput x0 x1 x2 => exact (execMvXput_writes (m := 4398046511103) rfl x0 x1 x2 s).imp fun _ h => h.2
  | mvDesc x0 x1 x2 => exact (execMvDesc_writes (m := 4398046511103) rfl x0 x1 x2 s).imp fun _ h => h.2
  | mvTransferComplete x0 x1 => exact (execMvTransferComplete_writes (m := 4398046511103) rfl x0 x1 s).imp fun _ h => h.2
  | syWait x0 x1 x2 => exact (execSyWait_writes (m := 4398046511103) rfl x0 x1 x2 s).imp fun _ h => h.2
  | sySignal x0 x1 x2 => exact (execSySignal_writes (m := 4398046511103) rfl x0 x1 x2 s).imp fun _ h => h.2
  | rwait x0 x1 x2 => exact (execRwait_writes (m := 4398046511103) rfl x0 x1 x2 s).imp fun _ h => h.2
  | rsignal x0 x1 x2 => exact (execRsignal_writes (m := 4398046511103) rfl x0 x1 x2 s).imp fun _ h => h.2
  | syDrain x0 x1 x2 => exact (execSyDrain_writes (m := 4398046511103) rfl x0 x1 x2 s).imp fun _ h => h.2
  | ctAdd x0 x1 x2 => exact (execCtAdd_writes (m := 4398046511103) rfl x0 x1 x2 s).imp fun _ h => h.2
  | ctSub x0 x1 x2 => exact (execCtSub_writes (m := 4398046511103) rfl x0 x1 x2 s).imp fun _ h => h.2
  | ctMul x0 x1 x2 => exact (execCtMul_writes (m := 4398046511103) rfl x0 x1 x2 s).imp fun _ h => h.2
  | ctAnd x0 x1 x2 => exact (execCtAnd_writes (m := 4398046511103) rfl x0 x1 x2 s).imp fun _ h => h.2
  | ctOr x0 x1 x2 => exact (execCtOr_writes (m := 4398046511103) rfl x0 x1 x2 s).imp fun _ h => h.2
  | ctXor x0 x1 x2 => exact (execCtXor_writes (m := 4398046511103) rfl x0 x1 x2 s).imp fun _ h => h.2
  | ctShl x0 x1 x2 => exact (execCtShl_writes (m := 4398046511103) rfl x0 x1 x2 s).imp fun _ h => h.2
  | ctShr x0 x1 x2 => exact (execCtShr_writes (m := 4398046511103) rfl x0 x1 x2 s).imp fun _ h => h.2
  | ctSar x0 x1 x2 => exact (execCtSar_writes (m := 4398046511103) rfl x0 x1 x2 s).imp fun _ h => h.2
  | ctSlt x0 x1 x2 => exact (execCtSlt_writes (m := 4398046511103) rfl x0 x1 x2 s).imp fun _ h => h.2
  | ctSltu x0 x1 x2 => exact (execCtSltu_writes (m := 4398046511103) rfl x0 x1 x2 s).imp fun _ h => h.2
  | ctMin x0 x1 x2 => exact (execCtMin_writes (m := 4398046511103) rfl x0 x1 x2 s).imp fun _ h => h.2
  | ctMax x0 x1 x2 => exact (execCtMax_writes (m := 4398046511103) rfl x0 x1 x2 s).imp fun _ h => h.2
  | ctMov x0 x1 x2 => exact (execCtMov_writes (m := 4398046511103) rfl x0 x1 x2 s).imp fun _ h => h.2
  | addrFromS x0 x1 x2 => exact (execAddrFromS_writes (m := 4398046511103) rfl x0 x1 x2 s).imp fun _ h => h.2
  | addrToS x0 x1 x2 => exact (execAddrToS_writes (m := 4398046511103) rfl x0 x1 x2 s).imp fun _ h => h.2
  | addrAdd x0 x1 x2 => exact (execAddrAdd_writes (m := 4398046511103) rfl x0 x1 x2 s).imp fun _ h => h.2
  | addrBaseAdd x0 x1 x2 => exact (execAddrBaseAdd_writes (m := 4398046511103) rfl x0 x1 x2 s).imp fun _ h => h.2
  | addrStrideSet x0 x1 x2 => exact (execAddrStrideSet_writes (m := 4398046511103) rfl x0 x1 x2 s).imp fun _ h => h.2
  | jmp x0 x1 x2 => exact (execJmp_writes (m := 4398046511103) rfl x0 x1 x2 s).imp fun _ h => h.2
  | beq x0 x1 x2 => exact (execBeq_writes (m := 4398046511103) rfl x0 x1 x2 s).imp fun _ h => h.2
  | bne x0 x1 x2 => exact (execBne_writes (m := 4398046511103) rfl x0 x1 x2 s).imp fun _ h => h.2
  | blt x0 x1 x2 => exact (execBlt_writes (m := 4398046511103) rfl x0 x1 x2 s).imp fun _ h => h.2
  | bge x0 x1 x2 => exact (execBge_writes (m := 4398046511103) rfl x0 x1 x2 s).imp fun _ h => h.2
  | bltu x0 x1 x2 => exact (execBltu_writes (m := 4398046511103) rfl x0 x1 x2 s).imp fun _ h => h.2
  | bgeu x0 x1 x2 => exact (execBgeu_writes (m := 4398046511103) rfl x0 x1 x2 s).imp fun _ h => h.2
  | ctLoop x0 x1 x2 => exact (execCtLoop_writes (m := 4398046511103) rfl x0 x1 x2 s).imp fun _ h => h.2
  | bp x0 x1 x2 => exact (execBp_writes (m := 4398046511103) rfl x0 x1 x2 s).imp fun _ h => h.2
  | pset x0 x1 x2 => exact (execPset_writes (m := 4398046511103) rfl x0 x1 x2 s).imp fun _ h => h.2
  | pget x0 x1 x2 => exact (execPget_writes (m := 4398046511103) rfl x0 x1 x2 s).imp fun _ h => h.2
  | pand x0 x1 x2 => exact (execPand_writes (m := 4398046511103) rfl x0 x1 x2 s).imp fun _ h => h.2
  | por x0 x1 x2 => exact (execPor_writes (m := 4398046511103) rfl x0 x1 x2 s).imp fun _ h => h.2
  | pxor x0 x1 x2 => exact (execPxor_writes (m := 4398046511103) rfl x0 x1 x2 s).imp fun _ h => h.2
  | pnot x0 x1 x2 => exact (execPnot_writes (m := 4398046511103) rfl x0 x1 x2 s).imp fun _ h => h.2
  | ctLd x0 x1 x2 => exact (execCtLd_writes (m := 4398046511103) rfl x0 x1 x2 s).imp fun _ h => h.2
  | ctSt x0 x1 x2 => exact (execCtSt_writes (m := 4398046511103) rfl x0 x1 x2 s).imp fun _ h => h.2
  | ctNop x0 x1 x2 => exact (execCtNop_writes (m := 4398046511103) rfl x0 x1 x2 s).imp fun _ h => h.2
  | endProgram x0 x1 x2 => exact (execEndProgram_writes (m := 4398046511103) rfl x0 x1 x2 s).imp fun _ h => h.2
  | ctBrk x0 x1 x2 => exact (execCtBrk_writes (m := 4398046511103) rfl x0 x1 x2 s).imp fun _ h => h.2
  | ctStep x0 x1 x2 => exact (execCtStep_writes (m := 4398046511103) rfl x0 x1 x2 s).imp fun _ h => h.2
  | cget x0 x1 x2 => exact (execCget_writes (m := 4398046511103) rfl x0 x1 x2 s).imp fun _ h => h.2
  | phxld x0 x1 x2 => exact (execPhxld_writes (m := 4398046511103) rfl x0 x1 x2 s).imp fun _ h => h.2
  | phxst x0 x1 x2 => exact (execPhxst_writes (m := 4398046511103) rfl x0 x1 x2 s).imp fun _ h => h.2
  | ctGang x0 x1 x2 => exact (execCtGang_writes (m := 4398046511103) rfl x0 x1 x2 s).imp fun _ h => h.2
  | ctTime x0 x1 x2 => exact (execCtTime_writes (m := 4398046511103) rfl x0 x1 x2 s).imp fun _ h => h.2
  | ctFlags x0 x1 x2 => exact (execCtFlags_writes (m := 4398046511103) rfl x0 x1 x2 s).imp fun _ h => h.2
  | ctRank x0 x1 x2 => exact (execCtRank_writes (m := 4398046511103) rfl x0 x1 x2 s).imp fun _ h => h.2
  | mmuFault x0 => exact (execMmuFault_writes (m := 4398046511103) rfl x0 s).imp fun _ h => h.2
  | mmuFresumeResume x0 => exact (execMmuFresumeResume_writes (m := 4398046511103) rfl x0 s).imp fun _ h => h.2
  | mmuFresumeAbort x0 => exact (execMmuFresumeAbort_writes (m := 4398046511103) rfl x0 s).imp fun _ h => h.2
  | mmuInvPage x0 => exact (execMmuInvPage_writes (m := 4398046511103) rfl x0 s).imp fun _ h => h.2
  | mmuInvContext x0 => exact (execMmuInvContext_writes (m := 4398046511103) rfl x0 s).imp fun _ h => h.2
  | mmuInvAll x0 => exact (execMmuInvAll_writes (m := 4398046511103) rfl x0 s).imp fun _ h => h.2
  | mmuInvComplete => exact (execMmuInvComplete_writes (m := 4398046511103) rfl s).imp fun _ h => h.2
  | mmuPartWrite x0 => exact (execMmuPartWrite_writes (m := 4398046511103) rfl x0 s).imp fun _ h => h.2
  | dmaEnWrite x0 x1 => exact (execDmaEnWrite_writes (m := 4398046511103) rfl x0 x1 s).imp fun _ h => h.2
  | dmaStop x0 x1 => exact (execDmaStop_writes (m := 4398046511103) rfl x0 x1 s).imp fun _ h => h.2
  | dmaStopDone x0 => exact (execDmaStopDone_writes (m := 4398046511103) rfl x0 s).imp fun _ h => h.2
  | dmaTailWrite x0 x1 => exact (execDmaTailWrite_writes (m := 4398046511103) rfl x0 x1 s).imp fun _ h => h.2
  | dmaDescriptor x0 => exact (execDmaDescriptor_writes (m := 4398046511103) rfl x0 s).imp fun _ h => h.2
  | dmaFragmentDone x0 => exact (execDmaFragmentDone_writes (m := 4398046511103) rfl x0 s).imp fun _ h => h.2
  | memoryUe x0 x1 x2 => exact (execMemoryUe_writes (m := 4398046511103) rfl x0 x1 x2 s).imp fun _ h => h.2
  | patrolScrub x0 x1 => exact (execPatrolScrub_writes (m := 4398046511103) rfl x0 x1 s).imp fun _ h => h.2
  | dimmTempRead x0 => exact (execDimmTempRead_writes (m := 4398046511103) rfl x0 s).imp fun _ h => h.2
  | cleanWrite x0 x1 => exact (execCleanWrite_writes (m := 4398046511103) rfl x0 x1 s).imp fun _ h => h.2
  | guestResume x0 => exact (execGuestResume_writes (m := 4398046511103) rfl x0 s).imp fun _ h => h.2
  | synAdd x0 => exact (execSynAdd_writes (m := 4398046511103) rfl x0 s).imp fun _ h => h.2
  | synSet x0 => exact (execSynSet_writes (m := 4398046511103) rfl x0 s).imp fun _ h => h.2
  | synWinWrite x0 x1 => exact (execSynWinWrite_writes (m := 4398046511103) rfl x0 x1 s).imp fun _ h => h.2
  | synBarWrite x0 x1 => exact (execSynBarWrite_writes (m := 4398046511103) rfl x0 x1 s).imp fun _ h => h.2
  | synWarmGo x0 => exact (execSynWarmGo_writes (m := 4398046511103) rfl x0 s).imp fun _ h => h.2
  | watchReq x0 => exact (execWatchReq_writes (m := 4398046511103) rfl x0 s).imp fun _ h => h.2
  | watchFire x0 => exact (execWatchFire_writes (m := 4398046511103) rfl x0 s).imp fun _ h => h.2
  | xferTimeout => exact (execXferTimeout_writes (m := 4398046511103) rfl s).imp fun _ h => h.2
  | windowDrainEnd => exact (execWindowDrainEnd_writes (m := 4398046511103) rfl s).imp fun _ h => h.2
  | synDumpGo x0 => exact (execSynDumpGo_writes (m := 4398046511103) rfl x0 s).imp fun _ h => h.2
  | peerOpen x0 => exact (execPeerOpen_writes (m := 4398046511103) rfl x0 s).imp fun _ h => h.2
  | peerOpenAck x0 => exact (execPeerOpenAck_writes (m := 4398046511103) rfl x0 s).imp fun _ h => h.2
  | peerClose x0 => exact (execPeerClose_writes (m := 4398046511103) rfl x0 s).imp fun _ h => h.2
  | keepalive x0 => exact (execKeepalive_writes (m := 4398046511103) rfl x0 s).imp fun _ h => h.2
  | peerSignal x0 => exact (execPeerSignal_writes (m := 4398046511103) rfl x0 s).imp fun _ h => h.2
  | peerResp x0 => exact (execPeerResp_writes (m := 4398046511103) rfl x0 s).imp fun _ h => h.2
  | keepaliveTick x0 => exact (execKeepaliveTick_writes (m := 4398046511103) rfl x0 s).imp fun _ h => h.2
  | sessionLost x0 => exact (execSessionLost_writes (m := 4398046511103) rfl x0 s).imp fun _ h => h.2
  | sessionOpenTimeout x0 => exact (execSessionOpenTimeout_writes (m := 4398046511103) rfl x0 s).imp fun _ h => h.2
  | flitReceive x0 x1 x2 => exact (execFlitReceive_writes (m := 4398046511103) rfl x0 x1 x2 s).imp fun _ h => h.2
  | ackTimeout x0 => exact (execAckTimeout_writes (m := 4398046511103) rfl x0 s).imp fun _ h => h.2
  | laneDrop x0 x1 x2 => exact (execLaneDrop_writes (m := 4398046511103) rfl x0 x1 x2 s).imp fun _ h => h.2
  | lanemap x0 x1 x2 => exact (execLanemap_writes (m := 4398046511103) rfl x0 x1 x2 s).imp fun _ h => h.2
  | laneRetrainTick x0 => exact (execLaneRetrainTick_writes (m := 4398046511103) rfl x0 s).imp fun _ h => h.2
  | laneRestore x0 x1 => exact (execLaneRestore_writes (m := 4398046511103) rfl x0 x1 s).imp fun _ h => h.2
  | portLightDetect x0 => exact (execPortLightDetect_writes (m := 4398046511103) rfl x0 s).imp fun _ h => h.2
  | trainingDone x0 x1 x2 x3 => exact (execTrainingDone_writes (m := 4398046511103) rfl x0 x1 x2 x3 s).imp fun _ h => h.2
  | trainingTimeout x0 => exact (execTrainingTimeout_writes (m := 4398046511103) rfl x0 s).imp fun _ h => h.2
  | portRetrainTick x0 => exact (execPortRetrainTick_writes (m := 4398046511103) rfl x0 s).imp fun _ h => h.2
  | timeFlitTick x0 => exact (execTimeFlitTick_writes (m := 4398046511103) rfl x0 s).imp fun _ h => h.2
  | timeFlit x0 x1 x2 x3 x4 => exact (execTimeFlit_writes (m := 4398046511103) rfl x0 x1 x2 x3 x4 s).imp fun _ h => h.2
  | ptpMessage x0 => exact (execPtpMessage_writes (m := 4398046511103) rfl x0 s).imp fun _ h => h.2
  | timeSourceLost => exact (execTimeSourceLost_writes (m := 4398046511103) rfl s).imp fun _ h => h.2
  | lockLossTimeout => exact (execLockLossTimeout_writes (m := 4398046511103) rfl s).imp fun _ h => h.2
  | lnkTestGo x0 => exact (execLnkTestGo_writes (m := 4398046511103) rfl x0 s).imp fun _ h => h.2
  | linkTestDone x0 => exact (execLinkTestDone_writes (m := 4398046511103) rfl x0 s).imp fun _ h => h.2
  | setoutDatagram x0 x1 => exact (execSetoutDatagram_writes (m := 4398046511103) rfl x0 x1 s).imp fun _ h => h.2
  | openReq x0 x1 => exact (execOpenReq_writes (m := 4398046511103) rfl x0 x1 s).imp fun _ h => h.2
  | hostSessionOpenTimeout x0 => exact (execHostSessionOpenTimeout_writes (m := 4398046511103) rfl x0 s).imp fun _ h => h.2
  | hostSessionIdle x0 => exact (execHostSessionIdle_writes (m := 4398046511103) rfl x0 s).imp fun _ h => h.2
  | hostAck x0 x1 x2 => exact (execHostAck_writes (m := 4398046511103) rfl x0 x1 x2 s).imp fun _ h => h.2
  | ackDelayTimer x0 => exact (execAckDelayTimer_writes (m := 4398046511103) rfl x0 s).imp fun _ h => h.2
  | retransmitTimeout x0 => exact (execRetransmitTimeout_writes (m := 4398046511103) rfl x0 s).imp fun _ h => h.2
  | packageComplete => exact (execPackageComplete_writes (m := 4398046511103) rfl s).imp fun _ h => h.2
  | proposalExpire => exact (execProposalExpire_writes (m := 4398046511103) rfl s).imp fun _ h => h.2
  | enum x0 => exact (execEnum_writes (m := 4398046511103) rfl x0 s).imp fun _ h => h.2
  | rollcall x0 => exact (execRollcall_writes (m := 4398046511103) rfl x0 s).imp fun _ h => h.2
  | pulse x0 => exact (execPulse_writes (m := 4398046511103) rfl x0 s).imp fun _ h => h.2
  | pulseTick => exact (execPulseTick_writes (m := 4398046511103) rfl s).imp fun _ h => h.2
  | ringFrameForward x0 => exact (execRingFrameForward_writes (m := 4398046511103) rfl x0 s).imp fun _ h => h.2
  | resetReq x0 => exact (execResetReq_writes (m := 4398046511103) rfl x0 s).imp fun _ h => h.2
  | partnerLost => exact (execPartnerLost_writes (m := 4398046511103) rfl s).imp fun _ h => h.2
  | pairHello x0 => exact (execPairHello_writes (m := 4398046511103) rfl x0 s).imp fun _ h => h.2
  | mirror x0 => exact (execMirror_writes (m := 4398046511103) rfl x0 s).imp fun _ h => h.2
  | farPut x0 => exact (execFarPut_writes (m := 4398046511103) rfl x0 s).imp fun _ h => h.2
  | farReserve x0 => exact (execFarReserve_writes (m := 4398046511103) rfl x0 s).imp fun _ h => h.2
  | resync x0 => exact (execResync_writes (m := 4398046511103) rfl x0 s).imp fun _ h => h.2
  | teardownNote x0 => exact (execTeardownNote_writes (m := 4398046511103) rfl x0 s).imp fun _ h => h.2
  | partnerScrub x0 => exact (execPartnerScrub_writes (m := 4398046511103) rfl x0 s).imp fun _ h => h.2
  | treeChunk x0 => exact (execTreeChunk_writes (m := 4398046511103) rfl x0 s).imp fun _ h => h.2
  | treeWant x0 => exact (execTreeWant_writes (m := 4398046511103) rfl x0 s).imp fun _ h => h.2
  | treeJoin x0 => exact (execTreeJoin_writes (m := 4398046511103) rfl x0 s).imp fun _ h => h.2
  | treeSilenceTimeout => exact (execTreeSilenceTimeout_writes (m := 4398046511103) rfl s).imp fun _ h => h.2
  | stripeMissingTimeout => exact (execStripeMissingTimeout_writes (m := 4398046511103) rfl s).imp fun _ h => h.2
  | shardWant x0 => exact (execShardWant_writes (m := 4398046511103) rfl x0 s).imp fun _ h => h.2
  | shardPut x0 => exact (execShardPut_writes (m := 4398046511103) rfl x0 s).imp fun _ h => h.2
  | manifestWant x0 => exact (execManifestWant_writes (m := 4398046511103) rfl x0 s).imp fun _ h => h.2
  | ready x0 => exact (execReady_writes (m := 4398046511103) rfl x0 s).imp fun _ h => h.2
  | startTimeout => exact (execStartTimeout_writes (m := 4398046511103) rfl s).imp fun _ h => h.2
  | teardownReq x0 => exact (execTeardownReq_writes (m := 4398046511103) rfl x0 s).imp fun _ h => h.2
  | teardownOrder x0 => exact (execTeardownOrder_writes (m := 4398046511103) rfl x0 s).imp fun _ h => h.2
  | scrubComplete => exact (execScrubComplete_writes (m := 4398046511103) rfl s).imp fun _ h => h.2
  | scrubDone x0 => exact (execScrubDone_writes (m := 4398046511103) rfl x0 s).imp fun _ h => h.2
  | hubKeptDrop x0 => exact (execHubKeptDrop_writes (m := 4398046511103) rfl x0 s).imp fun _ h => h.2
  | rstCtrlGo x0 => exact (execRstCtrlGo_writes (m := 4398046511103) rfl x0 s).imp fun _ h => h.2
  | e3FenceTimeout => exact (execE3FenceTimeout_writes (m := 4398046511103) rfl s).imp fun _ h => h.2
  | resetDrainTimeout x0 => exact (execResetDrainTimeout_writes (m := 4398046511103) rfl x0 s).imp fun _ h => h.2
  | e4PowerHoldEnd x0 => exact (execE4PowerHoldEnd_writes (m := 4398046511103) rfl x0 s).imp fun _ h => h.2
  | tileWatchdog x0 => exact (execTileWatchdog_writes (m := 4398046511103) rfl x0 s).imp fun _ h => h.2
  | stopWatchdog x0 => exact (execStopWatchdog_writes (m := 4398046511103) rfl x0 s).imp fun _ h => h.2
  | dmaWatchdog x0 => exact (execDmaWatchdog_writes (m := 4398046511103) rfl x0 s).imp fun _ h => h.2
  | faultWatchdog x0 => exact (execFaultWatchdog_writes (m := 4398046511103) rfl x0 s).imp fun _ h => h.2
  | ccWatchdog x0 => exact (execCcWatchdog_writes (m := 4398046511103) rfl x0 s).imp fun _ h => h.2
  | rstKick x0 => exact (execRstKick_writes (m := 4398046511103) rfl x0 s).imp fun _ h => h.2
  | rstPwrWrite x0 => exact (execRstPwrWrite_writes (m := 4398046511103) rfl x0 s).imp fun _ h => h.2
  | rstQclrSlot x0 => exact (execRstQclrSlot_writes (m := 4398046511103) rfl x0 s).imp fun _ h => h.2
  | rstQclrXcn x0 => exact (execRstQclrXcn_writes (m := 4398046511103) rfl x0 s).imp fun _ h => h.2
  | tallySample => exact (execTallySample_writes (m := 4398046511103) rfl s).imp fun _ h => h.2
  | talHaltReq x0 => exact (execTalHaltReq_writes (m := 4398046511103) rfl x0 s).imp fun _ h => h.2
  | talHaltRel x0 => exact (execTalHaltRel_writes (m := 4398046511103) rfl x0 s).imp fun _ h => h.2
  | haltInNFall => exact (execHaltInNFall_writes (m := 4398046511103) rfl s).imp fun _ h => h.2
  | haltInNRise => exact (execHaltInNRise_writes (m := 4398046511103) rfl s).imp fun _ h => h.2
  | talTrigArm x0 x1 => exact (execTalTrigArm_writes (m := 4398046511103) rfl x0 x1 s).imp fun _ h => h.2
  | triggerFire x0 => exact (execTriggerFire_writes (m := 4398046511103) rfl x0 s).imp fun _ h => h.2
  | extest x0 => exact (execExtest_writes (m := 4398046511103) rfl x0 s).imp fun _ h => h.2
  | idcode => exact (execIdcode_writes (m := 4398046511103) rfl s).imp fun _ h => h.2
  | samplePreload x0 => exact (execSamplePreload_writes (m := 4398046511103) rfl x0 s).imp fun _ h => h.2
  | scansel x0 => exact (execScansel_writes (m := 4398046511103) rfl x0 s).imp fun _ h => h.2
  | scanout x0 => exact (execScanout_writes (m := 4398046511103) rfl x0 s).imp fun _ h => h.2
  | haltreq x0 => exact (execHaltreq_writes (m := 4398046511103) rfl x0 s).imp fun _ h => h.2
  | bypass x0 => exact (execBypass_writes (m := 4398046511103) rfl x0 s).imp fun _ h => h.2
  | dstCtrlNote x0 => exact (execDstCtrlNote_writes (m := 4398046511103) rfl x0 s).imp fun _ h => h.2
  | datestoneSecondEnd => exact (execDatestoneSecondEnd_writes (m := 4398046511103) rfl s).imp fun _ h => h.2
  | lifeSave => exact (execLifeSave_writes (m := 4398046511103) rfl s).imp fun _ h => h.2
  | thermalSample x0 x1 x2 x3 => exact (execThermalSample_writes (m := 4398046511103) rfl x0 x1 x2 x3 s).imp fun _ h => h.2
  | throttleUp => exact (execThrottleUp_writes (m := 4398046511103) rfl s).imp fun _ h => h.2
  | thermalCritical => exact (execThermalCritical_writes (m := 4398046511103) rfl s).imp fun _ h => h.2
  | criticalRecover => exact (execCriticalRecover_writes (m := 4398046511103) rfl s).imp fun _ h => h.2
  | clkTcfgWrite x0 => exact (execClkTcfgWrite_writes (m := 4398046511103) rfl x0 s).imp fun _ h => h.2
  | refclkLost => exact (execRefclkLost_writes (m := 4398046511103) rfl s).imp fun _ h => h.2
  | refclkRestored => exact (execRefclkRestored_writes (m := 4398046511103) rfl s).imp fun _ h => h.2
  | registerWrite x0 x1 x2 => exact (execRegisterWrite_writes (m := 4398046511103) rfl x0 x1 x2 s).imp fun _ h => h.2
  | neighbourSolicitation x0 x1 x2 => exact (execNeighbourSolicitation_writes (m := 4398046511103) rfl x0 x1 x2 s).imp fun _ h => h.2
  | arpRequest x0 x1 x2 => exact (execArpRequest_writes (m := 4398046511103) rfl x0 x1 x2 s).imp fun _ h => h.2
  | echoRequest x0 x1 x2 x3 x4 => exact (execEchoRequest_writes (m := 4398046511103) rfl x0 x1 x2 x3 x4 s).imp fun _ h => h.2
  | outgoingContribution x0 x1 x2 => exact (execOutgoingContribution_writes (m := 4398046511103) rfl x0 x1 x2 s).imp fun _ h => h.2
  | resetReqReassemblyTimeout x0 x1 => exact (execResetReqReassemblyTimeout_writes (m := 4398046511103) rfl x0 x1 s).imp fun _ h => h.2
  | teardownFenceTimeout => exact (execTeardownFenceTimeout_writes (m := 4398046511103) rfl s).imp fun _ h => h.2

/-- A command whose meaning runs a program, and whose meaning's effects are under a mask, changes the areas of the mask at most. -/
theorem leads_areas {w : Part → Bool} {m : Nat} {c : Instr} {s : State} {Q : Dev → Prop} {q : Prog} (h : exec c s = s.run q)
    (hw : ∃ p : Prog, p.Writes m ∧ exec c s = s.run p)
    (hm : ∀ p : Part, w p = false → m &&& p.area.mask = 0) (hQ : Q (q.run s.dev)) : Leads w c s Q := by
  obtain ⟨p, hp, he⟩ := hw
  have hd : q.run s.dev = p.run s.dev := by
    have := h.symm.trans he
    simp only [State.run, Host.Outcome.next.injEq, State.mk.injEq, and_true] at this
    exact this
  refine ⟨_, h, rfl, fun x hx => ?_, hQ⟩
  show s.dev.alike (q.run s.dev) x
  rw [hd]
  exact Prog.Writes.alike (hm x hx) p hp s.dev

theorem mask_areas {m : Nat} {as : List Area} (h : Area.every.all (fun a => decide (a ∈ as) || decide (m &&& a.mask = 0)) = true) (p : Part)
    (hp : areas as p = false) : m &&& p.area.mask = 0 := by
  have := List.all_eq_true.mp h _ (Area.mem_every p.area)
  simp only [areas, decide_eq_false_iff_not] at hp
  simpa [hp] using this

theorem mask_butAreas {m : Nat} {as : List Area} (h : as.all (fun a => decide (m &&& a.mask = 0)) = true) (p : Part)
    (hp : butAreas as p = false) : m &&& p.area.mask = 0 := by
  simp only [butAreas, Bool.not_eq_false', decide_eq_true_eq] at hp
  simpa using List.all_eq_true.mp h _ hp

end Sys2Proof.Machine
end

