-- ==== Sys2Proof/WellFormed.lean ====
section
/-! DEFINITION. Which commands can arrive: limits of the operands that their types do not say. -/

namespace Sys2Proof

/-- A management-ring frame: header, at most 1,024 bytes of payload, CRC (Table 13.1). -/
def ringFrameFits (f : List Byte) : Bool := decide (20 ≤ f.length) && decide (f.length ≤ 1044)

/-- A NOTICE's payload: one peer message carries at most 4,096 bytes (Table 10.5). -/
def NMsg.fits (m : NMsg) : Bool := decide (m.data.length ≤ 4096)

/-- A UDP payload. -/
def datagramFits (b : List Byte) : Bool := decide (b.length ≤ 65507)

/-- The operands of a command lie within what its carrier can hold. Commands that are not listed have operands whose types say it all, or
whose limits the command itself checks. -/
def Instr.wellFormed : Instr → Bool
  | .recovery f | .enum f | .rollcall f | .pulse f | .ringFrameForward f | .resetReq f => ringFrameFits f
  | .flitReceive _ _ flit => decide (flit.length = 256)
  | .setoutDatagram _ b | .openReq _ b => datagramFits b
  | .ozPwrokRise _ _ _ _ dimms => decide (dimms.length = 24)
  | .dimmTempRead temps => decide (temps.length = 24)
  | .contributionReceive _ _ _ _ _ bs => decide (bs.length ≤ 4096)
  | .courseOpen m | .courseDecide m | .earlyReq m | .vote m | .groupDigest m | .mirrorAck m | .decisionRec m | .decisionAck m
  | .lostReport m | .shoreNotice m | .rewindPlan m | .rewound m | .admitOrder m | .farAck m | .startJob m | .startAbort m | .join m
  | .memberMap m | .courseQuery m | .seed m | .pairHello m | .mirror m | .farPut m | .farReserve m | .resync m | .teardownNote m
  | .partnerScrub m | .treeChunk m | .treeWant m | .treeJoin m | .shardWant m | .shardPut m | .manifestWant m | .ready m
  | .teardownReq m | .teardownOrder m | .scrubDone m => m.fits
  | _ => true

end Sys2Proof
end

