-- ==== Sys2Proof/Tests/Slice0.lean ====
section
/-! SUPPORT. Tests: an ill-formed term for each check of WellFormed, and for every statement of Certificates/Slice0 that has hypotheses a
state and operands that meet them, clause by clause. The states are made from a powered part by a few register writes and records. -/

namespace Sys2Proof.Tests

open Sys2Proof.Machine

set_option linter.unusedVariables false

set_option Elab.async false


/-- A powered part whose firmware runs. -/
def up0 : Dev := { power := { pwrok := true }, mode := { fw := .run } }

/-- That part after some effects. -/
def st (ps : List Prog) : State := ⟨(all ps).run up0, []⟩

/-- A register word with some fields set. -/
def w (fs : List (Fld × Nat)) : W64 := fs.foldl (fun a f => f.1.into a f.2) 0

/-- Sets fields of an agent's block, and what else `f` changes. -/
def ag (n : Nat) (fs : List (Fld × Nat)) (f : Agent → Agent := id) : Prog := modAgent n fun a => f (fs.foldl (fun a x => a.set x.1 x.2) a)

/-- An agent with both paths up, in a state, bound to position 3 under epoch 7. -/
def agUp (n s : Nat) (fs : List (Fld × Nat) := []) (f : Agent → Agent := id) : Prog :=
  ag n ([(QAG_STATE_STATE, s), (QAG_STATE_SB_UP, 1), (QAG_STATE_TRAY_UP, 1), (QAG_BIND_EPOCH, 7), (QAG_BIND_POSITION, 3)] ++ fs) f

/-- A message of the tray port under epoch 7 from position 3. -/
def qm (arg : Nat := 0) (data : List Byte := []) : QMsg :=
  { epoch := 7, position := 3, seq := 5, tag := 9, arg := BitVec.ofNat 64 arg, check := 0, data := data }

/-- A mark key. -/
def k32 : List Byte := List.replicate 32 1

/-- A STATE region of one block at host address 2 GiB. -/
def oneRegion : List (Fld × Nat) := [(QAG_REG_A_VALID 0, 1), (QAG_REG_A_STATE 0, 1), (QAG_REG_A_BASE 0, 0x400), (QAG_REG_B_LEN 0, 1)]

/-- The region table of position 4: one STATE region of 513 blocks at host address 2 GiB. -/
def regs4 (base : Nat := 0x400) : List Byte := List.replicate 128 0 ++
  leBytes 8 (w [(QAG_REG_A_VALID 0, 1), (QAG_REG_A_STATE 0, 1), (QAG_REG_A_BASE 0, base)]).toNat ++ leBytes 8 (w [(QAG_REG_B_LEN 0, 513)]).toNat

/-- Member 0 of a job of epoch 7 at address 67, whose root is member 1 at address 70: slot 2 is LIVE at position 4. -/
def jb : Prog := all [put RNG_ADDR_ENUM 1, put RNG_ADDR_POS 3, put RNG_ADDR_RACK 1, put HUB_ROLE_JOB_EPOCH 7, put CRS_CTRL_EN 1,
  put CRS_ROOT_ADDR 70, put CRS_ROOT_MEMBER 0, put CRS_ROOT_N_OZ 2, put (HUB_SLOT_STATE 2) sLIVE, put (HUB_SLOT_POSITION 2) 4,
  put (LNK_STAT_STATE 2) 3, put (LNK_SB_RESET 2) 0, put HUB_PAIR_PADDR 66, put HUB_PAIR_PEPOCH 7, put CRS_BAR_BASE 8,
  modMode fun m => { m with role := .watch },
  modJob fun j => { j with members := [67, 70], positions := [⟨4, 0, 2, true, 0, 0⟩, ⟨5, 1, 1, true, 0, 0⟩] }]

/-- The same Ozmund, as the root. -/
def rt : Prog := all [jb, put CRS_ROOT_IS_ROOT 1, put CRS_ROOT_ADDR 67]

/-- A course 9 at step 20 in a state. -/
def crs (k : Nat) : Prog := all [put CRS_STAT_STATE k, put CRS_COURSE_CUR 9, put CRS_STEP_STEP 20]

/-- The partner is PAIRED, and its session open. -/
def paired : Prog := all [modMode fun m => { m with partner := .paired }, modPeer 0 fun p => { p with st := 2, peer := 66 }]

/-- A notice under epoch 7. -/
def nm (src : Nat) (data : List Byte) : NMsg := { src := BitVec.ofNat 22 src, epoch := 7, seq := 8, data := data }

/-- The region table is known, and the shard of slot 2 is being filled. -/
def fill : Prog := all [
  modJob fun j => { j with regions := [(4, regs4)] },
  modCourse fun c => { c with dir := [(0, ⟨0x10000000, 0, 1, 2, 0, 0, false, false, 513, 0, false⟩)] },
  modSlot 2 fun x => { x with reqs := [⟨5, false, 0x14, 2 * 2 ^ 32, [], []⟩] }]

/-- A reduction record of slot 2 with one vector of zeros. -/
def rdRec (out : List Byte) : List Byte :=
  ascii "AZWITREC" ++ pack [(1, 1), (1, 0), (1, 0), (1, 0), (4, 4), (8, 10), (4, 3), (4, 1), (2, 0), (2, 0), (4, 640)] ++
    List.replicate 88 0 ++ List.replicate 256 0 ++ out

/-- A shard of one block of zeros, of course 8. -/
def ent8 : MEnt := ⟨4, 0, 0, 0, 0, 1, 0, 8, 0x10000000, 0, 0, leBytes 32 75614934479337915893546174487072685671314505988613513747912100507472850878381⟩

/-- Course 8 as this member holds it. -/
def held8 : Held := { course := 8, step := 20, ents := [ent8] }

/-- A rewind plan to course 8. -/
def plan3 : Plan := ⟨3, 8, 20, 1, 0, 8⟩

/-- A message of a session under epoch 7. -/
def pm (n : Nat) (arg : Nat := 0) (data : List Byte := []) : PMsg :=
  { session := BitVec.ofNat 14 n, epoch := 7, seq := 5, tag := 9, arg := BitVec.ofNat 64 arg, data := data }

/-- A session to an address in a state. -/
def ps (n addr k : Nat) : Prog := modPeer n fun p => { p with st := k, peer := addr }

/-- The crossconnect is present and its use authorised. -/
def xc : Prog := all [jb, put XCN_CTRL_AUTH 1, put XCN_STAT_PGOOD 1, put XCN_CTRL_PWR_EN 1]

/-- A head of two chunks without sections, of which one is held. -/
def staging : Prog := all [put HUB_START_PHASE 1, modStart fun x =>
  { x with chunks := [(0, 0)], head := List.replicate 20 0 ++ pack [(4, 2), (8, 0x100100)] ++ List.replicate 8160 0 }]

/-- A far copy and a mirror of course 8 of the partner. -/
def holds : Prog := modHold fun h => { h with far := [⟨8, 7, 0, 0x10000000, 1, k32⟩], mirrors := [⟨8, 7, 0, [], [], false⟩] }

/-- The watches, all armed. -/
def watchesFull : Store Watch := (List.range 4096).map fun n => (n, ⟨0, 5, 0, .cc⟩)

/-- A flit of a type: FSEQ, ACK, NAK, the offset of its first message, and the bytes it carries. -/
def flit (ty fseq ack nak first : Nat) (body : List Byte := []) : List Byte :=
  let b := leBytes 4 (ty * 2 ^ 28 + nak * 2 ^ 24 + ack * 2 ^ 12 + fseq) ++ leBytes 4 first ++ body ++ List.replicate (240 - body.length) 0
  b ++ leBytes 8 ((List.range 31).foldl (fun x i => x ^^^ numAt b (8 * i) 8) 0)

/-- A port is UP with all its lanes. -/
def lk (n : Nat) : Prog := all [put (LNK_STAT_STATE n) 3, put (LNK_STAT_LANES n) 255, modPort n fun p => { p with good := 255, farLanes := 255 }]

/-- A descriptor: its first word beyond the fields given, source and destination, and length. -/
def dsc (w0 sctx dctx src dst len : Nat) : List Byte :=
  pack [(8, w0 + sctx * 2 ^ 8 + dctx * 2 ^ 16), (8, src), (8, dst), (8, len), (8, 0), (8, 0), (8, 0), (8, 0)]

/-- Channel 3 is enabled, its ring at 1 MiB with one entry, which is this descriptor. -/
def chan3 (x : List Byte) : Prog := all [put (DMA_CTRL_EN 3) 1, put (DMA_RING_BASE 3) 0x4000, put (DMA_PTR_TAIL 3) 1, writePhys 0x100000 x]

/-- Channel 3 in the middle of it. -/
def busy3 (x : List Byte) : Prog := .seq (chan3 x) (modChan 3 fun c => { c with entry := 0x100000, cur := 0x100000, started := true })

/-- Context 1 has a root table that maps nothing. -/
def root1 : Prog := all [put (MMU_ROOT_ROOT 1) 0x100000, put (MMU_ROOT_VALID 1) 1]

/-- The position of slot 2 is shored here and live. -/
def shored : Prog := all [jb, put SHR_STAT_PHASE 5, modShore fun x => { x with slot := some 2 }]

/-- A fabric packet for position 4. -/
def fm (arg : Nat) (data : List Byte := []) : QMsg := { qm arg data with position := 4, tag := 0x50009 }

/-- A word with numbers at some of its bits. -/
def lw (fs : List (Nat × Nat)) : W64 := BitVec.ofNat 64 (fs.foldl (fun a f => a + f.2 * 2 ^ f.1) 0)

/-- A word of the CT class (Table 8.13): OP, FN, RD, RA, RB, BI and IMM32. -/
def ctw (op fn rd ra rb bi imm : Nat) : W64 := lw [(0, op), (9, fn), (13, rd), (18, ra), (23, rb), (28, bi), (29, imm)]

/-- A word of the VX class (Table 8.5): OP, FN, the two views, DST, SA, SB, R0 and NR, and other bits. -/
def vxw (op fn dv sv dst sa sb r0 nr : Nat) (more : List (Nat × Nat) := []) : W64 :=
  lw ([(0, op), (6, 1), (13, fn), (17, dv), (21, sv), (25, dst), (31, sa), (37, sb), (49, r0), (55, nr)] ++ more)

/-- Bit patterns of many kinds of value. -/
def codes : List Nat := [0x3F800000, 0x80000000, 0x7F800000, 0xFFC00001, 0xC0490FDB, 0x00000001, 0x7F7FFFFF, 0x40000000, 0xFF800000,
  0x00800000, 0x3E99999A, 0x80000003, 0x4B000001, 0xBF800000, 0x42C80000, 0x0]

/-- Tile 2 runs at offset 64 of its code range, its queues empty; rows 0 and 1 of TB0 and TB1 hold values. -/
def tl (f : Tile → Tile := id) : Prog := modTile 2 fun t =>
  f { (((t.set TLE_STAT_STATE tRUNNING).set TLE_CTRL_EN 1).set TLE_CODE_LEN 4096).set TLE_PC_PC 64 with
    tb := ((List.range 128).filterMap fun i => if codes.getD (i % 16) 0 = 0 then none else some (i, BitVec.ofNat 32 (codes.getD (i % 16) 0))) ++
      (List.range 128).filterMap fun i =>
        if codes.getD ((7 * i + i / 16) % 16) 0 = 0 then none else some (4096 + i, BitVec.ofNat 32 (codes.getD ((7 * i + i / 16) % 16) 0)) }

/-- Tiles 2 and 3 are a pair in lockstep, both as `tl` makes tile 2. -/
def tl2 (f : Tile → Tile := id) : Prog := .look fun d =>
  let t := ((tl f).run d).tile 2
  all [modTile 2 fun _ => t.set TLE_STAT_PAIRED 1, modTile 3 fun _ => t.set TLE_STAT_PAIRED 1]

/-- Slot 2 is shored here, and each of its output tiles and slices is selected. -/
def sampled : Prog := all [jb, modShore fun x => { x with slot := some 2 }, modWit fun x => { x with sel := [(2, (true, 0))] },
  modJob fun j => { j with witness := [(0, [(5, 5)])] }]

/-- A command on the session of slot 3. -/
def hm (arg : Nat := 0) (target : Nat := 0) (data : List Byte := []) (epoch : Nat := 0) : HMsg :=
  { slot := 3, seq := 5, arg := BitVec.ofNat 64 arg, target := BitVec.ofNat 64 target, data := data, epoch := BitVec.ofNat 32 epoch }

/-- The session of slot 3 is OPEN, in a class. -/
def hs (cls : Nat := 1) : Prog := all [put (HST_SESS_STATE 3) 2, put (HST_SESS_CLASS 3) cls]

/-- Self-test has passed, and every memory and channel is up. -/
def fit : Prog := all [put HUB_POST_PASS 1, put MEM_HBM_STAT_UP 0xFFFFFFFF, put RNG_ADDR_ENUM 1,
  all ((List.range 12).map fun n => put (MEM_DDR_CH_STATE n) 1)]

/-- A host at an address. -/
def eth : Ether := { port := false, addr := 0x0A000001, udp := 4660 }

/-- A packet that carries nothing. -/
def pkt0 : OutPkt := ⟨5, 5, 0, 0, 0, 0, 0, 1, 0, []⟩

/-- The header of a program of one tile, whose body is 8,384 zeros. -/
def imageHead : List Byte :=
  ascii "AZLATHE3" ++ pack [(1, 3), (1, 1), (2, 1), (2, 0), (2, 1), (4, 0), (4, 8384), (4, 0), (4, 8), (4, 0), (4, 64), (24, 0)] ++
    leBytes 32 87602287252325709827480055351099289873121788608975247287455982701116958721653 ++ List.replicate 32 0

/-- A context has one table, which names itself at every level: virtual page 1 is physical page 3. -/
def selfTable (c flags check : Nat) : Prog := all [put (MMU_ROOT_ROOT c) 0x100000, put (MMU_ROOT_VALID c) 1,
  .act (.mem 0x40000000 (leBytes 8 0x40000001 ++ leBytes 8 (0x600007 + flags))), .act (.check 0x40000 (BitVec.ofNat 64 check))]

/-- That of context 1. -/
def map1 : Prog := selfTable 1 0 17823688415796579105

/-- A stretch of memory in which nothing is listed reads as zeros. -/
theorem getAll_unlisted (m : Store Byte) (k n : Nat) (h : ∀ e ∈ m, e.1 < k ∨ k + n ≤ e.1) : Store.getAll memDflt m k n = List.replicate n 0 := by
  induction n generalizing k with
  | zero => rfl
  | succ n ih =>
    have h0 : Store.find? m k = none := by
      clear ih
      induction m with
      | nil => rfl
      | cons a t it =>
        have ha := h a (List.mem_cons_self ..)
        have : a.1 ≠ k := by omega
        simpa [Store.find?, this] using it fun e he => h e (List.mem_cons_of_mem _ he)
    have h1 := ih (k + 1) fun e he => by have := h e he; omega
    simp [Store.getAll, Store.get, h0, h1, memDflt, List.replicate_succ]

theorem getAll_add {α : Type} (f : Nat → α) (m : Store α) (k a b : Nat) :
    Store.getAll f m k (a + b) = Store.getAll f m k a ++ Store.getAll f m (k + a) b := by
  induction a generalizing k with
  | zero => simp [Store.getAll]
  | succ a ih => rw [Nat.add_right_comm]; simp [Store.getAll, ih, Nat.add_comm 1 a, Nat.add_assoc]

/-- A stretch that begins with some bytes and lists nothing after them. -/
theorem bytes_begin {d : Dev} {k n : Nat} (pre : List Byte) (h : d.bytes k pre.length = pre)
    (hz : ∀ e ∈ d.mem, e.1 < k + pre.length ∨ k + n ≤ e.1) (hn : pre.length ≤ n) : d.bytes k n = pre ++ List.replicate (n - pre.length) 0 := by
  obtain ⟨r, rfl⟩ := Nat.exists_eq_add_of_le hn
  unfold Dev.bytes at h ⊢
  rw [getAll_add, h, getAll_unlisted _ _ _ fun e he => by have := hz e he; omega, Nat.add_sub_cancel_left]

/-- Such a block agrees with its check word where that is the CRC of those bytes. -/
theorem blockOk_begin {d : Dev} {k : Nat} (pre : List Byte) (h : d.bytes (4096 * k) pre.length = pre)
    (hz : ∀ e ∈ d.mem, e.1 < 4096 * k + pre.length ∨ 4096 * k + 4096 ≤ e.1) (hn : pre.length ≤ 4096)
    (hc : crc64 (pre ++ List.replicate (4096 - pre.length) 0) = (d.check k).toNat) {a : Nat} (ha : a / 4096 = k) : d.blockOk a = true := by
  subst ha
  unfold Dev.blockOk
  rw [Nat.mul_comm (a / 4096), bytes_begin pre h hz hn, hc]
  cases d.phys a <;> simp

set_option maxRecDepth 20000 in
/-- The check word of a block of zeros. -/
theorem crc64_zeros : crc64 (List.replicate 4096 0) = (checkDflt 0).toNat := by decide +kernel

/-- A run in which nothing is listed agrees with its checks. -/
theorem runOk_zeros {d : Dev} (a n : Nat) (hm : ∀ e ∈ d.mem, e.1 < a / 4096 * 4096 ∨ a + n + 4096 ≤ e.1)
    (hc : ∀ e ∈ d.checks, e.1 < a / 4096 ∨ (a + n) / 4096 < e.1) : d.runOk a n = true := by
  have hd : ∀ (l : Store W64) (k : Nat), (∀ e ∈ l, e.1 ≠ k) → Store.get checkDflt l k = checkDflt 0 := by
    intro l k h
    have : Store.find? l k = none := by
      induction l with
      | nil => rfl
      | cons x t ih => simpa [Store.find?, h x (List.mem_cons_self ..)] using ih fun e he => h e (List.mem_cons_of_mem _ he)
    simp [Store.get, this, checkDflt]
  unfold Dev.runOk
  rw [List.all_eq_true]
  intro b hb
  have hr : a / 4096 ≤ b ∧ b ≤ (a + n) / 4096 := by
    unfold blocksOf at hb
    split at hb
    · cases hb
    · obtain ⟨i, hi, rfl⟩ := List.mem_map.1 hb
      have := List.mem_range.1 hi
      omega
  refine blockOk_begin [] rfl (fun e he => ?_) (by decide) ?_ (Nat.mul_div_cancel b (by decide))
  · have := hm e he
    simp only [List.length_nil, Nat.add_zero]
    omega
  · unfold Dev.check
    rw [hd _ _ fun e he => by have := hc e he; omega]
    exact crc64_zeros

/-- The saved image of a tile agrees with its checks where memory lists nothing. -/
theorem imageOk_empty {d : Dev} (n : Nat) (hm : d.mem = []) (hc : d.checks = []) : d.imageOk n = true := by
  have h (a k : Nat) : d.runOk a k = true := runOk_zeros a k (by simp [hm]) (by simp [hc])
  simp only [Dev.imageOk, h, Bool.and_self]

/-- A block of zeros disagrees with any other check word than theirs. -/
theorem blockBad {d : Dev} {a : Nat} (hp : d.phys a = .hbm) (hm : d.mem = []) (hc : crc64 (List.replicate 4096 0) ≠ (d.check (a / 4096)).toNat) :
    d.blockOk a = false := by
  have hz : d.bytes (a / 4096 * 4096) 4096 = List.replicate 4096 0 := by
    unfold Dev.bytes
    rw [hm]
    exact getAll_unlisted _ _ _ fun e he => nomatch he
  unfold Dev.blockOk
  rw [hp, hz]
  exact decide_eq_false hc

/-- A run whose first block is bad. -/
theorem runBad {d : Dev} {a n : Nat} (hn : n ≠ 0) (h : d.blockOk (a / 4096 * 4096) = false) : d.runOk a n = false := by
  unfold Dev.runOk
  rw [List.all_eq_false]
  refine ⟨a / 4096, ?_, by rw [h]; exact Bool.false_ne_true⟩
  unfold blocksOf
  rw [if_neg hn]
  exact List.mem_map.2 ⟨0, List.mem_range.2 (Nat.succ_pos _), Nat.add_zero _⟩

/-- The saved image of a tile whose first block disagrees with its check. -/
theorem imageBad {d : Dev} (n : Nat) (hn : n < 256) (hm : d.mem = []) (hc : (d.check ((saveAreaBase + n * 0x2000000) / 4096)).toNat ≠ (checkDflt 0).toNat) :
    d.imageOk n = false := by
  have hb : d.blockOk ((saveAreaBase + n * 0x2000000) / 4096 * 4096) = false := by
    refine blockBad ?_ hm ?_
    · unfold Dev.phys
      rw [if_pos (by simp only [saveAreaBase, hbmCheckBase]; omega)]
    · rw [Nat.mul_div_cancel _ (by decide), crc64_zeros]
      exact Ne.symm hc
  unfold Dev.imageOk
  rw [runBad (by decide) hb, Bool.false_and]

/-- A number in bytes that are all zero. -/
theorem numAt_zeros (k off n : Nat) : numAt (List.replicate k 0) off n = 0 := by
  unfold numAt
  rw [List.drop_replicate, List.take_replicate]
  induction (min n (k - off)) with
  | zero => rfl
  | succ j ih => rw [List.replicate_succ, leNat, ih]; rfl

/-- What an image of zeros leaves of a tile's registers. -/
def zeroRegs : Store W64 := imageRegs.foldl (fun r p => Store.put tileDflt r p.2 0) []

/-- A tile that has never run is given back idle by an image of zeros. -/
theorem restored_idle {d : Dev} (n o : Nat) (hm : d.mem = []) (hs : d.savedTiles = []) (ht : d.tiles = []) (ho : o < 4) :
    (d.restored n o).idleQueues ∧ (d.restored n o).state ∈ [tIDLE, tSTOPPED] ∧ (d.restored n o).on TLE_CTRL_STOP = false := by
  have hb : d.bytes (saveAreaBase + n * 0x2000000 + 0x1800000) 0x2F000 = List.replicate 0x2F000 0 := by
    unfold Dev.bytes
    rw [hm]
    exact getAll_unlisted _ _ _ fun e he => nomatch he
  have ht' : d.tile n = {} := by simp [Dev.tile, ht, Store.get, Store.find?, tileReset]
  unfold Dev.restored
  rw [hb, ht', hs]
  have hr : (Tile.ofImage {} (List.replicate 0x2F000 0)).regs = zeroRegs := by
    simp only [Tile.ofImage, numAt_zeros, zeroRegs]
    rfl
  have hf : (Tile.ofImage {} (List.replicate 0x2F000 0)).front = none ∧ (Tile.ofImage {} (List.replicate 0x2F000 0)).mx = [] ∧
      (Tile.ofImage {} (List.replicate 0x2F000 0)).vx = [] ∧ (Tile.ofImage {} (List.replicate 0x2F000 0)).rd = [] ∧
      (Tile.ofImage {} (List.replicate 0x2F000 0)).mv = [] ∧ (Tile.ofImage {} (List.replicate 0x2F000 0)).passes = [] ∧
      (Tile.ofImage {} (List.replicate 0x2F000 0)).moves = [] ∧ (Tile.ofImage {} (List.replicate 0x2F000 0)).ending = false ∧
      (Tile.ofImage {} (List.replicate 0x2F000 0)).faulting = false := ⟨rfl, rfl, rfl, rfl, rfl, rfl, rfl, rfl, rfl⟩
  show _ ∧ _ ∧ _
  simp only [Store.get, Store.find?, tileReset]
  generalize Tile.ofImage {} (List.replicate 0x2F000 0) = u at hr hf
  obtain ⟨h1, h2, h3, h4, h5, h6, h7, h8, h9⟩ := hf
  rcases (by omega : o = 0 ∨ o = 1 ∨ o = 2 ∨ o = 3) with rfl | rfl | rfl | rfl
  all_goals
    refine ⟨⟨?_, h1, h2, h3, h4, h5, h6, h7, h8, h9⟩, ?_, ?_⟩
    all_goals
      simp only [Tile.countsOf, List.foldl, Tile.withOwner, Tile.set, Tile.state, Tile.on, Tile.get, hr]
      decide +kernel

/-- The check word of the self-naming table with a leaf. -/
def tableCheck (e : Nat) : Nat := if e = 0x600007 then 17823688415796579105 else 12556698698456685390

/-- A self-naming table stands in a context: its root, its two entries, nothing more in their block, and its check. -/
def namesItself (d : Dev) (c e : Nat) : Bool :=
  decide (1 ≤ c ∧ c ≤ 3 ∧ d.get (MMU_ROOT_ROOT c) = 0x100000 ∧ d.get (MMU_ROOT_VALID c) = 1 ∧ d.mem64 0x40000000 8 = 0x40000001 ∧
    d.mem64 0x40000008 8 = e ∧ d.bytes (4096 * 0x40000) 16 = leBytes 8 0x40000001 ++ leBytes 8 e ∧ (d.check 0x40000).toNat = tableCheck e) &&
  decide (∀ x ∈ d.mem, x.1 < 4096 * 0x40000 + 16 ∨ 4096 * 0x40000 + 4096 ≤ x.1)

set_option maxRecDepth 20000 in
theorem table07_crc : crc64 (leBytes 8 0x40000001 ++ leBytes 8 0x600007 ++ List.replicate 4080 0) = 17823688415796579105 := by decide +kernel

set_option maxRecDepth 20000 in
theorem table67_crc : crc64 (leBytes 8 0x40000001 ++ leBytes 8 0x600067 ++ List.replicate 4080 0) = 12556698698456685390 := by decide +kernel

theorem namesItself_sound {d : Dev} {c e : Nat} (hd : namesItself d c e = true) (he : e ∈ [0x600007, 0x600067]) : d.blockOk 0x40000000 = true := by
  simp only [namesItself, Bool.and_eq_true, decide_eq_true_eq] at hd
  obtain ⟨⟨-, -, -, -, -, -, hb, hc⟩, hz⟩ := hd
  have hl : (leBytes 8 0x40000001 ++ leBytes 8 e).length = 16 := by simp [leBytes]
  refine blockOk_begin (k := 0x40000) (leBytes 8 0x40000001 ++ leBytes 8 e) ?_ ?_ (by omega) ?_ (by decide)
  · rw [hl]; exact hb
  · rw [hl]; exact hz
  · rw [hl, hc]
    simp only [List.mem_cons, List.not_mem_nil, or_false] at he
    rcases he with rfl | rfl
    · exact table07_crc
    · exact table67_crc

/-- What it maps: a virtual page 1, found with one check of the table's block. -/
theorem selfTable_translate {d : Dev} {c va e : Nat} {write direct : Bool} (hd : namesItself d c e = true) (he : e ∈ [0x600007, 0x600067])
    (hva : va / 0x200000 = 1) : d.translate c va write direct = .ok (0x400000 + va) 0x40000008 := by
  have hb := namesItself_sound hd he
  simp only [namesItself, Bool.and_eq_true, decide_eq_true_eq] at hd
  obtain ⟨⟨hc, hc3, hr, hv, h0, h1, -, -⟩, -⟩ := hd
  have hb8 : d.blockOk 0x40000008 = true := by
    have h : d.blockOk 0x40000008 = d.blockOk 0x40000000 := by simp [Dev.blockOk, Dev.phys, hbmCheckBase]
    rw [h, hb]
  have j0 : va / 144115188075855872 % 128 = 0 := by omega
  have j1 : va / 281474976710656 % 512 = 0 := by omega
  have j2 : va / 549755813888 % 512 = 0 := by omega
  have j3 : va / 1073741824 % 512 = 0 := by omega
  have j4 : va / 2097152 % 512 = 1 := by omega
  have c0 : c ≠ 0 := by omega
  have hm : d.mayMapAll c 0x600000 0x200000 = true := by
    have : d.mayMap c 0x600000 = true := by simp [Dev.mayMap, Dev.phys, hbmCheckBase, hc3]
    simpa [Dev.mayMapAll, pageBytes, List.range, List.range.loop] using this
  have hp : d.phys (0x600000 + va % 0x200000) = .hbm := by
    unfold Dev.phys
    rw [if_pos]
    simp only [hbmCheckBase]
    omega
  simp only [List.mem_cons, List.not_mem_nil, or_false] at he
  rcases he with rfl | rfl <;>
  simp only [j0, j1, j2, j3, j4, Dev.translate, c0, ↓reduceIte, hv, Nat.succ_ne_self, Dev.walk, hr, Nat.reduceMul, pageTableBase,
    Nat.lt_irrefl, pageTableTop, Nat.reducePow, Nat.mul_zero, Nat.add_zero, Nat.reduceLeDiff, or_self, hb,
    Bool.not_true, Bool.false_eq_true, entBit, h0, Nat.pow_zero, Nat.div_one, Nat.reduceMod, decide_true, Nat.reduceDiv,
    ne_eq, not_true_eq_false, Nat.pow_one, Nat.zero_ne_one, decide_false, reduceCtorEq, entAddr, Nat.zero_add,
    Nat.sub_self, Nat.sub_zero, Nat.reduceEqDiff, Nat.reduceAdd, Nat.add_one_sub_one, Nat.mul_one, Nat.reduceSub,
    hb8, h1, or_true, Dev.leafAccess, and_self, hm, Bool.and_false, hp, Dev.physOk, Xlat.ok.injEq, and_true] <;> omega

/-- What a range of that page reads as, its blocks sound and the flags of its leaf as an access leaves them. -/
theorem selfTable_reads {d : Dev} {c va len : Nat} (hd : namesItself d c 0x600067 = true)
    (hp : ∀ p ∈ pieces va 0 len, (va + p.1) / 0x200000 = 1 ∧ d.blockOk (0x400000 + (va + p.1)) = true) :
    d.readable c va len ∧ d.virtBytes c va len = (pieces va 0 len).flatMap fun p => d.physBytes (0x400000 + (va + p.1)) p.2 := by
  have hm : d.mem64 0x40000008 8 = 0x600067 := by
    simp only [namesItself, Bool.and_eq_true, decide_eq_true_eq] at hd
    exact hd.1.2.2.2.2.2.1
  have key : ∀ p ∈ pieces va 0 len, d.pieceAt c va false p = some (0x400000 + (va + p.1)) := by
    intro p h
    obtain ⟨h1, h2⟩ := hp p h
    have h3 : (va + p.1) % 2 ^ 64 = va + p.1 := Nat.mod_eq_of_lt (by omega)
    unfold Dev.pieceAt
    rw [h3, selfTable_translate hd (by decide) h1]
    simp [h2, hm]
  refine ⟨fun p h => by rw [key p h]; rfl, ?_⟩
  unfold Dev.virtBytes
  rw [List.flatMap_def, List.flatMap_def]
  exact congrArg List.flatten (List.map_congr_left fun p h => by rw [key p h, Option.getD_some])

/-- The same for the job's own context. -/
theorem selfTable_jobPhys {d : Dev} {va : Nat} (hd : namesItself d 1 0x600007 = true) (hva : va / 0x200000 = 1) : d.jobPhys va = some (0x400000 + va) := by
  unfold Dev.jobPhys
  rw [selfTable_translate hd (by decide) hva]

/-- With every watch armed none is free. -/
theorem watchesFull_freeWatch (d : Dev) (h : d.watches = watchesFull) : d.freeWatch = none := by
  have key : ∀ (l : List Nat) (k : Nat), k ∈ l → (Store.find? (l.map fun n => (n, (⟨0, 5, 0, .cc⟩ : Watch))) k).isNone = false := by
    intro l k
    induction l with
    | nil => simp
    | cons a t ih =>
      intro hk
      by_cases e : a = k
      · simp [Store.find?, e]
      · have hk' : k ∈ t := by simpa [Ne.symm e] using hk
        simpa [Store.find?, e] using ih hk'
  unfold Dev.freeWatch
  rw [h, List.find?_eq_none]
  intro x hx
  rw [watchesFull, key _ x hx]
  exact Bool.false_ne_true
/-- A host's load record at virtual page 1 of context 3. -/
def hostRecord : List Byte := leBytes 8 1 ++ leBytes 8 0x201000 ++ leBytes 8 8512

/-- The record stands there, and the program it names in the blocks after it. -/
def loadRecord : State := st [hs, selfTable 3 0x60 12556698698456685390, .act (.mem 0x600000 hostRecord), .act (.check 0x600 1935677769931268997),
  .act (.mem 0x601000 imageHead), .act (.check 0x601 14397675658581078842)]

set_option maxRecDepth 20000 in
theorem loadRecord_names : namesItself loadRecord.dev 3 0x600067 = true := by decide +kernel

set_option maxRecDepth 20000 in
theorem loadRecord_blocks : ∀ b ∈ [0x600000, 0x600008, 0x601000, 0x602000, 0x603000], loadRecord.dev.blockOk b = true := by
  have h0 : loadRecord.dev.blockOk 0x600000 = true := blockOk_begin (k := 0x600) hostRecord (by decide +kernel) (by decide +kernel) (by decide) (by decide +kernel) (by decide)
  have h8 : loadRecord.dev.blockOk 0x600008 = true := blockOk_begin (k := 0x600) hostRecord (by decide +kernel) (by decide +kernel) (by decide) (by decide +kernel) (by decide)
  have h1 : loadRecord.dev.blockOk 0x601000 = true := blockOk_begin (k := 0x601) imageHead (by decide +kernel) (by decide +kernel) (by decide +kernel) (by decide +kernel) (by decide)
  have h2 : loadRecord.dev.blockOk 0x602000 = true := blockOk_begin (k := 0x602) [] rfl (by decide +kernel) (by decide) (by decide +kernel) (by decide)
  have h3 : loadRecord.dev.blockOk 0x603000 = true := blockOk_begin (k := 0x603) [] rfl (by decide +kernel) (by decide) (by decide +kernel) (by decide)
  simp [h0, h8, h1, h2, h3]

/-- Bytes of HBM below its check region are bytes of memory. -/
theorem physBytes_hbm (d : Dev) (a n : Nat) (h : a + n ≤ hbmCheckBase) : d.physBytes a n = d.bytes a n := by
  unfold Dev.physBytes Dev.bytes
  induction n generalizing a with
  | zero => rfl
  | succ n ih =>
    have hp : d.physByte a = Store.get memDflt d.mem a := by
      have : d.phys a = .hbm := by unfold Dev.phys; rw [if_pos (by omega)]
      simp [Dev.physByte, Dev.checkBlockOf, this]
    rw [List.range_succ_eq_map, List.map_cons, List.map_map, Store.getAll, ← ih (a + 1) (by omega), Nat.add_zero, hp]
    congr 1
    apply List.map_congr_left
    intro i _
    simp [Nat.add_assoc, Nat.add_comm 1 i]

set_option maxRecDepth 20000 in
theorem loadRecord_at {va len : Nat} (hv : ∀ p ∈ pieces va 0 len, (va + p.1) / 0x200000 = 1 ∧ 0x400000 + (va + p.1) ∈ [0x600000, 0x600008, 0x601000, 0x602000, 0x603000]) :
    loadRecord.dev.readable 3 va len ∧ loadRecord.dev.virtBytes 3 va len = (pieces va 0 len).flatMap fun p => loadRecord.dev.physBytes (0x400000 + (va + p.1)) p.2 :=
  selfTable_reads loadRecord_names fun p h => ⟨(hv p h).1, loadRecord_blocks _ (hv p h).2⟩

/-- The list's second word is no count of images. -/
theorem loadRecord_second : 256 < numAt (loadRecord.dev.virtBytes 3 0x200008 8) 0 8 := by
  rw [(loadRecord_at (by decide +kernel)).2]
  decide +kernel

set_option maxRecDepth 20000 in
theorem loadRecord_image : loadRecord.dev.virtBytes 3 0x201000 8512 = imageHead ++ List.replicate 8384 0 := by
  rw [(loadRecord_at (by decide +kernel)).2]
  have hp : pieces 0x201000 0 8512 = [(0, 4096), (4096, 4096), (8192, 320)] := by decide +kernel
  have h1 := bytes_begin (d := loadRecord.dev) (k := 0x601000) (n := 8512) imageHead (by decide +kernel) (by decide +kernel) (by decide +kernel)
  have h2 : (imageHead).length = 128 := by decide +kernel
  rw [h2] at h1
  rw [← h1, hp]
  simp only [List.flatMap_cons, List.flatMap_nil, List.append_nil]
  rw [physBytes_hbm _ _ _ (by decide), physBytes_hbm _ _ _ (by decide), physBytes_hbm _ _ _ (by decide)]
  unfold Dev.bytes
  rw [show 8512 = 4096 + (4096 + 320) from rfl, getAll_add, getAll_add]

/-! SHA-256 of zeros, sixteen blocks at a time. -/

/-- A block of zeros. -/
def zeroBlock : List Byte := List.replicate 64 0

/-- The chaining value after n blocks of zeros. -/
def shaZeros (n : Nat) : List W32 := (List.replicate n zeroBlock).foldl shaBlock sha256H

theorem shaZeros_add (n k : Nat) : shaZeros (n + k) = (List.replicate k zeroBlock).foldl shaBlock (shaZeros n) := by
  unfold shaZeros
  rw [← List.replicate_append_replicate, List.foldl_append]

set_option maxRecDepth 20000 in
theorem shaZeros_16 : shaZeros 16 = [0x93fa7a18, 0xcb520314, 0x08d29f51, 0x10e42be6, 0xfc4a07de, 0x4d0e6502, 0x5156c97d, 0x72e04acf] := by decide +kernel

set_option maxRecDepth 20000 in
theorem shaZeros_32 : shaZeros (16 + 16) = [0xa8be47ba, 0x626eadda, 0x6a3c0989, 0xd0de47e5, 0xd8dece83, 0x4d65ec69, 0x69804a62, 0xda5bea98] :=
  (shaZeros_add 16 16).trans (by rw [shaZeros_16]; decide +kernel)

set_option maxRecDepth 20000 in
theorem shaZeros_48 : shaZeros (32 + 16) = [0xfed9368a, 0x19ea1df9, 0x3598f575, 0xe5e279c1, 0xcda2b07f, 0x7eb74ea4, 0xf2cb8a07, 0xa57e77dd] :=
  (shaZeros_add 32 16).trans (by rw [shaZeros_32]; decide +kernel)

set_option maxRecDepth 20000 in
theorem shaZeros_64 : shaZeros (48 + 16) = [0x94a6fc34, 0x8a0a950d, 0x074bbf21, 0x1cc02c3d, 0x4ec7cba9, 0xd2dc7000, 0x00209369, 0xc35ceef4] :=
  (shaZeros_add 48 16).trans (by rw [shaZeros_48]; decide +kernel)

set_option maxRecDepth 20000 in
theorem shaZeros_80 : shaZeros (64 + 16) = [0xe45aa4dd, 0x67df517d, 0x2eb6f2e9, 0xc9fc000e, 0xbdb2ca4c, 0xb62374db, 0xf1530845, 0x475a3fc0] :=
  (shaZeros_add 64 16).trans (by rw [shaZeros_64]; decide +kernel)

set_option maxRecDepth 20000 in
theorem shaZeros_96 : shaZeros (80 + 16) = [0x7635e8f0, 0x5aa8377d, 0x86e9ab43, 0x43c5123c, 0x355a2d4d, 0xa74b91e8, 0xa70f60cb, 0xb801c891] :=
  (shaZeros_add 80 16).trans (by rw [shaZeros_80]; decide +kernel)

set_option maxRecDepth 20000 in
theorem shaZeros_112 : shaZeros (96 + 16) = [0x40885a58, 0x33a1e622, 0xfa2a3979, 0xd3c08961, 0xb0ad4d65, 0x80c9ee1f, 0x8dd8e0af, 0xc073f95c] :=
  (shaZeros_add 96 16).trans (by rw [shaZeros_96]; decide +kernel)

set_option maxRecDepth 20000 in
theorem shaZeros_128 : shaZeros (112 + 16) = [0xe4fa48c7, 0xe520f92c, 0x47d9567c, 0x0549d8c7, 0xf5c60798, 0x2ed38aeb, 0xfb1b61e3, 0x2816431a] :=
  (shaZeros_add 112 16).trans (by rw [shaZeros_112]; decide +kernel)

/-- The blocks of a message of zeros, and its padding. -/
theorem sha256_zeros (n : Nat) (last : List Byte) (r : List W32) (hm : chunks 64 (n + 1) (List.replicate (64 * n) (0 : Byte) ++ last) = List.replicate n zeroBlock ++ [last])
    (hl : ([0x80#8] ++ List.replicate 55 0#8 ++ (leBytes 8 (8 * (64 * n))).reverse) = last) (hr : shaBlock (shaZeros n) last = r) :
    sha256 (List.replicate (64 * n) 0) = r.flatMap fun w => (leBytes 4 w.toNat).reverse := by
  have hp : (119 - 64 * n % 64) % 64 = 55 := by omega
  have h64 : last.length = 64 := by rw [← hl]; simp [leBytes]
  unfold sha256
  simp only [List.length_replicate, hp, List.append_assoc]
  simp only [List.append_assoc] at hl
  rw [hl]
  have hk : (List.replicate (64 * n) (0 : Byte) ++ last).length / 64 = n + 1 := by
    rw [List.length_append, List.length_replicate, h64]; omega
  rw [hk, hm, List.foldl_append]
  show (shaBlock (shaZeros n) last).flatMap _ = _
  rw [hr]

set_option maxRecDepth 20000 in
theorem sha256_zeros_4096 : sha256 (List.replicate 4096 0) = [173, 127, 172, 178, 88, 111, 198, 233, 102, 192, 4, 215, 209, 209, 107, 2, 79, 88, 5, 255, 124, 180, 124, 122, 133, 218, 189, 139, 72, 137, 44, 167] :=
  (sha256_zeros 64 ([0x80#8] ++ List.replicate 55 0#8 ++ (leBytes 8 (8 * (64 * 64))).reverse) [0xad7facb2, 0x586fc6e9, 0x66c004d7, 0xd1d16b02, 0x4f5805ff, 0x7cb47c7a, 0x85dabd8b, 0x48892ca7] (by decide +kernel) rfl
    (by rw [shaZeros_64]; decide +kernel)).trans (by decide +kernel)

set_option maxRecDepth 20000 in
theorem sha256_zeros_8384 : sha256 (List.replicate 8384 0) = [117, 70, 208, 155, 6, 161, 74, 41, 222, 12, 152, 139, 137, 47, 99, 91, 238, 174, 161, 191, 244, 169, 206, 76, 236, 2, 248, 231, 50, 35, 173, 193] :=
  (sha256_zeros 131 ([0x80#8] ++ List.replicate 55 0#8 ++ (leBytes 8 (8 * (64 * 131))).reverse) [0x7546d09b, 0x06a14a29, 0xde0c988b, 0x892f635b, 0xeeaea1bf, 0xf4a9ce4c, 0xec02f8e7, 0x3223adc1] (by decide +kernel) rfl
    (by rw [shaZeros_add 128 3, shaZeros_128]; decide +kernel)).trans (by decide +kernel)

set_option maxRecDepth 20000 in
theorem imageHead_parses : parseImage (imageHead ++ List.replicate 8384 0) = (stOK, ⟨true, 0, 1, 0, 8384, 0, 8, 0, 64, 0⟩) := by
  have hl : imageHead.length = 128 := by decide +kernel
  have hb : ((imageHead ++ List.replicate 8384 0).drop 128).take (numAt (imageHead ++ List.replicate 8384 0) 20 4) = List.replicate 8384 (0 : Byte) := by
    rw [show numAt (imageHead ++ List.replicate 8384 0) 20 4 = 8384 from by decide +kernel, ← hl, List.drop_left]
    exact List.take_of_length_le (Nat.le_of_eq List.length_replicate)
  unfold parseImage
  simp only [hb, sha256_zeros_8384]
  decide +kernel

/-- A shard of one block of zeros is whole. -/
theorem shardWhole_zeros {d : Dev} {e : MEnt} (hb : d.physBytes e.loc (e.len * 4096) = List.replicate 4096 0)
    (hs : (d.storedOk e.loc e.len && (List.range e.len).all fun b => d.blockOk (e.loc + 4096 * b)) = true) (hd : sha256 (List.replicate 4096 0) = e.sha) :
    d.shardWhole e = true := by
  unfold Dev.shardWhole digest
  rw [hb, hs, hd]
  simp


/-! ## Commands that cannot arrive -/

theorem test_ring_frame_too_short : (Instr.ringFrameForward (List.replicate 19 0)).wellFormed = false := by decide
theorem test_ring_frame_too_long : (Instr.ringFrameForward (List.replicate 1045 0)).wellFormed = false := by decide +kernel
theorem test_ring_frame_fits : (Instr.ringFrameForward (List.replicate 20 0)).wellFormed = true := by decide
theorem test_flit_size : (Instr.flitReceive 0 0 (List.replicate 255 0)).wellFormed = false ∧
    (Instr.flitReceive 0 0 (List.replicate 256 0)).wellFormed = true := by decide +kernel
theorem test_datagram_too_long : (Instr.openReq eth (List.replicate 65508 0)).wellFormed = false := by
  show decide ((List.replicate 65508 (0 : Byte)).length ≤ 65507) = false
  rw [List.length_replicate]
  decide
theorem test_dimm_slots : (Instr.ozPwrokRise 0 0 true 0 [none]).wellFormed = false := by decide
theorem test_dimm_temperatures : (Instr.dimmTempRead [0]).wellFormed = false := by decide
theorem test_contribution_too_long : (Instr.contributionReceive 0 0 0 0 0 (List.replicate 4097 0)).wellFormed = false := by
  show decide ((List.replicate 4097 (0 : Byte)).length ≤ 4096) = false
  rw [List.length_replicate]
  decide
theorem test_notice_too_long : (Instr.courseOpen (nm 1 (List.replicate 4097 0))).wellFormed = false := by
  show decide ((List.replicate 4097 (0 : Byte)).length ≤ 4096) = false
  rw [List.length_replicate]
  decide

/-! ## The numbers of SHA-256 (FIPS 180-4): fractions of roots of primes -/

/-- The primes below 312, of which there are 64. -/
def primes : List Nat := (List.range 312).filter fun n => decide (2 ≤ n) && (List.range 18).all fun i => decide (i < 2) || decide (n ≤ i) || decide (n % i ≠ 0)

theorem test_sha_cube_roots : primes.length = 64 ∧ (primes.zipIdx.all fun e => (List.range 7).any fun k =>
    let x := k * 2 ^ 32 + (packedWord 64 shaCubeRoots e.2).toNat
    decide (x ^ 3 ≤ e.1 * 2 ^ 96) && decide (e.1 * 2 ^ 96 < (x + 1) ^ 3)) = true := by decide +kernel
theorem test_sha_square_roots : ((primes.take 8).zipIdx.all fun e => (List.range 5).any fun k =>
    let x := k * 2 ^ 32 + (packedWord 8 shaSquareRoots e.2).toNat
    decide (x ^ 2 ≤ e.1 * 2 ^ 64) && decide (e.1 * 2 ^ 64 < (x + 1) ^ 2)) = true := by decide +kernel

/-! ## The statements' hypotheses are met -/

set_option maxRecDepth 20000

theorem witness_HoldsBeginAndEndAGlobalHalt :
    (∃ (v : W64) (s : State), s.dev.up = true ∧ s.dev.haltable ∧ TAL_HALT_REQ.of v = 1 ∧ TAL_HALT_REL.of v = 0) ∧
    (∃ (s : State), s.dev.power.pwrok = true ∧ s.dev.haltable) ∧
    (∃ (s : State), s.dev.power.pwrok = true ∧ s.dev.haltable) ∧
    (∃ (v : W64) (s : State), s.dev.up = true ∧ TAL_HALT_REL.of v = 1 ∧ TAL_HALT_REQ.of v = 0 ∧ (s.dev.on TAL_HALT_PIN = true ∨ s.dev.on TAL_HALT_JTAG = true) ∧ s.dev.halted = true) ∧
    (∃ (s : State), s.dev.power.pwrok = true ∧ (s.dev.on TAL_HALT_CMD = true ∨ s.dev.on TAL_HALT_JTAG = true ∨ s.dev.on TAL_HALT_TRIG = true) ∧ s.dev.halted = true) ∧
    (∃ (s : State), s.dev.power.pwrok = true ∧ s.dev.halted = true ∧ s.dev.on TAL_HALT_JTAG = true ∧ (s.dev.on TAL_HALT_CMD = true ∨ s.dev.on TAL_HALT_PIN = true ∨ s.dev.on TAL_HALT_TRIG = true)) := ⟨
  ⟨w [(TAL_HALT_REQ, 1)], st [], by decide +kernel⟩,
  ⟨st [], by decide +kernel⟩,
  ⟨st [], by decide +kernel⟩,
  ⟨w [(TAL_HALT_REL, 1)], st [put TAL_HALT_PIN 1, put TAL_HALT_HALTED 1], by decide +kernel⟩,
  ⟨st [put TAL_HALT_CMD 1, put TAL_HALT_PIN 1, put TAL_HALT_HALTED 1], by decide +kernel⟩,
  ⟨st [put TAL_HALT_PIN 1, put TAL_HALT_JTAG 1, put TAL_HALT_HALTED 1], by decide +kernel⟩⟩

theorem witness_TalliesAndRecordsAreKept :
    (∃ (s : State), s.dev.up = true ∧ s.dev.sampling = true ∧ s.dev.obs.disciplined = true) ∧
    (∃ (v : W64) (s : State), s.dev.up = true ∧ DST_CTRL_NOTE.of v = 1 ∧ s.dev.get DST_STAT_QUEUE < 1024 ∧ s.dev.obs.rateCount < max 1 (s.dev.get DST_CFG_RATE)) ∧
    (∃ (v : W64) (s : State), s.dev.up = true ∧ DST_CTRL_NOTE.of v = 1 ∧ 1024 ≤ s.dev.get DST_STAT_QUEUE) ∧
    (∃ (s : State), s.dev.up = true ∧ s.dev.obs.notMade ≠ 0) ∧
    (∃ (s : State), s.dev.power.pwrok = true) := ⟨
  ⟨st [put TAL_CFG_INTERVAL_US 100, modObs fun o => { o with disciplined := true }], by decide +kernel⟩,
  ⟨w [(DST_CTRL_NOTE, 1)], st [], by decide +kernel⟩,
  ⟨w [(DST_CTRL_NOTE, 1)], st [put DST_STAT_QUEUE 1024], by decide +kernel⟩,
  ⟨st [modObs fun o => { o with notMade := 3, notMadeTypes := 6 }], by decide +kernel⟩,
  ⟨st [], by decide +kernel⟩⟩

theorem witness_TriggersArmAndFire :
    (∃ (n : Fin 8) (v : W64) (s : State), s.dev.up = true ∧ (TAL_TRIG_A_ARMED n.val).of v = 1 ∧ (TAL_TRIG_A_KIND n.val).of v < 5 ∧ ((TAL_TRIG_A_KIND n.val).of v = 2 → eventRegs.contains ((TAL_TRIG_A_ADDR n.val).of v) = true) ∧ ((TAL_TRIG_A_KIND n.val).of v = 4 → 1 ≤ (TAL_TRIG_A_INDEX n.val).of v ∧ (TAL_TRIG_A_INDEX n.val).of v ≤ 9)) ∧
    (∃ (n : Fin 8) (v : W64) (s : State), s.dev.up = true ∧ (TAL_TRIG_A_ARMED n.val).of v = 1 ∧ 5 ≤ (TAL_TRIG_A_KIND n.val).of v) ∧
    (∃ (n : Fin 8) (s : State), s.dev.up = true ∧ s.dev.haltable ∧ s.dev.on (TAL_TRIG_A_ARMED n.val) = true ∧ s.dev.trigHolds n.val = true) := ⟨
  ⟨5, w [(TAL_TRIG_A_ARMED 5, 1), (TAL_TRIG_A_KIND 5, 4), (TAL_TRIG_A_INDEX 5, 9)], st [], by decide +kernel⟩,
  ⟨7, w [(TAL_TRIG_A_ARMED 7, 1), (TAL_TRIG_A_KIND 7, 5)], st [], by decide +kernel⟩,
  ⟨2, st [put (TAL_TRIG_A_ARMED 2) 1, put (TAL_TRIG_A_KIND 2) 3], by decide +kernel⟩⟩

theorem witness_TestAccessPortShiftsOut :
    (∃ (s : State), s.dev.power.pwrok = true) ∧
    (∃ (din : List Bool) (s : State), s.dev.power.pwrok = true) ∧
    (∃ (din : List Bool) (s : State), s.dev.power.pwrok = true) ∧
    (∃ (din : List Bool) (s : State), s.dev.power.pwrok = true ∧ din ≠ []) ∧
    (∃ (v : BitVec 48) (s : State), s.dev.power.pwrok = true ∧ s.dev.halted = true) ∧
    (∃ (v : BitVec 48) (s : State), s.dev.power.pwrok = true ∧ s.dev.halted = false) ∧
    (∃ (n : Nat) (len : Nat) (s : State), s.dev.power.pwrok = true ∧ s.dev.halted = true ∧ chainLen s.dev.obs.scanChain = some len ∧ 64 * s.dev.obs.scanOffset + n ≤ len ∧ n ≠ 0) ∧
    (∃ (n : Nat) (s : State), s.dev.power.pwrok = true ∧ s.dev.halted = false) := ⟨
  ⟨st [], by decide +kernel⟩,
  ⟨[true, false], st [], by decide +kernel⟩,
  ⟨[true, false, true], st [], by decide +kernel⟩,
  ⟨[true], st [], by decide +kernel⟩,
  ⟨0x141, st [put TAL_HALT_HALTED 1], by decide +kernel⟩,
  ⟨0x141, st [], by decide +kernel⟩,
  ⟨64, 262144, st [put TAL_HALT_HALTED 1, modObs fun o => { o with scanChain := 0x141, scanOffset := 2 }], by decide +kernel⟩,
  ⟨3, st [], by decide +kernel⟩⟩

theorem witness_ThermalManagerStepsTheDivider :
    (∃ (hot : BitVec 16) (sensor : BitVec 6) (hbm : BitVec 16) (watts : BitVec 16) (s : State), s.dev.power.pwrok = true ∧ s.dev.power.tripped = false ∧ s.dev.epoch = 0 ∧ s.dev.mode.role ≠ .banked ∧ hot.toInt < s.dev.throttleC ∧ hbm.toInt < s.dev.hbmC ∧ watts.toNat < s.dev.limitW) ∧
    (∃ (hot : BitVec 16) (sensor : BitVec 6) (hbm : BitVec 16) (watts : BitVec 16) (s : State), s.dev.power.pwrok = true ∧ s.dev.power.tripped = false ∧ s.dev.epoch = 0 ∧ s.dev.mode.role ≠ .banked ∧ s.dev.throttleC ≤ hot.toInt ∧ hot.toInt < 1150 ∧ hbm.toInt < 1050 ∧ s.dev.get CLK_STAT_DIV < 8 ∧ s.dev.power.therm.lastDown = none) ∧
    (∃ (hot : BitVec 16) (sensor : BitVec 6) (hbm : BitVec 16) (watts : BitVec 16) (s : State), s.dev.power.pwrok = true ∧ s.dev.power.tripped = false ∧ (1150 ≤ hot.toInt ∨ 1050 ≤ hbm.toInt)) ∧
    (∃ (s : State), s.dev.power.pwrok = true ∧ s.dev.power.tripped = false ∧ s.dev.mode.role ≠ .banked ∧ s.dev.divMin < s.dev.get CLK_STAT_DIV ∧ (∃ t, s.dev.power.therm.upSince = some t ∧ t + s.dev.power.therm.upWait * tick100 ≤ s.dev.clk)) ∧
    (∃ (v : W64) (s : State), s.dev.up = true ∧ s.dev.get CLK_STAT_DIV < min 8 (max 4 (CLK_TCFG_DIV_MIN.of v))) := ⟨
  ⟨500, 3, 400, 1000, st [], by decide +kernel⟩,
  ⟨1100, 3, 400, 1000, st [], by decide +kernel⟩,
  ⟨1150, 3, 400, 1000, st [], by decide +kernel⟩,
  ⟨st [put CLK_STAT_DIV 6, modPower fun p => { p with therm := { p.therm with upSince := some 0 } }, .act (.clk 100000000)], by decide +kernel, by decide +kernel, by decide +kernel, by decide +kernel, ⟨0, by decide +kernel, by decide +kernel⟩⟩,
  ⟨w [(CLK_TCFG_DIV_MIN, 6)], st [], by decide +kernel⟩⟩

theorem witness_CriticalHeatAndClocks :
    (∃ (s : State), s.dev.up = true ∧ s.dev.power.therm.crit = false ∧ s.dev.get CLK_STAT_DIV = 8 ∧ (∃ t, s.dev.power.therm.critSince = some t ∧ t + 10 * tickMs ≤ s.dev.clk)) ∧
    (∃ (s : State), s.dev.up = true ∧ (s.dev.power.therm.crit = true ∨ s.dev.get CLK_STAT_DIV ≠ 8 ∨ s.dev.power.therm.critSince = none)) ∧
    (∃ (s : State), s.dev.up = true ∧ s.dev.power.therm.crit = true ∧ (∃ t, s.dev.power.therm.coolSince = some t ∧ t + 700000000 ≤ s.dev.clk)) ∧
    (∃ (s : State), s.dev.runs ∧ s.dev.power.therm.crit = true ∧ (∃ t, s.dev.power.therm.coolSince = some t ∧ t + 700000000 ≤ s.dev.clk) ∧ (∀ n, n < 256 → (s.dev.tile n).critStop = true → (s.dev.tile n).state = tSTOPPED ∧ (s.dev.tile n).idleQueues ∧ (s.dev.tile n).get TLE_PROG_COUNT ≠ 0 ∧ (s.dev.tile n).on TLE_CTRL_STOP = false)) ∧
    (∃ (s : State), s.dev.up = true ∧ (s.dev.power.therm.crit = false ∨ s.dev.power.therm.coolSince = none)) ∧
    (∃ (s : State), s.dev.up = true ∧ s.dev.power.ref = true) ∧
    (∃ (c : Nat) (s : State), s.dev.up = true ∧ s.dev.power.ref = true ∧ s.dev.rst.active = [] ∧ s.dev.mode.role ≠ .banked ∧ c < 64 ∧ s.dev.on (DMA_CTRL_EN c) = true) ∧
    (∃ (s : State), s.dev.up = false) ∧
    (∃ (s : State), s.dev.power.pwrok = true ∧ s.dev.power.ref = false) ∧
    (∃ (s : State), s.dev.power.pwrok = true ∧ s.dev.power.ref = true) ∧
    (∃ (temps : List (BitVec 16)) (s : State), s.dev.up = true ∧ (∃ c, c < 24 ∧ c < temps.length ∧ s.dev.get (MEM_DDR_CH_STATE c) = 1)) ∧
    (∃ (temps : List (BitVec 16)) (c : Nat) (x : BitVec 16) (s : State), s.dev.up = true ∧ c < 24 ∧ s.dev.get (MEM_DDR_CH_STATE c) = 1 ∧ temps[c]? = some x) ∧
    (∃ (temps : List (BitVec 16)) (s : State), s.dev.up = true ∧ (∀ c, c < 24 → c < temps.length → s.dev.get (MEM_DDR_CH_STATE c) ≠ 1)) := ⟨
  ⟨st [put CLK_STAT_DIV 8, modPower fun p => { p with therm := { p.therm with critSince := some 0 } }, .act (.clk 100000000)], by decide +kernel, by decide +kernel, by decide +kernel, ⟨0, by decide +kernel, by decide +kernel⟩⟩,
  ⟨st [], by decide +kernel⟩,
  ⟨st [modPower fun p => { p with therm := { p.therm with crit := true, coolSince := some 0 } }, .act (.clk 700000000)], by decide +kernel, by decide +kernel, ⟨0, by decide +kernel, by decide +kernel⟩⟩,
  ⟨st [modPower fun p => { p with therm := { p.therm with crit := true, coolSince := some 0 } }, .act (.clk 700000000), modTile 1 fun t => { (t.set TLE_STAT_STATE tSTOPPED).set TLE_PROG_COUNT 1 with critStop := true }], by decide +kernel, by decide +kernel, ⟨0, by decide +kernel, by decide +kernel⟩, by decide +kernel⟩,
  ⟨st [], by decide +kernel⟩,
  ⟨st [], by decide +kernel⟩,
  ⟨3, st [put (DMA_CTRL_EN 3) 1], by decide +kernel⟩,
  ⟨st [modPower fun p => { p with pwrok := false }], by decide +kernel⟩,
  ⟨st [modPower fun p => { p with ref := false }], by decide +kernel⟩,
  ⟨st [], by decide +kernel⟩,
  ⟨List.replicate 24 960, st [put (MEM_DDR_CH_STATE 3) 1], by decide +kernel, ⟨3, by decide +kernel⟩⟩,
  ⟨List.replicate 24 860, 3, 860, st [put (MEM_DDR_CH_STATE 3) 1], by decide +kernel⟩,
  ⟨[860], st [], by decide +kernel⟩⟩

theorem witness_WaitingTriggersAndTheSecurityClock :
    (∃ (c : Instr) (n : Nat) (rest : List Trigger) (s : State), s.dev.up = true ∧ s.dev.mode.transit = none ∧ s.dev.mode.waiting = .host c n :: rest ∧ (∀ t ∈ rest, ∃ c' k, t = .host c' k) ∧ s.dev.mode.legal = true ∧ s.dev.hNumber (n % 16) = n) ∧
    (∃ (c : Instr) (n : Nat) (rest : List Trigger) (s : State), s.dev.up = true ∧ s.dev.mode.transit = none ∧ s.dev.mode.waiting = .host c n :: rest ∧ (∀ t ∈ rest, ∃ c' k, t = .host c' k) ∧ s.dev.mode.legal = true ∧ s.dev.hNumber (n % 16) ≠ n) ∧
    (∃ (p : Proposal) (s : State), s.dev.up = true ∧ s.dev.sec.pending = some p ∧ p.since + proposalTicks ≤ s.dev.clk) ∧
    (∃ (s : State), s.dev.up = true ∧ s.dev.sec.wkMaking = true ∧ s.dev.identityLeft = true) := ⟨
  ⟨.lifeSave, 19, [], st [modHost 3 fun h => { h with opens := 1 }, modMode fun m => { m with waiting := [.host .lifeSave 19] }], by decide +kernel, by decide +kernel, by decide +kernel, (fun _ h => nomatch h), by decide +kernel, by decide +kernel⟩,
  ⟨.lifeSave, 19, [], st [modHost 3 fun h => { h with opens := 2 }, modMode fun m => { m with waiting := [.host .lifeSave 19] }], by decide +kernel, by decide +kernel, by decide +kernel, (fun _ h => nomatch h), by decide +kernel, by decide +kernel⟩,
  ⟨⟨[], [], 1, 0⟩, st [modSec fun x => { x with pending := some ⟨[], [], 1, 0⟩ }, .act (.clk proposalTicks)], by decide +kernel⟩,
  ⟨st [modSec fun x => { x with wkMaking := true }], by decide +kernel⟩⟩

theorem witness_ResetsOrderedByRegister :
    (∃ (v : W64) (s : State), s.dev.up = true ∧ s.dev.resetsRest ∧ RST_CTRL_GO.of v = 1 ∧ RST_CTRL_RUNG.of v = 1 ∧ (RST_CTRL_UNIT.of v ∈ [0x81, 0x84, 0x85] ∨ (RST_CTRL_UNIT.of v = 0x80 ∧ s.dev.inCourse = false) ∨ (RST_CTRL_UNIT.of v = 0x82 ∧ s.dev.slotsIn sSHORED = [] ∧ s.dev.slotsIn sREINT = []))) ∧
    (∃ (v : W64) (s : State), s.dev.up = true ∧ RST_CTRL_GO.of v = 1 ∧ RST_CTRL_UNIT.of v ∈ [0x81, 0x90, 0xFF] ∧ RST_CTRL_RUNG.of v = 0) ∧
    (∃ (v : W64) (s : State), s.dev.up = true ∧ RST_CTRL_GO.of v = 1 ∧ RST_CTRL_UNIT.of v = 0xA9 ∧ RST_CTRL_RUNG.of v = 4 ∧ s.dev.on SEC_POLICY_TRAY_E4 = false) ∧
    (∃ (v : W64) (n : Nat) (s : State), s.dev.up = true ∧ n < 8 ∧ RST_CTRL_GO.of v = 1 ∧ RST_CTRL_UNIT.of v = uSlot n ∧ RST_CTRL_RUNG.of v = 4 ∧ s.dev.on SEC_POLICY_SLOT_E4 = true ∧ s.dev.slotPos n ≠ noPos) ∧
    (∃ (v : W64) (s : State), s.dev.up = true ∧ (∀ n, n < 8 → bitOf (s.dev.get RST_PWR_EN) n = true → bitOf (RST_PWR_EN.of v) n = false → s.dev.slotPos n = noPos)) ∧
    (∃ (v : W64) (s : State), s.dev.up = true ∧ (∃ n, n < 8 ∧ bitOf (s.dev.get RST_PWR_EN) n = true ∧ bitOf (RST_PWR_EN.of v) n = false ∧ s.dev.slotPos n ≠ noPos)) ∧
    (∃ (v : W64) (s : State), s.dev.up = true ∧ RST_QCLR_SLOT.of v ≠ 0 ∧ RST_QCLR_XCN.of v = 0 ∧ (∀ n, n < 8 → bitOf (RST_QCLR_SLOT.of v) n = true → uSlot n ∈ s.dev.rst.out → s.dev.slotPos n = noPos)) ∧
    (∃ (v : W64) (n : Nat) (s : State), s.dev.up = true ∧ n < 8 ∧ bitOf (RST_QCLR_SLOT.of v) n = true ∧ uSlot n ∈ s.dev.rst.out ∧ s.dev.slotPos n ≠ noPos) ∧
    (∃ (v : W64) (s : State), s.dev.up = true ∧ RST_QCLR_SLOT.of v = 0 ∧ RST_QCLR_XCN.of v = 1 ∧ uXCN ∈ s.dev.rst.out ∧ s.dev.e4Ok uXCN = true) ∧
    (∃ (v : W64) (s : State), s.dev.up = true ∧ RST_QCLR_XCN.of v = 1 ∧ uXCN ∈ s.dev.rst.out ∧ s.dev.e4Ok uXCN = false) ∧
    (∃ (v : W64) (s : State), s.dev.up = true) := ⟨
  ⟨w [(RST_CTRL_GO, 1), (RST_CTRL_RUNG, 1), (RST_CTRL_UNIT, 0x84)], st [], by decide +kernel⟩,
  ⟨w [(RST_CTRL_GO, 1), (RST_CTRL_UNIT, 0x90)], st [], by decide +kernel⟩,
  ⟨w [(RST_CTRL_GO, 1), (RST_CTRL_RUNG, 4), (RST_CTRL_UNIT, 0xA9)], st [put SEC_POLICY_TRAY_E4 0], by decide +kernel⟩,
  ⟨w [(RST_CTRL_GO, 1), (RST_CTRL_RUNG, 4), (RST_CTRL_UNIT, 0xA1)], 1, st [put SEC_POLICY_SLOT_E4 1, put (HUB_SLOT_POSITION 1) 4], by decide +kernel⟩,
  ⟨w [(RST_PWR_EN, 5)], st [modRst fun r => { r with out := [uSlot 2] }], by decide +kernel⟩,
  ⟨0, st [put RST_PWR_EN 3, put (HUB_SLOT_POSITION 1) 4], by decide +kernel⟩,
  ⟨w [(RST_QCLR_SLOT, 8)], st [modRst fun r => { r with out := [uSlot 3], counts := [(uSlot 3, 2, 0)] }], by decide +kernel⟩,
  ⟨w [(RST_QCLR_SLOT, 8)], 3, st [modRst fun r => { r with out := [uSlot 3] }, put (HUB_SLOT_POSITION 3) 4], by decide +kernel⟩,
  ⟨w [(RST_QCLR_XCN, 1)], st [modRst fun r => { r with out := [uXCN], counts := [(uXCN, 2, 0)] }], by decide +kernel⟩,
  ⟨w [(RST_QCLR_XCN, 1)], st [modRst fun r => { r with out := [uXCN] }, put XCN_DETOUR_ACTIVE 1], by decide +kernel⟩,
  ⟨1, st [], by decide +kernel⟩⟩

theorem witness_WatchdogsAndResetTimers :
    (∃ (s : State), s.dev.up = true ∧ s.dev.rst.fencing ≠ 0 ∧ s.dev.mode.legal = true) ∧
    (∃ (u : Byte) (n : Nat) (r : Reset) (s : State), s.dev.up = true ∧ n < 64 ∧ u.toNat = 0x40 + n ∧ s.dev.rst.active = [r] ∧ r.unit = 0x40 + n ∧ r.rung = 1) ∧
    (∃ (u : Byte) (r : Reset) (s : State), s.dev.up = true ∧ u.toNat = uTRAY ∧ s.dev.rst.active = [r] ∧ r.unit = uTRAY ∧ r.rung = 4 ∧ s.dev.rst.out = []) ∧
    (∃ (t : TileId) (x : Nat) (s : State), s.dev.up = true ∧ s.dev.resetsRest ∧ 3 ≤ x ∧ x < 64 ∧ s.dev.tctx t.val = x ∧ (s.dev.tile t.val).state = tRUNNING ∧ (s.dev.tile t.val).owner ≠ oNONE ∧ (s.dev.tile t.val).busyQueue = true ∧ s.dev.get RST_WDOG_TILE_MS ≠ 0 ∧ s.dev.get RST_CFG_DRAIN_US ≠ 0 ∧ s.dev.atLimit x 0 = false) ∧
    (∃ (r : Requester) (f : QFault) (t : TileId) (s : State), s.dev.up = true ∧ s.dev.resetsRest ∧ s.dev.mmu.faults = [f] ∧ f.req = r ∧ 3 ≤ f.ctx ∧ f.ctx < 64 ∧ s.dev.tctx t.val = f.ctx ∧ (s.dev.tile t.val).state = tRUNNING ∧ (s.dev.tile t.val).owner ≠ oNONE ∧ s.dev.get RST_WDOG_FAULT_MS ≠ 0 ∧ s.dev.get RST_CFG_DRAIN_US ≠ 0 ∧ s.dev.atLimit f.ctx 0 = false) ∧
    (∃ (n : ChanId) (s : State), s.dev.up = true ∧ s.dev.resetsRest ∧ s.dev.on (DMA_STAT_BUSY n.val) = true ∧ s.dev.on (DMA_CTRL_EN n.val) = true ∧ (s.dev.chan n.val).started = true ∧ (s.dev.chan n.val).held = false ∧ s.dev.get RST_CFG_DRAIN_US ≠ 0 ∧ s.dev.atLimit (0x40 + n.val) 1 = false) ∧
    (∃ (t : TileId) (s : State), s.dev.up = true ∧ s.dev.resetsRest ∧ (s.dev.tile t.val).state = tRUNNING ∧ (s.dev.tile t.val).on TLE_CTRL_STOP = true ∧ s.dev.shore.slot = none ∧ s.dev.wit.sel = [] ∧ s.dev.atLimit (uDie (t.val / 64)) 2 = false) ∧
    (∃ (core : Fin 8) (n : Nat) (s : State), s.dev.up = true ∧ s.dev.mode.fw = .run ∧ s.dev.mode.role ≠ .banked ∧ s.dev.rst.active = [] ∧ n < 64 ∧ s.dev.on (DMA_CTRL_EN n) = true ∧ s.dev.atLimit uCHIP 3 = false) ∧
    (∃ (n : ChanId) (s : State), s.dev.up = true ∧ s.dev.on (DMA_CTRL_STOP n.val) = true ∧ s.dev.rst.active = [] ∧ s.dev.rst.fencing = 0 ∧ s.dev.mmu.reclaim ≠ .freezing ∧ s.dev.mode.transit ≠ some .banked) ∧
    (∃ (t : TileId) (s : State), s.dev.up = true ∧ s.dev.halted = false ∧ (s.dev.tile t.val).state = tRUNNING ∧ (s.dev.tile t.val).on TLE_CTRL_STOP = true ∧ (s.dev.tile t.val).passes = [] ∧ (s.dev.tile t.val).moves = [] ∧ (s.dev.tile t.val).descs = [] ∧ (s.dev.tile t.val).faulting = false ∧ (s.dev.tile t.val).critStop = false ∧ s.dev.rst.active = [] ∧ s.dev.rst.fencing = 0 ∧ s.dev.mmu.reclaim ≠ .freezing ∧ s.dev.mode.transit ≠ some .banked) ∧
    (∃ (x : Role) (s : State), s.dev.up = true ∧ s.dev.mode.role = .banked ∧ s.dev.mode.transit = some x ∧ s.dev.mode.bankedTiles = [] ∧ s.dev.rst.waiting = [] ∧ s.dev.held = false ∧ s.dev.mode.bankedFrom = .guest ∧ s.dev.mode.bankedGuest = true ∧ s.dev.mode.legal = true) := ⟨
  ⟨st [modRst fun r => { r with fencing := 1 }], by decide +kernel⟩,
  ⟨0x43, 3, ⟨0x43, 1, 1, false⟩, st [modRst fun r => { r with active := [⟨0x43, 1, 1, false⟩] }], by decide +kernel⟩,
  ⟨BitVec.ofNat 8 uTRAY, ⟨uTRAY, 4, 1, false⟩, st [modRst fun r => { r with active := [⟨uTRAY, 4, 1, false⟩] }], by decide +kernel⟩,
  ⟨9, 5, st [put (tctxFld 9) 5, put RST_WDOG_TILE_MS 10, put RST_CFG_DRAIN_US 10, modTile 9 fun t => { (t.set TLE_STAT_STATE tRUNNING).set TLE_CTRL_OWNER oGUEST with vx := [{ op := .vxMov, w0 := 0, w1 := 0, off := 0 }] }], by decide +kernel⟩,
  ⟨.chan 1, ⟨some 0, .chan 1, 0, 2, false, 5⟩, 9, st [put (tctxFld 9) 5, put RST_WDOG_FAULT_MS 10, put RST_CFG_DRAIN_US 10, modTile 9 fun t => (t.set TLE_STAT_STATE tRUNNING).set TLE_CTRL_OWNER oGUEST, modMmu fun m => { m with faults := [⟨some 0, .chan 1, 0, 2, false, 5⟩] }], by decide +kernel⟩,
  ⟨7, st [put (DMA_STAT_BUSY 7) 1, put (DMA_CTRL_EN 7) 1, put RST_CFG_DRAIN_US 10, modChan 7 fun c => { c with started := true }], by decide +kernel⟩,
  ⟨70, st [modTile 70 fun t => (t.set TLE_STAT_STATE tRUNNING).set TLE_CTRL_STOP 1], by decide +kernel⟩,
  ⟨2, 5, st [put (DMA_CTRL_EN 5) 1], by decide +kernel⟩,
  ⟨5, st [put (DMA_CTRL_EN 5) 1, put (DMA_CTRL_STOP 5) 1], by decide +kernel⟩,
  ⟨70, st [modTile 70 fun t => (t.set TLE_STAT_STATE tRUNNING).set TLE_CTRL_STOP 1], by decide +kernel⟩,
  ⟨.guest, st [.act (.mode { role := .banked, fw := .run, transit := some .guest, bankedFrom := .guest, bankedGuest := true })], by decide +kernel⟩⟩

theorem witness_PowerBootAndSelfTest :
    (∃ (rack : BitVec 16) (tray : BitVec 4) (enrolN : Bool) (hbm : W32) (dimms : List (Option Dimm)) (s : State), s.dev.power.pwrok = false ∧ rack.toNat ≠ 0xFFFF) ∧
    (∃ (s : State), s.dev.power.pwrok = true ∧ s.dev.lastRole ≠ Role.quarantine.code) ∧
    (∃ (s : State), s.dev.up = true ∧ s.dev.mode.fw = .boot ∧ s.dev.mode.legal = true ∧ s.dev.on SEC_STAT_WK_READY = true ∧ s.dev.rst.afterE3 = false ∧ s.dev.sec.flash = some [] ∧ s.dev.mode.role = .service) ∧
    (∃ (img : List Byte) (s : State), s.dev.up = true ∧ s.dev.mode.fw = .boot ∧ s.dev.mode.legal = true ∧ s.dev.on SEC_STAT_WK_READY = true ∧ s.dev.rst.afterE3 = false ∧ s.dev.sec.flash = some img) ∧
    (∃ (f : List Byte) (s : State), s.dev.up = true ∧ frameOk f = true ∧ s.dev.forMe f = true ∧ fType f = 4 ∧ fSrc f = s.dev.partnerAddr ∧ 16 ≤ (fData f).length ∧ numAt (fData f) 0 1 = 3 ∧ s.dev.mode.fw = .recovery ∧ s.dev.sec.asking = true) ∧
    (∃ (s : State), s.dev.up = true ∧ s.dev.mode.fw = .recovery ∧ s.dev.sec.asking = true) ∧
    (∃ (s : State), s.dev.up = true ∧ s.dev.mode.fw = .run ∧ s.dev.rst.verifying = true ∧ s.dev.lastHeld = none) ∧
    (∃ (s : State), s.dev.up = true ∧ s.dev.mode.fw = .run ∧ s.dev.mode.legal = true ∧ s.dev.mode.testing = false ∧ s.dev.on HUB_POST_DONE = false) ∧
    (∃ (v : W64) (s : State), s.dev.up = true ∧ s.dev.mode.fw = .run ∧ s.dev.mode.legal = true ∧ HUB_POST_GO.of v = 1 ∧ s.dev.mode.role ∈ [.service, .quarantine] ∧ s.dev.mode.testing = false ∧ (∀ n, n < 256 → (s.dev.tile n).owner ≠ oSERVICE)) ∧
    (∃ (v : W64) (s : State), s.dev.up = true ∧ HUB_POST_GO.of v = 1 ∧ (s.dev.mode.testing = true ∨ s.dev.mode.role = .watch ∨ s.dev.mode.role = .shore ∨ s.dev.mode.role = .guest ∨ s.dev.mode.role = .banked ∨ ∃ n, n < 256 ∧ (s.dev.tile n).owner = oSERVICE)) ∧
    (∃ (code : Fin 9) (s : State), s.dev.up = true ∧ s.dev.mode.testing = true ∧ s.dev.mode.legal = true ∧ s.dev.get MEM_HBM_STAT_UP = 2 ^ 32 - 1) := ⟨
  ⟨3, 5, true, 0xFF, List.replicate 24 none, ⟨{}, []⟩, by decide +kernel⟩,
  ⟨st [], by decide +kernel⟩,
  ⟨st [modMode fun m => { m with fw := .boot }, put SEC_STAT_WK_READY 1, modSec fun x => { x with flash := some [] }], by decide +kernel⟩,
  ⟨[], st [modMode fun m => { m with fw := .boot }, put SEC_STAT_WK_READY 1, modSec fun x => { x with flash := some [] }], by decide +kernel⟩,
  ⟨frameBytes 4 0 0 67 68 (3 :: List.replicate 15 0), st [modMode fun m => { m with fw := .recovery }, put RNG_ADDR_ENUM 1, put RNG_ADDR_POS 3, put RNG_ADDR_RACK 1, put HUB_PAIR_PADDR 68, modSec fun x => { x with asking := true }], by decide +kernel⟩,
  ⟨st [modMode fun m => { m with fw := .recovery }, modSec fun x => { x with asking := true }], by decide +kernel⟩,
  ⟨st [modRst fun r => { r with verifying := true }], by decide +kernel⟩,
  ⟨st [], by decide +kernel⟩,
  ⟨w [(HUB_POST_GO, 1)], st [], by decide +kernel⟩,
  ⟨w [(HUB_POST_GO, 1)], st [modMode fun m => { m with role := .watch }], by decide +kernel⟩,
  ⟨3, st [put MEM_HBM_STAT_UP 0xFFFFFFFF, modMode fun m => { m with testing := true }, modTile 4 fun t => t.set TLE_CTRL_OWNER oSERVICE], by decide +kernel⟩⟩

theorem witness_AgentStatesAndFencing :
    (∃ (n : Slot) (pass : Bool) (s : State), (s.dev.agent n.val).state = aRESET) ∧
    (∃ (n : Slot) (s : State), (s.dev.agent n.val).state = aSIDEBAND ∧ (s.dev.agent n.val).selfFail = false ∧ (s.dev.agent n.val).samples = []) ∧
    (∃ (n : Slot) (s : State), (s.dev.agent n.val).selfFail = true) ∧
    (∃ (n : Slot) (s : State), (s.dev.agent n.val).state = aREADY) ∧
    (∃ (n : Slot) (s : State), (s.dev.agent n.val).bound = true) ∧
    (∃ (n : Slot) (m : QMsg) (s : State), (s.dev.agent n.val).takes m true [aREADY] false 8) ∧
    (∃ (n : Slot) (m : QMsg) (s : State), (s.dev.agent n.val).hears m = true ∧ m.ver = 1 ∧ m.sb = false ∧ m.data.length = 8 ∧ m.pkts ≠ 0 ∧ (s.dev.agent n.val).state ∉ [aREADY, aFENCED]) ∧
    (∃ (n : Slot) (m : QMsg) (s : State), (s.dev.agent n.val).takes m false [aLOADING, aLIVE, aFENCED] true 0 ∧ (s.dev.agent n.val).heldWrites = []) ∧
    (∃ (n : Slot) (m : QMsg) (s : State), (s.dev.agent n.val).takes m false [aLOADING] false 8 ∧ (s.dev.agent n.val).tableLength = false ∧ (s.dev.agent n.val).tableFault = false ∧ (s.dev.agent n.val).holds (numAt m.data 0 4) = true) ∧
    (∃ (n : Slot) (m : QMsg) (s : State), (s.dev.agent n.val).takes m false [aLOADING, aLIVE] true 0 ∧ (s.dev.agent n.val).cstate = 0 ∧ (s.dev.agent n.val).deferred = [] ∧ (s.dev.agent n.val).xfers = []) ∧
    (∃ (n : Slot) (m : QMsg) (x : AXfer) (s : State), (s.dev.agent n.val).takes m false [aLOADING] true 0 ∧ (s.dev.agent n.val).cstate = 0 ∧ (s.dev.agent n.val).deferred = [] ∧ (s.dev.agent n.val).xfers = [x] ∧ x.last = none ∧ x.closed = false) ∧
    (∃ (n : Slot) (m : QMsg) (s : State), (s.dev.agent n.val).takes m false [aFENCED] true 0) ∧
    (∃ (n : Slot) (m : QMsg) (s : State), (s.dev.agent n.val).takes m false [aFENCED] true 0) ∧
    (∃ (n : Slot) (s : State), (s.dev.agent n.val).state = aFENCED ∧ (s.dev.agent n.val).doneSent = false) ∧
    (∃ (n : Slot) (m : QMsg) (s : State), (s.dev.agent n.val).takes m false [aLOADING, aLIVE, aFENCED] true 0) := ⟨
  ⟨2, false, st [], by decide +kernel⟩,
  ⟨2, st [ag 2 [(QAG_STATE_STATE, 1)]], by decide +kernel⟩,
  ⟨2, st [ag 2 [] fun a => { a with selfFail := true }], by decide +kernel⟩,
  ⟨2, st [agUp 2 aREADY], by decide +kernel⟩,
  ⟨2, st [agUp 2 aLIVE], by decide +kernel⟩,
  ⟨2, qm 0 (leBytes 8 5), st [agUp 2 aREADY], by decide +kernel⟩,
  ⟨2, qm 0 (leBytes 8 5), st [agUp 2 aLOADING], by decide +kernel⟩,
  ⟨2, qm, st [agUp 2 aLIVE], by decide +kernel⟩,
  ⟨2, qm 20 (leBytes 8 4), st [agUp 2 aLOADING [(QAG_KEY_STAT_SLOT0, 4)] fun a => { a with key0 := k32 }], by decide +kernel⟩,
  ⟨2, qm, st [agUp 2 aLOADING], by decide +kernel⟩,
  ⟨2, qm, ⟨9, 4096, 0, none, 5, false, false⟩, st [agUp 2 aLOADING [] fun a => { a with xfers := [⟨9, 4096, 0, none, 5, false, false⟩] }], by decide +kernel⟩,
  ⟨2, qm, st [agUp 2 aFENCED], by decide +kernel⟩,
  ⟨2, qm, st [agUp 2 aFENCED], by decide +kernel⟩,
  ⟨2, st [agUp 2 aFENCED], by decide +kernel⟩,
  ⟨2, qm, st [agUp 2 aLIVE], by decide +kernel⟩⟩

theorem witness_AgentLoadingKeysAndRegisters :
    (∃ (n : Slot) (m : QMsg) (s : State), (s.dev.agent n.val).hears m = true ∧ m.epoch.toNat ≠ (s.dev.agent n.val).get QAG_BIND_EPOCH) ∧
    (∃ (n : Slot) (m : QMsg) (s : State), (s.dev.agent n.val).takes m false [aLOADING, aFENCED] true 4096 ∧ m.chk = true ∧ crc64 m.data = m.check.toNat ∧ m.arg.toNat % 4096 = 0 ∧ m.last = true ∧ m.sig = false ∧ m.pkts = 1 ∧ (s.dev.agent n.val).xfers = []) ∧
    (∃ (n : Slot) (m : QMsg) (s : State), (s.dev.agent n.val).takes m false [aLOADING, aFENCED] true 4096 ∧ m.chk = true ∧ crc64 m.data ≠ m.check.toNat ∧ m.last = true ∧ m.sig = false ∧ m.pkts = 1 ∧ (s.dev.agent n.val).xfers = []) ∧
    (∃ (n : Slot) (m : QMsg) (s : State), (s.dev.agent n.val).takes m false [aLOADING, aFENCED] false 4096 ∧ m.arg.toNat ≤ 3584 ∧ m.last = true ∧ m.sig = false ∧ m.pkts = 1 ∧ (s.dev.agent n.val).xfers = []) ∧
    (∃ (n : Slot) (m : QMsg) (s : State), (s.dev.agent n.val).takes m false [aLIVE] false 0 ∧ m.last = true ∧ m.sig = true ∧ m.sigIdx.toNat < 4096) ∧
    (∃ (n : Slot) (m : QMsg) (s : State), (s.dev.agent n.val).takes m false [aLOADING, aLIVE] false 32 ∧ leNat (m.data.take 16) ≠ 0 ∧ m.arg.toNat < 2 ^ 32) ∧
    (∃ (n : Slot) (m : QMsg) (s : State), (s.dev.agent n.val).takes m false [aLOADING, aLIVE] false 32 ∧ leNat (m.data.take 16) = 0) ∧
    (∃ (n : Slot) (m : QMsg) (s : State), (s.dev.agent n.val).takes m false [aLOADING, aLIVE] false 8) ∧
    (∃ (n : Slot) (m : QMsg) (s : State), (s.dev.agent n.val).takes m true [aSIDEBAND, aREADY, aLOADING, aLIVE, aFENCED] true 0 ∧ m.arg.toNat ≤ 0xFFFF ∧ m.arg.toNat % 8 = 0 ∧ m.arg.toNat ∉ [0, 0x38, 0x80]) ∧
    (∃ (n : Slot) (m : QMsg) (s : State), (s.dev.agent n.val).takes m true [aSIDEBAND, aREADY, aLOADING, aLIVE, aFENCED] true 0 ∧ m.arg.toNat ∈ [0, 0x38, 0x80]) ∧
    (∃ (n : Slot) (m : QMsg) (s : State), (s.dev.agent n.val).takes m false [aLOADING, aLIVE] true m.data.length) ∧
    (∃ (n : Slot) (m : QMsg) (s : State), (s.dev.agent n.val).hears m = true ∧ m.epoch.toNat = (s.dev.agent n.val).get QAG_BIND_EPOCH) ∧
    (∃ (n : Slot) (m : QMsg) (s : State), (s.dev.agent n.val).takes m true [aSIDEBAND, aREADY, aLOADING, aLIVE, aFENCED] true 8 ∧ m.arg.toNat = 0x20) ∧
    (∃ (n : Slot) (m : QMsg) (s : State), (s.dev.agent n.val).takes m true [aSIDEBAND, aREADY, aLOADING, aLIVE, aFENCED] true 8 ∧ m.arg.toNat ≤ 0xFFFF ∧ m.arg.toNat % 8 = 0 ∧ m.arg.toNat ∉ [0x08, 0x18, 0x20, 0x88, 0x98]) := ⟨
  ⟨2, qm 4 k32, st [agUp 2 aLIVE [(QAG_BIND_EPOCH, 8)]], by decide +kernel⟩,
  ⟨2, { qm 0x300000 (List.replicate 4096 5) with chk := true, check := BitVec.ofNat 64 (crc64 (List.replicate 4096 5)) }, st [agUp 2 aLOADING], by decide +kernel⟩,
  ⟨2, { qm 0x300000 (List.replicate 4096 5) with chk := true }, st [agUp 2 aLOADING], by decide +kernel⟩,
  ⟨2, qm 100 (List.replicate 4096 5), st [agUp 2 aLOADING], by decide +kernel⟩,
  ⟨2, { qm with sig := true, sigIdx := 5, sigInc := 3 }, st [agUp 2 aLIVE], by decide +kernel⟩,
  ⟨2, qm 5 k32, st [agUp 2 aLOADING], by decide +kernel⟩,
  ⟨2, qm 5 (List.replicate 32 0), st [agUp 2 aLOADING], by decide +kernel⟩,
  ⟨2, qm 12 (leBytes 8 99), st [agUp 2 aLOADING], by decide +kernel⟩,
  ⟨2, qm 0x20, st [agUp 2 aSIDEBAND], by decide +kernel⟩,
  ⟨2, qm 0x38, st [agUp 2 aSIDEBAND], by decide +kernel⟩,
  ⟨2, qm 0, st [agUp 2 aLIVE], by decide +kernel⟩,
  ⟨2, qm 0, st [agUp 2 aLIVE], by decide +kernel⟩,
  ⟨2, qm 0x20 (leBytes 8 1), st [agUp 2 aSIDEBAND], by decide +kernel⟩,
  ⟨2, qm 0x78 (leBytes 8 255), st [agUp 2 aLIVE], by decide +kernel⟩⟩

theorem witness_AgentServesACourse :
    (∃ (n : Slot) (m : QMsg) (s : State), (s.dev.agent n.val).takes m false [aLIVE] false 16 ∧ (s.dev.agent n.val).tableLength = false ∧ (s.dev.agent n.val).tableFault = false ∧ 1 ≤ (s.dev.agent n.val).get QAG_CBUF_CFG_SIZE ∧ (s.dev.agent n.val).get QAG_CBUF_CFG_SIZE ≤ 16 ∧ (s.dev.agent n.val).holds (numAt m.data 0 4) = true ∧ (s.dev.agent n.val).step < numAt m.data 8 8 ∧ (s.dev.agent n.val).cstate ∉ [1, 2]) ∧
    (∃ (n : Slot) (m : QMsg) (s : State), (s.dev.agent n.val).takes m false [aLIVE] false 16 ∧ (s.dev.agent n.val).tableLength = false ∧ (s.dev.agent n.val).tableFault = false ∧ 1 ≤ (s.dev.agent n.val).get QAG_CBUF_CFG_SIZE ∧ (s.dev.agent n.val).get QAG_CBUF_CFG_SIZE ≤ 16 ∧ (s.dev.agent n.val).holds (numAt m.data 0 4) = true ∧ numAt m.data 8 8 ≤ (s.dev.agent n.val).step) ∧
    (∃ (n : Slot) (m : QMsg) (gs : List Nat) (s : State), (s.dev.agent n.val).takes m false [aLIVE, aFENCED] false 0 ∧ markGrans (s.dev.agent n.val) m.arg.toNat = some gs ∧ (s.dev.agent n.val).holds ((s.dev.agent n.val).get QAG_COURSE_CUR) = true ∧ (frozenBlocks s.dev n.val gs).all blockGood = true) ∧
    (∃ (n : Slot) (m : QMsg) (gs : List Nat) (s : State), (s.dev.agent n.val).takes m false [aLIVE] false 0 ∧ m.arg.toNat / 2 ^ 32 ≠ 0 ∧ drainGrans (s.dev.agent n.val) m.arg.toNat = some gs ∧ (∀ g ∈ gs, (s.dev.agent n.val).gran g ≠ .sent) ∧ (s.dev.agent n.val).on QAG_STATE_HALTED = false ∧ (frozenBlocks s.dev n.val gs).all blockGood = true) ∧
    (∃ (n : Slot) (m : QMsg) (gs : List Nat) (s : State), (s.dev.agent n.val).takes m false [aLIVE] false 0 ∧ m.arg.toNat / 2 ^ 32 ≠ 0 ∧ drainGrans (s.dev.agent n.val) m.arg.toNat = some gs ∧ (∀ g ∈ gs, (s.dev.agent n.val).gran g ≠ .sent) ∧ (s.dev.agent n.val).on QAG_STATE_HALTED = true) ∧
    (∃ (n : Slot) (m : QMsg) (gs : List Nat) (s : State), (s.dev.agent n.val).takes m false [aLIVE] false 0 ∧ drainGrans (s.dev.agent n.val) m.arg.toNat = some gs) ∧
    (∃ (n : Slot) (m : QMsg) (s : State), (s.dev.agent n.val).takes m false [aLIVE, aFENCED] false 0 ∧ (s.dev.agent n.val).cstate ≠ 0 ∧ (s.dev.agent n.val).get QAG_COURSE_CUR = m.arg.toNat % 2 ^ 32 ∧ (s.dev.agent n.val).heldWrites = []) ∧
    (∃ (n : Slot) (m : QMsg) (s : State), (s.dev.agent n.val).takes m false [aLIVE] false 0 ∧ (s.dev.agent n.val).pCourse = some (m.arg.toNat % 2 ^ 32)) ∧
    (∃ (n : Slot) (m : QMsg) (s : State), (s.dev.agent n.val).takes m false [aLOADING, aLIVE, aFENCED] false 0) ∧
    (∃ (n : Slot) (m : QMsg) (s : State), (s.dev.agent n.val).hears m = true ∧ m.epoch.toNat = (s.dev.agent n.val).get QAG_BIND_EPOCH ∧ (s.dev.agent n.val).ctxWait = some m.tag.toNat ∧ m.status = 0) ∧
    (∃ (n : Slot) (s : State), (s.dev.agent n.val).ctxWait.isSome = true) := ⟨
  ⟨2, qm 0 (leBytes 8 4 ++ leBytes 8 9), st [agUp 2 aLIVE [(QAG_CBUF_CFG_SIZE, 1), (QAG_KEY_STAT_SLOT0, 4)] fun a => { a with key0 := k32 }], by decide +kernel⟩,
  ⟨2, qm 0 (leBytes 8 4 ++ leBytes 8 0), st [agUp 2 aLIVE [(QAG_CBUF_CFG_SIZE, 1), (QAG_KEY_STAT_SLOT0, 4)] fun a => { a with key0 := k32 }], by decide +kernel⟩,
  ⟨2, qm, [0], st [agUp 2 aLIVE ([(QAG_STATE_CSTATE, 2), (QAG_COURSE_CUR, 4), (QAG_KEY_STAT_SLOT0, 4)] ++ oneRegion) fun a => { a with key0 := k32 }], by decide +kernel⟩,
  ⟨2, qm (2 ^ 32), [0], st [agUp 2 aLIVE ([(QAG_STATE_CSTATE, 2)] ++ oneRegion)], by decide +kernel⟩,
  ⟨2, qm (2 ^ 32), [0], st [agUp 2 aLIVE ([(QAG_STATE_CSTATE, 2), (QAG_STATE_HALTED, 1)] ++ oneRegion)], by decide +kernel⟩,
  ⟨2, qm (2 ^ 32), [0], st [agUp 2 aLIVE ([(QAG_STATE_CSTATE, 2)] ++ oneRegion)], by decide +kernel⟩,
  ⟨2, qm 4, st [agUp 2 aLIVE [(QAG_STATE_CSTATE, 2), (QAG_COURSE_CUR, 4)]], by decide +kernel⟩,
  ⟨2, qm 4, st [agUp 2 aLIVE [] fun a => { a with pCourse := some 4, mapP := [(0, true)] }], by decide +kernel⟩,
  ⟨2, qm, st [agUp 2 aLIVE], by decide +kernel⟩,
  ⟨2, qm, st [agUp 2 aLIVE [] fun a => { a with ctxWait := some 9 }], by decide +kernel⟩,
  ⟨2, st [agUp 2 aLIVE [] fun a => { a with ctxWait := some 9, ctx := List.replicate 100 1 }], by decide +kernel⟩⟩

theorem witness_HostWritesItsAgent :
    (∃ (n : Slot) (v : W64) (s : State), (s.dev.agent n.val).state = aLIVE ∧ v.toNat = ((s.dev.agent n.val).step + 1) % 2 ^ 64 ∧ ((s.dev.agent n.val).cstate ≠ 1 ∨ (s.dev.agent n.val).armStep ≠ v.toNat)) ∧
    (∃ (n : Slot) (v : W64) (s : State), (s.dev.agent n.val).state = aLIVE ∧ v.toNat = ((s.dev.agent n.val).step + 1) % 2 ^ 64 ∧ (s.dev.agent n.val).cstate = 1 ∧ (s.dev.agent n.val).armStep = v.toNat) ∧
    (∃ (n : Slot) (v : W64) (s : State), (s.dev.agent n.val).state = aLIVE ∧ v.toNat ≠ ((s.dev.agent n.val).step + 1) % 2 ^ 64) ∧
    (∃ (n : Slot) (v : W64) (s : State), (s.dev.agent n.val).state = aFENCED) ∧
    (∃ (n : Slot) (v : W64) (s : State), (s.dev.agent n.val).state ∈ [aSIDEBAND, aREADY, aLOADING]) ∧
    (∃ (n : Slot) (a : W64) (v : W64) (s : State), (s.dev.agent n.val).state ≠ aRESET ∧ (s.dev.agent n.val).bound = true ∧ a.toNat % 8 = 0 ∧ ozmundOwned a.toNat = true) ∧
    (∃ (n : Slot) (a : W64) (v : W64) (s : State), (s.dev.agent n.val).state ≠ aRESET ∧ ((s.dev.agent n.val).bound = false ∨ ozmundOwned a.toNat = false) ∧ a.toNat % 8 = 0 ∧ a.toNat ≤ 0xFFFF ∧ a.toNat ∉ [0x08, 0x20, 0x88, 0x98]) ∧
    (∃ (n : Slot) (a : W64) (v : W64) (s : State), (s.dev.agent n.val).state ≠ aRESET ∧ (a.toNat % 8 ≠ 0 ∨ 0xFFFF < a.toNat)) ∧
    (∃ (n : Slot) (a : W64) (v : W64) (w : W64) (code : BitVec 16) (addr : W64) (bs : List Byte) (c : Instr) (s : State), (s.dev.agent n.val).state = aRESET ∧ c ∈ ([.registerWrite (.host n) a v, .qagStepWrite n w, .qagKick n, .qagFatal n code, .qagFenceReq n, .qagQuiet n, .qagCntAdd n w, .qagWitPush n w, .hostStateWrite n addr bs, .blockConsume n addr] : List Instr)) ∧
    (∃ (n : Slot) (s : State), (s.dev.agent n.val).state ≠ aRESET) ∧
    (∃ (n : Slot) (code : BitVec 16) (s : State), (s.dev.agent n.val).state ∈ [aLOADING, aLIVE]) ∧
    (∃ (n : Slot) (code : BitVec 16) (s : State), (s.dev.agent n.val).state ∈ [aSIDEBAND, aREADY, aFENCED]) ∧
    (∃ (n : Slot) (s : State), (s.dev.agent n.val).state ∈ [aLOADING, aLIVE]) ∧
    (∃ (n : Slot) (s : State), (s.dev.agent n.val).state ∈ [aSIDEBAND, aREADY, aFENCED]) ∧
    (∃ (n : Slot) (s : State), (s.dev.agent n.val).state = aFENCED ∧ (s.dev.agent n.val).doneSent = false) ∧
    (∃ (n : Slot) (s : State), (s.dev.agent n.val).state ≠ aRESET ∧ ((s.dev.agent n.val).state = aFENCED → (s.dev.agent n.val).doneSent = true)) ∧
    (∃ (n : Slot) (v : W64) (s : State), (s.dev.agent n.val).state ∉ [aRESET, aFENCED]) ∧
    (∃ (n : Slot) (v : W64) (s : State), (s.dev.agent n.val).state = aFENCED) ∧
    (∃ (n : Slot) (v : W64) (s : State), (s.dev.agent n.val).state ≠ aRESET ∧ (s.dev.agent n.val).on QAG_WIT_CFG_EN = true ∧ QAG_WIT_PUSH_DROP.of v = 0 ∧ QAG_WIT_PUSH_LEN.of v ≠ 0 ∧ QAG_WIT_PUSH_LEN.of v ≤ 0x3FEF000 ∧ ((s.dev.agent n.val).on QAG_STATE_HALTED = true ∨ (s.dev.agent n.val).on QAG_STATE_TRAY_UP = false)) ∧
    (∃ (n : Slot) (v : W64) (s : State), (s.dev.agent n.val).state ≠ aRESET ∧ (s.dev.agent n.val).on QAG_WIT_CFG_EN = true ∧ QAG_WIT_PUSH_DROP.of v = 0 ∧ QAG_WIT_PUSH_LEN.of v ≠ 0 ∧ QAG_WIT_PUSH_LEN.of v ≤ 0x3FEF000 ∧ (s.dev.agent n.val).on QAG_STATE_HALTED = false ∧ (s.dev.agent n.val).on QAG_STATE_TRAY_UP = true ∧ (s.dev.agent n.val).samples = []) ∧
    (∃ (n : Slot) (v : W64) (s : State), (s.dev.agent n.val).state ≠ aRESET ∧ (s.dev.agent n.val).on QAG_WIT_CFG_EN = true ∧ QAG_WIT_PUSH_DROP.of v = 1) ∧
    (∃ (n : Slot) (v : W64) (s : State), (s.dev.agent n.val).state ≠ aRESET ∧ (s.dev.agent n.val).on QAG_WIT_CFG_EN = false) ∧
    (∃ (n : Slot) (addr : W64) (bs : List Byte) (s : State), (s.dev.agent n.val).state ≠ aRESET ∧ (s.dev.agent n.val).heldBack ⟨addr.toNat, bs⟩ = false) ∧
    (∃ (n : Slot) (addr : W64) (bs : List Byte) (g : Nat) (s : State), (s.dev.agent n.val).state ≠ aRESET ∧ (s.dev.agent n.val).heldBack ⟨addr.toNat, bs⟩ = true ∧ (s.dev.agent n.val).get QAG_CBUF_CFG_STALL_US ≠ 0 ∧ (s.dev.agent n.val).gransOf addr.toNat bs.length = [g]) ∧
    (∃ (n : Slot) (addr : W64) (bs : List Byte) (s : State), (s.dev.agent n.val).state ≠ aRESET ∧ (s.dev.agent n.val).heldBack ⟨addr.toNat, bs⟩ = true ∧ (s.dev.agent n.val).get QAG_CBUF_CFG_STALL_US ≠ 0) ∧
    (∃ (n : Slot) (addr : W64) (bs : List Byte) (g : Nat) (s : State), (s.dev.agent n.val).state ≠ aRESET ∧ (s.dev.agent n.val).heldBack ⟨addr.toNat, bs⟩ = true ∧ (s.dev.agent n.val).get QAG_CBUF_CFG_STALL_US = 0 ∧ (s.dev.agent n.val).gransOf addr.toNat bs.length = [g] ∧ (s.dev.agent n.val).copying.contains g = false ∧ (s.dev.agent n.val).freeSlot = none) ∧
    (∃ (n : Slot) (g : Nat) (slot : Nat) (lo : Nat) (k : Nat) (s : State), g ∈ (s.dev.agent n.val).copying ∧ { s.dev.agent n.val with copying := (s.dev.agent n.val).copying.erase g }.freeSlot = some slot ∧ (s.dev.agent n.val).granAt g = some (lo, k)) ∧
    (∃ (n : Slot) (g : Nat) (w : HeldWrite) (slot : Nat) (lo : Nat) (k : Nat) (s : State), g ∈ (s.dev.agent n.val).copying ∧ { s.dev.agent n.val with copying := (s.dev.agent n.val).copying.erase g }.freeSlot = some slot ∧ (s.dev.agent n.val).granAt g = some (lo, k) ∧ (s.dev.agent n.val).heldWrites = [w] ∧ (s.dev.agent n.val).gransOf w.addr w.data.length = [g]) ∧
    (∃ (n : Slot) (g : Nat) (s : State), (s.dev.agent n.val).copying.contains g = false) ∧
    (∃ (n : Slot) (g : Nat) (w : HeldWrite) (slot : Nat) (lo : Nat) (k : Nat) (s : State), (s.dev.agent n.val).heldWrites = [w] ∧ (s.dev.agent n.val).gransOf w.addr w.data.length = [g] ∧ (s.dev.agent n.val).gran g = .prot ∧ (s.dev.agent n.val).copying = [] ∧ (s.dev.agent n.val).freeSlot = some slot ∧ (s.dev.agent n.val).granAt g = some (lo, k)) ∧
    (∃ (n : Slot) (i : Nat) (s : State), (s.dev.agent n.val).heldWrites.length ≤ i) ∧
    (∃ (n : Slot) (s : State), (s.dev.agent n.val).stallFrom.isSome = true ∧ (s.dev.agent n.val).get QAG_CBUF_CFG_STALL_US ≤ stallNow s.dev (s.dev.agent n.val)) ∧
    (∃ (n : Slot) (s : State), ((s.dev.agent n.val).stallFrom = none ∨ stallNow s.dev (s.dev.agent n.val) < (s.dev.agent n.val).get QAG_CBUF_CFG_STALL_US)) ∧
    (∃ (n : Slot) (addr : W64) (s : State), (s.dev.agent n.val).state ≠ aRESET ∧ hostBlockOk s.dev n.val addr.toNat = false) ∧
    (∃ (n : Slot) (addr : W64) (s : State), hostBlockOk s.dev n.val addr.toNat = true) := ⟨
  ⟨2, 1, st [agUp 2 aLIVE [(QAG_WIT_CFG_EN, 1)] fun a => { a with listed := 1 }], by decide +kernel⟩,
  ⟨2, 1, st [agUp 2 aLIVE [(QAG_STATE_CSTATE, 1)] fun a => { a with armStep := 1 }], by decide +kernel⟩,
  ⟨2, 5, st [agUp 2 aLIVE], by decide +kernel⟩,
  ⟨2, 5, st [agUp 2 aFENCED], by decide +kernel⟩,
  ⟨2, 5, st [agUp 2 aREADY], by decide +kernel⟩,
  ⟨2, 0x400, 5, st [agUp 2 aLIVE], by decide +kernel⟩,
  ⟨2, 0x100, 5, st [agUp 2 aLIVE], by decide +kernel⟩,
  ⟨2, 0x10000, 5, st [agUp 2 aLIVE], by decide +kernel⟩,
  ⟨2, 0x100, 5, 1, 0, 0, [], .qagKick 2, st [], by decide +kernel⟩,
  ⟨2, st [agUp 2 aLIVE], by decide +kernel⟩,
  ⟨2, 3, st [agUp 2 aLIVE], by decide +kernel⟩,
  ⟨2, 3, st [agUp 2 aREADY], by decide +kernel⟩,
  ⟨2, st [agUp 2 aLIVE], by decide +kernel⟩,
  ⟨2, st [agUp 2 aFENCED], by decide +kernel⟩,
  ⟨2, st [agUp 2 aFENCED], by decide +kernel⟩,
  ⟨2, st [agUp 2 aLIVE], by decide +kernel⟩,
  ⟨2, w [(QAG_CNT_ADD_INDEX, 3), (QAG_CNT_ADD_INC, 5)], st [agUp 2 aLIVE], by decide +kernel⟩,
  ⟨2, w [(QAG_CNT_ADD_INDEX, 3), (QAG_CNT_ADD_INC, 5)], st [agUp 2 aFENCED], by decide +kernel⟩,
  ⟨2, w [(QAG_WIT_PUSH_LEN, 64)], st [agUp 2 aLIVE [(QAG_WIT_CFG_EN, 1), (QAG_STATE_HALTED, 1)]], by decide +kernel⟩,
  ⟨2, w [(QAG_WIT_PUSH_LEN, 5000)], st [agUp 2 aLIVE [(QAG_WIT_CFG_EN, 1)]], by decide +kernel⟩,
  ⟨2, w [(QAG_WIT_PUSH_DROP, 1)], st [agUp 2 aLIVE [(QAG_WIT_CFG_EN, 1)]], by decide +kernel⟩,
  ⟨2, w [(QAG_WIT_PUSH_LEN, 64)], st [agUp 2 aLIVE], by decide +kernel⟩,
  ⟨2, 0x80000010, [1, 2, 3], st [agUp 2 aLIVE oneRegion fun a => { a with pCourse := some 3 }], by decide +kernel⟩,
  ⟨2, 0x80000010, [1, 2, 3], 0, st [agUp 2 aLIVE ([(QAG_STATE_CSTATE, 2), (QAG_CBUF_CFG_STALL_US, 100)] ++ oneRegion)], by decide +kernel⟩,
  ⟨2, 0x80000010, [1, 2, 3], st [agUp 2 aLIVE ([(QAG_STATE_CSTATE, 2), (QAG_CBUF_CFG_STALL_US, 100)] ++ oneRegion) fun a => { a with bufSlots := 512 }], by decide +kernel⟩,
  ⟨2, 0x80000010, [1, 2, 3], 0, st [agUp 2 aLIVE ([(QAG_STATE_CSTATE, 2), (QAG_CBUF_CFG_STALL_US, 0)] ++ oneRegion)], by decide +kernel⟩,
  ⟨2, 0, 0, 0x80000000, 1, st [agUp 2 aLIVE ([(QAG_STATE_CSTATE, 2)] ++ oneRegion) fun a => { a with copying := [0], bufSlots := 512 }], by decide +kernel⟩,
  ⟨2, 0, ⟨0x80000010, [1]⟩, 0, 0x80000000, 1, st [agUp 2 aLIVE ([(QAG_STATE_CSTATE, 2)] ++ oneRegion) fun a => { a with copying := [0], heldWrites := [⟨0x80000010, [1]⟩], bufSlots := 512 }], by decide +kernel⟩,
  ⟨2, 0, st [agUp 2 aLIVE], by decide +kernel⟩,
  ⟨2, 0, ⟨0x80000010, [1]⟩, 0, 0x80000000, 1, st [agUp 2 aLIVE ([(QAG_STATE_CSTATE, 2)] ++ oneRegion) fun a => { a with heldWrites := [⟨0x80000010, [1]⟩], bufSlots := 512 }], by decide +kernel⟩,
  ⟨2, 0, st [agUp 2 aLIVE], by decide +kernel⟩,
  ⟨2, st [agUp 2 aLIVE [(QAG_STATE_CSTATE, 2), (QAG_CBUF_CFG_STALL_US, 0)] fun a => { a with stallFrom := some 0 }], by decide +kernel⟩,
  ⟨2, st [agUp 2 aLIVE], by decide +kernel⟩,
  ⟨2, 0x80000000, st [agUp 2 aLIVE ([(QAG_REG_A_CHECKED 0, 1)] ++ oneRegion)], by decide +kernel⟩,
  ⟨2, 0x90000000, st [agUp 2 aLIVE], by decide +kernel⟩⟩

theorem witness_AgentContributionsAndTimers :
    (∃ (n : Slot) (seq24 : BitVec 24) (bs : List Byte) (s : State), (s.dev.agent n.val).state = aLIVE) ∧
    (∃ (n : Slot) (pos : W32) (seq24 : BitVec 24) (slot : Fin 2) (mark : BitVec 128) (bs : List Byte) (s : State), (s.dev.agent n.val).state ≠ aRESET ∧ (s.dev.agent n.val).key slot.val ≠ [] ∧ (s.dev.agent n.val).keyCourse slot.val ≠ 2 ^ 32 - 1 ∧ mark128 (leNat (((s.dev.agent n.val).key slot.val).take 16)) (leNat (((s.dev.agent n.val).key slot.val).drop 16)) bs 2 seq24.toNat pos.toNat = mark.toNat) ∧
    (∃ (n : Slot) (pos : W32) (seq24 : BitVec 24) (slot : Fin 2) (mark : BitVec 128) (bs : List Byte) (s : State), (s.dev.agent n.val).state ≠ aRESET ∧ (s.dev.agent n.val).key slot.val = []) ∧
    (∃ (n : Slot) (s : State), (s.dev.agent n.val).state ∈ [aLOADING, aLIVE] ∧ (s.dev.agent n.val).on QAG_CTRL_KICK = true) ∧
    (∃ (n : Slot) (s : State), (s.dev.agent n.val).state ∈ [aLOADING, aLIVE] ∧ (s.dev.agent n.val).on QAG_CTRL_KICK = false) ∧
    (∃ (n : Slot) (s : State), aREADY ≤ (s.dev.agent n.val).state) ∧
    (∃ (n : Slot) (s : State), (s.dev.agent n.val).state ≠ aRESET) ∧
    (∃ (n : Slot) (s : State), (s.dev.agent n.val).state = aRESET) ∧
    (∃ (n : Slot) (s : State), (s.dev.agent n.val).on QAG_STATE_HALTED = true ∧ (s.dev.agent n.val).deferred = [] ∧ (s.dev.agent n.val).samples = []) := ⟨
  ⟨2, 5, [1, 2, 3], st [agUp 2 aLIVE], by decide +kernel⟩,
  ⟨2, 3, 5, 0, BitVec.ofNat 128 (mark128 (leNat (k32.take 16)) (leNat (k32.drop 16)) [1, 2, 3] 2 5 3), [1, 2, 3], st [agUp 2 aLIVE [(QAG_KEY_STAT_SLOT0, 4)] fun a => { a with key0 := k32 }], by decide +kernel⟩,
  ⟨2, 3, 5, 1, 0, [1, 2, 3], st [agUp 2 aLIVE], by decide +kernel⟩,
  ⟨2, st [agUp 2 aLIVE [(QAG_CTRL_KICK, 1)]], by decide +kernel⟩,
  ⟨2, st [agUp 2 aLIVE], by decide +kernel⟩,
  ⟨2, st [agUp 2 aREADY], by decide +kernel⟩,
  ⟨2, st [agUp 2 aLIVE], by decide +kernel⟩,
  ⟨2, st [], by decide +kernel⟩,
  ⟨2, st [agUp 2 aLIVE [(QAG_STATE_HALTED, 1)]], by decide +kernel⟩⟩

theorem witness_CoursesAtAMember :
    (∃ (m : NMsg) (s : State), s.dev.runs ∧ s.dev.accepts m false 16 ∧ s.dev.inCourse = false ∧ (s.dev.cur = noCourse ∨ s.dev.cur < numAt m.data 0 4) ∧ s.dev.on CRS_CTRL_EN = true ∧ (∀ n, n < 8 → s.dev.slotPos n ≠ noPos → s.dev.slotState n ∉ [sFENCED, sABSENT]) ∧ s.dev.shoredSlots = [] ∧ s.dev.live ≠ []) ∧
    (∃ (m : NMsg) (s : State), s.dev.runs ∧ s.dev.accepts m false 16 ∧ s.dev.inCourse = false ∧ (s.dev.cur = noCourse ∨ s.dev.cur < numAt m.data 0 4) ∧ s.dev.on CRS_CTRL_EN = false) ∧
    (∃ (m : NMsg) (s : State), s.dev.runs ∧ s.dev.accepts m false 24 ∧ numAt m.data 4 1 = 0 ∧ numAt m.data 5 1 = 0 ∧ numAt m.data 8 4 = noCourse ∧ s.dev.inCourse = true ∧ s.dev.cur = numAt m.data 0 4) ∧
    (∃ (m : NMsg) (s : State), s.dev.runs ∧ s.dev.accepts m false 24 ∧ numAt m.data 4 1 = 1 ∧ numAt m.data 8 4 = noCourse ∧ s.dev.inCourse = true ∧ s.dev.cur = numAt m.data 0 4) ∧
    (∃ (m : NMsg) (n : Nat) (s : State), s.dev.up = true ∧ s.dev.accepts m false 4 ∧ s.dev.sessionTo m.src.toNat = some n ∧ m.src.toNat ≠ s.dev.ownAddr ∧ s.dev.isRoot = false ∧ s.dev.shore.sentNotices = []) ∧
    (∃ (s : State), s.dev.runs ∧ s.dev.shoredSlots = [] ∧ s.dev.drained = true ∧ s.dev.paired = false ∧ s.dev.job.groups = [] ∧ s.dev.gateHolds = false ∧ s.dev.voted = false) ∧
    (∃ (n : Slot) (s : State), s.dev.runs ∧ s.dev.get CRS_TIMEOUT_DIRTY_MS ≠ 0 ∧ s.dev.kState ∈ [kOPENING, kDRAINING] ∧ bitOf (s.dev.get CRS_STAT_CUT) n.val = true ∧ s.dev.remote n.val = true ∧ s.dev.slotUnacked n.val = true) ∧
    (∃ (n : Slot) (seq : W32) (r : SReq) (s : State), s.dev.runs ∧ s.dev.kState = kDRAINING ∧ (s.dev.slot n.val).reqs = [r] ∧ r.ty = 0x14 ∧ r.seq = seq.toNat) ∧
    (∃ (n : Slot) (s : State), s.dev.runs ∧ s.dev.inCourse = true ∧ bitOf (s.dev.get CRS_STAT_CUT) n.val = true ∧ bitOf (s.dev.get CRS_STAT_DONE) n.val = false ∧ s.dev.voted = false) ∧
    (∃ (s : State), s.dev.runs ∧ s.dev.inCourse = true ∧ s.dev.voted = true) ∧
    (∃ (s : State), s.dev.runs ∧ s.dev.inCourse = true ∧ s.dev.voted = false) ∧
    (∃ (v : W64) (s : State), s.dev.up = true ∧ CRS_CTRL_OPEN.of v = 1 ∧ CRS_CTRL_ABANDON.of v = 0 ∧ CRS_CTRL_EN.of v = 1 ∧ s.dev.epoch ≠ 0) ∧
    (∃ (v : W64) (s : State), s.dev.up = true ∧ CRS_CTRL_ABANDON.of v = 1 ∧ CRS_CTRL_OPEN.of v = 0 ∧ s.dev.inCourse = true ∧ s.dev.voted = false) ∧
    (∃ (v : W64) (s : State), s.dev.up = true ∧ CRS_CTRL_EN.of v = 0 ∧ CRS_CTRL_OPEN.of v = 0 ∧ s.dev.on CRS_CTRL_EN = true ∧ s.dev.inCourse = true ∧ s.dev.voted = false) := ⟨
  ⟨nm 67 (pack [(4, 9), (4, 0), (8, 20)]), st [jb], by decide +kernel⟩,
  ⟨nm 67 (pack [(4, 9), (4, 0), (8, 20)]), st [jb, put CRS_CTRL_EN 0], by decide +kernel⟩,
  ⟨nm 67 (pack [(4, 9), (1, 0), (1, 0), (2, 0), (4, noCourse), (4, 0), (8, 0)]), st [jb, crs 2], by decide +kernel⟩,
  ⟨nm 67 (pack [(4, 9), (1, 1), (1, 3), (2, 0), (4, noCourse), (4, 0), (8, 0)]), st [jb, crs 2], by decide +kernel⟩,
  ⟨nm 70 (leBytes 4 9), 5, st [jb, modPeer 5 fun p => { p with st := 2, peer := 70 }], by decide +kernel⟩,
  ⟨st [jb, crs 2, put CRS_STAT_DONE 4, modCourse fun c => { c with d0 := [(2, [])] }], by decide +kernel⟩,
  ⟨2, st [jb, put CRS_STAT_CUT 4, crs 2, fill, put CRS_TIMEOUT_DIRTY_MS 5], by decide +kernel⟩,
  ⟨2, 5, ⟨5, false, 0x14, 9, [], []⟩, st [jb, crs 2, modSlot 2 fun x => { x with reqs := [⟨5, false, 0x14, 9, [], []⟩] }], by decide +kernel⟩,
  ⟨2, st [jb, crs 2, put CRS_STAT_CUT 4], by decide +kernel⟩,
  ⟨st [jb, crs 2, put CRS_STAT_VOTED 1], by decide +kernel⟩,
  ⟨st [jb, crs 2], by decide +kernel⟩,
  ⟨w [(CRS_CTRL_OPEN, 1), (CRS_CTRL_EN, 1)], st [jb], by decide +kernel⟩,
  ⟨w [(CRS_CTRL_ABANDON, 1)], st [jb, crs 2], by decide +kernel⟩,
  ⟨0, st [jb, crs 2], by decide +kernel⟩⟩

theorem witness_CoursesAtTheRoot :
    (∃ (m : NMsg) (s : State), s.dev.runs ∧ s.dev.accepts m false 12 ∧ s.dev.mayOpen = true ∧ s.dev.course.open_ = none ∧ s.dev.course.deciding = none ∧ s.dev.course.highest + 1 < noCourse) ∧
    (∃ (m : NMsg) (c : Nat) (k : Nat) (s : State), s.dev.runs ∧ s.dev.accepts m false 40 ∧ s.dev.isRoot = true ∧ s.dev.course.deciding = none ∧ s.dev.course.open_ = some (c, k) ∧ numAt m.data 0 4 = c ∧ numAt m.data 4 2 < s.dev.nOz ∧ ((s.dev.course.votes.all fun v => decide (v.1 ≠ numAt m.data 4 2)) = true) ∧ numAt m.data 6 1 = vYES ∧ satisfied (s.dev.counter (s.dev.get CRS_BAR_CNT) + 1) (BitVec.ofNat 64 (s.dev.courseGoal c)) = false ∧ s.dev.course.taking = false) ∧
    (∃ (m : NMsg) (c : Nat) (k : Nat) (s : State), s.dev.runs ∧ s.dev.accepts m false 40 ∧ s.dev.isRoot = true ∧ s.dev.course.deciding = none ∧ s.dev.course.open_ = some (c, k) ∧ numAt m.data 0 4 = c ∧ numAt m.data 4 2 < s.dev.nOz ∧ ((s.dev.course.votes.all fun v => decide (v.1 ≠ numAt m.data 4 2)) = true) ∧ 1 ≤ numAt m.data 6 1 ∧ numAt m.data 6 1 ≤ 10 ∧ s.dev.mode.partner ≠ .solo ∧ s.dev.course.taking = false) ∧
    (∃ (m : NMsg) (c : Nat) (k : Nat) (s : State), s.dev.runs ∧ s.dev.accepts m false 40 ∧ s.dev.isRoot = true ∧ s.dev.course.deciding = none ∧ s.dev.course.open_ = some (c, k) ∧ numAt m.data 0 4 = c ∧ numAt m.data 4 2 < s.dev.nOz ∧ ((s.dev.course.votes.all fun v => decide (v.1 ≠ numAt m.data 4 2) && decide (v.2 = vYES)) = true) ∧ numAt m.data 6 1 = vYES ∧ satisfied (s.dev.counter (s.dev.get CRS_BAR_CNT) + 1) (BitVec.ofNat 64 (s.dev.courseGoal c)) = true ∧ s.dev.mode.partner ≠ .solo ∧ s.dev.course.taking = false) ∧
    (∃ (m : NMsg) (k : Decision) (s : State), s.dev.runs ∧ s.dev.accepts m true 4 ∧ s.dev.fromPartner m ∧ s.dev.isRoot = true ∧ s.dev.course.deciding = some k ∧ k.course = numAt m.data 0 4 ∧ k.next = noCourse ∧ s.dev.shore.notices = [] ∧ s.dev.mayOpen = false) ∧
    (∃ (m : NMsg) (s : State), s.dev.runs ∧ s.dev.accepts m true 16 ∧ s.dev.fromPartner m) ∧
    (∃ (m : NMsg) (i : Nat) (s : State), s.dev.runs ∧ s.dev.accepts m false (16 + 32 * numAt m.data 12 4) ∧ numAt m.data 12 4 ≠ 0 ∧ s.dev.memberOf m.src.toNat = some i ∧ s.dev.kState = kDRAINING ∧ s.dev.cur = numAt m.data 0 4) ∧
    (∃ (m : NMsg) (i : Nat) (s : State), s.dev.runs ∧ s.dev.accepts m true 12 ∧ m.epoch.toNat = s.dev.epoch ∧ s.dev.epoch ≠ 0 ∧ s.dev.memberOf (numAt m.data 0 4) = some i ∧ s.dev.isRoot = true ∧ numAt m.data 4 4 = s.dev.epoch ∧ numAt m.data 8 1 = lostLOST ∧ s.dev.course.open_ = none ∧ s.dev.shore.rooting = false) ∧
    (∃ (m : NMsg) (i : Nat) (c : Nat) (k : Nat) (s : State), s.dev.runs ∧ s.dev.accepts m true 12 ∧ m.epoch.toNat = s.dev.epoch ∧ s.dev.epoch ≠ 0 ∧ s.dev.memberOf (numAt m.data 0 4) = some i ∧ s.dev.isRoot = true ∧ numAt m.data 4 4 = s.dev.epoch ∧ numAt m.data 8 1 ≠ lostLOST ∧ s.dev.course.open_ = some (c, k) ∧ s.dev.course.deciding = none ∧ ((s.dev.course.votes.all fun v => decide (v.1 ≠ i)) = true) ∧ s.dev.mode.partner ≠ .solo ∧ s.dev.course.taking = false) ∧
    (∃ (m : NMsg) (c : Nat) (k : Nat) (s : State), s.dev.runs ∧ s.dev.accepts m false 24 ∧ s.dev.isRoot = true ∧ s.dev.shore.rooting = false ∧ s.dev.course.open_ = some (c, k) ∧ s.dev.course.deciding = none ∧ s.dev.shrCfg SHR_CFG_DECIDE_MS ≠ 0 ∧ numAt m.data 0 4 ∉ s.dev.shore.notices) ∧
    (∃ (c : Nat) (k : Nat) (s : State), s.dev.runs ∧ s.dev.isRoot = true ∧ s.dev.shore.notices ≠ [] ∧ s.dev.course.open_ = some (c, k) ∧ s.dev.course.deciding = none ∧ s.dev.mode.partner ≠ .solo ∧ s.dev.course.taking = false) := ⟨
  ⟨nm 67 (List.replicate 12 0), st [rt, put CRS_COURSE_COMMITTED 8], by decide +kernel⟩,
  ⟨nm 67 (pack [(4, 9), (2, 1), (1, 0), (33, 0)]), 9, 20, st [rt, modCourse fun c => { c with open_ := some (9, 20), highest := 9 }], by decide +kernel⟩,
  ⟨nm 67 (pack [(4, 9), (2, 1), (1, 3), (33, 0)]), 9, 20, st [rt, paired, modCourse fun c => { c with open_ := some (9, 20), highest := 9 }], by decide +kernel⟩,
  ⟨nm 67 (pack [(4, 9), (2, 1), (1, 0), (33, 0)]), 9, 20, st [rt, paired, put CRS_BAR_CNT 9000, .act (.counter 9000 1), modCourse fun c => { c with open_ := some (9, 20), highest := 9, votes := [(0, 0)] }], by decide +kernel⟩,
  ⟨nm 66 (leBytes 4 9), ⟨9, true, 0, noCourse, 0, false⟩, st [rt, paired, modCourse fun c => { c with open_ := some (9, 20), highest := 9, deciding := some ⟨9, true, 0, noCourse, 0, false⟩ }], by decide +kernel⟩,
  ⟨nm 66 (List.replicate 16 1), st [rt, paired], by decide +kernel⟩,
  ⟨nm 67 (pack [(4, 9), (2, 1), (2, 0), (4, 0), (4, 1)] ++ List.replicate 32 0), 0, st [jb, crs 2], by decide +kernel⟩,
  ⟨nm 67 (pack [(4, 70), (4, 7), (1, 1), (3, 0)]), 1, st [rt], by decide +kernel⟩,
  ⟨nm 67 (pack [(4, 70), (4, 7), (1, 2), (3, 0)]), 1, 9, 20, st [rt, paired, modCourse fun c => { c with open_ := some (9, 20), highest := 9 }], by decide +kernel⟩,
  ⟨nm 67 (pack [(4, 4), (2, 0), (1, 2), (1, 3), (16, 0)]), 9, 20, st [rt, modShore fun x => { x with cfg := w [(SHR_CFG_DECIDE_MS, 5)] }, modCourse fun c => { c with open_ := some (9, 20), highest := 9 }], by decide +kernel⟩,
  ⟨9, 20, st [rt, paired, modShore fun x => { x with notices := [4] }, modCourse fun c => { c with open_ := some (9, 20), highest := 9 }], by decide +kernel⟩⟩

theorem witness_SlotsDeliverTheirShare :
    (∃ (n : Slot) (m : QMsg) (s : State), s.dev.runs ∧ s.dev.takesFrom n.val m false ∧ m.data.length = 24 ∧ s.dev.kState = kOPENING ∧ numAt m.data 0 4 = s.dev.cur ∧ n.val ∈ s.dev.live ∧ bitOf (s.dev.get CRS_STAT_CUT) n.val = false) ∧
    (∃ (n : Slot) (m : QMsg) (s : State), s.dev.runs ∧ s.dev.takesFrom n.val m false ∧ m.data.length = 8384 ∧ s.dev.inCourse = true ∧ numAt m.data 8 4 = s.dev.cur ∧ ((s.dev.course.cuts.any fun c => decide (c.slot = n.val)) = true)) ∧
    (∃ (n : Slot) (m : QMsg) (s : State), s.dev.runs ∧ s.dev.takesFrom n.val m false ∧ m.data.length = 8384 ∧ s.dev.inCourse = false) ∧
    (∃ (n : Slot) (m : QMsg) (s : State), s.dev.runs ∧ s.dev.hubFenced = true) ∧
    (∃ (n : Slot) (m : QMsg) (sh : Shard) (g : Nat) (i : Nat) (x : DirEnt) (s : State), s.dev.runs ∧ s.dev.takesFrom n.val m false ∧ s.dev.kState = kDRAINING ∧ s.dev.drainTarget n.val m.arg.toNat = some (sh, g) ∧ s.dev.acked n.val g = false ∧ m.data.length = 4096 ∧ m.status = 0 ∧ crc64 m.data = m.check.toNat ∧ s.dev.filling sh = some (i, x) ∧ s.dev.phys (x.addr + (g - sh.first) * 0x200000 + m.arg.toNat % 0x200000 / 4096 * 4096) = .hbm) ∧
    (∃ (n : Slot) (m : QMsg) (sh : Shard) (g : Nat) (s : State), s.dev.runs ∧ s.dev.takesFrom n.val m false ∧ s.dev.kState = kDRAINING ∧ s.dev.drainTarget n.val m.arg.toNat = some (sh, g) ∧ s.dev.acked n.val g = false ∧ m.data.length = 4096 ∧ crc64 m.data ≠ m.check.toNat ∧ Store.get noFlag s.dev.course.retried (bk n.val g (m.arg.toNat % 0x200000 / 4096)) = false) ∧
    (∃ (n : Slot) (m : QMsg) (sh : Shard) (g : Nat) (s : State), s.dev.runs ∧ s.dev.takesFrom n.val m false ∧ s.dev.kState = kDRAINING ∧ s.dev.drainTarget n.val m.arg.toNat = some (sh, g) ∧ s.dev.acked n.val g = false ∧ m.data.length = 4096 ∧ crc64 m.data ≠ m.check.toNat ∧ Store.get noFlag s.dev.course.retried (bk n.val g (m.arg.toNat % 0x200000 / 4096)) = true ∧ s.dev.voted = false) ∧
    (∃ (n : Slot) (g : Nat) (sh : Shard) (e : Nat × DirEnt) (s : State), s.dev.runs ∧ s.dev.kState = kDRAINING ∧ s.dev.shardOf n.val g = some sh ∧ s.dev.acked n.val g = false ∧ s.dev.share sh = .drained ∧ n.val ∈ s.dev.live ∧ s.dev.granuleHere sh g = true ∧ s.dev.filling sh = some e ∧ ((sh.granules.all fun k => decide (k = g) || s.dev.acked n.val k) = false) ∧ s.dev.shoredSlots = [] ∧ s.dev.get CRS_STAT_UNACKED ≠ 0) ∧
    (∃ (n : Slot) (m : QMsg) (s : State), s.dev.runs ∧ s.dev.takesFrom n.val m false ∧ m.data.length = 32768 ∧ Store.find? s.dev.shore.slots n.val ≠ some .mapping ∧ s.dev.inCourse = true ∧ bitOf (s.dev.get CRS_STAT_CUT) n.val = true) ∧
    (∃ (n : Slot) (m : QMsg) (s : State), s.dev.runs ∧ s.dev.takesFrom n.val m false ∧ s.dev.inCourse = true ∧ m.arg.toNat = s.dev.cur ∧ bitOf (s.dev.get CRS_STAT_DONE) n.val = false ∧ n.val ∉ s.dev.course.rearm) ∧
    (∃ (n : Slot) (m : QMsg) (s : State), s.dev.runs ∧ s.dev.takesFrom n.val m false ∧ s.dev.inCourse = true ∧ s.dev.voted = false ∧ m.arg.toNat % 2 ^ 32 = s.dev.cur) ∧
    (∃ (n : Slot) (m : QMsg) (r : SReq) (s : State), s.dev.up = true ∧ s.dev.takesFrom n.val m true ∧ (s.dev.slot n.val).reqs = [r] ∧ r.seq = m.tag.toNat ∧ r.sb = m.sb ∧ r.note = [] ∧ r.ty = 0x10 ∧ m.status.toNat = stBUSY ∧ s.dev.kState = kOPENING ∧ numAt r.data 0 4 = s.dev.cur ∧ s.dev.get CRS_STEP_STEP ≤ m.arg.toNat ∧ s.dev.voted = false) ∧
    (∃ (n : Slot) (m : QMsg) (r : SReq) (s : State), s.dev.up = true ∧ s.dev.takesFrom n.val m true ∧ (s.dev.slot n.val).reqs = [r] ∧ r.seq = m.tag.toNat ∧ r.sb = m.sb ∧ r.note = [] ∧ r.ty = 0x05 ∧ m.status.toNat = stOK ∧ s.dev.shore.handback = none) ∧
    (∃ (n : Slot) (m : QMsg) (s : State), s.dev.up = true ∧ s.dev.takesFrom n.val m true ∧ (∀ r ∈ (s.dev.slot n.val).reqs, r.seq ≠ m.tag.toNat ∨ r.sb ≠ m.sb)) ∧
    (∃ (n : Slot) (m : QMsg) (s : State), s.dev.runs ∧ s.dev.takesFrom n.val m false ∧ n.val ∉ s.dev.shoredSlots ∧ witLength m.data = some m.data.length ∧ numAt m.data 36 4 = m.data.length ∧ numAt m.data 12 4 = s.dev.slotPos n.val ∧ (Store.find? s.dev.wit.since n.val).getD 0 ≤ numAt m.data 16 8 ∧ numAt m.data 16 8 ≤ s.dev.slotStep n.val + 1 ∧ numAt m.data 24 4 ∈ s.dev.expects n.val (numAt m.data 16 8) (numAt m.data 8 1) ∧ s.dev.wit.queue = []) ∧
    (∃ (s : State), s.dev.runs ∧ s.dev.mmu.reclaim = .spilling ∧ s.dev.mmu.guests = [] ∧ s.dev.shore.slot = none ∧ s.dev.shore.admitted = true) := ⟨
  ⟨2, qm 2 (pack [(4, 9), (4, 1), (8, 0), (8, 123)]), st [jb, crs 1], by decide +kernel⟩,
  ⟨2, qm 0 (List.replicate 8 0 ++ leBytes 4 9 ++ List.replicate 8372 0), st [jb, crs 1, modCourse fun c => { c with cuts := [⟨2, 4, 0, 0, 0, [], false⟩] }], by decide +kernel⟩,
  ⟨2, qm 0 (List.replicate 8384 0), st [jb], by decide +kernel⟩,
  ⟨2, qm 0 [], st [jb, modRst fun r => { r with fencing := 1 }], by decide +kernel⟩,
  ⟨2, { qm 0x200000 (List.replicate 4096 5) with check := BitVec.ofNat 64 (crc64 (List.replicate 4096 5)) }, ⟨2, 0, 0, 0, 2, 513⟩, 1, 0, ⟨0x10000000, 0, 1, 2, 0, 0, false, false, 513, 0, false⟩, st [jb, crs 2, fill], by decide +kernel⟩,
  ⟨2, qm 0x200000 (List.replicate 4096 5), ⟨2, 0, 0, 0, 2, 513⟩, 1, st [jb, crs 2, fill], by decide +kernel⟩,
  ⟨2, qm 0x200000 (List.replicate 4096 5), ⟨2, 0, 0, 0, 2, 513⟩, 1, st [jb, crs 2, fill, modCourse fun c => { c with retried := [(bk 2 1 0, true)] }], by decide +kernel⟩,
  ⟨2, 1, ⟨2, 0, 0, 0, 2, 513⟩, (0, ⟨0x10000000, 0, 1, 2, 0, 0, false, false, 513, 0, false⟩), st [jb, crs 2, fill, put CRS_STAT_UNACKED 2, modCourse fun c => { c with blocks := [(bk 2 1 0, true)] }], by decide +kernel⟩,
  ⟨2, qm 0 (List.replicate 32768 0), st [jb, crs 2, put CRS_STAT_CUT 4], by decide +kernel⟩,
  ⟨2, qm 9, st [jb, crs 2], by decide +kernel⟩,
  ⟨2, qm (9 + 2 ^ 32), st [jb, crs 2], by decide +kernel⟩,
  ⟨2, { qm 30 with status := 9 }, ⟨9, false, 0x10, 0, pack [(4, 9), (4, 0), (8, 20)], []⟩, st [jb, crs 1, modSlot 2 fun x => { x with reqs := [⟨9, false, 0x10, 0, pack [(4, 9), (4, 0), (8, 20)], []⟩] }], by decide +kernel⟩,
  ⟨2, qm, ⟨9, false, 0x05, 20, [], []⟩, st [jb, modSlot 2 fun x => { x with reqs := [⟨9, false, 0x05, 20, [], []⟩] }], by decide +kernel⟩,
  ⟨2, qm, st [jb], by decide +kernel⟩,
  ⟨2, qm 0 (rdRec (List.replicate 256 0)), st [jb, modCourse fun c => { c with steps := [(2, 10)] }, modWit fun x => { x with sel := [(2, (true, 0))] }, modJob fun j => { j with witness := [(0, [(5, 5)])] }], by decide +kernel⟩,
  ⟨st [jb, modMmu fun m => { m with reclaim := .spilling }], by decide +kernel⟩⟩

theorem witness_SlotsBeatAndFail :
    (∃ (n : Slot) (m : QMsg) (s : State), s.dev.up = true ∧ s.dev.takesFrom n.val m true ∧ s.dev.shore.handback = none ∧ m.sb = true ∧ s.dev.slotState n.val = sABSENT ∧ QAG_ID_SPEC.of (BitVec.ofNat 64 (numAt m.data 0 8)) ≤ s.dev.get HUB_ID_AGENT_SPEC) ∧
    (∃ (n : Slot) (m : QMsg) (s : State), s.dev.up = true ∧ s.dev.takesFrom n.val m true ∧ s.dev.shore.handback = none ∧ s.dev.get HUB_ID_AGENT_SPEC < QAG_ID_SPEC.of (BitVec.ofNat 64 (numAt m.data 0 8))) ∧
    (∃ (n : Slot) (m : QMsg) (s : State), s.dev.up = true ∧ s.dev.takesFrom n.val m false ∧ s.dev.slotState n.val = sLIVE ∧ numAt m.data 0 4 ≠ aFENCED) ∧
    (∃ (n : Slot) (t : Nat) (s : State), s.dev.up = true ∧ Store.find? s.dev.shore.deadlines n.val = some t ∧ s.dev.mode.fw = .run ∧ s.dev.halted = false ∧ s.dev.slotState n.val = sLIVE ∧ t ≤ s.dev.clk ∧ (Store.get (fun _ => 0) s.dev.shore.misses n.val + 1 < orElse (s.dev.get SHR_CFG_HB_MISS) 5)) ∧
    (∃ (n : Slot) (t : Nat) (s : State), s.dev.up = true ∧ Store.find? s.dev.shore.deadlines n.val = some t ∧ s.dev.mode.fw = .run ∧ s.dev.halted = false ∧ s.dev.slotState n.val = sLIVE ∧ t ≤ s.dev.clk ∧ (orElse (s.dev.get SHR_CFG_HB_MISS) 5 ≤ Store.get (fun _ => 0) s.dev.shore.misses n.val + 1)) ∧
    (∃ (n : Slot) (m : QMsg) (s : State), s.dev.runs ∧ s.dev.takesFrom n.val m false ∧ m.data.length = 128) ∧
    (∃ (n : Slot) (m : QMsg) (s : State), s.dev.runs ∧ s.dev.takesFrom n.val m false ∧ s.dev.slotState n.val = sLIVE ∧ Store.find? s.dev.shore.fatalAt n.val = none) ∧
    (∃ (n : Slot) (m : QMsg) (s : State), s.dev.up = true ∧ s.dev.halted = true ∧ s.dev.takesFrom n.val m false ∧ Store.find? s.dev.shore.fatalAt n.val = none) ∧
    (∃ (n : Slot) (m : QMsg) (s : State), s.dev.runs ∧ s.dev.takesFrom n.val m false ∧ n.val ∉ s.dev.start.fencing ∧ n.val ∈ s.dev.shore.fencing ∧ s.dev.shore.slot ≠ some n.val) ∧
    (∃ (n : Slot) (m : QMsg) (s : State), s.dev.runs ∧ s.dev.takesFrom n.val m false ∧ n.val ∉ s.dev.start.fencing ∧ n.val ∉ s.dev.shore.fencing ∧ Store.find? s.dev.shore.slots n.val = some .fencing ∧ m.status = 0) ∧
    (∃ (n : Slot) (s : State), s.dev.runs ∧ n.val ∈ s.dev.shore.fencing ∧ s.dev.shore.slot ≠ some n.val) ∧
    (∃ (n : Slot) (s : State), s.dev.runs ∧ n.val ∈ s.dev.shore.fencing ∧ s.dev.shore.slot = some n.val ∧ s.dev.phase = phFENCING) ∧
    (∃ (n : Slot) (m : QMsg) (s : State), s.dev.up = true ∧ s.dev.takesFrom n.val m false ∧ s.dev.phys (s.dev.pmBase + 0x400000 + n.val * 0x10000) = .hbm ∧ (s.dev.peer 0).st = pOPEN ∧ m.arg.toNat / 2 ^ 32 ≠ 3) ∧
    (∃ (n : Slot) (s : State), s.dev.up = true ∧ bitOf (s.dev.get RST_PWR_PGOOD) n.val = true ∧ s.dev.slotState n.val = sIDLE ∧ s.dev.shore.handback = none) ∧
    (∃ (n : Slot) (s : State), s.dev.up = true ∧ bitOf (s.dev.get RST_PWR_PGOOD) n.val = true ∧ s.dev.slotState n.val = sLIVE ∧ s.dev.shore.handback = none) ∧
    (∃ (n : Slot) (s : State), s.dev.up = true ∧ bitOf (s.dev.get RST_PWR_PGOOD) n.val = false ∧ s.dev.slotState n.val = sABSENT ∧ s.dev.shore.handback = none) := ⟨
  ⟨1, { qm 0 (List.replicate 24 0) with sb := true }, st [jb, put (HUB_SLOT_STATE 1) sABSENT, put (LNK_SB_RESET 1) 0], by decide +kernel⟩,
  ⟨1, qm 0 (leBytes 8 (w [(QAG_ID_SPEC, 255)]).toNat), st [jb, put (HUB_SLOT_STATE 1) sABSENT, put (LNK_SB_RESET 1) 0], by decide +kernel⟩,
  ⟨2, qm 30 (pack [(4, 4), (12, 0)]), st [jb], by decide +kernel⟩,
  ⟨2, 100, st [jb, .act (.clk 1000), modShore fun x => { x with deadlines := [(2, 100)] }], by decide +kernel⟩,
  ⟨2, 100, st [jb, .act (.clk 1000), put SHR_CFG_HB_MISS 5, modShore fun x => { x with deadlines := [(2, 100)], misses := [(2, 4)] }], by decide +kernel⟩,
  ⟨2, qm 0 (List.replicate 64 0 ++ leBytes 8 2 ++ List.replicate 56 0), st [jb], by decide +kernel⟩,
  ⟨2, qm 0 (List.replicate 16 0), st [jb], by decide +kernel⟩,
  ⟨2, qm 0 (List.replicate 16 0), st [jb, put TAL_HALT_HALTED 1], by decide +kernel⟩,
  ⟨2, qm, st [jb, put (HUB_SLOT_STATE 2) sFENCED, modShore fun x => { x with fencing := [2] }], by decide +kernel⟩,
  ⟨2, qm, st [jb, modShore fun x => { x with slots := [(2, .fencing)] }], by decide +kernel⟩,
  ⟨2, st [jb, put (HUB_SLOT_STATE 2) sFENCED, modShore fun x => { x with fencing := [2] }], by decide +kernel⟩,
  ⟨2, st [jb, put (HUB_SLOT_STATE 2) sFENCED, put SHR_STAT_PHASE phFENCING, modShore fun x => { x with fencing := [2], slot := some 2 }], by decide +kernel⟩,
  ⟨2, qm 0 (List.replicate 16 1), st [jb, paired], by decide +kernel⟩,
  ⟨2, st [jb, put RST_PWR_PGOOD 4, put (HUB_SLOT_STATE 2) sIDLE], by decide +kernel⟩,
  ⟨2, st [jb, put RST_PWR_PGOOD 4], by decide +kernel⟩,
  ⟨1, st [jb, put RST_PWR_PGOOD 4, put (HUB_SLOT_STATE 1) sABSENT], by decide +kernel⟩⟩

theorem witness_RewindsOnTheTray :
    (∃ (m : NMsg) (s : State), s.dev.runs ∧ s.dev.accepts m false 24 ∧ numAt m.data 16 2 ≠ 0 ∧ s.dev.get SHR_REWIND_NUMBER ≤ numAt m.data 0 4 ∧ s.dev.inCourse = false ∧ s.dev.shore.slot = none ∧ s.dev.phase = phIDLE ∧ s.dev.shore.admitted = true ∧ s.dev.shore.inPlace = [] ∧ s.dev.live ≠ [] ∧ s.dev.start.joining = false ∧ s.dev.shore.planTaken ≠ some (numAt m.data 0 4, s.dev.get CRS_ROOT_ADDR) ∧ s.dev.shore.handback = none ∧ s.dev.shore.cover = none) ∧
    (∃ (m : NMsg) (s : State), s.dev.runs ∧ s.dev.accepts m false 24 ∧ numAt m.data 16 2 ≠ 0 ∧ numAt m.data 0 4 < s.dev.get SHR_REWIND_NUMBER) ∧
    (∃ (m : NMsg) (p : Plan) (s : State), s.dev.runs ∧ s.dev.accepts m false 8 ∧ s.dev.isRoot = true ∧ s.dev.shore.rooting = true ∧ s.dev.shore.plan = some p ∧ numAt m.data 0 4 = p.num ∧ numAt m.data 4 2 ∉ s.dev.shore.rewound ∧ numAt m.data 4 2 < s.dev.nOz ∧ numAt m.data 6 1 = 0 ∧ s.dev.shore.rewound.length + 1 ≠ s.dev.nOz) ∧
    (∃ (m : NMsg) (p : Plan) (s : State), s.dev.runs ∧ s.dev.accepts m false 8 ∧ s.dev.isRoot = true ∧ s.dev.shore.rooting = true ∧ s.dev.shore.plan = some p ∧ numAt m.data 0 4 = p.num ∧ numAt m.data 4 2 ∉ s.dev.shore.rewound ∧ numAt m.data 4 2 < s.dev.nOz ∧ numAt m.data 6 1 = 0 ∧ s.dev.shore.rewound.length + 1 = s.dev.nOz ∧ s.dev.shore.noSource = false) ∧
    (∃ (m : NMsg) (p : Plan) (s : State), s.dev.runs ∧ s.dev.accepts m false 16 ∧ s.dev.shore.plan = some p ∧ p.num = numAt m.data 0 4 ∧ s.dev.shore.admitted = false ∧ s.dev.shore.slot = none ∧ s.dev.shore.handback = none ∧ s.dev.start.joining = false ∧ s.dev.phase = phREWINDING ∧ s.dev.shore.cover = none) ∧
    (∃ (e : Nat × Watch) (p : Plan) (s : State), s.dev.runs ∧ s.dev.barrierWatch .rewindBarrier = some e ∧ e.2.deadline ≠ 0 ∧ e.2.deadline ≤ s.dev.podTime ∧ s.dev.shore.rooting = true ∧ s.dev.shore.noSource = false ∧ s.dev.shore.plan = some p) ∧
    (∃ (p : Plan) (h : Held) (s : State), s.dev.runs ∧ s.dev.flightOver = true ∧ s.dev.promotionOver = false ∧ s.dev.shore.plan = some p ∧ s.dev.restoring = some h) ∧
    (∃ (n : Nat) (e : MEnt) (r : Region) (pa : Nat) (s : State), s.dev.runs ∧ s.dev.shore.slot = some n ∧ s.dev.shore.fenceOver = true ∧ s.dev.phase = phPROMOTING ∧ s.dev.promotionList = [e] ∧ (s.dev.slotTable n).region e.region = some r ∧ (e.region, e.shard) ∉ s.dev.shore.done_ ∧ s.dev.shardWhole e = true ∧ e.len ≤ 512 ∧ s.dev.jobPhys (r.base + e.offset) = some pa ∧ s.dev.phys pa = .hbm) ∧
    (∃ (s : State), s.dev.runs ∧ s.dev.flightOver = false) ∧
    (∃ (n : Nat) (p : Plan) (h : Held) (s : State), s.dev.runs ∧ s.dev.promotionOver = true ∧ s.dev.flightOver = true ∧ s.dev.shore.slot = some n ∧ s.dev.shore.plan = some p ∧ s.dev.restoring = some h ∧ s.dev.sync.win = .draining ∧ (∀ t, t < 256 → (s.dev.tile t).owner ≠ oJOB) ∧ ((((s.dev.posOf n).bind fun q => s.dev.job.images[q.program]?).getD []).length ≤ s.dev.kernelTiles.length)) ∧
    (∃ (n : Nat) (p : Plan) (h : Held) (s : State), s.dev.runs ∧ s.dev.promotionOver = true ∧ s.dev.flightOver = true ∧ s.dev.shore.slot = some n ∧ s.dev.shore.plan = some p ∧ s.dev.restoring = some h ∧ s.dev.sync.win ≠ .draining ∧ s.dev.shore.handback = none ∧ (∀ t, t < 256 → (s.dev.tile t).owner ≠ oJOB) ∧ ((((s.dev.posOf n).bind fun q => s.dev.job.images[q.program]?).getD []).length ≤ s.dev.kernelTiles.length)) ∧
    (∃ (v : W64) (s : State), s.dev.up = true ∧ SHR_CTRL_DECLARE.of v = 1 ∧ SHR_CTRL_HANDBACK.of v = 0 ∧ s.dev.slotState (SHR_CTRL_DSLOT.of v) = sLIVE) ∧
    (∃ (v : W64) (n : Nat) (s : State), s.dev.up = true ∧ SHR_CTRL_HANDBACK.of v = 1 ∧ SHR_CTRL_DECLARE.of v = 0 ∧ s.dev.on SHR_CTRL_HANDBACK = false ∧ s.dev.shore.slot = some n ∧ n < 8 ∧ s.dev.slotState n = sSHORED ∧ s.dev.phase = phRUNNING ∧ s.dev.shore.handback = none ∧ s.dev.shrCfg SHR_CFG_HB_LIVE = 0 ∧ uSlot n ∉ s.dev.rst.out ∧ n ∉ s.dev.rst.cycle) ∧
    (∃ (v : W64) (s : State), s.dev.up = true ∧ SHR_CTRL_HANDBACK.of v = 1 ∧ SHR_CTRL_DECLARE.of v = 0 ∧ s.dev.on SHR_CTRL_HANDBACK = false ∧ s.dev.shore.slot = none) ∧
    (∃ (h : Handback) (s : State), s.dev.runs ∧ s.dev.shore.handback = some h ∧ h.slot < 8 ∧ h.step = .power ∧ h.moved = false ∧ s.dev.shore.admitted = true) ∧
    (∃ (h : Handback) (s : State), s.dev.runs ∧ s.dev.shore.handback = some h ∧ h.slot < 8 ∧ h.step = .hello ∧ h.moved = false ∧ s.dev.shore.admitted = false ∧ s.dev.phase = phPROMOTING ∧ s.dev.shoreReady = false) ∧
    (∃ (h : Handback) (s : State), s.dev.runs ∧ s.dev.shore.handback = some h ∧ h.slot < 8 ∧ h.step = .hello ∧ h.moved = false ∧ s.dev.shore.admitted = true) ∧
    (∃ (h : Handback) (s : State), s.dev.runs ∧ s.dev.shore.handback = some h ∧ h.step = .copying ∧ s.dev.localDirty = []) ∧
    (∃ (receiver : W32) (step : W64) (seq : BitVec 24) (attempt : BitVec 2) (addr : W64) (bs : List Byte) (s : State), s.dev.runs ∧ s.dev.shoredLive = true ∧ attempt.toNat = 1 ∧ bs ≠ [] ∧ bs.length ≤ 4096 ∧ ((s.dev.shore.repoints.all fun e => decide (e.1 ≠ (receiver.toNat, step.toNat, seq.toNat))) = true)) ∧
    (∃ (receiver : W32) (step : W64) (seq : BitVec 24) (attempt : BitVec 2) (addr : W64) (bs : List Byte) (n : Nat) (s : State), s.dev.runs ∧ s.dev.shoredLive = true ∧ attempt.toNat = 3 ∧ s.dev.shore.slot = some n ∧ n < 8) := ⟨
  ⟨nm 67 (pack [(4, 3), (4, 8), (8, 20), (2, 1), (2, 0), (4, 8)]), st [jb], by decide +kernel⟩,
  ⟨nm 67 (pack [(4, 3), (4, 8), (8, 20), (2, 1), (2, 0), (4, 8)]), st [jb, put SHR_REWIND_NUMBER 5], by decide +kernel⟩,
  ⟨nm 67 (pack [(4, 3), (2, 1), (2, 0)]), plan3, st [rt, modShore fun x => { x with rooting := true, plan := some plan3 }], by decide +kernel⟩,
  ⟨nm 67 (pack [(4, 3), (2, 1), (2, 0)]), plan3, st [rt, modShore fun x => { x with rooting := true, plan := some plan3, rewound := [0] }], by decide +kernel⟩,
  ⟨nm 67 (pack [(4, 3), (4, 0), (8, 20)]), plan3, st [jb, put SHR_STAT_PHASE phREWINDING, modShore fun x => { x with plan := some plan3, admitted := false, slots := [(2, .set)] }], by decide +kernel⟩,
  ⟨(0, ⟨0, 0, 5, .rewindBarrier⟩), plan3, st [rt, .act (.podTime 10), .act (.watch 0 (some ⟨0, 0, 5, .rewindBarrier⟩)), modShore fun x => { x with rooting := true, plan := some plan3 }], by decide +kernel⟩,
  ⟨plan3, held8, st [jb, .act (.clk 100000), modShore fun x => { x with plan := some plan3, slots := [(2, .loaded)] }, modCourse fun c => { c with held := [held8] }], by decide +kernel⟩,
  ⟨2, ent8, ⟨0, 0x200000, 513, true, false, false⟩, 0x600000, st [jb, put SHR_STAT_PHASE phPROMOTING, put (HUB_SLOT_STATE 2) sSHORED, modJob fun j => { j with regions := [(4, regs4 1)] }, modShore fun x => { x with plan := some plan3, slot := some 2, fenceOver := true }, modCourse fun c => { c with held := [held8] }, map1], by decide +kernel, by decide +kernel, by decide +kernel, by decide +kernel, by decide +kernel, by decide +kernel, by decide +kernel, shardWhole_zeros (by decide +kernel) (by decide +kernel) (sha256_zeros_4096.trans (by decide +kernel)), by decide +kernel, selfTable_jobPhys (by decide +kernel) (by decide), by decide +kernel⟩,
  ⟨st [jb], by decide +kernel⟩,
  ⟨2, plan3, held8, st [jb, .act (.clk 100000), put SHR_STAT_PHASE phPROMOTING, put (HUB_SLOT_STATE 2) sSHORED, modJob fun j => { j with regions := [(4, regs4)], images := [[List.replicate 128 0]] }, modShore fun x => { x with plan := some plan3, slot := some 2, fenceOver := true, done_ := [(0, 0)] }, modCourse fun c => { c with held := [held8] }, modSync fun x => { x with win := .draining }], by decide +kernel⟩,
  ⟨2, plan3, held8, st [jb, .act (.clk 100000), put SHR_STAT_PHASE phPROMOTING, put (HUB_SLOT_STATE 2) sSHORED, modJob fun j => { j with regions := [(4, regs4)], images := [[List.replicate 128 0]] }, modShore fun x => { x with plan := some plan3, slot := some 2, fenceOver := true, done_ := [(0, 0)] }, modCourse fun c => { c with held := [held8] }], by decide +kernel⟩,
  ⟨w [(SHR_CTRL_DECLARE, 1), (SHR_CTRL_DSLOT, 2)], st [jb], by decide +kernel⟩,
  ⟨w [(SHR_CTRL_HANDBACK, 1)], 2, st [jb, put SHR_STAT_PHASE phRUNNING, put (HUB_SLOT_STATE 2) sSHORED, put SHR_CFG_HB_LIVE 0, modShore fun x => { x with slot := some 2 }], by decide +kernel⟩,
  ⟨w [(SHR_CTRL_HANDBACK, 1)], st [jb], by decide +kernel⟩,
  ⟨{ slot := 2, live := false, step := .power }, st [jb, modShore fun x => { x with slot := some 2, handback := some { slot := 2, live := false, step := .power } }], by decide +kernel⟩,
  ⟨{ slot := 2, live := false, step := .hello }, st [jb, put SHR_STAT_PHASE phPROMOTING, modShore fun x => { x with slot := some 2, admitted := false, handback := some { slot := 2, live := false, step := .hello } }], by decide +kernel⟩,
  ⟨{ slot := 2, live := false, step := .hello }, st [jb, modShore fun x => { x with slot := some 2, handback := some { slot := 2, live := false, step := .hello } }], by decide +kernel⟩,
  ⟨{ slot := 2, live := true, step := .copying }, st [jb, modShore fun x => { x with slot := some 2, handback := some { slot := 2, live := true, step := .copying } }], by decide +kernel⟩,
  ⟨5, 20, 3, 1, 0x40, List.replicate 64 7, st [jb, put SHR_STAT_PHASE phRUNNING], by decide +kernel⟩,
  ⟨5, 20, 3, 3, 0x40, List.replicate 64 7, 2, st [jb, put SHR_STAT_PHASE phRUNNING, modShore fun x => { x with slot := some 2 }], by decide +kernel⟩⟩

theorem witness_WitnessesComparedAndEventsCounted :
    (∃ (r : WRec) (s : State), s.dev.runs ∧ s.dev.wit.queue = [r] ∧ s.dev.tilesFor r ≠ [] ∧ r.badOrder = false ∧ r.recompute = r.result) ∧
    (∃ (r : WRec) (s : State), s.dev.runs ∧ s.dev.wit.queue = [r] ∧ s.dev.tilesFor r ≠ [] ∧ r.badOrder = false ∧ r.recompute ≠ r.result ∧ r.slot < 8 ∧ s.dev.slotState r.slot = sLIVE ∧ s.dev.shoredSlots = [] ∧ s.dev.on WIT_CTRL_ACTION = false) ∧
    (∃ (r : WRec) (x : List Byte) (s : State), s.dev.runs ∧ s.dev.wit.queue = [r] ∧ s.dev.tilesFor r ≠ [] ∧ r.badOrder = false ∧ r.recompute = r.result ∧ x ≠ r.result) ∧
    (∃ (s : State), s.dev.runs ∧ s.dev.kState = kSEALING ∧ s.dev.voted = false ∧ s.dev.gateHolds = true ∧ s.dev.paired = false ∧ s.dev.job.groups = []) ∧
    (∃ (pos : W32) (step : W64) (p : PosRec) (s : State), s.dev.runs ∧ ((s.dev.myPositions.find? fun q => decide (q.pos = pos.toNat)) = some p) ∧ p.slot < 8) := ⟨
  ⟨⟨2, rdRec (List.replicate 256 0), [], false⟩, st [jb, modTile 255 fun t => t.set TLE_CTRL_OWNER 2, modWit fun x => { x with queue := [⟨2, rdRec (List.replicate 256 0), [], false⟩] }], by decide +kernel⟩,
  ⟨⟨2, rdRec (List.replicate 256 1), [], false⟩, st [jb, modTile 255 fun t => t.set TLE_CTRL_OWNER 2, modWit fun x => { x with queue := [⟨2, rdRec (List.replicate 256 1), [], false⟩] }], by decide +kernel⟩,
  ⟨⟨2, rdRec (List.replicate 256 0), [], false⟩, List.replicate 256 1, st [jb, modTile 255 fun t => t.set TLE_CTRL_OWNER 2, modWit fun x => { x with queue := [⟨2, rdRec (List.replicate 256 0), [], false⟩] }], by decide +kernel⟩,
  ⟨st [jb, crs 3, put WIT_CTRL_EN 1, put WIT_CTRL_GATE 1, put WIT_CFG_GATE_MS 5, modWit fun x => { x with expected := [(2, 0, 1, 0)] }], by decide +kernel⟩,
  ⟨4, 20, ⟨4, 0, 2, true, 0, 0⟩, st [jb], by decide +kernel⟩⟩

theorem witness_CrossconnectMovesAndDetours :
    (∃ (v : W64) (s : State), s.dev.up = true ∧ XCN_CTRL_GO.of v = 1 ∧ XCN_CTRL_PWR_EN.of v = s.dev.get XCN_CTRL_PWR_EN ∧ s.dev.on XCN_CTRL_AUTH = true ∧ s.dev.on XCN_STAT_PGOOD = true ∧ s.dev.on XCN_STAT_BUSY = false ∧ s.dev.get XCN_STAT_MAP = 0) ∧
    (∃ (v : W64) (s : State), s.dev.up = true ∧ XCN_CTRL_GO.of v = 1 ∧ s.dev.on XCN_CTRL_AUTH = true ∧ (s.dev.on XCN_STAT_PGOOD = false ∨ s.dev.on XCN_STAT_BUSY = true ∨ (s.dev.get XCN_STAT_MAP ≠ 0 ∧ s.dev.get XCN_STAT_MAP ≠ 2 ^ XCN_CTRL_SLOT.of v))) ∧
    (∃ (v : W64) (s : State), s.dev.up = true ∧ XCN_CTRL_GO.of v = 1 ∧ XCN_CTRL_PWR_EN.of v = s.dev.get XCN_CTRL_PWR_EN ∧ s.dev.on XCN_CTRL_AUTH = false) ∧
    (∃ (v : W64) (s : State), s.dev.up = true ∧ XCN_DETOUR_GO.of v = 1 ∧ XCN_DETOUR_ON.of v = 1 ∧ s.dev.on XCN_STAT_PGOOD = true ∧ s.dev.on XCN_STAT_BUSY = false ∧ s.dev.get XCN_STAT_MAP = 0 ∧ s.dev.mayDetour (XCN_DETOUR_SLOT.of v) = true) ∧
    (∃ (v : W64) (s : State), s.dev.up = true ∧ XCN_DETOUR_GO.of v = 1 ∧ XCN_DETOUR_ON.of v = 0 ∧ s.dev.on XCN_CTRL_AUTH = true ∧ s.dev.on XCN_STAT_PGOOD = true ∧ s.dev.on XCN_STAT_BUSY = true) ∧
    (∃ (v : W64) (s : State), s.dev.up = true ∧ XCN_CTRL_GO.of v = 0 ∧ XCN_CTRL_PWR_EN.of v ≠ s.dev.get XCN_CTRL_PWR_EN) ∧
    (∃ (op : XOp) (s : State), s.dev.up = true ∧ s.dev.on XCN_STAT_BUSY = false ∧ s.dev.xcn.op = none ∧ s.dev.xcn.waiting = [op] ∧ s.dev.on XCN_STAT_PGOOD = true ∧ s.dev.xcnRefuses op = false ∧ s.dev.on XCN_CTRL_AUTH = true ∧ (match op with | .detour slot true => s.dev.mayDetour slot | _ => true) = true) ∧
    (∃ (slot : Nat) (s : State), s.dev.up = true ∧ s.dev.on XCN_STAT_BUSY = false ∧ s.dev.xcn.op = none ∧ s.dev.xcn.waiting = [.detour slot true] ∧ s.dev.mayDetour slot = false) ∧
    (∃ (m : XMap) (bad : Fin 5) (slot : Nat) (dir : Bool) (s : State), s.dev.up = true ∧ s.dev.on XCN_STAT_BUSY = true ∧ s.dev.xcn.op = some (.move slot dir false) ∧ bad.val < 4 ∧ m.map.toNat = (if dir then 2 ^ slot else 0)) ∧
    (∃ (m : XMap) (slot : Nat) (dir : Bool) (s : State), s.dev.up = true ∧ s.dev.on XCN_STAT_BUSY = true ∧ s.dev.xcn.op = some (.move slot dir false)) ∧
    (∃ (slot : Nat) (dir : Bool) (s : State), s.dev.up = true ∧ s.dev.xcn.op = some (.move slot dir false)) ∧
    (∃ (m : XMap) (s : State), s.dev.up = true ∧ s.dev.on XCN_STAT_PGOOD = false ∧ m.map = 0 ∧ m.detour.toNat / 128 = 0 ∧ m.park = 1 ∧ m.state.toNat % 4 = 1) ∧
    (∃ (m : XMap) (s : State), s.dev.up = true ∧ s.dev.on XCN_STAT_PGOOD = false) ∧
    (∃ (s : State), s.dev.up = true ∧ s.dev.on XCN_STAT_PGOOD = true ∧ s.dev.get XCN_STAT_MAP = 0 ∧ s.dev.xcn.op = none ∧ s.dev.on XCN_DETOUR_ACTIVE = false) ∧
    (∃ (n : Nat) (s : State), s.dev.up = true ∧ s.dev.on XCN_STAT_PGOOD = true ∧ s.dev.get XCN_STAT_MAP ≠ 0 ∧ s.dev.shore.slot = some n ∧ n < 8 ∧ s.dev.xcn.op = none) := ⟨
  ⟨w [(XCN_CTRL_GO, 1), (XCN_CTRL_SLOT, 2), (XCN_CTRL_DIR, 1), (XCN_CTRL_PWR_EN, 1)], st [xc], by decide +kernel⟩,
  ⟨w [(XCN_CTRL_GO, 1), (XCN_CTRL_SLOT, 2), (XCN_CTRL_DIR, 1), (XCN_CTRL_PWR_EN, 1)], st [xc, put XCN_STAT_BUSY 1], by decide +kernel⟩,
  ⟨w [(XCN_CTRL_GO, 1), (XCN_CTRL_SLOT, 2), (XCN_CTRL_DIR, 1), (XCN_CTRL_PWR_EN, 1)], st [xc, put XCN_CTRL_AUTH 0], by decide +kernel⟩,
  ⟨w [(XCN_DETOUR_GO, 1), (XCN_DETOUR_ON, 1), (XCN_DETOUR_SLOT, 2)], st [xc, put (LNK_STAT_STATE 19) lPARKED], by decide +kernel⟩,
  ⟨w [(XCN_DETOUR_GO, 1), (XCN_DETOUR_SLOT, 2)], st [xc, put XCN_STAT_BUSY 1], by decide +kernel⟩,
  ⟨0, st [xc], by decide +kernel⟩,
  ⟨.move 2 true true, st [xc, modXcn fun x => { x with waiting := [.move 2 true true] }], by decide +kernel⟩,
  ⟨2, st [xc, modXcn fun x => { x with waiting := [.detour 2 true] }], by decide +kernel⟩,
  ⟨⟨4, 0, 0, 0⟩, 1, 2, true, st [xc, put XCN_STAT_BUSY 1, modXcn fun x => { x with op := some (.move 2 true false) }], by decide +kernel⟩,
  ⟨⟨4, 0, 0, 0⟩, 2, true, st [xc, put XCN_STAT_BUSY 1, modXcn fun x => { x with op := some (.move 2 true false) }], by decide +kernel⟩,
  ⟨2, true, st [xc, put XCN_STAT_BUSY 1, modXcn fun x => { x with op := some (.move 2 true false) }], by decide +kernel⟩,
  ⟨⟨0, 0, 1, 1⟩, st [xc, put XCN_STAT_PGOOD 0], by decide +kernel⟩,
  ⟨⟨0, 0, 1, 1⟩, st [xc, put XCN_STAT_PGOOD 0], by decide +kernel⟩,
  ⟨st [xc], by decide +kernel⟩,
  ⟨2, st [xc, put XCN_STAT_MAP 4, modShore fun x => { x with slot := some 2 }], by decide +kernel⟩⟩

theorem witness_PartnersAndFarCopies :
    (∃ (s : State), s.dev.runs ∧ s.dev.mode.legal = true ∧ s.dev.mode.partner ≠ .solo ∧ (s.dev.peer 0).st ≠ pOPEN ∧ ((s.dev.hold.pulse.all fun t => decide (t + max (s.dev.get RNG_CFG_LOST_MS) (3 * max 1 (s.dev.get RNG_CFG_PULSE_MS)) * 700000 ≤ s.dev.clk)) = true)) ∧
    (∃ (m : NMsg) (s : State), s.dev.up = true ∧ s.dev.mode.legal = true ∧ s.dev.accepts m true 32 ∧ m.src.toNat = s.dev.partnerAddr ∧ numAt m.data 0 4 = s.dev.partnerAddr ∧ numAt m.data 12 2 = s.dev.get HUB_PART_PARTITION ∧ numAt m.data 7 1 ≠ Role.quarantine.code ∧ s.dev.mode.partner = .solo ∧ s.dev.epoch = 0 ∧ numAt m.data 24 4 = noCourse) ∧
    (∃ (m : NMsg) (s : State), s.dev.up = true ∧ s.dev.mode.legal = true ∧ s.dev.accepts m true 32 ∧ m.src.toNat = s.dev.partnerAddr ∧ numAt m.data 0 4 = s.dev.partnerAddr ∧ numAt m.data 12 2 ≠ s.dev.get HUB_PART_PARTITION) ∧
    (∃ (m : NMsg) (n : Nat) (s : State), s.dev.up = true ∧ s.dev.accepts m true 28 ∧ s.dev.fromPartner m ∧ s.dev.sessionTo m.src.toNat = some n ∧ m.src.toNat ≠ s.dev.ownAddr) ∧
    (∃ (m : NMsg) (n : Nat) (s : State), s.dev.up = true ∧ s.dev.accepts m true 24 ∧ s.dev.fromPartner m ∧ s.dev.sessionTo m.src.toNat = some n ∧ m.src.toNat ≠ s.dev.ownAddr) ∧
    (∃ (m : NMsg) (s : State), s.dev.runs ∧ s.dev.accepts m true 12 ∧ s.dev.fromPartner m ∧ numAt m.data 8 1 = stOK ∧ s.dev.hPhase ≠ hLOADING) ∧
    (∃ (m : NMsg) (s : State), s.dev.runs ∧ s.dev.accepts m true 8 ∧ s.dev.fromPartner m ∧ numAt m.data 4 1 = stOK ∧ s.dev.kState = kSEALING ∧ s.dev.cur = numAt m.data 0 4 ∧ s.dev.course.mirrorSent = true ∧ s.dev.hPhase ≠ hLOADING ∧ s.dev.mode.partner = .paired ∧ s.dev.voted = false ∧ s.dev.job.groups = [] ∧ s.dev.gateHolds = false) ∧
    (∃ (m : NMsg) (s : State), s.dev.up = true ∧ s.dev.accepts m true 16 ∧ s.dev.fromPartner m ∧ numAt m.data 4 4 = 0 ∧ s.dev.start.ordered = false ∧ s.dev.epoch = 0 ∧ s.dev.hold.reserveEpoch ≠ numAt m.data 0 4 ∧ numAt m.data 8 8 * 512 ≤ s.dev.ddrUpPages - s.dev.mmu.reservedTier - s.dev.homePages.length ∧ m.src.toNat ≠ s.dev.ownAddr) ∧
    (∃ (m : NMsg) (s : State), s.dev.up = true ∧ s.dev.accepts m true 16 ∧ s.dev.fromPartner m ∧ numAt m.data 4 4 = 0 ∧ s.dev.start.ordered = false ∧ s.dev.epoch = 0 ∧ s.dev.ddrUpPages - s.dev.mmu.reservedTier - s.dev.homePages.length < numAt m.data 8 8 * 512 ∧ m.src.toNat ≠ s.dev.ownAddr) ∧
    (∃ (m : NMsg) (s : State), s.dev.up = true ∧ s.dev.accepts m true 16 ∧ s.dev.fromPartner m ∧ numAt m.data 4 4 = 0 ∧ s.dev.start.ordered = true) ∧
    (∃ (m : NMsg) (s : State), s.dev.up = true ∧ s.dev.accepts m true 8 ∧ s.dev.fromPartner m) ∧
    (∃ (m : NMsg) (s : State), s.dev.up = true ∧ s.dev.accepts m true 8 ∧ s.dev.fromPartner m ∧ numAt m.data 4 1 = 0) ∧
    (∃ (m : NMsg) (s : State), s.dev.up = true ∧ s.dev.accepts m true 8 ∧ s.dev.fromPartner m ∧ s.dev.hPhase ≠ hPARSED) ∧
    (∃ (m : NMsg) (s : State), s.dev.up = true ∧ s.dev.accepts m false 40 ∧ m.src.toNat ≠ s.dev.partnerAddr ∧ numAt m.data 0 4 = s.dev.peerEpoch ∧ s.dev.peerEpoch ≠ 0 ∧ s.dev.job.z = [] ∧ s.dev.hPhase ≠ hINTAKE) ∧
    (∃ (m : NMsg) (s : State), s.dev.up = true ∧ s.dev.accepts m true 40 ∧ s.dev.fromPartner m ∧ s.dev.job.z ≠ []) := ⟨
  ⟨st [jb, modMode fun m => { m with partner := .paired }], by decide +kernel⟩,
  ⟨nm 66 (pack [(4, 66), (3, 0), (1, 0), (4, 7), (2, 0), (10, 0), (4, noCourse), (4, 0)]), st [jb, ps 0 66 2, put HUB_ROLE_JOB_EPOCH 0], by decide +kernel⟩,
  ⟨nm 66 (pack [(4, 66), (3, 0), (1, 0), (4, 7), (2, 1), (10, 0), (4, noCourse), (4, 0)]), st [jb, ps 0 66 2], by decide +kernel⟩,
  ⟨nm 66 (pack [(4, 9), (4, 7), (2, 3), (2, 0), (8, 4096), (4, 1), (4, 8)]), 0, st [jb, paired], by decide +kernel⟩,
  ⟨nm 66 (pack [(4, 9), (4, 7), (2, 3), (2, 0), (8, 4096), (4, 1)]), 0, st [jb, paired, holds], by decide +kernel⟩,
  ⟨nm 66 (pack [(4, 9), (4, 3), (1, 0), (3, 0)]), st [jb, paired, modCourse fun c => { c with farWait := [3] }], by decide +kernel⟩,
  ⟨nm 66 (pack [(4, 9), (1, 0), (3, 0)]), st [jb, paired, crs 3, modCourse fun c => { c with mirrorSent := true }], by decide +kernel⟩,
  ⟨nm 66 (pack [(4, 6), (4, 0), (8, 1)]), st [jb, paired, put HUB_ROLE_JOB_EPOCH 0, put (MEM_DDR_CH_STATE 0) 1, put MEM_DDR_CFG_D 2048], by decide +kernel⟩,
  ⟨nm 66 (pack [(4, 6), (4, 0), (8, 8)]), st [jb, paired, put HUB_ROLE_JOB_EPOCH 0, put (MEM_DDR_CH_STATE 0) 1, put MEM_DDR_CFG_D 2048], by decide +kernel⟩,
  ⟨nm 66 (pack [(4, 6), (4, 0), (8, 8)]), st [jb, paired, modStart fun x => { x with ordered := true }], by decide +kernel⟩,
  ⟨nm 66 (pack [(4, 9), (4, 7)]), st [jb, paired, holds], by decide +kernel⟩,
  ⟨nm 66 (pack [(4, 7), (4, 0)]), st [jb, paired, holds], by decide +kernel⟩,
  ⟨nm 66 (pack [(4, 7), (4, 0)]), st [jb, paired, modHold fun h => { h with tearing := true }], by decide +kernel⟩,
  ⟨nm 67 (pack [(4, 7), (4, 0)] ++ k32), st [jb], by decide +kernel⟩,
  ⟨nm 66 (pack [(4, 7), (4, 0)] ++ k32), st [jb, paired, modJob fun j => { j with z := k32 }], by decide +kernel⟩⟩

theorem witness_TheTreeAndThePackage :
    (∃ (m : NMsg) (n : Nat) (s : State), s.dev.up = true ∧ s.dev.accepts m false 16 ∧ s.dev.sessionTo m.src.toNat = some n ∧ m.src.toNat ≠ s.dev.ownAddr ∧ s.dev.hPhase = hSTAGING ∧ numAt m.data 0 4 ∉ s.dev.heldChunks ∧ s.dev.start.head ≠ [] ∧ numAt m.data 0 4 < pkgChunks s.dev.start.head) ∧
    (∃ (m : NMsg) (s : State), s.dev.up = true ∧ s.dev.accepts m false (8 + 32 * numAt m.data 0 4) ∧ 1 ≤ numAt m.data 0 4 ∧ numAt m.data 0 4 ≤ 127) ∧
    (∃ (m : NMsg) (s : State), s.dev.up = true ∧ s.dev.accepts m false 8 ∧ m.src.toNat ∉ s.dev.children) ∧
    (∃ (t : Nat) (s : State), s.dev.runs ∧ s.dev.hPhase = hSTAGING ∧ s.dev.start.head ≠ [] ∧ s.dev.packageHeld = false ∧ s.dev.parent.isSome = true ∧ (((ancestors 4 (s.dev.get HUB_TREE_PARENT) ++ [s.dev.get HUB_TREE_PARENT]).find? fun t => (s.dev.treeAddr t).any s.dev.openWith) = some t)) ∧
    (∃ (s : State), s.dev.runs ∧ s.dev.isRoot = true ∧ s.dev.hPhase = hSTAGING ∧ (∃ j, j < pkgChunks s.dev.start.head ∧ j ∉ s.dev.heldChunks)) ∧
    (∃ (m : NMsg) (loc : Nat) (len : Nat) (s : State), s.dev.up = true ∧ s.dev.accepts m false 40 ∧ numAt m.data 4 4 = 0 ∧ s.dev.findShard (m.data.drop 8) = some (loc, len)) ∧
    (∃ (m : NMsg) (s : State), s.dev.up = true ∧ s.dev.accepts m false 40 ∧ numAt m.data 4 4 = 0 ∧ s.dev.findShard (m.data.drop 8) = none ∧ s.dev.hPhase = hSTARTED ∧ m.src.toNat ≠ s.dev.ownAddr) ∧
    (∃ (m : NMsg) (n : Nat) (e : MEnt) (s : State), s.dev.up = true ∧ s.dev.accepts m false 48 ∧ s.dev.sessionTo m.src.toNat = some n ∧ m.src.toNat ≠ s.dev.ownAddr ∧ s.dev.wanted (cut_ m.data 8 32) = some e) ∧
    (∃ (m : NMsg) (n : Nat) (h : Held) (s : State), s.dev.up = true ∧ s.dev.accepts m false 8 ∧ s.dev.sessionTo m.src.toNat = some n ∧ m.src.toNat ≠ s.dev.ownAddr ∧ s.dev.epoch = m.epoch.toNat ∧ numAt m.data 4 2 = s.dev.get CRS_ROOT_MEMBER ∧ ((s.dev.course.held.find? fun x => decide (x.course = numAt m.data 0 4)) = some h)) ∧
    (∃ (s : State), s.dev.up = true ∧ s.dev.hPhase = hSTAGING ∧ s.dev.packageHeld = true ∧ s.dev.manifestAreaOk = true ∧ s.dev.get SPR_MODE_MODE = 0 ∧ s.dev.hold.tearing = true) ∧
    (∃ (m : NMsg) (s : State), s.dev.up = true ∧ s.dev.accepts m false 8 ∧ s.dev.isRoot = true ∧ numAt m.data 0 2 < s.dev.nOz ∧ numAt m.data 2 1 = stOK ∧ ((s.dev.start.ready.all fun r => decide (r.1 ≠ numAt m.data 0 2) && decide (r.2 = stOK)) = true) ∧ s.dev.hPhase < hSTARTED ∧ s.dev.start.ready.length + 1 = s.dev.nOz) ∧
    (∃ (m : NMsg) (s : State), s.dev.up = true ∧ s.dev.accepts m false 8 ∧ s.dev.isRoot = true ∧ numAt m.data 0 2 < s.dev.nOz ∧ numAt m.data 2 1 ≠ stOK ∧ ((s.dev.start.ready.all fun r => decide (r.1 ≠ numAt m.data 0 2)) = true) ∧ s.dev.hPhase < hSTARTED) ∧
    (∃ (m : NMsg) (s : State), s.dev.runs ∧ s.dev.accepts m false 16 ∧ s.dev.hPhase = hREADY ∧ s.dev.start.joining = false) ∧
    (∃ (m : NMsg) (s : State), s.dev.runs ∧ s.dev.accepts m false 16 ∧ s.dev.hPhase < hSTARTED ∧ s.dev.start.ordered = false ∧ s.dev.peerEpoch ≠ 0 ∧ s.dev.epoch = 0) ∧
    (∃ (s : State), s.dev.runs ∧ s.dev.isRoot = true ∧ s.dev.job.members ≠ [] ∧ 1 ≤ s.dev.hPhase ∧ s.dev.hPhase < hSTARTED) ∧
    (∃ (s : State), s.dev.runs ∧ s.dev.isRoot = false ∧ 1 ≤ s.dev.hPhase ∧ s.dev.hPhase < hSTARTED ∧ s.dev.start.ordered = false ∧ s.dev.peerEpoch ≠ 0 ∧ s.dev.epoch = 0) := ⟨
  ⟨nm 70 (pack [(4, 1), (4, 0), (2, 3), (6, 0)]), 5, st [jb, ps 5 70 2, staging], by decide +kernel⟩,
  ⟨nm 70 (pack [(4, 1), (4, 0)] ++ List.replicate 32 0), st [jb, ps 5 70 2, staging], by decide +kernel⟩,
  ⟨nm 70 (List.replicate 8 0), st [jb, ps 5 70 2], by decide +kernel⟩,
  ⟨0, st [jb, ps 5 70 2, staging, put HUB_TREE_PARENT 0], by decide +kernel⟩,
  ⟨st [rt, staging], by decide +kernel, by decide +kernel, by decide +kernel, ⟨1, by decide +kernel, by decide +kernel⟩⟩,
  ⟨nm 70 (pack [(4, 8), (4, 0)] ++ k32), 0x10000000, 1, st [jb, ps 5 70 2, holds], by decide +kernel⟩,
  ⟨nm 70 (pack [(4, 8), (4, 0)] ++ k32), st [jb, ps 5 70 2, put HUB_START_PHASE 6], by decide +kernel⟩,
  ⟨nm 70 (pack [(4, 8), (4, 0)] ++ k32 ++ pack [(2, 3), (6, 0)]), 5, { ent8 with sha := k32 }, st [jb, ps 5 70 2, put CRS_COURSE_COMMITTED 8, modCourse fun c => { c with held := [{ held8 with ents := [{ ent8 with sha := k32 }] }] }], by decide +kernel⟩,
  ⟨nm 70 (pack [(4, 8), (2, 0), (2, 0)]), 5, { held8 with manifest := List.replicate 100 1 }, st [jb, ps 5 70 2, modCourse fun c => { c with held := [{ held8 with manifest := List.replicate 100 1 }] }], by decide +kernel⟩,
  ⟨st [jb, staging, modStart fun x => { x with chunks := [(0, 0), (1, 0)] }, modHold fun h => { h with tearing := true }], by decide +kernel⟩,
  ⟨nm 67 (pack [(2, 0), (1, 0), (5, 0)]), st [rt, put HUB_START_PHASE 5, modStart fun x => { x with ready := [(1, 0)] }], by decide +kernel⟩,
  ⟨nm 67 (pack [(2, 0), (1, 6), (5, 0)]), st [rt, put HUB_START_PHASE 5, modStart fun x => { x with ready := [(1, 0)] }], by decide +kernel⟩,
  ⟨nm 67 (pack [(4, 7), (4, 0), (8, 20)]), st [jb, put HUB_START_PHASE 5], by decide +kernel⟩,
  ⟨nm 67 (pack [(4, 7), (1, 6), (3, 0), (8, 0)]), st [jb, put HUB_START_PHASE 1, put HUB_ROLE_JOB_EPOCH 0, modStart fun x => { x with epoch := 7 }], by decide +kernel⟩,
  ⟨st [rt, put HUB_START_PHASE 3], by decide +kernel⟩,
  ⟨st [jb, put HUB_START_PHASE 1, put HUB_ROLE_JOB_EPOCH 0, modStart fun x => { x with epoch := 7 }], by decide +kernel⟩⟩

theorem witness_JobsTornDownAndMembersReplaced :
    (∃ (m : NMsg) (s : State), s.dev.up = true ∧ s.dev.accepts m false 8 true ∧ s.dev.isRoot = true) ∧
    (∃ (m : NMsg) (s : State), s.dev.up = true ∧ s.dev.accepts m false 8 true ∧ s.dev.start.ordered = false ∧ s.dev.epoch ≠ 0 ∧ s.dev.jobSlots ≠ []) ∧
    (∃ (m : NMsg) (s : State), s.dev.up = true ∧ s.dev.accepts m false 8 true ∧ s.dev.start.ordered = true) ∧
    (∃ (m : NMsg) (s : State), s.dev.up = true ∧ s.dev.accepts m false 8 true ∧ s.dev.start.ordered = false ∧ s.dev.epoch = 0 ∧ s.dev.peerEpoch ≠ 0) ∧
    (∃ (s : State), s.dev.up = true ∧ s.dev.start.ordered = true ∧ s.dev.hPhase = hTEARDOWN ∧ s.dev.shore.slot = none) ∧
    (∃ (s : State), s.dev.up = true ∧ s.dev.mode.legal = true ∧ s.dev.hPhase = hSCRUBBING ∧ s.dev.mayScrub = true ∧ s.dev.start.aborted = false ∧ s.dev.start.keep = false ∧ s.dev.mode.role = .watch ∧ s.dev.mode.guestOn = false ∧ s.dev.hold.heldReserve = none) ∧
    (∃ (s : State), s.dev.up = true ∧ s.dev.mode.legal = true ∧ s.dev.hPhase = hSCRUBBING ∧ s.dev.mayScrub = true ∧ s.dev.start.aborted = false ∧ s.dev.start.keep = true ∧ s.dev.lastHeld.isSome = true ∧ s.dev.mode.role = .watch ∧ s.dev.mode.guestOn = false ∧ s.dev.hold.heldReserve = none) ∧
    (∃ (s : State), s.dev.up = true ∧ (s.dev.hPhase ≠ hSCRUBBING ∨ s.dev.mayScrub = false)) ∧
    (∃ (m : NMsg) (s : State), s.dev.up = true ∧ s.dev.accepts m false 8 true ∧ s.dev.isRoot = true ∧ numAt m.data 4 4 = s.dev.epoch) ∧
    (∃ (m : NMsg) (s : State), s.dev.up = true ∧ s.dev.accepts m false 8 true ∧ (s.dev.isRoot = false ∨ numAt m.data 4 4 ≠ s.dev.epoch)) ∧
    (∃ (v : W64) (s : State), s.dev.up = true ∧ HUB_KEPT_DROP.of v = 1 ∧ s.dev.get HUB_KEPT_COURSE ≠ noCourse) ∧
    (∃ (v : W64) (s : State), s.dev.up = true ∧ HUB_KEPT_DROP.of v = 1 ∧ s.dev.get HUB_KEPT_COURSE = noCourse) ∧
    (∃ (v : W64) (s : State), s.dev.up = true ∧ HUB_KEPT_DROP.of v = 0) ∧
    (∃ (m : NMsg) (i : Nat) (s : State), s.dev.runs ∧ s.dev.accepts m true 8 ∧ m.epoch.toNat = s.dev.epoch ∧ s.dev.epoch ≠ 0 ∧ s.dev.isRoot = true ∧ numAt m.data 0 2 = i ∧ s.dev.job.members[i]? = some (numAt m.data 4 4) ∧ i ∈ s.dev.start.lost ∧ s.dev.shore.rooting = false ∧ m.src.toNat ≠ s.dev.ownAddr) ∧
    (∃ (m : NMsg) (i : Nat) (p : Plan) (x : Nat) (s : State), s.dev.runs ∧ s.dev.accepts m true 8 ∧ m.epoch.toNat = s.dev.epoch ∧ s.dev.epoch ≠ 0 ∧ s.dev.isRoot = true ∧ numAt m.data 0 2 = i ∧ s.dev.job.members[i]? = some (numAt m.data 4 4) ∧ i ∈ s.dev.start.lost ∧ s.dev.shore.rooting = true ∧ s.dev.shore.plan = some p ∧ s.dev.shore.noSource = false ∧ x ∈ s.dev.positionsOf i ∧ x ∉ s.dev.shore.notices ∧ m.src.toNat ≠ s.dev.ownAddr) ∧
    (∃ (m : NMsg) (s : State), s.dev.runs ∧ s.dev.accepts m true 8 ∧ m.epoch.toNat = s.dev.epoch ∧ s.dev.epoch ≠ 0 ∧ s.dev.isRoot = false ∧ m.src.toNat ≠ s.dev.ownAddr) ∧
    (∃ (m : NMsg) (s : State), s.dev.runs ∧ s.dev.accepts m false 8 ∧ s.dev.mode.role ≠ .quarantine ∧ numAt m.data 0 2 ≠ s.dev.get CRS_ROOT_MEMBER ∧ s.dev.isRoot = false) ∧
    (∃ (m : NMsg) (s : State), s.dev.runs ∧ s.dev.accepts m true 8 ∧ s.dev.mode.role = .quarantine ∧ s.dev.start.former = some (m.epoch.toNat, numAt m.data 0 2) ∧ numAt m.data 4 4 ≠ s.dev.ownAddr) ∧
    (∃ (m : NMsg) (s : State), s.dev.runs ∧ s.dev.accepts m false 8 ∧ s.dev.mode.role ≠ .quarantine ∧ numAt m.data 0 2 = s.dev.get CRS_ROOT_MEMBER ∧ numAt m.data 4 4 ≠ s.dev.ownAddr ∧ s.dev.isRoot = false ∧ s.dev.start.ordered = false ∧ s.dev.epoch ≠ 0 ∧ s.dev.jobSlots ≠ []) := ⟨
  ⟨nm 67 (pack [(4, 7), (4, 0)]), st [rt], by decide +kernel⟩,
  ⟨nm 67 (pack [(4, 7), (4, 1)]), st [jb], by decide +kernel⟩,
  ⟨nm 67 (pack [(4, 7), (4, 1)]), st [jb, modStart fun x => { x with ordered := true, adopted := [75] }], by decide +kernel⟩,
  ⟨nm 67 (pack [(4, 7), (4, 0)]), st [jb, put HUB_ROLE_JOB_EPOCH 0, modStart fun x => { x with epoch := 7 }, .act (.mem cacheBase [1])], by decide +kernel⟩,
  ⟨st [jb, put HUB_START_PHASE 8, modStart fun x => { x with ordered := true, fencing := [2] }], by decide +kernel⟩,
  ⟨st [jb, put HUB_START_PHASE 9, modStart fun x => { x with ordered := true }], by decide +kernel⟩,
  ⟨st [jb, put HUB_START_PHASE 9, put CRS_COURSE_COMMITTED 8, modCourse fun c => { c with held := [held8] }, modStart fun x => { x with ordered := true, keep := true }], by decide +kernel⟩,
  ⟨st [jb], by decide +kernel⟩,
  ⟨nm 67 (pack [(2, 1), (2, 0), (4, 7)]), st [rt], by decide +kernel⟩,
  ⟨nm 67 (pack [(2, 1), (2, 0), (4, 7)]), st [jb], by decide +kernel⟩,
  ⟨w [(HUB_KEPT_DROP, 1)], st [jb, put HUB_KEPT_COURSE 8, modCourse fun c => { c with held := [held8], dir := [(0, ⟨0x10000000, 0, 3, 2, 0, 0, false, false, 1, 0, false⟩)] }, .act (.mem 0x10000005 [7])], by decide +kernel⟩,
  ⟨w [(HUB_KEPT_DROP, 1)], st [put HUB_KEPT_COURSE noCourse], by decide +kernel⟩,
  ⟨w [], st [jb], by decide +kernel⟩,
  ⟨nm 75 (pack [(2, 1), (2, 0), (4, 70)]), 1, st [rt, ps 5 75 2, modStart fun x => { x with lost := [1] }], by decide +kernel⟩,
  ⟨nm 75 (pack [(2, 1), (2, 0), (4, 70)]), 1, plan3, 5, st [rt, ps 5 75 2, modStart fun x => { x with lost := [1] }, modShore fun x => { x with rooting := true, plan := some plan3 }], by decide +kernel⟩,
  ⟨nm 75 (pack [(2, 1), (2, 0), (4, 70)]), st [jb, ps 5 75 2], by decide +kernel⟩,
  ⟨nm 67 (pack [(2, 1), (2, 0), (4, 75)]), st [jb], by decide +kernel⟩,
  ⟨nm 67 (pack [(2, 0), (2, 0), (4, 75)]), st [jb, modMode fun m => { m with role := .quarantine }, modStart fun x => { x with former := some (7, 0) }, put (LNK_STAT_STATE 2) 3], by decide +kernel⟩,
  ⟨nm 67 (pack [(2, 0), (2, 0), (4, 75)]), st [jb], by decide +kernel⟩⟩

theorem witness_SessionsOpenAndClose :
    (∃ (m : PMsg) (k : Nat) (s : State), s.dev.up = true ∧ Store.Canonical peerReset s.dev.peers ∧ s.dev.on RNG_ADDR_ENUM = true ∧ s.dev.start.orphaned = false ∧ ((s.dev.sessionTo (numAt m.data 4 4)).all (fun n => decide ((s.dev.peer n).st ≠ pOPENING) || decide (numAt m.data 4 4 ≤ s.dev.ownAddr)) = true) ∧ numAt m.data 0 2 = s.dev.get HUB_PART_PARTITION ∧ s.dev.hubFenced = false ∧ m.ver = 1 ∧ m.data.length = 6700 ∧ numAt m.data 4 4 ≠ s.dev.ownAddr ∧ zeroAt m.data 2 2 = true ∧ (m.chk = true → crc64 m.data = m.check.toNat) ∧ s.dev.identityLeft = true ∧ s.dev.on SEC_STAT_WK_READY = true ∧ s.dev.slotFor (numAt m.data 4 4) = some k) ∧
    (∃ (m : PMsg) (s : State), s.dev.up = true ∧ Store.Canonical peerReset s.dev.peers ∧ s.dev.on RNG_ADDR_ENUM = true ∧ ((s.dev.sessionTo (numAt m.data 4 4)).all (fun n => decide ((s.dev.peer n).st ≠ pOPENING) || decide (numAt m.data 4 4 ≤ s.dev.ownAddr)) = true) ∧ numAt m.data 0 2 ≠ s.dev.get HUB_PART_PARTITION ∧ numAt m.data 4 4 ≠ s.dev.partnerAddr) ∧
    (∃ (m : PMsg) (s : State), s.dev.up = true ∧ Store.Canonical peerReset s.dev.peers ∧ (s.dev.peer m.session.toNat).st = pOPENING ∧ s.dev.start.orphaned = false ∧ m.ver = 1 ∧ m.data.length = 6604 ∧ numAt m.data 0 2 = s.dev.get HUB_PART_PARTITION ∧ numAt m.data 4 4 = (s.dev.peer m.session.toNat).peer ∧ (m.chk = true → crc64 m.data = m.check.toNat)) ∧
    (∃ (m : PMsg) (s : State), s.dev.up = true ∧ Store.Canonical peerReset s.dev.peers ∧ (s.dev.peer m.session.toNat).st = pOPENING ∧ (m.ver ≠ 1 ∨ m.data.length ≠ 6604 ∨ numAt m.data 0 2 ≠ s.dev.get HUB_PART_PARTITION ∨ numAt m.data 4 4 ≠ (s.dev.peer m.session.toNat).peer)) ∧
    (∃ (m : PMsg) (s : State), s.dev.up = true ∧ Store.Canonical peerReset s.dev.peers ∧ (s.dev.peer m.session.toNat).st = pOPEN ∧ s.dev.hubFenced = false ∧ m.ver = 1 ∧ m.data = [] ∧ lastCounted m = true ∧ (m.chk = true → crc64 m.data = m.check.toNat)) ∧
    (∃ (m : PMsg) (s : State), s.dev.up = true ∧ Store.Canonical peerReset s.dev.peers ∧ (s.dev.peer m.session.toNat).st = pOPEN ∧ s.dev.hubFenced = false ∧ m.ver ≠ 1) ∧
    (∃ (m : PMsg) (s : State), s.dev.up = true ∧ Store.Canonical peerReset s.dev.peers ∧ (s.dev.peer m.session.toNat).st = pOPEN) ∧
    (∃ (n : BitVec 14) (s : State), s.dev.up = true ∧ Store.Canonical peerReset s.dev.peers ∧ (s.dev.peer n.toNat).st = pOPEN) ∧
    (∃ (n : BitVec 14) (s : State), s.dev.up = true ∧ Store.Canonical peerReset s.dev.peers ∧ (s.dev.peer n.toNat).st = pOPENING) ∧
    (∃ (n : BitVec 14) (s : State), s.dev.up = true ∧ Store.Canonical peerReset s.dev.peers ∧ (s.dev.peer n.toNat).st = pOPEN ∧ s.dev.course.taking = false ∧ s.dev.parent ≠ some (s.dev.peer n.toNat).peer) := ⟨
  ⟨pm 0 3 (pack [(2, 0), (2, 0), (4, 75)] ++ List.replicate 6692 0), 1, st [jb, put SEC_STAT_WK_READY 1], by decide +kernel⟩,
  ⟨pm 0 3 (pack [(2, 1), (2, 0), (4, 75)] ++ List.replicate 6692 0), st [jb], by decide +kernel⟩,
  ⟨pm 5 3 (pack [(2, 0), (2, 0), (4, 75)] ++ List.replicate 6596 0), st [jb, ps 5 75 1], by decide +kernel⟩,
  ⟨{ pm 5 3 with ver := 2 }, st [jb, ps 5 75 1], by decide +kernel⟩,
  ⟨pm 5, st [jb, ps 5 75 2], by decide +kernel⟩,
  ⟨{ pm 5 with ver := 2 }, st [jb, ps 5 75 2], by decide +kernel⟩,
  ⟨pm 5, st [jb, ps 5 75 2], by decide +kernel⟩,
  ⟨5, st [jb, ps 5 75 2], by decide +kernel⟩,
  ⟨5, st [jb, ps 5 75 1], by decide +kernel⟩,
  ⟨5, st [jb, ps 5 75 2], by decide +kernel⟩⟩

theorem witness_PeersSignalAndAnswer :
    (∃ (m : PMsg) (k : Nat) (s : State), s.dev.up = true ∧ s.dev.takesPeer m 24 ∧ numAt m.data 0 2 < 8192 ∧ zeroAt m.data 2 6 = true ∧ s.dev.freeWatch = some k ∧ satisfied (s.dev.counter (8192 + numAt m.data 0 2)) (BitVec.ofNat 64 (numAt m.data 8 8)) = false ∧ (s.dev.watches.all (fun e => decide (e.2.counter ≠ 8192 + numAt m.data 0 2)) = true)) ∧
    (∃ (m : PMsg) (s : State), s.dev.up = true ∧ s.dev.takesPeer m 24 ∧ numAt m.data 0 2 < 8192 ∧ zeroAt m.data 2 6 = true ∧ s.dev.freeWatch = none) ∧
    (∃ (m : PMsg) (s : State), s.dev.up = true ∧ s.dev.takesPeer m 16) ∧
    (∃ (m : PMsg) (s : State), s.dev.up = true ∧ s.dev.takesPeer m 0 ∧ m.sig = true ∧ m.sigIdx.toNat < 8192 ∧ (s.dev.watches.all (fun e => decide (e.2.counter ≠ 8192 + m.sigIdx.toNat)) = true)) ∧
    (∃ (m : PMsg) (s : State), s.dev.up = true ∧ Store.Canonical peerReset s.dev.peers ∧ (s.dev.peer m.session.toNat).st = pOPEN ∧ s.dev.quiesced m.session.toNat m.epoch.toNat = true) ∧
    (∃ (m : PMsg) (s : State), s.dev.up = true ∧ Store.Canonical peerReset s.dev.peers ∧ (s.dev.peer m.session.toNat).st = pOPEN ∧ s.dev.isMember (s.dev.peer m.session.toNat).peer = true ∧ m.epoch.toNat = s.dev.peerEpoch ∧ s.dev.quiesced m.session.toNat m.epoch.toNat = false ∧ s.dev.hubFenced = false ∧ m.ver = 1 ∧ m.last = true ∧ m.pkts = 0) ∧
    (∃ (m : PMsg) (g : Grant) (s : State), s.dev.up = true ∧ Store.Canonical peerReset s.dev.peers ∧ (s.dev.peer m.session.toNat).st = pOPEN ∧ (m.session.toNat = 0 ∨ s.dev.isMember (s.dev.peer m.session.toNat).peer = true) ∧ s.dev.quiesced m.session.toNat m.epoch.toNat = false ∧ s.dev.hubFenced = false ∧ lastCounted m = true ∧ s.dev.transferRoom (.session m.session.toNat) m.tag.toNat = true ∧ (s.dev.sync.grants.find? (fun g => decide (g.session = m.session.toNat) && decide (g.handle = m.arg.toNat % 2 ^ 16)) = some g) ∧ m.epoch.toNat = g.epoch ∧ m.ver = 1 ∧ 64 ≤ m.data.length ∧ m.data.length ≤ 4096 ∧ (m.chk = true → crc64 m.data = m.check.toNat) ∧ (m.sig = true → m.sigIdx.toNat < 8192) ∧ s.dev.watches = [] ∧ m.arg.toNat / 2 ^ 16 ≤ g.len ∧ (g.got.put (m.arg.toNat / 2 ^ 16) (m.data.take (g.len - m.arg.toNat / 2 ^ 16))).covers 0 g.len = false) ∧
    (∃ (m : PMsg) (s : State), s.dev.up = true ∧ Store.Canonical peerReset s.dev.peers ∧ (s.dev.peer m.session.toNat).st = pOPEN ∧ (m.session.toNat = 0 ∨ s.dev.isMember (s.dev.peer m.session.toNat).peer = true) ∧ s.dev.transferRoom (.session m.session.toNat) m.tag.toNat = true ∧ (m.epoch.toNat ≠ ((s.dev.sync.grants.find? (fun g => decide (g.session = m.session.toNat) && decide (g.handle = m.arg.toNat % 2 ^ 16))).map (·.epoch)).getD s.dev.peerEpoch)) ∧
    (∃ (m : PMsg) (r : PReq) (s : State), s.dev.up = true ∧ Store.Canonical peerReset s.dev.peers ∧ (s.dev.peer m.session.toNat).st = pOPEN ∧ m.ver = 1 ∧ m.status = 0 ∧ (m.chk = true → m.data.length ≤ 4096 → crc64 m.data = m.check.toNat) ∧ ((s.dev.peer m.session.toNat).reqs.find? (fun r => decide (r.seq = m.tag.toNat)) = some r) ∧ r.code ∉ [nCOURSE_QUERY, 0x25, nMANIFEST_WANT]) ∧
    (∃ (m : PMsg) (r : PReq) (s : State), s.dev.up = true ∧ Store.Canonical peerReset s.dev.peers ∧ (s.dev.peer m.session.toNat).st = pOPEN ∧ m.ver = 1 ∧ m.status = 0 ∧ (m.chk = true → crc64 m.data = m.check.toNat) ∧ ((s.dev.peer m.session.toNat).reqs.find? (fun r => decide (r.seq = m.tag.toNat)) = some r) ∧ r.code = nCOURSE_QUERY ∧ s.dev.course.taking = false ∧ m.data.length = 56 ∧ s.dev.inCourse = true ∧ numAt m.data 4 4 = s.dev.cur ∧ s.dev.cur ≠ noCourse ∧ s.dev.voted = true ∧ s.dev.get CRS_ROOT_ADDR ≠ 0) ∧
    (∃ (m : PMsg) (s : State), s.dev.up = true ∧ Store.Canonical peerReset s.dev.peers ∧ (s.dev.peer m.session.toNat).st = pOPENING ∧ m.ver = 1 ∧ m.status ≠ 0) := ⟨
  ⟨pm 5 1 (pack [(2, 3), (6, 0), (8, 100), (8, 0)]), 0, st [jb, ps 5 70 2], by decide +kernel⟩,
  ⟨pm 5 1 (pack [(2, 3), (6, 0), (8, 100), (8, 0)]), ⟨{ (st [jb, ps 5 70 2]).dev with watches := watchesFull }, []⟩, by decide +kernel, by decide +kernel, by decide +kernel, by decide +kernel, watchesFull_freeWatch _ rfl⟩,
  ⟨pm 5 1 (List.replicate 16 0), st [jb, ps 5 70 2], by decide +kernel⟩,
  ⟨{ pm 5 with sig := true, sigIdx := 5, sigInc := 3 }, st [jb, ps 5 70 2], by decide +kernel⟩,
  ⟨{ pm 5 with sig := true, sigIdx := 5, sigInc := 3 }, st [jb, ps 5 70 2, modPeer 5 fun p => { p with port := 20 }, put (LNK_STAT_STATE 20) lQUIESCE], by decide +kernel⟩,
  ⟨{ pm 5 1 (pack [(2, 3), (6, 0), (8, 100), (8, 0)]) with pkts := 0 }, st [jb, ps 5 70 2], by decide +kernel⟩,
  ⟨pm 5 3 (List.replicate 64 1), ⟨5, 3, 7, none, 100, 0x21, [], {}, []⟩, st [jb, ps 5 70 2, modSync fun x => { x with grants := [⟨5, 3, 7, none, 100, 0x21, [], {}, []⟩] }], by decide +kernel⟩,
  ⟨pm 5 3 (List.replicate 64 1), st [jb, ps 5 70 2, modSync fun x => { x with grants := [⟨5, 3, 8, none, 100, 0x21, [], {}, []⟩] }], by decide +kernel⟩,
  ⟨pm 5, ⟨9, 0x10, 0x21, 0, []⟩, st [jb, ps 5 70 2, modPeer 5 fun p => { p with reqs := [⟨9, 0x10, 0x21, 0, []⟩] }], by decide +kernel⟩,
  ⟨pm 5 0 (pack [(4, 0), (4, 9), (48, 0)]), ⟨9, 0x10, 0x06, 0, []⟩, st [jb, crs 2, put CRS_STAT_VOTED 1, ps 5 70 2, modPeer 5 fun p => { p with reqs := [⟨9, 0x10, 0x06, 0, []⟩] }], by decide +kernel⟩,
  ⟨{ pm 5 with status := 6 }, st [jb, ps 5 75 1], by decide +kernel⟩⟩

theorem witness_TheManagementRing :
    (∃ (f : List Byte) (s : State), s.dev.power.pwrok = true ∧ frameOk f = true ∧ fType f = 1 ∧ (fData f).length = 8 ∧ numAt (fData f) 1 2 = s.dev.get RNG_ADDR_RACK ∧ s.dev.get RNG_ADDR_RACK ≠ 0xFFFF ∧ (s.dev.on RNG_ADDR_ENUM = true → s.dev.inService = false) ∧ numAt (fData f) 0 1 ≤ 63 ∧ fHops f < 64) ∧
    (∃ (f : List Byte) (s : State), s.dev.power.pwrok = true ∧ frameOk f = true ∧ fType f = 1 ∧ (fData f).length = 8 ∧ (numAt (fData f) 1 2 ≠ s.dev.get RNG_ADDR_RACK ∨ s.dev.get RNG_ADDR_RACK = 0xFFFF) ∧ fHops f < 64) ∧
    (∃ (f : List Byte) (e : Nat × Nat × Nat) (s : State), s.dev.power.pwrok = true ∧ frameOk f = true ∧ fType f = 2 ∧ s.dev.on RNG_ADDR_ENUM = true ∧ s.dev.mine f = false ∧ s.dev.noEntry f ∧ s.dev.partnerEntry f = some e ∧ fHops f < 64 ∧ Store.Canonical peerReset s.dev.peers) ∧
    (∃ (f : List Byte) (s : State), s.dev.power.pwrok = true ∧ frameOk f = true ∧ fType f = 3 ∧ s.dev.forMe f = true ∧ fSrc f = s.dev.partnerAddr ∧ numAt (fData f) 0 8 % 16 ≠ Role.quarantine.code) ∧
    (∃ (f : List Byte) (s : State), s.dev.power.pwrok = true ∧ s.dev.mode.legal = true ∧ frameOk f = true ∧ fType f = 3 ∧ s.dev.forMe f = true ∧ fSrc f = s.dev.partnerAddr ∧ numAt (fData f) 0 8 % 16 = Role.quarantine.code ∧ s.dev.mode.partner ≠ .solo) ∧
    (∃ (s : State), s.dev.up = true ∧ s.dev.on RNG_ADDR_ENUM = true ∧ s.dev.partnerAddr ≠ 0) ∧
    (∃ (f : List Byte) (s : State), s.dev.power.pwrok = true ∧ frameOk f = true ∧ s.dev.forMe f = false ∧ s.dev.mine f = false ∧ fHops f < 64) ∧
    (∃ (f : List Byte) (s : State), s.dev.power.pwrok = true ∧ frameOk f = true ∧ s.dev.forMe f = false ∧ s.dev.mine f = false ∧ 64 ≤ fHops f) ∧
    (∃ (f : List Byte) (s : State), s.dev.power.pwrok = true ∧ frameOk f = false) ∧
    (∃ (f : List Byte) (s : State), s.dev.up = true ∧ s.dev.power.pwrok = true ∧ frameOk f = true ∧ fType f = 5 ∧ s.dev.forMe f = true ∧ 8 ≤ (fData f).length ∧ numAt (fData f) 0 1 < numAt (fData f) 1 1 ∧ zeroAt (fData f) 2 2 = true ∧ (((List.range (numAt (fData f) 1 1)).any fun j => decide (j ≠ numAt (fData f) 0 1) && s.dev.sec.frags.all fun g => !(decide (g.1 = fSrc f ∧ g.2.1 = numAt (fData f) 4 4 ∧ g.2.2.1 = j))) = true)) ∧
    (∃ (f : List Byte) (s : State), s.dev.up = true ∧ s.dev.power.pwrok = true ∧ frameOk f = true ∧ fType f = 5 ∧ s.dev.forMe f = true ∧ 8 ≤ (fData f).length ∧ numAt (fData f) 0 1 = 0 ∧ numAt (fData f) 1 1 = 1 ∧ zeroAt (fData f) 2 2 = true ∧ s.dev.resetsRest) ∧
    (∃ (src : BitVec 22) (id : W32) (s : State), s.dev.runs ∧ ((s.dev.sec.frags.any fun g => decide (g.1 = src.toNat ∧ g.2.1 = id.toNat)) = true)) := ⟨
  ⟨frameBytes 1 0 0 0x3FFFFF 0 (pack [(1, 4), (2, 1), (5, 0)]), st [put RNG_ADDR_RACK 1], by decide +kernel⟩,
  ⟨frameBytes 1 0 0 0x3FFFFF 0 (pack [(1, 4), (2, 2), (5, 0)]), st [put RNG_ADDR_RACK 1], by decide +kernel⟩,
  ⟨frameBytes 2 0 0 0x3FFFFF 66 (pack [(4, 66), (1, 1), (1, 0), (2, 0)]), (66, 1, 0), st [jb], by decide +kernel⟩,
  ⟨frameBytes 3 0 0 67 66 (pack [(8, 1)]), st [jb], by decide +kernel⟩,
  ⟨frameBytes 3 0 0 67 66 (pack [(8, 5)]), st [jb, paired], by decide +kernel⟩,
  ⟨st [jb], by decide +kernel⟩,
  ⟨frameBytes 4 0 0 5 6 [1, 2], st [jb], by decide +kernel⟩,
  ⟨frameBytes 4 0 64 5 6 [1, 2], st [jb], by decide +kernel⟩,
  ⟨List.replicate 20 1, st [jb], by decide +kernel⟩,
  ⟨frameBytes 5 0 0 67 66 ([0, 2, 0, 0] ++ pack [(4, 9)] ++ List.replicate 100 1), st [jb], by decide +kernel⟩,
  ⟨frameBytes 5 0 0 67 66 ([0, 1, 0, 0] ++ pack [(4, 9)] ++ List.replicate 128 1), st [jb], by decide +kernel⟩,
  ⟨66, 9, st [jb, modSec fun x => { x with frags := [(66, 9, 0, 2, [1])] }], by decide +kernel⟩⟩

theorem witness_FlitsOnALink :
    (∃ (p : Fin 32) (lane : Fin 8) (flit : List Byte) (s : State), s.dev.up = true ∧ Store.Canonical portReset s.dev.ports ∧ s.dev.takesFlits p.val = true ∧ flitOk flit = false) ∧
    (∃ (p : Fin 32) (lane : Fin 8) (flit : List Byte) (x : Nat × Nat × List Byte) (rest : List Byte) (s : State), s.dev.up = true ∧ Store.Canonical portReset s.dev.ports ∧ s.dev.flitInOrder p.val flit ∧ numAt flit 4 1 = 0 ∧ (s.dev.port p.val).rx = [] ∧ takeMessages 5 (cut_ flit 8 240) = ([x], rest) ∧ s.dev.lState p.val ≠ lQUIESCE ∧ (s.dev.stream (s.dev.originOf p.val x.2.1)).next = x.1 ∧ (s.dev.stream (s.dev.originOf p.val x.2.1)).seen = [] ∧ (s.dev.port p.val).ahead = [] ∧ (s.dev.port p.val).nextLanes = none) ∧
    (∃ (p : Fin 32) (lane : Fin 8) (flit : List Byte) (s : State), s.dev.up = true ∧ Store.Canonical portReset s.dev.ports ∧ s.dev.flitInOrder p.val flit ∧ numAt flit 4 1 = 255 ∧ (s.dev.port p.val).rx ≠ [] ∧ takeMessage ((s.dev.port p.val).rx ++ cut_ flit 8 240) = none ∧ 48 ≤ numAt (s.dev.port p.val).rx 4 2 ∧ numAt (s.dev.port p.val).rx 4 2 ≤ 4144 ∧ 8 ≤ (s.dev.port p.val).rx.length ∧ (s.dev.port p.val).ahead = [] ∧ (s.dev.port p.val).nextLanes = none) ∧
    (∃ (p : Fin 32) (lane : Fin 8) (flit : List Byte) (s : State), s.dev.up = true ∧ Store.Canonical portReset s.dev.ports ∧ s.dev.takesFlits p.val = true ∧ flitOk flit = true ∧ numAt flit 0 4 / 2 ^ 28 = 1 ∧ (s.dev.lState p.val ≠ lTRAINING ∨ 24 ≤ p.val) ∧ numAt flit 0 4 % 4096 ≠ (s.dev.port p.val).fseqIn ∧ (numAt flit 0 4 % 4096 + 4096 - (s.dev.port p.val).fseqIn) % 4096 < 2048 ∧ bitOf (numAt flit 0 4) 24 = false) ∧
    (∃ (p : Fin 32) (lane : Fin 8) (flit : List Byte) (g : List Byte) (s : State), s.dev.up = true ∧ Store.Canonical portReset s.dev.ports ∧ s.dev.flitInOrder p.val flit ∧ (s.dev.port p.val).ahead = [(((s.dev.port p.val).fseqIn + 1) % 4096, g)]) ∧
    (∃ (p : Fin 32) (lane : Fin 8) (flit : List Byte) (s : State), s.dev.up = true ∧ Store.Canonical portReset s.dev.ports ∧ s.dev.takesFlits p.val = true ∧ flitOk flit = true ∧ numAt flit 0 4 / 2 ^ 28 ≠ 1 ∧ bitOf (numAt flit 0 4) 24 = true ∧ (numAt flit 0 4 / 2 ^ 12 % 4096 + 1) % 4096 = (s.dev.port p.val).oldest ∧ (s.dev.port p.val).inFlight ≠ 0) ∧
    (∃ (p : Fin 32) (lane : Fin 8) (flit : List Byte) (s : State), s.dev.up = true ∧ Store.Canonical portReset s.dev.ports ∧ s.dev.takesFlits p.val = true ∧ flitOk flit = true ∧ numAt flit 0 4 / 2 ^ 28 ≠ 1 ∧ bitOf (numAt flit 0 4) 24 = false ∧ (s.dev.port p.val).waitFlits = [] ∧ 0 < (numAt flit 0 4 / 2 ^ 12 % 4096 + 4097 - (s.dev.port p.val).oldest) % 4096 ∧ (numAt flit 0 4 / 2 ^ 12 % 4096 + 4097 - (s.dev.port p.val).oldest) % 4096 ≤ (s.dev.port p.val).inFlight) ∧
    (∃ (p : Fin 32) (s : State), s.dev.up = true ∧ Store.Canonical portReset s.dev.ports ∧ s.dev.takesFlits p.val = true ∧ (s.dev.port p.val).inFlight ≠ 0) := ⟨
  ⟨5, 0, List.replicate 255 0 ++ [1], st [jb, lk 5], by decide +kernel⟩,
  ⟨5, 0, flit 1 0 4095 0 0 (pack [(4, 0), (2, 48), (2, 0), (48, 1)]), (0, 0, pack [(48, 1)]), [], st [jb, lk 5], by decide +kernel⟩,
  ⟨5, 0, flit 1 0 4095 0 255 [7], st [jb, lk 5, modPort 5 fun p => { p with rx := pack [(4, 0), (2, 1000), (2, 0)] }], by decide +kernel⟩,
  ⟨5, 0, flit 1 5 4095 0 0, st [jb, lk 5], by decide +kernel⟩,
  ⟨5, 0, flit 1 0 4095 0 255 [7], flit 1 1 4095 0 255 [8], st [jb, lk 5, modPort 5 fun p => { p with ahead := [(1, flit 1 1 4095 0 255 [8])] }], by decide +kernel⟩,
  ⟨5, 0, flit 2 0 4095 1 0, st [jb, lk 5, modPort 5 fun p => { p with fseqOut := 4 }], by decide +kernel⟩,
  ⟨5, 0, flit 2 0 1 0 0, st [jb, lk 5, modPort 5 fun p => { p with fseqOut := 4 }], by decide +kernel⟩,
  ⟨5, st [jb, lk 5, modPort 5 fun p => { p with fseqOut := 4, replays := 200 }], by decide +kernel⟩⟩

theorem witness_LanesComeAndGo :
    (∃ (p : Fin 24) (lane : Fin 8) (cause : BitVec 4) (s : State), s.dev.up = true ∧ Store.Canonical portReset s.dev.ports ∧ s.dev.lUp p.val = true ∧ bitOf (s.dev.port p.val).good lane.val = true ∧ s.dev.copt CRS_CTRL_LANE_WATCH = false ∧ 2 ≤ laneCount (((s.dev.port p.val).good - 2 ^ lane.val) &&& (s.dev.port p.val).farLanes) ∧ s.dev.staysOn p.val (((s.dev.port p.val).good - 2 ^ lane.val) &&& (s.dev.port p.val).farLanes) ∧ (s.dev.port p.val).good < 256) ∧
    (∃ (p : Fin 24) (lane : Fin 8) (cause : BitVec 4) (s : State), s.dev.up = true ∧ Store.Canonical portReset s.dev.ports ∧ s.dev.lUp p.val = true ∧ bitOf (s.dev.port p.val).good lane.val = true ∧ s.dev.copt CRS_CTRL_LANE_WATCH = false ∧ laneCount (((s.dev.port p.val).good - 2 ^ lane.val) &&& (s.dev.port p.val).farLanes) < 2 ∧ s.dev.on (LNK_CFG_MODE p.val) = false) ∧
    (∃ (p : Fin 24) (b : BitVec 12) (lanes : Byte) (s : State), s.dev.up = true ∧ Store.Canonical portReset s.dev.ports ∧ s.dev.lUp p.val = true ∧ 2 ≤ laneCount ((s.dev.port p.val).good &&& lanes.toNat) ∧ s.dev.staysOn p.val ((s.dev.port p.val).good &&& lanes.toNat) ∧ ((s.dev.port p.val).fseqIn + 4096 - b.toNat) % 4096 < 2048) ∧
    (∃ (p : Fin 24) (b : BitVec 12) (lanes : Byte) (s : State), s.dev.up = true ∧ Store.Canonical portReset s.dev.ports ∧ s.dev.trained p.val = true ∧ 2048 ≤ ((s.dev.port p.val).fseqIn + 4096 - b.toNat) % 4096) ∧
    (∃ (p : Fin 24) (s : State), s.dev.up = true ∧ s.dev.trained p.val = true) ∧
    (∃ (p : Fin 24) (lane : Fin 8) (s : State), s.dev.up = true ∧ Store.Canonical portReset s.dev.ports ∧ s.dev.lUp p.val = true ∧ bitOf (s.dev.port p.val).good lane.val = false ∧ 2 ≤ laneCount (((s.dev.port p.val).good + 2 ^ lane.val) &&& (s.dev.port p.val).farLanes) ∧ s.dev.staysOn p.val (((s.dev.port p.val).good + 2 ^ lane.val) &&& (s.dev.port p.val).farLanes) ∧ (s.dev.port p.val).good < 256) ∧
    (∃ (p : Fin 24) (s : State), s.dev.up = true ∧ s.dev.trainable p.val ∧ s.dev.lState p.val = lDOWN) ∧
    (∃ (p : Fin 24) (s : State), s.dev.up = true ∧ s.dev.trainable p.val ∧ s.dev.lState p.val = lDETOUR ∧ 8 ≤ p.val) ∧
    (∃ (p : Fin 24) (s : State), s.dev.up = true ∧ s.dev.trainable p.val ∧ s.dev.lState p.val = lDOWN) ∧
    (∃ (p : Fin 24) (s : State), s.dev.up = true ∧ s.dev.lState p.val = lTRAINING ∧ s.dev.shore.handback = none) ∧
    (∃ (p : Fin 24) (lanes : Byte) (far : FarEnd) (delay : Nat) (s : State), s.dev.up = true ∧ Store.Canonical portReset s.dev.ports ∧ s.dev.lState p.val = lTRAINING ∧ s.dev.miswired p.val far = false ∧ 2 ≤ laneCount lanes.toNat ∧ s.dev.staysOn p.val lanes.toNat ∧ s.dev.start.ordered = false ∧ p.val ≠ 19 ∧ (far = .loopback → p.val < 8 ∨ 20 ≤ p.val) ∧ s.dev.shore.handback = none) ∧
    (∃ (p : Fin 24) (lanes : Byte) (delay : Nat) (s : State), s.dev.up = true ∧ Store.Canonical portReset s.dev.ports ∧ s.dev.lState p.val = lTRAINING ∧ 2 ≤ laneCount lanes.toNat ∧ s.dev.start.ordered = false ∧ 8 ≤ p.val ∧ p.val < 20 ∧ s.dev.shore.handback = none) ∧
    (∃ (p : Fin 24) (lanes : Byte) (far : FarEnd) (delay : Nat) (s : State), s.dev.up = true ∧ s.dev.lState p.val = lTRAINING ∧ s.dev.miswired p.val far = true) := ⟨
  ⟨5, 0, 1, st [jb, modCourse (fun c => { c with ctrl := 0 }), lk 5], by decide +kernel⟩,
  ⟨5, 0, 1, st [jb, modCourse (fun c => { c with ctrl := 0 }), lk 5, modPort 5 fun p => { p with good := 3, farLanes := 3 }], by decide +kernel⟩,
  ⟨5, 0, 0x0F, st [jb, lk 5], by decide +kernel⟩,
  ⟨5, 9, 0x0F, st [jb, lk 5], by decide +kernel⟩,
  ⟨5, st [jb, lk 5, modPort 5 fun p => { p with good := 0x55 }], by decide +kernel⟩,
  ⟨5, 0, st [jb, lk 5, modPort 5 fun p => { p with good := 254 }], by decide +kernel⟩,
  ⟨5, st [jb, put (LNK_CFG_EN 5) 1, put (LNK_STAT_STATE 5) 1], by decide +kernel⟩,
  ⟨9, st [jb, put (LNK_CFG_EN 9) 1, put (LNK_STAT_STATE 9) 5], by decide +kernel⟩,
  ⟨5, st [jb, put (LNK_CFG_EN 5) 1, put (LNK_STAT_STATE 5) 1], by decide +kernel⟩,
  ⟨5, st [jb, put (LNK_STAT_STATE 5) 2], by decide +kernel⟩,
  ⟨5, 255, .agent 5 77, 3, st [jb, put (LNK_STAT_STATE 5) 2], by decide +kernel⟩,
  ⟨9, 0x3F, 3, st [jb, put (LNK_STAT_STATE 9) 2], by decide +kernel⟩,
  ⟨5, 255, .agent 6 77, 3, st [jb, put (LNK_STAT_STATE 5) 2], by decide +kernel⟩⟩

theorem witness_LinkTestsAndPodTime :
    (∃ (v : W64) (s : State), s.dev.up = true ∧ LNK_TEST_GO.of v = 1 ∧ s.dev.on LNK_TEST_GO = false ∧ s.dev.mayTest (LNK_TEST_TARGET.of v) = true) ∧
    (∃ (v : W64) (s : State), s.dev.up = true ∧ LNK_TEST_GO.of v = 1 ∧ (s.dev.on LNK_TEST_GO = true ∨ s.dev.mayTest (LNK_TEST_TARGET.of v) = false)) ∧
    (∃ (e : W32) (s : State), s.dev.up = true ∧ s.dev.on LNK_TEST_GO = true ∧ e = 0 ∧ s.dev.shore.handback = none) ∧
    (∃ (e : W32) (s : State), s.dev.up = true ∧ s.dev.on LNK_TEST_GO = true ∧ e ≠ 0 ∧ s.dev.get LNK_TEST_TARGET < 24 ∧ s.dev.lUp (s.dev.get LNK_TEST_TARGET) = false ∧ s.dev.shore.handback = none) ∧
    (∃ (p : Fin 24) (s : State), s.dev.up = true ∧ s.dev.timePort p.val = true ∧ (p.val < 8 ∨ 20 ≤ p.val)) ∧
    (∃ (p : Fin 24) (tTx : W64) (t1 : W64) (t2 : W64) (dl : W64) (s : State), s.dev.up = true ∧ s.dev.timePort p.val = true ∧ p.val < 8) ∧
    (∃ (p : Fin 24) (tTx : W64) (t1 : W64) (t2 : W64) (dl : W64) (s : State), s.dev.up = true ∧ s.dev.timePort p.val = true ∧ 20 ≤ p.val ∧ s.dev.timeSource ≠ p.val) ∧
    (∃ (p : Fin 24) (tTx : W64) (t1 : W64) (t2 : W64) (dl : W64) (s : State), s.dev.up = true ∧ s.dev.timePort p.val = true ∧ 20 ≤ p.val ∧ s.dev.timeSource = p.val ∧ s.dev.epoch = 0 ∧ tTx.toNat ≤ s.dev.podTime ∧ t1.toNat ≤ t2.toNat ∧ t2.toNat - t1.toNat ≤ s.dev.podTime - tTx.toNat) ∧
    (∃ (o : W32) (s : State), s.dev.up = true ∧ s.dev.on HST_NET_PTP = true ∧ s.dev.timeSource = 0x1F ∧ s.dev.epoch = 0 ∧ 0 ≤ o.toInt) ∧
    (∃ (o : W32) (s : State), s.dev.up = true ∧ s.dev.on HST_NET_PTP = true ∧ s.dev.timeSource = 0x1F ∧ s.dev.epoch ≠ 0 ∧ o.toInt < 0 ∧ s.dev.obs.lastSlew + 10000 ≤ s.dev.clk) ∧
    (∃ (s : State), s.dev.up = true ∧ (s.dev.timeSource = 0x1F ∨ s.dev.timePort s.dev.timeSource = false)) ∧
    (∃ (s : State), s.dev.up = true ∧ s.dev.obs.srcLost = true ∧ s.dev.on LNK_TIME_LOCKED = true ∧ s.dev.obs.rateCount < max 1 (s.dev.get DST_CFG_RATE)) := ⟨
  ⟨w [(LNK_TEST_TARGET, 5), (LNK_TEST_GO, 1)], st [jb, put (LNK_STAT_STATE 5) 1], by decide +kernel⟩,
  ⟨w [(LNK_TEST_TARGET, 5), (LNK_TEST_GO, 1)], st [jb, lk 5], by decide +kernel⟩,
  ⟨0, st [jb, put LNK_TEST_GO 1, put LNK_TEST_TARGET 5], by decide +kernel⟩,
  ⟨9, st [jb, put LNK_TEST_GO 1, put LNK_TEST_TARGET 5], by decide +kernel⟩,
  ⟨5, st [jb, lk 5], by decide +kernel⟩,
  ⟨5, 1, 2, 3, 4, st [jb, lk 5], by decide +kernel⟩,
  ⟨21, 1, 2, 3, 4, st [jb, lk 21], by decide +kernel⟩,
  ⟨21, 100, 200, 300, 4, st [lk 21, put LNK_TIME_SRC 21, .act (.podTime 1000)], by decide +kernel⟩,
  ⟨9, st [put HST_NET_PTP 1], by decide +kernel⟩,
  ⟨(-9), st [jb, put HST_NET_PTP 1, .act (.clk 20000)], by decide +kernel⟩,
  ⟨st [jb], by decide +kernel⟩,
  ⟨st [jb, put LNK_TIME_LOCKED 1, modObs fun o => { o with srcLost := true }], by decide +kernel⟩⟩

theorem witness_FaultsOfTranslation :
    (∃ (n : Nat) (va : Nat) (w : Bool) (ctx : Nat) (c : Nat) (s : State), s.dev.up = true ∧ Store.Canonical chanReset s.dev.chans ∧ s.dev.faultsAt n va w ctx c ∧ c ≠ fPROT ∧ finalCause c = false ∧ s.dev.fqFull = false ∧ s.dev.phys s.dev.fqNext = .hbm) ∧
    (∃ (n : Nat) (va : Nat) (w : Bool) (ctx : Nat) (c : Nat) (s : State), s.dev.up = true ∧ Store.Canonical chanReset s.dev.chans ∧ s.dev.faultsAt n va w ctx c ∧ (c = fPROT ∨ s.dev.fqFull = true)) ∧
    (∃ (n : Nat) (va : Nat) (w : Bool) (ctx : Nat) (c : Nat) (s : State), s.dev.up = true ∧ Store.Canonical chanReset s.dev.chans ∧ s.dev.faultsAt n va w ctx c ∧ finalCause c = true ∧ s.dev.fqFull = false ∧ n < 64) ∧
    (∃ (n : Nat) (s : State), s.dev.up = true ∧ (s.dev.chan n).held = false ∧ fragFault s.dev (s.dev.desc (.chan n)) = none) ∧
    (∃ (n : Nat) (k : Nat) (m : Move) (off : Nat) (c : Nat) (s : State), s.dev.up = true ∧ Store.Canonical tileReset s.dev.tiles ∧ (s.dev.tile n).moves[k]? = some m ∧ m.held = false ∧ (s.dev.tile n).state = tRUNNING ∧ moveBad s.dev n m.entry = some (off, some c) ∧ off = m.entry.prog ∧ c ≠ fPROT ∧ finalCause c = false ∧ s.dev.fqFull = true) ∧
    (∃ (v : W64) (f : QFault) (n : Nat) (s : State), s.dev.up = true ∧ Store.Canonical chanReset s.dev.chans ∧ MMU_FRESUME_ACTION.of v = 0 ∧ ((s.dev.mmu.faults.find? fun f => decide (f.ring = some (MMU_FRESUME_INDEX.of v))) = some f) ∧ f.req = .chan n ∧ f.ctx = 1 ∧ f.cause ≠ fUNMAPPED) ∧
    (∃ (v : W64) (f : QFault) (n : Nat) (s : State), s.dev.up = true ∧ Store.Canonical chanReset s.dev.chans ∧ MMU_FRESUME_ACTION.of v = 1 ∧ n < 64 ∧ ((s.dev.mmu.faults.find? fun f => decide (f.ring = some (MMU_FRESUME_INDEX.of v))) = some f) ∧ f.req = .chan n) ∧
    (∃ (v : W64) (s : State), s.dev.up = true ∧ MMU_FRESUME_ACTION.of v = 1 ∧ ((s.dev.mmu.faults.find? fun f => decide (f.ring = some (MMU_FRESUME_INDEX.of v))) = none)) ∧
    (∃ (v : W64) (s : State), s.dev.up = true ∧ MMU_INV_SCOPE.of v = 0) ∧
    (∃ (v : W64) (s : State), s.dev.up = true ∧ MMU_INV_SCOPE.of v = 1) ∧
    (∃ (v : W64) (s : State), s.dev.up = true ∧ MMU_INV_SCOPE.of v = 2) ∧
    (∃ (s : State), s.dev.up = true) := ⟨
  ⟨3, 0x1000, false, 1, fUNMAPPED, st [root1, busy3 (dsc 0 1 0 0x1000 0x300000 64), put MMU_FQ_BASE 0x200], by decide +kernel⟩,
  ⟨3, 0x1000, false, 1, fUNMAPPED, st [root1, busy3 (dsc 0 1 0 0x1000 0x300000 64), put MMU_FQ_BASE 0x200, put MMU_FQ_PTR_TAIL 1], by decide +kernel⟩,
  ⟨3, 0x1000, false, 2, fCONTEXT, st [busy3 (dsc 0 2 0 0x1000 0x300000 64), put MMU_FQ_BASE 0x200], by decide +kernel⟩,
  ⟨3, ⟨up0, []⟩, by decide +kernel⟩,
  ⟨2, 0, ⟨{ op := .get, w0 := 0x20000000000, w1 := 0, off := 0 }, false⟩, 0, fUNMAPPED, st [root1, put MMU_FQ_PTR_TAIL 1, put (tctxFld 2) 1, modTile 2 fun t => { t.set TLE_STAT_STATE tRUNNING with moves := [⟨{ op := .get, w0 := 0x20000000000, w1 := 0, off := 0 }, false⟩] }], by decide +kernel⟩,
  ⟨0, ⟨some 0, .chan 3, 0x1000, fTRANSIT, false, 1⟩, 3, st [put MMU_STAT_OUTSTANDING 1, modMmu fun m => { m with faults := [⟨some 0, .chan 3, 0x1000, fTRANSIT, false, 1⟩] }, modChan 3 fun c => { c with held := true }], by decide +kernel⟩,
  ⟨w [(MMU_FRESUME_ACTION, 1)], ⟨some 0, .chan 3, 0x1000, fTRANSIT, false, 1⟩, 3, st [put MMU_STAT_OUTSTANDING 1, modMmu fun m => { m with faults := [⟨some 0, .chan 3, 0x1000, fTRANSIT, false, 1⟩] }, modChan 3 fun c => { c with held := true }], by decide +kernel⟩,
  ⟨w [(MMU_FRESUME_ACTION, 1)], ⟨up0, []⟩, by decide +kernel⟩,
  ⟨0, ⟨up0, []⟩, by decide +kernel⟩,
  ⟨w [(MMU_INV_SCOPE, 1)], ⟨up0, []⟩, by decide +kernel⟩,
  ⟨w [(MMU_INV_SCOPE, 2)], ⟨up0, []⟩, by decide +kernel⟩,
  ⟨st [put MMU_INV_STAT_PENDING 1], by decide +kernel⟩⟩

theorem witness_MemoryErrorsAndPartition :
    (∃ (v : W64) (s : State), s.dev.up = true ∧ MMU_PART_GUEST_GIB.of v + MMU_PART_SHORE_GIB.of v ≤ 1347 ∧ s.dev.mode.role = .service ∧ s.dev.mmu.guests = []) ∧
    (∃ (v : W64) (s : State), s.dev.up = true ∧ 1347 < MMU_PART_GUEST_GIB.of v + MMU_PART_SHORE_GIB.of v) ∧
    (∃ (v : W64) (s : State), s.dev.up = true ∧ MMU_PART_GUEST_GIB.of v + MMU_PART_SHORE_GIB.of v ≤ 1347 ∧ (s.dev.mode.role ≠ .service ∨ s.dev.mmu.guests ≠ [])) ∧
    (∃ (pa : Nat) (s : State), s.dev.up = true ∧ s.dev.phys pa = .hbm) ∧
    (∃ (pa : Nat) (ch : Nat) (s : State), s.dev.up = true ∧ s.dev.phys pa = .ddr ch ∧ ch < 24 ∧ (s.dev.get (MEM_DDR_CH_UE ch) ≠ 15 ∨ s.dev.get (MEM_DDR_CH_STATE ch) ≠ 1)) ∧
    (∃ (pa : Nat) (ch : Nat) (s : State), s.dev.up = true ∧ s.dev.phys pa = .ddr ch ∧ ch < 24 ∧ s.dev.get (MEM_DDR_CH_UE ch) = 15 ∧ s.dev.get (MEM_DDR_CH_STATE ch) = 1 ∧ s.dev.mmu.guests = []) ∧
    (∃ (pa : Nat) (n : Nat) (s : State), s.dev.up = true ∧ Store.Canonical chanReset s.dev.chans ∧ s.dev.phys pa = .hbm ∧ n < 64) ∧
    (∃ (pa : Nat) (r : Option Requester) (passes : Bool) (s : State), s.dev.up = true ∧ s.dev.phys pa ∈ [.none, .ctl]) ∧
    (∃ (place : UePlace) (r : Option Requester) (s : State), s.dev.up = true ∧ ((∃ n cls, place = .tile n cls) ∨ ∃ u, place = .engine u)) ∧
    (∃ (n : Nat) (cls : Nat) (s : State), s.dev.up = true ∧ (s.dev.tile n).state ∈ [tRUNNING, tHALTED] ∧ (s.dev.tile n).passes = [] ∧ (s.dev.tile n).moves = [] ∧ (s.dev.tile n).on TLE_ERR_VALID = false ∧ (s.dev.tile n).owner ≠ oWITNESS) ∧
    (∃ (i : Nat) (x : WRec) (s : State), s.dev.up = true ∧ s.dev.wit.queue[i]? = some x) ∧
    (∃ (u : Nat) (s : State), s.dev.up = true ∧ s.dev.resetsRest ∧ u ∈ [0x81, 0x82] ∧ s.dev.slotsIn sSHORED = [] ∧ s.dev.slotsIn sREINT = [] ∧ s.dev.atLimit u 1 = false) ∧
    (∃ (hbm : Nat) (ddr : List Nat) (s : State), s.dev.up = true ∧ s.dev.get MEM_SCRUB_HOURS ≠ 0 ∧ ddr.length ≤ 24) ∧
    (∃ (hbm : Nat) (ddr : List Nat) (s : State), s.dev.up = true ∧ s.dev.get MEM_SCRUB_HOURS = 0) ∧
    (∃ (ctx : Fin 64) (va : W64) (g : Guest) (p : GuestPage) (h : Nat) (home : Nat) (leaf : Nat) (s : State), s.dev.up = true ∧ ((s.dev.mmu.guests.find? fun g => decide (g.ctx = ctx.val)) = some g) ∧ ctx.val ≠ 3 ∧ ((g.pages.find? fun p => decide (p.va = va.toNat / pageBytes * pageBytes)) = some p) ∧ p.hbm = some h ∧ p.home = none ∧ s.dev.freeHome = some home ∧ s.dev.get MEM_DDR_CEIL_CLEAN_GBS ≠ 0 ∧ s.dev.mode.role ≠ .shore ∧ s.dev.mmu.reclaim = .idle ∧ s.dev.shadowed ctx.val p = false ∧ s.dev.runOk h pageBytes = true ∧ (s.dev.entriesOf (va.toNat / pageBytes * pageBytes) 5 0 (s.dev.get (MMU_ROOT_ROOT ctx.val) * 1024))[4]? = some leaf ∧ s.dev.phys leaf = .hbm ∧ (∀ a ∈ s.dev.entriesOf (va.toNat / pageBytes * pageBytes) 5 0 (s.dev.get (MMU_ROOT_ROOT ctx.val) * 1024), a + 8 ≤ home ∨ home + pageBytes ≤ a)) ∧
    (∃ (ctx : Fin 64) (va : W64) (s : State), s.dev.up = true ∧ (s.dev.get MEM_DDR_CEIL_CLEAN_GBS = 0 ∨ s.dev.mode.role = .shore ∨ s.dev.mmu.reclaim ≠ .idle)) ∧
    (∃ (ctx : Fin 64) (p : Program) (s : State), s.dev.runs ∧ ((s.dev.mmu.programs.find? fun p => decide (p.ctx = ctx.val) && p.saved) = some p) ∧ ctx.val ≠ 3 ∧ ((s.dev.mmu.guests.any fun g => decide (g.ctx = ctx.val) && !g.held) = true) ∧ s.dev.mode.guestOn = true ∧ ((p.tiles.all fun n => decide (n ∈ s.dev.freeTiles)) = true) ∧ p.tiles.Nodup ∧ (∀ n ∈ p.tiles, s.dev.imageOk n = true ∧ (s.dev.restored n oGUEST).idleQueues ∧ (s.dev.restored n oGUEST).state ∈ [tIDLE, tSTOPPED] ∧ (s.dev.restored n oGUEST).on TLE_CTRL_STOP = false)) ∧
    (∃ (ctx : Fin 64) (p : Program) (g : Guest) (s : State), s.dev.up = true ∧ ((s.dev.mmu.programs.find? fun p => decide (p.ctx = ctx.val) && p.saved) = some p) ∧ ctx.val ≠ 3 ∧ ((s.dev.mmu.guests.find? fun g => decide (g.ctx = ctx.val)) = some g) ∧ g.held = false ∧ s.dev.mode.guestOn = true ∧ ((p.tiles.all fun n => decide (n ∈ s.dev.freeTiles)) = true) ∧ p.tiles.all s.dev.imageOk = false) ∧
    (∃ (ctx : Fin 64) (s : State), s.dev.up = true ∧ ((s.dev.mmu.programs.any fun p => decide (p.ctx = ctx.val) && p.saved) = false)) := ⟨
  ⟨w [(MMU_PART_GUEST_GIB, 10), (MMU_PART_SHORE_GIB, 20)], ⟨up0, []⟩, by decide +kernel⟩,
  ⟨w [(MMU_PART_GUEST_GIB, 1000), (MMU_PART_SHORE_GIB, 348)], ⟨up0, []⟩, by decide +kernel⟩,
  ⟨w [(MMU_PART_GUEST_GIB, 10), (MMU_PART_SHORE_GIB, 20)], st [jb], by decide +kernel⟩,
  ⟨0x1000, ⟨up0, []⟩, by decide +kernel⟩,
  ⟨ddrBase, 0, st [put MEM_DDR_CFG_N 1, put MEM_DDR_CFG_D 4, put (MEM_DDR_CH_STATE 0) 1], by decide +kernel⟩,
  ⟨ddrBase, 0, st [put MEM_DDR_CFG_N 1, put MEM_DDR_CFG_D 4, put (MEM_DDR_CH_STATE 0) 1, put (MEM_DDR_CH_UE 0) 15], by decide +kernel⟩,
  ⟨0x1000, 3, st [chan3 (dsc 0 0 0 0x200000 0x300000 64)], by decide +kernel⟩,
  ⟨2 ^ 51, none, false, ⟨up0, []⟩, by decide +kernel⟩,
  ⟨.tile 3 1, none, st [], by decide +kernel, Or.inl ⟨3, 1, rfl⟩⟩,
  ⟨3, 1, st [modTile 3 fun t => t.set TLE_STAT_STATE tRUNNING], by decide +kernel⟩,
  ⟨0, ⟨1, [], [], false⟩, st [modWit fun x => { x with queue := [⟨1, [], [], false⟩] }], by decide +kernel⟩,
  ⟨0x81, st [], by decide +kernel⟩,
  ⟨5, [1, 2], st [put MEM_SCRUB_HOURS 1, put (MEM_DDR_CH_STATE 1) 1], by decide +kernel⟩,
  ⟨5, [1, 2], st [put MEM_SCRUB_HOURS 0], by decide +kernel⟩,
  ⟨4, 0x200000, ⟨4, 0, [⟨0x200000, some 0x600000, none⟩], false⟩, ⟨0x200000, some 0x600000, none⟩, 0x600000, ddrBase, 0x40000008, st [put MEM_DDR_CFG_N 1, put MEM_DDR_CFG_D 4, put (MEM_DDR_CH_STATE 0) 1, put MEM_DDR_CEIL_CLEAN_GBS 1, put (MMU_ROOT_ROOT 4) 0x100000, .act (.mem 0x40000000 (leBytes 8 0x40000001 ++ leBytes 8 0x600007)), modMmu fun m => { m with guests := [⟨4, 0, [⟨0x200000, some 0x600000, none⟩], false⟩] }], by decide +kernel, by decide +kernel, by decide +kernel, by decide +kernel, by decide +kernel, by decide +kernel, by decide +kernel, by decide +kernel, by decide +kernel, by decide +kernel, by decide +kernel, runOk_zeros _ _ (by decide +kernel) (by decide +kernel), by decide +kernel, by decide +kernel, by decide +kernel⟩,
  ⟨4, 0x200000, st [put MEM_DDR_CEIL_CLEAN_GBS 0], by decide +kernel⟩,
  ⟨4, ⟨4, 0, [1, 2], [], true⟩, st [jb, modMode fun m => { m with guestOn := true }, modMmu fun m => { m with guests := [⟨4, 0, [], false⟩], programs := [⟨4, 0, [1, 2], [], true⟩] }], by decide +kernel, by decide +kernel, by decide +kernel, by decide +kernel, by decide +kernel, by decide +kernel, by decide +kernel, List.forall_mem_cons.2 ⟨⟨imageOk_empty _ rfl rfl, restored_idle _ _ rfl rfl rfl (by decide)⟩, List.forall_mem_cons.2 ⟨⟨imageOk_empty _ rfl rfl, restored_idle _ _ rfl rfl rfl (by decide)⟩, fun _ h => nomatch h⟩⟩⟩,
  ⟨4, ⟨4, 0, [1], [], true⟩, ⟨4, 0, [], false⟩, st [jb, modMode fun m => { m with guestOn := true }, modMmu (fun m => { m with guests := [⟨4, 0, [], false⟩], programs := [⟨4, 0, [1], [], true⟩] }), .act (.check ((saveAreaBase + 0x2000000) / 4096) 5)], by decide +kernel, by decide +kernel, by decide +kernel, by decide +kernel, by decide +kernel, by decide +kernel, by decide +kernel, by rw [List.all_cons, imageBad 1 (by decide) rfl (by decide +kernel)]; rfl⟩,
  ⟨4, st [jb], by decide +kernel⟩⟩

theorem witness_DmaChannelsMoveBlocks :
    (∃ (n : ChanId) (v : W64) (s : State), s.dev.up = true ∧ (DMA_CTRL_EN n.val).of v = 1 ∧ (DMA_CTRL_STOP n.val).of v = 0 ∧ (s.dev.mode.role ≠ .quarantine ∨ s.dev.on (DMA_CTRL_EN n.val) = true)) ∧
    (∃ (n : ChanId) (v : W64) (s : State), s.dev.up = true ∧ (DMA_CTRL_EN n.val).of v = 1 ∧ s.dev.mode.role = .quarantine ∧ s.dev.on (DMA_CTRL_EN n.val) = false) ∧
    (∃ (n : ChanId) (v : W64) (s : State), s.dev.up = true ∧ (DMA_CTRL_STOP n.val).of v = 1 ∧ s.dev.on (DMA_CTRL_EN n.val) = true) ∧
    (∃ (n : ChanId) (v : W64) (s : State), s.dev.up = true) ∧
    (∃ (n : Nat) (at_ : Nat) (s : State), s.dev.up = true ∧ Store.Canonical chanReset s.dev.chans ∧ s.dev.readyFor n at_ ∧ (Desc.ofBytes (s.dev.bytes at_ 64)).doneBit = false ∧ descCheck s.dev (.chan n) (Desc.ofBytes (s.dev.bytes at_ 64)) = none ∧ (Desc.ofBytes (s.dev.bytes at_ 64)).total ≠ 0) ∧
    (∃ (n : Nat) (at_ : Nat) (code : Nat) (s : State), s.dev.up = true ∧ n < 64 ∧ Store.Canonical chanReset s.dev.chans ∧ s.dev.readyFor n at_ ∧ s.dev.phys (at_ + 3) = .hbm ∧ (Desc.ofBytes (s.dev.bytes at_ 64)).doneBit = false ∧ descCheck s.dev (.chan n) (Desc.ofBytes (s.dev.bytes at_ 64)) = some code ∧ code < 16) ∧
    (∃ (n : Nat) (at_ : Nat) (s : State), s.dev.up = true ∧ n < 64 ∧ Store.Canonical chanReset s.dev.chans ∧ s.dev.readyFor n at_ ∧ (Desc.ofBytes (s.dev.bytes at_ 64)).doneBit = true ∧ (Desc.ofBytes (s.dev.bytes at_ 64)).chain = false) ∧
    (∃ (n : Nat) (x : Desc) (pa : Nat) (s : State), s.dev.up = true ∧ n < 64 ∧ Store.Canonical chanReset s.dev.chans ∧ s.dev.movesTo n x pa ∧ (fragBytes s.dev x).2 = true ∧ x.progress + x.fragment.2.2 < x.total) ∧
    (∃ (n : Nat) (x : Desc) (pa : Nat) (s : State), s.dev.up = true ∧ n < 64 ∧ Store.Canonical chanReset s.dev.chans ∧ s.dev.movesTo n x pa ∧ (fragBytes s.dev x).2 = true ∧ x.total ≤ x.progress + x.fragment.2.2 ∧ x.chain = false ∧ (s.dev.chan n).entry = (s.dev.chan n).cur ∧ x.sigt = 0) ∧
    (∃ (n : Nat) (x : Desc) (pa : Nat) (c : Nat) (s : State), s.dev.up = true ∧ n < 64 ∧ Store.Canonical chanReset s.dev.chans ∧ s.dev.movesTo n x pa ∧ (fragBytes s.dev x).2 = true ∧ x.total ≤ x.progress + x.fragment.2.2 ∧ x.chain = false ∧ (s.dev.chan n).entry = (s.dev.chan n).cur ∧ x.sigt = 3 ∧ s.dev.winCounter 0 x.sigc = some c ∧ 4096 ≤ c ∧ ((s.dev.watches.all fun e => decide (e.2.counter ≠ c)) = true)) ∧
    (∃ (n : Nat) (x : Desc) (pa : Nat) (s : State), s.dev.up = true ∧ n < 64 ∧ Store.Canonical chanReset s.dev.chans ∧ s.dev.movesTo n x pa ∧ (fragBytes s.dev x).2 = false) := ⟨
  ⟨3, w [(DMA_CTRL_EN 3, 1)], ⟨up0, []⟩, by decide +kernel⟩,
  ⟨3, w [(DMA_CTRL_EN 3, 1)], st [modMode fun m => { m with role := .quarantine }], by decide +kernel⟩,
  ⟨3, w [(DMA_CTRL_STOP 3, 1)], st [put (DMA_CTRL_EN 3) 1], by decide +kernel⟩,
  ⟨3, w [(DMA_PTR_TAIL 3, 2)], st [put (DMA_CTRL_EN 3) 1], by decide +kernel⟩,
  ⟨3, 0x100000, st [chan3 (dsc 0 0 0 0x200000 0x300000 128), modChan 3 fun c => { c with entry := 0x100000, cur := 0x100000 }], by decide +kernel⟩,
  ⟨3, 0x100000, stUNSUPPORTED, st [chan3 (dsc 3 0 0 0x200000 0x300000 128)], by decide +kernel⟩,
  ⟨3, 0x100000, st [chan3 (dsc 0x10000000 0 0 0x200000 0x300000 128)], by decide +kernel⟩,
  ⟨3, Desc.ofBytes (dsc 2 0 0 0x200000 0x300000 8192), 0x300000, st [busy3 (dsc 2 0 0 0x200000 0x300000 8192)], by decide +kernel⟩,
  ⟨3, Desc.ofBytes (dsc 0 0 0 0x200000 0x300000 128), 0x300000, st [busy3 (dsc 0 0 0 0x200000 0x300000 128)], by decide +kernel⟩,
  ⟨3, Desc.ofBytes (dsc 0x62 0 0 0x200000 0x300000 128), 0x300000, 5000, st [busy3 (dsc 0x62 0 0 0x200000 0x300000 128), put (SYN_WIN_BASE 0) 5000, put (SYN_WIN_SIZE 0) 8], by decide +kernel⟩,
  ⟨3, Desc.ofBytes (dsc 0 0 0 0x200000 0x300000 128), 0x300000, st [busy3 (dsc 0 0 0 0x200000 0x300000 128), .act (.check 0x200 0)], by decide +kernel⟩⟩

theorem witness_FabricOfTheShoredPosition :
    (∃ (f : QFault) (s : State), s.dev.runs ∧ ((s.dev.mmu.faults.find? fun g => decide (g.cause = fPROT) && decide (g.req = f.req)) = some f) ∧ s.dev.protGranule f.va = none ∧ (∀ n, n < 64 → f.req = .chan n → Store.Canonical chanReset s.dev.chans)) ∧
    (∃ (f : QFault) (n : Nat) (g : Nat) (page : Nat) (lo : Nat) (k : Nat) (x : Nat) (s : State), s.dev.runs ∧ Store.Canonical agentReset s.dev.agents ∧ Store.Canonical chanReset s.dev.chans ∧ ((s.dev.mmu.faults.find? fun g => decide (g.cause = fPROT) && decide (g.req = f.req)) = some f) ∧ f.req = .chan n ∧ s.dev.protGranule f.va = some g ∧ s.dev.copyRoom = some page ∧ (s.dev.agent localAgent).granAt g = some (lo, k) ∧ s.dev.jobPhys f.va = some x ∧ s.dev.jobPhys lo = some x ∧ s.dev.runOk x (k * 4096) = true) ∧
    (∃ (p : Fin 24) (m : QMsg) (mark : Bool) (pa : Nat) (leaf : Nat) (s : State), s.dev.runs ∧ s.dev.takesFabric p m ∧ s.dev.sync.win = .open ∧ s.dev.openEntry .fabric m.tag.toNat = none ∧ s.dev.transferRoom .fabric m.tag.toNat = true ∧ m.last = false ∧ (mark = true → s.dev.fabMarkOk m = true) ∧ m.data.length ≤ 4096 + 32 * mark.toNat ∧ m.arg.toNat % pageBytes + m.data.length ≤ pageBytes ∧ s.dev.translate 1 m.arg.toNat true false = .ok pa leaf ∧ s.dev.phys pa = .hbm) ∧
    (∃ (p : Fin 24) (m : QMsg) (s : State), s.dev.runs ∧ s.dev.takesFabric p m ∧ s.dev.sync.win = .open ∧ s.dev.transferRoom .fabric m.tag.toNat = true ∧ m.data.length ≤ 4128 ∧ s.dev.fabMarkOk m = false ∧ ((s.dev.shore.repointsMade.all fun e => decide (e.1 ≠ (m.tag.toNat / 65536, (s.dev.agent localAgent).step, numAt m.data 17 3))) = true)) ∧
    (∃ (p : Fin 24) (m : QMsg) (mark : Bool) (s : State), s.dev.runs ∧ s.dev.hubFenced = false ∧ s.dev.shoredLive = true ∧ 8 ≤ p.val ∧ p.val < 20 ∧ m.epoch.toNat ≠ s.dev.epoch) ∧
    (∃ (p : Fin 24) (m : QMsg) (c : Nat) (s : State), s.dev.runs ∧ s.dev.takesFabric p m ∧ s.dev.sync.win = .open ∧ s.dev.openEntry .fabric m.tag.toNat = none ∧ s.dev.transferRoom .fabric m.tag.toNat = true ∧ m.data = [] ∧ m.last = true ∧ m.sig = true ∧ m.pkts = 1 ∧ s.dev.winCounter 1 m.sigIdx.toNat = some c ∧ ((s.dev.watches.all fun e => decide (e.2.counter ≠ c)) = true)) ∧
    (∃ (p : Fin 24) (m : QMsg) (pa : Nat) (leaf : Nat) (s : State), s.dev.runs ∧ s.dev.takesFabric p m ∧ s.dev.sync.win = .open ∧ m.data = [] ∧ 0 < m.arg.toNat / 2 ^ 52 ∧ m.arg.toNat / 2 ^ 52 ≤ 64 ∧ m.arg.toNat % 2 ^ 52 % pageBytes + 64 * (m.arg.toNat / 2 ^ 52) ≤ pageBytes ∧ s.dev.translate 1 (m.arg.toNat % 2 ^ 52) false false = .ok pa leaf ∧ s.dev.runOk pa (64 * (m.arg.toNat / 2 ^ 52)) = true) ∧
    (∃ (p : Fin 24) (m : QMsg) (s : State), s.dev.runs ∧ (s.dev.takesFabric p m ∧ m.data = [] ∧ s.dev.sync.win ≠ .open ∨ s.dev.hubFenced = true ∧ 8 ≤ p.val ∧ p.val < 20)) ∧
    (∃ (p : Fin 24) (m : QMsg) (s : State), s.dev.runs ∧ s.dev.takesFabric p m ∧ m.data ≠ []) ∧
    (∃ (p : Fin 24) (m : QMsg) (s : State), s.dev.runs ∧ s.dev.takesFabric p m ∧ m.data.length ≤ 4096) := ⟨
  ⟨⟨none, .chan 3, 0x1000, fPROT, true, 1⟩, st [jb, modMmu fun m => { m with faults := [⟨none, .chan 3, 0x1000, fPROT, true, 1⟩] }], by decide +kernel⟩,
  ⟨⟨none, .chan 3, 0x200000, fPROT, true, 1⟩, 3, 0, 0x440000000, 0x200000, 1, 0x600000, st [jb, modMmu (fun m => { m with faults := [⟨none, .chan 3, 0x200000, fPROT, true, 1⟩] }), map1, put MMU_PART_CACHE_GIB 1, put MMU_PART_SHORE_GIB 1, ag 8 ([(QAG_REG_A_VALID 0, 1), (QAG_REG_A_STATE 0, 1), (QAG_REG_A_BASE 0, 1), (QAG_REG_B_LEN 0, 1)] ++ [(QAG_CBUF_CFG_SIZE, 1), (QAG_STATE_CSTATE, 2)])], by decide +kernel, by decide +kernel, by decide +kernel, by decide +kernel, by decide +kernel, by decide +kernel, by decide +kernel, by decide +kernel, selfTable_jobPhys (by decide +kernel) (by decide), selfTable_jobPhys (by decide +kernel) (by decide), runOk_zeros _ _ (by decide +kernel) (by decide +kernel)⟩,
  ⟨9, { fm 0x200040 (List.replicate 64 7) with last := false }, false, 0x600040, 0x40000008, st [shored, map1], by decide +kernel, by decide +kernel, by decide +kernel, by decide +kernel, by decide +kernel, by decide +kernel, by decide +kernel, by decide +kernel, by decide +kernel, selfTable_translate (c := 1) (e := 0x600007) (by decide +kernel) (by decide) (by decide), by decide +kernel⟩,
  ⟨9, fm 0x200040 (List.replicate 64 7), st [shored], by decide +kernel⟩,
  ⟨9, { fm 0x200040 (List.replicate 64 7) with epoch := 8 }, false, st [shored], by decide +kernel⟩,
  ⟨9, { fm 0 with sig := true, sigIdx := 2, sigInc := 3 }, 22, st [shored, put (SYN_WIN_BASE 1) 20, put (SYN_WIN_SIZE 1) 8], by decide +kernel⟩,
  ⟨9, fm (2 ^ 52 + 0x200040), 0x600040, 0x40000008, st [shored, map1], by decide +kernel, by decide +kernel, by decide +kernel, by decide +kernel, by decide +kernel, by decide +kernel, by decide +kernel, selfTable_translate (c := 1) (e := 0x600007) (by decide +kernel) (by decide) (by decide), runOk_zeros _ _ (by decide +kernel) (by decide +kernel)⟩,
  ⟨9, fm (2 ^ 52 + 0x200040), st [shored, modSync fun x => { x with win := .final }], by decide +kernel⟩,
  ⟨9, fm (2 ^ 52 + 0x200040) [1], st [shored], by decide +kernel⟩,
  ⟨9, fm 9 [1, 2], st [shored], by decide +kernel⟩⟩

theorem witness_CountersAndWatches :
    (∃ (v : W64) (s : State), s.dev.up = true ∧ v ≠ 0 ∧ (s.dev.get SYN_SEL_INDEX < 4096 → s.dev.sync.win ≠ .final) ∧ s.dev.unwatched (s.dev.get SYN_SEL_INDEX) = true) ∧
    (∃ (v : W64) (k : Nat) (w : Watch) (s : State), s.dev.up = true ∧ v ≠ 0 ∧ (s.dev.get SYN_SEL_INDEX < 4096 → s.dev.sync.win ≠ .final) ∧ s.dev.watches = [(k, w)] ∧ w.counter = s.dev.get SYN_SEL_INDEX ∧ w.target = .cc ∧ satisfied (s.dev.counter (s.dev.get SYN_SEL_INDEX) + v) w.value = true) ∧
    (∃ (v : W64) (s : State), s.dev.up = true ∧ (v = 0 ∨ (s.dev.get SYN_SEL_INDEX < 4096 ∧ s.dev.sync.win = .final))) ∧
    (∃ (v : W64) (s : State), s.dev.up = true ∧ s.dev.settable (s.dev.get SYN_SEL_INDEX) = true ∧ s.dev.unwatched (s.dev.get SYN_SEL_INDEX) = true) ∧
    (∃ (v : W64) (s : State), s.dev.up = true ∧ s.dev.settable (s.dev.get SYN_SEL_INDEX) = false) ∧
    (∃ (n : BitVec 6) (v : W64) (s : State), s.dev.up = true ∧ 3 ≤ n.toNat ∧ s.dev.get (MMU_ROOT_VALID n.toNat) = 0 ∧ s.dev.windowFits n.toNat ((SYN_WIN_BASE n.toNat).of v) ((SYN_WIN_SIZE n.toNat).of v) = true) ∧
    (∃ (n : BitVec 6) (v : W64) (s : State), s.dev.up = true ∧ 3 ≤ n.toNat ∧ s.dev.get (MMU_ROOT_VALID n.toNat) = 0 ∧ s.dev.windowFits n.toNat ((SYN_WIN_BASE n.toNat).of v) ((SYN_WIN_SIZE n.toNat).of v) = false) ∧
    (∃ (n : BitVec 6) (v : W64) (s : State), s.dev.up = true ∧ 3 ≤ n.toNat ∧ s.dev.get (MMU_ROOT_VALID n.toNat) = 1) ∧
    (∃ (n : BitVec 6) (v : W64) (s : State), s.dev.up = true ∧ n.toNat < 3) ∧
    (∃ (m : BitVec 10) (v : W64) (s : State), s.dev.up = true ∧ ((SYN_BAR_A_VALID m.toNat).of v = 0 ∨ (SYN_BAR_A_N m.toNat).of v ≠ 0)) ∧
    (∃ (m : BitVec 10) (v : W64) (s : State), s.dev.up = true ∧ (SYN_BAR_A_VALID m.toNat).of v = 1 ∧ (SYN_BAR_A_N m.toNat).of v = 0) ∧
    (∃ (v : W64) (k : Nat) (s : State), s.dev.up = true ∧ SYN_WARM_GO.of v = 1 ∧ s.dev.get (SYN_WIN_BASE 0) ≤ SYN_WARM_COUNTER.of v ∧ SYN_WARM_COUNTER.of v < s.dev.get (SYN_WIN_BASE 0) + s.dev.get (SYN_WIN_SIZE 0) ∧ s.dev.freeWatch = some k ∧ s.dev.unwatched (SYN_WARM_COUNTER.of v) = true ∧ satisfied (s.dev.counter (SYN_WARM_COUNTER.of v)) (s.dev.word SYN_WV_V.addr) = false) ∧
    (∃ (v : W64) (s : State), s.dev.up = true ∧ SYN_WARM_GO.of v = 1 ∧ (SYN_WARM_COUNTER.of v < s.dev.get (SYN_WIN_BASE 0) ∨ s.dev.get (SYN_WIN_BASE 0) + s.dev.get (SYN_WIN_SIZE 0) ≤ SYN_WARM_COUNTER.of v)) ∧
    (∃ (n : BitVec 12) (w : Watch) (s : State), s.dev.runs ∧ Store.find? s.dev.watches n.toNat = some w ∧ w.deadline ≠ 0 ∧ w.deadline ≤ s.dev.podTime ∧ w.target = .cc) := ⟨
  ⟨9, st [put SYN_SEL_INDEX 5], by decide +kernel⟩,
  ⟨9, 4, ⟨5, 3, 0, .cc⟩, st [put SYN_SEL_INDEX 5, .act (.watch 4 (some ⟨5, 3, 0, .cc⟩))], by decide +kernel⟩,
  ⟨0, ⟨up0, []⟩, by decide +kernel⟩,
  ⟨9, st [put SYN_SEL_INDEX 9000], by decide +kernel⟩,
  ⟨9, st [put SYN_SEL_INDEX 5], by decide +kernel⟩,
  ⟨5, w [(SYN_WIN_BASE 5, 20000), (SYN_WIN_SIZE 5, 4)], ⟨up0, []⟩, by decide +kernel⟩,
  ⟨5, w [(SYN_WIN_BASE 5, 2000), (SYN_WIN_SIZE 5, 4)], ⟨up0, []⟩, by decide +kernel⟩,
  ⟨5, 0, st [put (MMU_ROOT_VALID 5) 1], by decide +kernel⟩,
  ⟨1, 0, ⟨up0, []⟩, by decide +kernel⟩,
  ⟨5, w [(SYN_BAR_A_VALID 5, 1), (SYN_BAR_A_N 5, 3)], ⟨up0, []⟩, by decide +kernel⟩,
  ⟨5, w [(SYN_BAR_A_VALID 5, 1)], ⟨up0, []⟩, by decide +kernel⟩,
  ⟨w [(SYN_WARM_GO, 1), (SYN_WARM_COUNTER, 2)], 0, st [put (SYN_WIN_SIZE 0) 8, put (SYN_WIN_BASE 0) 0, put SYN_WV_V 3], by decide +kernel⟩,
  ⟨w [(SYN_WARM_GO, 1), (SYN_WARM_COUNTER, 9000)], st [put (SYN_WIN_SIZE 0) 8, put (SYN_WIN_BASE 0) 0], by decide +kernel⟩,
  ⟨4, ⟨5, 30, 10, .cc⟩, st [.act (.podTime 20), .act (.watch 4 (some ⟨5, 30, 10, .cc⟩))], by decide +kernel⟩⟩

theorem witness_TransfersAndDumps :
    (∃ (s : State), s.dev.runs ∧ ((s.dev.sync.transfers.any fun e => decide (e.tick + 700 * orElse (s.dev.get SYN_TIMEOUT_XFER_US) 1000 ≤ s.dev.clk)) = true)) ∧
    (∃ (n : Nat) (s : State), s.dev.runs ∧ s.dev.sync.win = .draining ∧ s.dev.shore.slot = some n ∧ s.dev.phase ≠ phLOADING) ∧
    (∃ (s : State), s.dev.runs ∧ s.dev.sync.win = .draining ∧ s.dev.shore.slot = none ∧ Store.Canonical counterReset s.dev.counters) ∧
    (∃ (v : W64) (s : State), s.dev.up = true ∧ SYN_DUMP_GO.of v = 1 ∧ SYN_DUMP_WHOLE.of v = 0 ∧ s.dev.pmBase + s.dev.sync.dumpSlot * 0x200000 + 0x106000 ≤ hbmCheckBase ∧ s.dev.get (SYN_WIN_SIZE (SYN_DUMP_CTX.of v)) ≤ 65536) := ⟨
  ⟨st [.act (.clk 700100), modSync fun x => { x with transfers := [⟨.fabric, 9, 1, 0, 0, 0, false, 5, 0⟩, ⟨.fabric, 10, 1, 0, 0, 0, false, 5, 700000⟩] }], by decide +kernel⟩,
  ⟨2, st [jb, modShore fun x => { x with slot := some 2 }, modSync fun x => { x with win := .draining, transfers := [⟨.fabric, 9, 1, 0, 0, 0, false, 5, 0⟩, ⟨.session 3, 10, 1, 0, 0, 0, false, 999999, 0⟩] }], by decide +kernel⟩,
  ⟨st [jb, .act (.counter 5 7), .act (.counter 5000 9), modSync fun x => { x with win := .draining }], by decide +kernel⟩,
  ⟨w [(SYN_DUMP_GO, 1), (SYN_DUMP_CTX, 5)], st [jb, put (SYN_WIN_BASE 5) 20000, put (SYN_WIN_SIZE 5) 3, put SYN_PM_BASE_BASE 0x100, .act (.counter 20001 7)], by decide +kernel⟩⟩

theorem witness_TilesStartStopAndWait :
    (∃ (t : TileId) (v : W64) (s : State), s.dev.up = true ∧ TLE_CTRL_EN.of v = 1 ∧ (s.dev.tile t.val).state = tIDLE ∧ (s.dev.tile t.val).get TLE_PROG_COUNT ≠ 0 ∧ (s.dev.tile t.val).idleQueues ∧ s.dev.on TAL_HALT_HALTED = false ∧ (s.dev.tile t.val).on TLE_CTRL_STOP = false ∧ s.dev.mode.role ≠ .quarantine) ∧
    (∃ (t : TileId) (v : W64) (s : State), s.dev.up = true ∧ TLE_CTRL_EN.of v = 1 ∧ (s.dev.tile t.val).state = tSTOPPED ∧ (s.dev.tile t.val).get TLE_PROG_COUNT ≠ 0 ∧ (s.dev.tile t.val).idleQueues ∧ s.dev.on TAL_HALT_HALTED = false ∧ (s.dev.tile t.val).on TLE_CTRL_STOP = false ∧ s.dev.mode.role ≠ .quarantine) ∧
    (∃ (t : TileId) (v : W64) (s : State), s.dev.up = true ∧ TLE_CTRL_EN.of v = 1 ∧ (s.dev.tile t.val).state ∈ [tIDLE, tSTOPPED] ∧ (s.dev.tile t.val).get TLE_PROG_COUNT ≠ 0 ∧ s.dev.on TAL_HALT_HALTED = true ∧ s.dev.mode.role ≠ .quarantine ∧ (s.dev.tile t.val).on TLE_STAT_PAIRED = false) ∧
    (∃ (t : TileId) (v : W64) (s : State), s.dev.up = true ∧ TLE_CTRL_EN.of v = 1 ∧ (s.dev.tile t.val).state ∈ [tIDLE, tSTOPPED] ∧ (s.dev.tile t.val).get TLE_PROG_COUNT = 0 ∧ s.dev.mode.role ≠ .quarantine) ∧
    (∃ (t : TileId) (v : W64) (s : State), s.dev.up = true ∧ TLE_CTRL_EN.of v = 1 ∧ (s.dev.tile t.val).state ∈ [tIDLE, tSTOPPED] ∧ s.dev.mode.role = .quarantine) ∧
    (∃ (t : TileId) (v : W64) (s : State), s.dev.up = true ∧ TLE_CTRL_STOP.of v = 1 ∧ (s.dev.tile t.val).state = tRUNNING ∧ (s.dev.tile t.val).on TLE_STAT_PAIRED = true) ∧
    (∃ (t : TileId) (w0 : W64) (w1 : W64) (s : State), s.dev.up = true ∧ (s.dev.tile t.val).on TLE_STAT_PAIRED = true ∧ s.dev.takesNext (t.val / 2 * 2) .ctAdd w0 w1 ∧ s.dev.takesNext (t.val / 2 * 2 + 1) .ctAdd w0 w1) ∧
    (∃ (t : TileId) (v : W64) (s : State), s.dev.up = true ∧ TLE_CTRL_STOP.of v = 1 ∧ (s.dev.tile t.val).state ∈ [tRUNNING, tHALTED] ∧ (s.dev.tile t.val).on TLE_STAT_PAIRED = false) ∧
    (∃ (t : TileId) (v : W64) (s : State), s.dev.up = true ∧ TLE_ERR_VALID.of v = 1 ∧ (s.dev.tile t.val).state = tFAULTED) ∧
    (∃ (t : TileId) (g : Nat) (gs : List Nat) (s : State), s.dev.up = true ∧ (s.dev.tile t.val).gangs = g :: gs ∧ (s.dev.tile t.val).idleQueues ∧ (s.dev.tile t.val).state ≠ tHALTED) ∧
    (∃ (t : TileId) (s : State), s.dev.up = true ∧ (s.dev.tile t.val).passes ≠ []) ∧
    (∃ (t : TileId) (e : QEntry) (s : State), s.dev.up = true ∧ (s.dev.tile t.val).issuing = true ∧ (s.dev.tile t.val).get TLE_WAITLIM_LIMIT_US ≠ 0 ∧ (s.dev.tile t.val).heldWait none = some e ∧ (s.dev.tile t.val).passes = [] ∧ (s.dev.tile t.val).moves = [] ∧ (s.dev.tile t.val).descs = [] ∧ (s.dev.tile t.val).owner ∉ [oJOB, oWITNESS] ∧ s.dev.programOf t.val = none ∧ (s.dev.tile t.val).on TLE_ERR_VALID = false ∧ e.off < 2 ^ 32 ∧ (s.dev.tile t.val).on TLE_STAT_PAIRED = false) ∧
    (∃ (t : TileId) (e : QEntry) (s : State), s.dev.up = true ∧ (s.dev.tile t.val).runsEmpty ∧ (s.dev.tile t.val).front = some e ∧ e.mark = true ∧ e.op = .wait ∧ bitsAt e.w0 9 1 = 1 ∧ satisfied ((s.dev.tile t.val).counter (bitsAt e.w0 10 6)) (if bitsAt e.w0 21 1 = 1 then (s.dev.tile t.val).sReg (bitsAt e.w0 16 5) else if bitsAt e.w0 8 1 = 1 then e.w1 else BitVec.ofNat 64 (bitsAt e.w0 22 32)) = true) ∧
    (∃ (t : TileId) (g : Fin 4) (e : QEntry) (s : State), s.dev.up = true ∧ (s.dev.tile t.val).runsEmpty ∧ (s.dev.tile t.val).front = none ∧ (s.dev.tile t.val).relaxed = false ∧ (((s.dev.tile t.val).passes.find? fun p => decide (mxGang p.w0 = g.val)) = some e) ∧ e.sample = none) ∧
    (∃ (t : TileId) (e : QEntry) (s : State), s.dev.up = true ∧ (s.dev.tile t.val).runsEmpty ∧ (s.dev.tile t.val).front = none ∧ (s.dev.tile t.val).moves = [⟨e, false⟩] ∧ (s.dev.tile t.val).on TLE_STAT_PAIRED = false ∧ e.op = .copy ∧ e.prog = 0 ∧ mvSigt e.w0 = 1 ∧ s.dev.mmu.faults = []) ∧
    (∃ (t : TileId) (e : QEntry) (pa : Nat) (leaf : Nat) (s : State), s.dev.up = true ∧ (s.dev.tile t.val).runsEmpty ∧ (s.dev.tile t.val).front = none ∧ (s.dev.tile t.val).moves = [⟨e, false⟩] ∧ (s.dev.tile t.val).on TLE_STAT_PAIRED = false ∧ e.op = .put ∧ e.prog = 0 ∧ mvSigt e.w0 = 0 ∧ s.dev.mmu.faults = [] ∧ 0 < mvLen e.w0 ∧ mvMemory e % 4096 + mvLen e.w0 ≤ 4096 ∧ s.dev.translate (s.dev.tctx t.val) (mvMemory e) true true = .ok pa leaf ∧ s.dev.phys pa = .hbm) ∧
    (∃ (t : TileId) (e : QEntry) (pa : Nat) (leaf : Nat) (s : State), s.dev.up = true ∧ (s.dev.tile t.val).runsEmpty ∧ (s.dev.tile t.val).front = none ∧ (s.dev.tile t.val).moves = [⟨e, false⟩] ∧ (s.dev.tile t.val).on TLE_STAT_PAIRED = false ∧ e.op = .get ∧ e.prog = 0 ∧ mvSigt e.w0 = 0 ∧ s.dev.mmu.faults = [] ∧ 0 < mvLen e.w0 ∧ mvMemory e % 4096 + mvLen e.w0 ≤ 4096 ∧ s.dev.translate (s.dev.tctx t.val) (mvMemory e) false true = .ok pa leaf ∧ s.dev.blockOk pa = true ∧ leaf = 0) := ⟨
  ⟨2, w [(TLE_CTRL_EN, 1), (TLE_CTRL_RELAXED, 1)], st [modTile 2 fun t => (t.set TLE_PROG_COUNT 1).set TLE_ENTRY_ENTRY 128], by decide +kernel⟩,
  ⟨2, w [(TLE_CTRL_EN, 1)], st [modTile 2 fun t => ((t.set TLE_PROG_COUNT 1).set TLE_PC_PC 128).set TLE_STAT_STATE tSTOPPED], by decide +kernel⟩,
  ⟨2, w [(TLE_CTRL_EN, 1)], st [put TAL_HALT_HALTED 1, modTile 2 fun t => t.set TLE_PROG_COUNT 1], by decide +kernel⟩,
  ⟨2, w [(TLE_CTRL_EN, 1)], ⟨up0, []⟩, by decide +kernel⟩,
  ⟨2, w [(TLE_CTRL_EN, 1)], st [modMode fun m => { m with role := .quarantine }], by decide +kernel⟩,
  ⟨2, w [(TLE_CTRL_STOP, 1)], st [tl fun t => t.set TLE_STAT_PAIRED 1], by decide +kernel⟩,
  ⟨2, ctw 0x38 0 3 1 2 0 0, 0, st [tl2 (fun t => (t.setS 1 0xFFFFFFFFFFFFFFF0).setS 2 7)], by decide +kernel⟩,
  ⟨2, w [(TLE_CTRL_STOP, 1)], st [tl], by decide +kernel⟩,
  ⟨2, w [(TLE_ERR_VALID, 1)], st [modTile 2 fun t => (t.set TLE_STAT_STATE tFAULTED).set TLE_ERR_VALID 1], by decide +kernel⟩,
  ⟨2, 2, [1], st [tl fun t => { t.set TLE_MXCFG_GANG 2 with gangs := [2, 1] }], by decide +kernel⟩,
  ⟨2, st [tl fun t => { t.set TLE_MXCFG_GANG 2 with passes := [{ op := .pass, w0 := lw [(0, 1), (8, 1), (38, 32)], w1 := 0, off := 0 }] }], by decide +kernel⟩,
  ⟨2, none.getD { op := .wait, w0 := lw [(0, 0x30), (9, 1), (10, 3), (22, 5)], w1 := 0, off := 64, sv := [0], mark := true }, st [tl fun t => { t.set TLE_WAITLIM_LIMIT_US 9 with front := some { op := .wait, w0 := lw [(0, 0x30), (9, 1), (10, 3), (22, 5)], w1 := 0, off := 64, sv := [0], mark := true } }], by decide +kernel⟩,
  ⟨2, none.getD { op := .wait, w0 := lw [(0, 0x30), (9, 1), (10, 3), (22, 5)], w1 := 0, off := 64, sv := [0], mark := true }, st [tl fun t => { t.addCounter 3 5 with front := some { op := .wait, w0 := lw [(0, 0x30), (9, 1), (10, 3), (22, 5)], w1 := 0, off := 64, sv := [0], mark := true } }], by decide +kernel⟩,
  ⟨2, 0, none.getD { op := .pass, w0 := lw [(0, 1), (8, 1), (38, 32)], w1 := 0, off := 0 }, st [tl fun t => { t with passes := [{ op := .pass, w0 := lw [(0, 1), (8, 1), (38, 32)], w1 := 0, off := 0 }] }], by decide +kernel⟩,
  ⟨2, none.getD { op := .copy, w0 := lw [(0, 1), (6, 3), (8, 1), (17, 1), (19, 4), (35, 128)], w1 := lw [(0, 4096), (25, 8192)], off := 0 }, st [tl fun t => { t with moves := [⟨{ op := .copy, w0 := lw [(0, 1), (6, 3), (8, 1), (17, 1), (19, 4), (35, 128)], w1 := lw [(0, 4096), (25, 8192)], off := 0 }, false⟩] }, .act (.mem (tileByte 2 8192) (List.replicate 128 5))], by decide +kernel⟩,
  ⟨2, none.getD { op := .put, w0 := lw [(0, 3), (6, 3), (8, 1), (35, 128)], w1 := lw [(0, 4096), (25, 0x700000)], off := 0 }, 0x700000, 0, st [tl fun t => { t with moves := [⟨{ op := .put, w0 := lw [(0, 3), (6, 3), (8, 1), (35, 128)], w1 := lw [(0, 4096), (25, 0x700000)], off := 0 }, false⟩] }, .act (.mem (tileByte 2 4096) (List.replicate 128 5))], by decide +kernel⟩,
  ⟨2, none.getD { op := .get, w0 := lw [(0, 2), (6, 3), (8, 1), (35, 128)], w1 := lw [(0, 4096), (25, 0x700000)], off := 0 }, 0x700000, 0, st [tl fun t => { t with moves := [⟨{ op := .get, w0 := lw [(0, 2), (6, 3), (8, 1), (35, 128)], w1 := lw [(0, 4096), (25, 0x700000)], off := 0 }, false⟩] }], by decide +kernel⟩⟩

theorem witness_CtArithmeticAndAddresses :
    (∃ (t : TileId) (w0 : W64) (w1 : W64) (s : State), s.dev.up = true ∧ s.dev.fetches t.val .ctAdd w0 w1) ∧
    (∃ (t : TileId) (w0 : W64) (w1 : W64) (s : State), s.dev.up = true ∧ s.dev.fetches t.val .ctSub w0 w1) ∧
    (∃ (t : TileId) (w0 : W64) (w1 : W64) (s : State), s.dev.up = true ∧ s.dev.fetches t.val .ctMul w0 w1) ∧
    (∃ (t : TileId) (w0 : W64) (w1 : W64) (s : State), s.dev.up = true ∧ s.dev.fetches t.val .ctAnd w0 w1) ∧
    (∃ (t : TileId) (w0 : W64) (w1 : W64) (s : State), s.dev.up = true ∧ s.dev.fetches t.val .ctOr w0 w1) ∧
    (∃ (t : TileId) (w0 : W64) (w1 : W64) (s : State), s.dev.up = true ∧ s.dev.fetches t.val .ctXor w0 w1) ∧
    (∃ (t : TileId) (w0 : W64) (w1 : W64) (s : State), s.dev.up = true ∧ s.dev.fetches t.val .ctShl w0 w1) ∧
    (∃ (t : TileId) (w0 : W64) (w1 : W64) (s : State), s.dev.up = true ∧ s.dev.fetches t.val .ctShr w0 w1) ∧
    (∃ (t : TileId) (w0 : W64) (w1 : W64) (s : State), s.dev.up = true ∧ s.dev.fetches t.val .ctSar w0 w1) ∧
    (∃ (t : TileId) (w0 : W64) (w1 : W64) (s : State), s.dev.up = true ∧ s.dev.fetches t.val .ctSlt w0 w1) ∧
    (∃ (t : TileId) (w0 : W64) (w1 : W64) (s : State), s.dev.up = true ∧ s.dev.fetches t.val .ctSltu w0 w1) ∧
    (∃ (t : TileId) (w0 : W64) (w1 : W64) (s : State), s.dev.up = true ∧ s.dev.fetches t.val .ctMin w0 w1) ∧
    (∃ (t : TileId) (w0 : W64) (w1 : W64) (s : State), s.dev.up = true ∧ s.dev.fetches t.val .ctMax w0 w1) ∧
    (∃ (t : TileId) (w0 : W64) (w1 : W64) (s : State), s.dev.up = true ∧ s.dev.fetches t.val .ctMov w0 w1) ∧
    (∃ (t : TileId) (w0 : W64) (w1 : W64) (s : State), s.dev.up = true ∧ s.dev.fetches t.val .addrFromS w0 w1) ∧
    (∃ (t : TileId) (w0 : W64) (w1 : W64) (s : State), s.dev.up = true ∧ s.dev.fetches t.val .addrToS w0 w1) ∧
    (∃ (t : TileId) (w0 : W64) (w1 : W64) (s : State), s.dev.up = true ∧ s.dev.fetches t.val .addrAdd w0 w1) ∧
    (∃ (t : TileId) (w0 : W64) (w1 : W64) (s : State), s.dev.up = true ∧ s.dev.fetches t.val .addrBaseAdd w0 w1) ∧
    (∃ (t : TileId) (w0 : W64) (w1 : W64) (s : State), s.dev.up = true ∧ s.dev.fetches t.val .addrStrideSet w0 w1) ∧
    (∃ (t : TileId) (w0 : W64) (w1 : W64) (s : State), s.dev.up = true ∧ s.dev.fetches t.val .pset w0 w1) ∧
    (∃ (t : TileId) (w0 : W64) (w1 : W64) (s : State), s.dev.up = true ∧ s.dev.fetches t.val .pget w0 w1) ∧
    (∃ (t : TileId) (w0 : W64) (w1 : W64) (s : State), s.dev.up = true ∧ s.dev.fetches t.val .pand w0 w1) ∧
    (∃ (t : TileId) (w0 : W64) (w1 : W64) (s : State), s.dev.up = true ∧ s.dev.fetches t.val .por w0 w1) ∧
    (∃ (t : TileId) (w0 : W64) (w1 : W64) (s : State), s.dev.up = true ∧ s.dev.fetches t.val .pxor w0 w1) ∧
    (∃ (t : TileId) (w0 : W64) (w1 : W64) (s : State), s.dev.up = true ∧ s.dev.fetches t.val .pnot w0 w1) ∧
    (∃ (t : TileId) (w0 : W64) (w1 : W64) (s : State), s.dev.up = true ∧ s.dev.fetches t.val .nop w0 w1) ∧
    (∃ (t : TileId) (w0 : W64) (w1 : W64) (s : State), s.dev.up = true ∧ s.dev.fetches t.val .cget w0 w1) ∧
    (∃ (t : TileId) (w0 : W64) (w1 : W64) (s : State), s.dev.up = true ∧ s.dev.fetches t.val .ctTime w0 w1) ∧
    (∃ (t : TileId) (w0 : W64) (w1 : W64) (s : State), s.dev.up = true ∧ s.dev.fetches t.val .rank w0 w1) ∧
    (∃ (t : TileId) (w0 : W64) (w1 : W64) (s : State), s.dev.up = true ∧ s.dev.fetches t.val .flags w0 w1) := ⟨
  ⟨2, ctw 0x38 0 3 1 2 0 0, 0, st [tl fun t => (t.setS 1 0xFFFFFFFFFFFFFFF0).setS 2 7], by decide +kernel⟩,
  ⟨2, ctw 0x38 1 3 1 2 0 0, 0, st [tl fun t => (t.setS 1 0xFFFFFFFFFFFFFFF0).setS 2 7], by decide +kernel⟩,
  ⟨2, ctw 0x38 2 3 1 2 0 0, 0, st [tl fun t => (t.setS 1 0xFFFFFFFFFFFFFFF0).setS 2 7], by decide +kernel⟩,
  ⟨2, ctw 0x38 3 3 1 2 0 0, 0, st [tl fun t => (t.setS 1 0xFFFFFFFFFFFFFFF0).setS 2 7], by decide +kernel⟩,
  ⟨2, ctw 0x38 4 3 1 2 0 0, 0, st [tl fun t => (t.setS 1 0xFFFFFFFFFFFFFFF0).setS 2 7], by decide +kernel⟩,
  ⟨2, ctw 0x38 5 3 1 2 0 0, 0, st [tl fun t => (t.setS 1 0xFFFFFFFFFFFFFFF0).setS 2 7], by decide +kernel⟩,
  ⟨2, ctw 0x38 6 3 1 2 0 0, 0, st [tl fun t => (t.setS 1 0xFFFFFFFFFFFFFFF0).setS 2 7], by decide +kernel⟩,
  ⟨2, ctw 0x38 7 3 1 2 0 0, 0, st [tl fun t => (t.setS 1 0xFFFFFFFFFFFFFFF0).setS 2 7], by decide +kernel⟩,
  ⟨2, ctw 0x38 8 3 1 2 0 0, 0, st [tl fun t => (t.setS 1 0xFFFFFFFFFFFFFFF0).setS 2 7], by decide +kernel⟩,
  ⟨2, ctw 0x38 9 3 1 2 0 0, 0, st [tl fun t => (t.setS 1 0xFFFFFFFFFFFFFFF0).setS 2 7], by decide +kernel⟩,
  ⟨2, ctw 0x38 10 3 1 2 0 0, 0, st [tl fun t => (t.setS 1 0xFFFFFFFFFFFFFFF0).setS 2 7], by decide +kernel⟩,
  ⟨2, ctw 0x38 11 3 1 2 0 0, 0, st [tl fun t => (t.setS 1 0xFFFFFFFFFFFFFFF0).setS 2 7], by decide +kernel⟩,
  ⟨2, ctw 0x38 12 3 1 2 0 0, 0, st [tl fun t => (t.setS 1 0xFFFFFFFFFFFFFFF0).setS 2 7], by decide +kernel⟩,
  ⟨2, ctw 0x38 13 3 1 2 0 0, 0, st [tl fun t => (t.setS 1 0xFFFFFFFFFFFFFFF0).setS 2 7], by decide +kernel⟩,
  ⟨2, ctw 0x39 0 3 1 0 0 0, 0, st [tl fun t => (t.setS 1 0xFFFFFFFFFFFFFFF0).setS 2 7], by decide +kernel⟩,
  ⟨2, ctw 0x39 1 3 1 0 0 0, 0, st [tl fun t => t.setA 1 99], by decide +kernel⟩,
  ⟨2, ctw 0x39 2 3 1 0 1 0xFFFFFFFF, 0, st [tl fun t => t.setA 1 0x123400005678], by decide +kernel⟩,
  ⟨2, ctw 0x39 3 3 1 0 1 0xFFFFFFFF, 0, st [tl fun t => t.setA 1 0x123400005678], by decide +kernel⟩,
  ⟨2, ctw 0x39 4 3 1 0 1 0xFFFFFFFF, 0, st [tl fun t => t.setA 1 0x123400005678], by decide +kernel⟩,
  ⟨2, ctw 0x3B 0 3 1 0 0 0, 0, st [tl fun t => (t.setS 1 0xFFFFFFFFFFFFFFF0).setS 2 7], by decide +kernel⟩,
  ⟨2, ctw 0x3B 1 3 1 0 0 0, 0, st [tl fun t => t.setP 1 99], by decide +kernel⟩,
  ⟨2, ctw 0x3B 2 3 1 2 0 0, 0, st [tl fun t => (t.setP 1 0xF0F0).setP 2 0xFF00], by decide +kernel⟩,
  ⟨2, ctw 0x3B 3 3 1 2 0 0, 0, st [tl fun t => (t.setP 1 0xF0F0).setP 2 0xFF00], by decide +kernel⟩,
  ⟨2, ctw 0x3B 4 3 1 2 0 0, 0, st [tl fun t => (t.setP 1 0xF0F0).setP 2 0xFF00], by decide +kernel⟩,
  ⟨2, ctw 0x3B 5 3 1 2 0 0, 0, st [tl fun t => (t.setP 1 0xF0F0).setP 2 0xFF00], by decide +kernel⟩,
  ⟨2, ctw 0x3D 0 0 0 0 0 0, 0, st [tl fun t => (t.setS 1 0xFFFFFFFFFFFFFFF0).setS 2 7], by decide +kernel⟩,
  ⟨2, ctw 0x3D 4 3 0 0 0 70, 0, st [tl fun t => t.addCounter 6 9], by decide +kernel⟩,
  ⟨2, ctw 0x3D 8 3 0 0 0 0, 0, st [tl, .act (.podTime 77)], by decide +kernel⟩,
  ⟨2, ctw 0x3D 10 3 0 0 0 0, 0, st [tl fun t => (t.set TLE_PROG_RANK 3).set TLE_PROG_COUNT 8], by decide +kernel⟩,
  ⟨2, ctw 0x3D 9 3 0 0 0 0, 0, st [tl fun t => t.addFlags 5], by decide +kernel⟩⟩

theorem witness_CtControlAndStore :
    (∃ (t : TileId) (w0 : W64) (w1 : W64) (s : State), s.dev.up = true ∧ s.dev.fetches t.val .jmp w0 w1 ∧ s.dev.branchLegal t.val w0) ∧
    (∃ (t : TileId) (w0 : W64) (w1 : W64) (s : State), s.dev.up = true ∧ s.dev.fetches t.val .jmp w0 w1 ∧ ¬s.dev.branchLegal t.val w0 ∧ s.dev.unattended t.val ∧ (s.dev.tile t.val).passes = [] ∧ (s.dev.tile t.val).moves = [] ∧ (s.dev.tile t.val).descs = []) ∧
    (∃ (t : TileId) (w0 : W64) (w1 : W64) (s : State), s.dev.up = true ∧ s.dev.fetches t.val .beq w0 w1 ∧ ((byOperands fun a b => decide (a = b)) (s.dev.tile t.val) w0 w1 = true) ∧ s.dev.branchLegal t.val w0) ∧
    (∃ (t : TileId) (w0 : W64) (w1 : W64) (s : State), s.dev.up = true ∧ s.dev.fetches t.val .beq w0 w1 ∧ ((byOperands fun a b => decide (a = b)) (s.dev.tile t.val) w0 w1 = false)) ∧
    (∃ (t : TileId) (w0 : W64) (w1 : W64) (s : State), s.dev.up = true ∧ s.dev.fetches t.val .beq w0 w1 ∧ ((byOperands fun a b => decide (a = b)) (s.dev.tile t.val) w0 w1 = true) ∧ ¬s.dev.branchLegal t.val w0 ∧ s.dev.unattended t.val ∧ (s.dev.tile t.val).passes = [] ∧ (s.dev.tile t.val).moves = [] ∧ (s.dev.tile t.val).descs = []) ∧
    (∃ (t : TileId) (w0 : W64) (w1 : W64) (s : State), s.dev.up = true ∧ s.dev.fetches t.val .bne w0 w1 ∧ ((byOperands fun a b => decide (a ≠ b)) (s.dev.tile t.val) w0 w1 = true) ∧ s.dev.branchLegal t.val w0) ∧
    (∃ (t : TileId) (w0 : W64) (w1 : W64) (s : State), s.dev.up = true ∧ s.dev.fetches t.val .bne w0 w1 ∧ ((byOperands fun a b => decide (a ≠ b)) (s.dev.tile t.val) w0 w1 = false)) ∧
    (∃ (t : TileId) (w0 : W64) (w1 : W64) (s : State), s.dev.up = true ∧ s.dev.fetches t.val .bne w0 w1 ∧ ((byOperands fun a b => decide (a ≠ b)) (s.dev.tile t.val) w0 w1 = true) ∧ ¬s.dev.branchLegal t.val w0 ∧ s.dev.unattended t.val ∧ (s.dev.tile t.val).passes = [] ∧ (s.dev.tile t.val).moves = [] ∧ (s.dev.tile t.val).descs = []) ∧
    (∃ (t : TileId) (w0 : W64) (w1 : W64) (s : State), s.dev.up = true ∧ s.dev.fetches t.val .blt w0 w1 ∧ ((byOperands fun a b => decide (a.toInt < b.toInt)) (s.dev.tile t.val) w0 w1 = true) ∧ s.dev.branchLegal t.val w0) ∧
    (∃ (t : TileId) (w0 : W64) (w1 : W64) (s : State), s.dev.up = true ∧ s.dev.fetches t.val .blt w0 w1 ∧ ((byOperands fun a b => decide (a.toInt < b.toInt)) (s.dev.tile t.val) w0 w1 = false)) ∧
    (∃ (t : TileId) (w0 : W64) (w1 : W64) (s : State), s.dev.up = true ∧ s.dev.fetches t.val .blt w0 w1 ∧ ((byOperands fun a b => decide (a.toInt < b.toInt)) (s.dev.tile t.val) w0 w1 = true) ∧ ¬s.dev.branchLegal t.val w0 ∧ s.dev.unattended t.val ∧ (s.dev.tile t.val).passes = [] ∧ (s.dev.tile t.val).moves = [] ∧ (s.dev.tile t.val).descs = []) ∧
    (∃ (t : TileId) (w0 : W64) (w1 : W64) (s : State), s.dev.up = true ∧ s.dev.fetches t.val .bge w0 w1 ∧ ((byOperands fun a b => decide (b.toInt ≤ a.toInt)) (s.dev.tile t.val) w0 w1 = true) ∧ s.dev.branchLegal t.val w0) ∧
    (∃ (t : TileId) (w0 : W64) (w1 : W64) (s : State), s.dev.up = true ∧ s.dev.fetches t.val .bge w0 w1 ∧ ((byOperands fun a b => decide (b.toInt ≤ a.toInt)) (s.dev.tile t.val) w0 w1 = false)) ∧
    (∃ (t : TileId) (w0 : W64) (w1 : W64) (s : State), s.dev.up = true ∧ s.dev.fetches t.val .bge w0 w1 ∧ ((byOperands fun a b => decide (b.toInt ≤ a.toInt)) (s.dev.tile t.val) w0 w1 = true) ∧ ¬s.dev.branchLegal t.val w0 ∧ s.dev.unattended t.val ∧ (s.dev.tile t.val).passes = [] ∧ (s.dev.tile t.val).moves = [] ∧ (s.dev.tile t.val).descs = []) ∧
    (∃ (t : TileId) (w0 : W64) (w1 : W64) (s : State), s.dev.up = true ∧ s.dev.fetches t.val .bltu w0 w1 ∧ ((byOperands fun a b => decide (a.toNat < b.toNat)) (s.dev.tile t.val) w0 w1 = true) ∧ s.dev.branchLegal t.val w0) ∧
    (∃ (t : TileId) (w0 : W64) (w1 : W64) (s : State), s.dev.up = true ∧ s.dev.fetches t.val .bltu w0 w1 ∧ ((byOperands fun a b => decide (a.toNat < b.toNat)) (s.dev.tile t.val) w0 w1 = false)) ∧
    (∃ (t : TileId) (w0 : W64) (w1 : W64) (s : State), s.dev.up = true ∧ s.dev.fetches t.val .bltu w0 w1 ∧ ((byOperands fun a b => decide (a.toNat < b.toNat)) (s.dev.tile t.val) w0 w1 = true) ∧ ¬s.dev.branchLegal t.val w0 ∧ s.dev.unattended t.val ∧ (s.dev.tile t.val).passes = [] ∧ (s.dev.tile t.val).moves = [] ∧ (s.dev.tile t.val).descs = []) ∧
    (∃ (t : TileId) (w0 : W64) (w1 : W64) (s : State), s.dev.up = true ∧ s.dev.fetches t.val .bgeu w0 w1 ∧ ((byOperands fun a b => decide (b.toNat ≤ a.toNat)) (s.dev.tile t.val) w0 w1 = true) ∧ s.dev.branchLegal t.val w0) ∧
    (∃ (t : TileId) (w0 : W64) (w1 : W64) (s : State), s.dev.up = true ∧ s.dev.fetches t.val .bgeu w0 w1 ∧ ((byOperands fun a b => decide (b.toNat ≤ a.toNat)) (s.dev.tile t.val) w0 w1 = false)) ∧
    (∃ (t : TileId) (w0 : W64) (w1 : W64) (s : State), s.dev.up = true ∧ s.dev.fetches t.val .bgeu w0 w1 ∧ ((byOperands fun a b => decide (b.toNat ≤ a.toNat)) (s.dev.tile t.val) w0 w1 = true) ∧ ¬s.dev.branchLegal t.val w0 ∧ s.dev.unattended t.val ∧ (s.dev.tile t.val).passes = [] ∧ (s.dev.tile t.val).moves = [] ∧ (s.dev.tile t.val).descs = []) ∧
    (∃ (t : TileId) (w0 : W64) (w1 : W64) (s : State), s.dev.up = true ∧ s.dev.fetches t.val .bp w0 w1 ∧ ((fun t w0 _ => decide (t.pReg (ctRA w0) ≠ 0)) (s.dev.tile t.val) w0 w1 = true) ∧ s.dev.branchLegal t.val w0) ∧
    (∃ (t : TileId) (w0 : W64) (w1 : W64) (s : State), s.dev.up = true ∧ s.dev.fetches t.val .bp w0 w1 ∧ ((fun t w0 _ => decide (t.pReg (ctRA w0) ≠ 0)) (s.dev.tile t.val) w0 w1 = false)) ∧
    (∃ (t : TileId) (w0 : W64) (w1 : W64) (s : State), s.dev.up = true ∧ s.dev.fetches t.val .bp w0 w1 ∧ ((fun t w0 _ => decide (t.pReg (ctRA w0) ≠ 0)) (s.dev.tile t.val) w0 w1 = true) ∧ ¬s.dev.branchLegal t.val w0 ∧ s.dev.unattended t.val ∧ (s.dev.tile t.val).passes = [] ∧ (s.dev.tile t.val).moves = [] ∧ (s.dev.tile t.val).descs = []) ∧
    (∃ (t : TileId) (w0 : W64) (w1 : W64) (s : State), s.dev.up = true ∧ s.dev.fetches t.val .loop w0 w1 ∧ 2 ≤ ((s.dev.tile t.val).sReg (ctRA w0)).toNat ∧ s.dev.branchLegal t.val w0) ∧
    (∃ (t : TileId) (w0 : W64) (w1 : W64) (s : State), s.dev.up = true ∧ s.dev.fetches t.val .loop w0 w1 ∧ ((s.dev.tile t.val).sReg (ctRA w0)).toNat ≤ 1) ∧
    (∃ (t : TileId) (w0 : W64) (w1 : W64) (a : Nat) (s : State), s.dev.up = true ∧ s.dev.fetches t.val .ctLd w0 w1 ∧ s.dev.ctReaches t.val w0 a 8) ∧
    (∃ (t : TileId) (w0 : W64) (w1 : W64) (a : Nat) (s : State), s.dev.up = true ∧ s.dev.fetches t.val .ctSt w0 w1 ∧ s.dev.ctReaches t.val w0 a 8 ∧ (s.dev.tile t.val).hitsCode a 8 = false) ∧
    (∃ (t : TileId) (w0 : W64) (w1 : W64) (a : Nat) (s : State), s.dev.up = true ∧ s.dev.fetches t.val .phxld w0 w1 ∧ s.dev.ctReaches t.val w0 a 32) ∧
    (∃ (t : TileId) (w0 : W64) (w1 : W64) (a : Nat) (s : State), s.dev.up = true ∧ s.dev.fetches t.val .phxst w0 w1 ∧ s.dev.ctReaches t.val w0 a 32 ∧ (s.dev.tile t.val).hitsCode a 32 = false) ∧
    (∃ (t : TileId) (w0 : W64) (w1 : W64) (s : State), s.dev.up = true ∧ s.dev.fetches t.val .gang w0 w1 ∧ (s.dev.tile t.val).gangs = [] ∧ (ctImm w0).toNat % 4 ≠ (s.dev.tile t.val).get TLE_MXCFG_ACTIVE) ∧
    (∃ (t : TileId) (w0 : W64) (w1 : W64) (s : State), s.dev.up = true ∧ s.dev.fetches t.val .gang w0 w1 ∧ (s.dev.tile t.val).gangs = [] ∧ (ctImm w0).toNat % 4 = (s.dev.tile t.val).get TLE_MXCFG_ACTIVE) ∧
    (∃ (t : TileId) (w0 : W64) (w1 : W64) (s : State), s.dev.up = true ∧ s.dev.fetches t.val .endProg w0 w1 ∧ (s.dev.tile t.val).passes = [] ∧ (s.dev.tile t.val).moves = [] ∧ (s.dev.tile t.val).descs = []) ∧
    (∃ (t : TileId) (w0 : W64) (w1 : W64) (s : State), s.dev.up = true ∧ s.dev.fetches t.val .brk w0 w1 ∧ s.dev.unattended t.val ∧ (s.dev.tile t.val).passes = [] ∧ (s.dev.tile t.val).moves = [] ∧ (s.dev.tile t.val).descs = []) ∧
    (∃ (t : TileId) (w0 : W64) (w1 : W64) (s : State), s.dev.up = true ∧ s.dev.fetches t.val .step w0 w1 ∧ (s.dev.tile t.val).passes = [] ∧ (s.dev.tile t.val).moves = [] ∧ inStore (aBase ((s.dev.tile t.val).aReg (ctRB w0))) 8320 = true ∧ (s.dev.tile t.val).owner ≠ oJOB) ∧
    (∃ (t : TileId) (w0 : W64) (w1 : W64) (s : State), s.dev.up = true ∧ s.dev.fetches t.val .step w0 w1 ∧ (s.dev.tile t.val).passes = [] ∧ (s.dev.tile t.val).moves = [] ∧ inStore (aBase ((s.dev.tile t.val).aReg (ctRB w0))) 8320 = true ∧ (s.dev.tile t.val).owner = oJOB ∧ s.dev.shore.slot = none ∧ ((s.dev.tile t.val).sReg (ctRA w0)).toNat = (s.dev.agent localAgent).step + 1 ∧ (s.dev.agent localAgent).cstate = 0 ∧ s.dev.shore.handback = none) ∧
    (∃ (t : TileId) (w0 : W64) (w1 : W64) (s : State), s.dev.up = true ∧ s.dev.fetches t.val .step w0 w1 ∧ (s.dev.tile t.val).passes ≠ []) := ⟨
  ⟨2, ctw 0x3A 0 0 0 0 0 64, 0, st [tl], by decide +kernel⟩,
  ⟨2, ctw 0x3A 0 0 0 0 0 4, 0, st [tl], by decide +kernel⟩,
  ⟨2, ctw 0x3A 1 0 1 2 0 64, 0, st [tl], by decide +kernel⟩,
  ⟨2, ctw 0x3A 1 0 1 2 0 64, 0, st [tl fun t => t.setS 1 5], by decide +kernel⟩,
  ⟨2, ctw 0x3A 1 0 1 2 0 4, 0, st [tl], by decide +kernel⟩,
  ⟨2, ctw 0x3A 2 0 1 2 0 64, 0, st [tl fun t => t.setS 1 5], by decide +kernel⟩,
  ⟨2, ctw 0x3A 2 0 1 2 0 64, 0, st [tl], by decide +kernel⟩,
  ⟨2, ctw 0x3A 2 0 1 2 0 4, 0, st [tl fun t => t.setS 1 5], by decide +kernel⟩,
  ⟨2, ctw 0x3A 3 0 1 2 0 64, 0, st [tl fun t => t.setS 1 0xFFFFFFFFFFFFFFFF], by decide +kernel⟩,
  ⟨2, ctw 0x3A 3 0 1 2 0 64, 0, st [tl], by decide +kernel⟩,
  ⟨2, ctw 0x3A 3 0 1 2 0 4, 0, st [tl fun t => t.setS 1 0xFFFFFFFFFFFFFFFF], by decide +kernel⟩,
  ⟨2, ctw 0x3A 4 0 1 2 0 64, 0, st [tl fun t => t.setS 1 5], by decide +kernel⟩,
  ⟨2, ctw 0x3A 4 0 1 2 0 64, 0, st [tl fun t => t.setS 1 0xFFFFFFFFFFFFFFFF], by decide +kernel⟩,
  ⟨2, ctw 0x3A 4 0 1 2 0 4, 0, st [tl fun t => t.setS 1 5], by decide +kernel⟩,
  ⟨2, ctw 0x3A 5 0 1 2 0 64, 0, st [tl fun t => t.setS 2 5], by decide +kernel⟩,
  ⟨2, ctw 0x3A 5 0 1 2 0 64, 0, st [tl fun t => t.setS 1 0xFFFFFFFFFFFFFFFF], by decide +kernel⟩,
  ⟨2, ctw 0x3A 5 0 1 2 0 4, 0, st [tl fun t => t.setS 2 5], by decide +kernel⟩,
  ⟨2, ctw 0x3A 6 0 1 2 0 64, 0, st [tl fun t => t.setS 1 0xFFFFFFFFFFFFFFFF], by decide +kernel⟩,
  ⟨2, ctw 0x3A 6 0 1 2 0 64, 0, st [tl fun t => t.setS 2 5], by decide +kernel⟩,
  ⟨2, ctw 0x3A 6 0 1 2 0 4, 0, st [tl fun t => t.setS 1 0xFFFFFFFFFFFFFFFF], by decide +kernel⟩,
  ⟨2, ctw 0x3A 8 0 1 2 0 64, 0, st [tl fun t => t.setP 1 5], by decide +kernel⟩,
  ⟨2, ctw 0x3A 8 0 1 2 0 64, 0, st [tl], by decide +kernel⟩,
  ⟨2, ctw 0x3A 8 0 1 2 0 4, 0, st [tl fun t => t.setP 1 5], by decide +kernel⟩,
  ⟨2, ctw 0x3A 7 0 1 0 0 0xFFFFFFC0, 0, st [tl fun t => t.setS 1 5], by decide +kernel⟩,
  ⟨2, ctw 0x3A 7 0 1 0 0 0xFFFFFFC0, 0, st [tl fun t => t.setS 1 1], by decide +kernel⟩,
  ⟨2, ctw 0x3C 0 3 1 0 0 8, 0, 8200, st [tl fun t => t.setA 1 8192, .act (.mem (tileByte 2 8200) [1, 2, 3, 4, 5, 6, 7, 8])], by decide +kernel⟩,
  ⟨2, ctw 0x3C 1 0 1 2 0 8, 0, 8200, st [tl fun t => (t.setA 1 8192).setS 2 0x123456789ABCDEF0], by decide +kernel⟩,
  ⟨2, ctw 0x3D 5 3 1 0 0 32, 0, 8224, st [tl fun t => t.setA 1 8192, .act (.mem (tileByte 2 8224) ((List.range 32).map (BitVec.ofNat 8)))], by decide +kernel⟩,
  ⟨2, ctw 0x3D 6 3 1 0 0 32, 0, 8224, st [tl fun t => (((t.setA 1 8192).set (TLE_PHX_KEY_KEY 3) 99).set (TLE_PHX_CTR_LO_CTR 3) 98).set (TLE_PHX_CTR_HI_CTR 3) 97], by decide +kernel⟩,
  ⟨2, ctw 0x3D 7 0 0 0 0 2, 0, st [tl fun t => { t with passes := [{ op := .pass, w0 := lw [(0, 1), (8, 1), (38, 32)], w1 := 0, off := 0 }] }], by decide +kernel⟩,
  ⟨2, ctw 0x3D 7 0 0 0 0 0, 0, st [tl fun t => { t with passes := [{ op := .pass, w0 := lw [(0, 1), (8, 1), (38, 32)], w1 := 0, off := 0 }] }], by decide +kernel⟩,
  ⟨2, ctw 0x3D 1 0 0 0 0 0, 0, st [tl], by decide +kernel⟩,
  ⟨2, ctw 0x3D 2 0 0 0 0 0, 0, st [tl], by decide +kernel⟩,
  ⟨2, ctw 0x3D 3 0 1 2 0 0, 0, st [tl fun t => t.setA 2 8192], by decide +kernel⟩,
  ⟨2, ctw 0x3D 3 0 1 2 0 0, 0, st [tl fun t => ((t.setA 2 8192).setS 1 1).set TLE_CTRL_OWNER oJOB], by decide +kernel⟩,
  ⟨2, ctw 0x3D 3 0 1 2 0 0, 0, st [tl fun t => { t with passes := [{ op := .pass, w0 := lw [(0, 1), (8, 1), (38, 32)], w1 := 0, off := 0 }] }], by decide +kernel⟩⟩

theorem witness_VectorArithmetic :
    (∃ (t : TileId) (w0 : W64) (w1 : W64) (s : State), s.dev.up = true ∧ s.dev.issues t.val .vxAdd w0 w1) ∧
    (∃ (t : TileId) (w0 : W64) (w1 : W64) (s : State), s.dev.up = true ∧ s.dev.issues t.val .vxSub w0 w1) ∧
    (∃ (t : TileId) (w0 : W64) (w1 : W64) (s : State), s.dev.up = true ∧ s.dev.issues t.val .vxMul w0 w1) ∧
    (∃ (t : TileId) (w0 : W64) (w1 : W64) (s : State), s.dev.up = true ∧ s.dev.issues t.val .fma w0 w1) ∧
    (∃ (t : TileId) (w0 : W64) (w1 : W64) (s : State), s.dev.up = true ∧ s.dev.issues t.val .div w0 w1) ∧
    (∃ (t : TileId) (w0 : W64) (w1 : W64) (s : State), s.dev.up = true ∧ s.dev.issues t.val .sqrt w0 w1) ∧
    (∃ (t : TileId) (w0 : W64) (w1 : W64) (s : State), s.dev.up = true ∧ s.dev.issues t.val .rsqrt w0 w1) ∧
    (∃ (t : TileId) (w0 : W64) (w1 : W64) (row : Nat) (lane : Nat) (v : Ex) (s : State), s.dev.up = true ∧ s.dev.issues t.val .exp w0 w1 ∧ lane < 64 ∧ (s.dev.queued t.val .exp w0 w1).covers row lane ∧ (fnExp ((viewFmt (vxSView w0)).decode (srcA (s.dev.tile t.val) (s.dev.queued t.val .exp w0 w1) row lane))).val = some v) ∧
    (∃ (t : TileId) (w0 : W64) (w1 : W64) (row : Nat) (lane : Nat) (v : Ex) (s : State), s.dev.up = true ∧ s.dev.issues t.val .exp2 w0 w1 ∧ lane < 64 ∧ (s.dev.queued t.val .exp2 w0 w1).covers row lane ∧ (fnExp2 ((viewFmt (vxSView w0)).decode (srcA (s.dev.tile t.val) (s.dev.queued t.val .exp2 w0 w1) row lane))).val = some v) ∧
    (∃ (t : TileId) (w0 : W64) (w1 : W64) (row : Nat) (lane : Nat) (v : Ex) (s : State), s.dev.up = true ∧ s.dev.issues t.val .log w0 w1 ∧ lane < 64 ∧ (s.dev.queued t.val .log w0 w1).covers row lane ∧ ((fnLog false) ((viewFmt (vxSView w0)).decode (srcA (s.dev.tile t.val) (s.dev.queued t.val .log w0 w1) row lane))).val = some v) ∧
    (∃ (t : TileId) (w0 : W64) (w1 : W64) (row : Nat) (lane : Nat) (v : Ex) (s : State), s.dev.up = true ∧ s.dev.issues t.val .log2 w0 w1 ∧ lane < 64 ∧ (s.dev.queued t.val .log2 w0 w1).covers row lane ∧ ((fnLog true) ((viewFmt (vxSView w0)).decode (srcA (s.dev.tile t.val) (s.dev.queued t.val .log2 w0 w1) row lane))).val = some v) ∧
    (∃ (t : TileId) (w0 : W64) (w1 : W64) (row : Nat) (lane : Nat) (v : Ex) (s : State), s.dev.up = true ∧ s.dev.issues t.val .tanh w0 w1 ∧ lane < 64 ∧ (s.dev.queued t.val .tanh w0 w1).covers row lane ∧ (fnTanh ((viewFmt (vxSView w0)).decode (srcA (s.dev.tile t.val) (s.dev.queued t.val .tanh w0 w1) row lane))).val = some v) ∧
    (∃ (t : TileId) (w0 : W64) (w1 : W64) (row : Nat) (lane : Nat) (v : Ex) (s : State), s.dev.up = true ∧ s.dev.issues t.val .sigmoid w0 w1 ∧ lane < 64 ∧ (s.dev.queued t.val .sigmoid w0 w1).covers row lane ∧ (fnSigmoid ((viewFmt (vxSView w0)).decode (srcA (s.dev.tile t.val) (s.dev.queued t.val .sigmoid w0 w1) row lane))).val = some v) ∧
    (∃ (t : TileId) (w0 : W64) (w1 : W64) (s : State), s.dev.up = true ∧ s.dev.issues t.val .vxMin w0 w1) ∧
    (∃ (t : TileId) (w0 : W64) (w1 : W64) (s : State), s.dev.up = true ∧ s.dev.issues t.val .vxMax w0 w1) ∧
    (∃ (t : TileId) (w0 : W64) (w1 : W64) (s : State), s.dev.up = true ∧ s.dev.issues t.val .abs w0 w1) ∧
    (∃ (t : TileId) (w0 : W64) (w1 : W64) (s : State), s.dev.up = true ∧ s.dev.issues t.val .neg w0 w1) ∧
    (∃ (t : TileId) (w0 : W64) (w1 : W64) (s : State), s.dev.up = true ∧ s.dev.issues t.val .iadd w0 w1) ∧
    (∃ (t : TileId) (w0 : W64) (w1 : W64) (s : State), s.dev.up = true ∧ s.dev.issues t.val .isub w0 w1) ∧
    (∃ (t : TileId) (w0 : W64) (w1 : W64) (s : State), s.dev.up = true ∧ s.dev.issues t.val .imul w0 w1) ∧
    (∃ (t : TileId) (w0 : W64) (w1 : W64) (s : State), s.dev.up = true ∧ s.dev.issues t.val .imin w0 w1) ∧
    (∃ (t : TileId) (w0 : W64) (w1 : W64) (s : State), s.dev.up = true ∧ s.dev.issues t.val .imax w0 w1) ∧
    (∃ (t : TileId) (w0 : W64) (w1 : W64) (s : State), s.dev.up = true ∧ s.dev.issues t.val .vxAnd w0 w1) ∧
    (∃ (t : TileId) (w0 : W64) (w1 : W64) (s : State), s.dev.up = true ∧ s.dev.issues t.val .vxOr w0 w1) ∧
    (∃ (t : TileId) (w0 : W64) (w1 : W64) (s : State), s.dev.up = true ∧ s.dev.issues t.val .vxXor w0 w1) ∧
    (∃ (t : TileId) (w0 : W64) (w1 : W64) (s : State), s.dev.up = true ∧ s.dev.issues t.val .vxShl w0 w1) ∧
    (∃ (t : TileId) (w0 : W64) (w1 : W64) (s : State), s.dev.up = true ∧ s.dev.issues t.val .vxShr w0 w1) ∧
    (∃ (t : TileId) (w0 : W64) (w1 : W64) (s : State), s.dev.up = true ∧ s.dev.issues t.val .vxSar w0 w1) := ⟨
  ⟨2, vxw 1 0 0 0 2 0 1 0 2, 0, st [tl], by decide +kernel⟩,
  ⟨2, vxw 2 0 0 0 2 0 1 0 2, 0, st [tl], by decide +kernel⟩,
  ⟨2, vxw 3 0 0 0 2 0 1 0 2, 0, st [tl], by decide +kernel⟩,
  ⟨2, vxw 4 0 0 0 2 0 1 0 2 [(43, 1)], 0, st [tl], by decide +kernel⟩,
  ⟨2, vxw 5 0 0 0 2 0 1 0 2, 0, st [tl], by decide +kernel⟩,
  ⟨2, vxw 6 0 0 0 2 0 1 0 2, 0, st [tl], by decide +kernel⟩,
  ⟨2, vxw 7 0 0 0 2 0 1 0 2, 0, st [tl], by decide +kernel⟩,
  ⟨2, vxw 8 0 0 0 2 0 1 0 1, 0, 0, 15, (fnExp ((viewFmt 0).decode 0)).val.getD .nan, st [tl], by decide +kernel⟩,
  ⟨2, vxw 8 1 0 0 2 0 1 0 1, 0, 0, 15, (fnExp2 ((viewFmt 0).decode 0)).val.getD .nan, st [tl], by decide +kernel⟩,
  ⟨2, vxw 8 2 0 0 2 0 1 0 1, 0, 0, 0, ((fnLog false) ((viewFmt 0).decode 0x3F800000)).val.getD .nan, st [tl], by decide +kernel⟩,
  ⟨2, vxw 8 3 0 0 2 0 1 0 1, 0, 0, 0, ((fnLog true) ((viewFmt 0).decode 0x3F800000)).val.getD .nan, st [tl], by decide +kernel⟩,
  ⟨2, vxw 8 4 0 0 2 0 1 0 1, 0, 0, 15, (fnTanh ((viewFmt 0).decode 0)).val.getD .nan, st [tl], by decide +kernel⟩,
  ⟨2, vxw 8 5 0 0 2 0 1 0 1, 0, 0, 15, (fnSigmoid ((viewFmt 0).decode 0)).val.getD .nan, st [tl], by decide +kernel⟩,
  ⟨2, vxw 9 0 0 0 2 0 1 0 2, 0, st [tl], by decide +kernel⟩,
  ⟨2, vxw 10 0 0 0 2 0 1 0 2, 0, st [tl], by decide +kernel⟩,
  ⟨2, vxw 11 0 0 0 2 0 1 0 2, 0, st [tl], by decide +kernel⟩,
  ⟨2, vxw 12 0 0 0 2 0 1 0 2, 0, st [tl], by decide +kernel⟩,
  ⟨2, vxw 15 0 10 10 2 0 1 0 2, 0, st [tl], by decide +kernel⟩,
  ⟨2, vxw 15 1 10 10 2 0 1 0 2, 0, st [tl], by decide +kernel⟩,
  ⟨2, vxw 15 2 10 10 2 0 1 0 2, 0, st [tl], by decide +kernel⟩,
  ⟨2, vxw 15 3 10 10 2 0 1 0 2, 0, st [tl], by decide +kernel⟩,
  ⟨2, vxw 15 4 10 10 2 0 1 0 2, 0, st [tl], by decide +kernel⟩,
  ⟨2, vxw 15 5 10 10 2 0 1 0 2, 0, st [tl], by decide +kernel⟩,
  ⟨2, vxw 15 6 10 10 2 0 1 0 2, 0, st [tl], by decide +kernel⟩,
  ⟨2, vxw 15 7 10 10 2 0 1 0 2, 0, st [tl], by decide +kernel⟩,
  ⟨2, vxw 15 8 10 10 2 0 1 0 2, 0, st [tl], by decide +kernel⟩,
  ⟨2, vxw 15 9 10 10 2 0 1 0 2, 0, st [tl], by decide +kernel⟩,
  ⟨2, vxw 15 10 10 10 2 0 1 0 2, 0, st [tl], by decide +kernel⟩⟩

theorem witness_VectorComparesAndMoves :
    (∃ (t : TileId) (w0 : W64) (w1 : W64) (s : State), s.dev.up = true ∧ s.dev.issues t.val .cmpEq w0 w1 ∧ vxNr w0 = 1) ∧
    (∃ (t : TileId) (w0 : W64) (w1 : W64) (s : State), s.dev.up = true ∧ s.dev.issues t.val .cmpLt w0 w1 ∧ vxNr w0 = 1) ∧
    (∃ (t : TileId) (w0 : W64) (w1 : W64) (s : State), s.dev.up = true ∧ s.dev.issues t.val .cmpLe w0 w1 ∧ vxNr w0 = 1) ∧
    (∃ (t : TileId) (w0 : W64) (w1 : W64) (s : State), s.dev.up = true ∧ s.dev.issues t.val .cmpUn w0 w1 ∧ vxNr w0 = 1) ∧
    (∃ (t : TileId) (w0 : W64) (w1 : W64) (s : State), s.dev.up = true ∧ s.dev.issues t.val .sel w0 w1) ∧
    (∃ (t : TileId) (w0 : W64) (w1 : W64) (s : State), s.dev.up = true ∧ s.dev.issues t.val .i2f w0 w1) ∧
    (∃ (t : TileId) (w0 : W64) (w1 : W64) (s : State), s.dev.up = true ∧ s.dev.issues t.val .f2i w0 w1) ∧
    (∃ (t : TileId) (w0 : W64) (w1 : W64) (s : State), s.dev.up = true ∧ s.dev.issues t.val .vxMov w0 w1) ∧
    (∃ (t : TileId) (w0 : W64) (w1 : W64) (s : State), s.dev.up = true ∧ s.dev.issues t.val .bcastRow w0 w1) ∧
    (∃ (t : TileId) (w0 : W64) (w1 : W64) (s : State), s.dev.up = true ∧ s.dev.issues t.val .bcastColumn w0 w1) ∧
    (∃ (t : TileId) (w0 : W64) (w1 : W64) (s : State), s.dev.up = true ∧ s.dev.issues t.val .trans w0 w1) ∧
    (∃ (t : TileId) (w0 : W64) (w1 : W64) (s : State), s.dev.up = true ∧ s.dev.issues t.val .randRaw w0 w1) ∧
    (∃ (t : TileId) (w0 : W64) (w1 : W64) (s : State), s.dev.up = true ∧ s.dev.issues t.val .randUnif w0 w1) ∧
    (∃ (t : TileId) (w0 : W64) (w1 : W64) (s : State), s.dev.up = true ∧ s.dev.issues t.val .randRaw w0 w1 ∧ vxNr w0 ≠ 0) ∧
    (∃ (t : TileId) (w0 : W64) (w1 : W64) (row : Nat) (lane : Nat) (s : State), s.dev.up = true ∧ s.dev.issues t.val .cvt w0 w1 ∧ lane < 64 ∧ (s.dev.queued t.val .cvt w0 w1).covers row lane ∧ vxDView w0 = vxSView w0) ∧
    (∃ (t : TileId) (w0 : W64) (w1 : W64) (row : Nat) (lane : Nat) (s : State), s.dev.up = true ∧ s.dev.issues t.val .cvt w0 w1 ∧ lane < 64 ∧ (s.dev.queued t.val .cvt w0 w1).covers row lane ∧ vxDView w0 ≠ vxSView w0 ∧ viewMX (vxDView w0) = false) ∧
    (∃ (t : TileId) (w0 : W64) (w1 : W64) (row : Nat) (lane : Nat) (s : State), s.dev.up = true ∧ s.dev.issues t.val .cvt w0 w1 ∧ lane < 64 ∧ (s.dev.queued t.val .cvt w0 w1).covers row lane ∧ vxDView w0 ≠ vxSView w0 ∧ viewMX (vxDView w0) = true ∧ viewMX (vxSView w0) = false) ∧
    (∃ (t : TileId) (w0 : W64) (w1 : W64) (row : Nat) (lane : Nat) (s : State), s.dev.up = true ∧ s.dev.issues t.val .vxLd w0 w1 ∧ lane < 64 ∧ (s.dev.queued t.val .vxLd w0 w1).covers row lane) ∧
    (∃ (t : TileId) (w0 : W64) (w1 : W64) (s : State), s.dev.up = true ∧ s.dev.issues t.val .vxSt w0 w1 ∧ vxNr w0 = 1 ∧ viewMX (vxDView w0) = false) := ⟨
  ⟨2, vxw 13 0 0 0 17 0 1 0 1, 0, st [tl], by decide +kernel⟩,
  ⟨2, vxw 13 1 0 0 17 0 1 0 1, 0, st [tl], by decide +kernel⟩,
  ⟨2, vxw 13 2 0 0 17 0 1 0 1, 0, st [tl], by decide +kernel⟩,
  ⟨2, vxw 13 3 0 0 17 0 1 0 1, 0, st [tl], by decide +kernel⟩,
  ⟨2, vxw 14 0 0 0 2 0 1 0 2 [(9, 3), (12, 1)], 0, st [tl fun t => t.setP 3 0xF0F0F0F0AAAA5555], by decide +kernel⟩,
  ⟨2, vxw 16 0 0 10 2 0 1 0 2, 0, st [tl], by decide +kernel⟩,
  ⟨2, vxw 17 0 10 0 2 0 1 0 2, 0, st [tl], by decide +kernel⟩,
  ⟨2, vxw 19 0 0 0 2 0 1 0 2, 0, st [tl], by decide +kernel⟩,
  ⟨2, vxw 20 0 0 0 2 0 1 0 2, 0, st [tl], by decide +kernel⟩,
  ⟨2, vxw 20 1 0 0 2 0 1 0 2, 0, st [tl], by decide +kernel⟩,
  ⟨2, vxw 21 0 0 0 2 0 1 0 64, 0, st [tl], by decide +kernel⟩,
  ⟨2, vxw 22 0 10 0 2 0 1 0 2 [(43, 3)], 0, st [tl fun t => t.set (TLE_PHX_KEY_KEY 3) 5], by decide +kernel⟩,
  ⟨2, vxw 22 1 0 0 2 0 1 0 2 [(43, 3)], 0, st [tl fun t => t.set (TLE_PHX_KEY_KEY 3) 5], by decide +kernel⟩,
  ⟨2, vxw 22 0 10 0 2 0 1 0 2 [(43, 3)], 0, st [tl fun t => t.set (TLE_PHX_KEY_KEY 3) 5], by decide +kernel⟩,
  ⟨2, vxw 18 0 0 0 2 0 1 0 2, 0, 1, 3, st [tl], by decide +kernel⟩,
  ⟨2, vxw 18 0 1 0 2 0 1 0 2 [(62, 2), (43, 3), (46, 1)], 0, 1, 4, st [tl], by decide +kernel⟩,
  ⟨2, vxw 18 0 3 0 2 0 1 0 2, 0, 1, 4, st [tl], by decide +kernel⟩,
  ⟨2, vxw 0x17 0 0 0 2 1 0 0 2 [(8, 1)], 64, 1, 5, st [tl fun t => t.setA 1 (8192 + 8 * 2 ^ 32), .act (.mem (tileByte 2 8768) (List.replicate 256 6))], by decide +kernel⟩,
  ⟨2, vxw 0x18 0 0 0 0 1 0 1 1 [(8, 1)], 64, st [tl fun t => t.setA 1 (8192 + 8 * 2 ^ 32)], by decide +kernel⟩⟩

theorem witness_PassesAndReductions :
    (∃ (t : TileId) (w0 : W64) (w1 : W64) (s : State), s.dev.up = true ∧ s.dev.startsPass t.val w0 w1 ∧ s.dev.sampledTile t.val = false) ∧
    (∃ (t : TileId) (w0 : W64) (w1 : W64) (s : State), s.dev.up = true ∧ s.dev.startsPass t.val w0 w1 ∧ s.dev.sampledTile t.val = true) ∧
    (∃ (t : TileId) (w0 : W64) (w1 : W64) (s : State), s.dev.up = true ∧ s.dev.fetches t.val .pass w0 w1 ∧ (s.dev.tile t.val).gangs ≠ []) ∧
    (∃ (t : TileId) (w0 : W64) (w1 : W64) (s : State), s.dev.up = true ∧ s.dev.fetches t.val .pass w0 w1 ∧ (s.dev.tile t.val).gangs = [] ∧ passCheck (s.dev.tile t.val) (s.dev.queued t.val .pass w0 w1) = none ∧ ((s.dev.tile t.val).passes.any (fun p => decide (mxGang p.w0 = mxGang w0)) = true)) ∧
    (∃ (t : TileId) (g : Fin 4) (e : QEntry) (m : Nat) (n : Nat) (s : State), s.dev.up = true ∧ (s.dev.tile t.val).runsEmpty ∧ (s.dev.tile t.val).front = none ∧ (s.dev.tile t.val).relaxed = false ∧ (((s.dev.tile t.val).passes.find? fun p => decide (mxGang p.w0 = g.val)) = some e) ∧ e.sample = none ∧ m < gangRows ((s.dev.tile t.val).get TLE_MXCFG_ACTIVE) ∧ n < gangCols ((s.dev.tile t.val).get TLE_MXCFG_ACTIVE)) ∧
    (∃ (t : TileId) (g : Fin 4) (e : QEntry) (step : Nat) (first : Nat) (slot : Nat) (s : State), s.dev.up = true ∧ (s.dev.tile t.val).runsEmpty ∧ (s.dev.tile t.val).front = none ∧ (s.dev.tile t.val).relaxed = false ∧ (((s.dev.tile t.val).passes.find? fun p => decide (mxGang p.w0 = g.val)) = some e) ∧ e.sample = some (step, first) ∧ s.dev.shore.slot = some slot ∧ (s.dev.tile t.val).get TLE_MXCFG_ACTIVE = 0 ∧ mxK e.w0 ≤ passSpan e ∧ first ∈ s.dev.expects slot step 0 ∧ s.dev.wit.queue = []) ∧
    (∃ (t : TileId) (w0 : W64) (w1 : W64) (s : State), s.dev.up = true ∧ s.dev.fetches t.val .reduceSum w0 w1 ∧ rdCheck (s.dev.tile t.val) (s.dev.queued t.val .reduceSum w0 w1) = none ∧ (s.dev.tile t.val).passes = [] ∧ rdDst w0 ≠ 0x3F ∧ s.dev.sampledTile t.val = false) ∧
    (∃ (t : TileId) (w0 : W64) (w1 : W64) (s : State), s.dev.up = true ∧ s.dev.fetches t.val .reduceSum w0 w1 ∧ rdCheck (s.dev.tile t.val) (s.dev.queued t.val .reduceSum w0 w1) = none ∧ (s.dev.tile t.val).passes = [] ∧ rdDst w0 = 0x3F ∧ s.dev.sampledTile t.val = false) ∧
    (∃ (t : TileId) (w0 : W64) (w1 : W64) (slot : Nat) (s : State), s.dev.up = true ∧ s.dev.fetches t.val .reduceSum w0 w1 ∧ rdCheck (s.dev.tile t.val) (s.dev.queued t.val .reduceSum w0 w1) = none ∧ (s.dev.tile t.val).passes = [] ∧ rdDst w0 ≠ 0x3F ∧ s.dev.sampledTile t.val = true ∧ s.dev.shore.slot = some slot ∧ s.dev.wit.queue = []) ∧
    (∃ (t : TileId) (w0 : W64) (w1 : W64) (s : State), s.dev.up = true ∧ s.dev.fetches t.val .reduceMax w0 w1 ∧ rdCheck (s.dev.tile t.val) (s.dev.queued t.val .reduceMax w0 w1) = none ∧ (s.dev.tile t.val).passes = [] ∧ rdDst w0 ≠ 0x3F ∧ s.dev.sampledTile t.val = false) ∧
    (∃ (t : TileId) (w0 : W64) (w1 : W64) (s : State), s.dev.up = true ∧ s.dev.fetches t.val .reduceMax w0 w1 ∧ rdCheck (s.dev.tile t.val) (s.dev.queued t.val .reduceMax w0 w1) = none ∧ (s.dev.tile t.val).passes = [] ∧ rdDst w0 = 0x3F ∧ s.dev.sampledTile t.val = false) ∧
    (∃ (t : TileId) (w0 : W64) (w1 : W64) (slot : Nat) (s : State), s.dev.up = true ∧ s.dev.fetches t.val .reduceMax w0 w1 ∧ rdCheck (s.dev.tile t.val) (s.dev.queued t.val .reduceMax w0 w1) = none ∧ (s.dev.tile t.val).passes = [] ∧ rdDst w0 ≠ 0x3F ∧ s.dev.sampledTile t.val = true ∧ s.dev.shore.slot = some slot ∧ s.dev.wit.queue = []) ∧
    (∃ (t : TileId) (w0 : W64) (w1 : W64) (s : State), s.dev.up = true ∧ s.dev.fetches t.val .reduceMin w0 w1 ∧ rdCheck (s.dev.tile t.val) (s.dev.queued t.val .reduceMin w0 w1) = none ∧ (s.dev.tile t.val).passes = [] ∧ rdDst w0 ≠ 0x3F ∧ s.dev.sampledTile t.val = false) ∧
    (∃ (t : TileId) (w0 : W64) (w1 : W64) (s : State), s.dev.up = true ∧ s.dev.fetches t.val .reduceMin w0 w1 ∧ rdCheck (s.dev.tile t.val) (s.dev.queued t.val .reduceMin w0 w1) = none ∧ (s.dev.tile t.val).passes = [] ∧ rdDst w0 = 0x3F ∧ s.dev.sampledTile t.val = false) ∧
    (∃ (t : TileId) (w0 : W64) (w1 : W64) (slot : Nat) (s : State), s.dev.up = true ∧ s.dev.fetches t.val .reduceMin w0 w1 ∧ rdCheck (s.dev.tile t.val) (s.dev.queued t.val .reduceMin w0 w1) = none ∧ (s.dev.tile t.val).passes = [] ∧ rdDst w0 ≠ 0x3F ∧ s.dev.sampledTile t.val = true ∧ s.dev.shore.slot = some slot ∧ s.dev.wit.queue = []) := ⟨
  ⟨2, lw [(0, 1), (8, 1), (22, 1), (26, 2), (30, 3), (34, 4), (38, 32)], 0, st [tl fun t => (t.setA 1 8192).setA 3 65536], by decide +kernel⟩,
  ⟨2, lw [(0, 1), (8, 1), (22, 1), (26, 2), (30, 3), (34, 4), (38, 32)], 0, st [tl fun t => ((t.setA 1 8192).setA 3 65536).set TLE_CTRL_OWNER 1, sampled], by decide +kernel⟩,
  ⟨2, lw [(0, 1), (8, 1), (22, 1), (26, 2), (30, 3), (34, 4), (38, 32)], 0, st [tl fun t => { (t.setA 1 8192).setA 3 65536 with gangs := [2] }], by decide +kernel⟩,
  ⟨2, lw [(0, 1), (8, 1), (22, 1), (26, 2), (30, 3), (34, 4), (38, 32)], 0, st [tl fun t => { (t.setA 1 8192).setA 3 65536 with passes := [{ op := .pass, w0 := lw [(0, 1), (8, 1), (38, 32)], w1 := 0, off := 0 }] }], by decide +kernel⟩,
  ⟨2, 0, none.getD { op := .pass, w0 := lw [(0, 1), (8, 1), (11, 1), (38, 4)], w1 := 0, off := 0, av := [8192 + 2 ^ 32, 0, 65536 + 4 * 2 ^ 32, 0] }, 1, 2, st [tl fun t => { t with passes := [{ op := .pass, w0 := lw [(0, 1), (8, 1), (11, 1), (38, 4)], w1 := 0, off := 0, av := [8192 + 2 ^ 32, 0, 65536 + 4 * 2 ^ 32, 0] }], acc := [(66, 0x3F800000)] }, .act (.mem (tileByte 2 8256) (List.replicate 16 0x3F)), .act (.mem (tileByte 2 65536) (List.replicate 2048 0x3E))], by decide +kernel⟩,
  ⟨2, 0, none.getD { op := .pass, w0 := lw [(0, 1), (8, 1), (11, 1), (38, 4)], w1 := 0, off := 0, av := [8192 + 2 ^ 32, 0, 65536 + 4 * 2 ^ 32, 0], sample := some (20, 1) }, 20, 1, 2, st [tl fun t => { t.set TLE_CTRL_OWNER 1 with passes := [{ op := .pass, w0 := lw [(0, 1), (8, 1), (11, 1), (38, 4)], w1 := 0, off := 0, av := [8192 + 2 ^ 32, 0, 65536 + 4 * 2 ^ 32, 0], sample := some (20, 1) }], acc := [(66, 0x3F800000)] }, sampled, .act (.mem (tileByte 2 8256) (List.replicate 16 0x3F)), .act (.mem (tileByte 2 65536) (List.replicate 2048 0x3E))], by decide +kernel⟩,
  ⟨2, lw [(0, 1), (6, 2), (8, 1), (9, 0), (11, 1), (17, 0), (23, 2), (29, 5)], 0, st [tl], by decide +kernel⟩,
  ⟨2, lw [(0, 1), (6, 2), (8, 1), (9, 0), (11, 1), (17, 0), (23, 0x3F), (35, 1)], 0, st [tl fun t => t.setA 1 8192], by decide +kernel⟩,
  ⟨2, lw [(0, 1), (6, 2), (8, 1), (9, 0), (11, 1), (17, 0), (23, 2), (29, 5)], 0, 2, st [tl fun t => t.set TLE_CTRL_OWNER 1, sampled], by decide +kernel⟩,
  ⟨2, lw [(0, 1), (6, 2), (8, 1), (9, 1), (11, 1), (17, 0), (23, 2), (29, 5)], 1, st [tl], by decide +kernel⟩,
  ⟨2, lw [(0, 1), (6, 2), (8, 1), (9, 1), (11, 1), (17, 0), (23, 0x3F), (35, 1)], 0, st [tl fun t => t.setA 1 8192], by decide +kernel⟩,
  ⟨2, lw [(0, 1), (6, 2), (8, 1), (9, 1), (11, 1), (17, 0), (23, 2), (29, 5)], 1, 2, st [tl fun t => t.set TLE_CTRL_OWNER 1, sampled], by decide +kernel⟩,
  ⟨2, lw [(0, 1), (6, 2), (8, 1), (9, 2), (11, 1), (17, 0), (23, 2), (29, 5)], 2, st [tl], by decide +kernel⟩,
  ⟨2, lw [(0, 1), (6, 2), (8, 1), (9, 2), (11, 1), (17, 0), (23, 0x3F), (35, 1)], 0, st [tl fun t => t.setA 1 8192], by decide +kernel⟩,
  ⟨2, lw [(0, 1), (6, 2), (8, 1), (9, 2), (11, 1), (17, 0), (23, 2), (29, 5)], 2, 2, st [tl fun t => t.set TLE_CTRL_OWNER 1, sampled], by decide +kernel⟩⟩

theorem witness_TransfersAndSignalsOfATile :
    (∃ (t : TileId) (w0 : W64) (w1 : W64) (s : State), s.dev.up = true ∧ s.dev.startsMove t.val .copy w0 w1) ∧
    (∃ (t : TileId) (w0 : W64) (w1 : W64) (s : State), s.dev.up = true ∧ s.dev.startsMove t.val .get w0 w1) ∧
    (∃ (t : TileId) (w0 : W64) (w1 : W64) (s : State), s.dev.up = true ∧ s.dev.startsMove t.val .put w0 w1) ∧
    (∃ (t : TileId) (w0 : W64) (w1 : W64) (s : State), s.dev.up = true ∧ s.dev.startsMove t.val .xput w0 w1) ∧
    (∃ (t : TileId) (w0 : W64) (w1 : W64) (s : State), s.dev.up = true ∧ s.dev.fetches t.val .desc w0 w1 ∧ mvCheck s.dev t.val (s.dev.queued t.val .desc w0 w1) = none ∧ (s.dev.tile t.val).descs.length < 16 ∧ mvWaits s.dev t.val (s.dev.queued t.val .desc w0 w1) = false) ∧
    (∃ (t : TileId) (w0 : W64) (w1 : W64) (s : State), s.dev.up = true ∧ s.dev.fetches t.val .copy w0 w1 ∧ mvCheck s.dev t.val (s.dev.queued t.val .copy w0 w1) = none ∧ mvLen w0 = 0 ∧ mvSigt w0 = 1 ∧ (s.dev.tile t.val).moves = []) ∧
    (∃ (t : TileId) (w0 : W64) (w1 : W64) (s : State), s.dev.up = true ∧ s.dev.fetches t.val .wait w0 w1 ∧ bitsAt w0 9 1 = 1 ∧ satisfied ((s.dev.tile t.val).counter (bitsAt w0 10 6)) ((s.dev.tile t.val).syValue w0 w1) = true) ∧
    (∃ (t : TileId) (w0 : W64) (w1 : W64) (s : State), s.dev.up = true ∧ s.dev.fetches t.val .wait w0 w1 ∧ bitsAt w0 9 1 = 1 ∧ satisfied ((s.dev.tile t.val).counter (bitsAt w0 10 6)) ((s.dev.tile t.val).syValue w0 w1) = false) ∧
    (∃ (t : TileId) (w0 : W64) (w1 : W64) (s : State), s.dev.up = true ∧ s.dev.fetches t.val .sySignal w0 w1 ∧ bitsAt w0 9 1 = 1 ∧ (s.dev.tile t.val).passes = [] ∧ (s.dev.tile t.val).moves = []) ∧
    (∃ (t : TileId) (w0 : W64) (w1 : W64) (s : State), s.dev.up = true ∧ s.dev.fetches t.val .sySignal w0 w1 ∧ bitsAt w0 9 1 = 0 ∧ bitsAt w0 6 2 = 3 ∧ (s.dev.tile t.val).moves = []) ∧
    (∃ (t : TileId) (w0 : W64) (w1 : W64) (c : Nat) (s : State), s.dev.up = true ∧ s.dev.fetches t.val .rwait w0 w1 ∧ bitsAt w0 9 1 = 0 ∧ bitsAt w0 6 2 = 0 ∧ s.dev.winCounter (s.dev.tctx t.val) (((s.dev.tile t.val).sReg (bitsAt w0 16 5)).toNat % 2 ^ 16) = some c ∧ satisfied (s.dev.counter c) ((s.dev.tile t.val).syValue w0 w1) = true) ∧
    (∃ (t : TileId) (w0 : W64) (w1 : W64) (c : Nat) (s : State), s.dev.up = true ∧ s.dev.fetches t.val .rsignal w0 w1 ∧ bitsAt w0 9 1 = 0 ∧ bitsAt w0 6 2 = 1 ∧ (s.dev.tile t.val).on TLE_STAT_PAIRED = false ∧ s.dev.winCounter (s.dev.tctx t.val) (((s.dev.tile t.val).sReg (bitsAt w0 16 5)).toNat % 2 ^ 16) = some c ∧ 4096 ≤ c ∧ s.dev.unwatched c = true ∧ (s.dev.tile t.val).syValue w0 w1 ≠ 0) ∧
    (∃ (t : TileId) (w0 : W64) (w1 : W64) (s : State), s.dev.up = true ∧ s.dev.fetches t.val .drain w0 w1 ∧ bitsAt w0 9 1 = 1 ∧ (s.dev.tile t.val).passes = [] ∧ (s.dev.tile t.val).moves = []) ∧
    (∃ (t : TileId) (w0 : W64) (w1 : W64) (s : State), s.dev.up = true ∧ s.dev.fetches t.val .drain w0 w1 ∧ bitsAt w0 9 1 = 1 ∧ (s.dev.tile t.val).moves ≠ []) := ⟨
  ⟨2, lw [(0, 1), (6, 3), (8, 1), (9, 1), (13, 2), (17, 0), (19, 0), (35, 128)], lw [(0, 8192), (25, 16384)], st [tl], by decide +kernel⟩,
  ⟨2, lw [(0, 2), (6, 3), (8, 1), (9, 1), (13, 2), (17, 0), (19, 0), (35, 128)], lw [(0, 8192), (25, 7340032)], st [tl], by decide +kernel⟩,
  ⟨2, lw [(0, 3), (6, 3), (8, 1), (9, 1), (13, 2), (17, 0), (19, 0), (35, 128)], lw [(0, 8192), (25, 7340032)], st [tl], by decide +kernel⟩,
  ⟨2, lw [(0, 4), (6, 3), (8, 1), (9, 1), (13, 2), (17, 0), (19, 0), (35, 128)], lw [(0, 8192), (25, 16384)], st [tl fun t => t.set TLE_PROG_COUNT 1], by decide +kernel⟩,
  ⟨2, lw [(0, 5), (6, 3), (8, 1), (9, 1), (13, 2), (17, 0), (19, 0), (35, 0)], lw [(0, 0), (25, 8192)], st [tl], by decide +kernel⟩,
  ⟨2, lw [(0, 1), (6, 3), (8, 1), (9, 1), (13, 2), (17, 1), (19, 4), (35, 0)], lw [(0, 8192), (25, 16384)], st [tl], by decide +kernel⟩,
  ⟨2, lw [(0, 0x30), (9, 1), (10, 3), (22, 5)], 0, st [tl fun t => t.addCounter 3 5], by decide +kernel⟩,
  ⟨2, lw [(0, 0x30), (9, 1), (10, 3), (22, 5)], 0, st [tl fun t => t.addCounter 3 4], by decide +kernel⟩,
  ⟨2, lw [(0, 0x31), (9, 1), (10, 3), (22, 5)], 0, st [tl], by decide +kernel⟩,
  ⟨2, lw [(0, 0x31), (6, 3), (10, 3), (22, 5)], 0, st [tl], by decide +kernel⟩,
  ⟨2, lw [(0, 0x32), (6, 0), (16, 4), (22, 5)], 0, 20002, st [tl fun t => t.setS 4 2, put (tctxFld 2) 5, put (SYN_WIN_BASE 5) 20000, put (SYN_WIN_SIZE 5) 4, .act (.counter 20002 5)], by decide +kernel⟩,
  ⟨2, lw [(0, 0x33), (6, 1), (16, 4), (22, 5)], 0, 20002, st [tl fun t => t.setS 4 2, put (tctxFld 2) 5, put (SYN_WIN_BASE 5) 20000, put (SYN_WIN_SIZE 5) 4], by decide +kernel⟩,
  ⟨2, lw [(0, 0x34), (9, 1)], 0, st [tl], by decide +kernel⟩,
  ⟨2, lw [(0, 0x34), (9, 1)], 0, st [tl fun t => { t with moves := [⟨{ op := .copy, w0 := lw [(0, 1), (6, 3), (8, 1), (17, 1), (19, 4), (35, 128)], w1 := lw [(0, 4096), (25, 8192)], off := 0 }, false⟩] }], by decide +kernel⟩⟩

theorem witness_HostsReadAndWrite :
    (∃ (m : HMsg) (s : State), s.dev.up = true ∧ s.dev.hostTurn m.slot.val 0 ∧ s.dev.epochOk .any m.epoch.toNat = true ∧ m.ver = 1 ∧ m.data = []) ∧
    (∃ (m : HMsg) (s : State), s.dev.up = true ∧ s.dev.obeys m 0 .any (8 * m.arg.toNat) ∧ m.data = [] ∧ m.arg.toNat ≤ 1024 ∧ (∀ i < m.arg.toNat, quietReg (m.target.toNat + 8 * i) ∧ (s.dev.readReg (m.target.toNat + 8 * i)).2 = stOK)) ∧
    (∃ (m : HMsg) (s : State), s.dev.up = true ∧ s.dev.obeys m 0 .any 0 ∧ m.data = [] ∧ m.arg.toNat ≤ 1024 ∧ 0 < m.arg.toNat ∧ (s.dev.readReg m.target.toNat).2 ≠ stOK) ∧
    (∃ (m : HMsg) (s : State), s.dev.up = true ∧ s.dev.obeys m clsOPERATE .any 0 ∧ m.data ≠ [] ∧ m.data.length % 8 = 0 ∧ (∀ i < m.data.length / 8, plainReg (m.target.toNat + 8 * i) ∧ touchesPK ctlRows (m.target.toNat + 8 * i) (s.dev.word (m.target.toNat + 8 * i)) (BitVec.ofNat 64 (numAt m.data (8 * i) 8)) = false) ∧ m.target.toNat + m.data.length ≤ 0x200100) ∧
    (∃ (m : HMsg) (s : State), s.dev.up = true ∧ s.dev.obeys m clsOPERATE .any 0 ∧ m.data ≠ [] ∧ m.data.length % 8 = 0 ∧ (m.target.toNat % 8 ≠ 0 ∨ 0x7FFFFF < m.target.toNat)) ∧
    (∃ (m : HMsg) (s : State), s.dev.up = true ∧ s.dev.obeys m 0 .any 0 ∧ m.data = [] ∧ m.arg.toNat < 8 ∧ s.dev.slotState m.arg.toNat ≠ sABSENT ∧ s.dev.mode.role ≠ .quarantine) ∧
    (∃ (m : HMsg) (n : Nat) (c : Nat) (s : State), s.dev.up = true ∧ s.dev.obeys m 0 .any 0 ∧ m.data = [] ∧ m.arg.toNat = n + 2 ^ 16 * c ∧ n < 8 ∧ 0 < c ∧ c ≤ 512 ∧ s.dev.slotState n ≠ sABSENT ∧ s.dev.mode.role ≠ .quarantine) ∧
    (∃ (m : HMsg) (n : Nat) (s : State), s.dev.up = true ∧ s.dev.obeys m clsOPERATE .any 0 ∧ m.data ≠ [] ∧ m.data.length % 8 = 0 ∧ m.data.length ≤ 4096 ∧ m.arg.toNat = n ∧ n < 8 ∧ s.dev.slotState n ≠ sABSENT ∧ s.dev.mode.role ≠ .quarantine) ∧
    (∃ (m : HMsg) (n : Nat) (c : Nat) (s : State), s.dev.up = true ∧ s.dev.obeys m 0 .any 0 ∧ m.data = [] ∧ m.arg.toNat = n + 2 ^ 16 * c ∧ n < 8 ∧ c ≤ 512 ∧ (s.dev.slotState n = sABSENT ∨ s.dev.mode.role = .quarantine) ∧ m.target.toNat % 8 = 0 ∧ m.target.toNat < 0x4000) ∧
    (∃ (m : HMsg) (s : State), s.dev.up = true ∧ s.dev.obeys m clsOPERATE .any (64 * argAt m 32 32) ∧ m.data = [] ∧ m.target.toNat % 64 = 0 ∧ argClean m 0xFFFFFFFF0000003F = true ∧ 64 * argAt m 32 32 ≤ 2 ^ 30 ∧ s.dev.resting = false ∧ s.dev.mode.role ≠ .quarantine ∧ s.dev.readable (argAt m 0 6) m.target.toNat (64 * argAt m 32 32)) ∧
    (∃ (m : HMsg) (cause : Nat) (s : State), s.dev.up = true ∧ s.dev.obeys m clsOPERATE .any 0 ∧ m.data = [] ∧ m.target.toNat % 64 = 0 ∧ argClean m 0xFFFFFFFF0000003F = true ∧ s.dev.resting = false ∧ 0 < argAt m 32 32 ∧ argAt m 32 32 ≤ 2 ^ 24 ∧ s.dev.translate (argAt m 0 6) m.target.toNat false false = .fault cause ∧ s.dev.mode.role ≠ .quarantine ∧ s.dev.noListeners) ∧
    (∃ (m : HMsg) (s : State), s.dev.up = true ∧ s.dev.obeys m clsOPERATE .any 0 ∧ m.data = [] ∧ m.target.toNat % 64 = 0 ∧ argClean m 0xFFFFFFFF0000003F = true ∧ 64 * argAt m 32 32 ≤ 2 ^ 30 ∧ (s.dev.resting = true ∨ s.dev.mode.role = .quarantine) ∧ s.dev.readable (argAt m 0 6) m.target.toNat (64 * argAt m 32 32)) ∧
    (∃ (m : HMsg) (pa : Nat) (s : State), s.dev.up = true ∧ s.dev.obeys m (if argAt m 0 6 = 0 then clsSERVICE else clsOPERATE) .any 0 ∧ argAt m 0 6 ∉ [1, 2] ∧ m.data.length = 64 * argAt m 32 32 ∧ m.target.toNat % 64 = 0 ∧ argClean m 0xFFFFFFFF0000003F = true ∧ s.dev.resting = false ∧ s.dev.mode.role ≠ .quarantine ∧ (argAt m 0 6 = 0 → s.dev.epoch = 0) ∧ m.data ≠ [] ∧ m.target.toNat % 4096 + m.data.length ≤ 4096 ∧ s.dev.pieceAt (argAt m 0 6) m.target.toNat true (0, m.data.length) = some pa ∧ s.dev.phys pa = .hbm) := ⟨
  ⟨hm, st [hs], by decide +kernel⟩,
  ⟨hm 2 0x240000, st [hs], by decide +kernel⟩,
  ⟨hm 1 4, st [hs], by decide +kernel⟩,
  ⟨hm 0 0x1F0010 (leBytes 8 0x12345678), st [hs], by decide +kernel⟩,
  ⟨hm 0 4 (leBytes 8 9), st [hs], by decide +kernel⟩,
  ⟨hm 2, st [hs, jb], by decide +kernel⟩,
  ⟨hm (2 + 2 ^ 16 * 3) 8, 2, 3, st [hs, jb], by decide +kernel⟩,
  ⟨hm 2 8 (leBytes 8 9 ++ leBytes 8 10), 2, st [hs, jb], by decide +kernel⟩,
  ⟨hm 2, 2, 0, st [hs, jb, modMode fun m => { m with role := .quarantine }], by decide +kernel⟩,
  ⟨hm (2 * 2 ^ 32) 0x1000, st [hs], by decide +kernel⟩,
  ⟨hm (2 * 2 ^ 32 + 5) 0x1000, fCONTEXT, st [hs], by decide +kernel⟩,
  ⟨hm (2 * 2 ^ 32) 0x1000, st [hs, modMode fun m => { m with role := .quarantine }], by decide +kernel⟩,
  ⟨hm (2 * 2 ^ 32) 0x1000 (List.replicate 128 9), 0x1000, st [hs 2], by decide +kernel⟩⟩

theorem witness_HostCommandsAreChecked :
    (∃ (m : HMsg) (s : State), s.dev.up = true ∧ s.dev.hostTurn m.slot.val 0 ∧ s.dev.get (HST_SESS_CLASS m.slot.val) < clsOPERATE) ∧
    (∃ (m : HMsg) (s : State), s.dev.up = true ∧ s.dev.hostTurn m.slot.val 0 ∧ s.dev.get (HST_SESS_CLASS m.slot.val) < clsSERVICE) ∧
    (∃ (m : HMsg) (s : State), s.dev.up = true ∧ s.dev.hostTurn m.slot.val 0 ∧ m.epoch.toNat ≠ 0 ∧ m.epoch.toNat ≠ s.dev.epoch) ∧
    (∃ (m : HMsg) (s : State), s.dev.up = true ∧ s.dev.hostTurn m.slot.val 0 ∧ m.epoch.toNat = 0 ∧ s.dev.hubFenced = true) ∧
    (∃ (m : HMsg) (s : State), s.dev.up = true ∧ s.dev.hostTurn m.slot.val 0 ∧ m.epoch.toNat = 0 ∧ s.dev.hubFenced = false ∧ m.ver ≠ 1) ∧
    (∃ (m : HMsg) (s : State), s.dev.up = true ∧ s.dev.hostTurn m.slot.val 0 ∧ m.epoch.toNat = 0 ∧ s.dev.hubFenced = false ∧ m.ver = 1 ∧ m.data ≠ []) ∧
    (∃ (m : HMsg) (s : State), s.dev.up = true ∧ s.dev.hostTurn m.slot.val 0 ∧ m.epoch.toNat = 0 ∧ s.dev.hubFenced = false ∧ m.ver = 1 ∧ m.data = [] ∧ m.arg = 0 ∧ s.dev.mode.fw = .recovery) ∧
    (∃ (m : HMsg) (s : State), s.dev.up = true ∧ s.dev.hostTurn m.slot.val 0 ∧ m.epoch.toNat = 0 ∧ clsOPERATE ≤ s.dev.get (HST_SESS_CLASS m.slot.val) ∧ s.dev.hubFenced = false ∧ m.ver = 1 ∧ m.data ≠ [] ∧ m.data.length % 8 = 0 ∧ s.dev.mode.fw = .recovery) ∧
    (∃ (m : HMsg) (s : State), s.dev.up = true ∧ s.dev.hState m.slot.val = hOPEN ∧ (s.dev.host m.slot.val).waiting ≠ []) ∧
    (∃ (m : HMsg) (s : State), s.dev.up = true ∧ s.dev.hState m.slot.val ≠ hOPEN) := ⟨
  ⟨hm, st [hs 0], by decide +kernel⟩,
  ⟨hm, st [hs 1], by decide +kernel⟩,
  ⟨hm 0 0 [] 9, st [hs], by decide +kernel⟩,
  ⟨hm, st [hs, modRst fun x => { x with fencing := 1 }], by decide +kernel⟩,
  ⟨{ hm with ver := 2 }, st [hs], by decide +kernel⟩,
  ⟨hm 0 0 [1], st [hs], by decide +kernel⟩,
  ⟨hm, st [hs, modMode fun x => { x with fw := .recovery }], by decide +kernel⟩,
  ⟨hm 0 0 (leBytes 8 1), st [hs, modMode fun x => { x with fw := .recovery }], by decide +kernel⟩,
  ⟨hm, st [hs, modHost 3 fun h => { h with waiting := [pkt0] }], by decide +kernel⟩,
  ⟨hm, ⟨up0, []⟩, by decide +kernel⟩⟩

theorem witness_HostsReadLogsAndDumps :
    (∃ (m : HMsg) (s : State), s.dev.up = true ∧ s.dev.obeys m 0 .any (s.dev.logAnswer 0 (argAt m 16 48) (argAt m 2 14)).length ∧ m.data = [] ∧ argAt m 0 2 = 0 ∧ argAt m 2 14 ≠ 0) ∧
    (∃ (m : HMsg) (s : State), s.dev.up = true ∧ s.dev.obeys m 0 .any (s.dev.logAnswer 1 (argAt m 16 48) (argAt m 2 14)).length ∧ m.data = [] ∧ argAt m 0 2 = 1 ∧ argAt m 2 14 ≠ 0) ∧
    (∃ (m : HMsg) (s : State), s.dev.up = true ∧ s.dev.obeys m clsSERVICE .any (s.dev.logAnswer 2 (argAt m 16 48) (argAt m 2 14)).length ∧ m.data = [] ∧ argAt m 0 2 = 2 ∧ argAt m 2 14 ≠ 0) ∧
    (∃ (m : HMsg) (s : State), s.dev.up = true ∧ s.dev.obeys m 0 .any (s.dev.samples (argAt m 0 48) (argAt m 48 16)).length ∧ m.data = [] ∧ argAt m 48 16 * s.dev.sampleLen ≤ 2 ^ 30 ∧ s.dev.resting = false) ∧
    (∃ (m : HMsg) (len : Nat) (s : State), s.dev.up = true ∧ s.dev.obeys m clsSERVICE .any (64 * argAt m 40 24) ∧ m.data = [] ∧ s.dev.halted = true ∧ chainLen (argAt m 0 16) = some len ∧ 64 * (argAt m 16 24 + argAt m 40 24) ≤ len) ∧
    (∃ (m : HMsg) (s : State), s.dev.up = true ∧ s.dev.obeys m clsSERVICE .any 0 ∧ m.data = [] ∧ s.dev.halted = false ∧ chainLen (argAt m 0 16) ≠ none ∧ 64 * (argAt m 16 24 + argAt m 40 24) ≤ (chainLen (argAt m 0 16)).getD 0) ∧
    (∃ (m : HMsg) (c : Nat) (s : State), s.dev.up = true ∧ s.dev.obeys m clsOPERATE .any 0 ∧ s.dev.noListeners ∧ m.data = [] ∧ m.arg.toNat = 2 ^ 8 * c ∧ c < 64 ∧ s.dev.mode.role ≠ .quarantine ∧ s.dev.pmBase + s.dev.sync.dumpSlot * 0x200000 + 0x106000 ≤ hbmCheckBase ∧ s.dev.get (SYN_WIN_SIZE c) ≤ 65536) ∧
    (∃ (m : HMsg) (n : Nat) (s : State), s.dev.up = true ∧ s.dev.obeys m clsOPERATE .any 0 ∧ m.data = [] ∧ n < 8 ∧ m.arg.toNat = 2 ^ 16 + 2 ^ 17 * n ∧ s.dev.slotState n ≠ sABSENT ∧ s.dev.mode.role ≠ .quarantine) ∧
    (∃ (m : HMsg) (c : Nat) (s : State), s.dev.up = true ∧ s.dev.obeys m clsOPERATE .any 0 ∧ m.data = [] ∧ m.arg.toNat = 2 ^ 8 * c ∧ c < 64 ∧ s.dev.mode.role = .quarantine) ∧
    (∃ (m : HMsg) (s : State), s.dev.up = true ∧ s.dev.obeys m clsOPERATE .any 0 ∧ s.dev.noListeners ∧ s.dev.haltable ∧ m.data = [] ∧ m.arg = 1) ∧
    (∃ (m : HMsg) (s : State), s.dev.up = true ∧ s.dev.obeys m clsOPERATE .any 0 ∧ (s.dev.on TAL_HALT_PIN = true ∨ s.dev.on TAL_HALT_JTAG = true) ∧ s.dev.halted = true ∧ m.data = [] ∧ m.arg = 0) ∧
    (∃ (m : HMsg) (s : State), s.dev.up = true ∧ s.dev.obeys m clsOPERATE .any 0 ∧ s.dev.mode.role = .banked ∧ m.data = [] ∧ m.arg = 1) := ⟨
  ⟨hm 4, st [hs, record 0x0C 0 [1]], by decide +kernel⟩,
  ⟨hm 5, st [hs, record 0x0C 0 [1] true], by decide +kernel⟩,
  ⟨hm 6, st [hs 2, record 0x0C 0 [1]], by decide +kernel⟩,
  ⟨hm (2 ^ 48 * 2), st [hs], by decide +kernel⟩,
  ⟨hm (2 ^ 40), (chainLen 0).getD 0, st [hs 2, put TAL_HALT_HALTED 1], by decide +kernel⟩,
  ⟨hm (2 ^ 40), st [hs 2], by decide +kernel⟩,
  ⟨hm (2 ^ 8 * 5), 5, st [hs, jb, put (SYN_WIN_BASE 5) 20000, put (SYN_WIN_SIZE 5) 3, put SYN_PM_BASE_BASE 0x100, .act (.counter 20001 7)], by decide +kernel⟩,
  ⟨hm (2 ^ 16 + 2 ^ 17 * 2), 2, st [hs, jb], by decide +kernel⟩,
  ⟨hm (2 ^ 8 * 5), 5, st [hs, jb, modMode fun m => { m with role := .quarantine }], by decide +kernel⟩,
  ⟨hm 1, st [hs], by decide +kernel⟩,
  ⟨hm 0, st [hs, put TAL_HALT_PIN 1, put TAL_HALT_HALTED 1, put TAL_HALT_CMD 1], by decide +kernel⟩,
  ⟨hm 1, st [hs, modMode fun x => { x with role := .banked }], by decide +kernel⟩⟩

theorem witness_HostsLoadProgramsAndGuests :
    (∃ (m : HMsg) (s : State), s.dev.up = true ∧ s.dev.obeys m clsOPERATE .new 0 ∧ m.data ≠ [] ∧ s.dev.halted = false ∧ m.epoch.toNat = s.dev.start.epoch ∧ s.dev.hPhase = hSTAGING ∧ m.target.toNat + m.data.length ≤ 64 * gib ∧ (s.dev.start.stage.put m.target.toNat m.data).covers 0 4096 = false ∧ s.dev.start.head = []) ∧
    (∃ (m : HMsg) (s : State), s.dev.up = true ∧ s.dev.obeys m clsOPERATE .new 0 ∧ m.data ≠ [] ∧ s.dev.halted = false ∧ m.epoch.toNat = s.dev.start.epoch ∧ s.dev.admitting = true ∧ s.dev.hPhase ≠ hSTAGING ∧ m.target.toNat + m.data.length ≤ 64 * gib) ∧
    (∃ (m : HMsg) (e : Nat) (x : MEnt) (s : State), s.dev.up = true ∧ s.dev.obeys m clsOPERATE .new 0 ∧ m.data ≠ [] ∧ s.dev.halted = false ∧ m.epoch.toNat = s.dev.start.epoch ∧ s.dev.hPhase = hINTAKE ∧ s.dev.start.joining = false ∧ e ≠ 0 ∧ e < 2 ^ 17 ∧ m.target.toNat = 2 ^ 63 + e * 2 ^ 32 + m.target.toNat % 2 ^ 32 ∧ s.dev.takenEnts[e - 1]? = some x ∧ m.target.toNat % 2 ^ 32 + m.data.length ≤ x.len * 4096 ∧ s.dev.phys (x.loc + m.target.toNat % 2 ^ 32) = .hbm ∧ coversRange (joinRange (m.target.toNat % 2 ^ 32) m.data.length ((Store.find? s.dev.start.intake (e - 1)).getD [])) 0 (x.len * 4096) = false) ∧
    (∃ (m : HMsg) (va : Nat) (len : Nat) (i : Image) (n : Nat) (s : State), s.dev.up = true ∧ s.dev.obeys m clsOPERATE .any 0 ∧ m.data = [] ∧ m.arg.toNat = 3 ∧ s.dev.mode.role ∉ [.banked, .quarantine] ∧ s.dev.readable 3 m.target.toNat 8 ∧ s.dev.readable 3 (m.target.toNat + 8) 16 ∧ s.dev.virtBytes 3 m.target.toNat 8 = leBytes 8 1 ∧ s.dev.virtBytes 3 (m.target.toNat + 8) 16 = leBytes 8 va ++ leBytes 8 len ∧ va < 2 ^ 64 ∧ len ≤ 128 + tileStoreSize ∧ s.dev.readable 3 va len ∧ parseImage (s.dev.virtBytes 3 va len) = (stOK, i) ∧ i.rank = 0 ∧ i.count = 1 ∧ s.dev.freeTiles.head? = some n) ∧
    (∃ (m : HMsg) (s : State), s.dev.up = true ∧ s.dev.obeys m clsOPERATE .any 0 ∧ m.data = [] ∧ m.arg.toNat = 3 ∧ s.dev.readable 3 m.target.toNat 8 ∧ (numAt (s.dev.virtBytes 3 m.target.toNat 8) 0 8 = 0 ∨ 256 < numAt (s.dev.virtBytes 3 m.target.toNat 8) 0 8)) ∧
    (∃ (m : HMsg) (c : Nat) (s : State), s.dev.up = true ∧ s.dev.obeys m clsOPERATE .any 0 ∧ m.data = [] ∧ m.arg.toNat = 0 ∧ s.dev.inTransit = false ∧ s.dev.mode.role = .guest ∧ s.dev.guestBusy 0 = false ∧ s.dev.guestCtx 0 = some c ∧ c < 64 ∧ s.dev.on (MMU_ROOT_VALID c) = false) ∧
    (∃ (m : HMsg) (s : State), s.dev.up = true ∧ s.dev.obeys m clsOPERATE .any 0 ∧ m.data = [] ∧ m.arg.toNat = 0 ∧ s.dev.inTransit = false ∧ s.dev.mode.role ≠ .banked ∧ s.dev.guestBusy 0 = true) ∧
    (∃ (m : HMsg) (s : State), s.dev.up = true ∧ s.dev.obeys m clsOPERATE .any 0 ∧ m.data = [] ∧ m.arg.toNat = 0 ∧ s.dev.inTransit = true) ∧
    (∃ (m : HMsg) (c : Nat) (s : State), s.dev.up = true ∧ s.dev.obeys m clsOPERATE .any 0 ∧ m.data = [] ∧ m.arg.toNat = c ∧ 4 ≤ c ∧ c < 64 ∧ (s.dev.mmu.guests.any (fun g => decide (g.ctx = c)) = true)) := ⟨
  ⟨hm 0 5000 [1, 2] 7, st [hs, put HUB_START_PHASE 1, modStart fun x => { x with epoch := 7 }], by decide +kernel⟩,
  ⟨hm 0 5000 [1, 2] 7, st [hs, put HUB_START_PHASE 2, modStart fun x => { x with epoch := 7 }], by decide +kernel⟩,
  ⟨hm 0 (2 ^ 63 + 2 ^ 32 + 64) [1, 2] 7, 1, ent8, st [hs, put HUB_START_PHASE 3, modStart (fun x => { x with epoch := 7 }), modCourse fun c => { c with held := [held8] }], by decide +kernel⟩,
  ⟨hm 3 0x200000, 0x201000, 8512, ⟨true, 0, 1, 0, 8384, 0, 8, 0, 64, 0⟩, 0, ⟨loadRecord.dev, loadRecord.pending⟩, by decide +kernel, by decide +kernel, by decide +kernel, by decide +kernel, by decide +kernel, (loadRecord_at (va := 0x200000) (len := 8) (by decide +kernel)).1, (loadRecord_at (va := 0x200008) (len := 16) (by decide +kernel)).1, ((loadRecord_at (va := 0x200000) (len := 8) (by decide +kernel)).2.trans (by decide +kernel)), ((loadRecord_at (va := 0x200008) (len := 16) (by decide +kernel)).2.trans (by decide +kernel)), by decide +kernel, by decide +kernel, (loadRecord_at (va := 0x201000) (len := 8512) (by decide +kernel)).1, ((congrArg parseImage loadRecord_image).trans imageHead_parses), by decide +kernel, by decide +kernel, by decide +kernel⟩,
  ⟨hm 3 0x200008, ⟨loadRecord.dev, loadRecord.pending⟩, by decide +kernel, by decide +kernel, by decide +kernel, by decide +kernel, (loadRecord_at (va := 0x200008) (len := 8) (by decide +kernel)).1, Or.inr loadRecord_second⟩,
  ⟨hm, 4, st [hs, fit, modMode fun x => { x with role := .guest, guestOn := true }], by decide +kernel⟩,
  ⟨hm, st [hs], by decide +kernel⟩,
  ⟨hm, st [hs, modMode fun x => { x with transit := some .guest }], by decide +kernel⟩,
  ⟨hm 4, 4, st [hs, modMmu fun x => { x with guests := [⟨4, 3, [], false⟩], programs := [⟨4, 3, [], [], false⟩] }], by decide +kernel⟩⟩

theorem witness_HostsRunJobsAndCourses :
    (∃ (m : HMsg) (s : State), s.dev.up = true ∧ s.dev.obeys m clsOPERATE .any 0 ∧ s.dev.noListeners ∧ m.data = [] ∧ m.arg.toNat = Role.guest.code ∧ s.dev.inTransit = false ∧ s.dev.mode.role = .service ∧ s.dev.mode.fw = .run ∧ s.dev.get MEM_HBM_STAT_UP = 2 ^ 32 - 1) ∧
    (∃ (m : HMsg) (s : State), s.dev.up = true ∧ s.dev.obeys m clsOPERATE .any 0 ∧ s.dev.noListeners ∧ m.data = [] ∧ m.arg.toNat = Role.service.code ∧ s.dev.inTransit = false ∧ s.dev.mode.role = .guest ∧ s.dev.mode.fw = .run ∧ s.dev.mmu.guests = []) ∧
    (∃ (m : HMsg) (s : State), s.dev.up = true ∧ s.dev.obeys m clsOPERATE .any 0 ∧ m.data = [] ∧ m.arg.toNat < 16 ∧ s.dev.inTransit = false ∧ (s.dev.mode.role = .watch ∨ s.dev.mode.role = .service ∧ s.dev.get MEM_HBM_STAT_UP ≠ 2 ^ 32 - 1)) ∧
    (∃ (m : HMsg) (s : State), s.dev.up = true ∧ s.dev.obeys m clsOPERATE .any 0 ∧ m.data = [] ∧ m.arg.toNat < 16 ∧ s.dev.inTransit = true) ∧
    (∃ (m : HMsg) (s : State), s.dev.up = true ∧ s.dev.obeys m clsOPERATE .new 0 ∧ s.dev.get HUB_EPOCHS_MIN ≤ m.epoch.toNat ∧ m.epoch.toNat ≤ s.dev.get HUB_EPOCHS_MAX ∧ m.data.length = 48 ∧ zeroAt m.data 32 16 = true ∧ s.dev.inTransit = false ∧ s.dev.mode.role ≠ .banked ∧ s.dev.jobBusy = false) ∧
    (∃ (m : HMsg) (s : State), s.dev.up = true ∧ s.dev.obeys m clsOPERATE .new 0 ∧ s.dev.get HUB_EPOCHS_MIN ≤ m.epoch.toNat ∧ m.epoch.toNat ≤ s.dev.get HUB_EPOCHS_MAX ∧ m.data.length = 48 ∧ zeroAt m.data 32 16 = true ∧ s.dev.inTransit = false ∧ s.dev.mode.role ≠ .banked ∧ s.dev.jobBusy = true) ∧
    (∃ (m : HMsg) (s : State), s.dev.up = true ∧ s.dev.obeys m clsOPERATE .new 0 ∧ s.dev.get (HST_SESS_CLASS m.slot.val) ≤ 2 ∧ m.epoch.toNat < s.dev.get HUB_EPOCHS_MIN) ∧
    (∃ (m : HMsg) (s : State), s.dev.up = true ∧ s.dev.obeys m clsOPERATE .job 0 ∧ m.data = [] ∧ m.arg.toNat ≤ 1) ∧
    (∃ (m : HMsg) (s : State), s.dev.up = true ∧ s.dev.obeys m clsOPERATE .job 0 ∧ m.data = [] ∧ m.arg.toNat = 0) ∧
    (∃ (m : HMsg) (s : State), s.dev.up = true ∧ s.dev.obeys m clsOPERATE .job 0 ∧ s.dev.noListeners ∧ m.data = [] ∧ m.arg.toNat = 1 ∧ s.dev.inCourse = true ∧ s.dev.voted = false) ∧
    (∃ (m : HMsg) (s : State), s.dev.up = true ∧ s.dev.obeys m clsOPERATE .job 0 ∧ m.data = [] ∧ m.arg.toNat = 2 ∧ m.target.toNat = s.dev.ownAddr ∧ s.dev.ownAddr ∈ s.dev.job.members ∧ s.dev.isRoot = false) ∧
    (∃ (m : HMsg) (s : State), s.dev.up = true ∧ s.dev.obeys m clsOPERATE .job 0 ∧ m.data = [] ∧ m.arg.toNat = 2 ∧ m.target.toNat ≠ s.dev.ownAddr ∧ m.target.toNat ∈ s.dev.job.members ∧ m.target.toNat < 2 ^ CRS_ROOT_ADDR.width ∧ s.dev.sessionTo m.target.toNat ≠ none) ∧
    (∃ (m : HMsg) (s : State), s.dev.up = true ∧ s.dev.obeys m clsOPERATE .job 0 ∧ m.data = [] ∧ m.arg.toNat = 2 ∧ m.target.toNat ∉ s.dev.job.members) ∧
    (∃ (m : HMsg) (s : State), s.dev.up = true ∧ s.dev.obeys m clsOPERATE .job 16 ∧ m.data = [] ∧ m.arg.toNat = 3) ∧
    (∃ (m : HMsg) (n : Nat) (s : State), s.dev.up = true ∧ s.dev.obeys m clsOPERATE .job 0 ∧ s.dev.noListeners ∧ m.data = [] ∧ n < 8 ∧ m.arg.toNat = 16 * n ∧ s.dev.slotState n = sLIVE) ∧
    (∃ (m : HMsg) (s : State), s.dev.up = true ∧ s.dev.obeys m clsOPERATE .job 0 ∧ m.data = [] ∧ m.arg.toNat = 1 ∧ s.dev.shore.slot = none) ∧
    (∃ (m : HMsg) (n : Nat) (s : State), s.dev.up = true ∧ s.dev.obeys m clsOPERATE .job 0 ∧ m.data = [] ∧ m.arg.toNat = 1 ∧ s.dev.shore.slot = some n ∧ n < 8 ∧ s.dev.slotState n = sSHORED ∧ s.dev.phase = phRUNNING ∧ s.dev.shore.handback = none ∧ s.dev.shrCfg SHR_CFG_HB_LIVE = 0 ∧ uSlot n ∉ s.dev.rst.out ∧ n ∉ s.dev.rst.cycle) := ⟨
  ⟨hm 3, st [hs, put MEM_HBM_STAT_UP 0xFFFFFFFF], by decide +kernel⟩,
  ⟨hm 0, st [hs, modMode fun x => { x with role := .guest, guestOn := true }], by decide +kernel⟩,
  ⟨hm 0, st [hs, jb], by decide +kernel⟩,
  ⟨hm 0, st [hs, modMode fun x => { x with transit := some .guest }], by decide +kernel⟩,
  ⟨hm 0 0 (List.replicate 32 7 ++ List.replicate 16 0) 8, st [hs, fit, put HUB_EPOCHS_MIN 1, put HUB_EPOCHS_MAX 100], by decide +kernel⟩,
  ⟨hm 0 0 (List.replicate 32 7 ++ List.replicate 16 0) 8, st [hs, put HUB_EPOCHS_MIN 1, put HUB_EPOCHS_MAX 100], by decide +kernel⟩,
  ⟨hm 0 0 (List.replicate 32 7 ++ List.replicate 16 0) 8, st [hs, put HUB_EPOCHS_MIN 10, put HUB_EPOCHS_MAX 100], by decide +kernel⟩,
  ⟨hm 1 0 [] 7, st [hs, jb], by decide +kernel⟩,
  ⟨hm 0 0 [] 7, st [hs, jb], by decide +kernel⟩,
  ⟨hm 1 0 [] 7, st [hs, jb, crs 2], by decide +kernel⟩,
  ⟨hm 2 67 [] 7, st [hs, jb], by decide +kernel⟩,
  ⟨hm 2 70 [] 7, st [hs, rt, ps 5 70 2], by decide +kernel⟩,
  ⟨hm 2 99 [] 7, st [hs, jb], by decide +kernel⟩,
  ⟨hm 3 0 [] 7, st [hs, jb, crs 2], by decide +kernel⟩,
  ⟨hm 32 0 [] 7, 2, st [hs, jb], by decide +kernel⟩,
  ⟨hm 1 0 [] 7, st [hs, jb], by decide +kernel⟩,
  ⟨hm 1 0 [] 7, 2, st [hs, shored, put (HUB_SLOT_STATE 2) sSHORED], by decide +kernel⟩⟩

theorem witness_HostsChangeAuthorityAndFirmware :
    (∃ (m : HMsg) (s : State), s.dev.up = true ∧ s.dev.obeys m clsOPERATE .any 0 ∧ s.dev.noListeners ∧ 128 ≤ m.data.length ∧ aKind m.data = 1 ∧ s.dev.sec.pending = none) ∧
    (∃ (m : HMsg) (p : Proposal) (s : State), s.dev.up = true ∧ s.dev.obeys m clsOPERATE .any 0 ∧ s.dev.noListeners ∧ 128 ≤ m.data.length ∧ aKind m.data = 1 ∧ s.dev.sec.pending = some p ∧ p.digest ≠ aDigest m.data) ∧
    (∃ (m : HMsg) (s : State), s.dev.up = true ∧ s.dev.obeys m clsOPERATE .any 0 ∧ m.data.length < 128 ∧ s.dev.noListeners) ∧
    (∃ (m : HMsg) (s : State), s.dev.up = true ∧ s.dev.obeys m clsOPERATE .any 0 ∧ s.dev.noListeners ∧ 128 ≤ m.data.length ∧ aKind m.data = 2 ∧ aTarget m.data = s.dev.ownAddr ∧ s.dev.rst.active = [] ∧ s.dev.mode.role ≠ .banked) ∧
    (∃ (m : HMsg) (s : State), s.dev.up = true ∧ s.dev.obeys m clsOPERATE .any 0 ∧ 128 ≤ m.data.length ∧ m.data.length ≤ 1016 ∧ aKind m.data = 2 ∧ aTarget m.data ≠ s.dev.ownAddr ∧ s.dev.on RNG_ADDR_ENUM = true ∧ s.dev.inRack (aTarget m.data) = true) ∧
    (∃ (m : HMsg) (s : State), s.dev.up = true ∧ s.dev.obeys m clsOPERATE .any 0 ∧ 128 ≤ m.data.length ∧ aKind m.data = 2 ∧ aTarget m.data ≠ s.dev.ownAddr ∧ s.dev.inRack (aTarget m.data) = false) ∧
    (∃ (m : HMsg) (s : State), s.dev.up = true ∧ s.dev.obeys m clsSERVICE .any 0 ∧ m.data ≠ [] ∧ m.target.toNat + m.data.length ≤ stageTop ∧ s.dev.halted = false ∧ s.dev.mode.role = .service) ∧
    (∃ (m : HMsg) (s : State), s.dev.up = true ∧ s.dev.obeys m clsSERVICE .any 0 ∧ m.data ≠ [] ∧ m.target.toNat + m.data.length ≤ stageTop ∧ s.dev.mode.role ≠ .service) ∧
    (∃ (m : HMsg) (img : List Byte) (s : State), s.dev.up = true ∧ s.dev.obeys m clsSERVICE .any 0 ∧ s.dev.noListeners ∧ m.data.length = 32 ∧ s.dev.stagedImage = some img) ∧
    (∃ (m : HMsg) (s : State), s.dev.up = true ∧ s.dev.obeys m clsSERVICE .any 0 ∧ m.data.length = 32 ∧ s.dev.stagedImage = none) ∧
    (∃ (m : HMsg) (s : State), s.dev.up = true ∧ s.dev.obeys m 0 .any 8192 ∧ s.dev.noListeners ∧ m.data.length = 32 ∧ s.dev.on SEC_STAT_WK_READY = true ∧ s.dev.get SEC_LEAF_WK_USED + 64 < 32768) ∧
    (∃ (m : HMsg) (s : State), s.dev.up = true ∧ s.dev.obeys m 0 .any 0 ∧ m.data.length = 32 ∧ s.dev.on SEC_STAT_WK_READY = false) := ⟨
  ⟨hm 0 0 (ascii "AZAUTHZ1" ++ pack [(1, 1), (1, 1), (118, 0)]), st [hs], by decide +kernel⟩,
  ⟨hm 0 0 (ascii "AZAUTHZ1" ++ pack [(1, 1), (1, 1), (118, 0)]), ⟨[], [1], 1, 0⟩, st [hs, modSec fun x => { x with pending := some ⟨[], [1], 1, 0⟩ }], by decide +kernel⟩,
  ⟨hm 0 0 [1], st [hs], by decide +kernel⟩,
  ⟨hm 0 0 (ascii "AZAUTHZ1" ++ pack [(1, 2), (1, 1), (2, 0), (4, 67), (112, 0)]), st [hs, jb], by decide +kernel⟩,
  ⟨hm 0 0 (ascii "AZAUTHZ1" ++ pack [(1, 2), (1, 1), (2, 0), (4, 70), (112, 0)]), st [hs, jb], by decide +kernel⟩,
  ⟨hm 0 0 (ascii "AZAUTHZ1" ++ pack [(1, 2), (1, 1), (2, 0), (4, 7), (112, 0)]), st [hs, jb], by decide +kernel⟩,
  ⟨hm 0 64 [1, 2], st [hs 2], by decide +kernel⟩,
  ⟨hm 0 64 [1, 2], st [hs 2, jb], by decide +kernel⟩,
  ⟨hm 0 0 (List.replicate 32 7), ascii "AZFWIMG1" ++ List.replicate 8184 0, st [hs 2, modSec fun x => { x with stage := ⟨Store.putAll stageDflt [] 0 (ascii "AZFWIMG1"), [(0, 8192)]⟩ }], by decide +kernel⟩,
  ⟨hm 0 0 (List.replicate 32 7), st [hs 2], by decide +kernel⟩,
  ⟨hm 0 0 (List.replicate 32 7), st [hs 2, put SEC_STAT_WK_READY 1], by decide +kernel⟩,
  ⟨hm 0 0 (List.replicate 32 7), st [hs 2, put SEC_STAT_WK_READY 0], by decide +kernel⟩⟩

theorem witness_HostDatagramsAndAcknowledgements :
    (∃ (e : Ether) (n : Nat) (b : List Byte) (s : State), s.dev.up = true ∧ s.dev.on RNG_ADDR_ENUM = true ∧ s.dev.takesUdp e = true ∧ n < 16 ∧ s.dev.hState n ≠ hFREE ∧ s.dev.hNumber n ≠ 0 ∧ numAt b 0 4 = s.dev.hNumber n ∧ 84 ≤ b.length ∧ b.length ≤ 8276 ∧ (s.dev.host n).ctrIn < numAt b 8 8 ∧ numAt b 8 8 < 2 ^ 32 ∧ (s.dev.host n).ctrOut + 1 < 2 ^ 32 ∧ (s.dev.host n).heldSeqs = [] ∧ 16 ≤ (s.dev.host n).window) ∧
    (∃ (e : Ether) (n : Nat) (b : List Byte) (s : State), s.dev.up = true ∧ s.dev.on RNG_ADDR_ENUM = true ∧ s.dev.takesUdp e = true ∧ n < 16 ∧ s.dev.hState n ≠ hFREE ∧ s.dev.hNumber n ≠ 0 ∧ numAt b 0 4 = s.dev.hNumber n ∧ 84 ≤ b.length ∧ b.length ≤ 8276 ∧ numAt b 8 8 = (s.dev.host n).ctrIn) ∧
    (∃ (e : Ether) (b : List Byte) (s : State), s.dev.up = true ∧ s.dev.on RNG_ADDR_ENUM = true ∧ s.dev.takesUdp e = true ∧ numAt b 0 4 ≠ 0 ∧ (b.length < 84 ∨ 8276 < b.length ∨ s.dev.hState (numAt b 0 4 % 16) = hFREE ∨ s.dev.hNumber (numAt b 0 4 % 16) ≠ numAt b 0 4)) ∧
    (∃ (e : Ether) (b : List Byte) (s : State), s.dev.up = true ∧ s.dev.takesUdp e = false) ∧
    (∃ (e : Ether) (b : List Byte) (s : State), s.dev.up = true ∧ s.dev.on RNG_ADDR_ENUM = true ∧ s.dev.takesUdp e = true ∧ numAt b 0 4 = 0 ∧ 68 ≤ b.length ∧ b.length ≤ 8276 ∧ b.length = 68 + numAt b 40 2 ∧ numAt b (64 + numAt b 40 2) 4 ≠ crc32c ((b.drop 16).take (48 + numAt b 40 2))) ∧
    (∃ (n : Fin 16) (ack : W32) (s : State), s.dev.up = true ∧ s.dev.hState n.val = hOPEN ∧ (s.dev.host n.val).waiting = [] ∧ (s.dev.host n.val).events = []) ∧
    (∃ (n : Fin 16) (ack : W32) (p : OutPkt) (s : State), s.dev.up = true ∧ s.dev.hState n.val = hOPEN ∧ (s.dev.host n.val).waiting = [] ∧ (s.dev.host n.val).events = [] ∧ (s.dev.host n.val).unacked = [p] ∧ p.seq = (ack.toNat + 1) % 2 ^ 32 ∧ (s.dev.host n.val).ctrOut + 1 < 2 ^ 32 ∧ (∀ t, (s.dev.host n.val).lastResend = some t → t + s.dev.rtoTicks ≤ s.dev.clk)) ∧
    (∃ (n : Fin 16) (s : State), s.dev.up = true ∧ s.dev.hState n.val = hOPEN ∧ (s.dev.host n.val).sinceAck ≠ 0 ∧ (s.dev.host n.val).ctrOut + 1 < 2 ^ 32) ∧
    (∃ (n : Fin 16) (p : OutPkt) (ps : List OutPkt) (s : State), s.dev.up = true ∧ s.dev.hState n.val = hOPEN ∧ (s.dev.host n.val).unacked = p :: ps ∧ (s.dev.host n.val).retries < (s.dev.host n.val).retryMax ∧ (s.dev.host n.val).ctrOut + 1 < 2 ^ 32) ∧
    (∃ (n : Fin 16) (s : State), s.dev.up = true ∧ s.dev.hState n.val = hOPEN ∧ (s.dev.host n.val).unacked ≠ [] ∧ (s.dev.host n.val).retryMax ≤ (s.dev.host n.val).retries) := ⟨
  ⟨eth, 3, pack [(4, 19), (4, 0), (8, 5), (100, 0)], st [put HST_NET_IPV4 1, hs, jb, modHost 3 fun h => { h with opens := 1, ctrIn := 4 }], by decide +kernel⟩,
  ⟨eth, 3, pack [(4, 19), (4, 0), (8, 5), (100, 0)], st [put HST_NET_IPV4 1, hs, jb, modHost 3 fun h => { h with opens := 1, ctrIn := 5 }], by decide +kernel⟩,
  ⟨eth, pack [(4, 35), (4, 0), (8, 5), (100, 0)], st [put HST_NET_IPV4 1, hs, jb, modHost 3 fun h => { h with opens := 1, ctrIn := 5 }], by decide +kernel⟩,
  ⟨eth, [], st [jb], by decide +kernel⟩,
  ⟨eth, pack [(4, 0), (36, 0), (2, 8), (33, 0), (1, 1)], st [put HST_NET_IPV4 1, hs, jb], by decide +kernel⟩,
  ⟨3, 5, st [hs, modHost 3 fun h => { h with unacked := [pkt0, { pkt0 with seq := 6 }], retries := 3 }], by decide +kernel⟩,
  ⟨3, 4, pkt0, st [hs, modHost 3 fun h => { h with unacked := [pkt0] }], by decide +kernel⟩,
  ⟨3, st [hs, modHost 3 fun h => { h with sinceAck := 2 }], by decide +kernel⟩,
  ⟨3, pkt0, [], st [hs, modHost 3 fun h => { h with unacked := [pkt0] }], by decide +kernel⟩,
  ⟨3, st [hs, modHost 3 fun h => { h with unacked := [pkt0], retries := 16 }], by decide +kernel⟩⟩

theorem witness_HostSessionsOpenAndEnd :
    (∃ (e : Ether) (b : List Byte) (s : State), s.dev.up = true ∧ s.dev.on RNG_ADDR_ENUM = true ∧ s.dev.takesUdp e = true ∧ 48 ≤ b.length ∧ (∀ n < 16, s.dev.hState n = hFREE) ∧ s.dev.mode.fw = .run ∧ s.dev.identityLeft = true ∧ s.dev.on SEC_STAT_WK_READY = true ∧ numAt b 0 1 = 1) ∧
    (∃ (e : Ether) (b : List Byte) (n : Nat) (s : State), s.dev.up = true ∧ s.dev.on RNG_ADDR_ENUM = true ∧ s.dev.takesUdp e = true ∧ 48 ≤ b.length ∧ n < 16 ∧ s.dev.hState n ≠ hFREE ∧ (s.dev.host n).nonce = cut_ (b.drop 48) 4 32 ∧ (∀ k < n, s.dev.hState k = hFREE ∨ (s.dev.host k).nonce ≠ cut_ (b.drop 48) 4 32)) ∧
    (∃ (e : Ether) (b : List Byte) (s : State), s.dev.up = true ∧ s.dev.on RNG_ADDR_ENUM = true ∧ s.dev.takesUdp e = true ∧ 48 ≤ b.length ∧ (∀ n < 16, s.dev.hState n = hFREE) ∧ numAt b 0 1 ≠ 1) ∧
    (∃ (e : Ether) (b : List Byte) (s : State), s.dev.up = true ∧ s.dev.on RNG_ADDR_ENUM = true ∧ s.dev.takesUdp e = true ∧ 48 ≤ b.length ∧ (∀ n < 16, s.dev.hState n = hFREE ∨ (s.dev.host n).nonce ≠ cut_ (b.drop 48) 4 32) ∧ s.dev.mode.fw = .run ∧ numAt b 0 1 = 1 ∧ (s.dev.sessMax ≤ s.dev.hostSessions ∨ s.dev.on SEC_STAT_WK_READY = false)) ∧
    (∃ (n : Fin 16) (s : State), s.dev.up = true ∧ s.dev.hState n.val = hOPENING) ∧
    (∃ (n : Fin 16) (s : State), s.dev.up = true ∧ s.dev.hState n.val = hOPEN ∧ (s.dev.host n.val).idleS ≠ 0) ∧
    (∃ (n : Fin 16) (s : State), s.dev.up = true ∧ s.dev.hState n.val ≠ hOPENING) := ⟨
  ⟨eth, pack [(1, 1), (1, 1), (46, 0), (1, 1), (1, 1), (2, 0), (32, 99), (1400, 0)], st [put HST_NET_IPV4 1, jb, put SEC_STAT_WK_READY 1], by decide +kernel⟩,
  ⟨eth, pack [(1, 1), (1, 1), (46, 0), (1, 1), (1, 1), (2, 0), (32, 99), (1400, 0)], 3, st [put HST_NET_IPV4 1, hs, jb, modHost 3 fun h => { h with nonce := pack [(32, 99)], rsp := [1, 2, 3] }], by decide +kernel⟩,
  ⟨eth, pack [(1, 2), (1, 1), (46, 0), (1, 1), (1, 1), (2, 0), (32, 99), (1400, 0)], st [put HST_NET_IPV4 1, jb, put SEC_STAT_WK_READY 1], by decide +kernel⟩,
  ⟨eth, pack [(1, 1), (1, 1), (46, 0), (1, 1), (1, 1), (2, 0), (32, 99), (1400, 0)], st [put HST_NET_IPV4 1, jb, put SEC_STAT_WK_READY 0], by decide +kernel⟩,
  ⟨3, st [put (HST_SESS_STATE 3) 1], by decide +kernel⟩,
  ⟨3, st [hs], by decide +kernel⟩,
  ⟨3, st [hs], by decide +kernel⟩⟩

theorem witness_TheEthernetControlPlaneAnswers :
    (∃ (e : Ether) (vid : Option (BitVec 12)) (target : BitVec 128) (s : State), s.dev.up = true ∧ s.dev.vlanOk vid = true ∧ e.len ≤ 9216 ∧ e.whole = true ∧ s.dev.on HST_NET_IPV6 = true ∧ (target.toNat = linkLocal e.port ∨ (target ≠ 0 ∧ target = s.dev.word HST_IP6_HI_ADDR.addr ++ s.dev.word HST_IP6_LO_ADDR.addr))) ∧
    (∃ (e : Ether) (vid : Option (BitVec 12)) (target : W32) (s : State), s.dev.up = true ∧ s.dev.vlanOk vid = true ∧ e.len ≤ 9216 ∧ e.whole = true ∧ s.dev.on HST_NET_IPV4 = true ∧ target.toNat = s.dev.get HST_IP4_ADDR) ∧
    (∃ (e : Ether) (vid : Option (BitVec 12)) (target : BitVec 128) (data : List Byte) (s : State), s.dev.up = true ∧ s.dev.vlanOk vid = true ∧ e.len ≤ 9216 ∧ e.whole = true ∧ s.dev.on HST_NET_IPV6 = true ∧ (target.toNat = linkLocal e.port ∨ (target ≠ 0 ∧ target = s.dev.word HST_IP6_HI_ADDR.addr ++ s.dev.word HST_IP6_LO_ADDR.addr))) ∧
    (∃ (e : Ether) (vid : Option (BitVec 12)) (target : BitVec 128) (data : List Byte) (s : State), s.dev.up = true ∧ s.dev.vlanOk vid = true ∧ e.len ≤ 9216 ∧ e.whole = true ∧ s.dev.on HST_NET_IPV4 = true ∧ target.toNat = s.dev.get HST_IP4_ADDR) ∧
    (∃ (e : Ether) (vid : Option (BitVec 12)) (target : BitVec 128) (s : State), s.dev.up = true ∧ (9216 < e.len ∨ e.whole = false ∨ s.dev.vlanOk vid = false ∨ s.dev.on HST_NET_IPV6 = false)) ∧
    (∃ (e : Ether) (vid : Option (BitVec 12)) (target : W32) (s : State), s.dev.up = true ∧ (9216 < e.len ∨ e.whole = false ∨ s.dev.vlanOk vid = false ∨ s.dev.on HST_NET_IPV4 = false ∨ target.toNat ≠ s.dev.get HST_IP4_ADDR)) ∧
    (∃ (e : Ether) (vid : Option (BitVec 12)) (v6 : Bool) (target : BitVec 128) (data : List Byte) (s : State), s.dev.up = true ∧ (9216 < e.len ∨ e.whole = false ∨ s.dev.vlanOk vid = false)) := ⟨
  ⟨eth, none, 0x50000000000000006, st [put HST_NET_IPV6 1, put HST_IP6_HI_ADDR 5, put HST_IP6_LO_ADDR 6], by decide +kernel, by decide +kernel, by decide +kernel, by decide +kernel, by decide +kernel, Or.inr ⟨by decide +kernel, by decide +kernel⟩⟩,
  ⟨eth, none, 0x0A000002, st [put HST_NET_IPV4 1, put HST_IP4_ADDR 0x0A000002], by decide +kernel⟩,
  ⟨eth, none, 0x50000000000000006, [1, 2], st [put HST_NET_IPV6 1, put HST_IP6_HI_ADDR 5, put HST_IP6_LO_ADDR 6], by decide +kernel, by decide +kernel, by decide +kernel, by decide +kernel, by decide +kernel, Or.inr ⟨by decide +kernel, by decide +kernel⟩⟩,
  ⟨eth, none, 0x0A000002, [1, 2], st [put HST_NET_IPV4 1, put HST_IP4_ADDR 0x0A000002], by decide +kernel⟩,
  ⟨eth, some 9, 5, st [put HST_NET_IPV6 1], by decide +kernel⟩,
  ⟨eth, none, 0x0A000003, st [put HST_NET_IPV4 1, put HST_IP4_ADDR 0x0A000002], by decide +kernel⟩,
  ⟨eth, some 9, true, 5, [1], st [put HST_NET_IPV6 1], by decide +kernel⟩⟩

theorem witness_RegistersAreWrittenByTheirRules :
    (∃ (a : W64) (v : W64) (s : State), s.dev.up = true ∧ plainReg a.toNat ∧ touchesPK ctlRows a.toNat (s.dev.word a.toNat) v = false) ∧
    (∃ (a : W64) (v : W64) (s : State), s.dev.up = true ∧ plainReg a.toNat ∧ touchesPK ctlRows a.toNat (s.dev.word a.toNat) v = true) ∧
    (∃ (a : W64) (v : W64) (s : State), s.dev.up = true ∧ a.toNat % 8 ≠ 0) ∧
    (∃ (v : W64) (s : State), s.dev.up = true ∧ s.dev.epoch = 0) ∧
    (∃ (v : W64) (s : State), s.dev.up = true ∧ s.dev.epoch ≠ 0) ∧
    (∃ (a : W64) (v : W64) (s : State), s.dev.up = true ∧ a.toNat ∈ [0x80028, 0x80030, 0x80068] ∧ s.dev.epoch = 0) ∧
    (∃ (a : W64) (v : W64) (s : State), s.dev.up = true ∧ a.toNat ∈ [0x80028, 0x80030, 0x80068] ∧ s.dev.epoch ≠ 0) ∧
    (∃ (v : W64) (s : State), s.dev.up = true ∧ (HST_CFG_UDP_PORT.of v = s.dev.get HST_CFG_UDP_PORT ∨ s.dev.hostSessions = 0)) ∧
    (∃ (v : W64) (s : State), s.dev.up = true ∧ HST_CFG_UDP_PORT.of v ≠ s.dev.get HST_CFG_UDP_PORT ∧ s.dev.hostSessions ≠ 0) ∧
    (∃ (t : TileId) (a : W64) (v : W64) (s : State), s.dev.up = true ∧ a.toNat = 0x400000 + 0x4000 * t.val + 0x400 + a.toNat % 0x400 ∧ a.toNat % 0x400 < 0x100 ∧ a.toNat % 8 = 0 ∧ (s.dev.tile t.val).state ≠ tRUNNING) ∧
    (∃ (t : TileId) (a : W64) (v : W64) (s : State), s.dev.up = true ∧ a.toNat = 0x400000 + 0x4000 * t.val + 0x400 + a.toNat % 0x400 ∧ a.toNat % 0x400 < 0x1C0 ∧ a.toNat % 8 = 0 ∧ (s.dev.tile t.val).state = tRUNNING) := ⟨
  ⟨0x1F0010, 0x12345678, ⟨up0, []⟩, by decide +kernel⟩,
  ⟨0x20040, 0xFFFFFFFFFFFFFFFF, ⟨up0, []⟩, by decide +kernel⟩,
  ⟨4, 5, ⟨up0, []⟩, by decide +kernel⟩,
  ⟨5, ⟨up0, []⟩, by decide +kernel⟩,
  ⟨5, st [jb], by decide +kernel⟩,
  ⟨0x80030, 5, ⟨up0, []⟩, by decide +kernel⟩,
  ⟨0x80030, 5, st [jb], by decide +kernel⟩,
  ⟨0, ⟨up0, []⟩, by decide +kernel⟩,
  ⟨0, st [hs], by decide +kernel⟩,
  ⟨2, BitVec.ofNat 64 (0x400000 + 0x8000 + 0x410), 77, st [modTile 2 fun t => t.setS 3 5], by decide +kernel⟩,
  ⟨2, BitVec.ofNat 64 (0x400000 + 0x8000 + 0x410), 77, st [tl], by decide +kernel⟩⟩

theorem witness_UnassignedAddressesReadZero :
    (∃ (a : Nat) (d : Dev), d.ctlImplemented ∧ unoccupied a) ∧
    (∃ (a : Nat) (d : Dev), 0x7FFFFF < a) ∧
    (∃ (a : W64) (v : W64) (s : State), s.dev.up = true ∧ unoccupied a.toNat) ∧
    (∃ (a : W64) (v : W64) (s : State), s.dev.up = true ∧ 0x7FFFFF < a.toNat) ∧
    (∃ (m : HMsg) (s : State), s.dev.ctlImplemented ∧ s.dev.up = true ∧ s.dev.obeys m 0 .any 8 ∧ m.data = [] ∧ m.arg = 1 ∧ unoccupied m.target.toNat) ∧
    (∃ (m : HMsg) (s : State), s.dev.up = true ∧ s.dev.obeys m clsOPERATE .any 0 ∧ m.data.length = 8 ∧ unoccupied m.target.toNat) ∧
    (∃ (m : HMsg) (s : State), s.dev.up = true ∧ s.dev.obeys m clsOPERATE .any 0 ∧ m.data.length = 8 ∧ 0x7FFFFF < m.target.toNat) := ⟨
  ⟨0x3FFFF8, (st [hs]).dev, (by unfold Dev.ctlImplemented; decide +kernel), by decide +kernel⟩,
  ⟨0x800000, (st [hs]).dev, by decide +kernel⟩,
  ⟨0x3FFFF8, 5, ⟨up0, []⟩, by decide +kernel⟩,
  ⟨0x800000, 5, ⟨up0, []⟩, by decide +kernel⟩,
  ⟨hm 1 0x3FFFF8, st [hs], (by unfold Dev.ctlImplemented; decide +kernel), by decide +kernel, by decide +kernel, by decide +kernel, by decide +kernel, by decide +kernel⟩,
  ⟨hm 0 0x3FFFF8 (leBytes 8 5), st [hs], by decide +kernel⟩,
  ⟨hm 0 0x800000 (leBytes 8 5), st [hs], by decide +kernel⟩⟩

theorem witness_ScanAnswersByChainAndRange :
    (∃ (m : HMsg) (len : Nat) (s : State), s.dev.up = true ∧ s.dev.obeys m clsSERVICE .any (64 * argAt m 40 24) ∧ m.data = [] ∧ s.dev.halted = true ∧ chainLen (argAt m 0 16) = some len ∧ 64 * (argAt m 16 24 + argAt m 40 24) ≤ len) ∧
    (∃ (m : HMsg) (s : State), s.dev.up = true ∧ s.dev.obeys m clsSERVICE .any 0 ∧ m.data = [] ∧ chainLen (argAt m 0 16) = none) ∧
    (∃ (m : HMsg) (len : Nat) (s : State), s.dev.up = true ∧ s.dev.obeys m clsSERVICE .any 0 ∧ m.data = [] ∧ chainLen (argAt m 0 16) = some len ∧ len < 64 * (argAt m 16 24 + argAt m 40 24)) ∧
    (∃ (m : HMsg) (len : Nat) (s : State), s.dev.up = true ∧ s.dev.obeys m clsSERVICE .any 0 ∧ m.data = [] ∧ s.dev.halted = true ∧ chainLen (argAt m 0 16) = some len ∧ argAt m 40 24 = 0 ∧ 64 * argAt m 16 24 ≤ len) ∧
    (∃ (m : HMsg) (len : Nat) (s : State), s.dev.up = true ∧ s.dev.obeys m clsSERVICE .any 0 ∧ m.data = [] ∧ s.dev.halted = false ∧ chainLen (argAt m 0 16) = some len ∧ 64 * (argAt m 16 24 + argAt m 40 24) ≤ len) := ⟨
  ⟨hm (2 ^ 40), (chainLen 0).getD 0, st [hs 2, put TAL_HALT_HALTED 1], by decide +kernel⟩,
  ⟨hm 0xFFFF, st [hs 2], by decide +kernel⟩,
  ⟨hm (2 ^ 64 - 2 ^ 16), (chainLen 0).getD 0, st [hs 2], by decide +kernel⟩,
  ⟨hm 0, (chainLen 0).getD 0, st [hs 2, put TAL_HALT_HALTED 1], by decide +kernel⟩,
  ⟨hm (2 ^ 40), (chainLen 0).getD 0, st [hs 2], by decide +kernel⟩⟩

theorem witness_AnIdleBlockLetsAPeriodPass :
    (∃ (d : Dev), d.power.pwrok = true ∧ d.nothingDue ∧ (d.halted = true ∨ d.obs.frozen = []) ∧ d.hostReady = none ∧ (d.clk + 1) % ticksPerSecond ≠ 0) ∧
    (∃ (d : Dev), d.power.pwrok = true ∧ d.nothingDue ∧ (d.halted = true ∨ d.obs.frozen = []) ∧ d.hostReady = none ∧ (d.clk + 1) % ticksPerSecond = 0) ∧
    (∃ (d : Dev), d.power.pwrok = false ∧ (d.halted = true ∨ d.obs.frozen = []) ∧ d.hostReady = none) ∧
    (∃ (c : Instr) (cs : List Instr) (d : Dev), d.power.pwrok = false ∧ d.halted = false ∧ d.obs.frozen = c :: cs) ∧
    (∃ (n : Nat) (c : Instr) (rest : List Instr) (d : Dev), d.power.pwrok = false ∧ (d.halted = true ∨ d.obs.frozen = []) ∧ d.hostReady = some n ∧ (d.host n).deferred = c :: rest) := ⟨
  ⟨(st [.act (.clk 0)]).dev, by decide +kernel⟩,
  ⟨(st [.act (.clk 699999999)]).dev, by decide +kernel⟩,
  ⟨(st [modPower fun p => { p with pwrok := false }]).dev, by decide +kernel⟩,
  ⟨.lifeSave, [], (st [modPower (fun p => { p with pwrok := false }), modObs fun o => { o with frozen := [.lifeSave] }]).dev, by decide +kernel⟩,
  ⟨3, .lifeSave, [], (st [modPower (fun p => { p with pwrok := false }), modHost 3 fun h => { h with deferred := [.lifeSave] }]).dev, by decide +kernel⟩⟩

theorem witness_EveryStepKeepsTheInvariant : ∃ s : State, s.Inv :=
  ⟨st [jb], by unfold State.Inv; constructor <;> first | decide +kernel | (unfold Dev.ctlImplemented; decide +kernel)⟩

end Sys2Proof.Tests
end

/-! PROOFS. The write of an address that no register occupies (R12), and the refutation of O55: such a write clears what the block lists there. -/

namespace Sys2Proof.Machine

/-! ## A write where no register stands -/

/-- No field takes any bit of a write to an unassigned address. -/
theorem writtenWord_of_unassigned {t : List RegRow} {a : Nat} (h : fieldsAt t a = []) (old v : W64) : writtenWord t a old v = 0 := by
  simp [writtenWord, h]

/-- An unassigned address of a tile's block reads 0 while nothing is listed there. -/
theorem tileDflt_of_unassigned {off : Nat} (h : fieldsAt tileRows off = []) : tileDflt off = 0 := by
  simp [tileDflt, resetWord, h]

/-- An unassigned offset has no rule of its own, so that its write is a plain one. -/
theorem run_writeTile_of_unassigned {off : Nat} (h : fieldsAt tileRows off = []) (n : Nat) (v : W64) (d : Dev) :
    (writeTile n off v).run d = (writeTilePlain n off v).run d := by
  have ctrl : off ≠ 0x8 := fun e => absurd (e ▸ h) (by decide)
  have mxcfg : off ≠ 0x10 := fun e => absurd (e ▸ h) (by decide)
  have err : off ≠ 0x20 := fun e => absurd (e ▸ h) (by decide)
  have held : heldWhileRunning off = false := by simp [heldWhileRunning, h]
  simp [writeTile, ctrl, mxcfg, err, held]

/-- A write to an unassigned offset removes what the tile lists there: it is not ignored. -/
theorem tile_writeTile_of_unassigned {off : Nat} (h : fieldsAt tileRows off = []) (n : Nat) (v : W64) (d : Dev) :
    ((writeTile n off v).run d).tile n = { d.tile n with regs := Store.remove (d.tile n).regs off } := by
  rw [run_writeTile_of_unassigned h]
  simp [writeTilePlain, writtenWord_of_unassigned h, Store.put, tileDflt_of_unassigned h]

/-- The upper half of the control space is the tiles' blocks (Table 17.7). -/
theorem writeReg_of_tile {a : Nat} (aligned : a % 8 = 0) (low : 0x400000 ≤ a) (high : a ≤ 0x7FFFFF) (v : W64) :
    writeReg a v = writeTile ((a - 0x400000) / 0x4000) (a % 0x4000) v := by
  rw [writeReg, if_neg (by omega), if_pos low]

/-- Out of reset, the Ozmund's own register write is the write of the address space. -/
theorem exec_registerWrite_of_up {s : State} (hup : s.dev.up = true) (a v : W64) :
    exec (.registerWrite .ozmund a v) s = s.run (writeReg a.toNat v) := by
  show State.runUp _ s = _
  simp [State.runUp, State.run, hup]

/-- Where the frame of R12 holds for an address of a tile's block, the tile lists nothing there that the write could clear. -/
theorem unlisted_of_write_ignored {s : State} {a v : W64} {Q : Dev → Prop} (hup : s.dev.up = true) (ha : unoccupied a.toNat)
    (low : 0x400000 ≤ a.toNat) (h : Leads (only [.status]) (.registerWrite .ozmund a v) s Q) :
    Store.remove (s.dev.tile ((a.toNat - 0x400000) / 0x4000)).regs (a.toNat % 0x4000) =
      (s.dev.tile ((a.toNat - 0x400000) / 0x4000)).regs := by
  obtain ⟨aligned, high, -, free⟩ := ha
  obtain ⟨t, hexec, -, frame, -⟩ := h
  rw [exec_registerWrite_of_up hup, writeReg_of_tile aligned low high, State.run, Host.Outcome.next.injEq] at hexec
  subst hexec
  have same : ((writeTile _ _ v).run s.dev).tile _ = s.dev.tile _ := frame (.tile ((a.toNat - 0x400000) / 0x4000)) rfl
  rw [tile_writeTile_of_unassigned (free low)] at same
  exact congrArg Tile.regs same

/-! ## The counterexample -/

/-- A powered block whose tile 0 lists the value 1 at offset 0x38, between TLE_MXBUSY and TLE_VXFLAGS, where no register stands. -/
def strayState : State := ⟨{ power := { pwrok := true }, tiles := [(0, { regs := [(0x38, 1)] })] }, []⟩

/-- The invariant does not exclude it: it says nothing of the registers that a tile lists. -/
theorem strayState_inv : strayState.Inv where
  mem := Store.canonical_nil
  checks := Store.canonical_nil
  ctl := Store.canonical_nil
  ctlBits := fun _ he => nomatch he
  tiles := by decide
  savedTiles := Store.canonical_nil
  agents := Store.canonical_nil
  chans := Store.canonical_nil
  counters := Store.canonical_nil
  ports := Store.canonical_nil
  dseq := Store.canonical_nil
  peers := Store.canonical_nil
  hosts := Store.canonical_nil
  tallies := Store.canonical_nil
  slots := Store.canonical_nil
  watches := List.Pairwise.nil
  circ := List.Pairwise.nil
  mode := rfl

/-- Even on states of the invariant a write to an unassigned address may change more than the status. -/
theorem exists_inv_write_not_ignored : ∃ (a v : W64) (s : State), s.Inv ∧ s.dev.up = true ∧ unoccupied a.toNat ∧
    ∀ Q, ¬ Leads (only [.status]) (.registerWrite .ozmund a v) s Q := by
  have free : unoccupied (0x400038 : W64).toNat := by decide
  exact ⟨0x400038, 5, strayState, strayState_inv, rfl, free, fun Q h =>
    absurd (unlisted_of_write_ignored (s := strayState) rfl free (by decide) h) (by decide)⟩

/-- Refutes O55: its third clause asks that a write to an unassigned address leave every register alone, with no hypothesis that nothing is
listed there. Tile 0 lists 1 at offset 0x38 (`strayState`); the write of 5 to 0x40_0038 removes that entry, so the tile is not as it was. -/
theorem not_unassignedAddressesReadZero : ¬ Obligations.UnassignedAddressesReadZero := by
  rintro ⟨-, -, write_ignored, -⟩
  obtain ⟨a, v, s, -, hup, free, not_ignored⟩ := exists_inv_write_not_ignored
  exact not_ignored _ (write_ignored a v s hup free)

end Sys2Proof.Machine

/-! PROOFS. A host's command that passes or fails its checks and the datagrams of its answer (R327 to R332), the length of a scan and what it
reads (R413), and O56: SCAN answers by chain and range. -/

namespace Sys2Proof.Machine

/-! ## The datagrams of a session that has room -/

@[simp] theorem host_apply_host_same (n : Nat) (h : HSess) (d : Dev) : ((Eff.host n h).apply d).host n = h := Store.get_put_same ..

/-- The parts that a datagram of session `n` changes. -/
def sessionParts (n : Nat) : Part → Bool := only [.host n, .tally 1473, .out]

/-- What a session's datagrams take from it beside the CTR: its openings, its key and salt, the host's address and port (R317, R321). -/
def HSess.line (h : HSess) : Nat × List Byte × List Byte × Nat × Nat := (h.opens, h.keyOut, h.saltOut, h.srcAddr, h.srcPort)

/-- Session `n` would send the same from both blocks, with CTRs that are `k` further on in the second. -/
structure SendsAlike (d e : Dev) (n k : Nat) : Prop where
  get : ∀ f, e.get f = d.get f
  ctr : (e.host n).ctrOut = (d.host n).ctrOut + k
  line : (e.host n).line = (d.host n).line

theorem SendsAlike.sealed {d e : Dev} {n k : Nat} (h : SendsAlike d e n k) (ctr ack : Nat) (p : OutPkt) :
    e.sealed n ctr ack p = d.sealed n ctr ack p := by
  have opens : (e.host n).opens = (d.host n).opens := congrArg (·.1) h.line
  have key : (e.host n).keyOut = (d.host n).keyOut := congrArg (·.2.1) h.line
  have salt : (e.host n).saltOut = (d.host n).saltOut := congrArg (·.2.2.1) h.line
  simp only [Dev.sealed, opens, key, salt]

theorem SendsAlike.datagram {d e : Dev} {n k : Nat} (h : SendsAlike d e n k) (i : Nat) (p : OutPkt) :
    e.datagram n i p = d.datagram n (k + i) p := by
  have ctr : (e.host n).ctrOut + 1 + i = (d.host n).ctrOut + 1 + (k + i) := by
    rw [h.ctr, Nat.add_right_comm _ k 1, Nat.add_assoc]
  have addr : (e.host n).srcAddr = (d.host n).srcAddr := congrArg (·.2.2.2.1) h.line
  have port : (e.host n).srcPort = (d.host n).srcPort := congrArg (·.2.2.2.2) h.line
  have tag : e.vlanTag = d.vlanTag := by simp only [Dev.vlanTag, h.get]
  rw [Dev.datagram, Dev.datagram, ctr, tag, h.sealed, addr, port, h.get (HST_SESS_SEQ_IN n), h.get (HST_SESS_PORT n)]

/-- A datagram leaves with the session's next CTR. -/
theorem run_sendDatagram (n : Nat) (p : OutPkt) (d : Dev) :
    (sendDatagram n p).run d = (Eff.emit (d.datagram n 0 p)).apply
      ((tally 1473 1).run ((modHost n fun h => { h with ctrOut := h.ctrOut + 1, sinceAck := 0 }).run d)) := rfl

/-- The packet in front of those that wait becomes one that is sent, and `ps` wait still. -/
def HSess.taken (h : HSess) (p : OutPkt) (ps : List OutPkt) : HSess := { h with waiting := ps, unacked := h.unacked ++ [p] }

/-- A packet from the front of the queue leaves as a datagram, and `ps` wait still. -/
def sendNext (n : Nat) (p : OutPkt) (ps : List OutPkt) : Prog := .seq (modHost n (·.taken p ps)) (sendDatagram n p)

theorem within_sendNext (n : Nat) (p : OutPkt) (ps : List OutPkt) (d : Dev) : (sendNext n p ps).within (sessionParts n) d := by
  have host : sessionParts n (.host n) = true := by simp [sessionParts, only]
  simp only [sendNext, sendDatagram, within_seq, within_look, within_cons, within_modHost, within_tally, within_send, within_nil, host, and_true,
    true_and]
  exact ⟨rfl, rfl⟩

theorem host_sendNext (n : Nat) (p : OutPkt) (ps : List OutPkt) (d : Dev) :
    ((sendNext n p ps).run d).host n = { (d.host n).taken p ps with ctrOut := (d.host n).ctrOut + 1, sinceAck := 0 } := by
  simp only [sendNext, run_seq, run_sendDatagram, run_modHost, run_tally, host_apply_emit, host_apply_tally, host_apply_host_same, HSess.taken]

/-- The datagram of the packet is what leaves. -/
theorem out_sendNext (n : Nat) (p : OutPkt) (ps : List OutPkt) (d : Dev) : ((sendNext n p ps).run d).out = d.out ++ [d.datagram n 0 p] := by
  have host := host_apply_host_same n ((d.host n).taken p ps) d
  have same : SendsAlike d ((Eff.host n ((d.host n).taken p ps)).apply d) n 0 :=
    ⟨fun _ => rfl, by rw [host]; rfl, by rw [host]; rfl⟩
  simp only [sendNext, run_seq, run_sendDatagram, run_modHost, run_tally, apply_emit_out, apply_tally_out, apply_host_out, same.datagram,
    Nat.add_zero]

/-- What leaves after it carries the CTRs that follow. -/
theorem datagram_sendNext (n i : Nat) (p q : OutPkt) (ps : List OutPkt) (d : Dev) :
    ((sendNext n p ps).run d).datagram n i q = d.datagram n (i + 1) q := by
  have get : ∀ f, ((sendNext n p ps).run d).get f = d.get f := fun f =>
    congrArg f.of (Prog.within_alike _ (within_sendNext n p ps d) (.reg f.addr) (by simp [sessionParts, only]))
  have host := host_sendNext n p ps d
  have same : SendsAlike d ((sendNext n p ps).run d) n 1 := ⟨get, by rw [host], by rw [host]; rfl⟩
  rw [same.datagram, Nat.add_comm]

/-- A session with room in its window, and with CTRs left, sends the packet in front (R321, R327). -/
theorem run_pumpSession_cons {n : Nat} {p : OutPkt} {ps : List OutPkt} {d : Dev} (hwait : (d.host n).waiting = p :: ps)
    (room : (d.host n).unacked.length < (d.host n).window) (ctr : (d.host n).ctrOut + 1 < 2 ^ 32) (fuel : Nat) :
    (pumpSession n (fuel + 1)).run d = (pumpSession n fuel).run ((sendNext n p ps).run d) := by
  have last : ¬ 2 ^ 32 ≤ (((modHost n (·.taken p ps)).run d).host n).ctrOut + 1 := by
    simp only [run_modHost, host_apply_host_same, HSess.taken]
    omega
  simp only [pumpSession, run_look, if_neg (Nat.not_le.mpr room), hwait, run_all_cons, run_all_nil, sendPkt, sendNext, run_seq]
  rw [show (fun h : HSess => { h with waiting := ps, unacked := h.unacked ++ [p] }) = (·.taken p ps) from rfl, if_neg last]

/-- From `d`, session `n` has sent the packets `ps` and nothing else has happened. -/
def Dev.hasSent (d e : Dev) (n : Nat) (ps : List OutPkt) : Prop :=
  (∀ p, sessionParts n p = false → d.alike e p) ∧ e.out = d.out ++ ps.zipIdx.map fun x => d.datagram n x.2 x.1

theorem hasSent_cons {n : Nat} {p : OutPkt} {ps qs : List OutPkt} {d e : Dev} (h : ((sendNext n p qs).run d).hasSent e n ps) :
    d.hasSent e n (p :: ps) := by
  obtain ⟨frame, sent⟩ := h
  refine ⟨fun x hx => Dev.alike_trans (Prog.within_alike _ (within_sendNext n p qs d) x hx) (frame x hx), ?_⟩
  simp [sent, out_sendNext, datagram_sendNext, List.zipIdx_succ]

/-- With room for all that waits, pumping a session sends just that, in order. -/
theorem hasSent_pumpSession {n : Nat} (ps : List OutPkt) : ∀ {d : Dev}, (d.host n).waiting = ps →
    (d.host n).unacked.length + ps.length ≤ (d.host n).window → (d.host n).ctrOut + ps.length < 2 ^ 32 →
    d.hasSent ((pumpSession n ps.length).run d) n ps := by
  induction ps with
  | nil => exact fun _ _ _ => ⟨fun p _ => by cases p <;> rfl, by simp [pumpSession]⟩
  | cons p ps ih =>
    intro d hwait room ctr
    rw [List.length_cons] at room ctr ⊢
    rw [run_pumpSession_cons hwait (by omega) (by omega)]
    refine hasSent_cons (ih ?_ ?_ ?_) <;> simp only [host_sendNext, HSess.taken, List.length_append, List.length_singleton] <;> omega

/-! ## Answers -/

theorem length_answerPkts (seq epoch target st ref arg total : Nat) (cs : List (List Byte)) :
    ∀ i, (answerPkts seq epoch target st ref arg total i cs).length = cs.length := by
  induction cs with
  | nil => exact fun _ => rfl
  | cons c cs ih => exact fun i => congrArg (· + 1) (ih (i + 1))

/-- Pieces of 8,192 bytes are no more than the bytes need. -/
theorem length_chunks_le (fuel : Nat) : ∀ bs, (chunks 8192 fuel bs).length ≤ (bs.length + 8191) / 8192 := by
  induction fuel with
  | zero => exact fun _ => Nat.zero_le _
  | succ fuel ih =>
    intro bs
    cases bs with
    | nil => exact Nat.zero_le _
    | cons b bs =>
      have rest := ih ((b :: bs).drop 8192)
      rw [List.length_drop, List.length_cons] at rest
      simp only [chunks, List.isEmpty_cons, Bool.false_eq_true, if_false, List.length_cons]
      omega

/-- An answer takes no more packets than R329 gives it. -/
theorem length_respPackets_le (d : Dev) (m : HMsg) (st arg : Nat) (data : List Byte) :
    (d.respPackets m st arg data).length ≤ packetsOf data.length := by
  have pieces := Nat.le_trans (List.length_filter_le (fun c => !c.isEmpty) _) (length_chunks_le data.length data)
  rw [Dev.respPackets, length_answerPkts, packetsOf]
  split
  · exact Nat.le_max_left ..
  · exact Nat.le_trans pieces (Nat.le_max_right ..)

/-- The packets of an answer join those that wait. -/
def HSess.queue (h : HSess) (ps : List OutPkt) : HSess := { h with seqOut := (h.seqOut + ps.length) % 2 ^ 32, waiting := h.waiting ++ ps }

/-- The block once packets are queued on session `n`. -/
def Dev.withQueued (d : Dev) (n : Nat) (ps : List OutPkt) : Dev := (modHost n (·.queue ps)).run d

theorem host_withQueued (d : Dev) (n : Nat) (ps : List OutPkt) : (d.withQueued n ps).host n = (d.host n).queue ps := host_apply_host_same ..

theorem out_withQueued (d : Dev) (n : Nat) (ps : List OutPkt) : (d.withQueued n ps).out = d.out := rfl

theorem alike_withQueued (d : Dev) (n : Nat) (ps : List OutPkt) {p : Part} (hp : sessionParts n p = false) : d.alike (d.withQueued n ps) p :=
  Prog.within_alike (w := sessionParts n) (modHost n (·.queue ps)) ((within_modHost ..).mpr (by simp [sessionParts, only])) p hp

theorem sendsAlike_withQueued (d : Dev) (n : Nat) (ps : List OutPkt) : SendsAlike d (d.withQueued n ps) n 0 :=
  ⟨fun _ => rfl, by rw [host_withQueued]; rfl, by rw [host_withQueued]; rfl⟩

/-- Packets queued on a session that has nothing else to send, and room for them, leave at once. -/
theorem hasSent_pump_withQueued {n : Nat} {d : Dev} {ps : List OutPkt} (hwait : (d.host n).waiting = []) (hevents : (d.host n).events = [])
    (room : (d.host n).unacked.length + ps.length ≤ (d.host n).window) (ctr : (d.host n).ctrOut + ps.length < 2 ^ 32) :
    d.hasSent ((pump n).run (d.withQueued n ps)) n ps := by
  have waits : ((d.withQueued n ps).host n).waiting = ps := by rw [host_withQueued, HSess.queue, hwait, List.nil_append]
  have idle : ((d.withQueued n ps).host n).events = [] := by rw [host_withQueued, HSess.queue, hevents]
  have fuel : (pump n).run (d.withQueued n ps) = (pumpSession n ps.length).run (d.withQueued n ps) := by
    rw [pump, run_look, waits, idle, List.length_nil, Nat.add_zero]
  obtain ⟨frame, sent⟩ := hasSent_pumpSession ps waits (by rw [host_withQueued]; exact room) (by rw [host_withQueued]; exact ctr)
  rw [fuel]
  refine ⟨fun x hx => Dev.alike_trans (alike_withQueued d n ps hx) (frame x hx), ?_⟩
  simp only [sent, out_withQueued, (sendsAlike_withQueued d n ps).datagram, Nat.zero_add]

/-- An answer to an open session, without data unless it is OK, is queued and sent (R329, R332). -/
theorem run_reply {d : Dev} {m : HMsg} {st : Nat} {data : List Byte} (hopen : d.hState m.slot.val = hOPEN) (plain : st = stOK ∨ data = [])
    (arg : Nat) : (reply m st arg data).run d = (pump m.slot.val).run (d.withQueued m.slot.val (d.respPackets m st arg data)) := by
  have whole : ¬(st ≠ stOK ∧ (!data.isEmpty) = true) := by
    rintro ⟨hst, hdata⟩
    rcases plain with rfl | rfl
    · exact hst rfl
    · exact absurd hdata (by decide)
  have hstate : ¬ d.get (HST_SESS_STATE m.slot.val) ≠ 2 := fun closed => closed hopen
  simp only [reply, answer, run_look, if_neg hstate, if_neg whole]
  rfl

/-- A session whose turn it is sends the whole answer at once. -/
theorem hasSent_reply {d : Dev} {m : HMsg} {st : Nat} {data : List Byte} (turn : d.hostTurn m.slot.val data.length)
    (plain : st = stOK ∨ data = []) (arg : Nat) : d.hasSent ((reply m st arg data).run d) m.slot.val (d.respPackets m st arg data) := by
  obtain ⟨hopen, hwait, -, hevents, room, ctr⟩ := turn
  have few := length_respPackets_le d m st arg data
  rw [run_reply hopen plain]
  exact hasSent_pump_withQueued hwait hevents (by omega) (by omega)

/-! ## Commands of the Setout protocol -/

/-- A check that does not fail adds no cause. -/
theorem firstCause_append_false (cs : List (Bool × Nat)) (st : Nat) : firstCause (cs ++ [(false, st)]) = firstCause cs := by
  induction cs with
  | nil => rfl
  | cons c cs ih => simp only [List.cons_append, firstCause, ih]

/-- Of a command that passes the checks that all have, the type's own decide (R331). -/
theorem hostFails_of_obeys {d : Dev} {m : HMsg} {cls : Nat} {rule : EpochRule} {len : Nat} (h : d.obeys m cls rule len) (recov close : Bool)
    (own : List (Bool × Nat)) : d.hostFails m cls rule recov close own = firstCause own := by
  obtain ⟨-, hcls, hepoch, hfence, hver, hfw⟩ := h
  have cls_ok : decide (d.get (HST_SESS_CLASS m.slot.val) < cls) = false := decide_eq_false (by omega)
  have fw_ok : decide (d.mode.fw = .recovery) = false := decide_eq_false hfw
  simp only [Dev.hostFails, List.cons_append, List.nil_append, firstCause, cls_ok, hepoch, hfence, hver, fw_ok,
    Bool.not_true, Bool.false_and, ne_eq, not_true_eq_false, decide_false, Bool.false_eq_true, if_false, firstCause_append_false]

/-- A command out of reset. -/
theorem runUp_of_up {s : State} (hup : s.dev.up = true) (p : Prog) : s.runUp p = s.run p := by
  simp [State.runUp, State.run, hup]

section
variable {c : Instr} {m : HMsg} {cls : Dev → Nat} {rule : EpochRule} {recov close : Bool} {own : Dev → List (Bool × Nat)} {k : Prog}
variable {d : Dev} {len : Nat}

/-- A command that fails a check is counted and answered with the first that it fails. -/
theorem run_hostCmd_of_cause {st : Nat} (h : d.obeys m (cls d) rule len) (cause : firstCause (own d) = some st) :
    (hostCmd c m cls rule recov close own k).run d = (Prog.seq (tally 1478 1) (reply m st 0)).run d := by
  have fails := hostFails_of_obeys h recov close (own d)
  obtain ⟨⟨hopen, hwait, hdefer, -⟩, -⟩ := h
  simp only [hostCmd, run_look, hopen, decide_true, run_when_true, Dev.hostStuck, hwait, hdefer, fails, cause, List.isEmpty_nil, Bool.not_true,
    Bool.or_self, Bool.false_eq_true, if_false]

/-- A command that passes is counted and executed. -/
theorem run_hostCmd_of_passes (h : d.obeys m (cls d) rule len) (passes : firstCause (own d) = none) :
    (hostCmd c m cls rule recov close own k).run d = (Prog.seq (tally 1478 1) k).run d := by
  have fails := hostFails_of_obeys h recov close (own d)
  obtain ⟨⟨hopen, hwait, hdefer, -⟩, -⟩ := h
  simp only [hostCmd, run_look, hopen, decide_true, run_when_true, Dev.hostStuck, hwait, hdefer, fails, passes, List.isEmpty_nil, Bool.not_true,
    Bool.or_self, Bool.false_eq_true, if_false]
end

/-- A command that is counted and answered changes its session, the two counts and what has been sent, and has sent the answer alone. -/
theorem leads_reply {c : Instr} {s : State} {m : HMsg} {st arg : Nat} {data : List Byte}
    (hexec : exec c s = s.run (.seq (tally 1478 1) (reply m st arg data))) (turn : s.dev.hostTurn m.slot.val data.length)
    (plain : st = stOK ∨ data = []) : Leads (hostParts m []) c s fun d => s.dev.replied d m st arg data := by
  obtain ⟨frame, sent⟩ := hasSent_reply (d := (tally 1478 1).run s.dev) turn plain arg
  refine ⟨_, hexec, rfl, fun p hp => ?_, sent⟩
  simp only [hostParts, only, List.append_nil, decide_eq_false_iff_not, List.mem_cons, List.not_mem_nil, or_false, not_or] at hp
  obtain ⟨host, count, sends, out⟩ := hp
  have counted : s.dev.alike ((tally 1478 1).run s.dev) p := Prog.within_alike (w := only [.tally 1478]) _ (by simp [only]) p (by simp [only, count])
  exact Dev.alike_trans counted (frame p (by simp [sessionParts, only, host, sends, out]))

/-! ## What a scan reads -/

/-- A program that leaves the event counters alone and does not read them: it does the same before and after any of them is written. -/
structure Prog.PassesTally (p : Prog) : Prop where
  run : ∀ n v d, p.run ((Eff.tally n v).apply d) = (Eff.tally n v).apply (p.run d)

theorem passesTally_nil : (all []).PassesTally := ⟨fun _ _ _ => rfl⟩

theorem passesTally_seq {p q : Prog} (hp : p.PassesTally) (hq : q.PassesTally) : (Prog.seq p q).PassesTally := ⟨fun n v d => by
  rw [run_seq, run_seq, hp.run, hq.run]⟩

theorem passesTally_cons {p : Prog} {ps : List Prog} (hp : p.PassesTally) (hps : (all ps).PassesTally) : (all (p :: ps)).PassesTally :=
  passesTally_seq hp hps

theorem passesTally_each {α : Type} {f : α → Prog} (h : ∀ x, (f x).PassesTally) (xs : List α) : (each xs f).PassesTally := by
  induction xs with
  | nil => exact passesTally_nil
  | cons x xs ih => exact passesTally_cons (h x) ih

/-- Of a look, the program that it chooses must not depend on the counters. -/
theorem passesTally_look {f : Dev → Prog} (same : ∀ n v d, f ((Eff.tally n v).apply d) = f d) (h : ∀ d, (f d).PassesTally) :
    (Prog.look f).PassesTally := ⟨fun n v d => by
  rw [run_look, run_look, same, (h d).run]⟩

theorem passesTally_mem (a : Nat) (bs : List Byte) : (Prog.act (.mem a bs)).PassesTally := ⟨fun _ _ _ => rfl⟩
theorem passesTally_memClear (a n : Nat) : (Prog.act (.memClear a n)).PassesTally := ⟨fun _ _ _ => rfl⟩
theorem passesTally_check (b : Nat) (v : W64) : (Prog.act (.check b v)).PassesTally := ⟨fun _ _ _ => rfl⟩
theorem passesTally_checkClear (b n : Nat) : (Prog.act (.checkClear b n)).PassesTally := ⟨fun _ _ _ => rfl⟩

theorem passesTally_reCheck (b : Nat) : (reCheck b).PassesTally :=
  passesTally_look (fun _ _ _ => rfl) fun _ => passesTally_check ..

theorem passesTally_zeroPhys (a n : Nat) : (zeroPhys a n).PassesTally :=
  passesTally_cons (passesTally_memClear ..) (passesTally_cons (passesTally_checkClear ..) passesTally_nil)

theorem passesTally_writeCheckByte (a : Nat) (b : Byte) : (writeCheckByte a b).PassesTally := by
  refine passesTally_look (fun _ _ _ => rfl) fun d => ?_
  dsimp only
  split
  · exact passesTally_check ..
  · exact passesTally_nil

theorem passesTally_writePhys (a : Nat) (bs : List Byte) : (writePhys a bs).PassesTally := by
  refine passesTally_look (fun _ _ _ => rfl) fun d => ?_
  have checked := passesTally_cons (passesTally_mem a bs) (passesTally_cons (passesTally_each passesTally_reCheck (blocksOf a bs.length)) passesTally_nil)
  split
  · exact checked
  · exact checked
  · exact passesTally_mem a bs
  · exact passesTally_each (fun _ => passesTally_writeCheckByte ..) _
  · exact passesTally_each (fun _ => passesTally_writeCheckByte ..) _
  · exact passesTally_nil

/-- A dump holds no event counter. -/
theorem passesTally_dumpTo (base q flags first count : Nat) (closed : List OpenEntry) : (dumpTo base q flags first count closed).PassesTally :=
  passesTally_look (fun _ _ _ => rfl) fun _ =>
    passesTally_cons (passesTally_zeroPhys ..) <| passesTally_cons (passesTally_writePhys ..) <| passesTally_cons (passesTally_writePhys ..) <|
    passesTally_cons (passesTally_writePhys ..) <| passesTally_cons (passesTally_each (fun _ => passesTally_writePhys ..) _) <|
    passesTally_cons (passesTally_writePhys ..) <| passesTally_cons (passesTally_each (fun _ => passesTally_writePhys ..) _) <|
    passesTally_cons (passesTally_writePhys ..) passesTally_nil

theorem bytes_apply_tally (n a k : Nat) (v : W64) (d : Dev) : ((Eff.tally n v).apply d).bytes a k = d.bytes a k := rfl

theorem syncScan_apply_tally (n : Nat) (v : W64) (d : Dev) : ((Eff.tally n v).apply d).syncScan = d.syncScan := by
  unfold Dev.syncScan
  rw [get_apply_tally, (passesTally_dumpTo ..).run, bytes_apply_tally]

/-- No scan chain holds an event counter: that the command is counted does not show in it. -/
theorem scan_apply_tally (n c off len : Nat) (v : W64) (d : Dev) : ((Eff.tally n v).apply d).scan c off len = d.scan c off len := by
  rw [Dev.scan, Dev.scan, syncScan_apply_tally]
  rfl

theorem length_leBytes (n : Nat) : ∀ v, (leBytes n v).length = n := by
  induction n with
  | zero => exact fun _ => rfl
  | succ n ih => exact fun v => congrArg (· + 1) (ih (v / 256))

/-- Parts of one length: as many times that length as there are parts. -/
theorem length_flatMap_of_const {α β : Type} {f : α → List β} {k : Nat} (h : ∀ x, (f x).length = k) (xs : List α) :
    (xs.flatMap f).length = k * xs.length := by
  induction xs with
  | nil => rfl
  | cons x xs ih => rw [List.flatMap_cons, List.length_append, h, ih, List.length_cons, Nat.mul_succ, Nat.add_comm]

theorem length_wordBytes (w n : Nat) (f : Nat → Nat) : (wordBytes w n f).length = w * n := by
  rw [wordBytes, ← List.flatMap_def, length_flatMap_of_const (fun _ => length_leBytes ..), List.length_range]

/-- The image of a tile up to TLE_WAITLIM (Table 9.14). -/
theorem length_imageBytes (t : Tile) : (imageBytes t).length = 169208 := by
  simp only [imageBytes, List.length_append, length_wordBytes, List.length_map, List.length_range, List.length_replicate]

theorem length_internal (d : Dev) (c off n : Nat) : (d.internal c off n).length = n := by
  simp only [Dev.internal, List.length_take, List.length_append, List.length_replicate]
  omega

theorem length_chanScan (d : Dev) (n : Nat) : (d.chanScan n).length = 4096 := by
  rw [Dev.chanScan, List.length_append, length_flatMap_of_const (fun _ => length_leBytes ..), length_internal]
  rfl

theorem length_bytes (d : Dev) (a n : Nat) : (d.bytes a n).length = n := Store.length_getAll ..

theorem length_syncScan (d : Dev) : d.syncScan.length = 1069120 := by
  rw [Dev.syncScan, List.length_append, List.length_replicate, length_bytes]

/-- Within its chain, a scan gives as many bytes as it asks for. -/
theorem length_scan {c len : Nat} (hlen : chainLen c = some len) {off n : Nat} (within : off + n ≤ len) (d : Dev) : (d.scan c off n).length = n := by
  unfold chainLen at hlen
  unfold Dev.scan
  by_cases tile : c < 0x100
  · rw [if_pos tile, Option.some.injEq] at hlen
    simp only [if_pos tile, List.length_append, length_bytes, List.length_take, List.length_drop, length_imageBytes, length_internal]
    omega
  by_cases sync : c = 0x100
  · rw [if_neg tile, if_pos sync, Option.some.injEq] at hlen
    rw [if_neg tile, if_pos sync, List.length_take, List.length_drop, length_syncScan]
    omega
  by_cases chan : c ≤ 0x140
  · rw [if_neg tile, if_neg sync, if_pos chan, Option.some.injEq] at hlen
    rw [if_neg tile, if_neg sync, if_pos chan, List.length_take, List.length_drop, length_chanScan]
    omega
  · rw [if_neg tile, if_neg sync, if_neg chan, length_internal]

/-! ## SCAN (R413) -/

/-- The checks of SCAN beside those that every command has: the chain, the data, the range, and the halt. -/
def scanChecks (m : HMsg) (d : Dev) : List (Bool × Nat) :=
  [((chainLen (argAt m 0 16)).isNone, stUNSUPPORTED), noData m,
    (decide ((chainLen (argAt m 0 16)).getD 0 < 64 * (argAt m 16 24 + argAt m 40 24)), stLENGTH), (!d.halted, stBUSY)]

/-- The bits that SCAN asks for (R413). -/
def Dev.scanned (d : Dev) (m : HMsg) : List Byte := d.scan (argAt m 0 16) (64 * argAt m 16 24) (64 * argAt m 40 24)

/-- SCAN is a command of class SERVICE and of any epoch, with these checks and that answer (Table 12.5). -/
theorem exec_scan (m : HMsg) (s : State) :
    exec (.scan m) s = s.runUp (hostCmd (.scan m) m (fun _ => clsSERVICE) .any false false (scanChecks m)
      (.look fun d => reply m stOK (d.scanned m).length (d.scanned m))) := rfl

theorem scanned_tally (n k : Nat) (m : HMsg) (d : Dev) : ((tally n k).run d).scanned m = d.scanned m := scan_apply_tally ..

section
variable {m : HMsg} {s : State} {len : Nat}

/-- SCAN that fails one of its own checks is answered with the first that it fails. -/
theorem leads_scan_of_cause {st : Nat} (hup : s.dev.up = true) (obeys : s.dev.obeys m clsSERVICE .any 0)
    (cause : firstCause (scanChecks m s.dev) = some st) : Leads (hostParts m []) (.scan m) s fun d => s.dev.replied d m st 0 := by
  refine leads_reply (data := []) ?_ obeys.1 (.inr rfl)
  rw [exec_scan, runUp_of_up hup, State.run, run_hostCmd_of_cause obeys cause, State.run]

/-- SCAN that passes its checks is answered with the bits it asks for. -/
theorem leads_scan_of_passes (hup : s.dev.up = true) (obeys : s.dev.obeys m clsSERVICE .any (s.dev.scanned m).length)
    (passes : firstCause (scanChecks m s.dev) = none) :
    Leads (hostParts m []) (.scan m) s fun d => s.dev.replied d m stOK (s.dev.scanned m).length (s.dev.scanned m) := by
  refine leads_reply ?_ obeys.1 (.inl rfl)
  rw [exec_scan, runUp_of_up hup, State.run, run_hostCmd_of_passes obeys passes, State.run, run_seq, run_seq, run_look, scanned_tally]

/-- Of a chain that is reserved, nothing else is looked at. -/
theorem scanChecks_of_reserved (reserved : chainLen (argAt m 0 16) = none) (d : Dev) : firstCause (scanChecks m d) = some stUNSUPPORTED := by
  simp [scanChecks, firstCause, reserved]

section
variable (chain : chainLen (argAt m 0 16) = some len) (empty : m.data = [])
include chain empty

theorem scanChecks_of_beyond (beyond : len < 64 * (argAt m 16 24 + argAt m 40 24)) (d : Dev) : firstCause (scanChecks m d) = some stLENGTH := by
  simp [scanChecks, firstCause, noData, chain, empty, beyond]

/-- Of a range within its chain, the halt decides. -/
theorem scanChecks_of_within (within : 64 * (argAt m 16 24 + argAt m 40 24) ≤ len) (d : Dev) :
    firstCause (scanChecks m d) = if d.halted then none else some stBUSY := by
  have fits : ¬ len < 64 * (argAt m 16 24 + argAt m 40 24) := Nat.not_lt.mpr within
  cases halted : d.halted <;> simp [scanChecks, firstCause, noData, chain, empty, fits, halted]

/-- During a halt, SCAN answers as many bits as it asks for. -/
theorem leads_scan_of_halted (hup : s.dev.up = true) (obeys : s.dev.obeys m clsSERVICE .any (64 * argAt m 40 24)) (halted : s.dev.halted = true)
    (within : 64 * (argAt m 16 24 + argAt m 40 24) ≤ len) :
    Leads (hostParts m []) (.scan m) s fun d => s.dev.replied d m stOK (64 * argAt m 40 24) (s.dev.scanned m) := by
  have length : (s.dev.scanned m).length = 64 * argAt m 40 24 := length_scan chain (by omega) s.dev
  rw [← length] at obeys ⊢
  exact leads_scan_of_passes hup obeys (by rw [scanChecks_of_within chain empty within, if_pos halted])
end
end

/-- Settles O56. The checks of SCAN come in the order chain, data, range, halt, so that each clause is the first check that fails, or none;
the data of an answer has the length asked for, whatever the chain, and is none for a length of 0. -/
theorem scanAnswersByChainAndRange : Obligations.ScanAnswersByChainAndRange := by
  refine ⟨fun m len s hup obeys empty halted chain within => ?bits, fun m s hup obeys _ reserved => ?reserved,
    fun m len s hup obeys empty chain beyond => ?beyond, fun m len s hup obeys empty halted chain zero within => ?zero,
    fun m len s hup obeys empty running chain within => ?busy⟩
  case bits => exact leads_scan_of_halted chain empty hup obeys halted within
  case reserved => exact leads_scan_of_cause hup obeys (scanChecks_of_reserved reserved s.dev)
  case beyond => exact leads_scan_of_cause hup obeys (scanChecks_of_beyond chain empty beyond s.dev)
  case zero =>
    have none_asked : 64 * argAt m 40 24 = 0 := by omega
    have no_bits : s.dev.scanned m = [] := List.eq_nil_of_length_eq_zero ((length_scan chain (by omega) s.dev).trans none_asked)
    have answered := leads_scan_of_halted chain empty hup (by rwa [none_asked]) halted (by omega)
    rwa [none_asked, no_bits] at answered
  case busy =>
    exact leads_scan_of_cause hup obeys (by rw [scanChecks_of_within chain empty within, if_neg (by simp [running])])

end Sys2Proof.Machine
